-- ==== Sys2Proof/Word.lean ====
section
/-! DEFINITION. The word and byte of the device: every register is 32 bits wide (00_scope.md), memory is read and
written by bytes. -/

namespace Sys2Proof

/-- A register's content, or one mailbox or ring word. -/
abbrev Word := BitVec 32

/-- One byte of memory, of a frame, of an image or of a record. -/
abbrev Byte := BitVec 8

/-- A Nat as a two's-complement number of `w` bits. -/
def toSigned (w n : Nat) : Int :=
  let m := n % 2 ^ w
  if 2 * m < 2 ^ w then (m : Int) else (m : Int) - (2 ^ w : Nat)

/-- A signed number as the `w`-bit two's-complement pattern it leaves, as a Nat. -/
def ofSigned (w : Nat) (i : Int) : Nat := (i % ((2 ^ w : Nat) : Int)).toNat

/-- `n` held at the largest value of `w` bits. -/
def satBits (w n : Nat) : Nat := min n (2 ^ w - 1)

/-- A signed number held at the limits of `w` bits, two's complement. -/
def satSigned (w : Nat) (i : Int) : Int :=
  max (-((2 ^ (w - 1) : Nat) : Int)) (min i (((2 ^ (w - 1) : Nat) : Int) - 1))

end Sys2Proof
end

