-- ==== Sys2Proof/Syntax.lean ====
section
/-! DEFINITION. The commands the device takes: one constructor for each row of the spec's table of operations and
events, with the operands a sender gives it: the port that issues it, the instance it is for, the value written, and, for
an event of the world outside the model (a captured edge, a received frame, a measured voltage), what the world presents.
-/

namespace Sys2Proof

/-- The two host ports (R577, R579). -/
inductive Port where
  | a | b
  deriving DecidableEq, Repr

/-- The four quarters of a block's space (R584); `setPeek` is the set alias of a control register and the peek alias of
a status register. -/
inductive Quarter where
  | normal | setPeek | clear | toggle
  deriving DecidableEq, Repr

/-- The widths a register access may have (R587). -/
inductive Width where
  | b1 | b2 | b4 | b8
  deriving DecidableEq, Repr

/-- The bytes of a width. -/
def Width.bytes : Width → Nat
  | .b1 => 1 | .b2 => 2 | .b4 => 4 | .b8 => 8

/-- A host access to register space: BAR0 offset, width, byte enables counted from the first byte of the access, and, for a
write, its data with the byte at the lowest address in bits 7:0 (R587). -/
structure Access where
  addr : BitVec 24
  width : Width
  enables : BitVec 8
  data : BitVec 64
  deriving DecidableEq, Repr

/-- A host write to one register that the command names: the quarter it is written through, the byte of the register it
starts at, its width and its data. -/
structure RegAcc where
  quarter : Quarter
  lane : Fin 4
  width : Width
  data : BitVec 64
  deriving DecidableEq, Repr

/-- What the strap balls show (R646, R688). -/
structure Straps where
  xofreq : BitVec 3
  nand : Bool
  deriving DecidableEq, Repr

/-- The rails whose brown-out resets the device (R687). -/
inductive WatchedRail where
  | vddCore | vddSram | vddIo | vddIo3
  deriving DecidableEq, Repr

/-- The resets of host port A (R578). -/
inductive PcieReset where
  | perst | hot | flr | d3hot | backToD0 | perstRelease
  deriving DecidableEq, Repr

/-- What the TDC front end of a landing holds at one raw edge (R158 to R163, R169, R177): the coarse count and the capture
word of the edge, the two calibration captures, whether the wharf of the landing is full, and, for each landing whose interval may stop at
the edge as its peer's, the capture word of its own interpolator and whether its own wharf is full (R173). -/
structure Capture where
  coarse : BitVec 44
  word : BitVec 512
  c1w : BitVec 512
  c2w : BitVec 512
  wharfFull : Bool
  peers : Vector (BitVec 512 × Bool) 32
  deriving DecidableEq, Repr

/-- What the time-stamp unit of a lane captures for one frame (R411, R412): the interpolated capture edge in ps after the
latest tick of the 1 GHz time base, the serial position S, and whether the interpolator gave a result. -/
structure StampCap where
  edgePs : Nat
  pos : Nat
  ok : Bool
  deriving DecidableEq, Repr

/-- The stamp capture of a frame that leaves, and whether the wharf of its lane is full (R58). -/
structure TxCapture where
  cap : StampCap
  wharfFull : Bool
  deriving DecidableEq, Repr

/-- The fault that sequence ordered sets signal to a reconciliation sublayer (R401). -/
inductive LineFault where
  | none | localFault | remoteFault
  deriving DecidableEq, Repr

/-- What the PCS and the reconciliation sublayer of a port tell at a frame: invalid sync headers, corrected and uncorrectable codewords since
the frame before (R438), and the fault that is signalled, while which there is no frame (R401; log entry 85, DESIGN CHOICE). -/
structure LineStat where
  blockErr : Nat
  fecCorr : Nat
  fecUncorr : Nat
  fault : LineFault
  deriving DecidableEq, Repr

/-- A frame received at a port: its octets from the destination address to the end of the payload, whether its frame
check sequence is right, what its time-stamp unit captured, whether the wharf of the port is full, and what the line tells. -/
structure RxFrame where
  bytes : List Byte
  fcsOk : Bool
  cap : StampCap
  wharfFull : Bool
  line : LineStat
  deriving DecidableEq, Repr

/-- A frame received on a lane of the crossing link, from its TYPE to its CRC (R528), and whether the wharf of the lane was full when it
came (R58). -/
structure XlkFrame where
  bytes : List Byte
  cap : StampCap
  wharfFull : Bool
  deriving DecidableEq, Repr

/-- A source or destination address of a PTP message. -/
inductive PtpAddr where
  | mac (a : BitVec 48)
  | v4 (a : BitVec 32)
  | v6 (a : BitVec 128)
  deriving DecidableEq, Repr

/-- The PTP message types (R446); `other` stands for the types the engine discards (R440). -/
inductive PtpKind where
  | sync | delayReq | followUp | delayResp | announce | signaling | management | other
  deriving DecidableEq, Repr

/-- The AUTHENTICATION TLV (R479). -/
structure PtpAuth where
  spp : BitVec 8
  keyId : Word
  icv : List Byte
  deriving DecidableEq, Repr

/-- What an Announce carries (R451, R467). -/
structure Dataset where
  gm : BitVec 64
  prio1 : Nat
  cls : Nat
  acc : Nat
  var : Nat
  prio2 : Nat
  steps : Nat
  source : Nat
  utc : Int
  utcValid : Bool
  timeTr : Bool
  freqTr : Bool
  deriving DecidableEq, Repr

/-- The unicast negotiation TLVs (R440). -/
inductive SigOp where
  | request | grant | cancel | ackCancel
  deriving DecidableEq, Repr

/-- The message types a grant is for (R449, R450). -/
inductive GrantKind where
  | announce | sync | delayResp
  deriving DecidableEq, Repr

/-- One negotiation TLV: the message type, logInterMessagePeriod and durationField. -/
structure SigTlv where
  op : SigOp
  kind : GrantKind
  logPer : Int
  dur : Nat
  deriving DecidableEq, Repr

/-- A PTP message by its fields (log entry 21, DESIGN CHOICE): addresses, tags outer first, header, timestamp, requestingPortIdentity,
dataset, TLVs; correctionField in 2⁻¹⁶ ns, identities as clockIdentity then portNumber. -/
structure PtpMsg where
  kind : PtpKind
  src : PtpAddr
  dst : PtpAddr
  tags : List Word
  version : Nat
  minor : Nat
  domain : Nat
  twoStep : Bool
  corr : Int
  srcId : BitVec 80
  seq : BitVec 16
  logInt : Int
  sec : Nat
  ns : Nat
  reqId : BitVec 80
  data : Option Dataset
  tlvs : List SigTlv
  auth : Option PtpAuth
  deriving DecidableEq, Repr

/-- A PTP message as a port receives it, with the octets its ICV covers, what the time-stamp unit captured, whether the wharf of the
port is full, and, where the message carries TLVs that go to the host, the octets of its frame (R440). -/
structure PtpFrame where
  msg : PtpMsg
  signed : List Byte
  cap : StampCap
  wharfFull : Bool
  toHost : List Byte
  deriving DecidableEq, Repr

/-- How far TAKE_OWNERSHIP has come (R555, R557): the fuse pattern is recorded and being blown, its last fuse is blown, or a fuse has failed
to program. -/
inductive OwnStage where
  | recorded | fused | failed
  deriving DecidableEq, Repr

/-- The IEEE 1149.1 instructions of R573; `other` is any that its table does not list for the lifecycle state. -/
inductive TapInstr where
  | bypass | samplePreload | extest | idcode | clamp | highz
  | deviceTest
  | other
  deriving DecidableEq, Repr

/-- What a pass of the flash scrub finds (R650, R651): blocks it refreshes, and blocks that go bad with the logical
addresses of the pages of each that could not be read. -/
structure ScrubOutcome where
  refreshed : List Nat
  bad : List (Nat × List Nat)
  deriving DecidableEq, Repr

/-- A fault message (R661). -/
structure FaultMsg where
  source : BitVec 10
  kind : BitVec 6
  addr : Word
  deriving DecidableEq, Repr


/-- What the checkers that watch an engine's arithmetic, its time and the read-back of its checkpoint find at an update (R308,
causes 0x1, 0x2 and 0x5). -/
inductive CheckOutcome where
  | pass | arithmetic | late | checkpoint
  deriving DecidableEq, Repr


/-- How far a receiver has come in a link return: steps 1 to 3 of R407. -/
inductive LinkStep where
  | signal | cdrLock | tracking
  deriving DecidableEq, Repr

/-- A step of a link return, and the port whose receiver takes it. -/
structure LinkReturn where
  port : Fin 8
  step : LinkStep
  deriving DecidableEq, Repr

/-- Which of the conditions of R406 a port has lost. -/
inductive LinkLoss where
  | signal | blockLock | fecLock | highBer
  deriving DecidableEq, Repr

/-- What a port has lost, and whether the loss cut off a frame in reception (R435). -/
structure LinkEnd where
  why : LinkLoss
  cut : Bool
  deriving DecidableEq, Repr

/-- A command: one constructor per row of the table of operations and events. -/
inductive Instr where
  /-- REGISTER_WRITE (R591). A host write to a register that has no row of its own is checked in order and performed or refused as a bus error. -/
  | registerWrite (p : Port) (a : Access)
  /-- CLEARING_READ (R588). A normal-view read of a status register returns its fields and clears the RC bits in the lanes read, but only for a port that holds the helm or for a port-relative register. -/
  | clearingRead (p : Port) (a : Access)
  /-- CANARY_WINDOW_END (R62). At the end of each 8,192-tick measurement window the adaptive voltage loop acts on the canary lap count. -/
  | canaryWindowEnd (laps : BitVec 16)
  /-- AVS_STEP_DONE (R66). After a voltage step the device reads back the voltage and AVSBus status. -/
  | avsStepDone (mv : Nat) (ok : Bool)
  /-- AVS_EVENT_READ (R66). A read of PWR.AVS_EVENT by the helm holder clears the sticky bits and AVS_STATUS.BUSERR, letting stepping resume. -/
  | avsEventRead (p : Port)
  /-- POWER_ON (R685). The supply rails rise under the power sequence, leading to a cold reset. -/
  | powerOn
  /-- RESET_N_FALL (R690). RESET_N low for 1 us triggers a cold reset, after a power-fail-style store when NV recovery has completed. -/
  | resetNFall
  /-- RESET_N_RISE (R693). The rise of RESET_N starts the cold start-up sequence and host port answering. -/
  | resetNRise (straps : Straps)
  /-- BROWN_OUT (R687). A watched rail below its threshold for 1 us causes a store, when armed, and a cold reset. -/
  | brownOut (rail : WatchedRail)
  /-- REFSYN_LOCKED (R693). The reference synthesiser locks and AVSBus code 26 is written at start-up. -/
  | refsynLocked
  /-- STARTUP_INIT_DONE (R693). Outstanding fuse programming, engine self-tests and scratchpad fill complete at start-up. -/
  | startupInitDone (failed : List (Fin 36)) (fuseOk : Bool)
  /-- NV_RECOVERY_DONE (R645). NV recovery completes or rolls back an interrupted commit and loads floors, ledgers and the logbook head. -/
  | nvRecoveryDone
  /-- FLM_LINK_READY (R647). The flash manager reads the link descriptor and directory and switches mode, after which FAB starts the load of CURRENT. -/
  | flmLinkReady
  /-- FULLRST_N_FALL (R691). The falling edge of FULLRST_N begins a full reset. -/
  | fullrstNFall
  /-- FULLRST_N_RISE (R691). The rise of FULLRST_N lets the held full-reset load begin. -/
  | fullrstNRise
  /-- TOP_CMD_FULL_RESET (R697). Writing 0x0000_A501 to TOP.CMD starts a full reset with cause 1. -/
  | topCmdFullReset (p : Port) (key : Word)
  /-- STAGE (R137). FAB operation that puts the slipway in FILLING for host writes. -/
  | stage (p : Port)
  /-- VERIFY (R137). FAB operation that starts verification of the staged image. -/
  | verify (p : Port)
  /-- VERIFY_DONE (R131). Verification ends, leaving the slipway VERIFIED or REJECTED with a failure code. -/
  | verifyDone
  /-- WRITE_SLOT (R137). FAB operation that starts programming the verified slipway into a flash slot. -/
  | writeSlot (p : Port) (slot : BitVec 2)
  /-- WRITE_SLOT_DONE (R725). Programming and read-back of a slot end and the slot becomes WRITTEN. -/
  | writeSlotDone (readBack : Bool) (bad : List (Nat × List Nat))
  /-- LOAD_SLOT (R137). FAB operation that starts copying a slot into the slipway for verification. -/
  | loadSlot (p : Port) (slot : BitVec 2)
  /-- LOAD_SLOT_DONE (R725). The copied slot has been verified and the slipway is VERIFIED or REJECTED. -/
  | loadSlotDone (bad : List (Nat × List Nat))
  /-- ERASE_SLOT (R137). FAB operation that starts erasing a slot that is not CURRENT. -/
  | eraseSlot (p : Port) (slot : BitVec 2)
  /-- ERASE_SLOT_DONE (R725). The slot erase and boot-record commit end and the slot is EMPTY. -/
  | eraseSlotDone
  /-- READ_ID (R137). FAB operation that places IMAGE_ID and configuration hash of a slot in the mailbox. -/
  | readId (p : Port) (slot : BitVec 2)
  /-- ACTIVATE (R142). FAB operation that commits PENDING and performs a full reset that loads the slipway. -/
  | activate (p : Port) (handover : Bool)
  /-- ACTIVATE_HANDOVER_TIMEOUT (R149). A handover switchover not complete within 100 ms makes ACTIVATE complete with LOCKED. -/
  | activateHandoverTimeout
  /-- COMMIT_ROLLBACK (R148). FAB operation that starts blowing anti-rollback fuses up to ARG. -/
  | commitRollback (p : Port)
  /-- ROLLBACK_FUSES_DONE (R148). Fuses reach the target count and slots below it are marked BAD. -/
  | rollbackFusesDone (fuseOk : Bool)
  /-- IMAGE_LANDED (R143). The load completes structure, carry and preload, and FAB updates state, slots and boot record. -/
  | imageLanded
  /-- LOAD_FAILED (R145). A check fails during a load, the slot is marked BAD and a full reset makes the next attempt. -/
  | loadFailed (bad : List (Nat × List Nat))
  /-- LANDING_WATCHDOG_EXPIRY (R144). The landing watchdog expires before landing, setting FAIL_CODE 0x0B and resetting for the next attempt. -/
  | landingWatchdogExpiry
  /-- LANDING_EDGE (R169). A raw edge of the selected polarity arrives at a landing and is counted, decimated and stamped. -/
  | landingEdge (n : Fin 32) (cap : Capture)
  /-- ACTIVITY_LOST (R184). No raw edge for ACT.HALF half-periods declares loss of activity at the landing. -/
  | activityLost (n : Fin 32)
  /-- SLICER_UPDATE (R153). At the end of an update interval the slicer moves THRESH one step towards the midpoint or holds. -/
  | slicerUpdate (n : Fin 32) (mid : Int) (amp : Nat)
  /-- COARSE_WRAP (R158). The 44-bit coarse counter wraps and EPOCH.COUNT increments. -/
  | coarseWrap
  /-- GATE_END (R174). A stamp-mode gate ends at its boundary and hands its stamps to the regression. -/
  | gateEnd (n : Fin 32)
  /-- GATE_LONG_TIMEOUT (R174). A gate-bounded gate closes with LONG after 1,000 s without a task. -/
  | gateLongTimeout (n : Fin 32)
  /-- INTERVAL_OVERFLOW (R174). An interval reaching 2^44 periods without a stop ends with OVF and a GAP result. -/
  | intervalOverflow (n : Fin 32)
  /-- INTERVAL_DONE (R176). An interval result becomes available after its stop capture. -/
  | intervalDone (n : Fin 32)
  /-- REGRESSION_DONE (R179). The regression result of a gate becomes available and is tagged. -/
  | regressionDone (n : Fin 32)
  /-- LND30_SLICE_END (R180). LND[30] ends a 1 ms slice and produces y30 for that slice. -/
  | lnd30SliceEnd
  /-- ARM_TDC_TASK (R174). The arm TDC task starts a gate or a gate-bounded measurement. -/
  | armTdcTask (n : Fin 32)
  /-- LND_ARM (R174). Writing CMD.ARM has the effect of an arm TDC task. -/
  | lndArm (p : Port) (n : Fin 32)
  /-- FETCH_RESULT (R183). Places the latest completed landing result in the mailbox as a snapshot. -/
  | fetchResult (p : Port) (n : Fin 32)
  /-- FETCH_CAL (R183). Places the latest calibration record in the mailbox. -/
  | fetchCal (p : Port) (n : Fin 32)
  /-- LND_CTRL_WRITE (R186). A write to a landing CTRL field abandons the measurement in progress and restarts the landing. -/
  | lndCtrlWrite (p : Port) (n : Fin 32) (a : RegAcc)
  /-- LND_DECIM_WRITE (R167). A new decimation is checked against the rate limit and takes effect at the next gate boundary. -/
  | lndDecimWrite (p : Port) (n : Fin 32) (a : RegAcc)
  /-- LND_GATE_WRITE (R186). A new gate length takes effect at the next gate boundary. -/
  | lndGateWrite (p : Port) (n : Fin 32) (a : RegAcc)
  /-- LND_NOM_FREQ_WRITE (R192). A new nominal frequency may change the candidate kind, reload limits and fail the entry's frequency monitor. -/
  | lndNomFreqWrite (p : Port) (n : Fin 32) (a : RegAcc)
  /-- LND_OBS_WRITE (R186). Choosing the output that LND[31] observes restarts the landing. -/
  | lndObsWrite (p : Port) (a : RegAcc)
  /-- LND_SLICE_WRITE (R154). A pilot manual threshold write steps the slicer threshold. -/
  | lndSliceWrite (p : Port) (n : Fin 32) (a : RegAcc)
  /-- WTR_EXPIRY (R211). A wait-to-restore timer expires and the entry requalifies or reloads its timer. -/
  | wtrExpiry (n : Fin 16) (k : Fin 30)
  /-- HOLDOFF_EXPIRY (R221). The hold-off ends and the selector returns, switches or enters HOLDOVER. -/
  | holdoffExpiry (n : Fin 16)
  /-- READMIT (R216). Makes a WTR entry QUALIFIED at once while the selector is in HOLDOVER. -/
  | readmit (p : Port) (n : Fin 16) (k : Fin 30)
  /-- SEL_FORCE_WRITE (R229). Setting or clearing FORCE.EN enters or leaves FORCED selection. -/
  | selForceWrite (p : Port) (n : Fin 16) (a : RegAcc)
  /-- SEL_CAND_CFG_WRITE (R227). A priority or host QL write to a candidate triggers evaluation or waits for the hold-off. -/
  | selCandCfgWrite (p : Port) (n : Fin 16) (k : Fin 30) (a : RegAcc)
  /-- ESMC_TIMEOUT (R204). No ESMC PDU for 5 s sets the entry rank to 0xF. -/
  | esmcTimeout (n : Fin 8)
  /-- LOOP_UPDATE (R236). At an update boundary the engine forms a phase sample, runs the loop equations and writes the control word and checkpoint. -/
  | loopUpdate (n : Fin 32) (chk : CheckOutcome)
  /-- LOCK_DWELL_EXPIRY (R251). Lock criteria held in the final gear for LOCK_DWELL make the loop LOCKED. -/
  | lockDwellExpiry (n : Fin 32)
  /-- GEAR_DWELL_EXPIRY (R252). An acquisition gear ends and the next gear or the final gear begins. -/
  | gearDwellExpiry (n : Fin 32)
  /-- STEP_LOAD (R257). Arms a phase step amount taken from the mailbox. -/
  | stepLoad (p : Port) (n : Fin 32)
  /-- STEP_GO (R258). Applies the armed step amount to the step remainder. -/
  | stepGo (p : Port) (n : Fin 32)
  /-- STEP_CANCEL (R259). Sets the step remainder to 0 and disarms. -/
  | stepCancel (p : Port) (n : Fin 32)
  /-- STEP_PHASE_TASK (R258). The step phase task applies the armed amount as STEP_GO does. -/
  | stepPhaseTask (n : Fin 32)
  /-- LOOP_FETCH (R271). Places a snapshot of the loop's last update in the mailbox. -/
  | loopFetch (p : Port) (n : Fin 32)
  /-- LOOP_BW_WRITE (R238). A new bandwidth within range takes effect at the next update boundary. -/
  | loopBwWrite (p : Port) (n : Fin 32) (a : RegAcc)
  /-- LOOP_SLOPE_WRITE (R243). A new phase-slope limit takes effect at the next update boundary. -/
  | loopSlopeWrite (p : Port) (n : Fin 32) (a : RegAcc)
  /-- LOOP_FREE_FREQ_WRITE (R256). A new free-run offset is approached at no more than L. -/
  | loopFreeFreqWrite (p : Port) (n : Fin 32) (a : RegAcc)
  /-- LOOP_COEF_WRITE (R266). A pilot raw coefficient write is checked and stored for use. -/
  | loopCoefWrite (p : Port) (n : Fin 32) (integral : Bool) (a : RegAcc)
  /-- LOOP_DAMP_WRITE (R267). A pilot damping write changes the derived coefficients. -/
  | loopDampWrite (p : Port) (n : Fin 32) (a : RegAcc)
  /-- LOOP_WEIGHT_COMMIT (R262). Writing WEIGHT[3] puts a new weight set in force with a compensating build-out. -/
  | loopWeightCommit (p : Port) (n : Fin 32) (a : RegAcc)
  /-- HISTORY_INTERVAL_END (R275). Every 64 s a loop writes a tagged history record and starts a refit. -/
  | historyIntervalEnd (n : Fin 32)
  /-- REFIT_DONE (R280). A model refit completes and replaces the model in force. -/
  | refitDone (n : Fin 32)
  /-- ENTRY_FIT_DONE (R282). The holdover entry fit completes, or finds no model. -/
  | entryFitDone (n : Fin 32)
  /-- HOLDOVER_SECOND (R284). Each whole second in HOLDOVER the loop evaluates the model and ramps the holdover frequency. -/
  | holdoverSecond (n : Fin 32)
  /-- TEMPERATURE_SAMPLE (R274). At each whole second the loop filters temperature into T_eff. -/
  | temperatureSample (n : Fin 32) (die : Int)
  /-- HO_TEMP_WRITE (R273). The host writes a temperature, ending staleness. -/
  | hoTempWrite (p : Port) (n : Fin 32) (a : RegAcc)
  /-- TEMP_STALE_TIMEOUT (R273). A host temperature unwritten for 60 s becomes stale. -/
  | tempStaleTimeout (n : Fin 32)
  /-- FETCH_MODEL (R294). Places the model in force in the mailbox. -/
  | fetchModel (p : Port) (n : Fin 32)
  /-- LOAD_MODEL (R295). Stores a model record from the mailbox as the loaded model. -/
  | loadModel (p : Port) (n : Fin 32)
  /-- CLEAR_HISTORY (R297). Marks every history record GAP and removes the fitted model. -/
  | clearHistory (p : Port) (n : Fin 32)
  /-- HO_OVR_WRITE (R296). Setting or clearing OVR switches between the loaded and fitted model. -/
  | hoOvrWrite (p : Port) (n : Fin 32) (a : RegAcc)
  /-- FAILOVER_RESUME (R309). A pontoon has loaded the failed engine's checkpoint, catches up and takes over the loop. -/
  | failoverResume (n : Fin 32) (chk : CheckOutcome)
  /-- MIGRATION_RESUME (R314). A planned migration completes on the receiving engine. -/
  | migrationResume (n : Fin 32) (chk : CheckOutcome)
  /-- HISTORY_COPY_DONE (R311). The history copy into the receiving engine completes and a refit runs. -/
  | historyCopyDone (e : Fin 36)
  /-- RETIRE (R313). Engine operation that migrates a bound engine's loop and retires the engine. -/
  | engRetire (p : Port) (h : Word)
  /-- RETURN (R313). Engine operation that starts the self-test of a retired engine. -/
  | engReturn (p : Port) (h : Word)
  /-- MIGRATE (R313). Pilot engine operation that migrates a loop to a named pontoon. -/
  | engMigrate (p : Port) (h e : Word)
  /-- ENGINE_SELF_TEST_DONE (R315). A self-test ends, making the engine a pontoon or fencing it. -/
  | engineSelfTestDone (e : Fin 36) (pass : Bool)
  /-- FERRY_LIMIT_EXPIRY (R319). Ferry hold reaches FERRY_LIMIT and each output takes its squelch action. -/
  | ferryLimitExpiry
  /-- LAND_WAIT_EXPIRY (R324). A loop in FERRY_HOLD goes to HOLDOVER on its model after LAND_WAIT. -/
  | landWaitExpiry (n : Fin 32)
  /-- BAND_CAL_DONE (R331). Band calibration of a starting synthesiser completes. -/
  | bandCalDone (n : Fin 8) (band : Nat)
  /-- ANALOG_ACQ_DONE (R331). Analog acquisition of a starting synthesiser completes. -/
  | analogAcqDone (n : Fin 8)
  /-- LOCK_WINDOW_END (R332). A synthesiser lock-counter window ends and is judged in or out of tolerance. -/
  | lockWindowEnd (n : Fin 8) (dev : Int)
  /-- RAMP_TO (R336). Builds a one-segment ramp profile to a target and starts or arms it. -/
  | rampTo (p : Port) (n : Fin 8) (arm : Bool)
  /-- RAMP_LOAD (R334). Pilot operation that loads one segment of a ramp profile. -/
  | rampLoad (p : Port) (n : Fin 8) (seg : BitVec 4)
  /-- RAMP_GO (R337). Starts or continues the prepared ramp profile. -/
  | rampGo (p : Port) (n : Fin 8)
  /-- RAMP_STOP (R339). Ends a ramp at the frequency reached and discards the profile. -/
  | rampStop (p : Port) (n : Fin 8)
  /-- FETCH_NOM (R336). Places the nominal VCO frequency in force in the mailbox. -/
  | fetchNom (p : Port) (n : Fin 8)
  /-- START_RAMP_TASK (R337). The start ramp task starts the prepared profile. -/
  | startRampTask (n : Fin 8)
  /-- RAMP_SEGMENT_END (R337). A ramp segment reaches its END and the ramp holds, continues or completes. -/
  | rampSegmentEnd (n : Fin 8)
  /-- DIV_LOAD (R345). Takes a new output divider from the mailbox. -/
  | divLoad (p : Port) (m : Fin 28)
  /-- DIV_APPLY (R345). A loaded divider takes effect at the end of the output period. -/
  | divApply (m : Fin 28)
  /-- FETCH_DIV (R345). Places the divider in force in the mailbox. -/
  | fetchDiv (p : Port) (m : Fin 28)
  /-- OUT_ALIGN (R346). Requests a re-alignment of an output at the next sync point. -/
  | outAlign (p : Port) (m : Fin 28)
  /-- REALIGN_OUTPUT_TASK (R346). The re-align output task requests an alignment of the output. -/
  | realignOutputTask (m : Fin 28)
  /-- SYNC_POINT (R346). At the sync point pending outputs start their first period after PHASE. -/
  | syncPoint (n : Fin 8)
  /-- GROUP_ENABLE (R352). Enables every output in the mask at one common sync point. -/
  | groupEnable (p : Port) (n : Fin 8) (mask : BitVec 28)
  /-- GROUP_REALIGN (R352). Re-aligns every output in the mask at one common sync point. -/
  | groupRealign (p : Port) (n : Fin 8) (mask : BitVec 28)
  /-- GROUP_DISABLE (R352). Disables every output in the mask. -/
  | groupDisable (p : Port) (n : Fin 8) (mask : BitVec 28)
  /-- OUT_EN_WRITE (R349). Enabling or disabling an output, subject to the EB output limit. -/
  | outEnWrite (p : Port) (m : Fin 28) (a : RegAcc)
  /-- PULSE_LEADING_EDGE (R356). A pulse output's leading edge occurs on its grid and raises its event. -/
  | pulseLeadingEdge (m : Fin 28)
  /-- PDIFF_CHECK (R359). Every 1 ms a pulse output compares its pulse clock with its anchor. -/
  | pdiffCheck (m : Fin 28)
  /-- SET_INC (R372). Sets a time scale's increment after the jump check. -/
  | setInc (p : Port) (n : Fin 8)
  /-- ADJUST (R374). Adds an amount to the adjust remainder to be slewed in. -/
  | adjust (p : Port) (n : Fin 8)
  /-- STEP (R375). Moves a time scale's value by an amount at one tick after the jump check. -/
  | tscStep (p : Port) (n : Fin 8)
  /-- STEP_TICKET (R379). Hands a step and its ticket to the enclave for verification. -/
  | stepTicket (p : Port) (n : Fin 8)
  /-- TICKET_VERIFIED (R568). The enclave finishes checking a ticket and releases or rejects the step. -/
  | ticketVerified (n : Fin 8)
  /-- SET_TIME (R371). Sets an UNSET time scale under its floor, or steps a SET one. -/
  | setTime (p : Port) (n : Fin 8)
  /-- SCHEDULE (R376). Pilot command that schedules an increment at a value or task. -/
  | schedule (p : Port) (n : Fin 8)
  /-- CANCEL_SCHED (R376). Discards the pending scheduled increment. -/
  | cancelSched (p : Port) (n : Fin 8)
  /-- SNAP (R372). Places the time-scale value and status in the mailbox. -/
  | snap (p : Port) (n : Fin 8)
  /-- SET_THRESH (R380). Lowers a time scale's jump threshold within the image's value. -/
  | setThresh (p : Port) (n : Fin 8)
  /-- SECOND_ROLLOVER (R367). NS reaches 1e9 and SECONDS increments on a time scale. -/
  | secondRollover (n : Fin 8)
  /-- MANIFEST_SIGNED (R514). The enclave finishes signing the sealed records and SEALED is set. -/
  | manifestSigned
  /-- ADJUST_COMPLETE (R374). The adjust remainder reaches 0 and ADJ_DONE is set. -/
  | adjustComplete (n : Fin 8)
  /-- SCHEDULED_INCREMENT_DUE (R376). The scheduled value is reached and the scheduled increment applies after the jump check. -/
  | scheduledIncrementDue (n : Fin 8)
  /-- APPLY_SCHED_TASK (R376). The apply scheduled increment task applies a pending increment. -/
  | applySchedTask (n : Fin 8)
  /-- TODOUT_MESSAGE (R387). A TODOUT line starts its message 1 to 2 ms after a second rollover. -/
  | todoutMessage (k : Fin 2)
  /-- SWEVT (R391). Writing EVR.SWEVT raises software events in one handshake. -/
  | swevt (p : Port) (mask : BitVec 16)
  /-- ROUTE_WRITE (R396). A route write, checked for helm of EVR and the target, applies to later events. -/
  | routeWrite (p : Port) (r : Fin 256) (w : Fin 3) (a : RegAcc)
  /-- STAMP_TASK (R385). An event berth's stamp task queues a stamp record and rings its doorbell. -/
  | stampTask (slot : Fin 8192)
  /-- SEND_BERTH_MESSAGE_TASK (R507). The send berth message task transmits the berth's stored frame. -/
  | sendBerthMessageTask (slot : Fin 8192)
  /-- LINK_SIGNAL_DETECT (R407). A signal is detected at a port's receive balls and link return begins. -/
  | linkSignalDetect (x : LinkReturn)
  /-- LINK_UP (R407). CDR, adaptation and lock complete and the port is up. -/
  | linkUp (n : Fin 8)
  /-- LINK_SETTLED (R407). Lock held 1 ms and 16 frames received end the link-return settling count. -/
  | linkSettled (n : Fin 8)
  /-- LINK_DOWN (R406). A port loses signal or lock and goes down. -/
  | linkDown (n : Fin 8) (x : LinkEnd)
  /-- LINK_HOLD_EXPIRY (R435). Held general frames are discarded when HOLD_MS expires. -/
  | linkHoldExpiry (n : Fin 8)
  /-- FRAME_RECEIVED (R424). A received frame is checked, filtered and passed to its consumer or the receive buffer. -/
  | frameReceived (n : Fin 8) (f : RxFrame)
  /-- ESMC_PDU_RECEIVED (R431). An accepted ESMC PDU sets the rank of the port's ESMC entries. -/
  | esmcPduReceived (n : Fin 8) (f : RxFrame)
  /-- PAUSE_RECEIVED (R429). A received PAUSE frame halts transmission for its quanta. -/
  | pauseReceived (n : Fin 8) (f : RxFrame)
  /-- PAUSE_QUANTA_EXPIRY (R429). The received pause time ends and transmission resumes. -/
  | pauseQuantaExpiry (n : Fin 8)
  /-- PAUSE_WATCHDOG_EXPIRY (R430). Pause held for WD_US resumes transmission and ignores pause for as long again. -/
  | pauseWatchdogExpiry (n : Fin 8)
  /-- PAUSE_REPEAT (R428). A PAUSE frame is repeated after half the quanta while occupancy stays high. -/
  | pauseRepeat (n : Fin 8)
  /-- ESMC_INFO_TX (R432). A port sends its once-per-second ESMC information PDU. -/
  | esmcInfoTx (n : Fin 8)
  /-- TX_STAMP_DELIVERY (R422). An event frame leaves and its transmit stamp goes to its owner. -/
  | txStampDelivery (n : Fin 8) (x : TxCapture)
  /-- PREEMPT_VERIFY_DONE (R418). 802.3br verification succeeds or fails, enabling or disabling preemption. -/
  | preemptVerifyDone (n : Fin 8) (ok : Bool)
  /-- FRAME_SEND (R420). Queues a host frame for transmission, optionally stamped. -/
  | frameSend (p : Port) (a0 a1 a2 a3 : Word)
  /-- FRAME_RECV (R421). Moves the oldest host frame with its ingress stamp into a scratchpad area. -/
  | frameRecv (p : Port) (a0 a1 a2 a3 : Word)
  /-- TSQ_POP (R422). Moves the oldest time-stamp queue entry into the mailbox. -/
  | tsqPop (p : Port) (n : Fin 8)
  /-- FETCH_STATS (R438). Places a statistics snapshot in the mailbox and clears the counters. -/
  | fetchStats (p : Port) (n : Fin 8)
  /-- PEEK_STATS (R438). Places a statistics snapshot in the mailbox without clearing. -/
  | peekStats (p : Port) (n : Fin 8)
  /-- WAKE_LOAD (R427). Loads a wake pattern from the mailbox on PRT[0-1]. -/
  | wakeLoad (p : Port) (n : Fin 8)
  /-- PRT_LOOPCAL (R414). Starts a serial loopback calibration of a port's latency constants. -/
  | prtLoopcal (p : Port) (n : Fin 8)
  /-- PRT_LOOPCAL_DONE (R414). The port loopback calibration completes and adjusts its constants. -/
  | prtLoopcalDone (n : Fin 8) (diff : Int)
  /-- PRT_DORMANT_WRITE (R409). Writing DORMANT takes a port into or out of the dormant state. -/
  | prtDormantWrite (p : Port) (n : Fin 8) (a : RegAcc)
  /-- PRT_TXCLK_WRITE (R403). Changing the transmit reference takes the link down and retrains it. -/
  | prtTxclkWrite (p : Port) (n : Fin 8) (a : RegAcc)
  /-- PRT_ADMIN_WRITE (R406). Writing ADMIN holds the link down or releases it. -/
  | prtAdminWrite (p : Port) (n : Fin 8) (a : RegAcc)
  /-- SYNC_RECEIVED (R457). A Sync from an upstream berth is stamped, paired and used for offsets. -/
  | syncReceived (n : Fin 8) (f : PtpFrame)
  /-- DELAY_REQ_RECEIVED (R452). A Delay_Req from a client berth is answered by the responder, or queued for admission. -/
  | delayReqReceived (n : Fin 8) (f : PtpFrame)
  /-- FOLLOW_UP_RECEIVED (R457). A Follow_Up is paired with its Sync or discarded as an orphan. -/
  | followUpReceived (n : Fin 8) (f : PtpFrame)
  /-- DELAY_RESP_RECEIVED (R458). A Delay_Resp is matched to the engine's Delay_Req to give a path delay. -/
  | delayRespReceived (n : Fin 8) (f : PtpFrame)
  /-- ANNOUNCE_RECEIVED (R467). An Announce updates the berth's dataset and best-master assistance. -/
  | announceReceived (n : Fin 8) (f : PtpFrame)
  /-- SIGNALING_RECEIVED (R449). A Signaling message carries unicast negotiation as master or slave. -/
  | signalingReceived (n : Fin 8) (f : PtpFrame)
  /-- SYNC_TX_INTERVAL (R446). At each Sync interval the engine sends Sync to its clients. -/
  | syncTxInterval (n : Fin 8) (slot : Option (Fin 8192))
  /-- DELAY_REQ_TX_INTERVAL (R458). At each Delay_Req interval the engine sends a Delay_Req to an upstream berth. -/
  | delayReqTxInterval (slot : Fin 8192)
  /-- ANNOUNCE_TX_INTERVAL (R451). At each Announce interval the engine sends Announce to its clients. -/
  | announceTxInterval (n : Fin 8) (slot : Option (Fin 8192))
  /-- FOLLOW_UP_TIMEOUT (R457). A two-step Sync unpaired for two Sync intervals is discarded as lost. -/
  | followUpTimeout (slot : Fin 8192)
  /-- ANNOUNCE_TIMEOUT (R466). No Announce within three intervals times out the berth's Announce receipt. -/
  | announceTimeout (slot : Fin 8192)
  /-- GRANT_EXPIRY (R449). A unicast grant reaches its duration and that message type stops. -/
  | grantExpiry (slot : Fin 8192) (t : GrantKind)
  /-- GRANT_RENEW (R450). Three quarters into a grant the slave requests a renewal. -/
  | grantRenew (slot : Fin 8192) (t : GrantKind)
  /-- GRANT_RETRY (R450). A denied or unanswered grant request is retried every 2 s. -/
  | grantRetry (slot : Fin 8192) (t : GrantKind)
  /-- SAMPLE_STREAM_TIMEOUT (R465). No VALID offset for the timeout makes an upstream berth lose its sample stream. -/
  | sampleStreamTimeout (slot : Fin 8192)
  /-- TS_PRESENT_PERIOD (R469). At each period the engine presents the best berth's mean offset to its time scale. -/
  | tsPresentPeriod (n : Fin 8)
  /-- CORRIDOR_SECOND (R474). Each whole second the engine runs the long and cross corridor tests. -/
  | corridorSecond (n : Fin 8)
  /-- CORRIDOR_READMIT (R477). A demoted berth plausible for READMIT seconds is promoted again. -/
  | corridorReadmit (slot : Fin 8192)
  /-- ADMIT_POP (R448). Moves the oldest admission record into the mailbox. -/
  | admitPop (p : Port) (n : Fin 8)
  /-- FETCH_DATASET (R493). Places an upstream berth's dataset in the mailbox. -/
  | fetchDataset (p : Port) (n : Fin 8)
  /-- PROMOTE (R477). Promotes a demoted upstream berth and restarts learning. -/
  | promote (p : Port) (n : Fin 8)
  /-- ASYM_LOAD (R460). Appends an asymmetry schedule entry for an upstream berth. -/
  | asymLoad (p : Port) (n : Fin 8)
  /-- ASYM_CLEAR (R460). Removes asymmetry schedule entries not yet begun. -/
  | asymClear (p : Port) (n : Fin 8)
  /-- ASYM_RAMP_DONE (R460). A scheduled asymmetry ramp ends and ASYM_DONE is set. -/
  | asymRampDone (slot : Fin 8192)
  /-- BERTH_CREATE (R496). Creates a berth in the lowest free usable slot within quota. -/
  | berthCreate (p : Port) (h a0 a1 a2 a3 : Word)
  /-- BERTH_DESTROY (R501). Frees a berth's slot and detaches or ends what depends on it. -/
  | berthDestroy (p : Port) (h a0 a1 a2 a3 : Word)
  /-- BERTH_ENABLE (R500). Takes a berth from IDLE to LIVE. -/
  | berthEnable (p : Port) (h a0 a1 a2 a3 : Word)
  /-- BERTH_DISABLE (R498). Takes a berth from LIVE to IDLE. -/
  | berthDisable (p : Port) (h a0 a1 a2 a3 : Word)
  /-- PARAM_SET (R499). Sets a PTP parameter of a client or upstream berth from the mailbox. -/
  | paramSet (p : Port) (h a0 a1 a2 a3 : Word)
  /-- PARAM_GET (R504). Places a berth parameter value in the mailbox. -/
  | paramGet (p : Port) (h a0 a1 a2 a3 : Word)
  /-- ATTACH (R503). Attaches a measurement berth to a reserved selector entry. -/
  | attach (p : Port) (h a0 a1 a2 a3 : Word)
  /-- DETACH (R211). Detaches a measurement berth, leaving its entry EMPTY. -/
  | detach (p : Port) (h a0 a1 a2 a3 : Word)
  /-- EVQ_POP (R508). Moves the oldest event-queue record of an event berth into the mailbox. -/
  | evqPop (p : Port) (h a0 a1 a2 a3 : Word)
  /-- EVQ_SCAN (R502). Returns which event berths of a group have records queued. -/
  | evqScan (p : Port) (h a0 a1 a2 a3 : Word)
  /-- MSG_LOAD (R507). Stores a frame on an event berth for the send berth message task. -/
  | msgLoad (p : Port) (h a0 a1 a2 a3 : Word)
  /-- BERTH_INFO (R502). Returns a berth's kind, port, state, ordinal and tenant. -/
  | berthInfo (p : Port) (h a0 a1 a2 a3 : Word)
  /-- TENANT_OPEN (R509). Starts a ledger for a tenant. -/
  | tenantOpen (p : Port) (h a0 a1 a2 a3 : Word)
  /-- TENANT_CLOSE (R509). Seals a final record for a tenant with no client berths. -/
  | tenantClose (p : Port) (h a0 a1 a2 a3 : Word)
  /-- MAN_PEEK (R520). Places a tenant's open ledger in the mailbox. -/
  | manPeek (p : Port) (h a0 a1 a2 a3 : Word)
  /-- MAN_EXPORT (R519). Places part of a sealed manifest record in the mailbox. -/
  | manExport (p : Port) (h a0 a1 a2 a3 : Word)
  /-- HELLO_RECEIVED (R531). A HELLO from the partner negotiates the agreed version. -/
  | helloReceived (lane : Fin 2) (f : XlkFrame)
  /-- HEARTBEAT_RECEIVED (R534). A HEARTBEAT keeps or forms the pair. -/
  | heartbeatReceived (lane : Fin 2) (f : XlkFrame)
  /-- PHASE_RECEIVED (R538). A PHASE frame yields the partner offset and lane delay. -/
  | phaseReceived (lane : Fin 2) (f : XlkFrame)
  /-- LOOPSTATE_RECEIVED (R546). A LOOPSTATE frame records the active's loop state. -/
  | loopstateReceived (lane : Fin 2) (f : XlkFrame)
  /-- TIMESTATE_RECEIVED (R545). A TIMESTATE frame records time state and may set TOD_CFG on the standby. -/
  | timestateReceived (lane : Fin 2) (f : XlkFrame)
  /-- BERTHSTATE_RECEIVED (R547). A BERTHSTATE frame sets replicated sequenceIds and grants on the standby. -/
  | berthstateReceived (lane : Fin 2) (f : XlkFrame)
  /-- SWITCH_REQUEST_RECEIVED (R549). The standby checks its conditions and accepts or refuses a switchover. -/
  | switchRequestReceived (lane : Fin 2) (f : XlkFrame)
  /-- SWITCH_ACCEPT_RECEIVED (R549). The active sends COMMIT and becomes STANDBY. -/
  | switchAcceptReceived (lane : Fin 2) (f : XlkFrame)
  /-- SWITCH_REFUSE_RECEIVED (R549). A refused switchover completes with LOCKED. -/
  | switchRefuseReceived (lane : Fin 2) (f : XlkFrame)
  /-- SWITCH_COMMIT_RECEIVED (R549). The standby becomes ACTIVE and its follow selectors switch away from the crossing link. -/
  | switchCommitReceived (lane : Fin 2) (f : XlkFrame)
  /-- NOTICE_RECEIVED (R550). A partner NOTICE breaks the pair at once. -/
  | noticeReceived (lane : Fin 2) (f : XlkFrame)
  /-- HELLO_TX (R529). Periodic transmission of HELLO. -/
  | helloTx
  /-- HEARTBEAT_TX (R529). Transmission of HEARTBEAT every HB_US. -/
  | heartbeatTx
  /-- PHASE_TX (R529). Transmission of PHASE on each lane every 1 ms. -/
  | phaseTx (lane : Fin 2) (x : TxCapture)
  /-- LOOPSTATE_TX (R529). The active sends LOOPSTATE every 10 ms. -/
  | loopstateTx
  /-- TIMESTATE_TX (R529). The active sends TIMESTATE every second and on change. -/
  | timestateTx
  /-- BERTHSTATE_TX (R529). The active sends BERTHSTATE on change and at least each second per berth. -/
  | berthstateTx (slot : Fin 8192)
  /-- HEARTBEAT_LOSS (R550). HB_MISS intervals without HEARTBEAT break the pair and start an unplanned takeover. -/
  | heartbeatLoss
  /-- INCUMBENT_TIMER (R535). Sixty seconds ALONE with QL_SEL ACTIVE or HOLDOVER set INCUMBENT. -/
  | incumbentTimer
  /-- XLK_SWITCH (R549). Starts a planned switchover from the ACTIVE device. -/
  | xlkSwitch (p : Port)
  /-- SWITCH_ACCEPT_TIMEOUT (R549). No ACCEPT within 10 ms completes the switchover with LOCKED. -/
  | switchAcceptTimeout
  /-- FETCH_LOOPS (R546). Places the last LOOPSTATE entries in the mailbox. -/
  | fetchLoops (p : Port)
  /-- FETCH_TIMES (R546). Places the last TIMESTATE entries in the mailbox. -/
  | fetchTimes (p : Port)
  /-- XLK_LOOPCAL (R526). Starts loopback calibration of both crossing-link lanes. -/
  | xlkLoopcal (p : Port)
  /-- XLK_LOOPCAL_DONE (R526). Lane calibration completes and adjusts each lane's constants. -/
  | xlkLoopcalDone (diff0 diff1 : Int)
  /-- XLK_PRESENT_PERIOD (R543). The standby presents -theta to each replicated time scale each period. -/
  | xlkPresentPeriod
  /-- XLK_ADMIN_WRITE (R534). Writing ADMIN 0 idles the lanes and breaks the pair. -/
  | xlkAdminWrite (p : Port) (a : RegAcc)
  /-- XLK_LANE_UP (R538). A crossing-link lane gains block lock. -/
  | xlkLaneUp (lane : Fin 2)
  /-- XLK_LANE_DOWN (R538). A crossing-link lane loses block lock. -/
  | xlkLaneDown (lane : Fin 2)
  /-- CERT_READ (R569). Places a part of the device certificate in the mailbox. -/
  | certRead (p : Port) (part : BitVec 3)
  /-- ATTEST (R570). Starts building and signing an attestation report over a nonce. -/
  | attest (p : Port)
  /-- ATTEST_DONE (R570). The attestation report is signed. -/
  | attestDone
  /-- ATTEST_READ (R570). Places a part of the attestation report in the mailbox. -/
  | attestRead (p : Port) (part : BitVec 3)
  /-- PROVISION_LABEL (R560). Starts verifying a label request and wrapping K_label. -/
  | provisionLabel (p : Port)
  /-- PROVISION_LABEL_DONE (R560). The wrapped K_label is placed in the mailbox. -/
  | provisionLabelDone
  /-- KEY_LOAD (R563). Unwraps and installs a PTP key as an SPP's next key. -/
  | keyLoad (p : Port)
  /-- KEY_ROLL (R564). Makes an SPP's next key current. -/
  | keyRoll (p : Port) (spp : BitVec 8)
  /-- KEY_ERASE (R564). Removes both keys of an SPP. -/
  | keyErase (p : Port) (spp : BitVec 8)
  /-- KEY_LIST (R565). Places an SPP's current and next KEY_IDs in the mailbox. -/
  | keyList (p : Port) (spp : BitVec 8)
  /-- TAKE_OWNERSHIP (R557). Starts verifying an ownership request and a staged image. -/
  | takeOwnership (p : Port)
  /-- TAKE_OWNERSHIP_DONE (R557). The owner key hash is fused and the device becomes OWNED. -/
  | takeOwnershipDone (stage : OwnStage)
  /-- SEC_RETIRE (R559). Starts erasing keys and blowing the RETIRED fuses. -/
  | secRetire (p : Port)
  /-- SEC_RETIRE_DONE (R559). The device is RETIRED and performs a full reset after which no image lands. -/
  | secRetireDone (fuseOk : Bool)
  /-- TAP_INSTRUCTION (R574). Loading or replacing an IEEE 1149.1 instruction may hold or cold-reset the device. -/
  | tapInstruction (t : TapInstr)
  /-- QSPI_READ (R581). Port B single-line read frame. -/
  | qspiRead (addr : Word) (n : Nat)
  /-- QSPI_QREAD (R581). Port B four-line read frame. -/
  | qspiQread (addr : Word) (n : Nat)
  /-- QSPI_WRITE (R581). Port B single-line write frame. -/
  | qspiWrite (addr : Word) (words : List Word)
  /-- QSPI_QWRITE (R581). Port B four-line write frame. -/
  | qspiQwrite (addr : Word) (words : List Word)
  /-- QSPI_PSTAT (R581). Port B frame returning HOST.EVENT bits as a peek. -/
  | qspiPstat
  /-- QSPI_CS_RISE (R582). QSPI_CS_N rising ends a frame, performing whole words and discarding a partial one. -/
  | qspiCsRise
  /-- PCIE_RESET (R578). A PCIe fundamental, hot or function level reset, or D3hot, resets host port A only. -/
  | pcieReset (k : PcieReset)
  /-- PCIE_LINK_CHANGE (R617). Port A link goes up or down and HOST.EVENT.LINK is set. -/
  | pcieLinkChange (speed : BitVec 4) (width : BitVec 4)
  /-- MBOX_WORD_WRITE (R597). A write to a mailbox word empties the mailbox. -/
  | mboxWordWrite (p : Port) (k : Fin 64) (v : Word)
  /-- MBOX_COMMIT (R597). Makes the mailbox host-filled with LEN words. -/
  | mboxCommit (p : Port) (v : Word)
  /-- MBOX_LAST_READ (R598). Reading the last output word empties a device-filled mailbox. -/
  | mboxLastRead (p : Port) (w : Width)
  /-- RING_PI_WRITE (R610). Advancing the producer count hands ring entries to the device. -/
  | ringPiWrite (p : Port) (v : Word)
  /-- RING_ENTRY_START (R611). The device starts the next ring entry once its doorbell, predecessor and mailbox conditions allow. -/
  | ringEntryStart (p : Port)
  /-- NOP (R613). Ring command that completes with OK and zero results. -/
  | nop (p : Port)
  /-- CFGCHK_COMMIT (R606). Makes the next pass's result the configuration-check reference. -/
  | cfgchkCommit (p : Port)
  /-- CFGCHK_REF_WRITE (R606). Sets the configuration-check reference directly and clears DIRTY. -/
  | cfgchkRefWrite (p : Port) (a : RegAcc)
  /-- CFGCHK_PASS (R605). A configuration-check pass completes and is compared with the reference. -/
  | cfgchkPass
  /-- INTR_MASK_WRITE (R682). Clearing a MASK bit of a pending source makes it due and delivers it. -/
  | intrMaskWrite (p : Port) (k : Fin 20) (a : RegAcc)
  /-- HOST_WINDOW_WRITE (R620). A host write through BAR2 or port B's window to a scratchpad word. -/
  | hostWindowWrite (p : Port) (off : BitVec 26) (bytes : List Byte)
  /-- AT_ADD (R624). Atomic add to a host general scratchpad word, returning the old value. -/
  | atAdd (p : Port)
  /-- AT_SWAP (R624). Atomic swap of a host general scratchpad word, returning the old value. -/
  | atSwap (p : Port)
  /-- SCRUB_CYCLE (R629). The scrubber reads the next word in its reserved bank cycle. -/
  | scrubCycle (sp : Fin 128)
  /-- NV_READ (R634). Returns bytes of the NV shadow in the mailbox. -/
  | nvRead (p : Port) (len : BitVec 9)
  /-- NV_WRITE (R634). Writes mailbox bytes into an enabled host region of the shadow. -/
  | nvWrite (p : Port) (len : BitVec 9)
  /-- NV_COMMIT (R636). Host command that starts a journalled commit of dirty pages and ledgers. -/
  | nvCommit (p : Port)
  /-- NV_COMMIT_DONE (R636). A journalled commit completes. -/
  | nvCommitDone
  /-- SET_PW (R640). Changes a host region password given the old one. -/
  | setPw (p : Port)
  /-- UNLOCK (R640). Unlocks a protected host region for the issuing port. -/
  | unlock (p : Port)
  /-- NV_LOCK (R640). Ends an unlock of a host region. -/
  | nvLock (p : Port)
  /-- LOG_READ (R657). Places a logbook record by SEQ in the mailbox. -/
  | logRead (p : Port)
  /-- LEDGER_CHECKPOINT_TIMER (R637). Every LEDGER_S seconds the device commits every open ledger. -/
  | ledgerCheckpointTimer
  /-- VHOLD_SAMPLE (R641). Every 1 ms the device samples VHOLD and arms or disarms the store. -/
  | vholdSample (mv : Nat)
  /-- PFAIL_ASSERT (R642). PFAIL_N low for 1 us freezes ledgers and starts the power-fail store. -/
  | pfailAssert
  /-- PFAIL_STORE_DONE (R642). The power-fail store completes and STORED reads 1. -/
  | pfailStoreDone
  /-- PFAIL_DEASSERT (R643). PFAIL_N rising before rail failure returns the island to the main rails after the store. -/
  | pfailDeassert
  /-- LOGBOOK_HEAD_WRITE (R655). A staged logbook record reaches the NV head. -/
  | logbookHeadWrite
  /-- LOG_ARCHIVE_WRITE (R656). Thirty-two unarchived head records are written to LOG_ARCHIVE. -/
  | logArchiveWrite (bad : List (Nat × List Nat))
  /-- MANIFEST_ARCHIVE_WRITE (R658). A signed manifest record is written to MAN_HEAD and MAN_ARCHIVE. -/
  | manifestArchiveWrite (bad : List (Nat × List Nat))
  /-- FORMAT (R648). Starts formatting an unformatted flash from a link descriptor. -/
  | format (p : Port)
  /-- FORMAT_DONE (R648). Flash formatting completes and CAP is set. -/
  | formatDone (good : Nat) (readBack : Bool)
  /-- SCRUB_NOW (R651). Starts a flash scrub pass at once. -/
  | scrubNow (p : Port)
  /-- FLASH_SCRUB_PASS (R651). Every SCRUB.DAYS the flash manager reads every page and refreshes weak blocks. -/
  | flashScrubPass (o : ScrubOutcome)
  /-- FAULT_MESSAGE (R666). A fault message reaches the collector, is recorded and its reactions are performed. -/
  | faultMessage (m : FaultMsg)
  /-- FLT_POP (R669). Moves the oldest fault queue entry into the mailbox. -/
  | fltPop (p : Port)
  /-- ERR_RELEASE (R673). Releases ERR_N once its minimum width has passed. -/
  | errRelease (p : Port)
  /-- TRAP_CLEAR (R671). Empties the trap latch. -/
  | trapClear (p : Port)
  /-- INJ_ARM (R677). Pilot command that arms the fault injection described in FLT.INJ. -/
  | injArm (p : Port)
  /-- INJ_CANCEL (R677). Pilot command that disarms an armed injection. -/
  | injCancel (p : Port)
  /-- ERR_WIDTH_EXPIRY (R673). The ERR_N minimum width ends and the pin is released if a release was written. -/
  | errWidthExpiry
  /-- QUIET_PERIOD_EXPIRY (R674). A class quiet for QUIET.MS leaves fault and withheld marks clear. -/
  | quietPeriodExpiry (c : Fin 16)
  /-- SUPPLY_RAIL_FAULT (R675). A rail outside its operating conditions for 1 us raises a device-level fault. -/
  | supplyRailFault (rail : Fin 14)
  /-- XOIN_LOST (R675). No XOIN edge for 100 ns raises a device-level fault. -/
  | xoinLost
  /-- REFSYN_UNLOCK (R675). The reference synthesiser losing lock raises a device-level fault. -/
  | refsynUnlock (dev : Int)
  /-- OVER_TEMPERATURE (R675). The die above its maximum junction temperature for 1 s raises over-temperature. -/
  | overTemperature (t : Int)
  /-- OVER_TEMPERATURE_CLEAR (R675). The die falling 5 C below the maximum clears over-temperature. -/
  | overTemperatureClear
  /-- EQ_LIMIT_REACHED (R405). While a port's receiver is in TRACK, a tap or the CTLE code reaches the end of its range and the port sets EVENT.EQ_LIMIT. -/
  | eqLimitReached (n : Fin 8)
  /-- XLK_FRAME_DROP (R524). A crossing-link frame with a wrong CRC, out-of-range LENGTH, own CARD, unknown TYPE or wrong VER is discarded and counted in CRC_ERR or DROP_VER. -/
  | xlkFrameDrop (lane : Fin 2) (wrongVer : Bool)
  /-- MSIX_ENABLE (R107). The port A host enables or disables MSI-X in the PCIe capability, moving delivery of vector-routed sources between MSI-X messages and IRQA_N. -/
  | msixEnable (on : Bool)
  /-- XOIN_RETURN (R675). Edges return on XOIN after a loss, clearing FLT.DEVICE.XOIN so that a later loss is reported as a new onset. -/
  | xoinReturn
  /-- SUPPLY_RAIL_RETURN (R675). A rail in fault returns within its operating conditions, clearing the live RAIL_FAULT condition so that a later excursion is a new onset. -/
  | supplyRailReturn (rail : Fin 14)
  deriving DecidableEq, Repr

end Sys2Proof
end

