-- ==== Sys2Proof/Decode.lean ====
section
/-! DEFINITION. The commands of this block are operations and events, and the spec's table gives no row any bits. -/

namespace Sys2Proof

/-- The command that a word spells: none, since no row of the table has bits. -/
def decodeTableWord (_nbits _w : Nat) : Option Instr := none

end Sys2Proof
end

