-- ==== Sys2Proof/Config.lean ====
section
/-! DEFINITION. What an implementation of the device fixes and the manual does not: uninterpreted functions for
the values the spec leaves open, and for the cryptographic primitives it names and does not define. Nothing in Lean can
evaluate them, so a statement holds whatever they are. -/

namespace Sys2Proof

/-- A value the spec leaves open: the `n`-th one the machine has met (log entry 3, DESIGN CHOICE). -/
opaque Config.freeValue : Nat → Nat

/-- Whether an unstated rounding at a place named by `site` of the exact quotient `num / den` goes up (log entry 4, DESIGN CHOICE). -/
opaque Config.roundUp : (site : Nat) → (num : Int) → (den : Nat) → Bool

/-- SHA-384 of a string of bytes (R124), FIPS 180-4; 48 bytes (log entry 5, DESIGN CHOICE). -/
opaque Config.sha384 : List Byte → List Byte

/-- Whether an ECDSA P-384 signature (r, s) over a SHA-384 digest verifies under a public key (X, Y) (R124). -/
opaque Config.ecdsaVerify : (key digest sig : List Byte) → Bool

/-- Whether an ECDSA P-384 signature over a digest verifies under the public key whose SHA-384 is given (R558). -/
opaque Config.verifyByHash : (keyHash digest sig : List Byte) → Bool

/-- The device's ECDSA P-384 signature over a digest with the key of its role (R518, R570). -/
opaque Config.ecdsaSign : (role : Nat) → (digest : List Byte) → List Byte

/-- AES-256-GCM opening under the section key the enclave derives from KEY_LABEL (R123): the plaintext, or none
where the tag does not verify. -/
opaque Config.gcmOpen : (label iv aad ct tag : List Byte) → Option (List Byte)

/-- AES-256-GCM unwrapping of a key or wrapping of K_label by the enclave (R558, R560, R563). -/
opaque Config.keyUnwrap : (context blob : List Byte) → Option (List Byte)

/-- The blob in which the enclave hands out a wrapped K_label (R560). -/
opaque Config.labelWrap : (request : List Byte) → List Byte

/-- HMAC-SHA-256, the first 16 bytes as R479 uses it. -/
opaque Config.hmac : (key message : List Byte) → List Byte

/-- The SHA-384 of Dunfoeg's image-signing key, held in enclave ROM (R132). -/
opaque Config.dunfoegKeyHash : List Byte

/-- The bytes of the device certificate (R569). -/
opaque Config.certByte : Nat → Byte

end Sys2Proof
end

