-- ==== Sys2Proof/Machine/Bits.lean ====
section
/-! DEFINITION. Bit-field, byte-order and check-code helpers: CRC-32C (R125, R528, R653), the CRC-32 of IEEE 802.3 (R425), the
CRC-16 of R427, and numbers as strings of bytes. -/

namespace Sys2Proof.Machine

/-- Bit `i` of a number. -/
def bitAt (v i : Nat) : Bool := v / 2 ^ i % 2 == 1

/-- Bits `hi` to `lo` of a number. -/
def bitsAt (v hi lo : Nat) : Nat := v / 2 ^ lo % 2 ^ (hi - lo + 1)

/-- A Bool as 0 or 1. -/
def b2n (b : Bool) : Nat := if b then 1 else 0

/-- A number as `n` bytes, most significant first. -/
def beBytes : Nat → Nat → List Byte
  | 0, _ => []
  | n + 1, v => BitVec.ofNat 8 (v / 2 ^ (8 * n)) :: beBytes n v

/-- A number as `n` bytes, least significant first. -/
def leBytes : Nat → Nat → List Byte
  | 0, _ => []
  | n + 1, v => BitVec.ofNat 8 v :: leBytes n (v / 256)

/-- The number that bytes hold, most significant first. -/
def ofBe (bs : List Byte) : Nat := bs.foldl (fun a b => a * 256 + b.toNat) 0

/-- The number that bytes hold, least significant first. -/
def ofLe (bs : List Byte) : Nat := bs.foldr (fun b a => b.toNat + 256 * a) 0

/-- A signed number as `n` bytes, most significant first. -/
def beInt (n : Nat) (i : Int) : List Byte := beBytes n (ofSigned (8 * n) i)

/-- Bytes as words, four to a word with the first in bits 31:24; a last word is filled with zeros. -/
def beWords : List Byte → List Word
  | a :: b :: c :: d :: t => BitVec.ofNat 32 (ofBe [a, b, c, d]) :: beWords t
  | [] => []
  | t => [BitVec.ofNat 32 (ofBe ((t ++ [0, 0, 0]).take 4))]

/-- Bytes as words, four to a word with the first in bits 7:0; a last word is filled with zeros. -/
def leWords : List Byte → List Word
  | a :: b :: c :: d :: t => BitVec.ofNat 32 (ofLe [a, b, c, d]) :: leWords t
  | [] => []
  | t => [BitVec.ofNat 32 (ofLe t)]

/-- Words as bytes, four from a word with bits 31:24 first. -/
def wordsBe (ws : List Word) : List Byte := ws.flatMap (fun w => beBytes 4 w.toNat)

/-- Words as bytes, four from a word with bits 7:0 first. -/
def wordsLe (ws : List Word) : List Byte := ws.flatMap (fun w => leBytes 4 w.toNat)

/-- The number that words hold, low word first. -/
def ofWords (ws : List Word) : Nat := ws.foldr (fun w a => w.toNat + 2 ^ 32 * a) 0

/-- A number as `n` words, low word first. -/
def toWords : Nat → Nat → List Word
  | 0, _ => []
  | n + 1, v => BitVec.ofNat 32 v :: toWords n (v / 2 ^ 32)

/-- A signed number as `n` words, low word first. -/
def intWords (n : Nat) (i : Int) : List Word := toWords n (ofSigned (32 * n) i)

/-- `n` shifts of a reflected CRC register with polynomial `poly`. -/
def crcShift (poly : Nat) : Nat → Nat → Nat
  | 0, c => c
  | n + 1, c => crcShift poly n (if c % 2 = 1 then Nat.xor (c / 2) poly else c / 2)

/-- A reflected 32-bit CRC with initial value 0xFFFF_FFFF and final complement. -/
def crcReflected (poly : Nat) (bs : List Byte) : Nat :=
  0xFFFFFFFF - bs.foldl (fun c b => crcShift poly 8 (Nat.xor c b.toNat)) 0xFFFFFFFF

/-- CRC-32C. -/
def crc32c (bs : List Byte) : Nat := crcReflected 0x82F63B78 bs

/-- The CRC-32 of IEEE 802.3. -/
def crc32 (bs : List Byte) : Nat := crcReflected 0xEDB88320 bs

/-- `n` shifts of the CRC-16 of R427. -/
def crc16Shift : Nat → Nat → Nat
  | 0, c => c
  | n + 1, c => crc16Shift n (if c ≥ 0x8000 then Nat.xor (c * 2 % 0x10000) 0x1021 else c * 2)

/-- The CRC-16 of R427: polynomial 0x1021, initial value 0xFFFF, no reflection, no final XOR. -/
def crc16 (bs : List Byte) : Nat := bs.foldl (fun c b => crc16Shift 8 (Nat.xor c (b.toNat * 256))) 0xFFFF

/-- The bytes of a list from `off` on, `n` of them. -/
def slice (bs : List Byte) (off n : Nat) : List Byte := (bs.drop off).take n

/-- A big-endian number of `n` bytes at offset `off` of a string; bytes that are not there count as absent. -/
def beAt (bs : List Byte) (off n : Nat) : Nat := ofBe (slice bs off n)

/-- Quotient rounded up. -/
def ceilDiv (a b : Nat) : Nat := (a + b - 1) / b

/-- `num / den` rounded to the nearest whole number, a half away from zero. -/
def roundNear (num : Int) (den : Nat) : Int :=
  if num ≥ 0 then (2 * num + den) / (2 * den : Nat) else -((2 * (-num) + den) / (2 * den : Nat))

/-- The largest `r` with r² ≤ n, by `k` halvings. -/
def isqrtStep (n : Nat) : Nat → Nat → Nat
  | 0, r => r
  | k + 1, r => isqrtStep n k (if (r + 2 ^ k) * (r + 2 ^ k) ≤ n then r + 2 ^ k else r)

/-- Whole square root of numbers below 2²⁵⁶. -/
def isqrt (n : Nat) : Nat := isqrtStep n 128 0

end Sys2Proof.Machine
end

