-- ==== Sys2Proof/Machine/Tab.lean ====
section
/-! DEFINITION. A sparse table: a list of (key, value) pairs with keys strictly rising and no entry equal to what an
unlisted key reads as. Registers, memory and every per-instance core of the machine are held so, in one canonical form. -/

namespace Sys2Proof.Machine

/-- A sparse table; what an unlisted key holds is given with each read and write. -/
abbrev Tab (α : Type) := List (Nat × α)

/-- What the table holds at a key: the listed value, or `d k`. -/
def Tab.get {α : Type} (d : Nat → α) : Tab α → Nat → α
  | [], k => d k
  | (j, v) :: t, k => if j = k then v else Tab.get d t k

/-- Remove a key's entry. -/
def Tab.erase {α : Type} (k : Nat) : Tab α → Tab α
  | [] => []
  | (j, v) :: t => if j = k then Tab.erase k t else (j, v) :: Tab.erase k t

/-- Put an entry before the first larger key. -/
def Tab.insert {α : Type} (k : Nat) (v : α) : Tab α → Tab α
  | [] => [(k, v)]
  | (j, w) :: t => if k < j then (k, v) :: (j, w) :: t else (j, w) :: Tab.insert k v t

/-- Write a key: an entry equal to what an unlisted key holds is not listed. -/
def Tab.set {α : Type} [DecidableEq α] (d : Nat → α) (t : Tab α) (k : Nat) (v : α) : Tab α :=
  if v = d k then Tab.erase k t else Tab.insert k v (Tab.erase k t)

/-- The canonical form: keys strictly rising, no entry equal to the unlisted value. -/
def Tab.wf {α : Type} [DecidableEq α] (d : Nat → α) : Tab α → Bool
  | [] => true
  | (k, v) :: t => decide (v ≠ d k) && t.all (fun e => decide (k < e.1)) && Tab.wf d t

/-- Keep the entries whose keys satisfy `p`. -/
def Tab.keep {α : Type} (p : Nat → Bool) (t : Tab α) : Tab α := t.filter (fun e => p e.1)

/-- Change every listed value; one that becomes the unlisted value is listed no longer. -/
def Tab.remap {α : Type} [DecidableEq α] (d : Nat → α) (g : Nat → α → α) (t : Tab α) : Tab α :=
  t.filterMap (fun e => if g e.1 e.2 = d e.1 then none else some (e.1, g e.1 e.2))

/-- The entries from the first key that is at least `lo` on. -/
def Tab.dropBelow {α : Type} (lo : Nat) : Tab α → Tab α
  | [] => []
  | (j, v) :: t => if j < lo then Tab.dropBelow lo t else (j, v) :: t

/-- The `n` values from key `lo` on. -/
def Tab.range {α : Type} (d : Nat → α) (t : Tab α) (lo : Nat) : Nat → List α
  | 0 => []
  | n + 1 =>
    match Tab.dropBelow lo t with
    | [] => d lo :: Tab.range d [] (lo + 1) n
    | (j, v) :: t' =>
      if j = lo then v :: Tab.range d t' (lo + 1) n else d lo :: Tab.range d ((j, v) :: t') (lo + 1) n

/-- Write the values of a list at rising keys from `lo` on. -/
def Tab.setList {α : Type} [DecidableEq α] (d : Nat → α) : Tab α → Nat → List α → Tab α
  | t, _, [] => t
  | t, lo, v :: vs => Tab.setList d (Tab.set d t lo v) (lo + 1) vs

/-- The entries of keys from `lo` to `lo + n − 1`, moved so that `lo` becomes `dest`. -/
def Tab.moved {α : Type} (t : Tab α) (lo n dest : Nat) : Tab α :=
  (t.filter (fun e => decide (lo ≤ e.1 ∧ e.1 < lo + n))).map (fun e => (e.1 - lo + dest, e.2))

/-- Replace the content of keys `dest` to `dest + n − 1` by what `src` holds from `lo` on; both tables hold 0 where
nothing is listed. -/
def Tab.copyFrom {α : Type} (dst src : Tab α) (lo n dest : Nat) : Tab α :=
  dst.filter (fun e => decide (e.1 < dest)) ++ Tab.moved src lo n dest ++
    dst.filter (fun e => decide (dest + n ≤ e.1))

end Sys2Proof.Machine
end

