-- ==== Sys2Proof/Machine/Types.lean ====
section
/-! DEFINITION. Small types the machine is made of: completion codes (R14), validity tags (R16), access codes (R7), reset
domains (R5, R6) and a field's place in a register. -/

namespace Sys2Proof.Machine

/-- Completion and status codes (R14). -/
inductive Code where
  | ok | staleHandle | noSlot | overruled | refusedThreshold | notHelm | badTicket | busy | quota
  | fenced | locked | badArgument | notLanded | writeRejected | corrupt
  deriving DecidableEq, Repr

/-- The number of a code (R14). -/
def Code.num : Code → Nat
  | .ok => 0x00 | .staleHandle => 0x01 | .noSlot => 0x02 | .overruled => 0x03 | .refusedThreshold => 0x04
  | .notHelm => 0x05 | .badTicket => 0x06 | .busy => 0x07 | .quota => 0x08 | .fenced => 0x09
  | .locked => 0x0A | .badArgument => 0x0B | .notLanded => 0x0C | .writeRejected => 0x0D | .corrupt => 0x0E

/-- Validity tags in the order of their encoding (R16), which is also their order of strength (R19) from
VALID to GAP. -/
inductive Tag where
  | valid | settle | suspect | gap
  deriving DecidableEq, Repr

/-- The encoding of a tag (R16). -/
def Tag.num : Tag → Nat
  | .valid => 0 | .settle => 1 | .suspect => 2 | .gap => 3

/-- The stronger of two tags (R19). -/
def Tag.max (a b : Tag) : Tag := if a.num < b.num then b else a

/-- Access codes of register fields (R7). -/
inductive Acc where
  | rw | ro | rc | wo | wp | lk | pw
  deriving DecidableEq, Repr

/-- Reset domains (R5, R6). -/
inductive Dom where
  | cold | full | kept
  deriving DecidableEq, Repr

/-- A field of a register: bits `hi` down to `lo`. -/
structure FieldDef where
  hi : Nat
  lo : Nat
  acc : Acc
  pilot : Bool
  rst : Nat
  deriving DecidableEq, Repr

/-- One line of a register table: `count` registers `stride` bytes apart from offset `off`, in the `ninst` instances
of the block from `inst0` on. -/
structure RegDef where
  name : String
  off : Nat
  count : Nat
  stride : Nat
  inst0 : Nat
  ninst : Nat
  dom : Dom
  fields : List FieldDef
  deriving DecidableEq, Repr

/-- A field's place: the register's address and the field's bits. -/
structure Fld where
  key : Nat
  hi : Nat
  lo : Nat
  deriving DecidableEq, Repr

/-- The width of a field in bits. -/
def Fld.width (f : Fld) : Nat := f.hi - f.lo + 1

/-- What sets port B's copy of a port-relative register apart (R588). -/
def portBase : Port → Nat
  | .a => 0
  | .b => 0x1000000

end Sys2Proof.Machine
end

