-- ==== Sys2Proof/Machine/ImageTypes.lean ====
section
/-! DEFINITION. The structure a configuration image describes, as the records of its sections give it (R119, R125). -/

namespace Sys2Proof.Machine

/-- A LANDINGS record (R125). -/
structure LandingRec where
  landing : Nat
  format : Nat
  term : Nat
  bound : Nat
  histSp : Nat
  slicer : Nat
  deriving DecidableEq, Repr

/-- One entry of a SELECTORS record (R125). -/
structure EntryRec where
  cand : Nat
  priority : Nat
  qlSource : Nat
  deriving DecidableEq, Repr

/-- A SELECTORS record (R125). -/
structure SelectorRec where
  selector : Nat
  revertive : Nat
  entries : List EntryRec
  deriving DecidableEq, Repr

/-- A LOOPS record (R125). -/
structure LoopRec where
  loop : Nat
  inKind : Nat
  inIdx : Nat
  preset : Nat
  tKind : Nat
  tIdx : Nat
  bwUhz : Nat
  deriving DecidableEq, Repr

/-- A synthesiser record of SYNTH_OUTPUTS (R125). -/
structure SynthRec where
  number : Nat
  vcoHz : Nat
  deriving DecidableEq, Repr

/-- An output record of SYNTH_OUTPUTS (R125). -/
structure OutputRec where
  number : Nat
  synth : Nat
  format : Nat
  drive : Nat
  anchor : Nat
  initEn : Nat
  squelch : Nat
  freqUhz : Nat
  deriving DecidableEq, Repr

/-- A time-scale record of TIMESCALES (R125). -/
structure TimescaleRec where
  index : Nat
  threshNs : Nat
  deriving DecidableEq, Repr

/-- A TODOUT record of TIMESCALES (R125). -/
structure TodoutRec where
  line : Nat
  tsc : Nat
  format : Nat
  baud : Nat
  deriving DecidableEq, Repr

/-- A PORTS record (R125). -/
structure PortRec where
  port : Nat
  mode : Nat
  tsc : Nat
  deriving DecidableEq, Repr

/-- A SCRATCHPAD_MAP record (R125). -/
structure SpRec where
  cls : Nat
  inst : Nat
  keep : Bool
  deriving DecidableEq, Repr

/-- A FAULT_REACTIONS entry (R664). -/
structure ReactionRec where
  cls : Nat
  kind : Nat
  bits : Nat
  deriving DecidableEq, Repr

/-- A PRELOAD entry (R128). -/
structure PreloadRec where
  block : Nat
  zero : Nat
  offset : Nat
  value : Word
  deriving DecidableEq, Repr

/-- The XLK section (R527), its bytes taken as they stand. -/
structure XlkRec where
  bytes : List Byte
  deriving DecidableEq, Repr

/-- A COMBINE record (R125). -/
structure CombineRec where
  loop : Nat
  sources : List (Nat × Nat)
  deriving DecidableEq, Repr

/-- A configuration image: the fields of its header that something uses, its configuration hash, and the
records of its sections. -/
structure Image where
  len : Nat := 0
  minStep : Nat := 0
  grades : Nat := 0
  secVer : Nat := 0
  xlkVer : Nat := 0
  lwdMs : Nat := 1000
  ferryS : Nat := 30
  imageId : List Byte := []
  keyLabel : List Byte := []
  hash : List Byte := []
  landings : List LandingRec := []
  selectors : List SelectorRec := []
  loops : List LoopRec := []
  synths : List SynthRec := []
  outputs : List OutputRec := []
  timescales : List TimescaleRec := []
  todouts : List TodoutRec := []
  ports : List PortRec := []
  quotas : List Nat := []
  spmap : List SpRec := []
  helm : List Nat := []
  pilot : List Bool := []
  routes : List (Nat × Nat) := []
  reactions : List ReactionRec := []
  preload : List PreloadRec := []
  xlk : Option XlkRec := none
  combine : List CombineRec := []
  keyring : List (List Byte) := []
  deriving DecidableEq, Repr

end Sys2Proof.Machine
end

