-- ==== Sys2Proof/Machine/Cores.lean ====
section
/-! DEFINITION. What each unit of the device holds beside its registers: the records that hold the hidden state of a landing, a
selector and its entries, a loop, a synthesiser, an output, a time scale, a port, a PTP engine, a berth, a tenant, the
crossing link, the enclave and the management blocks. A field's default is its value after cold reset (log entry 6, DESIGN CHOICE). -/

namespace Sys2Proof.Machine

/-- What a gate or a slice accumulates over its VALID stamps (R179, R181): the first stamp with its edge index, n, and with x in
decimated edges and t in T / 2²⁰ from the first, Σx, Σx², Σt, Σx·t and Σt²; whether activity was lost or LOW_SWING met in it. -/
structure Sums where
  first : Option (Int × Nat) := none
  n : Nat := 0
  sx : Nat := 0
  sxx : Nat := 0
  st : Int := 0
  sxt : Int := 0
  stt : Int := 0
  lost : Bool := false
  low : Bool := false
  deriving DecidableEq, Repr

/-- A gate that has ended (R174 to R176): its bounds in extended coarse time, LONG, its sums, the VALID LND[30] slices wholly in it
(sum in 2⁻⁵⁶ and number), and the decimation it was taken at. -/
structure ClosedGate where
  start : Nat
  stop : Nat
  long : Bool
  sums : Sums
  y30Sum : Int
  y30Num : Nat
  decim : Nat
  deriving DecidableEq, Repr

/-- An interval in progress (R172, R174): its start stamp, the extended coarse time of its start capture, the decimated edges to its stop,
and whether a settling count of edges or frames ran at its start. -/
structure Interval where
  start : Int
  at_ : Nat
  left : Nat
  settle : Bool
  deriving DecidableEq, Repr

/-- What landing n holds beside its registers (05_landings_and_measurement.md). -/
structure LndCore where
  /-- Edge index, modulo 2⁴⁸ (R169). -/
  edgeIdx : Nat := 0
  /-- Raw edges still to skip before the decimator passes one (R726). -/
  skip : Nat := 0
  /-- Decimation and gate length in force (R186). -/
  decim : Nat := 10
  gateMs : Nat := 1000
  /-- Extended coarse time of the last raw edge, while it counts for the activity detector (R184). -/
  lastEdge : Option Nat := none
  /-- Codes of the calibration pair in force (R160), whether there is one, consecutive invalid pairs (R162). -/
  c1 : Nat := 0
  c2 : Nat := 1
  paired : Bool := false
  badPairs : Nat := 0
  calSeq : Nat := 0
  calTag : Tag := .gap
  /-- Extended coarse time of the last stamped edge (R168); the latest edge presented to the router had an invalid capture (R384). -/
  lastStamped : Option Nat := none
  badEdge : Bool := false
  /-- The last stamp delivered, its tag and its edge index. -/
  stamp : Int := 0
  stampTag : Tag := .gap
  stampEdge : Nat := 0
  /-- The values of TSC[0–7] at the last stamped edge, in 2⁻⁵⁶ ns (R43, R368). -/
  vals : List Int := []
  /-- Raw edges in a row that arrived within one window of their predecessor, while activity is lost (R184). -/
  inWin : Nat := 0
  /-- The gate: whether one runs, its start in extended coarse time, its sums, and the VALID LND[30] slices wholly in it
  (R180); the sums of the slice in progress, used on LND[30] only. -/
  gateOn : Bool := false
  gateStart : Nat := 0
  gate : Sums := {}
  y30Sum : Int := 0
  y30Num : Nat := 0
  slc : Sums := {}
  /-- VALID stamps past the end of the gate in progress, which the next gate covers (R175): time, stamp, edge index. The end of the slice
  in progress, and the stamps past it, on LND[30] only. -/
  early : List (Nat × Int × Nat) := []
  slcEnd : Nat := 0
  slcEarly : List (Int × Nat) := []
  /-- Closed gates whose results are not yet available (R176), oldest first. -/
  closed : List ClosedGate := []
  /-- Settling counts still to run (R185): stamps and results after an input selection, stamps and results
  after a filter change, raw edges after a slicer step, and the port link return. -/
  selStamps : Nat := 0
  selResults : Nat := 0
  filtStamps : Nat := 0
  filtResults : Nat := 0
  stepEdges : Nat := 0
  linkSettle : Bool := false
  /-- A gate-bounded measurement waits for its first edge (R174). -/
  armed : Bool := false
  /-- The interval in progress, and those whose stop is captured and whose result is not yet available (R176), oldest first: start stamp,
  stop stamp, and whether a settling count of edges or frames ran at either. -/
  ival : Option Interval := none
  ivalDone : List (Int × Int × Bool) := []
  /-- The next interval waits for activity to return (R187). -/
  waitAct : Bool := false
  /-- The update interval of the slicer: raw edges in it, and when its first edge came (R152, R155). -/
  sliceRun : Option (Nat × Nat) := none
  /-- The result record (R183) and its sequence number; the landing's own slicer step since the last history entry. -/
  result : List Word := []
  seq : Nat := 0
  stepSince : Bool := false
  /-- The latest four slices, newest first: when each began, and its result in 2⁻⁵⁶ where it was VALID (R180). `NOM_FREQ` as the loops last
  learned under it (R278), kept. Both are used on LND[30] only. -/
  recent : List (Nat × Option Int) := []
  nomWas : Option Nat := none
  deriving DecidableEq, Repr

/-- What entry k of selector n holds beside its registers (06_reference_selection.md). -/
structure EntCore where
  /-- Samples within LIM_JUMP in a row: they clear a phase-jump fault (R195) and count in R212. -/
  jumpOk : Nat := 0
  /-- Results in a row that were SUSPECT or GAP (R196). -/
  starve : Nat := 0
  /-- The two latest regression results or estimates: each within LIM_IN and VALID, or not (R212). -/
  okResults : Nat := 0
  /-- The latest four VALID frequency results in 2⁻⁵⁶, newest first (R214). -/
  freqs : List Int := []
  /-- The latest VALID frequency on the timeline of the samples, in 2⁻⁵⁶ (R195). -/
  freq : Option Int := none
  /-- The previous VALID phase sample: its stamp in units of T / 2²⁰ and its edge index (R195). -/
  prev : Option (Int × Nat) := none
  /-- The delay of the lane at that sample, for a crossing-link entry (R539). -/
  prevD : Int := 0
  /-- The phase differences of the latest four VALID phase samples to the loops bound to the selector, each as the loop stood at the sample,
  newest first (R214). -/
  diffs : List (List (Nat × Int)) := []
  /-- Extended coarse time at which the wait-to-restore timer expires (R213). -/
  wtrEnd : Nat := 0
  /-- The timer has expired and the plausibility check waits for results or samples (R214). -/
  wtrDue : Bool := false
  /-- The entry became QUALIFIED through READMIT (R221, cause 7). -/
  readmitted : Bool := false
  /-- The decoded rank (R202 to R207). -/
  rank : Nat := 0xF
  deriving DecidableEq, Repr

/-- What selector n holds beside its registers. -/
structure SelCore where
  /-- Extended coarse time at which the hold-off expires (R222). -/
  holdEnd : Nat := 0
  /-- The selector has followed an entry since the image landed (R221). -/
  followed : Bool := false
  /-- VALID phase samples still to be checked after a return to the same entry (R223). -/
  returnLeft : Nat := 0
  /-- The forced entry has failed and the loops are frozen (R229). -/
  forceLost : Bool := false
  /-- The cause that the latest change in a hold-off gives the evaluation at its expiry (R222; log entry 79, DESIGN CHOICE). -/
  waitCause : Nat := 1
  deriving DecidableEq, Repr

/-- What a selector orders its loops to do (R39, R224, R251): take their next sample from an entry, whose phase error becomes the
build-out where it is frequency-only; hold over; or freeze. -/
inductive LoopOrder where
  | depart (entry : Nat) (frequencyOnly : Bool)
  | holdover
  | freeze
  deriving DecidableEq, Repr

/-- A VALID sample of a selector entry: a stamp in units of T / 2²⁰ with its edge index and, on a crossing-link landing, the delay of its
lane in 2⁻³² ns (R234, R539); or a master phase in 2⁻³² fs with its time in units of T (R463). Of a source loop, its output phase, with 1
where the source is down (R261, R263). -/
structure Sample where
  x : Int
  idx : Nat
  d : Int := 0
  deriving DecidableEq, Repr

/-- What loop n holds beside its registers (07_dpll_engines.md). Frequencies are in units of 2⁻⁹⁶, phases in units of
2⁻³² fs. -/
structure LoopCore where
  /-- Integrator frequency, clamped proportional term and slew of the last update (R236). -/
  yI : Int := 0
  uc : Int := 0
  sl : Int := 0
  /-- Loop phase against the measurement clock, what the phase detector compares against (R236), and the phase that steps
  have moved the output by; the extended coarse time for which both stand. -/
  ph : Int := 0
  stepPh : Int := 0
  phAt : Nat := 0
  /-- Loop phase against the timeline of OSCIN at the same time, what berth samples are compared against (R234, R463). -/
  phO : Int := 0
  /-- Extended coarse time of the last update boundary. -/
  lastB : Nat := 0
  /-- Build-out and step remainder (R236), armed amount in fs (R257). -/
  bo : Int := 0
  rem : Int := 0
  armed : Option Int := none
  /-- What has already been slewed of the last fs of the remainder, in 2⁻⁹⁶ fs (R236, R259). -/
  remPart : Int := 0
  /-- The control word last written to the target (R240). -/
  word : Int := 0
  /-- ȳ₃₀ in force, and the ȳ₃₀ with which the word at the target was converted (R240). -/
  ybar : Int := 0
  yw : Int := 0
  /-- VALID samples of the active entry that have arrived in the interval in progress, oldest first (R234). -/
  acc : List Sample := []
  /-- Unwrapping (R235): previous VALID stamp in units of T / 2²⁰, its edge index, the whole periods counted so far; whether
  the next stamp re-anchors it. -/
  wrap : Option (Int × Nat × Int) := none
  reanchor : Bool := false
  /-- Last phase sample e. -/
  e : Int := 0
  /-- Update count (R271), and the record of the last completed update. -/
  seq : Nat := 0
  record : List Word := List.replicate 8 0
  /-- The next VALID sample makes a departure (R224, R246); to an entry whose phase error becomes the build-out (R247). The next update
  takes the frequency in force at the target as its integrator (R245, R256). -/
  depart : Bool := false
  setBo : Bool := false
  retake : Bool := false
  /-- Bandwidth in force in µHz, start and end of the gear in use in extended coarse time, and the bandwidth that the automatic schedule
  began with (R252); `BW` has been written since the last update (R264). -/
  bw : Nat := 0
  gearAt : Nat := 0
  gearEnd : Nat := 0
  f0 : Nat := 0
  bwNew : Bool := false
  /-- The number of the gear in use, which may exceed what GEAR shows (R252). -/
  gear : Nat := 0
  /-- When the lock criteria began to hold (R251); VALID updates in a row beyond twice the criteria (R254). -/
  lockSince : Option Nat := none
  lockBad : Nat := 0
  /-- Phase samples still tagged SETTLE (R18). -/
  settle : Nat := 0
  /-- Weights in force and weights written but not yet in force (R262). -/
  weights : List Nat := []
  heldWeights : List (Option Nat) := [none, none, none]
  /-- Raw coefficients written since the full reset (R266, R267). -/
  rawP : Option Word := none
  rawI : Option Word := none
  /-- The step that a full reset took, in fs, to be reported at the landing (R264). -/
  lostStep : Option Int := none
  /-- The state in the checkpoint from which the loop landed in FERRY_HOLD (R324). -/
  ckState : Nat := 0
  /-- The loop runs from held state (R212, R324); it has landed without a checkpoint of its own (R324). -/
  held : Bool := false
  fresh : Bool := true
  /-- No healthy engine is left for the loop, which stays frozen until a full reset (R47). -/
  stranded : Bool := false
  /-- The entry of its selector that the loop takes its samples from, 0x1F for none (R224). -/
  entry : Nat := 0x1F
  /-- The samples of the last 64 intervals, oldest first, each with its boundary and the entry they came from (R310). -/
  kept : List (Nat × Nat × List Sample) := []
  /-- The migration that moves the loop: source, receiving engine, whether planned, whether the source is to be RETIRED; what the
  selector orders meanwhile, and the commands of LOOP[n].CMD (bit 0 to 3) and HO_CMD (4 to 6) that wait for its end, each with its port
  (R317). -/
  mig : Option (Nat × Nat × Bool × Bool) := none
  orders : List LoopOrder := []
  waiting : List (Port × Nat) := []
  deriving DecidableEq, Repr

/-- An oscillator model (R294): frequencies in 2⁻⁵⁶, per day, per day², per °C and per °C². -/
structure Model where
  terms : Nat
  nrec : Nat
  a0 : Int
  a1 : Int
  a2 : Int
  c1 : Int
  c2 : Int
  tref : Int
  tlag : Nat
  anchorMs : Nat
  resid : Nat
  sigA0 : Nat
  sigA1 : Nat
  sigC1 : Nat
  deriving DecidableEq, Repr

/-- What loop n holds for holdover beside its registers (08_holdover.md). The history itself lies in the scratchpad of the
loop's engine (R275, R277). -/
structure HoCore where
  /-- The history interval in progress: sums of FREQ over its updates, and what R276 asks of it. -/
  updN : Nat := 0
  sum : Int := 0
  sumSq : Int := 0
  validN : Nat := 0
  heldOver : Bool := false
  acquiring : Bool := false
  sliceBad : Bool := false
  entryChanged : Bool := false
  locked : Bool := false
  /-- The loop has departed from HOLDOVER and not locked since (R290). -/
  returning : Bool := false
  /-- Sequence number of the next record, and the sequence number from which records may qualify (R278). -/
  seq : Nat := 0
  qualFrom : Nat := 0
  /-- Fitted model, loaded model (R295), and the model fixed at entry to HOLDOVER (R286). -/
  fitted : Option Model := none
  loaded : Option Model := none
  atEntry : Option Model := none
  /-- Records that qualified at the last fit (R280). -/
  qualified : Nat := 0
  /-- A refit or an entry fit is in progress (R280, R282). -/
  refit : Bool := false
  entryFit : Bool := false
  /-- Raw temperature in 1/128 °C and T_eff in 2⁻³² of 1/128 °C; when the host temperature was written (R273). TSRC, HO_TLAG and HO_TREF
  as they took effect at the last whole second (R274). -/
  tRaw : Int := 0
  tEff : Option Int := none
  tempAt : Nat := 0
  tsrc : Nat := 0
  tlag : Nat := 900
  tref : Int := 0x1400
  /-- Holdover frequency in 2⁻⁵⁶ (R284); evaluations have begun (R282 step 5). -/
  yho : Int := 0
  evaluating : Bool := false
  /-- A ramp is on whose end has still to be told (R282 step 6). -/
  ramp : Bool := false
  limitSet : Bool := false
  deriving DecidableEq, Repr

/-- What a checkpoint slot holds (R306), beside its bytes in the scratchpad: the loop's state, FROZEN, gear, FINAL and HO_ELAPSED, and
the numbers of the loop and of its history interval as the slot stores them. -/
structure Checkpoint where
  state : Nat
  frozen : Bool
  gear : Nat
  final : Bool
  elapsed : Nat
  core : LoopCore
  ho : HoCore
  deriving DecidableEq, Repr

/-- What ENG holds beside its registers (09_spares_and_ferry_hold.md); the engine map itself is in `ENG.ENGINE[e]`. -/
structure EngCore where
  /-- Ferry hold lasts (R318), since when in extended coarse time; its limit was reached (R319). When the last image landed (R324). -/
  ferry : Bool := false
  ferryFrom : Nat := 0
  limitHit : Bool := false
  landedAt : Nat := 0
  /-- The engine whose self-test an operation of R313 started, and whose migration keeps `CMD_STATUS.BUSY`. -/
  testing : Option Nat := none
  opLoop : Option Nat := none
  /-- History copies in progress (R311): receiving engine, source, whether the source becomes a pontoon afterwards. -/
  copies : List (Nat × Nat × Bool) := []
  /-- The checkpoint slots, slot k of engine e under 2e + k (R306). -/
  cks : List (Nat × Checkpoint) := []
  deriving DecidableEq, Repr

/-- A ramp segment (R334): END in µHz, DUR in µs, HOLD, LAST. -/
structure Segment where
  endUhz : Nat
  durUs : Nat
  hold : Bool
  last : Bool
  deriving DecidableEq, Repr

/-- How far a synthesiser has come in its start (R331). -/
inductive SynthPhase where
  | off | bandCal | acquiring | counting
  deriving DecidableEq, Repr

/-- What synthesiser n holds beside its registers (10_synthesis_and_outputs.md). -/
structure AplCore where
  phase : SynthPhase := .off
  /-- VCO frequency the last landed image gave it, in Hz (R340). -/
  imageHz : Nat := 0
  /-- Nominal frequency in force in µHz, and that of a segment's start while a ramp runs (R335, R337). -/
  nomUhz : Nat := 0
  /-- The control word at the fractional feedback divider, in 2⁻⁵⁶ (R328, R329). -/
  word : Int := 0
  /-- Windows in a row in tolerance and out of tolerance (R332). -/
  inTol : Nat := 0
  outTol : Nat := 0
  /-- The segments loaded or built by RAMP_TO (R334, R336); the profile that runs or holds; the segment that runs and when it began in
  extended coarse time; the segment whose HOLD the generator waits at (R337). -/
  segs : List (Option Segment) := []
  runSegs : List Segment := []
  run : Option (Nat × Nat) := none
  held : Option Nat := none
  /-- Ferry hold stopped a ramp (R340). -/
  cut : Bool := false
  deriving DecidableEq, Repr

/-- The driver of an output: off, at logic 0, or making the output's edges (R320, R349, R350). -/
inductive Drive where
  | highZ
  | low
  | clock
  deriving DecidableEq, Repr

/-- What output m holds beside its registers (10_synthesis_and_outputs.md). -/
structure OutCore where
  /-- Divider in force (R341) and a divider that waits for the end of the period (R345). -/
  dint : Nat := 0
  dfrac : Nat := 0
  newDiv : Option (Nat × Nat) := none
  /-- The output's driver runs (R346, R349); a start or a re-alignment waits for the sync point. -/
  running : Bool := false
  pendStart : Bool := false
  pendAlign : Bool := false
  /-- The output has finished its period and holds its idle level until the sync point of its re-alignment (R346). -/
  held : Bool := false
  /-- What the driver does at the balls (R320, R349, R350, R718), and the SWING code in force (R348). -/
  drive : Drive := .highZ
  swing : Nat := 0
  /-- What squelches it: loss of lock (R333), the ferry-hold limit (R319), a landing (R116, R351). -/
  sqLol : Bool := false
  sqFerry : Bool := false
  /-- The output's first enable since cold reset has been (R358). -/
  enabledOnce : Bool := false
  /-- The accumulator's control word in steered mode, in 2⁻⁵⁶ (R343). -/
  word : Int := 0
  /-- Phase of the clock output's start in 1/1,024 of a VCO period (R346). -/
  phaseInForce : Nat := 0
  /-- Pulse clock: whole seconds and 2⁻⁵⁶ ns within the second (R355); OFFSET in ps, PERIOD and WIDTH in ns in force (R357). -/
  pcSec : Nat := 0
  pcSub : Nat := 0
  offPs : Int := 0
  perNs : Nat := 0
  widNs : Nat := 0
  /-- Nothing before this time in 2⁻⁵⁶ ns of the pulse clock makes a leading edge (R358). -/
  edgesFrom : Nat := 0
  /-- The extended coarse time of the trailing edge of the last pulse (R356, R358). -/
  highUntil : Nat := 0
  deriving DecidableEq, Repr

/-- A step ticket in verification (R379): amount in 2⁻³² ns, port, the words of the mailbox after the amount, the reference value
(R567), and the time-authority key as the ticket arrived (R553). -/
structure TicketJob where
  amount : Int
  port : Port
  words : List Word
  ref : Nat
  key : Option (List Byte)
  deriving DecidableEq, Repr

/-- What time scale n holds beside its registers (11_time_scales_and_events.md). -/
structure TscCore where
  /-- Whole seconds, and the rest of the second in units of 2⁻⁵⁶ ns (R366). -/
  sec : Nat := 0
  sub : Nat := 0
  /-- Increment in 2⁻⁵⁶ (R367). -/
  y : Int := 0
  /-- Adjust remainder in 2⁻⁵⁶ ns (R374). -/
  rem : Int := 0
  /-- Jump threshold in force and the image's, in ns (R377, R380). -/
  thresh : Nat := 1000000
  imageThresh : Nat := 1000000
  /-- Floor, 64 bits (R370). -/
  floor : Nat := 0
  /-- Pending scheduled increment, and the value at which it falls due: none for the task (R376). -/
  sched : Option (Int × Option (Nat × Nat)) := none
  /-- Extended coarse time of the last accepted SET_INC (R373) and of the last step (R388). -/
  lastInc : Option Nat := none
  steppedAt : Option Nat := none
  /-- Phase Φ against the timeline of OSCIN in 2⁻⁵⁶ ns, and the ȳ₃₀ it counts with in 2⁻⁵⁶ (R463). -/
  phi : Int := 0
  ybar : Int := 0
  /-- What the last tick moved the value by in 2⁻⁵⁶ ns (R367, R374); of the latest 64 ticks before it, newest first: the extended coarse
  time, the value and the increment (R368). -/
  adv : Int := 2 ^ 56
  past : List (Nat × Int × Int) := []
  /-- The leap second of a UTC day is in progress (R390). -/
  leaping : Bool := false
  /-- A step ticket in verification. -/
  ticket : Option TicketJob := none
  deriving DecidableEq, Repr

/-- What TODOUTk holds: whether the message of the second in progress is still due, the extended coarse time of the rollover that began
it (R387), the characters of the last message sent and the extended coarse time at which its first start bit began (R386). -/
structure TodCore where
  due : Bool := false
  since : Nat := 0
  last : List Byte := []
  sentAt : Nat := 0
  deriving DecidableEq, Repr

/-- One pending run of a task: the number of the event that caused it, and what a "stamp" task will record of it (R384, R385),
fixed when the router accepts the event: the value of the berth's time scale in 2⁻⁵⁶ ns, its tag, the edge index, and whether it
is the instant of the router's acceptance. -/
structure TaskRun where
  event : Nat
  val : Int
  tag : Tag
  idx : Nat
  routed : Bool
  deriving DecidableEq, Repr

/-- What a frame in a transmit queue holds: host or device octets, or a PTP message (log entry 21, DESIGN CHOICE). -/
inductive TxBody where
  | raw (b : List Byte)
  | ptp (m : PtpMsg)
  /-- A one-step Sync over IPv6 with the two octets behind it (R455). -/
  | ptp6 (m : PtpMsg) (pad : BitVec 16)
  deriving DecidableEq, Repr

/-- Who waits for the transmit stamp of an event frame (R419): nobody (a general frame; an Announce is told of when it has left),
the host with its ID, the PTP engine for a berth or for its multicast messages, an event berth. -/
inductive TxOwner where
  | none
  | announce (slot : Option Nat)
  | host (id : Nat)
  | engine (slot : Option Nat)
  | berth (slot : Nat)
  deriving DecidableEq, Repr

/-- A frame in a transmit queue. -/
structure TxFrame where
  body : TxBody
  owner : TxOwner
  deriving DecidableEq, Repr

/-- A time-scale value as a stamp gives it (R366, R415): seconds, nanoseconds, 2⁻³² ns, tag. -/
structure Stamp where
  sec : Nat
  ns : Nat
  frac : Nat
  tag : Tag
  deriving DecidableEq, Repr

/-- A host frame in the receive buffer (R421). -/
structure RxHost where
  stamp : Stamp
  bytes : List Byte
  deriving DecidableEq, Repr

/-- An entry of a time-stamp queue (R422): none for DROPPED. -/
structure TsqEntry where
  lost : Bool
  id : Nat
  stamp : Option Stamp
  deriving DecidableEq, Repr

/-- What port n holds beside its registers (12_ethernet_ports.md). -/
structure PrtCore where
  /-- A signal is detected; when it was lost (R405). -/
  signal : Bool := false
  lostAt : Option Nat := none
  /-- The adaptation that begins with the next CDR lock is warm (R405). -/
  warm : Bool := false
  /-- The receiver was in lock when a full reset began, and has held its lock since; its equalisation then (R408). -/
  rode : Bool := false
  eqStat : Nat := 0
  /-- A LOOPCAL is in progress (R414). -/
  loopcal : Bool := false
  /-- The five queues: express, 3, 2, 1, 0 (R416). -/
  qx : List TxFrame := []
  q3 : List TxFrame := []
  q2 : List TxFrame := []
  q1 : List TxFrame := []
  q0 : List TxFrame := []
  /-- General frames wait for the link (R435): those queued while the port was down. -/
  holding : Bool := false
  /-- Time-stamp queue and receive buffer (R422, R426). -/
  tsq : List TsqEntry := []
  tsqLost : Bool := false
  rx : List RxHost := []
  /-- Received PAUSE is ignored until this time (R430); when the halt in force began, and when its quanta end (R429). -/
  ignoreTo : Nat := 0
  pausedAt : Nat := 0
  pauseEnd : Nat := 0
  /-- When the last PAUSE frame was sent (R428), and the last ESMC information PDU (R432). -/
  pauseSentAt : Nat := 0
  infoAt : Option Nat := none
  /-- When the port went down (R435); when its settling count last started, and the frames received since it had lasted 1 ms
  (R407). -/
  downAt : Nat := 0
  settleAt : Nat := 0
  settleFrames : Nat := 0
  /-- The 26 counters of R438 in the order of their words; 25 is RX_PAUSE_BAD. -/
  stats : List Nat := []
  /-- Wake patterns (R427): pattern number to its five words. -/
  wake : List (Nat × List Word) := []
  /-- Rank last sent in ESMC (R432) and the frame last sent on the line. -/
  esmcRank : Nat := 0xF
  lastTx : Option TxFrame := none
  /-- The preemptible frames whose transmission has not ended: when it began in extended coarse time, and their octets (R418). -/
  onWire : List (Nat × Nat) := []
  /-- The cascaded eEEC and EEC counts of the last accepted ESMC PDU (R433). -/
  esmcCnt : Nat × Nat := (0, 0)
  /-- When the timeout of R204 last started: at the landing, the link's return or the last accepted ESMC PDU. -/
  esmcAt : Nat := 0
  deriving DecidableEq, Repr

/-- What engine n holds beside its registers (13_ptp_engines.md). -/
structure PteCore where
  /-- Admission queue (R448, R492), nine words each, and whether records were lost since the last one queued. -/
  admQ : List (List Word) := []
  admLost : Bool := false
  /-- Multicast sequence identifiers (R447). -/
  mcSync : Nat := 0
  mcAnn : Nat := 0
  /-- ∫ FREQ of the corridor loop in 2⁻⁵⁶ ns, and the last FREQ taken from it in 2⁻⁵⁶ (R472, R478). -/
  corrInt : Int := 0
  corrFreq : Int := 0
  /-- When the presentation period in progress began (R469), and when the engine's last corridor second ended (R475). -/
  perAt : Nat := 0
  secAt : Option Nat := none
  deriving DecidableEq, Repr

/-- A grant (R449, R450): logInterMessagePeriod, duration in s, its start and its expiry in extended coarse time. -/
structure Grant where
  per : Int
  dur : Nat
  since : Nat
  until_ : Nat
  deriving DecidableEq, Repr

/-- A two-step Sync that waits for its Follow_Up (R457): its number and sender, t2, correctionField, when it arrived, and Φ
(R463) and the integral of the corridor loop's FREQ (R472) then, in 2⁻⁵⁶ ns. -/
structure PairSlot where
  seq : Nat
  src : Nat
  t2 : Stamp
  corr : Int
  arrived : Nat
  phi : Int
  ci : Int
  deriving DecidableEq, Repr

/-- An entry of an asymmetry schedule (R460): time in s, target in ps, ramp in s. -/
structure AsymEntry where
  sec : Nat
  target : Int
  ramp : Nat
  deriving DecidableEq, Repr

/-- The parameters of a berth (R491, R504). -/
structure BerthParams where
  mac : Nat := 0
  ipKind : Nat := 0
  ip : Nat := 0
  peerId : Nat := 0
  tagOuter : Word := 0
  tagInner : Word := 0
  logSync : Int := -4
  logDelay : Int := -4
  logAnn : Int := -3
  grantDur : Nat := 300
  prio : Nat := 128
  asym : Int := 0
  dlyAvg : Nat := 16
  freqWin : Nat := 16
  auth : Option Nat := none
  deriving DecidableEq, Repr

/-- What an upstream berth measures (R457 to R477). Offsets are in 2⁻¹⁶ ns, phases in 2⁻⁵⁶ ns. -/
structure UpState where
  pairs : List PairSlot := []
  /-- Outstanding Delay_Req: its sequenceId, t3 once stamped. -/
  dreq : Option (Nat × Option Stamp) := none
  /-- Syncs, newest first: t2, ms and the tag of t2. Twice the latest VALID mpd values, newest first. -/
  mss : List (Int × Int × Tag) := []
  mpds : List Int := []
  /-- Scheduled asymmetry: entries not begun; the ramp in progress from a value (ps) at a t2; value. -/
  sched : List AsymEntry := []
  ramp : Option (Int × Int × AsymEntry) := none
  schedPs : Int := 0
  /-- Last offset and its tag; VALID offsets of the presentation period, sum and number (R469). -/
  offset : Int := 0
  offTag : Tag := .gap
  /-- The latest VALID offset (R470). -/
  validOff : Option Int := none
  perSum : Int := 0
  perN : Nat := 0
  /-- Dataset and sender of the last Announce, whether its receipt is current, and whether it has timed out (R466). -/
  ann : Option Dataset := none
  annSrc : Nat := 0
  annCurrent : Bool := false
  annLate : Bool := false
  /-- When the last Announce, and the last VALID offset, came (R465, R466). -/
  annAt : Nat := 0
  validAt : Nat := 0
  demoted : Bool := false
  /-- Corridor: master phases being learnt; anchor phase with the corridor integral and the time of the last passing sample;
  OUT_RUN; window start mean with its integral, and the seconds left of the window; phases of the second in progress; failed cross tests; when
  readmission may come. -/
  learn : List Int := []
  learnt : Bool := false
  anchor : Int := 0
  anchorInt : Int := 0
  anchorAt : Nat := 0
  outRun : Nat := 0
  winMean : Option (Int × Int) := none
  winLeft : Nat := 0
  secSum : Int := 0
  secN : Nat := 0
  secMean : Option Int := none
  crossFails : Nat := 0
  readmitAt : Nat := 0
  /-- VALID master phases with their times (R464), newest first; the estimate in 2⁻⁵⁶. -/
  phases : List (Nat × Int) := []
  freq : Option Int := none
  lastPhase : Option (Int × Tag) := none
  drespLost : Nat := 0
  /-- The kinds of grant for which a run of failures is on (R450); when each kind was last asked for and is not yet given. -/
  denied : List GrantKind := []
  askAnn : Option Nat := none
  askSync : Option Nat := none
  askResp : Option Nat := none
  deriving DecidableEq, Repr

/-- What a client berth holds for service (R447, R449, R481, R484). -/
structure ClientState where
  seqSync : Nat := 0
  seqAnn : Nat := 0
  seqResp : Nat := 0
  answeredAt : Option Nat := none
  deriving DecidableEq, Repr

/-- A record of an event berth's queue (R508), its eight words. -/
structure EventBerth where
  q : List (List Word) := []
  lost : Bool := false
  seq : Nat := 0
  msg : Option (Bool × List Byte) := none
  deriving DecidableEq, Repr

/-- A berth (14_berths_and_manifests.md). -/
structure Berth where
  /-- 1 client, 2 upstream, 3 event, 4 measurement; 0 is FREE (R498). -/
  kind : Nat := 0
  port : Nat := 0
  live : Bool := false
  ordinal : Nat := 0
  tenant : Nat := 0
  tsc : Nat := 0
  home : Nat := 0xFF
  /-- Extended coarse time of creation (R385). -/
  madeAt : Nat := 0
  par : BerthParams := {}
  /-- Grants to or from it (R449, R450), sequence identifier of the messages it is sent (R447), last accepted
  sequenceId per message type (R481). -/
  gSync : Option Grant := none
  gAnn : Option Grant := none
  gResp : Option Grant := none
  seqReq : Nat := 0
  seqSig : Nat := 0
  replay : List (Nat × Nat) := []
  /-- Attachment of a measurement berth: selector, entry, upstream handle or 0 (R502). -/
  att : Option (Nat × Nat × Nat) := none
  /-- FLAGS.DEMOTED of the partner's entry (R547). -/
  repDemoted : Bool := false
  up : UpState := {}
  cl : ClientState := {}
  ev : EventBerth := {}
  deriving DecidableEq, Repr

/-- The ledger of a tenant (R509, R510); times in seconds of the billing time scale. -/
structure Ledger where
  isOpen : Bool := false
  /-- Number of the next record and the SHA-384 of the last (R518). -/
  seq : Nat := 0
  prev : List Byte := []
  start : Nat := 0
  partial_ : Bool := false
  regress : Bool := false
  sync : Nat := 0
  dresp : Nat := 0
  ann : Nat := 0
  trace : Nat := 0
  degr : Nat := 0
  out : Nat := 0
  berths : Nat := 0
  /-- In the second in progress: a report arrived; the ports that made one; the tenant had a LIVE client berth. -/
  served : Bool := false
  ports : List Nat := []
  live : Bool := false
  deriving DecidableEq, Repr

/-- A frozen ledger (R514): its tenant, its record up to PREV_HASH apart from PREV_HASH itself, and its number. -/
structure Frozen where
  tenant : Nat
  seq : Nat
  head : List Byte
  /-- The record is the last of its sealing: the boundary, or the close, and the number of its records (R514 step 5). -/
  done : Option (Nat × Nat)
  deriving DecidableEq, Repr

/-- A checkpointed or sealed state of the ledgers in the NV array is a copy of these fields (R633, R637). -/
structure ManCore where
  ledgers : Tab Ledger := []
  frozen : List Frozen := []
  sealedK : Nat := 0
  everSealed : Bool := false
  /-- Records that a reset left unsigned wait: no later boundary is sealed before them (R521). -/
  resume : Bool := false
  lastStepNs : Int := 0
  /-- The device was ALONE or ACTIVE when the second in progress began (R511); time stood still or power was lost since the
  billing time scale was SET (R517). -/
  counts : Bool := true
  powerLoss : Bool := false
  /-- MAN_HEAD: latest record of each tenant; MAN_ARCHIVE: sealed records, oldest first (R649, R658). -/
  headRecs : List (Nat × Nat × List Byte) := []
  archRecs : List (Nat × Nat × List Byte) := []
  /-- Signed records that flash has not yet taken (R658). -/
  toArchive : List (Nat × Nat × List Byte) := []
  deriving DecidableEq, Repr

/-- A planned switchover in progress (R549): token, the port whose command it is, whether ACTIVATE started it. -/
structure SwitchJob where
  token : Nat
  port : Port
  activate : Bool
  deriving DecidableEq, Repr

/-- What XLK holds beside its registers (15_crossing_link.md). -/
structure XlkCore where
  partnerInc : Bool := false
  partnerRank : Nat := 0xF
  partnerEcho : Bool := false
  partnerCard : Nat := 0
  /-- The pair has broken while this device was STANDBY, and none has formed since (R550). -/
  takeover : Bool := false
  /-- A HELLO was heard; HEARTBEATs heard on the lanes since the pair last broke (R534). -/
  helloVer : Option Nat := none
  heard0 : Bool := false
  heard1 : Bool := false
  /-- MAX_VER of the partner with which a version was last negotiated, and the version last agreed on (R533). -/
  negVer : Option Nat := none
  lastVer : Nat := 0
  /-- The partner's last frame says that it receives a lane (R528, R534). -/
  partnerHears : Bool := false
  /-- Since when this device has been ALONE with QL_SEL in ACTIVE or HOLDOVER (R535). -/
  goodSince : Option Nat := none
  /-- When the last HEARTBEAT came (R534), when the presentation period in progress began (R543), and when a REQUEST left
  (R549). -/
  hbAt : Nat := 0
  presentAt : Nat := 0
  switchAt : Nat := 0
  token : Nat := 0
  txSeq : Nat := 0
  /-- SEQ and lane of the frames taken last whose other copy has not come (R524). -/
  recent : List (Nat × Nat) := []
  /-- A LOOPCAL is in progress (R526). -/
  loopcal : Bool := false
  /-- When the lanes came up, and the frames received on them since, up to 16 (R185). -/
  up0 : Option Nat := none
  up1 : Option Nat := none
  rx0 : Nat := 0
  rx1 : Nat := 0
  switching : Option SwitchJob := none
  /-- Token of a REQUEST that this device has accepted, and when. -/
  accepted : Option Nat := none
  acceptedAt : Nat := 0
  /-- Last PHASE received, by lane and time scale (key 8 · lane + k): DEP, none for zeros, and its arrival. -/
  deps : List (Nat × Option Stamp × Stamp) := []
  /-- Sum of twice θ and number of the VALID exchanges of the presentation period, by time scale, in 2⁻³² ns; under k + 8 those that only
  the time scale's own UNSET keeps from being VALID (R543; log entry 93, DEDUCED). -/
  theta : List (Nat × Int × Nat) := []
  /-- Whether d of each lane is measured (R539), in 2⁻³² ns. -/
  d0 : Option Int := none
  d1 : Option Int := none
  /-- Entries of the last LOOPSTATE and TIMESTATE (R546), four words each. -/
  loops : List (List Word) := []
  times : List (List Word) := []
  lastRank : Nat := 0xF
  /-- The frames last sent, by type and lane (key 2 · type + lane). -/
  sent : List (Nat × List Byte) := []
  deriving DecidableEq, Repr

/-- A PTP key: KEY_ID and 32 bytes (R556). -/
structure PtpKey where
  id : Word
  key : List Byte
  deriving DecidableEq, Repr

/-- The keys of one SPP. -/
structure SppKeys where
  cur : Option PtpKey := none
  next : Option PtpKey := none
  deriving DecidableEq, Repr

/-- An enclave operation in progress: opcode, port, input words. -/
structure SecOp where
  opcode : Nat
  port : Port
  input : List Word
  /-- OP_ARG as the operation began (R557). -/
  arg : Nat
  deriving DecidableEq, Repr

/-- Fuse programming that the enclave has recorded and not yet completed (R555): ownership with the hash of the owner key,
retirement, or a count of anti-rollback fuses. -/
inductive FuseJob where
  | own (hash : List Byte)
  | retire
  | count (target : Nat)
  deriving DecidableEq, Repr

/-- What waits for the verify unit (R553): the ticket of a time scale, the signed request of an operation of SEC, or the image of an operation
of FAB. -/
inductive VerifyReq where
  | ticket (k : Nat)
  | request
  | image
  deriving DecidableEq, Repr

/-- What the enclave holds beside its registers (16_security.md). -/
structure SecCore where
  ownerHash : List Byte := []
  taKey : Option (List Byte) := none
  keys : Tab SppKeys := []
  keySerial : Nat := 0
  report : Option (List Byte) := none
  reportSeq : Nat := 0
  op : Option SecOp := none
  /-- The fuse patterns recorded and not yet blown (R555), and what the verify unit serves, in order of arrival (R553). -/
  fuse : List FuseJob := []
  verify : List VerifyReq := []
  /-- The IEEE 1149.1 instruction that holds the device in cold reset (R574). -/
  tapHold : Bool := false
  deriving DecidableEq, Repr

/-- What a host port holds beside its registers (17_host_interface_and_registers.md). -/
structure HostCore where
  /-- Status and data of the last access or frame (R581, R591). -/
  code : Code := .ok
  data : List Word := []
  /-- Port A is in reset or in D3hot (R578); a port B frame is open (R579). -/
  inReset : Bool := false
  inD3 : Bool := false
  frame : Bool := false
  deriving DecidableEq, Repr

/-- The configuration check (R605 to R608): what the next reference waits for (0 nothing, 1 for the pass in progress to end, 2 for
the pass in progress, which gives it), whether DIRTY became 1 during the pass in progress, and whether a mismatch has been
reported since the last COMMIT or write of the reference. -/
structure CfgCore where
  commit : Nat := 0
  spoiled : Bool := false
  reported : Bool := false
  deriving DecidableEq, Repr

/-- What INTR holds beside its registers: MSI-X enable of the configuration space, and the number of messages sent for each
vector, modulo 2³² (R682). -/
structure IntrCore where
  msix : Bool := false
  sent : Tab Nat := []
  deriving DecidableEq, Repr

/-- An entry of the fault queue (R669). -/
structure FaultEntry where
  inj : Bool
  lost : Bool
  source : Nat
  kind : Nat
  repeats : Nat
  addr : Word
  time : Nat
  deriving DecidableEq, Repr

/-- What FLT holds beside its registers (20_faults_and_interrupts.md). -/
structure FltCore where
  queue : List FaultEntry := []
  lost : Bool := false
  /-- `ERR_N`: when the minimum width ends; whether it has; whether a release was written since (R673). -/
  errEnd : Nat := 0
  errDone : Bool := true
  errReleased : Bool := true
  /-- Extended coarse time of the last message of each class (R674). -/
  lastMsg : Tab Nat := []
  /-- Block resets of each landing and port (key 64 + n) since the last quiet exit of its class. -/
  bursts : Tab Nat := []
  /-- The word armed by target 0x1, the windows left of target 0x3 (R677). -/
  injWord : Option (Nat × Nat) := none
  injWindows : Nat := 0
  injEngine : Option Nat := none
  injAvs : Bool := false
  injCheck : Bool := false
  /-- Rails outside their operating conditions (R675). -/
  rails : List Nat := []
  deriving DecidableEq, Repr

/-- How far the device has come since cold reset (R693): held in reset; RESET_N has risen; the reference synthesiser is locked; fuses,
self-tests and fill are done; NV has recovered; FLM has its link and the first regulated window is awaited (R71); FAB loads or has
loaded. -/
inductive Phase where
  | held | straps | refsyn | init | nv | flm | running
  deriving DecidableEq, Repr

/-- What TOP holds beside its registers (21_reset_power_startup.md). -/
structure TopCore where
  phase : Phase := .straps
  /-- The cold reset that precedes start-up came from power-on, so a POWER_LOSS may have to be told (R644); a power loss was
  stored. -/
  powerLost : Bool := false
  storedLoss : Bool := false
  /-- FULLRST_N holds the device in full reset (R691). -/
  fullHeld : Bool := false
  /-- A full reset or a cold reset is not yet ended by a landing, and which. -/
  resetting : Bool := true
  fromCold : Bool := true
  /-- Whether an image has landed since cold reset (R104). -/
  landedOnce : Bool := false
  /-- From the start of a full reset until the landing that ends it (R683); ACTIVATE ordered it (R140). -/
  inFull : Bool := false
  activated : Bool := false
  deriving DecidableEq, Repr

/-- What PWR holds beside its registers (02_self_timed_core.md): the windows since the last commanded code, the runs of windows judged
for a deficit, of windows that were themselves slow at the ceiling, and of regulated ones, the readbacks off the mark, the code, and
the transaction in progress. -/
structure PwrCore where
  sinceStep : Nat := 4
  deficitRun : Nat := 0
  realRun : Nat := 0
  exitRun : Nat := 0
  badReads : Nat := 0
  code : Nat := 26
  stepping : Option Nat := none
  regulated : Bool := false
  /-- The deficit in force comes from an injection, which leaves the voltage loop alone (R677). -/
  fakeDeficit : Bool := false
  lagged : Bool := false
  deriving DecidableEq, Repr

/-- A load in progress (R139 to R147): the slot it loads and whether from the slipway, the slots that have failed, the slot
first tried, whether it was PENDING, the extended coarse time of its start, and, once the structure
is built and while FAB waits for a BUSY bit, the loops as they stood before and the first preload entry not yet applied (R129). -/
structure LoadJob where
  slot : Nat
  slipway : Bool
  tried : List Nat
  first : Nat
  wasPending : Bool
  since : Nat
  held : Option (List LoopCore) := none
  next : Nat := 0
  deriving DecidableEq, Repr

/-- A FAB operation in progress, with the argument latched as it was written. -/
structure FabOp where
  opcode : Nat
  slot : Nat
  port : Port
  arg : Nat
  deriving DecidableEq, Repr

/-- What FAB holds beside its registers (03_timing_fabric.md, 04_configuration_images.md). -/
structure FabCore where
  /-- The image that last landed. -/
  img : Option Image := none
  load : Option LoadJob := none
  /-- A load that `FULLRST_N` holds back (R691). -/
  heldJob : Option LoadJob := none
  op : Option FabOp := none
  /-- ACTIVATE waits for its handover (R149). -/
  handover : Option Port := none
  deriving DecidableEq, Repr

/-- A checkpointed ledger in the NV array (R633). -/
structure LedgerSlot where
  seq : Nat
  led : Ledger
  deriving DecidableEq, Repr

/-- What is kept of the time scales in the newest FLOOR slot (R370, R638). -/
structure FloorSlot where
  secs : Tab Nat := []
  deriving DecidableEq, Repr

/-- The SYSTEM content that a commit writes as one unit (R633, R636): boot record, sealing state, passwords. -/
structure NvSystem where
  cur : Nat := 3
  prev : Nat := 3
  pend : Nat := 3
  slots : Tab Nat := []
  sealed_ : Nat := 0
  sealedK : Nat := 0
  everSealed : Bool := false
  nextB : Nat := 0
  regr : Nat := 0
  regrS : Nat := 0
  lastStepNs : Int := 0
  passwords : Tab Nat := []
  deriving DecidableEq, Repr

/-- The mirror of the boot record and the slot states in the flash directory (R135). -/
structure BootMirror where
  cur : Nat := 3
  prev : Nat := 3
  pend : Nat := 3
  slots : Tab Nat := []
  deriving DecidableEq, Repr

/-- What a commit with the ledgers brings to the array (R514 step 3, R637): checkpoint slots and frozen ledgers. -/
structure LedgerCommit where
  slots : Tab LedgerSlot
  frozen : List Frozen
  deriving DecidableEq, Repr

/-- A commit in progress (R636): whether an NV operation started it, what the array becomes when it completes, whether another waits for its
end (and whether an operation ordered that one), the ledgers that come with it, and the time scale and boundary of a sealing (R514). -/
structure NvCommit where
  byHost : Bool
  arr : Tab Byte
  sys : NvSystem
  again : Option Bool := none
  led : Option LedgerCommit := none
  floorMin : Option (Nat × Nat) := none
  deriving DecidableEq, Repr

/-- What NV holds beside its registers (19_nonvolatile_storage.md). -/
structure NvCore where
  /-- Shadow and array of the HOST region and the LOGBOOK, by NV offset. -/
  shadow : Tab Byte := []
  array : Tab Byte := []
  dirty : List Nat := []
  /-- SYSTEM in the shadow and in the array. -/
  sys : NvSystem := {}
  sysArray : NvSystem := {}
  floor : FloorSlot := {}
  /-- Checkpoint slots of the array: slot s of tenant t under 2 t + s (R633). -/
  ledgers : Tab LedgerSlot := []
  manFrozen : List Frozen := []
  commit : Option NvCommit := none
  /-- The next commit brings the ledgers (R637), and a sealing's boundary for the floor of a time scale (R514 step 3). -/
  ckptDue : Bool := false
  floorDue : Option (Nat × Nat) := none
  /-- The logbook: staged records, head and archive, each with its SEQ; next SEQ; boots; records in the head that are
  not archived yet; faults suppressed, by source and kind: time of the last record and count (R655). -/
  staged : List (Nat × List Byte) := []
  head : List (Nat × List Byte) := []
  archive : List (Nat × List Byte) := []
  seq : Nat := 0
  boots : Nat := 0
  unarchived : Nat := 0
  suppressed : List (Nat × Nat × Nat) := []
  /-- Unlocked (port, region, kind) and wrong passwords in a row, key 2 · region + kind (R640). -/
  unlocked : List (Nat × Nat) := []
  wrong : Tab Nat := []
  locked : List Nat := []
  /-- Power-fail store (R642): in progress since; PFAIL_N is asserted. -/
  storing : Option Nat := none
  pfail : Bool := false
  stored : Bool := false
  lastLedger : Nat := 0
  deriving DecidableEq, Repr

/-- What FLM holds beside its registers (19_nonvolatile_storage.md). -/
structure FlmCore where
  /-- The operation in progress: opcode and port. -/
  op : Option (Nat × Port) := none
  descriptor : List Word := []
  /-- The directory (R647 to R652): whether one is valid, logical capacity in MB, blocks left in the pool, bad blocks, blocks taken,
  logical pages lost, blocks of LOG_ARCHIVE and of MAN_ARCHIVE. -/
  formatted : Bool := false
  cap : Nat := 0
  pool : Nat := 0
  bad : Nat := 0
  taken : Nat := 0
  lostPages : List Nat := []
  logBlocks : Nat := 0
  manBlocks : Nat := 0
  nand : Bool := false
  /-- Blocks taken from slot A and from slot B (R652). -/
  takenA : Nat := 0
  takenB : Nat := 0
  /-- The mirror of the boot record in the directory (R135). -/
  boot : BootMirror := {}
  /-- The slot that a WRITE_SLOT in progress is programming: at a recovery it is EMPTY (R136). -/
  writing : List Nat := []
  deriving DecidableEq, Repr

end Sys2Proof.Machine
end

