-- ==== Sys2Proof/Machine/RegMap.lean ====
section
/-! DEFINITION. The register tables of the chapters: for each register its offset, how many there are and how far apart,
the instances of its block that have it, its reset domain (R5, R6), and for each field that is not rsvd its bits, its
access code (R7), whether it is pilot level (R22) and the reset value its table states (0 where the table names
no number: `specialReset` in Machine/RegReset.lean then gives it). -/

namespace Sys2Proof.Machine

/-- The registers of TOP. -/
def regsTOP : List RegDef := [
  ⟨"TOP.ID", 0x0, 1, 0x4, 0, 1, .cold, [⟨31, 16, .ro, false, 0x9640⟩, ⟨15, 12, .ro, false, 0x2⟩, ⟨11, 8, .ro, false, 0x1⟩, ⟨7, 4, .ro, false, 0x0⟩]⟩,
  ⟨"TOP.RST_STAT", 0x4, 1, 0x4, 0, 1, .cold, [⟨31, 28, .ro, false, 0x0⟩, ⟨27, 24, .ro, false, 0xF⟩, ⟨15, 0, .ro, false, 0x0⟩]⟩,
  ⟨"TOP.STRAP", 0x8, 1, 0x4, 0, 1, .cold, [⟨26, 8, .ro, false, 0x0⟩, ⟨2, 0, .ro, false, 0x0⟩]⟩,
  ⟨"TOP.CMD", 0xC, 1, 0x4, 0, 1, .full, [⟨31, 0, .wo, false, 0x0⟩]⟩]

/-- The registers of HOST, part 1. -/
def regsHOST1 : List RegDef := [
  ⟨"HOST.PORT", 0x0, 1, 0x4, 0, 1, .cold, [⟨15, 12, .ro, false, 0x0⟩, ⟨11, 8, .ro, false, 0x0⟩, ⟨0, 0, .ro, false, 0x0⟩]⟩,
  ⟨"HOST.EVENT", 0x4, 1, 0x4, 0, 1, .full, [⟨5, 5, .rc, false, 0x0⟩, ⟨4, 4, .rc, false, 0x0⟩, ⟨3, 3, .rc, false, 0x0⟩, ⟨2, 2, .rc, false, 0x0⟩, ⟨1, 1, .rc, false, 0x0⟩, ⟨0, 0, .rc, false, 0x0⟩]⟩,
  ⟨"HOST.ERR_STAT", 0x8, 1, 0x4, 0, 1, .full, [⟨31, 31, .rc, false, 0x0⟩, ⟨23, 16, .rc, false, 0x0⟩, ⟨8, 8, .ro, false, 0x0⟩, ⟨7, 0, .ro, false, 0x0⟩]⟩,
  ⟨"HOST.ERR_ADDR", 0xC, 1, 0x4, 0, 1, .full, [⟨31, 31, .ro, false, 0x0⟩, ⟨25, 0, .ro, false, 0x0⟩]⟩,
  ⟨"HOST.CFGCHK_CTRL", 0x100, 1, 0x4, 0, 1, .full, [⟨0, 0, .rw, false, 0x0⟩]⟩,
  ⟨"HOST.CFGCHK_REF", 0x104, 1, 0x4, 0, 1, .full, [⟨31, 0, .rw, false, 0x0⟩]⟩,
  ⟨"HOST.CFGCHK_STAT", 0x108, 1, 0x4, 0, 1, .full, [⟨31, 31, .ro, false, 0x1⟩, ⟨30, 30, .ro, false, 0x0⟩, ⟨29, 29, .ro, false, 0x0⟩, ⟨15, 0, .ro, false, 0x0⟩]⟩,
  ⟨"HOST.CFGCHK_LAST", 0x10C, 1, 0x4, 0, 1, .full, [⟨31, 0, .ro, false, 0x0⟩]⟩,
  ⟨"HOST.CFGCHK_CMD", 0x110, 1, 0x4, 0, 1, .full, [⟨0, 0, .wp, false, 0x0⟩]⟩,
  ⟨"HOST.MBOX", 0x1000, 64, 0x4, 0, 1, .full, [⟨31, 0, .rw, false, 0x0⟩]⟩,
  ⟨"HOST.MBOX_STAT", 0x1100, 1, 0x4, 0, 1, .full, [⟨31, 31, .ro, false, 0x0⟩, ⟨30, 30, .ro, false, 0x0⟩, ⟨6, 0, .ro, false, 0x0⟩]⟩,
  ⟨"HOST.MBOX_COMMIT", 0x1104, 1, 0x4, 0, 1, .full, [⟨6, 0, .wo, false, 0x0⟩]⟩]

/-- The registers of HOST, part 2. -/
def regsHOST2 : List RegDef := [
  ⟨"HOST.RING", 0x2000, 512, 0x4, 0, 1, .full, [⟨31, 0, .rw, false, 0x0⟩]⟩,
  ⟨"HOST.RING_PI", 0x2800, 1, 0x4, 0, 1, .full, [⟨15, 0, .rw, false, 0x0⟩]⟩,
  ⟨"HOST.RING_STAT", 0x2804, 1, 0x4, 0, 1, .full, [⟨31, 31, .ro, false, 0x0⟩, ⟨30, 30, .ro, false, 0x0⟩, ⟨29, 29, .ro, false, 0x0⟩, ⟨15, 0, .ro, false, 0x0⟩]⟩]

/-- The registers of HOST. -/
def regsHOST : List RegDef := regsHOST1 ++ regsHOST2

/-- The registers of INTR. -/
def regsINTR : List RegDef := [
  ⟨"INTR.PEND", 0x0, 20, 0x4, 0, 1, .full, [⟨31, 0, .rc, false, 0x0⟩]⟩,
  ⟨"INTR.MASK", 0x100, 20, 0x4, 0, 1, .full, [⟨31, 0, .rw, false, 0x0⟩]⟩,
  ⟨"INTR.HIST", 0x200, 20, 0x4, 0, 1, .cold, [⟨31, 0, .rc, false, 0x0⟩]⟩,
  ⟨"INTR.STATUS", 0x300, 1, 0x4, 0, 1, .full, [⟨9, 0, .ro, false, 0x0⟩]⟩,
  ⟨"INTR.VPEND", 0x310, 2, 0x4, 0, 1, .full, [⟨31, 0, .ro, false, 0x0⟩]⟩,
  ⟨"INTR.ROUTE", 0x1000, 640, 0x4, 0, 1, .full, [⟨16, 16, .ro, false, 0x0⟩, ⟨6, 0, .ro, false, 0x0⟩]⟩]

/-- The registers of FLT, part 1. -/
def regsFLT1 : List RegDef := [
  ⟨"FLT.STATUS", 0x0, 1, 0x4, 0, 1, .cold, [⟨31, 24, .ro, false, 0x0⟩, ⟨23, 23, .ro, false, 0x0⟩, ⟨22, 22, .ro, false, 0x0⟩, ⟨21, 21, .ro, false, 0x0⟩, ⟨20, 20, .ro, false, 0x0⟩, ⟨15, 0, .ro, false, 0x0⟩]⟩,
  ⟨"FLT.EVENT", 0x4, 1, 0x4, 0, 1, .full, [⟨6, 6, .rc, false, 0x0⟩, ⟨5, 5, .rc, false, 0x0⟩, ⟨4, 4, .rc, false, 0x0⟩, ⟨3, 3, .rc, false, 0x0⟩, ⟨2, 2, .rc, false, 0x0⟩, ⟨1, 1, .rc, false, 0x0⟩, ⟨0, 0, .rc, false, 0x0⟩]⟩,
  ⟨"FLT.CLASS_EVENT", 0x8, 1, 0x4, 0, 1, .full, [⟨15, 0, .rc, false, 0x0⟩]⟩,
  ⟨"FLT.FIRST0", 0xC, 1, 0x4, 0, 1, .cold, [⟨31, 31, .rc, false, 0x0⟩, ⟨30, 30, .ro, false, 0x0⟩, ⟨25, 16, .ro, false, 0x0⟩, ⟨5, 0, .ro, false, 0x0⟩]⟩,
  ⟨"FLT.FIRST1", 0x10, 1, 0x4, 0, 1, .cold, [⟨31, 0, .ro, false, 0x0⟩]⟩,
  ⟨"FLT.FIRST2", 0x14, 1, 0x4, 0, 1, .cold, [⟨31, 0, .ro, false, 0x0⟩]⟩,
  ⟨"FLT.TRAP0", 0x18, 1, 0x4, 0, 1, .cold, [⟨31, 31, .ro, false, 0x0⟩, ⟨30, 30, .ro, false, 0x0⟩, ⟨25, 16, .ro, false, 0x0⟩, ⟨5, 0, .ro, false, 0x0⟩]⟩,
  ⟨"FLT.TRAP1", 0x1C, 1, 0x4, 0, 1, .cold, [⟨31, 0, .ro, false, 0x0⟩]⟩,
  ⟨"FLT.TRAP2", 0x20, 1, 0x4, 0, 1, .cold, [⟨31, 0, .ro, false, 0x0⟩]⟩,
  ⟨"FLT.COUNT", 0x24, 1, 0x4, 0, 1, .cold, [⟨31, 16, .rc, false, 0x0⟩, ⟨15, 0, .rc, false, 0x0⟩]⟩,
  ⟨"FLT.RECOVER", 0x28, 1, 0x4, 0, 1, .cold, [⟨31, 16, .rc, false, 0x0⟩, ⟨15, 0, .rc, false, 0x0⟩]⟩,
  ⟨"FLT.WITHHELD_LND", 0x2C, 1, 0x4, 0, 1, .full, [⟨31, 0, .ro, false, 0x0⟩]⟩]

/-- The registers of FLT, part 2. -/
def regsFLT2 : List RegDef := [
  ⟨"FLT.WITHHELD_PRT", 0x30, 1, 0x4, 0, 1, .full, [⟨7, 0, .ro, false, 0x0⟩]⟩,
  ⟨"FLT.DEVICE", 0x34, 1, 0x4, 0, 1, .cold, [⟨11, 8, .ro, false, 0x0⟩, ⟨4, 4, .ro, false, 0x0⟩, ⟨3, 3, .ro, false, 0x0⟩, ⟨2, 2, .ro, false, 0x0⟩, ⟨1, 1, .ro, false, 0x0⟩, ⟨0, 0, .ro, false, 0x0⟩]⟩,
  ⟨"FLT.ERR_CTRL", 0x38, 1, 0x4, 0, 1, .full, [⟨13, 0, .rw, false, 0x64⟩]⟩,
  ⟨"FLT.QUIET", 0x3C, 1, 0x4, 0, 1, .full, [⟨31, 24, .rw, false, 0x4⟩, ⟨15, 0, .rw, false, 0x3E8⟩]⟩,
  ⟨"FLT.CMD", 0x40, 1, 0x4, 0, 1, .full, [⟨4, 4, .wp, true, 0x0⟩, ⟨3, 3, .wp, true, 0x0⟩, ⟨2, 2, .wp, false, 0x0⟩, ⟨1, 1, .wp, false, 0x0⟩, ⟨0, 0, .wp, false, 0x0⟩]⟩,
  ⟨"FLT.CODE", 0x44, 1, 0x4, 0, 1, .full, [⟨7, 0, .ro, false, 0x0⟩]⟩,
  ⟨"FLT.INJ", 0x48, 1, 0x4, 0, 1, .full, [⟨13, 8, .rw, true, 0x0⟩, ⟨5, 4, .rw, true, 0x1⟩, ⟨3, 0, .rw, true, 0x0⟩]⟩,
  ⟨"FLT.INJ_ADDR", 0x4C, 1, 0x4, 0, 1, .full, [⟨25, 0, .rw, true, 0x0⟩]⟩,
  ⟨"FLT.INJ_MSG", 0x50, 1, 0x4, 0, 1, .full, [⟨25, 16, .rw, true, 0x0⟩, ⟨5, 0, .rw, true, 0x0⟩]⟩,
  ⟨"FLT.INJ_MSG_ADDR", 0x54, 1, 0x4, 0, 1, .full, [⟨31, 0, .rw, true, 0x0⟩]⟩]

/-- The registers of FLT. -/
def regsFLT : List RegDef := regsFLT1 ++ regsFLT2

/-- The registers of FAB, part 1. -/
def regsFAB1 : List RegDef := [
  ⟨"FAB.STATE", 0x0, 1, 0x4, 0, 1, .cold, [⟨31, 24, .ro, false, 0x0⟩, ⟨19, 16, .ro, false, 0x0⟩, ⟨12, 12, .ro, false, 0x0⟩, ⟨11, 10, .ro, false, 0x3⟩, ⟨9, 8, .ro, false, 0x3⟩, ⟨6, 4, .ro, false, 0x5⟩, ⟨1, 0, .ro, false, 0x0⟩]⟩,
  ⟨"FAB.SLOTS", 0x4, 1, 0x4, 0, 1, .kept, [⟨31, 30, .ro, false, 0x0⟩, ⟨29, 28, .ro, false, 0x0⟩, ⟨27, 26, .ro, false, 0x0⟩, ⟨5, 4, .ro, false, 0x0⟩, ⟨3, 2, .ro, false, 0x0⟩, ⟨1, 0, .ro, false, 0x0⟩]⟩,
  ⟨"FAB.SECVER", 0x8, 1, 0x4, 0, 1, .kept, [⟨30, 24, .ro, false, 0x0⟩, ⟨22, 16, .ro, false, 0x0⟩, ⟨14, 8, .ro, false, 0x0⟩, ⟨6, 0, .ro, false, 0x0⟩]⟩,
  ⟨"FAB.CTRL", 0xC, 1, 0x4, 0, 1, .full, [⟨0, 0, .lk, false, 0x0⟩]⟩,
  ⟨"FAB.OP", 0x10, 1, 0x4, 0, 1, .full, [⟨12, 12, .pw, false, 0x0⟩, ⟨9, 8, .pw, false, 0x0⟩, ⟨7, 0, .pw, false, 0x0⟩]⟩,
  ⟨"FAB.OP_ARG", 0x14, 1, 0x4, 0, 1, .full, [⟨31, 0, .rw, false, 0x0⟩]⟩,
  ⟨"FAB.OP_STATUS", 0x18, 1, 0x4, 0, 1, .full, [⟨31, 31, .ro, false, 0x0⟩, ⟨15, 8, .ro, false, 0x0⟩, ⟨7, 0, .ro, false, 0x0⟩]⟩,
  ⟨"FAB.SHAPE", 0x100, 1, 0x4, 0, 1, .full, [⟨23, 16, .ro, false, 0x0⟩, ⟨15, 15, .ro, false, 0x0⟩, ⟨14, 11, .ro, false, 0x0⟩, ⟨10, 6, .ro, false, 0x0⟩, ⟨5, 0, .ro, false, 0x0⟩]⟩,
  ⟨"FAB.QUOTA_A", 0x104, 1, 0x4, 0, 1, .full, [⟨22, 16, .ro, false, 0x0⟩, ⟨12, 0, .ro, false, 0x0⟩]⟩,
  ⟨"FAB.QUOTA_B", 0x108, 1, 0x4, 0, 1, .full, [⟨21, 16, .ro, false, 0x0⟩, ⟨9, 0, .ro, false, 0x0⟩]⟩,
  ⟨"FAB.HELM", 0x140, 16, 0x4, 0, 1, .full, [⟨31, 0, .ro, false, 0x0⟩]⟩,
  ⟨"FAB.PILOT", 0x180, 8, 0x4, 0, 1, .full, [⟨31, 0, .ro, false, 0x0⟩]⟩]

/-- The registers of FAB, part 2. -/
def regsFAB2 : List RegDef := [
  ⟨"FAB.SPMAP", 0x200, 64, 0x4, 0, 1, .full, [⟨31, 31, .ro, false, 0x0⟩, ⟨27, 24, .ro, false, 0x0⟩, ⟨23, 16, .ro, false, 0x0⟩, ⟨15, 15, .ro, false, 0x0⟩, ⟨11, 8, .ro, false, 0x0⟩, ⟨7, 0, .ro, false, 0x0⟩]⟩]

/-- The registers of FAB. -/
def regsFAB : List RegDef := regsFAB1 ++ regsFAB2

/-- The registers of PWR. -/
def regsPWR : List RegDef := [
  ⟨"PWR.AVS_STATUS", 0x0, 1, 0x4, 0, 1, .cold, [⟨13, 13, .ro, false, 0x0⟩, ⟨12, 12, .ro, false, 0x0⟩, ⟨11, 11, .ro, false, 0x0⟩, ⟨10, 10, .ro, false, 0x0⟩, ⟨9, 9, .ro, false, 0x0⟩, ⟨8, 8, .ro, false, 0x0⟩, ⟨5, 0, .ro, false, 0x1A⟩]⟩,
  ⟨"PWR.CANARY", 0x4, 1, 0x4, 0, 1, .cold, [⟨31, 16, .rc, false, 0xFFFF⟩, ⟨15, 0, .ro, false, 0x0⟩]⟩,
  ⟨"PWR.AVS_CTRL", 0x8, 1, 0x4, 0, 1, .cold, [⟨16, 16, .rw, true, 0x0⟩, ⟨13, 8, .rw, true, 0x1A⟩, ⟨7, 0, .rw, true, 0x0⟩]⟩,
  ⟨"PWR.AVS_EVENT", 0xC, 1, 0x4, 0, 1, .cold, [⟨3, 3, .rc, false, 0x0⟩, ⟨2, 2, .rc, false, 0x0⟩, ⟨1, 1, .rc, false, 0x0⟩, ⟨0, 0, .rc, false, 0x0⟩]⟩,
  ⟨"PWR.AVS_COUNT", 0x10, 1, 0x4, 0, 1, .cold, [⟨31, 16, .rc, false, 0x0⟩, ⟨15, 0, .rc, false, 0x0⟩]⟩,
  ⟨"PWR.WHARF_DROP", 0x14, 1, 0x4, 0, 1, .full, [⟨31, 0, .rc, false, 0x0⟩]⟩]

/-- The registers of SEC. -/
def regsSEC : List RegDef := [
  ⟨"SEC.STATE", 0x0, 1, 0x4, 0, 1, .cold, [⟨31, 30, .ro, false, 0x0⟩, ⟨29, 29, .ro, false, 0x0⟩, ⟨28, 28, .ro, false, 0x0⟩, ⟨27, 27, .ro, false, 0x0⟩, ⟨8, 0, .ro, false, 0x0⟩]⟩,
  ⟨"SEC.DEVID", 0x10, 4, 0x4, 0, 1, .cold, [⟨31, 0, .ro, false, 0x0⟩]⟩,
  ⟨"SEC.OP", 0x20, 1, 0x4, 0, 1, .full, [⟨18, 16, .pw, false, 0x0⟩, ⟨15, 8, .pw, false, 0x0⟩, ⟨7, 0, .pw, false, 0x0⟩]⟩,
  ⟨"SEC.OP_ARG", 0x24, 1, 0x4, 0, 1, .full, [⟨31, 0, .rw, false, 0x0⟩]⟩,
  ⟨"SEC.OP_STATUS", 0x28, 1, 0x4, 0, 1, .full, [⟨31, 31, .ro, false, 0x0⟩, ⟨15, 8, .ro, false, 0x0⟩, ⟨7, 0, .ro, false, 0x0⟩]⟩,
  ⟨"SEC.EVENT", 0x2C, 1, 0x4, 0, 1, .full, [⟨6, 6, .rc, false, 0x0⟩, ⟨5, 5, .rc, false, 0x0⟩, ⟨4, 4, .rc, false, 0x0⟩, ⟨3, 3, .rc, false, 0x0⟩, ⟨2, 2, .rc, false, 0x0⟩, ⟨1, 1, .rc, false, 0x0⟩, ⟨0, 0, .rc, false, 0x0⟩]⟩,
  ⟨"SEC.TICKET_LO", 0x30, 1, 0x4, 0, 1, .kept, [⟨31, 0, .ro, false, 0x0⟩]⟩,
  ⟨"SEC.TICKET_HI", 0x34, 1, 0x4, 0, 1, .kept, [⟨31, 0, .ro, false, 0x0⟩]⟩,
  ⟨"SEC.TICKET_WHY", 0x38, 1, 0x4, 0, 1, .full, [⟨10, 8, .ro, false, 0x0⟩, ⟨3, 0, .ro, false, 0x0⟩]⟩,
  ⟨"SEC.REJECTS", 0x3C, 1, 0x4, 0, 1, .full, [⟨31, 16, .rc, false, 0x0⟩, ⟨15, 8, .rc, false, 0x0⟩, ⟨7, 0, .rc, false, 0x0⟩]⟩]

/-- The registers of NV, part 1. -/
def regsNV1 : List RegDef := [
  ⟨"NV.STATUS", 0x0, 1, 0x4, 0, 1, .cold, [⟨31, 31, .ro, false, 0x0⟩, ⟨30, 30, .ro, false, 0x0⟩, ⟨29, 29, .ro, false, 0x0⟩, ⟨23, 16, .ro, false, 0x0⟩, ⟨1, 0, .ro, false, 0x0⟩]⟩,
  ⟨"NV.EVENT", 0x4, 1, 0x4, 0, 1, .cold, [⟨7, 7, .rc, false, 0x0⟩, ⟨6, 6, .rc, false, 0x0⟩, ⟨5, 5, .rc, false, 0x0⟩, ⟨4, 4, .rc, false, 0x0⟩, ⟨3, 3, .rc, false, 0x0⟩, ⟨2, 2, .rc, false, 0x0⟩, ⟨1, 1, .rc, false, 0x0⟩, ⟨0, 0, .rc, false, 0x0⟩]⟩,
  ⟨"NV.OP", 0x8, 1, 0x4, 0, 1, .full, [⟨16, 8, .pw, false, 0x0⟩, ⟨7, 0, .pw, false, 0x0⟩]⟩,
  ⟨"NV.OP_ARG", 0xC, 1, 0x4, 0, 1, .full, [⟨31, 0, .rw, false, 0x0⟩]⟩,
  ⟨"NV.OP_ARG_HI", 0x10, 1, 0x4, 0, 1, .full, [⟨31, 0, .rw, false, 0x0⟩]⟩,
  ⟨"NV.OP_STATUS", 0x14, 1, 0x4, 0, 1, .full, [⟨31, 31, .ro, false, 0x0⟩, ⟨24, 16, .ro, false, 0x0⟩, ⟨15, 8, .ro, false, 0x0⟩, ⟨7, 0, .ro, false, 0x0⟩]⟩,
  ⟨"NV.PW_FAIL", 0x18, 1, 0x4, 0, 1, .full, [⟨15, 0, .rc, false, 0x0⟩]⟩,
  ⟨"NV.CFG", 0x1C, 1, 0x4, 0, 1, .full, [⟨18, 16, .rw, false, 0x0⟩, ⟨11, 0, .rw, false, 0x12C⟩]⟩,
  ⟨"NV.HREG", 0x20, 8, 0x4, 0, 1, .full, [⟨31, 31, .rw, false, 0x0⟩, ⟨30, 30, .ro, false, 0x0⟩, ⟨29, 29, .ro, false, 0x0⟩, ⟨24, 16, .rw, false, 0x0⟩, ⟨8, 0, .rw, false, 0x0⟩]⟩,
  ⟨"NV.LOG_NEWEST", 0x40, 1, 0x4, 0, 1, .kept, [⟨31, 0, .ro, false, 0x0⟩]⟩,
  ⟨"NV.LOG_NEWEST_HI", 0x44, 1, 0x4, 0, 1, .kept, [⟨31, 0, .ro, false, 0x0⟩]⟩,
  ⟨"NV.LOG_OLDEST", 0x48, 1, 0x4, 0, 1, .kept, [⟨31, 0, .ro, false, 0x0⟩]⟩]

/-- The registers of NV, part 2. -/
def regsNV2 : List RegDef := [
  ⟨"NV.LOG_OLDEST_HI", 0x4C, 1, 0x4, 0, 1, .kept, [⟨31, 0, .ro, false, 0x0⟩]⟩]

/-- The registers of NV. -/
def regsNV : List RegDef := regsNV1 ++ regsNV2

/-- The registers of FLM. -/
def regsFLM : List RegDef := [
  ⟨"FLM.STATE", 0x0, 1, 0x4, 0, 1, .cold, [⟨31, 30, .ro, false, 0x0⟩, ⟨29, 29, .ro, false, 0x0⟩, ⟨28, 28, .ro, false, 0x0⟩, ⟨27, 27, .ro, false, 0x0⟩, ⟨26, 26, .ro, false, 0x0⟩, ⟨15, 0, .ro, false, 0x0⟩]⟩,
  ⟨"FLM.EVENT", 0x4, 1, 0x4, 0, 1, .cold, [⟨6, 6, .rc, false, 0x0⟩, ⟨5, 5, .rc, false, 0x0⟩, ⟨4, 4, .rc, false, 0x0⟩, ⟨3, 3, .rc, false, 0x0⟩, ⟨2, 2, .rc, false, 0x0⟩, ⟨1, 1, .rc, false, 0x0⟩, ⟨0, 0, .rc, false, 0x0⟩]⟩,
  ⟨"FLM.OP", 0x8, 1, 0x4, 0, 1, .full, [⟨7, 0, .pw, false, 0x0⟩]⟩,
  ⟨"FLM.OP_STATUS", 0xC, 1, 0x4, 0, 1, .full, [⟨31, 31, .ro, false, 0x0⟩, ⟨15, 8, .ro, false, 0x0⟩, ⟨7, 0, .ro, false, 0x0⟩]⟩,
  ⟨"FLM.CAP", 0x10, 1, 0x4, 0, 1, .cold, [⟨31, 0, .ro, false, 0x0⟩]⟩,
  ⟨"FLM.BAD", 0x14, 1, 0x4, 0, 1, .cold, [⟨31, 16, .ro, false, 0x0⟩, ⟨15, 0, .ro, false, 0x0⟩]⟩,
  ⟨"FLM.SCRUB", 0x18, 1, 0x4, 0, 1, .cold, [⟨6, 0, .rw, false, 0xE⟩]⟩,
  ⟨"FLM.MAN_OLDEST", 0x1C, 1, 0x4, 0, 1, .cold, [⟨31, 0, .ro, false, 0x0⟩]⟩,
  ⟨"FLM.CNT", 0x20, 1, 0x4, 0, 1, .cold, [⟨31, 16, .rc, false, 0x0⟩, ⟨15, 0, .rc, false, 0x0⟩]⟩]

/-- The registers of MEM. -/
def regsMEM : List RegDef := [
  ⟨"MEM.STATUS", 0x0, 1, 0x4, 0, 1, .cold, [⟨31, 16, .ro, false, 0x0⟩, ⟨7, 0, .ro, false, 0x38⟩]⟩,
  ⟨"MEM.ECC_LAST", 0x4, 1, 0x4, 0, 1, .cold, [⟨31, 31, .rc, false, 0x0⟩, ⟨30, 30, .ro, false, 0x0⟩, ⟨29, 28, .ro, false, 0x0⟩, ⟨7, 0, .ro, false, 0x0⟩]⟩,
  ⟨"MEM.ECC_ADDR", 0x8, 1, 0x4, 0, 1, .cold, [⟨25, 0, .ro, false, 0x0⟩]⟩,
  ⟨"MEM.AT_ADDR", 0x10, 1, 0x4, 0, 1, .full, [⟨25, 0, .rw, false, 0x0⟩]⟩,
  ⟨"MEM.AT_CMD", 0x14, 1, 0x4, 0, 1, .full, [⟨1, 0, .wo, false, 0x0⟩]⟩,
  ⟨"MEM.AT_CODE", 0x18, 1, 0x4, 0, 1, .full, [⟨7, 0, .ro, false, 0x0⟩]⟩,
  ⟨"MEM.ECC", 0x100, 128, 0x4, 0, 1, .cold, [⟨31, 24, .rc, false, 0x0⟩, ⟨15, 0, .rc, false, 0x0⟩]⟩,
  ⟨"MEM.REPAIR", 0x300, 16, 0x4, 0, 1, .cold, [⟨31, 0, .ro, false, 0x0⟩]⟩]

/-- The registers of EVR. -/
def regsEVR : List RegDef := [
  ⟨"EVR.EVENT", 0x0, 1, 0x4, 0, 1, .full, [⟨2, 2, .rc, false, 0x0⟩, ⟨1, 1, .rc, false, 0x0⟩, ⟨0, 0, .rc, false, 0x0⟩]⟩,
  ⟨"EVR.MERGE_CNT", 0x4, 1, 0x4, 0, 1, .full, [⟨31, 0, .rc, false, 0x0⟩]⟩,
  ⟨"EVR.MERGE_LAST", 0x8, 1, 0x4, 0, 1, .full, [⟨13, 13, .ro, false, 0x0⟩, ⟨12, 4, .ro, false, 0x0⟩, ⟨3, 0, .ro, false, 0x0⟩]⟩,
  ⟨"EVR.STALE_CNT", 0xC, 1, 0x4, 0, 1, .full, [⟨31, 0, .rc, false, 0x0⟩]⟩,
  ⟨"EVR.SWEVT", 0x10, 1, 0x4, 0, 1, .full, [⟨15, 0, .wp, false, 0x0⟩]⟩,
  ⟨"EVR.ROUTE_SRC", 0x1000, 256, 0x10, 0, 1, .full, [⟨31, 31, .rw, false, 0x0⟩, ⟨11, 0, .rw, false, 0x0⟩]⟩,
  ⟨"EVR.ROUTE_DST", 0x1004, 256, 0x10, 0, 1, .full, [⟨12, 12, .rw, false, 0x0⟩, ⟨11, 4, .rw, false, 0x0⟩, ⟨3, 0, .rw, false, 0x0⟩]⟩,
  ⟨"EVR.ROUTE_ARG", 0x1008, 256, 0x10, 0, 1, .full, [⟨31, 0, .rw, false, 0x0⟩]⟩]

/-- The registers of SELG. -/
def regsSELG : List RegDef := [
  ⟨"SELG.STATE_A", 0x0, 1, 0x4, 0, 1, .full, [⟨31, 16, .ro, false, 0x0⟩, ⟨15, 0, .ro, false, 0x0⟩]⟩,
  ⟨"SELG.STATE_B", 0x4, 1, 0x4, 0, 1, .full, [⟨31, 16, .ro, false, 0x0⟩, ⟨15, 0, .ro, false, 0x0⟩]⟩]

/-- The registers of ENG. -/
def regsENG : List RegDef := [
  ⟨"ENG.STATUS", 0x0, 1, 0x4, 0, 1, .kept, [⟨31, 31, .ro, false, 0x0⟩, ⟨29, 24, .ro, false, 0x0⟩, ⟨21, 16, .ro, false, 0x0⟩, ⟨13, 8, .ro, false, 0x0⟩, ⟨5, 0, .ro, false, 0x0⟩]⟩,
  ⟨"ENG.CTRL", 0x4, 1, 0x4, 0, 1, .full, [⟨25, 16, .rw, false, 0xA⟩, ⟨2, 0, .rw, false, 0x1⟩]⟩,
  ⟨"ENG.EVENT", 0x8, 1, 0x4, 0, 1, .full, [⟨7, 7, .rc, false, 0x0⟩, ⟨6, 6, .rc, false, 0x0⟩, ⟨5, 5, .rc, false, 0x0⟩, ⟨4, 4, .rc, false, 0x0⟩, ⟨3, 3, .rc, false, 0x0⟩, ⟨2, 2, .rc, false, 0x0⟩, ⟨1, 1, .rc, false, 0x0⟩, ⟨0, 0, .rc, false, 0x0⟩]⟩,
  ⟨"ENG.CMD", 0xC, 1, 0x4, 0, 1, .full, [⟨3, 0, .wo, false, 0x0⟩]⟩,
  ⟨"ENG.CMD_ENG", 0x10, 1, 0x4, 0, 1, .full, [⟨31, 0, .rw, false, 0x0⟩]⟩,
  ⟨"ENG.CMD_LOOP", 0x14, 1, 0x4, 0, 1, .full, [⟨31, 0, .rw, false, 0x0⟩]⟩,
  ⟨"ENG.CMD_STATUS", 0x18, 1, 0x4, 0, 1, .full, [⟨31, 31, .ro, false, 0x0⟩, ⟨11, 8, .ro, false, 0x0⟩, ⟨7, 0, .ro, false, 0x0⟩]⟩,
  ⟨"ENG.FERRY_STAT", 0x20, 1, 0x4, 0, 1, .cold, [⟨31, 16, .ro, false, 0x0⟩, ⟨0, 0, .ro, false, 0x0⟩]⟩,
  ⟨"ENG.FERRY_LAST", 0x24, 1, 0x4, 0, 1, .cold, [⟨31, 0, .ro, false, 0x0⟩]⟩,
  ⟨"ENG.ENGINE", 0x100, 36, 0x4, 0, 1, .kept, [⟨31, 28, .ro, false, 0x0⟩, ⟨27, 16, .ro, false, 0x0⟩, ⟨13, 8, .ro, false, 0x0⟩, ⟨7, 4, .ro, false, 0x0⟩, ⟨0, 0, .ro, false, 0x0⟩]⟩]

/-- The registers of LND, part 1. -/
def regsLND1 : List RegDef := [
  ⟨"LND.CFG", 0x0, 1, 0x4, 0, 32, .full, [⟨23, 16, .ro, false, 0x0⟩, ⟨12, 12, .ro, false, 0x0⟩, ⟨9, 8, .ro, false, 0x0⟩, ⟨5, 4, .ro, false, 0x0⟩, ⟨2, 0, .ro, false, 0x0⟩]⟩,
  ⟨"LND.CTRL", 0x4, 1, 0x4, 0, 32, .full, [⟨31, 31, .rw, true, 0x0⟩, ⟨23, 16, .rw, false, 0x1⟩, ⟨12, 8, .rw, false, 0x0⟩, ⟨4, 4, .rw, false, 0x0⟩, ⟨2, 2, .rw, false, 0x0⟩, ⟨1, 1, .rw, false, 0x1⟩, ⟨0, 0, .rw, false, 0x1⟩]⟩,
  ⟨"LND.NOM_FREQ", 0x8, 1, 0x4, 0, 32, .full, [⟨31, 0, .rw, false, 0x0⟩]⟩,
  ⟨"LND.DECIM", 0xC, 1, 0x4, 0, 32, .full, [⟨23, 0, .rw, false, 0x0⟩]⟩,
  ⟨"LND.GATE", 0x10, 1, 0x4, 0, 32, .full, [⟨19, 0, .rw, false, 0x3E8⟩]⟩,
  ⟨"LND.ACT", 0x14, 1, 0x4, 0, 32, .full, [⟨7, 0, .rw, false, 0x5⟩]⟩,
  ⟨"LND.SLICE", 0x18, 1, 0x4, 0, 32, .full, [⟨31, 31, .rw, true, 0x0⟩, ⟨25, 16, .rw, true, 0x0⟩]⟩,
  ⟨"LND.SLICE_STAT", 0x1C, 1, 0x4, 0, 32, .full, [⟨25, 16, .ro, false, 0x0⟩, ⟨9, 0, .ro, false, 0x0⟩]⟩,
  ⟨"LND.STATUS", 0x20, 1, 0x4, 0, 32, .full, [⟨31, 30, .ro, false, 0x3⟩, ⟨29, 28, .ro, false, 0x3⟩, ⟨6, 6, .ro, false, 0x0⟩, ⟨5, 5, .ro, false, 0x0⟩, ⟨4, 4, .ro, false, 0x0⟩, ⟨3, 3, .ro, false, 0x0⟩, ⟨2, 2, .ro, false, 0x0⟩, ⟨1, 1, .ro, false, 0x0⟩]⟩,
  ⟨"LND.EVENT", 0x24, 1, 0x4, 0, 32, .full, [⟨8, 8, .rc, false, 0x0⟩, ⟨7, 7, .rc, false, 0x0⟩, ⟨6, 6, .rc, false, 0x0⟩, ⟨5, 5, .rc, false, 0x0⟩, ⟨4, 4, .rc, false, 0x0⟩, ⟨3, 3, .rc, false, 0x0⟩, ⟨2, 2, .rc, false, 0x0⟩, ⟨1, 1, .rc, false, 0x0⟩, ⟨0, 0, .rc, false, 0x0⟩]⟩,
  ⟨"LND.FREQ32", 0x28, 1, 0x4, 0, 32, .full, [⟨31, 0, .ro, false, 0x0⟩]⟩,
  ⟨"LND.ERRCNT", 0x2C, 1, 0x4, 0, 32, .full, [⟨31, 16, .rc, false, 0x0⟩, ⟨15, 0, .rc, false, 0x0⟩]⟩]

/-- The registers of LND, part 2. -/
def regsLND2 : List RegDef := [
  ⟨"LND.ERRCNT2", 0x30, 1, 0x4, 0, 32, .full, [⟨31, 24, .rc, false, 0x0⟩, ⟨23, 16, .rc, false, 0x0⟩, ⟨15, 0, .rc, false, 0x0⟩]⟩,
  ⟨"LND.HIST_PTR", 0x34, 1, 0x4, 0, 32, .full, [⟨31, 16, .ro, false, 0x0⟩, ⟨14, 0, .ro, false, 0x0⟩]⟩,
  ⟨"LND.CMD", 0x38, 1, 0x4, 0, 32, .full, [⟨2, 2, .wp, false, 0x0⟩, ⟨1, 1, .wp, false, 0x0⟩, ⟨0, 0, .wp, false, 0x0⟩]⟩,
  ⟨"LND.PATH", 0x3C, 1, 0x4, 0, 32, .full, [⟨31, 0, .rw, false, 0x0⟩]⟩,
  ⟨"LND.EPOCH", 0x40, 1, 0x4, 0, 32, .cold, [⟨19, 0, .ro, false, 0x0⟩]⟩,
  ⟨"LND.OBS", 0x44, 1, 0x4, 31, 1, .full, [⟨4, 0, .rw, false, 0x0⟩]⟩]

/-- The registers of LND. -/
def regsLND : List RegDef := regsLND1 ++ regsLND2

/-- The registers of SEL, part 1. -/
def regsSEL1 : List RegDef := [
  ⟨"SEL.CFG", 0x0, 1, 0x4, 0, 16, .full, [⟨16, 16, .ro, false, 0x0⟩, ⟨13, 8, .ro, false, 0x0⟩, ⟨4, 0, .ro, false, 0x0⟩]⟩,
  ⟨"SEL.CTRL", 0x4, 1, 0x4, 0, 16, .full, [⟨31, 20, .rw, false, 0x12C⟩, ⟨15, 4, .rw, false, 0x1E⟩, ⟨1, 1, .rw, false, 0x1⟩, ⟨0, 0, .rw, false, 0x0⟩]⟩,
  ⟨"SEL.STATUS", 0x8, 1, 0x4, 0, 16, .full, [⟨31, 28, .ro, false, 0x0⟩, ⟨20, 20, .ro, false, 0x0⟩, ⟨19, 16, .ro, false, 0xF⟩, ⟨12, 8, .ro, false, 0x1F⟩, ⟨2, 0, .ro, false, 0x0⟩]⟩,
  ⟨"SEL.EVENT", 0xC, 1, 0x4, 0, 16, .full, [⟨6, 6, .rc, false, 0x0⟩, ⟨5, 5, .rc, false, 0x0⟩, ⟨4, 4, .rc, false, 0x0⟩, ⟨3, 3, .rc, false, 0x0⟩, ⟨2, 2, .rc, false, 0x0⟩, ⟨1, 1, .rc, false, 0x0⟩, ⟨0, 0, .rc, false, 0x0⟩]⟩,
  ⟨"SEL.QUAL", 0x10, 1, 0x4, 0, 16, .full, [⟨29, 0, .ro, false, 0x0⟩]⟩,
  ⟨"SEL.CPEND", 0x14, 1, 0x4, 0, 16, .full, [⟨29, 0, .ro, false, 0x0⟩]⟩,
  ⟨"SEL.FORCE", 0x18, 1, 0x4, 0, 16, .full, [⟨31, 31, .rw, true, 0x0⟩, ⟨4, 0, .rw, true, 0x0⟩]⟩,
  ⟨"SEL.CMD", 0x1C, 1, 0x4, 0, 16, .full, [⟨8, 8, .wp, false, 0x0⟩, ⟨4, 0, .rw, false, 0x0⟩]⟩,
  ⟨"SEL.CAND_CFG", 0x100, 30, 0x20, 0, 16, .full, [⟨31, 24, .ro, false, 0x0⟩, ⟨22, 20, .ro, false, 0x0⟩, ⟨19, 16, .rw, true, 0xF⟩, ⟨15, 15, .rw, true, 0x0⟩, ⟨11, 8, .rw, false, 0xF⟩, ⟨7, 0, .rw, false, 0x0⟩]⟩,
  ⟨"SEL.CAND_STATE", 0x104, 30, 0x20, 0, 16, .full, [⟨31, 16, .ro, false, 0x0⟩, ⟨15, 15, .ro, false, 0x0⟩, ⟨13, 13, .ro, false, 0x0⟩, ⟨12, 12, .ro, false, 0x0⟩, ⟨11, 11, .ro, false, 0x0⟩, ⟨10, 10, .ro, false, 0x0⟩, ⟨9, 9, .ro, false, 0x0⟩, ⟨8, 8, .ro, false, 0x0⟩, ⟨7, 4, .ro, false, 0xF⟩, ⟨2, 0, .ro, false, 0x0⟩]⟩,
  ⟨"SEL.CAND_EVENT", 0x108, 30, 0x20, 0, 16, .full, [⟨10, 10, .rc, false, 0x0⟩, ⟨9, 9, .rc, false, 0x0⟩, ⟨8, 8, .rc, false, 0x0⟩, ⟨7, 7, .rc, false, 0x0⟩, ⟨6, 6, .rc, false, 0x0⟩, ⟨5, 5, .rc, false, 0x0⟩, ⟨4, 4, .rc, false, 0x0⟩, ⟨3, 3, .rc, false, 0x0⟩, ⟨2, 2, .rc, false, 0x0⟩, ⟨1, 1, .rc, false, 0x0⟩, ⟨0, 0, .rc, false, 0x0⟩]⟩,
  ⟨"SEL.CAND_FOFF", 0x10C, 30, 0x20, 0, 16, .full, [⟨31, 0, .ro, false, 0x0⟩]⟩]

/-- The registers of SEL, part 2. -/
def regsSEL2 : List RegDef := [
  ⟨"SEL.CAND_LIM_OUT", 0x110, 30, 0x20, 0, 16, .full, [⟨31, 0, .rw, true, 0x0⟩]⟩,
  ⟨"SEL.CAND_LIM_IN", 0x114, 30, 0x20, 0, 16, .full, [⟨31, 0, .rw, true, 0x0⟩]⟩,
  ⟨"SEL.CAND_LIM_JUMP", 0x118, 30, 0x20, 0, 16, .full, [⟨31, 0, .rw, true, 0x0⟩]⟩,
  ⟨"SEL.CAND_LIM_PLAUS", 0x11C, 30, 0x20, 0, 16, .full, [⟨31, 16, .rw, true, 0x0⟩, ⟨15, 0, .rw, true, 0x0⟩]⟩]

/-- The registers of SEL. -/
def regsSEL : List RegDef := regsSEL1 ++ regsSEL2

/-- The registers of LOOP, part 1. -/
def regsLOOP1 : List RegDef := [
  ⟨"LOOP.CFG", 0x0, 1, 0x4, 0, 32, .full, [⟨31, 28, .ro, false, 0x0⟩, ⟨27, 26, .ro, false, 0x0⟩, ⟨20, 16, .ro, false, 0x0⟩, ⟨9, 8, .ro, false, 0x0⟩, ⟨4, 0, .ro, false, 0x0⟩]⟩,
  ⟨"LOOP.CTRL", 0x4, 1, 0x4, 0, 32, .full, [⟨31, 31, .rw, true, 0x0⟩, ⟨30, 30, .rw, true, 0x0⟩, ⟨0, 0, .rw, false, 0x1⟩]⟩,
  ⟨"LOOP.BW", 0x8, 1, 0x4, 0, 32, .full, [⟨31, 0, .rw, false, 0x0⟩]⟩,
  ⟨"LOOP.SLOPE", 0xC, 1, 0x4, 0, 32, .full, [⟨31, 0, .rw, false, 0x0⟩]⟩,
  ⟨"LOOP.FREE_FREQ", 0x10, 1, 0x4, 0, 32, .full, [⟨31, 0, .rw, false, 0x0⟩]⟩,
  ⟨"LOOP.STATUS", 0x14, 1, 0x4, 0, 32, .full, [⟨31, 30, .ro, false, 0x3⟩, ⟨23, 16, .ro, false, 0x0⟩, ⟨11, 9, .ro, false, 0x0⟩, ⟨8, 8, .ro, false, 0x0⟩, ⟨7, 7, .ro, false, 0x0⟩, ⟨6, 6, .ro, false, 0x0⟩, ⟨5, 5, .ro, false, 0x0⟩, ⟨4, 4, .ro, false, 0x0⟩, ⟨2, 0, .ro, false, 0x0⟩]⟩,
  ⟨"LOOP.EVENT", 0x18, 1, 0x4, 0, 32, .full, [⟨13, 13, .rc, false, 0x0⟩, ⟨12, 12, .rc, false, 0x0⟩, ⟨11, 11, .rc, false, 0x0⟩, ⟨10, 10, .rc, false, 0x0⟩, ⟨9, 9, .rc, false, 0x0⟩, ⟨8, 8, .rc, false, 0x0⟩, ⟨7, 7, .rc, false, 0x0⟩, ⟨6, 6, .rc, false, 0x0⟩, ⟨5, 5, .rc, false, 0x0⟩, ⟨4, 4, .rc, false, 0x0⟩, ⟨3, 3, .rc, false, 0x0⟩, ⟨2, 2, .rc, false, 0x0⟩, ⟨1, 1, .rc, false, 0x0⟩, ⟨0, 0, .rc, false, 0x0⟩]⟩,
  ⟨"LOOP.PHERR", 0x1C, 1, 0x4, 0, 32, .full, [⟨31, 0, .ro, false, 0x0⟩]⟩,
  ⟨"LOOP.FREQ32", 0x20, 1, 0x4, 0, 32, .full, [⟨31, 0, .ro, false, 0x0⟩]⟩,
  ⟨"LOOP.STEP_LEFT", 0x24, 1, 0x4, 0, 32, .full, [⟨31, 0, .ro, false, 0x0⟩]⟩,
  ⟨"LOOP.STEPSTAT", 0x28, 1, 0x4, 0, 32, .full, [⟨7, 0, .ro, false, 0x0⟩]⟩,
  ⟨"LOOP.BUILDOUT", 0x2C, 1, 0x4, 0, 32, .full, [⟨31, 0, .ro, false, 0x0⟩]⟩]

/-- The registers of LOOP, part 2. -/
def regsLOOP2 : List RegDef := [
  ⟨"LOOP.CMD", 0x30, 1, 0x4, 0, 32, .full, [⟨3, 3, .wp, false, 0x0⟩, ⟨2, 2, .wp, false, 0x0⟩, ⟨1, 1, .wp, false, 0x0⟩, ⟨0, 0, .wp, false, 0x0⟩]⟩,
  ⟨"LOOP.SLIPS", 0x34, 1, 0x4, 0, 32, .full, [⟨15, 0, .rc, false, 0x0⟩]⟩,
  ⟨"LOOP.LOCK_PH", 0x40, 1, 0x4, 0, 32, .full, [⟨31, 0, .rw, true, 0x0⟩]⟩,
  ⟨"LOOP.LOCK_FR", 0x44, 1, 0x4, 0, 32, .full, [⟨31, 0, .rw, true, 0x0⟩]⟩,
  ⟨"LOOP.LOCK_DWELL", 0x48, 1, 0x4, 0, 32, .full, [⟨31, 0, .rw, true, 0x0⟩]⟩,
  ⟨"LOOP.COEF_P", 0x50, 1, 0x4, 0, 32, .full, [⟨31, 0, .rw, true, 0x0⟩]⟩,
  ⟨"LOOP.COEF_I", 0x54, 1, 0x4, 0, 32, .full, [⟨31, 0, .rw, true, 0x0⟩]⟩,
  ⟨"LOOP.DAMP", 0x58, 1, 0x4, 0, 32, .full, [⟨12, 0, .rw, true, 0x480⟩]⟩,
  ⟨"LOOP.GEAR_BW", 0x80, 8, 0x8, 0, 32, .full, [⟨31, 0, .rw, true, 0x0⟩]⟩,
  ⟨"LOOP.GEAR_DWELL", 0x84, 8, 0x8, 0, 32, .full, [⟨31, 0, .rw, true, 0x0⟩]⟩,
  ⟨"LOOP.WEIGHT", 0xC0, 4, 0x4, 0, 32, .full, [⟨23, 16, .ro, false, 0x0⟩, ⟨15, 0, .rw, true, 0x0⟩]⟩,
  ⟨"LOOP.HO_CTRL", 0x100, 1, 0x4, 0, 32, .full, [⟨31, 31, .rw, true, 0x0⟩, ⟨30, 30, .rw, true, 0x0⟩, ⟨23, 16, .rw, true, 0x2⟩, ⟨11, 8, .rw, true, 0x4⟩, ⟨1, 0, .rw, false, 0x0⟩]⟩]

/-- The registers of LOOP, part 3. -/
def regsLOOP3 : List RegDef := [
  ⟨"LOOP.HO_TEMP", 0x104, 1, 0x4, 0, 32, .full, [⟨15, 0, .rw, false, 0x1400⟩]⟩,
  ⟨"LOOP.HO_FRATE", 0x108, 1, 0x4, 0, 32, .full, [⟨31, 0, .rw, false, 0xAFEC0⟩]⟩,
  ⟨"LOOP.HO_TLAG", 0x10C, 1, 0x4, 0, 32, .full, [⟨31, 0, .rw, true, 0x384⟩]⟩,
  ⟨"LOOP.HO_TREF", 0x110, 1, 0x4, 0, 32, .full, [⟨15, 0, .rw, true, 0x1400⟩]⟩,
  ⟨"LOOP.HO_WIN", 0x114, 1, 0x4, 0, 32, .full, [⟨31, 0, .rw, true, 0xA8C⟩]⟩,
  ⟨"LOOP.HO_STAT", 0x118, 1, 0x4, 0, 32, .full, [⟨31, 31, .ro, false, 0x0⟩, ⟨30, 30, .ro, false, 0x0⟩, ⟨29, 29, .ro, false, 0x0⟩, ⟨28, 28, .ro, false, 0x0⟩, ⟨27, 27, .ro, false, 0x0⟩, ⟨26, 22, .ro, false, 0x0⟩, ⟨13, 0, .ro, false, 0x0⟩]⟩,
  ⟨"LOOP.HO_ELAPSED", 0x11C, 1, 0x4, 0, 32, .kept, [⟨31, 0, .ro, false, 0x0⟩]⟩,
  ⟨"LOOP.HO_LIMIT", 0x120, 1, 0x4, 0, 32, .full, [⟨31, 0, .rw, false, 0x0⟩]⟩,
  ⟨"LOOP.HO_EVENT", 0x124, 1, 0x4, 0, 32, .full, [⟨7, 7, .rc, false, 0x0⟩, ⟨6, 6, .rc, false, 0x0⟩, ⟨5, 5, .rc, false, 0x0⟩, ⟨4, 4, .rc, false, 0x0⟩, ⟨3, 3, .rc, false, 0x0⟩, ⟨2, 2, .rc, false, 0x0⟩, ⟨1, 1, .rc, false, 0x0⟩, ⟨0, 0, .rc, false, 0x0⟩]⟩,
  ⟨"LOOP.HIST_PTR", 0x128, 1, 0x4, 0, 32, .kept, [⟨31, 16, .ro, false, 0x0⟩, ⟨13, 0, .ro, false, 0x0⟩]⟩,
  ⟨"LOOP.HO_CMD", 0x12C, 1, 0x4, 0, 32, .full, [⟨2, 2, .wp, true, 0x0⟩, ⟨1, 1, .wp, true, 0x0⟩, ⟨0, 0, .wp, false, 0x0⟩]⟩,
  ⟨"LOOP.HO_CODE", 0x130, 1, 0x4, 0, 32, .full, [⟨7, 0, .ro, false, 0x0⟩]⟩]

/-- The registers of LOOP. -/
def regsLOOP : List RegDef := regsLOOP1 ++ regsLOOP2 ++ regsLOOP3

/-- The registers of APL. -/
def regsAPL : List RegDef := [
  ⟨"APL.CFG", 0x0, 1, 0x4, 0, 8, .full, [⟨29, 29, .ro, false, 0x0⟩, ⟨28, 24, .ro, false, 0x0⟩, ⟨18, 0, .ro, false, 0x0⟩]⟩,
  ⟨"APL.STATUS", 0x4, 1, 0x4, 0, 8, .cold, [⟨31, 31, .ro, false, 0x0⟩, ⟨19, 16, .ro, false, 0x0⟩, ⟨13, 8, .ro, false, 0x0⟩, ⟨4, 4, .ro, false, 0x0⟩, ⟨3, 3, .ro, false, 0x0⟩, ⟨2, 2, .ro, false, 0x0⟩, ⟨1, 1, .ro, false, 0x0⟩, ⟨0, 0, .ro, false, 0x0⟩]⟩,
  ⟨"APL.EVENT", 0x8, 1, 0x4, 0, 8, .full, [⟨6, 6, .rc, false, 0x0⟩, ⟨5, 5, .rc, false, 0x0⟩, ⟨4, 4, .rc, false, 0x0⟩, ⟨3, 3, .rc, false, 0x0⟩, ⟨2, 2, .rc, false, 0x0⟩, ⟨1, 1, .rc, false, 0x0⟩, ⟨0, 0, .rc, false, 0x0⟩]⟩,
  ⟨"APL.NOM_KHZ", 0xC, 1, 0x4, 0, 8, .cold, [⟨31, 0, .ro, false, 0x0⟩]⟩,
  ⟨"APL.LOCK", 0x10, 1, 0x4, 0, 8, .cold, [⟨20, 16, .pw, true, 0x10⟩, ⟨13, 8, .pw, true, 0x8⟩, ⟨7, 0, .pw, true, 0x2⟩]⟩,
  ⟨"APL.LOCKSTAT", 0x14, 1, 0x4, 0, 8, .cold, [⟨31, 16, .rc, false, 0x0⟩, ⟨15, 0, .ro, false, 0x0⟩]⟩,
  ⟨"APL.RAMP_RATE", 0x18, 1, 0x4, 0, 8, .cold, [⟨15, 0, .pw, false, 0x1388⟩]⟩,
  ⟨"APL.CMD", 0x1C, 1, 0x4, 0, 8, .full, [⟨12, 12, .pw, false, 0x0⟩, ⟨11, 8, .pw, false, 0x0⟩, ⟨3, 0, .pw, false, 0x0⟩]⟩,
  ⟨"APL.CODE", 0x20, 1, 0x4, 0, 8, .full, [⟨7, 0, .ro, false, 0x0⟩]⟩,
  ⟨"APL.GROUP", 0x24, 1, 0x4, 0, 8, .full, [⟨31, 30, .pw, false, 0x0⟩, ⟨27, 0, .pw, false, 0x0⟩]⟩]

/-- The registers of OUT, part 1. -/
def regsOUT1 : List RegDef := [
  ⟨"OUT.CFG", 0x0, 1, 0x4, 0, 28, .full, [⟨31, 30, .ro, false, 0x0⟩, ⟨27, 24, .ro, false, 0x0⟩, ⟨21, 20, .ro, false, 0x0⟩, ⟨16, 16, .ro, false, 0x0⟩, ⟨14, 12, .ro, false, 0x0⟩, ⟨10, 8, .ro, false, 0x0⟩, ⟨0, 0, .ro, false, 0x0⟩]⟩,
  ⟨"OUT.CTRL", 0x4, 1, 0x4, 0, 28, .cold, [⟨5, 4, .rw, false, 0x1⟩, ⟨2, 2, .rw, false, 0x0⟩, ⟨1, 1, .rw, false, 0x1⟩, ⟨0, 0, .rw, false, 0x0⟩]⟩,
  ⟨"OUT.STATUS", 0x8, 1, 0x4, 0, 28, .cold, [⟨31, 30, .ro, false, 0x0⟩, ⟨6, 6, .ro, false, 0x0⟩, ⟨5, 5, .ro, false, 0x0⟩, ⟨4, 4, .ro, false, 0x0⟩, ⟨3, 3, .ro, false, 0x0⟩, ⟨2, 2, .ro, false, 0x0⟩, ⟨1, 1, .ro, false, 0x0⟩, ⟨0, 0, .ro, false, 0x0⟩]⟩,
  ⟨"OUT.EVENT", 0xC, 1, 0x4, 0, 28, .full, [⟨5, 5, .rc, false, 0x0⟩, ⟨4, 4, .rc, false, 0x0⟩, ⟨3, 3, .rc, false, 0x0⟩, ⟨2, 2, .rc, false, 0x0⟩, ⟨1, 1, .rc, false, 0x0⟩, ⟨0, 0, .rc, false, 0x0⟩]⟩,
  ⟨"OUT.CMD", 0x10, 1, 0x4, 0, 28, .full, [⟨2, 2, .wp, false, 0x0⟩, ⟨1, 1, .wp, false, 0x0⟩, ⟨0, 0, .wp, false, 0x0⟩]⟩,
  ⟨"OUT.DIVSTAT", 0x14, 1, 0x4, 0, 28, .cold, [⟨7, 0, .ro, false, 0x0⟩]⟩,
  ⟨"OUT.DIV32", 0x18, 1, 0x4, 0, 28, .cold, [⟨31, 0, .ro, false, 0x0⟩]⟩,
  ⟨"OUT.PHASE", 0x1C, 1, 0x4, 0, 28, .cold, [⟨17, 0, .rw, false, 0x0⟩]⟩,
  ⟨"OUT.PERIOD", 0x20, 1, 0x4, 0, 28, .cold, [⟨31, 0, .rw, false, 0x0⟩]⟩,
  ⟨"OUT.OFFSET", 0x24, 1, 0x4, 0, 28, .cold, [⟨31, 0, .rw, false, 0x0⟩]⟩,
  ⟨"OUT.WIDTH", 0x28, 1, 0x4, 0, 28, .cold, [⟨31, 0, .rw, false, 0x0⟩]⟩,
  ⟨"OUT.ALIGN_TOL", 0x2C, 1, 0x4, 0, 28, .cold, [⟨31, 0, .rw, false, 0x2710⟩]⟩]

/-- The registers of OUT, part 2. -/
def regsOUT2 : List RegDef := [
  ⟨"OUT.PDIFF", 0x30, 1, 0x4, 0, 28, .cold, [⟨31, 0, .ro, false, 0x0⟩]⟩]

/-- The registers of OUT. -/
def regsOUT : List RegDef := regsOUT1 ++ regsOUT2

/-- The registers of TSC, part 1. -/
def regsTSC1 : List RegDef := [
  ⟨"TSC.CFG", 0x0, 1, 0x4, 0, 8, .full, [⟨7, 7, .ro, false, 0x0⟩, ⟨4, 0, .ro, false, 0x0⟩]⟩,
  ⟨"TSC.STATUS", 0x4, 1, 0x4, 0, 8, .cold, [⟨31, 31, .ro, false, 0x0⟩, ⟨4, 4, .ro, false, 0x0⟩, ⟨3, 3, .ro, false, 0x0⟩, ⟨2, 2, .ro, false, 0x0⟩, ⟨0, 0, .ro, false, 0x0⟩]⟩,
  ⟨"TSC.EVENT", 0x8, 1, 0x4, 0, 8, .full, [⟨10, 10, .rc, false, 0x0⟩, ⟨9, 9, .rc, false, 0x0⟩, ⟨8, 8, .rc, false, 0x0⟩, ⟨7, 7, .rc, false, 0x0⟩, ⟨6, 6, .rc, false, 0x0⟩, ⟨5, 5, .rc, false, 0x0⟩, ⟨4, 4, .rc, false, 0x0⟩, ⟨3, 3, .rc, false, 0x0⟩, ⟨2, 2, .rc, false, 0x0⟩, ⟨0, 0, .rc, false, 0x0⟩]⟩,
  ⟨"TSC.CMD", 0xC, 1, 0x4, 0, 8, .full, [⟨3, 0, .wo, false, 0x0⟩]⟩,
  ⟨"TSC.CODE", 0x10, 1, 0x4, 0, 8, .full, [⟨7, 0, .ro, false, 0x0⟩]⟩,
  ⟨"TSC.THRESH32", 0x14, 1, 0x4, 0, 8, .full, [⟨31, 0, .ro, false, 0x0⟩]⟩,
  ⟨"TSC.INC32", 0x18, 1, 0x4, 0, 8, .cold, [⟨31, 0, .ro, false, 0x0⟩]⟩,
  ⟨"TSC.FLOOR", 0x1C, 1, 0x4, 0, 8, .cold, [⟨31, 0, .ro, false, 0x0⟩]⟩,
  ⟨"TSC.REFUSALS", 0x20, 1, 0x4, 0, 8, .cold, [⟨31, 28, .ro, false, 0x0⟩, ⟨27, 16, .rc, false, 0x0⟩, ⟨15, 0, .ro, false, 0x0⟩]⟩,
  ⟨"TSC.ADJ_RATE", 0x24, 1, 0x4, 0, 8, .cold, [⟨31, 0, .rw, false, 0x10C6F8⟩]⟩,
  ⟨"TSC.TOD_CFG", 0x28, 1, 0x4, 0, 8, .cold, [⟨18, 18, .rw, false, 0x0⟩, ⟨17, 17, .rw, false, 0x0⟩, ⟨16, 16, .rw, false, 0x0⟩, ⟨15, 0, .rw, false, 0x25⟩]⟩,
  ⟨"TSC.TOD_QUAL", 0x2C, 1, 0x4, 0, 8, .cold, [⟨15, 8, .rw, false, 0xF8⟩, ⟨7, 0, .rw, false, 0xFE⟩]⟩]

/-- The registers of TSC, part 2. -/
def regsTSC2 : List RegDef := [
  ⟨"TSC.TRACE", 0x30, 1, 0x4, 0, 8, .full, [⟨31, 31, .lk, false, 0x0⟩, ⟨11, 8, .lk, false, 0x4⟩, ⟨4, 0, .lk, false, 0x1F⟩]⟩,
  ⟨"TSC.TODOUT_CTRL", 0x100, 2, 0x10, 0, 8, .cold, [⟨0, 0, .rw, false, 0x1⟩]⟩,
  ⟨"TSC.TODOUT_STAT", 0x104, 2, 0x10, 0, 8, .cold, [⟨31, 16, .rc, false, 0x0⟩, ⟨15, 0, .ro, false, 0x0⟩]⟩]

/-- The registers of TSC. -/
def regsTSC : List RegDef := regsTSC1 ++ regsTSC2

/-- The registers of PRT, part 1. -/
def regsPRT1 : List RegDef := [
  ⟨"PRT.CFG", 0x0, 1, 0x4, 0, 8, .full, [⟨18, 16, .ro, false, 0x0⟩, ⟨10, 8, .ro, false, 0x0⟩, ⟨1, 0, .ro, false, 0x0⟩]⟩,
  ⟨"PRT.CTRL", 0x4, 1, 0x4, 0, 8, .full, [⟨24, 16, .rw, false, 0x32⟩, ⟨9, 8, .rw, false, 0x0⟩, ⟨7, 7, .rw, false, 0x1⟩, ⟨6, 6, .rw, false, 0x0⟩, ⟨5, 5, .rw, false, 0x0⟩, ⟨4, 4, .rw, false, 0x0⟩, ⟨1, 1, .rw, false, 0x0⟩, ⟨0, 0, .rw, false, 0x1⟩]⟩,
  ⟨"PRT.STATUS", 0x8, 1, 0x4, 0, 8, .full, [⟨31, 21, .ro, false, 0x0⟩, ⟨20, 14, .ro, false, 0x0⟩, ⟨13, 11, .ro, false, 0x0⟩, ⟨10, 10, .ro, false, 0x0⟩, ⟨9, 9, .ro, false, 0x0⟩, ⟨8, 8, .ro, false, 0x0⟩, ⟨7, 7, .ro, false, 0x0⟩, ⟨6, 6, .ro, false, 0x0⟩, ⟨5, 5, .ro, false, 0x0⟩, ⟨4, 4, .ro, false, 0x0⟩, ⟨3, 3, .ro, false, 0x0⟩, ⟨2, 2, .ro, false, 0x0⟩, ⟨1, 1, .ro, false, 0x0⟩, ⟨0, 0, .ro, false, 0x0⟩]⟩,
  ⟨"PRT.EVENT", 0xC, 1, 0x4, 0, 8, .full, [⟨13, 13, .rc, false, 0x0⟩, ⟨12, 12, .rc, false, 0x0⟩, ⟨11, 11, .rc, false, 0x0⟩, ⟨10, 10, .rc, false, 0x0⟩, ⟨9, 9, .rc, false, 0x0⟩, ⟨8, 8, .rc, false, 0x0⟩, ⟨7, 7, .rc, false, 0x0⟩, ⟨6, 6, .rc, false, 0x0⟩, ⟨5, 5, .rc, false, 0x0⟩, ⟨4, 4, .rc, false, 0x0⟩, ⟨3, 3, .rc, false, 0x0⟩, ⟨1, 1, .rc, false, 0x0⟩, ⟨0, 0, .rc, false, 0x0⟩]⟩,
  ⟨"PRT.MAC_LO", 0x10, 1, 0x4, 0, 8, .full, [⟨31, 0, .rw, false, 0x0⟩]⟩,
  ⟨"PRT.MAC_HI", 0x14, 1, 0x4, 0, 8, .full, [⟨15, 0, .rw, false, 0x0⟩]⟩,
  ⟨"PRT.MTU", 0x18, 1, 0x4, 0, 8, .full, [⟨13, 0, .rw, false, 0x5F2⟩]⟩,
  ⟨"PRT.TXCLK", 0x1C, 1, 0x4, 0, 8, .full, [⟨2, 0, .rw, false, 0x0⟩]⟩,
  ⟨"PRT.PAUSE", 0x20, 1, 0x4, 0, 8, .full, [⟨31, 31, .rw, false, 0x1⟩, ⟨30, 30, .rw, false, 0x1⟩, ⟨29, 16, .rw, false, 0x7D0⟩, ⟨15, 0, .rw, false, 0xFFFF⟩]⟩,
  ⟨"PRT.WMARK", 0x24, 1, 0x4, 0, 8, .full, [⟨31, 16, .rw, false, 0x0⟩, ⟨15, 0, .rw, false, 0x0⟩]⟩,
  ⟨"PRT.TS_RX", 0x28, 1, 0x4, 0, 8, .full, [⟨31, 0, .rw, false, 0x0⟩]⟩,
  ⟨"PRT.TS_TX", 0x2C, 1, 0x4, 0, 8, .full, [⟨31, 0, .rw, false, 0x0⟩]⟩]

/-- The registers of PRT, part 2. -/
def regsPRT2 : List RegDef := [
  ⟨"PRT.TS_ADJ", 0x30, 1, 0x4, 0, 8, .full, [⟨31, 16, .rw, false, 0x0⟩, ⟨15, 0, .rw, false, 0x0⟩]⟩,
  ⟨"PRT.LOOPCAL", 0x34, 1, 0x4, 0, 8, .full, [⟨31, 0, .ro, false, 0x0⟩]⟩,
  ⟨"PRT.EQ_CTRL", 0x38, 1, 0x4, 0, 8, .full, [⟨31, 31, .rw, true, 0x0⟩, ⟨30, 30, .rw, true, 0x0⟩, ⟨3, 0, .rw, true, 0x8⟩]⟩,
  ⟨"PRT.EQ_STAT", 0x3C, 1, 0x4, 0, 8, .full, [⟨31, 16, .ro, false, 0x0⟩, ⟨3, 0, .ro, false, 0x0⟩]⟩,
  ⟨"PRT.HASH", 0x40, 16, 0x4, 0, 8, .full, [⟨31, 0, .rw, false, 0x0⟩]⟩,
  ⟨"PRT.ESMC", 0x80, 1, 0x4, 0, 8, .full, [⟨31, 31, .rw, false, 0x0⟩, ⟨30, 30, .rw, false, 0x0⟩, ⟨29, 29, .rw, false, 0x0⟩, ⟨20, 16, .rw, false, 0x1F⟩, ⟨7, 4, .rw, false, 0xB⟩, ⟨3, 0, .rw, false, 0xB⟩]⟩,
  ⟨"PRT.WAKE_CTRL", 0x84, 1, 0x4, 0, 8, .full, [⟨10, 8, .rw, false, 0x0⟩, ⟨7, 0, .rw, false, 0x0⟩]⟩,
  ⟨"PRT.WAKE_STAT", 0x88, 1, 0x4, 0, 8, .full, [⟨3, 3, .ro, false, 0x0⟩, ⟨2, 0, .ro, false, 0x0⟩]⟩,
  ⟨"PRT.CMD", 0x8C, 1, 0x4, 0, 8, .full, [⟨4, 4, .wp, false, 0x0⟩, ⟨3, 3, .wp, false, 0x0⟩, ⟨2, 2, .wp, false, 0x0⟩, ⟨1, 1, .wp, false, 0x0⟩, ⟨0, 0, .wp, false, 0x0⟩]⟩,
  ⟨"PRT.CMD_CODE", 0x90, 1, 0x4, 0, 8, .full, [⟨7, 0, .ro, false, 0x0⟩]⟩]

/-- The registers of PRT. -/
def regsPRT : List RegDef := regsPRT1 ++ regsPRT2

/-- The registers of PTE, part 1. -/
def regsPTE1 : List RegDef := [
  ⟨"PTE.CFG", 0x0, 1, 0x4, 0, 8, .full, [⟨2, 0, .ro, false, 0x0⟩]⟩,
  ⟨"PTE.CTRL", 0x4, 1, 0x4, 0, 8, .full, [⟨31, 31, .lk, false, 0x0⟩, ⟨30, 30, .rw, false, 0x0⟩, ⟨29, 22, .rw, false, 0x0⟩, ⟨21, 21, .rw, false, 0x0⟩, ⟨20, 20, .rw, false, 0x0⟩, ⟨19, 18, .rw, false, 0x0⟩, ⟨17, 10, .rw, false, 0x0⟩, ⟨9, 7, .rw, false, 0x0⟩, ⟨6, 5, .rw, false, 0x1⟩]⟩,
  ⟨"PTE.CLOCK_ID_LO", 0x8, 1, 0x4, 0, 8, .full, [⟨31, 0, .lk, false, 0x0⟩]⟩,
  ⟨"PTE.CLOCK_ID_HI", 0xC, 1, 0x4, 0, 8, .full, [⟨31, 0, .lk, false, 0x0⟩]⟩,
  ⟨"PTE.IPV4", 0x10, 1, 0x4, 0, 8, .full, [⟨31, 0, .rw, false, 0x0⟩]⟩,
  ⟨"PTE.IPV6", 0x14, 4, 0x4, 0, 8, .full, [⟨31, 0, .rw, false, 0x0⟩]⟩,
  ⟨"PTE.MC_TAG", 0x24, 1, 0x4, 0, 8, .full, [⟨31, 16, .rw, false, 0x0⟩, ⟨15, 13, .rw, false, 0x0⟩, ⟨11, 0, .rw, false, 0x0⟩]⟩,
  ⟨"PTE.ANN_GM_LO", 0x28, 1, 0x4, 0, 8, .full, [⟨31, 0, .rw, false, 0x0⟩]⟩,
  ⟨"PTE.ANN_GM_HI", 0x2C, 1, 0x4, 0, 8, .full, [⟨31, 0, .rw, false, 0x0⟩]⟩,
  ⟨"PTE.ANN_Q", 0x30, 1, 0x4, 0, 8, .full, [⟨31, 24, .rw, false, 0xF8⟩, ⟨23, 16, .rw, false, 0xFE⟩, ⟨15, 0, .rw, false, 0xFFFF⟩]⟩,
  ⟨"PTE.ANN_P", 0x34, 1, 0x4, 0, 8, .full, [⟨31, 24, .rw, false, 0x80⟩, ⟨23, 16, .rw, false, 0x80⟩, ⟨15, 8, .rw, false, 0x0⟩, ⟨7, 0, .rw, false, 0xA0⟩]⟩,
  ⟨"PTE.STATUS", 0x38, 1, 0x4, 0, 8, .full, [⟨31, 23, .ro, false, 0x0⟩, ⟨22, 10, .ro, false, 0x0⟩, ⟨2, 0, .ro, false, 0x0⟩]⟩]

/-- The registers of PTE, part 2. -/
def regsPTE2 : List RegDef := [
  ⟨"PTE.BEST", 0x3C, 1, 0x4, 0, 8, .full, [⟨31, 0, .ro, false, 0x0⟩]⟩,
  ⟨"PTE.EVENT", 0x40, 1, 0x4, 0, 8, .full, [⟨15, 15, .ro, false, 0x0⟩, ⟨14, 14, .rc, false, 0x0⟩, ⟨13, 13, .rc, false, 0x0⟩, ⟨12, 12, .rc, false, 0x0⟩, ⟨11, 11, .rc, false, 0x0⟩, ⟨10, 10, .rc, false, 0x0⟩, ⟨9, 9, .rc, false, 0x0⟩, ⟨8, 8, .rc, false, 0x0⟩, ⟨7, 7, .rc, false, 0x0⟩, ⟨6, 6, .rc, false, 0x0⟩, ⟨5, 5, .rc, false, 0x0⟩, ⟨4, 4, .rc, false, 0x0⟩, ⟨3, 3, .rc, false, 0x0⟩, ⟨2, 2, .rc, false, 0x0⟩, ⟨0, 0, .rc, false, 0x0⟩]⟩,
  ⟨"PTE.TS_CTRL", 0x44, 1, 0x4, 0, 8, .full, [⟨31, 31, .rw, false, 0x0⟩, ⟨6, 0, .rw, false, 0x1⟩]⟩,
  ⟨"PTE.CORR_CTRL", 0x48, 1, 0x4, 0, 8, .full, [⟨31, 31, .rw, true, 0x0⟩, ⟨4, 0, .rw, false, 0x1F⟩]⟩,
  ⟨"PTE.BMCA", 0x4C, 1, 0x4, 0, 8, .full, [⟨31, 0, .rw, true, 0x0⟩]⟩,
  ⟨"PTE.CORR_W0", 0x50, 1, 0x4, 0, 8, .full, [⟨31, 0, .rw, true, 0xFA⟩]⟩,
  ⟨"PTE.CORR_GROW", 0x54, 1, 0x4, 0, 8, .full, [⟨31, 0, .rw, true, 0x64⟩]⟩,
  ⟨"PTE.CORR_LIM", 0x58, 1, 0x4, 0, 8, .full, [⟨31, 24, .rw, true, 0x3⟩, ⟨15, 0, .rw, true, 0x1F4⟩]⟩,
  ⟨"PTE.CORR_WIN", 0x5C, 1, 0x4, 0, 8, .full, [⟨31, 0, .rw, true, 0x3E8⟩]⟩,
  ⟨"PTE.CORR_DRIFT", 0x60, 1, 0x4, 0, 8, .full, [⟨31, 0, .rw, true, 0x32⟩]⟩,
  ⟨"PTE.CORR_READMIT", 0x64, 1, 0x4, 0, 8, .full, [⟨31, 0, .rw, true, 0x258⟩]⟩,
  ⟨"PTE.CMD", 0x70, 1, 0x4, 0, 8, .full, [⟨4, 4, .wp, false, 0x0⟩, ⟨3, 3, .wp, false, 0x0⟩, ⟨2, 2, .wp, false, 0x0⟩, ⟨1, 1, .wp, false, 0x0⟩, ⟨0, 0, .wp, false, 0x0⟩]⟩]

/-- The registers of PTE, part 3. -/
def regsPTE3 : List RegDef := [
  ⟨"PTE.CMD_HANDLE", 0x74, 1, 0x4, 0, 8, .full, [⟨31, 0, .rw, false, 0x0⟩]⟩,
  ⟨"PTE.CMD_CODE", 0x78, 1, 0x4, 0, 8, .full, [⟨7, 0, .ro, false, 0x0⟩]⟩,
  ⟨"PTE.CNT_A", 0x80, 1, 0x4, 0, 8, .full, [⟨31, 16, .rc, false, 0x0⟩, ⟨15, 0, .rc, false, 0x0⟩]⟩,
  ⟨"PTE.CNT_B", 0x84, 1, 0x4, 0, 8, .full, [⟨31, 16, .rc, false, 0x0⟩, ⟨15, 0, .rc, false, 0x0⟩]⟩,
  ⟨"PTE.CNT_C", 0x88, 1, 0x4, 0, 8, .full, [⟨31, 24, .rc, false, 0x0⟩, ⟨23, 16, .rc, false, 0x0⟩, ⟨15, 0, .rc, false, 0x0⟩]⟩,
  ⟨"PTE.CNT_D", 0x8C, 1, 0x4, 0, 8, .full, [⟨31, 16, .rc, false, 0x0⟩]⟩]

/-- The registers of PTE. -/
def regsPTE : List RegDef := regsPTE1 ++ regsPTE2 ++ regsPTE3

/-- The registers of XLK, part 1. -/
def regsXLK1 : List RegDef := [
  ⟨"XLK.CFG", 0x0, 1, 0x4, 0, 1, .full, [⟨29, 29, .ro, false, 0x0⟩, ⟨28, 28, .ro, false, 0x0⟩, ⟨27, 24, .ro, false, 0x0⟩, ⟨23, 16, .ro, false, 0x0⟩, ⟨15, 0, .ro, false, 0x0⟩]⟩,
  ⟨"XLK.CFG2", 0x4, 1, 0x4, 0, 1, .full, [⟨31, 24, .ro, false, 0x0⟩, ⟨23, 16, .ro, false, 0x0⟩, ⟨15, 11, .ro, false, 0x0⟩, ⟨10, 8, .ro, false, 0x0⟩, ⟨2, 0, .ro, false, 0x0⟩]⟩,
  ⟨"XLK.STATUS", 0x8, 1, 0x4, 0, 1, .full, [⟨31, 30, .ro, false, 0x0⟩, ⟨29, 28, .ro, false, 0x0⟩, ⟨27, 26, .ro, false, 0x0⟩, ⟨23, 16, .ro, false, 0x0⟩, ⟨15, 8, .ro, false, 0x0⟩, ⟨7, 7, .ro, false, 0x0⟩, ⟨6, 6, .ro, false, 0x0⟩, ⟨5, 5, .ro, false, 0x0⟩, ⟨4, 4, .ro, false, 0x0⟩, ⟨3, 3, .ro, false, 0x0⟩, ⟨2, 2, .ro, false, 0x0⟩]⟩,
  ⟨"XLK.EVENT", 0xC, 1, 0x4, 0, 1, .full, [⟨11, 11, .rc, false, 0x0⟩, ⟨10, 10, .rc, false, 0x0⟩, ⟨9, 9, .rc, false, 0x0⟩, ⟨8, 8, .rc, false, 0x0⟩, ⟨7, 7, .rc, false, 0x0⟩, ⟨6, 6, .rc, false, 0x0⟩, ⟨5, 5, .rc, false, 0x0⟩, ⟨4, 4, .rc, false, 0x0⟩, ⟨3, 3, .rc, false, 0x0⟩, ⟨2, 2, .rc, false, 0x0⟩, ⟨1, 1, .rc, false, 0x0⟩, ⟨0, 0, .rc, false, 0x0⟩]⟩,
  ⟨"XLK.CTRL", 0x10, 1, 0x4, 0, 1, .full, [⟨25, 16, .rw, false, 0x0⟩, ⟨1, 1, .rw, false, 0x1⟩, ⟨0, 0, .rw, false, 0x1⟩]⟩,
  ⟨"XLK.CMD", 0x14, 1, 0x4, 0, 1, .full, [⟨3, 3, .wp, false, 0x0⟩, ⟨2, 2, .wp, false, 0x0⟩, ⟨1, 1, .wp, false, 0x0⟩, ⟨0, 0, .wp, false, 0x0⟩]⟩,
  ⟨"XLK.CMD_CODE", 0x18, 1, 0x4, 0, 1, .full, [⟨7, 0, .ro, false, 0x0⟩]⟩,
  ⟨"XLK.ASYM", 0x1C, 1, 0x4, 0, 1, .full, [⟨31, 0, .rw, false, 0x0⟩]⟩,
  ⟨"XLK.DELAY0", 0x20, 1, 0x4, 0, 1, .full, [⟨31, 0, .ro, false, 0x0⟩]⟩,
  ⟨"XLK.DELAY1", 0x24, 1, 0x4, 0, 1, .full, [⟨31, 0, .ro, false, 0x0⟩]⟩,
  ⟨"XLK.OFFSET", 0x28, 1, 0x4, 0, 1, .full, [⟨31, 0, .ro, false, 0x0⟩]⟩,
  ⟨"XLK.CNT", 0x2C, 1, 0x4, 0, 1, .full, [⟨31, 16, .rc, false, 0x0⟩, ⟨15, 8, .rc, false, 0x0⟩, ⟨7, 0, .rc, false, 0x0⟩]⟩]

/-- The registers of XLK, part 2. -/
def regsXLK2 : List RegDef := [
  ⟨"XLK.LANE_TS_RX", 0x40, 2, 0x10, 0, 1, .full, [⟨31, 0, .rw, false, 0x0⟩]⟩,
  ⟨"XLK.LANE_TS_TX", 0x44, 2, 0x10, 0, 1, .full, [⟨31, 0, .rw, false, 0x0⟩]⟩,
  ⟨"XLK.LANE_TS_ADJ", 0x48, 2, 0x10, 0, 1, .full, [⟨31, 16, .rw, false, 0x0⟩, ⟨15, 0, .rw, false, 0x0⟩]⟩,
  ⟨"XLK.LANE_LOOPCAL", 0x4C, 2, 0x10, 0, 1, .full, [⟨31, 0, .ro, false, 0x0⟩]⟩]

/-- The registers of XLK. -/
def regsXLK : List RegDef := regsXLK1 ++ regsXLK2

/-- The registers of MAN, part 1. -/
def regsMAN1 : List RegDef := [
  ⟨"MAN.CFG", 0x0, 1, 0x4, 0, 1, .full, [⟨31, 31, .lk, false, 0x0⟩, ⟨3, 3, .lk, false, 0x0⟩, ⟨2, 0, .lk, false, 0x0⟩]⟩,
  ⟨"MAN.BASE_LO", 0x4, 1, 0x4, 0, 1, .full, [⟨31, 0, .lk, false, 0x0⟩]⟩,
  ⟨"MAN.BASE_HI", 0x8, 1, 0x4, 0, 1, .full, [⟨31, 0, .lk, false, 0x0⟩]⟩,
  ⟨"MAN.PERIOD", 0xC, 1, 0x4, 0, 1, .full, [⟨31, 0, .lk, false, 0xE10⟩]⟩,
  ⟨"MAN.STATUS", 0x10, 1, 0x4, 0, 1, .kept, [⟨31, 31, .ro, false, 0x0⟩, ⟨12, 0, .ro, false, 0x0⟩]⟩,
  ⟨"MAN.NEXT_LO", 0x14, 1, 0x4, 0, 1, .kept, [⟨31, 0, .ro, false, 0x0⟩]⟩,
  ⟨"MAN.NEXT_HI", 0x18, 1, 0x4, 0, 1, .kept, [⟨31, 0, .ro, false, 0x0⟩]⟩,
  ⟨"MAN.SEALED_LO", 0x1C, 1, 0x4, 0, 1, .kept, [⟨31, 0, .ro, false, 0x0⟩]⟩,
  ⟨"MAN.SEALED_HI", 0x20, 1, 0x4, 0, 1, .kept, [⟨31, 0, .ro, false, 0x0⟩]⟩,
  ⟨"MAN.EVENT", 0x24, 1, 0x4, 0, 1, .full, [⟨4, 4, .rc, false, 0x0⟩, ⟨3, 3, .rc, false, 0x0⟩, ⟨2, 2, .rc, false, 0x0⟩, ⟨1, 1, .rc, false, 0x0⟩, ⟨0, 0, .rc, false, 0x0⟩]⟩,
  ⟨"MAN.REGR", 0x28, 1, 0x4, 0, 1, .kept, [⟨31, 16, .ro, false, 0x0⟩, ⟨15, 0, .ro, false, 0x0⟩]⟩,
  ⟨"MAN.EVQ_OVF", 0x2C, 1, 0x4, 0, 1, .full, [⟨31, 0, .rc, false, 0x0⟩]⟩]

/-- The registers of MAN, part 2. -/
def regsMAN2 : List RegDef := [
  ⟨"MAN.MSG_MISS", 0x30, 1, 0x4, 0, 1, .full, [⟨31, 0, .rc, false, 0x0⟩]⟩]

/-- The registers of MAN. -/
def regsMAN : List RegDef := regsMAN1 ++ regsMAN2

/-- The registers of the block at an index of the block map (R583); none where the index is reserved. -/
def blockRegs (b : Nat) : List RegDef :=
  if b = 0x0 then regsTOP
  else if b = 0x1 then regsHOST
  else if b = 0x2 then regsINTR
  else if b = 0x3 then regsFLT
  else if b = 0x4 then regsFAB
  else if b = 0x5 then regsPWR
  else if b = 0x6 then regsSEC
  else if b = 0x7 then regsNV
  else if b = 0x8 then regsFLM
  else if b = 0x9 then regsMEM
  else if b = 0xA then regsEVR
  else if b = 0xB then regsSELG
  else if b = 0xC then regsENG
  else if 0x10 ≤ b ∧ b ≤ 0x2F then regsLND
  else if 0x30 ≤ b ∧ b ≤ 0x3F then regsSEL
  else if 0x40 ≤ b ∧ b ≤ 0x5F then regsLOOP
  else if 0x60 ≤ b ∧ b ≤ 0x67 then regsAPL
  else if 0x68 ≤ b ∧ b ≤ 0x83 then regsOUT
  else if 0x88 ≤ b ∧ b ≤ 0x8F then regsTSC
  else if 0x90 ≤ b ∧ b ≤ 0x97 then regsPRT
  else if 0x98 ≤ b ∧ b ≤ 0x9F then regsPTE
  else if b = 0xA0 then regsXLK
  else if b = 0xA1 then regsMAN
  else []

/-- The first index of the run of blocks that index `b` belongs to (R583). -/
def blockFirst (b : Nat) : Nat :=
  if 0x10 ≤ b ∧ b ≤ 0x2F then 0x10
  else if 0x30 ≤ b ∧ b ≤ 0x3F then 0x30
  else if 0x40 ≤ b ∧ b ≤ 0x5F then 0x40
  else if 0x60 ≤ b ∧ b ≤ 0x67 then 0x60
  else if 0x68 ≤ b ∧ b ≤ 0x83 then 0x68
  else if 0x88 ≤ b ∧ b ≤ 0x8F then 0x88
  else if 0x90 ≤ b ∧ b ≤ 0x97 then 0x90
  else if 0x98 ≤ b ∧ b ≤ 0x9F then 0x98
  else b

end Sys2Proof.Machine
end

