-- ==== Sys2Proof/Machine/RegNames.lean ====
section
/-! DEFINITION. The names of the registers and of their fields: each register's address in register space
(00_scope.md, `address := block_index × 0x1_0000 + offset`; R583), and each field's place in it, from the register
tables of the chapters. Port B's copy of a port-relative register (R588) has the address plus `portBase`. -/

namespace Sys2Proof.Machine

/-- `TOP.ID`, 00. -/
abbrev TOP.ID : Nat := 0x0
abbrev TOP.ID_PART : Fld := ⟨TOP.ID, 31, 16⟩
abbrev TOP.ID_STEP_MAJOR : Fld := ⟨TOP.ID, 15, 12⟩
abbrev TOP.ID_STEP_MINOR : Fld := ⟨TOP.ID, 11, 8⟩
abbrev TOP.ID_GRADE : Fld := ⟨TOP.ID, 7, 4⟩
/-- `PWR.AVS_STATUS`, 02. -/
abbrev PWR.AVS_STATUS : Nat := 0x50000
abbrev PWR.AVS_STATUS_BUSERR : Fld := ⟨PWR.AVS_STATUS, 13, 13⟩
abbrev PWR.AVS_STATUS_DEFICIT : Fld := ⟨PWR.AVS_STATUS, 12, 12⟩
abbrev PWR.AVS_STATUS_LAG : Fld := ⟨PWR.AVS_STATUS, 11, 11⟩
abbrev PWR.AVS_STATUS_REG : Fld := ⟨PWR.AVS_STATUS, 10, 10⟩
abbrev PWR.AVS_STATUS_AT_CEIL : Fld := ⟨PWR.AVS_STATUS, 9, 9⟩
abbrev PWR.AVS_STATUS_AT_FLOOR : Fld := ⟨PWR.AVS_STATUS, 8, 8⟩
abbrev PWR.AVS_STATUS_CODE : Fld := ⟨PWR.AVS_STATUS, 5, 0⟩
/-- `PWR.CANARY`, 02. -/
abbrev PWR.CANARY : Nat := 0x50004
abbrev PWR.CANARY_MIN_LAPS : Fld := ⟨PWR.CANARY, 31, 16⟩
abbrev PWR.CANARY_LAPS : Fld := ⟨PWR.CANARY, 15, 0⟩
/-- `PWR.AVS_CTRL`, 02. -/
abbrev PWR.AVS_CTRL : Nat := 0x50008
abbrev PWR.AVS_CTRL_MANUAL : Fld := ⟨PWR.AVS_CTRL, 16, 16⟩
abbrev PWR.AVS_CTRL_VMAN : Fld := ⟨PWR.AVS_CTRL, 13, 8⟩
abbrev PWR.AVS_CTRL_TRIM : Fld := ⟨PWR.AVS_CTRL, 7, 0⟩
/-- `PWR.AVS_EVENT`, 02. -/
abbrev PWR.AVS_EVENT : Nat := 0x5000C
abbrev PWR.AVS_EVENT_CEIL_SEEN : Fld := ⟨PWR.AVS_EVENT, 3, 3⟩
abbrev PWR.AVS_EVENT_BUSERR_SEEN : Fld := ⟨PWR.AVS_EVENT, 2, 2⟩
abbrev PWR.AVS_EVENT_DEFICIT_SEEN : Fld := ⟨PWR.AVS_EVENT, 1, 1⟩
abbrev PWR.AVS_EVENT_LAG_SEEN : Fld := ⟨PWR.AVS_EVENT, 0, 0⟩
/-- `PWR.AVS_COUNT`, 02. -/
abbrev PWR.AVS_COUNT : Nat := 0x50010
abbrev PWR.AVS_COUNT_DEFICIT_ENTRIES : Fld := ⟨PWR.AVS_COUNT, 31, 16⟩
abbrev PWR.AVS_COUNT_LAG_WINDOWS : Fld := ⟨PWR.AVS_COUNT, 15, 0⟩
/-- `PWR.WHARF_DROP`, 02. -/
abbrev PWR.WHARF_DROP : Nat := 0x50014
abbrev PWR.WHARF_DROP_DROPS : Fld := ⟨PWR.WHARF_DROP, 31, 0⟩
/-- `FAB.SHAPE`, 03. -/
abbrev FAB.SHAPE : Nat := 0x40100
abbrev FAB.SHAPE_PORT_EN : Fld := ⟨FAB.SHAPE, 23, 16⟩
abbrev FAB.SHAPE_XLK_EN : Fld := ⟨FAB.SHAPE, 15, 15⟩
abbrev FAB.SHAPE_TSCS : Fld := ⟨FAB.SHAPE, 14, 11⟩
abbrev FAB.SHAPE_SELS : Fld := ⟨FAB.SHAPE, 10, 6⟩
abbrev FAB.SHAPE_LOOPS : Fld := ⟨FAB.SHAPE, 5, 0⟩
/-- `FAB.QUOTA_A`, 03. -/
abbrev FAB.QUOTA_A : Nat := 0x40104
abbrev FAB.QUOTA_A_UPSTREAM : Fld := ⟨FAB.QUOTA_A, 22, 16⟩
abbrev FAB.QUOTA_A_CLIENT : Fld := ⟨FAB.QUOTA_A, 12, 0⟩
/-- `FAB.QUOTA_B`, 03. -/
abbrev FAB.QUOTA_B : Nat := 0x40108
abbrev FAB.QUOTA_B_MEASURE : Fld := ⟨FAB.QUOTA_B, 21, 16⟩
abbrev FAB.QUOTA_B_EVENT : Fld := ⟨FAB.QUOTA_B, 9, 0⟩
/-- `FAB.HELM[k]`, 03. -/
abbrev FAB.HELM (k : Nat) : Nat := 0x40140 + 0x4 * k
/-- `FAB.PILOT[k]`, 03. -/
abbrev FAB.PILOT (k : Nat) : Nat := 0x40180 + 0x4 * k
/-- `FAB.SPMAP[n]`, 03. -/
abbrev FAB.SPMAP (k : Nat) : Nat := 0x40200 + 0x4 * k
abbrev FAB.SPMAP_KEEP_HI (k : Nat) : Fld := ⟨(FAB.SPMAP k), 31, 31⟩
abbrev FAB.SPMAP_CLASS_HI (k : Nat) : Fld := ⟨(FAB.SPMAP k), 27, 24⟩
abbrev FAB.SPMAP_INST_HI (k : Nat) : Fld := ⟨(FAB.SPMAP k), 23, 16⟩
abbrev FAB.SPMAP_KEEP_LO (k : Nat) : Fld := ⟨(FAB.SPMAP k), 15, 15⟩
abbrev FAB.SPMAP_CLASS_LO (k : Nat) : Fld := ⟨(FAB.SPMAP k), 11, 8⟩
abbrev FAB.SPMAP_INST_LO (k : Nat) : Fld := ⟨(FAB.SPMAP k), 7, 0⟩
/-- `FAB.STATE`, 04. -/
abbrev FAB.STATE : Nat := 0x40000
abbrev FAB.STATE_FAIL_CODE : Fld := ⟨FAB.STATE, 31, 24⟩
abbrev FAB.STATE_ATTEMPTS : Fld := ⟨FAB.STATE, 19, 16⟩
abbrev FAB.STATE_FALLBACK : Fld := ⟨FAB.STATE, 12, 12⟩
abbrev FAB.STATE_SOURCE : Fld := ⟨FAB.STATE, 11, 10⟩
abbrev FAB.STATE_VSLOT : Fld := ⟨FAB.STATE, 9, 8⟩
abbrev FAB.STATE_SLIPWAY : Fld := ⟨FAB.STATE, 6, 4⟩
abbrev FAB.STATE_LOAD : Fld := ⟨FAB.STATE, 1, 0⟩
/-- `FAB.SLOTS`, 04. -/
abbrev FAB.SLOTS : Nat := 0x40004
abbrev FAB.SLOTS_CURRENT : Fld := ⟨FAB.SLOTS, 31, 30⟩
abbrev FAB.SLOTS_PREVIOUS : Fld := ⟨FAB.SLOTS, 29, 28⟩
abbrev FAB.SLOTS_PENDING : Fld := ⟨FAB.SLOTS, 27, 26⟩
abbrev FAB.SLOTS_GOLDEN_ST : Fld := ⟨FAB.SLOTS, 5, 4⟩
abbrev FAB.SLOTS_B_ST : Fld := ⟨FAB.SLOTS, 3, 2⟩
abbrev FAB.SLOTS_A_ST : Fld := ⟨FAB.SLOTS, 1, 0⟩
/-- `FAB.SECVER`, 04. -/
abbrev FAB.SECVER : Nat := 0x40008
abbrev FAB.SECVER_GOLDEN_SV : Fld := ⟨FAB.SECVER, 30, 24⟩
abbrev FAB.SECVER_B_SV : Fld := ⟨FAB.SECVER, 22, 16⟩
abbrev FAB.SECVER_A_SV : Fld := ⟨FAB.SECVER, 14, 8⟩
abbrev FAB.SECVER_FUSES : Fld := ⟨FAB.SECVER, 6, 0⟩
/-- `FAB.CTRL`, 04. -/
abbrev FAB.CTRL : Nat := 0x4000C
abbrev FAB.CTRL_GOLDEN_LOCK : Fld := ⟨FAB.CTRL, 0, 0⟩
/-- `FAB.OP`, 04. -/
abbrev FAB.OP : Nat := 0x40010
abbrev FAB.OP_HANDOVER : Fld := ⟨FAB.OP, 12, 12⟩
abbrev FAB.OP_SLOT : Fld := ⟨FAB.OP, 9, 8⟩
abbrev FAB.OP_OPCODE : Fld := ⟨FAB.OP, 7, 0⟩
/-- `FAB.OP_ARG`, 04. -/
abbrev FAB.OP_ARG : Nat := 0x40014
abbrev FAB.OP_ARG_ARG : Fld := ⟨FAB.OP_ARG, 31, 0⟩
/-- `FAB.OP_STATUS`, 04. -/
abbrev FAB.OP_STATUS : Nat := 0x40018
abbrev FAB.OP_STATUS_BUSY : Fld := ⟨FAB.OP_STATUS, 31, 31⟩
abbrev FAB.OP_STATUS_LAST_OP : Fld := ⟨FAB.OP_STATUS, 15, 8⟩
abbrev FAB.OP_STATUS_CODE : Fld := ⟨FAB.OP_STATUS, 7, 0⟩
/-- `LND.SLICE`, 05. -/
abbrev LND.SLICE (n : Nat) : Nat := 0x100018 + 0x10000 * n
abbrev LND.SLICE_MANUAL (n : Nat) : Fld := ⟨(LND.SLICE n), 31, 31⟩
abbrev LND.SLICE_MAN_THRESH (n : Nat) : Fld := ⟨(LND.SLICE n), 25, 16⟩
/-- `LND.SLICE_STAT`, 05. -/
abbrev LND.SLICE_STAT (n : Nat) : Nat := 0x10001C + 0x10000 * n
abbrev LND.SLICE_STAT_AMP (n : Nat) : Fld := ⟨(LND.SLICE_STAT n), 25, 16⟩
abbrev LND.SLICE_STAT_THRESH (n : Nat) : Fld := ⟨(LND.SLICE_STAT n), 9, 0⟩
/-- `LND.CFG`, 05. -/
abbrev LND.CFG (n : Nat) : Nat := 0x100000 + 0x10000 * n
abbrev LND.CFG_HIST_SP (n : Nat) : Fld := ⟨(LND.CFG n), 23, 16⟩
abbrev LND.CFG_BOUND (n : Nat) : Fld := ⟨(LND.CFG n), 12, 12⟩
abbrev LND.CFG_SLICER (n : Nat) : Fld := ⟨(LND.CFG n), 9, 8⟩
abbrev LND.CFG_TERM (n : Nat) : Fld := ⟨(LND.CFG n), 5, 4⟩
abbrev LND.CFG_FORMAT (n : Nat) : Fld := ⟨(LND.CFG n), 2, 0⟩
/-- `LND.CTRL`, 05. -/
abbrev LND.CTRL (n : Nat) : Nat := 0x100004 + 0x10000 * n
abbrev LND.CTRL_CAL_HOLD (n : Nat) : Fld := ⟨(LND.CTRL n), 31, 31⟩
abbrev LND.CTRL_STOP_N (n : Nat) : Fld := ⟨(LND.CTRL n), 23, 16⟩
abbrev LND.CTRL_PEER (n : Nat) : Fld := ⟨(LND.CTRL n), 12, 8⟩
abbrev LND.CTRL_STOP_SEL (n : Nat) : Fld := ⟨(LND.CTRL n), 4, 4⟩
abbrev LND.CTRL_EDGE (n : Nat) : Fld := ⟨(LND.CTRL n), 2, 2⟩
abbrev LND.CTRL_MODE (n : Nat) : Fld := ⟨(LND.CTRL n), 1, 1⟩
abbrev LND.CTRL_ENABLE (n : Nat) : Fld := ⟨(LND.CTRL n), 0, 0⟩
/-- `LND.NOM_FREQ`, 05. -/
abbrev LND.NOM_FREQ (n : Nat) : Nat := 0x100008 + 0x10000 * n
abbrev LND.NOM_FREQ_HALF_HZ (n : Nat) : Fld := ⟨(LND.NOM_FREQ n), 31, 0⟩
/-- `LND.DECIM`, 05. -/
abbrev LND.DECIM (n : Nat) : Nat := 0x10000C + 0x10000 * n
abbrev LND.DECIM_DIV (n : Nat) : Fld := ⟨(LND.DECIM n), 23, 0⟩
/-- `LND.GATE`, 05. -/
abbrev LND.GATE (n : Nat) : Nat := 0x100010 + 0x10000 * n
abbrev LND.GATE_MS (n : Nat) : Fld := ⟨(LND.GATE n), 19, 0⟩
/-- `LND.ACT`, 05. -/
abbrev LND.ACT (n : Nat) : Nat := 0x100014 + 0x10000 * n
abbrev LND.ACT_HALF (n : Nat) : Fld := ⟨(LND.ACT n), 7, 0⟩
/-- `LND.STATUS`, 05. -/
abbrev LND.STATUS (n : Nat) : Nat := 0x100020 + 0x10000 * n
abbrev LND.STATUS_LAST_TAG (n : Nat) : Fld := ⟨(LND.STATUS n), 31, 30⟩
abbrev LND.STATUS_RES_TAG (n : Nat) : Fld := ⟨(LND.STATUS n), 29, 28⟩
abbrev LND.STATUS_LOW_SWING (n : Nat) : Fld := ⟨(LND.STATUS n), 6, 6⟩
abbrev LND.STATUS_CAL_HELD (n : Nat) : Fld := ⟨(LND.STATUS n), 5, 5⟩
abbrev LND.STATUS_CAL_OK (n : Nat) : Fld := ⟨(LND.STATUS n), 4, 4⟩
abbrev LND.STATUS_RUNNING (n : Nat) : Fld := ⟨(LND.STATUS n), 3, 3⟩
abbrev LND.STATUS_SETTLING (n : Nat) : Fld := ⟨(LND.STATUS n), 2, 2⟩
abbrev LND.STATUS_ACTIVE (n : Nat) : Fld := ⟨(LND.STATUS n), 1, 1⟩
/-- `LND.EVENT`, 05. -/
abbrev LND.EVENT (n : Nat) : Nat := 0x100024 + 0x10000 * n
abbrev LND.EVENT_SLICE_STEP (n : Nat) : Fld := ⟨(LND.EVENT n), 8, 8⟩
abbrev LND.EVENT_RESULT (n : Nat) : Fld := ⟨(LND.EVENT n), 7, 7⟩
abbrev LND.EVENT_ACT_LOST (n : Nat) : Fld := ⟨(LND.EVENT n), 6, 6⟩
abbrev LND.EVENT_ACT_RETURN (n : Nat) : Fld := ⟨(LND.EVENT n), 5, 5⟩
abbrev LND.EVENT_INVALID_CAPTURE (n : Nat) : Fld := ⟨(LND.EVENT n), 4, 4⟩
abbrev LND.EVENT_CAL_FAIL (n : Nat) : Fld := ⟨(LND.EVENT n), 3, 3⟩
abbrev LND.EVENT_OVF (n : Nat) : Fld := ⟨(LND.EVENT n), 2, 2⟩
abbrev LND.EVENT_GATE_MISS (n : Nat) : Fld := ⟨(LND.EVENT n), 1, 1⟩
abbrev LND.EVENT_RATE_DROP (n : Nat) : Fld := ⟨(LND.EVENT n), 0, 0⟩
/-- `LND.FREQ32`, 05. -/
abbrev LND.FREQ32 (n : Nat) : Nat := 0x100028 + 0x10000 * n
abbrev LND.FREQ32_Y (n : Nat) : Fld := ⟨(LND.FREQ32 n), 31, 0⟩
/-- `LND.ERRCNT`, 05. -/
abbrev LND.ERRCNT (n : Nat) : Nat := 0x10002C + 0x10000 * n
abbrev LND.ERRCNT_INVALID (n : Nat) : Fld := ⟨(LND.ERRCNT n), 31, 16⟩
abbrev LND.ERRCNT_CAL_FAIL (n : Nat) : Fld := ⟨(LND.ERRCNT n), 15, 0⟩
/-- `LND.ERRCNT2`, 05. -/
abbrev LND.ERRCNT2 (n : Nat) : Nat := 0x100030 + 0x10000 * n
abbrev LND.ERRCNT2_OVF (n : Nat) : Fld := ⟨(LND.ERRCNT2 n), 31, 24⟩
abbrev LND.ERRCNT2_GATE_MISS (n : Nat) : Fld := ⟨(LND.ERRCNT2 n), 23, 16⟩
abbrev LND.ERRCNT2_RATE_DROP (n : Nat) : Fld := ⟨(LND.ERRCNT2 n), 15, 0⟩
/-- `LND.HIST_PTR`, 05. -/
abbrev LND.HIST_PTR (n : Nat) : Nat := 0x100034 + 0x10000 * n
abbrev LND.HIST_PTR_LAPS (n : Nat) : Fld := ⟨(LND.HIST_PTR n), 31, 16⟩
abbrev LND.HIST_PTR_NEXT (n : Nat) : Fld := ⟨(LND.HIST_PTR n), 14, 0⟩
/-- `LND.CMD`, 05. -/
abbrev LND.CMD (n : Nat) : Nat := 0x100038 + 0x10000 * n
abbrev LND.CMD_ARM (n : Nat) : Fld := ⟨(LND.CMD n), 2, 2⟩
abbrev LND.CMD_FETCH_CAL (n : Nat) : Fld := ⟨(LND.CMD n), 1, 1⟩
abbrev LND.CMD_FETCH_RESULT (n : Nat) : Fld := ⟨(LND.CMD n), 0, 0⟩
/-- `LND.PATH`, 05. -/
abbrev LND.PATH (n : Nat) : Nat := 0x10003C + 0x10000 * n
abbrev LND.PATH_K (n : Nat) : Fld := ⟨(LND.PATH n), 31, 0⟩
/-- `LND.EPOCH`, 05. -/
abbrev LND.EPOCH (n : Nat) : Nat := 0x100040 + 0x10000 * n
abbrev LND.EPOCH_COUNT (n : Nat) : Fld := ⟨(LND.EPOCH n), 19, 0⟩
/-- `LND.OBS`, 05. -/
abbrev LND.OBS (n : Nat) : Nat := 0x100044 + 0x10000 * n
abbrev LND.OBS_OUT (n : Nat) : Fld := ⟨(LND.OBS n), 4, 0⟩
/-- `SEL.CFG`, 06. -/
abbrev SEL.CFG (n : Nat) : Nat := 0x300000 + 0x10000 * n
abbrev SEL.CFG_REV_IMG (n : Nat) : Fld := ⟨(SEL.CFG n), 16, 16⟩
abbrev SEL.CFG_LOOPS (n : Nat) : Fld := ⟨(SEL.CFG n), 13, 8⟩
abbrev SEL.CFG_NCAND (n : Nat) : Fld := ⟨(SEL.CFG n), 4, 0⟩
/-- `SEL.CTRL`, 06. -/
abbrev SEL.CTRL (n : Nat) : Nat := 0x300004 + 0x10000 * n
abbrev SEL.CTRL_WTR (n : Nat) : Fld := ⟨(SEL.CTRL n), 31, 20⟩
abbrev SEL.CTRL_HOLDOFF (n : Nat) : Fld := ⟨(SEL.CTRL n), 15, 4⟩
abbrev SEL.CTRL_QL_MODE (n : Nat) : Fld := ⟨(SEL.CTRL n), 1, 1⟩
abbrev SEL.CTRL_REVERTIVE (n : Nat) : Fld := ⟨(SEL.CTRL n), 0, 0⟩
/-- `SEL.STATUS`, 06. -/
abbrev SEL.STATUS (n : Nat) : Nat := 0x300008 + 0x10000 * n
abbrev SEL.STATUS_CAUSE (n : Nat) : Fld := ⟨(SEL.STATUS n), 31, 28⟩
abbrev SEL.STATUS_WTR_ANY (n : Nat) : Fld := ⟨(SEL.STATUS n), 20, 20⟩
abbrev SEL.STATUS_ACTIVE_RANK (n : Nat) : Fld := ⟨(SEL.STATUS n), 19, 16⟩
abbrev SEL.STATUS_ACTIVE (n : Nat) : Fld := ⟨(SEL.STATUS n), 12, 8⟩
abbrev SEL.STATUS_STATE (n : Nat) : Fld := ⟨(SEL.STATUS n), 2, 0⟩
/-- `SEL.EVENT`, 06. -/
abbrev SEL.EVENT (n : Nat) : Nat := 0x30000C + 0x10000 * n
abbrev SEL.EVENT_FIRST (n : Nat) : Fld := ⟨(SEL.EVENT n), 6, 6⟩
abbrev SEL.EVENT_FORCE_LOST (n : Nat) : Fld := ⟨(SEL.EVENT n), 5, 5⟩
abbrev SEL.EVENT_ACTIVE_RANK (n : Nat) : Fld := ⟨(SEL.EVENT n), 4, 4⟩
abbrev SEL.EVENT_HOLDOVER_OUT (n : Nat) : Fld := ⟨(SEL.EVENT n), 3, 3⟩
abbrev SEL.EVENT_HOLDOVER_IN (n : Nat) : Fld := ⟨(SEL.EVENT n), 2, 2⟩
abbrev SEL.EVENT_HOLDOFF_IN (n : Nat) : Fld := ⟨(SEL.EVENT n), 1, 1⟩
abbrev SEL.EVENT_SWITCH (n : Nat) : Fld := ⟨(SEL.EVENT n), 0, 0⟩
/-- `SEL.QUAL`, 06. -/
abbrev SEL.QUAL (n : Nat) : Nat := 0x300010 + 0x10000 * n
abbrev SEL.QUAL_Q (n : Nat) : Fld := ⟨(SEL.QUAL n), 29, 0⟩
/-- `SEL.CPEND`, 06. -/
abbrev SEL.CPEND (n : Nat) : Nat := 0x300014 + 0x10000 * n
abbrev SEL.CPEND_P (n : Nat) : Fld := ⟨(SEL.CPEND n), 29, 0⟩
/-- `SEL.FORCE`, 06. -/
abbrev SEL.FORCE (n : Nat) : Nat := 0x300018 + 0x10000 * n
abbrev SEL.FORCE_EN (n : Nat) : Fld := ⟨(SEL.FORCE n), 31, 31⟩
abbrev SEL.FORCE_CAND (n : Nat) : Fld := ⟨(SEL.FORCE n), 4, 0⟩
/-- `SEL.CMD`, 06. -/
abbrev SEL.CMD (n : Nat) : Nat := 0x30001C + 0x10000 * n
abbrev SEL.CMD_READMIT (n : Nat) : Fld := ⟨(SEL.CMD n), 8, 8⟩
abbrev SEL.CMD_CAND (n : Nat) : Fld := ⟨(SEL.CMD n), 4, 0⟩
/-- `SEL.CAND[k].CFG`, 06. -/
abbrev SEL.CAND_CFG (n : Nat) (k : Nat) : Nat := 0x300100 + 0x10000 * n + 0x20 * k
abbrev SEL.CAND_CFG_WHO (n : Nat) (k : Nat) : Fld := ⟨(SEL.CAND_CFG n k), 31, 24⟩
abbrev SEL.CAND_CFG_SOURCE (n : Nat) (k : Nat) : Fld := ⟨(SEL.CAND_CFG n k), 22, 20⟩
abbrev SEL.CAND_CFG_QL_OVR (n : Nat) (k : Nat) : Fld := ⟨(SEL.CAND_CFG n k), 19, 16⟩
abbrev SEL.CAND_CFG_OVR_EN (n : Nat) (k : Nat) : Fld := ⟨(SEL.CAND_CFG n k), 15, 15⟩
abbrev SEL.CAND_CFG_QL_HOST (n : Nat) (k : Nat) : Fld := ⟨(SEL.CAND_CFG n k), 11, 8⟩
abbrev SEL.CAND_CFG_PRIORITY (n : Nat) (k : Nat) : Fld := ⟨(SEL.CAND_CFG n k), 7, 0⟩
/-- `SEL.CAND[k].STATE`, 06. -/
abbrev SEL.CAND_STATE (n : Nat) (k : Nat) : Nat := 0x300104 + 0x10000 * n + 0x20 * k
abbrev SEL.CAND_STATE_WTR_LEFT (n : Nat) (k : Nat) : Fld := ⟨(SEL.CAND_STATE n k), 31, 16⟩
abbrev SEL.CAND_STATE_EXCLUDED (n : Nat) (k : Nat) : Fld := ⟨(SEL.CAND_STATE n k), 15, 15⟩
abbrev SEL.CAND_STATE_PLAUS (n : Nat) (k : Nat) : Fld := ⟨(SEL.CAND_STATE n k), 13, 13⟩
abbrev SEL.CAND_STATE_STARVED (n : Nat) (k : Nat) : Fld := ⟨(SEL.CAND_STATE n k), 12, 12⟩
abbrev SEL.CAND_STATE_QL_FAIL (n : Nat) (k : Nat) : Fld := ⟨(SEL.CAND_STATE n k), 11, 11⟩
abbrev SEL.CAND_STATE_JUMP_FAIL (n : Nat) (k : Nat) : Fld := ⟨(SEL.CAND_STATE n k), 10, 10⟩
abbrev SEL.CAND_STATE_FREQ_FAIL (n : Nat) (k : Nat) : Fld := ⟨(SEL.CAND_STATE n k), 9, 9⟩
abbrev SEL.CAND_STATE_ACT_FAIL (n : Nat) (k : Nat) : Fld := ⟨(SEL.CAND_STATE n k), 8, 8⟩
abbrev SEL.CAND_STATE_RANK (n : Nat) (k : Nat) : Fld := ⟨(SEL.CAND_STATE n k), 7, 4⟩
abbrev SEL.CAND_STATE_CSTATE (n : Nat) (k : Nat) : Fld := ⟨(SEL.CAND_STATE n k), 2, 0⟩
/-- `SEL.CAND[k].EVENT`, 06. -/
abbrev SEL.CAND_EVENT (n : Nat) (k : Nat) : Nat := 0x300108 + 0x10000 * n + 0x20 * k
abbrev SEL.CAND_EVENT_RANK_CHANGE (n : Nat) (k : Nat) : Fld := ⟨(SEL.CAND_EVENT n k), 10, 10⟩
abbrev SEL.CAND_EVENT_PLAUS_FAIL (n : Nat) (k : Nat) : Fld := ⟨(SEL.CAND_EVENT n k), 9, 9⟩
abbrev SEL.CAND_EVENT_STARVED (n : Nat) (k : Nat) : Fld := ⟨(SEL.CAND_EVENT n k), 8, 8⟩
abbrev SEL.CAND_EVENT_QL_FAIL (n : Nat) (k : Nat) : Fld := ⟨(SEL.CAND_EVENT n k), 7, 7⟩
abbrev SEL.CAND_EVENT_JUMP_FAIL (n : Nat) (k : Nat) : Fld := ⟨(SEL.CAND_EVENT n k), 6, 6⟩
abbrev SEL.CAND_EVENT_FREQ_FAIL (n : Nat) (k : Nat) : Fld := ⟨(SEL.CAND_EVENT n k), 5, 5⟩
abbrev SEL.CAND_EVENT_ACT_FAIL (n : Nat) (k : Nat) : Fld := ⟨(SEL.CAND_EVENT n k), 4, 4⟩
abbrev SEL.CAND_EVENT_WTR_RESTART (n : Nat) (k : Nat) : Fld := ⟨(SEL.CAND_EVENT n k), 3, 3⟩
abbrev SEL.CAND_EVENT_WTR_START (n : Nat) (k : Nat) : Fld := ⟨(SEL.CAND_EVENT n k), 2, 2⟩
abbrev SEL.CAND_EVENT_QUALIFIED (n : Nat) (k : Nat) : Fld := ⟨(SEL.CAND_EVENT n k), 1, 1⟩
abbrev SEL.CAND_EVENT_FAILED (n : Nat) (k : Nat) : Fld := ⟨(SEL.CAND_EVENT n k), 0, 0⟩
/-- `SEL.CAND[k].FOFF`, 06. -/
abbrev SEL.CAND_FOFF (n : Nat) (k : Nat) : Nat := 0x30010C + 0x10000 * n + 0x20 * k
abbrev SEL.CAND_FOFF_Y (n : Nat) (k : Nat) : Fld := ⟨(SEL.CAND_FOFF n k), 31, 0⟩
/-- `SEL.CAND[k].LIM_OUT`, 06. -/
abbrev SEL.CAND_LIM_OUT (n : Nat) (k : Nat) : Nat := 0x300110 + 0x10000 * n + 0x20 * k
abbrev SEL.CAND_LIM_OUT_OUT (n : Nat) (k : Nat) : Fld := ⟨(SEL.CAND_LIM_OUT n k), 31, 0⟩
/-- `SEL.CAND[k].LIM_IN`, 06. -/
abbrev SEL.CAND_LIM_IN (n : Nat) (k : Nat) : Nat := 0x300114 + 0x10000 * n + 0x20 * k
abbrev SEL.CAND_LIM_IN_IN (n : Nat) (k : Nat) : Fld := ⟨(SEL.CAND_LIM_IN n k), 31, 0⟩
/-- `SEL.CAND[k].LIM_JUMP`, 06. -/
abbrev SEL.CAND_LIM_JUMP (n : Nat) (k : Nat) : Nat := 0x300118 + 0x10000 * n + 0x20 * k
abbrev SEL.CAND_LIM_JUMP_JUMP (n : Nat) (k : Nat) : Fld := ⟨(SEL.CAND_LIM_JUMP n k), 31, 0⟩
/-- `SEL.CAND[k].LIM_PLAUS`, 06. -/
abbrev SEL.CAND_LIM_PLAUS (n : Nat) (k : Nat) : Nat := 0x30011C + 0x10000 * n + 0x20 * k
abbrev SEL.CAND_LIM_PLAUS_FREQ (n : Nat) (k : Nat) : Fld := ⟨(SEL.CAND_LIM_PLAUS n k), 31, 16⟩
abbrev SEL.CAND_LIM_PLAUS_PHASE (n : Nat) (k : Nat) : Fld := ⟨(SEL.CAND_LIM_PLAUS n k), 15, 0⟩
/-- `SELG.STATE_A`, 06. -/
abbrev SELG.STATE_A : Nat := 0xB0000
abbrev SELG.STATE_A_HOLDOVER : Fld := ⟨SELG.STATE_A, 31, 16⟩
abbrev SELG.STATE_A_ACTIVE : Fld := ⟨SELG.STATE_A, 15, 0⟩
/-- `SELG.STATE_B`, 06. -/
abbrev SELG.STATE_B : Nat := 0xB0004
abbrev SELG.STATE_B_FORCED : Fld := ⟨SELG.STATE_B, 31, 16⟩
abbrev SELG.STATE_B_HOLDOFF : Fld := ⟨SELG.STATE_B, 15, 0⟩
/-- `LOOP.CFG`, 07. -/
abbrev LOOP.CFG (n : Nat) : Nat := 0x400000 + 0x10000 * n
abbrev LOOP.CFG_PRESET (n : Nat) : Fld := ⟨(LOOP.CFG n), 31, 28⟩
abbrev LOOP.CFG_INKIND (n : Nat) : Fld := ⟨(LOOP.CFG n), 27, 26⟩
abbrev LOOP.CFG_INIDX (n : Nat) : Fld := ⟨(LOOP.CFG n), 20, 16⟩
abbrev LOOP.CFG_TKIND (n : Nat) : Fld := ⟨(LOOP.CFG n), 9, 8⟩
abbrev LOOP.CFG_TIDX (n : Nat) : Fld := ⟨(LOOP.CFG n), 4, 0⟩
/-- `LOOP.CTRL`, 07. -/
abbrev LOOP.CTRL (n : Nat) : Nat := 0x400004 + 0x10000 * n
abbrev LOOP.CTRL_RAW (n : Nat) : Fld := ⟨(LOOP.CTRL n), 31, 31⟩
abbrev LOOP.CTRL_GEAR_MAN (n : Nat) : Fld := ⟨(LOOP.CTRL n), 30, 30⟩
abbrev LOOP.CTRL_GEAR_AUTO (n : Nat) : Fld := ⟨(LOOP.CTRL n), 0, 0⟩
/-- `LOOP.BW`, 07. -/
abbrev LOOP.BW (n : Nat) : Nat := 0x400008 + 0x10000 * n
abbrev LOOP.BW_UHZ (n : Nat) : Fld := ⟨(LOOP.BW n), 31, 0⟩
/-- `LOOP.SLOPE`, 07. -/
abbrev LOOP.SLOPE (n : Nat) : Nat := 0x40000C + 0x10000 * n
abbrev LOOP.SLOPE_PSPS (n : Nat) : Fld := ⟨(LOOP.SLOPE n), 31, 0⟩
/-- `LOOP.FREE_FREQ`, 07. -/
abbrev LOOP.FREE_FREQ (n : Nat) : Nat := 0x400010 + 0x10000 * n
abbrev LOOP.FREE_FREQ_Y (n : Nat) : Fld := ⟨(LOOP.FREE_FREQ n), 31, 0⟩
/-- `LOOP.STATUS`, 07. -/
abbrev LOOP.STATUS (n : Nat) : Nat := 0x400014 + 0x10000 * n
abbrev LOOP.STATUS_TAG (n : Nat) : Fld := ⟨(LOOP.STATUS n), 31, 30⟩
abbrev LOOP.STATUS_ENGINE (n : Nat) : Fld := ⟨(LOOP.STATUS n), 23, 16⟩
abbrev LOOP.STATUS_GEAR (n : Nat) : Fld := ⟨(LOOP.STATUS n), 11, 9⟩
abbrev LOOP.STATUS_FINAL (n : Nat) : Fld := ⟨(LOOP.STATUS n), 8, 8⟩
abbrev LOOP.STATUS_SLEWING (n : Nat) : Fld := ⟨(LOOP.STATUS n), 7, 7⟩
abbrev LOOP.STATUS_ARMED (n : Nat) : Fld := ⟨(LOOP.STATUS n), 6, 6⟩
abbrev LOOP.STATUS_CLAMP (n : Nat) : Fld := ⟨(LOOP.STATUS n), 5, 5⟩
abbrev LOOP.STATUS_FROZEN (n : Nat) : Fld := ⟨(LOOP.STATUS n), 4, 4⟩
abbrev LOOP.STATUS_STATE (n : Nat) : Fld := ⟨(LOOP.STATUS n), 2, 0⟩
/-- `LOOP.EVENT`, 07. -/
abbrev LOOP.EVENT (n : Nat) : Nat := 0x400018 + 0x10000 * n
abbrev LOOP.EVENT_GEAR_DONE (n : Nat) : Fld := ⟨(LOOP.EVENT n), 13, 13⟩
abbrev LOOP.EVENT_MIGRATED (n : Nat) : Fld := ⟨(LOOP.EVENT n), 12, 12⟩
abbrev LOOP.EVENT_CLAMP (n : Nat) : Fld := ⟨(LOOP.EVENT n), 11, 11⟩
abbrev LOOP.EVENT_SLIP (n : Nat) : Fld := ⟨(LOOP.EVENT n), 10, 10⟩
abbrev LOOP.EVENT_STEP_LOST (n : Nat) : Fld := ⟨(LOOP.EVENT n), 9, 9⟩
abbrev LOOP.EVENT_STEP_REPLACED (n : Nat) : Fld := ⟨(LOOP.EVENT n), 8, 8⟩
abbrev LOOP.EVENT_STEP_EMPTY (n : Nat) : Fld := ⟨(LOOP.EVENT n), 7, 7⟩
abbrev LOOP.EVENT_STEP_DONE (n : Nat) : Fld := ⟨(LOOP.EVENT n), 6, 6⟩
abbrev LOOP.EVENT_SWITCHED (n : Nat) : Fld := ⟨(LOOP.EVENT n), 5, 5⟩
abbrev LOOP.EVENT_FROZEN (n : Nat) : Fld := ⟨(LOOP.EVENT n), 4, 4⟩
abbrev LOOP.EVENT_HOLDOVER_OUT (n : Nat) : Fld := ⟨(LOOP.EVENT n), 3, 3⟩
abbrev LOOP.EVENT_HOLDOVER_IN (n : Nat) : Fld := ⟨(LOOP.EVENT n), 2, 2⟩
abbrev LOOP.EVENT_LOCK_LOST (n : Nat) : Fld := ⟨(LOOP.EVENT n), 1, 1⟩
abbrev LOOP.EVENT_LOCK_GAINED (n : Nat) : Fld := ⟨(LOOP.EVENT n), 0, 0⟩
/-- `LOOP.PHERR`, 07. -/
abbrev LOOP.PHERR (n : Nat) : Nat := 0x40001C + 0x10000 * n
abbrev LOOP.PHERR_PS (n : Nat) : Fld := ⟨(LOOP.PHERR n), 31, 0⟩
/-- `LOOP.FREQ32`, 07. -/
abbrev LOOP.FREQ32 (n : Nat) : Nat := 0x400020 + 0x10000 * n
abbrev LOOP.FREQ32_Y (n : Nat) : Fld := ⟨(LOOP.FREQ32 n), 31, 0⟩
/-- `LOOP.STEP_LEFT`, 07. -/
abbrev LOOP.STEP_LEFT (n : Nat) : Nat := 0x400024 + 0x10000 * n
abbrev LOOP.STEP_LEFT_PS (n : Nat) : Fld := ⟨(LOOP.STEP_LEFT n), 31, 0⟩
/-- `LOOP.BUILDOUT`, 07. -/
abbrev LOOP.BUILDOUT (n : Nat) : Nat := 0x40002C + 0x10000 * n
abbrev LOOP.BUILDOUT_PS (n : Nat) : Fld := ⟨(LOOP.BUILDOUT n), 31, 0⟩
/-- `LOOP.STEPSTAT`, 07. -/
abbrev LOOP.STEPSTAT (n : Nat) : Nat := 0x400028 + 0x10000 * n
abbrev LOOP.STEPSTAT_CODE (n : Nat) : Fld := ⟨(LOOP.STEPSTAT n), 7, 0⟩
/-- `LOOP.CMD`, 07. -/
abbrev LOOP.CMD (n : Nat) : Nat := 0x400030 + 0x10000 * n
abbrev LOOP.CMD_STEP_CANCEL (n : Nat) : Fld := ⟨(LOOP.CMD n), 3, 3⟩
abbrev LOOP.CMD_STEP_GO (n : Nat) : Fld := ⟨(LOOP.CMD n), 2, 2⟩
abbrev LOOP.CMD_STEP_LOAD (n : Nat) : Fld := ⟨(LOOP.CMD n), 1, 1⟩
abbrev LOOP.CMD_FETCH (n : Nat) : Fld := ⟨(LOOP.CMD n), 0, 0⟩
/-- `LOOP.SLIPS`, 07. -/
abbrev LOOP.SLIPS (n : Nat) : Nat := 0x400034 + 0x10000 * n
abbrev LOOP.SLIPS_COUNT (n : Nat) : Fld := ⟨(LOOP.SLIPS n), 15, 0⟩
/-- `LOOP.LOCK_PH`, 07. -/
abbrev LOOP.LOCK_PH (n : Nat) : Nat := 0x400040 + 0x10000 * n
abbrev LOOP.LOCK_PH_PS (n : Nat) : Fld := ⟨(LOOP.LOCK_PH n), 31, 0⟩
/-- `LOOP.LOCK_FR`, 07. -/
abbrev LOOP.LOCK_FR (n : Nat) : Nat := 0x400044 + 0x10000 * n
abbrev LOOP.LOCK_FR_Y (n : Nat) : Fld := ⟨(LOOP.LOCK_FR n), 31, 0⟩
/-- `LOOP.LOCK_DWELL`, 07. -/
abbrev LOOP.LOCK_DWELL (n : Nat) : Nat := 0x400048 + 0x10000 * n
abbrev LOOP.LOCK_DWELL_MS (n : Nat) : Fld := ⟨(LOOP.LOCK_DWELL n), 31, 0⟩
/-- `LOOP.COEF_P`, 07. -/
abbrev LOOP.COEF_P (n : Nat) : Nat := 0x400050 + 0x10000 * n
abbrev LOOP.COEF_P_P (n : Nat) : Fld := ⟨(LOOP.COEF_P n), 31, 0⟩
/-- `LOOP.COEF_I`, 07. -/
abbrev LOOP.COEF_I (n : Nat) : Nat := 0x400054 + 0x10000 * n
abbrev LOOP.COEF_I_I (n : Nat) : Fld := ⟨(LOOP.COEF_I n), 31, 0⟩
/-- `LOOP.DAMP`, 07. -/
abbrev LOOP.DAMP (n : Nat) : Nat := 0x400058 + 0x10000 * n
abbrev LOOP.DAMP_ZETA (n : Nat) : Fld := ⟨(LOOP.DAMP n), 12, 0⟩
/-- `LOOP.GEAR_BW[g]`, 07. -/
abbrev LOOP.GEAR_BW (n : Nat) (k : Nat) : Nat := 0x400080 + 0x10000 * n + 0x8 * k
abbrev LOOP.GEAR_BW_UHZ (n : Nat) (k : Nat) : Fld := ⟨(LOOP.GEAR_BW n k), 31, 0⟩
/-- `LOOP.GEAR_DWELL[g]`, 07. -/
abbrev LOOP.GEAR_DWELL (n : Nat) (k : Nat) : Nat := 0x400084 + 0x10000 * n + 0x8 * k
abbrev LOOP.GEAR_DWELL_MS (n : Nat) (k : Nat) : Fld := ⟨(LOOP.GEAR_DWELL n k), 31, 0⟩
/-- `LOOP.WEIGHT[i]`, 07. -/
abbrev LOOP.WEIGHT (n : Nat) (k : Nat) : Nat := 0x4000C0 + 0x10000 * n + 0x4 * k
abbrev LOOP.WEIGHT_SRC (n : Nat) (k : Nat) : Fld := ⟨(LOOP.WEIGHT n k), 23, 16⟩
abbrev LOOP.WEIGHT_W (n : Nat) (k : Nat) : Fld := ⟨(LOOP.WEIGHT n k), 15, 0⟩
/-- `LOOP.HO_CTRL`, 08. -/
abbrev LOOP.HO_CTRL (n : Nat) : Nat := 0x400100 + 0x10000 * n
abbrev LOOP.HO_CTRL_OVR (n : Nat) : Fld := ⟨(LOOP.HO_CTRL n), 31, 31⟩
abbrev LOOP.HO_CTRL_FIT_HOLD (n : Nat) : Fld := ⟨(LOOP.HO_CTRL n), 30, 30⟩
abbrev LOOP.HO_CTRL_GUARD (n : Nat) : Fld := ⟨(LOOP.HO_CTRL n), 23, 16⟩
abbrev LOOP.HO_CTRL_RANK_MAX (n : Nat) : Fld := ⟨(LOOP.HO_CTRL n), 11, 8⟩
abbrev LOOP.HO_CTRL_TSRC (n : Nat) : Fld := ⟨(LOOP.HO_CTRL n), 1, 0⟩
/-- `LOOP.HO_TEMP`, 08. -/
abbrev LOOP.HO_TEMP (n : Nat) : Nat := 0x400104 + 0x10000 * n
abbrev LOOP.HO_TEMP_T (n : Nat) : Fld := ⟨(LOOP.HO_TEMP n), 15, 0⟩
/-- `LOOP.HO_FRATE`, 08. -/
abbrev LOOP.HO_FRATE (n : Nat) : Nat := 0x400108 + 0x10000 * n
abbrev LOOP.HO_FRATE_RATE (n : Nat) : Fld := ⟨(LOOP.HO_FRATE n), 31, 0⟩
/-- `LOOP.HO_TLAG`, 08. -/
abbrev LOOP.HO_TLAG (n : Nat) : Nat := 0x40010C + 0x10000 * n
abbrev LOOP.HO_TLAG_S (n : Nat) : Fld := ⟨(LOOP.HO_TLAG n), 31, 0⟩
/-- `LOOP.HO_TREF`, 08. -/
abbrev LOOP.HO_TREF (n : Nat) : Nat := 0x400110 + 0x10000 * n
abbrev LOOP.HO_TREF_T (n : Nat) : Fld := ⟨(LOOP.HO_TREF n), 15, 0⟩
/-- `LOOP.HO_WIN`, 08. -/
abbrev LOOP.HO_WIN (n : Nat) : Nat := 0x400114 + 0x10000 * n
abbrev LOOP.HO_WIN_RECS (n : Nat) : Fld := ⟨(LOOP.HO_WIN n), 31, 0⟩
/-- `LOOP.HO_LIMIT`, 08. -/
abbrev LOOP.HO_LIMIT (n : Nat) : Nat := 0x400120 + 0x10000 * n
abbrev LOOP.HO_LIMIT_S (n : Nat) : Fld := ⟨(LOOP.HO_LIMIT n), 31, 0⟩
/-- `LOOP.HO_STAT`, 08. -/
abbrev LOOP.HO_STAT (n : Nat) : Nat := 0x400118 + 0x10000 * n
abbrev LOOP.HO_STAT_MODEL_OK (n : Nat) : Fld := ⟨(LOOP.HO_STAT n), 31, 31⟩
abbrev LOOP.HO_STAT_OVR_ACTIVE (n : Nat) : Fld := ⟨(LOOP.HO_STAT n), 30, 30⟩
abbrev LOOP.HO_STAT_TEMP_STALE (n : Nat) : Fld := ⟨(LOOP.HO_STAT n), 29, 29⟩
abbrev LOOP.HO_STAT_RAMPING (n : Nat) : Fld := ⟨(LOOP.HO_STAT n), 28, 28⟩
abbrev LOOP.HO_STAT_ON_XO (n : Nat) : Fld := ⟨(LOOP.HO_STAT n), 27, 27⟩
abbrev LOOP.HO_STAT_TERMS (n : Nat) : Fld := ⟨(LOOP.HO_STAT n), 26, 22⟩
abbrev LOOP.HO_STAT_NREC (n : Nat) : Fld := ⟨(LOOP.HO_STAT n), 13, 0⟩
/-- `LOOP.HO_ELAPSED`, 08. -/
abbrev LOOP.HO_ELAPSED (n : Nat) : Nat := 0x40011C + 0x10000 * n
abbrev LOOP.HO_ELAPSED_S (n : Nat) : Fld := ⟨(LOOP.HO_ELAPSED n), 31, 0⟩
/-- `LOOP.HIST_PTR`, 08. -/
abbrev LOOP.HIST_PTR (n : Nat) : Nat := 0x400128 + 0x10000 * n
abbrev LOOP.HIST_PTR_LAPS (n : Nat) : Fld := ⟨(LOOP.HIST_PTR n), 31, 16⟩
abbrev LOOP.HIST_PTR_NEXT (n : Nat) : Fld := ⟨(LOOP.HIST_PTR n), 13, 0⟩
/-- `LOOP.HO_EVENT`, 08. -/
abbrev LOOP.HO_EVENT (n : Nat) : Nat := 0x400124 + 0x10000 * n
abbrev LOOP.HO_EVENT_OSC_LOST (n : Nat) : Fld := ⟨(LOOP.HO_EVENT n), 7, 7⟩
abbrev LOOP.HO_EVENT_LOAD_DONE (n : Nat) : Fld := ⟨(LOOP.HO_EVENT n), 6, 6⟩
abbrev LOOP.HO_EVENT_TEMP_STALE (n : Nat) : Fld := ⟨(LOOP.HO_EVENT n), 5, 5⟩
abbrev LOOP.HO_EVENT_LIMIT (n : Nat) : Fld := ⟨(LOOP.HO_EVENT n), 4, 4⟩
abbrev LOOP.HO_EVENT_RAMP_DONE (n : Nat) : Fld := ⟨(LOOP.HO_EVENT n), 3, 3⟩
abbrev LOOP.HO_EVENT_NO_MODEL (n : Nat) : Fld := ⟨(LOOP.HO_EVENT n), 2, 2⟩
abbrev LOOP.HO_EVENT_TERMS_CHANGED (n : Nat) : Fld := ⟨(LOOP.HO_EVENT n), 1, 1⟩
abbrev LOOP.HO_EVENT_MODEL_LOST (n : Nat) : Fld := ⟨(LOOP.HO_EVENT n), 0, 0⟩
/-- `LOOP.HO_CMD`, 08. -/
abbrev LOOP.HO_CMD (n : Nat) : Nat := 0x40012C + 0x10000 * n
abbrev LOOP.HO_CMD_CLEAR_HISTORY (n : Nat) : Fld := ⟨(LOOP.HO_CMD n), 2, 2⟩
abbrev LOOP.HO_CMD_LOAD_MODEL (n : Nat) : Fld := ⟨(LOOP.HO_CMD n), 1, 1⟩
abbrev LOOP.HO_CMD_FETCH_MODEL (n : Nat) : Fld := ⟨(LOOP.HO_CMD n), 0, 0⟩
/-- `LOOP.HO_CODE`, 08. -/
abbrev LOOP.HO_CODE (n : Nat) : Nat := 0x400130 + 0x10000 * n
abbrev LOOP.HO_CODE_CODE (n : Nat) : Fld := ⟨(LOOP.HO_CODE n), 7, 0⟩
/-- `ENG.STATUS`, 09. -/
abbrev ENG.STATUS : Nat := 0xC0000
abbrev ENG.STATUS_LOW : Fld := ⟨ENG.STATUS, 31, 31⟩
abbrev ENG.STATUS_FENCED : Fld := ⟨ENG.STATUS, 29, 24⟩
abbrev ENG.STATUS_RETIRED : Fld := ⟨ENG.STATUS, 21, 16⟩
abbrev ENG.STATUS_BOUND : Fld := ⟨ENG.STATUS, 13, 8⟩
abbrev ENG.STATUS_PONTOONS : Fld := ⟨ENG.STATUS, 5, 0⟩
/-- `ENG.CTRL`, 09. -/
abbrev ENG.CTRL : Nat := 0xC0004
abbrev ENG.CTRL_LAND_WAIT : Fld := ⟨ENG.CTRL, 25, 16⟩
abbrev ENG.CTRL_POOL_LOW : Fld := ⟨ENG.CTRL, 2, 0⟩
/-- `ENG.EVENT`, 09. -/
abbrev ENG.EVENT : Nat := 0xC0008
abbrev ENG.EVENT_SQUELCHED : Fld := ⟨ENG.EVENT, 7, 7⟩
abbrev ENG.EVENT_FERRY : Fld := ⟨ENG.EVENT, 6, 6⟩
abbrev ENG.EVENT_TEST_FAIL : Fld := ⟨ENG.EVENT, 5, 5⟩
abbrev ENG.EVENT_RETURNED : Fld := ⟨ENG.EVENT, 4, 4⟩
abbrev ENG.EVENT_POOL_LOW : Fld := ⟨ENG.EVENT, 3, 3⟩
abbrev ENG.EVENT_NO_PONTOON : Fld := ⟨ENG.EVENT, 2, 2⟩
abbrev ENG.EVENT_FENCED : Fld := ⟨ENG.EVENT, 1, 1⟩
abbrev ENG.EVENT_MIGRATED : Fld := ⟨ENG.EVENT, 0, 0⟩
/-- `ENG.CMD`, 09. -/
abbrev ENG.CMD : Nat := 0xC000C
abbrev ENG.CMD_OP : Fld := ⟨ENG.CMD, 3, 0⟩
/-- `ENG.CMD_ENG`, 09. -/
abbrev ENG.CMD_ENG : Nat := 0xC0010
abbrev ENG.CMD_ENG_HANDLE : Fld := ⟨ENG.CMD_ENG, 31, 0⟩
/-- `ENG.CMD_LOOP`, 09. -/
abbrev ENG.CMD_LOOP : Nat := 0xC0014
abbrev ENG.CMD_LOOP_HANDLE : Fld := ⟨ENG.CMD_LOOP, 31, 0⟩
/-- `ENG.CMD_STATUS`, 09. -/
abbrev ENG.CMD_STATUS : Nat := 0xC0018
abbrev ENG.CMD_STATUS_BUSY : Fld := ⟨ENG.CMD_STATUS, 31, 31⟩
abbrev ENG.CMD_STATUS_LAST_OP : Fld := ⟨ENG.CMD_STATUS, 11, 8⟩
abbrev ENG.CMD_STATUS_CODE : Fld := ⟨ENG.CMD_STATUS, 7, 0⟩
/-- `ENG.FERRY_STAT`, 09. -/
abbrev ENG.FERRY_STAT : Nat := 0xC0020
abbrev ENG.FERRY_STAT_COUNT : Fld := ⟨ENG.FERRY_STAT, 31, 16⟩
abbrev ENG.FERRY_STAT_LIMIT_HIT : Fld := ⟨ENG.FERRY_STAT, 0, 0⟩
/-- `ENG.FERRY_LAST`, 09. -/
abbrev ENG.FERRY_LAST : Nat := 0xC0024
abbrev ENG.FERRY_LAST_MS : Fld := ⟨ENG.FERRY_LAST, 31, 0⟩
/-- `ENG.ENGINE[e]`, 09. -/
abbrev ENG.ENGINE (k : Nat) : Nat := 0xC0100 + 0x4 * k
abbrev ENG.ENGINE_STATE (k : Nat) : Fld := ⟨(ENG.ENGINE k), 31, 28⟩
abbrev ENG.ENGINE_GEN (k : Nat) : Fld := ⟨(ENG.ENGINE k), 27, 16⟩
abbrev ENG.ENGINE_LOOP (k : Nat) : Fld := ⟨(ENG.ENGINE k), 13, 8⟩
abbrev ENG.ENGINE_CAUSE (k : Nat) : Fld := ⟨(ENG.ENGINE k), 7, 4⟩
abbrev ENG.ENGINE_COPYING (k : Nat) : Fld := ⟨(ENG.ENGINE k), 0, 0⟩
/-- `APL.CFG`, 10. -/
abbrev APL.CFG (n : Nat) : Nat := 0x600000 + 0x10000 * n
abbrev APL.CFG_STEERED (n : Nat) : Fld := ⟨(APL.CFG n), 29, 29⟩
abbrev APL.CFG_LOOP (n : Nat) : Fld := ⟨(APL.CFG n), 28, 24⟩
abbrev APL.CFG_PFD_KHZ (n : Nat) : Fld := ⟨(APL.CFG n), 18, 0⟩
/-- `APL.STATUS`, 10. -/
abbrev APL.STATUS (n : Nat) : Nat := 0x600004 + 0x10000 * n
abbrev APL.STATUS_BUSY (n : Nat) : Fld := ⟨(APL.STATUS n), 31, 31⟩
abbrev APL.STATUS_SEG (n : Nat) : Fld := ⟨(APL.STATUS n), 19, 16⟩
abbrev APL.STATUS_BAND (n : Nat) : Fld := ⟨(APL.STATUS n), 13, 8⟩
abbrev APL.STATUS_RAMP_CUT (n : Nat) : Fld := ⟨(APL.STATUS n), 4, 4⟩
abbrev APL.STATUS_RAMP_HOLD (n : Nat) : Fld := ⟨(APL.STATUS n), 3, 3⟩
abbrev APL.STATUS_RAMPING (n : Nat) : Fld := ⟨(APL.STATUS n), 2, 2⟩
abbrev APL.STATUS_CAL (n : Nat) : Fld := ⟨(APL.STATUS n), 1, 1⟩
abbrev APL.STATUS_LOCKED (n : Nat) : Fld := ⟨(APL.STATUS n), 0, 0⟩
/-- `APL.EVENT`, 10. -/
abbrev APL.EVENT (n : Nat) : Nat := 0x600008 + 0x10000 * n
abbrev APL.EVENT_CMD_DONE (n : Nat) : Fld := ⟨(APL.EVENT n), 6, 6⟩
abbrev APL.EVENT_RECAL (n : Nat) : Fld := ⟨(APL.EVENT n), 5, 5⟩
abbrev APL.EVENT_RAMP_HOLD (n : Nat) : Fld := ⟨(APL.EVENT n), 4, 4⟩
abbrev APL.EVENT_RAMP_ABORT (n : Nat) : Fld := ⟨(APL.EVENT n), 3, 3⟩
abbrev APL.EVENT_RAMP_DONE (n : Nat) : Fld := ⟨(APL.EVENT n), 2, 2⟩
abbrev APL.EVENT_LOCK_LOST (n : Nat) : Fld := ⟨(APL.EVENT n), 1, 1⟩
abbrev APL.EVENT_LOCK_GAINED (n : Nat) : Fld := ⟨(APL.EVENT n), 0, 0⟩
/-- `APL.NOM_KHZ`, 10. -/
abbrev APL.NOM_KHZ (n : Nat) : Nat := 0x60000C + 0x10000 * n
abbrev APL.NOM_KHZ_KHZ (n : Nat) : Fld := ⟨(APL.NOM_KHZ n), 31, 0⟩
/-- `APL.LOCKSTAT`, 10. -/
abbrev APL.LOCKSTAT (n : Nat) : Nat := 0x600014 + 0x10000 * n
abbrev APL.LOCKSTAT_LOSSES (n : Nat) : Fld := ⟨(APL.LOCKSTAT n), 31, 16⟩
abbrev APL.LOCKSTAT_DEV (n : Nat) : Fld := ⟨(APL.LOCKSTAT n), 15, 0⟩
/-- `APL.LOCK`, 10. -/
abbrev APL.LOCK (n : Nat) : Nat := 0x600010 + 0x10000 * n
abbrev APL.LOCK_WIN_EXP (n : Nat) : Fld := ⟨(APL.LOCK n), 20, 16⟩
abbrev APL.LOCK_CNT (n : Nat) : Fld := ⟨(APL.LOCK n), 13, 8⟩
abbrev APL.LOCK_TOL (n : Nat) : Fld := ⟨(APL.LOCK n), 7, 0⟩
/-- `APL.RAMP_RATE`, 10. -/
abbrev APL.RAMP_RATE (n : Nat) : Nat := 0x600018 + 0x10000 * n
abbrev APL.RAMP_RATE_KHZ_PER_MS (n : Nat) : Fld := ⟨(APL.RAMP_RATE n), 15, 0⟩
/-- `APL.CMD`, 10. -/
abbrev APL.CMD (n : Nat) : Nat := 0x60001C + 0x10000 * n
abbrev APL.CMD_ARM (n : Nat) : Fld := ⟨(APL.CMD n), 12, 12⟩
abbrev APL.CMD_SEG (n : Nat) : Fld := ⟨(APL.CMD n), 11, 8⟩
abbrev APL.CMD_OP (n : Nat) : Fld := ⟨(APL.CMD n), 3, 0⟩
/-- `APL.CODE`, 10. -/
abbrev APL.CODE (n : Nat) : Nat := 0x600020 + 0x10000 * n
abbrev APL.CODE_CODE (n : Nat) : Fld := ⟨(APL.CODE n), 7, 0⟩
/-- `APL.GROUP`, 10. -/
abbrev APL.GROUP (n : Nat) : Nat := 0x600024 + 0x10000 * n
abbrev APL.GROUP_OP (n : Nat) : Fld := ⟨(APL.GROUP n), 31, 30⟩
abbrev APL.GROUP_MASK (n : Nat) : Fld := ⟨(APL.GROUP n), 27, 0⟩
/-- `OUT.CFG`, 10. -/
abbrev OUT.CFG (n : Nat) : Nat := 0x680000 + 0x10000 * n
abbrev OUT.CFG_KIND (n : Nat) : Fld := ⟨(OUT.CFG n), 31, 30⟩
abbrev OUT.CFG_ANCHOR (n : Nat) : Fld := ⟨(OUT.CFG n), 27, 24⟩
abbrev OUT.CFG_SQUELCH (n : Nat) : Fld := ⟨(OUT.CFG n), 21, 20⟩
abbrev OUT.CFG_VDRV (n : Nat) : Fld := ⟨(OUT.CFG n), 16, 16⟩
abbrev OUT.CFG_SYNTH (n : Nat) : Fld := ⟨(OUT.CFG n), 14, 12⟩
abbrev OUT.CFG_FORMAT (n : Nat) : Fld := ⟨(OUT.CFG n), 10, 8⟩
abbrev OUT.CFG_INIT_EN (n : Nat) : Fld := ⟨(OUT.CFG n), 0, 0⟩
/-- `OUT.CTRL`, 10. -/
abbrev OUT.CTRL (n : Nat) : Nat := 0x680004 + 0x10000 * n
abbrev OUT.CTRL_SWING (n : Nat) : Fld := ⟨(OUT.CTRL n), 5, 4⟩
abbrev OUT.CTRL_INVERT (n : Nat) : Fld := ⟨(OUT.CTRL n), 2, 2⟩
abbrev OUT.CTRL_LOL_SQ (n : Nat) : Fld := ⟨(OUT.CTRL n), 1, 1⟩
abbrev OUT.CTRL_EN (n : Nat) : Fld := ⟨(OUT.CTRL n), 0, 0⟩
/-- `OUT.STATUS`, 10. -/
abbrev OUT.STATUS (n : Nat) : Nat := 0x680008 + 0x10000 * n
abbrev OUT.STATUS_MODE (n : Nat) : Fld := ⟨(OUT.STATUS n), 31, 30⟩
abbrev OUT.STATUS_DIV_PEND (n : Nat) : Fld := ⟨(OUT.STATUS n), 6, 6⟩
abbrev OUT.STATUS_ALIGN_PEND (n : Nat) : Fld := ⟨(OUT.STATUS n), 5, 5⟩
abbrev OUT.STATUS_MISALIGNED (n : Nat) : Fld := ⟨(OUT.STATUS n), 4, 4⟩
abbrev OUT.STATUS_ALIGNED (n : Nat) : Fld := ⟨(OUT.STATUS n), 3, 3⟩
abbrev OUT.STATUS_SQ_LIMIT (n : Nat) : Fld := ⟨(OUT.STATUS n), 2, 2⟩
abbrev OUT.STATUS_SQ_LOL (n : Nat) : Fld := ⟨(OUT.STATUS n), 1, 1⟩
abbrev OUT.STATUS_RUNNING (n : Nat) : Fld := ⟨(OUT.STATUS n), 0, 0⟩
/-- `OUT.EVENT`, 10. -/
abbrev OUT.EVENT (n : Nat) : Nat := 0x68000C + 0x10000 * n
abbrev OUT.EVENT_DIV_DONE (n : Nat) : Fld := ⟨(OUT.EVENT n), 5, 5⟩
abbrev OUT.EVENT_MISALIGNED (n : Nat) : Fld := ⟨(OUT.EVENT n), 4, 4⟩
abbrev OUT.EVENT_REALIGNED (n : Nat) : Fld := ⟨(OUT.EVENT n), 3, 3⟩
abbrev OUT.EVENT_SQUELCH (n : Nat) : Fld := ⟨(OUT.EVENT n), 2, 2⟩
abbrev OUT.EVENT_STOPPED (n : Nat) : Fld := ⟨(OUT.EVENT n), 1, 1⟩
abbrev OUT.EVENT_STARTED (n : Nat) : Fld := ⟨(OUT.EVENT n), 0, 0⟩
/-- `OUT.CMD`, 10. -/
abbrev OUT.CMD (n : Nat) : Nat := 0x680010 + 0x10000 * n
abbrev OUT.CMD_FETCH_DIV (n : Nat) : Fld := ⟨(OUT.CMD n), 2, 2⟩
abbrev OUT.CMD_DIV_LOAD (n : Nat) : Fld := ⟨(OUT.CMD n), 1, 1⟩
abbrev OUT.CMD_ALIGN (n : Nat) : Fld := ⟨(OUT.CMD n), 0, 0⟩
/-- `OUT.DIVSTAT`, 10. -/
abbrev OUT.DIVSTAT (n : Nat) : Nat := 0x680014 + 0x10000 * n
abbrev OUT.DIVSTAT_CODE (n : Nat) : Fld := ⟨(OUT.DIVSTAT n), 7, 0⟩
/-- `OUT.DIV32`, 10. -/
abbrev OUT.DIV32 (n : Nat) : Nat := 0x680018 + 0x10000 * n
abbrev OUT.DIV32_DINT (n : Nat) : Fld := ⟨(OUT.DIV32 n), 31, 0⟩
/-- `OUT.PHASE`, 10. -/
abbrev OUT.PHASE (n : Nat) : Nat := 0x68001C + 0x10000 * n
abbrev OUT.PHASE_DELAY (n : Nat) : Fld := ⟨(OUT.PHASE n), 17, 0⟩
/-- `OUT.PERIOD`, 10. -/
abbrev OUT.PERIOD (n : Nat) : Nat := 0x680020 + 0x10000 * n
abbrev OUT.PERIOD_NS (n : Nat) : Fld := ⟨(OUT.PERIOD n), 31, 0⟩
/-- `OUT.OFFSET`, 10. -/
abbrev OUT.OFFSET (n : Nat) : Nat := 0x680024 + 0x10000 * n
abbrev OUT.OFFSET_PS (n : Nat) : Fld := ⟨(OUT.OFFSET n), 31, 0⟩
/-- `OUT.WIDTH`, 10. -/
abbrev OUT.WIDTH (n : Nat) : Nat := 0x680028 + 0x10000 * n
abbrev OUT.WIDTH_NS (n : Nat) : Fld := ⟨(OUT.WIDTH n), 31, 0⟩
/-- `OUT.ALIGN_TOL`, 10. -/
abbrev OUT.ALIGN_TOL (n : Nat) : Nat := 0x68002C + 0x10000 * n
abbrev OUT.ALIGN_TOL_PS (n : Nat) : Fld := ⟨(OUT.ALIGN_TOL n), 31, 0⟩
/-- `OUT.PDIFF`, 10. -/
abbrev OUT.PDIFF (n : Nat) : Nat := 0x680030 + 0x10000 * n
abbrev OUT.PDIFF_PS (n : Nat) : Fld := ⟨(OUT.PDIFF n), 31, 0⟩
/-- `TSC.CFG`, 11. -/
abbrev TSC.CFG (n : Nat) : Nat := 0x880000 + 0x10000 * n
abbrev TSC.CFG_TIED (n : Nat) : Fld := ⟨(TSC.CFG n), 7, 7⟩
abbrev TSC.CFG_LOOP (n : Nat) : Fld := ⟨(TSC.CFG n), 4, 0⟩
/-- `TSC.STATUS`, 11. -/
abbrev TSC.STATUS (n : Nat) : Nat := 0x880004 + 0x10000 * n
abbrev TSC.STATUS_BUSY (n : Nat) : Fld := ⟨(TSC.STATUS n), 31, 31⟩
abbrev TSC.STATUS_SCHED_PEND (n : Nat) : Fld := ⟨(TSC.STATUS n), 4, 4⟩
abbrev TSC.STATUS_ADJUSTING (n : Nat) : Fld := ⟨(TSC.STATUS n), 3, 3⟩
abbrev TSC.STATUS_TRACEABLE (n : Nat) : Fld := ⟨(TSC.STATUS n), 2, 2⟩
abbrev TSC.STATUS_SET (n : Nat) : Fld := ⟨(TSC.STATUS n), 0, 0⟩
/-- `TSC.EVENT`, 11. -/
abbrev TSC.EVENT (n : Nat) : Nat := 0x880008 + 0x10000 * n
abbrev TSC.EVENT_TOD_OVERRUN (n : Nat) : Fld := ⟨(TSC.EVENT n), 10, 10⟩
abbrev TSC.EVENT_LEAP_DONE (n : Nat) : Fld := ⟨(TSC.EVENT n), 9, 9⟩
abbrev TSC.EVENT_TRACE (n : Nat) : Fld := ⟨(TSC.EVENT n), 8, 8⟩
abbrev TSC.EVENT_SCHED_REPLACED (n : Nat) : Fld := ⟨(TSC.EVENT n), 7, 7⟩
abbrev TSC.EVENT_SCHED_DONE (n : Nat) : Fld := ⟨(TSC.EVENT n), 6, 6⟩
abbrev TSC.EVENT_ADJ_DONE (n : Nat) : Fld := ⟨(TSC.EVENT n), 5, 5⟩
abbrev TSC.EVENT_SET_DONE (n : Nat) : Fld := ⟨(TSC.EVENT n), 4, 4⟩
abbrev TSC.EVENT_STEPPED (n : Nat) : Fld := ⟨(TSC.EVENT n), 3, 3⟩
abbrev TSC.EVENT_REFUSED (n : Nat) : Fld := ⟨(TSC.EVENT n), 2, 2⟩
abbrev TSC.EVENT_SECOND (n : Nat) : Fld := ⟨(TSC.EVENT n), 0, 0⟩
/-- `TSC.CMD`, 11. -/
abbrev TSC.CMD (n : Nat) : Nat := 0x88000C + 0x10000 * n
abbrev TSC.CMD_OP (n : Nat) : Fld := ⟨(TSC.CMD n), 3, 0⟩
/-- `TSC.CODE`, 11. -/
abbrev TSC.CODE (n : Nat) : Nat := 0x880010 + 0x10000 * n
abbrev TSC.CODE_CODE (n : Nat) : Fld := ⟨(TSC.CODE n), 7, 0⟩
/-- `TSC.THRESH32`, 11. -/
abbrev TSC.THRESH32 (n : Nat) : Nat := 0x880014 + 0x10000 * n
abbrev TSC.THRESH32_NS (n : Nat) : Fld := ⟨(TSC.THRESH32 n), 31, 0⟩
/-- `TSC.INC32`, 11. -/
abbrev TSC.INC32 (n : Nat) : Nat := 0x880018 + 0x10000 * n
abbrev TSC.INC32_Y (n : Nat) : Fld := ⟨(TSC.INC32 n), 31, 0⟩
/-- `TSC.FLOOR`, 11. -/
abbrev TSC.FLOOR (n : Nat) : Nat := 0x88001C + 0x10000 * n
abbrev TSC.FLOOR_S (n : Nat) : Fld := ⟨(TSC.FLOOR n), 31, 0⟩
/-- `TSC.REFUSALS`, 11. -/
abbrev TSC.REFUSALS (n : Nat) : Nat := 0x880020 + 0x10000 * n
abbrev TSC.REFUSALS_SOURCE (n : Nat) : Fld := ⟨(TSC.REFUSALS n), 31, 28⟩
abbrev TSC.REFUSALS_COUNT (n : Nat) : Fld := ⟨(TSC.REFUSALS n), 27, 16⟩
abbrev TSC.REFUSALS_LAST_US (n : Nat) : Fld := ⟨(TSC.REFUSALS n), 15, 0⟩
/-- `TSC.ADJ_RATE`, 11. -/
abbrev TSC.ADJ_RATE (n : Nat) : Nat := 0x880024 + 0x10000 * n
abbrev TSC.ADJ_RATE_Y (n : Nat) : Fld := ⟨(TSC.ADJ_RATE n), 31, 0⟩
/-- `TSC.TOD_CFG`, 11. -/
abbrev TSC.TOD_CFG (n : Nat) : Nat := 0x880028 + 0x10000 * n
abbrev TSC.TOD_CFG_UTC_VALID (n : Nat) : Fld := ⟨(TSC.TOD_CFG n), 18, 18⟩
abbrev TSC.TOD_CFG_LEAP59 (n : Nat) : Fld := ⟨(TSC.TOD_CFG n), 17, 17⟩
abbrev TSC.TOD_CFG_LEAP61 (n : Nat) : Fld := ⟨(TSC.TOD_CFG n), 16, 16⟩
abbrev TSC.TOD_CFG_UTC_OFS (n : Nat) : Fld := ⟨(TSC.TOD_CFG n), 15, 0⟩
/-- `TSC.TOD_QUAL`, 11. -/
abbrev TSC.TOD_QUAL (n : Nat) : Nat := 0x88002C + 0x10000 * n
abbrev TSC.TOD_QUAL_CLASS (n : Nat) : Fld := ⟨(TSC.TOD_QUAL n), 15, 8⟩
abbrev TSC.TOD_QUAL_ACCURACY (n : Nat) : Fld := ⟨(TSC.TOD_QUAL n), 7, 0⟩
/-- `TSC.TRACE`, 11. -/
abbrev TSC.TRACE (n : Nat) : Nat := 0x880030 + 0x10000 * n
abbrev TSC.TRACE_LOCK (n : Nat) : Fld := ⟨(TSC.TRACE n), 31, 31⟩
abbrev TSC.TRACE_RANK_MAX (n : Nat) : Fld := ⟨(TSC.TRACE n), 11, 8⟩
abbrev TSC.TRACE_SRC (n : Nat) : Fld := ⟨(TSC.TRACE n), 4, 0⟩
/-- `TSC.TODOUT[k].CTRL`, 11. -/
abbrev TSC.TODOUT_CTRL (n : Nat) (k : Nat) : Nat := 0x880100 + 0x10000 * n + 0x10 * k
abbrev TSC.TODOUT_CTRL_EN (n : Nat) (k : Nat) : Fld := ⟨(TSC.TODOUT_CTRL n k), 0, 0⟩
/-- `TSC.TODOUT[k].STAT`, 11. -/
abbrev TSC.TODOUT_STAT (n : Nat) (k : Nat) : Nat := 0x880104 + 0x10000 * n + 0x10 * k
abbrev TSC.TODOUT_STAT_OVERRUN (n : Nat) (k : Nat) : Fld := ⟨(TSC.TODOUT_STAT n k), 31, 16⟩
abbrev TSC.TODOUT_STAT_SENT (n : Nat) (k : Nat) : Fld := ⟨(TSC.TODOUT_STAT n k), 15, 0⟩
/-- `EVR.EVENT`, 11. -/
abbrev EVR.EVENT : Nat := 0xA0000
abbrev EVR.EVENT_SWEVT_MISS : Fld := ⟨EVR.EVENT, 2, 2⟩
abbrev EVR.EVENT_STALE : Fld := ⟨EVR.EVENT, 1, 1⟩
abbrev EVR.EVENT_MERGE : Fld := ⟨EVR.EVENT, 0, 0⟩
/-- `EVR.MERGE_CNT`, 11. -/
abbrev EVR.MERGE_CNT : Nat := 0xA0004
abbrev EVR.MERGE_CNT_COUNT : Fld := ⟨EVR.MERGE_CNT, 31, 0⟩
/-- `EVR.MERGE_LAST`, 11. -/
abbrev EVR.MERGE_LAST : Nat := 0xA0008
abbrev EVR.MERGE_LAST_BERTH : Fld := ⟨EVR.MERGE_LAST, 13, 13⟩
abbrev EVR.MERGE_LAST_TARGET : Fld := ⟨EVR.MERGE_LAST, 12, 4⟩
abbrev EVR.MERGE_LAST_TASK : Fld := ⟨EVR.MERGE_LAST, 3, 0⟩
/-- `EVR.STALE_CNT`, 11. -/
abbrev EVR.STALE_CNT : Nat := 0xA000C
abbrev EVR.STALE_CNT_COUNT : Fld := ⟨EVR.STALE_CNT, 31, 0⟩
/-- `EVR.SWEVT`, 11. -/
abbrev EVR.SWEVT : Nat := 0xA0010
abbrev EVR.SWEVT_RAISE : Fld := ⟨EVR.SWEVT, 15, 0⟩
/-- `EVR.ROUTE_SRC[r]`, 11. -/
abbrev EVR.ROUTE_SRC (k : Nat) : Nat := 0xA1000 + 0x10 * k
abbrev EVR.ROUTE_SRC_EN (k : Nat) : Fld := ⟨(EVR.ROUTE_SRC k), 31, 31⟩
abbrev EVR.ROUTE_SRC_EVENT (k : Nat) : Fld := ⟨(EVR.ROUTE_SRC k), 11, 0⟩
/-- `EVR.ROUTE_DST[r]`, 11. -/
abbrev EVR.ROUTE_DST (k : Nat) : Nat := 0xA1004 + 0x10 * k
abbrev EVR.ROUTE_DST_BERTH (k : Nat) : Fld := ⟨(EVR.ROUTE_DST k), 12, 12⟩
abbrev EVR.ROUTE_DST_BLOCK (k : Nat) : Fld := ⟨(EVR.ROUTE_DST k), 11, 4⟩
abbrev EVR.ROUTE_DST_TASK (k : Nat) : Fld := ⟨(EVR.ROUTE_DST k), 3, 0⟩
/-- `EVR.ROUTE_ARG[r]`, 11. -/
abbrev EVR.ROUTE_ARG (k : Nat) : Nat := 0xA1008 + 0x10 * k
abbrev EVR.ROUTE_ARG_HANDLE (k : Nat) : Fld := ⟨(EVR.ROUTE_ARG k), 31, 0⟩
/-- `PRT.CFG`, 12. -/
abbrev PRT.CFG (n : Nat) : Nat := 0x900000 + 0x10000 * n
abbrev PRT.CFG_BUFS (n : Nat) : Fld := ⟨(PRT.CFG n), 18, 16⟩
abbrev PRT.CFG_TSC (n : Nat) : Fld := ⟨(PRT.CFG n), 10, 8⟩
abbrev PRT.CFG_MODE (n : Nat) : Fld := ⟨(PRT.CFG n), 1, 0⟩
/-- `PRT.CTRL`, 12. -/
abbrev PRT.CTRL (n : Nat) : Nat := 0x900004 + 0x10000 * n
abbrev PRT.CTRL_HOLD_MS (n : Nat) : Fld := ⟨(PRT.CTRL n), 24, 16⟩
abbrev PRT.CTRL_ADD_FRAG (n : Nat) : Fld := ⟨(PRT.CTRL n), 9, 8⟩
abbrev PRT.CTRL_PREEMPT_EN (n : Nat) : Fld := ⟨(PRT.CTRL n), 7, 7⟩
abbrev PRT.CTRL_EQ_COLD (n : Nat) : Fld := ⟨(PRT.CTRL n), 6, 6⟩
abbrev PRT.CTRL_PROMISC (n : Nat) : Fld := ⟨(PRT.CTRL n), 5, 5⟩
abbrev PRT.CTRL_BCAST_DROP (n : Nat) : Fld := ⟨(PRT.CTRL n), 4, 4⟩
abbrev PRT.CTRL_DORMANT (n : Nat) : Fld := ⟨(PRT.CTRL n), 1, 1⟩
abbrev PRT.CTRL_ADMIN (n : Nat) : Fld := ⟨(PRT.CTRL n), 0, 0⟩
/-- `PRT.STATUS`, 12. -/
abbrev PRT.STATUS (n : Nat) : Nat := 0x900008 + 0x10000 * n
abbrev PRT.STATUS_CTX (n : Nat) : Fld := ⟨(PRT.STATUS n), 31, 21⟩
abbrev PRT.STATUS_TSQ_LEVEL (n : Nat) : Fld := ⟨(PRT.STATUS n), 20, 14⟩
abbrev PRT.STATUS_EQ (n : Nat) : Fld := ⟨(PRT.STATUS n), 13, 11⟩
abbrev PRT.STATUS_SETTLING (n : Nat) : Fld := ⟨(PRT.STATUS n), 10, 10⟩
abbrev PRT.STATUS_PAUSING (n : Nat) : Fld := ⟨(PRT.STATUS n), 9, 9⟩
abbrev PRT.STATUS_PAUSED (n : Nat) : Fld := ⟨(PRT.STATUS n), 8, 8⟩
abbrev PRT.STATUS_PREEMPT (n : Nat) : Fld := ⟨(PRT.STATUS n), 7, 7⟩
abbrev PRT.STATUS_RF (n : Nat) : Fld := ⟨(PRT.STATUS n), 6, 6⟩
abbrev PRT.STATUS_LF (n : Nat) : Fld := ⟨(PRT.STATUS n), 5, 5⟩
abbrev PRT.STATUS_HI_BER (n : Nat) : Fld := ⟨(PRT.STATUS n), 4, 4⟩
abbrev PRT.STATUS_FEC_LOCK (n : Nat) : Fld := ⟨(PRT.STATUS n), 3, 3⟩
abbrev PRT.STATUS_BLOCK_LOCK (n : Nat) : Fld := ⟨(PRT.STATUS n), 2, 2⟩
abbrev PRT.STATUS_DORMANT (n : Nat) : Fld := ⟨(PRT.STATUS n), 1, 1⟩
abbrev PRT.STATUS_LINK (n : Nat) : Fld := ⟨(PRT.STATUS n), 0, 0⟩
/-- `PRT.EVENT`, 12. -/
abbrev PRT.EVENT (n : Nat) : Nat := 0x90000C + 0x10000 * n
abbrev PRT.EVENT_BLOCK_RESET (n : Nat) : Fld := ⟨(PRT.EVENT n), 13, 13⟩
abbrev PRT.EVENT_ESMC_BAD (n : Nat) : Fld := ⟨(PRT.EVENT n), 12, 12⟩
abbrev PRT.EVENT_HI_BER (n : Nat) : Fld := ⟨(PRT.EVENT n), 11, 11⟩
abbrev PRT.EVENT_WAKE (n : Nat) : Fld := ⟨(PRT.EVENT n), 10, 10⟩
abbrev PRT.EVENT_PREEMPT_ON (n : Nat) : Fld := ⟨(PRT.EVENT n), 9, 9⟩
abbrev PRT.EVENT_PREEMPT_OFF (n : Nat) : Fld := ⟨(PRT.EVENT n), 8, 8⟩
abbrev PRT.EVENT_PAUSE_WD (n : Nat) : Fld := ⟨(PRT.EVENT n), 7, 7⟩
abbrev PRT.EVENT_TSQ_OVF (n : Nat) : Fld := ⟨(PRT.EVENT n), 6, 6⟩
abbrev PRT.EVENT_TSQ (n : Nat) : Fld := ⟨(PRT.EVENT n), 5, 5⟩
abbrev PRT.EVENT_EQ_LIMIT (n : Nat) : Fld := ⟨(PRT.EVENT n), 4, 4⟩
abbrev PRT.EVENT_LINK_DOWN (n : Nat) : Fld := ⟨(PRT.EVENT n), 3, 3⟩
abbrev PRT.EVENT_RX_FRAME (n : Nat) : Fld := ⟨(PRT.EVENT n), 1, 1⟩
abbrev PRT.EVENT_LINK_UP (n : Nat) : Fld := ⟨(PRT.EVENT n), 0, 0⟩
/-- `PRT.MAC_LO`, 12. -/
abbrev PRT.MAC_LO (n : Nat) : Nat := 0x900010 + 0x10000 * n
abbrev PRT.MAC_LO_ADDR (n : Nat) : Fld := ⟨(PRT.MAC_LO n), 31, 0⟩
/-- `PRT.MAC_HI`, 12. -/
abbrev PRT.MAC_HI (n : Nat) : Nat := 0x900014 + 0x10000 * n
abbrev PRT.MAC_HI_ADDR (n : Nat) : Fld := ⟨(PRT.MAC_HI n), 15, 0⟩
/-- `PRT.MTU`, 12. -/
abbrev PRT.MTU (n : Nat) : Nat := 0x900018 + 0x10000 * n
abbrev PRT.MTU_OCTETS (n : Nat) : Fld := ⟨(PRT.MTU n), 13, 0⟩
/-- `PRT.TXCLK`, 12. -/
abbrev PRT.TXCLK (n : Nat) : Nat := 0x90001C + 0x10000 * n
abbrev PRT.TXCLK_APL (n : Nat) : Fld := ⟨(PRT.TXCLK n), 2, 0⟩
/-- `PRT.HASH[k]`, 12. -/
abbrev PRT.HASH (n : Nat) (k : Nat) : Nat := 0x900040 + 0x10000 * n + 0x4 * k
abbrev PRT.HASH_BINS (n : Nat) (k : Nat) : Fld := ⟨(PRT.HASH n k), 31, 0⟩
/-- `PRT.PAUSE`, 12. -/
abbrev PRT.PAUSE (n : Nat) : Nat := 0x900020 + 0x10000 * n
abbrev PRT.PAUSE_TX_EN (n : Nat) : Fld := ⟨(PRT.PAUSE n), 31, 31⟩
abbrev PRT.PAUSE_RX_EN (n : Nat) : Fld := ⟨(PRT.PAUSE n), 30, 30⟩
abbrev PRT.PAUSE_WD_US (n : Nat) : Fld := ⟨(PRT.PAUSE n), 29, 16⟩
abbrev PRT.PAUSE_QUANTA (n : Nat) : Fld := ⟨(PRT.PAUSE n), 15, 0⟩
/-- `PRT.WMARK`, 12. -/
abbrev PRT.WMARK (n : Nat) : Nat := 0x900024 + 0x10000 * n
abbrev PRT.WMARK_HIGH (n : Nat) : Fld := ⟨(PRT.WMARK n), 31, 16⟩
abbrev PRT.WMARK_LOW (n : Nat) : Fld := ⟨(PRT.WMARK n), 15, 0⟩
/-- `PRT.TS_RX`, 12. -/
abbrev PRT.TS_RX (n : Nat) : Nat := 0x900028 + 0x10000 * n
abbrev PRT.TS_RX_PS (n : Nat) : Fld := ⟨(PRT.TS_RX n), 31, 0⟩
/-- `PRT.TS_TX`, 12. -/
abbrev PRT.TS_TX (n : Nat) : Nat := 0x90002C + 0x10000 * n
abbrev PRT.TS_TX_PS (n : Nat) : Fld := ⟨(PRT.TS_TX n), 31, 0⟩
/-- `PRT.TS_ADJ`, 12. -/
abbrev PRT.TS_ADJ (n : Nat) : Nat := 0x900030 + 0x10000 * n
abbrev PRT.TS_ADJ_TX_ADJ (n : Nat) : Fld := ⟨(PRT.TS_ADJ n), 31, 16⟩
abbrev PRT.TS_ADJ_RX_ADJ (n : Nat) : Fld := ⟨(PRT.TS_ADJ n), 15, 0⟩
/-- `PRT.LOOPCAL`, 12. -/
abbrev PRT.LOOPCAL (n : Nat) : Nat := 0x900034 + 0x10000 * n
abbrev PRT.LOOPCAL_DIFF (n : Nat) : Fld := ⟨(PRT.LOOPCAL n), 31, 0⟩
/-- `PRT.EQ_CTRL`, 12. -/
abbrev PRT.EQ_CTRL (n : Nat) : Nat := 0x900038 + 0x10000 * n
abbrev PRT.EQ_CTRL_FREEZE (n : Nat) : Fld := ⟨(PRT.EQ_CTRL n), 31, 31⟩
abbrev PRT.EQ_CTRL_MANUAL (n : Nat) : Fld := ⟨(PRT.EQ_CTRL n), 30, 30⟩
abbrev PRT.EQ_CTRL_CTLE (n : Nat) : Fld := ⟨(PRT.EQ_CTRL n), 3, 0⟩
/-- `PRT.EQ_STAT`, 12. -/
abbrev PRT.EQ_STAT (n : Nat) : Nat := 0x90003C + 0x10000 * n
abbrev PRT.EQ_STAT_EYE_MV (n : Nat) : Fld := ⟨(PRT.EQ_STAT n), 31, 16⟩
abbrev PRT.EQ_STAT_CTLE (n : Nat) : Fld := ⟨(PRT.EQ_STAT n), 3, 0⟩
/-- `PRT.ESMC`, 12. -/
abbrev PRT.ESMC (n : Nat) : Nat := 0x900080 + 0x10000 * n
abbrev PRT.ESMC_TX_EN (n : Nat) : Fld := ⟨(PRT.ESMC n), 31, 31⟩
abbrev PRT.ESMC_ETLV (n : Nat) : Fld := ⟨(PRT.ESMC n), 30, 30⟩
abbrev PRT.ESMC_OPT (n : Nat) : Fld := ⟨(PRT.ESMC n), 29, 29⟩
abbrev PRT.ESMC_SEL (n : Nat) : Fld := ⟨(PRT.ESMC n), 20, 16⟩
abbrev PRT.ESMC_HO_QL (n : Nat) : Fld := ⟨(PRT.ESMC n), 7, 4⟩
abbrev PRT.ESMC_FREE_QL (n : Nat) : Fld := ⟨(PRT.ESMC n), 3, 0⟩
/-- `PRT.WAKE_CTRL`, 12. -/
abbrev PRT.WAKE_CTRL (n : Nat) : Nat := 0x900084 + 0x10000 * n
abbrev PRT.WAKE_CTRL_SLOT (n : Nat) : Fld := ⟨(PRT.WAKE_CTRL n), 10, 8⟩
abbrev PRT.WAKE_CTRL_EN (n : Nat) : Fld := ⟨(PRT.WAKE_CTRL n), 7, 0⟩
/-- `PRT.WAKE_STAT`, 12. -/
abbrev PRT.WAKE_STAT (n : Nat) : Nat := 0x900088 + 0x10000 * n
abbrev PRT.WAKE_STAT_VALID (n : Nat) : Fld := ⟨(PRT.WAKE_STAT n), 3, 3⟩
abbrev PRT.WAKE_STAT_PATTERN (n : Nat) : Fld := ⟨(PRT.WAKE_STAT n), 2, 0⟩
/-- `PRT.CMD`, 12. -/
abbrev PRT.CMD (n : Nat) : Nat := 0x90008C + 0x10000 * n
abbrev PRT.CMD_LOOPCAL (n : Nat) : Fld := ⟨(PRT.CMD n), 4, 4⟩
abbrev PRT.CMD_WAKE_LOAD (n : Nat) : Fld := ⟨(PRT.CMD n), 3, 3⟩
abbrev PRT.CMD_TSQ_POP (n : Nat) : Fld := ⟨(PRT.CMD n), 2, 2⟩
abbrev PRT.CMD_PEEK_STATS (n : Nat) : Fld := ⟨(PRT.CMD n), 1, 1⟩
abbrev PRT.CMD_FETCH_STATS (n : Nat) : Fld := ⟨(PRT.CMD n), 0, 0⟩
/-- `PRT.CMD_CODE`, 12. -/
abbrev PRT.CMD_CODE (n : Nat) : Nat := 0x900090 + 0x10000 * n
abbrev PRT.CMD_CODE_CODE (n : Nat) : Fld := ⟨(PRT.CMD_CODE n), 7, 0⟩
/-- `PTE.CFG`, 13. -/
abbrev PTE.CFG (n : Nat) : Nat := 0x980000 + 0x10000 * n
abbrev PTE.CFG_TSC (n : Nat) : Fld := ⟨(PTE.CFG n), 2, 0⟩
/-- `PTE.CTRL`, 13. -/
abbrev PTE.CTRL (n : Nat) : Nat := 0x980004 + 0x10000 * n
abbrev PTE.CTRL_ID_LOCK (n : Nat) : Fld := ⟨(PTE.CTRL n), 31, 31⟩
abbrev PTE.CTRL_MC_AUTH (n : Nat) : Fld := ⟨(PTE.CTRL n), 30, 30⟩
abbrev PTE.CTRL_MC_SPP (n : Nat) : Fld := ⟨(PTE.CTRL n), 29, 22⟩
abbrev PTE.CTRL_NONFWD (n : Nat) : Fld := ⟨(PTE.CTRL n), 21, 21⟩
abbrev PTE.CTRL_ONE_STEP (n : Nat) : Fld := ⟨(PTE.CTRL n), 20, 20⟩
abbrev PTE.CTRL_TRANSPORT (n : Nat) : Fld := ⟨(PTE.CTRL n), 19, 18⟩
abbrev PTE.CTRL_DOMAIN (n : Nat) : Fld := ⟨(PTE.CTRL n), 17, 10⟩
abbrev PTE.CTRL_ROLE (n : Nat) : Fld := ⟨(PTE.CTRL n), 9, 7⟩
abbrev PTE.CTRL_PROFILE (n : Nat) : Fld := ⟨(PTE.CTRL n), 6, 5⟩
/-- `PTE.CLOCK_ID_LO`, 13. -/
abbrev PTE.CLOCK_ID_LO (n : Nat) : Nat := 0x980008 + 0x10000 * n
abbrev PTE.CLOCK_ID_LO_ID (n : Nat) : Fld := ⟨(PTE.CLOCK_ID_LO n), 31, 0⟩
/-- `PTE.CLOCK_ID_HI`, 13. -/
abbrev PTE.CLOCK_ID_HI (n : Nat) : Nat := 0x98000C + 0x10000 * n
abbrev PTE.CLOCK_ID_HI_ID (n : Nat) : Fld := ⟨(PTE.CLOCK_ID_HI n), 31, 0⟩
/-- `PTE.IPV4`, 13. -/
abbrev PTE.IPV4 (n : Nat) : Nat := 0x980010 + 0x10000 * n
abbrev PTE.IPV4_ADDR (n : Nat) : Fld := ⟨(PTE.IPV4 n), 31, 0⟩
/-- `PTE.IPV6[k]`, 13. -/
abbrev PTE.IPV6 (n : Nat) (k : Nat) : Nat := 0x980014 + 0x10000 * n + 0x4 * k
abbrev PTE.IPV6_ADDR (n : Nat) (k : Nat) : Fld := ⟨(PTE.IPV6 n k), 31, 0⟩
/-- `PTE.MC_TAG`, 13. -/
abbrev PTE.MC_TAG (n : Nat) : Nat := 0x980024 + 0x10000 * n
abbrev PTE.MC_TAG_TPID (n : Nat) : Fld := ⟨(PTE.MC_TAG n), 31, 16⟩
abbrev PTE.MC_TAG_PCP (n : Nat) : Fld := ⟨(PTE.MC_TAG n), 15, 13⟩
abbrev PTE.MC_TAG_VID (n : Nat) : Fld := ⟨(PTE.MC_TAG n), 11, 0⟩
/-- `PTE.ANN_GM_LO`, 13. -/
abbrev PTE.ANN_GM_LO (n : Nat) : Nat := 0x980028 + 0x10000 * n
abbrev PTE.ANN_GM_LO_ID (n : Nat) : Fld := ⟨(PTE.ANN_GM_LO n), 31, 0⟩
/-- `PTE.ANN_GM_HI`, 13. -/
abbrev PTE.ANN_GM_HI (n : Nat) : Nat := 0x98002C + 0x10000 * n
abbrev PTE.ANN_GM_HI_ID (n : Nat) : Fld := ⟨(PTE.ANN_GM_HI n), 31, 0⟩
/-- `PTE.ANN_Q`, 13. -/
abbrev PTE.ANN_Q (n : Nat) : Nat := 0x980030 + 0x10000 * n
abbrev PTE.ANN_Q_CLASS (n : Nat) : Fld := ⟨(PTE.ANN_Q n), 31, 24⟩
abbrev PTE.ANN_Q_ACCURACY (n : Nat) : Fld := ⟨(PTE.ANN_Q n), 23, 16⟩
abbrev PTE.ANN_Q_VARIANCE (n : Nat) : Fld := ⟨(PTE.ANN_Q n), 15, 0⟩
/-- `PTE.ANN_P`, 13. -/
abbrev PTE.ANN_P (n : Nat) : Nat := 0x980034 + 0x10000 * n
abbrev PTE.ANN_P_PRIO1 (n : Nat) : Fld := ⟨(PTE.ANN_P n), 31, 24⟩
abbrev PTE.ANN_P_PRIO2 (n : Nat) : Fld := ⟨(PTE.ANN_P n), 23, 16⟩
abbrev PTE.ANN_P_STEPS (n : Nat) : Fld := ⟨(PTE.ANN_P n), 15, 8⟩
abbrev PTE.ANN_P_SOURCE (n : Nat) : Fld := ⟨(PTE.ANN_P n), 7, 0⟩
/-- `PTE.STATUS`, 13. -/
abbrev PTE.STATUS (n : Nat) : Nat := 0x980038 + 0x10000 * n
abbrev PTE.STATUS_ADMITQ (n : Nat) : Fld := ⟨(PTE.STATUS n), 31, 23⟩
abbrev PTE.STATUS_CLIENTS (n : Nat) : Fld := ⟨(PTE.STATUS n), 22, 10⟩
abbrev PTE.STATUS_REC_ROLE (n : Nat) : Fld := ⟨(PTE.STATUS n), 2, 0⟩
/-- `PTE.BEST`, 13. -/
abbrev PTE.BEST (n : Nat) : Nat := 0x98003C + 0x10000 * n
abbrev PTE.BEST_HANDLE (n : Nat) : Fld := ⟨(PTE.BEST n), 31, 0⟩
/-- `PTE.EVENT`, 13. -/
abbrev PTE.EVENT (n : Nat) : Nat := 0x980040 + 0x10000 * n
abbrev PTE.EVENT_DISAGREE_ANY (n : Nat) : Fld := ⟨(PTE.EVENT n), 15, 15⟩
abbrev PTE.EVENT_ASYM_DONE (n : Nat) : Fld := ⟨(PTE.EVENT n), 14, 14⟩
abbrev PTE.EVENT_ADMIT_OVF (n : Nat) : Fld := ⟨(PTE.EVENT n), 13, 13⟩
abbrev PTE.EVENT_ANN_TIMEOUT (n : Nat) : Fld := ⟨(PTE.EVENT n), 12, 12⟩
abbrev PTE.EVENT_GRANT_EXPIRED (n : Nat) : Fld := ⟨(PTE.EVENT n), 11, 11⟩
abbrev PTE.EVENT_GRANT_DENIED (n : Nat) : Fld := ⟨(PTE.EVENT n), 10, 10⟩
abbrev PTE.EVENT_DRESP_LOST (n : Nat) : Fld := ⟨(PTE.EVENT n), 9, 9⟩
abbrev PTE.EVENT_FU_ORPHAN (n : Nat) : Fld := ⟨(PTE.EVENT n), 8, 8⟩
abbrev PTE.EVENT_FU_LOST (n : Nat) : Fld := ⟨(PTE.EVENT n), 7, 7⟩
abbrev PTE.EVENT_ADMIT (n : Nat) : Fld := ⟨(PTE.EVENT n), 6, 6⟩
abbrev PTE.EVENT_AUTH (n : Nat) : Fld := ⟨(PTE.EVENT n), 5, 5⟩
abbrev PTE.EVENT_DISAGREE (n : Nat) : Fld := ⟨(PTE.EVENT n), 4, 4⟩
abbrev PTE.EVENT_PROMOTED (n : Nat) : Fld := ⟨(PTE.EVENT n), 3, 3⟩
abbrev PTE.EVENT_DEMOTED (n : Nat) : Fld := ⟨(PTE.EVENT n), 2, 2⟩
abbrev PTE.EVENT_BEST (n : Nat) : Fld := ⟨(PTE.EVENT n), 0, 0⟩
/-- `PTE.TS_CTRL`, 13. -/
abbrev PTE.TS_CTRL (n : Nat) : Nat := 0x980044 + 0x10000 * n
abbrev PTE.TS_CTRL_EN (n : Nat) : Fld := ⟨(PTE.TS_CTRL n), 31, 31⟩
abbrev PTE.TS_CTRL_PERIOD (n : Nat) : Fld := ⟨(PTE.TS_CTRL n), 6, 0⟩
/-- `PTE.CORR_CTRL`, 13. -/
abbrev PTE.CORR_CTRL (n : Nat) : Nat := 0x980048 + 0x10000 * n
abbrev PTE.CORR_CTRL_OFF (n : Nat) : Fld := ⟨(PTE.CORR_CTRL n), 31, 31⟩
abbrev PTE.CORR_CTRL_LOOP (n : Nat) : Fld := ⟨(PTE.CORR_CTRL n), 4, 0⟩
/-- `PTE.BMCA`, 13. -/
abbrev PTE.BMCA (n : Nat) : Nat := 0x98004C + 0x10000 * n
abbrev PTE.BMCA_FORCE (n : Nat) : Fld := ⟨(PTE.BMCA n), 31, 0⟩
/-- `PTE.CORR_W0`, 13. -/
abbrev PTE.CORR_W0 (n : Nat) : Nat := 0x980050 + 0x10000 * n
abbrev PTE.CORR_W0_NS (n : Nat) : Fld := ⟨(PTE.CORR_W0 n), 31, 0⟩
/-- `PTE.CORR_GROW`, 13. -/
abbrev PTE.CORR_GROW (n : Nat) : Nat := 0x980054 + 0x10000 * n
abbrev PTE.CORR_GROW_PSPS (n : Nat) : Fld := ⟨(PTE.CORR_GROW n), 31, 0⟩
/-- `PTE.CORR_LIM`, 13. -/
abbrev PTE.CORR_LIM (n : Nat) : Nat := 0x980058 + 0x10000 * n
abbrev PTE.CORR_LIM_OUT_N (n : Nat) : Fld := ⟨(PTE.CORR_LIM n), 31, 24⟩
abbrev PTE.CORR_LIM_CROSS (n : Nat) : Fld := ⟨(PTE.CORR_LIM n), 15, 0⟩
/-- `PTE.CORR_WIN`, 13. -/
abbrev PTE.CORR_WIN (n : Nat) : Nat := 0x98005C + 0x10000 * n
abbrev PTE.CORR_WIN_S (n : Nat) : Fld := ⟨(PTE.CORR_WIN n), 31, 0⟩
/-- `PTE.CORR_DRIFT`, 13. -/
abbrev PTE.CORR_DRIFT (n : Nat) : Nat := 0x980060 + 0x10000 * n
abbrev PTE.CORR_DRIFT_NS (n : Nat) : Fld := ⟨(PTE.CORR_DRIFT n), 31, 0⟩
/-- `PTE.CORR_READMIT`, 13. -/
abbrev PTE.CORR_READMIT (n : Nat) : Nat := 0x980064 + 0x10000 * n
abbrev PTE.CORR_READMIT_S (n : Nat) : Fld := ⟨(PTE.CORR_READMIT n), 31, 0⟩
/-- `PTE.CMD`, 13. -/
abbrev PTE.CMD (n : Nat) : Nat := 0x980070 + 0x10000 * n
abbrev PTE.CMD_ASYM_CLEAR (n : Nat) : Fld := ⟨(PTE.CMD n), 4, 4⟩
abbrev PTE.CMD_ASYM_LOAD (n : Nat) : Fld := ⟨(PTE.CMD n), 3, 3⟩
abbrev PTE.CMD_PROMOTE (n : Nat) : Fld := ⟨(PTE.CMD n), 2, 2⟩
abbrev PTE.CMD_FETCH_DATASET (n : Nat) : Fld := ⟨(PTE.CMD n), 1, 1⟩
abbrev PTE.CMD_ADMIT_POP (n : Nat) : Fld := ⟨(PTE.CMD n), 0, 0⟩
/-- `PTE.CMD_HANDLE`, 13. -/
abbrev PTE.CMD_HANDLE (n : Nat) : Nat := 0x980074 + 0x10000 * n
abbrev PTE.CMD_HANDLE_HANDLE (n : Nat) : Fld := ⟨(PTE.CMD_HANDLE n), 31, 0⟩
/-- `PTE.CMD_CODE`, 13. -/
abbrev PTE.CMD_CODE (n : Nat) : Nat := 0x980078 + 0x10000 * n
abbrev PTE.CMD_CODE_CODE (n : Nat) : Fld := ⟨(PTE.CMD_CODE n), 7, 0⟩
/-- `PTE.CNT_A`, 13. -/
abbrev PTE.CNT_A (n : Nat) : Nat := 0x980080 + 0x10000 * n
abbrev PTE.CNT_A_AUTH_FAIL (n : Nat) : Fld := ⟨(PTE.CNT_A n), 31, 16⟩
abbrev PTE.CNT_A_REPLAY (n : Nat) : Fld := ⟨(PTE.CNT_A n), 15, 0⟩
/-- `PTE.CNT_B`, 13. -/
abbrev PTE.CNT_B (n : Nat) : Nat := 0x980084 + 0x10000 * n
abbrev PTE.CNT_B_FU_LOST (n : Nat) : Fld := ⟨(PTE.CNT_B n), 31, 16⟩
abbrev PTE.CNT_B_FU_ORPHAN (n : Nat) : Fld := ⟨(PTE.CNT_B n), 15, 0⟩
/-- `PTE.CNT_C`, 13. -/
abbrev PTE.CNT_C (n : Nat) : Nat := 0x980088 + 0x10000 * n
abbrev PTE.CNT_C_AUTH_MISSING (n : Nat) : Fld := ⟨(PTE.CNT_C n), 31, 24⟩
abbrev PTE.CNT_C_ADMIT_OVF (n : Nat) : Fld := ⟨(PTE.CNT_C n), 23, 16⟩
abbrev PTE.CNT_C_DISCARD (n : Nat) : Fld := ⟨(PTE.CNT_C n), 15, 0⟩
/-- `PTE.CNT_D`, 13. -/
abbrev PTE.CNT_D (n : Nat) : Nat := 0x98008C + 0x10000 * n
abbrev PTE.CNT_D_DRESP_LOST (n : Nat) : Fld := ⟨(PTE.CNT_D n), 31, 16⟩
/-- `MAN.CFG`, 14. -/
abbrev MAN.CFG : Nat := 0xA10000
abbrev MAN.CFG_LOCK : Fld := ⟨MAN.CFG, 31, 31⟩
abbrev MAN.CFG_EN : Fld := ⟨MAN.CFG, 3, 3⟩
abbrev MAN.CFG_TSC : Fld := ⟨MAN.CFG, 2, 0⟩
/-- `MAN.BASE_LO`, 14. -/
abbrev MAN.BASE_LO : Nat := 0xA10004
abbrev MAN.BASE_LO_S : Fld := ⟨MAN.BASE_LO, 31, 0⟩
/-- `MAN.BASE_HI`, 14. -/
abbrev MAN.BASE_HI : Nat := 0xA10008
abbrev MAN.BASE_HI_S : Fld := ⟨MAN.BASE_HI, 31, 0⟩
/-- `MAN.PERIOD`, 14. -/
abbrev MAN.PERIOD : Nat := 0xA1000C
abbrev MAN.PERIOD_S : Fld := ⟨MAN.PERIOD, 31, 0⟩
/-- `MAN.STATUS`, 14. -/
abbrev MAN.STATUS : Nat := 0xA10010
abbrev MAN.STATUS_SIGNING : Fld := ⟨MAN.STATUS, 31, 31⟩
abbrev MAN.STATUS_TENANTS : Fld := ⟨MAN.STATUS, 12, 0⟩
/-- `MAN.NEXT_LO`, 14. -/
abbrev MAN.NEXT_LO : Nat := 0xA10014
abbrev MAN.NEXT_LO_S : Fld := ⟨MAN.NEXT_LO, 31, 0⟩
/-- `MAN.NEXT_HI`, 14. -/
abbrev MAN.NEXT_HI : Nat := 0xA10018
abbrev MAN.NEXT_HI_S : Fld := ⟨MAN.NEXT_HI, 31, 0⟩
/-- `MAN.SEALED_LO`, 14. -/
abbrev MAN.SEALED_LO : Nat := 0xA1001C
abbrev MAN.SEALED_LO_S : Fld := ⟨MAN.SEALED_LO, 31, 0⟩
/-- `MAN.SEALED_HI`, 14. -/
abbrev MAN.SEALED_HI : Nat := 0xA10020
abbrev MAN.SEALED_HI_S : Fld := ⟨MAN.SEALED_HI, 31, 0⟩
/-- `MAN.EVENT`, 14. -/
abbrev MAN.EVENT : Nat := 0xA10024
abbrev MAN.EVENT_MSG_MISS : Fld := ⟨MAN.EVENT, 4, 4⟩
abbrev MAN.EVENT_EVQ_OVF : Fld := ⟨MAN.EVENT, 3, 3⟩
abbrev MAN.EVENT_GUARD : Fld := ⟨MAN.EVENT, 2, 2⟩
abbrev MAN.EVENT_REGRESSION : Fld := ⟨MAN.EVENT, 1, 1⟩
abbrev MAN.EVENT_SEALED : Fld := ⟨MAN.EVENT, 0, 0⟩
/-- `MAN.REGR`, 14. -/
abbrev MAN.REGR : Nat := 0xA10028
abbrev MAN.REGR_COUNT : Fld := ⟨MAN.REGR, 31, 16⟩
abbrev MAN.REGR_LAST_S : Fld := ⟨MAN.REGR, 15, 0⟩
/-- `MAN.EVQ_OVF`, 14. -/
abbrev MAN.EVQ_OVF : Nat := 0xA1002C
abbrev MAN.EVQ_OVF_COUNT : Fld := ⟨MAN.EVQ_OVF, 31, 0⟩
/-- `MAN.MSG_MISS`, 14. -/
abbrev MAN.MSG_MISS : Nat := 0xA10030
abbrev MAN.MSG_MISS_COUNT : Fld := ⟨MAN.MSG_MISS, 31, 0⟩
/-- `XLK.CFG`, 15. -/
abbrev XLK.CFG : Nat := 0xA00000
abbrev XLK.CFG_BERTH_REP : Fld := ⟨XLK.CFG, 29, 29⟩
abbrev XLK.CFG_CARD : Fld := ⟨XLK.CFG, 28, 28⟩
abbrev XLK.CFG_HO_QL : Fld := ⟨XLK.CFG, 27, 24⟩
abbrev XLK.CFG_TSMASK : Fld := ⟨XLK.CFG, 23, 16⟩
abbrev XLK.CFG_FOLLOW : Fld := ⟨XLK.CFG, 15, 0⟩
/-- `XLK.CFG2`, 15. -/
abbrev XLK.CFG2 : Nat := 0xA00004
abbrev XLK.CFG2_HB_MISS : Fld := ⟨XLK.CFG2, 31, 24⟩
abbrev XLK.CFG2_HB_US : Fld := ⟨XLK.CFG2, 23, 16⟩
abbrev XLK.CFG2_QL_SEL : Fld := ⟨XLK.CFG2, 15, 11⟩
abbrev XLK.CFG2_PAIR_TSC : Fld := ⟨XLK.CFG2, 10, 8⟩
abbrev XLK.CFG2_TXCLK : Fld := ⟨XLK.CFG2, 2, 0⟩
/-- `XLK.STATUS`, 15. -/
abbrev XLK.STATUS : Nat := 0xA00008
abbrev XLK.STATUS_ROLE : Fld := ⟨XLK.STATUS, 31, 30⟩
abbrev XLK.STATUS_PAIR : Fld := ⟨XLK.STATUS, 29, 28⟩
abbrev XLK.STATUS_PARTNER_ROLE : Fld := ⟨XLK.STATUS, 27, 26⟩
abbrev XLK.STATUS_VER : Fld := ⟨XLK.STATUS, 23, 16⟩
abbrev XLK.STATUS_PARTNER_VER : Fld := ⟨XLK.STATUS, 15, 8⟩
abbrev XLK.STATUS_MIXED : Fld := ⟨XLK.STATUS, 7, 7⟩
abbrev XLK.STATUS_INCUMBENT : Fld := ⟨XLK.STATUS, 6, 6⟩
abbrev XLK.STATUS_SWITCHING : Fld := ⟨XLK.STATUS, 5, 5⟩
abbrev XLK.STATUS_LANE1_UP : Fld := ⟨XLK.STATUS, 4, 4⟩
abbrev XLK.STATUS_LANE0_UP : Fld := ⟨XLK.STATUS, 3, 3⟩
abbrev XLK.STATUS_PARTNER_HO : Fld := ⟨XLK.STATUS, 2, 2⟩
/-- `XLK.EVENT`, 15. -/
abbrev XLK.EVENT : Nat := 0xA0000C
abbrev XLK.EVENT_BERTH_MISMATCH : Fld := ⟨XLK.EVENT, 11, 11⟩
abbrev XLK.EVENT_CRC : Fld := ⟨XLK.EVENT, 10, 10⟩
abbrev XLK.EVENT_LANE_UP : Fld := ⟨XLK.EVENT, 9, 9⟩
abbrev XLK.EVENT_LANE_DOWN : Fld := ⟨XLK.EVENT, 8, 8⟩
abbrev XLK.EVENT_INCOMPAT : Fld := ⟨XLK.EVENT, 7, 7⟩
abbrev XLK.EVENT_VERSION : Fld := ⟨XLK.EVENT, 6, 6⟩
abbrev XLK.EVENT_SWITCH_REFUSED : Fld := ⟨XLK.EVENT, 5, 5⟩
abbrev XLK.EVENT_SWITCHED : Fld := ⟨XLK.EVENT, 4, 4⟩
abbrev XLK.EVENT_TAKEOVER : Fld := ⟨XLK.EVENT, 3, 3⟩
abbrev XLK.EVENT_ROLE : Fld := ⟨XLK.EVENT, 2, 2⟩
abbrev XLK.EVENT_PAIR_DOWN : Fld := ⟨XLK.EVENT, 1, 1⟩
abbrev XLK.EVENT_PAIR_UP : Fld := ⟨XLK.EVENT, 0, 0⟩
/-- `XLK.CTRL`, 15. -/
abbrev XLK.CTRL : Nat := 0xA00010
abbrev XLK.CTRL_TS_PERIOD : Fld := ⟨XLK.CTRL, 25, 16⟩
abbrev XLK.CTRL_TS_EN : Fld := ⟨XLK.CTRL, 1, 1⟩
abbrev XLK.CTRL_ADMIN : Fld := ⟨XLK.CTRL, 0, 0⟩
/-- `XLK.CMD`, 15. -/
abbrev XLK.CMD : Nat := 0xA00014
abbrev XLK.CMD_FETCH_TIMES : Fld := ⟨XLK.CMD, 3, 3⟩
abbrev XLK.CMD_LOOPCAL : Fld := ⟨XLK.CMD, 2, 2⟩
abbrev XLK.CMD_FETCH_LOOPS : Fld := ⟨XLK.CMD, 1, 1⟩
abbrev XLK.CMD_SWITCH : Fld := ⟨XLK.CMD, 0, 0⟩
/-- `XLK.CMD_CODE`, 15. -/
abbrev XLK.CMD_CODE : Nat := 0xA00018
abbrev XLK.CMD_CODE_CODE : Fld := ⟨XLK.CMD_CODE, 7, 0⟩
/-- `XLK.ASYM`, 15. -/
abbrev XLK.ASYM : Nat := 0xA0001C
abbrev XLK.ASYM_PS : Fld := ⟨XLK.ASYM, 31, 0⟩
/-- `XLK.DELAY0`, 15. -/
abbrev XLK.DELAY0 : Nat := 0xA00020
abbrev XLK.DELAY0_PS : Fld := ⟨XLK.DELAY0, 31, 0⟩
/-- `XLK.DELAY1`, 15. -/
abbrev XLK.DELAY1 : Nat := 0xA00024
abbrev XLK.DELAY1_PS : Fld := ⟨XLK.DELAY1, 31, 0⟩
/-- `XLK.OFFSET`, 15. -/
abbrev XLK.OFFSET : Nat := 0xA00028
abbrev XLK.OFFSET_PS : Fld := ⟨XLK.OFFSET, 31, 0⟩
/-- `XLK.CNT`, 15. -/
abbrev XLK.CNT : Nat := 0xA0002C
abbrev XLK.CNT_CRC_ERR : Fld := ⟨XLK.CNT, 31, 16⟩
abbrev XLK.CNT_DROP_VER : Fld := ⟨XLK.CNT, 15, 8⟩
abbrev XLK.CNT_MISMATCH : Fld := ⟨XLK.CNT, 7, 0⟩
/-- `XLK.LANE[k].TS_RX`, 15. -/
abbrev XLK.LANE_TS_RX (k : Nat) : Nat := 0xA00040 + 0x10 * k
abbrev XLK.LANE_TS_RX_PS (k : Nat) : Fld := ⟨(XLK.LANE_TS_RX k), 31, 0⟩
/-- `XLK.LANE[k].TS_TX`, 15. -/
abbrev XLK.LANE_TS_TX (k : Nat) : Nat := 0xA00044 + 0x10 * k
abbrev XLK.LANE_TS_TX_PS (k : Nat) : Fld := ⟨(XLK.LANE_TS_TX k), 31, 0⟩
/-- `XLK.LANE[k].TS_ADJ`, 15. -/
abbrev XLK.LANE_TS_ADJ (k : Nat) : Nat := 0xA00048 + 0x10 * k
abbrev XLK.LANE_TS_ADJ_TX_ADJ (k : Nat) : Fld := ⟨(XLK.LANE_TS_ADJ k), 31, 16⟩
abbrev XLK.LANE_TS_ADJ_RX_ADJ (k : Nat) : Fld := ⟨(XLK.LANE_TS_ADJ k), 15, 0⟩
/-- `XLK.LANE[k].LOOPCAL`, 15. -/
abbrev XLK.LANE_LOOPCAL (k : Nat) : Nat := 0xA0004C + 0x10 * k
abbrev XLK.LANE_LOOPCAL_DIFF (k : Nat) : Fld := ⟨(XLK.LANE_LOOPCAL k), 31, 0⟩
/-- `SEC.STATE`, 16. -/
abbrev SEC.STATE : Nat := 0x60000
abbrev SEC.STATE_LIFECYCLE : Fld := ⟨SEC.STATE, 31, 30⟩
abbrev SEC.STATE_OWNER_FUSED : Fld := ⟨SEC.STATE, 29, 29⟩
abbrev SEC.STATE_TA_PRESENT : Fld := ⟨SEC.STATE, 28, 28⟩
abbrev SEC.STATE_SECRET_OFF : Fld := ⟨SEC.STATE, 27, 27⟩
abbrev SEC.STATE_KEYED : Fld := ⟨SEC.STATE, 8, 0⟩
/-- `SEC.DEVID[k]`, 16. -/
abbrev SEC.DEVID (k : Nat) : Nat := 0x60010 + 0x4 * k
abbrev SEC.DEVID_ID (k : Nat) : Fld := ⟨(SEC.DEVID k), 31, 0⟩
/-- `SEC.OP`, 16. -/
abbrev SEC.OP : Nat := 0x60020
abbrev SEC.OP_PART : Fld := ⟨SEC.OP, 18, 16⟩
abbrev SEC.OP_SPP : Fld := ⟨SEC.OP, 15, 8⟩
abbrev SEC.OP_OPCODE : Fld := ⟨SEC.OP, 7, 0⟩
/-- `SEC.OP_ARG`, 16. -/
abbrev SEC.OP_ARG : Nat := 0x60024
abbrev SEC.OP_ARG_ARG : Fld := ⟨SEC.OP_ARG, 31, 0⟩
/-- `SEC.OP_STATUS`, 16. -/
abbrev SEC.OP_STATUS : Nat := 0x60028
abbrev SEC.OP_STATUS_BUSY : Fld := ⟨SEC.OP_STATUS, 31, 31⟩
abbrev SEC.OP_STATUS_LAST_OP : Fld := ⟨SEC.OP_STATUS, 15, 8⟩
abbrev SEC.OP_STATUS_CODE : Fld := ⟨SEC.OP_STATUS, 7, 0⟩
/-- `SEC.EVENT`, 16. -/
abbrev SEC.EVENT : Nat := 0x6002C
abbrev SEC.EVENT_FUSE_ERROR : Fld := ⟨SEC.EVENT, 6, 6⟩
abbrev SEC.EVENT_OP_DONE : Fld := ⟨SEC.EVENT, 5, 5⟩
abbrev SEC.EVENT_LIFECYCLE : Fld := ⟨SEC.EVENT, 4, 4⟩
abbrev SEC.EVENT_TEST_ACCESS : Fld := ⟨SEC.EVENT, 3, 3⟩
abbrev SEC.EVENT_KEY_REJECT : Fld := ⟨SEC.EVENT, 2, 2⟩
abbrev SEC.EVENT_REQUEST_REJECT : Fld := ⟨SEC.EVENT, 1, 1⟩
abbrev SEC.EVENT_TICKET_REJECT : Fld := ⟨SEC.EVENT, 0, 0⟩
/-- `SEC.TICKET_LO`, 16. -/
abbrev SEC.TICKET_LO : Nat := 0x60030
abbrev SEC.TICKET_LO_SERIAL : Fld := ⟨SEC.TICKET_LO, 31, 0⟩
/-- `SEC.TICKET_HI`, 16. -/
abbrev SEC.TICKET_HI : Nat := 0x60034
abbrev SEC.TICKET_HI_SERIAL : Fld := ⟨SEC.TICKET_HI, 31, 0⟩
/-- `SEC.TICKET_WHY`, 16. -/
abbrev SEC.TICKET_WHY : Nat := 0x60038
abbrev SEC.TICKET_WHY_TSC : Fld := ⟨SEC.TICKET_WHY, 10, 8⟩
abbrev SEC.TICKET_WHY_REASON : Fld := ⟨SEC.TICKET_WHY, 3, 0⟩
/-- `SEC.REJECTS`, 16. -/
abbrev SEC.REJECTS : Nat := 0x6003C
abbrev SEC.REJECTS_TICKET : Fld := ⟨SEC.REJECTS, 31, 16⟩
abbrev SEC.REJECTS_REQUEST : Fld := ⟨SEC.REJECTS, 15, 8⟩
abbrev SEC.REJECTS_KEY : Fld := ⟨SEC.REJECTS, 7, 0⟩
/-- `HOST.PORT`, 17. -/
abbrev HOST.PORT (p : Port) : Nat := 0x10000 + portBase p
abbrev HOST.PORT_SPEED (p : Port) : Fld := ⟨(HOST.PORT p), 15, 12⟩
abbrev HOST.PORT_WIDTH (p : Port) : Fld := ⟨(HOST.PORT p), 11, 8⟩
abbrev HOST.PORT_PORT (p : Port) : Fld := ⟨(HOST.PORT p), 0, 0⟩
/-- `HOST.EVENT`, 17. -/
abbrev HOST.EVENT (p : Port) : Nat := 0x10004 + portBase p
abbrev HOST.EVENT_LINK (p : Port) : Fld := ⟨(HOST.EVENT p), 5, 5⟩
abbrev HOST.EVENT_MBOX_OVERWRITE (p : Port) : Fld := ⟨(HOST.EVENT p), 4, 4⟩
abbrev HOST.EVENT_BUS_ERR (p : Port) : Fld := ⟨(HOST.EVENT p), 3, 3⟩
abbrev HOST.EVENT_MBOX_OUT (p : Port) : Fld := ⟨(HOST.EVENT p), 2, 2⟩
abbrev HOST.EVENT_RING_WAIT (p : Port) : Fld := ⟨(HOST.EVENT p), 1, 1⟩
abbrev HOST.EVENT_RING_DONE (p : Port) : Fld := ⟨(HOST.EVENT p), 0, 0⟩
/-- `HOST.ERR_STAT`, 17. -/
abbrev HOST.ERR_STAT (p : Port) : Nat := 0x10008 + portBase p
abbrev HOST.ERR_STAT_VALID (p : Port) : Fld := ⟨(HOST.ERR_STAT p), 31, 31⟩
abbrev HOST.ERR_STAT_COUNT (p : Port) : Fld := ⟨(HOST.ERR_STAT p), 23, 16⟩
abbrev HOST.ERR_STAT_WRITE (p : Port) : Fld := ⟨(HOST.ERR_STAT p), 8, 8⟩
abbrev HOST.ERR_STAT_CODE (p : Port) : Fld := ⟨(HOST.ERR_STAT p), 7, 0⟩
/-- `HOST.ERR_ADDR`, 17. -/
abbrev HOST.ERR_ADDR (p : Port) : Nat := 0x1000C + portBase p
abbrev HOST.ERR_ADDR_SPACE (p : Port) : Fld := ⟨(HOST.ERR_ADDR p), 31, 31⟩
abbrev HOST.ERR_ADDR_OFFSET (p : Port) : Fld := ⟨(HOST.ERR_ADDR p), 25, 0⟩
/-- `HOST.CFGCHK_CTRL`, 17. -/
abbrev HOST.CFGCHK_CTRL : Nat := 0x10100
abbrev HOST.CFGCHK_CTRL_EN : Fld := ⟨HOST.CFGCHK_CTRL, 0, 0⟩
/-- `HOST.CFGCHK_REF`, 17. -/
abbrev HOST.CFGCHK_REF : Nat := 0x10104
abbrev HOST.CFGCHK_REF_CRC : Fld := ⟨HOST.CFGCHK_REF, 31, 0⟩
/-- `HOST.CFGCHK_STAT`, 17. -/
abbrev HOST.CFGCHK_STAT : Nat := 0x10108
abbrev HOST.CFGCHK_STAT_DIRTY : Fld := ⟨HOST.CFGCHK_STAT, 31, 31⟩
abbrev HOST.CFGCHK_STAT_MISMATCH : Fld := ⟨HOST.CFGCHK_STAT, 30, 30⟩
abbrev HOST.CFGCHK_STAT_COMPARING : Fld := ⟨HOST.CFGCHK_STAT, 29, 29⟩
abbrev HOST.CFGCHK_STAT_PASSES : Fld := ⟨HOST.CFGCHK_STAT, 15, 0⟩
/-- `HOST.CFGCHK_LAST`, 17. -/
abbrev HOST.CFGCHK_LAST : Nat := 0x1010C
abbrev HOST.CFGCHK_LAST_CRC : Fld := ⟨HOST.CFGCHK_LAST, 31, 0⟩
/-- `HOST.CFGCHK_CMD`, 17. -/
abbrev HOST.CFGCHK_CMD : Nat := 0x10110
abbrev HOST.CFGCHK_CMD_COMMIT : Fld := ⟨HOST.CFGCHK_CMD, 0, 0⟩
/-- `HOST.MBOX[k]`, 17. -/
abbrev HOST.MBOX (p : Port) (k : Nat) : Nat := 0x11000 + 0x4 * k + portBase p
abbrev HOST.MBOX_WORD (p : Port) (k : Nat) : Fld := ⟨(HOST.MBOX p k), 31, 0⟩
/-- `HOST.MBOX_STAT`, 17. -/
abbrev HOST.MBOX_STAT (p : Port) : Nat := 0x11100 + portBase p
abbrev HOST.MBOX_STAT_VALID (p : Port) : Fld := ⟨(HOST.MBOX_STAT p), 31, 31⟩
abbrev HOST.MBOX_STAT_DEVICE (p : Port) : Fld := ⟨(HOST.MBOX_STAT p), 30, 30⟩
abbrev HOST.MBOX_STAT_LEN (p : Port) : Fld := ⟨(HOST.MBOX_STAT p), 6, 0⟩
/-- `HOST.MBOX_COMMIT`, 17. -/
abbrev HOST.MBOX_COMMIT (p : Port) : Nat := 0x11104 + portBase p
abbrev HOST.MBOX_COMMIT_LEN (p : Port) : Fld := ⟨(HOST.MBOX_COMMIT p), 6, 0⟩
/-- `HOST.RING[i].W[w]`, 17. -/
abbrev HOST.RING (p : Port) (k : Nat) (w : Nat) : Nat := 0x12000 + 0x20 * k + 0x4 * w + portBase p
abbrev HOST.RING_WORD (p : Port) (k : Nat) (w : Nat) : Fld := ⟨(HOST.RING p k w), 31, 0⟩
/-- `HOST.RING_PI`, 17. -/
abbrev HOST.RING_PI (p : Port) : Nat := 0x12800 + portBase p
abbrev HOST.RING_PI_PI (p : Port) : Fld := ⟨(HOST.RING_PI p), 15, 0⟩
/-- `HOST.RING_STAT`, 17. -/
abbrev HOST.RING_STAT (p : Port) : Nat := 0x12804 + portBase p
abbrev HOST.RING_STAT_WAIT_MBOX (p : Port) : Fld := ⟨(HOST.RING_STAT p), 31, 31⟩
abbrev HOST.RING_STAT_WAIT_OUT (p : Port) : Fld := ⟨(HOST.RING_STAT p), 30, 30⟩
abbrev HOST.RING_STAT_ACTIVE (p : Port) : Fld := ⟨(HOST.RING_STAT p), 29, 29⟩
abbrev HOST.RING_STAT_CI (p : Port) : Fld := ⟨(HOST.RING_STAT p), 15, 0⟩
/-- `MEM.STATUS`, 18. -/
abbrev MEM.STATUS : Nat := 0x90000
abbrev MEM.STATUS_PASSES : Fld := ⟨MEM.STATUS, 31, 16⟩
abbrev MEM.STATUS_POWERED : Fld := ⟨MEM.STATUS, 7, 0⟩
/-- `MEM.ECC_LAST`, 18. -/
abbrev MEM.ECC_LAST : Nat := 0x90004
abbrev MEM.ECC_LAST_VALID : Fld := ⟨MEM.ECC_LAST, 31, 31⟩
abbrev MEM.ECC_LAST_UNCORR : Fld := ⟨MEM.ECC_LAST, 30, 30⟩
abbrev MEM.ECC_LAST_READER : Fld := ⟨MEM.ECC_LAST, 29, 28⟩
abbrev MEM.ECC_LAST_SYNDROME : Fld := ⟨MEM.ECC_LAST, 7, 0⟩
/-- `MEM.ECC_ADDR`, 18. -/
abbrev MEM.ECC_ADDR : Nat := 0x90008
abbrev MEM.ECC_ADDR_OFFSET : Fld := ⟨MEM.ECC_ADDR, 25, 0⟩
/-- `MEM.AT_ADDR`, 18. -/
abbrev MEM.AT_ADDR : Nat := 0x90010
abbrev MEM.AT_ADDR_OFFSET : Fld := ⟨MEM.AT_ADDR, 25, 0⟩
/-- `MEM.AT_CMD`, 18. -/
abbrev MEM.AT_CMD : Nat := 0x90014
abbrev MEM.AT_CMD_OP : Fld := ⟨MEM.AT_CMD, 1, 0⟩
/-- `MEM.AT_CODE`, 18. -/
abbrev MEM.AT_CODE : Nat := 0x90018
abbrev MEM.AT_CODE_CODE : Fld := ⟨MEM.AT_CODE, 7, 0⟩
/-- `MEM.ECC[n]`, 18. -/
abbrev MEM.ECC (k : Nat) : Nat := 0x90100 + 0x4 * k
abbrev MEM.ECC_UNCORR (k : Nat) : Fld := ⟨(MEM.ECC k), 31, 24⟩
abbrev MEM.ECC_CORR (k : Nat) : Fld := ⟨(MEM.ECC k), 15, 0⟩
/-- `MEM.REPAIR[k]`, 18. -/
abbrev MEM.REPAIR (k : Nat) : Nat := 0x90300 + 0x4 * k
/-- `NV.STATUS`, 19. -/
abbrev NV.STATUS : Nat := 0x70000
abbrev NV.STATUS_HOLD_OK : Fld := ⟨NV.STATUS, 31, 31⟩
abbrev NV.STATUS_STORED : Fld := ⟨NV.STATUS, 30, 30⟩
abbrev NV.STATUS_COMMITTING : Fld := ⟨NV.STATUS, 29, 29⟩
abbrev NV.STATUS_DIRTY : Fld := ⟨NV.STATUS, 23, 16⟩
abbrev NV.STATUS_RECOVERY : Fld := ⟨NV.STATUS, 1, 0⟩
/-- `NV.EVENT`, 19. -/
abbrev NV.EVENT : Nat := 0x70004
abbrev NV.EVENT_UNPROTECTED : Fld := ⟨NV.EVENT, 7, 7⟩
abbrev NV.EVENT_LOG_LOST : Fld := ⟨NV.EVENT, 6, 6⟩
abbrev NV.EVENT_PW_LOCKOUT : Fld := ⟨NV.EVENT, 5, 5⟩
abbrev NV.EVENT_PAGE_CLIP : Fld := ⟨NV.EVENT, 4, 4⟩
abbrev NV.EVENT_PFAIL_RECOVERED : Fld := ⟨NV.EVENT, 3, 3⟩
abbrev NV.EVENT_PFAIL_STORE : Fld := ⟨NV.EVENT, 2, 2⟩
abbrev NV.EVENT_HOLD_LOST : Fld := ⟨NV.EVENT, 1, 1⟩
abbrev NV.EVENT_OP_DONE : Fld := ⟨NV.EVENT, 0, 0⟩
/-- `NV.OP`, 19. -/
abbrev NV.OP : Nat := 0x70008
abbrev NV.OP_LEN : Fld := ⟨NV.OP, 16, 8⟩
abbrev NV.OP_OPCODE : Fld := ⟨NV.OP, 7, 0⟩
/-- `NV.OP_ARG`, 19. -/
abbrev NV.OP_ARG : Nat := 0x7000C
abbrev NV.OP_ARG_ARG : Fld := ⟨NV.OP_ARG, 31, 0⟩
/-- `NV.OP_ARG_HI`, 19. -/
abbrev NV.OP_ARG_HI : Nat := 0x70010
abbrev NV.OP_ARG_HI_ARG : Fld := ⟨NV.OP_ARG_HI, 31, 0⟩
/-- `NV.OP_STATUS`, 19. -/
abbrev NV.OP_STATUS : Nat := 0x70014
abbrev NV.OP_STATUS_BUSY : Fld := ⟨NV.OP_STATUS, 31, 31⟩
abbrev NV.OP_STATUS_BYTES : Fld := ⟨NV.OP_STATUS, 24, 16⟩
abbrev NV.OP_STATUS_LAST_OP : Fld := ⟨NV.OP_STATUS, 15, 8⟩
abbrev NV.OP_STATUS_CODE : Fld := ⟨NV.OP_STATUS, 7, 0⟩
/-- `NV.PW_FAIL`, 19. -/
abbrev NV.PW_FAIL : Nat := 0x70018
abbrev NV.PW_FAIL_COUNT : Fld := ⟨NV.PW_FAIL, 15, 0⟩
/-- `NV.CFG`, 19. -/
abbrev NV.CFG : Nat := 0x7001C
abbrev NV.CFG_LOG_TSC : Fld := ⟨NV.CFG, 18, 16⟩
abbrev NV.CFG_LEDGER_S : Fld := ⟨NV.CFG, 11, 0⟩
/-- `NV.HREG[k]`, 19. -/
abbrev NV.HREG (k : Nat) : Nat := 0x70020 + 0x4 * k
abbrev NV.HREG_EN (k : Nat) : Fld := ⟨(NV.HREG k), 31, 31⟩
abbrev NV.HREG_RPW (k : Nat) : Fld := ⟨(NV.HREG k), 30, 30⟩
abbrev NV.HREG_WPW (k : Nat) : Fld := ⟨(NV.HREG k), 29, 29⟩
abbrev NV.HREG_FIRST (k : Nat) : Fld := ⟨(NV.HREG k), 24, 16⟩
abbrev NV.HREG_PAGES (k : Nat) : Fld := ⟨(NV.HREG k), 8, 0⟩
/-- `NV.LOG_NEWEST`, 19. -/
abbrev NV.LOG_NEWEST : Nat := 0x70040
abbrev NV.LOG_NEWEST_SEQ : Fld := ⟨NV.LOG_NEWEST, 31, 0⟩
/-- `NV.LOG_NEWEST_HI`, 19. -/
abbrev NV.LOG_NEWEST_HI : Nat := 0x70044
abbrev NV.LOG_NEWEST_HI_SEQ : Fld := ⟨NV.LOG_NEWEST_HI, 31, 0⟩
/-- `NV.LOG_OLDEST`, 19. -/
abbrev NV.LOG_OLDEST : Nat := 0x70048
abbrev NV.LOG_OLDEST_SEQ : Fld := ⟨NV.LOG_OLDEST, 31, 0⟩
/-- `NV.LOG_OLDEST_HI`, 19. -/
abbrev NV.LOG_OLDEST_HI : Nat := 0x7004C
abbrev NV.LOG_OLDEST_HI_SEQ : Fld := ⟨NV.LOG_OLDEST_HI, 31, 0⟩
/-- `FLM.STATE`, 19. -/
abbrev FLM.STATE : Nat := 0x80000
abbrev FLM.STATE_LINK : Fld := ⟨FLM.STATE, 31, 30⟩
abbrev FLM.STATE_EXHAUSTED : Fld := ⟨FLM.STATE, 29, 29⟩
abbrev FLM.STATE_MAN_OFF : Fld := ⟨FLM.STATE, 28, 28⟩
abbrev FLM.STATE_LOG_OFF : Fld := ⟨FLM.STATE, 27, 27⟩
abbrev FLM.STATE_NAND : Fld := ⟨FLM.STATE, 26, 26⟩
abbrev FLM.STATE_POOL : Fld := ⟨FLM.STATE, 15, 0⟩
/-- `FLM.EVENT`, 19. -/
abbrev FLM.EVENT : Nat := 0x80004
abbrev FLM.EVENT_SCRUB_DONE : Fld := ⟨FLM.EVENT, 6, 6⟩
abbrev FLM.EVENT_REFRESH : Fld := ⟨FLM.EVENT, 5, 5⟩
abbrev FLM.EVENT_EXHAUSTED : Fld := ⟨FLM.EVENT, 4, 4⟩
abbrev FLM.EVENT_SHRINK : Fld := ⟨FLM.EVENT, 3, 3⟩
abbrev FLM.EVENT_POOL_EMPTY : Fld := ⟨FLM.EVENT, 2, 2⟩
abbrev FLM.EVENT_BAD_BLOCK : Fld := ⟨FLM.EVENT, 1, 1⟩
abbrev FLM.EVENT_OP_DONE : Fld := ⟨FLM.EVENT, 0, 0⟩
/-- `FLM.OP`, 19. -/
abbrev FLM.OP : Nat := 0x80008
abbrev FLM.OP_OPCODE : Fld := ⟨FLM.OP, 7, 0⟩
/-- `FLM.OP_STATUS`, 19. -/
abbrev FLM.OP_STATUS : Nat := 0x8000C
abbrev FLM.OP_STATUS_BUSY : Fld := ⟨FLM.OP_STATUS, 31, 31⟩
abbrev FLM.OP_STATUS_LAST_OP : Fld := ⟨FLM.OP_STATUS, 15, 8⟩
abbrev FLM.OP_STATUS_CODE : Fld := ⟨FLM.OP_STATUS, 7, 0⟩
/-- `FLM.CAP`, 19. -/
abbrev FLM.CAP : Nat := 0x80010
abbrev FLM.CAP_MB : Fld := ⟨FLM.CAP, 31, 0⟩
/-- `FLM.BAD`, 19. -/
abbrev FLM.BAD : Nat := 0x80014
abbrev FLM.BAD_TAKEN : Fld := ⟨FLM.BAD, 31, 16⟩
abbrev FLM.BAD_COUNT : Fld := ⟨FLM.BAD, 15, 0⟩
/-- `FLM.SCRUB`, 19. -/
abbrev FLM.SCRUB : Nat := 0x80018
abbrev FLM.SCRUB_DAYS : Fld := ⟨FLM.SCRUB, 6, 0⟩
/-- `FLM.MAN_OLDEST`, 19. -/
abbrev FLM.MAN_OLDEST : Nat := 0x8001C
abbrev FLM.MAN_OLDEST_S : Fld := ⟨FLM.MAN_OLDEST, 31, 0⟩
/-- `FLM.CNT`, 19. -/
abbrev FLM.CNT : Nat := 0x80020
abbrev FLM.CNT_LOG_LOST : Fld := ⟨FLM.CNT, 31, 16⟩
abbrev FLM.CNT_UNCORR : Fld := ⟨FLM.CNT, 15, 0⟩
/-- `FLT.STATUS`, 20. -/
abbrev FLT.STATUS : Nat := 0x30000
abbrev FLT.STATUS_QLEVEL : Fld := ⟨FLT.STATUS, 31, 24⟩
abbrev FLT.STATUS_ERR_PIN : Fld := ⟨FLT.STATUS, 23, 23⟩
abbrev FLT.STATUS_ERR_HELD : Fld := ⟨FLT.STATUS, 22, 22⟩
abbrev FLT.STATUS_TRAPPED : Fld := ⟨FLT.STATUS, 21, 21⟩
abbrev FLT.STATUS_INJ_PEND : Fld := ⟨FLT.STATUS, 20, 20⟩
abbrev FLT.STATUS_IN_FAULT : Fld := ⟨FLT.STATUS, 15, 0⟩
/-- `FLT.EVENT`, 20. -/
abbrev FLT.EVENT : Nat := 0x30004
abbrev FLT.EVENT_INJ_DONE : Fld := ⟨FLT.EVENT, 6, 6⟩
abbrev FLT.EVENT_QUIET : Fld := ⟨FLT.EVENT, 5, 5⟩
abbrev FLT.EVENT_BURST : Fld := ⟨FLT.EVENT, 4, 4⟩
abbrev FLT.EVENT_ERR_PIN : Fld := ⟨FLT.EVENT, 3, 3⟩
abbrev FLT.EVENT_OVF : Fld := ⟨FLT.EVENT, 2, 2⟩
abbrev FLT.EVENT_TRAP : Fld := ⟨FLT.EVENT, 1, 1⟩
abbrev FLT.EVENT_RECORD : Fld := ⟨FLT.EVENT, 0, 0⟩
/-- `FLT.CLASS_EVENT`, 20. -/
abbrev FLT.CLASS_EVENT : Nat := 0x30008
abbrev FLT.CLASS_EVENT_CLASS : Fld := ⟨FLT.CLASS_EVENT, 15, 0⟩
/-- `FLT.FIRST0`, 20. -/
abbrev FLT.FIRST0 : Nat := 0x3000C
abbrev FLT.FIRST0_VALID : Fld := ⟨FLT.FIRST0, 31, 31⟩
abbrev FLT.FIRST0_INJ : Fld := ⟨FLT.FIRST0, 30, 30⟩
abbrev FLT.FIRST0_SOURCE : Fld := ⟨FLT.FIRST0, 25, 16⟩
abbrev FLT.FIRST0_KIND : Fld := ⟨FLT.FIRST0, 5, 0⟩
/-- `FLT.FIRST1`, 20. -/
abbrev FLT.FIRST1 : Nat := 0x30010
abbrev FLT.FIRST1_ADDRESS : Fld := ⟨FLT.FIRST1, 31, 0⟩
/-- `FLT.FIRST2`, 20. -/
abbrev FLT.FIRST2 : Nat := 0x30014
abbrev FLT.FIRST2_UPTIME_MS : Fld := ⟨FLT.FIRST2, 31, 0⟩
/-- `FLT.TRAP0`, 20. -/
abbrev FLT.TRAP0 : Nat := 0x30018
abbrev FLT.TRAP0_VALID : Fld := ⟨FLT.TRAP0, 31, 31⟩
abbrev FLT.TRAP0_INJ : Fld := ⟨FLT.TRAP0, 30, 30⟩
abbrev FLT.TRAP0_SOURCE : Fld := ⟨FLT.TRAP0, 25, 16⟩
abbrev FLT.TRAP0_KIND : Fld := ⟨FLT.TRAP0, 5, 0⟩
/-- `FLT.TRAP1`, 20. -/
abbrev FLT.TRAP1 : Nat := 0x3001C
abbrev FLT.TRAP1_ADDRESS : Fld := ⟨FLT.TRAP1, 31, 0⟩
/-- `FLT.TRAP2`, 20. -/
abbrev FLT.TRAP2 : Nat := 0x30020
abbrev FLT.TRAP2_UPTIME_MS : Fld := ⟨FLT.TRAP2, 31, 0⟩
/-- `FLT.COUNT`, 20. -/
abbrev FLT.COUNT : Nat := 0x30024
abbrev FLT.COUNT_MESSAGES : Fld := ⟨FLT.COUNT, 31, 16⟩
abbrev FLT.COUNT_OVF : Fld := ⟨FLT.COUNT, 15, 0⟩
/-- `FLT.RECOVER`, 20. -/
abbrev FLT.RECOVER : Nat := 0x30028
abbrev FLT.RECOVER_QUIET_EXITS : Fld := ⟨FLT.RECOVER, 31, 16⟩
abbrev FLT.RECOVER_BRESETS : Fld := ⟨FLT.RECOVER, 15, 0⟩
/-- `FLT.WITHHELD_LND`, 20. -/
abbrev FLT.WITHHELD_LND : Nat := 0x3002C
abbrev FLT.WITHHELD_LND_LND : Fld := ⟨FLT.WITHHELD_LND, 31, 0⟩
/-- `FLT.WITHHELD_PRT`, 20. -/
abbrev FLT.WITHHELD_PRT : Nat := 0x30030
abbrev FLT.WITHHELD_PRT_PRT : Fld := ⟨FLT.WITHHELD_PRT, 7, 0⟩
/-- `FLT.DEVICE`, 20. -/
abbrev FLT.DEVICE : Nat := 0x30034
abbrev FLT.DEVICE_RAIL : Fld := ⟨FLT.DEVICE, 11, 8⟩
abbrev FLT.DEVICE_TEMP : Fld := ⟨FLT.DEVICE, 4, 4⟩
abbrev FLT.DEVICE_REFSYN : Fld := ⟨FLT.DEVICE, 3, 3⟩
abbrev FLT.DEVICE_OSCIN : Fld := ⟨FLT.DEVICE, 2, 2⟩
abbrev FLT.DEVICE_XOIN : Fld := ⟨FLT.DEVICE, 1, 1⟩
abbrev FLT.DEVICE_RAIL_FAULT : Fld := ⟨FLT.DEVICE, 0, 0⟩
/-- `FLT.ERR_CTRL`, 20. -/
abbrev FLT.ERR_CTRL : Nat := 0x30038
abbrev FLT.ERR_CTRL_WIDTH_US : Fld := ⟨FLT.ERR_CTRL, 13, 0⟩
/-- `FLT.QUIET`, 20. -/
abbrev FLT.QUIET : Nat := 0x3003C
abbrev FLT.QUIET_BURST_MAX : Fld := ⟨FLT.QUIET, 31, 24⟩
abbrev FLT.QUIET_MS : Fld := ⟨FLT.QUIET, 15, 0⟩
/-- `FLT.CMD`, 20. -/
abbrev FLT.CMD : Nat := 0x30040
abbrev FLT.CMD_INJ_CANCEL : Fld := ⟨FLT.CMD, 4, 4⟩
abbrev FLT.CMD_INJ_ARM : Fld := ⟨FLT.CMD, 3, 3⟩
abbrev FLT.CMD_TRAP_CLEAR : Fld := ⟨FLT.CMD, 2, 2⟩
abbrev FLT.CMD_ERR_RELEASE : Fld := ⟨FLT.CMD, 1, 1⟩
abbrev FLT.CMD_POP : Fld := ⟨FLT.CMD, 0, 0⟩
/-- `FLT.CODE`, 20. -/
abbrev FLT.CODE : Nat := 0x30044
abbrev FLT.CODE_CODE : Fld := ⟨FLT.CODE, 7, 0⟩
/-- `FLT.INJ`, 20. -/
abbrev FLT.INJ : Nat := 0x30048
abbrev FLT.INJ_INST : Fld := ⟨FLT.INJ, 13, 8⟩
abbrev FLT.INJ_BITS : Fld := ⟨FLT.INJ, 5, 4⟩
abbrev FLT.INJ_TARGET : Fld := ⟨FLT.INJ, 3, 0⟩
/-- `FLT.INJ_ADDR`, 20. -/
abbrev FLT.INJ_ADDR : Nat := 0x3004C
abbrev FLT.INJ_ADDR_OFFSET : Fld := ⟨FLT.INJ_ADDR, 25, 0⟩
/-- `FLT.INJ_MSG`, 20. -/
abbrev FLT.INJ_MSG : Nat := 0x30050
abbrev FLT.INJ_MSG_SOURCE : Fld := ⟨FLT.INJ_MSG, 25, 16⟩
abbrev FLT.INJ_MSG_KIND : Fld := ⟨FLT.INJ_MSG, 5, 0⟩
/-- `FLT.INJ_MSG_ADDR`, 20. -/
abbrev FLT.INJ_MSG_ADDR : Nat := 0x30054
abbrev FLT.INJ_MSG_ADDR_ADDRESS : Fld := ⟨FLT.INJ_MSG_ADDR, 31, 0⟩
/-- `INTR.PEND[k]`, 20. -/
abbrev INTR.PEND (p : Port) (k : Nat) : Nat := 0x20000 + 0x4 * k + portBase p
abbrev INTR.PEND_P (p : Port) (k : Nat) : Fld := ⟨(INTR.PEND p k), 31, 0⟩
/-- `INTR.MASK[k]`, 20. -/
abbrev INTR.MASK (p : Port) (k : Nat) : Nat := 0x20100 + 0x4 * k + portBase p
abbrev INTR.MASK_M (p : Port) (k : Nat) : Fld := ⟨(INTR.MASK p k), 31, 0⟩
/-- `INTR.HIST[k]`, 20. -/
abbrev INTR.HIST (k : Nat) : Nat := 0x20200 + 0x4 * k
abbrev INTR.HIST_H (k : Nat) : Fld := ⟨(INTR.HIST k), 31, 0⟩
/-- `INTR.STATUS`, 20. -/
abbrev INTR.STATUS (p : Port) : Nat := 0x20300 + portBase p
abbrev INTR.STATUS_DUE (p : Port) : Fld := ⟨(INTR.STATUS p), 9, 0⟩
/-- `INTR.VPEND[i]`, 20. -/
abbrev INTR.VPEND (p : Port) (k : Nat) : Nat := 0x20310 + 0x4 * k + portBase p
abbrev INTR.VPEND_V (p : Port) (k : Nat) : Fld := ⟨(INTR.VPEND p k), 31, 0⟩
/-- `INTR.ROUTE[s]`, 20. -/
abbrev INTR.ROUTE (k : Nat) : Nat := 0x21000 + 0x4 * k
abbrev INTR.ROUTE_PIN_B (k : Nat) : Fld := ⟨(INTR.ROUTE k), 16, 16⟩
abbrev INTR.ROUTE_DEST_A (k : Nat) : Fld := ⟨(INTR.ROUTE k), 6, 0⟩
/-- `TOP.RST_STAT`, 21. -/
abbrev TOP.RST_STAT : Nat := 0x4
abbrev TOP.RST_STAT_COLD_CAUSE : Fld := ⟨TOP.RST_STAT, 31, 28⟩
abbrev TOP.RST_STAT_FULL_CAUSE : Fld := ⟨TOP.RST_STAT, 27, 24⟩
abbrev TOP.RST_STAT_FULL_COUNT : Fld := ⟨TOP.RST_STAT, 15, 0⟩
/-- `TOP.STRAP`, 21. -/
abbrev TOP.STRAP : Nat := 0x8
abbrev TOP.STRAP_XO_KHZ : Fld := ⟨TOP.STRAP, 26, 8⟩
abbrev TOP.STRAP_XOFREQ : Fld := ⟨TOP.STRAP, 2, 0⟩
/-- `TOP.CMD`, 21. -/
abbrev TOP.CMD : Nat := 0xC
abbrev TOP.CMD_KEY : Fld := ⟨TOP.CMD, 31, 0⟩

end Sys2Proof.Machine
end

