-- ==== Sys2Proof/Machine/RegReset.lean ====
section
/-! DEFINITION. What a register reads as while nothing has written it: its table's reset value, or, where the
table names no number, the value said here. -/

namespace Sys2Proof.Machine

/-- Whether offset `o` of the block is one of the registers of a table line. -/
def RegDef.covers (d : RegDef) (inst o : Nat) : Bool :=
  decide (d.off ≤ o) && decide (o < d.off + d.count * d.stride) && decide ((o - d.off) % d.stride = 0) &&
    decide (d.inst0 ≤ inst) && decide (inst < d.inst0 + d.ninst)

/-- The table line of a register, by the address of its normal view. -/
def regAt (k : Nat) : Option RegDef :=
  let b := k % 0x1000000 / 0x10000
  (blockRegs b).find? (fun d => d.covers (b - blockFirst b) (k % 0x4000))

/-- The value that a table's reset column gives a register. -/
def RegDef.resetWord (d : RegDef) : Nat := d.fields.foldl (fun a f => a + f.rst * 2 ^ f.lo) 0

/-- Reset values that no table gives as a number. Fused and kept values are those of a device that leaves the factory and
whose flash is blank (log entry 8, DESIGN CHOICE); LND[20–29] take R150 and R167; the domain of PTP profile 0x1 is 24 (R441); before a landing
no source is routed (log entry 8, DESIGN CHOICE). -/
def specialReset (k : Nat) : Option Nat :=
  if k = TOP.ID then some 0x96402110
  else if k = TOP.STRAP then some (25000 * 2 ^ 8)
  else if k = FAB.SLOTS then some 0xFC000000
  else if k = FAB.SECVER then some 0x7F7F7F00
  else if k = SEC.STATE then some 0x40000000
  else if k = HOST.PORT .b then some 1
  else if INTR.ROUTE 0 ≤ k ∧ k < INTR.ROUTE 640 then some 0x7F
  else if 0x100000 ≤ k ∧ k < 0x300000 ∧ k % 0x10000 = 0x8 then some 0x01312D00
  else if 0x100000 ≤ k ∧ k < 0x300000 ∧ k % 0x10000 = 0xC then
    some (if 0x240000 ≤ k ∧ k < 0x2E0000 then 625 else 10)
  else if 0x980000 ≤ k ∧ k < 0xA00000 ∧ k % 0x10000 = 0x4 then some (0x20 + 24 * 2 ^ 10)
  else none

/-- What a register holds while no entry lists it. Words 3 of the MSI-X table have their mask bit at 1 (log entry 9, PRESUMED). -/
def regDefault (k : Nat) : Word :=
  match specialReset k with
  | some v => BitVec.ofNat 32 v
  | none =>
    if 0x13000 ≤ k ∧ k < 0x13400 then (if k % 16 = 12 then 1 else 0)
    else
      match regAt k with
      | some d => BitVec.ofNat 32 d.resetWord
      | none => 0

end Sys2Proof.Machine
end

