-- ==== Sys2Proof/Machine/State.lean ====
section
/-! DEFINITION. The state of the device: its registers, its memory and flash, what each unit holds beside its registers, and
the queue of the commands that wait. -/

namespace Sys2Proof.Machine

/-- The reasons a run stops with a fault. No command of this device does: what goes wrong is a bus error, a completion
code or a fault message of the device itself, and the device goes on. -/
inductive Fault where
  /-- Raised by nobody; it stands here because a fault type must have a member. Safe. -/
  | none
  deriving DecidableEq, Repr

/-- The reasons a command is refused. -/
inductive Refusal where
  /-- Raised by the dispatch for a command that has no meaning yet. Safe: the run stops. -/
  | notModelled (mnemonic : String)
  deriving DecidableEq, Repr

/-- The device. Registers are listed under the address of their normal view, port B's copy of a port-relative register
`0x1000000` above it (R588); memory under its BAR2 offset (R580); flash under its logical address (R649). -/
structure State where
  /-- Commands that wait, first in, first out. -/
  pending : List Instr := []
  /-- Extended coarse time in half-nanoseconds (R157). -/
  now : Nat := 0
  /-- How many free values the machine has taken (the model's own field, log entry 3, DESIGN CHOICE). -/
  freeCount : Nat := 0
  regs : Tab Word := []
  mem : Tab Byte := []
  /-- Inverted check bits of the words that have any, by word number (R626). -/
  ecc : Tab Nat := []
  /-- The next word of each scratchpad that its scrubber reads (R629). -/
  scrub : Tab Nat := []
  flash : Tab Byte := []
  /-- Slice results of LND[30] since the landing, newest first (R180, R240). -/
  slices : List (Option Int) := []
  top : TopCore := {}
  pwr : PwrCore := {}
  fab : FabCore := {}
  flt : FltCore := {}
  intr : IntrCore := {}
  cfg : CfgCore := {}
  hostA : HostCore := {}
  hostB : HostCore := {}
  nv : NvCore := {}
  flm : FlmCore := {}
  sec : SecCore := {}
  man : ManCore := {}
  xlk : XlkCore := {}
  eng : EngCore := {}
  lnd : Tab LndCore := []
  sel : Tab SelCore := []
  /-- Entry k of selector n under 32 n + k. -/
  ent : Tab EntCore := []
  loop : Tab LoopCore := []
  ho : Tab HoCore := []
  apl : Tab AplCore := []
  out : Tab OutCore := []
  tsc : Tab TscCore := []
  tod : Tab TodCore := []
  /-- Pending runs of each task input, by block index · 16 + task, or 0x10000 + slot · 16 + task (R394). -/
  tasks : Tab (List TaskRun) := []
  prt : Tab PrtCore := []
  pte : Tab PteCore := []
  berth : Tab Berth := []
  /-- Generation of each slot (R496), kept. -/
  gens : Tab Nat := []
  deriving DecidableEq, Repr

/-- What an unlisted byte of memory or flash reads as (R630; flash: log entry 7, DESIGN CHOICE). -/
def memDefault (_ : Nat) : Byte := 0

/-- The device right after a cold reset: RESET_N has risen, nothing is landed (R693 step 1). -/
def State.reset : State := {}

end Sys2Proof.Machine
end

