-- ==== Sys2Proof/Machine/Ops.lean ====
section
/-! DEFINITION. The named operations over registers, memory and the units' own state, the sticky bits and interrupt
sources they raise (R680 to R683), the mailboxes (R596 to R599) and the logbook (R653 to R655). Every meaning is made of these. -/

namespace Sys2Proof.Machine

/-- The content of a register, as a number. -/
def State.w (s : State) (k : Nat) : Nat := (Tab.get regDefault s.regs k).toNat

/-- Write a register whole. -/
def State.setw (s : State) (k v : Nat) : State :=
  { s with regs := Tab.set regDefault s.regs k (BitVec.ofNat 32 v) }

/-- The content of a field. -/
def State.f (s : State) (x : Fld) : Nat := s.w x.key / 2 ^ x.lo % 2 ^ x.width

/-- Whether a field is not 0. -/
def State.on (s : State) (x : Fld) : Bool := s.f x != 0

/-- The content of a field read as two's complement. -/
def State.fi (s : State) (x : Fld) : Int := toSigned x.width (s.f x)

/-- A word with one field replaced; a value too wide for the field loses its upper bits. -/
def Fld.put (x : Fld) (w v : Nat) : Nat :=
  w - w / 2 ^ x.lo % 2 ^ x.width * 2 ^ x.lo + v % 2 ^ x.width * 2 ^ x.lo

/-- Write a field. -/
def State.setf (s : State) (x : Fld) (v : Nat) : State := s.setw x.key (x.put (s.w x.key) v)

/-- Write a field with a Bool. -/
def State.setb (s : State) (x : Fld) (b : Bool) : State := s.setf x (b2n b)

/-- Write a field with a signed number. -/
def State.seti (s : State) (x : Fld) (i : Int) : State := s.setf x (ofSigned x.width i)

/-- Write a field with a signed number held at the limits of the field. -/
def State.setSat (s : State) (x : Fld) (i : Int) : State := s.seti x (satSigned x.width i)

/-- Count in a field that saturates. -/
def State.incBy (s : State) (x : Fld) (n : Nat) : State := s.setf x (satBits x.width (s.f x + n))

/-- Count one in a field that saturates. -/
def State.inc (s : State) (x : Fld) : State := s.incBy x 1

/-- Count one in a field that wraps. -/
def State.incWrap (s : State) (x : Fld) : State := s.setf x (s.f x + 1)

/-- A quotient rounded to one of its two neighbours, where the spec does not say which (log entry 4, DESIGN CHOICE). -/
def roundOpen (site : Nat) (num : Int) (den : Nat) : Int :=
  num / den + (if num % den ≠ 0 ∧ Config.roundUp site num den then 1 else 0)

/-- A free value below `2 ^ n`, taken once (log entry 3, DESIGN CHOICE). -/
def State.free (s : State) (n : Nat) : Nat := Config.freeValue s.freeCount % 2 ^ n

/-- The state after a free value is taken. -/
def State.took (s : State) : State := { s with freeCount := s.freeCount + 1 }

/-- What landing n holds. -/
def State.lndC (s : State) (n : Nat) : LndCore := Tab.get (fun _ => {}) s.lnd n

/-- Change what landing n holds. -/
def State.modLnd (s : State) (n : Nat) (g : LndCore → LndCore) : State :=
  { s with lnd := Tab.set (fun _ => {}) s.lnd n (g (s.lndC n)) }

/-- What selector n holds. -/
def State.selC (s : State) (n : Nat) : SelCore := Tab.get (fun _ => {}) s.sel n

/-- Change what selector n holds. -/
def State.modSel (s : State) (n : Nat) (g : SelCore → SelCore) : State :=
  { s with sel := Tab.set (fun _ => {}) s.sel n (g (s.selC n)) }

/-- What entry 32 n + k n holds. -/
def State.entC (s : State) (n : Nat) : EntCore := Tab.get (fun _ => {}) s.ent n

/-- Change what entry 32 n + k n holds. -/
def State.modEnt (s : State) (n : Nat) (g : EntCore → EntCore) : State :=
  { s with ent := Tab.set (fun _ => {}) s.ent n (g (s.entC n)) }

/-- What loop n holds. -/
def State.loopC (s : State) (n : Nat) : LoopCore := Tab.get (fun _ => {}) s.loop n

/-- Change what loop n holds. -/
def State.modLoop (s : State) (n : Nat) (g : LoopCore → LoopCore) : State :=
  { s with loop := Tab.set (fun _ => {}) s.loop n (g (s.loopC n)) }

/-- What the holdover unit of loop n holds. -/
def State.hoC (s : State) (n : Nat) : HoCore := Tab.get (fun _ => {}) s.ho n

/-- Change what the holdover unit of loop n holds. -/
def State.modHo (s : State) (n : Nat) (g : HoCore → HoCore) : State :=
  { s with ho := Tab.set (fun _ => {}) s.ho n (g (s.hoC n)) }

/-- What synthesiser n holds. -/
def State.aplC (s : State) (n : Nat) : AplCore := Tab.get (fun _ => {}) s.apl n

/-- Change what synthesiser n holds. -/
def State.modApl (s : State) (n : Nat) (g : AplCore → AplCore) : State :=
  { s with apl := Tab.set (fun _ => {}) s.apl n (g (s.aplC n)) }

/-- What output n holds. -/
def State.outC (s : State) (n : Nat) : OutCore := Tab.get (fun _ => {}) s.out n

/-- Change what output n holds. -/
def State.modOut (s : State) (n : Nat) (g : OutCore → OutCore) : State :=
  { s with out := Tab.set (fun _ => {}) s.out n (g (s.outC n)) }

/-- What time scale n holds. -/
def State.tscC (s : State) (n : Nat) : TscCore := Tab.get (fun _ => {}) s.tsc n

/-- Change what time scale n holds. -/
def State.modTsc (s : State) (n : Nat) (g : TscCore → TscCore) : State :=
  { s with tsc := Tab.set (fun _ => {}) s.tsc n (g (s.tscC n)) }

/-- What TODOUT line n holds. -/
def State.todC (s : State) (n : Nat) : TodCore := Tab.get (fun _ => {}) s.tod n

/-- Change what TODOUT line n holds. -/
def State.modTod (s : State) (n : Nat) (g : TodCore → TodCore) : State :=
  { s with tod := Tab.set (fun _ => {}) s.tod n (g (s.todC n)) }

/-- What task input n holds. -/
def State.tasksC (s : State) (n : Nat) : List TaskRun := Tab.get (fun _ => []) s.tasks n

/-- Change what task input n holds. -/
def State.modTasks (s : State) (n : Nat) (g : List TaskRun → List TaskRun) : State :=
  { s with tasks := Tab.set (fun _ => []) s.tasks n (g (s.tasksC n)) }

/-- What port n holds. -/
def State.prtC (s : State) (n : Nat) : PrtCore := Tab.get (fun _ => {}) s.prt n

/-- Change what port n holds. -/
def State.modPrt (s : State) (n : Nat) (g : PrtCore → PrtCore) : State :=
  { s with prt := Tab.set (fun _ => {}) s.prt n (g (s.prtC n)) }

/-- What PTP engine n holds. -/
def State.pteC (s : State) (n : Nat) : PteCore := Tab.get (fun _ => {}) s.pte n

/-- Change what PTP engine n holds. -/
def State.modPte (s : State) (n : Nat) (g : PteCore → PteCore) : State :=
  { s with pte := Tab.set (fun _ => {}) s.pte n (g (s.pteC n)) }

/-- What slot n holds. -/
def State.berthC (s : State) (n : Nat) : Berth := Tab.get (fun _ => {}) s.berth n

/-- Change what slot n holds. -/
def State.modBerth (s : State) (n : Nat) (g : Berth → Berth) : State :=
  { s with berth := Tab.set (fun _ => {}) s.berth n (g (s.berthC n)) }

/-- What the generation of slot n holds. -/
def State.gensC (s : State) (n : Nat) : Nat := Tab.get (fun _ => 0) s.gens n

/-- Change what the generation of slot n holds. -/
def State.modGen (s : State) (n : Nat) (g : Nat → Nat) : State :=
  { s with gens := Tab.set (fun _ => 0) s.gens n (g (s.gensC n)) }

/-- What a host port holds beside its registers. -/
def State.hostC (s : State) : Port → HostCore
  | .a => s.hostA
  | .b => s.hostB

/-- Change what a host port holds. -/
def State.modHost (s : State) (p : Port) (g : HostCore → HostCore) : State :=
  match p with
  | .a => { s with hostA := g s.hostA }
  | .b => { s with hostB := g s.hostB }

/-- A byte of memory, by BAR2 offset. -/
def State.byte (s : State) (a : Nat) : Byte := Tab.get memDefault s.mem a

/-- Write a byte of memory. -/
def State.setByte (s : State) (a : Nat) (b : Byte) : State := { s with mem := Tab.set memDefault s.mem a b }

/-- Bytes of memory from an offset on. -/
def State.bytes (s : State) (a n : Nat) : List Byte := Tab.range memDefault s.mem a n

/-- Write bytes of memory from an offset on. -/
def State.setBytes (s : State) (a : Nat) (bs : List Byte) : State :=
  { s with mem := Tab.setList memDefault s.mem a bs }

/-! Interrupts. -/

/-- Whether the source is masked at a port; source 65 ignores its mask (R681). -/
def State.masked (s : State) (p : Port) (n : Nat) : Bool :=
  n != 65 && bitAt (s.w (INTR.MASK p (n / 32))) (n % 32)

/-- Whether the source is pending at a port (R680). -/
def State.pend (s : State) (p : Port) (n : Nat) : Bool := bitAt (s.w (INTR.PEND p (n / 32))) (n % 32)

/-- A bit of a register set to 1. -/
def State.setBit (s : State) (k i : Nat) : State := s.setf ⟨k, i, i⟩ 1

/-- The destination of a source at port A (R106). -/
def State.destA (s : State) (n : Nat) : Nat := s.f (INTR.ROUTE_DEST_A n)

/-- Whether the source is routed to port B's pin (R106). -/
def State.destB (s : State) (n : Nat) : Bool := s.on (INTR.ROUTE_PIN_B n)

/-- Whether the source is due at a port (R681). -/
def State.due (s : State) (p : Port) (n : Nat) : Bool :=
  s.pend p n && !s.masked p n &&
    (match p with | .a => decide (s.destA n ≤ 0x40) | .b => s.destB n)

/-- Whether `IRQA_N` is asserted for a due source: routed to the pin, or to a vector without MSI-X (R681). -/
def State.onPinA (s : State) (n : Nat) : Bool := s.due .a n && (s.destA n == 0x40 || !s.intr.msix)

/-- Sources due at a port, `INTR.STATUS.DUE` (R681). -/
def State.dueCount (s : State) (p : Port) : Nat := ((List.range 640).filter (fun n => s.due p n)).length

/-- Whether `IRQA_N` is asserted (R681). -/
def State.irqA (s : State) : Bool := (List.range 640).any (fun n => s.onPinA n)

/-- Whether `IRQB_N` is asserted (R681). -/
def State.irqB (s : State) : Bool := (List.range 640).any (fun n => s.due .b n)

/-- Word 3 of the MSI-X table entry of a vector (R577). -/
def msixCtrl (v : Nat) : Nat := 0x13000 + 16 * v + 12

/-- The word of the pending-bit array that holds a vector. -/
def msixPba (v : Nat) : Nat := 0x13800 + 4 * (v / 32)

/-- Send the message of a vector, or mark it pending while the vector is masked (R682). -/
def State.message (s : State) (v : Nat) : State :=
  if bitAt (s.w (msixCtrl v)) 0 then s.setBit (msixPba v) (v % 32)
  else { s with intr := { s.intr with
    sent := Tab.set (fun _ => 0) s.intr.sent v ((Tab.get (fun _ => 0) s.intr.sent v + 1) % 2 ^ 32) } }

/-- A source has become due at port A: with MSI-X enabled its vector sends a message (R682). -/
def State.dueMessage (s : State) (n : Nat) : State :=
  if s.intr.msix && s.due .a n && decide (s.destA n < 0x40) then s.message (s.destA n) else s

/-- From the start of a full reset until the landing, raisings are recorded in HIST only (R683). -/
def State.histOnly (s : State) : Bool := s.top.inFull

/-! What the image that last landed builds. -/

/-- The loops, selectors and landings that the image built. -/
def State.loopRecs (s : State) : List LoopRec := (s.fab.img.map (·.loops)).getD []
/-- See `State.loopRecs`. -/
def State.selRecs (s : State) : List SelectorRec :=
  ((s.fab.img.map (·.selectors)).getD []).filter (fun r => s.loopRecs.any (fun l => l.inKind == 0 && l.inIdx == r.selector))
/-- See `State.loopRecs`. -/
def State.lndRecs (s : State) : List LandingRec := (s.fab.img.map (·.landings)).getD []

/-- Whether the image built a loop. -/
def State.loopBuilt (s : State) (l : Nat) : Bool := s.loopRecs.any (fun r => r.loop == l)

/-- Whether the image built a selector; one that no loop is bound to is unbuilt (R82). -/
def State.selBuilt (s : State) (n : Nat) : Bool := s.selRecs.any (fun r => r.selector == n)

/-- Whether the image built a landing: with a record, or without one as R77 says. -/
def State.lndBuilt (s : State) (n : Nat) : Bool :=
  match s.fab.img with
  | none => false
  | some i => n == 30 || (decide (20 ≤ n) && decide (n ≤ 27) && i.ports.any (fun r => r.port == n - 20 && r.mode != 0)) ||
      ((n == 28 || n == 29) && i.xlk.isSome) || s.lndRecs.any (fun r => r.landing == n)

/-- The output records of the image that last landed. -/
def State.outRecs (s : State) : List OutputRec := (s.fab.img.map (·.outputs)).getD []

/-- The record of an output. -/
def State.outRec (s : State) (m : Nat) : Option OutputRec := s.outRecs.find? (fun r => r.number == m)

/-- The ports, synthesisers, outputs and time scales that the image built. -/
def State.prtBuilt (s : State) (n : Nat) : Bool :=
  ((s.fab.img.map (·.ports)).getD []).any (fun r => r.port == n && r.mode != 0)
/-- See `State.prtBuilt`. -/
def State.aplBuilt (s : State) (n : Nat) : Bool := ((s.fab.img.map (·.synths)).getD []).any (fun r => r.number == n)
/-- See `State.prtBuilt`. -/
def State.tscBuilt (s : State) (k : Nat) : Bool := ((s.fab.img.map (·.timescales)).getD []).any (fun r => r.index == k)
/-- See `State.prtBuilt`. -/
def State.xlkBuilt (s : State) : Bool := (s.fab.img.bind (·.xlk)).isSome

/-- Whether a block of register space is built (R51, R76, R102, R583). -/
def State.built (s : State) (b : Nat) : Bool :=
  if b ≤ 0x0C ∨ b = 0xA1 then true
  else if 0x10 ≤ b ∧ b ≤ 0x2F then s.lndBuilt (b - 0x10)
  else if 0x30 ≤ b ∧ b ≤ 0x3F then s.selBuilt (b - 0x30)
  else if 0x40 ≤ b ∧ b ≤ 0x5F then s.loopBuilt (b - 0x40)
  else if 0x60 ≤ b ∧ b ≤ 0x67 then s.aplBuilt (b - 0x60)
  else if 0x68 ≤ b ∧ b ≤ 0x83 then (s.outRec (b - 0x68)).isSome
  else if 0x88 ≤ b ∧ b ≤ 0x8F then s.tscBuilt (b - 0x88)
  else if 0x90 ≤ b ∧ b ≤ 0x97 then s.prtBuilt (b - 0x90)
  else if 0x98 ≤ b ∧ b ≤ 0x9F then s.prtBuilt (b - 0x98)
  else if b = 0xA0 then s.xlkBuilt
  else false

/-- The block whose interrupt source a number is; 0 for the device itself (R190, R226, R270, R326, R365, R399, R439, R490, R552). -/
def sourceBlock (n : Nat) : Nat :=
  if n < 96 then 0
  else if n < 192 then 0x10 + (n - 96) / 3
  else if n < 256 then 0x40 + (n - 192) / 2
  else if n < 264 then 0
  else if n < 280 then 0x60 + (n - 264) / 2
  else if n < 308 then 0x68 + (n - 280)
  else if n < 340 then 0x30 + (n - 308) / 2
  else if n < 372 then 0x88 + (n - 340) / 4
  else if n < 436 then 0x90 + (n - 372) / 8
  else if n < 500 then 0x98 + (n - 436) / 8
  else if n < 516 then 0xA0
  else 0

/-- The source is one of a block that the image in force does not build (R76). -/
def State.sourceUnbuilt (s : State) (n : Nat) : Bool := s.fab.img.isSome && !s.built (sourceBlock n)

/-- Raise an interrupt source (R680); one of an unbuilt block is never raised (R76). -/
def State.raise (s : State) (n : Nat) : State :=
  if s.sourceUnbuilt n then s
  else
    let s := s.setBit (INTR.HIST (n / 32)) (n % 32)
    if s.histOnly then s
    else
      let fresh := !s.pend .a n
      let s := (s.setBit (INTR.PEND .a (n / 32)) (n % 32)).setBit (INTR.PEND .b (n / 32)) (n % 32)
      if fresh then s.dueMessage n else s

/-- The interrupt source that a sticky bit raises when it goes from 0 to 1: bit `b` of the register at offset `o` of block
`blk` (R190, R226, R270, R299, R326, R365, R399, R400, R439, R490, R522, R552, R576, R617, R660, R684). -/
def stickySource (k b : Nat) : Option Nat :=
  let blk := k / 0x10000 % 0x100
  let o := k % 0x10000
  if blk = 0x01 then (if o = 0x4 then some ((if k ≥ 0x1000000 then 48 else 32) + b) else none)
  else if blk = 0x03 then (if o = 0x4 then some (64 + b) else if o = 0x8 then some (72 + b) else none)
  else if blk = 0x06 then (if o = 0x2C then some (516 + b) else none)
  else if blk = 0x07 then (if o = 0x4 then some (532 + b) else none)
  else if blk = 0x08 then (if o = 0x4 then some (540 + b) else none)
  else if blk = 0x0A then (if o = 0x0 then some (564 + b) else none)
  else if blk = 0x0C then (if o = 0x8 then some (256 + b) else none)
  else if 0x10 ≤ blk ∧ blk ≤ 0x2F then
    (if o = 0x24 then
      some (96 + 3 * (blk - 0x10) + (if b = 5 ∨ b = 6 then 0 else if b = 7 then 1 else 2)) else none)
  else if 0x30 ≤ blk ∧ blk ≤ 0x3F then
    (if o = 0xC then some (308 + 2 * (blk - 0x30))
     else if 0x100 ≤ o ∧ o % 0x20 = 0x8 then some (309 + 2 * (blk - 0x30)) else none)
  else if 0x40 ≤ blk ∧ blk ≤ 0x5F then
    (if o = 0x18 then
      some (192 + 2 * (blk - 0x40) + (if b ≤ 5 ∨ b = 12 then 0 else 1))
     else if o = 0x124 then some (193 + 2 * (blk - 0x40)) else none)
  else if 0x60 ≤ blk ∧ blk ≤ 0x67 then
    (if o = 0x8 then some (264 + 2 * (blk - 0x60) + (if b ≤ 1 then 0 else 1)) else none)
  else if 0x68 ≤ blk ∧ blk ≤ 0x83 then (if o = 0xC then some (280 + (blk - 0x68)) else none)
  else if 0x88 ≤ blk ∧ blk ≤ 0x8F then
    (if o = 0x8 then
      some (340 + 4 * (blk - 0x88) + (if b = 2 then 0 else if b = 3 ∨ b = 4 then 1 else if b = 0 then 3 else 2))
     else none)
  else if 0x90 ≤ blk ∧ blk ≤ 0x97 then
    (if o = 0xC then
      some (372 + 8 * (blk - 0x90) +
        (if b = 0 then 0 else if b = 4 then 1 else if b = 5 ∨ b = 1 then 2 else if b = 6 then 3
         else if b = 3 then 4 else if b = 7 then 5 else if b = 8 ∨ b = 9 then 6 else 7))
     else none)
  else if 0x98 ≤ blk ∧ blk ≤ 0x9F then
    (if o = 0x40 then
      some (436 + 8 * (blk - 0x98) +
        (if b = 0 then 0 else if b = 2 ∨ b = 3 then 1 else if b = 4 then 2 else if b = 5 then 3 else if b = 6 then 4
         else if b = 7 ∨ b = 8 ∨ b = 9 then 5 else if b = 10 ∨ b = 11 then 6 else 7))
     else none)
  else if blk = 0xA0 then (if o = 0xC then some (500 + b) else none)
  else if blk = 0xA1 then (if o = 0x24 then some (548 + b) else none)
  else none

/-- Set a sticky bit; when it goes from 0 to 1 its interrupt source is raised. -/
def State.ev (s : State) (x : Fld) : State :=
  if s.on x then s
  else
    match stickySource x.key x.lo with
    | some n => (s.setf x 1).raise n
    | none => s.setf x 1

/-- Set a sticky bit when a condition holds. -/
def State.evIf (s : State) (c : Bool) (x : Fld) : State := if c then s.ev x else s

/-! Mailboxes. -/

/-- The input an operation of `n` words finds in the mailbox of a port: none unless it is host-filled with `n`
words or more (R597). -/
def State.mboxIn (s : State) (p : Port) (n : Nat) : Option (List Word) :=
  if s.on (HOST.MBOX_STAT_VALID p) && !s.on (HOST.MBOX_STAT_DEVICE p) && decide (n ≤ s.f (HOST.MBOX_STAT_LEN p)) then
    some ((List.range n).map (fun k => BitVec.ofNat 32 (s.w (HOST.MBOX p k))))
  else none

/-- Every word the host has committed, for operations that take what there is. -/
def State.mboxAll (s : State) (p : Port) : Option (List Word) := s.mboxIn p (s.f (HOST.MBOX_STAT_LEN p))

/-- The mailbox becomes empty (R597, R598). -/
def State.mboxEmpty (s : State) (p : Port) : State := s.setw (HOST.MBOX_STAT p) 0

/-- Write mailbox words from word `k` on. -/
def State.mboxWords (s : State) (p : Port) : Nat → List Word → State
  | _, [] => s
  | k, v :: vs => (s.setw (HOST.MBOX p k) v.toNat).mboxWords p (k + 1) vs

/-- Place the output of an operation (R598, R599). -/
def State.mboxOut (s : State) (p : Port) (ws : List Word) : State :=
  let s := s.evIf (s.on (HOST.MBOX_STAT_VALID p)) (HOST.EVENT_MBOX_OVERWRITE p)
  let s := s.mboxWords p 0 ws
  let s := s.setw (HOST.MBOX_STAT p) (0xC0000000 + ws.length)
  s.ev (HOST.EVENT_MBOX_OUT p)

/-! The logbook. -/

/-- Uptime in ms: the extended coarse time (R157, R653). -/
def State.uptimeMs (s : State) : Nat := s.now / 2000000

/-- The whole nanoseconds of a time scale within its second, and the fraction in 2⁻³² ns (R366). -/
def TscCore.ns (c : TscCore) : Nat := c.sub / 2 ^ 56
/-- See `TscCore.ns`. -/
def TscCore.frac (c : TscCore) : Nat := c.sub / 2 ^ 24 % 2 ^ 32

/-- The 60 bytes of a logbook record before its CRC (R653). -/
def State.logHead (s : State) (seq kind source : Nat) (data : List Byte) : List Byte :=
  let t := s.f NV.CFG_LOG_TSC
  let c := s.tscC t
  beBytes 8 seq ++ beBytes 4 s.nv.boots ++ beBytes 6 s.uptimeMs ++
    beBytes 1 (t + 8 * s.f (TSC.STATUS_SET t) + 16 * s.f (TSC.STATUS_TRACEABLE t)) ++ [0] ++
    beBytes 8 c.sec ++ beBytes 4 c.ns ++ beBytes 2 kind ++ beBytes 2 source ++
    (data ++ List.replicate 24 0).take 24

/-- Make a logbook record and stage it (R653, R655). -/
def State.log (s : State) (kind source : Nat) (data : List Byte) : State :=
  let h := s.logHead s.nv.seq kind source data
  { s with nv := { s.nv with
    staged := s.nv.staged ++ [(s.nv.seq, h ++ beBytes 4 (crc32c h))]
    seq := s.nv.seq + 1 } }

/-- A record about the device as a whole (R661). -/
def State.logDev (s : State) (kind : Nat) (data : List Byte) : State := s.log kind 0x3FF data

/-- The state that an answer leaves. -/
def stateOf {α : Type} (r : State × α) : State := r.1

/-! Lists of commands' outcomes. -/

/-- Apply an operation for each number below `n`. -/
def State.forN (s : State) (n : Nat) (g : State → Nat → State) : State := (List.range n).foldl g s

/-- Apply an operation for each member of a list. -/
def State.forL {α : Type} (s : State) (l : List α) (g : State → α → State) : State := l.foldl g s

/-- Do something only when a condition holds. -/
def State.when (s : State) (c : Bool) (g : State → State) : State := if c then g s else s

end Sys2Proof.Machine
end

