-- ==== Sys2Proof/Machine/Router.lean ====
section
/-! DEFINITION. The event router: routes, task latches, merging and stale handles (R391 to R396), and what a "stamp"
task will record (R384, R385). -/

namespace Sys2Proof.Machine

/-- KIND, GEN and SLOT of a handle (R10). -/
def hKind (h : Nat) : Nat := h / 2 ^ 28 % 16
/-- See `hKind`. -/
def hGen (h : Nat) : Nat := h / 2 ^ 16 % 2 ^ 12
/-- See `hKind`. -/
def hSlot (h : Nat) : Nat := h % 2 ^ 16

/-- The handle of KIND, GEN and SLOT (R10). -/
def mkHandle (kind gen slot : Nat) : Nat := kind * 2 ^ 28 + gen % 2 ^ 12 * 2 ^ 16 + slot

/-- Whether a handle names the berth that its slot holds (R495). -/
def State.current (s : State) (h : Nat) : Bool :=
  let b := s.berthC (hSlot h)
  b.kind != 0 && b.kind == hKind h && s.gensC (hSlot h) == hGen h

/-- The value of a time scale in units of 2⁻⁵⁶ ns (R366). -/
def TscCore.val (c : TscCore) : Int := ((c.sec * 1000000000 * 2 ^ 56 + c.sub : Nat) : Int)

/-- A run of a task of a block: nothing is recorded. -/
def plainRun (e : Nat) : TaskRun := ⟨e, 0, .gap, 0, false⟩

/-- The tag of a record on time scale k (R384). -/
def State.recordTag (s : State) (k : Nat) (t : Tag) : Tag := if s.on (TSC.STATUS_SET k) then t else t.max .suspect

/-- A run that records the latest stamped edge of a landing on time scale k, when it has stamped one since a time; GAP where the event is
an edge of that landing whose stamp was invalid (R384, R385). -/
def State.edgeRun (s : State) (n since k e : Nat) : TaskRun :=
  let c := s.lndC n
  let ok := !(e == n && c.badEdge) && (match c.lastStamped with | some t => decide (since ≤ t) | none => false)
  if ok then ⟨e, c.vals.getD k 0, s.recordTag k c.stampTag, c.stampEdge, false⟩ else plainRun e

/-- A home landing is at work: enabled and in stamp mode (R385). -/
def State.homeServes (s : State) (n : Nat) : Bool := s.on (LND.CTRL_ENABLE n) && s.on (LND.CTRL_MODE n)

/-- How long ago, in 2⁻⁵⁶ ns of time scale k, something lay that is d / 2⁵⁶ ns back on a clock that moves by `rate` / 2⁵⁶ ns in a tick; time
scale k moved as its last tick did (R367, R374). -/
def State.onScale (s : State) (k : Nat) (d rate : Int) : Int := d * (s.tscC k).adv / rate

/-- The run of a berth's "stamp" task for an event (R384, R385). -/
def State.berthRun (s : State) (slot e : Nat) : TaskRun :=
  let b := s.berthC slot
  let k := b.tsc
  let v := (s.tscC k).val
  let tag := s.recordTag k .valid
  if b.home < 32 then (if s.homeServes b.home then s.edgeRun b.home b.madeAt k e else plainRun e)
  else if e < 0x60 then s.edgeRun (e % 32) 0 k e
  else if 0x90 ≤ e ∧ e < 0x98 then
    let c := s.tscC (e - 0x90)
    ⟨e, v - s.onScale k c.sub c.adv, tag, 0, false⟩
  else if 0xC0 ≤ e ∧ e < 0xD8 then
    let o := s.outC (e - 0xC0)
    let a := s.f (OUT.CFG_ANCHOR (e - 0xC0))
    let past : Int := ((o.pcSec * 1000000000 * 2 ^ 56 + o.pcSub : Nat) : Int) - o.offPs * 2 ^ 56 / 1000
    ⟨e, v - s.onScale k (past % ((max 1 o.perNs : Nat) * 2 ^ 56 : Int)) (2 ^ 56 + (s.tscC a).y), tag, 0, false⟩
  else ⟨e, v, tag, 0, true⟩

/-- The key of a block's task input. -/
def taskKey (block task : Nat) : Nat := block * 16 + task
/-- The key of a berth's task input. -/
def berthTaskKey (slot task : Nat) : Nat := 0x10000 + slot * 16 + task

/-- Put a run into the latch of a task input; while both positions are full the event is merged (R394). -/
def State.latch (s : State) (key : Nat) (r : TaskRun) : State :=
  if (s.tasksC key).length < 2 then s.modTasks key (· ++ [r])
  else
    let s := (s.inc EVR.MERGE_CNT_COUNT).ev EVR.EVENT_MERGE
    let (b, t) := if key < 0x10000 then (0, key / 16) else (1, (s.berthC ((key - 0x10000) / 16)).ordinal)
    s.setw EVR.MERGE_LAST (b * 2 ^ 13 + t * 16 + key % 16)

/-- The live routes that name an event, in ascending index (R391). -/
def State.routesOf (s : State) (e : Nat) : List Nat :=
  s.regs.filterMap (fun x =>
    if EVR.ROUTE_SRC 0 ≤ x.1 ∧ x.1 < EVR.ROUTE_SRC 256 ∧ x.1 % 16 = 0 ∧ bitAt x.2.toNat 31 ∧
      x.2.toNat % 2 ^ 12 = e then some ((x.1 - EVR.ROUTE_SRC 0) / 16) else none)

/-- Deliver an event along one route (R394, R395); an IDLE berth takes nothing (R498). -/
def State.deliver (s : State) (e r : Nat) : State :=
  let task := s.f (EVR.ROUTE_DST_TASK r)
  if s.on (EVR.ROUTE_DST_BERTH r) then
    let h := s.w (EVR.ROUTE_ARG r)
    if s.current h && hKind h == 3 then
      s.when (s.berthC (hSlot h)).live (fun s => s.latch (berthTaskKey (hSlot h) task) (s.berthRun (hSlot h) e))
    else (s.inc EVR.STALE_CNT_COUNT).ev EVR.EVENT_STALE
  else s.latch (taskKey (s.f (EVR.ROUTE_DST_BLOCK r)) task) (plainRun e)

/-- Present an event to the router (R391, R394). -/
def State.route (s : State) (e : Nat) : State := s.forL (s.routesOf e) (fun s r => s.deliver e r)

/-- The oldest pending run of a task input, and the state with it taken (R394). -/
def State.takeRun (s : State) (key : Nat) : Option (TaskRun × State) :=
  match s.tasksC key with
  | [] => none
  | r :: t => some (r, s.modTasks key (fun _ => t))

end Sys2Proof.Machine
end

