-- ==== Sys2Proof/Machine/PortTx.lean ====
section
/-! DEFINITION. Stamps as time-scale values, the transmit side of a port, its counters and time-stamp queue, and the event
queues of event berths: what the ESMC, PTP, host and berth machinery all send through (R366, R411 to R423, R434, R438, R505 to
R508). -/

namespace Sys2Proof.Machine

/-- The value of a time scale as the five words of records and mailboxes give it: FRAC, NS, SECONDS low, SECONDS high. -/
def Stamp.words (t : Stamp) : List Word :=
  [BitVec.ofNat 32 t.frac, BitVec.ofNat 32 t.ns, BitVec.ofNat 32 t.sec, BitVec.ofNat 32 (t.sec / 2 ^ 32)]

/-- A stamp from a value in units of 2⁻³² ns. -/
def Stamp.ofFrac (v : Int) (tag : Tag) : Stamp :=
  let n := v.toNat
  ⟨n / (1000000000 * 2 ^ 32), n % (1000000000 * 2 ^ 32) / 2 ^ 32, n % 2 ^ 32, tag⟩

/-- The value of a stamp in units of 2⁻³² ns. -/
def Stamp.val (t : Stamp) : Int := ((t.sec * 1000000000 + t.ns) * 2 ^ 32 + t.frac : Nat)

/-- A time scale with another value; a value below 0 is held at 0 (log entry 24, DESIGN CHOICE). -/
def TscCore.withVal (c : TscCore) (v : Int) : TscCore :=
  { c with sec := v.toNat / (1000000000 * 2 ^ 56), sub := v.toNat % (1000000000 * 2 ^ 56) }

/-- Extended coarse time, value and increment of a time scale at the last tick at or before an instant in units of T / 2²⁰: as they stand,
or of one of the ticks that are kept (R368). -/
def State.tickBefore (s : State) (k : Nat) (t : Int) : Nat × Int × Int :=
  let c := s.tscC k
  let cur := (s.now, c.val, c.y)
  ((cur :: c.past).find? (fun x => decide (((x.1 * 2 ^ 20 : Nat) : Int) ≤ t))).getD (c.past.getLast?.getD cur)

/-- The value of a time scale at an instant of the extended coarse time in units of T / 2²⁰: that of the last tick at or before it, plus the
remaining interval times (1 + y) (R368). -/
def State.tscAt (s : State) (k : Nat) (t : Int) : Int :=
  let x := s.tickBefore k t
  x.2.1 + (t - ((x.1 * 2 ^ 20 : Nat) : Int)) * (2 ^ 56 + x.2.2) / 2 ^ 21

/-- The unit interval of a port's mode, as a fraction of ps with denominator 33 (R412). -/
def uiNum (mode : Nat) : Nat := if mode = 0 then 3200 else 1280

/-- The stamp of a frame from what the time-stamp unit captured (R411, R412, R415): `fixed` and `adj` are subtracted on receive
and added on transmit. -/
def State.frameStamp (s : State) (k : Nat) (c : StampCap) (ui : Nat) (shift : Int) (tag : Tag) : Stamp :=
  let base : Int := (s.tscC k).val * 1000 / 2 ^ 56 + c.edgePs + shift
  let ps := roundNear (base * 33 + c.pos * ui) 33
  let n := ps.toNat
  ⟨n / 10 ^ 12, n % 10 ^ 12 / 1000, (n % 1000 * 2 ^ 32 + 500) / 1000,
    if !c.ok then .gap else if !s.on (TSC.STATUS_SET k) then .suspect else tag⟩

/-- The time scale of a port (R42). -/
def State.prtTsc (s : State) (n : Nat) : Nat := s.f (PRT.CFG_TSC n)

/-- The tag that a port's stamps carry beside their own faults (R415). -/
def State.prtTag (s : State) (n : Nat) : Tag := if s.on (PRT.STATUS_SETTLING n) then .settle else .valid

/-- Ingress stamp at a port (R412). -/
def State.rxStamp (s : State) (n : Nat) (c : StampCap) : Stamp :=
  s.frameStamp (s.prtTsc n) c (uiNum (s.f (PRT.CFG_MODE n)))
    (-(s.f (PRT.TS_RX_PS n) : Int) - s.fi (PRT.TS_ADJ_RX_ADJ n)) (s.prtTag n)

/-- Egress stamp at a port (R412). -/
def State.txStamp (s : State) (n : Nat) (c : StampCap) : Stamp :=
  s.frameStamp (s.prtTsc n) c (uiNum (s.f (PRT.CFG_MODE n)))
    ((s.f (PRT.TS_TX_PS n) : Int) + s.fi (PRT.TS_ADJ_TX_ADJ n)) (s.prtTag n)

/-! Counters. -/

/-- The width of the counter at an index of the statistics record (R438). -/
def statWidth (i : Nat) : Nat := if i = 1 ∨ i = 3 then 64 else if i ≥ 24 then 16 else 32

/-- A counter of a port. -/
def PrtCore.stat (c : PrtCore) (i : Nat) : Nat := (c.stats ++ List.replicate 26 0).getD i 0

/-- Count in a counter of a port; counters saturate (R438). -/
def PrtCore.addStat (c : PrtCore) (i v : Nat) : PrtCore :=
  { c with stats := (List.range 26).map (fun j =>
      if j = i then satBits (statWidth j) (c.stat j + v) else c.stat j) }

/-- Count one in a counter of a port. -/
def State.count (s : State) (n i : Nat) : State := s.modPrt n (fun c => c.addStat i 1)

/-! Event-berth queues. -/

/-- Queue a record at an event berth: words 0 to 5 without LOST (R505, R506, R508). -/
def State.evqPush (s : State) (slot : Nat) (ws : List Word) : State :=
  let b := s.berthC slot
  if b.kind ≠ 3 then s
  else if b.ev.q.length ≥ 24 then
    let s := (s.inc MAN.EVQ_OVF_COUNT).ev MAN.EVENT_EVQ_OVF
    s.modBerth slot (fun b => { b with ev := { b.ev with lost := true } })
  else
    let w0 := (ws.getD 0 0).toNat + (if b.ev.lost then 2 ^ 27 else 0)
    let r := (BitVec.ofNat 32 w0 :: ws.drop 1) ++ [BitVec.ofNat 32 b.ev.seq, 0]
    let s := s.modBerth slot (fun b => { b with
      ev := { b.ev with q := b.ev.q ++ [r], lost := false, seq := (b.ev.seq + 1) % 2 ^ 32 } })
    let s := s.route (0x100 + b.ordinal)
    if b.ev.q.isEmpty then s.raise (580 + b.ordinal / 16) else s

/-- Words 0 to 5 of an event-queue record (R508): words 1 to 5 are 0 when the tag is GAP. -/
def evqWords (tag : Tag) (kind : Nat) (routed : Bool) (event : Nat) (t : Option Stamp) (idx : Nat) : List Word :=
  let w0 := BitVec.ofNat 32 (tag.num * 2 ^ 30 + kind * 2 ^ 28 + (if routed then 2 ^ 26 else 0) + event)
  match t with
  | some t => if tag = .gap then [w0, 0, 0, 0, 0, 0] else w0 :: (t.words ++ [BitVec.ofNat 32 idx])
  | none => [w0, 0, 0, 0, 0, 0]

/-! Transmit. -/

/-- Put an entry into the time-stamp queue of a port (R422, R423). -/
def State.tsqPush (s : State) (n id : Nat) (t : Option Stamp) : State :=
  let c := s.prtC n
  if c.tsq.length ≥ 64 then
    ((s.modPrt n (fun c => { c.addStat 23 1 with tsqLost := true })).ev (PRT.EVENT_TSQ_OVF n))
  else
    let s := s.modPrt n (fun c => { c with tsq := c.tsq ++ [⟨c.tsqLost, id, t⟩], tsqLost := false })
    let s := s.setf (PRT.STATUS_TSQ_LEVEL n) (c.tsq.length + 1)
    s.evIf c.tsq.isEmpty (PRT.EVENT_TSQ n)

/-- Octets of a PTP message with its header and TLVs (R440, R479; IEEE 1588-2019 formats, log entry 21, DESIGN CHOICE). -/
def ptpLen (m : PtpMsg) : Nat :=
  34 + (match m.kind with
    | .sync | .delayReq | .followUp => 10
    | .delayResp => 20
    | .announce => 30
    | _ => 10 + 10 * m.tlvs.length) + (if m.auth.isSome then 26 else 0)

/-- Octets of a frame from the destination address to the end of the payload, at least 60. -/
def TxFrame.len (f : TxFrame) : Nat :=
  match f.body with
  | .raw b => max 60 b.length
  | .ptp m | .ptp6 m _ => max 60 (14 + 4 * m.tags.length + ptpLen m +
      (match m.dst with | .mac _ => 0 | .v4 _ => 28 | .v6 _ => 50))

/-- The frame is an event frame: its stamp is awaited (R419). -/
def TxFrame.isEvent (f : TxFrame) : Bool :=
  match f.owner with
  | .none | .announce _ => false
  | _ => true

/-- Queue 4 is the express class (R416). -/
def PrtCore.queue (c : PrtCore) : Nat → List TxFrame
  | 4 => c.qx | 3 => c.q3 | 2 => c.q2 | 1 => c.q1 | _ => c.q0

/-- Replace a queue. -/
def PrtCore.withQueue (c : PrtCore) (q : Nat) (l : List TxFrame) : PrtCore :=
  match q with
  | 4 => { c with qx := l } | 3 => { c with q3 := l } | 2 => { c with q2 := l }
  | 1 => { c with q1 := l } | _ => { c with q0 := l }

/-- All queued frames in the order of transmission (R417). -/
def PrtCore.queued (c : PrtCore) : List TxFrame := c.qx ++ c.q3 ++ c.q2 ++ c.q1 ++ c.q0

/-- Octets taken in the transmit half of the port buffer. -/
def PrtCore.txUsed (c : PrtCore) : Nat := (c.queued.map TxFrame.len).sum

/-- Octets left free in the transmit half of the port buffer (R420, R426). -/
def State.txFree (s : State) (n : Nat) : Nat := s.f (PRT.CFG_BUFS n) * 262144 - (s.prtC n).txUsed

/-- The highest queue that holds a frame (R417). -/
def PrtCore.firstQueue (c : PrtCore) : Option Nat := [4, 3, 2, 1, 0].find? (fun q => !(c.queue q).isEmpty)

/-- The port may transmit: it is up, not halted by received pause (R406, R429), and no fault is signalled (R401; log entry 85,
PRESUMED). -/
def State.canSend (s : State) (n : Nat) : Bool :=
  s.on (PRT.STATUS_LINK n) && !s.on (PRT.STATUS_PAUSED n) && !s.on (PRT.STATUS_DORMANT n) && !s.on (PRT.STATUS_LF n) &&
    !s.on (PRT.STATUS_RF n)

/-! Preemption (R418). -/

/-- Bits that a port sends in 16 T, by its mode. -/
def lineRate (mode : Nat) : Nat := if mode = 0 then 10 else 25

/-- When the transmission of a frame ends. -/
def wireEnd (mode : Nat) (x : Nat × Nat) : Nat := x.1 + ceilDiv (x.2 * 16) (lineRate mode)

/-- A preemptible frame of so many octets begins, when those before it have ended (R417). -/
def PrtCore.putOnWire (c : PrtCore) (mode now len : Nat) : PrtCore :=
  let l := c.onWire.filter (fun x => decide (now < wireEnd mode x))
  { c with onWire := l ++ [((l.getLast?.map (wireEnd mode)).getD now, len)] }

/-- A preemptible frame in transmission can yield: fragments of 64 octets or more, the first of 64 × (1 + ADD_FRAG), are left on either side
(R401, R418; IEEE 802.3br, log entry 90, PRESUMED). -/
def yields (mode add now : Nat) (x : Nat × Nat) : Bool :=
  let sent := (now - x.1) * lineRate mode / 16
  decide (x.1 ≤ now) && decide (64 * (1 + add) ≤ sent + 4) && decide (sent + 64 ≤ x.2)

/-- An express or PAUSE frame is ready: with preemption verified, the preemptible frame in transmission yields, and counts (R418, R428,
R438). -/
def State.preempt (s : State) (n : Nat) : State :=
  if !s.on (PRT.STATUS_PREEMPT n) then s
  else
    let y := yields (s.f (PRT.CFG_MODE n)) (s.f (PRT.CTRL_ADD_FRAG n)) s.now
    s.modPrt n (fun c => { (c.addStat 16 (c.onWire.filter y).length) with onWire := c.onWire.filter (fun x => !y x) })

/-! Reports of served messages. -/

/-- What the ledger of a tenant holds. -/
def State.ledger (s : State) (t : Nat) : Ledger := Tab.get (fun _ => {}) s.man.ledgers t

/-- Change the ledger of a tenant. -/
def State.modLedger (s : State) (t : Nat) (g : Ledger → Ledger) : State :=
  { s with man := { s.man with ledgers := Tab.set (fun _ => {}) s.man.ledgers t (g (s.ledger t)) } }

/-- A PTP engine reports a message of type 0 Sync, 1 Delay_Resp or 2 Announce for a client berth (R484, R510). -/
def State.billReport (s : State) (slot type : Nat) : State :=
  let b := s.berthC slot
  s.modLedger b.tenant (fun l =>
    if !l.isOpen then l
    else
      let l := { l with served := true, ports := if l.ports.contains b.port then l.ports else l.ports ++ [b.port] }
      if type = 0 then { l with sync := l.sync + 1 } else if type = 1 then { l with dresp := l.dresp + 1 }
      else { l with ann := l.ann + 1 })

/-- The logarithm of the interval of multicast Announce messages (R441): the profile's. -/
def mcLogAnn (profile : Nat) : Int := if profile = 1 then -3 else 1

/-- The berths that a message of an engine is reported for (R484, R548): the one it was sent to, or, for a multicast message, every
client berth of the port that has had a Delay_Req answered within three Announce intervals. -/
def State.servedBy (s : State) (n : Nat) (slot : Option Nat) : List Nat :=
  if s.f XLK.STATUS_ROLE = 2 then []
  else
    match slot with
    | some k => if (s.berthC k).kind = 1 then [k] else []
    | none =>
      s.berth.filterMap (fun x =>
        let recent : Bool := match x.2.cl.answeredAt with
          | some t => decide ((s.now - t) * 2 ^ 8 ≤ 3 * 2000000000 * 2 ^ (mcLogAnn (s.f (PTE.CTRL_PROFILE n)) + 8).toNat)
          | none => false
        if x.2.kind = 1 ∧ x.2.port = n ∧ recent then some x.1 else none)

/-- Report a message to MAN (R484). -/
def State.reportServed (s : State) (n type : Nat) (slot : Option Nat) : State :=
  s.forL (s.servedBy n slot) (fun s k => s.billReport k type)

/-- A frame leaves the port; an Announce that leaves is reported (R484). -/
def State.sent (s : State) (n q : Nat) (f : TxFrame) : State :=
  let s := s.modPrt n (fun c =>
    let c := (c.addStat 6 1).addStat 3 (f.len + 4)
    let c := if q = 4 then c.addStat 15 1 else c.putOnWire (s.f (PRT.CFG_MODE n)) s.now (f.len + 4)
    { c.withQueue q ((c.queue q).drop 1) with lastTx := some f })
  match f.owner with
  | .announce slot => s.reportServed n 2 slot
  | _ => s

/-- Send general frames while one is first in the order of transmission; an event frame waits for its stamp
(R417, log entry 22, DESIGN CHOICE). -/
def State.drain (s : State) (n : Nat) : Nat → State
  | 0 => s
  | k + 1 =>
    if !s.canSend n then s
    else
      match (s.prtC n).firstQueue with
      | none => s
      | some q =>
        match (s.prtC n).queue q with
        | [] => s
        | f :: _ => if f.isEvent then s else (s.sent n q f).drain n k

/-- Send all general frames that may leave. -/
def State.drainAll (s : State) (n : Nat) : State := s.drain n (s.prtC n).queued.length

/-- Egress contexts in use (R419). -/
def State.ctxUsed (s : State) (n : Nat) : Nat := s.f (PRT.STATUS_CTX n)

/-- The owner of an event frame learns that it was DROPPED (R434, R507). -/
def State.dropped (s : State) (n : Nat) (f : TxFrame) : State :=
  let s := s.count n 18
  match f.owner with
  | .host id => s.tsqPush n id none
  | .berth slot => s.evqPush slot (evqWords .gap 2 false 0 none 0)
  | _ => s

/-- Put a frame into a queue (R409, R416, R418, R420, R434, R435): an event frame takes a context, or is dropped while the port is down or
dormant; a dormant port takes no general frame, any other accepts one while space lasts. -/
def State.enqueue (s : State) (n q : Nat) (f : TxFrame) : State :=
  if f.isEvent && !s.on (PRT.STATUS_LINK n) then s.dropped n f
  else if s.on (PRT.STATUS_DORMANT n) then s
  else if !f.isEvent && decide (s.txFree n < f.len) then s
  else
    let s := s.when f.isEvent (fun s => s.setf (PRT.STATUS_CTX n) (s.ctxUsed n + 1))
    let s := s.modPrt n (fun c => c.withQueue q (c.queue q ++ [f]))
    (s.when (q == 4 && s.canSend n) (fun s => s.preempt n)).drainAll n

/-- PAUSE frames belong to no queue; one leaves at the next frame boundary (R428). -/
def State.sendPause (s : State) (n quanta : Nat) : State :=
  if s.on (PRT.STATUS_LINK n) then
    let b := beBytes 6 0x0180C2000001 ++ beBytes 2 (s.f (PRT.MAC_HI_ADDR n)) ++ beBytes 4 (s.w (PRT.MAC_LO n)) ++
      beBytes 2 0x8808 ++ beBytes 2 1 ++ beBytes 2 quanta ++ List.replicate 42 0
    let s := (s.preempt n).modPrt n (fun c => { (c.addStat 13 1) with lastTx := some ⟨.raw b, .none⟩, pauseSentAt := s.now })
    s.setb (PRT.STATUS_PAUSING n) (quanta != 0)
  else s

/-! ESMC. -/

/-- SSM and eSSM code of a rank in a network option, the next worse rank that has one where it has none (R202, R433): none of
the eSSM codes is sent without the extended TLV. -/
def ssmOf (opt rank : Nat) : Nat × Nat :=
  if opt = 0 then
    if rank ≤ 1 then (0x2, 0x21) else if rank = 2 then (0x2, 0x20) else if rank = 3 then (0x2, 0x23)
    else if rank = 4 then (0x2, 0xFF) else if rank ≤ 6 then (0x4, 0xFF) else if rank ≤ 8 then (0x8, 0xFF)
    else if rank ≤ 0xA then (0xB, 0x22) else if rank = 0xB then (0xB, 0xFF) else (0xF, 0xFF)
  else
    if rank ≤ 1 then (0x1, 0x21) else if rank = 2 then (0x1, 0x20) else if rank = 3 then (0x1, 0x23)
    else if rank = 4 then (0x1, 0xFF) else if rank = 5 then (0x0, 0xFF) else if rank = 6 then (0x7, 0xFF)
    else if rank = 7 then (0x4, 0xFF) else if rank ≤ 9 then (0xD, 0xFF) else if rank = 0xA then (0xA, 0x22)
    else if rank = 0xB then (0xA, 0xFF) else if rank = 0xC then (0xC, 0xFF) else if rank = 0xD then (0xE, 0xFF)
    else (0xF, 0xFF)

/-- The rank that a port sends in ESMC (R432). -/
def State.esmcTxRank (s : State) (n : Nat) : Nat :=
  let k := s.f (PRT.ESMC_SEL n)
  if k ≥ 16 then s.f (PRT.ESMC_FREE_QL n)
  else
    let st := s.f (SEL.STATUS_STATE k)
    let act := s.f (SEL.STATUS_ACTIVE k)
    if act < 30 ∧ s.f (SEL.CAND_CFG_WHO k act) = 20 + n then 0xE
    else if st = 1 ∨ st = 4 then s.f (SEL.STATUS_ACTIVE_RANK k)
    else if st = 2 then (s.prtC n).esmcRank
    else if st = 3 then s.f (PRT.ESMC_HO_QL n)
    else s.f (PRT.ESMC_FREE_QL n)

/-- What the entry that a selector follows has told of cascaded eEEC and EEC counts: an ESMC entry's port. -/
def State.cascaded (s : State) (k : Nat) : Nat × Nat :=
  let a := s.f (SEL.STATUS_ACTIVE k)
  let w := s.f (SEL.CAND_CFG_WHO k a)
  if a < 30 ∧ 20 ≤ w ∧ w < 28 then (s.prtC (w - 20)).esmcCnt else (0, 0)

/-- The cascaded eEEC and EEC counts: those received, and this node's own, of the loop of the port's selector (R433; log entry 23,
PRESUMED). -/
def State.esmcCounts (s : State) (n : Nat) : Nat × Nat :=
  let k := s.f (PRT.ESMC_SEL n)
  let l := (List.range 32).find? (fun l =>
    s.f (LOOP.CFG_INKIND l) = 0 ∧ s.f (LOOP.CFG_INIDX l) = k ∧ s.f (LOOP.CFG_PRESET l) ≤ 1)
  let c := s.cascaded k
  match l with
  | some l => if s.f (LOOP.CFG_PRESET l) = 1 then (min 255 (c.1 + 1), c.2) else (c.1, min 255 (c.2 + 1))
  | none => c

/-- Send an ESMC PDU, information or event (R432, R433; G.8264 layout, log entry 23, PRESUMED). -/
def State.esmcSend (s : State) (n : Nat) (event : Bool) : State :=
  let r := s.esmcTxRank n
  let q := ssmOf (s.f (PRT.ESMC_OPT n)) r
  let c := s.esmcCounts n
  let tlv := if s.on (PRT.ESMC_ETLV n) then
      [2, 0, 0x14] ++ beBytes 1 q.2 ++ beBytes 4 (s.w (PTE.CLOCK_ID_HI n)) ++ beBytes 4 (s.w (PTE.CLOCK_ID_LO n)) ++
        [0] ++ beBytes 1 c.1 ++ beBytes 1 c.2 ++ List.replicate 5 0
    else []
  let b := beBytes 6 0x0180C2000002 ++ beBytes 2 (s.f (PRT.MAC_HI_ADDR n)) ++ beBytes 4 (s.w (PRT.MAC_LO n)) ++
    beBytes 2 0x8809 ++ [0x0A] ++ beBytes 3 0x0019A7 ++ beBytes 2 1 ++ beBytes 1 (0x10 + 8 * b2n event) ++
    [0, 0, 0, 1, 0, 4] ++ beBytes 1 q.1 ++ tlv
  let s := s.modPrt n (fun c => { c with esmcRank := r })
  s.enqueue n 3 ⟨.raw (b ++ List.replicate (60 - b.length) 0), .none⟩

/-- A change of the rank a port sends makes it send an event PDU (R432). -/
def State.esmcRefresh (s : State) : State :=
  s.forN 8 (fun s n =>
    if s.on (PRT.ESMC_TX_EN n) && s.esmcTxRank n != (s.prtC n).esmcRank then s.esmcSend n true else s)

end Sys2Proof.Machine
end

