-- ==== Sys2Proof/Machine/LoopOps.lean ====
section
/-! DEFINITION. What a selector and the engine array do to a loop: its phase and its frequency as numbers, the phase detector of
pulse and crossing-link entries, freezing, departure, entry to holdover and gearing (R39, R235, R240, R245 to R252, R282).
Frequencies are in units of 2⁻⁹⁶, phases in units of 2⁻³² fs unless said otherwise. -/

namespace Sys2Proof.Machine

/-- 2⁵⁶, 2⁹⁶ and 1 fs in the units of a loop. -/
abbrev q56 : Int := 2 ^ 56
/-- See `q56`. -/
abbrev q96 : Int := 2 ^ 96
/-- See `q56`. -/
abbrev fs1 : Int := 2 ^ 32

/-- Half a nanosecond, the unit of the extended coarse time, as a phase (R157). -/
abbrev tPhase : Int := 500000 * 2 ^ 32

/-- One unit of a stamp, T / 2²⁰, as a phase (R163). -/
abbrev stampPhase : Int := 15625 * 2 ^ 17

/-- The update interval of a preset in units of T (R232). -/
def presetTu : Nat → Nat
  | 0 => 2000000 | 1 => 2000000 | 2 => 20000000 | 3 => 2000000000 | 4 => 125000000 | 5 => 20000 | _ => 2000

/-- The update interval of a loop in units of T. -/
def State.loopTu (s : State) (l : Nat) : Nat := presetTu (s.f (LOOP.CFG_PRESET l))

/-- The largest bandwidth of a gear, 0.01 / Tu, in µHz (R252, R268). -/
def State.gearMax (s : State) (l : Nat) : Nat := 20000000000000 / s.loopTu l

/-- The record of a built loop. -/
def State.loopRec (s : State) (l : Nat) : Option LoopRec := s.loopRecs.find? (fun r => r.loop = l)

/-- The loops bound to selector n (R82). -/
def State.loopsOf (s : State) (n : Nat) : List Nat :=
  (s.loopRecs.filter (fun r => r.inKind == 0 && r.inIdx == n)).map (·.loop)

/-- Selector of a loop whose input is one. -/
def State.selOf (s : State) (l : Nat) : Option Nat :=
  (s.loopRec l).bind (fun r => if r.inKind = 0 then some r.inIdx else none)

/-- State of a loop (R250). -/
def State.loopState (s : State) (l : Nat) : Nat := s.f (LOOP.STATUS_STATE l)

/-- FREQ of a loop, yI + uc (R239). -/
def LoopCore.freq (c : LoopCore) : Int := c.yI + c.uc

/-- FREQ in 2⁻⁵⁶ (R239; rounding open, log entry 4, DESIGN CHOICE). -/
def LoopCore.freq56 (c : LoopCore) : Int := roundOpen 1 c.freq (2 ^ 40)

/-- The frequency against the measurement clock that belongs to a frequency against OSCIN (R240). -/
def onClock (y ybar : Int) : Int := (q96 + y) * (q56 + ybar) / q56 - q96

/-- A control word in 2⁻⁵⁶ for a target frequency, within 1 LSB (R240, log entry 4, DESIGN CHOICE). -/
def toWord (y ybar : Int) : Int := roundOpen 2 (onClock y ybar) (2 ^ 40)

/-- A control word converted back through R240. -/
def ofWord (w ybar : Int) : Int := (q56 + w) * q96 / (q56 + ybar) - q96

/-- The frequency in force at the target of a loop (R246). -/
def State.wordBack (s : State) (l : Nat) : Int := let c := s.loopC l; ofWord c.word c.ybar

/-- The frequency at which a loop's phase moves against the measurement clock: that of the word at its target, less its slew (R236,
R240). -/
def LoopCore.clockFreq (c : LoopCore) : Int := onClock c.freq c.yw

/-- What a loop's phase gains on the timeline of OSCIN in a phase `d` of the measurement clock (R234, R240). -/
def LoopCore.gainO (c : LoopCore) (d : Int) : Int := (c.clockFreq - c.ybar * 2 ^ 40) * d / q96

/-- Phase of a loop against the measurement clock at an instant given in units of T / 2²⁰ of extended coarse time: the instant
and the phase the loop has gained on the clock (R235, R236). -/
def LoopCore.phaseAt (c : LoopCore) (t : Int) : Int :=
  t * stampPhase + c.ph + c.clockFreq * ((t - (c.phAt : Int) * 2 ^ 20) * stampPhase) / q96

/-- Phase of a loop against the timeline of OSCIN at an instant given in units of T. -/
def LoopCore.phaseOAt (c : LoopCore) (t : Int) : Int := c.phO + c.gainO ((t - c.phAt) * tPhase)

/-- Count the loop's phases on to an instant in units of T, the slew of a step among them (R236, R261). -/
def LoopCore.advance (c : LoopCore) (t : Nat) : LoopCore :=
  let d : Int := ((t : Int) - c.phAt) * tPhase
  { c with
    ph := c.ph + c.clockFreq * d / q96, stepPh := c.stepPh + c.sl * (q56 + c.yw) / q56 * d / q96
    phO := c.phO + c.gainO d, phAt := t }

/-- Count the loop's phases on to the present, never backwards. -/
def State.advanceLoop (s : State) (l : Nat) : State := s.modLoop l (fun c => c.advance (max c.phAt s.now))

/-- Mean of the latest 1,000 VALID slices of LND[30], or the value the loop holds while there is none (R240). -/
def State.ybarNow (s : State) (l : Nat) : Int :=
  let v := s.slices.filterMap id
  if v.isEmpty then (s.loopC l).ybar else roundOpen 9 v.sum v.length

/-- ȳ₃₀ is updated once per millisecond, for every built loop, a frozen one too (R240). -/
def State.refreshYbar (s : State) : State :=
  s.forL s.loopRecs (fun s r =>
    let y := s.ybarNow r.loop
    (s.advanceLoop r.loop).modLoop r.loop (fun c => { c with ybar := y }))

/-- Decimation of a landing in force. -/
def State.decim (s : State) (m : Nat) : Nat := max 1 (s.lndC m).decim

/-- Decimated period of a landing as a phase, times twice its frequency in Hz: DECIM · 2 s (R235). -/
def State.periodNum (s : State) (m : Nat) : Int := (s.decim m : Int) * 2 * 10 ^ 15 * fs1

/-- Decimated edges between two stamps, of which only the raw edges are numbered (R169, R235): whole multiples of DECIM. -/
def edgesBetween (decim old new : Nat) : Int := (((new + 2 ^ 48 - old) % 2 ^ 48 / max 1 decim : Nat) : Int)

/-- The measured delay of the lane of a crossing-link landing, in 2⁻³² ns (R538). -/
def State.laneDelay (s : State) (m : Nat) : Int := (if m = 28 then s.xlk.d0 else if m = 29 then s.xlk.d1 else none).getD 0

/-- Phase error of a stamp of a pulse or crossing-link landing against a loop phase: the nearest edge of the input's nominal
timeline less the loop phase; positive when the input is early (R235, R248). A crossing-link stamp less the delay `d` of its lane
is taken modulo the word period of 2.56 ns (R539). -/
def State.pulseError (s : State) (m : Nat) (lp d : Int) : Int :=
  let h := s.f (LND.NOM_FREQ_HALF_HZ m)
  if m ≥ 28 then
    let p : Int := 2560000 * fs1
    let x := lp - d * 1000000
    roundNear x p.toNat * p - x
  else if h = 0 then 0
  else
    let p := s.periodNum m
    let k := roundNear (lp * h) p.toNat
    roundNear (k * p - lp * h) h

/-- Freeze a loop: the word in force is held, and a departure that is still to come is given up (R39, R229, R245). -/
def State.freezeNow (s : State) (l : Nat) : State :=
  let s := s.modHo l (fun h => { h with heldOver := true })
  let s := s.modLoop l (fun c => { c with depart := false, setBo := false })
  if s.on (LOOP.STATUS_FROZEN l) then s
  else (s.setf (LOOP.STATUS_FROZEN l) 1).ev (LOOP.EVENT_FROZEN l)

/-- A selector freezes a loop (R39, R245); while the loop migrates, the freeze also stands behind what was ordered before it (R49,
R317). -/
def State.freezeLoop (s : State) (l : Nat) : State :=
  let s := s.freezeNow l
  if (s.loopC l).mig.isSome then s.modLoop l (fun c => { c with orders := c.orders ++ [.freeze] }) else s

/-- The bandwidth of the final gear, `BW` (R252). -/
def State.finalBw (s : State) (l : Nat) : Nat := s.f (LOOP.BW_UHZ l)

/-- A bandwidth comes into force: where it changes what the loop does, four phase samples settle (R18). Raw coefficients make the loop
ignore it (R266). -/
def State.setBw (s : State) (l bw : Nat) : State :=
  let raw := s.on (LOOP.CTRL_RAW l)
  s.modLoop l (fun c => { c with settle := if c.bw = bw ∨ c.bw = 0 ∨ raw then c.settle else 4, bw := bw })

/-- Put a gear in force; every change of gear is a bandwidth change, settled for four phase samples (R18, R252). GEAR shows 7 for a gear
beyond it (log entry 91, DESIGN CHOICE). -/
def State.setGear (s : State) (l gear bw dwell : Nat) (final : Bool) : State :=
  let s := (s.setf (LOOP.STATUS_GEAR l) (min gear 7)).setb (LOOP.STATUS_FINAL l) final
  let s := (s.setBw l bw).modLoop l (fun c => { c with gear := gear, gearAt := s.now, gearEnd := s.now + dwell })
  s.evIf final (LOOP.EVENT_GEAR_DONE l)

/-- Go to the final gear (R252, R268). -/
def State.finalGear (s : State) (l gear : Nat) : State := s.setGear l gear (s.finalBw l) 0 true

/-- Put gear k of the automatic schedule in force: the f₀ it began with halved k times, or the final gear, which runs at `BW` as it now
stands (R252, R264). Dwell 8 / fₖ s. -/
def State.autoGear (s : State) (l k : Nat) : State :=
  let f := (s.loopC l).f0 / 2 ^ k
  if f ≤ s.finalBw l then s.finalGear l k else s.setGear l k f (16000000000000000 / f) false

/-- Put gear k of the manual schedule in force (R268). -/
def State.manGear (s : State) (l k : Nat) : State :=
  let f := s.f (LOOP.GEAR_BW_UHZ l k)
  if k ≥ 8 ∨ f = 0 then s.finalGear l (min k 7)
  else s.setGear l k f (s.f (LOOP.GEAR_DWELL_MS l k) * 2000000) false

/-- Acquisition from FREE_RUN starts its gears (R252, R268). -/
def State.startGears (s : State) (l : Nat) : State :=
  if s.on (LOOP.CTRL_GEAR_MAN l) then s.manGear l 0
  else if s.on (LOOP.CTRL_GEAR_AUTO l) then
    let f0 := min (16 * s.finalBw l) (s.gearMax l)
    (s.modLoop l (fun c => { c with f0 := f0 })).autoGear l 0
  else s.finalGear l 0

/-- A loop leaves or enters HOLDOVER: logbook record and event (R391, R654). -/
def State.logHoldover (s : State) (l : Nat) (out : Bool) : State :=
  (s.logDev 0x0301 (beBytes 1 l ++ beBytes 1 (b2n out) ++ beBytes 4 (s.w (LOOP.HO_ELAPSED l)))).route (0x060 + l)

/-- Make a loop's first VALID sample of an entry a departure (R224, R245 to R248): `frequencyOnly` says that the entry is a clock or
SyncE entry, whose phase error becomes the build-out. Until then a frozen loop holds its word, and another coasts. -/
def State.orderDeparture (s : State) (l : Nat) (frequencyOnly : Bool) : State :=
  s.modLoop l (fun c => { c with depart := true, setBo := frequencyOnly, held := false, fresh := false })

/-- A loop follows an entry of its selector: what becomes of its state (R251, R289, R324). -/
def State.departNow (s : State) (l : Nat) (frequencyOnly : Bool) : State :=
  let st := s.loopState l
  let fresh := (s.loopC l).fresh
  let s := s.orderDeparture l frequencyOnly
  if st = 0 ∨ (st = 4 ∧ fresh) then (s.setf (LOOP.STATUS_STATE l) 1).startGears l
  else if st = 4 then (s.setf (LOOP.STATUS_STATE l) 1).finalGear l 0
  else if st = 3 then
    let s := (s.setf (LOOP.STATUS_STATE l) 1).finalGear l 0
    let s := s.modHo l (fun h => { h with
      heldOver := true, returning := true, entryFit := false, evaluating := false, ramp := false })
    let s := (s.setf (LOOP.HO_STAT_RAMPING l) 0).setb (LOOP.HO_STAT_OVR_ACTIVE l) (s.on (LOOP.HO_CTRL_OVR l))
    (s.ev (LOOP.EVENT_HOLDOVER_OUT l)).logHoldover l true
  else s

/-- A loop starts to hold over (R282 steps 2 and 3): the word is held, and the entry fit begins unless the loaded model is in
force. -/
def State.enterHoldover (s : State) (l : Nat) : State :=
  let y := s.wordBack l
  let ovr := s.on (LOOP.HO_CTRL_OVR l)
  let s := ((s.setf (LOOP.STATUS_STATE l) 3).setf (LOOP.STATUS_FROZEN l) 0).setw (LOOP.HO_ELAPSED l) 0
  let s := s.modLoop l (fun c => { c with
    depart := false, setBo := false, lockSince := none, lockBad := 0 })
  let s := s.modHo l (fun h => { h with
    heldOver := true, refit := false, entryFit := !ovr, evaluating := ovr, ramp := true, yho := roundOpen 3 y (2 ^ 40)
    atEntry := h.fitted, limitSet := false })
  let s := s.setb (LOOP.HO_STAT_OVR_ACTIVE l) ovr
  (s.ev (LOOP.EVENT_HOLDOVER_IN l)).logHoldover l false

/-- The selector of a loop enters HOLDOVER (R245, R251): a loop in FREE_RUN stays there and moves from the held word. -/
def State.holdoverNow (s : State) (l : Nat) : State :=
  let st := s.loopState l
  if st = 1 ∨ st = 2 then s.enterHoldover l
  else (s.setf (LOOP.STATUS_FROZEN l) 0).modLoop l (fun c => { c with retake := c.retake || st == 0, depart := false, setBo := false })

/-- What a selector orders takes effect (R224, R251). -/
def State.obey (s : State) (l : Nat) (o : LoopOrder) : State :=
  match o with
  | .depart _ f => s.departNow l f
  | .holdover => s.holdoverNow l
  | .freeze => s.freezeNow l

/-- The entry from which a loop takes its samples after an order. -/
def LoopOrder.entry : LoopOrder → Nat
  | .depart k _ => k
  | _ => 0x1F

/-- A selector orders a loop to follow an entry or to hold over: from now on the loop takes its samples from that entry, and what it had
of another in the interval in progress is dropped. A stranded loop stays frozen (R47), and one that migrates does it at the first update
after it has resumed (R317). -/
def State.orderLoop (s : State) (l : Nat) (o : LoopOrder) : State :=
  if (s.loopC l).stranded then s
  else
    let s := s.modLoop l (fun c => { c with entry := o.entry, acc := [] })
    if (s.loopC l).mig.isSome then s.modLoop l (fun c => { c with orders := c.orders ++ [o] }) else s.obey l o

end Sys2Proof.Machine
end

