-- ==== Sys2Proof/Machine/Select.lean ====
section
/-! DEFINITION. Reference qualification and selection (06_reference_selection.md): entry kinds, monitors and states, the
plausibility check, the ordering, and the selector's transitions with what they order the loops to do. -/

namespace Sys2Proof.Machine

/-- Candidate kinds (R191). -/
inductive EntryKind where
  | clock | pulse | syncE | xlink | berth
  deriving DecidableEq, Repr

/-- The kind of a landing's entries (R191). -/
def State.landingKind (s : State) (m : Nat) : EntryKind :=
  if m ≥ 28 then .xlink else if m ≥ 20 then .syncE
  else if s.f (LND.NOM_FREQ_HALF_HZ m) ≤ 2 then .pulse else .clock

/-- The kind of entry k of selector n. -/
def State.entryKind (s : State) (n k : Nat) : EntryKind :=
  let w := s.f (SEL.CAND_CFG_WHO n k)
  if w ≥ 0x80 then .berth else s.landingKind w

/-- A phase candidate carries time or phase as well as frequency (R191). -/
def EntryKind.phase : EntryKind → Bool
  | .clock => false | .syncE => false | .pulse => true | .xlink => true | .berth => true

/-- Default limits of a kind: LIM_OUT, LIM_IN, LIM_JUMP, LIM_PLAUS (R199). -/
def EntryKind.limits : EntryKind → Nat × Nat × Nat × Nat
  | .clock => (10115507, 8246337, 10000, 21990 * 65536)
  | .pulse => (109951, 54976, 100000, 1100 * 65536 + 100)
  | .syncE => (5057753, 4068193, 5000, 21990 * 65536)
  | .xlink => (219902, 109951, 2000, 1100 * 65536 + 10)
  | .berth => (1099512, 549756, 1000000, 10995 * 65536 + 1000)

/-- Load the default limits of an entry's kind (R192, R199). -/
def State.loadLimits (s : State) (n k : Nat) : State :=
  let (o, i, j, p) := (s.entryKind n k).limits
  (((s.setw (SEL.CAND_LIM_OUT n k) o).setw (SEL.CAND_LIM_IN n k) i).setw (SEL.CAND_LIM_JUMP n k) j).setw
    (SEL.CAND_LIM_PLAUS n k) p

/-- The key of what entry k of selector n holds. -/
def entKey (n k : Nat) : Nat := 32 * n + k

/-- Entries of a selector. -/
def State.ncand (s : State) (n : Nat) : Nat := s.f (SEL.CFG_NCAND n)

/-- Entries of built selectors in which something stands: a landing's number, or 0x80 plus a berth entry's ordinal. -/
def State.entriesOf (s : State) (who : Nat) : List (Nat × Nat) :=
  s.selRecs.flatMap (fun r =>
    ((List.range (s.ncand r.selector)).filter (fun k => s.f (SEL.CAND_CFG_WHO r.selector k) == who)).map
      (fun k => (r.selector, k)))

/-- The state of an entry (R210). -/
def State.cstate (s : State) (n k : Nat) : Nat := s.f (SEL.CAND_STATE_CSTATE n k)

/-- The state of a selector (R220). -/
def State.selState (s : State) (n : Nat) : Nat := s.f (SEL.STATUS_STATE n)

/-- The active or forced entry of a selector, 0x1F for none. -/
def State.active (s : State) (n : Nat) : Nat := s.f (SEL.STATUS_ACTIVE n)

/-- The effective rank of an entry as its register shows it (R209). -/
def State.rank (s : State) (n k : Nat) : Nat := s.f (SEL.CAND_STATE_RANK n k)

/-- No monitor reports a fault (R193 to R197). -/
def State.sound (s : State) (n k : Nat) : Bool := s.f ⟨SEL.CAND_STATE n k, 12, 8⟩ == 0

/-- Set or clear one of the five fault bits; a fault that arises sets its sticky bit (R225). -/
def State.setFault (s : State) (n k bit : Nat) (b : Bool) : State :=
  let x : Fld := ⟨SEL.CAND_STATE n k, bit, bit⟩
  if b && !s.on x then (s.setf x 1).ev ⟨SEL.CAND_EVENT n k, bit - 4, bit - 4⟩ else s.setb x b

/-- Fault bits of CAND[k].STATE. -/
abbrev faultAct : Nat := 8
/-- See `faultAct`. -/
abbrev faultFreq : Nat := 9
/-- See `faultAct`. -/
abbrev faultJump : Nat := 10
/-- See `faultAct`. -/
abbrev faultQl : Nat := 11
/-- See `faultAct`. -/
abbrev faultStarved : Nat := 12

/-- A forced entry counts as followed while it is not EMPTY (R221). -/
def State.followForced (s : State) (n k c : Nat) : State :=
  if s.selState n = 4 ∧ s.active n = k ∧ c ≠ 0 ∧ !(s.selC n).followed then
    (s.ev (SEL.EVENT_FIRST n)).modSel n (fun c => { c with followed := true })
  else s

/-- Move an entry to a state: its sticky bits, the QUAL mask and WTR_ANY follow; a readmission lasts no longer than QUALIFIED (R221). -/
def State.setCstate (s : State) (n k c : Nat) : State :=
  let s := (s.setf (SEL.CAND_STATE_CSTATE n k) c).followForced n k c
  let s := s.when (c != 2) (fun s => s.modEnt (entKey n k) (fun e => { e with readmitted := false }))
  let s := s.setf ⟨SEL.QUAL n, k, k⟩ (b2n (c == 2))
  let s := s.setb (SEL.STATUS_WTR_ANY n) ((List.range (s.ncand n)).any (fun j => s.cstate n j == 4))
  if c = 2 then s.ev (SEL.CAND_EVENT_QUALIFIED n k)
  else if c = 3 then s.ev (SEL.CAND_EVENT_FAILED n k)
  else if c = 4 then
    (s.modEnt (entKey n k) (fun e => { e with
      wtrEnd := s.now + s.f (SEL.CTRL_WTR n) * 2000000000, wtrDue := false })).ev (SEL.CAND_EVENT_WTR_START n k)
  else s

/-! Ordering. -/

/-- The entry is a crossing-link entry of a selector that follows the partner (R537). -/
def State.xlinkFirst (s : State) (n k : Nat) : Bool :=
  s.entryKind n k == .xlink && s.f XLK.STATUS_ROLE == 2 && bitAt (s.f XLK.CFG_FOLLOW) n

/-- The selector may choose the entry (R217, R537). -/
def State.eligible (s : State) (n k : Nat) : Bool :=
  s.cstate n k == 2 && s.rank n k != 0xE &&
    (s.xlinkFirst n k ||
      (s.f (SEL.CAND_CFG_PRIORITY n k) != 0 && !(s.entryKind n k == .xlink && s.f XLK.STATUS_ROLE != 2)))

/-- The order of R217 as one number, the smallest ahead: crossing link first where R537 says so, rank in QL-enabled
mode, priority, the active entry, index. -/
def State.orderKey (s : State) (n k : Nat) : Nat :=
  b2n (!s.xlinkFirst n k) * 2 ^ 40 + (if s.on (SEL.CTRL_QL_MODE n) then s.rank n k else 0) * 2 ^ 32 +
    s.f (SEL.CAND_CFG_PRIORITY n k) * 2 ^ 16 + b2n (s.active n != k) * 2 ^ 8 + k

/-- The member of a list with the smallest key. -/
def leastBy (g : Nat → Nat) : List Nat → Option Nat
  | [] => none
  | a :: t =>
    match leastBy g t with
    | none => some a
    | some b => if g b < g a then some b else some a

/-- The best entry (R217). -/
def State.best (s : State) (n : Nat) : Option Nat :=
  leastBy (s.orderKey n) ((List.range (s.ncand n)).filter (fun k => s.eligible n k))

/-- Whether the selector in ACTIVE switches to the best entry (R218, R219, R537). -/
def State.shouldSwitch (s : State) (n b : Nat) : Bool :=
  let a := s.active n
  b != a &&
    (s.on (SEL.CTRL_REVERTIVE n) || s.cstate n a != 2 || (s.xlinkFirst n b && !s.xlinkFirst n a) ||
      (s.on (SEL.CTRL_QL_MODE n) && decide (s.rank n b < s.rank n a)))

/-! Summaries. -/

/-- SELG and the traceability of the time scales follow the selectors (R381). -/
def State.refreshSel (s : State) (n : Nat) : State :=
  let st := s.selState n
  let s := s.setf ⟨SELG.STATE_A, n, n⟩ (b2n (st == 1 || st == 4))
  let s := s.setf ⟨SELG.STATE_A, 16 + n, 16 + n⟩ (b2n (st == 3))
  let s := s.setf ⟨SELG.STATE_B, n, n⟩ (b2n (st == 2))
  s.setf ⟨SELG.STATE_B, 16 + n, 16 + n⟩ (b2n (st == 4))

/-- Whether a time scale is traceable (R381). -/
def State.traceable (s : State) (k : Nat) : Bool :=
  let n := s.f (TSC.TRACE_SRC k)
  s.on (TSC.STATUS_SET k) && decide (n < 16) && s.selBuilt n && s.selState n == 1 &&
    decide (s.f (SEL.STATUS_ACTIVE_RANK n) ≤ s.f (TSC.TRACE_RANK_MAX k))

/-- Every time scale's TRACEABLE follows; a change sets EVENT.TRACE (R381). -/
def State.refreshTrace (s : State) : State :=
  s.forN 8 (fun s k =>
    if s.traceable k != s.on (TSC.STATUS_TRACEABLE k) then
      (s.setb (TSC.STATUS_TRACEABLE k) (s.traceable k)).ev (TSC.EVENT_TRACE k)
    else s)

/-- Since when the device has been ALONE while QL_SEL was ACTIVE or HOLDOVER (R535). -/
def State.refreshGood (s : State) : State :=
  let st := s.selState (s.f XLK.CFG2_QL_SEL)
  let good := s.f XLK.STATUS_ROLE == 0 && (st == 1 || st == 3)
  { s with xlk := { s.xlk with goodSince := if good then some (s.xlk.goodSince.getD s.now) else none } }

/-- What follows every change of a selector's state, active entry or rank. -/
def State.selFollow (s : State) (n : Nat) : State := (((s.refreshSel n).refreshTrace).esmcRefresh).refreshGood

/-! Selector transitions (R221). -/

/-- The logbook record of a transition: STATUS.CAUSE as it then stands, and the new state (R221, R654). -/
def State.logSwitch (s : State) (n from_ : Nat) : State :=
  s.logDev 0x0300 (beBytes 1 n ++ beBytes 1 from_ ++ beBytes 1 (s.active n) ++ beBytes 1 (s.f (SEL.STATUS_CAUSE n)) ++
    beBytes 1 (s.selState n))

/-- Each loop of a selector takes its next sample from an entry (R224). -/
def State.departAll (s : State) (n k : Nat) (changed : Bool) : State :=
  let freqOnly := !(s.entryKind n k).phase
  s.forL (s.loopsOf n) (fun s l =>
    let s := s.when changed (fun s => s.modHo l (fun h => { h with entryChanged := true }))
    s.orderLoop l (.depart k freqOnly))

/-- A transition into ACTIVE or FORCED on an entry (R221). -/
def State.follow (s : State) (n k st cause : Nat) : State :=
  let was := s.selState n
  let a := s.active n
  let cause := if (s.entC (entKey n k)).readmitted then 7 else cause
  let s := s.modEnt (entKey n k) (fun e => { e with readmitted := false })
  let s := ((s.setf (SEL.STATUS_STATE n) st).setf (SEL.STATUS_ACTIVE n) k).setf (SEL.STATUS_CAUSE n) cause
  let s := s.setf (SEL.STATUS_ACTIVE_RANK n) (s.rank n k)
  let s := s.evIf (was == 3) (SEL.EVENT_HOLDOVER_OUT n)
  let s := s.evIf (!(s.selC n).followed) (SEL.EVENT_FIRST n)
  let s := s.modSel n (fun c => { c with
    followed := c.followed || s.cstate n k != 0, returnLeft := 0, forceLost := false })
  let s := ((s.ev (SEL.EVENT_SWITCH n)).route (0x080 + n)).logSwitch n a
  (s.departAll n k (a != k)).selFollow n

/-- A transition into HOLDOVER (R221, R282). -/
def State.selHoldover (s : State) (n : Nat) : State :=
  let a := s.active n
  let s := ((s.setf (SEL.STATUS_STATE n) 3).setf (SEL.STATUS_ACTIVE n) 0x1F).setf (SEL.STATUS_ACTIVE_RANK n) 0xF
  let s := (s.ev (SEL.EVENT_HOLDOVER_IN n)).logSwitch n a
  (s.forL (s.loopsOf n) (fun s l => s.orderLoop l .holdover)).selFollow n

/-- Evaluate the selection after a change that would give a switch the cause `cause` (R218 to R221); in HOLDOFF the change takes effect at
the expiry (R222), where the latest one gives the cause (log entry 79, DESIGN CHOICE). -/
def State.evaluate (s : State) (n cause : Nat) : State :=
  let st := s.selState n
  if st = 2 then s.modSel n (fun c => { c with waitCause := cause })
  else
    match s.best n with
    | none => s
    | some b =>
      if st = 0 ∨ st = 3 then s.follow n b 1 1
      else if st = 1 ∧ s.shouldSwitch n b then s.follow n b 1 cause
      else s

/-- The hold-off of a selector expires (R221, R222, R227): `back` says that a return to the same entry may be considered; what changed in
the hold-off is then evaluated. -/
def State.holdoffEnd (s : State) (n : Nat) (back : Bool) : State :=
  let a := s.active n
  if back && s.sound n a && s.cstate n a != 0 then
    let s := s.when (s.cstate n a != 2) (fun s => s.setCstate n a 2)
    let s := s.follow n a 1 2
    let s := s.modSel n (fun c => { c with returnLeft := if (s.entryKind n a).phase then 4 else 0 })
    s.evaluate n (s.selC n).waitCause
  else
    match s.best n with
    | some b => s.follow n b 1 2
    | none => s.selHoldover n

/-- A transition into HOLDOFF (R39, R221, R222). -/
def State.enterHoldoff (s : State) (n : Nat) : State :=
  let a := s.active n
  let s := s.setf (SEL.STATUS_STATE n) 2
  let s := s.modSel n (fun c => { c with
    holdEnd := s.now + s.f (SEL.CTRL_HOLDOFF n) * 20000000, returnLeft := 0, waitCause := 1 })
  let s := (s.ev (SEL.EVENT_HOLDOFF_IN n)).logSwitch n a
  let s := (s.forL (s.loopsOf n) (fun s l => s.freezeLoop l)).selFollow n
  if s.f (SEL.CTRL_HOLDOFF n) = 0 then s.holdoffEnd n true else s


/-- Failures of a forced entry: loss of activity and starvation freeze the loops, with no hold-off (R229). -/
def State.forcedCheck (s : State) (n k : Nat) : State :=
  let bad := s.on (SEL.CAND_STATE_ACT_FAIL n k) || s.on (SEL.CAND_STATE_STARVED n k)
  if s.selState n = 4 ∧ s.active n = k ∧ bad ∧ !(s.selC n).forceLost then
    let s := (s.modSel n (fun c => { c with forceLost := true })).ev (SEL.EVENT_FORCE_LOST n)
    s.forL (s.loopsOf n) (fun s l => s.freezeLoop l)
  else s

/-- A VALID result of the forced entry arrives: it is followed again once its faults have cleared (R229). -/
def State.forcedReturn (s : State) (n k : Nat) : State :=
  let bad := s.on (SEL.CAND_STATE_ACT_FAIL n k) || s.on (SEL.CAND_STATE_STARVED n k)
  if s.selState n = 4 ∧ s.active n = k ∧ !bad ∧ (s.selC n).forceLost then
    let s := s.modSel n (fun c => { c with forceLost := false, followed := true })
    s.departAll n k false
  else s

/-! The plausibility check (R214). -/

/-- Phase error of an entry's sample against a loop as it now stands, as its phase detector measures it (R214, R234, R235). -/
def State.sampleError (s : State) (n k l : Nat) (x : Sample) : Int :=
  let w := s.f (SEL.CAND_CFG_WHO n k)
  let c := s.loopC l
  if w ≥ 0x80 then x.x - c.phaseOAt x.idx else s.pulseError w (c.phaseAt x.x) x.d

/-- The four latest results, and for a phase candidate samples, are there (R214). -/
def State.plausReady (s : State) (n k : Nat) : Bool :=
  let e := s.entC (entKey n k)
  decide (4 ≤ e.freqs.length) && (!(s.entryKind n k).phase || decide (4 ≤ e.diffs.length))

/-- The check passes for one loop: the mean frequency, and the mean phase of a phase candidate (R214). -/
def State.plausibleFor (s : State) (n k l : Nat) : Bool :=
  let e := s.entC (entKey n k)
  let lim : Int := s.f (SEL.CAND_LIM_PLAUS_FREQ n k)
  let ph : Int := s.f (SEL.CAND_LIM_PLAUS_PHASE n k)
  let f := e.freqs.sum * 2 ^ 40 - 4 * (s.loopC l).freq
  let p := (e.diffs.map (fun d => ((d.find? (fun x => x.1 == l)).map (·.2)).getD 0)).sum
  decide (f.natAbs ≤ (4 * lim * 2 ^ 56).natAbs) &&
    (!(s.entryKind n k).phase || decide (p.natAbs ≤ (4 * ph * 1000000 * fs1).natAbs))

/-- The check passes for every loop bound to the selector (R214). -/
def State.plausible (s : State) (n k : Nat) : Bool := (s.loopsOf n).all (fun l => s.plausibleFor n k l)

/-- Record a check (R215). -/
def State.plausResult (s : State) (n k : Nat) (pass : Bool) : State :=
  let s := s.setb (SEL.CAND_STATE_PLAUS n k) (!pass)
  if pass then s
  else (s.ev (SEL.CAND_EVENT_PLAUS_FAIL n k)).logDev 0x0302 (beBytes 1 n ++ beBytes 1 k ++ [0])

/-- Whether every bound loop runs from held state, so that R212 asks for the check. -/
def State.heldLoops (s : State) (n : Nat) : Bool :=
  !(s.loopsOf n).isEmpty && (s.loopsOf n).all (fun l => (s.loopC l).held)

/-- What R212 asks of an entry in QUALIFYING, apart from the plausibility check. -/
def State.qualifies (s : State) (n k : Nat) : Bool :=
  let e := s.entC (entKey n k)
  s.sound n k && decide (2 ≤ e.okResults) && (!(s.entryKind n k).phase || decide (4 ≤ e.jumpOk))

/-- Run the check of an entry whose wait-to-restore has expired, once it has what the check needs (R211, R214). -/
def State.wtrCheck (s : State) (n k : Nat) : State :=
  if (s.entC (entKey n k)).wtrDue ∧ s.plausReady n k then
    let pass := s.plausible n k
    let s := s.plausResult n k pass
    let s := s.modEnt (entKey n k) (fun e => { e with
      wtrDue := false, wtrEnd := s.now + s.f (SEL.CTRL_WTR n) * 2000000000 })
    if pass then s.setCstate n k 2 else s
  else s

/-- What an entry's state does after its monitors, results or samples have changed (R211, R212). The plausibility check of an entry in
QUALIFYING is run again at every result or sample, and each failure writes its record (R212; log entry 92, DESIGN CHOICE). -/
def State.entryMove (s : State) (n k : Nat) : State :=
  let c := s.cstate n k
  if c = 1 ∧ s.qualifies n k then
    if s.heldLoops n then
      if s.plausReady n k then
        let pass := s.plausible n k
        let s := s.plausResult n k pass
        if pass then s.setCstate n k 2 else s
      else s
    else s.setCstate n k 2
  else if c = 2 ∧ !s.sound n k then s.setCstate n k 3
  else if c = 3 ∧ s.sound n k then s.setCstate n k 4
  else if c = 4 ∧ !s.sound n k then (s.setCstate n k 3).ev (SEL.CAND_EVENT_WTR_RESTART n k)
  else if c = 4 then s.wtrCheck n k
  else s

/-- The active entry of a selector in ACTIVE has failed (R221). -/
def State.activeFailed (s : State) (n : Nat) : Bool := s.selState n == 1 && s.cstate n (s.active n) == 3

/-- What an entry does after its monitors, results or samples have changed, before its selector is evaluated (R211, R229). -/
def State.entryStep (s : State) (n k : Nat) : State := (s.forcedCheck n k).entryMove n k

/-- How an entry stood before a happening: its rank, and whether it was QUALIFIED. -/
structure EntryMark where
  sel : Nat
  cand : Nat
  rank : Nat
  qualified : Bool

/-- The marks of a list of entries. -/
def State.marks (s : State) (es : List (Nat × Nat)) : List EntryMark :=
  es.map (fun x => ⟨x.1, x.2, s.rank x.1 x.2, s.cstate x.1 x.2 == 2⟩)

/-- One of the marked entries of a selector has changed its rank. -/
def State.moved (s : State) (ms : List EntryMark) (n : Nat) : Bool := ms.any (fun m => m.sel == n && m.rank != s.rank n m.cand)
/-- One of the marked entries of a selector has become QUALIFIED. -/
def State.risen (s : State) (ms : List EntryMark) (n : Nat) : Bool :=
  ms.any (fun m => m.sel == n && !m.qualified && s.cstate n m.cand == 2)

/-- The one evaluation of a selector that follows what has happened to its entries (R221, R227): the failure of the active entry comes
first, and `cause` is that of a switch to an entry that has become QUALIFIED. -/
def State.selCheck (s : State) (ms : List EntryMark) (cause n : Nat) : State :=
  let moved := s.moved ms n
  let risen := s.risen ms n
  let s := s.when (s.activeFailed n) (fun s => s.enterHoldoff n)
  if moved then (s.evaluate n 3).selFollow n else s.when risen (fun s => s.evaluate n cause)

/-- The evaluations that follow one happening at several entries: one for each selector (R227). -/
def State.entriesCheck (s : State) (ms : List EntryMark) (cause : Nat) : State :=
  s.forL (ms.map (·.sel)).eraseDups (fun s n => s.selCheck ms cause n)

/-- What an entry does after its monitors, results or samples have changed, and the one evaluation that follows (R211, R221, R227). -/
def State.entryCheck (s : State) (n k cause : Nat) : State := (s.entryStep n k).selCheck (s.marks [(n, k)]) cause n

/-- Set or clear a fault at several entries and let their states follow, with one evaluation for each selector (R227). -/
def State.faults (s : State) (es : List (Nat × Nat)) (bit : Nat) (b : Bool) : State :=
  let es := es.filter (fun x => s.on ⟨SEL.CAND_STATE x.1 x.2, bit, bit⟩ != b)
  (s.forL es (fun s x => (s.setFault x.1 x.2 bit b).entryStep x.1 x.2)).entriesCheck (s.marks es) 1

/-- Set or clear a fault and let the entry's state follow. -/
def State.fault (s : State) (n k bit : Nat) (b : Bool) : State := s.faults [(n, k)] bit b

/-! Ranks. -/

/-- Effective rank of an entry (R206, R207, R209). -/
def State.effRank (s : State) (n k : Nat) : Nat :=
  if s.on (SEL.CAND_CFG_OVR_EN n k) then s.f (SEL.CAND_CFG_QL_OVR n k)
  else if s.f (SEL.CAND_CFG_SOURCE n k) = 0 then s.f (SEL.CAND_CFG_QL_HOST n k)
  else (s.entC (entKey n k)).rank

/-- The quality monitor (R197). After an unplanned takeover, the rank 0xF of the crossing-link entries of a follow selector is a fault in
every mode, as step 4 of R550 asks (log entry 48, DEDUCED). -/
def State.qlFault (s : State) (n k : Nat) : Bool :=
  let takeover := s.entryKind n k == .xlink && bitAt (s.f XLK.CFG_FOLLOW) n && s.xlk.takeover
  s.rank n k == 0xE || ((s.on (SEL.CTRL_QL_MODE n) || takeover) && s.rank n k == 0xF)

/-- The effective rank of an entry follows its sources, and what follows at the entry itself (R198, R211). -/
def State.rankStep (s : State) (n k : Nat) : State :=
  let r := s.effRank n k
  if r = s.rank n k then
    (if s.on ⟨SEL.CAND_STATE n k, faultQl, faultQl⟩ = s.qlFault n k then s
     else (s.setFault n k faultQl (s.qlFault n k)).entryStep n k)
  else
    let s := (s.setf (SEL.CAND_STATE_RANK n k) r).ev (SEL.CAND_EVENT_RANK_CHANGE n k)
    let mine := s.active n = k
    let s := s.when mine (fun s => (s.setf (SEL.STATUS_ACTIVE_RANK n) r).ev (SEL.EVENT_ACTIVE_RANK n))
    (s.setFault n k faultQl (s.qlFault n k)).entryStep n k

/-- The effective ranks of several entries follow their sources, with one evaluation for each selector (R198, R227). -/
def State.refreshRanks (s : State) (es : List (Nat × Nat)) : State :=
  (s.forL es (fun s x => s.rankStep x.1 x.2)).entriesCheck (s.marks es) 1

/-- The effective rank of an entry follows its sources (R198). -/
def State.refreshRank (s : State) (n k : Nat) : State := s.refreshRanks [(n, k)]

/-- A decoded rank for an entry is kept. -/
def State.putRank (s : State) (n k r : Nat) : State := s.modEnt (entKey n k) (fun e => { e with rank := r })

/-- A decoded rank arrives for an entry (R202 to R206). -/
def State.giveRank (s : State) (n k r : Nat) : State := (s.putRank n k r).refreshRank n k

/-- A decoded rank arrives for every entry of a landing whose QL source is one of a list (R204, R206, R208). -/
def State.giveRanks (s : State) (who : Nat) (srcs : List Nat) (r : Nat) : State :=
  let es := (s.entriesOf who).filter (fun x => srcs.contains (s.f (SEL.CAND_CFG_SOURCE x.1 x.2)))
  (s.forL es (fun s x => s.putRank x.1 x.2 r)).refreshRanks es

/-! Samples and results. -/

/-- A limit in units of 2⁻⁴⁰, in 2⁻⁵⁶. -/
def lim40 (n : Nat) : Int := (n : Int) * 2 ^ 16

/-- A frequency result of an entry, in 2⁻⁵⁶, and the frequency on its samples' timeline: what it does at the entry itself (R194, R196,
R212, R214). -/
def State.resultStep (s : State) (n k : Nat) (tag : Tag) (y yRaw : Int) : State :=
  let inside := decide ((y.natAbs : Int) ≤ lim40 (s.f (SEL.CAND_LIM_IN_IN n k)))
  let outside := decide ((y.natAbs : Int) > lim40 (s.f (SEL.CAND_LIM_OUT_OUT n k)))
  match tag with
  | .valid =>
    let s := s.modEnt (entKey n k) (fun e => { e with
      starve := 0, okResults := if inside then e.okResults + 1 else 0
      freqs := (y :: e.freqs).take 4, freq := some yRaw })
    let s := s.setSat (SEL.CAND_FOFF_Y n k) (roundNear y (2 ^ 16))
    let s := if outside then s.setFault n k faultFreq true
      else if inside then s.setFault n k faultFreq false else s
    (s.setFault n k faultStarved false).entryStep n k
  | .settle => s.modEnt (entKey n k) (fun e => { e with okResults := 0 })
  | _ =>
    let s := s.modEnt (entKey n k) (fun e => { e with starve := e.starve + 1, okResults := 0 })
    if 4 ≤ (s.entC (entKey n k)).starve ∧ !s.on (SEL.CAND_STATE_STARVED n k) then
      (s.setFault n k faultStarved true).entryStep n k
    else s

/-- The frequency results of several entries arrive together, with one evaluation for each selector (R227, R229). -/
def State.entryResults (s : State) (xs : List ((Nat × Nat) × Tag × Int × Int)) : State :=
  let es := xs.map (·.1)
  let t := (s.forL xs (fun s x => s.resultStep x.1.1 x.1.2 x.2.1 x.2.2.1 x.2.2.2)).entriesCheck (s.marks es) 1
  t.forL (xs.filter (fun x => x.2.1 == .valid)) (fun s x => s.forcedReturn x.1.1 x.1.2)

/-- A frequency result of an entry (R194, R196). -/
def State.entryResult (s : State) (n k : Nat) (tag : Tag) (y yRaw : Int) : State := s.entryResults [((n, k), tag, y, yRaw)]

/-- How far a phase sample lies from the prediction of R195, in 2⁻³² fs: for a landing the previous stamp advanced by whole
decimated periods at the latest frequency, for a berth the previous master phase advanced over the time. Of a crossing-link stamp the
delay of its lane is taken, and whole word periods do not count (R539). -/
def State.jumpError (s : State) (n k : Nat) (p x : Int × Nat) (f : Int) : Int :=
  let w := s.f (SEL.CAND_CFG_WHO n k)
  if w ≥ 0x80 then x.1 - p.1 - f * (((x.2 : Int) - p.2) * tPhase) / q56
  else
    let h := s.f (LND.NOM_FREQ_HALF_HZ w)
    if h = 0 then 0
    else
      let d := (x.1 - p.1) * stampPhase - edgesBetween (s.decim w) p.2 x.2 * s.periodNum w * q56 / ((q56 + f) * h)
      if w < 28 then d
      else
        let d := d - (s.laneDelay w - (s.entC (entKey n k)).prevD) * 1000000
        d - roundNear d (2560000 * fs1).toNat * (2560000 * fs1)

/-- The first samples after a return to the same entry must lie near the loops' output (R223). -/
def State.returnCheck (s : State) (n k : Nat) (x : Sample) : State :=
  let left := (s.selC n).returnLeft
  if left = 0 ∨ s.selState n ≠ 1 ∨ s.active n ≠ k then s
  else
    let lim : Int := s.f (SEL.CAND_LIM_PLAUS_PHASE n k) * 1000000 * fs1
    if (s.loopsOf n).all (fun l => decide (((s.sampleError n k l x).natAbs : Int) ≤ lim)) then
      s.modSel n (fun c => { c with returnLeft := left - 1 })
    else
      let s := s.setCstate n k 3
      let s := s.modSel n (fun c => { c with returnLeft := 0 })
      let s := (s.setf (SEL.STATUS_STATE n) 2).ev (SEL.EVENT_HOLDOFF_IN n)
      let s := (s.logSwitch n k).forL (s.loopsOf n) (fun s l => s.freezeLoop l)
      let s := s.holdoffEnd n false
      s.entryCheck n k 1

/-- A phase sample of an entry (R195, R212, R214, R223). -/
def State.entrySample (s : State) (n k : Nat) (tag : Tag) (x : Int × Nat) : State :=
  let e := s.entC (entKey n k)
  if tag ≠ .valid then s.modEnt (entKey n k) (fun e => { e with jumpOk := 0 })
  else
    let z : Sample := ⟨x.1, x.2, s.laneDelay (s.f (SEL.CAND_CFG_WHO n k))⟩
    let diff := (s.loopsOf n).map (fun l => (l, s.sampleError n k l z))
    let jump := match e.prev, e.freq with
      | some p, some f => some (s.jumpError n k p x f)
      | _, _ => none
    let s := s.modEnt (entKey n k) (fun e => { e with
      prev := some x, prevD := z.d, diffs := (diff :: e.diffs).take 4 })
    let s := match jump with
      | some d =>
        if d.natAbs > s.f (SEL.CAND_LIM_JUMP_JUMP n k) * 1000 * 2 ^ 32 then
          (s.modEnt (entKey n k) (fun e => { e with jumpOk := 0 })).setFault n k faultJump true
        else
          let s := s.modEnt (entKey n k) (fun e => { e with jumpOk := e.jumpOk + 1 })
          if e.jumpOk + 1 ≥ 4 then s.setFault n k faultJump false else s
      | none => s
    (s.entryCheck n k 1).returnCheck n k z

/-- The monitors of an entry begin anew after a kind change, an attachment or a landing (R192, R195, R211). -/
def State.freshEntry (s : State) (n k : Nat) : State :=
  s.modEnt (entKey n k) (fun e => { e with
    jumpOk := 0, starve := 0, okResults := 0, freqs := [], freq := none, prev := none, diffs := [], wtrDue := false
    readmitted := false })

/-- The activity monitor of every entry of a landing (R193). -/
def State.landingActivity (s : State) (m : Nat) (lost : Bool) : State := s.faults (s.entriesOf m) faultAct lost

end Sys2Proof.Machine
end

