-- ==== Sys2Proof/Machine/LandOps.lean ====
section
/-! DEFINITION. What starts, ends and abandons a measurement at a landing, and how its results are published: gates, restarts and
activity (R166, R174, R183 to R187, R193). -/

namespace Sys2Proof.Machine

/-- Stamp mode. -/
def State.stampMode (s : State) (n : Nat) : Bool := s.on (LND.CTRL_MODE n)

/-- A settling count of edges or frames runs at a landing (R18, R185). -/
def LndCore.edgeSettling (c : LndCore) : Bool := c.stepEdges != 0 || c.linkSettle

/-- Gate bounding. -/
def State.gateBound (s : State) (n : Nat) : Bool := s.on (LND.CFG_BOUND n)

/-- STATUS.SETTLING follows the counts (R185). -/
def State.refreshSettling (s : State) (n : Nat) : State :=
  let c := s.lndC n
  s.setb (LND.STATUS_SETTLING n)
    (c.selStamps + c.selResults + c.filtStamps + c.filtResults != 0 || c.edgeSettling)

/-- Words that carry no meaning in a GAP result (R16): free values (log entry 3, DESIGN CHOICE). -/
def State.freeWords (s : State) (k : Nat) : List Word × State :=
  ((List.range k).map (fun i => BitVec.ofNat 32 (s.free (32 * k) / 2 ^ (32 * i))), s.took)

/-- A result completes: its record, its tag, the sticky bit and the event (R183, R391). -/
def State.publish (s : State) (n : Nat) (tag : Tag) (kind flags : Nat) (ws : List Word) : State :=
  let c := s.lndC n
  let w0 := tag.num * 2 ^ 30 + kind * 2 ^ 28 + flags * 2 ^ 26 + c.seq
  let s := s.modLnd n (fun c => { c with result := BitVec.ofNat 32 w0 :: ws, seq := (c.seq + 1) % 2 ^ 26 })
  ((s.setf (LND.STATUS_RES_TAG n) tag.num).ev (LND.EVENT_RESULT n)).route (0x020 + n)

/-- A regression result reaches the selectors that hold the landing (R194); in interval mode the landing delivers none (R166). -/
def State.deliverResult (s : State) (n : Nat) (tag : Tag) (y yRaw : Int) : State :=
  if s.stampMode n then s.entryResults ((s.entriesOf n).map (fun x => (x, tag, y, yRaw))) else s

/-- A regression that ends without a value is GAP (R181, R186). -/
def State.gapRegression (s : State) (n flags k endMs : Nat) : State :=
  let (ws, s) := s.freeWords 5
  let s := s.publish n .gap 1 flags (BitVec.ofNat 32 k :: ws ++ [BitVec.ofNat 32 endMs])
  s.deliverResult n .gap 0 0

/-- An interval that ends without a value is GAP (R174, R177). -/
def State.gapInterval (s : State) (n flags : Nat) : State :=
  let (ws, s) := s.freeWords 4
  let s := s.modLnd n (fun c => { c with ival := none })
  let s := (s.setf (LND.STATUS_LAST_TAG n) 3).setf (LND.STATUS_RUNNING n) 0
  s.publish n .gap 2 flags (ws ++ [0, 0, 0])

/-- A VALID stamp enters sums (R179): x in decimated edges, t from the first stamp. -/
def Sums.add (a : Sums) (d : Nat) (stamp : Int) (edge : Nat) : Sums :=
  let (s1, e1) := a.first.getD (stamp, edge)
  let x := (edge + 2 ^ 48 - e1) % 2 ^ 48 / max 1 d
  let t := stamp - s1
  { a with
    first := some (s1, e1), n := a.n + 1, sx := a.sx + x, sxx := a.sxx + x * x, st := a.st + t, sxt := a.sxt + x * t
    stt := a.stt + t * t }

/-- Activity is lost, or the swing low, within the gate in progress and the slice in progress (R181). -/
def LndCore.mark (c : LndCore) (now : Nat) (lost low : Bool) : LndCore :=
  { c with
    gate := if c.gateStart ≤ now then { c.gate with lost := c.gate.lost || lost, low := c.gate.low || low } else c.gate
    slc := { c.slc with lost := c.slc.lost || lost, low := c.slc.low || low } }

/-- What still holds at the end of sums held within them (R181). -/
def State.endSums (s : State) (n : Nat) (a : Sums) : Sums :=
  { a with lost := a.lost || !s.on (LND.STATUS_ACTIVE n), low := a.low || s.on (LND.STATUS_LOW_SWING n) }

/-- A gate starts; a new DECIM or GATE takes effect, and a new DECIM is a decimator start (R186, R726). Stamps that came before the gate
and lie in it enter it (R175). -/
def State.openGate (s : State) (n start : Nat) : State :=
  let d := s.f (LND.DECIM_DIV n)
  let g := s.f (LND.GATE_MS n)
  (s.modLnd n (fun c => { c with
    gateOn := true, gateStart := start, y30Sum := 0, y30Num := 0
    gate := (c.early.filter (fun x => decide (start ≤ x.1))).foldl (fun a x => a.add d x.2.1 x.2.2) {}
    early := [], skip := if c.decim = d then c.skip else 0, decim := d, gateMs := g })).setf (LND.STATUS_RUNNING n) 1

/-- A gate ends: its result will be available within 2 µs (R176). -/
def State.closeGate (s : State) (n stop : Nat) (long : Bool) : State :=
  let c := s.lndC n
  let sums := s.endSums n c.gate
  (s.modLnd n (fun c => { c with
    gateOn := false, closed := c.closed ++ [⟨c.gateStart, stop, long, sums, c.y30Sum, c.y30Num, c.decim⟩] })).setf
    (LND.STATUS_RUNNING n) 0

/-- The next whole millisecond of extended coarse time, in T. -/
def State.nextMs (s : State) : Nat := (s.now + 1999999) / 2000000 * 2000000

/-- What was in progress is abandoned and tagged GAP (R186, R187); a gate that is still to start is not in progress. -/
def State.abandon (s : State) (n : Nat) : State :=
  let c := s.lndC n
  let s := if c.gateOn ∧ c.gateStart ≤ s.now then
      (s.modLnd n (fun c => { c with gateOn := false })).gapRegression n 0 c.gate.n (s.now / 2000000)
    else s
  if c.ival.isSome then s.gapInterval n 0 else s

/-- The count of a landing input selection starts: in interval mode a measurement is a result (R18, R185). -/
def State.selectInput (s : State) (n : Nat) : State :=
  (s.modLnd n (fun c => { c with selStamps := if s.stampMode n then 2 else 0, selResults := 2 })).refreshSettling n

/-- A landing starts measuring from nothing, under the input-selection count (R185); in stamp mode with overflow bounding its gates
begin at the next whole millisecond (R174). Gates and intervals that have ended still give their results. -/
def State.beginLanding (s : State) (n : Nat) : State :=
  let s := s.modLnd n (fun c => { c with
    skip := 0, gateOn := false, gate := {}, early := [], armed := false, ival := none, waitAct := false
    slc := { lost := c.slc.lost, low := c.slc.low }, slcEnd := s.now / 2000000 * 2000000 + 2000000, slcEarly := []
    decim := s.f (LND.DECIM_DIV n), gateMs := s.f (LND.GATE_MS n) })
  let s := (s.setf (LND.STATUS_RUNNING n) 0).selectInput n
  if s.on (LND.CTRL_ENABLE n) && s.stampMode n && !s.gateBound n then s.openGate n s.nextMs else s

/-- A landing is restarted (R186, R187). -/
def State.restartLanding (s : State) (n : Nat) : State := (s.abandon n).beginLanding n

/-- The landing serves its selectors: active, enabled and in stamp mode (R166, R193). -/
def State.lndServes (s : State) (n : Nat) : Bool :=
  s.on (LND.STATUS_ACTIVE n) && s.on (LND.CTRL_ENABLE n) && s.stampMode n

/-- The activity monitors of a landing's entries follow it (R193). -/
def State.refreshActivity (s : State) (n : Nat) : State := s.landingActivity n (!s.lndServes n)

/-- Loss of activity is declared (R184, R187). -/
def State.loseActivity (s : State) (n : Nat) : State :=
  if !s.on (LND.STATUS_ACTIVE n) then s
  else
    let s := (s.setf (LND.STATUS_ACTIVE n) 0).modLnd n (fun c => { (c.mark s.now true false) with inWin := 0, sliceRun := none })
    let s := (s.ev (LND.EVENT_ACT_LOST n)).route (0x040 + n)
    let s := if (s.lndC n).ival.isSome then
        (s.gapInterval n 0).modLnd n (fun c => { c with waitAct := !s.gateBound n }) else s
    s.refreshActivity n

/-- The activity window in T: ACT.HALF half-periods, rounded up, at least 4 ns (R184). -/
def State.actWindow (s : State) (n : Nat) : Nat :=
  max 8 (ceilDiv (s.f (LND.ACT_HALF n) * 2000000000) (max 1 (s.f (LND.NOM_FREQ_HALF_HZ n))))

/-- The link that a recovered clock comes from is up, or its port is dormant with block lock; any other landing has none to lose (R184,
R409). -/
def State.recoveredUp (s : State) (n : Nat) : Bool :=
  if 20 ≤ n ∧ n ≤ 27 then
    s.on (PRT.STATUS_LINK (n - 20)) || (s.on (PRT.STATUS_DORMANT (n - 20)) && s.on (PRT.STATUS_BLOCK_LOCK (n - 20)))
  else if n = 28 then s.on XLK.STATUS_LANE0_UP
  else if n = 29 then s.on XLK.STATUS_LANE1_UP
  else true

/-- A raw edge at the activity detector: activity returns at the second of two in a row that lie within the window
(R184). -/
def State.activityEdge (s : State) (n t : Nat) : State :=
  let c := s.lndC n
  let near := match c.lastEdge with | some t0 => decide (t ≤ t0 + s.actWindow n) | none => false
  let k := if near then c.inWin + 1 else 0
  let s := s.modLnd n (fun c => { c with lastEdge := some t, inWin := min k 2 })
  if !s.on (LND.STATUS_ACTIVE n) ∧ 2 ≤ k ∧ s.recoveredUp n then
    let s := if n = 30 then s.setf FLT.DEVICE_OSCIN 0 else s
    let s := s.modLnd n (fun c => { (if c.gateStart < s.now then c.mark s.now true false else c) with waitAct := false })
    (((s.setf (LND.STATUS_ACTIVE n) 1).ev (LND.EVENT_ACT_RETURN n)).route (0x040 + n)).refreshActivity n
  else s

end Sys2Proof.Machine
end

