-- ==== Sys2Proof/Machine/Banks.lean ====
section
/-! DEFINITION. The banks of the scratchpads as their owners write them, with their check bits (18_scratchpads.md, R677 target 0x1), and
the map of the engine array over them (R300 to R305). -/

namespace Sys2Proof.Machine

/-! Banks. -/

/-- The scratchpad that holds a BAR2 offset, and the size of one (R580). -/
abbrev spSize : Nat := 0x80000

/-- Inverted check bits of a word: 0, 1 or 2 (R626). -/
def State.eccBits (s : State) (w : Nat) : Nat := Tab.get (fun _ => 0) s.ecc w

/-- Give a word its check bits, with `b` of them inverted. -/
def State.setEcc (s : State) (w b : Nat) : State := { s with ecc := Tab.set (fun _ => 0) s.ecc w b }

/-- An injection takes effect (R678). -/
def State.injDone (s : State) : State := (s.setf FLT.STATUS_INJ_PEND 0).ev FLT.EVENT_INJ_DONE

/-- Write check bits for a word that is written: an armed injection on it inverts some (R677). -/
def State.eccWrite (s : State) (w : Nat) : State :=
  match s.flt.injWord with
  | some (a, b) =>
    if a / 8 = w then
      { (s.setEcc w b) with flt := { s.flt with injWord := none } }.injDone
    else s.setEcc w 0
  | none => s.setEcc w 0

/-- The words that bytes from an offset on touch. -/
def wordsOf (a n : Nat) : List Nat := (List.range ((a + n + 7) / 8 - a / 8)).map (fun i => a / 8 + i)

/-- An owner writes bytes: whole words get fresh check bits. -/
def State.bankWrite (s : State) (a : Nat) (bs : List Byte) : State :=
  (s.setBytes a bs).forL (wordsOf a bs.length) State.eccWrite

/-- A word of a range has an uncorrectable error. -/
def State.bankBad (s : State) (a n : Nat) : Bool :=
  s.ecc.any (fun x => decide (a / 8 ≤ x.1) && decide (x.1 * 8 < a + n) && decide (2 ≤ x.2))

/-- Replace what a region of memory holds by a list of cells at rising offsets within it, with fresh check bits. -/
def State.fillRegion (s : State) (a n : Nat) (cells : List (Nat × Byte)) : State :=
  { s with
    mem := s.mem.filter (fun x => decide (x.1 < a)) ++ (cells.filter (fun x => x.2 ≠ 0 ∧ a ≤ x.1 ∧ x.1 < a + n)) ++
      s.mem.filter (fun x => decide (a + n ≤ x.1))
    ecc := s.ecc.filter (fun x => !(decide (a ≤ x.1 * 8) && decide (x.1 * 8 < a + n))) }

/-- Fill a scratchpad with zeros (R630). -/
def State.zeroSp (s : State) (sp : Nat) : State := s.fillRegion (sp * spSize) spSize []

/-- A 64-bit little-endian word of memory. -/
def State.word64 (s : State) (a : Nat) : Nat := ofLe (s.bytes a 8)

/-! The engine array. -/

/-- State of an engine: 0 PONTOON, 1 BOUND, 2 TESTING, 3 RETIRED, 4 FENCED (R300). -/
def State.engState (s : State) (e : Nat) : Nat := s.f (ENG.ENGINE_STATE e)

/-- Engines in a state. -/
def State.engCount (s : State) (st : Nat) : Nat := ((List.range 36).filter (fun e => s.engState e == st)).length

/-- ENG.STATUS follows the map; the pool falling to POOL_LOW sets its event (R316). -/
def State.refreshEng (s : State) : State :=
  let was := s.f ENG.STATUS_PONTOONS
  let n := s.engCount 0
  let low := s.f ENG.CTRL_POOL_LOW
  let s := (s.setf ENG.STATUS_PONTOONS n).setf ENG.STATUS_BOUND (s.engCount 1)
  let s := (s.setf ENG.STATUS_RETIRED (s.engCount 2 + s.engCount 3)).setf ENG.STATUS_FENCED (s.engCount 4)
  let s := s.setb ENG.STATUS_LOW (decide (n ≤ low))
  s.evIf (decide (n < was ∧ n = low)) ENG.EVENT_POOL_LOW

/-- The engine's own entry of the map in its scratchpad (R305). -/
def State.mirrorEngine (s : State) (e : Nat) : State :=
  s.bankWrite (e * spSize + 0x60600) (leBytes 4 (s.w (ENG.ENGINE e)))

/-- Put an engine into a state; entering FENCED or RETIRED moves its generation on (R303), and
leaving BOUND disarms an injection into its checker (R677). -/
def State.setEngine (s : State) (e st loop : Nat) : State :=
  let s := if (st = 4 ∨ st = 3) ∧ s.engState e ≠ st then s.incWrap (ENG.ENGINE_GEN e) else s
  let s := if s.flt.injEngine = some e ∧ st ≠ 1 then
    (({ s with flt := { s.flt with injEngine := none } } : State).setf FLT.STATUS_INJ_PEND 0) else s
  (((s.setf (ENG.ENGINE_STATE e) st).setf (ENG.ENGINE_LOOP e) loop).mirrorEngine e).refreshEng

/-- A field of an engine's entry of the map changes; its own copy in the scratchpad follows (R305). -/
def State.setEntry (s : State) (e : Nat) (x : Fld) (v : Nat) : State := (s.setf x v).mirrorEngine e

/-- The pattern of an empty history (R304): word 0 of every record reads 0xC000_0000_0000_0000. -/
def emptyHistory (e : Nat) : List (Nat × Byte) := (List.range 12288).map (fun i => (e * spSize + 32 * i + 7, 0xC0))

/-- The history region of an engine's scratchpad is written with the pattern of an empty history (R304). -/
def State.patternHistory (s : State) (e : Nat) : State := s.fillRegion (e * spSize) 0x60000 (emptyHistory e)

/-- An engine becomes a pontoon (R304). -/
def State.toPontoon (s : State) (e : Nat) : State := (s.patternHistory e).setEngine e 0 0x3F

/-- A migration into an engine is in progress: it is no pontoon to choose or to name (R317). -/
def State.incoming (s : State) (e : Nat) : Bool :=
  s.loop.any (fun x => match x.2.mig with | some (_, d, _, _) => d == e | none => false)

/-- The lowest-numbered pontoon (R302). -/
def State.pontoon (s : State) : Option Nat := (List.range 36).find? (fun e => s.engState e == 0 && !s.incoming e)

/-- The engine that runs a loop. -/
def State.engineOf (s : State) (l : Nat) : Nat := s.f (LOOP.STATUS_ENGINE l)

/-- The receiving engine of a migration that ends without it is a pontoon again, whose history region may hold a record of the loop
(R304, R311, R312). -/
def State.letGo (s : State) (l : Nat) : State :=
  match (s.loopC l).mig with
  | some (_, d, _, _) => if s.engState d = 0 then s.patternHistory d else s
  | none => s

end Sys2Proof.Machine
end

