-- ==== Sys2Proof/Machine/Blocks.lean ====
section
/-! DEFINITION. What happens to whole blocks from outside them: a landing's restart, a port that goes down, the block resets of
both, frames of the crossing link and the breaking of the pair, and the berths that a measurement berth stands for (R187, R385,
R406, R434, R436, R465, R502, R528, R534, R540). -/

namespace Sys2Proof.Machine

/-! Landings. -/

/-- Block reset of the front end of a landing (R187, R672): a new calibration pair runs. -/
def State.resetFrontEnd (s : State) (n : Nat) : State :=
  let s := s.restartLanding n
  (s.modLnd n (fun c => { c with paired := false, badPairs := 0 })).setf (LND.STATUS_CAL_OK n) 0

/-! Berths. -/

/-- The upstream berth that a measurement berth stands for: the one it names, or its port's best (R502). -/
def State.upstreamOf (s : State) (b : Berth) : Option Nat :=
  match b.att with
  | none => none
  | some (_, _, h) =>
    let h := if h = 0 then s.f (PTE.BEST_HANDLE b.port) else h
    if h != 0 && s.current h && hKind h == 2 then some (hSlot h) else none

/-- The entries to which a measurement berth of an upstream berth is attached (R205). -/
def State.berthEntries (s : State) (slot : Nat) : List (Nat × Nat) :=
  s.berth.filterMap (fun x =>
    if x.2.kind = 4 ∧ s.upstreamOf x.2 = some slot then x.2.att.map (fun a => (a.1, a.2.1)) else none)

/-- The selector entries that take the samples of an upstream berth: a LIVE measurement berth carries them (R498). -/
def State.entriesFrom (s : State) (slot : Nat) : List (Nat × Nat) :=
  s.berth.filterMap (fun x =>
    if x.2.kind = 4 ∧ x.2.live ∧ s.upstreamOf x.2 = some slot then x.2.att.map (fun a => (a.1, a.2.1)) else none)

/-- The sample stream of an upstream berth is lost or has returned (R193, R465). -/
def State.streamFault (s : State) (slot : Nat) (lost : Bool) : State :=
  s.faults (s.entriesFrom slot) faultAct lost

/-- The slots of the berths of a kind on a port. -/
def State.slotsOn (s : State) (port kind : Nat) : List Nat :=
  s.berth.filterMap (fun x => if x.2.kind = kind ∧ x.2.port = port then some x.1 else none)

/-! Ports. -/

/-- A port goes down (R184, R406, R409, R434, R435): event frames are dropped, general frames wait, received pause ends; a
receiver that stays powered keeps its lock, and one that loses it is in local fault (R401; log entry 85, PRESUMED). -/
def State.portDownWith (s : State) (n : Nat) (rx : Bool) : State :=
  let up := s.on (PRT.STATUS_LINK n)
  let gone := (s.prtC n).queued.filter TxFrame.isEvent
  let keep := fun (q : List TxFrame) => q.filter (fun f => !f.isEvent)
  let s := s.modPrt n (fun c => { c with
    qx := keep c.qx, q3 := keep c.q3, q2 := keep c.q2, q1 := keep c.q1, q0 := keep c.q0, holding := true, onWire := []
    downAt := if up then s.now else c.downAt, ignoreTo := if up then 0 else c.ignoreTo })
  let locks := if rx then s.f ⟨PRT.STATUS n, 3, 2⟩ else 0
  let fault := b2n (!rx && !s.on (PRT.STATUS_DORMANT n))
  let s := s.setf ⟨PRT.STATUS n, 10, 0⟩ (32 * fault + 4 * locks + 2 * s.f (PRT.STATUS_DORMANT n))
  let s := (s.setf (PRT.STATUS_CTX n) 0).modLnd (20 + n) (fun c => { c with linkSettle := false })
  let s := s.forL gone (fun s f => s.dropped n f)
  let s := if up then (s.count n 22).ev (PRT.EVENT_LINK_DOWN n) else s
  let s := if rx then s else s.loseActivity (20 + n)
  (s.refreshSettling (20 + n)).forL (s.slotsOn n 2) (fun s k => s.streamFault k true)

/-- A port goes down and its receiver loses lock. -/
def State.portDown (s : State) (n : Nat) : State := s.portDownWith n false

/-- The conditions of R406 on the receiver hold. -/
def State.inLock (s : State) (n : Nat) : Bool :=
  s.on (PRT.STATUS_BLOCK_LOCK n) && (s.f (PRT.CFG_MODE n) != 2 || s.on (PRT.STATUS_FEC_LOCK n)) && !s.on (PRT.STATUS_HI_BER n)

/-- A pilot-level equaliser setting is in force (R437). -/
def State.eqHeld (s : State) (n : Nat) : Bool := s.on (PRT.EQ_CTRL_FREEZE n) || s.on (PRT.EQ_CTRL_MANUAL n)

/-- Enter an equalisation state; FROZEN stands while a pilot setting is in force (R404, R437). -/
def State.setEq (s : State) (n v : Nat) : State :=
  s.setf (PRT.STATUS_EQ n) (if s.eqHeld n ∧ v ≠ 0 then 5 else v)

/-- The link goes down and trains anew from the last converged values, while the receiver has its signal (R403, R436). -/
def State.retrain (s : State) (n : Nat) : State := (s.portDown n).when (s.prtC n).signal (fun s => s.setEq n 3)

/-- Block reset of the MAC and PCS of a port (R436, R672). -/
def State.resetPort (s : State) (n : Nat) : State := (s.retrain n).ev (PRT.EVENT_BLOCK_RESET n)

/-! The crossing link. -/

/-- A lane is up. -/
def State.laneUp (s : State) (lane : Nat) : Bool := s.on (if lane = 0 then XLK.STATUS_LANE0_UP else XLK.STATUS_LANE1_UP)

/-- Rank and ECHO of the QL byte (R540); in HOLDOFF, and in no state else, the rank last sent. -/
def State.xlkQl (s : State) : Nat × Bool :=
  let n := s.f XLK.CFG2_QL_SEL
  let st := s.selState n
  let a := s.active n
  let r := if st = 1 ∨ st = 4 then s.f (SEL.STATUS_ACTIVE_RANK n)
    else if st = 2 then s.xlk.lastRank
    else if st = 3 then s.f XLK.CFG_HO_QL
    else 0xF
  (r, decide (a < 30) && decide (s.f (SEL.CAND_CFG_WHO n a) = 28 ∨ s.f (SEL.CAND_CFG_WHO n a) = 29))

/-- The frame of a type that the device would send next (R528): HELLO carries the sender's own version. -/
def State.xlkFrame (s : State) (type : Nat) (body : List Byte) : List Byte :=
  let (r, echo) := s.xlkQl
  let ver := if type = 1 then (s.fab.img.map (·.xlkVer)).getD 0 else s.f XLK.STATUS_VER
  let flags := s.f XLK.STATUS_INCUMBENT + 2 * b2n (s.selState (s.f XLK.CFG2_QL_SEL) == 3) +
    4 * s.f XLK.STATUS_LANE0_UP + 8 * s.f XLK.STATUS_LANE1_UP
  let h := beBytes 1 type ++ beBytes 1 ver ++ beBytes 2 (20 + body.length) ++ beBytes 4 s.xlk.txSeq ++
    beBytes 1 (s.f XLK.STATUS_ROLE) ++ beBytes 1 (r + 128 * b2n echo) ++ beBytes 1 flags ++
    beBytes 1 (s.f XLK.CFG_CARD) ++ [0, 0, 0, 0] ++ body
  h ++ beBytes 4 (crc32c h)

/-- A frame leaves on a lane that is up. -/
def State.xlkPut (s : State) (lane type : Nat) (f : List Byte) : State :=
  if !s.laneUp lane then s
  else
    let key := 2 * type + lane
    { s with xlk := { s.xlk with sent := (key, f) :: s.xlk.sent.filter (fun x => x.1 != key) } }

/-- The count of frames moves on, and the rank sent is kept (R528, R540). -/
def State.xlkSeq (s : State) : State :=
  { s with xlk := { s.xlk with txSeq := (s.xlk.txSeq + 1) % 2 ^ 32, lastRank := s.xlkQl.1 } }

/-- Send a frame on one lane. -/
def State.xlkSend (s : State) (lane type : Nat) (body : List Byte) : State :=
  (s.xlkPut lane type (s.xlkFrame type body)).xlkSeq

/-- Send a frame on both lanes with one SEQ (R524). -/
def State.xlkSendBoth (s : State) (type : Nat) (body : List Byte) : State :=
  let f := s.xlkFrame type body
  ((s.xlkPut 0 type f).xlkPut 1 type f).xlkSeq

/-- Send a NOTICE, at an agreed version of 3 only (R550). -/
def State.xlkNotice (s : State) (kind : Nat) : State :=
  if s.f XLK.STATUS_VER = 3 then s.xlkSendBoth 8 (beBytes 1 kind ++ [0, 0, 0]) else s

end Sys2Proof.Machine
end

