-- ==== Sys2Proof/Machine/OutOps.lean ====
section
/-! DEFINITION. Synthesisers and outputs as other units act on them: the nominal frequency a ramp has reached, the end of a ramp,
squelch, starts, alignments and dividers (R319 to R321, R327 to R358, R363). -/

namespace Sys2Proof.Machine

/-- The outputs that a synthesiser clocks. -/
def State.outsOf (s : State) (n : Nat) : List Nat := (s.outRecs.filter (fun r => r.synth == n)).map (·.number)

/-- A pulse output is one at or below 100 kHz (R92). -/
def OutputRec.isPulse (r : OutputRec) : Bool := r.freqUhz ≤ 100000000000

/-- An output is a pulse output. -/
def State.isPulse (s : State) (m : Nat) : Bool := ((s.outRec m).map OutputRec.isPulse).getD false

/-- An output's squelch code is RUN_ON (R320). -/
def State.runsOn (s : State) (m : Nat) : Bool := ((s.outRec m).map (fun r => r.squelch == 2)).getD false

/-! Nominal frequency and ramps. -/

/-- The nominal frequency in µHz at a time: on the line of the segment that runs (R334, R337). -/
def AplCore.nomAt (c : AplCore) (t : Nat) : Nat :=
  match c.run with
  | none => c.nomUhz
  | some (i, since) =>
    match c.runSegs[i]? with
    | none => c.nomUhz
    | some g =>
      let len := g.durUs * 2000
      let el := min (t - since) len
      ((c.nomUhz : Int) + roundOpen 34 (((g.endUhz : Int) - c.nomUhz) * el) (max 1 len)).toNat

/-- The nominal frequency in force (R335, R340). -/
def State.nomNow (s : State) (n : Nat) : Nat := (s.aplC n).nomAt s.now

/-- Give a synthesiser a nominal frequency (R327). -/
def State.setNom (s : State) (n uhz : Nat) : State :=
  (s.modApl n (fun c => { c with nomUhz := uhz })).setf (APL.NOM_KHZ_KHZ n) (roundNear uhz 1000000000).toNat

/-! Divider ratios. -/

/-- f_PFD in kHz: twice the frequency of `XOIN` (R327). -/
def State.pfdKhz (s : State) : Nat := 2 * s.f TOP.STRAP_XO_KHZ

/-- N_nom in 2⁻⁶⁴: the nominal frequency over f_PFD (R327). -/
def State.nNom (s : State) (n : Nat) : Nat := (roundNear (s.nomNow n * 2 ^ 64) (s.pfdKhz * 1000000000)).toNat

/-- The feedback divider ratio N in 2⁻⁶⁴: N_nom × (1 + w) (R328). The VCO runs at f_PFD × N (R330). -/
def State.ratioN (s : State) (n : Nat) : Nat := (roundNear (s.nNom n * (2 ^ 56 + (s.aplC n).word)) (2 ^ 56)).toNat

/-- The frequency of the VCO in kHz × 2⁻⁶⁴ (R330). -/
def State.vcoNow (s : State) (n : Nat) : Nat := s.pfdKhz * s.ratioN n

/-- The effective ratio of a clock output in 2⁻⁵⁶: D, in steered mode D / (1 + w) (R341, R343). -/
def OutCore.ratio (c : OutCore) : Nat :=
  (roundNear ((c.dint * 2 ^ 56 + c.dfrac) * 2 ^ 56 : Nat) (2 ^ 56 + c.word).toNat).toNat

/-! Ramps. -/

/-- A ramp may cross bands: which band the synthesiser is in is open from its start on (R338, log entry 3, DESIGN CHOICE). -/
def State.freeBand (s : State) (n : Nat) : State := (s.setf (APL.STATUS_BAND n) (s.free 6)).took

/-- The generator stops at the frequency reached (R339, R340). -/
def State.haltRamp (s : State) (n : Nat) : State :=
  let s := if (s.aplC n).run.isSome then (s.setNom n (s.nomNow n)).freeBand n else s
  let s := s.modApl n (fun c => { c with run := none, held := none, runSegs := [] })
  (s.setf (APL.STATUS_RAMPING n) 0).setf (APL.STATUS_RAMP_HOLD n) 0

/-- A ramp in progress or holding is ended, the prepared profile is discarded (R339). -/
def State.abortRamp (s : State) (n : Nat) : State :=
  let c := s.aplC n
  let s := s.evIf (c.run.isSome || c.held.isSome) (APL.EVENT_RAMP_ABORT n)
  (s.haltRamp n).modApl n (fun c => { c with segs := [] })

/-- A full reset stops a ramp, and the prepared profile is lost (R318, R340). -/
def State.ferryApl (s : State) (n : Nat) : State :=
  let cut := (s.aplC n).run.isSome
  (s.haltRamp n).modApl n (fun c => { c with segs := [], cut := c.cut || cut })

/-- Start a profile from the nominal frequency in force (R337); a running ramp stops (R363). -/
def State.startRamp (s : State) (n : Nat) (segs : List Segment) : State :=
  let s := (s.evIf (s.aplC n).run.isSome (APL.EVENT_RAMP_ABORT n)).haltRamp n
  let s := (s.modApl n (fun c => { c with run := some (0, s.now), runSegs := segs, cut := false })).freeBand n
  ((s.setf (APL.STATUS_RAMPING n) 1).setf (APL.STATUS_SEG n) 0).setf (APL.STATUS_RAMP_CUT n) 0

/-- Segment of one ramp to a target at a slope in kHz/ms (R336); DUR is rounded up to whole µs (log entry 27, DEDUCED). -/
def rampSegment (nom target rate : Nat) : Segment :=
  ⟨target, max 1 (ceilDiv ((target : Int) - nom).natAbs (max 1 rate * 1000000)), false, true⟩

/-! Squelch and running. -/

/-- What the driver of an output that is disabled or squelched does: off where the output is not built, before the first landing and
under HIGH_Z, else at logic 0 (R320, R349, R350, R718). -/
def State.restDrive (s : State) (m : Nat) : Drive :=
  match s.outRec m with
  | none => .highZ
  | some r => if !s.top.landedOnce ∨ r.squelch = 1 then .highZ else .low

/-- STATUS.RUNNING and the driver follow the output's divider and its squelch (R320, R321, R333, R349). An output that awaits the sync
point of a re-alignment makes no edges and holds logic 0, its idle level (R346; log entry 94, DEDUCED). -/
def State.refreshOut (s : State) (m : Nat) : State :=
  let c := s.outC m
  let lit := c.running && !c.sqLol && !c.sqFerry
  let r := lit && !c.held
  let was := s.on (OUT.STATUS_RUNNING m)
  let s := (s.modOut m (fun c => { c with
    drive := if r then .clock else if lit then .low else s.restDrive m })).setb (OUT.STATUS_RUNNING m) r
  (s.evIf (r && !was) (OUT.EVENT_STARTED m)).evIf (!r && was) (OUT.EVENT_STOPPED m)

/-- The squelch of an output under its synthesiser's lock (R333). -/
def State.refreshLol (s : State) (m n : Nat) : State :=
  let q := !s.on (APL.STATUS_LOCKED n) && s.on (OUT.CTRL_LOL_SQ m) && !s.runsOn m
  let was := (s.outC m).sqLol
  let s := (s.modOut m (fun c => { c with sqLol := q })).setb (OUT.STATUS_SQ_LOL m) q
  (s.evIf (q && !was) (OUT.EVENT_SQUELCH m)).refreshOut m

/-- The squelch of every output of a synthesiser. -/
def State.refreshSynth (s : State) (n : Nat) : State := s.forL (s.outsOf n) (fun s m => s.refreshLol m n)

/-- An output squelched at the ferry-hold limit (R319). -/
def State.ferrySquelch (s : State) (m : Nat) : State :=
  let s := (s.modOut m (fun c => { c with sqFerry := true })).setf (OUT.STATUS_SQ_LIMIT m) 1
  ((s.ev (OUT.EVENT_SQUELCH m)).refreshOut m).logDev 0x0304 (beBytes 1 m ++ [0] ++ beBytes 8 0)

/-! Dividers. -/

/-- STATUS.MODE (R342). -/
def State.refreshMode (s : State) (m : Nat) : State :=
  let steered := ((s.fab.img.map (·.loops)).getD []).any (fun r => r.tKind == 1 && r.tIdx == m)
  s.setf (OUT.STATUS_MODE m)
    (if s.isPulse m then 3 else if steered then 2 else if (s.outC m).dfrac = 0 then 0 else 1)

/-- A divider comes into force (R341). -/
def State.setDivider (s : State) (m dint dfrac : Nat) : State :=
  ((s.modOut m (fun c => { c with dint := dint, dfrac := dfrac })).setf (OUT.DIV32_DINT m) dint).refreshMode m

/-- A divider that waits is taken (R345). -/
def State.takeDivider (s : State) (m : Nat) : State :=
  match (s.outC m).newDiv with
  | none => s
  | some (d, x) =>
    let s := (s.modOut m (fun c => { c with newDiv := none })).setDivider m d x
    (s.setf (OUT.STATUS_DIV_PEND m) 0).ev (OUT.EVENT_DIV_DONE m)

/-! Alignment of pulse outputs. -/

/-- The pulse clock in 2⁻⁵⁶ ns (R355). -/
def OutCore.pulse (c : OutCore) : Int := ((c.pcSec * 1000000000 * 2 ^ 56 + c.pcSub : Nat) : Int)

/-- Give the pulse clock a value (R358). -/
def OutCore.withPulse (c : OutCore) (v : Int) : OutCore :=
  { c with pcSec := v.toNat / (1000000000 * 2 ^ 56), pcSub := v.toNat % (1000000000 * 2 ^ 56) }

/-- An alignment (R358). -/
def State.alignPulse (s : State) (m : Nat) : State :=
  let c := s.outC m
  let v := (s.tscC (s.f (OUT.CFG_ANCHOR m))).val
  let shift := v - c.pulse
  let off := s.fi (OUT.OFFSET_PS m)
  let per := s.f (OUT.PERIOD_NS m)
  let moved := shift != 0 || off != c.offPs || per != c.perNs
  let s := (s.modOut m (fun c => { (c.withPulse v) with offPs := off, perNs := per })).setf (OUT.STATUS_ALIGNED m) 1
  if !moved then s
  else
    let s := s.modOut m (fun c => { c with edgesFrom := (v + 1000 * 2 ^ 56).toNat })
    (s.ev (OUT.EVENT_REALIGNED m)).logDev 0x0304
      (beBytes 1 m ++ [2] ++ beInt 8 (satSigned 64 (roundOpen 35 (shift * 1000) (2 ^ 56))))

/-! Starts and stops. -/

/-- A pulse output runs from now on. -/
def State.runPulse (s : State) (m : Nat) : State :=
  (s.modOut m (fun c => { c with running := true, pendStart := false, swing := s.f (OUT.CTRL_SWING m) })).refreshOut m

/-- A start may not take place yet: the synthesiser is unlocked and its loss of lock squelches the output (R333, R350). -/
def State.waitsForLock (s : State) (m : Nat) : Bool :=
  !s.on (APL.STATUS_LOCKED (s.f (OUT.CFG_SYNTH m))) && s.on (OUT.CTRL_LOL_SQ m)

/-- An enabled output starts (R346, R349, R350, R358): a pulse output at once, or when its synthesiser locks, any other at the next
sync point. -/
def State.startOut (s : State) (m : Nat) : State :=
  if (s.outC m).running then s
  else if s.isPulse m then
    let s := if (s.outC m).enabledOnce then s else s.alignPulse m
    let s := s.modOut m (fun c => { c with enabledOnce := true, widNs := s.f (OUT.WIDTH_NS m), pendStart := true })
    if s.waitsForLock m then s else s.runPulse m
  else (s.modOut m (fun c => { c with pendStart := true })).setf (OUT.STATUS_ALIGN_PEND m) 1

/-- A disabled output stops, and what waits for its sync point is discarded (R349, R363). -/
def State.stopOut (s : State) (m : Nat) : State :=
  let s := s.modOut m (fun c => { c with running := false, pendStart := false, pendAlign := false, held := false })
  (s.setf (OUT.STATUS_ALIGN_PEND m) 0).refreshOut m

/-- Re-align an output (R346, R358, R393): a pulse output at once, any other that is enabled at the next sync point. -/
def State.realignOut (s : State) (m : Nat) : State :=
  if s.isPulse m then s.alignPulse m
  else if s.on (OUT.CTRL_EN m) then
    (s.modOut m (fun c => { c with pendAlign := true })).setf (OUT.STATUS_ALIGN_PEND m) 1
  else s

/-- CTRL.EN has changed (R349). -/
def State.enableOut (s : State) (m : Nat) (en : Bool) : State :=
  let s := s.setb (OUT.CTRL_EN m) en
  if en then s.startOut m else s.stopOut m

/-! Starts of synthesisers. -/

/-- A synthesiser starts, or starts again from band calibration (R331, R332): it is unlocked until step 4. -/
def State.startSynth (s : State) (n : Nat) : State :=
  let s := s.modApl n (fun c => { c with phase := .bandCal, inTol := 0, outTol := 0 })
  (s.setf (APL.STATUS_LOCKED n) 0).setf (APL.STATUS_CAL n) 1

/-- What a full reset leaves of a synthesiser and of an output (R318, R360): a pending re-alignment is discarded, and an output that held
its idle level for it runs on (log entry 94, DEDUCED). -/
def State.ferrySynths (s : State) : State :=
  (s.forN 8 State.ferryApl).forN 28 (fun s m =>
    let was := (s.outC m).held
    let s := s.modOut m (fun c => { c with pendAlign := false, newDiv := none, held := false })
    let s := (s.setf (OUT.STATUS_DIV_PEND m) 0).setb (OUT.STATUS_ALIGN_PEND m) ((s.outC m).pendStart && !s.isPulse m)
    s.when was (fun s => s.refreshOut m))

end Sys2Proof.Machine
end

