-- ==== Sys2Proof/Machine/Sections.lean ====
section
/-! DEFINITION. The layout of configuration images (R119 to R127): the header, the section walk, the checks that a verification applies
up to the decryption of the sections, and the structure that the plaintext sections describe. -/

namespace Sys2Proof.Machine

/-- A section as it stands in an image: TYPE, its stored CRC, the offset of its header, and its body. -/
structure Section where
  typ : Nat
  crc : Nat
  off : Nat
  body : List Byte
  deriving DecidableEq, Repr

/-- The section code of TYPE (R122). -/
def Section.code (x : Section) : Nat := x.typ % 2 ^ 14
/-- The ENCRYPTED bit of TYPE (R122). -/
def Section.enc (x : Section) : Bool := bitAt x.typ 14
/-- The OPTIONAL bit of TYPE (R122). -/
def Section.optional (x : Section) : Bool := bitAt x.typ 15

/-- Whether every byte of a list is 0. -/
def allZero (bs : List Byte) : Bool := bs.all (· == 0)

/-- The next 16-byte-aligned offset (R120). -/
def align16 (n : Nat) : Nat := (n + 15) / 16 * 16

/-- Walk the sections from an offset on: they, and the offset of the trailer (R120, R121). -/
def walkSections (bs : List Byte) (len : Nat) : Nat → Nat → Option (List Section × Nat)
  | 0, off => some ([], off)
  | n + 1, off =>
    let h := slice bs off 10
    let l := beAt h 2 4
    let stop := off + 10 + l
    if h.length < 10 ∨ stop > len then none
    else if !allZero (slice bs stop (align16 stop - stop)) then none
    else
      match walkSections bs len n (align16 stop) with
      | some (t, e) => some (⟨beAt h 0 2, beAt h 6 4, off, slice bs (off + 10) l⟩ :: t, e)
      | none => none

/-- Check 2 of R131: the header. -/
def headerOk (b : List Byte) : Bool :=
  let flags := beAt b 0x11 1
  let lwd := beAt b 0x16 2
  let ferry := beAt b 0x18 2
  slice b 0 4 == [0x41, 0x43, 0x54, 0x42] && beAt b 4 2 == 1 && beAt b 6 2 == 0x100 &&
    beAt b 0xFC 4 == crc32c (slice b 0 0xFC) && decide (beAt b 0x10 1 ≤ 64) &&
    (lwd == 0 || (decide (250 ≤ lwd) && decide (lwd ≤ 10000))) && decide (ferry ≤ 300) &&
    decide (beAt b 0xF 1 < 4) && decide (flags < 2) &&
    allZero (slice b 0x1A 6) && allZero (slice b 0xA8 (0xFC - 0xA8)) &&
    (flags == 1 || allZero (slice b 0x38 16))

/-- Check 3 of R131: length, alignment and section walk. -/
def imageWalk (b : List Byte) (len : Nat) : Option (List Section) :=
  let n := beAt b 0x12 2
  let il := beAt b 8 4
  if il ≠ len ∨ il % 16 ≠ 0 ∨ il > 0x800000 ∨ n < 1 ∨ n > 64 then none
  else
    match walkSections b (il - 96) n 0x100 with
    | some (l, e) => if e + 96 = il then some l else none
    | none => none

/-- Check 4 of R131: every section CRC. -/
def crcsOk (l : List Section) : Bool :=
  l.all (fun x => x.crc == crc32c (beBytes 2 x.typ ++ beBytes 4 x.body.length ++ x.body))

/-- The rule of R125 for the length of a section's records, as far as it can be judged from the length. -/
def lengthOk (code n : Nat) : Bool :=
  match code with
  | 0x1 | 0x5 | 0x6 => n % 8 == 0
  | 0x2 => n % 4 == 0
  | 0x3 | 0x4 | 0xE => n % 16 == 0
  | 0x7 | 0xD => n == 16
  | 0x8 => n == 512
  | 0x9 => n == 96
  | 0xA => n == 1280
  | 0xB => n % 4 == 0
  | 0xC => n % 8 == 0 && decide (n ≤ 8 * 16384)
  | 0xF => n % 104 == 0
  | _ => true

/-- The record walk of SELECTORS (R125): 4 + 4 n bytes each. -/
def parseSelectors : Nat → List Byte → Option (List SelectorRec)
  | _, [] => some []
  | 0, _ => none
  | k + 1, bs =>
    let n := beAt bs 1 1
    if bs.length < 4 + 4 * n then none
    else
      let es := (List.range n).map (fun i =>
        EntryRec.mk (beAt bs (4 + 4 * i) 1) (beAt bs (5 + 4 * i) 1) (beAt bs (6 + 4 * i) 1))
      match parseSelectors k (bs.drop (4 + 4 * n)) with
      | some t => some (SelectorRec.mk (beAt bs 0 1) (beAt bs 2 1) es :: t)
      | none => none

/-- The section flags and order of check 9 (R122, R127). -/
def flagsOk (l : List Section) : Bool :=
  (l.zip (l.drop 1)).all (fun x => decide (x.1.code < x.2.code)) &&
    l.all (fun x =>
      let known := decide (1 ≤ x.code) && decide (x.code ≤ 0xF)
      (known != x.optional) && (x.code != 0xF || x.enc))

/-- Check 9 of R131 on an encrypted section's length, also of a section of an unknown code, or a plain section's body (R125, R130, R724). -/
def sizeOk (x : Section) : Bool :=
  if x.code = 0 ∨ x.code > 0xF then !x.enc || decide (28 ≤ x.body.length)
  else if x.enc then decide (28 ≤ x.body.length) && lengthOk x.code (x.body.length - 28)
  else lengthOk x.code x.body.length && (x.code != 2 || (parseSelectors x.body.length x.body).isSome)

/-- Records of `n` bytes. -/
def recordsOf (n : Nat) (bs : List Byte) : List (List Byte) := (List.range (bs.length / n)).map (fun i => slice bs (i * n) n)

/-- The record rules of KEYRING (R561). -/
def keyringOk (l : List (List Byte)) : Bool :=
  let ta := l.filter (fun r => beAt r 0 1 == 1)
  let spps := l.filter (fun r => beAt r 0 1 == 2)
  l.all (fun r =>
    let t := beAt r 0 1
    allZero (slice r 2 2) &&
      (if t = 1 then beAt r 1 1 == 0 && beAt r 4 4 == 0
       else if t = 2 then beAt r 4 4 != 0 && allZero (slice r 40 64)
       else false)) &&
    decide (ta.length ≤ 1) &&
    spps.all (fun r =>
      let same := spps.filter (fun q => beAt q 1 1 == beAt r 1 1)
      decide (same.length ≤ 2) && decide ((same.filter (fun q => beAt q 4 4 == beAt r 4 4)).length ≤ 1))

/-- Decrypt the sections (R123) and judge each plaintext under R724. A section of an unknown code with OPTIONAL and ENCRYPTED is decrypted
like any other: check 10 of R131 asks it of every encrypted section, where R127 says that such a section is otherwise ignored (log entry
82, DESIGN CHOICE). -/
def openSections (imageId label : List Byte) : List Section → Option (List (Nat × Nat × List Byte))
  | [] => some []
  | x :: t =>
    let plain := if x.enc then
        Config.gcmOpen label (slice x.body 0 12) (imageId ++ beBytes 2 x.typ ++ beBytes 4 x.body.length)
          (slice x.body 12 (x.body.length - 28)) (slice x.body (x.body.length - 16) 16)
      else some x.body
    match plain with
    | none => none
    | some p =>
      match openSections imageId label t with
      | some r => some ((x.code, x.off + (if x.enc then 22 else 10), p) :: r)
      | none => none

/-- Whether the plaintexts pass the rules that only a plaintext shows (R724). -/
def plainOk (l : List (Nat × Nat × List Byte)) : Bool :=
  l.all (fun x =>
    (x.1 != 2 || (parseSelectors x.2.2.length x.2.2).isSome) && (x.1 != 0xF || keyringOk (recordsOf 104 x.2.2)))

/-- The failure code of check 10, judged section by section: 0x06 for a tag that fails, 0x0A for a plaintext that breaks its
rules, whichever comes first (R131, R724). -/
def openFail (imageId label : List Byte) : List Section → Nat
  | [] => 0
  | x :: t =>
    match openSections imageId label [x] with
    | none => 0x06
    | some p => if x.enc && !plainOk p then 0x0A else openFail imageId label t

/-- The body of a section, empty when the image has none. -/
def bodyOf (l : List (Nat × Nat × List Byte)) (code : Nat) : List Byte :=
  match l.find? (fun x => x.1 == code) with
  | some x => x.2.2
  | none => []

/-- The image offset at which a section's plaintext records stand. -/
def offsetOf (l : List (Nat × Nat × List Byte)) (code : Nat) : Nat :=
  match l.find? (fun x => x.1 == code) with
  | some x => x.2.1
  | none => 0

/-- The structure an image describes (R119, R125, R126). -/
def parseImage (b : List Byte) (l : List (Nat × Nat × List Byte)) : Image :=
  let rows := fun code n => recordsOf n (bodyOf l code)
  let present := fun code => l.any (fun x => x.1 == code)
  let helm := bodyOf l 9
  { len := beAt b 8 4
    minStep := beAt b 0xE 1
    grades := beAt b 0xF 1
    secVer := beAt b 0x10 1
    xlkVer := beAt b 0x14 2
    lwdMs := if beAt b 0x16 2 = 0 then 1000 else beAt b 0x16 2
    ferryS := if beAt b 0x18 2 = 0 then 30 else beAt b 0x18 2
    imageId := slice b 0x28 16
    keyLabel := slice b 0x38 16
    hash := Config.sha384 (b.take (beAt b 8 4 - 96))
    landings := (rows 1 8).map (fun r => LandingRec.mk (beAt r 0 1) (beAt r 1 1) (beAt r 2 1) (beAt r 3 1) (beAt r 4 1) (beAt r 5 1))
    selectors := (parseSelectors (bodyOf l 2).length (bodyOf l 2)).getD []
    loops := (rows 3 16).map (fun r =>
      LoopRec.mk (beAt r 0 1) (beAt r 1 1) (beAt r 2 1) (beAt r 3 1) (beAt r 4 1) (beAt r 5 1) (beAt r 8 4))
    synths := ((rows 4 16).filter (fun r => beAt r 0 1 == 0)).map (fun r => SynthRec.mk (beAt r 1 1) (beAt r 8 8))
    outputs := ((rows 4 16).filter (fun r => beAt r 0 1 == 1)).map (fun r =>
      OutputRec.mk (beAt r 1 1) (beAt r 2 1) (beAt r 3 1) (beAt r 4 1) (beAt r 5 1) (beAt r 6 1) (beAt r 7 1) (beAt r 8 8))
    timescales := ((rows 5 8).filter (fun r => beAt r 0 1 == 0)).map (fun r => TimescaleRec.mk (beAt r 1 1)
      (if beAt r 2 6 = 0 then 1000000 else beAt r 2 6))
    todouts := ((rows 5 8).filter (fun r => beAt r 0 1 == 1)).map (fun r =>
      TodoutRec.mk (beAt r 1 1) (beAt r 2 1) (beAt r 3 1) (beAt r 4 1))
    ports := (rows 6 8).map (fun r => PortRec.mk (beAt r 0 1) (beAt r 1 1) (beAt r 2 1))
    quotas := (List.range 4).map (fun i => beAt (bodyOf l 7) (4 * i) 4)
    spmap := (rows 8 4).map (fun r => SpRec.mk (beAt r 1 1) (beAt r 2 1) (bitAt (beAt r 3 1) 0))
    helm := (List.range 256).map (fun i => bitsAt (beAt helm (i / 4) 1) (2 * (i % 4) + 1) (2 * (i % 4)))
    pilot := (List.range 256).map (fun i => bitAt (beAt helm (64 + i / 8) 1) (i % 8))
    routes := if present 0xA then (rows 0xA 2).map (fun r => (beAt r 0 1, beAt r 1 1)) else List.replicate 640 (0x7F, 0)
    reactions := (rows 0xB 4).map (fun r => ReactionRec.mk (beAt r 0 1) (beAt r 1 1) (beAt r 2 2))
    preload := (rows 0xC 8).map (fun r => PreloadRec.mk (beAt r 0 1) (beAt r 1 1) (beAt r 2 2) (BitVec.ofNat 32 (beAt r 4 4)))
    xlk := if present 0xD then some ⟨bodyOf l 0xD⟩ else none
    combine := (rows 0xE 16).map (fun r => CombineRec.mk (beAt r 0 1)
      ((List.range (min 4 (beAt r 1 1))).map (fun i => (beAt r (2 + 3 * i) 1, beAt r (3 + 3 * i) 2))))
    keyring := rows 0xF 104 }

/-- The synthesisers that the SYNTH_OUTPUTS section of an image read so far names (R331): none where the sections cannot be walked or
opened. -/
def synthsRead (b : List Byte) : List SynthRec :=
  if !headerOk b then []
  else
    match (imageWalk b (beAt b 8 4)).bind (openSections (slice b 0x28 16) (slice b 0x38 16)) with
    | some l => ((recordsOf 16 (bodyOf l 4)).filter (fun r => beAt r 0 1 == 0)).map (fun r => SynthRec.mk (beAt r 1 1) (beAt r 8 8))
    | none => []

end Sys2Proof.Machine
end

