-- ==== Sys2Proof/Machine/ResetOps.lean ====
section
/-! DEFINITION. The start of a load and of a full reset: which slot is loaded from where, what each reset keeps, and what it
discards (R139 to R147, R264, R318, R322, R382, R408, R486, R496, R525, R615, R691, R692). -/

namespace Sys2Proof.Machine

/-- State of a slot: 0 EMPTY, 1 WRITTEN, 2 LANDED, 3 BAD (R135). -/
def slotField : Nat → Fld
  | 0 => FAB.SLOTS_A_ST | 1 => FAB.SLOTS_B_ST | _ => FAB.SLOTS_GOLDEN_ST

/-- Security version of a slot's image. -/
def slotSv : Nat → Fld
  | 0 => FAB.SECVER_A_SV | 1 => FAB.SECVER_B_SV | _ => FAB.SECVER_GOLDEN_SV

/-- Logical flash address of a slot (R134). -/
def slotBase : Nat → Nat
  | 0 => 0x00900000 | 1 => 0x01100000 | _ => 0x00100000

/-- BAR2 offset and size of the slipway (R138). -/
abbrev slipBase : Nat := 0x03200000
/-- See `slipBase`. -/
abbrev slipSize : Nat := 0x800000

/-- The FLOOR slot takes the SECONDS of every SET time scale and carries forward the others (R370). -/
def State.writeFloor (s : State) : State :=
  { s with nv := { s.nv with floor := ⟨(List.range 8).foldl (fun t k =>
      if s.on (TSC.STATUS_SET k) then Tab.set (fun _ => 0) t k (s.tscC k).sec else t) s.nv.floor.secs⟩ } }

/-- The array with the dirty pages of the shadow in it (R635, R636). -/
def State.withDirty (s : State) : Tab Byte :=
  s.nv.dirty.foldl (fun t p => Tab.copyFrom t s.nv.shadow (256 * p) 256 (256 * p)) s.nv.array

/-- What a ledger slot of the array holds before it is first written. -/
def noSlot : LedgerSlot := ⟨0, {}⟩

/-- The checkpoint slot of a tenant that is in force (R638): the one with the higher SLOT_SEQ, modulo 256. -/
def newestSlot (t : Tab LedgerSlot) (k : Nat) : Nat :=
  let a := Tab.get (fun _ => noSlot) t (2 * k)
  let b := Tab.get (fun _ => noSlot) t (2 * k + 1)
  if a = noSlot then 1 else if b = noSlot then 0
  else if (b.seq + 256 - a.seq) % 256 < 128 then 1 else 0

/-- The checkpoint slots with every ledger in its older one (R637). -/
def State.checkpointSlots (s : State) : Tab LedgerSlot :=
  s.man.ledgers.foldl (fun (t : Tab LedgerSlot) (x : Nat × Ledger) =>
    let n := newestSlot t x.1
    let q := (Tab.get (fun _ => noSlot) t (2 * x.1 + n)).seq
    Tab.set (fun _ => noSlot) t (2 * x.1 + (1 - n)) ⟨(q + 1) % 256, { x.2 with served := false, ports := [], live := false }⟩)
    s.nv.ledgers

/-- The next commit brings every ledger (R637). -/
def State.ckptNext (s : State) : State := { s with nv := { s.nv with ckptDue := true } }

/-- The array takes ledgers and frozen ledgers that a commit brings. -/
def State.takeLedgers (s : State) (l : Option LedgerCommit) : State :=
  match l with
  | some l => { s with nv := { s.nv with ledgers := l.slots, manFrozen := l.frozen } }
  | none => s

/-- The floor of a time scale becomes at least a sealed boundary (R514 step 3). -/
def State.raiseFloor (s : State) (f : Option (Nat × Nat)) : State :=
  match f with
  | some (k, b) => { s with nv := { s.nv with
      floor := ⟨Tab.set (fun _ => 0) s.nv.floor.secs k (max b (Tab.get (fun _ => 0) s.nv.floor.secs k))⟩ } }
  | none => s

/-- What a commit brings beside its pages when it completes, also at recovery: ledgers and frozen ledgers, and the floor of the billing time
scale at a sealed boundary (R514 step 3). -/
def State.commitLedgers (s : State) (c : NvCommit) : State := (s.takeLedgers c.led).raiseFloor c.floorMin

/-- Start a commit of the dirty pages and of SYSTEM (R636); while one is in progress, it follows that one. -/
def State.startCommit (s : State) (byHost : Bool) : State :=
  match s.nv.commit with
  | some c => { s with nv := { s.nv with commit := some { c with again := some (c.again.getD false || byHost) } } }
  | none =>
    let led := if s.nv.ckptDue then some ⟨s.checkpointSlots, s.man.frozen⟩ else none
    let s := { s with nv := { s.nv with
      commit := some ⟨byHost, s.withDirty, s.nv.sys, none, led, s.nv.floorDue⟩, dirty := [], ckptDue := false, floorDue := none } }
    (s.setf NV.STATUS_COMMITTING 1).setf NV.STATUS_DIRTY 0

/-- Passwords of the host regions show in `HREG` (R639). Key 2 · region + kind, 0 read, 1 write. -/
def State.password (s : State) (k kind : Nat) : Nat := Tab.get (fun _ => 0) s.nv.sys.passwords (2 * k + kind)
/-- See `State.password`. -/
def State.showPasswords (s : State) : State :=
  s.forN 8 (fun s k => (s.setb (NV.HREG_RPW k) (s.password k 0 != 0)).setb (NV.HREG_WPW k) (s.password k 1 != 0))

/-- Change the boot record and commit it to the NV array (R135, R636, R637). -/
def State.commitBoot (s : State) : State :=
  let g := fun (y : NvSystem) => { y with
    cur := s.f FAB.SLOTS_CURRENT, prev := s.f FAB.SLOTS_PREVIOUS, pend := s.f FAB.SLOTS_PENDING
    slots := [0, 1, 2].foldl (fun t k => Tab.set (fun _ => 0) t k (s.f (slotField k))) y.slots }
  { s with nv := { s.nv with sys := g s.nv.sys } }.startCommit false

/-- Set the state of a slot in the boot record. -/
def State.setSlot (s : State) (k v : Nat) : State := (s.setf (slotField k) v).commitBoot

/-- Copy a slot from flash into the slipway, as a load from flash does (R139): its words get fresh check bits (R141, R677). -/
def State.copySlot (s : State) (k : Nat) : State :=
  let s : State := { s with
    mem := Tab.copyFrom s.mem s.flash (slotBase k) slipSize slipBase
    ecc := s.ecc.filter (fun x => !(decide (slipBase ≤ x.1 * 8) && decide (x.1 * 8 < slipBase + slipSize))) }
  match s.flt.injWord with
  | some (a, _) => if slipBase ≤ a ∧ a < slipBase + slipSize then s.eccWrite (a / 8) else s
  | none => s

/-- Copy the slipway into a slot (R136). -/
def State.programSlot (s : State) (k : Nat) : State :=
  { s with flash := Tab.copyFrom s.flash s.mem slipBase slipSize (slotBase k) }

/-- Whether FAB tries a slot (R145). -/
def State.slotUsable (s : State) (k : Nat) : Bool :=
  decide (k < 3) && s.f (slotField k) != 0 &&
    (k == 2 || (s.f (slotField k) != 3 && decide (s.f FAB.SECVER_FUSES ≤ s.f (slotSv k))))

/-- IMAGE_LEN of the image in the slipway. -/
def State.slipLen (s : State) : Nat := beAt (s.bytes (slipBase + 8) 4) 0 4

/-- The synthesisers that the image in the slipway names start as their section is read, in a load that follows a cold reset (R331, step 7
of R693); one that an earlier attempt started at the same frequency goes on. One outside 9.6 to 12.8 GHz fails the structure check, and is
not started (R330). -/
def State.startSynths (s : State) : State :=
  s.forL ((synthsRead (s.bytes slipBase (min s.slipLen slipSize))).filter (fun r =>
      decide (r.number < 8) && decide (9600000000 ≤ r.vcoHz) && decide (r.vcoHz ≤ 12800000000))) (fun s r =>
    if (s.aplC r.number).phase ≠ .off ∧ (s.aplC r.number).imageHz = r.vcoHz then s
    else ((s.modApl r.number (fun c => { c with imageHz := r.vcoHz })).setNom r.number (r.vcoHz * 1000000)).startSynth r.number)

/-- Begin the load of a slot (R139, R142 step 3, R693 step 7). -/
def State.beginLoad (s : State) (j : LoadJob) : State :=
  let s := if j.slipway then s else s.copySlot j.slot
  let s := ((s.setf FAB.STATE_LOAD 1).setf FAB.STATE_SLIPWAY 2).setf FAB.STATE_VSLOT 3
  let s := s.setf FAB.STATE_ATTEMPTS (min 3 (s.f FAB.STATE_ATTEMPTS + 1))
  let s := { s with fab := { s.fab with load := some { j with since := s.now } } }
  if s.top.fromCold then s.startSynths else s

/-- No slot is left to try (R146). -/
def State.loadExhausted (s : State) : State :=
  let s := { s with fab := { s.fab with load := none } }
  (s.setf FAB.STATE_LOAD 3).raise 15

/-- Try the first usable slot of a list, from flash (R145, R146). -/
def State.tryFlash (s : State) (order tried : List Nat) (first : Option Nat) : State :=
  match order.find? (fun k => s.slotUsable k && !tried.contains k) with
  | some k => s.beginLoad ⟨k, false, tried, first.getD k, false, s.now, none, 0⟩
  | none => (if tried.isEmpty then s.setf FAB.STATE_FAIL_CODE 0 else s).loadExhausted

/-- The slots in the order in which a cold reset tries them (R146). -/
def State.coldOrder (s : State) : List Nat := [s.f FAB.SLOTS_CURRENT, s.f FAB.SLOTS_PREVIOUS, 2]

/-- Start the load that a full reset or a cold reset ends in (R140, R146): one that ACTIVATE ordered takes the slipway. With SOURCE none no
attempt has run yet, and FAIL_CODE starts at 0, also when a slot is then tried (log entry 83, DESIGN CHOICE). -/
def State.startLoad (s : State) : State :=
  let src := s.f FAB.STATE_SOURCE
  if s.top.activated then
    s.beginLoad ⟨s.f FAB.STATE_VSLOT, true, [], s.f FAB.STATE_VSLOT, true, s.now, none, 0⟩
  else if src = 3 then
    let s := s.setf FAB.STATE_FAIL_CODE 0
    s.tryFlash s.coldOrder [] none
  else if s.f FAB.STATE_SLIPWAY = 0 then s.beginLoad ⟨src, true, [], src, false, s.now, none, 0⟩
  else s.tryFlash [src, s.f FAB.SLOTS_PREVIOUS, 2] [] (some src)

/-- Registers of one reset domain return to what they read without a write (R5, R6). -/
def State.resetRegs (s : State) (d : Dom) : State :=
  { s with regs := s.regs.filter (fun x =>
      match regAt x.1 with
      | some r => r.dom != d
      | none => true) }

/-- The registers of the full domain return to reset; the passwords are kept (R639, R692). -/
def State.resetFull (s : State) : State := (s.resetRegs .full).showPasswords

/-- What a loop carries into ferry hold (R264, R317, R318, R324): its word and its phases run on, its migration is abandoned, and its
checkpoint stands in the scratchpad. A full reset within ferry hold finds it so already. -/
def State.ferryLoop (s : State) (l : Nat) : State :=
  if s.top.inFull then s
  else
    ((s.letGo l).modHo l (fun h => { h with refit := false })).modLoop l (fun c => { c with
      lostStep := if c.rem ≠ 0 ∨ c.armed ≠ none then some c.rem else c.lostStep
      armed := none, acc := [], wrap := none, reanchor := false, depart := false, retake := false, bwNew := false
      setBo := false, mig := none, kept := [], orders := [], waiting := [], stranded := false, rawP := none, rawI := none
      heldWeights := [none, none, none] })

/-- What a time scale discards (R382); no selector makes it traceable until an image lands (R381). -/
def State.ferryTsc (s : State) (k : Nat) : State :=
  let r := (s.tscC k).rem
  let s := s.when (r != 0) (fun s =>
    s.logDev 0x0305 (beBytes 1 k ++ [1] ++ beInt 12 (roundOpen 60 r (2 ^ 24))))
  let s := s.modTsc k (fun c => { c with rem := 0, sched := none, ticket := none, lastInc := none })
  let s := (s.setf (TSC.STATUS_TRACEABLE k) 0).setf (TSC.STATUS_BUSY k) 0
  (s.setf (TSC.STATUS_SCHED_PEND k) 0).setf (TSC.STATUS_ADJUSTING k) 0

/-- What a berth's slot becomes: FREE, with the next generation (R496). -/
def State.ferryGens (s : State) : State :=
  s.forL s.berth (fun s x => if x.2.kind = 0 then s else s.modGen x.1 (fun g => (g + 1) % 2 ^ 12))

/-- What a full reset leaves of the units' own state (R318, R486, R496, R521, R615, R692). -/
def State.fullCores (s : State) : State :=
  let keepHost := fun (h : HostCore) => ({ inReset := h.inReset, inD3 := h.inD3 } : HostCore)
  let s := s.ferryGens.setf FLT.STATUS_INJ_PEND 0
  { s with
    lnd := Tab.remap (fun _ => {}) (fun _ c => { edgeIdx := c.edgeIdx, nomWas := c.nomWas }) s.lnd
    sel := [], ent := [], tasks := [], pte := [], berth := [], tod := []
    prt := Tab.remap (fun _ => {}) (fun n c => {
      signal := c.signal, lostAt := c.lostAt, rode := s.inLock n || c.rode, eqStat := if c.rode then c.eqStat else s.w (PRT.EQ_STAT n) }) s.prt
    slices := [], cfg := {}
    xlk := { up0 := s.xlk.up0, up1 := s.xlk.up1 }
    hostA := keepHost s.hostA, hostB := keepHost s.hostB
    fab := { s.fab with load := none, op := none, handover := none }
    nv := { s.nv with
      unlocked := [], wrong := [], locked := [], commit := s.nv.commit.map (fun c => { c with byHost := false, again := c.again.map (fun _ => false) }) }
    flm := { s.flm with op := none }
    sec := { s.sec with op := none, verify := [] }
    man := { s.man with resume := !s.man.frozen.isEmpty }
    eng := { s.eng with testing := none, opLoop := none, copies := [] }
    flt := { s.flt with injWord := none, injWindows := 0, injEngine := none, injAvs := false, injCheck := false } }

/-- A history copy ends, and an engine under a self-test is RETIRED again (R303, R305, R317). -/
def State.ferryEngine (s : State) (e : Nat) : State :=
  let s := if s.on (ENG.ENGINE_COPYING e) then s.setEntry e (ENG.ENGINE_COPYING e) 0 else s
  if s.engState e = 2 then s.setEngine e 3 0x3F else s

/-- Begin a full reset (R322, R689, R691, R692): a trigger during a load after a full reset starts the load again; one while
`FULLRST_N` holds the device in full reset starts nothing. -/
def State.fullReset (s : State) (cause : Nat) : State :=
  if s.top.inFull ∧ s.fab.load = none ∧ s.f FAB.STATE_LOAD ≠ 3 then s
  else
    let again := s.fab.load
    let s := s.logDev 0x0101 (beBytes 1 cause)
    let s := s.xlkNotice 1
    let s := (s.setf TOP.RST_STAT_FULL_CAUSE cause).inc TOP.RST_STAT_FULL_COUNT
    let s := s.setf FAB.STATE_LOAD 1
    let s := s.forN 32 State.ferryLoop
    let s := s.forN 8 State.ferryTsc
    let s := s.ferrySynths
    let s := s.forN 36 State.ferryEngine
    let s := { s with
      eng := { s.eng with
        ferryFrom := if s.eng.ferry then s.eng.ferryFrom else s.now
        ferry := s.top.landedOnce
        limitHit := s.eng.ferry && s.eng.limitHit }
      top := { s.top with inFull := true, resetting := true, activated := cause = 3 } }
    let s := s.fullCores.resetFull.refreshEng
    match again with
    | some j =>
      if s.top.fullHeld then { s with fab := { s.fab with heldJob := some j } }
      else { s with fab := { s.fab with load := some { j with since := s.now, held := none, next := 0 } } }
    | none => if s.top.fullHeld ∨ s.top.phase ≠ .running then s else s.startLoad

/-- `FULLRST_N` lets go of the device: the load that it held back begins (R691). -/
def State.releaseLoad (s : State) : State :=
  match s.fab.heldJob with
  | some j => { s with fab := { s.fab with heldJob := none, load := some { j with since := s.now, held := none, next := 0 } } }
  | none => s.startLoad

/-- A load has failed with a code (R144, R145): the slot is BAD unless it is golden, the failure is logged, and the full reset
that makes the next attempt begins. -/
def State.failLoad (s : State) (code : Nat) : State :=
  match s.fab.load with
  | none => s
  | some j =>
    let s := (s.setf FAB.STATE_FAIL_CODE code).setf FAB.STATE_SLIPWAY 4
    let s := s.logDev 0x0103 (beBytes 1 j.slot ++ beBytes 1 code)
    let cur := s.f FAB.SLOTS_CURRENT
    let s := if j.slot < 2 then s.setSlot j.slot 3 else s
    let s := { s with fab := { s.fab with load := none } }
    let s := s.logDev 0x0101 [4]
    let s := (s.setf TOP.RST_STAT_FULL_CAUSE 4).inc TOP.RST_STAT_FULL_COUNT
    let s := { s with top := { s.top with inFull := true, resetting := true } }
    let s := s.fullCores.resetFull.refreshEng
    s.tryFlash ((if j.wasPending then [cur] else []) ++ [s.f FAB.SLOTS_PREVIOUS, 2]) (j.slot :: j.tried) (some j.first)

end Sys2Proof.Machine
end

