-- ==== Sys2Proof/Machine/Collector.lean ====
section
/-! DEFINITION. The fault collector (20_faults_and_interrupts.md): what it does with a fault message. Every block reports through
`State.report`. -/

namespace Sys2Proof.Machine

/-- Reaction bits (R664). -/
abbrev rIrq : Nat := 1
/-- See `rIrq`. -/
abbrev rTrap : Nat := 2
/-- See `rIrq`. -/
abbrev rPin : Nat := 4
/-- See `rIrq`. -/
abbrev rBlock : Nat := 8
/-- See `rIrq`. -/
abbrev rFull : Nat := 16

/-- Default reaction of a kind (R663). -/
def defaultReaction (kind : Nat) : Nat :=
  if kind = 0x0B ∨ kind = 0x10 ∨ kind = 0x11 then rBlock + rIrq
  else if kind = 0x01 ∨ kind = 0x02 ∨ kind = 0x03 ∨ kind = 0x04 ∨ kind = 0x07 ∨ kind = 0x0E ∨ kind = 0x12 ∨ kind = 0x13 then
    rIrq + rPin
  else if kind = 0x17 then rTrap + rPin
  else rIrq

/-- The reactions in force for a class and kind (R111, R665): those of the image that last landed, or the defaults. -/
def State.reaction (s : State) (cls kind : Nat) : Nat :=
  if kind = 0x17 then defaultReaction kind
  else
    match s.fab.img.bind (fun i => i.reactions.find? (fun r => r.cls = cls ∧ r.kind = kind)) with
    | some r => r.bits
    | none => defaultReaction kind

/-- Low 32 bits of the uptime in ms. -/
def State.ms32 (s : State) : Nat := s.uptimeMs % 2 ^ 32

/-- Load a latch of three registers with a message (R671). -/
def State.loadLatch (s : State) (r0 r1 r2 : Nat) (src kind addr : Nat) (inj : Bool) : State :=
  ((s.setw r0 (0x80000000 + 0x40000000 * b2n inj + src * 65536 + kind)).setw r1 addr).setw r2 s.ms32

/-- Queue a message, or merge it into an equal one (R668, R669, R670). -/
def State.queueFault (s : State) (src kind addr : Nat) (inj : Bool) : State :=
  let q := s.flt.queue
  let same := fun (e : FaultEntry) => e.source == src && e.kind == kind && e.addr == BitVec.ofNat 32 addr
  if q.any same then
    { s with flt := { s.flt with
      queue := q.map (fun e => if same e then { e with repeats := min 255 (e.repeats + 1) } else e) } }
  else if q.length ≥ 128 then
    let s := (s.inc FLT.COUNT_OVF).ev FLT.EVENT_OVF
    { s with flt := { s.flt with lost := true } }
  else
    let s := { s with flt := { s.flt with
      queue := q ++ [FaultEntry.mk inj s.flt.lost src kind 0 (BitVec.ofNat 32 addr) s.uptimeMs], lost := false } }
    (s.setf FLT.STATUS_QLEVEL (q.length + 1)).evIf q.isEmpty FLT.EVENT_RECORD

/-- The logbook record of a fault, unless one of its source and kind was made within the last second (R655). -/
def State.logFault (s : State) (src kind addr : Nat) (inj : Bool) : State :=
  let key := src * 64 + kind
  match s.nv.suppressed.find? (fun x => x.1 = key) with
  | some (_, t, c) =>
    let rest := s.nv.suppressed.filter (fun x => x.1 != key)
    if s.now < t + 2000000000 then
      { s with nv := { s.nv with suppressed := (key, t, c + 1) :: rest } }
    else
      let s := s.log 0x0200 src (beBytes 1 (kind + 128 * b2n inj) ++ beBytes 4 addr ++ beBytes 2 (min 0xFFFF c))
      { s with nv := { s.nv with suppressed := (key, s.now, 0) :: rest } }
  | none =>
    let s := s.log 0x0200 src (beBytes 1 (kind + 128 * b2n inj) ++ beBytes 4 addr ++ beBytes 2 0)
    { s with nv := { s.nv with suppressed := (key, s.now, 0) :: s.nv.suppressed } }

/-- ERROR_PIN (R673). -/
def State.errorPin (s : State) : State :=
  let was := s.on FLT.STATUS_ERR_PIN
  let s := (s.setf FLT.STATUS_ERR_PIN 1).setf FLT.STATUS_ERR_HELD 0
  let s := { s with flt := { s.flt with
    errEnd := s.now + s.f FLT.ERR_CTRL_WIDTH_US * 2000, errDone := false, errReleased := false } }
  s.evIf (!was) FLT.EVENT_ERR_PIN

/-- TRAP (R667, R671, R676). -/
def State.trap (s : State) (src kind addr : Nat) (inj : Bool) : State :=
  let s := if s.on FLT.TRAP0_VALID then s
    else (s.loadLatch FLT.TRAP0 FLT.TRAP1 FLT.TRAP2 src kind addr inj).setf FLT.STATUS_TRAPPED 1
  if s.on FLT.EVENT_TRAP then (if s.pend .a 65 && s.pend .b 65 then s else s.raise 65) else s.ev FLT.EVENT_TRAP

/-- The mark of a withheld block. -/
def withheldFld (cls n : Nat) : Fld := if cls = 6 then ⟨FLT.WITHHELD_LND, n, n⟩ else ⟨FLT.WITHHELD_PRT, n, n⟩

/-- BLOCK_RESET (R672, R674): only landings and ports have one; a withheld block is not reset. -/
def State.blockReset (s : State) (cls n : Nat) : State :=
  if cls ≠ 6 ∧ cls ≠ 0xC then s
  else if s.on (withheldFld cls n) then s
  else
    let key := (if cls = 6 then 0 else 64) + n
    let k := Tab.get (fun _ => 0) s.flt.bursts key + 1
    let s := { s with flt := { s.flt with bursts := Tab.set (fun _ => 0) s.flt.bursts key k } }
    let s := s.inc FLT.RECOVER_BRESETS
    let s := if cls = 6 then s.resetFrontEnd n else s.resetPort n
    if k ≥ s.f FLT.QUIET_BURST_MAX then (s.setf (withheldFld cls n) 1).ev FLT.EVENT_BURST else s

/-- The reactions of a message (R667). -/
def State.react (s : State) (src kind addr : Nat) (inj : Bool) : State :=
  let cls := src / 64
  let r := s.reaction cls kind
  let s := if bitAt r 0 then (s.ev FLT.EVENT_RECORD).ev ⟨FLT.CLASS_EVENT, cls, cls⟩ else s
  let s := if bitAt r 1 then s.trap src kind addr inj else s
  let s := if bitAt r 2 then s.errorPin else s
  let full := bitAt r 4 && s.fab.load.isNone && !s.top.inFull
  let s := if bitAt r 3 && !full then s.blockReset cls (src % 64) else s
  if full then s.fullReset 2 else s

/-- Record a message: counts, class, first-source latch, queue, logbook, event 0x0E0 (R391, R666, R671, R674). -/
def State.record (s : State) (src kind addr : Nat) (inj : Bool) : State :=
  let cls := src / 64
  let s := (s.inc FLT.COUNT_MESSAGES).setBit FLT.STATUS cls
  let s := { s with flt := { s.flt with lastMsg := Tab.set (fun _ => 0) s.flt.lastMsg cls s.now } }
  let s := if s.on FLT.FIRST0_VALID then s else s.loadLatch FLT.FIRST0 FLT.FIRST1 FLT.FIRST2 src kind addr inj
  ((s.queueFault src kind addr inj).logFault src kind addr inj).route 0x0E0

/-- A fault message reaches the collector (R661 to R678). An armed collector check corrupts it, and the collector reports
itself instead (R676, R677). -/
def State.reportInj (s : State) (src kind addr : Nat) (inj : Bool) : State :=
  let src := src % 1024
  let kind := kind % 64
  let addr := addr % 2 ^ 32
  if s.flt.injCheck then
    let s := { s with flt := { s.flt with injCheck := false } }
    let s := (s.setf FLT.STATUS_INJ_PEND 0).ev FLT.EVENT_INJ_DONE
    (s.record 0x3C0 0x17 0 true).react 0x3C0 0x17 0 true
  else (s.record src kind addr inj).react src kind addr inj

/-- A fault message of the device's own. -/
def State.report (s : State) (src kind addr : Nat) : State := s.reportInj src kind addr false

end Sys2Proof.Machine
end

