-- ==== Sys2Proof/Machine/Access.lean ====
section
/-! DEFINITION. The checks that a host's write or command meets before it has an effect (R50 to R52, R102 to R104, R591), the log
of bus errors (R593), and the commands that a doorbell's bit stands for. -/

namespace Sys2Proof.Machine

/-- An image has landed and no reset has begun since (R50, R143). -/
def State.landed (s : State) : Bool := s.f FAB.STATE_LOAD == 2

/-- A port holds the helm of a block, alone or shared (R102, R104). -/
def State.holds (s : State) (p : Port) (b : Nat) : Bool :=
  match s.fab.img with
  | none => true
  | some i => bitAt (i.helm.getD b 0) (match p with | .a => 0 | .b => 1)

/-- The image grants pilot level for a block (R23, R105). -/
def State.pilot (s : State) (b : Nat) : Bool :=
  match s.fab.img with
  | none => false
  | some i => i.pilot.getD b false

/-- The device answers the hosts: RESET_N has risen (R695). -/
def State.answers (s : State) : Bool := s.top.phase != .held

/-- A port's requests reach the device: the device answers, and port A is neither in reset nor in D3hot (R578, R695). -/
def State.reaches (s : State) (p : Port) : Bool :=
  s.answers && !(p == .a && (s.hostA.inReset || s.hostA.inD3))

/-- Start-up has come past step 6, so that FAB, NV and FLM answer (R695). -/
def State.storesReady (s : State) : Bool := s.top.phase == .flm || s.top.phase == .running

/-- Checks 3 to 6 of R591 for a write to, or a command on, a block: NOT_LANDED, LOCKED, NOT_HELM, and LOCKED where the
access is pilot level and the image grants none. -/
def State.cmdCheck (s : State) (p : Port) (b : Nat) (pilot : Bool) : Code :=
  if b ≥ 0x0A && !s.landed then .notLanded
  else if (b == 4 || b == 7 || b == 8) && !s.storesReady then .notLanded
  else if !s.built b then .locked
  else if !s.holds p b then .notHelm
  else if pilot && !s.pilot b then .locked
  else .ok

/-- Log a bus error at the issuing port (R593): the first one's code, direction and address; every one is counted. -/
def State.busErr (s : State) (p : Port) (write space : Bool) (off : Nat) (c : Code) : State :=
  let s := if s.on (HOST.ERR_STAT_VALID p) then s
    else
      let s := (s.setb (HOST.ERR_STAT_WRITE p) write).setf (HOST.ERR_STAT_CODE p) c.num
      let s := (s.setb (HOST.ERR_ADDR_SPACE p) space).setf (HOST.ERR_ADDR_OFFSET p) off
      s.setf (HOST.ERR_STAT_VALID p) 1
  ((s.inc (HOST.ERR_STAT_COUNT p)).ev (HOST.EVENT_BUS_ERR p)).modHost p (fun h => { h with code := c })

/-- The outcome of the access that a port makes is its status, OK when nothing says otherwise. -/
def State.status (s : State) (p : Port) (c : Code) : State := s.modHost p (fun h => { h with code := c })

/-- The write of a doorbell's register, by the address of its normal view: refused as a bus error, or its effect. -/
def State.doorbell (s : State) (p : Port) (key : Nat) (pilot : Bool) (g : State → State) : State :=
  if !s.reaches p then s
  else
    match s.cmdCheck p (key / 0x10000) pilot with
    | .ok => g (s.status p .ok)
    | c => s.busErr p true false key c

/-- A doorbell of a block that is not taken while the block is BUSY (R591 check 7, R594). -/
def State.doorbellB (s : State) (p : Port) (key : Nat) (pilot : Bool) (busy : Fld) (g : State → State) : State :=
  s.doorbell p key pilot (fun s => if s.on busy then s.busErr p true false key .busy else g s)

/-- Write a completion code into a CODE field. -/
def State.complete (s : State) (x : Fld) (c : Code) : State := s.setf x c.num

/-- Write the completion code of an answer. -/
def completeBy (x : Fld) (r : State × Code) : State := r.1.complete x r.2

/-- A checked register has changed: comparison stops, and a pass during which DIRTY becomes 1 will be discarded (R607). -/
def State.dirty (s : State) : State :=
  if s.on HOST.CFGCHK_STAT_DIRTY then s
  else
    let s := { s with cfg := { s.cfg with spoiled := true } }
    (s.setf HOST.CFGCHK_STAT_DIRTY 1).setf HOST.CFGCHK_STAT_COMPARING 0

/-- Write a checked register whole. -/
def State.setChecked (s : State) (k v : Nat) : State := if s.w k = v then s else (s.setw k v).dirty

/-! Rings (R609 to R612). -/

/-- The ring of a port holds an entry that has not completed. -/
def State.ringOpen (s : State) (p : Port) : Bool := s.f (HOST.RING_PI_PI p) != s.f (HOST.RING_STAT_CI p)

/-- Word w of the entry that is next in a ring. -/
def State.ringWord (s : State) (p : Port) (w : Nat) : Nat := s.w (HOST.RING p (s.f (HOST.RING_STAT_CI p) % 64) w)

/-- Complete the entry that is next in a ring, when there is one (R609, R611). -/
def State.ringComplete (s : State) (p : Port) (c : Code) (r0 r1 : Nat) : State :=
  if !s.ringOpen p then s
  else
    let ci := s.f (HOST.RING_STAT_CI p)
    let i := ci % 64
    let s := (s.setw (HOST.RING p i 6) r0).setw (HOST.RING p i 7) r1
    let s := s.setw (HOST.RING p i 0) (2 ^ 31 + c.num * 2 ^ 8 + s.w (HOST.RING p i 0) % 2 ^ 8)
    let s := (s.setf (HOST.RING_STAT_CI p) (ci + 1)).setf (HOST.RING_STAT_ACTIVE p) 0
    s.ev (HOST.EVENT_RING_DONE p)

/-- The engine operation that a ring entry waits for has ended (R611). -/
def State.ringEngineDone (s : State) : State :=
  let s := s.setf ENG.CMD_STATUS_CODE Code.ok.num
  let s := if s.on (HOST.RING_STAT_ACTIVE .a) then s.ringComplete .a .ok 0 0 else s
  if s.on (HOST.RING_STAT_ACTIVE .b) then s.ringComplete .b .ok 0 0 else s

/-- A security event: its sticky bit, its logbook record, and, where the bit reports one, its fault message (R576, R654). -/
def State.secEvent (s : State) (x : Fld) (reason tsc : Nat) : State :=
  let s := (s.ev x).logDev 0x0500 (beBytes 1 x.lo ++ beBytes 1 reason ++ beBytes 1 tsc)
  s.report 0xC0 0x13 (x.lo + 256 * reason)

end Sys2Proof.Machine
end

