-- ==== Sys2Proof/Machine/Bill.lean ====
section
/-! DEFINITION. Billing: ledgers, scheduled boundaries, sealing and signing of manifest records (R484, R509 to R518), and the FLOOR
slot that a commit writes (R370). -/

namespace Sys2Proof.Machine

/-- Billing runs on time scale k: it is named, built and SET (R512). -/
def State.billing (s : State) (k : Nat) : Bool :=
  s.on MAN.CFG_EN && s.f MAN.CFG_TSC == k && s.tscBuilt k && s.on (TSC.STATUS_SET k)

/-- BASE (R511). -/
def State.billBase (s : State) : Nat := s.w MAN.BASE_HI * 2 ^ 32 + s.w MAN.BASE_LO

/-- The last sealed boundary. -/
def State.sealedAt (s : State) : Nat := s.w MAN.SEALED_HI * 2 ^ 32 + s.w MAN.SEALED_LO

/-- The first scheduled boundary after the last sealed one (R512). -/
def State.nextBoundary (s : State) : Nat :=
  let b := s.billBase
  let p := s.w MAN.PERIOD
  let z := s.sealedAt
  if p = 0 then 0 else if z < b then b else b + ((z - b) / p + 1) * p

/-- NEXT_LO and NEXT_HI follow (R512). -/
def State.refreshNext (s : State) : State :=
  let n := s.nextBoundary
  (s.setw MAN.NEXT_LO n).setw MAN.NEXT_HI (n / 2 ^ 32)

/-- Client berths of a tenant: all of them, and the LIVE ones. -/
def State.clientsOf (s : State) (t : Nat) : Nat := (s.berth.filter (fun x => x.2.kind = 1 ∧ x.2.tenant = t)).length
/-- See `State.clientsOf`. -/
def State.liveClient (s : State) (t : Nat) : Bool := s.berth.any (fun x => x.2.kind == 1 && x.2.tenant == t && x.2.live)

/-- The part of a manifest record before PREV_HASH, 0x58 bytes (R518). -/
def State.recordHead (s : State) (t : Nat) (l : Ledger) (flags k until_ : Nat) : List Byte :=
  [0x41, 0x43, 0x54, 0x4D, 1] ++ beBytes 1 flags ++ beBytes 2 t ++ beBytes 4 k ++ beBytes 4 l.seq ++ beBytes 8 l.start ++
    beBytes 8 until_ ++ beBytes 8 l.sync ++ beBytes 8 l.dresp ++ beBytes 8 l.ann ++ beBytes 4 l.trace ++ beBytes 4 l.degr ++
    beBytes 4 l.out ++ beBytes 2 l.berths ++ beBytes 2 (s.f MAN.REGR_COUNT) ++ beInt 8 s.man.lastStepNs ++
    List.replicate 8 0

/-- Freeze the ledger of a tenant into a record to be signed, and open its next period (R514 step 2); `done` as in `Frozen`. -/
def State.freeze (s : State) (t flags k until_ : Nat) (done : Option (Nat × Nat)) : State :=
  let l := s.ledger t
  let h := s.recordHead t l (b2n l.regress + 8 * b2n l.partial_ + flags) k until_
  let s := { s with man := { s.man with frozen := s.man.frozen ++ [Frozen.mk t l.seq h done] } }
  let s := s.setf MAN.STATUS_SIGNING 1
  let n := s.clientsOf t
  s.modLedger t (fun l => { l with
    seq := l.seq + 1, start := until_, partial_ := false, regress := false, sync := 0, dresp := 0, ann := 0, trace := 0
    degr := 0, out := 0, berths := n })

/-- The sealing state, the frozen ledgers and the floors reach non-volatile storage by a commit (R514 step 3, R633, R637). -/
def State.commitSealing (s : State) : State :=
  let g := fun (y : NvSystem) => { y with
    sealed_ := s.sealedAt, sealedK := s.man.sealedK, everSealed := s.man.everSealed, nextB := s.nextBoundary
    regr := s.f MAN.REGR_COUNT, regrS := s.f MAN.REGR_LAST_S, lastStepNs := s.man.lastStepNs }
  { s with nv := { s.nv with sys := g s.nv.sys } }.ckptNext.startCommit false

/-- The records of a sealing are signed: a boundary, or a close, and their number (R514 step 5). -/
def State.sealedDone (s : State) (b n : Nat) : State := (s.ev MAN.EVENT_SEALED).logDev 0x0403 (beBytes 8 b ++ beBytes 2 n)

/-- Seal the open period of billing time scale tsc at a boundary (R513, R514). -/
def State.sealPeriod (s : State) (tsc k b flags : Nat) : State :=
  let open_ := s.man.ledgers.filterMap (fun x => if x.2.isOpen then some x.1 else none)
  let n := open_.length
  let s := s.forL open_ (fun s t => s.freeze t flags k b (if open_.getLast? = some t then some (b, n) else none))
  let s := (s.setw MAN.SEALED_LO b).setw MAN.SEALED_HI (b / 2 ^ 32)
  let s := { s with man := { s.man with sealedK := k, everSealed := true, powerLoss := false }, nv := { s.nv with floorDue := some (tsc, b) } }
  let s := s.refreshNext.commitSealing
  if n = 0 then s.sealedDone b 0 else s

/-- Whether the billing time scale has reached the next boundary, and its sealing when it has (R512, R513, R515, R517); records that a reset
left unsigned go before (R521). -/
def State.billCheck (s : State) (k : Nat) : State :=
  let n := s.nextBoundary
  let sec := (s.tscC k).sec
  let p := s.w MAN.PERIOD
  if s.man.resume then s
  else if s.billing k && p != 0 && decide (n ≤ sec) then
    let j := (sec - s.billBase) / p
    let b := s.billBase + j * p
    let flags := if s.man.powerLoss then 4 else if b = n then 0 else 2
    s.sealPeriod k j b flags
  else if s.billing k then { s with man := { s.man with powerLoss := false } }
  else s

/-- A correction would bring the billing time scale, SET or not, below the last sealed boundary (R516). -/
def State.guarded (s : State) (k : Nat) (v : Int) : Bool :=
  s.on MAN.CFG_EN && s.f MAN.CFG_TSC == k && s.tscBuilt k && s.man.everSealed && decide (v < (s.sealedAt : Int) * (1000000000 * 2 ^ 56))

/-- A ticketed step has left the billing time scale below the last sealed boundary (R517). -/
def State.regression (s : State) (amount : Int) : State :=
  let ns := amount / 2 ^ 32
  let s := (s.inc MAN.REGR_COUNT).setSat MAN.REGR_LAST_S (ns / 1000000000)
  let s := { s with man := { s.man with
    lastStepNs := ns, ledgers := Tab.remap (fun _ => {}) (fun _ l => { l with regress := l.regress || l.isOpen }) s.man.ledgers } }
  let s := (s.ev MAN.EVENT_REGRESSION).logDev 0x0404 (beInt 8 ns ++ beBytes 2 (s.f MAN.REGR_COUNT))
  s.commitSealing

/-- One second of one ledger (R510): served, then traceable or degraded; or out; or not counted. -/
def State.countSecond (s : State) (t : Nat) (l : Ledger) : Ledger :=
  let live := l.live || s.liveClient t
  let tr := l.ports.all (fun n => s.on (TSC.STATUS_TRACEABLE (s.prtTsc n)))
  let l := if live && l.served then (if tr then { l with trace := l.trace + 1 } else { l with degr := l.degr + 1 })
    else if live then { l with out := l.out + 1 } else l
  { l with served := false, ports := [], live := s.liveClient t }

/-- A second of the time scale that CFG names begins, whether or not billing runs: no report has come in it, and whether it will be counted
depends on the role now (R510, R511). -/
def State.secondBegins (s : State) : State :=
  { s with man := { s.man with
    counts := !(s.xlkBuilt && s.f XLK.STATUS_ROLE == 2) && s.nv.storing.isNone && !s.nv.stored
    ledgers := Tab.remap (fun _ => {}) (fun t l =>
      if l.isOpen then { l with served := false, ports := [], live := s.liveClient t } else l) s.man.ledgers } }

/-- The second that ends at a rollover of the billing time scale (R510, R511), and the boundary it may end at. -/
def State.billSecond (s : State) (k : Nat) : State :=
  if s.f MAN.CFG_TSC ≠ k then s
  else
    let s := if s.billing k ∧ s.man.counts then
        { s with man := { s.man with
          ledgers := Tab.remap (fun _ => {}) (fun t l => if l.isOpen then s.countSecond t l else l) s.man.ledgers } }
      else s
    s.secondBegins.billCheck k

/-- The enclave signs the oldest frozen ledger (R514 step 4, R518); within a full reset it does not, and once the records that a reset left
unsigned are signed, a boundary that has been reached is sealed (R521). -/
def State.signNext (s : State) : State :=
  match s.man.frozen with
  | [] => s
  | f :: rest =>
    if s.top.inFull then s else
    let pad := fun (n : Nat) (b : List Byte) => (b ++ List.replicate n 0).take n
    let body := f.head ++ pad 48 (s.ledger f.tenant).prev
    let rec_ := body ++ pad 96 (Config.ecdsaSign 0 (Config.sha384 body))
    let s := s.modLedger f.tenant (fun l => { l with prev := Config.sha384 rec_ })
    let s := { s with man := { s.man with frozen := rest, toArchive := s.man.toArchive ++ [(f.tenant, f.seq, rec_)] } }
    let s := s.setb MAN.STATUS_SIGNING (!rest.isEmpty)
    let s := match f.done with
      | some (b, n) => s.sealedDone b n
      | none => s
    if (rest.isEmpty && s.man.resume) = true then
      ({ s with man := { s.man with resume := false } } : State).billCheck (s.f MAN.CFG_TSC)
    else s

end Sys2Proof.Machine
end

