-- ==== Sys2Proof/Machine/TscOps.lean ====
section
/-! DEFINITION. The corrections of a time scale and the jump limit that each of them passes (R44, R371 to R380). Amounts are in
units of 2⁻³² ns, values in units of 2⁻⁵⁶ ns. -/

namespace Sys2Proof.Machine

/-- Sources of a correction as REFUSALS.SOURCE and the logbook code them (R378). -/
inductive CorrSource where
  | hostA | hostB | upstream | xlink | tied | scheduled
  deriving DecidableEq, Repr

/-- See `CorrSource`. -/
def CorrSource.num : CorrSource → Nat
  | .hostA => 1 | .hostB => 2 | .upstream => 3 | .xlink => 4 | .tied => 5 | .scheduled => 6

/-- The source that a host port is. -/
def hostSource : Port → CorrSource
  | .a => .hostA
  | .b => .hostB

/-- Refuse a correction of a size in 2⁻³² ns (R378). -/
def State.refuse (s : State) (k : Nat) (src : CorrSource) (size : Nat) : State :=
  let us := ceilDiv size (1000 * 2 ^ 32)
  let s := ((s.inc (TSC.REFUSALS_COUNT k)).setf (TSC.REFUSALS_SOURCE k) src.num).setf (TSC.REFUSALS_LAST_US k)
    (satBits 16 us)
  let s := (s.ev (TSC.EVENT_REFUSED k)).route (0x0A8 + k)
  s.logDev 0x0401 (beBytes 1 k ++ beBytes 1 src.num ++ beBytes 8 (satBits 64 (roundOpen 4 (size : Int) (2 ^ 32)).toNat))

/-- The threshold of a time scale in 2⁻³² ns. -/
def State.limit (s : State) (k : Nat) : Nat := (s.tscC k).thresh * 2 ^ 32

/-- Put an increment in force (R367, R372). -/
def State.setInc (s : State) (k : Nat) (y : Int) : State :=
  (s.modTsc k (fun c => { c with y := y })).setSat (TSC.INC32_Y k) (roundNear y (2 ^ 16))

/-- Size of a change of increment: its magnitude times 1 s, in 2⁻³² ns, rounded up (R377). -/
def incSize (dy : Int) : Nat := ceilDiv (dy.natAbs * 1000000000 * 2 ^ 32) (2 ^ 56)

/-- A change of increment passes the jump limit, or is refused (R377, R378). -/
def State.tryInc (s : State) (k : Nat) (src : CorrSource) (y : Int) : State × Code :=
  let dy := y - (s.tscC k).y
  if dy.natAbs * 1000000000 ≤ (s.tscC k).thresh * 2 ^ 56 then (s.setInc k y, .ok)
  else (s.refuse k src (incSize dy), .refusedThreshold)

/-- Φ takes in an accepted correction (R463). -/
def State.phiAdd (s : State) (k : Nat) (d : Int) : State := s.modTsc k (fun c => { c with phi := c.phi + d })

/-- A guarded correction sets MAN.EVENT.GUARD and is refused (R516). -/
def State.refuseGuard (s : State) (k : Nat) (src : CorrSource) (size : Nat) : State :=
  (s.refuse k src size).ev MAN.EVENT_GUARD

/-- An ADJUST from any source (R374, R377, R378, R516). -/
def State.tryAdjust (s : State) (k : Nat) (src : CorrSource) (amount : Int) : State × Code :=
  let c := s.tscC k
  let rem := c.rem + amount * 2 ^ 24
  let size := ceilDiv rem.natAbs (2 ^ 24)
  if s.guarded k (c.val + rem) then (s.refuseGuard k src size, .refusedThreshold)
  else if rem.natAbs > s.limit k * 2 ^ 24 then (s.refuse k src size, .refusedThreshold)
  else
    let s := (s.modTsc k (fun c => { c with rem := rem })).phiAdd k (amount * 2 ^ 24)
    let was := s.on (TSC.STATUS_ADJUSTING k)
    let s := s.setb (TSC.STATUS_ADJUSTING k) (rem != 0)
    (s.evIf (was && rem == 0) (TSC.EVENT_ADJ_DONE k), .ok)

/-- The time scale becomes SET (R369); with the billing time scale a second of billing begins (R511). -/
def State.becomeSet (s : State) (k : Nat) : State :=
  if s.on (TSC.STATUS_SET k) then s
  else
    let s := ((s.setf (TSC.STATUS_SET k) 1).ev (TSC.EVENT_SET_DONE k)).refreshTrace
    s.when (s.f MAN.CFG_TSC == k) (fun s => s.secondBegins)

/-- The TODOUT record of a line. -/
def State.todRec (s : State) (k : Nat) : Option TodoutRec := ((s.fab.img.map (·.todouts)).getD []).find? (fun r => r.line == k)

/-- A line is bound to a time scale. -/
def State.todBound (s : State) (k n : Nat) : Bool := ((s.todRec k).map (fun r => r.tsc == n)).getD false

/-- The window of a TODOUT message is from 1 ms to 2 ms after its rollover (R387). -/
def TodCore.window (c : TodCore) (now : Nat) : Bool := decide (c.since + 2000000 ≤ now) && decide (now ≤ c.since + 4000000)

/-- A message that waits is not sent after a step in its window, nor after one that skips its second (R387). -/
def State.todSkip (s : State) (n before : Nat) : State :=
  s.forN 2 (fun s k =>
    if s.todBound k n ∧ ((s.todC k).window s.now ∨ (s.tscC n).sec ≠ before) then s.modTod k (fun c => { c with due := false }) else s)

/-- The value moves by an amount of 2⁻³² ns at one tick. -/
def State.moveVal (s : State) (k : Nat) (amount : Int) : State :=
  (s.modTsc k (fun c => c.withVal (c.val + amount * 2 ^ 24))).phiAdd k (amount * 2 ^ 24)

/-- A step takes effect (R375): event, logbook record of the amount, its source and the value before; billing follows. -/
def State.doStep (s : State) (k src : Nat) (ticketed : Bool) (amount : Int) : State :=
  let before := (s.tscC k).sec
  let s := (s.moveVal k amount).modTsc k (fun c => { c with steppedAt := some s.now })
  let s := ((s.ev (TSC.EVENT_STEPPED k)).route (0x098 + k)).todSkip k before
  let s := s.logDev 0x0400 (beBytes 1 k ++ beBytes 1 src ++ beBytes 1 (b2n ticketed) ++ beInt 12 amount ++ beBytes 8 before)
  let s := if s.guarded k (s.tscC k).val then s.regression amount else s
  s.billCheck k

/-- A STEP from any source (R375, R377, R378, R516). -/
def State.tryStep (s : State) (k : Nat) (src : CorrSource) (amount : Int) : State × Code :=
  if s.guarded k ((s.tscC k).val + amount * 2 ^ 24) then (s.refuseGuard k src amount.natAbs, .refusedThreshold)
  else if amount.natAbs > s.limit k then (s.refuse k src amount.natAbs, .refusedThreshold)
  else (s.doStep k src.num false amount, .ok)

/-- The amount in 2⁻³² ns from the value that a time scale reports to another (R366, R372). -/
def TscCore.amountTo (c : TscCore) (v : Int) : Int := (v - (c.val - c.val % 2 ^ 24)) / 2 ^ 24

/-- SET_TIME to a value while UNSET (R371): refused below the floor. It is no STEP, so it has none of the effects of R375
(log entry 56, DEDUCED). -/
def State.setFirst (s : State) (k : Nat) (src : CorrSource) (v : Int) : State × Code :=
  let c := s.tscC k
  let sec : Int := v / (1000000000 * 2 ^ 56)
  let amount := c.amountTo v
  if sec < (c.floor : Int) then (s.refuse k src amount.natAbs, .refusedThreshold)
  else (((s.becomeSet k).moveVal k amount).billCheck k, .ok)

/-- The first offset presented to an UNSET time scale (R371): refused below the floor and below the last sealed boundary (R516), and else a
STEP of any size. -/
def State.stepFirst (s : State) (k : Nat) (src : CorrSource) (amount : Int) : State × Code :=
  let c := s.tscC k
  let sec : Int := (c.val + amount * 2 ^ 24) / (1000000000 * 2 ^ 56)
  if s.guarded k (c.val + amount * 2 ^ 24) then (s.refuseGuard k src amount.natAbs, .refusedThreshold)
  else if sec < (c.floor : Int) then (s.refuse k src amount.natAbs, .refusedThreshold)
  else ((s.becomeSet k).doStep k src.num false amount, .ok)

/-- SET_TIME to a value (R371, R372). -/
def State.trySet (s : State) (k : Nat) (src : CorrSource) (v : Int) : State × Code :=
  if s.on (TSC.STATUS_SET k) then s.tryStep k src ((s.tscC k).amountTo v) else s.setFirst k src v

/-- An offset that an upstream berth or the crossing link presents as a STEP (R372, R470, R543). -/
def State.presentStep (s : State) (k : Nat) (src : CorrSource) (amount : Int) : State × Code :=
  if s.on (TSC.STATUS_SET k) then s.tryStep k src amount
  else s.stepFirst k src amount

/-- The word of a tied loop (R241, R372, R378). -/
def State.tiedWord (s : State) (k : Nat) (w : Int) : State := stateOf (s.tryInc k .tied w)

/-- What an increment that was scheduled does beside (R376): an accepted one sets EVENT.SCHED_DONE. -/
def schedDone (k : Nat) (r : State × Code) : State :=
  if r.2 = .ok then (r.1.ev (TSC.EVENT_SCHED_DONE k)).route (0x0A0 + k) else r.1

/-- A scheduled increment is applied, or refused and discarded (R376, R378). -/
def State.applySched (s : State) (k : Nat) : State :=
  match (s.tscC k).sched with
  | none => s
  | some (y, _) => schedDone k (((s.modTsc k (fun c => { c with sched := none })).setf (TSC.STATUS_SCHED_PEND k) 0).tryInc k .scheduled y)

end Sys2Proof.Machine
end

