-- ==== Sys2Proof/Machine/MemOps.lean ====
section
/-! DEFINITION. Reads of the banks of the scratchpads, and what they report (R626, R627). -/

namespace Sys2Proof.Machine

/-- Check a word that is read (R626, R627): a single error is corrected in place, a double one is counted and reported. READER is
0 the owner, 1 and 2 the host ports, 3 the scrubber; the syndrome is open (log entry 3, DESIGN CHOICE). -/
def State.eccRead (s : State) (w reader : Nat) : State :=
  let b := s.eccBits w
  if b = 0 then s
  else
    let sp := w * 8 / spSize
    let syn := s.free 8
    let s := s.took.setw MEM.ECC_ADDR (w * 8)
    let s := s.setw MEM.ECC_LAST (0x80000000 + (if b ≥ 2 then 0x40000000 else 0) + reader * 2 ^ 28 + syn)
    if b = 1 then (s.inc (MEM.ECC_CORR sp)).setEcc w 0
    else (s.inc (MEM.ECC_UNCORR sp)).reportInj 0x100 0x12 (w * 8) true

/-- Read the words of a range that carry an error (R626). -/
def State.bankCheck (s : State) (a n reader : Nat) : State :=
  s.forL ((s.ecc.filter (fun x => decide (a / 8 ≤ x.1 ∧ x.1 * 8 < a + n))).map (·.1)) (fun s w => s.eccRead w reader)

end Sys2Proof.Machine
end

