-- ==== Sys2Proof/Machine/EngineOps.lean ====
section
/-! DEFINITION. The engine array (09_spares_and_ferry_hold.md): the checkpoint slots of an engine, fencing, the choice of a pontoon and
the start of a migration (R306 to R317). -/

namespace Sys2Proof.Machine

/-! Checkpoints. -/

/-- Seconds that a loop has spent in its current lock dwell, or else in its current gear, at its last update boundary (R306). -/
def LoopCore.gearSeconds (c : LoopCore) : Nat := (c.lastB - c.lockSince.getD c.gearAt) / 2000000000

/-- The 504 bytes of a checkpoint slot before the reserved word and the CRC (R306), for an update in catch-up or not. The layout of its
accumulators is open (log entry 3). -/
def State.checkpointBody (s : State) (l : Nat) (catchUp : Bool) : List Byte :=
  let c := s.loopC l
  let h := s.hoC l
  let act := match s.selOf l with | some n => s.active n | none => 0x1F
  let i64 := fun (v : Int) => leBytes 8 (ofSigned 64 v)
  leBytes 8 c.seq ++ leBytes 8 c.lastB ++
    leBytes 8 (s.loopState l + 8 * s.f (LOOP.STATUS_FROZEN l) + 16 * s.f (LOOP.STATUS_GEAR l) +
      128 * s.f (LOOP.STATUS_FINAL l) + 256 * act + 8192 * s.f (LOOP.STATUS_TAG l) + 32768 * b2n catchUp) ++
    i64 (roundOpen 5 c.yI (2 ^ 40)) ++ i64 (roundOpen 6 c.uc (2 ^ 40)) ++ i64 (roundOpen 7 c.ph (2 ^ 32)) ++
    i64 (roundOpen 8 c.bo (2 ^ 32)) ++ i64 c.rem ++ i64 (c.armed.getD 0) ++
    leBytes 8 (ofSigned 48 c.word + b2n c.armed.isSome * 2 ^ 63) ++ i64 c.ybar ++
    leBytes 8 (match c.wrap with | some (t, _, _) => t.toNat | none => 0) ++ i64 h.yho ++
    leBytes 8 (s.w (LOOP.HO_ELAPSED l) * 2 ^ 32 + c.gearSeconds % 2 ^ 32) ++
    leBytes 8 (ofSigned 16 ((h.tEff.getD 0) / 2 ^ 32) * 2 ^ 48) ++ leBytes 384 (s.free 3072) ++ List.replicate 4 0

/-- The loop's numbers as a checkpoint slot stores them, in its units (R306). -/
def LoopCore.asStored (c : LoopCore) : LoopCore :=
  { c with
    yI := roundOpen 5 c.yI (2 ^ 40) * 2 ^ 40, uc := roundOpen 6 c.uc (2 ^ 40) * 2 ^ 40, ph := roundOpen 7 c.ph (2 ^ 32) * 2 ^ 32
    bo := roundOpen 8 c.bo (2 ^ 32) * 2 ^ 32, kept := [], mig := none, orders := [], waiting := [] }

/-- What the checkpoint of an update holds (R306). -/
def State.takeCheckpoint (s : State) (l : Nat) : Checkpoint :=
  { state := s.loopState l, frozen := s.on (LOOP.STATUS_FROZEN l), gear := s.f (LOOP.STATUS_GEAR l), final := s.on (LOOP.STATUS_FINAL l)
    elapsed := s.w (LOOP.HO_ELAPSED l), core := (s.loopC l).asStored
    ho := { s.hoC l with tEff := (s.hoC l).tEff.map (fun t => t / 2 ^ 32 * 2 ^ 32) } }

/-- Slot k of an engine takes a checkpoint. -/
def State.putCheckpoint (s : State) (e k : Nat) (x : Checkpoint) : State :=
  { s with eng := { s.eng with cks := (2 * e + k, x) :: s.eng.cks.filter (fun y => y.1 != 2 * e + k) } }

/-- BAR2 offset of slot k of an engine (R305). -/
def slotAt (e k : Nat) : Nat := e * spSize + 0x60000 + 0x200 * k

/-- Write the checkpoint of an update into the slot of its number (R306). -/
def State.checkpoint (s : State) (l : Nat) (catchUp : Bool) : State :=
  let b := s.checkpointBody l catchUp
  let e := s.engineOf l
  let k := (s.loopC l).seq % 2
  (s.putCheckpoint e k (s.takeCheckpoint l)).took.bankWrite (slotAt e k) (b ++ leBytes 4 (crc32c b))

/-- A checkpoint slot whose CRC is right (R306). -/
def State.slotGood (s : State) (e k : Nat) : Bool :=
  let b := s.bytes (slotAt e k) 0x200
  ofLe (b.drop 0x1FC) == crc32c (b.take 0x1FC) && !s.bankBad (slotAt e k) 0x200

/-- The slot of the last consistent checkpoint of an engine (R306): the CRC is correct, and the SEQ is higher. -/
def State.lastSlot (s : State) (e : Nat) : Option Nat :=
  if s.slotGood e 0 && s.slotGood e 1 then (if s.word64 (slotAt e 0) < s.word64 (slotAt e 1) then some 1 else some 0)
  else if s.slotGood e 0 then some 0
  else if s.slotGood e 1 then some 1
  else none

/-- The last consistent checkpoint of an engine (R306). -/
def State.lastCheckpoint (s : State) (e : Nat) : Option Checkpoint :=
  (s.lastSlot e).bind (fun k => (s.eng.cks.find? (fun x => x.1 == 2 * e + k)).map (·.2))

/-- A consistent checkpoint stands in the scratchpad of an engine (R306, R312). -/
def State.hasCheckpoint (s : State) (e : Nat) : Bool := (s.lastCheckpoint e).isSome

/-- A receiving engine takes the checkpoint that it has loaded into the slot of the same number, and leaves its other slot blank (log
entry 76, DESIGN CHOICE). -/
def State.copyCheckpoint (s : State) (src dst : Nat) : State :=
  match s.lastSlot src, s.lastCheckpoint src with
  | some k, some x =>
    let s := (s.fillRegion (slotAt dst 0) 0x400 []).putCheckpoint dst k x
    s.bankWrite (slotAt dst k) (s.bytes (slotAt src k) 0x200)
  | _, _ => s

/-! Fencing and migration. -/

/-- The logbook record of a failover, migration, retirement or return (R654). -/
def State.logEngine (s : State) (l src dst cause : Nat) : State :=
  s.logDev 0x0303 (beBytes 1 l ++ beBytes 1 src ++ beBytes 1 dst ++ beBytes 1 cause)

/-- An operation of ENG that moved a loop has ended (R313). -/
def State.engOpDone (s : State) (l : Nat) : State :=
  if s.eng.opLoop = some l then
    (({ s with eng := { s.eng with opLoop := none } } : State).setf ENG.CMD_STATUS_BUSY 0).ringEngineDone
  else s

/-- A loop for which no healthy engine is left stays frozen on its last word, until a full reset (R47). -/
def State.strand (s : State) (e l : Nat) : State :=
  let s := ((s.letGo l).engOpDone l).evIf (s.engState e == 4) ENG.EVENT_FENCED
  let s := (s.modLoop l (fun c => { c with mig := none, orders := [], stranded := true })).freezeLoop l
  s.ev ENG.EVENT_NO_PONTOON

/-- No healthy engine is left for a loop, which is reported (R47, R312). -/
def State.noPontoon (s : State) (e l : Nat) : State := (s.strand e l).report (0x200 + e) 0x0E l

/-- A migration of a loop begins: a refit in progress is abandoned, and runs again when the history has been copied (R311, R317). -/
def State.beginMove (s : State) (l src dst : Nat) (planned retire : Bool) : State :=
  (s.modLoop l (fun c => { c with mig := some (src, dst, planned, retire) })).modHo l (fun h => { h with refit := false })

/-- An engine's checkers fire (R308, R309 steps 1 to 3): it is FENCED, the fault is reported, and its loop starts a failover to the
pontoon of R302, or stays frozen; during a full reset the landing deals with it (R323). `inj` marks the message (R678). -/
def State.checkerFires (s : State) (e cause : Nat) (inj : Bool) : State :=
  let l := s.f (ENG.ENGINE_LOOP e)
  let bound := s.engState e == 1
  let old := (s.loopC l).mig
  let s := s.setEntry e (ENG.ENGINE_CAUSE e) cause
  let s := s.setEngine e 4 (if bound then l else 0x3F)
  let s := s.reportInj (0x200 + e) 0x0C cause inj
  if !bound ∨ s.top.inFull then s.ev ENG.EVENT_FENCED
  else
    let want := match old with
      | some (_, d, _, _) => if s.engState d = 0 then some d else s.pontoon
      | none => s.pontoon
    match want with
    | some d => s.beginMove l e d false false
    | none => s.noPontoon e l

/-- A planned migration begins (R314): its loop, the receiving engine, and whether the source is RETIRED afterwards. -/
def State.planMigration (s : State) (l src dst : Nat) (retire : Bool) : State :=
  s.beginMove l src dst true retire

end Sys2Proof.Machine
end

