-- ==== Sys2Proof/Machine/Loop.lean ====
section
/-! DEFINITION. The loops' own commands and events: the update of R236 with its phase sample, coefficients, departure, lock and
control word, the dwell timers, phase steps and the state record (07_dpll_engines.md). -/

namespace Sys2Proof.Machine

/-! Coefficients. -/

/-- A positive fraction in the format of R266, MANT rounded to nearest. -/
def encodeCoef (num : Nat) (scale : Nat) : Nat :=
  if num = 0 then 0
  else
    let m := Nat.log2 num
    let mant := (num * 2 ^ 24 / 2 ^ m + 1) / 2
    if mant ≥ 2 ^ 24 then (scale - m - 2) * 2 ^ 24 + 2 ^ 23 else (scale - m - 1) * 2 ^ 24 + mant

/-- 2⁶⁴ times the ratio of f3dB to ωn / 2π for a damping in units of 2⁻⁸ (R236, R267). -/
def bandRatio (zeta : Nat) : Nat :=
  let a := (zeta * zeta + 32768) * 2 ^ 49
  isqrt ((a + isqrt (a * a + 2 ^ 128)) * 2 ^ 64)

/-- π in units of 10⁻⁵⁰. -/
def piE50 : Nat := 314159265358979323846264338327950288419716939937510

/-- 2¹²⁸ ωn Tu for a bandwidth in µHz, an update interval in T and a damping in units of 2⁻⁸. -/
def omegaTu (bw tu zeta : Nat) : Nat := piE50 * bw * tu * 2 ^ 192 / (10 ^ 65 * bandRatio zeta)

/-- COEF_P and COEF_I as derived (R236, R267). -/
def derivedCoefs (bw tu zeta : Nat) : Nat × Nat :=
  let x := omegaTu bw tu zeta
  (encodeCoef (x * zeta) 135, encodeCoef (x * x) 256)

/-- COEF_P and COEF_I read the derived coefficients while RAW is 0 (R267). -/
def State.refreshCoefs (s : State) (l : Nat) : State :=
  if s.on (LOOP.CTRL_RAW l) then s
  else
    let (p, i) := derivedCoefs (s.loopC l).bw (s.loopTu l) (s.f (LOOP.DAMP_ZETA l))
    (s.setw (LOOP.COEF_P l) p).setw (LOOP.COEF_I l) i

/-- MANT and EXP + 24 of a coefficient (R266). -/
def coefMant (w : Nat) : Nat := w % 2 ^ 24
/-- See `coefMant`. -/
def coefExp (w : Nat) : Nat := w / 2 ^ 24 % 2 ^ 7 + 24

/-- A phase in 2⁻³² fs times a coefficient over an update interval in T, as a frequency in 2⁻⁹⁶ (R236). -/
def coefTimes (w : Nat) (e : Int) (tu : Nat) : Int :=
  e * coefMant w * 2 ^ 64 / ((2 ^ coefExp w * (tu * 500000) : Nat) : Int)

/-! Phase samples. -/

/-- The unwrapping of a clock or SyncE entry in progress over the stamps of an interval (R235): the core as it stands, sum and
number of the phase errors, and slips. -/
structure Unwrap where
  core : LoopCore
  sum : Int
  n : Nat
  slips : Nat

/-- One stamp of a clock or SyncE entry whose decimated period is `pn` / `h`, at a decimation (R235). -/
def Unwrap.step (decim : Nat) (pn : Int) (h : Nat) (u : Unwrap) (x : Sample) : Unwrap :=
  let c := u.core
  let lp := c.phaseAt x.x
  match c.wrap with
  | none =>
    let k := roundNear (lp * h) pn.toNat
    { u with core := { c with wrap := some (x.x, x.idx, k) }, sum := u.sum + roundNear (k * pn - lp * h) h, n := u.n + 1 }
  | some (t, idx, k) =>
    let edges := edgesBetween decim idx x.idx
    let k := k + edges
    let e := roundNear (k * pn - lp * h) h
    if c.reanchor then
      let j := roundNear ((e - c.bo) * h) pn.toNat
      { u with
        core := { c with wrap := some (x.x, x.idx, k), reanchor := false, bo := c.bo + roundNear (j * pn) h }
        sum := u.sum + e, n := u.n + 1 }
    else
      let predicted := t * stampPhase + edges * pn * q96 * q56 / ((q96 + c.yI) * (q56 + c.ybar) * h)
      if (x.x * stampPhase - predicted).natAbs * 4 * h > pn.natAbs then
        { u with core := { c with reanchor := true }, slips := u.slips + 1 }
      else { u with core := { c with wrap := some (x.x, x.idx, k) }, sum := u.sum + e, n := u.n + 1 }

/-- The mean phase error of the samples of an interval of an entry (R234), none when there is none. The unwrapping begins anew with the
samples among which a departure is sought (R235, R247). -/
def State.meanError (s : State) (n k l : Nat) (xs : List Sample) : State × Option Int :=
  if (s.entryKind n k).phase then
    let sum := (xs.map (s.sampleError n k l)).sum
    (s, if xs.isEmpty then none else some (sum / xs.length))
  else
    let m := s.f (SEL.CAND_CFG_WHO n k)
    let h := s.f (LND.NOM_FREQ_HALF_HZ m)
    if h = 0 then (s, none)
    else
      let c := s.loopC l
      let c := if c.depart then { c with wrap := none, reanchor := false } else c
      let u := xs.foldl (Unwrap.step (s.decim m) (s.periodNum m) h) ⟨c, 0, 0, 0⟩
      let s := s.modLoop l (fun _ => u.core)
      let s := (s.incBy (LOOP.SLIPS_COUNT l) u.slips).evIf (u.slips != 0) (LOOP.EVENT_SLIP l)
      (s, if u.n = 0 then none else some (u.sum / u.n))

/-- The sources of a cascaded or combined loop with their weights (R85, R261): the weights in force. -/
def State.sourcesOf (s : State) (l : Nat) : List (Nat × Nat) :=
  if s.f (LOOP.CFG_INKIND l) = 1 then [(s.f (LOOP.CFG_INIDX l), 0x10000)]
  else (List.range 4).filterMap (fun i =>
    let src := s.f (LOOP.WEIGHT_SRC l i)
    if src < 32 then some (src, ((s.loopC l).weights.getD i (s.f (LOOP.WEIGHT_W l i)))) else none)

/-- Output phase of a loop with its applied steps at an instant in T, less the instant itself (R261). -/
def LoopCore.outPhase (c : LoopCore) (b : Nat) : Int := let c := c.advance b; c.ph + c.stepPh

/-- The weighted sum of the sources' output phases at a boundary (R261). -/
def State.sourcePhase (s : State) (l : Nat) (xs : List Sample) : Int :=
  (((s.sourcesOf l).zip xs).map (fun z => z.2.x * (z.1.2 : Int))).sum / 0x10000

/-- The sources' FREQ combined by their weights, in 2⁻⁵⁶ (R253). -/
def State.sourceFreq (s : State) (l : Nat) : Int :=
  ((s.sourcesOf l).map (fun x => (s.loopC x.1).freq56 * x.2)).sum / 0x10000

/-- A source loop is frozen, migrating or fenced (R263). -/
def State.sourceDown (s : State) (src : Nat) : Bool :=
  s.on (LOOP.STATUS_FROZEN src) || (s.loopC src).mig.isSome || s.engState (s.engineOf src) == 4

/-- The phase sample of an interval and its tag (R18, R234, R261, R263, R324). -/
def State.phaseSample (s : State) (l : Nat) (xs : List Sample) : State × Tag × Int :=
  let tag := fun (s : State) => if (s.loopC l).settle = 0 then Tag.valid else Tag.settle
  match s.selOf l with
  | some n =>
    let k := (s.loopC l).entry
    let ls := s.loopState l
    if k < 30 ∧ (ls = 1 ∨ ls = 2) then
      match s.meanError n k l xs with
      | (s, some e) => (s, tag s, e)
      | (s, none) => (s, .gap, 0)
    else (s, .gap, 0)
  | none =>
    let e := s.sourcePhase l xs - (s.loopC l).ph
    let ls := s.loopState l
    if xs.isEmpty ∨ ¬(ls = 1 ∨ ls = 2) then (s, .gap, 0)
    else if xs.any (fun x => x.idx != 0) then (s, .suspect, e)
    else (s, tag s, e)

/-! The update. -/

/-- A bandwidth written takes effect (R238, R264, R268): in the final gear, and outside acquisition, the loop runs at `BW`; in another
gear the write sends it to the final gear where its bandwidth is already at or below `BW`. -/
def State.bwAtBoundary (s : State) (l : Nat) : State :=
  let new := (s.loopC l).bwNew
  let s := s.modLoop l (fun c => { c with bwNew := false })
  if s.on (LOOP.STATUS_FINAL l) ∨ s.loopState l ≠ 1 then s.setBw l (s.finalBw l)
  else if new ∧ (s.loopC l).bw ≤ s.finalBw l then s.finalGear l (s.loopC l).gear
  else s

/-- A loop that follows other loops starts to follow them (R251): from FREE_RUN with its gears, from FERRY_HOLD in the final gear once
no source is in FERRY_HOLD (R324; log entry 77, DEDUCED). -/
def State.followSources (s : State) (l : Nat) : State :=
  let st := s.loopState l
  if st = 4 ∧ (s.sourcesOf l).all (fun x => s.loopState x.1 != 4) then (s.setf (LOOP.STATUS_STATE l) 1).finalGear l 0
  else if st = 0 then (s.setf (LOOP.STATUS_STATE l) 1).startGears l
  else s

/-- New combination weights come into force at a boundary where the sources' phases are `xs`: the build-out takes up the difference
(R262). -/
def State.weightsAtBoundary (s : State) (l : Nat) (xs : List Sample) : State :=
  let old := (s.loopC l).weights
  let new := (List.range 4).map (fun i => s.f (LOOP.WEIGHT_W l i))
  if s.f (LOOP.CFG_INKIND l) ≠ 2 ∨ old = new then s
  else
    let before := s.sourcePhase l xs
    let s := s.modLoop l (fun c => { c with weights := new, settle := 4 })
    let d := s.sourcePhase l xs - before
    if old.isEmpty then s else s.modLoop l (fun c => { c with bo := c.bo + d })

/-- What takes effect at an update boundary before the equations: a bandwidth written, new combination weights, and the resumption of
a loop that follows other loops (R238, R251, R262, R264, R324). -/
def State.atBoundary (s : State) (l : Nat) (xs : List Sample) : State :=
  let s := s.bwAtBoundary l
  let s := match s.selOf l with
    | some _ => s
    | none => (s.followSources l).weightsAtBoundary l xs
  s.refreshCoefs l

/-- Tu of a loop in fs. -/
def State.tuFs (s : State) (l : Nat) : Nat := s.loopTu l * 500000

/-- The phase-slope limit as a frequency (R243); at a departure the smaller of it and what R249 allows. -/
def State.slopeLimit (s : State) (l : Nat) (departure : Bool) : Int :=
  let lim : Int := s.f (LOOP.SLOPE_PSPS l) * q96 / 10 ^ 12
  if !departure then lim
  else
    let p := s.w (LOOP.COEF_P l)
    let i := s.w (LOOP.COEF_I l)
    let a := coefMant p * 2 ^ coefExp i
    let d := a + coefMant i * 2 ^ coefExp p
    min lim (20000 * q96 * a / ((s.tuFs l * max 1 d : Nat) : Int))

/-- What one update makes of the loop's numbers (R236, R256, R285). -/
structure Upd where
  yI : Int
  uc : Int
  sl : Int
  rem : Int
  part : Int
  bo : Int
  clamped : Bool
  sat : Bool

/-- What is left to slew, in 2⁻⁹⁶ fs (R236, R259). -/
def LoopCore.left (c : LoopCore) : Int := c.rem * q96 - c.remPart

/-- A remainder in 2⁻⁹⁶ fs as the whole fs that hold it, and the part of the last of them that has been slewed (R259). -/
def wholeFs (r : Int) : Int × Int :=
  let w := if 0 < r then -(-r / q96) else r / q96
  (w, w * q96 - r)

/-- The equations of R236, with FREE_RUN (R256) and HOLDOVER (R285) as they replace the integrator. A step slews at the limit less the
proportional term until nothing is left of it (R244, R259). -/
def State.equations (s : State) (l : Nat) (tag : Tag) (e : Int) : Upd :=
  let c := s.loopC l
  let tu := s.loopTu l
  let departure := c.depart && tag == .valid
  let lim := s.slopeLimit l departure
  let bo := if departure then (if c.setBo then e else 0) else c.bo
  let e1 := e - bo
  let u := coefTimes (s.w (LOOP.COEF_P l)) e1 tu
  let uc := max (-lim) (min u lim)
  let step := coefTimes (s.w (LOOP.COEF_I l)) e1 tu
  let st := s.loopState l
  let (yI, uc, clamped) :=
    if tag == .valid then (c.yI + (if u = uc then step else step * uc / u), uc, u != uc)
    else if st = 3 then ((s.hoC l).yho * 2 ^ 40, 0, false)
    else if st = 0 then
      let goal := s.fi (LOOP.FREE_FREQ_Y l) * 2 ^ 56
      let r := lim * tu / 2000000000
      (c.yI + max (-r) (min (goal - c.yI) r), 0, false)
    else (c.yI, 0, false)
  let most : Int := 2 ^ 87
  let sat := decide (most ≤ yI ∨ yI ≤ -most)
  let yI := max (-most) (min yI most)
  let most := (lim - uc.natAbs) * s.tuFs l
  let r := c.left - max (-most) (min c.left most)
  let (rem, part) := wholeFs r
  ⟨yI, uc, -((c.left - r) / s.tuFs l), rem, part, bo, clamped, sat⟩

/-- Phase and frequency criteria of R253 and R254: whether an update meets the first and whether it exceeds twice either. -/
def State.lockTests (s : State) (l : Nat) (e1 yI f : Int) : Bool × Bool :=
  let ph := s.f (LOOP.LOCK_PH_PS l) * 1000 * 2 ^ 32
  let fr := s.f (LOOP.LOCK_FR_Y l) * 2 ^ 56
  let d := (yI - f * 2 ^ 40).natAbs
  (decide (e1.natAbs ≤ ph ∧ d ≤ fr), decide (e1.natAbs > 2 * ph ∨ d > 2 * fr))

/-- The input's latest VALID frequency in 2⁻⁵⁶: the regression result or berth estimate of the active entry, or the sources' FREQ
(R253). -/
def State.inputFreq (s : State) (l : Nat) : Option Int :=
  match s.selOf l with
  | some n => (s.entC (entKey n (s.loopC l).entry)).freqs.head?
  | none => some (s.sourceFreq l)

/-- The loop runs in its final gear, or on raw coefficients, which make it ignore the gears (R253, R266). -/
def State.inFinal (s : State) (l : Nat) : Bool := s.on (LOOP.STATUS_FINAL l) || s.on (LOOP.CTRL_RAW l)

/-- The lock criteria at an update (R251, R253, R254); a loop that loses lock acquires in the final gear. -/
def State.lockCheck (s : State) (l b : Nat) (tag : Tag) (e1 : Int) : State :=
  let f := s.inputFreq l
  match tag, f with
  | .valid, some f =>
    let (ok, bad) := s.lockTests l e1 (s.loopC l).yI f
    let st := s.loopState l
    if st = 1 ∧ s.inFinal l then
      s.modLoop l (fun c => { c with lockSince := if ok then some (c.lockSince.getD b) else none })
    else if st = 2 then
      let s := s.modLoop l (fun c => { c with lockBad := if bad then c.lockBad + 1 else 0 })
      if (s.loopC l).lockBad ≥ 4 then
        let s := (s.setf (LOOP.STATUS_STATE l) 1).modLoop l (fun c => { c with lockBad := 0, lockSince := none })
        let s := s.modHo l (fun h => { h with acquiring := true, locked := false, returning := false })
        let s := s.when (!s.on (LOOP.STATUS_FINAL l)) (fun s => s.finalGear l (s.loopC l).gear)
        (s.ev (LOOP.EVENT_LOCK_LOST l)).route (0x060 + l)
      else s
    else s
  | _, _ => s

/-- A target takes a control word (R241). -/
def State.toTarget (s : State) (l : Nat) (w : Int) : State :=
  let k := s.f (LOOP.CFG_TIDX l)
  let s := s.modLoop l (fun c => { c with word := w })
  if s.f (LOOP.CFG_TKIND l) = 0 then s.modApl k (fun c => { c with word := w })
  else if s.f (LOOP.CFG_TKIND l) = 1 then s.modOut k (fun c => { c with word := w })
  else s.tiedWord k w

/-- What an update adds to the history interval in progress (R276). -/
def State.histUpdate (s : State) (l : Nat) (tag : Tag) : State :=
  let y := (s.loopC l).freq56
  let st := s.loopState l
  s.modHo l (fun h => { h with
    updN := h.updN + 1, sum := h.sum + y, sumSq := h.sumSq + y * y, validN := h.validN + b2n (tag == .valid)
    heldOver := h.heldOver || st == 3, acquiring := h.acquiring || st == 1 })

/-- The registers that show an update's results (R236, R239, R244, R259). -/
def State.showUpdate (s : State) (l : Nat) (tag : Tag) (e1 : Int) (u : Upd) (hadStep : Bool) : State :=
  let s := s.setf (LOOP.STATUS_TAG l) tag.num
  let s := s.setb (LOOP.STATUS_CLAMP l) (u.clamped || u.sat)
  let s := s.evIf u.clamped (LOOP.EVENT_CLAMP l)
  let s := if tag == .gap then s else s.setSat (LOOP.PHERR_PS l) (roundOpen 11 e1 (1000 * 2 ^ 32))
  let s := s.setSat (LOOP.FREQ32_Y l) (roundNear (u.yI + u.uc) (2 ^ 56))
  let s := s.setSat (LOOP.STEP_LEFT_PS l) (roundOpen 12 u.rem 1000)
  let s := s.setSat (LOOP.BUILDOUT_PS l) (roundOpen 13 u.bo (1000 * 2 ^ 32))
  let s := s.setb (LOOP.STATUS_SLEWING l) (u.rem != 0)
  s.evIf (hadStep && u.rem == 0) (LOOP.EVENT_STEP_DONE l)

/-- A word of the engine region that an injection waits for is written at the update (R677 target 0x1). -/
def State.workWrite (s : State) (e : Nat) : State :=
  match s.flt.injWord with
  | some (a, _) => if e * spSize + 0x60000 ≤ a ∧ a < (e + 1) * spSize then s.eccWrite (a / 8) else s
  | none => s

/-- The frequency that the loop's integrator takes from the target: at a departure (R246), and in FREE_RUN when a freeze has ended
(R245, R256). Its proportional term starts from 0. -/
def State.retakeWord (s : State) (l : Nat) : State :=
  let y := s.wordBack l
  s.modLoop l (fun c => { c with yI := y, uc := 0, retake := false })

/-- The tag with which a phase sample ends a freeze (R18, R264): a bandwidth written in the freeze, with nothing left to settle before, does not
make the sample SETTLE, and as many samples after it settle (log entry 91, DEDUCED). -/
def State.freezeSettle (s : State) (l : Nat) (settled : Bool) (tag : Tag) : State × Tag :=
  if s.on (LOOP.STATUS_FROZEN l) ∧ settled ∧ tag = .settle then
    (s.modLoop l (fun c => { c with settle := c.settle + 1 }), .valid)
  else (s, tag)

/-- What an update starts from at boundary `b`: the phases counted on, what the boundary brings, the phase sample with its tag, and, at a
departure, the frequency in force at the target (R234, R236, R245, R246). A bandwidth written in a freeze takes effect at the departure
that ends it, and the samples after that one settle (R18, R264; log entry 91, DEDUCED). -/
def State.updateInput (s : State) (l b : Nat) (xs : List Sample) : State × Tag × Int :=
  let settled := (s.loopC l).settle == 0
  let s := (s.modLoop l (fun c => { c.advance b with lastB := b })).atBoundary l xs
  let (s, tag, err) := s.phaseSample l xs
  let (s, tag) := s.freezeSettle l settled tag
  let take := ((s.loopC l).depart && tag == .valid) || (s.loopC l).retake
  (if take then s.retakeWord l else s, tag, err)

/-- Why the checkers stop an update of an engine, and whether an injection made them (R308, R677). -/
def State.checkCause (s : State) (e : Nat) (chk : CheckOutcome) : Option (Nat × Bool) :=
  match chk with
  | .arithmetic => some (1, false)
  | .late => some (2, false)
  | .checkpoint => some (5, false)
  | .pass =>
    if s.bankBad (e * spSize + 0x60000) 0x20000 then some (4, false)
    else if s.flt.injEngine = some e then some (6, true)
    else none

/-- The checkers stop an update, whose interval will be taken again (R308 to R310). -/
def State.updateFails (s : State) (l cause : Nat) (inj : Bool) : State :=
  let s := s.when inj (fun s => ({ s with flt := { s.flt with injEngine := none } } : State).injDone)
  s.checkerFires (s.engineOf l) cause inj

/-- A control word lies in its format, a signed 48-bit fraction (R329). -/
def wordFits (w : Int) : Bool := decide (-(2 ^ 47 : Int) ≤ w) && decide (w < 2 ^ 47)

/-- The record of the update just completed (R271). -/
def State.updateRecord (s : State) (l : Nat) (tag : Tag) (e1 : Int) : List Word :=
  let c := s.loopC l
  let w0 := tag.num * 2 ^ 30 + s.loopState l * 2 ^ 27 + s.f (LOOP.STATUS_FROZEN l) * 2 ^ 26 + c.seq % 2 ^ 26
  [BitVec.ofNat 32 w0] ++ intWords 2 c.freq56 ++ intWords 2 (roundOpen 5 c.yI (2 ^ 40)) ++
    [BitVec.ofNat 32 (ofSigned 32 (satSigned 32 (roundOpen 14 (e1 * 256) (1000 * 2 ^ 32))))] ++ intWords 2 c.rem

/-- What a departure ends: the freeze, and the dwell before it (R245, R264). -/
def State.departed (s : State) (l : Nat) : State :=
  let s := (s.setf (LOOP.STATUS_FROZEN l) 0).modLoop l (fun c => { c with
    depart := false, setBo := false, lockSince := none, lockBad := 0 })
  s.ev (LOOP.EVENT_SWITCHED l)

/-- An update that every checker has passed takes effect: the loop's numbers, what shows them, lock, history, the word at the target and
the checkpoint (R236, R242, R307). -/
def State.completeUpdate (s : State) (l b : Nat) (tag : Tag) (err : Int) (u : Upd) (w : Int) (catchUp : Bool) : State :=
  let departs := (s.loopC l).depart && tag == .valid
  let hadStep := (s.loopC l).rem != 0
  let e1 := err - u.bo
  let s := s.modLoop l (fun c => { c with
    yI := u.yI, uc := u.uc, sl := u.sl, rem := u.rem, remPart := u.part, bo := u.bo, yw := c.ybar, e := if tag == .gap then c.e else err
    seq := c.seq + 1, settle := if tag == .gap then c.settle else c.settle - 1 })
  let s := if departs then s.departed l else s
  let s := (s.showUpdate l tag e1 u hadStep).lockCheck l b tag e1
  let r := s.updateRecord l tag (if tag == .gap then (s.loopC l).e - u.bo else e1)
  let s := s.modLoop l (fun c => { c with record := r })
  (((s.histUpdate l tag).toTarget l w).workWrite (s.engineOf l)).checkpoint l catchUp

/-- One update of a loop at boundary `b` on the samples of its interval, in catch-up or not (R236, R242, R307, R308, R310). A word out of
range fires the checkers and leaves everything as it was. -/
def State.runUpdate (s : State) (l b : Nat) (xs : List Sample) (chk : CheckOutcome) (catchUp : Bool) : State :=
  let e := s.engineOf l
  let s := s.bankCheck (e * spSize + 0x60000) 0x20000 0
  match s.checkCause e chk with
  | some (cause, inj) => s.updateFails l cause inj
  | none =>
    let r := s.updateInput l b xs
    let u := r.1.equations l r.2.1 r.2.2
    let w := toWord (u.yI + u.uc + u.sl) (r.1.loopC l).ybar
    if wordFits w then r.1.completeUpdate l b r.2.1 r.2.2 u w catchUp
    else s.updateFails l 3 false

/-- An interval of a loop that no migration holds up has ended at boundary `b`: the loop updates. A frozen loop makes no update until a
departure, at its first VALID sample (R224, R242, R245); a stranded one makes none (R47). -/
def State.intervalEnds (s : State) (l b : Nat) (xs : List Sample) (chk : CheckOutcome) (catchUp : Bool) : State :=
  if !s.on (LOOP.STATUS_FROZEN l) then s.runUpdate l b xs chk catchUp
  else if (s.loopC l).stranded || !(s.loopC l).depart then s
  else
    match (s.updateInput l b xs).2.1 with
    | .valid => s.runUpdate l b xs chk catchUp
    | .settle => s.modLoop l (fun c => { c with settle := c.settle - 1 })
    | _ => s

/-- The boundary of the next update: the latest whole multiple of Tu, or the one after the last interval (R234). -/
def State.nextBoundaryOf (s : State) (l : Nat) : Nat :=
  let tu := s.loopTu l
  let b := s.now / tu * tu
  let last := max (s.loopC l).lastB (((s.loopC l).kept.getLast?.map (·.1)).getD 0)
  if b > last then b else (last / tu + 1) * tu

/-- The samples of the interval that ends: those collected from the active entry, or the output phase of each source, marked 1 where the
source is down (R234, R261, R263). -/
def State.intervalSamples (s : State) (l b : Nat) : List Sample :=
  match s.selOf l with
  | some _ => (s.loopC l).acc
  | none => (s.sourcesOf l).map (fun x => ⟨(s.loopC x.1).outPhase b, b2n (s.sourceDown x.1), 0⟩)

/-- The samples of an interval are kept, with those of the 63 before it (R310). -/
def State.keepInterval (s : State) (l b : Nat) (xs : List Sample) : State :=
  s.modLoop l (fun c => { c with acc := [], kept := (c.kept ++ [(b, c.entry, xs)]).drop (c.kept.length - 63) })

/-- A planned migration has not begun while its source has no consistent checkpoint to move from (R314). -/
def State.awaitsUpdate (s : State) (l : Nat) : Bool :=
  match (s.loopC l).mig with
  | some (src, _, planned, _) => planned && !s.hasCheckpoint src
  | none => false

/-- A loop's update falls due (R234, R236, R242, R245, R310, R314, R317): a migrating loop's interval is kept for the receiving engine, but
the checkers of the source of a planned migration may still fire. -/
def State.loopUpdate (s : State) (l : Nat) (chk : CheckOutcome) : State :=
  if !s.landed || !s.loopBuilt l then s
  else
    let b := s.nextBoundaryOf l
    let xs := s.intervalSamples l b
    let s := s.keepInterval l b xs
    match (s.loopC l).mig with
    | none => s.intervalEnds l b xs chk false
    | some (src, _, planned, _) =>
      if s.awaitsUpdate l then s.intervalEnds l b xs chk false
      else if planned ∧ chk ≠ .pass then
        match s.checkCause src chk with
        | some (cause, inj) => s.updateFails l cause inj
        | none => s
      else s

/-- LOOP_UPDATE (R236). -/
def execLoopUpdate (n : Fin 32) (chk : CheckOutcome) (s : State) : Host.Outcome State Fault Refusal :=
  .next (s.loopUpdate n chk)

/-- LOCK_DWELL_EXPIRY (R251): the criteria have held in the final gear for LOCK_DWELL. -/
def execLockDwellExpiry (n : Fin 32) (s : State) : Host.Outcome State Fault Refusal :=
  let c := s.loopC n
  let long : Bool := match c.lockSince with
    | some t => decide (t + s.f (LOOP.LOCK_DWELL_MS n) * 2000000 ≤ s.now)
    | none => false
  if s.loopState n = 1 ∧ s.inFinal n ∧ long ∧ !s.on (LOOP.STATUS_FROZEN n) ∧ c.mig.isNone then
    let s := (s.setf (LOOP.STATUS_STATE n) 2).modLoop n (fun c => { c with lockSince := none, lockBad := 0 })
    let s := s.modHo n (fun h => { h with locked := true })
    .next ((s.ev (LOOP.EVENT_LOCK_GAINED n)).route (0x060 + n))
  else .next s

/-- GEAR_DWELL_EXPIRY (R252, R268): the next gear of the schedule that runs. -/
def execGearDwellExpiry (n : Fin 32) (s : State) : Host.Outcome State Fault Refusal :=
  if s.loopState n = 1 ∧ !s.on (LOOP.STATUS_FINAL n) ∧ (s.loopC n).gearEnd ≤ s.now then
    let k := (s.loopC n).gear + 1
    .next (if s.on (LOOP.CTRL_GEAR_MAN n) then s.manGear n k else s.autoGear n k)
  else .next s

/-! Steps. -/

/-- A completion code of a step command or task (R257, R258). -/
def State.stepCode (s : State) (l : Nat) (c : Code) : State := s.complete (LOOP.STEPSTAT_CODE l) c

/-- Arm an amount (R257, R260). -/
def State.stepLoad (s : State) (p : Port) (l : Nat) : State :=
  match s.mboxIn p 2 with
  | none => s.stepCode l .badArgument
  | some ws =>
    let a := toSigned 64 (ofWords ws)
    let tooBig := s.f (LOOP.CFG_TKIND l) == 2 &&
      decide (a.natAbs > (s.tscC (s.f (LOOP.CFG_TIDX l))).thresh * 1000000)
    if a.natAbs > 500000000000 then s.stepCode l .badArgument
    else if tooBig then s.stepCode l .refusedThreshold
    else
      let s := s.evIf (s.loopC l).armed.isSome (LOOP.EVENT_STEP_REPLACED l)
      let s := (s.modLoop l (fun c => { c with armed := some a })).setf (LOOP.STATUS_ARMED l) 1
      (s.mboxEmpty p).stepCode l .ok

/-- The step remainder has a new value outside an update: what shows it (R259). -/
def State.showStep (s : State) (l : Nat) : State :=
  let r := (s.loopC l).rem
  (s.setSat (LOOP.STEP_LEFT_PS l) (roundOpen 12 r 1000)).setb (LOOP.STATUS_SLEWING l) (r != 0)

/-- Apply the armed amount (R258). -/
def State.stepGo (s : State) (l : Nat) : State :=
  let c := s.loopC l
  match c.armed with
  | none => (s.ev (LOOP.EVENT_STEP_EMPTY l)).stepCode l .badArgument
  | some a =>
    if (c.rem + a).natAbs > 1000000000000 then s.stepCode l .badArgument
    else
      let s := (s.modLoop l (fun c => { c with
        rem := c.rem + a, remPart := if c.rem + a = 0 then 0 else c.remPart, armed := none })).setf (LOOP.STATUS_ARMED l) 0
      let s := s.evIf (c.rem != 0 && c.rem + a == 0) (LOOP.EVENT_STEP_DONE l)
      (s.showStep l).stepCode l .ok

/-- Cancel a step (R259): the remainder is 0, nothing is armed. -/
def State.stepCancel (s : State) (l : Nat) : State :=
  let had := (s.loopC l).rem != 0
  let s := (s.modLoop l (fun c => { c with rem := 0, remPart := 0, armed := none })).setf (LOOP.STATUS_ARMED l) 0
  (s.showStep l).evIf had (LOOP.EVENT_STEP_DONE l)

/-- The loop state record: a snapshot of the last completed update (R271). -/
def State.loopRecord (s : State) (l : Nat) : List Word := (s.loopC l).record

/-- A command of LOOP[n].CMD or HO_CMD waits while the loop migrates (R317). -/
def State.loopCommand (s : State) (p : Port) (l bit : Nat) (g : State → State) : State :=
  if (s.loopC l).mig.isSome then s.modLoop l (fun c => { c with waiting := c.waiting ++ [(p, bit)] }) else g s

/-- STEP_LOAD (R257). -/
def execStepLoad (p : Port) (n : Fin 32) (s : State) : Host.Outcome State Fault Refusal :=
  .next (s.doorbell p (LOOP.CMD n) false (fun s => s.loopCommand p n 1 (fun s => s.stepLoad p n)))

/-- STEP_GO (R258). -/
def execStepGo (p : Port) (n : Fin 32) (s : State) : Host.Outcome State Fault Refusal :=
  .next (s.doorbell p (LOOP.CMD n) false (fun s => s.loopCommand p n 2 (fun s => s.stepGo n)))

/-- STEP_CANCEL (R259). -/
def execStepCancel (p : Port) (n : Fin 32) (s : State) : Host.Outcome State Fault Refusal :=
  .next (s.doorbell p (LOOP.CMD n) false (fun s => s.loopCommand p n 3 (fun s => s.stepCancel n)))

/-- STEP_PHASE_TASK (R258, R392): one pending run of the loop's task input, which waits as STEP_GO does while the loop migrates (R317). -/
def execStepPhaseTask (n : Fin 32) (s : State) : Host.Outcome State Fault Refusal :=
  match s.takeRun (taskKey (0x40 + n) 0) with
  | some (_, s) => .next (s.loopCommand .a n 2 (fun s => s.stepGo n))
  | none => .next s

/-- LOOP_FETCH (R271). -/
def execLoopFetch (p : Port) (n : Fin 32) (s : State) : Host.Outcome State Fault Refusal :=
  .next (s.doorbell p (LOOP.CMD n) false (fun s => s.loopCommand p n 0 (fun s => s.mboxOut p (s.loopRecord n))))

end Sys2Proof.Machine
end

