-- ==== Sys2Proof/Machine/Holdover.lean ====
section
/-! DEFINITION. Holdover: temperature, the history and its records, the least-squares fit of the oscillator model, the holdover
frequency, and the model commands (08_holdover.md). -/

namespace Sys2Proof.Machine

/-! Model records (R294). -/

/-- The words of a model record before its CRC. -/
def Model.words (m : Model) : List Word :=
  [BitVec.ofNat 32 (m.terms % 32 * 2 ^ 25 + m.nrec % 2 ^ 14)] ++ intWords 2 m.a0 ++ intWords 2 m.a1 ++ intWords 2 m.a2 ++
    intWords 2 m.c1 ++ intWords 2 m.c2 ++ [BitVec.ofNat 32 (ofSigned 16 m.tref * 2 ^ 16 + m.tlag % 2 ^ 16)] ++
    toWords 2 (m.anchorMs % 2 ^ 48) ++
    [BitVec.ofNat 32 (satBits 32 m.resid), BitVec.ofNat 32 (satBits 32 m.sigA0), BitVec.ofNat 32 (satBits 32 m.sigA1),
      BitVec.ofNat 32 (satBits 32 m.sigC1), 0]

/-- A model record with its CRC; GAP with zeros when there is no model. -/
def modelRecord (m : Option Model) : List Word :=
  let ws := match m with
    | some m => m.words
    | none => BitVec.ofNat 32 (3 * 2 ^ 30) :: List.replicate 18 0
  ws ++ [BitVec.ofNat 32 (crc32c (wordsLe ws))]

/-- A 48-bit number over two words. -/
def word48 (ws : List Word) (i : Nat) : Int := toSigned 48 (ofWords ((ws.drop i).take 2))

/-- A coefficient of a record, 0 where its term is not in TERMS. -/
def termOf (terms bit : Nat) (v : Int) : Int := if bitAt terms bit then v else 0

/-- The model that a host's record describes, anchored at `now` (R295); none where the record is not acceptable. -/
def modelOfRecord (ws : List Word) (nowMs : Nat) : Option Model :=
  let w := fun i => (ws.getD i 0).toNat
  let terms := bitsAt (w 0) 29 25
  let tref := toSigned 16 (w 11 / 2 ^ 16)
  let tlag := w 11 % 2 ^ 16
  if w 19 = crc32c (wordsLe (ws.take 19)) ∧ w 0 / 2 ^ 30 = 0 ∧ bitAt terms 0 ∧ -5120 ≤ tref ∧ tref ≤ 16000 ∧ tlag ≤ 7200 then
    some ⟨terms, w 0 % 2 ^ 14, word48 ws 1, termOf terms 1 (word48 ws 3), termOf terms 2 (word48 ws 5),
      termOf terms 3 (word48 ws 7), termOf terms 4 (word48 ws 9), tref, tlag, nowMs, w 14, w 15, w 16, w 17⟩
  else none

/-! The fit (R278, R279). -/

/-- A qualifying record: TEND in ms, TEMP in 1/128 °C, YMEAN in 2⁻⁵⁶. -/
structure HistRec where
  tend : Int
  temp : Int
  y : Int

/-- Offset in memory of record i of the history that a loop writes (R275). -/
def State.recordAt (s : State) (l i : Nat) : Nat := s.engineOf l * spSize + 32 * i

/-- The record that is `j` records old, when it qualifies (R278); `j` counts from 1, the newest. -/
def State.qualifying (s : State) (l j : Nat) : Option HistRec :=
  let h := s.hoC l
  let next := s.f (LOOP.HIST_PTR_NEXT l)
  let a := s.recordAt l ((next + 12288 - j % 12288) % 12288)
  let b := s.bytes a 32
  let w0 := ofLe (b.take 8)
  let w1 := ofLe ((b.drop 8).take 8)
  if j ≤ h.seq ∧ h.qualFrom ≤ h.seq - j ∧ w0 / 2 ^ 62 = 0 ∧ bitsAt w0 59 56 ≤ s.f (LOOP.HO_CTRL_RANK_MAX l) ∧
      !s.bankBad a 32 then
    some ⟨(w0 % 2 ^ 48 : Nat), toSigned 16 (w1 / 2 ^ 48), toSigned 48 w1⟩
  else none

/-- The qualifying records of the window, newest first, apart from the newest `guard` (R278, R282). -/
def State.qualifyingAll (s : State) (l guard : Nat) : List HistRec :=
  (List.range (min (s.f (LOOP.HO_WIN_RECS l)) ((s.hoC l).seq - (s.hoC l).qualFrom))).filterMap (fun i => if i < guard then none else s.qualifying l (i + 1))

/-- HO_STAT.NREC follows the qualifying records in the window (R278, R299). -/
def State.showRecs (s : State) (l : Nat) : State := s.setf (LOOP.HO_STAT_NREC l) (s.qualifyingAll l 0).length

/-- What HO_STAT shows of the model that a loop carries, and of its records. -/
def State.showModel (s : State) (l : Nat) : State :=
  let h := s.hoC l
  ((s.setb (LOOP.HO_STAT_MODEL_OK l) h.fitted.isSome).setf (LOOP.HO_STAT_TERMS l) ((h.fitted.map (·.terms)).getD 0)).showRecs l

/-- The regressor of a term: 0 a0, 1 a1 and 2 a2 in ms from the anchor, 3 c1 and 4 c2 in 1/128 °C from TREF. -/
def regressor (anchor tref : Int) (r : HistRec) : Nat → Int
  | 0 => 1 | 1 => r.tend - anchor | 2 => (r.tend - anchor) ^ 2 | 3 => r.temp - tref | _ => (r.temp - tref) ^ 2

/-- Subtract from a row a multiple of the pivot row that clears its first member, and drop that member. -/
def clearFirst (p : List Rat) (r : List Rat) : List Rat :=
  match p, r with
  | a :: p, b :: r => (r.zip p).map (fun x => x.1 - b / a * x.2)
  | _, _ => []

/-- Solve a square system given by augmented rows, by elimination with back substitution; none where a pivot is 0. -/
def solve : Nat → List (List Rat) → Option (List Rat)
  | 0, _ => some []
  | n + 1, rows =>
    match rows.find? (fun r => r.headD 0 != 0) with
    | none => none
    | some p =>
      let rest := (rows.erase p).map (clearFirst p)
      match solve n rest with
      | none => none
      | some xs =>
        let known := ((p.drop 1).zip xs).foldl (fun a x => a + x.1 * x.2) 0
        some ((p.getLastD 0 - known) / p.headD 1 :: xs)

/-- A least-squares fit of a set of terms: coefficients, variances of the coefficients, sum of squared residuals. -/
structure Fit where
  coef : List Rat
  var : List Rat
  rss : Rat

/-- Unweighted least squares over a set of terms. -/
def fitTerms (recs : List HistRec) (anchor tref : Int) (terms : List Nat) : Option Fit :=
  let x := fun (r : HistRec) (t : Nat) => regressor anchor tref r t
  let normal := terms.map (fun i => terms.map (fun j => (((recs.map (fun r => x r i * x r j)).sum : Int) : Rat)))
  let rhs := terms.map (fun i => (((recs.map (fun r => x r i * r.y)).sum : Int) : Rat))
  match solve terms.length ((normal.zip rhs).map (fun z => z.1 ++ [z.2])) with
  | none => none
  | some c =>
    let rss := (recs.map (fun r =>
      let d := (r.y : Rat) - ((terms.zip c).foldl (fun a z => a + (x r z.1 : Rat) * z.2) 0)
      d * d)).foldl (· + ·) 0
    let s2 := rss / ((recs.length - terms.length : Nat) : Rat)
    let unit := fun (k : Nat) => (List.range terms.length).map (fun i => if i = k then (1 : Rat) else 0)
    let var := (List.range terms.length).map (fun k =>
      match solve terms.length ((normal.zip (unit k)).map (fun z => z.1 ++ [z.2])) with
      | some v => v.getD k 0 * s2
      | none => 0)
    some ⟨c, var, rss⟩

/-- The term to drop: of those other than a0 whose uncertainty exceeds their magnitude, the one with the largest ratio of the
two (R279). -/
def worstTerm (terms : List Nat) (f : Fit) : Option Nat :=
  let z := ((terms.zip (f.coef.zip f.var)).filter (fun z => z.1 != 0 && decide (z.2.1 * z.2.1 < z.2.2)))
  (z.foldl (fun (a : Option (Nat × Rat × Rat)) b =>
    match a with
    | none => some b
    | some a => if a.2.2 * (b.2.1 * b.2.1) < b.2.2 * (a.2.1 * a.2.1) then some b else some a) none).map (·.1)

/-- Fit, drop a term, fit again (R279); a system without one solution loses its last term (log entry 25, DESIGN CHOICE). -/
def fitLoop (recs : List HistRec) (anchor tref : Int) : Nat → List Nat → Option (List Nat × Fit)
  | 0, _ => none
  | n + 1, terms =>
    match fitTerms recs anchor tref terms with
    | none => fitLoop recs anchor tref n terms.dropLast
    | some f =>
      match worstTerm terms f with
      | some t => fitLoop recs anchor tref n (terms.filter (· != t))
      | none => some (terms, f)

/-- A number rounded to a whole one, the direction open (log entry 4, DESIGN CHOICE). -/
def ratRound (site : Nat) (q : Rat) : Int := roundOpen site q.num q.den

/-- Square root of a number that is not negative, rounded to a whole one (log entry 4, DESIGN CHOICE). -/
def ratSqrt (site : Nat) (q : Rat) : Nat :=
  let n := q.num.toNat / q.den
  let r := isqrt n
  if ((r * r : Nat) : Rat) = q then r else r + b2n (Config.roundUp site q.num q.den)

/-- The spread of a list of numbers. -/
def spread (xs : List Int) : Int := xs.foldl max (xs.headD 0) - xs.foldl min (xs.headD 0)

/-- The model over the qualifying records (R279), with the temperature settings in force (R274). -/
def State.fitModel (s : State) (l guard : Nat) : Option Model :=
  let recs := s.qualifyingAll l guard
  let tref := (s.hoC l).tref
  if recs.length < 16 then none
  else
    let anchor := (recs.map (·.tend)).foldl max 0
    let span := spread (recs.map (·.tend))
    let range := spread (recs.map (·.temp))
    let warm := (s.hoC l).tsrc != 2
    let terms := [0] ++ (if span ≥ 21600000 then [1] else []) ++ (if span ≥ 259200000 then [2] else []) ++
      (if warm ∧ range ≥ 256 then [3] else []) ++ (if warm ∧ range ≥ 1280 then [4] else [])
    match fitLoop recs anchor tref 6 terms with
    | none => none
    | some (ts, f) =>
      let get := fun (xs : List Rat) (t : Nat) => ((ts.zip xs).find? (fun z => z.1 = t)).elim 0 (·.2)
      let day : Rat := 86400000
      some ⟨(ts.map (fun t => 2 ^ t)).sum, recs.length, ratRound 18 (get f.coef 0), ratRound 19 (get f.coef 1 * day),
        ratRound 20 (get f.coef 2 * day * day), ratRound 21 (get f.coef 3 * 128), ratRound 22 (get f.coef 4 * 16384),
        tref, (s.hoC l).tlag, anchor.toNat, ratSqrt 23 (f.rss / recs.length), ratSqrt 24 (get f.var 0),
        ratSqrt 25 (get f.var 1 * day * day), ratSqrt 26 (get f.var 3 * 16384)⟩

/-- A new fitted model is in force (R280): its events, what HO_STAT shows, and its copy in the scratchpad (R305). -/
def State.newModel (s : State) (l : Nat) (m : Option Model) (n : Nat) : State :=
  let h := s.hoC l
  let terms := (m.map (·.terms)).getD 0
  let s := s.evIf (terms != (h.fitted.map (·.terms)).getD 0) (LOOP.HO_EVENT_TERMS_CHANGED l)
  let s := s.evIf (decide (n < 16 ∧ 16 ≤ h.qualified)) (LOOP.HO_EVENT_MODEL_LOST l)
  let s := s.modHo l (fun h => { h with fitted := m, qualified := n, refit := false })
  let s := ((s.setb (LOOP.HO_STAT_MODEL_OK l) m.isSome).setf (LOOP.HO_STAT_TERMS l) terms).setf (LOOP.HO_STAT_NREC l) n
  s.bankWrite (s.engineOf l * spSize + 0x60400) (wordsLe (modelRecord m))

/-! History. -/

/-- Tag of the record of the interval that ends (R276): after a departure from HOLDOVER, the interval in which the loop locks is SETTLE
(R290; log entry 91, DEDUCED). -/
def State.histTag (s : State) (l : Nat) : Tag :=
  let h := s.hoC l
  let acquiring := h.acquiring && !(h.locked && h.returning)
  if h.heldOver ∨ s.on (LOOP.STATUS_FROZEN l) ∨ h.validN = 0 then .gap
  else if acquiring ∨ s.on (LOOP.HO_STAT_TEMP_STALE l) ∨ h.sliceBad ∨ h.entryChanged then .suspect
  else if h.locked then .settle
  else .valid

/-- The 32 bytes of the record (R275). -/
def State.histRecord (s : State) (l : Nat) (tag : Tag) : List Byte :=
  let h := s.hoC l
  let inHo := s.loopState l == 3
  let act := match s.selOf l with | some n => s.active n | none => 0x1F
  let rank := if inHo then 0xF else match s.selOf l with | some n => s.f (SEL.STATUS_ACTIVE_RANK n) | none => 0xF
  let n : Nat := h.updN
  let mean := if inHo then h.yho else if n = 0 then 0 else roundOpen 16 h.sum n
  let dev : Int := h.sumSq - 2 * mean * h.sum + n * mean * mean
  let rms := if n = 0 then 0 else ratSqrt 27 ((dev : Rat) / (n : Rat))
  let temp := if h.tsrc = 2 then 0x8000 else ofSigned 16 (roundOpen 15 (h.tEff.getD 0) (2 ^ 32))
  leBytes 8 (tag.num * 2 ^ 62 + h.tsrc * 2 ^ 60 + rank * 2 ^ 56 + act * 2 ^ 51 + s.uptimeMs % 2 ^ 48) ++
    leBytes 8 (temp * 2 ^ 48 + ofSigned 48 mean) ++ leBytes 8 (satBits 48 rms) ++
    leBytes 8 (h.validN % 2 ^ 32 * 2 ^ 32 + h.seq % 2 ^ 32)

/-- The loop's history is being copied, or the loop moves (R311). -/
def State.historyMoving (s : State) (l : Nat) : Bool :=
  (s.loopC l).mig.isSome || s.on (ENG.ENGINE_COPYING (s.engineOf l))

/-- The engine in whose scratchpad a record is written (R275, R311). -/
def State.historyEngine (s : State) (l : Nat) : Nat :=
  match (s.loopC l).mig with
  | some (_, d, _, _) => d
  | none => s.engineOf l

/-- A loop writes history records: its input is a selector, and it is in no state that keeps none (R275). -/
def State.recording (s : State) (l : Nat) : Bool :=
  s.landed && s.loopBuilt l && (s.selOf l).isSome && s.loopState l != 0 && s.loopState l != 4

/-- The next history interval begins (R275, R276). -/
def State.freshInterval (s : State) (l : Nat) : State :=
  let st := s.loopState l
  s.modHo l (fun h => { h with
    updN := 0, sum := 0, sumSq := 0, validN := 0, heldOver := st == 3 || s.on (LOOP.STATUS_FROZEN l)
    acquiring := st == 1, sliceBad := false, entryChanged := false, locked := false, returning := h.returning && st != 2 })

/-- A history interval ends (R275, R276, R279, R280, R311). -/
def State.historyEnd (s : State) (l : Nat) : State :=
  let st := s.loopState l
  if !s.recording l then s.freshInterval l
  else
    let moving := s.historyMoving l
    let tag := if moving then (s.histTag l).max .suspect else s.histTag l
    let i := s.f (LOOP.HIST_PTR_NEXT l)
    let s := s.bankWrite (s.historyEngine l * spSize + 32 * i) (s.histRecord l tag)
    let s := if i = 12287 then (s.setf (LOOP.HIST_PTR_NEXT l) 0).incWrap (LOOP.HIST_PTR_LAPS l)
      else s.setf (LOOP.HIST_PTR_NEXT l) (i + 1)
    let fit := !moving && st != 3 && !s.on (LOOP.HO_CTRL_FIT_HOLD l)
    ((s.freshInterval l).modHo l (fun h => { h with seq := h.seq + 1, refit := fit })).showRecs l

/-- HISTORY_INTERVAL_END (R275). -/
def execHistoryIntervalEnd (n : Fin 32) (s : State) : Host.Outcome State Fault Refusal := .next (s.historyEnd n)

/-- REFIT_DONE (R279, R280). -/
def execRefitDone (n : Fin 32) (s : State) : Host.Outcome State Fault Refusal :=
  if (s.hoC n).refit ∧ !s.on (LOOP.HO_CTRL_FIT_HOLD n) then
    .next (s.newModel n (s.fitModel n 0) (s.qualifyingAll n 0).length)
  else .next (s.modHo n (fun h => { h with refit := false }))

/-- ENTRY_FIT_DONE (R282 step 4, R283, R286). While FIT_HOLD is 1 the model in force is kept (R280). The newest GUARD records are left out
of the fit, but they qualify as before (R278). -/
def execEntryFitDone (n : Fin 32) (s : State) : Host.Outcome State Fault Refusal :=
  if (s.hoC n).entryFit then
    let g := s.f (LOOP.HO_CTRL_GUARD n)
    let s := if s.on (LOOP.HO_CTRL_FIT_HOLD n) then s
      else s.newModel n (s.fitModel n g) (s.qualifyingAll n 0).length
    let m := (s.hoC n).fitted
    let s := s.modHo n (fun h => { h with entryFit := false, evaluating := true, atEntry := m })
    .next (s.evIf m.isNone (LOOP.HO_EVENT_NO_MODEL n))
  else .next s

/-! In holdover. -/

/-- y_H at the present, in 2⁻⁵⁶ (R284): days from the anchor, θ from the live T_eff. -/
def State.evalModel (s : State) (l : Nat) (m : Model) : Int :=
  let d : Rat := (((s.uptimeMs : Int) - m.anchorMs : Int) : Rat) / 86400000
  let te : Rat := (((s.hoC l).tEff.getD (m.tref * 2 ^ 32) : Int) : Rat) / (2 ^ 32 : Nat)
  let th : Rat := (te - (m.tref : Rat)) / 128
  ratRound 28 ((m.a0 : Rat) + m.a1 * d + m.a2 * d * d + m.c1 * th + m.c2 * th * th)

/-- The model a loop holds over on (R286, R296). -/
def State.modelInForce (s : State) (l : Nat) : Option Model :=
  if s.on (LOOP.HO_CTRL_OVR l) then (s.hoC l).loaded else (s.hoC l).atEntry

/-- Move y_ho by at most ρ towards y_H (R284). -/
def State.holdoverStep (s : State) (l : Nat) : State :=
  let h := s.hoC l
  if !h.evaluating ∨ (s.loopC l).mig.isSome then s
  else
    let s := s.setb (LOOP.HO_STAT_OVR_ACTIVE l) (s.on (LOOP.HO_CTRL_OVR l))
    let y := match s.modelInForce l with | some m => s.evalModel l m | none => h.yho
    let r : Int := s.f (LOOP.HO_FRATE_RATE l)
    let new := h.yho + max (-r) (min (y - h.yho) r)
    let s := s.modHo l (fun h => { h with yho := new, ramp := h.ramp && new != y })
    let s := s.setb (LOOP.HO_STAT_RAMPING l) (new != y)
    s.evIf (h.ramp && new == y) (LOOP.HO_EVENT_RAMP_DONE l)

/-- HOLDOVER_SECOND (R284, R288). -/
def execHoldoverSecond (n : Fin 32) (s : State) : Host.Outcome State Fault Refusal :=
  if s.landed ∧ s.loopBuilt n ∧ s.loopState n = 3 then
    let s := s.inc (LOOP.HO_ELAPSED_S n)
    let lim := s.w (LOOP.HO_LIMIT n)
    let hit := lim != 0 && decide (lim ≤ s.w (LOOP.HO_ELAPSED n)) && !(s.hoC n).limitSet
    let s := (s.evIf hit (LOOP.HO_EVENT_LIMIT n)).modHo n (fun h => { h with limitSet := h.limitSet || hit })
    .next (s.holdoverStep n)
  else .next s

/-! Temperature. -/

/-- T_eff takes a sample (R274 and the pseudocode before it); in units of 2⁻³² of 1/128 °C. -/
def lagStep (old : Option Int) (t : Int) (lag : Nat) : Int :=
  let x := t * 2 ^ 32
  match old with
  | none => x
  | some o => if lag = 0 then x else o + roundOpen 17 (x - o) lag

/-- TEMPERATURE_SAMPLE (R273, R274): a whole second, at which TSRC, HO_TLAG and HO_TREF take effect; `die` is what the die sensor reads,
in 1/128 °C. -/
def execTemperatureSample (n : Fin 32) (die : Int) (s : State) : Host.Outcome State Fault Refusal :=
  if !s.landed ∨ !s.loopBuilt n then .next s
  else
    let src := s.f (LOOP.HO_CTRL_TSRC n)
    let h := s.hoC n
    let t := if src = 0 then die else s.fi (LOOP.HO_TEMP_T n)
    let old := if src = h.tsrc then h.tEff else none
    let qual := if (src = 2) = (h.tsrc = 2) then h.qualFrom else h.seq
    let s := s.modHo n (fun h => { h with
      tsrc := src, tlag := s.f (LOOP.HO_TLAG_S n), tref := s.fi (LOOP.HO_TREF_T n), tRaw := t, qualFrom := qual
      tEff := if src = 2 then none else some (lagStep old t (s.f (LOOP.HO_TLAG_S n))) })
    let s := s.when (qual != h.qualFrom) (fun s => s.showRecs n)
    .next (if src = 1 then s else s.setf (LOOP.HO_STAT_TEMP_STALE n) 0)

/-- TEMP_STALE_TIMEOUT (R273). -/
def execTempStaleTimeout (n : Fin 32) (s : State) : Host.Outcome State Fault Refusal :=
  if s.landed ∧ s.loopBuilt n ∧ (s.hoC n).tsrc = 1 ∧ !s.on (LOOP.HO_STAT_TEMP_STALE n) ∧
      (s.hoC n).tempAt + 120000000000 ≤ s.now then
    .next ((s.setf (LOOP.HO_STAT_TEMP_STALE n) 1).ev (LOOP.HO_EVENT_TEMP_STALE n))
  else .next s

/-! Model commands. -/

/-- FETCH_MODEL's effect (R294). -/
def State.fetchModel (s : State) (p : Port) (l : Nat) : State :=
  let h := s.hoC l
  s.mboxOut p (modelRecord (if s.on (LOOP.HO_CTRL_OVR l) then h.loaded else h.fitted))

/-- LOAD_MODEL's effect (R295). -/
def State.loadModel (s : State) (p : Port) (l : Nat) : State :=
  match (s.mboxIn p 20).bind (fun ws => modelOfRecord ws s.uptimeMs) with
  | none => s.complete (LOOP.HO_CODE_CODE l) .badArgument
  | some m =>
    let s := s.modHo l (fun h => { h with loaded := some m, ramp := h.ramp || s.on (LOOP.HO_CTRL_OVR l) })
    let s := s.bankWrite (s.engineOf l * spSize + 0x60500) (wordsLe (modelRecord (some m)))
    let s := (s.ev (LOOP.HO_EVENT_LOAD_DONE l)).mboxEmpty p
    s.complete (LOOP.HO_CODE_CODE l) .ok

/-- Every record in an engine's scratchpad is marked GAP (R297). -/
def State.markHistory (s : State) (e : Nat) : State :=
  s.forN 12288 (fun s i =>
    let a := e * spSize + 32 * i + 7
    s.setByte a (s.byte a ||| 0xC0))

/-- The engines whose history regions hold records of a loop: its own, the source of a copy into it, and the receiving engine of its
migration (R311). -/
def State.historyHolders (s : State) (l : Nat) : List Nat :=
  let e := s.engineOf l
  e :: s.historyEngine l :: (s.eng.copies.filter (fun x => x.1 == e)).map (fun x => x.2.1)

/-- CLEAR_HISTORY's effect (R297). -/
def State.clearHistory (s : State) (l : Nat) : State :=
  if s.loopState l = 3 then s.complete (LOOP.HO_CODE_CODE l) .locked
  else
    let a := s.engineOf l * spSize
    let s := s.forL (s.historyHolders l).eraseDups State.markHistory
    let had := (s.hoC l).fitted.isSome
    let s := s.modHo l (fun h => { h with qualFrom := h.seq, fitted := none, qualified := 0, refit := false })
    let s := ((s.setf (LOOP.HO_STAT_MODEL_OK l) 0).setf (LOOP.HO_STAT_TERMS l) 0).setf (LOOP.HO_STAT_NREC l) 0
    let s := s.bankWrite (a + 0x60400) (wordsLe (modelRecord none))
    (s.evIf had (LOOP.HO_EVENT_MODEL_LOST l)).complete (LOOP.HO_CODE_CODE l) .ok

/-- FETCH_MODEL (R294). -/
def execFetchModel (p : Port) (n : Fin 32) (s : State) : Host.Outcome State Fault Refusal :=
  .next (s.doorbell p (LOOP.HO_CMD n) false (fun s => s.loopCommand p n 4 (fun s => s.fetchModel p n)))

/-- LOAD_MODEL (R295). -/
def execLoadModel (p : Port) (n : Fin 32) (s : State) : Host.Outcome State Fault Refusal :=
  .next (s.doorbell p (LOOP.HO_CMD n) true (fun s => s.loopCommand p n 5 (fun s => s.loadModel p n)))

/-- CLEAR_HISTORY (R297). -/
def execClearHistory (p : Port) (n : Fin 32) (s : State) : Host.Outcome State Fault Refusal :=
  .next (s.doorbell p (LOOP.HO_CMD n) true (fun s => s.loopCommand p n 6 (fun s => s.clearHistory n)))

end Sys2Proof.Machine
end

