-- ==== Sys2Proof/Machine/Engines.lean ====
section
/-! DEFINITION. Engines: the end of a failover and of a planned migration, the history copy, the operations of ENG, self-tests, and
the end of the wait in FERRY_HOLD (R309 to R317, R324). -/

namespace Sys2Proof.Machine

/-- A command of LOOP[n].CMD or HO_CMD that waited for the end of a migration is performed (R317). -/
def State.performWaiting (s : State) (l : Nat) (x : Port × Nat) : State :=
  match x.2 with
  | 0 => s.mboxOut x.1 (s.loopRecord l)
  | 1 => s.stepLoad x.1 l
  | 2 => s.stepGo l
  | 3 => s.stepCancel l
  | 4 => s.fetchModel x.1 l
  | 5 => s.loadModel x.1 l
  | _ => s.clearHistory l

/-- One catch-up update, for an interval whose boundary has passed, on the samples and from the entry of that interval (R310): the checkers
may stop the loop again, and then the intervals that follow stay kept. A departure that is ordered waits for the samples of its entry. -/
def State.catchUp (s : State) (l : Nat) (x : Nat × Nat × List Sample) : State :=
  if (s.loopC l).mig.isSome then s
  else
    let c := s.loopC l
    let own := x.2.1 == c.entry
    let s := s.modLoop l (fun c => { c with entry := x.2.1, depart := c.depart && own })
    let s := s.intervalEnds l x.1 x.2.2 .pass true
    if own then s else s.modLoop l (fun d => { d with entry := c.entry, depart := c.depart })

/-- The numbers with which a receiving engine goes on from a checkpoint (R309 step 5, R310). Where it is that of the last update, what
commands and gear timers have changed since stands (log entry 76, DESIGN CHOICE). What registers, selector and target hold is theirs. -/
def LoopCore.reloaded (c : LoopCore) (k : LoopCore) : LoopCore :=
  let x := if k.seq = c.seq then c.asStored else k
  { x with
    kept := c.kept, mig := none, orders := c.orders, waiting := c.waiting, heldWeights := c.heldWeights, rawP := c.rawP, rawI := c.rawI
    word := c.word, acc := c.acc, depart := c.depart, setBo := c.setBo, retake := c.retake, bwNew := c.bwNew, held := c.held
    fresh := c.fresh, stranded := c.stranded, ckState := c.ckState, lostStep := c.lostStep, entry := c.entry }

/-- What a receiving engine goes on with of the history interval in progress (R306): what an older checkpoint has of the same interval,
and whatever has marked the interval since. -/
def HoCore.reloaded (h k : HoCore) (newest : Bool) : HoCore :=
  if newest ∨ h.seq ≠ k.seq then h
  else { h with updN := k.updN, sum := k.sum, sumSq := k.sumSq, validN := k.validN }

/-- A model stands in the scratchpad of an engine with a correct CRC; one that does not is none (R309 step 5; log entry 76, DESIGN
CHOICE). -/
def State.modelGood (s : State) (a : Nat) : Bool :=
  let b := s.bytes a 80
  ofLe (b.drop 76) == crc32c (b.take 76) && !s.bankBad a 80

/-- A loop loads the models that stand in the scratchpad of an engine (R309 step 5, R322 step 6). -/
def State.loadModels (s : State) (l e : Nat) : State :=
  let fit := s.modelGood (e * spSize + 0x60400)
  let own := s.modelGood (e * spSize + 0x60500)
  s.modHo l (fun h => { h with
    fitted := if fit then h.fitted else none, loaded := if own then h.loaded else none })

/-- A loop that goes on from an older checkpoint takes its selector's state as it stands (R49): it holds over, follows the active entry by
a departure, or stays frozen. -/
def State.asSelector (s : State) (l : Nat) : State :=
  match s.selOf l with
  | none => s
  | some n =>
    let st := s.selState n
    let ls := s.loopState l
    if st = 2 ∨ (s.selC n).forceLost then s.freezeNow l
    else if st = 3 then s.holdoverNow l
    else if (st = 1 ∨ st = 4) ∧ (s.on (LOOP.STATUS_FROZEN l) ∨ ls = 3 ∨ ls = 0) then
      s.departNow l (!(s.entryKind n (s.active n)).phase)
    else s

/-- What an older checkpoint gives the loop's registers (R306, R309 step 5). -/
def State.loadOlder (s : State) (l : Nat) (k : Checkpoint) : State :=
  let s := ((s.setf (LOOP.STATUS_STATE l) k.state).setb (LOOP.STATUS_FROZEN l) k.frozen).setw (LOOP.HO_ELAPSED l) k.elapsed
  ((s.setf (LOOP.STATUS_GEAR l) k.gear).setb (LOOP.STATUS_FINAL l) k.final).asSelector l

/-- The receiving engine loads the checkpoint and the models from the source's scratchpad (R309 steps 4 and 5). -/
def State.loadState (s : State) (l src : Nat) : State :=
  match s.lastCheckpoint src with
  | none => s
  | some k =>
    let newest := k.core.seq == (s.loopC l).seq
    let s := ((s.loadModels l src).modHo l (fun h => h.reloaded k.ho newest)).showModel l
    let s := s.modLoop l (fun c => c.reloaded k.core)
    let s := s.when (!newest) (fun s => s.loadOlder l k)
    (s.showStep l).setb (LOOP.STATUS_ARMED l) (s.loopC l).armed.isSome

/-- What the source of a migration becomes at its end: FENCED it stays, RETIRED it becomes; for MIGRATE it becomes a pontoon
once its history has been copied. -/
def State.releaseSource (s : State) (src : Nat) (planned retire : Bool) : State :=
  if planned && retire then s.setEngine src 3 0x3F
  else s.setEngine src (s.engState src) 0x3F

/-- Steps 4 and 5 of a failover or planned migration: checkpoint and models pass from one scratchpad to the other, and the receiving engine
does the loop's arithmetic (R309, R314). -/
def State.takeOver (s : State) (l src dst : Nat) : State :=
  let s := (s.copyCheckpoint src dst).bankWrite (dst * spSize + 0x60400) (s.bytes (src * spSize + 0x60400) 0x200)
  s.setf (LOOP.STATUS_ENGINE l) dst

/-- Step 8 of a failover or planned migration: the map and the reports follow, and the history copy begins (R309, R311, R314). -/
def State.moved8 (s : State) (l src dst : Nat) (planned retire : Bool) : State :=
  let s := (s.setEngine dst 1 l).releaseSource src planned retire
  let s := (s.setEntry dst (ENG.ENGINE_COPYING dst) 1).showRecs l
  let s := { s with eng := { s.eng with copies := s.eng.copies ++ [(dst, src, planned && !retire)] } }
  let s := (s.evIf (!planned) ENG.EVENT_FENCED).ev ENG.EVENT_MIGRATED
  let s := (s.ev (LOOP.EVENT_MIGRATED l)).logEngine l src dst (if planned then 0 else s.f (ENG.ENGINE_CAUSE src))
  s.engOpDone l

/-- Steps 4, 5 and 8 without an update between them. -/
def State.moveTo (s : State) (l src dst : Nat) (planned retire : Bool) : State :=
  (s.takeOver l src dst).moved8 l src dst planned retire

/-- Steps 4 and 5 of a failover or planned migration, then what waited for them (R309, R314, R317). -/
def State.resumeOn (s : State) (l src dst : Nat) : State :=
  let s := (s.loadState l src).takeOver l src dst
  let ws := (s.loopC l).waiting
  let os := (s.loopC l).orders
  let s := s.modLoop l (fun c => { c with mig := none, orders := [], waiting := [] })
  (s.forL ws (fun s x => s.performWaiting l x)).forL os (fun s o => s.obey l o)

/-- The intervals that have ended since the checkpoint (R310). -/
def State.passed (s : State) (l : Nat) : List (Nat × Nat × List Sample) :=
  (s.loopC l).kept.filter (fun x => decide ((s.loopC l).lastB < x.1))

/-- A migration from an engine goes on to a pontoon, or, where there is none, ends (R302, R309). -/
def State.onTo (s : State) (l src : Nat) (planned retire : Bool) (d : Option Nat) : State :=
  match d with
  | some d => s.beginMove l src d planned retire
  | none => s.noPontoon src l

/-- The receiving engine's checkers fire before step 8 (R317): it is FENCED, and the next pontoon takes its place. -/
def State.receiverFails (s : State) (l src dst cause : Nat) (planned retire inj : Bool) : State :=
  let s := s.when inj (fun s => ({ s with flt := { s.flt with injEngine := none } } : State).injDone)
  let s := (s.modLoop l (fun c => { c with mig := none })).setEntry dst (ENG.ENGINE_CAUSE dst) cause
  let s := ((s.setEngine dst 4 0x3F).ev ENG.EVENT_FENCED).reportInj (0x200 + dst) 0x0C cause inj
  s.onTo l src planned retire s.pontoon

/-- Why the receiving engine's checkers stop the first update after the checkpoint, none where they do not (R308, R309 step 6, R317). -/
def State.firstFails (s : State) (l dst : Nat) : Option Nat :=
  let t := s.forL ((s.passed l).take 1) (fun s x => s.catchUp l x)
  if t.engState dst = 4 then some (t.f (ENG.ENGINE_CAUSE dst)) else none

/-- What follows on a loop that has resumed as in `t`: the receiving engine fails, or it takes over with its first update, and the intervals after
that one are caught up with (R310, R317). -/
def State.resumeEnd (s t : State) (l src dst : Nat) (planned retire : Bool) (fails : Option Nat) : State :=
  match fails with
  | some cause => s.receiverFails l src dst cause planned retire (cause == 6)
  | none =>
    ((t.forL ((t.passed l).take 1) (fun s x => s.catchUp l x)).moved8 l src dst planned retire).forL ((t.passed l).drop 1)
      (fun s x => s.catchUp l x)

/-- Steps 4 to 8 of a failover or planned migration, what waited for them, and the catch-up over the intervals that have ended since the
checkpoint (R309 to R311, R314, R317): an update that fails before step 8 is that of the receiving engine. -/
def State.resume (s : State) (l src dst : Nat) (planned retire : Bool) : State :=
  let t := s.resumeOn l src dst
  s.resumeEnd t l src dst planned retire (t.firstFails l dst)

/-- The end of a migration of a kind, or nothing when none is under way, or when a planned one still waits for its source's update
(R314). -/
def State.migrationEnd (s : State) (l : Nat) (plannedKind : Bool) (chk : CheckOutcome) : State :=
  match (s.loopC l).mig with
  | none => s
  | some (src, dst, planned, retire) =>
    if planned ≠ plannedKind ∨ s.awaitsUpdate l then s
    else
      match chk with
      | .arithmetic => s.receiverFails l src dst 1 planned retire false
      | .late => s.receiverFails l src dst 2 planned retire false
      | .checkpoint => s.receiverFails l src dst 5 planned retire false
      | .pass => if s.hasCheckpoint src then s.resume l src dst planned retire else s.noPontoon src l

/-- FAILOVER_RESUME (R309, R310, R312). -/
def execFailoverResume (n : Fin 32) (chk : CheckOutcome) (s : State) : Host.Outcome State Fault Refusal :=
  .next (s.migrationEnd n false chk)

/-- MIGRATION_RESUME (R314). -/
def execMigrationResume (n : Fin 32) (chk : CheckOutcome) (s : State) : Host.Outcome State Fault Refusal :=
  .next (s.migrationEnd n true chk)

/-- One record of a history copy: one that the receiving engine has written itself stays, one that cannot be read is GAP
(R308, R311). -/
def State.copyRecord (s : State) (src dst i : Nat) : State :=
  let d := dst * spSize + 32 * i
  let a := src * spSize + 32 * i
  if s.bytes d 32 = List.replicate 7 0 ++ [0xC0] ++ List.replicate 24 0 ∧ !s.bankBad a 32 then s.setBytes d (s.bytes a 32)
  else s

/-- The copy into an engine is over. -/
def State.dropCopy (s : State) (dst : Nat) : State :=
  { s with eng := { s.eng with copies := s.eng.copies.filter (fun x => x.1 != dst) } }

/-- A history copy into an engine ends (R311): a refit follows (R279). -/
def State.endCopy (s : State) (e : Nat) : State :=
  match s.eng.copies.find? (fun x => x.1 = e) with
  | none => s
  | some (dst, src, pontoon) =>
    let s := (s.bankCheck (src * spSize) 0x60000 0).forN 12288 (fun s i => s.copyRecord src dst i)
    let s := (s.dropCopy dst).setEntry dst (ENG.ENGINE_COPYING dst) 0
    let s := if pontoon then s.toPontoon src else s
    let l := s.f (ENG.ENGINE_LOOP dst)
    let s := s.when (decide (l < 32)) (fun s => s.showRecs l)
    if l < 32 ∧ s.loopState l ≠ 3 ∧ !s.on (LOOP.HO_CTRL_FIT_HOLD l) then s.modHo l (fun h => { h with refit := true }) else s

/-- HISTORY_COPY_DONE (R311): the copy into engine `e`. -/
def execHistoryCopyDone (e : Fin 36) (s : State) : Host.Outcome State Fault Refusal := .next (s.endCopy e)

/-! Operations (R313). -/

/-- An engine handle passes R12, and a loop handle does. -/
def engHandleOk (h : Nat) : Bool := hKind h == 6 && decide (hSlot h < 36)
/-- See `engHandleOk`. -/
def loopHandleOk (h : Nat) : Bool := hKind h == 5 && decide (hSlot h < 32)

/-- R12 and R13 for the handles of an operation, and R51 for the loop of MIGRATE: every handle is checked under R12, then under R13,
before anything else (R313). The generation of a loop handle is 0 (R10). An undefined operation takes no handle. -/
def State.engHandles (s : State) (op h he : Nat) : Code :=
  if op = 0 ∨ 3 < op then .ok
  else if !engHandleOk he ∨ (op = 3 ∧ !loopHandleOk h) then .badArgument
  else if hGen he ≠ s.f (ENG.ENGINE_GEN (hSlot he)) ∨ (op = 3 ∧ hGen h ≠ 0) then .staleHandle
  else if op = 3 ∧ !s.loopBuilt (hSlot h) then .locked
  else .ok

/-- RETIRE of an engine (R48, R313): one whose loop has left it, and whose history is still being copied, is RETIRED at once. -/
def State.engRetireOp (s : State) (e : Nat) : State × Code :=
  let st := s.engState e
  let l := s.f (ENG.ENGINE_LOOP e)
  if st = 4 then (s, .fenced)
  else if st = 0 ∧ !s.incoming e then ((s.setEngine e 3 0x3F).logEngine 0xFF e 0xFF 0, .ok)
  else if st = 1 ∧ 32 ≤ l then
    (({ s with eng := { s.eng with copies := s.eng.copies.map (fun x => if x.2.1 = e then (x.1, x.2.1, false) else x) } } : State).setEngine
      e 3 0x3F |>.logEngine 0xFF e 0xFF 0, .ok)
  else if st = 1 ∧ (s.loopC l).mig.isNone then
    match s.pontoon with
    | none => (s, .noSlot)
    | some d => ({ (s.planMigration l e d true) with eng := { s.eng with opLoop := some l } }, .ok)
  else (s, .badArgument)

/-- RETURN of an engine (R313, R315). -/
def State.engReturnOp (s : State) (e : Nat) : State × Code :=
  if s.engState e = 4 then (s, .fenced)
  else if s.engState e = 3 then
    ({ (s.setEngine e 2 0x3F) with eng := { s.eng with testing := some e } }, .ok)
  else (s, .badArgument)

/-- MIGRATE of a loop to an engine (R313). -/
def State.engMigrateOp (s : State) (l e : Nat) : State × Code :=
  let src := s.engineOf l
  if s.engState e = 4 then (s, .fenced)
  else if s.engState e ≠ 0 ∨ s.incoming e ∨ s.engState src ≠ 1 ∨ (s.loopC l).mig.isSome then (s, .badArgument)
  else ({ (s.planMigration l src e false) with eng := { s.eng with opLoop := some l } }, .ok)

/-- An operation of ENG.CMD.OP whose handles have passed (R313). -/
def State.engOperation (s : State) (op h he : Nat) : State × Code :=
  if op = 1 then s.engRetireOp (hSlot he)
  else if op = 2 then s.engReturnOp (hSlot he)
  else if op = 3 then s.engMigrateOp (hSlot h) (hSlot he)
  else (s, .badArgument)

/-- An engine operation from either path (R313): its handles are checked first, then BUSY, and what it comes to shows in CMD_STATUS. -/
def State.engCommand (s : State) (op h he : Nat) : State × Code :=
  match s.engHandles op h he with
  | .ok =>
    if s.on ENG.CMD_STATUS_BUSY then (s.complete ENG.CMD_STATUS_CODE .busy, .busy)
    else
      let (s, c) := s.engOperation op h he
      let busy := s.eng.testing.isSome || s.eng.opLoop.isSome
      (((s.setf ENG.CMD_STATUS_LAST_OP op).complete ENG.CMD_STATUS_CODE c).setb ENG.CMD_STATUS_BUSY busy, c)
  | c => ((s.setf ENG.CMD_STATUS_LAST_OP op).complete ENG.CMD_STATUS_CODE c, c)

/-- A write of a nonzero OP to ENG.CMD, on the operands in CMD_LOOP and CMD_ENG (R313). -/
def State.engOp (s : State) (op : Nat) : State := (s.engCommand op (s.w ENG.CMD_LOOP) (s.w ENG.CMD_ENG)).1

/-- RETIRE (R313): the handle written to CMD_ENG, then OP 0x1. -/
def execEngRetire (p : Port) (h : Word) (s : State) : Host.Outcome State Fault Refusal :=
  .next (s.doorbell p ENG.CMD false (fun s => (s.setChecked ENG.CMD_ENG h.toNat).engOp 1))

/-- RETURN (R313): the handle written to CMD_ENG, then OP 0x2. -/
def execEngReturn (p : Port) (h : Word) (s : State) : Host.Outcome State Fault Refusal :=
  .next (s.doorbell p ENG.CMD false (fun s => (s.setChecked ENG.CMD_ENG h.toNat).engOp 2))

/-- MIGRATE (R313): the handles written to CMD_LOOP and CMD_ENG, then OP 0x3. -/
def execEngMigrate (p : Port) (h e : Word) (s : State) : Host.Outcome State Fault Refusal :=
  .next (s.doorbell p ENG.CMD true
    (fun s => ((s.setChecked ENG.CMD_LOOP h.toNat).setChecked ENG.CMD_ENG e.toNat).engOp 3))

/-- An engine that has passed its self-test, whose march test has rewritten the whole scratchpad (R304, R315). -/
def State.tested (s : State) (e : Nat) : State :=
  ((s.fillRegion (e * spSize) spSize (emptyHistory e)).setEngine e 0 0x3F).ev ENG.EVENT_RETURNED

/-- An engine's self-test ends (R315, R323): it is a pontoon or FENCED. -/
def State.testEnds (s : State) (e : Nat) (pass : Bool) : State :=
  if pass then (s.tested e).logEngine 0xFF e 0xFF 0
  else
    let s := s.evIf (s.engState e != 4) ENG.EVENT_FENCED
    let s := (s.setEngine e 4 0x3F).setEntry e (ENG.ENGINE_CAUSE e) 7
    (s.ev ENG.EVENT_TEST_FAIL).report (0x200 + e) 0x0D 0

/-- ENGINE_SELF_TEST_DONE (R315). -/
def execEngineSelfTestDone (e : Fin 36) (pass : Bool) (s : State) : Host.Outcome State Fault Refusal :=
  if s.engState e ≠ 2 then .next s
  else
    let s := if s.eng.testing = some e.val then
        (({ s with eng := { s.eng with testing := none } } : State).setf ENG.CMD_STATUS_BUSY 0).ringEngineDone else s
    .next (s.testEnds e pass)

/-- The model on which a loop would hold over (R286, R296). -/
def State.modelNow (s : State) (l : Nat) : Option Model :=
  if s.on (LOOP.HO_CTRL_OVR l) then (s.hoC l).loaded else (s.hoC l).fitted

/-- LAND_WAIT_EXPIRY (R324): a loop that resumed from ACQUIRING or LOCKED and whose selector follows nothing goes to HOLDOVER on
its model, when it has one, LAND_WAIT after the landing. -/
def execLandWaitExpiry (n : Fin 32) (s : State) : Host.Outcome State Fault Refusal :=
  let c := s.loopC n
  if s.landed ∧ s.loopBuilt n ∧ s.loopState n = 4 ∧ (c.ckState = 1 ∨ c.ckState = 2) ∧ !c.fresh ∧ (s.selOf n).isSome ∧
      (s.modelNow n).isSome ∧ !c.stranded ∧ c.mig = none ∧ s.eng.landedAt + s.f ENG.CTRL_LAND_WAIT * 2000000000 ≤ s.now then
    .next (s.enterHoldover n)
  else .next s

end Sys2Proof.Machine
end

