-- ==== Sys2Proof/Machine/Landing.lean ====
section
/-! DEFINITION. The landings' own commands and events: captures, calibration, stamps and their history, intervals, gates, the
regression, the slicer and the slices of LND[30] (05_landings_and_measurement.md). -/

namespace Sys2Proof.Machine

/-! Captures and calibration. -/

/-- Positions from −1 to 511 at which a captured word differs from its neighbour (R159). -/
def transitions (w : BitVec 512) : Nat :=
  let bit := fun (i : Nat) => if i = 0 then true else if i = 513 then false else w.getLsbD (i - 1)
  ((List.range 513).filter (fun i => bit i != bit (i + 1))).length

/-- The corrected fine code of a captured word, or none where it is invalid (R159). -/
def fineCode (w : BitVec 512) : Option Nat :=
  if w.getLsbD 511 then none
  else if 3 < (transitions w - 1) / 2 then none
  else some ((List.range 512).filter (fun i => w.getLsbD i)).length

/-- The codes of a valid calibration pair (R160). -/
def calPair (w1 w2 : BitVec 512) : Option (Nat × Nat) :=
  match fineCode w1, fineCode w2 with
  | some c1, some c2 => if 4 ≤ c1 ∧ c2 ≤ 508 ∧ c1 + 380 ≤ c2 ∧ c2 ≤ c1 + 460 then some (c1, c2) else none
  | _, _ => none

/-- A calibration pair runs before a capture (R161, R162), unless calibration is held and there is a valid pair to hold (R187, R188);
answers whether the capture has a valid pair. The first pair has SEQ 1 (log entry 61, DESIGN CHOICE). -/
def State.calibrate (s : State) (n : Nat) (w1 w2 : BitVec 512) : State × Bool :=
  if s.on (LND.CTRL_CAL_HOLD n) ∧ (s.lndC n).paired then (s, true)
  else
    match calPair w1 w2 with
    | some (c1, c2) =>
      let s := s.modLnd n (fun c => { c with
        c1 := c1, c2 := c2, paired := true, badPairs := 0, calSeq := (c.calSeq + 1) % 2 ^ 26, calTag := .valid })
      (s.setf (LND.STATUS_CAL_OK n) 1, true)
    | none =>
      let k := (s.lndC n).badPairs + 1
      let s := s.modLnd n (fun c => { c with
        badPairs := if k ≥ 16 then 0 else k, calSeq := (c.calSeq + 1) % 2 ^ 26, calTag := .gap })
      let s := ((s.setf (LND.STATUS_CAL_OK n) 0).inc (LND.ERRCNT_CAL_FAIL n)).ev (LND.EVENT_CAL_FAIL n)
      (if k ≥ 16 then s.report (0x180 + n) 0x0B k else s, false)

/-- The stamp of a capture, in units of T / 2²⁰ of extended coarse time; what shows it takes it modulo 2⁶⁴ (R163). -/
def State.stampOf (s : State) (n t f : Nat) : Int :=
  let c := s.lndC n
  let fine := roundNear (((f : Int) - c.c1) * 2 ^ 20) (c.c2 - c.c1)
  let path := roundNear (s.fi (LND.PATH_K n) * 16) 500
  ((t * 2 ^ 20 : Nat) : Int) - fine - path

/-- A stamp as its 64-bit field shows it (R163). -/
def stampField (v : Int) : Nat := (v % 2 ^ 64).toNat

/-- An invalid capture is counted (R177, R178). -/
def State.invalidCapture (s : State) (n : Nat) : State :=
  (s.inc (LND.ERRCNT_INVALID n)).ev (LND.EVENT_INVALID_CAPTURE n)

/-- Extended coarse time of a captured edge: the time nearest the present with its coarse count (R158; log entry 26, DEDUCED). -/
def State.extended (s : State) (coarse : BitVec 44) : Nat :=
  let m := 2 ^ 44
  let b := s.now / m * m + coarse.toNat
  if b + m / 2 < s.now then b + m else if s.now + m / 2 < b ∧ m ≤ b then b - m else b

/-! Stamps. -/

/-- Write a history entry when the landing has a history, with EPOCH as it was at the capture (R158, R170). -/
def State.history (s : State) (n t stamp : Nat) (tag : Tag) (invalid : Bool) (edge : Nat) : State :=
  let sp := s.f (LND.CFG_HIST_SP n)
  if sp = 0xFF then s
  else
    let i := s.f (LND.HIST_PTR_NEXT n)
    let w1 := tag.num * 2 ^ 62 + b2n (s.lndC n).stepSince * 2 ^ 61 + b2n invalid * 2 ^ 60 +
      t / 2 ^ 44 % 2 ^ 12 * 2 ^ 48 + edge
    let s := s.bankWrite (sp * spSize + 16 * i) (leBytes 8 (if invalid then 0 else stamp) ++ leBytes 8 w1)
    let s := s.modLnd n (fun c => { c with stepSince := false })
    if i = 32767 then (s.setf (LND.HIST_PTR_NEXT n) 0).incWrap (LND.HIST_PTR_LAPS n) else s.setf (LND.HIST_PTR_NEXT n) (i + 1)

/-- The tag of a stamp or interval before its own faults (R156, R185). -/
def State.measureTag (s : State) (n : Nat) (settling : Bool) : Tag :=
  if s.on (LND.STATUS_LOW_SWING n) then .suspect else if settling then .settle else .valid

/-- A VALID stamp enters the one gate that covers its time: the gate in progress, a closed one whose result is still to come, or the next
(R175). -/
def LndCore.toGate (c : LndCore) (bound : Bool) (t : Nat) (stamp : Int) (edge : Nat) : LndCore :=
  if c.gateOn ∧ c.gateStart ≤ t then
    if bound ∨ t < c.gateStart + c.gateMs * 2000000 then { c with gate := c.gate.add c.decim stamp edge }
    else { c with early := c.early ++ [(t, stamp, edge)] }
  else { c with closed := c.closed.map (fun g =>
    if g.start ≤ t ∧ t < g.stop then { g with sums := g.sums.add g.decim stamp edge } else g) }

/-- A VALID stamp enters the slice that covers its time: the one in progress, or the next (R180). -/
def LndCore.toSlice (c : LndCore) (t : Nat) (stamp : Int) (edge : Nat) : LndCore :=
  if t < c.slcEnd then { c with slc := c.slc.add c.decim stamp edge } else { c with slcEarly := c.slcEarly ++ [(stamp, edge)] }

/-- A stamp that is not GAP reaches what uses it: the gate, the selectors, the loops and the router (R165, R179, R234, R391). The samples
of a crossing-link entry are SUSPECT while the delay of its lane is GAP (R539). -/
def State.deliverStamp (s : State) (n t : Nat) (stamp : Int) (tag : Tag) (edge : Nat) : State :=
  let vals := (List.range 8).map (fun k => s.tscAt k stamp)
  let bound := s.gateBound n
  let s := s.modLnd n (fun c =>
    let c := { c with lastStamped := some t, badEdge := false, stamp := stamp, stampTag := tag, stampEdge := edge, vals := vals }
    if tag ≠ .valid then c
    else if n = 30 then (c.toGate bound t stamp edge).toSlice t stamp edge
    else c.toGate bound t stamp edge)
  let s := s.setf (LND.STATUS_LAST_TAG n) tag.num
  let s := s.route n
  let noDelay := (n = 28 ∧ s.xlk.d0 = none) ∨ (n = 29 ∧ s.xlk.d1 = none)
  let tag := if noDelay then tag.max .suspect else tag
  let s := s.forL (s.entriesOf n) (fun s x => s.entrySample x.1 x.2 tag (stamp, edge))
  if tag ≠ .valid then s
  else s.forL (s.entriesOf n) (fun s x =>
    if s.active x.1 = x.2 ∧ (s.selState x.1 = 1 ∨ s.selState x.1 = 4) then
      s.forL (s.loopsOf x.1) (fun s l => s.modLoop l (fun c => { c with acc := c.acc ++ [⟨stamp, edge, s.laneDelay n⟩] }))
    else s)

/-- A slot whose capture gave no stamp is GAP (R162, R168, R178); it uses up no settling count (log entry 78, DESIGN CHOICE). An invalid
capture, at time `t`, enters the history and presents the edge to the router, whose records of it are GAP (R384; log entry 78, DEDUCED). -/
def State.gapSlot (s : State) (n : Nat) (invalid : Option Nat) (edge : Nat) : State :=
  let s := s.setf (LND.STATUS_LAST_TAG n) 3
  let s := match invalid with
    | some t => ((s.history n t 0 .gap true edge).modLnd n (fun c => { c with badEdge := true })).route n
    | none => s
  s.forL (s.entriesOf n) (fun s x => s.entrySample x.1 x.2 .gap (0, edge))

/-- An item at a full wharf is discarded (R58). -/
def State.wharfDrop (s : State) : State := s.inc PWR.WHARF_DROP_DROPS

/-- A decimated edge comes less than 900 ns after the stamped one before it (R168): by its stamp, or by its coarse count where the capture
is invalid (log entry 78, DEDUCED). -/
def State.tooSoon (s : State) (n t : Nat) (w : BitVec 512) : Bool :=
  match (s.lndC n).lastStamped with
  | none => false
  | some t0 =>
    match fineCode w with
    | some f => decide (s.stampOf n t f < (s.lndC n).stamp + 1800 * 2 ^ 20)
    | none => decide (t < t0 + 1800)

/-- A decimated edge in stamp mode (R58, R162, R163, R168, R170, R178). Of the settling counts, a stamp that is delivered uses one up, and
a GAP slot none; an invalid capture meets no wharf, and what a full wharf discards enters no history (log entry 78, DESIGN CHOICE). -/
def State.stampEdge (s : State) (n t edge : Nat) (cap : Capture) : State :=
  if s.tooSoon n t cap.word then ((s.inc (LND.ERRCNT2_RATE_DROP n)).ev (LND.EVENT_RATE_DROP n)).gapSlot n none edge
  else
    let (s, ok) := s.calibrate n cap.c1w cap.c2w
    if !ok then s.gapSlot n (some t) edge
    else
      match fineCode cap.word with
      | none => (s.invalidCapture n).gapSlot n (some t) edge
      | some f =>
        if cap.wharfFull then s.wharfDrop.gapSlot n none edge
        else
          let c := s.lndC n
          let tag := s.measureTag n (c.selStamps + c.filtStamps != 0 || c.edgeSettling)
          let stamp := s.stampOf n t f
          let s := s.modLnd n (fun c => { c with selStamps := c.selStamps - 1, filtStamps := c.filtStamps - 1 })
          (s.history n t (stampField stamp) tag false edge).deliverStamp n t stamp tag edge

/-! Intervals. -/

/-- The start of an interval (R58, R174, R177); a new DECIM takes effect, and the start is the first edge of its decimation (R186, R726). -/
def State.startInterval (s : State) (n t : Nat) (cap : Capture) : State :=
  let d := s.f (LND.DECIM_DIV n)
  let s := s.modLnd n (fun c => { c with armed := false, decim := d, skip := max 1 d - 1 })
  let (s, ok) := s.calibrate n cap.c1w cap.c2w
  if !ok then s.gapInterval n 0
  else
    match fineCode cap.word with
    | none => (s.invalidCapture n).gapInterval n 0
    | some f =>
      if cap.wharfFull then s.wharfDrop.gapInterval n 0
      else
      let x : Interval := ⟨s.stampOf n t f, t, s.f (LND.CTRL_STOP_N n), (s.lndC n).edgeSettling⟩
      (s.modLnd n (fun c => { c with ival := some x })).setf (LND.STATUS_RUNNING n) 1

/-- An edge arrives within 2 ns after the start capture of an interval, so that the stop capture ignores it (R172): by its stamp, or by
its coarse count where the capture is invalid (log entry 78, DEDUCED). -/
def State.tooEarly (s : State) (n t : Nat) (w : BitVec 512) (x : Interval) : Bool :=
  match fineCode w with
  | some f => decide (s.stampOf n t f < x.start + 4 * 2 ^ 20)
  | none => decide (t < x.at_ + 4)

/-- The stop of an interval: a capture by this landing's interpolator (R172, R173, R177). `settle` says that a settling count of the stop
edge runs (R18). -/
def State.stopInterval (s : State) (n t : Nat) (w : BitVec 512) (full settle : Bool) : State :=
  match (s.lndC n).ival with
  | none => s
  | some x =>
    match fineCode w with
    | none => (s.invalidCapture n).gapInterval n 0
    | some f =>
      if full then s.wharfDrop.gapInterval n 0
      else
        let sp := s.stampOf n t f
        (s.modLnd n (fun c => { c with
          ival := none, ivalDone := c.ivalDone ++ [(x.start, sp, x.settle || settle)] })).setf (LND.STATUS_RUNNING n) 0

/-- A decimated edge in interval mode (R172, R174, R187). -/
def State.intervalEdge (s : State) (n t : Nat) (cap : Capture) : State :=
  let c := s.lndC n
  match c.ival with
  | some x =>
    if s.on (LND.CTRL_STOP_SEL n) ∨ s.tooEarly n t cap.word x then s
    else if x.left ≤ 1 then s.stopInterval n t cap.word cap.wharfFull c.edgeSettling
    else s.modLnd n (fun c => { c with ival := some { x with left := x.left - 1 } })
  | none => if (!s.gateBound n ∧ !c.waitAct) ∨ c.armed then s.startInterval n t cap else s

/-- Intervals that stop at an edge of landing m as their peer, each captured by its own landing's interpolator (R173). A landing that is
not enabled presents no edges, to others no more than to itself (log entry 78, DESIGN CHOICE). -/
def State.peerStops (s : State) (m t : Nat) (cap : Capture) : State :=
  let settle := (s.lndC m).edgeSettling
  s.forN 32 (fun s n =>
    match (s.lndC n).ival, cap.peers[n]? with
    | some x, some (w, full) =>
      if s.on (LND.CTRL_STOP_SEL n) ∧ s.f (LND.CTRL_PEER n) = m ∧ !s.tooEarly n t w x then
        s.stopInterval n t w full ((s.lndC n).edgeSettling || settle)
      else s
    | _, _ => s)

/-! Edges. -/

/-- A raw edge of the selected polarity (R152, R154, R169, R184, R726). The first edge after a cold reset has index 0 (log entry 78, DESIGN
CHOICE). -/
def State.rawEdge (s : State) (n : Nat) (cap : Capture) : State :=
  let edge := (s.lndC n).edgeIdx
  let s := s.modLnd n (fun c => { c with edgeIdx := (c.edgeIdx + 1) % 2 ^ 48 })
  if !s.landed ∨ !s.on (LND.CTRL_ENABLE n) then s
  else
    let t := s.extended cap.coarse
    let s := s.when (s.on (LND.STATUS_ACTIVE n)) (fun s => s.modLnd n (fun c => { c with
      sliceRun := some (match c.sliceRun with | some (k, t0) => (k + 1, t0) | none => (0, t)) }))
    let s := (s.activityEdge n t).peerStops n t cap
    let skip := (s.lndC n).skip
    let s := if skip ≠ 0 then s.modLnd n (fun c => { c with skip := c.skip - 1 })
      else
        let s := s.modLnd n (fun c => { c with skip := max 1 c.decim - 1 })
        if s.stampMode n then s.stampEdge n t edge cap else s.intervalEdge n t cap
    (s.modLnd n (fun c => { c with stepEdges := c.stepEdges - 1 })).refreshSettling n

/-- LANDING_EDGE (R169). -/
def execLandingEdge (n : Fin 32) (cap : Capture) (s : State) : Host.Outcome State Fault Refusal :=
  if s.lndBuilt n then .next (s.rawEdge n cap) else .next s

/-- ACTIVITY_LOST (R184, R31, R675). -/
def execActivityLost (n : Fin 32) (s : State) : Host.Outcome State Fault Refusal :=
  let late : Bool := match (s.lndC n).lastEdge with | some t => decide (t + s.actWindow n ≤ s.now) | none => true
  if s.landed ∧ s.lndBuilt n ∧ s.on (LND.CTRL_ENABLE n) ∧ s.on (LND.STATUS_ACTIVE n) ∧ late then
    let s := s.loseActivity n
    .next (if n.val = 30 then ((s.setf FLT.DEVICE_OSCIN 1).raise 18).report 2 0x03 0 else s)
  else .next s

/-- A slicer threshold step (R154). -/
def State.threshStep (s : State) (n : Nat) (thresh : Int) : State :=
  let s := s.seti (LND.SLICE_STAT_THRESH n) thresh
  let s := s.modLnd n (fun c => { c with stepEdges := 8, stepSince := true })
  (s.ev (LND.EVENT_SLICE_STEP n)).refreshSettling n

/-- Give THRESH a value within its range, which takes a MAN_THRESH of -512 as -511 (log entry 78, DESIGN CHOICE); only a change is a step
(R154). -/
def State.sliceStep (s : State) (n : Nat) (thresh : Int) : State :=
  let v := max (-511) (min thresh 511)
  if v = s.fi (LND.SLICE_STAT_THRESH n) then s else s.threshStep n v

/-- The update interval of a slicer has run (R152): FIXED names none, so that any end of one is taken (log entry 78, DESIGN CHOICE). -/
def State.sliceDue (s : State) (n : Nat) : Bool :=
  let p := s.f (LND.CFG_SLICER n)
  p == 0 ||
    match (s.lndC n).sliceRun with
    | none => false
    | some (k, t0) => if p = 1 then decide (1024 ≤ k ∧ t0 + 2000000 ≤ s.now) else decide ((if p = 2 then 16 else 4) ≤ k)

/-- An update interval of a slicer ends with midpoint and amplitude in threshold steps (R152, R153, R156). -/
def State.slicerUpdate (s : State) (n : Nat) (mid : Int) (amp : Nat) : State :=
  let low := decide (amp < 64)
  let was := s.on (LND.STATUS_LOW_SWING n)
  let s := (s.setf (LND.SLICE_STAT_AMP n) (min amp 1023)).setb (LND.STATUS_LOW_SWING n) low
  let s := s.modLnd n (fun c =>
    let c := { c with sliceRun := some (0, s.now) }
    if low ∨ (was ∧ c.gateStart < s.now) then c.mark s.now false true else c)
  let th := s.fi (LND.SLICE_STAT_THRESH n)
  if s.f (LND.CFG_SLICER n) = 0 ∨ s.on (LND.SLICE_MANUAL n) then s
  else if mid - th > 2 then s.sliceStep n (th + 1)
  else if th - mid > 2 then s.sliceStep n (th - 1)
  else s

/-- SLICER_UPDATE (R153, R155): internal landings have no slicer; it holds while activity is lost. -/
def execSlicerUpdate (n : Fin 32) (mid : Int) (amp : Nat) (s : State) : Host.Outcome State Fault Refusal :=
  if s.landed ∧ s.lndBuilt n ∧ s.f (LND.CFG_FORMAT n) ≠ 6 ∧ s.on (LND.CTRL_ENABLE n) ∧ s.on (LND.STATUS_ACTIVE n) ∧ s.sliceDue n then
    .next (s.slicerUpdate n mid amp)
  else .next s

/-- COARSE_WRAP (R158). -/
def execCoarseWrap (s : State) : Host.Outcome State Fault Refusal :=
  .next (s.forN 32 (fun s n => s.incWrap (LND.EPOCH_COUNT n)))

/-! Gates. -/

/-- GATE_END (R174): stamp mode with overflow bounding; the next gate follows at once. -/
def execGateEnd (n : Fin 32) (s : State) : Host.Outcome State Fault Refusal :=
  let c := s.lndC n
  let stop := c.gateStart + c.gateMs * 2000000
  if s.landed ∧ c.gateOn ∧ !s.gateBound n ∧ stop ≤ s.now then
    .next ((s.closeGate n stop false).openGate n stop)
  else .next s

/-- GATE_LONG_TIMEOUT (R174): stamp mode with gate bounding, 1,000 s without a task. -/
def execGateLongTimeout (n : Fin 32) (s : State) : Host.Outcome State Fault Refusal :=
  let c := s.lndC n
  let stop := c.gateStart + 2000000000000
  if s.landed ∧ c.gateOn ∧ s.gateBound n ∧ stop ≤ s.now then .next (s.closeGate n stop true) else .next s

/-- "Arm TDC" (R174, R187). -/
def State.armTdc (s : State) (n : Nat) : State :=
  if !s.landed ∨ !s.lndBuilt n ∨ !s.gateBound n ∨ !s.on (LND.CTRL_ENABLE n) then s
  else if s.stampMode n then
    let s := if (s.lndC n).gateOn then s.closeGate n s.now false else s
    s.openGate n s.now
  else
    let s := if (s.lndC n).ival.isSome then
        ((s.inc (LND.ERRCNT2_GATE_MISS n)).ev (LND.EVENT_GATE_MISS n)).gapInterval n 0 else s
    s.modLnd n (fun c => { c with armed := true })

/-- ARM_TDC_TASK (R174, R392): one pending run of the landing's task input. -/
def execArmTdcTask (n : Fin 32) (s : State) : Host.Outcome State Fault Refusal :=
  match s.takeRun (taskKey (0x10 + n) 0) with
  | some (_, s) => .next (s.armTdc n)
  | none => .next s

/-- LND_ARM (R174). -/
def execLndArm (p : Port) (n : Fin 32) (s : State) : Host.Outcome State Fault Refusal :=
  .next (s.doorbell p (LND.CMD n) false (fun s => s.armTdc n))

/-- INTERVAL_OVERFLOW (R174). -/
def execIntervalOverflow (n : Fin 32) (s : State) : Host.Outcome State Fault Refusal :=
  let late : Bool := match (s.lndC n).ival with | some x => decide (x.at_ + 2 ^ 44 ≤ s.now) | none => false
  if s.landed ∧ late ∧ !s.gateBound n then
    .next (((s.inc (LND.ERRCNT2_OVF n)).ev (LND.EVENT_OVF n)).gapInterval n 2)
  else .next s

/-- INTERVAL_DONE (R176, R183, R185). -/
def execIntervalDone (n : Fin 32) (s : State) : Host.Outcome State Fault Refusal :=
  match (s.lndC n).ivalDone with
  | [] => .next s
  | (a, b, settle) :: rest =>
    let tag := s.measureTag n ((s.lndC n).selResults != 0 || settle)
    let s := s.modLnd n (fun c => { c with ivalDone := rest, selResults := c.selResults - 1 })
    let s := s.publish n tag 2 0 (intWords 2 (roundNear ((b - a) * 125) 1024) ++ toWords 2 (stampField a) ++ [0, 0, 0])
    .next ((s.setf (LND.STATUS_LAST_TAG n) tag.num).refreshSettling n)

/-! The regression (R179 to R182). -/

/-- Numerator and denominator of the slope b, in T / 2²⁰ per decimated edge (R179). -/
def Sums.slope (a : Sums) : Int × Nat := ((a.n : Int) * a.sxt - a.sx * a.st, a.n * a.sxx - a.sx * a.sx)

/-- y_m of a fit: Pnom / b − 1 for decimation `d` and `half` half-hertz (R179). -/
def Sums.offset (a : Sums) (d half : Nat) : Option Rat :=
  let (x, y) := a.slope
  if x ≤ 0 ∨ y = 0 ∨ half = 0 then none
  else some (((d * 2000000000000 * 2 ^ 20 * y : Nat) : Rat) / (((half * 500 : Nat) : Int) * x : Int) - 1)

/-- RMS of the residuals of a fit in fs (R183). -/
def Sums.resid (a : Sums) : Nat :=
  let (x, y) := a.slope
  let n : Rat := (a.n : Rat)
  let rss : Rat := (a.stt : Rat) - (a.st : Rat) * a.st / n - (x : Rat) * x / (n * (y : Rat))
  ratSqrt 29 (max 0 rss / n * 15625 * 15625 / (2 ^ 30 : Nat))

/-- A fraction as a word of 2⁻⁵⁶ held at the limits of 48 bits, and whether it lies beyond them (R182; rounding open). -/
def toY (site : Nat) (q : Rat) : Int × Bool :=
  let v := ratRound site (q * (2 ^ 56 : Nat))
  (satSigned 48 v, decide (v ≠ satSigned 48 v))

/-- The y₃₀ of a gate in 2⁻⁵⁶ as a fraction of whole numbers, or none when a slice it needs is missing or not VALID: the mean of the slices
wholly in it, or where there is none the slice that holds its midpoint (R180). -/
def State.gateY30 (s : State) (g : ClosedGate) : Option (Int × Nat) :=
  let want := g.stop / 2000000 - (g.start + 1999999) / 2000000
  let mid := (g.start + g.stop) / 2
  if want = 0 then
    ((s.lndC 30).recent.find? (fun x => x.1 == mid / 2000000 * 2000000)).bind (fun x => x.2.map (fun y => (y, 1)))
  else if g.y30Num = want then some (g.y30Sum, want)
  else none

/-- Fewer than 90 % of the expected edges were stamped VALID (R181). -/
def State.sparse (s : State) (n : Nat) (g : ClosedGate) : Bool :=
  decide (g.sums.n * 10 * 4000000000 * g.decim < 9 * (g.stop - g.start) * s.f (LND.NOM_FREQ_HALF_HZ n))

/-- The result of a closed gate (R179 to R183). -/
def State.regressionResult (s : State) (n : Nat) (g : ClosedGate) : State :=
  let long := b2n g.long
  match (if g.sums.n < 4 then none else g.sums.offset g.decim (s.f (LND.NOM_FREQ_HALF_HZ n))) with
  | none => s.gapRegression n long g.sums.n (g.stop / 2000000)
  | some ym =>
    let y30 := if n = 30 then some (0, 1) else s.gateY30 g
    let y := match y30 with
      | some (a, k) => (1 + ym) / (1 + (a : Rat) / ((k : Rat) * (2 ^ 56 : Nat))) - 1
      | none => ym
    let (yw, o1) := toY 30 y
    let (mw, o2) := toY 31 ym
    let c := s.lndC n
    let suspect := o1 || o2 || y30.isNone || s.sparse n g || g.sums.lost || g.sums.low
    let tag := if suspect then Tag.suspect else if c.selResults + c.filtResults ≠ 0 then .settle else .valid
    let s := s.modLnd n (fun c => { c with selResults := c.selResults - 1, filtResults := c.filtResults - 1 })
    let s := s.seti (LND.FREQ32_Y n) (roundNear yw (2 ^ 16))
    let s := s.publish n tag 1 long ([BitVec.ofNat 32 g.sums.n] ++ intWords 2 yw ++ intWords 2 mw ++
      [BitVec.ofNat 32 (satBits 32 g.sums.resid), BitVec.ofNat 32 (g.stop / 2000000)])
    (s.refreshSettling n).deliverResult n tag yw mw

/-- REGRESSION_DONE (R179). -/
def execRegressionDone (n : Fin 32) (s : State) : Host.Outcome State Fault Refusal :=
  match (s.lndC n).closed with
  | [] => .next s
  | g :: rest => .next ((s.modLnd n (fun c => { c with closed := rest })).regressionResult n g)

/-! Slices of LND[30]. -/

/-- The result of the slice of LND[30] that ends now, or none when it is not VALID (R180, R181). -/
def State.sliceResult (s : State) : Option Int :=
  let a := s.endSums 30 (s.lndC 30).slc
  let g : ClosedGate := ⟨0, 2000000, false, a, 0, 0, (s.lndC 30).decim⟩
  if a.n < 4 ∨ a.lost ∨ a.low ∨ s.sparse 30 g then none
  else
    match a.offset g.decim (s.f (LND.NOM_FREQ_HALF_HZ 30)) with
    | none => none
    | some ym => let (w, o) := toY 32 ym; if o then none else some w

/-- Every loop learns of a slice (R240, R276, R287). -/
def State.sliceToLoops (s : State) (ok : Bool) : State :=
  s.forL (s.loopRecs.map (·.loop)) (fun s l =>
    if ok then s.setf (LOOP.HO_STAT_ON_XO l) 0
    else
      let s := s.evIf (!s.on (LOOP.HO_STAT_ON_XO l)) (LOOP.HO_EVENT_OSC_LOST l)
      (s.setf (LOOP.HO_STAT_ON_XO l) 1).modHo l (fun h => { h with sliceBad := true }))

/-- A VALID slice from `a` to `b` enters the gates of a landing that hold it wholly (R180). -/
def LndCore.takeSlice (c : LndCore) (bound : Bool) (a b : Nat) (v : Int) : LndCore :=
  let c := if c.gateOn ∧ c.gateStart ≤ a ∧ (bound ∨ b ≤ c.gateStart + c.gateMs * 2000000) then
      { c with y30Sum := c.y30Sum + v, y30Num := c.y30Num + 1 } else c
  { c with closed := c.closed.map (fun g =>
    if g.start ≤ a ∧ b ≤ g.stop then { g with y30Sum := g.y30Sum + v, y30Num := g.y30Num + 1 } else g) }

/-- A slice of 1 ms of LND[30] ends (R180): its result reaches the gates that hold it wholly, and the mean of R240. -/
def State.sliceEnd (s : State) : State :=
  let y := s.sliceResult
  let stop := s.now / 2000000 * 2000000
  let s := s.modLnd 30 (fun c => { c with
    recent := ((stop - 2000000, y) :: c.recent).take 4, slcEnd := stop + 2000000, slcEarly := []
    slc := c.slcEarly.foldl (fun a x => a.add c.decim x.1 x.2) {} })
  let s := match y with
    | some v => { (s.forN 32 (fun s n => s.modLnd n (fun c => c.takeSlice (s.gateBound n) (stop - 2000000) stop v))) with
        slices := (some v :: s.slices).take 1000 }
    | none => s
  (s.sliceToLoops y.isSome).refreshYbar

/-- LND30_SLICE_END (R180). -/
def execLnd30SliceEnd (s : State) : Host.Outcome State Fault Refusal :=
  if s.landed ∧ s.lndBuilt 30 ∧ (s.lndC 30).slcEnd ≤ s.now then .next s.sliceEnd else .next s

/-- The nominal frequency of OSCIN is not the one under which the loops learned: their records no longer qualify (R272, R278). -/
def State.nomChanged (s : State) : State :=
  let h := s.f (LND.NOM_FREQ_HALF_HZ 30)
  if (s.lndC 30).nomWas = some h then s
  else
    let s := s.modLnd 30 (fun c => { c with nomWas := some h })
    s.forN 32 (fun s l => (s.modHo l (fun h => { h with qualFrom := h.seq })).showRecs l)

/-! Fetches. -/

/-- What FETCH_RESULT places in a mailbox (R183): a GAP record before the first result. -/
def State.fetchResult (s : State) (p : Port) (n : Nat) : State :=
  let r := (s.lndC n).result
  s.mboxOut p (if r.isEmpty then BitVec.ofNat 32 (3 * 2 ^ 30) :: List.replicate 7 0 else r)

/-- FETCH_RESULT (R183). -/
def execFetchResult (p : Port) (n : Fin 32) (s : State) : Host.Outcome State Fault Refusal :=
  .next (s.doorbell p (LND.CMD n) false (fun s => s.fetchResult p n))

/-- The calibration record (R183): the codes of an invalid pair carry no meaning (R16). -/
def State.calRecord (s : State) (n : Nat) : List Word × State :=
  let c := s.lndC n
  if c.calSeq = 0 ∧ !c.paired ∧ c.badPairs = 0 then (BitVec.ofNat 32 (3 * 2 ^ 30) :: List.replicate 7 0, s)
  else
    let w0 := BitVec.ofNat 32 (c.calTag.num * 2 ^ 30 + 3 * 2 ^ 28 + c.calSeq)
    if c.calTag = .valid then
      let g := roundOpen 33 (500 * 2 ^ 24 : Int) (c.c2 - c.c1)
      ([w0, BitVec.ofNat 32 (c.c2 * 2 ^ 16 + c.c1), BitVec.ofNat 32 g.toNat, 0, 0, 0, 0, 0], s)
    else
      let (ws, s) := s.freeWords 2
      (w0 :: ws ++ [0, 0, 0, 0, 0], s)

/-- What FETCH_CAL places in a mailbox (R183). -/
def State.fetchCal (s : State) (p : Port) (n : Nat) : State :=
  let (ws, s) := s.calRecord n
  s.mboxOut p ws

/-- FETCH_CAL (R183). -/
def execFetchCal (p : Port) (n : Fin 32) (s : State) : Host.Outcome State Fault Refusal :=
  .next (s.doorbell p (LND.CMD n) false (fun s => s.fetchCal p n))

end Sys2Proof.Machine
end

