-- ==== Sys2Proof/Machine/SelectCmds.lean ====
section
/-! DEFINITION. The selectors' own commands and events (06_reference_selection.md): the timers, readmission, forcing, and what a
write to an entry's or a selector's configuration makes of the selection. -/

namespace Sys2Proof.Machine

/-- WTR_EXPIRY (R211, R214): the check runs as soon as the entry has what it needs. -/
def execWtrExpiry (n : Fin 16) (k : Fin 30) (s : State) : Host.Outcome State Fault Refusal :=
  if s.landed ∧ s.selBuilt n ∧ k.val < s.ncand n ∧ s.cstate n k = 4 ∧ (s.entC (entKey n k)).wtrEnd ≤ s.now then
    .next ((s.modEnt (entKey n k) (fun e => { e with wtrDue := true })).entryCheck n k 1)
  else .next s

/-- HOLDOFF_EXPIRY (R221). -/
def execHoldoffExpiry (n : Fin 16) (s : State) : Host.Outcome State Fault Refusal :=
  if s.landed ∧ s.selBuilt n ∧ s.selState n = 2 ∧ (s.selC n).holdEnd ≤ s.now then .next (s.holdoffEnd n true) else .next s

/-- Make an entry in WTR of a selector in HOLDOVER QUALIFIED (R216). -/
def State.readmit (s : State) (n k : Nat) : State :=
  if s.selState n = 3 ∧ k < s.ncand n ∧ s.cstate n k = 4 then
    let s := s.modEnt (entKey n k) (fun e => { e with readmitted := true })
    let s := (s.setCstate n k 2).logDev 0x0302 (beBytes 1 n ++ beBytes 1 k ++ [1])
    s.evaluate n 1
  else s

/-- READMIT (R216). -/
def execReadmit (p : Port) (n : Fin 16) (k : Fin 30) (s : State) : Host.Outcome State Fault Refusal :=
  .next (s.doorbell p (SEL.CMD n) false (fun s => (s.setf (SEL.CMD_CAND n) k).readmit n k))

/-- FORCED is entered on an entry (R221, R229); an EMPTY one is followed by nothing, and its loops freeze. -/
def State.forceOn (s : State) (n k : Nat) : State :=
  if s.cstate n k ≠ 0 then (s.follow n k 4 5).forcedCheck n k
  else
    let a := s.active n
    let was := s.selState n
    let s := ((s.setf (SEL.STATUS_STATE n) 4).setf (SEL.STATUS_ACTIVE n) k).setf (SEL.STATUS_CAUSE n) 5
    let s := s.setf (SEL.STATUS_ACTIVE_RANK n) (s.rank n k)
    let s := s.evIf (was == 3) (SEL.EVENT_HOLDOVER_OUT n)
    let s := s.modSel n (fun c => { c with forceLost := false, returnLeft := 0 })
    ((((s.ev (SEL.EVENT_SWITCH n)).route (0x080 + n)).logSwitch n a).forcedCheck n k).selFollow n

/-- FORCED is left (R221). -/
def State.forceOff (s : State) (n : Nat) : State :=
  match s.best n with
  | some b => s.follow n b 1 6
  | none =>
    if (s.selC n).followed then s.selHoldover n
    else
      let a := s.active n
      let s := ((s.setf (SEL.STATUS_STATE n) 0).setf (SEL.STATUS_ACTIVE n) 0x1F).setf (SEL.STATUS_ACTIVE_RANK n) 0xF
      (s.logSwitch n a).selFollow n

/-- FORCE has been written over an old value (R221, R229). -/
def State.forceWritten (s : State) (n old : Nat) : State :=
  let new := s.w (SEL.FORCE n)
  if new = old then s
  else if s.on (SEL.FORCE_EN n) then s.forceOn n (s.f (SEL.FORCE_CAND n))
  else if bitAt old 31 then s.forceOff n
  else s

/-- CAND[k].CFG has been written over an old value (R207, R209, R218, R227). -/
def State.candWritten (s : State) (n k old : Nat) : State :=
  let s := s.refreshRank n k
  if s.f (SEL.CAND_CFG_PRIORITY n k) = old % 256 then s else (s.evaluate n 4).selFollow n

/-- CTRL has been written over an old value: the quality monitors follow QL_MODE, and one evaluation follows (R197, R217 to R219,
R227); a switch that it makes has CAUSE 1 (log entry 92, DESIGN CHOICE). -/
def State.selCtrlWritten (s : State) (n old : Nat) : State :=
  if (old ^^^ s.w (SEL.CTRL n)) % 4 = 0 then s
  else
    let s := s.forN (s.ncand n) (fun s k => s.setFault n k faultQl (s.qlFault n k))
    let s := s.forN (s.ncand n) (fun s k => (s.forcedCheck n k).entryMove n k)
    if s.activeFailed n then s.enterHoldoff n else s.evaluate n 1

/-- A landing has changed its kind (R192). -/
def State.kindChanged (s : State) (m : Nat) : State :=
  s.forL (s.entriesOf m) (fun s x =>
    let s := (s.loadLimits x.1 x.2).freshEntry x.1 x.2
    s.fault x.1 x.2 faultFreq true)

/-- ESMC_TIMEOUT (R204). -/
def execEsmcTimeout (n : Fin 8) (s : State) : Host.Outcome State Fault Refusal :=
  if s.landed ∧ s.prtBuilt n ∧ (s.prtC n).esmcAt + 10000000000 ≤ s.now then .next (s.giveRanks (20 + n) [1, 2] 0xF) else .next s

end Sys2Proof.Machine
end

