-- ==== Sys2Proof/Machine/Synth.lean ====
section
/-! DEFINITION. Synthesisers (10_synthesis_and_outputs.md): start, lock by counting, and the ramp generator. -/

namespace Sys2Proof.Machine

/-- BAND_CAL_DONE (R331 step 2). -/
def execBandCalDone (n : Fin 8) (band : Nat) (s : State) : Host.Outcome State Fault Refusal :=
  if (s.aplC n).phase = .bandCal then
    .next ((s.modApl n (fun c => { c with phase := .acquiring })).setf (APL.STATUS_BAND n) band)
  else .next s

/-- ANALOG_ACQ_DONE (R331 step 3). -/
def execAnalogAcqDone (n : Fin 8) (s : State) : Host.Outcome State Fault Refusal :=
  if (s.aplC n).phase = .acquiring then
    .next ((s.modApl n (fun c => { c with phase := .counting, inTol := 0, outTol := 0 })).setf (APL.STATUS_CAL n) 0)
  else .next s

/-- Lock is declared (R331 step 4, R333, R350). -/
def State.lockGained (s : State) (n : Nat) : State :=
  let s := (s.setf (APL.STATUS_LOCKED n) 1).ev (APL.EVENT_LOCK_GAINED n)
  (s.refreshSynth n).forL (s.outsOf n) (fun s m => if (s.outC m).pendStart ∧ s.isPulse m then s.runPulse m else s)

/-- Loss of lock (R332, R333, R363). -/
def State.lockLost (s : State) (n : Nat) : State :=
  let s := (s.setf (APL.STATUS_LOCKED n) 0).ev (APL.EVENT_LOCK_LOST n)
  let s := (s.inc (APL.LOCKSTAT_LOSSES n)).abortRamp n
  let s := (s.refreshSynth n).route (0x0B8 + n)
  s.report (0x240 + n) 0x0F (s.f (APL.LOCKSTAT_DEV n))

/-- A window in tolerance (R332). -/
def State.windowIn (s : State) (n : Nat) : State :=
  let s := s.modApl n (fun c => { c with inTol := min 63 (c.inTol + 1), outTol := 0 })
  if !s.on (APL.STATUS_LOCKED n) ∧ s.f (APL.LOCK_CNT n) ≤ (s.aplC n).inTol then s.lockGained n else s

/-- A window out of tolerance (R332). -/
def State.windowOut (s : State) (n : Nat) : State :=
  let k := (s.aplC n).outTol + 1
  let s := s.modApl n (fun c => { c with inTol := 0, outTol := k })
  let s := if s.on (APL.STATUS_LOCKED n) ∧ 2 ≤ k then s.lockLost n else s
  if 16 ≤ k then (s.startSynth n).ev (APL.EVENT_RECAL n) else s

/-- LOCK_WINDOW_END with the count difference of the window (R332). -/
def execLockWindowEnd (n : Fin 8) (dev : Int) (s : State) : Host.Outcome State Fault Refusal :=
  if (s.aplC n).phase = .counting then
    let s := s.setSat (APL.LOCKSTAT_DEV n) dev
    .next (if dev.natAbs ≤ s.f (APL.LOCK_TOL n) then s.windowIn n else s.windowOut n)
  else .next s

/-! Profiles. -/

/-- Limits of an output's frequency in µHz (R90). -/
def outLimits (m format : Nat) : Nat × Nat :=
  if m ≥ 24 then (2400000000000000, 12800000000000000)
  else if 4 ≤ format then (1000000, 250000000000000)
  else (1000000, 1600000000000000)

/-- An output's frequency at a VCO frequency lies within R90 under a divider. -/
def withinLimits (m format vco dint dfrac : Nat) : Bool :=
  let d := dint * 2 ^ 56 + dfrac
  let (lo, hi) := outLimits m format
  decide (lo * d ≤ vco * 2 ^ 56) && decide (vco * 2 ^ 56 ≤ hi * d)

/-- Every clock and sampling-grade output of a synthesiser stays within its limits at a VCO frequency (R335). -/
def State.outsWithin (s : State) (n vco : Nat) : Bool :=
  (s.outRecs.filter (fun r => r.synth == n && !r.isPulse)).all (fun r =>
    withinLimits r.number r.format vco (s.outC r.number).dint (s.outC r.number).dfrac)

/-- The segments satisfy R335 one after the other from a start frequency. -/
def State.segsValid (s : State) (n : Nat) : Nat → List Segment → Bool
  | _, [] => true
  | start, g :: t =>
    decide (9600000000000000 ≤ g.endUhz) && decide (g.endUhz ≤ 12800000000000000) && decide (1 ≤ g.durUs) &&
      decide (((g.endUhz : Int) - start).natAbs ≤ 50000000000 * g.durUs) && s.outsWithin n g.endUhz &&
      s.segsValid n g.endUhz t

/-- The profile loaded: segments 0 to j, of which only j carries LAST (R335). -/
def profileOf (segs : List (Option Segment)) : Option (List Segment) :=
  let lasts := (List.range segs.length).filter (fun i => ((segs.getD i none).map (·.last)).getD false)
  match lasts with
  | [j] =>
    let l := (segs.take (j + 1)).filterMap id
    if l.length = j + 1 then some l else none
  | _ => none

/-- RAMP_GO and the "start ramp" task (R335, R337, R363). -/
def State.rampGo (s : State) (n : Nat) : State × Code :=
  let c := s.aplC n
  match c.held, c.run with
  | some i, none =>
    let s := (s.modApl n (fun c => { c with held := none, run := some (i + 1, s.now), cut := false })).freeBand n
    let s := (s.setf (APL.STATUS_RAMP_HOLD n) 0).setf (APL.STATUS_RAMPING n) 1
    ((s.setf (APL.STATUS_SEG n) (i + 1)).setf (APL.STATUS_RAMP_CUT n) 0, .ok)
  | _, _ =>
    match profileOf c.segs with
    | none => (s, .badArgument)
    | some l => if s.segsValid n (s.nomNow n) l then (s.startRamp n l, .ok) else (s, .badArgument)

/-- RAMP_TO's effect (R336). -/
def State.rampTo (s : State) (p : Port) (n : Nat) (arm : Bool) : State × Code :=
  match s.mboxIn p 2 with
  | none => (s, .badArgument)
  | some ws =>
    let g := rampSegment (s.nomNow n) (ofWords ws) (s.f (APL.RAMP_RATE_KHZ_PER_MS n))
    if !s.on (APL.STATUS_LOCKED n) ∨ !s.segsValid n (s.nomNow n) [g] then (s, .badArgument)
    else
      let s := (s.mboxEmpty p).modApl n (fun c => { c with segs := [some g] })
      (if arm then s else s.startRamp n [g], .ok)

/-- RAMP_LOAD's effect (R334). -/
def State.rampLoad (s : State) (p : Port) (n k : Nat) : State × Code :=
  match s.mboxIn p 4 with
  | some [a, b, d, x] =>
    if x.toNat ≥ 4 ∨ d.toNat = 0 then (s, .badArgument)
    else
      let g := Segment.mk (a.toNat + 2 ^ 32 * b.toNat) d.toNat (bitAt x.toNat 1) (bitAt x.toNat 0)
      ((s.mboxEmpty p).modApl n (fun c => { c with
        segs := (c.segs ++ List.replicate (16 - c.segs.length) none).set k (some g) }), .ok)
  | _ => (s, .badArgument)

/-- What a write of CMD orders: ARM, SEG and OP. -/
def State.aplCommand (s : State) (p : Port) (n w : Nat) : State :=
  let s := s.setw (APL.CMD n) (bitsAt w 12 12 * 4096 + bitsAt w 11 0)
  let op := bitsAt w 3 0
  let (s, c) :=
    if op = 1 then s.rampTo p n (bitAt w 12)
    else if op = 2 then s.rampLoad p n (bitsAt w 11 8)
    else if op = 3 then s.rampGo n
    else if op = 4 then (s.abortRamp n, Code.ok)
    else if op = 5 then (s.mboxOut p (toWords 2 (s.nomNow n)), Code.ok)
    else (s, Code.badArgument)
  let s := s.complete (APL.CODE_CODE n) c
  if op = 1 ∨ op = 2 ∨ op = 3 ∨ op = 5 then s.ev (APL.EVENT_CMD_DONE n) else s

/-- RAMP_TO (R336). -/
def execRampTo (p : Port) (n : Fin 8) (arm : Bool) (s : State) : Host.Outcome State Fault Refusal :=
  .next (s.doorbell p (APL.CMD n) false (fun s => s.aplCommand p n (4096 * b2n arm + 1)))

/-- RAMP_LOAD (R334, R364). -/
def execRampLoad (p : Port) (n : Fin 8) (seg : BitVec 4) (s : State) : Host.Outcome State Fault Refusal :=
  .next (s.doorbell p (APL.CMD n) true (fun s => s.aplCommand p n (256 * seg.toNat + 2)))

/-- RAMP_GO (R337). -/
def execRampGo (p : Port) (n : Fin 8) (s : State) : Host.Outcome State Fault Refusal :=
  .next (s.doorbell p (APL.CMD n) false (fun s => s.aplCommand p n 3))

/-- RAMP_STOP (R339). -/
def execRampStop (p : Port) (n : Fin 8) (s : State) : Host.Outcome State Fault Refusal :=
  .next (s.doorbell p (APL.CMD n) false (fun s => s.aplCommand p n 4))

/-- FETCH_NOM (R336). -/
def execFetchNom (p : Port) (n : Fin 8) (s : State) : Host.Outcome State Fault Refusal :=
  .next (s.doorbell p (APL.CMD n) false (fun s => s.aplCommand p n 5))

/-- START_RAMP_TASK (R337, R392). -/
def execStartRampTask (n : Fin 8) (s : State) : Host.Outcome State Fault Refusal :=
  match s.takeRun (taskKey (0x60 + n) 0) with
  | some (_, s) => .next (stateOf (s.rampGo n))
  | none => .next s

/-- The generator goes on to a segment that begins at a time (R337). -/
def State.nextSegment (s : State) (n i t : Nat) : State :=
  ((s.modApl n (fun c => { c with run := some (i, t) })).freeBand n).setf (APL.STATUS_SEG n) i

/-- The generator is at an END and runs no longer. -/
def State.rampRest (s : State) (n : Nat) (held : Option Nat) : State :=
  let s := s.modApl n (fun c => { c with run := none, held := held, runSegs := if held.isSome then c.runSegs else [] })
  (s.freeBand n).setf (APL.STATUS_RAMPING n) 0

/-- RAMP_SEGMENT_END (R337, R338): LAST goes before HOLD. -/
def execRampSegmentEnd (n : Fin 8) (s : State) : Host.Outcome State Fault Refusal :=
  let c := s.aplC n
  match c.run with
  | none => .next s
  | some (i, since) =>
    match c.runSegs[i]? with
    | none => .next s
    | some g =>
      let s := s.setNom n g.endUhz
      if g.last then .next (((s.rampRest n none).ev (APL.EVENT_RAMP_DONE n)).route (0x0B0 + n))
      else if g.hold then
        let s := (s.rampRest n (some i)).setf (APL.STATUS_RAMP_HOLD n) 1
        .next ((s.ev (APL.EVENT_RAMP_HOLD n)).route (0x0B0 + n))
      else .next (s.nextSegment n (i + 1) (since + g.durUs * 2000))

end Sys2Proof.Machine
end

