-- ==== Sys2Proof/Machine/Outputs.lean ====
section
/-! DEFINITION. Outputs (10_synthesis_and_outputs.md): dividers, starts and re-alignments, groups, pulse outputs, and the ferry-hold
limit. -/

namespace Sys2Proof.Machine

/-! Dividers. -/

/-- The frequencies at which a new divider must fit: the nominal in force and the END of every segment that runs or is
prepared (R345). -/
def State.checkPoints (s : State) (n : Nat) : List Nat :=
  let c := s.aplC n
  s.nomNow n :: c.runSegs.map (·.endUhz) ++ (c.segs.filterMap id).map (·.endUhz)

/-- A divider is one that output m may take (R341, R345). -/
def State.divFits (s : State) (m dint dfrac : Nat) : Bool :=
  let n := s.f (OUT.CFG_SYNTH m)
  let fits := (s.checkPoints n).all (fun v =>
    withinLimits m (s.f (OUT.CFG_FORMAT m)) v dint dfrac && decide (100000000000 * (dint * 2 ^ 56 + dfrac) < v * 2 ^ 56))
  if m ≥ 24 then dfrac == 0 && (dint == 1 || dint == 2 || dint == 4) && fits
  else decide (4 ≤ dint) && fits

/-- DIV_LOAD's effect (R345). -/
def State.divLoad (s : State) (p : Port) (m : Nat) : State :=
  match s.mboxIn p 4 with
  | some [a, b, c, d] =>
    let dint := c.toNat + 2 ^ 32 * d.toNat
    let dfrac := a.toNat + 2 ^ 32 * b.toNat
    if b.toNat < 2 ^ 24 ∧ d.toNat < 2 ^ 8 ∧ !s.isPulse m ∧ s.divFits m dint dfrac then
      let s := (s.mboxEmpty p).modOut m (fun o => { o with newDiv := some (dint, dfrac) })
      (s.setf (OUT.STATUS_DIV_PEND m) 1).complete (OUT.DIVSTAT_CODE m) .ok
    else s.complete (OUT.DIVSTAT_CODE m) .badArgument
  | _ => s.complete (OUT.DIVSTAT_CODE m) .badArgument

/-- FETCH_DIV's effect: D in force in the layout of R345. -/
def State.fetchDiv (s : State) (p : Port) (m : Nat) : State :=
  let o := s.outC m
  s.mboxOut p (toWords 2 o.dfrac ++ toWords 2 o.dint)

/-- DIV_LOAD (R345). -/
def execDivLoad (p : Port) (m : Fin 28) (s : State) : Host.Outcome State Fault Refusal :=
  .next (s.doorbell p (OUT.CMD m) false (fun s => s.divLoad p m))

/-- FETCH_DIV (R345). -/
def execFetchDiv (p : Port) (m : Fin 28) (s : State) : Host.Outcome State Fault Refusal :=
  .next (s.doorbell p (OUT.CMD m) false (fun s => s.fetchDiv p m))

/-- DIV_APPLY: the end of the output's current period, at which a new SWING takes effect (R348). A running output that is to be re-aligned
holds its idle level from here to the sync point (R346), and a divider loaded while a start or re-alignment waits is taken there (R345,
R363). -/
def execDivApply (m : Fin 28) (s : State) : Host.Outcome State Fault Refusal :=
  let o := s.outC m
  let s := s.modOut m (fun c => { c with swing := s.f (OUT.CTRL_SWING m), held := c.held || (c.running && c.pendAlign) })
  .next (if o.running && o.pendAlign then s.refreshOut m
    else if o.pendStart || o.pendAlign then s else s.takeDivider m)

/-! Starts and re-alignments. -/

/-- OUT_ALIGN (R346, R358). -/
def execOutAlign (p : Port) (m : Fin 28) (s : State) : Host.Outcome State Fault Refusal :=
  .next (s.doorbell p (OUT.CMD m) false (fun s => s.realignOut m))

/-- REALIGN_OUTPUT_TASK (R346, R358, R392, R393). -/
def execRealignOutputTask (m : Fin 28) (s : State) : Host.Outcome State Fault Refusal :=
  match s.takeRun (taskKey (0x68 + m) 0) with
  | some (_, s) => .next (s.realignOut m)
  | none => .next s

/-- An output that waits begins its first period at a sync point (R346, R347, R350, R363); a start waits for its synthesiser's lock,
where CTRL.LOL_SQ asks for it. -/
def State.syncOut (s : State) (m : Nat) : State :=
  let o := s.outC m
  if !(o.pendStart || o.pendAlign) ∨ (o.pendStart ∧ s.waitsForLock m) then s
  else if s.isPulse m then s.runPulse m
  else
    let s := s.takeDivider m
    let s := s.modOut m (fun o => { o with
      running := true, pendStart := false, pendAlign := false, held := false, enabledOnce := true
      phaseInForce := s.f (OUT.PHASE_DELAY m), swing := s.f (OUT.CTRL_SWING m) })
    (s.setf (OUT.STATUS_ALIGN_PEND m) 0).refreshOut m

/-- SYNC_POINT of a synthesiser (R346). -/
def execSyncPoint (n : Fin 8) (s : State) : Host.Outcome State Fault Refusal :=
  .next (s.forL (s.outsOf n) State.syncOut)

/-! Groups. -/

/-- The outputs a mask names. -/
def maskOuts (mask : Nat) : List Nat := (List.range 28).filter (fun m => bitAt mask m)

/-- An ACTP-9640-EB may not have more than 16 of OUT[0–23] or two of OUT[24–27] enabled (R353). -/
def State.enableFits (s : State) (added : List Nat) : Bool :=
  let on := (List.range 28).filter (fun m => s.on (OUT.CTRL_EN m) || added.contains m)
  s.f TOP.ID_GRADE != 2 ||
    (decide ((on.filter (fun m => decide (m < 24))).length ≤ 16) &&
      decide ((on.filter (fun m => decide (24 ≤ m))).length ≤ 2))

/-- What a write of GROUP meets, but for the helms of the outputs, which a preload entry does not need (R129, R352, R353): the whole of it
is taken, or it is a bus error. -/
def State.groupRule (s : State) (n w : Nat) : Code :=
  let op := bitsAt w 31 30
  let ms := maskOuts (bitsAt w 27 0)
  if !ms.all (fun m => (s.outRec m).isSome) then .locked
  else if op = 0 ∨ !ms.all (fun m => (s.outsOf n).contains m) then .badArgument
  else if op = 1 ∧ !s.enableFits ms then .locked
  else .ok

/-- What a port's write of GROUP meets (R352, R353). -/
def State.groupCheck (s : State) (p : Port) (n w : Nat) : Code :=
  let ms := maskOuts (bitsAt w 27 0)
  if !ms.all (fun m => (s.outRec m).isSome) then .locked
  else if !ms.all (fun m => s.holds p (0x68 + m)) then .notHelm
  else s.groupRule n w

/-- What a write of GROUP that is taken orders (R352). -/
def State.groupDo (s : State) (n w : Nat) : State :=
  let op := bitsAt w 31 30
  let s := s.setw (APL.GROUP n) (op * 2 ^ 30 + bitsAt w 27 0)
  s.forL (maskOuts (bitsAt w 27 0)) (fun s m =>
    if op = 1 then s.enableOut m true else if op = 2 then s.realignOut m else s.enableOut m false)

/-- A write of GROUP (R352). -/
def State.aplGroup (s : State) (p : Port) (n w : Nat) : State :=
  match s.groupCheck p n w with
  | .ok => s.groupDo n w
  | c => s.busErr p true false (APL.GROUP n) c

/-- GROUP_ENABLE (R352). -/
def execGroupEnable (p : Port) (n : Fin 8) (mask : BitVec 28) (s : State) : Host.Outcome State Fault Refusal :=
  .next (s.doorbell p (APL.GROUP n) false (fun s => s.aplGroup p n (2 ^ 30 + mask.toNat)))

/-- GROUP_REALIGN (R352). -/
def execGroupRealign (p : Port) (n : Fin 8) (mask : BitVec 28) (s : State) : Host.Outcome State Fault Refusal :=
  .next (s.doorbell p (APL.GROUP n) false (fun s => s.aplGroup p n (2 * 2 ^ 30 + mask.toNat)))

/-- GROUP_DISABLE (R352). -/
def execGroupDisable (p : Port) (n : Fin 8) (mask : BitVec 28) (s : State) : Host.Outcome State Fault Refusal :=
  .next (s.doorbell p (APL.GROUP n) false (fun s => s.aplGroup p n (3 * 2 ^ 30 + mask.toNat)))

/-- CTRL has been written over an old value (R333, R349). -/
def State.outCtrlWritten (s : State) (m old : Nat) : State :=
  let new := s.f (OUT.CTRL_EN m)
  let s := if new = old % 2 then s else s.enableOut m (new != 0)
  s.refreshLol m (s.f (OUT.CFG_SYNTH m))

/-! Pulse outputs. -/

/-- The pulse clock has reached a point of the grid, OFFSET modulo P within the second, within its last two ticks (R356). -/
def OutCore.onGrid (c : OutCore) : Bool :=
  decide (((c.pcSub : Int) * 1000 - c.offPs * 2 ^ 56) % ((c.perNs : Int) * 1000 * 2 ^ 56) < 2000 * 2 ^ 56)

/-- PULSE_LEADING_EDGE (R348, R356 to R358, R391): a leading edge of a pulse output that makes edges; WIDTH and SWING come into force,
and the pulse lasts WIDTH, or half the period where that is 0. -/
def execPulseLeadingEdge (m : Fin 28) (s : State) : Host.Outcome State Fault Refusal :=
  let o := s.outC m
  if s.isPulse m ∧ s.on (OUT.STATUS_RUNNING m) ∧ (o.edgesFrom : Int) ≤ o.pulse ∧ o.onGrid then
    let w := s.f (OUT.WIDTH_NS m)
    .next ((s.modOut m (fun o => { o with
      widNs := w, swing := s.f (OUT.CTRL_SWING m), highUntil := s.now + if w = 0 then o.perNs else 2 * w })).route (0x0C0 + m))
  else .next s

/-- The level of a pulse output that runs (R356): INVERT exchanges the two. -/
def State.pulseLevel (s : State) (m : Nat) : Bool := (decide (s.now < (s.outC m).highUntil)) != s.on (OUT.CTRL_INVERT m)

/-- PDIFF_CHECK (R359). -/
def execPdiffCheck (m : Fin 28) (s : State) : Host.Outcome State Fault Refusal :=
  if !s.landed ∨ !s.isPulse m then .next s
  else
    let d := (s.tscC (s.f (OUT.CFG_ANCHOR m))).val - (s.outC m).pulse
    let ps := roundOpen 36 (d * 1000) (2 ^ 56)
    let bad := decide (s.f (OUT.ALIGN_TOL_PS m) * 2 ^ 56 < d.natAbs * 1000)
    let was := s.on (OUT.STATUS_MISALIGNED m)
    let s := (s.setSat (OUT.PDIFF_PS m) ps).setb (OUT.STATUS_MISALIGNED m) bad
    .next (s.evIf (bad && !was) (OUT.EVENT_MISALIGNED m))

/-- FERRY_LIMIT_EXPIRY (R146, R147, R319, R320): ferry hold has lasted FERRY_LIMIT of the image that last landed. -/
def execFerryLimitExpiry (s : State) : Host.Outcome State Fault Refusal :=
  let limit := ((s.fab.img.map Image.ferryS).getD 0) * 2000000000
  if !s.eng.ferry ∨ s.eng.limitHit ∨ s.now < s.eng.ferryFrom + limit then .next s
  else
    let s := { s with eng := { s.eng with limitHit := true } }
    .next (s.forL s.outRecs (fun s r =>
      if r.squelch = 2 ∨ !s.on (OUT.CTRL_EN r.number) then s else s.ferrySquelch r.number))

end Sys2Proof.Machine
end

