-- ==== Sys2Proof/Machine/TscCmds.lean ====
section
/-! DEFINITION. Commands and events of the time scales, the TODOUT lines and the event router's software events
(11_time_scales_and_events.md), and the checks of a step ticket (R566 to R568). -/

namespace Sys2Proof.Machine

/-! Operands. -/

/-- An increment of two words: a 48-bit number, sign-extended (R329, R372; log entry 29, DEDUCED). -/
def incOf (a b : Word) : Option Int :=
  let v := toSigned 64 (ofWords [a, b])
  if -(2 ^ 47 : Int) ≤ v ∧ v < 2 ^ 47 then some v else none

/-- An amount of three words (R372). -/
def amountOf (a b c : Word) : Int := toSigned 96 (ofWords [a, b, c])

/-- A value of four words, in 2⁻⁵⁶ ns (R372). -/
def valueOf (frac ns lo hi : Word) : Option Nat :=
  if ns.toNat < 1000000000 then
    some ((ofWords [lo, hi] * 1000000000 + ns.toNat) * 2 ^ 56 + frac.toNat * 2 ^ 24)
  else none

/-! Host commands. -/

/-- A loop is tied to the time scale (R373). -/
def State.tied (s : State) (k : Nat) : Bool := s.on (TSC.CFG_TIED k)

/-- An accepted SET_INC is timed (R373). -/
def incTaken (k : Nat) (r : State × Code) : State × Code :=
  if r.2 = .ok then (r.1.modTsc k (fun x => { x with lastInc := some r.1.now }), .ok) else r

/-- SET_INC (R372, R373, R377). -/
def State.tscSetInc (s : State) (p : Port) (k : Nat) : State × Code :=
  if s.tied k then (s, .locked)
  else
    match s.mboxIn p 2 with
    | some [a, b] =>
      match incOf a b with
      | none => (s, .badArgument)
      | some y =>
        let recent := match (s.tscC k).lastInc with | some t => decide (s.now < t + 2000000) | none => false
        if recent then (s, .busy)
        else incTaken k (s.tryInc k (hostSource p) y)
    | _ => (s, .badArgument)

/-- ADJUST (R374). -/
def State.tscAdjust (s : State) (p : Port) (k : Nat) : State × Code :=
  match s.mboxIn p 3 with
  | some [a, b, c] => s.tryAdjust k (hostSource p) (amountOf a b c)
  | _ => (s, .badArgument)

/-- STEP (R375). -/
def State.tscStepOp (s : State) (p : Port) (k : Nat) : State × Code :=
  match s.mboxIn p 3 with
  | some [a, b, c] => s.tryStep k (hostSource p) (amountOf a b c)
  | _ => (s, .badArgument)

/-- SET_TIME (R371, R372). -/
def State.tscSetTime (s : State) (p : Port) (k : Nat) : State × Code :=
  match s.mboxIn p 4 with
  | some [a, b, c, d] =>
    match valueOf a b c d with
    | some v => s.trySet k (hostSource p) v
    | none => (s, .badArgument)
  | _ => (s, .badArgument)

/-- SCHEDULE (R376). -/
def State.tscSchedule (s : State) (p : Port) (k : Nat) : State × Code :=
  if s.tied k then (s, .locked)
  else
    match s.mboxIn p 6 with
    | some [a, b, c, d, e, f] =>
      match incOf a b, valueOf c d e f with
      | some y, some v =>
        if v ≠ 0 ∧ (v : Int) < (s.tscC k).val then (s, .badArgument)
        else
          let s := s.evIf (s.tscC k).sched.isSome (TSC.EVENT_SCHED_REPLACED k)
          let due := if v = 0 then none else some (v / (1000000000 * 2 ^ 56), v % (1000000000 * 2 ^ 56))
          ((s.modTsc k (fun x => { x with sched := some (y, due) })).setf (TSC.STATUS_SCHED_PEND k) 1, .ok)
      | _, _ => (s, .badArgument)
    | _ => (s, .badArgument)

/-- CANCEL_SCHED (R376). -/
def State.tscCancel (s : State) (k : Nat) : State × Code :=
  if s.tied k then (s, .locked)
  else ((s.modTsc k (fun x => { x with sched := none })).setf (TSC.STATUS_SCHED_PEND k) 0, .ok)

/-- SNAP: FRAC, NS, SECONDS and the status word. -/
def State.tscSnap (s : State) (p : Port) (k : Nat) : State × Code :=
  let c := s.tscC k
  (s.mboxOut p ([BitVec.ofNat 32 c.frac, BitVec.ofNat 32 c.ns] ++ toWords 2 c.sec ++
    [BitVec.ofNat 32 (s.w (TSC.STATUS k) % 32)]), .ok)

/-- SET_THRESH (R380). -/
def State.tscThresh (s : State) (p : Port) (k : Nat) : State × Code :=
  match s.mboxIn p 2 with
  | some ws =>
    let v := ofWords ws
    if v = 0 ∨ (s.tscC k).imageThresh < v then (s, .badArgument)
    else ((s.modTsc k (fun x => { x with thresh := v })).setw (TSC.THRESH32 k) (satBits 32 v), .ok)
  | none => (s, .badArgument)

/-- A request arrives at the verify unit (R553). -/
def State.verifyArrives (s : State) (r : VerifyReq) : State := { s with sec := { s.sec with verify := s.sec.verify ++ [r] } }

/-- A request has been served by the verify unit. -/
def State.verifyServed (s : State) (r : VerifyReq) : State := { s with sec := { s.sec with verify := s.sec.verify.erase r } }

/-- What the verify unit makes wait for the requests behind it in these commands: a ticket. A label request and an image are served somewhere
before their operations end, and the other signed requests as soon as their turn comes. -/
def VerifyReq.holds (r : VerifyReq) : Bool :=
  match r with
  | .ticket _ => true
  | .request => false
  | .image => false

/-- No ticket that arrived earlier waits for the verify unit (R553). -/
def State.verifyTurn (s : State) (r : VerifyReq) : Bool := (s.sec.verify.takeWhile (fun x => x != r)).all (fun x => !x.holds)

/-- STEP_TICKET hands the amount and the ticket to the enclave, and the time scale is BUSY (R379, R553, R567). A mailbox that holds fewer words
than both is for the enclave to judge (R567, check 1). -/
def State.tscTicket (s : State) (p : Port) (k : Nat) : State :=
  match s.mboxAll p with
  | some ws =>
    let ref := if s.on (TSC.STATUS_SET k) then (s.tscC k).sec else (s.tscC k).floor
    let amount := amountOf (ws.getD 0 0) (ws.getD 1 0) (ws.getD 2 0)
    let s := s.modTsc k (fun x => { x with ticket := some ⟨amount, p, ws.drop 3, ref, s.sec.taKey⟩ })
    (s.verifyArrives (.ticket k)).setf (TSC.STATUS_BUSY k) 1
  | none => s.complete (TSC.CODE_CODE k) .badArgument

/-- An operation of CMD that completes at once. -/
def State.tscOp (s : State) (p : Port) (k op : Nat) : State × Code :=
  if op = 1 then s.tscSetInc p k else if op = 2 then s.tscAdjust p k else if op = 3 then s.tscStepOp p k
  else if op = 5 then s.tscSetTime p k else if op = 6 then s.tscSchedule p k else if op = 7 then s.tscCancel k
  else if op = 8 then s.tscSnap p k else if op = 9 then s.tscThresh p k else (s, .badArgument)

/-- The operation takes mailbox input. -/
def tscTakes (op : Nat) : Bool := op == 1 || op == 2 || op == 3 || op == 5 || op == 6 || op == 9

/-- What a write of CMD.OP does; input that was taken leaves the mailbox when the code is OK (R597). -/
def State.tscCommand (s : State) (p : Port) (k op : Nat) : State :=
  if s.on (TSC.STATUS_BUSY k) then s.complete (TSC.CODE_CODE k) .busy
  else if op = 4 then s.tscTicket p k
  else
    let (s, c) := s.tscOp p k op
    (s.when (c == .ok && tscTakes op) (fun s => s.mboxEmpty p)).complete (TSC.CODE_CODE k) c

/-- SET_INC (R372). -/
def execSetInc (p : Port) (n : Fin 8) (s : State) : Host.Outcome State Fault Refusal :=
  .next (s.doorbell p (TSC.CMD n) false (fun s => s.tscCommand p n 1))

/-- ADJUST (R374). -/
def execAdjust (p : Port) (n : Fin 8) (s : State) : Host.Outcome State Fault Refusal :=
  .next (s.doorbell p (TSC.CMD n) false (fun s => s.tscCommand p n 2))

/-- STEP (R375). -/
def execTscStep (p : Port) (n : Fin 8) (s : State) : Host.Outcome State Fault Refusal :=
  .next (s.doorbell p (TSC.CMD n) false (fun s => s.tscCommand p n 3))

/-- STEP_TICKET (R379). -/
def execStepTicket (p : Port) (n : Fin 8) (s : State) : Host.Outcome State Fault Refusal :=
  .next (s.doorbell p (TSC.CMD n) false (fun s => s.tscCommand p n 4))

/-- SET_TIME (R371, R372). -/
def execSetTime (p : Port) (n : Fin 8) (s : State) : Host.Outcome State Fault Refusal :=
  .next (s.doorbell p (TSC.CMD n) false (fun s => s.tscCommand p n 5))

/-- SCHEDULE, a pilot-level command (R376). -/
def execSchedule (p : Port) (n : Fin 8) (s : State) : Host.Outcome State Fault Refusal :=
  .next (s.doorbell p (TSC.CMD n) true (fun s => s.tscCommand p n 6))

/-- CANCEL_SCHED, a pilot-level command (R376). -/
def execCancelSched (p : Port) (n : Fin 8) (s : State) : Host.Outcome State Fault Refusal :=
  .next (s.doorbell p (TSC.CMD n) true (fun s => s.tscCommand p n 7))

/-- SNAP (R372). -/
def execSnap (p : Port) (n : Fin 8) (s : State) : Host.Outcome State Fault Refusal :=
  .next (s.doorbell p (TSC.CMD n) false (fun s => s.tscCommand p n 8))

/-- SET_THRESH (R380). -/
def execSetThresh (p : Port) (n : Fin 8) (s : State) : Host.Outcome State Fault Refusal :=
  .next (s.doorbell p (TSC.CMD n) false (fun s => s.tscCommand p n 9))

/-! Step tickets. -/

/-- DEVICE_ID, the 16 bytes that SEC.DEVID shows. -/
def State.deviceId (s : State) : List Byte := (List.range 4).flatMap (fun k => beBytes 4 (s.w (SEC.DEVID k)))

/-- The last accepted ticket serial (R568). -/
def State.ticketSerial (s : State) : Nat := s.w SEC.TICKET_HI * 2 ^ 32 + s.w SEC.TICKET_LO

/-- The reason at which the checks of a ticket fail, or 0 when every check passes (R567). -/
def State.ticketReason (s : State) (k : Nat) (j : TicketJob) : Nat :=
  let t := wordsBe (j.words.take 44)
  let nb := beAt t 0x30 8
  let na := beAt t 0x38 8
  let magic := t.length = 176 ∧ slice t 0 5 = [0x41, 0x43, 0x54, 0x54, 1] ∧ beAt t 6 2 < 2 ∧ beAt t 0x2C 4 = 0 ∧ beAt t 0x48 8 = 0
  if ¬ magic then 1
  else if beAt t 5 1 ≠ k then 2
  else if slice t 8 16 ≠ s.deviceId then 3
  else if toSigned 96 (beAt t 0x20 12) ≠ j.amount then 4
  else if ¬ (nb ≤ j.ref ∧ j.ref ≤ na ∧ na ≤ nb + 604800) then 5
  else if beAt t 0x18 8 ≤ s.ticketSerial then 6
  else if !((j.key.map (fun key => Config.ecdsaVerify key (Config.sha384 (t.take 0x50)) (slice t 0x50 96))).getD false) then 7
  else if s.guarded k ((s.tscC k).val + j.amount * 2 ^ 24) ∧ beAt t 6 2 % 2 = 0 then 8
  else 0

/-- A ticket is rejected (R567). -/
def State.ticketRejected (s : State) (k reason : Nat) : State :=
  let s := (s.setf SEC.TICKET_WHY_REASON reason).setf SEC.TICKET_WHY_TSC k
  (s.inc SEC.REJECTS_TICKET).secEvent SEC.EVENT_TICKET_REJECT reason k

/-- A ticket is accepted: the serial is committed, then the step is released (R379, R568). -/
def State.ticketAccepted (s : State) (k : Nat) (j : TicketJob) : State :=
  let serial := beAt (wordsBe j.words) 0x18 8
  let s := (s.setw SEC.TICKET_LO serial).setw SEC.TICKET_HI (serial / 2 ^ 32)
  ((s.becomeSet k).doStep k (hostSource j.port).num true j.amount).mboxEmpty j.port

/-! What the counting of a time scale brings. -/

/-- A leap at the rollover that ends a UTC day (R390): where LEAP61 is set at the end of the day's 86,400 s, one second more begins, and the
day ends after it. -/
def State.leap (s : State) (n : Nat) : State :=
  let o := s.fi (TSC.TOD_CFG_UTC_OFS n)
  let u := (((s.tscC n).sec : Int) - o) % 86400
  let was := (s.tscC n).leaping
  let s := s.modTsc n (fun c => { c with leaping := u == 0 && s.on (TSC.TOD_CFG_LEAP61 n) })
  if was ∧ u = 1 then
    ((s.seti (TSC.TOD_CFG_UTC_OFS n) (o + 1)).setf (TSC.TOD_CFG_LEAP61 n) 0).ev (TSC.EVENT_LEAP_DONE n)
  else if s.on (TSC.TOD_CFG_LEAP59 n) ∧ u = 86399 then
    ((s.seti (TSC.TOD_CFG_UTC_OFS n) (o - 1)).setf (TSC.TOD_CFG_LEAP59 n) 0).ev (TSC.EVENT_LEAP_DONE n)
  else s

/-- Each line of a time scale has the message of the new second to send; one that was not sent is counted (R387). -/
def State.todDue (s : State) (n : Nat) : State :=
  s.forN 2 (fun s k =>
    if !s.todBound k n || !s.landed then s
    else
      let late := (s.todC k).due && s.on (TSC.TODOUT_CTRL_EN n k)
      let s := if late then (s.inc (TSC.TODOUT_STAT_OVERRUN n k)).ev (TSC.EVENT_TOD_OVERRUN n) else s
      s.modTod k (fun c => { c with due := true, since := s.now }))

/-- A second rollover (R367): the whole second is taken off NS. -/
def TscCore.roll (c : TscCore) : TscCore :=
  { c with sec := c.sec + 1, sub := c.sub - 1000000000 * 2 ^ 56 }

/-- SECOND_ROLLOVER (R367, R387, R390, R391, R510, R513): an unbuilt time scale counts, and tells nobody (R76, R369). -/
def execSecondRollover (n : Fin 8) (s : State) : Host.Outcome State Fault Refusal :=
  if (s.tscC n).sub < 1000000000 * 2 ^ 56 then .next s else
  let s := s.modTsc n TscCore.roll
  if !s.tscBuilt n then .next s else
  let s := (s.ev (TSC.EVENT_SECOND n)).route (0x090 + n)
  .next (((s.leap n).todDue n).billSecond n)

/-- MANIFEST_SIGNED (R514, R518). -/
def execManifestSigned (s : State) : Host.Outcome State Fault Refusal := .next s.signNext

/-- ADJUST_COMPLETE (R374): the remainder has reached 0. -/
def execAdjustComplete (n : Fin 8) (s : State) : Host.Outcome State Fault Refusal :=
  if s.on (TSC.STATUS_ADJUSTING n) ∧ (s.tscC n).rem = 0 then
    .next ((s.setf (TSC.STATUS_ADJUSTING n) 0).ev (TSC.EVENT_ADJ_DONE n))
  else .next s

/-- SCHEDULED_INCREMENT_DUE (R376): an increment that waits for a value of the time scale. -/
def execScheduledIncrementDue (n : Fin 8) (s : State) : Host.Outcome State Fault Refusal :=
  match (s.tscC n).sched with
  | some (_, some (sec, sub)) =>
    .next (if ((sec * 1000000000 * 2 ^ 56 + sub : Nat) : Int) ≤ (s.tscC n).val then s.applySched n else s)
  | _ => .next s

/-- "Apply scheduled increment" (R372, R376): an increment that waits for a value of the time scale does not wait for the task. -/
def State.schedTask (s : State) (n : Nat) : State :=
  match (s.tscC n).sched with
  | some (_, none) => s.applySched n
  | _ => s

/-- APPLY_SCHED_TASK (R376, R392). -/
def execApplySchedTask (n : Fin 8) (s : State) : Host.Outcome State Fault Refusal :=
  match s.takeRun (taskKey (0x88 + n) 0) with
  | some (_, s) => .next (s.schedTask n)
  | none => .next s

/-! Time-of-day lines. -/

/-- The characters of a text. -/
def chars (t : String) : List Byte := t.toList.map (fun c => BitVec.ofNat 8 c.toNat)

/-- `n` decimal digits of a number. -/
def digits : Nat → Nat → List Byte
  | 0, _ => []
  | n + 1, v => BitVec.ofNat 8 (48 + v / 10 ^ n % 10) :: digits n v

/-- An upper-case hexadecimal digit. -/
def hexDigit (v : Nat) : Byte := BitVec.ofNat 8 (if v < 10 then 48 + v else 55 + v)

/-- Year, month and day of a count of days from 1970-01-01 of the Gregorian calendar. -/
def civil (days : Nat) : Nat × Nat × Nat :=
  let z := days + 719468
  let era := z / 146097
  let doe := z % 146097
  let yoe := (doe - doe / 1460 + doe / 36524 - doe / 146096) / 365
  let doy := doe - (365 * yoe + yoe / 4 - yoe / 100)
  let mp := (5 * doy + 2) / 153
  let m := if mp < 10 then mp + 3 else mp - 9
  (yoe + era * 400 + (if m ≤ 2 then 1 else 0), m, doy - (153 * mp + 2) / 5 + 1)

/-- The UTC date, and the second within it, of the second in progress; a leap second shows as 23:59:60 of the day before it
(R389, R390). -/
def State.utcOf (s : State) (n : Nat) : Nat × Nat × Nat × Nat :=
  let u := ((s.tscC n).sec : Int) - s.fi (TSC.TOD_CFG_UTC_OFS n)
  let leap := (s.tscC n).leaping && u % 86400 == 0
  let day := (u / 86400 - (if leap then 1 else 0)).toNat
  let (y, m, d) := civil day
  (y, m, d, if leap then 86400 else (u % 86400).toNat)

/-- The ZDA sentence (R389). -/
def State.zda (s : State) (n : Nat) : List Byte :=
  let (y, m, d, t) := s.utcOf n
  let hms := if t = 86400 then digits 6 235960 else digits 2 (t / 3600) ++ digits 2 (t / 60 % 60) ++ digits 2 (t % 60)
  let body := chars "GPZDA," ++ hms ++ chars ".00," ++ digits 2 d ++ chars "," ++ digits 2 m ++ chars "," ++ digits 4 y ++
    chars ",00,00"
  let cs := body.foldl (fun a b => a ^^^ b) 0
  chars "$" ++ body ++ chars "*" ++ [hexDigit (cs.toNat / 16), hexDigit (cs.toNat % 16), 13, 10]

/-- The device's own message (R388). -/
def State.ownTod (s : State) (n k : Nat) : List Byte :=
  let c := s.tscC n
  let stepped := match c.steppedAt with | some t => decide (s.now ≤ t + 60 * 2000000000) | none => false
  let flags := s.f (TSC.TOD_CFG_LEAP61 n) + 2 * s.f (TSC.TOD_CFG_LEAP59 n) + 4 * s.f (TSC.TOD_CFG_UTC_VALID n) +
    8 * s.f (TSC.STATUS_TRACEABLE n) + 16 * s.f (TSC.STATUS_ADJUSTING n) + 32 * b2n stepped
  let h := [0xAC, 0x54, 1, 28] ++ beBytes 8 c.sec ++ beBytes 2 (s.f (TSC.TOD_CFG_UTC_OFS n)) ++ beBytes 1 flags ++
    beBytes 1 (s.f (TSC.STATUS_SET n)) ++ beBytes 1 (s.f (TSC.TOD_QUAL_CLASS n)) ++ beBytes 1 (s.f (TSC.TOD_QUAL_ACCURACY n)) ++
    beBytes 1 n ++ [0] ++ beBytes 2 (s.f (TSC.TODOUT_STAT_SENT n k)) ++ [0, 0]
  h ++ beBytes 4 (crc32c h)

/-- The baud rate of a TODOUT line (R386). -/
def baudOf (code : Nat) : Nat := [9600, 19200, 38400, 57600, 115200, 230400, 460800, 921600].getD code 9600

/-- How long a message of n characters takes at a baud rate, in T, rounded up: each has a start bit, 8 data bits and a stop bit (R386). -/
def todTime (baud n : Nat) : Nat := ceilDiv (n * 10 * 2000000000) baud

/-- A message of n characters that starts now ends before the window after the next rollover of its time scale (R387). -/
def State.todFits (s : State) (r : TodoutRec) (n : Nat) : Bool :=
  let c := s.tscC r.tsc
  decide ((todTime (baudOf r.baud) n : Int) * c.adv ≤ 2 * (1000000000 * 2 ^ 56 - (c.sub : Int)) + 2000000 * c.adv)

/-- The level of a TODOUT line: the bits of its last message, each character least significant bit first between a start and a stop bit, and
the mark level when it idles (R386). -/
def State.todLevel (s : State) (k : Nat) : Bool :=
  let c := s.todC k
  let bit := (s.now - c.sentAt) * baudOf (((s.todRec k).map (·.baud)).getD 0) / 2000000000
  match c.last[bit / 10]? with
  | none => true
  | some ch => if bit % 10 = 0 then false else if bit % 10 = 9 then true else ch.getLsbD (bit % 10 - 1)

/-- TODOUT_MESSAGE (R386 to R389). -/
def execTodoutMessage (k : Fin 2) (s : State) : Host.Outcome State Fault Refusal :=
  match s.todRec k with
  | none => .next s
  | some r =>
    if !s.landed ∨ !(s.todC k).due ∨ !(s.todC k).window s.now then .next s
    else
      let n := r.tsc
      let quiet := !s.on (TSC.TODOUT_CTRL_EN n k) ||
        (r.format == 1 && (!s.on (TSC.STATUS_SET n) || !s.on (TSC.TOD_CFG_UTC_VALID n)))
      if quiet then .next (s.modTod k (fun c => { c with due := false }))
      else
        let m := if r.format = 1 then s.zda n else s.ownTod n k
        if !s.todFits r m.length then
          .next (((s.modTod k (fun c => { c with due := false })).inc (TSC.TODOUT_STAT_OVERRUN n k)).ev (TSC.EVENT_TOD_OVERRUN n))
        else .next ((s.modTod k (fun c => { c with due := false, last := m, sentAt := s.now })).incWrap (TSC.TODOUT_STAT_SENT n k))

/-! Software events. -/

/-- The bits of a write of EVR.SWEVT, in ascending order (R394). -/
def State.swEvents (s : State) (mask : Nat) : State :=
  s.forL ((List.range 16).filter (fun k => bitAt mask k)) (fun s k =>
    if (s.routesOf (0x300 + k)).isEmpty then s.ev EVR.EVENT_SWEVT_MISS else s.route (0x300 + k))

/-- SWEVT (R391). -/
def execSwevt (p : Port) (mask : BitVec 16) (s : State) : Host.Outcome State Fault Refusal :=
  .next (s.doorbell p EVR.SWEVT false (fun s => s.swEvents mask.toNat))

end Sys2Proof.Machine
end

