-- ==== Sys2Proof/Machine/PortCmds.lean ====
section
/-! DEFINITION. Ethernet ports (12_ethernet_ports.md): link states, receive filtering and the receive buffer, flow control, ESMC,
wake patterns, the port's own commands, and the frames of the host. -/

namespace Sys2Proof.Machine

/-- The port is built, an image has landed, and the port's receiver is at work. -/
def State.prtLive (s : State) (n : Nat) : Bool := s.landed && s.prtBuilt n

/-! Link. -/

/-- The settling count of the port link return starts (R18, R185, R407). -/
def State.startLinkSettle (s : State) (n : Nat) : State :=
  let s := (s.setf (PRT.STATUS_SETTLING n) 1).modPrt n (fun c => { c with settleAt := s.now, settleFrames := 0 })
  (s.modLnd (20 + n) (fun c => { c with linkSettle := true })).refreshSettling (20 + n)

/-- Octets that host frames take in the receive buffer (R426). -/
def PrtCore.rxUsed (c : PrtCore) : Nat := (c.rx.map (fun f => f.bytes.length)).sum

/-- Watermarks: PAUSE when the occupancy reaches HIGH, quanta 0 when it falls to LOW (R428). -/
def State.watermark (s : State) (n : Nat) : State :=
  let occ := (s.prtC n).rxUsed
  if !s.on (PRT.PAUSE_TX_EN n) then s
  else if !s.on (PRT.STATUS_PAUSING n) then
    (if s.f (PRT.WMARK_HIGH n) * 1024 ≤ occ then s.sendPause n (s.f (PRT.PAUSE_QUANTA n)) else s)
  else if occ ≤ s.f (PRT.WMARK_LOW n) * 1024 then s.sendPause n 0
  else s

/-- What adaptation has converged to: eye height and CTLE code are the receiver's own (log entry 3, DESIGN CHOICE); FREEZE has stopped it
(R437). -/
def State.eqConverged (s : State) (n : Nat) : State :=
  if s.on (PRT.EQ_CTRL_FREEZE n) then s.setEq n 4
  else
    let v := s.free 20
    let s := (s.took.setf (PRT.EQ_STAT_EYE_MV n) v).setEq n 4
    s.setf (PRT.EQ_STAT_CTLE n) (if s.on (PRT.EQ_CTRL_MANUAL n) then s.f (PRT.EQ_CTRL_CTLE n) else v / 2 ^ 16)

/-- A signal is detected (R405, R407 step 1): adaptation will be warm within 1 s of the loss, unless cold is forced; else cold. -/
def State.signalDetected (s : State) (n : Nat) : State :=
  let warm := (match (s.prtC n).lostAt with | some t => decide (s.now ≤ t + 2000000000) | none => false) &&
    !s.on (PRT.CTRL_EQ_COLD n)
  let s := s.modPrt n (fun c => { c with signal := true, warm := warm })
  s.when s.landed (fun s => s.setEq n 1)

/-- LINK_SIGNAL_DETECT (R404, R405, R407 steps 1 to 3; log entry 90, DESIGN CHOICE): a signal is detected, the CDR has locked, adaptation has
reached TRACK. -/
def execLinkSignalDetect (x : LinkReturn) (s : State) : Host.Outcome State Fault Refusal :=
  let n := x.port
  let c := s.prtC n
  if (s.landed ∧ !s.prtBuilt n) ∨ (s.on (PRT.STATUS_DORMANT n) ∧ 2 ≤ n.val) then .next s
  else
    match x.step with
    | .signal => .next (if c.signal then s else s.signalDetected n)
    | .cdrLock => .next (if c.signal ∧ s.f (PRT.STATUS_EQ n) = 1 then s.setEq n (if c.warm then 3 else 2) else s)
    | .tracking => .next (if c.signal ∧ (s.f (PRT.STATUS_EQ n) = 2 ∨ s.f (PRT.STATUS_EQ n) = 3) then s.eqConverged n else s)

/-- The receiver of a port is in lock (R404, R406, R407 steps 2 to 5); one that tracks keeps its equalisation. -/
def State.lockUp (s : State) (n : Nat) : State :=
  let s := if s.f (PRT.STATUS_EQ n) = 4 then s else s.eqConverged n
  let s := s.setf ⟨PRT.STATUS n, 6, 4⟩ 0
  (s.setf (PRT.STATUS_BLOCK_LOCK n) 1).setb (PRT.STATUS_FEC_LOCK n) (s.f (PRT.CFG_MODE n) == 2)

/-- The port comes up (R406, R407 step 6, R428, R435). -/
def State.portUp (s : State) (n : Nat) : State :=
  let s := (s.lockUp n).setf (PRT.STATUS_LINK n) 1
  let s := (s.ev (PRT.EVENT_LINK_UP n)).startLinkSettle n
  ((s.modPrt n (fun c => { c with holding := false, esmcAt := s.now })).drainAll n).watermark n

/-- LINK_UP (R406, R407, R409): the receiver has come into lock; a port that is held down, or dormant with its receiver powered, has its lock
and is not up. -/
def execLinkUp (n : Fin 8) (s : State) : Host.Outcome State Fault Refusal :=
  if s.prtLive n ∧ !(s.on (PRT.STATUS_DORMANT n) ∧ 2 ≤ n.val) ∧ !s.on (PRT.STATUS_LINK n) ∧ (s.prtC n).signal then
    .next (if s.on (PRT.CTRL_ADMIN n) ∧ !s.on (PRT.STATUS_DORMANT n) then s.portUp n else s.lockUp n)
  else .next s

/-- 1 ms in units of T. -/
abbrev msT : Nat := 2000000

/-- A frame received counts for the end of settling once lock has held for 1 ms (R18, R407 step 7). -/
def State.settleFrame (s : State) (n : Nat) : State :=
  s.when (s.on (PRT.STATUS_SETTLING n) && decide ((s.prtC n).settleAt + msT ≤ s.now)) (fun s =>
    s.modPrt n (fun c => { c with settleFrames := c.settleFrames + 1 }))

/-- LINK_SETTLED (R407 step 7): lock has held for 1 ms, and 16 frames have been received since. -/
def execLinkSettled (n : Fin 8) (s : State) : Host.Outcome State Fault Refusal :=
  if s.on (PRT.STATUS_LINK n) ∧ (s.prtC n).settleAt + msT ≤ s.now ∧ 16 ≤ (s.prtC n).settleFrames then
    let s := s.setf (PRT.STATUS_SETTLING n) 0
    .next ((s.modLnd (20 + n) (fun c => { c with linkSettle := false })).refreshSettling (20 + n))
  else .next s

/-- The signal of a receiver is lost (R405). -/
def PrtCore.signalLost (c : PrtCore) (now : Nat) : PrtCore :=
  { c with signal := false, lostAt := if c.signal then some now else c.lostAt }

/-- LINK_DOWN (R406, R407): signal, block lock or FEC lock is lost, or the BER is high; while no image is landed, the lock has not
held through the reset (R408). A frame that is cut off is discarded and counted (R435). -/
def execLinkDown (n : Fin 8) (x : LinkEnd) (s : State) : Host.Outcome State Fault Refusal :=
  if !s.landed then
    .next (s.modPrt n (fun c => { (if x.why = .signal then c.signalLost s.now else c) with rode := false }))
  else if !(s.prtLive n && (s.prtC n).signal) then .next s
  else
    let s := s.when (x.cut && s.on (PRT.STATUS_LINK n)) (fun s => s.count n 7)
    match x.why with
    | .signal =>
      let s := (s.portDown n).modPrt n (fun c => c.signalLost s.now)
      .next (if s.on (PRT.STATUS_DORMANT n) ∧ 2 ≤ n.val then s else s.setEq n 1)
    | .blockLock => .next (
        if s.on (PRT.STATUS_LINK n) then s.portDown n
        else if s.on (PRT.STATUS_BLOCK_LOCK n) then
          (((s.setf (PRT.STATUS_BLOCK_LOCK n) 0).setf (PRT.STATUS_FEC_LOCK n) 0).setf (PRT.STATUS_LF n) 1).loseActivity (20 + n)
        else s)
    | .fecLock => .next (
        if s.f (PRT.CFG_MODE n) ≠ 2 then s
        else
          let up := s.on (PRT.STATUS_LINK n)
          let s := ((if up then s.portDownWith n true else s).setf (PRT.STATUS_FEC_LOCK n) 0).setf (PRT.STATUS_LF n) 1
          if up then s.loseActivity (20 + n) else s)
    | .highBer => .next (
        if !s.on (PRT.STATUS_BLOCK_LOCK n) then s
        else
          let up := s.on (PRT.STATUS_LINK n)
          let s := ((if up then s.portDownWith n true else s).setf (PRT.STATUS_HI_BER n) 1).setf (PRT.STATUS_LF n) 1
          let s := s.ev (PRT.EVENT_HI_BER n)
          if up then s.loseActivity (20 + n) else s)

/-- A general frame is kept for the link. -/
def discardGeneral (c : PrtCore) : PrtCore :=
  let gone := (c.queued.filter (fun f => !f.isEvent)).length
  let keep := fun (q : List TxFrame) => q.filter TxFrame.isEvent
  { (c.addStat 17 gone) with
    qx := keep c.qx, q3 := keep c.q3, q2 := keep c.q2, q1 := keep c.q1, q0 := keep c.q0, holding := false }

/-- LINK_HOLD_EXPIRY (R435): the port has been down for HOLD_MS. -/
def execLinkHoldExpiry (n : Fin 8) (s : State) : Host.Outcome State Fault Refusal :=
  if (s.prtC n).holding ∧ !s.on (PRT.STATUS_LINK n) ∧ (s.prtC n).downAt + s.f (PRT.CTRL_HOLD_MS n) * msT ≤ s.now then
    .next (s.modPrt n discardGeneral)
  else .next s

/-! Receive filtering. -/

/-- The EtherType behind up to `k` tags, and the payload after it (R401). -/
def etherOf : Nat → List Byte → Nat × List Byte
  | 0, b => (beAt b 0 2, b.drop 2)
  | k + 1, b => if beAt b 0 2 = 0x8100 ∨ beAt b 0 2 = 0x88A8 then etherOf k (b.drop 4) else (beAt b 0 2, b.drop 2)

/-- EtherType and payload of a frame. -/
def frameType (b : List Byte) : Nat × List Byte := etherOf 2 (b.drop 12)

/-- The station address of a port. -/
def State.macOf (s : State) (n : Nat) : Nat := s.f (PRT.MAC_HI_ADDR n) * 2 ^ 32 + s.w (PRT.MAC_LO n)

/-- Hash bin of a destination address (R425). -/
def hashBin (b : List Byte) : Nat := crc32 (b.take 6) / 2 ^ 23

/-- R424. -/
def State.accepts (s : State) (n : Nat) (b : List Byte) : Bool :=
  let d := beAt b 0 6
  let h := hashBin b
  d == s.macOf n || d == 0x011B19000000 || d == 0x0180C200000E || d == 0x0180C2000002 ||
    (if d = 0xFFFFFFFFFFFF then !s.on (PRT.CTRL_BCAST_DROP n)
     else beAt b 0 1 % 2 == 1 && bitAt (s.w (PRT.HASH n (h / 32))) (h % 32)) ||
    s.on (PRT.CTRL_PROMISC n)

/-- A frame with a right check sequence and a permitted length is counted; any other is discarded and counted (R402, R438;
log entry 31, DEDUCED). -/
def State.rxCount (s : State) (n : Nat) (b : List Byte) (fcsOk : Bool) : State × Bool :=
  let len := b.length + 4
  let s := if fcsOk then s else s.count n 7
  let s := if len < 64 then s.count n 8 else if s.f (PRT.MTU_OCTETS n) < len then s.count n 9 else s
  if fcsOk ∧ 64 ≤ len ∧ len ≤ s.f (PRT.MTU_OCTETS n) then
    ((s.modPrt n (fun c => (c.addStat 5 1).addStat 1 len)).settleFrame n, true)
  else (s, false)

/-! Wake patterns. -/

/-- The octets that the four words of a mask select, in order (R427). -/
def wakeOctets (ws : List Word) (b : List Byte) : List Byte :=
  (List.range 128).filterMap (fun i => if bitAt (ws.getD (i / 32) 0).toNat (i % 32) then b[i]? else none)

/-- The mask selects no octet beyond the frame. -/
def wakeFits (ws : List Word) (b : List Byte) : Bool :=
  (List.range 128).all (fun i => !bitAt (ws.getD (i / 32) 0).toNat (i % 32) || decide (i < b.length))

/-- The lowest enabled pattern that a frame matches (R427). -/
def State.wakeMatch (s : State) (n : Nat) (b : List Byte) : Option Nat :=
  (List.range 8).find? (fun k =>
    s.on ⟨PRT.WAKE_CTRL n, k, k⟩ &&
      (match (s.prtC n).wake.find? (fun x => x.1 == k) with
       | some (_, ws) => wakeFits ws b && decide (crc16 (wakeOctets ws b) = (ws.getD 4 0).toNat % 65536)
       | none => false))

/-- A port leaves dormant (R410): adaptation is warm where the receiver stayed up. -/
def State.leaveDormant (s : State) (n : Nat) : State :=
  let s := (s.setf (PRT.CTRL_DORMANT n) 0).setf (PRT.STATUS_DORMANT n) 0
  s.setEq n (if (s.prtC n).signal then 3 else 1)

/-- A received frame wakes the port (R410). -/
def State.wake (s : State) (n k : Nat) : State :=
  let s := (s.leaveDormant n).ev (PRT.EVENT_WAKE n)
  (s.setf (PRT.WAKE_STAT_VALID n) 1).setf (PRT.WAKE_STAT_PATTERN n) k

/-! Flow control and ESMC. -/

/-- The time of pause quanta of 512 bits each at the rate of a port's mode, in T, rounded up (R428, R429). -/
def quantaT (mode q : Nat) : Nat := ceilDiv (q * 1024) (if mode = 0 then 10 else 25)

/-- A MAC control frame (R424, R429, R430): only PAUSE, to its own address or the port's, is obeyed. -/
def State.rxControl (s : State) (n : Nat) (b : List Byte) : State :=
  let d := beAt b 0 6
  let mine : Bool := d == 0x0180C2000001 || d == s.macOf n
  let p := b.drop 14
  if !mine ∧ (beAt p 0 2 = 1 ∨ !s.accepts n b) then s.count n 10
  else
    if beAt p 0 2 ≠ 1 then s.count n 25
    else
      let s := s.count n 12
      if !s.on (PRT.PAUSE_RX_EN n) ∨ s.now < (s.prtC n).ignoreTo then s
      else if beAt p 2 2 = 0 then (s.setf (PRT.STATUS_PAUSED n) 0).drainAll n
      else
        let was := s.on (PRT.STATUS_PAUSED n)
        (s.setf (PRT.STATUS_PAUSED n) 1).modPrt n (fun c => { c with
          pausedAt := if was then c.pausedAt else s.now
          pauseEnd := s.now + quantaT (s.f (PRT.CFG_MODE n)) (beAt p 2 2) })

/-- The TLVs of an ESMC PDU are ones the port accepts: a QL TLV, then none or an extended one (R431); SSM and eSSM code, and the cascaded
eEEC and EEC counts, none without an extended TLV (R433; G.8264 layout, log entry 23, PRESUMED). -/
def esmcCodes (p : List Byte) : Option (Nat × Option Nat × Nat × Nat) :=
  if beAt p 0 1 = 1 ∧ beAt p 1 2 = 4 then
    let ssm := beAt p 3 1 % 16
    if beAt p 4 1 = 2 then (if beAt p 5 2 = 20 then some (ssm, some (beAt p 7 1), beAt p 17 1, beAt p 18 1) else none)
    else some (ssm, none, 0, 0)
  else none

/-- R431: the QL codes and the counts of an acceptable ESMC PDU. -/
def esmcOf (b : List Byte) : Option (Nat × Option Nat × Nat × Nat) :=
  let p := b.drop 14
  if beAt b 0 6 = 0x0180C2000002 ∧ beAt b 12 2 = 0x8809 ∧ beAt p 0 1 = 0x0A ∧ beAt p 1 3 = 0x0019A7 ∧ beAt p 4 2 = 1 ∧
    beAt p 6 1 / 16 = 1 then esmcCodes (p.drop 10) else none

/-- The rank of an SSM code alone, in network option 1 or 2 (R202). -/
def rankSsm (opt ssm : Nat) : Nat :=
  if opt = 1 then
    (if ssm = 2 then 4 else if ssm = 4 then 6 else if ssm = 8 then 8 else if ssm = 0xB then 0xB else if ssm = 0xF then 0xE else 0xF)
  else
    (if ssm = 1 then 4 else if ssm = 0 then 5 else if ssm = 7 then 6 else if ssm = 4 then 7 else if ssm = 0xD then 9
     else if ssm = 0xA then 0xB else if ssm = 0xC then 0xC else if ssm = 0xE then 0xD else if ssm = 0xF then 0xE else 0xF)

/-- The rank of the codes of a PDU (R202, R203). -/
def rankOf (opt ssm : Nat) (essm : Option Nat) : Nat :=
  let prc := ssm = (if opt = 1 then 2 else 1)
  let eec := ssm = (if opt = 1 then 0xB else 0xA)
  match essm with
  | some e =>
    if prc ∧ e = 0x21 then 1 else if prc ∧ e = 0x20 then 2 else if prc ∧ e = 0x23 then 3
    else if eec ∧ e = 0x22 then 0xA else rankSsm opt ssm
  | none => rankSsm opt ssm

/-- An ESMC PDU reaches its consumer (R202 to R204, R431). -/
def State.rxEsmc (s : State) (n : Nat) (b : List Byte) : State :=
  match esmcOf b with
  | none => (s.count n 24).ev (PRT.EVENT_ESMC_BAD n)
  | some (ssm, essm, eeecs, eecs) =>
    let s := s.modPrt n (fun c => { c with esmcAt := s.now, esmcCnt := (eeecs, eecs) })
    (s.giveRanks (20 + n) [1] (rankOf 1 ssm essm)).giveRanks (20 + n) [2] (rankOf 2 ssm essm)

/-! Frames received. -/

/-- The PTP engine recognises a frame by its EtherType or its UDP port (R440). -/
def isPtpFrame (b : List Byte) : Bool :=
  let (t, p) := frameType b
  let udp := fun (q : List Byte) => beAt q 2 2 == 319 || beAt q 2 2 == 320
  t == 0x88F7 || (t == 0x0800 && beAt p 9 1 == 17 && udp (p.drop (4 * (beAt p 0 1 % 16)))) ||
    (t == 0x86DD && beAt p 6 1 == 17 && udp (p.drop 40))

/-- The PTP message of a frame that `isPtpFrame` recognises. -/
def ptpPayload (b : List Byte) : List Byte :=
  let (t, p) := frameType b
  if t = 0x88F7 then p else if t = 0x0800 then p.drop (4 * (beAt p 0 1 % 16) + 8) else p.drop 48

/-- A host frame enters the receive buffer with its stamp (R421, R426). -/
def State.rxHost (s : State) (n : Nat) (cap : StampCap) (bytes : List Byte) : State :=
  let c := s.prtC n
  if s.f (PRT.CFG_BUFS n) * 262144 < c.rxUsed + bytes.length then s.count n 11
  else
    let s := s.modPrt n (fun c => { c with rx := c.rx ++ [⟨s.rxStamp n cap, bytes⟩] })
    (s.evIf c.rx.isEmpty (PRT.EVENT_RX_FRAME n)).watermark n

/-- What the line tells at a frame: counters, and local and remote fault (R401, R438). -/
def State.rxLine (s : State) (n : Nat) (l : LineStat) : State :=
  if !s.on (PRT.STATUS_BLOCK_LOCK n) then s
  else
    let fec := s.f (PRT.CFG_MODE n) == 2
    let s := s.modPrt n (fun c =>
      ((c.addStat 19 l.blockErr).addStat 20 (if fec then l.fecCorr else 0)).addStat 21 (if fec then l.fecUncorr else 0))
    if !s.on (PRT.STATUS_LINK n) then s
    else ((s.setb (PRT.STATUS_LF n) (l.fault == .localFault)).setb (PRT.STATUS_RF n) (l.fault == .remoteFault)).drainAll n

/-- PAUSE_QUANTA_EXPIRY (R429): the quanta of the last PAUSE frame have elapsed. -/
def execPauseQuantaExpiry (n : Fin 8) (s : State) : Host.Outcome State Fault Refusal :=
  if s.on (PRT.STATUS_PAUSED n) ∧ (s.prtC n).pauseEnd ≤ s.now then .next ((s.setf (PRT.STATUS_PAUSED n) 0).drainAll n) else .next s

/-- PAUSE_WATCHDOG_EXPIRY (R430): received pause has halted the port for WD_US. -/
def execPauseWatchdogExpiry (n : Fin 8) (s : State) : Host.Outcome State Fault Refusal :=
  if s.on (PRT.STATUS_PAUSED n) ∧ (s.prtC n).pausedAt + s.f (PRT.PAUSE_WD_US n) * 2000 ≤ s.now then
    let s := ((s.setf (PRT.STATUS_PAUSED n) 0).count n 14).ev (PRT.EVENT_PAUSE_WD n)
    .next ((s.modPrt n (fun c => { c with ignoreTo := s.now + s.f (PRT.PAUSE_WD_US n) * 2000 })).drainAll n)
  else .next s

/-- PAUSE_REPEAT (R428): half the quanta have elapsed since the last PAUSE frame. -/
def execPauseRepeat (n : Fin 8) (s : State) : Host.Outcome State Fault Refusal :=
  if s.on (PRT.STATUS_PAUSING n) ∧ s.on (PRT.PAUSE_TX_EN n) ∧ s.f (PRT.WMARK_LOW n) * 1024 < (s.prtC n).rxUsed ∧
      (s.prtC n).pauseSentAt + quantaT (s.f (PRT.CFG_MODE n)) (s.f (PRT.PAUSE_QUANTA n)) / 2 ≤ s.now then
    .next (s.sendPause n (s.f (PRT.PAUSE_QUANTA n)))
  else .next s

/-- A second has passed since the port's last ESMC information PDU (R432). -/
def PrtCore.infoDue (c : PrtCore) (now : Nat) : Bool :=
  match c.infoAt with
  | some t => decide (t + 2000000000 ≤ now)
  | none => true

/-- ESMC_INFO_TX (R432): once per second. -/
def execEsmcInfoTx (n : Fin 8) (s : State) : Host.Outcome State Fault Refusal :=
  if s.prtLive n ∧ s.on (PRT.ESMC_TX_EN n) ∧ (s.prtC n).infoDue s.now then
    .next ((s.esmcSend n false).modPrt n (fun c => { c with infoAt := some s.now }))
  else .next s

/-- PREEMPT_VERIFY_DONE (R418). -/
def execPreemptVerifyDone (n : Fin 8) (ok : Bool) (s : State) : Host.Outcome State Fault Refusal :=
  if !s.prtLive n ∨ !s.on (PRT.STATUS_LINK n) ∨ !s.on (PRT.CTRL_PREEMPT_EN n) then .next s
  else if ok then .next ((s.setf (PRT.STATUS_PREEMPT n) 1).ev (PRT.EVENT_PREEMPT_ON n))
  else .next ((s.setf (PRT.STATUS_PREEMPT n) 0).ev (PRT.EVENT_PREEMPT_OFF n))

/-- EQ_LIMIT_REACHED (R405). -/
def execEqLimitReached (n : Fin 8) (s : State) : Host.Outcome State Fault Refusal :=
  if s.prtLive n ∧ s.f (PRT.STATUS_EQ n) = 4 then .next (s.ev (PRT.EVENT_EQ_LIMIT n)) else .next s

/-! Commands of CMD. -/

/-- The record of the oldest time-stamp queue entry, or an EMPTY one (R422). -/
def TsqEntry.words (e : TsqEntry) : List Word :=
  match e.stamp with
  | some t => BitVec.ofNat 32 (t.tag.num * 2 ^ 30 + b2n e.lost * 2 ^ 26 + e.id) :: t.words
  | none => [BitVec.ofNat 32 (3 * 2 ^ 30 + 2 ^ 27 + b2n e.lost * 2 ^ 26 + e.id), 0, 0, 0, 0]

/-- TSQ_POP's effect (R422). -/
def State.tsqPop (s : State) (p : Port) (n : Nat) : State :=
  match (s.prtC n).tsq with
  | [] => s.mboxOut p [BitVec.ofNat 32 (3 * 2 ^ 30 + 7 * 2 ^ 27), 0, 0, 0, 0]
  | e :: t =>
    let s := (s.modPrt n (fun c => { c with tsq := t })).setf (PRT.STATUS_TSQ_LEVEL n) t.length
    s.mboxOut p e.words

/-- The statistics record (R438): word 24 packs RX_PAUSE_BAD and ESMC_BAD. -/
def PrtCore.statWords (c : PrtCore) : List Word :=
  let w := fun i => BitVec.ofNat 32 (c.stat i)
  [w 0] ++ toWords 2 (c.stat 1) ++ toWords 2 (c.stat 3) ++ (List.range 19).map (fun i => w (i + 5)) ++
    [BitVec.ofNat 32 (c.stat 25 * 65536 + c.stat 24)]

/-- A snapshot of the counters; SEQ counts the snapshots (R438). -/
def State.stats (s : State) (p : Port) (n : Nat) (clear : Bool) : State :=
  let c := s.prtC n
  let s := s.mboxOut p c.statWords
  let q := (c.stat 0 + 1) % 2 ^ 32
  s.modPrt n (fun c => { c with stats := q :: (if clear then [] else (c.stats ++ List.replicate 26 0).drop 1 |>.take 25) })

/-- WAKE_LOAD's effect (R427). -/
def State.wakeLoad (s : State) (p : Port) (n : Nat) : State × Code :=
  if 2 ≤ n then (s, .badArgument)
  else
    match s.mboxIn p 5 with
    | none => (s, .badArgument)
    | some ws =>
      let k := s.f (PRT.WAKE_CTRL_SLOT n)
      ((s.mboxEmpty p).modPrt n (fun c => { c with wake := (k, ws) :: c.wake.filter (fun x => x.1 != k) }), .ok)

/-- What a write of one bit of CMD does. -/
def State.prtCommand (s : State) (p : Port) (n bit : Nat) : State :=
  let code := PRT.CMD_CODE_CODE n
  if bit = 0 then (s.stats p n true).complete code .ok
  else if bit = 1 then (s.stats p n false).complete code .ok
  else if bit = 2 then (s.tsqPop p n).complete code .ok
  else if bit = 3 then completeBy code (s.wakeLoad p n)
  else if s.on (PRT.CTRL_ADMIN n) then s.complete code .locked
  else s.modPrt n (fun c => { c with loopcal := true })

/-- FETCH_STATS (R438). -/
def execFetchStats (p : Port) (n : Fin 8) (s : State) : Host.Outcome State Fault Refusal :=
  .next (s.doorbell p (PRT.CMD n) false (fun s => s.prtCommand p n 0))

/-- PEEK_STATS (R438). -/
def execPeekStats (p : Port) (n : Fin 8) (s : State) : Host.Outcome State Fault Refusal :=
  .next (s.doorbell p (PRT.CMD n) false (fun s => s.prtCommand p n 1))

/-- TSQ_POP (R422). -/
def execTsqPop (p : Port) (n : Fin 8) (s : State) : Host.Outcome State Fault Refusal :=
  .next (s.doorbell p (PRT.CMD n) false (fun s => s.prtCommand p n 2))

/-- WAKE_LOAD (R427). -/
def execWakeLoad (p : Port) (n : Fin 8) (s : State) : Host.Outcome State Fault Refusal :=
  .next (s.doorbell p (PRT.CMD n) false (fun s => s.prtCommand p n 3))

/-- PRT_LOOPCAL (R414). -/
def execPrtLoopcal (p : Port) (n : Fin 8) (s : State) : Host.Outcome State Fault Refusal :=
  .next (s.doorbell p (PRT.CMD n) false (fun s => s.prtCommand p n 4))

/-- PRT_LOOPCAL_DONE with the difference between the measured round trip and the two constants (R414). -/
def execPrtLoopcalDone (n : Fin 8) (diff : Int) (s : State) : Host.Outcome State Fault Refusal :=
  if (s.prtC n).loopcal then
    let s := (s.modPrt n (fun c => { c with loopcal := false })).setSat (PRT.LOOPCAL_DIFF n) diff
    let h := roundOpen 37 diff 2
    let s := s.setf (PRT.TS_RX_PS n) (((s.f (PRT.TS_RX_PS n) : Int) + h).toNat)
    let s := s.setf (PRT.TS_TX_PS n) (((s.f (PRT.TS_TX_PS n) : Int) + h).toNat)
    .next (s.complete (PRT.CMD_CODE_CODE n) .ok)
  else .next s

/-! Register writes that act on the link. -/

/-- CTRL has been written over an old value: ADMIN, DORMANT and PREEMPT_EN act (R406, R409, R410, R418). A port that is held down keeps its
receiver, and one whose receiver is in lock is up as soon as it is no longer held down (log entry 90, DEDUCED). -/
def State.prtCtrlWritten (s : State) (n old : Nat) : State :=
  let w := s.w (PRT.CTRL n)
  let s := if bitAt w 1 ∧ !bitAt old 1 then
      let s := s.setf (PRT.STATUS_DORMANT n) 1
      (s.portDownWith n (decide (n < 2))).when (decide (2 ≤ n)) (fun s =>
        (s.setf (PRT.STATUS_EQ n) 0).modPrt n (fun c => { c with signal := false, lostAt := none }))
    else if !bitAt w 1 ∧ bitAt old 1 then s.leaveDormant n
    else s
  let s := if !bitAt w 0 ∧ bitAt old 0 then (s.portDownWith n true).loseActivity (20 + n)
    else if bitAt w 0 ∧ !bitAt old 0 ∧ !s.on (PRT.STATUS_DORMANT n) ∧ !s.on (PRT.STATUS_LINK n) ∧ s.inLock n then s.portUp n
    else s
  if !bitAt w 7 ∧ bitAt old 7 then (s.setf (PRT.STATUS_PREEMPT n) 0).ev (PRT.EVENT_PREEMPT_OFF n) else s

/-- TXCLK has been written over an old value (R403). -/
def State.txclkWritten (s : State) (n old : Nat) : State :=
  if s.f (PRT.TXCLK_APL n) = old % 8 then s else s.retrain n

/-- EQ_CTRL has been written over an old value (R437): withdrawal restarts warm adaptation and counts as a link return. -/
def State.eqCtrlWritten (s : State) (n old : Nat) : State :=
  let held := s.eqHeld n
  let was := bitAt old 31 || bitAt old 30
  let s := if s.on (PRT.EQ_CTRL_MANUAL n) then s.setf (PRT.EQ_STAT_CTLE n) (s.f (PRT.EQ_CTRL_CTLE n)) else s
  if s.f (PRT.STATUS_EQ n) = 0 then s
  else if held then s.setf (PRT.STATUS_EQ n) 5
  else if was then (s.setf (PRT.STATUS_EQ n) (if (s.prtC n).signal then 3 else 1)).startLinkSettle n
  else s

/-- A change of ESMC settings that changes the rank sent makes an event PDU (R432). -/
def State.esmcWritten (s : State) : State := s.esmcRefresh

/-! Frames of the host. -/

/-- A range lies in one host general scratchpad (R420, R421): class 0x7 of the image's scratchpad map. -/
def State.inHostSp (s : State) (a n : Nat) : Bool :=
  let sp := a / spSize
  decide (a % 8 = 0) && decide (sp < 128) && decide (a % spSize + n ≤ spSize) &&
    (((s.fab.img.map (·.spmap)).getD [])[sp]?.map (fun r => r.cls == 7)).getD false

/-- FRAME_SEND's effect: code and R0 (R420). -/
def State.frameSend (s : State) (a0 a1 a2 : Nat) : State × Code × Nat :=
  let n := bitsAt a0 26 24
  let len := a2 % 16384
  let stamp := bitAt a0 31
  let f : TxFrame := ⟨.raw (s.bytes a1 len), if stamp then .host (a0 % 65536) else .none⟩
  if !s.prtBuilt n ∨ !s.inHostSp a1 len ∨ len < 60 ∨ s.f (PRT.MTU_OCTETS n) < len + 4 ∨ a2 ≥ 16384 then (s, .badArgument, 0)
  else if s.on (PRT.STATUS_DORMANT n) then (s, .locked, 0)
  else if (stamp ∧ 1024 ≤ s.ctxUsed n) ∨ s.txFree n < f.len then (s, .noSlot, 0)
  else
    let s := (s.bankCheck a1 len 0).enqueue n (bitsAt a0 21 20) f
    (s, .ok, s.txFree n)

/-- FRAME_RECV's effect: code and R0 (R421). -/
def State.frameRecv (s : State) (a0 a1 a2 : Nat) : State × Code × Nat :=
  let n := bitsAt a0 26 24
  let size := a2 % 16384
  if !s.prtBuilt n ∨ !s.inHostSp a1 size ∨ a2 ≥ 16384 then (s, .badArgument, 0)
  else
    match (s.prtC n).rx with
    | [] => (s, .ok, 2 ^ 30)
    | f :: t =>
      let len := f.bytes.length
      if size < 24 + len then (s, .badArgument, len)
      else
        let w0 := BitVec.ofNat 32 (f.stamp.tag.num * 2 ^ 30 + len)
        let s := s.bankWrite a1 (wordsLe (w0 :: f.stamp.words ++ [0]) ++ f.bytes)
        let s := (s.modPrt n (fun c => { c with rx := t })).watermark n
        (s, .ok, len + (if t.isEmpty then 0 else 2 ^ 31))

end Sys2Proof.Machine
end

