-- ==== Sys2Proof/Machine/PtpOps.lean ====
section
/-! DEFINITION. PTP engines, shared operations (13_ptp_engines.md): addresses and messages, authentication, best-master
assistance, disagreement, demotion, and the judging and delivery of master phases (R440 to R483). Offsets are in units of 2⁻¹⁶ ns,
master phases in units of 2⁻⁵⁶ ns. -/

namespace Sys2Proof.Machine

/-- One second in units of T. -/
abbrev secT : Nat := 2000000000

/-- The clockIdentity of an engine and its portIdentity (R443). -/
def State.clockId (s : State) (n : Nat) : Nat := s.w (PTE.CLOCK_ID_HI n) * 2 ^ 32 + s.w (PTE.CLOCK_ID_LO n)
/-- See `State.clockId`. -/
def State.portId (s : State) (n : Nat) : Nat := s.clockId n * 65536 + (n + 1)

/-- The engine's role (R443, R444). -/
def State.role (s : State) (n : Nat) : Nat := if s.clockId n = 0 then 0 else s.f (PTE.CTRL_ROLE n)

/-- The engine's profile (R441). -/
def State.profile (s : State) (n : Nat) : Nat := s.f (PTE.CTRL_PROFILE n)

/-- The engine serves clients: its role is MASTER or MASTER_SLAVE, and the device is not STANDBY (R444, R548). -/
def State.serves (s : State) (n : Nat) : Bool := (s.role n == 1 || s.role n == 4) && s.f XLK.STATUS_ROLE != 2

/-- The engine listens to upstream berths (R444). -/
def State.listens (s : State) (n : Nat) : Bool := s.role n == 2 || s.role n == 4

/-- A berth on an engine's port, in service and of a kind. -/
def State.inService (s : State) (slot kind : Nat) : Bool :=
  let b := s.berthC slot
  b.kind == kind && b.live

/-! Addresses. -/

/-- The engine's own IPv6 address. -/
def State.ownV6 (s : State) (n : Nat) : Nat :=
  s.w (PTE.IPV6 n 0) + 2 ^ 32 * (s.w (PTE.IPV6 n 1) + 2 ^ 32 * (s.w (PTE.IPV6 n 2) + 2 ^ 32 * s.w (PTE.IPV6 n 3)))

/-- The multicast destination of the profile (R441). -/
def State.mcast (s : State) (n : Nat) : PtpAddr :=
  if s.profile n = 1 then .mac (if s.on (PTE.CTRL_NONFWD n) then 0x0180C200000E else 0x011B19000000)
  else if s.f (PTE.CTRL_TRANSPORT n) = 1 then .v4 0xE0000181
  else if s.f (PTE.CTRL_TRANSPORT n) = 2 then .v6 0xFF0E0000000000000000000000000181
  else .mac 0x011B19000000

/-- The engine's address of the kind of a destination. -/
def State.ownAddr (s : State) (n : Nat) : PtpAddr → PtpAddr
  | .mac _ => .mac (BitVec.ofNat 48 (s.macOf n))
  | .v4 _ => .v4 (BitVec.ofNat 32 (s.w (PTE.IPV4 n)))
  | .v6 _ => .v6 (BitVec.ofNat 128 (s.ownV6 n))

/-- R445: transport and destination are the profile's, or the message is unicast to the engine. -/
def State.forUs (s : State) (n : Nat) (d : PtpAddr) : Bool := d == s.ownAddr n d || (s.profile n != 2 && d == s.mcast n)

/-- Kind and number of an address (R492). -/
def addrNum : PtpAddr → Nat × Nat
  | .mac a => (0, a.toNat)
  | .v4 a => (1, a.toNat)
  | .v6 a => (2, a.toNat)

/-- Where messages to a berth go (R441, R491): with profile 0x2 to its IP address, else to the profile's multicast address, which is all
that profiles 0x0 and 0x1 permit. -/
def State.berthAddr (s : State) (b : Berth) : PtpAddr :=
  if s.profile b.port ≠ 2 then s.mcast b.port
  else if b.par.ipKind = 1 then .v4 (BitVec.ofNat 32 b.par.ip)
  else .v6 (BitVec.ofNat 128 b.par.ip)

/-- The engine can reach a berth: with profile 0x2 only by an IP address of the transport that CTRL.TRANSPORT selects (R441; log entry 95,
DEDUCED). -/
def State.reachable (s : State) (b : Berth) : Bool :=
  s.profile b.port != 2 || (b.par.ipKind != 0 && b.par.ipKind == s.f (PTE.CTRL_TRANSPORT b.port))

/-- The source address of a message is a berth's: a parameter left at its default asks for none (R491; log entry 95, DEDUCED). -/
def Berth.hasAddr (b : Berth) (a : PtpAddr) : Bool :=
  match a with
  | .mac x => if b.par.mac = 0 then b.par.ipKind == 0 else b.par.mac == x.toNat
  | .v4 x => if b.par.ipKind = 0 then b.par.mac == 0 else b.par.ipKind == 1 && b.par.ip == x.toNat
  | .v6 x => if b.par.ipKind = 0 then b.par.mac == 0 else b.par.ipKind == 2 && b.par.ip == x.toNat

/-- The parameter that bounds a client's requests of a kind (R449), and what an upstream berth is asked for (R450). -/
def BerthParams.logOf (p : BerthParams) : GrantKind → Int
  | .sync => p.logSync | .announce => p.logAnn | .delayResp => p.logDelay

/-- The grant of a kind. -/
def Berth.grant (b : Berth) : GrantKind → Option Grant
  | .sync => b.gSync | .announce => b.gAnn | .delayResp => b.gResp

/-- Replace the grant of a kind. -/
def Berth.withGrant (b : Berth) (k : GrantKind) (g : Option Grant) : Berth :=
  match k with
  | .sync => { b with gSync := g } | .announce => { b with gAnn := g } | .delayResp => { b with gResp := g }

/-- logMessageInterval of what an upstream berth sends: as granted, at the fixed rate of profile 0x1, or as its parameter has it (R441,
R450). -/
def State.rxLog (s : State) (b : Berth) (k : GrantKind) : Int :=
  ((b.grant k).map (·.per)).getD
    (if s.profile b.port = 1 then (if k = .announce then -3 else -4) else b.par.logOf k)

/-- A rate that profile 0x2 permits (R441): 1/s to 8/s for Announce, 1/s to 128/s for the others. -/
def ratePermitted (k : GrantKind) (per : Int) : Bool :=
  decide (per ≤ 0) && decide ((if k = .announce then -3 else -7) ≤ per)

/-- The tags of a berth, outer first (R483). -/
def Berth.tags (b : Berth) : List Word := [b.par.tagOuter, b.par.tagInner].filter (· ≠ 0)

/-- The berth that a message comes from: the identity of a client is exact, an upstream berth may accept any (R445, R491). -/
def State.sender (s : State) (n kind : Nat) (m : PtpMsg) : Option Nat :=
  (s.slotsOn n kind).find? (fun k =>
    let b := s.berthC k
    (b.par.peerId == m.srcId.toNat || (kind == 2 && b.par.peerId == 0)) && b.hasAddr m.src && b.tags == m.tags)

/-! Messages as octets (IEEE 1588-2019, log entry 21, DESIGN CHOICE). -/

/-- messageType and controlField. -/
def ptpType : PtpKind → Nat × Nat
  | .sync => (0, 0) | .delayReq => (1, 1) | .followUp => (8, 2) | .delayResp => (9, 3) | .announce => (0xB, 5)
  | .signaling => (0xC, 5) | .management => (0xD, 4) | .other => (0xF, 5)

/-- tlvType of a negotiation TLV, and the message type it is for. -/
def sigBytes (t : SigTlv) : List Byte :=
  let ty := match t.op with | .request => 4 | .grant => 5 | .cancel => 6 | .ackCancel => 7
  let mt := match t.kind with | .announce => 0xB | .sync => 0 | .delayResp => 9
  match t.op with
  | .request => beBytes 2 ty ++ beBytes 2 6 ++ beBytes 1 (16 * mt) ++ beInt 1 t.logPer ++ beBytes 4 t.dur
  | .grant => beBytes 2 ty ++ beBytes 2 8 ++ beBytes 1 (16 * mt) ++ beInt 1 t.logPer ++ beBytes 4 t.dur ++ [0, 1]
  | _ => beBytes 2 ty ++ beBytes 2 2 ++ beBytes 1 (16 * mt) ++ [0]

/-- The octets of a dataset in an Announce. -/
def datasetBytes (d : Dataset) : List Byte :=
  beInt 2 d.utc ++ [0] ++ beBytes 1 d.prio1 ++ beBytes 1 d.cls ++ beBytes 1 d.acc ++ beBytes 2 d.var ++ beBytes 1 d.prio2 ++
    beBytes 8 d.gm.toNat ++ beBytes 2 d.steps ++ beBytes 1 d.source

/-- A message from its first octet up to an AUTHENTICATION TLV without its ICV: what the ICV covers (R479). -/
def ptpCovered (m : PtpMsg) : List Byte :=
  let flags := match m.data with
    | some d => 4 * b2n d.utcValid + 8 + 16 * b2n d.timeTr + 32 * b2n d.freqTr
    | none => 0
  let body := beBytes 6 m.sec ++ beBytes 4 m.ns ++
    (match m.kind with | .delayResp => beBytes 10 m.reqId.toNat | _ => []) ++
    (match m.data with | some d => datasetBytes d | none => [])
  let body := match m.kind with
    | .signaling => beBytes 10 m.reqId.toNat ++ m.tlvs.flatMap sigBytes
    | _ => body
  let auth := match m.auth with
    | some a => beBytes 2 0x8009 ++ beBytes 2 22 ++ beBytes 1 a.spp.toNat ++ [0] ++ beBytes 4 a.keyId.toNat
    | none => []
  beBytes 1 (ptpType m.kind).1 ++ beBytes 1 (16 * m.minor + m.version) ++ beBytes 2 (ptpLen m) ++ beBytes 1 m.domain ++ [0] ++
    beBytes 1 (2 * b2n m.twoStep) ++ beBytes 1 flags ++ beInt 8 m.corr ++ [0, 0, 0, 0] ++ beBytes 10 m.srcId.toNat ++
    beBytes 2 m.seq.toNat ++ beBytes 1 (ptpType m.kind).2 ++ beInt 1 m.logInt ++ body ++ auth

/-- The keys of an SPP. -/
def State.spp (s : State) (k : Nat) : SppKeys := Tab.get (fun _ => {}) s.sec.keys k

/-- A message with the AUTHENTICATION TLV under the current key of an SPP; none without such a key (R479, R482). -/
def State.sign (s : State) (k : Nat) (m : PtpMsg) : Option PtpMsg :=
  (s.spp k).cur.map (fun key =>
    let m := { m with auth := some (PtpAuth.mk (BitVec.ofNat 8 k) key.id []) }
    { m with auth := some (PtpAuth.mk (BitVec.ofNat 8 k) key.id (Config.hmac key.key (ptpCovered m))) })

/-- All octets of a message. -/
def ptpOctets (m : PtpMsg) : List Byte := ptpCovered m ++ ((m.auth.map (·.icv)).getD [])

/-- The sum of a string's 16-bit words. -/
def sum16 : List Byte → Nat
  | a :: b :: t => a.toNat * 256 + b.toNat + sum16 t
  | [a] => a.toNat * 256
  | [] => 0

/-- The two octets that keep a UDP checksum right when the message in front of them changes (R455). -/
def checksumPad (old new : PtpMsg) : BitVec 16 :=
  BitVec.ofNat 16 (((sum16 (ptpOctets old) : Int) - sum16 (ptpOctets new)) % 65535).toNat

/-! Messages from octets (IEEE 1588-2019, log entry 21, DESIGN CHOICE). -/

/-- The kind of a messageType. -/
def kindOf (ty : Nat) : PtpKind :=
  match ty with
  | 0 => .sync | 1 => .delayReq | 8 => .followUp | 9 => .delayResp | 0xB => .announce | 0xC => .signaling | 0xD => .management
  | _ => .other

/-- Where the TLVs of a message begin. -/
def tlvsAt (k : PtpKind) : Nat :=
  match k with
  | .delayResp => 54 | .announce => 64 | .management => 48 | _ => 44

/-- The TLVs of a string, type and value: at most `k`. -/
def tlvList : Nat → List Byte → List (Nat × List Byte)
  | 0, _ => []
  | k + 1, b => if b.length < 4 then [] else (beAt b 0 2, slice b 4 (beAt b 2 2)) :: tlvList k (b.drop (4 + beAt b 2 2))

/-- A negotiation TLV for Sync, Announce or Delay_Resp; every other TLV is the host's (R440). -/
def sigOf (t : Nat × List Byte) : Option SigTlv :=
  let kind := match beAt t.2 0 1 / 16 with
    | 0 => some GrantKind.sync | 9 => some .delayResp | 0xB => some .announce | _ => none
  let op := match t.1, t.2.length with
    | 4, 6 => some SigOp.request | 5, 8 => some .grant | 6, 2 => some .cancel | 7, 2 => some .ackCancel | _, _ => none
  match kind, op with
  | some k, some o =>
    if o = .request ∨ o = .grant then some ⟨o, k, toSigned 8 (beAt t.2 1 1), beAt t.2 2 4⟩ else some ⟨o, k, 0, 0⟩
  | _, _ => none

/-- The AUTHENTICATION TLV of a message: its last TLV, in the form of R479. -/
def authOf (l : List (Nat × List Byte)) : Option PtpAuth :=
  match l.getLast? with
  | some (ty, v) =>
    if ty = 0x8009 ∧ v.length = 22 ∧ beAt v 1 1 = 0 then
      some ⟨BitVec.ofNat 8 (beAt v 0 1), BitVec.ofNat 32 (beAt v 2 4), v.drop 6⟩
    else none
  | none => none

/-- The dataset of an Announce's octets. -/
def datasetOf (b : List Byte) : Dataset :=
  let fl := beAt b 7 1
  { utc := toSigned 16 (beAt b 44 2), prio1 := beAt b 47 1, cls := beAt b 48 1, acc := beAt b 49 1, var := beAt b 50 2
    prio2 := beAt b 52 1, gm := BitVec.ofNat 64 (beAt b 53 8), steps := beAt b 61 2, source := beAt b 63 1
    utcValid := bitAt fl 2, timeTr := bitAt fl 4, freqTr := bitAt fl 5 }

/-- The message that octets spell, from its first to the last that messageLength counts. -/
def msgOf (src dst : PtpAddr) (tags : List Word) (b : List Byte) : PtpMsg :=
  let kind := kindOf (beAt b 0 1 % 16)
  let timed := kind != .signaling && kind != .management && kind != .other
  let l := tlvList b.length (b.drop (tlvsAt kind))
  { kind := kind, src := src, dst := dst, tags := tags, version := beAt b 1 1 % 16, minor := beAt b 1 1 / 16, domain := beAt b 4 1
    twoStep := bitAt (beAt b 6 1) 1, corr := toSigned 64 (beAt b 8 8), srcId := BitVec.ofNat 80 (beAt b 20 10)
    seq := BitVec.ofNat 16 (beAt b 30 2), logInt := toSigned 8 (beAt b 33 1)
    sec := if timed then beAt b 34 6 else 0, ns := if timed then beAt b 40 4 else 0
    reqId := BitVec.ofNat 80 (if kind = .delayResp then beAt b 44 10 else if timed ∨ kind = .other then 0 else beAt b 34 10)
    data := if kind = .announce then some (datasetOf b) else none
    tlvs := if kind = .signaling then l.filterMap sigOf else [], auth := authOf l }

/-- The message can be sent: the enclave holds the key it needs, and an egress context is free where it is an event message. -/
def State.ptpCan (s : State) (n q : Nat) (auth : Option Nat) : Bool :=
  auth.all (fun k => (s.spp k).cur.isSome) && !(q == 4 && decide (1024 ≤ s.ctxUsed n))

/-- Queue a message of the engine; one that needs a key the enclave does not hold, or an egress context while none is
free, is not sent (R416, R419, R482; log entry 38, DESIGN CHOICE). -/
def State.ptpSend (s : State) (n q : Nat) (owner : TxOwner) (auth : Option Nat) (m : PtpMsg) : State :=
  let m' := match auth with
    | none => some m
    | some k => s.sign k m
  match m' with
  | none => s
  | some m => if q = 4 ∧ 1024 ≤ s.ctxUsed n then s else s.enqueue n q ⟨.ptp m, owner⟩

/-- The fields that every message of an engine has. -/
def State.ptpBase (s : State) (n : Nat) (kind : PtpKind) (dst : PtpAddr) (tags : List Word) (seq : Nat) (logInt : Int) :
    PtpMsg :=
  { kind := kind, src := s.ownAddr n dst, dst := dst, tags := tags, version := 2, minor := 1, domain := s.f (PTE.CTRL_DOMAIN n)
    twoStep := false, corr := 0, srcId := BitVec.ofNat 80 (s.portId n), seq := BitVec.ofNat 16 seq, logInt := logInt
    sec := 0, ns := 0, reqId := 0, data := none, tlvs := [], auth := none }

/-- The tags of the engine's multicast messages (R483), and their SPP (R482). -/
def State.mcTags (s : State) (n : Nat) : List Word :=
  if s.f (PTE.MC_TAG_TPID n) = 0 then [] else [BitVec.ofNat 32 (s.w (PTE.MC_TAG n))]
/-- See `State.mcTags`. -/
def State.mcAuth (s : State) (n : Nat) : Option Nat :=
  if s.on (PTE.CTRL_MC_AUTH n) then some (s.f (PTE.CTRL_MC_SPP n)) else none

/-- A message is discarded and counted (R445). -/
def State.discard (s : State) (n : Nat) : State := s.inc (PTE.CNT_C_DISCARD n)

/-! Upstream berths. -/

/-- Change what an upstream berth measures. -/
def State.modUp (s : State) (slot : Nat) (g : UpState → UpState) : State :=
  s.modBerth slot (fun b => { b with up := g b.up })

/-- The handle of the berth in a slot (R10). -/
def State.handleOf (s : State) (slot : Nat) : Nat := mkHandle (s.berthC slot).kind (s.gensC slot) slot

/-- Rank of an Announce (R205). -/
def rankOfClass (d : Dataset) : Nat :=
  if d.cls = 6 then (if d.acc ≤ 0x20 then 1 else 2) else if d.cls = 7 then 4
  else if d.cls = 135 ∨ d.cls = 140 then 6 else if d.cls = 150 then 8 else if d.cls = 160 ∨ d.cls = 165 then 0xB
  else if d.cls = 248 then 0xD else if d.cls = 255 then 0xE else 0xF

/-- The rank of an upstream berth (R205, R466, R476). -/
def UpState.rank (u : UpState) : Nat :=
  match u.ann with
  | some d => if u.annCurrent ∧ !u.demoted then rankOfClass d else 0xF
  | none => 0xF

/-- The entries that carry an upstream berth take its rank, whether or not their measurement berths are LIVE (R205). -/
def State.berthRank (s : State) (slot : Nat) : State :=
  s.forL (s.berthEntries slot) (fun s x => s.giveRank x.1 x.2 (s.berthC slot).up.rank)

/-- The upstream berth is qualified for best-master assistance (R467). -/
def State.qualifiedUp (s : State) (slot : Nat) : Bool :=
  let b := s.berthC slot
  s.inService slot 2 && b.up.annCurrent && !b.up.demoted &&
    (match b.up.ann with | some d => decide (d.steps < 255) && d.gm.toNat != s.clockId b.port | none => false)

/-- The first place where two lists differ decides. -/
def lexLess : List Nat → List Nat → Bool
  | a :: x, b :: y => if a = b then lexLess x y else decide (a < b)
  | _, _ => false

/-- What the comparison of a profile ranks a dataset by, smallest best (R467): IEEE 1588-2019, or the alternate BMCA with
localPriority; the same grandmaster is compared by distance (log entry 39, PRESUMED). -/
def bmcaKey (profile : Nat) (d : Dataset) (prio sender : Nat) : List Nat :=
  if profile = 0 then [d.prio1, d.cls, d.acc, d.var, d.prio2, d.gm.toNat, d.steps, sender]
  else if d.cls ≤ 127 then [d.cls, d.acc, d.var, d.prio2, prio, d.steps, sender, 0]
  else [d.cls, d.acc, d.var, d.prio2, prio, d.gm.toNat, d.steps, sender]

/-- One dataset is better than another (R467). -/
def bmcaBetter (profile : Nat) (a b : Dataset × Nat × Nat) : Bool :=
  if profile = 0 ∧ a.1.gm = b.1.gm then lexLess [a.1.steps, a.2.2] [b.1.steps, b.2.2]
  else lexLess (bmcaKey profile a.1 a.2.1 a.2.2) (bmcaKey profile b.1 b.2.1 b.2.2)

/-- Dataset, LOCAL_PRIO and sender of an upstream berth. -/
def State.bmcaOf (s : State) (slot : Nat) : Option (Dataset × Nat × Nat) :=
  let b := s.berthC slot
  b.up.ann.map (fun d => (d, b.par.prio, b.up.annSrc))

/-- The better of two qualified berths; the earlier slot where neither is better. -/
def State.betterUp (s : State) (profile a b : Nat) : Nat :=
  match s.bmcaOf a, s.bmcaOf b with
  | some x, some y => if bmcaBetter profile y x then b else a
  | _, _ => a

/-- The best qualified upstream berth of an engine. -/
def State.bestUp (s : State) (n : Nat) : Option Nat :=
  match (s.slotsOn n 2).filter s.qualifiedUp with
  | [] => none
  | a :: t => some (t.foldl (s.betterUp (s.profile n)) a)

/-- An interval of 2ᵏ s in units of T. -/
def intervalT (k : Int) : Nat := secT * 2 ^ (k + 8).toNat / 256

/-- No VALID offset has arisen for 1 s or four Sync intervals (R465). -/
def State.streamOld (s : State) (slot : Nat) : Bool :=
  let b := s.berthC slot
  decide (b.up.validAt + max secT (4 * intervalT (s.rxLog b .sync)) ≤ s.now)

/-- The upstream berth has lost its sample stream (R465). -/
def State.streamLost (s : State) (slot : Nat) : Bool :=
  let b := s.berthC slot
  !b.live || s.streamOld slot || b.up.annLate || b.up.demoted || !s.on (PRT.STATUS_LINK b.port)

/-- The entry of a measurement berth has no activity: the berth is IDLE, or the sample stream of its upstream berth is lost (R193). -/
def State.entryLost (s : State) (b : Berth) : Bool :=
  !b.live || (match s.upstreamOf b with | some j => s.streamLost j | none => true)

/-- The engine's own dataset, which it announces (R451). -/
def State.ownData (s : State) (n : Nat) : Dataset :=
  let k := s.prtTsc n
  let tr := s.on (TSC.STATUS_TRACEABLE k)
  { gm := BitVec.ofNat 64 (s.w (PTE.ANN_GM_HI n) * 2 ^ 32 + s.w (PTE.ANN_GM_LO n)), prio1 := s.f (PTE.ANN_P_PRIO1 n)
    cls := s.f (PTE.ANN_Q_CLASS n), acc := s.f (PTE.ANN_Q_ACCURACY n), var := s.f (PTE.ANN_Q_VARIANCE n)
    prio2 := s.f (PTE.ANN_P_PRIO2 n), steps := s.f (PTE.ANN_P_STEPS n), source := s.f (PTE.ANN_P_SOURCE n)
    utc := s.fi (TSC.TOD_CFG_UTC_OFS k), utcValid := s.on (TSC.TOD_CFG_UTC_VALID k), timeTr := tr, freqTr := tr }

/-- The role that the comparison recommends (R467, log entry 39, PRESUMED): MASTER without a better master; PASSIVE for a class up to 127
whose dataset is worse; else SLAVE. -/
def State.recRole (s : State) (n : Nat) (best : Option Nat) : Nat :=
  match best.bind s.bmcaOf with
  | none => 1
  | some x =>
    let own := { s.ownData n with gm := BitVec.ofNat 64 (s.clockId n) }
    if bmcaBetter (s.profile n) (own, 128, 0) x then 1 else if own.cls ≤ 127 then 3 else 2

/-- The handle that BEST shows: a forced one that names an upstream berth of the port, or the best (R467). -/
def State.bestHandle (s : State) (n : Nat) (best : Option Nat) : Nat :=
  let h := s.w (PTE.BMCA n)
  if h != 0 && s.current h && hKind h == 2 && (s.berthC (hSlot h)).port == n then h
  else match best with
    | some k => s.handleOf k
    | none => 0

/-- A measurement berth that follows the best carries another berth (R221, R467): its entry's history begins anew, and the loops
of its selector depart to the new samples, with CAUSE 1 (log entry 92, DESIGN CHOICE). The activity of the entry is that of the new berth
(R193). -/
def State.switchBest (s : State) (n : Nat) : State :=
  let follow := s.berth.filterMap (fun x =>
    if x.2.kind = 4 ∧ x.2.port = n then x.2.att.bind (fun a => if a.2.2 = 0 then some ((a.1, a.2.1), x.1) else none) else none)
  let r := match (s.slotsOn n 2).find? (fun k => s.handleOf k == s.w (PTE.BEST n)) with
    | some k => (s.berthC k).up.rank
    | none => 0xF
  let s := s.forL follow (fun s y => (s.freshEntry y.1.1 y.1.2).putRank y.1.1 y.1.2 r)
  let s := s.forL follow (fun s y => s.fault y.1.1 y.1.2 faultAct (s.entryLost (s.berthC y.2)))
  (s.refreshRanks (follow.map (·.1))).forL (follow.map (·.1)) (fun s x =>
    if s.active x.1 = x.2 ∧ (s.selState x.1 = 1 ∨ s.selState x.1 = 4) ∧ s.cstate x.1 x.2 = 2 then
      s.follow x.1 x.2 (s.selState x.1) 1
    else s)

/-- Best-master assistance runs (R467). -/
def State.bmca (s : State) (n : Nat) : State :=
  let b := s.bestUp n
  let old := s.w (PTE.BEST n)
  let s := s.setf (PTE.STATUS_REC_ROLE n) (s.recRole n b)
  let new := s.bestHandle n b
  if new = old then s else ((s.setw (PTE.BEST n) new).ev (PTE.EVENT_BEST n)).switchBest n

/-- Qualified upstream berths on time scale k with their latest VALID master phases. -/
def State.masters (s : State) (k : Nat) : List (Nat × Int) :=
  s.berth.filterMap (fun x =>
    if s.qualifiedUp x.1 && s.prtTsc x.2.port == k then
      (match x.2.up.lastPhase with | some (m, .valid) => some (x.1, m) | _ => none)
    else none)

/-- The berths of time scale k that disagree with another (R468). -/
def State.disagreeing (s : State) (k : Nat) : List Nat :=
  let l := s.masters k
  let lim := (s.tscC k).thresh * 2 ^ 56
  (l.filter (fun a => l.any (fun b => decide (lim < (a.2 - b.2).natAbs)))).map (·.1)

/-- DISAGREE follows, in every engine bound to time scale k (R468). -/
def State.refreshDisagree (s : State) (k : Nat) : State :=
  let d := !(s.disagreeing k).isEmpty
  s.forN 8 (fun s n =>
    if s.prtBuilt n ∧ s.prtTsc n = k then
      let was := s.on (PTE.EVENT_DISAGREE_ANY n)
      (s.setb (PTE.EVENT_DISAGREE_ANY n) d).evIf (d && !was) (PTE.EVENT_DISAGREE n)
    else s)

/-- What follows a change of an upstream berth's qualification. -/
def State.upFollow (s : State) (slot : Nat) : State :=
  let n := (s.berthC slot).port
  ((s.berthRank slot).bmca n).refreshDisagree (s.prtTsc n)

/-- Test codes of the logbook (R654). -/
inductive CorrTest where
  | short | long | cross | refusal | promote
  deriving DecidableEq, Repr

/-- See `CorrTest`. -/
def CorrTest.num : CorrTest → Nat
  | .short => 0 | .long => 1 | .cross => 2 | .refusal => 3 | .promote => 4

/-- The record of a demotion or promotion (R476, R477). -/
def State.logDemotion (s : State) (slot : Nat) (t : CorrTest) (dev : Int) : State :=
  s.logDev 0x0402 (beBytes 4 (s.handleOf slot) ++ beBytes 1 t.num ++
    beInt 8 (satSigned 64 (roundOpen 38 (dev * 1000) (2 ^ 56))))

/-- Demote an upstream berth (R476). -/
def State.demote (s : State) (slot : Nat) (t : CorrTest) (dev : Int) : State :=
  if (s.berthC slot).up.demoted then s
  else
    let n := (s.berthC slot).port
    let s := s.modUp slot (fun u => { u with
      demoted := true, readmitAt := s.now + s.w (PTE.CORR_READMIT n) * secT, crossFails := 0, perSum := 0, perN := 0 })
    let s := (s.ev (PTE.EVENT_DEMOTED n)).logDemotion slot t dev
    (s.streamFault slot true).upFollow slot

/-- Learning starts (R472). -/
def State.startLearning (s : State) (slot : Nat) : State :=
  s.modUp slot (fun u => { u with
    learn := [], learnt := false, outRun := 0, winMean := none, winLeft := 0, secSum := 0, secN := 0, secMean := none
    crossFails := 0, perSum := 0, perN := 0 })

/-- Promote a demoted berth (R477). -/
def State.promote (s : State) (slot : Nat) : State :=
  let n := (s.berthC slot).port
  let s := (s.modUp slot (fun u => { u with demoted := false })).startLearning slot
  (s.ev (PTE.EVENT_PROMOTED n)).upFollow slot

/-! Offsets. -/

/-- D of an upstream berth in 2⁻¹⁶ ns times twice its number of values, and that number (R459): its latest DLY_AVG values. -/
def Berth.delay (b : Berth) : Int × Nat := ((b.up.mpds.take b.par.dlyAvg).sum, 2 * (b.up.mpds.take b.par.dlyAvg).length)

/-- Scheduled asymmetry begins the entries that are due at a Sync's t2, and moves (R460). -/
def UpState.schedule (u : UpState) (sec : Nat) (t2 : Int) : UpState :=
  let at_ := fun (r : Int × Int × AsymEntry) =>
    let span : Int := (r.2.2.ramp * 1000000000 * 65536 : Nat)
    if span ≤ t2 - r.2.1 then r.2.2.target
    else r.1 + roundOpen 43 ((r.2.2.target - r.1) * (t2 - r.2.1)) span.toNat
  let u := match u.ramp with | some r => { u with schedPs := at_ r } | none => u
  (u.sched.takeWhile (fun e => decide (e.sec ≤ sec))).foldl (fun u e =>
    let r := (u.schedPs, t2, e)
    { u with ramp := some r, schedPs := at_ r, sched := u.sched.drop 1 }) u

/-- A in ps (R460). -/
def Berth.asymPs (b : Berth) : Int := b.par.asym + b.up.schedPs

/-- The corridor is at work (R489). -/
def State.corrOn (s : State) (n : Nat) : Bool := !s.on (PTE.CORR_CTRL_OFF n)

/-- The corridor loop gives no frequency: none is named, or it is FREE_RUN or FERRY_HOLD (R478). -/
def State.corrIdle (s : State) (n : Nat) : Bool :=
  let l := s.f (PTE.CORR_CTRL_LOOP n)
  !s.loopBuilt l || s.loopState l == 0 || s.loopState l == 4

/-- The median of an even number of master phases: the mean of the middle two (log entry 32, DEDUCED). -/
def medianOf (l : List Int) : Int :=
  let m := l.mergeSort (fun a b => decide (a ≤ b))
  roundOpen 44 (m.getD (m.length / 2 - 1) 0 + m.getD (m.length / 2) 0) 2

/-- A VALID master phase of a t2 at coarse time t passes the short test (R473), and how far it lies from its prediction; `ci` is the
integral of FREQ at t2 (R472). -/
def State.shortTest (s : State) (n : Nat) (u : UpState) (m ci : Int) (t : Nat) : Bool × Int :=
  let d := m - (u.anchor + (ci - u.anchorInt))
  let half := s.w (PTE.CORR_W0 n) * (1000 * secT) + s.w (PTE.CORR_GROW n) * (t - u.anchorAt)
  (decide (d.natAbs * (1000 * secT) ≤ half * 2 ^ 56), d)

/-- A sample goes to the selectors as a phase sample, and to the loops that follow it (R463). -/
def State.deliverPhase (s : State) (slot : Nat) (tag : Tag) (m : Int) (t : Nat) : State :=
  let x : Int × Nat := (m * 1000000 / 2 ^ 24, t)
  let s := s.forL (s.entriesFrom slot) (fun s e => s.entrySample e.1 e.2 tag x)
  if tag ≠ .valid then s
  else s.forL (s.entriesFrom slot) (fun s e =>
    if s.active e.1 = e.2 ∧ (s.selState e.1 = 1 ∨ s.selState e.1 = 4) then
      s.forL (s.loopsOf e.1) (fun s l => s.modLoop l (fun c => { c with acc := c.acc ++ [⟨x.1, x.2, 0⟩] }))
    else s)

/-- A VALID sample that the corridor lets pass: it counts for the presentation period in progress once learning has ended, for the frequency
estimate, the second and the comparison of masters, and reaches the selectors (R463, R464, R468, R469, R472 to R474). -/
def State.useSample (s : State) (slot : Nat) (offset m : Int) (t : Nat) : State :=
  let b := s.berthC slot
  let n := b.port
  let present := (b.up.learnt || !s.corrOn n) && s.on (PTE.TS_CTRL_EN n)
  let win := b.par.freqWin * secT
  let s := s.modUp slot (fun u => { u with
    perSum := if present ∧ !u.demoted then u.perSum + offset else u.perSum
    perN := if present ∧ !u.demoted then u.perN + 1 else u.perN
    secSum := u.secSum + m, secN := u.secN + 1, lastPhase := some (m, .valid)
    phases := (t, m) :: u.phases.filter (fun p => decide (t ≤ p.1 + win)) })
  if b.up.demoted then s
  else
    let up := s.on (PRT.STATUS_LINK n) && !b.up.annLate
    ((s.when up (fun s => s.streamFault slot false)).deliverPhase slot .valid m t)

/-- A VALID sample of a berth whose corridor still learns (R472). -/
def State.learnSample (s : State) (slot : Nat) (m ci : Int) (t : Nat) : State :=
  s.modUp slot (fun u =>
    let l := m :: u.learn
    if l.length < 16 then { u with learn := l }
    else { u with
      learn := [], learnt := true, anchor := medianOf l, anchorInt := ci, anchorAt := t, outRun := 0 })

/-- A VALID sample is judged (R472, R473, R476, R477). -/
def State.judge (s : State) (slot : Nat) (offset m ci : Int) (t : Nat) : State :=
  let b := s.berthC slot
  let n := b.port
  if !s.corrOn n then s.useSample slot offset m t
  else if !b.up.learnt then (s.useSample slot offset m t).learnSample slot m ci t
  else
    let (ok, d) := s.shortTest n b.up m ci t
    if ok then
      (s.modUp slot (fun u =>
        let u := { u with outRun := 0, anchorAt := t }
        if u.demoted then u else { u with anchor := m, anchorInt := ci })).useSample slot offset m t
    else
      let s := s.modUp slot (fun u => { u with
        outRun := u.outRun + 1
        readmitAt := if u.demoted then s.now + s.w (PTE.CORR_READMIT n) * secT else u.readmitAt })
      if s.f (PTE.CORR_LIM_OUT_N n) ≤ b.up.outRun + 1 then s.demote slot .short d else s

/-- D − ms as the offset needs it: ms − D − A, or a free value while no path delay has been measured (R459, log entry 3, DESIGN CHOICE). -/
def State.offsetOf (s : State) (b : Berth) (ms : Int) : State × Int :=
  let (sum, k) := b.delay
  if k = 0 then (s.took, toSigned 64 (s.free 64))
  else
    let d : Int := k
    (s, roundOpen 40 ((ms * d - sum) * 1000 - b.asymPs * 65536 * d) (1000 * k))

/-- The tag of a stamp apart from what an UNSET time scale adds to it (R415): R470 presents a VALID offset to an UNSET time
scale, so the corridor's learning and the path delay look past that (log entry 44, DEDUCED). -/
def State.innerTag (s : State) (n : Nat) (t : Stamp) : Tag := if t.tag = .suspect then s.prtTag n else t.tag

/-- A Sync is used (R459 to R463): t1 and the corrections in 2⁻¹⁶ ns, t2, when it arrived, and Φ and the corridor integral then. Of a sample
that fails the short test nothing is used (R473). -/
def State.useSync (s : State) (slot : Nat) (t1 corr : Int) (t2 : Stamp) (at_ : Nat) (phi ci : Int) : State :=
  if t2.tag = .gap then
    let s := s.modUp slot (fun u => { u with offTag := .gap })
    s.deliverPhase slot .gap 0 at_
  else
    let n := (s.berthC slot).port
    let t := roundOpen 39 t2.val 65536
    let ms := t - t1 - corr
    let inner := s.innerTag n t2
    let s := s.modUp slot (fun u =>
      let u := u.schedule t2.sec t
      let keep := match u.dreq with
        | some (_, some t3) => ((u.mss.drop 3).filter (fun x => decide (x.1 < roundOpen 39 t3.val 65536))).take 1
        | _ => []
      { u with mss := (t, ms, inner) :: (u.mss.take 3 ++ keep) })
    let b := s.berthC slot
    let (s, offset) := s.offsetOf b ms
    let full := if b.up.mpds.length < b.par.dlyAvg then Tag.settle else .valid
    let tag := t2.tag.max full
    let inner := inner.max full
    let m := phi - offset * 2 ^ 40
    let s := s.modUp slot (fun u => { u with
      offset := offset, offTag := tag, lastPhase := if tag = .valid then u.lastPhase else some (m, inner)
      validOff := if inner = .valid then some offset else u.validOff
      validAt := if tag = .valid then s.now else u.validAt })
    let s := if tag = .valid then s.judge slot offset m ci at_
      else
        let s := if inner = .valid ∧ !b.up.learnt ∧ s.corrOn n then s.learnSample slot m ci at_ else s
        if b.up.demoted then s else s.deliverPhase slot tag m at_
    s.refreshDisagree (s.prtTsc n)

end Sys2Proof.Machine
end

