-- ==== Sys2Proof/Machine/PtpRx.lean ====
section
/-! DEFINITION. PTP messages and frames received (R402, R424 to R431, R445 to R452, R457 to R459, R466, R480, R481). -/

namespace Sys2Proof.Machine

/-- R440 and R445, the berth apart. -/
def State.ptpAccepts (s : State) (n : Nat) (m : PtpMsg) : Bool :=
  m.version == 2 && decide (m.minor ≤ 1) && m.domain == s.f (PTE.CTRL_DOMAIN n) && s.forUs n m.dst

/-- The key of an AUTHENTICATION TLV: the current or the next key of its SPP (R480). -/
def State.keyOf (s : State) (a : PtpAuth) : Option PtpKey :=
  let k := s.spp a.spp.toNat
  [k.cur, k.next].findSome? (fun o => o.bind (fun key => if key.id = a.keyId then some key else none))

/-- The message that the octets under its ICV spell, with the ICV behind them. -/
def speltMsg (f : PtpFrame) (a : PtpAuth) : PtpMsg :=
  let b := f.signed ++ a.icv
  if beAt b 2 2 = b.length then msgOf f.msg.src f.msg.dst f.msg.tags b else { f.msg with auth := none }

/-- A message fails authentication: which counter takes it (R479 to R481; log entry 43, DEDUCED). -/
def State.authFault (s : State) (b : Berth) (f : PtpFrame) : Option (Nat → Fld) :=
  match b.par.auth with
  | none => none
  | some k =>
    match f.msg.auth with
    | none => some PTE.CNT_C_AUTH_MISSING
    | some a =>
      if a.spp.toNat ≠ k ∨ (speltMsg f a).auth ≠ some a then some PTE.CNT_C_AUTH_MISSING
      else
        match s.keyOf a with
        | none => some PTE.CNT_A_AUTH_FAIL
        | some key =>
          if speltMsg f a ≠ f.msg ∨ Config.hmac key.key f.signed ≠ a.icv then some PTE.CNT_A_AUTH_FAIL
          else
            match b.replay.find? (fun x => x.1 == (ptpType f.msg.kind).1) with
            | none => none
            | some x =>
              let ahead := (f.msg.seq.toNat + 65536 - x.2) % 65536
              if 1 ≤ ahead ∧ ahead ≤ 32767 then none else some PTE.CNT_A_REPLAY

/-- A message from a berth, authenticated where the berth asks for it: the replay reference follows, or the message is
discarded and counted (R480, R481). -/
def State.authenticated (s : State) (n slot : Nat) (f : PtpFrame) (g : State → State) : State :=
  let b := s.berthC slot
  match s.authFault b f with
  | some x => (s.inc (x n)).ev (PTE.EVENT_AUTH n)
  | none =>
    let ty := (ptpType f.msg.kind).1
    let s := if b.par.auth.isSome then
        s.modBerth slot (fun b => { b with replay := (ty, f.msg.seq.toNat) :: b.replay.filter (fun x => x.1 != ty) })
      else s
    g s

/-! Admission (R448). -/

/-- A VID of an admission record. -/
def vidOf (t : Option Word) : Nat := (t.map (fun w => w.toNat % 4096)).getD 0xFFFF

/-- The admission record of a client; LOST is added when it is queued (R492). -/
def State.admRecord (s : State) (n req : Nat) (m : PtpMsg) (per : Int) : List Word :=
  let (k, a) := addrNum m.src
  let w0 := req * 2 ^ 28 + k * 2 ^ 24 + ofSigned 8 per * 2 ^ 16 + m.srcId.toNat % 65536
  let id := m.srcId.toNat / 65536
  BitVec.ofNat 32 w0 :: (toWords 2 id ++ [BitVec.ofNat 32 (vidOf m.tags[0]? * 65536 + vidOf m.tags[1]?)] ++ toWords 4 a ++
    [BitVec.ofNat 32 (s.tscC (s.prtTsc n)).sec])

/-- Two admission records are of the same client: identity and source address. -/
def sameClient (a b : List Word) : Bool :=
  let key := fun (r : List Word) => ((r.getD 0 0).toNat % 65536, (r.getD 0 0).toNat / 2 ^ 24 % 4, r.getD 1 0, r.getD 2 0,
    slice4 r)
  key a == key b
where
  /-- The words of the source address. -/
  slice4 (r : List Word) : List Word := (r.drop 4).take 4

/-- Report an unknown client. -/
def State.enterAdmission (s : State) (n req : Nat) (m : PtpMsg) (per : Int) : State :=
  let c := s.pteC n
  let r := s.admRecord n req m per
  if c.admQ.any (sameClient r) then s
  else if 256 ≤ c.admQ.length then
    ((s.inc (PTE.CNT_C_ADMIT_OVF n)).ev (PTE.EVENT_ADMIT_OVF n)).modPte n (fun c => { c with admLost := true })
  else
    let w0 := BitVec.ofNat 32 ((r.getD 0 0).toNat + b2n c.admLost * 2 ^ 26)
    let s := s.modPte n (fun c => { c with admQ := c.admQ ++ [w0 :: r.drop 1], admLost := false })
    (s.setf (PTE.STATUS_ADMITQ n) (c.admQ.length + 1)).evIf c.admQ.isEmpty (PTE.EVENT_ADMIT n)

/-! Messages that the master role consumes. -/

/-- logMessageInterval of a Delay_Resp (R452). -/
def State.respInterval (s : State) (b : Berth) : Int :=
  if s.profile b.port = 2 then (b.gResp.map (·.per)).getD b.par.logDelay else if s.profile b.port = 1 then -4 else 0

/-- The responder answers (R452); an answer that cannot be sent answers nobody (R484). -/
def State.respond (s : State) (n slot : Nat) (m : PtpMsg) (t : Stamp) : State :=
  let b := s.berthC slot
  if s.profile n = 2 ∧ b.gResp.isNone then s
  else
    let r := s.ptpBase n .delayResp m.src b.tags m.seq.toNat (s.respInterval b)
    let r := { r with
      corr := m.corr + roundOpen 42 t.frac 65536, sec := t.sec, ns := t.ns, reqId := m.srcId }
    let s := s.when (s.ptpCan n 4 b.par.auth) (fun s => s.modBerth slot (fun b => { b with
      cl := { b.cl with answeredAt := some s.now, seqResp := (m.seq.toNat + 1) % 65536 } }))
    s.ptpSend n 4 (.engine (some slot)) b.par.auth r

/-- A Delay_Req (R445, R446, R448, R452, R488): the responder of a STANDBY device answers none (R548). -/
def State.rxDelayReq (s : State) (n : Nat) (f : PtpFrame) : State :=
  let m := f.msg
  if !(s.role n == 1 || s.role n == 4) || !s.on (TSC.STATUS_SET (s.prtTsc n)) then s.discard n
  else
    match s.sender n 1 m with
    | some k =>
      if !(s.berthC k).live then s.discard n
      else if !s.serves n then s
      else s.authenticated n k f (fun s => s.respond n k m (s.rxStamp n f.cap))
    | none => if (s.sender n 2 m).isSome then s.discard n else s.enterAdmission n 1 m 0

/-- Send a Signaling message with TLVs to a berth at an address (R446, R447). -/
def State.sendSignaling (s : State) (slot : Nat) (dst : PtpAddr) (tlvs : List SigTlv) : State :=
  if tlvs.isEmpty then s
  else
    let b := s.berthC slot
    let m := s.ptpBase b.port .signaling dst b.tags b.seqSig 0x7F
    let m := { m with tlvs := tlvs, reqId := BitVec.ofNat 80 b.par.peerId }
    let s := s.modBerth slot (fun b => { b with seqSig := (b.seqSig + 1) % 65536 })
    s.ptpSend b.port 3 .none b.par.auth m

/-- A negotiation TLV from a client berth (R449): the reply. What the profile does not permit is not granted (R441). -/
def State.clientTlv (s : State) (slot : Nat) (t : SigTlv) : State × List SigTlv :=
  let b := s.berthC slot
  match t.op with
  | .request =>
    if b.par.logOf t.kind ≤ t.logPer ∧ ratePermitted t.kind t.logPer ∧ 60 ≤ t.dur ∧ t.dur ≤ 1000 then
      (s.modBerth slot (fun b => b.withGrant t.kind (some (Grant.mk t.logPer t.dur s.now (s.now + t.dur * secT)))),
        [{ t with op := .grant }])
    else (s.ev (PTE.EVENT_GRANT_DENIED b.port), [{ t with op := .grant, dur := 0 }])
  | .cancel => (s.modBerth slot (fun b => b.withGrant t.kind none), [{ t with op := .ackCancel }])
  | _ => (s, [])

/-- When a kind of grant was last asked for and is not yet given (R450). -/
def UpState.asked (u : UpState) : GrantKind → Option Nat
  | .announce => u.askAnn | .sync => u.askSync | .delayResp => u.askResp

/-- Replace the time at which a kind of grant was asked for. -/
def UpState.withAsked (u : UpState) (k : GrantKind) (t : Option Nat) : UpState :=
  match k with
  | .announce => { u with askAnn := t } | .sync => { u with askSync := t } | .delayResp => { u with askResp := t }

/-- A request for a grant has failed: EVENT.GRANT_DENIED is set once in a run of failures (R450). -/
def State.grantFails (s : State) (slot : Nat) (k : GrantKind) : State :=
  let b := s.berthC slot
  (s.evIf (!b.up.denied.contains k) (PTE.EVENT_GRANT_DENIED b.port)).modUp slot (fun u => { u with
    denied := k :: u.denied.filter (· != k) })

/-- No GRANT has come within 1 s of the request (R450). -/
def UpState.grantLate (u : UpState) (k : GrantKind) (now : Nat) : Bool :=
  match u.asked k with
  | some t => decide (t + secT < now)
  | none => false

/-- A negotiation TLV from an upstream berth (R450): the reply. A GRANT that comes late ends a run of failures, which has begun with its second;
one that the profile does not permit is none (R441; log entry 95, DEDUCED). -/
def State.upTlv (s : State) (slot : Nat) (t : SigTlv) : State × List SigTlv :=
  match t.op with
  | .grant =>
    if t.dur = 0 ∨ !ratePermitted t.kind t.logPer then (s.grantFails slot t.kind, [])
    else
      let s := s.when ((s.berthC slot).up.grantLate t.kind s.now) (fun s => s.grantFails slot t.kind)
      ((s.modBerth slot (fun b => b.withGrant t.kind (some (Grant.mk t.logPer t.dur s.now (s.now + t.dur * secT))))).modUp
        slot (fun u => { u.withAsked t.kind none with denied := u.denied.filter (· != t.kind) }), [])
  | .cancel => (s.modBerth slot (fun b => b.withGrant t.kind none), [{ t with op := .ackCancel }])
  | _ => (s, [])

/-- The TLVs of a message, in order, with the replies. -/
def State.tlvs (g : State → SigTlv → State × List SigTlv) : State → List SigTlv → State × List SigTlv
  | s, [] => (s, [])
  | s, t :: ts =>
    let (s, r) := g s t
    let (s, rs) := State.tlvs g s ts
    (s, r ++ rs)

/-- The REQ code of an admission record (R492). -/
def reqCode : GrantKind → Nat
  | .sync => 2 | .announce => 3 | .delayResp => 4

/-- The REQUEST TLVs of an unknown client (R448): each is recorded, and refused with duration 0. -/
def State.rxUnknown (s : State) (n : Nat) (m : PtpMsg) : State :=
  let rq := m.tlvs.filter (fun t => decide (t.op = .request))
  if rq.isEmpty then s.discard n
  else
    let s := s.forL rq (fun s t => s.enterAdmission n (reqCode t.kind) m t.logPer)
    let r := s.ptpBase n .signaling m.src m.tags m.seq.toNat 0x7F
    s.ptpSend n 3 .none none { r with reqId := m.srcId, tlvs := rq.map (fun t => { t with op := .grant, dur := 0 }) }

/-- What a message carries for the host goes there as a host frame (R440, R445). -/
def State.hostPart (s : State) (n : Nat) (f : PtpFrame) : State := if f.toHost = [] then s else s.rxHost n f.cap f.toHost

/-- The tags of a message that comes from no berth let it pass: it is untagged, or tagged as a berth of the port, and its sender is no berth
under other tags (R445; log entry 95, DEDUCED). -/
def State.tagsKnown (s : State) (n : Nat) (m : PtpMsg) : Bool :=
  let bs := (s.slotsOn n 1 ++ s.slotsOn n 2).map s.berthC
  bs.all (fun b => !(b.par.peerId == m.srcId.toNat && b.hasAddr m.src)) && (m.tags.isEmpty || bs.any (fun b => b.tags == m.tags))

/-- A message that the engine does not process goes to the host (R440, R445): Management, and Signaling with no TLV of the engine's. From a
berth it is authenticated as any other (R480, R481). -/
def State.ptpToHost (s : State) (n : Nat) (f : PtpFrame) : State :=
  match (s.sender n 1 f.msg).orElse (fun _ => s.sender n 2 f.msg) with
  | some k => s.authenticated n k f (fun s => s.hostPart n f)
  | none => if s.tagsKnown n f.msg then s.hostPart n f else s.discard n

/-- A Signaling message (R446, R448 to R450). While the time scale is UNSET the engine serves no client, and what only the master role
consumes is discarded (R369, R445). -/
def State.rxSignaling (s : State) (n : Nat) (f : PtpFrame) : State :=
  let m := f.msg
  let master := (s.role n == 1 || s.role n == 4) && s.on (TSC.STATUS_SET (s.prtTsc n))
  match s.sender n 1 m with
  | some k =>
    if !(s.berthC k).live || !master || s.profile n != 2 then s.discard n
    else if !s.serves n then s
    else s.authenticated n k f (fun s =>
      let (s, r) := State.tlvs (fun s t => s.clientTlv k t) s m.tlvs
      (s.sendSignaling k m.src r).hostPart n f)
  | none =>
    match s.sender n 2 m with
    | some k =>
      if !(s.berthC k).live || !s.listens n || s.profile n != 2 then s.discard n
      else s.authenticated n k f (fun s =>
        let (s, r) := State.tlvs (fun s t => s.upTlv k t) s m.tlvs
        (s.sendSignaling k m.src r).hostPart n f)
    | none => if master && s.profile n == 2 then (s.rxUnknown n m).hostPart n f else s.discard n

/-! Messages from upstream berths. -/

/-- The time a message carries, in 2⁻¹⁶ ns. -/
def ptpTime (m : PtpMsg) : Int := ((m.sec * 1000000000 + m.ns) * 65536 : Nat)

/-- A two-step Sync is lost without its Follow_Up (R457). -/
def State.fuLost (s : State) (n : Nat) : State := (s.inc (PTE.CNT_B_FU_LOST n)).ev (PTE.EVENT_FU_LOST n)

/-- A Sync from an upstream berth (R457). -/
def State.upSync (s : State) (n slot : Nat) (f : PtpFrame) : State :=
  let m := f.msg
  let t2 := s.rxStamp n f.cap
  let phi := (s.tscC (s.prtTsc n)).phi
  let ci := (s.pteC n).corrInt
  if !m.twoStep then s.useSync slot (ptpTime m) m.corr t2 s.now phi ci
  else
    let ps := (s.berthC slot).up.pairs
    let p := PairSlot.mk m.seq.toNat m.srcId.toNat t2 m.corr s.now phi ci
    let s := s.modUp slot (fun u => { u with pairs := (if 2 ≤ ps.length then ps.drop (ps.length - 1) else ps) ++ [p] })
    if 2 ≤ ps.length then s.fuLost n else s

/-- How long a two-step Sync waits for its Follow_Up: two of the berth's Sync intervals (R457). -/
def State.pairSpan (s : State) (slot : Nat) : Nat := 2 * intervalT (s.rxLog (s.berthC slot) .sync)

/-- A Follow_Up from an upstream berth (R457); the expiry of a pairing window wins over it (R488). -/
def State.upFollowUp (s : State) (n slot : Nat) (f : PtpFrame) : State :=
  let m := f.msg
  let b := s.berthC slot
  match b.up.pairs.find? (fun p =>
    p.seq == m.seq.toNat && p.src == m.srcId.toNat && decide (s.now < p.arrived + s.pairSpan slot)) with
  | none => (s.inc (PTE.CNT_B_FU_ORPHAN n)).ev (PTE.EVENT_FU_ORPHAN n)
  | some p =>
    let s := s.modUp slot (fun u => { u with pairs := u.pairs.filter (fun q => q != p) })
    s.useSync slot (ptpTime m) (p.corr + m.corr) p.t2 p.arrived p.phi p.ci

/-- A Delay_Resp from an upstream berth (R458, R459). -/
def State.upDelayResp (s : State) (n slot : Nat) (f : PtpFrame) : State :=
  let m := f.msg
  let b := s.berthC slot
  match b.up.dreq with
  | some (seq, some t3) =>
    if m.seq.toNat ≠ seq ∨ m.reqId.toNat ≠ s.portId n then s.discard n
    else
      let v := roundOpen 39 t3.val 65536
      let sm := ptpTime m - v - m.corr
      s.modUp slot (fun u =>
        let u := { u with dreq := none }
        match u.mss.find? (fun x => decide (x.1 < v)) with
        | some (_, ms, tag) =>
          if tag.max (s.innerTag n t3) = .valid then { u with mpds := ((ms + sm) :: u.mpds).take b.par.dlyAvg } else u
        | none => u)
  | _ => s.discard n

/-- An Announce from an upstream berth (R466, R467). -/
def State.upAnnounce (s : State) (slot : Nat) (f : PtpFrame) : State :=
  (s.modUp slot (fun u => { u with
    ann := f.msg.data, annSrc := f.msg.srcId.toNat, annCurrent := true, annLate := false, annAt := s.now })).upFollow slot

/-- A message from an upstream berth in service, authenticated (R446, R480). -/
def State.fromUp (s : State) (n : Nat) (f : PtpFrame) (listens : Bool) (g : State → Nat → State) : State :=
  match s.sender n 2 f.msg with
  | some k => if listens && (s.berthC k).live then s.authenticated n k f (fun s => g s k) else s.discard n
  | none => s.discard n

/-- The engine handles a PTP message (R440, R444 to R446). -/
def State.ptpMsg (s : State) (n : Nat) (f : PtpFrame) : State :=
  if s.role n = 0 ∨ !s.ptpAccepts n f.msg then s.discard n
  else
    match f.msg.kind with
    | .sync => s.fromUp n f (s.listens n) (fun s k => s.upSync n k f)
    | .followUp => s.fromUp n f (s.listens n) (fun s k => s.upFollowUp n k f)
    | .delayResp => s.fromUp n f (s.listens n) (fun s k => s.upDelayResp n k f)
    | .announce => s.fromUp n f (s.listens n || s.role n == 3) (fun s k => s.upAnnounce k f)
    | .delayReq => s.rxDelayReq n f
    | .signaling => if f.msg.tlvs = [] ∧ f.toHost ≠ [] then s.ptpToHost n f else s.rxSignaling n f
    | .management => s.ptpToHost n f
    | .other => s.discard n

/-- The Ethernet destination of a message: that of the multicast group for an IP group address, else the port's own. -/
def State.etherDst (s : State) (n : Nat) (m : PtpMsg) : Nat :=
  match m.dst with
  | .mac a => a.toNat
  | .v4 a => if a.toNat / 2 ^ 28 = 0xE then 0x01005E000000 + a.toNat % 2 ^ 23 else s.macOf n
  | .v6 a => if a.toNat / 2 ^ 120 = 0xFF then 0x333300000000 + a.toNat % 2 ^ 32 else s.macOf n

/-- Octets of a received message's frame with its frame check sequence (R402). -/
def ptpFrameLen (f : PtpFrame) : Nat :=
  (if f.toHost = [] then (TxFrame.mk (.ptp f.msg) .none).len else max 60 f.toHost.length) + 4

/-- A PTP message arrives at a port: the frame is counted and filtered as any other (R402, R424, R438), and the engine handles the
message. -/
def State.rxPtp (s : State) (n : Nat) (f : PtpFrame) : State :=
  if !s.prtLive n || s.on (PRT.STATUS_DORMANT n) || !s.on (PRT.STATUS_LINK n) then s
  else if f.wharfFull then s.wharfDrop
  else if s.f (PRT.MTU_OCTETS n) < ptpFrameLen f then s.count n 9
  else
    let s := (s.modPrt n (fun c => (c.addStat 5 1).addStat 1 (ptpFrameLen f))).settleFrame n
    if s.accepts n (beBytes 6 (s.etherDst n f.msg)) then s.ptpMsg n f else s.count n 10

/-! Frames of octets. -/

/-- Up to `k` tags of a string, outer first. -/
def tagsIn : Nat → List Byte → List Word
  | 0, _ => []
  | k + 1, b => if beAt b 0 2 = 0x8100 ∨ beAt b 0 2 = 0x88A8 then BitVec.ofNat 32 (beAt b 0 4) :: tagsIn k (b.drop 4) else []

/-- Source and destination address of a PTP frame. -/
def ptpAddrs (b : List Byte) : PtpAddr × PtpAddr :=
  let (t, p) := frameType b
  if t = 0x88F7 then (.mac (BitVec.ofNat 48 (beAt b 6 6)), .mac (BitVec.ofNat 48 (beAt b 0 6)))
  else if t = 0x0800 then (.v4 (BitVec.ofNat 32 (beAt p 12 4)), .v4 (BitVec.ofNat 32 (beAt p 16 4)))
  else (.v6 (BitVec.ofNat 128 (beAt p 8 16)), .v6 (BitVec.ofNat 128 (beAt p 24 16)))

/-- A Signaling message carries a TLV for the host: none of the engine's, and not the last TLV that authenticates it (R440, R479). -/
def hostTlvs (m : PtpMsg) (b : List Byte) : Bool :=
  let l := tlvList b.length (b.drop 44)
  decide (m.tlvs.length + b2n m.auth.isSome < l.length)

/-- The PTP message of a frame that `isPtpFrame` recognises (log entry 21, DESIGN CHOICE). -/
def ptpFrameOf (f : RxFrame) : PtpFrame :=
  let p := ptpPayload f.bytes
  let b := p.take (beAt p 2 2)
  let (src, dst) := ptpAddrs f.bytes
  let m := msgOf src dst (tagsIn 2 (f.bytes.drop 12)) b
  let host := decide (m.kind = .management) || (decide (m.kind = .signaling) && hostTlvs m b)
  ⟨m, b.take (b.length - 16), f.cap, f.wharfFull, if host then f.bytes else []⟩

/-- A frame arrives at a port (R58, R402, R409, R410, R424 to R431, R440): MAC control frames, ESMC PDUs and PTP messages go to their
consumers. -/
def State.rxFrame (s : State) (n : Nat) (f : RxFrame) : State :=
  if !s.prtLive n ∨ !s.on (PRT.STATUS_BLOCK_LOCK n) then s
  else
  let s := s.rxLine n f.line
  if f.line.fault ≠ .none then s
  else if f.wharfFull then s.wharfDrop
  else if s.on (PRT.STATUS_DORMANT n) then
    (if n < 2 ∧ f.fcsOk ∧ s.accepts n f.bytes then
      (match s.wakeMatch n f.bytes with
       | some k => s.wake n k
       | none => s)
     else s)
  else if !s.on (PRT.STATUS_LINK n) then s
  else
    let (s, ok) := s.rxCount n f.bytes f.fcsOk
    if !ok then s
    else
      let t := (frameType f.bytes).1
      if t = 0x8808 then s.rxControl n f.bytes
      else if !s.accepts n f.bytes then s.count n 10
      else if beAt f.bytes 0 6 = 0x0180C2000002 ∧ t = 0x8809 ∧ beAt f.bytes 14 1 = 0x0A then s.rxEsmc n f.bytes
      else if isPtpFrame f.bytes then s.ptpMsg n (ptpFrameOf f)
      else s.rxHost n f.cap f.bytes

/-- FRAME_RECEIVED (R424). -/
def execFrameReceived (n : Fin 8) (f : RxFrame) (s : State) : Host.Outcome State Fault Refusal := .next (s.rxFrame n f)

/-- ESMC_PDU_RECEIVED (R431). -/
def execEsmcPduReceived (n : Fin 8) (f : RxFrame) (s : State) : Host.Outcome State Fault Refusal := .next (s.rxFrame n f)

/-- PAUSE_RECEIVED (R429). -/
def execPauseReceived (n : Fin 8) (f : RxFrame) (s : State) : Host.Outcome State Fault Refusal := .next (s.rxFrame n f)

/-- SYNC_RECEIVED (R457). -/
def execSyncReceived (n : Fin 8) (f : PtpFrame) (s : State) : Host.Outcome State Fault Refusal := .next (s.rxPtp n f)

/-- DELAY_REQ_RECEIVED (R452). -/
def execDelayReqReceived (n : Fin 8) (f : PtpFrame) (s : State) : Host.Outcome State Fault Refusal := .next (s.rxPtp n f)

/-- FOLLOW_UP_RECEIVED (R457). -/
def execFollowUpReceived (n : Fin 8) (f : PtpFrame) (s : State) : Host.Outcome State Fault Refusal := .next (s.rxPtp n f)

/-- DELAY_RESP_RECEIVED (R458). -/
def execDelayRespReceived (n : Fin 8) (f : PtpFrame) (s : State) : Host.Outcome State Fault Refusal := .next (s.rxPtp n f)

/-- ANNOUNCE_RECEIVED (R467). -/
def execAnnounceReceived (n : Fin 8) (f : PtpFrame) (s : State) : Host.Outcome State Fault Refusal := .next (s.rxPtp n f)

/-- SIGNALING_RECEIVED (R449). -/
def execSignalingReceived (n : Fin 8) (f : PtpFrame) (s : State) : Host.Outcome State Fault Refusal := .next (s.rxPtp n f)

end Sys2Proof.Machine
end

