-- ==== Sys2Proof/Machine/PtpTx.lean ====
section
/-! DEFINITION. What PTP engines send and when, their timers, the presentation of offsets to the time scale, the corridor's seconds,
and the commands of `PTE[n].CMD` (R447, R449 to R451, R455, R456, R464 to R470, R474 to R477, R484, R492, R493). -/

namespace Sys2Proof.Machine

/-- The port may carry what the engine sends now (R485). -/
def State.ptpUp (s : State) (n : Nat) : Bool :=
  s.prtLive n && s.on (PRT.STATUS_LINK n) && !s.on (PRT.STATUS_DORMANT n)

/-- The engine may send to its clients: it serves, and its time scale is SET (R369, R444, R548). -/
def State.mayServe (s : State) (n : Nat) : Bool := s.ptpUp n && s.serves n && s.on (TSC.STATUS_SET (s.prtTsc n))

/-- The client berth takes messages of its own, as only profile 0x2 permits: it can be reached, and holds a grant of the kind (R441,
R449). -/
def State.mayServeTo (s : State) (n slot : Nat) (k : GrantKind) : Bool :=
  let b := s.berthC slot
  s.inService slot 1 && b.port == n &&
    s.profile n == 2 && s.reachable b && (b.grant k).isSome

/-- logMessageInterval of what is sent to a berth, or to the multicast address of the profile (R441, R449). -/
def State.txInterval (s : State) (n : Nat) (slot : Option Nat) (k : GrantKind) : Int :=
  match slot with
  | some j => let b := s.berthC j; ((b.grant k).map (·.per)).getD (b.par.logOf k)
  | none => if k = .announce then mcLogAnn (s.profile n) else if s.profile n = 1 then -4 else 0

/-- The next sequenceId for a message to a berth or for multicast (R447), and the state with it taken. -/
def State.takeSeq (s : State) (n : Nat) (slot : Option Nat) (ann : Bool) : Nat × State :=
  match slot with
  | some j =>
    let c := (s.berthC j).cl
    if ann then (c.seqAnn, s.modBerth j (fun b => { b with cl := { b.cl with seqAnn := (b.cl.seqAnn + 1) % 65536 } }))
    else (c.seqSync, s.modBerth j (fun b => { b with cl := { b.cl with seqSync := (b.cl.seqSync + 1) % 65536 } }))
  | none =>
    let c := s.pteC n
    if ann then (c.mcAnn, s.modPte n (fun c => { c with mcAnn := (c.mcAnn + 1) % 65536 }))
    else (c.mcSync, s.modPte n (fun c => { c with mcSync := (c.mcSync + 1) % 65536 }))

/-- Destination, tags and SPP of messages to a berth or to the multicast address (R482, R483). -/
def State.txTo (s : State) (n : Nat) (slot : Option Nat) : PtpAddr × List Word × Option Nat :=
  match slot with
  | some j => let b := s.berthC j; (s.berthAddr b, b.tags, b.par.auth)
  | none => (s.mcast n, s.mcTags n, s.mcAuth n)

/-- Send a Sync, Announce or Delay_Req with its own number. -/
def State.sendSync (s : State) (n : Nat) (slot : Option Nat) : State :=
  let (d, tags, auth) := s.txTo n slot
  let (q, s) := s.takeSeq n slot false
  let m := s.ptpBase n .sync d tags q (s.txInterval n slot .sync)
  s.ptpSend n 4 (.engine slot) auth { m with twoStep := !s.on (PTE.CTRL_ONE_STEP n) }

/-- See `State.sendSync`. -/
def State.sendAnnounce (s : State) (n : Nat) (slot : Option Nat) : State :=
  let (d, tags, auth) := s.txTo n slot
  let (q, s) := s.takeSeq n slot true
  let m := s.ptpBase n .announce d tags q (s.txInterval n slot .announce)
  s.ptpSend n 3 (.announce slot) auth { m with data := some (s.ownData n) }

/-- Whether an interval of multicast, or of a berth, makes a message. -/
def State.txDue (s : State) (n : Nat) (slot : Option Nat) (k : GrantKind) : Bool :=
  s.mayServe n && (match slot with | some j => s.mayServeTo n j k | none => s.profile n != 2)

/-- SYNC_TX_INTERVAL (R446, R455, R456). -/
def execSyncTxInterval (n : Fin 8) (slot : Option (Fin 8192)) (s : State) : Host.Outcome State Fault Refusal :=
  let k := slot.map Fin.val
  if s.txDue n k .sync then .next (s.sendSync n k) else .next s

/-- ANNOUNCE_TX_INTERVAL (R446, R451). -/
def execAnnounceTxInterval (n : Fin 8) (slot : Option (Fin 8192)) (s : State) : Host.Outcome State Fault Refusal :=
  let k := slot.map Fin.val
  if s.txDue n k .announce then .next (s.sendAnnounce n k) else .next s

/-- The upstream berth is served by an engine that listens and may send. -/
def State.upLive (s : State) (slot : Nat) : Bool :=
  let n := (s.berthC slot).port
  s.inService slot 2 && s.ptpUp n && s.listens n && s.reachable (s.berthC slot)

/-- Destination, tags and SPP of a Delay_Req to an upstream berth: a multicast one goes as the engine's other multicast messages do, and one of
an authenticated berth is authenticated in either case (R441, R482, R483). -/
def State.reqTo (s : State) (b : Berth) : PtpAddr × List Word × Option Nat :=
  if s.profile b.port = 2 then (s.berthAddr b, b.tags, b.par.auth)
  else (s.mcast b.port, s.mcTags b.port, (s.mcAuth b.port).orElse (fun _ => b.par.auth))

/-- Send a Delay_Req; an exchange without its Delay_Resp is lost (R446, R458). -/
def State.sendDelayReq (s : State) (slot : Nat) : State :=
  let b := s.berthC slot
  let n := b.port
  let s := if b.up.dreq.isSome then
      ((s.inc (PTE.CNT_D_DRESP_LOST n)).ev (PTE.EVENT_DRESP_LOST n)).modUp slot (fun u => { u with
        drespLost := satBits 13 (u.drespLost + 1) })
    else s
  let (d, tags, auth) := s.reqTo b
  let m := s.ptpBase n .delayReq d tags b.seqReq 0x7F
  let s := (s.modBerth slot (fun b => { b with seqReq := (b.seqReq + 1) % 65536 })).modUp slot (fun u => { u with
    dreq := some (b.seqReq, none) })
  s.ptpSend n 4 (.engine (some slot)) auth m

/-- DELAY_REQ_TX_INTERVAL (R446, R450, R458). -/
def execDelayReqTxInterval (slot : Fin 8192) (s : State) : Host.Outcome State Fault Refusal :=
  let b := s.berthC slot
  if s.upLive slot ∧ (s.profile b.port ≠ 2 ∨ b.gResp.isSome) then .next (s.sendDelayReq slot) else .next s

/-! Stamps of frames sent. -/

/-- A two-step Sync's stamp arrives: the Follow_Up goes where the Sync has gone, with its tags and under its SPP (R456, R482, R483). -/
def State.sendFollowUp (s : State) (n : Nat) (m : PtpMsg) (t : Stamp) : State :=
  let r := s.ptpBase n .followUp m.dst m.tags m.seq.toNat m.logInt
  s.ptpSend n 3 .none (m.auth.map (fun a => a.spp.toNat)) { r with sec := t.sec, ns := t.ns, corr := roundOpen 42 t.frac 65536 }

/-- The content of a one-step Sync as it leaves (R455, R482). -/
def State.oneStep (s : State) (m : PtpMsg) (t : Stamp) : PtpMsg :=
  let m := { m with sec := t.sec, ns := t.ns, corr := roundOpen 42 t.frac 65536 }
  match m.auth with
  | some a => (s.sign a.spp.toNat { m with auth := none }).getD m
  | none => m

/-- A one-step Sync as it leaves, over IPv6 with the two octets that keep its UDP checksum right (R455). -/
def State.oneStepBody (s : State) (m : PtpMsg) (t : Stamp) : TxBody :=
  let m' := s.oneStep m t
  match m.dst with
  | .v6 _ => .ptp6 m' (checksumPad m m')
  | _ => .ptp m'

/-- The stamp of an event frame of the engine (R455, R456, R459, R484). -/
def State.engineStamp (s : State) (n : Nat) (slot : Option Nat) (m : PtpMsg) (t : Stamp) : State :=
  match m.kind with
  | .sync =>
    let s := s.reportServed n 0 slot
    if m.twoStep then s.when (s.serves n) (fun s => s.sendFollowUp n m t)
    else s.modPrt n (fun c => { c with lastTx := some ⟨s.oneStepBody m t, .engine slot⟩ })
  | .delayReq =>
    match slot with
    | some k => s.modUp k (fun u =>
        match u.dreq with
        | some (q, none) => if q = m.seq.toNat then { u with dreq := some (q, some t) } else u
        | _ => u)
    | none => s
  | .delayResp => s.reportServed n 1 slot
  | _ => s

/-- The owner of an event frame receives its stamp (R422, R456, R484, R507). -/
def State.stampOwner (s : State) (n : Nat) (f : TxFrame) (t : Stamp) : State :=
  match f.owner with
  | .host id => s.tsqPush n id (some t)
  | .berth k => s.evqPush k (evqWords t.tag 1 false 0 (some t) 0)
  | .engine slot => match f.body with
    | .ptp m => s.engineStamp n slot m t
    | _ => s
  | _ => s

/-- The stamp of a frame at a full wharf is discarded and counted, and its slot is GAP (R58). -/
def State.wharfStamp (s : State) (cap : StampCap) (full : Bool) : State × StampCap :=
  if full then (s.wharfDrop, { cap with ok := false }) else (s, cap)

/-- TX_STAMP_DELIVERY (R58, R417, R419, R422): the event frame that is first in the order of transmission leaves. -/
def execTxStampDelivery (n : Fin 8) (x : TxCapture) (s : State) : Host.Outcome State Fault Refusal :=
  if !s.canSend n then .next s
  else
    match (s.prtC n).firstQueue with
    | none => .next s
    | some q =>
      match (s.prtC n).queue q with
      | [] => .next s
      | f :: _ =>
        if !f.isEvent then .next (s.drainAll n)
        else
          let (s, cap) := s.wharfStamp x.cap x.wharfFull
          let t := s.txStamp n cap
          let s := (s.sent n q f).setf (PRT.STATUS_CTX n) (s.ctxUsed n - 1)
          .next ((s.stampOwner n f t).drainAll n)

/-! Timers. -/

/-- FOLLOW_UP_TIMEOUT (R457): two-step Syncs whose two intervals have passed are lost. -/
def execFollowUpTimeout (slot : Fin 8192) (s : State) : Host.Outcome State Fault Refusal :=
  let b := s.berthC slot
  let span := s.pairSpan slot
  let late := b.up.pairs.filter (fun p => decide (p.arrived + span ≤ s.now))
  let s := s.forL late (fun s _ => s.fuLost b.port)
  .next (if late.isEmpty then s else s.modUp slot (fun u => { u with
    pairs := u.pairs.filter (fun p => decide (s.now < p.arrived + span)) }))

/-- ANNOUNCE_TIMEOUT (R465, R466, R488): three Announce intervals have passed without one. -/
def execAnnounceTimeout (slot : Fin 8192) (s : State) : Host.Outcome State Fault Refusal :=
  let b := s.berthC slot
  let span := 3 * intervalT (s.rxLog b .announce)
  if s.inService slot 2 ∧ !b.up.annLate ∧ b.up.annAt + span ≤ s.now then
    let s := s.modUp slot (fun u => { u with annCurrent := false, annLate := true })
    .next (((s.ev (PTE.EVENT_ANN_TIMEOUT b.port)).streamFault slot true).upFollow slot)
  else .next s

/-- GRANT_EXPIRY (R449). -/
def execGrantExpiry (slot : Fin 8192) (t : GrantKind) (s : State) : Host.Outcome State Fault Refusal :=
  let b := s.berthC slot
  match b.grant t with
  | some g =>
    if s.now < g.until_ then .next s
    else
      let s := s.modBerth slot (fun b => b.withGrant t none)
      .next (s.evIf (b.kind == 1) (PTE.EVENT_GRANT_EXPIRED b.port))
  | none => .next s

/-- Ask an upstream berth for a grant (R450), of a period within what the profile permits (R441; log entry 95, DESIGN CHOICE). -/
def State.askGrant (s : State) (slot : Nat) (k : GrantKind) : State :=
  let b := s.berthC slot
  (s.sendSignaling slot (s.berthAddr b) [SigTlv.mk .request k (min 0 (b.par.logOf k)) b.par.grantDur]).modUp slot (fun u => u.withAsked k (some s.now))

/-- GRANT_RENEW (R450): three quarters of the granted duration have passed. -/
def execGrantRenew (slot : Fin 8192) (t : GrantKind) (s : State) : Host.Outcome State Fault Refusal :=
  let b := s.berthC slot
  match b.grant t with
  | some g =>
    if s.upLive slot ∧ s.profile b.port = 2 ∧ (b.up.asked t).isNone ∧ 3 * g.dur * secT ≤ 4 * (s.now - g.since) then
      .next (s.askGrant slot t)
    else .next s
  | none => .next s

/-- GRANT_RETRY (R450): a request that is a second old without a GRANT has failed, and after two seconds it is made again; or a grant that
has ended has not been asked for again. -/
def execGrantRetry (slot : Fin 8192) (t : GrantKind) (s : State) : Host.Outcome State Fault Refusal :=
  let b := s.berthC slot
  if !s.upLive slot ∨ s.profile b.port ≠ 2 then .next s
  else
    match b.up.asked t with
    | some at_ =>
      if s.now < at_ + secT then .next s
      else
        let s := s.grantFails slot t
        .next (if s.now < at_ + 2 * secT then s else s.askGrant slot t)
    | none => .next (if (b.grant t).isNone then s.askGrant slot t else s)

/-- SAMPLE_STREAM_TIMEOUT (R193, R465). -/
def execSampleStreamTimeout (slot : Fin 8192) (s : State) : Host.Outcome State Fault Refusal :=
  if (s.berthC slot).kind = 2 ∧ s.streamOld slot then .next (s.streamFault slot true) else .next s

/-! Presentation (R469 to R471). -/

/-- Demote a berth whose presentation the time scale has refused (R471). -/
def State.refusedUp (s : State) (slot : Nat) (c : Code) (amount : Int) : State :=
  if c = .ok then s else s.demote slot .refusal (-amount * 2 ^ 24)

/-- Present the offsets of the best berth: a STEP of the latest offset while the time scale is UNSET, once learning has ended; else
an ADJUST of minus the mean (R469, R470). Amounts are in 2⁻³² ns. -/
def State.presentUp (s : State) (k slot : Nat) : State :=
  let u := (s.berthC slot).up
  if !s.on (TSC.STATUS_SET k) then
    match u.validOff with
    | some o =>
      if u.learnt ∨ !s.corrOn (s.berthC slot).port then
        let a := -o * 65536
        let (s, c) := s.presentStep k .upstream a
        s.refusedUp slot c a
      else s
    | none => s
  else if u.perN < 4 then s
  else
    let a := -roundOpen 41 (u.perSum * 65536) u.perN
    let (s, c) := s.tryAdjust k .upstream a
    s.refusedUp slot c a

/-- The crossing link replicates time scale k (R544). -/
def State.replicated (s : State) (k : Nat) : Bool := s.xlkBuilt && bitAt (s.f XLK.CFG_TSMASK) k

/-- TS_PRESENT_PERIOD (R469, R544): PERIOD has passed since the period began; the count of offsets begins anew. -/
def execTsPresentPeriod (n : Fin 8) (s : State) : Host.Outcome State Fault Refusal :=
  let k := s.prtTsc n
  if !s.prtLive n ∨ !s.on (PTE.TS_CTRL_EN n) ∨ s.now < (s.pteC n).perAt + s.f (PTE.TS_CTRL_PERIOD n) * secT then .next s
  else
    let s := s.modPte n (fun c => { c with perAt := s.now })
    let best := (s.slotsOn n 2).find? (fun j => s.handleOf j == s.w (PTE.BEST n))
    let standby := s.f XLK.STATUS_ROLE == 2 && s.replicated k
    let s := match best with
      | some j => if (s.disagreeing k).contains j || standby || (s.berthC j).up.demoted then s else s.presentUp k j
      | none => s
    .next (s.forL (s.slotsOn n 2) (fun s j => s.modUp j (fun u => { u with perSum := 0, perN := 0 })))

/-! The corridor's seconds (R464, R474, R475). -/

/-- The slope of a list of master phases over time by least squares, in 2⁻⁵⁶ against the timeline of OSCIN (R464): times in T, phases
in 2⁻⁵⁶ ns. -/
def slopeOf (l : List (Nat × Int)) (ybar : Int) : Int :=
  let t0 := (l.map (·.1)).foldl min ((l.map (·.1)).headD 0)
  let n : Int := l.length
  let sx := (l.map (fun p => ((p.1 - t0 : Nat) : Int))).sum
  let sy := (l.map (·.2)).sum
  let sxy := (l.map (fun p => ((p.1 - t0 : Nat) : Int) * p.2)).sum
  let sxx := (l.map (fun p => ((p.1 - t0 : Nat) : Int) * (p.1 - t0 : Nat))).sum
  let den := n * sxx - sx * sx
  if den = 0 then 0 else roundOpen 45 (2 * (n * sxy - sx * sy) * q56) (den.toNat * (q56 + ybar).toNat)

/-- The frequency estimate of an upstream berth is formed anew (R464; each second, log entry 33, DEDUCED). -/
def State.estimate (s : State) (slot : Nat) : State :=
  let b := s.berthC slot
  let win := b.par.freqWin * secT
  let ps := b.up.phases.filter (fun p => decide (s.now ≤ p.1 + win))
  let y := slopeOf ps (s.tscC (s.prtTsc b.port)).ybar
  s.modUp slot (fun u => { u with phases := ps, freq := if 16 ≤ ps.length then some y else none })

/-- What the estimate of an upstream berth gives the entries that carry it (R464). -/
def State.estimatesOf (s : State) (slot : Nat) : List ((Nat × Nat) × Tag × Int × Int) :=
  let u := (s.berthC slot).up
  if u.demoted then []
  else (s.entriesFrom slot).map (fun x => (x, match u.freq with | some y => (Tag.valid, y, y) | none => (Tag.gap, 0, 0)))

/-- The mean master phase of the second in progress. -/
def UpState.mean (u : UpState) : Option Int := if u.secN = 0 then none else some (roundOpen 46 u.secSum u.secN)

/-- The mean master phase of a berth over the second that ends at engine n: another engine may have ended it already (R475). -/
def State.meanOf (s : State) (n slot : Nat) : Option Int :=
  let b := s.berthC slot
  let ended : Bool := match (s.pteC b.port).secAt with
    | some t => decide (s.now < t + secT / 2)
    | none => false
  if b.port ≠ n ∧ ended then b.up.secMean else b.up.mean

/-- The long test (R474): windows of WIN s after learning. A second without a sample, or in which the test is suspended, is compared with
nothing and passes all the same (log entry 95, DEDUCED). -/
def State.longTest (s : State) (n slot : Nat) : State :=
  let u := (s.berthC slot).up
  let ci := (s.pteC n).corrInt
  if !s.corrOn n ∨ !u.learnt then s
  else
    let mean := if s.corrIdle n then none else u.mean
    let ends := decide (u.winLeft ≤ 1)
    let left := if ends then s.w (PTE.CORR_WIN n) else u.winLeft - 1
    match mean, u.winMean with
    | some m, some (m0, c0) =>
      let d := (m - m0) - (ci - c0)
      if s.w (PTE.CORR_DRIFT n) * 2 ^ 56 < d.natAbs then s.demote slot .long d
      else s.modUp slot (fun u => { u with winMean := some (if ends then (m, ci) else (m0, c0)), winLeft := left })
    | some m, none => s.modUp slot (fun u => { u with winMean := some (m, ci), winLeft := left })
    | none, w => s.modUp slot (fun u => { u with winMean := if ends then none else w, winLeft := left })

/-- The berth takes part in the cross test: qualified, or demoted and tested on (R475, R476). -/
def State.crossTested (s : State) (slot : Nat) : Bool :=
  let b := s.berthC slot
  s.inService slot 2 && b.up.annCurrent && (s.qualifiedUp slot || b.up.demoted)

/-- The means of the other qualified berths of the time scale over the second that ends at engine n (R475). -/
def State.otherMeans (s : State) (n slot : Nat) : List Int :=
  (s.berth.filter (fun x =>
    x.1 != slot && s.qualifiedUp x.1 && s.prtTsc x.2.port == s.prtTsc n)).filterMap (fun x => s.meanOf n x.1)

/-- The cross test fails in this second: the berth has a mean, and it differs by more than CROSS from more than half of the other qualified
berths of the time scale, of which there are two or more (R475). -/
def State.crossFails (s : State) (n slot : Nat) : Bool :=
  let others := s.otherMeans n slot
  let lim := s.f (PTE.CORR_LIM_CROSS n) * 2 ^ 56
  match (s.berthC slot).up.mean with
  | some m => decide (2 ≤ others.length) &&
      decide (others.length < 2 * (others.filter (fun o => decide (lim < (m - o).natAbs))).length)
  | none => false

/-- The deviation that the record of a cross demotion tells: from the first other mean (log entry 40, DEDUCED). -/
def State.crossDev (s : State) (n slot : Nat) : Int :=
  ((s.berthC slot).up.mean.getD 0) - (s.otherMeans n slot).headD 0

/-- The cross test of one second (R475, R477): a second in which it is not failed ends the run of failures. -/
def State.crossTest (s : State) (n slot : Nat) : State :=
  if s.corrOn n ∧ s.crossTested slot ∧ s.crossFails n slot then
    let k := (s.berthC slot).up.crossFails + 1
    let s := s.modUp slot (fun u => { u with
      crossFails := k, readmitAt := if u.demoted then s.now + s.w (PTE.CORR_READMIT n) * secT else u.readmitAt })
    if 3 ≤ k then s.demote slot .cross (s.crossDev n slot) else s
  else s.modUp slot (fun u => { u with crossFails := 0 })

/-- CORRIDOR_SECOND (R464, R474, R475): a whole second ends at engine n. -/
def execCorridorSecond (n : Fin 8) (s : State) : Host.Outcome State Fault Refusal :=
  if !s.prtLive n then .next s
  else
    let l := s.slotsOn n 2
    let s := s.forL l (fun s k => s.estimate k)
    let s := s.entryResults (l.flatMap s.estimatesOf)
    let s := s.forL l (fun s k => s.longTest n k)
    let s := s.forL l (fun s k => s.crossTest n k)
    let s := s.modPte n (fun c => { c with secAt := some s.now })
    .next (s.forL l (fun s k => s.modUp k (fun u => { u with secMean := u.mean, secSum := 0, secN := 0 })))

/-- CORRIDOR_READMIT (R477): READMIT s without a failure. -/
def execCorridorReadmit (slot : Fin 8192) (s : State) : Host.Outcome State Fault Refusal :=
  let u := (s.berthC slot).up
  if (s.berthC slot).kind = 2 ∧ u.demoted ∧ u.readmitAt ≤ s.now then .next (s.promote slot) else .next s

/-- ASYM_RAMP_DONE (R460): the time scale has reached the end of the ramp. -/
def execAsymRampDone (slot : Fin 8192) (s : State) : Host.Outcome State Fault Refusal :=
  let b := s.berthC slot
  match b.up.ramp with
  | some r =>
    if (s.tscC (s.prtTsc b.port)).val < (r.2.1 + (r.2.2.ramp * 1000000000 * 65536 : Nat)) * 2 ^ 40 then .next s
    else
      let s := s.modUp slot (fun u => { u with ramp := none, schedPs := r.2.2.target })
      .next (s.ev (PTE.EVENT_ASYM_DONE b.port))
  | none => .next s

/-! Commands of CMD. -/

/-- Usable slots of the berth store (R494): 512 for each berth-store scratchpad. -/
def State.usableSlots (s : State) : Nat :=
  min 8192 (512 * (((s.fab.img.map (·.spmap)).getD []).filter (fun r => r.cls == 3)).length)

/-- ADMIT_POP's effect (R448, R492). -/
def State.admitPop (s : State) (p : Port) (n : Nat) : State :=
  match (s.pteC n).admQ with
  | [] => s.mboxOut p (BitVec.ofNat 32 (2 ^ 27) :: List.replicate 8 0)
  | r :: t =>
    let s := (s.modPte n (fun c => { c with admQ := t })).setf (PTE.STATUS_ADMITQ n) t.length
    s.mboxOut p r

/-- The upstream berth that CMD_HANDLE names, or what is wrong with it (R12, R13, R493, R494). -/
def State.cmdHandle (s : State) (n : Nat) : Code × Nat :=
  let h := s.w (PTE.CMD_HANDLE n)
  if hKind h ≠ 2 ∨ s.usableSlots ≤ hSlot h then (.badArgument, 0)
  else if !s.current h then (.staleHandle, 0)
  else if (s.berthC (hSlot h)).port ≠ n then (.badArgument, 0)
  else (.ok, hSlot h)

/-- The words of a dataset, 0 to 3, and its timeSource; free values while no Announce has come (R493; log entry 3, DESIGN CHOICE). -/
def State.datasetWords (s : State) (u : UpState) : State × List Word × Nat :=
  match u.ann with
  | some d =>
    (s, [BitVec.ofNat 32 (d.cls * 2 ^ 24 + d.acc % 256 * 2 ^ 16 + d.var % 65536),
      BitVec.ofNat 32 (d.prio1 * 2 ^ 24 + d.prio2 % 256 * 2 ^ 16 + d.steps % 65536)] ++ toWords 2 d.gm.toNat, d.source % 256)
  | none => (s.took, toWords 4 (s.free 136), s.free 136 / 2 ^ 128)

/-- D in ns, saturating; a free value while no path delay has been measured. -/
def State.delayNs (s : State) (b : Berth) : State × Int :=
  let (sum, k) := b.delay
  if k = 0 then (s.took, toSigned 32 (s.free 32)) else (s, satSigned 32 (roundOpen 47 sum (k * 65536)))

/-- FETCH_DATASET's effect (R493). -/
def State.fetchDataset (s : State) (p : Port) (n slot : Nat) : State :=
  let b := s.berthC slot
  let u := b.up
  let learning := !u.learnt && s.corrOn n && b.live
  let (s, ws, src) := s.datasetWords u
  let w4 := src * 2 ^ 24 + b.par.prio * 2 ^ 16 + b2n (u.demoted || b.repDemoted) * 2 ^ 15 + b2n learning * 2 ^ 14 +
    b2n u.annCurrent * 2 ^ 13 + u.drespLost
  let (s, d) := s.delayNs b
  s.mboxOut p (ws ++ [BitVec.ofNat 32 w4, BitVec.ofNat 32 (ofSigned 32 d)] ++ intWords 2 u.offset)

/-- The scheduled target that stands before a new entry: the last entry's, the ramp's, or the present value. -/
def UpState.lastTarget (u : UpState) : Int :=
  match u.sched.getLast? with
  | some e => e.target
  | none => match u.ramp with
    | some r => r.2.2.target
    | none => u.schedPs

/-- ASYM_LOAD's effect (R460, R461). -/
def State.asymLoad (s : State) (p : Port) (n slot : Nat) : State × Code :=
  match s.mboxIn p 4 with
  | none => (s, .badArgument)
  | some ws =>
    let b := s.berthC slot
    let k := s.prtTsc n
    let e := AsymEntry.mk (ofWords (ws.take 2)) (toSigned 32 (ws.getD 2 0).toNat) (ws.getD 3 0).toNat
    let late : Bool := match b.up.sched.getLast? with | some l => decide (e.sec ≤ l.sec) | none => false
    if late ∨ (e.sec * 1000000000 * 2 ^ 56 : Nat) < (s.tscC k).val ∨ 86400 < e.ramp ∨
        10000000000 < (b.par.asym + e.target).natAbs then (s, .badArgument)
    else if 32 ≤ b.up.sched.length then (s, .noSlot)
    else if (s.tscC k).thresh * 1000 < (e.target - b.up.lastTarget).natAbs then (s, .refusedThreshold)
    else ((s.mboxEmpty p).modUp slot (fun u => { u with sched := u.sched ++ [e] }), .ok)

/-- What a write of one bit of CMD does. -/
def State.pteCommand (s : State) (p : Port) (n bit : Nat) : State :=
  let (s, c) : State × Code :=
    if bit = 0 then (s.admitPop p n, .ok)
    else
      match s.cmdHandle n with
      | (.ok, k) =>
        if bit = 1 then (s.fetchDataset p n k, .ok)
        else if bit = 2 then
          (if (s.berthC k).up.demoted then (s.logDemotion k .promote 0).promote k else s, .ok)
        else if bit = 3 then s.asymLoad p n k
        else (s.modUp k (fun u => { u with sched := [] }), .ok)
      | (c, _) => (s, c)
  s.complete (PTE.CMD_CODE_CODE n) c

/-- ADMIT_POP (R448). -/
def execAdmitPop (p : Port) (n : Fin 8) (s : State) : Host.Outcome State Fault Refusal :=
  .next (s.doorbell p (PTE.CMD n) false (fun s => s.pteCommand p n 0))

/-- FETCH_DATASET (R493). -/
def execFetchDataset (p : Port) (n : Fin 8) (s : State) : Host.Outcome State Fault Refusal :=
  .next (s.doorbell p (PTE.CMD n) false (fun s => s.pteCommand p n 1))

/-- PROMOTE (R477). -/
def execPromote (p : Port) (n : Fin 8) (s : State) : Host.Outcome State Fault Refusal :=
  .next (s.doorbell p (PTE.CMD n) false (fun s => s.pteCommand p n 2))

/-- ASYM_LOAD (R460). -/
def execAsymLoad (p : Port) (n : Fin 8) (s : State) : Host.Outcome State Fault Refusal :=
  .next (s.doorbell p (PTE.CMD n) false (fun s => s.pteCommand p n 3))

/-- ASYM_CLEAR (R460). -/
def execAsymClear (p : Port) (n : Fin 8) (s : State) : Host.Outcome State Fault Refusal :=
  .next (s.doorbell p (PTE.CMD n) false (fun s => s.pteCommand p n 4))

end Sys2Proof.Machine
end

