-- ==== Sys2Proof/Machine/Berths.lean ====
section
/-! DEFINITION. The berth store and the manifests (14_berths_and_manifests.md): what the berth and manifest commands of the rings do,
and the tasks of event berths. -/

namespace Sys2Proof.Machine

/-- What a ring command answers: the state, its completion code, RES0 and RES1. -/
abbrev RingRes := State × Code × Nat × Nat

/-- A completion without results. -/
def State.done (s : State) (c : Code) : RingRes := (s, c, 0, 0)

/-! Slots. -/


/-- Berths of a kind. -/
def State.kindCount (s : State) (kind : Nat) : Nat := (s.berth.filter (fun x => x.2.kind == kind)).length

/-- The quota of a kind (R98). -/
def State.quota (s : State) (kind : Nat) : Nat := ((s.fab.img.map (·.quotas)).getD []).getD (kind - 1) 0

/-- The lowest-numbered FREE usable slot (R496). -/
def State.freeSlot (s : State) : Option Nat := (List.range s.usableSlots).find? (fun k => (s.berthC k).kind == 0)

/-- The lowest free ordinal of event berths (R497). -/
def State.freeOrdinal (s : State) : Nat :=
  ((List.range 512).find? (fun o => !s.berth.any (fun x => x.2.kind == 3 && x.2.ordinal == o))).getD 0

/-- STATUS.CLIENTS of a port's engine. -/
def State.refreshClients (s : State) (n : Nat) : State := s.setf (PTE.STATUS_CLIENTS n) (s.slotsOn n 1).length

/-- A berth handle is taken by a command (R12, R13, R494, R495, R502): its slot, or the code. -/
def State.berthHandle (s : State) (h : Nat) (kinds : List Nat) : Code × Nat :=
  if !kinds.contains (hKind h) ∨ s.usableSlots ≤ hSlot h then (.badArgument, 0)
  else if !s.current h then (.staleHandle, 0)
  else (.ok, hSlot h)

/-- A berth command on a handle: its checks, the helm of the PTE of the berth's port (R103), then its effect. -/
def State.onBerth (s : State) (p : Port) (h : Nat) (kinds : List Nat) (g : State → Nat → RingRes) : RingRes :=
  match s.berthHandle h kinds with
  | (.ok, k) => if !s.holds p (0x98 + (s.berthC k).port) then s.done .notHelm else g s k
  | (c, _) => s.done c

/-! Create and destroy. -/

/-- The argument of BERTH_CREATE names something that is not there (R502, R503). -/
def State.createBad (s : State) (a0 a1 : Nat) : Bool :=
  let kind := bitsAt a0 31 28
  let home := a1 % 256
  kind == 0 || decide (4 < kind) || !s.prtBuilt (bitsAt a0 26 24) ||
    (kind == 1 && !(s.ledger (a0 % 4096)).isOpen) ||
    (kind == 3 && (!s.tscBuilt (bitsAt a1 10 8) || (home != 0xFF && (decide (0x1F < home) || !s.lndBuilt home))))

/-- BERTH_CREATE (R496, R497, R502, R503). -/
def State.berthCreate (s : State) (p : Port) (h a0 a1 : Nat) : RingRes :=
  let kind := bitsAt a0 31 28
  let port := bitsAt a0 26 24
  if h ≠ 0 ∨ s.createBad a0 a1 then s.done .badArgument
  else if !s.holds p (0x98 + port) then s.done .notHelm
  else if s.quota kind ≤ s.kindCount kind then s.done .quota
  else
    match s.freeSlot with
    | none => s.done .noSlot
    | some k =>
      let o := if kind = 3 then s.freeOrdinal else 0
      let t := if kind = 1 then a0 % 4096 else 0
      let s := s.modBerth k (fun _ => {
        kind := kind, port := port, ordinal := o, tenant := t, tsc := if kind = 3 then bitsAt a1 10 8 else 0
        home := if kind = 3 then a1 % 256 else 0xFF, madeAt := s.now })
      let s := s.refreshClients port
      let s := if kind = 1 then s.modLedger t (fun l => { l with berths := max l.berths (s.clientsOf t) }) else s
      (s, .ok, s.handleOf k, o)

/-- Frames that wait in a port for a berth that goes wait for nobody (slot 0xFFFF holds no berth). -/
def orphan (slot : Nat) (f : TxFrame) : TxFrame :=
  match f.owner with
  | .engine (some k) => if k = slot then { f with owner := .engine (some 0xFFFF) } else f
  | .announce (some k) => if k = slot then { f with owner := .announce (some 0xFFFF) } else f
  | .berth k => if k = slot then { f with owner := .berth 0xFFFF } else f
  | _ => f

/-- See `orphan`. -/
def PrtCore.orphan (c : PrtCore) (slot : Nat) : PrtCore :=
  let g := List.map (Machine.orphan slot)
  { c with qx := g c.qx, q3 := g c.q3, q2 := g c.q2, q1 := g c.q1, q0 := g c.q0 }

/-- A measurement berth leaves its entry, which becomes EMPTY (R205, R211). -/
def State.detach (s : State) (slot : Nat) : State :=
  match (s.berthC slot).att with
  | none => s
  | some (n, k, _) =>
    let s := (s.fault n k faultAct true).setCstate n k 0
    (s.giveRank n k 0xF).modBerth slot (fun b => { b with att := none })

/-- Runs latched for an event berth that goes are discarded and counted (R395, R521). -/
def State.dropRuns (s : State) (slot : Nat) : State :=
  s.forL [0, 1] (fun s t =>
    let key := berthTaskKey slot t
    let n := (s.tasksC key).length
    let s := s.modTasks key (fun _ => [])
    if n = 0 then s else (s.incBy EVR.STALE_CNT_COUNT n).ev EVR.EVENT_STALE)

/-- BERTH_DESTROY (R10, R496, R501). -/
def State.berthDestroy (s : State) (slot : Nat) : State :=
  let b := s.berthC slot
  let s := if b.kind = 4 then s.detach slot else s
  let s := if b.kind = 3 then s.dropRuns slot else s
  let s := if b.kind = 2 then
      ((s.modUp slot (fun u => { u with annCurrent := false })).streamFault slot true).berthRank slot
    else s
  let s := s.modPrt b.port (fun c => c.orphan slot)
  let s := (s.modBerth slot (fun _ => {})).modGen slot (fun g => (g + 1) % 2 ^ 12)
  let s := s.refreshClients b.port
  if b.kind = 2 then (s.bmca b.port).refreshDisagree (s.prtTsc b.port) else s

/-! Enable and disable. -/

/-- The entry of a measurement berth has activity while the sample stream of the upstream berth is there (R193). -/
def State.entryActivity (s : State) (b : Berth) : State :=
  match b.att with
  | some (n, k, _) => s.fault n k faultAct (s.entryLost b)
  | none => s

/-- BERTH_ENABLE (R193, R450, R472, R498, R500, R510). -/
def State.berthEnable (s : State) (slot : Nat) : RingRes :=
  let b := s.berthC slot
  if b.live then s.done .ok
  else if (b.kind = 1 ∨ b.kind = 2) ∧ b.par.mac = 0 ∧ b.par.ipKind = 0 ∧ s.profile b.port = 2 then s.done .badArgument
  else
    let s := s.modBerth slot (fun b => { b with live := true })
    let s := if b.kind = 1 then s.modLedger b.tenant (fun l => { l with live := true }) else s
    let s := if b.kind = 4 then s.entryActivity (s.berthC slot) else s
    let s := if b.kind = 2 then
        let s := (s.startLearning slot).modUp slot (fun u => { u with annAt := s.now, validAt := s.now })
        let s := s.upFollow slot
        if s.upLive slot ∧ s.profile b.port = 2 then
          ((s.askGrant slot .announce).askGrant slot .sync).askGrant slot .delayResp
        else s
      else s
    s.done .ok

/-- BERTH_DISABLE (R465, R498). -/
def State.berthDisable (s : State) (slot : Nat) : State :=
  let b := s.berthC slot
  if !b.live then s
  else if b.kind = 4 then
    let s := match b.att with
      | some (n, k, _) => s.fault n k faultAct true
      | none => s
    s.modBerth slot (fun b => { b with live := false })
  else if b.kind = 2 then
    ((s.streamFault slot true).modBerth slot (fun b => { b with live := false })).upFollow slot
  else s.modBerth slot (fun b => { b with live := false })

/-! Parameters (R491, R499, R504). -/

/-- Words of a parameter, and whether only an upstream berth has it; none for an ID that is no parameter's. -/
def paramShape (id : Nat) : Option (Nat × Bool) :=
  if id = 1 ∨ id = 4 then some (2, false) else if id = 2 then some (5, false) else if id = 3 then some (3, false)
  else if 5 ≤ id ∧ id ≤ 7 then some (1, false) else if id = 0xA then some (2, true)
  else if 8 ≤ id ∧ id ≤ 0xC then some (1, true) else if id = 0xD then some (1, false) else none

/-- A tag of TAGS: none, or a tag with one of the two TPIDs and bit 12 at 0 (R483, R504). -/
def tagOk (w : Nat) : Bool := w == 0 || ((w / 65536 == 0x8100 || w / 65536 == 0x88A8) && w / 4096 % 2 == 0)

/-- A parameter value from its words, or none when it is out of its range (R491). -/
def BerthParams.put (p : BerthParams) (id : Nat) (ws : List Word) : Option BerthParams :=
  let w := fun (i : Nat) => (ws.getD i 0).toNat
  let v := toSigned 32 (w 0)
  let within := fun (lo hi : Int) => decide (lo ≤ v) && decide (v ≤ hi)
  if id = 1 then (if w 1 < 65536 then some { p with mac := w 1 * 2 ^ 32 + w 0 } else none)
  else if id = 2 then
    (if w 0 = 1 ∧ w 2 = 0 ∧ w 3 = 0 ∧ w 4 = 0 then some { p with ipKind := 1, ip := w 1 }
     else if w 0 = 2 then some { p with ipKind := 2, ip := ofWords (ws.drop 1) } else none)
  else if id = 3 then (if w 2 < 65536 then some { p with peerId := (w 1 * 2 ^ 32 + w 0) * 65536 + w 2 } else none)
  else if id = 4 then (if tagOk (w 0) ∧ tagOk (w 1) then some { p with tagOuter := ws.getD 0 0, tagInner := ws.getD 1 0 } else none)
  else if id = 5 then (if within (-7) 4 then some { p with logSync := v } else none)
  else if id = 6 then (if within (-7) 4 then some { p with logDelay := v } else none)
  else if id = 7 then (if within (-3) 4 then some { p with logAnn := v } else none)
  else if id = 8 then (if within 60 1000 then some { p with grantDur := w 0 } else none)
  else if id = 9 then (if within 1 255 then some { p with prio := w 0 } else none)
  else if id = 0xA then
    (let a := toSigned 64 (ofWords ws)
     if a.natAbs ≤ 10000000000 then some { p with asym := a } else none)
  else if id = 0xB then (if within 1 64 then some { p with dlyAvg := w 0 } else none)
  else if id = 0xC then (if within 4 1024 then some { p with freqWin := w 0 } else none)
  else if bitsAt (w 0) 30 8 = 0 then some { p with auth := if bitAt (w 0) 31 then some (w 0 % 256) else none }
  else none

/-- The words of a parameter's value (R504). -/
def BerthParams.words (p : BerthParams) (id : Nat) : List Word :=
  if id = 1 then toWords 2 p.mac
  else if id = 2 then BitVec.ofNat 32 p.ipKind :: toWords 4 p.ip
  else if id = 3 then toWords 2 (p.peerId / 65536) ++ [BitVec.ofNat 32 (p.peerId % 65536)]
  else if id = 4 then [p.tagOuter, p.tagInner]
  else if id = 5 then intWords 1 p.logSync
  else if id = 6 then intWords 1 p.logDelay
  else if id = 7 then intWords 1 p.logAnn
  else if id = 8 then toWords 1 p.grantDur
  else if id = 9 then toWords 1 p.prio
  else if id = 0xA then intWords 2 p.asym
  else if id = 0xB then toWords 1 p.dlyAvg
  else if id = 0xC then toWords 1 p.freqWin
  else [BitVec.ofNat 32 (match p.auth with | some k => 2 ^ 31 + k | none => 0)]

/-- PARAM_SET (R461, R491, R499, R504). -/
def State.paramSet (s : State) (p : Port) (slot id : Nat) : RingRes :=
  let b := s.berthC slot
  match paramShape id with
  | none => s.done .badArgument
  | some (n, up) =>
    if up ∧ b.kind ≠ 2 then s.done .badArgument
    else if b.live ∧ (id ≤ 4 ∨ id = 0xD) then s.done .locked
    else
      match (s.mboxIn p n).bind (fun ws => b.par.put id (ws.take n)) with
      | none => s.done .badArgument
      | some q =>
        if id = 0xA ∧ (s.tscC (s.prtTsc b.port)).thresh * 1000 < (q.asym - b.par.asym).natAbs then
          s.done .refusedThreshold
        else
          let s := (s.mboxEmpty p).modBerth slot (fun b => { b with
            par := q, up := { b.up with mpds := b.up.mpds.take q.dlyAvg } })
          (if id = 9 ∧ b.kind = 2 then s.bmca b.port else s).done .ok

/-- PARAM_GET (R491, R504). -/
def State.paramGet (s : State) (p : Port) (slot id : Nat) : RingRes :=
  let b := s.berthC slot
  match paramShape id with
  | none => s.done .badArgument
  | some (_, up) => if up ∧ b.kind ≠ 2 then s.done .badArgument else (s.mboxOut p (b.par.words id)).done .ok

/-! Attachment (R502, R503). -/

/-- The entry of a selector that a berth-entry ordinal names. -/
def State.berthEntry (s : State) (n ord : Nat) : Option Nat :=
  if !s.selBuilt n then none
  else (List.range (s.ncand n)).find? (fun k => s.f (SEL.CAND_CFG_WHO n k) == 0x80 + ord)

/-- The berth attached to an entry. -/
def State.attachedTo (s : State) (n k : Nat) : Option Nat :=
  (s.berth.find? (fun x => match x.2.att with | some a => a.1 == n && a.2.1 == k | none => false)).map (·.1)

/-- A berth that is attached to no entry is attached to one (R192, R193, R211). -/
def State.attachNew (s : State) (slot n k a1 : Nat) : State :=
  let s := s.modBerth slot (fun b => { b with att := some (n, k, a1) })
  let s := (s.freshEntry n k).setCstate n k 1
  let up := s.upstreamOf (s.berthC slot)
  let s := s.setFault n k faultAct (s.entryLost (s.berthC slot))
  s.giveRank n k (match up with | some j => (s.berthC j).up.rank | none => 0xF)

/-- The upstream handle of ATTACH (R12, R13, R502, R503). -/
def State.attachHandle (s : State) (slot a1 : Nat) : Code :=
  if a1 = 0 then .ok
  else if hKind a1 ≠ 2 ∨ s.usableSlots ≤ hSlot a1 then .badArgument
  else if !s.current a1 then .staleHandle
  else if (s.berthC (hSlot a1)).port ≠ (s.berthC slot).port then .badArgument
  else .ok

/-- ATTACH (R51, R192, R211, R502, R503): a berth that is attached elsewhere, or to the same entry for another upstream berth, leaves its
entry first (log entry 89, DEDUCED). -/
def State.attach (s : State) (slot a0 a1 : Nat) : RingRes :=
  let n := bitsAt a0 11 8
  match s.attachHandle slot a1 with
  | .ok =>
    if !s.selBuilt n then s.done .locked
    else
      match s.berthEntry n (a0 % 32) with
      | none => s.done .badArgument
      | some k =>
        match s.attachedTo n k with
        | some j =>
          if j ≠ slot then s.done .locked
          else if (s.berthC slot).att = some (n, k, a1) then s.done .ok
          else ((s.detach slot).attachNew slot n k a1).done .ok
        | none => ((s.detach slot).attachNew slot n k a1).done .ok
  | c => s.done c

/-! Event berths. -/

/-- EVQ_POP (R508). -/
def State.evqPop (s : State) (p : Port) (slot : Nat) : State :=
  match (s.berthC slot).ev.q with
  | [] => s.mboxOut p (BitVec.ofNat 32 (3 * 2 ^ 30 + 3 * 2 ^ 28) :: List.replicate 7 0)
  | r :: t => (s.modBerth slot (fun b => { b with ev := { b.ev with q := t } })).mboxOut p r

/-- RES0 of EVQ_SCAN: the ordinals of a group that have records queued (R502). -/
def State.evqScan (s : State) (g : Nat) : Nat :=
  ((List.range 16).filter (fun i =>
    s.berth.any (fun x => x.2.kind == 3 && x.2.ordinal == 16 * g + i && !x.2.ev.q.isEmpty))).foldl (fun a i => a + 2 ^ i) 0

/-- MSG_LOAD (R507): octet 4j of the frame in bits 7:0 of word j (log entry 45, DEDUCED). -/
def State.msgLoad (s : State) (p : Port) (slot a0 : Nat) : RingRes :=
  let len := a0 % 65536
  if len < 60 ∨ 124 < len then s.done .badArgument
  else
    match s.mboxIn p (ceilDiv len 4) with
    | none => s.done .badArgument
    | some ws =>
      ((s.mboxEmpty p).modBerth slot (fun b => { b with
        ev := { b.ev with msg := some (bitAt a0 31, (wordsLe ws).take len) } })).done .ok

/-- BERTH_INFO (R502). -/
def State.berthInfo (s : State) (slot : Nat) : RingRes :=
  let b := s.berthC slot
  (s, .ok, b.kind * 2 ^ 28 + b.port * 2 ^ 24 + (if b.live then 2 else 1) * 2 ^ 16 + b.ordinal,
    match b.att with | some a => a.2.2 | none => b.tenant)

/-- STAMP_TASK (R384, R385, R505, R508); nothing is accepted from the engine of an IDLE berth (R498). -/
def execStampTask (slot : Fin 8192) (s : State) : Host.Outcome State Fault Refusal :=
  match s.takeRun (berthTaskKey slot 0) with
  | none => .next s
  | some (r, s) =>
    let t := Stamp.ofFrac (r.val / 2 ^ 24) r.tag
    if !(s.berthC slot).live then .next s
    else .next (s.evqPush slot (evqWords r.tag 0 r.routed r.event (some t) r.idx))

/-- SEND_BERTH_MESSAGE_TASK (R507); an IDLE berth sends nothing (R498). -/
def execSendBerthMessageTask (slot : Fin 8192) (s : State) : Host.Outcome State Fault Refusal :=
  match s.takeRun (berthTaskKey slot 1) with
  | none => .next s
  | some (_, s) =>
    let b := s.berthC slot
    let miss := (s.inc MAN.MSG_MISS_COUNT).ev MAN.EVENT_MSG_MISS
    if !b.live then .next s else
    match b.ev.msg with
    | none => .next miss
    | some (express, bytes) =>
      if express then
        (if 1024 ≤ s.ctxUsed b.port then .next miss
         else .next (s.enqueue b.port 4 ⟨.raw bytes, .berth slot⟩))
      else .next (s.enqueue b.port 3 ⟨.raw bytes, .none⟩)

/-! Tenants and manifests (R509, R517 to R520). -/

/-- SECONDS of the billing time scale. -/
def State.billSeconds (s : State) : Nat := (s.tscC (s.f MAN.CFG_TSC)).sec

/-- STATUS.TENANTS follows. -/
def State.refreshTenants (s : State) : State :=
  s.setf MAN.STATUS_TENANTS (s.man.ledgers.filter (fun x => x.2.isOpen)).length

/-- TENANT_OPEN (R509). -/
def State.tenantOpen (s : State) (t : Nat) : RingRes :=
  let l := s.ledger t
  if 4096 ≤ t ∨ l.isOpen then s.done .badArgument
  else
    let s := s.modLedger t (fun l => { seq := l.seq, prev := l.prev, isOpen := true, start := s.billSeconds, partial_ := true })
    (s.refreshTenants, .ok, l.seq, 0)

/-- TENANT_CLOSE (R509, R514): a final record, between boundaries, whose SEALED record gives SECONDS at the close (log entry 41, DEDUCED). -/
def State.tenantClose (s : State) (t : Nat) : RingRes :=
  let l := s.ledger t
  if 4096 ≤ t ∨ !l.isOpen then s.done .badArgument
  else if s.clientsOf t ≠ 0 then s.done .locked
  else
    let s := s.freeze t 16 0xFFFFFFFF s.billSeconds (some (s.billSeconds, 1))
    let s := (s.modLedger t (fun l => { seq := l.seq, prev := l.prev })).commitSealing
    (s.refreshTenants, .ok, l.seq, 0)

/-- MAN_PEEK (R520). -/
def State.manPeek (s : State) (p : Port) (t : Nat) : RingRes :=
  let l := s.ledger t
  if 4096 ≤ t ∨ !l.isOpen then s.done .badArgument
  else
    (s.mboxOut p (toWords 2 l.start ++ toWords 2 l.sync ++ toWords 2 l.dresp ++ toWords 2 l.ann ++
      [BitVec.ofNat 32 l.trace, BitVec.ofNat 32 (satBits 16 l.degr * 65536 + satBits 16 l.out)])).done .ok

/-- The signed record of a tenant with a number, wherever it is held (R658). -/
def State.manRecord (s : State) (t q : Nat) : Option (List Byte) :=
  ((s.man.headRecs ++ s.man.archRecs).find? (fun x => x.1 == t && x.2.1 == q)).map (·.2.2)

/-- MAN_EXPORT (R519). -/
def State.manExport (s : State) (p : Port) (t q part : Nat) : RingRes :=
  if s.man.frozen.any (fun f => f.tenant == t && f.seq == q) then s.done .busy
  else
    match s.manRecord t q with
    | none => s.done .badArgument
    | some r => (s.mboxOut p (((beWords r).drop (16 * part)).take 16)).done .ok

/-! The commands by their opcodes (R502, R613). -/

/-- A manifest command: handle 0, the helm of MAN, then its effect. -/
def State.onMan (s : State) (p : Port) (h : Nat) (g : State → RingRes) : RingRes :=
  if h ≠ 0 then s.done .badArgument
  else if !s.holds p 0xA1 then s.done .notHelm
  else g s

/-- A host frame command: handle 0, the helm of the port that A0 names (R420, R421). -/
def State.onFrame (s : State) (p : Port) (h a0 : Nat) (g : State → State × Code × Nat) : RingRes :=
  if h ≠ 0 then s.done .badArgument
  else if s.prtBuilt (bitsAt a0 26 24) ∧ !s.holds p (0x90 + bitsAt a0 26 24) then s.done .notHelm
  else let (s, c, r) := g s; (s, c, r, 0)

/-- An engine operation from a ring (R313, R613): its handles under R12 and R13 before anything else, then the helm of ENG, and MIGRATE
at pilot level. -/
def State.onEngine (s : State) (p : Port) (op h a0 : Nat) : RingRes :=
  let x := if op = 3 then (h, a0) else (0, h)
  let bad := s.engHandles op x.1 x.2
  if bad ≠ .badArgument ∧ bad ≠ .staleHandle ∧ !s.holds p 0x0C then s.done .notHelm
  else if bad ≠ .badArgument ∧ bad ≠ .staleHandle ∧ op = 3 ∧ !s.pilot 0x0C then s.done .locked
  else
    let (s, c) := s.engCommand op x.1 x.2
    s.done c

/-- What a ring command does and answers. -/
def State.ringCommand (s : State) (p : Port) (op h a0 a1 a2 : Nat) : RingRes :=
  if !s.landed then s.done .notLanded
  else if op = 0x00 then s.done .ok
  else if op = 0x10 then s.onEngine p 1 h a0
  else if op = 0x11 then s.onEngine p 2 h a0
  else if op = 0x12 then s.onEngine p 3 h a0
  else if op = 0x20 then s.berthCreate p h a0 a1
  else if op = 0x21 then s.onBerth p h [1, 2, 3, 4] (fun s k => (s.berthDestroy k).done .ok)
  else if op = 0x22 then s.onBerth p h [1, 2, 3, 4] (fun s k => s.berthEnable k)
  else if op = 0x23 then s.onBerth p h [1, 2, 3, 4] (fun s k => (s.berthDisable k).done .ok)
  else if op = 0x24 then s.onBerth p h [1, 2] (fun s k => s.paramSet p k (a0 % 256))
  else if op = 0x25 then s.onBerth p h [1, 2] (fun s k => s.paramGet p k (a0 % 256))
  else if op = 0x26 then s.onBerth p h [4] (fun s k => s.attach k a0 a1)
  else if op = 0x27 then s.onBerth p h [4] (fun s k => (s.detach k).done .ok)
  else if op = 0x28 then s.onBerth p h [3] (fun s k => (s.evqPop p k).done .ok)
  else if op = 0x29 then (if h ≠ 0 then s.done .badArgument else (s, .ok, s.evqScan (a0 % 32), 0))
  else if op = 0x2A then s.onBerth p h [3] (fun s k => s.msgLoad p k a0)
  else if op = 0x2B then s.onBerth p h [1, 2, 3, 4] (fun s k => s.berthInfo k)
  else if op = 0x30 then s.onFrame p h a0 (fun s => s.frameSend a0 a1 a2)
  else if op = 0x31 then s.onFrame p h a0 (fun s => s.frameRecv a0 a1 a2)
  else if op = 0x40 then s.onMan p h (fun s => s.tenantOpen a0)
  else if op = 0x41 then s.onMan p h (fun s => s.tenantClose a0)
  else if op = 0x42 then s.onMan p h (fun s => s.manPeek p a0)
  else if op = 0x43 then s.onMan p h (fun s => s.manExport p a0 a1 (a2 % 4))
  else s.done .badArgument

end Sys2Proof.Machine
end

