-- ==== Sys2Proof/Machine/Ring.lean ====
section
/-! DEFINITION. The command rings (R609 to R614): an entry is performed when its turn has come, its mailbox input is there, and the
output of the entry before it has been read. A command that rides on a ring is the host's writing of its entry and doorbell, and the
device's performing of the ring's next entry (log entry 46, DEDUCED). -/

namespace Sys2Proof.Machine

/-- Opcodes whose command takes mailbox input, and those that give mailbox output (R502, R612). -/
def ringTakes (op : Nat) : Bool := op == 0x24 || op == 0x2A
/-- See `ringTakes`. -/
def ringGives (op : Nat) : Bool := op == 0x25 || op == 0x28 || op == 0x42 || op == 0x43

/-- The mailbox holds output, or input. -/
def State.mboxDevice (s : State) (p : Port) : Bool := s.on (HOST.MBOX_STAT_VALID p) && s.on (HOST.MBOX_STAT_DEVICE p)
/-- See `State.mboxDevice`. -/
def State.mboxHost (s : State) (p : Port) : Bool := s.on (HOST.MBOX_STAT_VALID p) && !s.on (HOST.MBOX_STAT_DEVICE p)

/-- What becomes of an entry whose command has answered (R611, R612): an engine operation that goes on completes at its end. -/
def ringAnswered (p : Port) (op : Nat) (r : RingRes) : State :=
  match r with
  | (s, c, r0, r1) =>
    let s := if ringGives op ∧ c = .ok then s.setf (HOST.RING_STAT_WAIT_OUT p) 1 else s
    if 0x10 ≤ op ∧ op ≤ 0x12 ∧ c = .ok ∧ s.on ENG.CMD_STATUS_BUSY then s.setf (HOST.RING_STAT_ACTIVE p) 1
    else s.ringComplete p c r0 r1

/-- Perform the entry that is next in a ring (R611, R612). -/
def State.ringPerform (s : State) (p : Port) : State :=
  let op := s.ringWord p 0 % 256
  let s := (s.setf (HOST.RING_STAT_WAIT_MBOX p) 0).setf (HOST.RING_STAT_WAIT_OUT p) 0
  ringAnswered p op (s.ringCommand p op (s.ringWord p 1) (s.ringWord p 2) (s.ringWord p 3) (s.ringWord p 4))

/-- Start the entry that is next in a ring, when it may start (R611, R612). -/
def State.ringStart (s : State) (p : Port) : State :=
  if !s.ringOpen p ∨ s.on (HOST.RING_STAT_ACTIVE p) then s
  else if s.on (HOST.RING_STAT_WAIT_OUT p) ∧ s.mboxDevice p then s
  else if s.landed ∧ ringTakes (s.ringWord p 0 % 256) ∧ !s.mboxHost p then
    (s.evIf (!s.on (HOST.RING_STAT_WAIT_MBOX p)) (HOST.EVENT_RING_WAIT p)).setf (HOST.RING_STAT_WAIT_MBOX p) 1
  else s.ringPerform p

/-- Entries that wait in a ring. -/
def State.ringUsed (s : State) (p : Port) : Nat :=
  (s.f (HOST.RING_PI_PI p) + 65536 - s.f (HOST.RING_STAT_CI p)) % 65536

/-- A host writes an entry and its doorbell (R609, R610): a full ring takes none; the ring's next entry starts. -/
def State.ringPost (s : State) (p : Port) (op : Nat) (h a0 a1 a2 a3 : Word) : State :=
  if !s.reaches p then s
  else
    let pi := s.f (HOST.RING_PI_PI p)
    let i := pi % 64
    if 64 ≤ s.ringUsed p then s.busErr p true false (HOST.RING p i 0 % 0x1000000) .locked
    else
      let ws := [BitVec.ofNat 32 op, h, a0, a1, a2, a3]
      let s := s.forL (List.range 6) (fun s w => s.setw (HOST.RING p i w) (ws.getD w 0).toNat)
      ((s.setf (HOST.RING_PI_PI p) (pi + 1)).status p .ok).ringStart p

/-- RING_ENTRY_START (R611, R612). -/
def execRingEntryStart (p : Port) (s : State) : Host.Outcome State Fault Refusal := .next (s.ringStart p)

/-- NOP (R613). -/
def execNop (p : Port) (s : State) : Host.Outcome State Fault Refusal := .next (s.ringPost p 0x00 0 0 0 0 0)

/-- BERTH_CREATE (R496, R502, R503). -/
def execBerthCreate (p : Port) (h a0 a1 a2 a3 : Word) (s : State) : Host.Outcome State Fault Refusal :=
  .next (s.ringPost p 0x20 h a0 a1 a2 a3)

/-- BERTH_DESTROY (R501). -/
def execBerthDestroy (p : Port) (h a0 a1 a2 a3 : Word) (s : State) : Host.Outcome State Fault Refusal :=
  .next (s.ringPost p 0x21 h a0 a1 a2 a3)

/-- BERTH_ENABLE (R498, R500). -/
def execBerthEnable (p : Port) (h a0 a1 a2 a3 : Word) (s : State) : Host.Outcome State Fault Refusal :=
  .next (s.ringPost p 0x22 h a0 a1 a2 a3)

/-- BERTH_DISABLE (R498). -/
def execBerthDisable (p : Port) (h a0 a1 a2 a3 : Word) (s : State) : Host.Outcome State Fault Refusal :=
  .next (s.ringPost p 0x23 h a0 a1 a2 a3)

/-- PARAM_SET (R491, R499, R504). -/
def execParamSet (p : Port) (h a0 a1 a2 a3 : Word) (s : State) : Host.Outcome State Fault Refusal :=
  .next (s.ringPost p 0x24 h a0 a1 a2 a3)

/-- PARAM_GET (R504). -/
def execParamGet (p : Port) (h a0 a1 a2 a3 : Word) (s : State) : Host.Outcome State Fault Refusal :=
  .next (s.ringPost p 0x25 h a0 a1 a2 a3)

/-- ATTACH (R503). -/
def execAttach (p : Port) (h a0 a1 a2 a3 : Word) (s : State) : Host.Outcome State Fault Refusal :=
  .next (s.ringPost p 0x26 h a0 a1 a2 a3)

/-- DETACH (R211). -/
def execDetach (p : Port) (h a0 a1 a2 a3 : Word) (s : State) : Host.Outcome State Fault Refusal :=
  .next (s.ringPost p 0x27 h a0 a1 a2 a3)

/-- EVQ_POP (R508). -/
def execEvqPop (p : Port) (h a0 a1 a2 a3 : Word) (s : State) : Host.Outcome State Fault Refusal :=
  .next (s.ringPost p 0x28 h a0 a1 a2 a3)

/-- EVQ_SCAN (R502). -/
def execEvqScan (p : Port) (h a0 a1 a2 a3 : Word) (s : State) : Host.Outcome State Fault Refusal :=
  .next (s.ringPost p 0x29 h a0 a1 a2 a3)

/-- MSG_LOAD (R507). -/
def execMsgLoad (p : Port) (h a0 a1 a2 a3 : Word) (s : State) : Host.Outcome State Fault Refusal :=
  .next (s.ringPost p 0x2A h a0 a1 a2 a3)

/-- BERTH_INFO (R502). -/
def execBerthInfo (p : Port) (h a0 a1 a2 a3 : Word) (s : State) : Host.Outcome State Fault Refusal :=
  .next (s.ringPost p 0x2B h a0 a1 a2 a3)

/-- FRAME_SEND (R420). -/
def execFrameSend (p : Port) (a0 a1 a2 a3 : Word) (s : State) : Host.Outcome State Fault Refusal :=
  .next (s.ringPost p 0x30 0 a0 a1 a2 a3)

/-- FRAME_RECV (R421). -/
def execFrameRecv (p : Port) (a0 a1 a2 a3 : Word) (s : State) : Host.Outcome State Fault Refusal :=
  .next (s.ringPost p 0x31 0 a0 a1 a2 a3)

/-- TENANT_OPEN (R509). -/
def execTenantOpen (p : Port) (h a0 a1 a2 a3 : Word) (s : State) : Host.Outcome State Fault Refusal :=
  .next (s.ringPost p 0x40 h a0 a1 a2 a3)

/-- TENANT_CLOSE (R509). -/
def execTenantClose (p : Port) (h a0 a1 a2 a3 : Word) (s : State) : Host.Outcome State Fault Refusal :=
  .next (s.ringPost p 0x41 h a0 a1 a2 a3)

/-- MAN_PEEK (R520). -/
def execManPeek (p : Port) (h a0 a1 a2 a3 : Word) (s : State) : Host.Outcome State Fault Refusal :=
  .next (s.ringPost p 0x42 h a0 a1 a2 a3)

/-- MAN_EXPORT (R519). -/
def execManExport (p : Port) (h a0 a1 a2 a3 : Word) (s : State) : Host.Outcome State Fault Refusal :=
  .next (s.ringPost p 0x43 h a0 a1 a2 a3)

end Sys2Proof.Machine
end

