-- ==== Sys2Proof/Machine/Xlk.lean ====
section
/-! DEFINITION. The crossing link and redundant pairs (15_crossing_link.md): frames, the agreed version, the pair and its roles, the
phase comparison, replication, and switchover. Offsets and delays are in units of 2⁻³² ns. -/

namespace Sys2Proof.Machine

/-- Change what XLK holds. -/
def State.modXlk (s : State) (g : XlkCore → XlkCore) : State := { s with xlk := g s.xlk }

/-- The crossing link runs: an image that builds it has landed, and its lanes are not held in idle (R525, R534). -/
def State.xlkLive (s : State) : Bool := s.landed && s.xlkBuilt && s.on XLK.CTRL_ADMIN

/-- The image's XLK_VER. -/
def State.xlkVer (s : State) : Nat := (s.fab.img.map (·.xlkVer)).getD 0

/-- The follow selectors and the replicated time scales (R527). -/
def State.followSels (s : State) : List Nat := (List.range 16).filter (fun n => bitAt (s.f XLK.CFG_FOLLOW) n)
/-- See `State.followSels`. -/
def State.replicas (s : State) : List Nat := (List.range 8).filter (fun k => bitAt (s.f XLK.CFG_TSMASK) k)

/-! Ranks of the crossing-link entries (R206, R534, R541). -/

/-- The rank of the crossing-link entries. -/
def State.xlinkRank (s : State) : Nat :=
  if s.f XLK.STATUS_PAIR ≠ 2 then 0xF else if s.xlk.partnerEcho then 0xE else s.xlk.partnerRank

/-- R541: an entry that failed on ECHO alone becomes QUALIFIED without wait-to-restore, when the plausibility check
passes. -/
def State.echoReturn (s : State) (n k : Nat) : State :=
  if s.cstate n k = 4 ∧ s.sound n k ∧ s.plausReady n k ∧ s.plausible n k then s.setCstate n k 2 else s

/-- The crossing-link entries whose only fault is that of ECHO, which the partner's last frame carried (R541). -/
def State.echoFailed (s : State) : List (Nat × Nat) :=
  if !s.xlk.partnerEcho then []
  else (s.entriesOf 28 ++ s.entriesOf 29).filter (fun x =>
    s.cstate x.1 x.2 == 3 && s.rank x.1 x.2 == 0xE && s.f ⟨SEL.CAND_STATE x.1 x.2, 12, 8⟩ == 8)

/-- The crossing-link entries take their rank, those among `echo` as R541 says, with one evaluation for each selector (R227). -/
def State.xlinkRanks (s : State) (echo : List (Nat × Nat)) : State :=
  let es := s.entriesOf 28 ++ s.entriesOf 29
  let ms := s.marks es
  let r := s.xlinkRank
  let s := s.forL es (fun s x => (s.putRank x.1 x.2 r).rankStep x.1 x.2)
  let s := if r = 0xE then s else s.forL echo (fun s x => s.echoReturn x.1 x.2)
  s.entriesCheck ms 1

/-! Planned switchover: its end (R149, R549). -/

/-- An ACTIVATE goes on: PENDING is committed and the full reset begins (R142 steps 2 and 3). -/
def State.activateGo (s : State) : State :=
  ((s.setf FAB.SLOTS_PENDING (s.f FAB.STATE_VSLOT)).commitBoot).fullReset 3

/-- A FAB operation completes (R137). -/
def State.fabDone (s : State) (opc : Nat) (c : Code) : State :=
  ({ s with fab := { s.fab with op := none, handover := none } } : State).setf FAB.OP_STATUS_BUSY 0
    |>.setf FAB.OP_STATUS_LAST_OP opc |>.setf FAB.OP_STATUS_CODE c.num |>.raise 14

/-- A switchover ends without a change of roles (R549). -/
def State.switchFails (s : State) (event : Bool) : State :=
  match s.xlk.switching with
  | none => s
  | some j =>
    let s := (s.modXlk (fun x => { x with switching := none })).setf XLK.STATUS_SWITCHING 0
    let s := s.evIf event XLK.EVENT_SWITCH_REFUSED
    if j.activate then s.fabDone 5 .locked else s.complete XLK.CMD_CODE_CODE .locked

/-- The pair breaks (R534, R535, R550, R551): in a takeover, the quality fault of its crossing-link entries comes before any other
evaluation of the selectors. -/
def State.breakPair (s : State) : State :=
  let formed := s.f XLK.STATUS_PAIR = 2
  let role := s.f XLK.STATUS_ROLE
  let s := s.switchFails false
  let s := (((s.setf XLK.STATUS_PAIR 0).setf XLK.STATUS_VER 0).setf XLK.STATUS_MIXED 0).setf XLK.STATUS_ROLE 0
  let s := s.modXlk (fun x => { x with
    helloVer := none, negVer := none, heard0 := false, heard1 := false, partnerHears := false
    takeover := x.takeover || (formed && role == 2), accepted := none, theta := []
    deps := [], d0 := none, d1 := none, loops := [], times := [] })
  let s := s.refreshGood
  if !formed then s
  else
    let s := s.setb XLK.STATUS_INCUMBENT (role == 1)
    let s := (s.ev XLK.EVENT_PAIR_DOWN).ev XLK.EVENT_ROLE
    let s := s.xlinkRanks []
    let s := s.evIf (role == 2) XLK.EVENT_TAKEOVER
    s.forN 16 (fun s n => s.evaluate n 1)

/-- The version is negotiated from both MAX_VER (R531, R533): an unformed pair gets the version, a formed one changes it. -/
def State.negotiate (s : State) : State :=
  match s.xlk.helloVer with
  | none => s
  | some pv =>
    let own := s.xlkVer
    let diff := max own pv - min own pv
    let old := s.xlk.lastVer
    let s := s.modXlk (fun x => { x with negVer := some pv })
    if 1 < diff then
      let s := if s.f XLK.STATUS_PAIR = 2 then s.breakPair else s
      ((s.setf XLK.STATUS_VER 0).setf XLK.STATUS_PAIR 3).ev XLK.EVENT_INCOMPAT
    else
      let v := min own pv
      let s := (s.setf XLK.STATUS_VER v).setb XLK.STATUS_MIXED (own != pv)
      let s := (s.evIf (old != 0 && old != v) XLK.EVENT_VERSION).modXlk (fun x => { x with lastVer := v })
      if s.f XLK.STATUS_PAIR = 2 then s else s.setf XLK.STATUS_PAIR 1

/-- This device becomes ACTIVE as the pair forms (R536). -/
def State.electedActive (s : State) : Bool :=
  let inc := s.on XLK.STATUS_INCUMBENT
  let own := s.xlkQl.1
  if inc != s.xlk.partnerInc then inc
  else if own ≠ s.xlk.partnerRank then decide (own < s.xlk.partnerRank)
  else s.f XLK.CFG_CARD == 0

/-- A PTP message that goes to client berths, or to the multicast address for them, waits in a port (R548). -/
def State.forClients (s : State) (n : Nat) (f : TxFrame) : Bool :=
  match f.body with
  | .ptp m | .ptp6 m _ =>
    m.kind == .sync || m.kind == .followUp || m.kind == .announce || m.kind == .delayResp ||
      (m.kind == .signaling && (s.slotsOn n 1).any (fun k => (s.berthC k).par.peerId == m.reqId.toNat))
  | .raw _ => false

/-- A device that becomes STANDBY sends nothing to client berths, what waits in its ports neither (R548). -/
def State.hushClients (s : State) : State :=
  s.forN 8 (fun s n =>
    let keep := fun (q : List TxFrame) => q.filter (fun f => !s.forClients n f)
    let gone := ((s.prtC n).queued.filter (fun f => f.isEvent && s.forClients n f)).length
    if (s.prtC n).queued.all (fun f => !s.forClients n f) then s
    else
      (s.modPrt n (fun c => { c with
        qx := keep c.qx, q3 := keep c.q3, q2 := keep c.q2, q1 := keep c.q1, q0 := keep c.q0 })).setf
        (PRT.STATUS_CTX n) (s.ctxUsed n - gone))

/-- The device takes the role of a formed pair: ACTIVE, or STANDBY (R534, R548). -/
def State.takeRole (s : State) (active : Bool) : State :=
  let s := ((s.setf XLK.STATUS_ROLE (if active then 1 else 2)).setf XLK.STATUS_INCUMBENT 0).refreshGood
  if active then s else s.hushClients

/-- The pair forms when a version is agreed, this device has heard a HEARTBEAT, and the partner says that it receives a lane (R528, R534,
R536; log entry 93, DEDUCED). -/
def State.formPair (s : State) : State :=
  if s.f XLK.STATUS_VER = 0 ∨ s.f XLK.STATUS_PAIR = 2 ∨ !(s.xlk.heard0 || s.xlk.heard1) ∨ !s.xlk.partnerHears then s
  else
    let active := s.electedActive
    let s := ((s.setf XLK.STATUS_PAIR 2).modXlk (fun x => { x with takeover := false })).takeRole active
    let s := ((s.ev XLK.EVENT_PAIR_UP).ev XLK.EVENT_ROLE).xlinkRanks []
    s.forN 16 (fun s n => s.evaluate n 1)

/-- A planned switchover has changed the roles (R549 steps 4, 5 and 7); the other selectors are evaluated too, since what they may choose
has changed (R537). -/
def State.switchTo (s : State) (active : Bool) : State :=
  let s := (s.takeRole active).modXlk (fun x => { x with accepted := none })
  let s := if active then
      let s := s.forL ((List.range 16).filter (fun n => !s.followSels.contains n)) (fun s n => s.evaluate n 1)
      s.forL s.followSels (fun s n =>
        let a := s.active n
        if s.selState n = 1 ∧ s.entryKind n a = .xlink then
          match s.best n with
          | some b => s.follow n b 1 1
          | none => (s.forL (s.loopsOf n) (fun s l => s.freezeLoop l)).selHoldover n
        else s)
    else s.forN 16 (fun s n => s.evaluate n 1)
  (s.ev XLK.EVENT_SWITCHED).ev XLK.EVENT_ROLE

/-! Stamps of the lanes (R412, R526, R538). -/

/-- The stamp of a frame of a lane on time scale k. -/
def State.laneStamp (s : State) (lane k : Nat) (c : StampCap) (tx : Bool) : Stamp :=
  let shift : Int := if tx then (s.f (XLK.LANE_TS_TX_PS lane) : Int) + s.fi (XLK.LANE_TS_ADJ_TX_ADJ lane)
    else -(s.f (XLK.LANE_TS_RX_PS lane) : Int) - s.fi (XLK.LANE_TS_ADJ_RX_ADJ lane)
  s.frameStamp k c 1280 shift .valid

/-- A stamp as the 16 bytes of a frame, and back; zeros for none (R530). -/
def Stamp.bytes (t : Stamp) : List Byte := beBytes 8 t.sec ++ beBytes 4 t.ns ++ beBytes 4 t.frac
/-- See `Stamp.bytes`. -/
def stampAt (b : List Byte) (off : Nat) : Option Stamp :=
  let t : Stamp := ⟨beAt b off 8, beAt b (off + 8) 4, beAt b (off + 12) 4, .valid⟩
  if slice b off 16 = List.replicate 16 0 then none else some t

/-- The partner's time scale is SET as far as this device knows: its last TIMESTATE says so, or there is none (log entry 49, DEDUCED). -/
def State.partnerSet (s : State) (k : Nat) : Bool :=
  match s.xlk.times.find? (fun e => (e.getD 0 0).toNat / 2 ^ 24 == k) with
  | some e => bitAt ((e.getD 0 0).toNat / 2 ^ 16) 0
  | none => true

/-- A lane has been up for 1 ms. -/
def State.laneOld (s : State) (lane : Nat) : Bool :=
  match (if lane = 0 then s.xlk.up0 else s.xlk.up1) with
  | some t => decide (t + 2000000 ≤ s.now)
  | none => false

/-- Store the delay of a lane, or that it is GAP, and what DELAY and OFFSET show of PAIR_TSC (R538). -/
def State.pairExchange (s : State) (lane : Nat) (x : Option (Int × Int)) : State :=
  match x with
  | none => s.modXlk (fun c => if lane = 0 then { c with d0 := none } else { c with d1 := none })
  | some (th2, d2) =>
    let d := roundOpen 48 d2 2
    let s := s.modXlk (fun c => if lane = 0 then { c with d0 := some d } else { c with d1 := some d })
    let ps := satBits 32 (roundOpen 49 (d2 * 1000) (2 ^ 33)).toNat
    let s := s.setw (if lane = 0 then XLK.DELAY0 else XLK.DELAY1) ps
    if lane = 0 ∨ !s.laneUp 0 then s.setSat XLK.OFFSET_PS (roundOpen 50 (th2 * 1000) (2 ^ 33)) else s

/-- One phase entry of a received PHASE frame (R538). -/
def State.phaseEntry (s : State) (lane : Nat) (cap : StampCap) (e : List Byte) : State :=
  let k := beAt e 0 1
  if !(s.replicas.contains k) then s
  else
    let t4 := s.laneStamp lane k cap false
    let dep := stampAt e 4
    let set := s.on (TSC.STATUS_SET k)
    let x : Option (Int × Int) := match dep, stampAt e 20, stampAt e 36 with
      | some t3, some t1, some t2 =>
        if t4.tag ≠ .gap ∧ s.partnerSet k ∧ s.laneOld lane then
          let a := t4.val - t3.val
          let b := t2.val - t1.val
          let asym := roundNear (s.fi XLK.ASYM_PS * 2 ^ 32) 1000
          some (a - b - asym, a + b)
        else none
      | _, _, _ => none
    let key := 8 * lane + k
    let s := s.modXlk (fun c => { c with deps := (key, dep, t4) :: c.deps.filter (fun y => y.1 != key) })
    let tk := if set then k else k + 8
    let s := match x with
      | some (th2, _) => s.modXlk (fun c =>
          let o := (c.theta.find? (fun y => y.1 == tk)).getD (tk, 0, 0)
          { c with theta := (tk, o.2.1 + th2, o.2.2 + 1) :: c.theta.filter (fun y => y.1 != tk) })
      | none => s
    if k = s.f XLK.CFG2_PAIR_TSC then s.pairExchange lane (if set then x else none) else s

/-- The entries of a body: N, then N entries of a size. -/
def bodyEntries (body : List Byte) (size : Nat) : List (List Byte) :=
  (List.range (beAt body 0 1)).map (fun i => slice body (4 + size * i) size)

/-! What the partner's state frames bring (R545 to R547). -/

/-- A time entry applied to TOD_CFG as its host would write it: both leap flags together are refused (R545). -/
def State.todFromPartner (s : State) (e : List Byte) : State :=
  let k := beAt e 0 1
  let fl := beAt e 1 1
  if !(s.replicas.contains k) ∨ (bitAt fl 3 ∧ bitAt fl 4) then s
  else
    let s := s.setf (TSC.TOD_CFG_UTC_OFS k) (beAt e 2 2)
    let s := s.setb (TSC.TOD_CFG_UTC_VALID k) (bitAt fl 2)
    (s.setb (TSC.TOD_CFG_LEAP61 k) (bitAt fl 3)).setb (TSC.TOD_CFG_LEAP59 k) (bitAt fl 4)

/-- The grant that an entry leaves: seconds left, 0 for none. -/
def grantLeft (now left : Nat) (old : Option Grant) (per : Int) : Option Grant :=
  if left = 0 then none
  else
    let g := old.getD (Grant.mk per left now now)
    some { g with until_ := now + left * secT }

/-- A berth entry is applied (R547). -/
def State.berthEntryIn (s : State) (e : List Byte) : State :=
  let slot := beAt e 0 2
  let kind := beAt e 2 1
  let port := beAt e 3 1
  let q := fun (i : Nat) => beAt e (14 + 2 * i) 2
  let g := fun (i : Nat) => beAt e (20 + 2 * i) 2
  let b := s.berthC slot
  if slot = 0xFFFF ∧ kind = 0 then
    (if s.prtBuilt port then s.modPte port (fun c => { c with mcSync := q 0, mcAnn := q 2 })
     else (s.inc XLK.CNT_MISMATCH).ev XLK.EVENT_BERTH_MISMATCH)
  else if b.kind ≠ 0 ∧ b.kind = kind ∧ b.port = port ∧ b.par.peerId = beAt e 4 10 then
    s.modBerth slot (fun b => { b with
      cl := { b.cl with seqSync := q 0, seqResp := q 1, seqAnn := q 2 }
      gSync := grantLeft s.now (g 0) b.gSync b.par.logSync
      gResp := grantLeft s.now (g 1) b.gResp b.par.logDelay
      gAnn := grantLeft s.now (g 2) b.gAnn b.par.logAnn
      repDemoted := bitAt (beAt e 26 1) 0 })
  else (s.inc XLK.CNT_MISMATCH).ev XLK.EVENT_BERTH_MISMATCH

/-! Switchover frames (R549). -/

/-- The body of a SWITCH frame: OP, REASON, TOKEN. -/
def switchBody (op reason token : Nat) : List Byte := beBytes 1 op ++ beBytes 1 reason ++ beBytes 2 token

/-- Why this device refuses a REQUEST, 0 where it accepts (R549; the REASON codes: log entry 50, DESIGN CHOICE). -/
def State.switchReason (s : State) : Nat :=
  if s.f XLK.STATUS_ROLE ≠ 2 then 1
  else if s.followSels.any (fun n =>
      !(List.range (s.ncand n)).any (fun k => s.cstate n k == 2 && s.entryKind n k != .xlink) &&
        (s.loopsOf n).any (fun l => !s.on (LOOP.HO_STAT_MODEL_OK l))) then 2
  else if s.top.inFull then 3
  else 0

/-- A REQUEST arrives. -/
def State.switchRequest (s : State) (token : Nat) : State :=
  let r := s.switchReason
  if r = 0 then (s.modXlk (fun x => { x with accepted := some token, acceptedAt := s.now })).xlkSendBoth 7 (switchBody 2 0 token)
  else s.xlkSendBoth 7 (switchBody 3 r token)

/-- An ACCEPT arrives: COMMIT leaves, and this device becomes STANDBY; an ACTIVATE goes on. -/
def State.switchAccept (s : State) (token : Nat) : State :=
  match s.xlk.switching with
  | none => s
  | some j =>
    if j.token ≠ token then s
    else
      let s := s.xlkSendBoth 7 (switchBody 4 0 token)
      let s := (s.modXlk (fun x => { x with switching := none })).setf XLK.STATUS_SWITCHING 0
      let s := s.switchTo false
      let s := s.negotiate
      if j.activate then s.activateGo else s.complete XLK.CMD_CODE_CODE .ok

/-- A SWITCH frame arrives. -/
def State.switchFrame (s : State) (body : List Byte) : State :=
  let op := beAt body 0 1
  let token := beAt body 2 2
  if op = 1 then s.switchRequest token
  else if op = 2 then s.switchAccept token
  else if op = 3 then
    (match s.xlk.switching with
     | some j => if j.token = token then (s.switchFails true).negotiate else s
     | none => s)
  else if op = 4 then
    (if s.xlk.accepted = some token ∧ s.f XLK.STATUS_ROLE = 2 then (s.switchTo true).negotiate else s)
  else s

/-! Reception (R524, R528, R529). -/

/-- A frame with a wrong CRC, a LENGTH out of range or this device's own CARD. -/
def State.xlkCrcErr (s : State) : State := (s.inc XLK.CNT_CRC_ERR).ev XLK.EVENT_CRC

/-- What every frame tells of the partner (R206, R528, R546). -/
def State.xlkHeader (s : State) (b : List Byte) : State :=
  let fl := beAt b 0xA 1
  let s := (s.setf XLK.STATUS_PARTNER_ROLE (beAt b 8 1)).setb XLK.STATUS_PARTNER_HO (bitAt fl 1)
  let echo := s.echoFailed
  let s := s.modXlk (fun x => { x with
    partnerInc := bitAt fl 0, partnerRank := beAt b 9 1 % 16, partnerEcho := bitAt (beAt b 9 1) 7, partnerCard := beAt b 0xB 1
    partnerHears := bitAt fl 2 || bitAt fl 3 })
  s.xlinkRanks echo

/-- A planned switchover is in progress: this device has asked for it, or has accepted it and waits for the COMMIT (R549, R551). -/
def State.inSwitch (s : State) : Bool :=
  s.xlk.switching.isSome || (s.xlk.accepted.isSome && decide (s.now < s.xlk.acceptedAt + 10 * msT))

/-- The body of an accepted frame acts by its TYPE. -/
def State.xlkBody (s : State) (lane type : Nat) (body : List Byte) (cap : StampCap) : State :=
  match type with
  | 1 =>
    let pv := beAt body 0 1
    let s := s.setf XLK.STATUS_PARTNER_VER pv
    let s := s.modXlk (fun x => { x with helloVer := some pv })
    let s := if s.xlk.negVer ≠ some pv ∧ !s.inSwitch then s.negotiate else s
    s.formPair
  | 2 => (s.modXlk (fun x => { x with
      heard0 := x.heard0 || lane == 0, heard1 := x.heard1 || lane != 0, hbAt := s.now })).formPair
  | 3 => s.forL (bodyEntries body 52) (fun s e => s.phaseEntry lane cap e)
  | 4 => s.modXlk (fun x => { x with loops := (bodyEntries body 16).map beWords })
  | 5 =>
    let es := bodyEntries body 16
    let s := s.modXlk (fun x => { x with times := es.map beWords })
    if s.f XLK.STATUS_ROLE = 2 ∧ s.f XLK.STATUS_VER = 3 then s.forL es (fun s e => s.todFromPartner e) else s
  | 6 =>
    if s.on XLK.CFG_BERTH_REP ∧ 2 ≤ s.f XLK.STATUS_VER ∧ s.f XLK.STATUS_ROLE = 2 then
      s.forL (bodyEntries body 32) (fun s e => s.berthEntryIn e)
    else s
  | 7 => s.switchFrame body
  | _ => if s.f XLK.STATUS_PAIR = 2 ∧ s.f XLK.STATUS_VER = 3 then s.breakPair else s

/-- The settling count of the link return starts on the landing of a lane that comes up (R18, R185). -/
def State.laneSettle (s : State) (lane : Nat) : State :=
  let s := s.modXlk (fun x => if lane = 0 then { x with rx0 := 0 } else { x with rx1 := 0 })
  (s.modLnd (28 + lane) (fun c => { c with linkSettle := true })).refreshSettling (28 + lane)

/-- A frame received on a lane counts for the end of the settling count of its link return once the lane has been up for 1 ms; the
count ends with the 16th (R185; the 1 ms is that of R407, log entry 63, DEDUCED). -/
def State.laneFrame (s : State) (lane : Nat) : State :=
  if !s.laneOld lane then s
  else
    let s := s.modXlk (fun x => if lane = 0 then { x with rx0 := min 16 (x.rx0 + 1) } else { x with rx1 := min 16 (x.rx1 + 1) })
    if 16 ≤ (if lane = 0 then s.xlk.rx0 else s.xlk.rx1) then
      (s.modLnd (28 + lane) (fun c => { c with linkSettle := false })).refreshSettling (28 + lane)
    else s

/-- A frame that finds the wharf of its lane full is discarded and counted; with a PHASE frame the lane's exchange is GAP (R58). -/
def State.laneDrop (s : State) (lane : Nat) (f : XlkFrame) : State :=
  let s := s.wharfDrop
  if beAt f.bytes 0 1 = 3 then s.pairExchange lane none else s

/-- The frame types that the landed image's XLK_VER knows (R529, R532). -/
def State.knowsType (s : State) (type : Nat) : Bool :=
  (1 ≤ type && type ≤ 5) || (type == 6 && 2 ≤ s.xlkVer) || type == 7 || (type == 8 && 3 ≤ s.xlkVer)

/-- A frame arrives on a lane (R58, R185, R524, R528, R529). -/
def State.xlkRx (s : State) (lane : Nat) (f : XlkFrame) : State :=
  let b := f.bytes
  let n := b.length
  if !s.xlkLive ∨ !s.laneUp lane then s
  else if f.wharfFull then s.laneDrop lane f
  else if n < 20 ∨ 1024 < n ∨ n % 4 ≠ 0 ∨ beAt b 2 2 ≠ n ∨ beAt b (n - 4) 4 ≠ crc32c (b.take (n - 4)) ∨
      beAt b 0xB 1 = s.f XLK.CFG_CARD then s.xlkCrcErr
  else
    let s := s.laneFrame lane
    let type := beAt b 0 1
    let seq := beAt b 4 4
    if s.xlk.recent.contains (seq, 1 - lane) then
      -- the other copy; a HEARTBEAT has been heard on this lane too
      let s := s.modXlk (fun x => { x with recent := x.recent.filter (fun y => y != (seq, 1 - lane)) })
      (if type = 2 ∧ beAt b 1 1 = s.f XLK.STATUS_VER then s.xlkBody lane 2 [] f.cap else s)
    else
      let s := s.modXlk (fun x => { x with recent := ((seq, lane) :: x.recent).take 16 })
      if !s.knowsType type ∨ (type ≠ 1 ∧ beAt b 1 1 ≠ s.f XLK.STATUS_VER) then s.inc XLK.CNT_DROP_VER
      else (s.xlkHeader b).xlkBody lane type (slice b 16 (n - 20)) f.cap

/-- HELLO_RECEIVED (R531). -/
def execHelloReceived (lane : Fin 2) (f : XlkFrame) (s : State) : Host.Outcome State Fault Refusal := .next (s.xlkRx lane f)
/-- HEARTBEAT_RECEIVED (R534). -/
def execHeartbeatReceived (lane : Fin 2) (f : XlkFrame) (s : State) : Host.Outcome State Fault Refusal := .next (s.xlkRx lane f)
/-- PHASE_RECEIVED (R538). -/
def execPhaseReceived (lane : Fin 2) (f : XlkFrame) (s : State) : Host.Outcome State Fault Refusal := .next (s.xlkRx lane f)
/-- LOOPSTATE_RECEIVED (R546). -/
def execLoopstateReceived (lane : Fin 2) (f : XlkFrame) (s : State) : Host.Outcome State Fault Refusal := .next (s.xlkRx lane f)
/-- TIMESTATE_RECEIVED (R545, R546). -/
def execTimestateReceived (lane : Fin 2) (f : XlkFrame) (s : State) : Host.Outcome State Fault Refusal := .next (s.xlkRx lane f)
/-- BERTHSTATE_RECEIVED (R547). -/
def execBerthstateReceived (lane : Fin 2) (f : XlkFrame) (s : State) : Host.Outcome State Fault Refusal := .next (s.xlkRx lane f)
/-- SWITCH_REQUEST_RECEIVED (R549). -/
def execSwitchRequestReceived (lane : Fin 2) (f : XlkFrame) (s : State) : Host.Outcome State Fault Refusal :=
  .next (s.xlkRx lane f)
/-- SWITCH_ACCEPT_RECEIVED (R549). -/
def execSwitchAcceptReceived (lane : Fin 2) (f : XlkFrame) (s : State) : Host.Outcome State Fault Refusal :=
  .next (s.xlkRx lane f)
/-- SWITCH_REFUSE_RECEIVED (R549). -/
def execSwitchRefuseReceived (lane : Fin 2) (f : XlkFrame) (s : State) : Host.Outcome State Fault Refusal :=
  .next (s.xlkRx lane f)
/-- SWITCH_COMMIT_RECEIVED (R549). -/
def execSwitchCommitReceived (lane : Fin 2) (f : XlkFrame) (s : State) : Host.Outcome State Fault Refusal :=
  .next (s.xlkRx lane f)
/-- NOTICE_RECEIVED (R534, R550). -/
def execNoticeReceived (lane : Fin 2) (f : XlkFrame) (s : State) : Host.Outcome State Fault Refusal := .next (s.xlkRx lane f)

/-- XLK_FRAME_DROP (R524, R529): a frame that the lane's receiver could not make out is counted. -/
def execXlkFrameDrop (lane : Fin 2) (wrongVer : Bool) (s : State) : Host.Outcome State Fault Refusal :=
  if !s.xlkLive ∨ !s.laneUp lane then .next s
  else if wrongVer then .next (s.inc XLK.CNT_DROP_VER) else .next s.xlkCrcErr

/-! Transmission (R529, R530). -/

/-- HELLO_TX (R529, R531). -/
def execHelloTx (s : State) : Host.Outcome State Fault Refusal :=
  if s.xlkLive then
    let id := ((match s.fab.img with | some i => i.imageId | none => []) ++ List.replicate 16 0).take 16
    .next (s.xlkSendBoth 1 (beBytes 1 s.xlkVer ++ [0, 0, 0] ++ id))
  else .next s

/-- HEARTBEAT_TX (R529, R531, R534). -/
def execHeartbeatTx (s : State) : Host.Outcome State Fault Refusal :=
  if s.xlkLive then .next (s.xlkSendBoth 2 []) else .next s

/-- One phase entry that leaves on a lane. -/
def State.phaseOut (s : State) (lane : Nat) (cap : StampCap) (k : Nat) : List Byte :=
  let echo := match s.xlk.deps.find? (fun y => y.1 == 8 * lane + k) with
    | some (_, dep, arr) => (match dep with | some t => t.bytes | none => List.replicate 16 0) ++ (if arr.tag = .gap then List.replicate 16 0 else arr.bytes)
    | none => List.replicate 32 0
  let dep := s.laneStamp lane k cap true
  beBytes 1 k ++ [0, 0, 0] ++ (if dep.tag = .gap then List.replicate 16 0 else dep.bytes) ++ echo

/-- PHASE_TX (R58, R529, R538). -/
def execPhaseTx (lane : Fin 2) (x : TxCapture) (s : State) : Host.Outcome State Fault Refusal :=
  if s.xlkLive ∧ s.laneUp lane ∧ 1 ≤ s.f XLK.STATUS_VER then
    let ks := s.replicas
    let (s, cap) := s.wharfStamp x.cap x.wharfFull
    .next (s.xlkSend lane 3 (beBytes 1 ks.length ++ [0, 0, 0] ++ ks.flatMap (s.phaseOut lane cap)))
  else .next s

/-- A loop entry (R530): the first loop bound to the selector, 0xFF where there is none. -/
def State.loopOut (s : State) (n : Nat) : List Byte :=
  let l := (s.loopsOf n).head?
  let fr : Int := match l with | some l => (s.loopC l).freq56 | none => 0
  beBytes 1 n ++ beBytes 1 (s.selState n) ++ beBytes 1 (s.f (SEL.STATUS_ACTIVE_RANK n)) ++ beBytes 1 (l.getD 0xFF) ++
    beInt 8 (satSigned 48 fr) ++ beBytes 4 (match l with | some l => s.w (LOOP.HO_ELAPSED l) | none => 0)

/-- A time entry (R530). -/
def State.timeOut (s : State) (k : Nat) : List Byte :=
  let fl := s.f (TSC.STATUS_SET k) + 2 * s.f (TSC.STATUS_TRACEABLE k) + 4 * s.f (TSC.TOD_CFG_UTC_VALID k) +
    8 * s.f (TSC.TOD_CFG_LEAP61 k) + 16 * s.f (TSC.TOD_CFG_LEAP59 k)
  beBytes 1 k ++ beBytes 1 fl ++ beBytes 2 (s.f (TSC.TOD_CFG_UTC_OFS k)) ++ beInt 8 (satSigned 48 (s.tscC k).y) ++ [0, 0, 0, 0]

/-- Seconds of a grant that are left. -/
def leftOf (now : Nat) (g : Option Grant) : Nat :=
  match g with
  | some g => satBits 16 ((g.until_ - now) / secT)
  | none => 0

/-- A berth entry, and the multicast entry of a port (R530). -/
def State.berthOut (s : State) (slot : Nat) : List Byte :=
  let b := s.berthC slot
  beBytes 2 slot ++ beBytes 1 b.kind ++ beBytes 1 b.port ++ beBytes 10 b.par.peerId ++ beBytes 2 b.cl.seqSync ++
    beBytes 2 b.cl.seqResp ++ beBytes 2 b.cl.seqAnn ++ beBytes 2 (leftOf s.now b.gSync) ++ beBytes 2 (leftOf s.now b.gResp) ++
    beBytes 2 (leftOf s.now b.gAnn) ++ beBytes 1 (b2n b.up.demoted) ++ List.replicate 5 0
/-- See `State.berthOut`. -/
def State.mcastOut (s : State) (n : Nat) : List Byte :=
  let c := s.pteC n
  [0xFF, 0xFF, 0] ++ beBytes 1 n ++ List.replicate 10 0 ++ beBytes 2 c.mcSync ++ [0, 0] ++ beBytes 2 c.mcAnn ++ List.replicate 12 0

/-- The device sends state frames: it is ACTIVE in a formed pair. -/
def State.carries (s : State) : Bool := s.xlkLive && s.f XLK.STATUS_PAIR == 2 && s.f XLK.STATUS_ROLE == 1

/-- LOOPSTATE_TX (R529, R530). -/
def execLoopstateTx (s : State) : Host.Outcome State Fault Refusal :=
  if s.carries then
    .next (s.xlkSendBoth 4 (beBytes 1 s.followSels.length ++ [0, 0, 0] ++ s.followSels.flatMap s.loopOut))
  else .next s

/-- TIMESTATE_TX (R529, R530). -/
def execTimestateTx (s : State) : Host.Outcome State Fault Refusal :=
  if s.carries then
    .next (s.xlkSendBoth 5 (beBytes 1 s.replicas.length ++ [0, 0, 0] ++ s.replicas.flatMap s.timeOut))
  else .next s

/-- BERTHSTATE_TX (R529, R530, R532): the entry of a client or upstream berth, with the multicast entry of its port. -/
def execBerthstateTx (slot : Fin 8192) (s : State) : Host.Outcome State Fault Refusal :=
  let b := s.berthC slot
  if s.carries ∧ s.on XLK.CFG_BERTH_REP ∧ 2 ≤ s.f XLK.STATUS_VER ∧ (b.kind = 1 ∨ b.kind = 2) then
    .next (s.xlkSendBoth 6 ([2, 0, 0, 0] ++ s.berthOut slot ++ s.mcastOut b.port))
  else .next s

/-! Timers and lanes. -/

/-- HEARTBEAT_LOSS (R534, R550): HB_MISS intervals have passed without a HEARTBEAT. -/
def execHeartbeatLoss (s : State) : Host.Outcome State Fault Refusal :=
  if s.xlkLive ∧ s.f XLK.STATUS_PAIR = 2 ∧
      s.xlk.hbAt + s.f XLK.CFG2_HB_US * s.f XLK.CFG2_HB_MISS * 2000 ≤ s.now then .next s.breakPair
  else .next s

/-- INCUMBENT_TIMER (R535): 60 s ALONE while QL_SEL was ACTIVE or HOLDOVER. -/
def execIncumbentTimer (s : State) : Host.Outcome State Fault Refusal :=
  match s.xlk.goodSince with
  | some t =>
    if s.xlkLive ∧ s.f XLK.STATUS_ROLE = 0 ∧ t + 60 * secT ≤ s.now then .next (s.setf XLK.STATUS_INCUMBENT 1) else .next s
  | none => .next s

/-- SWITCH_ACCEPT_TIMEOUT (R549): 10 ms have passed since the REQUEST. -/
def execSwitchAcceptTimeout (s : State) : Host.Outcome State Fault Refusal :=
  if s.xlk.switching.isSome ∧ s.xlk.switchAt + 10 * msT ≤ s.now then .next (s.switchFails true).negotiate else .next s

/-- XLK_LANE_UP (R185, R525): a lane gains block lock; through a reset the receiver keeps it. -/
def execXlkLaneUp (lane : Fin 2) (s : State) : Host.Outcome State Fault Refusal :=
  let up := fun (s : State) => s.modXlk (fun x => if lane = 0 then { x with up0 := some s.now } else { x with up1 := some s.now })
  if s.top.landedOnce ∧ !s.landed then .next (up s)
  else if !s.xlkLive ∨ s.laneUp lane then .next s
  else .next ((((up s).setf (if lane = 0 then XLK.STATUS_LANE0_UP else XLK.STATUS_LANE1_UP) 1).ev XLK.EVENT_LANE_UP).laneSettle lane)

/-- A lane goes down (R184, R538). -/
def State.laneDown (s : State) (lane : Nat) : State :=
  let s := s.modXlk (fun x => if lane = 0 then { x with up0 := none, d0 := none } else { x with up1 := none, d1 := none })
  if !s.laneUp lane then s
  else
    let s := (s.setf (if lane = 0 then XLK.STATUS_LANE0_UP else XLK.STATUS_LANE1_UP) 0).ev XLK.EVENT_LANE_DOWN
    s.loseActivity (28 + lane)

/-- XLK_LANE_DOWN (R184, R525, R538). -/
def execXlkLaneDown (lane : Fin 2) (s : State) : Host.Outcome State Fault Refusal := .next (s.laneDown lane)

/-! Presentation (R543). -/

/-- Present the mean of a time scale's period. -/
def State.presentXlk (s : State) (k : Nat) : State :=
  match s.xlk.theta.find? (fun y => y.1 == if s.on (TSC.STATUS_SET k) then k else k + 8) with
  | none => s
  | some (_, sum, n) =>
    if n = 0 then s
    else
      let a := -roundOpen 51 sum (2 * n)
      if s.on (TSC.STATUS_SET k) then stateOf (s.tryAdjust k .xlink a) else stateOf (s.presentStep k .xlink a)

/-- XLK_PRESENT_PERIOD (R543): TS_PERIOD has passed since the period began. -/
def execXlkPresentPeriod (s : State) : Host.Outcome State Fault Refusal :=
  if !s.xlkLive ∨ s.now < s.xlk.presentAt + s.f XLK.CTRL_TS_PERIOD * msT then .next s
  else
    let s := if s.f XLK.STATUS_ROLE = 2 ∧ s.on XLK.CTRL_TS_EN then s.forL s.replicas (fun s k => s.presentXlk k) else s
    .next (s.modXlk (fun x => { x with theta := [], presentAt := s.now }))

/-! Commands. -/

/-- SWITCH (R549). -/
def State.xlkSwitch (s : State) (p : Port) (activate : Bool) : State :=
  let t := (s.xlk.token + 1) % 65536
  let s := s.modXlk (fun x => { x with token := t, switching := some (SwitchJob.mk t p activate), switchAt := s.now })
  (s.setf XLK.STATUS_SWITCHING 1).xlkSendBoth 7 (switchBody 1 0 t)

/-- A count word and entries of four words (R546). -/
def State.fetchEntries (s : State) (p : Port) (es : List (List Word)) : State :=
  s.mboxOut p (BitVec.ofNat 32 es.length :: es.flatten)

/-- What a write of one bit of CMD does. -/
def State.xlkCommand (s : State) (p : Port) (bit : Nat) : State :=
  if bit = 0 then
    (if s.xlk.switching.isSome then s.complete XLK.CMD_CODE_CODE .busy
     else if s.f XLK.STATUS_ROLE ≠ 1 then s.complete XLK.CMD_CODE_CODE .locked
     else s.xlkSwitch p false)
  else if bit = 1 then
    (s.fetchEntries p (if s.f XLK.STATUS_ROLE = 2 then s.xlk.loops else [])).complete XLK.CMD_CODE_CODE .ok
  else if bit = 2 then
    (if s.on XLK.CTRL_ADMIN then s.complete XLK.CMD_CODE_CODE .locked
     else s.modXlk (fun x => { x with loopcal := true }))
  else (s.fetchEntries p (if s.f XLK.STATUS_PAIR = 2 then s.xlk.times else [])).complete XLK.CMD_CODE_CODE .ok

/-- XLK_SWITCH (R549). -/
def execXlkSwitch (p : Port) (s : State) : Host.Outcome State Fault Refusal :=
  .next (s.doorbell p XLK.CMD false (fun s => s.xlkCommand p 0))
/-- FETCH_LOOPS (R546). -/
def execFetchLoops (p : Port) (s : State) : Host.Outcome State Fault Refusal :=
  .next (s.doorbell p XLK.CMD false (fun s => s.xlkCommand p 1))
/-- XLK_LOOPCAL (R526). -/
def execXlkLoopcal (p : Port) (s : State) : Host.Outcome State Fault Refusal :=
  .next (s.doorbell p XLK.CMD false (fun s => s.xlkCommand p 2))
/-- FETCH_TIMES (R546). -/
def execFetchTimes (p : Port) (s : State) : Host.Outcome State Fault Refusal :=
  .next (s.doorbell p XLK.CMD false (fun s => s.xlkCommand p 3))

/-- Half of a lane's difference goes to each of its constants (R414, R526). -/
def State.laneCal (s : State) (lane : Nat) (diff : Int) : State :=
  let h := roundOpen 52 diff 2
  let add := fun (s : State) (x : Fld) => s.setf x (((s.f x : Int) + h).toNat)
  ((add (add s (XLK.LANE_TS_RX_PS lane)) (XLK.LANE_TS_TX_PS lane)).setSat (XLK.LANE_LOOPCAL_DIFF lane) diff).dirty

/-- XLK_LOOPCAL_DONE with the differences of both lanes (R526). -/
def execXlkLoopcalDone (diff0 diff1 : Int) (s : State) : Host.Outcome State Fault Refusal :=
  if s.xlk.loopcal then
    let s := s.modXlk (fun x => { x with loopcal := false })
    .next (((s.laneCal 0 diff0).laneCal 1 diff1).complete XLK.CMD_CODE_CODE .ok)
  else .next s

/-- CTRL has been written over an old value: ADMIN 0 holds the lanes in idle and breaks the pair (R534). -/
def State.xlkCtrlWritten (s : State) (old : Nat) : State :=
  if bitAt old 0 ∧ !s.on XLK.CTRL_ADMIN then
    let s := s.breakPair
    (s.laneDown 0).laneDown 1
  else s

end Sys2Proof.Machine
end

