-- ==== Sys2Proof/Machine/Image.lean ====
section
/-! DEFINITION. The verification of configuration images (R131, R724) and the structure check (R75 and the rules it names). -/

namespace Sys2Proof.Machine

/-! The structure check. Each rule answers the image offset of the record that breaks it, or none. -/

/-- The first record, of `n` bytes each from offset `off` on, that breaks a rule. -/
def badRec {α : Type} (off n : Nat) (l : List α) (ok : α → Bool) : Option Nat :=
  (l.findIdx? (fun x => !ok x)).map (fun i => off + n * i)

/-- A rule about the whole of a section. -/
def badIf (off : Nat) (bad : Bool) : Option Nat := if bad then some off else none

/-- No two members have the same key. -/
def distinct (l : List Nat) : Bool := l.zipIdx.all (fun x => !((l.drop (x.2 + 1)).contains x.1))

/-- Whether the image builds a port, an output of at most 100 kHz, a landing, a selector. -/
def Image.port (i : Image) (n : Nat) : Bool := i.ports.any (fun r => r.port == n && r.mode != 0)
/-- See `Image.port`. -/
def OutputRec.pulse (r : OutputRec) : Bool := decide (r.freqUhz ≤ 100000000000)
/-- See `Image.port`. -/
def Image.landing (i : Image) (n : Nat) : Bool :=
  n == 30 || (decide (20 ≤ n) && decide (n ≤ 27) && i.port (n - 20)) || ((n == 28 || n == 29) && i.xlk.isSome) ||
    i.landings.any (fun r => r.landing == n)
/-- See `Image.port`. -/
def Image.loop (i : Image) (n : Nat) : Bool := i.loops.any (fun r => r.loop == n)
/-- See `Image.port`; a selector without a loop bound to it is unbuilt (R82). -/
def Image.selector (i : Image) (n : Nat) : Bool :=
  i.selectors.any (fun r => r.selector == n) && i.loops.any (fun r => r.inKind == 0 && r.inIdx == n)
/-- See `Image.port`. -/
def Image.synth (i : Image) (n : Nat) : Option SynthRec := i.synths.find? (fun r => r.number == n)
/-- See `Image.port`. -/
def Image.output (i : Image) (n : Nat) : Option OutputRec := i.outputs.find? (fun r => r.number == n)
/-- See `Image.port`. -/
def Image.tsc (i : Image) (n : Nat) : Bool := i.timescales.any (fun r => r.index == n)

/-- The blocks an image builds (R102, R583). -/
def Image.block (i : Image) (b : Nat) : Bool :=
  if b ≤ 0x0C ∨ b = 0xA1 then true
  else if 0x10 ≤ b ∧ b ≤ 0x2F then i.landing (b - 0x10)
  else if 0x30 ≤ b ∧ b ≤ 0x3F then i.selector (b - 0x30)
  else if 0x40 ≤ b ∧ b ≤ 0x5F then i.loop (b - 0x40)
  else if 0x60 ≤ b ∧ b ≤ 0x67 then (i.synth (b - 0x60)).isSome
  else if 0x68 ≤ b ∧ b ≤ 0x83 then (i.output (b - 0x68)).isSome
  else if 0x88 ≤ b ∧ b ≤ 0x8F then i.tsc (b - 0x88)
  else if 0x90 ≤ b ∧ b ≤ 0x97 then i.port (b - 0x90)
  else if 0x98 ≤ b ∧ b ≤ 0x9F then i.port (b - 0x98)
  else if b = 0xA0 then i.xlk.isSome
  else false

/-- The depth of a loop in its chain, none where it is more than four or a loop is its own source (R84). -/
def Image.depth (i : Image) : Nat → Nat → Option Nat
  | 0, _ => none
  | k + 1, n =>
    match i.loops.find? (fun r => r.loop == n) with
    | none => none
    | some r =>
      if r.inKind = 0 then some 1
      else
        let src := if r.inKind = 1 then [r.inIdx]
          else ((i.combine.find? (fun c => c.loop == n)).map (fun c => c.sources.map Prod.fst)).getD [n]
        let ds := src.map (fun m => i.depth k m)
        if ds.any Option.isNone then none else some (1 + (ds.map (fun d => d.getD 0)).foldl max 0)

/-- The bandwidth range of a preset in µHz (R233). -/
def presetRange : Nat → Nat × Nat
  | 0 => (1000000, 10000000) | 1 => (1000000, 3000000) | 2 => (10000, 1000000) | 3 => (1, 10000)
  | 4 => (1000, 100000) | 5 => (10000000, 500000000) | 6 => (10000000, 4000000000) | _ => (1, 0)

/-- The fixed owner of a scratchpad (R99): class and instance. -/
def fixedSp (n : Nat) : Option (Nat × Nat) :=
  if n ≤ 35 then some (1, n)
  else if 100 ≤ n ∧ n ≤ 115 then some (5, n - 100)
  else if 116 ≤ n ∧ n ≤ 119 then some (6, n - 116)
  else none

/-- R99 to R101: one scratchpad. -/
def Image.spOk (i : Image) (n : Nat) (r : SpRec) : Bool :=
  match fixedSp n with
  | some (c, k) => r.cls == c && r.inst == k && r.keep
  | none =>
    decide (r.cls ≤ 8) && (!r.keep || r.cls == 7 || r.cls == 8) &&
      (r.cls != 0 || r.inst == 0) && (r.cls != 2 || i.port r.inst) &&
      (r.cls != 4 || i.landings.any (fun l => l.landing == r.inst && l.histSp == n)) && (r.cls != 8 || i.xlk.isSome)

/-- R151, R94, R97, R101: one landing record. -/
def Image.landingOk (i : Image) (r : LandingRec) : Bool :=
  let n := r.landing
  let fmt := match r.format with
    | 0 | 1 => decide (n ≤ 19)
    | 2 | 3 | 4 | 5 => decide (n ≤ 15)
    | 6 => decide (20 ≤ n) && decide (n ≤ 31)
    | _ => false
  let term := match r.term with
    | 0 => true
    | 1 => r.format == 2 || r.format == 3
    | 2 => r.format == 2 || r.format == 5
    | 3 => r.format == 4
    | _ => false
  fmt && term && decide (r.bound ≤ 1) && (r.format == 6 || decide (r.slicer ≤ 3)) &&
    (r.histSp == 0xFF || (i.spmap[r.histSp]?.map (fun x => x.cls == 4 && x.inst == n)).getD false) &&
    (!(decide (20 ≤ n) && decide (n ≤ 27)) || i.port (n - 20)) && (!(n == 28 || n == 29) || i.xlk.isSome)

/-- R78, R80, R82, R125, R208: one selector record. -/
def Image.selectorOk (i : Image) (r : SelectorRec) : Bool :=
  decide (r.selector ≤ 15) && decide (1 ≤ r.entries.length) && decide (r.entries.length ≤ 30) && decide (r.revertive ≤ 1) &&
    distinct ((r.entries.map EntryRec.cand).filter (fun c => decide (0x80 ≤ c))) &&
    r.entries.all (fun e =>
      let c := e.cand
      if c ≥ 0x80 then decide (c ≤ 0x9F) && e.qlSource == 4
      else
        decide (c ≤ 29) && i.landing c &&
          (if c ≤ 19 then e.qlSource == 0
           else if c ≤ 27 then decide (e.qlSource ≤ 2)
           else e.qlSource == 3))

/-- R34 to R36, R83, R84, R86, R96, R233, R343: one loop record. -/
def Image.loopOk (i : Image) (r : LoopRec) : Bool :=
  let src := match r.inKind with
    | 0 => decide (r.inIdx ≤ 15) && i.selectors.any (fun x => x.selector == r.inIdx)
    | 1 => i.loop r.inIdx
    | 2 => i.combine.any (fun c => c.loop == r.loop)
    | _ => false
  let target := match r.tKind with
    | 0 => (i.synth r.tIdx).isSome
    | 1 => decide (r.tIdx < 24) && ((i.output r.tIdx).map (fun o => !o.pulse)).getD false
    | 2 => i.tsc r.tIdx && i.pilot.getD (0x40 + r.loop) false && i.pilot.getD (0x88 + r.tIdx) false
    | _ => false
  decide (r.loop ≤ 31) && src && target && decide (r.preset ≤ 6) && decide ((presetRange r.preset).1 ≤ r.bwUhz) &&
    decide (r.bwUhz ≤ (presetRange r.preset).2) && (i.depth 4 r.loop).isSome &&
    (i.loops.filter (fun x => x.tKind == r.tKind && x.tIdx == r.tIdx)).length == 1

/-- R84, R85: one COMBINE record, as its 16 bytes stand. -/
def Image.combineOk (i : Image) (b : List Byte) : Bool :=
  let n := beAt b 1 1
  let tr := (List.range 4).map (fun k => (beAt b (2 + 3 * k) 1, beAt b (3 + 3 * k) 2))
  let used := tr.take n
  i.loops.any (fun r => r.loop == beAt b 0 1 && r.inKind == 2) && decide (2 ≤ n) && decide (n ≤ 4) &&
    used.all (fun x => i.loop x.1 && x.2 != 0) && (tr.drop n).all (fun x => x == (0xFF, 0)) &&
    (used.map Prod.snd).foldl (· + ·) 0 == 0x10000

/-- R37, R88 to R92, R320, R344, R348, R354: one output record. -/
def Image.outputOk (i : Image) (r : OutputRec) : Bool :=
  match i.synth r.synth with
  | none => false
  | some v =>
    let f := r.freqUhz
    decide (r.number ≤ 27) && decide (r.format ≤ 6) && (r.format == 2 || decide (r.number < 24)) && decide (r.drive ≤ 1) &&
      decide (r.initEn ≤ 1) && decide (r.squelch ≤ 2) &&
      (if r.number ≥ 24 then
        r.anchor == 0xFF && r.synth / 2 == r.number - 24 && decide (2400000000000000 ≤ f) && decide (f ≤ 12800000000000000) &&
          [1, 2, 4].any (fun d => f * d == v.vcoHz * 1000000)
       else
        decide (1000000 ≤ f) && decide (f ≤ (if r.format ≥ 4 then 250000000000000 else 1600000000000000)) &&
          (if r.pulse then i.tsc r.anchor && 1000000000000000 % f == 0 && 1000000000 % (1000000000000000 / f) == 0
           else r.anchor == 0xFF))

/-- R106: one interrupt route. -/
def routeOk (r : Nat × Nat) : Bool := (decide (r.1 ≤ 0x40) || r.1 == 0x7F) && decide (r.2 ≤ 1)

/-- R109, R664: one reaction entry. -/
def reactionOk (r : ReactionRec) : Bool :=
  decide (r.cls ≤ 0xE) && decide (1 ≤ r.kind) && decide (r.kind ≤ 0x16) && decide (r.bits < 32) &&
    !(bitAt r.bits 3 && bitAt r.bits 4) && !(bitAt r.bits 4 && [0x08, 0x09, 0x0A, 0x15].contains r.kind) &&
    (!bitAt r.bits 3 || (r.cls == 6 && r.kind == 0x0B) || (r.cls == 0xC && (r.kind == 0x10 || r.kind == 0x11)))

/-- R97, R527: the XLK section. -/
def Image.xlkOk (i : Image) (b : List Byte) : Bool :=
  let follow := beAt b 2 2
  let mask := beAt b 4 1
  let hb := beAt b 6 1
  decide (1 ≤ i.xlkVer) && decide (i.xlkVer ≤ 3) && decide (beAt b 0 1 ≤ 1) && (i.synth (beAt b 1 1)).isSome &&
    (List.range 16).all (fun n => !bitAt follow n || (i.selector n && i.selectors.any (fun r =>
      r.selector == n && r.entries.any (fun e => e.cand == 28 || e.cand == 29)))) &&
    (List.range 8).all (fun k => !bitAt mask k || i.tsc k) && decide (beAt b 5 1 ≤ 7) && bitAt mask (beAt b 5 1) &&
    (hb == 0 || (decide (10 ≤ hb) && decide (hb ≤ 100))) && beAt b 7 1 != 1 && decide (beAt b 8 2 ≤ 1000) &&
    decide (beAt b 0xA 1 ≤ 15) && bitAt follow (beAt b 0xA 1) && decide (1 ≤ beAt b 0xB 1) && decide (beAt b 0xB 1 ≤ 0xD) &&
    decide (beAt b 0xC 1 ≤ 1) && allZero (slice b 0xD 3)

/-- The first of several rules that is broken. -/
def firstBad (l : List (Option Nat)) : Option Nat := (l.find? Option.isSome).getD none

/-- Records of SYNTH_OUTPUTS and TIMESCALES are of kind 0 or 1. -/
def kindsOk (rows : List (List Byte)) : Bool := rows.all (fun r => decide (beAt r 0 1 ≤ 1))

/-- The offset of each SELECTORS record. -/
def selOffset (off : Nat) (l : List SelectorRec) (k : Nat) : Nat :=
  (l.take k).foldl (fun a r => a + 4 + 4 * r.entries.length) off

/-- The structure check of R75 with R3: the image offset of the first record that breaks a rule, or none. Two records of one
instance break it too (log entry 51, DEDUCED). -/
def Image.structureBad (i : Image) (grade : Nat) (l : List (Nat × Nat × List Byte)) : Option Nat :=
  let at_ := fun c => offsetOf l c
  let cnt := fun c => (i.spmap.filter (fun r => r.cls == c)).length
  let q := fun k => i.quotas.getD k 0
  let quotaSum := q 0 + q 1 + q 2 + q 3
  let enabled := i.outputs.filter (fun r => r.initEn == 1)
  let ports := (List.range 8).filter (fun n => i.port n)
  firstBad [
    badIf (at_ 4) (!kindsOk (recordsOf 16 (bodyOf l 4))),
    badIf (at_ 5) (!kindsOk (recordsOf 8 (bodyOf l 5))),
    badRec (at_ 8) 4 (i.spmap.zipIdx.zip (recordsOf 4 (bodyOf l 8)))
      (fun x => i.spOk x.1.2 x.1.1 && beAt x.2 0 1 == x.1.2),
    badIf (at_ 8) (ports.any (fun n =>
      let c := (i.spmap.filter (fun r => r.cls == 2 && r.inst == n)).length
      c == 0 || decide (4 < c))),
    badIf (at_ 7) (decide (4096 < q 0) || decide (64 < q 1) || decide (512 < q 2) || decide (32 < q 3)),
    badIf (at_ 8) (decide (512 * cnt 3 < quotaSum)),
    badIf (at_ 8) (i.xlk.isSome && cnt 8 == 0),
    badRec (at_ 1) 8 i.landings i.landingOk,
    badIf (at_ 1) (!distinct (i.landings.map LandingRec.landing)),
    ((i.selectors.findIdx? (fun r => !i.selectorOk r)).map (selOffset (at_ 2) i.selectors)),
    badIf (at_ 2) (!distinct (i.selectors.map SelectorRec.selector)),
    badRec (at_ 0xE) 16 (recordsOf 16 (bodyOf l 0xE)) i.combineOk,
    badIf (at_ 0xE) (!distinct (i.combine.map CombineRec.loop)),
    badRec (at_ 3) 16 i.loops i.loopOk,
    badIf (at_ 3) (!distinct (i.loops.map LoopRec.loop)),
    badRec (at_ 4) 16 (recordsOf 16 (bodyOf l 4)) (fun r => beAt r 0 1 != 0 ||
      (decide (beAt r 1 1 ≤ 7) && decide (9600000000 ≤ beAt r 8 8) && decide (beAt r 8 8 ≤ 12800000000))),
    badRec (at_ 4) 16 (recordsOf 16 (bodyOf l 4)) (fun r => beAt r 0 1 != 1 ||
      ((i.output (beAt r 1 1)).map i.outputOk).getD false),
    badIf (at_ 4) (!distinct (i.synths.map SynthRec.number) || !distinct (i.outputs.map OutputRec.number)),
    badIf (at_ 4) ((List.range 8).any (fun k =>
      decide (12 < (i.outputs.filter (fun r => decide (r.number < 24) && r.synth == k)).length))),
    badIf (at_ 4) ((List.range 4).any (fun k =>
      let d := (i.outputs.filter (fun r => decide (r.number < 24) && r.number / 6 == k && decide (4 ≤ r.format))).map OutputRec.drive
      d.contains 0 && d.contains 1)),
    badIf (at_ 4) (grade == 2 && (decide (16 < (enabled.filter (fun r => decide (r.number < 24))).length) ||
      decide (2 < (enabled.filter (fun r => decide (24 ≤ r.number))).length))),
    badRec (at_ 5) 8 (recordsOf 8 (bodyOf l 5)) (fun r =>
      if beAt r 0 1 = 0 then decide (beAt r 1 1 ≤ 7) && decide (beAt r 2 6 ≤ 1000000000000)
      else decide (beAt r 1 1 ≤ 1) && i.tsc (beAt r 2 1) && decide (beAt r 3 1 ≤ 1) && decide (beAt r 4 1 ≤ 7)),
    badIf (at_ 5) (!distinct (i.timescales.map TimescaleRec.index) || !distinct (i.todouts.map TodoutRec.line)),
    badRec (at_ 6) 8 i.ports (fun r => decide (r.port ≤ 7) && decide (r.mode ≤ 3) && (r.mode == 0 || i.tsc r.tsc)),
    badIf (at_ 6) (!distinct (i.ports.map PortRec.port) || (!ports.isEmpty && i.synths.isEmpty)),
    badIf (at_ 9) (!(List.range 256).all (fun b => (i.helm.getD b 0 != 0) == i.block b)),
    badRec (at_ 0xA) 2 i.routes routeOk,
    badRec (at_ 0xB) 4 i.reactions reactionOk,
    badIf (at_ 0xB) (!distinct (i.reactions.map (fun r => 64 * r.cls + r.kind))),
    badIf (at_ 0xD) ((i.xlk.map (fun x => !i.xlkOk x.bytes)).getD false)]

/-- Lifecycle states (R554). -/
abbrev lcManufacture : Nat := 0
/-- See `lcManufacture`. -/
abbrev lcUnowned : Nat := 1
/-- See `lcManufacture`. -/
abbrev lcOwned : Nat := 2
/-- See `lcManufacture`. -/
abbrev lcRetired : Nat := 3

/-- The lifecycle state. -/
def State.lifecycle (s : State) : Nat := s.f SEC.STATE_LIFECYCLE

/-- The hash of the key that must have signed an image, none where no signer is accepted (R132). -/
def State.signerHash (s : State) : Option (List Byte) :=
  if s.lifecycle ≤ lcUnowned then some Config.dunfoegKeyHash
  else if s.lifecycle = lcOwned then some s.sec.ownerHash
  else none

/-- What checks 1 to 10 of R131, and check 11 without the preload rules, find: a failure code with the offset of the offending
record, or the image with its plaintext sections. -/
inductive Verdict where
  | bad (code off : Nat)
  | good (img : Image) (plain : List (Nat × Nat × List Byte))
  deriving DecidableEq, Repr

/-- Apply the checks of R131 to `len` bytes: `signer` is the accepted key hash; a load from the slipway leaves out checks 5 and 6
(R141). -/
def State.judgeImage (s : State) (b : List Byte) (len : Nat) (signer : Option (List Byte)) (full : Bool) : Verdict :=
  match signer with
  | none => .bad 0x0D 0
  | some key =>
    if !headerOk b then .bad 0x01 0
    else
      match imageWalk b len with
      | none => .bad 0x02 0
      | some l =>
        let pub := slice b 0x48 96
        let imageId := slice b 0x28 16
        let label := slice b 0x38 16
        let grade := s.f TOP.ID_GRADE
        if !crcsOk l then .bad 0x03 0
        else if full ∧ Config.sha384 pub ≠ key then .bad 0x05 0
        else if full ∧ !Config.ecdsaVerify pub (Config.sha384 (b.take (len - 96))) (slice b (len - 96) 96) then .bad 0x04 0
        else if beAt b 0xC 2 ≠ 0x9640 ∨ beAt b 0xE 1 > bitsAt (s.w TOP.ID) 15 8 ∨ !bitAt (beAt b 0xF 1) (grade - 1) then
          .bad 0x08 0
        else if beAt b 0x10 1 < s.f FAB.SECVER_FUSES then .bad 0x07 0
        else if !(l.any (fun x => x.code == 8) && l.any (fun x => x.code == 9) && flagsOk l && l.all sizeOk &&
            (beAt b 0x11 1 == 1) == l.any Section.enc) then .bad 0x0A 0
        else if openFail imageId label l ≠ 0 then .bad (openFail imageId label l) 0
        else
          match openSections imageId label l with
          | none => .bad 0x06 0
          | some p =>
            let i := parseImage b p
            match i.structureBad grade p with
            | some o => .bad 0x09 o
            | none => .good i p

end Sys2Proof.Machine
end

