-- ==== Sys2Proof/Machine/Stores.lean ====
section
/-! DEFINITION. On-chip memory as the host and the scrubber reach it, non-volatile storage, the logbook's head and archive, and the flash
manager (18_scratchpads.md, 19_nonvolatile_storage.md). -/

namespace Sys2Proof.Machine

/-! Scratchpads. -/

/-- Owner class of a scratchpad (R99, R100, R619): until an image has landed only the fixed ones are powered. -/
def State.spClass (s : State) (sp : Nat) : Nat :=
  match s.fab.img with
  | some i => if s.top.landedOnce then (i.spmap[sp]?.map SpRec.cls).getD 0 else ((fixedSp sp).map Prod.fst).getD 0
  | none => ((fixedSp sp).map Prod.fst).getD 0

/-- Status of a host write to scratchpad `sp` (R620, R138). -/
def State.windowWrite (s : State) (sp : Nat) : Code :=
  match s.spClass sp with
  | 0 => .badArgument
  | 5 => if s.f FAB.STATE_SLIPWAY = 1 then .ok else .locked
  | 7 => .ok
  | _ => .locked

/-- READER of a host port (R626). -/
def portReader : Port → Nat
  | .a => 1
  | .b => 2

/-- A host access of `n` bytes at an offset that is not allowed where it stands (R577, R580). -/
def windowShape (p : Port) (a n : Nat) : Bool :=
  decide (1 ≤ n) && decide (a + n ≤ 128 * spSize) &&
    (match p with
     | .a => decide (n ≤ 512) && decide (a / spSize = (a + n - 1) / spSize)
     | .b => a % 4 == 0 && n == 4)

/-- Write the bytes that fall into one word, after the read that a narrower write makes (R618, R626, R628). -/
def State.hostWord (s : State) (p : Port) (a : Nat) (bs : List Byte) : State :=
  let w := a / 8
  let s :=
    if bs.length = 8 then s
    else
      let bad := decide (2 ≤ s.eccBits w)
      let s := s.eccRead w (portReader p)
      if bad then s.reportInj 0x100 0x12 (w * 8) true else s
  (s.setBytes a bs).eccWrite w

/-- The pieces of a string of bytes that fall into successive words. -/
def wordPieces : Nat → Nat → List Byte → List (Nat × List Byte)
  | 0, _, _ => []
  | _ + 1, _, [] => []
  | k + 1, a, bs =>
    let n := 8 - a % 8
    (a, bs.take n) :: wordPieces k (a + n) (bs.drop n)

/-- A host write through the window, word by word in ascending order (R620, R622). -/
def State.hostWindow (s : State) (p : Port) (a : Nat) (bs : List Byte) : State :=
  if !windowShape p a bs.length then s.busErr p true true a .badArgument
  else
    match s.windowWrite (a / spSize) with
    | .ok => (s.status p .ok).forL (wordPieces bs.length a bs) (fun s x => s.hostWord p x.1 x.2)
    | c => s.busErr p true true a c

/-- A host read through the window: the state after it, its status and its bytes (R620, R622, R626). -/
def State.hostWindowRead (s : State) (p : Port) (a n : Nat) : State × Code × List Byte :=
  if !windowShape p a n ∨ s.spClass (a / spSize) = 0 then (s.busErr p false true a .badArgument, .badArgument, [])
  else
    let bs := s.bytes a n
    ((s.status p .ok).bankCheck a n (portReader p), .ok, bs)

/-- HOST_WINDOW_WRITE (R138, R618, R620, R622, R628). -/
def execHostWindowWrite (p : Port) (off : BitVec 26) (bytes : List Byte) (s : State) :
    Host.Outcome State Fault Refusal :=
  if s.reaches p then .next (s.hostWindow p off.toNat bytes) else .next s

/-- An atomic operation (R624, R625): 1 ADD, 2 SWAP. -/
def State.atomic (s : State) (p : Port) (op : Nat) : State :=
  let a := s.f MEM.AT_ADDR_OFFSET
  let done := fun (s : State) (c : Code) => s.complete MEM.AT_CODE_CODE c
  if op = 0 then s
  else
    match s.mboxIn p 2 with
    | none => done s .badArgument
    | some ws =>
      if op = 3 ∨ a % 8 ≠ 0 ∨ s.spClass (a / spSize) ≠ 7 then done s .badArgument
      else
        let s := s.eccRead (a / 8) (portReader p)
        let old := s.word64 a
        let v := if op = 1 then (old + ofWords ws) % 2 ^ 64 else ofWords ws
        let s := (s.setBytes a (leBytes 8 v)).eccWrite (a / 8)
        (done (s.mboxEmpty p) .ok).mboxOut p (toWords 2 old)

/-- AT_ADD (R624, R625). -/
def execAtAdd (p : Port) (s : State) : Host.Outcome State Fault Refusal :=
  .next (s.doorbell p MEM.AT_CMD false (fun s => s.atomic p 1))

/-- AT_SWAP (R624, R625). -/
def execAtSwap (p : Port) (s : State) : Host.Outcome State Fault Refusal :=
  .next (s.doorbell p MEM.AT_CMD false (fun s => s.atomic p 2))

/-- SCRUB_CYCLE (R626, R629): the scrubber of a powered scratchpad reads its next word. -/
def execScrubCycle (sp : Fin 128) (s : State) : Host.Outcome State Fault Refusal :=
  if s.spClass sp = 0 then .next s
  else
    let w := Tab.get (fun _ => 0) s.scrub sp
    let s := { s with scrub := Tab.set (fun _ => 0) s.scrub sp ((w + 1) % 65536) }
    let s := s.eccRead (sp * 65536 + w) 3
    .next (if w = 65535 ∧ sp.val = 0 then s.incWrap MEM.STATUS_PASSES else s)

/-! The NV array. -/

/-- The dirty pages show in STATUS (R635). -/
def State.showDirty (s : State) : State := s.setf NV.STATUS_DIRTY (min 255 s.nv.dirty.length)

/-- An NV operation completes (R594, R634). -/
def State.nvDone (s : State) (opc : Nat) (c : Code) : State :=
  let s := (s.setf NV.OP_STATUS_BUSY 0).setf NV.OP_STATUS_LAST_OP opc
  (s.complete NV.OP_STATUS_CODE c).ev NV.EVENT_OP_DONE

/-- A commit completes (R636): the array takes it with the ledgers it brings (R637), and a FLOOR slot is written (R370, R514); one that waits
starts. -/
def State.finishCommit (s : State) : State :=
  match s.nv.commit with
  | none => s
  | some c =>
    let s := { s with
      nv := { s.nv with array := c.arr, sysArray := c.sys, commit := none }
      flm := { s.flm with boot := ⟨c.sys.cur, c.sys.prev, c.sys.pend, c.sys.slots⟩ } }
    let s := (s.writeFloor.commitLedgers c).setf NV.STATUS_COMMITTING 0
    let s := if c.byHost then s.nvDone 3 .ok else s
    match c.again with
    | some b => (if b then s.setf NV.OP_STATUS_BUSY 1 else s).startCommit b
    | none => s

/-- The enabled host region that holds an NV offset (R639). -/
def State.hostRegion (s : State) (k : Nat) : Option Nat :=
  let page := k / 256
  (List.range 8).find? (fun r =>
    s.on (NV.HREG_EN r) && decide (0x6C0 + s.f (NV.HREG_FIRST r) ≤ page) &&
      decide (page < 0x6C0 + s.f (NV.HREG_FIRST r) + s.f (NV.HREG_PAGES r)))

/-- Whether a protected region denies an operation to a port (R640): kind 0 read, 1 write. -/
def State.denied (s : State) (p : Port) (r kind : Nat) : Bool :=
  s.password r kind != 0 && !s.nv.unlocked.contains ((match p with | .a => 0 | .b => 100) + 2 * r + kind, 0)

/-- The 48 bytes of a ledger slot (R633). -/
def slotBytes (x : LedgerSlot) : List Byte :=
  let l := x.led
  let b := beBytes 8 l.start ++ beBytes 6 l.sync ++ beBytes 6 l.dresp ++ beBytes 6 l.ann ++ beBytes 4 l.trace ++
    beBytes 4 l.degr ++ beBytes 4 l.out ++ beBytes 2 l.berths ++ beBytes 4 l.seq ++
    beBytes 1 (b2n l.isOpen + 2 * b2n l.partial_ + 4 * b2n l.regress) ++ beBytes 1 x.seq
  b ++ beBytes 2 (crc16 b)

/-- The byte of the shadow at an NV offset. What SYSTEM and FLOOR hold is not laid out (log entry 52, DESIGN CHOICE): those bytes are
those of a free value `g`, by their place in the read. -/
def State.nvByte (s : State) (g k i : Nat) : Byte :=
  if k < 0x4000 then BitVec.ofNat 8 (g / 256 ^ i)
  else if k < 0xC000 then
    let n := (k - 0x4000) / 64
    match s.nv.head.find? (fun x => x.1 % 512 = n) with
    | some r => r.2.getD (k % 64) 0
    | none => 0
  else if k < 0x6C000 then
    let x := Tab.get (fun _ => noSlot) s.nv.ledgers ((k - 0xC000) / 48)
    if x = noSlot then 0 else (slotBytes x).getD ((k - 0xC000) % 48) 0
  else Tab.get memDefault s.nv.shadow k

/-- READ (R634, R640). -/
def State.nvRead (s : State) (p : Port) (n off : Nat) : State :=
  if n < 1 ∨ n > 256 ∨ off + n > 0x80000 then s.nvDone 1 .badArgument
  else if (List.range n).any (fun i =>
      match s.hostRegion (off + i) with | some r => s.denied p r 0 | none => false) then s.nvDone 1 .locked
  else
    let g := s.free 2048
    let bs := (List.range n).map (fun i => s.nvByte g (off + i) i)
    ((if off < 0x4000 then s.took else s).nvDone 1 .ok).mboxOut p (leWords bs)

/-- WRITE (R634, R640). -/
def State.nvWrite (s : State) (p : Port) (n off : Nat) : State :=
  let m := min n (256 - off % 256)
  match s.mboxIn p ((n + 3) / 4) with
  | none => s.nvDone 2 .badArgument
  | some ws =>
    if n < 1 ∨ n > 256 ∨ off + n > 0x80000 then s.nvDone 2 .badArgument
    else
      match s.hostRegion off with
      | none => s.nvDone 2 .locked
      | some r =>
        if s.denied p r 1 then s.nvDone 2 .locked
        else
          let page := off / 256
          let s := { s with nv := { s.nv with
            shadow := Tab.setList memDefault s.nv.shadow off ((wordsLe ws).take m)
            dirty := if s.nv.dirty.contains page then s.nv.dirty else s.nv.dirty ++ [page] } }
          let s := (s.mboxEmpty p).showDirty.setf NV.OP_STATUS_BYTES m
          (s.evIf (decide (m < n)) NV.EVENT_PAGE_CLIP).nvDone 2 .ok

/-- COMMIT (R636, R637). -/
def State.nvCommit (s : State) : State := (s.ckptNext.setf NV.OP_STATUS_BUSY 1).startCommit true

/-- The password check of UNLOCK and SET_PW (R640): region and kind of word 0, the password given, what a right one does. -/
def State.nvPassword (s : State) (p : Port) (opc : Nat) (g : State → Nat → Nat → List Word → State) : State :=
  match s.mboxIn p 5 with
  | none => s.nvDone opc .badArgument
  | some ws =>
    let w0 := (ws.headD 0).toNat
    let r := w0 % 8
    let kind := if bitAt w0 9 then 1 else 0
    let key := 2 * r + kind
    if bitAt w0 8 = bitAt w0 9 then s.nvDone opc .badArgument
    else if s.nv.locked.contains key then s.nvDone opc .locked
    else if ofWords ((ws.drop 1).take 2) ≠ s.password r kind then
      let n := Tab.get (fun _ => 0) s.nv.wrong key + 1
      let s := { s with nv := { s.nv with wrong := Tab.set (fun _ => 0) s.nv.wrong key n } }
      let s := s.inc NV.PW_FAIL_COUNT
      let s := if n < 8 then s
        else
          let s := { s with nv := { s.nv with locked := key :: s.nv.locked } }
          (s.ev NV.EVENT_PW_LOCKOUT).logDev 0x0601 (beBytes 1 r ++ beBytes 1 kind)
      s.nvDone opc .badArgument
    else
      let s := { s with nv := { s.nv with wrong := Tab.set (fun _ => 0) s.nv.wrong key 0 } }
      ((g s r kind ws).mboxEmpty p).nvDone opc .ok

/-- An NV operation (R634, R643). -/
def State.nvOp (s : State) (p : Port) (word : Nat) : State :=
  let opc := word % 256
  let n := bitsAt word 16 8
  let off := s.f NV.OP_ARG_ARG
  let s := s.setw NV.OP (n * 256 + opc)
  if s.nv.storing.isSome ∨ s.nv.stored then s.nvDone opc .busy
  else
    match opc with
    | 1 => s.nvRead p n off
    | 2 => s.nvWrite p n off
    | 3 => s.nvCommit
    | 4 => s.nvPassword p 4 (fun s r kind ws =>
        let y := { s.nv.sys with
          passwords := Tab.set (fun _ => 0) s.nv.sys.passwords (2 * r + kind) (ofWords ((ws.drop 3).take 2)) }
        ({ s with nv := { s.nv with
            sys := y, dirty := if s.nv.dirty.contains 0 then s.nv.dirty else 0 :: s.nv.dirty } }).showDirty.showPasswords)
    | 5 => s.nvPassword p 5 (fun s r kind _ =>
        let key := (match p with | .a => 0 | .b => 100) + 2 * r + kind
        { s with nv := { s.nv with
            unlocked := if s.nv.unlocked.contains (key, 0) then s.nv.unlocked else (key, 0) :: s.nv.unlocked } })
    | 6 =>
      let mine := fun (k : Nat) => match p with | .a => decide (k < 100) | .b => decide (100 ≤ k)
      ({ s with nv := { s.nv with unlocked := s.nv.unlocked.filter (fun x => !mine x.1) } }).nvDone 6 .ok
    | 7 =>
      let q := s.f NV.OP_ARG_HI_ARG * 2 ^ 32 + off
      match (s.nv.head ++ s.nv.archive).find? (fun x => x.1 = q) with
      | none => s.nvDone 7 .badArgument
      | some r =>
        let good := beAt r.2 60 4 == crc32c (r.2.take 60)
        (s.nvDone 7 (if good then .ok else .corrupt)).mboxOut p (beWords r.2)
    | _ => s.nvDone opc .badArgument

/-- The doorbell of NV. -/
def State.nvDoorbell (s : State) (p : Port) (word : Nat) : State :=
  s.doorbellB p NV.OP false NV.OP_STATUS_BUSY (fun s => s.nvOp p word)

/-- NV_READ (R634, R640). -/
def execNvRead (p : Port) (len : BitVec 9) (s : State) : Host.Outcome State Fault Refusal :=
  .next (s.nvDoorbell p (len.toNat * 256 + 1))

/-- NV_WRITE (R634, R640). -/
def execNvWrite (p : Port) (len : BitVec 9) (s : State) : Host.Outcome State Fault Refusal :=
  .next (s.nvDoorbell p (len.toNat * 256 + 2))

/-- NV_COMMIT (R635 to R637). -/
def execNvCommit (p : Port) (s : State) : Host.Outcome State Fault Refusal := .next (s.nvDoorbell p 3)

/-- NV_COMMIT_DONE (R636). -/
def execNvCommitDone (s : State) : Host.Outcome State Fault Refusal := .next s.finishCommit

/-- SET_PW (R639, R640). -/
def execSetPw (p : Port) (s : State) : Host.Outcome State Fault Refusal := .next (s.nvDoorbell p 4)

/-- UNLOCK (R640). -/
def execUnlock (p : Port) (s : State) : Host.Outcome State Fault Refusal := .next (s.nvDoorbell p 5)

/-- NV_LOCK (R640). -/
def execNvLock (p : Port) (s : State) : Host.Outcome State Fault Refusal := .next (s.nvDoorbell p 6)

/-- LOG_READ (R657). -/
def execLogRead (p : Port) (s : State) : Host.Outcome State Fault Refusal := .next (s.nvDoorbell p 7)

/-- LEDGER_CHECKPOINT_TIMER (R637): every LEDGER_S seconds of extended coarse time. -/
def execLedgerCheckpointTimer (s : State) : Host.Outcome State Fault Refusal :=
  if s.storesReady && decide (s.nv.lastLedger + s.f NV.CFG_LEDGER_S * 2000000000 ≤ s.now) then
    .next (({ s with nv := { s.nv with lastLedger := s.now } } : State).ckptNext.startCommit false)
  else .next s

/-- VHOLD_SAMPLE (R641). -/
def execVholdSample (mv : Nat) (s : State) : Host.Outcome State Fault Refusal :=
  let ok := decide (2900 ≤ mv)
  .next ((s.evIf (s.on NV.STATUS_HOLD_OK && !ok) NV.EVENT_HOLD_LOST).setb NV.STATUS_HOLD_OK ok)

/-! The logbook (R655 to R657). -/

/-- The range of records held shows (R657). -/
def State.showLog (s : State) : State :=
  let ks := (s.nv.head ++ s.nv.archive).map Prod.fst
  let lo := ks.foldl min (ks.headD 0)
  let hi := ks.foldl max 0
  (((s.setw NV.LOG_NEWEST hi).setw NV.LOG_NEWEST_HI (hi / 2 ^ 32)).setw NV.LOG_OLDEST lo).setw NV.LOG_OLDEST_HI (lo / 2 ^ 32)

/-- One record reaches the head (R655, R656); one that leaves it before it is archived is lost to the archive. -/
def State.headTake (s : State) (r : Nat × List Byte) : State :=
  let h := s.nv.head ++ [r]
  let full := decide (512 < h.length)
  let un := s.nv.unarchived + 1
  let lost := full && decide (512 < un)
  let s := { s with nv := { s.nv with
    head := if full then h.drop 1 else h, unarchived := min 512 un, staged := s.nv.staged.filter (fun x => x.1 != r.1) } }
  if lost then (s.inc FLM.CNT_LOG_LOST).ev NV.EVENT_LOG_LOST else s

/-- Every staged record reaches the head. -/
def State.stageAll (s : State) : State := (s.forL s.nv.staged State.headTake).showLog

/-- LOGBOOK_HEAD_WRITE (R655): the oldest staged record. -/
def execLogbookHeadWrite (s : State) : Host.Outcome State Fault Refusal :=
  match s.nv.staged with
  | [] => .next s
  | r :: _ => .next (s.headTake r).showLog

/-! The flash manager (R646 to R652). -/

/-- Bytes of a logical erase block (R646). -/
def State.blockBytes (s : State) : Nat := if s.flm.nand then 0x20000 else 0x10000

/-- Records of LOG_ARCHIVE, and of MAN_ARCHIVE, that a block holds (R649, R656). -/
def State.logPerBlock (s : State) : Nat := s.blockBytes / 64
/-- See `State.logPerBlock`. -/
def State.manPerBlock (s : State) : Nat := s.blockBytes / 256

/-- The directory shows in the registers (R647, R648, R652). -/
def State.showDirectory (s : State) : State :=
  let f := s.flm
  let s := (s.setw FLM.CAP f.cap).setf FLM.STATE_POOL f.pool
  let s := (s.setf FLM.BAD_TAKEN f.taken).setf FLM.BAD_COUNT f.bad
  let s := (s.setb FLM.STATE_LOG_OFF (f.formatted && f.logBlocks == 0)).setb FLM.STATE_MAN_OFF (f.formatted && f.manBlocks == 0)
  s.setw FLM.MAN_OLDEST (match s.man.archRecs with | r :: _ => beAt r.2.2 0x1C 4 | [] => 0)

/-- Blocks taken from slot A or slot B (R652). -/
def FlmCore.takenOf (f : FlmCore) (k : Nat) : Nat := if k = 0 then f.takenA else if k = 1 then f.takenB else 0

/-- A block is taken from slot A or slot B, which is BAD from then on (R652). -/
def State.takeFrom (s : State) (k : Nat) : State :=
  let f := s.flm
  let f := if k = 0 then { f with takenA := f.takenA + 1 } else { f with takenB := f.takenB + 1 }
  ({ s with flm := f } : State).setSlot k 3

/-- Take a block from an area or a slot (R652): the source taken from, 1 to 4, or none. -/
def State.takeBlock (s : State) : State × Nat :=
  let f := s.flm
  let cur := s.f FAB.SLOTS_CURRENT
  let prev := s.f FAB.SLOTS_PREVIOUS
  let pend := s.f FAB.SLOTS_PENDING
  if 0 < f.logBlocks then
    let keep := (f.logBlocks - 1) * s.logPerBlock
    let a := s.nv.archive
    ({ s with flm := { f with logBlocks := f.logBlocks - 1 }, nv := { s.nv with archive := a.drop (a.length - keep) } }.showLog, 1)
  else if 0 < f.manBlocks then
    let keep := (f.manBlocks - 1) * s.manPerBlock
    let a := s.man.archRecs
    ({ s with flm := { f with manBlocks := f.manBlocks - 1 }, man := { s.man with archRecs := a.drop (a.length - keep) } }, 2)
  else
    let has := fun (k : Nat) => decide (f.takenOf k * s.blockBytes < slipSize)
    match [0, 1].find? (fun k => k != cur && k != prev && k != pend && has k) with
    | some k => (s.takeFrom k, 3)
    | none =>
      if prev < 2 ∧ prev ≠ cur ∧ has prev then ((s.takeFrom prev).setf FAB.SLOTS_PREVIOUS 3 |>.commitBoot, 4)
      else (s, 0)

/-- A block goes bad (R650, R652): `a` its logical address, `lost` the logical addresses of its pages that could not be read. -/
def State.blockBad (s : State) (a : Nat) (lost : List Nat) : State :=
  let s := s.forL lost (fun s g =>
    ({ s with flm := { s.flm with lostPages := if s.flm.lostPages.contains g then s.flm.lostPages else g :: s.flm.lostPages } }.inc
      FLM.CNT_UNCORR).report 0x141 0x15 g)
  let s := s.ev FLM.EVENT_BAD_BLOCK
  let s := { s with flm := { s.flm with bad := s.flm.bad + 1 } }
  if 0 < s.flm.pool then
    let s := { s with flm := { s.flm with pool := s.flm.pool - 1 } }
    ((s.evIf (s.flm.pool == 0) FLM.EVENT_POOL_EMPTY).logDev 0x0600 (beBytes 4 a ++ [0])).showDirectory
  else
    match s.takeBlock with
    | (s, 0) =>
      (((s.setf FLM.STATE_EXHAUSTED 1).ev FLM.EVENT_EXHAUSTED).report 0x141 0x16 a).showDirectory
    | (s, n) =>
      let s := { s with flm := { s.flm with taken := s.flm.taken + 1 } }
      ((s.ev FLM.EVENT_SHRINK).logDev 0x0600 (beBytes 4 a ++ beBytes 1 n)).showDirectory

/-- The blocks that a flash operation finds bad. -/
def State.blocksBad (s : State) (l : List (Nat × List Nat)) : State := s.forL l (fun s x => s.blockBad x.1 x.2)

/-- The flash answers (R647, R648). -/
def State.flashReady (s : State) : Bool := s.storesReady && s.f FLM.STATE_LINK == 1

/-- LOG_ARCHIVE_WRITE (R656): the 32 oldest records of the head that are not archived. -/
def execLogArchiveWrite (bad : List (Nat × List Nat)) (s : State) : Host.Outcome State Fault Refusal :=
  if !s.flashReady ∨ s.nv.unarchived < 32 then .next s
  else
    let s := s.blocksBad bad
    let rs := (s.nv.head.drop (s.nv.head.length - s.nv.unarchived)).take 32
    let left := s.nv.unarchived - 32
    if s.flm.logBlocks = 0 then
      let s := { s with nv := { s.nv with unarchived := left } }
      .next ((s.incBy FLM.CNT_LOG_LOST 32).ev NV.EVENT_LOG_LOST)
    else
      let a := s.nv.archive ++ rs
      .next ({ s with nv := { s.nv with
        unarchived := left, archive := a.drop (a.length - min a.length (s.flm.logBlocks * s.logPerBlock)) } }).showLog

/-- A sealed record lies in flash, so that the ledger it was made of need not be signed again after a power loss (R521, R658). -/
def State.frozenArchived (s : State) (tenant seq : Nat) : State :=
  let left := fun (xs : List Frozen) => xs.filter (fun x => !(x.tenant == tenant && x.seq == seq))
  { s with nv := { s.nv with
    manFrozen := left s.nv.manFrozen
    commit := s.nv.commit.map (fun (c : NvCommit) =>
      { c with led := c.led.map (fun (l : LedgerCommit) => { l with frozen := left l.frozen }) }) } }

/-- MANIFEST_ARCHIVE_WRITE (R658): the oldest signed record reaches MAN_HEAD and MAN_ARCHIVE. -/
def execManifestArchiveWrite (bad : List (Nat × List Nat)) (s : State) : Host.Outcome State Fault Refusal :=
  if !s.flashReady then .next s
  else
    match s.man.toArchive with
    | [] => .next s
    | r :: rest =>
      let s := s.blocksBad bad
      let a := s.man.archRecs ++ [r]
      let keep := s.flm.manBlocks * s.manPerBlock
      let s := s.frozenArchived r.1 r.2.1
      .next ({ s with
        man := { s.man with
          toArchive := rest
          headRecs := s.man.headRecs.filter (fun (x : Nat × Nat × List Byte) => x.1 != r.1) ++ [r]
          archRecs := a.drop (a.length - min a.length keep) } }).showDirectory

/-- An FLM operation completes. -/
def State.flmDone (s : State) (opc : Nat) (c : Code) : State :=
  let s := (s.setf FLM.OP_STATUS_BUSY 0).setf FLM.OP_STATUS_LAST_OP opc
  let s := { s with flm := { s.flm with op := none } }
  (s.complete FLM.OP_STATUS_CODE c).ev FLM.EVENT_OP_DONE

/-- An FLM operation (R648, R651). -/
def State.flmOp (s : State) (p : Port) (word : Nat) : State :=
  let opc := word % 256
  let s := s.setw FLM.OP opc
  match opc with
  | 1 =>
    if s.f FLM.STATE_LINK ≠ 0 then s.flmDone 1 .locked
    else
      match s.mboxIn p 8 with
      | none => s.flmDone 1 .badArgument
      | some ws =>
        let s := { s with flm := { s.flm with op := some (1, p), descriptor := ws } }
        (s.setf FLM.STATE_LINK 2).setf FLM.OP_STATUS_BUSY 1
  | 2 => s.flmDone 2 .ok
  | _ => s.flmDone opc .badArgument

/-- The doorbell of FLM. -/
def State.flmDoorbell (s : State) (p : Port) (word : Nat) : State :=
  s.doorbellB p FLM.OP false FLM.OP_STATUS_BUSY (fun s => s.flmOp p word)

/-- FORMAT (R648). -/
def execFormat (p : Port) (s : State) : Host.Outcome State Fault Refusal := .next (s.flmDoorbell p 1)

/-- FORMAT_DONE (R648): the number of good blocks, and whether the directory reads back. -/
def execFormatDone (good : Nat) (readBack : Bool) (s : State) : Host.Outcome State Fault Refusal :=
  match s.flm.op with
  | some (1, p) =>
    let pool := ceilDiv (2 * good) 100
    let blk := s.blockBytes
    let cap := (good - pool) * blk / 0x100000
    let man := (cap * 0x100000 - 0x02300000) / blk
    let s := { s with flash := [] }
    if !readBack ∨ cap * 0x100000 < 0x02300000 + 0x800000 then
      .next ((s.setf FLM.STATE_LINK 0).flmDone 1 .badArgument)
    else
      let s := { s with
        flm := { s.flm with
          formatted := true, cap := cap, pool := pool, bad := 0, taken := 0, takenA := 0, takenB := 0, lostPages := []
          logBlocks := 0x800000 / blk, manBlocks := man }
        man := { s.man with headRecs := [], archRecs := [] }
        nv := { s.nv with archive := [] } }
      .next ((((s.setf FLM.STATE_LINK 1).showDirectory.showLog).mboxEmpty p).flmDone 1 .ok)
  | _ => .next s

/-- SCRUB_NOW (R651). -/
def execScrubNow (p : Port) (s : State) : Host.Outcome State Fault Refusal := .next (s.flmDoorbell p 2)

/-- FLASH_SCRUB_PASS (R650 to R652): what the pass has found. -/
def execFlashScrubPass (o : ScrubOutcome) (s : State) : Host.Outcome State Fault Refusal :=
  if !s.flashReady then .next s
  else .next (((s.evIf (!o.refreshed.isEmpty) FLM.EVENT_REFRESH).blocksBad o.bad).ev FLM.EVENT_SCRUB_DONE)

/-! Power failure (R642 to R644). -/

/-- Step 2 of the power-fail store (R642): ledgers freeze with the counts of the second in progress. -/
def State.storeBegin (s : State) : State :=
  let s := if s.man.counts && s.billing (s.f MAN.CFG_TSC) then
      { s with man := { s.man with
        counts := false
        ledgers := Tab.remap (fun _ => {}) (fun t l => if l.isOpen then s.countSecond t l else l) s.man.ledgers } }
    else { s with man := { s.man with counts := false } }
  let s := { s with nv := { s.nv with storing := some s.now } }
  (s.raise 2).xlkNotice 2

/-- Step 4 (R642): staged records and a power-fail record, ledgers, dirty pages, a FLOOR slot; a commit in progress ends. -/
def State.storeAll (s : State) : State :=
  let since := s.nv.storing.getD s.now
  let s := (s.logDev 0x0105 (beBytes 6 (since / 2000000))).stageAll
  let s := s.finishCommit.finishCommit
  let s := s.takeLedgers (some ⟨s.checkpointSlots, s.man.frozen⟩)
  let s := { s with nv := { s.nv with array := s.withDirty, sysArray := s.nv.sys, dirty := [] } }
  s.showDirty.writeFloor

/-- The island returns to the main rails (R643, R700). -/
def State.storeReturn (s : State) : State :=
  let us := (s.now - s.nv.storing.getD s.now) / 2000
  let s := { s with nv := { s.nv with storing := none, stored := false } }
  let s := (s.setf NV.STATUS_STORED 0).ev NV.EVENT_PFAIL_RECOVERED
  (s.logDev 0x0106 (beBytes 4 us)).raise 2

/-- PFAIL_ASSERT (R391, R550, R641, R642, R644, R698): event 0x0E2 is raised also where no store is armed. -/
def execPfailAssert (s : State) : Host.Outcome State Fault Refusal :=
  if s.top.phase = .held ∨ s.top.phase = .straps ∨ s.top.phase = .refsyn ∨ s.top.phase = .init then .next s
  else if s.nv.pfail then .next s
  else
    let s := ({ s with nv := { s.nv with pfail := true } } : State).route 0x0E2
    .next (if s.on NV.STATUS_HOLD_OK ∧ s.nv.storing = none then s.storeBegin else s.xlkNotice 2)

/-- PFAIL_STORE_DONE (R642, R643). -/
def execPfailStoreDone (s : State) : Host.Outcome State Fault Refusal :=
  if s.nv.storing = none ∨ s.nv.stored then .next s
  else
    let s := s.storeAll
    let s := { s with nv := { s.nv with stored := true } }
    let s := (s.setf NV.STATUS_STORED 1).ev NV.EVENT_PFAIL_STORE
    .next (if s.nv.pfail then s else s.storeReturn)

/-- PFAIL_DEASSERT (R643, R699). -/
def execPfailDeassert (s : State) : Host.Outcome State Fault Refusal :=
  if !s.nv.pfail then .next s
  else
    let s := { s with nv := { s.nv with pfail := false } }
    .next (if s.nv.stored then s.storeReturn else s)

end Sys2Proof.Machine
end

