-- ==== Sys2Proof/Machine/Power.lean ====
section
/-! DEFINITION. Cold reset and start-up (R685 to R702), the adaptive voltage loop (R59 to R74), the full resets of the pin and of the host,
device-level faults (R675), and the commands and timers of the fault collector (R669 to R678). -/

namespace Sys2Proof.Machine

/-! Cold reset. -/

/-- Registers outside the kept domain whose content is fused, and so outlives a cold reset (R692). -/
def fusedKey (k : Nat) : Bool :=
  k == TOP.ID || k == SEC.STATE || (decide (SEC.DEVID 0 ≤ k) && decide (k ≤ SEC.DEVID 3)) ||
    (decide (MEM.REPAIR 0 ≤ k) && decide (k ≤ MEM.REPAIR 15))

/-- The registers that a cold reset leaves as they are (R5, R6, R692). -/
def coldKeeps (k : Nat) : Bool :=
  fusedKey k ||
    (match regAt k with
     | some r => r.dom == .kept
     | none => false)

/-- A cold reset (R692): only non-volatile storage, flash, fuses and enclave state are left. A history copy does not outlive it (R311,
R326). -/
def State.coldReset (s : State) (cause : Nat) (ph : Phase) : State :=
  let t : State :=
    { pending := s.pending
      freeCount := s.freeCount
      regs := s.regs.filter (fun x => coldKeeps x.1)
      flash := s.flash
      nv := {
        array := s.nv.array, sys := s.nv.sysArray, sysArray := s.nv.sysArray, floor := s.nv.floor, ledgers := s.nv.ledgers
        manFrozen := s.nv.manFrozen, commit := s.nv.commit, head := s.nv.head, archive := s.nv.archive
        boots := s.nv.boots + 1, unarchived := s.nv.unarchived, pfail := s.nv.pfail }
      flm := { s.flm with op := none }
      sec := { s.sec with op := none, report := none, taKey := none, verify := [] }
      man := { headRecs := s.man.headRecs, archRecs := s.man.archRecs, powerLoss := true }
      top := { phase := ph, powerLost := s.top.powerLost, storedLoss := s.top.storedLoss, fullHeld := s.top.fullHeld } }
  let t := t.forN 36 (fun t e => if t.on (ENG.ENGINE_COPYING e) then t.setEntry e (ENG.ENGINE_COPYING e) 0 else t)
  ((t.setf TOP.RST_STAT_COLD_CAUSE cause).setf SEC.STATE_TA_PRESENT 0)

/-- A store that is in progress ends, and one begins first where it is due, before a cold reset (R642, R687, R690). -/
def State.storeBefore (s : State) (due : Bool) : State :=
  if s.nv.stored then s
  else if s.nv.storing.isSome then s.storeAll
  else if due then s.storeBegin.storeAll
  else s

/-- NV recovery has completed since power-on (R690, R698). -/
def State.recovered (s : State) : Bool := s.top.phase == .nv || s.top.phase == .flm || s.top.phase == .running

/-- POWER_ON (R644, R685, R689): the rails have failed and rise again; a store that had begun has run to its end on `VHOLD`. -/
def execPowerOn (s : State) : Host.Outcome State Fault Refusal :=
  let kept := s.nv.stored || s.nv.storing.isSome
  let s := s.storeBefore false
  let s := { s with top := { s.top with powerLost := true, storedLoss := kept } }
  .next (s.coldReset 0 .held)

/-- RESET_N_FALL (R690, R702). -/
def execResetNFall (s : State) : Host.Outcome State Fault Refusal :=
  if s.top.phase = .held then .next s
  else .next ((s.storeBefore s.recovered).coldReset 1 .held)

/-- BROWN_OUT (R687, R689, R702): with the store armed, it runs first. While a cold reset holds the device it starts nothing further; what the
head holds then is all that is kept. -/
def execBrownOut (_rail : WatchedRail) (s : State) : Host.Outcome State Fault Refusal :=
  if s.top.phase = .held then
    .next { s with top := { s.top with powerLost := true, storedLoss := s.top.powerLost && s.top.storedLoss } }
  else
  let due := s.recovered && s.on NV.STATUS_HOLD_OK
  let kept := s.nv.stored || s.nv.storing.isSome || due
  let s := s.storeBefore due
  let s := { s with top := { s.top with powerLost := true, storedLoss := kept } }
  .next (s.coldReset 2 .held)

/-! Start-up. -/

/-- `XOIN` in kHz by strap code (R688). -/
def xoKhz (c : Nat) : Nat := [25000, 38880, 50000, 100000, 122880, 125000, 153600, 156250].getD c 0

/-- RESET_N_RISE (R688, R693 step 1). -/
def execResetNRise (straps : Straps) (s : State) : Host.Outcome State Fault Refusal :=
  if s.top.phase ≠ .held ∨ s.sec.tapHold then .next s
  else
    let c := straps.xofreq.toNat
    let s := s.setw TOP.STRAP (xoKhz c * 2 ^ 8 + c)
    let s := s.setb FLM.STATE_NAND straps.nand
    .next { s with top := { s.top with phase := .straps }, flm := { s.flm with nand := straps.nand } }

/-- REFSYN_LOCKED (R71, R693 steps 2 and 3): at start-up code 26 follows; later it ends an unlock. -/
def execRefsynLocked (s : State) : Host.Outcome State Fault Refusal :=
  if s.on FLT.DEVICE_XOIN then .next s
  else
    let s := s.setf FLT.DEVICE_REFSYN 0
    if s.top.phase = .straps then
      .next (({ s with top := { s.top with phase := .refsyn }, pwr := { code := 26, stepping := some 26 } } : State).setf PWR.AVS_STATUS_CODE 26)
    else .next s

/-- The lifecycle state changes (R554, R576, R654). -/
def State.setLifecycle (s : State) (v : Nat) : State :=
  let old := s.lifecycle
  let s := s.setf SEC.STATE_LIFECYCLE v
  ((s.ev SEC.EVENT_LIFECYCLE).logDev 0x0501 (beBytes 1 old ++ beBytes 1 v))

/-- The enclave records a fuse pattern before it blows the first fuse of it (R555). -/
def State.fuseBegin (s : State) (j : FuseJob) : State :=
  { s with sec := { s.sec with fuse := s.sec.fuse.filter (fun x => x != j) ++ [j] } }

/-- A recorded fuse pattern is done with. -/
def State.fuseDrop (s : State) (j : FuseJob) : State :=
  { s with sec := { s.sec with fuse := s.sec.fuse.filter (fun x => x != j) } }

/-- A fuse fails to program (R555): its pattern is given up. -/
def State.fuseError (s : State) (j : FuseJob) : State := (s.fuseDrop j).secEvent SEC.EVENT_FUSE_ERROR 0 0

/-- Slots below the fuse count are BAD (R148). -/
def State.markOldSlots (s : State) (t : Nat) : State :=
  s.forL [0, 1, 2] (fun s k => if s.f (slotField k) ≠ 0 ∧ s.f (slotSv k) < t then s.setSlot k 3 else s)

/-- The last fuse of a recorded pattern is blown (R148, R555, R557, R559). -/
def State.fuseDone (s : State) (j : FuseJob) : State :=
  let t := s.fuseDrop j
  match j with
  | .own h =>
    (({ t with sec := { t.sec with ownerHash := h } }.setf SEC.STATE_OWNER_FUSED 1).setLifecycle lcOwned)
  | .retire => (t.setf SEC.STATE_SECRET_OFF 1).setLifecycle lcRetired
  | .count n =>
    let old := t.f FAB.SECVER_FUSES
    let n := max old n
    ((t.setf FAB.SECVER_FUSES n).markOldSlots n).logDev 0x0104 (beBytes 1 old ++ beBytes 1 n)

/-- STARTUP_INIT_DONE (R301, R304, R555, R630, R693 step 4): the engines whose self-test failed, and whether the fuses of every outstanding
pattern programmed. -/
def execStartupInitDone (failed : List (Fin 36)) (fuseOk : Bool) (s : State) : Host.Outcome State Fault Refusal :=
  if s.top.phase ≠ .refsyn then .next s
  else
    let s := s.forL s.sec.fuse (fun s j => if fuseOk then s.fuseDone j else s.fuseError j)
    let s := { s with mem := [], ecc := [], top := { s.top with phase := .init } }
    let s := s.forN 36 (fun s e => if failed.any (fun x => x.val == e) then (s.patternHistory e).testEnds e false else s.toPontoon e)
    .next s

/-- The ledgers, sealing state and records that NV holds come into force (R645, R512, R517, R521). -/
def State.restoreMan (s : State) : State :=
  let y := s.nv.sysArray
  let ts := (s.nv.ledgers.map (fun x => x.1 / 2)).dedup
  let led := ts.foldl (fun (t : Tab Ledger) k =>
    let x := Tab.get (fun _ => noSlot) s.nv.ledgers (2 * k + newestSlot s.nv.ledgers k)
    let prev := match s.man.headRecs.find? (fun (r : Nat × Nat × List Byte) => r.1 == k) with
      | some r => Config.sha384 r.2.2
      | none => x.led.prev
    Tab.set (fun _ => {}) t k { x.led with prev := prev }) []
  let s := { s with man := { s.man with
    ledgers := led, frozen := s.nv.manFrozen, sealedK := y.sealedK, everSealed := y.everSealed, lastStepNs := y.lastStepNs
    resume := !s.nv.manFrozen.isEmpty } }
  let s := (s.setw MAN.SEALED_LO y.sealed_).setw MAN.SEALED_HI (y.sealed_ / 2 ^ 32)
  let s := (s.setf MAN.REGR_COUNT y.regr).setf MAN.REGR_LAST_S y.regrS
  (s.setb MAN.STATUS_SIGNING (!s.man.frozen.isEmpty)).setf MAN.STATUS_TENANTS (led.filter (fun x => x.2.isOpen)).length

/-- The boot record of the array comes into force (R135, R645); a slot whose write was interrupted is EMPTY (R136), and stays so until a
write of it succeeds. -/
def State.restoreBoot (s : State) : State :=
  let y := s.nv.sysArray
  let s := ((s.setf FAB.SLOTS_CURRENT y.cur).setf FAB.SLOTS_PREVIOUS y.prev).setf FAB.SLOTS_PENDING y.pend
  s.forL [0, 1, 2] (fun s k =>
    s.setf (slotField k) (if s.flm.writing.contains k then 0 else Tab.get (fun _ => 0) y.slots k))

/-- What becomes of a commit that was interrupted (R645): completed where its mark had been written, else rolled back. Which of the two
depends on how far the commit had come, which is open (log entry 3, DESIGN CHOICE). The result is 0 clean, 1 completed, 2 rolled back. -/
def State.recoverCommit (s : State) : State × Nat :=
  match s.nv.commit with
  | none => (s, 0)
  | some c =>
    let s := { s with nv := { s.nv with commit := none } }
    if s.free 1 = 1 then (({ s with nv := { s.nv with array := c.arr, sys := c.sys, sysArray := c.sys } }.commitLedgers c).took, 1)
    else (s.took, 2)

/-- The sequence number of the newest record of the head, 0 when it is empty (R653). -/
def State.lastRecord (s : State) : Nat := (s.nv.head.map Prod.fst).foldl max 0

/-- The shadow takes what the array holds, and start-up is past recovery (R645, R693 step 5). -/
def State.takeArray (s : State) : State :=
  { s with
    nv := { s.nv with
      shadow := s.nv.array, sys := s.nv.sysArray, seq := if s.nv.head.isEmpty then 0 else s.lastRecord + 1 }
    top := { s.top with phase := .nv } }

/-- NV_RECOVERY_DONE (R370, R383, R644, R645, R693 step 5). -/
def execNvRecoveryDone (s : State) : Host.Outcome State Fault Refusal :=
  if s.top.phase ≠ .init then .next s
  else
    let (s, r) := s.recoverCommit
    let last := s.lastRecord
    let s := s.takeArray
    let s := ((s.setf NV.STATUS_RECOVERY r).restoreBoot.restoreMan.showPasswords).showLog
    let s := s.forN 8 (fun s k =>
      let f := Tab.get (fun _ => 0) s.nv.floor.secs k
      (s.modTsc k (fun c => { c with floor := f })).setw (TSC.FLOOR k) f)
    let s := s.logDev 0x0100 (beBytes 1 r ++ beBytes 1 (b2n s.top.storedLoss))
    let lost := s.top.powerLost && !s.top.storedLoss
    let s := if lost then (s.ev NV.EVENT_UNPROTECTED).logDev 0x0107 (beBytes 8 last) else s
    .next { s with top := { s.top with powerLost := false } }

/-- FAB starts the load of CURRENT (R146, R693 step 7), unless `FULLRST_N` holds it back (R691). -/
def State.firstLoad (s : State) : State :=
  let s := { s with top := { s.top with phase := .running } }
  if s.top.fullHeld then s else s.startLoad

/-- FLM_LINK_READY (R647, R648, R693 steps 6 and 7, R696): a PENDING slot is set to none; the load waits for the first regulated
window (R71). -/
def execFlmLinkReady (s : State) : Host.Outcome State Fault Refusal :=
  if s.top.phase ≠ .nv then .next s
  else
    let s := { s with top := { s.top with phase := .flm } }
    let s := (s.setf FLM.STATE_LINK (b2n s.flm.formatted)).showDirectory
    let p := s.f FAB.SLOTS_PENDING
    let s := if p = 3 then s else ((s.setf FAB.SLOTS_PENDING 3).commitBoot).logDev 0x0103 (beBytes 1 p ++ [0])
    .next (if s.pwr.regulated then s.firstLoad else s)

/-! Full resets. -/

/-- FULLRST_N_FALL (R689, R691). -/
def execFullrstNFall (s : State) : Host.Outcome State Fault Refusal :=
  if !s.answers ∨ s.top.fullHeld then .next s
  else .next (({ s with top := { s.top with fullHeld := true } } : State).fullReset 0)

/-- FULLRST_N_RISE (R691). -/
def execFullrstNRise (s : State) : Host.Outcome State Fault Refusal :=
  if !s.top.fullHeld then .next s
  else
    let s := { s with top := { s.top with fullHeld := false } }
    .next (if s.top.phase = .running ∧ s.fab.load = none ∧ !s.landed ∧ s.f FAB.STATE_LOAD ≠ 3 then s.releaseLoad else s)

/-- TOP.CMD (R697). -/
def State.topCmd (s : State) (p : Port) (key : Nat) : State :=
  if key = 0xA501 then s.fullReset 1 else s.busErr p true false TOP.CMD .badArgument

/-- TOP_CMD_FULL_RESET (R689, R697). -/
def execTopCmdFullReset (p : Port) (key : Word) (s : State) : Host.Outcome State Fault Refusal :=
  .next (s.doorbell p TOP.CMD false (fun s => s.topCmd p key.toNat))

/-! The adaptive voltage loop. -/

/-- Target trim in laps (R74). -/
def State.trim (s : State) : Int := toSigned 8 (s.f PWR.AVS_CTRL_TRIM)

/-- The loop commands a voltage code (R61, R62). Every commanded code, an urgent step and a manual drive among them, opens the four
windows that the next ordinary step waits for, on which R63 is silent (log entry 75, DESIGN CHOICE). -/
def State.command (s : State) (c : Nat) : State :=
  let s := { s with pwr := { s.pwr with code := c, stepping := some c, sinceStep := 0 } }
  let s := ((s.setf PWR.AVS_STATUS_CODE c).setb PWR.AVS_STATUS_AT_CEIL (c == 44)).setb PWR.AVS_STATUS_AT_FLOOR (c == 0)
  s.evIf (c == 44) PWR.AVS_EVENT_CEIL_SEEN

/-- R67: a lag window. -/
def State.lagWindow (s : State) (lag reg : Bool) : State :=
  let s := (s.setb PWR.AVS_STATUS_REG reg).setb PWR.AVS_STATUS_LAG lag
  let s := if lag then
      let s := (s.inc PWR.AVS_COUNT_LAG_WINDOWS).ev PWR.AVS_EVENT_LAG_SEEN
      let s := if s.pwr.regulated && !s.pwr.lagged then s.raise 8 else s
      { s with pwr := { s.pwr with lagged := true } }
    else s
  if reg then { s with pwr := { s.pwr with lagged := false, regulated := true } } else s

/-- R68, R69, R70, R73, R677: the deficit detector judges a window; `slow` says that the window itself was slow at the ceiling, `inj`
that an injection has the detector judge it so. A deficit is real once four windows running were themselves slow: where that happens
while an injected deficit is in force, the loop keeps the code at 44 from there on, and nothing is raised a second time (log entry 75,
DESIGN CHOICE). -/
def State.deficit (s : State) (slow reg inj : Bool) : State :=
  let run := if slow || inj then s.pwr.deficitRun + 1 else 0
  let real := if slow then s.pwr.realRun + 1 else 0
  let good := if reg && !inj then s.pwr.exitRun + 1 else 0
  let s := { s with pwr := { s.pwr with deficitRun := run, realRun := real, exitRun := good } }
  let code := s.pwr.code
  if !s.on PWR.AVS_STATUS_DEFICIT then
    if run ≥ 4 then
      let s := { s with pwr := { s.pwr with fakeDeficit := decide (real < 4) } }
      let s := (s.setf PWR.AVS_STATUS_DEFICIT 1).ev PWR.AVS_EVENT_DEFICIT_SEEN
      let s := (((s.inc PWR.AVS_COUNT_DEFICIT_ENTRIES).raise 9).route 0x0E1).logDev 0x0108 (beBytes 1 0 ++ beBytes 1 code)
      s.reportInj 4 0x07 code inj
    else s
  else if good ≥ 16 then
    let s := { s with pwr := { s.pwr with fakeDeficit := false } }
    ((s.setf PWR.AVS_STATUS_DEFICIT 0).raise 10).logDev 0x0108 (beBytes 1 1 ++ beBytes 1 code)
  else if real ≥ 4 then { s with pwr := { s.pwr with fakeDeficit := false } }
  else s

/-- R62 to R64, R66, R69, R73: the step that a window calls for. In a real deficit the code is kept at 44, to which it goes back when a
manual drive has left it elsewhere. -/
def State.voltageStep (s : State) (laps : Int) : State :=
  let t := s.trim
  let c := s.pwr.code
  let s := { s with pwr := { s.pwr with sinceStep := s.pwr.sinceStep + 1 } }
  if s.on PWR.AVS_STATUS_BUSERR then s
  else if s.on PWR.AVS_CTRL_MANUAL then
    if s.f PWR.AVS_CTRL_VMAN = c then s else s.command (s.f PWR.AVS_CTRL_VMAN)
  else if s.on PWR.AVS_STATUS_DEFICIT && !s.pwr.fakeDeficit then (if c = 44 then s else s.command 44)
  else if laps ≤ 497 + t then (if c < 44 then s.command (c + 1) else s)
  else if s.pwr.sinceStep < 4 then s
  else if laps ≥ 518 + t then (if 0 < c then s.command (c - 1) else s)
  else if laps ≤ 506 + t then (if c < 44 then s.command (c + 1) else s)
  else s

/-- CANARY_WINDOW_END (R59 to R64, R67 to R71). The window is judged for a deficit before the loop steps, so the window that ends a
deficit may already step (R70 leaves this open; log entry 75, DESIGN CHOICE). -/
def execCanaryWindowEnd (laps : BitVec 16) (s : State) : Host.Outcome State Fault Refusal :=
  if s.top.phase = .held ∨ s.top.phase = .straps then .next s
  else
    let n := laps.toNat
    let t := s.trim
    let s := s.setf PWR.CANARY_LAPS n
    let s := s.setf PWR.CANARY_MIN_LAPS (min n (s.f PWR.CANARY_MIN_LAPS))
    let slow := decide ((n : Int) ≤ 497 + t)
    let reg := !slow
    let c := s.pwr.code
    let s := s.lagWindow (slow && decide (c < 44)) reg
    let inj := decide (0 < s.flt.injWindows)
    let s := if inj then
        let s := { s with flt := { s.flt with injWindows := s.flt.injWindows - 1 } }
        if s.flt.injWindows = 0 then s.injDone else s
      else s
    let s := s.deficit (slow && (c == 44 || s.on PWR.AVS_CTRL_MANUAL)) reg inj
    let s := s.voltageStep n
    .next (if s.top.phase = .flm ∧ s.pwr.regulated then s.firstLoad else s)

/-- AVS_STEP_DONE (R65, R66, R677): the voltage read back in mV, and whether the transactions succeeded. -/
def execAvsStepDone (mv : Nat) (ok : Bool) (s : State) : Host.Outcome State Fault Refusal :=
  match s.pwr.stepping with
  | none => .next s
  | some c =>
    let inj := s.flt.injAvs
    let s := if inj then ({ s with flt := { s.flt with injAvs := false } } : State).injDone else s
    let want := 620 + 5 * c
    let off := decide (mv + 10 < want ∨ want + 10 < mv)
    let run := if off then s.pwr.badReads + 1 else 0
    let fail := !ok || inj
    let s := { s with pwr := { s.pwr with stepping := none, badReads := run } }
    if (fail || decide (3 ≤ run)) && !s.on PWR.AVS_STATUS_BUSERR then
      let s := { s with pwr := { s.pwr with badReads := 0 } }
      let s := ((s.setf PWR.AVS_STATUS_BUSERR 1).ev PWR.AVS_EVENT_BUSERR_SEEN).raise 11
      .next (s.reportInj 4 0x06 (c + 256 * b2n (decide (3 ≤ run)) + 512 * b2n fail) inj)
    else .next s

/-! Device-level faults (R675). -/

/-- SUPPLY_RAIL_FAULT (R675, R679). -/
def execSupplyRailFault (rail : Fin 14) (s : State) : Host.Outcome State Fault Refusal :=
  if s.top.phase = .held ∨ s.flt.rails.contains rail.val then .next s
  else
    let s := { s with flt := { s.flt with rails := rail.val :: s.flt.rails } }
    let s := (s.setf FLT.DEVICE_RAIL_FAULT 1).setf FLT.DEVICE_RAIL rail.val
    .next ((s.raise 16).report 0 0x01 rail.val)

/-- SUPPLY_RAIL_RETURN (R675). -/
def execSupplyRailReturn (rail : Fin 14) (s : State) : Host.Outcome State Fault Refusal :=
  let left := s.flt.rails.filter (fun r => r != rail.val)
  .next (({ s with flt := { s.flt with rails := left } } : State).setb FLT.DEVICE_RAIL_FAULT (!left.isEmpty))

/-- A device-level condition begins: its live bit, its source and its fault, once per onset (R675). -/
def State.onset (s : State) (x : Fld) (irq src kind addr : Nat) : State :=
  if s.top.phase = .held ∨ s.on x then s else ((s.setf x 1).raise irq).report src kind addr

/-- XOIN_LOST (R675). -/
def execXoinLost (s : State) : Host.Outcome State Fault Refusal := .next (s.onset FLT.DEVICE_XOIN 17 1 0x02 0)

/-- XOIN_RETURN (R675). -/
def execXoinReturn (s : State) : Host.Outcome State Fault Refusal := .next (s.setf FLT.DEVICE_XOIN 0)

/-- REFSYN_UNLOCK (R675): the count difference of the last window. -/
def execRefsynUnlock (dev : Int) (s : State) : Host.Outcome State Fault Refusal :=
  .next (s.onset FLT.DEVICE_REFSYN 19 3 0x04 (ofSigned 32 dev))

/-- OVER_TEMPERATURE (R1, R2, R675): the die temperature in 1/128 °C, above the maximum of the grade. -/
def execOverTemperature (t : Int) (s : State) : Host.Outcome State Fault Refusal :=
  if t > (if s.f TOP.ID_GRADE = 2 then 125 else 110) * 128 then .next (s.onset FLT.DEVICE_TEMP 20 5 0x05 (ofSigned 32 t))
  else .next s

/-- OVER_TEMPERATURE_CLEAR (R675). -/
def execOverTemperatureClear (s : State) : Host.Outcome State Fault Refusal := .next (s.setf FLT.DEVICE_TEMP 0)

/-! The fault collector's commands and timers. -/

/-- FAULT_MESSAGE (R661, R663, R666): a message of a kind that is never sent, or from source 0x3FF, is none; kind 0x17 is the collector's own
(R676). -/
def execFaultMessage (m : FaultMsg) (s : State) : Host.Outcome State Fault Refusal :=
  let k := m.kind.toNat
  if s.top.phase = .held ∨ k = 0 ∨ 0x17 < k ∨ m.source = 0x3FF then .next s
  else if k = 0x17 then .next (s.report 0x3C0 0x17 0)
  else .next (s.report m.source.toNat k m.addr.toNat)

/-- A command of FLT completes. -/
def State.fltDone (s : State) (c : Code) : State := s.complete FLT.CODE_CODE c

/-- POP (R669). -/
def State.fltPop (s : State) (p : Port) : State :=
  match s.flt.queue with
  | [] => (s.fltDone .ok).mboxOut p [0x80000000, 0, 0, 0]
  | e :: rest =>
    let w0 := b2n e.inj * 2 ^ 30 + b2n e.lost * 2 ^ 29 + e.source * 2 ^ 16 + e.kind * 2 ^ 8 + e.repeats
    let s := ({ s with flt := { s.flt with queue := rest } } : State).setf FLT.STATUS_QLEVEL rest.length
    (s.fltDone .ok).mboxOut p
      [BitVec.ofNat 32 w0, e.addr, BitVec.ofNat 32 e.time, BitVec.ofNat 32 (e.time / 2 ^ 32 % 2 ^ 16)]

/-- ERR_RELEASE (R673). -/
def State.errRelease (s : State) : State :=
  let s := { s with flt := { s.flt with errReleased := true } }
  let s := if s.flt.errDone then (s.setf FLT.STATUS_ERR_PIN 0).setf FLT.STATUS_ERR_HELD 0 else s
  s.fltDone .ok

/-- TRAP_CLEAR (R671). -/
def State.trapClear (s : State) : State :=
  ((((s.setw FLT.TRAP0 0).setw FLT.TRAP1 0).setw FLT.TRAP2 0).setf FLT.STATUS_TRAPPED 0).fltDone .ok

/-- INJ_ARM (R677). -/
def State.injArm (s : State) : State :=
  let a := s.f FLT.INJ_ADDR_OFFSET
  let b := s.f FLT.INJ_BITS
  let e := s.f FLT.INJ_INST
  let arm := fun (f : FltCore) => (({ s with flt := f } : State).setf FLT.STATUS_INJ_PEND 1).fltDone .ok
  if s.on FLT.STATUS_INJ_PEND then s.fltDone .busy
  else
    match s.f FLT.INJ_TARGET with
    | 1 => if a % 8 = 0 ∧ s.spClass (a / spSize) ≠ 0 ∧ (b = 1 ∨ b = 2) then arm { s.flt with injWord := some (a, b) }
        else s.fltDone .badArgument
    | 2 => if e < 36 ∧ s.engState e = 1 then arm { s.flt with injEngine := some e } else s.fltDone .badArgument
    | 3 => arm { s.flt with injWindows := 4 }
    | 4 => arm { s.flt with injAvs := true }
    | 5 =>
      let k := s.f FLT.INJ_MSG_KIND
      if k = 0 ∨ 0x16 < k then s.fltDone .badArgument
      else (s.fltDone .ok).injDone.reportInj (s.f FLT.INJ_MSG_SOURCE) k (s.w FLT.INJ_MSG_ADDR) true
    | 6 => arm { s.flt with injCheck := true }
    | _ => s.fltDone .badArgument

/-- INJ_CANCEL (R677). -/
def State.injCancel (s : State) : State :=
  let s := { s with flt := { s.flt with
    injWord := none, injWindows := 0, injEngine := none, injAvs := false, injCheck := false } }
  (s.setf FLT.STATUS_INJ_PEND 0).fltDone .ok

/-- FLT_POP (R669). -/
def execFltPop (p : Port) (s : State) : Host.Outcome State Fault Refusal :=
  .next (s.doorbell p FLT.CMD false (fun s => s.fltPop p))

/-- ERR_RELEASE (R673). -/
def execErrRelease (p : Port) (s : State) : Host.Outcome State Fault Refusal := .next (s.doorbell p FLT.CMD false State.errRelease)

/-- TRAP_CLEAR (R671). -/
def execTrapClear (p : Port) (s : State) : Host.Outcome State Fault Refusal := .next (s.doorbell p FLT.CMD false State.trapClear)

/-- INJ_ARM (R23, R677). -/
def execInjArm (p : Port) (s : State) : Host.Outcome State Fault Refusal := .next (s.doorbell p FLT.CMD true State.injArm)

/-- INJ_CANCEL (R23, R677). -/
def execInjCancel (p : Port) (s : State) : Host.Outcome State Fault Refusal := .next (s.doorbell p FLT.CMD true State.injCancel)

/-- ERR_WIDTH_EXPIRY (R673). -/
def execErrWidthExpiry (s : State) : Host.Outcome State Fault Refusal :=
  if !s.on FLT.STATUS_ERR_PIN ∨ s.flt.errDone ∨ s.now < s.flt.errEnd then .next s
  else
    let s := { s with flt := { s.flt with errDone := true } }
    .next (if s.flt.errReleased then s.setf FLT.STATUS_ERR_PIN 0 else s.setf FLT.STATUS_ERR_HELD 1)

/-- QUIET_PERIOD_EXPIRY (R674): a class that has been quiet for QUIET.MS leaves fault, and its withheld marks clear. -/
def execQuietPeriodExpiry (c : Fin 16) (s : State) : Host.Outcome State Fault Refusal :=
  let x : Fld := ⟨FLT.STATUS, c, c⟩
  if !s.on x ∨ s.now < Tab.get (fun _ => 0) s.flt.lastMsg c + s.f FLT.QUIET_MS * 2000000 then .next s
  else
    let s := ((s.setf x 0).inc FLT.RECOVER_QUIET_EXITS).ev FLT.EVENT_QUIET
    let keep := fun (k : Nat) => !((c.val == 6 && decide (k < 64)) || (c.val == 0xC && decide (64 ≤ k)))
    let s := { s with flt := { s.flt with bursts := Tab.keep keep s.flt.bursts } }
    .next (if c.val = 6 then s.setw FLT.WITHHELD_LND 0 else if c.val = 0xC then s.setw FLT.WITHHELD_PRT 0 else s)

end Sys2Proof.Machine
end

