-- ==== Sys2Proof/Machine/Sec.lean ====
section
/-! DEFINITION. The operations of the enclave (16_security.md): certificate, attestation, labels, PTP keys, ownership and retirement, and test
access. -/

namespace Sys2Proof.Machine

/-- A completion code other than OK that the spec leaves open (log entry 3, DESIGN CHOICE). -/
def State.openCode (s : State) : Nat := 1 + s.free 8 % 14

/-- An SEC operation completes (R576). -/
def State.secDone (s : State) (opc : Nat) (c : Code) : State :=
  let s := (s.setf SEC.OP_STATUS_BUSY 0).setf SEC.OP_STATUS_LAST_OP opc
  let s := { s with sec := { s.sec with op := none } }
  (s.complete SEC.OP_STATUS_CODE c).ev SEC.EVENT_OP_DONE

/-- An SEC operation that takes time is in progress. -/
def State.secStart (s : State) (opc : Nat) (p : Port) (ws : List Word) : State :=
  ({ s with sec := { s.sec with op := some ⟨opc, p, ws, s.w SEC.OP_ARG⟩ } } : State).setf SEC.OP_STATUS_BUSY 1

/-- A signed request fails (R557 to R560, R576). -/
def State.requestReject (s : State) : State := (s.inc SEC.REJECTS_REQUEST).secEvent SEC.EVENT_REQUEST_REJECT 0 0

/-- The header of a signed request: magic, version and DEVICE_ID (R557, R559, R560). -/
def State.requestHead (s : State) (b : List Byte) (last : Byte) : Bool :=
  b.take 8 == [0x41, 0x43, 0x54, last, 1, 0, 0, 0] && slice b 8 16 == s.deviceId

/-- The part of a string of bytes that a PART operand names: 16 words of it, or what is left (R569, R570). -/
def partWords (b : List Byte) (part : Nat) : List Word := beWords (slice b (64 * part) 64)

/-! Certificate and attestation. -/

/-- The device certificate (R569); the keys, the issuer and the signature are those of the device (log entry 5, DESIGN CHOICE). -/
def State.certificate (s : State) : List Byte :=
  [0x41, 0x43, 0x54, 0x43, 1] ++ beBytes 1 (s.f TOP.ID_GRADE) ++ [0, 0] ++ beBytes 4 (s.w TOP.ID) ++ [0, 0, 0, 0] ++
    s.deviceId ++ (List.range 216).map (fun i => Config.certByte (0x20 + i))

/-- A time entry of an attestation report (R571). -/
def State.timeEntry (s : State) (k : Nat) : List Byte :=
  if !(s.landed && s.tscBuilt k) then beBytes 1 k ++ List.replicate 15 0
  else
    let c := s.tscC k
    let src := s.f (TSC.TRACE_SRC k)
    let tied := s.loopRecs.any (fun r => r.tKind == 2 && r.tIdx == k)
    let flags := 1 + 2 * s.f (TSC.STATUS_SET k) + 4 * s.f (TSC.STATUS_TRACEABLE k) + 8 * s.f (TSC.STATUS_ADJUSTING k) +
      16 * b2n tied
    let rank := if src < 16 ∧ s.selBuilt src then s.f (SEL.STATUS_ACTIVE_RANK src) else 0xF
    beBytes 1 k ++ beBytes 1 flags ++ beBytes 1 rank ++ beBytes 1 src ++ beBytes 8 c.sec ++ beBytes 4 c.ns

/-- Some SPP holds a key. -/
def State.anyKey (s : State) : Bool := s.sec.keys.any (fun x => x.2.cur.isSome || x.2.next.isSome)

/-- The attestation report for a nonce (R570). -/
def State.attestReport (s : State) (nonce : List Byte) : List Byte :=
  let img := if s.landed then s.fab.img else none
  let z := fun (n : Nat) (b : List Byte) => (b ++ List.replicate n 0).take n
  let flags := b2n s.landed + 2 * s.f FAB.STATE_FALLBACK + 4 * b2n ((img.map (fun i => i.pilot.any id)).getD false) +
    8 * s.f PWR.AVS_STATUS_DEFICIT + 16 * b2n s.anyKey
  let body := [0x41, 0x43, 0x54, 0x41, 1] ++ beBytes 1 s.lifecycle ++ beBytes 1 (s.f FAB.SECVER_FUSES) ++
    beBytes 1 ((img.map Image.secVer).getD 0xFF) ++ beBytes 4 (s.w TOP.ID) ++ beBytes 4 flags ++ s.deviceId ++ z 32 nonce ++
    z 48 ((img.map Image.hash).getD []) ++ z 16 ((img.map Image.imageId).getD []) ++ beBytes 4 (s.w SEC.TICKET_HI) ++
    beBytes 4 (s.w SEC.TICKET_LO) ++ beBytes 2 (s.f MAN.REGR_COUNT) ++ [0, 0] ++ beBytes 4 s.sec.reportSeq ++
    (List.range 8).flatMap s.timeEntry
  body ++ z 96 (Config.ecdsaSign 1 (Config.sha384 body))

/-! PTP keys. -/

/-- Set the keys of an SPP; KEYED follows. -/
def State.setSpp (s : State) (n : Nat) (k : SppKeys) : State :=
  let ks := Tab.set (fun _ => {}) s.sec.keys n k
  ({ s with sec := { s.sec with keys := ks } } : State).setf SEC.STATE_KEYED (ks.filter (fun x => x.2.cur.isSome)).length

/-- KEY_LOAD fails (R563). -/
def State.keyReject (s : State) (c : Code) : State :=
  ((s.inc SEC.REJECTS_KEY).secEvent SEC.EVENT_KEY_REJECT 0 0).secDone 5 c

/-- KEY_LOAD (R563). -/
def State.keyLoad (s : State) (p : Port) : State :=
  match s.fab.img with
  | none => s.keyReject .notLanded
  | some i =>
    if !s.landed then s.keyReject .notLanded
    else if allZero i.keyLabel then s.keyReject .locked
    else
      match s.mboxIn p 18 with
      | none => s.keyReject .badArgument
      | some ws =>
        let b := wordsBe ws
        let spp := beAt b 0 1
        let id := beAt b 4 4
        let serial := beAt b 8 4
        let cur := s.spp spp
        match Config.keyUnwrap (i.keyLabel ++ s.deviceId ++ b.take 12) (b.drop 12) with
        | none => s.keyReject .badArgument
        | some key =>
          if serial ≤ s.sec.keySerial ∨ id = 0 ∨ (cur.cur.map (fun k => k.id.toNat)) = some id then s.keyReject .badArgument
          else
            let s := s.setSpp spp { cur with next := some ⟨BitVec.ofNat 32 id, (key ++ List.replicate 32 0).take 32⟩ }
            (({ s with sec := { s.sec with keySerial := serial } } : State).mboxEmpty p).secDone 5 .ok

/-- KEY_ROLL (R564). -/
def State.keyRoll (s : State) (n : Nat) : State :=
  match (s.spp n).next with
  | none => s.secDone 6 .badArgument
  | some k => (s.setSpp n { cur := some k, next := none }).secDone 6 .ok

/-- KEY_LIST (R565). -/
def State.keyList (s : State) (p : Port) (n : Nat) : State :=
  let id := fun (k : Option PtpKey) => (k.map PtpKey.id).getD 0
  (s.secDone 8 .ok).mboxOut p [id (s.spp n).cur, id (s.spp n).next]

/-! Ownership and retirement. -/

/-- The owner key hash whose fuses are being blown. -/
def SecCore.ownHash (c : SecCore) : Option (List Byte) :=
  c.fuse.findSome? (fun j => match j with
    | .own h => some h
    | .retire => none
    | .count _ => none)

/-- The verify unit comes to an ownership request (R557): one that is malformed or badly signed ends the operation. -/
def State.judgeOwn (s : State) (ws : List Word) : State :=
  let b := wordsBe ws
  let ok := s.requestHead b 0x4F && allZero (slice b 120 40) &&
    Config.ecdsaVerify (slice b 24 96) (Config.sha384 (b.take 160)) (slice b 160 96)
  if !ok then s.requestReject.secDone 9 .badArgument
  else if s.f FAB.STATE_SLIPWAY ≠ 1 then s.secDone 9 .badArgument
  else s.setf FAB.STATE_SLIPWAY 2

/-- The verify unit comes to a RETIRE request (R559): on acceptance the keys are erased and the fuses are being blown. -/
def State.judgeRetire (s : State) (ws : List Word) : State :=
  let b := wordsBe ws
  let ok := s.requestHead b 0x52 && allZero (slice b 24 8) &&
    Config.verifyByHash s.sec.ownerHash (Config.sha384 (b.take 32)) (slice b 32 96)
  if !ok then s.requestReject.secDone 0xA .badArgument
  else
    let s := ({ s with sec := { s.sec with keys := [], taKey := none } } : State).fuseBegin .retire
    ((s.setf SEC.STATE_KEYED 0).setf SEC.STATE_TA_PRESENT 0).setf SEC.STATE_SECRET_OFF 1

/-- The verify unit serves the signed request of the operation in progress when its turn has come (R553); that of PROVISION_LABEL is served as
the operation ends. -/
def State.serveRequest (s : State) : State :=
  if .request ∉ s.sec.verify ∨ !s.verifyTurn .request then s
  else
    match s.sec.op with
    | none => s
    | some o =>
      if o.opcode = 9 then (s.verifyServed .request).judgeOwn o.input
      else if o.opcode = 0xA then (s.verifyServed .request).judgeRetire o.input
      else s

/-- An operation with a signed request is in progress, and the request is at the verify unit (R553). -/
def State.requestArrives (s : State) (opc : Nat) (p : Port) (ws : List Word) : State :=
  ((s.secStart opc p ws).verifyArrives .request).serveRequest

/-- TAKE_OWNERSHIP begins (R557). While the fuses of an accepted request are being blown the device is bound to leave UNOWNED (log entry 80,
DEDUCED). -/
def State.takeOwnership (s : State) (p : Port) : State :=
  if s.lifecycle ≠ lcUnowned ∨ s.sec.ownHash.isSome then s.secDone 9 .locked
  else
    match s.mboxIn p 64 with
    | none => s.secDone 9 .badArgument
    | some ws => s.requestArrives 9 p ws

/-- RETIRE begins (R559). -/
def State.secRetire (s : State) (p : Port) : State :=
  if s.lifecycle ≠ lcOwned ∨ s.on MAN.STATUS_SIGNING then s.secDone 0xA .locked
  else
    match s.mboxIn p 32 with
    | none => s.secDone 0xA .badArgument
    | some ws => s.requestArrives 0xA p ws

/-- PROVISION_LABEL begins (R558, R560). -/
def State.provisionLabel (s : State) (p : Port) : State :=
  if s.lifecycle = lcUnowned ∨ s.lifecycle = lcRetired then s.secDone 4 .locked
  else
    match s.mboxIn p 58 with
    | none => s.secDone 4 .badArgument
    | some ws => s.requestArrives 4 p ws

/-- An operation of SEC (R553 to R570). -/
def State.secOp (s : State) (p : Port) (word : Nat) : State :=
  let opc := word % 256
  let spp := word / 256 % 256
  let part := bitsAt word 18 16
  let s := s.setw SEC.OP (part * 2 ^ 16 + spp * 2 ^ 8 + opc)
  match opc with
  | 1 => if part ≤ 3 then (s.secDone 1 .ok).mboxOut p (partWords s.certificate part) else s.secDone 1 .badArgument
  | 2 =>
    match s.mboxIn p 8 with
    | none => s.secDone 2 .badArgument
    | some ws => s.secStart 2 p ws
  | 3 =>
    match s.sec.report with
    | none => s.secDone 3 .badArgument
    | some r => if part ≤ 5 then (s.secDone 3 .ok).mboxOut p (partWords r part) else s.secDone 3 .badArgument
  | 4 => s.provisionLabel p
  | 5 => s.keyLoad p
  | 6 => s.keyRoll spp
  | 7 => (s.setSpp spp {}).secDone 7 .ok
  | 8 => s.keyList p spp
  | 9 => s.takeOwnership p
  | 0xA => s.secRetire p
  | _ => s.secDone opc .badArgument

/-- The doorbell of SEC. -/
def State.secDoorbell (s : State) (p : Port) (word : Nat) : State :=
  s.doorbellB p SEC.OP false SEC.OP_STATUS_BUSY (fun s => s.secOp p word)

/-- CERT_READ (R569). -/
def execCertRead (p : Port) (part : BitVec 3) (s : State) : Host.Outcome State Fault Refusal :=
  .next (s.secDoorbell p (part.toNat * 2 ^ 16 + 1))

/-- ATTEST_READ (R570, R576). -/
def execAttestRead (p : Port) (part : BitVec 3) (s : State) : Host.Outcome State Fault Refusal :=
  .next (s.secDoorbell p (part.toNat * 2 ^ 16 + 3))

/-- KEY_ROLL (R564). -/
def execKeyRoll (p : Port) (spp : BitVec 8) (s : State) : Host.Outcome State Fault Refusal :=
  .next (s.secDoorbell p (spp.toNat * 2 ^ 8 + 6))

/-- KEY_ERASE (R564). -/
def execKeyErase (p : Port) (spp : BitVec 8) (s : State) : Host.Outcome State Fault Refusal :=
  .next (s.secDoorbell p (spp.toNat * 2 ^ 8 + 7))

/-- KEY_LIST (R565). -/
def execKeyList (p : Port) (spp : BitVec 8) (s : State) : Host.Outcome State Fault Refusal :=
  .next (s.secDoorbell p (spp.toNat * 2 ^ 8 + 8))

/-- ATTEST (R553, R570). -/
def execAttest (p : Port) (s : State) : Host.Outcome State Fault Refusal := .next (s.secDoorbell p 2)

/-- ATTEST_DONE (R570, R571): after any sealing ahead of it (R553). -/
def execAttestDone (s : State) : Host.Outcome State Fault Refusal :=
  match s.sec.op with
  | some o =>
    if o.opcode = 2 ∧ !s.on MAN.STATUS_SIGNING then
      let s := { s with sec := { s.sec with reportSeq := s.sec.reportSeq + 1 } }
      let r := s.attestReport (wordsBe o.input)
      .next ((({ s with sec := { s.sec with report := some r } } : State).mboxEmpty o.port).secDone 2 .ok)
    else .next s
  | none => .next s

/-- PROVISION_LABEL (R558, R560). -/
def execProvisionLabel (p : Port) (s : State) : Host.Outcome State Fault Refusal := .next (s.secDoorbell p 4)

/-- PROVISION_LABEL_DONE (R558, R560), after the tickets that arrived before the request (R553). -/
def execProvisionLabelDone (s : State) : Host.Outcome State Fault Refusal :=
  match s.sec.op with
  | some o =>
    if o.opcode = 4 ∧ s.verifyTurn .request then
      let s := s.verifyServed .request
      let b := wordsBe o.input
      let key := if s.lifecycle = lcManufacture then Config.dunfoegKeyHash else s.sec.ownerHash
      let ok := s.requestHead b 0x4B && !allZero (slice b 0x18 16) &&
        Config.verifyByHash key (Config.sha384 (b.take 0x88)) (slice b 0x88 96)
      if ok then
        .next (((s.mboxEmpty o.port).secDone 4 .ok).mboxOut o.port
          (beWords ((Config.labelWrap b ++ List.replicate 60 0).take 60)))
      else .next (s.requestReject.secDone 4 .badArgument)
    else .next s
  | none => .next s

/-- KEY_LOAD (R563). -/
def execKeyLoad (p : Port) (s : State) : Host.Outcome State Fault Refusal := .next (s.secDoorbell p 5)

/-- TAKE_OWNERSHIP (R557). -/
def execTakeOwnership (p : Port) (s : State) : Host.Outcome State Fault Refusal := .next (s.secDoorbell p 9)

/-- SEC_RETIRE (R559). -/
def execSecRetire (p : Port) (s : State) : Host.Outcome State Fault Refusal := .next (s.secDoorbell p 0xA)

/-- SEC_RETIRE_DONE (R132, R555, R559): also when a full reset has taken the operation away meanwhile. The full reset that follows has
no cause code of its own (log entry 3, DESIGN CHOICE). A fuse that fails leaves the keys erased, so by R15 the operation completes OK
(log entry 80, DEDUCED); EVENT.FUSE_ERROR tells the failure. -/
def execSecRetireDone (fuseOk : Bool) (s : State) : Host.Outcome State Fault Refusal :=
  if .retire ∉ s.sec.fuse then .next s
  else
    let o := s.sec.op.filter (fun o => o.opcode == 0xA)
    if fuseOk then
      let s := match o with
        | some o => ((s.fuseDone .retire).mboxEmpty o.port).secDone 0xA .ok
        | none => s.fuseDone .retire
      .next (s.took.fullReset (256 + s.free 8))
    else if o.isSome then .next ((s.fuseError .retire).secDone 0xA .ok)
    else .next (s.fuseError .retire)

/-- TICKET_VERIFIED (R379, R567, R568): when its turn has come at the verify unit (R553). -/
def execTicketVerified (n : Fin 8) (s : State) : Host.Outcome State Fault Refusal :=
  match (s.tscC n).ticket with
  | none => .next s
  | some j =>
    if !s.verifyTurn (.ticket n) then .next s else
    let s := ((s.modTsc n (fun x => { x with ticket := none })).verifyServed (.ticket n)).setf (TSC.STATUS_BUSY n) 0
    let s := match s.ticketReason n j with
      | 0 => (s.ticketAccepted n j).complete (TSC.CODE_CODE n) .ok
      | r => (s.complete (TSC.CODE_CODE n) .badTicket).ticketRejected n r
    .next s.serveRequest

/-- TAP_INSTRUCTION (R573, R574, R702): while EXTEST, CLAMP or HIGHZ is in the instruction register the device holds itself in cold
reset. A device test instruction is accepted in MANUFACTURE: it ends a hold, as any other does, and what production test does with it is
left out (log entry 74). -/
def execTapInstruction (i : TapInstr) (s : State) : Host.Outcome State Fault Refusal :=
  let leave := fun (s : State) =>
    if s.sec.tapHold then
      let s := { s with sec := { s.sec with tapHold := false } }
      (s.coldReset 3 .straps).secEvent SEC.EVENT_TEST_ACCESS 0 0
    else s
  match i with
  | .extest | .clamp | .highz =>
    .next ({ s with sec := { s.sec with tapHold := true } }.coldReset 3 .held)
  | .bypass | .samplePreload | .idcode => .next (leave s)
  | .deviceTest | .other =>
    if s.lifecycle = lcManufacture then .next (leave s) else .next ((leave s).secEvent SEC.EVENT_TEST_ACCESS 0 0)

end Sys2Proof.Machine
end

