-- ==== Sys2Proof/Machine/Fab.lean ====
section
/-! DEFINITION. The operations of FAB on the slipway and the slots (R134 to R139, R148, R149), and the landing watchdog (R144). -/

namespace Sys2Proof.Machine

/-- The faults of a check that has failed, in a verification or in a load (R75, R131, R144, R663). -/
def State.checkFault (s : State) (code off slot : Nat) : State :=
  let s := if code = 0x09 then s.report 0x80 0x08 off else s
  s.report 0x80 0x09 (code + 256 * slot)

/-- A verification has failed: the code, the logbook record and the faults (R131). -/
def State.verifyFails (s : State) (code off slot : Nat) : State :=
  ((s.setf FAB.STATE_FAIL_CODE code).logDev 0x0103 (beBytes 1 slot ++ beBytes 1 code)).checkFault code off slot

/-- An FAB operation that takes time is in progress. -/
def State.fabStart (s : State) (p : Port) (opc slot arg : Nat) : State :=
  ({ s with fab := { s.fab with op := some ⟨opc, slot, p, arg⟩ } } : State).setf FAB.OP_STATUS_BUSY 1

/-- The slot that CURRENT, PREVIOUS or PENDING names is no longer PREVIOUS (R137). -/
def State.notPrevious (s : State) (k : Nat) : State :=
  if s.f FAB.SLOTS_PREVIOUS = k then s.setf FAB.SLOTS_PREVIOUS 3 else s

/-- Logical pages that a slot holds and that flash has lost (R647, R650). -/
def State.slotLost (s : State) (k : Nat) : Bool :=
  s.flm.lostPages.any (fun g => decide (slotBase k / 2048 ≤ g) && decide (g < (slotBase k + slipSize) / 2048))

/-- Erasing a slot brings its lost pages back into use. -/
def State.slotFresh (s : State) (k : Nat) : State :=
  { s with flm := { s.flm with lostPages := s.flm.lostPages.filter (fun g =>
      !(decide (slotBase k / 2048 ≤ g) && decide (g < (slotBase k + slipSize) / 2048))) } }

/-- Erase a slot (R137). -/
def State.eraseSlot (s : State) (k : Nat) : State :=
  ({ s with flash := Tab.copyFrom s.flash [] 0 slipSize (slotBase k) } : State).slotFresh k

/-- The slot is EMPTY from the start of a write or an erase on (R136). -/
def State.emptySlot (s : State) (k : Nat) : State := (s.setf (slotSv k) 0x7F).setSlot k 0

/-- STAGE (R137). -/
def State.fabStage (s : State) : State :=
  if s.f FAB.STATE_SLIPWAY = 2 then s.fabDone 1 .badArgument
  else ((s.setf FAB.STATE_SLIPWAY 1).setf FAB.STATE_VSLOT 3).fabDone 1 .ok

/-- VERIFY (R137, R139). -/
def State.fabVerify (s : State) (p : Port) (arg : Nat) : State :=
  if s.f FAB.STATE_SLIPWAY ≠ 1 ∨ arg < 256 ∨ 8388608 < arg then s.fabDone 2 .badArgument
  else ((s.setf FAB.STATE_SLIPWAY 2).verifyArrives .image).fabStart p 2 3 arg

/-- WRITE_SLOT (R136, R137). The table names no slot 3: it completes with BAD_ARGUMENT before the other checks (log entry 83, DESIGN
CHOICE). A slot from which R652 has taken blocks completes LOCKED, as R659 has it when the taking falls into the write (log entry 97,
DEDUCED). -/
def State.fabWriteSlot (s : State) (p : Port) (k arg : Nat) : State :=
  if k = 3 ∨ s.f FAB.STATE_SLIPWAY ≠ 3 then s.fabDone 3 .badArgument
  else if s.f FAB.SLOTS_CURRENT = k ∨ (k = 2 ∧ s.on FAB.CTRL_GOLDEN_LOCK) ∨ 0 < s.flm.takenOf k then s.fabDone 3 .locked
  else (({ s with flm := { s.flm with writing := k :: s.flm.writing.filter (· != k) } } : State).emptySlot k).fabStart p 3 k arg

/-- LOAD_SLOT (R137, R139). During a load it is accepted, and begins when that load has ended (log entry 83, DEDUCED). -/
def State.fabLoadSlot (s : State) (p : Port) (k arg : Nat) : State :=
  if k = 3 ∨ !(s.f (slotField k) = 1 ∨ s.f (slotField k) = 2) then s.fabDone 4 .badArgument
  else (((s.setf FAB.STATE_SLIPWAY 2).setf FAB.STATE_VSLOT 3).verifyArrives .image).fabStart p 4 k arg

/-- ACTIVATE (R137, R142, R149). With HANDOVER while a switchover is already in progress, of which the spec says nothing, it completes
with LOCKED (log entry 83, DESIGN CHOICE). -/
def State.fabActivate (s : State) (p : Port) (handover : Bool) : State :=
  if s.f FAB.STATE_SLIPWAY ≠ 3 ∨ s.f FAB.STATE_VSLOT = 3 then s.fabDone 5 .badArgument
  else if s.xlkBuilt ∧ s.f XLK.STATUS_PAIR = 2 ∧ s.f XLK.STATUS_ROLE = 1 then
    if !handover ∨ s.xlk.switching.isSome then s.fabDone 5 .locked
    else
      let s := (s.fabStart p 5 3 0).xlkSwitch p true
      { s with fab := { s.fab with handover := some p } }
  else s.activateGo

/-- COMMIT_ROLLBACK (R137, R148). -/
def State.fabRollback (s : State) (p : Port) (t : Nat) : State :=
  let own := if s.landed then s.fab.img.map Image.secVer else none
  match own with
  | none => s.fabDone 6 .badArgument
  | some v =>
    if t ≤ s.f FAB.SECVER_FUSES then s.fabDone 6 .ok
    else if v < t ∨ 64 < t then s.fabDone 6 .badArgument
    else if s.f FAB.SLOTS_GOLDEN_ST = 0 ∨ s.f FAB.SECVER_GOLDEN_SV < t then s.fabDone 6 .locked
    else
      (s.fuseBegin (.count t)).fabStart p 6 3 t

/-- ERASE_SLOT (R137). The table names no golden slot and no slot 3: they complete with BAD_ARGUMENT before the other check. The slot keeps
its state until the operation ends, so that a reset on the way leaves it as it was (log entry 83, DESIGN CHOICE). -/
def State.fabErase (s : State) (p : Port) (k arg : Nat) : State :=
  if 1 < k then s.fabDone 7 .badArgument
  else if s.f FAB.SLOTS_CURRENT = k then s.fabDone 7 .locked
  else s.fabStart p 7 k arg

/-- The IMAGE_ID and the configuration hash of a slot, or of the landed image (R124, R137). -/
def State.slotId (s : State) (k : Nat) : Option (List Byte) :=
  if k = 3 then
    (if s.landed then s.fab.img.map (fun i => (i.imageId ++ i.hash ++ List.replicate 64 0).take 64) else none)
  else if s.f (slotField k) = 0 then none
  else
    let head := Tab.range memDefault s.flash (slotBase k) 0x38
    let len := min (beAt head 8 4) slipSize
    let hash := Config.sha384 (Tab.range memDefault s.flash (slotBase k) (len - 96))
    some ((slice head 0x28 16 ++ hash ++ List.replicate 64 0).take 64)

/-- READ_ID (R137). Where the target is EMPTY, or is slot 3 with no landed image, of which R137 gives no code, it completes with BAD_ARGUMENT
(log entry 83, DESIGN CHOICE). -/
def State.fabReadId (s : State) (p : Port) (k : Nat) : State :=
  match s.slotId k with
  | none => s.fabDone 8 .badArgument
  | some b => (s.fabDone 8 .ok).mboxOut p (beWords b)

/-- An operation of FAB (R137). -/
def State.fabOp (s : State) (p : Port) (word : Nat) : State :=
  let opc := word % 256
  let slot := bitsAt word 9 8
  let arg := s.w FAB.OP_ARG
  let s := ((s.setf FAB.OP_OPCODE opc).setf FAB.OP_SLOT slot).setf FAB.OP_HANDOVER (bitsAt word 12 12)
  match opc with
  | 1 => s.fabStage
  | 2 => s.fabVerify p arg
  | 3 => s.fabWriteSlot p slot arg
  | 4 => s.fabLoadSlot p slot arg
  | 5 => s.fabActivate p (bitAt word 12)
  | 6 => s.fabRollback p arg
  | 7 => s.fabErase p slot arg
  | 8 => s.fabReadId p slot
  | _ => s.fabDone opc .badArgument

/-- The doorbell of FAB (R137). -/
def State.fabDoorbell (s : State) (p : Port) (word : Nat) : State :=
  s.doorbellB p FAB.OP false FAB.OP_STATUS_BUSY (fun s => s.fabOp p word)

/-- STAGE (R137). -/
def execStage (p : Port) (s : State) : Host.Outcome State Fault Refusal := .next (s.fabDoorbell p 1)

/-- VERIFY (R137, R139). -/
def execVerify (p : Port) (s : State) : Host.Outcome State Fault Refusal := .next (s.fabDoorbell p 2)

/-- WRITE_SLOT (R136, R137). -/
def execWriteSlot (p : Port) (slot : BitVec 2) (s : State) : Host.Outcome State Fault Refusal :=
  .next (s.fabDoorbell p (slot.toNat * 2 ^ 8 + 3))

/-- LOAD_SLOT (R137, R139). -/
def execLoadSlot (p : Port) (slot : BitVec 2) (s : State) : Host.Outcome State Fault Refusal :=
  .next (s.fabDoorbell p (slot.toNat * 2 ^ 8 + 4))

/-- ACTIVATE (R137, R142, R149). -/
def execActivate (p : Port) (handover : Bool) (s : State) : Host.Outcome State Fault Refusal :=
  .next (s.fabDoorbell p (b2n handover * 2 ^ 12 + 5))

/-- COMMIT_ROLLBACK (R137, R148). -/
def execCommitRollback (p : Port) (s : State) : Host.Outcome State Fault Refusal := .next (s.fabDoorbell p 6)

/-- ERASE_SLOT (R137). -/
def execEraseSlot (p : Port) (slot : BitVec 2) (s : State) : Host.Outcome State Fault Refusal :=
  .next (s.fabDoorbell p (slot.toNat * 2 ^ 8 + 7))

/-- READ_ID (R137). -/
def execReadId (p : Port) (slot : BitVec 2) (s : State) : Host.Outcome State Fault Refusal :=
  .next (s.fabDoorbell p (slot.toNat * 2 ^ 8 + 8))

/-- The FAB operation in progress, when it is the one of an opcode. -/
def State.fabRuns (s : State) (opc : Nat) : Option FabOp := s.fab.op.filter (fun o => o.opcode == opc)

/-- WRITE_SLOT_DONE (R136, R137, R650): whether the slot reads back right, and the blocks found bad on the way. A write that fails
leaves the slot EMPTY, so by R15 it completes OK (log entry 80, DEDUCED); SLOTS tells the failure. VSLOT then stays as it was (log entry
83, DESIGN CHOICE). -/
def execWriteSlotDone (readBack : Bool) (bad : List (Nat × List Nat)) (s : State) : Host.Outcome State Fault Refusal :=
  match s.fabRuns 3 with
  | none => .next s
  | some o =>
    let k := o.slot
    let s := s.blocksBad bad
    let s : State := { s with flm := { s.flm with writing := s.flm.writing.filter (· != k) } }
    if s.f (slotField k) ≠ 0 then .next (s.fabDone 3 .locked)
    else if readBack ∧ s.flashReady then
      let s := (s.programSlot k).slotFresh k
      let s := (s.setf (slotSv k) (s.byte (slipBase + 0x10)).toNat).setf FAB.STATE_VSLOT k
      .next (((s.notPrevious k).setSlot k 1).fabDone 3 .ok)
    else .next (s.fabDone 3 .ok)

/-- ERASE_SLOT_DONE (R135, R137, R650). -/
def execEraseSlotDone (s : State) : Host.Outcome State Fault Refusal :=
  match s.fabRuns 7 with
  | none => .next s
  | some o =>
    let k := o.slot
    let s := s.eraseSlot k
    let s := if s.f FAB.STATE_VSLOT = k then s.setf FAB.STATE_VSLOT 3 else s
    .next (((s.notPrevious k).emptySlot k).fabDone 7 .ok)

/-- ACTIVATE_HANDOVER_TIMEOUT (R149): the switchover has not completed within 100 ms. -/
def execActivateHandoverTimeout (s : State) : Host.Outcome State Fault Refusal :=
  match s.xlk.switching with
  | some j => if j.activate ∧ s.fab.handover.isSome then .next (s.switchFails true) else .next s
  | none => .next s

/-- The count of anti-rollback fuses that was recorded first. -/
def SecCore.firstCount (c : SecCore) : Option Nat :=
  c.fuse.findSome? (fun j => match j with
    | .count n => some n
    | .own _ => none
    | .retire => none)

/-- ROLLBACK_FUSES_DONE (R148, R555): the count that was recorded first, also when a full reset has taken its operation away meanwhile. An
operation that asks for no more than that count ends with it. -/
def execRollbackFusesDone (fuseOk : Bool) (s : State) : Host.Outcome State Fault Refusal :=
  match s.sec.firstCount with
  | some n =>
    let runs := ((s.fabRuns 6).filter (fun o => decide (o.arg ≤ n))).isSome
    if fuseOk then .next ((s.fuseDone (.count n)).when runs (fun s => s.fabDone 6 .ok))
    else if runs then
      let c := s.openCode
      .next (((s.took.fuseError (.count n)).fabDone 6 .ok).setf FAB.OP_STATUS_CODE c)
    else .next (s.fuseError (.count n))
  | none => .next s

/-- The landing watchdog of the load in progress, in ms (R144). -/
def State.watchdogMs (s : State) : Nat :=
  let h := s.bytes slipBase 0x100
  if beAt h 0xFC 4 = crc32c (slice h 0 0xFC) then (if beAt h 0x16 2 = 0 then 1000 else beAt h 0x16 2) else 1000

/-- LANDING_WATCHDOG_EXPIRY (R144, R145). -/
def execLandingWatchdogExpiry (s : State) : Host.Outcome State Fault Refusal :=
  match s.fab.load with
  | none => .next s
  | some j =>
    if s.now < j.since + s.watchdogMs * 2000000 then .next s
    else .next ((s.report 0x80 0x0A j.slot).failLoad 0x0B)

end Sys2Proof.Machine
end

