-- ==== Sys2Proof/Machine/RegRules.lean ====
section
/-! DEFINITION. What a register is to a host (R583, R584, R588, R589, R604), and the rules that a write of it must meet: the resources
it may name (R51), the fields it may change without a pilot grant (R23), its lock bits (R600) and the values it may leave
(R585). Register offsets are those of the chapters' register tables. -/

namespace Sys2Proof.Machine

/-! What a register is. -/

/-- The MSI-X table and pending-bit array, which only port A has (R577, R589): of an entry's words, the address, the data
and the mask bit may be written. -/
def regsMSIX : List RegDef := [
  ⟨"HOST.MSIX_ADDR", 0x3000, 64, 0x10, 0, 1, .kept, [⟨31, 2, .rw, false, 0⟩]⟩,
  ⟨"HOST.MSIX_UPPER", 0x3004, 64, 0x10, 0, 1, .kept, [⟨31, 0, .rw, false, 0⟩]⟩,
  ⟨"HOST.MSIX_DATA", 0x3008, 64, 0x10, 0, 1, .kept, [⟨31, 0, .rw, false, 0⟩]⟩,
  ⟨"HOST.MSIX_CTRL", 0x300C, 64, 0x10, 0, 1, .kept, [⟨0, 0, .rw, false, 1⟩]⟩,
  ⟨"HOST.MSIX_PBA", 0x3800, 2, 0x4, 0, 1, .kept, [⟨31, 0, .ro, false, 0⟩]⟩]

/-- A register that only some instances, images or ports have, at offset `o` of block `b`, is there. What the image decides
leaves out a register of a built block only. -/
def State.regHas (s : State) (p : Port) (b o : Nat) : Bool :=
  if b = 2 ∧ 0x310 ≤ o ∧ o < 0x400 then p == .a
  else if 0x30 ≤ b ∧ b ≤ 0x3F ∧ 0x100 ≤ o ∧ s.selBuilt (b - 0x30) then decide ((o - 0x100) / 0x20 < s.ncand (b - 0x30))
  else if 0x40 ≤ b ∧ b ≤ 0x5F ∧ 0xC0 ≤ o ∧ o < 0xD0 ∧ s.loopBuilt (b - 0x40) then s.f (LOOP.CFG_INKIND (b - 0x40)) == 2
  else if 0x68 ≤ b ∧ b ≤ 0x83 ∧ (s.outRec (b - 0x68)).isSome ∧ 0x1C ≤ o then (o == 0x1C) != s.isPulse (b - 0x68)
  else if 0x88 ≤ b ∧ b ≤ 0x8F ∧ 0x100 ≤ o ∧ s.tscBuilt (b - 0x88) then s.todBound ((o - 0x100) / 0x10) (b - 0x88)
  else if 0x90 ≤ b ∧ b ≤ 0x97 ∧ (o = 0x84 ∨ o = 0x88) then decide (b < 0x92)
  else true

/-- A table line whose fields are all RO. -/
def RegDef.readOnly (d : RegDef) : RegDef := { d with fields := d.fields.map (fun f => { f with acc := .ro }) }

/-- The register at offset `o` of block `b` as port `p` finds it (R583, R591 check 2). NOM_FREQ of LND[20–29] is RO. -/
def State.regFind (s : State) (p : Port) (b o : Nat) : Option RegDef :=
  let l := if b = 1 ∧ p = .a then regsHOST ++ regsMSIX else blockRegs b
  let d := if s.regHas p b o then l.find? (fun d => d.covers (b - blockFirst b) o) else none
  if 0x24 ≤ b ∧ b ≤ 0x2D ∧ o = 8 then d.map RegDef.readOnly else d

/-- Each port has its own copy (R588). -/
def portRelative (b o : Nat) : Bool :=
  if b = 1 then !(decide (0x100 ≤ o) && decide (o ≤ 0x110))
  else b == 2 && (decide (o < 0x200) || (decide (0x300 ≤ o) && decide (o < 0x400)))

/-- Where the state holds the register at offset `o` of block `b` for port `p`. -/
def regKey (p : Port) (b o : Nat) : Nat := b * 0x10000 + o + (if portRelative b o then portBase p else 0)

/-- A status register: all its fields are RO, RC or rsvd (R583). -/
def RegDef.status (d : RegDef) : Bool := d.fields.all (fun f => f.acc == .ro || f.acc == .rc)

/-- It holds a field that no alias may write (R584). -/
def RegDef.noAlias (d : RegDef) : Bool := d.fields.any (fun f => f.acc == .wo || f.acc == .wp || f.acc == .pw)

/-- It holds a posted field (R594). -/
def RegDef.posted (d : RegDef) : Bool := d.fields.any (fun f => f.acc == .pw)

/-- The doorbells (R583): every register named CMD, OP or GROUP, and four more. -/
def doorbellReg (b o : Nat) : Bool :=
  if b = 0x00 ∨ b = 0x0C ∨ (0x88 ≤ b ∧ b ≤ 0x8F) then o == 0x0C
  else if b = 0x01 then o == 0x1104 || o == 0x2800 || o == 0x110
  else if b = 0x03 then o == 0x40
  else if b = 0x04 ∨ b = 0x0A then o == 0x10
  else if b = 0x06 then o == 0x20
  else if b = 0x07 ∨ b = 0x08 then o == 0x08
  else if 0x10 ≤ b ∧ b ≤ 0x2F then o == 0x38
  else if 0x30 ≤ b ∧ b ≤ 0x3F then o == 0x1C
  else if 0x40 ≤ b ∧ b ≤ 0x5F then o == 0x30
  else if 0x60 ≤ b ∧ b ≤ 0x67 then o == 0x1C || o == 0x24
  else if 0x68 ≤ b ∧ b ≤ 0x83 then o == 0x10
  else if 0x90 ≤ b ∧ b ≤ 0x97 then o == 0x8C
  else if 0x98 ≤ b ∧ b ≤ 0x9F then o == 0x70
  else b == 0xA0 && o == 0x14

/-- The lock registers (R583). -/
def lockReg (b o : Nat) : Bool :=
  if b = 0x04 then o == 0x0C
  else if 0x88 ≤ b ∧ b ≤ 0x8F then o == 0x30
  else if 0x98 ≤ b ∧ b ≤ 0x9F then o == 0x04
  else b == 0xA1 && o == 0

/-- The registers that take no write narrower than four bytes (R589). -/
def wideReg (b o : Nat) : Bool :=
  doorbellReg b o || lockReg b o ||
    (b == 1 && ((decide (0x1000 ≤ o) && decide (o < 0x1100)) || (decide (0x3000 ≤ o) && decide (o < 0x3400))))

/-- The LK fields of a register are frozen (R443, R600). -/
def State.frozen (s : State) (b o : Nat) : Bool :=
  if b = 0x04 then s.on FAB.CTRL_GOLDEN_LOCK
  else if 0x88 ≤ b ∧ b ≤ 0x8F then s.on (TSC.TRACE_LOCK (b - 0x88))
  else if 0x98 ≤ b ∧ b ≤ 0x9F then s.on (PTE.CTRL_ID_LOCK (b - 0x98))
  else b == 0xA1 && decide (o ≤ 0x0C) && s.on MAN.CFG_LOCK

/-- The bits of a field. -/
def FieldDef.mask (f : FieldDef) : Nat := 2 ^ (f.hi + 1) - 2 ^ f.lo

/-- The bits of the fields of a register that a condition picks. -/
def RegDef.bits (d : RegDef) (g : FieldDef → Bool) : Nat := d.fields.foldl (fun a f => if g f then a + f.mask else a) 0

/-- What a host's write may set: no RO, RC, rsvd or frozen field (R7, R586, R600). -/
def RegDef.writable (d : RegDef) (frozen : Bool) : Nat :=
  d.bits (fun f => match f.acc with | .ro => false | .rc => false | .lk => !frozen | _ => true)

/-- What reads as 0: WO and WP fields (R7). -/
def RegDef.hidden (d : RegDef) : Nat := d.bits (fun f => f.acc == .wo || f.acc == .wp)

/-! A write. -/

/-- A write of one register as the rules see it: the port, the block index, the offset, what the register held, what the write
would leave, and the bits that it drives. -/
structure RegWrite where
  port : Port
  blk : Nat
  off : Nat
  old : Nat
  new : Nat
  mask : Nat
  deriving DecidableEq, Repr

/-- Where the state holds the register. -/
def RegWrite.key (x : RegWrite) : Nat := regKey x.port x.blk x.off
/-- What the write would leave in a field. -/
def RegWrite.v (x : RegWrite) (hi lo : Nat) : Nat := bitsAt x.new hi lo
/-- What it would leave in a field, two's complement. -/
def RegWrite.i (x : RegWrite) (hi lo : Nat) : Int := toSigned (hi - lo + 1) (x.v hi lo)
/-- It drives bits of a field. -/
def RegWrite.hits (x : RegWrite) (hi lo : Nat) : Bool := bitsAt x.mask hi lo != 0
/-- It changes a field. -/
def RegWrite.ch (x : RegWrite) (hi lo : Nat) : Bool := bitsAt x.old hi lo != x.v hi lo
/-- It leaves a field that it drives within a range (R585). -/
def RegWrite.ok (x : RegWrite) (hi lo a b : Nat) : Bool := !x.hits hi lo || (decide (a ≤ x.v hi lo) && decide (x.v hi lo ≤ b))
/-- It leaves a signed field that it drives within a range. -/
def RegWrite.okS (x : RegWrite) (hi lo : Nat) (a b : Int) : Bool :=
  !x.hits hi lo || (decide (a ≤ x.i hi lo) && decide (x.i hi lo ≤ b))
/-- It gives at most one bit of a command 1. -/
def RegWrite.one (x : RegWrite) (n : Nat) : Bool := ((List.range n).filter (fun i => bitAt x.new i)).length ≤ 1

/-! The resources a write names (R51, R76, R591 check 4). -/

/-- The blocks that events and tasks belong to (R391, R392); none where the number is reserved, 0 for the device itself. -/
def eventBlock (e : Nat) : Option Nat :=
  if e < 0x60 then some (0x10 + e % 32)
  else if e < 0x80 then some (0x40 + e % 32)
  else if e < 0x90 then some (0x30 + e % 16)
  else if e < 0xB0 then some (0x88 + e % 8)
  else if e < 0xC0 then some (0x60 + e % 8)
  else if e < 0xD8 then some (0x68 + (e - 0xC0))
  else if 0xE0 ≤ e ∧ e ≤ 0xE2 then some 0
  else if 0x100 ≤ e ∧ e < 0x310 then some 0
  else none

/-- The blocks that have a task input (R392). -/
def taskBlock (b : Nat) : Bool :=
  (decide (0x10 ≤ b) && decide (b ≤ 0x2F)) || (decide (0x40 ≤ b) && decide (b ≤ 0x83)) || (decide (0x88 ≤ b) && decide (b ≤ 0x8F))

/-- Words of route r with the write in place: source, destination, argument. -/
def State.routeWith (s : State) (x : RegWrite) : Nat × Nat × Nat :=
  let r := (x.off - 0x1000) / 16
  let g := fun k => if x.off % 16 = 4 * k then x.new else s.w (EVR.ROUTE_SRC r + 4 * k)
  (g 0, g 1, g 2)

/-- The write drives a field with a name of something that the image does not build (R51), whether or not the field changes; an event
number, a peer and a task name their block while the register makes them live (ROUTE_SRC.EN, CTRL of a landing), or when they change
(log entry 81, DEDUCED). -/
def State.namesUnbuilt (s : State) (x : RegWrite) : Bool :=
  let b := x.blk
  if s.fab.img.isNone then false
  else if b = 0x07 then x.off == 0x1C && x.hits 18 16 && !s.tscBuilt (x.v 18 16)
  else if b = 0x0A then
    (if x.off < 0x1000 then false
     else if x.off % 16 = 0 then (x.v 31 31 == 1 || x.ch 11 0) && ((eventBlock (x.v 11 0)).map (fun k => !s.built k)).getD false
     else x.off % 16 == 4 && (x.hits 12 0 && (x.v 12 12 == 0 && taskBlock (x.v 11 4) && !s.built (x.v 11 4))))
  else if 0x10 ≤ b ∧ b ≤ 0x2F then
    (if x.off = 0x04 then x.v 4 4 == 1 && (x.hits 4 4 || x.hits 12 8) && !s.lndBuilt (x.v 12 8)
     else x.off == 0x44 && (x.hits 4 0 && (decide (x.v 4 0 < 28) && (s.outRec (x.v 4 0)).isNone)))
  else if 0x60 ≤ b ∧ b ≤ 0x67 then
    x.off == 0x24 && !(maskOuts (x.v 27 0)).all (fun m => (s.outRec m).isSome)
  else if 0x88 ≤ b ∧ b ≤ 0x8F then
    x.off == 0x30 && (x.hits 4 0 && (decide (x.v 4 0 < 16) && !s.selBuilt (x.v 4 0)))
  else if 0x90 ≤ b ∧ b ≤ 0x97 then
    (if x.off = 0x1C then x.hits 2 0 && !s.aplBuilt (x.v 2 0)
     else x.off == 0x80 && (x.hits 20 16 && (decide (x.v 20 16 < 16) && !s.selBuilt (x.v 20 16))))
  else if 0x98 ≤ b ∧ b ≤ 0x9F then x.off == 0x48 && (x.hits 4 0 && (decide (x.v 4 0 < 31) && !s.loopBuilt (x.v 4 0)))
  else b == 0xA1 && (x.off == 0 && (x.hits 2 0 && !s.tscBuilt (x.v 2 0)))

/-! The helm that a write needs beside that of its block (R352, R396). -/

/-- The port holds the helm of what a route's target, or a group's mask, names. -/
def State.otherHelm (s : State) (x : RegWrite) : Bool :=
  if x.blk = 0x0A ∧ 0x1000 ≤ x.off then
    let (_, d, h) := s.routeWith x
    if bitAt d 12 then !s.current h || s.holds x.port (0x98 + (s.berthC (hSlot h)).port)
    else !taskBlock (bitsAt d 11 4) || s.holds x.port (bitsAt d 11 4)
  else if 0x60 ≤ x.blk ∧ x.blk ≤ 0x67 ∧ x.off = 0x24 then (maskOuts (x.v 27 0)).all (fun m => s.holds x.port (0x68 + m))
  else true

/-! Pilot level (R23, R591 check 6). -/

/-- The write changes a pilot-level field, writes 1 to a pilot-level WP field, or gives a command field a value marked
Pilot. -/
def pilotWrite (d : RegDef) (x : RegWrite) : Bool :=
  d.fields.any (fun f => f.pilot && (if f.acc == .wp then x.v f.hi f.lo != 0 else x.ch f.hi f.lo)) ||
    (decide (0x88 ≤ x.blk) && decide (x.blk ≤ 0x8F) && x.off == 0x0C && (x.v 3 0 == 6 || x.v 3 0 == 7)) ||
    (x.blk == 0x0C && x.off == 0x0C && x.v 3 0 == 3) ||
    (decide (0x60 ≤ x.blk) && decide (x.blk ≤ 0x67) && x.off == 0x1C && x.v 3 0 == 2)

/-! The values a write may leave (R585, R591 check 8). -/

/-- A coefficient register's word (R266). -/
def coefOk (w : Nat) (p : Bool) : Bool :=
  decide (w < 2 ^ 31) && (w % 2 ^ 24 == 0 || decide (0x800000 ≤ w % 2 ^ 24)) && !(p && w % 2 ^ 24 == 0)

/-- Blocks 0x00 to 0x03: TOP, HOST, INTR, FLT (R597, R610, R673, R674, R697). -/
def State.hostOk (s : State) (x : RegWrite) : Bool :=
  let o := x.off
  if x.blk = 0x00 then x.new == 0xA501
  else if x.blk = 0x01 then
    (if o = 0x1104 then x.ok 6 0 1 64
     else if o = 0x2800 then
       let ci := s.f (HOST.RING_STAT_CI x.port)
       let was := (bitsAt x.old 15 0 + 0x10000 - ci) % 0x10000
       let is := (x.v 15 0 + 0x10000 - ci) % 0x10000
       decide (was ≤ is) && decide (is ≤ 64)
     else true)
  else if x.blk = 0x03 then
    (if o = 0x38 then x.ok 13 0 1 10000
     else if o = 0x3C then x.ok 31 24 1 255 && x.ok 15 0 10 60000
     else if o = 0x40 then x.one 5 else true)
  else true

/-- NV: regions neither overlap nor leave the host pages (R639); LEDGER_S (R637). -/
def State.nvOk (s : State) (x : RegWrite) : Bool :=
  if x.off = 0x1C then x.ok 11 0 10 3600
  else if 0x20 ≤ x.off ∧ x.off < 0x40 then
    let a := x.v 24 16
    let n := x.v 8 0
    let clash := (List.range 8).any (fun j => j != (x.off - 0x20) / 4 && s.on (NV.HREG_EN j) &&
      decide (a < s.f (NV.HREG_FIRST j) + s.f (NV.HREG_PAGES j)) && decide (s.f (NV.HREG_FIRST j) < a + n))
    x.ok 24 16 0 319 && x.ok 8 0 1 320 && decide (a + n ≤ 320) && !(x.v 31 31 == 1 && clash)
  else true

/-- The range of NOM_FREQ of LND[31], "as the output" that OBS selects (R90, R150), in half-Hz and within that of the register: 1 Hz to
1.25 GHz, to 250 MHz for an LVCMOS output, and 150 MHz to 800 MHz behind the prescaler of an `HFOUT` (log entry 78, DEDUCED). -/
def State.obsRange (s : State) : Nat × Nat :=
  let m := s.f (LND.OBS_OUT 31)
  if 24 ≤ m then (300000000, 1600000000)
  else if 4 ≤ s.f (OUT.CFG_FORMAT m) then (2, 500000000)
  else (2, 2500000000)

/-- A landing's registers (R150, R167, R166, R173, R180, R183, R184). -/
def State.lndOk (s : State) (n : Nat) (x : RegWrite) : Bool :=
  let o := x.off
  let half := s.w (LND.NOM_FREQ n)
  if o = 0x04 then
    x.ok 23 16 1 255 && !(n == 30 && x.v 1 1 == 0) &&
      !(x.v 4 4 == 1 && decide (x.v 12 8 < 20) && s.f (LND.CFG_FORMAT (x.v 12 8)) == 6)
  else if o = 0x08 then
    (if 16 ≤ n ∧ n ≤ 19 then x.ok 31 0 1 50000000
     else if n = 30 then x.ok 31 0 20000000 320000000
     else if n = 31 then x.ok 31 0 s.obsRange.1 s.obsRange.2 else x.ok 31 0 1 2500000000) &&
      decide (x.new ≤ 2000000 * s.f (LND.DECIM_DIV n))
  else if o = 0x0C then x.ok 23 0 1 0xFFFFFF && decide (half ≤ 2000000 * x.v 23 0)
  else if o = 0x10 then x.ok 19 0 1 1000000
  else if o = 0x14 then x.ok 7 0 3 255
  else if o = 0x38 then !(x.v 1 0 == 3)
  else if o = 0x44 then x.ok 4 0 0 27
  else true

/-- A selector's registers (R199, R207, R212, R214, R221, R229). -/
def State.selOk (s : State) (n : Nat) (x : RegWrite) : Bool :=
  let o := x.off
  if o = 0x04 then x.ok 31 20 0 1800 && x.ok 15 4 0 1000
  else if o = 0x18 then !x.hits 4 0 || decide (x.v 4 0 < s.ncand n)
  else if 0x100 ≤ o then
    let k := (o - 0x100) / 0x20
    match o % 0x20 with
    | 0x00 => x.ok 11 8 1 15
    | 0x10 => x.ok 31 0 1 2147483647 && decide (s.w (SEL.CAND_LIM_IN n k) ≤ x.new)
    | 0x14 => decide (1 ≤ x.new) && decide (x.new ≤ s.w (SEL.CAND_LIM_OUT n k))
    | 0x18 => x.ok 31 0 1000 1000000000
    | 0x1C => x.ok 31 16 1 65535 && (!(s.entryKind n k).phase || x.ok 15 0 1 65535)
    | _ => true
  else true

/-- A loop's registers (R232, R243, R255, R262, R266 to R268, R273, R280, R284, R296). -/
def State.loopOk (s : State) (n : Nat) (x : RegWrite) : Bool :=
  let o := x.off
  let (lo, hi) := presetRange (s.f (LOOP.CFG_PRESET n))
  if o = 0x08 then decide (lo ≤ x.new) && decide (x.new ≤ hi)
  else if o = 0x0C then x.ok 31 0 1000 1000000000
  else if o = 0x30 then !(x.v 0 0 == 1 && x.v 1 1 == 1)
  else if o = 0x40 then x.ok 31 0 1 1000000000
  else if o = 0x44 then x.ok 31 0 1 2147483647
  else if o = 0x48 then x.ok 31 0 1 86400000
  else if o = 0x50 then coefOk x.new true
  else if o = 0x54 then coefOk x.new false
  else if o = 0x58 then x.ok 12 0 0x80 0x1000
  else if 0x80 ≤ o ∧ o < 0xC0 then
    (if o % 8 = 0 then decide (x.new ≤ s.gearMax n) else x.ok 31 0 1 1000000000)
  else if 0xC0 ≤ o ∧ o < 0xD0 then true
  else if o = 0x100 then
    x.ok 23 16 0 64 && x.ok 11 8 1 13 && x.ok 1 0 0 2 && !(x.v 31 31 == 1 && x.ch 31 31 && (s.hoC n).loaded.isNone)
  else if o = 0x104 ∨ o = 0x110 then x.okS 15 0 (-5120) 16000
  else if o = 0x108 then decide (1 ≤ x.new)
  else if o = 0x10C then x.ok 31 0 0 7200
  else if o = 0x114 then x.ok 31 0 64 12288
  else if o = 0x12C then x.one 3
  else true

/-- An output's registers (R333, R345, R348, R353 to R359). -/
def State.outOk (s : State) (m : Nat) (x : RegWrite) : Bool :=
  let o := x.off
  if o = 0x04 then
    let w := x.v 5 4
    let fm : Nat := ((s.outRec m).map (·.format)).getD 2
    let swing : Bool := if fm ≤ 1 then decide (w ≠ 3) else if fm = 2 then !(w == 3 && decide (m < 24)) else if fm = 3 then decide (w = 0) else true
    (!x.hits 5 4 || swing) && !(x.ch 2 2 && bitAt x.old 0)
  else if o = 0x10 then x.one 3
  else if o = 0x20 then decide (10000 ≤ x.new) && decide (1000000000 % x.new = 0)
  else if o = 0x28 then decide (x.new < s.w (OUT.PERIOD m))
  else if o = 0x2C then x.ok 31 0 1 2147483647
  else true

/-- A port's registers (R402, R414, R422, R426 to R437). -/
def State.prtOk (s : State) (n : Nat) (x : RegWrite) : Bool :=
  let o := x.off
  if o = 0x04 then x.ok 24 16 0 500
  else if o = 0x18 then x.ok 13 0 64 9216
  else if o = 0x20 then x.ok 29 16 100 10000 && x.ok 15 0 1 0xFFFF
  else if o = 0x24 then decide (x.v 31 16 ≤ 256 * s.f (PRT.CFG_BUFS n)) && decide (x.v 15 0 < x.v 31 16)
  else if o = 0x80 then (decide (x.v 20 16 < 16) || x.v 20 16 == 31) && x.ok 7 4 1 15 && x.ok 3 0 1 15
  else if o = 0x8C then x.one 5
  else true

/-- The domain numbers of a PTP profile (R441). -/
def domainRange (profile : Nat) : Nat × Nat := match profile with | 0 => (0, 127) | 1 => (24, 43) | _ => (44, 63)

/-- A PTP engine's registers (R441 to R444, R469, R478, R489). -/
def State.pteOk (s : State) (n : Nat) (x : RegWrite) : Bool :=
  let o := x.off
  let used := s.berth.any (fun y => y.2.kind != 0 && y.2.port == n)
  if o = 0x04 then
    let pr := x.v 6 5
    let (lo, hi) := domainRange pr
    let role := x.v 9 7
    decide (pr ≤ 2) && decide (lo ≤ x.v 17 10) && decide (x.v 17 10 ≤ hi) && decide (x.v 19 18 ≠ 3) &&
      !(used && (x.ch 6 5 || x.ch 17 10 || x.ch 19 18)) &&
      decide (role ≤ 4) && !(role == 4 && pr == 1) && !(role != 0 && s.clockId n == 0)
  else if o = 0x44 then
    x.ok 6 0 1 64 && !(x.v 31 31 == 1 && x.ch 31 31 && (List.range 8).any (fun k =>
      k != n && s.prtBuilt k && s.on (PTE.TS_CTRL_EN k) && s.prtTsc k == s.prtTsc n))
  else if o = 0x48 then
    x.v 4 0 == 31 || !x.ch 4 0 || (match s.selOf (x.v 4 0) with
      | some i => (List.range (s.ncand i)).all (fun k => s.entryKind i k != .berth)
      | none => false)
  else if o = 0x50 then x.ok 31 0 10 1000000
  else if o = 0x54 then x.ok 31 0 0 1000000
  else if o = 0x58 then x.ok 31 24 1 255 && x.ok 15 0 10 65535
  else if o = 0x5C then x.ok 31 0 16 86400
  else if o = 0x60 then x.ok 31 0 1 1000000
  else if o = 0x64 then x.ok 31 0 60 86400
  else if o = 0x70 then x.one 5
  else true

/-- A route (R391, R392, R506): a listed event, a listed task, an event berth's handle, and no event berth's own event to
itself. -/
def State.routeOk (s : State) (x : RegWrite) : Bool :=
  if x.off < 0x1000 then true
  else
    let (e, d, h) := s.routeWith x
    let form :=
      if x.off % 16 = 0 then (eventBlock (x.v 11 0)).isSome
      else if x.off % 16 = 4 then
        (if x.v 12 12 = 1 then decide (x.v 3 0 ≤ 1) else taskBlock (x.v 11 4) && x.v 3 0 == 0)
      else x.new == 0 || hKind x.new == 3
    form && !(bitAt d 12 && s.current h && bitsAt e 11 0 == 0x100 + (s.berthC (hSlot h)).ordinal && hKind h == 3)

/-- The value that a write would leave meets the register's field table and rules. -/
def State.valueOk (s : State) (x : RegWrite) : Bool :=
  let b := x.blk
  let o := x.off
  if b ≤ 0x03 then s.hostOk x
  else if b = 0x05 then o != 0x08 || (x.ok 13 8 0 44 && x.okS 7 0 (-16) 15)
  else if b = 0x07 then s.nvOk x
  else if b = 0x08 then o != 0x18 || x.ok 6 0 1 90
  else if b = 0x0A then s.routeOk x
  else if b = 0x0C then o != 0x04 || (x.ok 25 16 1 600 && x.ok 2 0 0 4)
  else if 0x10 ≤ b ∧ b ≤ 0x2F then s.lndOk (b - 0x10) x
  else if 0x30 ≤ b ∧ b ≤ 0x3F then s.selOk (b - 0x30) x
  else if 0x40 ≤ b ∧ b ≤ 0x5F then s.loopOk (b - 0x40) x
  else if 0x60 ≤ b ∧ b ≤ 0x67 then
    (if o = 0x10 then x.ok 20 16 10 20 && x.ok 13 8 2 63 && x.ok 7 0 1 255
     else o != 0x18 || x.ok 15 0 1 50000)
  else if 0x68 ≤ b ∧ b ≤ 0x83 then s.outOk (b - 0x68) x
  else if 0x88 ≤ b ∧ b ≤ 0x8F then
    (if o = 0x24 then x.ok 31 0 1 109951163
     else if o = 0x28 then !(x.v 17 17 == 1 && x.v 16 16 == 1)
     else o != 0x30 || (x.ok 11 8 1 13 && (!x.hits 4 0 || decide (x.v 4 0 < 16) || x.v 4 0 == 31)))
  else if 0x90 ≤ b ∧ b ≤ 0x97 then s.prtOk (b - 0x90) x
  else if 0x98 ≤ b ∧ b ≤ 0x9F then s.pteOk (b - 0x98) x
  else if b = 0xA0 then
    (if o = 0x10 then x.ok 25 16 1 1000 else if o = 0x14 then x.one 4 else o != 0x1C || x.okS 31 0 (-1000000) 1000000)
  else if b = 0xA1 then o != 0x0C || x.ok 31 0 60 31622400
  else true

/-- The weights of a combined loop with a write of WEIGHT[3]: what is held counts as written (R262). -/
def State.heldWeight (s : State) (n i : Nat) : Nat :=
  (((s.loopC n).heldWeights.getD i none)).getD (s.f (LOOP.WEIGHT_W n i))

/-- A write of WEIGHT[3] whose set does not add up to 1 (R85, R262). A weight in an unused position counts towards the sum, and goes to no
source (log entry 92, DESIGN CHOICE). -/
def State.badWeights (s : State) (x : RegWrite) : Bool :=
  decide (0x40 ≤ x.blk) && decide (x.blk ≤ 0x5F) && x.off == 0xCC &&
    decide (s.heldWeight (x.blk - 0x40) 0 + s.heldWeight (x.blk - 0x40) 1 + s.heldWeight (x.blk - 0x40) 2 + x.v 15 0 ≠ 0x10000)

/-- Check 8 of R591: BAD_ARGUMENT, or LOCKED where the rule of the register says so (R353, R610). -/
def State.valueCode (s : State) (x : RegWrite) : Code :=
  if x.blk = 1 ∧ 0x2000 ≤ x.off ∧ x.off < 0x2800 then
    let ci := s.f (HOST.RING_STAT_CI x.port)
    let used := (s.f (HOST.RING_PI_PI x.port) + 0x10000 - ci) % 0x10000
    if ((x.off - 0x2000) / 0x20 + 64 - ci % 64) % 64 < used then .locked else .ok
  else if 0x60 ≤ x.blk ∧ x.blk ≤ 0x67 ∧ x.off = 0x24 then s.groupRule (x.blk - 0x60) x.new
  else if !s.valueOk x ∨ s.badWeights x then .badArgument
  else if 0x68 ≤ x.blk ∧ x.blk ≤ 0x83 ∧ x.off = 0x04 ∧ x.v 0 0 = 1 ∧ x.ch 0 0 ∧ !s.enableFits [x.blk - 0x68] then .locked
  else .ok

/-- The BUSY bit that posted writes of a block wait for (R594). -/
def State.blockBusy (s : State) (b : Nat) : Bool :=
  if b = 0x04 then s.on FAB.OP_STATUS_BUSY
  else if b = 0x06 then s.on SEC.OP_STATUS_BUSY
  else if b = 0x07 then s.on NV.OP_STATUS_BUSY
  else if b = 0x08 then s.on FLM.OP_STATUS_BUSY
  else if 0x60 ≤ b ∧ b ≤ 0x67 then s.on (APL.STATUS_BUSY (b - 0x60))
  else false

end Sys2Proof.Machine
end

