-- ==== Sys2Proof/Machine/RegEffects.lean ====
section
/-! DEFINITION. What a register write that passes every check does: the register's new content, and what the block makes of it. The
same operations stand behind the commands of the table that ride on a register. -/

namespace Sys2Proof.Machine

/-! The configuration check (R604 to R608). -/

/-- What of a control register counts in the configuration check (R604): no WO or WP field, and none of the exceptions. -/
def RegDef.checkMask (d : RegDef) (b o : Nat) : Nat :=
  let all := 0xFFFFFFFF - d.hidden
  if doorbellReg b o ∨ d.status ∨ b = 0x01 then 0
  else if 0x40 ≤ b ∧ b ≤ 0x5F ∧ (o = 0x50 ∨ o = 0x54) then 0
  else if 0x68 ≤ b ∧ b ≤ 0x83 ∧ o = 0x04 then all - 1
  else if 0x88 ≤ b ∧ b ≤ 0x8F ∧ o = 0x28 then 0
  else if 0x90 ≤ b ∧ b ≤ 0x97 ∧ o = 0x04 then all - 2
  else if 0x90 ≤ b ∧ b ≤ 0x97 ∧ (o = 0x28 ∨ o = 0x2C) then 0
  else all

/-- Put the new content into a control register; a change of a checked field is noted (R607). -/
def State.store (s : State) (d : RegDef) (x : RegWrite) : State :=
  let v := x.new - (x.new &&& d.hidden)
  let s := s.when (((x.old ^^^ v) &&& d.checkMask x.blk x.off) != 0) State.dirty
  if s.w x.key = v then s else s.setw x.key v

/-- A write of the reference (R606). -/
def State.refWritten (s : State) : State :=
  let s := { s with cfg := { s.cfg with reported := false, spoiled := false } }
  ((s.setf HOST.CFGCHK_STAT_DIRTY 0).setf HOST.CFGCHK_STAT_MISMATCH 0).setf HOST.CFGCHK_STAT_COMPARING 1

/-- Passes run (R605). -/
def State.checking (s : State) : Bool := s.landed && s.on HOST.CFGCHK_CTRL_EN

/-- COMMIT (R606, R608). -/
def State.cfgCommit (s : State) : State :=
  let s := { s with cfg := { s.cfg with commit := if s.checking then 1 else 2, reported := false } }
  s.setf HOST.CFGCHK_STAT_MISMATCH 0

/-- EN has been written: passes start anew when it rises. -/
def State.cfgCtrlWritten (s : State) (old : Nat) : State :=
  if s.on HOST.CFGCHK_CTRL_EN ∧ !bitAt old 0 then
    { s with cfg := { s.cfg with commit := if s.cfg.commit = 0 then 0 else 2, spoiled := false } }
  else s

/-! Interrupts (R681, R682). -/

/-- A mask has been written over an old value: sources that become due send one message for each vector (R682). -/
def State.maskWritten (s : State) (p : Port) (k old : Nat) : State :=
  let s := if k = 2 then s.setf ⟨INTR.MASK p 2, 1, 1⟩ 0 else s
  if p ≠ .a ∨ !s.intr.msix then s
  else
    let fresh := (List.range 32).filter (fun j => bitAt old j && s.due .a (32 * k + j))
    let vs := (fresh.map (fun j => s.destA (32 * k + j))).filter (fun v => decide (v < 0x40))
    s.forL vs.eraseDups (fun s v => s.message v)

/-- Word 3 of an MSI-X table entry has been written: an unmasked vector sends the message that was pending (R682). -/
def State.vectorWritten (s : State) (v : Nat) : State :=
  if !bitAt (s.w (msixCtrl v)) 0 ∧ bitAt (s.w (msixPba v)) (v % 32) then
    (s.setf ⟨msixPba v, v % 32, v % 32⟩ 0).message v
  else s

/-! Effects by block. -/

/-- HOST and INTR. -/
def State.hostEffect (s : State) (x : RegWrite) : State :=
  let o := x.off
  if x.blk = 2 then (if o < 0x200 then s.maskWritten x.port ((o - 0x100) / 4) x.old else s)
  else if 0x1000 ≤ o ∧ o < 0x1100 then s.mboxEmpty x.port
  else if 0x3000 ≤ o ∧ o < 0x3400 then (if o % 16 = 12 then s.vectorWritten ((o - 0x3000) / 16) else s)
  else if o = 0x100 then s.cfgCtrlWritten x.old
  else if o = 0x104 then s.refWritten
  else s

/-- AVS_CTRL: the manual code is commanded at the write (R73; log entry 75, DESIGN CHOICE), unless the code is held after a bus error
(R66). -/
def State.avsWritten (s : State) : State :=
  let v := if s.on PWR.AVS_CTRL_MANUAL then s.f PWR.AVS_CTRL_VMAN
    else if s.on PWR.AVS_STATUS_DEFICIT && !s.pwr.fakeDeficit then 44
    else s.pwr.code
  if s.on PWR.AVS_STATUS_BUSERR ∨ s.pwr.code = v then s else s.command v

/-- A new nominal frequency: kind and limits follow (R192); on LND[30], once the image has landed, it is an input selection and voids the
learning of every loop (R272). -/
def State.nomWritten (s : State) (n : Nat) (was : EntryKind) : State :=
  let s := s.when (decide (s.landingKind n ≠ was)) (fun s => s.kindChanged n)
  s.when (n == 30 && s.landed) (fun s => (s.selectInput 30).nomChanged)

/-- SLICE: a manual threshold is a step, and so is its withdrawal, after which FIXED goes back to 0 (R152, R154, R189). Internal landings
have no slicer. -/
def State.sliceWritten (s : State) (n old : Nat) : State :=
  if s.f (LND.CFG_FORMAT n) = 6 then s
  else if s.on (LND.SLICE_MANUAL n) then s.sliceStep n (s.fi (LND.SLICE_MAN_THRESH n))
  else if bitAt old 31 then s.threshStep n (if s.f (LND.CFG_SLICER n) = 0 then 0 else s.fi (LND.SLICE_STAT_THRESH n))
  else s

/-- A landing's registers (R154, R186, R188, R192). -/
def State.lndEffect (s : State) (n : Nat) (was : EntryKind) (x : RegWrite) : State :=
  let o := x.off
  if x.old = x.new then s
  else if o = 0x04 then
    let s := s.setf (LND.STATUS_CAL_HELD n) (s.f (LND.CTRL_CAL_HOLD n))
    (s.restartLanding n).refreshActivity n
  else if o = 0x08 then s.nomWritten n was
  else if o = 0x0C then (s.modLnd n (fun c => { c with filtStamps := 3, filtResults := 3 })).refreshSettling n
  else if o = 0x10 then (s.modLnd n (fun c => { c with filtResults := 3 })).refreshSettling n
  else if o = 0x18 then s.sliceWritten n x.old
  else if o = 0x44 then s.restartLanding n
  else s

/-- A selector's registers. -/
def State.selEffect (s : State) (n : Nat) (x : RegWrite) : State :=
  if x.off = 0x04 then s.selCtrlWritten n x.old
  else if x.off = 0x18 then s.forceWritten n x.old
  else if 0x100 ≤ x.off ∧ x.off % 0x20 = 0 then s.candWritten n ((x.off - 0x100) / 0x20) x.old
  else s

/-- The loop's bandwidth changes at once, by its raw coefficients or its damping: four phase samples settle (R18, R25, R269). -/
def State.settleLoop (s : State) (l : Nat) : State := s.modLoop l (fun c => { c with settle := 4 })

/-- Raw coefficients: held from their writing, and read while RAW is 1 (R266, R267). Setting or withdrawing RAW changes the bandwidth
(R18, R25). -/
def State.rawWritten (s : State) (l old : Nat) : State :=
  let c := s.loopC l
  let s := s.when (s.on (LOOP.CTRL_RAW l) != bitAt old 31) (fun s => s.settleLoop l)
  if s.on (LOOP.CTRL_RAW l) ∧ !bitAt old 31 then
    let s := match c.rawP with | some w => s.setw (LOOP.COEF_P l) w.toNat | none => s
    match c.rawI with | some w => s.setw (LOOP.COEF_I l) w.toNat | none => s
  else s.refreshCoefs l

/-- A write of WEIGHT[i]: held until WEIGHT[3] puts the set in force (R262). -/
def State.weightWritten (s : State) (l i : Nat) (x : RegWrite) : State :=
  if i < 3 then s.modLoop l (fun c => { c with heldWeights := c.heldWeights.set i (some (x.v 15 0)) })
  else
    let put := fun (s : State) (j v : Nat) =>
      s.setChecked (LOOP.WEIGHT l j) (s.w (LOOP.WEIGHT l j) - s.f (LOOP.WEIGHT_W l j) + v)
    let s := s.forN 3 (fun s j => put s j (s.heldWeight l j))
    (put s 3 (x.v 15 0)).modLoop l (fun c => { c with heldWeights := [none, none, none] })

/-- A write of COEF_P or COEF_I (R266). -/
def State.coefWritten (s : State) (l : Nat) (x : RegWrite) : State :=
  let w := BitVec.ofNat 32 x.new
  let s := s.modLoop l (fun c => if x.off = 0x50 then { c with rawP := some w } else { c with rawI := some w })
  if s.on (LOOP.CTRL_RAW l) then (s.setw x.key x.new).settleLoop l else s

/-- A loop's registers (R264, R266, R267, R273, R296, R299). -/
def State.loopEffect (s : State) (n : Nat) (x : RegWrite) : State :=
  let o := x.off
  if o = 0x04 then s.rawWritten n x.old
  else if o = 0x08 then s.modLoop n (fun c => { c with bwNew := true })
  else if o = 0x58 then (s.refreshCoefs n).when (x.old != x.new && !s.on (LOOP.CTRL_RAW n)) (fun s => s.settleLoop n)
  else if o = 0x100 then
    let s := s.when (x.ch 31 31) (fun s => s.modHo n (fun h => { h with ramp := true }))
    let s := s.showRecs n
    if s.loopState n = 3 then s else s.setb (LOOP.HO_STAT_OVR_ACTIVE n) (s.on (LOOP.HO_CTRL_OVR n))
  else if o = 0x114 then s.showRecs n
  else if o = 0x104 then (s.modHo n (fun h => { h with tempAt := s.now })).setf (LOOP.HO_STAT_TEMP_STALE n) 0
  else s

/-- A port's registers. -/
def State.prtEffect (s : State) (n : Nat) (x : RegWrite) : State :=
  if x.off = 0x04 then s.prtCtrlWritten n x.old
  else if x.off = 0x1C then s.txclkWritten n x.old
  else if x.off = 0x38 then s.eqCtrlWritten n x.old
  else if x.off = 0x80 then s.esmcWritten
  else s

/-- A PTP engine's registers: a clockIdentity of 0 disables it; best-master assistance follows its own data (R443, R467). -/
def State.pteEffect (s : State) (n : Nat) (x : RegWrite) : State :=
  if x.off = 0x08 ∨ x.off = 0x0C then
    (if s.clockId n = 0 ∧ s.on (PTE.CTRL_ROLE n) then s.setf (PTE.CTRL_ROLE n) 0 else s).bmca n
  else if x.off = 0x44 then s.when (x.ch 31 31 && bitAt x.new 31) (fun s =>
    (s.modPte n (fun c => { c with perAt := s.now })).forL (s.slotsOn n 2) (fun s j => s.modUp j (fun u => { u with perSum := 0, perN := 0 })))
  else if x.off = 0x48 then s.when (x.ch 4 0) (fun s => s.modPte n (fun c => { c with corrFreq := 0 }))
  else if x.off = 0x04 ∨ (0x28 ≤ x.off ∧ x.off ≤ 0x34) ∨ x.off = 0x4C then s.bmca n
  else s

/-- What a write of a register that is no doorbell does beside storing. -/
def State.regEffect (s : State) (was : EntryKind) (x : RegWrite) : State :=
  let b := x.blk
  if b = 1 ∨ b = 2 then s.hostEffect x
  else if b = 5 then (if x.off = 0x08 then s.avsWritten else s)
  else if b = 9 then (if x.off = 0x14 then s.atomic x.port (x.v 1 0) else s)
  else if b = 0x0C then (if x.off = 0x04 then s.refreshEng else s)
  else if 0x10 ≤ b ∧ b ≤ 0x2F then s.lndEffect (b - 0x10) was x
  else if 0x30 ≤ b ∧ b ≤ 0x3F then s.selEffect (b - 0x30) x
  else if 0x40 ≤ b ∧ b ≤ 0x5F then s.loopEffect (b - 0x40) x
  else if 0x68 ≤ b ∧ b ≤ 0x83 then (if x.off = 0x04 then s.outCtrlWritten (b - 0x68) x.old else s)
  else if 0x88 ≤ b ∧ b ≤ 0x8F then (if x.off = 0x30 then s.refreshTrace else s)
  else if 0x90 ≤ b ∧ b ≤ 0x97 then s.prtEffect (b - 0x90) x
  else if 0x98 ≤ b ∧ b ≤ 0x9F then s.pteEffect (b - 0x98) x
  else if b = 0xA0 then (if x.off = 0x10 then s.xlkCtrlWritten x.old else s)
  else if b = 0xA1 then (if x.off ≤ 0x0C then
      ((s.when (x.off == 0 && x.ch 2 0) (fun s => s.secondBegins)).refreshNext).billCheck (s.f MAN.CFG_TSC) else s)
  else s

/-! Doorbells. -/

/-- Perform an effect for each bit of a command that is 1, in ascending order. -/
def State.eachBit (s : State) (w n : Nat) (g : State → Nat → State) : State :=
  s.forN n (fun s i => if bitAt w i then g s i else s)

/-- A bit of LND[n].CMD (R174, R183). -/
def State.lndCommand (s : State) (p : Port) (n bit : Nat) : State :=
  if bit = 0 then s.fetchResult p n else if bit = 1 then s.fetchCal p n else s.armTdc n

/-- A bit of LOOP[n].CMD or, from 4 on, of HO_CMD (R257 to R259, R271, R294 to R297). -/
def State.loopBit (s : State) (p : Port) (n bit : Nat) : State :=
  s.loopCommand p n bit (fun s =>
    if bit = 0 then s.mboxOut p (s.loopRecord n)
    else if bit = 1 then s.stepLoad p n
    else if bit = 2 then s.stepGo n
    else if bit = 3 then s.stepCancel n
    else if bit = 4 then s.fetchModel p n
    else if bit = 5 then s.loadModel p n
    else s.clearHistory n)

/-- A bit of OUT[m].CMD (R345, R346). -/
def State.outCommand (s : State) (p : Port) (m bit : Nat) : State :=
  if bit = 0 then s.realignOut m else if bit = 1 then s.divLoad p m else s.fetchDiv p m

/-- A bit of FLT.CMD (R669 to R677). -/
def State.fltCommand (s : State) (p : Port) (bit : Nat) : State :=
  if bit = 0 then s.fltPop p
  else if bit = 1 then s.errRelease
  else if bit = 2 then s.trapClear
  else if bit = 3 then s.injArm
  else s.injCancel

/-- A commit of mailbox words (R597). -/
def State.mboxFill (s : State) (p : Port) (n : Nat) : State := s.setw (HOST.MBOX_STAT p) (2 ^ 31 + n)

/-- What a write of a doorbell starts. -/
def State.ring (s : State) (x : RegWrite) : State :=
  let b := x.blk
  let p := x.port
  let w := x.new
  if b = 0x00 then s.topCmd p w
  else if b = 0x01 then
    (if x.off = 0x1104 then s.mboxFill p (x.v 6 0)
     else if x.off = 0x2800 then s.setw (HOST.RING_PI p) (x.v 15 0)
     else s.when (x.v 0 0 == 1) State.cfgCommit)
  else if b = 0x03 then s.eachBit w 5 (fun s i => s.fltCommand p i)
  else if b = 0x04 then s.fabOp p w
  else if b = 0x06 then s.secOp p w
  else if b = 0x07 then s.nvOp p w
  else if b = 0x08 then s.flmOp p w
  else if b = 0x0A then s.swEvents (x.v 15 0)
  else if b = 0x0C then s.when (x.v 3 0 != 0) (fun s => s.engOp (x.v 3 0))
  else if 0x10 ≤ b ∧ b ≤ 0x2F then s.eachBit w 3 (fun s i => s.lndCommand p (b - 0x10) i)
  else if 0x30 ≤ b ∧ b ≤ 0x3F then
    let s := s.setf (SEL.CMD_CAND (b - 0x30)) (x.v 4 0)
    s.when (x.v 8 8 == 1) (fun s => s.readmit (b - 0x30) (x.v 4 0))
  else if 0x40 ≤ b ∧ b ≤ 0x5F then s.eachBit w 4 (fun s i => s.loopBit p (b - 0x40) i)
  else if 0x60 ≤ b ∧ b ≤ 0x67 then
    (if x.off = 0x24 then s.groupDo (b - 0x60) w else s.aplCommand p (b - 0x60) w)
  else if 0x68 ≤ b ∧ b ≤ 0x83 then s.eachBit w 3 (fun s i => s.outCommand p (b - 0x68) i)
  else if 0x88 ≤ b ∧ b ≤ 0x8F then s.tscCommand p (b - 0x88) (x.v 3 0)
  else if 0x90 ≤ b ∧ b ≤ 0x97 then s.eachBit w 5 (fun s i => s.prtCommand p (b - 0x90) i)
  else if 0x98 ≤ b ∧ b ≤ 0x9F then s.eachBit w 5 (fun s i => s.pteCommand p (b - 0x98) i)
  else if b = 0xA0 then s.eachBit w 4 (fun s i => s.xlkCommand p i)
  else s

/-- A write that has passed every check takes effect. -/
def State.perform (s : State) (d : RegDef) (x : RegWrite) : State :=
  if doorbellReg x.blk x.off then s.ring x
  else if 0x40 ≤ x.blk ∧ x.blk ≤ 0x5F ∧ x.off = 0x12C then s.eachBit x.new 3 (fun s i => s.loopBit x.port (x.blk - 0x40) (4 + i))
  else if 0x40 ≤ x.blk ∧ x.blk ≤ 0x5F ∧ 0xC0 ≤ x.off ∧ x.off < 0xD0 then s.weightWritten (x.blk - 0x40) ((x.off - 0xC0) / 4) x
  else if 0x40 ≤ x.blk ∧ x.blk ≤ 0x5F ∧ (x.off = 0x50 ∨ x.off = 0x54) then s.coefWritten (x.blk - 0x40) x
  else
    let was := s.landingKind (x.blk - 0x10)
    (s.store d x).regEffect was x

end Sys2Proof.Machine
end

