-- ==== Sys2Proof/Machine/HostAccess.lean ====
section
/-! DEFINITION. Host accesses to register space (R577 to R595): the checks of R591 in their order, what a write leaves and does, what
a read returns and clears, the frames of host port B, and the resets of host port A. -/

namespace Sys2Proof.Machine

/-! Writes. -/

/-- An access is naturally aligned and its byte enables fill it; port B makes only 32-bit accesses (R579, R587). -/
def accessShape (p : Port) (a : Access) : Bool :=
  a.addr.toNat % a.width.bytes == 0 && a.enables.toNat == 2 ^ a.width.bytes - 1 && (p == .a || a.width == .b4)

/-- The bits of a word that `n` bytes from byte `lane` on take. -/
def laneMask (lane n : Nat) : Nat := (2 ^ (8 * n) - 1) * 2 ^ (8 * lane)

/-- The write of `n` bytes at a BAR0 offset to a register, as the rules see it (R584, R586, R589, R600). -/
def State.regWrite (s : State) (d : RegDef) (p : Port) (addr n data : Nat) : RegWrite :=
  let b := addr / 0x10000
  let lane := addr % 4
  let o := addr % 0x4000 - lane
  let old := s.w (regKey p b o)
  let w := d.writable (s.frozen b o) &&& laneMask lane n
  let v := (data % 2 ^ (8 * n) * 2 ^ (8 * lane)) &&& w
  match addr % 0x10000 / 0x4000 with
  | 0 => ⟨p, b, o, old, old - (old &&& w) + v, w⟩
  | 1 => ⟨p, b, o, old, old ||| v, v⟩
  | 2 => ⟨p, b, o, old, old - (old &&& v), v⟩
  | _ => ⟨p, b, o, old, old ^^^ v, v⟩

/-- Check 3 of R591: an image has landed, or the block is below 0x0A; FAB, NV and FLM answer once start-up has reached them
(R695). -/
def State.landedFor (s : State) (b : Nat) : Bool :=
  (decide (b < 0x0A) || s.landed) && (!(b == 4 || b == 7 || b == 8) || s.storesReady)

/-- Checks 1 and 2 of R591 for a write through a quarter, beyond the existence of the register. -/
def writeAllowed (d : RegDef) (b o q n : Nat) : Bool :=
  !(decide (n < 4) && wideReg b o) &&
    (if d.status then !(q == 1 || q == 3) else q == 0 || !(d.noAlias || doorbellReg b o))

/-- Checks 4, 6, 7 and 8 of R591, with check 5 where the write comes from a host. -/
def State.ruleCode (s : State) (d : RegDef) (host : Bool) (x : RegWrite) : Code :=
  if !s.built x.blk ∨ s.namesUnbuilt x then .locked
  else if host ∧ !portRelative x.blk x.off ∧ !(s.holds x.port x.blk && s.otherHelm x) then .notHelm
  else if !d.status ∧ !s.pilot x.blk ∧ pilotWrite d x then .locked
  else if host ∧ d.posted ∧ s.blockBusy x.blk then .busy
  else if d.status then .ok
  else s.valueCode x

/-- The status of a write of `n` bytes, up to four, at a BAR0 offset (R591). -/
def State.writeCode (s : State) (p : Port) (addr n data : Nat) : Code :=
  let b := addr / 0x10000
  let o := addr % 0x4000 - addr % 4
  match s.regFind p b o with
  | none => .badArgument
  | some d =>
    if !writeAllowed d b o (addr % 0x10000 / 0x4000) n then .badArgument
    else if !s.landedFor b then .notLanded
    else s.ruleCode d true (s.regWrite d p addr n data)

/-- RC bits of a register return to their reset value (R7, R584, R588), with what their clearing undoes (R66). -/
def State.clearBits (s : State) (d : RegDef) (p : Port) (b o m : Nat) : State :=
  let m := d.bits (fun f => f.acc == .rc) &&& m
  let k := regKey p b o
  let s := if m = 0 then s else s.setw k (s.w k - (s.w k &&& m) + (d.resetWord &&& m))
  if k = PWR.AVS_EVENT ∧ bitAt m 2 then s.setf PWR.AVS_STATUS_BUSERR 0
  else s

/-- A write that has passed every check: no effect in the normal view of a status register, its RC bits cleared through the
clear alias, or a control register's write. -/
def State.writeDone (s : State) (p : Port) (addr n data : Nat) : State :=
  let b := addr / 0x10000
  let o := addr % 0x4000 - addr % 4
  match s.regFind p b o with
  | none => s
  | some d =>
    if d.status then
      (if addr % 0x10000 / 0x4000 = 2 then s.clearBits d p b o (data % 2 ^ (8 * n) * 2 ^ (8 * (addr % 4))) else s)
    else s.perform d (s.regWrite d p addr n data)

/-- A refused write of WEIGHT[3] whose set does not add up to 1 discards the held weights (R262). -/
def State.dropHeld (s : State) (p : Port) (addr n data : Nat) (c : Code) : State :=
  match s.regFind p (addr / 0x10000) (addr % 0x4000 - addr % 4) with
  | none => s
  | some d =>
    let x := s.regWrite d p addr n data
    if c = .badArgument ∧ s.badWeights x then s.modLoop (x.blk - 0x40) (fun l => { l with heldWeights := [none, none, none] }) else s

/-- What the check of the upper half of an 8-byte access sees of the lower half, which is performed first, when that is a plain control
register: the value it leaves (R167, R231, R262, R590; log entry 84, DEDUCED). -/
def State.beside (s : State) (p : Port) (addr data : Nat) : State :=
  let b := addr / 0x10000
  let o := addr % 0x4000 - addr % 4
  match s.regFind p b o with
  | none => s
  | some d =>
    let x := s.regWrite d p addr 4 data
    if d.status ∨ doorbellReg b o ∨ b < 0x10 then s
    else if 0x40 ≤ b ∧ b ≤ 0x5F ∧ 0xC0 ≤ o ∧ o < 0xD0 then s.weightWritten (b - 0x40) ((o - 0xC0) / 4) x
    else s.setw x.key x.new

/-- A host's write to register space (R587 to R595): both halves of an 8-byte access are judged before either has an effect, the lower
one by what stands, the upper one by what the lower one leaves. -/
def State.hostWrite (s : State) (p : Port) (a : Access) : State :=
  if !s.reaches p then s
  else
    let addr := a.addr.toNat
    let data := a.data.toNat
    if !accessShape p a then s.busErr p true false addr .badArgument
    else if a.width = .b8 then
      match s.writeCode p addr 4 data,
          (s.beside p addr data).writeCode p (addr + 4) 4 (data / 2 ^ 32) with
      | .ok, .ok => ((s.status p .ok).writeDone p addr 4 data).writeDone p (addr + 4) 4 (data / 2 ^ 32)
      | .ok, c => (s.dropHeld p (addr + 4) 4 (data / 2 ^ 32) c).busErr p true false addr c
      | c, _ => s.busErr p true false addr c
    else
      match s.writeCode p addr a.width.bytes data with
      | .ok => (s.status p .ok).writeDone p addr a.width.bytes data
      | c => (s.dropHeld p addr a.width.bytes data c).busErr p true false addr c

/-- A host's write to the register whose normal view has a given address. -/
def State.hostWriteAt (s : State) (p : Port) (key : Nat) (r : RegAcc) : State :=
  let q := match r.quarter with | .normal => 0 | .setPeek => 1 | .clear => 2 | .toggle => 3
  s.hostWrite p ⟨BitVec.ofNat 24 (key + q * 0x4000 + r.lane), r.width, BitVec.ofNat 8 (2 ^ r.width.bytes - 1), r.data⟩

/-- A whole word written through the normal view. -/
def wholeWord (v : Nat) : RegAcc := ⟨.normal, 0, .b4, BitVec.ofNat 64 v⟩

/-! Reads. -/

/-- What a register shows where its value follows other state: sources due (R681), due vectors (R682), wait-to-restore left,
sticky bits of entries, exclusion, and the nominal frequency in a ramp. -/
def State.shown (s : State) (p : Port) (b o : Nat) : Nat :=
  let w := s.w (regKey p b o)
  if b = 2 ∧ o = 0x300 then s.dueCount p
  else if b = 2 ∧ (o = 0x310 ∨ o = 0x314) then
    ((List.range 32).filter (fun j =>
      (List.range 640).any (fun n => s.due .a n && s.destA n == (o - 0x310) * 8 + j))).foldl (fun a j => a + 2 ^ j) 0
  else if 0x30 ≤ b ∧ b ≤ 0x3F ∧ o = 0x14 then
    ((List.range (s.ncand (b - 0x30))).filter (fun k => s.w (SEL.CAND_EVENT (b - 0x30) k) != 0)).foldl (fun a k => a + 2 ^ k) 0
  else if 0x30 ≤ b ∧ b ≤ 0x3F ∧ 0x100 ≤ o ∧ o % 0x20 = 4 then
    let n := b - 0x30
    let k := (o - 0x100) / 0x20
    let left := if s.cstate n k = 4 then ceilDiv ((s.entC (entKey n k)).wtrEnd - s.now) 2000000000 else 0
    w % 2 ^ 15 + 2 ^ 15 * b2n (s.f (SEL.CAND_CFG_PRIORITY n k) == 0) + 2 ^ 16 * left
  else if 0x60 ≤ b ∧ b ≤ 0x67 ∧ o = 0x0C ∧ (s.aplC (b - 0x60)).run.isSome then
    (roundNear (s.nomNow (b - 0x60)) 1000000000).toNat
  else w

/-- The status of a read of `n` bytes, up to four: checks 1 to 3 of R591. -/
def State.readCode (s : State) (p : Port) (addr : Nat) : Code :=
  let b := addr / 0x10000
  match s.regFind p b (addr % 0x4000 - addr % 4) with
  | none => .badArgument
  | some _ => if s.landedFor b then .ok else .notLanded

/-- The read of the last output word, or of its upper byte, empties a device-filled mailbox (R598). -/
def State.outputRead (s : State) (p : Port) (addr n : Nat) : State :=
  let o := addr % 0x10000
  if addr / 0x10000 = 1 ∧ 0x1000 ≤ o ∧ o < 0x1100 ∧ s.mboxDevice p ∧ (o - 0x1000) / 4 + 1 = s.f (HOST.MBOX_STAT_LEN p) ∧
      addr % 4 + n = 4 then
    (s.mboxEmpty p).setf (HOST.RING_STAT_WAIT_OUT p) 0
  else s

/-- A read of `n` bytes, up to four, that has passed its checks: what it returns, and the state after what it clears (R76, R584,
R588, R598). -/
def State.readDone (s : State) (p : Port) (addr n : Nat) : State × Nat :=
  let b := addr / 0x10000
  let lane := addr % 4
  let o := addr % 0x4000 - lane
  match s.regFind p b o with
  | none => (s, 0)
  | some d =>
    if !s.built b then (s, 0)
    else
      let w := s.shown p b o
      let v := (w - (w &&& d.hidden)) / 2 ^ (8 * lane) % 2 ^ (8 * n)
      let normal := decide (addr % 0x10000 < 0x4000)
      let s := if normal ∧ d.status ∧ (portRelative b o ∨ s.holds p b) then s.clearBits d p b o (laneMask lane n) else s
      (if normal then s.outputRead p addr n else s, v)

/-- The words that a read returned. -/
def State.returned (s : State) (p : Port) (ws : List Nat) : State :=
  s.modHost p (fun h => { h with data := ws.map (BitVec.ofNat 32) })

/-- A host's read of register space (R587, R588, R590, R591). -/
def State.hostRead (s : State) (p : Port) (a : Access) : State :=
  if !s.reaches p then s
  else
    let addr := a.addr.toNat
    if !accessShape p a then s.busErr p false false addr .badArgument
    else if a.width = .b8 then
      match s.readCode p addr, s.readCode p (addr + 4) with
      | .ok, .ok =>
        let w := (s.readDone p (addr + 4) 4).2
        let (s, v) := (s.status p .ok).readDone p addr 4
        (s.readDone p (addr + 4) 4).1.returned p [v, w]
      | .ok, c => s.busErr p false false addr c
      | c, _ => s.busErr p false false addr c
    else
      match s.readCode p addr with
      | .ok =>
        let (s, v) := (s.status p .ok).readDone p addr a.width.bytes
        s.returned p [v]
      | c => s.busErr p false false addr c

/-- A host's read of a number of bytes at a BAR0 offset. -/
def State.hostReadAt (s : State) (p : Port) (addr : Nat) (w : Width) : State :=
  s.hostRead p ⟨BitVec.ofNat 24 addr, w, BitVec.ofNat 8 (2 ^ w.bytes - 1), 0⟩

/-! The commands. -/

/-- REGISTER_WRITE (R591). -/
def execRegisterWrite (p : Port) (a : Access) (s : State) : Host.Outcome State Fault Refusal := .next (s.hostWrite p a)

/-- CLEARING_READ (R588). -/
def execClearingRead (p : Port) (a : Access) (s : State) : Host.Outcome State Fault Refusal := .next (s.hostRead p a)

/-- AVS_EVENT_READ (R66). -/
def execAvsEventRead (p : Port) (s : State) : Host.Outcome State Fault Refusal := .next (s.hostReadAt p PWR.AVS_EVENT .b4)

/-- LND_CTRL_WRITE (R186). -/
def execLndCtrlWrite (p : Port) (n : Fin 32) (a : RegAcc) (s : State) : Host.Outcome State Fault Refusal :=
  .next (s.hostWriteAt p (LND.CTRL n) a)

/-- LND_DECIM_WRITE (R167). -/
def execLndDecimWrite (p : Port) (n : Fin 32) (a : RegAcc) (s : State) : Host.Outcome State Fault Refusal :=
  .next (s.hostWriteAt p (LND.DECIM n) a)

/-- LND_GATE_WRITE (R186). -/
def execLndGateWrite (p : Port) (n : Fin 32) (a : RegAcc) (s : State) : Host.Outcome State Fault Refusal :=
  .next (s.hostWriteAt p (LND.GATE n) a)

/-- LND_NOM_FREQ_WRITE (R167, R192). -/
def execLndNomFreqWrite (p : Port) (n : Fin 32) (a : RegAcc) (s : State) : Host.Outcome State Fault Refusal :=
  .next (s.hostWriteAt p (LND.NOM_FREQ n) a)

/-- LND_OBS_WRITE (R186). -/
def execLndObsWrite (p : Port) (a : RegAcc) (s : State) : Host.Outcome State Fault Refusal :=
  .next (s.hostWriteAt p (LND.OBS 31) a)

/-- LND_SLICE_WRITE (R154). -/
def execLndSliceWrite (p : Port) (n : Fin 32) (a : RegAcc) (s : State) : Host.Outcome State Fault Refusal :=
  .next (s.hostWriteAt p (LND.SLICE n) a)

/-- SEL_FORCE_WRITE (R229). -/
def execSelForceWrite (p : Port) (n : Fin 16) (a : RegAcc) (s : State) : Host.Outcome State Fault Refusal :=
  .next (s.hostWriteAt p (SEL.FORCE n) a)

/-- SEL_CAND_CFG_WRITE (R227). -/
def execSelCandCfgWrite (p : Port) (n : Fin 16) (k : Fin 30) (a : RegAcc) (s : State) : Host.Outcome State Fault Refusal :=
  .next (s.hostWriteAt p (SEL.CAND_CFG n k) a)

/-- LOOP_BW_WRITE (R238). -/
def execLoopBwWrite (p : Port) (n : Fin 32) (a : RegAcc) (s : State) : Host.Outcome State Fault Refusal :=
  .next (s.hostWriteAt p (LOOP.BW n) a)

/-- LOOP_SLOPE_WRITE (R243). -/
def execLoopSlopeWrite (p : Port) (n : Fin 32) (a : RegAcc) (s : State) : Host.Outcome State Fault Refusal :=
  .next (s.hostWriteAt p (LOOP.SLOPE n) a)

/-- LOOP_FREE_FREQ_WRITE (R256). -/
def execLoopFreeFreqWrite (p : Port) (n : Fin 32) (a : RegAcc) (s : State) : Host.Outcome State Fault Refusal :=
  .next (s.hostWriteAt p (LOOP.FREE_FREQ n) a)

/-- LOOP_COEF_WRITE (R266). -/
def execLoopCoefWrite (p : Port) (n : Fin 32) (integral : Bool) (a : RegAcc) (s : State) : Host.Outcome State Fault Refusal :=
  .next (s.hostWriteAt p (if integral then LOOP.COEF_I n else LOOP.COEF_P n) a)

/-- LOOP_DAMP_WRITE (R267). -/
def execLoopDampWrite (p : Port) (n : Fin 32) (a : RegAcc) (s : State) : Host.Outcome State Fault Refusal :=
  .next (s.hostWriteAt p (LOOP.DAMP n) a)

/-- LOOP_WEIGHT_COMMIT (R262). -/
def execLoopWeightCommit (p : Port) (n : Fin 32) (a : RegAcc) (s : State) : Host.Outcome State Fault Refusal :=
  .next (s.hostWriteAt p (LOOP.WEIGHT n 3) a)

/-- HO_TEMP_WRITE (R273). -/
def execHoTempWrite (p : Port) (n : Fin 32) (a : RegAcc) (s : State) : Host.Outcome State Fault Refusal :=
  .next (s.hostWriteAt p (LOOP.HO_TEMP n) a)

/-- HO_OVR_WRITE (R296). -/
def execHoOvrWrite (p : Port) (n : Fin 32) (a : RegAcc) (s : State) : Host.Outcome State Fault Refusal :=
  .next (s.hostWriteAt p (LOOP.HO_CTRL n) a)

/-- OUT_EN_WRITE (R349, R353). -/
def execOutEnWrite (p : Port) (m : Fin 28) (a : RegAcc) (s : State) : Host.Outcome State Fault Refusal :=
  .next (s.hostWriteAt p (OUT.CTRL m) a)

/-- ROUTE_WRITE (R391, R396): word w of route r. -/
def execRouteWrite (p : Port) (r : Fin 256) (w : Fin 3) (a : RegAcc) (s : State) : Host.Outcome State Fault Refusal :=
  .next (s.hostWriteAt p (EVR.ROUTE_SRC r + 4 * w) a)

/-- PRT_DORMANT_WRITE (R409). -/
def execPrtDormantWrite (p : Port) (n : Fin 8) (a : RegAcc) (s : State) : Host.Outcome State Fault Refusal :=
  .next (s.hostWriteAt p (PRT.CTRL n) a)

/-- PRT_TXCLK_WRITE (R403). -/
def execPrtTxclkWrite (p : Port) (n : Fin 8) (a : RegAcc) (s : State) : Host.Outcome State Fault Refusal :=
  .next (s.hostWriteAt p (PRT.TXCLK n) a)

/-- PRT_ADMIN_WRITE (R406). -/
def execPrtAdminWrite (p : Port) (n : Fin 8) (a : RegAcc) (s : State) : Host.Outcome State Fault Refusal :=
  .next (s.hostWriteAt p (PRT.CTRL n) a)

/-- XLK_ADMIN_WRITE (R534). -/
def execXlkAdminWrite (p : Port) (a : RegAcc) (s : State) : Host.Outcome State Fault Refusal :=
  .next (s.hostWriteAt p XLK.CTRL a)

/-- MBOX_WORD_WRITE (R597). -/
def execMboxWordWrite (p : Port) (k : Fin 64) (v : Word) (s : State) : Host.Outcome State Fault Refusal :=
  .next (s.hostWriteAt p (HOST.MBOX .a k) (wholeWord v.toNat))

/-- MBOX_COMMIT (R597). -/
def execMboxCommit (p : Port) (v : Word) (s : State) : Host.Outcome State Fault Refusal :=
  .next (s.hostWriteAt p (HOST.MBOX_COMMIT .a) (wholeWord v.toNat))

/-- MBOX_LAST_READ (R598): a read that ends with the last output word. -/
def execMboxLastRead (p : Port) (w : Width) (s : State) : Host.Outcome State Fault Refusal :=
  let last := HOST.MBOX .a (s.f (HOST.MBOX_STAT_LEN p) - 1)
  .next (s.hostReadAt p (match w with | .b8 => last / 8 * 8 | _ => last + (4 - w.bytes)) w)

/-- RING_PI_WRITE (R610). -/
def execRingPiWrite (p : Port) (v : Word) (s : State) : Host.Outcome State Fault Refusal :=
  .next (s.hostWriteAt p (HOST.RING_PI .a) (wholeWord v.toNat))

/-- CFGCHK_COMMIT (R606). -/
def execCfgchkCommit (p : Port) (s : State) : Host.Outcome State Fault Refusal :=
  .next (s.hostWriteAt p HOST.CFGCHK_CMD (wholeWord 1))

/-- CFGCHK_REF_WRITE (R606). -/
def execCfgchkRefWrite (p : Port) (a : RegAcc) (s : State) : Host.Outcome State Fault Refusal :=
  .next (s.hostWriteAt p HOST.CFGCHK_REF a)

/-- INTR_MASK_WRITE (R681, R682). -/
def execIntrMaskWrite (p : Port) (k : Fin 20) (a : RegAcc) (s : State) : Host.Outcome State Fault Refusal :=
  .next (s.hostWriteAt p (INTR.MASK .a k) a)

/-- MSIX_ENABLE (R107): from now on vector-routed sources use messages, or the pin. -/
def execMsixEnable (on : Bool) (s : State) : Host.Outcome State Fault Refusal :=
  .next (if s.reaches .a then { s with intr := { s.intr with msix := on } } else s)

/-! The configuration check (R604 to R608). -/

/-- The bytes of one register's contribution. -/
def State.checkBytes (s : State) (p : Port) (d : RegDef) (b o : Nat) : List Byte :=
  leBytes 4 (s.w (regKey p b o) &&& d.checkMask b o)

/-- The bytes that a register offset of a block contributes: those of a checked register; of INTR.MASK both ports' copies. -/
def State.checkedAt (s : State) (b o : Nat) : List Byte :=
  match s.regFind .a b o with
  | none => []
  | some d =>
    if d.status ∨ doorbellReg b o then []
    else if portRelative b o then s.checkBytes .a d b o ++ s.checkBytes .b d b o
    else s.checkBytes .a d b o

/-- The CRC of the checked registers (R604, R605). -/
def State.checkCrc (s : State) : Nat :=
  let blocks := (List.range 256).filter (fun b => b != 1 && s.built b)
  crc32c (blocks.flatMap (fun b => (List.range 4096).flatMap (fun i => s.checkedAt b (4 * i))))

/-- A pass gives the reference (R606). -/
def State.takeReference (s : State) (v : Nat) : State :=
  let s := { s with cfg := { s.cfg with commit := 0 } }
  ((s.setf HOST.CFGCHK_REF_CRC v).setf HOST.CFGCHK_STAT_DIRTY 0).setf HOST.CFGCHK_STAT_COMPARING 1

/-- A pass is compared with the reference (R608). -/
def State.compareReference (s : State) (v : Nat) : State :=
  let bad := !s.on HOST.CFGCHK_STAT_DIRTY && s.on HOST.CFGCHK_STAT_COMPARING && s.w HOST.CFGCHK_REF != v
  let tell := bad && !s.cfg.reported
  let s := { s with cfg := { s.cfg with
    commit := if s.cfg.commit = 1 then 2 else s.cfg.commit, reported := s.cfg.reported || bad } }
  (s.when bad (fun s => s.setf HOST.CFGCHK_STAT_MISMATCH 1)).when tell (fun s => s.report 0x40 0x14 v)

/-- CFGCHK_PASS (R605 to R608): a pass during which DIRTY became 1 is discarded. -/
def execCfgchkPass (s : State) : Host.Outcome State Fault Refusal :=
  if !s.checking then .next s
  else if s.cfg.spoiled then
    .next { s with cfg := { s.cfg with spoiled := false, commit := if s.cfg.commit = 1 then 2 else s.cfg.commit } }
  else
    let v := s.checkCrc
    let s := (s.setf HOST.CFGCHK_LAST_CRC v).incWrap HOST.CFGCHK_STAT_PASSES
    .next (if s.cfg.commit = 2 then s.takeReference v else s.compareReference v)

/-! Host port B (R579 to R582). -/

/-- A valid address word (R580). -/
def qspiAddr (w : Nat) : Bool := bitsAt w 30 26 == 0 && (bitAt w 31 || decide (w % 2 ^ 26 < 0x1000000))

/-- Read one word of a frame, at a number of words past the address word. -/
def State.qspiReadWord (s : State) (w i : Nat) : State × Code × Nat :=
  let a := w % 2 ^ 26 + 4 * i
  if bitAt w 31 then
    let (s, c, bs) := s.hostWindowRead .b a 4
    (s, c, ofLe bs)
  else if 0x1000000 ≤ a then (s.busErr .b false false (a % 2 ^ 26) .badArgument, .badArgument, 0)
  else
    let t := s.hostReadAt .b a .b4
    (t, t.hostB.code, ((t.hostB.data.headD 0).toNat))

/-- The words of a read burst: the first failed access stops it, and later words read as 0 (R582). -/
def State.qspiWords (s : State) (w : Nat) : Nat → Nat → List Nat → State × Code × List Nat
  | 0, _, ws => (s, .ok, ws)
  | n + 1, i, ws =>
    match s.qspiReadWord w i with
    | (s, .ok, v) => s.qspiWords w n (i + 1) (ws ++ [v])
    | (s, c, _) => (s, c, ws ++ List.replicate (n + 1) 0)

/-- A read frame of `n` words (R580 to R582). -/
def State.qspiReadFrame (s : State) (w n : Nat) : State :=
  if !s.reaches .b then s
  else
    let s := s.modHost .b (fun h => { h with frame := true, data := [] })
    if n = 0 ∨ 64 < n then s.busErr .b false (bitAt w 31) (w % 2 ^ 26) .badArgument
    else if !qspiAddr w then
      (s.busErr .b false (bitAt w 31) (w % 2 ^ 26) .badArgument).returned .b (List.replicate n 0)
    else
      let (s, c, ws) := s.qspiWords w n 0 []
      (s.status .b c).returned .b ws

/-- Write one word of a frame. -/
def State.qspiWriteWord (s : State) (w i : Nat) (v : Word) : State :=
  let a := w % 2 ^ 26 + 4 * i
  if bitAt w 31 then s.hostWindow .b a (leBytes 4 v.toNat)
  else if 0x1000000 ≤ a then s.busErr .b true false (a % 2 ^ 26) .badArgument
  else s.hostWrite .b ⟨BitVec.ofNat 24 a, .b4, 0xF, BitVec.ofNat 64 v.toNat⟩

/-- The words of a write burst: the first failed access stops it (R582). -/
def State.qspiPut (s : State) (w : Nat) : Nat → List Word → State
  | _, [] => s
  | i, v :: vs =>
    let t := s.qspiWriteWord w i v
    if t.hostB.code = .ok then t.qspiPut w (i + 1) vs else t

/-- A write frame (R580 to R582). -/
def State.qspiWriteFrame (s : State) (w : Nat) (ws : List Word) : State :=
  if !s.reaches .b then s
  else
    let s := s.modHost .b (fun h => { h with frame := true, data := [] })
    if ws.isEmpty ∨ 64 < ws.length ∨ !qspiAddr w then s.busErr .b true (bitAt w 31) (w % 2 ^ 26) .badArgument
    else s.qspiPut w 0 ws

/-- QSPI_READ (R581). -/
def execQspiRead (addr : Word) (n : Nat) (s : State) : Host.Outcome State Fault Refusal := .next (s.qspiReadFrame addr.toNat n)

/-- QSPI_QREAD (R581): as READ, on four lines. -/
def execQspiQread (addr : Word) (n : Nat) (s : State) : Host.Outcome State Fault Refusal := .next (s.qspiReadFrame addr.toNat n)

/-- QSPI_WRITE (R581). -/
def execQspiWrite (addr : Word) (words : List Word) (s : State) : Host.Outcome State Fault Refusal :=
  .next (s.qspiWriteFrame addr.toNat words)

/-- QSPI_QWRITE (R581): as WRITE, on four lines. -/
def execQspiQwrite (addr : Word) (words : List Word) (s : State) : Host.Outcome State Fault Refusal :=
  .next (s.qspiWriteFrame addr.toNat words)

/-- QSPI_PSTAT (R581): HOST.EVENT as a peek. -/
def execQspiPstat (s : State) : Host.Outcome State Fault Refusal :=
  if !s.reaches .b then .next s
  else
    let s := s.modHost .b (fun h => { h with frame := true })
    .next (s.returned .b [s.w (HOST.EVENT .b) % 64])

/-- QSPI_CS_RISE (R582): the frame ends; its whole words have been performed. -/
def execQspiCsRise (s : State) : Host.Outcome State Fault Refusal :=
  .next (s.modHost .b (fun h => { h with frame := false }))

/-! Host port A (R577, R578, R617). -/

/-- The link of port A has a speed and a width, or is down; EVENT.LINK tells when it went up or down (R617). -/
def State.linkA (s : State) (speed width : Nat) : State :=
  let was := s.on (HOST.PORT_SPEED .a)
  let s := (s.setf (HOST.PORT_SPEED .a) speed).setf (HOST.PORT_WIDTH .a) width
  s.evIf (was != decide (speed ≠ 0)) (HOST.EVENT_LINK .a)

/-- The port's configuration space, MSI-X table, mailbox, ring and error log take their reset values (R578). -/
def State.resetPortA (s : State) : State :=
  let gone := fun (k : Nat) => decide (0x10000 ≤ k) && decide (k < 0x14000) &&
    (k == HOST.ERR_STAT .a || k == HOST.ERR_ADDR .a || decide (0x11000 ≤ k))
  { s with regs := s.regs.filter (fun x => !gone x.1), intr := { s.intr with msix := false }
           hostA := { inReset := s.hostA.inReset, inD3 := s.hostA.inD3 } }

/-- PCIE_RESET (R578, R616). -/
def execPcieReset (k : PcieReset) (s : State) : Host.Outcome State Fault Refusal :=
  match k with
  | .perst => .next ((s.linkA 0 0).resetPortA.modHost .a (fun h => { h with inReset := true, inD3 := false }))
  | .perstRelease => .next (s.modHost .a (fun h => { h with inReset := false }))
  | .hot => .next s.resetPortA
  | .flr => .next s.resetPortA
  | .d3hot => .next (s.resetPortA.modHost .a (fun h => { h with inD3 := true }))
  | .backToD0 => .next (s.modHost .a (fun h => { h with inD3 := false }))

/-- PCIE_LINK_CHANGE (R617). -/
def execPcieLinkChange (speed width : BitVec 4) (s : State) : Host.Outcome State Fault Refusal :=
  .next (if s.hostA.inReset then s else s.linkA speed.toNat width.toNat)

end Sys2Proof.Machine
end

