-- ==== Sys2Proof/Machine/Pins.lean ====
section
/-! DEFINITION. The states of the signal balls while their block does not drive them (22_electrical_and_package.md, R718). -/

namespace Sys2Proof.Machine

/-- The groups of signal balls whose states R718 gives. -/
inductive Balls where
  | out (m : Fin 28)
  | todout (k : Fin 2)
  | portTx (n : Fin 8)
  | portRx (n : Fin 8)
  | xlkTx
  | xlkRx
  | refin (k : Fin 16)
  | evin (k : Fin 4)
  | error
  | interrupts
  | flashMaster
  | avsBus
  deriving DecidableEq, Repr

/-- The state of a ball: driven or received as its block has it (`active`), or one of the states of R718; `idle` is that of a bus
master held in reset: its clock low, its select high and its data in high impedance. -/
inductive BallState where
  | active
  | highImpedance
  | pulledUp
  | electricalIdle
  | receiverOff
  | terminationOff
  | released
  | idle
  deriving DecidableEq, Repr

/-- The off state of a group (R76, R718). -/
def Balls.off : Balls → BallState
  | .out _ => .highImpedance
  | .todout _ => .pulledUp
  | .portTx _ | .xlkTx => .electricalIdle
  | .portRx _ | .xlkRx => .receiverOff
  | .refin _ | .evin _ => .terminationOff
  | .error | .interrupts => .released
  | .flashMaster | .avsBus => .idle

/-- The group's block is built; the last four groups have no such state (R76, R718). -/
def Balls.isBuilt (s : State) : Balls → Bool
  | .out m => (s.outRec m).isSome
  | .todout k => (s.todRec k).isSome
  | .portTx n | .portRx n => s.prtBuilt n
  | .xlkTx | .xlkRx => s.xlkBuilt
  | .refin k => s.lndBuilt k
  | .evin k => s.lndBuilt (16 + k)
  | .error | .interrupts | .flashMaster | .avsBus => true

/-- The state of a group of balls (R718): the flash master becomes active in step 6 of R693 and the AVSBus in step 3, every other
group at the first landing since cold reset, where its block is built. -/
def State.balls (s : State) (g : Balls) : BallState :=
  let up : Bool := match g with
    | .flashMaster => decide (s.top.phase = .nv ∨ s.top.phase = .flm ∨ s.top.phase = .running)
    | .avsBus => decide (s.top.phase ≠ .held ∧ s.top.phase ≠ .straps)
    | _ => decide (s.top.phase ≠ .held) && s.top.landedOnce && g.isBuilt s
  if up then .active else g.off

end Sys2Proof.Machine
end

