-- ==== Sys2Proof/Machine/Startup.lean ====
section
/-! DEFINITION. Verification and loading of images, and the landing (R114 to R118, R128 to R149, R264, R321 to R324, R340, R350, R351, R408,
R557, R562, R630, R693): what each part of the device carries into the structure that an image describes. -/

namespace Sys2Proof.Machine

/-! The registers that an image sets. -/

/-- SHAPE, the quotas, HELM, PILOT, SPMAP, the interrupt routes and MEM.STATUS.POWERED (R98, R100, R102, R105, R106, R619). -/
def State.buildFab (s : State) (i : Image) : State :=
  let s := s.setf FAB.SHAPE_PORT_EN (((List.range 8).filter (fun n => i.port n)).foldl (fun a n => a + 2 ^ n) 0)
  let s := (s.setb FAB.SHAPE_XLK_EN i.xlk.isSome).setf FAB.SHAPE_TSCS i.timescales.length
  let s := s.setf FAB.SHAPE_SELS ((List.range 16).filter (fun n => i.selector n)).length
  let s := s.setf FAB.SHAPE_LOOPS i.loops.length
  let s := (s.setf FAB.QUOTA_A_CLIENT (i.quotas.getD 0 0)).setf FAB.QUOTA_A_UPSTREAM (i.quotas.getD 1 0)
  let s := (s.setf FAB.QUOTA_B_EVENT (i.quotas.getD 2 0)).setf FAB.QUOTA_B_MEASURE (i.quotas.getD 3 0)
  let s := s.forN 16 (fun s k =>
    s.setw (FAB.HELM k) ((List.range 16).foldl (fun a j => a + i.helm.getD (16 * k + j) 0 * 4 ^ j) 0))
  let s := s.forN 8 (fun s k =>
    s.setw (FAB.PILOT k) ((List.range 32).foldl (fun a j => a + b2n (i.pilot.getD (32 * k + j) false) * 2 ^ j) 0))
  let sp := fun (n : Nat) =>
    match i.spmap[n]? with
    | some r => r.inst % 256 + r.cls % 16 * 2 ^ 8 + b2n r.keep * 2 ^ 15
    | none => 0
  let s := s.forN 64 (fun s n => s.setw (FAB.SPMAP n) (sp (2 * n) + sp (2 * n + 1) * 2 ^ 16))
  let s := s.forL i.routes.zipIdx (fun s x => (s.setf (INTR.ROUTE_DEST_A x.2) x.1.1).setf (INTR.ROUTE_PIN_B x.2) x.1.2)
  s.setf MEM.STATUS_POWERED (i.spmap.filter (fun r => r.cls != 0)).length

/-- What a built landing without a LANDINGS record takes (R77). -/
def plainLanding (n : Nat) : LandingRec := LandingRec.mk n 6 0 0 0xFF 0

/-- CFG of a landing; the nominal frequency of a recovered clock (R150); the path delay characterised for the landing, which only the
device knows (log entry 3, DESIGN CHOICE). -/
def State.buildLanding (s : State) (i : Image) (n : Nat) : State :=
  let r := (i.landings.find? (fun r => r.landing == n)).getD (plainLanding n)
  let s := ((s.setf (LND.CFG_FORMAT n) r.format).setf (LND.CFG_TERM n) r.term).setf (LND.CFG_SLICER n) r.slicer
  let s := (s.setf (LND.CFG_BOUND n) r.bound).setf (LND.CFG_HIST_SP n) r.histSp
  let ten := i.ports.any (fun p => p.port + 20 == n && p.mode == 1)
  let s := if 20 ≤ n ∧ n ≤ 29 then s.setw (LND.NOM_FREQ n) (if ten then 312500000 else 781250000) else s
  let k := s.free 32
  s.took.setw (LND.PATH n) k

/-- CFG, REVERTIVE and the entries of a selector with their default limits (R82, R199, R208). -/
def State.buildSelector (s : State) (i : Image) (r : SelectorRec) : State :=
  let n := r.selector
  let s := (s.setf (SEL.CFG_REV_IMG n) r.revertive).setf (SEL.CTRL_REVERTIVE n) r.revertive
  let s := s.setf (SEL.CFG_LOOPS n) (i.loops.filter (fun l => l.inKind == 0 && l.inIdx == n)).length
  let s := s.setf (SEL.CFG_NCAND n) r.entries.length
  s.forL r.entries.zipIdx (fun s x =>
    let k := x.2
    let s := ((s.setf (SEL.CAND_CFG_WHO n k) x.1.cand).setf (SEL.CAND_CFG_SOURCE n k) x.1.qlSource).setf
      (SEL.CAND_CFG_PRIORITY n k) x.1.priority
    (s.setf (SEL.CAND_STATE_CSTATE n k) (if x.1.cand < 0x80 then 1 else 0)).loadLimits n k)

/-- The default phase-slope limit of a preset, in ps/s (R232, R243). -/
def presetSlope : Nat → Nat
  | 0 | 1 | 2 => 1000000 | 3 | 4 => 25000 | 5 => 10000000 | _ => 100000000

/-- The default lock criteria of a preset: LOCK_PH in ps, LOCK_FR in 2⁻⁴⁰, LOCK_DWELL in ms (R255). -/
def presetLock : Nat → Nat × Nat × Nat
  | 0 | 1 => (10000, 10995, 2000)
  | 2 => (20000, 1100, 30000)
  | 3 => (50000, 110, 1800000)
  | 4 => (100000, 1100, 300000)
  | 5 => (1000, 1100, 100)
  | _ => (100, 10995, 10)

/-- The engine that carries a loop. -/
def State.engineFor (s : State) (l : Nat) : Option Nat :=
  (List.range 36).find? (fun e => (s.engState e == 1 || s.engState e == 4) && s.f (ENG.ENGINE_LOOP e) == l)

/-- CFG, the default bandwidth, slope and lock criteria, and the combination weights of a loop (R84, R85, R243, R255, R265). -/
def State.buildLoop (s : State) (i : Image) (r : LoopRec) : State :=
  let l := r.loop
  let s := ((s.setf (LOOP.CFG_PRESET l) r.preset).setf (LOOP.CFG_INKIND l) r.inKind).setf (LOOP.CFG_INIDX l)
    (if r.inKind = 2 then 0x1F else r.inIdx)
  let s := (s.setf (LOOP.CFG_TKIND l) r.tKind).setf (LOOP.CFG_TIDX l) r.tIdx
  let (ph, fr, dw) := presetLock r.preset
  let s := ((s.setw (LOOP.LOCK_PH l) ph).setw (LOOP.LOCK_FR l) fr).setw (LOOP.LOCK_DWELL l) dw
  let s := ((s.setw (LOOP.BW l) r.bwUhz).setw (LOOP.SLOPE l) (presetSlope r.preset)).setf (LOOP.STATUS_ENGINE l)
    ((s.engineFor l).getD l)
  let src := ((i.combine.find? (fun c => c.loop == l)).map CombineRec.sources).getD []
  let s := if r.inKind ≠ 2 then s else s.forN 4 (fun s k =>
    let x := src.getD k (0xFF, 0)
    (s.setf (LOOP.WEIGHT_SRC l k) x.1).setf (LOOP.WEIGHT_W l k) x.2)
  (s.modLoop l (fun c => { c with bw := r.bwUhz })).refreshCoefs l

/-- CFG of a synthesiser: f_PFD is twice the frequency of `XOIN` (R327). -/
def State.buildSynth (s : State) (i : Image) (n : Nat) : State :=
  let by_ := i.loops.find? (fun r => r.tKind == 0 && r.tIdx == n)
  let s := s.setf (APL.CFG_PFD_KHZ n) s.pfdKhz
  match by_ with
  | some r => (s.setf (APL.CFG_STEERED n) 1).setf (APL.CFG_LOOP n) r.loop
  | none => s

/-- CFG of an output (R91, R92, R348). -/
def State.buildOutput (s : State) (r : OutputRec) : State :=
  let m := r.number
  let s := (s.setf (OUT.CFG_KIND m) (if 24 ≤ m then 2 else if r.pulse then 1 else 0)).setf (OUT.CFG_ANCHOR m)
    (if r.anchor < 8 then r.anchor else 0xF)
  let s := ((s.setf (OUT.CFG_SQUELCH m) r.squelch).setf (OUT.CFG_VDRV m) r.drive).setf (OUT.CFG_SYNTH m) r.synth
  (s.setf (OUT.CFG_FORMAT m) r.format).setf (OUT.CFG_INIT_EN m) r.initEn

/-- CFG and threshold of a time scale (R377, R380). -/
def State.buildTsc (s : State) (i : Image) (r : TimescaleRec) : State :=
  let k := r.index
  let s := match i.loops.find? (fun l => l.tKind == 2 && l.tIdx == k) with
    | some l => (s.setf (TSC.CFG_TIED k) 1).setf (TSC.CFG_LOOP k) l.loop
    | none => s
  (s.modTsc k (fun c => { c with thresh := r.threshNs, imageThresh := r.threshNs })).setw (TSC.THRESH32 k) (satBits 32 r.threshNs)

/-- RX_FIXED and TX_FIXED of a port mode of PORTS, in ps (R413). -/
def modeLatency : Nat → Nat × Nat
  | 1 => (21640, 14380) | 2 => (9860, 6340) | _ => (118420, 22760)

/-- The lowest-numbered synthesiser that the image builds (R95). -/
def Image.firstSynth (i : Image) : Nat := ((List.range 8).find? (fun n => (i.synth n).isSome)).getD 0

/-- CFG of a port and of its PTP engine, the buffer's watermarks, the transmit reference and the fixed latencies (R42, R95, R413,
R426, R428). -/
def State.buildPort (s : State) (i : Image) (r : PortRec) : State :=
  let n := r.port
  let bufs := (i.spmap.filter (fun x => x.cls == 2 && x.inst == n)).length
  let s := ((s.setf (PRT.CFG_BUFS n) bufs).setf (PRT.CFG_TSC n) r.tsc).setf (PRT.CFG_MODE n) (r.mode - 1)
  let s := (s.setf (PRT.WMARK_HIGH n) (bufs * 192)).setf (PRT.WMARK_LOW n) (bufs * 64)
  let s := (s.setw (PRT.TS_RX n) (modeLatency r.mode).1).setw (PRT.TS_TX n) (modeLatency r.mode).2
  (s.setf (PRT.TXCLK_APL n) i.firstSynth).setf (PTE.CFG_TSC n) r.tsc

/-- CFG, CFG2, the presentation period and the fixed latencies of the lanes (R413, R526, R527). -/
def State.buildXlk (s : State) (b : List Byte) : State :=
  let orElse := fun (v d : Nat) => if v = 0 then d else v
  let s := ((s.setf XLK.CFG_CARD (beAt b 0 1)).setf XLK.CFG2_TXCLK (beAt b 1 1)).setf XLK.CFG_FOLLOW (beAt b 2 2)
  let s := ((s.setf XLK.CFG_TSMASK (beAt b 4 1)).setf XLK.CFG2_PAIR_TSC (beAt b 5 1)).setf XLK.CFG2_HB_US (orElse (beAt b 6 1) 20)
  let s := (s.setf XLK.CFG2_HB_MISS (orElse (beAt b 7 1) 5)).setf XLK.CTRL_TS_PERIOD (orElse (beAt b 8 2) 10)
  let s := ((s.setf XLK.CFG2_QL_SEL (beAt b 0xA 1)).setf XLK.CFG_HO_QL (beAt b 0xB 1)).setf XLK.CFG_BERTH_REP (beAt b 0xC 1)
  s.forN 2 (fun s k => (s.setw (XLK.LANE_TS_RX k) 9860).setw (XLK.LANE_TS_TX k) 6340)

/-- The structure is built: every register that takes its reset value from the image (R6, R75). -/
def State.buildStructure (s : State) (i : Image) : State :=
  let s := { s with fab := { s.fab with img := some i } }
  let s := (s.buildFab i).forL ((List.range 32).filter (fun n => i.landing n)) (fun s n => s.buildLanding i n)
  let s := if i.landing 31 then
      s.setf (LND.OBS_OUT 31) (((List.range 28).find? (fun m => (i.output m).isSome)).getD 0) else s
  let s := s.forL (i.selectors.filter (fun r => i.selector r.selector)) (fun s r => s.buildSelector i r)
  let s := s.forL i.loops (fun s r => s.buildLoop i r)
  let s := s.forL i.synths (fun s r => s.buildSynth i r.number)
  let s := (s.forL i.outputs State.buildOutput).forL i.timescales (fun s r => s.buildTsc i r)
  let s := s.forL (i.ports.filter (fun r => r.mode != 0)) (fun s r => s.buildPort i r)
  match i.xlk with
  | some x => s.buildXlk x.bytes
  | none => s

/-! The preload (R128, R129). -/

/-- What applying preload entries comes to: the state, the number of the first entry that breaks R129, whether an entry has
started a full reset, which ends the load, and the number of the entry at which FAB waits for a BUSY bit. -/
structure Preloaded where
  st : State
  bad : Option Nat
  reset : Bool
  wait : Option Nat := none

/-- One preload entry: its 32-bit write in the normal view, free of the helm (R129). A status register takes no effect from it (R584); a
posted write waits while its block is BUSY, except on trial. -/
def Preloaded.step (trial : Bool) (u : Preloaded) (x : PreloadRec × Nat) : Preloaded :=
  if u.bad.isSome ∨ u.reset ∨ u.wait.isSome then u
  else
    let e := x.1
    let s := u.st
    let addr := e.block * 0x10000 + e.offset
    let fail := { u with bad := some x.2 }
    if e.zero ≠ 0 ∨ e.offset % 4 ≠ 0 ∨ 0x4000 ≤ e.offset then fail
    else
      match s.regFind .a e.block e.offset with
      | none => fail
      | some d =>
        let w := s.regWrite d .a addr 4 e.value.toNat
        if d.dom ≠ .full ∨ !s.built e.block ∨ s.ruleCode d false w ≠ .ok then fail
        else if d.status then u
        else if !trial ∧ d.posted ∧ s.blockBusy e.block then { u with wait := some x.2 }
        else
          let s := s.perform d w
          { u with st := s, reset := s.top.resetting }

/-- Apply the preload of an image, from an entry on, to the structure built from it. -/
def State.preload (s : State) (i : Image) (trial : Bool) (k : Nat) : Preloaded :=
  (i.preload.zipIdx.drop k).foldl (Preloaded.step trial) ⟨{ s with top := { s.top with resetting := false } }, none, false, none⟩

/-- The first preload entry that would be refused, tried on a device on which the image has just been built (R129, check 11 of
R131). A full reset that an entry orders is left out. -/
def State.preloadBad (s : State) (i : Image) : Option Nat :=
  let i := { i with preload := i.preload.filter (fun e => !(e.block == 0 && e.offset == 0xC && e.value == 0xA501)) }
  (((({ s with fab := { s.fab with img := some i } } : State).fullCores.resetFull).buildStructure i).dirty.preload i true 0).bad

/-- Verification with every check (R131). -/
def State.judgeFull (s : State) (b : List Byte) (len : Nat) (signer : Option (List Byte)) (full : Bool) : Verdict :=
  match s.judgeImage b len signer full with
  | .bad c o => .bad c o
  | .good i p =>
    match s.preloadBad i with
    | some k => .bad 0x09 (Sys2Proof.Machine.offsetOf p 0xC + 8 * k)
    | none => .good i p

/-- Verify what lies in the slipway, of a length. -/
def State.judgeSlipway (s : State) (len : Nat) (signer : Option (List Byte)) (full : Bool) : Verdict :=
  s.judgeFull (s.bytes slipBase (min len slipSize)) len signer full


/-! VERIFY, LOAD_SLOT and TAKE_OWNERSHIP. -/

/-- VERIFY_DONE (R131, R137, R139), after the tickets and requests that arrived before the image (R553). -/
def execVerifyDone (s : State) : Host.Outcome State Fault Refusal :=
  match s.fabRuns 2 with
  | none => .next s
  | some o =>
    if !s.verifyTurn .image then .next s else
    let s := s.bankCheck slipBase o.arg 0
    let s := match s.judgeSlipway o.arg s.signerHash true with
      | .bad c off => (s.setf FAB.STATE_SLIPWAY 4).verifyFails c off 3
      | .good _ _ => (s.setf FAB.STATE_SLIPWAY 3).setf FAB.STATE_VSLOT 3
    .next ((s.fabDone 2 .ok).verifyServed .image)

/-- LOAD_SLOT_DONE (R131, R137, R650): with the blocks found bad on the way. -/
def execLoadSlotDone (bad : List (Nat × List Nat)) (s : State) : Host.Outcome State Fault Refusal :=
  match s.fabRuns 4 with
  | none => .next s
  | some o =>
    if s.fab.load.isSome || !s.verifyTurn .image then .next s else
    let k := o.slot
    let s := s.blocksBad bad
    let s :=
      if s.slotLost k ∨ !s.flashReady then (s.setf FAB.STATE_SLIPWAY 4).verifyFails 0x0C 0 k
      else
        let s := s.copySlot k
        match s.judgeSlipway s.slipLen s.signerHash true with
        | .bad c off => (s.setf FAB.STATE_SLIPWAY 4).verifyFails c off k
        | .good _ _ => (s.setf FAB.STATE_SLIPWAY 3).setf FAB.STATE_VSLOT k
    .next ((s.fabDone 4 .ok).verifyServed .image)

/-- The fusing of an owner key whose pattern is recorded goes on, ends, or fails (R555, R557), also when a full reset has taken the operation
away meanwhile. -/
def State.ownFuses (s : State) (h : List Byte) (stage : OwnStage) : State :=
  let o := s.sec.op.filter (fun o => o.opcode == 9)
  match stage with
  | .recorded => s
  | .fused =>
    let s := s.fuseDone (.own h)
    match o with
    | some o => ((((s.setf FAB.STATE_SLIPWAY 3).setf FAB.STATE_VSLOT 3).mboxEmpty o.port).secDone 9 .ok)
    | none => s
  | .failed =>
    if o.isSome then
      let c := s.openCode
      (((s.took.fuseError (.own h)).setf FAB.STATE_SLIPWAY 1).secDone 9 .ok).setf SEC.OP_STATUS_CODE c
    else s.fuseError (.own h)

/-- The image staged for an accepted ownership request is judged with the offered key; when it passes, the fuse pattern is recorded (R555,
R557). -/
def State.ownJudged (s : State) (o : SecOp) (stage : OwnStage) : State :=
  let h := Config.sha384 (slice (wordsBe o.input) 24 96)
  let s := s.bankCheck slipBase o.arg 0
  match s.judgeSlipway o.arg (some h) true with
  | .bad c off => ((s.verifyFails c off 3).setf FAB.STATE_SLIPWAY 1).secDone 9 .badArgument
  | .good _ _ => (s.fuseBegin (.own h)).ownFuses h stage

/-- TAKE_OWNERSHIP_DONE (R555, R557): the image staged is judged with the offered key and the pattern recorded, if it is not yet; then the
fuses are being blown, are blown, or fail. -/
def execTakeOwnershipDone (stage : OwnStage) (s : State) : Host.Outcome State Fault Refusal :=
  match s.sec.ownHash with
  | some h => .next (s.ownFuses h stage)
  | none =>
    match s.sec.op with
    | some o => if o.opcode = 9 ∧ .request ∉ s.sec.verify then .next (s.ownJudged o stage) else .next s
    | none => .next s

/-! What the device carries into the new structure. -/

/-- Whether a scratchpad's content carries over (R114): a fixed one always does. -/
def spCarries (old : Option Image) (i : Image) (sp : Nat) : Bool :=
  (fixedSp sp).isSome ||
    (match old.bind (fun o => o.spmap[sp]?), i.spmap[sp]? with
     | some a, some b => b.keep && a.keep && a.cls == b.cls && a.inst == b.inst
     | _, _ => false)

/-- Scratchpads that do not carry over are filled with zeros (R114, R630). -/
def State.landScratchpads (s : State) (old : Option Image) (i : Image) : State :=
  s.forN 128 (fun s sp => if spCarries old i sp then s else s.zeroSp sp)

/-- Give an engine's scratchpad the content of one without history, models or checkpoint (R115, R304). -/
def State.blankEngine (s : State) (e : Nat) : State :=
  (s.fillRegion (e * spSize) spSize (emptyHistory e)).mirrorEngine e

/-- Step 1 of R323: the loop of a FENCED engine moves to a pontoon from step 3 of R309 on, with its history before the engine tests itself
(log entry 57, DEDUCED); without a checkpoint or a pontoon it is left frozen (R47, R312). -/
def State.moveFenced (s : State) (i : Image) (e : Nat) : State :=
  let l := s.f (ENG.ENGINE_LOOP e)
  if s.engState e = 4 ∧ i.loop l then
    match s.pontoon with
    | some d => if s.hasCheckpoint e then (s.moveTo l e d false false).endCopy d else s.strand e l
    | none => s.strand e l
  else s

/-- Step 2 of R323: a FENCED engine that carries no loop runs its self-test; whether it passes is open (log entry 3, DESIGN CHOICE). -/
def State.testFenced (s : State) (i : Image) (e : Nat) : State :=
  if s.engState e = 4 ∧ !i.loop (s.f (ENG.ENGINE_LOOP e)) then
    let pass := s.free 1 == 1
    s.took.testEnds e pass
  else s

/-- Step 5 of R323: a loop that was not built before lands on the engine of its number when that is a pontoon, or on the pontoon of
R302. -/
def State.placeLoop (s : State) (l : Nat) : State :=
  if (s.engineFor l).isSome then s
  else
    match (if s.engState l = 0 then some l else s.pontoon) with
    | some d => (s.setEngine d 1 l).blankEngine d
    | none => s.strand l l

/-- The engine array at a landing, in the order of R323. Every loop whose own engine is a pontoon is placed before one that needs
another's (log entry 57, DEDUCED). -/
def State.landEngines (s : State) (i : Image) : State :=
  let s := (s.forN 36 (fun s e => s.moveFenced i e)).forN 36 (fun s e => s.testFenced i e)
  let s := s.forN 36 (fun s e => if s.engState e = 1 ∧ !i.loop (s.f (ENG.ENGINE_LOOP e)) then s.toPontoon e else s)
  let s := s.forN 32 (fun s l => if i.loop l ∧ s.engState l = 0 then s.placeLoop l else s)
  s.forN 32 (fun s l => if i.loop l then s.placeLoop l else s)

/-- A loop with no healthy engine (R47). -/
def State.stranded (s : State) (l : Nat) : Bool :=
  match s.engineFor l with
  | some e => s.engState e == 4
  | none => true

/-- The record with which an image built a loop before. -/
def oldLoop (old : Option Image) (l : Nat) : Option LoopRec := old.bind (fun o => o.loops.find? (fun r => r.loop == l))

/-- The loop is bound as before, with the same preset type and target (R115). -/
def sameLoop (old : Option Image) (r : LoopRec) : Bool :=
  match oldLoop old r.loop with
  | some o => o.preset == r.preset && o.tKind == r.tKind && o.tIdx == r.tIdx
  | none => false

/-- The core from which a loop starts that lands without a checkpoint of its own: the word held at its target, with ȳ₃₀ 0 and the phases
of the loop that wrote it (R115, R240, R324). -/
def State.heldCore (s : State) (old : Option Image) (r : LoopRec) : LoopCore :=
  let w := if r.tKind = 0 then (s.aplC r.tIdx).word else if r.tKind = 1 then (s.outC r.tIdx).word else (s.tscC r.tIdx).y
  match old.bind (fun o => o.loops.find? (fun q => q.tKind == r.tKind && q.tIdx == r.tIdx)) with
  | some q =>
    let c := (s.advanceLoop q.loop).loopC q.loop
    { word := w, yI := ofWord w 0, ph := c.ph, phO := c.phO, stepPh := c.stepPh, phAt := c.phAt, lastB := c.lastB, settle := 4 }
  | none => { word := w, yI := ofWord w 0, phAt := s.now, lastB := s.now, settle := 4 }

/-- A step that the full reset took is told (R264). -/
def State.tellLostStep (s : State) (l : Nat) : State :=
  match (s.loopC l).lostStep with
  | none => s
  | some fs =>
    let s := (s.ev (LOOP.EVENT_STEP_LOST l)).logDev 0x0305 (beBytes 1 l ++ [0] ++ beInt 12 fs)
    s.modLoop l (fun c => { c with lostStep := none })

/-- The state in which a loop made a checkpoint, or, where it stood in FERRY_HOLD then, the one from which it had landed there (R324). -/
def Checkpoint.base (k : Checkpoint) : Nat := if k.state = 4 then k.core.ckState else k.state

/-- The loop had landed without a checkpoint of its own and stood in FERRY_HOLD since (R324). -/
def Checkpoint.unset (k : Checkpoint) : Bool := k.state == 4 && k.core.fresh

/-- The core with which a loop resumes from a checkpoint, at a time, over what the reset has left of it (R264, R324): the held word runs
on, and the integrator takes its frequency through the ȳ₃₀ of the checkpoint. -/
def Checkpoint.resumed (k : Checkpoint) (now : Nat) (c : LoopCore) (selector : Bool) (bw : Nat) : LoopCore :=
  let x := k.core.advance (max k.core.phAt now)
  { x with
    word := c.word, yI := ofWord c.word x.ybar, uc := 0, sl := 0, yw := x.ybar, rem := 0, remPart := 0, armed := none
    bo := if selector then x.bo else 0, entry := 0x1F, acc := [], kept := [], wrap := none, reanchor := false, mig := none, orders := [], waiting := []
    depart := false, setBo := false, retake := false, bwNew := false, bw := bw, gearAt := now, gearEnd := 0, lockSince := none
    lockBad := 0, settle := 4, weights := [], heldWeights := [none, none, none], rawP := none, rawI := none, lostStep := c.lostStep
    ckState := k.base, held := k.base != 0 || k.unset, fresh := k.unset, stranded := false }

/-- What a loop that resumes has of its history interval: what the checkpoint holds of the same one, or nothing (R276, R306). -/
def HoCore.resumed (h : HoCore) (k : Checkpoint) (now : Nat) : HoCore :=
  let h := { h with entryFit := false, evaluating := false, ramp := false, tempAt := now, tEff := k.ho.tEff }
  if k.core.lastB / 128000000000 = now / 128000000000 then
    { h with updN := k.ho.updN, sum := k.ho.sum, sumSq := k.ho.sumSq, validN := k.ho.validN }
  else
    { h with
      updN := 0, sum := 0, sumSq := 0, validN := 0, heldOver := false, acquiring := false, sliceBad := false, entryChanged := false
      locked := false }

/-- The state in which a loop resumes (R324). -/
def Checkpoint.resumesIn (k : Checkpoint) (selector : Bool) : Nat :=
  if !selector || k.unset then 4 else if k.base = 3 then 3 else if k.base = 0 then 0 else 4

/-- A loop resumes from the last consistent checkpoint in the scratchpad of its engine (R264, R291, R322 step 6, R324). -/
def State.resumeLoop (s : State) (r : LoopRec) (e : Nat) (k : Checkpoint) : State :=
  let l := r.loop
  let sel := r.inKind == 0
  let s := (s.tellLostStep l).modLoop l (fun c => k.resumed s.now c sel (s.finalBw l))
  let s := s.setf (LOOP.STATUS_STATE l) (k.resumesIn sel)
  let s := ((s.modHo l (fun h => h.resumed k s.now)).loadModels l e).showModel l
  if k.resumesIn sel ≠ 3 then s
  else
    let y := (s.loopC l).yI
    let s := s.modHo l (fun h => { h with
      heldOver := true, refit := false, evaluating := true, ramp := true, yho := roundOpen 53 y (2 ^ 40) })
    s.setw (LOOP.HO_ELAPSED l) (satBits 32 (s.w (LOOP.HO_ELAPSED l) + (s.now - s.eng.ferryFrom) / 2000000000))

/-- A loop lands without a checkpoint: in FREE_RUN after a cold reset, else in FERRY_HOLD at the held frequency, with no history and no
model (R115, R250, R324). -/
def State.freshLoop (s : State) (cold : Bool) (r : LoopRec) (c : LoopCore) : State :=
  let l := r.loop
  let s := s.tellLostStep l
  let s := (s.modLoop l (fun o => { c with seq := o.seq, bw := s.finalBw l, held := !cold })).modHo l (fun _ => { tempAt := s.now })
  let s := (s.setw (LOOP.HO_ELAPSED l) 0).setw (LOOP.HIST_PTR l) 0
  let s := s.setf (LOOP.STATUS_STATE l) (if cold then 0 else 4)
  match s.engineFor l with
  | some e => s.blankEngine e
  | none => s

/-- Every built loop resumes or starts (step 6 of R322); one that is no longer built is gone. A stranded loop stays frozen and is
reported (R47). -/
def State.landLoops (s : State) (old : Option Image) (i : Image) (cores : List LoopCore) : State :=
  let s := s.forN 32 (fun s l => if i.loop l then s else (s.modLoop l (fun _ => {})).modHo l (fun _ => {}))
  let s := s.forL (i.loops.zip cores) (fun s x =>
    let r := x.1
    match s.engineFor r.loop with
    | some e =>
      match s.lastCheckpoint e with
      | some k => if sameLoop old r then s.resumeLoop r e k else s.freshLoop old.isNone r x.2
      | none => s.freshLoop old.isNone r x.2
    | none => s.freshLoop old.isNone r x.2)
  s.forL (i.loops.filter (fun r => s.stranded r.loop)) (fun s r =>
    let l := r.loop
    ((s.modLoop l (fun c => { c with stranded := true })).freezeLoop l).report (0x200 + (s.engineFor l).getD l) 0x0E l)

/-! Synthesisers and outputs. -/

/-- A synthesiser at a landing (R88, R318, R331, R340). -/
def State.landSynth (s : State) (i : Image) (n : Nat) : State :=
  match i.synth n with
  | none => ((s.modApl n (fun _ => {})).setw (APL.STATUS n) 0).setw (APL.NOM_KHZ n) 0
  | some r =>
    let steered := i.loops.any (fun l => l.tKind == 0 && l.tIdx == n)
    let s := s.modApl n (fun c => { c with word := if steered then c.word else 0 })
    if (s.aplC n).phase = .off then
      ((s.modApl n (fun c => { c with imageHz := r.vcoHz })).setNom n (r.vcoHz * 1000000)).startSynth n
    else
      let was := (s.aplC n).imageHz
      let s := s.setb (APL.STATUS_RAMP_CUT n) (s.on (APL.STATUS_RAMP_CUT n) || (s.aplC n).cut)
      let s := s.modApl n (fun c => { c with imageHz := r.vcoHz, cut := false })
      if was = r.vcoHz then s else s.startRamp n [rampSegment (s.nomNow n) (r.vcoHz * 1000000) 5000]

/-- D of a clock or sampling-grade output, in units of 2⁻⁵⁶ (R341, R344). -/
def OutputRec.ratio (r : OutputRec) (vcoHz : Nat) : Nat := (roundNear (vcoHz * 1000000 * 2 ^ 56) r.freqUhz).toNat

/-- What STATUS.MODE an image gives an output (R342). -/
def Image.outMode (i : Image) (r : OutputRec) : Nat :=
  if r.pulse then 3 else if i.loops.any (fun l => l.tKind == 1 && l.tIdx == r.number) then 2
  else if r.ratio (((i.synth r.synth).map (·.vcoHz)).getD 0) % 2 ^ 56 = 0 then 0 else 1

/-- An output takes its divider from the image (R344). -/
def State.imageDivider (s : State) (i : Image) (r : OutputRec) : State :=
  if r.pulse then s.refreshMode r.number
  else
    let d := r.ratio (((i.synth r.synth).map (·.vcoHz)).getD 0)
    s.setDivider r.number (d / 2 ^ 56) (d % 2 ^ 56)

/-- An output starts, or starts again, under the new structure with its initial enable (R116, R350, R351, R358); its control registers
return to their reset values. A loop-steered one runs with the accumulator word 0 until its loop's next update (log entry 92, DESIGN
CHOICE). -/
def State.freshOutput (s : State) (i : Image) (r : OutputRec) (align : Bool) : State :=
  let m := r.number
  let s := s.stopOut m
  let s := s.modOut m (fun c => { c with
    sqFerry := false, newDiv := none, enabledOnce := c.enabledOnce && !align, word := 0, swing := 0 })
  let s := s.forL [OUT.CTRL m, OUT.PHASE m, OUT.OFFSET m, OUT.WIDTH m, OUT.ALIGN_TOL m] (fun s k => s.setw k (regDefault k).toNat)
  let s := (s.setf (OUT.STATUS_SQ_LIMIT m) 0).imageDivider i r
  let s := if r.pulse then s.setw (OUT.PERIOD m) (1000000000000000 / r.freqUhz) else s
  s.enableOut m (r.initEn == 1)

/-- An output at a landing (R116, R321, R350, R351). -/
def State.landOutput (s : State) (old : Option Image) (i : Image) (m : Nat) : State :=
  match i.output m with
  | none => ((s.modOut m (fun _ => {})).setw (OUT.STATUS m) 0).setf (OUT.CTRL_EN m) 0
  | some r =>
    match old.bind (fun o => (o.output m).map (fun q => (o, q))) with
    | none => s.freshOutput i r true
    | some (o, q) =>
      let build := q.synth == r.synth && q.format == r.format && q.drive == r.drive
      let clock := q.freqUhz == r.freqUhz && o.outMode q == i.outMode r && (!r.pulse || q.anchor == r.anchor)
      if !(build && clock) then (s.freshOutput i r (!clock)).logDev 0x0304 (beBytes 1 m ++ [1] ++ beBytes 8 0)
      else
        let s := if o.synths = i.synths then s else s.imageDivider i r
        let sq := (s.outC m).sqFerry
        let s := ((s.modOut m (fun c => { c with sqFerry := false })).setf (OUT.STATUS_SQ_LIMIT m) 0).refreshOut m
        s.when sq (fun s => s.logDev 0x0304 (beBytes 1 m ++ [1] ++ beBytes 8 0))

/-- Synthesisers, then outputs and their squelch. -/
def State.landClocks (s : State) (old : Option Image) (i : Image) : State :=
  let s := (s.forN 8 (fun s n => s.landSynth i n)).forN 28 (fun s m => s.landOutput old i m)
  s.forN 8 State.refreshSynth

/-! Ports and the crossing link. -/

/-- A port at a landing: with the same mode it is up at once where lock has held; otherwise it trains (R117, R408). -/
def State.landPort (s : State) (old : Option Image) (i : Image) (n : Nat) : State :=
  let mode := fun (j : Image) => (j.ports.find? (fun r => r.port == n)).map (·.mode)
  if !i.port n then s.modPrt n (fun _ => {})
  else if s.on (PRT.CTRL_DORMANT n) ∧ 2 ≤ n then
    s.modPrt n (fun c => { c with rode := false, signal := false, lostAt := none, esmcAt := s.now })
  else if (s.prtC n).rode ∧ old.bind mode = mode i then
    let s := s.modPrt n (fun c => { c with rode := false, esmcAt := s.now })
    let s := (s.setw (PRT.EQ_STAT n) (s.prtC n).eqStat).setEq n 4
    if s.on (PRT.CTRL_ADMIN n) ∧ !s.on (PRT.CTRL_DORMANT n) then s.portUp n else s.lockUp n
  else
    let s := s.modPrt n (fun c => { c with
      rode := false, warm := c.signal && decide (old.bind mode = mode i) && !s.on (PRT.CTRL_EQ_COLD n), esmcAt := s.now })
    s.setEq n 1

/-- The crossing link at a landing: a lane whose lock has held is up, and the device is ALONE (R525, R535). -/
def State.landXlk (s : State) (i : Image) : State :=
  let on := i.xlk.isSome && s.on XLK.CTRL_ADMIN
  let s := s.modXlk (fun x => { up0 := if on then x.up0 else none, up1 := if on then x.up1 else none })
  let s := if s.xlk.up0.isSome then ((s.setf XLK.STATUS_LANE0_UP 1).ev XLK.EVENT_LANE_UP).laneSettle 0 else s
  if s.xlk.up1.isSome then ((s.setf XLK.STATUS_LANE1_UP 1).ev XLK.EVENT_LANE_UP).laneSettle 1 else s

/-! Selectors, keys and the record of the landing. -/

/-- The monitors of every entry begin (R193, R197, R211): no landing has shown activity yet. -/
def State.landSelectors (s : State) : State :=
  let s := s.forL s.selRecs (fun s r =>
    s.forN (s.ncand r.selector) (fun s k =>
      let n := r.selector
      let s := ((s.freshEntry n k).setf (SEL.CAND_STATE_RANK n k) (s.effRank n k)).setFault n k faultAct true
      s.setFault n k faultQl (s.qlFault n k)))
  (s.forL s.selRecs (fun s r => s.refreshSel r.selector)).refreshTrace

/-- The keys of the image's KEYRING (R562). -/
def State.landKeys (s : State) (i : Image) : State :=
  let ta := (i.keyring.find? (fun r => beAt r 0 1 == 1)).map (fun r => slice r 8 96)
  let s := { s with sec := { s.sec with taKey := ta } }.setb SEC.STATE_TA_PRESENT ta.isSome
  s.forN 256 (fun s n =>
    let ks := (i.keyring.filter (fun r => beAt r 0 1 == 2 && beAt r 1 1 == n)).map (fun r =>
      PtpKey.mk (BitVec.ofNat 32 (beAt r 4 4)) (slice r 8 32))
    let cur := s.spp n
    if ks.isEmpty ∨ cur.cur.isSome ∨ cur.next.isSome then s
    else s.setSpp n { cur := ks[0]?, next := ks[1]? })

/-- The boot record of a slot that has landed (R143, R145). -/
def State.landSlot (s : State) (k : Nat) : State :=
  let cur := s.f FAB.SLOTS_CURRENT
  let s := s.setf (slotField k) 2
  let s :=
    if s.f FAB.SLOTS_PENDING = k ∧ k ≠ cur then (s.setf FAB.SLOTS_PREVIOUS cur).setf FAB.SLOTS_CURRENT k
    else if s.f FAB.SLOTS_PREVIOUS = k ∧ k ≠ cur then (s.setf FAB.SLOTS_CURRENT k).setf FAB.SLOTS_PREVIOUS 3
    else s
  (s.setf FAB.SLOTS_PENDING 3).commitBoot

/-- The moment of landing: R143 in its order, FALLBACK (R145), and the sources of R689. -/
def State.landed143 (s : State) (i : Image) (j : LoadJob) : State :=
  let back := decide (j.slot ≠ j.first)
  let cold := s.top.fromCold
  let s := (s.setf FAB.STATE_LOAD 2).setf FAB.STATE_SOURCE j.slot
  let s := s.landSlot j.slot
  let s := ((s.setb FAB.STATE_FALLBACK back).setf FAB.STATE_ATTEMPTS 0).setf FAB.STATE_SLIPWAY 0
  let s := s.setf FAB.STATE_VSLOT 3
  let s := { s with
    fab := { s.fab with load := none }
    top := { s.top with inFull := false, resetting := false, fromCold := false, activated := false, landedOnce := true } }
  let s := s.logDev 0x0102 (beBytes 1 j.slot ++ beBytes 1 (b2n back) ++ i.imageId)
  let s := (s.raise 12).when back (fun s => s.raise 13)
  s.raise (if cold then 0 else 1)

/-- Ferry hold ends (R319, step 7 of R322). -/
def State.endFerry (s : State) : State :=
  if !s.eng.ferry then s
  else
    let s := s.setf ENG.FERRY_LAST_MS (satBits 32 ((s.now - s.eng.ferryFrom) / 2000000))
    let s := (s.inc ENG.FERRY_STAT_COUNT).setb ENG.FERRY_STAT_LIMIT_HIT s.eng.limitHit
    let s := (s.ev ENG.EVENT_FERRY).evIf s.eng.limitHit ENG.EVENT_SQUELCHED
    { s with eng := { s.eng with ferry := false, limitHit := false } }

/-- An image lands (R114 to R118, R129, R143, R322, R323, R693): scratchpads, engines, structure and preload, the landing, and what
follows it. Where a preload entry orders a full reset, or FAB waits for the BUSY bit of an entry's block, the image has not landed: the
one that last landed stays in force (R104), and after the wait the load goes on with that entry. -/
def State.landImage (s : State) (i : Image) (j : LoadJob) : State :=
  let old := s.fab.img
  let cores := j.held.getD (i.loops.map (s.heldCore old))
  let s := if j.held.isSome then { s with fab := { s.fab with img := some i } }
    else (((s.landScratchpads old i).landEngines i).buildStructure i).dirty
  let p := s.preload i false j.next
  let s := p.st
  if p.reset then { s with fab := { s.fab with img := old } }
  else if p.wait.isSome then
    { s with fab := { s.fab with img := old, load := some { j with held := some cores, next := p.wait.getD 0 } } }
  else
    let s := s.landed143 i j
    let s := ((s.landClocks old i).landLoops old i cores).nomChanged
    let s := { s.endFerry with eng := { s.endFerry.eng with landedAt := s.now } }
    let s := s.forL ((List.range 32).filter (fun n => i.landing n)) State.beginLanding
    let s := (s.landSelectors.forN 8 (fun s n => s.landPort old i n)).landXlk i
    (((s.landKeys i).refreshNext).billCheck (s.f MAN.CFG_TSC)).esmcRefresh

/-! The end of a load. -/

/-- What the load in progress would find (R131, R139, R141, R650): the checks on the slipway, or those of an image read from flash;
0x0C where flash cannot be read. -/
def State.loadVerdict (s : State) (j : LoadJob) : Verdict :=
  if j.slipway then s.judgeSlipway s.slipLen s.signerHash false
  else if s.slotLost j.slot ∨ !s.flashReady then .bad 0x0C 0
  else s.judgeSlipway s.slipLen s.signerHash true

/-- A load from the slipway meets an uncorrectable error there (R141). -/
def State.slipwayBad (s : State) (j : LoadJob) : Bool := j.slipway && s.bankBad slipBase slipSize

/-- IMAGE_LANDED (R131, R139 to R143, R693): the load in progress passes every check, and the image lands. -/
def execImageLanded (s : State) : Host.Outcome State Fault Refusal :=
  match s.fab.load with
  | none => .next s
  | some j =>
    if s.slipwayBad j then .next s
    else
      match s.loadVerdict j with
      | .bad _ _ => .next s
      | .good i _ => .next ((s.bankCheck slipBase slipSize 0).landImage i j)

/-- LOAD_FAILED (R141, R144, R145, R650): the load in progress fails a check; an error in the slipway sends it to flash. -/
def execLoadFailed (bad : List (Nat × List Nat)) (s : State) : Host.Outcome State Fault Refusal :=
  match s.fab.load with
  | none => .next s
  | some j =>
    if s.slipwayBad j then
      let s := (s.bankCheck slipBase slipSize 0).copySlot j.slot
      .next { s with fab := { s.fab with load := some { j with slipway := false } } }
    else
      let s := s.blocksBad bad
      match s.loadVerdict j with
      | .bad c off => .next ((s.checkFault c off j.slot).failLoad c)
      | .good _ _ => .next s

end Sys2Proof.Machine
end

