-- ==== Sys2Proof/Machine/Dispatch.lean ====
section
/-! DEFINITION. The one dispatch: each command to its meaning. -/

namespace Sys2Proof.Machine

/-- What a command does to the device, its queue apart. -/
def exec (i : Instr) (s : State) : Host.Outcome State Fault Refusal :=
  match i with
  | .registerWrite p a => Sys2Proof.Machine.execRegisterWrite p a s
  | .clearingRead p a => Sys2Proof.Machine.execClearingRead p a s
  | .canaryWindowEnd laps => Sys2Proof.Machine.execCanaryWindowEnd laps s
  | .avsStepDone mv ok => Sys2Proof.Machine.execAvsStepDone mv ok s
  | .avsEventRead p => Sys2Proof.Machine.execAvsEventRead p s
  | .powerOn => Sys2Proof.Machine.execPowerOn s
  | .resetNFall => Sys2Proof.Machine.execResetNFall s
  | .resetNRise straps => Sys2Proof.Machine.execResetNRise straps s
  | .brownOut rail => Sys2Proof.Machine.execBrownOut rail s
  | .refsynLocked => Sys2Proof.Machine.execRefsynLocked s
  | .startupInitDone failed fuseOk => Sys2Proof.Machine.execStartupInitDone failed fuseOk s
  | .nvRecoveryDone => Sys2Proof.Machine.execNvRecoveryDone s
  | .flmLinkReady => Sys2Proof.Machine.execFlmLinkReady s
  | .fullrstNFall => Sys2Proof.Machine.execFullrstNFall s
  | .fullrstNRise => Sys2Proof.Machine.execFullrstNRise s
  | .topCmdFullReset p key => Sys2Proof.Machine.execTopCmdFullReset p key s
  | .stage p => Sys2Proof.Machine.execStage p s
  | .verify p => Sys2Proof.Machine.execVerify p s
  | .verifyDone => Sys2Proof.Machine.execVerifyDone s
  | .writeSlot p slot => Sys2Proof.Machine.execWriteSlot p slot s
  | .writeSlotDone readBack bad => Sys2Proof.Machine.execWriteSlotDone readBack bad s
  | .loadSlot p slot => Sys2Proof.Machine.execLoadSlot p slot s
  | .loadSlotDone bad => Sys2Proof.Machine.execLoadSlotDone bad s
  | .eraseSlot p slot => Sys2Proof.Machine.execEraseSlot p slot s
  | .eraseSlotDone => Sys2Proof.Machine.execEraseSlotDone s
  | .readId p slot => Sys2Proof.Machine.execReadId p slot s
  | .activate p handover => Sys2Proof.Machine.execActivate p handover s
  | .activateHandoverTimeout => Sys2Proof.Machine.execActivateHandoverTimeout s
  | .commitRollback p => Sys2Proof.Machine.execCommitRollback p s
  | .rollbackFusesDone fuseOk => Sys2Proof.Machine.execRollbackFusesDone fuseOk s
  | .imageLanded => Sys2Proof.Machine.execImageLanded s
  | .loadFailed bad => Sys2Proof.Machine.execLoadFailed bad s
  | .landingWatchdogExpiry => Sys2Proof.Machine.execLandingWatchdogExpiry s
  | .landingEdge n cap => Sys2Proof.Machine.execLandingEdge n cap s
  | .activityLost n => Sys2Proof.Machine.execActivityLost n s
  | .slicerUpdate n mid amp => Sys2Proof.Machine.execSlicerUpdate n mid amp s
  | .coarseWrap => Sys2Proof.Machine.execCoarseWrap s
  | .gateEnd n => Sys2Proof.Machine.execGateEnd n s
  | .gateLongTimeout n => Sys2Proof.Machine.execGateLongTimeout n s
  | .intervalOverflow n => Sys2Proof.Machine.execIntervalOverflow n s
  | .intervalDone n => Sys2Proof.Machine.execIntervalDone n s
  | .regressionDone n => Sys2Proof.Machine.execRegressionDone n s
  | .lnd30SliceEnd => Sys2Proof.Machine.execLnd30SliceEnd s
  | .armTdcTask n => Sys2Proof.Machine.execArmTdcTask n s
  | .lndArm p n => Sys2Proof.Machine.execLndArm p n s
  | .fetchResult p n => Sys2Proof.Machine.execFetchResult p n s
  | .fetchCal p n => Sys2Proof.Machine.execFetchCal p n s
  | .lndCtrlWrite p n a => Sys2Proof.Machine.execLndCtrlWrite p n a s
  | .lndDecimWrite p n a => Sys2Proof.Machine.execLndDecimWrite p n a s
  | .lndGateWrite p n a => Sys2Proof.Machine.execLndGateWrite p n a s
  | .lndNomFreqWrite p n a => Sys2Proof.Machine.execLndNomFreqWrite p n a s
  | .lndObsWrite p a => Sys2Proof.Machine.execLndObsWrite p a s
  | .lndSliceWrite p n a => Sys2Proof.Machine.execLndSliceWrite p n a s
  | .wtrExpiry n k => Sys2Proof.Machine.execWtrExpiry n k s
  | .holdoffExpiry n => Sys2Proof.Machine.execHoldoffExpiry n s
  | .readmit p n k => Sys2Proof.Machine.execReadmit p n k s
  | .selForceWrite p n a => Sys2Proof.Machine.execSelForceWrite p n a s
  | .selCandCfgWrite p n k a => Sys2Proof.Machine.execSelCandCfgWrite p n k a s
  | .esmcTimeout n => Sys2Proof.Machine.execEsmcTimeout n s
  | .loopUpdate n chk => Sys2Proof.Machine.execLoopUpdate n chk s
  | .lockDwellExpiry n => Sys2Proof.Machine.execLockDwellExpiry n s
  | .gearDwellExpiry n => Sys2Proof.Machine.execGearDwellExpiry n s
  | .stepLoad p n => Sys2Proof.Machine.execStepLoad p n s
  | .stepGo p n => Sys2Proof.Machine.execStepGo p n s
  | .stepCancel p n => Sys2Proof.Machine.execStepCancel p n s
  | .stepPhaseTask n => Sys2Proof.Machine.execStepPhaseTask n s
  | .loopFetch p n => Sys2Proof.Machine.execLoopFetch p n s
  | .loopBwWrite p n a => Sys2Proof.Machine.execLoopBwWrite p n a s
  | .loopSlopeWrite p n a => Sys2Proof.Machine.execLoopSlopeWrite p n a s
  | .loopFreeFreqWrite p n a => Sys2Proof.Machine.execLoopFreeFreqWrite p n a s
  | .loopCoefWrite p n integral a => Sys2Proof.Machine.execLoopCoefWrite p n integral a s
  | .loopDampWrite p n a => Sys2Proof.Machine.execLoopDampWrite p n a s
  | .loopWeightCommit p n a => Sys2Proof.Machine.execLoopWeightCommit p n a s
  | .historyIntervalEnd n => Sys2Proof.Machine.execHistoryIntervalEnd n s
  | .refitDone n => Sys2Proof.Machine.execRefitDone n s
  | .entryFitDone n => Sys2Proof.Machine.execEntryFitDone n s
  | .holdoverSecond n => Sys2Proof.Machine.execHoldoverSecond n s
  | .temperatureSample n die => Sys2Proof.Machine.execTemperatureSample n die s
  | .hoTempWrite p n a => Sys2Proof.Machine.execHoTempWrite p n a s
  | .tempStaleTimeout n => Sys2Proof.Machine.execTempStaleTimeout n s
  | .fetchModel p n => Sys2Proof.Machine.execFetchModel p n s
  | .loadModel p n => Sys2Proof.Machine.execLoadModel p n s
  | .clearHistory p n => Sys2Proof.Machine.execClearHistory p n s
  | .hoOvrWrite p n a => Sys2Proof.Machine.execHoOvrWrite p n a s
  | .failoverResume n chk => Sys2Proof.Machine.execFailoverResume n chk s
  | .migrationResume n chk => Sys2Proof.Machine.execMigrationResume n chk s
  | .historyCopyDone e => Sys2Proof.Machine.execHistoryCopyDone e s
  | .engRetire p h => Sys2Proof.Machine.execEngRetire p h s
  | .engReturn p h => Sys2Proof.Machine.execEngReturn p h s
  | .engMigrate p h e => Sys2Proof.Machine.execEngMigrate p h e s
  | .engineSelfTestDone e pass => Sys2Proof.Machine.execEngineSelfTestDone e pass s
  | .ferryLimitExpiry => Sys2Proof.Machine.execFerryLimitExpiry s
  | .landWaitExpiry n => Sys2Proof.Machine.execLandWaitExpiry n s
  | .bandCalDone n band => Sys2Proof.Machine.execBandCalDone n band s
  | .analogAcqDone n => Sys2Proof.Machine.execAnalogAcqDone n s
  | .lockWindowEnd n dev => Sys2Proof.Machine.execLockWindowEnd n dev s
  | .rampTo p n arm => Sys2Proof.Machine.execRampTo p n arm s
  | .rampLoad p n seg => Sys2Proof.Machine.execRampLoad p n seg s
  | .rampGo p n => Sys2Proof.Machine.execRampGo p n s
  | .rampStop p n => Sys2Proof.Machine.execRampStop p n s
  | .fetchNom p n => Sys2Proof.Machine.execFetchNom p n s
  | .startRampTask n => Sys2Proof.Machine.execStartRampTask n s
  | .rampSegmentEnd n => Sys2Proof.Machine.execRampSegmentEnd n s
  | .divLoad p m => Sys2Proof.Machine.execDivLoad p m s
  | .divApply m => Sys2Proof.Machine.execDivApply m s
  | .fetchDiv p m => Sys2Proof.Machine.execFetchDiv p m s
  | .outAlign p m => Sys2Proof.Machine.execOutAlign p m s
  | .realignOutputTask m => Sys2Proof.Machine.execRealignOutputTask m s
  | .syncPoint n => Sys2Proof.Machine.execSyncPoint n s
  | .groupEnable p n mask => Sys2Proof.Machine.execGroupEnable p n mask s
  | .groupRealign p n mask => Sys2Proof.Machine.execGroupRealign p n mask s
  | .groupDisable p n mask => Sys2Proof.Machine.execGroupDisable p n mask s
  | .outEnWrite p m a => Sys2Proof.Machine.execOutEnWrite p m a s
  | .pulseLeadingEdge m => Sys2Proof.Machine.execPulseLeadingEdge m s
  | .pdiffCheck m => Sys2Proof.Machine.execPdiffCheck m s
  | .setInc p n => Sys2Proof.Machine.execSetInc p n s
  | .adjust p n => Sys2Proof.Machine.execAdjust p n s
  | .tscStep p n => Sys2Proof.Machine.execTscStep p n s
  | .stepTicket p n => Sys2Proof.Machine.execStepTicket p n s
  | .ticketVerified n => Sys2Proof.Machine.execTicketVerified n s
  | .setTime p n => Sys2Proof.Machine.execSetTime p n s
  | .schedule p n => Sys2Proof.Machine.execSchedule p n s
  | .cancelSched p n => Sys2Proof.Machine.execCancelSched p n s
  | .snap p n => Sys2Proof.Machine.execSnap p n s
  | .setThresh p n => Sys2Proof.Machine.execSetThresh p n s
  | .secondRollover n => Sys2Proof.Machine.execSecondRollover n s
  | .manifestSigned => Sys2Proof.Machine.execManifestSigned s
  | .adjustComplete n => Sys2Proof.Machine.execAdjustComplete n s
  | .scheduledIncrementDue n => Sys2Proof.Machine.execScheduledIncrementDue n s
  | .applySchedTask n => Sys2Proof.Machine.execApplySchedTask n s
  | .todoutMessage k => Sys2Proof.Machine.execTodoutMessage k s
  | .swevt p mask => Sys2Proof.Machine.execSwevt p mask s
  | .routeWrite p r w a => Sys2Proof.Machine.execRouteWrite p r w a s
  | .stampTask slot => Sys2Proof.Machine.execStampTask slot s
  | .sendBerthMessageTask slot => Sys2Proof.Machine.execSendBerthMessageTask slot s
  | .linkSignalDetect x => Sys2Proof.Machine.execLinkSignalDetect x s
  | .linkUp n => Sys2Proof.Machine.execLinkUp n s
  | .linkSettled n => Sys2Proof.Machine.execLinkSettled n s
  | .linkDown n x => Sys2Proof.Machine.execLinkDown n x s
  | .linkHoldExpiry n => Sys2Proof.Machine.execLinkHoldExpiry n s
  | .frameReceived n f => Sys2Proof.Machine.execFrameReceived n f s
  | .esmcPduReceived n f => Sys2Proof.Machine.execEsmcPduReceived n f s
  | .pauseReceived n f => Sys2Proof.Machine.execPauseReceived n f s
  | .pauseQuantaExpiry n => Sys2Proof.Machine.execPauseQuantaExpiry n s
  | .pauseWatchdogExpiry n => Sys2Proof.Machine.execPauseWatchdogExpiry n s
  | .pauseRepeat n => Sys2Proof.Machine.execPauseRepeat n s
  | .esmcInfoTx n => Sys2Proof.Machine.execEsmcInfoTx n s
  | .txStampDelivery n x => Sys2Proof.Machine.execTxStampDelivery n x s
  | .preemptVerifyDone n ok => Sys2Proof.Machine.execPreemptVerifyDone n ok s
  | .frameSend p a0 a1 a2 a3 => Sys2Proof.Machine.execFrameSend p a0 a1 a2 a3 s
  | .frameRecv p a0 a1 a2 a3 => Sys2Proof.Machine.execFrameRecv p a0 a1 a2 a3 s
  | .tsqPop p n => Sys2Proof.Machine.execTsqPop p n s
  | .fetchStats p n => Sys2Proof.Machine.execFetchStats p n s
  | .peekStats p n => Sys2Proof.Machine.execPeekStats p n s
  | .wakeLoad p n => Sys2Proof.Machine.execWakeLoad p n s
  | .prtLoopcal p n => Sys2Proof.Machine.execPrtLoopcal p n s
  | .prtLoopcalDone n diff => Sys2Proof.Machine.execPrtLoopcalDone n diff s
  | .prtDormantWrite p n a => Sys2Proof.Machine.execPrtDormantWrite p n a s
  | .prtTxclkWrite p n a => Sys2Proof.Machine.execPrtTxclkWrite p n a s
  | .prtAdminWrite p n a => Sys2Proof.Machine.execPrtAdminWrite p n a s
  | .syncReceived n f => Sys2Proof.Machine.execSyncReceived n f s
  | .delayReqReceived n f => Sys2Proof.Machine.execDelayReqReceived n f s
  | .followUpReceived n f => Sys2Proof.Machine.execFollowUpReceived n f s
  | .delayRespReceived n f => Sys2Proof.Machine.execDelayRespReceived n f s
  | .announceReceived n f => Sys2Proof.Machine.execAnnounceReceived n f s
  | .signalingReceived n f => Sys2Proof.Machine.execSignalingReceived n f s
  | .syncTxInterval n slot => Sys2Proof.Machine.execSyncTxInterval n slot s
  | .delayReqTxInterval slot => Sys2Proof.Machine.execDelayReqTxInterval slot s
  | .announceTxInterval n slot => Sys2Proof.Machine.execAnnounceTxInterval n slot s
  | .followUpTimeout slot => Sys2Proof.Machine.execFollowUpTimeout slot s
  | .announceTimeout slot => Sys2Proof.Machine.execAnnounceTimeout slot s
  | .grantExpiry slot t => Sys2Proof.Machine.execGrantExpiry slot t s
  | .grantRenew slot t => Sys2Proof.Machine.execGrantRenew slot t s
  | .grantRetry slot t => Sys2Proof.Machine.execGrantRetry slot t s
  | .sampleStreamTimeout slot => Sys2Proof.Machine.execSampleStreamTimeout slot s
  | .tsPresentPeriod n => Sys2Proof.Machine.execTsPresentPeriod n s
  | .corridorSecond n => Sys2Proof.Machine.execCorridorSecond n s
  | .corridorReadmit slot => Sys2Proof.Machine.execCorridorReadmit slot s
  | .admitPop p n => Sys2Proof.Machine.execAdmitPop p n s
  | .fetchDataset p n => Sys2Proof.Machine.execFetchDataset p n s
  | .promote p n => Sys2Proof.Machine.execPromote p n s
  | .asymLoad p n => Sys2Proof.Machine.execAsymLoad p n s
  | .asymClear p n => Sys2Proof.Machine.execAsymClear p n s
  | .asymRampDone slot => Sys2Proof.Machine.execAsymRampDone slot s
  | .berthCreate p h a0 a1 a2 a3 => Sys2Proof.Machine.execBerthCreate p h a0 a1 a2 a3 s
  | .berthDestroy p h a0 a1 a2 a3 => Sys2Proof.Machine.execBerthDestroy p h a0 a1 a2 a3 s
  | .berthEnable p h a0 a1 a2 a3 => Sys2Proof.Machine.execBerthEnable p h a0 a1 a2 a3 s
  | .berthDisable p h a0 a1 a2 a3 => Sys2Proof.Machine.execBerthDisable p h a0 a1 a2 a3 s
  | .paramSet p h a0 a1 a2 a3 => Sys2Proof.Machine.execParamSet p h a0 a1 a2 a3 s
  | .paramGet p h a0 a1 a2 a3 => Sys2Proof.Machine.execParamGet p h a0 a1 a2 a3 s
  | .attach p h a0 a1 a2 a3 => Sys2Proof.Machine.execAttach p h a0 a1 a2 a3 s
  | .detach p h a0 a1 a2 a3 => Sys2Proof.Machine.execDetach p h a0 a1 a2 a3 s
  | .evqPop p h a0 a1 a2 a3 => Sys2Proof.Machine.execEvqPop p h a0 a1 a2 a3 s
  | .evqScan p h a0 a1 a2 a3 => Sys2Proof.Machine.execEvqScan p h a0 a1 a2 a3 s
  | .msgLoad p h a0 a1 a2 a3 => Sys2Proof.Machine.execMsgLoad p h a0 a1 a2 a3 s
  | .berthInfo p h a0 a1 a2 a3 => Sys2Proof.Machine.execBerthInfo p h a0 a1 a2 a3 s
  | .tenantOpen p h a0 a1 a2 a3 => Sys2Proof.Machine.execTenantOpen p h a0 a1 a2 a3 s
  | .tenantClose p h a0 a1 a2 a3 => Sys2Proof.Machine.execTenantClose p h a0 a1 a2 a3 s
  | .manPeek p h a0 a1 a2 a3 => Sys2Proof.Machine.execManPeek p h a0 a1 a2 a3 s
  | .manExport p h a0 a1 a2 a3 => Sys2Proof.Machine.execManExport p h a0 a1 a2 a3 s
  | .helloReceived lane f => Sys2Proof.Machine.execHelloReceived lane f s
  | .heartbeatReceived lane f => Sys2Proof.Machine.execHeartbeatReceived lane f s
  | .phaseReceived lane f => Sys2Proof.Machine.execPhaseReceived lane f s
  | .loopstateReceived lane f => Sys2Proof.Machine.execLoopstateReceived lane f s
  | .timestateReceived lane f => Sys2Proof.Machine.execTimestateReceived lane f s
  | .berthstateReceived lane f => Sys2Proof.Machine.execBerthstateReceived lane f s
  | .switchRequestReceived lane f => Sys2Proof.Machine.execSwitchRequestReceived lane f s
  | .switchAcceptReceived lane f => Sys2Proof.Machine.execSwitchAcceptReceived lane f s
  | .switchRefuseReceived lane f => Sys2Proof.Machine.execSwitchRefuseReceived lane f s
  | .switchCommitReceived lane f => Sys2Proof.Machine.execSwitchCommitReceived lane f s
  | .noticeReceived lane f => Sys2Proof.Machine.execNoticeReceived lane f s
  | .helloTx => Sys2Proof.Machine.execHelloTx s
  | .heartbeatTx => Sys2Proof.Machine.execHeartbeatTx s
  | .phaseTx lane x => Sys2Proof.Machine.execPhaseTx lane x s
  | .loopstateTx => Sys2Proof.Machine.execLoopstateTx s
  | .timestateTx => Sys2Proof.Machine.execTimestateTx s
  | .berthstateTx slot => Sys2Proof.Machine.execBerthstateTx slot s
  | .heartbeatLoss => Sys2Proof.Machine.execHeartbeatLoss s
  | .incumbentTimer => Sys2Proof.Machine.execIncumbentTimer s
  | .xlkSwitch p => Sys2Proof.Machine.execXlkSwitch p s
  | .switchAcceptTimeout => Sys2Proof.Machine.execSwitchAcceptTimeout s
  | .fetchLoops p => Sys2Proof.Machine.execFetchLoops p s
  | .fetchTimes p => Sys2Proof.Machine.execFetchTimes p s
  | .xlkLoopcal p => Sys2Proof.Machine.execXlkLoopcal p s
  | .xlkLoopcalDone diff0 diff1 => Sys2Proof.Machine.execXlkLoopcalDone diff0 diff1 s
  | .xlkPresentPeriod => Sys2Proof.Machine.execXlkPresentPeriod s
  | .xlkAdminWrite p a => Sys2Proof.Machine.execXlkAdminWrite p a s
  | .xlkLaneUp lane => Sys2Proof.Machine.execXlkLaneUp lane s
  | .xlkLaneDown lane => Sys2Proof.Machine.execXlkLaneDown lane s
  | .certRead p part => Sys2Proof.Machine.execCertRead p part s
  | .attest p => Sys2Proof.Machine.execAttest p s
  | .attestDone => Sys2Proof.Machine.execAttestDone s
  | .attestRead p part => Sys2Proof.Machine.execAttestRead p part s
  | .provisionLabel p => Sys2Proof.Machine.execProvisionLabel p s
  | .provisionLabelDone => Sys2Proof.Machine.execProvisionLabelDone s
  | .keyLoad p => Sys2Proof.Machine.execKeyLoad p s
  | .keyRoll p spp => Sys2Proof.Machine.execKeyRoll p spp s
  | .keyErase p spp => Sys2Proof.Machine.execKeyErase p spp s
  | .keyList p spp => Sys2Proof.Machine.execKeyList p spp s
  | .takeOwnership p => Sys2Proof.Machine.execTakeOwnership p s
  | .takeOwnershipDone stage => Sys2Proof.Machine.execTakeOwnershipDone stage s
  | .secRetire p => Sys2Proof.Machine.execSecRetire p s
  | .secRetireDone fuseOk => Sys2Proof.Machine.execSecRetireDone fuseOk s
  | .tapInstruction t => Sys2Proof.Machine.execTapInstruction t s
  | .qspiRead addr n => Sys2Proof.Machine.execQspiRead addr n s
  | .qspiQread addr n => Sys2Proof.Machine.execQspiQread addr n s
  | .qspiWrite addr words => Sys2Proof.Machine.execQspiWrite addr words s
  | .qspiQwrite addr words => Sys2Proof.Machine.execQspiQwrite addr words s
  | .qspiPstat => Sys2Proof.Machine.execQspiPstat s
  | .qspiCsRise => Sys2Proof.Machine.execQspiCsRise s
  | .pcieReset k => Sys2Proof.Machine.execPcieReset k s
  | .pcieLinkChange speed width => Sys2Proof.Machine.execPcieLinkChange speed width s
  | .mboxWordWrite p k v => Sys2Proof.Machine.execMboxWordWrite p k v s
  | .mboxCommit p v => Sys2Proof.Machine.execMboxCommit p v s
  | .mboxLastRead p w => Sys2Proof.Machine.execMboxLastRead p w s
  | .ringPiWrite p v => Sys2Proof.Machine.execRingPiWrite p v s
  | .ringEntryStart p => Sys2Proof.Machine.execRingEntryStart p s
  | .nop p => Sys2Proof.Machine.execNop p s
  | .cfgchkCommit p => Sys2Proof.Machine.execCfgchkCommit p s
  | .cfgchkRefWrite p a => Sys2Proof.Machine.execCfgchkRefWrite p a s
  | .cfgchkPass => Sys2Proof.Machine.execCfgchkPass s
  | .intrMaskWrite p k a => Sys2Proof.Machine.execIntrMaskWrite p k a s
  | .hostWindowWrite p off bytes => Sys2Proof.Machine.execHostWindowWrite p off bytes s
  | .atAdd p => Sys2Proof.Machine.execAtAdd p s
  | .atSwap p => Sys2Proof.Machine.execAtSwap p s
  | .scrubCycle sp => Sys2Proof.Machine.execScrubCycle sp s
  | .nvRead p len => Sys2Proof.Machine.execNvRead p len s
  | .nvWrite p len => Sys2Proof.Machine.execNvWrite p len s
  | .nvCommit p => Sys2Proof.Machine.execNvCommit p s
  | .nvCommitDone => Sys2Proof.Machine.execNvCommitDone s
  | .setPw p => Sys2Proof.Machine.execSetPw p s
  | .unlock p => Sys2Proof.Machine.execUnlock p s
  | .nvLock p => Sys2Proof.Machine.execNvLock p s
  | .logRead p => Sys2Proof.Machine.execLogRead p s
  | .ledgerCheckpointTimer => Sys2Proof.Machine.execLedgerCheckpointTimer s
  | .vholdSample mv => Sys2Proof.Machine.execVholdSample mv s
  | .pfailAssert => Sys2Proof.Machine.execPfailAssert s
  | .pfailStoreDone => Sys2Proof.Machine.execPfailStoreDone s
  | .pfailDeassert => Sys2Proof.Machine.execPfailDeassert s
  | .logbookHeadWrite => Sys2Proof.Machine.execLogbookHeadWrite s
  | .logArchiveWrite bad => Sys2Proof.Machine.execLogArchiveWrite bad s
  | .manifestArchiveWrite bad => Sys2Proof.Machine.execManifestArchiveWrite bad s
  | .format p => Sys2Proof.Machine.execFormat p s
  | .formatDone good readBack => Sys2Proof.Machine.execFormatDone good readBack s
  | .scrubNow p => Sys2Proof.Machine.execScrubNow p s
  | .flashScrubPass o => Sys2Proof.Machine.execFlashScrubPass o s
  | .faultMessage m => Sys2Proof.Machine.execFaultMessage m s
  | .fltPop p => Sys2Proof.Machine.execFltPop p s
  | .errRelease p => Sys2Proof.Machine.execErrRelease p s
  | .trapClear p => Sys2Proof.Machine.execTrapClear p s
  | .injArm p => Sys2Proof.Machine.execInjArm p s
  | .injCancel p => Sys2Proof.Machine.execInjCancel p s
  | .errWidthExpiry => Sys2Proof.Machine.execErrWidthExpiry s
  | .quietPeriodExpiry c => Sys2Proof.Machine.execQuietPeriodExpiry c s
  | .supplyRailFault rail => Sys2Proof.Machine.execSupplyRailFault rail s
  | .xoinLost => Sys2Proof.Machine.execXoinLost s
  | .refsynUnlock dev => Sys2Proof.Machine.execRefsynUnlock dev s
  | .overTemperature t => Sys2Proof.Machine.execOverTemperature t s
  | .overTemperatureClear => Sys2Proof.Machine.execOverTemperatureClear s
  | .eqLimitReached n => Sys2Proof.Machine.execEqLimitReached n s
  | .xlkFrameDrop lane wrongVer => Sys2Proof.Machine.execXlkFrameDrop lane wrongVer s
  | .msixEnable on => Sys2Proof.Machine.execMsixEnable on s
  | .xoinReturn => Sys2Proof.Machine.execXoinReturn s
  | .supplyRailReturn rail => Sys2Proof.Machine.execSupplyRailReturn rail s

end Sys2Proof.Machine
end

