-- ==== Sys2Proof/Machine/Tick.lean ====
section
/-! DEFINITION. What the passing of one tick of the 1 GHz time base does (R157, R355, R367, R374, R463, R472). The spec's table has no
row for a tick: it is what the device does while no command waits (log entry 2, DESIGN CHOICE). Values are in units of 2⁻⁵⁶ ns. -/

namespace Sys2Proof.Machine

/-- What a tick moves towards an adjust remainder: `ADJ_RATE` in 2⁻⁴⁰ ns, and never more than the remainder (R374). -/
def slewStep (rem : Int) (rate : Nat) : Int :=
  if rem.natAbs ≤ rate * 2 ^ 16 then rem else if rem < 0 then -((rate * 2 ^ 16 : Nat) : Int) else ((rate * 2 ^ 16 : Nat) : Int)

/-- A time scale after one tick: 1 ns × (1 + y), what is slewed of an adjustment, and the phase Φ against the timeline of OSCIN, which
moves by y − ȳ₃₀ in each tick of the time base (R367, R374, R463; log entry 54, DEDUCED). -/
def TscCore.tick (c : TscCore) (now rate : Nat) (ybar : Int) : TscCore :=
  { c with
    past := ((now, c.val, c.y) :: c.past).take 64
    adv := 2 ^ 56 + c.y + slewStep c.rem rate
    sub := (c.sub + 2 ^ 56 + c.y + slewStep c.rem rate).toNat
    rem := c.rem - slewStep c.rem rate
    phi := c.phi + (c.y - ybar)
    ybar := ybar }

/-- ȳ₃₀ as a time scale counts with it: the mean of the VALID slices, or what it held before (R240, R463). -/
def State.tscYbar (s : State) (n : Nat) : Int :=
  let v := s.slices.filterMap id
  if v.isEmpty then (s.tscC n).ybar else roundOpen 54 v.sum v.length

/-- The pulse clock of a pulse output advances with the increment of its anchor, which the image that last landed names, through ferry
hold too (R355, R360). -/
def State.tickPulse (s : State) (m : Nat) : State :=
  if s.isPulse m then
    let v := (s.outC m).pulse + 2 ^ 56 + (s.tscC (((s.outRec m).map (·.anchor)).getD 0)).y
    s.modOut m (fun c => c.withPulse v)
  else s

/-- The corridor of a PTP engine counts on with the frequency of its loop, or with the last one taken from it (R472, R478; log
entry 55). -/
def State.tickCorridor (s : State) (n : Nat) : State :=
  let y := if s.corrIdle n then (s.pteC n).corrFreq else (s.loopC (s.f (PTE.CORR_CTRL_LOOP n))).freq56
  s.modPte n (fun c => { c with corrFreq := y, corrInt := c.corrInt + y })

/-- What has come due on a time scale: the second rollover (R367, R369), and, on one that is built (R76), the end of an adjustment (R374) and
a scheduled increment (R376). -/
def State.tscDue (s : State) (n : Fin 8) : List Instr :=
  let c := s.tscC n
  (if 1000000000 * 2 ^ 56 ≤ c.sub then [Instr.secondRollover n] else []) ++
  if !s.tscBuilt n then [] else
  (if s.on (TSC.STATUS_ADJUSTING n) && c.rem == 0 then [Instr.adjustComplete n] else []) ++
  (match c.sched with
    | some (_, some (sec, sub)) =>
      if ((sec * 1000000000 * 2 ^ 56 + sub : Nat) : Int) ≤ c.val then [Instr.scheduledIncrementDue n] else []
    | _ => [])

/-- What has come due in the device after a tick: the wrap of the coarse count (R158) and what each time scale brings. -/
def State.dueNow (s : State) : List Instr :=
  (if s.now % 2 ^ 44 < 2 then [Instr.coarseWrap] else []) ++ (List.finRange 8).flatMap s.tscDue

/-- The time base runs once the reference synthesiser is locked (R693). -/
def State.clocked (s : State) : Bool := s.top.phase != .held && s.top.phase != .straps

/-- The counters after a tick. -/
def State.advance (s : State) : State :=
  let s := s.forN 28 State.tickPulse
  let s := s.forN 8 (fun s n => s.modTsc n (fun c => c.tick s.now (s.w (TSC.ADJ_RATE n)) (s.tscYbar n)))
  let s := s.forN 8 State.tickCorridor
  { s with now := s.now + 2 }

/-- One tick: the counters advance, and what comes due waits as a command. Without a time base nothing happens. -/
def State.tick (s : State) : State :=
  if s.clocked then
    let s := s.advance
    { s with pending := s.pending ++ s.dueNow }
  else s

end Sys2Proof.Machine
end

