-- ==== Sys2Proof/Safety.lean ====
section
/-! DEFINITION. What the statements are made of: when a host's command reaches a block, what a mailbox holds, and when the tables of
the state are in their canonical form; and which parts of the state a command may change. -/

namespace Sys2Proof.Machine

/-- A command of port `p` on the block whose doorbell is at `key` is taken: the device answers the port (R578, R695), and checks
3 to 6 of R591 pass. -/
def State.takes (s : State) (p : Port) (key : Nat) (pilot : Bool) : Prop :=
  s.reaches p = true ∧ s.cmdCheck p (key / 0x10000) pilot = .ok

/-- The mailbox of a port is device-filled with the words (R598). -/
def State.mboxHolds (s : State) (p : Port) (ws : List Word) : Prop :=
  s.on (HOST.MBOX_STAT_VALID p) = true ∧ s.on (HOST.MBOX_STAT_DEVICE p) = true ∧
    s.f (HOST.MBOX_STAT_LEN p) = ws.length ∧ ∀ (i : Nat) (h : i < ws.length), s.w (HOST.MBOX p i) = (ws[i]).toNat

/-- How far above the normal view of a block's registers a quarter lies (R584). -/
def quarterBase : Quarter → Nat
  | .normal => 0
  | .setPeek => 0x4000
  | .clear => 0x8000
  | .toggle => 0xC000

/-- What a write leaves in a register that held `old`, where a host may write the bits `m` (R584, R586, R589): the written bytes
replace, set, clear or invert what they drive; every other bit stays. -/
def leaves (a : RegAcc) (old m : Nat) : Nat :=
  let drive := a.data.toNat % 2 ^ (8 * a.width.bytes) * 2 ^ (8 * a.lane.val) &&& m
  match a.quarter with
  | .normal => old - (old &&& (m &&& laneMask a.lane a.width.bytes)) + drive
  | .setPeek => old ||| drive
  | .clear => old - (old &&& drive)
  | .toggle => old ^^^ drive

/-- The bits of the register at `K` that a write by port `p` may change (R7, R586, R600). -/
def State.mayWrite (s : State) (p : Port) (K : Nat) : Nat :=
  match s.regFind p (K / 0x10000) (K % 0x10000) with
  | some d => d.writable (s.frozen (K / 0x10000) (K % 0x10000))
  | none => 0

/-- A write of up to four bytes by port `p` to the register whose normal view is at `K` is aligned, 32 bits wide at port B, and
passes every check of R591. -/
def State.performs (s : State) (p : Port) (K : Nat) (a : RegAcc) : Prop :=
  s.reaches p = true ∧ a.width ≠ .b8 ∧ (p = .b → a.width = .b4) ∧ a.lane.val % a.width.bytes = 0 ∧
    s.writeCode p (K + quarterBase a.quarter + a.lane) a.width.bytes a.data.toNat = .ok

/-- Performed, and the register holds what the write leaves. -/
def State.stored (t s : State) (p : Port) (K : Nat) (a : RegAcc) : Prop :=
  (t.hostC p).code = .ok ∧ t.w K = leaves a (s.w K) (s.mayWrite p K)

/-- The ring of a port holds no entry that waits, and the next one is performed as soon as it is posted (R609 to R612). -/
def State.ringReady (s : State) (p : Port) : Prop :=
  s.reaches p = true ∧ s.landed = true ∧ s.f (HOST.RING_PI_PI p) = s.f (HOST.RING_STAT_CI p) ∧
    s.f (HOST.RING_STAT_ACTIVE p) = 0 ∧ s.f (HOST.RING_STAT_WAIT_OUT p) = 0

/-- The entry that was next in the ring of a port has completed with a code and two results, which its words 0, 6 and 7 hold; the
consumer count has advanced (R609, R611). -/
def State.ringDid (t s : State) (p : Port) (c : Code) (r0 r1 : Nat) : Prop :=
  t.w (HOST.RING p (s.f (HOST.RING_STAT_CI p) % 64) 0) / 2 ^ 8 = 2 ^ 23 + c.num ∧
    t.w (HOST.RING p (s.f (HOST.RING_STAT_CI p) % 64) 6) = r0 % 2 ^ 32 ∧
    t.w (HOST.RING p (s.f (HOST.RING_STAT_CI p) % 64) 7) = r1 % 2 ^ 32 ∧
    t.f (HOST.RING_STAT_CI p) = (s.f (HOST.RING_STAT_CI p) + 1) % 2 ^ 16

/-- A berth command of port `p` on handle `h` is taken for the berth in slot `k`: the handle is current, of one of the kinds, and the port
holds the helm of the PTP engine of the berth's port (R13, R103, R495). -/
def State.berthTaken (s : State) (p : Port) (h : Nat) (kinds : List Nat) (k : Nat) : Prop :=
  s.berthHandle h kinds = (.ok, k) ∧ s.holds p (0x98 + (s.berthC k).port) = true

/-- A frame that port `n` hears and counts as received: the port is up and awake without a line fault, the wharf has room, the check sequence
is right and the length permitted (R401, R402, R406, R409, R438). -/
def State.hears (s : State) (n : Nat) (f : RxFrame) : Prop :=
  s.prtLive n = true ∧ s.on (PRT.STATUS_DORMANT n) = false ∧ s.on (PRT.STATUS_LINK n) = true ∧
    s.on (PRT.STATUS_BLOCK_LOCK n) = true ∧ f.line.fault = .none ∧ f.wharfFull = false ∧
    f.fcsOk = true ∧ 64 ≤ f.bytes.length + 4 ∧ f.bytes.length + 4 ≤ s.f (PRT.MTU_OCTETS n)

/-- FRAME_SEND of port `p` names a built port `n` that is not dormant and whose helm `p` holds, and a frame of a permitted length in one host
scratchpad, for which the port buffer has room; no word of memory is damaged (R103, R420). -/
def State.sendsFrame (s : State) (p : Port) (n : Nat) (a0 a1 a2 : Word) : Prop :=
  s.ringReady p ∧ bitsAt a0.toNat 26 24 = n ∧ s.prtBuilt n = true ∧ s.holds p (0x90 + n) = true ∧
    s.inHostSp a1.toNat a2.toNat = true ∧ 60 ≤ a2.toNat ∧ a2.toNat < 16384 ∧ a2.toNat + 4 ≤ s.f (PRT.MTU_OCTETS n) ∧
    s.on (PRT.STATUS_DORMANT n) = false ∧ a2.toNat ≤ s.txFree n ∧ s.ecc = []

/-- FRAME_RECV of port `p` names a built port `n` whose helm `p` holds, and an area in one host scratchpad (R103, R421). -/
def State.takesFrame (s : State) (p : Port) (n : Nat) (a0 a1 a2 : Word) : Prop :=
  s.ringReady p ∧ bitsAt a0.toNat 26 24 = n ∧ s.prtBuilt n = true ∧ s.holds p (0x90 + n) = true ∧
    s.inHostSp a1.toNat a2.toNat = true ∧ a2.toNat < 16384

/-- The receive header of R421 and the frame. -/
def RxHost.image (f : RxHost) : List Byte :=
  wordsLe (BitVec.ofNat 32 (f.stamp.tag.num * 2 ^ 30 + f.bytes.length) :: f.stamp.words ++ [0]) ++ f.bytes

/-- A general frame has left the port at once where it may transmit, and waits in queue 3 where it may not (R416, R417). -/
def State.leaves3 (t s : State) (n : Nat) (f : TxFrame) : Prop :=
  if s.canSend n = true then (t.prtC n).lastTx = some f else f ∈ (t.prtC n).q3

/-- The engine of port `n` may queue an event message: an egress context is free, and the enclave holds the key of the SPP, where one is
asked for (R419, R482). -/
def State.mayQueue (s : State) (n : Nat) (auth : Option Nat) : Prop :=
  s.ctxUsed n < 1024 ∧ auth.all (fun k => (s.spp k).cur.isSome) = true

/-- Nothing waits in port `n`, its buffer has room for a message of the engine, and the enclave holds the key of the SPP, where one is asked for
(R420, R482). -/
def State.mayLeave (s : State) (n : Nat) (auth : Option Nat) : Prop :=
  (s.prtC n).queued = [] ∧ 200 ≤ s.txFree n ∧ auth.all (fun k => (s.spp k).cur.isSome) = true

/-- An event message of the engine of port `n` waits in the express class for its stamp, with a number and a destination (R416, R447). -/
def State.ptpQueued (t s : State) (n : Nat) (o : TxOwner) (k : PtpKind) (seq : Nat) (dst : PtpAddr) : Prop :=
  t.ctxUsed n = s.ctxUsed n + 1 ∧ ∃ m, TxFrame.mk (.ptp m) o ∈ (t.prtC n).qx ∧ m.kind = k ∧ m.seq = BitVec.ofNat 16 seq ∧ m.dst = dst

/-- A Signaling message of the engine of port `n` with TLVs has left for an address, or waits in queue 3 (R416, R446). -/
def State.signalled (t s : State) (n : Nat) (dst : PtpAddr) (tlvs : List SigTlv) : Prop :=
  ∃ m, t.leaves3 s n ⟨.ptp m, .none⟩ ∧ m.kind = .signaling ∧ m.dst = dst ∧ m.tlvs = tlvs

/-- A REQUEST for a kind of grant has left for the upstream berth in slot `k`, or waits in queue 3 (R416, R450). -/
def State.grantAsked (t s : State) (k : Nat) (q : GrantKind) : Prop :=
  t.signalled s (s.berthC k).port (s.berthAddr (s.berthC k))
    [⟨.request, q, min 0 ((s.berthC k).par.logOf q), (s.berthC k).par.grantDur⟩]

/-- The upstream berth that BEST of an engine names (R467, R469). -/
def State.bestBerth (s : State) (n : Nat) : Option Nat := (s.slotsOn n 2).find? (fun j => s.handleOf j == s.w (PTE.BEST n))

/-- The frequency estimate of an upstream berth: the slope of the master phases of its window, of which it takes 16 (R464). -/
def State.corrFreq (s : State) (k : Nat) : Option Int :=
  let ps := (s.berthC k).up.phases.filter (fun p => decide (s.now ≤ p.1 + (s.berthC k).par.freqWin * secT))
  if 16 ≤ ps.length then some (slopeOf ps (s.tscC (s.prtTsc (s.berthC k).port)).ybar) else none

/-- The manifest record of a frozen ledger: the head, the hash of the tenant's last record, and the signature over both (R514, R518). -/
def State.signedRecord (s : State) (f : Frozen) : List Byte :=
  let body := f.head ++ ((s.ledger f.tenant).prev ++ List.replicate 48 0).take 48
  body ++ (Config.ecdsaSign 0 (Config.sha384 body) ++ List.replicate 96 0).take 96

/-- A PTP message that the engine of port `n` takes: the port is up and awake, the wharf has room, length and Ethernet destination pass, the
engine has a role, and version, domain and destination are its own (R402, R424, R444, R445). -/
def State.hearsPtp (s : State) (n : Nat) (f : PtpFrame) : Prop :=
  s.prtLive n = true ∧ s.on (PRT.STATUS_DORMANT n) = false ∧ s.on (PRT.STATUS_LINK n) = true ∧ f.wharfFull = false ∧
    ptpFrameLen f ≤ s.f (PRT.MTU_OCTETS n) ∧ s.accepts n (beBytes 6 (s.etherDst n f.msg)) = true ∧
    s.role n ≠ 0 ∧ s.ptpAccepts n f.msg = true

/-- The message comes from the berth in slot `k`, of a kind, in service, and passes the authentication that the berth asks for
(R445, R446, R480). -/
def State.comesFrom (s : State) (n kind : Nat) (f : PtpFrame) (k : Nat) : Prop :=
  s.sender n kind f.msg = some k ∧ (s.berthC k).live = true ∧ (s.berthC k).kind = kind ∧ s.authFault (s.berthC k) f = none

/-- The berth in slot `k` as a message from it leaves it before the message acts: the replay reference of an authenticated berth follows
(R481). -/
def State.heard (s : State) (k : Nat) (f : PtpFrame) : Berth :=
  if (s.berthC k).par.auth.isSome then { s.berthC k with
    replay := ((ptpType f.msg.kind).1, f.msg.seq.toNat) :: (s.berthC k).replay.filter (fun x => x.1 != (ptpType f.msg.kind).1) }
  else s.berthC k

/-- The two-step Sync of the upstream berth in slot `k` that a Follow_Up belongs to: its number and sender, and its two intervals not over
(R457). -/
def State.pairOf (s : State) (k : Nat) (m : PtpMsg) : Option PairSlot :=
  (s.berthC k).up.pairs.find? (fun p => p.seq == m.seq.toNat && p.src == m.srcId.toNat && decide (s.now < p.arrived + s.pairSpan k))

/-- A frame of the crossing link of a type that the device takes: it comes whole on a lane that is up whose wharf has room, from the
partner, of a type that XLK_VER knows, in the version in force, and is no second copy (R58, R524, R528, R529). -/
def State.hearsLink (s : State) (lane : Nat) (f : XlkFrame) (type : Nat) : Prop :=
  s.xlkLive = true ∧ s.laneUp lane = true ∧ f.wharfFull = false ∧ s.knowsType type = true ∧
    20 ≤ f.bytes.length ∧ f.bytes.length ≤ 1024 ∧ f.bytes.length % 4 = 0 ∧
    beAt f.bytes 2 2 = f.bytes.length ∧ beAt f.bytes (f.bytes.length - 4) 4 = crc32c (f.bytes.take (f.bytes.length - 4)) ∧
    beAt f.bytes 0xB 1 ≠ s.f XLK.CFG_CARD ∧ beAt f.bytes 0 1 = type ∧ (type ≠ 1 → beAt f.bytes 1 1 = s.f XLK.STATUS_VER) ∧
    s.xlk.recent.contains (beAt f.bytes 4 4, 1 - lane) = false

/-- The body of a frame of the crossing link (R528). -/
def linkBody (f : XlkFrame) : List Byte := slice f.bytes 16 (f.bytes.length - 20)

/-- The state once a frame of the crossing link has counted for the settling of its lane, and its header has been taken in. -/
def State.headed (s : State) (lane : Nat) (f : XlkFrame) : State :=
  ((s.laneFrame lane).modXlk (fun x => { x with recent := ((beAt f.bytes 4 4, lane) :: x.recent).take 16 })).xlkHeader f.bytes

/-- Every lane that is up has been sent the frame of a type with a body, and the count of frames has moved on (R524, R528). -/
def State.linkSent (t s : State) (type : Nat) (body : List Byte) : Prop :=
  t.xlk.txSeq = (s.xlk.txSeq + 1) % 2 ^ 32 ∧
    ∀ lane, lane < 2 → s.laneUp lane = true → (2 * type + lane, s.xlkFrame type body) ∈ t.xlk.sent

/-- The numbers that the image in force and the berths hold name units of the device: loops 0 to 31, selectors 0 to 15, and
attachments to an entry of one of those selectors. -/
def State.numbered (s : State) : Bool :=
  s.loopRecs.all (fun r => decide (r.loop < 32)) &&
    ((s.fab.img.map (·.selectors)).getD []).all (fun r => decide (r.selector < 16)) &&
    s.berth.all (fun x => match x.2.att with | some a => decide (a.1 < 16) && decide (a.2.1 < 32) | none => true)

/-- The content that a commit in progress will give the NV array. -/
def NvCore.incoming (c : NvCore) : Tab Byte :=
  match c.commit with
  | some k => k.arr
  | none => []

/-- The tables of registers, of memory with its check bits and scrubbers, of flash, of NV's shadow and array and of a commit in
progress, and of what the units hold, have their keys strictly rising and list nothing equal to what an unlisted key reads as. -/
def State.tablesWf (s : State) : Bool :=
  Tab.wf regDefault s.regs && Tab.wf memDefault s.mem && Tab.wf (fun _ => 0) s.ecc && Tab.wf (fun _ => 0) s.scrub &&
    Tab.wf memDefault s.flash && Tab.wf (fun _ => {}) s.lnd && Tab.wf (fun _ => {}) s.sel && Tab.wf (fun _ => {}) s.ent &&
    Tab.wf (fun _ => {}) s.loop && Tab.wf (fun _ => {}) s.ho && Tab.wf (fun _ => {}) s.apl && Tab.wf (fun _ => {}) s.out &&
    Tab.wf (fun _ => {}) s.tsc && Tab.wf (fun _ => {}) s.tod && Tab.wf (fun _ => []) s.tasks && Tab.wf (fun _ => {}) s.prt &&
    Tab.wf (fun _ => {}) s.pte && Tab.wf (fun _ => {}) s.berth && Tab.wf (fun _ => 0) s.gens &&
    Tab.wf memDefault s.nv.shadow && Tab.wf memDefault s.nv.array && Tab.wf memDefault s.nv.incoming

/-- The parts of the state beside the queue of waiting commands. -/
inductive Part where
  /-- The extended coarse time. -/
  | time
  /-- The count of free values taken. -/
  | freeCount
  /-- The registers. -/
  | regs
  /-- Memory. -/
  | mem
  /-- Check bits of memory. -/
  | ecc
  /-- The scrubbers' positions. -/
  | scrub
  /-- Flash. -/
  | flash
  /-- Slice results of LND[30]. -/
  | slices
  /-- Start-up and resets. -/
  | top
  /-- The voltage loop. -/
  | pwr
  /-- FAB: the image in force, loads and operations. -/
  | fab
  /-- The fault collector. -/
  | flt
  /-- MSI-X. -/
  | intr
  /-- The configuration check. -/
  | cfg
  /-- Host port A. -/
  | hostA
  /-- Host port B. -/
  | hostB
  /-- The NV array and the logbook. -/
  | nv
  /-- The flash manager. -/
  | flm
  /-- The enclave. -/
  | sec
  /-- Manifests and ledgers. -/
  | man
  /-- The crossing link. -/
  | xlk
  /-- Engines. -/
  | eng
  /-- Landings. -/
  | lnd
  /-- Selectors. -/
  | sel
  /-- Entries of selectors. -/
  | ent
  /-- Loops. -/
  | loop
  /-- Holdover units. -/
  | ho
  /-- Synthesisers. -/
  | apl
  /-- Outputs. -/
  | out
  /-- Time scales. -/
  | tsc
  /-- TODOUT lines. -/
  | tod
  /-- Task inputs. -/
  | tasks
  /-- Ports. -/
  | prt
  /-- PTP engines. -/
  | pte
  /-- Berths. -/
  | berth
  /-- Generations of berth slots. -/
  | gens
  deriving DecidableEq, Repr

/-- Two states agree in a part. -/
def State.same (s t : State) : Part → Prop
  | .time => t.now = s.now
  | .freeCount => t.freeCount = s.freeCount
  | .regs => t.regs = s.regs
  | .mem => t.mem = s.mem
  | .ecc => t.ecc = s.ecc
  | .scrub => t.scrub = s.scrub
  | .flash => t.flash = s.flash
  | .slices => t.slices = s.slices
  | .top => t.top = s.top
  | .pwr => t.pwr = s.pwr
  | .fab => t.fab = s.fab
  | .flt => t.flt = s.flt
  | .intr => t.intr = s.intr
  | .cfg => t.cfg = s.cfg
  | .hostA => t.hostA = s.hostA
  | .hostB => t.hostB = s.hostB
  | .nv => t.nv = s.nv
  | .flm => t.flm = s.flm
  | .sec => t.sec = s.sec
  | .man => t.man = s.man
  | .xlk => t.xlk = s.xlk
  | .eng => t.eng = s.eng
  | .lnd => t.lnd = s.lnd
  | .sel => t.sel = s.sel
  | .ent => t.ent = s.ent
  | .loop => t.loop = s.loop
  | .ho => t.ho = s.ho
  | .apl => t.apl = s.apl
  | .out => t.out = s.out
  | .tsc => t.tsc = s.tsc
  | .tod => t.tod = s.tod
  | .tasks => t.tasks = s.tasks
  | .prt => t.prt = s.prt
  | .pte => t.pte = s.pte
  | .berth => t.berth = s.berth
  | .gens => t.gens = s.gens

/-- Every part. -/
def Part.all : List Part :=
    [.time, .freeCount, .regs, .mem, .ecc, .scrub, .flash, .slices, .top, .pwr, .fab, .flt, .intr, .cfg, .hostA, .hostB, .nv,
   .flm, .sec, .man, .xlk, .eng, .lnd, .sel, .ent, .loop, .ho, .apl, .out, .tsc, .tod, .tasks, .prt, .pte, .berth, .gens]

/-- Every part but some. -/
def Part.allBut (l : List Part) : List Part := Part.all.filter (fun p => !l.contains p)

/-- The parts that a command may change. One that can send a fault message may change what the reaction in force resets (R667). -/
def touches (c : Instr) : List Part :=
  match c with
  | .registerWrite _ _ | .canaryWindowEnd _ | .avsStepDone _ _ | .imageLanded | .lndCtrlWrite _ _ _ | .lndDecimWrite _ _ _
  | .lndGateWrite _ _ _ | .lndNomFreqWrite _ _ _ | .lndObsWrite _ _ | .lndSliceWrite _ _ _ | .selForceWrite _ _ _
  | .selCandCfgWrite _ _ _ _ | .loopBwWrite _ _ _ | .loopSlopeWrite _ _ _ | .loopFreeFreqWrite _ _ _ | .loopCoefWrite _ _ _ _
  | .loopDampWrite _ _ _ | .loopWeightCommit _ _ _ | .hoTempWrite _ _ _ | .hoOvrWrite _ _ _ | .outEnWrite _ _ _
  | .routeWrite _ _ _ _ | .prtDormantWrite _ _ _ | .prtTxclkWrite _ _ _ | .prtAdminWrite _ _ _ | .xlkAdminWrite _ _
  | .qspiWrite _ _ | .qspiQwrite _ _ | .mboxWordWrite _ _ _ | .mboxCommit _ _ | .ringPiWrite _ _ | .cfgchkCommit _
  | .cfgchkRefWrite _ _ | .intrMaskWrite _ _ _ =>
    Part.allBut [.time, .scrub, .flash]
  | .clearingRead _ _ | .avsEventRead _ | .fetchResult _ _ | .fetchDiv _ _ | .pcieReset _ | .mboxLastRead _ _ | .trapClear _ =>
    [.regs, .intr, .hostA, .hostB]
  | .powerOn | .resetNFall | .brownOut _ =>
    Part.allBut [.freeCount, .flash]
  | .resetNRise _ =>
    [.regs, .top, .flm]
  | .refsynLocked =>
    [.regs, .top, .pwr]
  | .startupInitDone _ _ | .fullrstNFall | .topCmdFullReset _ _ | .stage _ | .verify _ | .verifyDone | .writeSlot _ _
  | .loadSlot _ _ | .loadSlotDone _ | .eraseSlot _ _ | .readId _ _ | .activate _ _ | .commitRollback _ | .rollbackFusesDone _
  | .loadFailed _ | .landingWatchdogExpiry | .landingEdge _ _ | .activityLost _ | .loopUpdate _ _ | .failoverResume _ _
  | .migrationResume _ _ | .historyCopyDone _ | .engineSelfTestDone _ _ | .lockWindowEnd _ _ | .ticketVerified _
  | .frameSend _ _ _ _ _ | .frameRecv _ _ _ _ _ | .berthCreate _ _ _ _ _ _ | .berthDestroy _ _ _ _ _ _
  | .berthEnable _ _ _ _ _ _ | .berthDisable _ _ _ _ _ _ | .paramSet _ _ _ _ _ _ | .paramGet _ _ _ _ _ _ | .attach _ _ _ _ _ _
  | .detach _ _ _ _ _ _ | .evqPop _ _ _ _ _ _ | .evqScan _ _ _ _ _ _ | .msgLoad _ _ _ _ _ _ | .berthInfo _ _ _ _ _ _
  | .tenantOpen _ _ _ _ _ _ | .tenantClose _ _ _ _ _ _ | .manPeek _ _ _ _ _ _ | .manExport _ _ _ _ _ _ | .helloReceived _ _
  | .heartbeatReceived _ _ | .phaseReceived _ _ | .loopstateReceived _ _ | .timestateReceived _ _ | .berthstateReceived _ _
  | .switchRequestReceived _ _ | .switchAcceptReceived _ _ | .switchRefuseReceived _ _ | .switchCommitReceived _ _
  | .noticeReceived _ _ | .certRead _ _ | .attest _ | .attestRead _ _ | .provisionLabel _ | .provisionLabelDone | .keyLoad _
  | .keyRoll _ _ | .keyErase _ _ | .keyList _ _ | .takeOwnership _ | .takeOwnershipDone _ | .secRetire _ | .secRetireDone _
  | .qspiRead _ _ | .qspiQread _ _ | .ringEntryStart _ | .nop _ | .cfgchkPass | .hostWindowWrite _ _ _ | .atAdd _ | .atSwap _
  | .logArchiveWrite _ | .manifestArchiveWrite _ | .flashScrubPass _ | .faultMessage _ | .injArm _ | .supplyRailFault _
  | .xoinLost | .refsynUnlock _ | .overTemperature _ =>
    Part.allBut [.time, .scrub, .flash, .pwr]
  | .nvRecoveryDone =>
    [.freeCount, .regs, .top, .intr, .nv, .man, .tsc]
  | .flmLinkReady =>
    [.regs, .mem, .ecc, .top, .fab, .flt, .intr, .nv, .apl]
  | .fullrstNRise =>
    [.regs, .mem, .ecc, .top, .fab, .flt, .intr, .apl]
  | .writeSlotDone _ _ =>
    Part.allBut [.time, .scrub, .pwr]
  | .eraseSlotDone =>
    [.regs, .flash, .fab, .intr, .nv, .flm]
  | .activateHandoverTimeout =>
    [.regs, .fab, .intr, .xlk]
  | .slicerUpdate _ _ _ =>
    [.regs, .intr, .lnd]
  | .coarseWrap | .incumbentTimer | .overTemperatureClear | .xoinReturn =>
    [.regs]
  | .gateEnd _ | .gateLongTimeout _ | .linkSettled _ =>
    [.regs, .lnd]
  | .intervalOverflow _ | .armTdcTask _ =>
    [.freeCount, .regs, .intr, .lnd, .tasks]
  | .intervalDone _ =>
    [.regs, .intr, .lnd, .tasks]
  | .regressionDone _ | .linkDown _ _ | .xlkLaneDown _ =>
    [.freeCount, .regs, .intr, .nv, .man, .xlk, .lnd, .sel, .ent, .loop, .ho, .tasks, .prt, .berth]
  | .lnd30SliceEnd =>
    [.regs, .slices, .intr, .lnd, .loop, .ho]
  | .lndArm _ _ =>
    [.freeCount, .regs, .intr, .hostA, .hostB, .lnd, .tasks]
  | .fetchCal _ _ =>
    [.freeCount, .regs, .intr, .hostA, .hostB]
  | .wtrExpiry _ _ | .holdoffExpiry _ | .esmcTimeout _ | .announceTimeout _ | .sampleStreamTimeout _ | .corridorReadmit _ =>
    [.regs, .intr, .nv, .man, .xlk, .sel, .ent, .loop, .ho, .tasks, .prt, .berth]
  | .readmit _ _ _ =>
    [.regs, .intr, .hostA, .hostB, .nv, .man, .xlk, .sel, .ent, .loop, .ho, .tasks, .prt, .berth]
  | .lockDwellExpiry _ =>
    [.regs, .intr, .loop, .ho, .tasks]
  | .gearDwellExpiry _ =>
    [.regs, .intr, .loop]
  | .stepLoad _ _ | .stepGo _ _ | .stepCancel _ _ | .loopFetch _ _ | .fetchModel _ _ =>
    [.regs, .intr, .hostA, .hostB, .loop]
  | .stepPhaseTask _ =>
    [.regs, .intr, .loop, .tasks]
  | .historyIntervalEnd _ | .refitDone _ | .entryFitDone _ =>
    [.regs, .mem, .ecc, .flt, .intr, .ho]
  | .holdoverSecond _ =>
    [.regs, .intr, .ho]
  | .temperatureSample _ _ =>
    [.regs, .ho]
  | .tempStaleTimeout _ | .pdiffCheck _ | .adjustComplete _ | .preemptVerifyDone _ _ | .pcieLinkChange _ _ | .vholdSample _
  | .eqLimitReached _ | .xlkFrameDrop _ _ =>
    [.regs, .intr]
  | .loadModel _ _ | .clearHistory _ _ =>
    [.regs, .mem, .ecc, .flt, .intr, .hostA, .hostB, .loop, .ho]
  | .engRetire _ _ | .engReturn _ _ | .engMigrate _ _ _ =>
    [.regs, .mem, .ecc, .flt, .intr, .cfg, .hostA, .hostB, .nv, .eng, .loop, .ho]
  | .ferryLimitExpiry =>
    [.regs, .intr, .nv, .eng, .out]
  | .landWaitExpiry _ =>
    [.regs, .intr, .nv, .loop, .ho, .tasks]
  | .bandCalDone _ _ | .analogAcqDone _ =>
    [.regs, .apl]
  | .rampTo _ _ _ | .rampLoad _ _ _ | .rampGo _ _ | .rampStop _ _ | .fetchNom _ _ =>
    [.freeCount, .regs, .intr, .hostA, .hostB, .apl]
  | .startRampTask _ | .rampSegmentEnd _ =>
    [.freeCount, .regs, .intr, .apl, .tasks]
  | .divLoad _ _ =>
    [.regs, .intr, .hostA, .hostB, .out]
  | .divApply _ | .syncPoint _ =>
    [.regs, .intr, .out]
  | .outAlign _ _ | .groupEnable _ _ _ | .groupRealign _ _ _ | .groupDisable _ _ _ =>
    [.regs, .intr, .hostA, .hostB, .nv, .out]
  | .realignOutputTask _ =>
    [.regs, .intr, .nv, .out, .tasks]
  | .pulseLeadingEdge _ =>
    [.regs, .intr, .out, .tasks]
  | .setInc _ _ | .adjust _ _ | .tscStep _ _ | .stepTicket _ _ | .setTime _ _ | .schedule _ _ | .cancelSched _ _ | .snap _ _
  | .setThresh _ _ =>
    [.regs, .intr, .hostA, .hostB, .nv, .sec, .man, .tsc, .tod, .tasks]
  | .secondRollover _ =>
    [.regs, .intr, .nv, .man, .tsc, .tod, .tasks]
  | .manifestSigned =>
    [.regs, .intr, .nv, .man]
  | .scheduledIncrementDue _ | .applySchedTask _ =>
    [.regs, .intr, .nv, .tsc, .tasks]
  | .todoutMessage _ =>
    [.regs, .intr, .tod]
  | .swevt _ _ =>
    [.regs, .intr, .hostA, .hostB, .tasks]
  | .stampTask _ =>
    [.regs, .intr, .tasks, .berth]
  | .sendBerthMessageTask _ | .esmcInfoTx _ | .txStampDelivery _ _ | .delayReqTxInterval _ | .grantRenew _ _ | .grantRetry _ _ =>
    [.regs, .intr, .man, .tasks, .prt, .berth]
  | .linkSignalDetect _ =>
    [.freeCount, .regs, .prt]
  | .linkUp _ =>
    [.freeCount, .regs, .intr, .man, .lnd, .prt]
  | .linkHoldExpiry _ =>
    [.prt]
  | .frameReceived _ _ | .esmcPduReceived _ _ | .pauseReceived _ _ | .syncReceived _ _ | .delayReqReceived _ _
  | .followUpReceived _ _ | .delayRespReceived _ _ | .announceReceived _ _ | .signalingReceived _ _ =>
    [.freeCount, .regs, .intr, .nv, .man, .xlk, .sel, .ent, .loop, .ho, .tasks, .prt, .pte, .berth]
  | .pauseQuantaExpiry _ =>
    [.regs, .man, .prt]
  | .pauseWatchdogExpiry _ =>
    [.regs, .intr, .man, .prt]
  | .pauseRepeat _ | .prtLoopcalDone _ _ =>
    [.regs, .prt]
  | .tsqPop _ _ | .fetchStats _ _ | .peekStats _ _ | .wakeLoad _ _ | .prtLoopcal _ _ =>
    [.regs, .intr, .hostA, .hostB, .prt]
  | .syncTxInterval _ _ | .announceTxInterval _ _ =>
    [.regs, .intr, .man, .tasks, .prt, .pte, .berth]
  | .followUpTimeout _ | .grantExpiry _ _ | .asymRampDone _ =>
    [.regs, .intr, .berth]
  | .tsPresentPeriod _ =>
    [.regs, .intr, .nv, .man, .xlk, .sel, .ent, .loop, .ho, .tsc, .tod, .tasks, .prt, .pte, .berth]
  | .corridorSecond _ =>
    [.regs, .intr, .nv, .man, .xlk, .sel, .ent, .loop, .ho, .tasks, .prt, .pte, .berth]
  | .admitPop _ _ | .fetchDataset _ _ | .promote _ _ | .asymLoad _ _ | .asymClear _ _ =>
    [.freeCount, .regs, .intr, .hostA, .hostB, .nv, .man, .xlk, .sel, .ent, .loop, .ho, .tasks, .prt, .pte, .berth]
  | .helloTx | .heartbeatTx | .loopstateTx | .timestateTx | .berthstateTx _ =>
    [.xlk]
  | .phaseTx _ _ =>
    [.regs, .xlk]
  | .heartbeatLoss | .switchAcceptTimeout =>
    [.regs, .fab, .intr, .nv, .man, .xlk, .sel, .ent, .loop, .ho, .tasks, .prt, .berth]
  | .xlkSwitch _ | .fetchLoops _ | .fetchTimes _ | .xlkLoopcal _ =>
    [.regs, .intr, .hostA, .hostB, .xlk]
  | .xlkLoopcalDone _ _ =>
    [.regs, .cfg, .xlk]
  | .xlkPresentPeriod =>
    [.regs, .intr, .nv, .man, .xlk, .tsc, .tod, .tasks]
  | .xlkLaneUp _ =>
    [.regs, .intr, .xlk, .lnd]
  | .attestDone =>
    [.regs, .intr, .sec]
  | .tapInstruction _ =>
    Part.allBut [.flash]
  | .qspiPstat | .qspiCsRise =>
    [.hostA, .hostB]
  | .scrubCycle _ =>
    Part.allBut [.time, .flash, .pwr]
  | .nvRead _ _ | .nvWrite _ _ | .nvCommit _ | .setPw _ | .unlock _ | .nvLock _ | .logRead _ =>
    [.freeCount, .regs, .intr, .hostA, .hostB, .nv]
  | .nvCommitDone | .pfailStoreDone =>
    [.regs, .intr, .nv, .flm]
  | .ledgerCheckpointTimer =>
    [.regs, .nv]
  | .pfailAssert =>
    [.regs, .intr, .nv, .man, .xlk, .tasks]
  | .pfailDeassert | .logbookHeadWrite =>
    [.regs, .intr, .nv]
  | .format _ | .scrubNow _ =>
    [.regs, .intr, .hostA, .hostB, .flm]
  | .formatDone _ _ =>
    [.regs, .flash, .intr, .nv, .flm, .man]
  | .fltPop _ | .errRelease _ | .injCancel _ =>
    [.regs, .flt, .intr, .hostA, .hostB]
  | .errWidthExpiry | .supplyRailReturn _ =>
    [.regs, .flt]
  | .quietPeriodExpiry _ =>
    [.regs, .flt, .intr]
  | .msixEnable _ =>
    [.intr]

end Sys2Proof.Machine
end

