-- ==== Sys2Proof/Certificates/Slice0/Obligations.lean ====
section
/-! DEFINITION. The statements about the machine, for the provers. A statement of what a command does says that its meaning answers a
next state, under conditions on the state and the operands alone, and what that state holds. -/

open Sys2Proof Sys2Proof.Machine

/-! The queue, reset, and the invariants. -/

/-- A step with a command at the front of the queue runs that command on the state with the queue's rest. -/
def Obligations.StepRunsFrontCommand : Prop :=
  ∀ (c : Instr) (rest : List Instr) (s : State), s.pending = c :: rest → step s = exec c { s with pending := rest }

/-- Every command completes in every state, and what it does leaves the queue of waiting commands as it is. -/
def Obligations.CommandsKeepQueue : Prop :=
  ∀ (c : Instr) (s : State), ∃ t, exec c s = .next t ∧ t.pending = s.pending

/-- What a command does reaches only the parts of the state that are listed for it: every other part is as before. -/
def Obligations.CommandsTouchOnly : Prop :=
  ∀ (c : Instr) (s t : State), exec c s = .next t → ∀ q : Part, q ∉ touches c → s.same t q

/-- Every step keeps every table of the state in its canonical form: keys strictly rising, nothing listed that an unlisted key reads
as. -/
def Obligations.StepKeepsTablesCanonical : Prop :=
  ∀ (s t : State), s.tablesWf = true → step s = .next t → t.tablesWf = true

/-- The tables of the reset state are in their canonical form, and no command waits. -/
def Obligations.ResetTablesCanonical : Prop :=
  State.reset.tablesWf = true ∧ State.reset.pending = []

/-- The numbers of loops, selectors and attachments stay within the device: State.reset has it so, and every step keeps it (R75, R83, R125, R503). -/
def Obligations.NumbersStayInRange : Prop :=
  State.reset.numbered = true ∧ ∀ (s t : State), s.numbered = true → step s = .next t → t.numbered = true

/-! Supply, clocks, start-up and the fault collector. -/

/-- The live bits of FLT.DEVICE: a rail, the crystal and the die temperature come back (R675); a loss raises its bit when the reaction in
force neither resets a block nor the device. -/
def Obligations.DeviceConditionsFollowTheirCauses : Prop :=
  (∀ (s : State), ∃ t, exec .xoinReturn s = .next t ∧ t.f FLT.DEVICE_XOIN = 0) ∧
  (∀ (s : State), ∃ t, exec .overTemperatureClear s = .next t ∧ t.f FLT.DEVICE_TEMP = 0) ∧
  (∀ (rail : Fin 14) (s : State), ∃ t, exec (.supplyRailReturn rail) s = .next t ∧
    t.flt.rails = s.flt.rails.filter (fun r => r != rail.val) ∧ (t.f FLT.DEVICE_RAIL_FAULT = 0 ↔ t.flt.rails = [])) ∧
  (∀ (s : State), s.top.phase ≠ .held → s.f FLT.DEVICE_XOIN = 0 → s.flt.injCheck = false → s.reaction 0 0x02 < 8 →
    ∃ t, exec .xoinLost s = .next t ∧ t.f FLT.DEVICE_XOIN = 1) ∧
  (∀ (dev : Int) (s : State), s.top.phase ≠ .held → s.f FLT.DEVICE_REFSYN = 0 → s.flt.injCheck = false → s.reaction 0 0x04 < 8 →
    ∃ t, exec (.refsynUnlock dev) s = .next t ∧ t.f FLT.DEVICE_REFSYN = 1) ∧
  (∀ (deg : Int) (s : State), s.top.phase ≠ .held → s.f FLT.DEVICE_TEMP = 0 → s.flt.injCheck = false → s.reaction 0 0x05 < 8 →
    (if s.f TOP.ID_GRADE = 2 then 125 else 110) * 128 < deg →
    ∃ t, exec (.overTemperature deg) s = .next t ∧ t.f FLT.DEVICE_TEMP = 1) ∧
  (∀ (rail : Fin 14) (s : State), s.top.phase ≠ .held → rail.val ∉ s.flt.rails → s.flt.injCheck = false → s.reaction 0 0x01 < 8 →
    ∃ t, exec (.supplyRailFault rail) s = .next t ∧ t.flt.rails = rail.val :: s.flt.rails ∧
      t.f FLT.DEVICE_RAIL_FAULT = 1 ∧ t.f FLT.DEVICE_RAIL = rail.val)

/-- The voltage loop (R62, R63, R64, R66, R71). At the end of a measurement window, while it may move the voltage itself, the code goes up
one step at 497 laps or fewer, each with the target trim added; in any other window it moves only when three windows or more have passed
since the last step: down one at 518 laps or more, up one at 506 or fewer. The laps show in CANARY. A step that has been read back is over;
a failed transaction, or a third reading in a row more than 10 mV away from 620 mV + 5 mV for each code, sets BUSERR and its sticky bit,
when the fault's reaction resets nothing. -/
def Obligations.VoltageLoop : Prop :=
  (∀ (laps : BitVec 16) (s : State), s.top.phase ≠ .held → s.top.phase ≠ .straps → s.on PWR.AVS_STATUS_BUSERR = false →
    s.on PWR.AVS_CTRL_MANUAL = false → s.on PWR.AVS_STATUS_DEFICIT = false → s.flt.injWindows = 0 → s.pwr.code < 44 →
    ∃ t, exec (.canaryWindowEnd laps) s = .next t ∧
      (t.pwr.code : Int) =
        (if (laps.toNat : Int) ≤ 497 + toSigned 8 (s.f PWR.AVS_CTRL_TRIM) then (s.pwr.code : Int) + 1
        else if s.pwr.sinceStep < 3 then (s.pwr.code : Int)
        else if 518 + toSigned 8 (s.f PWR.AVS_CTRL_TRIM) ≤ (laps.toNat : Int) then max 0 ((s.pwr.code : Int) - 1)
        else if (laps.toNat : Int) ≤ 506 + toSigned 8 (s.f PWR.AVS_CTRL_TRIM) then (s.pwr.code : Int) + 1
        else (s.pwr.code : Int)) ∧
      (s.top.phase ≠ .flm → t.f PWR.CANARY_LAPS = laps.toNat)) ∧
  (∀ (mv c : Nat) (ok : Bool) (s : State), s.pwr.stepping = some c →
    ∃ t, exec (.avsStepDone mv ok) s = .next t ∧ t.pwr.stepping = none ∧
      (s.on PWR.AVS_STATUS_BUSERR = false → s.flt.injCheck = false → s.flt.injAvs = false → s.reaction 0 0x06 < 8 → c < 64 →
        ok = false ∨ (2 ≤ s.pwr.badReads ∧ (mv + 10 < 620 + 5 * c ∨ 620 + 5 * c + 10 < mv)) →
        t.on PWR.AVS_STATUS_BUSERR = true ∧ t.on PWR.AVS_EVENT_BUSERR_SEEN = true))

/-- Resets. A cold reset, whatever its trigger (R685, R687, R690, R692): the device is held with its cause; memory, the landings, the loops
and the time scales are as at power-on; and flash stays as it is. Full resets from the pin and from a host (R691, R697): the fall of
FULLRST_N begins one and holds the load, its rise lets the load begin; 0x0000_A501 in TOP.CMD begins one, and any other word is refused with
BAD_ARGUMENT. -/
def Obligations.Resets : Prop :=
  (∀ (s : State), ∃ t, exec .powerOn s = .next t ∧ t.top.phase = .held ∧ t.f TOP.RST_STAT_COLD_CAUSE = 0 ∧
    t.mem = [] ∧ t.lnd = [] ∧ t.loop = [] ∧ t.tsc = [] ∧ t.flash = s.flash ∧ t.now = 0) ∧
  (∀ (s : State), s.top.phase ≠ .held → ∃ t, exec .resetNFall s = .next t ∧ t.top.phase = .held ∧ t.f TOP.RST_STAT_COLD_CAUSE = 1 ∧
    t.mem = [] ∧ t.lnd = [] ∧ t.loop = [] ∧ t.tsc = [] ∧ t.flash = s.flash ∧ t.now = 0) ∧
  (∀ (rail : WatchedRail) (s : State), s.top.phase ≠ .held → ∃ t, exec (.brownOut rail) s = .next t ∧ t.top.phase = .held ∧
    t.f TOP.RST_STAT_COLD_CAUSE = 2 ∧ t.mem = [] ∧ t.lnd = [] ∧ t.loop = [] ∧ t.tsc = [] ∧ t.flash = s.flash ∧ t.now = 0) ∧
  (∀ (s : State), s.answers = true → s.top.fullHeld = false → ∃ t, exec .fullrstNFall s = .next t ∧ t.top.fullHeld = true ∧
    t.top.inFull = true) ∧
  (∀ (s : State), s.top.fullHeld = true → ∃ t, exec .fullrstNRise s = .next t ∧ t.top.fullHeld = false) ∧
  (∀ (p : Port) (s : State), s.takes p TOP.CMD false → ∃ t, exec (.topCmdFullReset p 0xA501) s = .next t ∧ t.top.inFull = true) ∧
  (∀ (p : Port) (key : Word) (s : State), s.takes p TOP.CMD false → key ≠ 0xA501 → ∃ t, exec (.topCmdFullReset p key) s = .next t ∧
    (t.hostC p).code = .badArgument ∧ t.top = s.top ∧ t.fab = s.fab)

/-- Start-up goes through the steps of R693: RESET_N rises and the straps are read; the reference synthesiser locks and the voltage code
becomes 26; initialisation ends with
every scratchpad that belongs to no engine filled with zeros; NV recovers, with every floor taken from the array; the flash link is ready,
and FAB waits for a regulated window (R71). -/
def Obligations.StartUpSteps : Prop :=
  (∀ (x : Straps) (s : State), s.top.phase = .held → s.sec.tapHold = false → ∃ t, exec (.resetNRise x) s = .next t ∧
    t.top.phase = .straps ∧ t.f TOP.STRAP_XOFREQ = x.xofreq.toNat ∧ t.f FLM.STATE_NAND = b2n x.nand ∧ t.flm.nand = x.nand) ∧
  (∀ (s : State), s.top.phase = .straps → s.on FLT.DEVICE_XOIN = false → ∃ t, exec .refsynLocked s = .next t ∧
    t.top.phase = .refsyn ∧ t.pwr.code = 26 ∧ t.f PWR.AVS_STATUS_CODE = 26) ∧
  (∀ (s : State), s.top.phase = .refsyn → s.sec.fuse = [] → ∃ t, exec (.startupInitDone [] true) s = .next t ∧
    t.top.phase = .init ∧ (∀ a, 36 * spSize ≤ a → t.byte a = 0)) ∧
  (∀ (s : State), s.top.phase = .init → ∃ t, exec .nvRecoveryDone s = .next t ∧ t.top.phase = .nv ∧ t.top.powerLost = false ∧
    t.nv.shadow = t.nv.array ∧ t.nv.sys = t.nv.sysArray ∧ (s.nv.commit = none → t.nv.array = s.nv.array)) ∧
  (∀ (s : State), s.top.phase = .nv → s.pwr.regulated = false → ∃ t, exec .flmLinkReady s = .next t ∧ t.top.phase = .flm)

/-! FAB: slots, the slipway, verification and loads. -/

/-- Operations of FAB that it accepts (R137): STAGE, VERIFY, WRITE_SLOT, LOAD_SLOT and ERASE_SLOT, each of a port whose command the block
takes while it is not BUSY. STAGE completes at once; the others start, hold BUSY, and latch their operands; a slot that is written reads
EMPTY from then on (R136), and a slipway that is verified or loaded reads VERIFYING (R139). One that it refuses completes at once with
BAD_ARGUMENT or LOCKED and leaves the slipway and the slots.
Rests on choices of the model: log entries 37, 83, 97. -/
def Obligations.FabOperations : Prop :=
  (∀ (p : Port) (s : State), s.takes p FAB.OP false → s.f FAB.OP_STATUS_BUSY = 0 → s.f FAB.STATE_SLIPWAY ≠ 2 →
    ∃ t, exec (.stage p) s = .next t ∧ t.f FAB.STATE_SLIPWAY = 1 ∧ t.f FAB.STATE_VSLOT = 3 ∧ t.f FAB.OP_STATUS_BUSY = 0 ∧
      t.f FAB.OP_STATUS_LAST_OP = 1 ∧ t.f FAB.OP_STATUS_CODE = Code.ok.num) ∧
  (∀ (p : Port) (s : State), s.takes p FAB.OP false → s.f FAB.OP_STATUS_BUSY = 0 → s.f FAB.STATE_SLIPWAY = 1 →
    256 ≤ s.w FAB.OP_ARG → s.w FAB.OP_ARG ≤ 8388608 →
    ∃ t, exec (.verify p) s = .next t ∧ t.f FAB.STATE_SLIPWAY = 2 ∧ t.f FAB.OP_STATUS_BUSY = 1 ∧
      t.fab = { s.fab with op := some ⟨2, 3, p, s.w FAB.OP_ARG⟩ }) ∧
  (∀ (p : Port) (k : BitVec 2) (s : State), s.takes p FAB.OP false → s.f FAB.OP_STATUS_BUSY = 0 → s.f FAB.STATE_SLIPWAY = 3 →
    k ≠ 3 → s.f FAB.SLOTS_CURRENT ≠ k.toNat → ¬(k = 2 ∧ s.on FAB.CTRL_GOLDEN_LOCK = true) → s.flm.takenOf k.toNat = 0 →
    ∃ t, exec (.writeSlot p k) s = .next t ∧ t.f (slotField k.toNat) = 0 ∧ t.f (slotSv k.toNat) = 0x7F ∧
      t.f FAB.OP_STATUS_BUSY = 1 ∧ t.fab = { s.fab with op := some ⟨3, k.toNat, p, s.w FAB.OP_ARG⟩ }) ∧
  (∀ (p : Port) (k : BitVec 2) (s : State), s.takes p FAB.OP false → s.f FAB.OP_STATUS_BUSY = 0 →
    k ≠ 3 → (s.f (slotField k.toNat) = 1 ∨ s.f (slotField k.toNat) = 2) →
    ∃ t, exec (.loadSlot p k) s = .next t ∧ t.f FAB.STATE_SLIPWAY = 2 ∧ t.f FAB.STATE_VSLOT = 3 ∧ t.f FAB.OP_STATUS_BUSY = 1 ∧
      t.fab = { s.fab with op := some ⟨4, k.toNat, p, s.w FAB.OP_ARG⟩ }) ∧
  (∀ (p : Port) (k : BitVec 2) (s : State), s.takes p FAB.OP false → s.f FAB.OP_STATUS_BUSY = 0 → k.toNat < 2 →
    s.f FAB.SLOTS_CURRENT ≠ k.toNat →
    ∃ t, exec (.eraseSlot p k) s = .next t ∧ t.f FAB.OP_STATUS_BUSY = 1 ∧
      t.fab = { s.fab with op := some ⟨7, k.toNat, p, s.w FAB.OP_ARG⟩ }) ∧
  (∀ (p : Port) (s : State), s.takes p FAB.OP false → s.f FAB.OP_STATUS_BUSY = 0 →
      (s.f FAB.STATE_SLIPWAY = 2 → ∃ t, exec (.stage p) s = .next t ∧ t.f FAB.OP_STATUS_CODE = Code.badArgument.num ∧
        t.w FAB.STATE = s.w FAB.STATE ∧ t.w FAB.SLOTS = s.w FAB.SLOTS) ∧
      (s.f FAB.STATE_SLIPWAY ≠ 1 ∨ s.w FAB.OP_ARG < 256 ∨ 8388608 < s.w FAB.OP_ARG → ∃ t, exec (.verify p) s = .next t ∧
        t.f FAB.OP_STATUS_CODE = Code.badArgument.num ∧ t.w FAB.STATE = s.w FAB.STATE ∧ t.w FAB.SLOTS = s.w FAB.SLOTS) ∧
      (∀ k : BitVec 2, k = 3 ∨ s.f FAB.STATE_SLIPWAY ≠ 3 → ∃ t, exec (.writeSlot p k) s = .next t ∧
        t.f FAB.OP_STATUS_CODE = Code.badArgument.num ∧ t.w FAB.STATE = s.w FAB.STATE ∧ t.w FAB.SLOTS = s.w FAB.SLOTS) ∧
      (∀ k : BitVec 2, k ≠ 3 → s.f FAB.STATE_SLIPWAY = 3 → (s.f FAB.SLOTS_CURRENT = k.toNat ∨ (k = 2 ∧ s.on FAB.CTRL_GOLDEN_LOCK = true) ∨
          0 < s.flm.takenOf k.toNat) →
        ∃ t, exec (.writeSlot p k) s = .next t ∧ t.f FAB.OP_STATUS_CODE = Code.locked.num ∧ t.w FAB.STATE = s.w FAB.STATE ∧
          t.w FAB.SLOTS = s.w FAB.SLOTS) ∧
      (∀ k : BitVec 2, k.toNat < 2 → s.f FAB.SLOTS_CURRENT = k.toNat → ∃ t, exec (.eraseSlot p k) s = .next t ∧
        t.f FAB.OP_STATUS_CODE = Code.locked.num ∧ t.w FAB.STATE = s.w FAB.STATE ∧ t.w FAB.SLOTS = s.w FAB.SLOTS))

/-- Operations of FAB that take time end (R131, R136, R137, R148): a slot written reads as the slipway does and is WRITTEN; a slot erased reads
as unwritten flash and is EMPTY; a slot loaded lies in the slipway; the slipway is VERIFIED when every check passes and REJECTED with the failure
code when one fails; the fuses show the count; and an operation that has ended is not BUSY and tells its code.
Rests on choices of the model: log entries 7, 37, 96. -/
def Obligations.FabOperationsEnd : Prop :=
  (∀ (s : State) (o : FabOp), s.fabRuns 3 = some o → s.f (slotField o.slot) = 0 → s.flashReady = true →
    ∃ t, exec (.writeSlotDone true []) s = .next t ∧ t.f (slotField o.slot) = 1 ∧ t.fab.op = none ∧ t.f FAB.OP_STATUS_BUSY = 0 ∧
      t.f FAB.OP_STATUS_CODE = Code.ok.num ∧
      (∀ i, i < slipSize → Tab.get memDefault t.flash (slotBase o.slot + i) = s.byte (slipBase + i)) ∧
      (∀ a, a < slotBase o.slot ∨ slotBase o.slot + slipSize ≤ a → Tab.get memDefault t.flash a = Tab.get memDefault s.flash a)) ∧
  (∀ (s : State) (o : FabOp), s.fabRuns 7 = some o →
    ∃ t, exec .eraseSlotDone s = .next t ∧ t.f (slotField o.slot) = 0 ∧ t.fab.op = none ∧ t.f FAB.OP_STATUS_BUSY = 0 ∧
      t.f FAB.OP_STATUS_CODE = Code.ok.num ∧
      (∀ i, i < slipSize → Tab.get memDefault t.flash (slotBase o.slot + i) = 0) ∧
      (∀ a, a < slotBase o.slot ∨ slotBase o.slot + slipSize ≤ a → Tab.get memDefault t.flash a = Tab.get memDefault s.flash a)) ∧
  (∀ (s : State) (o : FabOp), s.fabRuns 4 = some o → s.fab.load = none → s.slotLost o.slot = false → s.flashReady = true →
    s.verifyTurn .image = true → s.flt.injCheck = false → s.reaction 2 0x08 < 8 → s.reaction 2 0x09 < 8 →
    ∃ t, exec (.loadSlotDone []) s = .next t ∧ t.fab.op = none ∧ t.f FAB.OP_STATUS_BUSY = 0 ∧
      (∀ i, i < slipSize → t.byte (slipBase + i) = Tab.get memDefault s.flash (slotBase o.slot + i)) ∧
      t.f FAB.STATE_SLIPWAY = (match (s.copySlot o.slot).judgeSlipway (s.copySlot o.slot).slipLen s.signerHash true with
        | .good _ _ => 3
        | .bad _ _ => 4)) ∧
  (∀ (s : State) (o : FabOp), s.fabRuns 2 = some o → s.verifyTurn .image = true → s.ecc = [] → s.flt.injCheck = false →
    s.reaction 2 0x08 < 8 → s.reaction 2 0x09 < 8 →
    ∃ t, exec .verifyDone s = .next t ∧ t.fab.op = none ∧ t.f FAB.OP_STATUS_BUSY = 0 ∧ t.f FAB.OP_STATUS_CODE = Code.ok.num ∧
      match s.judgeSlipway o.arg s.signerHash true with
        | .good _ _ => t.f FAB.STATE_SLIPWAY = 3
        | .bad c _ => t.f FAB.STATE_SLIPWAY = 4 ∧ t.f FAB.STATE_FAIL_CODE = c % 256) ∧
  (∀ (s : State) (o : FabOp) (n : Nat), s.sec.firstCount = some n → s.fabRuns 6 = some o → o.arg ≤ n →
    ∃ t, exec (.rollbackFusesDone true) s = .next t ∧ t.sec.fuse = s.sec.fuse.filter (fun x => x != .count n) ∧
      t.f FAB.SECVER_FUSES = max (s.f FAB.SECVER_FUSES) n % 128 ∧ t.fab.op = none ∧
      t.f FAB.OP_STATUS_BUSY = 0 ∧ t.f FAB.OP_STATUS_CODE = Code.ok.num) ∧
  (∀ (s : State) (j : SwitchJob), s.xlk.switching = some j → j.activate = true → s.fab.handover.isSome = true →
    ∃ t, exec .activateHandoverTimeout s = .next t ∧ t.xlk.switching = none ∧ t.f XLK.STATUS_SWITCHING = 0 ∧ t.fab.op = none ∧
      t.f FAB.OP_STATUS_LAST_OP = 5 ∧ t.f FAB.OP_STATUS_CODE = Code.locked.num)

/-- READ_ID places the identity of a slot (R137); COMMIT_ROLLBACK starts the fuses (R148); ACTIVATE begins a full reset that loads the slipway
(R142), where no partner could take over. -/
def Obligations.FabIdentityAndActivation : Prop :=
  (∀ (p : Port) (k : BitVec 2) (s : State) (b : List Byte), s.takes p FAB.OP false → s.f FAB.OP_STATUS_BUSY = 0 →
    s.slotId k.toNat = some b →
    ∃ t, exec (.readId p k) s = .next t ∧ t.mboxHolds p (beWords b) ∧ t.f FAB.OP_STATUS_BUSY = 0 ∧
      t.f FAB.OP_STATUS_CODE = Code.ok.num) ∧
  (∀ (p : Port) (s : State) (i : Image), s.takes p FAB.OP false → s.f FAB.OP_STATUS_BUSY = 0 → s.landed = true → s.fab.img = some i →
    s.f FAB.SECVER_FUSES < s.w FAB.OP_ARG → s.w FAB.OP_ARG ≤ i.secVer → s.w FAB.OP_ARG ≤ 64 → s.f FAB.SLOTS_GOLDEN_ST ≠ 0 →
    s.w FAB.OP_ARG ≤ s.f FAB.SECVER_GOLDEN_SV →
    ∃ t, exec (.commitRollback p) s = .next t ∧ t.f FAB.OP_STATUS_BUSY = 1 ∧ 
      t.sec.fuse = s.sec.fuse.filter (fun x => x != .count (s.w FAB.OP_ARG)) ++ [.count (s.w FAB.OP_ARG)] ∧
      t.fab.op = some ⟨6, 3, p, s.w FAB.OP_ARG⟩) ∧
  (∀ (p : Port) (h : Bool) (s : State), s.takes p FAB.OP false → s.f FAB.OP_STATUS_BUSY = 0 → s.f FAB.STATE_SLIPWAY = 3 →
    s.f FAB.STATE_VSLOT ≠ 3 → s.xlkBuilt = false → s.top.phase = .running → s.top.inFull = false → s.top.fullHeld = false →
    s.fab.load = none →
    ∃ t, exec (.activate p h) s = .next t ∧ t.top.inFull = true ∧ t.top.activated = true ∧
      ∃ j, t.fab.load = some j ∧ j.slipway = true ∧ j.wasPending = true)

/-- A load ends (R141, R143, R144, R145). An image that passes every check lands: it is the image in force, and, where it has no loops, the
reset is over. A check that fails, or the landing watchdog, writes the failure code, marks the slot BAD unless it is golden, and begins the full
reset that makes the next attempt, with another slot or with none left. A load from the slipway that meets an uncorrectable error there goes on
from flash. -/
def Obligations.LoadsEnd : Prop :=
  (∀ (s : State) (j : LoadJob) (i : Image) (d : List (Nat × Nat × List Byte)), s.fab.load = some j → s.slipwayBad j = false →
    s.loadVerdict j = .good i d → i.preload = [] →
    ∃ t, exec .imageLanded s = .next t ∧ t.fab.img = some i ∧ t.top.landedOnce = true ∧
      (i.loops = [] → t.top.inFull = false ∧ t.fab.load = none)) ∧
  (∀ (s : State) (j : LoadJob) (c off : Nat), s.fab.load = some j → s.slipwayBad j = false → s.loadVerdict j = .bad c off →
    s.flt.injCheck = false → s.reaction 2 0x08 < 8 → s.reaction 2 0x09 < 8 →
    ∃ t, exec (.loadFailed []) s = .next t ∧ t.top.inFull = true ∧ t.f TOP.RST_STAT_FULL_CAUSE = 4 ∧
      t.f FAB.STATE_FAIL_CODE = c % 256 ∧ (j.slot < 2 → t.f (slotField j.slot) = 3) ∧
      ((∃ k, t.fab.load = some k ∧ k.tried = j.slot :: j.tried ∧ k.slot ∉ j.slot :: j.tried ∧ k.slipway = false ∧ t.f FAB.STATE_LOAD = 1) ∨
        (t.fab.load = none ∧ t.f FAB.STATE_LOAD = 3))) ∧
  (∀ (s : State) (j : LoadJob) (bad : List (Nat × List Nat)), s.fab.load = some j → s.slipwayBad j = true →
    ∃ t, exec (.loadFailed bad) s = .next t ∧ t.fab.load = some { j with slipway := false } ∧
      ∀ i, i < slipSize → t.byte (slipBase + i) = Tab.get memDefault s.flash (slotBase j.slot + i)) ∧
  (∀ (s : State) (j : LoadJob), s.fab.load = some j → j.since + s.watchdogMs * 2000000 ≤ s.now → s.flt.injCheck = false →
    s.reaction 2 0x0A < 8 →
    ∃ t, exec .landingWatchdogExpiry s = .next t ∧ t.top.inFull = true ∧ t.f TOP.RST_STAT_FULL_CAUSE = 4 ∧
      t.f FAB.STATE_FAIL_CODE = 0x0B ∧ (j.slot < 2 → t.f (slotField j.slot) = 3) ∧
      ((∃ k, t.fab.load = some k ∧ k.tried = j.slot :: j.tried ∧ k.slot ∉ j.slot :: j.tried ∧ k.slipway = false ∧ t.f FAB.STATE_LOAD = 1) ∨
        (t.fab.load = none ∧ t.f FAB.STATE_LOAD = 3)))

/-! Host accesses, mailboxes and the configuration check. -/

/-- The commands that write one register and act within its unit: a write that passes every check of R591 leaves in the register what R584,
R586 and R589 say, and its status is OK. A new DECIM or GATE leaves the decimation and gate length in force (R186); a host temperature is
no longer stale (R273); bit 1 of INTR.MASK word 2, which is source 65, stays 0 (R681).
Rests on choices of the model: log entries 14, 71. -/
def Obligations.RegisterCommandsStore : Prop :=
  (∀ (p : Port) (n : Fin 32) (a : RegAcc) (s : State), s.performs p (LND.DECIM n) a → ∃ t, exec (.lndDecimWrite p n a) s = .next t ∧
    t.stored s p (LND.DECIM n) a ∧ (t.lndC n).decim = (s.lndC n).decim ∧ (t.lndC n).gateOn = (s.lndC n).gateOn) ∧
  (∀ (p : Port) (n : Fin 32) (a : RegAcc) (s : State), s.performs p (LND.GATE n) a → ∃ t, exec (.lndGateWrite p n a) s = .next t ∧
    t.stored s p (LND.GATE n) a ∧ (t.lndC n).gateMs = (s.lndC n).gateMs ∧ (t.lndC n).gateOn = (s.lndC n).gateOn) ∧
  (∀ (p : Port) (n : Fin 32) (a : RegAcc) (s : State), s.performs p (LOOP.BW n) a → ∃ t, exec (.loopBwWrite p n a) s = .next t ∧
    t.stored s p (LOOP.BW n) a) ∧
  (∀ (p : Port) (n : Fin 32) (a : RegAcc) (s : State), s.performs p (LOOP.SLOPE n) a → ∃ t, exec (.loopSlopeWrite p n a) s = .next t ∧
    t.stored s p (LOOP.SLOPE n) a) ∧
  (∀ (p : Port) (n : Fin 32) (a : RegAcc) (s : State), s.performs p (LOOP.FREE_FREQ n) a →
    ∃ t, exec (.loopFreeFreqWrite p n a) s = .next t ∧ t.stored s p (LOOP.FREE_FREQ n) a) ∧
  (∀ (p : Port) (n : Fin 32) (a : RegAcc) (s : State), s.performs p (LOOP.DAMP n) a → ∃ t, exec (.loopDampWrite p n a) s = .next t ∧
    t.stored s p (LOOP.DAMP n) a) ∧
  (∀ (p : Port) (n : Fin 32) (a : RegAcc) (s : State), s.performs p (LOOP.HO_TEMP n) a → ∃ t, exec (.hoTempWrite p n a) s = .next t ∧
    t.stored s p (LOOP.HO_TEMP n) a ∧ t.f (LOOP.HO_STAT_TEMP_STALE n) = 0 ∧ (t.hoC n).tempAt = s.now) ∧
  (∀ (p : Port) (n : Fin 32) (a : RegAcc) (s : State), s.performs p (LOOP.HO_CTRL n) a → ∃ t, exec (.hoOvrWrite p n a) s = .next t ∧
    t.stored s p (LOOP.HO_CTRL n) a) ∧
  (∀ (p : Port) (r : Fin 256) (w : Fin 3) (a : RegAcc) (s : State), s.performs p (EVR.ROUTE_SRC r + 4 * w) a →
    ∃ t, exec (.routeWrite p r w a) s = .next t ∧ t.stored s p (EVR.ROUTE_SRC r + 4 * w) a) ∧
  (∀ (p : Port) (a : RegAcc) (s : State), s.performs p HOST.CFGCHK_REF a → ∃ t, exec (.cfgchkRefWrite p a) s = .next t ∧
    t.stored s p HOST.CFGCHK_REF a ∧ t.f HOST.CFGCHK_STAT_DIRTY = 0 ∧ t.f HOST.CFGCHK_STAT_MISMATCH = 0 ∧
    t.f HOST.CFGCHK_STAT_COMPARING = 1) ∧
  (∀ (p : Port) (k : Fin 20) (a : RegAcc) (s : State), s.performs p (INTR.MASK .a k) a → ∃ t, exec (.intrMaskWrite p k a) s = .next t ∧
    (t.hostC p).code = .ok ∧ ∀ i, i < 32 → bitAt (t.w (INTR.MASK p k)) i =
      (bitAt (leaves a (s.w (INTR.MASK p k)) (s.mayWrite p (INTR.MASK .a k))) i && !(k.val == 2 && i == 1)))

/-- The commands that write one register whose change other units follow: a landing restarts or steps (R154, R186, R192), a selector selects
anew (R227, R229), an output starts or stops (R353), a port or the crossing link goes up or down (R403, R406, R409, R534). A write that
passes every check of R591 leaves in the register what R584, R586 and R589 say, whatever follows from it.
Rests on choices of the model: log entries 14, 71. -/
def Obligations.RegisterCommandsStoreAndAct : Prop :=
  (∀ (p : Port) (n : Fin 32) (a : RegAcc) (s : State), s.performs p (LND.CTRL n) a → ∃ t, exec (.lndCtrlWrite p n a) s = .next t ∧
    t.stored s p (LND.CTRL n) a) ∧
  (∀ (p : Port) (n : Fin 32) (a : RegAcc) (s : State), s.performs p (LND.NOM_FREQ n) a → ∃ t, exec (.lndNomFreqWrite p n a) s = .next t ∧
    t.stored s p (LND.NOM_FREQ n) a) ∧
  (∀ (p : Port) (a : RegAcc) (s : State), s.performs p (LND.OBS 31) a → ∃ t, exec (.lndObsWrite p a) s = .next t ∧
    t.stored s p (LND.OBS 31) a) ∧
  (∀ (p : Port) (n : Fin 32) (a : RegAcc) (s : State), s.performs p (LND.SLICE n) a → ∃ t, exec (.lndSliceWrite p n a) s = .next t ∧
    t.stored s p (LND.SLICE n) a) ∧
  (∀ (p : Port) (n : Fin 16) (a : RegAcc) (s : State), s.performs p (SEL.FORCE n) a → ∃ t, exec (.selForceWrite p n a) s = .next t ∧
    t.stored s p (SEL.FORCE n) a) ∧
  (∀ (p : Port) (n : Fin 16) (k : Fin 30) (a : RegAcc) (s : State), s.performs p (SEL.CAND_CFG n k) a →
    ∃ t, exec (.selCandCfgWrite p n k a) s = .next t ∧ t.stored s p (SEL.CAND_CFG n k) a) ∧
  (∀ (p : Port) (m : Fin 28) (a : RegAcc) (s : State), s.performs p (OUT.CTRL m) a → ∃ t, exec (.outEnWrite p m a) s = .next t ∧
    t.stored s p (OUT.CTRL m) a) ∧
  (∀ (p : Port) (n : Fin 8) (a : RegAcc) (s : State), s.performs p (PRT.CTRL n) a → ∃ t, exec (.prtDormantWrite p n a) s = .next t ∧
    t.stored s p (PRT.CTRL n) a) ∧
  (∀ (p : Port) (n : Fin 8) (a : RegAcc) (s : State), s.performs p (PRT.CTRL n) a → ∃ t, exec (.prtAdminWrite p n a) s = .next t ∧
    t.stored s p (PRT.CTRL n) a) ∧
  (∀ (p : Port) (n : Fin 8) (a : RegAcc) (s : State), s.performs p (PRT.TXCLK n) a → ∃ t, exec (.prtTxclkWrite p n a) s = .next t ∧
    t.stored s p (PRT.TXCLK n) a) ∧
  (∀ (p : Port) (a : RegAcc) (s : State), s.performs p XLK.CTRL a → ∃ t, exec (.xlkAdminWrite p a) s = .next t ∧
    t.stored s p XLK.CTRL a)

/-- Coefficients and weights (R262, R266): a raw coefficient is held and, with CTRL.RAW at 1, in the register; WEIGHT[3] puts the held set in
force and empties it.
Rests on choices of the model: log entry 67. -/
def Obligations.CoefficientsAndWeights : Prop :=
  (∀ (p : Port) (n : Fin 32) (v : Word) (s : State), s.performs p (LOOP.COEF_P n) (wholeWord v.toNat) →
    ∃ t, exec (.loopCoefWrite p n false (wholeWord v.toNat)) s = .next t ∧ (t.loopC n).rawP = some v ∧
      (t.loopC n).rawI = (s.loopC n).rawI ∧ t.w (LOOP.COEF_P n) = (if s.on (LOOP.CTRL_RAW n) then v.toNat else s.w (LOOP.COEF_P n))) ∧
  (∀ (p : Port) (n : Fin 32) (v : Word) (s : State), s.performs p (LOOP.COEF_I n) (wholeWord v.toNat) →
    ∃ t, exec (.loopCoefWrite p n true (wholeWord v.toNat)) s = .next t ∧ (t.loopC n).rawI = some v ∧
      (t.loopC n).rawP = (s.loopC n).rawP ∧ t.w (LOOP.COEF_I n) = (if s.on (LOOP.CTRL_RAW n) then v.toNat else s.w (LOOP.COEF_I n))) ∧
  (∀ (p : Port) (n : Fin 32) (a : RegAcc) (s : State), s.performs p (LOOP.WEIGHT n 3) a →
    ∃ t, exec (.loopWeightCommit p n a) s = .next t ∧ (t.loopC n).heldWeights = [none, none, none] ∧
      (∀ j, j < 3 → t.f (LOOP.WEIGHT_W n j) = s.heldWeight n j % 0x10000) ∧
      t.f (LOOP.WEIGHT_W n 3) = leaves a (s.w (LOOP.WEIGHT n 3)) (s.mayWrite p (LOOP.WEIGHT n 3)) % 0x10000)

/-- Any register of the blocks FLT, NV, FLM and APL that is no doorbell: a write that is performed changes that register as R584, R586 and
R589 say and no other but the change mark of the configuration check; one that is not answers the code of its first failed check and is
counted and logged at its port, first error kept (R591, R593), and stores nothing.
Rests on choices of the model: log entries 14, 71. -/
def Obligations.RegisterWrites : Prop :=
  (∀ (p : Port) (K : Nat) (a : RegAcc) (s : State) (d : RegDef),
    K / 0x10000 ∈ [3, 7, 8, 0x60, 0x61, 0x62, 0x63, 0x64, 0x65, 0x66, 0x67] → K % 0x10000 < 0x4000 → K % 4 = 0 →
    s.regFind p (K / 0x10000) (K % 0x10000) = some d → d.status = false → doorbellReg (K / 0x10000) (K % 0x10000) = false →
    s.performs p K a →
    ∃ t, exec (.registerWrite p ⟨BitVec.ofNat 24 (K + quarterBase a.quarter + a.lane), a.width, BitVec.ofNat 8 (2 ^ a.width.bytes - 1), a.data⟩) s
        = .next t ∧ t.stored s p K a ∧ ∀ K', K' ≠ K → K' ≠ HOST.CFGCHK_STAT → t.w K' = s.w K') ∧
  (∀ (p : Port) (a : Access) (s : State), s.reaches p = true → accessShape p a = true → a.width ≠ .b8 →
    s.writeCode p a.addr.toNat a.width.bytes a.data.toNat ≠ .ok →
    ∃ t, exec (.registerWrite p a) s = .next t ∧ (t.hostC p).code = s.writeCode p a.addr.toNat a.width.bytes a.data.toNat ∧
      t.f (HOST.ERR_STAT_COUNT p) = min (s.f (HOST.ERR_STAT_COUNT p) + 1) 255 ∧ t.on (HOST.ERR_STAT_VALID p) = true ∧
      t.on (HOST.EVENT_BUS_ERR p) = true ∧
      (s.on (HOST.ERR_STAT_VALID p) = false → t.f (HOST.ERR_ADDR_OFFSET p) = a.addr.toNat ∧ t.on (HOST.ERR_STAT_WRITE p) = true ∧
        t.f (HOST.ERR_STAT_CODE p) = (s.writeCode p a.addr.toNat a.width.bytes a.data.toNat).num) ∧
      (s.on (HOST.ERR_STAT_VALID p) = true → t.w (HOST.ERR_ADDR p) = s.w (HOST.ERR_ADDR p) ∧
        t.f (HOST.ERR_STAT_CODE p) = s.f (HOST.ERR_STAT_CODE p)) ∧
      ∀ K, 3 ≤ K / 0x10000 % 0x100 → t.w K = s.w K)

/-- Reads that clear (R66, R588): a whole word read through the normal view of a status register returns its fields, and its RC bits take
their reset value where the port holds the helm of the block or has a copy of its own; no other register changes. PWR.AVS_EVENT so read
clears BUSERR too. The mailbox words are no status registers. -/
def Obligations.ReadsThatClear : Prop :=
  (∀ (p : Port) (K : Nat) (s : State) (d : RegDef), K < 0x1000000 → K % 0x10000 < 0x4000 → K % 4 = 0 → K ≠ PWR.AVS_EVENT →
    K / 0x10000 ≠ 1 → s.reaches p = true →
    s.regFind p (K / 0x10000) (K % 0x10000) = some d → d.status = true → s.built (K / 0x10000) = true → s.landedFor (K / 0x10000) = true →
    ∃ t, exec (.clearingRead p ⟨BitVec.ofNat 24 K, .b4, 0xF, 0⟩) s = .next t ∧ (t.hostC p).code = .ok ∧
      (t.hostC p).data = [BitVec.ofNat 32 (s.shown p (K / 0x10000) (K % 0x10000))] ∧
      t.w (regKey p (K / 0x10000) (K % 0x10000)) =
        (if portRelative (K / 0x10000) (K % 0x10000) || s.holds p (K / 0x10000) then
          s.w (regKey p (K / 0x10000) (K % 0x10000)) -
            (s.w (regKey p (K / 0x10000) (K % 0x10000)) &&& d.bits (fun f => f.acc == .rc)) +
            (d.resetWord &&& d.bits (fun f => f.acc == .rc))
        else s.w (regKey p (K / 0x10000) (K % 0x10000))) ∧
      ∀ K', K' ≠ regKey p (K / 0x10000) (K % 0x10000) → t.w K' = s.w K') ∧
  (∀ (p : Port) (s : State), s.reaches p = true →
    ∃ t, exec (.clearingRead p ⟨BitVec.ofNat 24 (HOST.EVENT .a), .b4, 0xF, 0⟩) s = .next t ∧
      (t.hostC p).data = [BitVec.ofNat 32 (s.w (HOST.EVENT p))] ∧ t.w (HOST.EVENT p) % 64 = 0 ∧
      ∀ K, K ≠ HOST.EVENT p → t.w K = s.w K) ∧
  (∀ (p : Port) (s : State), s.reaches p = true → s.holds p 5 = true →
    ∃ t, exec (.avsEventRead p) s = .next t ∧ (t.hostC p).data = [BitVec.ofNat 32 (s.w PWR.AVS_EVENT)] ∧
      t.w PWR.AVS_EVENT % 16 = 0 ∧ t.f PWR.AVS_STATUS_BUSERR = 0 ∧ t.f PWR.AVS_STATUS_CODE = s.f PWR.AVS_STATUS_CODE) ∧
  (∀ (p : Port) (s : State), s.reaches p = true → s.holds p 5 = false →
    ∃ t, exec (.avsEventRead p) s = .next t ∧ (t.hostC p).data = [BitVec.ofNat 32 (s.w PWR.AVS_EVENT)] ∧ t.regs = s.regs)

/-- Mailboxes and rings at a host (R597, R598, R610): a write of a mailbox word stores it and empties the mailbox; COMMIT of 1 to 64 words makes
the mailbox host-filled; the read of the last output word, alone or with the word before it, empties a device-filled one; the producer count
takes the value written where at most 64 entries are then in the ring and none is withdrawn. -/
def Obligations.MailboxAndRingAccesses : Prop :=
  (∀ (p : Port) (k : Fin 64) (v : Word) (s : State), s.reaches p = true →
    ∃ t, exec (.mboxWordWrite p k v) s = .next t ∧ t.w (HOST.MBOX p k) = v.toNat ∧ t.w (HOST.MBOX_STAT p) = 0 ∧
      ∀ K, K ≠ HOST.MBOX p k → K ≠ HOST.MBOX_STAT p → t.w K = s.w K) ∧
  (∀ (p : Port) (v : Word) (s : State), s.reaches p = true → 1 ≤ v.toNat % 128 → v.toNat % 128 ≤ 64 →
    ∃ t, exec (.mboxCommit p v) s = .next t ∧ t.f (HOST.MBOX_STAT_VALID p) = 1 ∧ t.f (HOST.MBOX_STAT_DEVICE p) = 0 ∧
      t.f (HOST.MBOX_STAT_LEN p) = v.toNat % 128 ∧ ∀ K, K ≠ HOST.MBOX_STAT p → t.w K = s.w K) ∧
  (∀ (p : Port) (w : Width) (s : State), s.reaches p = true → (p = .b → w = .b4) → s.on (HOST.MBOX_STAT_VALID p) = true →
    s.on (HOST.MBOX_STAT_DEVICE p) = true → 1 ≤ s.f (HOST.MBOX_STAT_LEN p) → s.f (HOST.MBOX_STAT_LEN p) ≤ 64 →
    ∃ t, exec (.mboxLastRead p w) s = .next t ∧ (t.hostC p).code = .ok ∧ t.w (HOST.MBOX_STAT p) = 0 ∧
      t.f (HOST.RING_STAT_WAIT_OUT p) = 0 ∧
      (w = .b4 → (t.hostC p).data = [BitVec.ofNat 32 (s.w (HOST.MBOX p (s.f (HOST.MBOX_STAT_LEN p) - 1)))]) ∧
      ∀ K, K ≠ HOST.MBOX_STAT p → K ≠ HOST.RING_STAT p → t.w K = s.w K) ∧
  (∀ (p : Port) (v : Word) (s : State), s.reaches p = true →
    (s.f (HOST.RING_PI_PI p) + 0x10000 - s.f (HOST.RING_STAT_CI p)) % 0x10000 ≤
      (v.toNat % 0x10000 + 0x10000 - s.f (HOST.RING_STAT_CI p)) % 0x10000 →
    (v.toNat % 0x10000 + 0x10000 - s.f (HOST.RING_STAT_CI p)) % 0x10000 ≤ 64 →
    ∃ t, exec (.ringPiWrite p v) s = .next t ∧ t.f (HOST.RING_PI_PI p) = v.toNat % 0x10000 ∧
      t.f (HOST.RING_STAT_CI p) = s.f (HOST.RING_STAT_CI p))

/-- The configuration check (R605 to R608): COMMIT orders a reference; a pass computes the CRC, and a pass that gives the reference clears DIRTY
and lets comparison begin; a pass that differs from the reference while comparison is on and nothing is DIRTY sets MISMATCH, where the fault
reported resets nothing; a pass during which DIRTY became 1 is discarded. -/
def Obligations.ConfigurationCheck : Prop :=
  (∀ (p : Port) (s : State), s.performs p HOST.CFGCHK_CMD (wholeWord 1) →
    ∃ t, exec (.cfgchkCommit p) s = .next t ∧ t.f HOST.CFGCHK_STAT_MISMATCH = 0 ∧ t.cfg.reported = false ∧
      t.cfg.commit = (if s.checking then 1 else 2)) ∧
  (∀ (s : State), s.checking = true → s.cfg.spoiled = false → s.cfg.commit = 2 →
    ∃ t, exec .cfgchkPass s = .next t ∧ t.w HOST.CFGCHK_LAST = s.checkCrc % 2 ^ 32 ∧ t.w HOST.CFGCHK_REF = s.checkCrc % 2 ^ 32 ∧
      t.f HOST.CFGCHK_STAT_DIRTY = 0 ∧ t.f HOST.CFGCHK_STAT_COMPARING = 1 ∧ t.cfg.commit = 0 ∧
      t.f HOST.CFGCHK_STAT_PASSES = (s.f HOST.CFGCHK_STAT_PASSES + 1) % 2 ^ 16) ∧
  (∀ (s : State), s.checking = true → s.cfg.spoiled = false → s.cfg.commit < 2 → s.f HOST.CFGCHK_STAT_DIRTY = 0 →
    s.f HOST.CFGCHK_STAT_COMPARING = 1 → s.w HOST.CFGCHK_REF ≠ s.checkCrc % 2 ^ 32 → s.flt.injCheck = false → s.reaction 1 0x14 < 8 →
    ∃ t, exec .cfgchkPass s = .next t ∧ t.f HOST.CFGCHK_STAT_MISMATCH = 1 ∧ t.w HOST.CFGCHK_LAST = s.checkCrc % 2 ^ 32 ∧
      t.cfg.reported = true) ∧
  (∀ (s : State), s.checking = true → s.cfg.spoiled = false → s.cfg.commit < 2 → s.f HOST.CFGCHK_STAT_DIRTY = 0 →
    s.f HOST.CFGCHK_STAT_COMPARING = 1 → s.w HOST.CFGCHK_REF = s.checkCrc % 2 ^ 32 → s.checkCrc < 2 ^ 32 →
    ∃ t, exec .cfgchkPass s = .next t ∧ t.f HOST.CFGCHK_STAT_MISMATCH = s.f HOST.CFGCHK_STAT_MISMATCH ∧ t.flt = s.flt ∧
      t.f HOST.CFGCHK_STAT_PASSES = (s.f HOST.CFGCHK_STAT_PASSES + 1) % 2 ^ 16) ∧
  (∀ (s : State), s.checking = true → s.cfg.spoiled = true →
    ∃ t, exec .cfgchkPass s = .next t ∧ t.regs = s.regs ∧ t.cfg.spoiled = false)

/-- Frames of host port B and resets of host port A (R578, R581, R582, R617): a read burst of the mailbox returns its words, a write burst stores
its words, PSTAT peeks at HOST.EVENT, the rise of QSPI_CS_N ends the frame. PERST and D3hot keep port A's requests out until they end; every
reset of port A empties its mailbox and error log. A change of the link shows its speed and width and tells when it goes up or down.
Rests on choices of the model: log entry 15. -/
def Obligations.PortFramesAndResets : Prop :=
  (∀ (k n : Nat) (s : State), s.reaches .b = true → 1 ≤ n → k + n ≤ 64 → s.on (HOST.MBOX_STAT_DEVICE .b) = false →
    ∀ c ∈ [Instr.qspiRead (BitVec.ofNat 32 (HOST.MBOX .a k)) n, .qspiQread (BitVec.ofNat 32 (HOST.MBOX .a k)) n],
    ∃ t, exec c s = .next t ∧ t.hostB.code = .ok ∧ t.hostB.frame = true ∧
      t.hostB.data = (List.range n).map (fun i => BitVec.ofNat 32 (s.w (HOST.MBOX .b (k + i)))) ∧ t.regs = s.regs) ∧
  (∀ (k : Nat) (ws : List Word) (s : State), s.reaches .b = true → ws ≠ [] → k + ws.length ≤ 64 →
    ∀ c ∈ [Instr.qspiWrite (BitVec.ofNat 32 (HOST.MBOX .a k)) ws, .qspiQwrite (BitVec.ofNat 32 (HOST.MBOX .a k)) ws],
    ∃ t, exec c s = .next t ∧ t.hostB.code = .ok ∧ t.hostB.frame = true ∧ t.w (HOST.MBOX_STAT .b) = 0 ∧
      (∀ (i : Nat) (h : i < ws.length), t.w (HOST.MBOX .b (k + i)) = (ws[i]).toNat) ∧
      ∀ j, j < k ∨ (k + ws.length ≤ j ∧ j < 64) → t.w (HOST.MBOX .b j) = s.w (HOST.MBOX .b j)) ∧
  (∀ (s : State), s.reaches .b = true → ∃ t, exec .qspiPstat s = .next t ∧
    t.hostB.data = [BitVec.ofNat 32 (s.w (HOST.EVENT .b) % 64)] ∧ t.hostB.frame = true ∧ t.regs = s.regs) ∧
  (∀ (s : State), ∃ t, exec .qspiCsRise s = .next t ∧ t.hostB = { s.hostB with frame := false }) ∧
  (∀ (k : PcieReset) (s : State), ∃ t, exec (.pcieReset k) s = .next t ∧
    (k = .perst → t.hostA.inReset = true ∧ t.f (HOST.PORT_SPEED .a) = 0) ∧ (k = .perstRelease → t.hostA.inReset = false) ∧
    (k = .d3hot → t.hostA.inD3 = true) ∧ (k = .backToD0 → t.hostA.inD3 = false) ∧
    (k ≠ .perstRelease → k ≠ .backToD0 → t.w (HOST.MBOX_STAT .a) = 0 ∧ t.w (HOST.ERR_STAT .a) = 0 ∧ t.intr.msix = false ∧
      t.w (HOST.MBOX_STAT .b) = s.w (HOST.MBOX_STAT .b)) ∧
    (k = .perstRelease ∨ k = .backToD0 → t.regs = s.regs)) ∧
  (∀ (speed width : BitVec 4) (s : State), s.hostA.inReset = false → ∃ t, exec (.pcieLinkChange speed width) s = .next t ∧
    t.f (HOST.PORT_SPEED .a) = speed.toNat ∧ t.f (HOST.PORT_WIDTH .a) = width.toNat ∧
    (s.on (HOST.PORT_SPEED .a) ≠ decide (speed ≠ 0) → t.on (HOST.EVENT_LINK .a) = true)) ∧
  (∀ (on : Bool) (s : State), s.reaches .a = true → ∃ t, exec (.msixEnable on) s = .next t ∧ t.intr.msix = on)

/-! Command rings, berths, event berths, tenants, and frames of the hosts. -/

/-- Ring entries (R609 to R613): NOP completes with OK and zero results; an entry that may start is performed; one that takes mailbox input
while the mailbox holds none waits and says so.
Rests on choices of the model: log entry 46. -/
def Obligations.RingEntries : Prop :=
  (∀ (p : Port) (s : State), s.ringReady p → ∃ t, exec (.nop p) s = .next t ∧ t.ringDid s p .ok 0 0 ∧
    t.f (HOST.RING_STAT_ACTIVE p) = 0 ∧ t.on (HOST.EVENT_RING_DONE p) = true) ∧
  (∀ (p : Port) (s : State), s.landed = true → s.ringOpen p = true → s.f (HOST.RING_STAT_ACTIVE p) = 0 →
    (s.f (HOST.RING_STAT_WAIT_OUT p) = 0 ∨ s.mboxDevice p = false) → s.ringWord p 0 % 256 = 0 →
    ∃ t, exec (.ringEntryStart p) s = .next t ∧ t.ringDid s p .ok 0 0) ∧
  (∀ (p : Port) (s : State), s.landed = true → s.ringOpen p = true → s.f (HOST.RING_STAT_ACTIVE p) = 0 →
    (s.f (HOST.RING_STAT_WAIT_OUT p) = 0 ∨ s.mboxDevice p = false) → ringTakes (s.ringWord p 0 % 256) = true → s.mboxHost p = false →
    s.f (HOST.RING_STAT_WAIT_MBOX p) = 0 →
    ∃ t, exec (.ringEntryStart p) s = .next t ∧ t.f (HOST.RING_STAT_WAIT_MBOX p) = 1 ∧ t.on (HOST.EVENT_RING_WAIT p) = true ∧
      t.f (HOST.RING_STAT_CI p) = s.f (HOST.RING_STAT_CI p)) ∧
  (∀ (p : Port) (s : State), s.ringOpen p = false → ∃ t, exec (.ringEntryStart p) s = .next t ∧ t = s)

/-- The berth store (R10, R496 to R502): CREATE takes the lowest free usable slot, within the quota, and answers its handle and ordinal; DESTROY
frees the slot and advances its generation; ENABLE and DISABLE make the berth LIVE and IDLE; INFO answers what it is.
Rests on choices of the model: log entry 46. -/
def Obligations.BerthStore : Prop :=
  (∀ (p : Port) (a0 a1 a2 a3 : Word) (k : Nat) (s : State), s.ringReady p → s.createBad a0.toNat a1.toNat = false →
    s.holds p (0x98 + bitsAt a0.toNat 26 24) = true → s.kindCount (bitsAt a0.toNat 31 28) < s.quota (bitsAt a0.toNat 31 28) →
    s.freeSlot = some k →
    ∃ t, exec (.berthCreate p 0 a0 a1 a2 a3) s = .next t ∧
      t.ringDid s p .ok (t.handleOf k) (if bitsAt a0.toNat 31 28 = 3 then s.freeOrdinal else 0) ∧
      (t.berthC k).kind = bitsAt a0.toNat 31 28 ∧ (t.berthC k).port = bitsAt a0.toNat 26 24 ∧ (t.berthC k).live = false ∧
      (t.berthC k).madeAt = s.now ∧ t.gens = s.gens ∧ ∀ j, j ≠ k → t.berthC j = s.berthC j) ∧
  (∀ (p : Port) (h a0 a1 a2 a3 : Word) (k : Nat) (s : State), s.ringReady p → s.berthTaken p h.toNat [1, 2, 3, 4] k →
    ∃ t, exec (.berthDestroy p h a0 a1 a2 a3) s = .next t ∧ t.ringDid s p .ok 0 0 ∧ (t.berthC k).kind = 0 ∧
      t.gensC k = (s.gensC k + 1) % 2 ^ 12) ∧
  (∀ (p : Port) (h a0 a1 a2 a3 : Word) (k : Nat) (s : State), s.ringReady p → s.berthTaken p h.toNat [1, 2, 3, 4] k →
    ((s.berthC k).kind = 3 ∨ (s.berthC k).kind = 4 ∨ (s.berthC k).par.mac ≠ 0 ∨ (s.berthC k).par.ipKind ≠ 0 ∨
      s.profile (s.berthC k).port ≠ 2) →
    ∃ t, exec (.berthEnable p h a0 a1 a2 a3) s = .next t ∧ t.ringDid s p .ok 0 0 ∧ (t.berthC k).live = true ∧
      (t.berthC k).kind = (s.berthC k).kind) ∧
  (∀ (p : Port) (h a0 a1 a2 a3 : Word) (k : Nat) (s : State), s.ringReady p → s.berthTaken p h.toNat [1, 2, 3, 4] k →
    ∃ t, exec (.berthDisable p h a0 a1 a2 a3) s = .next t ∧ t.ringDid s p .ok 0 0 ∧ (t.berthC k).live = false ∧
      (t.berthC k).kind = (s.berthC k).kind) ∧
  (∀ (p : Port) (h a0 a1 a2 a3 : Word) (k : Nat) (s : State), s.ringReady p → s.berthTaken p h.toNat [1, 2, 3, 4] k →
    ∃ t, exec (.berthInfo p h a0 a1 a2 a3) s = .next t ∧
      t.ringDid s p .ok ((s.berthC k).kind * 2 ^ 28 + (s.berthC k).port * 2 ^ 24 + (if (s.berthC k).live then 2 else 1) * 2 ^ 16 +
        (s.berthC k).ordinal) (match (s.berthC k).att with | some a => a.2.2 | none => (s.berthC k).tenant) ∧ t.berth = s.berth)

/-- Parameters and attachment of berths (R211, R491, R499, R503, R504): PARAM_SET puts the mailbox words into the parameter and empties the
mailbox; PARAM_GET places its value; ATTACH gives a free entry of a selector the berth, and DETACH takes it away.
Rests on choices of the model: log entries 17, 46. -/
def Obligations.BerthParameters : Prop :=
  (∀ (p : Port) (h a0 a1 a2 a3 : Word) (k n : Nat) (up : Bool) (ws : List Word) (q : BerthParams) (s : State), s.ringReady p →
    s.berthTaken p h.toNat [1, 2] k → paramShape (a0.toNat % 256) = some (n, up) → (up = true → (s.berthC k).kind = 2) →
    ((s.berthC k).live = true → 5 ≤ a0.toNat % 256 ∧ a0.toNat % 256 ≠ 0xD) → s.mboxIn p n = some ws →
    (s.berthC k).par.put (a0.toNat % 256) ws = some q →
    (a0.toNat % 256 = 0xA → (q.asym - (s.berthC k).par.asym).natAbs ≤ (s.tscC (s.prtTsc (s.berthC k).port)).thresh * 1000) →
    ∃ t, exec (.paramSet p h a0 a1 a2 a3) s = .next t ∧ t.ringDid s p .ok 0 0 ∧ (t.berthC k).par = q ∧ t.w (HOST.MBOX_STAT p) = 0) ∧
  (∀ (p : Port) (h a0 a1 a2 a3 : Word) (k n : Nat) (up : Bool) (s : State), s.ringReady p →
    s.berthTaken p h.toNat [1, 2] k → paramShape (a0.toNat % 256) = some (n, up) → (up = true → (s.berthC k).kind = 2) →
    ∃ t, exec (.paramGet p h a0 a1 a2 a3) s = .next t ∧ t.ringDid s p .ok 0 0 ∧
      t.mboxHolds p ((s.berthC k).par.words (a0.toNat % 256)) ∧ t.f (HOST.RING_STAT_WAIT_OUT p) = 1 ∧ t.berth = s.berth) ∧
  (∀ (p : Port) (h a0 a1 a2 a3 : Word) (k e : Nat) (s : State), s.ringReady p → s.berthTaken p h.toNat [4] k →
    s.berthEntry (bitsAt a0.toNat 11 8) (a0.toNat % 32) = some e →
    (a1 = 0 ∨ (hKind a1.toNat = 2 ∧ hSlot a1.toNat < s.usableSlots ∧ s.current a1.toNat = true ∧
      (s.berthC (hSlot a1.toNat)).port = (s.berthC k).port)) → s.attachedTo (bitsAt a0.toNat 11 8) e = none →
    ∃ t, exec (.attach p h a0 a1 a2 a3) s = .next t ∧ t.ringDid s p .ok 0 0 ∧
      (t.berthC k).att = some (bitsAt a0.toNat 11 8, e, a1.toNat)) ∧
  (∀ (p : Port) (h a0 a1 a2 a3 : Word) (k : Nat) (s : State), s.ringReady p → s.berthTaken p h.toNat [4] k →
    ∃ t, exec (.detach p h a0 a1 a2 a3) s = .next t ∧ t.ringDid s p .ok 0 0 ∧ (t.berthC k).att = none)

/-- Event berths (R384, R502, R505 to R508): EVQ_POP moves the oldest record into the mailbox, or places a GAP record; EVQ_SCAN tells which
berths of a group hold records; MSG_LOAD stores a frame; a pending "stamp" run becomes a record; a pending "send berth message" run queues
the frame, or counts a miss where there is none.
Rests on choices of the model: log entries 45, 46. -/
def Obligations.EventBerths : Prop :=
  (∀ (p : Port) (h a0 a1 a2 a3 : Word) (k : Nat) (r : List Word) (q : List (List Word)) (s : State), s.ringReady p →
    s.berthTaken p h.toNat [3] k → (s.berthC k).ev.q = r :: q → r.length ≤ 64 →
    ∃ t, exec (.evqPop p h a0 a1 a2 a3) s = .next t ∧ t.ringDid s p .ok 0 0 ∧ t.mboxHolds p r ∧ (t.berthC k).ev.q = q) ∧
  (∀ (p : Port) (h a0 a1 a2 a3 : Word) (k : Nat) (s : State), s.ringReady p → s.berthTaken p h.toNat [3] k → (s.berthC k).ev.q = [] →
    ∃ t, exec (.evqPop p h a0 a1 a2 a3) s = .next t ∧ t.ringDid s p .ok 0 0 ∧
      t.mboxHolds p (0xF0000000 :: List.replicate 7 0) ∧ t.berth = s.berth) ∧
  (∀ (p : Port) (a0 a1 a2 a3 : Word) (s : State), s.ringReady p →
    ∃ t, exec (.evqScan p 0 a0 a1 a2 a3) s = .next t ∧ t.ringDid s p .ok (s.evqScan (a0.toNat % 32)) 0 ∧ t.berth = s.berth) ∧
  (∀ (p : Port) (h a0 a1 a2 a3 : Word) (k : Nat) (ws : List Word) (s : State), s.ringReady p → s.berthTaken p h.toNat [3] k →
    60 ≤ a0.toNat % 65536 → a0.toNat % 65536 ≤ 124 → s.mboxIn p (ceilDiv (a0.toNat % 65536) 4) = some ws →
    ∃ t, exec (.msgLoad p h a0 a1 a2 a3) s = .next t ∧ t.ringDid s p .ok 0 0 ∧ t.w (HOST.MBOX_STAT p) = 0 ∧
      (t.berthC k).ev.msg = some (bitAt a0.toNat 31, (wordsLe ws).take (a0.toNat % 65536))) ∧
  (∀ (slot : Fin 8192) (r : TaskRun) (rs : List TaskRun) (s : State), s.tasksC (berthTaskKey slot 0) = r :: rs →
    (s.berthC slot).kind = 3 → (s.berthC slot).live = true → (s.berthC slot).ev.q.length < 24 → (s.berthC slot).ev.lost = false →
    (s.berthC slot).ordinal < 512 → s.routesOf (0x100 + (s.berthC slot).ordinal) = [] →
    ∃ t, exec (.stampTask slot) s = .next t ∧ t.tasksC (berthTaskKey slot 0) = rs ∧
      (t.berthC slot).ev.q = (s.berthC slot).ev.q ++
        [evqWords r.tag 0 r.routed r.event (some (Stamp.ofFrac (r.val / 2 ^ 24) r.tag)) r.idx ++
          [BitVec.ofNat 32 (s.berthC slot).ev.seq, 0]] ∧
      (t.berthC slot).ev.seq = ((s.berthC slot).ev.seq + 1) % 2 ^ 32) ∧
  (∀ (slot : Fin 8192) (r : TaskRun) (rs : List TaskRun) (s : State), s.tasksC (berthTaskKey slot 1) = r :: rs →
    (s.berthC slot).live = true → (s.berthC slot).ev.msg = none →
    ∃ t, exec (.sendBerthMessageTask slot) s = .next t ∧ t.tasksC (berthTaskKey slot 1) = rs ∧ t.on MAN.EVENT_MSG_MISS = true ∧
      t.w MAN.MSG_MISS = min (s.w MAN.MSG_MISS + 1) (2 ^ 32 - 1)) ∧
  (∀ (slot : Fin 8192) (r : TaskRun) (rs : List TaskRun) (express : Bool) (bytes : List Byte) (s : State),
    s.tasksC (berthTaskKey slot 1) = r :: rs → (s.berthC slot).live = true → (s.berthC slot).ev.msg = some (express, bytes) →
    s.on (PRT.STATUS_DORMANT (s.berthC slot).port) = false → s.on (PRT.STATUS_LINK (s.berthC slot).port) = express →
    s.ctxUsed (s.berthC slot).port < 1024 → TxFrame.len ⟨.raw bytes, .none⟩ ≤ s.txFree (s.berthC slot).port →
    ∃ t, exec (.sendBerthMessageTask slot) s = .next t ∧ t.tasksC (berthTaskKey slot 1) = rs ∧
      (if express then ⟨.raw bytes, .berth slot⟩ ∈ (t.prtC (s.berthC slot).port).qx ∧
          t.ctxUsed (s.berthC slot).port = s.ctxUsed (s.berthC slot).port + 1
        else (t.prtC (s.berthC slot).port).q3 = (s.prtC (s.berthC slot).port).q3 ++ [⟨.raw bytes, .none⟩]))

/-- Tenants and manifests (R509, R514, R518 to R520): OPEN starts a ledger and answers the number of its next record; CLOSE freezes a final record
of a tenant without client berths and ends the ledger; PEEK and EXPORT place an open ledger and a signed record; the enclave signs the oldest
frozen ledger, with the signature and the chain of R518, and the last record of a sealing sets EVENT.SEALED.
Rests on choices of the model: log entries 5, 41, 46. -/
def Obligations.TenantsAndManifests : Prop :=
  (∀ (p : Port) (a0 a1 a2 a3 : Word) (s : State), s.ringReady p → s.holds p 0xA1 = true → a0.toNat < 4096 →
    (s.ledger a0.toNat).isOpen = false →
    ∃ t, exec (.tenantOpen p 0 a0 a1 a2 a3) s = .next t ∧ t.ringDid s p .ok (s.ledger a0.toNat).seq 0 ∧
      t.ledger a0.toNat = { s.ledger a0.toNat with
        isOpen := true, start := s.billSeconds, partial_ := true, regress := false, sync := 0, dresp := 0, ann := 0, trace := 0, degr := 0
        out := 0, berths := 0, served := false, ports := [], live := false } ∧ ∀ j, j ≠ a0.toNat → t.ledger j = s.ledger j) ∧
  (∀ (p : Port) (a0 a1 a2 a3 : Word) (s : State), s.ringReady p → s.holds p 0xA1 = true → a0.toNat < 4096 →
    (s.ledger a0.toNat).isOpen = true → s.clientsOf a0.toNat = 0 →
    ∃ t, exec (.tenantClose p 0 a0 a1 a2 a3) s = .next t ∧ t.ringDid s p .ok (s.ledger a0.toNat).seq 0 ∧
      (t.ledger a0.toNat).isOpen = false ∧ (t.ledger a0.toNat).seq = (s.ledger a0.toNat).seq + 1 ∧
      t.man.frozen = s.man.frozen ++ [⟨a0.toNat, (s.ledger a0.toNat).seq, s.recordHead a0.toNat (s.ledger a0.toNat)
        (b2n (s.ledger a0.toNat).regress + 8 * b2n (s.ledger a0.toNat).partial_ + 16) 0xFFFFFFFF s.billSeconds,
        some (s.billSeconds, 1)⟩]) ∧
  (∀ (p : Port) (a0 a1 a2 a3 : Word) (s : State), s.ringReady p → s.holds p 0xA1 = true → a0.toNat < 4096 →
    (s.ledger a0.toNat).isOpen = true →
    ∃ t, exec (.manPeek p 0 a0 a1 a2 a3) s = .next t ∧ t.ringDid s p .ok 0 0 ∧ t.man = s.man ∧
      t.mboxHolds p (toWords 2 (s.ledger a0.toNat).start ++ toWords 2 (s.ledger a0.toNat).sync ++ toWords 2 (s.ledger a0.toNat).dresp ++
        toWords 2 (s.ledger a0.toNat).ann ++ [BitVec.ofNat 32 (s.ledger a0.toNat).trace,
        BitVec.ofNat 32 (satBits 16 (s.ledger a0.toNat).degr * 65536 + satBits 16 (s.ledger a0.toNat).out)])) ∧
  (∀ (p : Port) (a0 a1 a2 a3 : Word) (r : List Byte) (s : State), s.ringReady p → s.holds p 0xA1 = true →
    s.man.frozen.any (fun f => f.tenant == a0.toNat && f.seq == a1.toNat) = false → s.manRecord a0.toNat a1.toNat = some r →
    ∃ t, exec (.manExport p 0 a0 a1 a2 a3) s = .next t ∧ t.ringDid s p .ok 0 0 ∧ t.man = s.man ∧
      t.mboxHolds p (((beWords r).drop (16 * (a2.toNat % 4))).take 16)) ∧
  (∀ (f : Frozen) (rest : List Frozen) (s : State), s.man.frozen = f :: rest → s.top.inFull = false →
    (rest = [] → s.man.resume = false) →
    ∃ t, exec .manifestSigned s = .next t ∧ t.man.frozen = rest ∧ t.on MAN.STATUS_SIGNING = !rest.isEmpty ∧
      (f.done.isSome = true → t.on MAN.EVENT_SEALED = true) ∧
      t.man.toArchive = s.man.toArchive ++ [(f.tenant, f.seq, s.signedRecord f)] ∧
      (t.ledger f.tenant).prev = Config.sha384 (s.signedRecord f))

/-- Frames of the hosts (R420, R421): FRAME_SEND queues the frame from memory, sends it at once where the port may transmit and nothing waits before
it, or takes an egress context where the host asks for its stamp; FRAME_RECV writes the receive header and the oldest received frame to memory
and answers its length, answers the length alone where the area is too small, or says that there is none.
Rests on choices of the model: log entries 21, 22. -/
def Obligations.HostFrames : Prop :=
  (∀ (p : Port) (n : Fin 8) (a0 a1 a2 a3 : Word) (s : State), s.sendsFrame p n a0 a1 a2 → bitAt a0.toNat 31 = false →
    s.canSend n = false →
    ∃ t, exec (.frameSend p a0 a1 a2 a3) s = .next t ∧ t.ringDid s p .ok (t.txFree n) 0 ∧
      (t.prtC n).queue (bitsAt a0.toNat 21 20) =
        (s.prtC n).queue (bitsAt a0.toNat 21 20) ++ [⟨.raw (s.bytes a1.toNat a2.toNat), .none⟩]) ∧
  (∀ (p : Port) (n : Fin 8) (a0 a1 a2 a3 : Word) (s : State), s.sendsFrame p n a0 a1 a2 → bitAt a0.toNat 31 = false →
    s.canSend n = true → (s.prtC n).queued = [] →
    ∃ t, exec (.frameSend p a0 a1 a2 a3) s = .next t ∧ t.ringDid s p .ok (s.txFree n) 0 ∧
      (t.prtC n).lastTx = some ⟨.raw (s.bytes a1.toNat a2.toNat), .none⟩ ∧ (t.prtC n).queued = []) ∧
  (∀ (p : Port) (n : Fin 8) (a0 a1 a2 a3 : Word) (s : State), s.sendsFrame p n a0 a1 a2 → bitAt a0.toNat 31 = true →
    s.on (PRT.STATUS_LINK n) = true → s.ctxUsed n < 1024 →
    ∃ t, exec (.frameSend p a0 a1 a2 a3) s = .next t ∧ t.ringDid s p .ok (t.txFree n) 0 ∧ t.ctxUsed n = s.ctxUsed n + 1 ∧
      ⟨.raw (s.bytes a1.toNat a2.toNat), .host (a0.toNat % 65536)⟩ ∈ (t.prtC n).queue (bitsAt a0.toNat 21 20)) ∧
  (∀ (p : Port) (n : Fin 8) (a0 a1 a2 a3 : Word) (f : RxHost) (fs : List RxHost) (s : State), s.takesFrame p n a0 a1 a2 →
    (s.prtC n).rx = f :: fs → 24 + f.bytes.length ≤ a2.toNat →
    ∃ t, exec (.frameRecv p a0 a1 a2 a3) s = .next t ∧
      t.ringDid s p .ok (f.bytes.length + (if fs.isEmpty then 0 else 2 ^ 31)) 0 ∧ (t.prtC n).rx = fs ∧
      (∀ i, i < 24 + f.bytes.length → t.byte (a1.toNat + i) = f.image.getD i 0) ∧
      ∀ a, a < a1.toNat ∨ a1.toNat + 24 + f.bytes.length ≤ a → t.byte a = s.byte a) ∧
  (∀ (p : Port) (n : Fin 8) (a0 a1 a2 a3 : Word) (f : RxHost) (fs : List RxHost) (s : State), s.takesFrame p n a0 a1 a2 →
    (s.prtC n).rx = f :: fs → a2.toNat < 24 + f.bytes.length →
    ∃ t, exec (.frameRecv p a0 a1 a2 a3) s = .next t ∧ t.ringDid s p .badArgument f.bytes.length 0 ∧ t.mem = s.mem ∧ t.prt = s.prt) ∧
  (∀ (p : Port) (n : Fin 8) (a0 a1 a2 a3 : Word) (s : State), s.takesFrame p n a0 a1 a2 → (s.prtC n).rx = [] →
    ∃ t, exec (.frameRecv p a0 a1 a2 a3) s = .next t ∧ t.ringDid s p .ok (2 ^ 30) 0 ∧ t.mem = s.mem ∧ t.prt = s.prt)

/-! Memory, non-volatile storage, the logbook and flash. -/

/-- Scratchpads (R618 to R629): a host's window write to a scratchpad that it may write stores its bytes and no others; the atomic operations
store the sum or the new word, place the old one and complete with OK; the scrubber reads the next word and corrects a single error.
Rests on choices of the model: log entry 3. -/
def Obligations.Scratchpads : Prop :=
  (∀ (p : Port) (off : BitVec 26) (bs : List Byte) (s : State), s.reaches p = true → windowShape p off.toNat bs.length = true →
    s.windowWrite (off.toNat / spSize) = .ok → s.ecc = [] →
    ∃ t, exec (.hostWindowWrite p off bs) s = .next t ∧ (t.hostC p).code = .ok ∧
      (∀ i, i < bs.length → t.byte (off.toNat + i) = bs.getD i 0) ∧
      ∀ a, a < off.toNat ∨ off.toNat + bs.length ≤ a → t.byte a = s.byte a) ∧
  (∀ (p : Port) (ws : List Word) (s : State), s.takes p MEM.AT_CMD false → s.mboxIn p 2 = some ws →
    s.f MEM.AT_ADDR_OFFSET % 8 = 0 → s.spClass (s.f MEM.AT_ADDR_OFFSET / spSize) = 7 → s.ecc = [] →
    (∃ t, exec (.atAdd p) s = .next t ∧ t.f MEM.AT_CODE_CODE = Code.ok.num ∧
      t.mboxHolds p (toWords 2 (s.word64 (s.f MEM.AT_ADDR_OFFSET))) ∧
      (∀ i, i < 8 → t.byte (s.f MEM.AT_ADDR_OFFSET + i) =
        BitVec.ofNat 8 ((s.word64 (s.f MEM.AT_ADDR_OFFSET) + ofWords ws) % 2 ^ 64 / 256 ^ i)) ∧
      ∀ a, a < s.f MEM.AT_ADDR_OFFSET ∨ s.f MEM.AT_ADDR_OFFSET + 8 ≤ a → t.byte a = s.byte a) ∧
    (∃ t, exec (.atSwap p) s = .next t ∧ t.f MEM.AT_CODE_CODE = Code.ok.num ∧
      t.mboxHolds p (toWords 2 (s.word64 (s.f MEM.AT_ADDR_OFFSET))) ∧
      (∀ i, i < 8 → t.byte (s.f MEM.AT_ADDR_OFFSET + i) = BitVec.ofNat 8 (ofWords ws / 256 ^ i)) ∧
      ∀ a, a < s.f MEM.AT_ADDR_OFFSET ∨ s.f MEM.AT_ADDR_OFFSET + 8 ≤ a → t.byte a = s.byte a)) ∧
  (∀ (sp : Fin 128) (s : State), s.spClass sp ≠ 0 → s.eccBits (sp * 65536 + Tab.get (fun _ => 0) s.scrub sp) ≤ 1 →
    ∃ t, exec (.scrubCycle sp) s = .next t ∧ Tab.get (fun _ => 0) t.scrub sp = (Tab.get (fun _ => 0) s.scrub sp + 1) % 65536 ∧
      t.eccBits (sp * 65536 + Tab.get (fun _ => 0) s.scrub sp) = 0 ∧ t.mem = s.mem)

/-- Operations of NV (R594, R634 to R640, R657): READ places the bytes of the shadow, WRITE stores up to the end of the page in an enabled host
region and marks the page dirty, COMMIT starts a commit of the dirty pages, which its end makes the array's; SET_PW and UNLOCK act for the right
password, LOCK ends what the port has unlocked; LOG_READ places a record and says whether its CRC is right.
Rests on choices of the model: log entry 34. -/
def Obligations.NvOperations : Prop :=
  (∀ (p : Port) (s : State), s.takes p NV.OP false → s.f NV.OP_STATUS_BUSY = 0 → s.nv.storing = none → s.nv.stored = false →
    (∀ (n : BitVec 9), 1 ≤ n.toNat → n.toNat ≤ 256 → s.f NV.OP_ARG_ARG + n.toNat ≤ 0x80000 →
      (∀ i, i < n.toNat → ∀ r, s.hostRegion (s.f NV.OP_ARG_ARG + i) = some r → s.denied p r 0 = false) →
      ∃ t g, exec (.nvRead p n) s = .next t ∧ t.f NV.OP_STATUS_CODE = Code.ok.num ∧ t.f NV.OP_STATUS_LAST_OP = 1 ∧
        t.mboxHolds p (leWords ((List.range n.toNat).map (fun i => s.nvByte g (s.f NV.OP_ARG_ARG + i) i))) ∧ t.nv = s.nv) ∧
    (∀ (n : BitVec 9) (ws : List Word) (r : Nat), 1 ≤ n.toNat → n.toNat ≤ 256 → s.f NV.OP_ARG_ARG + n.toNat ≤ 0x80000 →
      s.mboxIn p ((n.toNat + 3) / 4) = some ws → s.hostRegion (s.f NV.OP_ARG_ARG) = some r → s.denied p r 1 = false →
      ∃ t, exec (.nvWrite p n) s = .next t ∧ t.f NV.OP_STATUS_CODE = Code.ok.num ∧
        t.f NV.OP_STATUS_BYTES = min n.toNat (256 - s.f NV.OP_ARG_ARG % 256) ∧ s.f NV.OP_ARG_ARG / 256 ∈ t.nv.dirty ∧
        (∀ i, i < min n.toNat (256 - s.f NV.OP_ARG_ARG % 256) →
          Tab.get memDefault t.nv.shadow (s.f NV.OP_ARG_ARG + i) = (wordsLe ws).getD i 0) ∧
        (∀ a, a < s.f NV.OP_ARG_ARG ∨ s.f NV.OP_ARG_ARG + min n.toNat (256 - s.f NV.OP_ARG_ARG % 256) ≤ a →
          Tab.get memDefault t.nv.shadow a = Tab.get memDefault s.nv.shadow a) ∧ t.nv.array = s.nv.array) ∧
    (s.nv.commit = none → ∃ t, exec (.nvCommit p) s = .next t ∧ t.f NV.OP_STATUS_BUSY = 1 ∧ t.f NV.STATUS_COMMITTING = 1 ∧
      t.nv.dirty = [] ∧ t.nv.array = s.nv.array ∧ 
        t.nv.commit = some ⟨true, s.withDirty, s.nv.sys, none, some ⟨s.checkpointSlots, s.man.frozen⟩, s.nv.floorDue⟩) ∧
    (∀ (w0 x0 x1 y0 y1 : Word), s.mboxIn p 5 = some [w0, x0, x1, y0, y1] → bitAt w0.toNat 8 ≠ bitAt w0.toNat 9 →
      s.nv.locked.contains (2 * (w0.toNat % 8) + (if bitAt w0.toNat 9 then 1 else 0)) = false →
      ofWords [x0, x1] = s.password (w0.toNat % 8) (if bitAt w0.toNat 9 then 1 else 0) →
      (∃ t, exec (.setPw p) s = .next t ∧ t.f NV.OP_STATUS_CODE = Code.ok.num ∧ t.w (HOST.MBOX_STAT p) = 0 ∧ 0 ∈ t.nv.dirty ∧
        t.password (w0.toNat % 8) (if bitAt w0.toNat 9 then 1 else 0) = ofWords [y0, y1]) ∧
      (∃ t, exec (.unlock p) s = .next t ∧ t.f NV.OP_STATUS_CODE = Code.ok.num ∧ t.w (HOST.MBOX_STAT p) = 0 ∧
        t.denied p (w0.toNat % 8) (if bitAt w0.toNat 9 then 1 else 0) = false)) ∧
    (∃ t, exec (.nvLock p) s = .next t ∧ t.f NV.OP_STATUS_CODE = Code.ok.num ∧
      ∀ r kind, r < 8 → kind < 2 → t.denied p r kind = (s.password r kind != 0)) ∧
    (∀ (r : Nat × List Byte), (s.nv.head ++ s.nv.archive).find? (fun x =>
        x.1 = s.f NV.OP_ARG_HI_ARG * 2 ^ 32 + s.f NV.OP_ARG_ARG) = some r → r.2.length = 64 →
      ∃ t, exec (.logRead p) s = .next t ∧ t.mboxHolds p (beWords r.2) ∧
        t.f NV.OP_STATUS_CODE = (if beAt r.2 60 4 = crc32c (r.2.take 60) then Code.ok.num else Code.corrupt.num))) ∧
  (∀ (c : NvCommit) (s : State), s.nv.commit = some c → c.again = none →
    ∃ t, exec .nvCommitDone s = .next t ∧ t.nv.array = c.arr ∧ t.nv.sysArray = c.sys ∧ t.nv.commit = none ∧
      (∀ l, c.led = some l → t.nv.ledgers = l.slots ∧ t.nv.manFrozen = l.frozen) ∧
      t.f NV.STATUS_COMMITTING = 0 ∧ (c.byHost = true → t.f NV.OP_STATUS_BUSY = 0 ∧ t.f NV.OP_STATUS_LAST_OP = 3 ∧
        t.f NV.OP_STATUS_CODE = Code.ok.num ∧ t.on NV.EVENT_OP_DONE = true))

/-- The ledger timer, VHOLD and the power-fail store (R637, R641 to R643): every LEDGER_S seconds a commit of the ledgers starts; HOLD_OK follows
the sample; PFAIL_N freezes the ledgers and starts the store while HOLD_OK reads 1; the store writes everything and says so; PFAIL_N rising after
it returns the device.
Rests on choices of the model: log entry 69. -/
def Obligations.PowerFailStore : Prop :=
  (∀ (s : State), s.storesReady = true → s.nv.lastLedger + s.f NV.CFG_LEDGER_S * 2000000000 ≤ s.now →
    ∃ t, exec .ledgerCheckpointTimer s = .next t ∧ t.nv.lastLedger = s.now ∧ t.nv.commit.isSome = true) ∧
  (∀ (mv : Nat) (s : State), ∃ t, exec (.vholdSample mv) s = .next t ∧ t.f NV.STATUS_HOLD_OK = (if 2900 ≤ mv then 1 else 0) ∧
    (s.on NV.STATUS_HOLD_OK = true → mv < 2900 → t.on NV.EVENT_HOLD_LOST = true)) ∧
  (∀ (s : State), s.top.phase ∈ [.nv, .flm, .running] → s.nv.pfail = false → s.nv.storing = none →
    ∃ t, exec .pfailAssert s = .next t ∧ t.nv.pfail = true ∧
      (if s.on NV.STATUS_HOLD_OK then t.nv.storing = some s.now ∧ t.man.counts = false else t.nv.storing = none)) ∧
  (∀ (s : State), s.nv.storing.isSome = true → s.nv.stored = false →
    ∃ t, exec .pfailStoreDone s = .next t ∧ t.on NV.EVENT_PFAIL_STORE = true ∧ t.nv.dirty = [] ∧ t.nv.sysArray = t.nv.sys ∧
      (if s.nv.pfail then t.nv.stored = true ∧ t.f NV.STATUS_STORED = 1 ∧ t.nv.staged = []
        else t.nv.stored = false ∧ t.nv.storing = none ∧ t.f NV.STATUS_STORED = 0)) ∧
  (∀ (s : State), s.nv.pfail = true → ∃ t, exec .pfailDeassert s = .next t ∧ t.nv.pfail = false ∧
    (s.nv.stored = true → t.nv.stored = false ∧ t.nv.storing = none ∧ t.f NV.STATUS_STORED = 0 ∧
      t.on NV.EVENT_PFAIL_RECOVERED = true))

/-- The logbook and the archives (R655, R656, R658): a staged record reaches the head, whose 512 newest records stay; the 32 oldest records that
are not archived go to LOG_ARCHIVE, and a signed record to MAN_HEAD and MAN_ARCHIVE, where there is room.
Rests on choices of the model: log entry 34. -/
def Obligations.LogbookAndArchives : Prop :=
  (∀ (r : Nat × List Byte) (rs : List (Nat × List Byte)) (s : State), s.nv.staged = r :: rs →
    ∃ t, exec .logbookHeadWrite s = .next t ∧
      t.nv.head = (if 512 ≤ s.nv.head.length then (s.nv.head ++ [r]).drop 1 else s.nv.head ++ [r]) ∧
      t.nv.unarchived = min 512 (s.nv.unarchived + 1) ∧ t.nv.staged = rs.filter (fun x => x.1 != r.1)) ∧
  (∀ (s : State), s.flashReady = true → 32 ≤ s.nv.unarchived → s.flm.logBlocks ≠ 0 →
    s.nv.archive.length + 32 ≤ s.flm.logBlocks * s.logPerBlock →
    ∃ t, exec (.logArchiveWrite []) s = .next t ∧ t.nv.unarchived = s.nv.unarchived - 32 ∧ t.nv.head = s.nv.head ∧
      t.nv.archive = s.nv.archive ++ (s.nv.head.drop (s.nv.head.length - s.nv.unarchived)).take 32) ∧
  (∀ (r : Nat × Nat × List Byte) (rest : List (Nat × Nat × List Byte)) (s : State), s.flashReady = true →
    s.man.toArchive = r :: rest → s.man.archRecs.length + 1 ≤ s.flm.manBlocks * s.manPerBlock →
    ∃ t, exec (.manifestArchiveWrite []) s = .next t ∧ t.man.toArchive = rest ∧ t.man.archRecs = s.man.archRecs ++ [r] ∧
      t.man.headRecs = s.man.headRecs.filter (fun x => x.1 != r.1) ++ [r])

/-- The flash manager (R648, R650, R651): FORMAT takes a link descriptor while no link is up; its end gives an empty, formatted flash with its
pool; SCRUB completes at once; a pass tells what it refreshed, and a bad block is replaced from the pool.
Rests on choices of the model: log entry 35. -/
def Obligations.FlashManager : Prop :=
  (∀ (p : Port) (ws : List Word) (s : State), s.takes p FLM.OP false → s.f FLM.OP_STATUS_BUSY = 0 → s.f FLM.STATE_LINK = 0 →
    s.mboxIn p 8 = some ws →
    ∃ t, exec (.format p) s = .next t ∧ t.f FLM.STATE_LINK = 2 ∧ t.f FLM.OP_STATUS_BUSY = 1 ∧ t.flm.op = some (1, p) ∧
      t.flm.descriptor = ws) ∧
  (∀ (p : Port) (good : Nat) (s : State), s.flm.op = some (1, p) →
    0x02300000 + 0x800000 ≤ (good - ceilDiv (2 * good) 100) * s.blockBytes / 0x100000 * 0x100000 →
    ∃ t, exec (.formatDone good true) s = .next t ∧ t.flash = [] ∧ t.flm.formatted = true ∧ t.flm.pool = ceilDiv (2 * good) 100 ∧
      t.flm.cap = (good - ceilDiv (2 * good) 100) * s.blockBytes / 0x100000 ∧ t.w FLM.CAP = t.flm.cap % 2 ^ 32 ∧
      t.f FLM.STATE_LINK = 1 ∧ t.flm.op = none ∧ t.f FLM.OP_STATUS_BUSY = 0 ∧ t.f FLM.OP_STATUS_CODE = Code.ok.num ∧
      t.nv.archive = [] ∧ t.man.archRecs = []) ∧
  (∀ (p : Port) (s : State), s.takes p FLM.OP false → s.f FLM.OP_STATUS_BUSY = 0 →
    ∃ t, exec (.scrubNow p) s = .next t ∧ t.f FLM.OP_STATUS_LAST_OP = 2 ∧ t.f FLM.OP_STATUS_CODE = Code.ok.num ∧
      t.f FLM.OP_STATUS_BUSY = 0 ∧ t.on FLM.EVENT_OP_DONE = true) ∧
  (∀ (rf : List Nat) (s : State), s.flashReady = true →
    ∃ t, exec (.flashScrubPass ⟨rf, []⟩) s = .next t ∧ t.on FLM.EVENT_SCRUB_DONE = true ∧
      (rf ≠ [] → t.on FLM.EVENT_REFRESH = true) ∧ t.flash = s.flash) ∧
  (∀ (rf : List Nat) (a : Nat) (s : State), s.flashReady = true → 0 < s.flm.pool →
    ∃ t, exec (.flashScrubPass ⟨rf, [(a, [])]⟩) s = .next t ∧ t.flm.pool = s.flm.pool - 1 ∧ t.flm.bad = s.flm.bad + 1 ∧
      t.on FLM.EVENT_BAD_BLOCK = true ∧ (s.flm.pool = 1 → t.on FLM.EVENT_POOL_EMPTY = true))

/-! Landings. -/

/-- Edges at a landing (R158, R160, R163, R168, R169, R184): a raw edge advances the edge index; a decimated one in stamp mode with a valid
calibration pair and a valid capture is stamped at its coarse time less the fine interpolation and the path constant; loss of activity shows
and is told; the wrap of the coarse count advances every EPOCH.
Rests on choices of the model: log entry 26. -/
def Obligations.LandingEdges : Prop :=
  (∀ (n : Fin 32) (cap : Capture) (s : State), s.lndBuilt n = true → (s.landed = false ∨ s.on (LND.CTRL_ENABLE n) = false) →
    ∃ t, exec (.landingEdge n cap) s = .next t ∧ (t.lndC n).edgeIdx = ((s.lndC n).edgeIdx + 1) % 2 ^ 48 ∧ t.regs = s.regs) ∧
  (∀ (n : Fin 32) (cap : Capture) (c1 c2 f : Nat) (s : State), s.lndBuilt n = true → s.landed = true → s.on (LND.CTRL_ENABLE n) = true →
    s.stampMode n = true → (s.lndC n).skip = 0 → s.on (LND.CTRL_CAL_HOLD n) = false → calPair cap.c1w cap.c2w = some (c1, c2) →
    fineCode cap.word = some f → cap.wharfFull = false →
    (∀ t0, (s.lndC n).lastStamped = some t0 →
      (s.lndC n).stamp + 1800 * 2 ^ 20 ≤ s.stampOf n (s.extended cap.coarse) f) →
    ∃ t, exec (.landingEdge n cap) s = .next t ∧ (t.lndC n).edgeIdx = ((s.lndC n).edgeIdx + 1) % 2 ^ 48 ∧
      (t.lndC n).stampEdge = (s.lndC n).edgeIdx ∧ (t.lndC n).lastStamped = some (s.extended cap.coarse) ∧
      (t.lndC n).c1 = c1 ∧ (t.lndC n).c2 = c2 ∧ t.f (LND.STATUS_CAL_OK n) = 1 ∧
      (t.lndC n).stamp = ((s.extended cap.coarse * 2 ^ 20 : Nat) : Int) - roundNear (((f : Int) - c1) * 2 ^ 20) (c2 - c1) -
        roundNear (s.fi (LND.PATH_K n) * 16) 500) ∧
  (∀ (n : Fin 32) (s : State), s.landed = true → s.lndBuilt n = true → s.on (LND.CTRL_ENABLE n) = true →
    s.on (LND.STATUS_ACTIVE n) = true → (∀ t0, (s.lndC n).lastEdge = some t0 → t0 + s.actWindow n ≤ s.now) →
    (n.val = 30 → s.flt.injCheck = false ∧ s.reaction 0 0x03 < 8) →
    ∃ t, exec (.activityLost n) s = .next t ∧ t.f (LND.STATUS_ACTIVE n) = 0 ∧ t.on (LND.EVENT_ACT_LOST n) = true ∧
      (n.val = 30 → t.f FLT.DEVICE_OSCIN = 1)) ∧
  (∀ (s : State), ∃ t, exec .coarseWrap s = .next t ∧
    ∀ n, n < 32 → t.f (LND.EPOCH_COUNT n) = (s.f (LND.EPOCH_COUNT n) + 1) % 2 ^ (LND.EPOCH_COUNT n).width)

/-- The slicer and the slices of LND[30] (R152, R153, R155, R156, R180): the threshold moves one step towards a midpoint more than two steps away
and else holds; the amplitude and LOW_SWING show; the end of a slice gives its result and begins the next.
Rests on choices of the model: log entry 4. -/
def Obligations.SlicersAndSlices : Prop :=
  (∀ (n : Fin 32) (mid : Int) (amp : Nat) (s : State), s.landed = true → s.lndBuilt n = true → s.f (LND.CFG_FORMAT n) ≠ 6 →
    s.on (LND.CTRL_ENABLE n) = true → s.on (LND.STATUS_ACTIVE n) = true → s.f (LND.CFG_SLICER n) ≠ 0 →
    s.on (LND.SLICE_MANUAL n) = false → s.sliceDue n = true →
    ∃ t, exec (.slicerUpdate n mid amp) s = .next t ∧ t.f (LND.SLICE_STAT_AMP n) = min amp 1023 ∧
      t.f (LND.STATUS_LOW_SWING n) = (if amp < 64 then 1 else 0) ∧
      t.fi (LND.SLICE_STAT_THRESH n) =
        (if mid - s.fi (LND.SLICE_STAT_THRESH n) > 2 then max (-511) (min (s.fi (LND.SLICE_STAT_THRESH n) + 1) 511)
        else if s.fi (LND.SLICE_STAT_THRESH n) - mid > 2 then max (-511) (min (s.fi (LND.SLICE_STAT_THRESH n) - 1) 511)
        else s.fi (LND.SLICE_STAT_THRESH n))) ∧
  (∀ (s : State), s.landed = true → s.lndBuilt 30 = true → (s.lndC 30).slcEnd ≤ s.now →
    ∃ t, exec .lnd30SliceEnd s = .next t ∧
      (t.lndC 30).recent = ((s.now / 2000000 * 2000000 - 2000000, s.sliceResult) :: (s.lndC 30).recent).take 4 ∧
      (t.lndC 30).slcEnd = s.now / 2000000 * 2000000 + 2000000 ∧ (t.lndC 30).slcEarly = [] ∧
      (t.lndC 30).slc = (s.lndC 30).slcEarly.foldl (fun a x => a.add (s.lndC 30).decim x.1 x.2) {} ∧
      t.slices = (match s.sliceResult with | some v => (some v :: s.slices).take 1000 | none => s.slices) ∧
      ∀ r ∈ s.loopRecs, r.loop < 32 → t.on (LOOP.HO_STAT_ON_XO r.loop) = s.sliceResult.isNone)

/-- Gates and arming (R174, R186): a gate ends with what it holds and the next begins at its end with the decimation and length then written;
a gate that waits 1,000 s for its task closes with LONG; a task or CMD.ARM starts a gate, or arms an interval. -/
def Obligations.GatesAndArming : Prop :=
  (∀ (n : Fin 32) (s : State), s.landed = true → (s.lndC n).gateOn = true → s.gateBound n = false →
    (s.lndC n).gateStart + (s.lndC n).gateMs * 2000000 ≤ s.now →
    ∃ t, exec (.gateEnd n) s = .next t ∧ (t.lndC n).gateOn = true ∧
      (t.lndC n).gateStart = (s.lndC n).gateStart + (s.lndC n).gateMs * 2000000 ∧
      (t.lndC n).closed = (s.lndC n).closed ++ [⟨(s.lndC n).gateStart, (s.lndC n).gateStart + (s.lndC n).gateMs * 2000000, false,
        s.endSums n (s.lndC n).gate, (s.lndC n).y30Sum, (s.lndC n).y30Num, (s.lndC n).decim⟩] ∧
      (t.lndC n).decim = s.f (LND.DECIM_DIV n) ∧ (t.lndC n).gateMs = s.f (LND.GATE_MS n) ∧ t.f (LND.STATUS_RUNNING n) = 1) ∧
  (∀ (n : Fin 32) (s : State), s.landed = true → (s.lndC n).gateOn = true → s.gateBound n = true →
    (s.lndC n).gateStart + 2000000000000 ≤ s.now →
    ∃ t, exec (.gateLongTimeout n) s = .next t ∧ (t.lndC n).gateOn = false ∧ t.f (LND.STATUS_RUNNING n) = 0 ∧
      (t.lndC n).closed = (s.lndC n).closed ++ [⟨(s.lndC n).gateStart, (s.lndC n).gateStart + 2000000000000, true,
        s.endSums n (s.lndC n).gate, (s.lndC n).y30Sum, (s.lndC n).y30Num, (s.lndC n).decim⟩]) ∧
  (∀ (n : Fin 32) (r : TaskRun) (rs : List TaskRun) (s : State), s.tasksC (taskKey (0x10 + n) 0) = r :: rs → s.landed = true →
    s.lndBuilt n = true → s.gateBound n = true → s.on (LND.CTRL_ENABLE n) = true →
    ∃ t, exec (.armTdcTask n) s = .next t ∧
      (if s.stampMode n then (t.lndC n).gateOn = true ∧ (t.lndC n).gateStart = s.now else (t.lndC n).armed = true) ∧
      ((s.lndC n).ival = none → t.tasksC (taskKey (0x10 + n) 0) = rs)) ∧
  (∀ (p : Port) (n : Fin 32) (s : State), s.takes p (LND.CMD n) false → s.gateBound n = true → s.on (LND.CTRL_ENABLE n) = true →
    ∃ t, exec (.lndArm p n) s = .next t ∧
      (if s.stampMode n then (t.lndC n).gateOn = true ∧ (t.lndC n).gateStart = s.now else (t.lndC n).armed = true))

/-- Results of a landing (R174, R176, R177, R181, R183): an interval that overflows ends in a GAP result and is counted; one whose stop is captured
gives its length and its start; a gate of fewer than four VALID stamps gives GAP; the fetches place the latest result and the
latest calibration record.
Rests on choices of the model: log entry 3. -/
def Obligations.LandingResults : Prop :=
  (∀ (n : Fin 32) (x : Interval) (s : State), s.landed = true → (s.lndC n).ival = some x → x.at_ + 2 ^ 44 ≤ s.now →
    s.gateBound n = false →
    ∃ t, exec (.intervalOverflow n) s = .next t ∧ (t.lndC n).ival = none ∧ t.f (LND.STATUS_RES_TAG n) = 3 ∧
      t.f (LND.STATUS_RUNNING n) = 0 ∧ t.on (LND.EVENT_OVF n) = true ∧ t.on (LND.EVENT_RESULT n) = true ∧
      t.f (LND.ERRCNT2_OVF n) = min (s.f (LND.ERRCNT2_OVF n) + 1) (2 ^ (LND.ERRCNT2_OVF n).width - 1)) ∧
  (∀ (n : Fin 32) (a b : Int) (settle : Bool) (rest : List (Int × Int × Bool)) (s : State),
    (s.lndC n).ivalDone = (a, b, settle) :: rest →
    ∃ t, exec (.intervalDone n) s = .next t ∧ (t.lndC n).ivalDone = rest ∧ t.on (LND.EVENT_RESULT n) = true ∧
      t.f (LND.STATUS_RES_TAG n) = (s.measureTag n ((s.lndC n).selResults != 0 || settle)).num ∧
      (t.lndC n).result.drop 1 = intWords 2 (roundNear ((b - a) * 125) 1024) ++ toWords 2 (stampField a) ++ [0, 0, 0]) ∧
  (∀ (n : Fin 32) (g : ClosedGate) (rest : List ClosedGate) (s : State), (s.lndC n).closed = g :: rest →
    ∃ t, exec (.regressionDone n) s = .next t ∧ (t.lndC n).closed = rest ∧ t.on (LND.EVENT_RESULT n) = true ∧
      (t.lndC n).seq = ((s.lndC n).seq + 1) % 2 ^ 26 ∧ (t.lndC n).result.getD 1 0 = BitVec.ofNat 32 g.sums.n ∧
      (g.sums.n < 4 → t.f (LND.STATUS_RES_TAG n) = 3)) ∧
  (∀ (p : Port) (n : Fin 32) (s : State), s.takes p (LND.CMD n) false → (s.lndC n).result.length ≤ 64 →
    ∃ t, exec (.fetchResult p n) s = .next t ∧ t.lnd = s.lnd ∧
      t.mboxHolds p (if (s.lndC n).result = [] then 0xC0000000 :: List.replicate 7 0 else (s.lndC n).result)) ∧
  (∀ (p : Port) (n : Fin 32) (s : State), s.takes p (LND.CMD n) false → (s.lndC n).calTag = .valid → (s.lndC n).paired = true →
    ∃ t g, exec (.fetchCal p n) s = .next t ∧ t.lnd = s.lnd ∧
      t.mboxHolds p [BitVec.ofNat 32 (3 * 2 ^ 28 + (s.lndC n).calSeq), BitVec.ofNat 32 ((s.lndC n).c2 * 2 ^ 16 + (s.lndC n).c1), g,
        0, 0, 0, 0, 0])

/-! Selectors, loops, holdover and engines. -/

/-- What falls due at a selector (R204, R211, R214, R216, R221): wait-to-restore ends in the plausibility check, a hold-off in a return to the
same entry, which a better one may then replace, in a switch to the best one or in HOLDOVER; READMIT qualifies an entry in WTR at once;
entries whose ESMC has been silent for 5 s take rank 0xF. -/
def Obligations.SelectorTimers : Prop :=
  (∀ (n : Fin 16) (k : Fin 30) (s : State), s.landed = true → s.selBuilt n = true → k.val < s.ncand n → s.cstate n k = 4 →
    (s.entC (entKey n k)).wtrEnd ≤ s.now → s.sound n k = true →
    ∃ t, exec (.wtrExpiry n k) s = .next t ∧
      (s.plausReady n k = false → (t.entC (entKey n k)).wtrDue = true ∧ t.cstate n k = 4) ∧
      (s.plausReady n k = true → s.plausible n k = false → t.cstate n k = 4 ∧ t.on (SEL.CAND_STATE_PLAUS n k) = true ∧
        (t.entC (entKey n k)).wtrDue = false ∧ (t.entC (entKey n k)).wtrEnd = s.now + s.f (SEL.CTRL_WTR n) * 2000000000) ∧
      (s.plausReady n k = true → s.plausible n k = true → t.cstate n k = 2 ∧ t.on (SEL.CAND_EVENT_QUALIFIED n k) = true)) ∧
  (∀ (n : Fin 16) (s : State), s.landed = true → s.selBuilt n = true → s.selState n = 2 → (s.selC n).holdEnd ≤ s.now →
    s.active n < 30 →
    ∃ t, exec (.holdoffExpiry n) s = .next t ∧
      (s.sound n (s.active n) = true → s.cstate n (s.active n) ≠ 0 → t.selState n = 1 ∧ t.cstate n (s.active n) = 2 ∧
        (s.on (SEL.CTRL_REVERTIVE n) = false → s.on (SEL.CTRL_QL_MODE n) = false → bitAt (s.f XLK.CFG_FOLLOW) n = false →
          (s.entC (entKey n (s.active n))).readmitted = false →
          t.active n = s.active n ∧ t.f (SEL.STATUS_CAUSE n) = 2)) ∧
      (s.sound n (s.active n) = false ∨ s.cstate n (s.active n) = 0 → ∀ b, s.best n = some b →
        (s.entC (entKey n b)).readmitted = false →
        t.selState n = 1 ∧ t.active n = b ∧ t.f (SEL.STATUS_CAUSE n) = 2) ∧
      (s.sound n (s.active n) = false ∨ s.cstate n (s.active n) = 0 → s.best n = none →
        t.selState n = 3 ∧ t.active n = 0x1F ∧ t.on (SEL.EVENT_HOLDOVER_IN n) = true)) ∧
  (∀ (p : Port) (n : Fin 16) (k : Fin 30) (s : State), s.takes p (SEL.CMD n) false → s.selState n = 3 → k.val < s.ncand n →
    s.cstate n k = 4 →
    ∃ t, exec (.readmit p n k) s = .next t ∧ t.cstate n k = 2 ∧ t.on (SEL.CAND_EVENT_QUALIFIED n k) = true ∧
      t.f ⟨SEL.QUAL n, k, k⟩ = 1) ∧
  (∀ (n : Fin 8) (s : State), s.landed = true → s.prtBuilt n = true → (s.prtC n).esmcAt + 10000000000 ≤ s.now →
    ∃ t, exec (.esmcTimeout n) s = .next t ∧
      ∀ i k, (i, k) ∈ s.entriesOf (20 + n) → i < 16 →
        (s.f (SEL.CAND_CFG_SOURCE i k) = 1 ∨ s.f (SEL.CAND_CFG_SOURCE i k) = 2) → (t.entC (entKey i k)).rank = 0xF)

/-- Updates of a loop (R234, R236, R241, R245, R251, R252, R268, R310): what one update makes of the loop's numbers, its word and its tag; a frozen
loop makes none until its first VALID sample after a switch, and leaves the freeze with it; a migrating one keeps its samples; LOCKED after the
dwell, and the next gear after its own.
Rests on choices of the model: log entries 4, 91. -/
def Obligations.LoopUpdates : Prop :=
  (∀ (n : Fin 32) (s : State), s.landed = true → s.loopBuilt n = true → (s.loopC n).mig = none →
    s.ecc = [] → s.flt.injEngine ≠ some (s.engineOf n) →
    let b := s.nextBoundaryOf n
    let xs := s.intervalSamples n b
    let r := (s.keepInterval n b xs).updateInput n b xs
    let u := r.1.equations n r.2.1 r.2.2
    let w := toWord (u.yI + u.uc + u.sl) (r.1.loopC n).ybar
    (s.on (LOOP.STATUS_FROZEN n) = true → (s.loopC n).stranded = false ∧ (s.loopC n).depart = true ∧ r.2.1 = .valid) →
    wordFits w = true →
    ∃ t, exec (.loopUpdate n .pass) s = .next t ∧ (t.loopC n).yI = u.yI ∧ (t.loopC n).uc = u.uc ∧ (t.loopC n).sl = u.sl ∧
      (t.loopC n).rem = u.rem ∧ (t.loopC n).remPart = u.part ∧ (t.loopC n).bo = u.bo ∧ (t.loopC n).word = w ∧ (t.loopC n).lastB = b ∧ (t.loopC n).acc = [] ∧
      (t.loopC n).seq = (s.loopC n).seq + 1 ∧ t.f (LOOP.STATUS_TAG n) = r.2.1.num ∧
      (s.on (LOOP.STATUS_FROZEN n) = true → t.f (LOOP.STATUS_FROZEN n) = 0 ∧ t.on (LOOP.EVENT_SWITCHED n) = true)) ∧
  (∀ (n : Fin 32) (chk : CheckOutcome) (s : State), s.landed = true → s.loopBuilt n = true → (s.loopC n).mig = none →
    s.on (LOOP.STATUS_FROZEN n) = true → (s.loopC n).stranded = true ∨ (s.loopC n).depart = false →
    ∃ t, exec (.loopUpdate n chk) s = .next t ∧ t.regs = s.regs ∧ t.mem = s.mem ∧
      t.loopC n = { s.loopC n with acc := [], kept := ((s.loopC n).kept ++
        [(s.nextBoundaryOf n, (s.loopC n).entry, s.intervalSamples n (s.nextBoundaryOf n))]).drop ((s.loopC n).kept.length - 63) }) ∧
  (∀ (n : Fin 32) (chk : CheckOutcome) (src dst : Nat) (planned retire : Bool) (s : State), s.landed = true →
    s.loopBuilt n = true → (s.loopC n).mig = some (src, dst, planned, retire) → s.awaitsUpdate n = false →
    (planned = true → chk = .pass) →
    ∃ t, exec (.loopUpdate n chk) s = .next t ∧ t.regs = s.regs ∧ t.mem = s.mem ∧
      t.loopC n = { s.loopC n with acc := [], kept := ((s.loopC n).kept ++
        [(s.nextBoundaryOf n, (s.loopC n).entry, s.intervalSamples n (s.nextBoundaryOf n))]).drop ((s.loopC n).kept.length - 63) }) ∧
  (∀ (n : Fin 32) (t0 : Nat) (s : State), s.loopState n = 1 → s.inFinal n = true → (s.loopC n).lockSince = some t0 →
    t0 + s.f (LOOP.LOCK_DWELL_MS n) * 2000000 ≤ s.now → s.on (LOOP.STATUS_FROZEN n) = false → (s.loopC n).mig = none →
    ∃ t, exec (.lockDwellExpiry n) s = .next t ∧ t.loopState n = 2 ∧ (t.loopC n).lockSince = none ∧ (t.hoC n).locked = true ∧
      t.on (LOOP.EVENT_LOCK_GAINED n) = true) ∧
  (∀ (n : Fin 32) (s : State), s.loopState n = 1 → s.on (LOOP.STATUS_FINAL n) = false → (s.loopC n).gearEnd ≤ s.now →
    let k := (s.loopC n).gear + 1
    ∃ t, exec (.gearDwellExpiry n) s = .next t ∧ t.f (LOOP.STATUS_GEAR n) = min k 7 ∧
      (s.on (LOOP.CTRL_GEAR_MAN n) = true → 8 ≤ k ∨ s.f (LOOP.GEAR_BW_UHZ n k) = 0 →
        (t.loopC n).bw = s.finalBw n ∧ (t.loopC n).gear = min k 7 ∧ t.f (LOOP.STATUS_FINAL n) = 1) ∧
      (s.on (LOOP.CTRL_GEAR_MAN n) = true → k < 8 → s.f (LOOP.GEAR_BW_UHZ n k) ≠ 0 →
        (t.loopC n).bw = s.f (LOOP.GEAR_BW_UHZ n k) ∧ (t.loopC n).gear = k ∧ t.f (LOOP.STATUS_FINAL n) = 0) ∧
      (s.on (LOOP.CTRL_GEAR_MAN n) = false → (t.loopC n).bw = max (s.finalBw n) ((s.loopC n).f0 / 2 ^ k) ∧
        (t.loopC n).gear = k))

/-- Phase steps and the state record of a loop (R257, R258, R259, R271, R317): STEP_LOAD arms the amount in the mailbox, one beyond 500 µs is
refused; STEP_GO and the task apply it; STEP_CANCEL takes remainder and amount away; FETCH places the record; a command to a loop that migrates
waits. -/
def Obligations.LoopStepsAndRecord : Prop :=
  (∀ (p : Port) (n : Fin 32) (ws : List Word) (s : State), s.takes p (LOOP.CMD n) false → (s.loopC n).mig = none →
    s.mboxIn p 2 = some ws →
    ∃ t, exec (.stepLoad p n) s = .next t ∧
      (500000000000 < (toSigned 64 (ofWords ws)).natAbs → t.f (LOOP.STEPSTAT_CODE n) = Code.badArgument.num ∧ t.loop = s.loop ∧
        t.w (HOST.MBOX_STAT p) = s.w (HOST.MBOX_STAT p)) ∧
      ((toSigned 64 (ofWords ws)).natAbs ≤ 500000000000 →
        (s.f (LOOP.CFG_TKIND n) = 2 →
          (toSigned 64 (ofWords ws)).natAbs ≤ (s.tscC (s.f (LOOP.CFG_TIDX n))).thresh * 1000000) →
        (t.loopC n).armed = some (toSigned 64 (ofWords ws)) ∧ t.f (LOOP.STATUS_ARMED n) = 1 ∧ t.f (LOOP.STEPSTAT_CODE n) = 0 ∧
          t.w (HOST.MBOX_STAT p) = 0)) ∧
  (∀ (p : Port) (n : Fin 32) (a : Int) (s : State), s.takes p (LOOP.CMD n) false → (s.loopC n).mig = none →
    (s.loopC n).armed = some a → ((s.loopC n).rem + a).natAbs ≤ 1000000000000 →
    ∃ t, exec (.stepGo p n) s = .next t ∧ (t.loopC n).rem = (s.loopC n).rem + a ∧ (t.loopC n).armed = none ∧
      t.f (LOOP.STATUS_ARMED n) = 0 ∧ t.f (LOOP.STEPSTAT_CODE n) = 0) ∧
  (∀ (n : Fin 32) (r : TaskRun) (rs : List TaskRun) (s : State), s.tasksC (taskKey (0x40 + n) 0) = r :: rs →
    (s.loopC n).mig.isSome = true →
    ∃ t, exec (.stepPhaseTask n) s = .next t ∧ t.tasksC (taskKey (0x40 + n) 0) = rs ∧
      t.loopC n = { s.loopC n with waiting := (s.loopC n).waiting ++ [(.a, 2)] }) ∧
  (∀ (n : Fin 32) (a : Int) (r : TaskRun) (rs : List TaskRun) (s : State), s.tasksC (taskKey (0x40 + n) 0) = r :: rs →
    (s.loopC n).mig = none → (s.loopC n).armed = some a → ((s.loopC n).rem + a).natAbs ≤ 1000000000000 →
    ∃ t, exec (.stepPhaseTask n) s = .next t ∧ t.tasksC (taskKey (0x40 + n) 0) = rs ∧
      (t.loopC n).rem = (s.loopC n).rem + a ∧ (t.loopC n).armed = none ∧ t.f (LOOP.STEPSTAT_CODE n) = 0) ∧
  (∀ (p : Port) (n : Fin 32) (s : State), s.takes p (LOOP.CMD n) false → (s.loopC n).mig = none →
    ∃ t, exec (.stepCancel p n) s = .next t ∧ (t.loopC n).rem = 0 ∧ (t.loopC n).armed = none ∧ t.f (LOOP.STATUS_ARMED n) = 0 ∧
      t.f (LOOP.STATUS_SLEWING n) = 0) ∧
  (∀ (p : Port) (n : Fin 32) (s : State), s.takes p (LOOP.CMD n) false → (s.loopC n).mig = none → (s.loopRecord n).length ≤ 64 →
    ∃ t, exec (.loopFetch p n) s = .next t ∧ t.mboxHolds p (s.loopRecord n) ∧ t.loop = s.loop) ∧
  (∀ (p : Port) (n : Fin 32) (s : State), s.takes p (LOOP.CMD n) false → (s.loopC n).mig.isSome = true →
    ∃ t, exec (.loopFetch p n) s = .next t ∧ (t.loopC n).waiting = (s.loopC n).waiting ++ [(p, 0)] ∧ t.regs = s.regs)

/-- Holdover (R273 to R276, R279, R280, R282 to R288, R294 to R297): a history interval writes its record and begins anew; a refit and an entry fit
put their model in force; each second moves the holdover frequency towards the model by at most the rate; temperature; the model commands.
Rests on choices of the model: log entries 4, 25, 67. -/
def Obligations.Holdover : Prop :=
  (∀ (n : Fin 32) (s : State), s.landed = true → s.loopBuilt n = true → (s.selOf n).isSome = true → s.loopState n ≠ 0 →
    s.loopState n ≠ 4 → s.f (LOOP.HIST_PTR_NEXT n) < 12288 →
    ∃ t, exec (.historyIntervalEnd n) s = .next t ∧
      t.f (LOOP.HIST_PTR_NEXT n) = (if s.f (LOOP.HIST_PTR_NEXT n) = 12287 then 0 else s.f (LOOP.HIST_PTR_NEXT n) + 1) ∧
      (∀ i, i < 32 → t.byte (s.historyEngine n * spSize + 32 * s.f (LOOP.HIST_PTR_NEXT n) + i) =
        (s.histRecord n (if s.historyMoving n = true then (s.histTag n).max .suspect else s.histTag n)).getD i 0) ∧
      (t.hoC n).seq = (s.hoC n).seq + 1 ∧ (t.hoC n).updN = 0 ∧ (t.hoC n).sum = 0 ∧ (t.hoC n).validN = 0) ∧
  (∀ (n : Fin 32) (s : State), (s.hoC n).refit = true → s.on (LOOP.HO_CTRL_FIT_HOLD n) = false →
    ∃ t, exec (.refitDone n) s = .next t ∧ (t.hoC n).refit = false ∧ (t.hoC n).fitted = s.fitModel n 0 ∧
      (t.hoC n).qualified = (s.qualifyingAll n 0).length ∧ t.on (LOOP.HO_STAT_MODEL_OK n) = (s.fitModel n 0).isSome) ∧
  (∀ (n : Fin 32) (s : State), (s.hoC n).entryFit = true →
    ∃ t, exec (.entryFitDone n) s = .next t ∧ (t.hoC n).entryFit = false ∧ (t.hoC n).evaluating = true ∧
      (t.hoC n).atEntry = (if s.on (LOOP.HO_CTRL_FIT_HOLD n) = true then (s.hoC n).fitted
        else s.fitModel n (s.f (LOOP.HO_CTRL_GUARD n))) ∧
      ((t.hoC n).atEntry = none → t.on (LOOP.HO_EVENT_NO_MODEL n) = true)) ∧
  (∀ (n : Fin 32) (s : State), s.landed = true → s.loopBuilt n = true → s.loopState n = 3 → (s.hoC n).evaluating = true →
    (s.loopC n).mig = none →
    let y := match s.modelInForce n with | some m => s.evalModel n m | none => (s.hoC n).yho
    ∃ t, exec (.holdoverSecond n) s = .next t ∧
      t.f (LOOP.HO_ELAPSED_S n) = min (s.f (LOOP.HO_ELAPSED_S n) + 1) (2 ^ (LOOP.HO_ELAPSED_S n).width - 1) ∧
      (t.hoC n).yho = (s.hoC n).yho +
        max (-(s.f (LOOP.HO_FRATE_RATE n) : Int)) (min (y - (s.hoC n).yho) (s.f (LOOP.HO_FRATE_RATE n))) ∧
      t.on (LOOP.HO_STAT_RAMPING n) = ((t.hoC n).yho != y)) ∧
  (∀ (n : Fin 32) (die : Int) (s : State), s.landed = true → s.loopBuilt n = true →
    let x := if s.f (LOOP.HO_CTRL_TSRC n) = 0 then die else s.fi (LOOP.HO_TEMP_T n)
    ∃ t, exec (.temperatureSample n die) s = .next t ∧ (t.hoC n).tRaw = x ∧ (t.hoC n).tsrc = s.f (LOOP.HO_CTRL_TSRC n) ∧
      (t.hoC n).tlag = s.f (LOOP.HO_TLAG_S n) ∧ (t.hoC n).tref = s.fi (LOOP.HO_TREF_T n) ∧
      (t.hoC n).tEff = (if s.f (LOOP.HO_CTRL_TSRC n) = 2 then none
        else some (lagStep (if s.f (LOOP.HO_CTRL_TSRC n) = (s.hoC n).tsrc then (s.hoC n).tEff else none) x (s.f (LOOP.HO_TLAG_S n)))) ∧
      (s.f (LOOP.HO_CTRL_TSRC n) ≠ 1 → t.f (LOOP.HO_STAT_TEMP_STALE n) = 0)) ∧
  (∀ (n : Fin 32) (s : State), s.landed = true → s.loopBuilt n = true → (s.hoC n).tsrc = 1 →
    s.on (LOOP.HO_STAT_TEMP_STALE n) = false → (s.hoC n).tempAt + 120000000000 ≤ s.now →
    ∃ t, exec (.tempStaleTimeout n) s = .next t ∧ t.f (LOOP.HO_STAT_TEMP_STALE n) = 1 ∧
      t.on (LOOP.HO_EVENT_TEMP_STALE n) = true) ∧
  (∀ (p : Port) (n : Fin 32) (s : State), s.takes p (LOOP.HO_CMD n) false → (s.loopC n).mig = none →
    ∃ t, exec (.fetchModel p n) s = .next t ∧ t.ho = s.ho ∧
      t.mboxHolds p (modelRecord (if s.on (LOOP.HO_CTRL_OVR n) = true then (s.hoC n).loaded else (s.hoC n).fitted))) ∧
  (∀ (p : Port) (n : Fin 32) (ws : List Word) (m : Model) (s : State), s.takes p (LOOP.HO_CMD n) true → (s.loopC n).mig = none →
    s.mboxIn p 20 = some ws → modelOfRecord ws s.uptimeMs = some m →
    ∃ t, exec (.loadModel p n) s = .next t ∧ (t.hoC n).loaded = some m ∧ t.f (LOOP.HO_CODE_CODE n) = 0 ∧
      t.on (LOOP.HO_EVENT_LOAD_DONE n) = true ∧ t.w (HOST.MBOX_STAT p) = 0) ∧
  (∀ (p : Port) (n : Fin 32) (s : State), s.takes p (LOOP.HO_CMD n) true → (s.loopC n).mig = none →
    ∃ t, exec (.clearHistory p n) s = .next t ∧
      (s.loopState n = 3 → t.f (LOOP.HO_CODE_CODE n) = Code.locked.num ∧ t.ho = s.ho) ∧
      (s.loopState n ≠ 3 → t.f (LOOP.HO_CODE_CODE n) = 0 ∧ (t.hoC n).fitted = none ∧ (t.hoC n).qualified = 0 ∧
        (t.hoC n).qualFrom = (s.hoC n).seq ∧ t.f (LOOP.HO_STAT_MODEL_OK n) = 0))

/-- Engines (R303, R309 to R315, R323, R324): RETIRE, RETURN and MIGRATE; the end of a self-test; a failover and a planned migration end with the
loop on the receiving engine; the history copy; and a loop in FERRY_HOLD whose selector follows nothing goes to HOLDOVER.
Rests on choices of the model: log entries 18, 60. -/
def Obligations.Engines : Prop :=
  (∀ (p : Port) (h : Word) (s : State), s.takes p ENG.CMD false → s.engHandles 1 0 h.toNat = .ok →
    s.on ENG.CMD_STATUS_BUSY = false → s.eng.testing = none → s.eng.opLoop = none →
    ∃ t, exec (.engRetire p h) s = .next t ∧
      (s.engState (hSlot h.toNat) = 0 → s.incoming (hSlot h.toNat) = false →
        t.engState (hSlot h.toNat) = 3 ∧ t.f ENG.CMD_STATUS_CODE = 0 ∧ t.f ENG.CMD_STATUS_BUSY = 0 ∧
          t.f (ENG.ENGINE_GEN (hSlot h.toNat)) =
            (s.f (ENG.ENGINE_GEN (hSlot h.toNat)) + 1) % 2 ^ (ENG.ENGINE_GEN (hSlot h.toNat)).width) ∧
      (∀ d, s.engState (hSlot h.toNat) = 1 → s.f (ENG.ENGINE_LOOP (hSlot h.toNat)) < 32 →
        (s.loopC (s.f (ENG.ENGINE_LOOP (hSlot h.toNat)))).mig = none → s.pontoon = some d →
        (t.loopC (s.f (ENG.ENGINE_LOOP (hSlot h.toNat)))).mig = some (hSlot h.toNat, d, true, true) ∧
          t.f ENG.CMD_STATUS_BUSY = 1 ∧ t.f ENG.CMD_STATUS_CODE = 0) ∧
      (s.engState (hSlot h.toNat) = 1 → s.f (ENG.ENGINE_LOOP (hSlot h.toNat)) < 32 →
        (s.loopC (s.f (ENG.ENGINE_LOOP (hSlot h.toNat)))).mig = none → s.pontoon = none →
        t.loop = s.loop ∧ t.f ENG.CMD_STATUS_CODE = Code.noSlot.num ∧ t.f ENG.CMD_STATUS_BUSY = 0)) ∧
  (∀ (p : Port) (h : Word) (s : State), s.takes p ENG.CMD false → s.engHandles 2 0 h.toNat = .ok →
    s.on ENG.CMD_STATUS_BUSY = false → s.engState (hSlot h.toNat) = 3 →
    ∃ t, exec (.engReturn p h) s = .next t ∧ t.engState (hSlot h.toNat) = 2 ∧ t.eng.testing = some (hSlot h.toNat) ∧
      t.f ENG.CMD_STATUS_BUSY = 1 ∧ t.f ENG.CMD_STATUS_CODE = 0) ∧
  (∀ (p : Port) (h e : Word) (s : State), s.takes p ENG.CMD true → s.engHandles 3 h.toNat e.toNat = .ok →
    s.on ENG.CMD_STATUS_BUSY = false → s.engState (hSlot e.toNat) = 0 → s.incoming (hSlot e.toNat) = false →
    s.engState (s.engineOf (hSlot h.toNat)) = 1 → (s.loopC (hSlot h.toNat)).mig = none →
    ∃ t, exec (.engMigrate p h e) s = .next t ∧ t.f ENG.CMD_STATUS_BUSY = 1 ∧ t.f ENG.CMD_STATUS_CODE = 0 ∧
      (t.loopC (hSlot h.toNat)).mig = some (s.engineOf (hSlot h.toNat), hSlot e.toNat, true, false)) ∧
  (∀ (e : Fin 36) (s : State), s.engState e = 2 →
    ∃ t, exec (.engineSelfTestDone e true) s = .next t ∧ t.engState e = 0 ∧ t.f (ENG.ENGINE_LOOP e) = 0x3F ∧
      t.on ENG.EVENT_RETURNED = true ∧ t.eng.testing = (if s.eng.testing = some e.val then none else s.eng.testing)) ∧
  (∀ (e : Fin 36) (s : State), s.engState e = 2 → s.flt.injCheck = false → s.reaction 8 0x0D < 8 →
    ∃ t, exec (.engineSelfTestDone e false) s = .next t ∧ t.engState e = 4 ∧ t.f (ENG.ENGINE_CAUSE e) = 7 ∧
      t.on ENG.EVENT_TEST_FAIL = true ∧ t.on ENG.EVENT_FENCED = true) ∧
  (∀ (n : Fin 32) (src dst : Nat) (retire : Bool) (k : Checkpoint) (s : State), (s.loopC n).mig = some (src, dst, false, retire) →
    src < 36 → dst < 36 →
    src ≠ dst → s.lastCheckpoint src = some k → k.core.seq = (s.loopC n).seq → (s.loopC n).waiting = [] → (s.loopC n).orders = [] →
    (∀ x ∈ (s.loopC n).kept, x.1 ≤ k.core.lastB ∧ x.1 ≤ (s.loopC n).lastB) →
    ∃ t, exec (.failoverResume n .pass) s = .next t ∧
      t.loopC n = { (s.loopC n).reloaded k.core with orders := [], waiting := [] } ∧ t.engineOf n = dst ∧ t.engState dst = 1 ∧
      t.f (ENG.ENGINE_LOOP dst) = n ∧ t.engState src = s.engState src ∧ t.on ENG.EVENT_FENCED = true ∧
      t.on (LOOP.EVENT_MIGRATED n) = true) ∧
  (∀ (n : Fin 32) (src dst : Nat) (retire : Bool) (k : Checkpoint) (s : State), (s.loopC n).mig = some (src, dst, true, retire) →
    src < 36 → dst < 36 →
    src ≠ dst → s.lastCheckpoint src = some k → k.core.seq = (s.loopC n).seq → (s.loopC n).waiting = [] → (s.loopC n).orders = [] →
    (∀ x ∈ (s.loopC n).kept, x.1 ≤ k.core.lastB ∧ x.1 ≤ (s.loopC n).lastB) →
    ∃ t, exec (.migrationResume n .pass) s = .next t ∧
      t.loopC n = { (s.loopC n).reloaded k.core with orders := [], waiting := [] } ∧ t.engineOf n = dst ∧ t.engState dst = 1 ∧
      t.f (ENG.ENGINE_LOOP dst) = n ∧ t.engState src = (if retire then 3 else s.engState src) ∧
      t.eng.copies = s.eng.copies ++ [(dst, src, !retire)] ∧ t.on (LOOP.EVENT_MIGRATED n) = true) ∧
  (∀ (e : Fin 36) (src : Nat) (pontoon : Bool) (s : State), s.eng.copies.find? (fun x => x.1 = e.val) = some (e.val, src, pontoon) →
    src < 36 → src ≠ e.val → s.ecc = [] →
    ∃ t, exec (.historyCopyDone e) s = .next t ∧ t.eng.copies = s.eng.copies.filter (fun x => x.1 != e.val) ∧
      t.f (ENG.ENGINE_COPYING e) = 0 ∧ (pontoon = true → t.engState src = 0) ∧
      (s.f (ENG.ENGINE_LOOP e) < 32 → s.loopState (s.f (ENG.ENGINE_LOOP e)) ≠ 3 →
        s.on (LOOP.HO_CTRL_FIT_HOLD (s.f (ENG.ENGINE_LOOP e))) = false → (t.hoC (s.f (ENG.ENGINE_LOOP e))).refit = true)) ∧
  (∀ (n : Fin 32) (s : State), s.landed = true → s.loopBuilt n = true → s.loopState n = 4 →
    ((s.loopC n).ckState = 1 ∨ (s.loopC n).ckState = 2) → (s.loopC n).fresh = false → (s.selOf n).isSome = true →
    (if s.on (LOOP.HO_CTRL_OVR n) = true then (s.hoC n).loaded else (s.hoC n).fitted).isSome = true →
    (s.loopC n).stranded = false → (s.loopC n).mig = none →
    s.eng.landedAt + s.f ENG.CTRL_LAND_WAIT * 2000000000 ≤ s.now →
    ∃ t, exec (.landWaitExpiry n) s = .next t ∧ t.loopState n = 3 ∧ t.f (LOOP.STATUS_FROZEN n) = 0 ∧
      t.w (LOOP.HO_ELAPSED n) = 0 ∧ t.on (LOOP.EVENT_HOLDOVER_IN n) = true ∧
      (t.hoC n).yho = roundOpen 3 (s.wordBack n) (2 ^ 40) ∧ (t.hoC n).entryFit = !s.on (LOOP.HO_CTRL_OVR n))

/-! Synthesisers, outputs, time scales. -/

/-- Synthesisers (R331, R332, R334 to R339): the steps of a start; windows in and out of tolerance; the ramp commands and the end of a segment.
Rests on choices of the model: log entries 3, 27, 64. -/
def Obligations.Synthesisers : Prop :=
  (∀ (n : Fin 8) (band : Nat) (s : State), (s.aplC n).phase = .bandCal →
    ∃ t, exec (.bandCalDone n band) s = .next t ∧ (t.aplC n).phase = .acquiring ∧
      t.f (APL.STATUS_BAND n) = band % 2 ^ (APL.STATUS_BAND n).width) ∧
  (∀ (n : Fin 8) (s : State), (s.aplC n).phase = .acquiring →
    ∃ t, exec (.analogAcqDone n) s = .next t ∧ (t.aplC n).phase = .counting ∧ t.f (APL.STATUS_CAL n) = 0 ∧
      (t.aplC n).inTol = 0 ∧ (t.aplC n).outTol = 0) ∧
  (∀ (n : Fin 8) (dev : Int) (s : State), (s.aplC n).phase = .counting → dev.natAbs ≤ s.f (APL.LOCK_TOL n) →
    ∃ t, exec (.lockWindowEnd n dev) s = .next t ∧ (t.aplC n).inTol = min 63 ((s.aplC n).inTol + 1) ∧ (t.aplC n).outTol = 0 ∧
      t.on (APL.STATUS_LOCKED n) =
        (s.on (APL.STATUS_LOCKED n) || decide (s.f (APL.LOCK_CNT n) ≤ min 63 ((s.aplC n).inTol + 1)))) ∧
  (∀ (n : Fin 8) (dev : Int) (s : State), (s.aplC n).phase = .counting → s.f (APL.LOCK_TOL n) < dev.natAbs →
    s.flt.injCheck = false → s.reaction 9 0x0F < 8 → (s.aplC n).outTol < 15 →
    ∃ t, exec (.lockWindowEnd n dev) s = .next t ∧ (t.aplC n).inTol = 0 ∧ (t.aplC n).outTol = (s.aplC n).outTol + 1 ∧
      t.on (APL.STATUS_LOCKED n) = (s.on (APL.STATUS_LOCKED n) && (s.aplC n).outTol == 0)) ∧
  (∀ (p : Port) (n : Fin 8) (arm : Bool) (ws : List Word) (s : State), s.takes p (APL.CMD n) false → s.mboxIn p 2 = some ws →
    s.on (APL.STATUS_LOCKED n) = true →
    s.segsValid n (s.nomNow n) [rampSegment (s.nomNow n) (ofWords ws) (s.f (APL.RAMP_RATE_KHZ_PER_MS n))] = true →
    ∃ t, exec (.rampTo p n arm) s = .next t ∧ t.f (APL.CODE_CODE n) = 0 ∧ t.w (HOST.MBOX_STAT p) = 0 ∧
      (t.aplC n).segs = [some (rampSegment (s.nomNow n) (ofWords ws) (s.f (APL.RAMP_RATE_KHZ_PER_MS n)))] ∧
      (t.aplC n).run = (if arm then (s.aplC n).run else some (0, s.now)) ∧
      (arm = false → t.f (APL.STATUS_RAMPING n) = 1)) ∧
  (∀ (p : Port) (n : Fin 8) (k : BitVec 4) (a b d x : Word) (s : State), s.takes p (APL.CMD n) true →
    s.mboxIn p 4 = some [a, b, d, x] → x.toNat < 4 → d ≠ 0 → (s.aplC n).segs.length ≤ 16 →
    ∃ t, exec (.rampLoad p n k) s = .next t ∧ t.f (APL.CODE_CODE n) = 0 ∧ t.w (HOST.MBOX_STAT p) = 0 ∧
      (t.aplC n).segs.getD k.toNat none =
        some ⟨a.toNat + 2 ^ 32 * b.toNat, d.toNat, bitAt x.toNat 1, bitAt x.toNat 0⟩ ∧
      (∀ j, j < 16 → j ≠ k.toNat → (t.aplC n).segs.getD j none = (s.aplC n).segs.getD j none)) ∧
  (∀ (p : Port) (n : Fin 8) (s : State), s.takes p (APL.CMD n) false →
    ∃ t, exec (.rampGo p n) s = .next t ∧
      (∀ i, (s.aplC n).held = some i → (s.aplC n).run = none →
        (t.aplC n).run = some (i + 1, s.now) ∧ (t.aplC n).held = none ∧ t.f (APL.STATUS_RAMPING n) = 1 ∧
          t.f (APL.CODE_CODE n) = 0) ∧
      (∀ l, (s.aplC n).held = none → profileOf (s.aplC n).segs = some l → s.segsValid n (s.nomNow n) l = true →
        (t.aplC n).run = some (0, s.now) ∧ (t.aplC n).runSegs = l ∧ t.f (APL.STATUS_RAMPING n) = 1 ∧ t.f (APL.CODE_CODE n) = 0) ∧
      ((s.aplC n).held = none → profileOf (s.aplC n).segs = none →
        t.apl = s.apl ∧ t.f (APL.CODE_CODE n) = Code.badArgument.num)) ∧
  (∀ (p : Port) (n : Fin 8) (s : State), s.takes p (APL.CMD n) false →
    ∃ t, exec (.rampStop p n) s = .next t ∧ (t.aplC n).run = none ∧ (t.aplC n).held = none ∧ (t.aplC n).segs = [] ∧
      (t.aplC n).nomUhz = s.nomNow n ∧ t.f (APL.STATUS_RAMPING n) = 0 ∧ t.f (APL.CODE_CODE n) = 0 ∧
      ((s.aplC n).run.isSome = true → t.on (APL.EVENT_RAMP_ABORT n) = true)) ∧
  (∀ (p : Port) (n : Fin 8) (s : State), s.takes p (APL.CMD n) false →
    ∃ t, exec (.fetchNom p n) s = .next t ∧ t.mboxHolds p (toWords 2 (s.nomNow n)) ∧ t.f (APL.CODE_CODE n) = 0 ∧ t.apl = s.apl) ∧
  (∀ (n : Fin 8) (l : List Segment) (r : TaskRun) (rs : List TaskRun) (s : State), s.tasksC (taskKey (0x60 + n) 0) = r :: rs →
    (s.aplC n).held = none → profileOf (s.aplC n).segs = some l → s.segsValid n (s.nomNow n) l = true →
    ∃ t, exec (.startRampTask n) s = .next t ∧ t.tasksC (taskKey (0x60 + n) 0) = rs ∧ (t.aplC n).run = some (0, s.now) ∧
      (t.aplC n).runSegs = l ∧ t.f (APL.STATUS_RAMPING n) = 1) ∧
  (∀ (n : Fin 8) (i since : Nat) (g : Segment) (s : State), (s.aplC n).run = some (i, since) → (s.aplC n).runSegs[i]? = some g →
    ∃ t, exec (.rampSegmentEnd n) s = .next t ∧ (t.aplC n).nomUhz = g.endUhz ∧
      (g.last = true → (t.aplC n).run = none ∧ (t.aplC n).held = none ∧ t.f (APL.STATUS_RAMPING n) = 0 ∧
        t.on (APL.EVENT_RAMP_DONE n) = true) ∧
      (g.last = false → g.hold = true → (t.aplC n).run = none ∧ (t.aplC n).held = some i ∧ t.f (APL.STATUS_RAMP_HOLD n) = 1 ∧
        t.on (APL.EVENT_RAMP_HOLD n) = true) ∧
      (g.last = false → g.hold = false → (t.aplC n).run = some (i + 1, since + g.durUs * 2000)))

/-- Outputs (R319, R345, R346, R349, R350, R352, R355, R358, R359): dividers are loaded, fetched and applied; outputs are aligned, hold their idle
level from the end of their period, and start at the sync point; groups; pulse outputs; and the ferry-hold limit.
Rests on choices of the model: log entries 4, 62, 94. -/
def Obligations.Outputs : Prop :=
  (∀ (p : Port) (m : Fin 28) (a b c d : Word) (s : State), s.takes p (OUT.CMD m) false → s.mboxIn p 4 = some [a, b, c, d] →
    b.toNat < 2 ^ 24 → d.toNat < 2 ^ 8 → s.isPulse m = false →
    s.divFits m (c.toNat + 2 ^ 32 * d.toNat) (a.toNat + 2 ^ 32 * b.toNat) = true →
    ∃ t, exec (.divLoad p m) s = .next t ∧
      (t.outC m).newDiv = some (c.toNat + 2 ^ 32 * d.toNat, a.toNat + 2 ^ 32 * b.toNat) ∧ t.f (OUT.STATUS_DIV_PEND m) = 1 ∧
      t.f (OUT.DIVSTAT_CODE m) = 0 ∧ t.w (HOST.MBOX_STAT p) = 0) ∧
  (∀ (p : Port) (m : Fin 28) (s : State), s.takes p (OUT.CMD m) false →
    ∃ t, exec (.fetchDiv p m) s = .next t ∧ t.out = s.out ∧
      t.mboxHolds p (toWords 2 (s.outC m).dfrac ++ toWords 2 (s.outC m).dint)) ∧
  (∀ (m : Fin 28) (d x : Nat) (s : State), (s.outC m).newDiv = some (d, x) → (s.outC m).pendStart = false →
    (s.outC m).pendAlign = false →
    ∃ t, exec (.divApply m) s = .next t ∧ (t.outC m).dint = d ∧ (t.outC m).dfrac = x ∧ (t.outC m).newDiv = none ∧
      (t.outC m).swing = s.f (OUT.CTRL_SWING m) ∧ t.f (OUT.STATUS_DIV_PEND m) = 0 ∧ t.on (OUT.EVENT_DIV_DONE m) = true) ∧
  (∀ (m : Fin 28) (s : State), (s.outC m).running = true → (s.outC m).pendAlign = true →
    ∃ t, exec (.divApply m) s = .next t ∧ (t.outC m).held = true ∧ (t.outC m).newDiv = (s.outC m).newDiv ∧
      (t.outC m).swing = s.f (OUT.CTRL_SWING m) ∧ t.f (OUT.STATUS_RUNNING m) = 0) ∧
  (∀ (m : Fin 28) (s : State), (s.outC m).newDiv = none ∨ (s.outC m).pendStart = true ∨ (s.outC m).pendAlign = true →
    ((s.outC m).running && (s.outC m).pendAlign) = false →
    ∃ t, exec (.divApply m) s = .next t ∧ t.outC m = { s.outC m with swing := s.f (OUT.CTRL_SWING m) } ∧ t.regs = s.regs) ∧
  (∀ (p : Port) (m : Fin 28) (s : State), s.takes p (OUT.CMD m) false →
    ∃ t, exec (.outAlign p m) s = .next t ∧
      (s.isPulse m = true → (t.outC m).pulse = (s.tscC (s.f (OUT.CFG_ANCHOR m))).val ∧
        (t.outC m).offPs = s.fi (OUT.OFFSET_PS m) ∧ (t.outC m).perNs = s.f (OUT.PERIOD_NS m) ∧ t.f (OUT.STATUS_ALIGNED m) = 1) ∧
      (s.isPulse m = false → s.on (OUT.CTRL_EN m) = true → (t.outC m).pendAlign = true ∧ t.f (OUT.STATUS_ALIGN_PEND m) = 1) ∧
      (s.isPulse m = false → s.on (OUT.CTRL_EN m) = false → t.out = s.out ∧ t.regs = s.regs)) ∧
  (∀ (m : Fin 28) (r : TaskRun) (rs : List TaskRun) (s : State), s.tasksC (taskKey (0x68 + m) 0) = r :: rs →
    ∃ t, exec (.realignOutputTask m) s = .next t ∧ t.tasksC (taskKey (0x68 + m) 0) = rs ∧
      (s.isPulse m = true → (t.outC m).pulse = (s.tscC (s.f (OUT.CFG_ANCHOR m))).val ∧ t.f (OUT.STATUS_ALIGNED m) = 1) ∧
      (s.isPulse m = false → s.on (OUT.CTRL_EN m) = true → (t.outC m).pendAlign = true ∧ t.f (OUT.STATUS_ALIGN_PEND m) = 1)) ∧
  (∀ (n : Fin 8) (s : State),
    ∃ t, exec (.syncPoint n) s = .next t ∧
      ∀ m, m ∈ s.outsOf n → m < 28 → s.isPulse m = false → ((s.outC m).pendStart = true ∨ (s.outC m).pendAlign = true) →
        ((s.outC m).pendStart = true → s.waitsForLock m = false) →
        (t.outC m).running = true ∧ (t.outC m).pendStart = false ∧ (t.outC m).pendAlign = false ∧
          (t.outC m).phaseInForce = s.f (OUT.PHASE_DELAY m) ∧ (t.outC m).swing = s.f (OUT.CTRL_SWING m) ∧
          t.f (OUT.STATUS_ALIGN_PEND m) = 0) ∧
  (∀ (p : Port) (n : Fin 8) (mask : BitVec 28) (s : State), s.takes p (APL.GROUP n) false →
    s.groupCheck p n (2 ^ 30 + mask.toNat) = .ok →
    ∃ t, exec (.groupEnable p n mask) s = .next t ∧ t.w (APL.GROUP n) = 2 ^ 30 + mask.toNat ∧
      ∀ m, m < 28 → t.on (OUT.CTRL_EN m) = (bitAt mask.toNat m || s.on (OUT.CTRL_EN m))) ∧
  (∀ (p : Port) (n : Fin 8) (mask : BitVec 28) (s : State), s.takes p (APL.GROUP n) false →
    s.groupCheck p n (2 * 2 ^ 30 + mask.toNat) = .ok →
    ∃ t, exec (.groupRealign p n mask) s = .next t ∧ t.w (APL.GROUP n) = 2 * 2 ^ 30 + mask.toNat ∧
      ∀ m, m < 28 → bitAt mask.toNat m = true → s.isPulse m = false → s.on (OUT.CTRL_EN m) = true → (t.outC m).pendAlign = true) ∧
  (∀ (p : Port) (n : Fin 8) (mask : BitVec 28) (s : State), s.takes p (APL.GROUP n) false →
    s.groupCheck p n (3 * 2 ^ 30 + mask.toNat) = .ok →
    ∃ t, exec (.groupDisable p n mask) s = .next t ∧ t.w (APL.GROUP n) = 3 * 2 ^ 30 + mask.toNat ∧
      (∀ m, m < 28 → t.on (OUT.CTRL_EN m) = (!bitAt mask.toNat m && s.on (OUT.CTRL_EN m))) ∧
      ∀ m, m < 28 → bitAt mask.toNat m = true → (t.outC m).running = false ∧ (t.outC m).pendStart = false) ∧
  (∀ (m : Fin 28) (s : State), s.isPulse m = true → s.on (OUT.STATUS_RUNNING m) = true →
    ((s.outC m).edgesFrom : Int) ≤ (s.outC m).pulse → (s.outC m).onGrid = true →
    ∃ t, exec (.pulseLeadingEdge m) s = .next t ∧ (t.outC m).widNs = s.f (OUT.WIDTH_NS m) ∧
      (t.outC m).swing = s.f (OUT.CTRL_SWING m) ∧
      (t.outC m).highUntil = s.now + if s.f (OUT.WIDTH_NS m) = 0 then (s.outC m).perNs else 2 * s.f (OUT.WIDTH_NS m)) ∧
  (∀ (m : Fin 28) (s : State), s.landed = true → s.isPulse m = true →
    ∃ t, exec (.pdiffCheck m) s = .next t ∧ t.out = s.out ∧
      t.on (OUT.STATUS_MISALIGNED m) = decide (s.f (OUT.ALIGN_TOL_PS m) * 2 ^ 56 <
        ((s.tscC (s.f (OUT.CFG_ANCHOR m))).val - (s.outC m).pulse).natAbs * 1000)) ∧
  (∀ (i : Image) (s : State), s.fab.img = some i → s.eng.ferry = true → s.eng.limitHit = false →
    s.eng.ferryFrom + i.ferryS * 2000000000 ≤ s.now →
    ∃ t, exec .ferryLimitExpiry s = .next t ∧ t.eng.limitHit = true ∧
      ∀ r ∈ i.outputs, r.number < 28 → r.squelch ≠ 2 → s.on (OUT.CTRL_EN r.number) = true →
        (t.outC r.number).sqFerry = true ∧ t.f (OUT.STATUS_SQ_LIMIT r.number) = 1 ∧ t.f (OUT.STATUS_RUNNING r.number) = 0 ∧
          (t.outC r.number).drive = s.restDrive r.number)

/-- SET_INC of a host sooner than 1 ms after the last accepted one completes with BUSY and has no effect; while a loop is tied to the time
scale, SET_INC, SCHEDULE and CANCEL_SCHED complete with LOCKED (R373). -/
def Obligations.SetIncrementIsPaced : Prop :=
  (∀ (p : Port) (n : Fin 8) (a b : Word) (y : Int) (t0 : Nat) (s : State), s.takes p (TSC.CMD n) false →
    s.on (TSC.STATUS_BUSY n) = false → s.on (TSC.CFG_TIED n) = false → s.mboxIn p 2 = some [a, b] → incOf a b = some y →
    (s.tscC n).lastInc = some t0 → s.now < t0 + 2000000 →
    ∃ t, exec (.setInc p n) s = .next t ∧ t.f (TSC.CODE_CODE n) = Code.busy.num ∧ t.tsc = s.tsc ∧ t.nv = s.nv ∧
      t.f (TSC.INC32_Y n) = s.f (TSC.INC32_Y n) ∧ t.w (HOST.MBOX_STAT p) = s.w (HOST.MBOX_STAT p)) ∧
  (∀ (p : Port) (n : Fin 8) (s : State), s.takes p (TSC.CMD n) false → s.on (TSC.STATUS_BUSY n) = false →
    s.on (TSC.CFG_TIED n) = true →
    ∃ t, exec (.setInc p n) s = .next t ∧ t.f (TSC.CODE_CODE n) = Code.locked.num ∧ t.tsc = s.tsc) ∧
  (∀ (p : Port) (n : Fin 8) (s : State), s.takes p (TSC.CMD n) true → s.on (TSC.STATUS_BUSY n) = false →
    s.on (TSC.CFG_TIED n) = true →
    (∃ t, exec (.schedule p n) s = .next t ∧ t.f (TSC.CODE_CODE n) = Code.locked.num ∧ t.tsc = s.tsc) ∧
      ∃ t, exec (.cancelSched p n) s = .next t ∧ t.f (TSC.CODE_CODE n) = Code.locked.num ∧ t.tsc = s.tsc)

/-- The commands of a time scale (R371, R372, R374 to R380): what each puts in force when the jump limit and the guard let it pass, and a SET_INC
beyond the limit is refused and counted.
Rests on choices of the model: log entries 29, 56, 65. -/
def Obligations.TimeScaleCommands : Prop :=
  (∀ (p : Port) (n : Fin 8) (a b : Word) (y : Int) (s : State), s.takes p (TSC.CMD n) false → s.on (TSC.STATUS_BUSY n) = false →
    s.on (TSC.CFG_TIED n) = false → s.mboxIn p 2 = some [a, b] → incOf a b = some y →
    (∀ t0, (s.tscC n).lastInc = some t0 → t0 + 2000000 ≤ s.now) →
    ∃ t, exec (.setInc p n) s = .next t ∧
      ((y - (s.tscC n).y).natAbs * 1000000000 ≤ (s.tscC n).thresh * 2 ^ 56 →
        (t.tscC n).y = y ∧ (t.tscC n).lastInc = some s.now ∧ t.f (TSC.CODE_CODE n) = 0 ∧ t.w (HOST.MBOX_STAT p) = 0) ∧
      ((s.tscC n).thresh * 2 ^ 56 < (y - (s.tscC n).y).natAbs * 1000000000 →
        t.tsc = s.tsc ∧ t.f (TSC.CODE_CODE n) = Code.refusedThreshold.num ∧ t.on (TSC.EVENT_REFUSED n) = true ∧
          t.f (TSC.REFUSALS_COUNT n) = min (s.f (TSC.REFUSALS_COUNT n) + 1) (2 ^ (TSC.REFUSALS_COUNT n).width - 1) ∧
          t.f (TSC.REFUSALS_SOURCE n) = (hostSource p).num)) ∧
  (∀ (p : Port) (n : Fin 8) (a b c : Word) (s : State), s.takes p (TSC.CMD n) false → s.on (TSC.STATUS_BUSY n) = false →
    s.mboxIn p 3 = some [a, b, c] → s.guarded n ((s.tscC n).val + ((s.tscC n).rem + amountOf a b c * 2 ^ 24)) = false →
    ((s.tscC n).rem + amountOf a b c * 2 ^ 24).natAbs ≤ s.limit n * 2 ^ 24 →
    ∃ t, exec (.adjust p n) s = .next t ∧ (t.tscC n).rem = (s.tscC n).rem + amountOf a b c * 2 ^ 24 ∧
      (t.tscC n).val = (s.tscC n).val ∧ t.on (TSC.STATUS_ADJUSTING n) = ((t.tscC n).rem != 0) ∧ t.f (TSC.CODE_CODE n) = 0 ∧
      t.w (HOST.MBOX_STAT p) = 0) ∧
  (∀ (p : Port) (n : Fin 8) (a b c : Word) (s : State), s.takes p (TSC.CMD n) false → s.on (TSC.STATUS_BUSY n) = false →
    s.mboxIn p 3 = some [a, b, c] → s.guarded n ((s.tscC n).val + amountOf a b c * 2 ^ 24) = false →
    (amountOf a b c).natAbs ≤ s.limit n →
    ∃ t, exec (.tscStep p n) s = .next t ∧ (t.tscC n).val = max 0 ((s.tscC n).val + amountOf a b c * 2 ^ 24) ∧
      (t.tscC n).steppedAt = some s.now ∧ t.on (TSC.EVENT_STEPPED n) = true ∧ t.f (TSC.CODE_CODE n) = 0 ∧
      t.w (HOST.MBOX_STAT p) = 0) ∧
  (∀ (p : Port) (n : Fin 8) (a b c : Word) (tk : List Word) (s : State), s.takes p (TSC.CMD n) false →
    s.on (TSC.STATUS_BUSY n) = false → s.mboxAll p = some (a :: b :: c :: tk) →
    ∃ t, exec (.stepTicket p n) s = .next t ∧ t.f (TSC.STATUS_BUSY n) = 1 ∧
      (t.tscC n).ticket = some ⟨amountOf a b c, p, tk, if s.on (TSC.STATUS_SET n) = true then (s.tscC n).sec else (s.tscC n).floor,
        s.sec.taKey⟩ ∧ t.sec.verify = s.sec.verify ++ [.ticket n] ∧
      (t.tscC n).val = (s.tscC n).val) ∧
  (∀ (p : Port) (n : Fin 8) (a b c d : Word) (v : Nat) (s : State), s.takes p (TSC.CMD n) false →
    s.on (TSC.STATUS_BUSY n) = false → s.on (TSC.STATUS_SET n) = false → s.mboxIn p 4 = some [a, b, c, d] →
    valueOf a b c d = some v → (s.tscC n).floor ≤ v / (1000000000 * 2 ^ 56) →
    ∃ t, exec (.setTime p n) s = .next t ∧ t.f (TSC.STATUS_SET n) = 1 ∧
      (t.tscC n).val = (v : Int) + (s.tscC n).val % 2 ^ 24 ∧ t.f (TSC.CODE_CODE n) = 0 ∧
      t.w (HOST.MBOX_STAT p) = 0) ∧
  (∀ (p : Port) (n : Fin 8) (a b c d e f : Word) (y : Int) (v : Nat) (s : State), s.takes p (TSC.CMD n) true →
    s.on (TSC.STATUS_BUSY n) = false → s.on (TSC.CFG_TIED n) = false → s.mboxIn p 6 = some [a, b, c, d, e, f] →
    incOf a b = some y → valueOf c d e f = some v → (v = 0 ∨ (s.tscC n).val ≤ v) →
    ∃ t, exec (.schedule p n) s = .next t ∧ t.f (TSC.STATUS_SCHED_PEND n) = 1 ∧ t.f (TSC.CODE_CODE n) = 0 ∧
      (t.tscC n).sched = some (y, if v = 0 then none else some (v / (1000000000 * 2 ^ 56), v % (1000000000 * 2 ^ 56))) ∧
      t.w (HOST.MBOX_STAT p) = 0) ∧
  (∀ (p : Port) (n : Fin 8) (s : State), s.takes p (TSC.CMD n) true → s.on (TSC.STATUS_BUSY n) = false →
    s.on (TSC.CFG_TIED n) = false →
    ∃ t, exec (.cancelSched p n) s = .next t ∧ (t.tscC n).sched = none ∧ t.f (TSC.STATUS_SCHED_PEND n) = 0 ∧
      t.f (TSC.CODE_CODE n) = 0) ∧
  (∀ (p : Port) (n : Fin 8) (s : State), s.takes p (TSC.CMD n) false → s.on (TSC.STATUS_BUSY n) = false →
    ∃ t, exec (.snap p n) s = .next t ∧ t.tsc = s.tsc ∧ t.f (TSC.CODE_CODE n) = 0 ∧
      t.mboxHolds p ([BitVec.ofNat 32 (s.tscC n).frac, BitVec.ofNat 32 (s.tscC n).ns] ++ toWords 2 (s.tscC n).sec ++
        [BitVec.ofNat 32 (s.w (TSC.STATUS n) % 32)])) ∧
  (∀ (p : Port) (n : Fin 8) (ws : List Word) (s : State), s.takes p (TSC.CMD n) false → s.on (TSC.STATUS_BUSY n) = false →
    s.mboxIn p 2 = some ws →
    ∃ t, exec (.setThresh p n) s = .next t ∧
      (ofWords ws ≠ 0 → ofWords ws ≤ (s.tscC n).imageThresh → (t.tscC n).thresh = ofWords ws ∧ t.f (TSC.CODE_CODE n) = 0 ∧
        t.w (HOST.MBOX_STAT p) = 0) ∧
      ((ofWords ws = 0 ∨ (s.tscC n).imageThresh < ofWords ws) → t.tsc = s.tsc ∧ t.f (TSC.CODE_CODE n) = Code.badArgument.num))

/-- What the time scales' own course brings (R367, R374, R376, R379, R386, R387, R391, R566 to R568): the verdict on a step ticket, when its turn has
come at the verify unit, the rollover of a second, the end of an adjustment, a scheduled increment, the message of a time-of-day line, or its
overrun where it cannot end in time, and software events.
Rests on choices of the model: log entries 5, 28, 65, 66, 96. -/
def Obligations.TimeScaleEvents : Prop :=
  (∀ (n : Fin 8) (j : TicketJob) (s : State), (s.tscC n).ticket = some j → s.verifyTurn (.ticket n) = true →
    .request ∉ s.sec.verify → s.ticketReason n j ≠ 0 → s.flt.injCheck = false →
    s.reaction 3 0x13 < 8 →
    ∃ t, exec (.ticketVerified n) s = .next t ∧ (t.tscC n).ticket = none ∧ t.f (TSC.STATUS_BUSY n) = 0 ∧
      t.f (TSC.CODE_CODE n) = Code.badTicket.num ∧ (t.tscC n).val = (s.tscC n).val ∧
      t.f SEC.TICKET_WHY_REASON = s.ticketReason n j ∧ t.on SEC.EVENT_TICKET_REJECT = true) ∧
  (∀ (n : Fin 8) (j : TicketJob) (s : State), (s.tscC n).ticket = some j → s.verifyTurn (.ticket n) = true →
    .request ∉ s.sec.verify → s.ticketReason n j = 0 →
    ∃ t, exec (.ticketVerified n) s = .next t ∧ (t.tscC n).ticket = none ∧ t.f (TSC.STATUS_BUSY n) = 0 ∧
      t.f (TSC.CODE_CODE n) = 0 ∧ (t.tscC n).val = max 0 ((s.tscC n).val + j.amount * 2 ^ 24) ∧ t.f (TSC.STATUS_SET n) = 1 ∧
      t.ticketSerial = beAt (wordsBe j.words) 0x18 8 ∧ t.w (HOST.MBOX_STAT j.port) = 0) ∧
  (∀ (n : Fin 8) (s : State), s.verifyTurn (.ticket n) = false → exec (.ticketVerified n) s = .next s) ∧
  (∀ (n : Fin 8) (s : State), s.tscBuilt n = true → 1000000000 * 2 ^ 56 ≤ (s.tscC n).sub →
    ∃ t, exec (.secondRollover n) s = .next t ∧ (t.tscC n).sec = (s.tscC n).sec + 1 ∧
      (t.tscC n).sub = (s.tscC n).sub - 1000000000 * 2 ^ 56 ∧ (t.tscC n).y = (s.tscC n).y ∧ t.on (TSC.EVENT_SECOND n) = true) ∧
  (∀ (n : Fin 8) (s : State), s.on (TSC.STATUS_ADJUSTING n) = true → (s.tscC n).rem = 0 →
    ∃ t, exec (.adjustComplete n) s = .next t ∧ t.tsc = s.tsc ∧ t.f (TSC.STATUS_ADJUSTING n) = 0 ∧
      t.on (TSC.EVENT_ADJ_DONE n) = true) ∧
  (∀ (n : Fin 8) (y : Int) (sec sub : Nat) (s : State), (s.tscC n).sched = some (y, some (sec, sub)) →
    ((sec * 1000000000 * 2 ^ 56 + sub : Nat) : Int) ≤ (s.tscC n).val →
    (y - (s.tscC n).y).natAbs * 1000000000 ≤ (s.tscC n).thresh * 2 ^ 56 →
    ∃ t, exec (.scheduledIncrementDue n) s = .next t ∧ (t.tscC n).y = y ∧ (t.tscC n).sched = none ∧
      t.f (TSC.STATUS_SCHED_PEND n) = 0 ∧ t.on (TSC.EVENT_SCHED_DONE n) = true) ∧
  (∀ (n : Fin 8) (y : Int) (v : Nat × Nat) (r : TaskRun) (rs : List TaskRun) (s : State),
    s.tasksC (taskKey (0x88 + n) 0) = r :: rs → (s.tscC n).sched = some (y, some v) →
    ∃ t, exec (.applySchedTask n) s = .next t ∧ t.tasksC (taskKey (0x88 + n) 0) = rs ∧ t.tscC n = s.tscC n) ∧
  (∀ (n : Fin 8) (y : Int) (r : TaskRun) (rs : List TaskRun) (s : State),
    s.tasksC (taskKey (0x88 + n) 0) = r :: rs → (s.tscC n).sched = some (y, none) →
    (y - (s.tscC n).y).natAbs * 1000000000 ≤ (s.tscC n).thresh * 2 ^ 56 →
    ∃ t, exec (.applySchedTask n) s = .next t ∧ (t.tscC n).y = y ∧ (t.tscC n).sched = none ∧
      t.f (TSC.STATUS_SCHED_PEND n) = 0 ∧ t.on (TSC.EVENT_SCHED_DONE n) = true) ∧
  (∀ (k : Fin 2) (r : TodoutRec) (s : State), s.todRec k = some r → s.landed = true → (s.todC k).due = true →
    (s.todC k).window s.now = true → s.on (TSC.TODOUT_CTRL_EN r.tsc k) = true →
    (r.format ≠ 1 ∨ (s.on (TSC.STATUS_SET r.tsc) = true ∧ s.on (TSC.TOD_CFG_UTC_VALID r.tsc) = true)) →
    let m := if r.format = 1 then s.zda r.tsc else s.ownTod r.tsc k
    ∃ t, exec (.todoutMessage k) s = .next t ∧
      (s.todFits r m.length = true → t.todC k = { s.todC k with due := false, last := m, sentAt := s.now } ∧
        t.f (TSC.TODOUT_STAT_SENT r.tsc k) =
          (s.f (TSC.TODOUT_STAT_SENT r.tsc k) + 1) % 2 ^ (TSC.TODOUT_STAT_SENT r.tsc k).width) ∧
      (s.todFits r m.length = false → t.todC k = { s.todC k with due := false } ∧ t.on (TSC.EVENT_TOD_OVERRUN r.tsc) = true ∧
        t.f (TSC.TODOUT_STAT_OVERRUN r.tsc k) =
          min (s.f (TSC.TODOUT_STAT_OVERRUN r.tsc k) + 1) (2 ^ (TSC.TODOUT_STAT_OVERRUN r.tsc k).width - 1))) ∧
  (∀ (p : Port) (k : Fin 16) (s : State), s.takes p EVR.SWEVT false →
    ∃ t, exec (.swevt p (BitVec.ofNat 16 (2 ^ k.val))) s = .next t ∧
      (s.routesOf (0x300 + k) = [] → t.on EVR.EVENT_SWEVT_MISS = true ∧ t.tasks = s.tasks) ∧
      (∀ r, s.routesOf (0x300 + k) = [r] → s.on (EVR.ROUTE_DST_BERTH r) = false →
        s.tasksC (taskKey (s.f (EVR.ROUTE_DST_BLOCK r)) (s.f (EVR.ROUTE_DST_TASK r))) = [] →
        t.tasksC (taskKey (s.f (EVR.ROUTE_DST_BLOCK r)) (s.f (EVR.ROUTE_DST_TASK r))) = [plainRun (0x300 + k)]))

/-! Ports and PTP engines. -/

/-- The link of a port (R404 to R407, R409, R418, R435): the steps of a link return, with warm or cold adaptation; the link comes up, or only its
lock does; it settles, and goes down with what it loses, and a frame that is cut off counts; the hold of general frames ends; preemption
verification.
Rests on choices of the model: log entries 3, 30, 63, 90. -/
def Obligations.PortLink : Prop :=
  (∀ (n : Fin 8) (s : State), s.prtLive n = true → (s.on (PRT.STATUS_DORMANT n) = false ∨ n.val < 2) →
    ((s.prtC n).signal = false →
      ∃ t, exec (.linkSignalDetect ⟨n, .signal⟩) s = .next t ∧ (t.prtC n).signal = true ∧
        t.f (PRT.STATUS_EQ n) = (if s.eqHeld n = true then 5 else 1) ∧
        ((t.prtC n).warm = true ↔
          (∃ t0, (s.prtC n).lostAt = some t0 ∧ s.now ≤ t0 + 2000000000) ∧ s.on (PRT.CTRL_EQ_COLD n) = false)) ∧
    ((s.prtC n).signal = true → s.f (PRT.STATUS_EQ n) = 1 →
      ∃ t, exec (.linkSignalDetect ⟨n, .cdrLock⟩) s = .next t ∧
        t.f (PRT.STATUS_EQ n) = (if s.eqHeld n = true then 5 else if (s.prtC n).warm = true then 3 else 2)) ∧
    ((s.prtC n).signal = true → (s.f (PRT.STATUS_EQ n) = 2 ∨ s.f (PRT.STATUS_EQ n) = 3) →
      ∃ t, exec (.linkSignalDetect ⟨n, .tracking⟩) s = .next t ∧
        t.f (PRT.STATUS_EQ n) = (if s.eqHeld n = true then 5 else 4))) ∧
  (∀ (n : Fin 8) (s : State), s.prtLive n = true → s.on (PRT.CTRL_ADMIN n) = true → s.on (PRT.STATUS_DORMANT n) = false →
    s.on (PRT.STATUS_LINK n) = false → (s.prtC n).signal = true →
    ∃ t, exec (.linkUp n) s = .next t ∧ t.f (PRT.STATUS_LINK n) = 1 ∧ t.f (PRT.STATUS_BLOCK_LOCK n) = 1 ∧
      t.f (PRT.STATUS_SETTLING n) = 1 ∧ (t.prtC n).holding = false ∧ t.on (PRT.EVENT_LINK_UP n) = true) ∧
  (∀ (n : Fin 8) (s : State), s.prtLive n = true → s.on (PRT.STATUS_LINK n) = false → (s.prtC n).signal = true →
    (s.on (PRT.STATUS_DORMANT n) = true → n.val < 2) → (s.on (PRT.CTRL_ADMIN n) = false ∨ s.on (PRT.STATUS_DORMANT n) = true) →
    ∃ t, exec (.linkUp n) s = .next t ∧ t.f (PRT.STATUS_LINK n) = 0 ∧ t.f (PRT.STATUS_BLOCK_LOCK n) = 1) ∧
  (∀ (n : Fin 8) (s : State), s.on (PRT.STATUS_LINK n) = true → (s.prtC n).settleAt + msT ≤ s.now → 16 ≤ (s.prtC n).settleFrames →
    ∃ t, exec (.linkSettled n) s = .next t ∧ t.f (PRT.STATUS_SETTLING n) = 0 ∧ (t.lndC (20 + n)).linkSettle = false) ∧
  (∀ (n : Fin 8) (cut : Bool) (s : State), s.numbered = true → s.prtLive n = true → (s.prtC n).signal = true →
    ∃ t, exec (.linkDown n ⟨.signal, cut⟩) s = .next t ∧ (t.prtC n).signal = false ∧ (t.prtC n).lostAt = some s.now ∧
      t.f (PRT.STATUS_LINK n) = 0 ∧ (s.on (PRT.STATUS_LINK n) = true → t.on (PRT.EVENT_LINK_DOWN n) = true ∧
        (cut = true → (t.prtC n).stat 7 = min ((s.prtC n).stat 7 + 1) (2 ^ 32 - 1)))) ∧
  (∀ (n : Fin 8) (cut : Bool) (s : State), s.numbered = true → s.prtLive n = true → (s.prtC n).signal = true →
    s.on (PRT.STATUS_BLOCK_LOCK n) = true → s.on (PRT.STATUS_LINK n) = true →
    ∃ t, exec (.linkDown n ⟨.highBer, cut⟩) s = .next t ∧ t.f (PRT.STATUS_LINK n) = 0 ∧ t.f (PRT.STATUS_HI_BER n) = 1 ∧
      t.on (PRT.EVENT_HI_BER n) = true ∧ t.on (LND.STATUS_ACTIVE (20 + n)) = false) ∧
  (∀ (n : Fin 8) (s : State), (s.prtC n).holding = true → s.on (PRT.STATUS_LINK n) = false →
    (s.prtC n).downAt + s.f (PRT.CTRL_HOLD_MS n) * msT ≤ s.now →
    ∃ t, exec (.linkHoldExpiry n) s = .next t ∧ (t.prtC n).holding = false ∧
      (t.prtC n).queued = (s.prtC n).queued.filter TxFrame.isEvent ∧ t.regs = s.regs) ∧
  (∀ (n : Fin 8) (ok : Bool) (s : State), s.prtLive n = true → s.on (PRT.STATUS_LINK n) = true →
    s.on (PRT.CTRL_PREEMPT_EN n) = true →
    ∃ t, exec (.preemptVerifyDone n ok) s = .next t ∧ t.on (PRT.STATUS_PREEMPT n) = ok ∧
      t.on (if ok then PRT.EVENT_PREEMPT_ON n else PRT.EVENT_PREEMPT_OFF n) = true) ∧
  (∀ (n : Fin 8) (s : State), s.prtLive n = true → s.f (PRT.STATUS_EQ n) = 4 →
    ∃ t, exec (.eqLimitReached n) s = .next t ∧ t.on (PRT.EVENT_EQ_LIMIT n) = true)

/-- Frames at a port (R202 to R204, R421, R424, R428, R429, R431, R432): a host frame enters the receive buffer with its stamp; an ESMC PDU gives its
rank to the entries of the port; PAUSE halts and releases transmission; the port's own PAUSE and ESMC frames.
Rests on choices of the model: log entries 22, 23, 31. -/
def Obligations.PortFrames : Prop :=
  (∀ (n : Fin 8) (f : RxFrame) (s : State), s.hears n f → (frameType f.bytes).1 ≠ 0x8808 → s.accepts n f.bytes = true →
    beAt f.bytes 0 6 ≠ 0x0180C2000002 → isPtpFrame f.bytes = false →
    (s.prtC n).rxUsed + f.bytes.length ≤ s.f (PRT.CFG_BUFS n) * 262144 →
    ∃ t, exec (.frameReceived n f) s = .next t ∧ (t.prtC n).rx = (s.prtC n).rx ++ [⟨s.rxStamp n f.cap, f.bytes⟩] ∧
      ((s.prtC n).rx = [] → t.on (PRT.EVENT_RX_FRAME n) = true)) ∧
  (∀ (n : Fin 8) (f : RxFrame) (ssm e c : Nat) (essm : Option Nat) (s : State), s.hears n f → esmcOf f.bytes = some (ssm, essm, e, c) →
    ∃ t, exec (.esmcPduReceived n f) s = .next t ∧
      ∀ i k, (i, k) ∈ s.entriesOf (20 + n) → i < 16 →
        (s.f (SEL.CAND_CFG_SOURCE i k) = 1 → (t.entC (entKey i k)).rank = rankOf 1 ssm essm) ∧
        (s.f (SEL.CAND_CFG_SOURCE i k) = 2 → (t.entC (entKey i k)).rank = rankOf 2 ssm essm)) ∧
  (∀ (n : Fin 8) (f : RxFrame) (s : State), s.hears n f → (frameType f.bytes).1 = 0x8808 →
    beAt f.bytes 0 6 = 0x0180C2000001 → beAt f.bytes 14 2 = 1 → s.on (PRT.PAUSE_RX_EN n) = true → (s.prtC n).ignoreTo ≤ s.now →
    ∃ t, exec (.pauseReceived n f) s = .next t ∧ t.f (PRT.STATUS_PAUSED n) = (if beAt f.bytes 16 2 = 0 then 0 else 1)) ∧
  (∀ (n : Fin 8) (s : State), s.on (PRT.STATUS_PAUSED n) = true → (s.prtC n).pauseEnd ≤ s.now →
    ∃ t, exec (.pauseQuantaExpiry n) s = .next t ∧ t.f (PRT.STATUS_PAUSED n) = 0) ∧
  (∀ (n : Fin 8) (s : State), s.on (PRT.STATUS_PAUSING n) = true → s.on (PRT.PAUSE_TX_EN n) = true →
    s.f (PRT.WMARK_LOW n) * 1024 < (s.prtC n).rxUsed → s.on (PRT.STATUS_LINK n) = true →
    (s.prtC n).pauseSentAt + quantaT (s.f (PRT.CFG_MODE n)) (s.f (PRT.PAUSE_QUANTA n)) / 2 ≤ s.now →
    ∃ t, exec (.pauseRepeat n) s = .next t ∧ (t.prtC n).stat 13 = min ((s.prtC n).stat 13 + 1) (2 ^ 32 - 1) ∧
      t.on (PRT.STATUS_PAUSING n) = (s.f (PRT.PAUSE_QUANTA n) != 0)) ∧
  (∀ (n : Fin 8) (s : State), s.prtLive n = true → s.on (PRT.ESMC_TX_EN n) = true → (s.prtC n).infoDue s.now = true →
    s.on (PRT.STATUS_DORMANT n) = false → s.mayLeave n none →
    ∃ t, exec (.esmcInfoTx n) s = .next t ∧ (t.prtC n).esmcRank = s.esmcTxRank n ∧ (t.prtC n).infoAt = some s.now ∧
      ∃ b, t.leaves3 s n ⟨.raw b, .none⟩ ∧ (esmcOf b).map Prod.fst = some (ssmOf (s.f (PRT.ESMC_OPT n)) (s.esmcTxRank n)).1)

/-- The watchdog of received PAUSE (R430): the port resumes transmission, counts, and sets PAUSE_WD; it then ignores received PAUSE for the same
time again. -/
def Obligations.PauseWatchdog : Prop :=
  (∀ (n : Fin 8) (s : State), s.on (PRT.STATUS_PAUSED n) = true → (s.prtC n).pausedAt + s.f (PRT.PAUSE_WD_US n) * 2000 ≤ s.now →
    ∃ t, exec (.pauseWatchdogExpiry n) s = .next t ∧ t.f (PRT.STATUS_PAUSED n) = 0 ∧
      (t.prtC n).stat 14 = min ((s.prtC n).stat 14 + 1) (2 ^ 32 - 1) ∧ t.on (PRT.EVENT_PAUSE_WD n) = true ∧
      (t.prtC n).ignoreTo = s.now + s.f (PRT.PAUSE_WD_US n) * 2000) ∧
  (∀ (n : Fin 8) (f : RxFrame) (s : State), s.hears n f → (frameType f.bytes).1 = 0x8808 →
    beAt f.bytes 0 6 = 0x0180C2000001 → beAt f.bytes 14 2 = 1 → s.now < (s.prtC n).ignoreTo →
    ∃ t, exec (.pauseReceived n f) s = .next t ∧ t.f (PRT.STATUS_PAUSED n) = s.f (PRT.STATUS_PAUSED n) ∧
      (t.prtC n).pauseEnd = (s.prtC n).pauseEnd)

/-- The queues, counters and commands of a port (R414, R417, R419, R422, R427, R438): a host's event frame leaves with its stamp in the time-stamp
queue, TSQ_POP takes the oldest; the statistics record; a wake pattern; and the loopback calibration.
Rests on choices of the model: log entries 4, 22. -/
def Obligations.PortQueues : Prop :=
  (∀ (n : Fin 8) (cap : StampCap) (full : Bool) (q id : Nat) (f : TxFrame) (rest : List TxFrame) (s : State), s.canSend n = true →
    (s.prtC n).firstQueue = some q → (s.prtC n).queue q = f :: rest → f.owner = .host id → (s.prtC n).tsq.length < 64 →
    ∃ t, exec (.txStampDelivery n ⟨cap, full⟩) s = .next t ∧
      (t.prtC n).tsq = (s.prtC n).tsq ++ [⟨(s.prtC n).tsqLost, id, some (s.txStamp n (if full then { cap with ok := false } else cap))⟩] ∧
      t.ctxUsed n = s.ctxUsed n - 1) ∧
  (∀ (p : Port) (n : Fin 8) (s : State), s.takes p (PRT.CMD n) false →
    ∃ t, exec (.tsqPop p n) s = .next t ∧ t.f (PRT.CMD_CODE_CODE n) = 0 ∧
      ((s.prtC n).tsq = [] → t.mboxHolds p [0xF8000000, 0, 0, 0, 0] ∧ t.prt = s.prt) ∧
      (∀ e es, (s.prtC n).tsq = e :: es → t.mboxHolds p e.words ∧ (t.prtC n).tsq = es)) ∧
  (∀ (p : Port) (n : Fin 8) (s : State), s.takes p (PRT.CMD n) false →
    ∃ t, exec (.fetchStats p n) s = .next t ∧ t.f (PRT.CMD_CODE_CODE n) = 0 ∧ t.mboxHolds p (s.prtC n).statWords ∧
      (t.prtC n).stat 0 = ((s.prtC n).stat 0 + 1) % 2 ^ 32 ∧ ∀ i, 1 ≤ i → i < 26 → (t.prtC n).stat i = 0) ∧
  (∀ (p : Port) (n : Fin 8) (s : State), s.takes p (PRT.CMD n) false →
    ∃ t, exec (.peekStats p n) s = .next t ∧ t.f (PRT.CMD_CODE_CODE n) = 0 ∧ t.mboxHolds p (s.prtC n).statWords ∧
      (t.prtC n).stat 0 = ((s.prtC n).stat 0 + 1) % 2 ^ 32 ∧ ∀ i, 1 ≤ i → i < 26 → (t.prtC n).stat i = (s.prtC n).stat i) ∧
  (∀ (p : Port) (n : Fin 8) (ws : List Word) (s : State), s.takes p (PRT.CMD n) false → s.mboxIn p 5 = some ws →
    ∃ t, exec (.wakeLoad p n) s = .next t ∧
      (n.val < 2 → (t.prtC n).wake.head? = some (s.f (PRT.WAKE_CTRL_SLOT n), ws) ∧ t.f (PRT.CMD_CODE_CODE n) = 0 ∧
        t.w (HOST.MBOX_STAT p) = 0) ∧
      (2 ≤ n.val → t.prt = s.prt ∧ t.f (PRT.CMD_CODE_CODE n) = Code.badArgument.num)) ∧
  (∀ (p : Port) (n : Fin 8) (s : State), s.takes p (PRT.CMD n) false →
    ∃ t, exec (.prtLoopcal p n) s = .next t ∧
      (s.on (PRT.CTRL_ADMIN n) = true → t.f (PRT.CMD_CODE_CODE n) = Code.locked.num ∧ t.prt = s.prt) ∧
      (s.on (PRT.CTRL_ADMIN n) = false → (t.prtC n).loopcal = true ∧ t.regs = s.regs)) ∧
  (∀ (n : Fin 8) (diff : Int) (s : State), (s.prtC n).loopcal = true →
    ∃ t, exec (.prtLoopcalDone n diff) s = .next t ∧ (t.prtC n).loopcal = false ∧ t.f (PRT.CMD_CODE_CODE n) = 0 ∧
      t.fi (PRT.LOOPCAL_DIFF n) = satSigned (PRT.LOOPCAL_DIFF n).width diff ∧
      t.f (PRT.TS_RX_PS n) = ((s.f (PRT.TS_RX_PS n) : Int) + roundOpen 37 diff 2).toNat % 2 ^ (PRT.TS_RX_PS n).width ∧
      t.f (PRT.TS_TX_PS n) = ((s.f (PRT.TS_TX_PS n) : Int) + roundOpen 37 diff 2).toNat % 2 ^ (PRT.TS_TX_PS n).width)

/-- Sync and Follow_Up from an upstream berth in service (R457, R459): a two-step Sync waits for its Follow_Up, the oldest of three is lost and
counted; a one-step Sync is used at once, and a Follow_Up completes the Sync it belongs to, whose sample is used; one that belongs to none is an
orphan and is counted. A sample without a stamp is tagged GAP.
Rests on choices of the model: log entries 4, 21, 44. -/
def Obligations.PtpSyncReceived : Prop :=
  (∀ (n : Fin 8) (f : PtpFrame) (k : Nat) (s : State), s.hearsPtp n f → f.msg.kind = .sync → s.listens n = true →
    s.comesFrom n 2 f k → f.msg.twoStep = true →
    ∃ t, exec (.syncReceived n f) s = .next t ∧
      (t.berthC k).up.pairs = (if 2 ≤ (s.berthC k).up.pairs.length
          then (s.berthC k).up.pairs.drop ((s.berthC k).up.pairs.length - 1) else (s.berthC k).up.pairs) ++
        [⟨f.msg.seq.toNat, f.msg.srcId.toNat, s.rxStamp n f.cap, f.msg.corr, s.now, (s.tscC (s.prtTsc n)).phi, (s.pteC n).corrInt⟩] ∧
      (2 ≤ (s.berthC k).up.pairs.length → t.on (PTE.EVENT_FU_LOST n) = true ∧
        t.f (PTE.CNT_B_FU_LOST n) = min (s.f (PTE.CNT_B_FU_LOST n) + 1) (2 ^ (PTE.CNT_B_FU_LOST n).width - 1)) ∧
      ((s.berthC k).up.pairs.length < 2 → t.f (PTE.CNT_B_FU_LOST n) = s.f (PTE.CNT_B_FU_LOST n))) ∧
  (∀ (n : Fin 8) (f : PtpFrame) (k : Nat) (s : State), s.hearsPtp n f → f.msg.kind = .sync → s.listens n = true →
    s.comesFrom n 2 f k → f.msg.twoStep = false →
    ∃ t, exec (.syncReceived n f) s = .next t ∧ (t.berthC k).up.pairs = (s.berthC k).up.pairs ∧
      ((s.rxStamp n f.cap).tag ≠ .gap →
        (t.berthC k).up.mss.head? = some (roundOpen 39 (s.rxStamp n f.cap).val 65536,
          roundOpen 39 (s.rxStamp n f.cap).val 65536 - ptpTime f.msg - f.msg.corr, s.innerTag (s.berthC k).port (s.rxStamp n f.cap)) ∧
        (t.berthC k).up.offTag = (s.rxStamp n f.cap).tag.max
          (if (s.berthC k).up.mpds.length < (s.berthC k).par.dlyAvg then .settle else .valid)) ∧
      ((s.rxStamp n f.cap).tag = .gap → (t.berthC k).up.mss = (s.berthC k).up.mss ∧ (t.berthC k).up.offTag = .gap)) ∧
  (∀ (n : Fin 8) (f : PtpFrame) (k : Nat) (s : State), s.hearsPtp n f → f.msg.kind = .followUp → s.listens n = true →
    s.comesFrom n 2 f k → s.pairOf k f.msg = none →
    ∃ t, exec (.followUpReceived n f) s = .next t ∧ t.berthC k = s.heard k f ∧ t.on (PTE.EVENT_FU_ORPHAN n) = true ∧
      t.f (PTE.CNT_B_FU_ORPHAN n) = min (s.f (PTE.CNT_B_FU_ORPHAN n) + 1) (2 ^ (PTE.CNT_B_FU_ORPHAN n).width - 1)) ∧
  (∀ (n : Fin 8) (f : PtpFrame) (k : Nat) (q : PairSlot) (s : State), s.hearsPtp n f → f.msg.kind = .followUp → s.listens n = true →
    s.comesFrom n 2 f k → s.pairOf k f.msg = some q →
    ∃ t, exec (.followUpReceived n f) s = .next t ∧
      (t.berthC k).up.pairs = (s.berthC k).up.pairs.filter (fun p => p != q) ∧
      (q.t2.tag ≠ .gap → (t.berthC k).up.mss.head? = some (roundOpen 39 q.t2.val 65536,
        roundOpen 39 q.t2.val 65536 - ptpTime f.msg - (q.corr + f.msg.corr), s.innerTag (s.berthC k).port q.t2)) ∧
      (q.t2.tag = .gap → (t.berthC k).up.mss = (s.berthC k).up.mss ∧ (t.berthC k).up.offTag = .gap))

/-- Delay_Req and Delay_Resp (R446, R452, R458, R459): a Delay_Req of a client in service is answered by a Delay_Resp to its source with the
number, the identity and the stamp of the request, whose correctionField takes the fraction of the stamp; the Delay_Resp that an upstream berth's
exchange waits for ends it and gives a path delay; any other is discarded and counted.
Rests on choices of the model: log entries 4, 21, 44. -/
def Obligations.PtpDelayReceived : Prop :=
  (∀ (n : Fin 8) (f : PtpFrame) (k : Nat) (s : State), s.hearsPtp n f → f.msg.kind = .delayReq →
    (s.role n = 1 ∨ s.role n = 4) → s.on (TSC.STATUS_SET (s.prtTsc n)) = true → s.comesFrom n 1 f k → s.serves n = true →
    (s.profile n ≠ 2 ∨ (s.berthC k).gResp.isSome = true) → s.mayQueue n (s.berthC k).par.auth →
    ∃ t, exec (.delayReqReceived n f) s = .next t ∧ (t.berthC k).cl.answeredAt = some s.now ∧
      (t.berthC k).cl.seqResp = (f.msg.seq.toNat + 1) % 65536 ∧ t.ctxUsed n = s.ctxUsed n + 1 ∧
      ∃ r, TxFrame.mk (.ptp r) (.engine (some k)) ∈ (t.prtC n).qx ∧ r.kind = .delayResp ∧ r.seq = f.msg.seq ∧ r.dst = f.msg.src ∧
        r.reqId = f.msg.srcId ∧ r.sec = (s.rxStamp n f.cap).sec ∧ r.ns = (s.rxStamp n f.cap).ns ∧
        r.corr = f.msg.corr + roundOpen 42 (s.rxStamp n f.cap).frac 65536) ∧
  (∀ (n : Fin 8) (f : PtpFrame) (k : Nat) (t3 : Stamp) (s : State), s.hearsPtp n f →
    f.msg.kind = .delayResp → s.listens n = true → s.comesFrom n 2 f k →
    (s.berthC k).up.dreq = some (f.msg.seq.toNat, some t3) → f.msg.reqId.toNat = s.portId n →
    ∃ t, exec (.delayRespReceived n f) s = .next t ∧ (t.berthC k).up.dreq = none ∧
      ∀ x, (s.berthC k).up.mss.find? (fun x => decide (x.1 < roundOpen 39 t3.val 65536)) = some x →
        (t.berthC k).up.mpds = (if x.2.2.max (s.innerTag n t3) = .valid then
          ((x.2.1 + (ptpTime f.msg - roundOpen 39 t3.val 65536 - f.msg.corr)) :: (s.berthC k).up.mpds).take (s.berthC k).par.dlyAvg
        else (s.berthC k).up.mpds)) ∧
  (∀ (n : Fin 8) (f : PtpFrame) (k : Nat) (s : State), s.hearsPtp n f → f.msg.kind = .delayResp → s.listens n = true →
    s.comesFrom n 2 f k → (∀ t3, (s.berthC k).up.dreq = some (f.msg.seq.toNat, some t3) → f.msg.reqId.toNat ≠ s.portId n) →
    ∃ t, exec (.delayRespReceived n f) s = .next t ∧ t.berthC k = s.heard k f ∧
      t.f (PTE.CNT_C_DISCARD n) = min (s.f (PTE.CNT_C_DISCARD n) + 1) (2 ^ (PTE.CNT_C_DISCARD n).width - 1))

/-- Announce and Signaling (R441, R446, R449, R450, R466): an Announce of an upstream berth leaves its dataset and is current; a client's REQUEST
within what its berth and the profile permit gives the grant and a GRANT back, any other the denial, and its CANCEL ends the grant and is
acknowledged; a GRANT to an upstream berth is its grant, and one of no duration the failure of its request.
Rests on choices of the model: log entries 21, 95. -/
def Obligations.PtpAnnounceAndSignaling : Prop :=
  (∀ (n : Fin 8) (f : PtpFrame) (k : Nat) (s : State), s.hearsPtp n f → f.msg.kind = .announce →
    (s.listens n = true ∨ s.role n = 3) → s.comesFrom n 2 f k →
    ∃ t, exec (.announceReceived n f) s = .next t ∧ (t.berthC k).up.ann = f.msg.data ∧
      (t.berthC k).up.annSrc = f.msg.srcId.toNat ∧ (t.berthC k).up.annCurrent = true ∧ (t.berthC k).up.annLate = false ∧
      (t.berthC k).up.annAt = s.now) ∧
  (∀ (n : Fin 8) (f : PtpFrame) (k : Nat) (q : SigTlv) (s : State), s.hearsPtp n f → f.msg.kind = .signaling →
    s.profile n = 2 → (s.role n = 1 ∨ s.role n = 4) → s.on (TSC.STATUS_SET (s.prtTsc n)) = true → s.serves n = true →
    s.comesFrom n 1 f k → f.msg.tlvs = [q] → f.toHost = [] → s.mayLeave n (s.berthC k).par.auth →
    (q.op = .request → (s.berthC k).par.logOf q.kind ≤ q.logPer → ratePermitted q.kind q.logPer = true → 60 ≤ q.dur → q.dur ≤ 1000 →
      ∃ t, exec (.signalingReceived n f) s = .next t ∧
        (t.berthC k).grant q.kind = some ⟨q.logPer, q.dur, s.now, s.now + q.dur * secT⟩ ∧
        t.signalled s n f.msg.src [{ q with op := .grant }]) ∧
    (q.op = .request → (q.logPer < (s.berthC k).par.logOf q.kind ∨ ratePermitted q.kind q.logPer = false ∨ q.dur < 60 ∨ 1000 < q.dur) →
      ∃ t, exec (.signalingReceived n f) s = .next t ∧ (t.berthC k).grant q.kind = (s.berthC k).grant q.kind ∧
        t.on (PTE.EVENT_GRANT_DENIED n) = true ∧ t.signalled s n f.msg.src [{ q with op := .grant, dur := 0 }]) ∧
    (q.op = .cancel → ∃ t, exec (.signalingReceived n f) s = .next t ∧ (t.berthC k).grant q.kind = none ∧
        t.signalled s n f.msg.src [{ q with op := .ackCancel }])) ∧
  (∀ (n : Fin 8) (f : PtpFrame) (k : Nat) (q : SigTlv) (s : State), s.hearsPtp n f → f.msg.kind = .signaling →
    s.profile n = 2 → s.listens n = true → s.sender n 1 f.msg = none → s.comesFrom n 2 f k → f.msg.tlvs = [q] → f.toHost = [] →
    q.op = .grant →
    (q.dur ≠ 0 → ratePermitted q.kind q.logPer = true →
      ∃ t, exec (.signalingReceived n f) s = .next t ∧
        (t.berthC k).grant q.kind = some ⟨q.logPer, q.dur, s.now, s.now + q.dur * secT⟩ ∧ (t.berthC k).up.asked q.kind = none ∧
        q.kind ∉ (t.berthC k).up.denied) ∧
    (q.dur = 0 → ∃ t, exec (.signalingReceived n f) s = .next t ∧ (t.berthC k).grant q.kind = (s.berthC k).grant q.kind ∧
        (t.berthC k).up.asked q.kind = (s.berthC k).up.asked q.kind ∧ q.kind ∈ (t.berthC k).up.denied ∧
        (q.kind ∉ (s.berthC k).up.denied → t.on (PTE.EVENT_GRANT_DENIED n) = true)))

/-- What the PTP engines send and when, and their timers (R446, R447, R449, R450, R457, R458, R460, R464 to R466, R469, R474, R475, R477): Sync,
Announce and Delay_Req with their numbers and destinations; lost Follow_Ups; Announce receipt; grants that end, are renewed and asked for again; a
sample stream that is lost; the adjustment that a presentation period brings; the frequency estimate and the demotions of the corridor's second; a
promotion, and the end of an asymmetry ramp.
Rests on choices of the model: log entries 4, 21, 32, 33, 38, 40, 95. -/
def Obligations.PtpTransmitAndTimers : Prop :=
  (∀ (n : Fin 8) (s : State), s.txDue n none .sync = true → s.mayQueue n (s.mcAuth n) →
    ∃ t, exec (.syncTxInterval n none) s = .next t ∧ (t.pteC n).mcSync = ((s.pteC n).mcSync + 1) % 65536 ∧
      t.ptpQueued s n (.engine none) .sync (s.pteC n).mcSync (s.mcast n)) ∧
  (∀ (n : Fin 8) (k : Fin 8192) (s : State), s.txDue n (some k.val) .sync = true → s.mayQueue n (s.berthC k).par.auth →
    ∃ t, exec (.syncTxInterval n (some k)) s = .next t ∧ (t.berthC k).cl.seqSync = ((s.berthC k).cl.seqSync + 1) % 65536 ∧
      t.ptpQueued s n (.engine (some k.val)) .sync (s.berthC k).cl.seqSync (s.berthAddr (s.berthC k))) ∧
  (∀ (n : Fin 8) (s : State), s.txDue n none .announce = true → s.mayLeave n (s.mcAuth n) →
    ∃ t, exec (.announceTxInterval n none) s = .next t ∧ (t.pteC n).mcAnn = ((s.pteC n).mcAnn + 1) % 65536 ∧
      ∃ m, t.leaves3 s n ⟨.ptp m, .announce none⟩ ∧ m.kind = .announce ∧ m.seq = BitVec.ofNat 16 (s.pteC n).mcAnn ∧
        m.dst = s.mcast n ∧ m.data = some (s.ownData n)) ∧
  (∀ (n : Fin 8) (k : Fin 8192) (s : State), s.txDue n (some k.val) .announce = true → s.mayLeave n (s.berthC k).par.auth →
    ∃ t, exec (.announceTxInterval n (some k)) s = .next t ∧ (t.berthC k).cl.seqAnn = ((s.berthC k).cl.seqAnn + 1) % 65536 ∧
      ∃ m, t.leaves3 s n ⟨.ptp m, .announce (some k.val)⟩ ∧ m.kind = .announce ∧
        m.seq = BitVec.ofNat 16 (s.berthC k).cl.seqAnn ∧ m.dst = s.berthAddr (s.berthC k) ∧ m.data = some (s.ownData n)) ∧
  (∀ (k : Fin 8192) (s : State), s.upLive k = true → (s.profile (s.berthC k).port ≠ 2 ∨ (s.berthC k).gResp.isSome = true) →
    s.mayQueue (s.berthC k).port (s.reqTo (s.berthC k)).2.2 →
    ∃ t, exec (.delayReqTxInterval k) s = .next t ∧ (t.berthC k).up.dreq = some ((s.berthC k).seqReq, none) ∧
      (t.berthC k).seqReq = ((s.berthC k).seqReq + 1) % 65536 ∧
      t.ptpQueued s (s.berthC k).port (.engine (some k.val)) .delayReq (s.berthC k).seqReq (s.reqTo (s.berthC k)).1) ∧
  (∀ (k : Fin 8192) (s : State),
    ∃ t, exec (.followUpTimeout k) s = .next t ∧
      (t.berthC k).up.pairs = (s.berthC k).up.pairs.filter (fun p => decide (s.now < p.arrived + s.pairSpan k)) ∧
      ((s.berthC k).port < 8 → (∃ p ∈ (s.berthC k).up.pairs, p.arrived + s.pairSpan k ≤ s.now) →
        t.on (PTE.EVENT_FU_LOST (s.berthC k).port) = true)) ∧
  (∀ (k : Fin 8192) (s : State), s.numbered = true → s.inService k 2 = true → (s.berthC k).up.annLate = false →
    (s.berthC k).up.annAt + 3 * intervalT (s.rxLog (s.berthC k) .announce) ≤ s.now →
    (s.berthC k).port < 8 →
    ∃ t, exec (.announceTimeout k) s = .next t ∧ (t.berthC k).up.annCurrent = false ∧ (t.berthC k).up.annLate = true ∧
      t.on (PTE.EVENT_ANN_TIMEOUT (s.berthC k).port) = true) ∧
  (∀ (k : Fin 8192) (q : GrantKind) (g : Grant) (s : State), (s.berthC k).grant q = some g → g.until_ ≤ s.now →
    ∃ t, exec (.grantExpiry k q) s = .next t ∧ (t.berthC k).grant q = none ∧
      ((s.berthC k).kind = 1 → (s.berthC k).port < 8 → t.on (PTE.EVENT_GRANT_EXPIRED (s.berthC k).port) = true)) ∧
  (∀ (k : Fin 8192) (q : GrantKind) (g : Grant) (s : State), (s.berthC k).grant q = some g → s.upLive k = true →
    s.profile (s.berthC k).port = 2 → (s.berthC k).up.asked q = none → 3 * g.dur * secT ≤ 4 * (s.now - g.since) →
    s.mayLeave (s.berthC k).port (s.berthC k).par.auth →
    ∃ t, exec (.grantRenew k q) s = .next t ∧ (t.berthC k).seqSig = ((s.berthC k).seqSig + 1) % 65536 ∧
      (t.berthC k).up.asked q = some s.now ∧ (t.berthC k).grant q = some g ∧ t.grantAsked s k q) ∧
  (∀ (k : Fin 8192) (q : GrantKind) (a : Nat) (s : State), (s.berthC k).up.asked q = some a → s.upLive k = true →
    s.profile (s.berthC k).port = 2 → a + 2 * secT ≤ s.now → s.mayLeave (s.berthC k).port (s.berthC k).par.auth →
    ∃ t, exec (.grantRetry k q) s = .next t ∧ q ∈ (t.berthC k).up.denied ∧
      (t.berthC k).seqSig = ((s.berthC k).seqSig + 1) % 65536 ∧ (t.berthC k).up.asked q = some s.now ∧ t.grantAsked s k q) ∧
  (∀ (k : Fin 8192) (q : GrantKind) (a : Nat) (s : State), (s.berthC k).up.asked q = some a → s.upLive k = true →
    s.profile (s.berthC k).port = 2 → a + secT ≤ s.now → s.now < a + 2 * secT → (s.berthC k).port < 8 →
    ∃ t, exec (.grantRetry k q) s = .next t ∧ q ∈ (t.berthC k).up.denied ∧ (t.berthC k).up.asked q = some a ∧ t.prt = s.prt ∧
      (q ∉ (s.berthC k).up.denied → t.on (PTE.EVENT_GRANT_DENIED (s.berthC k).port) = true)) ∧
  (∀ (k : Fin 8192) (q : GrantKind) (s : State), (s.berthC k).up.asked q = none → (s.berthC k).grant q = none → s.upLive k = true →
    s.profile (s.berthC k).port = 2 → s.mayLeave (s.berthC k).port (s.berthC k).par.auth →
    ∃ t, exec (.grantRetry k q) s = .next t ∧ (t.berthC k).seqSig = ((s.berthC k).seqSig + 1) % 65536 ∧
      (t.berthC k).up.asked q = some s.now ∧ t.grantAsked s k q) ∧
  (∀ (k : Fin 8192) (i j : Nat) (s : State), (s.berthC k).kind = 2 → s.streamOld k = true → s.entriesFrom k = [(i, j)] → i < 16 →
    j < 30 →
    ∃ t, exec (.sampleStreamTimeout k) s = .next t ∧ t.on (SEL.CAND_STATE_ACT_FAIL i j) = true) ∧
  (∀ (n : Fin 8) (s : State), s.prtLive n = true → s.on (PTE.TS_CTRL_EN n) = true →
    (s.pteC n).perAt + s.f (PTE.TS_CTRL_PERIOD n) * secT ≤ s.now →
    ∃ t, exec (.tsPresentPeriod n) s = .next t ∧ (t.pteC n).perAt = s.now ∧
      (s.bestBerth n = none → t.tsc = s.tsc) ∧
      ∀ k, (s.berthC k).kind = 2 → (s.berthC k).port = n.val → (t.berthC k).up.perSum = 0 ∧ (t.berthC k).up.perN = 0) ∧
  (∀ (n : Fin 8) (j : Nat) (s : State), s.prtLive n = true → s.on (PTE.TS_CTRL_EN n) = true →
    (s.pteC n).perAt + s.f (PTE.TS_CTRL_PERIOD n) * secT ≤ s.now → s.bestBerth n = some j →
    (s.disagreeing (s.prtTsc n)).contains j = false → (s.f XLK.STATUS_ROLE ≠ 2 ∨ s.replicated (s.prtTsc n) = false) →
      (s.berthC j).up.demoted = false →
    s.on (TSC.STATUS_SET (s.prtTsc n)) = true →
    ∃ t, exec (.tsPresentPeriod n) s = .next t ∧
      ((s.berthC j).up.perN < 4 → t.tsc = s.tsc) ∧
      (4 ≤ (s.berthC j).up.perN →
        s.guarded (s.prtTsc n) ((s.tscC (s.prtTsc n)).val + ((s.tscC (s.prtTsc n)).rem -
          roundOpen 41 ((s.berthC j).up.perSum * 65536) (s.berthC j).up.perN * 2 ^ 24)) = false →
        ((s.tscC (s.prtTsc n)).rem - roundOpen 41 ((s.berthC j).up.perSum * 65536) (s.berthC j).up.perN * 2 ^ 24).natAbs ≤
          s.limit (s.prtTsc n) * 2 ^ 24 →
        (t.tscC (s.prtTsc n)).rem = (s.tscC (s.prtTsc n)).rem -
          roundOpen 41 ((s.berthC j).up.perSum * 65536) (s.berthC j).up.perN * 2 ^ 24)) ∧
  (∀ (n : Fin 8) (j : Nat) (o : Int) (s : State), s.prtLive n = true → s.on (PTE.TS_CTRL_EN n) = true →
    (s.pteC n).perAt + s.f (PTE.TS_CTRL_PERIOD n) * secT ≤ s.now → s.bestBerth n = some j →
    (s.disagreeing (s.prtTsc n)).contains j = false → (s.f XLK.STATUS_ROLE ≠ 2 ∨ s.replicated (s.prtTsc n) = false) →
      (s.berthC j).up.demoted = false →
    s.on (TSC.STATUS_SET (s.prtTsc n)) = false → (s.berthC j).up.learnt = true → (s.berthC j).up.validOff = some o →
    (s.tscC (s.prtTsc n)).floor * (1000000000 * 2 ^ 56) ≤ (s.tscC (s.prtTsc n)).val - o * 65536 * 2 ^ 24 →
    s.guarded (s.prtTsc n) ((s.tscC (s.prtTsc n)).val - o * 65536 * 2 ^ 24) = false →
    ∃ t, exec (.tsPresentPeriod n) s = .next t ∧ t.on (TSC.STATUS_SET (s.prtTsc n)) = true ∧
      (t.tscC (s.prtTsc n)).val = (s.tscC (s.prtTsc n)).val - o * 65536 * 2 ^ 24) ∧
  (∀ (n : Fin 8) (s : State), s.prtLive n = true →
    ∃ t, exec (.corridorSecond n) s = .next t ∧
      ∀ k, (s.berthC k).kind = 2 → (s.berthC k).port = n.val → (t.berthC k).up.secSum = 0 ∧ (t.berthC k).up.secN = 0) ∧
  (∀ (n : Fin 8) (k : Nat) (s : State), s.prtLive n = true → s.slotsOn n 2 = [k] →
    ∃ t, exec (.corridorSecond n) s = .next t ∧ (t.berthC k).up.freq = s.corrFreq k) ∧
  (∀ (n : Fin 8) (k : Nat) (m m0 c0 : Int) (s : State), s.numbered = true → s.prtLive n = true → s.slotsOn n 2 = [k] → s.corrOn n = true →
    s.corrIdle n = false → (s.berthC k).up.learnt = true → (s.berthC k).up.demoted = false → (s.berthC k).up.secN ≠ 0 →
    (s.berthC k).up.mean = some m → (s.berthC k).up.winMean = some (m0, c0) →
    s.w (PTE.CORR_DRIFT n) * 2 ^ 56 < ((m - m0) - ((s.pteC n).corrInt - c0)).natAbs →
    ∃ t, exec (.corridorSecond n) s = .next t ∧ (t.berthC k).up.demoted = true ∧ t.on (PTE.EVENT_DEMOTED n) = true) ∧
  (∀ (n : Fin 8) (k : Nat) (s : State), s.numbered = true → s.prtLive n = true → s.slotsOn n 2 = [k] → s.corrOn n = true → s.corrIdle n = true →
    (s.berthC k).up.demoted = false → s.crossTested k = true → s.crossFails n k = true → 2 ≤ (s.berthC k).up.crossFails →
    ∃ t, exec (.corridorSecond n) s = .next t ∧ (t.berthC k).up.demoted = true ∧ t.on (PTE.EVENT_DEMOTED n) = true) ∧
  (∀ (k : Fin 8192) (s : State), s.numbered = true → (s.berthC k).kind = 2 → (s.berthC k).up.demoted = true → (s.berthC k).up.readmitAt ≤ s.now →
    (s.berthC k).port < 8 →
    ∃ t, exec (.corridorReadmit k) s = .next t ∧ (t.berthC k).up.demoted = false ∧ (t.berthC k).up.learnt = false ∧
      t.on (PTE.EVENT_PROMOTED (s.berthC k).port) = true) ∧
  (∀ (k : Fin 8192) (r : Int × Int × AsymEntry) (s : State), (s.berthC k).up.ramp = some r → (s.berthC k).port < 8 →
    (r.2.1 + (r.2.2.ramp * 1000000000 * 65536 : Nat)) * 2 ^ 40 ≤ (s.tscC (s.prtTsc (s.berthC k).port)).val →
    ∃ t, exec (.asymRampDone k) s = .next t ∧ (t.berthC k).up.ramp = none ∧ (t.berthC k).up.schedPs = r.2.2.target ∧
      t.on (PTE.EVENT_ASYM_DONE (s.berthC k).port) = true)

/-- The commands of a PTP engine (R448, R460, R477, R492, R493): ADMIT_POP takes the oldest admission record; FETCH_DATASET places what an upstream
berth has told and measured; PROMOTE; ASYM_LOAD and ASYM_CLEAR.
Rests on choices of the model: log entries 3, 4. -/
def Obligations.PtpCommands : Prop :=
  (∀ (p : Port) (n : Fin 8) (s : State), s.takes p (PTE.CMD n) false →
    ∃ t, exec (.admitPop p n) s = .next t ∧ t.f (PTE.CMD_CODE_CODE n) = 0 ∧
      ((s.pteC n).admQ = [] → t.mboxHolds p (BitVec.ofNat 32 (2 ^ 27) :: List.replicate 8 0)) ∧
      (∀ r rs, (s.pteC n).admQ = r :: rs → r.length ≤ 64 → t.mboxHolds p r ∧ (t.pteC n).admQ = rs)) ∧
  (∀ (p : Port) (n : Fin 8) (k : Nat) (d : Dataset) (s : State), s.takes p (PTE.CMD n) false → s.cmdHandle n = (.ok, k) →
    (s.berthC k).up.ann = some d → (s.berthC k).up.mpds.take (s.berthC k).par.dlyAvg ≠ [] →
    ∃ t w4, exec (.fetchDataset p n) s = .next t ∧ t.f (PTE.CMD_CODE_CODE n) = 0 ∧ t.berth = s.berth ∧
      t.mboxHolds p ([BitVec.ofNat 32 (d.cls * 2 ^ 24 + d.acc % 256 * 2 ^ 16 + d.var % 65536),
        BitVec.ofNat 32 (d.prio1 * 2 ^ 24 + d.prio2 % 256 * 2 ^ 16 + d.steps % 65536)] ++ toWords 2 d.gm.toNat ++
        [w4, BitVec.ofNat 32 (ofSigned 32 (satSigned 32 (roundOpen 47 (s.berthC k).delay.1
          ((s.berthC k).delay.2 * 65536))))] ++ intWords 2 (s.berthC k).up.offset)) ∧
  (∀ (p : Port) (n : Fin 8) (k : Nat) (s : State), s.numbered = true → s.takes p (PTE.CMD n) false → s.cmdHandle n = (.ok, k) →
    (s.berthC k).up.demoted = true →
    ∃ t, exec (.promote p n) s = .next t ∧ (t.berthC k).up.demoted = false ∧ (t.berthC k).up.learnt = false ∧
      t.on (PTE.EVENT_PROMOTED n) = true ∧ t.f (PTE.CMD_CODE_CODE n) = 0) ∧
  (∀ (p : Port) (n : Fin 8) (k : Nat) (ws : List Word) (s : State), s.takes p (PTE.CMD n) false → s.cmdHandle n = (.ok, k) →
    s.mboxIn p 4 = some ws → (∀ l, (s.berthC k).up.sched.getLast? = some l → l.sec < ofWords (ws.take 2)) →
    (s.tscC (s.prtTsc n)).val ≤ (ofWords (ws.take 2) * 1000000000 * 2 ^ 56 : Nat) → (ws.getD 3 0).toNat ≤ 86400 →
    ((s.berthC k).par.asym + toSigned 32 (ws.getD 2 0).toNat).natAbs ≤ 10000000000 → (s.berthC k).up.sched.length < 32 →
    (toSigned 32 (ws.getD 2 0).toNat - (s.berthC k).up.lastTarget).natAbs ≤ (s.tscC (s.prtTsc n)).thresh * 1000 →
    ∃ t, exec (.asymLoad p n) s = .next t ∧ t.f (PTE.CMD_CODE_CODE n) = 0 ∧ t.w (HOST.MBOX_STAT p) = 0 ∧
      (t.berthC k).up.sched = (s.berthC k).up.sched ++
        [⟨ofWords (ws.take 2), toSigned 32 (ws.getD 2 0).toNat, (ws.getD 3 0).toNat⟩]) ∧
  (∀ (p : Port) (n : Fin 8) (k : Nat) (s : State), s.takes p (PTE.CMD n) false → s.cmdHandle n = (.ok, k) →
    ∃ t, exec (.asymClear p n) s = .next t ∧ t.f (PTE.CMD_CODE_CODE n) = 0 ∧ (t.berthC k).up.sched = [])

/-! The crossing link. -/

/-- Frames of the crossing link that the device takes (R524, R529, R531, R534, R536, R538, R545 to R547, R549, R550): a HELLO settles the version, a
HEARTBEAT forms the pair once the partner hears too, a PHASE leaves its stamps, the state frames what the partner tells, the four SWITCH frames carry a switchover through, and a
NOTICE breaks the pair. A frame that the receiver could not make out is counted.
Rests on choices of the model: log entries 41, 47, 50, 93. -/
def Obligations.LinkFramesReceived : Prop :=
  (∀ (lane : Fin 2) (f : XlkFrame) (s : State), s.hearsLink lane f 1 → s.numbered = true →
    ∃ t, exec (.helloReceived lane f) s = .next t ∧ t.f XLK.STATUS_PARTNER_VER = beAt (linkBody f) 0 1 ∧
      (s.inSwitch = false → s.xlk.negVer ≠ some (beAt (linkBody f) 0 1) →
        (max s.xlkVer (beAt (linkBody f) 0 1) - min s.xlkVer (beAt (linkBody f) 0 1) ≤ 1 →
          t.f XLK.STATUS_VER = min s.xlkVer (beAt (linkBody f) 0 1) ∧
            t.on XLK.STATUS_MIXED = (s.xlkVer != beAt (linkBody f) 0 1)) ∧
        (1 < max s.xlkVer (beAt (linkBody f) 0 1) - min s.xlkVer (beAt (linkBody f) 0 1) →
          t.f XLK.STATUS_VER = 0 ∧ t.f XLK.STATUS_PAIR = 3 ∧ t.on XLK.EVENT_INCOMPAT = true))) ∧
  (∀ (lane : Fin 2) (f : XlkFrame) (s : State), s.hearsLink lane f 2 → s.numbered = true →
    ∃ t, exec (.heartbeatReceived lane f) s = .next t ∧ (if lane = 0 then t.xlk.heard0 else t.xlk.heard1) = true ∧
      t.xlk.hbAt = s.now ∧
      (s.f XLK.STATUS_VER ≠ 0 → s.f XLK.STATUS_PAIR ≠ 2 → (bitAt (beAt f.bytes 0xA 1) 2 = true ∨ bitAt (beAt f.bytes 0xA 1) 3 = true) →
        t.f XLK.STATUS_PAIR = 2 ∧ t.f XLK.STATUS_ROLE = (if (s.headed lane f).electedActive then 1 else 2) ∧
          t.f XLK.STATUS_INCUMBENT = 0 ∧ t.on XLK.EVENT_PAIR_UP = true)) ∧
  (∀ (lane : Fin 2) (f : XlkFrame) (k : Nat) (s : State), s.hearsLink lane f 3 → beAt (linkBody f) 0 1 = 1 →
    beAt (linkBody f) 4 1 = k → k ∈ (s.headed lane f).replicas →
    ∃ t, exec (.phaseReceived lane f) s = .next t ∧
      t.xlk.deps.head? = some (8 * lane.val + k, stampAt (slice (linkBody f) 4 52) 4,
        (s.headed lane f).laneStamp lane k f.cap false)) ∧
  (∀ (lane : Fin 2) (f : XlkFrame) (s : State), s.hearsLink lane f 4 →
    ∃ t, exec (.loopstateReceived lane f) s = .next t ∧ t.xlk.loops = (bodyEntries (linkBody f) 16).map beWords) ∧
  (∀ (lane : Fin 2) (f : XlkFrame) (s : State), s.hearsLink lane f 5 → s.numbered = true →
    ∃ t, exec (.timestateReceived lane f) s = .next t ∧ t.xlk.times = (bodyEntries (linkBody f) 16).map beWords ∧
      ∀ e, bodyEntries (linkBody f) 16 = [e] → s.f XLK.STATUS_ROLE = 2 → s.f XLK.STATUS_VER = 3 → beAt e 0 1 ∈ s.replicas →
        bitAt (beAt e 1 1) 3 = false ∨ bitAt (beAt e 1 1) 4 = false →
        t.f (TSC.TOD_CFG_UTC_OFS (beAt e 0 1)) = beAt e 2 2 % 2 ^ (TSC.TOD_CFG_UTC_OFS (beAt e 0 1)).width ∧
          t.on (TSC.TOD_CFG_UTC_VALID (beAt e 0 1)) = bitAt (beAt e 1 1) 2 ∧
          t.on (TSC.TOD_CFG_LEAP61 (beAt e 0 1)) = bitAt (beAt e 1 1) 3 ∧
          t.on (TSC.TOD_CFG_LEAP59 (beAt e 0 1)) = bitAt (beAt e 1 1) 4) ∧
  (∀ (lane : Fin 2) (f : XlkFrame) (e : List Byte) (s : State), s.hearsLink lane f 6 → s.numbered = true →
    s.on XLK.CFG_BERTH_REP = true → 2 ≤ s.f XLK.STATUS_VER → s.f XLK.STATUS_ROLE = 2 → bodyEntries (linkBody f) 32 = [e] →
    (s.berthC (beAt e 0 2)).kind = beAt e 2 1 → (s.berthC (beAt e 0 2)).port = beAt e 3 1 → beAt e 2 1 ≠ 0 →
    (s.berthC (beAt e 0 2)).par.peerId = beAt e 4 10 →
    ∃ t, exec (.berthstateReceived lane f) s = .next t ∧
      (t.berthC (beAt e 0 2)).cl.seqSync = beAt e 14 2 ∧ (t.berthC (beAt e 0 2)).cl.seqResp = beAt e 16 2 ∧
      (t.berthC (beAt e 0 2)).cl.seqAnn = beAt e 18 2 ∧ (t.berthC (beAt e 0 2)).repDemoted = bitAt (beAt e 26 1) 0) ∧
  (∀ (lane : Fin 2) (f : XlkFrame) (s : State), s.hearsLink lane f 7 → beAt (linkBody f) 0 1 = 1 →
    ∃ t, exec (.switchRequestReceived lane f) s = .next t ∧
      ((s.headed lane f).switchReason = 0 → t.xlk.accepted = some (beAt (linkBody f) 2 2) ∧
        t.linkSent (s.headed lane f) 7 (switchBody 2 0 (beAt (linkBody f) 2 2))) ∧
      ((s.headed lane f).switchReason ≠ 0 → t.xlk.accepted = s.xlk.accepted ∧
        t.linkSent (s.headed lane f) 7 (switchBody 3 (s.headed lane f).switchReason (beAt (linkBody f) 2 2)))) ∧
  (∀ (lane : Fin 2) (f : XlkFrame) (j : SwitchJob) (s : State), s.hearsLink lane f 7 → s.numbered = true → beAt (linkBody f) 0 1 = 2 →
    s.xlk.switching = some j → j.token = beAt (linkBody f) 2 2 → j.activate = false →
    (∀ pv, s.xlk.helloVer = some pv → max s.xlkVer pv - min s.xlkVer pv ≤ 1) →
    ∃ t, exec (.switchAcceptReceived lane f) s = .next t ∧ t.xlk.switching = none ∧ t.f XLK.STATUS_SWITCHING = 0 ∧
      t.f XLK.STATUS_ROLE = 2 ∧ t.f XLK.CMD_CODE_CODE = 0 ∧ t.on XLK.EVENT_SWITCHED = true ∧
      t.linkSent (s.headed lane f) 7 (switchBody 4 0 (beAt (linkBody f) 2 2))) ∧
  (∀ (lane : Fin 2) (f : XlkFrame) (j : SwitchJob) (s : State), s.hearsLink lane f 7 → s.numbered = true → beAt (linkBody f) 0 1 = 3 →
    s.xlk.switching = some j → j.token = beAt (linkBody f) 2 2 → j.activate = false →
    ∃ t, exec (.switchRefuseReceived lane f) s = .next t ∧ t.xlk.switching = none ∧ t.f XLK.STATUS_SWITCHING = 0 ∧
      t.f XLK.CMD_CODE_CODE = Code.locked.num ∧ t.on XLK.EVENT_SWITCH_REFUSED = true) ∧
  (∀ (lane : Fin 2) (f : XlkFrame) (s : State), s.hearsLink lane f 7 → s.numbered = true → beAt (linkBody f) 0 1 = 4 →
    s.xlk.accepted = some (beAt (linkBody f) 2 2) → s.f XLK.STATUS_ROLE = 2 →
    (∀ pv, s.xlk.helloVer = some pv → max s.xlkVer pv - min s.xlkVer pv ≤ 1) →
    ∃ t, exec (.switchCommitReceived lane f) s = .next t ∧ t.xlk.accepted = none ∧ t.f XLK.STATUS_ROLE = 1 ∧
      t.on XLK.EVENT_SWITCHED = true) ∧
  (∀ (lane : Fin 2) (f : XlkFrame) (s : State), s.hearsLink lane f 8 → s.numbered = true → s.f XLK.STATUS_PAIR = 2 →
    s.f XLK.STATUS_VER = 3 →
    ∃ t, exec (.noticeReceived lane f) s = .next t ∧ t.f XLK.STATUS_PAIR = 0 ∧ t.f XLK.STATUS_ROLE = 0 ∧
      t.on XLK.EVENT_PAIR_DOWN = true ∧ (s.f XLK.STATUS_ROLE = 2 → t.on XLK.EVENT_TAKEOVER = true)) ∧
  (∀ (lane : Fin 2) (s : State), s.xlkLive = true → s.laneUp lane = true →
    (∃ t, exec (.xlkFrameDrop lane true) s = .next t ∧ t.f XLK.CNT_DROP_VER = min (s.f XLK.CNT_DROP_VER + 1) (2 ^ 8 - 1)) ∧
    (∃ t, exec (.xlkFrameDrop lane false) s = .next t ∧ t.f XLK.CNT_CRC_ERR = min (s.f XLK.CNT_CRC_ERR + 1) (2 ^ 16 - 1) ∧
      t.on XLK.EVENT_CRC = true))

/-- What the crossing link sends (R524, R528 to R531), its timers and lanes (R525, R534, R535, R549), what it presents (R543), and its commands
(R526, R546, R549).
Rests on choices of the model: log entries 4, 24, 68, 86, 93. -/
def Obligations.LinkSendsTimersCommands : Prop :=
  (∀ (s : State), s.xlkLive = true → ∃ t, exec .helloTx s = .next t ∧ t.regs = s.regs ∧
    t.linkSent s 1 (beBytes 1 s.xlkVer ++ [0, 0, 0] ++
      ((match s.fab.img with | some i => i.imageId | none => []) ++ List.replicate 16 0).take 16)) ∧
  (∀ (s : State), s.xlkLive = true → ∃ t, exec .heartbeatTx s = .next t ∧ t.regs = s.regs ∧ t.linkSent s 2 []) ∧
  (∀ (lane : Fin 2) (cap : StampCap) (full : Bool) (s : State), s.xlkLive = true → s.laneUp lane = true → 1 ≤ s.f XLK.STATUS_VER →
    ∃ t, exec (.phaseTx lane ⟨cap, full⟩) s = .next t ∧ t.xlk.txSeq = (s.xlk.txSeq + 1) % 2 ^ 32 ∧
      (6 + lane.val, s.xlkFrame 3 (beBytes 1 s.replicas.length ++ [0, 0, 0] ++ s.replicas.flatMap
        (s.phaseOut lane (if full then { cap with ok := false } else cap))))
        ∈ t.xlk.sent) ∧
  (∀ (s : State), s.carries = true → ∃ t, exec .loopstateTx s = .next t ∧
    t.linkSent s 4 (beBytes 1 s.followSels.length ++ [0, 0, 0] ++ s.followSels.flatMap s.loopOut)) ∧
  (∀ (s : State), s.carries = true → ∃ t, exec .timestateTx s = .next t ∧
    t.linkSent s 5 (beBytes 1 s.replicas.length ++ [0, 0, 0] ++ s.replicas.flatMap s.timeOut)) ∧
  (∀ (slot : Fin 8192) (s : State), s.carries = true → s.on XLK.CFG_BERTH_REP = true → 2 ≤ s.f XLK.STATUS_VER →
    ((s.berthC slot).kind = 1 ∨ (s.berthC slot).kind = 2) → ∃ t, exec (.berthstateTx slot) s = .next t ∧
      t.linkSent s 6 ([2, 0, 0, 0] ++ s.berthOut slot ++ s.mcastOut (s.berthC slot).port)) ∧
  (∀ (s : State), s.numbered = true → s.xlkLive = true → s.f XLK.STATUS_PAIR = 2 →
    s.xlk.hbAt + s.f XLK.CFG2_HB_US * s.f XLK.CFG2_HB_MISS * 2000 ≤ s.now →
    ∃ t, exec .heartbeatLoss s = .next t ∧ t.f XLK.STATUS_PAIR = 0 ∧ t.f XLK.STATUS_ROLE = 0 ∧
      t.on XLK.EVENT_PAIR_DOWN = true ∧ (t.on XLK.STATUS_INCUMBENT = true ↔ s.f XLK.STATUS_ROLE = 1) ∧
      (s.f XLK.STATUS_ROLE = 2 → t.on XLK.EVENT_TAKEOVER = true)) ∧
  (∀ (t0 : Nat) (s : State), s.xlkLive = true → s.f XLK.STATUS_ROLE = 0 → s.xlk.goodSince = some t0 → t0 + 60 * secT ≤ s.now →
    ∃ t, exec .incumbentTimer s = .next t ∧ t.f XLK.STATUS_INCUMBENT = 1) ∧
  (∀ (j : SwitchJob) (s : State), s.numbered = true → s.xlk.switching = some j → s.xlk.switchAt + 10 * msT ≤ s.now →
    ∃ t, exec .switchAcceptTimeout s = .next t ∧ t.xlk.switching = none ∧ t.f XLK.STATUS_SWITCHING = 0 ∧
      t.on XLK.EVENT_SWITCH_REFUSED = true ∧ (j.activate = false → t.f XLK.CMD_CODE_CODE = Code.locked.num) ∧
      (j.activate = true → t.fab.op = none ∧ t.f FAB.OP_STATUS_CODE = Code.locked.num)) ∧
  (∀ (lane : Fin 2) (s : State),
    (s.xlkLive = true → s.laneUp lane = false → ∃ t, exec (.xlkLaneUp lane) s = .next t ∧ t.laneUp lane = true ∧
      (if lane = 0 then t.xlk.up0 else t.xlk.up1) = some s.now ∧ t.on XLK.EVENT_LANE_UP = true ∧
      (t.lndC (28 + lane)).linkSettle = true) ∧
    (s.top.landedOnce = true → s.landed = false → ∃ t, exec (.xlkLaneUp lane) s = .next t ∧
      (if lane = 0 then t.xlk.up0 else t.xlk.up1) = some s.now ∧ t.regs = s.regs)) ∧
  (∀ (lane : Fin 2) (s : State), s.numbered = true → s.laneUp lane = true →
    ∃ t, exec (.xlkLaneDown lane) s = .next t ∧ t.laneUp lane = false ∧ (if lane = 0 then t.xlk.up0 else t.xlk.up1) = none ∧
      (if lane = 0 then t.xlk.d0 else t.xlk.d1) = none ∧ t.on XLK.EVENT_LANE_DOWN = true ∧
      t.on (LND.STATUS_ACTIVE (28 + lane)) = false) ∧
  (∀ (s : State), s.xlkLive = true → s.xlk.presentAt + s.f XLK.CTRL_TS_PERIOD * msT ≤ s.now →
    ∃ t, exec .xlkPresentPeriod s = .next t ∧ t.xlk = { s.xlk with theta := [], presentAt := s.now } ∧
    (s.f XLK.STATUS_ROLE ≠ 2 ∨ s.on XLK.CTRL_TS_EN = false → t.regs = s.regs ∧ t.tsc = s.tsc) ∧
    (∀ k sum n, s.f XLK.STATUS_ROLE = 2 → s.on XLK.CTRL_TS_EN = true → s.replicas = [k] →
      s.xlk.theta.find? (fun y => y.1 == k) = some (k, sum, n) → 0 < n → s.on (TSC.STATUS_SET k) = true →
      s.guarded k ((s.tscC k).val + ((s.tscC k).rem - roundOpen 51 sum (2 * n) * 2 ^ 24)) = false →
      ((s.tscC k).rem - roundOpen 51 sum (2 * n) * 2 ^ 24).natAbs ≤ s.limit k * 2 ^ 24 →
      (t.tscC k).rem = (s.tscC k).rem - roundOpen 51 sum (2 * n) * 2 ^ 24) ∧
    (∀ k sum n, s.f XLK.STATUS_ROLE = 2 → s.on XLK.CTRL_TS_EN = true → s.replicas = [k] →
      s.xlk.theta.find? (fun y => y.1 == k + 8) = some (k + 8, sum, n) → 0 < n → s.on (TSC.STATUS_SET k) = false →
      s.guarded k ((s.tscC k).val - roundOpen 51 sum (2 * n) * 2 ^ 24) = false →
      (s.tscC k).floor * (1000000000 * 2 ^ 56) ≤ (s.tscC k).val - roundOpen 51 sum (2 * n) * 2 ^ 24 →
      t.on (TSC.STATUS_SET k) = true ∧ (t.tscC k).val = (s.tscC k).val - roundOpen 51 sum (2 * n) * 2 ^ 24)) ∧
  (∀ (p : Port) (s : State), s.takes p XLK.CMD false → ∃ t, exec (.xlkSwitch p) s = .next t ∧
    (s.xlk.switching.isSome = true → t.xlk = s.xlk ∧ t.f XLK.CMD_CODE_CODE = Code.busy.num) ∧
    (s.xlk.switching = none → s.f XLK.STATUS_ROLE ≠ 1 → t.xlk = s.xlk ∧ t.f XLK.CMD_CODE_CODE = Code.locked.num) ∧
    (s.xlk.switching = none → s.f XLK.STATUS_ROLE = 1 →
      t.xlk.switching = some ⟨(s.xlk.token + 1) % 65536, p, false⟩ ∧ t.xlk.switchAt = s.now ∧ t.f XLK.STATUS_SWITCHING = 1 ∧
        t.linkSent s 7 (switchBody 1 0 ((s.xlk.token + 1) % 65536)))) ∧
  (∀ (p : Port) (s : State), s.takes p XLK.CMD false → ∃ t, exec (.fetchLoops p) s = .next t ∧ t.xlk = s.xlk ∧
    t.f XLK.CMD_CODE_CODE = 0 ∧ (s.f XLK.STATUS_ROLE ≠ 2 → t.mboxHolds p [0]) ∧
    (s.f XLK.STATUS_ROLE = 2 → s.xlk.loops.flatten.length ≤ 63 →
      t.mboxHolds p (BitVec.ofNat 32 s.xlk.loops.length :: s.xlk.loops.flatten))) ∧
  (∀ (p : Port) (s : State), s.takes p XLK.CMD false → ∃ t, exec (.fetchTimes p) s = .next t ∧ t.xlk = s.xlk ∧
    t.f XLK.CMD_CODE_CODE = 0 ∧ (s.f XLK.STATUS_PAIR ≠ 2 → t.mboxHolds p [0]) ∧
    (s.f XLK.STATUS_PAIR = 2 → s.xlk.times.flatten.length ≤ 63 →
      t.mboxHolds p (BitVec.ofNat 32 s.xlk.times.length :: s.xlk.times.flatten))) ∧
  (∀ (p : Port) (s : State), s.takes p XLK.CMD false → ∃ t, exec (.xlkLoopcal p) s = .next t ∧
    (s.on XLK.CTRL_ADMIN = true → t.xlk = s.xlk ∧ t.f XLK.CMD_CODE_CODE = Code.locked.num) ∧
    (s.on XLK.CTRL_ADMIN = false → t.xlk.loopcal = true ∧ t.regs = s.regs)) ∧
  (∀ (d0 d1 : Int) (s : State), s.xlk.loopcal = true → ∃ t, exec (.xlkLoopcalDone d0 d1) s = .next t ∧
    t.xlk.loopcal = false ∧ t.f XLK.CMD_CODE_CODE = 0 ∧
    ∀ lane, lane < 2 →
      t.fi (XLK.LANE_LOOPCAL_DIFF lane) = satSigned 32 (if lane = 0 then d0 else d1) ∧
      t.f (XLK.LANE_TS_RX_PS lane) =
        ((s.f (XLK.LANE_TS_RX_PS lane) : Int) + roundOpen 52 (if lane = 0 then d0 else d1) 2).toNat % 2 ^ 32 ∧
      t.f (XLK.LANE_TS_TX_PS lane) =
        ((s.f (XLK.LANE_TS_TX_PS lane) : Int) + roundOpen 52 (if lane = 0 then d0 else d1) 2).toNat % 2 ^ 32)

/-! The enclave and the fault collector. -/

/-- The operations of the enclave (R553 to R555, R557 to R560, R563 to R565, R569, R570, R573, R574, R576): certificate and report by parts; a report
for a nonce; labels; PTP keys loaded, rolled, erased and listed; ownership and retirement; and what each test instruction does.
Rests on choices of the model: log entries 3, 5, 36, 53, 74, 80, 96. -/
def Obligations.EnclaveOperations : Prop :=
  (∀ (p : Port) (part : BitVec 3) (s : State), s.takes p SEC.OP false → s.f SEC.OP_STATUS_BUSY = 0 →
    ∃ t, exec (.certRead p part) s = .next t ∧ t.f SEC.OP_STATUS_LAST_OP = 1 ∧
      (part.toNat ≤ 3 → t.f SEC.OP_STATUS_CODE = 0 ∧ t.mboxHolds p (partWords s.certificate part.toNat)) ∧
      (3 < part.toNat → t.f SEC.OP_STATUS_CODE = Code.badArgument.num)) ∧
  (∀ (p : Port) (s : State), s.takes p SEC.OP false → s.f SEC.OP_STATUS_BUSY = 0 →
    ∃ t, exec (.attest p) s = .next t ∧
      (∀ ws, s.mboxIn p 8 = some ws → t.sec = { s.sec with op := some ⟨2, p, ws, s.w SEC.OP_ARG⟩ } ∧ t.f SEC.OP_STATUS_BUSY = 1) ∧
      (s.mboxIn p 8 = none → t.f SEC.OP_STATUS_CODE = Code.badArgument.num ∧ t.f SEC.OP_STATUS_BUSY = 0)) ∧
  (∀ (o : SecOp) (s : State), s.sec.op = some o → o.opcode = 2 → s.on MAN.STATUS_SIGNING = false →
    ∃ t, exec .attestDone s = .next t ∧ t.sec.op = none ∧ t.sec.reportSeq = s.sec.reportSeq + 1 ∧
      t.sec.report = some (State.attestReport { s with sec := { s.sec with reportSeq := s.sec.reportSeq + 1 } } (wordsBe o.input)) ∧
      t.w (HOST.MBOX_STAT o.port) = 0 ∧ t.f SEC.OP_STATUS_CODE = 0 ∧ t.f SEC.OP_STATUS_BUSY = 0) ∧
  (∀ (p : Port) (part : BitVec 3) (s : State), s.takes p SEC.OP false → s.f SEC.OP_STATUS_BUSY = 0 →
    ∃ t, exec (.attestRead p part) s = .next t ∧
      (∀ r, s.sec.report = some r → part.toNat ≤ 5 → t.f SEC.OP_STATUS_CODE = 0 ∧ t.mboxHolds p (partWords r part.toNat)) ∧
      (s.sec.report = none ∨ 5 < part.toNat → t.f SEC.OP_STATUS_CODE = Code.badArgument.num)) ∧
  (∀ (p : Port) (s : State), s.takes p SEC.OP false → s.f SEC.OP_STATUS_BUSY = 0 →
    ∃ t, exec (.provisionLabel p) s = .next t ∧
      (s.lifecycle = lcUnowned ∨ s.lifecycle = lcRetired → t.f SEC.OP_STATUS_CODE = Code.locked.num ∧ t.sec.fuse = s.sec.fuse) ∧
      (∀ ws, s.lifecycle = lcManufacture ∨ s.lifecycle = lcOwned → s.mboxIn p 58 = some ws →
        t.sec = { s.sec with op := some ⟨4, p, ws, s.w SEC.OP_ARG⟩, verify := s.sec.verify ++ [.request] } ∧ t.f SEC.OP_STATUS_BUSY = 1)) ∧
  (∀ (o : SecOp) (s : State), s.sec.op = some o → o.opcode = 4 → s.verifyTurn .request = true →
    let b := wordsBe o.input
    let ok := s.requestHead b 0x4B && !allZero (slice b 0x18 16) &&
      Config.verifyByHash (if s.lifecycle = lcManufacture then Config.dunfoegKeyHash else s.sec.ownerHash)
        (Config.sha384 (b.take 0x88)) (slice b 0x88 96)
    ∃ t, exec .provisionLabelDone s = .next t ∧ t.sec.op = none ∧ t.f SEC.OP_STATUS_BUSY = 0 ∧
      (ok = true → t.f SEC.OP_STATUS_CODE = 0 ∧
        t.mboxHolds o.port (beWords ((Config.labelWrap b ++ List.replicate 60 0).take 60))) ∧
      (ok = false → t.f SEC.OP_STATUS_CODE = Code.badArgument.num)) ∧
  (∀ (p : Port) (i : Image) (ws : List Word) (key : List Byte) (s : State), s.takes p SEC.OP false → s.f SEC.OP_STATUS_BUSY = 0 →
    s.fab.img = some i → s.landed = true → allZero i.keyLabel = false → s.mboxIn p 18 = some ws →
    Config.keyUnwrap (i.keyLabel ++ s.deviceId ++ (wordsBe ws).take 12) ((wordsBe ws).drop 12) = some key →
    s.sec.keySerial < beAt (wordsBe ws) 8 4 → beAt (wordsBe ws) 4 4 ≠ 0 →
    ((s.spp (beAt (wordsBe ws) 0 1)).cur.map (fun k => k.id.toNat)) ≠ some (beAt (wordsBe ws) 4 4) →
    ∃ t, exec (.keyLoad p) s = .next t ∧ t.f SEC.OP_STATUS_CODE = 0 ∧ t.sec.keySerial = beAt (wordsBe ws) 8 4 ∧
      t.w (HOST.MBOX_STAT p) = 0 ∧
      t.spp (beAt (wordsBe ws) 0 1) = { s.spp (beAt (wordsBe ws) 0 1) with
        next := some ⟨BitVec.ofNat 32 (beAt (wordsBe ws) 4 4), (key ++ List.replicate 32 0).take 32⟩ }) ∧
  (∀ (p : Port) (n : BitVec 8) (s : State), s.takes p SEC.OP false → s.f SEC.OP_STATUS_BUSY = 0 →
    ∃ t, exec (.keyRoll p n) s = .next t ∧
      (∀ k, (s.spp n.toNat).next = some k → t.spp n.toNat = { cur := some k, next := none } ∧ t.f SEC.OP_STATUS_CODE = 0) ∧
      ((s.spp n.toNat).next = none → t.sec.keys = s.sec.keys ∧ t.f SEC.OP_STATUS_CODE = Code.badArgument.num)) ∧
  (∀ (p : Port) (n : BitVec 8) (s : State), s.takes p SEC.OP false → s.f SEC.OP_STATUS_BUSY = 0 →
    ∃ t, exec (.keyErase p n) s = .next t ∧ t.spp n.toNat = {} ∧ t.f SEC.OP_STATUS_CODE = 0 ∧
      ∀ m, m ≠ n.toNat → t.spp m = s.spp m) ∧
  (∀ (p : Port) (n : BitVec 8) (s : State), s.takes p SEC.OP false → s.f SEC.OP_STATUS_BUSY = 0 →
    ∃ t, exec (.keyList p n) s = .next t ∧ t.sec.keys = s.sec.keys ∧ t.f SEC.OP_STATUS_CODE = 0 ∧
      t.mboxHolds p [((s.spp n.toNat).cur.map PtpKey.id).getD 0, ((s.spp n.toNat).next.map PtpKey.id).getD 0]) ∧
  (∀ (p : Port) (s : State), s.takes p SEC.OP false → s.f SEC.OP_STATUS_BUSY = 0 →
    ∃ t, exec (.takeOwnership p) s = .next t ∧
      (s.lifecycle ≠ lcUnowned ∨ s.sec.ownHash.isSome = true → t.f SEC.OP_STATUS_CODE = Code.locked.num) ∧
      (∀ ws, s.lifecycle = lcUnowned → s.sec.ownHash = none → s.sec.verify = [] → s.mboxIn p 64 = some ws → s.requestHead (wordsBe ws) 0x4F = true →
        allZero (slice (wordsBe ws) 120 40) = true →
        Config.ecdsaVerify (slice (wordsBe ws) 24 96) (Config.sha384 ((wordsBe ws).take 160)) (slice (wordsBe ws) 160 96) = true →
        s.f FAB.STATE_SLIPWAY = 1 →
        t.f FAB.STATE_SLIPWAY = 2 ∧ t.sec = { s.sec with op := some ⟨9, p, ws, s.w SEC.OP_ARG⟩ } ∧ t.f SEC.OP_STATUS_BUSY = 1)) ∧
  (∀ (o : SecOp) (i : Image) (d : List (Nat × Nat × List Byte)) (s : State), s.sec.op = some o → o.opcode = 9 →
    s.sec.ownHash = none → .request ∉ s.sec.verify → s.ecc = [] →
    s.judgeSlipway o.arg (some (Config.sha384 (slice (wordsBe o.input) 24 96))) true = .good i d →
    (∃ t, exec (.takeOwnershipDone .recorded) s = .next t ∧ t.sec.op = some o ∧ t.sec.ownerHash = s.sec.ownerHash ∧
      t.sec.fuse = s.sec.fuse.filter (fun x => x != .own (Config.sha384 (slice (wordsBe o.input) 24 96))) ++
        [.own (Config.sha384 (slice (wordsBe o.input) 24 96))]) ∧
    (∃ t, exec (.takeOwnershipDone .fused) s = .next t ∧ t.sec.ownerHash = Config.sha384 (slice (wordsBe o.input) 24 96) ∧
      t.sec.fuse = s.sec.fuse.filter (fun x => x != .own (Config.sha384 (slice (wordsBe o.input) 24 96))) ∧
      t.lifecycle = lcOwned ∧ t.f SEC.STATE_OWNER_FUSED = 1 ∧ t.f FAB.STATE_SLIPWAY = 3 ∧ t.f FAB.STATE_VSLOT = 3 ∧
      t.sec.op = none ∧ t.f SEC.OP_STATUS_CODE = 0) ∧
    (∃ t, exec (.takeOwnershipDone .failed) s = .next t ∧ t.sec.ownerHash = s.sec.ownerHash ∧ t.sec.op = none ∧
      t.f FAB.STATE_SLIPWAY = 1 ∧ t.f SEC.OP_STATUS_CODE = s.openCode ∧ t.on SEC.EVENT_FUSE_ERROR = true)) ∧
  (∀ (h : List Byte) (s : State), s.sec.ownHash = some h →
    ∃ t, exec (.takeOwnershipDone .fused) s = .next t ∧ t.sec.ownerHash = h ∧ t.lifecycle = lcOwned ∧
      t.f SEC.STATE_OWNER_FUSED = 1 ∧ t.sec.fuse = s.sec.fuse.filter (fun x => x != .own h)) ∧
  (∀ (o : SecOp) (c off : Nat) (stage : OwnStage) (s : State), s.sec.op = some o → o.opcode = 9 → s.sec.ownHash = none →
    .request ∉ s.sec.verify → s.ecc = [] → s.flt.injCheck = false → s.reaction 2 0x08 < 8 → s.reaction 2 0x09 < 8 →
    s.judgeSlipway o.arg (some (Config.sha384 (slice (wordsBe o.input) 24 96))) true = .bad c off →
    ∃ t, exec (.takeOwnershipDone stage) s = .next t ∧ t.sec.op = none ∧ t.sec.fuse = s.sec.fuse ∧
      t.f SEC.OP_STATUS_CODE = Code.badArgument.num ∧ t.f FAB.STATE_SLIPWAY = 1) ∧
  (∀ (p : Port) (s : State), s.takes p SEC.OP false → s.f SEC.OP_STATUS_BUSY = 0 →
    ∃ t, exec (.secRetire p) s = .next t ∧
      (s.lifecycle ≠ lcOwned ∨ s.on MAN.STATUS_SIGNING = true → t.f SEC.OP_STATUS_CODE = Code.locked.num ∧
        t.sec.keys = s.sec.keys) ∧
      (∀ ws, s.lifecycle = lcOwned → s.on MAN.STATUS_SIGNING = false → s.sec.verify = [] → s.mboxIn p 32 = some ws →
        s.requestHead (wordsBe ws) 0x52 = true → allZero (slice (wordsBe ws) 24 8) = true →
        Config.verifyByHash s.sec.ownerHash (Config.sha384 ((wordsBe ws).take 32)) (slice (wordsBe ws) 32 96) = true →
        t.sec.keys = [] ∧ t.sec.taKey = none ∧ t.sec.fuse = s.sec.fuse.filter (fun x => x != .retire) ++ [.retire] ∧
          t.sec.op = some ⟨0xA, p, ws, s.w SEC.OP_ARG⟩ ∧
          t.f SEC.STATE_KEYED = 0 ∧ t.f SEC.STATE_TA_PRESENT = 0 ∧ t.f SEC.STATE_SECRET_OFF = 1 ∧ t.f SEC.OP_STATUS_BUSY = 1)) ∧
  (∀ (s : State), .retire ∈ s.sec.fuse →
    (∃ t, exec (.secRetireDone true) s = .next t ∧ t.lifecycle = lcRetired ∧ t.sec.fuse = s.sec.fuse.filter (fun x => x != .retire)) ∧
    (∃ t, exec (.secRetireDone false) s = .next t ∧ t.sec.fuse = s.sec.fuse.filter (fun x => x != .retire) ∧ t.on SEC.EVENT_FUSE_ERROR = true ∧
      ∀ o, s.sec.op = some o → o.opcode = 0xA → t.sec.op = none ∧ t.f SEC.OP_STATUS_CODE = 0)) ∧
  (∀ (i : TapInstr) (s : State), i = .extest ∨ i = .clamp ∨ i = .highz →
    ∃ t, exec (.tapInstruction i) s = .next t ∧ t.sec.tapHold = true ∧ t.top.phase = .held ∧ t.mem = []) ∧
  (∀ (i : TapInstr) (s : State), i = .bypass ∨ i = .samplePreload ∨ i = .idcode →
    (s.sec.tapHold = false → exec (.tapInstruction i) s = .next s) ∧
    (s.sec.tapHold = true → ∃ t, exec (.tapInstruction i) s = .next t ∧ t.sec.tapHold = false ∧ t.top.phase = .straps ∧
      t.f TOP.RST_STAT_COLD_CAUSE = 3)) ∧
  (∀ (i : TapInstr) (s : State), i = .deviceTest ∨ i = .other → s.lifecycle = lcManufacture → s.sec.tapHold = false →
    exec (.tapInstruction i) s = .next s) ∧
  (∀ (i : TapInstr) (s : State), i = .deviceTest ∨ i = .other → s.lifecycle ≠ lcManufacture → s.sec.tapHold = false →
    s.flt.injCheck = false → s.reaction 3 0x13 < 8 →
    ∃ t, exec (.tapInstruction i) s = .next t ∧ t.on SEC.EVENT_TEST_ACCESS = true)

/-- The fault collector (R661, R663, R666, R667, R669, R671, R673, R674, R676, R677): what a fault message leaves, by the reactions in force; POP, the
releases, injection and its end, and the two timers.
Rests on choices of the model: log entries 12, 13, 16. -/
def Obligations.FaultCollector : Prop :=
  (∀ (m : FaultMsg) (s : State), s.top.phase ≠ .held → m.source ≠ 0x3FF → 1 ≤ m.kind.toNat → m.kind.toNat ≤ 0x16 → s.flt.injCheck = false →
    s.reaction (m.source.toNat / 64) m.kind.toNat < 8 →
    ∃ t, exec (.faultMessage m) s = .next t ∧
      t.f FLT.COUNT_MESSAGES = min (s.f FLT.COUNT_MESSAGES + 1) (2 ^ 16 - 1) ∧
      t.f ⟨FLT.STATUS, m.source.toNat / 64, m.source.toNat / 64⟩ = 1 ∧
      (s.on FLT.FIRST0_VALID = false → t.on FLT.FIRST0_VALID = true ∧ t.f FLT.FIRST0_INJ = 0 ∧
        t.f FLT.FIRST0_SOURCE = m.source.toNat ∧ t.f FLT.FIRST0_KIND = m.kind.toNat ∧ t.w FLT.FIRST1 = m.addr.toNat ∧
        t.w FLT.FIRST2 = s.ms32) ∧
      (s.flt.queue.all (fun e => !(e.source == m.source.toNat && e.kind == m.kind.toNat && e.addr == m.addr)) = true →
        s.flt.queue.length < 128 →
        t.flt.queue = s.flt.queue ++
          [⟨false, s.flt.lost, m.source.toNat, m.kind.toNat, 0, m.addr, s.uptimeMs⟩]) ∧
      (bitAt (s.reaction (m.source.toNat / 64) m.kind.toNat) 0 = true →
        t.on FLT.EVENT_RECORD = true ∧ t.f ⟨FLT.CLASS_EVENT, m.source.toNat / 64, m.source.toNat / 64⟩ = 1) ∧
      (bitAt (s.reaction (m.source.toNat / 64) m.kind.toNat) 1 = true → t.f FLT.STATUS_TRAPPED = 1 ∨ s.on FLT.TRAP0_VALID = true) ∧
      (bitAt (s.reaction (m.source.toNat / 64) m.kind.toNat) 2 = true → t.f FLT.STATUS_ERR_PIN = 1 ∧ t.on FLT.EVENT_ERR_PIN = true ∨
        s.on FLT.STATUS_ERR_PIN = true)) ∧
  (∀ (m : FaultMsg) (s : State), s.top.phase ≠ .held → m.source ≠ 0x3FF → m.kind = 0x17 ∨ (1 ≤ m.kind.toNat ∧ m.kind.toNat ≤ 0x16 ∧ s.flt.injCheck = true) →
    ∃ t, exec (.faultMessage m) s = .next t ∧ t.flt.injCheck = false ∧
      t.f FLT.COUNT_MESSAGES = min (s.f FLT.COUNT_MESSAGES + 1) (2 ^ 16 - 1) ∧ t.f ⟨FLT.STATUS, 15, 15⟩ = 1 ∧
      t.f FLT.STATUS_ERR_PIN = 1 ∧ (s.flt.injCheck = true → t.on FLT.EVENT_INJ_DONE = true)) ∧
  (∀ (m : FaultMsg) (s : State), s.top.phase = .held ∨ m.kind = 0 ∨ 0x17 < m.kind.toNat ∨ m.source = 0x3FF → exec (.faultMessage m) s = .next s) ∧
  (∀ (p : Port) (s : State), s.takes p FLT.CMD false → ∃ t, exec (.fltPop p) s = .next t ∧ t.f FLT.CODE_CODE = 0 ∧
    (s.flt.queue = [] → t.flt = s.flt ∧ t.mboxHolds p [0x80000000, 0, 0, 0]) ∧
    (∀ e es, s.flt.queue = e :: es → t.flt = { s.flt with queue := es } ∧ t.f FLT.STATUS_QLEVEL = es.length % 256 ∧
      t.mboxHolds p [BitVec.ofNat 32 (b2n e.inj * 2 ^ 30 + b2n e.lost * 2 ^ 29 + e.source * 2 ^ 16 + e.kind * 2 ^ 8 + e.repeats),
        e.addr, BitVec.ofNat 32 e.time, BitVec.ofNat 32 (e.time / 2 ^ 32 % 2 ^ 16)])) ∧
  (∀ (p : Port) (s : State), s.takes p FLT.CMD false → ∃ t, exec (.errRelease p) s = .next t ∧ t.f FLT.CODE_CODE = 0 ∧
    t.flt = { s.flt with errReleased := true } ∧ (s.flt.errDone = true → t.f FLT.STATUS_ERR_PIN = 0 ∧ t.f FLT.STATUS_ERR_HELD = 0) ∧
    (s.flt.errDone = false → t.f FLT.STATUS_ERR_PIN = s.f FLT.STATUS_ERR_PIN)) ∧
  (∀ (p : Port) (s : State), s.takes p FLT.CMD false → ∃ t, exec (.trapClear p) s = .next t ∧ t.f FLT.CODE_CODE = 0 ∧
    t.w FLT.TRAP0 = 0 ∧ t.w FLT.TRAP1 = 0 ∧ t.w FLT.TRAP2 = 0 ∧ t.f FLT.STATUS_TRAPPED = 0) ∧
  (∀ (p : Port) (s : State), s.takes p FLT.CMD true → ∃ t, exec (.injArm p) s = .next t ∧
    (s.on FLT.STATUS_INJ_PEND = true → t.flt = s.flt ∧ t.f FLT.CODE_CODE = Code.busy.num) ∧
    (s.on FLT.STATUS_INJ_PEND = false →
      (s.f FLT.INJ_TARGET = 1 → s.f FLT.INJ_ADDR_OFFSET % 8 = 0 → s.spClass (s.f FLT.INJ_ADDR_OFFSET / spSize) ≠ 0 →
        (s.f FLT.INJ_BITS = 1 ∨ s.f FLT.INJ_BITS = 2) →
        t.flt = { s.flt with injWord := some (s.f FLT.INJ_ADDR_OFFSET, s.f FLT.INJ_BITS) } ∧
          t.f FLT.STATUS_INJ_PEND = 1 ∧ t.f FLT.CODE_CODE = 0) ∧
      (s.f FLT.INJ_TARGET = 2 → s.f FLT.INJ_INST < 36 → s.engState (s.f FLT.INJ_INST) = 1 →
        t.flt = { s.flt with injEngine := some (s.f FLT.INJ_INST) } ∧ t.f FLT.STATUS_INJ_PEND = 1 ∧ t.f FLT.CODE_CODE = 0) ∧
      (s.f FLT.INJ_TARGET = 3 → t.flt = { s.flt with injWindows := 4 } ∧ t.f FLT.STATUS_INJ_PEND = 1 ∧ t.f FLT.CODE_CODE = 0) ∧
      (s.f FLT.INJ_TARGET = 4 → t.flt = { s.flt with injAvs := true } ∧ t.f FLT.STATUS_INJ_PEND = 1 ∧ t.f FLT.CODE_CODE = 0) ∧
      (s.f FLT.INJ_TARGET = 5 → 1 ≤ s.f FLT.INJ_MSG_KIND → s.f FLT.INJ_MSG_KIND ≤ 0x16 → s.flt.injCheck = false →
        s.reaction (s.f FLT.INJ_MSG_SOURCE / 64) (s.f FLT.INJ_MSG_KIND) < 8 →
        t.f FLT.CODE_CODE = 0 ∧ t.on FLT.EVENT_INJ_DONE = true ∧
          t.f FLT.COUNT_MESSAGES = min (s.f FLT.COUNT_MESSAGES + 1) (2 ^ 16 - 1)) ∧
      (s.f FLT.INJ_TARGET = 6 → t.flt = { s.flt with injCheck := true } ∧ t.f FLT.STATUS_INJ_PEND = 1 ∧ t.f FLT.CODE_CODE = 0) ∧
      (s.f FLT.INJ_TARGET = 0 ∨ 6 < s.f FLT.INJ_TARGET → t.flt = s.flt ∧ t.f FLT.CODE_CODE = Code.badArgument.num))) ∧
  (∀ (p : Port) (s : State), s.takes p FLT.CMD true → ∃ t, exec (.injCancel p) s = .next t ∧ t.f FLT.CODE_CODE = 0 ∧
    t.f FLT.STATUS_INJ_PEND = 0 ∧ t.flt = { s.flt with
      injWord := none, injWindows := 0, injEngine := none, injAvs := false, injCheck := false }) ∧
  (∀ (s : State), s.on FLT.STATUS_ERR_PIN = true → s.flt.errDone = false → s.flt.errEnd ≤ s.now →
    ∃ t, exec .errWidthExpiry s = .next t ∧ t.flt = { s.flt with errDone := true } ∧
      (s.flt.errReleased = true → t.f FLT.STATUS_ERR_PIN = 0) ∧
      (s.flt.errReleased = false → t.f FLT.STATUS_ERR_PIN = 1 ∧ t.f FLT.STATUS_ERR_HELD = 1)) ∧
  (∀ (c : Fin 16) (s : State), s.on ⟨FLT.STATUS, c, c⟩ = true →
    Tab.get (fun _ => 0) s.flt.lastMsg c + s.f FLT.QUIET_MS * 2000000 ≤ s.now →
    ∃ t, exec (.quietPeriodExpiry c) s = .next t ∧ t.f ⟨FLT.STATUS, c, c⟩ = 0 ∧ t.on FLT.EVENT_QUIET = true ∧
      t.f FLT.RECOVER_QUIET_EXITS = min (s.f FLT.RECOVER_QUIET_EXITS + 1) (2 ^ 16 - 1) ∧
      (c.val = 6 → t.w FLT.WITHHELD_LND = 0) ∧ (c.val = 0xC → t.w FLT.WITHHELD_PRT = 0))
end

