-- ==== Sys2Proof/Laws/Tab.lean ====
section
/-! SUPPORT. What the operations over sparse tables answer, and that each keeps the canonical form. -/

set_option Elab.async false

namespace Sys2Proof.Machine

variable {α : Type}

/-- Every key of the table is above `k`. -/
def Tab.above (k : Nat) (t : Tab α) : Prop := ∀ e ∈ t, k < e.1

/-! What a write leaves to be read. -/

theorem Tab.get_erase_self (d : Nat → α) (t : Tab α) (k : Nat) : Tab.get d (Tab.erase k t) k = d k := by
  induction t with
  | nil => rfl
  | cons e t ih => obtain ⟨j, v⟩ := e; by_cases h : j = k <;> simp [Tab.erase, Tab.get, h, ih]

theorem Tab.get_erase_other (d : Nat → α) (t : Tab α) {k j : Nat} (h : j ≠ k) :
    Tab.get d (Tab.erase k t) j = Tab.get d t j := by
  induction t with
  | nil => rfl
  | cons e t ih =>
    obtain ⟨i, v⟩ := e
    by_cases hi : i = k
    · simp [Tab.erase, Tab.get, hi, ih, h.symm]
    · by_cases hj : i = j <;> simp [Tab.erase, Tab.get, hi, hj, ih, h]

theorem Tab.get_insert_other (d : Nat → α) (t : Tab α) {k j : Nat} (v : α) (h : j ≠ k) :
    Tab.get d (Tab.insert k v t) j = Tab.get d t j := by
  induction t with
  | nil => simp [Tab.insert, Tab.get, h.symm]
  | cons e t ih =>
    obtain ⟨i, w⟩ := e
    by_cases hi : k < i
    · simp [Tab.insert, Tab.get, hi, h.symm]
    · by_cases hj : i = j
      · subst hj; simp [Tab.insert, Tab.get, hi]
      · simp [Tab.insert, Tab.get, hi, hj, ih]

theorem Tab.get_insert_erase (d : Nat → α) (t : Tab α) (k : Nat) (v : α) :
    Tab.get d (Tab.insert k v (Tab.erase k t)) k = v := by
  induction t with
  | nil => simp [Tab.erase, Tab.insert, Tab.get]
  | cons e t ih =>
    obtain ⟨i, w⟩ := e
    by_cases hi : i = k
    · simpa [Tab.erase, hi] using ih
    · by_cases hk : k < i
      · simp [Tab.erase, hi, Tab.insert, hk, Tab.get]
      · simp [Tab.erase, hi, Tab.insert, hk, Tab.get, ih]

/-- A read after a write gives the value written; every other key reads as before. -/
theorem Tab.get_set [DecidableEq α] (d : Nat → α) (t : Tab α) (k j : Nat) (v : α) :
    Tab.get d (Tab.set d t k v) j = if j = k then v else Tab.get d t j := by
  unfold Tab.set
  by_cases hj : j = k
  · subst hj
    split
    · rename_i h; simp [Tab.get_erase_self, h]
    · simp [Tab.get_insert_erase]
  · split
    · simp [Tab.get_erase_other d t hj]
    · simp [Tab.get_insert_other d _ v hj, Tab.get_erase_other d t hj]

@[simp] theorem Tab.get_set_self [DecidableEq α] (d : Nat → α) (t : Tab α) (k : Nat) (v : α) :
    Tab.get d (Tab.set d t k v) k = v := by simp [Tab.get_set]

theorem Tab.get_set_other [DecidableEq α] (d : Nat → α) (t : Tab α) {k j : Nat} (v : α) (h : j ≠ k) :
    Tab.get d (Tab.set d t k v) j = Tab.get d t j := by simp [Tab.get_set, h]

/-! The canonical form is kept. -/

theorem Tab.above_mono {t : Tab α} {k j : Nat} (h : j ≤ k) (a : Tab.above k t) : Tab.above j t :=
  fun e he => Nat.lt_of_le_of_lt h (a e he)

theorem Tab.wf_cons [DecidableEq α] (d : Nat → α) (k : Nat) (v : α) (t : Tab α) :
    Tab.wf d ((k, v) :: t) = true ↔ v ≠ d k ∧ Tab.above k t ∧ Tab.wf d t = true := by
  simp [Tab.wf, Tab.above, and_assoc]

theorem Tab.mem_erase {t : Tab α} {k : Nat} {e : Nat × α} (h : e ∈ Tab.erase k t) : e ∈ t ∧ e.1 ≠ k := by
  induction t with
  | nil => simp [Tab.erase] at h
  | cons x t ih =>
    obtain ⟨j, v⟩ := x
    by_cases hj : j = k
    · have := ih (by simpa [Tab.erase, hj] using h); exact ⟨List.mem_cons_of_mem _ this.1, this.2⟩
    · simp only [Tab.erase, hj, if_false, List.mem_cons] at h
      rcases h with rfl | h
      · exact ⟨List.mem_cons_self, hj⟩
      · exact ⟨List.mem_cons_of_mem _ (ih h).1, (ih h).2⟩

theorem Tab.mem_insert {t : Tab α} {k : Nat} {v : α} {e : Nat × α} (h : e ∈ Tab.insert k v t) : e = (k, v) ∨ e ∈ t := by
  induction t with
  | nil => simp [Tab.insert] at h; exact .inl h
  | cons x t ih =>
    obtain ⟨j, w⟩ := x
    by_cases hj : k < j
    · simpa [Tab.insert, hj] using h
    · simp only [Tab.insert, hj, if_false, List.mem_cons] at h
      rcases h with rfl | h
      · exact .inr List.mem_cons_self
      · exact (ih h).imp_right (List.mem_cons_of_mem _)

theorem Tab.wf_erase [DecidableEq α] (d : Nat → α) {t : Tab α} (k : Nat) (h : Tab.wf d t = true) :
    Tab.wf d (Tab.erase k t) = true := by
  induction t with
  | nil => rfl
  | cons e t ih =>
    obtain ⟨j, v⟩ := e
    rw [Tab.wf_cons] at h
    by_cases hj : j = k
    · simpa [Tab.erase, hj] using ih h.2.2
    · simp only [Tab.erase, hj, if_false, Tab.wf_cons]
      exact ⟨h.1, fun e he => h.2.1 e (Tab.mem_erase he).1, ih h.2.2⟩

theorem Tab.wf_insert [DecidableEq α] (d : Nat → α) {t : Tab α} {k : Nat} {v : α} (hv : v ≠ d k)
    (hk : ∀ e ∈ t, e.1 ≠ k) (h : Tab.wf d t = true) : Tab.wf d (Tab.insert k v t) = true := by
  induction t with
  | nil => simpa [Tab.insert, Tab.wf] using hv
  | cons e t ih =>
    obtain ⟨j, w⟩ := e
    have hw := (Tab.wf_cons d j w t).1 h
    have hjk : j ≠ k := hk (j, w) List.mem_cons_self
    by_cases hj : k < j
    · simp only [Tab.insert, hj, if_true, Tab.wf_cons]
      refine ⟨hv, ?_, hw⟩
      intro e he
      rcases List.mem_cons.1 he with rfl | he
      · exact hj
      · exact Nat.lt_trans hj (hw.2.1 e he)
    · simp only [Tab.insert, hj, if_false, Tab.wf_cons]
      refine ⟨hw.1, ?_, ih (fun e he => hk e (List.mem_cons_of_mem _ he)) hw.2.2⟩
      intro e he
      rcases Tab.mem_insert he with rfl | he
      · exact Nat.lt_of_le_of_ne (Nat.le_of_not_lt hj) hjk
      · exact hw.2.1 e he

theorem Tab.wf_set [DecidableEq α] (d : Nat → α) {t : Tab α} (k : Nat) (v : α) (h : Tab.wf d t = true) :
    Tab.wf d (Tab.set d t k v) = true := by
  unfold Tab.set
  split
  · exact Tab.wf_erase d k h
  · rename_i hv
    exact Tab.wf_insert d hv (fun e he => (Tab.mem_erase he).2) (Tab.wf_erase d k h)

theorem Tab.wf_filter [DecidableEq α] (d : Nat → α) {t : Tab α} (p : Nat × α → Bool) (h : Tab.wf d t = true) :
    Tab.wf d (t.filter p) = true := by
  induction t with
  | nil => rfl
  | cons e t ih =>
    obtain ⟨j, v⟩ := e
    rw [Tab.wf_cons] at h
    by_cases hp : p (j, v) = true
    · rw [List.filter_cons_of_pos hp]
      exact (Tab.wf_cons d j v _).2 ⟨h.1, fun e he => h.2.1 e (List.mem_filter.1 he).1, ih h.2.2⟩
    · rw [List.filter_cons_of_neg hp]; exact ih h.2.2

theorem Tab.wf_keep [DecidableEq α] (d : Nat → α) {t : Tab α} (p : Nat → Bool) (h : Tab.wf d t = true) :
    Tab.wf d (Tab.keep p t) = true := Tab.wf_filter d _ h

theorem Tab.wf_remap [DecidableEq α] (d : Nat → α) (g : Nat → α → α) {t : Tab α} (h : Tab.wf d t = true) :
    Tab.wf d (Tab.remap d g t) = true := by
  induction t with
  | nil => rfl
  | cons e t ih =>
    obtain ⟨j, v⟩ := e
    have hw := (Tab.wf_cons d j v t).1 h
    by_cases hg : g j v = d j
    · simpa [Tab.remap, hg] using ih hw.2.2
    · have : Tab.remap d g ((j, v) :: t) = (j, g j v) :: Tab.remap d g t := by simp [Tab.remap, hg]
      rw [this, Tab.wf_cons]
      refine ⟨hg, ?_, ih hw.2.2⟩
      intro e he
      obtain ⟨x, hx, hxe⟩ := List.mem_filterMap.1 he
      have : e.1 = x.1 := by
        split at hxe
        · cases hxe
        · cases hxe; rfl
      exact this ▸ hw.2.1 x hx

theorem Tab.wf_setList [DecidableEq α] (d : Nat → α) {t : Tab α} (k : Nat) (vs : List α) (h : Tab.wf d t = true) :
    Tab.wf d (Tab.setList d t k vs) = true := by
  induction vs generalizing t k with
  | nil => exact h
  | cons v vs ih => exact ih (k + 1) (Tab.wf_set d k v h)

/-- What a list of values written at rising keys leaves to be read. -/
theorem Tab.get_setList [DecidableEq α] (d : Nat → α) (t : Tab α) (lo : Nat) (vs : List α) (j : Nat) :
    Tab.get d (Tab.setList d t lo vs) j =
      if h : lo ≤ j ∧ j - lo < vs.length then vs[j - lo]'h.2 else Tab.get d t j := by
  induction vs generalizing t lo with
  | nil => simp [Tab.setList]
  | cons v vs ih =>
    rw [Tab.setList, ih]
    by_cases h1 : lo + 1 ≤ j ∧ j - (lo + 1) < vs.length
    · have h2 : lo ≤ j ∧ j - lo < (v :: vs).length := by simp only [List.length_cons]; omega
      have e : j - lo = (j - (lo + 1)) + 1 := by omega
      simp [h1, h2, e]
    · by_cases h3 : j = lo
      · subst h3; simp
      · have h2 : ¬(lo ≤ j ∧ j - lo < (v :: vs).length) := by simp only [List.length_cons]; omega
        rw [dif_neg h1, dif_neg h2, Tab.get_set_other d t v h3]

theorem Tab.mem_moved {t : Tab α} {lo n dest : Nat} {e : Nat × α} (h : e ∈ Tab.moved t lo n dest) :
    dest ≤ e.1 ∧ e.1 < dest + n := by
  obtain ⟨x, hx, rfl⟩ := List.mem_map.1 h
  have := (List.mem_filter.1 hx).2
  simp only [decide_eq_true_eq] at this
  dsimp only
  omega

theorem Tab.wf_append [DecidableEq α] (d : Nat → α) {t u : Tab α} (ht : Tab.wf d t = true) (hu : Tab.wf d u = true)
    (h : ∀ e ∈ t, Tab.above e.1 u) : Tab.wf d (t ++ u) = true := by
  induction t with
  | nil => exact hu
  | cons e t ih =>
    obtain ⟨k, v⟩ := e
    have hw := (Tab.wf_cons d k v t).1 ht
    rw [List.cons_append, Tab.wf_cons]
    refine ⟨hw.1, ?_, ih hw.2.2 (fun e he => h e (List.mem_cons_of_mem _ he))⟩
    intro e he
    rcases List.mem_append.1 he with he | he
    · exact hw.2.1 e he
    · exact h (k, v) List.mem_cons_self e he

theorem Tab.wf_moved [DecidableEq α] (z : α) {t : Tab α} (lo n dest : Nat) (h : Tab.wf (fun _ => z) t = true) :
    Tab.wf (fun _ => z) (Tab.moved t lo n dest) = true := by
  have hf : Tab.wf (fun _ => z) (t.filter (fun e => decide (lo ≤ e.1 ∧ e.1 < lo + n))) = true := Tab.wf_filter _ _ h
  have hm : ∀ e ∈ t.filter (fun e => decide (lo ≤ e.1 ∧ e.1 < lo + n)), lo ≤ e.1 := by
    intro e he; have := (List.mem_filter.1 he).2; simp only [decide_eq_true_eq] at this; exact this.1
  unfold Tab.moved
  generalize t.filter (fun e => decide (lo ≤ e.1 ∧ e.1 < lo + n)) = u at hf hm
  induction u with
  | nil => rfl
  | cons e u ih =>
    obtain ⟨k, v⟩ := e
    have hw := (Tab.wf_cons _ k v u).1 hf
    rw [List.map_cons, Tab.wf_cons]
    refine ⟨hw.1, ?_, ih hw.2.2 (fun e he => hm e (List.mem_cons_of_mem _ he))⟩
    intro e he
    obtain ⟨x, hx, rfl⟩ := List.mem_map.1 he
    have h1 := hw.2.1 x hx
    have h2 := hm (k, v) List.mem_cons_self
    dsimp only at *
    omega

/-- A copy of a run of keys into another keeps the canonical form of the target. -/
theorem Tab.wf_copyFrom [DecidableEq α] (z : α) {t u : Tab α} (lo n dest : Nat) (ht : Tab.wf (fun _ => z) t = true)
    (hu : Tab.wf (fun _ => z) u = true) : Tab.wf (fun _ => z) (Tab.copyFrom t u lo n dest) = true := by
  unfold Tab.copyFrom
  refine Tab.wf_append _ (Tab.wf_append _ (Tab.wf_filter _ _ ht) (Tab.wf_moved z lo n dest hu) ?_) (Tab.wf_filter _ _ ht) ?_
  · intro e he x hx
    have h1 := (List.mem_filter.1 he).2
    have h2 := Tab.mem_moved hx
    simp only [decide_eq_true_eq] at h1
    omega
  · intro e he x hx
    have h2 := (List.mem_filter.1 hx).2
    simp only [decide_eq_true_eq] at h2
    rcases List.mem_append.1 he with he | he
    · have h1 := (List.mem_filter.1 he).2
      simp only [decide_eq_true_eq] at h1
      omega
    · have h1 := Tab.mem_moved he
      omega

end Sys2Proof.Machine
end

