-- ==== Sys2Proof/Laws/State.lean ====
section
/-! SUPPORT. What the shared operations change. For each plain update, one lemma per field it leaves unchanged, true by rfl; for
each operation made of several, a lemma that says everything it can do: it keeps every property that the writes it is made of
keep, and from it the fields it leaves unchanged. (The parentheses around rfl keep simp from replaying it by unfolding, which
the kernel would have to check; the arrow lets simp rewrite a projection without visiting the state under it.) -/

set_option Elab.async false

namespace Sys2Proof.Machine

variable (s : State)

/-! Reading what was put into a unit's own state. -/

@[simp] theorem State.lndC_modLnd (n : Nat) (g : LndCore → LndCore) : (s.modLnd n g).lndC n = g (s.lndC n) :=
  Tab.get_set_self _ _ _ _

theorem State.lndC_modLnd_other (n : Nat) (g : LndCore → LndCore) {m : Nat} (h : m ≠ n) :
    (s.modLnd n g).lndC m = s.lndC m := Tab.get_set_other _ _ _ h

@[simp] theorem State.selC_modSel (n : Nat) (g : SelCore → SelCore) : (s.modSel n g).selC n = g (s.selC n) :=
  Tab.get_set_self _ _ _ _

theorem State.selC_modSel_other (n : Nat) (g : SelCore → SelCore) {m : Nat} (h : m ≠ n) :
    (s.modSel n g).selC m = s.selC m := Tab.get_set_other _ _ _ h

@[simp] theorem State.entC_modEnt (n : Nat) (g : EntCore → EntCore) : (s.modEnt n g).entC n = g (s.entC n) :=
  Tab.get_set_self _ _ _ _

theorem State.entC_modEnt_other (n : Nat) (g : EntCore → EntCore) {m : Nat} (h : m ≠ n) :
    (s.modEnt n g).entC m = s.entC m := Tab.get_set_other _ _ _ h

@[simp] theorem State.loopC_modLoop (n : Nat) (g : LoopCore → LoopCore) : (s.modLoop n g).loopC n = g (s.loopC n) :=
  Tab.get_set_self _ _ _ _

theorem State.loopC_modLoop_other (n : Nat) (g : LoopCore → LoopCore) {m : Nat} (h : m ≠ n) :
    (s.modLoop n g).loopC m = s.loopC m := Tab.get_set_other _ _ _ h

@[simp] theorem State.hoC_modHo (n : Nat) (g : HoCore → HoCore) : (s.modHo n g).hoC n = g (s.hoC n) :=
  Tab.get_set_self _ _ _ _

theorem State.hoC_modHo_other (n : Nat) (g : HoCore → HoCore) {m : Nat} (h : m ≠ n) :
    (s.modHo n g).hoC m = s.hoC m := Tab.get_set_other _ _ _ h

@[simp] theorem State.aplC_modApl (n : Nat) (g : AplCore → AplCore) : (s.modApl n g).aplC n = g (s.aplC n) :=
  Tab.get_set_self _ _ _ _

theorem State.aplC_modApl_other (n : Nat) (g : AplCore → AplCore) {m : Nat} (h : m ≠ n) :
    (s.modApl n g).aplC m = s.aplC m := Tab.get_set_other _ _ _ h

@[simp] theorem State.outC_modOut (n : Nat) (g : OutCore → OutCore) : (s.modOut n g).outC n = g (s.outC n) :=
  Tab.get_set_self _ _ _ _

theorem State.outC_modOut_other (n : Nat) (g : OutCore → OutCore) {m : Nat} (h : m ≠ n) :
    (s.modOut n g).outC m = s.outC m := Tab.get_set_other _ _ _ h

@[simp] theorem State.tscC_modTsc (n : Nat) (g : TscCore → TscCore) : (s.modTsc n g).tscC n = g (s.tscC n) :=
  Tab.get_set_self _ _ _ _

theorem State.tscC_modTsc_other (n : Nat) (g : TscCore → TscCore) {m : Nat} (h : m ≠ n) :
    (s.modTsc n g).tscC m = s.tscC m := Tab.get_set_other _ _ _ h

@[simp] theorem State.todC_modTod (n : Nat) (g : TodCore → TodCore) : (s.modTod n g).todC n = g (s.todC n) :=
  Tab.get_set_self _ _ _ _

theorem State.todC_modTod_other (n : Nat) (g : TodCore → TodCore) {m : Nat} (h : m ≠ n) :
    (s.modTod n g).todC m = s.todC m := Tab.get_set_other _ _ _ h

@[simp] theorem State.tasksC_modTasks (n : Nat) (g : List TaskRun → List TaskRun) : (s.modTasks n g).tasksC n = g (s.tasksC n) :=
  Tab.get_set_self _ _ _ _

theorem State.tasksC_modTasks_other (n : Nat) (g : List TaskRun → List TaskRun) {m : Nat} (h : m ≠ n) :
    (s.modTasks n g).tasksC m = s.tasksC m := Tab.get_set_other _ _ _ h

@[simp] theorem State.prtC_modPrt (n : Nat) (g : PrtCore → PrtCore) : (s.modPrt n g).prtC n = g (s.prtC n) :=
  Tab.get_set_self _ _ _ _

theorem State.prtC_modPrt_other (n : Nat) (g : PrtCore → PrtCore) {m : Nat} (h : m ≠ n) :
    (s.modPrt n g).prtC m = s.prtC m := Tab.get_set_other _ _ _ h

@[simp] theorem State.pteC_modPte (n : Nat) (g : PteCore → PteCore) : (s.modPte n g).pteC n = g (s.pteC n) :=
  Tab.get_set_self _ _ _ _

theorem State.pteC_modPte_other (n : Nat) (g : PteCore → PteCore) {m : Nat} (h : m ≠ n) :
    (s.modPte n g).pteC m = s.pteC m := Tab.get_set_other _ _ _ h

@[simp] theorem State.berthC_modBerth (n : Nat) (g : Berth → Berth) : (s.modBerth n g).berthC n = g (s.berthC n) :=
  Tab.get_set_self _ _ _ _

theorem State.berthC_modBerth_other (n : Nat) (g : Berth → Berth) {m : Nat} (h : m ≠ n) :
    (s.modBerth n g).berthC m = s.berthC m := Tab.get_set_other _ _ _ h

@[simp] theorem State.gensC_modGen (n : Nat) (g : Nat → Nat) : (s.modGen n g).gensC n = g (s.gensC n) :=
  Tab.get_set_self _ _ _ _

theorem State.gensC_modGen_other (n : Nat) (g : Nat → Nat) {m : Nat} (h : m ≠ n) :
    (s.modGen n g).gensC m = s.gensC m := Tab.get_set_other _ _ _ h

/-! `setw`. -/

@[simp ↓] theorem State.pending_setw (k v : Nat) : (s.setw k v).pending = s.pending := (rfl)
@[simp ↓] theorem State.now_setw (k v : Nat) : (s.setw k v).now = s.now := (rfl)
@[simp ↓] theorem State.freeCount_setw (k v : Nat) : (s.setw k v).freeCount = s.freeCount := (rfl)
@[simp ↓] theorem State.mem_setw (k v : Nat) : (s.setw k v).mem = s.mem := (rfl)
@[simp ↓] theorem State.ecc_setw (k v : Nat) : (s.setw k v).ecc = s.ecc := (rfl)
@[simp ↓] theorem State.scrub_setw (k v : Nat) : (s.setw k v).scrub = s.scrub := (rfl)
@[simp ↓] theorem State.flash_setw (k v : Nat) : (s.setw k v).flash = s.flash := (rfl)
@[simp ↓] theorem State.slices_setw (k v : Nat) : (s.setw k v).slices = s.slices := (rfl)
@[simp ↓] theorem State.top_setw (k v : Nat) : (s.setw k v).top = s.top := (rfl)
@[simp ↓] theorem State.pwr_setw (k v : Nat) : (s.setw k v).pwr = s.pwr := (rfl)
@[simp ↓] theorem State.fab_setw (k v : Nat) : (s.setw k v).fab = s.fab := (rfl)
@[simp ↓] theorem State.flt_setw (k v : Nat) : (s.setw k v).flt = s.flt := (rfl)
@[simp ↓] theorem State.intr_setw (k v : Nat) : (s.setw k v).intr = s.intr := (rfl)
@[simp ↓] theorem State.cfg_setw (k v : Nat) : (s.setw k v).cfg = s.cfg := (rfl)
@[simp ↓] theorem State.hostA_setw (k v : Nat) : (s.setw k v).hostA = s.hostA := (rfl)
@[simp ↓] theorem State.hostB_setw (k v : Nat) : (s.setw k v).hostB = s.hostB := (rfl)
@[simp ↓] theorem State.nv_setw (k v : Nat) : (s.setw k v).nv = s.nv := (rfl)
@[simp ↓] theorem State.flm_setw (k v : Nat) : (s.setw k v).flm = s.flm := (rfl)
@[simp ↓] theorem State.sec_setw (k v : Nat) : (s.setw k v).sec = s.sec := (rfl)
@[simp ↓] theorem State.man_setw (k v : Nat) : (s.setw k v).man = s.man := (rfl)
@[simp ↓] theorem State.xlk_setw (k v : Nat) : (s.setw k v).xlk = s.xlk := (rfl)
@[simp ↓] theorem State.eng_setw (k v : Nat) : (s.setw k v).eng = s.eng := (rfl)
@[simp ↓] theorem State.lnd_setw (k v : Nat) : (s.setw k v).lnd = s.lnd := (rfl)
@[simp ↓] theorem State.sel_setw (k v : Nat) : (s.setw k v).sel = s.sel := (rfl)
@[simp ↓] theorem State.ent_setw (k v : Nat) : (s.setw k v).ent = s.ent := (rfl)
@[simp ↓] theorem State.loop_setw (k v : Nat) : (s.setw k v).loop = s.loop := (rfl)
@[simp ↓] theorem State.ho_setw (k v : Nat) : (s.setw k v).ho = s.ho := (rfl)
@[simp ↓] theorem State.apl_setw (k v : Nat) : (s.setw k v).apl = s.apl := (rfl)
@[simp ↓] theorem State.out_setw (k v : Nat) : (s.setw k v).out = s.out := (rfl)
@[simp ↓] theorem State.tsc_setw (k v : Nat) : (s.setw k v).tsc = s.tsc := (rfl)
@[simp ↓] theorem State.tod_setw (k v : Nat) : (s.setw k v).tod = s.tod := (rfl)
@[simp ↓] theorem State.tasks_setw (k v : Nat) : (s.setw k v).tasks = s.tasks := (rfl)
@[simp ↓] theorem State.prt_setw (k v : Nat) : (s.setw k v).prt = s.prt := (rfl)
@[simp ↓] theorem State.pte_setw (k v : Nat) : (s.setw k v).pte = s.pte := (rfl)
@[simp ↓] theorem State.berth_setw (k v : Nat) : (s.setw k v).berth = s.berth := (rfl)
@[simp ↓] theorem State.gens_setw (k v : Nat) : (s.setw k v).gens = s.gens := (rfl)

/-! `setf`. -/

@[simp ↓] theorem State.pending_setf (x : Fld) (v : Nat) : (s.setf x v).pending = s.pending := (rfl)
@[simp ↓] theorem State.now_setf (x : Fld) (v : Nat) : (s.setf x v).now = s.now := (rfl)
@[simp ↓] theorem State.freeCount_setf (x : Fld) (v : Nat) : (s.setf x v).freeCount = s.freeCount := (rfl)
@[simp ↓] theorem State.mem_setf (x : Fld) (v : Nat) : (s.setf x v).mem = s.mem := (rfl)
@[simp ↓] theorem State.ecc_setf (x : Fld) (v : Nat) : (s.setf x v).ecc = s.ecc := (rfl)
@[simp ↓] theorem State.scrub_setf (x : Fld) (v : Nat) : (s.setf x v).scrub = s.scrub := (rfl)
@[simp ↓] theorem State.flash_setf (x : Fld) (v : Nat) : (s.setf x v).flash = s.flash := (rfl)
@[simp ↓] theorem State.slices_setf (x : Fld) (v : Nat) : (s.setf x v).slices = s.slices := (rfl)
@[simp ↓] theorem State.top_setf (x : Fld) (v : Nat) : (s.setf x v).top = s.top := (rfl)
@[simp ↓] theorem State.pwr_setf (x : Fld) (v : Nat) : (s.setf x v).pwr = s.pwr := (rfl)
@[simp ↓] theorem State.fab_setf (x : Fld) (v : Nat) : (s.setf x v).fab = s.fab := (rfl)
@[simp ↓] theorem State.flt_setf (x : Fld) (v : Nat) : (s.setf x v).flt = s.flt := (rfl)
@[simp ↓] theorem State.intr_setf (x : Fld) (v : Nat) : (s.setf x v).intr = s.intr := (rfl)
@[simp ↓] theorem State.cfg_setf (x : Fld) (v : Nat) : (s.setf x v).cfg = s.cfg := (rfl)
@[simp ↓] theorem State.hostA_setf (x : Fld) (v : Nat) : (s.setf x v).hostA = s.hostA := (rfl)
@[simp ↓] theorem State.hostB_setf (x : Fld) (v : Nat) : (s.setf x v).hostB = s.hostB := (rfl)
@[simp ↓] theorem State.nv_setf (x : Fld) (v : Nat) : (s.setf x v).nv = s.nv := (rfl)
@[simp ↓] theorem State.flm_setf (x : Fld) (v : Nat) : (s.setf x v).flm = s.flm := (rfl)
@[simp ↓] theorem State.sec_setf (x : Fld) (v : Nat) : (s.setf x v).sec = s.sec := (rfl)
@[simp ↓] theorem State.man_setf (x : Fld) (v : Nat) : (s.setf x v).man = s.man := (rfl)
@[simp ↓] theorem State.xlk_setf (x : Fld) (v : Nat) : (s.setf x v).xlk = s.xlk := (rfl)
@[simp ↓] theorem State.eng_setf (x : Fld) (v : Nat) : (s.setf x v).eng = s.eng := (rfl)
@[simp ↓] theorem State.lnd_setf (x : Fld) (v : Nat) : (s.setf x v).lnd = s.lnd := (rfl)
@[simp ↓] theorem State.sel_setf (x : Fld) (v : Nat) : (s.setf x v).sel = s.sel := (rfl)
@[simp ↓] theorem State.ent_setf (x : Fld) (v : Nat) : (s.setf x v).ent = s.ent := (rfl)
@[simp ↓] theorem State.loop_setf (x : Fld) (v : Nat) : (s.setf x v).loop = s.loop := (rfl)
@[simp ↓] theorem State.ho_setf (x : Fld) (v : Nat) : (s.setf x v).ho = s.ho := (rfl)
@[simp ↓] theorem State.apl_setf (x : Fld) (v : Nat) : (s.setf x v).apl = s.apl := (rfl)
@[simp ↓] theorem State.out_setf (x : Fld) (v : Nat) : (s.setf x v).out = s.out := (rfl)
@[simp ↓] theorem State.tsc_setf (x : Fld) (v : Nat) : (s.setf x v).tsc = s.tsc := (rfl)
@[simp ↓] theorem State.tod_setf (x : Fld) (v : Nat) : (s.setf x v).tod = s.tod := (rfl)
@[simp ↓] theorem State.tasks_setf (x : Fld) (v : Nat) : (s.setf x v).tasks = s.tasks := (rfl)
@[simp ↓] theorem State.prt_setf (x : Fld) (v : Nat) : (s.setf x v).prt = s.prt := (rfl)
@[simp ↓] theorem State.pte_setf (x : Fld) (v : Nat) : (s.setf x v).pte = s.pte := (rfl)
@[simp ↓] theorem State.berth_setf (x : Fld) (v : Nat) : (s.setf x v).berth = s.berth := (rfl)
@[simp ↓] theorem State.gens_setf (x : Fld) (v : Nat) : (s.setf x v).gens = s.gens := (rfl)

/-! `setb`. -/

@[simp ↓] theorem State.pending_setb (x : Fld) (b : Bool) : (s.setb x b).pending = s.pending := (rfl)
@[simp ↓] theorem State.now_setb (x : Fld) (b : Bool) : (s.setb x b).now = s.now := (rfl)
@[simp ↓] theorem State.freeCount_setb (x : Fld) (b : Bool) : (s.setb x b).freeCount = s.freeCount := (rfl)
@[simp ↓] theorem State.mem_setb (x : Fld) (b : Bool) : (s.setb x b).mem = s.mem := (rfl)
@[simp ↓] theorem State.ecc_setb (x : Fld) (b : Bool) : (s.setb x b).ecc = s.ecc := (rfl)
@[simp ↓] theorem State.scrub_setb (x : Fld) (b : Bool) : (s.setb x b).scrub = s.scrub := (rfl)
@[simp ↓] theorem State.flash_setb (x : Fld) (b : Bool) : (s.setb x b).flash = s.flash := (rfl)
@[simp ↓] theorem State.slices_setb (x : Fld) (b : Bool) : (s.setb x b).slices = s.slices := (rfl)
@[simp ↓] theorem State.top_setb (x : Fld) (b : Bool) : (s.setb x b).top = s.top := (rfl)
@[simp ↓] theorem State.pwr_setb (x : Fld) (b : Bool) : (s.setb x b).pwr = s.pwr := (rfl)
@[simp ↓] theorem State.fab_setb (x : Fld) (b : Bool) : (s.setb x b).fab = s.fab := (rfl)
@[simp ↓] theorem State.flt_setb (x : Fld) (b : Bool) : (s.setb x b).flt = s.flt := (rfl)
@[simp ↓] theorem State.intr_setb (x : Fld) (b : Bool) : (s.setb x b).intr = s.intr := (rfl)
@[simp ↓] theorem State.cfg_setb (x : Fld) (b : Bool) : (s.setb x b).cfg = s.cfg := (rfl)
@[simp ↓] theorem State.hostA_setb (x : Fld) (b : Bool) : (s.setb x b).hostA = s.hostA := (rfl)
@[simp ↓] theorem State.hostB_setb (x : Fld) (b : Bool) : (s.setb x b).hostB = s.hostB := (rfl)
@[simp ↓] theorem State.nv_setb (x : Fld) (b : Bool) : (s.setb x b).nv = s.nv := (rfl)
@[simp ↓] theorem State.flm_setb (x : Fld) (b : Bool) : (s.setb x b).flm = s.flm := (rfl)
@[simp ↓] theorem State.sec_setb (x : Fld) (b : Bool) : (s.setb x b).sec = s.sec := (rfl)
@[simp ↓] theorem State.man_setb (x : Fld) (b : Bool) : (s.setb x b).man = s.man := (rfl)
@[simp ↓] theorem State.xlk_setb (x : Fld) (b : Bool) : (s.setb x b).xlk = s.xlk := (rfl)
@[simp ↓] theorem State.eng_setb (x : Fld) (b : Bool) : (s.setb x b).eng = s.eng := (rfl)
@[simp ↓] theorem State.lnd_setb (x : Fld) (b : Bool) : (s.setb x b).lnd = s.lnd := (rfl)
@[simp ↓] theorem State.sel_setb (x : Fld) (b : Bool) : (s.setb x b).sel = s.sel := (rfl)
@[simp ↓] theorem State.ent_setb (x : Fld) (b : Bool) : (s.setb x b).ent = s.ent := (rfl)
@[simp ↓] theorem State.loop_setb (x : Fld) (b : Bool) : (s.setb x b).loop = s.loop := (rfl)
@[simp ↓] theorem State.ho_setb (x : Fld) (b : Bool) : (s.setb x b).ho = s.ho := (rfl)
@[simp ↓] theorem State.apl_setb (x : Fld) (b : Bool) : (s.setb x b).apl = s.apl := (rfl)
@[simp ↓] theorem State.out_setb (x : Fld) (b : Bool) : (s.setb x b).out = s.out := (rfl)
@[simp ↓] theorem State.tsc_setb (x : Fld) (b : Bool) : (s.setb x b).tsc = s.tsc := (rfl)
@[simp ↓] theorem State.tod_setb (x : Fld) (b : Bool) : (s.setb x b).tod = s.tod := (rfl)
@[simp ↓] theorem State.tasks_setb (x : Fld) (b : Bool) : (s.setb x b).tasks = s.tasks := (rfl)
@[simp ↓] theorem State.prt_setb (x : Fld) (b : Bool) : (s.setb x b).prt = s.prt := (rfl)
@[simp ↓] theorem State.pte_setb (x : Fld) (b : Bool) : (s.setb x b).pte = s.pte := (rfl)
@[simp ↓] theorem State.berth_setb (x : Fld) (b : Bool) : (s.setb x b).berth = s.berth := (rfl)
@[simp ↓] theorem State.gens_setb (x : Fld) (b : Bool) : (s.setb x b).gens = s.gens := (rfl)

/-! `seti`. -/

@[simp ↓] theorem State.pending_seti (x : Fld) (i : Int) : (s.seti x i).pending = s.pending := (rfl)
@[simp ↓] theorem State.now_seti (x : Fld) (i : Int) : (s.seti x i).now = s.now := (rfl)
@[simp ↓] theorem State.freeCount_seti (x : Fld) (i : Int) : (s.seti x i).freeCount = s.freeCount := (rfl)
@[simp ↓] theorem State.mem_seti (x : Fld) (i : Int) : (s.seti x i).mem = s.mem := (rfl)
@[simp ↓] theorem State.ecc_seti (x : Fld) (i : Int) : (s.seti x i).ecc = s.ecc := (rfl)
@[simp ↓] theorem State.scrub_seti (x : Fld) (i : Int) : (s.seti x i).scrub = s.scrub := (rfl)
@[simp ↓] theorem State.flash_seti (x : Fld) (i : Int) : (s.seti x i).flash = s.flash := (rfl)
@[simp ↓] theorem State.slices_seti (x : Fld) (i : Int) : (s.seti x i).slices = s.slices := (rfl)
@[simp ↓] theorem State.top_seti (x : Fld) (i : Int) : (s.seti x i).top = s.top := (rfl)
@[simp ↓] theorem State.pwr_seti (x : Fld) (i : Int) : (s.seti x i).pwr = s.pwr := (rfl)
@[simp ↓] theorem State.fab_seti (x : Fld) (i : Int) : (s.seti x i).fab = s.fab := (rfl)
@[simp ↓] theorem State.flt_seti (x : Fld) (i : Int) : (s.seti x i).flt = s.flt := (rfl)
@[simp ↓] theorem State.intr_seti (x : Fld) (i : Int) : (s.seti x i).intr = s.intr := (rfl)
@[simp ↓] theorem State.cfg_seti (x : Fld) (i : Int) : (s.seti x i).cfg = s.cfg := (rfl)
@[simp ↓] theorem State.hostA_seti (x : Fld) (i : Int) : (s.seti x i).hostA = s.hostA := (rfl)
@[simp ↓] theorem State.hostB_seti (x : Fld) (i : Int) : (s.seti x i).hostB = s.hostB := (rfl)
@[simp ↓] theorem State.nv_seti (x : Fld) (i : Int) : (s.seti x i).nv = s.nv := (rfl)
@[simp ↓] theorem State.flm_seti (x : Fld) (i : Int) : (s.seti x i).flm = s.flm := (rfl)
@[simp ↓] theorem State.sec_seti (x : Fld) (i : Int) : (s.seti x i).sec = s.sec := (rfl)
@[simp ↓] theorem State.man_seti (x : Fld) (i : Int) : (s.seti x i).man = s.man := (rfl)
@[simp ↓] theorem State.xlk_seti (x : Fld) (i : Int) : (s.seti x i).xlk = s.xlk := (rfl)
@[simp ↓] theorem State.eng_seti (x : Fld) (i : Int) : (s.seti x i).eng = s.eng := (rfl)
@[simp ↓] theorem State.lnd_seti (x : Fld) (i : Int) : (s.seti x i).lnd = s.lnd := (rfl)
@[simp ↓] theorem State.sel_seti (x : Fld) (i : Int) : (s.seti x i).sel = s.sel := (rfl)
@[simp ↓] theorem State.ent_seti (x : Fld) (i : Int) : (s.seti x i).ent = s.ent := (rfl)
@[simp ↓] theorem State.loop_seti (x : Fld) (i : Int) : (s.seti x i).loop = s.loop := (rfl)
@[simp ↓] theorem State.ho_seti (x : Fld) (i : Int) : (s.seti x i).ho = s.ho := (rfl)
@[simp ↓] theorem State.apl_seti (x : Fld) (i : Int) : (s.seti x i).apl = s.apl := (rfl)
@[simp ↓] theorem State.out_seti (x : Fld) (i : Int) : (s.seti x i).out = s.out := (rfl)
@[simp ↓] theorem State.tsc_seti (x : Fld) (i : Int) : (s.seti x i).tsc = s.tsc := (rfl)
@[simp ↓] theorem State.tod_seti (x : Fld) (i : Int) : (s.seti x i).tod = s.tod := (rfl)
@[simp ↓] theorem State.tasks_seti (x : Fld) (i : Int) : (s.seti x i).tasks = s.tasks := (rfl)
@[simp ↓] theorem State.prt_seti (x : Fld) (i : Int) : (s.seti x i).prt = s.prt := (rfl)
@[simp ↓] theorem State.pte_seti (x : Fld) (i : Int) : (s.seti x i).pte = s.pte := (rfl)
@[simp ↓] theorem State.berth_seti (x : Fld) (i : Int) : (s.seti x i).berth = s.berth := (rfl)
@[simp ↓] theorem State.gens_seti (x : Fld) (i : Int) : (s.seti x i).gens = s.gens := (rfl)

/-! `setSat`. -/

@[simp ↓] theorem State.pending_setSat (x : Fld) (i : Int) : (s.setSat x i).pending = s.pending := (rfl)
@[simp ↓] theorem State.now_setSat (x : Fld) (i : Int) : (s.setSat x i).now = s.now := (rfl)
@[simp ↓] theorem State.freeCount_setSat (x : Fld) (i : Int) : (s.setSat x i).freeCount = s.freeCount := (rfl)
@[simp ↓] theorem State.mem_setSat (x : Fld) (i : Int) : (s.setSat x i).mem = s.mem := (rfl)
@[simp ↓] theorem State.ecc_setSat (x : Fld) (i : Int) : (s.setSat x i).ecc = s.ecc := (rfl)
@[simp ↓] theorem State.scrub_setSat (x : Fld) (i : Int) : (s.setSat x i).scrub = s.scrub := (rfl)
@[simp ↓] theorem State.flash_setSat (x : Fld) (i : Int) : (s.setSat x i).flash = s.flash := (rfl)
@[simp ↓] theorem State.slices_setSat (x : Fld) (i : Int) : (s.setSat x i).slices = s.slices := (rfl)
@[simp ↓] theorem State.top_setSat (x : Fld) (i : Int) : (s.setSat x i).top = s.top := (rfl)
@[simp ↓] theorem State.pwr_setSat (x : Fld) (i : Int) : (s.setSat x i).pwr = s.pwr := (rfl)
@[simp ↓] theorem State.fab_setSat (x : Fld) (i : Int) : (s.setSat x i).fab = s.fab := (rfl)
@[simp ↓] theorem State.flt_setSat (x : Fld) (i : Int) : (s.setSat x i).flt = s.flt := (rfl)
@[simp ↓] theorem State.intr_setSat (x : Fld) (i : Int) : (s.setSat x i).intr = s.intr := (rfl)
@[simp ↓] theorem State.cfg_setSat (x : Fld) (i : Int) : (s.setSat x i).cfg = s.cfg := (rfl)
@[simp ↓] theorem State.hostA_setSat (x : Fld) (i : Int) : (s.setSat x i).hostA = s.hostA := (rfl)
@[simp ↓] theorem State.hostB_setSat (x : Fld) (i : Int) : (s.setSat x i).hostB = s.hostB := (rfl)
@[simp ↓] theorem State.nv_setSat (x : Fld) (i : Int) : (s.setSat x i).nv = s.nv := (rfl)
@[simp ↓] theorem State.flm_setSat (x : Fld) (i : Int) : (s.setSat x i).flm = s.flm := (rfl)
@[simp ↓] theorem State.sec_setSat (x : Fld) (i : Int) : (s.setSat x i).sec = s.sec := (rfl)
@[simp ↓] theorem State.man_setSat (x : Fld) (i : Int) : (s.setSat x i).man = s.man := (rfl)
@[simp ↓] theorem State.xlk_setSat (x : Fld) (i : Int) : (s.setSat x i).xlk = s.xlk := (rfl)
@[simp ↓] theorem State.eng_setSat (x : Fld) (i : Int) : (s.setSat x i).eng = s.eng := (rfl)
@[simp ↓] theorem State.lnd_setSat (x : Fld) (i : Int) : (s.setSat x i).lnd = s.lnd := (rfl)
@[simp ↓] theorem State.sel_setSat (x : Fld) (i : Int) : (s.setSat x i).sel = s.sel := (rfl)
@[simp ↓] theorem State.ent_setSat (x : Fld) (i : Int) : (s.setSat x i).ent = s.ent := (rfl)
@[simp ↓] theorem State.loop_setSat (x : Fld) (i : Int) : (s.setSat x i).loop = s.loop := (rfl)
@[simp ↓] theorem State.ho_setSat (x : Fld) (i : Int) : (s.setSat x i).ho = s.ho := (rfl)
@[simp ↓] theorem State.apl_setSat (x : Fld) (i : Int) : (s.setSat x i).apl = s.apl := (rfl)
@[simp ↓] theorem State.out_setSat (x : Fld) (i : Int) : (s.setSat x i).out = s.out := (rfl)
@[simp ↓] theorem State.tsc_setSat (x : Fld) (i : Int) : (s.setSat x i).tsc = s.tsc := (rfl)
@[simp ↓] theorem State.tod_setSat (x : Fld) (i : Int) : (s.setSat x i).tod = s.tod := (rfl)
@[simp ↓] theorem State.tasks_setSat (x : Fld) (i : Int) : (s.setSat x i).tasks = s.tasks := (rfl)
@[simp ↓] theorem State.prt_setSat (x : Fld) (i : Int) : (s.setSat x i).prt = s.prt := (rfl)
@[simp ↓] theorem State.pte_setSat (x : Fld) (i : Int) : (s.setSat x i).pte = s.pte := (rfl)
@[simp ↓] theorem State.berth_setSat (x : Fld) (i : Int) : (s.setSat x i).berth = s.berth := (rfl)
@[simp ↓] theorem State.gens_setSat (x : Fld) (i : Int) : (s.setSat x i).gens = s.gens := (rfl)

/-! `incBy`. -/

@[simp ↓] theorem State.pending_incBy (x : Fld) (n : Nat) : (s.incBy x n).pending = s.pending := (rfl)
@[simp ↓] theorem State.now_incBy (x : Fld) (n : Nat) : (s.incBy x n).now = s.now := (rfl)
@[simp ↓] theorem State.freeCount_incBy (x : Fld) (n : Nat) : (s.incBy x n).freeCount = s.freeCount := (rfl)
@[simp ↓] theorem State.mem_incBy (x : Fld) (n : Nat) : (s.incBy x n).mem = s.mem := (rfl)
@[simp ↓] theorem State.ecc_incBy (x : Fld) (n : Nat) : (s.incBy x n).ecc = s.ecc := (rfl)
@[simp ↓] theorem State.scrub_incBy (x : Fld) (n : Nat) : (s.incBy x n).scrub = s.scrub := (rfl)
@[simp ↓] theorem State.flash_incBy (x : Fld) (n : Nat) : (s.incBy x n).flash = s.flash := (rfl)
@[simp ↓] theorem State.slices_incBy (x : Fld) (n : Nat) : (s.incBy x n).slices = s.slices := (rfl)
@[simp ↓] theorem State.top_incBy (x : Fld) (n : Nat) : (s.incBy x n).top = s.top := (rfl)
@[simp ↓] theorem State.pwr_incBy (x : Fld) (n : Nat) : (s.incBy x n).pwr = s.pwr := (rfl)
@[simp ↓] theorem State.fab_incBy (x : Fld) (n : Nat) : (s.incBy x n).fab = s.fab := (rfl)
@[simp ↓] theorem State.flt_incBy (x : Fld) (n : Nat) : (s.incBy x n).flt = s.flt := (rfl)
@[simp ↓] theorem State.intr_incBy (x : Fld) (n : Nat) : (s.incBy x n).intr = s.intr := (rfl)
@[simp ↓] theorem State.cfg_incBy (x : Fld) (n : Nat) : (s.incBy x n).cfg = s.cfg := (rfl)
@[simp ↓] theorem State.hostA_incBy (x : Fld) (n : Nat) : (s.incBy x n).hostA = s.hostA := (rfl)
@[simp ↓] theorem State.hostB_incBy (x : Fld) (n : Nat) : (s.incBy x n).hostB = s.hostB := (rfl)
@[simp ↓] theorem State.nv_incBy (x : Fld) (n : Nat) : (s.incBy x n).nv = s.nv := (rfl)
@[simp ↓] theorem State.flm_incBy (x : Fld) (n : Nat) : (s.incBy x n).flm = s.flm := (rfl)
@[simp ↓] theorem State.sec_incBy (x : Fld) (n : Nat) : (s.incBy x n).sec = s.sec := (rfl)
@[simp ↓] theorem State.man_incBy (x : Fld) (n : Nat) : (s.incBy x n).man = s.man := (rfl)
@[simp ↓] theorem State.xlk_incBy (x : Fld) (n : Nat) : (s.incBy x n).xlk = s.xlk := (rfl)
@[simp ↓] theorem State.eng_incBy (x : Fld) (n : Nat) : (s.incBy x n).eng = s.eng := (rfl)
@[simp ↓] theorem State.lnd_incBy (x : Fld) (n : Nat) : (s.incBy x n).lnd = s.lnd := (rfl)
@[simp ↓] theorem State.sel_incBy (x : Fld) (n : Nat) : (s.incBy x n).sel = s.sel := (rfl)
@[simp ↓] theorem State.ent_incBy (x : Fld) (n : Nat) : (s.incBy x n).ent = s.ent := (rfl)
@[simp ↓] theorem State.loop_incBy (x : Fld) (n : Nat) : (s.incBy x n).loop = s.loop := (rfl)
@[simp ↓] theorem State.ho_incBy (x : Fld) (n : Nat) : (s.incBy x n).ho = s.ho := (rfl)
@[simp ↓] theorem State.apl_incBy (x : Fld) (n : Nat) : (s.incBy x n).apl = s.apl := (rfl)
@[simp ↓] theorem State.out_incBy (x : Fld) (n : Nat) : (s.incBy x n).out = s.out := (rfl)
@[simp ↓] theorem State.tsc_incBy (x : Fld) (n : Nat) : (s.incBy x n).tsc = s.tsc := (rfl)
@[simp ↓] theorem State.tod_incBy (x : Fld) (n : Nat) : (s.incBy x n).tod = s.tod := (rfl)
@[simp ↓] theorem State.tasks_incBy (x : Fld) (n : Nat) : (s.incBy x n).tasks = s.tasks := (rfl)
@[simp ↓] theorem State.prt_incBy (x : Fld) (n : Nat) : (s.incBy x n).prt = s.prt := (rfl)
@[simp ↓] theorem State.pte_incBy (x : Fld) (n : Nat) : (s.incBy x n).pte = s.pte := (rfl)
@[simp ↓] theorem State.berth_incBy (x : Fld) (n : Nat) : (s.incBy x n).berth = s.berth := (rfl)
@[simp ↓] theorem State.gens_incBy (x : Fld) (n : Nat) : (s.incBy x n).gens = s.gens := (rfl)

/-! `inc`. -/

@[simp ↓] theorem State.pending_inc (x : Fld) : (s.inc x).pending = s.pending := (rfl)
@[simp ↓] theorem State.now_inc (x : Fld) : (s.inc x).now = s.now := (rfl)
@[simp ↓] theorem State.freeCount_inc (x : Fld) : (s.inc x).freeCount = s.freeCount := (rfl)
@[simp ↓] theorem State.mem_inc (x : Fld) : (s.inc x).mem = s.mem := (rfl)
@[simp ↓] theorem State.ecc_inc (x : Fld) : (s.inc x).ecc = s.ecc := (rfl)
@[simp ↓] theorem State.scrub_inc (x : Fld) : (s.inc x).scrub = s.scrub := (rfl)
@[simp ↓] theorem State.flash_inc (x : Fld) : (s.inc x).flash = s.flash := (rfl)
@[simp ↓] theorem State.slices_inc (x : Fld) : (s.inc x).slices = s.slices := (rfl)
@[simp ↓] theorem State.top_inc (x : Fld) : (s.inc x).top = s.top := (rfl)
@[simp ↓] theorem State.pwr_inc (x : Fld) : (s.inc x).pwr = s.pwr := (rfl)
@[simp ↓] theorem State.fab_inc (x : Fld) : (s.inc x).fab = s.fab := (rfl)
@[simp ↓] theorem State.flt_inc (x : Fld) : (s.inc x).flt = s.flt := (rfl)
@[simp ↓] theorem State.intr_inc (x : Fld) : (s.inc x).intr = s.intr := (rfl)
@[simp ↓] theorem State.cfg_inc (x : Fld) : (s.inc x).cfg = s.cfg := (rfl)
@[simp ↓] theorem State.hostA_inc (x : Fld) : (s.inc x).hostA = s.hostA := (rfl)
@[simp ↓] theorem State.hostB_inc (x : Fld) : (s.inc x).hostB = s.hostB := (rfl)
@[simp ↓] theorem State.nv_inc (x : Fld) : (s.inc x).nv = s.nv := (rfl)
@[simp ↓] theorem State.flm_inc (x : Fld) : (s.inc x).flm = s.flm := (rfl)
@[simp ↓] theorem State.sec_inc (x : Fld) : (s.inc x).sec = s.sec := (rfl)
@[simp ↓] theorem State.man_inc (x : Fld) : (s.inc x).man = s.man := (rfl)
@[simp ↓] theorem State.xlk_inc (x : Fld) : (s.inc x).xlk = s.xlk := (rfl)
@[simp ↓] theorem State.eng_inc (x : Fld) : (s.inc x).eng = s.eng := (rfl)
@[simp ↓] theorem State.lnd_inc (x : Fld) : (s.inc x).lnd = s.lnd := (rfl)
@[simp ↓] theorem State.sel_inc (x : Fld) : (s.inc x).sel = s.sel := (rfl)
@[simp ↓] theorem State.ent_inc (x : Fld) : (s.inc x).ent = s.ent := (rfl)
@[simp ↓] theorem State.loop_inc (x : Fld) : (s.inc x).loop = s.loop := (rfl)
@[simp ↓] theorem State.ho_inc (x : Fld) : (s.inc x).ho = s.ho := (rfl)
@[simp ↓] theorem State.apl_inc (x : Fld) : (s.inc x).apl = s.apl := (rfl)
@[simp ↓] theorem State.out_inc (x : Fld) : (s.inc x).out = s.out := (rfl)
@[simp ↓] theorem State.tsc_inc (x : Fld) : (s.inc x).tsc = s.tsc := (rfl)
@[simp ↓] theorem State.tod_inc (x : Fld) : (s.inc x).tod = s.tod := (rfl)
@[simp ↓] theorem State.tasks_inc (x : Fld) : (s.inc x).tasks = s.tasks := (rfl)
@[simp ↓] theorem State.prt_inc (x : Fld) : (s.inc x).prt = s.prt := (rfl)
@[simp ↓] theorem State.pte_inc (x : Fld) : (s.inc x).pte = s.pte := (rfl)
@[simp ↓] theorem State.berth_inc (x : Fld) : (s.inc x).berth = s.berth := (rfl)
@[simp ↓] theorem State.gens_inc (x : Fld) : (s.inc x).gens = s.gens := (rfl)

/-! `incWrap`. -/

@[simp ↓] theorem State.pending_incWrap (x : Fld) : (s.incWrap x).pending = s.pending := (rfl)
@[simp ↓] theorem State.now_incWrap (x : Fld) : (s.incWrap x).now = s.now := (rfl)
@[simp ↓] theorem State.freeCount_incWrap (x : Fld) : (s.incWrap x).freeCount = s.freeCount := (rfl)
@[simp ↓] theorem State.mem_incWrap (x : Fld) : (s.incWrap x).mem = s.mem := (rfl)
@[simp ↓] theorem State.ecc_incWrap (x : Fld) : (s.incWrap x).ecc = s.ecc := (rfl)
@[simp ↓] theorem State.scrub_incWrap (x : Fld) : (s.incWrap x).scrub = s.scrub := (rfl)
@[simp ↓] theorem State.flash_incWrap (x : Fld) : (s.incWrap x).flash = s.flash := (rfl)
@[simp ↓] theorem State.slices_incWrap (x : Fld) : (s.incWrap x).slices = s.slices := (rfl)
@[simp ↓] theorem State.top_incWrap (x : Fld) : (s.incWrap x).top = s.top := (rfl)
@[simp ↓] theorem State.pwr_incWrap (x : Fld) : (s.incWrap x).pwr = s.pwr := (rfl)
@[simp ↓] theorem State.fab_incWrap (x : Fld) : (s.incWrap x).fab = s.fab := (rfl)
@[simp ↓] theorem State.flt_incWrap (x : Fld) : (s.incWrap x).flt = s.flt := (rfl)
@[simp ↓] theorem State.intr_incWrap (x : Fld) : (s.incWrap x).intr = s.intr := (rfl)
@[simp ↓] theorem State.cfg_incWrap (x : Fld) : (s.incWrap x).cfg = s.cfg := (rfl)
@[simp ↓] theorem State.hostA_incWrap (x : Fld) : (s.incWrap x).hostA = s.hostA := (rfl)
@[simp ↓] theorem State.hostB_incWrap (x : Fld) : (s.incWrap x).hostB = s.hostB := (rfl)
@[simp ↓] theorem State.nv_incWrap (x : Fld) : (s.incWrap x).nv = s.nv := (rfl)
@[simp ↓] theorem State.flm_incWrap (x : Fld) : (s.incWrap x).flm = s.flm := (rfl)
@[simp ↓] theorem State.sec_incWrap (x : Fld) : (s.incWrap x).sec = s.sec := (rfl)
@[simp ↓] theorem State.man_incWrap (x : Fld) : (s.incWrap x).man = s.man := (rfl)
@[simp ↓] theorem State.xlk_incWrap (x : Fld) : (s.incWrap x).xlk = s.xlk := (rfl)
@[simp ↓] theorem State.eng_incWrap (x : Fld) : (s.incWrap x).eng = s.eng := (rfl)
@[simp ↓] theorem State.lnd_incWrap (x : Fld) : (s.incWrap x).lnd = s.lnd := (rfl)
@[simp ↓] theorem State.sel_incWrap (x : Fld) : (s.incWrap x).sel = s.sel := (rfl)
@[simp ↓] theorem State.ent_incWrap (x : Fld) : (s.incWrap x).ent = s.ent := (rfl)
@[simp ↓] theorem State.loop_incWrap (x : Fld) : (s.incWrap x).loop = s.loop := (rfl)
@[simp ↓] theorem State.ho_incWrap (x : Fld) : (s.incWrap x).ho = s.ho := (rfl)
@[simp ↓] theorem State.apl_incWrap (x : Fld) : (s.incWrap x).apl = s.apl := (rfl)
@[simp ↓] theorem State.out_incWrap (x : Fld) : (s.incWrap x).out = s.out := (rfl)
@[simp ↓] theorem State.tsc_incWrap (x : Fld) : (s.incWrap x).tsc = s.tsc := (rfl)
@[simp ↓] theorem State.tod_incWrap (x : Fld) : (s.incWrap x).tod = s.tod := (rfl)
@[simp ↓] theorem State.tasks_incWrap (x : Fld) : (s.incWrap x).tasks = s.tasks := (rfl)
@[simp ↓] theorem State.prt_incWrap (x : Fld) : (s.incWrap x).prt = s.prt := (rfl)
@[simp ↓] theorem State.pte_incWrap (x : Fld) : (s.incWrap x).pte = s.pte := (rfl)
@[simp ↓] theorem State.berth_incWrap (x : Fld) : (s.incWrap x).berth = s.berth := (rfl)
@[simp ↓] theorem State.gens_incWrap (x : Fld) : (s.incWrap x).gens = s.gens := (rfl)

/-! `setBit`. -/

@[simp ↓] theorem State.pending_setBit (k i : Nat) : (s.setBit k i).pending = s.pending := (rfl)
@[simp ↓] theorem State.now_setBit (k i : Nat) : (s.setBit k i).now = s.now := (rfl)
@[simp ↓] theorem State.freeCount_setBit (k i : Nat) : (s.setBit k i).freeCount = s.freeCount := (rfl)
@[simp ↓] theorem State.mem_setBit (k i : Nat) : (s.setBit k i).mem = s.mem := (rfl)
@[simp ↓] theorem State.ecc_setBit (k i : Nat) : (s.setBit k i).ecc = s.ecc := (rfl)
@[simp ↓] theorem State.scrub_setBit (k i : Nat) : (s.setBit k i).scrub = s.scrub := (rfl)
@[simp ↓] theorem State.flash_setBit (k i : Nat) : (s.setBit k i).flash = s.flash := (rfl)
@[simp ↓] theorem State.slices_setBit (k i : Nat) : (s.setBit k i).slices = s.slices := (rfl)
@[simp ↓] theorem State.top_setBit (k i : Nat) : (s.setBit k i).top = s.top := (rfl)
@[simp ↓] theorem State.pwr_setBit (k i : Nat) : (s.setBit k i).pwr = s.pwr := (rfl)
@[simp ↓] theorem State.fab_setBit (k i : Nat) : (s.setBit k i).fab = s.fab := (rfl)
@[simp ↓] theorem State.flt_setBit (k i : Nat) : (s.setBit k i).flt = s.flt := (rfl)
@[simp ↓] theorem State.intr_setBit (k i : Nat) : (s.setBit k i).intr = s.intr := (rfl)
@[simp ↓] theorem State.cfg_setBit (k i : Nat) : (s.setBit k i).cfg = s.cfg := (rfl)
@[simp ↓] theorem State.hostA_setBit (k i : Nat) : (s.setBit k i).hostA = s.hostA := (rfl)
@[simp ↓] theorem State.hostB_setBit (k i : Nat) : (s.setBit k i).hostB = s.hostB := (rfl)
@[simp ↓] theorem State.nv_setBit (k i : Nat) : (s.setBit k i).nv = s.nv := (rfl)
@[simp ↓] theorem State.flm_setBit (k i : Nat) : (s.setBit k i).flm = s.flm := (rfl)
@[simp ↓] theorem State.sec_setBit (k i : Nat) : (s.setBit k i).sec = s.sec := (rfl)
@[simp ↓] theorem State.man_setBit (k i : Nat) : (s.setBit k i).man = s.man := (rfl)
@[simp ↓] theorem State.xlk_setBit (k i : Nat) : (s.setBit k i).xlk = s.xlk := (rfl)
@[simp ↓] theorem State.eng_setBit (k i : Nat) : (s.setBit k i).eng = s.eng := (rfl)
@[simp ↓] theorem State.lnd_setBit (k i : Nat) : (s.setBit k i).lnd = s.lnd := (rfl)
@[simp ↓] theorem State.sel_setBit (k i : Nat) : (s.setBit k i).sel = s.sel := (rfl)
@[simp ↓] theorem State.ent_setBit (k i : Nat) : (s.setBit k i).ent = s.ent := (rfl)
@[simp ↓] theorem State.loop_setBit (k i : Nat) : (s.setBit k i).loop = s.loop := (rfl)
@[simp ↓] theorem State.ho_setBit (k i : Nat) : (s.setBit k i).ho = s.ho := (rfl)
@[simp ↓] theorem State.apl_setBit (k i : Nat) : (s.setBit k i).apl = s.apl := (rfl)
@[simp ↓] theorem State.out_setBit (k i : Nat) : (s.setBit k i).out = s.out := (rfl)
@[simp ↓] theorem State.tsc_setBit (k i : Nat) : (s.setBit k i).tsc = s.tsc := (rfl)
@[simp ↓] theorem State.tod_setBit (k i : Nat) : (s.setBit k i).tod = s.tod := (rfl)
@[simp ↓] theorem State.tasks_setBit (k i : Nat) : (s.setBit k i).tasks = s.tasks := (rfl)
@[simp ↓] theorem State.prt_setBit (k i : Nat) : (s.setBit k i).prt = s.prt := (rfl)
@[simp ↓] theorem State.pte_setBit (k i : Nat) : (s.setBit k i).pte = s.pte := (rfl)
@[simp ↓] theorem State.berth_setBit (k i : Nat) : (s.setBit k i).berth = s.berth := (rfl)
@[simp ↓] theorem State.gens_setBit (k i : Nat) : (s.setBit k i).gens = s.gens := (rfl)

/-! `took`. -/

@[simp ↓] theorem State.pending_took : (s.took).pending = s.pending := (rfl)
@[simp ↓] theorem State.now_took : (s.took).now = s.now := (rfl)
@[simp ↓] theorem State.regs_took : (s.took).regs = s.regs := (rfl)
@[simp ↓] theorem State.mem_took : (s.took).mem = s.mem := (rfl)
@[simp ↓] theorem State.ecc_took : (s.took).ecc = s.ecc := (rfl)
@[simp ↓] theorem State.scrub_took : (s.took).scrub = s.scrub := (rfl)
@[simp ↓] theorem State.flash_took : (s.took).flash = s.flash := (rfl)
@[simp ↓] theorem State.slices_took : (s.took).slices = s.slices := (rfl)
@[simp ↓] theorem State.top_took : (s.took).top = s.top := (rfl)
@[simp ↓] theorem State.pwr_took : (s.took).pwr = s.pwr := (rfl)
@[simp ↓] theorem State.fab_took : (s.took).fab = s.fab := (rfl)
@[simp ↓] theorem State.flt_took : (s.took).flt = s.flt := (rfl)
@[simp ↓] theorem State.intr_took : (s.took).intr = s.intr := (rfl)
@[simp ↓] theorem State.cfg_took : (s.took).cfg = s.cfg := (rfl)
@[simp ↓] theorem State.hostA_took : (s.took).hostA = s.hostA := (rfl)
@[simp ↓] theorem State.hostB_took : (s.took).hostB = s.hostB := (rfl)
@[simp ↓] theorem State.nv_took : (s.took).nv = s.nv := (rfl)
@[simp ↓] theorem State.flm_took : (s.took).flm = s.flm := (rfl)
@[simp ↓] theorem State.sec_took : (s.took).sec = s.sec := (rfl)
@[simp ↓] theorem State.man_took : (s.took).man = s.man := (rfl)
@[simp ↓] theorem State.xlk_took : (s.took).xlk = s.xlk := (rfl)
@[simp ↓] theorem State.eng_took : (s.took).eng = s.eng := (rfl)
@[simp ↓] theorem State.lnd_took : (s.took).lnd = s.lnd := (rfl)
@[simp ↓] theorem State.sel_took : (s.took).sel = s.sel := (rfl)
@[simp ↓] theorem State.ent_took : (s.took).ent = s.ent := (rfl)
@[simp ↓] theorem State.loop_took : (s.took).loop = s.loop := (rfl)
@[simp ↓] theorem State.ho_took : (s.took).ho = s.ho := (rfl)
@[simp ↓] theorem State.apl_took : (s.took).apl = s.apl := (rfl)
@[simp ↓] theorem State.out_took : (s.took).out = s.out := (rfl)
@[simp ↓] theorem State.tsc_took : (s.took).tsc = s.tsc := (rfl)
@[simp ↓] theorem State.tod_took : (s.took).tod = s.tod := (rfl)
@[simp ↓] theorem State.tasks_took : (s.took).tasks = s.tasks := (rfl)
@[simp ↓] theorem State.prt_took : (s.took).prt = s.prt := (rfl)
@[simp ↓] theorem State.pte_took : (s.took).pte = s.pte := (rfl)
@[simp ↓] theorem State.berth_took : (s.took).berth = s.berth := (rfl)
@[simp ↓] theorem State.gens_took : (s.took).gens = s.gens := (rfl)

/-! `modLnd`. -/

@[simp ↓] theorem State.pending_modLnd (n : Nat) (g : LndCore → LndCore) : (s.modLnd n g).pending = s.pending := (rfl)
@[simp ↓] theorem State.now_modLnd (n : Nat) (g : LndCore → LndCore) : (s.modLnd n g).now = s.now := (rfl)
@[simp ↓] theorem State.freeCount_modLnd (n : Nat) (g : LndCore → LndCore) : (s.modLnd n g).freeCount = s.freeCount := (rfl)
@[simp ↓] theorem State.regs_modLnd (n : Nat) (g : LndCore → LndCore) : (s.modLnd n g).regs = s.regs := (rfl)
@[simp ↓] theorem State.mem_modLnd (n : Nat) (g : LndCore → LndCore) : (s.modLnd n g).mem = s.mem := (rfl)
@[simp ↓] theorem State.ecc_modLnd (n : Nat) (g : LndCore → LndCore) : (s.modLnd n g).ecc = s.ecc := (rfl)
@[simp ↓] theorem State.scrub_modLnd (n : Nat) (g : LndCore → LndCore) : (s.modLnd n g).scrub = s.scrub := (rfl)
@[simp ↓] theorem State.flash_modLnd (n : Nat) (g : LndCore → LndCore) : (s.modLnd n g).flash = s.flash := (rfl)
@[simp ↓] theorem State.slices_modLnd (n : Nat) (g : LndCore → LndCore) : (s.modLnd n g).slices = s.slices := (rfl)
@[simp ↓] theorem State.top_modLnd (n : Nat) (g : LndCore → LndCore) : (s.modLnd n g).top = s.top := (rfl)
@[simp ↓] theorem State.pwr_modLnd (n : Nat) (g : LndCore → LndCore) : (s.modLnd n g).pwr = s.pwr := (rfl)
@[simp ↓] theorem State.fab_modLnd (n : Nat) (g : LndCore → LndCore) : (s.modLnd n g).fab = s.fab := (rfl)
@[simp ↓] theorem State.flt_modLnd (n : Nat) (g : LndCore → LndCore) : (s.modLnd n g).flt = s.flt := (rfl)
@[simp ↓] theorem State.intr_modLnd (n : Nat) (g : LndCore → LndCore) : (s.modLnd n g).intr = s.intr := (rfl)
@[simp ↓] theorem State.cfg_modLnd (n : Nat) (g : LndCore → LndCore) : (s.modLnd n g).cfg = s.cfg := (rfl)
@[simp ↓] theorem State.hostA_modLnd (n : Nat) (g : LndCore → LndCore) : (s.modLnd n g).hostA = s.hostA := (rfl)
@[simp ↓] theorem State.hostB_modLnd (n : Nat) (g : LndCore → LndCore) : (s.modLnd n g).hostB = s.hostB := (rfl)
@[simp ↓] theorem State.nv_modLnd (n : Nat) (g : LndCore → LndCore) : (s.modLnd n g).nv = s.nv := (rfl)
@[simp ↓] theorem State.flm_modLnd (n : Nat) (g : LndCore → LndCore) : (s.modLnd n g).flm = s.flm := (rfl)
@[simp ↓] theorem State.sec_modLnd (n : Nat) (g : LndCore → LndCore) : (s.modLnd n g).sec = s.sec := (rfl)
@[simp ↓] theorem State.man_modLnd (n : Nat) (g : LndCore → LndCore) : (s.modLnd n g).man = s.man := (rfl)
@[simp ↓] theorem State.xlk_modLnd (n : Nat) (g : LndCore → LndCore) : (s.modLnd n g).xlk = s.xlk := (rfl)
@[simp ↓] theorem State.eng_modLnd (n : Nat) (g : LndCore → LndCore) : (s.modLnd n g).eng = s.eng := (rfl)
@[simp ↓] theorem State.sel_modLnd (n : Nat) (g : LndCore → LndCore) : (s.modLnd n g).sel = s.sel := (rfl)
@[simp ↓] theorem State.ent_modLnd (n : Nat) (g : LndCore → LndCore) : (s.modLnd n g).ent = s.ent := (rfl)
@[simp ↓] theorem State.loop_modLnd (n : Nat) (g : LndCore → LndCore) : (s.modLnd n g).loop = s.loop := (rfl)
@[simp ↓] theorem State.ho_modLnd (n : Nat) (g : LndCore → LndCore) : (s.modLnd n g).ho = s.ho := (rfl)
@[simp ↓] theorem State.apl_modLnd (n : Nat) (g : LndCore → LndCore) : (s.modLnd n g).apl = s.apl := (rfl)
@[simp ↓] theorem State.out_modLnd (n : Nat) (g : LndCore → LndCore) : (s.modLnd n g).out = s.out := (rfl)
@[simp ↓] theorem State.tsc_modLnd (n : Nat) (g : LndCore → LndCore) : (s.modLnd n g).tsc = s.tsc := (rfl)
@[simp ↓] theorem State.tod_modLnd (n : Nat) (g : LndCore → LndCore) : (s.modLnd n g).tod = s.tod := (rfl)
@[simp ↓] theorem State.tasks_modLnd (n : Nat) (g : LndCore → LndCore) : (s.modLnd n g).tasks = s.tasks := (rfl)
@[simp ↓] theorem State.prt_modLnd (n : Nat) (g : LndCore → LndCore) : (s.modLnd n g).prt = s.prt := (rfl)
@[simp ↓] theorem State.pte_modLnd (n : Nat) (g : LndCore → LndCore) : (s.modLnd n g).pte = s.pte := (rfl)
@[simp ↓] theorem State.berth_modLnd (n : Nat) (g : LndCore → LndCore) : (s.modLnd n g).berth = s.berth := (rfl)
@[simp ↓] theorem State.gens_modLnd (n : Nat) (g : LndCore → LndCore) : (s.modLnd n g).gens = s.gens := (rfl)

/-! `modSel`. -/

@[simp ↓] theorem State.pending_modSel (n : Nat) (g : SelCore → SelCore) : (s.modSel n g).pending = s.pending := (rfl)
@[simp ↓] theorem State.now_modSel (n : Nat) (g : SelCore → SelCore) : (s.modSel n g).now = s.now := (rfl)
@[simp ↓] theorem State.freeCount_modSel (n : Nat) (g : SelCore → SelCore) : (s.modSel n g).freeCount = s.freeCount := (rfl)
@[simp ↓] theorem State.regs_modSel (n : Nat) (g : SelCore → SelCore) : (s.modSel n g).regs = s.regs := (rfl)
@[simp ↓] theorem State.mem_modSel (n : Nat) (g : SelCore → SelCore) : (s.modSel n g).mem = s.mem := (rfl)
@[simp ↓] theorem State.ecc_modSel (n : Nat) (g : SelCore → SelCore) : (s.modSel n g).ecc = s.ecc := (rfl)
@[simp ↓] theorem State.scrub_modSel (n : Nat) (g : SelCore → SelCore) : (s.modSel n g).scrub = s.scrub := (rfl)
@[simp ↓] theorem State.flash_modSel (n : Nat) (g : SelCore → SelCore) : (s.modSel n g).flash = s.flash := (rfl)
@[simp ↓] theorem State.slices_modSel (n : Nat) (g : SelCore → SelCore) : (s.modSel n g).slices = s.slices := (rfl)
@[simp ↓] theorem State.top_modSel (n : Nat) (g : SelCore → SelCore) : (s.modSel n g).top = s.top := (rfl)
@[simp ↓] theorem State.pwr_modSel (n : Nat) (g : SelCore → SelCore) : (s.modSel n g).pwr = s.pwr := (rfl)
@[simp ↓] theorem State.fab_modSel (n : Nat) (g : SelCore → SelCore) : (s.modSel n g).fab = s.fab := (rfl)
@[simp ↓] theorem State.flt_modSel (n : Nat) (g : SelCore → SelCore) : (s.modSel n g).flt = s.flt := (rfl)
@[simp ↓] theorem State.intr_modSel (n : Nat) (g : SelCore → SelCore) : (s.modSel n g).intr = s.intr := (rfl)
@[simp ↓] theorem State.cfg_modSel (n : Nat) (g : SelCore → SelCore) : (s.modSel n g).cfg = s.cfg := (rfl)
@[simp ↓] theorem State.hostA_modSel (n : Nat) (g : SelCore → SelCore) : (s.modSel n g).hostA = s.hostA := (rfl)
@[simp ↓] theorem State.hostB_modSel (n : Nat) (g : SelCore → SelCore) : (s.modSel n g).hostB = s.hostB := (rfl)
@[simp ↓] theorem State.nv_modSel (n : Nat) (g : SelCore → SelCore) : (s.modSel n g).nv = s.nv := (rfl)
@[simp ↓] theorem State.flm_modSel (n : Nat) (g : SelCore → SelCore) : (s.modSel n g).flm = s.flm := (rfl)
@[simp ↓] theorem State.sec_modSel (n : Nat) (g : SelCore → SelCore) : (s.modSel n g).sec = s.sec := (rfl)
@[simp ↓] theorem State.man_modSel (n : Nat) (g : SelCore → SelCore) : (s.modSel n g).man = s.man := (rfl)
@[simp ↓] theorem State.xlk_modSel (n : Nat) (g : SelCore → SelCore) : (s.modSel n g).xlk = s.xlk := (rfl)
@[simp ↓] theorem State.eng_modSel (n : Nat) (g : SelCore → SelCore) : (s.modSel n g).eng = s.eng := (rfl)
@[simp ↓] theorem State.lnd_modSel (n : Nat) (g : SelCore → SelCore) : (s.modSel n g).lnd = s.lnd := (rfl)
@[simp ↓] theorem State.ent_modSel (n : Nat) (g : SelCore → SelCore) : (s.modSel n g).ent = s.ent := (rfl)
@[simp ↓] theorem State.loop_modSel (n : Nat) (g : SelCore → SelCore) : (s.modSel n g).loop = s.loop := (rfl)
@[simp ↓] theorem State.ho_modSel (n : Nat) (g : SelCore → SelCore) : (s.modSel n g).ho = s.ho := (rfl)
@[simp ↓] theorem State.apl_modSel (n : Nat) (g : SelCore → SelCore) : (s.modSel n g).apl = s.apl := (rfl)
@[simp ↓] theorem State.out_modSel (n : Nat) (g : SelCore → SelCore) : (s.modSel n g).out = s.out := (rfl)
@[simp ↓] theorem State.tsc_modSel (n : Nat) (g : SelCore → SelCore) : (s.modSel n g).tsc = s.tsc := (rfl)
@[simp ↓] theorem State.tod_modSel (n : Nat) (g : SelCore → SelCore) : (s.modSel n g).tod = s.tod := (rfl)
@[simp ↓] theorem State.tasks_modSel (n : Nat) (g : SelCore → SelCore) : (s.modSel n g).tasks = s.tasks := (rfl)
@[simp ↓] theorem State.prt_modSel (n : Nat) (g : SelCore → SelCore) : (s.modSel n g).prt = s.prt := (rfl)
@[simp ↓] theorem State.pte_modSel (n : Nat) (g : SelCore → SelCore) : (s.modSel n g).pte = s.pte := (rfl)
@[simp ↓] theorem State.berth_modSel (n : Nat) (g : SelCore → SelCore) : (s.modSel n g).berth = s.berth := (rfl)
@[simp ↓] theorem State.gens_modSel (n : Nat) (g : SelCore → SelCore) : (s.modSel n g).gens = s.gens := (rfl)

/-! `modEnt`. -/

@[simp ↓] theorem State.pending_modEnt (n : Nat) (g : EntCore → EntCore) : (s.modEnt n g).pending = s.pending := (rfl)
@[simp ↓] theorem State.now_modEnt (n : Nat) (g : EntCore → EntCore) : (s.modEnt n g).now = s.now := (rfl)
@[simp ↓] theorem State.freeCount_modEnt (n : Nat) (g : EntCore → EntCore) : (s.modEnt n g).freeCount = s.freeCount := (rfl)
@[simp ↓] theorem State.regs_modEnt (n : Nat) (g : EntCore → EntCore) : (s.modEnt n g).regs = s.regs := (rfl)
@[simp ↓] theorem State.mem_modEnt (n : Nat) (g : EntCore → EntCore) : (s.modEnt n g).mem = s.mem := (rfl)
@[simp ↓] theorem State.ecc_modEnt (n : Nat) (g : EntCore → EntCore) : (s.modEnt n g).ecc = s.ecc := (rfl)
@[simp ↓] theorem State.scrub_modEnt (n : Nat) (g : EntCore → EntCore) : (s.modEnt n g).scrub = s.scrub := (rfl)
@[simp ↓] theorem State.flash_modEnt (n : Nat) (g : EntCore → EntCore) : (s.modEnt n g).flash = s.flash := (rfl)
@[simp ↓] theorem State.slices_modEnt (n : Nat) (g : EntCore → EntCore) : (s.modEnt n g).slices = s.slices := (rfl)
@[simp ↓] theorem State.top_modEnt (n : Nat) (g : EntCore → EntCore) : (s.modEnt n g).top = s.top := (rfl)
@[simp ↓] theorem State.pwr_modEnt (n : Nat) (g : EntCore → EntCore) : (s.modEnt n g).pwr = s.pwr := (rfl)
@[simp ↓] theorem State.fab_modEnt (n : Nat) (g : EntCore → EntCore) : (s.modEnt n g).fab = s.fab := (rfl)
@[simp ↓] theorem State.flt_modEnt (n : Nat) (g : EntCore → EntCore) : (s.modEnt n g).flt = s.flt := (rfl)
@[simp ↓] theorem State.intr_modEnt (n : Nat) (g : EntCore → EntCore) : (s.modEnt n g).intr = s.intr := (rfl)
@[simp ↓] theorem State.cfg_modEnt (n : Nat) (g : EntCore → EntCore) : (s.modEnt n g).cfg = s.cfg := (rfl)
@[simp ↓] theorem State.hostA_modEnt (n : Nat) (g : EntCore → EntCore) : (s.modEnt n g).hostA = s.hostA := (rfl)
@[simp ↓] theorem State.hostB_modEnt (n : Nat) (g : EntCore → EntCore) : (s.modEnt n g).hostB = s.hostB := (rfl)
@[simp ↓] theorem State.nv_modEnt (n : Nat) (g : EntCore → EntCore) : (s.modEnt n g).nv = s.nv := (rfl)
@[simp ↓] theorem State.flm_modEnt (n : Nat) (g : EntCore → EntCore) : (s.modEnt n g).flm = s.flm := (rfl)
@[simp ↓] theorem State.sec_modEnt (n : Nat) (g : EntCore → EntCore) : (s.modEnt n g).sec = s.sec := (rfl)
@[simp ↓] theorem State.man_modEnt (n : Nat) (g : EntCore → EntCore) : (s.modEnt n g).man = s.man := (rfl)
@[simp ↓] theorem State.xlk_modEnt (n : Nat) (g : EntCore → EntCore) : (s.modEnt n g).xlk = s.xlk := (rfl)
@[simp ↓] theorem State.eng_modEnt (n : Nat) (g : EntCore → EntCore) : (s.modEnt n g).eng = s.eng := (rfl)
@[simp ↓] theorem State.lnd_modEnt (n : Nat) (g : EntCore → EntCore) : (s.modEnt n g).lnd = s.lnd := (rfl)
@[simp ↓] theorem State.sel_modEnt (n : Nat) (g : EntCore → EntCore) : (s.modEnt n g).sel = s.sel := (rfl)
@[simp ↓] theorem State.loop_modEnt (n : Nat) (g : EntCore → EntCore) : (s.modEnt n g).loop = s.loop := (rfl)
@[simp ↓] theorem State.ho_modEnt (n : Nat) (g : EntCore → EntCore) : (s.modEnt n g).ho = s.ho := (rfl)
@[simp ↓] theorem State.apl_modEnt (n : Nat) (g : EntCore → EntCore) : (s.modEnt n g).apl = s.apl := (rfl)
@[simp ↓] theorem State.out_modEnt (n : Nat) (g : EntCore → EntCore) : (s.modEnt n g).out = s.out := (rfl)
@[simp ↓] theorem State.tsc_modEnt (n : Nat) (g : EntCore → EntCore) : (s.modEnt n g).tsc = s.tsc := (rfl)
@[simp ↓] theorem State.tod_modEnt (n : Nat) (g : EntCore → EntCore) : (s.modEnt n g).tod = s.tod := (rfl)
@[simp ↓] theorem State.tasks_modEnt (n : Nat) (g : EntCore → EntCore) : (s.modEnt n g).tasks = s.tasks := (rfl)
@[simp ↓] theorem State.prt_modEnt (n : Nat) (g : EntCore → EntCore) : (s.modEnt n g).prt = s.prt := (rfl)
@[simp ↓] theorem State.pte_modEnt (n : Nat) (g : EntCore → EntCore) : (s.modEnt n g).pte = s.pte := (rfl)
@[simp ↓] theorem State.berth_modEnt (n : Nat) (g : EntCore → EntCore) : (s.modEnt n g).berth = s.berth := (rfl)
@[simp ↓] theorem State.gens_modEnt (n : Nat) (g : EntCore → EntCore) : (s.modEnt n g).gens = s.gens := (rfl)

/-! `modLoop`. -/

@[simp ↓] theorem State.pending_modLoop (n : Nat) (g : LoopCore → LoopCore) : (s.modLoop n g).pending = s.pending := (rfl)
@[simp ↓] theorem State.now_modLoop (n : Nat) (g : LoopCore → LoopCore) : (s.modLoop n g).now = s.now := (rfl)
@[simp ↓] theorem State.freeCount_modLoop (n : Nat) (g : LoopCore → LoopCore) : (s.modLoop n g).freeCount = s.freeCount := (rfl)
@[simp ↓] theorem State.regs_modLoop (n : Nat) (g : LoopCore → LoopCore) : (s.modLoop n g).regs = s.regs := (rfl)
@[simp ↓] theorem State.mem_modLoop (n : Nat) (g : LoopCore → LoopCore) : (s.modLoop n g).mem = s.mem := (rfl)
@[simp ↓] theorem State.ecc_modLoop (n : Nat) (g : LoopCore → LoopCore) : (s.modLoop n g).ecc = s.ecc := (rfl)
@[simp ↓] theorem State.scrub_modLoop (n : Nat) (g : LoopCore → LoopCore) : (s.modLoop n g).scrub = s.scrub := (rfl)
@[simp ↓] theorem State.flash_modLoop (n : Nat) (g : LoopCore → LoopCore) : (s.modLoop n g).flash = s.flash := (rfl)
@[simp ↓] theorem State.slices_modLoop (n : Nat) (g : LoopCore → LoopCore) : (s.modLoop n g).slices = s.slices := (rfl)
@[simp ↓] theorem State.top_modLoop (n : Nat) (g : LoopCore → LoopCore) : (s.modLoop n g).top = s.top := (rfl)
@[simp ↓] theorem State.pwr_modLoop (n : Nat) (g : LoopCore → LoopCore) : (s.modLoop n g).pwr = s.pwr := (rfl)
@[simp ↓] theorem State.fab_modLoop (n : Nat) (g : LoopCore → LoopCore) : (s.modLoop n g).fab = s.fab := (rfl)
@[simp ↓] theorem State.flt_modLoop (n : Nat) (g : LoopCore → LoopCore) : (s.modLoop n g).flt = s.flt := (rfl)
@[simp ↓] theorem State.intr_modLoop (n : Nat) (g : LoopCore → LoopCore) : (s.modLoop n g).intr = s.intr := (rfl)
@[simp ↓] theorem State.cfg_modLoop (n : Nat) (g : LoopCore → LoopCore) : (s.modLoop n g).cfg = s.cfg := (rfl)
@[simp ↓] theorem State.hostA_modLoop (n : Nat) (g : LoopCore → LoopCore) : (s.modLoop n g).hostA = s.hostA := (rfl)
@[simp ↓] theorem State.hostB_modLoop (n : Nat) (g : LoopCore → LoopCore) : (s.modLoop n g).hostB = s.hostB := (rfl)
@[simp ↓] theorem State.nv_modLoop (n : Nat) (g : LoopCore → LoopCore) : (s.modLoop n g).nv = s.nv := (rfl)
@[simp ↓] theorem State.flm_modLoop (n : Nat) (g : LoopCore → LoopCore) : (s.modLoop n g).flm = s.flm := (rfl)
@[simp ↓] theorem State.sec_modLoop (n : Nat) (g : LoopCore → LoopCore) : (s.modLoop n g).sec = s.sec := (rfl)
@[simp ↓] theorem State.man_modLoop (n : Nat) (g : LoopCore → LoopCore) : (s.modLoop n g).man = s.man := (rfl)
@[simp ↓] theorem State.xlk_modLoop (n : Nat) (g : LoopCore → LoopCore) : (s.modLoop n g).xlk = s.xlk := (rfl)
@[simp ↓] theorem State.eng_modLoop (n : Nat) (g : LoopCore → LoopCore) : (s.modLoop n g).eng = s.eng := (rfl)
@[simp ↓] theorem State.lnd_modLoop (n : Nat) (g : LoopCore → LoopCore) : (s.modLoop n g).lnd = s.lnd := (rfl)
@[simp ↓] theorem State.sel_modLoop (n : Nat) (g : LoopCore → LoopCore) : (s.modLoop n g).sel = s.sel := (rfl)
@[simp ↓] theorem State.ent_modLoop (n : Nat) (g : LoopCore → LoopCore) : (s.modLoop n g).ent = s.ent := (rfl)
@[simp ↓] theorem State.ho_modLoop (n : Nat) (g : LoopCore → LoopCore) : (s.modLoop n g).ho = s.ho := (rfl)
@[simp ↓] theorem State.apl_modLoop (n : Nat) (g : LoopCore → LoopCore) : (s.modLoop n g).apl = s.apl := (rfl)
@[simp ↓] theorem State.out_modLoop (n : Nat) (g : LoopCore → LoopCore) : (s.modLoop n g).out = s.out := (rfl)
@[simp ↓] theorem State.tsc_modLoop (n : Nat) (g : LoopCore → LoopCore) : (s.modLoop n g).tsc = s.tsc := (rfl)
@[simp ↓] theorem State.tod_modLoop (n : Nat) (g : LoopCore → LoopCore) : (s.modLoop n g).tod = s.tod := (rfl)
@[simp ↓] theorem State.tasks_modLoop (n : Nat) (g : LoopCore → LoopCore) : (s.modLoop n g).tasks = s.tasks := (rfl)
@[simp ↓] theorem State.prt_modLoop (n : Nat) (g : LoopCore → LoopCore) : (s.modLoop n g).prt = s.prt := (rfl)
@[simp ↓] theorem State.pte_modLoop (n : Nat) (g : LoopCore → LoopCore) : (s.modLoop n g).pte = s.pte := (rfl)
@[simp ↓] theorem State.berth_modLoop (n : Nat) (g : LoopCore → LoopCore) : (s.modLoop n g).berth = s.berth := (rfl)
@[simp ↓] theorem State.gens_modLoop (n : Nat) (g : LoopCore → LoopCore) : (s.modLoop n g).gens = s.gens := (rfl)

/-! `modHo`. -/

@[simp ↓] theorem State.pending_modHo (n : Nat) (g : HoCore → HoCore) : (s.modHo n g).pending = s.pending := (rfl)
@[simp ↓] theorem State.now_modHo (n : Nat) (g : HoCore → HoCore) : (s.modHo n g).now = s.now := (rfl)
@[simp ↓] theorem State.freeCount_modHo (n : Nat) (g : HoCore → HoCore) : (s.modHo n g).freeCount = s.freeCount := (rfl)
@[simp ↓] theorem State.regs_modHo (n : Nat) (g : HoCore → HoCore) : (s.modHo n g).regs = s.regs := (rfl)
@[simp ↓] theorem State.mem_modHo (n : Nat) (g : HoCore → HoCore) : (s.modHo n g).mem = s.mem := (rfl)
@[simp ↓] theorem State.ecc_modHo (n : Nat) (g : HoCore → HoCore) : (s.modHo n g).ecc = s.ecc := (rfl)
@[simp ↓] theorem State.scrub_modHo (n : Nat) (g : HoCore → HoCore) : (s.modHo n g).scrub = s.scrub := (rfl)
@[simp ↓] theorem State.flash_modHo (n : Nat) (g : HoCore → HoCore) : (s.modHo n g).flash = s.flash := (rfl)
@[simp ↓] theorem State.slices_modHo (n : Nat) (g : HoCore → HoCore) : (s.modHo n g).slices = s.slices := (rfl)
@[simp ↓] theorem State.top_modHo (n : Nat) (g : HoCore → HoCore) : (s.modHo n g).top = s.top := (rfl)
@[simp ↓] theorem State.pwr_modHo (n : Nat) (g : HoCore → HoCore) : (s.modHo n g).pwr = s.pwr := (rfl)
@[simp ↓] theorem State.fab_modHo (n : Nat) (g : HoCore → HoCore) : (s.modHo n g).fab = s.fab := (rfl)
@[simp ↓] theorem State.flt_modHo (n : Nat) (g : HoCore → HoCore) : (s.modHo n g).flt = s.flt := (rfl)
@[simp ↓] theorem State.intr_modHo (n : Nat) (g : HoCore → HoCore) : (s.modHo n g).intr = s.intr := (rfl)
@[simp ↓] theorem State.cfg_modHo (n : Nat) (g : HoCore → HoCore) : (s.modHo n g).cfg = s.cfg := (rfl)
@[simp ↓] theorem State.hostA_modHo (n : Nat) (g : HoCore → HoCore) : (s.modHo n g).hostA = s.hostA := (rfl)
@[simp ↓] theorem State.hostB_modHo (n : Nat) (g : HoCore → HoCore) : (s.modHo n g).hostB = s.hostB := (rfl)
@[simp ↓] theorem State.nv_modHo (n : Nat) (g : HoCore → HoCore) : (s.modHo n g).nv = s.nv := (rfl)
@[simp ↓] theorem State.flm_modHo (n : Nat) (g : HoCore → HoCore) : (s.modHo n g).flm = s.flm := (rfl)
@[simp ↓] theorem State.sec_modHo (n : Nat) (g : HoCore → HoCore) : (s.modHo n g).sec = s.sec := (rfl)
@[simp ↓] theorem State.man_modHo (n : Nat) (g : HoCore → HoCore) : (s.modHo n g).man = s.man := (rfl)
@[simp ↓] theorem State.xlk_modHo (n : Nat) (g : HoCore → HoCore) : (s.modHo n g).xlk = s.xlk := (rfl)
@[simp ↓] theorem State.eng_modHo (n : Nat) (g : HoCore → HoCore) : (s.modHo n g).eng = s.eng := (rfl)
@[simp ↓] theorem State.lnd_modHo (n : Nat) (g : HoCore → HoCore) : (s.modHo n g).lnd = s.lnd := (rfl)
@[simp ↓] theorem State.sel_modHo (n : Nat) (g : HoCore → HoCore) : (s.modHo n g).sel = s.sel := (rfl)
@[simp ↓] theorem State.ent_modHo (n : Nat) (g : HoCore → HoCore) : (s.modHo n g).ent = s.ent := (rfl)
@[simp ↓] theorem State.loop_modHo (n : Nat) (g : HoCore → HoCore) : (s.modHo n g).loop = s.loop := (rfl)
@[simp ↓] theorem State.apl_modHo (n : Nat) (g : HoCore → HoCore) : (s.modHo n g).apl = s.apl := (rfl)
@[simp ↓] theorem State.out_modHo (n : Nat) (g : HoCore → HoCore) : (s.modHo n g).out = s.out := (rfl)
@[simp ↓] theorem State.tsc_modHo (n : Nat) (g : HoCore → HoCore) : (s.modHo n g).tsc = s.tsc := (rfl)
@[simp ↓] theorem State.tod_modHo (n : Nat) (g : HoCore → HoCore) : (s.modHo n g).tod = s.tod := (rfl)
@[simp ↓] theorem State.tasks_modHo (n : Nat) (g : HoCore → HoCore) : (s.modHo n g).tasks = s.tasks := (rfl)
@[simp ↓] theorem State.prt_modHo (n : Nat) (g : HoCore → HoCore) : (s.modHo n g).prt = s.prt := (rfl)
@[simp ↓] theorem State.pte_modHo (n : Nat) (g : HoCore → HoCore) : (s.modHo n g).pte = s.pte := (rfl)
@[simp ↓] theorem State.berth_modHo (n : Nat) (g : HoCore → HoCore) : (s.modHo n g).berth = s.berth := (rfl)
@[simp ↓] theorem State.gens_modHo (n : Nat) (g : HoCore → HoCore) : (s.modHo n g).gens = s.gens := (rfl)

/-! `modApl`. -/

@[simp ↓] theorem State.pending_modApl (n : Nat) (g : AplCore → AplCore) : (s.modApl n g).pending = s.pending := (rfl)
@[simp ↓] theorem State.now_modApl (n : Nat) (g : AplCore → AplCore) : (s.modApl n g).now = s.now := (rfl)
@[simp ↓] theorem State.freeCount_modApl (n : Nat) (g : AplCore → AplCore) : (s.modApl n g).freeCount = s.freeCount := (rfl)
@[simp ↓] theorem State.regs_modApl (n : Nat) (g : AplCore → AplCore) : (s.modApl n g).regs = s.regs := (rfl)
@[simp ↓] theorem State.mem_modApl (n : Nat) (g : AplCore → AplCore) : (s.modApl n g).mem = s.mem := (rfl)
@[simp ↓] theorem State.ecc_modApl (n : Nat) (g : AplCore → AplCore) : (s.modApl n g).ecc = s.ecc := (rfl)
@[simp ↓] theorem State.scrub_modApl (n : Nat) (g : AplCore → AplCore) : (s.modApl n g).scrub = s.scrub := (rfl)
@[simp ↓] theorem State.flash_modApl (n : Nat) (g : AplCore → AplCore) : (s.modApl n g).flash = s.flash := (rfl)
@[simp ↓] theorem State.slices_modApl (n : Nat) (g : AplCore → AplCore) : (s.modApl n g).slices = s.slices := (rfl)
@[simp ↓] theorem State.top_modApl (n : Nat) (g : AplCore → AplCore) : (s.modApl n g).top = s.top := (rfl)
@[simp ↓] theorem State.pwr_modApl (n : Nat) (g : AplCore → AplCore) : (s.modApl n g).pwr = s.pwr := (rfl)
@[simp ↓] theorem State.fab_modApl (n : Nat) (g : AplCore → AplCore) : (s.modApl n g).fab = s.fab := (rfl)
@[simp ↓] theorem State.flt_modApl (n : Nat) (g : AplCore → AplCore) : (s.modApl n g).flt = s.flt := (rfl)
@[simp ↓] theorem State.intr_modApl (n : Nat) (g : AplCore → AplCore) : (s.modApl n g).intr = s.intr := (rfl)
@[simp ↓] theorem State.cfg_modApl (n : Nat) (g : AplCore → AplCore) : (s.modApl n g).cfg = s.cfg := (rfl)
@[simp ↓] theorem State.hostA_modApl (n : Nat) (g : AplCore → AplCore) : (s.modApl n g).hostA = s.hostA := (rfl)
@[simp ↓] theorem State.hostB_modApl (n : Nat) (g : AplCore → AplCore) : (s.modApl n g).hostB = s.hostB := (rfl)
@[simp ↓] theorem State.nv_modApl (n : Nat) (g : AplCore → AplCore) : (s.modApl n g).nv = s.nv := (rfl)
@[simp ↓] theorem State.flm_modApl (n : Nat) (g : AplCore → AplCore) : (s.modApl n g).flm = s.flm := (rfl)
@[simp ↓] theorem State.sec_modApl (n : Nat) (g : AplCore → AplCore) : (s.modApl n g).sec = s.sec := (rfl)
@[simp ↓] theorem State.man_modApl (n : Nat) (g : AplCore → AplCore) : (s.modApl n g).man = s.man := (rfl)
@[simp ↓] theorem State.xlk_modApl (n : Nat) (g : AplCore → AplCore) : (s.modApl n g).xlk = s.xlk := (rfl)
@[simp ↓] theorem State.eng_modApl (n : Nat) (g : AplCore → AplCore) : (s.modApl n g).eng = s.eng := (rfl)
@[simp ↓] theorem State.lnd_modApl (n : Nat) (g : AplCore → AplCore) : (s.modApl n g).lnd = s.lnd := (rfl)
@[simp ↓] theorem State.sel_modApl (n : Nat) (g : AplCore → AplCore) : (s.modApl n g).sel = s.sel := (rfl)
@[simp ↓] theorem State.ent_modApl (n : Nat) (g : AplCore → AplCore) : (s.modApl n g).ent = s.ent := (rfl)
@[simp ↓] theorem State.loop_modApl (n : Nat) (g : AplCore → AplCore) : (s.modApl n g).loop = s.loop := (rfl)
@[simp ↓] theorem State.ho_modApl (n : Nat) (g : AplCore → AplCore) : (s.modApl n g).ho = s.ho := (rfl)
@[simp ↓] theorem State.out_modApl (n : Nat) (g : AplCore → AplCore) : (s.modApl n g).out = s.out := (rfl)
@[simp ↓] theorem State.tsc_modApl (n : Nat) (g : AplCore → AplCore) : (s.modApl n g).tsc = s.tsc := (rfl)
@[simp ↓] theorem State.tod_modApl (n : Nat) (g : AplCore → AplCore) : (s.modApl n g).tod = s.tod := (rfl)
@[simp ↓] theorem State.tasks_modApl (n : Nat) (g : AplCore → AplCore) : (s.modApl n g).tasks = s.tasks := (rfl)
@[simp ↓] theorem State.prt_modApl (n : Nat) (g : AplCore → AplCore) : (s.modApl n g).prt = s.prt := (rfl)
@[simp ↓] theorem State.pte_modApl (n : Nat) (g : AplCore → AplCore) : (s.modApl n g).pte = s.pte := (rfl)
@[simp ↓] theorem State.berth_modApl (n : Nat) (g : AplCore → AplCore) : (s.modApl n g).berth = s.berth := (rfl)
@[simp ↓] theorem State.gens_modApl (n : Nat) (g : AplCore → AplCore) : (s.modApl n g).gens = s.gens := (rfl)

/-! `modOut`. -/

@[simp ↓] theorem State.pending_modOut (n : Nat) (g : OutCore → OutCore) : (s.modOut n g).pending = s.pending := (rfl)
@[simp ↓] theorem State.now_modOut (n : Nat) (g : OutCore → OutCore) : (s.modOut n g).now = s.now := (rfl)
@[simp ↓] theorem State.freeCount_modOut (n : Nat) (g : OutCore → OutCore) : (s.modOut n g).freeCount = s.freeCount := (rfl)
@[simp ↓] theorem State.regs_modOut (n : Nat) (g : OutCore → OutCore) : (s.modOut n g).regs = s.regs := (rfl)
@[simp ↓] theorem State.mem_modOut (n : Nat) (g : OutCore → OutCore) : (s.modOut n g).mem = s.mem := (rfl)
@[simp ↓] theorem State.ecc_modOut (n : Nat) (g : OutCore → OutCore) : (s.modOut n g).ecc = s.ecc := (rfl)
@[simp ↓] theorem State.scrub_modOut (n : Nat) (g : OutCore → OutCore) : (s.modOut n g).scrub = s.scrub := (rfl)
@[simp ↓] theorem State.flash_modOut (n : Nat) (g : OutCore → OutCore) : (s.modOut n g).flash = s.flash := (rfl)
@[simp ↓] theorem State.slices_modOut (n : Nat) (g : OutCore → OutCore) : (s.modOut n g).slices = s.slices := (rfl)
@[simp ↓] theorem State.top_modOut (n : Nat) (g : OutCore → OutCore) : (s.modOut n g).top = s.top := (rfl)
@[simp ↓] theorem State.pwr_modOut (n : Nat) (g : OutCore → OutCore) : (s.modOut n g).pwr = s.pwr := (rfl)
@[simp ↓] theorem State.fab_modOut (n : Nat) (g : OutCore → OutCore) : (s.modOut n g).fab = s.fab := (rfl)
@[simp ↓] theorem State.flt_modOut (n : Nat) (g : OutCore → OutCore) : (s.modOut n g).flt = s.flt := (rfl)
@[simp ↓] theorem State.intr_modOut (n : Nat) (g : OutCore → OutCore) : (s.modOut n g).intr = s.intr := (rfl)
@[simp ↓] theorem State.cfg_modOut (n : Nat) (g : OutCore → OutCore) : (s.modOut n g).cfg = s.cfg := (rfl)
@[simp ↓] theorem State.hostA_modOut (n : Nat) (g : OutCore → OutCore) : (s.modOut n g).hostA = s.hostA := (rfl)
@[simp ↓] theorem State.hostB_modOut (n : Nat) (g : OutCore → OutCore) : (s.modOut n g).hostB = s.hostB := (rfl)
@[simp ↓] theorem State.nv_modOut (n : Nat) (g : OutCore → OutCore) : (s.modOut n g).nv = s.nv := (rfl)
@[simp ↓] theorem State.flm_modOut (n : Nat) (g : OutCore → OutCore) : (s.modOut n g).flm = s.flm := (rfl)
@[simp ↓] theorem State.sec_modOut (n : Nat) (g : OutCore → OutCore) : (s.modOut n g).sec = s.sec := (rfl)
@[simp ↓] theorem State.man_modOut (n : Nat) (g : OutCore → OutCore) : (s.modOut n g).man = s.man := (rfl)
@[simp ↓] theorem State.xlk_modOut (n : Nat) (g : OutCore → OutCore) : (s.modOut n g).xlk = s.xlk := (rfl)
@[simp ↓] theorem State.eng_modOut (n : Nat) (g : OutCore → OutCore) : (s.modOut n g).eng = s.eng := (rfl)
@[simp ↓] theorem State.lnd_modOut (n : Nat) (g : OutCore → OutCore) : (s.modOut n g).lnd = s.lnd := (rfl)
@[simp ↓] theorem State.sel_modOut (n : Nat) (g : OutCore → OutCore) : (s.modOut n g).sel = s.sel := (rfl)
@[simp ↓] theorem State.ent_modOut (n : Nat) (g : OutCore → OutCore) : (s.modOut n g).ent = s.ent := (rfl)
@[simp ↓] theorem State.loop_modOut (n : Nat) (g : OutCore → OutCore) : (s.modOut n g).loop = s.loop := (rfl)
@[simp ↓] theorem State.ho_modOut (n : Nat) (g : OutCore → OutCore) : (s.modOut n g).ho = s.ho := (rfl)
@[simp ↓] theorem State.apl_modOut (n : Nat) (g : OutCore → OutCore) : (s.modOut n g).apl = s.apl := (rfl)
@[simp ↓] theorem State.tsc_modOut (n : Nat) (g : OutCore → OutCore) : (s.modOut n g).tsc = s.tsc := (rfl)
@[simp ↓] theorem State.tod_modOut (n : Nat) (g : OutCore → OutCore) : (s.modOut n g).tod = s.tod := (rfl)
@[simp ↓] theorem State.tasks_modOut (n : Nat) (g : OutCore → OutCore) : (s.modOut n g).tasks = s.tasks := (rfl)
@[simp ↓] theorem State.prt_modOut (n : Nat) (g : OutCore → OutCore) : (s.modOut n g).prt = s.prt := (rfl)
@[simp ↓] theorem State.pte_modOut (n : Nat) (g : OutCore → OutCore) : (s.modOut n g).pte = s.pte := (rfl)
@[simp ↓] theorem State.berth_modOut (n : Nat) (g : OutCore → OutCore) : (s.modOut n g).berth = s.berth := (rfl)
@[simp ↓] theorem State.gens_modOut (n : Nat) (g : OutCore → OutCore) : (s.modOut n g).gens = s.gens := (rfl)

/-! `modTsc`. -/

@[simp ↓] theorem State.pending_modTsc (n : Nat) (g : TscCore → TscCore) : (s.modTsc n g).pending = s.pending := (rfl)
@[simp ↓] theorem State.now_modTsc (n : Nat) (g : TscCore → TscCore) : (s.modTsc n g).now = s.now := (rfl)
@[simp ↓] theorem State.freeCount_modTsc (n : Nat) (g : TscCore → TscCore) : (s.modTsc n g).freeCount = s.freeCount := (rfl)
@[simp ↓] theorem State.regs_modTsc (n : Nat) (g : TscCore → TscCore) : (s.modTsc n g).regs = s.regs := (rfl)
@[simp ↓] theorem State.mem_modTsc (n : Nat) (g : TscCore → TscCore) : (s.modTsc n g).mem = s.mem := (rfl)
@[simp ↓] theorem State.ecc_modTsc (n : Nat) (g : TscCore → TscCore) : (s.modTsc n g).ecc = s.ecc := (rfl)
@[simp ↓] theorem State.scrub_modTsc (n : Nat) (g : TscCore → TscCore) : (s.modTsc n g).scrub = s.scrub := (rfl)
@[simp ↓] theorem State.flash_modTsc (n : Nat) (g : TscCore → TscCore) : (s.modTsc n g).flash = s.flash := (rfl)
@[simp ↓] theorem State.slices_modTsc (n : Nat) (g : TscCore → TscCore) : (s.modTsc n g).slices = s.slices := (rfl)
@[simp ↓] theorem State.top_modTsc (n : Nat) (g : TscCore → TscCore) : (s.modTsc n g).top = s.top := (rfl)
@[simp ↓] theorem State.pwr_modTsc (n : Nat) (g : TscCore → TscCore) : (s.modTsc n g).pwr = s.pwr := (rfl)
@[simp ↓] theorem State.fab_modTsc (n : Nat) (g : TscCore → TscCore) : (s.modTsc n g).fab = s.fab := (rfl)
@[simp ↓] theorem State.flt_modTsc (n : Nat) (g : TscCore → TscCore) : (s.modTsc n g).flt = s.flt := (rfl)
@[simp ↓] theorem State.intr_modTsc (n : Nat) (g : TscCore → TscCore) : (s.modTsc n g).intr = s.intr := (rfl)
@[simp ↓] theorem State.cfg_modTsc (n : Nat) (g : TscCore → TscCore) : (s.modTsc n g).cfg = s.cfg := (rfl)
@[simp ↓] theorem State.hostA_modTsc (n : Nat) (g : TscCore → TscCore) : (s.modTsc n g).hostA = s.hostA := (rfl)
@[simp ↓] theorem State.hostB_modTsc (n : Nat) (g : TscCore → TscCore) : (s.modTsc n g).hostB = s.hostB := (rfl)
@[simp ↓] theorem State.nv_modTsc (n : Nat) (g : TscCore → TscCore) : (s.modTsc n g).nv = s.nv := (rfl)
@[simp ↓] theorem State.flm_modTsc (n : Nat) (g : TscCore → TscCore) : (s.modTsc n g).flm = s.flm := (rfl)
@[simp ↓] theorem State.sec_modTsc (n : Nat) (g : TscCore → TscCore) : (s.modTsc n g).sec = s.sec := (rfl)
@[simp ↓] theorem State.man_modTsc (n : Nat) (g : TscCore → TscCore) : (s.modTsc n g).man = s.man := (rfl)
@[simp ↓] theorem State.xlk_modTsc (n : Nat) (g : TscCore → TscCore) : (s.modTsc n g).xlk = s.xlk := (rfl)
@[simp ↓] theorem State.eng_modTsc (n : Nat) (g : TscCore → TscCore) : (s.modTsc n g).eng = s.eng := (rfl)
@[simp ↓] theorem State.lnd_modTsc (n : Nat) (g : TscCore → TscCore) : (s.modTsc n g).lnd = s.lnd := (rfl)
@[simp ↓] theorem State.sel_modTsc (n : Nat) (g : TscCore → TscCore) : (s.modTsc n g).sel = s.sel := (rfl)
@[simp ↓] theorem State.ent_modTsc (n : Nat) (g : TscCore → TscCore) : (s.modTsc n g).ent = s.ent := (rfl)
@[simp ↓] theorem State.loop_modTsc (n : Nat) (g : TscCore → TscCore) : (s.modTsc n g).loop = s.loop := (rfl)
@[simp ↓] theorem State.ho_modTsc (n : Nat) (g : TscCore → TscCore) : (s.modTsc n g).ho = s.ho := (rfl)
@[simp ↓] theorem State.apl_modTsc (n : Nat) (g : TscCore → TscCore) : (s.modTsc n g).apl = s.apl := (rfl)
@[simp ↓] theorem State.out_modTsc (n : Nat) (g : TscCore → TscCore) : (s.modTsc n g).out = s.out := (rfl)
@[simp ↓] theorem State.tod_modTsc (n : Nat) (g : TscCore → TscCore) : (s.modTsc n g).tod = s.tod := (rfl)
@[simp ↓] theorem State.tasks_modTsc (n : Nat) (g : TscCore → TscCore) : (s.modTsc n g).tasks = s.tasks := (rfl)
@[simp ↓] theorem State.prt_modTsc (n : Nat) (g : TscCore → TscCore) : (s.modTsc n g).prt = s.prt := (rfl)
@[simp ↓] theorem State.pte_modTsc (n : Nat) (g : TscCore → TscCore) : (s.modTsc n g).pte = s.pte := (rfl)
@[simp ↓] theorem State.berth_modTsc (n : Nat) (g : TscCore → TscCore) : (s.modTsc n g).berth = s.berth := (rfl)
@[simp ↓] theorem State.gens_modTsc (n : Nat) (g : TscCore → TscCore) : (s.modTsc n g).gens = s.gens := (rfl)

/-! `modTod`. -/

@[simp ↓] theorem State.pending_modTod (n : Nat) (g : TodCore → TodCore) : (s.modTod n g).pending = s.pending := (rfl)
@[simp ↓] theorem State.now_modTod (n : Nat) (g : TodCore → TodCore) : (s.modTod n g).now = s.now := (rfl)
@[simp ↓] theorem State.freeCount_modTod (n : Nat) (g : TodCore → TodCore) : (s.modTod n g).freeCount = s.freeCount := (rfl)
@[simp ↓] theorem State.regs_modTod (n : Nat) (g : TodCore → TodCore) : (s.modTod n g).regs = s.regs := (rfl)
@[simp ↓] theorem State.mem_modTod (n : Nat) (g : TodCore → TodCore) : (s.modTod n g).mem = s.mem := (rfl)
@[simp ↓] theorem State.ecc_modTod (n : Nat) (g : TodCore → TodCore) : (s.modTod n g).ecc = s.ecc := (rfl)
@[simp ↓] theorem State.scrub_modTod (n : Nat) (g : TodCore → TodCore) : (s.modTod n g).scrub = s.scrub := (rfl)
@[simp ↓] theorem State.flash_modTod (n : Nat) (g : TodCore → TodCore) : (s.modTod n g).flash = s.flash := (rfl)
@[simp ↓] theorem State.slices_modTod (n : Nat) (g : TodCore → TodCore) : (s.modTod n g).slices = s.slices := (rfl)
@[simp ↓] theorem State.top_modTod (n : Nat) (g : TodCore → TodCore) : (s.modTod n g).top = s.top := (rfl)
@[simp ↓] theorem State.pwr_modTod (n : Nat) (g : TodCore → TodCore) : (s.modTod n g).pwr = s.pwr := (rfl)
@[simp ↓] theorem State.fab_modTod (n : Nat) (g : TodCore → TodCore) : (s.modTod n g).fab = s.fab := (rfl)
@[simp ↓] theorem State.flt_modTod (n : Nat) (g : TodCore → TodCore) : (s.modTod n g).flt = s.flt := (rfl)
@[simp ↓] theorem State.intr_modTod (n : Nat) (g : TodCore → TodCore) : (s.modTod n g).intr = s.intr := (rfl)
@[simp ↓] theorem State.cfg_modTod (n : Nat) (g : TodCore → TodCore) : (s.modTod n g).cfg = s.cfg := (rfl)
@[simp ↓] theorem State.hostA_modTod (n : Nat) (g : TodCore → TodCore) : (s.modTod n g).hostA = s.hostA := (rfl)
@[simp ↓] theorem State.hostB_modTod (n : Nat) (g : TodCore → TodCore) : (s.modTod n g).hostB = s.hostB := (rfl)
@[simp ↓] theorem State.nv_modTod (n : Nat) (g : TodCore → TodCore) : (s.modTod n g).nv = s.nv := (rfl)
@[simp ↓] theorem State.flm_modTod (n : Nat) (g : TodCore → TodCore) : (s.modTod n g).flm = s.flm := (rfl)
@[simp ↓] theorem State.sec_modTod (n : Nat) (g : TodCore → TodCore) : (s.modTod n g).sec = s.sec := (rfl)
@[simp ↓] theorem State.man_modTod (n : Nat) (g : TodCore → TodCore) : (s.modTod n g).man = s.man := (rfl)
@[simp ↓] theorem State.xlk_modTod (n : Nat) (g : TodCore → TodCore) : (s.modTod n g).xlk = s.xlk := (rfl)
@[simp ↓] theorem State.eng_modTod (n : Nat) (g : TodCore → TodCore) : (s.modTod n g).eng = s.eng := (rfl)
@[simp ↓] theorem State.lnd_modTod (n : Nat) (g : TodCore → TodCore) : (s.modTod n g).lnd = s.lnd := (rfl)
@[simp ↓] theorem State.sel_modTod (n : Nat) (g : TodCore → TodCore) : (s.modTod n g).sel = s.sel := (rfl)
@[simp ↓] theorem State.ent_modTod (n : Nat) (g : TodCore → TodCore) : (s.modTod n g).ent = s.ent := (rfl)
@[simp ↓] theorem State.loop_modTod (n : Nat) (g : TodCore → TodCore) : (s.modTod n g).loop = s.loop := (rfl)
@[simp ↓] theorem State.ho_modTod (n : Nat) (g : TodCore → TodCore) : (s.modTod n g).ho = s.ho := (rfl)
@[simp ↓] theorem State.apl_modTod (n : Nat) (g : TodCore → TodCore) : (s.modTod n g).apl = s.apl := (rfl)
@[simp ↓] theorem State.out_modTod (n : Nat) (g : TodCore → TodCore) : (s.modTod n g).out = s.out := (rfl)
@[simp ↓] theorem State.tsc_modTod (n : Nat) (g : TodCore → TodCore) : (s.modTod n g).tsc = s.tsc := (rfl)
@[simp ↓] theorem State.tasks_modTod (n : Nat) (g : TodCore → TodCore) : (s.modTod n g).tasks = s.tasks := (rfl)
@[simp ↓] theorem State.prt_modTod (n : Nat) (g : TodCore → TodCore) : (s.modTod n g).prt = s.prt := (rfl)
@[simp ↓] theorem State.pte_modTod (n : Nat) (g : TodCore → TodCore) : (s.modTod n g).pte = s.pte := (rfl)
@[simp ↓] theorem State.berth_modTod (n : Nat) (g : TodCore → TodCore) : (s.modTod n g).berth = s.berth := (rfl)
@[simp ↓] theorem State.gens_modTod (n : Nat) (g : TodCore → TodCore) : (s.modTod n g).gens = s.gens := (rfl)

/-! `modTasks`. -/

@[simp ↓] theorem State.pending_modTasks (n : Nat) (g : List TaskRun → List TaskRun) : (s.modTasks n g).pending = s.pending := (rfl)
@[simp ↓] theorem State.now_modTasks (n : Nat) (g : List TaskRun → List TaskRun) : (s.modTasks n g).now = s.now := (rfl)
@[simp ↓] theorem State.freeCount_modTasks (n : Nat) (g : List TaskRun → List TaskRun) : (s.modTasks n g).freeCount = s.freeCount := (rfl)
@[simp ↓] theorem State.regs_modTasks (n : Nat) (g : List TaskRun → List TaskRun) : (s.modTasks n g).regs = s.regs := (rfl)
@[simp ↓] theorem State.mem_modTasks (n : Nat) (g : List TaskRun → List TaskRun) : (s.modTasks n g).mem = s.mem := (rfl)
@[simp ↓] theorem State.ecc_modTasks (n : Nat) (g : List TaskRun → List TaskRun) : (s.modTasks n g).ecc = s.ecc := (rfl)
@[simp ↓] theorem State.scrub_modTasks (n : Nat) (g : List TaskRun → List TaskRun) : (s.modTasks n g).scrub = s.scrub := (rfl)
@[simp ↓] theorem State.flash_modTasks (n : Nat) (g : List TaskRun → List TaskRun) : (s.modTasks n g).flash = s.flash := (rfl)
@[simp ↓] theorem State.slices_modTasks (n : Nat) (g : List TaskRun → List TaskRun) : (s.modTasks n g).slices = s.slices := (rfl)
@[simp ↓] theorem State.top_modTasks (n : Nat) (g : List TaskRun → List TaskRun) : (s.modTasks n g).top = s.top := (rfl)
@[simp ↓] theorem State.pwr_modTasks (n : Nat) (g : List TaskRun → List TaskRun) : (s.modTasks n g).pwr = s.pwr := (rfl)
@[simp ↓] theorem State.fab_modTasks (n : Nat) (g : List TaskRun → List TaskRun) : (s.modTasks n g).fab = s.fab := (rfl)
@[simp ↓] theorem State.flt_modTasks (n : Nat) (g : List TaskRun → List TaskRun) : (s.modTasks n g).flt = s.flt := (rfl)
@[simp ↓] theorem State.intr_modTasks (n : Nat) (g : List TaskRun → List TaskRun) : (s.modTasks n g).intr = s.intr := (rfl)
@[simp ↓] theorem State.cfg_modTasks (n : Nat) (g : List TaskRun → List TaskRun) : (s.modTasks n g).cfg = s.cfg := (rfl)
@[simp ↓] theorem State.hostA_modTasks (n : Nat) (g : List TaskRun → List TaskRun) : (s.modTasks n g).hostA = s.hostA := (rfl)
@[simp ↓] theorem State.hostB_modTasks (n : Nat) (g : List TaskRun → List TaskRun) : (s.modTasks n g).hostB = s.hostB := (rfl)
@[simp ↓] theorem State.nv_modTasks (n : Nat) (g : List TaskRun → List TaskRun) : (s.modTasks n g).nv = s.nv := (rfl)
@[simp ↓] theorem State.flm_modTasks (n : Nat) (g : List TaskRun → List TaskRun) : (s.modTasks n g).flm = s.flm := (rfl)
@[simp ↓] theorem State.sec_modTasks (n : Nat) (g : List TaskRun → List TaskRun) : (s.modTasks n g).sec = s.sec := (rfl)
@[simp ↓] theorem State.man_modTasks (n : Nat) (g : List TaskRun → List TaskRun) : (s.modTasks n g).man = s.man := (rfl)
@[simp ↓] theorem State.xlk_modTasks (n : Nat) (g : List TaskRun → List TaskRun) : (s.modTasks n g).xlk = s.xlk := (rfl)
@[simp ↓] theorem State.eng_modTasks (n : Nat) (g : List TaskRun → List TaskRun) : (s.modTasks n g).eng = s.eng := (rfl)
@[simp ↓] theorem State.lnd_modTasks (n : Nat) (g : List TaskRun → List TaskRun) : (s.modTasks n g).lnd = s.lnd := (rfl)
@[simp ↓] theorem State.sel_modTasks (n : Nat) (g : List TaskRun → List TaskRun) : (s.modTasks n g).sel = s.sel := (rfl)
@[simp ↓] theorem State.ent_modTasks (n : Nat) (g : List TaskRun → List TaskRun) : (s.modTasks n g).ent = s.ent := (rfl)
@[simp ↓] theorem State.loop_modTasks (n : Nat) (g : List TaskRun → List TaskRun) : (s.modTasks n g).loop = s.loop := (rfl)
@[simp ↓] theorem State.ho_modTasks (n : Nat) (g : List TaskRun → List TaskRun) : (s.modTasks n g).ho = s.ho := (rfl)
@[simp ↓] theorem State.apl_modTasks (n : Nat) (g : List TaskRun → List TaskRun) : (s.modTasks n g).apl = s.apl := (rfl)
@[simp ↓] theorem State.out_modTasks (n : Nat) (g : List TaskRun → List TaskRun) : (s.modTasks n g).out = s.out := (rfl)
@[simp ↓] theorem State.tsc_modTasks (n : Nat) (g : List TaskRun → List TaskRun) : (s.modTasks n g).tsc = s.tsc := (rfl)
@[simp ↓] theorem State.tod_modTasks (n : Nat) (g : List TaskRun → List TaskRun) : (s.modTasks n g).tod = s.tod := (rfl)
@[simp ↓] theorem State.prt_modTasks (n : Nat) (g : List TaskRun → List TaskRun) : (s.modTasks n g).prt = s.prt := (rfl)
@[simp ↓] theorem State.pte_modTasks (n : Nat) (g : List TaskRun → List TaskRun) : (s.modTasks n g).pte = s.pte := (rfl)
@[simp ↓] theorem State.berth_modTasks (n : Nat) (g : List TaskRun → List TaskRun) : (s.modTasks n g).berth = s.berth := (rfl)
@[simp ↓] theorem State.gens_modTasks (n : Nat) (g : List TaskRun → List TaskRun) : (s.modTasks n g).gens = s.gens := (rfl)

/-! `modPrt`. -/

@[simp ↓] theorem State.pending_modPrt (n : Nat) (g : PrtCore → PrtCore) : (s.modPrt n g).pending = s.pending := (rfl)
@[simp ↓] theorem State.now_modPrt (n : Nat) (g : PrtCore → PrtCore) : (s.modPrt n g).now = s.now := (rfl)
@[simp ↓] theorem State.freeCount_modPrt (n : Nat) (g : PrtCore → PrtCore) : (s.modPrt n g).freeCount = s.freeCount := (rfl)
@[simp ↓] theorem State.regs_modPrt (n : Nat) (g : PrtCore → PrtCore) : (s.modPrt n g).regs = s.regs := (rfl)
@[simp ↓] theorem State.mem_modPrt (n : Nat) (g : PrtCore → PrtCore) : (s.modPrt n g).mem = s.mem := (rfl)
@[simp ↓] theorem State.ecc_modPrt (n : Nat) (g : PrtCore → PrtCore) : (s.modPrt n g).ecc = s.ecc := (rfl)
@[simp ↓] theorem State.scrub_modPrt (n : Nat) (g : PrtCore → PrtCore) : (s.modPrt n g).scrub = s.scrub := (rfl)
@[simp ↓] theorem State.flash_modPrt (n : Nat) (g : PrtCore → PrtCore) : (s.modPrt n g).flash = s.flash := (rfl)
@[simp ↓] theorem State.slices_modPrt (n : Nat) (g : PrtCore → PrtCore) : (s.modPrt n g).slices = s.slices := (rfl)
@[simp ↓] theorem State.top_modPrt (n : Nat) (g : PrtCore → PrtCore) : (s.modPrt n g).top = s.top := (rfl)
@[simp ↓] theorem State.pwr_modPrt (n : Nat) (g : PrtCore → PrtCore) : (s.modPrt n g).pwr = s.pwr := (rfl)
@[simp ↓] theorem State.fab_modPrt (n : Nat) (g : PrtCore → PrtCore) : (s.modPrt n g).fab = s.fab := (rfl)
@[simp ↓] theorem State.flt_modPrt (n : Nat) (g : PrtCore → PrtCore) : (s.modPrt n g).flt = s.flt := (rfl)
@[simp ↓] theorem State.intr_modPrt (n : Nat) (g : PrtCore → PrtCore) : (s.modPrt n g).intr = s.intr := (rfl)
@[simp ↓] theorem State.cfg_modPrt (n : Nat) (g : PrtCore → PrtCore) : (s.modPrt n g).cfg = s.cfg := (rfl)
@[simp ↓] theorem State.hostA_modPrt (n : Nat) (g : PrtCore → PrtCore) : (s.modPrt n g).hostA = s.hostA := (rfl)
@[simp ↓] theorem State.hostB_modPrt (n : Nat) (g : PrtCore → PrtCore) : (s.modPrt n g).hostB = s.hostB := (rfl)
@[simp ↓] theorem State.nv_modPrt (n : Nat) (g : PrtCore → PrtCore) : (s.modPrt n g).nv = s.nv := (rfl)
@[simp ↓] theorem State.flm_modPrt (n : Nat) (g : PrtCore → PrtCore) : (s.modPrt n g).flm = s.flm := (rfl)
@[simp ↓] theorem State.sec_modPrt (n : Nat) (g : PrtCore → PrtCore) : (s.modPrt n g).sec = s.sec := (rfl)
@[simp ↓] theorem State.man_modPrt (n : Nat) (g : PrtCore → PrtCore) : (s.modPrt n g).man = s.man := (rfl)
@[simp ↓] theorem State.xlk_modPrt (n : Nat) (g : PrtCore → PrtCore) : (s.modPrt n g).xlk = s.xlk := (rfl)
@[simp ↓] theorem State.eng_modPrt (n : Nat) (g : PrtCore → PrtCore) : (s.modPrt n g).eng = s.eng := (rfl)
@[simp ↓] theorem State.lnd_modPrt (n : Nat) (g : PrtCore → PrtCore) : (s.modPrt n g).lnd = s.lnd := (rfl)
@[simp ↓] theorem State.sel_modPrt (n : Nat) (g : PrtCore → PrtCore) : (s.modPrt n g).sel = s.sel := (rfl)
@[simp ↓] theorem State.ent_modPrt (n : Nat) (g : PrtCore → PrtCore) : (s.modPrt n g).ent = s.ent := (rfl)
@[simp ↓] theorem State.loop_modPrt (n : Nat) (g : PrtCore → PrtCore) : (s.modPrt n g).loop = s.loop := (rfl)
@[simp ↓] theorem State.ho_modPrt (n : Nat) (g : PrtCore → PrtCore) : (s.modPrt n g).ho = s.ho := (rfl)
@[simp ↓] theorem State.apl_modPrt (n : Nat) (g : PrtCore → PrtCore) : (s.modPrt n g).apl = s.apl := (rfl)
@[simp ↓] theorem State.out_modPrt (n : Nat) (g : PrtCore → PrtCore) : (s.modPrt n g).out = s.out := (rfl)
@[simp ↓] theorem State.tsc_modPrt (n : Nat) (g : PrtCore → PrtCore) : (s.modPrt n g).tsc = s.tsc := (rfl)
@[simp ↓] theorem State.tod_modPrt (n : Nat) (g : PrtCore → PrtCore) : (s.modPrt n g).tod = s.tod := (rfl)
@[simp ↓] theorem State.tasks_modPrt (n : Nat) (g : PrtCore → PrtCore) : (s.modPrt n g).tasks = s.tasks := (rfl)
@[simp ↓] theorem State.pte_modPrt (n : Nat) (g : PrtCore → PrtCore) : (s.modPrt n g).pte = s.pte := (rfl)
@[simp ↓] theorem State.berth_modPrt (n : Nat) (g : PrtCore → PrtCore) : (s.modPrt n g).berth = s.berth := (rfl)
@[simp ↓] theorem State.gens_modPrt (n : Nat) (g : PrtCore → PrtCore) : (s.modPrt n g).gens = s.gens := (rfl)

/-! `modPte`. -/

@[simp ↓] theorem State.pending_modPte (n : Nat) (g : PteCore → PteCore) : (s.modPte n g).pending = s.pending := (rfl)
@[simp ↓] theorem State.now_modPte (n : Nat) (g : PteCore → PteCore) : (s.modPte n g).now = s.now := (rfl)
@[simp ↓] theorem State.freeCount_modPte (n : Nat) (g : PteCore → PteCore) : (s.modPte n g).freeCount = s.freeCount := (rfl)
@[simp ↓] theorem State.regs_modPte (n : Nat) (g : PteCore → PteCore) : (s.modPte n g).regs = s.regs := (rfl)
@[simp ↓] theorem State.mem_modPte (n : Nat) (g : PteCore → PteCore) : (s.modPte n g).mem = s.mem := (rfl)
@[simp ↓] theorem State.ecc_modPte (n : Nat) (g : PteCore → PteCore) : (s.modPte n g).ecc = s.ecc := (rfl)
@[simp ↓] theorem State.scrub_modPte (n : Nat) (g : PteCore → PteCore) : (s.modPte n g).scrub = s.scrub := (rfl)
@[simp ↓] theorem State.flash_modPte (n : Nat) (g : PteCore → PteCore) : (s.modPte n g).flash = s.flash := (rfl)
@[simp ↓] theorem State.slices_modPte (n : Nat) (g : PteCore → PteCore) : (s.modPte n g).slices = s.slices := (rfl)
@[simp ↓] theorem State.top_modPte (n : Nat) (g : PteCore → PteCore) : (s.modPte n g).top = s.top := (rfl)
@[simp ↓] theorem State.pwr_modPte (n : Nat) (g : PteCore → PteCore) : (s.modPte n g).pwr = s.pwr := (rfl)
@[simp ↓] theorem State.fab_modPte (n : Nat) (g : PteCore → PteCore) : (s.modPte n g).fab = s.fab := (rfl)
@[simp ↓] theorem State.flt_modPte (n : Nat) (g : PteCore → PteCore) : (s.modPte n g).flt = s.flt := (rfl)
@[simp ↓] theorem State.intr_modPte (n : Nat) (g : PteCore → PteCore) : (s.modPte n g).intr = s.intr := (rfl)
@[simp ↓] theorem State.cfg_modPte (n : Nat) (g : PteCore → PteCore) : (s.modPte n g).cfg = s.cfg := (rfl)
@[simp ↓] theorem State.hostA_modPte (n : Nat) (g : PteCore → PteCore) : (s.modPte n g).hostA = s.hostA := (rfl)
@[simp ↓] theorem State.hostB_modPte (n : Nat) (g : PteCore → PteCore) : (s.modPte n g).hostB = s.hostB := (rfl)
@[simp ↓] theorem State.nv_modPte (n : Nat) (g : PteCore → PteCore) : (s.modPte n g).nv = s.nv := (rfl)
@[simp ↓] theorem State.flm_modPte (n : Nat) (g : PteCore → PteCore) : (s.modPte n g).flm = s.flm := (rfl)
@[simp ↓] theorem State.sec_modPte (n : Nat) (g : PteCore → PteCore) : (s.modPte n g).sec = s.sec := (rfl)
@[simp ↓] theorem State.man_modPte (n : Nat) (g : PteCore → PteCore) : (s.modPte n g).man = s.man := (rfl)
@[simp ↓] theorem State.xlk_modPte (n : Nat) (g : PteCore → PteCore) : (s.modPte n g).xlk = s.xlk := (rfl)
@[simp ↓] theorem State.eng_modPte (n : Nat) (g : PteCore → PteCore) : (s.modPte n g).eng = s.eng := (rfl)
@[simp ↓] theorem State.lnd_modPte (n : Nat) (g : PteCore → PteCore) : (s.modPte n g).lnd = s.lnd := (rfl)
@[simp ↓] theorem State.sel_modPte (n : Nat) (g : PteCore → PteCore) : (s.modPte n g).sel = s.sel := (rfl)
@[simp ↓] theorem State.ent_modPte (n : Nat) (g : PteCore → PteCore) : (s.modPte n g).ent = s.ent := (rfl)
@[simp ↓] theorem State.loop_modPte (n : Nat) (g : PteCore → PteCore) : (s.modPte n g).loop = s.loop := (rfl)
@[simp ↓] theorem State.ho_modPte (n : Nat) (g : PteCore → PteCore) : (s.modPte n g).ho = s.ho := (rfl)
@[simp ↓] theorem State.apl_modPte (n : Nat) (g : PteCore → PteCore) : (s.modPte n g).apl = s.apl := (rfl)
@[simp ↓] theorem State.out_modPte (n : Nat) (g : PteCore → PteCore) : (s.modPte n g).out = s.out := (rfl)
@[simp ↓] theorem State.tsc_modPte (n : Nat) (g : PteCore → PteCore) : (s.modPte n g).tsc = s.tsc := (rfl)
@[simp ↓] theorem State.tod_modPte (n : Nat) (g : PteCore → PteCore) : (s.modPte n g).tod = s.tod := (rfl)
@[simp ↓] theorem State.tasks_modPte (n : Nat) (g : PteCore → PteCore) : (s.modPte n g).tasks = s.tasks := (rfl)
@[simp ↓] theorem State.prt_modPte (n : Nat) (g : PteCore → PteCore) : (s.modPte n g).prt = s.prt := (rfl)
@[simp ↓] theorem State.berth_modPte (n : Nat) (g : PteCore → PteCore) : (s.modPte n g).berth = s.berth := (rfl)
@[simp ↓] theorem State.gens_modPte (n : Nat) (g : PteCore → PteCore) : (s.modPte n g).gens = s.gens := (rfl)

/-! `modBerth`. -/

@[simp ↓] theorem State.pending_modBerth (n : Nat) (g : Berth → Berth) : (s.modBerth n g).pending = s.pending := (rfl)
@[simp ↓] theorem State.now_modBerth (n : Nat) (g : Berth → Berth) : (s.modBerth n g).now = s.now := (rfl)
@[simp ↓] theorem State.freeCount_modBerth (n : Nat) (g : Berth → Berth) : (s.modBerth n g).freeCount = s.freeCount := (rfl)
@[simp ↓] theorem State.regs_modBerth (n : Nat) (g : Berth → Berth) : (s.modBerth n g).regs = s.regs := (rfl)
@[simp ↓] theorem State.mem_modBerth (n : Nat) (g : Berth → Berth) : (s.modBerth n g).mem = s.mem := (rfl)
@[simp ↓] theorem State.ecc_modBerth (n : Nat) (g : Berth → Berth) : (s.modBerth n g).ecc = s.ecc := (rfl)
@[simp ↓] theorem State.scrub_modBerth (n : Nat) (g : Berth → Berth) : (s.modBerth n g).scrub = s.scrub := (rfl)
@[simp ↓] theorem State.flash_modBerth (n : Nat) (g : Berth → Berth) : (s.modBerth n g).flash = s.flash := (rfl)
@[simp ↓] theorem State.slices_modBerth (n : Nat) (g : Berth → Berth) : (s.modBerth n g).slices = s.slices := (rfl)
@[simp ↓] theorem State.top_modBerth (n : Nat) (g : Berth → Berth) : (s.modBerth n g).top = s.top := (rfl)
@[simp ↓] theorem State.pwr_modBerth (n : Nat) (g : Berth → Berth) : (s.modBerth n g).pwr = s.pwr := (rfl)
@[simp ↓] theorem State.fab_modBerth (n : Nat) (g : Berth → Berth) : (s.modBerth n g).fab = s.fab := (rfl)
@[simp ↓] theorem State.flt_modBerth (n : Nat) (g : Berth → Berth) : (s.modBerth n g).flt = s.flt := (rfl)
@[simp ↓] theorem State.intr_modBerth (n : Nat) (g : Berth → Berth) : (s.modBerth n g).intr = s.intr := (rfl)
@[simp ↓] theorem State.cfg_modBerth (n : Nat) (g : Berth → Berth) : (s.modBerth n g).cfg = s.cfg := (rfl)
@[simp ↓] theorem State.hostA_modBerth (n : Nat) (g : Berth → Berth) : (s.modBerth n g).hostA = s.hostA := (rfl)
@[simp ↓] theorem State.hostB_modBerth (n : Nat) (g : Berth → Berth) : (s.modBerth n g).hostB = s.hostB := (rfl)
@[simp ↓] theorem State.nv_modBerth (n : Nat) (g : Berth → Berth) : (s.modBerth n g).nv = s.nv := (rfl)
@[simp ↓] theorem State.flm_modBerth (n : Nat) (g : Berth → Berth) : (s.modBerth n g).flm = s.flm := (rfl)
@[simp ↓] theorem State.sec_modBerth (n : Nat) (g : Berth → Berth) : (s.modBerth n g).sec = s.sec := (rfl)
@[simp ↓] theorem State.man_modBerth (n : Nat) (g : Berth → Berth) : (s.modBerth n g).man = s.man := (rfl)
@[simp ↓] theorem State.xlk_modBerth (n : Nat) (g : Berth → Berth) : (s.modBerth n g).xlk = s.xlk := (rfl)
@[simp ↓] theorem State.eng_modBerth (n : Nat) (g : Berth → Berth) : (s.modBerth n g).eng = s.eng := (rfl)
@[simp ↓] theorem State.lnd_modBerth (n : Nat) (g : Berth → Berth) : (s.modBerth n g).lnd = s.lnd := (rfl)
@[simp ↓] theorem State.sel_modBerth (n : Nat) (g : Berth → Berth) : (s.modBerth n g).sel = s.sel := (rfl)
@[simp ↓] theorem State.ent_modBerth (n : Nat) (g : Berth → Berth) : (s.modBerth n g).ent = s.ent := (rfl)
@[simp ↓] theorem State.loop_modBerth (n : Nat) (g : Berth → Berth) : (s.modBerth n g).loop = s.loop := (rfl)
@[simp ↓] theorem State.ho_modBerth (n : Nat) (g : Berth → Berth) : (s.modBerth n g).ho = s.ho := (rfl)
@[simp ↓] theorem State.apl_modBerth (n : Nat) (g : Berth → Berth) : (s.modBerth n g).apl = s.apl := (rfl)
@[simp ↓] theorem State.out_modBerth (n : Nat) (g : Berth → Berth) : (s.modBerth n g).out = s.out := (rfl)
@[simp ↓] theorem State.tsc_modBerth (n : Nat) (g : Berth → Berth) : (s.modBerth n g).tsc = s.tsc := (rfl)
@[simp ↓] theorem State.tod_modBerth (n : Nat) (g : Berth → Berth) : (s.modBerth n g).tod = s.tod := (rfl)
@[simp ↓] theorem State.tasks_modBerth (n : Nat) (g : Berth → Berth) : (s.modBerth n g).tasks = s.tasks := (rfl)
@[simp ↓] theorem State.prt_modBerth (n : Nat) (g : Berth → Berth) : (s.modBerth n g).prt = s.prt := (rfl)
@[simp ↓] theorem State.pte_modBerth (n : Nat) (g : Berth → Berth) : (s.modBerth n g).pte = s.pte := (rfl)
@[simp ↓] theorem State.gens_modBerth (n : Nat) (g : Berth → Berth) : (s.modBerth n g).gens = s.gens := (rfl)

/-! `modGen`. -/

@[simp ↓] theorem State.pending_modGen (n : Nat) (g : Nat → Nat) : (s.modGen n g).pending = s.pending := (rfl)
@[simp ↓] theorem State.now_modGen (n : Nat) (g : Nat → Nat) : (s.modGen n g).now = s.now := (rfl)
@[simp ↓] theorem State.freeCount_modGen (n : Nat) (g : Nat → Nat) : (s.modGen n g).freeCount = s.freeCount := (rfl)
@[simp ↓] theorem State.regs_modGen (n : Nat) (g : Nat → Nat) : (s.modGen n g).regs = s.regs := (rfl)
@[simp ↓] theorem State.mem_modGen (n : Nat) (g : Nat → Nat) : (s.modGen n g).mem = s.mem := (rfl)
@[simp ↓] theorem State.ecc_modGen (n : Nat) (g : Nat → Nat) : (s.modGen n g).ecc = s.ecc := (rfl)
@[simp ↓] theorem State.scrub_modGen (n : Nat) (g : Nat → Nat) : (s.modGen n g).scrub = s.scrub := (rfl)
@[simp ↓] theorem State.flash_modGen (n : Nat) (g : Nat → Nat) : (s.modGen n g).flash = s.flash := (rfl)
@[simp ↓] theorem State.slices_modGen (n : Nat) (g : Nat → Nat) : (s.modGen n g).slices = s.slices := (rfl)
@[simp ↓] theorem State.top_modGen (n : Nat) (g : Nat → Nat) : (s.modGen n g).top = s.top := (rfl)
@[simp ↓] theorem State.pwr_modGen (n : Nat) (g : Nat → Nat) : (s.modGen n g).pwr = s.pwr := (rfl)
@[simp ↓] theorem State.fab_modGen (n : Nat) (g : Nat → Nat) : (s.modGen n g).fab = s.fab := (rfl)
@[simp ↓] theorem State.flt_modGen (n : Nat) (g : Nat → Nat) : (s.modGen n g).flt = s.flt := (rfl)
@[simp ↓] theorem State.intr_modGen (n : Nat) (g : Nat → Nat) : (s.modGen n g).intr = s.intr := (rfl)
@[simp ↓] theorem State.cfg_modGen (n : Nat) (g : Nat → Nat) : (s.modGen n g).cfg = s.cfg := (rfl)
@[simp ↓] theorem State.hostA_modGen (n : Nat) (g : Nat → Nat) : (s.modGen n g).hostA = s.hostA := (rfl)
@[simp ↓] theorem State.hostB_modGen (n : Nat) (g : Nat → Nat) : (s.modGen n g).hostB = s.hostB := (rfl)
@[simp ↓] theorem State.nv_modGen (n : Nat) (g : Nat → Nat) : (s.modGen n g).nv = s.nv := (rfl)
@[simp ↓] theorem State.flm_modGen (n : Nat) (g : Nat → Nat) : (s.modGen n g).flm = s.flm := (rfl)
@[simp ↓] theorem State.sec_modGen (n : Nat) (g : Nat → Nat) : (s.modGen n g).sec = s.sec := (rfl)
@[simp ↓] theorem State.man_modGen (n : Nat) (g : Nat → Nat) : (s.modGen n g).man = s.man := (rfl)
@[simp ↓] theorem State.xlk_modGen (n : Nat) (g : Nat → Nat) : (s.modGen n g).xlk = s.xlk := (rfl)
@[simp ↓] theorem State.eng_modGen (n : Nat) (g : Nat → Nat) : (s.modGen n g).eng = s.eng := (rfl)
@[simp ↓] theorem State.lnd_modGen (n : Nat) (g : Nat → Nat) : (s.modGen n g).lnd = s.lnd := (rfl)
@[simp ↓] theorem State.sel_modGen (n : Nat) (g : Nat → Nat) : (s.modGen n g).sel = s.sel := (rfl)
@[simp ↓] theorem State.ent_modGen (n : Nat) (g : Nat → Nat) : (s.modGen n g).ent = s.ent := (rfl)
@[simp ↓] theorem State.loop_modGen (n : Nat) (g : Nat → Nat) : (s.modGen n g).loop = s.loop := (rfl)
@[simp ↓] theorem State.ho_modGen (n : Nat) (g : Nat → Nat) : (s.modGen n g).ho = s.ho := (rfl)
@[simp ↓] theorem State.apl_modGen (n : Nat) (g : Nat → Nat) : (s.modGen n g).apl = s.apl := (rfl)
@[simp ↓] theorem State.out_modGen (n : Nat) (g : Nat → Nat) : (s.modGen n g).out = s.out := (rfl)
@[simp ↓] theorem State.tsc_modGen (n : Nat) (g : Nat → Nat) : (s.modGen n g).tsc = s.tsc := (rfl)
@[simp ↓] theorem State.tod_modGen (n : Nat) (g : Nat → Nat) : (s.modGen n g).tod = s.tod := (rfl)
@[simp ↓] theorem State.tasks_modGen (n : Nat) (g : Nat → Nat) : (s.modGen n g).tasks = s.tasks := (rfl)
@[simp ↓] theorem State.prt_modGen (n : Nat) (g : Nat → Nat) : (s.modGen n g).prt = s.prt := (rfl)
@[simp ↓] theorem State.pte_modGen (n : Nat) (g : Nat → Nat) : (s.modGen n g).pte = s.pte := (rfl)
@[simp ↓] theorem State.berth_modGen (n : Nat) (g : Nat → Nat) : (s.modGen n g).berth = s.berth := (rfl)

/-! `modHost`. -/

@[simp ↓] theorem State.pending_modHost (p : Port) (g : HostCore → HostCore) : (s.modHost p g).pending = s.pending := by cases p <;> rfl
@[simp ↓] theorem State.now_modHost (p : Port) (g : HostCore → HostCore) : (s.modHost p g).now = s.now := by cases p <;> rfl
@[simp ↓] theorem State.freeCount_modHost (p : Port) (g : HostCore → HostCore) : (s.modHost p g).freeCount = s.freeCount := by cases p <;> rfl
@[simp ↓] theorem State.regs_modHost (p : Port) (g : HostCore → HostCore) : (s.modHost p g).regs = s.regs := by cases p <;> rfl
@[simp ↓] theorem State.mem_modHost (p : Port) (g : HostCore → HostCore) : (s.modHost p g).mem = s.mem := by cases p <;> rfl
@[simp ↓] theorem State.ecc_modHost (p : Port) (g : HostCore → HostCore) : (s.modHost p g).ecc = s.ecc := by cases p <;> rfl
@[simp ↓] theorem State.scrub_modHost (p : Port) (g : HostCore → HostCore) : (s.modHost p g).scrub = s.scrub := by cases p <;> rfl
@[simp ↓] theorem State.flash_modHost (p : Port) (g : HostCore → HostCore) : (s.modHost p g).flash = s.flash := by cases p <;> rfl
@[simp ↓] theorem State.slices_modHost (p : Port) (g : HostCore → HostCore) : (s.modHost p g).slices = s.slices := by cases p <;> rfl
@[simp ↓] theorem State.top_modHost (p : Port) (g : HostCore → HostCore) : (s.modHost p g).top = s.top := by cases p <;> rfl
@[simp ↓] theorem State.pwr_modHost (p : Port) (g : HostCore → HostCore) : (s.modHost p g).pwr = s.pwr := by cases p <;> rfl
@[simp ↓] theorem State.fab_modHost (p : Port) (g : HostCore → HostCore) : (s.modHost p g).fab = s.fab := by cases p <;> rfl
@[simp ↓] theorem State.flt_modHost (p : Port) (g : HostCore → HostCore) : (s.modHost p g).flt = s.flt := by cases p <;> rfl
@[simp ↓] theorem State.intr_modHost (p : Port) (g : HostCore → HostCore) : (s.modHost p g).intr = s.intr := by cases p <;> rfl
@[simp ↓] theorem State.cfg_modHost (p : Port) (g : HostCore → HostCore) : (s.modHost p g).cfg = s.cfg := by cases p <;> rfl
@[simp ↓] theorem State.nv_modHost (p : Port) (g : HostCore → HostCore) : (s.modHost p g).nv = s.nv := by cases p <;> rfl
@[simp ↓] theorem State.flm_modHost (p : Port) (g : HostCore → HostCore) : (s.modHost p g).flm = s.flm := by cases p <;> rfl
@[simp ↓] theorem State.sec_modHost (p : Port) (g : HostCore → HostCore) : (s.modHost p g).sec = s.sec := by cases p <;> rfl
@[simp ↓] theorem State.man_modHost (p : Port) (g : HostCore → HostCore) : (s.modHost p g).man = s.man := by cases p <;> rfl
@[simp ↓] theorem State.xlk_modHost (p : Port) (g : HostCore → HostCore) : (s.modHost p g).xlk = s.xlk := by cases p <;> rfl
@[simp ↓] theorem State.eng_modHost (p : Port) (g : HostCore → HostCore) : (s.modHost p g).eng = s.eng := by cases p <;> rfl
@[simp ↓] theorem State.lnd_modHost (p : Port) (g : HostCore → HostCore) : (s.modHost p g).lnd = s.lnd := by cases p <;> rfl
@[simp ↓] theorem State.sel_modHost (p : Port) (g : HostCore → HostCore) : (s.modHost p g).sel = s.sel := by cases p <;> rfl
@[simp ↓] theorem State.ent_modHost (p : Port) (g : HostCore → HostCore) : (s.modHost p g).ent = s.ent := by cases p <;> rfl
@[simp ↓] theorem State.loop_modHost (p : Port) (g : HostCore → HostCore) : (s.modHost p g).loop = s.loop := by cases p <;> rfl
@[simp ↓] theorem State.ho_modHost (p : Port) (g : HostCore → HostCore) : (s.modHost p g).ho = s.ho := by cases p <;> rfl
@[simp ↓] theorem State.apl_modHost (p : Port) (g : HostCore → HostCore) : (s.modHost p g).apl = s.apl := by cases p <;> rfl
@[simp ↓] theorem State.out_modHost (p : Port) (g : HostCore → HostCore) : (s.modHost p g).out = s.out := by cases p <;> rfl
@[simp ↓] theorem State.tsc_modHost (p : Port) (g : HostCore → HostCore) : (s.modHost p g).tsc = s.tsc := by cases p <;> rfl
@[simp ↓] theorem State.tod_modHost (p : Port) (g : HostCore → HostCore) : (s.modHost p g).tod = s.tod := by cases p <;> rfl
@[simp ↓] theorem State.tasks_modHost (p : Port) (g : HostCore → HostCore) : (s.modHost p g).tasks = s.tasks := by cases p <;> rfl
@[simp ↓] theorem State.prt_modHost (p : Port) (g : HostCore → HostCore) : (s.modHost p g).prt = s.prt := by cases p <;> rfl
@[simp ↓] theorem State.pte_modHost (p : Port) (g : HostCore → HostCore) : (s.modHost p g).pte = s.pte := by cases p <;> rfl
@[simp ↓] theorem State.berth_modHost (p : Port) (g : HostCore → HostCore) : (s.modHost p g).berth = s.berth := by cases p <;> rfl
@[simp ↓] theorem State.gens_modHost (p : Port) (g : HostCore → HostCore) : (s.modHost p g).gens = s.gens := by cases p <;> rfl

/-! `status`. -/

@[simp ↓] theorem State.pending_status (p : Port) (c : Code) : (s.status p c).pending = s.pending := by cases p <;> rfl
@[simp ↓] theorem State.now_status (p : Port) (c : Code) : (s.status p c).now = s.now := by cases p <;> rfl
@[simp ↓] theorem State.freeCount_status (p : Port) (c : Code) : (s.status p c).freeCount = s.freeCount := by cases p <;> rfl
@[simp ↓] theorem State.regs_status (p : Port) (c : Code) : (s.status p c).regs = s.regs := by cases p <;> rfl
@[simp ↓] theorem State.mem_status (p : Port) (c : Code) : (s.status p c).mem = s.mem := by cases p <;> rfl
@[simp ↓] theorem State.ecc_status (p : Port) (c : Code) : (s.status p c).ecc = s.ecc := by cases p <;> rfl
@[simp ↓] theorem State.scrub_status (p : Port) (c : Code) : (s.status p c).scrub = s.scrub := by cases p <;> rfl
@[simp ↓] theorem State.flash_status (p : Port) (c : Code) : (s.status p c).flash = s.flash := by cases p <;> rfl
@[simp ↓] theorem State.slices_status (p : Port) (c : Code) : (s.status p c).slices = s.slices := by cases p <;> rfl
@[simp ↓] theorem State.top_status (p : Port) (c : Code) : (s.status p c).top = s.top := by cases p <;> rfl
@[simp ↓] theorem State.pwr_status (p : Port) (c : Code) : (s.status p c).pwr = s.pwr := by cases p <;> rfl
@[simp ↓] theorem State.fab_status (p : Port) (c : Code) : (s.status p c).fab = s.fab := by cases p <;> rfl
@[simp ↓] theorem State.flt_status (p : Port) (c : Code) : (s.status p c).flt = s.flt := by cases p <;> rfl
@[simp ↓] theorem State.intr_status (p : Port) (c : Code) : (s.status p c).intr = s.intr := by cases p <;> rfl
@[simp ↓] theorem State.cfg_status (p : Port) (c : Code) : (s.status p c).cfg = s.cfg := by cases p <;> rfl
@[simp ↓] theorem State.nv_status (p : Port) (c : Code) : (s.status p c).nv = s.nv := by cases p <;> rfl
@[simp ↓] theorem State.flm_status (p : Port) (c : Code) : (s.status p c).flm = s.flm := by cases p <;> rfl
@[simp ↓] theorem State.sec_status (p : Port) (c : Code) : (s.status p c).sec = s.sec := by cases p <;> rfl
@[simp ↓] theorem State.man_status (p : Port) (c : Code) : (s.status p c).man = s.man := by cases p <;> rfl
@[simp ↓] theorem State.xlk_status (p : Port) (c : Code) : (s.status p c).xlk = s.xlk := by cases p <;> rfl
@[simp ↓] theorem State.eng_status (p : Port) (c : Code) : (s.status p c).eng = s.eng := by cases p <;> rfl
@[simp ↓] theorem State.lnd_status (p : Port) (c : Code) : (s.status p c).lnd = s.lnd := by cases p <;> rfl
@[simp ↓] theorem State.sel_status (p : Port) (c : Code) : (s.status p c).sel = s.sel := by cases p <;> rfl
@[simp ↓] theorem State.ent_status (p : Port) (c : Code) : (s.status p c).ent = s.ent := by cases p <;> rfl
@[simp ↓] theorem State.loop_status (p : Port) (c : Code) : (s.status p c).loop = s.loop := by cases p <;> rfl
@[simp ↓] theorem State.ho_status (p : Port) (c : Code) : (s.status p c).ho = s.ho := by cases p <;> rfl
@[simp ↓] theorem State.apl_status (p : Port) (c : Code) : (s.status p c).apl = s.apl := by cases p <;> rfl
@[simp ↓] theorem State.out_status (p : Port) (c : Code) : (s.status p c).out = s.out := by cases p <;> rfl
@[simp ↓] theorem State.tsc_status (p : Port) (c : Code) : (s.status p c).tsc = s.tsc := by cases p <;> rfl
@[simp ↓] theorem State.tod_status (p : Port) (c : Code) : (s.status p c).tod = s.tod := by cases p <;> rfl
@[simp ↓] theorem State.tasks_status (p : Port) (c : Code) : (s.status p c).tasks = s.tasks := by cases p <;> rfl
@[simp ↓] theorem State.prt_status (p : Port) (c : Code) : (s.status p c).prt = s.prt := by cases p <;> rfl
@[simp ↓] theorem State.pte_status (p : Port) (c : Code) : (s.status p c).pte = s.pte := by cases p <;> rfl
@[simp ↓] theorem State.berth_status (p : Port) (c : Code) : (s.status p c).berth = s.berth := by cases p <;> rfl
@[simp ↓] theorem State.gens_status (p : Port) (c : Code) : (s.status p c).gens = s.gens := by cases p <;> rfl

/-! `setByte`. -/

@[simp ↓] theorem State.pending_setByte (a : Nat) (b : Byte) : (s.setByte a b).pending = s.pending := (rfl)
@[simp ↓] theorem State.now_setByte (a : Nat) (b : Byte) : (s.setByte a b).now = s.now := (rfl)
@[simp ↓] theorem State.freeCount_setByte (a : Nat) (b : Byte) : (s.setByte a b).freeCount = s.freeCount := (rfl)
@[simp ↓] theorem State.regs_setByte (a : Nat) (b : Byte) : (s.setByte a b).regs = s.regs := (rfl)
@[simp ↓] theorem State.ecc_setByte (a : Nat) (b : Byte) : (s.setByte a b).ecc = s.ecc := (rfl)
@[simp ↓] theorem State.scrub_setByte (a : Nat) (b : Byte) : (s.setByte a b).scrub = s.scrub := (rfl)
@[simp ↓] theorem State.flash_setByte (a : Nat) (b : Byte) : (s.setByte a b).flash = s.flash := (rfl)
@[simp ↓] theorem State.slices_setByte (a : Nat) (b : Byte) : (s.setByte a b).slices = s.slices := (rfl)
@[simp ↓] theorem State.top_setByte (a : Nat) (b : Byte) : (s.setByte a b).top = s.top := (rfl)
@[simp ↓] theorem State.pwr_setByte (a : Nat) (b : Byte) : (s.setByte a b).pwr = s.pwr := (rfl)
@[simp ↓] theorem State.fab_setByte (a : Nat) (b : Byte) : (s.setByte a b).fab = s.fab := (rfl)
@[simp ↓] theorem State.flt_setByte (a : Nat) (b : Byte) : (s.setByte a b).flt = s.flt := (rfl)
@[simp ↓] theorem State.intr_setByte (a : Nat) (b : Byte) : (s.setByte a b).intr = s.intr := (rfl)
@[simp ↓] theorem State.cfg_setByte (a : Nat) (b : Byte) : (s.setByte a b).cfg = s.cfg := (rfl)
@[simp ↓] theorem State.hostA_setByte (a : Nat) (b : Byte) : (s.setByte a b).hostA = s.hostA := (rfl)
@[simp ↓] theorem State.hostB_setByte (a : Nat) (b : Byte) : (s.setByte a b).hostB = s.hostB := (rfl)
@[simp ↓] theorem State.nv_setByte (a : Nat) (b : Byte) : (s.setByte a b).nv = s.nv := (rfl)
@[simp ↓] theorem State.flm_setByte (a : Nat) (b : Byte) : (s.setByte a b).flm = s.flm := (rfl)
@[simp ↓] theorem State.sec_setByte (a : Nat) (b : Byte) : (s.setByte a b).sec = s.sec := (rfl)
@[simp ↓] theorem State.man_setByte (a : Nat) (b : Byte) : (s.setByte a b).man = s.man := (rfl)
@[simp ↓] theorem State.xlk_setByte (a : Nat) (b : Byte) : (s.setByte a b).xlk = s.xlk := (rfl)
@[simp ↓] theorem State.eng_setByte (a : Nat) (b : Byte) : (s.setByte a b).eng = s.eng := (rfl)
@[simp ↓] theorem State.lnd_setByte (a : Nat) (b : Byte) : (s.setByte a b).lnd = s.lnd := (rfl)
@[simp ↓] theorem State.sel_setByte (a : Nat) (b : Byte) : (s.setByte a b).sel = s.sel := (rfl)
@[simp ↓] theorem State.ent_setByte (a : Nat) (b : Byte) : (s.setByte a b).ent = s.ent := (rfl)
@[simp ↓] theorem State.loop_setByte (a : Nat) (b : Byte) : (s.setByte a b).loop = s.loop := (rfl)
@[simp ↓] theorem State.ho_setByte (a : Nat) (b : Byte) : (s.setByte a b).ho = s.ho := (rfl)
@[simp ↓] theorem State.apl_setByte (a : Nat) (b : Byte) : (s.setByte a b).apl = s.apl := (rfl)
@[simp ↓] theorem State.out_setByte (a : Nat) (b : Byte) : (s.setByte a b).out = s.out := (rfl)
@[simp ↓] theorem State.tsc_setByte (a : Nat) (b : Byte) : (s.setByte a b).tsc = s.tsc := (rfl)
@[simp ↓] theorem State.tod_setByte (a : Nat) (b : Byte) : (s.setByte a b).tod = s.tod := (rfl)
@[simp ↓] theorem State.tasks_setByte (a : Nat) (b : Byte) : (s.setByte a b).tasks = s.tasks := (rfl)
@[simp ↓] theorem State.prt_setByte (a : Nat) (b : Byte) : (s.setByte a b).prt = s.prt := (rfl)
@[simp ↓] theorem State.pte_setByte (a : Nat) (b : Byte) : (s.setByte a b).pte = s.pte := (rfl)
@[simp ↓] theorem State.berth_setByte (a : Nat) (b : Byte) : (s.setByte a b).berth = s.berth := (rfl)
@[simp ↓] theorem State.gens_setByte (a : Nat) (b : Byte) : (s.setByte a b).gens = s.gens := (rfl)

/-! `setBytes`. -/

@[simp ↓] theorem State.pending_setBytes (a : Nat) (bs : List Byte) : (s.setBytes a bs).pending = s.pending := (rfl)
@[simp ↓] theorem State.now_setBytes (a : Nat) (bs : List Byte) : (s.setBytes a bs).now = s.now := (rfl)
@[simp ↓] theorem State.freeCount_setBytes (a : Nat) (bs : List Byte) : (s.setBytes a bs).freeCount = s.freeCount := (rfl)
@[simp ↓] theorem State.regs_setBytes (a : Nat) (bs : List Byte) : (s.setBytes a bs).regs = s.regs := (rfl)
@[simp ↓] theorem State.ecc_setBytes (a : Nat) (bs : List Byte) : (s.setBytes a bs).ecc = s.ecc := (rfl)
@[simp ↓] theorem State.scrub_setBytes (a : Nat) (bs : List Byte) : (s.setBytes a bs).scrub = s.scrub := (rfl)
@[simp ↓] theorem State.flash_setBytes (a : Nat) (bs : List Byte) : (s.setBytes a bs).flash = s.flash := (rfl)
@[simp ↓] theorem State.slices_setBytes (a : Nat) (bs : List Byte) : (s.setBytes a bs).slices = s.slices := (rfl)
@[simp ↓] theorem State.top_setBytes (a : Nat) (bs : List Byte) : (s.setBytes a bs).top = s.top := (rfl)
@[simp ↓] theorem State.pwr_setBytes (a : Nat) (bs : List Byte) : (s.setBytes a bs).pwr = s.pwr := (rfl)
@[simp ↓] theorem State.fab_setBytes (a : Nat) (bs : List Byte) : (s.setBytes a bs).fab = s.fab := (rfl)
@[simp ↓] theorem State.flt_setBytes (a : Nat) (bs : List Byte) : (s.setBytes a bs).flt = s.flt := (rfl)
@[simp ↓] theorem State.intr_setBytes (a : Nat) (bs : List Byte) : (s.setBytes a bs).intr = s.intr := (rfl)
@[simp ↓] theorem State.cfg_setBytes (a : Nat) (bs : List Byte) : (s.setBytes a bs).cfg = s.cfg := (rfl)
@[simp ↓] theorem State.hostA_setBytes (a : Nat) (bs : List Byte) : (s.setBytes a bs).hostA = s.hostA := (rfl)
@[simp ↓] theorem State.hostB_setBytes (a : Nat) (bs : List Byte) : (s.setBytes a bs).hostB = s.hostB := (rfl)
@[simp ↓] theorem State.nv_setBytes (a : Nat) (bs : List Byte) : (s.setBytes a bs).nv = s.nv := (rfl)
@[simp ↓] theorem State.flm_setBytes (a : Nat) (bs : List Byte) : (s.setBytes a bs).flm = s.flm := (rfl)
@[simp ↓] theorem State.sec_setBytes (a : Nat) (bs : List Byte) : (s.setBytes a bs).sec = s.sec := (rfl)
@[simp ↓] theorem State.man_setBytes (a : Nat) (bs : List Byte) : (s.setBytes a bs).man = s.man := (rfl)
@[simp ↓] theorem State.xlk_setBytes (a : Nat) (bs : List Byte) : (s.setBytes a bs).xlk = s.xlk := (rfl)
@[simp ↓] theorem State.eng_setBytes (a : Nat) (bs : List Byte) : (s.setBytes a bs).eng = s.eng := (rfl)
@[simp ↓] theorem State.lnd_setBytes (a : Nat) (bs : List Byte) : (s.setBytes a bs).lnd = s.lnd := (rfl)
@[simp ↓] theorem State.sel_setBytes (a : Nat) (bs : List Byte) : (s.setBytes a bs).sel = s.sel := (rfl)
@[simp ↓] theorem State.ent_setBytes (a : Nat) (bs : List Byte) : (s.setBytes a bs).ent = s.ent := (rfl)
@[simp ↓] theorem State.loop_setBytes (a : Nat) (bs : List Byte) : (s.setBytes a bs).loop = s.loop := (rfl)
@[simp ↓] theorem State.ho_setBytes (a : Nat) (bs : List Byte) : (s.setBytes a bs).ho = s.ho := (rfl)
@[simp ↓] theorem State.apl_setBytes (a : Nat) (bs : List Byte) : (s.setBytes a bs).apl = s.apl := (rfl)
@[simp ↓] theorem State.out_setBytes (a : Nat) (bs : List Byte) : (s.setBytes a bs).out = s.out := (rfl)
@[simp ↓] theorem State.tsc_setBytes (a : Nat) (bs : List Byte) : (s.setBytes a bs).tsc = s.tsc := (rfl)
@[simp ↓] theorem State.tod_setBytes (a : Nat) (bs : List Byte) : (s.setBytes a bs).tod = s.tod := (rfl)
@[simp ↓] theorem State.tasks_setBytes (a : Nat) (bs : List Byte) : (s.setBytes a bs).tasks = s.tasks := (rfl)
@[simp ↓] theorem State.prt_setBytes (a : Nat) (bs : List Byte) : (s.setBytes a bs).prt = s.prt := (rfl)
@[simp ↓] theorem State.pte_setBytes (a : Nat) (bs : List Byte) : (s.setBytes a bs).pte = s.pte := (rfl)
@[simp ↓] theorem State.berth_setBytes (a : Nat) (bs : List Byte) : (s.setBytes a bs).berth = s.berth := (rfl)
@[simp ↓] theorem State.gens_setBytes (a : Nat) (bs : List Byte) : (s.setBytes a bs).gens = s.gens := (rfl)

/-! `mboxEmpty`. -/

@[simp ↓] theorem State.pending_mboxEmpty (p : Port) : (s.mboxEmpty p).pending = s.pending := (rfl)
@[simp ↓] theorem State.now_mboxEmpty (p : Port) : (s.mboxEmpty p).now = s.now := (rfl)
@[simp ↓] theorem State.freeCount_mboxEmpty (p : Port) : (s.mboxEmpty p).freeCount = s.freeCount := (rfl)
@[simp ↓] theorem State.mem_mboxEmpty (p : Port) : (s.mboxEmpty p).mem = s.mem := (rfl)
@[simp ↓] theorem State.ecc_mboxEmpty (p : Port) : (s.mboxEmpty p).ecc = s.ecc := (rfl)
@[simp ↓] theorem State.scrub_mboxEmpty (p : Port) : (s.mboxEmpty p).scrub = s.scrub := (rfl)
@[simp ↓] theorem State.flash_mboxEmpty (p : Port) : (s.mboxEmpty p).flash = s.flash := (rfl)
@[simp ↓] theorem State.slices_mboxEmpty (p : Port) : (s.mboxEmpty p).slices = s.slices := (rfl)
@[simp ↓] theorem State.top_mboxEmpty (p : Port) : (s.mboxEmpty p).top = s.top := (rfl)
@[simp ↓] theorem State.pwr_mboxEmpty (p : Port) : (s.mboxEmpty p).pwr = s.pwr := (rfl)
@[simp ↓] theorem State.fab_mboxEmpty (p : Port) : (s.mboxEmpty p).fab = s.fab := (rfl)
@[simp ↓] theorem State.flt_mboxEmpty (p : Port) : (s.mboxEmpty p).flt = s.flt := (rfl)
@[simp ↓] theorem State.intr_mboxEmpty (p : Port) : (s.mboxEmpty p).intr = s.intr := (rfl)
@[simp ↓] theorem State.cfg_mboxEmpty (p : Port) : (s.mboxEmpty p).cfg = s.cfg := (rfl)
@[simp ↓] theorem State.hostA_mboxEmpty (p : Port) : (s.mboxEmpty p).hostA = s.hostA := (rfl)
@[simp ↓] theorem State.hostB_mboxEmpty (p : Port) : (s.mboxEmpty p).hostB = s.hostB := (rfl)
@[simp ↓] theorem State.nv_mboxEmpty (p : Port) : (s.mboxEmpty p).nv = s.nv := (rfl)
@[simp ↓] theorem State.flm_mboxEmpty (p : Port) : (s.mboxEmpty p).flm = s.flm := (rfl)
@[simp ↓] theorem State.sec_mboxEmpty (p : Port) : (s.mboxEmpty p).sec = s.sec := (rfl)
@[simp ↓] theorem State.man_mboxEmpty (p : Port) : (s.mboxEmpty p).man = s.man := (rfl)
@[simp ↓] theorem State.xlk_mboxEmpty (p : Port) : (s.mboxEmpty p).xlk = s.xlk := (rfl)
@[simp ↓] theorem State.eng_mboxEmpty (p : Port) : (s.mboxEmpty p).eng = s.eng := (rfl)
@[simp ↓] theorem State.lnd_mboxEmpty (p : Port) : (s.mboxEmpty p).lnd = s.lnd := (rfl)
@[simp ↓] theorem State.sel_mboxEmpty (p : Port) : (s.mboxEmpty p).sel = s.sel := (rfl)
@[simp ↓] theorem State.ent_mboxEmpty (p : Port) : (s.mboxEmpty p).ent = s.ent := (rfl)
@[simp ↓] theorem State.loop_mboxEmpty (p : Port) : (s.mboxEmpty p).loop = s.loop := (rfl)
@[simp ↓] theorem State.ho_mboxEmpty (p : Port) : (s.mboxEmpty p).ho = s.ho := (rfl)
@[simp ↓] theorem State.apl_mboxEmpty (p : Port) : (s.mboxEmpty p).apl = s.apl := (rfl)
@[simp ↓] theorem State.out_mboxEmpty (p : Port) : (s.mboxEmpty p).out = s.out := (rfl)
@[simp ↓] theorem State.tsc_mboxEmpty (p : Port) : (s.mboxEmpty p).tsc = s.tsc := (rfl)
@[simp ↓] theorem State.tod_mboxEmpty (p : Port) : (s.mboxEmpty p).tod = s.tod := (rfl)
@[simp ↓] theorem State.tasks_mboxEmpty (p : Port) : (s.mboxEmpty p).tasks = s.tasks := (rfl)
@[simp ↓] theorem State.prt_mboxEmpty (p : Port) : (s.mboxEmpty p).prt = s.prt := (rfl)
@[simp ↓] theorem State.pte_mboxEmpty (p : Port) : (s.mboxEmpty p).pte = s.pte := (rfl)
@[simp ↓] theorem State.berth_mboxEmpty (p : Port) : (s.mboxEmpty p).berth = s.berth := (rfl)
@[simp ↓] theorem State.gens_mboxEmpty (p : Port) : (s.mboxEmpty p).gens = s.gens := (rfl)

/-! `complete`. -/

@[simp ↓] theorem State.pending_complete (x : Fld) (c : Code) : (s.complete x c).pending = s.pending := (rfl)
@[simp ↓] theorem State.now_complete (x : Fld) (c : Code) : (s.complete x c).now = s.now := (rfl)
@[simp ↓] theorem State.freeCount_complete (x : Fld) (c : Code) : (s.complete x c).freeCount = s.freeCount := (rfl)
@[simp ↓] theorem State.mem_complete (x : Fld) (c : Code) : (s.complete x c).mem = s.mem := (rfl)
@[simp ↓] theorem State.ecc_complete (x : Fld) (c : Code) : (s.complete x c).ecc = s.ecc := (rfl)
@[simp ↓] theorem State.scrub_complete (x : Fld) (c : Code) : (s.complete x c).scrub = s.scrub := (rfl)
@[simp ↓] theorem State.flash_complete (x : Fld) (c : Code) : (s.complete x c).flash = s.flash := (rfl)
@[simp ↓] theorem State.slices_complete (x : Fld) (c : Code) : (s.complete x c).slices = s.slices := (rfl)
@[simp ↓] theorem State.top_complete (x : Fld) (c : Code) : (s.complete x c).top = s.top := (rfl)
@[simp ↓] theorem State.pwr_complete (x : Fld) (c : Code) : (s.complete x c).pwr = s.pwr := (rfl)
@[simp ↓] theorem State.fab_complete (x : Fld) (c : Code) : (s.complete x c).fab = s.fab := (rfl)
@[simp ↓] theorem State.flt_complete (x : Fld) (c : Code) : (s.complete x c).flt = s.flt := (rfl)
@[simp ↓] theorem State.intr_complete (x : Fld) (c : Code) : (s.complete x c).intr = s.intr := (rfl)
@[simp ↓] theorem State.cfg_complete (x : Fld) (c : Code) : (s.complete x c).cfg = s.cfg := (rfl)
@[simp ↓] theorem State.hostA_complete (x : Fld) (c : Code) : (s.complete x c).hostA = s.hostA := (rfl)
@[simp ↓] theorem State.hostB_complete (x : Fld) (c : Code) : (s.complete x c).hostB = s.hostB := (rfl)
@[simp ↓] theorem State.nv_complete (x : Fld) (c : Code) : (s.complete x c).nv = s.nv := (rfl)
@[simp ↓] theorem State.flm_complete (x : Fld) (c : Code) : (s.complete x c).flm = s.flm := (rfl)
@[simp ↓] theorem State.sec_complete (x : Fld) (c : Code) : (s.complete x c).sec = s.sec := (rfl)
@[simp ↓] theorem State.man_complete (x : Fld) (c : Code) : (s.complete x c).man = s.man := (rfl)
@[simp ↓] theorem State.xlk_complete (x : Fld) (c : Code) : (s.complete x c).xlk = s.xlk := (rfl)
@[simp ↓] theorem State.eng_complete (x : Fld) (c : Code) : (s.complete x c).eng = s.eng := (rfl)
@[simp ↓] theorem State.lnd_complete (x : Fld) (c : Code) : (s.complete x c).lnd = s.lnd := (rfl)
@[simp ↓] theorem State.sel_complete (x : Fld) (c : Code) : (s.complete x c).sel = s.sel := (rfl)
@[simp ↓] theorem State.ent_complete (x : Fld) (c : Code) : (s.complete x c).ent = s.ent := (rfl)
@[simp ↓] theorem State.loop_complete (x : Fld) (c : Code) : (s.complete x c).loop = s.loop := (rfl)
@[simp ↓] theorem State.ho_complete (x : Fld) (c : Code) : (s.complete x c).ho = s.ho := (rfl)
@[simp ↓] theorem State.apl_complete (x : Fld) (c : Code) : (s.complete x c).apl = s.apl := (rfl)
@[simp ↓] theorem State.out_complete (x : Fld) (c : Code) : (s.complete x c).out = s.out := (rfl)
@[simp ↓] theorem State.tsc_complete (x : Fld) (c : Code) : (s.complete x c).tsc = s.tsc := (rfl)
@[simp ↓] theorem State.tod_complete (x : Fld) (c : Code) : (s.complete x c).tod = s.tod := (rfl)
@[simp ↓] theorem State.tasks_complete (x : Fld) (c : Code) : (s.complete x c).tasks = s.tasks := (rfl)
@[simp ↓] theorem State.prt_complete (x : Fld) (c : Code) : (s.complete x c).prt = s.prt := (rfl)
@[simp ↓] theorem State.pte_complete (x : Fld) (c : Code) : (s.complete x c).pte = s.pte := (rfl)
@[simp ↓] theorem State.berth_complete (x : Fld) (c : Code) : (s.complete x c).berth = s.berth := (rfl)
@[simp ↓] theorem State.gens_complete (x : Fld) (c : Code) : (s.complete x c).gens = s.gens := (rfl)

/-! `log`. -/

@[simp ↓] theorem State.pending_log (kind source : Nat) (data : List Byte) : (s.log kind source data).pending = s.pending := (rfl)
@[simp ↓] theorem State.now_log (kind source : Nat) (data : List Byte) : (s.log kind source data).now = s.now := (rfl)
@[simp ↓] theorem State.freeCount_log (kind source : Nat) (data : List Byte) : (s.log kind source data).freeCount = s.freeCount := (rfl)
@[simp ↓] theorem State.regs_log (kind source : Nat) (data : List Byte) : (s.log kind source data).regs = s.regs := (rfl)
@[simp ↓] theorem State.mem_log (kind source : Nat) (data : List Byte) : (s.log kind source data).mem = s.mem := (rfl)
@[simp ↓] theorem State.ecc_log (kind source : Nat) (data : List Byte) : (s.log kind source data).ecc = s.ecc := (rfl)
@[simp ↓] theorem State.scrub_log (kind source : Nat) (data : List Byte) : (s.log kind source data).scrub = s.scrub := (rfl)
@[simp ↓] theorem State.flash_log (kind source : Nat) (data : List Byte) : (s.log kind source data).flash = s.flash := (rfl)
@[simp ↓] theorem State.slices_log (kind source : Nat) (data : List Byte) : (s.log kind source data).slices = s.slices := (rfl)
@[simp ↓] theorem State.top_log (kind source : Nat) (data : List Byte) : (s.log kind source data).top = s.top := (rfl)
@[simp ↓] theorem State.pwr_log (kind source : Nat) (data : List Byte) : (s.log kind source data).pwr = s.pwr := (rfl)
@[simp ↓] theorem State.fab_log (kind source : Nat) (data : List Byte) : (s.log kind source data).fab = s.fab := (rfl)
@[simp ↓] theorem State.flt_log (kind source : Nat) (data : List Byte) : (s.log kind source data).flt = s.flt := (rfl)
@[simp ↓] theorem State.intr_log (kind source : Nat) (data : List Byte) : (s.log kind source data).intr = s.intr := (rfl)
@[simp ↓] theorem State.cfg_log (kind source : Nat) (data : List Byte) : (s.log kind source data).cfg = s.cfg := (rfl)
@[simp ↓] theorem State.hostA_log (kind source : Nat) (data : List Byte) : (s.log kind source data).hostA = s.hostA := (rfl)
@[simp ↓] theorem State.hostB_log (kind source : Nat) (data : List Byte) : (s.log kind source data).hostB = s.hostB := (rfl)
@[simp ↓] theorem State.flm_log (kind source : Nat) (data : List Byte) : (s.log kind source data).flm = s.flm := (rfl)
@[simp ↓] theorem State.sec_log (kind source : Nat) (data : List Byte) : (s.log kind source data).sec = s.sec := (rfl)
@[simp ↓] theorem State.man_log (kind source : Nat) (data : List Byte) : (s.log kind source data).man = s.man := (rfl)
@[simp ↓] theorem State.xlk_log (kind source : Nat) (data : List Byte) : (s.log kind source data).xlk = s.xlk := (rfl)
@[simp ↓] theorem State.eng_log (kind source : Nat) (data : List Byte) : (s.log kind source data).eng = s.eng := (rfl)
@[simp ↓] theorem State.lnd_log (kind source : Nat) (data : List Byte) : (s.log kind source data).lnd = s.lnd := (rfl)
@[simp ↓] theorem State.sel_log (kind source : Nat) (data : List Byte) : (s.log kind source data).sel = s.sel := (rfl)
@[simp ↓] theorem State.ent_log (kind source : Nat) (data : List Byte) : (s.log kind source data).ent = s.ent := (rfl)
@[simp ↓] theorem State.loop_log (kind source : Nat) (data : List Byte) : (s.log kind source data).loop = s.loop := (rfl)
@[simp ↓] theorem State.ho_log (kind source : Nat) (data : List Byte) : (s.log kind source data).ho = s.ho := (rfl)
@[simp ↓] theorem State.apl_log (kind source : Nat) (data : List Byte) : (s.log kind source data).apl = s.apl := (rfl)
@[simp ↓] theorem State.out_log (kind source : Nat) (data : List Byte) : (s.log kind source data).out = s.out := (rfl)
@[simp ↓] theorem State.tsc_log (kind source : Nat) (data : List Byte) : (s.log kind source data).tsc = s.tsc := (rfl)
@[simp ↓] theorem State.tod_log (kind source : Nat) (data : List Byte) : (s.log kind source data).tod = s.tod := (rfl)
@[simp ↓] theorem State.tasks_log (kind source : Nat) (data : List Byte) : (s.log kind source data).tasks = s.tasks := (rfl)
@[simp ↓] theorem State.prt_log (kind source : Nat) (data : List Byte) : (s.log kind source data).prt = s.prt := (rfl)
@[simp ↓] theorem State.pte_log (kind source : Nat) (data : List Byte) : (s.log kind source data).pte = s.pte := (rfl)
@[simp ↓] theorem State.berth_log (kind source : Nat) (data : List Byte) : (s.log kind source data).berth = s.berth := (rfl)
@[simp ↓] theorem State.gens_log (kind source : Nat) (data : List Byte) : (s.log kind source data).gens = s.gens := (rfl)

/-! `logDev`. -/

@[simp ↓] theorem State.pending_logDev (kind : Nat) (data : List Byte) : (s.logDev kind data).pending = s.pending := (rfl)
@[simp ↓] theorem State.now_logDev (kind : Nat) (data : List Byte) : (s.logDev kind data).now = s.now := (rfl)
@[simp ↓] theorem State.freeCount_logDev (kind : Nat) (data : List Byte) : (s.logDev kind data).freeCount = s.freeCount := (rfl)
@[simp ↓] theorem State.regs_logDev (kind : Nat) (data : List Byte) : (s.logDev kind data).regs = s.regs := (rfl)
@[simp ↓] theorem State.mem_logDev (kind : Nat) (data : List Byte) : (s.logDev kind data).mem = s.mem := (rfl)
@[simp ↓] theorem State.ecc_logDev (kind : Nat) (data : List Byte) : (s.logDev kind data).ecc = s.ecc := (rfl)
@[simp ↓] theorem State.scrub_logDev (kind : Nat) (data : List Byte) : (s.logDev kind data).scrub = s.scrub := (rfl)
@[simp ↓] theorem State.flash_logDev (kind : Nat) (data : List Byte) : (s.logDev kind data).flash = s.flash := (rfl)
@[simp ↓] theorem State.slices_logDev (kind : Nat) (data : List Byte) : (s.logDev kind data).slices = s.slices := (rfl)
@[simp ↓] theorem State.top_logDev (kind : Nat) (data : List Byte) : (s.logDev kind data).top = s.top := (rfl)
@[simp ↓] theorem State.pwr_logDev (kind : Nat) (data : List Byte) : (s.logDev kind data).pwr = s.pwr := (rfl)
@[simp ↓] theorem State.fab_logDev (kind : Nat) (data : List Byte) : (s.logDev kind data).fab = s.fab := (rfl)
@[simp ↓] theorem State.flt_logDev (kind : Nat) (data : List Byte) : (s.logDev kind data).flt = s.flt := (rfl)
@[simp ↓] theorem State.intr_logDev (kind : Nat) (data : List Byte) : (s.logDev kind data).intr = s.intr := (rfl)
@[simp ↓] theorem State.cfg_logDev (kind : Nat) (data : List Byte) : (s.logDev kind data).cfg = s.cfg := (rfl)
@[simp ↓] theorem State.hostA_logDev (kind : Nat) (data : List Byte) : (s.logDev kind data).hostA = s.hostA := (rfl)
@[simp ↓] theorem State.hostB_logDev (kind : Nat) (data : List Byte) : (s.logDev kind data).hostB = s.hostB := (rfl)
@[simp ↓] theorem State.flm_logDev (kind : Nat) (data : List Byte) : (s.logDev kind data).flm = s.flm := (rfl)
@[simp ↓] theorem State.sec_logDev (kind : Nat) (data : List Byte) : (s.logDev kind data).sec = s.sec := (rfl)
@[simp ↓] theorem State.man_logDev (kind : Nat) (data : List Byte) : (s.logDev kind data).man = s.man := (rfl)
@[simp ↓] theorem State.xlk_logDev (kind : Nat) (data : List Byte) : (s.logDev kind data).xlk = s.xlk := (rfl)
@[simp ↓] theorem State.eng_logDev (kind : Nat) (data : List Byte) : (s.logDev kind data).eng = s.eng := (rfl)
@[simp ↓] theorem State.lnd_logDev (kind : Nat) (data : List Byte) : (s.logDev kind data).lnd = s.lnd := (rfl)
@[simp ↓] theorem State.sel_logDev (kind : Nat) (data : List Byte) : (s.logDev kind data).sel = s.sel := (rfl)
@[simp ↓] theorem State.ent_logDev (kind : Nat) (data : List Byte) : (s.logDev kind data).ent = s.ent := (rfl)
@[simp ↓] theorem State.loop_logDev (kind : Nat) (data : List Byte) : (s.logDev kind data).loop = s.loop := (rfl)
@[simp ↓] theorem State.ho_logDev (kind : Nat) (data : List Byte) : (s.logDev kind data).ho = s.ho := (rfl)
@[simp ↓] theorem State.apl_logDev (kind : Nat) (data : List Byte) : (s.logDev kind data).apl = s.apl := (rfl)
@[simp ↓] theorem State.out_logDev (kind : Nat) (data : List Byte) : (s.logDev kind data).out = s.out := (rfl)
@[simp ↓] theorem State.tsc_logDev (kind : Nat) (data : List Byte) : (s.logDev kind data).tsc = s.tsc := (rfl)
@[simp ↓] theorem State.tod_logDev (kind : Nat) (data : List Byte) : (s.logDev kind data).tod = s.tod := (rfl)
@[simp ↓] theorem State.tasks_logDev (kind : Nat) (data : List Byte) : (s.logDev kind data).tasks = s.tasks := (rfl)
@[simp ↓] theorem State.prt_logDev (kind : Nat) (data : List Byte) : (s.logDev kind data).prt = s.prt := (rfl)
@[simp ↓] theorem State.pte_logDev (kind : Nat) (data : List Byte) : (s.logDev kind data).pte = s.pte := (rfl)
@[simp ↓] theorem State.berth_logDev (kind : Nat) (data : List Byte) : (s.logDev kind data).berth = s.berth := (rfl)
@[simp ↓] theorem State.gens_logDev (kind : Nat) (data : List Byte) : (s.logDev kind data).gens = s.gens := (rfl)

/-- `raise` without its local names. -/
theorem State.raise_eq (n : Nat) : s.raise n =
    if s.sourceUnbuilt n then s
    else if (s.setBit (INTR.HIST (n / 32)) (n % 32)).histOnly then s.setBit (INTR.HIST (n / 32)) (n % 32)
    else if !(s.setBit (INTR.HIST (n / 32)) (n % 32)).pend .a n then
      (((s.setBit (INTR.HIST (n / 32)) (n % 32)).setBit (INTR.PEND .a (n / 32)) (n % 32)).setBit
        (INTR.PEND .b (n / 32)) (n % 32)).dueMessage n
    else ((s.setBit (INTR.HIST (n / 32)) (n % 32)).setBit (INTR.PEND .a (n / 32)) (n % 32)).setBit
      (INTR.PEND .b (n / 32)) (n % 32) := rfl

theorem State.keep_message {P : State → Prop} (v : Nat) (hr : ∀ t k v, P t → P (t.setw k v))
    (hi : ∀ t i, P t → P { t with intr := i })
    (h : P s) : P (s.message v) := by
  unfold State.message; split
  · exact hr _ _ _ h
  · exact hi _ _ h

@[simp ↓] theorem State.pending_message (v : Nat) : (s.message v).pending = s.pending :=
  State.keep_message (P := fun t => t.pending = s.pending) s v (fun _ _ _ h => h) (fun _ _ h => h) rfl
@[simp ↓] theorem State.now_message (v : Nat) : (s.message v).now = s.now :=
  State.keep_message (P := fun t => t.now = s.now) s v (fun _ _ _ h => h) (fun _ _ h => h) rfl
@[simp ↓] theorem State.freeCount_message (v : Nat) : (s.message v).freeCount = s.freeCount :=
  State.keep_message (P := fun t => t.freeCount = s.freeCount) s v (fun _ _ _ h => h) (fun _ _ h => h) rfl
@[simp ↓] theorem State.mem_message (v : Nat) : (s.message v).mem = s.mem :=
  State.keep_message (P := fun t => t.mem = s.mem) s v (fun _ _ _ h => h) (fun _ _ h => h) rfl
@[simp ↓] theorem State.ecc_message (v : Nat) : (s.message v).ecc = s.ecc :=
  State.keep_message (P := fun t => t.ecc = s.ecc) s v (fun _ _ _ h => h) (fun _ _ h => h) rfl
@[simp ↓] theorem State.scrub_message (v : Nat) : (s.message v).scrub = s.scrub :=
  State.keep_message (P := fun t => t.scrub = s.scrub) s v (fun _ _ _ h => h) (fun _ _ h => h) rfl
@[simp ↓] theorem State.flash_message (v : Nat) : (s.message v).flash = s.flash :=
  State.keep_message (P := fun t => t.flash = s.flash) s v (fun _ _ _ h => h) (fun _ _ h => h) rfl
@[simp ↓] theorem State.slices_message (v : Nat) : (s.message v).slices = s.slices :=
  State.keep_message (P := fun t => t.slices = s.slices) s v (fun _ _ _ h => h) (fun _ _ h => h) rfl
@[simp ↓] theorem State.top_message (v : Nat) : (s.message v).top = s.top :=
  State.keep_message (P := fun t => t.top = s.top) s v (fun _ _ _ h => h) (fun _ _ h => h) rfl
@[simp ↓] theorem State.pwr_message (v : Nat) : (s.message v).pwr = s.pwr :=
  State.keep_message (P := fun t => t.pwr = s.pwr) s v (fun _ _ _ h => h) (fun _ _ h => h) rfl
@[simp ↓] theorem State.fab_message (v : Nat) : (s.message v).fab = s.fab :=
  State.keep_message (P := fun t => t.fab = s.fab) s v (fun _ _ _ h => h) (fun _ _ h => h) rfl
@[simp ↓] theorem State.flt_message (v : Nat) : (s.message v).flt = s.flt :=
  State.keep_message (P := fun t => t.flt = s.flt) s v (fun _ _ _ h => h) (fun _ _ h => h) rfl
@[simp ↓] theorem State.cfg_message (v : Nat) : (s.message v).cfg = s.cfg :=
  State.keep_message (P := fun t => t.cfg = s.cfg) s v (fun _ _ _ h => h) (fun _ _ h => h) rfl
@[simp ↓] theorem State.hostA_message (v : Nat) : (s.message v).hostA = s.hostA :=
  State.keep_message (P := fun t => t.hostA = s.hostA) s v (fun _ _ _ h => h) (fun _ _ h => h) rfl
@[simp ↓] theorem State.hostB_message (v : Nat) : (s.message v).hostB = s.hostB :=
  State.keep_message (P := fun t => t.hostB = s.hostB) s v (fun _ _ _ h => h) (fun _ _ h => h) rfl
@[simp ↓] theorem State.nv_message (v : Nat) : (s.message v).nv = s.nv :=
  State.keep_message (P := fun t => t.nv = s.nv) s v (fun _ _ _ h => h) (fun _ _ h => h) rfl
@[simp ↓] theorem State.flm_message (v : Nat) : (s.message v).flm = s.flm :=
  State.keep_message (P := fun t => t.flm = s.flm) s v (fun _ _ _ h => h) (fun _ _ h => h) rfl
@[simp ↓] theorem State.sec_message (v : Nat) : (s.message v).sec = s.sec :=
  State.keep_message (P := fun t => t.sec = s.sec) s v (fun _ _ _ h => h) (fun _ _ h => h) rfl
@[simp ↓] theorem State.man_message (v : Nat) : (s.message v).man = s.man :=
  State.keep_message (P := fun t => t.man = s.man) s v (fun _ _ _ h => h) (fun _ _ h => h) rfl
@[simp ↓] theorem State.xlk_message (v : Nat) : (s.message v).xlk = s.xlk :=
  State.keep_message (P := fun t => t.xlk = s.xlk) s v (fun _ _ _ h => h) (fun _ _ h => h) rfl
@[simp ↓] theorem State.eng_message (v : Nat) : (s.message v).eng = s.eng :=
  State.keep_message (P := fun t => t.eng = s.eng) s v (fun _ _ _ h => h) (fun _ _ h => h) rfl
@[simp ↓] theorem State.lnd_message (v : Nat) : (s.message v).lnd = s.lnd :=
  State.keep_message (P := fun t => t.lnd = s.lnd) s v (fun _ _ _ h => h) (fun _ _ h => h) rfl
@[simp ↓] theorem State.sel_message (v : Nat) : (s.message v).sel = s.sel :=
  State.keep_message (P := fun t => t.sel = s.sel) s v (fun _ _ _ h => h) (fun _ _ h => h) rfl
@[simp ↓] theorem State.ent_message (v : Nat) : (s.message v).ent = s.ent :=
  State.keep_message (P := fun t => t.ent = s.ent) s v (fun _ _ _ h => h) (fun _ _ h => h) rfl
@[simp ↓] theorem State.loop_message (v : Nat) : (s.message v).loop = s.loop :=
  State.keep_message (P := fun t => t.loop = s.loop) s v (fun _ _ _ h => h) (fun _ _ h => h) rfl
@[simp ↓] theorem State.ho_message (v : Nat) : (s.message v).ho = s.ho :=
  State.keep_message (P := fun t => t.ho = s.ho) s v (fun _ _ _ h => h) (fun _ _ h => h) rfl
@[simp ↓] theorem State.apl_message (v : Nat) : (s.message v).apl = s.apl :=
  State.keep_message (P := fun t => t.apl = s.apl) s v (fun _ _ _ h => h) (fun _ _ h => h) rfl
@[simp ↓] theorem State.out_message (v : Nat) : (s.message v).out = s.out :=
  State.keep_message (P := fun t => t.out = s.out) s v (fun _ _ _ h => h) (fun _ _ h => h) rfl
@[simp ↓] theorem State.tsc_message (v : Nat) : (s.message v).tsc = s.tsc :=
  State.keep_message (P := fun t => t.tsc = s.tsc) s v (fun _ _ _ h => h) (fun _ _ h => h) rfl
@[simp ↓] theorem State.tod_message (v : Nat) : (s.message v).tod = s.tod :=
  State.keep_message (P := fun t => t.tod = s.tod) s v (fun _ _ _ h => h) (fun _ _ h => h) rfl
@[simp ↓] theorem State.tasks_message (v : Nat) : (s.message v).tasks = s.tasks :=
  State.keep_message (P := fun t => t.tasks = s.tasks) s v (fun _ _ _ h => h) (fun _ _ h => h) rfl
@[simp ↓] theorem State.prt_message (v : Nat) : (s.message v).prt = s.prt :=
  State.keep_message (P := fun t => t.prt = s.prt) s v (fun _ _ _ h => h) (fun _ _ h => h) rfl
@[simp ↓] theorem State.pte_message (v : Nat) : (s.message v).pte = s.pte :=
  State.keep_message (P := fun t => t.pte = s.pte) s v (fun _ _ _ h => h) (fun _ _ h => h) rfl
@[simp ↓] theorem State.berth_message (v : Nat) : (s.message v).berth = s.berth :=
  State.keep_message (P := fun t => t.berth = s.berth) s v (fun _ _ _ h => h) (fun _ _ h => h) rfl
@[simp ↓] theorem State.gens_message (v : Nat) : (s.message v).gens = s.gens :=
  State.keep_message (P := fun t => t.gens = s.gens) s v (fun _ _ _ h => h) (fun _ _ h => h) rfl

theorem State.keep_dueMessage {P : State → Prop} (n : Nat) (hr : ∀ t k v, P t → P (t.setw k v))
    (hi : ∀ t i, P t → P { t with intr := i })
    (h : P s) : P (s.dueMessage n) := by
  unfold State.dueMessage; split
  · exact State.keep_message _ _ hr hi h
  · exact h

@[simp ↓] theorem State.pending_dueMessage (n : Nat) : (s.dueMessage n).pending = s.pending :=
  State.keep_dueMessage (P := fun t => t.pending = s.pending) s n (fun _ _ _ h => h) (fun _ _ h => h) rfl
@[simp ↓] theorem State.now_dueMessage (n : Nat) : (s.dueMessage n).now = s.now :=
  State.keep_dueMessage (P := fun t => t.now = s.now) s n (fun _ _ _ h => h) (fun _ _ h => h) rfl
@[simp ↓] theorem State.freeCount_dueMessage (n : Nat) : (s.dueMessage n).freeCount = s.freeCount :=
  State.keep_dueMessage (P := fun t => t.freeCount = s.freeCount) s n (fun _ _ _ h => h) (fun _ _ h => h) rfl
@[simp ↓] theorem State.mem_dueMessage (n : Nat) : (s.dueMessage n).mem = s.mem :=
  State.keep_dueMessage (P := fun t => t.mem = s.mem) s n (fun _ _ _ h => h) (fun _ _ h => h) rfl
@[simp ↓] theorem State.ecc_dueMessage (n : Nat) : (s.dueMessage n).ecc = s.ecc :=
  State.keep_dueMessage (P := fun t => t.ecc = s.ecc) s n (fun _ _ _ h => h) (fun _ _ h => h) rfl
@[simp ↓] theorem State.scrub_dueMessage (n : Nat) : (s.dueMessage n).scrub = s.scrub :=
  State.keep_dueMessage (P := fun t => t.scrub = s.scrub) s n (fun _ _ _ h => h) (fun _ _ h => h) rfl
@[simp ↓] theorem State.flash_dueMessage (n : Nat) : (s.dueMessage n).flash = s.flash :=
  State.keep_dueMessage (P := fun t => t.flash = s.flash) s n (fun _ _ _ h => h) (fun _ _ h => h) rfl
@[simp ↓] theorem State.slices_dueMessage (n : Nat) : (s.dueMessage n).slices = s.slices :=
  State.keep_dueMessage (P := fun t => t.slices = s.slices) s n (fun _ _ _ h => h) (fun _ _ h => h) rfl
@[simp ↓] theorem State.top_dueMessage (n : Nat) : (s.dueMessage n).top = s.top :=
  State.keep_dueMessage (P := fun t => t.top = s.top) s n (fun _ _ _ h => h) (fun _ _ h => h) rfl
@[simp ↓] theorem State.pwr_dueMessage (n : Nat) : (s.dueMessage n).pwr = s.pwr :=
  State.keep_dueMessage (P := fun t => t.pwr = s.pwr) s n (fun _ _ _ h => h) (fun _ _ h => h) rfl
@[simp ↓] theorem State.fab_dueMessage (n : Nat) : (s.dueMessage n).fab = s.fab :=
  State.keep_dueMessage (P := fun t => t.fab = s.fab) s n (fun _ _ _ h => h) (fun _ _ h => h) rfl
@[simp ↓] theorem State.flt_dueMessage (n : Nat) : (s.dueMessage n).flt = s.flt :=
  State.keep_dueMessage (P := fun t => t.flt = s.flt) s n (fun _ _ _ h => h) (fun _ _ h => h) rfl
@[simp ↓] theorem State.cfg_dueMessage (n : Nat) : (s.dueMessage n).cfg = s.cfg :=
  State.keep_dueMessage (P := fun t => t.cfg = s.cfg) s n (fun _ _ _ h => h) (fun _ _ h => h) rfl
@[simp ↓] theorem State.hostA_dueMessage (n : Nat) : (s.dueMessage n).hostA = s.hostA :=
  State.keep_dueMessage (P := fun t => t.hostA = s.hostA) s n (fun _ _ _ h => h) (fun _ _ h => h) rfl
@[simp ↓] theorem State.hostB_dueMessage (n : Nat) : (s.dueMessage n).hostB = s.hostB :=
  State.keep_dueMessage (P := fun t => t.hostB = s.hostB) s n (fun _ _ _ h => h) (fun _ _ h => h) rfl
@[simp ↓] theorem State.nv_dueMessage (n : Nat) : (s.dueMessage n).nv = s.nv :=
  State.keep_dueMessage (P := fun t => t.nv = s.nv) s n (fun _ _ _ h => h) (fun _ _ h => h) rfl
@[simp ↓] theorem State.flm_dueMessage (n : Nat) : (s.dueMessage n).flm = s.flm :=
  State.keep_dueMessage (P := fun t => t.flm = s.flm) s n (fun _ _ _ h => h) (fun _ _ h => h) rfl
@[simp ↓] theorem State.sec_dueMessage (n : Nat) : (s.dueMessage n).sec = s.sec :=
  State.keep_dueMessage (P := fun t => t.sec = s.sec) s n (fun _ _ _ h => h) (fun _ _ h => h) rfl
@[simp ↓] theorem State.man_dueMessage (n : Nat) : (s.dueMessage n).man = s.man :=
  State.keep_dueMessage (P := fun t => t.man = s.man) s n (fun _ _ _ h => h) (fun _ _ h => h) rfl
@[simp ↓] theorem State.xlk_dueMessage (n : Nat) : (s.dueMessage n).xlk = s.xlk :=
  State.keep_dueMessage (P := fun t => t.xlk = s.xlk) s n (fun _ _ _ h => h) (fun _ _ h => h) rfl
@[simp ↓] theorem State.eng_dueMessage (n : Nat) : (s.dueMessage n).eng = s.eng :=
  State.keep_dueMessage (P := fun t => t.eng = s.eng) s n (fun _ _ _ h => h) (fun _ _ h => h) rfl
@[simp ↓] theorem State.lnd_dueMessage (n : Nat) : (s.dueMessage n).lnd = s.lnd :=
  State.keep_dueMessage (P := fun t => t.lnd = s.lnd) s n (fun _ _ _ h => h) (fun _ _ h => h) rfl
@[simp ↓] theorem State.sel_dueMessage (n : Nat) : (s.dueMessage n).sel = s.sel :=
  State.keep_dueMessage (P := fun t => t.sel = s.sel) s n (fun _ _ _ h => h) (fun _ _ h => h) rfl
@[simp ↓] theorem State.ent_dueMessage (n : Nat) : (s.dueMessage n).ent = s.ent :=
  State.keep_dueMessage (P := fun t => t.ent = s.ent) s n (fun _ _ _ h => h) (fun _ _ h => h) rfl
@[simp ↓] theorem State.loop_dueMessage (n : Nat) : (s.dueMessage n).loop = s.loop :=
  State.keep_dueMessage (P := fun t => t.loop = s.loop) s n (fun _ _ _ h => h) (fun _ _ h => h) rfl
@[simp ↓] theorem State.ho_dueMessage (n : Nat) : (s.dueMessage n).ho = s.ho :=
  State.keep_dueMessage (P := fun t => t.ho = s.ho) s n (fun _ _ _ h => h) (fun _ _ h => h) rfl
@[simp ↓] theorem State.apl_dueMessage (n : Nat) : (s.dueMessage n).apl = s.apl :=
  State.keep_dueMessage (P := fun t => t.apl = s.apl) s n (fun _ _ _ h => h) (fun _ _ h => h) rfl
@[simp ↓] theorem State.out_dueMessage (n : Nat) : (s.dueMessage n).out = s.out :=
  State.keep_dueMessage (P := fun t => t.out = s.out) s n (fun _ _ _ h => h) (fun _ _ h => h) rfl
@[simp ↓] theorem State.tsc_dueMessage (n : Nat) : (s.dueMessage n).tsc = s.tsc :=
  State.keep_dueMessage (P := fun t => t.tsc = s.tsc) s n (fun _ _ _ h => h) (fun _ _ h => h) rfl
@[simp ↓] theorem State.tod_dueMessage (n : Nat) : (s.dueMessage n).tod = s.tod :=
  State.keep_dueMessage (P := fun t => t.tod = s.tod) s n (fun _ _ _ h => h) (fun _ _ h => h) rfl
@[simp ↓] theorem State.tasks_dueMessage (n : Nat) : (s.dueMessage n).tasks = s.tasks :=
  State.keep_dueMessage (P := fun t => t.tasks = s.tasks) s n (fun _ _ _ h => h) (fun _ _ h => h) rfl
@[simp ↓] theorem State.prt_dueMessage (n : Nat) : (s.dueMessage n).prt = s.prt :=
  State.keep_dueMessage (P := fun t => t.prt = s.prt) s n (fun _ _ _ h => h) (fun _ _ h => h) rfl
@[simp ↓] theorem State.pte_dueMessage (n : Nat) : (s.dueMessage n).pte = s.pte :=
  State.keep_dueMessage (P := fun t => t.pte = s.pte) s n (fun _ _ _ h => h) (fun _ _ h => h) rfl
@[simp ↓] theorem State.berth_dueMessage (n : Nat) : (s.dueMessage n).berth = s.berth :=
  State.keep_dueMessage (P := fun t => t.berth = s.berth) s n (fun _ _ _ h => h) (fun _ _ h => h) rfl
@[simp ↓] theorem State.gens_dueMessage (n : Nat) : (s.dueMessage n).gens = s.gens :=
  State.keep_dueMessage (P := fun t => t.gens = s.gens) s n (fun _ _ _ h => h) (fun _ _ h => h) rfl

theorem State.keep_raise {P : State → Prop} (n : Nat) (hr : ∀ t k v, P t → P (t.setw k v))
    (hi : ∀ t i, P t → P { t with intr := i })
    (h : P s) : P (s.raise n) := by
  rw [State.raise_eq]; split
  · exact h
  split
  · exact hr _ _ _ h
  · split
    · exact State.keep_dueMessage _ _ hr hi (hr _ _ _ (hr _ _ _ (hr _ _ _ h)))
    · exact hr _ _ _ (hr _ _ _ (hr _ _ _ h))

@[simp ↓] theorem State.pending_raise (n : Nat) : (s.raise n).pending = s.pending :=
  State.keep_raise (P := fun t => t.pending = s.pending) s n (fun _ _ _ h => h) (fun _ _ h => h) rfl
@[simp ↓] theorem State.now_raise (n : Nat) : (s.raise n).now = s.now :=
  State.keep_raise (P := fun t => t.now = s.now) s n (fun _ _ _ h => h) (fun _ _ h => h) rfl
@[simp ↓] theorem State.freeCount_raise (n : Nat) : (s.raise n).freeCount = s.freeCount :=
  State.keep_raise (P := fun t => t.freeCount = s.freeCount) s n (fun _ _ _ h => h) (fun _ _ h => h) rfl
@[simp ↓] theorem State.mem_raise (n : Nat) : (s.raise n).mem = s.mem :=
  State.keep_raise (P := fun t => t.mem = s.mem) s n (fun _ _ _ h => h) (fun _ _ h => h) rfl
@[simp ↓] theorem State.ecc_raise (n : Nat) : (s.raise n).ecc = s.ecc :=
  State.keep_raise (P := fun t => t.ecc = s.ecc) s n (fun _ _ _ h => h) (fun _ _ h => h) rfl
@[simp ↓] theorem State.scrub_raise (n : Nat) : (s.raise n).scrub = s.scrub :=
  State.keep_raise (P := fun t => t.scrub = s.scrub) s n (fun _ _ _ h => h) (fun _ _ h => h) rfl
@[simp ↓] theorem State.flash_raise (n : Nat) : (s.raise n).flash = s.flash :=
  State.keep_raise (P := fun t => t.flash = s.flash) s n (fun _ _ _ h => h) (fun _ _ h => h) rfl
@[simp ↓] theorem State.slices_raise (n : Nat) : (s.raise n).slices = s.slices :=
  State.keep_raise (P := fun t => t.slices = s.slices) s n (fun _ _ _ h => h) (fun _ _ h => h) rfl
@[simp ↓] theorem State.top_raise (n : Nat) : (s.raise n).top = s.top :=
  State.keep_raise (P := fun t => t.top = s.top) s n (fun _ _ _ h => h) (fun _ _ h => h) rfl
@[simp ↓] theorem State.pwr_raise (n : Nat) : (s.raise n).pwr = s.pwr :=
  State.keep_raise (P := fun t => t.pwr = s.pwr) s n (fun _ _ _ h => h) (fun _ _ h => h) rfl
@[simp ↓] theorem State.fab_raise (n : Nat) : (s.raise n).fab = s.fab :=
  State.keep_raise (P := fun t => t.fab = s.fab) s n (fun _ _ _ h => h) (fun _ _ h => h) rfl
@[simp ↓] theorem State.flt_raise (n : Nat) : (s.raise n).flt = s.flt :=
  State.keep_raise (P := fun t => t.flt = s.flt) s n (fun _ _ _ h => h) (fun _ _ h => h) rfl
@[simp ↓] theorem State.cfg_raise (n : Nat) : (s.raise n).cfg = s.cfg :=
  State.keep_raise (P := fun t => t.cfg = s.cfg) s n (fun _ _ _ h => h) (fun _ _ h => h) rfl
@[simp ↓] theorem State.hostA_raise (n : Nat) : (s.raise n).hostA = s.hostA :=
  State.keep_raise (P := fun t => t.hostA = s.hostA) s n (fun _ _ _ h => h) (fun _ _ h => h) rfl
@[simp ↓] theorem State.hostB_raise (n : Nat) : (s.raise n).hostB = s.hostB :=
  State.keep_raise (P := fun t => t.hostB = s.hostB) s n (fun _ _ _ h => h) (fun _ _ h => h) rfl
@[simp ↓] theorem State.nv_raise (n : Nat) : (s.raise n).nv = s.nv :=
  State.keep_raise (P := fun t => t.nv = s.nv) s n (fun _ _ _ h => h) (fun _ _ h => h) rfl
@[simp ↓] theorem State.flm_raise (n : Nat) : (s.raise n).flm = s.flm :=
  State.keep_raise (P := fun t => t.flm = s.flm) s n (fun _ _ _ h => h) (fun _ _ h => h) rfl
@[simp ↓] theorem State.sec_raise (n : Nat) : (s.raise n).sec = s.sec :=
  State.keep_raise (P := fun t => t.sec = s.sec) s n (fun _ _ _ h => h) (fun _ _ h => h) rfl
@[simp ↓] theorem State.man_raise (n : Nat) : (s.raise n).man = s.man :=
  State.keep_raise (P := fun t => t.man = s.man) s n (fun _ _ _ h => h) (fun _ _ h => h) rfl
@[simp ↓] theorem State.xlk_raise (n : Nat) : (s.raise n).xlk = s.xlk :=
  State.keep_raise (P := fun t => t.xlk = s.xlk) s n (fun _ _ _ h => h) (fun _ _ h => h) rfl
@[simp ↓] theorem State.eng_raise (n : Nat) : (s.raise n).eng = s.eng :=
  State.keep_raise (P := fun t => t.eng = s.eng) s n (fun _ _ _ h => h) (fun _ _ h => h) rfl
@[simp ↓] theorem State.lnd_raise (n : Nat) : (s.raise n).lnd = s.lnd :=
  State.keep_raise (P := fun t => t.lnd = s.lnd) s n (fun _ _ _ h => h) (fun _ _ h => h) rfl
@[simp ↓] theorem State.sel_raise (n : Nat) : (s.raise n).sel = s.sel :=
  State.keep_raise (P := fun t => t.sel = s.sel) s n (fun _ _ _ h => h) (fun _ _ h => h) rfl
@[simp ↓] theorem State.ent_raise (n : Nat) : (s.raise n).ent = s.ent :=
  State.keep_raise (P := fun t => t.ent = s.ent) s n (fun _ _ _ h => h) (fun _ _ h => h) rfl
@[simp ↓] theorem State.loop_raise (n : Nat) : (s.raise n).loop = s.loop :=
  State.keep_raise (P := fun t => t.loop = s.loop) s n (fun _ _ _ h => h) (fun _ _ h => h) rfl
@[simp ↓] theorem State.ho_raise (n : Nat) : (s.raise n).ho = s.ho :=
  State.keep_raise (P := fun t => t.ho = s.ho) s n (fun _ _ _ h => h) (fun _ _ h => h) rfl
@[simp ↓] theorem State.apl_raise (n : Nat) : (s.raise n).apl = s.apl :=
  State.keep_raise (P := fun t => t.apl = s.apl) s n (fun _ _ _ h => h) (fun _ _ h => h) rfl
@[simp ↓] theorem State.out_raise (n : Nat) : (s.raise n).out = s.out :=
  State.keep_raise (P := fun t => t.out = s.out) s n (fun _ _ _ h => h) (fun _ _ h => h) rfl
@[simp ↓] theorem State.tsc_raise (n : Nat) : (s.raise n).tsc = s.tsc :=
  State.keep_raise (P := fun t => t.tsc = s.tsc) s n (fun _ _ _ h => h) (fun _ _ h => h) rfl
@[simp ↓] theorem State.tod_raise (n : Nat) : (s.raise n).tod = s.tod :=
  State.keep_raise (P := fun t => t.tod = s.tod) s n (fun _ _ _ h => h) (fun _ _ h => h) rfl
@[simp ↓] theorem State.tasks_raise (n : Nat) : (s.raise n).tasks = s.tasks :=
  State.keep_raise (P := fun t => t.tasks = s.tasks) s n (fun _ _ _ h => h) (fun _ _ h => h) rfl
@[simp ↓] theorem State.prt_raise (n : Nat) : (s.raise n).prt = s.prt :=
  State.keep_raise (P := fun t => t.prt = s.prt) s n (fun _ _ _ h => h) (fun _ _ h => h) rfl
@[simp ↓] theorem State.pte_raise (n : Nat) : (s.raise n).pte = s.pte :=
  State.keep_raise (P := fun t => t.pte = s.pte) s n (fun _ _ _ h => h) (fun _ _ h => h) rfl
@[simp ↓] theorem State.berth_raise (n : Nat) : (s.raise n).berth = s.berth :=
  State.keep_raise (P := fun t => t.berth = s.berth) s n (fun _ _ _ h => h) (fun _ _ h => h) rfl
@[simp ↓] theorem State.gens_raise (n : Nat) : (s.raise n).gens = s.gens :=
  State.keep_raise (P := fun t => t.gens = s.gens) s n (fun _ _ _ h => h) (fun _ _ h => h) rfl

theorem State.keep_ev {P : State → Prop} (x : Fld) (hr : ∀ t k v, P t → P (t.setw k v))
    (hi : ∀ t i, P t → P { t with intr := i })
    (h : P s) : P (s.ev x) := by
  unfold State.ev; split
  · exact h
  · split
    · exact State.keep_raise _ _ hr hi (hr _ _ _ h)
    · exact hr _ _ _ h

@[simp ↓] theorem State.pending_ev (x : Fld) : (s.ev x).pending = s.pending :=
  State.keep_ev (P := fun t => t.pending = s.pending) s x (fun _ _ _ h => h) (fun _ _ h => h) rfl
@[simp ↓] theorem State.now_ev (x : Fld) : (s.ev x).now = s.now :=
  State.keep_ev (P := fun t => t.now = s.now) s x (fun _ _ _ h => h) (fun _ _ h => h) rfl
@[simp ↓] theorem State.freeCount_ev (x : Fld) : (s.ev x).freeCount = s.freeCount :=
  State.keep_ev (P := fun t => t.freeCount = s.freeCount) s x (fun _ _ _ h => h) (fun _ _ h => h) rfl
@[simp ↓] theorem State.mem_ev (x : Fld) : (s.ev x).mem = s.mem :=
  State.keep_ev (P := fun t => t.mem = s.mem) s x (fun _ _ _ h => h) (fun _ _ h => h) rfl
@[simp ↓] theorem State.ecc_ev (x : Fld) : (s.ev x).ecc = s.ecc :=
  State.keep_ev (P := fun t => t.ecc = s.ecc) s x (fun _ _ _ h => h) (fun _ _ h => h) rfl
@[simp ↓] theorem State.scrub_ev (x : Fld) : (s.ev x).scrub = s.scrub :=
  State.keep_ev (P := fun t => t.scrub = s.scrub) s x (fun _ _ _ h => h) (fun _ _ h => h) rfl
@[simp ↓] theorem State.flash_ev (x : Fld) : (s.ev x).flash = s.flash :=
  State.keep_ev (P := fun t => t.flash = s.flash) s x (fun _ _ _ h => h) (fun _ _ h => h) rfl
@[simp ↓] theorem State.slices_ev (x : Fld) : (s.ev x).slices = s.slices :=
  State.keep_ev (P := fun t => t.slices = s.slices) s x (fun _ _ _ h => h) (fun _ _ h => h) rfl
@[simp ↓] theorem State.top_ev (x : Fld) : (s.ev x).top = s.top :=
  State.keep_ev (P := fun t => t.top = s.top) s x (fun _ _ _ h => h) (fun _ _ h => h) rfl
@[simp ↓] theorem State.pwr_ev (x : Fld) : (s.ev x).pwr = s.pwr :=
  State.keep_ev (P := fun t => t.pwr = s.pwr) s x (fun _ _ _ h => h) (fun _ _ h => h) rfl
@[simp ↓] theorem State.fab_ev (x : Fld) : (s.ev x).fab = s.fab :=
  State.keep_ev (P := fun t => t.fab = s.fab) s x (fun _ _ _ h => h) (fun _ _ h => h) rfl
@[simp ↓] theorem State.flt_ev (x : Fld) : (s.ev x).flt = s.flt :=
  State.keep_ev (P := fun t => t.flt = s.flt) s x (fun _ _ _ h => h) (fun _ _ h => h) rfl
@[simp ↓] theorem State.cfg_ev (x : Fld) : (s.ev x).cfg = s.cfg :=
  State.keep_ev (P := fun t => t.cfg = s.cfg) s x (fun _ _ _ h => h) (fun _ _ h => h) rfl
@[simp ↓] theorem State.hostA_ev (x : Fld) : (s.ev x).hostA = s.hostA :=
  State.keep_ev (P := fun t => t.hostA = s.hostA) s x (fun _ _ _ h => h) (fun _ _ h => h) rfl
@[simp ↓] theorem State.hostB_ev (x : Fld) : (s.ev x).hostB = s.hostB :=
  State.keep_ev (P := fun t => t.hostB = s.hostB) s x (fun _ _ _ h => h) (fun _ _ h => h) rfl
@[simp ↓] theorem State.nv_ev (x : Fld) : (s.ev x).nv = s.nv :=
  State.keep_ev (P := fun t => t.nv = s.nv) s x (fun _ _ _ h => h) (fun _ _ h => h) rfl
@[simp ↓] theorem State.flm_ev (x : Fld) : (s.ev x).flm = s.flm :=
  State.keep_ev (P := fun t => t.flm = s.flm) s x (fun _ _ _ h => h) (fun _ _ h => h) rfl
@[simp ↓] theorem State.sec_ev (x : Fld) : (s.ev x).sec = s.sec :=
  State.keep_ev (P := fun t => t.sec = s.sec) s x (fun _ _ _ h => h) (fun _ _ h => h) rfl
@[simp ↓] theorem State.man_ev (x : Fld) : (s.ev x).man = s.man :=
  State.keep_ev (P := fun t => t.man = s.man) s x (fun _ _ _ h => h) (fun _ _ h => h) rfl
@[simp ↓] theorem State.xlk_ev (x : Fld) : (s.ev x).xlk = s.xlk :=
  State.keep_ev (P := fun t => t.xlk = s.xlk) s x (fun _ _ _ h => h) (fun _ _ h => h) rfl
@[simp ↓] theorem State.eng_ev (x : Fld) : (s.ev x).eng = s.eng :=
  State.keep_ev (P := fun t => t.eng = s.eng) s x (fun _ _ _ h => h) (fun _ _ h => h) rfl
@[simp ↓] theorem State.lnd_ev (x : Fld) : (s.ev x).lnd = s.lnd :=
  State.keep_ev (P := fun t => t.lnd = s.lnd) s x (fun _ _ _ h => h) (fun _ _ h => h) rfl
@[simp ↓] theorem State.sel_ev (x : Fld) : (s.ev x).sel = s.sel :=
  State.keep_ev (P := fun t => t.sel = s.sel) s x (fun _ _ _ h => h) (fun _ _ h => h) rfl
@[simp ↓] theorem State.ent_ev (x : Fld) : (s.ev x).ent = s.ent :=
  State.keep_ev (P := fun t => t.ent = s.ent) s x (fun _ _ _ h => h) (fun _ _ h => h) rfl
@[simp ↓] theorem State.loop_ev (x : Fld) : (s.ev x).loop = s.loop :=
  State.keep_ev (P := fun t => t.loop = s.loop) s x (fun _ _ _ h => h) (fun _ _ h => h) rfl
@[simp ↓] theorem State.ho_ev (x : Fld) : (s.ev x).ho = s.ho :=
  State.keep_ev (P := fun t => t.ho = s.ho) s x (fun _ _ _ h => h) (fun _ _ h => h) rfl
@[simp ↓] theorem State.apl_ev (x : Fld) : (s.ev x).apl = s.apl :=
  State.keep_ev (P := fun t => t.apl = s.apl) s x (fun _ _ _ h => h) (fun _ _ h => h) rfl
@[simp ↓] theorem State.out_ev (x : Fld) : (s.ev x).out = s.out :=
  State.keep_ev (P := fun t => t.out = s.out) s x (fun _ _ _ h => h) (fun _ _ h => h) rfl
@[simp ↓] theorem State.tsc_ev (x : Fld) : (s.ev x).tsc = s.tsc :=
  State.keep_ev (P := fun t => t.tsc = s.tsc) s x (fun _ _ _ h => h) (fun _ _ h => h) rfl
@[simp ↓] theorem State.tod_ev (x : Fld) : (s.ev x).tod = s.tod :=
  State.keep_ev (P := fun t => t.tod = s.tod) s x (fun _ _ _ h => h) (fun _ _ h => h) rfl
@[simp ↓] theorem State.tasks_ev (x : Fld) : (s.ev x).tasks = s.tasks :=
  State.keep_ev (P := fun t => t.tasks = s.tasks) s x (fun _ _ _ h => h) (fun _ _ h => h) rfl
@[simp ↓] theorem State.prt_ev (x : Fld) : (s.ev x).prt = s.prt :=
  State.keep_ev (P := fun t => t.prt = s.prt) s x (fun _ _ _ h => h) (fun _ _ h => h) rfl
@[simp ↓] theorem State.pte_ev (x : Fld) : (s.ev x).pte = s.pte :=
  State.keep_ev (P := fun t => t.pte = s.pte) s x (fun _ _ _ h => h) (fun _ _ h => h) rfl
@[simp ↓] theorem State.berth_ev (x : Fld) : (s.ev x).berth = s.berth :=
  State.keep_ev (P := fun t => t.berth = s.berth) s x (fun _ _ _ h => h) (fun _ _ h => h) rfl
@[simp ↓] theorem State.gens_ev (x : Fld) : (s.ev x).gens = s.gens :=
  State.keep_ev (P := fun t => t.gens = s.gens) s x (fun _ _ _ h => h) (fun _ _ h => h) rfl

theorem State.keep_evIf {P : State → Prop} (c : Bool) (x : Fld) (hr : ∀ t k v, P t → P (t.setw k v))
    (hi : ∀ t i, P t → P { t with intr := i })
    (h : P s) : P (s.evIf c x) := by
  unfold State.evIf; split
  · exact State.keep_ev _ _ hr hi h
  · exact h

@[simp ↓] theorem State.pending_evIf (c : Bool) (x : Fld) : (s.evIf c x).pending = s.pending :=
  State.keep_evIf (P := fun t => t.pending = s.pending) s c x (fun _ _ _ h => h) (fun _ _ h => h) rfl
@[simp ↓] theorem State.now_evIf (c : Bool) (x : Fld) : (s.evIf c x).now = s.now :=
  State.keep_evIf (P := fun t => t.now = s.now) s c x (fun _ _ _ h => h) (fun _ _ h => h) rfl
@[simp ↓] theorem State.freeCount_evIf (c : Bool) (x : Fld) : (s.evIf c x).freeCount = s.freeCount :=
  State.keep_evIf (P := fun t => t.freeCount = s.freeCount) s c x (fun _ _ _ h => h) (fun _ _ h => h) rfl
@[simp ↓] theorem State.mem_evIf (c : Bool) (x : Fld) : (s.evIf c x).mem = s.mem :=
  State.keep_evIf (P := fun t => t.mem = s.mem) s c x (fun _ _ _ h => h) (fun _ _ h => h) rfl
@[simp ↓] theorem State.ecc_evIf (c : Bool) (x : Fld) : (s.evIf c x).ecc = s.ecc :=
  State.keep_evIf (P := fun t => t.ecc = s.ecc) s c x (fun _ _ _ h => h) (fun _ _ h => h) rfl
@[simp ↓] theorem State.scrub_evIf (c : Bool) (x : Fld) : (s.evIf c x).scrub = s.scrub :=
  State.keep_evIf (P := fun t => t.scrub = s.scrub) s c x (fun _ _ _ h => h) (fun _ _ h => h) rfl
@[simp ↓] theorem State.flash_evIf (c : Bool) (x : Fld) : (s.evIf c x).flash = s.flash :=
  State.keep_evIf (P := fun t => t.flash = s.flash) s c x (fun _ _ _ h => h) (fun _ _ h => h) rfl
@[simp ↓] theorem State.slices_evIf (c : Bool) (x : Fld) : (s.evIf c x).slices = s.slices :=
  State.keep_evIf (P := fun t => t.slices = s.slices) s c x (fun _ _ _ h => h) (fun _ _ h => h) rfl
@[simp ↓] theorem State.top_evIf (c : Bool) (x : Fld) : (s.evIf c x).top = s.top :=
  State.keep_evIf (P := fun t => t.top = s.top) s c x (fun _ _ _ h => h) (fun _ _ h => h) rfl
@[simp ↓] theorem State.pwr_evIf (c : Bool) (x : Fld) : (s.evIf c x).pwr = s.pwr :=
  State.keep_evIf (P := fun t => t.pwr = s.pwr) s c x (fun _ _ _ h => h) (fun _ _ h => h) rfl
@[simp ↓] theorem State.fab_evIf (c : Bool) (x : Fld) : (s.evIf c x).fab = s.fab :=
  State.keep_evIf (P := fun t => t.fab = s.fab) s c x (fun _ _ _ h => h) (fun _ _ h => h) rfl
@[simp ↓] theorem State.flt_evIf (c : Bool) (x : Fld) : (s.evIf c x).flt = s.flt :=
  State.keep_evIf (P := fun t => t.flt = s.flt) s c x (fun _ _ _ h => h) (fun _ _ h => h) rfl
@[simp ↓] theorem State.cfg_evIf (c : Bool) (x : Fld) : (s.evIf c x).cfg = s.cfg :=
  State.keep_evIf (P := fun t => t.cfg = s.cfg) s c x (fun _ _ _ h => h) (fun _ _ h => h) rfl
@[simp ↓] theorem State.hostA_evIf (c : Bool) (x : Fld) : (s.evIf c x).hostA = s.hostA :=
  State.keep_evIf (P := fun t => t.hostA = s.hostA) s c x (fun _ _ _ h => h) (fun _ _ h => h) rfl
@[simp ↓] theorem State.hostB_evIf (c : Bool) (x : Fld) : (s.evIf c x).hostB = s.hostB :=
  State.keep_evIf (P := fun t => t.hostB = s.hostB) s c x (fun _ _ _ h => h) (fun _ _ h => h) rfl
@[simp ↓] theorem State.nv_evIf (c : Bool) (x : Fld) : (s.evIf c x).nv = s.nv :=
  State.keep_evIf (P := fun t => t.nv = s.nv) s c x (fun _ _ _ h => h) (fun _ _ h => h) rfl
@[simp ↓] theorem State.flm_evIf (c : Bool) (x : Fld) : (s.evIf c x).flm = s.flm :=
  State.keep_evIf (P := fun t => t.flm = s.flm) s c x (fun _ _ _ h => h) (fun _ _ h => h) rfl
@[simp ↓] theorem State.sec_evIf (c : Bool) (x : Fld) : (s.evIf c x).sec = s.sec :=
  State.keep_evIf (P := fun t => t.sec = s.sec) s c x (fun _ _ _ h => h) (fun _ _ h => h) rfl
@[simp ↓] theorem State.man_evIf (c : Bool) (x : Fld) : (s.evIf c x).man = s.man :=
  State.keep_evIf (P := fun t => t.man = s.man) s c x (fun _ _ _ h => h) (fun _ _ h => h) rfl
@[simp ↓] theorem State.xlk_evIf (c : Bool) (x : Fld) : (s.evIf c x).xlk = s.xlk :=
  State.keep_evIf (P := fun t => t.xlk = s.xlk) s c x (fun _ _ _ h => h) (fun _ _ h => h) rfl
@[simp ↓] theorem State.eng_evIf (c : Bool) (x : Fld) : (s.evIf c x).eng = s.eng :=
  State.keep_evIf (P := fun t => t.eng = s.eng) s c x (fun _ _ _ h => h) (fun _ _ h => h) rfl
@[simp ↓] theorem State.lnd_evIf (c : Bool) (x : Fld) : (s.evIf c x).lnd = s.lnd :=
  State.keep_evIf (P := fun t => t.lnd = s.lnd) s c x (fun _ _ _ h => h) (fun _ _ h => h) rfl
@[simp ↓] theorem State.sel_evIf (c : Bool) (x : Fld) : (s.evIf c x).sel = s.sel :=
  State.keep_evIf (P := fun t => t.sel = s.sel) s c x (fun _ _ _ h => h) (fun _ _ h => h) rfl
@[simp ↓] theorem State.ent_evIf (c : Bool) (x : Fld) : (s.evIf c x).ent = s.ent :=
  State.keep_evIf (P := fun t => t.ent = s.ent) s c x (fun _ _ _ h => h) (fun _ _ h => h) rfl
@[simp ↓] theorem State.loop_evIf (c : Bool) (x : Fld) : (s.evIf c x).loop = s.loop :=
  State.keep_evIf (P := fun t => t.loop = s.loop) s c x (fun _ _ _ h => h) (fun _ _ h => h) rfl
@[simp ↓] theorem State.ho_evIf (c : Bool) (x : Fld) : (s.evIf c x).ho = s.ho :=
  State.keep_evIf (P := fun t => t.ho = s.ho) s c x (fun _ _ _ h => h) (fun _ _ h => h) rfl
@[simp ↓] theorem State.apl_evIf (c : Bool) (x : Fld) : (s.evIf c x).apl = s.apl :=
  State.keep_evIf (P := fun t => t.apl = s.apl) s c x (fun _ _ _ h => h) (fun _ _ h => h) rfl
@[simp ↓] theorem State.out_evIf (c : Bool) (x : Fld) : (s.evIf c x).out = s.out :=
  State.keep_evIf (P := fun t => t.out = s.out) s c x (fun _ _ _ h => h) (fun _ _ h => h) rfl
@[simp ↓] theorem State.tsc_evIf (c : Bool) (x : Fld) : (s.evIf c x).tsc = s.tsc :=
  State.keep_evIf (P := fun t => t.tsc = s.tsc) s c x (fun _ _ _ h => h) (fun _ _ h => h) rfl
@[simp ↓] theorem State.tod_evIf (c : Bool) (x : Fld) : (s.evIf c x).tod = s.tod :=
  State.keep_evIf (P := fun t => t.tod = s.tod) s c x (fun _ _ _ h => h) (fun _ _ h => h) rfl
@[simp ↓] theorem State.tasks_evIf (c : Bool) (x : Fld) : (s.evIf c x).tasks = s.tasks :=
  State.keep_evIf (P := fun t => t.tasks = s.tasks) s c x (fun _ _ _ h => h) (fun _ _ h => h) rfl
@[simp ↓] theorem State.prt_evIf (c : Bool) (x : Fld) : (s.evIf c x).prt = s.prt :=
  State.keep_evIf (P := fun t => t.prt = s.prt) s c x (fun _ _ _ h => h) (fun _ _ h => h) rfl
@[simp ↓] theorem State.pte_evIf (c : Bool) (x : Fld) : (s.evIf c x).pte = s.pte :=
  State.keep_evIf (P := fun t => t.pte = s.pte) s c x (fun _ _ _ h => h) (fun _ _ h => h) rfl
@[simp ↓] theorem State.berth_evIf (c : Bool) (x : Fld) : (s.evIf c x).berth = s.berth :=
  State.keep_evIf (P := fun t => t.berth = s.berth) s c x (fun _ _ _ h => h) (fun _ _ h => h) rfl
@[simp ↓] theorem State.gens_evIf (c : Bool) (x : Fld) : (s.evIf c x).gens = s.gens :=
  State.keep_evIf (P := fun t => t.gens = s.gens) s c x (fun _ _ _ h => h) (fun _ _ h => h) rfl

theorem State.keep_mboxWords {P : State → Prop} (p : Port) (k : Nat) (ws : List Word) (hr : ∀ t k v, P t → P (t.setw k v))
    (h : P s) : P (s.mboxWords p k ws) := by
  induction ws generalizing s k with
  | nil => exact h
  | cons v ws ih => exact ih _ _ (hr _ _ _ h)

@[simp ↓] theorem State.pending_mboxWords (p : Port) (k : Nat) (ws : List Word) : (s.mboxWords p k ws).pending = s.pending :=
  State.keep_mboxWords (P := fun t => t.pending = s.pending) s p k ws (fun _ _ _ h => h) rfl
@[simp ↓] theorem State.now_mboxWords (p : Port) (k : Nat) (ws : List Word) : (s.mboxWords p k ws).now = s.now :=
  State.keep_mboxWords (P := fun t => t.now = s.now) s p k ws (fun _ _ _ h => h) rfl
@[simp ↓] theorem State.freeCount_mboxWords (p : Port) (k : Nat) (ws : List Word) : (s.mboxWords p k ws).freeCount = s.freeCount :=
  State.keep_mboxWords (P := fun t => t.freeCount = s.freeCount) s p k ws (fun _ _ _ h => h) rfl
@[simp ↓] theorem State.mem_mboxWords (p : Port) (k : Nat) (ws : List Word) : (s.mboxWords p k ws).mem = s.mem :=
  State.keep_mboxWords (P := fun t => t.mem = s.mem) s p k ws (fun _ _ _ h => h) rfl
@[simp ↓] theorem State.ecc_mboxWords (p : Port) (k : Nat) (ws : List Word) : (s.mboxWords p k ws).ecc = s.ecc :=
  State.keep_mboxWords (P := fun t => t.ecc = s.ecc) s p k ws (fun _ _ _ h => h) rfl
@[simp ↓] theorem State.scrub_mboxWords (p : Port) (k : Nat) (ws : List Word) : (s.mboxWords p k ws).scrub = s.scrub :=
  State.keep_mboxWords (P := fun t => t.scrub = s.scrub) s p k ws (fun _ _ _ h => h) rfl
@[simp ↓] theorem State.flash_mboxWords (p : Port) (k : Nat) (ws : List Word) : (s.mboxWords p k ws).flash = s.flash :=
  State.keep_mboxWords (P := fun t => t.flash = s.flash) s p k ws (fun _ _ _ h => h) rfl
@[simp ↓] theorem State.slices_mboxWords (p : Port) (k : Nat) (ws : List Word) : (s.mboxWords p k ws).slices = s.slices :=
  State.keep_mboxWords (P := fun t => t.slices = s.slices) s p k ws (fun _ _ _ h => h) rfl
@[simp ↓] theorem State.top_mboxWords (p : Port) (k : Nat) (ws : List Word) : (s.mboxWords p k ws).top = s.top :=
  State.keep_mboxWords (P := fun t => t.top = s.top) s p k ws (fun _ _ _ h => h) rfl
@[simp ↓] theorem State.pwr_mboxWords (p : Port) (k : Nat) (ws : List Word) : (s.mboxWords p k ws).pwr = s.pwr :=
  State.keep_mboxWords (P := fun t => t.pwr = s.pwr) s p k ws (fun _ _ _ h => h) rfl
@[simp ↓] theorem State.fab_mboxWords (p : Port) (k : Nat) (ws : List Word) : (s.mboxWords p k ws).fab = s.fab :=
  State.keep_mboxWords (P := fun t => t.fab = s.fab) s p k ws (fun _ _ _ h => h) rfl
@[simp ↓] theorem State.flt_mboxWords (p : Port) (k : Nat) (ws : List Word) : (s.mboxWords p k ws).flt = s.flt :=
  State.keep_mboxWords (P := fun t => t.flt = s.flt) s p k ws (fun _ _ _ h => h) rfl
@[simp ↓] theorem State.intr_mboxWords (p : Port) (k : Nat) (ws : List Word) : (s.mboxWords p k ws).intr = s.intr :=
  State.keep_mboxWords (P := fun t => t.intr = s.intr) s p k ws (fun _ _ _ h => h) rfl
@[simp ↓] theorem State.cfg_mboxWords (p : Port) (k : Nat) (ws : List Word) : (s.mboxWords p k ws).cfg = s.cfg :=
  State.keep_mboxWords (P := fun t => t.cfg = s.cfg) s p k ws (fun _ _ _ h => h) rfl
@[simp ↓] theorem State.hostA_mboxWords (p : Port) (k : Nat) (ws : List Word) : (s.mboxWords p k ws).hostA = s.hostA :=
  State.keep_mboxWords (P := fun t => t.hostA = s.hostA) s p k ws (fun _ _ _ h => h) rfl
@[simp ↓] theorem State.hostB_mboxWords (p : Port) (k : Nat) (ws : List Word) : (s.mboxWords p k ws).hostB = s.hostB :=
  State.keep_mboxWords (P := fun t => t.hostB = s.hostB) s p k ws (fun _ _ _ h => h) rfl
@[simp ↓] theorem State.nv_mboxWords (p : Port) (k : Nat) (ws : List Word) : (s.mboxWords p k ws).nv = s.nv :=
  State.keep_mboxWords (P := fun t => t.nv = s.nv) s p k ws (fun _ _ _ h => h) rfl
@[simp ↓] theorem State.flm_mboxWords (p : Port) (k : Nat) (ws : List Word) : (s.mboxWords p k ws).flm = s.flm :=
  State.keep_mboxWords (P := fun t => t.flm = s.flm) s p k ws (fun _ _ _ h => h) rfl
@[simp ↓] theorem State.sec_mboxWords (p : Port) (k : Nat) (ws : List Word) : (s.mboxWords p k ws).sec = s.sec :=
  State.keep_mboxWords (P := fun t => t.sec = s.sec) s p k ws (fun _ _ _ h => h) rfl
@[simp ↓] theorem State.man_mboxWords (p : Port) (k : Nat) (ws : List Word) : (s.mboxWords p k ws).man = s.man :=
  State.keep_mboxWords (P := fun t => t.man = s.man) s p k ws (fun _ _ _ h => h) rfl
@[simp ↓] theorem State.xlk_mboxWords (p : Port) (k : Nat) (ws : List Word) : (s.mboxWords p k ws).xlk = s.xlk :=
  State.keep_mboxWords (P := fun t => t.xlk = s.xlk) s p k ws (fun _ _ _ h => h) rfl
@[simp ↓] theorem State.eng_mboxWords (p : Port) (k : Nat) (ws : List Word) : (s.mboxWords p k ws).eng = s.eng :=
  State.keep_mboxWords (P := fun t => t.eng = s.eng) s p k ws (fun _ _ _ h => h) rfl
@[simp ↓] theorem State.lnd_mboxWords (p : Port) (k : Nat) (ws : List Word) : (s.mboxWords p k ws).lnd = s.lnd :=
  State.keep_mboxWords (P := fun t => t.lnd = s.lnd) s p k ws (fun _ _ _ h => h) rfl
@[simp ↓] theorem State.sel_mboxWords (p : Port) (k : Nat) (ws : List Word) : (s.mboxWords p k ws).sel = s.sel :=
  State.keep_mboxWords (P := fun t => t.sel = s.sel) s p k ws (fun _ _ _ h => h) rfl
@[simp ↓] theorem State.ent_mboxWords (p : Port) (k : Nat) (ws : List Word) : (s.mboxWords p k ws).ent = s.ent :=
  State.keep_mboxWords (P := fun t => t.ent = s.ent) s p k ws (fun _ _ _ h => h) rfl
@[simp ↓] theorem State.loop_mboxWords (p : Port) (k : Nat) (ws : List Word) : (s.mboxWords p k ws).loop = s.loop :=
  State.keep_mboxWords (P := fun t => t.loop = s.loop) s p k ws (fun _ _ _ h => h) rfl
@[simp ↓] theorem State.ho_mboxWords (p : Port) (k : Nat) (ws : List Word) : (s.mboxWords p k ws).ho = s.ho :=
  State.keep_mboxWords (P := fun t => t.ho = s.ho) s p k ws (fun _ _ _ h => h) rfl
@[simp ↓] theorem State.apl_mboxWords (p : Port) (k : Nat) (ws : List Word) : (s.mboxWords p k ws).apl = s.apl :=
  State.keep_mboxWords (P := fun t => t.apl = s.apl) s p k ws (fun _ _ _ h => h) rfl
@[simp ↓] theorem State.out_mboxWords (p : Port) (k : Nat) (ws : List Word) : (s.mboxWords p k ws).out = s.out :=
  State.keep_mboxWords (P := fun t => t.out = s.out) s p k ws (fun _ _ _ h => h) rfl
@[simp ↓] theorem State.tsc_mboxWords (p : Port) (k : Nat) (ws : List Word) : (s.mboxWords p k ws).tsc = s.tsc :=
  State.keep_mboxWords (P := fun t => t.tsc = s.tsc) s p k ws (fun _ _ _ h => h) rfl
@[simp ↓] theorem State.tod_mboxWords (p : Port) (k : Nat) (ws : List Word) : (s.mboxWords p k ws).tod = s.tod :=
  State.keep_mboxWords (P := fun t => t.tod = s.tod) s p k ws (fun _ _ _ h => h) rfl
@[simp ↓] theorem State.tasks_mboxWords (p : Port) (k : Nat) (ws : List Word) : (s.mboxWords p k ws).tasks = s.tasks :=
  State.keep_mboxWords (P := fun t => t.tasks = s.tasks) s p k ws (fun _ _ _ h => h) rfl
@[simp ↓] theorem State.prt_mboxWords (p : Port) (k : Nat) (ws : List Word) : (s.mboxWords p k ws).prt = s.prt :=
  State.keep_mboxWords (P := fun t => t.prt = s.prt) s p k ws (fun _ _ _ h => h) rfl
@[simp ↓] theorem State.pte_mboxWords (p : Port) (k : Nat) (ws : List Word) : (s.mboxWords p k ws).pte = s.pte :=
  State.keep_mboxWords (P := fun t => t.pte = s.pte) s p k ws (fun _ _ _ h => h) rfl
@[simp ↓] theorem State.berth_mboxWords (p : Port) (k : Nat) (ws : List Word) : (s.mboxWords p k ws).berth = s.berth :=
  State.keep_mboxWords (P := fun t => t.berth = s.berth) s p k ws (fun _ _ _ h => h) rfl
@[simp ↓] theorem State.gens_mboxWords (p : Port) (k : Nat) (ws : List Word) : (s.mboxWords p k ws).gens = s.gens :=
  State.keep_mboxWords (P := fun t => t.gens = s.gens) s p k ws (fun _ _ _ h => h) rfl

theorem State.keep_mboxOut {P : State → Prop} (p : Port) (ws : List Word) (hr : ∀ t k v, P t → P (t.setw k v))
    (hi : ∀ t i, P t → P { t with intr := i })
    (h : P s) : P (s.mboxOut p ws) := by
  exact State.keep_ev _ _ hr hi (hr _ _ _ (State.keep_mboxWords _ _ _ _ hr (State.keep_evIf _ _ _ hr hi h)))

@[simp ↓] theorem State.pending_mboxOut (p : Port) (ws : List Word) : (s.mboxOut p ws).pending = s.pending :=
  State.keep_mboxOut (P := fun t => t.pending = s.pending) s p ws (fun _ _ _ h => h) (fun _ _ h => h) rfl
@[simp ↓] theorem State.now_mboxOut (p : Port) (ws : List Word) : (s.mboxOut p ws).now = s.now :=
  State.keep_mboxOut (P := fun t => t.now = s.now) s p ws (fun _ _ _ h => h) (fun _ _ h => h) rfl
@[simp ↓] theorem State.freeCount_mboxOut (p : Port) (ws : List Word) : (s.mboxOut p ws).freeCount = s.freeCount :=
  State.keep_mboxOut (P := fun t => t.freeCount = s.freeCount) s p ws (fun _ _ _ h => h) (fun _ _ h => h) rfl
@[simp ↓] theorem State.mem_mboxOut (p : Port) (ws : List Word) : (s.mboxOut p ws).mem = s.mem :=
  State.keep_mboxOut (P := fun t => t.mem = s.mem) s p ws (fun _ _ _ h => h) (fun _ _ h => h) rfl
@[simp ↓] theorem State.ecc_mboxOut (p : Port) (ws : List Word) : (s.mboxOut p ws).ecc = s.ecc :=
  State.keep_mboxOut (P := fun t => t.ecc = s.ecc) s p ws (fun _ _ _ h => h) (fun _ _ h => h) rfl
@[simp ↓] theorem State.scrub_mboxOut (p : Port) (ws : List Word) : (s.mboxOut p ws).scrub = s.scrub :=
  State.keep_mboxOut (P := fun t => t.scrub = s.scrub) s p ws (fun _ _ _ h => h) (fun _ _ h => h) rfl
@[simp ↓] theorem State.flash_mboxOut (p : Port) (ws : List Word) : (s.mboxOut p ws).flash = s.flash :=
  State.keep_mboxOut (P := fun t => t.flash = s.flash) s p ws (fun _ _ _ h => h) (fun _ _ h => h) rfl
@[simp ↓] theorem State.slices_mboxOut (p : Port) (ws : List Word) : (s.mboxOut p ws).slices = s.slices :=
  State.keep_mboxOut (P := fun t => t.slices = s.slices) s p ws (fun _ _ _ h => h) (fun _ _ h => h) rfl
@[simp ↓] theorem State.top_mboxOut (p : Port) (ws : List Word) : (s.mboxOut p ws).top = s.top :=
  State.keep_mboxOut (P := fun t => t.top = s.top) s p ws (fun _ _ _ h => h) (fun _ _ h => h) rfl
@[simp ↓] theorem State.pwr_mboxOut (p : Port) (ws : List Word) : (s.mboxOut p ws).pwr = s.pwr :=
  State.keep_mboxOut (P := fun t => t.pwr = s.pwr) s p ws (fun _ _ _ h => h) (fun _ _ h => h) rfl
@[simp ↓] theorem State.fab_mboxOut (p : Port) (ws : List Word) : (s.mboxOut p ws).fab = s.fab :=
  State.keep_mboxOut (P := fun t => t.fab = s.fab) s p ws (fun _ _ _ h => h) (fun _ _ h => h) rfl
@[simp ↓] theorem State.flt_mboxOut (p : Port) (ws : List Word) : (s.mboxOut p ws).flt = s.flt :=
  State.keep_mboxOut (P := fun t => t.flt = s.flt) s p ws (fun _ _ _ h => h) (fun _ _ h => h) rfl
@[simp ↓] theorem State.cfg_mboxOut (p : Port) (ws : List Word) : (s.mboxOut p ws).cfg = s.cfg :=
  State.keep_mboxOut (P := fun t => t.cfg = s.cfg) s p ws (fun _ _ _ h => h) (fun _ _ h => h) rfl
@[simp ↓] theorem State.hostA_mboxOut (p : Port) (ws : List Word) : (s.mboxOut p ws).hostA = s.hostA :=
  State.keep_mboxOut (P := fun t => t.hostA = s.hostA) s p ws (fun _ _ _ h => h) (fun _ _ h => h) rfl
@[simp ↓] theorem State.hostB_mboxOut (p : Port) (ws : List Word) : (s.mboxOut p ws).hostB = s.hostB :=
  State.keep_mboxOut (P := fun t => t.hostB = s.hostB) s p ws (fun _ _ _ h => h) (fun _ _ h => h) rfl
@[simp ↓] theorem State.nv_mboxOut (p : Port) (ws : List Word) : (s.mboxOut p ws).nv = s.nv :=
  State.keep_mboxOut (P := fun t => t.nv = s.nv) s p ws (fun _ _ _ h => h) (fun _ _ h => h) rfl
@[simp ↓] theorem State.flm_mboxOut (p : Port) (ws : List Word) : (s.mboxOut p ws).flm = s.flm :=
  State.keep_mboxOut (P := fun t => t.flm = s.flm) s p ws (fun _ _ _ h => h) (fun _ _ h => h) rfl
@[simp ↓] theorem State.sec_mboxOut (p : Port) (ws : List Word) : (s.mboxOut p ws).sec = s.sec :=
  State.keep_mboxOut (P := fun t => t.sec = s.sec) s p ws (fun _ _ _ h => h) (fun _ _ h => h) rfl
@[simp ↓] theorem State.man_mboxOut (p : Port) (ws : List Word) : (s.mboxOut p ws).man = s.man :=
  State.keep_mboxOut (P := fun t => t.man = s.man) s p ws (fun _ _ _ h => h) (fun _ _ h => h) rfl
@[simp ↓] theorem State.xlk_mboxOut (p : Port) (ws : List Word) : (s.mboxOut p ws).xlk = s.xlk :=
  State.keep_mboxOut (P := fun t => t.xlk = s.xlk) s p ws (fun _ _ _ h => h) (fun _ _ h => h) rfl
@[simp ↓] theorem State.eng_mboxOut (p : Port) (ws : List Word) : (s.mboxOut p ws).eng = s.eng :=
  State.keep_mboxOut (P := fun t => t.eng = s.eng) s p ws (fun _ _ _ h => h) (fun _ _ h => h) rfl
@[simp ↓] theorem State.lnd_mboxOut (p : Port) (ws : List Word) : (s.mboxOut p ws).lnd = s.lnd :=
  State.keep_mboxOut (P := fun t => t.lnd = s.lnd) s p ws (fun _ _ _ h => h) (fun _ _ h => h) rfl
@[simp ↓] theorem State.sel_mboxOut (p : Port) (ws : List Word) : (s.mboxOut p ws).sel = s.sel :=
  State.keep_mboxOut (P := fun t => t.sel = s.sel) s p ws (fun _ _ _ h => h) (fun _ _ h => h) rfl
@[simp ↓] theorem State.ent_mboxOut (p : Port) (ws : List Word) : (s.mboxOut p ws).ent = s.ent :=
  State.keep_mboxOut (P := fun t => t.ent = s.ent) s p ws (fun _ _ _ h => h) (fun _ _ h => h) rfl
@[simp ↓] theorem State.loop_mboxOut (p : Port) (ws : List Word) : (s.mboxOut p ws).loop = s.loop :=
  State.keep_mboxOut (P := fun t => t.loop = s.loop) s p ws (fun _ _ _ h => h) (fun _ _ h => h) rfl
@[simp ↓] theorem State.ho_mboxOut (p : Port) (ws : List Word) : (s.mboxOut p ws).ho = s.ho :=
  State.keep_mboxOut (P := fun t => t.ho = s.ho) s p ws (fun _ _ _ h => h) (fun _ _ h => h) rfl
@[simp ↓] theorem State.apl_mboxOut (p : Port) (ws : List Word) : (s.mboxOut p ws).apl = s.apl :=
  State.keep_mboxOut (P := fun t => t.apl = s.apl) s p ws (fun _ _ _ h => h) (fun _ _ h => h) rfl
@[simp ↓] theorem State.out_mboxOut (p : Port) (ws : List Word) : (s.mboxOut p ws).out = s.out :=
  State.keep_mboxOut (P := fun t => t.out = s.out) s p ws (fun _ _ _ h => h) (fun _ _ h => h) rfl
@[simp ↓] theorem State.tsc_mboxOut (p : Port) (ws : List Word) : (s.mboxOut p ws).tsc = s.tsc :=
  State.keep_mboxOut (P := fun t => t.tsc = s.tsc) s p ws (fun _ _ _ h => h) (fun _ _ h => h) rfl
@[simp ↓] theorem State.tod_mboxOut (p : Port) (ws : List Word) : (s.mboxOut p ws).tod = s.tod :=
  State.keep_mboxOut (P := fun t => t.tod = s.tod) s p ws (fun _ _ _ h => h) (fun _ _ h => h) rfl
@[simp ↓] theorem State.tasks_mboxOut (p : Port) (ws : List Word) : (s.mboxOut p ws).tasks = s.tasks :=
  State.keep_mboxOut (P := fun t => t.tasks = s.tasks) s p ws (fun _ _ _ h => h) (fun _ _ h => h) rfl
@[simp ↓] theorem State.prt_mboxOut (p : Port) (ws : List Word) : (s.mboxOut p ws).prt = s.prt :=
  State.keep_mboxOut (P := fun t => t.prt = s.prt) s p ws (fun _ _ _ h => h) (fun _ _ h => h) rfl
@[simp ↓] theorem State.pte_mboxOut (p : Port) (ws : List Word) : (s.mboxOut p ws).pte = s.pte :=
  State.keep_mboxOut (P := fun t => t.pte = s.pte) s p ws (fun _ _ _ h => h) (fun _ _ h => h) rfl
@[simp ↓] theorem State.berth_mboxOut (p : Port) (ws : List Word) : (s.mboxOut p ws).berth = s.berth :=
  State.keep_mboxOut (P := fun t => t.berth = s.berth) s p ws (fun _ _ _ h => h) (fun _ _ h => h) rfl
@[simp ↓] theorem State.gens_mboxOut (p : Port) (ws : List Word) : (s.mboxOut p ws).gens = s.gens :=
  State.keep_mboxOut (P := fun t => t.gens = s.gens) s p ws (fun _ _ _ h => h) (fun _ _ h => h) rfl

theorem State.keep_busErr {P : State → Prop} (p : Port) (write space : Bool) (off : Nat) (c : Code) (hr : ∀ t k v, P t → P (t.setw k v))
    (hi : ∀ t i, P t → P { t with intr := i })
    (hh : ∀ t p g, P t → P (t.modHost p g))
    (h : P s) : P (s.busErr p write space off c) := by
  unfold State.busErr; dsimp only
  refine hh _ _ _ (State.keep_ev _ _ hr hi (hr _ _ _ ?_))
  split
  · exact h
  · exact hr _ _ _ (hr _ _ _ (hr _ _ _ (hr _ _ _ (hr _ _ _ h))))

@[simp ↓] theorem State.pending_busErr (p : Port) (write space : Bool) (off : Nat) (c : Code) : (s.busErr p write space off c).pending = s.pending :=
  State.keep_busErr (P := fun t => t.pending = s.pending) s p write space off c (fun _ _ _ h => h) (fun _ _ h => h) (fun _ p _ h => (State.pending_modHost _ p _).trans h) rfl
@[simp ↓] theorem State.now_busErr (p : Port) (write space : Bool) (off : Nat) (c : Code) : (s.busErr p write space off c).now = s.now :=
  State.keep_busErr (P := fun t => t.now = s.now) s p write space off c (fun _ _ _ h => h) (fun _ _ h => h) (fun _ p _ h => (State.now_modHost _ p _).trans h) rfl
@[simp ↓] theorem State.freeCount_busErr (p : Port) (write space : Bool) (off : Nat) (c : Code) : (s.busErr p write space off c).freeCount = s.freeCount :=
  State.keep_busErr (P := fun t => t.freeCount = s.freeCount) s p write space off c (fun _ _ _ h => h) (fun _ _ h => h) (fun _ p _ h => (State.freeCount_modHost _ p _).trans h) rfl
@[simp ↓] theorem State.mem_busErr (p : Port) (write space : Bool) (off : Nat) (c : Code) : (s.busErr p write space off c).mem = s.mem :=
  State.keep_busErr (P := fun t => t.mem = s.mem) s p write space off c (fun _ _ _ h => h) (fun _ _ h => h) (fun _ p _ h => (State.mem_modHost _ p _).trans h) rfl
@[simp ↓] theorem State.ecc_busErr (p : Port) (write space : Bool) (off : Nat) (c : Code) : (s.busErr p write space off c).ecc = s.ecc :=
  State.keep_busErr (P := fun t => t.ecc = s.ecc) s p write space off c (fun _ _ _ h => h) (fun _ _ h => h) (fun _ p _ h => (State.ecc_modHost _ p _).trans h) rfl
@[simp ↓] theorem State.scrub_busErr (p : Port) (write space : Bool) (off : Nat) (c : Code) : (s.busErr p write space off c).scrub = s.scrub :=
  State.keep_busErr (P := fun t => t.scrub = s.scrub) s p write space off c (fun _ _ _ h => h) (fun _ _ h => h) (fun _ p _ h => (State.scrub_modHost _ p _).trans h) rfl
@[simp ↓] theorem State.flash_busErr (p : Port) (write space : Bool) (off : Nat) (c : Code) : (s.busErr p write space off c).flash = s.flash :=
  State.keep_busErr (P := fun t => t.flash = s.flash) s p write space off c (fun _ _ _ h => h) (fun _ _ h => h) (fun _ p _ h => (State.flash_modHost _ p _).trans h) rfl
@[simp ↓] theorem State.slices_busErr (p : Port) (write space : Bool) (off : Nat) (c : Code) : (s.busErr p write space off c).slices = s.slices :=
  State.keep_busErr (P := fun t => t.slices = s.slices) s p write space off c (fun _ _ _ h => h) (fun _ _ h => h) (fun _ p _ h => (State.slices_modHost _ p _).trans h) rfl
@[simp ↓] theorem State.top_busErr (p : Port) (write space : Bool) (off : Nat) (c : Code) : (s.busErr p write space off c).top = s.top :=
  State.keep_busErr (P := fun t => t.top = s.top) s p write space off c (fun _ _ _ h => h) (fun _ _ h => h) (fun _ p _ h => (State.top_modHost _ p _).trans h) rfl
@[simp ↓] theorem State.pwr_busErr (p : Port) (write space : Bool) (off : Nat) (c : Code) : (s.busErr p write space off c).pwr = s.pwr :=
  State.keep_busErr (P := fun t => t.pwr = s.pwr) s p write space off c (fun _ _ _ h => h) (fun _ _ h => h) (fun _ p _ h => (State.pwr_modHost _ p _).trans h) rfl
@[simp ↓] theorem State.fab_busErr (p : Port) (write space : Bool) (off : Nat) (c : Code) : (s.busErr p write space off c).fab = s.fab :=
  State.keep_busErr (P := fun t => t.fab = s.fab) s p write space off c (fun _ _ _ h => h) (fun _ _ h => h) (fun _ p _ h => (State.fab_modHost _ p _).trans h) rfl
@[simp ↓] theorem State.flt_busErr (p : Port) (write space : Bool) (off : Nat) (c : Code) : (s.busErr p write space off c).flt = s.flt :=
  State.keep_busErr (P := fun t => t.flt = s.flt) s p write space off c (fun _ _ _ h => h) (fun _ _ h => h) (fun _ p _ h => (State.flt_modHost _ p _).trans h) rfl
@[simp ↓] theorem State.cfg_busErr (p : Port) (write space : Bool) (off : Nat) (c : Code) : (s.busErr p write space off c).cfg = s.cfg :=
  State.keep_busErr (P := fun t => t.cfg = s.cfg) s p write space off c (fun _ _ _ h => h) (fun _ _ h => h) (fun _ p _ h => (State.cfg_modHost _ p _).trans h) rfl
@[simp ↓] theorem State.nv_busErr (p : Port) (write space : Bool) (off : Nat) (c : Code) : (s.busErr p write space off c).nv = s.nv :=
  State.keep_busErr (P := fun t => t.nv = s.nv) s p write space off c (fun _ _ _ h => h) (fun _ _ h => h) (fun _ p _ h => (State.nv_modHost _ p _).trans h) rfl
@[simp ↓] theorem State.flm_busErr (p : Port) (write space : Bool) (off : Nat) (c : Code) : (s.busErr p write space off c).flm = s.flm :=
  State.keep_busErr (P := fun t => t.flm = s.flm) s p write space off c (fun _ _ _ h => h) (fun _ _ h => h) (fun _ p _ h => (State.flm_modHost _ p _).trans h) rfl
@[simp ↓] theorem State.sec_busErr (p : Port) (write space : Bool) (off : Nat) (c : Code) : (s.busErr p write space off c).sec = s.sec :=
  State.keep_busErr (P := fun t => t.sec = s.sec) s p write space off c (fun _ _ _ h => h) (fun _ _ h => h) (fun _ p _ h => (State.sec_modHost _ p _).trans h) rfl
@[simp ↓] theorem State.man_busErr (p : Port) (write space : Bool) (off : Nat) (c : Code) : (s.busErr p write space off c).man = s.man :=
  State.keep_busErr (P := fun t => t.man = s.man) s p write space off c (fun _ _ _ h => h) (fun _ _ h => h) (fun _ p _ h => (State.man_modHost _ p _).trans h) rfl
@[simp ↓] theorem State.xlk_busErr (p : Port) (write space : Bool) (off : Nat) (c : Code) : (s.busErr p write space off c).xlk = s.xlk :=
  State.keep_busErr (P := fun t => t.xlk = s.xlk) s p write space off c (fun _ _ _ h => h) (fun _ _ h => h) (fun _ p _ h => (State.xlk_modHost _ p _).trans h) rfl
@[simp ↓] theorem State.eng_busErr (p : Port) (write space : Bool) (off : Nat) (c : Code) : (s.busErr p write space off c).eng = s.eng :=
  State.keep_busErr (P := fun t => t.eng = s.eng) s p write space off c (fun _ _ _ h => h) (fun _ _ h => h) (fun _ p _ h => (State.eng_modHost _ p _).trans h) rfl
@[simp ↓] theorem State.lnd_busErr (p : Port) (write space : Bool) (off : Nat) (c : Code) : (s.busErr p write space off c).lnd = s.lnd :=
  State.keep_busErr (P := fun t => t.lnd = s.lnd) s p write space off c (fun _ _ _ h => h) (fun _ _ h => h) (fun _ p _ h => (State.lnd_modHost _ p _).trans h) rfl
@[simp ↓] theorem State.sel_busErr (p : Port) (write space : Bool) (off : Nat) (c : Code) : (s.busErr p write space off c).sel = s.sel :=
  State.keep_busErr (P := fun t => t.sel = s.sel) s p write space off c (fun _ _ _ h => h) (fun _ _ h => h) (fun _ p _ h => (State.sel_modHost _ p _).trans h) rfl
@[simp ↓] theorem State.ent_busErr (p : Port) (write space : Bool) (off : Nat) (c : Code) : (s.busErr p write space off c).ent = s.ent :=
  State.keep_busErr (P := fun t => t.ent = s.ent) s p write space off c (fun _ _ _ h => h) (fun _ _ h => h) (fun _ p _ h => (State.ent_modHost _ p _).trans h) rfl
@[simp ↓] theorem State.loop_busErr (p : Port) (write space : Bool) (off : Nat) (c : Code) : (s.busErr p write space off c).loop = s.loop :=
  State.keep_busErr (P := fun t => t.loop = s.loop) s p write space off c (fun _ _ _ h => h) (fun _ _ h => h) (fun _ p _ h => (State.loop_modHost _ p _).trans h) rfl
@[simp ↓] theorem State.ho_busErr (p : Port) (write space : Bool) (off : Nat) (c : Code) : (s.busErr p write space off c).ho = s.ho :=
  State.keep_busErr (P := fun t => t.ho = s.ho) s p write space off c (fun _ _ _ h => h) (fun _ _ h => h) (fun _ p _ h => (State.ho_modHost _ p _).trans h) rfl
@[simp ↓] theorem State.apl_busErr (p : Port) (write space : Bool) (off : Nat) (c : Code) : (s.busErr p write space off c).apl = s.apl :=
  State.keep_busErr (P := fun t => t.apl = s.apl) s p write space off c (fun _ _ _ h => h) (fun _ _ h => h) (fun _ p _ h => (State.apl_modHost _ p _).trans h) rfl
@[simp ↓] theorem State.out_busErr (p : Port) (write space : Bool) (off : Nat) (c : Code) : (s.busErr p write space off c).out = s.out :=
  State.keep_busErr (P := fun t => t.out = s.out) s p write space off c (fun _ _ _ h => h) (fun _ _ h => h) (fun _ p _ h => (State.out_modHost _ p _).trans h) rfl
@[simp ↓] theorem State.tsc_busErr (p : Port) (write space : Bool) (off : Nat) (c : Code) : (s.busErr p write space off c).tsc = s.tsc :=
  State.keep_busErr (P := fun t => t.tsc = s.tsc) s p write space off c (fun _ _ _ h => h) (fun _ _ h => h) (fun _ p _ h => (State.tsc_modHost _ p _).trans h) rfl
@[simp ↓] theorem State.tod_busErr (p : Port) (write space : Bool) (off : Nat) (c : Code) : (s.busErr p write space off c).tod = s.tod :=
  State.keep_busErr (P := fun t => t.tod = s.tod) s p write space off c (fun _ _ _ h => h) (fun _ _ h => h) (fun _ p _ h => (State.tod_modHost _ p _).trans h) rfl
@[simp ↓] theorem State.tasks_busErr (p : Port) (write space : Bool) (off : Nat) (c : Code) : (s.busErr p write space off c).tasks = s.tasks :=
  State.keep_busErr (P := fun t => t.tasks = s.tasks) s p write space off c (fun _ _ _ h => h) (fun _ _ h => h) (fun _ p _ h => (State.tasks_modHost _ p _).trans h) rfl
@[simp ↓] theorem State.prt_busErr (p : Port) (write space : Bool) (off : Nat) (c : Code) : (s.busErr p write space off c).prt = s.prt :=
  State.keep_busErr (P := fun t => t.prt = s.prt) s p write space off c (fun _ _ _ h => h) (fun _ _ h => h) (fun _ p _ h => (State.prt_modHost _ p _).trans h) rfl
@[simp ↓] theorem State.pte_busErr (p : Port) (write space : Bool) (off : Nat) (c : Code) : (s.busErr p write space off c).pte = s.pte :=
  State.keep_busErr (P := fun t => t.pte = s.pte) s p write space off c (fun _ _ _ h => h) (fun _ _ h => h) (fun _ p _ h => (State.pte_modHost _ p _).trans h) rfl
@[simp ↓] theorem State.berth_busErr (p : Port) (write space : Bool) (off : Nat) (c : Code) : (s.busErr p write space off c).berth = s.berth :=
  State.keep_busErr (P := fun t => t.berth = s.berth) s p write space off c (fun _ _ _ h => h) (fun _ _ h => h) (fun _ p _ h => (State.berth_modHost _ p _).trans h) rfl
@[simp ↓] theorem State.gens_busErr (p : Port) (write space : Bool) (off : Nat) (c : Code) : (s.busErr p write space off c).gens = s.gens :=
  State.keep_busErr (P := fun t => t.gens = s.gens) s p write space off c (fun _ _ _ h => h) (fun _ _ h => h) (fun _ p _ h => (State.gens_modHost _ p _).trans h) rfl

theorem State.keep_dirty {P : State → Prop} (hc : ∀ t c, P t → P { t with cfg := c })
    (hr : ∀ t k v, P t → P (t.setw k v))
    (h : P s) : P (s.dirty) := by
  unfold State.dirty; split
  · exact h
  · exact hr _ _ _ (hr _ _ _ (hc _ _ h))

@[simp ↓] theorem State.pending_dirty : (s.dirty).pending = s.pending :=
  State.keep_dirty (P := fun t => t.pending = s.pending) s (fun _ _ h => h) (fun _ _ _ h => h) rfl
@[simp ↓] theorem State.now_dirty : (s.dirty).now = s.now :=
  State.keep_dirty (P := fun t => t.now = s.now) s (fun _ _ h => h) (fun _ _ _ h => h) rfl
@[simp ↓] theorem State.freeCount_dirty : (s.dirty).freeCount = s.freeCount :=
  State.keep_dirty (P := fun t => t.freeCount = s.freeCount) s (fun _ _ h => h) (fun _ _ _ h => h) rfl
@[simp ↓] theorem State.mem_dirty : (s.dirty).mem = s.mem :=
  State.keep_dirty (P := fun t => t.mem = s.mem) s (fun _ _ h => h) (fun _ _ _ h => h) rfl
@[simp ↓] theorem State.ecc_dirty : (s.dirty).ecc = s.ecc :=
  State.keep_dirty (P := fun t => t.ecc = s.ecc) s (fun _ _ h => h) (fun _ _ _ h => h) rfl
@[simp ↓] theorem State.scrub_dirty : (s.dirty).scrub = s.scrub :=
  State.keep_dirty (P := fun t => t.scrub = s.scrub) s (fun _ _ h => h) (fun _ _ _ h => h) rfl
@[simp ↓] theorem State.flash_dirty : (s.dirty).flash = s.flash :=
  State.keep_dirty (P := fun t => t.flash = s.flash) s (fun _ _ h => h) (fun _ _ _ h => h) rfl
@[simp ↓] theorem State.slices_dirty : (s.dirty).slices = s.slices :=
  State.keep_dirty (P := fun t => t.slices = s.slices) s (fun _ _ h => h) (fun _ _ _ h => h) rfl
@[simp ↓] theorem State.top_dirty : (s.dirty).top = s.top :=
  State.keep_dirty (P := fun t => t.top = s.top) s (fun _ _ h => h) (fun _ _ _ h => h) rfl
@[simp ↓] theorem State.pwr_dirty : (s.dirty).pwr = s.pwr :=
  State.keep_dirty (P := fun t => t.pwr = s.pwr) s (fun _ _ h => h) (fun _ _ _ h => h) rfl
@[simp ↓] theorem State.fab_dirty : (s.dirty).fab = s.fab :=
  State.keep_dirty (P := fun t => t.fab = s.fab) s (fun _ _ h => h) (fun _ _ _ h => h) rfl
@[simp ↓] theorem State.flt_dirty : (s.dirty).flt = s.flt :=
  State.keep_dirty (P := fun t => t.flt = s.flt) s (fun _ _ h => h) (fun _ _ _ h => h) rfl
@[simp ↓] theorem State.intr_dirty : (s.dirty).intr = s.intr :=
  State.keep_dirty (P := fun t => t.intr = s.intr) s (fun _ _ h => h) (fun _ _ _ h => h) rfl
@[simp ↓] theorem State.hostA_dirty : (s.dirty).hostA = s.hostA :=
  State.keep_dirty (P := fun t => t.hostA = s.hostA) s (fun _ _ h => h) (fun _ _ _ h => h) rfl
@[simp ↓] theorem State.hostB_dirty : (s.dirty).hostB = s.hostB :=
  State.keep_dirty (P := fun t => t.hostB = s.hostB) s (fun _ _ h => h) (fun _ _ _ h => h) rfl
@[simp ↓] theorem State.nv_dirty : (s.dirty).nv = s.nv :=
  State.keep_dirty (P := fun t => t.nv = s.nv) s (fun _ _ h => h) (fun _ _ _ h => h) rfl
@[simp ↓] theorem State.flm_dirty : (s.dirty).flm = s.flm :=
  State.keep_dirty (P := fun t => t.flm = s.flm) s (fun _ _ h => h) (fun _ _ _ h => h) rfl
@[simp ↓] theorem State.sec_dirty : (s.dirty).sec = s.sec :=
  State.keep_dirty (P := fun t => t.sec = s.sec) s (fun _ _ h => h) (fun _ _ _ h => h) rfl
@[simp ↓] theorem State.man_dirty : (s.dirty).man = s.man :=
  State.keep_dirty (P := fun t => t.man = s.man) s (fun _ _ h => h) (fun _ _ _ h => h) rfl
@[simp ↓] theorem State.xlk_dirty : (s.dirty).xlk = s.xlk :=
  State.keep_dirty (P := fun t => t.xlk = s.xlk) s (fun _ _ h => h) (fun _ _ _ h => h) rfl
@[simp ↓] theorem State.eng_dirty : (s.dirty).eng = s.eng :=
  State.keep_dirty (P := fun t => t.eng = s.eng) s (fun _ _ h => h) (fun _ _ _ h => h) rfl
@[simp ↓] theorem State.lnd_dirty : (s.dirty).lnd = s.lnd :=
  State.keep_dirty (P := fun t => t.lnd = s.lnd) s (fun _ _ h => h) (fun _ _ _ h => h) rfl
@[simp ↓] theorem State.sel_dirty : (s.dirty).sel = s.sel :=
  State.keep_dirty (P := fun t => t.sel = s.sel) s (fun _ _ h => h) (fun _ _ _ h => h) rfl
@[simp ↓] theorem State.ent_dirty : (s.dirty).ent = s.ent :=
  State.keep_dirty (P := fun t => t.ent = s.ent) s (fun _ _ h => h) (fun _ _ _ h => h) rfl
@[simp ↓] theorem State.loop_dirty : (s.dirty).loop = s.loop :=
  State.keep_dirty (P := fun t => t.loop = s.loop) s (fun _ _ h => h) (fun _ _ _ h => h) rfl
@[simp ↓] theorem State.ho_dirty : (s.dirty).ho = s.ho :=
  State.keep_dirty (P := fun t => t.ho = s.ho) s (fun _ _ h => h) (fun _ _ _ h => h) rfl
@[simp ↓] theorem State.apl_dirty : (s.dirty).apl = s.apl :=
  State.keep_dirty (P := fun t => t.apl = s.apl) s (fun _ _ h => h) (fun _ _ _ h => h) rfl
@[simp ↓] theorem State.out_dirty : (s.dirty).out = s.out :=
  State.keep_dirty (P := fun t => t.out = s.out) s (fun _ _ h => h) (fun _ _ _ h => h) rfl
@[simp ↓] theorem State.tsc_dirty : (s.dirty).tsc = s.tsc :=
  State.keep_dirty (P := fun t => t.tsc = s.tsc) s (fun _ _ h => h) (fun _ _ _ h => h) rfl
@[simp ↓] theorem State.tod_dirty : (s.dirty).tod = s.tod :=
  State.keep_dirty (P := fun t => t.tod = s.tod) s (fun _ _ h => h) (fun _ _ _ h => h) rfl
@[simp ↓] theorem State.tasks_dirty : (s.dirty).tasks = s.tasks :=
  State.keep_dirty (P := fun t => t.tasks = s.tasks) s (fun _ _ h => h) (fun _ _ _ h => h) rfl
@[simp ↓] theorem State.prt_dirty : (s.dirty).prt = s.prt :=
  State.keep_dirty (P := fun t => t.prt = s.prt) s (fun _ _ h => h) (fun _ _ _ h => h) rfl
@[simp ↓] theorem State.pte_dirty : (s.dirty).pte = s.pte :=
  State.keep_dirty (P := fun t => t.pte = s.pte) s (fun _ _ h => h) (fun _ _ _ h => h) rfl
@[simp ↓] theorem State.berth_dirty : (s.dirty).berth = s.berth :=
  State.keep_dirty (P := fun t => t.berth = s.berth) s (fun _ _ h => h) (fun _ _ _ h => h) rfl
@[simp ↓] theorem State.gens_dirty : (s.dirty).gens = s.gens :=
  State.keep_dirty (P := fun t => t.gens = s.gens) s (fun _ _ h => h) (fun _ _ _ h => h) rfl

theorem State.keep_setChecked {P : State → Prop} (k v : Nat) (hc : ∀ t c, P t → P { t with cfg := c })
    (hr : ∀ t k v, P t → P (t.setw k v))
    (h : P s) : P (s.setChecked k v) := by
  unfold State.setChecked; split
  · exact h
  · exact State.keep_dirty _ hc hr (hr _ _ _ h)

@[simp ↓] theorem State.pending_setChecked (k v : Nat) : (s.setChecked k v).pending = s.pending :=
  State.keep_setChecked (P := fun t => t.pending = s.pending) s k v (fun _ _ h => h) (fun _ _ _ h => h) rfl
@[simp ↓] theorem State.now_setChecked (k v : Nat) : (s.setChecked k v).now = s.now :=
  State.keep_setChecked (P := fun t => t.now = s.now) s k v (fun _ _ h => h) (fun _ _ _ h => h) rfl
@[simp ↓] theorem State.freeCount_setChecked (k v : Nat) : (s.setChecked k v).freeCount = s.freeCount :=
  State.keep_setChecked (P := fun t => t.freeCount = s.freeCount) s k v (fun _ _ h => h) (fun _ _ _ h => h) rfl
@[simp ↓] theorem State.mem_setChecked (k v : Nat) : (s.setChecked k v).mem = s.mem :=
  State.keep_setChecked (P := fun t => t.mem = s.mem) s k v (fun _ _ h => h) (fun _ _ _ h => h) rfl
@[simp ↓] theorem State.ecc_setChecked (k v : Nat) : (s.setChecked k v).ecc = s.ecc :=
  State.keep_setChecked (P := fun t => t.ecc = s.ecc) s k v (fun _ _ h => h) (fun _ _ _ h => h) rfl
@[simp ↓] theorem State.scrub_setChecked (k v : Nat) : (s.setChecked k v).scrub = s.scrub :=
  State.keep_setChecked (P := fun t => t.scrub = s.scrub) s k v (fun _ _ h => h) (fun _ _ _ h => h) rfl
@[simp ↓] theorem State.flash_setChecked (k v : Nat) : (s.setChecked k v).flash = s.flash :=
  State.keep_setChecked (P := fun t => t.flash = s.flash) s k v (fun _ _ h => h) (fun _ _ _ h => h) rfl
@[simp ↓] theorem State.slices_setChecked (k v : Nat) : (s.setChecked k v).slices = s.slices :=
  State.keep_setChecked (P := fun t => t.slices = s.slices) s k v (fun _ _ h => h) (fun _ _ _ h => h) rfl
@[simp ↓] theorem State.top_setChecked (k v : Nat) : (s.setChecked k v).top = s.top :=
  State.keep_setChecked (P := fun t => t.top = s.top) s k v (fun _ _ h => h) (fun _ _ _ h => h) rfl
@[simp ↓] theorem State.pwr_setChecked (k v : Nat) : (s.setChecked k v).pwr = s.pwr :=
  State.keep_setChecked (P := fun t => t.pwr = s.pwr) s k v (fun _ _ h => h) (fun _ _ _ h => h) rfl
@[simp ↓] theorem State.fab_setChecked (k v : Nat) : (s.setChecked k v).fab = s.fab :=
  State.keep_setChecked (P := fun t => t.fab = s.fab) s k v (fun _ _ h => h) (fun _ _ _ h => h) rfl
@[simp ↓] theorem State.flt_setChecked (k v : Nat) : (s.setChecked k v).flt = s.flt :=
  State.keep_setChecked (P := fun t => t.flt = s.flt) s k v (fun _ _ h => h) (fun _ _ _ h => h) rfl
@[simp ↓] theorem State.intr_setChecked (k v : Nat) : (s.setChecked k v).intr = s.intr :=
  State.keep_setChecked (P := fun t => t.intr = s.intr) s k v (fun _ _ h => h) (fun _ _ _ h => h) rfl
@[simp ↓] theorem State.hostA_setChecked (k v : Nat) : (s.setChecked k v).hostA = s.hostA :=
  State.keep_setChecked (P := fun t => t.hostA = s.hostA) s k v (fun _ _ h => h) (fun _ _ _ h => h) rfl
@[simp ↓] theorem State.hostB_setChecked (k v : Nat) : (s.setChecked k v).hostB = s.hostB :=
  State.keep_setChecked (P := fun t => t.hostB = s.hostB) s k v (fun _ _ h => h) (fun _ _ _ h => h) rfl
@[simp ↓] theorem State.nv_setChecked (k v : Nat) : (s.setChecked k v).nv = s.nv :=
  State.keep_setChecked (P := fun t => t.nv = s.nv) s k v (fun _ _ h => h) (fun _ _ _ h => h) rfl
@[simp ↓] theorem State.flm_setChecked (k v : Nat) : (s.setChecked k v).flm = s.flm :=
  State.keep_setChecked (P := fun t => t.flm = s.flm) s k v (fun _ _ h => h) (fun _ _ _ h => h) rfl
@[simp ↓] theorem State.sec_setChecked (k v : Nat) : (s.setChecked k v).sec = s.sec :=
  State.keep_setChecked (P := fun t => t.sec = s.sec) s k v (fun _ _ h => h) (fun _ _ _ h => h) rfl
@[simp ↓] theorem State.man_setChecked (k v : Nat) : (s.setChecked k v).man = s.man :=
  State.keep_setChecked (P := fun t => t.man = s.man) s k v (fun _ _ h => h) (fun _ _ _ h => h) rfl
@[simp ↓] theorem State.xlk_setChecked (k v : Nat) : (s.setChecked k v).xlk = s.xlk :=
  State.keep_setChecked (P := fun t => t.xlk = s.xlk) s k v (fun _ _ h => h) (fun _ _ _ h => h) rfl
@[simp ↓] theorem State.eng_setChecked (k v : Nat) : (s.setChecked k v).eng = s.eng :=
  State.keep_setChecked (P := fun t => t.eng = s.eng) s k v (fun _ _ h => h) (fun _ _ _ h => h) rfl
@[simp ↓] theorem State.lnd_setChecked (k v : Nat) : (s.setChecked k v).lnd = s.lnd :=
  State.keep_setChecked (P := fun t => t.lnd = s.lnd) s k v (fun _ _ h => h) (fun _ _ _ h => h) rfl
@[simp ↓] theorem State.sel_setChecked (k v : Nat) : (s.setChecked k v).sel = s.sel :=
  State.keep_setChecked (P := fun t => t.sel = s.sel) s k v (fun _ _ h => h) (fun _ _ _ h => h) rfl
@[simp ↓] theorem State.ent_setChecked (k v : Nat) : (s.setChecked k v).ent = s.ent :=
  State.keep_setChecked (P := fun t => t.ent = s.ent) s k v (fun _ _ h => h) (fun _ _ _ h => h) rfl
@[simp ↓] theorem State.loop_setChecked (k v : Nat) : (s.setChecked k v).loop = s.loop :=
  State.keep_setChecked (P := fun t => t.loop = s.loop) s k v (fun _ _ h => h) (fun _ _ _ h => h) rfl
@[simp ↓] theorem State.ho_setChecked (k v : Nat) : (s.setChecked k v).ho = s.ho :=
  State.keep_setChecked (P := fun t => t.ho = s.ho) s k v (fun _ _ h => h) (fun _ _ _ h => h) rfl
@[simp ↓] theorem State.apl_setChecked (k v : Nat) : (s.setChecked k v).apl = s.apl :=
  State.keep_setChecked (P := fun t => t.apl = s.apl) s k v (fun _ _ h => h) (fun _ _ _ h => h) rfl
@[simp ↓] theorem State.out_setChecked (k v : Nat) : (s.setChecked k v).out = s.out :=
  State.keep_setChecked (P := fun t => t.out = s.out) s k v (fun _ _ h => h) (fun _ _ _ h => h) rfl
@[simp ↓] theorem State.tsc_setChecked (k v : Nat) : (s.setChecked k v).tsc = s.tsc :=
  State.keep_setChecked (P := fun t => t.tsc = s.tsc) s k v (fun _ _ h => h) (fun _ _ _ h => h) rfl
@[simp ↓] theorem State.tod_setChecked (k v : Nat) : (s.setChecked k v).tod = s.tod :=
  State.keep_setChecked (P := fun t => t.tod = s.tod) s k v (fun _ _ h => h) (fun _ _ _ h => h) rfl
@[simp ↓] theorem State.tasks_setChecked (k v : Nat) : (s.setChecked k v).tasks = s.tasks :=
  State.keep_setChecked (P := fun t => t.tasks = s.tasks) s k v (fun _ _ h => h) (fun _ _ _ h => h) rfl
@[simp ↓] theorem State.prt_setChecked (k v : Nat) : (s.setChecked k v).prt = s.prt :=
  State.keep_setChecked (P := fun t => t.prt = s.prt) s k v (fun _ _ h => h) (fun _ _ _ h => h) rfl
@[simp ↓] theorem State.pte_setChecked (k v : Nat) : (s.setChecked k v).pte = s.pte :=
  State.keep_setChecked (P := fun t => t.pte = s.pte) s k v (fun _ _ h => h) (fun _ _ _ h => h) rfl
@[simp ↓] theorem State.berth_setChecked (k v : Nat) : (s.setChecked k v).berth = s.berth :=
  State.keep_setChecked (P := fun t => t.berth = s.berth) s k v (fun _ _ h => h) (fun _ _ _ h => h) rfl
@[simp ↓] theorem State.gens_setChecked (k v : Nat) : (s.setChecked k v).gens = s.gens :=
  State.keep_setChecked (P := fun t => t.gens = s.gens) s k v (fun _ _ h => h) (fun _ _ _ h => h) rfl

theorem State.keep_latch {P : State → Prop} (key : Nat) (r : TaskRun) (ht : ∀ t k g, P t → P (t.modTasks k g))
    (hr : ∀ t k v, P t → P (t.setw k v))
    (hi : ∀ t i, P t → P { t with intr := i })
    (h : P s) : P (s.latch key r) := by
  unfold State.latch; split
  · exact ht _ _ _ h
  · exact hr _ _ _ (State.keep_ev _ _ hr hi (hr _ _ _ h))

@[simp ↓] theorem State.pending_latch (key : Nat) (r : TaskRun) : (s.latch key r).pending = s.pending :=
  State.keep_latch (P := fun t => t.pending = s.pending) s key r (fun _ _ _ h => h) (fun _ _ _ h => h) (fun _ _ h => h) rfl
@[simp ↓] theorem State.now_latch (key : Nat) (r : TaskRun) : (s.latch key r).now = s.now :=
  State.keep_latch (P := fun t => t.now = s.now) s key r (fun _ _ _ h => h) (fun _ _ _ h => h) (fun _ _ h => h) rfl
@[simp ↓] theorem State.freeCount_latch (key : Nat) (r : TaskRun) : (s.latch key r).freeCount = s.freeCount :=
  State.keep_latch (P := fun t => t.freeCount = s.freeCount) s key r (fun _ _ _ h => h) (fun _ _ _ h => h) (fun _ _ h => h) rfl
@[simp ↓] theorem State.mem_latch (key : Nat) (r : TaskRun) : (s.latch key r).mem = s.mem :=
  State.keep_latch (P := fun t => t.mem = s.mem) s key r (fun _ _ _ h => h) (fun _ _ _ h => h) (fun _ _ h => h) rfl
@[simp ↓] theorem State.ecc_latch (key : Nat) (r : TaskRun) : (s.latch key r).ecc = s.ecc :=
  State.keep_latch (P := fun t => t.ecc = s.ecc) s key r (fun _ _ _ h => h) (fun _ _ _ h => h) (fun _ _ h => h) rfl
@[simp ↓] theorem State.scrub_latch (key : Nat) (r : TaskRun) : (s.latch key r).scrub = s.scrub :=
  State.keep_latch (P := fun t => t.scrub = s.scrub) s key r (fun _ _ _ h => h) (fun _ _ _ h => h) (fun _ _ h => h) rfl
@[simp ↓] theorem State.flash_latch (key : Nat) (r : TaskRun) : (s.latch key r).flash = s.flash :=
  State.keep_latch (P := fun t => t.flash = s.flash) s key r (fun _ _ _ h => h) (fun _ _ _ h => h) (fun _ _ h => h) rfl
@[simp ↓] theorem State.slices_latch (key : Nat) (r : TaskRun) : (s.latch key r).slices = s.slices :=
  State.keep_latch (P := fun t => t.slices = s.slices) s key r (fun _ _ _ h => h) (fun _ _ _ h => h) (fun _ _ h => h) rfl
@[simp ↓] theorem State.top_latch (key : Nat) (r : TaskRun) : (s.latch key r).top = s.top :=
  State.keep_latch (P := fun t => t.top = s.top) s key r (fun _ _ _ h => h) (fun _ _ _ h => h) (fun _ _ h => h) rfl
@[simp ↓] theorem State.pwr_latch (key : Nat) (r : TaskRun) : (s.latch key r).pwr = s.pwr :=
  State.keep_latch (P := fun t => t.pwr = s.pwr) s key r (fun _ _ _ h => h) (fun _ _ _ h => h) (fun _ _ h => h) rfl
@[simp ↓] theorem State.fab_latch (key : Nat) (r : TaskRun) : (s.latch key r).fab = s.fab :=
  State.keep_latch (P := fun t => t.fab = s.fab) s key r (fun _ _ _ h => h) (fun _ _ _ h => h) (fun _ _ h => h) rfl
@[simp ↓] theorem State.flt_latch (key : Nat) (r : TaskRun) : (s.latch key r).flt = s.flt :=
  State.keep_latch (P := fun t => t.flt = s.flt) s key r (fun _ _ _ h => h) (fun _ _ _ h => h) (fun _ _ h => h) rfl
@[simp ↓] theorem State.cfg_latch (key : Nat) (r : TaskRun) : (s.latch key r).cfg = s.cfg :=
  State.keep_latch (P := fun t => t.cfg = s.cfg) s key r (fun _ _ _ h => h) (fun _ _ _ h => h) (fun _ _ h => h) rfl
@[simp ↓] theorem State.hostA_latch (key : Nat) (r : TaskRun) : (s.latch key r).hostA = s.hostA :=
  State.keep_latch (P := fun t => t.hostA = s.hostA) s key r (fun _ _ _ h => h) (fun _ _ _ h => h) (fun _ _ h => h) rfl
@[simp ↓] theorem State.hostB_latch (key : Nat) (r : TaskRun) : (s.latch key r).hostB = s.hostB :=
  State.keep_latch (P := fun t => t.hostB = s.hostB) s key r (fun _ _ _ h => h) (fun _ _ _ h => h) (fun _ _ h => h) rfl
@[simp ↓] theorem State.nv_latch (key : Nat) (r : TaskRun) : (s.latch key r).nv = s.nv :=
  State.keep_latch (P := fun t => t.nv = s.nv) s key r (fun _ _ _ h => h) (fun _ _ _ h => h) (fun _ _ h => h) rfl
@[simp ↓] theorem State.flm_latch (key : Nat) (r : TaskRun) : (s.latch key r).flm = s.flm :=
  State.keep_latch (P := fun t => t.flm = s.flm) s key r (fun _ _ _ h => h) (fun _ _ _ h => h) (fun _ _ h => h) rfl
@[simp ↓] theorem State.sec_latch (key : Nat) (r : TaskRun) : (s.latch key r).sec = s.sec :=
  State.keep_latch (P := fun t => t.sec = s.sec) s key r (fun _ _ _ h => h) (fun _ _ _ h => h) (fun _ _ h => h) rfl
@[simp ↓] theorem State.man_latch (key : Nat) (r : TaskRun) : (s.latch key r).man = s.man :=
  State.keep_latch (P := fun t => t.man = s.man) s key r (fun _ _ _ h => h) (fun _ _ _ h => h) (fun _ _ h => h) rfl
@[simp ↓] theorem State.xlk_latch (key : Nat) (r : TaskRun) : (s.latch key r).xlk = s.xlk :=
  State.keep_latch (P := fun t => t.xlk = s.xlk) s key r (fun _ _ _ h => h) (fun _ _ _ h => h) (fun _ _ h => h) rfl
@[simp ↓] theorem State.eng_latch (key : Nat) (r : TaskRun) : (s.latch key r).eng = s.eng :=
  State.keep_latch (P := fun t => t.eng = s.eng) s key r (fun _ _ _ h => h) (fun _ _ _ h => h) (fun _ _ h => h) rfl
@[simp ↓] theorem State.lnd_latch (key : Nat) (r : TaskRun) : (s.latch key r).lnd = s.lnd :=
  State.keep_latch (P := fun t => t.lnd = s.lnd) s key r (fun _ _ _ h => h) (fun _ _ _ h => h) (fun _ _ h => h) rfl
@[simp ↓] theorem State.sel_latch (key : Nat) (r : TaskRun) : (s.latch key r).sel = s.sel :=
  State.keep_latch (P := fun t => t.sel = s.sel) s key r (fun _ _ _ h => h) (fun _ _ _ h => h) (fun _ _ h => h) rfl
@[simp ↓] theorem State.ent_latch (key : Nat) (r : TaskRun) : (s.latch key r).ent = s.ent :=
  State.keep_latch (P := fun t => t.ent = s.ent) s key r (fun _ _ _ h => h) (fun _ _ _ h => h) (fun _ _ h => h) rfl
@[simp ↓] theorem State.loop_latch (key : Nat) (r : TaskRun) : (s.latch key r).loop = s.loop :=
  State.keep_latch (P := fun t => t.loop = s.loop) s key r (fun _ _ _ h => h) (fun _ _ _ h => h) (fun _ _ h => h) rfl
@[simp ↓] theorem State.ho_latch (key : Nat) (r : TaskRun) : (s.latch key r).ho = s.ho :=
  State.keep_latch (P := fun t => t.ho = s.ho) s key r (fun _ _ _ h => h) (fun _ _ _ h => h) (fun _ _ h => h) rfl
@[simp ↓] theorem State.apl_latch (key : Nat) (r : TaskRun) : (s.latch key r).apl = s.apl :=
  State.keep_latch (P := fun t => t.apl = s.apl) s key r (fun _ _ _ h => h) (fun _ _ _ h => h) (fun _ _ h => h) rfl
@[simp ↓] theorem State.out_latch (key : Nat) (r : TaskRun) : (s.latch key r).out = s.out :=
  State.keep_latch (P := fun t => t.out = s.out) s key r (fun _ _ _ h => h) (fun _ _ _ h => h) (fun _ _ h => h) rfl
@[simp ↓] theorem State.tsc_latch (key : Nat) (r : TaskRun) : (s.latch key r).tsc = s.tsc :=
  State.keep_latch (P := fun t => t.tsc = s.tsc) s key r (fun _ _ _ h => h) (fun _ _ _ h => h) (fun _ _ h => h) rfl
@[simp ↓] theorem State.tod_latch (key : Nat) (r : TaskRun) : (s.latch key r).tod = s.tod :=
  State.keep_latch (P := fun t => t.tod = s.tod) s key r (fun _ _ _ h => h) (fun _ _ _ h => h) (fun _ _ h => h) rfl
@[simp ↓] theorem State.prt_latch (key : Nat) (r : TaskRun) : (s.latch key r).prt = s.prt :=
  State.keep_latch (P := fun t => t.prt = s.prt) s key r (fun _ _ _ h => h) (fun _ _ _ h => h) (fun _ _ h => h) rfl
@[simp ↓] theorem State.pte_latch (key : Nat) (r : TaskRun) : (s.latch key r).pte = s.pte :=
  State.keep_latch (P := fun t => t.pte = s.pte) s key r (fun _ _ _ h => h) (fun _ _ _ h => h) (fun _ _ h => h) rfl
@[simp ↓] theorem State.berth_latch (key : Nat) (r : TaskRun) : (s.latch key r).berth = s.berth :=
  State.keep_latch (P := fun t => t.berth = s.berth) s key r (fun _ _ _ h => h) (fun _ _ _ h => h) (fun _ _ h => h) rfl
@[simp ↓] theorem State.gens_latch (key : Nat) (r : TaskRun) : (s.latch key r).gens = s.gens :=
  State.keep_latch (P := fun t => t.gens = s.gens) s key r (fun _ _ _ h => h) (fun _ _ _ h => h) (fun _ _ h => h) rfl

theorem State.keep_deliver {P : State → Prop} (e r : Nat) (ht : ∀ t k g, P t → P (t.modTasks k g))
    (hr : ∀ t k v, P t → P (t.setw k v))
    (hi : ∀ t i, P t → P { t with intr := i })
    (h : P s) : P (s.deliver e r) := by
  have hs : ∀ (t : State), P t → P ((t.inc EVR.STALE_CNT_COUNT).ev EVR.EVENT_STALE) := fun t h =>
    State.keep_ev _ _ hr hi (hr _ _ _ h)
  unfold State.deliver; dsimp only; split
  · split
    · unfold State.when; split
      · exact State.keep_latch _ _ _ ht hr hi h
      · exact h
    · exact hs _ h
  · exact State.keep_latch _ _ _ ht hr hi h

@[simp ↓] theorem State.pending_deliver (e r : Nat) : (s.deliver e r).pending = s.pending :=
  State.keep_deliver (P := fun t => t.pending = s.pending) s e r (fun _ _ _ h => h) (fun _ _ _ h => h) (fun _ _ h => h) rfl
@[simp ↓] theorem State.now_deliver (e r : Nat) : (s.deliver e r).now = s.now :=
  State.keep_deliver (P := fun t => t.now = s.now) s e r (fun _ _ _ h => h) (fun _ _ _ h => h) (fun _ _ h => h) rfl
@[simp ↓] theorem State.freeCount_deliver (e r : Nat) : (s.deliver e r).freeCount = s.freeCount :=
  State.keep_deliver (P := fun t => t.freeCount = s.freeCount) s e r (fun _ _ _ h => h) (fun _ _ _ h => h) (fun _ _ h => h) rfl
@[simp ↓] theorem State.mem_deliver (e r : Nat) : (s.deliver e r).mem = s.mem :=
  State.keep_deliver (P := fun t => t.mem = s.mem) s e r (fun _ _ _ h => h) (fun _ _ _ h => h) (fun _ _ h => h) rfl
@[simp ↓] theorem State.ecc_deliver (e r : Nat) : (s.deliver e r).ecc = s.ecc :=
  State.keep_deliver (P := fun t => t.ecc = s.ecc) s e r (fun _ _ _ h => h) (fun _ _ _ h => h) (fun _ _ h => h) rfl
@[simp ↓] theorem State.scrub_deliver (e r : Nat) : (s.deliver e r).scrub = s.scrub :=
  State.keep_deliver (P := fun t => t.scrub = s.scrub) s e r (fun _ _ _ h => h) (fun _ _ _ h => h) (fun _ _ h => h) rfl
@[simp ↓] theorem State.flash_deliver (e r : Nat) : (s.deliver e r).flash = s.flash :=
  State.keep_deliver (P := fun t => t.flash = s.flash) s e r (fun _ _ _ h => h) (fun _ _ _ h => h) (fun _ _ h => h) rfl
@[simp ↓] theorem State.slices_deliver (e r : Nat) : (s.deliver e r).slices = s.slices :=
  State.keep_deliver (P := fun t => t.slices = s.slices) s e r (fun _ _ _ h => h) (fun _ _ _ h => h) (fun _ _ h => h) rfl
@[simp ↓] theorem State.top_deliver (e r : Nat) : (s.deliver e r).top = s.top :=
  State.keep_deliver (P := fun t => t.top = s.top) s e r (fun _ _ _ h => h) (fun _ _ _ h => h) (fun _ _ h => h) rfl
@[simp ↓] theorem State.pwr_deliver (e r : Nat) : (s.deliver e r).pwr = s.pwr :=
  State.keep_deliver (P := fun t => t.pwr = s.pwr) s e r (fun _ _ _ h => h) (fun _ _ _ h => h) (fun _ _ h => h) rfl
@[simp ↓] theorem State.fab_deliver (e r : Nat) : (s.deliver e r).fab = s.fab :=
  State.keep_deliver (P := fun t => t.fab = s.fab) s e r (fun _ _ _ h => h) (fun _ _ _ h => h) (fun _ _ h => h) rfl
@[simp ↓] theorem State.flt_deliver (e r : Nat) : (s.deliver e r).flt = s.flt :=
  State.keep_deliver (P := fun t => t.flt = s.flt) s e r (fun _ _ _ h => h) (fun _ _ _ h => h) (fun _ _ h => h) rfl
@[simp ↓] theorem State.cfg_deliver (e r : Nat) : (s.deliver e r).cfg = s.cfg :=
  State.keep_deliver (P := fun t => t.cfg = s.cfg) s e r (fun _ _ _ h => h) (fun _ _ _ h => h) (fun _ _ h => h) rfl
@[simp ↓] theorem State.hostA_deliver (e r : Nat) : (s.deliver e r).hostA = s.hostA :=
  State.keep_deliver (P := fun t => t.hostA = s.hostA) s e r (fun _ _ _ h => h) (fun _ _ _ h => h) (fun _ _ h => h) rfl
@[simp ↓] theorem State.hostB_deliver (e r : Nat) : (s.deliver e r).hostB = s.hostB :=
  State.keep_deliver (P := fun t => t.hostB = s.hostB) s e r (fun _ _ _ h => h) (fun _ _ _ h => h) (fun _ _ h => h) rfl
@[simp ↓] theorem State.nv_deliver (e r : Nat) : (s.deliver e r).nv = s.nv :=
  State.keep_deliver (P := fun t => t.nv = s.nv) s e r (fun _ _ _ h => h) (fun _ _ _ h => h) (fun _ _ h => h) rfl
@[simp ↓] theorem State.flm_deliver (e r : Nat) : (s.deliver e r).flm = s.flm :=
  State.keep_deliver (P := fun t => t.flm = s.flm) s e r (fun _ _ _ h => h) (fun _ _ _ h => h) (fun _ _ h => h) rfl
@[simp ↓] theorem State.sec_deliver (e r : Nat) : (s.deliver e r).sec = s.sec :=
  State.keep_deliver (P := fun t => t.sec = s.sec) s e r (fun _ _ _ h => h) (fun _ _ _ h => h) (fun _ _ h => h) rfl
@[simp ↓] theorem State.man_deliver (e r : Nat) : (s.deliver e r).man = s.man :=
  State.keep_deliver (P := fun t => t.man = s.man) s e r (fun _ _ _ h => h) (fun _ _ _ h => h) (fun _ _ h => h) rfl
@[simp ↓] theorem State.xlk_deliver (e r : Nat) : (s.deliver e r).xlk = s.xlk :=
  State.keep_deliver (P := fun t => t.xlk = s.xlk) s e r (fun _ _ _ h => h) (fun _ _ _ h => h) (fun _ _ h => h) rfl
@[simp ↓] theorem State.eng_deliver (e r : Nat) : (s.deliver e r).eng = s.eng :=
  State.keep_deliver (P := fun t => t.eng = s.eng) s e r (fun _ _ _ h => h) (fun _ _ _ h => h) (fun _ _ h => h) rfl
@[simp ↓] theorem State.lnd_deliver (e r : Nat) : (s.deliver e r).lnd = s.lnd :=
  State.keep_deliver (P := fun t => t.lnd = s.lnd) s e r (fun _ _ _ h => h) (fun _ _ _ h => h) (fun _ _ h => h) rfl
@[simp ↓] theorem State.sel_deliver (e r : Nat) : (s.deliver e r).sel = s.sel :=
  State.keep_deliver (P := fun t => t.sel = s.sel) s e r (fun _ _ _ h => h) (fun _ _ _ h => h) (fun _ _ h => h) rfl
@[simp ↓] theorem State.ent_deliver (e r : Nat) : (s.deliver e r).ent = s.ent :=
  State.keep_deliver (P := fun t => t.ent = s.ent) s e r (fun _ _ _ h => h) (fun _ _ _ h => h) (fun _ _ h => h) rfl
@[simp ↓] theorem State.loop_deliver (e r : Nat) : (s.deliver e r).loop = s.loop :=
  State.keep_deliver (P := fun t => t.loop = s.loop) s e r (fun _ _ _ h => h) (fun _ _ _ h => h) (fun _ _ h => h) rfl
@[simp ↓] theorem State.ho_deliver (e r : Nat) : (s.deliver e r).ho = s.ho :=
  State.keep_deliver (P := fun t => t.ho = s.ho) s e r (fun _ _ _ h => h) (fun _ _ _ h => h) (fun _ _ h => h) rfl
@[simp ↓] theorem State.apl_deliver (e r : Nat) : (s.deliver e r).apl = s.apl :=
  State.keep_deliver (P := fun t => t.apl = s.apl) s e r (fun _ _ _ h => h) (fun _ _ _ h => h) (fun _ _ h => h) rfl
@[simp ↓] theorem State.out_deliver (e r : Nat) : (s.deliver e r).out = s.out :=
  State.keep_deliver (P := fun t => t.out = s.out) s e r (fun _ _ _ h => h) (fun _ _ _ h => h) (fun _ _ h => h) rfl
@[simp ↓] theorem State.tsc_deliver (e r : Nat) : (s.deliver e r).tsc = s.tsc :=
  State.keep_deliver (P := fun t => t.tsc = s.tsc) s e r (fun _ _ _ h => h) (fun _ _ _ h => h) (fun _ _ h => h) rfl
@[simp ↓] theorem State.tod_deliver (e r : Nat) : (s.deliver e r).tod = s.tod :=
  State.keep_deliver (P := fun t => t.tod = s.tod) s e r (fun _ _ _ h => h) (fun _ _ _ h => h) (fun _ _ h => h) rfl
@[simp ↓] theorem State.prt_deliver (e r : Nat) : (s.deliver e r).prt = s.prt :=
  State.keep_deliver (P := fun t => t.prt = s.prt) s e r (fun _ _ _ h => h) (fun _ _ _ h => h) (fun _ _ h => h) rfl
@[simp ↓] theorem State.pte_deliver (e r : Nat) : (s.deliver e r).pte = s.pte :=
  State.keep_deliver (P := fun t => t.pte = s.pte) s e r (fun _ _ _ h => h) (fun _ _ _ h => h) (fun _ _ h => h) rfl
@[simp ↓] theorem State.berth_deliver (e r : Nat) : (s.deliver e r).berth = s.berth :=
  State.keep_deliver (P := fun t => t.berth = s.berth) s e r (fun _ _ _ h => h) (fun _ _ _ h => h) (fun _ _ h => h) rfl
@[simp ↓] theorem State.gens_deliver (e r : Nat) : (s.deliver e r).gens = s.gens :=
  State.keep_deliver (P := fun t => t.gens = s.gens) s e r (fun _ _ _ h => h) (fun _ _ _ h => h) (fun _ _ h => h) rfl

theorem State.keep_route {P : State → Prop} (e : Nat) (ht : ∀ t k g, P t → P (t.modTasks k g))
    (hr : ∀ t k v, P t → P (t.setw k v))
    (hi : ∀ t i, P t → P { t with intr := i })
    (h : P s) : P (s.route e) := by
  unfold State.route State.forL
  generalize s.routesOf e = l
  induction l generalizing s with
  | nil => exact h
  | cons r l ih => exact ih _ (State.keep_deliver _ _ _ ht hr hi h)

@[simp ↓] theorem State.pending_route (e : Nat) : (s.route e).pending = s.pending :=
  State.keep_route (P := fun t => t.pending = s.pending) s e (fun _ _ _ h => h) (fun _ _ _ h => h) (fun _ _ h => h) rfl
@[simp ↓] theorem State.now_route (e : Nat) : (s.route e).now = s.now :=
  State.keep_route (P := fun t => t.now = s.now) s e (fun _ _ _ h => h) (fun _ _ _ h => h) (fun _ _ h => h) rfl
@[simp ↓] theorem State.freeCount_route (e : Nat) : (s.route e).freeCount = s.freeCount :=
  State.keep_route (P := fun t => t.freeCount = s.freeCount) s e (fun _ _ _ h => h) (fun _ _ _ h => h) (fun _ _ h => h) rfl
@[simp ↓] theorem State.mem_route (e : Nat) : (s.route e).mem = s.mem :=
  State.keep_route (P := fun t => t.mem = s.mem) s e (fun _ _ _ h => h) (fun _ _ _ h => h) (fun _ _ h => h) rfl
@[simp ↓] theorem State.ecc_route (e : Nat) : (s.route e).ecc = s.ecc :=
  State.keep_route (P := fun t => t.ecc = s.ecc) s e (fun _ _ _ h => h) (fun _ _ _ h => h) (fun _ _ h => h) rfl
@[simp ↓] theorem State.scrub_route (e : Nat) : (s.route e).scrub = s.scrub :=
  State.keep_route (P := fun t => t.scrub = s.scrub) s e (fun _ _ _ h => h) (fun _ _ _ h => h) (fun _ _ h => h) rfl
@[simp ↓] theorem State.flash_route (e : Nat) : (s.route e).flash = s.flash :=
  State.keep_route (P := fun t => t.flash = s.flash) s e (fun _ _ _ h => h) (fun _ _ _ h => h) (fun _ _ h => h) rfl
@[simp ↓] theorem State.slices_route (e : Nat) : (s.route e).slices = s.slices :=
  State.keep_route (P := fun t => t.slices = s.slices) s e (fun _ _ _ h => h) (fun _ _ _ h => h) (fun _ _ h => h) rfl
@[simp ↓] theorem State.top_route (e : Nat) : (s.route e).top = s.top :=
  State.keep_route (P := fun t => t.top = s.top) s e (fun _ _ _ h => h) (fun _ _ _ h => h) (fun _ _ h => h) rfl
@[simp ↓] theorem State.pwr_route (e : Nat) : (s.route e).pwr = s.pwr :=
  State.keep_route (P := fun t => t.pwr = s.pwr) s e (fun _ _ _ h => h) (fun _ _ _ h => h) (fun _ _ h => h) rfl
@[simp ↓] theorem State.fab_route (e : Nat) : (s.route e).fab = s.fab :=
  State.keep_route (P := fun t => t.fab = s.fab) s e (fun _ _ _ h => h) (fun _ _ _ h => h) (fun _ _ h => h) rfl
@[simp ↓] theorem State.flt_route (e : Nat) : (s.route e).flt = s.flt :=
  State.keep_route (P := fun t => t.flt = s.flt) s e (fun _ _ _ h => h) (fun _ _ _ h => h) (fun _ _ h => h) rfl
@[simp ↓] theorem State.cfg_route (e : Nat) : (s.route e).cfg = s.cfg :=
  State.keep_route (P := fun t => t.cfg = s.cfg) s e (fun _ _ _ h => h) (fun _ _ _ h => h) (fun _ _ h => h) rfl
@[simp ↓] theorem State.hostA_route (e : Nat) : (s.route e).hostA = s.hostA :=
  State.keep_route (P := fun t => t.hostA = s.hostA) s e (fun _ _ _ h => h) (fun _ _ _ h => h) (fun _ _ h => h) rfl
@[simp ↓] theorem State.hostB_route (e : Nat) : (s.route e).hostB = s.hostB :=
  State.keep_route (P := fun t => t.hostB = s.hostB) s e (fun _ _ _ h => h) (fun _ _ _ h => h) (fun _ _ h => h) rfl
@[simp ↓] theorem State.nv_route (e : Nat) : (s.route e).nv = s.nv :=
  State.keep_route (P := fun t => t.nv = s.nv) s e (fun _ _ _ h => h) (fun _ _ _ h => h) (fun _ _ h => h) rfl
@[simp ↓] theorem State.flm_route (e : Nat) : (s.route e).flm = s.flm :=
  State.keep_route (P := fun t => t.flm = s.flm) s e (fun _ _ _ h => h) (fun _ _ _ h => h) (fun _ _ h => h) rfl
@[simp ↓] theorem State.sec_route (e : Nat) : (s.route e).sec = s.sec :=
  State.keep_route (P := fun t => t.sec = s.sec) s e (fun _ _ _ h => h) (fun _ _ _ h => h) (fun _ _ h => h) rfl
@[simp ↓] theorem State.man_route (e : Nat) : (s.route e).man = s.man :=
  State.keep_route (P := fun t => t.man = s.man) s e (fun _ _ _ h => h) (fun _ _ _ h => h) (fun _ _ h => h) rfl
@[simp ↓] theorem State.xlk_route (e : Nat) : (s.route e).xlk = s.xlk :=
  State.keep_route (P := fun t => t.xlk = s.xlk) s e (fun _ _ _ h => h) (fun _ _ _ h => h) (fun _ _ h => h) rfl
@[simp ↓] theorem State.eng_route (e : Nat) : (s.route e).eng = s.eng :=
  State.keep_route (P := fun t => t.eng = s.eng) s e (fun _ _ _ h => h) (fun _ _ _ h => h) (fun _ _ h => h) rfl
@[simp ↓] theorem State.lnd_route (e : Nat) : (s.route e).lnd = s.lnd :=
  State.keep_route (P := fun t => t.lnd = s.lnd) s e (fun _ _ _ h => h) (fun _ _ _ h => h) (fun _ _ h => h) rfl
@[simp ↓] theorem State.sel_route (e : Nat) : (s.route e).sel = s.sel :=
  State.keep_route (P := fun t => t.sel = s.sel) s e (fun _ _ _ h => h) (fun _ _ _ h => h) (fun _ _ h => h) rfl
@[simp ↓] theorem State.ent_route (e : Nat) : (s.route e).ent = s.ent :=
  State.keep_route (P := fun t => t.ent = s.ent) s e (fun _ _ _ h => h) (fun _ _ _ h => h) (fun _ _ h => h) rfl
@[simp ↓] theorem State.loop_route (e : Nat) : (s.route e).loop = s.loop :=
  State.keep_route (P := fun t => t.loop = s.loop) s e (fun _ _ _ h => h) (fun _ _ _ h => h) (fun _ _ h => h) rfl
@[simp ↓] theorem State.ho_route (e : Nat) : (s.route e).ho = s.ho :=
  State.keep_route (P := fun t => t.ho = s.ho) s e (fun _ _ _ h => h) (fun _ _ _ h => h) (fun _ _ h => h) rfl
@[simp ↓] theorem State.apl_route (e : Nat) : (s.route e).apl = s.apl :=
  State.keep_route (P := fun t => t.apl = s.apl) s e (fun _ _ _ h => h) (fun _ _ _ h => h) (fun _ _ h => h) rfl
@[simp ↓] theorem State.out_route (e : Nat) : (s.route e).out = s.out :=
  State.keep_route (P := fun t => t.out = s.out) s e (fun _ _ _ h => h) (fun _ _ _ h => h) (fun _ _ h => h) rfl
@[simp ↓] theorem State.tsc_route (e : Nat) : (s.route e).tsc = s.tsc :=
  State.keep_route (P := fun t => t.tsc = s.tsc) s e (fun _ _ _ h => h) (fun _ _ _ h => h) (fun _ _ h => h) rfl
@[simp ↓] theorem State.tod_route (e : Nat) : (s.route e).tod = s.tod :=
  State.keep_route (P := fun t => t.tod = s.tod) s e (fun _ _ _ h => h) (fun _ _ _ h => h) (fun _ _ h => h) rfl
@[simp ↓] theorem State.prt_route (e : Nat) : (s.route e).prt = s.prt :=
  State.keep_route (P := fun t => t.prt = s.prt) s e (fun _ _ _ h => h) (fun _ _ _ h => h) (fun _ _ h => h) rfl
@[simp ↓] theorem State.pte_route (e : Nat) : (s.route e).pte = s.pte :=
  State.keep_route (P := fun t => t.pte = s.pte) s e (fun _ _ _ h => h) (fun _ _ _ h => h) (fun _ _ h => h) rfl
@[simp ↓] theorem State.berth_route (e : Nat) : (s.route e).berth = s.berth :=
  State.keep_route (P := fun t => t.berth = s.berth) s e (fun _ _ _ h => h) (fun _ _ _ h => h) (fun _ _ h => h) rfl
@[simp ↓] theorem State.gens_route (e : Nat) : (s.route e).gens = s.gens :=
  State.keep_route (P := fun t => t.gens = s.gens) s e (fun _ _ _ h => h) (fun _ _ _ h => h) (fun _ _ h => h) rfl

theorem State.keep_ringComplete {P : State → Prop} (p : Port) (c : Code) (r0 r1 : Nat) (hr : ∀ t k v, P t → P (t.setw k v))
    (hi : ∀ t i, P t → P { t with intr := i })
    (h : P s) : P (s.ringComplete p c r0 r1) := by
  unfold State.ringComplete; split
  · exact h
  · exact State.keep_ev _ _ hr hi (hr _ _ _ (hr _ _ _ (hr _ _ _ (hr _ _ _ (hr _ _ _ h)))))

@[simp ↓] theorem State.pending_ringComplete (p : Port) (c : Code) (r0 r1 : Nat) : (s.ringComplete p c r0 r1).pending = s.pending :=
  State.keep_ringComplete (P := fun t => t.pending = s.pending) s p c r0 r1 (fun _ _ _ h => h) (fun _ _ h => h) rfl
@[simp ↓] theorem State.now_ringComplete (p : Port) (c : Code) (r0 r1 : Nat) : (s.ringComplete p c r0 r1).now = s.now :=
  State.keep_ringComplete (P := fun t => t.now = s.now) s p c r0 r1 (fun _ _ _ h => h) (fun _ _ h => h) rfl
@[simp ↓] theorem State.freeCount_ringComplete (p : Port) (c : Code) (r0 r1 : Nat) : (s.ringComplete p c r0 r1).freeCount = s.freeCount :=
  State.keep_ringComplete (P := fun t => t.freeCount = s.freeCount) s p c r0 r1 (fun _ _ _ h => h) (fun _ _ h => h) rfl
@[simp ↓] theorem State.mem_ringComplete (p : Port) (c : Code) (r0 r1 : Nat) : (s.ringComplete p c r0 r1).mem = s.mem :=
  State.keep_ringComplete (P := fun t => t.mem = s.mem) s p c r0 r1 (fun _ _ _ h => h) (fun _ _ h => h) rfl
@[simp ↓] theorem State.ecc_ringComplete (p : Port) (c : Code) (r0 r1 : Nat) : (s.ringComplete p c r0 r1).ecc = s.ecc :=
  State.keep_ringComplete (P := fun t => t.ecc = s.ecc) s p c r0 r1 (fun _ _ _ h => h) (fun _ _ h => h) rfl
@[simp ↓] theorem State.scrub_ringComplete (p : Port) (c : Code) (r0 r1 : Nat) : (s.ringComplete p c r0 r1).scrub = s.scrub :=
  State.keep_ringComplete (P := fun t => t.scrub = s.scrub) s p c r0 r1 (fun _ _ _ h => h) (fun _ _ h => h) rfl
@[simp ↓] theorem State.flash_ringComplete (p : Port) (c : Code) (r0 r1 : Nat) : (s.ringComplete p c r0 r1).flash = s.flash :=
  State.keep_ringComplete (P := fun t => t.flash = s.flash) s p c r0 r1 (fun _ _ _ h => h) (fun _ _ h => h) rfl
@[simp ↓] theorem State.slices_ringComplete (p : Port) (c : Code) (r0 r1 : Nat) : (s.ringComplete p c r0 r1).slices = s.slices :=
  State.keep_ringComplete (P := fun t => t.slices = s.slices) s p c r0 r1 (fun _ _ _ h => h) (fun _ _ h => h) rfl
@[simp ↓] theorem State.top_ringComplete (p : Port) (c : Code) (r0 r1 : Nat) : (s.ringComplete p c r0 r1).top = s.top :=
  State.keep_ringComplete (P := fun t => t.top = s.top) s p c r0 r1 (fun _ _ _ h => h) (fun _ _ h => h) rfl
@[simp ↓] theorem State.pwr_ringComplete (p : Port) (c : Code) (r0 r1 : Nat) : (s.ringComplete p c r0 r1).pwr = s.pwr :=
  State.keep_ringComplete (P := fun t => t.pwr = s.pwr) s p c r0 r1 (fun _ _ _ h => h) (fun _ _ h => h) rfl
@[simp ↓] theorem State.fab_ringComplete (p : Port) (c : Code) (r0 r1 : Nat) : (s.ringComplete p c r0 r1).fab = s.fab :=
  State.keep_ringComplete (P := fun t => t.fab = s.fab) s p c r0 r1 (fun _ _ _ h => h) (fun _ _ h => h) rfl
@[simp ↓] theorem State.flt_ringComplete (p : Port) (c : Code) (r0 r1 : Nat) : (s.ringComplete p c r0 r1).flt = s.flt :=
  State.keep_ringComplete (P := fun t => t.flt = s.flt) s p c r0 r1 (fun _ _ _ h => h) (fun _ _ h => h) rfl
@[simp ↓] theorem State.cfg_ringComplete (p : Port) (c : Code) (r0 r1 : Nat) : (s.ringComplete p c r0 r1).cfg = s.cfg :=
  State.keep_ringComplete (P := fun t => t.cfg = s.cfg) s p c r0 r1 (fun _ _ _ h => h) (fun _ _ h => h) rfl
@[simp ↓] theorem State.hostA_ringComplete (p : Port) (c : Code) (r0 r1 : Nat) : (s.ringComplete p c r0 r1).hostA = s.hostA :=
  State.keep_ringComplete (P := fun t => t.hostA = s.hostA) s p c r0 r1 (fun _ _ _ h => h) (fun _ _ h => h) rfl
@[simp ↓] theorem State.hostB_ringComplete (p : Port) (c : Code) (r0 r1 : Nat) : (s.ringComplete p c r0 r1).hostB = s.hostB :=
  State.keep_ringComplete (P := fun t => t.hostB = s.hostB) s p c r0 r1 (fun _ _ _ h => h) (fun _ _ h => h) rfl
@[simp ↓] theorem State.nv_ringComplete (p : Port) (c : Code) (r0 r1 : Nat) : (s.ringComplete p c r0 r1).nv = s.nv :=
  State.keep_ringComplete (P := fun t => t.nv = s.nv) s p c r0 r1 (fun _ _ _ h => h) (fun _ _ h => h) rfl
@[simp ↓] theorem State.flm_ringComplete (p : Port) (c : Code) (r0 r1 : Nat) : (s.ringComplete p c r0 r1).flm = s.flm :=
  State.keep_ringComplete (P := fun t => t.flm = s.flm) s p c r0 r1 (fun _ _ _ h => h) (fun _ _ h => h) rfl
@[simp ↓] theorem State.sec_ringComplete (p : Port) (c : Code) (r0 r1 : Nat) : (s.ringComplete p c r0 r1).sec = s.sec :=
  State.keep_ringComplete (P := fun t => t.sec = s.sec) s p c r0 r1 (fun _ _ _ h => h) (fun _ _ h => h) rfl
@[simp ↓] theorem State.man_ringComplete (p : Port) (c : Code) (r0 r1 : Nat) : (s.ringComplete p c r0 r1).man = s.man :=
  State.keep_ringComplete (P := fun t => t.man = s.man) s p c r0 r1 (fun _ _ _ h => h) (fun _ _ h => h) rfl
@[simp ↓] theorem State.xlk_ringComplete (p : Port) (c : Code) (r0 r1 : Nat) : (s.ringComplete p c r0 r1).xlk = s.xlk :=
  State.keep_ringComplete (P := fun t => t.xlk = s.xlk) s p c r0 r1 (fun _ _ _ h => h) (fun _ _ h => h) rfl
@[simp ↓] theorem State.eng_ringComplete (p : Port) (c : Code) (r0 r1 : Nat) : (s.ringComplete p c r0 r1).eng = s.eng :=
  State.keep_ringComplete (P := fun t => t.eng = s.eng) s p c r0 r1 (fun _ _ _ h => h) (fun _ _ h => h) rfl
@[simp ↓] theorem State.lnd_ringComplete (p : Port) (c : Code) (r0 r1 : Nat) : (s.ringComplete p c r0 r1).lnd = s.lnd :=
  State.keep_ringComplete (P := fun t => t.lnd = s.lnd) s p c r0 r1 (fun _ _ _ h => h) (fun _ _ h => h) rfl
@[simp ↓] theorem State.sel_ringComplete (p : Port) (c : Code) (r0 r1 : Nat) : (s.ringComplete p c r0 r1).sel = s.sel :=
  State.keep_ringComplete (P := fun t => t.sel = s.sel) s p c r0 r1 (fun _ _ _ h => h) (fun _ _ h => h) rfl
@[simp ↓] theorem State.ent_ringComplete (p : Port) (c : Code) (r0 r1 : Nat) : (s.ringComplete p c r0 r1).ent = s.ent :=
  State.keep_ringComplete (P := fun t => t.ent = s.ent) s p c r0 r1 (fun _ _ _ h => h) (fun _ _ h => h) rfl
@[simp ↓] theorem State.loop_ringComplete (p : Port) (c : Code) (r0 r1 : Nat) : (s.ringComplete p c r0 r1).loop = s.loop :=
  State.keep_ringComplete (P := fun t => t.loop = s.loop) s p c r0 r1 (fun _ _ _ h => h) (fun _ _ h => h) rfl
@[simp ↓] theorem State.ho_ringComplete (p : Port) (c : Code) (r0 r1 : Nat) : (s.ringComplete p c r0 r1).ho = s.ho :=
  State.keep_ringComplete (P := fun t => t.ho = s.ho) s p c r0 r1 (fun _ _ _ h => h) (fun _ _ h => h) rfl
@[simp ↓] theorem State.apl_ringComplete (p : Port) (c : Code) (r0 r1 : Nat) : (s.ringComplete p c r0 r1).apl = s.apl :=
  State.keep_ringComplete (P := fun t => t.apl = s.apl) s p c r0 r1 (fun _ _ _ h => h) (fun _ _ h => h) rfl
@[simp ↓] theorem State.out_ringComplete (p : Port) (c : Code) (r0 r1 : Nat) : (s.ringComplete p c r0 r1).out = s.out :=
  State.keep_ringComplete (P := fun t => t.out = s.out) s p c r0 r1 (fun _ _ _ h => h) (fun _ _ h => h) rfl
@[simp ↓] theorem State.tsc_ringComplete (p : Port) (c : Code) (r0 r1 : Nat) : (s.ringComplete p c r0 r1).tsc = s.tsc :=
  State.keep_ringComplete (P := fun t => t.tsc = s.tsc) s p c r0 r1 (fun _ _ _ h => h) (fun _ _ h => h) rfl
@[simp ↓] theorem State.tod_ringComplete (p : Port) (c : Code) (r0 r1 : Nat) : (s.ringComplete p c r0 r1).tod = s.tod :=
  State.keep_ringComplete (P := fun t => t.tod = s.tod) s p c r0 r1 (fun _ _ _ h => h) (fun _ _ h => h) rfl
@[simp ↓] theorem State.tasks_ringComplete (p : Port) (c : Code) (r0 r1 : Nat) : (s.ringComplete p c r0 r1).tasks = s.tasks :=
  State.keep_ringComplete (P := fun t => t.tasks = s.tasks) s p c r0 r1 (fun _ _ _ h => h) (fun _ _ h => h) rfl
@[simp ↓] theorem State.prt_ringComplete (p : Port) (c : Code) (r0 r1 : Nat) : (s.ringComplete p c r0 r1).prt = s.prt :=
  State.keep_ringComplete (P := fun t => t.prt = s.prt) s p c r0 r1 (fun _ _ _ h => h) (fun _ _ h => h) rfl
@[simp ↓] theorem State.pte_ringComplete (p : Port) (c : Code) (r0 r1 : Nat) : (s.ringComplete p c r0 r1).pte = s.pte :=
  State.keep_ringComplete (P := fun t => t.pte = s.pte) s p c r0 r1 (fun _ _ _ h => h) (fun _ _ h => h) rfl
@[simp ↓] theorem State.berth_ringComplete (p : Port) (c : Code) (r0 r1 : Nat) : (s.ringComplete p c r0 r1).berth = s.berth :=
  State.keep_ringComplete (P := fun t => t.berth = s.berth) s p c r0 r1 (fun _ _ _ h => h) (fun _ _ h => h) rfl
@[simp ↓] theorem State.gens_ringComplete (p : Port) (c : Code) (r0 r1 : Nat) : (s.ringComplete p c r0 r1).gens = s.gens :=
  State.keep_ringComplete (P := fun t => t.gens = s.gens) s p c r0 r1 (fun _ _ _ h => h) (fun _ _ h => h) rfl

theorem State.keep_ringEngineDone {P : State → Prop} (hr : ∀ t k v, P t → P (t.setw k v))
    (hi : ∀ t i, P t → P { t with intr := i })
    (h : P s) : P (s.ringEngineDone) := by
  have hs : ∀ (t : State) (p : Port), P t → P (if t.on (HOST.RING_STAT_ACTIVE p) then t.ringComplete p .ok 0 0 else t) :=
    fun t p h => by split; exact State.keep_ringComplete _ _ _ _ _ hr hi h; exact h
  unfold State.ringEngineDone
  exact hs _ .b (hs _ .a (hr _ _ _ h))

@[simp ↓] theorem State.pending_ringEngineDone : (s.ringEngineDone).pending = s.pending :=
  State.keep_ringEngineDone (P := fun t => t.pending = s.pending) s (fun _ _ _ h => h) (fun _ _ h => h) rfl
@[simp ↓] theorem State.now_ringEngineDone : (s.ringEngineDone).now = s.now :=
  State.keep_ringEngineDone (P := fun t => t.now = s.now) s (fun _ _ _ h => h) (fun _ _ h => h) rfl
@[simp ↓] theorem State.freeCount_ringEngineDone : (s.ringEngineDone).freeCount = s.freeCount :=
  State.keep_ringEngineDone (P := fun t => t.freeCount = s.freeCount) s (fun _ _ _ h => h) (fun _ _ h => h) rfl
@[simp ↓] theorem State.mem_ringEngineDone : (s.ringEngineDone).mem = s.mem :=
  State.keep_ringEngineDone (P := fun t => t.mem = s.mem) s (fun _ _ _ h => h) (fun _ _ h => h) rfl
@[simp ↓] theorem State.ecc_ringEngineDone : (s.ringEngineDone).ecc = s.ecc :=
  State.keep_ringEngineDone (P := fun t => t.ecc = s.ecc) s (fun _ _ _ h => h) (fun _ _ h => h) rfl
@[simp ↓] theorem State.scrub_ringEngineDone : (s.ringEngineDone).scrub = s.scrub :=
  State.keep_ringEngineDone (P := fun t => t.scrub = s.scrub) s (fun _ _ _ h => h) (fun _ _ h => h) rfl
@[simp ↓] theorem State.flash_ringEngineDone : (s.ringEngineDone).flash = s.flash :=
  State.keep_ringEngineDone (P := fun t => t.flash = s.flash) s (fun _ _ _ h => h) (fun _ _ h => h) rfl
@[simp ↓] theorem State.slices_ringEngineDone : (s.ringEngineDone).slices = s.slices :=
  State.keep_ringEngineDone (P := fun t => t.slices = s.slices) s (fun _ _ _ h => h) (fun _ _ h => h) rfl
@[simp ↓] theorem State.top_ringEngineDone : (s.ringEngineDone).top = s.top :=
  State.keep_ringEngineDone (P := fun t => t.top = s.top) s (fun _ _ _ h => h) (fun _ _ h => h) rfl
@[simp ↓] theorem State.pwr_ringEngineDone : (s.ringEngineDone).pwr = s.pwr :=
  State.keep_ringEngineDone (P := fun t => t.pwr = s.pwr) s (fun _ _ _ h => h) (fun _ _ h => h) rfl
@[simp ↓] theorem State.fab_ringEngineDone : (s.ringEngineDone).fab = s.fab :=
  State.keep_ringEngineDone (P := fun t => t.fab = s.fab) s (fun _ _ _ h => h) (fun _ _ h => h) rfl
@[simp ↓] theorem State.flt_ringEngineDone : (s.ringEngineDone).flt = s.flt :=
  State.keep_ringEngineDone (P := fun t => t.flt = s.flt) s (fun _ _ _ h => h) (fun _ _ h => h) rfl
@[simp ↓] theorem State.cfg_ringEngineDone : (s.ringEngineDone).cfg = s.cfg :=
  State.keep_ringEngineDone (P := fun t => t.cfg = s.cfg) s (fun _ _ _ h => h) (fun _ _ h => h) rfl
@[simp ↓] theorem State.hostA_ringEngineDone : (s.ringEngineDone).hostA = s.hostA :=
  State.keep_ringEngineDone (P := fun t => t.hostA = s.hostA) s (fun _ _ _ h => h) (fun _ _ h => h) rfl
@[simp ↓] theorem State.hostB_ringEngineDone : (s.ringEngineDone).hostB = s.hostB :=
  State.keep_ringEngineDone (P := fun t => t.hostB = s.hostB) s (fun _ _ _ h => h) (fun _ _ h => h) rfl
@[simp ↓] theorem State.nv_ringEngineDone : (s.ringEngineDone).nv = s.nv :=
  State.keep_ringEngineDone (P := fun t => t.nv = s.nv) s (fun _ _ _ h => h) (fun _ _ h => h) rfl
@[simp ↓] theorem State.flm_ringEngineDone : (s.ringEngineDone).flm = s.flm :=
  State.keep_ringEngineDone (P := fun t => t.flm = s.flm) s (fun _ _ _ h => h) (fun _ _ h => h) rfl
@[simp ↓] theorem State.sec_ringEngineDone : (s.ringEngineDone).sec = s.sec :=
  State.keep_ringEngineDone (P := fun t => t.sec = s.sec) s (fun _ _ _ h => h) (fun _ _ h => h) rfl
@[simp ↓] theorem State.man_ringEngineDone : (s.ringEngineDone).man = s.man :=
  State.keep_ringEngineDone (P := fun t => t.man = s.man) s (fun _ _ _ h => h) (fun _ _ h => h) rfl
@[simp ↓] theorem State.xlk_ringEngineDone : (s.ringEngineDone).xlk = s.xlk :=
  State.keep_ringEngineDone (P := fun t => t.xlk = s.xlk) s (fun _ _ _ h => h) (fun _ _ h => h) rfl
@[simp ↓] theorem State.eng_ringEngineDone : (s.ringEngineDone).eng = s.eng :=
  State.keep_ringEngineDone (P := fun t => t.eng = s.eng) s (fun _ _ _ h => h) (fun _ _ h => h) rfl
@[simp ↓] theorem State.lnd_ringEngineDone : (s.ringEngineDone).lnd = s.lnd :=
  State.keep_ringEngineDone (P := fun t => t.lnd = s.lnd) s (fun _ _ _ h => h) (fun _ _ h => h) rfl
@[simp ↓] theorem State.sel_ringEngineDone : (s.ringEngineDone).sel = s.sel :=
  State.keep_ringEngineDone (P := fun t => t.sel = s.sel) s (fun _ _ _ h => h) (fun _ _ h => h) rfl
@[simp ↓] theorem State.ent_ringEngineDone : (s.ringEngineDone).ent = s.ent :=
  State.keep_ringEngineDone (P := fun t => t.ent = s.ent) s (fun _ _ _ h => h) (fun _ _ h => h) rfl
@[simp ↓] theorem State.loop_ringEngineDone : (s.ringEngineDone).loop = s.loop :=
  State.keep_ringEngineDone (P := fun t => t.loop = s.loop) s (fun _ _ _ h => h) (fun _ _ h => h) rfl
@[simp ↓] theorem State.ho_ringEngineDone : (s.ringEngineDone).ho = s.ho :=
  State.keep_ringEngineDone (P := fun t => t.ho = s.ho) s (fun _ _ _ h => h) (fun _ _ h => h) rfl
@[simp ↓] theorem State.apl_ringEngineDone : (s.ringEngineDone).apl = s.apl :=
  State.keep_ringEngineDone (P := fun t => t.apl = s.apl) s (fun _ _ _ h => h) (fun _ _ h => h) rfl
@[simp ↓] theorem State.out_ringEngineDone : (s.ringEngineDone).out = s.out :=
  State.keep_ringEngineDone (P := fun t => t.out = s.out) s (fun _ _ _ h => h) (fun _ _ h => h) rfl
@[simp ↓] theorem State.tsc_ringEngineDone : (s.ringEngineDone).tsc = s.tsc :=
  State.keep_ringEngineDone (P := fun t => t.tsc = s.tsc) s (fun _ _ _ h => h) (fun _ _ h => h) rfl
@[simp ↓] theorem State.tod_ringEngineDone : (s.ringEngineDone).tod = s.tod :=
  State.keep_ringEngineDone (P := fun t => t.tod = s.tod) s (fun _ _ _ h => h) (fun _ _ h => h) rfl
@[simp ↓] theorem State.tasks_ringEngineDone : (s.ringEngineDone).tasks = s.tasks :=
  State.keep_ringEngineDone (P := fun t => t.tasks = s.tasks) s (fun _ _ _ h => h) (fun _ _ h => h) rfl
@[simp ↓] theorem State.prt_ringEngineDone : (s.ringEngineDone).prt = s.prt :=
  State.keep_ringEngineDone (P := fun t => t.prt = s.prt) s (fun _ _ _ h => h) (fun _ _ h => h) rfl
@[simp ↓] theorem State.pte_ringEngineDone : (s.ringEngineDone).pte = s.pte :=
  State.keep_ringEngineDone (P := fun t => t.pte = s.pte) s (fun _ _ _ h => h) (fun _ _ h => h) rfl
@[simp ↓] theorem State.berth_ringEngineDone : (s.ringEngineDone).berth = s.berth :=
  State.keep_ringEngineDone (P := fun t => t.berth = s.berth) s (fun _ _ _ h => h) (fun _ _ h => h) rfl
@[simp ↓] theorem State.gens_ringEngineDone : (s.ringEngineDone).gens = s.gens :=
  State.keep_ringEngineDone (P := fun t => t.gens = s.gens) s (fun _ _ _ h => h) (fun _ _ h => h) rfl

end Sys2Proof.Machine
end

