-- ==== Sys2Proof/Laws/Moves.lean ====
section
/-! SUPPORT. What every operation of the model keeps, whatever it does: the queue of waiting commands, the canonical form of every
table, and every part of the state that it has no business with. The files `Keep…` beside this one say it of each operation. A set of
parts is a number, one bit for each part in the order of `State.parts`. -/

set_option Elab.async false

namespace Sys2Proof.Machine

/-- A set of parts lies within another. -/
def Sub (F K : Nat) : Prop := F &&& K = F

theorem Sub.mono {F G K : Nat} (h : Sub F K) (e : G &&& F = G) : Sub G K := by
  unfold Sub at *
  rw [← e, Nat.and_assoc, h]

theorem Sub.bit {F K : Nat} (h : Sub F K) {i : Nat} (e : F.testBit i = true) : K.testBit i = true := by
  unfold Sub at h
  rw [← h, Nat.testBit_and, Bool.and_eq_true] at e
  exact e.2

theorem Sub.refl (K : Nat) : Sub K K := Nat.and_self K

/-- From one state to another with the same queue, in which every table is canonical if it was, and every part outside `K` is the
same. -/
structure Moves (K : Nat) (s t : State) : Prop where
  queue : t.pending = s.pending
  tabs : s.tablesWf = true → t.tablesWf = true
  p0 : K.testBit 0 = false → t.now = s.now
  p1 : K.testBit 1 = false → t.freeCount = s.freeCount
  p2 : K.testBit 2 = false → t.regs = s.regs
  p3 : K.testBit 3 = false → t.mem = s.mem
  p4 : K.testBit 4 = false → t.ecc = s.ecc
  p5 : K.testBit 5 = false → t.scrub = s.scrub
  p6 : K.testBit 6 = false → t.flash = s.flash
  p7 : K.testBit 7 = false → t.slices = s.slices
  p8 : K.testBit 8 = false → t.top = s.top
  p9 : K.testBit 9 = false → t.pwr = s.pwr
  p10 : K.testBit 10 = false → t.fab = s.fab
  p11 : K.testBit 11 = false → t.flt = s.flt
  p12 : K.testBit 12 = false → t.intr = s.intr
  p13 : K.testBit 13 = false → t.cfg = s.cfg
  p14 : K.testBit 14 = false → t.hostA = s.hostA
  p15 : K.testBit 15 = false → t.hostB = s.hostB
  p16 : K.testBit 16 = false → t.nv = s.nv
  p17 : K.testBit 17 = false → t.flm = s.flm
  p18 : K.testBit 18 = false → t.sec = s.sec
  p19 : K.testBit 19 = false → t.man = s.man
  p20 : K.testBit 20 = false → t.xlk = s.xlk
  p21 : K.testBit 21 = false → t.eng = s.eng
  p22 : K.testBit 22 = false → t.lnd = s.lnd
  p23 : K.testBit 23 = false → t.sel = s.sel
  p24 : K.testBit 24 = false → t.ent = s.ent
  p25 : K.testBit 25 = false → t.loop = s.loop
  p26 : K.testBit 26 = false → t.ho = s.ho
  p27 : K.testBit 27 = false → t.apl = s.apl
  p28 : K.testBit 28 = false → t.out = s.out
  p29 : K.testBit 29 = false → t.tsc = s.tsc
  p30 : K.testBit 30 = false → t.tod = s.tod
  p31 : K.testBit 31 = false → t.tasks = s.tasks
  p32 : K.testBit 32 = false → t.prt = s.prt
  p33 : K.testBit 33 = false → t.pte = s.pte
  p34 : K.testBit 34 = false → t.berth = s.berth
  p35 : K.testBit 35 = false → t.gens = s.gens

/-- The tables of a state are canonical, one by one. -/
structure State.Wf (s : State) : Prop where
  regs : Tab.wf regDefault s.regs = true
  mem : Tab.wf memDefault s.mem = true
  ecc : Tab.wf (fun _ => 0) s.ecc = true
  scrub : Tab.wf (fun _ => 0) s.scrub = true
  flash : Tab.wf memDefault s.flash = true
  lnd : Tab.wf (fun _ => {}) s.lnd = true
  sel : Tab.wf (fun _ => {}) s.sel = true
  ent : Tab.wf (fun _ => {}) s.ent = true
  loop : Tab.wf (fun _ => {}) s.loop = true
  ho : Tab.wf (fun _ => {}) s.ho = true
  apl : Tab.wf (fun _ => {}) s.apl = true
  out : Tab.wf (fun _ => {}) s.out = true
  tsc : Tab.wf (fun _ => {}) s.tsc = true
  tod : Tab.wf (fun _ => {}) s.tod = true
  tasks : Tab.wf (fun _ => []) s.tasks = true
  prt : Tab.wf (fun _ => {}) s.prt = true
  pte : Tab.wf (fun _ => {}) s.pte = true
  berth : Tab.wf (fun _ => {}) s.berth = true
  gens : Tab.wf (fun _ => 0) s.gens = true
  shadow : Tab.wf memDefault s.nv.shadow = true
  array : Tab.wf memDefault s.nv.array = true
  incoming : Tab.wf memDefault s.nv.incoming = true

variable {K F : Nat} {s0 s t : State}

theorem State.tablesWf_iff : s.tablesWf = true ↔ s.Wf := by
  unfold State.tablesWf
  simp only [Bool.and_eq_true]
  constructor
  · rintro ⟨⟨⟨⟨⟨⟨⟨⟨⟨⟨⟨⟨⟨⟨⟨⟨⟨⟨⟨⟨⟨h1, h2⟩, h3⟩, h4⟩, h5⟩, h6⟩, h7⟩, h8⟩, h9⟩, h10⟩, h11⟩, h12⟩, h13⟩, h14⟩, h15⟩, h16⟩, h17⟩, h18⟩, h19⟩, h20⟩, h21⟩, h22⟩
    exact ⟨h1, h2, h3, h4, h5, h6, h7, h8, h9, h10, h11, h12, h13, h14, h15, h16, h17, h18, h19, h20, h21, h22⟩
  · rintro ⟨h1, h2, h3, h4, h5, h6, h7, h8, h9, h10, h11, h12, h13, h14, h15, h16, h17, h18, h19, h20, h21, h22⟩
    exact ⟨⟨⟨⟨⟨⟨⟨⟨⟨⟨⟨⟨⟨⟨⟨⟨⟨⟨⟨⟨⟨h1, h2⟩, h3⟩, h4⟩, h5⟩, h6⟩, h7⟩, h8⟩, h9⟩, h10⟩, h11⟩, h12⟩, h13⟩, h14⟩, h15⟩, h16⟩, h17⟩, h18⟩, h19⟩, h20⟩, h21⟩, h22⟩

/-- The queue has no part in the form of the tables. -/
theorem State.tablesWf_pending (s : State) (q : List Instr) : ({ s with pending := q } : State).tablesWf = s.tablesWf := rfl

theorem Moves.refl (s : State) : Moves K s s := by
  constructor <;> first | rfl | exact id | exact fun _ => rfl

theorem Moves.trans {s t u : State} (h : Moves K s t) (k : Moves K t u) : Moves K s u where
  queue := k.queue.trans h.queue
  tabs := fun w => k.tabs (h.tabs w)
  p0 := fun e => (k.p0 e).trans (h.p0 e)
  p1 := fun e => (k.p1 e).trans (h.p1 e)
  p2 := fun e => (k.p2 e).trans (h.p2 e)
  p3 := fun e => (k.p3 e).trans (h.p3 e)
  p4 := fun e => (k.p4 e).trans (h.p4 e)
  p5 := fun e => (k.p5 e).trans (h.p5 e)
  p6 := fun e => (k.p6 e).trans (h.p6 e)
  p7 := fun e => (k.p7 e).trans (h.p7 e)
  p8 := fun e => (k.p8 e).trans (h.p8 e)
  p9 := fun e => (k.p9 e).trans (h.p9 e)
  p10 := fun e => (k.p10 e).trans (h.p10 e)
  p11 := fun e => (k.p11 e).trans (h.p11 e)
  p12 := fun e => (k.p12 e).trans (h.p12 e)
  p13 := fun e => (k.p13 e).trans (h.p13 e)
  p14 := fun e => (k.p14 e).trans (h.p14 e)
  p15 := fun e => (k.p15 e).trans (h.p15 e)
  p16 := fun e => (k.p16 e).trans (h.p16 e)
  p17 := fun e => (k.p17 e).trans (h.p17 e)
  p18 := fun e => (k.p18 e).trans (h.p18 e)
  p19 := fun e => (k.p19 e).trans (h.p19 e)
  p20 := fun e => (k.p20 e).trans (h.p20 e)
  p21 := fun e => (k.p21 e).trans (h.p21 e)
  p22 := fun e => (k.p22 e).trans (h.p22 e)
  p23 := fun e => (k.p23 e).trans (h.p23 e)
  p24 := fun e => (k.p24 e).trans (h.p24 e)
  p25 := fun e => (k.p25 e).trans (h.p25 e)
  p26 := fun e => (k.p26 e).trans (h.p26 e)
  p27 := fun e => (k.p27 e).trans (h.p27 e)
  p28 := fun e => (k.p28 e).trans (h.p28 e)
  p29 := fun e => (k.p29 e).trans (h.p29 e)
  p30 := fun e => (k.p30 e).trans (h.p30 e)
  p31 := fun e => (k.p31 e).trans (h.p31 e)
  p32 := fun e => (k.p32 e).trans (h.p32 e)
  p33 := fun e => (k.p33 e).trans (h.p33 e)
  p34 := fun e => (k.p34 e).trans (h.p34 e)
  p35 := fun e => (k.p35 e).trans (h.p35 e)

/-- A state whose tables are canonical when those before are, and of which each part is as before or within the set. -/
theorem Moves.into (h : Moves K s0 s) (q : t.pending = s.pending) (k : s.Wf → t.Wf)
    (e0 : t.now = s.now ∨ K.testBit 0 = true)
    (e1 : t.freeCount = s.freeCount ∨ K.testBit 1 = true)
    (e2 : t.regs = s.regs ∨ K.testBit 2 = true)
    (e3 : t.mem = s.mem ∨ K.testBit 3 = true)
    (e4 : t.ecc = s.ecc ∨ K.testBit 4 = true)
    (e5 : t.scrub = s.scrub ∨ K.testBit 5 = true)
    (e6 : t.flash = s.flash ∨ K.testBit 6 = true)
    (e7 : t.slices = s.slices ∨ K.testBit 7 = true)
    (e8 : t.top = s.top ∨ K.testBit 8 = true)
    (e9 : t.pwr = s.pwr ∨ K.testBit 9 = true)
    (e10 : t.fab = s.fab ∨ K.testBit 10 = true)
    (e11 : t.flt = s.flt ∨ K.testBit 11 = true)
    (e12 : t.intr = s.intr ∨ K.testBit 12 = true)
    (e13 : t.cfg = s.cfg ∨ K.testBit 13 = true)
    (e14 : t.hostA = s.hostA ∨ K.testBit 14 = true)
    (e15 : t.hostB = s.hostB ∨ K.testBit 15 = true)
    (e16 : t.nv = s.nv ∨ K.testBit 16 = true)
    (e17 : t.flm = s.flm ∨ K.testBit 17 = true)
    (e18 : t.sec = s.sec ∨ K.testBit 18 = true)
    (e19 : t.man = s.man ∨ K.testBit 19 = true)
    (e20 : t.xlk = s.xlk ∨ K.testBit 20 = true)
    (e21 : t.eng = s.eng ∨ K.testBit 21 = true)
    (e22 : t.lnd = s.lnd ∨ K.testBit 22 = true)
    (e23 : t.sel = s.sel ∨ K.testBit 23 = true)
    (e24 : t.ent = s.ent ∨ K.testBit 24 = true)
    (e25 : t.loop = s.loop ∨ K.testBit 25 = true)
    (e26 : t.ho = s.ho ∨ K.testBit 26 = true)
    (e27 : t.apl = s.apl ∨ K.testBit 27 = true)
    (e28 : t.out = s.out ∨ K.testBit 28 = true)
    (e29 : t.tsc = s.tsc ∨ K.testBit 29 = true)
    (e30 : t.tod = s.tod ∨ K.testBit 30 = true)
    (e31 : t.tasks = s.tasks ∨ K.testBit 31 = true)
    (e32 : t.prt = s.prt ∨ K.testBit 32 = true)
    (e33 : t.pte = s.pte ∨ K.testBit 33 = true)
    (e34 : t.berth = s.berth ∨ K.testBit 34 = true)
    (e35 : t.gens = s.gens ∨ K.testBit 35 = true) : Moves K s0 t :=
  h.trans {
    queue := q
    tabs := fun w => State.tablesWf_iff.2 (k (State.tablesWf_iff.1 w))
    p0 := fun n => e0.resolve_right (fun y => by rw [n] at y; cases y)
    p1 := fun n => e1.resolve_right (fun y => by rw [n] at y; cases y)
    p2 := fun n => e2.resolve_right (fun y => by rw [n] at y; cases y)
    p3 := fun n => e3.resolve_right (fun y => by rw [n] at y; cases y)
    p4 := fun n => e4.resolve_right (fun y => by rw [n] at y; cases y)
    p5 := fun n => e5.resolve_right (fun y => by rw [n] at y; cases y)
    p6 := fun n => e6.resolve_right (fun y => by rw [n] at y; cases y)
    p7 := fun n => e7.resolve_right (fun y => by rw [n] at y; cases y)
    p8 := fun n => e8.resolve_right (fun y => by rw [n] at y; cases y)
    p9 := fun n => e9.resolve_right (fun y => by rw [n] at y; cases y)
    p10 := fun n => e10.resolve_right (fun y => by rw [n] at y; cases y)
    p11 := fun n => e11.resolve_right (fun y => by rw [n] at y; cases y)
    p12 := fun n => e12.resolve_right (fun y => by rw [n] at y; cases y)
    p13 := fun n => e13.resolve_right (fun y => by rw [n] at y; cases y)
    p14 := fun n => e14.resolve_right (fun y => by rw [n] at y; cases y)
    p15 := fun n => e15.resolve_right (fun y => by rw [n] at y; cases y)
    p16 := fun n => e16.resolve_right (fun y => by rw [n] at y; cases y)
    p17 := fun n => e17.resolve_right (fun y => by rw [n] at y; cases y)
    p18 := fun n => e18.resolve_right (fun y => by rw [n] at y; cases y)
    p19 := fun n => e19.resolve_right (fun y => by rw [n] at y; cases y)
    p20 := fun n => e20.resolve_right (fun y => by rw [n] at y; cases y)
    p21 := fun n => e21.resolve_right (fun y => by rw [n] at y; cases y)
    p22 := fun n => e22.resolve_right (fun y => by rw [n] at y; cases y)
    p23 := fun n => e23.resolve_right (fun y => by rw [n] at y; cases y)
    p24 := fun n => e24.resolve_right (fun y => by rw [n] at y; cases y)
    p25 := fun n => e25.resolve_right (fun y => by rw [n] at y; cases y)
    p26 := fun n => e26.resolve_right (fun y => by rw [n] at y; cases y)
    p27 := fun n => e27.resolve_right (fun y => by rw [n] at y; cases y)
    p28 := fun n => e28.resolve_right (fun y => by rw [n] at y; cases y)
    p29 := fun n => e29.resolve_right (fun y => by rw [n] at y; cases y)
    p30 := fun n => e30.resolve_right (fun y => by rw [n] at y; cases y)
    p31 := fun n => e31.resolve_right (fun y => by rw [n] at y; cases y)
    p32 := fun n => e32.resolve_right (fun y => by rw [n] at y; cases y)
    p33 := fun n => e33.resolve_right (fun y => by rw [n] at y; cases y)
    p34 := fun n => e34.resolve_right (fun y => by rw [n] at y; cases y)
    p35 := fun n => e35.resolve_right (fun y => by rw [n] at y; cases y)
  }

theorem Moves.regs {x} (h : Moves K s0 s) (hx : Tab.wf regDefault s.regs = true → Tab.wf regDefault x = true)
    (hk : Sub 0x4 K := by first | assumption | exact Sub.mono (by assumption) rfl) :
    Moves K s0 { s with regs := x } :=
  h.into rfl (fun w => ⟨hx w.regs, w.mem, w.ecc, w.scrub, w.flash, w.lnd, w.sel, w.ent, w.loop, w.ho, w.apl, w.out, w.tsc, w.tod, w.tasks, w.prt, w.pte, w.berth, w.gens, w.shadow, w.array, w.incoming⟩)
    (.inl rfl) (.inl rfl) (.inr (hk.bit rfl)) (.inl rfl) (.inl rfl) (.inl rfl) (.inl rfl) (.inl rfl) (.inl rfl) (.inl rfl) (.inl rfl) (.inl rfl) (.inl rfl) (.inl rfl) (.inl rfl) (.inl rfl) (.inl rfl) (.inl rfl) (.inl rfl) (.inl rfl) (.inl rfl) (.inl rfl) (.inl rfl) (.inl rfl) (.inl rfl) (.inl rfl) (.inl rfl) (.inl rfl) (.inl rfl) (.inl rfl) (.inl rfl) (.inl rfl) (.inl rfl) (.inl rfl) (.inl rfl) (.inl rfl)

theorem Moves.mem {x} (h : Moves K s0 s) (hx : Tab.wf memDefault s.mem = true → Tab.wf memDefault x = true)
    (hk : Sub 0x8 K := by first | assumption | exact Sub.mono (by assumption) rfl) :
    Moves K s0 { s with mem := x } :=
  h.into rfl (fun w => ⟨w.regs, hx w.mem, w.ecc, w.scrub, w.flash, w.lnd, w.sel, w.ent, w.loop, w.ho, w.apl, w.out, w.tsc, w.tod, w.tasks, w.prt, w.pte, w.berth, w.gens, w.shadow, w.array, w.incoming⟩)
    (.inl rfl) (.inl rfl) (.inl rfl) (.inr (hk.bit rfl)) (.inl rfl) (.inl rfl) (.inl rfl) (.inl rfl) (.inl rfl) (.inl rfl) (.inl rfl) (.inl rfl) (.inl rfl) (.inl rfl) (.inl rfl) (.inl rfl) (.inl rfl) (.inl rfl) (.inl rfl) (.inl rfl) (.inl rfl) (.inl rfl) (.inl rfl) (.inl rfl) (.inl rfl) (.inl rfl) (.inl rfl) (.inl rfl) (.inl rfl) (.inl rfl) (.inl rfl) (.inl rfl) (.inl rfl) (.inl rfl) (.inl rfl) (.inl rfl)

theorem Moves.ecc {x} (h : Moves K s0 s) (hx : Tab.wf (fun _ => 0) s.ecc = true → Tab.wf (fun _ => 0) x = true)
    (hk : Sub 0x10 K := by first | assumption | exact Sub.mono (by assumption) rfl) :
    Moves K s0 { s with ecc := x } :=
  h.into rfl (fun w => ⟨w.regs, w.mem, hx w.ecc, w.scrub, w.flash, w.lnd, w.sel, w.ent, w.loop, w.ho, w.apl, w.out, w.tsc, w.tod, w.tasks, w.prt, w.pte, w.berth, w.gens, w.shadow, w.array, w.incoming⟩)
    (.inl rfl) (.inl rfl) (.inl rfl) (.inl rfl) (.inr (hk.bit rfl)) (.inl rfl) (.inl rfl) (.inl rfl) (.inl rfl) (.inl rfl) (.inl rfl) (.inl rfl) (.inl rfl) (.inl rfl) (.inl rfl) (.inl rfl) (.inl rfl) (.inl rfl) (.inl rfl) (.inl rfl) (.inl rfl) (.inl rfl) (.inl rfl) (.inl rfl) (.inl rfl) (.inl rfl) (.inl rfl) (.inl rfl) (.inl rfl) (.inl rfl) (.inl rfl) (.inl rfl) (.inl rfl) (.inl rfl) (.inl rfl) (.inl rfl)

theorem Moves.scrub {x} (h : Moves K s0 s) (hx : Tab.wf (fun _ => 0) s.scrub = true → Tab.wf (fun _ => 0) x = true)
    (hk : Sub 0x20 K := by first | assumption | exact Sub.mono (by assumption) rfl) :
    Moves K s0 { s with scrub := x } :=
  h.into rfl (fun w => ⟨w.regs, w.mem, w.ecc, hx w.scrub, w.flash, w.lnd, w.sel, w.ent, w.loop, w.ho, w.apl, w.out, w.tsc, w.tod, w.tasks, w.prt, w.pte, w.berth, w.gens, w.shadow, w.array, w.incoming⟩)
    (.inl rfl) (.inl rfl) (.inl rfl) (.inl rfl) (.inl rfl) (.inr (hk.bit rfl)) (.inl rfl) (.inl rfl) (.inl rfl) (.inl rfl) (.inl rfl) (.inl rfl) (.inl rfl) (.inl rfl) (.inl rfl) (.inl rfl) (.inl rfl) (.inl rfl) (.inl rfl) (.inl rfl) (.inl rfl) (.inl rfl) (.inl rfl) (.inl rfl) (.inl rfl) (.inl rfl) (.inl rfl) (.inl rfl) (.inl rfl) (.inl rfl) (.inl rfl) (.inl rfl) (.inl rfl) (.inl rfl) (.inl rfl) (.inl rfl)

theorem Moves.flash {x} (h : Moves K s0 s) (hx : Tab.wf memDefault s.flash = true → Tab.wf memDefault x = true)
    (hk : Sub 0x40 K := by first | assumption | exact Sub.mono (by assumption) rfl) :
    Moves K s0 { s with flash := x } :=
  h.into rfl (fun w => ⟨w.regs, w.mem, w.ecc, w.scrub, hx w.flash, w.lnd, w.sel, w.ent, w.loop, w.ho, w.apl, w.out, w.tsc, w.tod, w.tasks, w.prt, w.pte, w.berth, w.gens, w.shadow, w.array, w.incoming⟩)
    (.inl rfl) (.inl rfl) (.inl rfl) (.inl rfl) (.inl rfl) (.inl rfl) (.inr (hk.bit rfl)) (.inl rfl) (.inl rfl) (.inl rfl) (.inl rfl) (.inl rfl) (.inl rfl) (.inl rfl) (.inl rfl) (.inl rfl) (.inl rfl) (.inl rfl) (.inl rfl) (.inl rfl) (.inl rfl) (.inl rfl) (.inl rfl) (.inl rfl) (.inl rfl) (.inl rfl) (.inl rfl) (.inl rfl) (.inl rfl) (.inl rfl) (.inl rfl) (.inl rfl) (.inl rfl) (.inl rfl) (.inl rfl) (.inl rfl)

theorem Moves.lnd {x} (h : Moves K s0 s) (hx : Tab.wf (fun _ => {}) s.lnd = true → Tab.wf (fun _ => {}) x = true)
    (hk : Sub 0x400000 K := by first | assumption | exact Sub.mono (by assumption) rfl) :
    Moves K s0 { s with lnd := x } :=
  h.into rfl (fun w => ⟨w.regs, w.mem, w.ecc, w.scrub, w.flash, hx w.lnd, w.sel, w.ent, w.loop, w.ho, w.apl, w.out, w.tsc, w.tod, w.tasks, w.prt, w.pte, w.berth, w.gens, w.shadow, w.array, w.incoming⟩)
    (.inl rfl) (.inl rfl) (.inl rfl) (.inl rfl) (.inl rfl) (.inl rfl) (.inl rfl) (.inl rfl) (.inl rfl) (.inl rfl) (.inl rfl) (.inl rfl) (.inl rfl) (.inl rfl) (.inl rfl) (.inl rfl) (.inl rfl) (.inl rfl) (.inl rfl) (.inl rfl) (.inl rfl) (.inl rfl) (.inr (hk.bit rfl)) (.inl rfl) (.inl rfl) (.inl rfl) (.inl rfl) (.inl rfl) (.inl rfl) (.inl rfl) (.inl rfl) (.inl rfl) (.inl rfl) (.inl rfl) (.inl rfl) (.inl rfl)

theorem Moves.sel {x} (h : Moves K s0 s) (hx : Tab.wf (fun _ => {}) s.sel = true → Tab.wf (fun _ => {}) x = true)
    (hk : Sub 0x800000 K := by first | assumption | exact Sub.mono (by assumption) rfl) :
    Moves K s0 { s with sel := x } :=
  h.into rfl (fun w => ⟨w.regs, w.mem, w.ecc, w.scrub, w.flash, w.lnd, hx w.sel, w.ent, w.loop, w.ho, w.apl, w.out, w.tsc, w.tod, w.tasks, w.prt, w.pte, w.berth, w.gens, w.shadow, w.array, w.incoming⟩)
    (.inl rfl) (.inl rfl) (.inl rfl) (.inl rfl) (.inl rfl) (.inl rfl) (.inl rfl) (.inl rfl) (.inl rfl) (.inl rfl) (.inl rfl) (.inl rfl) (.inl rfl) (.inl rfl) (.inl rfl) (.inl rfl) (.inl rfl) (.inl rfl) (.inl rfl) (.inl rfl) (.inl rfl) (.inl rfl) (.inl rfl) (.inr (hk.bit rfl)) (.inl rfl) (.inl rfl) (.inl rfl) (.inl rfl) (.inl rfl) (.inl rfl) (.inl rfl) (.inl rfl) (.inl rfl) (.inl rfl) (.inl rfl) (.inl rfl)

theorem Moves.ent {x} (h : Moves K s0 s) (hx : Tab.wf (fun _ => {}) s.ent = true → Tab.wf (fun _ => {}) x = true)
    (hk : Sub 0x1000000 K := by first | assumption | exact Sub.mono (by assumption) rfl) :
    Moves K s0 { s with ent := x } :=
  h.into rfl (fun w => ⟨w.regs, w.mem, w.ecc, w.scrub, w.flash, w.lnd, w.sel, hx w.ent, w.loop, w.ho, w.apl, w.out, w.tsc, w.tod, w.tasks, w.prt, w.pte, w.berth, w.gens, w.shadow, w.array, w.incoming⟩)
    (.inl rfl) (.inl rfl) (.inl rfl) (.inl rfl) (.inl rfl) (.inl rfl) (.inl rfl) (.inl rfl) (.inl rfl) (.inl rfl) (.inl rfl) (.inl rfl) (.inl rfl) (.inl rfl) (.inl rfl) (.inl rfl) (.inl rfl) (.inl rfl) (.inl rfl) (.inl rfl) (.inl rfl) (.inl rfl) (.inl rfl) (.inl rfl) (.inr (hk.bit rfl)) (.inl rfl) (.inl rfl) (.inl rfl) (.inl rfl) (.inl rfl) (.inl rfl) (.inl rfl) (.inl rfl) (.inl rfl) (.inl rfl) (.inl rfl)

theorem Moves.loop {x} (h : Moves K s0 s) (hx : Tab.wf (fun _ => {}) s.loop = true → Tab.wf (fun _ => {}) x = true)
    (hk : Sub 0x2000000 K := by first | assumption | exact Sub.mono (by assumption) rfl) :
    Moves K s0 { s with loop := x } :=
  h.into rfl (fun w => ⟨w.regs, w.mem, w.ecc, w.scrub, w.flash, w.lnd, w.sel, w.ent, hx w.loop, w.ho, w.apl, w.out, w.tsc, w.tod, w.tasks, w.prt, w.pte, w.berth, w.gens, w.shadow, w.array, w.incoming⟩)
    (.inl rfl) (.inl rfl) (.inl rfl) (.inl rfl) (.inl rfl) (.inl rfl) (.inl rfl) (.inl rfl) (.inl rfl) (.inl rfl) (.inl rfl) (.inl rfl) (.inl rfl) (.inl rfl) (.inl rfl) (.inl rfl) (.inl rfl) (.inl rfl) (.inl rfl) (.inl rfl) (.inl rfl) (.inl rfl) (.inl rfl) (.inl rfl) (.inl rfl) (.inr (hk.bit rfl)) (.inl rfl) (.inl rfl) (.inl rfl) (.inl rfl) (.inl rfl) (.inl rfl) (.inl rfl) (.inl rfl) (.inl rfl) (.inl rfl)

theorem Moves.ho {x} (h : Moves K s0 s) (hx : Tab.wf (fun _ => {}) s.ho = true → Tab.wf (fun _ => {}) x = true)
    (hk : Sub 0x4000000 K := by first | assumption | exact Sub.mono (by assumption) rfl) :
    Moves K s0 { s with ho := x } :=
  h.into rfl (fun w => ⟨w.regs, w.mem, w.ecc, w.scrub, w.flash, w.lnd, w.sel, w.ent, w.loop, hx w.ho, w.apl, w.out, w.tsc, w.tod, w.tasks, w.prt, w.pte, w.berth, w.gens, w.shadow, w.array, w.incoming⟩)
    (.inl rfl) (.inl rfl) (.inl rfl) (.inl rfl) (.inl rfl) (.inl rfl) (.inl rfl) (.inl rfl) (.inl rfl) (.inl rfl) (.inl rfl) (.inl rfl) (.inl rfl) (.inl rfl) (.inl rfl) (.inl rfl) (.inl rfl) (.inl rfl) (.inl rfl) (.inl rfl) (.inl rfl) (.inl rfl) (.inl rfl) (.inl rfl) (.inl rfl) (.inl rfl) (.inr (hk.bit rfl)) (.inl rfl) (.inl rfl) (.inl rfl) (.inl rfl) (.inl rfl) (.inl rfl) (.inl rfl) (.inl rfl) (.inl rfl)

theorem Moves.apl {x} (h : Moves K s0 s) (hx : Tab.wf (fun _ => {}) s.apl = true → Tab.wf (fun _ => {}) x = true)
    (hk : Sub 0x8000000 K := by first | assumption | exact Sub.mono (by assumption) rfl) :
    Moves K s0 { s with apl := x } :=
  h.into rfl (fun w => ⟨w.regs, w.mem, w.ecc, w.scrub, w.flash, w.lnd, w.sel, w.ent, w.loop, w.ho, hx w.apl, w.out, w.tsc, w.tod, w.tasks, w.prt, w.pte, w.berth, w.gens, w.shadow, w.array, w.incoming⟩)
    (.inl rfl) (.inl rfl) (.inl rfl) (.inl rfl) (.inl rfl) (.inl rfl) (.inl rfl) (.inl rfl) (.inl rfl) (.inl rfl) (.inl rfl) (.inl rfl) (.inl rfl) (.inl rfl) (.inl rfl) (.inl rfl) (.inl rfl) (.inl rfl) (.inl rfl) (.inl rfl) (.inl rfl) (.inl rfl) (.inl rfl) (.inl rfl) (.inl rfl) (.inl rfl) (.inl rfl) (.inr (hk.bit rfl)) (.inl rfl) (.inl rfl) (.inl rfl) (.inl rfl) (.inl rfl) (.inl rfl) (.inl rfl) (.inl rfl)

theorem Moves.out {x} (h : Moves K s0 s) (hx : Tab.wf (fun _ => {}) s.out = true → Tab.wf (fun _ => {}) x = true)
    (hk : Sub 0x10000000 K := by first | assumption | exact Sub.mono (by assumption) rfl) :
    Moves K s0 { s with out := x } :=
  h.into rfl (fun w => ⟨w.regs, w.mem, w.ecc, w.scrub, w.flash, w.lnd, w.sel, w.ent, w.loop, w.ho, w.apl, hx w.out, w.tsc, w.tod, w.tasks, w.prt, w.pte, w.berth, w.gens, w.shadow, w.array, w.incoming⟩)
    (.inl rfl) (.inl rfl) (.inl rfl) (.inl rfl) (.inl rfl) (.inl rfl) (.inl rfl) (.inl rfl) (.inl rfl) (.inl rfl) (.inl rfl) (.inl rfl) (.inl rfl) (.inl rfl) (.inl rfl) (.inl rfl) (.inl rfl) (.inl rfl) (.inl rfl) (.inl rfl) (.inl rfl) (.inl rfl) (.inl rfl) (.inl rfl) (.inl rfl) (.inl rfl) (.inl rfl) (.inl rfl) (.inr (hk.bit rfl)) (.inl rfl) (.inl rfl) (.inl rfl) (.inl rfl) (.inl rfl) (.inl rfl) (.inl rfl)

theorem Moves.tsc {x} (h : Moves K s0 s) (hx : Tab.wf (fun _ => {}) s.tsc = true → Tab.wf (fun _ => {}) x = true)
    (hk : Sub 0x20000000 K := by first | assumption | exact Sub.mono (by assumption) rfl) :
    Moves K s0 { s with tsc := x } :=
  h.into rfl (fun w => ⟨w.regs, w.mem, w.ecc, w.scrub, w.flash, w.lnd, w.sel, w.ent, w.loop, w.ho, w.apl, w.out, hx w.tsc, w.tod, w.tasks, w.prt, w.pte, w.berth, w.gens, w.shadow, w.array, w.incoming⟩)
    (.inl rfl) (.inl rfl) (.inl rfl) (.inl rfl) (.inl rfl) (.inl rfl) (.inl rfl) (.inl rfl) (.inl rfl) (.inl rfl) (.inl rfl) (.inl rfl) (.inl rfl) (.inl rfl) (.inl rfl) (.inl rfl) (.inl rfl) (.inl rfl) (.inl rfl) (.inl rfl) (.inl rfl) (.inl rfl) (.inl rfl) (.inl rfl) (.inl rfl) (.inl rfl) (.inl rfl) (.inl rfl) (.inl rfl) (.inr (hk.bit rfl)) (.inl rfl) (.inl rfl) (.inl rfl) (.inl rfl) (.inl rfl) (.inl rfl)

theorem Moves.tod {x} (h : Moves K s0 s) (hx : Tab.wf (fun _ => {}) s.tod = true → Tab.wf (fun _ => {}) x = true)
    (hk : Sub 0x40000000 K := by first | assumption | exact Sub.mono (by assumption) rfl) :
    Moves K s0 { s with tod := x } :=
  h.into rfl (fun w => ⟨w.regs, w.mem, w.ecc, w.scrub, w.flash, w.lnd, w.sel, w.ent, w.loop, w.ho, w.apl, w.out, w.tsc, hx w.tod, w.tasks, w.prt, w.pte, w.berth, w.gens, w.shadow, w.array, w.incoming⟩)
    (.inl rfl) (.inl rfl) (.inl rfl) (.inl rfl) (.inl rfl) (.inl rfl) (.inl rfl) (.inl rfl) (.inl rfl) (.inl rfl) (.inl rfl) (.inl rfl) (.inl rfl) (.inl rfl) (.inl rfl) (.inl rfl) (.inl rfl) (.inl rfl) (.inl rfl) (.inl rfl) (.inl rfl) (.inl rfl) (.inl rfl) (.inl rfl) (.inl rfl) (.inl rfl) (.inl rfl) (.inl rfl) (.inl rfl) (.inl rfl) (.inr (hk.bit rfl)) (.inl rfl) (.inl rfl) (.inl rfl) (.inl rfl) (.inl rfl)

theorem Moves.tasks {x} (h : Moves K s0 s) (hx : Tab.wf (fun _ => []) s.tasks = true → Tab.wf (fun _ => []) x = true)
    (hk : Sub 0x80000000 K := by first | assumption | exact Sub.mono (by assumption) rfl) :
    Moves K s0 { s with tasks := x } :=
  h.into rfl (fun w => ⟨w.regs, w.mem, w.ecc, w.scrub, w.flash, w.lnd, w.sel, w.ent, w.loop, w.ho, w.apl, w.out, w.tsc, w.tod, hx w.tasks, w.prt, w.pte, w.berth, w.gens, w.shadow, w.array, w.incoming⟩)
    (.inl rfl) (.inl rfl) (.inl rfl) (.inl rfl) (.inl rfl) (.inl rfl) (.inl rfl) (.inl rfl) (.inl rfl) (.inl rfl) (.inl rfl) (.inl rfl) (.inl rfl) (.inl rfl) (.inl rfl) (.inl rfl) (.inl rfl) (.inl rfl) (.inl rfl) (.inl rfl) (.inl rfl) (.inl rfl) (.inl rfl) (.inl rfl) (.inl rfl) (.inl rfl) (.inl rfl) (.inl rfl) (.inl rfl) (.inl rfl) (.inl rfl) (.inr (hk.bit rfl)) (.inl rfl) (.inl rfl) (.inl rfl) (.inl rfl)

theorem Moves.prt {x} (h : Moves K s0 s) (hx : Tab.wf (fun _ => {}) s.prt = true → Tab.wf (fun _ => {}) x = true)
    (hk : Sub 0x100000000 K := by first | assumption | exact Sub.mono (by assumption) rfl) :
    Moves K s0 { s with prt := x } :=
  h.into rfl (fun w => ⟨w.regs, w.mem, w.ecc, w.scrub, w.flash, w.lnd, w.sel, w.ent, w.loop, w.ho, w.apl, w.out, w.tsc, w.tod, w.tasks, hx w.prt, w.pte, w.berth, w.gens, w.shadow, w.array, w.incoming⟩)
    (.inl rfl) (.inl rfl) (.inl rfl) (.inl rfl) (.inl rfl) (.inl rfl) (.inl rfl) (.inl rfl) (.inl rfl) (.inl rfl) (.inl rfl) (.inl rfl) (.inl rfl) (.inl rfl) (.inl rfl) (.inl rfl) (.inl rfl) (.inl rfl) (.inl rfl) (.inl rfl) (.inl rfl) (.inl rfl) (.inl rfl) (.inl rfl) (.inl rfl) (.inl rfl) (.inl rfl) (.inl rfl) (.inl rfl) (.inl rfl) (.inl rfl) (.inl rfl) (.inr (hk.bit rfl)) (.inl rfl) (.inl rfl) (.inl rfl)

theorem Moves.pte {x} (h : Moves K s0 s) (hx : Tab.wf (fun _ => {}) s.pte = true → Tab.wf (fun _ => {}) x = true)
    (hk : Sub 0x200000000 K := by first | assumption | exact Sub.mono (by assumption) rfl) :
    Moves K s0 { s with pte := x } :=
  h.into rfl (fun w => ⟨w.regs, w.mem, w.ecc, w.scrub, w.flash, w.lnd, w.sel, w.ent, w.loop, w.ho, w.apl, w.out, w.tsc, w.tod, w.tasks, w.prt, hx w.pte, w.berth, w.gens, w.shadow, w.array, w.incoming⟩)
    (.inl rfl) (.inl rfl) (.inl rfl) (.inl rfl) (.inl rfl) (.inl rfl) (.inl rfl) (.inl rfl) (.inl rfl) (.inl rfl) (.inl rfl) (.inl rfl) (.inl rfl) (.inl rfl) (.inl rfl) (.inl rfl) (.inl rfl) (.inl rfl) (.inl rfl) (.inl rfl) (.inl rfl) (.inl rfl) (.inl rfl) (.inl rfl) (.inl rfl) (.inl rfl) (.inl rfl) (.inl rfl) (.inl rfl) (.inl rfl) (.inl rfl) (.inl rfl) (.inl rfl) (.inr (hk.bit rfl)) (.inl rfl) (.inl rfl)

theorem Moves.berth {x} (h : Moves K s0 s) (hx : Tab.wf (fun _ => {}) s.berth = true → Tab.wf (fun _ => {}) x = true)
    (hk : Sub 0x400000000 K := by first | assumption | exact Sub.mono (by assumption) rfl) :
    Moves K s0 { s with berth := x } :=
  h.into rfl (fun w => ⟨w.regs, w.mem, w.ecc, w.scrub, w.flash, w.lnd, w.sel, w.ent, w.loop, w.ho, w.apl, w.out, w.tsc, w.tod, w.tasks, w.prt, w.pte, hx w.berth, w.gens, w.shadow, w.array, w.incoming⟩)
    (.inl rfl) (.inl rfl) (.inl rfl) (.inl rfl) (.inl rfl) (.inl rfl) (.inl rfl) (.inl rfl) (.inl rfl) (.inl rfl) (.inl rfl) (.inl rfl) (.inl rfl) (.inl rfl) (.inl rfl) (.inl rfl) (.inl rfl) (.inl rfl) (.inl rfl) (.inl rfl) (.inl rfl) (.inl rfl) (.inl rfl) (.inl rfl) (.inl rfl) (.inl rfl) (.inl rfl) (.inl rfl) (.inl rfl) (.inl rfl) (.inl rfl) (.inl rfl) (.inl rfl) (.inl rfl) (.inr (hk.bit rfl)) (.inl rfl)

theorem Moves.gens {x} (h : Moves K s0 s) (hx : Tab.wf (fun _ => 0) s.gens = true → Tab.wf (fun _ => 0) x = true)
    (hk : Sub 0x800000000 K := by first | assumption | exact Sub.mono (by assumption) rfl) :
    Moves K s0 { s with gens := x } :=
  h.into rfl (fun w => ⟨w.regs, w.mem, w.ecc, w.scrub, w.flash, w.lnd, w.sel, w.ent, w.loop, w.ho, w.apl, w.out, w.tsc, w.tod, w.tasks, w.prt, w.pte, w.berth, hx w.gens, w.shadow, w.array, w.incoming⟩)
    (.inl rfl) (.inl rfl) (.inl rfl) (.inl rfl) (.inl rfl) (.inl rfl) (.inl rfl) (.inl rfl) (.inl rfl) (.inl rfl) (.inl rfl) (.inl rfl) (.inl rfl) (.inl rfl) (.inl rfl) (.inl rfl) (.inl rfl) (.inl rfl) (.inl rfl) (.inl rfl) (.inl rfl) (.inl rfl) (.inl rfl) (.inl rfl) (.inl rfl) (.inl rfl) (.inl rfl) (.inl rfl) (.inl rfl) (.inl rfl) (.inl rfl) (.inl rfl) (.inl rfl) (.inl rfl) (.inl rfl) (.inr (hk.bit rfl))

theorem Moves.nv {x} (h : Moves K s0 s) (h1 : Tab.wf memDefault s.nv.shadow = true → Tab.wf memDefault x.shadow = true)
    (h2 : Tab.wf memDefault s.nv.array = true → Tab.wf memDefault x.array = true)
    (h3 : Tab.wf memDefault s.nv.incoming = true → Tab.wf memDefault x.incoming = true)
    (hk : Sub 0x10000 K := by first | assumption | exact Sub.mono (by assumption) rfl) :
    Moves K s0 { s with nv := x } :=
  h.into rfl (fun w => ⟨w.regs, w.mem, w.ecc, w.scrub, w.flash, w.lnd, w.sel, w.ent, w.loop, w.ho, w.apl, w.out, w.tsc, w.tod, w.tasks, w.prt, w.pte, w.berth, w.gens, h1 w.shadow, h2 w.array, h3 w.incoming⟩)
    (.inl rfl) (.inl rfl) (.inl rfl) (.inl rfl) (.inl rfl) (.inl rfl) (.inl rfl) (.inl rfl) (.inl rfl) (.inl rfl) (.inl rfl) (.inl rfl) (.inl rfl) (.inl rfl) (.inl rfl) (.inl rfl) (.inr (hk.bit rfl)) (.inl rfl) (.inl rfl) (.inl rfl) (.inl rfl) (.inl rfl) (.inl rfl) (.inl rfl) (.inl rfl) (.inl rfl) (.inl rfl) (.inl rfl) (.inl rfl) (.inl rfl) (.inl rfl) (.inl rfl) (.inl rfl) (.inl rfl) (.inl rfl) (.inl rfl)

/-! Changes of what is no table. -/

theorem Moves.plain {x_now x_freeCount x_slices x_top x_pwr x_fab x_flt x_intr x_cfg x_hostA x_hostB x_flm x_sec x_man x_xlk x_eng} (h : Moves K s0 s)
    (e0 : x_now = s.now ∨ K.testBit 0 = true) (e1 : x_freeCount = s.freeCount ∨ K.testBit 1 = true) (e7 : x_slices = s.slices ∨ K.testBit 7 = true) (e8 : x_top = s.top ∨ K.testBit 8 = true) (e9 : x_pwr = s.pwr ∨ K.testBit 9 = true) (e10 : x_fab = s.fab ∨ K.testBit 10 = true) (e11 : x_flt = s.flt ∨ K.testBit 11 = true) (e12 : x_intr = s.intr ∨ K.testBit 12 = true) (e13 : x_cfg = s.cfg ∨ K.testBit 13 = true) (e14 : x_hostA = s.hostA ∨ K.testBit 14 = true) (e15 : x_hostB = s.hostB ∨ K.testBit 15 = true) (e17 : x_flm = s.flm ∨ K.testBit 17 = true) (e18 : x_sec = s.sec ∨ K.testBit 18 = true) (e19 : x_man = s.man ∨ K.testBit 19 = true) (e20 : x_xlk = s.xlk ∨ K.testBit 20 = true) (e21 : x_eng = s.eng ∨ K.testBit 21 = true) :
    Moves K s0 (⟨s.pending, x_now, x_freeCount, s.regs, s.mem, s.ecc, s.scrub, s.flash, x_slices, x_top, x_pwr, x_fab, x_flt, x_intr, x_cfg, x_hostA, x_hostB, s.nv, x_flm, x_sec, x_man, x_xlk, x_eng, s.lnd, s.sel, s.ent, s.loop, s.ho, s.apl, s.out, s.tsc, s.tod, s.tasks, s.prt, s.pte, s.berth, s.gens⟩ : State) :=
  h.into rfl (fun w => ⟨w.regs, w.mem, w.ecc, w.scrub, w.flash, w.lnd, w.sel, w.ent, w.loop, w.ho, w.apl, w.out, w.tsc, w.tod, w.tasks, w.prt, w.pte, w.berth, w.gens, w.shadow, w.array, w.incoming⟩)
    e0 e1 (.inl rfl) (.inl rfl) (.inl rfl) (.inl rfl) (.inl rfl) e7 e8 e9 e10 e11 e12 e13 e14 e15 (.inl rfl) e17 e18 e19 e20 e21 (.inl rfl) (.inl rfl) (.inl rfl) (.inl rfl) (.inl rfl) (.inl rfl) (.inl rfl) (.inl rfl) (.inl rfl) (.inl rfl) (.inl rfl) (.inl rfl) (.inl rfl) (.inl rfl)

theorem Moves.plainNv {x_now x_freeCount x_slices x_top x_pwr x_fab x_flt x_intr x_cfg x_hostA x_hostB x_nv x_flm x_sec x_man x_xlk x_eng} (h : Moves K s0 s) (h1 : x_nv.shadow = s.nv.shadow) (h2 : x_nv.array = s.nv.array)
    (h3 : x_nv.commit = s.nv.commit)
    (e0 : x_now = s.now ∨ K.testBit 0 = true) (e1 : x_freeCount = s.freeCount ∨ K.testBit 1 = true) (e7 : x_slices = s.slices ∨ K.testBit 7 = true) (e8 : x_top = s.top ∨ K.testBit 8 = true) (e9 : x_pwr = s.pwr ∨ K.testBit 9 = true) (e10 : x_fab = s.fab ∨ K.testBit 10 = true) (e11 : x_flt = s.flt ∨ K.testBit 11 = true) (e12 : x_intr = s.intr ∨ K.testBit 12 = true) (e13 : x_cfg = s.cfg ∨ K.testBit 13 = true) (e14 : x_hostA = s.hostA ∨ K.testBit 14 = true) (e15 : x_hostB = s.hostB ∨ K.testBit 15 = true) (e16 : x_nv = s.nv ∨ K.testBit 16 = true) (e17 : x_flm = s.flm ∨ K.testBit 17 = true) (e18 : x_sec = s.sec ∨ K.testBit 18 = true) (e19 : x_man = s.man ∨ K.testBit 19 = true) (e20 : x_xlk = s.xlk ∨ K.testBit 20 = true) (e21 : x_eng = s.eng ∨ K.testBit 21 = true) :
    Moves K s0 (⟨s.pending, x_now, x_freeCount, s.regs, s.mem, s.ecc, s.scrub, s.flash, x_slices, x_top, x_pwr, x_fab, x_flt, x_intr, x_cfg, x_hostA, x_hostB, x_nv, x_flm, x_sec, x_man, x_xlk, x_eng, s.lnd, s.sel, s.ent, s.loop, s.ho, s.apl, s.out, s.tsc, s.tod, s.tasks, s.prt, s.pte, s.berth, s.gens⟩ : State) :=
  h.into rfl (fun w => ⟨w.regs, w.mem, w.ecc, w.scrub, w.flash, w.lnd, w.sel, w.ent, w.loop, w.ho, w.apl, w.out, w.tsc, w.tod, w.tasks, w.prt, w.pte, w.berth, w.gens, by rw [h1]; exact w.shadow, by rw [h2]; exact w.array, by unfold NvCore.incoming; rw [h3]; exact w.incoming⟩)
    e0 e1 (.inl rfl) (.inl rfl) (.inl rfl) (.inl rfl) (.inl rfl) e7 e8 e9 e10 e11 e12 e13 e14 e15 e16 e17 e18 e19 e20 e21 (.inl rfl) (.inl rfl) (.inl rfl) (.inl rfl) (.inl rfl) (.inl rfl) (.inl rfl) (.inl rfl) (.inl rfl) (.inl rfl) (.inl rfl) (.inl rfl) (.inl rfl) (.inl rfl)

/-! Choices and repetitions. -/

theorem Moves.ite {c : Prop} [Decidable c] (h : Moves K s0 s) (k : Moves K s0 t) : Moves K s0 (if c then s else t) := by
  split
  · exact h
  · exact k

theorem Moves.foldl {α : Type} {g : State → α → State} (l : List α) (h : Moves K s0 s)
    (hg : ∀ t x, Moves K s0 t → Moves K s0 (g t x)) : Moves K s0 (l.foldl g s) := by
  induction l generalizing s with
  | nil => exact h
  | cons x l ih => exact ih (hg _ _ h)

theorem Moves.forL {α : Type} {g : State → α → State} {l : List α} (h : Moves K s0 s)
    (hg : ∀ t x, Moves K s0 t → Moves K s0 (g t x)) : Moves K s0 (s.forL l g) := Moves.foldl l h hg

theorem Moves.forN {g : State → Nat → State} {n : Nat} (h : Moves K s0 s)
    (hg : ∀ t x, Moves K s0 t → Moves K s0 (g t x)) : Moves K s0 (s.forN n g) := Moves.foldl _ h hg

theorem Moves.when {g : State → State} {c : Bool} (h : Moves K s0 s) (hg : ∀ t, Moves K s0 t → Moves K s0 (g t)) :
    Moves K s0 (s.when c g) := by
  unfold State.when
  split
  · exact hg _ h
  · exact h

/-! Writes of registers, memory and the units' own state. -/

theorem Moves.setw {k v : Nat} (h : Moves K s0 s)
    (hk : Sub 0x4 K := by first | assumption | exact Sub.mono (by assumption) rfl) : Moves K s0 (s.setw k v) :=
  h.regs (Tab.wf_set _ _ _)
theorem Moves.setf {x v} (h : Moves K s0 s)
    (hk : Sub 0x4 K := by first | assumption | exact Sub.mono (by assumption) rfl) : Moves K s0 (s.setf x v) := h.setw
theorem Moves.setb {x v} (h : Moves K s0 s)
    (hk : Sub 0x4 K := by first | assumption | exact Sub.mono (by assumption) rfl) : Moves K s0 (s.setb x v) := h.setw
theorem Moves.seti {x v} (h : Moves K s0 s)
    (hk : Sub 0x4 K := by first | assumption | exact Sub.mono (by assumption) rfl) : Moves K s0 (s.seti x v) := h.setw
theorem Moves.setSat {x v} (h : Moves K s0 s)
    (hk : Sub 0x4 K := by first | assumption | exact Sub.mono (by assumption) rfl) : Moves K s0 (s.setSat x v) := h.setw
theorem Moves.incBy {x v} (h : Moves K s0 s)
    (hk : Sub 0x4 K := by first | assumption | exact Sub.mono (by assumption) rfl) : Moves K s0 (s.incBy x v) := h.setw
theorem Moves.inc {x} (h : Moves K s0 s)
    (hk : Sub 0x4 K := by first | assumption | exact Sub.mono (by assumption) rfl) : Moves K s0 (s.inc x) := h.setw
theorem Moves.incWrap {x} (h : Moves K s0 s)
    (hk : Sub 0x4 K := by first | assumption | exact Sub.mono (by assumption) rfl) : Moves K s0 (s.incWrap x) := h.setw
theorem Moves.setBit {k i : Nat} (h : Moves K s0 s)
    (hk : Sub 0x4 K := by first | assumption | exact Sub.mono (by assumption) rfl) : Moves K s0 (s.setBit k i) := h.setw
theorem Moves.took (h : Moves K s0 s)
    (hk : Sub 0x2 K := by first | assumption | exact Sub.mono (by assumption) rfl) : Moves K s0 s.took :=
  h.into rfl (fun w => ⟨w.regs, w.mem, w.ecc, w.scrub, w.flash, w.lnd, w.sel, w.ent, w.loop, w.ho, w.apl, w.out, w.tsc, w.tod, w.tasks, w.prt, w.pte, w.berth, w.gens, w.shadow, w.array, w.incoming⟩)
    (.inl rfl) (.inr (hk.bit rfl)) (.inl rfl) (.inl rfl) (.inl rfl) (.inl rfl) (.inl rfl) (.inl rfl) (.inl rfl) (.inl rfl) (.inl rfl) (.inl rfl) (.inl rfl) (.inl rfl) (.inl rfl) (.inl rfl) (.inl rfl) (.inl rfl) (.inl rfl) (.inl rfl) (.inl rfl) (.inl rfl) (.inl rfl) (.inl rfl) (.inl rfl) (.inl rfl) (.inl rfl) (.inl rfl) (.inl rfl) (.inl rfl) (.inl rfl) (.inl rfl) (.inl rfl) (.inl rfl) (.inl rfl) (.inl rfl)
theorem Moves.setByte {a b} (h : Moves K s0 s)
    (hk : Sub 0x8 K := by first | assumption | exact Sub.mono (by assumption) rfl) : Moves K s0 (s.setByte a b) :=
  h.mem (Tab.wf_set _ _ _)
theorem Moves.setBytes {a b} (h : Moves K s0 s)
    (hk : Sub 0x8 K := by first | assumption | exact Sub.mono (by assumption) rfl) : Moves K s0 (s.setBytes a b) :=
  h.mem (Tab.wf_setList _ _ _)
theorem Moves.modHost {p g} (h : Moves K s0 s)
    (hk : Sub 0xC000 K := by first | assumption | exact Sub.mono (by assumption) rfl) : Moves K s0 (s.modHost p g) := by
  cases p
  · exact h.into rfl (fun w => ⟨w.regs, w.mem, w.ecc, w.scrub, w.flash, w.lnd, w.sel, w.ent, w.loop, w.ho, w.apl, w.out, w.tsc, w.tod, w.tasks, w.prt, w.pte, w.berth, w.gens, w.shadow, w.array, w.incoming⟩)
      (.inl rfl) (.inl rfl) (.inl rfl) (.inl rfl) (.inl rfl) (.inl rfl) (.inl rfl) (.inl rfl) (.inl rfl) (.inl rfl) (.inl rfl) (.inl rfl) (.inl rfl) (.inl rfl) (.inr (hk.bit rfl)) (.inl rfl) (.inl rfl) (.inl rfl) (.inl rfl) (.inl rfl) (.inl rfl) (.inl rfl) (.inl rfl) (.inl rfl) (.inl rfl) (.inl rfl) (.inl rfl) (.inl rfl) (.inl rfl) (.inl rfl) (.inl rfl) (.inl rfl) (.inl rfl) (.inl rfl) (.inl rfl) (.inl rfl)
  · exact h.into rfl (fun w => ⟨w.regs, w.mem, w.ecc, w.scrub, w.flash, w.lnd, w.sel, w.ent, w.loop, w.ho, w.apl, w.out, w.tsc, w.tod, w.tasks, w.prt, w.pte, w.berth, w.gens, w.shadow, w.array, w.incoming⟩)
      (.inl rfl) (.inl rfl) (.inl rfl) (.inl rfl) (.inl rfl) (.inl rfl) (.inl rfl) (.inl rfl) (.inl rfl) (.inl rfl) (.inl rfl) (.inl rfl) (.inl rfl) (.inl rfl) (.inl rfl) (.inr (hk.bit rfl)) (.inl rfl) (.inl rfl) (.inl rfl) (.inl rfl) (.inl rfl) (.inl rfl) (.inl rfl) (.inl rfl) (.inl rfl) (.inl rfl) (.inl rfl) (.inl rfl) (.inl rfl) (.inl rfl) (.inl rfl) (.inl rfl) (.inl rfl) (.inl rfl) (.inl rfl) (.inl rfl)
theorem Moves.modLnd {n g} (h : Moves K s0 s)
    (hk : Sub 0x400000 K := by first | assumption | exact Sub.mono (by assumption) rfl) : Moves K s0 (s.modLnd n g) :=
  h.lnd (Tab.wf_set _ _ _)
theorem Moves.modSel {n g} (h : Moves K s0 s)
    (hk : Sub 0x800000 K := by first | assumption | exact Sub.mono (by assumption) rfl) : Moves K s0 (s.modSel n g) :=
  h.sel (Tab.wf_set _ _ _)
theorem Moves.modEnt {n g} (h : Moves K s0 s)
    (hk : Sub 0x1000000 K := by first | assumption | exact Sub.mono (by assumption) rfl) : Moves K s0 (s.modEnt n g) :=
  h.ent (Tab.wf_set _ _ _)
theorem Moves.modLoop {n g} (h : Moves K s0 s)
    (hk : Sub 0x2000000 K := by first | assumption | exact Sub.mono (by assumption) rfl) : Moves K s0 (s.modLoop n g) :=
  h.loop (Tab.wf_set _ _ _)
theorem Moves.modHo {n g} (h : Moves K s0 s)
    (hk : Sub 0x4000000 K := by first | assumption | exact Sub.mono (by assumption) rfl) : Moves K s0 (s.modHo n g) :=
  h.ho (Tab.wf_set _ _ _)
theorem Moves.modApl {n g} (h : Moves K s0 s)
    (hk : Sub 0x8000000 K := by first | assumption | exact Sub.mono (by assumption) rfl) : Moves K s0 (s.modApl n g) :=
  h.apl (Tab.wf_set _ _ _)
theorem Moves.modOut {n g} (h : Moves K s0 s)
    (hk : Sub 0x10000000 K := by first | assumption | exact Sub.mono (by assumption) rfl) : Moves K s0 (s.modOut n g) :=
  h.out (Tab.wf_set _ _ _)
theorem Moves.modTsc {n g} (h : Moves K s0 s)
    (hk : Sub 0x20000000 K := by first | assumption | exact Sub.mono (by assumption) rfl) : Moves K s0 (s.modTsc n g) :=
  h.tsc (Tab.wf_set _ _ _)
theorem Moves.modTod {n g} (h : Moves K s0 s)
    (hk : Sub 0x40000000 K := by first | assumption | exact Sub.mono (by assumption) rfl) : Moves K s0 (s.modTod n g) :=
  h.tod (Tab.wf_set _ _ _)
theorem Moves.modTasks {n g} (h : Moves K s0 s)
    (hk : Sub 0x80000000 K := by first | assumption | exact Sub.mono (by assumption) rfl) : Moves K s0 (s.modTasks n g) :=
  h.tasks (Tab.wf_set _ _ _)
theorem Moves.modPrt {n g} (h : Moves K s0 s)
    (hk : Sub 0x100000000 K := by first | assumption | exact Sub.mono (by assumption) rfl) : Moves K s0 (s.modPrt n g) :=
  h.prt (Tab.wf_set _ _ _)
theorem Moves.modPte {n g} (h : Moves K s0 s)
    (hk : Sub 0x200000000 K := by first | assumption | exact Sub.mono (by assumption) rfl) : Moves K s0 (s.modPte n g) :=
  h.pte (Tab.wf_set _ _ _)
theorem Moves.modBerth {n g} (h : Moves K s0 s)
    (hk : Sub 0x400000000 K := by first | assumption | exact Sub.mono (by assumption) rfl) : Moves K s0 (s.modBerth n g) :=
  h.berth (Tab.wf_set _ _ _)
theorem Moves.modGen {n g} (h : Moves K s0 s)
    (hk : Sub 0x800000000 K := by first | assumption | exact Sub.mono (by assumption) rfl) : Moves K s0 (s.modGen n g) :=
  h.gens (Tab.wf_set _ _ _)

/-! Answers that carry a state. -/

/-- An answer whose first part is a state. -/
def First {α : Type} (K : Nat) (s0 : State) (r : State × α) : Prop := Moves K s0 r.1

/-- An answer whose second part is a state. -/
def Second {α : Type} (K : Nat) (s0 : State) (r : α × State) : Prop := Moves K s0 r.2

theorem Moves.stateOf {α : Type} {r : State × α} (h : First K s0 r) : Moves K s0 (stateOf r) := h
theorem First.mk {α : Type} {x : α} (h : Moves K s0 t) : First K s0 (t, x) := h
theorem Second.mk {α : Type} {x : α} (h : Moves K s0 t) : Second K s0 (x, t) := h
theorem First.fst {α : Type} {r : State × α} (h : First K s0 r) : Moves K s0 r.1 := h
theorem Second.snd {α : Type} {r : α × State} (h : Second K s0 r) : Moves K s0 r.2 := h
theorem First.out {α : Type} {r : State × α} {x : α} (h : First K s0 r) (e : r = (t, x)) : Moves K s0 t := by subst e; exact h
theorem Second.out {α : Type} {r : α × State} {x : α} (h : Second K s0 r) (e : r = (x, t)) : Moves K s0 t := by subst e; exact h

theorem First.ite {α : Type} {c : Prop} [Decidable c] {p r : State × α} (h : First K s0 p) (k : First K s0 r) :
    First K s0 (if c then p else r) := by
  split
  · exact h
  · exact k

theorem Second.ite {α : Type} {c : Prop} [Decidable c] {p r : α × State} (h : Second K s0 p) (k : Second K s0 r) :
    Second K s0 (if c then p else r) := by
  split
  · exact h
  · exact k

/-! Outcomes. -/

/-- Every next state that an outcome is moves from a state within a set of parts. -/
def Ends (K : Nat) (s0 : State) (o : Host.Outcome State Fault Refusal) : Prop := ∀ t, o = .next t → Moves K s0 t

theorem Moves.next (h : Moves K s0 t) : Ends K s0 (.next t) := fun _ e => by cases e; exact h

theorem Ends.refused {r : Refusal} : Ends K s0 (.refused r) := fun _ e => by cases e

theorem Ends.ite {c : Prop} [Decidable c] {o p} (h : Ends K s0 o) (k : Ends K s0 p) : Ends K s0 (if c then o else p) := by
  split
  · exact h
  · exact k

end Sys2Proof.Machine
end

