-- ==== Sys2Proof/Laws/KeepOps.lean ====
section
/-! SUPPORT. What the operations of Machine/Ops.lean keep: the queue, the canonical form of the tables, and the parts of the state outside those named. -/

set_option Elab.async false

set_option linter.unreachableTactic false
set_option linter.unusedTactic false

namespace Sys2Proof.Machine

variable {K : Nat}

theorem Moves.message {v : Nat} {s0 s : State} (hs : Moves K s0 s) (hk : Sub 0x1004 K := by first | assumption | exact Sub.mono (by assumption) rfl) : Moves K s0 (State.message s v) := by
  unfold State.message
  repeat' first | with_reducible assumption | ((with_reducible refine Sub.mono hk ?_); rfl) | with_reducible refine Moves.setBit ?_ ?_ | with_reducible apply Moves.ite | fail_if_no_progress (with_reducible refine Moves.plain ?_ ?_ ?_ ?_ ?_ ?_ ?_ ?_ ?_ ?_ ?_ ?_ ?_ ?_ ?_ ?_ ?_ <;> first | ((with_reducible refine Or.inr (Sub.bit hk ?_)); decide) | with_reducible exact Or.inl rfl | skip)

theorem Moves.dueMessage {n : Nat} {s0 s : State} (hs : Moves K s0 s) (hk : Sub 0x1004 K := by first | assumption | exact Sub.mono (by assumption) rfl) : Moves K s0 (State.dueMessage s n) := by
  unfold State.dueMessage
  repeat' first | with_reducible assumption | with_reducible refine Moves.message ?_ ?_ | with_reducible apply Moves.ite

theorem Moves.raise {n : Nat} {s0 s : State} (hs : Moves K s0 s) (hk : Sub 0x1004 K := by first | assumption | exact Sub.mono (by assumption) rfl) : Moves K s0 (State.raise s n) := by
  unfold State.raise
  repeat' first | with_reducible assumption | ((with_reducible refine Sub.mono hk ?_); rfl) | with_reducible refine Moves.setBit ?_ ?_ | with_reducible refine Moves.dueMessage ?_ ?_ | with_reducible apply Moves.ite | with_reducible intro _ _ _ _ _ | with_reducible intro _ _ _ | with_reducible intro _ _ | extract_lets | split

theorem Moves.ev {x : Fld} {s0 s : State} (hs : Moves K s0 s) (hk : Sub 0x1004 K := by first | assumption | exact Sub.mono (by assumption) rfl) : Moves K s0 (State.ev s x) := by
  unfold State.ev
  repeat' first | with_reducible assumption | ((with_reducible refine Sub.mono hk ?_); rfl) | with_reducible refine Moves.setf ?_ ?_ | with_reducible refine Moves.raise ?_ ?_ | with_reducible apply Moves.ite | with_reducible intro _ _ _ _ _ | with_reducible intro _ _ _ | with_reducible intro _ _ | extract_lets | split

theorem Moves.evIf {c : Bool} {x : Fld} {s0 s : State} (hs : Moves K s0 s) (hk : Sub 0x1004 K := by first | assumption | exact Sub.mono (by assumption) rfl) : Moves K s0 (State.evIf s c x) := by
  unfold State.evIf
  repeat' first | with_reducible assumption | with_reducible refine Moves.ev ?_ ?_ | with_reducible apply Moves.ite

theorem Moves.mboxEmpty {p : Port} {s0 s : State} (hs : Moves K s0 s) (hk : Sub 0x4 K := by first | assumption | exact Sub.mono (by assumption) rfl) : Moves K s0 (State.mboxEmpty s p) := by
  unfold State.mboxEmpty
  repeat' first | with_reducible assumption | with_reducible refine Moves.setw ?_ ?_

theorem Moves.mboxWords {p : Port} {k : Nat} {ws : List Word} {s0 s : State} (h : Moves K s0 s) (hk : Sub 0x4 K := by first | assumption | exact Sub.mono (by assumption) rfl) : Moves K s0 (s.mboxWords p k ws) := by
  induction ws generalizing s k with
  | nil => exact h
  | cons v ws ih => exact ih h.setw

theorem Moves.mboxOut {p : Port} {ws : List Word} {s0 s : State} (hs : Moves K s0 s) (hk : Sub 0x1004 K := by first | assumption | exact Sub.mono (by assumption) rfl) : Moves K s0 (State.mboxOut s p ws) := by
  unfold State.mboxOut
  repeat' first | with_reducible assumption | ((with_reducible refine Sub.mono hk ?_); rfl) | with_reducible refine Moves.evIf ?_ ?_ | with_reducible refine Moves.mboxWords ?_ ?_ | with_reducible refine Moves.setw ?_ ?_ | with_reducible refine Moves.ev ?_ ?_

theorem Moves.log {kind source : Nat} {data : List Byte} {s0 s : State} (hs : Moves K s0 s) (hk : Sub 0x10000 K := by first | assumption | exact Sub.mono (by assumption) rfl) : Moves K s0 (State.log s kind source data) := by
  unfold State.log
  repeat' first | with_reducible assumption | with_reducible apply Moves.ite | fail_if_no_progress (with_reducible refine Moves.plain ?_ ?_ ?_ ?_ ?_ ?_ ?_ ?_ ?_ ?_ ?_ ?_ ?_ ?_ ?_ ?_ ?_ <;> first | ((with_reducible refine Or.inr (Sub.bit hk ?_)); decide) | with_reducible exact Or.inl rfl | skip) | fail_if_no_progress (with_reducible refine Moves.plainNv ?_ rfl rfl rfl ?_ ?_ ?_ ?_ ?_ ?_ ?_ ?_ ?_ ?_ ?_ ?_ ?_ ?_ ?_ ?_ ?_ <;> first | ((with_reducible refine Or.inr (Sub.bit hk ?_)); decide) | with_reducible exact Or.inl rfl | skip)

theorem Moves.logDev {kind : Nat} {data : List Byte} {s0 s : State} (hs : Moves K s0 s) (hk : Sub 0x10000 K := by first | assumption | exact Sub.mono (by assumption) rfl) : Moves K s0 (State.logDev s kind data) := by
  unfold State.logDev
  repeat' first | with_reducible assumption | with_reducible refine Moves.log ?_ ?_

end Sys2Proof.Machine
end

