-- ==== Sys2Proof/Laws/KeepRouter.lean ====
section
/-! SUPPORT. What the operations of Machine/Router.lean keep: the queue, the canonical form of the tables, and the parts of the state outside those named. -/

set_option Elab.async false

set_option linter.unreachableTactic false
set_option linter.unusedTactic false

namespace Sys2Proof.Machine

variable {K : Nat}

theorem Moves.latch {key : Nat} {r : TaskRun} {s0 s : State} (hs : Moves K s0 s) (hk : Sub 0x80001004 K := by first | assumption | exact Sub.mono (by assumption) rfl) : Moves K s0 (State.latch s key r) := by
  unfold State.latch
  repeat' first | with_reducible assumption | ((with_reducible refine Sub.mono hk ?_); rfl) | with_reducible refine Moves.modTasks ?_ ?_ | with_reducible refine Moves.inc ?_ ?_ | with_reducible refine Moves.ev ?_ ?_ | with_reducible refine Moves.setw ?_ ?_ | with_reducible apply Moves.ite

theorem Moves.deliver {e r : Nat} {s0 s : State} (hs : Moves K s0 s) (hk : Sub 0x80001004 K := by first | assumption | exact Sub.mono (by assumption) rfl) : Moves K s0 (State.deliver s e r) := by
  unfold State.deliver
  repeat' first | with_reducible assumption | ((with_reducible refine Sub.mono hk ?_); rfl) | with_reducible refine Moves.when ?_ ?_ | with_reducible refine Moves.latch ?_ ?_ | with_reducible refine Moves.ev ?_ ?_ | with_reducible refine Moves.inc ?_ ?_ | with_reducible apply Moves.ite | with_reducible intro _ _ _ _ _ | with_reducible intro _ _ _ | with_reducible intro _ _ | extract_lets | split

theorem Moves.route {e : Nat} {s0 s : State} (hs : Moves K s0 s) (hk : Sub 0x80001004 K := by first | assumption | exact Sub.mono (by assumption) rfl) : Moves K s0 (State.route s e) := by
  unfold State.route
  repeat' first | with_reducible assumption | with_reducible refine Moves.forL ?_ ?_ | with_reducible refine Moves.deliver ?_ ?_ | with_reducible apply Moves.ite | with_reducible intro _ _ _ _ _ | with_reducible intro _ _ _

theorem Moves.takeRun {key : Nat} {s0 s t : State} {r : TaskRun} (h : Moves K s0 s) (e : s.takeRun key = some (r, t)) (hk : Sub 0x80000000 K := by first | assumption | exact Sub.mono (by assumption) rfl) : Moves K s0 t := by
  unfold State.takeRun at e
  split at e
  · cases e
  · cases e; exact h.modTasks

end Sys2Proof.Machine
end

