-- ==== Sys2Proof/Laws/KeepPortTx.lean ====
section
/-! SUPPORT. What the operations of Machine/PortTx.lean keep: the queue, the canonical form of the tables, and the parts of the state outside those named. -/

set_option Elab.async false

set_option linter.unreachableTactic false
set_option linter.unusedTactic false

namespace Sys2Proof.Machine

variable {K : Nat}

theorem Moves.count {n i : Nat} {s0 s : State} (hs : Moves K s0 s) (hk : Sub 0x100000000 K := by first | assumption | exact Sub.mono (by assumption) rfl) : Moves K s0 (State.count s n i) := by
  unfold State.count
  repeat' first | with_reducible assumption | with_reducible refine Moves.modPrt ?_ ?_

theorem Moves.evqPush {slot : Nat} {ws : List Word} {s0 s : State} (hs : Moves K s0 s) (hk : Sub 0x480001004 K := by first | assumption | exact Sub.mono (by assumption) rfl) : Moves K s0 (State.evqPush s slot ws) := by
  unfold State.evqPush
  repeat' first | with_reducible assumption | ((with_reducible refine Sub.mono hk ?_); rfl) | with_reducible refine Moves.ev ?_ ?_ | with_reducible refine Moves.inc ?_ ?_ | with_reducible refine Moves.modBerth ?_ ?_ | with_reducible refine Moves.route ?_ ?_ | with_reducible refine Moves.raise ?_ ?_ | with_reducible apply Moves.ite

theorem Moves.tsqPush {n id : Nat} {t : Option Stamp} {s0 s : State} (hs : Moves K s0 s) (hk : Sub 0x100001004 K := by first | assumption | exact Sub.mono (by assumption) rfl) : Moves K s0 (State.tsqPush s n id t) := by
  unfold State.tsqPush
  repeat' first | with_reducible assumption | ((with_reducible refine Sub.mono hk ?_); rfl) | with_reducible refine Moves.modPrt ?_ ?_ | with_reducible refine Moves.ev ?_ ?_ | with_reducible refine Moves.setf ?_ ?_ | with_reducible refine Moves.evIf ?_ ?_ | with_reducible apply Moves.ite

theorem Moves.preempt {n : Nat} {s0 s : State} (hs : Moves K s0 s) (hk : Sub 0x100000000 K := by first | assumption | exact Sub.mono (by assumption) rfl) : Moves K s0 (State.preempt s n) := by
  unfold State.preempt
  repeat' first | with_reducible assumption | ((with_reducible refine Sub.mono hk ?_); rfl) | with_reducible refine Moves.modPrt ?_ ?_ | with_reducible apply Moves.ite | with_reducible intro _ _ _ _ _ | with_reducible intro _ _ _ | with_reducible intro _ _ | extract_lets | split

theorem Moves.modLedger {t : Nat} {g : Ledger → Ledger} {s0 s : State} (hs : Moves K s0 s) (hk : Sub 0x80000 K := by first | assumption | exact Sub.mono (by assumption) rfl) : Moves K s0 (State.modLedger s t g) := by
  unfold State.modLedger
  repeat' first | with_reducible assumption | with_reducible apply Moves.ite | fail_if_no_progress (with_reducible refine Moves.plain ?_ ?_ ?_ ?_ ?_ ?_ ?_ ?_ ?_ ?_ ?_ ?_ ?_ ?_ ?_ ?_ ?_ <;> first | ((with_reducible refine Or.inr (Sub.bit hk ?_)); decide) | with_reducible exact Or.inl rfl | skip)

theorem Moves.billReport {slot type : Nat} {s0 s : State} (hs : Moves K s0 s) (hk : Sub 0x80000 K := by first | assumption | exact Sub.mono (by assumption) rfl) : Moves K s0 (State.billReport s slot type) := by
  unfold State.billReport
  repeat' first | with_reducible assumption | with_reducible refine Moves.modLedger ?_ ?_

theorem Moves.reportServed {n type : Nat} {slot : Option Nat} {s0 s : State} (hs : Moves K s0 s) (hk : Sub 0x80000 K := by first | assumption | exact Sub.mono (by assumption) rfl) : Moves K s0 (State.reportServed s n type slot) := by
  unfold State.reportServed
  repeat' first | with_reducible assumption | with_reducible refine Moves.forL ?_ ?_ | with_reducible refine Moves.billReport ?_ ?_ | with_reducible apply Moves.ite | with_reducible intro _ _ _ _ _ | with_reducible intro _ _ _

theorem Moves.sent {n q : Nat} {f : TxFrame} {s0 s : State} (hs : Moves K s0 s) (hk : Sub 0x100080000 K := by first | assumption | exact Sub.mono (by assumption) rfl) : Moves K s0 (State.sent s n q f) := by
  unfold State.sent
  repeat' first | with_reducible assumption | ((with_reducible refine Sub.mono hk ?_); rfl) | with_reducible refine Moves.modPrt ?_ ?_ | with_reducible refine Moves.reportServed ?_ ?_ | with_reducible apply Moves.ite | with_reducible intro _ _ _ _ _ | with_reducible intro _ _ _ | with_reducible intro _ _ | extract_lets | split

theorem Moves.drain {n k : Nat} {s0 s : State} (h : Moves K s0 s) (hk : Sub 0x100080000 K := by first | assumption | exact Sub.mono (by assumption) rfl) : Moves K s0 (s.drain n k) := by
  induction k generalizing s with
  | zero => exact h
  | succ k ih =>
    unfold State.drain
    repeat' first | with_reducible assumption | with_reducible apply ih | with_reducible refine Moves.sent ?_ ?_ | with_reducible apply Moves.ite | split

theorem Moves.drainAll {n : Nat} {s0 s : State} (hs : Moves K s0 s) (hk : Sub 0x100080000 K := by first | assumption | exact Sub.mono (by assumption) rfl) : Moves K s0 (State.drainAll s n) := by
  unfold State.drainAll
  repeat' first | with_reducible assumption | with_reducible refine Moves.drain ?_ ?_

theorem Moves.dropped {n : Nat} {f : TxFrame} {s0 s : State} (hs : Moves K s0 s) (hk : Sub 0x580001004 K := by first | assumption | exact Sub.mono (by assumption) rfl) : Moves K s0 (State.dropped s n f) := by
  unfold State.dropped
  repeat' first | with_reducible assumption | ((with_reducible refine Sub.mono hk ?_); rfl) | with_reducible refine Moves.count ?_ ?_ | with_reducible refine Moves.tsqPush ?_ ?_ | with_reducible refine Moves.evqPush ?_ ?_ | with_reducible apply Moves.ite | with_reducible intro _ _ _ _ _ | with_reducible intro _ _ _ | with_reducible intro _ _ | extract_lets | split

theorem Moves.enqueue {n q : Nat} {f : TxFrame} {s0 s : State} (hs : Moves K s0 s) (hk : Sub 0x580081004 K := by first | assumption | exact Sub.mono (by assumption) rfl) : Moves K s0 (State.enqueue s n q f) := by
  unfold State.enqueue
  repeat' first | with_reducible assumption | ((with_reducible refine Sub.mono hk ?_); rfl) | with_reducible refine Moves.dropped ?_ ?_ | with_reducible refine Moves.when ?_ ?_ | with_reducible refine Moves.setf ?_ ?_ | with_reducible refine Moves.modPrt ?_ ?_ | with_reducible refine Moves.drainAll ?_ ?_ | with_reducible refine Moves.preempt ?_ ?_ | with_reducible apply Moves.ite | with_reducible intro _ _ _ _ _ | with_reducible intro _ _ _ | with_reducible intro _ _ | extract_lets | split

theorem Moves.sendPause {n quanta : Nat} {s0 s : State} (hs : Moves K s0 s) (hk : Sub 0x100000004 K := by first | assumption | exact Sub.mono (by assumption) rfl) : Moves K s0 (State.sendPause s n quanta) := by
  unfold State.sendPause
  repeat' first | with_reducible assumption | ((with_reducible refine Sub.mono hk ?_); rfl) | with_reducible refine Moves.modPrt ?_ ?_ | with_reducible refine Moves.preempt ?_ ?_ | with_reducible refine Moves.setb ?_ ?_ | with_reducible apply Moves.ite | with_reducible intro _ _ _ _ _ | with_reducible intro _ _ _ | with_reducible intro _ _ | extract_lets | split

theorem Moves.esmcSend {n : Nat} {event : Bool} {s0 s : State} (hs : Moves K s0 s) (hk : Sub 0x580081004 K := by first | assumption | exact Sub.mono (by assumption) rfl) : Moves K s0 (State.esmcSend s n event) := by
  unfold State.esmcSend
  repeat' first | with_reducible assumption | ((with_reducible refine Sub.mono hk ?_); rfl) | with_reducible refine Moves.modPrt ?_ ?_ | with_reducible refine Moves.enqueue ?_ ?_

theorem Moves.esmcRefresh {s0 s : State} (hs : Moves K s0 s) (hk : Sub 0x580081004 K := by first | assumption | exact Sub.mono (by assumption) rfl) : Moves K s0 (State.esmcRefresh s) := by
  unfold State.esmcRefresh
  repeat' first | with_reducible assumption | with_reducible refine Moves.forN ?_ ?_ | with_reducible refine Moves.esmcSend ?_ ?_ | with_reducible apply Moves.ite | with_reducible intro _ _ _ _ _ | with_reducible intro _ _ _

end Sys2Proof.Machine
end

