-- ==== Sys2Proof/Laws/KeepLoopOps.lean ====
section
/-! SUPPORT. What the operations of Machine/LoopOps.lean keep: the queue, the canonical form of the tables, and the parts of the state outside those named. -/

set_option Elab.async false

set_option linter.unreachableTactic false
set_option linter.unusedTactic false

namespace Sys2Proof.Machine

variable {K : Nat}

theorem Moves.advanceLoop {l : Nat} {s0 s : State} (hs : Moves K s0 s) (hk : Sub 0x2000000 K := by first | assumption | exact Sub.mono (by assumption) rfl) : Moves K s0 (State.advanceLoop s l) := by
  unfold State.advanceLoop
  repeat' first | with_reducible assumption | ((with_reducible refine Sub.mono hk ?_); rfl) | with_reducible refine Moves.modLoop ?_ ?_ | with_reducible apply Moves.ite | with_reducible intro _ _ _ _ _ | with_reducible intro _ _ _ | with_reducible intro _ _ | extract_lets | split

theorem Moves.refreshYbar {s0 s : State} (hs : Moves K s0 s) (hk : Sub 0x2000000 K := by first | assumption | exact Sub.mono (by assumption) rfl) : Moves K s0 (State.refreshYbar s) := by
  unfold State.refreshYbar
  repeat' first | with_reducible assumption | ((with_reducible refine Sub.mono hk ?_); rfl) | with_reducible refine Moves.forL ?_ ?_ | with_reducible refine Moves.modLoop ?_ ?_ | with_reducible refine Moves.advanceLoop ?_ ?_ | with_reducible apply Moves.ite | with_reducible intro _ _ _ _ _ | with_reducible intro _ _ _ | with_reducible intro _ _ | extract_lets | split

theorem Moves.freezeNow {l : Nat} {s0 s : State} (hs : Moves K s0 s) (hk : Sub 0x6001004 K := by first | assumption | exact Sub.mono (by assumption) rfl) : Moves K s0 (State.freezeNow s l) := by
  unfold State.freezeNow
  repeat' first | with_reducible assumption | ((with_reducible refine Sub.mono hk ?_); rfl) | with_reducible refine Moves.modHo ?_ ?_ | with_reducible refine Moves.modLoop ?_ ?_ | with_reducible refine Moves.ev ?_ ?_ | with_reducible refine Moves.setf ?_ ?_ | with_reducible apply Moves.ite | with_reducible intro _ _ _ _ _ | with_reducible intro _ _ _ | with_reducible intro _ _ | extract_lets | split

theorem Moves.freezeLoop {l : Nat} {s0 s : State} (hs : Moves K s0 s) (hk : Sub 0x6001004 K := by first | assumption | exact Sub.mono (by assumption) rfl) : Moves K s0 (State.freezeLoop s l) := by
  unfold State.freezeLoop
  repeat' first | with_reducible assumption | ((with_reducible refine Sub.mono hk ?_); rfl) | with_reducible refine Moves.freezeNow ?_ ?_ | with_reducible refine Moves.modLoop ?_ ?_ | with_reducible apply Moves.ite | with_reducible intro _ _ _ _ _ | with_reducible intro _ _ _ | with_reducible intro _ _ | extract_lets | split

theorem Moves.setBw {l bw : Nat} {s0 s : State} (hs : Moves K s0 s) (hk : Sub 0x2000000 K := by first | assumption | exact Sub.mono (by assumption) rfl) : Moves K s0 (State.setBw s l bw) := by
  unfold State.setBw
  repeat' first | with_reducible assumption | ((with_reducible refine Sub.mono hk ?_); rfl) | with_reducible refine Moves.modLoop ?_ ?_ | with_reducible apply Moves.ite | with_reducible intro _ _ _ _ _ | with_reducible intro _ _ _ | with_reducible intro _ _ | extract_lets | split

theorem Moves.setGear {l gear bw dwell : Nat} {final : Bool} {s0 s : State} (hs : Moves K s0 s) (hk : Sub 0x2001004 K := by first | assumption | exact Sub.mono (by assumption) rfl) : Moves K s0 (State.setGear s l gear bw dwell final) := by
  unfold State.setGear
  repeat' first | with_reducible assumption | ((with_reducible refine Sub.mono hk ?_); rfl) | with_reducible refine Moves.setb ?_ ?_ | with_reducible refine Moves.setf ?_ ?_ | with_reducible refine Moves.modLoop ?_ ?_ | with_reducible refine Moves.setBw ?_ ?_ | with_reducible refine Moves.evIf ?_ ?_ | with_reducible apply Moves.ite | with_reducible intro _ _ _ _ _ | with_reducible intro _ _ _ | with_reducible intro _ _ | extract_lets | split

theorem Moves.finalGear {l gear : Nat} {s0 s : State} (hs : Moves K s0 s) (hk : Sub 0x2001004 K := by first | assumption | exact Sub.mono (by assumption) rfl) : Moves K s0 (State.finalGear s l gear) := by
  unfold State.finalGear
  repeat' first | with_reducible assumption | with_reducible refine Moves.setGear ?_ ?_

theorem Moves.autoGear {l k : Nat} {s0 s : State} (hs : Moves K s0 s) (hk : Sub 0x2001004 K := by first | assumption | exact Sub.mono (by assumption) rfl) : Moves K s0 (State.autoGear s l k) := by
  unfold State.autoGear
  repeat' first | with_reducible assumption | ((with_reducible refine Sub.mono hk ?_); rfl) | with_reducible refine Moves.finalGear ?_ ?_ | with_reducible refine Moves.setGear ?_ ?_ | with_reducible apply Moves.ite | with_reducible intro _ _ _ _ _ | with_reducible intro _ _ _ | with_reducible intro _ _ | extract_lets | split

theorem Moves.manGear {l k : Nat} {s0 s : State} (hs : Moves K s0 s) (hk : Sub 0x2001004 K := by first | assumption | exact Sub.mono (by assumption) rfl) : Moves K s0 (State.manGear s l k) := by
  unfold State.manGear
  repeat' first | with_reducible assumption | with_reducible refine Moves.finalGear ?_ ?_ | with_reducible refine Moves.setGear ?_ ?_ | with_reducible apply Moves.ite

theorem Moves.startGears {l : Nat} {s0 s : State} (hs : Moves K s0 s) (hk : Sub 0x2001004 K := by first | assumption | exact Sub.mono (by assumption) rfl) : Moves K s0 (State.startGears s l) := by
  unfold State.startGears
  repeat' first | with_reducible assumption | ((with_reducible refine Sub.mono hk ?_); rfl) | with_reducible refine Moves.manGear ?_ ?_ | with_reducible refine Moves.autoGear ?_ ?_ | with_reducible refine Moves.modLoop ?_ ?_ | with_reducible refine Moves.finalGear ?_ ?_ | with_reducible apply Moves.ite | with_reducible intro _ _ _ _ _ | with_reducible intro _ _ _ | with_reducible intro _ _ | extract_lets | split

theorem Moves.logHoldover {l : Nat} {out : Bool} {s0 s : State} (hs : Moves K s0 s) (hk : Sub 0x80011004 K := by first | assumption | exact Sub.mono (by assumption) rfl) : Moves K s0 (State.logHoldover s l out) := by
  unfold State.logHoldover
  repeat' first | with_reducible assumption | ((with_reducible refine Sub.mono hk ?_); rfl) | with_reducible refine Moves.logDev ?_ ?_ | with_reducible refine Moves.route ?_ ?_

theorem Moves.orderDeparture {l : Nat} {frequencyOnly : Bool} {s0 s : State} (hs : Moves K s0 s) (hk : Sub 0x2000000 K := by first | assumption | exact Sub.mono (by assumption) rfl) : Moves K s0 (State.orderDeparture s l frequencyOnly) := by
  unfold State.orderDeparture
  repeat' first | with_reducible assumption | ((with_reducible refine Sub.mono hk ?_); rfl) | with_reducible refine Moves.modLoop ?_ ?_ | with_reducible apply Moves.ite | with_reducible intro _ _ _ _ _ | with_reducible intro _ _ _ | with_reducible intro _ _ | extract_lets | split

theorem Moves.departNow {l : Nat} {frequencyOnly : Bool} {s0 s : State} (hs : Moves K s0 s) (hk : Sub 0x86011004 K := by first | assumption | exact Sub.mono (by assumption) rfl) : Moves K s0 (State.departNow s l frequencyOnly) := by
  unfold State.departNow
  repeat' first | with_reducible assumption | ((with_reducible refine Sub.mono hk ?_); rfl) | with_reducible refine Moves.orderDeparture ?_ ?_ | with_reducible refine Moves.startGears ?_ ?_ | with_reducible refine Moves.setf ?_ ?_ | with_reducible refine Moves.finalGear ?_ ?_ | with_reducible refine Moves.modHo ?_ ?_ | with_reducible refine Moves.setb ?_ ?_ | with_reducible refine Moves.logHoldover ?_ ?_ | with_reducible refine Moves.ev ?_ ?_ | with_reducible apply Moves.ite | with_reducible intro _ _ _ _ _ | with_reducible intro _ _ _ | with_reducible intro _ _ | extract_lets | split

theorem Moves.enterHoldover {l : Nat} {s0 s : State} (hs : Moves K s0 s) (hk : Sub 0x86011004 K := by first | assumption | exact Sub.mono (by assumption) rfl) : Moves K s0 (State.enterHoldover s l) := by
  unfold State.enterHoldover
  repeat' first | with_reducible assumption | ((with_reducible refine Sub.mono hk ?_); rfl) | with_reducible refine Moves.setw ?_ ?_ | with_reducible refine Moves.setf ?_ ?_ | with_reducible refine Moves.modLoop ?_ ?_ | with_reducible refine Moves.modHo ?_ ?_ | with_reducible refine Moves.setb ?_ ?_ | with_reducible refine Moves.logHoldover ?_ ?_ | with_reducible refine Moves.ev ?_ ?_ | with_reducible apply Moves.ite | with_reducible intro _ _ _ _ _ | with_reducible intro _ _ _ | with_reducible intro _ _ | extract_lets | split

theorem Moves.holdoverNow {l : Nat} {s0 s : State} (hs : Moves K s0 s) (hk : Sub 0x86011004 K := by first | assumption | exact Sub.mono (by assumption) rfl) : Moves K s0 (State.holdoverNow s l) := by
  unfold State.holdoverNow
  repeat' first | with_reducible assumption | ((with_reducible refine Sub.mono hk ?_); rfl) | with_reducible refine Moves.enterHoldover ?_ ?_ | with_reducible refine Moves.modLoop ?_ ?_ | with_reducible refine Moves.setf ?_ ?_ | with_reducible apply Moves.ite | with_reducible intro _ _ _ _ _ | with_reducible intro _ _ _ | with_reducible intro _ _ | extract_lets | split

theorem Moves.obey {l : Nat} {o : LoopOrder} {s0 s : State} (hs : Moves K s0 s) (hk : Sub 0x86011004 K := by first | assumption | exact Sub.mono (by assumption) rfl) : Moves K s0 (State.obey s l o) := by
  unfold State.obey
  repeat' first | with_reducible assumption | ((with_reducible refine Sub.mono hk ?_); rfl) | with_reducible refine Moves.departNow ?_ ?_ | with_reducible refine Moves.holdoverNow ?_ ?_ | with_reducible refine Moves.freezeNow ?_ ?_ | with_reducible apply Moves.ite | with_reducible intro _ _ _ _ _ | with_reducible intro _ _ _ | with_reducible intro _ _ | extract_lets | split

theorem Moves.orderLoop {l : Nat} {o : LoopOrder} {s0 s : State} (hs : Moves K s0 s) (hk : Sub 0x86011004 K := by first | assumption | exact Sub.mono (by assumption) rfl) : Moves K s0 (State.orderLoop s l o) := by
  unfold State.orderLoop
  repeat' first | with_reducible assumption | ((with_reducible refine Sub.mono hk ?_); rfl) | with_reducible refine Moves.modLoop ?_ ?_ | with_reducible refine Moves.obey ?_ ?_ | with_reducible apply Moves.ite | with_reducible intro _ _ _ _ _ | with_reducible intro _ _ _ | with_reducible intro _ _ | extract_lets | split

end Sys2Proof.Machine
end

