-- ==== Sys2Proof/Laws/KeepSelect.lean ====
section
/-! SUPPORT. What the operations of Machine/Select.lean keep: the queue, the canonical form of the tables, and the parts of the state outside those named. -/

set_option Elab.async false

set_option linter.unreachableTactic false
set_option linter.unusedTactic false

namespace Sys2Proof.Machine

variable {K : Nat}

theorem Moves.loadLimits {n k : Nat} {s0 s : State} (hs : Moves K s0 s) (hk : Sub 0x4 K := by first | assumption | exact Sub.mono (by assumption) rfl) : Moves K s0 (State.loadLimits s n k) := by
  unfold State.loadLimits
  repeat' first | with_reducible assumption | with_reducible refine Moves.setw ?_ ?_

theorem Moves.setFault {n k bit : Nat} {b : Bool} {s0 s : State} (hs : Moves K s0 s) (hk : Sub 0x1004 K := by first | assumption | exact Sub.mono (by assumption) rfl) : Moves K s0 (State.setFault s n k bit b) := by
  unfold State.setFault
  repeat' first | with_reducible assumption | ((with_reducible refine Sub.mono hk ?_); rfl) | with_reducible refine Moves.setf ?_ ?_ | with_reducible refine Moves.ev ?_ ?_ | with_reducible refine Moves.setb ?_ ?_ | with_reducible apply Moves.ite

theorem Moves.followForced {n k c : Nat} {s0 s : State} (hs : Moves K s0 s) (hk : Sub 0x801004 K := by first | assumption | exact Sub.mono (by assumption) rfl) : Moves K s0 (State.followForced s n k c) := by
  unfold State.followForced
  repeat' first | with_reducible assumption | ((with_reducible refine Sub.mono hk ?_); rfl) | with_reducible refine Moves.modSel ?_ ?_ | with_reducible refine Moves.ev ?_ ?_ | with_reducible apply Moves.ite | with_reducible intro _ _ _ _ _ | with_reducible intro _ _ _ | with_reducible intro _ _ | extract_lets | split

theorem Moves.setCstate {n k c : Nat} {s0 s : State} (hs : Moves K s0 s) (hk : Sub 0x1801004 K := by first | assumption | exact Sub.mono (by assumption) rfl) : Moves K s0 (State.setCstate s n k c) := by
  unfold State.setCstate
  repeat' first | with_reducible assumption | ((with_reducible refine Sub.mono hk ?_); rfl) | with_reducible refine Moves.followForced ?_ ?_ | with_reducible refine Moves.setf ?_ ?_ | with_reducible refine Moves.when ?_ ?_ | with_reducible refine Moves.modEnt ?_ ?_ | with_reducible refine Moves.setb ?_ ?_ | with_reducible refine Moves.ev ?_ ?_ | with_reducible apply Moves.ite | with_reducible intro _ _ _ _ _ | with_reducible intro _ _ _ | with_reducible intro _ _ | extract_lets | split

theorem Moves.refreshSel {n : Nat} {s0 s : State} (hs : Moves K s0 s) (hk : Sub 0x4 K := by first | assumption | exact Sub.mono (by assumption) rfl) : Moves K s0 (State.refreshSel s n) := by
  unfold State.refreshSel
  repeat' first | with_reducible assumption | with_reducible refine Moves.setf ?_ ?_

theorem Moves.refreshTrace {s0 s : State} (hs : Moves K s0 s) (hk : Sub 0x1004 K := by first | assumption | exact Sub.mono (by assumption) rfl) : Moves K s0 (State.refreshTrace s) := by
  unfold State.refreshTrace
  repeat' first | with_reducible assumption | ((with_reducible refine Sub.mono hk ?_); rfl) | with_reducible refine Moves.forN ?_ ?_ | with_reducible refine Moves.setb ?_ ?_ | with_reducible refine Moves.ev ?_ ?_ | with_reducible apply Moves.ite | with_reducible intro _ _ _ _ _ | with_reducible intro _ _ _

theorem Moves.refreshGood {s0 s : State} (hs : Moves K s0 s) (hk : Sub 0x100000 K := by first | assumption | exact Sub.mono (by assumption) rfl) : Moves K s0 (State.refreshGood s) := by
  unfold State.refreshGood
  repeat' first | with_reducible assumption | ((with_reducible refine Sub.mono hk ?_); rfl) | with_reducible apply Moves.ite | fail_if_no_progress (with_reducible refine Moves.plain ?_ ?_ ?_ ?_ ?_ ?_ ?_ ?_ ?_ ?_ ?_ ?_ ?_ ?_ ?_ ?_ ?_ <;> first | ((with_reducible refine Or.inr (Sub.bit hk ?_)); decide) | with_reducible exact Or.inl rfl | skip) | with_reducible intro _ _ _ _ _ | with_reducible intro _ _ _ | with_reducible intro _ _ | extract_lets | split

theorem Moves.selFollow {n : Nat} {s0 s : State} (hs : Moves K s0 s) (hk : Sub 0x580181004 K := by first | assumption | exact Sub.mono (by assumption) rfl) : Moves K s0 (State.selFollow s n) := by
  unfold State.selFollow
  repeat' first | with_reducible assumption | ((with_reducible refine Sub.mono hk ?_); rfl) | with_reducible refine Moves.refreshGood ?_ ?_ | with_reducible refine Moves.esmcRefresh ?_ ?_ | with_reducible refine Moves.refreshTrace ?_ ?_ | with_reducible refine Moves.refreshSel ?_ ?_ | with_reducible apply Moves.ite

theorem Moves.logSwitch {n from_ : Nat} {s0 s : State} (hs : Moves K s0 s) (hk : Sub 0x10000 K := by first | assumption | exact Sub.mono (by assumption) rfl) : Moves K s0 (State.logSwitch s n from_) := by
  unfold State.logSwitch
  repeat' first | with_reducible assumption | with_reducible refine Moves.logDev ?_ ?_

theorem Moves.departAll {n k : Nat} {changed : Bool} {s0 s : State} (hs : Moves K s0 s) (hk : Sub 0x86011004 K := by first | assumption | exact Sub.mono (by assumption) rfl) : Moves K s0 (State.departAll s n k changed) := by
  unfold State.departAll
  repeat' first | with_reducible assumption | ((with_reducible refine Sub.mono hk ?_); rfl) | with_reducible refine Moves.forL ?_ ?_ | with_reducible refine Moves.when ?_ ?_ | with_reducible refine Moves.modHo ?_ ?_ | with_reducible refine Moves.orderLoop ?_ ?_ | with_reducible apply Moves.ite | with_reducible intro _ _ _ _ _ | with_reducible intro _ _ _ | with_reducible intro _ _ | extract_lets | split

theorem Moves.follow {n k st cause : Nat} {s0 s : State} (hs : Moves K s0 s) (hk : Sub 0x587991004 K := by first | assumption | exact Sub.mono (by assumption) rfl) : Moves K s0 (State.follow s n k st cause) := by
  unfold State.follow
  repeat' first | with_reducible assumption | ((with_reducible refine Sub.mono hk ?_); rfl) | with_reducible refine Moves.modEnt ?_ ?_ | with_reducible refine Moves.setf ?_ ?_ | with_reducible refine Moves.evIf ?_ ?_ | with_reducible refine Moves.modSel ?_ ?_ | with_reducible refine Moves.ev ?_ ?_ | with_reducible refine Moves.route ?_ ?_ | with_reducible refine Moves.logSwitch ?_ ?_ | with_reducible refine Moves.departAll ?_ ?_ | with_reducible refine Moves.selFollow ?_ ?_

theorem Moves.selHoldover {n : Nat} {s0 s : State} (hs : Moves K s0 s) (hk : Sub 0x586191004 K := by first | assumption | exact Sub.mono (by assumption) rfl) : Moves K s0 (State.selHoldover s n) := by
  unfold State.selHoldover
  repeat' first | with_reducible assumption | ((with_reducible refine Sub.mono hk ?_); rfl) | with_reducible refine Moves.setf ?_ ?_ | with_reducible refine Moves.logSwitch ?_ ?_ | with_reducible refine Moves.ev ?_ ?_ | with_reducible refine Moves.selFollow ?_ ?_ | with_reducible refine Moves.forL ?_ ?_ | with_reducible refine Moves.orderLoop ?_ ?_ | with_reducible apply Moves.ite | with_reducible intro _ _ _ _ _ | with_reducible intro _ _ _ | with_reducible intro _ _ | extract_lets | split

theorem Moves.evaluate {n cause : Nat} {s0 s : State} (hs : Moves K s0 s) (hk : Sub 0x587991004 K := by first | assumption | exact Sub.mono (by assumption) rfl) : Moves K s0 (State.evaluate s n cause) := by
  unfold State.evaluate
  repeat' first | with_reducible assumption | ((with_reducible refine Sub.mono hk ?_); rfl) | with_reducible refine Moves.modSel ?_ ?_ | with_reducible refine Moves.follow ?_ ?_ | with_reducible apply Moves.ite | with_reducible intro _ _ _ _ _ | with_reducible intro _ _ _ | with_reducible intro _ _ | extract_lets | split

theorem Moves.holdoffEnd {n : Nat} {back : Bool} {s0 s : State} (hs : Moves K s0 s) (hk : Sub 0x587991004 K := by first | assumption | exact Sub.mono (by assumption) rfl) : Moves K s0 (State.holdoffEnd s n back) := by
  unfold State.holdoffEnd
  repeat' first | with_reducible assumption | ((with_reducible refine Sub.mono hk ?_); rfl) | with_reducible refine Moves.when ?_ ?_ | with_reducible refine Moves.setCstate ?_ ?_ | with_reducible refine Moves.follow ?_ ?_ | with_reducible refine Moves.modSel ?_ ?_ | with_reducible refine Moves.evaluate ?_ ?_ | with_reducible refine Moves.selHoldover ?_ ?_ | with_reducible apply Moves.ite | with_reducible intro _ _ _ _ _ | with_reducible intro _ _ _ | with_reducible intro _ _ | extract_lets | split

theorem Moves.enterHoldoff {n : Nat} {s0 s : State} (hs : Moves K s0 s) (hk : Sub 0x587991004 K := by first | assumption | exact Sub.mono (by assumption) rfl) : Moves K s0 (State.enterHoldoff s n) := by
  unfold State.enterHoldoff
  repeat' first | with_reducible assumption | ((with_reducible refine Sub.mono hk ?_); rfl) | with_reducible refine Moves.setf ?_ ?_ | with_reducible refine Moves.modSel ?_ ?_ | with_reducible refine Moves.logSwitch ?_ ?_ | with_reducible refine Moves.ev ?_ ?_ | with_reducible refine Moves.selFollow ?_ ?_ | with_reducible refine Moves.forL ?_ ?_ | with_reducible refine Moves.freezeLoop ?_ ?_ | with_reducible refine Moves.holdoffEnd ?_ ?_ | with_reducible apply Moves.ite | with_reducible intro _ _ _ _ _ | with_reducible intro _ _ _ | with_reducible intro _ _ | extract_lets | split

theorem Moves.forcedCheck {n k : Nat} {s0 s : State} (hs : Moves K s0 s) (hk : Sub 0x6801004 K := by first | assumption | exact Sub.mono (by assumption) rfl) : Moves K s0 (State.forcedCheck s n k) := by
  unfold State.forcedCheck
  repeat' first | with_reducible assumption | ((with_reducible refine Sub.mono hk ?_); rfl) | with_reducible refine Moves.modSel ?_ ?_ | with_reducible refine Moves.ev ?_ ?_ | with_reducible refine Moves.forL ?_ ?_ | with_reducible refine Moves.freezeLoop ?_ ?_ | with_reducible apply Moves.ite | fail_if_no_progress (with_reducible refine Moves.plain ?_ ?_ ?_ ?_ ?_ ?_ ?_ ?_ ?_ ?_ ?_ ?_ ?_ ?_ ?_ ?_ ?_ <;> first | ((with_reducible refine Or.inr (Sub.bit hk ?_)); decide) | with_reducible exact Or.inl rfl | skip) | fail_if_no_progress (with_reducible refine Moves.plainNv ?_ rfl rfl rfl ?_ ?_ ?_ ?_ ?_ ?_ ?_ ?_ ?_ ?_ ?_ ?_ ?_ ?_ ?_ ?_ ?_ <;> first | ((with_reducible refine Or.inr (Sub.bit hk ?_)); decide) | with_reducible exact Or.inl rfl | skip) | with_reducible intro _ _ _ _ _ | with_reducible intro _ _ _

theorem Moves.forcedReturn {n k : Nat} {s0 s : State} (hs : Moves K s0 s) (hk : Sub 0x86811004 K := by first | assumption | exact Sub.mono (by assumption) rfl) : Moves K s0 (State.forcedReturn s n k) := by
  unfold State.forcedReturn
  repeat' first | with_reducible assumption | ((with_reducible refine Sub.mono hk ?_); rfl) | with_reducible refine Moves.modSel ?_ ?_ | with_reducible refine Moves.departAll ?_ ?_ | with_reducible apply Moves.ite

theorem Moves.plausResult {n k : Nat} {pass : Bool} {s0 s : State} (hs : Moves K s0 s) (hk : Sub 0x11004 K := by first | assumption | exact Sub.mono (by assumption) rfl) : Moves K s0 (State.plausResult s n k pass) := by
  unfold State.plausResult
  repeat' first | with_reducible assumption | ((with_reducible refine Sub.mono hk ?_); rfl) | with_reducible refine Moves.setb ?_ ?_ | with_reducible refine Moves.ev ?_ ?_ | with_reducible refine Moves.logDev ?_ ?_ | with_reducible apply Moves.ite

theorem Moves.wtrCheck {n k : Nat} {s0 s : State} (hs : Moves K s0 s) (hk : Sub 0x1811004 K := by first | assumption | exact Sub.mono (by assumption) rfl) : Moves K s0 (State.wtrCheck s n k) := by
  unfold State.wtrCheck
  repeat' first | with_reducible assumption | ((with_reducible refine Sub.mono hk ?_); rfl) | with_reducible refine Moves.plausResult ?_ ?_ | with_reducible refine Moves.modEnt ?_ ?_ | with_reducible refine Moves.setCstate ?_ ?_ | with_reducible apply Moves.ite | with_reducible intro _ _ _ _ _ | with_reducible intro _ _ _ | with_reducible intro _ _ | extract_lets | split

theorem Moves.entryMove {n k : Nat} {s0 s : State} (hs : Moves K s0 s) (hk : Sub 0x1811004 K := by first | assumption | exact Sub.mono (by assumption) rfl) : Moves K s0 (State.entryMove s n k) := by
  unfold State.entryMove
  repeat' first | with_reducible assumption | ((with_reducible refine Sub.mono hk ?_); rfl) | with_reducible refine Moves.plausResult ?_ ?_ | with_reducible refine Moves.setCstate ?_ ?_ | with_reducible refine Moves.ev ?_ ?_ | with_reducible refine Moves.wtrCheck ?_ ?_ | with_reducible apply Moves.ite | with_reducible intro _ _ _ _ _ | with_reducible intro _ _ _ | with_reducible intro _ _ | extract_lets | split

theorem Moves.entryStep {n k : Nat} {s0 s : State} (hs : Moves K s0 s) (hk : Sub 0x7811004 K := by first | assumption | exact Sub.mono (by assumption) rfl) : Moves K s0 (State.entryStep s n k) := by
  unfold State.entryStep
  repeat' first | with_reducible assumption | ((with_reducible refine Sub.mono hk ?_); rfl) | with_reducible refine Moves.entryMove ?_ ?_ | with_reducible refine Moves.forcedCheck ?_ ?_ | with_reducible apply Moves.ite

theorem Moves.selCheck {ms : List EntryMark} {cause n : Nat} {s0 s : State} (hs : Moves K s0 s) (hk : Sub 0x587991004 K := by first | assumption | exact Sub.mono (by assumption) rfl) : Moves K s0 (State.selCheck s ms cause n) := by
  unfold State.selCheck
  repeat' first | with_reducible assumption | ((with_reducible refine Sub.mono hk ?_); rfl) | with_reducible refine Moves.when ?_ ?_ | with_reducible refine Moves.enterHoldoff ?_ ?_ | with_reducible refine Moves.selFollow ?_ ?_ | with_reducible refine Moves.evaluate ?_ ?_ | with_reducible apply Moves.ite | with_reducible intro _ _ _ _ _ | with_reducible intro _ _ _ | with_reducible intro _ _ | extract_lets | split

theorem Moves.entriesCheck {ms : List EntryMark} {cause : Nat} {s0 s : State} (hs : Moves K s0 s) (hk : Sub 0x587991004 K := by first | assumption | exact Sub.mono (by assumption) rfl) : Moves K s0 (State.entriesCheck s ms cause) := by
  unfold State.entriesCheck
  repeat' first | with_reducible assumption | ((with_reducible refine Sub.mono hk ?_); rfl) | with_reducible refine Moves.forL ?_ ?_ | with_reducible refine Moves.selCheck ?_ ?_ | with_reducible apply Moves.ite | with_reducible intro _ _ _ _ _ | with_reducible intro _ _ _ | with_reducible intro _ _ | extract_lets | split

theorem Moves.entryCheck {n k cause : Nat} {s0 s : State} (hs : Moves K s0 s) (hk : Sub 0x587991004 K := by first | assumption | exact Sub.mono (by assumption) rfl) : Moves K s0 (State.entryCheck s n k cause) := by
  unfold State.entryCheck
  repeat' first | with_reducible assumption | ((with_reducible refine Sub.mono hk ?_); rfl) | with_reducible refine Moves.selCheck ?_ ?_ | with_reducible refine Moves.entryStep ?_ ?_ | with_reducible apply Moves.ite

theorem Moves.faults {es : List (Nat × Nat)} {bit : Nat} {b : Bool} {s0 s : State} (hs : Moves K s0 s) (hk : Sub 0x587991004 K := by first | assumption | exact Sub.mono (by assumption) rfl) : Moves K s0 (State.faults s es bit b) := by
  unfold State.faults
  repeat' first | with_reducible assumption | ((with_reducible refine Sub.mono hk ?_); rfl) | with_reducible refine Moves.entriesCheck ?_ ?_ | with_reducible refine Moves.forL ?_ ?_ | with_reducible refine Moves.entryStep ?_ ?_ | with_reducible refine Moves.setFault ?_ ?_ | with_reducible apply Moves.ite | with_reducible intro _ _ _ _ _ | with_reducible intro _ _ _ | with_reducible intro _ _ | extract_lets | split

theorem Moves.fault {n k bit : Nat} {b : Bool} {s0 s : State} (hs : Moves K s0 s) (hk : Sub 0x587991004 K := by first | assumption | exact Sub.mono (by assumption) rfl) : Moves K s0 (State.fault s n k bit b) := by
  unfold State.fault
  repeat' first | with_reducible assumption | ((with_reducible refine Sub.mono hk ?_); rfl) | with_reducible refine Moves.faults ?_ ?_ | with_reducible apply Moves.ite

theorem Moves.rankStep {n k : Nat} {s0 s : State} (hs : Moves K s0 s) (hk : Sub 0x7811004 K := by first | assumption | exact Sub.mono (by assumption) rfl) : Moves K s0 (State.rankStep s n k) := by
  unfold State.rankStep
  repeat' first | with_reducible assumption | ((with_reducible refine Sub.mono hk ?_); rfl) | with_reducible refine Moves.entryStep ?_ ?_ | with_reducible refine Moves.setFault ?_ ?_ | with_reducible refine Moves.ev ?_ ?_ | with_reducible refine Moves.setf ?_ ?_ | with_reducible refine Moves.when ?_ ?_ | with_reducible apply Moves.ite | with_reducible intro _ _ _ _ _ | with_reducible intro _ _ _ | with_reducible intro _ _ | extract_lets | split

theorem Moves.refreshRanks {es : List (Nat × Nat)} {s0 s : State} (hs : Moves K s0 s) (hk : Sub 0x587991004 K := by first | assumption | exact Sub.mono (by assumption) rfl) : Moves K s0 (State.refreshRanks s es) := by
  unfold State.refreshRanks
  repeat' first | with_reducible assumption | ((with_reducible refine Sub.mono hk ?_); rfl) | with_reducible refine Moves.entriesCheck ?_ ?_ | with_reducible refine Moves.forL ?_ ?_ | with_reducible refine Moves.rankStep ?_ ?_ | with_reducible apply Moves.ite | with_reducible intro _ _ _ _ _ | with_reducible intro _ _ _ | with_reducible intro _ _ | extract_lets | split

theorem Moves.refreshRank {n k : Nat} {s0 s : State} (hs : Moves K s0 s) (hk : Sub 0x587991004 K := by first | assumption | exact Sub.mono (by assumption) rfl) : Moves K s0 (State.refreshRank s n k) := by
  unfold State.refreshRank
  repeat' first | with_reducible assumption | ((with_reducible refine Sub.mono hk ?_); rfl) | with_reducible refine Moves.refreshRanks ?_ ?_ | with_reducible apply Moves.ite

theorem Moves.putRank {n k r : Nat} {s0 s : State} (hs : Moves K s0 s) (hk : Sub 0x1000000 K := by first | assumption | exact Sub.mono (by assumption) rfl) : Moves K s0 (State.putRank s n k r) := by
  unfold State.putRank
  repeat' first | with_reducible assumption | ((with_reducible refine Sub.mono hk ?_); rfl) | with_reducible refine Moves.modEnt ?_ ?_ | with_reducible apply Moves.ite | with_reducible intro _ _ _ _ _ | with_reducible intro _ _ _ | with_reducible intro _ _ | extract_lets | split

theorem Moves.giveRank {n k r : Nat} {s0 s : State} (hs : Moves K s0 s) (hk : Sub 0x587991004 K := by first | assumption | exact Sub.mono (by assumption) rfl) : Moves K s0 (State.giveRank s n k r) := by
  unfold State.giveRank
  repeat' first | with_reducible assumption | ((with_reducible refine Sub.mono hk ?_); rfl) | with_reducible refine Moves.refreshRank ?_ ?_ | with_reducible refine Moves.putRank ?_ ?_ | with_reducible apply Moves.ite

theorem Moves.giveRanks {who : Nat} {srcs : List Nat} {r : Nat} {s0 s : State} (hs : Moves K s0 s) (hk : Sub 0x587991004 K := by first | assumption | exact Sub.mono (by assumption) rfl) : Moves K s0 (State.giveRanks s who srcs r) := by
  unfold State.giveRanks
  repeat' first | with_reducible assumption | ((with_reducible refine Sub.mono hk ?_); rfl) | with_reducible refine Moves.refreshRanks ?_ ?_ | with_reducible refine Moves.forL ?_ ?_ | with_reducible refine Moves.putRank ?_ ?_ | with_reducible apply Moves.ite | with_reducible intro _ _ _ _ _ | with_reducible intro _ _ _ | with_reducible intro _ _ | extract_lets | split

theorem Moves.resultStep {n k : Nat} {tag : Tag} {y yRaw : Int} {s0 s : State} (hs : Moves K s0 s) (hk : Sub 0x7811004 K := by first | assumption | exact Sub.mono (by assumption) rfl) : Moves K s0 (State.resultStep s n k tag y yRaw) := by
  unfold State.resultStep
  repeat' first | with_reducible assumption | ((with_reducible refine Sub.mono hk ?_); rfl) | with_reducible refine Moves.modEnt ?_ ?_ | with_reducible refine Moves.setSat ?_ ?_ | with_reducible refine Moves.setFault ?_ ?_ | with_reducible refine Moves.entryStep ?_ ?_ | with_reducible apply Moves.ite | with_reducible intro _ _ _ _ _ | with_reducible intro _ _ _ | with_reducible intro _ _ | extract_lets | split

theorem Moves.entryResults {xs : List ((Nat × Nat) × Tag × Int × Int)} {s0 s : State} (hs : Moves K s0 s) (hk : Sub 0x587991004 K := by first | assumption | exact Sub.mono (by assumption) rfl) : Moves K s0 (State.entryResults s xs) := by
  unfold State.entryResults
  repeat' first | with_reducible assumption | ((with_reducible refine Sub.mono hk ?_); rfl) | with_reducible refine Moves.entriesCheck ?_ ?_ | with_reducible refine Moves.forL ?_ ?_ | with_reducible refine Moves.resultStep ?_ ?_ | with_reducible refine Moves.forcedReturn ?_ ?_ | with_reducible apply Moves.ite | with_reducible intro _ _ _ _ _ | with_reducible intro _ _ _ | with_reducible intro _ _ | extract_lets | split

theorem Moves.entryResult {n k : Nat} {tag : Tag} {y yRaw : Int} {s0 s : State} (hs : Moves K s0 s) (hk : Sub 0x587991004 K := by first | assumption | exact Sub.mono (by assumption) rfl) : Moves K s0 (State.entryResult s n k tag y yRaw) := by
  unfold State.entryResult
  repeat' first | with_reducible assumption | ((with_reducible refine Sub.mono hk ?_); rfl) | with_reducible refine Moves.entryResults ?_ ?_ | with_reducible apply Moves.ite

theorem Moves.returnCheck {n k : Nat} {x : Sample} {s0 s : State} (hs : Moves K s0 s) (hk : Sub 0x587991004 K := by first | assumption | exact Sub.mono (by assumption) rfl) : Moves K s0 (State.returnCheck s n k x) := by
  unfold State.returnCheck
  repeat' first | with_reducible assumption | ((with_reducible refine Sub.mono hk ?_); rfl) | with_reducible refine Moves.modSel ?_ ?_ | with_reducible refine Moves.setCstate ?_ ?_ | with_reducible refine Moves.ev ?_ ?_ | with_reducible refine Moves.setf ?_ ?_ | with_reducible refine Moves.forL ?_ ?_ | with_reducible refine Moves.logSwitch ?_ ?_ | with_reducible refine Moves.freezeLoop ?_ ?_ | with_reducible refine Moves.holdoffEnd ?_ ?_ | with_reducible refine Moves.entryCheck ?_ ?_ | with_reducible apply Moves.ite | with_reducible intro _ _ _ _ _ | with_reducible intro _ _ _ | with_reducible intro _ _ | extract_lets | split

theorem Moves.entrySample {n k : Nat} {tag : Tag} {x : Int × Nat} {s0 s : State} (hs : Moves K s0 s) (hk : Sub 0x587991004 K := by first | assumption | exact Sub.mono (by assumption) rfl) : Moves K s0 (State.entrySample s n k tag x) := by
  unfold State.entrySample
  repeat' first | with_reducible assumption | ((with_reducible refine Sub.mono hk ?_); rfl) | with_reducible refine Moves.modEnt ?_ ?_ | with_reducible refine Moves.setFault ?_ ?_ | with_reducible refine Moves.returnCheck ?_ ?_ | with_reducible refine Moves.entryCheck ?_ ?_ | with_reducible apply Moves.ite | with_reducible intro _ _ _ _ _ | with_reducible intro _ _ _ | with_reducible intro _ _ | extract_lets | split | dsimp +zetaDelta only

theorem Moves.freshEntry {n k : Nat} {s0 s : State} (hs : Moves K s0 s) (hk : Sub 0x1000000 K := by first | assumption | exact Sub.mono (by assumption) rfl) : Moves K s0 (State.freshEntry s n k) := by
  unfold State.freshEntry
  repeat' first | with_reducible assumption | ((with_reducible refine Sub.mono hk ?_); rfl) | with_reducible refine Moves.modEnt ?_ ?_ | with_reducible apply Moves.ite | with_reducible intro _ _ _ _ _ | with_reducible intro _ _ _ | with_reducible intro _ _ | extract_lets | split

theorem Moves.landingActivity {m : Nat} {lost : Bool} {s0 s : State} (hs : Moves K s0 s) (hk : Sub 0x587991004 K := by first | assumption | exact Sub.mono (by assumption) rfl) : Moves K s0 (State.landingActivity s m lost) := by
  unfold State.landingActivity
  repeat' first | with_reducible assumption | ((with_reducible refine Sub.mono hk ?_); rfl) | with_reducible refine Moves.faults ?_ ?_ | with_reducible apply Moves.ite

end Sys2Proof.Machine
end

