-- ==== Sys2Proof/Laws/KeepLandOps.lean ====
section
/-! SUPPORT. What the operations of Machine/LandOps.lean keep: the queue, the canonical form of the tables, and the parts of the state outside those named. -/

set_option Elab.async false

set_option linter.unreachableTactic false
set_option linter.unusedTactic false

namespace Sys2Proof.Machine

variable {K : Nat}

theorem Moves.refreshSettling {n : Nat} {s0 s : State} (hs : Moves K s0 s) (hk : Sub 0x4 K := by first | assumption | exact Sub.mono (by assumption) rfl) : Moves K s0 (State.refreshSettling s n) := by
  unfold State.refreshSettling
  repeat' first | with_reducible assumption | ((with_reducible refine Sub.mono hk ?_); rfl) | with_reducible refine Moves.setb ?_ ?_ | with_reducible apply Moves.ite | with_reducible intro _ _ _ _ _ | with_reducible intro _ _ _ | with_reducible intro _ _ | extract_lets | split

theorem Second.freeWords {k : Nat} {s0 s : State} (hs : Moves K s0 s) (hk : Sub 0x2 K := by first | assumption | exact Sub.mono (by assumption) rfl) : Second K s0 (State.freeWords s k) := by
  unfold State.freeWords
  repeat' first | with_reducible assumption | with_reducible refine Moves.took ?_ ?_ | with_reducible apply Moves.ite | with_reducible apply Second.ite | with_reducible intro _ _ _ _ _ | with_reducible intro _ _ _ | with_reducible intro _ _ | extract_lets | split | with_reducible apply Second.mk

theorem Moves.publish {n : Nat} {tag : Tag} {kind flags : Nat} {ws : List Word} {s0 s : State} (hs : Moves K s0 s) (hk : Sub 0x80401004 K := by first | assumption | exact Sub.mono (by assumption) rfl) : Moves K s0 (State.publish s n tag kind flags ws) := by
  unfold State.publish
  repeat' first | with_reducible assumption | ((with_reducible refine Sub.mono hk ?_); rfl) | with_reducible refine Moves.modLnd ?_ ?_ | with_reducible refine Moves.setf ?_ ?_ | with_reducible refine Moves.ev ?_ ?_ | with_reducible refine Moves.route ?_ ?_

theorem Moves.deliverResult {n : Nat} {tag : Tag} {y yRaw : Int} {s0 s : State} (hs : Moves K s0 s) (hk : Sub 0x587991004 K := by first | assumption | exact Sub.mono (by assumption) rfl) : Moves K s0 (State.deliverResult s n tag y yRaw) := by
  unfold State.deliverResult
  repeat' first | with_reducible assumption | ((with_reducible refine Sub.mono hk ?_); rfl) | with_reducible refine Moves.entryResults ?_ ?_ | with_reducible apply Moves.ite | with_reducible intro _ _ _ _ _ | with_reducible intro _ _ _ | with_reducible intro _ _ | extract_lets | split

theorem Moves.gapRegression {n flags k endMs : Nat} {s0 s : State} (hs : Moves K s0 s) (hk : Sub 0x587D91006 K := by first | assumption | exact Sub.mono (by assumption) rfl) : Moves K s0 (State.gapRegression s n flags k endMs) := by
  unfold State.gapRegression
  repeat' first | with_reducible assumption | ((with_reducible refine Sub.mono hk ?_); rfl) | with_reducible refine Second.freeWords ?_ ?_ | with_reducible refine (Second.freeWords ?_ ?_).out ‹_› | with_reducible refine (Second.freeWords ?_ ?_).snd | with_reducible refine Moves.publish ?_ ?_ | with_reducible refine Moves.deliverResult ?_ ?_

theorem Moves.gapInterval {n flags : Nat} {s0 s : State} (hs : Moves K s0 s) (hk : Sub 0x80401006 K := by first | assumption | exact Sub.mono (by assumption) rfl) : Moves K s0 (State.gapInterval s n flags) := by
  unfold State.gapInterval
  repeat' first | with_reducible assumption | ((with_reducible refine Sub.mono hk ?_); rfl) | with_reducible refine Second.freeWords ?_ ?_ | with_reducible refine (Second.freeWords ?_ ?_).out ‹_› | with_reducible refine (Second.freeWords ?_ ?_).snd | with_reducible refine Moves.modLnd ?_ ?_ | with_reducible refine Moves.setf ?_ ?_ | with_reducible refine Moves.publish ?_ ?_

theorem Moves.openGate {n start : Nat} {s0 s : State} (hs : Moves K s0 s) (hk : Sub 0x400004 K := by first | assumption | exact Sub.mono (by assumption) rfl) : Moves K s0 (State.openGate s n start) := by
  unfold State.openGate
  repeat' first | with_reducible assumption | ((with_reducible refine Sub.mono hk ?_); rfl) | with_reducible refine Moves.setf ?_ ?_ | with_reducible refine Moves.modLnd ?_ ?_ | with_reducible apply Moves.ite | with_reducible intro _ _ _ _ _ | with_reducible intro _ _ _ | with_reducible intro _ _ | extract_lets | split

theorem Moves.closeGate {n stop : Nat} {long : Bool} {s0 s : State} (hs : Moves K s0 s) (hk : Sub 0x400004 K := by first | assumption | exact Sub.mono (by assumption) rfl) : Moves K s0 (State.closeGate s n stop long) := by
  unfold State.closeGate
  repeat' first | with_reducible assumption | ((with_reducible refine Sub.mono hk ?_); rfl) | with_reducible refine Moves.setf ?_ ?_ | with_reducible refine Moves.modLnd ?_ ?_ | with_reducible apply Moves.ite | with_reducible intro _ _ _ _ _ | with_reducible intro _ _ _ | with_reducible intro _ _ | extract_lets | split

theorem Moves.abandon {n : Nat} {s0 s : State} (hs : Moves K s0 s) (hk : Sub 0x587D91006 K := by first | assumption | exact Sub.mono (by assumption) rfl) : Moves K s0 (State.abandon s n) := by
  unfold State.abandon
  repeat' first | with_reducible assumption | ((with_reducible refine Sub.mono hk ?_); rfl) | with_reducible refine Moves.gapRegression ?_ ?_ | with_reducible refine Moves.modLnd ?_ ?_ | with_reducible refine Moves.gapInterval ?_ ?_ | with_reducible apply Moves.ite | with_reducible intro _ _ _ _ _ | with_reducible intro _ _ _ | with_reducible intro _ _ | extract_lets | split

theorem Moves.selectInput {n : Nat} {s0 s : State} (hs : Moves K s0 s) (hk : Sub 0x400004 K := by first | assumption | exact Sub.mono (by assumption) rfl) : Moves K s0 (State.selectInput s n) := by
  unfold State.selectInput
  repeat' first | with_reducible assumption | ((with_reducible refine Sub.mono hk ?_); rfl) | with_reducible refine Moves.refreshSettling ?_ ?_ | with_reducible refine Moves.modLnd ?_ ?_ | with_reducible apply Moves.ite | with_reducible intro _ _ _ _ _ | with_reducible intro _ _ _ | with_reducible intro _ _ | extract_lets | split

theorem Moves.beginLanding {n : Nat} {s0 s : State} (hs : Moves K s0 s) (hk : Sub 0x400004 K := by first | assumption | exact Sub.mono (by assumption) rfl) : Moves K s0 (State.beginLanding s n) := by
  unfold State.beginLanding
  repeat' first | with_reducible assumption | ((with_reducible refine Sub.mono hk ?_); rfl) | with_reducible refine Moves.modLnd ?_ ?_ | with_reducible refine Moves.selectInput ?_ ?_ | with_reducible refine Moves.setf ?_ ?_ | with_reducible refine Moves.openGate ?_ ?_ | with_reducible apply Moves.ite | with_reducible intro _ _ _ _ _ | with_reducible intro _ _ _ | with_reducible intro _ _ | extract_lets | split

theorem Moves.restartLanding {n : Nat} {s0 s : State} (hs : Moves K s0 s) (hk : Sub 0x587D91006 K := by first | assumption | exact Sub.mono (by assumption) rfl) : Moves K s0 (State.restartLanding s n) := by
  unfold State.restartLanding
  repeat' first | with_reducible assumption | ((with_reducible refine Sub.mono hk ?_); rfl) | with_reducible refine Moves.abandon ?_ ?_ | with_reducible refine Moves.beginLanding ?_ ?_

theorem Moves.refreshActivity {n : Nat} {s0 s : State} (hs : Moves K s0 s) (hk : Sub 0x587991004 K := by first | assumption | exact Sub.mono (by assumption) rfl) : Moves K s0 (State.refreshActivity s n) := by
  unfold State.refreshActivity
  repeat' first | with_reducible assumption | with_reducible refine Moves.landingActivity ?_ ?_

theorem Moves.loseActivity {n : Nat} {s0 s : State} (hs : Moves K s0 s) (hk : Sub 0x587D91006 K := by first | assumption | exact Sub.mono (by assumption) rfl) : Moves K s0 (State.loseActivity s n) := by
  unfold State.loseActivity
  repeat' first | with_reducible assumption | ((with_reducible refine Sub.mono hk ?_); rfl) | with_reducible refine Moves.modLnd ?_ ?_ | with_reducible refine Moves.setf ?_ ?_ | with_reducible refine Moves.route ?_ ?_ | with_reducible refine Moves.ev ?_ ?_ | with_reducible refine Moves.gapInterval ?_ ?_ | with_reducible refine Moves.refreshActivity ?_ ?_ | with_reducible apply Moves.ite | with_reducible intro _ _ _ _ _ | with_reducible intro _ _ _ | with_reducible intro _ _ | extract_lets | split

theorem Moves.activityEdge {n t : Nat} {s0 s : State} (hs : Moves K s0 s) (hk : Sub 0x587D91004 K := by first | assumption | exact Sub.mono (by assumption) rfl) : Moves K s0 (State.activityEdge s n t) := by
  unfold State.activityEdge
  repeat' first | with_reducible assumption | ((with_reducible refine Sub.mono hk ?_); rfl) | with_reducible refine Moves.modLnd ?_ ?_ | with_reducible refine Moves.setf ?_ ?_ | with_reducible refine Moves.refreshActivity ?_ ?_ | with_reducible refine Moves.route ?_ ?_ | with_reducible refine Moves.ev ?_ ?_ | with_reducible apply Moves.ite | with_reducible intro _ _ _ _ _ | with_reducible intro _ _ _ | with_reducible intro _ _ | extract_lets | split | dsimp +zetaDelta only

end Sys2Proof.Machine
end

