-- ==== Sys2Proof/Laws/KeepBanks.lean ====
section
/-! SUPPORT. What the operations of Machine/Banks.lean keep: the queue, the canonical form of the tables, and the parts of the state outside those named. -/

set_option Elab.async false

set_option linter.unreachableTactic false
set_option linter.unusedTactic false

namespace Sys2Proof.Machine

variable {K : Nat}

theorem Moves.setEcc {w b : Nat} {s0 s : State} (h : Moves K s0 s) (hk : Sub 0x10 K := by first | assumption | exact Sub.mono (by assumption) rfl) : Moves K s0 (s.setEcc w b) := h.ecc (Tab.wf_set _ _ _)

theorem Moves.injDone {s0 s : State} (hs : Moves K s0 s) (hk : Sub 0x1004 K := by first | assumption | exact Sub.mono (by assumption) rfl) : Moves K s0 (State.injDone s) := by
  unfold State.injDone
  repeat' first | with_reducible assumption | ((with_reducible refine Sub.mono hk ?_); rfl) | with_reducible refine Moves.setf ?_ ?_ | with_reducible refine Moves.ev ?_ ?_

theorem Moves.eccWrite {w : Nat} {s0 s : State} (hs : Moves K s0 s) (hk : Sub 0x1814 K := by first | assumption | exact Sub.mono (by assumption) rfl) : Moves K s0 (State.eccWrite s w) := by
  unfold State.eccWrite
  repeat' first | with_reducible assumption | ((with_reducible refine Sub.mono hk ?_); rfl) | with_reducible refine Moves.setEcc ?_ ?_ | with_reducible refine Moves.injDone ?_ ?_ | with_reducible apply Moves.ite | fail_if_no_progress (with_reducible refine Moves.plain ?_ ?_ ?_ ?_ ?_ ?_ ?_ ?_ ?_ ?_ ?_ ?_ ?_ ?_ ?_ ?_ ?_ <;> first | ((with_reducible refine Or.inr (Sub.bit hk ?_)); decide) | with_reducible exact Or.inl rfl | skip) | fail_if_no_progress (with_reducible refine Moves.plainNv ?_ rfl rfl rfl ?_ ?_ ?_ ?_ ?_ ?_ ?_ ?_ ?_ ?_ ?_ ?_ ?_ ?_ ?_ ?_ ?_ <;> first | ((with_reducible refine Or.inr (Sub.bit hk ?_)); decide) | with_reducible exact Or.inl rfl | skip) | with_reducible intro _ _ _ _ _ | with_reducible intro _ _ _ | with_reducible intro _ _ | extract_lets | split

theorem Moves.bankWrite {a : Nat} {bs : List Byte} {s0 s : State} (hs : Moves K s0 s) (hk : Sub 0x181C K := by first | assumption | exact Sub.mono (by assumption) rfl) : Moves K s0 (State.bankWrite s a bs) := by
  unfold State.bankWrite
  repeat' first | with_reducible assumption | ((with_reducible refine Sub.mono hk ?_); rfl) | with_reducible refine Moves.setBytes ?_ ?_ | with_reducible refine Moves.forL ?_ ?_ | with_reducible refine Moves.eccWrite ?_ ?_ | with_reducible apply Moves.ite | with_reducible intro _ _ _ _ _ | with_reducible intro _ _ _

theorem Tab.wf_rising {t : List (Nat × Byte)} (hc : t.Pairwise (fun x y => x.1 < y.1)) (hz : ∀ x ∈ t, x.2 ≠ 0) :
    Tab.wf memDefault t = true := by
  induction t with
  | nil => rfl
  | cons e t ih =>
    obtain ⟨k, v⟩ := e
    rw [List.pairwise_cons] at hc
    exact (Tab.wf_cons _ _ _ _).2 ⟨hz _ List.mem_cons_self, fun e he => hc.1 e he, ih hc.2 (fun x hx => hz x (List.mem_cons_of_mem _ hx))⟩

theorem Moves.fillRegion {a n : Nat} {cells : List (Nat × Byte)} {s0 s : State} (h : Moves K s0 s)
    (hc : cells.Pairwise (fun x y => x.1 < y.1)) (hk : Sub 0x18 K := by first | assumption | exact Sub.mono (by assumption) rfl) : Moves K s0 (s.fillRegion a n cells) := by
  unfold State.fillRegion
  have hm : s.Wf → Tab.wf memDefault (s.mem.filter (fun x => decide (x.1 < a)) ++
      (cells.filter (fun x => x.2 ≠ 0 ∧ a ≤ x.1 ∧ x.1 < a + n)) ++ s.mem.filter (fun x => decide (a + n ≤ x.1))) = true := fun w => by
    refine Tab.wf_append _ (Tab.wf_append _ (Tab.wf_filter _ _ w.mem) (Tab.wf_rising (hc.filter _) ?_) ?_) (Tab.wf_filter _ _ w.mem) ?_
    · intro x hx
      have := (List.mem_filter.1 hx).2
      simp only [decide_eq_true_eq] at this
      exact this.1
    · intro e he x hx
      have h1 := (List.mem_filter.1 he).2
      have h2 := (List.mem_filter.1 hx).2
      simp only [decide_eq_true_eq] at h1 h2
      omega
    · intro e he x hx
      have h2 := (List.mem_filter.1 hx).2
      simp only [decide_eq_true_eq] at h2
      rcases List.mem_append.1 he with he | he
      · have h1 := (List.mem_filter.1 he).2
        simp only [decide_eq_true_eq] at h1
        omega
      · have h1 := (List.mem_filter.1 he).2
        simp only [decide_eq_true_eq] at h1
        omega
  exact h.into rfl (fun w => ⟨w.regs, hm w, Tab.wf_filter _ _ w.ecc, w.scrub, w.flash, w.lnd, w.sel, w.ent, w.loop, w.ho, w.apl, w.out, w.tsc, w.tod, w.tasks, w.prt, w.pte, w.berth, w.gens, w.shadow, w.array, w.incoming⟩) (.inl rfl) (.inl rfl) (.inl rfl) (.inr (hk.bit rfl)) (.inr (hk.bit rfl)) (.inl rfl) (.inl rfl) (.inl rfl) (.inl rfl) (.inl rfl) (.inl rfl) (.inl rfl) (.inl rfl) (.inl rfl) (.inl rfl) (.inl rfl) (.inl rfl) (.inl rfl) (.inl rfl) (.inl rfl) (.inl rfl) (.inl rfl) (.inl rfl) (.inl rfl) (.inl rfl) (.inl rfl) (.inl rfl) (.inl rfl) (.inl rfl) (.inl rfl) (.inl rfl) (.inl rfl) (.inl rfl) (.inl rfl) (.inl rfl) (.inl rfl)

theorem Moves.zeroSp {sp : Nat} {s0 s : State} (h : Moves K s0 s) (hk : Sub 0x18 K := by first | assumption | exact Sub.mono (by assumption) rfl) : Moves K s0 (s.zeroSp sp) := h.fillRegion .nil

theorem Moves.refreshEng {s0 s : State} (hs : Moves K s0 s) (hk : Sub 0x1004 K := by first | assumption | exact Sub.mono (by assumption) rfl) : Moves K s0 (State.refreshEng s) := by
  unfold State.refreshEng
  repeat' first | with_reducible assumption | ((with_reducible refine Sub.mono hk ?_); rfl) | with_reducible refine Moves.setf ?_ ?_ | with_reducible refine Moves.setb ?_ ?_ | with_reducible refine Moves.evIf ?_ ?_

theorem Moves.mirrorEngine {e : Nat} {s0 s : State} (hs : Moves K s0 s) (hk : Sub 0x181C K := by first | assumption | exact Sub.mono (by assumption) rfl) : Moves K s0 (State.mirrorEngine s e) := by
  unfold State.mirrorEngine
  repeat' first | with_reducible assumption | with_reducible refine Moves.bankWrite ?_ ?_

theorem Moves.setEngine {e st loop : Nat} {s0 s : State} (hs : Moves K s0 s) (hk : Sub 0x181C K := by first | assumption | exact Sub.mono (by assumption) rfl) : Moves K s0 (State.setEngine s e st loop) := by
  unfold State.setEngine
  repeat' first | with_reducible assumption | ((with_reducible refine Sub.mono hk ?_); rfl) | with_reducible refine Moves.incWrap ?_ ?_ | with_reducible refine Moves.setf ?_ ?_ | with_reducible refine Moves.mirrorEngine ?_ ?_ | with_reducible refine Moves.refreshEng ?_ ?_ | with_reducible apply Moves.ite | fail_if_no_progress (with_reducible refine Moves.plain ?_ ?_ ?_ ?_ ?_ ?_ ?_ ?_ ?_ ?_ ?_ ?_ ?_ ?_ ?_ ?_ ?_ <;> first | ((with_reducible refine Or.inr (Sub.bit hk ?_)); decide) | with_reducible exact Or.inl rfl | skip)

theorem Moves.setEntry {e : Nat} {x : Fld} {v : Nat} {s0 s : State} (hs : Moves K s0 s) (hk : Sub 0x181C K := by first | assumption | exact Sub.mono (by assumption) rfl) : Moves K s0 (State.setEntry s e x v) := by
  unfold State.setEntry
  repeat' first | with_reducible assumption | ((with_reducible refine Sub.mono hk ?_); rfl) | with_reducible refine Moves.mirrorEngine ?_ ?_ | with_reducible refine Moves.setf ?_ ?_ | with_reducible apply Moves.ite

theorem rising_emptyHistory (e : Nat) : (emptyHistory e).Pairwise (fun x y => x.1 < y.1) := by
  unfold emptyHistory
  rw [List.pairwise_map]
  exact List.pairwise_lt_range.imp (fun h => by dsimp only; omega)

theorem Moves.patternHistory {e : Nat} {s0 s : State} (hs : Moves K s0 s) (hk : Sub 0x18 K := by first | assumption | exact Sub.mono (by assumption) rfl) : Moves K s0 (State.patternHistory s e) :=
  hs.fillRegion (rising_emptyHistory e)

theorem Moves.toPontoon {e : Nat} {s0 s : State} (hs : Moves K s0 s) (hk : Sub 0x181C K := by first | assumption | exact Sub.mono (by assumption) rfl) : Moves K s0 (State.toPontoon s e) := by
  unfold State.toPontoon
  repeat' first | with_reducible assumption | ((with_reducible refine Sub.mono hk ?_); rfl) | with_reducible refine Moves.setEngine ?_ ?_ | with_reducible refine Moves.patternHistory ?_ ?_ | with_reducible apply Moves.ite

theorem Moves.letGo {l : Nat} {s0 s : State} (hs : Moves K s0 s) (hk : Sub 0x18 K := by first | assumption | exact Sub.mono (by assumption) rfl) : Moves K s0 (State.letGo s l) := by
  unfold State.letGo
  repeat' first | with_reducible assumption | ((with_reducible refine Sub.mono hk ?_); rfl) | with_reducible refine Moves.patternHistory ?_ ?_ | with_reducible apply Moves.ite | with_reducible intro _ _ _ _ _ | with_reducible intro _ _ _ | with_reducible intro _ _ | extract_lets | split

end Sys2Proof.Machine
end

