-- ==== Sys2Proof/Laws/KeepBlocks.lean ====
section
/-! SUPPORT. What the operations of Machine/Blocks.lean keep: the queue, the canonical form of the tables, and the parts of the state outside those named. -/

set_option Elab.async false

set_option linter.unreachableTactic false
set_option linter.unusedTactic false

namespace Sys2Proof.Machine

variable {K : Nat}

theorem Moves.resetFrontEnd {n : Nat} {s0 s : State} (hs : Moves K s0 s) (hk : Sub 0x587D91006 K := by first | assumption | exact Sub.mono (by assumption) rfl) : Moves K s0 (State.resetFrontEnd s n) := by
  unfold State.resetFrontEnd
  repeat' first | with_reducible assumption | ((with_reducible refine Sub.mono hk ?_); rfl) | with_reducible refine Moves.restartLanding ?_ ?_ | with_reducible refine Moves.modLnd ?_ ?_ | with_reducible refine Moves.setf ?_ ?_

theorem Moves.streamFault {slot : Nat} {lost : Bool} {s0 s : State} (hs : Moves K s0 s) (hk : Sub 0x587991004 K := by first | assumption | exact Sub.mono (by assumption) rfl) : Moves K s0 (State.streamFault s slot lost) := by
  unfold State.streamFault
  repeat' first | with_reducible assumption | ((with_reducible refine Sub.mono hk ?_); rfl) | with_reducible refine Moves.faults ?_ ?_ | with_reducible apply Moves.ite

theorem Moves.portDownWith {n : Nat} {rx : Bool} {s0 s : State} (hs : Moves K s0 s) (hk : Sub 0x587D91006 K := by first | assumption | exact Sub.mono (by assumption) rfl) : Moves K s0 (State.portDownWith s n rx) := by
  unfold State.portDownWith
  repeat' first | with_reducible assumption | ((with_reducible refine Sub.mono hk ?_); rfl) | with_reducible refine Moves.modPrt ?_ ?_ | with_reducible refine Moves.setf ?_ ?_ | with_reducible refine Moves.modLnd ?_ ?_ | with_reducible refine Moves.forL ?_ ?_ | with_reducible refine Moves.dropped ?_ ?_ | with_reducible refine Moves.ev ?_ ?_ | with_reducible refine Moves.count ?_ ?_ | with_reducible refine Moves.loseActivity ?_ ?_ | with_reducible refine Moves.refreshSettling ?_ ?_ | with_reducible refine Moves.streamFault ?_ ?_ | with_reducible apply Moves.ite | with_reducible intro _ _ _ _ _ | with_reducible intro _ _ _ | with_reducible intro _ _ | extract_lets | split

theorem Moves.portDown {n : Nat} {s0 s : State} (hs : Moves K s0 s) (hk : Sub 0x587D91006 K := by first | assumption | exact Sub.mono (by assumption) rfl) : Moves K s0 (State.portDown s n) := by
  unfold State.portDown
  repeat' first | with_reducible assumption | with_reducible refine Moves.portDownWith ?_ ?_

theorem Moves.setEq {n v : Nat} {s0 s : State} (hs : Moves K s0 s) (hk : Sub 0x4 K := by first | assumption | exact Sub.mono (by assumption) rfl) : Moves K s0 (State.setEq s n v) := by
  unfold State.setEq
  repeat' first | with_reducible assumption | with_reducible refine Moves.setf ?_ ?_

theorem Moves.retrain {n : Nat} {s0 s : State} (hs : Moves K s0 s) (hk : Sub 0x587D91006 K := by first | assumption | exact Sub.mono (by assumption) rfl) : Moves K s0 (State.retrain s n) := by
  unfold State.retrain
  repeat' first | with_reducible assumption | ((with_reducible refine Sub.mono hk ?_); rfl) | with_reducible refine Moves.when ?_ ?_ | with_reducible refine Moves.portDown ?_ ?_ | with_reducible refine Moves.setEq ?_ ?_ | with_reducible apply Moves.ite | with_reducible intro _ _ _ _ _ | with_reducible intro _ _ _ | with_reducible intro _ _ | extract_lets | split

theorem Moves.resetPort {n : Nat} {s0 s : State} (hs : Moves K s0 s) (hk : Sub 0x587D91006 K := by first | assumption | exact Sub.mono (by assumption) rfl) : Moves K s0 (State.resetPort s n) := by
  unfold State.resetPort
  repeat' first | with_reducible assumption | ((with_reducible refine Sub.mono hk ?_); rfl) | with_reducible refine Moves.ev ?_ ?_ | with_reducible refine Moves.retrain ?_ ?_ | with_reducible apply Moves.ite

theorem Moves.xlkPut {lane type : Nat} {f : List Byte} {s0 s : State} (hs : Moves K s0 s) (hk : Sub 0x100000 K := by first | assumption | exact Sub.mono (by assumption) rfl) : Moves K s0 (State.xlkPut s lane type f) := by
  unfold State.xlkPut
  repeat' first | with_reducible assumption | with_reducible refine Moves.sent ?_ ?_ | with_reducible apply Moves.ite | fail_if_no_progress (with_reducible refine Moves.plain ?_ ?_ ?_ ?_ ?_ ?_ ?_ ?_ ?_ ?_ ?_ ?_ ?_ ?_ ?_ ?_ ?_ <;> first | ((with_reducible refine Or.inr (Sub.bit hk ?_)); decide) | with_reducible exact Or.inl rfl | skip)

theorem Moves.xlkSeq {s0 s : State} (hs : Moves K s0 s) (hk : Sub 0x100000 K := by first | assumption | exact Sub.mono (by assumption) rfl) : Moves K s0 (State.xlkSeq s) := by
  unfold State.xlkSeq
  repeat' first | with_reducible assumption | with_reducible apply Moves.ite | fail_if_no_progress (with_reducible refine Moves.plain ?_ ?_ ?_ ?_ ?_ ?_ ?_ ?_ ?_ ?_ ?_ ?_ ?_ ?_ ?_ ?_ ?_ <;> first | ((with_reducible refine Or.inr (Sub.bit hk ?_)); decide) | with_reducible exact Or.inl rfl | skip)

theorem Moves.xlkSend {lane type : Nat} {body : List Byte} {s0 s : State} (hs : Moves K s0 s) (hk : Sub 0x100000 K := by first | assumption | exact Sub.mono (by assumption) rfl) : Moves K s0 (State.xlkSend s lane type body) := by
  unfold State.xlkSend
  repeat' first | with_reducible assumption | ((with_reducible refine Sub.mono hk ?_); rfl) | with_reducible refine Moves.xlkPut ?_ ?_ | with_reducible refine Moves.xlkSeq ?_ ?_

theorem Moves.xlkSendBoth {type : Nat} {body : List Byte} {s0 s : State} (hs : Moves K s0 s) (hk : Sub 0x100000 K := by first | assumption | exact Sub.mono (by assumption) rfl) : Moves K s0 (State.xlkSendBoth s type body) := by
  unfold State.xlkSendBoth
  repeat' first | with_reducible assumption | ((with_reducible refine Sub.mono hk ?_); rfl) | with_reducible refine Moves.xlkPut ?_ ?_ | with_reducible refine Moves.xlkSeq ?_ ?_

theorem Moves.xlkNotice {kind : Nat} {s0 s : State} (hs : Moves K s0 s) (hk : Sub 0x100000 K := by first | assumption | exact Sub.mono (by assumption) rfl) : Moves K s0 (State.xlkNotice s kind) := by
  unfold State.xlkNotice
  repeat' first | with_reducible assumption | ((with_reducible refine Sub.mono hk ?_); rfl) | with_reducible refine Moves.xlkSendBoth ?_ ?_ | with_reducible apply Moves.ite | with_reducible intro _ _ _ _ _ | with_reducible intro _ _ _ | with_reducible intro _ _ | extract_lets | split

end Sys2Proof.Machine
end

