-- ==== Sys2Proof/Laws/KeepOutOps.lean ====
section
/-! SUPPORT. What the operations of Machine/OutOps.lean keep: the queue, the canonical form of the tables, and the parts of the state outside those named. -/

set_option Elab.async false

set_option linter.unreachableTactic false
set_option linter.unusedTactic false

namespace Sys2Proof.Machine

variable {K : Nat}

theorem Moves.setNom {n uhz : Nat} {s0 s : State} (hs : Moves K s0 s) (hk : Sub 0x8000004 K := by first | assumption | exact Sub.mono (by assumption) rfl) : Moves K s0 (State.setNom s n uhz) := by
  unfold State.setNom
  repeat' first | with_reducible assumption | ((with_reducible refine Sub.mono hk ?_); rfl) | with_reducible refine Moves.modApl ?_ ?_ | with_reducible refine Moves.setf ?_ ?_

theorem Moves.freeBand {n : Nat} {s0 s : State} (hs : Moves K s0 s) (hk : Sub 0x6 K := by first | assumption | exact Sub.mono (by assumption) rfl) : Moves K s0 (State.freeBand s n) := by
  unfold State.freeBand
  repeat' first | with_reducible assumption | ((with_reducible refine Sub.mono hk ?_); rfl) | with_reducible refine Moves.setf ?_ ?_ | with_reducible refine Moves.took ?_ ?_

theorem Moves.haltRamp {n : Nat} {s0 s : State} (hs : Moves K s0 s) (hk : Sub 0x8000006 K := by first | assumption | exact Sub.mono (by assumption) rfl) : Moves K s0 (State.haltRamp s n) := by
  unfold State.haltRamp
  repeat' first | with_reducible assumption | ((with_reducible refine Sub.mono hk ?_); rfl) | with_reducible refine Moves.setNom ?_ ?_ | with_reducible refine Moves.freeBand ?_ ?_ | with_reducible refine Moves.modApl ?_ ?_ | with_reducible refine Moves.setf ?_ ?_ | with_reducible apply Moves.ite

theorem Moves.abortRamp {n : Nat} {s0 s : State} (hs : Moves K s0 s) (hk : Sub 0x8001006 K := by first | assumption | exact Sub.mono (by assumption) rfl) : Moves K s0 (State.abortRamp s n) := by
  unfold State.abortRamp
  repeat' first | with_reducible assumption | ((with_reducible refine Sub.mono hk ?_); rfl) | with_reducible refine Moves.evIf ?_ ?_ | with_reducible refine Moves.haltRamp ?_ ?_ | with_reducible refine Moves.modApl ?_ ?_

theorem Moves.ferryApl {n : Nat} {s0 s : State} (hs : Moves K s0 s) (hk : Sub 0x8000006 K := by first | assumption | exact Sub.mono (by assumption) rfl) : Moves K s0 (State.ferryApl s n) := by
  unfold State.ferryApl
  repeat' first | with_reducible assumption | ((with_reducible refine Sub.mono hk ?_); rfl) | with_reducible refine Moves.haltRamp ?_ ?_ | with_reducible refine Moves.modApl ?_ ?_

theorem Moves.startRamp {n : Nat} {segs : List Segment} {s0 s : State} (hs : Moves K s0 s) (hk : Sub 0x8001006 K := by first | assumption | exact Sub.mono (by assumption) rfl) : Moves K s0 (State.startRamp s n segs) := by
  unfold State.startRamp
  repeat' first | with_reducible assumption | ((with_reducible refine Sub.mono hk ?_); rfl) | with_reducible refine Moves.haltRamp ?_ ?_ | with_reducible refine Moves.evIf ?_ ?_ | with_reducible refine Moves.freeBand ?_ ?_ | with_reducible refine Moves.modApl ?_ ?_ | with_reducible refine Moves.setf ?_ ?_ | with_reducible apply Moves.ite | with_reducible intro _ _ _ _ _ | with_reducible intro _ _ _ | with_reducible intro _ _ | extract_lets | split

theorem Moves.refreshOut {m : Nat} {s0 s : State} (hs : Moves K s0 s) (hk : Sub 0x10001004 K := by first | assumption | exact Sub.mono (by assumption) rfl) : Moves K s0 (State.refreshOut s m) := by
  unfold State.refreshOut
  repeat' first | with_reducible assumption | ((with_reducible refine Sub.mono hk ?_); rfl) | with_reducible refine Moves.setb ?_ ?_ | with_reducible refine Moves.modOut ?_ ?_ | with_reducible refine Moves.evIf ?_ ?_ | with_reducible apply Moves.ite | with_reducible intro _ _ _ _ _ | with_reducible intro _ _ _ | with_reducible intro _ _ | extract_lets | split

theorem Moves.refreshLol {m n : Nat} {s0 s : State} (hs : Moves K s0 s) (hk : Sub 0x10001004 K := by first | assumption | exact Sub.mono (by assumption) rfl) : Moves K s0 (State.refreshLol s m n) := by
  unfold State.refreshLol
  repeat' first | with_reducible assumption | ((with_reducible refine Sub.mono hk ?_); rfl) | with_reducible refine Moves.modOut ?_ ?_ | with_reducible refine Moves.setb ?_ ?_ | with_reducible refine Moves.evIf ?_ ?_ | with_reducible refine Moves.refreshOut ?_ ?_

theorem Moves.refreshSynth {n : Nat} {s0 s : State} (hs : Moves K s0 s) (hk : Sub 0x10001004 K := by first | assumption | exact Sub.mono (by assumption) rfl) : Moves K s0 (State.refreshSynth s n) := by
  unfold State.refreshSynth
  repeat' first | with_reducible assumption | with_reducible refine Moves.forL ?_ ?_ | with_reducible refine Moves.refreshLol ?_ ?_ | with_reducible apply Moves.ite | with_reducible intro _ _ _ _ _ | with_reducible intro _ _ _

theorem Moves.ferrySquelch {m : Nat} {s0 s : State} (hs : Moves K s0 s) (hk : Sub 0x10011004 K := by first | assumption | exact Sub.mono (by assumption) rfl) : Moves K s0 (State.ferrySquelch s m) := by
  unfold State.ferrySquelch
  repeat' first | with_reducible assumption | ((with_reducible refine Sub.mono hk ?_); rfl) | with_reducible refine Moves.modOut ?_ ?_ | with_reducible refine Moves.setf ?_ ?_ | with_reducible refine Moves.ev ?_ ?_ | with_reducible refine Moves.refreshOut ?_ ?_ | with_reducible refine Moves.logDev ?_ ?_

theorem Moves.refreshMode {m : Nat} {s0 s : State} (hs : Moves K s0 s) (hk : Sub 0x4 K := by first | assumption | exact Sub.mono (by assumption) rfl) : Moves K s0 (State.refreshMode s m) := by
  unfold State.refreshMode
  repeat' first | with_reducible assumption | with_reducible refine Moves.setf ?_ ?_

theorem Moves.setDivider {m dint dfrac : Nat} {s0 s : State} (hs : Moves K s0 s) (hk : Sub 0x10000004 K := by first | assumption | exact Sub.mono (by assumption) rfl) : Moves K s0 (State.setDivider s m dint dfrac) := by
  unfold State.setDivider
  repeat' first | with_reducible assumption | ((with_reducible refine Sub.mono hk ?_); rfl) | with_reducible refine Moves.modOut ?_ ?_ | with_reducible refine Moves.setf ?_ ?_ | with_reducible refine Moves.refreshMode ?_ ?_

theorem Moves.takeDivider {m : Nat} {s0 s : State} (hs : Moves K s0 s) (hk : Sub 0x10001004 K := by first | assumption | exact Sub.mono (by assumption) rfl) : Moves K s0 (State.takeDivider s m) := by
  unfold State.takeDivider
  repeat' first | with_reducible assumption | ((with_reducible refine Sub.mono hk ?_); rfl) | with_reducible refine Moves.modOut ?_ ?_ | with_reducible refine Moves.setDivider ?_ ?_ | with_reducible refine Moves.setf ?_ ?_ | with_reducible refine Moves.ev ?_ ?_ | with_reducible apply Moves.ite | fail_if_no_progress (with_reducible refine Moves.plain ?_ ?_ ?_ ?_ ?_ ?_ ?_ ?_ ?_ ?_ ?_ ?_ ?_ ?_ ?_ ?_ ?_ <;> first | ((with_reducible refine Or.inr (Sub.bit hk ?_)); decide) | with_reducible exact Or.inl rfl | skip) | fail_if_no_progress (with_reducible refine Moves.plainNv ?_ rfl rfl rfl ?_ ?_ ?_ ?_ ?_ ?_ ?_ ?_ ?_ ?_ ?_ ?_ ?_ ?_ ?_ ?_ ?_ <;> first | ((with_reducible refine Or.inr (Sub.bit hk ?_)); decide) | with_reducible exact Or.inl rfl | skip) | with_reducible intro _ _ _ _ _ | with_reducible intro _ _ _ | with_reducible intro _ _ | extract_lets | split

theorem Moves.alignPulse {m : Nat} {s0 s : State} (hs : Moves K s0 s) (hk : Sub 0x10011004 K := by first | assumption | exact Sub.mono (by assumption) rfl) : Moves K s0 (State.alignPulse s m) := by
  unfold State.alignPulse
  repeat' first | with_reducible assumption | ((with_reducible refine Sub.mono hk ?_); rfl) | with_reducible refine Moves.modOut ?_ ?_ | with_reducible refine Moves.setf ?_ ?_ | with_reducible refine Moves.ev ?_ ?_ | with_reducible refine Moves.logDev ?_ ?_ | with_reducible apply Moves.ite

theorem Moves.runPulse {m : Nat} {s0 s : State} (hs : Moves K s0 s) (hk : Sub 0x10001004 K := by first | assumption | exact Sub.mono (by assumption) rfl) : Moves K s0 (State.runPulse s m) := by
  unfold State.runPulse
  repeat' first | with_reducible assumption | ((with_reducible refine Sub.mono hk ?_); rfl) | with_reducible refine Moves.refreshOut ?_ ?_ | with_reducible refine Moves.modOut ?_ ?_ | with_reducible apply Moves.ite | with_reducible intro _ _ _ _ _ | with_reducible intro _ _ _ | with_reducible intro _ _ | extract_lets | split

theorem Moves.startOut {m : Nat} {s0 s : State} (hs : Moves K s0 s) (hk : Sub 0x10011004 K := by first | assumption | exact Sub.mono (by assumption) rfl) : Moves K s0 (State.startOut s m) := by
  unfold State.startOut
  repeat' first | with_reducible assumption | ((with_reducible refine Sub.mono hk ?_); rfl) | with_reducible refine Moves.alignPulse ?_ ?_ | with_reducible refine Moves.modOut ?_ ?_ | with_reducible refine Moves.runPulse ?_ ?_ | with_reducible refine Moves.setf ?_ ?_ | with_reducible apply Moves.ite

theorem Moves.stopOut {m : Nat} {s0 s : State} (hs : Moves K s0 s) (hk : Sub 0x10001004 K := by first | assumption | exact Sub.mono (by assumption) rfl) : Moves K s0 (State.stopOut s m) := by
  unfold State.stopOut
  repeat' first | with_reducible assumption | ((with_reducible refine Sub.mono hk ?_); rfl) | with_reducible refine Moves.modOut ?_ ?_ | with_reducible refine Moves.refreshOut ?_ ?_ | with_reducible refine Moves.setf ?_ ?_ | with_reducible apply Moves.ite | with_reducible intro _ _ _ _ _ | with_reducible intro _ _ _ | with_reducible intro _ _ | extract_lets | split

theorem Moves.realignOut {m : Nat} {s0 s : State} (hs : Moves K s0 s) (hk : Sub 0x10011004 K := by first | assumption | exact Sub.mono (by assumption) rfl) : Moves K s0 (State.realignOut s m) := by
  unfold State.realignOut
  repeat' first | with_reducible assumption | ((with_reducible refine Sub.mono hk ?_); rfl) | with_reducible refine Moves.alignPulse ?_ ?_ | with_reducible refine Moves.modOut ?_ ?_ | with_reducible refine Moves.setf ?_ ?_ | with_reducible apply Moves.ite

theorem Moves.enableOut {m : Nat} {en : Bool} {s0 s : State} (hs : Moves K s0 s) (hk : Sub 0x10011004 K := by first | assumption | exact Sub.mono (by assumption) rfl) : Moves K s0 (State.enableOut s m en) := by
  unfold State.enableOut
  repeat' first | with_reducible assumption | ((with_reducible refine Sub.mono hk ?_); rfl) | with_reducible refine Moves.setb ?_ ?_ | with_reducible refine Moves.startOut ?_ ?_ | with_reducible refine Moves.stopOut ?_ ?_ | with_reducible apply Moves.ite

theorem Moves.startSynth {n : Nat} {s0 s : State} (hs : Moves K s0 s) (hk : Sub 0x8000004 K := by first | assumption | exact Sub.mono (by assumption) rfl) : Moves K s0 (State.startSynth s n) := by
  unfold State.startSynth
  repeat' first | with_reducible assumption | ((with_reducible refine Sub.mono hk ?_); rfl) | with_reducible refine Moves.modApl ?_ ?_ | with_reducible refine Moves.setf ?_ ?_ | with_reducible apply Moves.ite | with_reducible intro _ _ _ _ _ | with_reducible intro _ _ _ | with_reducible intro _ _ | extract_lets | split

theorem Moves.ferrySynths {s0 s : State} (hs : Moves K s0 s) (hk : Sub 0x18001006 K := by first | assumption | exact Sub.mono (by assumption) rfl) : Moves K s0 (State.ferrySynths s) := by
  unfold State.ferrySynths
  repeat' first | with_reducible assumption | ((with_reducible refine Sub.mono hk ?_); rfl) | with_reducible refine Moves.forN ?_ ?_ | with_reducible refine Moves.ferryApl ?_ ?_ | with_reducible refine Moves.modOut ?_ ?_ | with_reducible refine Moves.setb ?_ ?_ | with_reducible refine Moves.setf ?_ ?_ | with_reducible refine Moves.when ?_ ?_ | with_reducible refine Moves.refreshOut ?_ ?_ | with_reducible apply Moves.ite | with_reducible intro _ _ _ _ _ | with_reducible intro _ _ _ | with_reducible intro _ _ | extract_lets | split

end Sys2Proof.Machine
end

