-- ==== Sys2Proof/Laws/KeepResetOps.lean ====
section
/-! SUPPORT. What the operations of Machine/ResetOps.lean keep: the queue, the canonical form of the tables, and the parts of the state outside those named. -/

set_option Elab.async false

set_option linter.unreachableTactic false
set_option linter.unusedTactic false

namespace Sys2Proof.Machine

variable {K : Nat}

theorem Moves.writeFloor {s0 s : State} (hs : Moves K s0 s) (hk : Sub 0x10000 K := by first | assumption | exact Sub.mono (by assumption) rfl) : Moves K s0 (State.writeFloor s) := by
  unfold State.writeFloor
  repeat' first | with_reducible assumption | with_reducible apply Moves.ite | fail_if_no_progress (with_reducible refine Moves.plain ?_ ?_ ?_ ?_ ?_ ?_ ?_ ?_ ?_ ?_ ?_ ?_ ?_ ?_ ?_ ?_ ?_ <;> first | ((with_reducible refine Or.inr (Sub.bit hk ?_)); decide) | with_reducible exact Or.inl rfl | skip) | fail_if_no_progress (with_reducible refine Moves.plainNv ?_ rfl rfl rfl ?_ ?_ ?_ ?_ ?_ ?_ ?_ ?_ ?_ ?_ ?_ ?_ ?_ ?_ ?_ ?_ ?_ <;> first | ((with_reducible refine Or.inr (Sub.bit hk ?_)); decide) | with_reducible exact Or.inl rfl | skip)

theorem Moves.ckptNext {s0 s : State} (hs : Moves K s0 s) (hk : Sub 0x10000 K := by first | assumption | exact Sub.mono (by assumption) rfl) : Moves K s0 (State.ckptNext s) := by
  unfold State.ckptNext
  repeat' first | with_reducible assumption | ((with_reducible refine Sub.mono hk ?_); rfl) | with_reducible apply Moves.ite | fail_if_no_progress (with_reducible refine Moves.plain ?_ ?_ ?_ ?_ ?_ ?_ ?_ ?_ ?_ ?_ ?_ ?_ ?_ ?_ ?_ ?_ ?_ <;> first | ((with_reducible refine Or.inr (Sub.bit hk ?_)); decide) | with_reducible exact Or.inl rfl | skip) | fail_if_no_progress (with_reducible refine Moves.plainNv ?_ rfl rfl rfl ?_ ?_ ?_ ?_ ?_ ?_ ?_ ?_ ?_ ?_ ?_ ?_ ?_ ?_ ?_ ?_ ?_ <;> first | ((with_reducible refine Or.inr (Sub.bit hk ?_)); decide) | with_reducible exact Or.inl rfl | skip)

theorem Moves.takeLedgers {l : Option LedgerCommit} {s0 s : State} (hs : Moves K s0 s) (hk : Sub 0x10000 K := by first | assumption | exact Sub.mono (by assumption) rfl) : Moves K s0 (State.takeLedgers s l) := by
  unfold State.takeLedgers
  repeat' first | with_reducible assumption | ((with_reducible refine Sub.mono hk ?_); rfl) | with_reducible apply Moves.ite | fail_if_no_progress (with_reducible refine Moves.plain ?_ ?_ ?_ ?_ ?_ ?_ ?_ ?_ ?_ ?_ ?_ ?_ ?_ ?_ ?_ ?_ ?_ <;> first | ((with_reducible refine Or.inr (Sub.bit hk ?_)); decide) | with_reducible exact Or.inl rfl | skip) | fail_if_no_progress (with_reducible refine Moves.plainNv ?_ rfl rfl rfl ?_ ?_ ?_ ?_ ?_ ?_ ?_ ?_ ?_ ?_ ?_ ?_ ?_ ?_ ?_ ?_ ?_ <;> first | ((with_reducible refine Or.inr (Sub.bit hk ?_)); decide) | with_reducible exact Or.inl rfl | skip) | with_reducible intro _ _ _ _ _ | with_reducible intro _ _ _ | with_reducible intro _ _ | extract_lets | split

theorem Moves.raiseFloor {f : Option (Nat × Nat)} {s0 s : State} (hs : Moves K s0 s) (hk : Sub 0x10000 K := by first | assumption | exact Sub.mono (by assumption) rfl) : Moves K s0 (State.raiseFloor s f) := by
  unfold State.raiseFloor
  repeat' first | with_reducible assumption | ((with_reducible refine Sub.mono hk ?_); rfl) | with_reducible apply Moves.ite | fail_if_no_progress (with_reducible refine Moves.plain ?_ ?_ ?_ ?_ ?_ ?_ ?_ ?_ ?_ ?_ ?_ ?_ ?_ ?_ ?_ ?_ ?_ <;> first | ((with_reducible refine Or.inr (Sub.bit hk ?_)); decide) | with_reducible exact Or.inl rfl | skip) | fail_if_no_progress (with_reducible refine Moves.plainNv ?_ rfl rfl rfl ?_ ?_ ?_ ?_ ?_ ?_ ?_ ?_ ?_ ?_ ?_ ?_ ?_ ?_ ?_ ?_ ?_ <;> first | ((with_reducible refine Or.inr (Sub.bit hk ?_)); decide) | with_reducible exact Or.inl rfl | skip) | with_reducible intro _ _ _ _ _ | with_reducible intro _ _ _ | with_reducible intro _ _ | extract_lets | split

theorem Moves.commitLedgers {c : NvCommit} {s0 s : State} (hs : Moves K s0 s) (hk : Sub 0x10000 K := by first | assumption | exact Sub.mono (by assumption) rfl) : Moves K s0 (State.commitLedgers s c) := by
  unfold State.commitLedgers
  repeat' first | with_reducible assumption | ((with_reducible refine Sub.mono hk ?_); rfl) | with_reducible refine Moves.raiseFloor ?_ ?_ | with_reducible refine Moves.takeLedgers ?_ ?_ | with_reducible apply Moves.ite

theorem State.wf_withDirty {s : State} (w : s.Wf) : Tab.wf memDefault s.withDirty = true := by
  unfold State.withDirty
  generalize s.nv.dirty = l
  have h := w.array
  generalize s.nv.array = t at h
  induction l generalizing t with
  | nil => exact h
  | cons p l ih => exact ih _ (Tab.wf_copyFrom _ _ _ _ h w.shadow)

theorem Moves.startCommit {byHost : Bool} {s0 s : State} (h : Moves K s0 s) (hk : Sub 0x10004 K := by first | assumption | exact Sub.mono (by assumption) rfl) : Moves K s0 (s.startCommit byHost) := by
  unfold State.startCommit
  split
  · rename_i c e
    exact h.nv id id (fun k => by unfold NvCore.incoming at k; rw [e] at k; exact k)
  · exact Moves.setf (Moves.setf (h.into rfl (fun w => ⟨w.regs, w.mem, w.ecc, w.scrub, w.flash, w.lnd, w.sel, w.ent, w.loop, w.ho, w.apl, w.out, w.tsc, w.tod, w.tasks, w.prt, w.pte, w.berth, w.gens, w.shadow, w.array, State.wf_withDirty w⟩) (.inl rfl) (.inl rfl) (.inl rfl) (.inl rfl) (.inl rfl) (.inl rfl) (.inl rfl) (.inl rfl) (.inl rfl) (.inl rfl) (.inl rfl) (.inl rfl) (.inl rfl) (.inl rfl) (.inl rfl) (.inl rfl) (.inr (hk.bit rfl)) (.inl rfl) (.inl rfl) (.inl rfl) (.inl rfl) (.inl rfl) (.inl rfl) (.inl rfl) (.inl rfl) (.inl rfl) (.inl rfl) (.inl rfl) (.inl rfl) (.inl rfl) (.inl rfl) (.inl rfl) (.inl rfl) (.inl rfl) (.inl rfl) (.inl rfl)))

theorem Moves.showPasswords {s0 s : State} (hs : Moves K s0 s) (hk : Sub 0x4 K := by first | assumption | exact Sub.mono (by assumption) rfl) : Moves K s0 (State.showPasswords s) := by
  unfold State.showPasswords
  repeat' first | with_reducible assumption | with_reducible refine Moves.forN ?_ ?_ | with_reducible refine Moves.setb ?_ ?_ | with_reducible apply Moves.ite | with_reducible intro _ _ _ _ _ | with_reducible intro _ _ _

theorem Moves.commitBoot {s0 s : State} (hs : Moves K s0 s) (hk : Sub 0x10004 K := by first | assumption | exact Sub.mono (by assumption) rfl) : Moves K s0 (State.commitBoot s) := by
  unfold State.commitBoot
  repeat' first | with_reducible assumption | with_reducible refine Moves.startCommit ?_ ?_ | with_reducible apply Moves.ite | fail_if_no_progress (with_reducible refine Moves.plain ?_ ?_ ?_ ?_ ?_ ?_ ?_ ?_ ?_ ?_ ?_ ?_ ?_ ?_ ?_ ?_ ?_ <;> first | ((with_reducible refine Or.inr (Sub.bit hk ?_)); decide) | with_reducible exact Or.inl rfl | skip) | fail_if_no_progress (with_reducible refine Moves.plainNv ?_ rfl rfl rfl ?_ ?_ ?_ ?_ ?_ ?_ ?_ ?_ ?_ ?_ ?_ ?_ ?_ ?_ ?_ ?_ ?_ <;> first | ((with_reducible refine Or.inr (Sub.bit hk ?_)); decide) | with_reducible exact Or.inl rfl | skip)

theorem Moves.setSlot {k v : Nat} {s0 s : State} (hs : Moves K s0 s) (hk : Sub 0x10004 K := by first | assumption | exact Sub.mono (by assumption) rfl) : Moves K s0 (State.setSlot s k v) := by
  unfold State.setSlot
  repeat' first | with_reducible assumption | ((with_reducible refine Sub.mono hk ?_); rfl) | with_reducible refine Moves.setf ?_ ?_ | with_reducible refine Moves.commitBoot ?_ ?_

theorem Moves.copySlot {k : Nat} {s0 s : State} (hs : Moves K s0 s) (hk : Sub 0x181C K := by first | assumption | exact Sub.mono (by assumption) rfl) : Moves K s0 (State.copySlot s k) := by
  unfold State.copySlot
  extract_lets t
  have ht : Moves K s0 t := hs.into rfl (fun w => ⟨w.regs, Tab.wf_copyFrom _ _ _ _ w.mem w.flash, Tab.wf_filter _ _ w.ecc, w.scrub, w.flash, w.lnd, w.sel, w.ent, w.loop, w.ho, w.apl, w.out, w.tsc, w.tod, w.tasks, w.prt, w.pte, w.berth, w.gens, w.shadow, w.array, w.incoming⟩) (.inl rfl) (.inl rfl) (.inl rfl) (.inr (hk.bit rfl)) (.inr (hk.bit rfl)) (.inl rfl) (.inl rfl) (.inl rfl) (.inl rfl) (.inl rfl) (.inl rfl) (.inl rfl) (.inl rfl) (.inl rfl) (.inl rfl) (.inl rfl) (.inl rfl) (.inl rfl) (.inl rfl) (.inl rfl) (.inl rfl) (.inl rfl) (.inl rfl) (.inl rfl) (.inl rfl) (.inl rfl) (.inl rfl) (.inl rfl) (.inl rfl) (.inl rfl) (.inl rfl) (.inl rfl) (.inl rfl) (.inl rfl) (.inl rfl) (.inl rfl)
  clear_value t
  split
  · exact Moves.ite (Moves.eccWrite ht) ht
  · exact ht

theorem Moves.programSlot {k : Nat} {s0 s : State} (h : Moves K s0 s) (hk : Sub 0x40 K := by first | assumption | exact Sub.mono (by assumption) rfl) : Moves K s0 (s.programSlot k) := h.into rfl (fun w => ⟨w.regs, w.mem, w.ecc, w.scrub, Tab.wf_copyFrom _ _ _ _ w.flash w.mem, w.lnd, w.sel, w.ent, w.loop, w.ho, w.apl, w.out, w.tsc, w.tod, w.tasks, w.prt, w.pte, w.berth, w.gens, w.shadow, w.array, w.incoming⟩) (.inl rfl) (.inl rfl) (.inl rfl) (.inl rfl) (.inl rfl) (.inl rfl) (.inr (hk.bit rfl)) (.inl rfl) (.inl rfl) (.inl rfl) (.inl rfl) (.inl rfl) (.inl rfl) (.inl rfl) (.inl rfl) (.inl rfl) (.inl rfl) (.inl rfl) (.inl rfl) (.inl rfl) (.inl rfl) (.inl rfl) (.inl rfl) (.inl rfl) (.inl rfl) (.inl rfl) (.inl rfl) (.inl rfl) (.inl rfl) (.inl rfl) (.inl rfl) (.inl rfl) (.inl rfl) (.inl rfl) (.inl rfl) (.inl rfl)

theorem Moves.startSynths {s0 s : State} (hs : Moves K s0 s) (hk : Sub 0x8000004 K := by first | assumption | exact Sub.mono (by assumption) rfl) : Moves K s0 (State.startSynths s) := by
  unfold State.startSynths
  repeat' first | with_reducible assumption | ((with_reducible refine Sub.mono hk ?_); rfl) | with_reducible refine Moves.forL ?_ ?_ | with_reducible refine Moves.startSynth ?_ ?_ | with_reducible refine Moves.setNom ?_ ?_ | with_reducible refine Moves.modApl ?_ ?_ | with_reducible apply Moves.ite | with_reducible intro _ _ _ _ _ | with_reducible intro _ _ _ | with_reducible intro _ _ | extract_lets | split

theorem Moves.beginLoad {j : LoadJob} {s0 s : State} (hs : Moves K s0 s) (hk : Sub 0x8001C1C K := by first | assumption | exact Sub.mono (by assumption) rfl) : Moves K s0 (State.beginLoad s j) := by
  unfold State.beginLoad
  repeat' first | with_reducible assumption | ((with_reducible refine Sub.mono hk ?_); rfl) | with_reducible refine Moves.copySlot ?_ ?_ | with_reducible refine Moves.setf ?_ ?_ | with_reducible refine Moves.startSynths ?_ ?_ | with_reducible apply Moves.ite | fail_if_no_progress (with_reducible refine Moves.plain ?_ ?_ ?_ ?_ ?_ ?_ ?_ ?_ ?_ ?_ ?_ ?_ ?_ ?_ ?_ ?_ ?_ <;> first | ((with_reducible refine Or.inr (Sub.bit hk ?_)); decide) | with_reducible exact Or.inl rfl | skip) | with_reducible intro _ _ _ _ _ | with_reducible intro _ _ _ | with_reducible intro _ _ | extract_lets | split

theorem Moves.loadExhausted {s0 s : State} (hs : Moves K s0 s) (hk : Sub 0x1404 K := by first | assumption | exact Sub.mono (by assumption) rfl) : Moves K s0 (State.loadExhausted s) := by
  unfold State.loadExhausted
  repeat' first | with_reducible assumption | ((with_reducible refine Sub.mono hk ?_); rfl) | with_reducible refine Moves.setf ?_ ?_ | with_reducible refine Moves.raise ?_ ?_ | with_reducible apply Moves.ite | fail_if_no_progress (with_reducible refine Moves.plain ?_ ?_ ?_ ?_ ?_ ?_ ?_ ?_ ?_ ?_ ?_ ?_ ?_ ?_ ?_ ?_ ?_ <;> first | ((with_reducible refine Or.inr (Sub.bit hk ?_)); decide) | with_reducible exact Or.inl rfl | skip)

theorem Moves.tryFlash {order tried : List Nat} {first : Option Nat} {s0 s : State} (hs : Moves K s0 s) (hk : Sub 0x8001C1C K := by first | assumption | exact Sub.mono (by assumption) rfl) : Moves K s0 (State.tryFlash s order tried first) := by
  unfold State.tryFlash
  repeat' first | with_reducible assumption | ((with_reducible refine Sub.mono hk ?_); rfl) | with_reducible refine Moves.beginLoad ?_ ?_ | with_reducible refine Moves.loadExhausted ?_ ?_ | with_reducible refine Moves.setf ?_ ?_ | with_reducible apply Moves.ite | with_reducible intro _ _ _ _ _ | with_reducible intro _ _ _ | with_reducible intro _ _ | extract_lets | split

theorem Moves.startLoad {s0 s : State} (hs : Moves K s0 s) (hk : Sub 0x8001C1C K := by first | assumption | exact Sub.mono (by assumption) rfl) : Moves K s0 (State.startLoad s) := by
  unfold State.startLoad
  repeat' first | with_reducible assumption | ((with_reducible refine Sub.mono hk ?_); rfl) | with_reducible refine Moves.beginLoad ?_ ?_ | with_reducible refine Moves.setf ?_ ?_ | with_reducible refine Moves.tryFlash ?_ ?_ | with_reducible apply Moves.ite | with_reducible intro _ _ _ _ _ | with_reducible intro _ _ _ | with_reducible intro _ _ | extract_lets | split

theorem Moves.resetRegs {d : Dom} {s0 s : State} (h : Moves K s0 s) (hk : Sub 0x4 K := by first | assumption | exact Sub.mono (by assumption) rfl) : Moves K s0 (s.resetRegs d) := h.regs (Tab.wf_filter _ _)

theorem Moves.resetFull {s0 s : State} (hs : Moves K s0 s) (hk : Sub 0x4 K := by first | assumption | exact Sub.mono (by assumption) rfl) : Moves K s0 (State.resetFull s) := by
  unfold State.resetFull
  repeat' first | with_reducible assumption | with_reducible refine Moves.resetRegs ?_ ?_ | with_reducible refine Moves.showPasswords ?_ ?_

theorem Moves.ferryLoop {l : Nat} {s0 s : State} (hs : Moves K s0 s) (hk : Sub 0x6000018 K := by first | assumption | exact Sub.mono (by assumption) rfl) : Moves K s0 (State.ferryLoop s l) := by
  unfold State.ferryLoop
  repeat' first | with_reducible assumption | ((with_reducible refine Sub.mono hk ?_); rfl) | with_reducible refine Moves.modLoop ?_ ?_ | with_reducible refine Moves.modHo ?_ ?_ | with_reducible refine Moves.letGo ?_ ?_ | with_reducible apply Moves.ite | with_reducible intro _ _ _ _ _ | with_reducible intro _ _ _ | with_reducible intro _ _ | extract_lets | split

theorem Moves.ferryTsc {k : Nat} {s0 s : State} (hs : Moves K s0 s) (hk : Sub 0x20010004 K := by first | assumption | exact Sub.mono (by assumption) rfl) : Moves K s0 (State.ferryTsc s k) := by
  unfold State.ferryTsc
  repeat' first | with_reducible assumption | ((with_reducible refine Sub.mono hk ?_); rfl) | with_reducible refine Moves.when ?_ ?_ | with_reducible refine Moves.logDev ?_ ?_ | with_reducible refine Moves.modTsc ?_ ?_ | with_reducible refine Moves.setf ?_ ?_ | with_reducible apply Moves.ite | with_reducible intro _ _ _ _ _ | with_reducible intro _ _ _ | with_reducible intro _ _ | extract_lets | split

theorem Moves.ferryGens {s0 s : State} (hs : Moves K s0 s) (hk : Sub 0x800000000 K := by first | assumption | exact Sub.mono (by assumption) rfl) : Moves K s0 (State.ferryGens s) := by
  unfold State.ferryGens
  repeat' first | with_reducible assumption | with_reducible refine Moves.forL ?_ ?_ | with_reducible refine Moves.modGen ?_ ?_ | with_reducible apply Moves.ite | with_reducible intro _ _ _ _ _ | with_reducible intro _ _ _

theorem Moves.fullCores {s0 s : State} (h : Moves K s0 s) (hk : Sub 0xFC1FFEC84 K := by first | assumption | exact Sub.mono (by assumption) rfl) : Moves K s0 s.fullCores := by
  unfold State.fullCores
  extract_lets k t
  have ht : Moves K s0 t := Moves.setf (Moves.ferryGens h)
  clear_value t k
  refine ht.into rfl (fun w => ?_) (.inl rfl) (.inl rfl) (.inl rfl) (.inl rfl) (.inl rfl) (.inl rfl) (.inl rfl) (.inr (hk.bit rfl)) (.inl rfl) (.inl rfl) (.inr (hk.bit rfl)) (.inr (hk.bit rfl)) (.inl rfl) (.inr (hk.bit rfl)) (.inr (hk.bit rfl)) (.inr (hk.bit rfl)) (.inr (hk.bit rfl)) (.inr (hk.bit rfl)) (.inr (hk.bit rfl)) (.inr (hk.bit rfl)) (.inr (hk.bit rfl)) (.inr (hk.bit rfl)) (.inr (hk.bit rfl)) (.inr (hk.bit rfl)) (.inr (hk.bit rfl)) (.inl rfl) (.inl rfl) (.inl rfl) (.inl rfl) (.inl rfl) (.inr (hk.bit rfl)) (.inr (hk.bit rfl)) (.inr (hk.bit rfl)) (.inr (hk.bit rfl)) (.inr (hk.bit rfl)) (.inl rfl)
  have h1 : Tab.wf (fun _ => {}) (Tab.remap (fun _ => {}) (fun _ (c : LndCore) => { edgeIdx := c.edgeIdx, nomWas := c.nomWas }) t.lnd) = true :=
    Tab.wf_remap _ _ w.lnd
  have h2 : Tab.wf (fun _ => {}) (Tab.remap (fun _ => {}) (fun n (c : PrtCore) => {
      signal := c.signal, lostAt := c.lostAt, rode := t.inLock n || c.rode, eqStat := if c.rode then c.eqStat else t.w (PRT.EQ_STAT n) }) t.prt) = true :=
    Tab.wf_remap _ _ w.prt
  have h3 : ∀ g : NvCommit → NvCommit, (∀ c, (g c).arr = c.arr) →
      Tab.wf memDefault (match t.nv.commit.map g with | some k => k.arr | none => []) = true := fun g hg => by
    have hw := w.incoming
    unfold NvCore.incoming at hw
    revert hw
    cases t.nv.commit with
    | none => exact id
    | some c => exact fun hw => by simpa [hg] using hw
  exact ⟨w.regs, w.mem, w.ecc, w.scrub, w.flash, h1, rfl, rfl, w.loop, w.ho, w.apl, w.out, w.tsc, rfl, rfl, h2, rfl, rfl, w.gens, w.shadow, w.array, h3 _ (fun _ => rfl)⟩

theorem Moves.ferryEngine {e : Nat} {s0 s : State} (hs : Moves K s0 s) (hk : Sub 0x181C K := by first | assumption | exact Sub.mono (by assumption) rfl) : Moves K s0 (State.ferryEngine s e) := by
  unfold State.ferryEngine
  repeat' first | with_reducible assumption | ((with_reducible refine Sub.mono hk ?_); rfl) | with_reducible refine Moves.setEntry ?_ ?_ | with_reducible refine Moves.setEngine ?_ ?_ | with_reducible apply Moves.ite | with_reducible intro _ _ _ _ _ | with_reducible intro _ _ _ | with_reducible intro _ _ | extract_lets | split

theorem Moves.fullReset {cause : Nat} {s0 s : State} (hs : Moves K s0 s) (hk : Sub 0xFFFFFFD9E K := by first | assumption | exact Sub.mono (by assumption) rfl) : Moves K s0 (State.fullReset s cause) := by
  unfold State.fullReset
  refine Moves.ite hs ?_
  extract_lets again
  clear_value again
  repeat' first | with_reducible assumption | ((with_reducible refine Sub.mono hk ?_); rfl) | with_reducible refine Moves.logDev ?_ ?_ | with_reducible refine Moves.xlkNotice ?_ ?_ | with_reducible refine Moves.setf ?_ ?_ | with_reducible refine Moves.inc ?_ ?_ | with_reducible refine Moves.forN ?_ ?_ | with_reducible refine Moves.ferryLoop ?_ ?_ | with_reducible refine Moves.ferryTsc ?_ ?_ | with_reducible refine Moves.ferrySynths ?_ ?_ | with_reducible refine Moves.ferryEngine ?_ ?_ | with_reducible refine Moves.fullCores ?_ ?_ | with_reducible refine Moves.resetFull ?_ ?_ | with_reducible refine Moves.refreshEng ?_ ?_ | with_reducible refine Moves.startLoad ?_ ?_ | with_reducible apply Moves.ite | fail_if_no_progress (with_reducible refine Moves.plain ?_ ?_ ?_ ?_ ?_ ?_ ?_ ?_ ?_ ?_ ?_ ?_ ?_ ?_ ?_ ?_ ?_ <;> first | ((with_reducible refine Or.inr (Sub.bit hk ?_)); decide) | with_reducible exact Or.inl rfl | skip) | fail_if_no_progress (with_reducible refine Moves.plainNv ?_ rfl rfl rfl ?_ ?_ ?_ ?_ ?_ ?_ ?_ ?_ ?_ ?_ ?_ ?_ ?_ ?_ ?_ ?_ ?_ <;> first | ((with_reducible refine Or.inr (Sub.bit hk ?_)); decide) | with_reducible exact Or.inl rfl | skip) | with_reducible intro _ _ _ _ _ | with_reducible intro _ _ _ | with_reducible intro _ _ | extract_lets | split

theorem Moves.releaseLoad {s0 s : State} (hs : Moves K s0 s) (hk : Sub 0x8001C1C K := by first | assumption | exact Sub.mono (by assumption) rfl) : Moves K s0 (State.releaseLoad s) := by
  unfold State.releaseLoad
  repeat' first | with_reducible assumption | ((with_reducible refine Sub.mono hk ?_); rfl) | with_reducible refine Moves.startLoad ?_ ?_ | with_reducible apply Moves.ite | fail_if_no_progress (with_reducible refine Moves.plain ?_ ?_ ?_ ?_ ?_ ?_ ?_ ?_ ?_ ?_ ?_ ?_ ?_ ?_ ?_ ?_ ?_ <;> first | ((with_reducible refine Or.inr (Sub.bit hk ?_)); decide) | with_reducible exact Or.inl rfl | skip) | with_reducible intro _ _ _ _ _ | with_reducible intro _ _ _ | with_reducible intro _ _ | extract_lets | split

theorem Moves.failLoad {code : Nat} {s0 s : State} (hs : Moves K s0 s) (hk : Sub 0xFC9FFFD9C K := by first | assumption | exact Sub.mono (by assumption) rfl) : Moves K s0 (State.failLoad s code) := by
  unfold State.failLoad
  repeat' first | with_reducible assumption | ((with_reducible refine Sub.mono hk ?_); rfl) | with_reducible refine Moves.setf ?_ ?_ | with_reducible refine Moves.logDev ?_ ?_ | with_reducible refine Moves.setSlot ?_ ?_ | with_reducible refine Moves.inc ?_ ?_ | with_reducible refine Moves.refreshEng ?_ ?_ | with_reducible refine Moves.resetFull ?_ ?_ | with_reducible refine Moves.fullCores ?_ ?_ | with_reducible refine Moves.tryFlash ?_ ?_ | with_reducible apply Moves.ite | fail_if_no_progress (with_reducible refine Moves.plain ?_ ?_ ?_ ?_ ?_ ?_ ?_ ?_ ?_ ?_ ?_ ?_ ?_ ?_ ?_ ?_ ?_ <;> first | ((with_reducible refine Or.inr (Sub.bit hk ?_)); decide) | with_reducible exact Or.inl rfl | skip) | with_reducible intro _ _ _ _ _ | with_reducible intro _ _ _ | with_reducible intro _ _ | extract_lets | split

end Sys2Proof.Machine
end

