-- ==== Sys2Proof/Laws/KeepCollector.lean ====
section
/-! SUPPORT. What the operations of Machine/Collector.lean keep: the queue, the canonical form of the tables, and the parts of the state outside those named. -/

set_option Elab.async false

set_option linter.unreachableTactic false
set_option linter.unusedTactic false

namespace Sys2Proof.Machine

variable {K : Nat}

theorem Moves.loadLatch {r0 r1 r2 : Nat} {src kind addr : Nat} {inj : Bool} {s0 s : State} (hs : Moves K s0 s) (hk : Sub 0x4 K := by first | assumption | exact Sub.mono (by assumption) rfl) : Moves K s0 (State.loadLatch s r0 r1 r2 src kind addr inj) := by
  unfold State.loadLatch
  repeat' first | with_reducible assumption | with_reducible refine Moves.setw ?_ ?_

theorem Moves.queueFault {src kind addr : Nat} {inj : Bool} {s0 s : State} (hs : Moves K s0 s) (hk : Sub 0x1804 K := by first | assumption | exact Sub.mono (by assumption) rfl) : Moves K s0 (State.queueFault s src kind addr inj) := by
  unfold State.queueFault
  repeat' first | with_reducible assumption | ((with_reducible refine Sub.mono hk ?_); rfl) | with_reducible refine Moves.inc ?_ ?_ | with_reducible refine Moves.ev ?_ ?_ | with_reducible refine Moves.setf ?_ ?_ | with_reducible refine Moves.evIf ?_ ?_ | with_reducible apply Moves.ite | fail_if_no_progress (with_reducible refine Moves.plain ?_ ?_ ?_ ?_ ?_ ?_ ?_ ?_ ?_ ?_ ?_ ?_ ?_ ?_ ?_ ?_ ?_ <;> first | ((with_reducible refine Or.inr (Sub.bit hk ?_)); decide) | with_reducible exact Or.inl rfl | skip)

theorem Moves.logFault {src kind addr : Nat} {inj : Bool} {s0 s : State} (hs : Moves K s0 s) (hk : Sub 0x10000 K := by first | assumption | exact Sub.mono (by assumption) rfl) : Moves K s0 (State.logFault s src kind addr inj) := by
  unfold State.logFault
  repeat' first | with_reducible assumption | with_reducible refine Moves.log ?_ ?_ | with_reducible apply Moves.ite | fail_if_no_progress (with_reducible refine Moves.plain ?_ ?_ ?_ ?_ ?_ ?_ ?_ ?_ ?_ ?_ ?_ ?_ ?_ ?_ ?_ ?_ ?_ <;> first | ((with_reducible refine Or.inr (Sub.bit hk ?_)); decide) | with_reducible exact Or.inl rfl | skip) | fail_if_no_progress (with_reducible refine Moves.plainNv ?_ rfl rfl rfl ?_ ?_ ?_ ?_ ?_ ?_ ?_ ?_ ?_ ?_ ?_ ?_ ?_ ?_ ?_ ?_ ?_ <;> first | ((with_reducible refine Or.inr (Sub.bit hk ?_)); decide) | with_reducible exact Or.inl rfl | skip) | with_reducible intro _ _ _ _ _ | with_reducible intro _ _ _ | with_reducible intro _ _ | extract_lets | split

theorem Moves.errorPin {s0 s : State} (hs : Moves K s0 s) (hk : Sub 0x1804 K := by first | assumption | exact Sub.mono (by assumption) rfl) : Moves K s0 (State.errorPin s) := by
  unfold State.errorPin
  repeat' first | with_reducible assumption | ((with_reducible refine Sub.mono hk ?_); rfl) | with_reducible refine Moves.setf ?_ ?_ | with_reducible refine Moves.evIf ?_ ?_ | with_reducible apply Moves.ite | fail_if_no_progress (with_reducible refine Moves.plain ?_ ?_ ?_ ?_ ?_ ?_ ?_ ?_ ?_ ?_ ?_ ?_ ?_ ?_ ?_ ?_ ?_ <;> first | ((with_reducible refine Or.inr (Sub.bit hk ?_)); decide) | with_reducible exact Or.inl rfl | skip)

theorem Moves.trap {src kind addr : Nat} {inj : Bool} {s0 s : State} (hs : Moves K s0 s) (hk : Sub 0x1004 K := by first | assumption | exact Sub.mono (by assumption) rfl) : Moves K s0 (State.trap s src kind addr inj) := by
  unfold State.trap
  repeat' first | with_reducible assumption | ((with_reducible refine Sub.mono hk ?_); rfl) | with_reducible refine Moves.loadLatch ?_ ?_ | with_reducible refine Moves.setf ?_ ?_ | with_reducible refine Moves.raise ?_ ?_ | with_reducible refine Moves.ev ?_ ?_ | with_reducible apply Moves.ite

theorem Moves.blockReset {cls n : Nat} {s0 s : State} (hs : Moves K s0 s) (hk : Sub 0x587D91806 K := by first | assumption | exact Sub.mono (by assumption) rfl) : Moves K s0 (State.blockReset s cls n) := by
  unfold State.blockReset
  repeat' first | with_reducible assumption | ((with_reducible refine Sub.mono hk ?_); rfl) | with_reducible refine Moves.inc ?_ ?_ | with_reducible refine Moves.resetFrontEnd ?_ ?_ | with_reducible refine Moves.resetPort ?_ ?_ | with_reducible refine Moves.setf ?_ ?_ | with_reducible refine Moves.ev ?_ ?_ | with_reducible apply Moves.ite | fail_if_no_progress (with_reducible refine Moves.plain ?_ ?_ ?_ ?_ ?_ ?_ ?_ ?_ ?_ ?_ ?_ ?_ ?_ ?_ ?_ ?_ ?_ <;> first | ((with_reducible refine Or.inr (Sub.bit hk ?_)); decide) | with_reducible exact Or.inl rfl | skip)

theorem Moves.react {src kind addr : Nat} {inj : Bool} {s0 s : State} (hs : Moves K s0 s) (hk : Sub 0xFFFFFFD9E K := by first | assumption | exact Sub.mono (by assumption) rfl) : Moves K s0 (State.react s src kind addr inj) := by
  unfold State.react
  repeat' first | with_reducible assumption | ((with_reducible refine Sub.mono hk ?_); rfl) | with_reducible refine Moves.ev ?_ ?_ | with_reducible refine Moves.trap ?_ ?_ | with_reducible refine Moves.errorPin ?_ ?_ | with_reducible refine Moves.blockReset ?_ ?_ | with_reducible refine Moves.fullReset ?_ ?_ | with_reducible apply Moves.ite

theorem Moves.record {src kind addr : Nat} {inj : Bool} {s0 s : State} (hs : Moves K s0 s) (hk : Sub 0x80011804 K := by first | assumption | exact Sub.mono (by assumption) rfl) : Moves K s0 (State.record s src kind addr inj) := by
  unfold State.record
  repeat' first | with_reducible assumption | ((with_reducible refine Sub.mono hk ?_); rfl) | with_reducible refine Moves.inc ?_ ?_ | with_reducible refine Moves.setBit ?_ ?_ | with_reducible refine Moves.loadLatch ?_ ?_ | with_reducible refine Moves.queueFault ?_ ?_ | with_reducible refine Moves.logFault ?_ ?_ | with_reducible refine Moves.route ?_ ?_ | with_reducible apply Moves.ite | fail_if_no_progress (with_reducible refine Moves.plain ?_ ?_ ?_ ?_ ?_ ?_ ?_ ?_ ?_ ?_ ?_ ?_ ?_ ?_ ?_ ?_ ?_ <;> first | ((with_reducible refine Or.inr (Sub.bit hk ?_)); decide) | with_reducible exact Or.inl rfl | skip)

theorem Moves.reportInj {src kind addr : Nat} {inj : Bool} {s0 s : State} (hs : Moves K s0 s) (hk : Sub 0xFFFFFFD9E K := by first | assumption | exact Sub.mono (by assumption) rfl) : Moves K s0 (State.reportInj s src kind addr inj) := by
  unfold State.reportInj
  repeat' first | with_reducible assumption | ((with_reducible refine Sub.mono hk ?_); rfl) | with_reducible refine Moves.setf ?_ ?_ | with_reducible refine Moves.ev ?_ ?_ | with_reducible refine Moves.record ?_ ?_ | with_reducible refine Moves.react ?_ ?_ | with_reducible apply Moves.ite | fail_if_no_progress (with_reducible refine Moves.plain ?_ ?_ ?_ ?_ ?_ ?_ ?_ ?_ ?_ ?_ ?_ ?_ ?_ ?_ ?_ ?_ ?_ <;> first | ((with_reducible refine Or.inr (Sub.bit hk ?_)); decide) | with_reducible exact Or.inl rfl | skip)

theorem Moves.report {src kind addr : Nat} {s0 s : State} (hs : Moves K s0 s) (hk : Sub 0xFFFFFFD9E K := by first | assumption | exact Sub.mono (by assumption) rfl) : Moves K s0 (State.report s src kind addr) := by
  unfold State.report
  repeat' first | with_reducible assumption | with_reducible refine Moves.reportInj ?_ ?_

end Sys2Proof.Machine
end

