-- ==== Sys2Proof/Laws/KeepAccess.lean ====
section
/-! SUPPORT. What the operations of Machine/Access.lean keep: the queue, the canonical form of the tables, and the parts of the state outside those named. -/

set_option Elab.async false

set_option linter.unreachableTactic false
set_option linter.unusedTactic false

namespace Sys2Proof.Machine

variable {K : Nat}

theorem Moves.busErr {p : Port} {write space : Bool} {off : Nat} {c : Code} {s0 s : State} (hs : Moves K s0 s) (hk : Sub 0xD004 K := by first | assumption | exact Sub.mono (by assumption) rfl) : Moves K s0 (State.busErr s p write space off c) := by
  unfold State.busErr
  repeat' first | with_reducible assumption | ((with_reducible refine Sub.mono hk ?_); rfl) | with_reducible refine Moves.setb ?_ ?_ | with_reducible refine Moves.setf ?_ ?_ | with_reducible refine Moves.inc ?_ ?_ | with_reducible refine Moves.ev ?_ ?_ | with_reducible refine Moves.modHost ?_ ?_ | with_reducible apply Moves.ite

theorem Moves.status {p : Port} {c : Code} {s0 s : State} (hs : Moves K s0 s) (hk : Sub 0xC000 K := by first | assumption | exact Sub.mono (by assumption) rfl) : Moves K s0 (State.status s p c) := by
  unfold State.status
  repeat' first | with_reducible assumption | with_reducible refine Moves.modHost ?_ ?_

theorem Moves.doorbell {p : Port} {key : Nat} {pilot : Bool} {g : State → State} {s0 s : State} (hs : Moves K s0 s) (hg : ∀ t, Moves K s0 t → Moves K s0 (g t)) (hk : Sub 0xD004 K := by first | assumption | exact Sub.mono (by assumption) rfl) : Moves K s0 (State.doorbell s p key pilot g) := by
  unfold State.doorbell
  repeat' first | with_reducible assumption | ((with_reducible refine Sub.mono hk ?_); rfl) | with_reducible apply hg | with_reducible refine Moves.status ?_ ?_ | with_reducible refine Moves.busErr ?_ ?_ | with_reducible apply Moves.ite | with_reducible intro _ _ _ _ _ | with_reducible intro _ _ _ | with_reducible intro _ _ | extract_lets | split

theorem Moves.doorbellB {p : Port} {key : Nat} {pilot : Bool} {busy : Fld} {g : State → State} {s0 s : State} (hs : Moves K s0 s) (hg : ∀ t, Moves K s0 t → Moves K s0 (g t)) (hk : Sub 0xD004 K := by first | assumption | exact Sub.mono (by assumption) rfl) : Moves K s0 (State.doorbellB s p key pilot busy g) := by
  unfold State.doorbellB
  repeat' first | with_reducible assumption | with_reducible apply hg | with_reducible refine Moves.doorbell ?_ ?_ ?_ | with_reducible refine Moves.busErr ?_ ?_ | with_reducible apply Moves.ite | with_reducible intro _ _ _ _ _ | with_reducible intro _ _ _ | with_reducible intro _ _

theorem Moves.complete {x : Fld} {c : Code} {s0 s : State} (hs : Moves K s0 s) (hk : Sub 0x4 K := by first | assumption | exact Sub.mono (by assumption) rfl) : Moves K s0 (State.complete s x c) := by
  unfold State.complete
  repeat' first | with_reducible assumption | with_reducible refine Moves.setf ?_ ?_

theorem Moves.completeBy {x : Fld} {r : State × Code} {s0 : State} (h : First K s0 r) (hk : Sub 0x4 K := by first | assumption | exact Sub.mono (by assumption) rfl) : Moves K s0 (completeBy x r) := h.fst.setf

theorem Moves.dirty {s0 s : State} (hs : Moves K s0 s) (hk : Sub 0x2004 K := by first | assumption | exact Sub.mono (by assumption) rfl) : Moves K s0 (State.dirty s) := by
  unfold State.dirty
  repeat' first | with_reducible assumption | ((with_reducible refine Sub.mono hk ?_); rfl) | with_reducible refine Moves.setf ?_ ?_ | with_reducible apply Moves.ite | fail_if_no_progress (with_reducible refine Moves.plain ?_ ?_ ?_ ?_ ?_ ?_ ?_ ?_ ?_ ?_ ?_ ?_ ?_ ?_ ?_ ?_ ?_ <;> first | ((with_reducible refine Or.inr (Sub.bit hk ?_)); decide) | with_reducible exact Or.inl rfl | skip)

theorem Moves.setChecked {k v : Nat} {s0 s : State} (hs : Moves K s0 s) (hk : Sub 0x2004 K := by first | assumption | exact Sub.mono (by assumption) rfl) : Moves K s0 (State.setChecked s k v) := by
  unfold State.setChecked
  repeat' first | with_reducible assumption | ((with_reducible refine Sub.mono hk ?_); rfl) | with_reducible refine Moves.setw ?_ ?_ | with_reducible refine Moves.dirty ?_ ?_ | with_reducible apply Moves.ite

theorem Moves.ringComplete {p : Port} {c : Code} {r0 r1 : Nat} {s0 s : State} (hs : Moves K s0 s) (hk : Sub 0x1004 K := by first | assumption | exact Sub.mono (by assumption) rfl) : Moves K s0 (State.ringComplete s p c r0 r1) := by
  unfold State.ringComplete
  repeat' first | with_reducible assumption | ((with_reducible refine Sub.mono hk ?_); rfl) | with_reducible refine Moves.setw ?_ ?_ | with_reducible refine Moves.setf ?_ ?_ | with_reducible refine Moves.ev ?_ ?_ | with_reducible apply Moves.ite

theorem Moves.ringEngineDone {s0 s : State} (hs : Moves K s0 s) (hk : Sub 0x1004 K := by first | assumption | exact Sub.mono (by assumption) rfl) : Moves K s0 (State.ringEngineDone s) := by
  unfold State.ringEngineDone
  repeat' first | with_reducible assumption | ((with_reducible refine Sub.mono hk ?_); rfl) | with_reducible refine Moves.setf ?_ ?_ | with_reducible refine Moves.ringComplete ?_ ?_ | with_reducible apply Moves.ite | with_reducible intro _ _ _ _ _ | with_reducible intro _ _ _ | with_reducible intro _ _ | extract_lets | split

theorem Moves.secEvent {x : Fld} {reason tsc : Nat} {s0 s : State} (hs : Moves K s0 s) (hk : Sub 0xFFFFFFD9E K := by first | assumption | exact Sub.mono (by assumption) rfl) : Moves K s0 (State.secEvent s x reason tsc) := by
  unfold State.secEvent
  repeat' first | with_reducible assumption | ((with_reducible refine Sub.mono hk ?_); rfl) | with_reducible refine Moves.ev ?_ ?_ | with_reducible refine Moves.logDev ?_ ?_ | with_reducible refine Moves.report ?_ ?_

end Sys2Proof.Machine
end

