-- ==== Sys2Proof/Laws/KeepBill.lean ====
section
/-! SUPPORT. What the operations of Machine/Bill.lean keep: the queue, the canonical form of the tables, and the parts of the state outside those named. -/

set_option Elab.async false

set_option linter.unreachableTactic false
set_option linter.unusedTactic false

namespace Sys2Proof.Machine

variable {K : Nat}

theorem Moves.refreshNext {s0 s : State} (hs : Moves K s0 s) (hk : Sub 0x4 K := by first | assumption | exact Sub.mono (by assumption) rfl) : Moves K s0 (State.refreshNext s) := by
  unfold State.refreshNext
  repeat' first | with_reducible assumption | with_reducible refine Moves.setw ?_ ?_

theorem Moves.freeze {t flags k until_ : Nat} {done : Option (Nat × Nat)} {s0 s : State} (hs : Moves K s0 s) (hk : Sub 0x80004 K := by first | assumption | exact Sub.mono (by assumption) rfl) : Moves K s0 (State.freeze s t flags k until_ done) := by
  unfold State.freeze
  repeat' first | with_reducible assumption | ((with_reducible refine Sub.mono hk ?_); rfl) | with_reducible refine Moves.setf ?_ ?_ | with_reducible refine Moves.modLedger ?_ ?_ | with_reducible apply Moves.ite | fail_if_no_progress (with_reducible refine Moves.plain ?_ ?_ ?_ ?_ ?_ ?_ ?_ ?_ ?_ ?_ ?_ ?_ ?_ ?_ ?_ ?_ ?_ <;> first | ((with_reducible refine Or.inr (Sub.bit hk ?_)); decide) | with_reducible exact Or.inl rfl | skip) | with_reducible intro _ _ _ _ _ | with_reducible intro _ _ _ | with_reducible intro _ _ | extract_lets | split

theorem Moves.commitSealing {s0 s : State} (hs : Moves K s0 s) (hk : Sub 0x10004 K := by first | assumption | exact Sub.mono (by assumption) rfl) : Moves K s0 (State.commitSealing s) := by
  unfold State.commitSealing
  repeat' first | with_reducible assumption | ((with_reducible refine Sub.mono hk ?_); rfl) | with_reducible refine Moves.startCommit ?_ ?_ | with_reducible refine Moves.ckptNext ?_ ?_ | with_reducible apply Moves.ite | fail_if_no_progress (with_reducible refine Moves.plain ?_ ?_ ?_ ?_ ?_ ?_ ?_ ?_ ?_ ?_ ?_ ?_ ?_ ?_ ?_ ?_ ?_ <;> first | ((with_reducible refine Or.inr (Sub.bit hk ?_)); decide) | with_reducible exact Or.inl rfl | skip) | fail_if_no_progress (with_reducible refine Moves.plainNv ?_ rfl rfl rfl ?_ ?_ ?_ ?_ ?_ ?_ ?_ ?_ ?_ ?_ ?_ ?_ ?_ ?_ ?_ ?_ ?_ <;> first | ((with_reducible refine Or.inr (Sub.bit hk ?_)); decide) | with_reducible exact Or.inl rfl | skip) | with_reducible intro _ _ _ _ _ | with_reducible intro _ _ _ | with_reducible intro _ _ | extract_lets | split

theorem Moves.sealedDone {b n : Nat} {s0 s : State} (hs : Moves K s0 s) (hk : Sub 0x11004 K := by first | assumption | exact Sub.mono (by assumption) rfl) : Moves K s0 (State.sealedDone s b n) := by
  unfold State.sealedDone
  repeat' first | with_reducible assumption | ((with_reducible refine Sub.mono hk ?_); rfl) | with_reducible refine Moves.logDev ?_ ?_ | with_reducible refine Moves.ev ?_ ?_ | with_reducible apply Moves.ite

theorem Moves.sealPeriod {tsc k b flags : Nat} {s0 s : State} (hs : Moves K s0 s) (hk : Sub 0x91004 K := by first | assumption | exact Sub.mono (by assumption) rfl) : Moves K s0 (State.sealPeriod s tsc k b flags) := by
  unfold State.sealPeriod
  repeat' first | with_reducible assumption | ((with_reducible refine Sub.mono hk ?_); rfl) | with_reducible refine Moves.forL ?_ ?_ | with_reducible refine Moves.freeze ?_ ?_ | with_reducible refine Moves.setw ?_ ?_ | with_reducible refine Moves.commitSealing ?_ ?_ | with_reducible refine Moves.refreshNext ?_ ?_ | with_reducible refine Moves.sealedDone ?_ ?_ | with_reducible apply Moves.ite | fail_if_no_progress (with_reducible refine Moves.plain ?_ ?_ ?_ ?_ ?_ ?_ ?_ ?_ ?_ ?_ ?_ ?_ ?_ ?_ ?_ ?_ ?_ <;> first | ((with_reducible refine Or.inr (Sub.bit hk ?_)); decide) | with_reducible exact Or.inl rfl | skip) | fail_if_no_progress (with_reducible refine Moves.plainNv ?_ rfl rfl rfl ?_ ?_ ?_ ?_ ?_ ?_ ?_ ?_ ?_ ?_ ?_ ?_ ?_ ?_ ?_ ?_ ?_ <;> first | ((with_reducible refine Or.inr (Sub.bit hk ?_)); decide) | with_reducible exact Or.inl rfl | skip) | with_reducible intro _ _ _ _ _ | with_reducible intro _ _ _ | with_reducible intro _ _ | extract_lets | split

theorem Moves.billCheck {k : Nat} {s0 s : State} (hs : Moves K s0 s) (hk : Sub 0x91004 K := by first | assumption | exact Sub.mono (by assumption) rfl) : Moves K s0 (State.billCheck s k) := by
  unfold State.billCheck
  repeat' first | with_reducible assumption | ((with_reducible refine Sub.mono hk ?_); rfl) | with_reducible refine Moves.sealPeriod ?_ ?_ | with_reducible apply Moves.ite | fail_if_no_progress (with_reducible refine Moves.plain ?_ ?_ ?_ ?_ ?_ ?_ ?_ ?_ ?_ ?_ ?_ ?_ ?_ ?_ ?_ ?_ ?_ <;> first | ((with_reducible refine Or.inr (Sub.bit hk ?_)); decide) | with_reducible exact Or.inl rfl | skip) | with_reducible intro _ _ _ _ _ | with_reducible intro _ _ _ | with_reducible intro _ _ | extract_lets | split

theorem Moves.regression {amount : Int} {s0 s : State} (hs : Moves K s0 s) (hk : Sub 0x91004 K := by first | assumption | exact Sub.mono (by assumption) rfl) : Moves K s0 (State.regression s amount) := by
  unfold State.regression
  repeat' first | with_reducible assumption | ((with_reducible refine Sub.mono hk ?_); rfl) | with_reducible refine Moves.inc ?_ ?_ | with_reducible refine Moves.setSat ?_ ?_ | with_reducible refine Moves.ev ?_ ?_ | with_reducible refine Moves.logDev ?_ ?_ | with_reducible refine Moves.commitSealing ?_ ?_ | with_reducible apply Moves.ite | fail_if_no_progress (with_reducible refine Moves.plain ?_ ?_ ?_ ?_ ?_ ?_ ?_ ?_ ?_ ?_ ?_ ?_ ?_ ?_ ?_ ?_ ?_ <;> first | ((with_reducible refine Or.inr (Sub.bit hk ?_)); decide) | with_reducible exact Or.inl rfl | skip)

theorem Moves.secondBegins {s0 s : State} (hs : Moves K s0 s) (hk : Sub 0x80000 K := by first | assumption | exact Sub.mono (by assumption) rfl) : Moves K s0 (State.secondBegins s) := by
  unfold State.secondBegins
  repeat' first | with_reducible assumption | ((with_reducible refine Sub.mono hk ?_); rfl) | with_reducible apply Moves.ite | fail_if_no_progress (with_reducible refine Moves.plain ?_ ?_ ?_ ?_ ?_ ?_ ?_ ?_ ?_ ?_ ?_ ?_ ?_ ?_ ?_ ?_ ?_ <;> first | ((with_reducible refine Or.inr (Sub.bit hk ?_)); decide) | with_reducible exact Or.inl rfl | skip) | with_reducible intro _ _ _ _ _ | with_reducible intro _ _ _ | with_reducible intro _ _ | extract_lets | split

theorem Moves.billSecond {k : Nat} {s0 s : State} (hs : Moves K s0 s) (hk : Sub 0x91004 K := by first | assumption | exact Sub.mono (by assumption) rfl) : Moves K s0 (State.billSecond s k) := by
  unfold State.billSecond
  repeat' first | with_reducible assumption | ((with_reducible refine Sub.mono hk ?_); rfl) | with_reducible refine Moves.billCheck ?_ ?_ | with_reducible refine Moves.secondBegins ?_ ?_ | with_reducible apply Moves.ite | fail_if_no_progress (with_reducible refine Moves.plain ?_ ?_ ?_ ?_ ?_ ?_ ?_ ?_ ?_ ?_ ?_ ?_ ?_ ?_ ?_ ?_ ?_ <;> first | ((with_reducible refine Or.inr (Sub.bit hk ?_)); decide) | with_reducible exact Or.inl rfl | skip) | with_reducible intro _ _ _ _ _ | with_reducible intro _ _ _ | with_reducible intro _ _ | extract_lets | split

theorem Moves.signNext {s0 s : State} (hs : Moves K s0 s) (hk : Sub 0x91004 K := by first | assumption | exact Sub.mono (by assumption) rfl) : Moves K s0 (State.signNext s) := by
  unfold State.signNext
  repeat' first | with_reducible assumption | ((with_reducible refine Sub.mono hk ?_); rfl) | with_reducible refine Moves.modLedger ?_ ?_ | with_reducible refine Moves.setb ?_ ?_ | with_reducible refine Moves.sealedDone ?_ ?_ | with_reducible refine Moves.billCheck ?_ ?_ | with_reducible apply Moves.ite | fail_if_no_progress (with_reducible refine Moves.plain ?_ ?_ ?_ ?_ ?_ ?_ ?_ ?_ ?_ ?_ ?_ ?_ ?_ ?_ ?_ ?_ ?_ <;> first | ((with_reducible refine Or.inr (Sub.bit hk ?_)); decide) | with_reducible exact Or.inl rfl | skip) | with_reducible intro _ _ _ _ _ | with_reducible intro _ _ _ | with_reducible intro _ _ | extract_lets | split

end Sys2Proof.Machine
end

