-- ==== Sys2Proof/Laws/KeepTscOps.lean ====
section
/-! SUPPORT. What the operations of Machine/TscOps.lean keep: the queue, the canonical form of the tables, and the parts of the state outside those named. -/

set_option Elab.async false

set_option linter.unreachableTactic false
set_option linter.unusedTactic false

namespace Sys2Proof.Machine

variable {K : Nat}

theorem Moves.refuse {k : Nat} {src : CorrSource} {size : Nat} {s0 s : State} (hs : Moves K s0 s) (hk : Sub 0x80011004 K := by first | assumption | exact Sub.mono (by assumption) rfl) : Moves K s0 (State.refuse s k src size) := by
  unfold State.refuse
  repeat' first | with_reducible assumption | ((with_reducible refine Sub.mono hk ?_); rfl) | with_reducible refine Moves.inc ?_ ?_ | with_reducible refine Moves.setf ?_ ?_ | with_reducible refine Moves.ev ?_ ?_ | with_reducible refine Moves.route ?_ ?_ | with_reducible refine Moves.logDev ?_ ?_

theorem Moves.setInc {k : Nat} {y : Int} {s0 s : State} (hs : Moves K s0 s) (hk : Sub 0x20000004 K := by first | assumption | exact Sub.mono (by assumption) rfl) : Moves K s0 (State.setInc s k y) := by
  unfold State.setInc
  repeat' first | with_reducible assumption | ((with_reducible refine Sub.mono hk ?_); rfl) | with_reducible refine Moves.modTsc ?_ ?_ | with_reducible refine Moves.setSat ?_ ?_

theorem First.tryInc {k : Nat} {src : CorrSource} {y : Int} {s0 s : State} (hs : Moves K s0 s) (hk : Sub 0xA0011004 K := by first | assumption | exact Sub.mono (by assumption) rfl) : First K s0 (State.tryInc s k src y) := by
  unfold State.tryInc
  repeat' first | with_reducible assumption | ((with_reducible refine Sub.mono hk ?_); rfl) | with_reducible refine Moves.setInc ?_ ?_ | with_reducible refine Moves.refuse ?_ ?_ | with_reducible apply Moves.ite | with_reducible apply First.ite | with_reducible intro _ _ _ _ _ | with_reducible intro _ _ _ | with_reducible intro _ _ | extract_lets | split | with_reducible apply First.mk

theorem Moves.phiAdd {k : Nat} {d : Int} {s0 s : State} (hs : Moves K s0 s) (hk : Sub 0x20000000 K := by first | assumption | exact Sub.mono (by assumption) rfl) : Moves K s0 (State.phiAdd s k d) := by
  unfold State.phiAdd
  repeat' first | with_reducible assumption | with_reducible refine Moves.modTsc ?_ ?_

theorem Moves.refuseGuard {k : Nat} {src : CorrSource} {size : Nat} {s0 s : State} (hs : Moves K s0 s) (hk : Sub 0x80011004 K := by first | assumption | exact Sub.mono (by assumption) rfl) : Moves K s0 (State.refuseGuard s k src size) := by
  unfold State.refuseGuard
  repeat' first | with_reducible assumption | ((with_reducible refine Sub.mono hk ?_); rfl) | with_reducible refine Moves.refuse ?_ ?_ | with_reducible refine Moves.ev ?_ ?_

theorem First.tryAdjust {k : Nat} {src : CorrSource} {amount : Int} {s0 s : State} (hs : Moves K s0 s) (hk : Sub 0xA0011004 K := by first | assumption | exact Sub.mono (by assumption) rfl) : First K s0 (State.tryAdjust s k src amount) := by
  unfold State.tryAdjust
  repeat' first | with_reducible assumption | ((with_reducible refine Sub.mono hk ?_); rfl) | with_reducible refine Moves.refuseGuard ?_ ?_ | with_reducible refine Moves.refuse ?_ ?_ | with_reducible refine Moves.modTsc ?_ ?_ | with_reducible refine Moves.phiAdd ?_ ?_ | with_reducible refine Moves.setb ?_ ?_ | with_reducible refine Moves.evIf ?_ ?_ | with_reducible apply Moves.ite | with_reducible apply First.ite | fail_if_no_progress (with_reducible refine Moves.plain ?_ ?_ ?_ ?_ ?_ ?_ ?_ ?_ ?_ ?_ ?_ ?_ ?_ ?_ ?_ ?_ ?_ <;> first | ((with_reducible refine Or.inr (Sub.bit hk ?_)); decide) | with_reducible exact Or.inl rfl | skip) | fail_if_no_progress (with_reducible refine Moves.plainNv ?_ rfl rfl rfl ?_ ?_ ?_ ?_ ?_ ?_ ?_ ?_ ?_ ?_ ?_ ?_ ?_ ?_ ?_ ?_ ?_ <;> first | ((with_reducible refine Or.inr (Sub.bit hk ?_)); decide) | with_reducible exact Or.inl rfl | skip) | with_reducible intro _ _ _ _ _ | with_reducible intro _ _ _ | with_reducible intro _ _ | extract_lets | split | with_reducible apply First.mk

theorem Moves.becomeSet {k : Nat} {s0 s : State} (hs : Moves K s0 s) (hk : Sub 0x81004 K := by first | assumption | exact Sub.mono (by assumption) rfl) : Moves K s0 (State.becomeSet s k) := by
  unfold State.becomeSet
  repeat' first | with_reducible assumption | ((with_reducible refine Sub.mono hk ?_); rfl) | with_reducible refine Moves.refreshTrace ?_ ?_ | with_reducible refine Moves.ev ?_ ?_ | with_reducible refine Moves.setf ?_ ?_ | with_reducible refine Moves.when ?_ ?_ | with_reducible refine Moves.secondBegins ?_ ?_ | with_reducible apply Moves.ite | with_reducible intro _ _ _ _ _ | with_reducible intro _ _ _ | with_reducible intro _ _ | extract_lets | split

theorem Moves.todSkip {n before : Nat} {s0 s : State} (hs : Moves K s0 s) (hk : Sub 0x40000000 K := by first | assumption | exact Sub.mono (by assumption) rfl) : Moves K s0 (State.todSkip s n before) := by
  unfold State.todSkip
  repeat' first | with_reducible assumption | ((with_reducible refine Sub.mono hk ?_); rfl) | with_reducible refine Moves.forN ?_ ?_ | with_reducible refine Moves.modTod ?_ ?_ | with_reducible apply Moves.ite | with_reducible intro _ _ _ _ _ | with_reducible intro _ _ _ | with_reducible intro _ _ | extract_lets | split

theorem Moves.moveVal {k : Nat} {amount : Int} {s0 s : State} (hs : Moves K s0 s) (hk : Sub 0x20000000 K := by first | assumption | exact Sub.mono (by assumption) rfl) : Moves K s0 (State.moveVal s k amount) := by
  unfold State.moveVal
  repeat' first | with_reducible assumption | with_reducible refine Moves.modTsc ?_ ?_ | with_reducible refine Moves.phiAdd ?_ ?_

theorem Moves.doStep {k src : Nat} {ticketed : Bool} {amount : Int} {s0 s : State} (hs : Moves K s0 s) (hk : Sub 0xE0091004 K := by first | assumption | exact Sub.mono (by assumption) rfl) : Moves K s0 (State.doStep s k src ticketed amount) := by
  unfold State.doStep
  repeat' first | with_reducible assumption | ((with_reducible refine Sub.mono hk ?_); rfl) | with_reducible refine Moves.modTsc ?_ ?_ | with_reducible refine Moves.moveVal ?_ ?_ | with_reducible refine Moves.todSkip ?_ ?_ | with_reducible refine Moves.route ?_ ?_ | with_reducible refine Moves.ev ?_ ?_ | with_reducible refine Moves.logDev ?_ ?_ | with_reducible refine Moves.regression ?_ ?_ | with_reducible refine Moves.billCheck ?_ ?_ | with_reducible apply Moves.ite | with_reducible intro _ _ _ _ _ | with_reducible intro _ _ _ | with_reducible intro _ _ | extract_lets | split

theorem First.tryStep {k : Nat} {src : CorrSource} {amount : Int} {s0 s : State} (hs : Moves K s0 s) (hk : Sub 0xE0091004 K := by first | assumption | exact Sub.mono (by assumption) rfl) : First K s0 (State.tryStep s k src amount) := by
  unfold State.tryStep
  repeat' first | with_reducible assumption | ((with_reducible refine Sub.mono hk ?_); rfl) | with_reducible refine Moves.refuseGuard ?_ ?_ | with_reducible refine Moves.refuse ?_ ?_ | with_reducible refine Moves.doStep ?_ ?_ | with_reducible apply Moves.ite | with_reducible apply First.ite | with_reducible intro _ _ _ _ _ | with_reducible intro _ _ _ | with_reducible intro _ _ | extract_lets | split | with_reducible apply First.mk

theorem First.setFirst {k : Nat} {src : CorrSource} {v : Int} {s0 s : State} (hs : Moves K s0 s) (hk : Sub 0xA0091004 K := by first | assumption | exact Sub.mono (by assumption) rfl) : First K s0 (State.setFirst s k src v) := by
  unfold State.setFirst
  repeat' first | with_reducible assumption | ((with_reducible refine Sub.mono hk ?_); rfl) | with_reducible refine Moves.refuse ?_ ?_ | with_reducible refine Moves.billCheck ?_ ?_ | with_reducible refine Moves.moveVal ?_ ?_ | with_reducible refine Moves.becomeSet ?_ ?_ | with_reducible apply Moves.ite | with_reducible apply First.ite | with_reducible intro _ _ _ _ _ | with_reducible intro _ _ _ | with_reducible intro _ _ | extract_lets | split | with_reducible apply First.mk

theorem First.stepFirst {k : Nat} {src : CorrSource} {amount : Int} {s0 s : State} (hs : Moves K s0 s) (hk : Sub 0xE0091004 K := by first | assumption | exact Sub.mono (by assumption) rfl) : First K s0 (State.stepFirst s k src amount) := by
  unfold State.stepFirst
  repeat' first | with_reducible assumption | ((with_reducible refine Sub.mono hk ?_); rfl) | with_reducible refine Moves.refuseGuard ?_ ?_ | with_reducible refine Moves.refuse ?_ ?_ | with_reducible refine Moves.doStep ?_ ?_ | with_reducible refine Moves.becomeSet ?_ ?_ | with_reducible apply Moves.ite | with_reducible apply First.ite | with_reducible intro _ _ _ _ _ | with_reducible intro _ _ _ | with_reducible intro _ _ | extract_lets | split | with_reducible apply First.mk

theorem First.trySet {k : Nat} {src : CorrSource} {v : Int} {s0 s : State} (hs : Moves K s0 s) (hk : Sub 0xE0091004 K := by first | assumption | exact Sub.mono (by assumption) rfl) : First K s0 (State.trySet s k src v) := by
  unfold State.trySet
  repeat' first | with_reducible assumption | ((with_reducible refine Sub.mono hk ?_); rfl) | with_reducible refine First.tryStep ?_ ?_ | with_reducible refine (First.tryStep ?_ ?_).out ‹_› | with_reducible refine (First.tryStep ?_ ?_).fst | with_reducible refine First.setFirst ?_ ?_ | with_reducible refine (First.setFirst ?_ ?_).out ‹_› | with_reducible refine (First.setFirst ?_ ?_).fst | with_reducible apply Moves.ite | with_reducible apply First.ite | with_reducible intro _ _ _ _ _ | with_reducible intro _ _ _ | with_reducible intro _ _ | extract_lets | split | with_reducible apply First.mk

theorem First.presentStep {k : Nat} {src : CorrSource} {amount : Int} {s0 s : State} (hs : Moves K s0 s) (hk : Sub 0xE0091004 K := by first | assumption | exact Sub.mono (by assumption) rfl) : First K s0 (State.presentStep s k src amount) := by
  unfold State.presentStep
  repeat' first | with_reducible assumption | with_reducible refine First.tryStep ?_ ?_ | with_reducible refine (First.tryStep ?_ ?_).out ‹_› | with_reducible refine (First.tryStep ?_ ?_).fst | with_reducible refine First.stepFirst ?_ ?_ | with_reducible refine (First.stepFirst ?_ ?_).out ‹_› | with_reducible refine (First.stepFirst ?_ ?_).fst | with_reducible apply Moves.ite | with_reducible apply First.ite

theorem Moves.tiedWord {k : Nat} {w : Int} {s0 s : State} (hs : Moves K s0 s) (hk : Sub 0xA0011004 K := by first | assumption | exact Sub.mono (by assumption) rfl) : Moves K s0 (State.tiedWord s k w) := by
  unfold State.tiedWord
  repeat' first | with_reducible assumption | with_reducible refine First.tryInc ?_ ?_ | with_reducible refine (First.tryInc ?_ ?_).out ‹_› | with_reducible refine (First.tryInc ?_ ?_).fst | with_reducible apply Moves.stateOf

theorem Moves.schedDone {k : Nat} {r : State × Code} {s0 : State} (h : First K s0 r) (hk : Sub 0x80001004 K := by first | assumption | exact Sub.mono (by assumption) rfl) : Moves K s0 (schedDone k r) :=
  Moves.ite (Moves.route (Moves.ev h)) h

theorem Moves.applySched {k : Nat} {s0 s : State} (hs : Moves K s0 s) (hk : Sub 0xA0011004 K := by first | assumption | exact Sub.mono (by assumption) rfl) : Moves K s0 (State.applySched s k) := by
  unfold State.applySched
  repeat' first | with_reducible assumption | ((with_reducible refine Sub.mono hk ?_); rfl) | with_reducible refine Moves.modTsc ?_ ?_ | with_reducible refine Moves.setf ?_ ?_ | with_reducible refine First.tryInc ?_ ?_ | with_reducible refine (First.tryInc ?_ ?_).out ‹_› | with_reducible refine (First.tryInc ?_ ?_).fst | with_reducible refine Moves.schedDone ?_ ?_ | with_reducible apply Moves.ite | fail_if_no_progress (with_reducible refine Moves.plain ?_ ?_ ?_ ?_ ?_ ?_ ?_ ?_ ?_ ?_ ?_ ?_ ?_ ?_ ?_ ?_ ?_ <;> first | ((with_reducible refine Or.inr (Sub.bit hk ?_)); decide) | with_reducible exact Or.inl rfl | skip) | fail_if_no_progress (with_reducible refine Moves.plainNv ?_ rfl rfl rfl ?_ ?_ ?_ ?_ ?_ ?_ ?_ ?_ ?_ ?_ ?_ ?_ ?_ ?_ ?_ ?_ ?_ <;> first | ((with_reducible refine Or.inr (Sub.bit hk ?_)); decide) | with_reducible exact Or.inl rfl | skip) | with_reducible intro _ _ _ _ _ | with_reducible intro _ _ _ | with_reducible intro _ _ | extract_lets | split

end Sys2Proof.Machine
end

