-- ==== Sys2Proof/Laws/KeepMemOps.lean ====
section
/-! SUPPORT. What the operations of Machine/MemOps.lean keep: the queue, the canonical form of the tables, and the parts of the state outside those named. -/

set_option Elab.async false

set_option linter.unreachableTactic false
set_option linter.unusedTactic false

namespace Sys2Proof.Machine

variable {K : Nat}

theorem Moves.eccRead {w reader : Nat} {s0 s : State} (hs : Moves K s0 s) (hk : Sub 0xFFFFFFD9E K := by first | assumption | exact Sub.mono (by assumption) rfl) : Moves K s0 (State.eccRead s w reader) := by
  unfold State.eccRead
  repeat' first | with_reducible assumption | ((with_reducible refine Sub.mono hk ?_); rfl) | with_reducible refine Moves.took ?_ ?_ | with_reducible refine Moves.setw ?_ ?_ | with_reducible refine Moves.inc ?_ ?_ | with_reducible refine Moves.setEcc ?_ ?_ | with_reducible refine Moves.reportInj ?_ ?_ | with_reducible apply Moves.ite

theorem Moves.bankCheck {a n reader : Nat} {s0 s : State} (hs : Moves K s0 s) (hk : Sub 0xFFFFFFD9E K := by first | assumption | exact Sub.mono (by assumption) rfl) : Moves K s0 (State.bankCheck s a n reader) := by
  unfold State.bankCheck
  repeat' first | with_reducible assumption | with_reducible refine Moves.forL ?_ ?_ | with_reducible refine Moves.eccRead ?_ ?_ | with_reducible apply Moves.ite | with_reducible intro _ _ _ _ _ | with_reducible intro _ _ _

end Sys2Proof.Machine
end

