-- ==== Sys2Proof/Laws/KeepEngineOps.lean ====
section
/-! SUPPORT. What the operations of Machine/EngineOps.lean keep: the queue, the canonical form of the tables, and the parts of the state outside those named. -/

set_option Elab.async false

set_option linter.unreachableTactic false
set_option linter.unusedTactic false

namespace Sys2Proof.Machine

variable {K : Nat}

theorem Moves.putCheckpoint {e k : Nat} {x : Checkpoint} {s0 s : State} (hs : Moves K s0 s) (hk : Sub 0x200000 K := by first | assumption | exact Sub.mono (by assumption) rfl) : Moves K s0 (State.putCheckpoint s e k x) := by
  unfold State.putCheckpoint
  repeat' first | with_reducible assumption | ((with_reducible refine Sub.mono hk ?_); rfl) | with_reducible apply Moves.ite | fail_if_no_progress (with_reducible refine Moves.plain ?_ ?_ ?_ ?_ ?_ ?_ ?_ ?_ ?_ ?_ ?_ ?_ ?_ ?_ ?_ ?_ ?_ <;> first | ((with_reducible refine Or.inr (Sub.bit hk ?_)); decide) | with_reducible exact Or.inl rfl | skip) | with_reducible intro _ _ _ _ _ | with_reducible intro _ _ _ | with_reducible intro _ _ | extract_lets | split

theorem Moves.checkpoint {l : Nat} {catchUp : Bool} {s0 s : State} (hs : Moves K s0 s) (hk : Sub 0x20181E K := by first | assumption | exact Sub.mono (by assumption) rfl) : Moves K s0 (State.checkpoint s l catchUp) := by
  unfold State.checkpoint
  repeat' first | with_reducible assumption | ((with_reducible refine Sub.mono hk ?_); rfl) | with_reducible refine Moves.bankWrite ?_ ?_ | with_reducible refine Moves.took ?_ ?_ | with_reducible refine Moves.putCheckpoint ?_ ?_ | with_reducible apply Moves.ite | with_reducible intro _ _ _ _ _ | with_reducible intro _ _ _ | with_reducible intro _ _ | extract_lets | split

theorem Moves.copyCheckpoint {src dst : Nat} {s0 s : State} (hs : Moves K s0 s) (hk : Sub 0x20181C K := by first | assumption | exact Sub.mono (by assumption) rfl) : Moves K s0 (State.copyCheckpoint s src dst) := by
  unfold State.copyCheckpoint
  repeat' first | with_reducible assumption | ((with_reducible refine Sub.mono hk ?_); rfl) | with_reducible refine Moves.putCheckpoint ?_ ?_ | with_reducible refine Moves.fillRegion ?_ ?_ ?_ | with_reducible refine Moves.bankWrite ?_ ?_ | with_reducible apply Moves.ite | with_reducible intro _ _ _ _ _ | with_reducible intro _ _ _ | with_reducible intro _ _ | extract_lets | split | exact List.Pairwise.nil

theorem Moves.logEngine {l src dst cause : Nat} {s0 s : State} (hs : Moves K s0 s) (hk : Sub 0x10000 K := by first | assumption | exact Sub.mono (by assumption) rfl) : Moves K s0 (State.logEngine s l src dst cause) := by
  unfold State.logEngine
  repeat' first | with_reducible assumption | with_reducible refine Moves.logDev ?_ ?_

theorem Moves.engOpDone {l : Nat} {s0 s : State} (hs : Moves K s0 s) (hk : Sub 0x201004 K := by first | assumption | exact Sub.mono (by assumption) rfl) : Moves K s0 (State.engOpDone s l) := by
  unfold State.engOpDone
  repeat' first | with_reducible assumption | ((with_reducible refine Sub.mono hk ?_); rfl) | with_reducible refine Moves.setf ?_ ?_ | with_reducible refine Moves.ringEngineDone ?_ ?_ | with_reducible apply Moves.ite | fail_if_no_progress (with_reducible refine Moves.plain ?_ ?_ ?_ ?_ ?_ ?_ ?_ ?_ ?_ ?_ ?_ ?_ ?_ ?_ ?_ ?_ ?_ <;> first | ((with_reducible refine Or.inr (Sub.bit hk ?_)); decide) | with_reducible exact Or.inl rfl | skip)

theorem Moves.strand {e l : Nat} {s0 s : State} (hs : Moves K s0 s) (hk : Sub 0x620101C K := by first | assumption | exact Sub.mono (by assumption) rfl) : Moves K s0 (State.strand s e l) := by
  unfold State.strand
  repeat' first | with_reducible assumption | ((with_reducible refine Sub.mono hk ?_); rfl) | with_reducible refine Moves.evIf ?_ ?_ | with_reducible refine Moves.engOpDone ?_ ?_ | with_reducible refine Moves.letGo ?_ ?_ | with_reducible refine Moves.freezeLoop ?_ ?_ | with_reducible refine Moves.modLoop ?_ ?_ | with_reducible refine Moves.ev ?_ ?_ | with_reducible apply Moves.ite | with_reducible intro _ _ _ _ _ | with_reducible intro _ _ _ | with_reducible intro _ _ | extract_lets | split

theorem Moves.noPontoon {e l : Nat} {s0 s : State} (hs : Moves K s0 s) (hk : Sub 0xFFFFFFD9E K := by first | assumption | exact Sub.mono (by assumption) rfl) : Moves K s0 (State.noPontoon s e l) := by
  unfold State.noPontoon
  repeat' first | with_reducible assumption | ((with_reducible refine Sub.mono hk ?_); rfl) | with_reducible refine Moves.strand ?_ ?_ | with_reducible refine Moves.report ?_ ?_

theorem Moves.beginMove {l src dst : Nat} {planned retire : Bool} {s0 s : State} (hs : Moves K s0 s) (hk : Sub 0x6000000 K := by first | assumption | exact Sub.mono (by assumption) rfl) : Moves K s0 (State.beginMove s l src dst planned retire) := by
  unfold State.beginMove
  repeat' first | with_reducible assumption | ((with_reducible refine Sub.mono hk ?_); rfl) | with_reducible refine Moves.modHo ?_ ?_ | with_reducible refine Moves.modLoop ?_ ?_ | with_reducible apply Moves.ite | with_reducible intro _ _ _ _ _ | with_reducible intro _ _ _ | with_reducible intro _ _ | extract_lets | split

theorem Moves.checkerFires {e cause : Nat} {inj : Bool} {s0 s : State} (hs : Moves K s0 s) (hk : Sub 0xFFFFFFD9E K := by first | assumption | exact Sub.mono (by assumption) rfl) : Moves K s0 (State.checkerFires s e cause inj) := by
  unfold State.checkerFires
  repeat' first | with_reducible assumption | ((with_reducible refine Sub.mono hk ?_); rfl) | with_reducible refine Moves.setEntry ?_ ?_ | with_reducible refine Moves.setEngine ?_ ?_ | with_reducible refine Moves.reportInj ?_ ?_ | with_reducible refine Moves.ev ?_ ?_ | with_reducible refine Moves.beginMove ?_ ?_ | with_reducible refine Moves.noPontoon ?_ ?_ | with_reducible apply Moves.ite | with_reducible intro _ _ _ _ _ | with_reducible intro _ _ _ | with_reducible intro _ _ | extract_lets | split | dsimp +zetaDelta only

theorem Moves.planMigration {l src dst : Nat} {retire : Bool} {s0 s : State} (hs : Moves K s0 s) (hk : Sub 0x6000000 K := by first | assumption | exact Sub.mono (by assumption) rfl) : Moves K s0 (State.planMigration s l src dst retire) := by
  unfold State.planMigration
  repeat' first | with_reducible assumption | ((with_reducible refine Sub.mono hk ?_); rfl) | with_reducible refine Moves.beginMove ?_ ?_ | with_reducible apply Moves.ite

end Sys2Proof.Machine
end

