-- ==== Sys2Proof/Laws/KeepLoop.lean ====
section
/-! SUPPORT. What the operations of Machine/Loop.lean keep: the queue, the canonical form of the tables, and the parts of the state outside those named. -/

set_option Elab.async false

set_option linter.unreachableTactic false
set_option linter.unusedTactic false

namespace Sys2Proof.Machine

variable {K : Nat}

theorem Moves.refreshCoefs {l : Nat} {s0 s : State} (hs : Moves K s0 s) (hk : Sub 0x4 K := by first | assumption | exact Sub.mono (by assumption) rfl) : Moves K s0 (State.refreshCoefs s l) := by
  unfold State.refreshCoefs
  repeat' first | with_reducible assumption | with_reducible refine Moves.setw ?_ ?_ | with_reducible apply Moves.ite

theorem First.meanError {n k l : Nat} {xs : List Sample} {s0 s : State} (hs : Moves K s0 s) (hk : Sub 0x2001004 K := by first | assumption | exact Sub.mono (by assumption) rfl) : First K s0 (State.meanError s n k l xs) := by
  unfold State.meanError
  repeat' first | with_reducible assumption | ((with_reducible refine Sub.mono hk ?_); rfl) | with_reducible refine Moves.modLoop ?_ ?_ | with_reducible refine Moves.evIf ?_ ?_ | with_reducible refine Moves.incBy ?_ ?_ | with_reducible apply Moves.ite | with_reducible apply First.ite | with_reducible intro _ _ _ _ _ | with_reducible intro _ _ _ | with_reducible intro _ _ | extract_lets | split | with_reducible apply First.mk

theorem First.phaseSample {l : Nat} {xs : List Sample} {s0 s : State} (hs : Moves K s0 s) (hk : Sub 0x2001004 K := by first | assumption | exact Sub.mono (by assumption) rfl) : First K s0 (State.phaseSample s l xs) := by
  unfold State.phaseSample
  repeat' first | with_reducible assumption | ((with_reducible refine Sub.mono hk ?_); rfl) | with_reducible refine First.meanError ?_ ?_ | with_reducible refine (First.meanError ?_ ?_).out ‹_› | with_reducible refine (First.meanError ?_ ?_).fst | with_reducible apply Moves.ite | with_reducible apply First.ite | with_reducible intro _ _ _ _ _ | with_reducible intro _ _ _ | with_reducible intro _ _ | extract_lets | split | with_reducible apply First.mk | dsimp +zetaDelta only

theorem Moves.bwAtBoundary {l : Nat} {s0 s : State} (hs : Moves K s0 s) (hk : Sub 0x2001004 K := by first | assumption | exact Sub.mono (by assumption) rfl) : Moves K s0 (State.bwAtBoundary s l) := by
  unfold State.bwAtBoundary
  repeat' first | with_reducible assumption | ((with_reducible refine Sub.mono hk ?_); rfl) | with_reducible refine Moves.modLoop ?_ ?_ | with_reducible refine Moves.setBw ?_ ?_ | with_reducible refine Moves.finalGear ?_ ?_ | with_reducible apply Moves.ite | with_reducible intro _ _ _ _ _ | with_reducible intro _ _ _ | with_reducible intro _ _ | extract_lets | split

theorem Moves.followSources {l : Nat} {s0 s : State} (hs : Moves K s0 s) (hk : Sub 0x2001004 K := by first | assumption | exact Sub.mono (by assumption) rfl) : Moves K s0 (State.followSources s l) := by
  unfold State.followSources
  repeat' first | with_reducible assumption | ((with_reducible refine Sub.mono hk ?_); rfl) | with_reducible refine Moves.finalGear ?_ ?_ | with_reducible refine Moves.setf ?_ ?_ | with_reducible refine Moves.startGears ?_ ?_ | with_reducible apply Moves.ite | with_reducible intro _ _ _ _ _ | with_reducible intro _ _ _ | with_reducible intro _ _ | extract_lets | split

theorem Moves.weightsAtBoundary {l : Nat} {xs : List Sample} {s0 s : State} (hs : Moves K s0 s) (hk : Sub 0x2000000 K := by first | assumption | exact Sub.mono (by assumption) rfl) : Moves K s0 (State.weightsAtBoundary s l xs) := by
  unfold State.weightsAtBoundary
  repeat' first | with_reducible assumption | ((with_reducible refine Sub.mono hk ?_); rfl) | with_reducible refine Moves.modLoop ?_ ?_ | with_reducible apply Moves.ite | with_reducible intro _ _ _ _ _ | with_reducible intro _ _ _ | with_reducible intro _ _ | extract_lets | split

theorem Moves.atBoundary {l : Nat} {xs : List Sample} {s0 s : State} (hs : Moves K s0 s) (hk : Sub 0x2001004 K := by first | assumption | exact Sub.mono (by assumption) rfl) : Moves K s0 (State.atBoundary s l xs) := by
  unfold State.atBoundary
  repeat' first | with_reducible assumption | ((with_reducible refine Sub.mono hk ?_); rfl) | with_reducible refine Moves.bwAtBoundary ?_ ?_ | with_reducible refine Moves.weightsAtBoundary ?_ ?_ | with_reducible refine Moves.followSources ?_ ?_ | with_reducible refine Moves.refreshCoefs ?_ ?_ | with_reducible apply Moves.ite | with_reducible intro _ _ _ _ _ | with_reducible intro _ _ _ | with_reducible intro _ _ | extract_lets | split

theorem Moves.lockCheck {l b : Nat} {tag : Tag} {e1 : Int} {s0 s : State} (hs : Moves K s0 s) (hk : Sub 0x86001004 K := by first | assumption | exact Sub.mono (by assumption) rfl) : Moves K s0 (State.lockCheck s l b tag e1) := by
  unfold State.lockCheck
  repeat' first | with_reducible assumption | ((with_reducible refine Sub.mono hk ?_); rfl) | with_reducible refine Moves.modLoop ?_ ?_ | with_reducible refine Moves.setf ?_ ?_ | with_reducible refine Moves.modHo ?_ ?_ | with_reducible refine Moves.when ?_ ?_ | with_reducible refine Moves.finalGear ?_ ?_ | with_reducible refine Moves.route ?_ ?_ | with_reducible refine Moves.ev ?_ ?_ | with_reducible apply Moves.ite | with_reducible intro _ _ _ _ _ | with_reducible intro _ _ _ | with_reducible intro _ _ | extract_lets | split | dsimp +zetaDelta only

theorem Moves.toTarget {l : Nat} {w : Int} {s0 s : State} (hs : Moves K s0 s) (hk : Sub 0xBA011004 K := by first | assumption | exact Sub.mono (by assumption) rfl) : Moves K s0 (State.toTarget s l w) := by
  unfold State.toTarget
  repeat' first | with_reducible assumption | ((with_reducible refine Sub.mono hk ?_); rfl) | with_reducible refine Moves.modLoop ?_ ?_ | with_reducible refine Moves.modApl ?_ ?_ | with_reducible refine Moves.modOut ?_ ?_ | with_reducible refine Moves.tiedWord ?_ ?_ | with_reducible apply Moves.ite

theorem Moves.histUpdate {l : Nat} {tag : Tag} {s0 s : State} (hs : Moves K s0 s) (hk : Sub 0x4000000 K := by first | assumption | exact Sub.mono (by assumption) rfl) : Moves K s0 (State.histUpdate s l tag) := by
  unfold State.histUpdate
  repeat' first | with_reducible assumption | with_reducible refine Moves.modHo ?_ ?_

theorem Moves.showUpdate {l : Nat} {tag : Tag} {e1 : Int} {u : Upd} {hadStep : Bool} {s0 s : State} (hs : Moves K s0 s) (hk : Sub 0x1004 K := by first | assumption | exact Sub.mono (by assumption) rfl) : Moves K s0 (State.showUpdate s l tag e1 u hadStep) := by
  unfold State.showUpdate
  repeat' first | with_reducible assumption | ((with_reducible refine Sub.mono hk ?_); rfl) | with_reducible refine Moves.setf ?_ ?_ | with_reducible refine Moves.setb ?_ ?_ | with_reducible refine Moves.evIf ?_ ?_ | with_reducible refine Moves.setSat ?_ ?_ | with_reducible apply Moves.ite

theorem Moves.workWrite {e : Nat} {s0 s : State} (hs : Moves K s0 s) (hk : Sub 0x1814 K := by first | assumption | exact Sub.mono (by assumption) rfl) : Moves K s0 (State.workWrite s e) := by
  unfold State.workWrite
  repeat' first | with_reducible assumption | with_reducible refine Moves.eccWrite ?_ ?_ | with_reducible apply Moves.ite | with_reducible intro _ _ _ _ _ | with_reducible intro _ _ _ | with_reducible intro _ _ | extract_lets | split

theorem Moves.retakeWord {l : Nat} {s0 s : State} (hs : Moves K s0 s) (hk : Sub 0x2000000 K := by first | assumption | exact Sub.mono (by assumption) rfl) : Moves K s0 (State.retakeWord s l) := by
  unfold State.retakeWord
  repeat' first | with_reducible assumption | ((with_reducible refine Sub.mono hk ?_); rfl) | with_reducible refine Moves.modLoop ?_ ?_ | with_reducible apply Moves.ite | with_reducible intro _ _ _ _ _ | with_reducible intro _ _ _ | with_reducible intro _ _ | extract_lets | split

theorem First.freezeSettle {l : Nat} {settled : Bool} {tag : Tag} {s0 s : State} (hs : Moves K s0 s) (hk : Sub 0x2000000 K := by first | assumption | exact Sub.mono (by assumption) rfl) : First K s0 (State.freezeSettle s l settled tag) := by
  unfold State.freezeSettle
  repeat' first | with_reducible assumption | ((with_reducible refine Sub.mono hk ?_); rfl) | with_reducible refine Moves.modLoop ?_ ?_ | with_reducible apply Moves.ite | with_reducible apply First.ite | with_reducible intro _ _ _ _ _ | with_reducible intro _ _ _ | with_reducible intro _ _ | extract_lets | split | with_reducible apply First.mk

theorem First.updateInput {l b : Nat} {xs : List Sample} {s0 s : State} (hs : Moves K s0 s) (hk : Sub 0x2001004 K := by first | assumption | exact Sub.mono (by assumption) rfl) : First K s0 (State.updateInput s l b xs) := by
  unfold State.updateInput
  repeat' first | with_reducible assumption | ((with_reducible refine Sub.mono hk ?_); rfl) | with_reducible refine Moves.atBoundary ?_ ?_ | with_reducible refine Moves.modLoop ?_ ?_ | with_reducible refine First.phaseSample ?_ ?_ | with_reducible refine (First.phaseSample ?_ ?_).out ‹_› | with_reducible refine (First.phaseSample ?_ ?_).fst | with_reducible refine First.freezeSettle ?_ ?_ | with_reducible refine (First.freezeSettle ?_ ?_).out ‹_› | with_reducible refine (First.freezeSettle ?_ ?_).fst | with_reducible refine Moves.retakeWord ?_ ?_ | with_reducible apply Moves.ite | with_reducible apply First.ite | with_reducible intro _ _ _ _ _ | with_reducible intro _ _ _ | with_reducible intro _ _ | extract_lets | split | with_reducible apply First.mk

theorem Moves.updateFails {l cause : Nat} {inj : Bool} {s0 s : State} (hs : Moves K s0 s) (hk : Sub 0xFFFFFFD9E K := by first | assumption | exact Sub.mono (by assumption) rfl) : Moves K s0 (State.updateFails s l cause inj) := by
  unfold State.updateFails
  repeat' first | with_reducible assumption | ((with_reducible refine Sub.mono hk ?_); rfl) | with_reducible refine Moves.when ?_ ?_ | with_reducible refine Moves.injDone ?_ ?_ | with_reducible refine Moves.checkerFires ?_ ?_ | with_reducible apply Moves.ite | fail_if_no_progress (with_reducible refine Moves.plain ?_ ?_ ?_ ?_ ?_ ?_ ?_ ?_ ?_ ?_ ?_ ?_ ?_ ?_ ?_ ?_ ?_ <;> first | ((with_reducible refine Or.inr (Sub.bit hk ?_)); decide) | with_reducible exact Or.inl rfl | skip) | with_reducible intro _ _ _ _ _ | with_reducible intro _ _ _ | with_reducible intro _ _ | extract_lets | split

theorem Moves.departed {l : Nat} {s0 s : State} (hs : Moves K s0 s) (hk : Sub 0x2001004 K := by first | assumption | exact Sub.mono (by assumption) rfl) : Moves K s0 (State.departed s l) := by
  unfold State.departed
  repeat' first | with_reducible assumption | ((with_reducible refine Sub.mono hk ?_); rfl) | with_reducible refine Moves.modLoop ?_ ?_ | with_reducible refine Moves.setf ?_ ?_ | with_reducible refine Moves.ev ?_ ?_ | with_reducible apply Moves.ite | with_reducible intro _ _ _ _ _ | with_reducible intro _ _ _ | with_reducible intro _ _ | extract_lets | split

theorem Moves.completeUpdate {l b : Nat} {tag : Tag} {err : Int} {u : Upd} {w : Int} {catchUp : Bool} {s0 s : State} (hs : Moves K s0 s) (hk : Sub 0xBE21181E K := by first | assumption | exact Sub.mono (by assumption) rfl) : Moves K s0 (State.completeUpdate s l b tag err u w catchUp) := by
  unfold State.completeUpdate
  repeat' first | with_reducible assumption | ((with_reducible refine Sub.mono hk ?_); rfl) | with_reducible refine Moves.modLoop ?_ ?_ | with_reducible refine Moves.departed ?_ ?_ | with_reducible refine Moves.lockCheck ?_ ?_ | with_reducible refine Moves.showUpdate ?_ ?_ | with_reducible refine Moves.checkpoint ?_ ?_ | with_reducible refine Moves.workWrite ?_ ?_ | with_reducible refine Moves.toTarget ?_ ?_ | with_reducible refine Moves.histUpdate ?_ ?_ | with_reducible apply Moves.ite | with_reducible intro _ _ _ _ _ | with_reducible intro _ _ _ | with_reducible intro _ _ | extract_lets | split

theorem Moves.runUpdate {l b : Nat} {xs : List Sample} {chk : CheckOutcome} {catchUp : Bool} {s0 s : State} (hs : Moves K s0 s) (hk : Sub 0xFFFFFFD9E K := by first | assumption | exact Sub.mono (by assumption) rfl) : Moves K s0 (State.runUpdate s l b xs chk catchUp) := by
  unfold State.runUpdate
  repeat' first | with_reducible assumption | ((with_reducible refine Sub.mono hk ?_); rfl) | with_reducible refine Moves.bankCheck ?_ ?_ | with_reducible refine Moves.updateFails ?_ ?_ | with_reducible refine First.updateInput ?_ ?_ | with_reducible refine (First.updateInput ?_ ?_).out ‹_› | with_reducible refine (First.updateInput ?_ ?_).fst | with_reducible refine Moves.completeUpdate ?_ ?_ | with_reducible apply Moves.ite | with_reducible apply First.ite | with_reducible intro _ _ _ _ _ | with_reducible intro _ _ _ | with_reducible intro _ _ | extract_lets | split | with_reducible apply First.mk | dsimp +zetaDelta only

theorem Moves.intervalEnds {l b : Nat} {xs : List Sample} {chk : CheckOutcome} {catchUp : Bool} {s0 s : State} (hs : Moves K s0 s) (hk : Sub 0xFFFFFFD9E K := by first | assumption | exact Sub.mono (by assumption) rfl) : Moves K s0 (State.intervalEnds s l b xs chk catchUp) := by
  unfold State.intervalEnds
  repeat' first | with_reducible assumption | ((with_reducible refine Sub.mono hk ?_); rfl) | with_reducible refine Moves.runUpdate ?_ ?_ | with_reducible refine First.updateInput ?_ ?_ | with_reducible refine (First.updateInput ?_ ?_).out ‹_› | with_reducible refine (First.updateInput ?_ ?_).fst | with_reducible refine Moves.modLoop ?_ ?_ | with_reducible apply Moves.ite | with_reducible apply First.ite | with_reducible intro _ _ _ _ _ | with_reducible intro _ _ _ | with_reducible intro _ _ | extract_lets | split | with_reducible apply First.mk

theorem Moves.keepInterval {l b : Nat} {xs : List Sample} {s0 s : State} (hs : Moves K s0 s) (hk : Sub 0x2000000 K := by first | assumption | exact Sub.mono (by assumption) rfl) : Moves K s0 (State.keepInterval s l b xs) := by
  unfold State.keepInterval
  repeat' first | with_reducible assumption | ((with_reducible refine Sub.mono hk ?_); rfl) | with_reducible refine Moves.modLoop ?_ ?_ | with_reducible apply Moves.ite | with_reducible intro _ _ _ _ _ | with_reducible intro _ _ _ | with_reducible intro _ _ | extract_lets | split

theorem Moves.loopUpdate {l : Nat} {chk : CheckOutcome} {s0 s : State} (hs : Moves K s0 s) (hk : Sub 0xFFFFFFD9E K := by first | assumption | exact Sub.mono (by assumption) rfl) : Moves K s0 (State.loopUpdate s l chk) := by
  unfold State.loopUpdate
  repeat' first | with_reducible assumption | ((with_reducible refine Sub.mono hk ?_); rfl) | with_reducible refine Moves.keepInterval ?_ ?_ | with_reducible refine Moves.intervalEnds ?_ ?_ | with_reducible refine Moves.updateFails ?_ ?_ | with_reducible apply Moves.ite | with_reducible intro _ _ _ _ _ | with_reducible intro _ _ _ | with_reducible intro _ _ | extract_lets | split

theorem Ends.execLoopUpdate {n : Fin 32} {chk : CheckOutcome} {s : State} (hk : Sub 0xFFFFFFD9E K := by first | assumption | exact Sub.mono (by assumption) rfl) : Ends K s (Sys2Proof.Machine.execLoopUpdate n chk s) := by
  have h : Moves K s s := Moves.refl s
  unfold Sys2Proof.Machine.execLoopUpdate
  repeat' first | with_reducible assumption | with_reducible exact Moves.next ‹_› | with_reducible apply Moves.next | with_reducible apply Ends.ite | with_reducible exact Ends.refused | with_reducible refine Moves.loopUpdate ?_ ?_

theorem Ends.execLockDwellExpiry {n : Fin 32} {s : State} (hk : Sub 0x86001004 K := by first | assumption | exact Sub.mono (by assumption) rfl) : Ends K s (Sys2Proof.Machine.execLockDwellExpiry n s) := by
  have h : Moves K s s := Moves.refl s
  unfold Sys2Proof.Machine.execLockDwellExpiry
  repeat' first | with_reducible assumption | ((with_reducible refine Sub.mono hk ?_); rfl) | with_reducible exact Moves.next ‹_› | with_reducible apply Moves.next | with_reducible apply Ends.ite | with_reducible exact Ends.refused | with_reducible refine Moves.modLoop ?_ ?_ | with_reducible refine Moves.setf ?_ ?_ | with_reducible refine Moves.modHo ?_ ?_ | with_reducible refine Moves.route ?_ ?_ | with_reducible refine Moves.ev ?_ ?_ | with_reducible apply Moves.ite | with_reducible intro _ _ _ _ _ | with_reducible intro _ _ _ | with_reducible intro _ _ | extract_lets | split | dsimp +zetaDelta only

theorem Ends.execGearDwellExpiry {n : Fin 32} {s : State} (hk : Sub 0x2001004 K := by first | assumption | exact Sub.mono (by assumption) rfl) : Ends K s (Sys2Proof.Machine.execGearDwellExpiry n s) := by
  have h : Moves K s s := Moves.refl s
  unfold Sys2Proof.Machine.execGearDwellExpiry
  repeat' first | with_reducible assumption | ((with_reducible refine Sub.mono hk ?_); rfl) | with_reducible exact Moves.next ‹_› | with_reducible apply Moves.next | with_reducible apply Ends.ite | with_reducible exact Ends.refused | with_reducible refine Moves.manGear ?_ ?_ | with_reducible refine Moves.autoGear ?_ ?_ | with_reducible apply Moves.ite | with_reducible intro _ _ _ _ _ | with_reducible intro _ _ _ | with_reducible intro _ _ | extract_lets | split

theorem Moves.stepCode {l : Nat} {c : Code} {s0 s : State} (hs : Moves K s0 s) (hk : Sub 0x4 K := by first | assumption | exact Sub.mono (by assumption) rfl) : Moves K s0 (State.stepCode s l c) := by
  unfold State.stepCode
  repeat' first | with_reducible assumption | with_reducible refine Moves.complete ?_ ?_

theorem Moves.stepLoad {p : Port} {l : Nat} {s0 s : State} (hs : Moves K s0 s) (hk : Sub 0x2001004 K := by first | assumption | exact Sub.mono (by assumption) rfl) : Moves K s0 (State.stepLoad s p l) := by
  unfold State.stepLoad
  repeat' first | with_reducible assumption | ((with_reducible refine Sub.mono hk ?_); rfl) | with_reducible refine Moves.stepCode ?_ ?_ | with_reducible refine Moves.evIf ?_ ?_ | with_reducible refine Moves.modLoop ?_ ?_ | with_reducible refine Moves.setf ?_ ?_ | with_reducible refine Moves.mboxEmpty ?_ ?_ | with_reducible apply Moves.ite | fail_if_no_progress (with_reducible refine Moves.plain ?_ ?_ ?_ ?_ ?_ ?_ ?_ ?_ ?_ ?_ ?_ ?_ ?_ ?_ ?_ ?_ ?_ <;> first | ((with_reducible refine Or.inr (Sub.bit hk ?_)); decide) | with_reducible exact Or.inl rfl | skip) | fail_if_no_progress (with_reducible refine Moves.plainNv ?_ rfl rfl rfl ?_ ?_ ?_ ?_ ?_ ?_ ?_ ?_ ?_ ?_ ?_ ?_ ?_ ?_ ?_ ?_ ?_ <;> first | ((with_reducible refine Or.inr (Sub.bit hk ?_)); decide) | with_reducible exact Or.inl rfl | skip) | with_reducible intro _ _ _ _ _ | with_reducible intro _ _ _ | with_reducible intro _ _ | extract_lets | split

theorem Moves.showStep {l : Nat} {s0 s : State} (hs : Moves K s0 s) (hk : Sub 0x4 K := by first | assumption | exact Sub.mono (by assumption) rfl) : Moves K s0 (State.showStep s l) := by
  unfold State.showStep
  repeat' first | with_reducible assumption | with_reducible refine Moves.setSat ?_ ?_ | with_reducible refine Moves.setb ?_ ?_

theorem Moves.stepGo {l : Nat} {s0 s : State} (hs : Moves K s0 s) (hk : Sub 0x2001004 K := by first | assumption | exact Sub.mono (by assumption) rfl) : Moves K s0 (State.stepGo s l) := by
  unfold State.stepGo
  repeat' first | with_reducible assumption | ((with_reducible refine Sub.mono hk ?_); rfl) | with_reducible refine Moves.stepCode ?_ ?_ | with_reducible refine Moves.ev ?_ ?_ | with_reducible refine Moves.setf ?_ ?_ | with_reducible refine Moves.modLoop ?_ ?_ | with_reducible refine Moves.evIf ?_ ?_ | with_reducible refine Moves.showStep ?_ ?_ | with_reducible apply Moves.ite | with_reducible intro _ _ _ _ _ | with_reducible intro _ _ _ | with_reducible intro _ _ | extract_lets | split | dsimp +zetaDelta only

theorem Moves.stepCancel {l : Nat} {s0 s : State} (hs : Moves K s0 s) (hk : Sub 0x2001004 K := by first | assumption | exact Sub.mono (by assumption) rfl) : Moves K s0 (State.stepCancel s l) := by
  unfold State.stepCancel
  repeat' first | with_reducible assumption | ((with_reducible refine Sub.mono hk ?_); rfl) | with_reducible refine Moves.setf ?_ ?_ | with_reducible refine Moves.modLoop ?_ ?_ | with_reducible refine Moves.evIf ?_ ?_ | with_reducible refine Moves.showStep ?_ ?_ | with_reducible apply Moves.ite | with_reducible intro _ _ _ _ _ | with_reducible intro _ _ _ | with_reducible intro _ _ | extract_lets | split

theorem Moves.loopCommand {p : Port} {l bit : Nat} {g : State → State} {s0 s : State} (hs : Moves K s0 s) (hg : ∀ t, Moves K s0 t → Moves K s0 (g t)) (hk : Sub 0x2000000 K := by first | assumption | exact Sub.mono (by assumption) rfl) : Moves K s0 (State.loopCommand s p l bit g) := by
  unfold State.loopCommand
  repeat' first | with_reducible assumption | with_reducible apply hg | with_reducible refine Moves.modLoop ?_ ?_ | with_reducible apply Moves.ite

theorem Ends.execStepLoad {p : Port} {n : Fin 32} {s : State} (hk : Sub 0x200D004 K := by first | assumption | exact Sub.mono (by assumption) rfl) : Ends K s (Sys2Proof.Machine.execStepLoad p n s) := by
  have h : Moves K s s := Moves.refl s
  unfold Sys2Proof.Machine.execStepLoad
  repeat' first | with_reducible assumption | ((with_reducible refine Sub.mono hk ?_); rfl) | with_reducible exact Moves.next ‹_› | with_reducible apply Moves.next | with_reducible apply Ends.ite | with_reducible exact Ends.refused | with_reducible refine Moves.doorbell ?_ ?_ ?_ | with_reducible refine Moves.loopCommand ?_ ?_ ?_ | with_reducible refine Moves.stepLoad ?_ ?_ | with_reducible apply Moves.ite | with_reducible intro _ _ _ _ _ | with_reducible intro _ _ _ | with_reducible intro _ _

theorem Ends.execStepGo {p : Port} {n : Fin 32} {s : State} (hk : Sub 0x200D004 K := by first | assumption | exact Sub.mono (by assumption) rfl) : Ends K s (Sys2Proof.Machine.execStepGo p n s) := by
  have h : Moves K s s := Moves.refl s
  unfold Sys2Proof.Machine.execStepGo
  repeat' first | with_reducible assumption | ((with_reducible refine Sub.mono hk ?_); rfl) | with_reducible exact Moves.next ‹_› | with_reducible apply Moves.next | with_reducible apply Ends.ite | with_reducible exact Ends.refused | with_reducible refine Moves.doorbell ?_ ?_ ?_ | with_reducible refine Moves.loopCommand ?_ ?_ ?_ | with_reducible refine Moves.stepGo ?_ ?_ | with_reducible apply Moves.ite | with_reducible intro _ _ _ _ _ | with_reducible intro _ _ _ | with_reducible intro _ _

theorem Ends.execStepCancel {p : Port} {n : Fin 32} {s : State} (hk : Sub 0x200D004 K := by first | assumption | exact Sub.mono (by assumption) rfl) : Ends K s (Sys2Proof.Machine.execStepCancel p n s) := by
  have h : Moves K s s := Moves.refl s
  unfold Sys2Proof.Machine.execStepCancel
  repeat' first | with_reducible assumption | ((with_reducible refine Sub.mono hk ?_); rfl) | with_reducible exact Moves.next ‹_› | with_reducible apply Moves.next | with_reducible apply Ends.ite | with_reducible exact Ends.refused | with_reducible refine Moves.doorbell ?_ ?_ ?_ | with_reducible refine Moves.loopCommand ?_ ?_ ?_ | with_reducible refine Moves.stepCancel ?_ ?_ | with_reducible apply Moves.ite | with_reducible intro _ _ _ _ _ | with_reducible intro _ _ _ | with_reducible intro _ _

theorem Ends.execStepPhaseTask {n : Fin 32} {s : State} (hk : Sub 0x82001004 K := by first | assumption | exact Sub.mono (by assumption) rfl) : Ends K s (Sys2Proof.Machine.execStepPhaseTask n s) := by
  have h : Moves K s s := Moves.refl s
  unfold Sys2Proof.Machine.execStepPhaseTask
  repeat' first | with_reducible assumption | ((with_reducible refine Sub.mono hk ?_); rfl) | with_reducible exact Moves.next ‹_› | with_reducible apply Moves.next | with_reducible apply Ends.ite | with_reducible exact Ends.refused | with_reducible refine Moves.takeRun ?_ ‹_› ?_ | with_reducible refine Moves.loopCommand ?_ ?_ ?_ | with_reducible refine Moves.stepGo ?_ ?_ | with_reducible apply Moves.ite | with_reducible intro _ _ _ _ _ | with_reducible intro _ _ _ | with_reducible intro _ _ | extract_lets | split

theorem Ends.execLoopFetch {p : Port} {n : Fin 32} {s : State} (hk : Sub 0x200D004 K := by first | assumption | exact Sub.mono (by assumption) rfl) : Ends K s (Sys2Proof.Machine.execLoopFetch p n s) := by
  have h : Moves K s s := Moves.refl s
  unfold Sys2Proof.Machine.execLoopFetch
  repeat' first | with_reducible assumption | ((with_reducible refine Sub.mono hk ?_); rfl) | with_reducible exact Moves.next ‹_› | with_reducible apply Moves.next | with_reducible apply Ends.ite | with_reducible exact Ends.refused | with_reducible refine Moves.doorbell ?_ ?_ ?_ | with_reducible refine Moves.loopCommand ?_ ?_ ?_ | with_reducible refine Moves.mboxOut ?_ ?_ | with_reducible apply Moves.ite | with_reducible intro _ _ _ _ _ | with_reducible intro _ _ _ | with_reducible intro _ _

end Sys2Proof.Machine
end

