-- ==== Sys2Proof/Laws/KeepHoldover.lean ====
section
/-! SUPPORT. What the operations of Machine/Holdover.lean keep: the queue, the canonical form of the tables, and the parts of the state outside those named. -/

set_option Elab.async false

set_option linter.unreachableTactic false
set_option linter.unusedTactic false

namespace Sys2Proof.Machine

variable {K : Nat}

theorem Moves.showRecs {l : Nat} {s0 s : State} (hs : Moves K s0 s) (hk : Sub 0x4 K := by first | assumption | exact Sub.mono (by assumption) rfl) : Moves K s0 (State.showRecs s l) := by
  unfold State.showRecs
  repeat' first | with_reducible assumption | ((with_reducible refine Sub.mono hk ?_); rfl) | with_reducible refine Moves.setf ?_ ?_ | with_reducible apply Moves.ite

theorem Moves.showModel {l : Nat} {s0 s : State} (hs : Moves K s0 s) (hk : Sub 0x4 K := by first | assumption | exact Sub.mono (by assumption) rfl) : Moves K s0 (State.showModel s l) := by
  unfold State.showModel
  repeat' first | with_reducible assumption | ((with_reducible refine Sub.mono hk ?_); rfl) | with_reducible refine Moves.showRecs ?_ ?_ | with_reducible refine Moves.setf ?_ ?_ | with_reducible refine Moves.setb ?_ ?_ | with_reducible apply Moves.ite | with_reducible intro _ _ _ _ _ | with_reducible intro _ _ _ | with_reducible intro _ _ | extract_lets | split

theorem Moves.newModel {l : Nat} {m : Option Model} {n : Nat} {s0 s : State} (hs : Moves K s0 s) (hk : Sub 0x400181C K := by first | assumption | exact Sub.mono (by assumption) rfl) : Moves K s0 (State.newModel s l m n) := by
  unfold State.newModel
  repeat' first | with_reducible assumption | ((with_reducible refine Sub.mono hk ?_); rfl) | with_reducible refine Moves.evIf ?_ ?_ | with_reducible refine Moves.modHo ?_ ?_ | with_reducible refine Moves.setb ?_ ?_ | with_reducible refine Moves.setf ?_ ?_ | with_reducible refine Moves.bankWrite ?_ ?_

theorem Moves.freshInterval {l : Nat} {s0 s : State} (hs : Moves K s0 s) (hk : Sub 0x4000000 K := by first | assumption | exact Sub.mono (by assumption) rfl) : Moves K s0 (State.freshInterval s l) := by
  unfold State.freshInterval
  repeat' first | with_reducible assumption | ((with_reducible refine Sub.mono hk ?_); rfl) | with_reducible refine Moves.modHo ?_ ?_ | with_reducible apply Moves.ite | with_reducible intro _ _ _ _ _ | with_reducible intro _ _ _ | with_reducible intro _ _ | extract_lets | split

theorem Moves.historyEnd {l : Nat} {s0 s : State} (hs : Moves K s0 s) (hk : Sub 0x400181C K := by first | assumption | exact Sub.mono (by assumption) rfl) : Moves K s0 (State.historyEnd s l) := by
  unfold State.historyEnd
  repeat' first | with_reducible assumption | ((with_reducible refine Sub.mono hk ?_); rfl) | with_reducible refine Moves.freshInterval ?_ ?_ | with_reducible refine Moves.bankWrite ?_ ?_ | with_reducible refine Moves.incWrap ?_ ?_ | with_reducible refine Moves.setf ?_ ?_ | with_reducible refine Moves.showRecs ?_ ?_ | with_reducible refine Moves.modHo ?_ ?_ | with_reducible apply Moves.ite | with_reducible intro _ _ _ _ _ | with_reducible intro _ _ _ | with_reducible intro _ _ | extract_lets | split

theorem Ends.execHistoryIntervalEnd {n : Fin 32} {s : State} (hk : Sub 0x400181C K := by first | assumption | exact Sub.mono (by assumption) rfl) : Ends K s (Sys2Proof.Machine.execHistoryIntervalEnd n s) := by
  have h : Moves K s s := Moves.refl s
  unfold Sys2Proof.Machine.execHistoryIntervalEnd
  repeat' first | with_reducible assumption | with_reducible exact Moves.next ‹_› | with_reducible apply Moves.next | with_reducible apply Ends.ite | with_reducible exact Ends.refused | with_reducible refine Moves.historyEnd ?_ ?_

theorem Ends.execRefitDone {n : Fin 32} {s : State} (hk : Sub 0x400181C K := by first | assumption | exact Sub.mono (by assumption) rfl) : Ends K s (Sys2Proof.Machine.execRefitDone n s) := by
  have h : Moves K s s := Moves.refl s
  unfold Sys2Proof.Machine.execRefitDone
  repeat' first | with_reducible assumption | ((with_reducible refine Sub.mono hk ?_); rfl) | with_reducible exact Moves.next ‹_› | with_reducible apply Moves.next | with_reducible apply Ends.ite | with_reducible exact Ends.refused | with_reducible refine Moves.newModel ?_ ?_ | with_reducible refine Moves.modHo ?_ ?_

theorem Ends.execEntryFitDone {n : Fin 32} {s : State} (hk : Sub 0x400181C K := by first | assumption | exact Sub.mono (by assumption) rfl) : Ends K s (Sys2Proof.Machine.execEntryFitDone n s) := by
  have h : Moves K s s := Moves.refl s
  unfold Sys2Proof.Machine.execEntryFitDone
  repeat' first | with_reducible assumption | ((with_reducible refine Sub.mono hk ?_); rfl) | with_reducible exact Moves.next ‹_› | with_reducible apply Moves.next | with_reducible apply Ends.ite | with_reducible exact Ends.refused | with_reducible refine Moves.newModel ?_ ?_ | with_reducible refine Moves.modHo ?_ ?_ | with_reducible refine Moves.evIf ?_ ?_ | with_reducible apply Moves.ite | with_reducible intro _ _ _ _ _ | with_reducible intro _ _ _ | with_reducible intro _ _ | extract_lets | split

theorem Moves.holdoverStep {l : Nat} {s0 s : State} (hs : Moves K s0 s) (hk : Sub 0x4001004 K := by first | assumption | exact Sub.mono (by assumption) rfl) : Moves K s0 (State.holdoverStep s l) := by
  unfold State.holdoverStep
  repeat' first | with_reducible assumption | ((with_reducible refine Sub.mono hk ?_); rfl) | with_reducible refine Moves.setb ?_ ?_ | with_reducible refine Moves.modHo ?_ ?_ | with_reducible refine Moves.evIf ?_ ?_ | with_reducible apply Moves.ite

theorem Ends.execHoldoverSecond {n : Fin 32} {s : State} (hk : Sub 0x4001004 K := by first | assumption | exact Sub.mono (by assumption) rfl) : Ends K s (Sys2Proof.Machine.execHoldoverSecond n s) := by
  have h : Moves K s s := Moves.refl s
  unfold Sys2Proof.Machine.execHoldoverSecond
  repeat' first | with_reducible assumption | ((with_reducible refine Sub.mono hk ?_); rfl) | with_reducible exact Moves.next ‹_› | with_reducible apply Moves.next | with_reducible apply Ends.ite | with_reducible exact Ends.refused | with_reducible refine Moves.inc ?_ ?_ | with_reducible refine Moves.modHo ?_ ?_ | with_reducible refine Moves.evIf ?_ ?_ | with_reducible refine Moves.holdoverStep ?_ ?_ | with_reducible apply Moves.ite | with_reducible intro _ _ _ _ _ | with_reducible intro _ _ _ | with_reducible intro _ _ | extract_lets | split

theorem Ends.execTemperatureSample {n : Fin 32} {die : Int} {s : State} (hk : Sub 0x4000004 K := by first | assumption | exact Sub.mono (by assumption) rfl) : Ends K s (Sys2Proof.Machine.execTemperatureSample n die s) := by
  have h : Moves K s s := Moves.refl s
  unfold Sys2Proof.Machine.execTemperatureSample
  repeat' first | with_reducible assumption | ((with_reducible refine Sub.mono hk ?_); rfl) | with_reducible exact Moves.next ‹_› | with_reducible apply Moves.next | with_reducible apply Ends.ite | with_reducible exact Ends.refused | with_reducible refine Moves.modHo ?_ ?_ | with_reducible refine Moves.when ?_ ?_ | with_reducible refine Moves.showRecs ?_ ?_ | with_reducible refine Moves.setf ?_ ?_ | with_reducible apply Moves.ite | with_reducible intro _ _ _ _ _ | with_reducible intro _ _ _ | with_reducible intro _ _ | extract_lets | split

theorem Ends.execTempStaleTimeout {n : Fin 32} {s : State} (hk : Sub 0x1004 K := by first | assumption | exact Sub.mono (by assumption) rfl) : Ends K s (Sys2Proof.Machine.execTempStaleTimeout n s) := by
  have h : Moves K s s := Moves.refl s
  unfold Sys2Proof.Machine.execTempStaleTimeout
  repeat' first | with_reducible assumption | ((with_reducible refine Sub.mono hk ?_); rfl) | with_reducible exact Moves.next ‹_› | with_reducible apply Moves.next | with_reducible apply Ends.ite | with_reducible exact Ends.refused | with_reducible refine Moves.ev ?_ ?_ | with_reducible refine Moves.setf ?_ ?_ | with_reducible apply Moves.ite | with_reducible intro _ _ _ _ _ | with_reducible intro _ _ _ | with_reducible intro _ _ | extract_lets | split

theorem Moves.fetchModel {p : Port} {l : Nat} {s0 s : State} (hs : Moves K s0 s) (hk : Sub 0x1004 K := by first | assumption | exact Sub.mono (by assumption) rfl) : Moves K s0 (State.fetchModel s p l) := by
  unfold State.fetchModel
  repeat' first | with_reducible assumption | with_reducible refine Moves.mboxOut ?_ ?_

theorem Moves.loadModel {p : Port} {l : Nat} {s0 s : State} (hs : Moves K s0 s) (hk : Sub 0x400181C K := by first | assumption | exact Sub.mono (by assumption) rfl) : Moves K s0 (State.loadModel s p l) := by
  unfold State.loadModel
  repeat' first | with_reducible assumption | ((with_reducible refine Sub.mono hk ?_); rfl) | with_reducible refine Moves.complete ?_ ?_ | with_reducible refine Moves.modHo ?_ ?_ | with_reducible refine Moves.bankWrite ?_ ?_ | with_reducible refine Moves.ev ?_ ?_ | with_reducible refine Moves.mboxEmpty ?_ ?_ | with_reducible apply Moves.ite | fail_if_no_progress (with_reducible refine Moves.plain ?_ ?_ ?_ ?_ ?_ ?_ ?_ ?_ ?_ ?_ ?_ ?_ ?_ ?_ ?_ ?_ ?_ <;> first | ((with_reducible refine Or.inr (Sub.bit hk ?_)); decide) | with_reducible exact Or.inl rfl | skip) | fail_if_no_progress (with_reducible refine Moves.plainNv ?_ rfl rfl rfl ?_ ?_ ?_ ?_ ?_ ?_ ?_ ?_ ?_ ?_ ?_ ?_ ?_ ?_ ?_ ?_ ?_ <;> first | ((with_reducible refine Or.inr (Sub.bit hk ?_)); decide) | with_reducible exact Or.inl rfl | skip) | with_reducible intro _ _ _ _ _ | with_reducible intro _ _ _ | with_reducible intro _ _ | extract_lets | split

theorem Moves.markHistory {e : Nat} {s0 s : State} (hs : Moves K s0 s) (hk : Sub 0x8 K := by first | assumption | exact Sub.mono (by assumption) rfl) : Moves K s0 (State.markHistory s e) := by
  unfold State.markHistory
  repeat' first | with_reducible assumption | ((with_reducible refine Sub.mono hk ?_); rfl) | with_reducible refine Moves.forN ?_ ?_ | with_reducible refine Moves.setByte ?_ ?_ | with_reducible apply Moves.ite | with_reducible intro _ _ _ _ _ | with_reducible intro _ _ _ | with_reducible intro _ _ | extract_lets | split

theorem Moves.clearHistory {l : Nat} {s0 s : State} (hs : Moves K s0 s) (hk : Sub 0x400181C K := by first | assumption | exact Sub.mono (by assumption) rfl) : Moves K s0 (State.clearHistory s l) := by
  unfold State.clearHistory
  repeat' first | with_reducible assumption | ((with_reducible refine Sub.mono hk ?_); rfl) | with_reducible refine Moves.complete ?_ ?_ | with_reducible refine Moves.forL ?_ ?_ | with_reducible refine Moves.markHistory ?_ ?_ | with_reducible refine Moves.modHo ?_ ?_ | with_reducible refine Moves.setf ?_ ?_ | with_reducible refine Moves.bankWrite ?_ ?_ | with_reducible refine Moves.evIf ?_ ?_ | with_reducible apply Moves.ite | with_reducible intro _ _ _ _ _ | with_reducible intro _ _ _ | with_reducible intro _ _ | extract_lets | split

theorem Ends.execFetchModel {p : Port} {n : Fin 32} {s : State} (hk : Sub 0x200D004 K := by first | assumption | exact Sub.mono (by assumption) rfl) : Ends K s (Sys2Proof.Machine.execFetchModel p n s) := by
  have h : Moves K s s := Moves.refl s
  unfold Sys2Proof.Machine.execFetchModel
  repeat' first | with_reducible assumption | ((with_reducible refine Sub.mono hk ?_); rfl) | with_reducible exact Moves.next ‹_› | with_reducible apply Moves.next | with_reducible apply Ends.ite | with_reducible exact Ends.refused | with_reducible refine Moves.doorbell ?_ ?_ ?_ | with_reducible refine Moves.loopCommand ?_ ?_ ?_ | with_reducible refine Moves.fetchModel ?_ ?_ | with_reducible apply Moves.ite | with_reducible intro _ _ _ _ _ | with_reducible intro _ _ _ | with_reducible intro _ _

theorem Ends.execLoadModel {p : Port} {n : Fin 32} {s : State} (hk : Sub 0x600D81C K := by first | assumption | exact Sub.mono (by assumption) rfl) : Ends K s (Sys2Proof.Machine.execLoadModel p n s) := by
  have h : Moves K s s := Moves.refl s
  unfold Sys2Proof.Machine.execLoadModel
  repeat' first | with_reducible assumption | ((with_reducible refine Sub.mono hk ?_); rfl) | with_reducible exact Moves.next ‹_› | with_reducible apply Moves.next | with_reducible apply Ends.ite | with_reducible exact Ends.refused | with_reducible refine Moves.doorbell ?_ ?_ ?_ | with_reducible refine Moves.loopCommand ?_ ?_ ?_ | with_reducible refine Moves.loadModel ?_ ?_ | with_reducible apply Moves.ite | with_reducible intro _ _ _ _ _ | with_reducible intro _ _ _ | with_reducible intro _ _

theorem Ends.execClearHistory {p : Port} {n : Fin 32} {s : State} (hk : Sub 0x600D81C K := by first | assumption | exact Sub.mono (by assumption) rfl) : Ends K s (Sys2Proof.Machine.execClearHistory p n s) := by
  have h : Moves K s s := Moves.refl s
  unfold Sys2Proof.Machine.execClearHistory
  repeat' first | with_reducible assumption | ((with_reducible refine Sub.mono hk ?_); rfl) | with_reducible exact Moves.next ‹_› | with_reducible apply Moves.next | with_reducible apply Ends.ite | with_reducible exact Ends.refused | with_reducible refine Moves.doorbell ?_ ?_ ?_ | with_reducible refine Moves.loopCommand ?_ ?_ ?_ | with_reducible refine Moves.clearHistory ?_ ?_ | with_reducible apply Moves.ite | with_reducible intro _ _ _ _ _ | with_reducible intro _ _ _ | with_reducible intro _ _

end Sys2Proof.Machine
end

