-- ==== Sys2Proof/Laws/KeepEngines.lean ====
section
/-! SUPPORT. What the operations of Machine/Engines.lean keep: the queue, the canonical form of the tables, and the parts of the state outside those named. -/

set_option Elab.async false

set_option linter.unreachableTactic false
set_option linter.unusedTactic false

namespace Sys2Proof.Machine

variable {K : Nat}

theorem Moves.performWaiting {l : Nat} {x : Port × Nat} {s0 s : State} (hs : Moves K s0 s) (hk : Sub 0x600181C K := by first | assumption | exact Sub.mono (by assumption) rfl) : Moves K s0 (State.performWaiting s l x) := by
  unfold State.performWaiting
  repeat' first | with_reducible assumption | ((with_reducible refine Sub.mono hk ?_); rfl) | with_reducible refine Moves.mboxOut ?_ ?_ | with_reducible refine Moves.stepLoad ?_ ?_ | with_reducible refine Moves.stepGo ?_ ?_ | with_reducible refine Moves.stepCancel ?_ ?_ | with_reducible refine Moves.fetchModel ?_ ?_ | with_reducible refine Moves.loadModel ?_ ?_ | with_reducible refine Moves.clearHistory ?_ ?_ | with_reducible apply Moves.ite | with_reducible intro _ _ _ _ _ | with_reducible intro _ _ _ | with_reducible intro _ _ | extract_lets | split

theorem Moves.catchUp {l : Nat} {x : Nat × Nat × List Sample} {s0 s : State} (hs : Moves K s0 s) (hk : Sub 0xFFFFFFD9E K := by first | assumption | exact Sub.mono (by assumption) rfl) : Moves K s0 (State.catchUp s l x) := by
  unfold State.catchUp
  repeat' first | with_reducible assumption | ((with_reducible refine Sub.mono hk ?_); rfl) | with_reducible refine Moves.modLoop ?_ ?_ | with_reducible refine Moves.intervalEnds ?_ ?_ | with_reducible apply Moves.ite | with_reducible intro _ _ _ _ _ | with_reducible intro _ _ _ | with_reducible intro _ _ | extract_lets | split

theorem Moves.loadModels {l e : Nat} {s0 s : State} (hs : Moves K s0 s) (hk : Sub 0x4000000 K := by first | assumption | exact Sub.mono (by assumption) rfl) : Moves K s0 (State.loadModels s l e) := by
  unfold State.loadModels
  repeat' first | with_reducible assumption | ((with_reducible refine Sub.mono hk ?_); rfl) | with_reducible refine Moves.modHo ?_ ?_ | with_reducible apply Moves.ite | with_reducible intro _ _ _ _ _ | with_reducible intro _ _ _ | with_reducible intro _ _ | extract_lets | split

theorem Moves.asSelector {l : Nat} {s0 s : State} (hs : Moves K s0 s) (hk : Sub 0x86011004 K := by first | assumption | exact Sub.mono (by assumption) rfl) : Moves K s0 (State.asSelector s l) := by
  unfold State.asSelector
  repeat' first | with_reducible assumption | ((with_reducible refine Sub.mono hk ?_); rfl) | with_reducible refine Moves.freezeNow ?_ ?_ | with_reducible refine Moves.holdoverNow ?_ ?_ | with_reducible refine Moves.departNow ?_ ?_ | with_reducible apply Moves.ite | with_reducible intro _ _ _ _ _ | with_reducible intro _ _ _ | with_reducible intro _ _ | extract_lets | split

theorem Moves.loadOlder {l : Nat} {k : Checkpoint} {s0 s : State} (hs : Moves K s0 s) (hk : Sub 0x86011004 K := by first | assumption | exact Sub.mono (by assumption) rfl) : Moves K s0 (State.loadOlder s l k) := by
  unfold State.loadOlder
  repeat' first | with_reducible assumption | ((with_reducible refine Sub.mono hk ?_); rfl) | with_reducible refine Moves.setw ?_ ?_ | with_reducible refine Moves.setb ?_ ?_ | with_reducible refine Moves.setf ?_ ?_ | with_reducible refine Moves.asSelector ?_ ?_ | with_reducible apply Moves.ite | with_reducible intro _ _ _ _ _ | with_reducible intro _ _ _ | with_reducible intro _ _ | extract_lets | split

theorem Moves.loadState {l src : Nat} {s0 s : State} (hs : Moves K s0 s) (hk : Sub 0x86011004 K := by first | assumption | exact Sub.mono (by assumption) rfl) : Moves K s0 (State.loadState s l src) := by
  unfold State.loadState
  repeat' first | with_reducible assumption | ((with_reducible refine Sub.mono hk ?_); rfl) | with_reducible refine Moves.showModel ?_ ?_ | with_reducible refine Moves.modHo ?_ ?_ | with_reducible refine Moves.loadModels ?_ ?_ | with_reducible refine Moves.modLoop ?_ ?_ | with_reducible refine Moves.when ?_ ?_ | with_reducible refine Moves.loadOlder ?_ ?_ | with_reducible refine Moves.setb ?_ ?_ | with_reducible refine Moves.showStep ?_ ?_ | with_reducible apply Moves.ite | with_reducible intro _ _ _ _ _ | with_reducible intro _ _ _ | with_reducible intro _ _ | extract_lets | split

theorem Moves.releaseSource {src : Nat} {planned retire : Bool} {s0 s : State} (hs : Moves K s0 s) (hk : Sub 0x181C K := by first | assumption | exact Sub.mono (by assumption) rfl) : Moves K s0 (State.releaseSource s src planned retire) := by
  unfold State.releaseSource
  repeat' first | with_reducible assumption | with_reducible refine Moves.setEngine ?_ ?_ | with_reducible apply Moves.ite

theorem Moves.takeOver {l src dst : Nat} {s0 s : State} (hs : Moves K s0 s) (hk : Sub 0x20181C K := by first | assumption | exact Sub.mono (by assumption) rfl) : Moves K s0 (State.takeOver s l src dst) := by
  unfold State.takeOver
  repeat' first | with_reducible assumption | ((with_reducible refine Sub.mono hk ?_); rfl) | with_reducible refine Moves.bankWrite ?_ ?_ | with_reducible refine Moves.copyCheckpoint ?_ ?_ | with_reducible refine Moves.setf ?_ ?_ | with_reducible apply Moves.ite | with_reducible intro _ _ _ _ _ | with_reducible intro _ _ _ | with_reducible intro _ _ | extract_lets | split

theorem Moves.moved8 {l src dst : Nat} {planned retire : Bool} {s0 s : State} (hs : Moves K s0 s) (hk : Sub 0x21181C K := by first | assumption | exact Sub.mono (by assumption) rfl) : Moves K s0 (State.moved8 s l src dst planned retire) := by
  unfold State.moved8
  repeat' first | with_reducible assumption | ((with_reducible refine Sub.mono hk ?_); rfl) | with_reducible refine Moves.releaseSource ?_ ?_ | with_reducible refine Moves.setEngine ?_ ?_ | with_reducible refine Moves.showRecs ?_ ?_ | with_reducible refine Moves.setEntry ?_ ?_ | with_reducible refine Moves.ev ?_ ?_ | with_reducible refine Moves.evIf ?_ ?_ | with_reducible refine Moves.logEngine ?_ ?_ | with_reducible refine Moves.engOpDone ?_ ?_ | with_reducible apply Moves.ite | fail_if_no_progress (with_reducible refine Moves.plain ?_ ?_ ?_ ?_ ?_ ?_ ?_ ?_ ?_ ?_ ?_ ?_ ?_ ?_ ?_ ?_ ?_ <;> first | ((with_reducible refine Or.inr (Sub.bit hk ?_)); decide) | with_reducible exact Or.inl rfl | skip) | with_reducible intro _ _ _ _ _ | with_reducible intro _ _ _ | with_reducible intro _ _ | extract_lets | split

theorem Moves.moveTo {l src dst : Nat} {planned retire : Bool} {s0 s : State} (hs : Moves K s0 s) (hk : Sub 0x21181C K := by first | assumption | exact Sub.mono (by assumption) rfl) : Moves K s0 (State.moveTo s l src dst planned retire) := by
  unfold State.moveTo
  repeat' first | with_reducible assumption | ((with_reducible refine Sub.mono hk ?_); rfl) | with_reducible refine Moves.moved8 ?_ ?_ | with_reducible refine Moves.takeOver ?_ ?_ | with_reducible apply Moves.ite

theorem Moves.resumeOn {l src dst : Nat} {s0 s : State} (hs : Moves K s0 s) (hk : Sub 0x8621181C K := by first | assumption | exact Sub.mono (by assumption) rfl) : Moves K s0 (State.resumeOn s l src dst) := by
  unfold State.resumeOn
  repeat' first | with_reducible assumption | ((with_reducible refine Sub.mono hk ?_); rfl) | with_reducible refine Moves.takeOver ?_ ?_ | with_reducible refine Moves.loadState ?_ ?_ | with_reducible refine Moves.modLoop ?_ ?_ | with_reducible refine Moves.forL ?_ ?_ | with_reducible refine Moves.performWaiting ?_ ?_ | with_reducible refine Moves.obey ?_ ?_ | with_reducible apply Moves.ite | with_reducible intro _ _ _ _ _ | with_reducible intro _ _ _ | with_reducible intro _ _ | extract_lets | split

theorem Moves.onTo {l src : Nat} {planned retire : Bool} {d : Option Nat} {s0 s : State} (hs : Moves K s0 s) (hk : Sub 0xFFFFFFD9E K := by first | assumption | exact Sub.mono (by assumption) rfl) : Moves K s0 (State.onTo s l src planned retire d) := by
  unfold State.onTo
  repeat' first | with_reducible assumption | ((with_reducible refine Sub.mono hk ?_); rfl) | with_reducible refine Moves.beginMove ?_ ?_ | with_reducible refine Moves.noPontoon ?_ ?_ | with_reducible apply Moves.ite | with_reducible intro _ _ _ _ _ | with_reducible intro _ _ _ | with_reducible intro _ _ | extract_lets | split

theorem Moves.receiverFails {l src dst cause : Nat} {planned retire inj : Bool} {s0 s : State} (hs : Moves K s0 s) (hk : Sub 0xFFFFFFD9E K := by first | assumption | exact Sub.mono (by assumption) rfl) : Moves K s0 (State.receiverFails s l src dst cause planned retire inj) := by
  unfold State.receiverFails
  repeat' first | with_reducible assumption | ((with_reducible refine Sub.mono hk ?_); rfl) | with_reducible refine Moves.when ?_ ?_ | with_reducible refine Moves.injDone ?_ ?_ | with_reducible refine Moves.setEntry ?_ ?_ | with_reducible refine Moves.modLoop ?_ ?_ | with_reducible refine Moves.reportInj ?_ ?_ | with_reducible refine Moves.ev ?_ ?_ | with_reducible refine Moves.setEngine ?_ ?_ | with_reducible refine Moves.onTo ?_ ?_ | with_reducible apply Moves.ite | fail_if_no_progress (with_reducible refine Moves.plain ?_ ?_ ?_ ?_ ?_ ?_ ?_ ?_ ?_ ?_ ?_ ?_ ?_ ?_ ?_ ?_ ?_ <;> first | ((with_reducible refine Or.inr (Sub.bit hk ?_)); decide) | with_reducible exact Or.inl rfl | skip) | with_reducible intro _ _ _ _ _ | with_reducible intro _ _ _ | with_reducible intro _ _ | extract_lets | split

theorem Moves.resumeEnd {l src dst : Nat} {planned retire : Bool} {fails : Option Nat} {s0 s t : State} (hs : Moves K s0 s) (ht : Moves K s0 t) (hk : Sub 0xFFFFFFD9E K := by first | assumption | exact Sub.mono (by assumption) rfl) : Moves K s0 (State.resumeEnd s t l src dst planned retire fails) := by
  unfold State.resumeEnd
  split
  · exact Moves.receiverFails hs
  · exact Moves.forL (Moves.moved8 (Moves.forL ht (fun _ _ h => Moves.catchUp h))) (fun _ _ h => Moves.catchUp h)

theorem Moves.resume {l src dst : Nat} {planned retire : Bool} {s0 s : State} (hs : Moves K s0 s) (hk : Sub 0xFFFFFFD9E K := by first | assumption | exact Sub.mono (by assumption) rfl) : Moves K s0 (State.resume s l src dst planned retire) := by
  unfold State.resume
  exact Moves.resumeEnd hs (Moves.resumeOn hs)

theorem Moves.migrationEnd {l : Nat} {plannedKind : Bool} {chk : CheckOutcome} {s0 s : State} (hs : Moves K s0 s) (hk : Sub 0xFFFFFFD9E K := by first | assumption | exact Sub.mono (by assumption) rfl) : Moves K s0 (State.migrationEnd s l plannedKind chk) := by
  unfold State.migrationEnd
  repeat' first | with_reducible assumption | ((with_reducible refine Sub.mono hk ?_); rfl) | with_reducible refine Moves.receiverFails ?_ ?_ | with_reducible refine Moves.resume ?_ ?_ | with_reducible refine Moves.noPontoon ?_ ?_ | with_reducible apply Moves.ite | with_reducible intro _ _ _ _ _ | with_reducible intro _ _ _ | with_reducible intro _ _ | extract_lets | split

theorem Ends.execFailoverResume {n : Fin 32} {chk : CheckOutcome} {s : State} (hk : Sub 0xFFFFFFD9E K := by first | assumption | exact Sub.mono (by assumption) rfl) : Ends K s (Sys2Proof.Machine.execFailoverResume n chk s) := by
  have h : Moves K s s := Moves.refl s
  unfold Sys2Proof.Machine.execFailoverResume
  repeat' first | with_reducible assumption | with_reducible exact Moves.next ‹_› | with_reducible apply Moves.next | with_reducible apply Ends.ite | with_reducible exact Ends.refused | with_reducible refine Moves.migrationEnd ?_ ?_

theorem Ends.execMigrationResume {n : Fin 32} {chk : CheckOutcome} {s : State} (hk : Sub 0xFFFFFFD9E K := by first | assumption | exact Sub.mono (by assumption) rfl) : Ends K s (Sys2Proof.Machine.execMigrationResume n chk s) := by
  have h : Moves K s s := Moves.refl s
  unfold Sys2Proof.Machine.execMigrationResume
  repeat' first | with_reducible assumption | with_reducible exact Moves.next ‹_› | with_reducible apply Moves.next | with_reducible apply Ends.ite | with_reducible exact Ends.refused | with_reducible refine Moves.migrationEnd ?_ ?_

theorem Moves.copyRecord {src dst i : Nat} {s0 s : State} (hs : Moves K s0 s) (hk : Sub 0x8 K := by first | assumption | exact Sub.mono (by assumption) rfl) : Moves K s0 (State.copyRecord s src dst i) := by
  unfold State.copyRecord
  repeat' first | with_reducible assumption | with_reducible refine Moves.setBytes ?_ ?_ | with_reducible apply Moves.ite

theorem Moves.dropCopy {dst : Nat} {s0 s : State} (hs : Moves K s0 s) (hk : Sub 0x200000 K := by first | assumption | exact Sub.mono (by assumption) rfl) : Moves K s0 (State.dropCopy s dst) := by
  unfold State.dropCopy
  repeat' first | with_reducible assumption | with_reducible apply Moves.ite | fail_if_no_progress (with_reducible refine Moves.plain ?_ ?_ ?_ ?_ ?_ ?_ ?_ ?_ ?_ ?_ ?_ ?_ ?_ ?_ ?_ ?_ ?_ <;> first | ((with_reducible refine Or.inr (Sub.bit hk ?_)); decide) | with_reducible exact Or.inl rfl | skip)

theorem Moves.endCopy {e : Nat} {s0 s : State} (hs : Moves K s0 s) (hk : Sub 0xFFFFFFD9E K := by first | assumption | exact Sub.mono (by assumption) rfl) : Moves K s0 (State.endCopy s e) := by
  unfold State.endCopy
  repeat' first | with_reducible assumption | ((with_reducible refine Sub.mono hk ?_); rfl) | with_reducible refine Moves.forN ?_ ?_ | with_reducible refine Moves.bankCheck ?_ ?_ | with_reducible refine Moves.copyRecord ?_ ?_ | with_reducible refine Moves.setEntry ?_ ?_ | with_reducible refine Moves.dropCopy ?_ ?_ | with_reducible refine Moves.toPontoon ?_ ?_ | with_reducible refine Moves.when ?_ ?_ | with_reducible refine Moves.showRecs ?_ ?_ | with_reducible refine Moves.modHo ?_ ?_ | with_reducible apply Moves.ite | with_reducible intro _ _ _ _ _ | with_reducible intro _ _ _ | with_reducible intro _ _ | extract_lets | split

theorem Ends.execHistoryCopyDone {e : Fin 36} {s : State} (hk : Sub 0xFFFFFFD9E K := by first | assumption | exact Sub.mono (by assumption) rfl) : Ends K s (Sys2Proof.Machine.execHistoryCopyDone e s) := by
  have h : Moves K s s := Moves.refl s
  unfold Sys2Proof.Machine.execHistoryCopyDone
  repeat' first | with_reducible assumption | ((with_reducible refine Sub.mono hk ?_); rfl) | with_reducible exact Moves.next ‹_› | with_reducible apply Moves.next | with_reducible apply Ends.ite | with_reducible exact Ends.refused | with_reducible refine Moves.endCopy ?_ ?_ | with_reducible apply Moves.ite

theorem First.engRetireOp {e : Nat} {s0 s : State} (hs : Moves K s0 s) (hk : Sub 0x621181C K := by first | assumption | exact Sub.mono (by assumption) rfl) : First K s0 (State.engRetireOp s e) := by
  unfold State.engRetireOp
  repeat' first | with_reducible assumption | ((with_reducible refine Sub.mono hk ?_); rfl) | with_reducible refine Moves.logEngine ?_ ?_ | with_reducible refine Moves.setEngine ?_ ?_ | with_reducible refine Moves.planMigration ?_ ?_ | with_reducible apply Moves.ite | with_reducible apply First.ite | fail_if_no_progress (with_reducible refine Moves.plain ?_ ?_ ?_ ?_ ?_ ?_ ?_ ?_ ?_ ?_ ?_ ?_ ?_ ?_ ?_ ?_ ?_ <;> first | ((with_reducible refine Or.inr (Sub.bit hk ?_)); decide) | with_reducible exact Or.inl rfl | skip) | with_reducible intro _ _ _ _ _ | with_reducible intro _ _ _ | with_reducible intro _ _ | extract_lets | split | with_reducible apply First.mk

theorem First.engReturnOp {e : Nat} {s0 s : State} (hs : Moves K s0 s) (hk : Sub 0x20181C K := by first | assumption | exact Sub.mono (by assumption) rfl) : First K s0 (State.engReturnOp s e) := by
  unfold State.engReturnOp
  repeat' first | with_reducible assumption | ((with_reducible refine Sub.mono hk ?_); rfl) | with_reducible refine Moves.setEngine ?_ ?_ | with_reducible apply Moves.ite | with_reducible apply First.ite | fail_if_no_progress (with_reducible refine Moves.plain ?_ ?_ ?_ ?_ ?_ ?_ ?_ ?_ ?_ ?_ ?_ ?_ ?_ ?_ ?_ ?_ ?_ <;> first | ((with_reducible refine Or.inr (Sub.bit hk ?_)); decide) | with_reducible exact Or.inl rfl | skip) | with_reducible intro _ _ _ _ _ | with_reducible intro _ _ _ | with_reducible intro _ _ | extract_lets | split | with_reducible apply First.mk

theorem First.engMigrateOp {l e : Nat} {s0 s : State} (hs : Moves K s0 s) (hk : Sub 0x6200000 K := by first | assumption | exact Sub.mono (by assumption) rfl) : First K s0 (State.engMigrateOp s l e) := by
  unfold State.engMigrateOp
  repeat' first | with_reducible assumption | ((with_reducible refine Sub.mono hk ?_); rfl) | with_reducible refine Moves.planMigration ?_ ?_ | with_reducible apply Moves.ite | with_reducible apply First.ite | fail_if_no_progress (with_reducible refine Moves.plain ?_ ?_ ?_ ?_ ?_ ?_ ?_ ?_ ?_ ?_ ?_ ?_ ?_ ?_ ?_ ?_ ?_ <;> first | ((with_reducible refine Or.inr (Sub.bit hk ?_)); decide) | with_reducible exact Or.inl rfl | skip) | with_reducible intro _ _ _ _ _ | with_reducible intro _ _ _ | with_reducible intro _ _ | extract_lets | split | with_reducible apply First.mk

theorem First.engOperation {op h he : Nat} {s0 s : State} (hs : Moves K s0 s) (hk : Sub 0x621181C K := by first | assumption | exact Sub.mono (by assumption) rfl) : First K s0 (State.engOperation s op h he) := by
  unfold State.engOperation
  repeat' first | with_reducible assumption | ((with_reducible refine Sub.mono hk ?_); rfl) | with_reducible refine First.engRetireOp ?_ ?_ | with_reducible refine (First.engRetireOp ?_ ?_).out ‹_› | with_reducible refine (First.engRetireOp ?_ ?_).fst | with_reducible refine First.engReturnOp ?_ ?_ | with_reducible refine (First.engReturnOp ?_ ?_).out ‹_› | with_reducible refine (First.engReturnOp ?_ ?_).fst | with_reducible refine First.engMigrateOp ?_ ?_ | with_reducible refine (First.engMigrateOp ?_ ?_).out ‹_› | with_reducible refine (First.engMigrateOp ?_ ?_).fst | with_reducible apply Moves.ite | with_reducible apply First.ite | with_reducible intro _ _ _ _ _ | with_reducible intro _ _ _ | with_reducible intro _ _ | extract_lets | split | with_reducible apply First.mk

theorem First.engCommand {op h he : Nat} {s0 s : State} (hs : Moves K s0 s) (hk : Sub 0x621181C K := by first | assumption | exact Sub.mono (by assumption) rfl) : First K s0 (State.engCommand s op h he) := by
  unfold State.engCommand
  repeat' first | with_reducible assumption | ((with_reducible refine Sub.mono hk ?_); rfl) | with_reducible refine Moves.complete ?_ ?_ | with_reducible refine First.engOperation ?_ ?_ | with_reducible refine (First.engOperation ?_ ?_).out ‹_› | with_reducible refine (First.engOperation ?_ ?_).fst | with_reducible refine Moves.setb ?_ ?_ | with_reducible refine Moves.setf ?_ ?_ | with_reducible apply Moves.ite | with_reducible apply First.ite | with_reducible intro _ _ _ _ _ | with_reducible intro _ _ _ | with_reducible intro _ _ | extract_lets | split | with_reducible apply First.mk

theorem Moves.engOp {op : Nat} {s0 s : State} (hs : Moves K s0 s) (hk : Sub 0x621181C K := by first | assumption | exact Sub.mono (by assumption) rfl) : Moves K s0 (State.engOp s op) := by
  unfold State.engOp
  repeat' first | with_reducible assumption | ((with_reducible refine Sub.mono hk ?_); rfl) | with_reducible refine First.engCommand ?_ ?_ | with_reducible refine (First.engCommand ?_ ?_).out ‹_› | with_reducible refine (First.engCommand ?_ ?_).fst | with_reducible apply Moves.ite | with_reducible apply First.ite | with_reducible apply First.mk

theorem Ends.execEngRetire {p : Port} {h : Word} {s : State} (hk : Sub 0x621F81C K := by first | assumption | exact Sub.mono (by assumption) rfl) : Ends K s (Sys2Proof.Machine.execEngRetire p h s) := by
  have h : Moves K s s := Moves.refl s
  unfold Sys2Proof.Machine.execEngRetire
  repeat' first | with_reducible assumption | ((with_reducible refine Sub.mono hk ?_); rfl) | with_reducible exact Moves.next ‹_› | with_reducible apply Moves.next | with_reducible apply Ends.ite | with_reducible exact Ends.refused | with_reducible refine Moves.doorbell ?_ ?_ ?_ | with_reducible refine Moves.engOp ?_ ?_ | with_reducible refine Moves.setChecked ?_ ?_ | with_reducible apply Moves.ite | with_reducible intro _ _ _ _ _ | with_reducible intro _ _ _ | with_reducible intro _ _ | extract_lets | split

theorem Ends.execEngReturn {p : Port} {h : Word} {s : State} (hk : Sub 0x621F81C K := by first | assumption | exact Sub.mono (by assumption) rfl) : Ends K s (Sys2Proof.Machine.execEngReturn p h s) := by
  have h : Moves K s s := Moves.refl s
  unfold Sys2Proof.Machine.execEngReturn
  repeat' first | with_reducible assumption | ((with_reducible refine Sub.mono hk ?_); rfl) | with_reducible exact Moves.next ‹_› | with_reducible apply Moves.next | with_reducible apply Ends.ite | with_reducible exact Ends.refused | with_reducible refine Moves.doorbell ?_ ?_ ?_ | with_reducible refine Moves.engOp ?_ ?_ | with_reducible refine Moves.setChecked ?_ ?_ | with_reducible apply Moves.ite | with_reducible intro _ _ _ _ _ | with_reducible intro _ _ _ | with_reducible intro _ _ | extract_lets | split

theorem Ends.execEngMigrate {p : Port} {h e : Word} {s : State} (hk : Sub 0x621F81C K := by first | assumption | exact Sub.mono (by assumption) rfl) : Ends K s (Sys2Proof.Machine.execEngMigrate p h e s) := by
  have h : Moves K s s := Moves.refl s
  unfold Sys2Proof.Machine.execEngMigrate
  repeat' first | with_reducible assumption | ((with_reducible refine Sub.mono hk ?_); rfl) | with_reducible exact Moves.next ‹_› | with_reducible apply Moves.next | with_reducible apply Ends.ite | with_reducible exact Ends.refused | with_reducible refine Moves.doorbell ?_ ?_ ?_ | with_reducible refine Moves.engOp ?_ ?_ | with_reducible refine Moves.setChecked ?_ ?_ | with_reducible apply Moves.ite | with_reducible intro _ _ _ _ _ | with_reducible intro _ _ _ | with_reducible intro _ _ | extract_lets | split

theorem Moves.tested {e : Nat} {s0 s : State} (h : Moves K s0 s) (hk : Sub 0x181C K := by first | assumption | exact Sub.mono (by assumption) rfl) : Moves K s0 (s.tested e) :=
  ((h.fillRegion (rising_emptyHistory e)).setEngine).ev

theorem Moves.testEnds {e : Nat} {pass : Bool} {s0 s : State} (hs : Moves K s0 s) (hk : Sub 0xFFFFFFD9E K := by first | assumption | exact Sub.mono (by assumption) rfl) : Moves K s0 (State.testEnds s e pass) := by
  unfold State.testEnds
  repeat' first | with_reducible assumption | ((with_reducible refine Sub.mono hk ?_); rfl) | with_reducible refine Moves.logEngine ?_ ?_ | with_reducible refine Moves.tested ?_ ?_ | with_reducible refine Moves.evIf ?_ ?_ | with_reducible refine Moves.setEntry ?_ ?_ | with_reducible refine Moves.setEngine ?_ ?_ | with_reducible refine Moves.report ?_ ?_ | with_reducible refine Moves.ev ?_ ?_ | with_reducible apply Moves.ite | with_reducible intro _ _ _ _ _ | with_reducible intro _ _ _ | with_reducible intro _ _ | extract_lets | split

theorem Ends.execEngineSelfTestDone {e : Fin 36} {pass : Bool} {s : State} (hk : Sub 0xFFFFFFD9E K := by first | assumption | exact Sub.mono (by assumption) rfl) : Ends K s (Sys2Proof.Machine.execEngineSelfTestDone e pass s) := by
  have h : Moves K s s := Moves.refl s
  unfold Sys2Proof.Machine.execEngineSelfTestDone
  repeat' first | with_reducible assumption | ((with_reducible refine Sub.mono hk ?_); rfl) | with_reducible exact Moves.next ‹_› | with_reducible apply Moves.next | with_reducible apply Ends.ite | with_reducible exact Ends.refused | with_reducible refine Moves.ringEngineDone ?_ ?_ | with_reducible refine Moves.setf ?_ ?_ | with_reducible refine Moves.testEnds ?_ ?_ | with_reducible apply Moves.ite | fail_if_no_progress (with_reducible refine Moves.plain ?_ ?_ ?_ ?_ ?_ ?_ ?_ ?_ ?_ ?_ ?_ ?_ ?_ ?_ ?_ ?_ ?_ <;> first | ((with_reducible refine Or.inr (Sub.bit hk ?_)); decide) | with_reducible exact Or.inl rfl | skip) | with_reducible intro _ _ _ _ _ | with_reducible intro _ _ _ | with_reducible intro _ _ | extract_lets | split

theorem Ends.execLandWaitExpiry {n : Fin 32} {s : State} (hk : Sub 0x86011004 K := by first | assumption | exact Sub.mono (by assumption) rfl) : Ends K s (Sys2Proof.Machine.execLandWaitExpiry n s) := by
  have h : Moves K s s := Moves.refl s
  unfold Sys2Proof.Machine.execLandWaitExpiry
  repeat' first | with_reducible assumption | ((with_reducible refine Sub.mono hk ?_); rfl) | with_reducible exact Moves.next ‹_› | with_reducible apply Moves.next | with_reducible apply Ends.ite | with_reducible exact Ends.refused | with_reducible refine Moves.enterHoldover ?_ ?_ | with_reducible apply Moves.ite | with_reducible intro _ _ _ _ _ | with_reducible intro _ _ _ | with_reducible intro _ _ | extract_lets | split

end Sys2Proof.Machine
end

