-- ==== Sys2Proof/Laws/KeepLanding.lean ====
section
/-! SUPPORT. What the operations of Machine/Landing.lean keep: the queue, the canonical form of the tables, and the parts of the state outside those named. -/

set_option Elab.async false

set_option linter.unreachableTactic false
set_option linter.unusedTactic false

namespace Sys2Proof.Machine

variable {K : Nat}

theorem First.calibrate {n : Nat} {w1 w2 : BitVec 512} {s0 s : State} (hs : Moves K s0 s) (hk : Sub 0xFFFFFFD9E K := by first | assumption | exact Sub.mono (by assumption) rfl) : First K s0 (State.calibrate s n w1 w2) := by
  unfold State.calibrate
  repeat' first | with_reducible assumption | ((with_reducible refine Sub.mono hk ?_); rfl) | with_reducible refine Moves.modLnd ?_ ?_ | with_reducible refine Moves.setf ?_ ?_ | with_reducible refine Moves.ev ?_ ?_ | with_reducible refine Moves.inc ?_ ?_ | with_reducible refine Moves.report ?_ ?_ | with_reducible apply Moves.ite | with_reducible apply First.ite | with_reducible intro _ _ _ _ _ | with_reducible intro _ _ _ | with_reducible intro _ _ | extract_lets | split | with_reducible apply First.mk

theorem Moves.invalidCapture {n : Nat} {s0 s : State} (hs : Moves K s0 s) (hk : Sub 0x1004 K := by first | assumption | exact Sub.mono (by assumption) rfl) : Moves K s0 (State.invalidCapture s n) := by
  unfold State.invalidCapture
  repeat' first | with_reducible assumption | ((with_reducible refine Sub.mono hk ?_); rfl) | with_reducible refine Moves.inc ?_ ?_ | with_reducible refine Moves.ev ?_ ?_

theorem Moves.history {n t stamp : Nat} {tag : Tag} {invalid : Bool} {edge : Nat} {s0 s : State} (hs : Moves K s0 s) (hk : Sub 0x40181C K := by first | assumption | exact Sub.mono (by assumption) rfl) : Moves K s0 (State.history s n t stamp tag invalid edge) := by
  unfold State.history
  repeat' first | with_reducible assumption | ((with_reducible refine Sub.mono hk ?_); rfl) | with_reducible refine Moves.bankWrite ?_ ?_ | with_reducible refine Moves.modLnd ?_ ?_ | with_reducible refine Moves.incWrap ?_ ?_ | with_reducible refine Moves.setf ?_ ?_ | with_reducible apply Moves.ite | with_reducible intro _ _ _ _ _ | with_reducible intro _ _ _ | with_reducible intro _ _ | extract_lets | split

theorem Moves.deliverStamp {n t : Nat} {stamp : Int} {tag : Tag} {edge : Nat} {s0 s : State} (hs : Moves K s0 s) (hk : Sub 0x587D91004 K := by first | assumption | exact Sub.mono (by assumption) rfl) : Moves K s0 (State.deliverStamp s n t stamp tag edge) := by
  unfold State.deliverStamp
  repeat' first | with_reducible assumption | ((with_reducible refine Sub.mono hk ?_); rfl) | with_reducible refine Moves.modLnd ?_ ?_ | with_reducible refine Moves.setf ?_ ?_ | with_reducible refine Moves.route ?_ ?_ | with_reducible refine Moves.forL ?_ ?_ | with_reducible refine Moves.entrySample ?_ ?_ | with_reducible refine Moves.modLoop ?_ ?_ | with_reducible apply Moves.ite | with_reducible intro _ _ _ _ _ | with_reducible intro _ _ _ | with_reducible intro _ _ | extract_lets | split

theorem Moves.gapSlot {n : Nat} {invalid : Option Nat} {edge : Nat} {s0 s : State} (hs : Moves K s0 s) (hk : Sub 0x587D9181C K := by first | assumption | exact Sub.mono (by assumption) rfl) : Moves K s0 (State.gapSlot s n invalid edge) := by
  unfold State.gapSlot
  repeat' first | with_reducible assumption | ((with_reducible refine Sub.mono hk ?_); rfl) | with_reducible refine Moves.setf ?_ ?_ | with_reducible refine Moves.route ?_ ?_ | with_reducible refine Moves.modLnd ?_ ?_ | with_reducible refine Moves.history ?_ ?_ | with_reducible refine Moves.forL ?_ ?_ | with_reducible refine Moves.entrySample ?_ ?_ | with_reducible apply Moves.ite | with_reducible intro _ _ _ _ _ | with_reducible intro _ _ _ | with_reducible intro _ _ | extract_lets | split

theorem Moves.wharfDrop {s0 s : State} (hs : Moves K s0 s) (hk : Sub 0x4 K := by first | assumption | exact Sub.mono (by assumption) rfl) : Moves K s0 (State.wharfDrop s) := by
  unfold State.wharfDrop
  repeat' first | with_reducible assumption | with_reducible refine Moves.inc ?_ ?_

theorem Moves.stampEdge {n t edge : Nat} {cap : Capture} {s0 s : State} (hs : Moves K s0 s) (hk : Sub 0xFFFFFFD9E K := by first | assumption | exact Sub.mono (by assumption) rfl) : Moves K s0 (State.stampEdge s n t edge cap) := by
  unfold State.stampEdge
  repeat' first | with_reducible assumption | ((with_reducible refine Sub.mono hk ?_); rfl) | with_reducible refine Moves.gapSlot ?_ ?_ | with_reducible refine Moves.ev ?_ ?_ | with_reducible refine Moves.inc ?_ ?_ | with_reducible refine First.calibrate ?_ ?_ | with_reducible refine (First.calibrate ?_ ?_).out ‹_› | with_reducible refine (First.calibrate ?_ ?_).fst | with_reducible refine Moves.invalidCapture ?_ ?_ | with_reducible refine Moves.wharfDrop ?_ ?_ | with_reducible refine Moves.modLnd ?_ ?_ | with_reducible refine Moves.deliverStamp ?_ ?_ | with_reducible refine Moves.history ?_ ?_ | with_reducible apply Moves.ite | with_reducible apply First.ite | with_reducible intro _ _ _ _ _ | with_reducible intro _ _ _ | with_reducible intro _ _ | extract_lets | split | with_reducible apply First.mk

theorem Moves.startInterval {n t : Nat} {cap : Capture} {s0 s : State} (hs : Moves K s0 s) (hk : Sub 0xFFFFFFD9E K := by first | assumption | exact Sub.mono (by assumption) rfl) : Moves K s0 (State.startInterval s n t cap) := by
  unfold State.startInterval
  repeat' first | with_reducible assumption | ((with_reducible refine Sub.mono hk ?_); rfl) | with_reducible refine Moves.modLnd ?_ ?_ | with_reducible refine First.calibrate ?_ ?_ | with_reducible refine (First.calibrate ?_ ?_).out ‹_› | with_reducible refine (First.calibrate ?_ ?_).fst | with_reducible refine Moves.gapInterval ?_ ?_ | with_reducible refine Moves.invalidCapture ?_ ?_ | with_reducible refine Moves.wharfDrop ?_ ?_ | with_reducible refine Moves.setf ?_ ?_ | with_reducible apply Moves.ite | with_reducible apply First.ite | with_reducible intro _ _ _ _ _ | with_reducible intro _ _ _ | with_reducible intro _ _ | extract_lets | split | with_reducible apply First.mk

theorem Moves.stopInterval {n t : Nat} {w : BitVec 512} {full settle : Bool} {s0 s : State} (hs : Moves K s0 s) (hk : Sub 0x80401006 K := by first | assumption | exact Sub.mono (by assumption) rfl) : Moves K s0 (State.stopInterval s n t w full settle) := by
  unfold State.stopInterval
  repeat' first | with_reducible assumption | ((with_reducible refine Sub.mono hk ?_); rfl) | with_reducible refine Moves.gapInterval ?_ ?_ | with_reducible refine Moves.invalidCapture ?_ ?_ | with_reducible refine Moves.wharfDrop ?_ ?_ | with_reducible refine Moves.setf ?_ ?_ | with_reducible refine Moves.modLnd ?_ ?_ | with_reducible apply Moves.ite | with_reducible intro _ _ _ _ _ | with_reducible intro _ _ _ | with_reducible intro _ _ | extract_lets | split

theorem Moves.intervalEdge {n t : Nat} {cap : Capture} {s0 s : State} (hs : Moves K s0 s) (hk : Sub 0xFFFFFFD9E K := by first | assumption | exact Sub.mono (by assumption) rfl) : Moves K s0 (State.intervalEdge s n t cap) := by
  unfold State.intervalEdge
  repeat' first | with_reducible assumption | ((with_reducible refine Sub.mono hk ?_); rfl) | with_reducible refine Moves.stopInterval ?_ ?_ | with_reducible refine Moves.modLnd ?_ ?_ | with_reducible refine Moves.startInterval ?_ ?_ | with_reducible apply Moves.ite | with_reducible intro _ _ _ _ _ | with_reducible intro _ _ _ | with_reducible intro _ _ | extract_lets | split | dsimp +zetaDelta only

theorem Moves.peerStops {m t : Nat} {cap : Capture} {s0 s : State} (hs : Moves K s0 s) (hk : Sub 0x80401006 K := by first | assumption | exact Sub.mono (by assumption) rfl) : Moves K s0 (State.peerStops s m t cap) := by
  unfold State.peerStops
  repeat' first | with_reducible assumption | ((with_reducible refine Sub.mono hk ?_); rfl) | with_reducible refine Moves.forN ?_ ?_ | with_reducible refine Moves.stopInterval ?_ ?_ | with_reducible apply Moves.ite | with_reducible intro _ _ _ _ _ | with_reducible intro _ _ _ | with_reducible intro _ _ | extract_lets | split

theorem Moves.rawEdge {n : Nat} {cap : Capture} {s0 s : State} (hs : Moves K s0 s) (hk : Sub 0xFFFFFFD9E K := by first | assumption | exact Sub.mono (by assumption) rfl) : Moves K s0 (State.rawEdge s n cap) := by
  unfold State.rawEdge
  repeat' first | with_reducible assumption | ((with_reducible refine Sub.mono hk ?_); rfl) | with_reducible refine Moves.modLnd ?_ ?_ | with_reducible refine Moves.when ?_ ?_ | with_reducible refine Moves.peerStops ?_ ?_ | with_reducible refine Moves.activityEdge ?_ ?_ | with_reducible refine Moves.stampEdge ?_ ?_ | with_reducible refine Moves.intervalEdge ?_ ?_ | with_reducible refine Moves.refreshSettling ?_ ?_ | with_reducible apply Moves.ite | with_reducible intro _ _ _ _ _ | with_reducible intro _ _ _ | with_reducible intro _ _ | extract_lets | split

theorem Ends.execLandingEdge {n : Fin 32} {cap : Capture} {s : State} (hk : Sub 0xFFFFFFD9E K := by first | assumption | exact Sub.mono (by assumption) rfl) : Ends K s (Sys2Proof.Machine.execLandingEdge n cap s) := by
  have h : Moves K s s := Moves.refl s
  unfold Sys2Proof.Machine.execLandingEdge
  repeat' first | with_reducible assumption | with_reducible exact Moves.next ‹_› | with_reducible apply Moves.next | with_reducible apply Ends.ite | with_reducible exact Ends.refused | with_reducible refine Moves.rawEdge ?_ ?_

theorem Ends.execActivityLost {n : Fin 32} {s : State} (hk : Sub 0xFFFFFFD9E K := by first | assumption | exact Sub.mono (by assumption) rfl) : Ends K s (Sys2Proof.Machine.execActivityLost n s) := by
  have h : Moves K s s := Moves.refl s
  unfold Sys2Proof.Machine.execActivityLost
  repeat' first | with_reducible assumption | ((with_reducible refine Sub.mono hk ?_); rfl) | with_reducible exact Moves.next ‹_› | with_reducible apply Moves.next | with_reducible apply Ends.ite | with_reducible exact Ends.refused | with_reducible refine Moves.loseActivity ?_ ?_ | with_reducible refine Moves.report ?_ ?_ | with_reducible refine Moves.raise ?_ ?_ | with_reducible refine Moves.setf ?_ ?_ | with_reducible apply Moves.ite | with_reducible intro _ _ _ _ _ | with_reducible intro _ _ _ | with_reducible intro _ _ | extract_lets | split

theorem Moves.threshStep {n : Nat} {thresh : Int} {s0 s : State} (hs : Moves K s0 s) (hk : Sub 0x401004 K := by first | assumption | exact Sub.mono (by assumption) rfl) : Moves K s0 (State.threshStep s n thresh) := by
  unfold State.threshStep
  repeat' first | with_reducible assumption | ((with_reducible refine Sub.mono hk ?_); rfl) | with_reducible refine Moves.seti ?_ ?_ | with_reducible refine Moves.modLnd ?_ ?_ | with_reducible refine Moves.refreshSettling ?_ ?_ | with_reducible refine Moves.ev ?_ ?_ | with_reducible apply Moves.ite | with_reducible intro _ _ _ _ _ | with_reducible intro _ _ _ | with_reducible intro _ _ | extract_lets | split

theorem Moves.sliceStep {n : Nat} {thresh : Int} {s0 s : State} (hs : Moves K s0 s) (hk : Sub 0x401004 K := by first | assumption | exact Sub.mono (by assumption) rfl) : Moves K s0 (State.sliceStep s n thresh) := by
  unfold State.sliceStep
  repeat' first | with_reducible assumption | ((with_reducible refine Sub.mono hk ?_); rfl) | with_reducible refine Moves.threshStep ?_ ?_ | with_reducible apply Moves.ite | with_reducible intro _ _ _ _ _ | with_reducible intro _ _ _ | with_reducible intro _ _ | extract_lets | split

theorem Moves.slicerUpdate {n : Nat} {mid : Int} {amp : Nat} {s0 s : State} (hs : Moves K s0 s) (hk : Sub 0x401004 K := by first | assumption | exact Sub.mono (by assumption) rfl) : Moves K s0 (State.slicerUpdate s n mid amp) := by
  unfold State.slicerUpdate
  repeat' first | with_reducible assumption | ((with_reducible refine Sub.mono hk ?_); rfl) | with_reducible refine Moves.setb ?_ ?_ | with_reducible refine Moves.setf ?_ ?_ | with_reducible refine Moves.modLnd ?_ ?_ | with_reducible refine Moves.sliceStep ?_ ?_ | with_reducible apply Moves.ite | with_reducible intro _ _ _ _ _ | with_reducible intro _ _ _ | with_reducible intro _ _ | extract_lets | split

theorem Ends.execSlicerUpdate {n : Fin 32} {mid : Int} {amp : Nat} {s : State} (hk : Sub 0x401004 K := by first | assumption | exact Sub.mono (by assumption) rfl) : Ends K s (Sys2Proof.Machine.execSlicerUpdate n mid amp s) := by
  have h : Moves K s s := Moves.refl s
  unfold Sys2Proof.Machine.execSlicerUpdate
  repeat' first | with_reducible assumption | ((with_reducible refine Sub.mono hk ?_); rfl) | with_reducible exact Moves.next ‹_› | with_reducible apply Moves.next | with_reducible apply Ends.ite | with_reducible exact Ends.refused | with_reducible refine Moves.slicerUpdate ?_ ?_ | with_reducible apply Moves.ite | with_reducible intro _ _ _ _ _ | with_reducible intro _ _ _ | with_reducible intro _ _ | extract_lets | split

theorem Ends.execCoarseWrap {s : State} (hk : Sub 0x4 K := by first | assumption | exact Sub.mono (by assumption) rfl) : Ends K s (Sys2Proof.Machine.execCoarseWrap s) := by
  have h : Moves K s s := Moves.refl s
  unfold Sys2Proof.Machine.execCoarseWrap
  repeat' first | with_reducible assumption | with_reducible exact Moves.next ‹_› | with_reducible apply Moves.next | with_reducible apply Ends.ite | with_reducible exact Ends.refused | with_reducible refine Moves.forN ?_ ?_ | with_reducible refine Moves.incWrap ?_ ?_ | with_reducible apply Moves.ite | with_reducible intro _ _ _ _ _ | with_reducible intro _ _ _

theorem Ends.execGateEnd {n : Fin 32} {s : State} (hk : Sub 0x400004 K := by first | assumption | exact Sub.mono (by assumption) rfl) : Ends K s (Sys2Proof.Machine.execGateEnd n s) := by
  have h : Moves K s s := Moves.refl s
  unfold Sys2Proof.Machine.execGateEnd
  repeat' first | with_reducible assumption | ((with_reducible refine Sub.mono hk ?_); rfl) | with_reducible exact Moves.next ‹_› | with_reducible apply Moves.next | with_reducible apply Ends.ite | with_reducible exact Ends.refused | with_reducible refine Moves.openGate ?_ ?_ | with_reducible refine Moves.closeGate ?_ ?_ | with_reducible apply Moves.ite | with_reducible intro _ _ _ _ _ | with_reducible intro _ _ _ | with_reducible intro _ _ | extract_lets | split

theorem Ends.execGateLongTimeout {n : Fin 32} {s : State} (hk : Sub 0x400004 K := by first | assumption | exact Sub.mono (by assumption) rfl) : Ends K s (Sys2Proof.Machine.execGateLongTimeout n s) := by
  have h : Moves K s s := Moves.refl s
  unfold Sys2Proof.Machine.execGateLongTimeout
  repeat' first | with_reducible assumption | ((with_reducible refine Sub.mono hk ?_); rfl) | with_reducible exact Moves.next ‹_› | with_reducible apply Moves.next | with_reducible apply Ends.ite | with_reducible exact Ends.refused | with_reducible refine Moves.closeGate ?_ ?_ | with_reducible apply Moves.ite | with_reducible intro _ _ _ _ _ | with_reducible intro _ _ _ | with_reducible intro _ _ | extract_lets | split

theorem Moves.armTdc {n : Nat} {s0 s : State} (hs : Moves K s0 s) (hk : Sub 0x80401006 K := by first | assumption | exact Sub.mono (by assumption) rfl) : Moves K s0 (State.armTdc s n) := by
  unfold State.armTdc
  repeat' first | with_reducible assumption | ((with_reducible refine Sub.mono hk ?_); rfl) | with_reducible refine Moves.closeGate ?_ ?_ | with_reducible refine Moves.openGate ?_ ?_ | with_reducible refine Moves.inc ?_ ?_ | with_reducible refine Moves.ev ?_ ?_ | with_reducible refine Moves.gapInterval ?_ ?_ | with_reducible refine Moves.modLnd ?_ ?_ | with_reducible apply Moves.ite

theorem Ends.execArmTdcTask {n : Fin 32} {s : State} (hk : Sub 0x80401006 K := by first | assumption | exact Sub.mono (by assumption) rfl) : Ends K s (Sys2Proof.Machine.execArmTdcTask n s) := by
  have h : Moves K s s := Moves.refl s
  unfold Sys2Proof.Machine.execArmTdcTask
  repeat' first | with_reducible assumption | ((with_reducible refine Sub.mono hk ?_); rfl) | with_reducible exact Moves.next ‹_› | with_reducible apply Moves.next | with_reducible apply Ends.ite | with_reducible exact Ends.refused | with_reducible refine Moves.takeRun ?_ ‹_› ?_ | with_reducible refine Moves.armTdc ?_ ?_ | with_reducible apply Moves.ite | with_reducible intro _ _ _ _ _ | with_reducible intro _ _ _ | with_reducible intro _ _ | extract_lets | split

theorem Ends.execLndArm {p : Port} {n : Fin 32} {s : State} (hk : Sub 0x8040D006 K := by first | assumption | exact Sub.mono (by assumption) rfl) : Ends K s (Sys2Proof.Machine.execLndArm p n s) := by
  have h : Moves K s s := Moves.refl s
  unfold Sys2Proof.Machine.execLndArm
  repeat' first | with_reducible assumption | ((with_reducible refine Sub.mono hk ?_); rfl) | with_reducible exact Moves.next ‹_› | with_reducible apply Moves.next | with_reducible apply Ends.ite | with_reducible exact Ends.refused | with_reducible refine Moves.doorbell ?_ ?_ ?_ | with_reducible refine Moves.armTdc ?_ ?_ | with_reducible apply Moves.ite | with_reducible intro _ _ _ _ _ | with_reducible intro _ _ _ | with_reducible intro _ _

theorem Ends.execIntervalOverflow {n : Fin 32} {s : State} (hk : Sub 0x80401006 K := by first | assumption | exact Sub.mono (by assumption) rfl) : Ends K s (Sys2Proof.Machine.execIntervalOverflow n s) := by
  have h : Moves K s s := Moves.refl s
  unfold Sys2Proof.Machine.execIntervalOverflow
  repeat' first | with_reducible assumption | ((with_reducible refine Sub.mono hk ?_); rfl) | with_reducible exact Moves.next ‹_› | with_reducible apply Moves.next | with_reducible apply Ends.ite | with_reducible exact Ends.refused | with_reducible refine Moves.gapInterval ?_ ?_ | with_reducible refine Moves.ev ?_ ?_ | with_reducible refine Moves.inc ?_ ?_ | with_reducible apply Moves.ite | with_reducible intro _ _ _ _ _ | with_reducible intro _ _ _ | with_reducible intro _ _ | extract_lets | split

theorem Ends.execIntervalDone {n : Fin 32} {s : State} (hk : Sub 0x80401004 K := by first | assumption | exact Sub.mono (by assumption) rfl) : Ends K s (Sys2Proof.Machine.execIntervalDone n s) := by
  have h : Moves K s s := Moves.refl s
  unfold Sys2Proof.Machine.execIntervalDone
  repeat' first | with_reducible assumption | ((with_reducible refine Sub.mono hk ?_); rfl) | with_reducible exact Moves.next ‹_› | with_reducible apply Moves.next | with_reducible apply Ends.ite | with_reducible exact Ends.refused | with_reducible refine Moves.modLnd ?_ ?_ | with_reducible refine Moves.publish ?_ ?_ | with_reducible refine Moves.refreshSettling ?_ ?_ | with_reducible refine Moves.setf ?_ ?_ | with_reducible apply Moves.ite | with_reducible intro _ _ _ _ _ | with_reducible intro _ _ _ | with_reducible intro _ _ | extract_lets | split

theorem Moves.regressionResult {n : Nat} {g : ClosedGate} {s0 s : State} (hs : Moves K s0 s) (hk : Sub 0x587D91006 K := by first | assumption | exact Sub.mono (by assumption) rfl) : Moves K s0 (State.regressionResult s n g) := by
  unfold State.regressionResult
  repeat' first | with_reducible assumption | ((with_reducible refine Sub.mono hk ?_); rfl) | with_reducible refine Moves.gapRegression ?_ ?_ | with_reducible refine Moves.modLnd ?_ ?_ | with_reducible refine Moves.seti ?_ ?_ | with_reducible refine Moves.publish ?_ ?_ | with_reducible refine Moves.refreshSettling ?_ ?_ | with_reducible refine Moves.deliverResult ?_ ?_ | with_reducible apply Moves.ite | fail_if_no_progress (with_reducible refine Moves.plain ?_ ?_ ?_ ?_ ?_ ?_ ?_ ?_ ?_ ?_ ?_ ?_ ?_ ?_ ?_ ?_ ?_ <;> first | ((with_reducible refine Or.inr (Sub.bit hk ?_)); decide) | with_reducible exact Or.inl rfl | skip) | fail_if_no_progress (with_reducible refine Moves.plainNv ?_ rfl rfl rfl ?_ ?_ ?_ ?_ ?_ ?_ ?_ ?_ ?_ ?_ ?_ ?_ ?_ ?_ ?_ ?_ ?_ <;> first | ((with_reducible refine Or.inr (Sub.bit hk ?_)); decide) | with_reducible exact Or.inl rfl | skip) | with_reducible intro _ _ _ _ _ | with_reducible intro _ _ _ | with_reducible intro _ _ | extract_lets | split

theorem Ends.execRegressionDone {n : Fin 32} {s : State} (hk : Sub 0x587D91006 K := by first | assumption | exact Sub.mono (by assumption) rfl) : Ends K s (Sys2Proof.Machine.execRegressionDone n s) := by
  have h : Moves K s s := Moves.refl s
  unfold Sys2Proof.Machine.execRegressionDone
  repeat' first | with_reducible assumption | ((with_reducible refine Sub.mono hk ?_); rfl) | with_reducible exact Moves.next ‹_› | with_reducible apply Moves.next | with_reducible apply Ends.ite | with_reducible exact Ends.refused | with_reducible refine Moves.regressionResult ?_ ?_ | with_reducible refine Moves.modLnd ?_ ?_ | with_reducible apply Moves.ite | with_reducible intro _ _ _ _ _ | with_reducible intro _ _ _ | with_reducible intro _ _ | extract_lets | split

theorem Moves.sliceToLoops {ok : Bool} {s0 s : State} (hs : Moves K s0 s) (hk : Sub 0x4001004 K := by first | assumption | exact Sub.mono (by assumption) rfl) : Moves K s0 (State.sliceToLoops s ok) := by
  unfold State.sliceToLoops
  repeat' first | with_reducible assumption | ((with_reducible refine Sub.mono hk ?_); rfl) | with_reducible refine Moves.forL ?_ ?_ | with_reducible refine Moves.setf ?_ ?_ | with_reducible refine Moves.evIf ?_ ?_ | with_reducible refine Moves.modHo ?_ ?_ | with_reducible apply Moves.ite | fail_if_no_progress (with_reducible refine Moves.plain ?_ ?_ ?_ ?_ ?_ ?_ ?_ ?_ ?_ ?_ ?_ ?_ ?_ ?_ ?_ ?_ ?_ <;> first | ((with_reducible refine Or.inr (Sub.bit hk ?_)); decide) | with_reducible exact Or.inl rfl | skip) | fail_if_no_progress (with_reducible refine Moves.plainNv ?_ rfl rfl rfl ?_ ?_ ?_ ?_ ?_ ?_ ?_ ?_ ?_ ?_ ?_ ?_ ?_ ?_ ?_ ?_ ?_ <;> first | ((with_reducible refine Or.inr (Sub.bit hk ?_)); decide) | with_reducible exact Or.inl rfl | skip) | with_reducible intro _ _ _ _ _ | with_reducible intro _ _ _

theorem Moves.sliceEnd {s0 s : State} (hs : Moves K s0 s) (hk : Sub 0x6401084 K := by first | assumption | exact Sub.mono (by assumption) rfl) : Moves K s0 (State.sliceEnd s) := by
  unfold State.sliceEnd
  repeat' first | with_reducible assumption | ((with_reducible refine Sub.mono hk ?_); rfl) | with_reducible refine Moves.modLnd ?_ ?_ | with_reducible refine Moves.forN ?_ ?_ | with_reducible refine Moves.refreshYbar ?_ ?_ | with_reducible refine Moves.sliceToLoops ?_ ?_ | with_reducible apply Moves.ite | fail_if_no_progress (with_reducible refine Moves.plain ?_ ?_ ?_ ?_ ?_ ?_ ?_ ?_ ?_ ?_ ?_ ?_ ?_ ?_ ?_ ?_ ?_ <;> first | ((with_reducible refine Or.inr (Sub.bit hk ?_)); decide) | with_reducible exact Or.inl rfl | skip) | with_reducible intro _ _ _ _ _ | with_reducible intro _ _ _ | with_reducible intro _ _ | extract_lets | split | dsimp +zetaDelta only

theorem Ends.execLnd30SliceEnd {s : State} (hk : Sub 0x6401084 K := by first | assumption | exact Sub.mono (by assumption) rfl) : Ends K s (Sys2Proof.Machine.execLnd30SliceEnd s) := by
  have h : Moves K s s := Moves.refl s
  unfold Sys2Proof.Machine.execLnd30SliceEnd
  repeat' first | with_reducible assumption | ((with_reducible refine Sub.mono hk ?_); rfl) | with_reducible exact Moves.next ‹_› | with_reducible apply Moves.next | with_reducible apply Ends.ite | with_reducible exact Ends.refused | with_reducible refine Moves.sliceEnd ?_ ?_ | with_reducible apply Moves.ite | with_reducible intro _ _ _ _ _ | with_reducible intro _ _ _ | with_reducible intro _ _ | extract_lets | split

theorem Moves.nomChanged {s0 s : State} (hs : Moves K s0 s) (hk : Sub 0x4400004 K := by first | assumption | exact Sub.mono (by assumption) rfl) : Moves K s0 (State.nomChanged s) := by
  unfold State.nomChanged
  repeat' first | with_reducible assumption | ((with_reducible refine Sub.mono hk ?_); rfl) | with_reducible refine Moves.modLnd ?_ ?_ | with_reducible refine Moves.forN ?_ ?_ | with_reducible refine Moves.showRecs ?_ ?_ | with_reducible refine Moves.modHo ?_ ?_ | with_reducible apply Moves.ite | with_reducible intro _ _ _ _ _ | with_reducible intro _ _ _ | with_reducible intro _ _ | extract_lets | split

theorem Moves.fetchResult {p : Port} {n : Nat} {s0 s : State} (hs : Moves K s0 s) (hk : Sub 0x1004 K := by first | assumption | exact Sub.mono (by assumption) rfl) : Moves K s0 (State.fetchResult s p n) := by
  unfold State.fetchResult
  repeat' first | with_reducible assumption | with_reducible refine Moves.mboxOut ?_ ?_

theorem Ends.execFetchResult {p : Port} {n : Fin 32} {s : State} (hk : Sub 0xD004 K := by first | assumption | exact Sub.mono (by assumption) rfl) : Ends K s (Sys2Proof.Machine.execFetchResult p n s) := by
  have h : Moves K s s := Moves.refl s
  unfold Sys2Proof.Machine.execFetchResult
  repeat' first | with_reducible assumption | ((with_reducible refine Sub.mono hk ?_); rfl) | with_reducible exact Moves.next ‹_› | with_reducible apply Moves.next | with_reducible apply Ends.ite | with_reducible exact Ends.refused | with_reducible refine Moves.doorbell ?_ ?_ ?_ | with_reducible refine Moves.fetchResult ?_ ?_ | with_reducible apply Moves.ite | with_reducible intro _ _ _ _ _ | with_reducible intro _ _ _ | with_reducible intro _ _

theorem Second.calRecord {n : Nat} {s0 s : State} (hs : Moves K s0 s) (hk : Sub 0x2 K := by first | assumption | exact Sub.mono (by assumption) rfl) : Second K s0 (State.calRecord s n) := by
  unfold State.calRecord
  repeat' first | with_reducible assumption | with_reducible refine Second.freeWords ?_ ?_ | with_reducible refine (Second.freeWords ?_ ?_).out ‹_› | with_reducible refine (Second.freeWords ?_ ?_).snd | with_reducible apply Moves.ite | with_reducible apply Second.ite | with_reducible intro _ _ _ _ _ | with_reducible intro _ _ _ | with_reducible intro _ _ | extract_lets | split | with_reducible apply Second.mk

theorem Moves.fetchCal {p : Port} {n : Nat} {s0 s : State} (hs : Moves K s0 s) (hk : Sub 0x1006 K := by first | assumption | exact Sub.mono (by assumption) rfl) : Moves K s0 (State.fetchCal s p n) := by
  unfold State.fetchCal
  repeat' first | with_reducible assumption | ((with_reducible refine Sub.mono hk ?_); rfl) | with_reducible refine Second.calRecord ?_ ?_ | with_reducible refine (Second.calRecord ?_ ?_).out ‹_› | with_reducible refine (Second.calRecord ?_ ?_).snd | with_reducible refine Moves.mboxOut ?_ ?_

theorem Ends.execFetchCal {p : Port} {n : Fin 32} {s : State} (hk : Sub 0xD006 K := by first | assumption | exact Sub.mono (by assumption) rfl) : Ends K s (Sys2Proof.Machine.execFetchCal p n s) := by
  have h : Moves K s s := Moves.refl s
  unfold Sys2Proof.Machine.execFetchCal
  repeat' first | with_reducible assumption | ((with_reducible refine Sub.mono hk ?_); rfl) | with_reducible exact Moves.next ‹_› | with_reducible apply Moves.next | with_reducible apply Ends.ite | with_reducible exact Ends.refused | with_reducible refine Moves.doorbell ?_ ?_ ?_ | with_reducible refine Moves.fetchCal ?_ ?_ | with_reducible apply Moves.ite | with_reducible intro _ _ _ _ _ | with_reducible intro _ _ _ | with_reducible intro _ _

end Sys2Proof.Machine
end

