-- ==== Sys2Proof/Laws/KeepSelectCmds.lean ====
section
/-! SUPPORT. What the operations of Machine/SelectCmds.lean keep: the queue, the canonical form of the tables, and the parts of the state outside those named. -/

set_option Elab.async false

set_option linter.unreachableTactic false
set_option linter.unusedTactic false

namespace Sys2Proof.Machine

variable {K : Nat}

theorem Ends.execWtrExpiry {n : Fin 16} {k : Fin 30} {s : State} (hk : Sub 0x587991004 K := by first | assumption | exact Sub.mono (by assumption) rfl) : Ends K s (Sys2Proof.Machine.execWtrExpiry n k s) := by
  have h : Moves K s s := Moves.refl s
  unfold Sys2Proof.Machine.execWtrExpiry
  repeat' first | with_reducible assumption | ((with_reducible refine Sub.mono hk ?_); rfl) | with_reducible exact Moves.next ‹_› | with_reducible apply Moves.next | with_reducible apply Ends.ite | with_reducible exact Ends.refused | with_reducible refine Moves.entryCheck ?_ ?_ | with_reducible refine Moves.modEnt ?_ ?_ | with_reducible apply Moves.ite | with_reducible intro _ _ _ _ _ | with_reducible intro _ _ _ | with_reducible intro _ _ | extract_lets | split

theorem Ends.execHoldoffExpiry {n : Fin 16} {s : State} (hk : Sub 0x587991004 K := by first | assumption | exact Sub.mono (by assumption) rfl) : Ends K s (Sys2Proof.Machine.execHoldoffExpiry n s) := by
  have h : Moves K s s := Moves.refl s
  unfold Sys2Proof.Machine.execHoldoffExpiry
  repeat' first | with_reducible assumption | with_reducible exact Moves.next ‹_› | with_reducible apply Moves.next | with_reducible apply Ends.ite | with_reducible exact Ends.refused | with_reducible refine Moves.holdoffEnd ?_ ?_

theorem Moves.readmit {n k : Nat} {s0 s : State} (hs : Moves K s0 s) (hk : Sub 0x587991004 K := by first | assumption | exact Sub.mono (by assumption) rfl) : Moves K s0 (State.readmit s n k) := by
  unfold State.readmit
  repeat' first | with_reducible assumption | ((with_reducible refine Sub.mono hk ?_); rfl) | with_reducible refine Moves.modEnt ?_ ?_ | with_reducible refine Moves.setCstate ?_ ?_ | with_reducible refine Moves.logDev ?_ ?_ | with_reducible refine Moves.evaluate ?_ ?_ | with_reducible apply Moves.ite

theorem Ends.execReadmit {p : Port} {n : Fin 16} {k : Fin 30} {s : State} (hk : Sub 0x58799D004 K := by first | assumption | exact Sub.mono (by assumption) rfl) : Ends K s (Sys2Proof.Machine.execReadmit p n k s) := by
  have h : Moves K s s := Moves.refl s
  unfold Sys2Proof.Machine.execReadmit
  repeat' first | with_reducible assumption | ((with_reducible refine Sub.mono hk ?_); rfl) | with_reducible exact Moves.next ‹_› | with_reducible apply Moves.next | with_reducible apply Ends.ite | with_reducible exact Ends.refused | with_reducible refine Moves.doorbell ?_ ?_ ?_ | with_reducible refine Moves.setf ?_ ?_ | with_reducible refine Moves.readmit ?_ ?_ | with_reducible apply Moves.ite | with_reducible intro _ _ _ _ _ | with_reducible intro _ _ _ | with_reducible intro _ _

theorem Moves.forceOn {n k : Nat} {s0 s : State} (hs : Moves K s0 s) (hk : Sub 0x587991004 K := by first | assumption | exact Sub.mono (by assumption) rfl) : Moves K s0 (State.forceOn s n k) := by
  unfold State.forceOn
  repeat' first | with_reducible assumption | ((with_reducible refine Sub.mono hk ?_); rfl) | with_reducible refine Moves.forcedCheck ?_ ?_ | with_reducible refine Moves.follow ?_ ?_ | with_reducible refine Moves.setf ?_ ?_ | with_reducible refine Moves.evIf ?_ ?_ | with_reducible refine Moves.modSel ?_ ?_ | with_reducible refine Moves.selFollow ?_ ?_ | with_reducible refine Moves.logSwitch ?_ ?_ | with_reducible refine Moves.route ?_ ?_ | with_reducible refine Moves.ev ?_ ?_ | with_reducible apply Moves.ite | with_reducible intro _ _ _ _ _ | with_reducible intro _ _ _ | with_reducible intro _ _ | extract_lets | split

theorem Moves.forceOff {n : Nat} {s0 s : State} (hs : Moves K s0 s) (hk : Sub 0x587991004 K := by first | assumption | exact Sub.mono (by assumption) rfl) : Moves K s0 (State.forceOff s n) := by
  unfold State.forceOff
  repeat' first | with_reducible assumption | ((with_reducible refine Sub.mono hk ?_); rfl) | with_reducible refine Moves.follow ?_ ?_ | with_reducible refine Moves.selHoldover ?_ ?_ | with_reducible refine Moves.setf ?_ ?_ | with_reducible refine Moves.logSwitch ?_ ?_ | with_reducible refine Moves.selFollow ?_ ?_ | with_reducible apply Moves.ite | with_reducible intro _ _ _ _ _ | with_reducible intro _ _ _ | with_reducible intro _ _ | extract_lets | split

theorem Moves.forceWritten {n old : Nat} {s0 s : State} (hs : Moves K s0 s) (hk : Sub 0x587991004 K := by first | assumption | exact Sub.mono (by assumption) rfl) : Moves K s0 (State.forceWritten s n old) := by
  unfold State.forceWritten
  repeat' first | with_reducible assumption | with_reducible refine Moves.forceOn ?_ ?_ | with_reducible refine Moves.forceOff ?_ ?_ | with_reducible apply Moves.ite

theorem Moves.candWritten {n k old : Nat} {s0 s : State} (hs : Moves K s0 s) (hk : Sub 0x587991004 K := by first | assumption | exact Sub.mono (by assumption) rfl) : Moves K s0 (State.candWritten s n k old) := by
  unfold State.candWritten
  repeat' first | with_reducible assumption | ((with_reducible refine Sub.mono hk ?_); rfl) | with_reducible refine Moves.refreshRank ?_ ?_ | with_reducible refine Moves.evaluate ?_ ?_ | with_reducible refine Moves.selFollow ?_ ?_ | with_reducible apply Moves.ite

theorem Moves.selCtrlWritten {n old : Nat} {s0 s : State} (hs : Moves K s0 s) (hk : Sub 0x587991004 K := by first | assumption | exact Sub.mono (by assumption) rfl) : Moves K s0 (State.selCtrlWritten s n old) := by
  unfold State.selCtrlWritten
  repeat' first | with_reducible assumption | ((with_reducible refine Sub.mono hk ?_); rfl) | with_reducible refine Moves.forN ?_ ?_ | with_reducible refine Moves.setFault ?_ ?_ | with_reducible refine Moves.entryMove ?_ ?_ | with_reducible refine Moves.forcedCheck ?_ ?_ | with_reducible refine Moves.enterHoldoff ?_ ?_ | with_reducible refine Moves.evaluate ?_ ?_ | with_reducible apply Moves.ite | with_reducible intro _ _ _ _ _ | with_reducible intro _ _ _ | with_reducible intro _ _ | extract_lets | split

theorem Moves.kindChanged {m : Nat} {s0 s : State} (hs : Moves K s0 s) (hk : Sub 0x587991004 K := by first | assumption | exact Sub.mono (by assumption) rfl) : Moves K s0 (State.kindChanged s m) := by
  unfold State.kindChanged
  repeat' first | with_reducible assumption | ((with_reducible refine Sub.mono hk ?_); rfl) | with_reducible refine Moves.forL ?_ ?_ | with_reducible refine Moves.loadLimits ?_ ?_ | with_reducible refine Moves.freshEntry ?_ ?_ | with_reducible refine Moves.fault ?_ ?_ | with_reducible apply Moves.ite | with_reducible intro _ _ _ _ _ | with_reducible intro _ _ _

theorem Ends.execEsmcTimeout {n : Fin 8} {s : State} (hk : Sub 0x587991004 K := by first | assumption | exact Sub.mono (by assumption) rfl) : Ends K s (Sys2Proof.Machine.execEsmcTimeout n s) := by
  have h : Moves K s s := Moves.refl s
  unfold Sys2Proof.Machine.execEsmcTimeout
  repeat' first | with_reducible assumption | ((with_reducible refine Sub.mono hk ?_); rfl) | with_reducible exact Moves.next ‹_› | with_reducible apply Moves.next | with_reducible apply Ends.ite | with_reducible exact Ends.refused | with_reducible refine Moves.giveRanks ?_ ?_ | with_reducible apply Moves.ite | with_reducible intro _ _ _ _ _ | with_reducible intro _ _ _ | with_reducible intro _ _ | extract_lets | split

end Sys2Proof.Machine
end

