-- ==== Sys2Proof/Laws/KeepSynth.lean ====
section
/-! SUPPORT. What the operations of Machine/Synth.lean keep: the queue, the canonical form of the tables, and the parts of the state outside those named. -/

set_option Elab.async false

set_option linter.unreachableTactic false
set_option linter.unusedTactic false

namespace Sys2Proof.Machine

variable {K : Nat}

theorem Ends.execBandCalDone {n : Fin 8} {band : Nat} {s : State} (hk : Sub 0x8000004 K := by first | assumption | exact Sub.mono (by assumption) rfl) : Ends K s (Sys2Proof.Machine.execBandCalDone n band s) := by
  have h : Moves K s s := Moves.refl s
  unfold Sys2Proof.Machine.execBandCalDone
  repeat' first | with_reducible assumption | ((with_reducible refine Sub.mono hk ?_); rfl) | with_reducible exact Moves.next ‹_› | with_reducible apply Moves.next | with_reducible apply Ends.ite | with_reducible exact Ends.refused | with_reducible refine Moves.modApl ?_ ?_ | with_reducible refine Moves.setf ?_ ?_

theorem Ends.execAnalogAcqDone {n : Fin 8} {s : State} (hk : Sub 0x8000004 K := by first | assumption | exact Sub.mono (by assumption) rfl) : Ends K s (Sys2Proof.Machine.execAnalogAcqDone n s) := by
  have h : Moves K s s := Moves.refl s
  unfold Sys2Proof.Machine.execAnalogAcqDone
  repeat' first | with_reducible assumption | ((with_reducible refine Sub.mono hk ?_); rfl) | with_reducible exact Moves.next ‹_› | with_reducible apply Moves.next | with_reducible apply Ends.ite | with_reducible exact Ends.refused | with_reducible refine Moves.modApl ?_ ?_ | with_reducible refine Moves.setf ?_ ?_

theorem Moves.lockGained {n : Nat} {s0 s : State} (hs : Moves K s0 s) (hk : Sub 0x10001004 K := by first | assumption | exact Sub.mono (by assumption) rfl) : Moves K s0 (State.lockGained s n) := by
  unfold State.lockGained
  repeat' first | with_reducible assumption | ((with_reducible refine Sub.mono hk ?_); rfl) | with_reducible refine Moves.ev ?_ ?_ | with_reducible refine Moves.setf ?_ ?_ | with_reducible refine Moves.forL ?_ ?_ | with_reducible refine Moves.refreshSynth ?_ ?_ | with_reducible refine Moves.runPulse ?_ ?_ | with_reducible apply Moves.ite | with_reducible intro _ _ _ _ _ | with_reducible intro _ _ _ | with_reducible intro _ _ | extract_lets | split

theorem Moves.lockLost {n : Nat} {s0 s : State} (hs : Moves K s0 s) (hk : Sub 0xFFFFFFD9E K := by first | assumption | exact Sub.mono (by assumption) rfl) : Moves K s0 (State.lockLost s n) := by
  unfold State.lockLost
  repeat' first | with_reducible assumption | ((with_reducible refine Sub.mono hk ?_); rfl) | with_reducible refine Moves.setf ?_ ?_ | with_reducible refine Moves.ev ?_ ?_ | with_reducible refine Moves.inc ?_ ?_ | with_reducible refine Moves.abortRamp ?_ ?_ | with_reducible refine Moves.refreshSynth ?_ ?_ | with_reducible refine Moves.route ?_ ?_ | with_reducible refine Moves.report ?_ ?_

theorem Moves.windowIn {n : Nat} {s0 s : State} (hs : Moves K s0 s) (hk : Sub 0x18001004 K := by first | assumption | exact Sub.mono (by assumption) rfl) : Moves K s0 (State.windowIn s n) := by
  unfold State.windowIn
  repeat' first | with_reducible assumption | ((with_reducible refine Sub.mono hk ?_); rfl) | with_reducible refine Moves.modApl ?_ ?_ | with_reducible refine Moves.lockGained ?_ ?_ | with_reducible apply Moves.ite

theorem Moves.windowOut {n : Nat} {s0 s : State} (hs : Moves K s0 s) (hk : Sub 0xFFFFFFD9E K := by first | assumption | exact Sub.mono (by assumption) rfl) : Moves K s0 (State.windowOut s n) := by
  unfold State.windowOut
  repeat' first | with_reducible assumption | ((with_reducible refine Sub.mono hk ?_); rfl) | with_reducible refine Moves.modApl ?_ ?_ | with_reducible refine Moves.lockLost ?_ ?_ | with_reducible refine Moves.ev ?_ ?_ | with_reducible refine Moves.startSynth ?_ ?_ | with_reducible apply Moves.ite | with_reducible intro _ _ _ _ _ | with_reducible intro _ _ _ | with_reducible intro _ _ | extract_lets | split

theorem Ends.execLockWindowEnd {n : Fin 8} {dev : Int} {s : State} (hk : Sub 0xFFFFFFD9E K := by first | assumption | exact Sub.mono (by assumption) rfl) : Ends K s (Sys2Proof.Machine.execLockWindowEnd n dev s) := by
  have h : Moves K s s := Moves.refl s
  unfold Sys2Proof.Machine.execLockWindowEnd
  repeat' first | with_reducible assumption | ((with_reducible refine Sub.mono hk ?_); rfl) | with_reducible exact Moves.next ‹_› | with_reducible apply Moves.next | with_reducible apply Ends.ite | with_reducible exact Ends.refused | with_reducible refine Moves.setSat ?_ ?_ | with_reducible refine Moves.windowIn ?_ ?_ | with_reducible refine Moves.windowOut ?_ ?_ | with_reducible apply Moves.ite

theorem First.rampGo {n : Nat} {s0 s : State} (hs : Moves K s0 s) (hk : Sub 0x8001006 K := by first | assumption | exact Sub.mono (by assumption) rfl) : First K s0 (State.rampGo s n) := by
  unfold State.rampGo
  repeat' first | with_reducible assumption | ((with_reducible refine Sub.mono hk ?_); rfl) | with_reducible refine Moves.freeBand ?_ ?_ | with_reducible refine Moves.modApl ?_ ?_ | with_reducible refine Moves.setf ?_ ?_ | with_reducible refine Moves.startRamp ?_ ?_ | with_reducible apply Moves.ite | with_reducible apply First.ite | with_reducible intro _ _ _ _ _ | with_reducible intro _ _ _ | with_reducible intro _ _ | extract_lets | split | with_reducible apply First.mk | dsimp +zetaDelta only

theorem First.rampTo {p : Port} {n : Nat} {arm : Bool} {s0 s : State} (hs : Moves K s0 s) (hk : Sub 0x8001006 K := by first | assumption | exact Sub.mono (by assumption) rfl) : First K s0 (State.rampTo s p n arm) := by
  unfold State.rampTo
  repeat' first | with_reducible assumption | ((with_reducible refine Sub.mono hk ?_); rfl) | with_reducible refine Moves.mboxEmpty ?_ ?_ | with_reducible refine Moves.modApl ?_ ?_ | with_reducible refine Moves.startRamp ?_ ?_ | with_reducible apply Moves.ite | with_reducible apply First.ite | fail_if_no_progress (with_reducible refine Moves.plain ?_ ?_ ?_ ?_ ?_ ?_ ?_ ?_ ?_ ?_ ?_ ?_ ?_ ?_ ?_ ?_ ?_ <;> first | ((with_reducible refine Or.inr (Sub.bit hk ?_)); decide) | with_reducible exact Or.inl rfl | skip) | fail_if_no_progress (with_reducible refine Moves.plainNv ?_ rfl rfl rfl ?_ ?_ ?_ ?_ ?_ ?_ ?_ ?_ ?_ ?_ ?_ ?_ ?_ ?_ ?_ ?_ ?_ <;> first | ((with_reducible refine Or.inr (Sub.bit hk ?_)); decide) | with_reducible exact Or.inl rfl | skip) | with_reducible intro _ _ _ _ _ | with_reducible intro _ _ _ | with_reducible intro _ _ | extract_lets | split | with_reducible apply First.mk

theorem First.rampLoad {p : Port} {n k : Nat} {s0 s : State} (hs : Moves K s0 s) (hk : Sub 0x8000004 K := by first | assumption | exact Sub.mono (by assumption) rfl) : First K s0 (State.rampLoad s p n k) := by
  unfold State.rampLoad
  repeat' first | with_reducible assumption | ((with_reducible refine Sub.mono hk ?_); rfl) | with_reducible refine Moves.mboxEmpty ?_ ?_ | with_reducible refine Moves.modApl ?_ ?_ | with_reducible apply Moves.ite | with_reducible apply First.ite | fail_if_no_progress (with_reducible refine Moves.plain ?_ ?_ ?_ ?_ ?_ ?_ ?_ ?_ ?_ ?_ ?_ ?_ ?_ ?_ ?_ ?_ ?_ <;> first | ((with_reducible refine Or.inr (Sub.bit hk ?_)); decide) | with_reducible exact Or.inl rfl | skip) | fail_if_no_progress (with_reducible refine Moves.plainNv ?_ rfl rfl rfl ?_ ?_ ?_ ?_ ?_ ?_ ?_ ?_ ?_ ?_ ?_ ?_ ?_ ?_ ?_ ?_ ?_ <;> first | ((with_reducible refine Or.inr (Sub.bit hk ?_)); decide) | with_reducible exact Or.inl rfl | skip) | with_reducible intro _ _ _ _ _ | with_reducible intro _ _ _ | with_reducible intro _ _ | extract_lets | split | with_reducible apply First.mk

theorem Moves.aplCommand {p : Port} {n w : Nat} {s0 s : State} (hs : Moves K s0 s) (hk : Sub 0x8001006 K := by first | assumption | exact Sub.mono (by assumption) rfl) : Moves K s0 (State.aplCommand s p n w) := by
  unfold State.aplCommand
  repeat' first | with_reducible assumption | ((with_reducible refine Sub.mono hk ?_); rfl) | with_reducible refine Moves.setw ?_ ?_ | with_reducible refine First.rampTo ?_ ?_ | with_reducible refine (First.rampTo ?_ ?_).out ‹_› | with_reducible refine (First.rampTo ?_ ?_).fst | with_reducible refine First.rampLoad ?_ ?_ | with_reducible refine (First.rampLoad ?_ ?_).out ‹_› | with_reducible refine (First.rampLoad ?_ ?_).fst | with_reducible refine First.rampGo ?_ ?_ | with_reducible refine (First.rampGo ?_ ?_).out ‹_› | with_reducible refine (First.rampGo ?_ ?_).fst | with_reducible refine Moves.abortRamp ?_ ?_ | with_reducible refine Moves.mboxOut ?_ ?_ | with_reducible refine Moves.complete ?_ ?_ | with_reducible refine Moves.ev ?_ ?_ | with_reducible apply Moves.ite | with_reducible intro _ _ _ _ _ | with_reducible intro _ _ _ | with_reducible intro _ _ | extract_lets | split

theorem Ends.execRampTo {p : Port} {n : Fin 8} {arm : Bool} {s : State} (hk : Sub 0x800D006 K := by first | assumption | exact Sub.mono (by assumption) rfl) : Ends K s (Sys2Proof.Machine.execRampTo p n arm s) := by
  have h : Moves K s s := Moves.refl s
  unfold Sys2Proof.Machine.execRampTo
  repeat' first | with_reducible assumption | ((with_reducible refine Sub.mono hk ?_); rfl) | with_reducible exact Moves.next ‹_› | with_reducible apply Moves.next | with_reducible apply Ends.ite | with_reducible exact Ends.refused | with_reducible refine Moves.doorbell ?_ ?_ ?_ | with_reducible refine Moves.aplCommand ?_ ?_ | with_reducible apply Moves.ite | with_reducible intro _ _ _ _ _ | with_reducible intro _ _ _ | with_reducible intro _ _

theorem Ends.execRampLoad {p : Port} {n : Fin 8} {seg : BitVec 4} {s : State} (hk : Sub 0x800D006 K := by first | assumption | exact Sub.mono (by assumption) rfl) : Ends K s (Sys2Proof.Machine.execRampLoad p n seg s) := by
  have h : Moves K s s := Moves.refl s
  unfold Sys2Proof.Machine.execRampLoad
  repeat' first | with_reducible assumption | ((with_reducible refine Sub.mono hk ?_); rfl) | with_reducible exact Moves.next ‹_› | with_reducible apply Moves.next | with_reducible apply Ends.ite | with_reducible exact Ends.refused | with_reducible refine Moves.doorbell ?_ ?_ ?_ | with_reducible refine Moves.aplCommand ?_ ?_ | with_reducible apply Moves.ite | with_reducible intro _ _ _ _ _ | with_reducible intro _ _ _ | with_reducible intro _ _

theorem Ends.execRampGo {p : Port} {n : Fin 8} {s : State} (hk : Sub 0x800D006 K := by first | assumption | exact Sub.mono (by assumption) rfl) : Ends K s (Sys2Proof.Machine.execRampGo p n s) := by
  have h : Moves K s s := Moves.refl s
  unfold Sys2Proof.Machine.execRampGo
  repeat' first | with_reducible assumption | ((with_reducible refine Sub.mono hk ?_); rfl) | with_reducible exact Moves.next ‹_› | with_reducible apply Moves.next | with_reducible apply Ends.ite | with_reducible exact Ends.refused | with_reducible refine Moves.doorbell ?_ ?_ ?_ | with_reducible refine Moves.aplCommand ?_ ?_ | with_reducible apply Moves.ite | with_reducible intro _ _ _ _ _ | with_reducible intro _ _ _ | with_reducible intro _ _

theorem Ends.execRampStop {p : Port} {n : Fin 8} {s : State} (hk : Sub 0x800D006 K := by first | assumption | exact Sub.mono (by assumption) rfl) : Ends K s (Sys2Proof.Machine.execRampStop p n s) := by
  have h : Moves K s s := Moves.refl s
  unfold Sys2Proof.Machine.execRampStop
  repeat' first | with_reducible assumption | ((with_reducible refine Sub.mono hk ?_); rfl) | with_reducible exact Moves.next ‹_› | with_reducible apply Moves.next | with_reducible apply Ends.ite | with_reducible exact Ends.refused | with_reducible refine Moves.doorbell ?_ ?_ ?_ | with_reducible refine Moves.aplCommand ?_ ?_ | with_reducible apply Moves.ite | with_reducible intro _ _ _ _ _ | with_reducible intro _ _ _ | with_reducible intro _ _

theorem Ends.execFetchNom {p : Port} {n : Fin 8} {s : State} (hk : Sub 0x800D006 K := by first | assumption | exact Sub.mono (by assumption) rfl) : Ends K s (Sys2Proof.Machine.execFetchNom p n s) := by
  have h : Moves K s s := Moves.refl s
  unfold Sys2Proof.Machine.execFetchNom
  repeat' first | with_reducible assumption | ((with_reducible refine Sub.mono hk ?_); rfl) | with_reducible exact Moves.next ‹_› | with_reducible apply Moves.next | with_reducible apply Ends.ite | with_reducible exact Ends.refused | with_reducible refine Moves.doorbell ?_ ?_ ?_ | with_reducible refine Moves.aplCommand ?_ ?_ | with_reducible apply Moves.ite | with_reducible intro _ _ _ _ _ | with_reducible intro _ _ _ | with_reducible intro _ _

theorem Ends.execStartRampTask {n : Fin 8} {s : State} (hk : Sub 0x88001006 K := by first | assumption | exact Sub.mono (by assumption) rfl) : Ends K s (Sys2Proof.Machine.execStartRampTask n s) := by
  have h : Moves K s s := Moves.refl s
  unfold Sys2Proof.Machine.execStartRampTask
  repeat' first | with_reducible assumption | ((with_reducible refine Sub.mono hk ?_); rfl) | with_reducible exact Moves.next ‹_› | with_reducible apply Moves.next | with_reducible apply Ends.ite | with_reducible exact Ends.refused | with_reducible refine Moves.takeRun ?_ ‹_› ?_ | with_reducible refine First.rampGo ?_ ?_ | with_reducible refine (First.rampGo ?_ ?_).out ‹_› | with_reducible refine (First.rampGo ?_ ?_).fst | with_reducible apply Moves.stateOf | with_reducible apply Moves.ite | with_reducible intro _ _ _ _ _ | with_reducible intro _ _ _ | with_reducible intro _ _ | extract_lets | split

theorem Moves.nextSegment {n i t : Nat} {s0 s : State} (hs : Moves K s0 s) (hk : Sub 0x8000006 K := by first | assumption | exact Sub.mono (by assumption) rfl) : Moves K s0 (State.nextSegment s n i t) := by
  unfold State.nextSegment
  repeat' first | with_reducible assumption | ((with_reducible refine Sub.mono hk ?_); rfl) | with_reducible refine Moves.setf ?_ ?_ | with_reducible refine Moves.freeBand ?_ ?_ | with_reducible refine Moves.modApl ?_ ?_ | with_reducible apply Moves.ite | with_reducible intro _ _ _ _ _ | with_reducible intro _ _ _ | with_reducible intro _ _ | extract_lets | split

theorem Moves.rampRest {n : Nat} {held : Option Nat} {s0 s : State} (hs : Moves K s0 s) (hk : Sub 0x8000006 K := by first | assumption | exact Sub.mono (by assumption) rfl) : Moves K s0 (State.rampRest s n held) := by
  unfold State.rampRest
  repeat' first | with_reducible assumption | ((with_reducible refine Sub.mono hk ?_); rfl) | with_reducible refine Moves.modApl ?_ ?_ | with_reducible refine Moves.freeBand ?_ ?_ | with_reducible refine Moves.setf ?_ ?_

theorem Ends.execRampSegmentEnd {n : Fin 8} {s : State} (hk : Sub 0x88001006 K := by first | assumption | exact Sub.mono (by assumption) rfl) : Ends K s (Sys2Proof.Machine.execRampSegmentEnd n s) := by
  have h : Moves K s s := Moves.refl s
  unfold Sys2Proof.Machine.execRampSegmentEnd
  repeat' first | with_reducible assumption | ((with_reducible refine Sub.mono hk ?_); rfl) | with_reducible exact Moves.next ‹_› | with_reducible apply Moves.next | with_reducible apply Ends.ite | with_reducible exact Ends.refused | with_reducible refine Moves.setNom ?_ ?_ | with_reducible refine Moves.rampRest ?_ ?_ | with_reducible refine Moves.ev ?_ ?_ | with_reducible refine Moves.route ?_ ?_ | with_reducible refine Moves.setf ?_ ?_ | with_reducible refine Moves.nextSegment ?_ ?_ | with_reducible apply Moves.ite | with_reducible intro _ _ _ _ _ | with_reducible intro _ _ _ | with_reducible intro _ _ | extract_lets | split

end Sys2Proof.Machine
end

