-- ==== Sys2Proof/Laws/KeepOutputs.lean ====
section
/-! SUPPORT. What the operations of Machine/Outputs.lean keep: the queue, the canonical form of the tables, and the parts of the state outside those named. -/

set_option Elab.async false

set_option linter.unreachableTactic false
set_option linter.unusedTactic false

namespace Sys2Proof.Machine

variable {K : Nat}

theorem Moves.divLoad {p : Port} {m : Nat} {s0 s : State} (hs : Moves K s0 s) (hk : Sub 0x10000004 K := by first | assumption | exact Sub.mono (by assumption) rfl) : Moves K s0 (State.divLoad s p m) := by
  unfold State.divLoad
  repeat' first | with_reducible assumption | ((with_reducible refine Sub.mono hk ?_); rfl) | with_reducible refine Moves.mboxEmpty ?_ ?_ | with_reducible refine Moves.modOut ?_ ?_ | with_reducible refine Moves.setf ?_ ?_ | with_reducible refine Moves.complete ?_ ?_ | with_reducible apply Moves.ite | fail_if_no_progress (with_reducible refine Moves.plain ?_ ?_ ?_ ?_ ?_ ?_ ?_ ?_ ?_ ?_ ?_ ?_ ?_ ?_ ?_ ?_ ?_ <;> first | ((with_reducible refine Or.inr (Sub.bit hk ?_)); decide) | with_reducible exact Or.inl rfl | skip) | fail_if_no_progress (with_reducible refine Moves.plainNv ?_ rfl rfl rfl ?_ ?_ ?_ ?_ ?_ ?_ ?_ ?_ ?_ ?_ ?_ ?_ ?_ ?_ ?_ ?_ ?_ <;> first | ((with_reducible refine Or.inr (Sub.bit hk ?_)); decide) | with_reducible exact Or.inl rfl | skip) | with_reducible intro _ _ _ _ _ | with_reducible intro _ _ _ | with_reducible intro _ _ | extract_lets | split

theorem Moves.fetchDiv {p : Port} {m : Nat} {s0 s : State} (hs : Moves K s0 s) (hk : Sub 0x1004 K := by first | assumption | exact Sub.mono (by assumption) rfl) : Moves K s0 (State.fetchDiv s p m) := by
  unfold State.fetchDiv
  repeat' first | with_reducible assumption | with_reducible refine Moves.mboxOut ?_ ?_

theorem Ends.execDivLoad {p : Port} {m : Fin 28} {s : State} (hk : Sub 0x1000D004 K := by first | assumption | exact Sub.mono (by assumption) rfl) : Ends K s (Sys2Proof.Machine.execDivLoad p m s) := by
  have h : Moves K s s := Moves.refl s
  unfold Sys2Proof.Machine.execDivLoad
  repeat' first | with_reducible assumption | ((with_reducible refine Sub.mono hk ?_); rfl) | with_reducible exact Moves.next ‹_› | with_reducible apply Moves.next | with_reducible apply Ends.ite | with_reducible exact Ends.refused | with_reducible refine Moves.doorbell ?_ ?_ ?_ | with_reducible refine Moves.divLoad ?_ ?_ | with_reducible apply Moves.ite | with_reducible intro _ _ _ _ _ | with_reducible intro _ _ _ | with_reducible intro _ _

theorem Ends.execFetchDiv {p : Port} {m : Fin 28} {s : State} (hk : Sub 0xD004 K := by first | assumption | exact Sub.mono (by assumption) rfl) : Ends K s (Sys2Proof.Machine.execFetchDiv p m s) := by
  have h : Moves K s s := Moves.refl s
  unfold Sys2Proof.Machine.execFetchDiv
  repeat' first | with_reducible assumption | ((with_reducible refine Sub.mono hk ?_); rfl) | with_reducible exact Moves.next ‹_› | with_reducible apply Moves.next | with_reducible apply Ends.ite | with_reducible exact Ends.refused | with_reducible refine Moves.doorbell ?_ ?_ ?_ | with_reducible refine Moves.fetchDiv ?_ ?_ | with_reducible apply Moves.ite | with_reducible intro _ _ _ _ _ | with_reducible intro _ _ _ | with_reducible intro _ _

theorem Ends.execDivApply {m : Fin 28} {s : State} (hk : Sub 0x10001004 K := by first | assumption | exact Sub.mono (by assumption) rfl) : Ends K s (Sys2Proof.Machine.execDivApply m s) := by
  have h : Moves K s s := Moves.refl s
  unfold Sys2Proof.Machine.execDivApply
  repeat' first | with_reducible assumption | ((with_reducible refine Sub.mono hk ?_); rfl) | with_reducible exact Moves.next ‹_› | with_reducible apply Moves.next | with_reducible apply Ends.ite | with_reducible exact Ends.refused | with_reducible refine Moves.modOut ?_ ?_ | with_reducible refine Moves.refreshOut ?_ ?_ | with_reducible refine Moves.takeDivider ?_ ?_ | with_reducible apply Moves.ite | with_reducible intro _ _ _ _ _ | with_reducible intro _ _ _ | with_reducible intro _ _ | extract_lets | split

theorem Ends.execOutAlign {p : Port} {m : Fin 28} {s : State} (hk : Sub 0x1001D004 K := by first | assumption | exact Sub.mono (by assumption) rfl) : Ends K s (Sys2Proof.Machine.execOutAlign p m s) := by
  have h : Moves K s s := Moves.refl s
  unfold Sys2Proof.Machine.execOutAlign
  repeat' first | with_reducible assumption | ((with_reducible refine Sub.mono hk ?_); rfl) | with_reducible exact Moves.next ‹_› | with_reducible apply Moves.next | with_reducible apply Ends.ite | with_reducible exact Ends.refused | with_reducible refine Moves.doorbell ?_ ?_ ?_ | with_reducible refine Moves.realignOut ?_ ?_ | with_reducible apply Moves.ite | with_reducible intro _ _ _ _ _ | with_reducible intro _ _ _ | with_reducible intro _ _

theorem Ends.execRealignOutputTask {m : Fin 28} {s : State} (hk : Sub 0x90011004 K := by first | assumption | exact Sub.mono (by assumption) rfl) : Ends K s (Sys2Proof.Machine.execRealignOutputTask m s) := by
  have h : Moves K s s := Moves.refl s
  unfold Sys2Proof.Machine.execRealignOutputTask
  repeat' first | with_reducible assumption | ((with_reducible refine Sub.mono hk ?_); rfl) | with_reducible exact Moves.next ‹_› | with_reducible apply Moves.next | with_reducible apply Ends.ite | with_reducible exact Ends.refused | with_reducible refine Moves.takeRun ?_ ‹_› ?_ | with_reducible refine Moves.realignOut ?_ ?_ | with_reducible apply Moves.ite | with_reducible intro _ _ _ _ _ | with_reducible intro _ _ _ | with_reducible intro _ _ | extract_lets | split

theorem Moves.syncOut {m : Nat} {s0 s : State} (hs : Moves K s0 s) (hk : Sub 0x10001004 K := by first | assumption | exact Sub.mono (by assumption) rfl) : Moves K s0 (State.syncOut s m) := by
  unfold State.syncOut
  repeat' first | with_reducible assumption | ((with_reducible refine Sub.mono hk ?_); rfl) | with_reducible refine Moves.runPulse ?_ ?_ | with_reducible refine Moves.takeDivider ?_ ?_ | with_reducible refine Moves.modOut ?_ ?_ | with_reducible refine Moves.refreshOut ?_ ?_ | with_reducible refine Moves.setf ?_ ?_ | with_reducible apply Moves.ite | with_reducible intro _ _ _ _ _ | with_reducible intro _ _ _ | with_reducible intro _ _ | extract_lets | split

theorem Ends.execSyncPoint {n : Fin 8} {s : State} (hk : Sub 0x10001004 K := by first | assumption | exact Sub.mono (by assumption) rfl) : Ends K s (Sys2Proof.Machine.execSyncPoint n s) := by
  have h : Moves K s s := Moves.refl s
  unfold Sys2Proof.Machine.execSyncPoint
  repeat' first | with_reducible assumption | ((with_reducible refine Sub.mono hk ?_); rfl) | with_reducible exact Moves.next ‹_› | with_reducible apply Moves.next | with_reducible apply Ends.ite | with_reducible exact Ends.refused | with_reducible refine Moves.forL ?_ ?_ | with_reducible refine Moves.syncOut ?_ ?_ | with_reducible apply Moves.ite | with_reducible intro _ _ _ _ _ | with_reducible intro _ _ _ | with_reducible intro _ _ | extract_lets | split

theorem Moves.groupDo {n w : Nat} {s0 s : State} (hs : Moves K s0 s) (hk : Sub 0x10011004 K := by first | assumption | exact Sub.mono (by assumption) rfl) : Moves K s0 (State.groupDo s n w) := by
  unfold State.groupDo
  repeat' first | with_reducible assumption | ((with_reducible refine Sub.mono hk ?_); rfl) | with_reducible refine Moves.setw ?_ ?_ | with_reducible refine Moves.forL ?_ ?_ | with_reducible refine Moves.enableOut ?_ ?_ | with_reducible refine Moves.realignOut ?_ ?_ | with_reducible apply Moves.ite | with_reducible intro _ _ _ _ _ | with_reducible intro _ _ _

theorem Moves.aplGroup {p : Port} {n w : Nat} {s0 s : State} (hs : Moves K s0 s) (hk : Sub 0x1001D004 K := by first | assumption | exact Sub.mono (by assumption) rfl) : Moves K s0 (State.aplGroup s p n w) := by
  unfold State.aplGroup
  repeat' first | with_reducible assumption | ((with_reducible refine Sub.mono hk ?_); rfl) | with_reducible refine Moves.groupDo ?_ ?_ | with_reducible refine Moves.busErr ?_ ?_ | with_reducible apply Moves.ite | with_reducible intro _ _ _ _ _ | with_reducible intro _ _ _ | with_reducible intro _ _ | extract_lets | split

theorem Ends.execGroupEnable {p : Port} {n : Fin 8} {mask : BitVec 28} {s : State} (hk : Sub 0x1001D004 K := by first | assumption | exact Sub.mono (by assumption) rfl) : Ends K s (Sys2Proof.Machine.execGroupEnable p n mask s) := by
  have h : Moves K s s := Moves.refl s
  unfold Sys2Proof.Machine.execGroupEnable
  repeat' first | with_reducible assumption | ((with_reducible refine Sub.mono hk ?_); rfl) | with_reducible exact Moves.next ‹_› | with_reducible apply Moves.next | with_reducible apply Ends.ite | with_reducible exact Ends.refused | with_reducible refine Moves.doorbell ?_ ?_ ?_ | with_reducible refine Moves.aplGroup ?_ ?_ | with_reducible apply Moves.ite | with_reducible intro _ _ _ _ _ | with_reducible intro _ _ _ | with_reducible intro _ _

theorem Ends.execGroupRealign {p : Port} {n : Fin 8} {mask : BitVec 28} {s : State} (hk : Sub 0x1001D004 K := by first | assumption | exact Sub.mono (by assumption) rfl) : Ends K s (Sys2Proof.Machine.execGroupRealign p n mask s) := by
  have h : Moves K s s := Moves.refl s
  unfold Sys2Proof.Machine.execGroupRealign
  repeat' first | with_reducible assumption | ((with_reducible refine Sub.mono hk ?_); rfl) | with_reducible exact Moves.next ‹_› | with_reducible apply Moves.next | with_reducible apply Ends.ite | with_reducible exact Ends.refused | with_reducible refine Moves.doorbell ?_ ?_ ?_ | with_reducible refine Moves.aplGroup ?_ ?_ | with_reducible apply Moves.ite | with_reducible intro _ _ _ _ _ | with_reducible intro _ _ _ | with_reducible intro _ _

theorem Ends.execGroupDisable {p : Port} {n : Fin 8} {mask : BitVec 28} {s : State} (hk : Sub 0x1001D004 K := by first | assumption | exact Sub.mono (by assumption) rfl) : Ends K s (Sys2Proof.Machine.execGroupDisable p n mask s) := by
  have h : Moves K s s := Moves.refl s
  unfold Sys2Proof.Machine.execGroupDisable
  repeat' first | with_reducible assumption | ((with_reducible refine Sub.mono hk ?_); rfl) | with_reducible exact Moves.next ‹_› | with_reducible apply Moves.next | with_reducible apply Ends.ite | with_reducible exact Ends.refused | with_reducible refine Moves.doorbell ?_ ?_ ?_ | with_reducible refine Moves.aplGroup ?_ ?_ | with_reducible apply Moves.ite | with_reducible intro _ _ _ _ _ | with_reducible intro _ _ _ | with_reducible intro _ _

theorem Moves.outCtrlWritten {m old : Nat} {s0 s : State} (hs : Moves K s0 s) (hk : Sub 0x10011004 K := by first | assumption | exact Sub.mono (by assumption) rfl) : Moves K s0 (State.outCtrlWritten s m old) := by
  unfold State.outCtrlWritten
  repeat' first | with_reducible assumption | ((with_reducible refine Sub.mono hk ?_); rfl) | with_reducible refine Moves.enableOut ?_ ?_ | with_reducible refine Moves.refreshLol ?_ ?_ | with_reducible apply Moves.ite

theorem Ends.execPulseLeadingEdge {m : Fin 28} {s : State} (hk : Sub 0x90001004 K := by first | assumption | exact Sub.mono (by assumption) rfl) : Ends K s (Sys2Proof.Machine.execPulseLeadingEdge m s) := by
  have h : Moves K s s := Moves.refl s
  unfold Sys2Proof.Machine.execPulseLeadingEdge
  repeat' first | with_reducible assumption | ((with_reducible refine Sub.mono hk ?_); rfl) | with_reducible exact Moves.next ‹_› | with_reducible apply Moves.next | with_reducible apply Ends.ite | with_reducible exact Ends.refused | with_reducible refine Moves.route ?_ ?_ | with_reducible refine Moves.modOut ?_ ?_ | with_reducible apply Moves.ite | with_reducible intro _ _ _ _ _ | with_reducible intro _ _ _ | with_reducible intro _ _ | extract_lets | split

theorem Ends.execPdiffCheck {m : Fin 28} {s : State} (hk : Sub 0x1004 K := by first | assumption | exact Sub.mono (by assumption) rfl) : Ends K s (Sys2Proof.Machine.execPdiffCheck m s) := by
  have h : Moves K s s := Moves.refl s
  unfold Sys2Proof.Machine.execPdiffCheck
  repeat' first | with_reducible assumption | ((with_reducible refine Sub.mono hk ?_); rfl) | with_reducible exact Moves.next ‹_› | with_reducible apply Moves.next | with_reducible apply Ends.ite | with_reducible exact Ends.refused | with_reducible refine Moves.setSat ?_ ?_ | with_reducible refine Moves.setb ?_ ?_ | with_reducible refine Moves.evIf ?_ ?_

theorem Ends.execFerryLimitExpiry {s : State} (hk : Sub 0x10211004 K := by first | assumption | exact Sub.mono (by assumption) rfl) : Ends K s (Sys2Proof.Machine.execFerryLimitExpiry s) := by
  have h : Moves K s s := Moves.refl s
  unfold Sys2Proof.Machine.execFerryLimitExpiry
  repeat' first | with_reducible assumption | ((with_reducible refine Sub.mono hk ?_); rfl) | with_reducible exact Moves.next ‹_› | with_reducible apply Moves.next | with_reducible apply Ends.ite | with_reducible exact Ends.refused | with_reducible refine Moves.forL ?_ ?_ | with_reducible refine Moves.ferrySquelch ?_ ?_ | with_reducible apply Moves.ite | fail_if_no_progress (with_reducible refine Moves.plain ?_ ?_ ?_ ?_ ?_ ?_ ?_ ?_ ?_ ?_ ?_ ?_ ?_ ?_ ?_ ?_ ?_ <;> first | ((with_reducible refine Or.inr (Sub.bit hk ?_)); decide) | with_reducible exact Or.inl rfl | skip) | with_reducible intro _ _ _ _ _ | with_reducible intro _ _ _ | with_reducible intro _ _ | extract_lets | split

end Sys2Proof.Machine
end

