-- ==== Sys2Proof/Laws/KeepTscCmds.lean ====
section
/-! SUPPORT. What the operations of Machine/TscCmds.lean keep: the queue, the canonical form of the tables, and the parts of the state outside those named. -/

set_option Elab.async false

set_option linter.unreachableTactic false
set_option linter.unusedTactic false

namespace Sys2Proof.Machine

variable {K : Nat}

theorem First.incTaken {k : Nat} {r : State × Code} {s0 : State} (h : First K s0 r) (hk : Sub 0x20000000 K := by first | assumption | exact Sub.mono (by assumption) rfl) : First K s0 (incTaken k r) := by
  unfold Sys2Proof.Machine.incTaken
  exact First.ite (First.mk h.fst.modTsc) h

theorem First.tscSetInc {p : Port} {k : Nat} {s0 s : State} (hs : Moves K s0 s) (hk : Sub 0xA0011004 K := by first | assumption | exact Sub.mono (by assumption) rfl) : First K s0 (State.tscSetInc s p k) := by
  unfold State.tscSetInc
  repeat' first | with_reducible assumption | ((with_reducible refine Sub.mono hk ?_); rfl) | with_reducible refine First.tryInc ?_ ?_ | with_reducible refine (First.tryInc ?_ ?_).out ‹_› | with_reducible refine (First.tryInc ?_ ?_).fst | with_reducible refine First.incTaken ?_ ?_ | with_reducible refine (First.incTaken ?_ ?_).out ‹_› | with_reducible refine (First.incTaken ?_ ?_).fst | with_reducible apply Moves.ite | with_reducible apply First.ite | with_reducible intro _ _ _ _ _ | with_reducible intro _ _ _ | with_reducible intro _ _ | extract_lets | split | with_reducible apply First.mk

theorem First.tscAdjust {p : Port} {k : Nat} {s0 s : State} (hs : Moves K s0 s) (hk : Sub 0xA0011004 K := by first | assumption | exact Sub.mono (by assumption) rfl) : First K s0 (State.tscAdjust s p k) := by
  unfold State.tscAdjust
  repeat' first | with_reducible assumption | with_reducible refine First.tryAdjust ?_ ?_ | with_reducible refine (First.tryAdjust ?_ ?_).out ‹_› | with_reducible refine (First.tryAdjust ?_ ?_).fst | with_reducible apply Moves.ite | with_reducible apply First.ite | with_reducible intro _ _ _ _ _ | with_reducible intro _ _ _ | with_reducible intro _ _ | extract_lets | split | with_reducible apply First.mk

theorem First.tscStepOp {p : Port} {k : Nat} {s0 s : State} (hs : Moves K s0 s) (hk : Sub 0xE0091004 K := by first | assumption | exact Sub.mono (by assumption) rfl) : First K s0 (State.tscStepOp s p k) := by
  unfold State.tscStepOp
  repeat' first | with_reducible assumption | with_reducible refine First.tryStep ?_ ?_ | with_reducible refine (First.tryStep ?_ ?_).out ‹_› | with_reducible refine (First.tryStep ?_ ?_).fst | with_reducible apply Moves.ite | with_reducible apply First.ite | with_reducible intro _ _ _ _ _ | with_reducible intro _ _ _ | with_reducible intro _ _ | extract_lets | split | with_reducible apply First.mk

theorem First.tscSetTime {p : Port} {k : Nat} {s0 s : State} (hs : Moves K s0 s) (hk : Sub 0xE0091004 K := by first | assumption | exact Sub.mono (by assumption) rfl) : First K s0 (State.tscSetTime s p k) := by
  unfold State.tscSetTime
  repeat' first | with_reducible assumption | with_reducible refine First.trySet ?_ ?_ | with_reducible refine (First.trySet ?_ ?_).out ‹_› | with_reducible refine (First.trySet ?_ ?_).fst | with_reducible apply Moves.ite | with_reducible apply First.ite | with_reducible intro _ _ _ _ _ | with_reducible intro _ _ _ | with_reducible intro _ _ | extract_lets | split | with_reducible apply First.mk

theorem First.tscSchedule {p : Port} {k : Nat} {s0 s : State} (hs : Moves K s0 s) (hk : Sub 0x20001004 K := by first | assumption | exact Sub.mono (by assumption) rfl) : First K s0 (State.tscSchedule s p k) := by
  unfold State.tscSchedule
  repeat' first | with_reducible assumption | ((with_reducible refine Sub.mono hk ?_); rfl) | with_reducible refine Moves.evIf ?_ ?_ | with_reducible refine Moves.modTsc ?_ ?_ | with_reducible refine Moves.setf ?_ ?_ | with_reducible apply Moves.ite | with_reducible apply First.ite | fail_if_no_progress (with_reducible refine Moves.plain ?_ ?_ ?_ ?_ ?_ ?_ ?_ ?_ ?_ ?_ ?_ ?_ ?_ ?_ ?_ ?_ ?_ <;> first | ((with_reducible refine Or.inr (Sub.bit hk ?_)); decide) | with_reducible exact Or.inl rfl | skip) | fail_if_no_progress (with_reducible refine Moves.plainNv ?_ rfl rfl rfl ?_ ?_ ?_ ?_ ?_ ?_ ?_ ?_ ?_ ?_ ?_ ?_ ?_ ?_ ?_ ?_ ?_ <;> first | ((with_reducible refine Or.inr (Sub.bit hk ?_)); decide) | with_reducible exact Or.inl rfl | skip) | with_reducible intro _ _ _ _ _ | with_reducible intro _ _ _ | with_reducible intro _ _ | extract_lets | split | with_reducible apply First.mk

theorem First.tscCancel {k : Nat} {s0 s : State} (hs : Moves K s0 s) (hk : Sub 0x20000004 K := by first | assumption | exact Sub.mono (by assumption) rfl) : First K s0 (State.tscCancel s k) := by
  unfold State.tscCancel
  repeat' first | with_reducible assumption | ((with_reducible refine Sub.mono hk ?_); rfl) | with_reducible refine Moves.modTsc ?_ ?_ | with_reducible refine Moves.setf ?_ ?_ | with_reducible apply Moves.ite | with_reducible apply First.ite | fail_if_no_progress (with_reducible refine Moves.plain ?_ ?_ ?_ ?_ ?_ ?_ ?_ ?_ ?_ ?_ ?_ ?_ ?_ ?_ ?_ ?_ ?_ <;> first | ((with_reducible refine Or.inr (Sub.bit hk ?_)); decide) | with_reducible exact Or.inl rfl | skip) | fail_if_no_progress (with_reducible refine Moves.plainNv ?_ rfl rfl rfl ?_ ?_ ?_ ?_ ?_ ?_ ?_ ?_ ?_ ?_ ?_ ?_ ?_ ?_ ?_ ?_ ?_ <;> first | ((with_reducible refine Or.inr (Sub.bit hk ?_)); decide) | with_reducible exact Or.inl rfl | skip) | with_reducible intro _ _ _ _ _ | with_reducible intro _ _ _ | with_reducible intro _ _ | extract_lets | split | with_reducible apply First.mk

theorem First.tscSnap {p : Port} {k : Nat} {s0 s : State} (hs : Moves K s0 s) (hk : Sub 0x1004 K := by first | assumption | exact Sub.mono (by assumption) rfl) : First K s0 (State.tscSnap s p k) := by
  unfold State.tscSnap
  repeat' first | with_reducible assumption | with_reducible refine Moves.mboxOut ?_ ?_ | with_reducible apply Moves.ite | with_reducible apply First.ite | with_reducible intro _ _ _ _ _ | with_reducible intro _ _ _ | with_reducible intro _ _ | extract_lets | split | with_reducible apply First.mk

theorem First.tscThresh {p : Port} {k : Nat} {s0 s : State} (hs : Moves K s0 s) (hk : Sub 0x20000004 K := by first | assumption | exact Sub.mono (by assumption) rfl) : First K s0 (State.tscThresh s p k) := by
  unfold State.tscThresh
  repeat' first | with_reducible assumption | ((with_reducible refine Sub.mono hk ?_); rfl) | with_reducible refine Moves.modTsc ?_ ?_ | with_reducible refine Moves.setw ?_ ?_ | with_reducible apply Moves.ite | with_reducible apply First.ite | fail_if_no_progress (with_reducible refine Moves.plain ?_ ?_ ?_ ?_ ?_ ?_ ?_ ?_ ?_ ?_ ?_ ?_ ?_ ?_ ?_ ?_ ?_ <;> first | ((with_reducible refine Or.inr (Sub.bit hk ?_)); decide) | with_reducible exact Or.inl rfl | skip) | fail_if_no_progress (with_reducible refine Moves.plainNv ?_ rfl rfl rfl ?_ ?_ ?_ ?_ ?_ ?_ ?_ ?_ ?_ ?_ ?_ ?_ ?_ ?_ ?_ ?_ ?_ <;> first | ((with_reducible refine Or.inr (Sub.bit hk ?_)); decide) | with_reducible exact Or.inl rfl | skip) | with_reducible intro _ _ _ _ _ | with_reducible intro _ _ _ | with_reducible intro _ _ | extract_lets | split | with_reducible apply First.mk

theorem Moves.verifyArrives {r : VerifyReq} {s0 s : State} (hs : Moves K s0 s) (hk : Sub 0x40000 K := by first | assumption | exact Sub.mono (by assumption) rfl) : Moves K s0 (State.verifyArrives s r) := by
  unfold State.verifyArrives
  repeat' first | with_reducible assumption | ((with_reducible refine Sub.mono hk ?_); rfl) | with_reducible apply Moves.ite | fail_if_no_progress (with_reducible refine Moves.plain ?_ ?_ ?_ ?_ ?_ ?_ ?_ ?_ ?_ ?_ ?_ ?_ ?_ ?_ ?_ ?_ ?_ <;> first | ((with_reducible refine Or.inr (Sub.bit hk ?_)); decide) | with_reducible exact Or.inl rfl | skip)

theorem Moves.verifyServed {r : VerifyReq} {s0 s : State} (hs : Moves K s0 s) (hk : Sub 0x40000 K := by first | assumption | exact Sub.mono (by assumption) rfl) : Moves K s0 (State.verifyServed s r) := by
  unfold State.verifyServed
  repeat' first | with_reducible assumption | ((with_reducible refine Sub.mono hk ?_); rfl) | with_reducible apply Moves.ite | fail_if_no_progress (with_reducible refine Moves.plain ?_ ?_ ?_ ?_ ?_ ?_ ?_ ?_ ?_ ?_ ?_ ?_ ?_ ?_ ?_ ?_ ?_ <;> first | ((with_reducible refine Or.inr (Sub.bit hk ?_)); decide) | with_reducible exact Or.inl rfl | skip)

theorem Moves.tscTicket {p : Port} {k : Nat} {s0 s : State} (hs : Moves K s0 s) (hk : Sub 0x20040004 K := by first | assumption | exact Sub.mono (by assumption) rfl) : Moves K s0 (State.tscTicket s p k) := by
  unfold State.tscTicket
  repeat' first | with_reducible assumption | ((with_reducible refine Sub.mono hk ?_); rfl) | with_reducible refine Moves.modTsc ?_ ?_ | with_reducible refine Moves.setf ?_ ?_ | with_reducible refine Moves.verifyArrives ?_ ?_ | with_reducible refine Moves.complete ?_ ?_ | with_reducible apply Moves.ite | with_reducible intro _ _ _ _ _ | with_reducible intro _ _ _ | with_reducible intro _ _ | extract_lets | split

theorem First.tscOp {p : Port} {k op : Nat} {s0 s : State} (hs : Moves K s0 s) (hk : Sub 0xE0091004 K := by first | assumption | exact Sub.mono (by assumption) rfl) : First K s0 (State.tscOp s p k op) := by
  unfold State.tscOp
  repeat' first | with_reducible assumption | ((with_reducible refine Sub.mono hk ?_); rfl) | with_reducible refine First.tscSetInc ?_ ?_ | with_reducible refine (First.tscSetInc ?_ ?_).out ‹_› | with_reducible refine (First.tscSetInc ?_ ?_).fst | with_reducible refine First.tscAdjust ?_ ?_ | with_reducible refine (First.tscAdjust ?_ ?_).out ‹_› | with_reducible refine (First.tscAdjust ?_ ?_).fst | with_reducible refine First.tscStepOp ?_ ?_ | with_reducible refine (First.tscStepOp ?_ ?_).out ‹_› | with_reducible refine (First.tscStepOp ?_ ?_).fst | with_reducible refine First.tscSetTime ?_ ?_ | with_reducible refine (First.tscSetTime ?_ ?_).out ‹_› | with_reducible refine (First.tscSetTime ?_ ?_).fst | with_reducible refine First.tscSchedule ?_ ?_ | with_reducible refine (First.tscSchedule ?_ ?_).out ‹_› | with_reducible refine (First.tscSchedule ?_ ?_).fst | with_reducible refine First.tscCancel ?_ ?_ | with_reducible refine (First.tscCancel ?_ ?_).out ‹_› | with_reducible refine (First.tscCancel ?_ ?_).fst | with_reducible refine First.tscSnap ?_ ?_ | with_reducible refine (First.tscSnap ?_ ?_).out ‹_› | with_reducible refine (First.tscSnap ?_ ?_).fst | with_reducible refine First.tscThresh ?_ ?_ | with_reducible refine (First.tscThresh ?_ ?_).out ‹_› | with_reducible refine (First.tscThresh ?_ ?_).fst | with_reducible apply Moves.ite | with_reducible apply First.ite | with_reducible intro _ _ _ _ _ | with_reducible intro _ _ _ | with_reducible intro _ _ | extract_lets | split | with_reducible apply First.mk

theorem Moves.tscCommand {p : Port} {k op : Nat} {s0 s : State} (hs : Moves K s0 s) (hk : Sub 0xE00D1004 K := by first | assumption | exact Sub.mono (by assumption) rfl) : Moves K s0 (State.tscCommand s p k op) := by
  unfold State.tscCommand
  repeat' first | with_reducible assumption | ((with_reducible refine Sub.mono hk ?_); rfl) | with_reducible refine Moves.complete ?_ ?_ | with_reducible refine Moves.tscTicket ?_ ?_ | with_reducible refine First.tscOp ?_ ?_ | with_reducible refine (First.tscOp ?_ ?_).out ‹_› | with_reducible refine (First.tscOp ?_ ?_).fst | with_reducible refine Moves.when ?_ ?_ | with_reducible refine Moves.mboxEmpty ?_ ?_ | with_reducible apply Moves.ite | with_reducible intro _ _ _ _ _ | with_reducible intro _ _ _ | with_reducible intro _ _

theorem Ends.execSetInc {p : Port} {n : Fin 8} {s : State} (hk : Sub 0xE00DD004 K := by first | assumption | exact Sub.mono (by assumption) rfl) : Ends K s (Sys2Proof.Machine.execSetInc p n s) := by
  have h : Moves K s s := Moves.refl s
  unfold Sys2Proof.Machine.execSetInc
  repeat' first | with_reducible assumption | ((with_reducible refine Sub.mono hk ?_); rfl) | with_reducible exact Moves.next ‹_› | with_reducible apply Moves.next | with_reducible apply Ends.ite | with_reducible exact Ends.refused | with_reducible refine Moves.doorbell ?_ ?_ ?_ | with_reducible refine Moves.tscCommand ?_ ?_ | with_reducible apply Moves.ite | with_reducible intro _ _ _ _ _ | with_reducible intro _ _ _ | with_reducible intro _ _

theorem Ends.execAdjust {p : Port} {n : Fin 8} {s : State} (hk : Sub 0xE00DD004 K := by first | assumption | exact Sub.mono (by assumption) rfl) : Ends K s (Sys2Proof.Machine.execAdjust p n s) := by
  have h : Moves K s s := Moves.refl s
  unfold Sys2Proof.Machine.execAdjust
  repeat' first | with_reducible assumption | ((with_reducible refine Sub.mono hk ?_); rfl) | with_reducible exact Moves.next ‹_› | with_reducible apply Moves.next | with_reducible apply Ends.ite | with_reducible exact Ends.refused | with_reducible refine Moves.doorbell ?_ ?_ ?_ | with_reducible refine Moves.tscCommand ?_ ?_ | with_reducible apply Moves.ite | with_reducible intro _ _ _ _ _ | with_reducible intro _ _ _ | with_reducible intro _ _

theorem Ends.execTscStep {p : Port} {n : Fin 8} {s : State} (hk : Sub 0xE00DD004 K := by first | assumption | exact Sub.mono (by assumption) rfl) : Ends K s (Sys2Proof.Machine.execTscStep p n s) := by
  have h : Moves K s s := Moves.refl s
  unfold Sys2Proof.Machine.execTscStep
  repeat' first | with_reducible assumption | ((with_reducible refine Sub.mono hk ?_); rfl) | with_reducible exact Moves.next ‹_› | with_reducible apply Moves.next | with_reducible apply Ends.ite | with_reducible exact Ends.refused | with_reducible refine Moves.doorbell ?_ ?_ ?_ | with_reducible refine Moves.tscCommand ?_ ?_ | with_reducible apply Moves.ite | with_reducible intro _ _ _ _ _ | with_reducible intro _ _ _ | with_reducible intro _ _

theorem Ends.execStepTicket {p : Port} {n : Fin 8} {s : State} (hk : Sub 0xE00DD004 K := by first | assumption | exact Sub.mono (by assumption) rfl) : Ends K s (Sys2Proof.Machine.execStepTicket p n s) := by
  have h : Moves K s s := Moves.refl s
  unfold Sys2Proof.Machine.execStepTicket
  repeat' first | with_reducible assumption | ((with_reducible refine Sub.mono hk ?_); rfl) | with_reducible exact Moves.next ‹_› | with_reducible apply Moves.next | with_reducible apply Ends.ite | with_reducible exact Ends.refused | with_reducible refine Moves.doorbell ?_ ?_ ?_ | with_reducible refine Moves.tscCommand ?_ ?_ | with_reducible apply Moves.ite | with_reducible intro _ _ _ _ _ | with_reducible intro _ _ _ | with_reducible intro _ _

theorem Ends.execSetTime {p : Port} {n : Fin 8} {s : State} (hk : Sub 0xE00DD004 K := by first | assumption | exact Sub.mono (by assumption) rfl) : Ends K s (Sys2Proof.Machine.execSetTime p n s) := by
  have h : Moves K s s := Moves.refl s
  unfold Sys2Proof.Machine.execSetTime
  repeat' first | with_reducible assumption | ((with_reducible refine Sub.mono hk ?_); rfl) | with_reducible exact Moves.next ‹_› | with_reducible apply Moves.next | with_reducible apply Ends.ite | with_reducible exact Ends.refused | with_reducible refine Moves.doorbell ?_ ?_ ?_ | with_reducible refine Moves.tscCommand ?_ ?_ | with_reducible apply Moves.ite | with_reducible intro _ _ _ _ _ | with_reducible intro _ _ _ | with_reducible intro _ _

theorem Ends.execSchedule {p : Port} {n : Fin 8} {s : State} (hk : Sub 0xE00DD004 K := by first | assumption | exact Sub.mono (by assumption) rfl) : Ends K s (Sys2Proof.Machine.execSchedule p n s) := by
  have h : Moves K s s := Moves.refl s
  unfold Sys2Proof.Machine.execSchedule
  repeat' first | with_reducible assumption | ((with_reducible refine Sub.mono hk ?_); rfl) | with_reducible exact Moves.next ‹_› | with_reducible apply Moves.next | with_reducible apply Ends.ite | with_reducible exact Ends.refused | with_reducible refine Moves.doorbell ?_ ?_ ?_ | with_reducible refine Moves.tscCommand ?_ ?_ | with_reducible apply Moves.ite | with_reducible intro _ _ _ _ _ | with_reducible intro _ _ _ | with_reducible intro _ _

theorem Ends.execCancelSched {p : Port} {n : Fin 8} {s : State} (hk : Sub 0xE00DD004 K := by first | assumption | exact Sub.mono (by assumption) rfl) : Ends K s (Sys2Proof.Machine.execCancelSched p n s) := by
  have h : Moves K s s := Moves.refl s
  unfold Sys2Proof.Machine.execCancelSched
  repeat' first | with_reducible assumption | ((with_reducible refine Sub.mono hk ?_); rfl) | with_reducible exact Moves.next ‹_› | with_reducible apply Moves.next | with_reducible apply Ends.ite | with_reducible exact Ends.refused | with_reducible refine Moves.doorbell ?_ ?_ ?_ | with_reducible refine Moves.tscCommand ?_ ?_ | with_reducible apply Moves.ite | with_reducible intro _ _ _ _ _ | with_reducible intro _ _ _ | with_reducible intro _ _

theorem Ends.execSnap {p : Port} {n : Fin 8} {s : State} (hk : Sub 0xE00DD004 K := by first | assumption | exact Sub.mono (by assumption) rfl) : Ends K s (Sys2Proof.Machine.execSnap p n s) := by
  have h : Moves K s s := Moves.refl s
  unfold Sys2Proof.Machine.execSnap
  repeat' first | with_reducible assumption | ((with_reducible refine Sub.mono hk ?_); rfl) | with_reducible exact Moves.next ‹_› | with_reducible apply Moves.next | with_reducible apply Ends.ite | with_reducible exact Ends.refused | with_reducible refine Moves.doorbell ?_ ?_ ?_ | with_reducible refine Moves.tscCommand ?_ ?_ | with_reducible apply Moves.ite | with_reducible intro _ _ _ _ _ | with_reducible intro _ _ _ | with_reducible intro _ _

theorem Ends.execSetThresh {p : Port} {n : Fin 8} {s : State} (hk : Sub 0xE00DD004 K := by first | assumption | exact Sub.mono (by assumption) rfl) : Ends K s (Sys2Proof.Machine.execSetThresh p n s) := by
  have h : Moves K s s := Moves.refl s
  unfold Sys2Proof.Machine.execSetThresh
  repeat' first | with_reducible assumption | ((with_reducible refine Sub.mono hk ?_); rfl) | with_reducible exact Moves.next ‹_› | with_reducible apply Moves.next | with_reducible apply Ends.ite | with_reducible exact Ends.refused | with_reducible refine Moves.doorbell ?_ ?_ ?_ | with_reducible refine Moves.tscCommand ?_ ?_ | with_reducible apply Moves.ite | with_reducible intro _ _ _ _ _ | with_reducible intro _ _ _ | with_reducible intro _ _

theorem Moves.ticketRejected {k reason : Nat} {s0 s : State} (hs : Moves K s0 s) (hk : Sub 0xFFFFFFD9E K := by first | assumption | exact Sub.mono (by assumption) rfl) : Moves K s0 (State.ticketRejected s k reason) := by
  unfold State.ticketRejected
  repeat' first | with_reducible assumption | ((with_reducible refine Sub.mono hk ?_); rfl) | with_reducible refine Moves.setf ?_ ?_ | with_reducible refine Moves.inc ?_ ?_ | with_reducible refine Moves.secEvent ?_ ?_

theorem Moves.ticketAccepted {k : Nat} {j : TicketJob} {s0 s : State} (hs : Moves K s0 s) (hk : Sub 0xE0091004 K := by first | assumption | exact Sub.mono (by assumption) rfl) : Moves K s0 (State.ticketAccepted s k j) := by
  unfold State.ticketAccepted
  repeat' first | with_reducible assumption | ((with_reducible refine Sub.mono hk ?_); rfl) | with_reducible refine Moves.setw ?_ ?_ | with_reducible refine Moves.becomeSet ?_ ?_ | with_reducible refine Moves.doStep ?_ ?_ | with_reducible refine Moves.mboxEmpty ?_ ?_

theorem Moves.leap {n : Nat} {s0 s : State} (hs : Moves K s0 s) (hk : Sub 0x20001004 K := by first | assumption | exact Sub.mono (by assumption) rfl) : Moves K s0 (State.leap s n) := by
  unfold State.leap
  repeat' first | with_reducible assumption | ((with_reducible refine Sub.mono hk ?_); rfl) | with_reducible refine Moves.modTsc ?_ ?_ | with_reducible refine Moves.ev ?_ ?_ | with_reducible refine Moves.setf ?_ ?_ | with_reducible refine Moves.seti ?_ ?_ | with_reducible apply Moves.ite | with_reducible intro _ _ _ _ _ | with_reducible intro _ _ _ | with_reducible intro _ _ | extract_lets | split

theorem Moves.todDue {n : Nat} {s0 s : State} (hs : Moves K s0 s) (hk : Sub 0x40001004 K := by first | assumption | exact Sub.mono (by assumption) rfl) : Moves K s0 (State.todDue s n) := by
  unfold State.todDue
  repeat' first | with_reducible assumption | ((with_reducible refine Sub.mono hk ?_); rfl) | with_reducible refine Moves.forN ?_ ?_ | with_reducible refine Moves.ev ?_ ?_ | with_reducible refine Moves.inc ?_ ?_ | with_reducible refine Moves.modTod ?_ ?_ | with_reducible apply Moves.ite | with_reducible intro _ _ _ _ _ | with_reducible intro _ _ _ | with_reducible intro _ _ | extract_lets | split

theorem Ends.execSecondRollover {n : Fin 8} {s : State} (hk : Sub 0xE0091004 K := by first | assumption | exact Sub.mono (by assumption) rfl) : Ends K s (Sys2Proof.Machine.execSecondRollover n s) := by
  have h : Moves K s s := Moves.refl s
  unfold Sys2Proof.Machine.execSecondRollover
  repeat' first | with_reducible assumption | ((with_reducible refine Sub.mono hk ?_); rfl) | with_reducible exact Moves.next ‹_› | with_reducible apply Moves.next | with_reducible apply Ends.ite | with_reducible exact Ends.refused | with_reducible refine Moves.modTsc ?_ ?_ | with_reducible refine Moves.route ?_ ?_ | with_reducible refine Moves.ev ?_ ?_ | with_reducible refine Moves.billSecond ?_ ?_ | with_reducible refine Moves.todDue ?_ ?_ | with_reducible refine Moves.leap ?_ ?_ | with_reducible apply Moves.ite | with_reducible intro _ _ _ _ _ | with_reducible intro _ _ _ | with_reducible intro _ _ | extract_lets | split

theorem Ends.execManifestSigned {s : State} (hk : Sub 0x91004 K := by first | assumption | exact Sub.mono (by assumption) rfl) : Ends K s (Sys2Proof.Machine.execManifestSigned s) := by
  have h : Moves K s s := Moves.refl s
  unfold Sys2Proof.Machine.execManifestSigned
  repeat' first | with_reducible assumption | with_reducible exact Moves.next ‹_› | with_reducible apply Moves.next | with_reducible apply Ends.ite | with_reducible exact Ends.refused | with_reducible refine Moves.signNext ?_ ?_

theorem Ends.execAdjustComplete {n : Fin 8} {s : State} (hk : Sub 0x1004 K := by first | assumption | exact Sub.mono (by assumption) rfl) : Ends K s (Sys2Proof.Machine.execAdjustComplete n s) := by
  have h : Moves K s s := Moves.refl s
  unfold Sys2Proof.Machine.execAdjustComplete
  repeat' first | with_reducible assumption | ((with_reducible refine Sub.mono hk ?_); rfl) | with_reducible exact Moves.next ‹_› | with_reducible apply Moves.next | with_reducible apply Ends.ite | with_reducible exact Ends.refused | with_reducible refine Moves.ev ?_ ?_ | with_reducible refine Moves.setf ?_ ?_ | with_reducible apply Moves.ite | with_reducible intro _ _ _ _ _ | with_reducible intro _ _ _ | with_reducible intro _ _ | extract_lets | split

theorem Ends.execScheduledIncrementDue {n : Fin 8} {s : State} (hk : Sub 0xA0011004 K := by first | assumption | exact Sub.mono (by assumption) rfl) : Ends K s (Sys2Proof.Machine.execScheduledIncrementDue n s) := by
  have h : Moves K s s := Moves.refl s
  unfold Sys2Proof.Machine.execScheduledIncrementDue
  repeat' first | with_reducible assumption | ((with_reducible refine Sub.mono hk ?_); rfl) | with_reducible exact Moves.next ‹_› | with_reducible apply Moves.next | with_reducible apply Ends.ite | with_reducible exact Ends.refused | with_reducible refine Moves.applySched ?_ ?_ | with_reducible apply Moves.ite | with_reducible intro _ _ _ _ _ | with_reducible intro _ _ _ | with_reducible intro _ _ | extract_lets | split

theorem Moves.schedTask {n : Nat} {s0 s : State} (hs : Moves K s0 s) (hk : Sub 0xA0011004 K := by first | assumption | exact Sub.mono (by assumption) rfl) : Moves K s0 (State.schedTask s n) := by
  unfold State.schedTask
  repeat' first | with_reducible assumption | ((with_reducible refine Sub.mono hk ?_); rfl) | with_reducible refine Moves.applySched ?_ ?_ | with_reducible apply Moves.ite | with_reducible intro _ _ _ _ _ | with_reducible intro _ _ _ | with_reducible intro _ _ | extract_lets | split

theorem Ends.execApplySchedTask {n : Fin 8} {s : State} (hk : Sub 0xA0011004 K := by first | assumption | exact Sub.mono (by assumption) rfl) : Ends K s (Sys2Proof.Machine.execApplySchedTask n s) := by
  have h : Moves K s s := Moves.refl s
  unfold Sys2Proof.Machine.execApplySchedTask
  repeat' first | with_reducible assumption | ((with_reducible refine Sub.mono hk ?_); rfl) | with_reducible exact Moves.next ‹_› | with_reducible apply Moves.next | with_reducible apply Ends.ite | with_reducible exact Ends.refused | with_reducible refine Moves.takeRun ?_ ‹_› ?_ | with_reducible refine Moves.schedTask ?_ ?_ | with_reducible apply Moves.ite | with_reducible intro _ _ _ _ _ | with_reducible intro _ _ _ | with_reducible intro _ _ | extract_lets | split

theorem Ends.execTodoutMessage {k : Fin 2} {s : State} (hk : Sub 0x40001004 K := by first | assumption | exact Sub.mono (by assumption) rfl) : Ends K s (Sys2Proof.Machine.execTodoutMessage k s) := by
  have h : Moves K s s := Moves.refl s
  unfold Sys2Proof.Machine.execTodoutMessage
  repeat' first | with_reducible assumption | ((with_reducible refine Sub.mono hk ?_); rfl) | with_reducible exact Moves.next ‹_› | with_reducible apply Moves.next | with_reducible apply Ends.ite | with_reducible exact Ends.refused | with_reducible refine Moves.modTod ?_ ?_ | with_reducible refine Moves.ev ?_ ?_ | with_reducible refine Moves.inc ?_ ?_ | with_reducible refine Moves.incWrap ?_ ?_ | with_reducible apply Moves.ite | with_reducible intro _ _ _ _ _ | with_reducible intro _ _ _ | with_reducible intro _ _ | extract_lets | split

theorem Moves.swEvents {mask : Nat} {s0 s : State} (hs : Moves K s0 s) (hk : Sub 0x80001004 K := by first | assumption | exact Sub.mono (by assumption) rfl) : Moves K s0 (State.swEvents s mask) := by
  unfold State.swEvents
  repeat' first | with_reducible assumption | ((with_reducible refine Sub.mono hk ?_); rfl) | with_reducible refine Moves.forL ?_ ?_ | with_reducible refine Moves.ev ?_ ?_ | with_reducible refine Moves.route ?_ ?_ | with_reducible apply Moves.ite | with_reducible intro _ _ _ _ _ | with_reducible intro _ _ _

theorem Ends.execSwevt {p : Port} {mask : BitVec 16} {s : State} (hk : Sub 0x8000D004 K := by first | assumption | exact Sub.mono (by assumption) rfl) : Ends K s (Sys2Proof.Machine.execSwevt p mask s) := by
  have h : Moves K s s := Moves.refl s
  unfold Sys2Proof.Machine.execSwevt
  repeat' first | with_reducible assumption | ((with_reducible refine Sub.mono hk ?_); rfl) | with_reducible exact Moves.next ‹_› | with_reducible apply Moves.next | with_reducible apply Ends.ite | with_reducible exact Ends.refused | with_reducible refine Moves.doorbell ?_ ?_ ?_ | with_reducible refine Moves.swEvents ?_ ?_ | with_reducible apply Moves.ite | with_reducible intro _ _ _ _ _ | with_reducible intro _ _ _ | with_reducible intro _ _

end Sys2Proof.Machine
end

