-- ==== Sys2Proof/Laws/KeepPortCmds.lean ====
section
/-! SUPPORT. What the operations of Machine/PortCmds.lean keep: the queue, the canonical form of the tables, and the parts of the state outside those named. -/

set_option Elab.async false

set_option linter.unreachableTactic false
set_option linter.unusedTactic false

namespace Sys2Proof.Machine

variable {K : Nat}

theorem Moves.startLinkSettle {n : Nat} {s0 s : State} (hs : Moves K s0 s) (hk : Sub 0x100400004 K := by first | assumption | exact Sub.mono (by assumption) rfl) : Moves K s0 (State.startLinkSettle s n) := by
  unfold State.startLinkSettle
  repeat' first | with_reducible assumption | ((with_reducible refine Sub.mono hk ?_); rfl) | with_reducible refine Moves.modPrt ?_ ?_ | with_reducible refine Moves.setf ?_ ?_ | with_reducible refine Moves.refreshSettling ?_ ?_ | with_reducible refine Moves.modLnd ?_ ?_ | with_reducible apply Moves.ite | with_reducible intro _ _ _ _ _ | with_reducible intro _ _ _ | with_reducible intro _ _ | extract_lets | split

theorem Moves.watermark {n : Nat} {s0 s : State} (hs : Moves K s0 s) (hk : Sub 0x100000004 K := by first | assumption | exact Sub.mono (by assumption) rfl) : Moves K s0 (State.watermark s n) := by
  unfold State.watermark
  repeat' first | with_reducible assumption | with_reducible refine Moves.sendPause ?_ ?_ | with_reducible apply Moves.ite

theorem Moves.eqConverged {n : Nat} {s0 s : State} (hs : Moves K s0 s) (hk : Sub 0x6 K := by first | assumption | exact Sub.mono (by assumption) rfl) : Moves K s0 (State.eqConverged s n) := by
  unfold State.eqConverged
  repeat' first | with_reducible assumption | ((with_reducible refine Sub.mono hk ?_); rfl) | with_reducible refine Moves.setEq ?_ ?_ | with_reducible refine Moves.setf ?_ ?_ | with_reducible refine Moves.took ?_ ?_ | with_reducible apply Moves.ite | with_reducible intro _ _ _ _ _ | with_reducible intro _ _ _ | with_reducible intro _ _ | extract_lets | split

theorem Moves.signalDetected {n : Nat} {s0 s : State} (hs : Moves K s0 s) (hk : Sub 0x100000004 K := by first | assumption | exact Sub.mono (by assumption) rfl) : Moves K s0 (State.signalDetected s n) := by
  unfold State.signalDetected
  repeat' first | with_reducible assumption | ((with_reducible refine Sub.mono hk ?_); rfl) | with_reducible refine Moves.modPrt ?_ ?_ | with_reducible refine Moves.when ?_ ?_ | with_reducible refine Moves.setEq ?_ ?_ | with_reducible apply Moves.ite | with_reducible intro _ _ _ _ _ | with_reducible intro _ _ _ | with_reducible intro _ _ | extract_lets | split

theorem Ends.execLinkSignalDetect {x : LinkReturn} {s : State} (hk : Sub 0x100000006 K := by first | assumption | exact Sub.mono (by assumption) rfl) : Ends K s (Sys2Proof.Machine.execLinkSignalDetect x s) := by
  have h : Moves K s s := Moves.refl s
  unfold Sys2Proof.Machine.execLinkSignalDetect
  repeat' first | with_reducible assumption | ((with_reducible refine Sub.mono hk ?_); rfl) | with_reducible exact Moves.next ‹_› | with_reducible apply Moves.next | with_reducible apply Ends.ite | with_reducible exact Ends.refused | with_reducible refine Moves.signalDetected ?_ ?_ | with_reducible refine Moves.setEq ?_ ?_ | with_reducible refine Moves.eqConverged ?_ ?_ | with_reducible apply Moves.ite | with_reducible intro _ _ _ _ _ | with_reducible intro _ _ _ | with_reducible intro _ _ | extract_lets | split

theorem Moves.lockUp {n : Nat} {s0 s : State} (hs : Moves K s0 s) (hk : Sub 0x6 K := by first | assumption | exact Sub.mono (by assumption) rfl) : Moves K s0 (State.lockUp s n) := by
  unfold State.lockUp
  repeat' first | with_reducible assumption | ((with_reducible refine Sub.mono hk ?_); rfl) | with_reducible refine Moves.eqConverged ?_ ?_ | with_reducible refine Moves.setf ?_ ?_ | with_reducible refine Moves.setb ?_ ?_ | with_reducible apply Moves.ite | with_reducible intro _ _ _ _ _ | with_reducible intro _ _ _ | with_reducible intro _ _ | extract_lets | split

theorem Moves.portUp {n : Nat} {s0 s : State} (hs : Moves K s0 s) (hk : Sub 0x100481006 K := by first | assumption | exact Sub.mono (by assumption) rfl) : Moves K s0 (State.portUp s n) := by
  unfold State.portUp
  repeat' first | with_reducible assumption | ((with_reducible refine Sub.mono hk ?_); rfl) | with_reducible refine Moves.setf ?_ ?_ | with_reducible refine Moves.lockUp ?_ ?_ | with_reducible refine Moves.startLinkSettle ?_ ?_ | with_reducible refine Moves.ev ?_ ?_ | with_reducible refine Moves.watermark ?_ ?_ | with_reducible refine Moves.drainAll ?_ ?_ | with_reducible refine Moves.modPrt ?_ ?_ | with_reducible apply Moves.ite | with_reducible intro _ _ _ _ _ | with_reducible intro _ _ _ | with_reducible intro _ _ | extract_lets | split

theorem Ends.execLinkUp {n : Fin 8} {s : State} (hk : Sub 0x100481006 K := by first | assumption | exact Sub.mono (by assumption) rfl) : Ends K s (Sys2Proof.Machine.execLinkUp n s) := by
  have h : Moves K s s := Moves.refl s
  unfold Sys2Proof.Machine.execLinkUp
  repeat' first | with_reducible assumption | ((with_reducible refine Sub.mono hk ?_); rfl) | with_reducible exact Moves.next ‹_› | with_reducible apply Moves.next | with_reducible apply Ends.ite | with_reducible exact Ends.refused | with_reducible refine Moves.portUp ?_ ?_ | with_reducible refine Moves.lockUp ?_ ?_ | with_reducible apply Moves.ite | with_reducible intro _ _ _ _ _ | with_reducible intro _ _ _ | with_reducible intro _ _ | extract_lets | split

theorem Moves.settleFrame {n : Nat} {s0 s : State} (hs : Moves K s0 s) (hk : Sub 0x100000000 K := by first | assumption | exact Sub.mono (by assumption) rfl) : Moves K s0 (State.settleFrame s n) := by
  unfold State.settleFrame
  repeat' first | with_reducible assumption | ((with_reducible refine Sub.mono hk ?_); rfl) | with_reducible refine Moves.when ?_ ?_ | with_reducible refine Moves.modPrt ?_ ?_ | with_reducible apply Moves.ite | with_reducible intro _ _ _ _ _ | with_reducible intro _ _ _ | with_reducible intro _ _ | extract_lets | split

theorem Ends.execLinkSettled {n : Fin 8} {s : State} (hk : Sub 0x400004 K := by first | assumption | exact Sub.mono (by assumption) rfl) : Ends K s (Sys2Proof.Machine.execLinkSettled n s) := by
  have h : Moves K s s := Moves.refl s
  unfold Sys2Proof.Machine.execLinkSettled
  repeat' first | with_reducible assumption | ((with_reducible refine Sub.mono hk ?_); rfl) | with_reducible exact Moves.next ‹_› | with_reducible apply Moves.next | with_reducible apply Ends.ite | with_reducible exact Ends.refused | with_reducible refine Moves.setf ?_ ?_ | with_reducible refine Moves.refreshSettling ?_ ?_ | with_reducible refine Moves.modLnd ?_ ?_ | with_reducible apply Moves.ite | with_reducible intro _ _ _ _ _ | with_reducible intro _ _ _ | with_reducible intro _ _ | extract_lets | split

theorem Ends.execLinkDown {n : Fin 8} {x : LinkEnd} {s : State} (hk : Sub 0x587D91006 K := by first | assumption | exact Sub.mono (by assumption) rfl) : Ends K s (Sys2Proof.Machine.execLinkDown n x s) := by
  have h : Moves K s s := Moves.refl s
  unfold Sys2Proof.Machine.execLinkDown
  repeat' first | with_reducible assumption | ((with_reducible refine Sub.mono hk ?_); rfl) | with_reducible exact Moves.next ‹_› | with_reducible apply Moves.next | with_reducible apply Ends.ite | with_reducible exact Ends.refused | with_reducible refine Moves.modPrt ?_ ?_ | with_reducible refine Moves.when ?_ ?_ | with_reducible refine Moves.count ?_ ?_ | with_reducible refine Moves.portDown ?_ ?_ | with_reducible refine Moves.setEq ?_ ?_ | with_reducible refine Moves.loseActivity ?_ ?_ | with_reducible refine Moves.setf ?_ ?_ | with_reducible refine Moves.portDownWith ?_ ?_ | with_reducible refine Moves.ev ?_ ?_ | with_reducible apply Moves.ite | with_reducible intro _ _ _ _ _ | with_reducible intro _ _ _ | with_reducible intro _ _ | extract_lets | split

theorem Ends.execLinkHoldExpiry {n : Fin 8} {s : State} (hk : Sub 0x100000000 K := by first | assumption | exact Sub.mono (by assumption) rfl) : Ends K s (Sys2Proof.Machine.execLinkHoldExpiry n s) := by
  have h : Moves K s s := Moves.refl s
  unfold Sys2Proof.Machine.execLinkHoldExpiry
  repeat' first | with_reducible assumption | ((with_reducible refine Sub.mono hk ?_); rfl) | with_reducible exact Moves.next ‹_› | with_reducible apply Moves.next | with_reducible apply Ends.ite | with_reducible exact Ends.refused | with_reducible refine Moves.modPrt ?_ ?_ | with_reducible apply Moves.ite | with_reducible intro _ _ _ _ _ | with_reducible intro _ _ _ | with_reducible intro _ _ | extract_lets | split

theorem First.rxCount {n : Nat} {b : List Byte} {fcsOk : Bool} {s0 s : State} (hs : Moves K s0 s) (hk : Sub 0x100000000 K := by first | assumption | exact Sub.mono (by assumption) rfl) : First K s0 (State.rxCount s n b fcsOk) := by
  unfold State.rxCount
  repeat' first | with_reducible assumption | ((with_reducible refine Sub.mono hk ?_); rfl) | with_reducible refine Moves.count ?_ ?_ | with_reducible refine Moves.settleFrame ?_ ?_ | with_reducible refine Moves.modPrt ?_ ?_ | with_reducible apply Moves.ite | with_reducible apply First.ite | with_reducible intro _ _ _ _ _ | with_reducible intro _ _ _ | with_reducible intro _ _ | extract_lets | split | with_reducible apply First.mk

theorem Moves.leaveDormant {n : Nat} {s0 s : State} (hs : Moves K s0 s) (hk : Sub 0x4 K := by first | assumption | exact Sub.mono (by assumption) rfl) : Moves K s0 (State.leaveDormant s n) := by
  unfold State.leaveDormant
  repeat' first | with_reducible assumption | with_reducible refine Moves.setf ?_ ?_ | with_reducible refine Moves.setEq ?_ ?_

theorem Moves.wake {n k : Nat} {s0 s : State} (hs : Moves K s0 s) (hk : Sub 0x1004 K := by first | assumption | exact Sub.mono (by assumption) rfl) : Moves K s0 (State.wake s n k) := by
  unfold State.wake
  repeat' first | with_reducible assumption | ((with_reducible refine Sub.mono hk ?_); rfl) | with_reducible refine Moves.leaveDormant ?_ ?_ | with_reducible refine Moves.ev ?_ ?_ | with_reducible refine Moves.setf ?_ ?_

theorem Moves.rxControl {n : Nat} {b : List Byte} {s0 s : State} (hs : Moves K s0 s) (hk : Sub 0x100080004 K := by first | assumption | exact Sub.mono (by assumption) rfl) : Moves K s0 (State.rxControl s n b) := by
  unfold State.rxControl
  repeat' first | with_reducible assumption | ((with_reducible refine Sub.mono hk ?_); rfl) | with_reducible refine Moves.count ?_ ?_ | with_reducible refine Moves.drainAll ?_ ?_ | with_reducible refine Moves.setf ?_ ?_ | with_reducible refine Moves.modPrt ?_ ?_ | with_reducible apply Moves.ite | with_reducible intro _ _ _ _ _ | with_reducible intro _ _ _ | with_reducible intro _ _ | extract_lets | split

theorem Moves.rxEsmc {n : Nat} {b : List Byte} {s0 s : State} (hs : Moves K s0 s) (hk : Sub 0x587991004 K := by first | assumption | exact Sub.mono (by assumption) rfl) : Moves K s0 (State.rxEsmc s n b) := by
  unfold State.rxEsmc
  repeat' first | with_reducible assumption | ((with_reducible refine Sub.mono hk ?_); rfl) | with_reducible refine Moves.ev ?_ ?_ | with_reducible refine Moves.count ?_ ?_ | with_reducible refine Moves.modPrt ?_ ?_ | with_reducible refine Moves.giveRanks ?_ ?_ | with_reducible apply Moves.ite | with_reducible intro _ _ _ _ _ | with_reducible intro _ _ _ | with_reducible intro _ _ | extract_lets | split

theorem Moves.rxHost {n : Nat} {cap : StampCap} {bytes : List Byte} {s0 s : State} (hs : Moves K s0 s) (hk : Sub 0x100001004 K := by first | assumption | exact Sub.mono (by assumption) rfl) : Moves K s0 (State.rxHost s n cap bytes) := by
  unfold State.rxHost
  repeat' first | with_reducible assumption | ((with_reducible refine Sub.mono hk ?_); rfl) | with_reducible refine Moves.count ?_ ?_ | with_reducible refine Moves.modPrt ?_ ?_ | with_reducible refine Moves.watermark ?_ ?_ | with_reducible refine Moves.evIf ?_ ?_ | with_reducible apply Moves.ite | with_reducible intro _ _ _ _ _ | with_reducible intro _ _ _ | with_reducible intro _ _ | extract_lets | split

theorem Moves.rxLine {n : Nat} {l : LineStat} {s0 s : State} (hs : Moves K s0 s) (hk : Sub 0x100080004 K := by first | assumption | exact Sub.mono (by assumption) rfl) : Moves K s0 (State.rxLine s n l) := by
  unfold State.rxLine
  repeat' first | with_reducible assumption | ((with_reducible refine Sub.mono hk ?_); rfl) | with_reducible refine Moves.modPrt ?_ ?_ | with_reducible refine Moves.drainAll ?_ ?_ | with_reducible refine Moves.setb ?_ ?_ | with_reducible apply Moves.ite | with_reducible intro _ _ _ _ _ | with_reducible intro _ _ _ | with_reducible intro _ _ | extract_lets | split

theorem Ends.execPauseQuantaExpiry {n : Fin 8} {s : State} (hk : Sub 0x100080004 K := by first | assumption | exact Sub.mono (by assumption) rfl) : Ends K s (Sys2Proof.Machine.execPauseQuantaExpiry n s) := by
  have h : Moves K s s := Moves.refl s
  unfold Sys2Proof.Machine.execPauseQuantaExpiry
  repeat' first | with_reducible assumption | ((with_reducible refine Sub.mono hk ?_); rfl) | with_reducible exact Moves.next ‹_› | with_reducible apply Moves.next | with_reducible apply Ends.ite | with_reducible exact Ends.refused | with_reducible refine Moves.drainAll ?_ ?_ | with_reducible refine Moves.setf ?_ ?_ | with_reducible apply Moves.ite | with_reducible intro _ _ _ _ _ | with_reducible intro _ _ _ | with_reducible intro _ _ | extract_lets | split

theorem Ends.execPauseWatchdogExpiry {n : Fin 8} {s : State} (hk : Sub 0x100081004 K := by first | assumption | exact Sub.mono (by assumption) rfl) : Ends K s (Sys2Proof.Machine.execPauseWatchdogExpiry n s) := by
  have h : Moves K s s := Moves.refl s
  unfold Sys2Proof.Machine.execPauseWatchdogExpiry
  repeat' first | with_reducible assumption | ((with_reducible refine Sub.mono hk ?_); rfl) | with_reducible exact Moves.next ‹_› | with_reducible apply Moves.next | with_reducible apply Ends.ite | with_reducible exact Ends.refused | with_reducible refine Moves.ev ?_ ?_ | with_reducible refine Moves.count ?_ ?_ | with_reducible refine Moves.setf ?_ ?_ | with_reducible refine Moves.drainAll ?_ ?_ | with_reducible refine Moves.modPrt ?_ ?_ | with_reducible apply Moves.ite | with_reducible intro _ _ _ _ _ | with_reducible intro _ _ _ | with_reducible intro _ _ | extract_lets | split

theorem Ends.execPauseRepeat {n : Fin 8} {s : State} (hk : Sub 0x100000004 K := by first | assumption | exact Sub.mono (by assumption) rfl) : Ends K s (Sys2Proof.Machine.execPauseRepeat n s) := by
  have h : Moves K s s := Moves.refl s
  unfold Sys2Proof.Machine.execPauseRepeat
  repeat' first | with_reducible assumption | ((with_reducible refine Sub.mono hk ?_); rfl) | with_reducible exact Moves.next ‹_› | with_reducible apply Moves.next | with_reducible apply Ends.ite | with_reducible exact Ends.refused | with_reducible refine Moves.sendPause ?_ ?_ | with_reducible apply Moves.ite | with_reducible intro _ _ _ _ _ | with_reducible intro _ _ _ | with_reducible intro _ _ | extract_lets | split

theorem Ends.execEsmcInfoTx {n : Fin 8} {s : State} (hk : Sub 0x580081004 K := by first | assumption | exact Sub.mono (by assumption) rfl) : Ends K s (Sys2Proof.Machine.execEsmcInfoTx n s) := by
  have h : Moves K s s := Moves.refl s
  unfold Sys2Proof.Machine.execEsmcInfoTx
  repeat' first | with_reducible assumption | ((with_reducible refine Sub.mono hk ?_); rfl) | with_reducible exact Moves.next ‹_› | with_reducible apply Moves.next | with_reducible apply Ends.ite | with_reducible exact Ends.refused | with_reducible refine Moves.modPrt ?_ ?_ | with_reducible refine Moves.esmcSend ?_ ?_ | with_reducible apply Moves.ite | with_reducible intro _ _ _ _ _ | with_reducible intro _ _ _ | with_reducible intro _ _ | extract_lets | split

theorem Ends.execPreemptVerifyDone {n : Fin 8} {ok : Bool} {s : State} (hk : Sub 0x1004 K := by first | assumption | exact Sub.mono (by assumption) rfl) : Ends K s (Sys2Proof.Machine.execPreemptVerifyDone n ok s) := by
  have h : Moves K s s := Moves.refl s
  unfold Sys2Proof.Machine.execPreemptVerifyDone
  repeat' first | with_reducible assumption | ((with_reducible refine Sub.mono hk ?_); rfl) | with_reducible exact Moves.next ‹_› | with_reducible apply Moves.next | with_reducible apply Ends.ite | with_reducible exact Ends.refused | with_reducible refine Moves.setf ?_ ?_ | with_reducible refine Moves.ev ?_ ?_

theorem Ends.execEqLimitReached {n : Fin 8} {s : State} (hk : Sub 0x1004 K := by first | assumption | exact Sub.mono (by assumption) rfl) : Ends K s (Sys2Proof.Machine.execEqLimitReached n s) := by
  have h : Moves K s s := Moves.refl s
  unfold Sys2Proof.Machine.execEqLimitReached
  repeat' first | with_reducible assumption | with_reducible exact Moves.next ‹_› | with_reducible apply Moves.next | with_reducible apply Ends.ite | with_reducible exact Ends.refused | with_reducible refine Moves.ev ?_ ?_

theorem Moves.tsqPop {p : Port} {n : Nat} {s0 s : State} (hs : Moves K s0 s) (hk : Sub 0x100001004 K := by first | assumption | exact Sub.mono (by assumption) rfl) : Moves K s0 (State.tsqPop s p n) := by
  unfold State.tsqPop
  repeat' first | with_reducible assumption | ((with_reducible refine Sub.mono hk ?_); rfl) | with_reducible refine Moves.mboxOut ?_ ?_ | with_reducible refine Moves.modPrt ?_ ?_ | with_reducible refine Moves.setf ?_ ?_ | with_reducible apply Moves.ite | fail_if_no_progress (with_reducible refine Moves.plain ?_ ?_ ?_ ?_ ?_ ?_ ?_ ?_ ?_ ?_ ?_ ?_ ?_ ?_ ?_ ?_ ?_ <;> first | ((with_reducible refine Or.inr (Sub.bit hk ?_)); decide) | with_reducible exact Or.inl rfl | skip) | fail_if_no_progress (with_reducible refine Moves.plainNv ?_ rfl rfl rfl ?_ ?_ ?_ ?_ ?_ ?_ ?_ ?_ ?_ ?_ ?_ ?_ ?_ ?_ ?_ ?_ ?_ <;> first | ((with_reducible refine Or.inr (Sub.bit hk ?_)); decide) | with_reducible exact Or.inl rfl | skip) | with_reducible intro _ _ _ _ _ | with_reducible intro _ _ _ | with_reducible intro _ _ | extract_lets | split

theorem Moves.stats {p : Port} {n : Nat} {clear : Bool} {s0 s : State} (hs : Moves K s0 s) (hk : Sub 0x100001004 K := by first | assumption | exact Sub.mono (by assumption) rfl) : Moves K s0 (State.stats s p n clear) := by
  unfold State.stats
  repeat' first | with_reducible assumption | ((with_reducible refine Sub.mono hk ?_); rfl) | with_reducible refine Moves.mboxOut ?_ ?_ | with_reducible refine Moves.modPrt ?_ ?_

theorem First.wakeLoad {p : Port} {n : Nat} {s0 s : State} (hs : Moves K s0 s) (hk : Sub 0x100000004 K := by first | assumption | exact Sub.mono (by assumption) rfl) : First K s0 (State.wakeLoad s p n) := by
  unfold State.wakeLoad
  repeat' first | with_reducible assumption | ((with_reducible refine Sub.mono hk ?_); rfl) | with_reducible refine Moves.mboxEmpty ?_ ?_ | with_reducible refine Moves.modPrt ?_ ?_ | with_reducible refine Moves.wake ?_ ?_ | with_reducible apply Moves.ite | with_reducible apply First.ite | fail_if_no_progress (with_reducible refine Moves.plain ?_ ?_ ?_ ?_ ?_ ?_ ?_ ?_ ?_ ?_ ?_ ?_ ?_ ?_ ?_ ?_ ?_ <;> first | ((with_reducible refine Or.inr (Sub.bit hk ?_)); decide) | with_reducible exact Or.inl rfl | skip) | fail_if_no_progress (with_reducible refine Moves.plainNv ?_ rfl rfl rfl ?_ ?_ ?_ ?_ ?_ ?_ ?_ ?_ ?_ ?_ ?_ ?_ ?_ ?_ ?_ ?_ ?_ <;> first | ((with_reducible refine Or.inr (Sub.bit hk ?_)); decide) | with_reducible exact Or.inl rfl | skip) | with_reducible intro _ _ _ _ _ | with_reducible intro _ _ _ | with_reducible intro _ _ | extract_lets | split | with_reducible apply First.mk

theorem Moves.prtCommand {p : Port} {n bit : Nat} {s0 s : State} (hs : Moves K s0 s) (hk : Sub 0x100001004 K := by first | assumption | exact Sub.mono (by assumption) rfl) : Moves K s0 (State.prtCommand s p n bit) := by
  unfold State.prtCommand
  repeat' first | with_reducible assumption | ((with_reducible refine Sub.mono hk ?_); rfl) | with_reducible refine Moves.stats ?_ ?_ | with_reducible refine Moves.complete ?_ ?_ | with_reducible refine Moves.tsqPop ?_ ?_ | with_reducible refine First.wakeLoad ?_ ?_ | with_reducible refine (First.wakeLoad ?_ ?_).out ‹_› | with_reducible refine (First.wakeLoad ?_ ?_).fst | with_reducible refine Moves.modPrt ?_ ?_ | with_reducible refine Moves.completeBy ?_ ?_ | with_reducible apply Moves.ite

theorem Ends.execFetchStats {p : Port} {n : Fin 8} {s : State} (hk : Sub 0x10000D004 K := by first | assumption | exact Sub.mono (by assumption) rfl) : Ends K s (Sys2Proof.Machine.execFetchStats p n s) := by
  have h : Moves K s s := Moves.refl s
  unfold Sys2Proof.Machine.execFetchStats
  repeat' first | with_reducible assumption | ((with_reducible refine Sub.mono hk ?_); rfl) | with_reducible exact Moves.next ‹_› | with_reducible apply Moves.next | with_reducible apply Ends.ite | with_reducible exact Ends.refused | with_reducible refine Moves.doorbell ?_ ?_ ?_ | with_reducible refine Moves.prtCommand ?_ ?_ | with_reducible apply Moves.ite | with_reducible intro _ _ _ _ _ | with_reducible intro _ _ _ | with_reducible intro _ _

theorem Ends.execPeekStats {p : Port} {n : Fin 8} {s : State} (hk : Sub 0x10000D004 K := by first | assumption | exact Sub.mono (by assumption) rfl) : Ends K s (Sys2Proof.Machine.execPeekStats p n s) := by
  have h : Moves K s s := Moves.refl s
  unfold Sys2Proof.Machine.execPeekStats
  repeat' first | with_reducible assumption | ((with_reducible refine Sub.mono hk ?_); rfl) | with_reducible exact Moves.next ‹_› | with_reducible apply Moves.next | with_reducible apply Ends.ite | with_reducible exact Ends.refused | with_reducible refine Moves.doorbell ?_ ?_ ?_ | with_reducible refine Moves.prtCommand ?_ ?_ | with_reducible apply Moves.ite | with_reducible intro _ _ _ _ _ | with_reducible intro _ _ _ | with_reducible intro _ _

theorem Ends.execTsqPop {p : Port} {n : Fin 8} {s : State} (hk : Sub 0x10000D004 K := by first | assumption | exact Sub.mono (by assumption) rfl) : Ends K s (Sys2Proof.Machine.execTsqPop p n s) := by
  have h : Moves K s s := Moves.refl s
  unfold Sys2Proof.Machine.execTsqPop
  repeat' first | with_reducible assumption | ((with_reducible refine Sub.mono hk ?_); rfl) | with_reducible exact Moves.next ‹_› | with_reducible apply Moves.next | with_reducible apply Ends.ite | with_reducible exact Ends.refused | with_reducible refine Moves.doorbell ?_ ?_ ?_ | with_reducible refine Moves.prtCommand ?_ ?_ | with_reducible apply Moves.ite | with_reducible intro _ _ _ _ _ | with_reducible intro _ _ _ | with_reducible intro _ _

theorem Ends.execWakeLoad {p : Port} {n : Fin 8} {s : State} (hk : Sub 0x10000D004 K := by first | assumption | exact Sub.mono (by assumption) rfl) : Ends K s (Sys2Proof.Machine.execWakeLoad p n s) := by
  have h : Moves K s s := Moves.refl s
  unfold Sys2Proof.Machine.execWakeLoad
  repeat' first | with_reducible assumption | ((with_reducible refine Sub.mono hk ?_); rfl) | with_reducible exact Moves.next ‹_› | with_reducible apply Moves.next | with_reducible apply Ends.ite | with_reducible exact Ends.refused | with_reducible refine Moves.doorbell ?_ ?_ ?_ | with_reducible refine Moves.prtCommand ?_ ?_ | with_reducible apply Moves.ite | with_reducible intro _ _ _ _ _ | with_reducible intro _ _ _ | with_reducible intro _ _

theorem Ends.execPrtLoopcal {p : Port} {n : Fin 8} {s : State} (hk : Sub 0x10000D004 K := by first | assumption | exact Sub.mono (by assumption) rfl) : Ends K s (Sys2Proof.Machine.execPrtLoopcal p n s) := by
  have h : Moves K s s := Moves.refl s
  unfold Sys2Proof.Machine.execPrtLoopcal
  repeat' first | with_reducible assumption | ((with_reducible refine Sub.mono hk ?_); rfl) | with_reducible exact Moves.next ‹_› | with_reducible apply Moves.next | with_reducible apply Ends.ite | with_reducible exact Ends.refused | with_reducible refine Moves.doorbell ?_ ?_ ?_ | with_reducible refine Moves.prtCommand ?_ ?_ | with_reducible apply Moves.ite | with_reducible intro _ _ _ _ _ | with_reducible intro _ _ _ | with_reducible intro _ _

theorem Ends.execPrtLoopcalDone {n : Fin 8} {diff : Int} {s : State} (hk : Sub 0x100000004 K := by first | assumption | exact Sub.mono (by assumption) rfl) : Ends K s (Sys2Proof.Machine.execPrtLoopcalDone n diff s) := by
  have h : Moves K s s := Moves.refl s
  unfold Sys2Proof.Machine.execPrtLoopcalDone
  repeat' first | with_reducible assumption | ((with_reducible refine Sub.mono hk ?_); rfl) | with_reducible exact Moves.next ‹_› | with_reducible apply Moves.next | with_reducible apply Ends.ite | with_reducible exact Ends.refused | with_reducible refine Moves.modPrt ?_ ?_ | with_reducible refine Moves.setSat ?_ ?_ | with_reducible refine Moves.setf ?_ ?_ | with_reducible refine Moves.complete ?_ ?_

theorem Moves.prtCtrlWritten {n old : Nat} {s0 s : State} (hs : Moves K s0 s) (hk : Sub 0x587D91006 K := by first | assumption | exact Sub.mono (by assumption) rfl) : Moves K s0 (State.prtCtrlWritten s n old) := by
  unfold State.prtCtrlWritten
  repeat' first | with_reducible assumption | ((with_reducible refine Sub.mono hk ?_); rfl) | with_reducible refine Moves.setf ?_ ?_ | with_reducible refine Moves.when ?_ ?_ | with_reducible refine Moves.portDownWith ?_ ?_ | with_reducible refine Moves.modPrt ?_ ?_ | with_reducible refine Moves.leaveDormant ?_ ?_ | with_reducible refine Moves.loseActivity ?_ ?_ | with_reducible refine Moves.portUp ?_ ?_ | with_reducible refine Moves.ev ?_ ?_ | with_reducible apply Moves.ite | with_reducible intro _ _ _ _ _ | with_reducible intro _ _ _ | with_reducible intro _ _ | extract_lets | split

theorem Moves.txclkWritten {n old : Nat} {s0 s : State} (hs : Moves K s0 s) (hk : Sub 0x587D91006 K := by first | assumption | exact Sub.mono (by assumption) rfl) : Moves K s0 (State.txclkWritten s n old) := by
  unfold State.txclkWritten
  repeat' first | with_reducible assumption | ((with_reducible refine Sub.mono hk ?_); rfl) | with_reducible refine Moves.retrain ?_ ?_ | with_reducible apply Moves.ite | with_reducible intro _ _ _ _ _ | with_reducible intro _ _ _ | with_reducible intro _ _ | extract_lets | split

theorem Moves.eqCtrlWritten {n old : Nat} {s0 s : State} (hs : Moves K s0 s) (hk : Sub 0x100400004 K := by first | assumption | exact Sub.mono (by assumption) rfl) : Moves K s0 (State.eqCtrlWritten s n old) := by
  unfold State.eqCtrlWritten
  repeat' first | with_reducible assumption | ((with_reducible refine Sub.mono hk ?_); rfl) | with_reducible refine Moves.setf ?_ ?_ | with_reducible refine Moves.startLinkSettle ?_ ?_ | with_reducible apply Moves.ite | with_reducible intro _ _ _ _ _ | with_reducible intro _ _ _ | with_reducible intro _ _ | extract_lets | split

theorem Moves.esmcWritten {s0 s : State} (hs : Moves K s0 s) (hk : Sub 0x580081004 K := by first | assumption | exact Sub.mono (by assumption) rfl) : Moves K s0 (State.esmcWritten s) := by
  unfold State.esmcWritten
  repeat' first | with_reducible assumption | with_reducible refine Moves.esmcRefresh ?_ ?_

theorem First.frameSend {a0 a1 a2 : Nat} {s0 s : State} (hs : Moves K s0 s) (hk : Sub 0xFFFFFFD9E K := by first | assumption | exact Sub.mono (by assumption) rfl) : First K s0 (State.frameSend s a0 a1 a2) := by
  unfold State.frameSend
  repeat' first | with_reducible assumption | ((with_reducible refine Sub.mono hk ?_); rfl) | with_reducible refine Moves.bankCheck ?_ ?_ | with_reducible refine Moves.enqueue ?_ ?_ | with_reducible apply Moves.ite | with_reducible apply First.ite | with_reducible intro _ _ _ _ _ | with_reducible intro _ _ _ | with_reducible intro _ _ | extract_lets | split | with_reducible apply First.mk

theorem First.frameRecv {a0 a1 a2 : Nat} {s0 s : State} (hs : Moves K s0 s) (hk : Sub 0x10000181C K := by first | assumption | exact Sub.mono (by assumption) rfl) : First K s0 (State.frameRecv s a0 a1 a2) := by
  unfold State.frameRecv
  repeat' first | with_reducible assumption | ((with_reducible refine Sub.mono hk ?_); rfl) | with_reducible refine Moves.bankWrite ?_ ?_ | with_reducible refine Moves.modPrt ?_ ?_ | with_reducible refine Moves.watermark ?_ ?_ | with_reducible apply Moves.ite | with_reducible apply First.ite | fail_if_no_progress (with_reducible refine Moves.plain ?_ ?_ ?_ ?_ ?_ ?_ ?_ ?_ ?_ ?_ ?_ ?_ ?_ ?_ ?_ ?_ ?_ <;> first | ((with_reducible refine Or.inr (Sub.bit hk ?_)); decide) | with_reducible exact Or.inl rfl | skip) | fail_if_no_progress (with_reducible refine Moves.plainNv ?_ rfl rfl rfl ?_ ?_ ?_ ?_ ?_ ?_ ?_ ?_ ?_ ?_ ?_ ?_ ?_ ?_ ?_ ?_ ?_ <;> first | ((with_reducible refine Or.inr (Sub.bit hk ?_)); decide) | with_reducible exact Or.inl rfl | skip) | with_reducible intro _ _ _ _ _ | with_reducible intro _ _ _ | with_reducible intro _ _ | extract_lets | split | with_reducible apply First.mk

end Sys2Proof.Machine
end

