-- ==== Sys2Proof/Laws/KeepPtpOps.lean ====
section
/-! SUPPORT. What the operations of Machine/PtpOps.lean keep: the queue, the canonical form of the tables, and the parts of the state outside those named. -/

set_option Elab.async false

set_option linter.unreachableTactic false
set_option linter.unusedTactic false

namespace Sys2Proof.Machine

variable {K : Nat}

theorem Moves.ptpSend {n q : Nat} {owner : TxOwner} {auth : Option Nat} {m : PtpMsg} {s0 s : State} (hs : Moves K s0 s) (hk : Sub 0x580081004 K := by first | assumption | exact Sub.mono (by assumption) rfl) : Moves K s0 (State.ptpSend s n q owner auth m) := by
  unfold State.ptpSend
  extract_lets m'
  clear_value m'
  repeat' first | with_reducible assumption | with_reducible refine Moves.enqueue ?_ ?_ | with_reducible apply Moves.ite | with_reducible intro _ _ _ _ _ | with_reducible intro _ _ _ | with_reducible intro _ _ | extract_lets | split

theorem Moves.discard {n : Nat} {s0 s : State} (hs : Moves K s0 s) (hk : Sub 0x4 K := by first | assumption | exact Sub.mono (by assumption) rfl) : Moves K s0 (State.discard s n) := by
  unfold State.discard
  repeat' first | with_reducible assumption | with_reducible refine Moves.inc ?_ ?_

theorem Moves.modUp {slot : Nat} {g : UpState → UpState} {s0 s : State} (hs : Moves K s0 s) (hk : Sub 0x400000000 K := by first | assumption | exact Sub.mono (by assumption) rfl) : Moves K s0 (State.modUp s slot g) := by
  unfold State.modUp
  repeat' first | with_reducible assumption | with_reducible refine Moves.modBerth ?_ ?_

theorem Moves.berthRank {slot : Nat} {s0 s : State} (hs : Moves K s0 s) (hk : Sub 0x587991004 K := by first | assumption | exact Sub.mono (by assumption) rfl) : Moves K s0 (State.berthRank s slot) := by
  unfold State.berthRank
  repeat' first | with_reducible assumption | ((with_reducible refine Sub.mono hk ?_); rfl) | with_reducible refine Moves.forL ?_ ?_ | with_reducible refine Moves.giveRank ?_ ?_ | with_reducible apply Moves.ite | with_reducible intro _ _ _ _ _ | with_reducible intro _ _ _ | with_reducible intro _ _ | extract_lets | split

theorem Moves.switchBest {n : Nat} {s0 s : State} (hs : Moves K s0 s) (hk : Sub 0x587991004 K := by first | assumption | exact Sub.mono (by assumption) rfl) : Moves K s0 (State.switchBest s n) := by
  unfold State.switchBest
  repeat' first | with_reducible assumption | ((with_reducible refine Sub.mono hk ?_); rfl) | with_reducible refine Moves.forL ?_ ?_ | with_reducible refine Moves.putRank ?_ ?_ | with_reducible refine Moves.freshEntry ?_ ?_ | with_reducible refine Moves.fault ?_ ?_ | with_reducible refine Moves.refreshRanks ?_ ?_ | with_reducible refine Moves.follow ?_ ?_ | with_reducible apply Moves.ite | with_reducible intro _ _ _ _ _ | with_reducible intro _ _ _ | with_reducible intro _ _ | extract_lets | split

theorem Moves.bmca {n : Nat} {s0 s : State} (hs : Moves K s0 s) (hk : Sub 0x587991004 K := by first | assumption | exact Sub.mono (by assumption) rfl) : Moves K s0 (State.bmca s n) := by
  unfold State.bmca
  repeat' first | with_reducible assumption | ((with_reducible refine Sub.mono hk ?_); rfl) | with_reducible refine Moves.setf ?_ ?_ | with_reducible refine Moves.setw ?_ ?_ | with_reducible refine Moves.ev ?_ ?_ | with_reducible refine Moves.switchBest ?_ ?_ | with_reducible apply Moves.ite

theorem Moves.refreshDisagree {k : Nat} {s0 s : State} (hs : Moves K s0 s) (hk : Sub 0x1004 K := by first | assumption | exact Sub.mono (by assumption) rfl) : Moves K s0 (State.refreshDisagree s k) := by
  unfold State.refreshDisagree
  repeat' first | with_reducible assumption | ((with_reducible refine Sub.mono hk ?_); rfl) | with_reducible refine Moves.forN ?_ ?_ | with_reducible refine Moves.setb ?_ ?_ | with_reducible refine Moves.evIf ?_ ?_ | with_reducible apply Moves.ite | with_reducible intro _ _ _ _ _ | with_reducible intro _ _ _

theorem Moves.upFollow {slot : Nat} {s0 s : State} (hs : Moves K s0 s) (hk : Sub 0x587991004 K := by first | assumption | exact Sub.mono (by assumption) rfl) : Moves K s0 (State.upFollow s slot) := by
  unfold State.upFollow
  repeat' first | with_reducible assumption | ((with_reducible refine Sub.mono hk ?_); rfl) | with_reducible refine Moves.berthRank ?_ ?_ | with_reducible refine Moves.bmca ?_ ?_ | with_reducible refine Moves.refreshDisagree ?_ ?_

theorem Moves.logDemotion {slot : Nat} {t : CorrTest} {dev : Int} {s0 s : State} (hs : Moves K s0 s) (hk : Sub 0x10000 K := by first | assumption | exact Sub.mono (by assumption) rfl) : Moves K s0 (State.logDemotion s slot t dev) := by
  unfold State.logDemotion
  repeat' first | with_reducible assumption | with_reducible refine Moves.logDev ?_ ?_

theorem Moves.demote {slot : Nat} {t : CorrTest} {dev : Int} {s0 s : State} (hs : Moves K s0 s) (hk : Sub 0x587991004 K := by first | assumption | exact Sub.mono (by assumption) rfl) : Moves K s0 (State.demote s slot t dev) := by
  unfold State.demote
  repeat' first | with_reducible assumption | ((with_reducible refine Sub.mono hk ?_); rfl) | with_reducible refine Moves.modUp ?_ ?_ | with_reducible refine Moves.ev ?_ ?_ | with_reducible refine Moves.logDemotion ?_ ?_ | with_reducible refine Moves.streamFault ?_ ?_ | with_reducible refine Moves.upFollow ?_ ?_ | with_reducible apply Moves.ite

theorem Moves.startLearning {slot : Nat} {s0 s : State} (hs : Moves K s0 s) (hk : Sub 0x400000000 K := by first | assumption | exact Sub.mono (by assumption) rfl) : Moves K s0 (State.startLearning s slot) := by
  unfold State.startLearning
  repeat' first | with_reducible assumption | with_reducible refine Moves.modUp ?_ ?_

theorem Moves.promote {slot : Nat} {s0 s : State} (hs : Moves K s0 s) (hk : Sub 0x587991004 K := by first | assumption | exact Sub.mono (by assumption) rfl) : Moves K s0 (State.promote s slot) := by
  unfold State.promote
  repeat' first | with_reducible assumption | ((with_reducible refine Sub.mono hk ?_); rfl) | with_reducible refine Moves.modUp ?_ ?_ | with_reducible refine Moves.startLearning ?_ ?_ | with_reducible refine Moves.ev ?_ ?_ | with_reducible refine Moves.upFollow ?_ ?_

theorem Moves.deliverPhase {slot : Nat} {tag : Tag} {m : Int} {t : Nat} {s0 s : State} (hs : Moves K s0 s) (hk : Sub 0x587991004 K := by first | assumption | exact Sub.mono (by assumption) rfl) : Moves K s0 (State.deliverPhase s slot tag m t) := by
  unfold State.deliverPhase
  repeat' first | with_reducible assumption | ((with_reducible refine Sub.mono hk ?_); rfl) | with_reducible refine Moves.forL ?_ ?_ | with_reducible refine Moves.entrySample ?_ ?_ | with_reducible refine Moves.modLoop ?_ ?_ | with_reducible apply Moves.ite | with_reducible intro _ _ _ _ _ | with_reducible intro _ _ _ | with_reducible intro _ _ | extract_lets | split

theorem Moves.useSample {slot : Nat} {offset m : Int} {t : Nat} {s0 s : State} (hs : Moves K s0 s) (hk : Sub 0x587991004 K := by first | assumption | exact Sub.mono (by assumption) rfl) : Moves K s0 (State.useSample s slot offset m t) := by
  unfold State.useSample
  repeat' first | with_reducible assumption | ((with_reducible refine Sub.mono hk ?_); rfl) | with_reducible refine Moves.modUp ?_ ?_ | with_reducible refine Moves.deliverPhase ?_ ?_ | with_reducible refine Moves.when ?_ ?_ | with_reducible refine Moves.streamFault ?_ ?_ | with_reducible apply Moves.ite | with_reducible intro _ _ _ _ _ | with_reducible intro _ _ _ | with_reducible intro _ _ | extract_lets | split

theorem Moves.learnSample {slot : Nat} {m ci : Int} {t : Nat} {s0 s : State} (hs : Moves K s0 s) (hk : Sub 0x400000000 K := by first | assumption | exact Sub.mono (by assumption) rfl) : Moves K s0 (State.learnSample s slot m ci t) := by
  unfold State.learnSample
  repeat' first | with_reducible assumption | ((with_reducible refine Sub.mono hk ?_); rfl) | with_reducible refine Moves.modUp ?_ ?_ | with_reducible apply Moves.ite | with_reducible intro _ _ _ _ _ | with_reducible intro _ _ _ | with_reducible intro _ _ | extract_lets | split

theorem Moves.judge {slot : Nat} {offset m ci : Int} {t : Nat} {s0 s : State} (hs : Moves K s0 s) (hk : Sub 0x587991004 K := by first | assumption | exact Sub.mono (by assumption) rfl) : Moves K s0 (State.judge s slot offset m ci t) := by
  unfold State.judge
  repeat' first | with_reducible assumption | ((with_reducible refine Sub.mono hk ?_); rfl) | with_reducible refine Moves.useSample ?_ ?_ | with_reducible refine Moves.learnSample ?_ ?_ | with_reducible refine Moves.modUp ?_ ?_ | with_reducible refine Moves.demote ?_ ?_ | with_reducible apply Moves.ite | with_reducible intro _ _ _ _ _ | with_reducible intro _ _ _ | with_reducible intro _ _ | extract_lets | split

theorem First.offsetOf {b : Berth} {ms : Int} {s0 s : State} (hs : Moves K s0 s) (hk : Sub 0x2 K := by first | assumption | exact Sub.mono (by assumption) rfl) : First K s0 (State.offsetOf s b ms) := by
  unfold State.offsetOf
  repeat' first | with_reducible assumption | ((with_reducible refine Sub.mono hk ?_); rfl) | with_reducible refine Moves.took ?_ ?_ | with_reducible apply Moves.ite | with_reducible apply First.ite | with_reducible intro _ _ _ _ _ | with_reducible intro _ _ _ | with_reducible intro _ _ | extract_lets | split | with_reducible apply First.mk

theorem Moves.useSync {slot : Nat} {t1 corr : Int} {t2 : Stamp} {at_ : Nat} {phi ci : Int} {s0 s : State} (hs : Moves K s0 s) (hk : Sub 0x587991006 K := by first | assumption | exact Sub.mono (by assumption) rfl) : Moves K s0 (State.useSync s slot t1 corr t2 at_ phi ci) := by
  unfold State.useSync
  repeat' first | with_reducible assumption | ((with_reducible refine Sub.mono hk ?_); rfl) | with_reducible refine Moves.modUp ?_ ?_ | with_reducible refine Moves.deliverPhase ?_ ?_ | with_reducible refine First.offsetOf ?_ ?_ | with_reducible refine (First.offsetOf ?_ ?_).out ‹_› | with_reducible refine (First.offsetOf ?_ ?_).fst | with_reducible refine Moves.judge ?_ ?_ | with_reducible refine Moves.learnSample ?_ ?_ | with_reducible refine Moves.refreshDisagree ?_ ?_ | with_reducible apply Moves.ite | with_reducible apply First.ite | with_reducible intro _ _ _ _ _ | with_reducible intro _ _ _ | with_reducible intro _ _ | extract_lets | split | with_reducible apply First.mk | dsimp +zetaDelta only

end Sys2Proof.Machine
end

