-- ==== Sys2Proof/Laws/KeepPtpRx.lean ====
section
/-! SUPPORT. What the operations of Machine/PtpRx.lean keep: the queue, the canonical form of the tables, and the parts of the state outside those named. -/

set_option Elab.async false

set_option linter.unreachableTactic false
set_option linter.unusedTactic false

namespace Sys2Proof.Machine

variable {K : Nat}

theorem Moves.authenticated {n slot : Nat} {f : PtpFrame} {g : State → State} {s0 s : State} (hs : Moves K s0 s) (hg : ∀ t, Moves K s0 t → Moves K s0 (g t)) (hk : Sub 0x400001004 K := by first | assumption | exact Sub.mono (by assumption) rfl) : Moves K s0 (State.authenticated s n slot f g) := by
  unfold State.authenticated
  repeat' first | with_reducible assumption | ((with_reducible refine Sub.mono hk ?_); rfl) | with_reducible apply hg | with_reducible refine Moves.inc ?_ ?_ | with_reducible refine Moves.ev ?_ ?_ | with_reducible refine Moves.modBerth ?_ ?_ | with_reducible apply Moves.ite | fail_if_no_progress (with_reducible refine Moves.plain ?_ ?_ ?_ ?_ ?_ ?_ ?_ ?_ ?_ ?_ ?_ ?_ ?_ ?_ ?_ ?_ ?_ <;> first | ((with_reducible refine Or.inr (Sub.bit hk ?_)); decide) | with_reducible exact Or.inl rfl | skip) | fail_if_no_progress (with_reducible refine Moves.plainNv ?_ rfl rfl rfl ?_ ?_ ?_ ?_ ?_ ?_ ?_ ?_ ?_ ?_ ?_ ?_ ?_ ?_ ?_ ?_ ?_ <;> first | ((with_reducible refine Or.inr (Sub.bit hk ?_)); decide) | with_reducible exact Or.inl rfl | skip) | with_reducible intro _ _ _ _ _ | with_reducible intro _ _ _ | with_reducible intro _ _ | extract_lets | split

theorem Moves.enterAdmission {n req : Nat} {m : PtpMsg} {per : Int} {s0 s : State} (hs : Moves K s0 s) (hk : Sub 0x200001004 K := by first | assumption | exact Sub.mono (by assumption) rfl) : Moves K s0 (State.enterAdmission s n req m per) := by
  unfold State.enterAdmission
  repeat' first | with_reducible assumption | ((with_reducible refine Sub.mono hk ?_); rfl) | with_reducible refine Moves.inc ?_ ?_ | with_reducible refine Moves.ev ?_ ?_ | with_reducible refine Moves.modPte ?_ ?_ | with_reducible refine Moves.setf ?_ ?_ | with_reducible refine Moves.evIf ?_ ?_ | with_reducible apply Moves.ite

theorem Moves.respond {n slot : Nat} {m : PtpMsg} {t : Stamp} {s0 s : State} (hs : Moves K s0 s) (hk : Sub 0x580081004 K := by first | assumption | exact Sub.mono (by assumption) rfl) : Moves K s0 (State.respond s n slot m t) := by
  unfold State.respond
  repeat' first | with_reducible assumption | ((with_reducible refine Sub.mono hk ?_); rfl) | with_reducible refine Moves.when ?_ ?_ | with_reducible refine Moves.modBerth ?_ ?_ | with_reducible refine Moves.ptpSend ?_ ?_ | with_reducible apply Moves.ite | with_reducible intro _ _ _ _ _ | with_reducible intro _ _ _ | with_reducible intro _ _ | extract_lets | split

theorem Moves.rxDelayReq {n : Nat} {f : PtpFrame} {s0 s : State} (hs : Moves K s0 s) (hk : Sub 0x780081004 K := by first | assumption | exact Sub.mono (by assumption) rfl) : Moves K s0 (State.rxDelayReq s n f) := by
  unfold State.rxDelayReq
  repeat' first | with_reducible assumption | ((with_reducible refine Sub.mono hk ?_); rfl) | with_reducible refine Moves.discard ?_ ?_ | with_reducible refine Moves.authenticated ?_ ?_ ?_ | with_reducible refine Moves.respond ?_ ?_ | with_reducible refine Moves.enterAdmission ?_ ?_ | with_reducible apply Moves.ite | with_reducible intro _ _ _ _ _ | with_reducible intro _ _ _ | with_reducible intro _ _ | extract_lets | split

theorem Moves.sendSignaling {slot : Nat} {dst : PtpAddr} {tlvs : List SigTlv} {s0 s : State} (hs : Moves K s0 s) (hk : Sub 0x580081004 K := by first | assumption | exact Sub.mono (by assumption) rfl) : Moves K s0 (State.sendSignaling s slot dst tlvs) := by
  unfold State.sendSignaling
  repeat' first | with_reducible assumption | ((with_reducible refine Sub.mono hk ?_); rfl) | with_reducible refine Moves.modBerth ?_ ?_ | with_reducible refine Moves.ptpSend ?_ ?_ | with_reducible apply Moves.ite | with_reducible intro _ _ _ _ _ | with_reducible intro _ _ _ | with_reducible intro _ _ | extract_lets | split

theorem First.clientTlv {slot : Nat} {t : SigTlv} {s0 s : State} (hs : Moves K s0 s) (hk : Sub 0x400001004 K := by first | assumption | exact Sub.mono (by assumption) rfl) : First K s0 (State.clientTlv s slot t) := by
  unfold State.clientTlv
  repeat' first | with_reducible assumption | ((with_reducible refine Sub.mono hk ?_); rfl) | with_reducible refine Moves.modBerth ?_ ?_ | with_reducible refine Moves.ev ?_ ?_ | with_reducible apply Moves.ite | with_reducible apply First.ite | with_reducible intro _ _ _ _ _ | with_reducible intro _ _ _ | with_reducible intro _ _ | extract_lets | split | with_reducible apply First.mk

theorem Moves.grantFails {slot : Nat} {k : GrantKind} {s0 s : State} (hs : Moves K s0 s) (hk : Sub 0x400001004 K := by first | assumption | exact Sub.mono (by assumption) rfl) : Moves K s0 (State.grantFails s slot k) := by
  unfold State.grantFails
  repeat' first | with_reducible assumption | ((with_reducible refine Sub.mono hk ?_); rfl) | with_reducible refine Moves.modUp ?_ ?_ | with_reducible refine Moves.evIf ?_ ?_ | with_reducible apply Moves.ite | with_reducible intro _ _ _ _ _ | with_reducible intro _ _ _ | with_reducible intro _ _ | extract_lets | split

theorem First.upTlv {slot : Nat} {t : SigTlv} {s0 s : State} (hs : Moves K s0 s) (hk : Sub 0x400001004 K := by first | assumption | exact Sub.mono (by assumption) rfl) : First K s0 (State.upTlv s slot t) := by
  unfold State.upTlv
  repeat' first | with_reducible assumption | ((with_reducible refine Sub.mono hk ?_); rfl) | with_reducible refine Moves.grantFails ?_ ?_ | with_reducible refine Moves.when ?_ ?_ | with_reducible refine Moves.modUp ?_ ?_ | with_reducible refine Moves.modBerth ?_ ?_ | with_reducible apply Moves.ite | with_reducible apply First.ite | with_reducible intro _ _ _ _ _ | with_reducible intro _ _ _ | with_reducible intro _ _ | extract_lets | split | with_reducible apply First.mk

theorem First.tlvs {g : State → SigTlv → State × List SigTlv} {ts : List SigTlv} {s0 s : State} (h : Moves K s0 s)
    (hg : ∀ t x, Moves K s0 t → First K s0 (g t x)) : First K s0 (State.tlvs g s ts) := by
  induction ts generalizing s with
  | nil => exact h
  | cons t ts ih => exact ih (hg _ _ h)

theorem Moves.rxUnknown {n : Nat} {m : PtpMsg} {s0 s : State} (hs : Moves K s0 s) (hk : Sub 0x780081004 K := by first | assumption | exact Sub.mono (by assumption) rfl) : Moves K s0 (State.rxUnknown s n m) := by
  unfold State.rxUnknown
  repeat' first | with_reducible assumption | ((with_reducible refine Sub.mono hk ?_); rfl) | with_reducible refine (First.tlvs ?_ ?_).fst | with_reducible refine Moves.discard ?_ ?_ | with_reducible refine Moves.forL ?_ ?_ | with_reducible refine Moves.enterAdmission ?_ ?_ | with_reducible refine Moves.ptpSend ?_ ?_ | with_reducible apply Moves.ite | fail_if_no_progress (with_reducible refine Moves.plain ?_ ?_ ?_ ?_ ?_ ?_ ?_ ?_ ?_ ?_ ?_ ?_ ?_ ?_ ?_ ?_ ?_ <;> first | ((with_reducible refine Or.inr (Sub.bit hk ?_)); decide) | with_reducible exact Or.inl rfl | skip) | fail_if_no_progress (with_reducible refine Moves.plainNv ?_ rfl rfl rfl ?_ ?_ ?_ ?_ ?_ ?_ ?_ ?_ ?_ ?_ ?_ ?_ ?_ ?_ ?_ ?_ ?_ <;> first | ((with_reducible refine Or.inr (Sub.bit hk ?_)); decide) | with_reducible exact Or.inl rfl | skip) | with_reducible intro _ _ _ _ _ | with_reducible intro _ _ _

theorem Moves.hostPart {n : Nat} {f : PtpFrame} {s0 s : State} (hs : Moves K s0 s) (hk : Sub 0x100001004 K := by first | assumption | exact Sub.mono (by assumption) rfl) : Moves K s0 (State.hostPart s n f) := by
  unfold State.hostPart
  repeat' first | with_reducible assumption | ((with_reducible refine Sub.mono hk ?_); rfl) | with_reducible refine Moves.rxHost ?_ ?_ | with_reducible apply Moves.ite | with_reducible intro _ _ _ _ _ | with_reducible intro _ _ _ | with_reducible intro _ _ | extract_lets | split

theorem Moves.ptpToHost {n : Nat} {f : PtpFrame} {s0 s : State} (hs : Moves K s0 s) (hk : Sub 0x500001004 K := by first | assumption | exact Sub.mono (by assumption) rfl) : Moves K s0 (State.ptpToHost s n f) := by
  unfold State.ptpToHost
  repeat' first | with_reducible assumption | ((with_reducible refine Sub.mono hk ?_); rfl) | with_reducible refine Moves.authenticated ?_ ?_ ?_ | with_reducible refine Moves.hostPart ?_ ?_ | with_reducible refine Moves.discard ?_ ?_ | with_reducible apply Moves.ite | with_reducible intro _ _ _ _ _ | with_reducible intro _ _ _ | with_reducible intro _ _ | extract_lets | split

theorem Moves.rxSignaling {n : Nat} {f : PtpFrame} {s0 s : State} (hs : Moves K s0 s) (hk : Sub 0x780081004 K := by first | assumption | exact Sub.mono (by assumption) rfl) : Moves K s0 (State.rxSignaling s n f) := by
  unfold State.rxSignaling
  repeat' first | with_reducible assumption | ((with_reducible refine Sub.mono hk ?_); rfl) | with_reducible refine Moves.discard ?_ ?_ | with_reducible refine Moves.authenticated ?_ ?_ ?_ | with_reducible refine First.tlvs ?_ ?_ | with_reducible refine (First.tlvs ?_ ?_).out ‹_› | with_reducible refine (First.tlvs ?_ ?_).fst | with_reducible refine First.clientTlv ?_ ?_ | with_reducible refine (First.clientTlv ?_ ?_).out ‹_› | with_reducible refine (First.clientTlv ?_ ?_).fst | with_reducible refine Moves.hostPart ?_ ?_ | with_reducible refine Moves.sendSignaling ?_ ?_ | with_reducible refine First.upTlv ?_ ?_ | with_reducible refine (First.upTlv ?_ ?_).out ‹_› | with_reducible refine (First.upTlv ?_ ?_).fst | with_reducible refine Moves.rxUnknown ?_ ?_ | with_reducible apply Moves.ite | with_reducible apply First.ite | with_reducible intro _ _ _ _ _ | with_reducible intro _ _ _ | with_reducible intro _ _ | extract_lets | split | with_reducible apply First.mk | dsimp +zetaDelta only

theorem Moves.fuLost {n : Nat} {s0 s : State} (hs : Moves K s0 s) (hk : Sub 0x1004 K := by first | assumption | exact Sub.mono (by assumption) rfl) : Moves K s0 (State.fuLost s n) := by
  unfold State.fuLost
  repeat' first | with_reducible assumption | ((with_reducible refine Sub.mono hk ?_); rfl) | with_reducible refine Moves.inc ?_ ?_ | with_reducible refine Moves.ev ?_ ?_

theorem Moves.upSync {n slot : Nat} {f : PtpFrame} {s0 s : State} (hs : Moves K s0 s) (hk : Sub 0x587991006 K := by first | assumption | exact Sub.mono (by assumption) rfl) : Moves K s0 (State.upSync s n slot f) := by
  unfold State.upSync
  repeat' first | with_reducible assumption | ((with_reducible refine Sub.mono hk ?_); rfl) | with_reducible refine Moves.useSync ?_ ?_ | with_reducible refine Moves.modUp ?_ ?_ | with_reducible refine Moves.fuLost ?_ ?_ | with_reducible apply Moves.ite | with_reducible intro _ _ _ _ _ | with_reducible intro _ _ _ | with_reducible intro _ _ | extract_lets | split

theorem Moves.upFollowUp {n slot : Nat} {f : PtpFrame} {s0 s : State} (hs : Moves K s0 s) (hk : Sub 0x587991006 K := by first | assumption | exact Sub.mono (by assumption) rfl) : Moves K s0 (State.upFollowUp s n slot f) := by
  unfold State.upFollowUp
  repeat' first | with_reducible assumption | ((with_reducible refine Sub.mono hk ?_); rfl) | with_reducible refine Moves.ev ?_ ?_ | with_reducible refine Moves.inc ?_ ?_ | with_reducible refine Moves.modUp ?_ ?_ | with_reducible refine Moves.useSync ?_ ?_ | with_reducible apply Moves.ite | with_reducible intro _ _ _ _ _ | with_reducible intro _ _ _ | with_reducible intro _ _ | extract_lets | split

theorem Moves.upDelayResp {n slot : Nat} {f : PtpFrame} {s0 s : State} (hs : Moves K s0 s) (hk : Sub 0x400000004 K := by first | assumption | exact Sub.mono (by assumption) rfl) : Moves K s0 (State.upDelayResp s n slot f) := by
  unfold State.upDelayResp
  repeat' first | with_reducible assumption | ((with_reducible refine Sub.mono hk ?_); rfl) | with_reducible refine Moves.discard ?_ ?_ | with_reducible refine Moves.modUp ?_ ?_ | with_reducible apply Moves.ite | fail_if_no_progress (with_reducible refine Moves.plain ?_ ?_ ?_ ?_ ?_ ?_ ?_ ?_ ?_ ?_ ?_ ?_ ?_ ?_ ?_ ?_ ?_ <;> first | ((with_reducible refine Or.inr (Sub.bit hk ?_)); decide) | with_reducible exact Or.inl rfl | skip) | fail_if_no_progress (with_reducible refine Moves.plainNv ?_ rfl rfl rfl ?_ ?_ ?_ ?_ ?_ ?_ ?_ ?_ ?_ ?_ ?_ ?_ ?_ ?_ ?_ ?_ ?_ <;> first | ((with_reducible refine Or.inr (Sub.bit hk ?_)); decide) | with_reducible exact Or.inl rfl | skip) | with_reducible intro _ _ _ _ _ | with_reducible intro _ _ _ | with_reducible intro _ _ | extract_lets | split

theorem Moves.upAnnounce {slot : Nat} {f : PtpFrame} {s0 s : State} (hs : Moves K s0 s) (hk : Sub 0x587991004 K := by first | assumption | exact Sub.mono (by assumption) rfl) : Moves K s0 (State.upAnnounce s slot f) := by
  unfold State.upAnnounce
  repeat' first | with_reducible assumption | ((with_reducible refine Sub.mono hk ?_); rfl) | with_reducible refine Moves.modUp ?_ ?_ | with_reducible refine Moves.upFollow ?_ ?_

theorem Moves.fromUp {n : Nat} {f : PtpFrame} {listens : Bool} {g : State → Nat → State} {s0 s : State} (hs : Moves K s0 s) (hg : ∀ t x, Moves K s0 t → Moves K s0 (g t x)) (hk : Sub 0x400001004 K := by first | assumption | exact Sub.mono (by assumption) rfl) : Moves K s0 (State.fromUp s n f listens g) := by
  unfold State.fromUp
  repeat' first | with_reducible assumption | ((with_reducible refine Sub.mono hk ?_); rfl) | with_reducible apply hg | with_reducible refine Moves.authenticated ?_ ?_ ?_ | with_reducible refine Moves.discard ?_ ?_ | with_reducible apply Moves.ite | with_reducible intro _ _ _ _ _ | with_reducible intro _ _ _ | with_reducible intro _ _ | extract_lets | split

theorem Moves.ptpMsg {n : Nat} {f : PtpFrame} {s0 s : State} (hs : Moves K s0 s) (hk : Sub 0x787991006 K := by first | assumption | exact Sub.mono (by assumption) rfl) : Moves K s0 (State.ptpMsg s n f) := by
  unfold State.ptpMsg
  repeat' first | with_reducible assumption | ((with_reducible refine Sub.mono hk ?_); rfl) | with_reducible refine Moves.discard ?_ ?_ | with_reducible refine Moves.fromUp ?_ ?_ ?_ | with_reducible refine Moves.upSync ?_ ?_ | with_reducible refine Moves.upFollowUp ?_ ?_ | with_reducible refine Moves.upDelayResp ?_ ?_ | with_reducible refine Moves.upAnnounce ?_ ?_ | with_reducible refine Moves.rxDelayReq ?_ ?_ | with_reducible refine Moves.ptpToHost ?_ ?_ | with_reducible refine Moves.rxSignaling ?_ ?_ | with_reducible apply Moves.ite | with_reducible intro _ _ _ _ _ | with_reducible intro _ _ _ | with_reducible intro _ _ | extract_lets | split

theorem Moves.rxPtp {n : Nat} {f : PtpFrame} {s0 s : State} (hs : Moves K s0 s) (hk : Sub 0x787991006 K := by first | assumption | exact Sub.mono (by assumption) rfl) : Moves K s0 (State.rxPtp s n f) := by
  unfold State.rxPtp
  repeat' first | with_reducible assumption | ((with_reducible refine Sub.mono hk ?_); rfl) | with_reducible refine Moves.wharfDrop ?_ ?_ | with_reducible refine Moves.count ?_ ?_ | with_reducible refine Moves.settleFrame ?_ ?_ | with_reducible refine Moves.modPrt ?_ ?_ | with_reducible refine Moves.ptpMsg ?_ ?_ | with_reducible apply Moves.ite | with_reducible intro _ _ _ _ _ | with_reducible intro _ _ _ | with_reducible intro _ _ | extract_lets | split

theorem Moves.rxFrame {n : Nat} {f : RxFrame} {s0 s : State} (hs : Moves K s0 s) (hk : Sub 0x787991006 K := by first | assumption | exact Sub.mono (by assumption) rfl) : Moves K s0 (State.rxFrame s n f) := by
  unfold State.rxFrame
  repeat' first | with_reducible assumption | ((with_reducible refine Sub.mono hk ?_); rfl) | with_reducible refine Moves.rxLine ?_ ?_ | with_reducible refine Moves.wharfDrop ?_ ?_ | with_reducible refine Moves.wake ?_ ?_ | with_reducible refine First.rxCount ?_ ?_ | with_reducible refine (First.rxCount ?_ ?_).out ‹_› | with_reducible refine (First.rxCount ?_ ?_).fst | with_reducible refine Moves.rxControl ?_ ?_ | with_reducible refine Moves.count ?_ ?_ | with_reducible refine Moves.rxEsmc ?_ ?_ | with_reducible refine Moves.ptpMsg ?_ ?_ | with_reducible refine Moves.rxHost ?_ ?_ | with_reducible apply Moves.ite | with_reducible apply First.ite | with_reducible intro _ _ _ _ _ | with_reducible intro _ _ _ | with_reducible intro _ _ | extract_lets | split | with_reducible apply First.mk

theorem Ends.execFrameReceived {n : Fin 8} {f : RxFrame} {s : State} (hk : Sub 0x787991006 K := by first | assumption | exact Sub.mono (by assumption) rfl) : Ends K s (Sys2Proof.Machine.execFrameReceived n f s) := by
  have h : Moves K s s := Moves.refl s
  unfold Sys2Proof.Machine.execFrameReceived
  repeat' first | with_reducible assumption | with_reducible exact Moves.next ‹_› | with_reducible apply Moves.next | with_reducible apply Ends.ite | with_reducible exact Ends.refused | with_reducible refine Moves.rxFrame ?_ ?_

theorem Ends.execEsmcPduReceived {n : Fin 8} {f : RxFrame} {s : State} (hk : Sub 0x787991006 K := by first | assumption | exact Sub.mono (by assumption) rfl) : Ends K s (Sys2Proof.Machine.execEsmcPduReceived n f s) := by
  have h : Moves K s s := Moves.refl s
  unfold Sys2Proof.Machine.execEsmcPduReceived
  repeat' first | with_reducible assumption | with_reducible exact Moves.next ‹_› | with_reducible apply Moves.next | with_reducible apply Ends.ite | with_reducible exact Ends.refused | with_reducible refine Moves.rxFrame ?_ ?_

theorem Ends.execPauseReceived {n : Fin 8} {f : RxFrame} {s : State} (hk : Sub 0x787991006 K := by first | assumption | exact Sub.mono (by assumption) rfl) : Ends K s (Sys2Proof.Machine.execPauseReceived n f s) := by
  have h : Moves K s s := Moves.refl s
  unfold Sys2Proof.Machine.execPauseReceived
  repeat' first | with_reducible assumption | with_reducible exact Moves.next ‹_› | with_reducible apply Moves.next | with_reducible apply Ends.ite | with_reducible exact Ends.refused | with_reducible refine Moves.rxFrame ?_ ?_

theorem Ends.execSyncReceived {n : Fin 8} {f : PtpFrame} {s : State} (hk : Sub 0x787991006 K := by first | assumption | exact Sub.mono (by assumption) rfl) : Ends K s (Sys2Proof.Machine.execSyncReceived n f s) := by
  have h : Moves K s s := Moves.refl s
  unfold Sys2Proof.Machine.execSyncReceived
  repeat' first | with_reducible assumption | with_reducible exact Moves.next ‹_› | with_reducible apply Moves.next | with_reducible apply Ends.ite | with_reducible exact Ends.refused | with_reducible refine Moves.rxPtp ?_ ?_

theorem Ends.execDelayReqReceived {n : Fin 8} {f : PtpFrame} {s : State} (hk : Sub 0x787991006 K := by first | assumption | exact Sub.mono (by assumption) rfl) : Ends K s (Sys2Proof.Machine.execDelayReqReceived n f s) := by
  have h : Moves K s s := Moves.refl s
  unfold Sys2Proof.Machine.execDelayReqReceived
  repeat' first | with_reducible assumption | with_reducible exact Moves.next ‹_› | with_reducible apply Moves.next | with_reducible apply Ends.ite | with_reducible exact Ends.refused | with_reducible refine Moves.rxPtp ?_ ?_

theorem Ends.execFollowUpReceived {n : Fin 8} {f : PtpFrame} {s : State} (hk : Sub 0x787991006 K := by first | assumption | exact Sub.mono (by assumption) rfl) : Ends K s (Sys2Proof.Machine.execFollowUpReceived n f s) := by
  have h : Moves K s s := Moves.refl s
  unfold Sys2Proof.Machine.execFollowUpReceived
  repeat' first | with_reducible assumption | with_reducible exact Moves.next ‹_› | with_reducible apply Moves.next | with_reducible apply Ends.ite | with_reducible exact Ends.refused | with_reducible refine Moves.rxPtp ?_ ?_

theorem Ends.execDelayRespReceived {n : Fin 8} {f : PtpFrame} {s : State} (hk : Sub 0x787991006 K := by first | assumption | exact Sub.mono (by assumption) rfl) : Ends K s (Sys2Proof.Machine.execDelayRespReceived n f s) := by
  have h : Moves K s s := Moves.refl s
  unfold Sys2Proof.Machine.execDelayRespReceived
  repeat' first | with_reducible assumption | with_reducible exact Moves.next ‹_› | with_reducible apply Moves.next | with_reducible apply Ends.ite | with_reducible exact Ends.refused | with_reducible refine Moves.rxPtp ?_ ?_

theorem Ends.execAnnounceReceived {n : Fin 8} {f : PtpFrame} {s : State} (hk : Sub 0x787991006 K := by first | assumption | exact Sub.mono (by assumption) rfl) : Ends K s (Sys2Proof.Machine.execAnnounceReceived n f s) := by
  have h : Moves K s s := Moves.refl s
  unfold Sys2Proof.Machine.execAnnounceReceived
  repeat' first | with_reducible assumption | with_reducible exact Moves.next ‹_› | with_reducible apply Moves.next | with_reducible apply Ends.ite | with_reducible exact Ends.refused | with_reducible refine Moves.rxPtp ?_ ?_

theorem Ends.execSignalingReceived {n : Fin 8} {f : PtpFrame} {s : State} (hk : Sub 0x787991006 K := by first | assumption | exact Sub.mono (by assumption) rfl) : Ends K s (Sys2Proof.Machine.execSignalingReceived n f s) := by
  have h : Moves K s s := Moves.refl s
  unfold Sys2Proof.Machine.execSignalingReceived
  repeat' first | with_reducible assumption | with_reducible exact Moves.next ‹_› | with_reducible apply Moves.next | with_reducible apply Ends.ite | with_reducible exact Ends.refused | with_reducible refine Moves.rxPtp ?_ ?_

end Sys2Proof.Machine
end

