-- ==== Sys2Proof/Laws/KeepPtpTx.lean ====
section
/-! SUPPORT. What the operations of Machine/PtpTx.lean keep: the queue, the canonical form of the tables, and the parts of the state outside those named. -/

set_option Elab.async false

set_option linter.unreachableTactic false
set_option linter.unusedTactic false

namespace Sys2Proof.Machine

variable {K : Nat}

theorem Second.takeSeq {n : Nat} {slot : Option Nat} {ann : Bool} {s0 s : State} (hs : Moves K s0 s) (hk : Sub 0x600000000 K := by first | assumption | exact Sub.mono (by assumption) rfl) : Second K s0 (State.takeSeq s n slot ann) := by
  unfold State.takeSeq
  repeat' first | with_reducible assumption | ((with_reducible refine Sub.mono hk ?_); rfl) | with_reducible refine Moves.modBerth ?_ ?_ | with_reducible refine Moves.modPte ?_ ?_ | with_reducible apply Moves.ite | with_reducible apply Second.ite | fail_if_no_progress (with_reducible refine Moves.plain ?_ ?_ ?_ ?_ ?_ ?_ ?_ ?_ ?_ ?_ ?_ ?_ ?_ ?_ ?_ ?_ ?_ <;> first | ((with_reducible refine Or.inr (Sub.bit hk ?_)); decide) | with_reducible exact Or.inl rfl | skip) | fail_if_no_progress (with_reducible refine Moves.plainNv ?_ rfl rfl rfl ?_ ?_ ?_ ?_ ?_ ?_ ?_ ?_ ?_ ?_ ?_ ?_ ?_ ?_ ?_ ?_ ?_ <;> first | ((with_reducible refine Or.inr (Sub.bit hk ?_)); decide) | with_reducible exact Or.inl rfl | skip) | with_reducible intro _ _ _ _ _ | with_reducible intro _ _ _ | with_reducible intro _ _ | extract_lets | split | with_reducible apply Second.mk

theorem Moves.sendSync {n : Nat} {slot : Option Nat} {s0 s : State} (hs : Moves K s0 s) (hk : Sub 0x780081004 K := by first | assumption | exact Sub.mono (by assumption) rfl) : Moves K s0 (State.sendSync s n slot) := by
  unfold State.sendSync
  repeat' first | with_reducible assumption | ((with_reducible refine Sub.mono hk ?_); rfl) | with_reducible refine Second.takeSeq ?_ ?_ | with_reducible refine (Second.takeSeq ?_ ?_).out ‹_› | with_reducible refine (Second.takeSeq ?_ ?_).snd | with_reducible refine Moves.ptpSend ?_ ?_

theorem Moves.sendAnnounce {n : Nat} {slot : Option Nat} {s0 s : State} (hs : Moves K s0 s) (hk : Sub 0x780081004 K := by first | assumption | exact Sub.mono (by assumption) rfl) : Moves K s0 (State.sendAnnounce s n slot) := by
  unfold State.sendAnnounce
  repeat' first | with_reducible assumption | ((with_reducible refine Sub.mono hk ?_); rfl) | with_reducible refine Second.takeSeq ?_ ?_ | with_reducible refine (Second.takeSeq ?_ ?_).out ‹_› | with_reducible refine (Second.takeSeq ?_ ?_).snd | with_reducible refine Moves.ptpSend ?_ ?_

theorem Ends.execSyncTxInterval {n : Fin 8} {slot : Option (Fin 8192)} {s : State} (hk : Sub 0x780081004 K := by first | assumption | exact Sub.mono (by assumption) rfl) : Ends K s (Sys2Proof.Machine.execSyncTxInterval n slot s) := by
  have h : Moves K s s := Moves.refl s
  unfold Sys2Proof.Machine.execSyncTxInterval
  repeat' first | with_reducible assumption | with_reducible exact Moves.next ‹_› | with_reducible apply Moves.next | with_reducible apply Ends.ite | with_reducible exact Ends.refused | with_reducible refine Moves.sendSync ?_ ?_

theorem Ends.execAnnounceTxInterval {n : Fin 8} {slot : Option (Fin 8192)} {s : State} (hk : Sub 0x780081004 K := by first | assumption | exact Sub.mono (by assumption) rfl) : Ends K s (Sys2Proof.Machine.execAnnounceTxInterval n slot s) := by
  have h : Moves K s s := Moves.refl s
  unfold Sys2Proof.Machine.execAnnounceTxInterval
  repeat' first | with_reducible assumption | with_reducible exact Moves.next ‹_› | with_reducible apply Moves.next | with_reducible apply Ends.ite | with_reducible exact Ends.refused | with_reducible refine Moves.sendAnnounce ?_ ?_

theorem Moves.sendDelayReq {slot : Nat} {s0 s : State} (hs : Moves K s0 s) (hk : Sub 0x580081004 K := by first | assumption | exact Sub.mono (by assumption) rfl) : Moves K s0 (State.sendDelayReq s slot) := by
  unfold State.sendDelayReq
  repeat' first | with_reducible assumption | ((with_reducible refine Sub.mono hk ?_); rfl) | with_reducible refine Moves.modUp ?_ ?_ | with_reducible refine Moves.ev ?_ ?_ | with_reducible refine Moves.inc ?_ ?_ | with_reducible refine Moves.modBerth ?_ ?_ | with_reducible refine Moves.ptpSend ?_ ?_ | with_reducible apply Moves.ite | with_reducible intro _ _ _ _ _ | with_reducible intro _ _ _ | with_reducible intro _ _ | extract_lets | split

theorem Ends.execDelayReqTxInterval {slot : Fin 8192} {s : State} (hk : Sub 0x580081004 K := by first | assumption | exact Sub.mono (by assumption) rfl) : Ends K s (Sys2Proof.Machine.execDelayReqTxInterval slot s) := by
  have h : Moves K s s := Moves.refl s
  unfold Sys2Proof.Machine.execDelayReqTxInterval
  repeat' first | with_reducible assumption | with_reducible exact Moves.next ‹_› | with_reducible apply Moves.next | with_reducible apply Ends.ite | with_reducible exact Ends.refused | with_reducible refine Moves.sendDelayReq ?_ ?_

theorem Moves.sendFollowUp {n : Nat} {m : PtpMsg} {t : Stamp} {s0 s : State} (hs : Moves K s0 s) (hk : Sub 0x580081004 K := by first | assumption | exact Sub.mono (by assumption) rfl) : Moves K s0 (State.sendFollowUp s n m t) := by
  unfold State.sendFollowUp
  repeat' first | with_reducible assumption | ((with_reducible refine Sub.mono hk ?_); rfl) | with_reducible refine Moves.ptpSend ?_ ?_ | with_reducible apply Moves.ite | with_reducible intro _ _ _ _ _ | with_reducible intro _ _ _ | with_reducible intro _ _ | extract_lets | split

theorem Moves.engineStamp {n : Nat} {slot : Option Nat} {m : PtpMsg} {t : Stamp} {s0 s : State} (hs : Moves K s0 s) (hk : Sub 0x580081004 K := by first | assumption | exact Sub.mono (by assumption) rfl) : Moves K s0 (State.engineStamp s n slot m t) := by
  unfold State.engineStamp
  repeat' first | with_reducible assumption | ((with_reducible refine Sub.mono hk ?_); rfl) | with_reducible refine Moves.reportServed ?_ ?_ | with_reducible refine Moves.when ?_ ?_ | with_reducible refine Moves.sendFollowUp ?_ ?_ | with_reducible refine Moves.modPrt ?_ ?_ | with_reducible refine Moves.modUp ?_ ?_ | with_reducible apply Moves.ite | with_reducible intro _ _ _ _ _ | with_reducible intro _ _ _ | with_reducible intro _ _ | extract_lets | split

theorem Moves.stampOwner {n : Nat} {f : TxFrame} {t : Stamp} {s0 s : State} (hs : Moves K s0 s) (hk : Sub 0x580081004 K := by first | assumption | exact Sub.mono (by assumption) rfl) : Moves K s0 (State.stampOwner s n f t) := by
  unfold State.stampOwner
  repeat' first | with_reducible assumption | ((with_reducible refine Sub.mono hk ?_); rfl) | with_reducible refine Moves.tsqPush ?_ ?_ | with_reducible refine Moves.evqPush ?_ ?_ | with_reducible refine Moves.engineStamp ?_ ?_ | with_reducible apply Moves.ite | with_reducible intro _ _ _ _ _ | with_reducible intro _ _ _ | with_reducible intro _ _ | extract_lets | split

theorem First.wharfStamp {cap : StampCap} {full : Bool} {s0 s : State} (hs : Moves K s0 s) (hk : Sub 0x4 K := by first | assumption | exact Sub.mono (by assumption) rfl) : First K s0 (State.wharfStamp s cap full) := by
  unfold State.wharfStamp
  repeat' first | with_reducible assumption | ((with_reducible refine Sub.mono hk ?_); rfl) | with_reducible refine Moves.wharfDrop ?_ ?_ | with_reducible apply Moves.ite | with_reducible apply First.ite | with_reducible intro _ _ _ _ _ | with_reducible intro _ _ _ | with_reducible intro _ _ | extract_lets | split | with_reducible apply First.mk

theorem Ends.execTxStampDelivery {n : Fin 8} {x : TxCapture} {s : State} (hk : Sub 0x580081004 K := by first | assumption | exact Sub.mono (by assumption) rfl) : Ends K s (Sys2Proof.Machine.execTxStampDelivery n x s) := by
  have h : Moves K s s := Moves.refl s
  unfold Sys2Proof.Machine.execTxStampDelivery
  repeat' first | with_reducible assumption | ((with_reducible refine Sub.mono hk ?_); rfl) | with_reducible exact Moves.next ‹_› | with_reducible apply Moves.next | with_reducible apply Ends.ite | with_reducible exact Ends.refused | with_reducible refine Moves.drainAll ?_ ?_ | with_reducible refine First.wharfStamp ?_ ?_ | with_reducible refine (First.wharfStamp ?_ ?_).out ‹_› | with_reducible refine (First.wharfStamp ?_ ?_).fst | with_reducible refine Moves.setf ?_ ?_ | with_reducible refine Moves.sent ?_ ?_ | with_reducible refine Moves.stampOwner ?_ ?_ | with_reducible apply Moves.ite | with_reducible apply First.ite | with_reducible intro _ _ _ _ _ | with_reducible intro _ _ _ | with_reducible intro _ _ | extract_lets | split | with_reducible apply First.mk

theorem Ends.execFollowUpTimeout {slot : Fin 8192} {s : State} (hk : Sub 0x400001004 K := by first | assumption | exact Sub.mono (by assumption) rfl) : Ends K s (Sys2Proof.Machine.execFollowUpTimeout slot s) := by
  have h : Moves K s s := Moves.refl s
  unfold Sys2Proof.Machine.execFollowUpTimeout
  repeat' first | with_reducible assumption | ((with_reducible refine Sub.mono hk ?_); rfl) | with_reducible exact Moves.next ‹_› | with_reducible apply Moves.next | with_reducible apply Ends.ite | with_reducible exact Ends.refused | with_reducible refine Moves.forL ?_ ?_ | with_reducible refine Moves.fuLost ?_ ?_ | with_reducible refine Moves.modUp ?_ ?_ | with_reducible apply Moves.ite | with_reducible intro _ _ _ _ _ | with_reducible intro _ _ _ | with_reducible intro _ _ | extract_lets | split

theorem Ends.execAnnounceTimeout {slot : Fin 8192} {s : State} (hk : Sub 0x587991004 K := by first | assumption | exact Sub.mono (by assumption) rfl) : Ends K s (Sys2Proof.Machine.execAnnounceTimeout slot s) := by
  have h : Moves K s s := Moves.refl s
  unfold Sys2Proof.Machine.execAnnounceTimeout
  repeat' first | with_reducible assumption | ((with_reducible refine Sub.mono hk ?_); rfl) | with_reducible exact Moves.next ‹_› | with_reducible apply Moves.next | with_reducible apply Ends.ite | with_reducible exact Ends.refused | with_reducible refine Moves.modUp ?_ ?_ | with_reducible refine Moves.upFollow ?_ ?_ | with_reducible refine Moves.streamFault ?_ ?_ | with_reducible refine Moves.ev ?_ ?_ | with_reducible apply Moves.ite | with_reducible intro _ _ _ _ _ | with_reducible intro _ _ _ | with_reducible intro _ _ | extract_lets | split

theorem Ends.execGrantExpiry {slot : Fin 8192} {t : GrantKind} {s : State} (hk : Sub 0x400001004 K := by first | assumption | exact Sub.mono (by assumption) rfl) : Ends K s (Sys2Proof.Machine.execGrantExpiry slot t s) := by
  have h : Moves K s s := Moves.refl s
  unfold Sys2Proof.Machine.execGrantExpiry
  repeat' first | with_reducible assumption | ((with_reducible refine Sub.mono hk ?_); rfl) | with_reducible exact Moves.next ‹_› | with_reducible apply Moves.next | with_reducible apply Ends.ite | with_reducible exact Ends.refused | with_reducible refine Moves.modBerth ?_ ?_ | with_reducible refine Moves.evIf ?_ ?_ | with_reducible apply Moves.ite | with_reducible intro _ _ _ _ _ | with_reducible intro _ _ _ | with_reducible intro _ _ | extract_lets | split

theorem Moves.askGrant {slot : Nat} {k : GrantKind} {s0 s : State} (hs : Moves K s0 s) (hk : Sub 0x580081004 K := by first | assumption | exact Sub.mono (by assumption) rfl) : Moves K s0 (State.askGrant s slot k) := by
  unfold State.askGrant
  repeat' first | with_reducible assumption | ((with_reducible refine Sub.mono hk ?_); rfl) | with_reducible refine Moves.modUp ?_ ?_ | with_reducible refine Moves.sendSignaling ?_ ?_ | with_reducible apply Moves.ite | with_reducible intro _ _ _ _ _ | with_reducible intro _ _ _ | with_reducible intro _ _ | extract_lets | split

theorem Ends.execGrantRenew {slot : Fin 8192} {t : GrantKind} {s : State} (hk : Sub 0x580081004 K := by first | assumption | exact Sub.mono (by assumption) rfl) : Ends K s (Sys2Proof.Machine.execGrantRenew slot t s) := by
  have h : Moves K s s := Moves.refl s
  unfold Sys2Proof.Machine.execGrantRenew
  repeat' first | with_reducible assumption | ((with_reducible refine Sub.mono hk ?_); rfl) | with_reducible exact Moves.next ‹_› | with_reducible apply Moves.next | with_reducible apply Ends.ite | with_reducible exact Ends.refused | with_reducible refine Moves.askGrant ?_ ?_ | with_reducible apply Moves.ite | with_reducible intro _ _ _ _ _ | with_reducible intro _ _ _ | with_reducible intro _ _ | extract_lets | split | dsimp +zetaDelta only

theorem Ends.execGrantRetry {slot : Fin 8192} {t : GrantKind} {s : State} (hk : Sub 0x580081004 K := by first | assumption | exact Sub.mono (by assumption) rfl) : Ends K s (Sys2Proof.Machine.execGrantRetry slot t s) := by
  have h : Moves K s s := Moves.refl s
  unfold Sys2Proof.Machine.execGrantRetry
  repeat' first | with_reducible assumption | ((with_reducible refine Sub.mono hk ?_); rfl) | with_reducible exact Moves.next ‹_› | with_reducible apply Moves.next | with_reducible apply Ends.ite | with_reducible exact Ends.refused | with_reducible refine Moves.grantFails ?_ ?_ | with_reducible refine Moves.askGrant ?_ ?_ | with_reducible apply Moves.ite | with_reducible intro _ _ _ _ _ | with_reducible intro _ _ _ | with_reducible intro _ _ | extract_lets | split | dsimp +zetaDelta only

theorem Ends.execSampleStreamTimeout {slot : Fin 8192} {s : State} (hk : Sub 0x587991004 K := by first | assumption | exact Sub.mono (by assumption) rfl) : Ends K s (Sys2Proof.Machine.execSampleStreamTimeout slot s) := by
  have h : Moves K s s := Moves.refl s
  unfold Sys2Proof.Machine.execSampleStreamTimeout
  repeat' first | with_reducible assumption | with_reducible exact Moves.next ‹_› | with_reducible apply Moves.next | with_reducible apply Ends.ite | with_reducible exact Ends.refused | with_reducible refine Moves.streamFault ?_ ?_

theorem Moves.refusedUp {slot : Nat} {c : Code} {amount : Int} {s0 s : State} (hs : Moves K s0 s) (hk : Sub 0x587991004 K := by first | assumption | exact Sub.mono (by assumption) rfl) : Moves K s0 (State.refusedUp s slot c amount) := by
  unfold State.refusedUp
  repeat' first | with_reducible assumption | with_reducible refine Moves.demote ?_ ?_ | with_reducible apply Moves.ite

theorem Moves.presentUp {k slot : Nat} {s0 s : State} (hs : Moves K s0 s) (hk : Sub 0x5E7991004 K := by first | assumption | exact Sub.mono (by assumption) rfl) : Moves K s0 (State.presentUp s k slot) := by
  unfold State.presentUp
  repeat' first | with_reducible assumption | ((with_reducible refine Sub.mono hk ?_); rfl) | with_reducible refine First.presentStep ?_ ?_ | with_reducible refine (First.presentStep ?_ ?_).out ‹_› | with_reducible refine (First.presentStep ?_ ?_).fst | with_reducible refine Moves.refusedUp ?_ ?_ | with_reducible refine First.tryAdjust ?_ ?_ | with_reducible refine (First.tryAdjust ?_ ?_).out ‹_› | with_reducible refine (First.tryAdjust ?_ ?_).fst | with_reducible apply Moves.ite | with_reducible intro _ _ _ _ _ | with_reducible intro _ _ _ | with_reducible intro _ _ | extract_lets | split

theorem Ends.execTsPresentPeriod {n : Fin 8} {s : State} (hk : Sub 0x7E7991004 K := by first | assumption | exact Sub.mono (by assumption) rfl) : Ends K s (Sys2Proof.Machine.execTsPresentPeriod n s) := by
  have h : Moves K s s := Moves.refl s
  unfold Sys2Proof.Machine.execTsPresentPeriod
  repeat' first | with_reducible assumption | ((with_reducible refine Sub.mono hk ?_); rfl) | with_reducible exact Moves.next ‹_› | with_reducible apply Moves.next | with_reducible apply Ends.ite | with_reducible exact Ends.refused | with_reducible refine Moves.modPte ?_ ?_ | with_reducible refine Moves.presentUp ?_ ?_ | with_reducible refine Moves.forL ?_ ?_ | with_reducible refine Moves.modUp ?_ ?_ | with_reducible apply Moves.ite | with_reducible intro _ _ _ _ _ | with_reducible intro _ _ _ | with_reducible intro _ _ | extract_lets | split | dsimp +zetaDelta only

theorem Moves.estimate {slot : Nat} {s0 s : State} (hs : Moves K s0 s) (hk : Sub 0x400000000 K := by first | assumption | exact Sub.mono (by assumption) rfl) : Moves K s0 (State.estimate s slot) := by
  unfold State.estimate
  repeat' first | with_reducible assumption | ((with_reducible refine Sub.mono hk ?_); rfl) | with_reducible refine Moves.modUp ?_ ?_ | with_reducible apply Moves.ite | with_reducible intro _ _ _ _ _ | with_reducible intro _ _ _ | with_reducible intro _ _ | extract_lets | split

theorem Moves.longTest {n slot : Nat} {s0 s : State} (hs : Moves K s0 s) (hk : Sub 0x587991004 K := by first | assumption | exact Sub.mono (by assumption) rfl) : Moves K s0 (State.longTest s n slot) := by
  unfold State.longTest
  repeat' first | with_reducible assumption | ((with_reducible refine Sub.mono hk ?_); rfl) | with_reducible refine Moves.demote ?_ ?_ | with_reducible refine Moves.modUp ?_ ?_ | with_reducible apply Moves.ite | with_reducible intro _ _ _ _ _ | with_reducible intro _ _ _ | with_reducible intro _ _ | extract_lets | split | dsimp +zetaDelta only

theorem Moves.crossTest {n slot : Nat} {s0 s : State} (hs : Moves K s0 s) (hk : Sub 0x587991004 K := by first | assumption | exact Sub.mono (by assumption) rfl) : Moves K s0 (State.crossTest s n slot) := by
  unfold State.crossTest
  repeat' first | with_reducible assumption | ((with_reducible refine Sub.mono hk ?_); rfl) | with_reducible refine Moves.modUp ?_ ?_ | with_reducible refine Moves.demote ?_ ?_ | with_reducible apply Moves.ite | with_reducible intro _ _ _ _ _ | with_reducible intro _ _ _ | with_reducible intro _ _ | extract_lets | split

theorem Ends.execCorridorSecond {n : Fin 8} {s : State} (hk : Sub 0x787991004 K := by first | assumption | exact Sub.mono (by assumption) rfl) : Ends K s (Sys2Proof.Machine.execCorridorSecond n s) := by
  have h : Moves K s s := Moves.refl s
  unfold Sys2Proof.Machine.execCorridorSecond
  repeat' first | with_reducible assumption | ((with_reducible refine Sub.mono hk ?_); rfl) | with_reducible exact Moves.next ‹_› | with_reducible apply Moves.next | with_reducible apply Ends.ite | with_reducible exact Ends.refused | with_reducible refine Moves.forL ?_ ?_ | with_reducible refine Moves.estimate ?_ ?_ | with_reducible refine Moves.entryResults ?_ ?_ | with_reducible refine Moves.longTest ?_ ?_ | with_reducible refine Moves.crossTest ?_ ?_ | with_reducible refine Moves.modPte ?_ ?_ | with_reducible refine Moves.modUp ?_ ?_ | with_reducible apply Moves.ite | with_reducible intro _ _ _ _ _ | with_reducible intro _ _ _ | with_reducible intro _ _ | extract_lets | split

theorem Ends.execCorridorReadmit {slot : Fin 8192} {s : State} (hk : Sub 0x587991004 K := by first | assumption | exact Sub.mono (by assumption) rfl) : Ends K s (Sys2Proof.Machine.execCorridorReadmit slot s) := by
  have h : Moves K s s := Moves.refl s
  unfold Sys2Proof.Machine.execCorridorReadmit
  repeat' first | with_reducible assumption | with_reducible exact Moves.next ‹_› | with_reducible apply Moves.next | with_reducible apply Ends.ite | with_reducible exact Ends.refused | with_reducible refine Moves.promote ?_ ?_

theorem Ends.execAsymRampDone {slot : Fin 8192} {s : State} (hk : Sub 0x400001004 K := by first | assumption | exact Sub.mono (by assumption) rfl) : Ends K s (Sys2Proof.Machine.execAsymRampDone slot s) := by
  have h : Moves K s s := Moves.refl s
  unfold Sys2Proof.Machine.execAsymRampDone
  repeat' first | with_reducible assumption | ((with_reducible refine Sub.mono hk ?_); rfl) | with_reducible exact Moves.next ‹_› | with_reducible apply Moves.next | with_reducible apply Ends.ite | with_reducible exact Ends.refused | with_reducible refine Moves.modUp ?_ ?_ | with_reducible refine Moves.ev ?_ ?_ | with_reducible apply Moves.ite | with_reducible intro _ _ _ _ _ | with_reducible intro _ _ _ | with_reducible intro _ _ | extract_lets | split | dsimp +zetaDelta only

theorem Moves.admitPop {p : Port} {n : Nat} {s0 s : State} (hs : Moves K s0 s) (hk : Sub 0x200001004 K := by first | assumption | exact Sub.mono (by assumption) rfl) : Moves K s0 (State.admitPop s p n) := by
  unfold State.admitPop
  repeat' first | with_reducible assumption | ((with_reducible refine Sub.mono hk ?_); rfl) | with_reducible refine Moves.mboxOut ?_ ?_ | with_reducible refine Moves.modPte ?_ ?_ | with_reducible refine Moves.setf ?_ ?_ | with_reducible apply Moves.ite | fail_if_no_progress (with_reducible refine Moves.plain ?_ ?_ ?_ ?_ ?_ ?_ ?_ ?_ ?_ ?_ ?_ ?_ ?_ ?_ ?_ ?_ ?_ <;> first | ((with_reducible refine Or.inr (Sub.bit hk ?_)); decide) | with_reducible exact Or.inl rfl | skip) | fail_if_no_progress (with_reducible refine Moves.plainNv ?_ rfl rfl rfl ?_ ?_ ?_ ?_ ?_ ?_ ?_ ?_ ?_ ?_ ?_ ?_ ?_ ?_ ?_ ?_ ?_ <;> first | ((with_reducible refine Or.inr (Sub.bit hk ?_)); decide) | with_reducible exact Or.inl rfl | skip) | with_reducible intro _ _ _ _ _ | with_reducible intro _ _ _ | with_reducible intro _ _ | extract_lets | split

theorem First.datasetWords {u : UpState} {s0 s : State} (hs : Moves K s0 s) (hk : Sub 0x2 K := by first | assumption | exact Sub.mono (by assumption) rfl) : First K s0 (State.datasetWords s u) := by
  unfold State.datasetWords
  repeat' first | with_reducible assumption | with_reducible refine Moves.took ?_ ?_ | with_reducible apply Moves.ite | with_reducible apply First.ite | with_reducible intro _ _ _ _ _ | with_reducible intro _ _ _ | with_reducible intro _ _ | extract_lets | split | with_reducible apply First.mk

theorem First.delayNs {b : Berth} {s0 s : State} (hs : Moves K s0 s) (hk : Sub 0x2 K := by first | assumption | exact Sub.mono (by assumption) rfl) : First K s0 (State.delayNs s b) := by
  unfold State.delayNs
  repeat' first | with_reducible assumption | ((with_reducible refine Sub.mono hk ?_); rfl) | with_reducible refine Moves.took ?_ ?_ | with_reducible apply Moves.ite | with_reducible apply First.ite | with_reducible intro _ _ _ _ _ | with_reducible intro _ _ _ | with_reducible intro _ _ | extract_lets | split | with_reducible apply First.mk

theorem Moves.fetchDataset {p : Port} {n slot : Nat} {s0 s : State} (hs : Moves K s0 s) (hk : Sub 0x1006 K := by first | assumption | exact Sub.mono (by assumption) rfl) : Moves K s0 (State.fetchDataset s p n slot) := by
  unfold State.fetchDataset
  repeat' first | with_reducible assumption | ((with_reducible refine Sub.mono hk ?_); rfl) | with_reducible refine First.datasetWords ?_ ?_ | with_reducible refine (First.datasetWords ?_ ?_).out ‹_› | with_reducible refine (First.datasetWords ?_ ?_).fst | with_reducible refine First.delayNs ?_ ?_ | with_reducible refine (First.delayNs ?_ ?_).out ‹_› | with_reducible refine (First.delayNs ?_ ?_).fst | with_reducible refine Moves.mboxOut ?_ ?_ | with_reducible apply Moves.ite | with_reducible apply First.ite | with_reducible intro _ _ _ _ _ | with_reducible intro _ _ _ | with_reducible intro _ _ | extract_lets | split | with_reducible apply First.mk

theorem First.asymLoad {p : Port} {n slot : Nat} {s0 s : State} (hs : Moves K s0 s) (hk : Sub 0x400000004 K := by first | assumption | exact Sub.mono (by assumption) rfl) : First K s0 (State.asymLoad s p n slot) := by
  unfold State.asymLoad
  repeat' first | with_reducible assumption | ((with_reducible refine Sub.mono hk ?_); rfl) | with_reducible refine Moves.modUp ?_ ?_ | with_reducible refine Moves.mboxEmpty ?_ ?_ | with_reducible apply Moves.ite | with_reducible apply First.ite | with_reducible intro _ _ _ _ _ | with_reducible intro _ _ _ | with_reducible intro _ _ | extract_lets | split | with_reducible apply First.mk | dsimp +zetaDelta only

theorem Moves.pteCommand {p : Port} {n bit : Nat} {s0 s : State} (hs : Moves K s0 s) (hk : Sub 0x787991006 K := by first | assumption | exact Sub.mono (by assumption) rfl) : Moves K s0 (State.pteCommand s p n bit) := by
  unfold State.pteCommand
  repeat' first | with_reducible assumption | ((with_reducible refine Sub.mono hk ?_); rfl) | with_reducible refine Moves.admitPop ?_ ?_ | with_reducible refine Moves.fetchDataset ?_ ?_ | with_reducible refine Moves.logDemotion ?_ ?_ | with_reducible refine Moves.promote ?_ ?_ | with_reducible refine First.asymLoad ?_ ?_ | with_reducible refine (First.asymLoad ?_ ?_).out ‹_› | with_reducible refine (First.asymLoad ?_ ?_).fst | with_reducible refine Moves.modUp ?_ ?_ | with_reducible refine Moves.complete ?_ ?_ | with_reducible apply Moves.ite | fail_if_no_progress (with_reducible refine Moves.plain ?_ ?_ ?_ ?_ ?_ ?_ ?_ ?_ ?_ ?_ ?_ ?_ ?_ ?_ ?_ ?_ ?_ <;> first | ((with_reducible refine Or.inr (Sub.bit hk ?_)); decide) | with_reducible exact Or.inl rfl | skip) | fail_if_no_progress (with_reducible refine Moves.plainNv ?_ rfl rfl rfl ?_ ?_ ?_ ?_ ?_ ?_ ?_ ?_ ?_ ?_ ?_ ?_ ?_ ?_ ?_ ?_ ?_ <;> first | ((with_reducible refine Or.inr (Sub.bit hk ?_)); decide) | with_reducible exact Or.inl rfl | skip) | with_reducible intro _ _ _ _ _ | with_reducible intro _ _ _ | with_reducible intro _ _ | extract_lets | split

theorem Ends.execAdmitPop {p : Port} {n : Fin 8} {s : State} (hk : Sub 0x78799D006 K := by first | assumption | exact Sub.mono (by assumption) rfl) : Ends K s (Sys2Proof.Machine.execAdmitPop p n s) := by
  have h : Moves K s s := Moves.refl s
  unfold Sys2Proof.Machine.execAdmitPop
  repeat' first | with_reducible assumption | ((with_reducible refine Sub.mono hk ?_); rfl) | with_reducible exact Moves.next ‹_› | with_reducible apply Moves.next | with_reducible apply Ends.ite | with_reducible exact Ends.refused | with_reducible refine Moves.doorbell ?_ ?_ ?_ | with_reducible refine Moves.pteCommand ?_ ?_ | with_reducible apply Moves.ite | with_reducible intro _ _ _ _ _ | with_reducible intro _ _ _ | with_reducible intro _ _

theorem Ends.execFetchDataset {p : Port} {n : Fin 8} {s : State} (hk : Sub 0x78799D006 K := by first | assumption | exact Sub.mono (by assumption) rfl) : Ends K s (Sys2Proof.Machine.execFetchDataset p n s) := by
  have h : Moves K s s := Moves.refl s
  unfold Sys2Proof.Machine.execFetchDataset
  repeat' first | with_reducible assumption | ((with_reducible refine Sub.mono hk ?_); rfl) | with_reducible exact Moves.next ‹_› | with_reducible apply Moves.next | with_reducible apply Ends.ite | with_reducible exact Ends.refused | with_reducible refine Moves.doorbell ?_ ?_ ?_ | with_reducible refine Moves.pteCommand ?_ ?_ | with_reducible apply Moves.ite | with_reducible intro _ _ _ _ _ | with_reducible intro _ _ _ | with_reducible intro _ _

theorem Ends.execPromote {p : Port} {n : Fin 8} {s : State} (hk : Sub 0x78799D006 K := by first | assumption | exact Sub.mono (by assumption) rfl) : Ends K s (Sys2Proof.Machine.execPromote p n s) := by
  have h : Moves K s s := Moves.refl s
  unfold Sys2Proof.Machine.execPromote
  repeat' first | with_reducible assumption | ((with_reducible refine Sub.mono hk ?_); rfl) | with_reducible exact Moves.next ‹_› | with_reducible apply Moves.next | with_reducible apply Ends.ite | with_reducible exact Ends.refused | with_reducible refine Moves.doorbell ?_ ?_ ?_ | with_reducible refine Moves.pteCommand ?_ ?_ | with_reducible apply Moves.ite | with_reducible intro _ _ _ _ _ | with_reducible intro _ _ _ | with_reducible intro _ _

theorem Ends.execAsymLoad {p : Port} {n : Fin 8} {s : State} (hk : Sub 0x78799D006 K := by first | assumption | exact Sub.mono (by assumption) rfl) : Ends K s (Sys2Proof.Machine.execAsymLoad p n s) := by
  have h : Moves K s s := Moves.refl s
  unfold Sys2Proof.Machine.execAsymLoad
  repeat' first | with_reducible assumption | ((with_reducible refine Sub.mono hk ?_); rfl) | with_reducible exact Moves.next ‹_› | with_reducible apply Moves.next | with_reducible apply Ends.ite | with_reducible exact Ends.refused | with_reducible refine Moves.doorbell ?_ ?_ ?_ | with_reducible refine Moves.pteCommand ?_ ?_ | with_reducible apply Moves.ite | with_reducible intro _ _ _ _ _ | with_reducible intro _ _ _ | with_reducible intro _ _

theorem Ends.execAsymClear {p : Port} {n : Fin 8} {s : State} (hk : Sub 0x78799D006 K := by first | assumption | exact Sub.mono (by assumption) rfl) : Ends K s (Sys2Proof.Machine.execAsymClear p n s) := by
  have h : Moves K s s := Moves.refl s
  unfold Sys2Proof.Machine.execAsymClear
  repeat' first | with_reducible assumption | ((with_reducible refine Sub.mono hk ?_); rfl) | with_reducible exact Moves.next ‹_› | with_reducible apply Moves.next | with_reducible apply Ends.ite | with_reducible exact Ends.refused | with_reducible refine Moves.doorbell ?_ ?_ ?_ | with_reducible refine Moves.pteCommand ?_ ?_ | with_reducible apply Moves.ite | with_reducible intro _ _ _ _ _ | with_reducible intro _ _ _ | with_reducible intro _ _

end Sys2Proof.Machine
end

