-- ==== Sys2Proof/Laws/KeepBerths.lean ====
section
/-! SUPPORT. What the operations of Machine/Berths.lean keep: the queue, the canonical form of the tables, and the parts of the state outside those named. -/

set_option Elab.async false

set_option linter.unreachableTactic false
set_option linter.unusedTactic false

namespace Sys2Proof.Machine

variable {K : Nat}

theorem First.done {c : Code} {s0 s : State} (hs : Moves K s0 s) : First K s0 (State.done s c) := by
  unfold State.done
  repeat' first | with_reducible assumption | with_reducible apply Moves.ite | with_reducible apply First.ite | with_reducible intro _ _ _ _ _ | with_reducible intro _ _ _ | with_reducible intro _ _ | extract_lets | split | with_reducible apply First.mk

theorem Moves.refreshClients {n : Nat} {s0 s : State} (hs : Moves K s0 s) (hk : Sub 0x4 K := by first | assumption | exact Sub.mono (by assumption) rfl) : Moves K s0 (State.refreshClients s n) := by
  unfold State.refreshClients
  repeat' first | with_reducible assumption | with_reducible refine Moves.setf ?_ ?_

theorem First.onBerth {p : Port} {h : Nat} {kinds : List Nat} {g : State → Nat → RingRes} {s0 s : State} (hs : Moves K s0 s) (hg : ∀ t x, Moves K s0 t → First K s0 (g t x)) : First K s0 (State.onBerth s p h kinds g) := by
  unfold State.onBerth
  repeat' first | with_reducible assumption | with_reducible apply hg | with_reducible refine (hg _ ?_).out ‹_› | with_reducible refine First.done ?_ | with_reducible refine (First.done ?_).out ‹_› | with_reducible refine (First.done ?_).fst | with_reducible apply Moves.ite | with_reducible apply First.ite | with_reducible intro _ _ _ _ _ | with_reducible intro _ _ _ | with_reducible intro _ _ | extract_lets | split

theorem First.berthCreate {p : Port} {h a0 a1 : Nat} {s0 s : State} (hs : Moves K s0 s) (hk : Sub 0x400080004 K := by first | assumption | exact Sub.mono (by assumption) rfl) : First K s0 (State.berthCreate s p h a0 a1) := by
  unfold State.berthCreate
  repeat' first | with_reducible assumption | ((with_reducible refine Sub.mono hk ?_); rfl) | with_reducible refine First.done ?_ | with_reducible refine (First.done ?_).out ‹_› | with_reducible refine (First.done ?_).fst | with_reducible refine Moves.modBerth ?_ ?_ | with_reducible refine Moves.refreshClients ?_ ?_ | with_reducible refine Moves.modLedger ?_ ?_ | fail_if_no_progress with_reducible refine Moves.tsc ?_ (Tab.wf_set _ _ _) ?_ | fail_if_no_progress with_reducible refine Moves.tsc ?_ (Tab.wf_filter _ _) ?_ | fail_if_no_progress with_reducible refine Moves.tsc ?_ (Tab.wf_remap _ _) ?_ | fail_if_no_progress with_reducible refine Moves.tsc ?_ (fun _ => rfl) ?_ | with_reducible apply Moves.ite | with_reducible apply First.ite | fail_if_no_progress (with_reducible refine Moves.plain ?_ ?_ ?_ ?_ ?_ ?_ ?_ ?_ ?_ ?_ ?_ ?_ ?_ ?_ ?_ ?_ ?_ <;> first | ((with_reducible refine Or.inr (Sub.bit hk ?_)); decide) | with_reducible exact Or.inl rfl | skip) | fail_if_no_progress (with_reducible refine Moves.plainNv ?_ rfl rfl rfl ?_ ?_ ?_ ?_ ?_ ?_ ?_ ?_ ?_ ?_ ?_ ?_ ?_ ?_ ?_ ?_ ?_ <;> first | ((with_reducible refine Or.inr (Sub.bit hk ?_)); decide) | with_reducible exact Or.inl rfl | skip) | with_reducible intro _ _ _ _ _ | with_reducible intro _ _ _ | with_reducible intro _ _ | extract_lets | split | with_reducible apply First.mk

theorem Moves.detach {slot : Nat} {s0 s : State} (hs : Moves K s0 s) (hk : Sub 0x587991004 K := by first | assumption | exact Sub.mono (by assumption) rfl) : Moves K s0 (State.detach s slot) := by
  unfold State.detach
  repeat' first | with_reducible assumption | ((with_reducible refine Sub.mono hk ?_); rfl) | with_reducible refine Moves.fault ?_ ?_ | with_reducible refine Moves.setCstate ?_ ?_ | with_reducible refine Moves.giveRank ?_ ?_ | with_reducible refine Moves.modBerth ?_ ?_ | with_reducible apply Moves.ite | fail_if_no_progress (with_reducible refine Moves.plain ?_ ?_ ?_ ?_ ?_ ?_ ?_ ?_ ?_ ?_ ?_ ?_ ?_ ?_ ?_ ?_ ?_ <;> first | ((with_reducible refine Or.inr (Sub.bit hk ?_)); decide) | with_reducible exact Or.inl rfl | skip) | fail_if_no_progress (with_reducible refine Moves.plainNv ?_ rfl rfl rfl ?_ ?_ ?_ ?_ ?_ ?_ ?_ ?_ ?_ ?_ ?_ ?_ ?_ ?_ ?_ ?_ ?_ <;> first | ((with_reducible refine Or.inr (Sub.bit hk ?_)); decide) | with_reducible exact Or.inl rfl | skip) | with_reducible intro _ _ _ _ _ | with_reducible intro _ _ _ | with_reducible intro _ _ | extract_lets | split

theorem Moves.dropRuns {slot : Nat} {s0 s : State} (hs : Moves K s0 s) (hk : Sub 0x80001004 K := by first | assumption | exact Sub.mono (by assumption) rfl) : Moves K s0 (State.dropRuns s slot) := by
  unfold State.dropRuns
  repeat' first | with_reducible assumption | ((with_reducible refine Sub.mono hk ?_); rfl) | with_reducible refine Moves.forL ?_ ?_ | with_reducible refine Moves.modTasks ?_ ?_ | with_reducible refine Moves.incBy ?_ ?_ | with_reducible refine Moves.ev ?_ ?_ | with_reducible apply Moves.ite | with_reducible intro _ _ _ _ _ | with_reducible intro _ _ _

theorem Moves.berthDestroy {slot : Nat} {s0 s : State} (hs : Moves K s0 s) (hk : Sub 0xD87991004 K := by first | assumption | exact Sub.mono (by assumption) rfl) : Moves K s0 (State.berthDestroy s slot) := by
  unfold State.berthDestroy
  repeat' first | with_reducible assumption | ((with_reducible refine Sub.mono hk ?_); rfl) | with_reducible refine Moves.detach ?_ ?_ | with_reducible refine Moves.dropRuns ?_ ?_ | with_reducible refine Moves.modUp ?_ ?_ | with_reducible refine Moves.streamFault ?_ ?_ | with_reducible refine Moves.berthRank ?_ ?_ | with_reducible refine Moves.modPrt ?_ ?_ | with_reducible refine Moves.modBerth ?_ ?_ | with_reducible refine Moves.modGen ?_ ?_ | with_reducible refine Moves.refreshClients ?_ ?_ | with_reducible refine Moves.bmca ?_ ?_ | with_reducible refine Moves.refreshDisagree ?_ ?_ | with_reducible apply Moves.ite

theorem Moves.entryActivity {b : Berth} {s0 s : State} (hs : Moves K s0 s) (hk : Sub 0x587991004 K := by first | assumption | exact Sub.mono (by assumption) rfl) : Moves K s0 (State.entryActivity s b) := by
  unfold State.entryActivity
  repeat' first | with_reducible assumption | ((with_reducible refine Sub.mono hk ?_); rfl) | with_reducible refine Moves.fault ?_ ?_ | with_reducible apply Moves.ite | with_reducible intro _ _ _ _ _ | with_reducible intro _ _ _ | with_reducible intro _ _ | extract_lets | split

theorem First.berthEnable {slot : Nat} {s0 s : State} (hs : Moves K s0 s) (hk : Sub 0x587991004 K := by first | assumption | exact Sub.mono (by assumption) rfl) : First K s0 (State.berthEnable s slot) := by
  unfold State.berthEnable
  repeat' first | with_reducible assumption | ((with_reducible refine Sub.mono hk ?_); rfl) | with_reducible refine First.done ?_ | with_reducible refine (First.done ?_).out ‹_› | with_reducible refine (First.done ?_).fst | with_reducible refine Moves.modBerth ?_ ?_ | with_reducible refine Moves.modLedger ?_ ?_ | with_reducible refine Moves.entryActivity ?_ ?_ | with_reducible refine Moves.modUp ?_ ?_ | with_reducible refine Moves.startLearning ?_ ?_ | with_reducible refine Moves.upFollow ?_ ?_ | with_reducible refine Moves.askGrant ?_ ?_ | with_reducible apply Moves.ite | with_reducible apply First.ite | with_reducible intro _ _ _ _ _ | with_reducible intro _ _ _ | with_reducible intro _ _ | extract_lets | split | with_reducible apply First.mk

theorem Moves.berthDisable {slot : Nat} {s0 s : State} (hs : Moves K s0 s) (hk : Sub 0x587991004 K := by first | assumption | exact Sub.mono (by assumption) rfl) : Moves K s0 (State.berthDisable s slot) := by
  unfold State.berthDisable
  repeat' first | with_reducible assumption | ((with_reducible refine Sub.mono hk ?_); rfl) | with_reducible refine Moves.fault ?_ ?_ | with_reducible refine Moves.modBerth ?_ ?_ | with_reducible refine Moves.streamFault ?_ ?_ | with_reducible refine Moves.upFollow ?_ ?_ | with_reducible apply Moves.ite | fail_if_no_progress (with_reducible refine Moves.plain ?_ ?_ ?_ ?_ ?_ ?_ ?_ ?_ ?_ ?_ ?_ ?_ ?_ ?_ ?_ ?_ ?_ <;> first | ((with_reducible refine Or.inr (Sub.bit hk ?_)); decide) | with_reducible exact Or.inl rfl | skip) | fail_if_no_progress (with_reducible refine Moves.plainNv ?_ rfl rfl rfl ?_ ?_ ?_ ?_ ?_ ?_ ?_ ?_ ?_ ?_ ?_ ?_ ?_ ?_ ?_ ?_ ?_ <;> first | ((with_reducible refine Or.inr (Sub.bit hk ?_)); decide) | with_reducible exact Or.inl rfl | skip) | with_reducible intro _ _ _ _ _ | with_reducible intro _ _ _ | with_reducible intro _ _ | extract_lets | split

theorem First.paramSet {p : Port} {slot id : Nat} {s0 s : State} (hs : Moves K s0 s) (hk : Sub 0x587991004 K := by first | assumption | exact Sub.mono (by assumption) rfl) : First K s0 (State.paramSet s p slot id) := by
  unfold State.paramSet
  repeat' first | with_reducible assumption | ((with_reducible refine Sub.mono hk ?_); rfl) | with_reducible refine First.done ?_ | with_reducible refine (First.done ?_).out ‹_› | with_reducible refine (First.done ?_).fst | with_reducible refine Moves.mboxEmpty ?_ ?_ | with_reducible refine Moves.modBerth ?_ ?_ | with_reducible refine Moves.bmca ?_ ?_ | with_reducible apply Moves.ite | with_reducible apply First.ite | fail_if_no_progress (with_reducible refine Moves.plain ?_ ?_ ?_ ?_ ?_ ?_ ?_ ?_ ?_ ?_ ?_ ?_ ?_ ?_ ?_ ?_ ?_ <;> first | ((with_reducible refine Or.inr (Sub.bit hk ?_)); decide) | with_reducible exact Or.inl rfl | skip) | fail_if_no_progress (with_reducible refine Moves.plainNv ?_ rfl rfl rfl ?_ ?_ ?_ ?_ ?_ ?_ ?_ ?_ ?_ ?_ ?_ ?_ ?_ ?_ ?_ ?_ ?_ <;> first | ((with_reducible refine Or.inr (Sub.bit hk ?_)); decide) | with_reducible exact Or.inl rfl | skip) | with_reducible intro _ _ _ _ _ | with_reducible intro _ _ _ | with_reducible intro _ _ | extract_lets | split

theorem First.paramGet {p : Port} {slot id : Nat} {s0 s : State} (hs : Moves K s0 s) (hk : Sub 0x1004 K := by first | assumption | exact Sub.mono (by assumption) rfl) : First K s0 (State.paramGet s p slot id) := by
  unfold State.paramGet
  repeat' first | with_reducible assumption | with_reducible refine First.done ?_ | with_reducible refine (First.done ?_).out ‹_› | with_reducible refine (First.done ?_).fst | with_reducible refine Moves.mboxOut ?_ ?_ | with_reducible apply Moves.ite | with_reducible apply First.ite | with_reducible intro _ _ _ _ _ | with_reducible intro _ _ _ | with_reducible intro _ _ | extract_lets | split

theorem Moves.attachNew {slot n k a1 : Nat} {s0 s : State} (hs : Moves K s0 s) (hk : Sub 0x587991004 K := by first | assumption | exact Sub.mono (by assumption) rfl) : Moves K s0 (State.attachNew s slot n k a1) := by
  unfold State.attachNew
  repeat' first | with_reducible assumption | ((with_reducible refine Sub.mono hk ?_); rfl) | with_reducible refine Moves.modBerth ?_ ?_ | with_reducible refine Moves.setCstate ?_ ?_ | with_reducible refine Moves.freshEntry ?_ ?_ | with_reducible refine Moves.setFault ?_ ?_ | with_reducible refine Moves.giveRank ?_ ?_ | with_reducible apply Moves.ite | with_reducible intro _ _ _ _ _ | with_reducible intro _ _ _ | with_reducible intro _ _ | extract_lets | split | dsimp +zetaDelta only

theorem First.attach {slot a0 a1 : Nat} {s0 s : State} (hs : Moves K s0 s) (hk : Sub 0x587991004 K := by first | assumption | exact Sub.mono (by assumption) rfl) : First K s0 (State.attach s slot a0 a1) := by
  unfold State.attach
  repeat' first | with_reducible assumption | ((with_reducible refine Sub.mono hk ?_); rfl) | with_reducible refine First.done ?_ | with_reducible refine (First.done ?_).out ‹_› | with_reducible refine (First.done ?_).fst | with_reducible refine Moves.attachNew ?_ ?_ | with_reducible refine Moves.detach ?_ ?_ | with_reducible apply Moves.ite | with_reducible apply First.ite | with_reducible intro _ _ _ _ _ | with_reducible intro _ _ _ | with_reducible intro _ _ | extract_lets | split | with_reducible apply First.mk | dsimp +zetaDelta only

theorem Moves.evqPop {p : Port} {slot : Nat} {s0 s : State} (hs : Moves K s0 s) (hk : Sub 0x400001004 K := by first | assumption | exact Sub.mono (by assumption) rfl) : Moves K s0 (State.evqPop s p slot) := by
  unfold State.evqPop
  repeat' first | with_reducible assumption | ((with_reducible refine Sub.mono hk ?_); rfl) | with_reducible refine Moves.ev ?_ ?_ | with_reducible refine Moves.mboxOut ?_ ?_ | with_reducible refine Moves.modBerth ?_ ?_ | with_reducible apply Moves.ite | fail_if_no_progress (with_reducible refine Moves.plain ?_ ?_ ?_ ?_ ?_ ?_ ?_ ?_ ?_ ?_ ?_ ?_ ?_ ?_ ?_ ?_ ?_ <;> first | ((with_reducible refine Or.inr (Sub.bit hk ?_)); decide) | with_reducible exact Or.inl rfl | skip) | fail_if_no_progress (with_reducible refine Moves.plainNv ?_ rfl rfl rfl ?_ ?_ ?_ ?_ ?_ ?_ ?_ ?_ ?_ ?_ ?_ ?_ ?_ ?_ ?_ ?_ ?_ <;> first | ((with_reducible refine Or.inr (Sub.bit hk ?_)); decide) | with_reducible exact Or.inl rfl | skip) | with_reducible intro _ _ _ _ _ | with_reducible intro _ _ _ | with_reducible intro _ _ | extract_lets | split

theorem First.msgLoad {p : Port} {slot a0 : Nat} {s0 s : State} (hs : Moves K s0 s) (hk : Sub 0x400000004 K := by first | assumption | exact Sub.mono (by assumption) rfl) : First K s0 (State.msgLoad s p slot a0) := by
  unfold State.msgLoad
  repeat' first | with_reducible assumption | ((with_reducible refine Sub.mono hk ?_); rfl) | with_reducible refine First.done ?_ | with_reducible refine (First.done ?_).out ‹_› | with_reducible refine (First.done ?_).fst | with_reducible refine Moves.mboxEmpty ?_ ?_ | with_reducible refine Moves.modBerth ?_ ?_ | with_reducible refine Moves.ev ?_ ?_ | with_reducible apply Moves.ite | with_reducible apply First.ite | fail_if_no_progress (with_reducible refine Moves.plain ?_ ?_ ?_ ?_ ?_ ?_ ?_ ?_ ?_ ?_ ?_ ?_ ?_ ?_ ?_ ?_ ?_ <;> first | ((with_reducible refine Or.inr (Sub.bit hk ?_)); decide) | with_reducible exact Or.inl rfl | skip) | fail_if_no_progress (with_reducible refine Moves.plainNv ?_ rfl rfl rfl ?_ ?_ ?_ ?_ ?_ ?_ ?_ ?_ ?_ ?_ ?_ ?_ ?_ ?_ ?_ ?_ ?_ <;> first | ((with_reducible refine Or.inr (Sub.bit hk ?_)); decide) | with_reducible exact Or.inl rfl | skip) | with_reducible intro _ _ _ _ _ | with_reducible intro _ _ _ | with_reducible intro _ _ | extract_lets | split

theorem First.berthInfo {slot : Nat} {s0 s : State} (hs : Moves K s0 s) : First K s0 (State.berthInfo s slot) := by
  unfold State.berthInfo
  repeat' first | with_reducible assumption | with_reducible apply Moves.ite | with_reducible apply First.ite | with_reducible intro _ _ _ _ _ | with_reducible intro _ _ _ | with_reducible intro _ _ | extract_lets | split | with_reducible apply First.mk

theorem Ends.execStampTask {slot : Fin 8192} {s : State} (hk : Sub 0x480001004 K := by first | assumption | exact Sub.mono (by assumption) rfl) : Ends K s (Sys2Proof.Machine.execStampTask slot s) := by
  have h : Moves K s s := Moves.refl s
  unfold Sys2Proof.Machine.execStampTask
  repeat' first | with_reducible assumption | ((with_reducible refine Sub.mono hk ?_); rfl) | with_reducible exact Moves.next ‹_› | with_reducible apply Moves.next | with_reducible apply Ends.ite | with_reducible exact Ends.refused | with_reducible refine Moves.takeRun ?_ ‹_› ?_ | with_reducible refine Moves.evqPush ?_ ?_ | with_reducible apply Moves.ite | with_reducible intro _ _ _ _ _ | with_reducible intro _ _ _ | with_reducible intro _ _ | extract_lets | split

theorem Ends.execSendBerthMessageTask {slot : Fin 8192} {s : State} (hk : Sub 0x580081004 K := by first | assumption | exact Sub.mono (by assumption) rfl) : Ends K s (Sys2Proof.Machine.execSendBerthMessageTask slot s) := by
  have h : Moves K s s := Moves.refl s
  unfold Sys2Proof.Machine.execSendBerthMessageTask
  repeat' first | with_reducible assumption | ((with_reducible refine Sub.mono hk ?_); rfl) | with_reducible exact Moves.next ‹_› | with_reducible apply Moves.next | with_reducible apply Ends.ite | with_reducible exact Ends.refused | with_reducible refine Moves.takeRun ?_ ‹_› ?_ | with_reducible refine Moves.ev ?_ ?_ | with_reducible refine Moves.inc ?_ ?_ | with_reducible refine Moves.enqueue ?_ ?_ | with_reducible apply Moves.ite | with_reducible intro _ _ _ _ _ | with_reducible intro _ _ _ | with_reducible intro _ _ | extract_lets | split | dsimp +zetaDelta only

theorem Moves.refreshTenants {s0 s : State} (hs : Moves K s0 s) (hk : Sub 0x4 K := by first | assumption | exact Sub.mono (by assumption) rfl) : Moves K s0 (State.refreshTenants s) := by
  unfold State.refreshTenants
  repeat' first | with_reducible assumption | with_reducible refine Moves.setf ?_ ?_

theorem First.tenantOpen {t : Nat} {s0 s : State} (hs : Moves K s0 s) (hk : Sub 0x80004 K := by first | assumption | exact Sub.mono (by assumption) rfl) : First K s0 (State.tenantOpen s t) := by
  unfold State.tenantOpen
  repeat' first | with_reducible assumption | ((with_reducible refine Sub.mono hk ?_); rfl) | with_reducible refine First.done ?_ | with_reducible refine (First.done ?_).out ‹_› | with_reducible refine (First.done ?_).fst | with_reducible refine Moves.modLedger ?_ ?_ | with_reducible refine Moves.refreshTenants ?_ ?_ | with_reducible apply Moves.ite | with_reducible apply First.ite | with_reducible intro _ _ _ _ _ | with_reducible intro _ _ _ | with_reducible intro _ _ | extract_lets | split | with_reducible apply First.mk

theorem First.tenantClose {t : Nat} {s0 s : State} (hs : Moves K s0 s) (hk : Sub 0x90004 K := by first | assumption | exact Sub.mono (by assumption) rfl) : First K s0 (State.tenantClose s t) := by
  unfold State.tenantClose
  repeat' first | with_reducible assumption | ((with_reducible refine Sub.mono hk ?_); rfl) | with_reducible refine First.done ?_ | with_reducible refine (First.done ?_).out ‹_› | with_reducible refine (First.done ?_).fst | with_reducible refine Moves.freeze ?_ ?_ | with_reducible refine Moves.commitSealing ?_ ?_ | with_reducible refine Moves.modLedger ?_ ?_ | with_reducible refine Moves.refreshTenants ?_ ?_ | with_reducible apply Moves.ite | with_reducible apply First.ite | with_reducible intro _ _ _ _ _ | with_reducible intro _ _ _ | with_reducible intro _ _ | extract_lets | split | with_reducible apply First.mk

theorem First.manPeek {p : Port} {t : Nat} {s0 s : State} (hs : Moves K s0 s) (hk : Sub 0x1004 K := by first | assumption | exact Sub.mono (by assumption) rfl) : First K s0 (State.manPeek s p t) := by
  unfold State.manPeek
  repeat' first | with_reducible assumption | with_reducible refine First.done ?_ | with_reducible refine (First.done ?_).out ‹_› | with_reducible refine (First.done ?_).fst | with_reducible refine Moves.mboxOut ?_ ?_ | with_reducible apply Moves.ite | with_reducible apply First.ite

theorem First.manExport {p : Port} {t q part : Nat} {s0 s : State} (hs : Moves K s0 s) (hk : Sub 0x1004 K := by first | assumption | exact Sub.mono (by assumption) rfl) : First K s0 (State.manExport s p t q part) := by
  unfold State.manExport
  repeat' first | with_reducible assumption | with_reducible refine First.done ?_ | with_reducible refine (First.done ?_).out ‹_› | with_reducible refine (First.done ?_).fst | with_reducible refine Moves.mboxOut ?_ ?_ | with_reducible apply Moves.ite | with_reducible apply First.ite | with_reducible intro _ _ _ _ _ | with_reducible intro _ _ _ | with_reducible intro _ _ | extract_lets | split

theorem First.onMan {p : Port} {h : Nat} {g : State → RingRes} {s0 s : State} (hs : Moves K s0 s) (hg : ∀ t, Moves K s0 t → First K s0 (g t)) : First K s0 (State.onMan s p h g) := by
  unfold State.onMan
  repeat' first | with_reducible assumption | with_reducible apply hg | with_reducible refine (hg _ ?_).out ‹_› | with_reducible refine First.done ?_ | with_reducible refine (First.done ?_).out ‹_› | with_reducible refine (First.done ?_).fst | with_reducible apply Moves.ite | with_reducible apply First.ite

theorem First.onFrame {p : Port} {h a0 : Nat} {g : State → State × Code × Nat} {s0 s : State} (hs : Moves K s0 s) (hg : ∀ t, Moves K s0 t → First K s0 (g t)) : First K s0 (State.onFrame s p h a0 g) := by
  unfold State.onFrame
  repeat' first | with_reducible assumption | with_reducible apply hg | with_reducible refine (hg _ ?_).out ‹_› | with_reducible refine First.done ?_ | with_reducible refine (First.done ?_).out ‹_› | with_reducible refine (First.done ?_).fst | with_reducible apply Moves.ite | with_reducible apply First.ite | with_reducible intro _ _ _ _ _ | with_reducible intro _ _ _ | with_reducible intro _ _ | extract_lets | split | with_reducible apply First.mk

theorem First.onEngine {p : Port} {op h a0 : Nat} {s0 s : State} (hs : Moves K s0 s) (hk : Sub 0x621181C K := by first | assumption | exact Sub.mono (by assumption) rfl) : First K s0 (State.onEngine s p op h a0) := by
  unfold State.onEngine
  repeat' first | with_reducible assumption | ((with_reducible refine Sub.mono hk ?_); rfl) | with_reducible refine First.done ?_ | with_reducible refine (First.done ?_).out ‹_› | with_reducible refine (First.done ?_).fst | with_reducible refine First.engCommand ?_ ?_ | with_reducible refine (First.engCommand ?_ ?_).out ‹_› | with_reducible refine (First.engCommand ?_ ?_).fst | with_reducible apply Moves.ite | with_reducible apply First.ite | with_reducible intro _ _ _ _ _ | with_reducible intro _ _ _ | with_reducible intro _ _ | extract_lets | split | with_reducible apply First.mk

theorem First.ringCommand {p : Port} {op h a0 a1 a2 : Nat} {s0 s : State} (hs : Moves K s0 s) (hk : Sub 0xFFFFFFD9E K := by first | assumption | exact Sub.mono (by assumption) rfl) : First K s0 (State.ringCommand s p op h a0 a1 a2) := by
  unfold State.ringCommand
  repeat' first | with_reducible assumption | ((with_reducible refine Sub.mono hk ?_); rfl) | with_reducible refine First.done ?_ | with_reducible refine (First.done ?_).out ‹_› | with_reducible refine (First.done ?_).fst | with_reducible refine First.onEngine ?_ ?_ | with_reducible refine (First.onEngine ?_ ?_).out ‹_› | with_reducible refine (First.onEngine ?_ ?_).fst | with_reducible refine First.berthCreate ?_ ?_ | with_reducible refine (First.berthCreate ?_ ?_).out ‹_› | with_reducible refine (First.berthCreate ?_ ?_).fst | with_reducible refine First.onBerth ?_ ?_ | with_reducible refine (First.onBerth ?_ ?_).out ‹_› | with_reducible refine (First.onBerth ?_ ?_).fst | with_reducible refine Moves.berthDestroy ?_ ?_ | with_reducible refine First.berthEnable ?_ ?_ | with_reducible refine (First.berthEnable ?_ ?_).out ‹_› | with_reducible refine (First.berthEnable ?_ ?_).fst | with_reducible refine Moves.berthDisable ?_ ?_ | with_reducible refine First.paramSet ?_ ?_ | with_reducible refine (First.paramSet ?_ ?_).out ‹_› | with_reducible refine (First.paramSet ?_ ?_).fst | with_reducible refine First.paramGet ?_ ?_ | with_reducible refine (First.paramGet ?_ ?_).out ‹_› | with_reducible refine (First.paramGet ?_ ?_).fst | with_reducible refine First.attach ?_ ?_ | with_reducible refine (First.attach ?_ ?_).out ‹_› | with_reducible refine (First.attach ?_ ?_).fst | with_reducible refine Moves.detach ?_ ?_ | with_reducible refine Moves.evqPop ?_ ?_ | with_reducible refine First.msgLoad ?_ ?_ | with_reducible refine (First.msgLoad ?_ ?_).out ‹_› | with_reducible refine (First.msgLoad ?_ ?_).fst | with_reducible refine First.berthInfo ?_ | with_reducible refine (First.berthInfo ?_).out ‹_› | with_reducible refine (First.berthInfo ?_).fst | with_reducible refine First.onFrame ?_ ?_ | with_reducible refine (First.onFrame ?_ ?_).out ‹_› | with_reducible refine (First.onFrame ?_ ?_).fst | with_reducible refine First.frameSend ?_ ?_ | with_reducible refine (First.frameSend ?_ ?_).out ‹_› | with_reducible refine (First.frameSend ?_ ?_).fst | with_reducible refine First.frameRecv ?_ ?_ | with_reducible refine (First.frameRecv ?_ ?_).out ‹_› | with_reducible refine (First.frameRecv ?_ ?_).fst | with_reducible refine First.onMan ?_ ?_ | with_reducible refine (First.onMan ?_ ?_).out ‹_› | with_reducible refine (First.onMan ?_ ?_).fst | with_reducible refine First.tenantOpen ?_ ?_ | with_reducible refine (First.tenantOpen ?_ ?_).out ‹_› | with_reducible refine (First.tenantOpen ?_ ?_).fst | with_reducible refine First.tenantClose ?_ ?_ | with_reducible refine (First.tenantClose ?_ ?_).out ‹_› | with_reducible refine (First.tenantClose ?_ ?_).fst | with_reducible refine First.manPeek ?_ ?_ | with_reducible refine (First.manPeek ?_ ?_).out ‹_› | with_reducible refine (First.manPeek ?_ ?_).fst | with_reducible refine First.manExport ?_ ?_ | with_reducible refine (First.manExport ?_ ?_).out ‹_› | with_reducible refine (First.manExport ?_ ?_).fst | with_reducible apply Moves.ite | with_reducible apply First.ite | with_reducible intro _ _ _ _ _ | with_reducible intro _ _ _ | with_reducible intro _ _ | extract_lets | split | with_reducible apply First.mk

end Sys2Proof.Machine
end

