-- ==== Sys2Proof/Laws/KeepRing.lean ====
section
/-! SUPPORT. What the operations of Machine/Ring.lean keep: the queue, the canonical form of the tables, and the parts of the state outside those named. -/

set_option Elab.async false

set_option linter.unreachableTactic false
set_option linter.unusedTactic false

namespace Sys2Proof.Machine

variable {K : Nat}

theorem Moves.ringAnswered {p : Port} {op : Nat} {r : RingRes} {s0 : State} (h : First K s0 r) (hk : Sub 0x1004 K := by first | assumption | exact Sub.mono (by assumption) rfl) : Moves K s0 (ringAnswered p op r) := by
  obtain ⟨s, c, r0, r1⟩ := r
  exact Moves.ite (Moves.setf (Moves.ite (Moves.setf h) h)) (Moves.ringComplete (Moves.ite (Moves.setf h) h))

theorem Moves.ringPerform {p : Port} {s0 s : State} (hs : Moves K s0 s) (hk : Sub 0xFFFFFFD9E K := by first | assumption | exact Sub.mono (by assumption) rfl) : Moves K s0 (State.ringPerform s p) := by
  unfold State.ringPerform
  repeat' first | with_reducible assumption | ((with_reducible refine Sub.mono hk ?_); rfl) | with_reducible refine Moves.setf ?_ ?_ | with_reducible refine First.ringCommand ?_ ?_ | with_reducible refine (First.ringCommand ?_ ?_).out ‹_› | with_reducible refine (First.ringCommand ?_ ?_).fst | with_reducible refine Moves.ringAnswered ?_ ?_

theorem Moves.ringStart {p : Port} {s0 s : State} (hs : Moves K s0 s) (hk : Sub 0xFFFFFFD9E K := by first | assumption | exact Sub.mono (by assumption) rfl) : Moves K s0 (State.ringStart s p) := by
  unfold State.ringStart
  repeat' first | with_reducible assumption | ((with_reducible refine Sub.mono hk ?_); rfl) | with_reducible refine Moves.evIf ?_ ?_ | with_reducible refine Moves.setf ?_ ?_ | with_reducible refine Moves.ringPerform ?_ ?_ | with_reducible apply Moves.ite

theorem Moves.ringPost {p : Port} {op : Nat} {h a0 a1 a2 a3 : Word} {s0 s : State} (hs : Moves K s0 s) (hk : Sub 0xFFFFFFD9E K := by first | assumption | exact Sub.mono (by assumption) rfl) : Moves K s0 (State.ringPost s p op h a0 a1 a2 a3) := by
  unfold State.ringPost
  repeat' first | with_reducible assumption | ((with_reducible refine Sub.mono hk ?_); rfl) | with_reducible refine Moves.busErr ?_ ?_ | with_reducible refine Moves.forL ?_ ?_ | with_reducible refine Moves.setw ?_ ?_ | with_reducible refine Moves.setf ?_ ?_ | with_reducible refine Moves.status ?_ ?_ | with_reducible refine Moves.ringStart ?_ ?_ | with_reducible apply Moves.ite | with_reducible intro _ _ _ _ _ | with_reducible intro _ _ _

theorem Ends.execRingEntryStart {p : Port} {s : State} (hk : Sub 0xFFFFFFD9E K := by first | assumption | exact Sub.mono (by assumption) rfl) : Ends K s (Sys2Proof.Machine.execRingEntryStart p s) := by
  have h : Moves K s s := Moves.refl s
  unfold Sys2Proof.Machine.execRingEntryStart
  repeat' first | with_reducible assumption | with_reducible exact Moves.next ‹_› | with_reducible apply Moves.next | with_reducible apply Ends.ite | with_reducible exact Ends.refused | with_reducible refine Moves.ringStart ?_ ?_

theorem Ends.execNop {p : Port} {s : State} (hk : Sub 0xFFFFFFD9E K := by first | assumption | exact Sub.mono (by assumption) rfl) : Ends K s (Sys2Proof.Machine.execNop p s) := by
  have h : Moves K s s := Moves.refl s
  unfold Sys2Proof.Machine.execNop
  repeat' first | with_reducible assumption | with_reducible exact Moves.next ‹_› | with_reducible apply Moves.next | with_reducible apply Ends.ite | with_reducible exact Ends.refused | with_reducible refine Moves.ringPost ?_ ?_

theorem Ends.execBerthCreate {p : Port} {h a0 a1 a2 a3 : Word} {s : State} (hk : Sub 0xFFFFFFD9E K := by first | assumption | exact Sub.mono (by assumption) rfl) : Ends K s (Sys2Proof.Machine.execBerthCreate p h a0 a1 a2 a3 s) := by
  have h : Moves K s s := Moves.refl s
  unfold Sys2Proof.Machine.execBerthCreate
  repeat' first | with_reducible assumption | with_reducible exact Moves.next ‹_› | with_reducible apply Moves.next | with_reducible apply Ends.ite | with_reducible exact Ends.refused | with_reducible refine Moves.ringPost ?_ ?_

theorem Ends.execBerthDestroy {p : Port} {h a0 a1 a2 a3 : Word} {s : State} (hk : Sub 0xFFFFFFD9E K := by first | assumption | exact Sub.mono (by assumption) rfl) : Ends K s (Sys2Proof.Machine.execBerthDestroy p h a0 a1 a2 a3 s) := by
  have h : Moves K s s := Moves.refl s
  unfold Sys2Proof.Machine.execBerthDestroy
  repeat' first | with_reducible assumption | with_reducible exact Moves.next ‹_› | with_reducible apply Moves.next | with_reducible apply Ends.ite | with_reducible exact Ends.refused | with_reducible refine Moves.ringPost ?_ ?_

theorem Ends.execBerthEnable {p : Port} {h a0 a1 a2 a3 : Word} {s : State} (hk : Sub 0xFFFFFFD9E K := by first | assumption | exact Sub.mono (by assumption) rfl) : Ends K s (Sys2Proof.Machine.execBerthEnable p h a0 a1 a2 a3 s) := by
  have h : Moves K s s := Moves.refl s
  unfold Sys2Proof.Machine.execBerthEnable
  repeat' first | with_reducible assumption | with_reducible exact Moves.next ‹_› | with_reducible apply Moves.next | with_reducible apply Ends.ite | with_reducible exact Ends.refused | with_reducible refine Moves.ringPost ?_ ?_

theorem Ends.execBerthDisable {p : Port} {h a0 a1 a2 a3 : Word} {s : State} (hk : Sub 0xFFFFFFD9E K := by first | assumption | exact Sub.mono (by assumption) rfl) : Ends K s (Sys2Proof.Machine.execBerthDisable p h a0 a1 a2 a3 s) := by
  have h : Moves K s s := Moves.refl s
  unfold Sys2Proof.Machine.execBerthDisable
  repeat' first | with_reducible assumption | with_reducible exact Moves.next ‹_› | with_reducible apply Moves.next | with_reducible apply Ends.ite | with_reducible exact Ends.refused | with_reducible refine Moves.ringPost ?_ ?_

theorem Ends.execParamSet {p : Port} {h a0 a1 a2 a3 : Word} {s : State} (hk : Sub 0xFFFFFFD9E K := by first | assumption | exact Sub.mono (by assumption) rfl) : Ends K s (Sys2Proof.Machine.execParamSet p h a0 a1 a2 a3 s) := by
  have h : Moves K s s := Moves.refl s
  unfold Sys2Proof.Machine.execParamSet
  repeat' first | with_reducible assumption | with_reducible exact Moves.next ‹_› | with_reducible apply Moves.next | with_reducible apply Ends.ite | with_reducible exact Ends.refused | with_reducible refine Moves.ringPost ?_ ?_

theorem Ends.execParamGet {p : Port} {h a0 a1 a2 a3 : Word} {s : State} (hk : Sub 0xFFFFFFD9E K := by first | assumption | exact Sub.mono (by assumption) rfl) : Ends K s (Sys2Proof.Machine.execParamGet p h a0 a1 a2 a3 s) := by
  have h : Moves K s s := Moves.refl s
  unfold Sys2Proof.Machine.execParamGet
  repeat' first | with_reducible assumption | with_reducible exact Moves.next ‹_› | with_reducible apply Moves.next | with_reducible apply Ends.ite | with_reducible exact Ends.refused | with_reducible refine Moves.ringPost ?_ ?_

theorem Ends.execAttach {p : Port} {h a0 a1 a2 a3 : Word} {s : State} (hk : Sub 0xFFFFFFD9E K := by first | assumption | exact Sub.mono (by assumption) rfl) : Ends K s (Sys2Proof.Machine.execAttach p h a0 a1 a2 a3 s) := by
  have h : Moves K s s := Moves.refl s
  unfold Sys2Proof.Machine.execAttach
  repeat' first | with_reducible assumption | with_reducible exact Moves.next ‹_› | with_reducible apply Moves.next | with_reducible apply Ends.ite | with_reducible exact Ends.refused | with_reducible refine Moves.ringPost ?_ ?_

theorem Ends.execDetach {p : Port} {h a0 a1 a2 a3 : Word} {s : State} (hk : Sub 0xFFFFFFD9E K := by first | assumption | exact Sub.mono (by assumption) rfl) : Ends K s (Sys2Proof.Machine.execDetach p h a0 a1 a2 a3 s) := by
  have h : Moves K s s := Moves.refl s
  unfold Sys2Proof.Machine.execDetach
  repeat' first | with_reducible assumption | with_reducible exact Moves.next ‹_› | with_reducible apply Moves.next | with_reducible apply Ends.ite | with_reducible exact Ends.refused | with_reducible refine Moves.ringPost ?_ ?_

theorem Ends.execEvqPop {p : Port} {h a0 a1 a2 a3 : Word} {s : State} (hk : Sub 0xFFFFFFD9E K := by first | assumption | exact Sub.mono (by assumption) rfl) : Ends K s (Sys2Proof.Machine.execEvqPop p h a0 a1 a2 a3 s) := by
  have h : Moves K s s := Moves.refl s
  unfold Sys2Proof.Machine.execEvqPop
  repeat' first | with_reducible assumption | with_reducible exact Moves.next ‹_› | with_reducible apply Moves.next | with_reducible apply Ends.ite | with_reducible exact Ends.refused | with_reducible refine Moves.ringPost ?_ ?_

theorem Ends.execEvqScan {p : Port} {h a0 a1 a2 a3 : Word} {s : State} (hk : Sub 0xFFFFFFD9E K := by first | assumption | exact Sub.mono (by assumption) rfl) : Ends K s (Sys2Proof.Machine.execEvqScan p h a0 a1 a2 a3 s) := by
  have h : Moves K s s := Moves.refl s
  unfold Sys2Proof.Machine.execEvqScan
  repeat' first | with_reducible assumption | with_reducible exact Moves.next ‹_› | with_reducible apply Moves.next | with_reducible apply Ends.ite | with_reducible exact Ends.refused | with_reducible refine Moves.ringPost ?_ ?_

theorem Ends.execMsgLoad {p : Port} {h a0 a1 a2 a3 : Word} {s : State} (hk : Sub 0xFFFFFFD9E K := by first | assumption | exact Sub.mono (by assumption) rfl) : Ends K s (Sys2Proof.Machine.execMsgLoad p h a0 a1 a2 a3 s) := by
  have h : Moves K s s := Moves.refl s
  unfold Sys2Proof.Machine.execMsgLoad
  repeat' first | with_reducible assumption | with_reducible exact Moves.next ‹_› | with_reducible apply Moves.next | with_reducible apply Ends.ite | with_reducible exact Ends.refused | with_reducible refine Moves.ringPost ?_ ?_

theorem Ends.execBerthInfo {p : Port} {h a0 a1 a2 a3 : Word} {s : State} (hk : Sub 0xFFFFFFD9E K := by first | assumption | exact Sub.mono (by assumption) rfl) : Ends K s (Sys2Proof.Machine.execBerthInfo p h a0 a1 a2 a3 s) := by
  have h : Moves K s s := Moves.refl s
  unfold Sys2Proof.Machine.execBerthInfo
  repeat' first | with_reducible assumption | with_reducible exact Moves.next ‹_› | with_reducible apply Moves.next | with_reducible apply Ends.ite | with_reducible exact Ends.refused | with_reducible refine Moves.ringPost ?_ ?_

theorem Ends.execFrameSend {p : Port} {a0 a1 a2 a3 : Word} {s : State} (hk : Sub 0xFFFFFFD9E K := by first | assumption | exact Sub.mono (by assumption) rfl) : Ends K s (Sys2Proof.Machine.execFrameSend p a0 a1 a2 a3 s) := by
  have h : Moves K s s := Moves.refl s
  unfold Sys2Proof.Machine.execFrameSend
  repeat' first | with_reducible assumption | with_reducible exact Moves.next ‹_› | with_reducible apply Moves.next | with_reducible apply Ends.ite | with_reducible exact Ends.refused | with_reducible refine Moves.ringPost ?_ ?_

theorem Ends.execFrameRecv {p : Port} {a0 a1 a2 a3 : Word} {s : State} (hk : Sub 0xFFFFFFD9E K := by first | assumption | exact Sub.mono (by assumption) rfl) : Ends K s (Sys2Proof.Machine.execFrameRecv p a0 a1 a2 a3 s) := by
  have h : Moves K s s := Moves.refl s
  unfold Sys2Proof.Machine.execFrameRecv
  repeat' first | with_reducible assumption | with_reducible exact Moves.next ‹_› | with_reducible apply Moves.next | with_reducible apply Ends.ite | with_reducible exact Ends.refused | with_reducible refine Moves.ringPost ?_ ?_

theorem Ends.execTenantOpen {p : Port} {h a0 a1 a2 a3 : Word} {s : State} (hk : Sub 0xFFFFFFD9E K := by first | assumption | exact Sub.mono (by assumption) rfl) : Ends K s (Sys2Proof.Machine.execTenantOpen p h a0 a1 a2 a3 s) := by
  have h : Moves K s s := Moves.refl s
  unfold Sys2Proof.Machine.execTenantOpen
  repeat' first | with_reducible assumption | with_reducible exact Moves.next ‹_› | with_reducible apply Moves.next | with_reducible apply Ends.ite | with_reducible exact Ends.refused | with_reducible refine Moves.ringPost ?_ ?_

theorem Ends.execTenantClose {p : Port} {h a0 a1 a2 a3 : Word} {s : State} (hk : Sub 0xFFFFFFD9E K := by first | assumption | exact Sub.mono (by assumption) rfl) : Ends K s (Sys2Proof.Machine.execTenantClose p h a0 a1 a2 a3 s) := by
  have h : Moves K s s := Moves.refl s
  unfold Sys2Proof.Machine.execTenantClose
  repeat' first | with_reducible assumption | with_reducible exact Moves.next ‹_› | with_reducible apply Moves.next | with_reducible apply Ends.ite | with_reducible exact Ends.refused | with_reducible refine Moves.ringPost ?_ ?_

theorem Ends.execManPeek {p : Port} {h a0 a1 a2 a3 : Word} {s : State} (hk : Sub 0xFFFFFFD9E K := by first | assumption | exact Sub.mono (by assumption) rfl) : Ends K s (Sys2Proof.Machine.execManPeek p h a0 a1 a2 a3 s) := by
  have h : Moves K s s := Moves.refl s
  unfold Sys2Proof.Machine.execManPeek
  repeat' first | with_reducible assumption | with_reducible exact Moves.next ‹_› | with_reducible apply Moves.next | with_reducible apply Ends.ite | with_reducible exact Ends.refused | with_reducible refine Moves.ringPost ?_ ?_

theorem Ends.execManExport {p : Port} {h a0 a1 a2 a3 : Word} {s : State} (hk : Sub 0xFFFFFFD9E K := by first | assumption | exact Sub.mono (by assumption) rfl) : Ends K s (Sys2Proof.Machine.execManExport p h a0 a1 a2 a3 s) := by
  have h : Moves K s s := Moves.refl s
  unfold Sys2Proof.Machine.execManExport
  repeat' first | with_reducible assumption | with_reducible exact Moves.next ‹_› | with_reducible apply Moves.next | with_reducible apply Ends.ite | with_reducible exact Ends.refused | with_reducible refine Moves.ringPost ?_ ?_

end Sys2Proof.Machine
end

