-- ==== Sys2Proof/Laws/KeepXlk.lean ====
section
/-! SUPPORT. What the operations of Machine/Xlk.lean keep: the queue, the canonical form of the tables, and the parts of the state outside those named. -/

set_option Elab.async false

set_option linter.unreachableTactic false
set_option linter.unusedTactic false

namespace Sys2Proof.Machine

variable {K : Nat}

theorem Moves.modXlk {g : XlkCore → XlkCore} {s0 s : State} (hs : Moves K s0 s) (hk : Sub 0x100000 K := by first | assumption | exact Sub.mono (by assumption) rfl) : Moves K s0 (State.modXlk s g) := by
  unfold State.modXlk
  repeat' first | with_reducible assumption | with_reducible apply Moves.ite | fail_if_no_progress (with_reducible refine Moves.plain ?_ ?_ ?_ ?_ ?_ ?_ ?_ ?_ ?_ ?_ ?_ ?_ ?_ ?_ ?_ ?_ ?_ <;> first | ((with_reducible refine Or.inr (Sub.bit hk ?_)); decide) | with_reducible exact Or.inl rfl | skip)

theorem Moves.echoReturn {n k : Nat} {s0 s : State} (hs : Moves K s0 s) (hk : Sub 0x1801004 K := by first | assumption | exact Sub.mono (by assumption) rfl) : Moves K s0 (State.echoReturn s n k) := by
  unfold State.echoReturn
  repeat' first | with_reducible assumption | ((with_reducible refine Sub.mono hk ?_); rfl) | with_reducible refine Moves.setCstate ?_ ?_ | with_reducible apply Moves.ite | with_reducible intro _ _ _ _ _ | with_reducible intro _ _ _ | with_reducible intro _ _ | extract_lets | split

theorem Moves.xlinkRanks {echo : List (Nat × Nat)} {s0 s : State} (hs : Moves K s0 s) (hk : Sub 0x587991004 K := by first | assumption | exact Sub.mono (by assumption) rfl) : Moves K s0 (State.xlinkRanks s echo) := by
  unfold State.xlinkRanks
  repeat' first | with_reducible assumption | ((with_reducible refine Sub.mono hk ?_); rfl) | with_reducible refine Moves.forL ?_ ?_ | with_reducible refine Moves.rankStep ?_ ?_ | with_reducible refine Moves.putRank ?_ ?_ | with_reducible refine Moves.echoReturn ?_ ?_ | with_reducible refine Moves.entriesCheck ?_ ?_ | with_reducible apply Moves.ite | with_reducible intro _ _ _ _ _ | with_reducible intro _ _ _ | with_reducible intro _ _ | extract_lets | split

theorem Moves.activateGo {s0 s : State} (hs : Moves K s0 s) (hk : Sub 0xFFFFFFD9E K := by first | assumption | exact Sub.mono (by assumption) rfl) : Moves K s0 (State.activateGo s) := by
  unfold State.activateGo
  repeat' first | with_reducible assumption | ((with_reducible refine Sub.mono hk ?_); rfl) | with_reducible refine Moves.setf ?_ ?_ | with_reducible refine Moves.commitBoot ?_ ?_ | with_reducible refine Moves.fullReset ?_ ?_

theorem Moves.fabDone {opc : Nat} {c : Code} {s0 s : State} (hs : Moves K s0 s) (hk : Sub 0x1404 K := by first | assumption | exact Sub.mono (by assumption) rfl) : Moves K s0 (State.fabDone s opc c) := by
  unfold State.fabDone
  repeat' first | with_reducible assumption | ((with_reducible refine Sub.mono hk ?_); rfl) | with_reducible refine Moves.setf ?_ ?_ | with_reducible refine Moves.raise ?_ ?_ | with_reducible apply Moves.ite | fail_if_no_progress (with_reducible refine Moves.plain ?_ ?_ ?_ ?_ ?_ ?_ ?_ ?_ ?_ ?_ ?_ ?_ ?_ ?_ ?_ ?_ ?_ <;> first | ((with_reducible refine Or.inr (Sub.bit hk ?_)); decide) | with_reducible exact Or.inl rfl | skip)

theorem Moves.switchFails {event : Bool} {s0 s : State} (hs : Moves K s0 s) (hk : Sub 0x101404 K := by first | assumption | exact Sub.mono (by assumption) rfl) : Moves K s0 (State.switchFails s event) := by
  unfold State.switchFails
  repeat' first | with_reducible assumption | ((with_reducible refine Sub.mono hk ?_); rfl) | with_reducible refine Moves.modXlk ?_ ?_ | with_reducible refine Moves.setf ?_ ?_ | with_reducible refine Moves.evIf ?_ ?_ | with_reducible refine Moves.fabDone ?_ ?_ | with_reducible refine Moves.complete ?_ ?_ | with_reducible apply Moves.ite | fail_if_no_progress (with_reducible refine Moves.plain ?_ ?_ ?_ ?_ ?_ ?_ ?_ ?_ ?_ ?_ ?_ ?_ ?_ ?_ ?_ ?_ ?_ <;> first | ((with_reducible refine Or.inr (Sub.bit hk ?_)); decide) | with_reducible exact Or.inl rfl | skip) | fail_if_no_progress (with_reducible refine Moves.plainNv ?_ rfl rfl rfl ?_ ?_ ?_ ?_ ?_ ?_ ?_ ?_ ?_ ?_ ?_ ?_ ?_ ?_ ?_ ?_ ?_ <;> first | ((with_reducible refine Or.inr (Sub.bit hk ?_)); decide) | with_reducible exact Or.inl rfl | skip) | with_reducible intro _ _ _ _ _ | with_reducible intro _ _ _ | with_reducible intro _ _ | extract_lets | split

theorem Moves.breakPair {s0 s : State} (hs : Moves K s0 s) (hk : Sub 0x587991404 K := by first | assumption | exact Sub.mono (by assumption) rfl) : Moves K s0 (State.breakPair s) := by
  unfold State.breakPair
  repeat' first | with_reducible assumption | ((with_reducible refine Sub.mono hk ?_); rfl) | with_reducible refine Moves.switchFails ?_ ?_ | with_reducible refine Moves.setf ?_ ?_ | with_reducible refine Moves.modXlk ?_ ?_ | with_reducible refine Moves.refreshGood ?_ ?_ | with_reducible refine Moves.setb ?_ ?_ | with_reducible refine Moves.ev ?_ ?_ | with_reducible refine Moves.xlinkRanks ?_ ?_ | with_reducible refine Moves.evIf ?_ ?_ | with_reducible refine Moves.forN ?_ ?_ | with_reducible refine Moves.evaluate ?_ ?_ | with_reducible apply Moves.ite | with_reducible intro _ _ _ _ _ | with_reducible intro _ _ _ | with_reducible intro _ _ | extract_lets | split

theorem Moves.negotiate {s0 s : State} (hs : Moves K s0 s) (hk : Sub 0x587991404 K := by first | assumption | exact Sub.mono (by assumption) rfl) : Moves K s0 (State.negotiate s) := by
  unfold State.negotiate
  repeat' first | with_reducible assumption | ((with_reducible refine Sub.mono hk ?_); rfl) | with_reducible refine Moves.modXlk ?_ ?_ | with_reducible refine Moves.breakPair ?_ ?_ | with_reducible refine Moves.ev ?_ ?_ | with_reducible refine Moves.setf ?_ ?_ | with_reducible refine Moves.setb ?_ ?_ | with_reducible refine Moves.evIf ?_ ?_ | with_reducible apply Moves.ite | with_reducible intro _ _ _ _ _ | with_reducible intro _ _ _ | with_reducible intro _ _ | extract_lets | split

theorem Moves.hushClients {s0 s : State} (hs : Moves K s0 s) (hk : Sub 0x100000004 K := by first | assumption | exact Sub.mono (by assumption) rfl) : Moves K s0 (State.hushClients s) := by
  unfold State.hushClients
  repeat' first | with_reducible assumption | ((with_reducible refine Sub.mono hk ?_); rfl) | with_reducible refine Moves.forN ?_ ?_ | with_reducible refine Moves.setf ?_ ?_ | with_reducible refine Moves.modPrt ?_ ?_ | with_reducible apply Moves.ite | with_reducible intro _ _ _ _ _ | with_reducible intro _ _ _ | with_reducible intro _ _ | extract_lets | split

theorem Moves.takeRole {active : Bool} {s0 s : State} (hs : Moves K s0 s) (hk : Sub 0x100100004 K := by first | assumption | exact Sub.mono (by assumption) rfl) : Moves K s0 (State.takeRole s active) := by
  unfold State.takeRole
  repeat' first | with_reducible assumption | ((with_reducible refine Sub.mono hk ?_); rfl) | with_reducible refine Moves.refreshGood ?_ ?_ | with_reducible refine Moves.setf ?_ ?_ | with_reducible refine Moves.hushClients ?_ ?_ | with_reducible apply Moves.ite | with_reducible intro _ _ _ _ _ | with_reducible intro _ _ _ | with_reducible intro _ _ | extract_lets | split

theorem Moves.formPair {s0 s : State} (hs : Moves K s0 s) (hk : Sub 0x587991004 K := by first | assumption | exact Sub.mono (by assumption) rfl) : Moves K s0 (State.formPair s) := by
  unfold State.formPair
  repeat' first | with_reducible assumption | ((with_reducible refine Sub.mono hk ?_); rfl) | with_reducible refine Moves.takeRole ?_ ?_ | with_reducible refine Moves.modXlk ?_ ?_ | with_reducible refine Moves.setf ?_ ?_ | with_reducible refine Moves.xlinkRanks ?_ ?_ | with_reducible refine Moves.ev ?_ ?_ | with_reducible refine Moves.forN ?_ ?_ | with_reducible refine Moves.evaluate ?_ ?_ | with_reducible apply Moves.ite | with_reducible intro _ _ _ _ _ | with_reducible intro _ _ _ | with_reducible intro _ _ | extract_lets | split

theorem Moves.switchTo {active : Bool} {s0 s : State} (hs : Moves K s0 s) (hk : Sub 0x587991004 K := by first | assumption | exact Sub.mono (by assumption) rfl) : Moves K s0 (State.switchTo s active) := by
  unfold State.switchTo
  repeat' first | with_reducible assumption | ((with_reducible refine Sub.mono hk ?_); rfl) | with_reducible refine Moves.modXlk ?_ ?_ | with_reducible refine Moves.takeRole ?_ ?_ | with_reducible refine Moves.forL ?_ ?_ | with_reducible refine Moves.evaluate ?_ ?_ | with_reducible refine Moves.follow ?_ ?_ | with_reducible refine Moves.selHoldover ?_ ?_ | with_reducible refine Moves.freezeLoop ?_ ?_ | with_reducible refine Moves.forN ?_ ?_ | with_reducible refine Moves.ev ?_ ?_ | with_reducible apply Moves.ite | with_reducible intro _ _ _ _ _ | with_reducible intro _ _ _ | with_reducible intro _ _ | extract_lets | split

theorem Moves.pairExchange {lane : Nat} {x : Option (Int × Int)} {s0 s : State} (hs : Moves K s0 s) (hk : Sub 0x100004 K := by first | assumption | exact Sub.mono (by assumption) rfl) : Moves K s0 (State.pairExchange s lane x) := by
  unfold State.pairExchange
  repeat' first | with_reducible assumption | ((with_reducible refine Sub.mono hk ?_); rfl) | with_reducible refine Moves.modXlk ?_ ?_ | with_reducible refine Moves.setw ?_ ?_ | with_reducible refine Moves.setSat ?_ ?_ | with_reducible apply Moves.ite | fail_if_no_progress (with_reducible refine Moves.plain ?_ ?_ ?_ ?_ ?_ ?_ ?_ ?_ ?_ ?_ ?_ ?_ ?_ ?_ ?_ ?_ ?_ <;> first | ((with_reducible refine Or.inr (Sub.bit hk ?_)); decide) | with_reducible exact Or.inl rfl | skip) | fail_if_no_progress (with_reducible refine Moves.plainNv ?_ rfl rfl rfl ?_ ?_ ?_ ?_ ?_ ?_ ?_ ?_ ?_ ?_ ?_ ?_ ?_ ?_ ?_ ?_ ?_ <;> first | ((with_reducible refine Or.inr (Sub.bit hk ?_)); decide) | with_reducible exact Or.inl rfl | skip) | with_reducible intro _ _ _ _ _ | with_reducible intro _ _ _ | with_reducible intro _ _ | extract_lets | split

theorem Moves.phaseEntry {lane : Nat} {cap : StampCap} {e : List Byte} {s0 s : State} (hs : Moves K s0 s) (hk : Sub 0x100004 K := by first | assumption | exact Sub.mono (by assumption) rfl) : Moves K s0 (State.phaseEntry s lane cap e) := by
  unfold State.phaseEntry
  repeat' first | with_reducible assumption | ((with_reducible refine Sub.mono hk ?_); rfl) | with_reducible refine Moves.modXlk ?_ ?_ | with_reducible refine Moves.pairExchange ?_ ?_ | with_reducible apply Moves.ite | with_reducible intro _ _ _ _ _ | with_reducible intro _ _ _ | with_reducible intro _ _ | extract_lets | split | dsimp +zetaDelta only

theorem Moves.todFromPartner {e : List Byte} {s0 s : State} (hs : Moves K s0 s) (hk : Sub 0x4 K := by first | assumption | exact Sub.mono (by assumption) rfl) : Moves K s0 (State.todFromPartner s e) := by
  unfold State.todFromPartner
  repeat' first | with_reducible assumption | with_reducible refine Moves.setf ?_ ?_ | with_reducible refine Moves.setb ?_ ?_ | with_reducible apply Moves.ite

theorem Moves.berthEntryIn {e : List Byte} {s0 s : State} (hs : Moves K s0 s) (hk : Sub 0x600001004 K := by first | assumption | exact Sub.mono (by assumption) rfl) : Moves K s0 (State.berthEntryIn s e) := by
  unfold State.berthEntryIn
  repeat' first | with_reducible assumption | ((with_reducible refine Sub.mono hk ?_); rfl) | with_reducible refine Moves.modPte ?_ ?_ | with_reducible refine Moves.inc ?_ ?_ | with_reducible refine Moves.ev ?_ ?_ | with_reducible refine Moves.modBerth ?_ ?_ | with_reducible apply Moves.ite

theorem Moves.switchRequest {token : Nat} {s0 s : State} (hs : Moves K s0 s) (hk : Sub 0x100000 K := by first | assumption | exact Sub.mono (by assumption) rfl) : Moves K s0 (State.switchRequest s token) := by
  unfold State.switchRequest
  repeat' first | with_reducible assumption | ((with_reducible refine Sub.mono hk ?_); rfl) | with_reducible refine Moves.xlkSendBoth ?_ ?_ | with_reducible refine Moves.modXlk ?_ ?_ | with_reducible apply Moves.ite | with_reducible intro _ _ _ _ _ | with_reducible intro _ _ _ | with_reducible intro _ _ | extract_lets | split

theorem Moves.switchAccept {token : Nat} {s0 s : State} (hs : Moves K s0 s) (hk : Sub 0xFFFFFFD9E K := by first | assumption | exact Sub.mono (by assumption) rfl) : Moves K s0 (State.switchAccept s token) := by
  unfold State.switchAccept
  repeat' first | with_reducible assumption | ((with_reducible refine Sub.mono hk ?_); rfl) | with_reducible refine Moves.xlkSendBoth ?_ ?_ | with_reducible refine Moves.modXlk ?_ ?_ | with_reducible refine Moves.setf ?_ ?_ | with_reducible refine Moves.switchTo ?_ ?_ | with_reducible refine Moves.negotiate ?_ ?_ | with_reducible refine Moves.activateGo ?_ ?_ | with_reducible refine Moves.complete ?_ ?_ | with_reducible apply Moves.ite | fail_if_no_progress (with_reducible refine Moves.plain ?_ ?_ ?_ ?_ ?_ ?_ ?_ ?_ ?_ ?_ ?_ ?_ ?_ ?_ ?_ ?_ ?_ <;> first | ((with_reducible refine Or.inr (Sub.bit hk ?_)); decide) | with_reducible exact Or.inl rfl | skip) | fail_if_no_progress (with_reducible refine Moves.plainNv ?_ rfl rfl rfl ?_ ?_ ?_ ?_ ?_ ?_ ?_ ?_ ?_ ?_ ?_ ?_ ?_ ?_ ?_ ?_ ?_ <;> first | ((with_reducible refine Or.inr (Sub.bit hk ?_)); decide) | with_reducible exact Or.inl rfl | skip) | with_reducible intro _ _ _ _ _ | with_reducible intro _ _ _ | with_reducible intro _ _ | extract_lets | split

theorem Moves.switchFrame {body : List Byte} {s0 s : State} (hs : Moves K s0 s) (hk : Sub 0xFFFFFFD9E K := by first | assumption | exact Sub.mono (by assumption) rfl) : Moves K s0 (State.switchFrame s body) := by
  unfold State.switchFrame
  repeat' first | with_reducible assumption | ((with_reducible refine Sub.mono hk ?_); rfl) | with_reducible refine Moves.switchRequest ?_ ?_ | with_reducible refine Moves.switchAccept ?_ ?_ | with_reducible refine Moves.negotiate ?_ ?_ | with_reducible refine Moves.switchFails ?_ ?_ | with_reducible refine Moves.switchTo ?_ ?_ | with_reducible apply Moves.ite | with_reducible intro _ _ _ _ _ | with_reducible intro _ _ _ | with_reducible intro _ _ | extract_lets | split

theorem Moves.xlkCrcErr {s0 s : State} (hs : Moves K s0 s) (hk : Sub 0x1004 K := by first | assumption | exact Sub.mono (by assumption) rfl) : Moves K s0 (State.xlkCrcErr s) := by
  unfold State.xlkCrcErr
  repeat' first | with_reducible assumption | ((with_reducible refine Sub.mono hk ?_); rfl) | with_reducible refine Moves.inc ?_ ?_ | with_reducible refine Moves.ev ?_ ?_

theorem Moves.xlkHeader {b : List Byte} {s0 s : State} (hs : Moves K s0 s) (hk : Sub 0x587991004 K := by first | assumption | exact Sub.mono (by assumption) rfl) : Moves K s0 (State.xlkHeader s b) := by
  unfold State.xlkHeader
  repeat' first | with_reducible assumption | ((with_reducible refine Sub.mono hk ?_); rfl) | with_reducible refine Moves.setb ?_ ?_ | with_reducible refine Moves.setf ?_ ?_ | with_reducible refine Moves.modXlk ?_ ?_ | with_reducible refine Moves.xlinkRanks ?_ ?_ | with_reducible apply Moves.ite | with_reducible intro _ _ _ _ _ | with_reducible intro _ _ _ | with_reducible intro _ _ | extract_lets | split

theorem Moves.xlkBody {lane type : Nat} {body : List Byte} {cap : StampCap} {s0 s : State} (hs : Moves K s0 s) (hk : Sub 0xFFFFFFD9E K := by first | assumption | exact Sub.mono (by assumption) rfl) : Moves K s0 (State.xlkBody s lane type body cap) := by
  unfold State.xlkBody
  repeat' first | with_reducible assumption | ((with_reducible refine Sub.mono hk ?_); rfl) | with_reducible refine Moves.setf ?_ ?_ | with_reducible refine Moves.modXlk ?_ ?_ | with_reducible refine Moves.negotiate ?_ ?_ | with_reducible refine Moves.formPair ?_ ?_ | with_reducible refine Moves.forL ?_ ?_ | with_reducible refine Moves.phaseEntry ?_ ?_ | with_reducible refine Moves.todFromPartner ?_ ?_ | with_reducible refine Moves.berthEntryIn ?_ ?_ | with_reducible refine Moves.switchFrame ?_ ?_ | with_reducible refine Moves.breakPair ?_ ?_ | with_reducible apply Moves.ite | with_reducible intro _ _ _ _ _ | with_reducible intro _ _ _ | with_reducible intro _ _ | extract_lets | split

theorem Moves.laneSettle {lane : Nat} {s0 s : State} (hs : Moves K s0 s) (hk : Sub 0x500004 K := by first | assumption | exact Sub.mono (by assumption) rfl) : Moves K s0 (State.laneSettle s lane) := by
  unfold State.laneSettle
  repeat' first | with_reducible assumption | ((with_reducible refine Sub.mono hk ?_); rfl) | with_reducible refine Moves.modXlk ?_ ?_ | with_reducible refine Moves.refreshSettling ?_ ?_ | with_reducible refine Moves.modLnd ?_ ?_ | with_reducible apply Moves.ite | with_reducible intro _ _ _ _ _ | with_reducible intro _ _ _ | with_reducible intro _ _ | extract_lets | split

theorem Moves.laneFrame {lane : Nat} {s0 s : State} (hs : Moves K s0 s) (hk : Sub 0x500004 K := by first | assumption | exact Sub.mono (by assumption) rfl) : Moves K s0 (State.laneFrame s lane) := by
  unfold State.laneFrame
  repeat' first | with_reducible assumption | ((with_reducible refine Sub.mono hk ?_); rfl) | with_reducible refine Moves.modXlk ?_ ?_ | with_reducible refine Moves.refreshSettling ?_ ?_ | with_reducible refine Moves.modLnd ?_ ?_ | with_reducible apply Moves.ite | with_reducible intro _ _ _ _ _ | with_reducible intro _ _ _ | with_reducible intro _ _ | extract_lets | split

theorem Moves.laneDrop {lane : Nat} {f : XlkFrame} {s0 s : State} (hs : Moves K s0 s) (hk : Sub 0x100004 K := by first | assumption | exact Sub.mono (by assumption) rfl) : Moves K s0 (State.laneDrop s lane f) := by
  unfold State.laneDrop
  repeat' first | with_reducible assumption | ((with_reducible refine Sub.mono hk ?_); rfl) | with_reducible refine Moves.wharfDrop ?_ ?_ | with_reducible refine Moves.pairExchange ?_ ?_ | with_reducible apply Moves.ite | with_reducible intro _ _ _ _ _ | with_reducible intro _ _ _ | with_reducible intro _ _ | extract_lets | split

theorem Moves.xlkRx {lane : Nat} {f : XlkFrame} {s0 s : State} (hs : Moves K s0 s) (hk : Sub 0xFFFFFFD9E K := by first | assumption | exact Sub.mono (by assumption) rfl) : Moves K s0 (State.xlkRx s lane f) := by
  unfold State.xlkRx
  repeat' first | with_reducible assumption | ((with_reducible refine Sub.mono hk ?_); rfl) | with_reducible refine Moves.laneDrop ?_ ?_ | with_reducible refine Moves.xlkCrcErr ?_ ?_ | with_reducible refine Moves.laneFrame ?_ ?_ | with_reducible refine Moves.modXlk ?_ ?_ | with_reducible refine Moves.xlkBody ?_ ?_ | with_reducible refine Moves.inc ?_ ?_ | with_reducible refine Moves.xlkHeader ?_ ?_ | with_reducible apply Moves.ite | with_reducible intro _ _ _ _ _ | with_reducible intro _ _ _ | with_reducible intro _ _ | extract_lets | split

theorem Ends.execHelloReceived {lane : Fin 2} {f : XlkFrame} {s : State} (hk : Sub 0xFFFFFFD9E K := by first | assumption | exact Sub.mono (by assumption) rfl) : Ends K s (Sys2Proof.Machine.execHelloReceived lane f s) := by
  have h : Moves K s s := Moves.refl s
  unfold Sys2Proof.Machine.execHelloReceived
  repeat' first | with_reducible assumption | with_reducible exact Moves.next ‹_› | with_reducible apply Moves.next | with_reducible apply Ends.ite | with_reducible exact Ends.refused | with_reducible refine Moves.xlkRx ?_ ?_

theorem Ends.execHeartbeatReceived {lane : Fin 2} {f : XlkFrame} {s : State} (hk : Sub 0xFFFFFFD9E K := by first | assumption | exact Sub.mono (by assumption) rfl) : Ends K s (Sys2Proof.Machine.execHeartbeatReceived lane f s) := by
  have h : Moves K s s := Moves.refl s
  unfold Sys2Proof.Machine.execHeartbeatReceived
  repeat' first | with_reducible assumption | with_reducible exact Moves.next ‹_› | with_reducible apply Moves.next | with_reducible apply Ends.ite | with_reducible exact Ends.refused | with_reducible refine Moves.xlkRx ?_ ?_

theorem Ends.execPhaseReceived {lane : Fin 2} {f : XlkFrame} {s : State} (hk : Sub 0xFFFFFFD9E K := by first | assumption | exact Sub.mono (by assumption) rfl) : Ends K s (Sys2Proof.Machine.execPhaseReceived lane f s) := by
  have h : Moves K s s := Moves.refl s
  unfold Sys2Proof.Machine.execPhaseReceived
  repeat' first | with_reducible assumption | with_reducible exact Moves.next ‹_› | with_reducible apply Moves.next | with_reducible apply Ends.ite | with_reducible exact Ends.refused | with_reducible refine Moves.xlkRx ?_ ?_

theorem Ends.execLoopstateReceived {lane : Fin 2} {f : XlkFrame} {s : State} (hk : Sub 0xFFFFFFD9E K := by first | assumption | exact Sub.mono (by assumption) rfl) : Ends K s (Sys2Proof.Machine.execLoopstateReceived lane f s) := by
  have h : Moves K s s := Moves.refl s
  unfold Sys2Proof.Machine.execLoopstateReceived
  repeat' first | with_reducible assumption | with_reducible exact Moves.next ‹_› | with_reducible apply Moves.next | with_reducible apply Ends.ite | with_reducible exact Ends.refused | with_reducible refine Moves.xlkRx ?_ ?_

theorem Ends.execTimestateReceived {lane : Fin 2} {f : XlkFrame} {s : State} (hk : Sub 0xFFFFFFD9E K := by first | assumption | exact Sub.mono (by assumption) rfl) : Ends K s (Sys2Proof.Machine.execTimestateReceived lane f s) := by
  have h : Moves K s s := Moves.refl s
  unfold Sys2Proof.Machine.execTimestateReceived
  repeat' first | with_reducible assumption | with_reducible exact Moves.next ‹_› | with_reducible apply Moves.next | with_reducible apply Ends.ite | with_reducible exact Ends.refused | with_reducible refine Moves.xlkRx ?_ ?_

theorem Ends.execBerthstateReceived {lane : Fin 2} {f : XlkFrame} {s : State} (hk : Sub 0xFFFFFFD9E K := by first | assumption | exact Sub.mono (by assumption) rfl) : Ends K s (Sys2Proof.Machine.execBerthstateReceived lane f s) := by
  have h : Moves K s s := Moves.refl s
  unfold Sys2Proof.Machine.execBerthstateReceived
  repeat' first | with_reducible assumption | with_reducible exact Moves.next ‹_› | with_reducible apply Moves.next | with_reducible apply Ends.ite | with_reducible exact Ends.refused | with_reducible refine Moves.xlkRx ?_ ?_

theorem Ends.execSwitchRequestReceived {lane : Fin 2} {f : XlkFrame} {s : State} (hk : Sub 0xFFFFFFD9E K := by first | assumption | exact Sub.mono (by assumption) rfl) : Ends K s (Sys2Proof.Machine.execSwitchRequestReceived lane f s) := by
  have h : Moves K s s := Moves.refl s
  unfold Sys2Proof.Machine.execSwitchRequestReceived
  repeat' first | with_reducible assumption | with_reducible exact Moves.next ‹_› | with_reducible apply Moves.next | with_reducible apply Ends.ite | with_reducible exact Ends.refused | with_reducible refine Moves.xlkRx ?_ ?_

theorem Ends.execSwitchAcceptReceived {lane : Fin 2} {f : XlkFrame} {s : State} (hk : Sub 0xFFFFFFD9E K := by first | assumption | exact Sub.mono (by assumption) rfl) : Ends K s (Sys2Proof.Machine.execSwitchAcceptReceived lane f s) := by
  have h : Moves K s s := Moves.refl s
  unfold Sys2Proof.Machine.execSwitchAcceptReceived
  repeat' first | with_reducible assumption | with_reducible exact Moves.next ‹_› | with_reducible apply Moves.next | with_reducible apply Ends.ite | with_reducible exact Ends.refused | with_reducible refine Moves.xlkRx ?_ ?_

theorem Ends.execSwitchRefuseReceived {lane : Fin 2} {f : XlkFrame} {s : State} (hk : Sub 0xFFFFFFD9E K := by first | assumption | exact Sub.mono (by assumption) rfl) : Ends K s (Sys2Proof.Machine.execSwitchRefuseReceived lane f s) := by
  have h : Moves K s s := Moves.refl s
  unfold Sys2Proof.Machine.execSwitchRefuseReceived
  repeat' first | with_reducible assumption | with_reducible exact Moves.next ‹_› | with_reducible apply Moves.next | with_reducible apply Ends.ite | with_reducible exact Ends.refused | with_reducible refine Moves.xlkRx ?_ ?_

theorem Ends.execSwitchCommitReceived {lane : Fin 2} {f : XlkFrame} {s : State} (hk : Sub 0xFFFFFFD9E K := by first | assumption | exact Sub.mono (by assumption) rfl) : Ends K s (Sys2Proof.Machine.execSwitchCommitReceived lane f s) := by
  have h : Moves K s s := Moves.refl s
  unfold Sys2Proof.Machine.execSwitchCommitReceived
  repeat' first | with_reducible assumption | with_reducible exact Moves.next ‹_› | with_reducible apply Moves.next | with_reducible apply Ends.ite | with_reducible exact Ends.refused | with_reducible refine Moves.xlkRx ?_ ?_

theorem Ends.execNoticeReceived {lane : Fin 2} {f : XlkFrame} {s : State} (hk : Sub 0xFFFFFFD9E K := by first | assumption | exact Sub.mono (by assumption) rfl) : Ends K s (Sys2Proof.Machine.execNoticeReceived lane f s) := by
  have h : Moves K s s := Moves.refl s
  unfold Sys2Proof.Machine.execNoticeReceived
  repeat' first | with_reducible assumption | with_reducible exact Moves.next ‹_› | with_reducible apply Moves.next | with_reducible apply Ends.ite | with_reducible exact Ends.refused | with_reducible refine Moves.xlkRx ?_ ?_

theorem Ends.execXlkFrameDrop {lane : Fin 2} {wrongVer : Bool} {s : State} (hk : Sub 0x1004 K := by first | assumption | exact Sub.mono (by assumption) rfl) : Ends K s (Sys2Proof.Machine.execXlkFrameDrop lane wrongVer s) := by
  have h : Moves K s s := Moves.refl s
  unfold Sys2Proof.Machine.execXlkFrameDrop
  repeat' first | with_reducible assumption | ((with_reducible refine Sub.mono hk ?_); rfl) | with_reducible exact Moves.next ‹_› | with_reducible apply Moves.next | with_reducible apply Ends.ite | with_reducible exact Ends.refused | with_reducible refine Moves.inc ?_ ?_ | with_reducible refine Moves.xlkCrcErr ?_ ?_

theorem Ends.execHelloTx {s : State} (hk : Sub 0x100000 K := by first | assumption | exact Sub.mono (by assumption) rfl) : Ends K s (Sys2Proof.Machine.execHelloTx s) := by
  have h : Moves K s s := Moves.refl s
  unfold Sys2Proof.Machine.execHelloTx
  repeat' first | with_reducible assumption | with_reducible exact Moves.next ‹_› | with_reducible apply Moves.next | with_reducible apply Ends.ite | with_reducible exact Ends.refused | with_reducible refine Moves.xlkSendBoth ?_ ?_

theorem Ends.execHeartbeatTx {s : State} (hk : Sub 0x100000 K := by first | assumption | exact Sub.mono (by assumption) rfl) : Ends K s (Sys2Proof.Machine.execHeartbeatTx s) := by
  have h : Moves K s s := Moves.refl s
  unfold Sys2Proof.Machine.execHeartbeatTx
  repeat' first | with_reducible assumption | with_reducible exact Moves.next ‹_› | with_reducible apply Moves.next | with_reducible apply Ends.ite | with_reducible exact Ends.refused | with_reducible refine Moves.xlkSendBoth ?_ ?_

theorem Ends.execPhaseTx {lane : Fin 2} {x : TxCapture} {s : State} (hk : Sub 0x100004 K := by first | assumption | exact Sub.mono (by assumption) rfl) : Ends K s (Sys2Proof.Machine.execPhaseTx lane x s) := by
  have h : Moves K s s := Moves.refl s
  unfold Sys2Proof.Machine.execPhaseTx
  repeat' first | with_reducible assumption | ((with_reducible refine Sub.mono hk ?_); rfl) | with_reducible exact Moves.next ‹_› | with_reducible apply Moves.next | with_reducible apply Ends.ite | with_reducible exact Ends.refused | with_reducible refine First.wharfStamp ?_ ?_ | with_reducible refine (First.wharfStamp ?_ ?_).out ‹_› | with_reducible refine (First.wharfStamp ?_ ?_).fst | with_reducible refine Moves.xlkSend ?_ ?_ | with_reducible apply Moves.ite | with_reducible apply First.ite | with_reducible intro _ _ _ _ _ | with_reducible intro _ _ _ | with_reducible intro _ _ | extract_lets | split | with_reducible apply First.mk

theorem Ends.execLoopstateTx {s : State} (hk : Sub 0x100000 K := by first | assumption | exact Sub.mono (by assumption) rfl) : Ends K s (Sys2Proof.Machine.execLoopstateTx s) := by
  have h : Moves K s s := Moves.refl s
  unfold Sys2Proof.Machine.execLoopstateTx
  repeat' first | with_reducible assumption | with_reducible exact Moves.next ‹_› | with_reducible apply Moves.next | with_reducible apply Ends.ite | with_reducible exact Ends.refused | with_reducible refine Moves.xlkSendBoth ?_ ?_

theorem Ends.execTimestateTx {s : State} (hk : Sub 0x100000 K := by first | assumption | exact Sub.mono (by assumption) rfl) : Ends K s (Sys2Proof.Machine.execTimestateTx s) := by
  have h : Moves K s s := Moves.refl s
  unfold Sys2Proof.Machine.execTimestateTx
  repeat' first | with_reducible assumption | with_reducible exact Moves.next ‹_› | with_reducible apply Moves.next | with_reducible apply Ends.ite | with_reducible exact Ends.refused | with_reducible refine Moves.xlkSendBoth ?_ ?_

theorem Ends.execBerthstateTx {slot : Fin 8192} {s : State} (hk : Sub 0x100000 K := by first | assumption | exact Sub.mono (by assumption) rfl) : Ends K s (Sys2Proof.Machine.execBerthstateTx slot s) := by
  have h : Moves K s s := Moves.refl s
  unfold Sys2Proof.Machine.execBerthstateTx
  repeat' first | with_reducible assumption | with_reducible exact Moves.next ‹_› | with_reducible apply Moves.next | with_reducible apply Ends.ite | with_reducible exact Ends.refused | with_reducible refine Moves.xlkSendBoth ?_ ?_

theorem Ends.execHeartbeatLoss {s : State} (hk : Sub 0x587991404 K := by first | assumption | exact Sub.mono (by assumption) rfl) : Ends K s (Sys2Proof.Machine.execHeartbeatLoss s) := by
  have h : Moves K s s := Moves.refl s
  unfold Sys2Proof.Machine.execHeartbeatLoss
  repeat' first | with_reducible assumption | ((with_reducible refine Sub.mono hk ?_); rfl) | with_reducible exact Moves.next ‹_› | with_reducible apply Moves.next | with_reducible apply Ends.ite | with_reducible exact Ends.refused | with_reducible refine Moves.breakPair ?_ ?_ | with_reducible apply Moves.ite | with_reducible intro _ _ _ _ _ | with_reducible intro _ _ _ | with_reducible intro _ _ | extract_lets | split

theorem Ends.execIncumbentTimer {s : State} (hk : Sub 0x4 K := by first | assumption | exact Sub.mono (by assumption) rfl) : Ends K s (Sys2Proof.Machine.execIncumbentTimer s) := by
  have h : Moves K s s := Moves.refl s
  unfold Sys2Proof.Machine.execIncumbentTimer
  repeat' first | with_reducible assumption | ((with_reducible refine Sub.mono hk ?_); rfl) | with_reducible exact Moves.next ‹_› | with_reducible apply Moves.next | with_reducible apply Ends.ite | with_reducible exact Ends.refused | with_reducible refine Moves.setf ?_ ?_ | with_reducible apply Moves.ite | with_reducible intro _ _ _ _ _ | with_reducible intro _ _ _ | with_reducible intro _ _ | extract_lets | split

theorem Ends.execSwitchAcceptTimeout {s : State} (hk : Sub 0x587991404 K := by first | assumption | exact Sub.mono (by assumption) rfl) : Ends K s (Sys2Proof.Machine.execSwitchAcceptTimeout s) := by
  have h : Moves K s s := Moves.refl s
  unfold Sys2Proof.Machine.execSwitchAcceptTimeout
  repeat' first | with_reducible assumption | ((with_reducible refine Sub.mono hk ?_); rfl) | with_reducible exact Moves.next ‹_› | with_reducible apply Moves.next | with_reducible apply Ends.ite | with_reducible exact Ends.refused | with_reducible refine Moves.negotiate ?_ ?_ | with_reducible refine Moves.switchFails ?_ ?_ | with_reducible apply Moves.ite | with_reducible intro _ _ _ _ _ | with_reducible intro _ _ _ | with_reducible intro _ _ | extract_lets | split

theorem Ends.execXlkLaneUp {lane : Fin 2} {s : State} (hk : Sub 0x501004 K := by first | assumption | exact Sub.mono (by assumption) rfl) : Ends K s (Sys2Proof.Machine.execXlkLaneUp lane s) := by
  have h : Moves K s s := Moves.refl s
  unfold Sys2Proof.Machine.execXlkLaneUp
  repeat' first | with_reducible assumption | ((with_reducible refine Sub.mono hk ?_); rfl) | with_reducible exact Moves.next ‹_› | with_reducible apply Moves.next | with_reducible apply Ends.ite | with_reducible exact Ends.refused | with_reducible refine Moves.modXlk ?_ ?_ | with_reducible refine Moves.laneSettle ?_ ?_ | with_reducible refine Moves.ev ?_ ?_ | with_reducible refine Moves.setf ?_ ?_ | with_reducible apply Moves.ite | with_reducible intro _ _ _ _ _ | with_reducible intro _ _ _ | with_reducible intro _ _ | extract_lets | split

theorem Moves.laneDown {lane : Nat} {s0 s : State} (hs : Moves K s0 s) (hk : Sub 0x587D91006 K := by first | assumption | exact Sub.mono (by assumption) rfl) : Moves K s0 (State.laneDown s lane) := by
  unfold State.laneDown
  repeat' first | with_reducible assumption | ((with_reducible refine Sub.mono hk ?_); rfl) | with_reducible refine Moves.modXlk ?_ ?_ | with_reducible refine Moves.setf ?_ ?_ | with_reducible refine Moves.ev ?_ ?_ | with_reducible refine Moves.loseActivity ?_ ?_ | with_reducible apply Moves.ite

theorem Ends.execXlkLaneDown {lane : Fin 2} {s : State} (hk : Sub 0x587D91006 K := by first | assumption | exact Sub.mono (by assumption) rfl) : Ends K s (Sys2Proof.Machine.execXlkLaneDown lane s) := by
  have h : Moves K s s := Moves.refl s
  unfold Sys2Proof.Machine.execXlkLaneDown
  repeat' first | with_reducible assumption | with_reducible exact Moves.next ‹_› | with_reducible apply Moves.next | with_reducible apply Ends.ite | with_reducible exact Ends.refused | with_reducible refine Moves.laneDown ?_ ?_

theorem Moves.presentXlk {k : Nat} {s0 s : State} (hs : Moves K s0 s) (hk : Sub 0xE0091004 K := by first | assumption | exact Sub.mono (by assumption) rfl) : Moves K s0 (State.presentXlk s k) := by
  unfold State.presentXlk
  repeat' first | with_reducible assumption | ((with_reducible refine Sub.mono hk ?_); rfl) | with_reducible refine First.tryAdjust ?_ ?_ | with_reducible refine (First.tryAdjust ?_ ?_).out ‹_› | with_reducible refine (First.tryAdjust ?_ ?_).fst | with_reducible refine First.presentStep ?_ ?_ | with_reducible refine (First.presentStep ?_ ?_).out ‹_› | with_reducible refine (First.presentStep ?_ ?_).fst | with_reducible apply Moves.stateOf | with_reducible apply Moves.ite | with_reducible apply First.ite | with_reducible intro _ _ _ _ _ | with_reducible intro _ _ _ | with_reducible intro _ _ | extract_lets | split | with_reducible apply First.mk

theorem Ends.execXlkPresentPeriod {s : State} (hk : Sub 0xE0191004 K := by first | assumption | exact Sub.mono (by assumption) rfl) : Ends K s (Sys2Proof.Machine.execXlkPresentPeriod s) := by
  have h : Moves K s s := Moves.refl s
  unfold Sys2Proof.Machine.execXlkPresentPeriod
  repeat' first | with_reducible assumption | ((with_reducible refine Sub.mono hk ?_); rfl) | with_reducible exact Moves.next ‹_› | with_reducible apply Moves.next | with_reducible apply Ends.ite | with_reducible exact Ends.refused | with_reducible refine Moves.forL ?_ ?_ | with_reducible refine Moves.presentXlk ?_ ?_ | with_reducible refine Moves.modXlk ?_ ?_ | with_reducible apply Moves.ite | with_reducible intro _ _ _ _ _ | with_reducible intro _ _ _ | with_reducible intro _ _ | extract_lets | split

theorem Moves.xlkSwitch {p : Port} {activate : Bool} {s0 s : State} (hs : Moves K s0 s) (hk : Sub 0x100004 K := by first | assumption | exact Sub.mono (by assumption) rfl) : Moves K s0 (State.xlkSwitch s p activate) := by
  unfold State.xlkSwitch
  repeat' first | with_reducible assumption | ((with_reducible refine Sub.mono hk ?_); rfl) | with_reducible refine Moves.modXlk ?_ ?_ | with_reducible refine Moves.xlkSendBoth ?_ ?_ | with_reducible refine Moves.setf ?_ ?_ | with_reducible apply Moves.ite | with_reducible intro _ _ _ _ _ | with_reducible intro _ _ _ | with_reducible intro _ _ | extract_lets | split

theorem Moves.fetchEntries {p : Port} {es : List (List Word)} {s0 s : State} (hs : Moves K s0 s) (hk : Sub 0x1004 K := by first | assumption | exact Sub.mono (by assumption) rfl) : Moves K s0 (State.fetchEntries s p es) := by
  unfold State.fetchEntries
  repeat' first | with_reducible assumption | with_reducible refine Moves.mboxOut ?_ ?_

theorem Moves.xlkCommand {p : Port} {bit : Nat} {s0 s : State} (hs : Moves K s0 s) (hk : Sub 0x101004 K := by first | assumption | exact Sub.mono (by assumption) rfl) : Moves K s0 (State.xlkCommand s p bit) := by
  unfold State.xlkCommand
  repeat' first | with_reducible assumption | ((with_reducible refine Sub.mono hk ?_); rfl) | with_reducible refine Moves.complete ?_ ?_ | with_reducible refine Moves.xlkSwitch ?_ ?_ | with_reducible refine Moves.fetchEntries ?_ ?_ | with_reducible refine Moves.modXlk ?_ ?_ | with_reducible apply Moves.ite

theorem Ends.execXlkSwitch {p : Port} {s : State} (hk : Sub 0x10D004 K := by first | assumption | exact Sub.mono (by assumption) rfl) : Ends K s (Sys2Proof.Machine.execXlkSwitch p s) := by
  have h : Moves K s s := Moves.refl s
  unfold Sys2Proof.Machine.execXlkSwitch
  repeat' first | with_reducible assumption | ((with_reducible refine Sub.mono hk ?_); rfl) | with_reducible exact Moves.next ‹_› | with_reducible apply Moves.next | with_reducible apply Ends.ite | with_reducible exact Ends.refused | with_reducible refine Moves.doorbell ?_ ?_ ?_ | with_reducible refine Moves.xlkCommand ?_ ?_ | with_reducible apply Moves.ite | with_reducible intro _ _ _ _ _ | with_reducible intro _ _ _ | with_reducible intro _ _

theorem Ends.execFetchLoops {p : Port} {s : State} (hk : Sub 0x10D004 K := by first | assumption | exact Sub.mono (by assumption) rfl) : Ends K s (Sys2Proof.Machine.execFetchLoops p s) := by
  have h : Moves K s s := Moves.refl s
  unfold Sys2Proof.Machine.execFetchLoops
  repeat' first | with_reducible assumption | ((with_reducible refine Sub.mono hk ?_); rfl) | with_reducible exact Moves.next ‹_› | with_reducible apply Moves.next | with_reducible apply Ends.ite | with_reducible exact Ends.refused | with_reducible refine Moves.doorbell ?_ ?_ ?_ | with_reducible refine Moves.xlkCommand ?_ ?_ | with_reducible apply Moves.ite | with_reducible intro _ _ _ _ _ | with_reducible intro _ _ _ | with_reducible intro _ _

theorem Ends.execXlkLoopcal {p : Port} {s : State} (hk : Sub 0x10D004 K := by first | assumption | exact Sub.mono (by assumption) rfl) : Ends K s (Sys2Proof.Machine.execXlkLoopcal p s) := by
  have h : Moves K s s := Moves.refl s
  unfold Sys2Proof.Machine.execXlkLoopcal
  repeat' first | with_reducible assumption | ((with_reducible refine Sub.mono hk ?_); rfl) | with_reducible exact Moves.next ‹_› | with_reducible apply Moves.next | with_reducible apply Ends.ite | with_reducible exact Ends.refused | with_reducible refine Moves.doorbell ?_ ?_ ?_ | with_reducible refine Moves.xlkCommand ?_ ?_ | with_reducible apply Moves.ite | with_reducible intro _ _ _ _ _ | with_reducible intro _ _ _ | with_reducible intro _ _

theorem Ends.execFetchTimes {p : Port} {s : State} (hk : Sub 0x10D004 K := by first | assumption | exact Sub.mono (by assumption) rfl) : Ends K s (Sys2Proof.Machine.execFetchTimes p s) := by
  have h : Moves K s s := Moves.refl s
  unfold Sys2Proof.Machine.execFetchTimes
  repeat' first | with_reducible assumption | ((with_reducible refine Sub.mono hk ?_); rfl) | with_reducible exact Moves.next ‹_› | with_reducible apply Moves.next | with_reducible apply Ends.ite | with_reducible exact Ends.refused | with_reducible refine Moves.doorbell ?_ ?_ ?_ | with_reducible refine Moves.xlkCommand ?_ ?_ | with_reducible apply Moves.ite | with_reducible intro _ _ _ _ _ | with_reducible intro _ _ _ | with_reducible intro _ _

theorem Moves.laneCal {lane : Nat} {diff : Int} {s0 s : State} (hs : Moves K s0 s) (hk : Sub 0x2004 K := by first | assumption | exact Sub.mono (by assumption) rfl) : Moves K s0 (State.laneCal s lane diff) := by
  unfold State.laneCal
  repeat' first | with_reducible assumption | ((with_reducible refine Sub.mono hk ?_); rfl) | with_reducible refine Moves.setf ?_ ?_ | with_reducible refine Moves.setSat ?_ ?_ | with_reducible refine Moves.dirty ?_ ?_

theorem Ends.execXlkLoopcalDone {diff0 diff1 : Int} {s : State} (hk : Sub 0x102004 K := by first | assumption | exact Sub.mono (by assumption) rfl) : Ends K s (Sys2Proof.Machine.execXlkLoopcalDone diff0 diff1 s) := by
  have h : Moves K s s := Moves.refl s
  unfold Sys2Proof.Machine.execXlkLoopcalDone
  repeat' first | with_reducible assumption | ((with_reducible refine Sub.mono hk ?_); rfl) | with_reducible exact Moves.next ‹_› | with_reducible apply Moves.next | with_reducible apply Ends.ite | with_reducible exact Ends.refused | with_reducible refine Moves.modXlk ?_ ?_ | with_reducible refine Moves.laneCal ?_ ?_ | with_reducible refine Moves.complete ?_ ?_

theorem Moves.xlkCtrlWritten {old : Nat} {s0 s : State} (hs : Moves K s0 s) (hk : Sub 0x587D91406 K := by first | assumption | exact Sub.mono (by assumption) rfl) : Moves K s0 (State.xlkCtrlWritten s old) := by
  unfold State.xlkCtrlWritten
  repeat' first | with_reducible assumption | ((with_reducible refine Sub.mono hk ?_); rfl) | with_reducible refine Moves.breakPair ?_ ?_ | with_reducible refine Moves.laneDown ?_ ?_ | with_reducible apply Moves.ite

end Sys2Proof.Machine
end

