-- ==== Sys2Proof/Laws/KeepStores.lean ====
section
/-! SUPPORT. What the operations of Machine/Stores.lean keep: the queue, the canonical form of the tables, and the parts of the state outside those named. -/

set_option Elab.async false

set_option linter.unreachableTactic false
set_option linter.unusedTactic false

namespace Sys2Proof.Machine

variable {K : Nat}

theorem Moves.hostWord {p : Port} {a : Nat} {bs : List Byte} {s0 s : State} (hs : Moves K s0 s) (hk : Sub 0xFFFFFFD9E K := by first | assumption | exact Sub.mono (by assumption) rfl) : Moves K s0 (State.hostWord s p a bs) := by
  unfold State.hostWord
  repeat' first | with_reducible assumption | ((with_reducible refine Sub.mono hk ?_); rfl) | with_reducible refine Moves.eccRead ?_ ?_ | with_reducible refine Moves.reportInj ?_ ?_ | with_reducible refine Moves.setBytes ?_ ?_ | with_reducible refine Moves.eccWrite ?_ ?_ | with_reducible apply Moves.ite

theorem Moves.hostWindow {p : Port} {a : Nat} {bs : List Byte} {s0 s : State} (hs : Moves K s0 s) (hk : Sub 0xFFFFFFD9E K := by first | assumption | exact Sub.mono (by assumption) rfl) : Moves K s0 (State.hostWindow s p a bs) := by
  unfold State.hostWindow
  repeat' first | with_reducible assumption | ((with_reducible refine Sub.mono hk ?_); rfl) | with_reducible refine Moves.busErr ?_ ?_ | with_reducible refine Moves.status ?_ ?_ | with_reducible refine Moves.forL ?_ ?_ | with_reducible refine Moves.hostWord ?_ ?_ | with_reducible apply Moves.ite | with_reducible intro _ _ _ _ _ | with_reducible intro _ _ _ | with_reducible intro _ _ | extract_lets | split

theorem First.hostWindowRead {p : Port} {a n : Nat} {s0 s : State} (hs : Moves K s0 s) (hk : Sub 0xFFFFFFD9E K := by first | assumption | exact Sub.mono (by assumption) rfl) : First K s0 (State.hostWindowRead s p a n) := by
  unfold State.hostWindowRead
  repeat' first | with_reducible assumption | ((with_reducible refine Sub.mono hk ?_); rfl) | with_reducible refine Moves.busErr ?_ ?_ | with_reducible refine Moves.status ?_ ?_ | with_reducible refine Moves.bankCheck ?_ ?_ | with_reducible apply Moves.ite | with_reducible apply First.ite | with_reducible intro _ _ _ _ _ | with_reducible intro _ _ _ | with_reducible intro _ _ | extract_lets | split | with_reducible apply First.mk

theorem Ends.execHostWindowWrite {p : Port} {off : BitVec 26} {bytes : List Byte} {s : State} (hk : Sub 0xFFFFFFD9E K := by first | assumption | exact Sub.mono (by assumption) rfl) : Ends K s (Sys2Proof.Machine.execHostWindowWrite p off bytes s) := by
  have h : Moves K s s := Moves.refl s
  unfold Sys2Proof.Machine.execHostWindowWrite
  repeat' first | with_reducible assumption | with_reducible exact Moves.next ‹_› | with_reducible apply Moves.next | with_reducible apply Ends.ite | with_reducible exact Ends.refused | with_reducible refine Moves.hostWindow ?_ ?_

theorem Moves.atomic {p : Port} {op : Nat} {s0 s : State} (hs : Moves K s0 s) (hk : Sub 0xFFFFFFD9E K := by first | assumption | exact Sub.mono (by assumption) rfl) : Moves K s0 (State.atomic s p op) := by
  unfold State.atomic
  repeat' first | with_reducible assumption | ((with_reducible refine Sub.mono hk ?_); rfl) | with_reducible refine Moves.complete ?_ ?_ | with_reducible refine Moves.eccRead ?_ ?_ | with_reducible refine Moves.setBytes ?_ ?_ | with_reducible refine Moves.eccWrite ?_ ?_ | with_reducible refine Moves.mboxEmpty ?_ ?_ | with_reducible refine Moves.mboxOut ?_ ?_ | with_reducible apply Moves.ite | with_reducible intro _ _ _ _ _ | with_reducible intro _ _ _ | with_reducible intro _ _ | extract_lets | split

theorem Ends.execAtAdd {p : Port} {s : State} (hk : Sub 0xFFFFFFD9E K := by first | assumption | exact Sub.mono (by assumption) rfl) : Ends K s (Sys2Proof.Machine.execAtAdd p s) := by
  have h : Moves K s s := Moves.refl s
  unfold Sys2Proof.Machine.execAtAdd
  repeat' first | with_reducible assumption | ((with_reducible refine Sub.mono hk ?_); rfl) | with_reducible exact Moves.next ‹_› | with_reducible apply Moves.next | with_reducible apply Ends.ite | with_reducible exact Ends.refused | with_reducible refine Moves.doorbell ?_ ?_ ?_ | with_reducible refine Moves.atomic ?_ ?_ | with_reducible apply Moves.ite | with_reducible intro _ _ _ _ _ | with_reducible intro _ _ _ | with_reducible intro _ _

theorem Ends.execAtSwap {p : Port} {s : State} (hk : Sub 0xFFFFFFD9E K := by first | assumption | exact Sub.mono (by assumption) rfl) : Ends K s (Sys2Proof.Machine.execAtSwap p s) := by
  have h : Moves K s s := Moves.refl s
  unfold Sys2Proof.Machine.execAtSwap
  repeat' first | with_reducible assumption | ((with_reducible refine Sub.mono hk ?_); rfl) | with_reducible exact Moves.next ‹_› | with_reducible apply Moves.next | with_reducible apply Ends.ite | with_reducible exact Ends.refused | with_reducible refine Moves.doorbell ?_ ?_ ?_ | with_reducible refine Moves.atomic ?_ ?_ | with_reducible apply Moves.ite | with_reducible intro _ _ _ _ _ | with_reducible intro _ _ _ | with_reducible intro _ _

theorem Ends.execScrubCycle {sp : Fin 128} {s : State} (hk : Sub 0xFFFFFFDBE K := by first | assumption | exact Sub.mono (by assumption) rfl) : Ends K s (Sys2Proof.Machine.execScrubCycle sp s) := by
  have h : Moves K s s := Moves.refl s
  unfold Sys2Proof.Machine.execScrubCycle
  repeat' first | with_reducible assumption | ((with_reducible refine Sub.mono hk ?_); rfl) | with_reducible exact Moves.next ‹_› | with_reducible apply Moves.next | with_reducible apply Ends.ite | with_reducible exact Ends.refused | with_reducible refine Moves.eccRead ?_ ?_ | with_reducible refine Moves.incWrap ?_ ?_ | fail_if_no_progress with_reducible refine Moves.scrub ?_ (Tab.wf_set _ _ _) ?_ | fail_if_no_progress with_reducible refine Moves.scrub ?_ (Tab.wf_filter _ _) ?_ | fail_if_no_progress with_reducible refine Moves.scrub ?_ (Tab.wf_remap _ _) ?_ | fail_if_no_progress with_reducible refine Moves.scrub ?_ (fun _ => rfl) ?_ | with_reducible apply Moves.ite

theorem Moves.showDirty {s0 s : State} (hs : Moves K s0 s) (hk : Sub 0x4 K := by first | assumption | exact Sub.mono (by assumption) rfl) : Moves K s0 (State.showDirty s) := by
  unfold State.showDirty
  repeat' first | with_reducible assumption | ((with_reducible refine Sub.mono hk ?_); rfl) | with_reducible refine Moves.setf ?_ ?_

theorem Moves.nvDone {opc : Nat} {c : Code} {s0 s : State} (hs : Moves K s0 s) (hk : Sub 0x1004 K := by first | assumption | exact Sub.mono (by assumption) rfl) : Moves K s0 (State.nvDone s opc c) := by
  unfold State.nvDone
  repeat' first | with_reducible assumption | ((with_reducible refine Sub.mono hk ?_); rfl) | with_reducible refine Moves.setf ?_ ?_ | with_reducible refine Moves.complete ?_ ?_ | with_reducible refine Moves.ev ?_ ?_

theorem Moves.finishCommit {s0 s : State} (hs : Moves K s0 s) (hk : Sub 0x31004 K := by first | assumption | exact Sub.mono (by assumption) rfl) : Moves K s0 s.finishCommit := by
  unfold State.finishCommit
  split
  · exact hs
  · rename_i c e
    extract_lets _ _ s1 s2 s3
    have h1 : Moves K s0 s1 := by
      have hi : s.Wf → Tab.wf memDefault c.arr = true := fun w => by
        have := w.incoming
        unfold NvCore.incoming at this
        rw [e] at this
        exact this
      exact hs.into rfl (fun w => ⟨w.regs, w.mem, w.ecc, w.scrub, w.flash, w.lnd, w.sel, w.ent, w.loop, w.ho, w.apl, w.out, w.tsc, w.tod, w.tasks, w.prt, w.pte, w.berth, w.gens, w.shadow, hi w, rfl⟩) (.inl rfl) (.inl rfl) (.inl rfl) (.inl rfl) (.inl rfl) (.inl rfl) (.inl rfl) (.inl rfl) (.inl rfl) (.inl rfl) (.inl rfl) (.inl rfl) (.inl rfl) (.inl rfl) (.inl rfl) (.inl rfl) (.inr (hk.bit rfl)) (.inr (hk.bit rfl)) (.inl rfl) (.inl rfl) (.inl rfl) (.inl rfl) (.inl rfl) (.inl rfl) (.inl rfl) (.inl rfl) (.inl rfl) (.inl rfl) (.inl rfl) (.inl rfl) (.inl rfl) (.inl rfl) (.inl rfl) (.inl rfl) (.inl rfl) (.inl rfl)
    have h2 : Moves K s0 s2 := (Moves.commitLedgers h1.writeFloor).setf
    have h3 : Moves K s0 s3 := Moves.ite h2.nvDone h2
    clear_value s3
    split
    · exact (Moves.ite h3.setf h3).startCommit
    · exact h3

theorem Moves.nvRead {p : Port} {n off : Nat} {s0 s : State} (hs : Moves K s0 s) (hk : Sub 0x1006 K := by first | assumption | exact Sub.mono (by assumption) rfl) : Moves K s0 (State.nvRead s p n off) := by
  unfold State.nvRead
  repeat' first | with_reducible assumption | ((with_reducible refine Sub.mono hk ?_); rfl) | with_reducible refine Moves.nvDone ?_ ?_ | with_reducible refine Moves.took ?_ ?_ | with_reducible refine Moves.mboxOut ?_ ?_ | with_reducible apply Moves.ite

theorem Moves.nvWrite {p : Port} {n off : Nat} {s0 s : State} (hs : Moves K s0 s) (hk : Sub 0x11004 K := by first | assumption | exact Sub.mono (by assumption) rfl) : Moves K s0 (State.nvWrite s p n off) := by
  unfold State.nvWrite
  repeat' first | with_reducible assumption | ((with_reducible refine Sub.mono hk ?_); rfl) | with_reducible refine Moves.nvDone ?_ ?_ | with_reducible refine Moves.dirty ?_ ?_ | with_reducible refine Moves.mboxEmpty ?_ ?_ | with_reducible refine Moves.showDirty ?_ ?_ | with_reducible refine Moves.setf ?_ ?_ | with_reducible refine Moves.evIf ?_ ?_ | fail_if_no_progress with_reducible refine Moves.nv ?_ (Tab.wf_setList _ _ _) id id ?_ | with_reducible apply Moves.ite | fail_if_no_progress (with_reducible refine Moves.plain ?_ ?_ ?_ ?_ ?_ ?_ ?_ ?_ ?_ ?_ ?_ ?_ ?_ ?_ ?_ ?_ ?_ <;> first | ((with_reducible refine Or.inr (Sub.bit hk ?_)); decide) | with_reducible exact Or.inl rfl | skip) | fail_if_no_progress (with_reducible refine Moves.plainNv ?_ rfl rfl rfl ?_ ?_ ?_ ?_ ?_ ?_ ?_ ?_ ?_ ?_ ?_ ?_ ?_ ?_ ?_ ?_ ?_ <;> first | ((with_reducible refine Or.inr (Sub.bit hk ?_)); decide) | with_reducible exact Or.inl rfl | skip) | with_reducible intro _ _ _ _ _ | with_reducible intro _ _ _ | with_reducible intro _ _ | extract_lets | split

theorem Moves.nvCommit {s0 s : State} (hs : Moves K s0 s) (hk : Sub 0x10004 K := by first | assumption | exact Sub.mono (by assumption) rfl) : Moves K s0 (State.nvCommit s) := by
  unfold State.nvCommit
  repeat' first | with_reducible assumption | ((with_reducible refine Sub.mono hk ?_); rfl) | with_reducible refine Moves.startCommit ?_ ?_ | with_reducible refine Moves.setf ?_ ?_ | with_reducible refine Moves.ckptNext ?_ ?_ | with_reducible apply Moves.ite

theorem Moves.nvPassword {p : Port} {opc : Nat} {g : State → Nat → Nat → List Word → State} {s0 s : State} (hs : Moves K s0 s) (hg : ∀ t x y z, Moves K s0 t → Moves K s0 (g t x y z)) (hk : Sub 0x11004 K := by first | assumption | exact Sub.mono (by assumption) rfl) : Moves K s0 (State.nvPassword s p opc g) := by
  unfold State.nvPassword
  repeat' first | with_reducible assumption | ((with_reducible refine Sub.mono hk ?_); rfl) | with_reducible apply hg | with_reducible refine Moves.nvDone ?_ ?_ | with_reducible refine Moves.inc ?_ ?_ | with_reducible refine Moves.ev ?_ ?_ | with_reducible refine Moves.logDev ?_ ?_ | with_reducible refine Moves.mboxEmpty ?_ ?_ | with_reducible apply Moves.ite | fail_if_no_progress (with_reducible refine Moves.plain ?_ ?_ ?_ ?_ ?_ ?_ ?_ ?_ ?_ ?_ ?_ ?_ ?_ ?_ ?_ ?_ ?_ <;> first | ((with_reducible refine Or.inr (Sub.bit hk ?_)); decide) | with_reducible exact Or.inl rfl | skip) | fail_if_no_progress (with_reducible refine Moves.plainNv ?_ rfl rfl rfl ?_ ?_ ?_ ?_ ?_ ?_ ?_ ?_ ?_ ?_ ?_ ?_ ?_ ?_ ?_ ?_ ?_ <;> first | ((with_reducible refine Or.inr (Sub.bit hk ?_)); decide) | with_reducible exact Or.inl rfl | skip) | with_reducible intro _ _ _ _ _ | with_reducible intro _ _ _ | with_reducible intro _ _ | extract_lets | split

theorem Moves.nvOp {p : Port} {word : Nat} {s0 s : State} (hs : Moves K s0 s) (hk : Sub 0x11006 K := by first | assumption | exact Sub.mono (by assumption) rfl) : Moves K s0 (State.nvOp s p word) := by
  unfold State.nvOp
  repeat' first | with_reducible assumption | ((with_reducible refine Sub.mono hk ?_); rfl) | with_reducible refine Moves.setw ?_ ?_ | with_reducible refine Moves.nvDone ?_ ?_ | with_reducible refine Moves.nvRead ?_ ?_ | with_reducible refine Moves.nvWrite ?_ ?_ | with_reducible refine Moves.nvCommit ?_ ?_ | with_reducible refine Moves.nvPassword ?_ ?_ ?_ | with_reducible refine Moves.dirty ?_ ?_ | with_reducible refine Moves.showDirty ?_ ?_ | with_reducible refine Moves.showPasswords ?_ ?_ | with_reducible refine Moves.mboxOut ?_ ?_ | with_reducible apply Moves.ite | fail_if_no_progress (with_reducible refine Moves.plain ?_ ?_ ?_ ?_ ?_ ?_ ?_ ?_ ?_ ?_ ?_ ?_ ?_ ?_ ?_ ?_ ?_ <;> first | ((with_reducible refine Or.inr (Sub.bit hk ?_)); decide) | with_reducible exact Or.inl rfl | skip) | fail_if_no_progress (with_reducible refine Moves.plainNv ?_ rfl rfl rfl ?_ ?_ ?_ ?_ ?_ ?_ ?_ ?_ ?_ ?_ ?_ ?_ ?_ ?_ ?_ ?_ ?_ <;> first | ((with_reducible refine Or.inr (Sub.bit hk ?_)); decide) | with_reducible exact Or.inl rfl | skip) | with_reducible intro _ _ _ _ _ | with_reducible intro _ _ _ | with_reducible intro _ _ | extract_lets | split

theorem Moves.nvDoorbell {p : Port} {word : Nat} {s0 s : State} (hs : Moves K s0 s) (hk : Sub 0x1D006 K := by first | assumption | exact Sub.mono (by assumption) rfl) : Moves K s0 (State.nvDoorbell s p word) := by
  unfold State.nvDoorbell
  repeat' first | with_reducible assumption | ((with_reducible refine Sub.mono hk ?_); rfl) | with_reducible refine Moves.doorbellB ?_ ?_ ?_ | with_reducible refine Moves.nvOp ?_ ?_ | with_reducible apply Moves.ite | with_reducible intro _ _ _ _ _ | with_reducible intro _ _ _ | with_reducible intro _ _

theorem Ends.execNvRead {p : Port} {len : BitVec 9} {s : State} (hk : Sub 0x1D006 K := by first | assumption | exact Sub.mono (by assumption) rfl) : Ends K s (Sys2Proof.Machine.execNvRead p len s) := by
  have h : Moves K s s := Moves.refl s
  unfold Sys2Proof.Machine.execNvRead
  repeat' first | with_reducible assumption | with_reducible exact Moves.next ‹_› | with_reducible apply Moves.next | with_reducible apply Ends.ite | with_reducible exact Ends.refused | with_reducible refine Moves.nvDoorbell ?_ ?_

theorem Ends.execNvWrite {p : Port} {len : BitVec 9} {s : State} (hk : Sub 0x1D006 K := by first | assumption | exact Sub.mono (by assumption) rfl) : Ends K s (Sys2Proof.Machine.execNvWrite p len s) := by
  have h : Moves K s s := Moves.refl s
  unfold Sys2Proof.Machine.execNvWrite
  repeat' first | with_reducible assumption | with_reducible exact Moves.next ‹_› | with_reducible apply Moves.next | with_reducible apply Ends.ite | with_reducible exact Ends.refused | with_reducible refine Moves.nvDoorbell ?_ ?_

theorem Ends.execNvCommit {p : Port} {s : State} (hk : Sub 0x1D006 K := by first | assumption | exact Sub.mono (by assumption) rfl) : Ends K s (Sys2Proof.Machine.execNvCommit p s) := by
  have h : Moves K s s := Moves.refl s
  unfold Sys2Proof.Machine.execNvCommit
  repeat' first | with_reducible assumption | with_reducible exact Moves.next ‹_› | with_reducible apply Moves.next | with_reducible apply Ends.ite | with_reducible exact Ends.refused | with_reducible refine Moves.nvDoorbell ?_ ?_

theorem Ends.execNvCommitDone {s : State} (hk : Sub 0x31004 K := by first | assumption | exact Sub.mono (by assumption) rfl) : Ends K s (Sys2Proof.Machine.execNvCommitDone s) := by
  have h : Moves K s s := Moves.refl s
  unfold Sys2Proof.Machine.execNvCommitDone
  repeat' first | with_reducible assumption | with_reducible exact Moves.next ‹_› | with_reducible apply Moves.next | with_reducible apply Ends.ite | with_reducible exact Ends.refused | with_reducible refine Moves.finishCommit ?_ ?_

theorem Ends.execSetPw {p : Port} {s : State} (hk : Sub 0x1D006 K := by first | assumption | exact Sub.mono (by assumption) rfl) : Ends K s (Sys2Proof.Machine.execSetPw p s) := by
  have h : Moves K s s := Moves.refl s
  unfold Sys2Proof.Machine.execSetPw
  repeat' first | with_reducible assumption | with_reducible exact Moves.next ‹_› | with_reducible apply Moves.next | with_reducible apply Ends.ite | with_reducible exact Ends.refused | with_reducible refine Moves.nvDoorbell ?_ ?_

theorem Ends.execUnlock {p : Port} {s : State} (hk : Sub 0x1D006 K := by first | assumption | exact Sub.mono (by assumption) rfl) : Ends K s (Sys2Proof.Machine.execUnlock p s) := by
  have h : Moves K s s := Moves.refl s
  unfold Sys2Proof.Machine.execUnlock
  repeat' first | with_reducible assumption | with_reducible exact Moves.next ‹_› | with_reducible apply Moves.next | with_reducible apply Ends.ite | with_reducible exact Ends.refused | with_reducible refine Moves.nvDoorbell ?_ ?_

theorem Ends.execNvLock {p : Port} {s : State} (hk : Sub 0x1D006 K := by first | assumption | exact Sub.mono (by assumption) rfl) : Ends K s (Sys2Proof.Machine.execNvLock p s) := by
  have h : Moves K s s := Moves.refl s
  unfold Sys2Proof.Machine.execNvLock
  repeat' first | with_reducible assumption | with_reducible exact Moves.next ‹_› | with_reducible apply Moves.next | with_reducible apply Ends.ite | with_reducible exact Ends.refused | with_reducible refine Moves.nvDoorbell ?_ ?_

theorem Ends.execLogRead {p : Port} {s : State} (hk : Sub 0x1D006 K := by first | assumption | exact Sub.mono (by assumption) rfl) : Ends K s (Sys2Proof.Machine.execLogRead p s) := by
  have h : Moves K s s := Moves.refl s
  unfold Sys2Proof.Machine.execLogRead
  repeat' first | with_reducible assumption | with_reducible exact Moves.next ‹_› | with_reducible apply Moves.next | with_reducible apply Ends.ite | with_reducible exact Ends.refused | with_reducible refine Moves.nvDoorbell ?_ ?_

theorem Ends.execLedgerCheckpointTimer {s : State} (hk : Sub 0x10004 K := by first | assumption | exact Sub.mono (by assumption) rfl) : Ends K s (Sys2Proof.Machine.execLedgerCheckpointTimer s) := by
  have h : Moves K s s := Moves.refl s
  unfold Sys2Proof.Machine.execLedgerCheckpointTimer
  repeat' first | with_reducible assumption | ((with_reducible refine Sub.mono hk ?_); rfl) | with_reducible exact Moves.next ‹_› | with_reducible apply Moves.next | with_reducible apply Ends.ite | with_reducible exact Ends.refused | with_reducible refine Moves.startCommit ?_ ?_ | with_reducible refine Moves.ckptNext ?_ ?_ | with_reducible apply Moves.ite | fail_if_no_progress (with_reducible refine Moves.plain ?_ ?_ ?_ ?_ ?_ ?_ ?_ ?_ ?_ ?_ ?_ ?_ ?_ ?_ ?_ ?_ ?_ <;> first | ((with_reducible refine Or.inr (Sub.bit hk ?_)); decide) | with_reducible exact Or.inl rfl | skip) | fail_if_no_progress (with_reducible refine Moves.plainNv ?_ rfl rfl rfl ?_ ?_ ?_ ?_ ?_ ?_ ?_ ?_ ?_ ?_ ?_ ?_ ?_ ?_ ?_ ?_ ?_ <;> first | ((with_reducible refine Or.inr (Sub.bit hk ?_)); decide) | with_reducible exact Or.inl rfl | skip) | with_reducible intro _ _ _ _ _ | with_reducible intro _ _ _ | with_reducible intro _ _ | extract_lets | split

theorem Ends.execVholdSample {mv : Nat} {s : State} (hk : Sub 0x1004 K := by first | assumption | exact Sub.mono (by assumption) rfl) : Ends K s (Sys2Proof.Machine.execVholdSample mv s) := by
  have h : Moves K s s := Moves.refl s
  unfold Sys2Proof.Machine.execVholdSample
  repeat' first | with_reducible assumption | ((with_reducible refine Sub.mono hk ?_); rfl) | with_reducible exact Moves.next ‹_› | with_reducible apply Moves.next | with_reducible apply Ends.ite | with_reducible exact Ends.refused | with_reducible refine Moves.evIf ?_ ?_ | with_reducible refine Moves.setb ?_ ?_

theorem Moves.showLog {s0 s : State} (hs : Moves K s0 s) (hk : Sub 0x4 K := by first | assumption | exact Sub.mono (by assumption) rfl) : Moves K s0 (State.showLog s) := by
  unfold State.showLog
  repeat' first | with_reducible assumption | with_reducible refine Moves.setw ?_ ?_

theorem Moves.headTake {r : Nat × List Byte} {s0 s : State} (hs : Moves K s0 s) (hk : Sub 0x11004 K := by first | assumption | exact Sub.mono (by assumption) rfl) : Moves K s0 (State.headTake s r) := by
  unfold State.headTake
  repeat' first | with_reducible assumption | ((with_reducible refine Sub.mono hk ?_); rfl) | with_reducible refine Moves.inc ?_ ?_ | with_reducible refine Moves.ev ?_ ?_ | with_reducible apply Moves.ite | fail_if_no_progress (with_reducible refine Moves.plain ?_ ?_ ?_ ?_ ?_ ?_ ?_ ?_ ?_ ?_ ?_ ?_ ?_ ?_ ?_ ?_ ?_ <;> first | ((with_reducible refine Or.inr (Sub.bit hk ?_)); decide) | with_reducible exact Or.inl rfl | skip) | fail_if_no_progress (with_reducible refine Moves.plainNv ?_ rfl rfl rfl ?_ ?_ ?_ ?_ ?_ ?_ ?_ ?_ ?_ ?_ ?_ ?_ ?_ ?_ ?_ ?_ ?_ <;> first | ((with_reducible refine Or.inr (Sub.bit hk ?_)); decide) | with_reducible exact Or.inl rfl | skip)

theorem Moves.stageAll {s0 s : State} (hs : Moves K s0 s) (hk : Sub 0x11004 K := by first | assumption | exact Sub.mono (by assumption) rfl) : Moves K s0 (State.stageAll s) := by
  unfold State.stageAll
  repeat' first | with_reducible assumption | ((with_reducible refine Sub.mono hk ?_); rfl) | with_reducible refine Moves.forL ?_ ?_ | with_reducible refine Moves.headTake ?_ ?_ | with_reducible refine Moves.showLog ?_ ?_ | with_reducible apply Moves.ite | with_reducible intro _ _ _ _ _ | with_reducible intro _ _ _

theorem Ends.execLogbookHeadWrite {s : State} (hk : Sub 0x11004 K := by first | assumption | exact Sub.mono (by assumption) rfl) : Ends K s (Sys2Proof.Machine.execLogbookHeadWrite s) := by
  have h : Moves K s s := Moves.refl s
  unfold Sys2Proof.Machine.execLogbookHeadWrite
  repeat' first | with_reducible assumption | ((with_reducible refine Sub.mono hk ?_); rfl) | with_reducible exact Moves.next ‹_› | with_reducible apply Moves.next | with_reducible apply Ends.ite | with_reducible exact Ends.refused | with_reducible refine Moves.headTake ?_ ?_ | with_reducible refine Moves.showLog ?_ ?_ | with_reducible apply Moves.ite | with_reducible intro _ _ _ _ _ | with_reducible intro _ _ _ | with_reducible intro _ _ | extract_lets | split

theorem Moves.showDirectory {s0 s : State} (hs : Moves K s0 s) (hk : Sub 0x4 K := by first | assumption | exact Sub.mono (by assumption) rfl) : Moves K s0 (State.showDirectory s) := by
  unfold State.showDirectory
  repeat' first | with_reducible assumption | with_reducible refine Moves.setw ?_ ?_ | with_reducible refine Moves.setf ?_ ?_ | with_reducible refine Moves.setb ?_ ?_

theorem Moves.takeFrom {k : Nat} {s0 s : State} (hs : Moves K s0 s) (hk : Sub 0x30004 K := by first | assumption | exact Sub.mono (by assumption) rfl) : Moves K s0 (State.takeFrom s k) := by
  unfold State.takeFrom
  repeat' first | with_reducible assumption | ((with_reducible refine Sub.mono hk ?_); rfl) | with_reducible refine Moves.setSlot ?_ ?_ | with_reducible apply Moves.ite | fail_if_no_progress (with_reducible refine Moves.plain ?_ ?_ ?_ ?_ ?_ ?_ ?_ ?_ ?_ ?_ ?_ ?_ ?_ ?_ ?_ ?_ ?_ <;> first | ((with_reducible refine Or.inr (Sub.bit hk ?_)); decide) | with_reducible exact Or.inl rfl | skip) | with_reducible intro _ _ _ _ _ | with_reducible intro _ _ _ | with_reducible intro _ _ | extract_lets | split

theorem First.takeBlock {s0 s : State} (hs : Moves K s0 s) (hk : Sub 0xB0004 K := by first | assumption | exact Sub.mono (by assumption) rfl) : First K s0 (State.takeBlock s) := by
  unfold State.takeBlock
  repeat' first | with_reducible assumption | ((with_reducible refine Sub.mono hk ?_); rfl) | with_reducible refine Moves.showLog ?_ ?_ | with_reducible refine Moves.takeFrom ?_ ?_ | with_reducible refine Moves.commitBoot ?_ ?_ | with_reducible refine Moves.setf ?_ ?_ | with_reducible apply Moves.ite | with_reducible apply First.ite | fail_if_no_progress (with_reducible refine Moves.plain ?_ ?_ ?_ ?_ ?_ ?_ ?_ ?_ ?_ ?_ ?_ ?_ ?_ ?_ ?_ ?_ ?_ <;> first | ((with_reducible refine Or.inr (Sub.bit hk ?_)); decide) | with_reducible exact Or.inl rfl | skip) | fail_if_no_progress (with_reducible refine Moves.plainNv ?_ rfl rfl rfl ?_ ?_ ?_ ?_ ?_ ?_ ?_ ?_ ?_ ?_ ?_ ?_ ?_ ?_ ?_ ?_ ?_ <;> first | ((with_reducible refine Or.inr (Sub.bit hk ?_)); decide) | with_reducible exact Or.inl rfl | skip) | with_reducible intro _ _ _ _ _ | with_reducible intro _ _ _ | with_reducible intro _ _ | extract_lets | split | with_reducible apply First.mk | dsimp +zetaDelta only

theorem Moves.blockBad {a : Nat} {lost : List Nat} {s0 s : State} (hs : Moves K s0 s) (hk : Sub 0xFFFFFFD9E K := by first | assumption | exact Sub.mono (by assumption) rfl) : Moves K s0 (State.blockBad s a lost) := by
  unfold State.blockBad
  repeat' first | with_reducible assumption | ((with_reducible refine Sub.mono hk ?_); rfl) | with_reducible refine Moves.forL ?_ ?_ | with_reducible refine Moves.inc ?_ ?_ | with_reducible refine Moves.report ?_ ?_ | with_reducible refine Moves.ev ?_ ?_ | with_reducible refine Moves.evIf ?_ ?_ | with_reducible refine Moves.logDev ?_ ?_ | with_reducible refine Moves.showDirectory ?_ ?_ | with_reducible refine First.takeBlock ?_ ?_ | with_reducible refine (First.takeBlock ?_ ?_).out ‹_› | with_reducible refine (First.takeBlock ?_ ?_).fst | with_reducible refine Moves.setf ?_ ?_ | with_reducible apply Moves.ite | fail_if_no_progress (with_reducible refine Moves.plain ?_ ?_ ?_ ?_ ?_ ?_ ?_ ?_ ?_ ?_ ?_ ?_ ?_ ?_ ?_ ?_ ?_ <;> first | ((with_reducible refine Or.inr (Sub.bit hk ?_)); decide) | with_reducible exact Or.inl rfl | skip) | fail_if_no_progress (with_reducible refine Moves.plainNv ?_ rfl rfl rfl ?_ ?_ ?_ ?_ ?_ ?_ ?_ ?_ ?_ ?_ ?_ ?_ ?_ ?_ ?_ ?_ ?_ <;> first | ((with_reducible refine Or.inr (Sub.bit hk ?_)); decide) | with_reducible exact Or.inl rfl | skip) | with_reducible intro _ _ _ _ _ | with_reducible intro _ _ _ | with_reducible intro _ _ | extract_lets | split

theorem Moves.blocksBad {l : List (Nat × List Nat)} {s0 s : State} (hs : Moves K s0 s) (hk : Sub 0xFFFFFFD9E K := by first | assumption | exact Sub.mono (by assumption) rfl) : Moves K s0 (State.blocksBad s l) := by
  unfold State.blocksBad
  repeat' first | with_reducible assumption | with_reducible refine Moves.forL ?_ ?_ | with_reducible refine Moves.blockBad ?_ ?_ | with_reducible apply Moves.ite | with_reducible intro _ _ _ _ _ | with_reducible intro _ _ _

theorem Ends.execLogArchiveWrite {bad : List (Nat × List Nat)} {s : State} (hk : Sub 0xFFFFFFD9E K := by first | assumption | exact Sub.mono (by assumption) rfl) : Ends K s (Sys2Proof.Machine.execLogArchiveWrite bad s) := by
  have h : Moves K s s := Moves.refl s
  unfold Sys2Proof.Machine.execLogArchiveWrite
  repeat' first | with_reducible assumption | ((with_reducible refine Sub.mono hk ?_); rfl) | with_reducible exact Moves.next ‹_› | with_reducible apply Moves.next | with_reducible apply Ends.ite | with_reducible exact Ends.refused | with_reducible refine Moves.blocksBad ?_ ?_ | with_reducible refine Moves.incBy ?_ ?_ | with_reducible refine Moves.ev ?_ ?_ | with_reducible refine Moves.showLog ?_ ?_ | with_reducible apply Moves.ite | fail_if_no_progress (with_reducible refine Moves.plain ?_ ?_ ?_ ?_ ?_ ?_ ?_ ?_ ?_ ?_ ?_ ?_ ?_ ?_ ?_ ?_ ?_ <;> first | ((with_reducible refine Or.inr (Sub.bit hk ?_)); decide) | with_reducible exact Or.inl rfl | skip) | fail_if_no_progress (with_reducible refine Moves.plainNv ?_ rfl rfl rfl ?_ ?_ ?_ ?_ ?_ ?_ ?_ ?_ ?_ ?_ ?_ ?_ ?_ ?_ ?_ ?_ ?_ <;> first | ((with_reducible refine Or.inr (Sub.bit hk ?_)); decide) | with_reducible exact Or.inl rfl | skip)

theorem Moves.frozenArchived {tenant seq : Nat} {s0 s : State} (hs : Moves K s0 s) (hk : Sub 0x10000 K := by first | assumption | exact Sub.mono (by assumption) rfl) : Moves K s0 (State.frozenArchived s tenant seq) := by
  unfold State.frozenArchived
  refine hs.nv id id (fun k => ?_)
  unfold NvCore.incoming at *
  dsimp only
  revert k
  cases s.nv.commit with
  | none => exact id
  | some c => exact id

theorem Ends.execManifestArchiveWrite {bad : List (Nat × List Nat)} {s : State} (hk : Sub 0xFFFFFFD9E K := by first | assumption | exact Sub.mono (by assumption) rfl) : Ends K s (Sys2Proof.Machine.execManifestArchiveWrite bad s) := by
  have h : Moves K s s := Moves.refl s
  unfold Sys2Proof.Machine.execManifestArchiveWrite
  repeat' first | with_reducible assumption | ((with_reducible refine Sub.mono hk ?_); rfl) | with_reducible exact Moves.next ‹_› | with_reducible apply Moves.next | with_reducible apply Ends.ite | with_reducible exact Ends.refused | with_reducible refine Moves.blocksBad ?_ ?_ | with_reducible refine Moves.frozenArchived ?_ ?_ | with_reducible refine Moves.showDirectory ?_ ?_ | with_reducible apply Moves.ite | fail_if_no_progress (with_reducible refine Moves.plain ?_ ?_ ?_ ?_ ?_ ?_ ?_ ?_ ?_ ?_ ?_ ?_ ?_ ?_ ?_ ?_ ?_ <;> first | ((with_reducible refine Or.inr (Sub.bit hk ?_)); decide) | with_reducible exact Or.inl rfl | skip) | with_reducible intro _ _ _ _ _ | with_reducible intro _ _ _ | with_reducible intro _ _ | extract_lets | split

theorem Moves.flmDone {opc : Nat} {c : Code} {s0 s : State} (hs : Moves K s0 s) (hk : Sub 0x21004 K := by first | assumption | exact Sub.mono (by assumption) rfl) : Moves K s0 (State.flmDone s opc c) := by
  unfold State.flmDone
  repeat' first | with_reducible assumption | ((with_reducible refine Sub.mono hk ?_); rfl) | with_reducible refine Moves.setf ?_ ?_ | with_reducible refine Moves.complete ?_ ?_ | with_reducible refine Moves.ev ?_ ?_ | with_reducible apply Moves.ite | fail_if_no_progress (with_reducible refine Moves.plain ?_ ?_ ?_ ?_ ?_ ?_ ?_ ?_ ?_ ?_ ?_ ?_ ?_ ?_ ?_ ?_ ?_ <;> first | ((with_reducible refine Or.inr (Sub.bit hk ?_)); decide) | with_reducible exact Or.inl rfl | skip)

theorem Moves.flmOp {p : Port} {word : Nat} {s0 s : State} (hs : Moves K s0 s) (hk : Sub 0x21004 K := by first | assumption | exact Sub.mono (by assumption) rfl) : Moves K s0 (State.flmOp s p word) := by
  unfold State.flmOp
  extract_lets opc _
  clear_value opc
  repeat' first | with_reducible assumption | ((with_reducible refine Sub.mono hk ?_); rfl) | with_reducible refine Moves.setw ?_ ?_ | with_reducible refine Moves.flmDone ?_ ?_ | with_reducible refine Moves.setf ?_ ?_ | with_reducible apply Moves.ite | fail_if_no_progress (with_reducible refine Moves.plain ?_ ?_ ?_ ?_ ?_ ?_ ?_ ?_ ?_ ?_ ?_ ?_ ?_ ?_ ?_ ?_ ?_ <;> first | ((with_reducible refine Or.inr (Sub.bit hk ?_)); decide) | with_reducible exact Or.inl rfl | skip) | fail_if_no_progress (with_reducible refine Moves.plainNv ?_ rfl rfl rfl ?_ ?_ ?_ ?_ ?_ ?_ ?_ ?_ ?_ ?_ ?_ ?_ ?_ ?_ ?_ ?_ ?_ <;> first | ((with_reducible refine Or.inr (Sub.bit hk ?_)); decide) | with_reducible exact Or.inl rfl | skip) | with_reducible intro _ _ _ _ _ | with_reducible intro _ _ _ | with_reducible intro _ _ | extract_lets | split

theorem Moves.flmDoorbell {p : Port} {word : Nat} {s0 s : State} (hs : Moves K s0 s) (hk : Sub 0x2D004 K := by first | assumption | exact Sub.mono (by assumption) rfl) : Moves K s0 (State.flmDoorbell s p word) := by
  unfold State.flmDoorbell
  repeat' first | with_reducible assumption | ((with_reducible refine Sub.mono hk ?_); rfl) | with_reducible refine Moves.doorbellB ?_ ?_ ?_ | with_reducible refine Moves.flmOp ?_ ?_ | with_reducible apply Moves.ite | with_reducible intro _ _ _ _ _ | with_reducible intro _ _ _ | with_reducible intro _ _

theorem Ends.execFormat {p : Port} {s : State} (hk : Sub 0x2D004 K := by first | assumption | exact Sub.mono (by assumption) rfl) : Ends K s (Sys2Proof.Machine.execFormat p s) := by
  have h : Moves K s s := Moves.refl s
  unfold Sys2Proof.Machine.execFormat
  repeat' first | with_reducible assumption | with_reducible exact Moves.next ‹_› | with_reducible apply Moves.next | with_reducible apply Ends.ite | with_reducible exact Ends.refused | with_reducible refine Moves.flmDoorbell ?_ ?_

theorem Ends.execFormatDone {good : Nat} {readBack : Bool} {s : State} (hk : Sub 0xB1044 K := by first | assumption | exact Sub.mono (by assumption) rfl) : Ends K s (Sys2Proof.Machine.execFormatDone good readBack s) := by
  have h : Moves K s s := Moves.refl s
  unfold Sys2Proof.Machine.execFormatDone
  repeat' first | with_reducible assumption | ((with_reducible refine Sub.mono hk ?_); rfl) | with_reducible exact Moves.next ‹_› | with_reducible apply Moves.next | with_reducible apply Ends.ite | with_reducible exact Ends.refused | with_reducible refine Moves.flmDone ?_ ?_ | with_reducible refine Moves.setf ?_ ?_ | with_reducible refine Moves.mboxEmpty ?_ ?_ | with_reducible refine Moves.showLog ?_ ?_ | with_reducible refine Moves.showDirectory ?_ ?_ | with_reducible apply Moves.ite | fail_if_no_progress (with_reducible refine Moves.plain ?_ ?_ ?_ ?_ ?_ ?_ ?_ ?_ ?_ ?_ ?_ ?_ ?_ ?_ ?_ ?_ ?_ <;> first | ((with_reducible refine Or.inr (Sub.bit hk ?_)); decide) | with_reducible exact Or.inl rfl | skip) | fail_if_no_progress (with_reducible refine Moves.plainNv ?_ rfl rfl rfl ?_ ?_ ?_ ?_ ?_ ?_ ?_ ?_ ?_ ?_ ?_ ?_ ?_ ?_ ?_ ?_ ?_ <;> first | ((with_reducible refine Or.inr (Sub.bit hk ?_)); decide) | with_reducible exact Or.inl rfl | skip) | fail_if_no_progress with_reducible refine Moves.flash ?_ (Tab.wf_set _ _ _) ?_ | fail_if_no_progress with_reducible refine Moves.flash ?_ (Tab.wf_filter _ _) ?_ | fail_if_no_progress with_reducible refine Moves.flash ?_ (Tab.wf_remap _ _) ?_ | fail_if_no_progress with_reducible refine Moves.flash ?_ (fun _ => rfl) ?_ | with_reducible intro _ _ _ _ _ | with_reducible intro _ _ _ | with_reducible intro _ _ | extract_lets | split

theorem Ends.execScrubNow {p : Port} {s : State} (hk : Sub 0x2D004 K := by first | assumption | exact Sub.mono (by assumption) rfl) : Ends K s (Sys2Proof.Machine.execScrubNow p s) := by
  have h : Moves K s s := Moves.refl s
  unfold Sys2Proof.Machine.execScrubNow
  repeat' first | with_reducible assumption | with_reducible exact Moves.next ‹_› | with_reducible apply Moves.next | with_reducible apply Ends.ite | with_reducible exact Ends.refused | with_reducible refine Moves.flmDoorbell ?_ ?_

theorem Ends.execFlashScrubPass {o : ScrubOutcome} {s : State} (hk : Sub 0xFFFFFFD9E K := by first | assumption | exact Sub.mono (by assumption) rfl) : Ends K s (Sys2Proof.Machine.execFlashScrubPass o s) := by
  have h : Moves K s s := Moves.refl s
  unfold Sys2Proof.Machine.execFlashScrubPass
  repeat' first | with_reducible assumption | ((with_reducible refine Sub.mono hk ?_); rfl) | with_reducible exact Moves.next ‹_› | with_reducible apply Moves.next | with_reducible apply Ends.ite | with_reducible exact Ends.refused | with_reducible refine Moves.evIf ?_ ?_ | with_reducible refine Moves.blocksBad ?_ ?_ | with_reducible refine Moves.ev ?_ ?_

theorem Moves.storeBegin {s0 s : State} (hs : Moves K s0 s) (hk : Sub 0x191004 K := by first | assumption | exact Sub.mono (by assumption) rfl) : Moves K s0 (State.storeBegin s) := by
  unfold State.storeBegin
  repeat' first | with_reducible assumption | ((with_reducible refine Sub.mono hk ?_); rfl) | with_reducible refine Moves.xlkNotice ?_ ?_ | with_reducible refine Moves.raise ?_ ?_ | with_reducible apply Moves.ite | fail_if_no_progress (with_reducible refine Moves.plain ?_ ?_ ?_ ?_ ?_ ?_ ?_ ?_ ?_ ?_ ?_ ?_ ?_ ?_ ?_ ?_ ?_ <;> first | ((with_reducible refine Or.inr (Sub.bit hk ?_)); decide) | with_reducible exact Or.inl rfl | skip) | fail_if_no_progress (with_reducible refine Moves.plainNv ?_ rfl rfl rfl ?_ ?_ ?_ ?_ ?_ ?_ ?_ ?_ ?_ ?_ ?_ ?_ ?_ ?_ ?_ ?_ ?_ <;> first | ((with_reducible refine Or.inr (Sub.bit hk ?_)); decide) | with_reducible exact Or.inl rfl | skip) | with_reducible intro _ _ _ _ _ | with_reducible intro _ _ _ | with_reducible intro _ _ | extract_lets | split

theorem Moves.storeAll {s0 s : State} (hs : Moves K s0 s) (hk : Sub 0x31004 K := by first | assumption | exact Sub.mono (by assumption) rfl) : Moves K s0 s.storeAll := by
  unfold State.storeAll
  extract_lets a s1 s2 s3 _ s4
  have h3 : Moves K s0 s3 := ((hs.logDev.stageAll).finishCommit.finishCommit).takeLedgers
  clear_value s3
  have h4 : Moves K s0 s4 := h3.into rfl (fun w => ⟨w.regs, w.mem, w.ecc, w.scrub, w.flash, w.lnd, w.sel, w.ent, w.loop, w.ho, w.apl, w.out, w.tsc, w.tod, w.tasks, w.prt, w.pte, w.berth, w.gens, w.shadow, State.wf_withDirty w, w.incoming⟩) (.inl rfl) (.inl rfl) (.inl rfl) (.inl rfl) (.inl rfl) (.inl rfl) (.inl rfl) (.inl rfl) (.inl rfl) (.inl rfl) (.inl rfl) (.inl rfl) (.inl rfl) (.inl rfl) (.inl rfl) (.inl rfl) (.inr (hk.bit rfl)) (.inl rfl) (.inl rfl) (.inl rfl) (.inl rfl) (.inl rfl) (.inl rfl) (.inl rfl) (.inl rfl) (.inl rfl) (.inl rfl) (.inl rfl) (.inl rfl) (.inl rfl) (.inl rfl) (.inl rfl) (.inl rfl) (.inl rfl) (.inl rfl) (.inl rfl)
  exact h4.showDirty.writeFloor

theorem Moves.storeReturn {s0 s : State} (hs : Moves K s0 s) (hk : Sub 0x11004 K := by first | assumption | exact Sub.mono (by assumption) rfl) : Moves K s0 (State.storeReturn s) := by
  unfold State.storeReturn
  repeat' first | with_reducible assumption | ((with_reducible refine Sub.mono hk ?_); rfl) | with_reducible refine Moves.setf ?_ ?_ | with_reducible refine Moves.ev ?_ ?_ | with_reducible refine Moves.logDev ?_ ?_ | with_reducible refine Moves.raise ?_ ?_ | with_reducible apply Moves.ite | fail_if_no_progress (with_reducible refine Moves.plain ?_ ?_ ?_ ?_ ?_ ?_ ?_ ?_ ?_ ?_ ?_ ?_ ?_ ?_ ?_ ?_ ?_ <;> first | ((with_reducible refine Or.inr (Sub.bit hk ?_)); decide) | with_reducible exact Or.inl rfl | skip) | fail_if_no_progress (with_reducible refine Moves.plainNv ?_ rfl rfl rfl ?_ ?_ ?_ ?_ ?_ ?_ ?_ ?_ ?_ ?_ ?_ ?_ ?_ ?_ ?_ ?_ ?_ <;> first | ((with_reducible refine Or.inr (Sub.bit hk ?_)); decide) | with_reducible exact Or.inl rfl | skip)

theorem Ends.execPfailAssert {s : State} (hk : Sub 0x80191004 K := by first | assumption | exact Sub.mono (by assumption) rfl) : Ends K s (Sys2Proof.Machine.execPfailAssert s) := by
  have h : Moves K s s := Moves.refl s
  unfold Sys2Proof.Machine.execPfailAssert
  repeat' first | with_reducible assumption | ((with_reducible refine Sub.mono hk ?_); rfl) | with_reducible exact Moves.next ‹_› | with_reducible apply Moves.next | with_reducible apply Ends.ite | with_reducible exact Ends.refused | with_reducible refine Moves.route ?_ ?_ | with_reducible refine Moves.storeBegin ?_ ?_ | with_reducible refine Moves.xlkNotice ?_ ?_ | with_reducible apply Moves.ite | fail_if_no_progress (with_reducible refine Moves.plain ?_ ?_ ?_ ?_ ?_ ?_ ?_ ?_ ?_ ?_ ?_ ?_ ?_ ?_ ?_ ?_ ?_ <;> first | ((with_reducible refine Or.inr (Sub.bit hk ?_)); decide) | with_reducible exact Or.inl rfl | skip) | fail_if_no_progress (with_reducible refine Moves.plainNv ?_ rfl rfl rfl ?_ ?_ ?_ ?_ ?_ ?_ ?_ ?_ ?_ ?_ ?_ ?_ ?_ ?_ ?_ ?_ ?_ <;> first | ((with_reducible refine Or.inr (Sub.bit hk ?_)); decide) | with_reducible exact Or.inl rfl | skip) | with_reducible intro _ _ _ _ _ | with_reducible intro _ _ _ | with_reducible intro _ _ | extract_lets | split

theorem Ends.execPfailStoreDone {s : State} (hk : Sub 0x31004 K := by first | assumption | exact Sub.mono (by assumption) rfl) : Ends K s (Sys2Proof.Machine.execPfailStoreDone s) := by
  have h : Moves K s s := Moves.refl s
  unfold Sys2Proof.Machine.execPfailStoreDone
  repeat' first | with_reducible assumption | ((with_reducible refine Sub.mono hk ?_); rfl) | with_reducible exact Moves.next ‹_› | with_reducible apply Moves.next | with_reducible apply Ends.ite | with_reducible exact Ends.refused | with_reducible refine Moves.storeAll ?_ ?_ | with_reducible refine Moves.setf ?_ ?_ | with_reducible refine Moves.ev ?_ ?_ | with_reducible refine Moves.storeReturn ?_ ?_ | with_reducible apply Moves.ite | fail_if_no_progress (with_reducible refine Moves.plain ?_ ?_ ?_ ?_ ?_ ?_ ?_ ?_ ?_ ?_ ?_ ?_ ?_ ?_ ?_ ?_ ?_ <;> first | ((with_reducible refine Or.inr (Sub.bit hk ?_)); decide) | with_reducible exact Or.inl rfl | skip) | fail_if_no_progress (with_reducible refine Moves.plainNv ?_ rfl rfl rfl ?_ ?_ ?_ ?_ ?_ ?_ ?_ ?_ ?_ ?_ ?_ ?_ ?_ ?_ ?_ ?_ ?_ <;> first | ((with_reducible refine Or.inr (Sub.bit hk ?_)); decide) | with_reducible exact Or.inl rfl | skip)

theorem Ends.execPfailDeassert {s : State} (hk : Sub 0x11004 K := by first | assumption | exact Sub.mono (by assumption) rfl) : Ends K s (Sys2Proof.Machine.execPfailDeassert s) := by
  have h : Moves K s s := Moves.refl s
  unfold Sys2Proof.Machine.execPfailDeassert
  repeat' first | with_reducible assumption | with_reducible exact Moves.next ‹_› | with_reducible apply Moves.next | with_reducible apply Ends.ite | with_reducible exact Ends.refused | with_reducible refine Moves.storeReturn ?_ ?_ | with_reducible apply Moves.ite | fail_if_no_progress (with_reducible refine Moves.plain ?_ ?_ ?_ ?_ ?_ ?_ ?_ ?_ ?_ ?_ ?_ ?_ ?_ ?_ ?_ ?_ ?_ <;> first | ((with_reducible refine Or.inr (Sub.bit hk ?_)); decide) | with_reducible exact Or.inl rfl | skip) | fail_if_no_progress (with_reducible refine Moves.plainNv ?_ rfl rfl rfl ?_ ?_ ?_ ?_ ?_ ?_ ?_ ?_ ?_ ?_ ?_ ?_ ?_ ?_ ?_ ?_ ?_ <;> first | ((with_reducible refine Or.inr (Sub.bit hk ?_)); decide) | with_reducible exact Or.inl rfl | skip)

end Sys2Proof.Machine
end

