-- ==== Sys2Proof/Laws/KeepPower.lean ====
section
/-! SUPPORT. What the operations of Machine/Power.lean keep: the queue, the canonical form of the tables, and the parts of the state outside those named. -/

set_option Elab.async false

set_option linter.unreachableTactic false
set_option linter.unusedTactic false

namespace Sys2Proof.Machine

variable {K : Nat}

theorem Moves.coldReset {cause : Nat} {ph : Phase} {s0 s : State} (hs : Moves K s0 s) (hk : Sub 0xFFFFFFFBD K := by first | assumption | exact Sub.mono (by assumption) rfl) : Moves K s0 (s.coldReset cause ph) := by
  unfold State.coldReset
  extract_lets _ _ t _
  have ht : Moves K s0 t := hs.into rfl (fun w => ⟨Tab.wf_filter _ _ w.regs, rfl, rfl, rfl, w.flash, rfl, rfl, rfl, rfl, rfl, rfl, rfl, rfl, rfl, rfl, rfl, rfl, rfl, rfl, rfl, w.array, w.incoming⟩) (.inr (hk.bit rfl)) (.inl rfl) (.inr (hk.bit rfl)) (.inr (hk.bit rfl)) (.inr (hk.bit rfl)) (.inr (hk.bit rfl)) (.inl rfl) (.inr (hk.bit rfl)) (.inr (hk.bit rfl)) (.inr (hk.bit rfl)) (.inr (hk.bit rfl)) (.inr (hk.bit rfl)) (.inr (hk.bit rfl)) (.inr (hk.bit rfl)) (.inr (hk.bit rfl)) (.inr (hk.bit rfl)) (.inr (hk.bit rfl)) (.inr (hk.bit rfl)) (.inr (hk.bit rfl)) (.inr (hk.bit rfl)) (.inr (hk.bit rfl)) (.inr (hk.bit rfl)) (.inr (hk.bit rfl)) (.inr (hk.bit rfl)) (.inr (hk.bit rfl)) (.inr (hk.bit rfl)) (.inr (hk.bit rfl)) (.inr (hk.bit rfl)) (.inr (hk.bit rfl)) (.inr (hk.bit rfl)) (.inr (hk.bit rfl)) (.inr (hk.bit rfl)) (.inr (hk.bit rfl)) (.inr (hk.bit rfl)) (.inr (hk.bit rfl)) (.inr (hk.bit rfl))
  clear_value t
  exact Moves.setf (Moves.setf (Moves.forN ht (fun _ _ h => Moves.ite (Moves.setEntry h) h)))

theorem Moves.storeBefore {due : Bool} {s0 s : State} (hs : Moves K s0 s) (hk : Sub 0x1B1004 K := by first | assumption | exact Sub.mono (by assumption) rfl) : Moves K s0 (State.storeBefore s due) := by
  unfold State.storeBefore
  repeat' first | with_reducible assumption | ((with_reducible refine Sub.mono hk ?_); rfl) | with_reducible refine Moves.storeAll ?_ ?_ | with_reducible refine Moves.storeBegin ?_ ?_ | with_reducible apply Moves.ite

theorem Ends.execPowerOn {s : State} (hk : Sub 0xFFFFFFFBD K := by first | assumption | exact Sub.mono (by assumption) rfl) : Ends K s (Sys2Proof.Machine.execPowerOn s) := by
  have h : Moves K s s := Moves.refl s
  unfold Sys2Proof.Machine.execPowerOn
  repeat' first | with_reducible assumption | ((with_reducible refine Sub.mono hk ?_); rfl) | with_reducible exact Moves.next ‹_› | with_reducible apply Moves.next | with_reducible apply Ends.ite | with_reducible exact Ends.refused | with_reducible refine Moves.storeBefore ?_ ?_ | with_reducible refine Moves.coldReset ?_ ?_ | with_reducible apply Moves.ite | fail_if_no_progress (with_reducible refine Moves.plain ?_ ?_ ?_ ?_ ?_ ?_ ?_ ?_ ?_ ?_ ?_ ?_ ?_ ?_ ?_ ?_ ?_ <;> first | ((with_reducible refine Or.inr (Sub.bit hk ?_)); decide) | with_reducible exact Or.inl rfl | skip)

theorem Ends.execResetNFall {s : State} (hk : Sub 0xFFFFFFFBD K := by first | assumption | exact Sub.mono (by assumption) rfl) : Ends K s (Sys2Proof.Machine.execResetNFall s) := by
  have h : Moves K s s := Moves.refl s
  unfold Sys2Proof.Machine.execResetNFall
  repeat' first | with_reducible assumption | ((with_reducible refine Sub.mono hk ?_); rfl) | with_reducible exact Moves.next ‹_› | with_reducible apply Moves.next | with_reducible apply Ends.ite | with_reducible exact Ends.refused | with_reducible refine Moves.storeBefore ?_ ?_ | with_reducible refine Moves.coldReset ?_ ?_

theorem Ends.execBrownOut {_rail : WatchedRail} {s : State} (hk : Sub 0xFFFFFFFBD K := by first | assumption | exact Sub.mono (by assumption) rfl) : Ends K s (Sys2Proof.Machine.execBrownOut _rail s) := by
  have h : Moves K s s := Moves.refl s
  unfold Sys2Proof.Machine.execBrownOut
  repeat' first | with_reducible assumption | ((with_reducible refine Sub.mono hk ?_); rfl) | with_reducible exact Moves.next ‹_› | with_reducible apply Moves.next | with_reducible apply Ends.ite | with_reducible exact Ends.refused | with_reducible refine Moves.storeBefore ?_ ?_ | with_reducible refine Moves.coldReset ?_ ?_ | with_reducible apply Moves.ite | fail_if_no_progress (with_reducible refine Moves.plain ?_ ?_ ?_ ?_ ?_ ?_ ?_ ?_ ?_ ?_ ?_ ?_ ?_ ?_ ?_ ?_ ?_ <;> first | ((with_reducible refine Or.inr (Sub.bit hk ?_)); decide) | with_reducible exact Or.inl rfl | skip) | with_reducible intro _ _ _ _ _ | with_reducible intro _ _ _ | with_reducible intro _ _ | extract_lets | split

theorem Ends.execResetNRise {straps : Straps} {s : State} (hk : Sub 0x20104 K := by first | assumption | exact Sub.mono (by assumption) rfl) : Ends K s (Sys2Proof.Machine.execResetNRise straps s) := by
  have h : Moves K s s := Moves.refl s
  unfold Sys2Proof.Machine.execResetNRise
  repeat' first | with_reducible assumption | ((with_reducible refine Sub.mono hk ?_); rfl) | with_reducible exact Moves.next ‹_› | with_reducible apply Moves.next | with_reducible apply Ends.ite | with_reducible exact Ends.refused | with_reducible refine Moves.setw ?_ ?_ | with_reducible refine Moves.setb ?_ ?_ | with_reducible apply Moves.ite | fail_if_no_progress (with_reducible refine Moves.plain ?_ ?_ ?_ ?_ ?_ ?_ ?_ ?_ ?_ ?_ ?_ ?_ ?_ ?_ ?_ ?_ ?_ <;> first | ((with_reducible refine Or.inr (Sub.bit hk ?_)); decide) | with_reducible exact Or.inl rfl | skip)

theorem Ends.execRefsynLocked {s : State} (hk : Sub 0x304 K := by first | assumption | exact Sub.mono (by assumption) rfl) : Ends K s (Sys2Proof.Machine.execRefsynLocked s) := by
  have h : Moves K s s := Moves.refl s
  unfold Sys2Proof.Machine.execRefsynLocked
  repeat' first | with_reducible assumption | ((with_reducible refine Sub.mono hk ?_); rfl) | with_reducible exact Moves.next ‹_› | with_reducible apply Moves.next | with_reducible apply Ends.ite | with_reducible exact Ends.refused | with_reducible refine Moves.setf ?_ ?_ | with_reducible apply Moves.ite | fail_if_no_progress (with_reducible refine Moves.plain ?_ ?_ ?_ ?_ ?_ ?_ ?_ ?_ ?_ ?_ ?_ ?_ ?_ ?_ ?_ ?_ ?_ <;> first | ((with_reducible refine Or.inr (Sub.bit hk ?_)); decide) | with_reducible exact Or.inl rfl | skip) | with_reducible intro _ _ _ _ _ | with_reducible intro _ _ _ | with_reducible intro _ _ | extract_lets | split

theorem Moves.setLifecycle {v : Nat} {s0 s : State} (hs : Moves K s0 s) (hk : Sub 0x11004 K := by first | assumption | exact Sub.mono (by assumption) rfl) : Moves K s0 (State.setLifecycle s v) := by
  unfold State.setLifecycle
  repeat' first | with_reducible assumption | ((with_reducible refine Sub.mono hk ?_); rfl) | with_reducible refine Moves.setf ?_ ?_ | with_reducible refine Moves.ev ?_ ?_ | with_reducible refine Moves.logDev ?_ ?_

theorem Moves.fuseBegin {j : FuseJob} {s0 s : State} (hs : Moves K s0 s) (hk : Sub 0x40000 K := by first | assumption | exact Sub.mono (by assumption) rfl) : Moves K s0 (State.fuseBegin s j) := by
  unfold State.fuseBegin
  repeat' first | with_reducible assumption | ((with_reducible refine Sub.mono hk ?_); rfl) | with_reducible apply Moves.ite | fail_if_no_progress (with_reducible refine Moves.plain ?_ ?_ ?_ ?_ ?_ ?_ ?_ ?_ ?_ ?_ ?_ ?_ ?_ ?_ ?_ ?_ ?_ <;> first | ((with_reducible refine Or.inr (Sub.bit hk ?_)); decide) | with_reducible exact Or.inl rfl | skip) | with_reducible intro _ _ _ _ _ | with_reducible intro _ _ _ | with_reducible intro _ _ | extract_lets | split

theorem Moves.fuseDrop {j : FuseJob} {s0 s : State} (hs : Moves K s0 s) (hk : Sub 0x40000 K := by first | assumption | exact Sub.mono (by assumption) rfl) : Moves K s0 (State.fuseDrop s j) := by
  unfold State.fuseDrop
  repeat' first | with_reducible assumption | ((with_reducible refine Sub.mono hk ?_); rfl) | with_reducible apply Moves.ite | fail_if_no_progress (with_reducible refine Moves.plain ?_ ?_ ?_ ?_ ?_ ?_ ?_ ?_ ?_ ?_ ?_ ?_ ?_ ?_ ?_ ?_ ?_ <;> first | ((with_reducible refine Or.inr (Sub.bit hk ?_)); decide) | with_reducible exact Or.inl rfl | skip) | with_reducible intro _ _ _ _ _ | with_reducible intro _ _ _ | with_reducible intro _ _ | extract_lets | split

theorem Moves.fuseError {j : FuseJob} {s0 s : State} (hs : Moves K s0 s) (hk : Sub 0xFFFFFFD9E K := by first | assumption | exact Sub.mono (by assumption) rfl) : Moves K s0 (State.fuseError s j) := by
  unfold State.fuseError
  repeat' first | with_reducible assumption | ((with_reducible refine Sub.mono hk ?_); rfl) | with_reducible refine Moves.secEvent ?_ ?_ | with_reducible refine Moves.fuseDrop ?_ ?_ | with_reducible apply Moves.ite

theorem Moves.markOldSlots {t : Nat} {s0 s : State} (hs : Moves K s0 s) (hk : Sub 0x10004 K := by first | assumption | exact Sub.mono (by assumption) rfl) : Moves K s0 (State.markOldSlots s t) := by
  unfold State.markOldSlots
  repeat' first | with_reducible assumption | with_reducible refine Moves.forL ?_ ?_ | with_reducible refine Moves.setSlot ?_ ?_ | with_reducible apply Moves.ite | with_reducible intro _ _ _ _ _ | with_reducible intro _ _ _

theorem Moves.fuseDone {j : FuseJob} {s0 s : State} (hs : Moves K s0 s) (hk : Sub 0x51004 K := by first | assumption | exact Sub.mono (by assumption) rfl) : Moves K s0 (State.fuseDone s j) := by
  unfold State.fuseDone
  repeat' first | with_reducible assumption | ((with_reducible refine Sub.mono hk ?_); rfl) | with_reducible refine Moves.fuseDrop ?_ ?_ | with_reducible refine Moves.setLifecycle ?_ ?_ | with_reducible refine Moves.setf ?_ ?_ | with_reducible refine Moves.logDev ?_ ?_ | with_reducible refine Moves.markOldSlots ?_ ?_ | with_reducible apply Moves.ite | fail_if_no_progress (with_reducible refine Moves.plain ?_ ?_ ?_ ?_ ?_ ?_ ?_ ?_ ?_ ?_ ?_ ?_ ?_ ?_ ?_ ?_ ?_ <;> first | ((with_reducible refine Or.inr (Sub.bit hk ?_)); decide) | with_reducible exact Or.inl rfl | skip) | with_reducible intro _ _ _ _ _ | with_reducible intro _ _ _ | with_reducible intro _ _ | extract_lets | split

theorem Ends.execStartupInitDone {failed : List (Fin 36)} {fuseOk : Bool} {s : State} (hk : Sub 0xFFFFFFD9E K := by first | assumption | exact Sub.mono (by assumption) rfl) :
    Ends K s (Sys2Proof.Machine.execStartupInitDone failed fuseOk s) := by
  have h : Moves K s s := Moves.refl s
  unfold Sys2Proof.Machine.execStartupInitDone
  refine Ends.ite (Moves.next h) ?_
  extract_lets s1 _ s2 s3
  have h1 : Moves K s s1 := Moves.forL h (fun _ _ h => Moves.ite h.fuseDone h.fuseError)
  clear_value s1
  have h2 : Moves K s s2 := h1.into rfl (fun w => ⟨w.regs, rfl, rfl, w.scrub, w.flash, w.lnd, w.sel, w.ent, w.loop, w.ho, w.apl, w.out, w.tsc, w.tod, w.tasks, w.prt, w.pte, w.berth, w.gens, w.shadow, w.array, w.incoming⟩) (.inl rfl) (.inl rfl) (.inl rfl) (.inr (hk.bit rfl)) (.inr (hk.bit rfl)) (.inl rfl) (.inl rfl) (.inl rfl) (.inr (hk.bit rfl)) (.inl rfl) (.inl rfl) (.inl rfl) (.inl rfl) (.inl rfl) (.inl rfl) (.inl rfl) (.inl rfl) (.inl rfl) (.inl rfl) (.inl rfl) (.inl rfl) (.inl rfl) (.inl rfl) (.inl rfl) (.inl rfl) (.inl rfl) (.inl rfl) (.inl rfl) (.inl rfl) (.inl rfl) (.inl rfl) (.inl rfl) (.inl rfl) (.inl rfl) (.inl rfl) (.inl rfl)
  clear_value s2
  exact Moves.next (Moves.forN h2 (fun t x h => Moves.ite (Moves.testEnds (Moves.patternHistory h)) (Moves.toPontoon h)))

theorem Moves.restoreMan {s0 s : State} (hs : Moves K s0 s) (hk : Sub 0x80004 K := by first | assumption | exact Sub.mono (by assumption) rfl) : Moves K s0 (State.restoreMan s) := by
  unfold State.restoreMan
  repeat' first | with_reducible assumption | ((with_reducible refine Sub.mono hk ?_); rfl) | with_reducible refine Moves.setw ?_ ?_ | with_reducible refine Moves.setf ?_ ?_ | with_reducible refine Moves.setb ?_ ?_ | with_reducible apply Moves.ite | fail_if_no_progress (with_reducible refine Moves.plain ?_ ?_ ?_ ?_ ?_ ?_ ?_ ?_ ?_ ?_ ?_ ?_ ?_ ?_ ?_ ?_ ?_ <;> first | ((with_reducible refine Or.inr (Sub.bit hk ?_)); decide) | with_reducible exact Or.inl rfl | skip) | with_reducible intro _ _ _ _ _ | with_reducible intro _ _ _ | with_reducible intro _ _ | extract_lets | split

theorem Moves.restoreBoot {s0 s : State} (hs : Moves K s0 s) (hk : Sub 0x4 K := by first | assumption | exact Sub.mono (by assumption) rfl) : Moves K s0 (State.restoreBoot s) := by
  unfold State.restoreBoot
  repeat' first | with_reducible assumption | ((with_reducible refine Sub.mono hk ?_); rfl) | with_reducible refine Moves.setf ?_ ?_ | with_reducible refine Moves.forL ?_ ?_ | with_reducible apply Moves.ite | with_reducible intro _ _ _ _ _ | with_reducible intro _ _ _ | with_reducible intro _ _ | extract_lets | split

theorem First.recoverCommit {s0 s : State} (hs : Moves K s0 s) (hk : Sub 0x10002 K := by first | assumption | exact Sub.mono (by assumption) rfl) : First K s0 s.recoverCommit := by
  unfold State.recoverCommit
  split
  · exact hs
  · rename_i c e
    extract_lets _ s1 _
    have h1 : Moves K s0 s1 := hs.into rfl (fun w => ⟨w.regs, w.mem, w.ecc, w.scrub, w.flash, w.lnd, w.sel, w.ent, w.loop, w.ho, w.apl, w.out, w.tsc, w.tod, w.tasks, w.prt, w.pte, w.berth, w.gens, w.shadow, w.array, rfl⟩) (.inl rfl) (.inl rfl) (.inl rfl) (.inl rfl) (.inl rfl) (.inl rfl) (.inl rfl) (.inl rfl) (.inl rfl) (.inl rfl) (.inl rfl) (.inl rfl) (.inl rfl) (.inl rfl) (.inl rfl) (.inl rfl) (.inr (hk.bit rfl)) (.inl rfl) (.inl rfl) (.inl rfl) (.inl rfl) (.inl rfl) (.inl rfl) (.inl rfl) (.inl rfl) (.inl rfl) (.inl rfl) (.inl rfl) (.inl rfl) (.inl rfl) (.inl rfl) (.inl rfl) (.inl rfl) (.inl rfl) (.inl rfl) (.inl rfl)
    refine First.ite (First.mk (Moves.took (Moves.commitLedgers ?_))) (First.mk h1.took)
    have hi : s.Wf → Tab.wf memDefault c.arr = true := fun w => by
      have := w.incoming
      unfold NvCore.incoming at this
      rw [e] at this
      exact this
    exact hs.into rfl (fun w => ⟨w.regs, w.mem, w.ecc, w.scrub, w.flash, w.lnd, w.sel, w.ent, w.loop, w.ho, w.apl, w.out, w.tsc, w.tod, w.tasks, w.prt, w.pte, w.berth, w.gens, w.shadow, hi w, rfl⟩) (.inl rfl) (.inl rfl) (.inl rfl) (.inl rfl) (.inl rfl) (.inl rfl) (.inl rfl) (.inl rfl) (.inl rfl) (.inl rfl) (.inl rfl) (.inl rfl) (.inl rfl) (.inl rfl) (.inl rfl) (.inl rfl) (.inr (hk.bit rfl)) (.inl rfl) (.inl rfl) (.inl rfl) (.inl rfl) (.inl rfl) (.inl rfl) (.inl rfl) (.inl rfl) (.inl rfl) (.inl rfl) (.inl rfl) (.inl rfl) (.inl rfl) (.inl rfl) (.inl rfl) (.inl rfl) (.inl rfl) (.inl rfl) (.inl rfl)

theorem Moves.takeArray {s0 s : State} (hs : Moves K s0 s) (hk : Sub 0x10100 K := by first | assumption | exact Sub.mono (by assumption) rfl) : Moves K s0 s.takeArray :=
  hs.into rfl (fun w => ⟨w.regs, w.mem, w.ecc, w.scrub, w.flash, w.lnd, w.sel, w.ent, w.loop, w.ho, w.apl, w.out, w.tsc, w.tod, w.tasks, w.prt, w.pte, w.berth, w.gens, w.array, w.array, w.incoming⟩) (.inl rfl) (.inl rfl) (.inl rfl) (.inl rfl) (.inl rfl) (.inl rfl) (.inl rfl) (.inl rfl) (.inr (hk.bit rfl)) (.inl rfl) (.inl rfl) (.inl rfl) (.inl rfl) (.inl rfl) (.inl rfl) (.inl rfl) (.inr (hk.bit rfl)) (.inl rfl) (.inl rfl) (.inl rfl) (.inl rfl) (.inl rfl) (.inl rfl) (.inl rfl) (.inl rfl) (.inl rfl) (.inl rfl) (.inl rfl) (.inl rfl) (.inl rfl) (.inl rfl) (.inl rfl) (.inl rfl) (.inl rfl) (.inl rfl) (.inl rfl)

theorem Ends.execNvRecoveryDone {s : State} (hk : Sub 0x20091106 K := by first | assumption | exact Sub.mono (by assumption) rfl) : Ends K s (Sys2Proof.Machine.execNvRecoveryDone s) := by
  have h : Moves K s s := Moves.refl s
  unfold Sys2Proof.Machine.execNvRecoveryDone
  repeat' first | with_reducible assumption | ((with_reducible refine Sub.mono hk ?_); rfl) | with_reducible exact Moves.next ‹_› | with_reducible apply Moves.next | with_reducible apply Ends.ite | with_reducible exact Ends.refused | with_reducible refine First.recoverCommit ?_ ?_ | with_reducible refine (First.recoverCommit ?_ ?_).out ‹_› | with_reducible refine (First.recoverCommit ?_ ?_).fst | with_reducible refine Moves.takeArray ?_ ?_ | with_reducible refine Moves.setf ?_ ?_ | with_reducible refine Moves.restoreBoot ?_ ?_ | with_reducible refine Moves.restoreMan ?_ ?_ | with_reducible refine Moves.showPasswords ?_ ?_ | with_reducible refine Moves.showLog ?_ ?_ | with_reducible refine Moves.forN ?_ ?_ | with_reducible refine Moves.modTsc ?_ ?_ | with_reducible refine Moves.setw ?_ ?_ | with_reducible refine Moves.logDev ?_ ?_ | with_reducible refine Moves.ev ?_ ?_ | with_reducible apply Moves.ite | fail_if_no_progress (with_reducible refine Moves.plain ?_ ?_ ?_ ?_ ?_ ?_ ?_ ?_ ?_ ?_ ?_ ?_ ?_ ?_ ?_ ?_ ?_ <;> first | ((with_reducible refine Or.inr (Sub.bit hk ?_)); decide) | with_reducible exact Or.inl rfl | skip) | fail_if_no_progress (with_reducible refine Moves.plainNv ?_ rfl rfl rfl ?_ ?_ ?_ ?_ ?_ ?_ ?_ ?_ ?_ ?_ ?_ ?_ ?_ ?_ ?_ ?_ ?_ <;> first | ((with_reducible refine Or.inr (Sub.bit hk ?_)); decide) | with_reducible exact Or.inl rfl | skip) | with_reducible intro _ _ _ _ _ | with_reducible intro _ _ _

theorem Moves.firstLoad {s0 s : State} (hs : Moves K s0 s) (hk : Sub 0x8001D1C K := by first | assumption | exact Sub.mono (by assumption) rfl) : Moves K s0 (State.firstLoad s) := by
  unfold State.firstLoad
  repeat' first | with_reducible assumption | ((with_reducible refine Sub.mono hk ?_); rfl) | with_reducible refine Moves.startLoad ?_ ?_ | with_reducible apply Moves.ite | fail_if_no_progress (with_reducible refine Moves.plain ?_ ?_ ?_ ?_ ?_ ?_ ?_ ?_ ?_ ?_ ?_ ?_ ?_ ?_ ?_ ?_ ?_ <;> first | ((with_reducible refine Or.inr (Sub.bit hk ?_)); decide) | with_reducible exact Or.inl rfl | skip)

theorem Ends.execFlmLinkReady {s : State} (hk : Sub 0x8011D1C K := by first | assumption | exact Sub.mono (by assumption) rfl) : Ends K s (Sys2Proof.Machine.execFlmLinkReady s) := by
  have h : Moves K s s := Moves.refl s
  unfold Sys2Proof.Machine.execFlmLinkReady
  repeat' first | with_reducible assumption | ((with_reducible refine Sub.mono hk ?_); rfl) | with_reducible exact Moves.next ‹_› | with_reducible apply Moves.next | with_reducible apply Ends.ite | with_reducible exact Ends.refused | with_reducible refine Moves.setf ?_ ?_ | with_reducible refine Moves.showDirectory ?_ ?_ | with_reducible refine Moves.commitBoot ?_ ?_ | with_reducible refine Moves.logDev ?_ ?_ | with_reducible refine Moves.firstLoad ?_ ?_ | with_reducible apply Moves.ite | fail_if_no_progress (with_reducible refine Moves.plain ?_ ?_ ?_ ?_ ?_ ?_ ?_ ?_ ?_ ?_ ?_ ?_ ?_ ?_ ?_ ?_ ?_ <;> first | ((with_reducible refine Or.inr (Sub.bit hk ?_)); decide) | with_reducible exact Or.inl rfl | skip)

theorem Ends.execFullrstNFall {s : State} (hk : Sub 0xFFFFFFD9E K := by first | assumption | exact Sub.mono (by assumption) rfl) : Ends K s (Sys2Proof.Machine.execFullrstNFall s) := by
  have h : Moves K s s := Moves.refl s
  unfold Sys2Proof.Machine.execFullrstNFall
  repeat' first | with_reducible assumption | with_reducible exact Moves.next ‹_› | with_reducible apply Moves.next | with_reducible apply Ends.ite | with_reducible exact Ends.refused | with_reducible refine Moves.fullReset ?_ ?_ | with_reducible apply Moves.ite | fail_if_no_progress (with_reducible refine Moves.plain ?_ ?_ ?_ ?_ ?_ ?_ ?_ ?_ ?_ ?_ ?_ ?_ ?_ ?_ ?_ ?_ ?_ <;> first | ((with_reducible refine Or.inr (Sub.bit hk ?_)); decide) | with_reducible exact Or.inl rfl | skip)

theorem Ends.execFullrstNRise {s : State} (hk : Sub 0x8001D1C K := by first | assumption | exact Sub.mono (by assumption) rfl) : Ends K s (Sys2Proof.Machine.execFullrstNRise s) := by
  have h : Moves K s s := Moves.refl s
  unfold Sys2Proof.Machine.execFullrstNRise
  repeat' first | with_reducible assumption | ((with_reducible refine Sub.mono hk ?_); rfl) | with_reducible exact Moves.next ‹_› | with_reducible apply Moves.next | with_reducible apply Ends.ite | with_reducible exact Ends.refused | with_reducible refine Moves.releaseLoad ?_ ?_ | with_reducible apply Moves.ite | fail_if_no_progress (with_reducible refine Moves.plain ?_ ?_ ?_ ?_ ?_ ?_ ?_ ?_ ?_ ?_ ?_ ?_ ?_ ?_ ?_ ?_ ?_ <;> first | ((with_reducible refine Or.inr (Sub.bit hk ?_)); decide) | with_reducible exact Or.inl rfl | skip)

theorem Moves.topCmd {p : Port} {key : Nat} {s0 s : State} (hs : Moves K s0 s) (hk : Sub 0xFFFFFFD9E K := by first | assumption | exact Sub.mono (by assumption) rfl) : Moves K s0 (State.topCmd s p key) := by
  unfold State.topCmd
  repeat' first | with_reducible assumption | ((with_reducible refine Sub.mono hk ?_); rfl) | with_reducible refine Moves.fullReset ?_ ?_ | with_reducible refine Moves.busErr ?_ ?_ | with_reducible apply Moves.ite

theorem Ends.execTopCmdFullReset {p : Port} {key : Word} {s : State} (hk : Sub 0xFFFFFFD9E K := by first | assumption | exact Sub.mono (by assumption) rfl) : Ends K s (Sys2Proof.Machine.execTopCmdFullReset p key s) := by
  have h : Moves K s s := Moves.refl s
  unfold Sys2Proof.Machine.execTopCmdFullReset
  repeat' first | with_reducible assumption | ((with_reducible refine Sub.mono hk ?_); rfl) | with_reducible exact Moves.next ‹_› | with_reducible apply Moves.next | with_reducible apply Ends.ite | with_reducible exact Ends.refused | with_reducible refine Moves.doorbell ?_ ?_ ?_ | with_reducible refine Moves.topCmd ?_ ?_ | with_reducible apply Moves.ite | with_reducible intro _ _ _ _ _ | with_reducible intro _ _ _ | with_reducible intro _ _

theorem Moves.command {c : Nat} {s0 s : State} (hs : Moves K s0 s) (hk : Sub 0x1204 K := by first | assumption | exact Sub.mono (by assumption) rfl) : Moves K s0 (State.command s c) := by
  unfold State.command
  repeat' first | with_reducible assumption | ((with_reducible refine Sub.mono hk ?_); rfl) | with_reducible refine Moves.setf ?_ ?_ | with_reducible refine Moves.setb ?_ ?_ | with_reducible refine Moves.evIf ?_ ?_ | with_reducible apply Moves.ite | fail_if_no_progress (with_reducible refine Moves.plain ?_ ?_ ?_ ?_ ?_ ?_ ?_ ?_ ?_ ?_ ?_ ?_ ?_ ?_ ?_ ?_ ?_ <;> first | ((with_reducible refine Or.inr (Sub.bit hk ?_)); decide) | with_reducible exact Or.inl rfl | skip)

theorem Moves.lagWindow {lag reg : Bool} {s0 s : State} (hs : Moves K s0 s) (hk : Sub 0x1204 K := by first | assumption | exact Sub.mono (by assumption) rfl) : Moves K s0 (State.lagWindow s lag reg) := by
  unfold State.lagWindow
  repeat' first | with_reducible assumption | ((with_reducible refine Sub.mono hk ?_); rfl) | with_reducible refine Moves.setb ?_ ?_ | with_reducible refine Moves.inc ?_ ?_ | with_reducible refine Moves.ev ?_ ?_ | with_reducible refine Moves.raise ?_ ?_ | with_reducible apply Moves.ite | fail_if_no_progress (with_reducible refine Moves.plain ?_ ?_ ?_ ?_ ?_ ?_ ?_ ?_ ?_ ?_ ?_ ?_ ?_ ?_ ?_ ?_ ?_ <;> first | ((with_reducible refine Or.inr (Sub.bit hk ?_)); decide) | with_reducible exact Or.inl rfl | skip)

theorem Moves.deficit {slow reg inj : Bool} {s0 s : State} (hs : Moves K s0 s) (hk : Sub 0xFFFFFFF9E K := by first | assumption | exact Sub.mono (by assumption) rfl) : Moves K s0 (State.deficit s slow reg inj) := by
  unfold State.deficit
  repeat' first | with_reducible assumption | ((with_reducible refine Sub.mono hk ?_); rfl) | with_reducible refine Moves.ev ?_ ?_ | with_reducible refine Moves.setf ?_ ?_ | with_reducible refine Moves.logDev ?_ ?_ | with_reducible refine Moves.route ?_ ?_ | with_reducible refine Moves.raise ?_ ?_ | with_reducible refine Moves.inc ?_ ?_ | with_reducible refine Moves.reportInj ?_ ?_ | with_reducible apply Moves.ite | fail_if_no_progress (with_reducible refine Moves.plain ?_ ?_ ?_ ?_ ?_ ?_ ?_ ?_ ?_ ?_ ?_ ?_ ?_ ?_ ?_ ?_ ?_ <;> first | ((with_reducible refine Or.inr (Sub.bit hk ?_)); decide) | with_reducible exact Or.inl rfl | skip) | with_reducible intro _ _ _ _ _ | with_reducible intro _ _ _ | with_reducible intro _ _ | extract_lets | split

theorem Moves.voltageStep {laps : Int} {s0 s : State} (hs : Moves K s0 s) (hk : Sub 0x1204 K := by first | assumption | exact Sub.mono (by assumption) rfl) : Moves K s0 (State.voltageStep s laps) := by
  unfold State.voltageStep
  repeat' first | with_reducible assumption | ((with_reducible refine Sub.mono hk ?_); rfl) | with_reducible refine Moves.command ?_ ?_ | with_reducible apply Moves.ite | fail_if_no_progress (with_reducible refine Moves.plain ?_ ?_ ?_ ?_ ?_ ?_ ?_ ?_ ?_ ?_ ?_ ?_ ?_ ?_ ?_ ?_ ?_ <;> first | ((with_reducible refine Or.inr (Sub.bit hk ?_)); decide) | with_reducible exact Or.inl rfl | skip) | with_reducible intro _ _ _ _ _ | with_reducible intro _ _ _ | with_reducible intro _ _ | extract_lets | split

theorem Ends.execCanaryWindowEnd {laps : BitVec 16} {s : State} (hk : Sub 0xFFFFFFF9E K := by first | assumption | exact Sub.mono (by assumption) rfl) : Ends K s (Sys2Proof.Machine.execCanaryWindowEnd laps s) := by
  have h : Moves K s s := Moves.refl s
  unfold Sys2Proof.Machine.execCanaryWindowEnd
  repeat' first | with_reducible assumption | ((with_reducible refine Sub.mono hk ?_); rfl) | with_reducible exact Moves.next ‹_› | with_reducible apply Moves.next | with_reducible apply Ends.ite | with_reducible exact Ends.refused | with_reducible refine Moves.setf ?_ ?_ | with_reducible refine Moves.lagWindow ?_ ?_ | with_reducible refine Moves.injDone ?_ ?_ | with_reducible refine Moves.deficit ?_ ?_ | with_reducible refine Moves.voltageStep ?_ ?_ | with_reducible refine Moves.firstLoad ?_ ?_ | with_reducible apply Moves.ite | fail_if_no_progress (with_reducible refine Moves.plain ?_ ?_ ?_ ?_ ?_ ?_ ?_ ?_ ?_ ?_ ?_ ?_ ?_ ?_ ?_ ?_ ?_ <;> first | ((with_reducible refine Or.inr (Sub.bit hk ?_)); decide) | with_reducible exact Or.inl rfl | skip) | with_reducible intro _ _ _ _ _ | with_reducible intro _ _ _ | with_reducible intro _ _ | extract_lets | split

theorem Ends.execAvsStepDone {mv : Nat} {ok : Bool} {s : State} (hk : Sub 0xFFFFFFF9E K := by first | assumption | exact Sub.mono (by assumption) rfl) : Ends K s (Sys2Proof.Machine.execAvsStepDone mv ok s) := by
  have h : Moves K s s := Moves.refl s
  unfold Sys2Proof.Machine.execAvsStepDone
  repeat' first | with_reducible assumption | ((with_reducible refine Sub.mono hk ?_); rfl) | with_reducible exact Moves.next ‹_› | with_reducible apply Moves.next | with_reducible apply Ends.ite | with_reducible exact Ends.refused | with_reducible refine Moves.injDone ?_ ?_ | with_reducible refine Moves.setf ?_ ?_ | with_reducible refine Moves.ev ?_ ?_ | with_reducible refine Moves.raise ?_ ?_ | with_reducible refine Moves.reportInj ?_ ?_ | with_reducible apply Moves.ite | fail_if_no_progress (with_reducible refine Moves.plain ?_ ?_ ?_ ?_ ?_ ?_ ?_ ?_ ?_ ?_ ?_ ?_ ?_ ?_ ?_ ?_ ?_ <;> first | ((with_reducible refine Or.inr (Sub.bit hk ?_)); decide) | with_reducible exact Or.inl rfl | skip) | fail_if_no_progress (with_reducible refine Moves.plainNv ?_ rfl rfl rfl ?_ ?_ ?_ ?_ ?_ ?_ ?_ ?_ ?_ ?_ ?_ ?_ ?_ ?_ ?_ ?_ ?_ <;> first | ((with_reducible refine Or.inr (Sub.bit hk ?_)); decide) | with_reducible exact Or.inl rfl | skip) | with_reducible intro _ _ _ _ _ | with_reducible intro _ _ _ | with_reducible intro _ _ | extract_lets | split

theorem Ends.execSupplyRailFault {rail : Fin 14} {s : State} (hk : Sub 0xFFFFFFD9E K := by first | assumption | exact Sub.mono (by assumption) rfl) : Ends K s (Sys2Proof.Machine.execSupplyRailFault rail s) := by
  have h : Moves K s s := Moves.refl s
  unfold Sys2Proof.Machine.execSupplyRailFault
  repeat' first | with_reducible assumption | ((with_reducible refine Sub.mono hk ?_); rfl) | with_reducible exact Moves.next ‹_› | with_reducible apply Moves.next | with_reducible apply Ends.ite | with_reducible exact Ends.refused | with_reducible refine Moves.setf ?_ ?_ | with_reducible refine Moves.raise ?_ ?_ | with_reducible refine Moves.report ?_ ?_ | with_reducible apply Moves.ite | fail_if_no_progress (with_reducible refine Moves.plain ?_ ?_ ?_ ?_ ?_ ?_ ?_ ?_ ?_ ?_ ?_ ?_ ?_ ?_ ?_ ?_ ?_ <;> first | ((with_reducible refine Or.inr (Sub.bit hk ?_)); decide) | with_reducible exact Or.inl rfl | skip)

theorem Ends.execSupplyRailReturn {rail : Fin 14} {s : State} (hk : Sub 0x804 K := by first | assumption | exact Sub.mono (by assumption) rfl) : Ends K s (Sys2Proof.Machine.execSupplyRailReturn rail s) := by
  have h : Moves K s s := Moves.refl s
  unfold Sys2Proof.Machine.execSupplyRailReturn
  repeat' first | with_reducible assumption | ((with_reducible refine Sub.mono hk ?_); rfl) | with_reducible exact Moves.next ‹_› | with_reducible apply Moves.next | with_reducible apply Ends.ite | with_reducible exact Ends.refused | with_reducible refine Moves.setb ?_ ?_ | with_reducible apply Moves.ite | fail_if_no_progress (with_reducible refine Moves.plain ?_ ?_ ?_ ?_ ?_ ?_ ?_ ?_ ?_ ?_ ?_ ?_ ?_ ?_ ?_ ?_ ?_ <;> first | ((with_reducible refine Or.inr (Sub.bit hk ?_)); decide) | with_reducible exact Or.inl rfl | skip)

theorem Moves.onset {x : Fld} {irq src kind addr : Nat} {s0 s : State} (hs : Moves K s0 s) (hk : Sub 0xFFFFFFD9E K := by first | assumption | exact Sub.mono (by assumption) rfl) : Moves K s0 (State.onset s x irq src kind addr) := by
  unfold State.onset
  repeat' first | with_reducible assumption | ((with_reducible refine Sub.mono hk ?_); rfl) | with_reducible refine Moves.setf ?_ ?_ | with_reducible refine Moves.raise ?_ ?_ | with_reducible refine Moves.report ?_ ?_ | with_reducible apply Moves.ite

theorem Ends.execXoinLost {s : State} (hk : Sub 0xFFFFFFD9E K := by first | assumption | exact Sub.mono (by assumption) rfl) : Ends K s (Sys2Proof.Machine.execXoinLost s) := by
  have h : Moves K s s := Moves.refl s
  unfold Sys2Proof.Machine.execXoinLost
  repeat' first | with_reducible assumption | with_reducible exact Moves.next ‹_› | with_reducible apply Moves.next | with_reducible apply Ends.ite | with_reducible exact Ends.refused | with_reducible refine Moves.onset ?_ ?_

theorem Ends.execXoinReturn {s : State} (hk : Sub 0x4 K := by first | assumption | exact Sub.mono (by assumption) rfl) : Ends K s (Sys2Proof.Machine.execXoinReturn s) := by
  have h : Moves K s s := Moves.refl s
  unfold Sys2Proof.Machine.execXoinReturn
  repeat' first | with_reducible assumption | with_reducible exact Moves.next ‹_› | with_reducible apply Moves.next | with_reducible apply Ends.ite | with_reducible exact Ends.refused | with_reducible refine Moves.setf ?_ ?_

theorem Ends.execRefsynUnlock {dev : Int} {s : State} (hk : Sub 0xFFFFFFD9E K := by first | assumption | exact Sub.mono (by assumption) rfl) : Ends K s (Sys2Proof.Machine.execRefsynUnlock dev s) := by
  have h : Moves K s s := Moves.refl s
  unfold Sys2Proof.Machine.execRefsynUnlock
  repeat' first | with_reducible assumption | with_reducible exact Moves.next ‹_› | with_reducible apply Moves.next | with_reducible apply Ends.ite | with_reducible exact Ends.refused | with_reducible refine Moves.onset ?_ ?_

theorem Ends.execOverTemperature {t : Int} {s : State} (hk : Sub 0xFFFFFFD9E K := by first | assumption | exact Sub.mono (by assumption) rfl) : Ends K s (Sys2Proof.Machine.execOverTemperature t s) := by
  have h : Moves K s s := Moves.refl s
  unfold Sys2Proof.Machine.execOverTemperature
  repeat' first | with_reducible assumption | with_reducible exact Moves.next ‹_› | with_reducible apply Moves.next | with_reducible apply Ends.ite | with_reducible exact Ends.refused | with_reducible refine Moves.onset ?_ ?_

theorem Ends.execOverTemperatureClear {s : State} (hk : Sub 0x4 K := by first | assumption | exact Sub.mono (by assumption) rfl) : Ends K s (Sys2Proof.Machine.execOverTemperatureClear s) := by
  have h : Moves K s s := Moves.refl s
  unfold Sys2Proof.Machine.execOverTemperatureClear
  repeat' first | with_reducible assumption | with_reducible exact Moves.next ‹_› | with_reducible apply Moves.next | with_reducible apply Ends.ite | with_reducible exact Ends.refused | with_reducible refine Moves.setf ?_ ?_

theorem Ends.execFaultMessage {m : FaultMsg} {s : State} (hk : Sub 0xFFFFFFD9E K := by first | assumption | exact Sub.mono (by assumption) rfl) : Ends K s (Sys2Proof.Machine.execFaultMessage m s) := by
  have h : Moves K s s := Moves.refl s
  unfold Sys2Proof.Machine.execFaultMessage
  repeat' first | with_reducible assumption | ((with_reducible refine Sub.mono hk ?_); rfl) | with_reducible exact Moves.next ‹_› | with_reducible apply Moves.next | with_reducible apply Ends.ite | with_reducible exact Ends.refused | with_reducible refine Moves.report ?_ ?_ | with_reducible apply Moves.ite | with_reducible intro _ _ _ _ _ | with_reducible intro _ _ _ | with_reducible intro _ _ | extract_lets | split

theorem Moves.fltDone {c : Code} {s0 s : State} (hs : Moves K s0 s) (hk : Sub 0x4 K := by first | assumption | exact Sub.mono (by assumption) rfl) : Moves K s0 (State.fltDone s c) := by
  unfold State.fltDone
  repeat' first | with_reducible assumption | with_reducible refine Moves.complete ?_ ?_

theorem Moves.fltPop {p : Port} {s0 s : State} (hs : Moves K s0 s) (hk : Sub 0x1804 K := by first | assumption | exact Sub.mono (by assumption) rfl) : Moves K s0 (State.fltPop s p) := by
  unfold State.fltPop
  repeat' first | with_reducible assumption | ((with_reducible refine Sub.mono hk ?_); rfl) | with_reducible refine Moves.fltDone ?_ ?_ | with_reducible refine Moves.mboxOut ?_ ?_ | with_reducible refine Moves.setf ?_ ?_ | with_reducible apply Moves.ite | fail_if_no_progress (with_reducible refine Moves.plain ?_ ?_ ?_ ?_ ?_ ?_ ?_ ?_ ?_ ?_ ?_ ?_ ?_ ?_ ?_ ?_ ?_ <;> first | ((with_reducible refine Or.inr (Sub.bit hk ?_)); decide) | with_reducible exact Or.inl rfl | skip) | fail_if_no_progress (with_reducible refine Moves.plainNv ?_ rfl rfl rfl ?_ ?_ ?_ ?_ ?_ ?_ ?_ ?_ ?_ ?_ ?_ ?_ ?_ ?_ ?_ ?_ ?_ <;> first | ((with_reducible refine Or.inr (Sub.bit hk ?_)); decide) | with_reducible exact Or.inl rfl | skip) | with_reducible intro _ _ _ _ _ | with_reducible intro _ _ _ | with_reducible intro _ _ | extract_lets | split

theorem Moves.errRelease {s0 s : State} (hs : Moves K s0 s) (hk : Sub 0x804 K := by first | assumption | exact Sub.mono (by assumption) rfl) : Moves K s0 (State.errRelease s) := by
  unfold State.errRelease
  repeat' first | with_reducible assumption | ((with_reducible refine Sub.mono hk ?_); rfl) | with_reducible refine Moves.setf ?_ ?_ | with_reducible refine Moves.fltDone ?_ ?_ | with_reducible apply Moves.ite | fail_if_no_progress (with_reducible refine Moves.plain ?_ ?_ ?_ ?_ ?_ ?_ ?_ ?_ ?_ ?_ ?_ ?_ ?_ ?_ ?_ ?_ ?_ <;> first | ((with_reducible refine Or.inr (Sub.bit hk ?_)); decide) | with_reducible exact Or.inl rfl | skip)

theorem Moves.trapClear {s0 s : State} (hs : Moves K s0 s) (hk : Sub 0x4 K := by first | assumption | exact Sub.mono (by assumption) rfl) : Moves K s0 (State.trapClear s) := by
  unfold State.trapClear
  repeat' first | with_reducible assumption | with_reducible refine Moves.setw ?_ ?_ | with_reducible refine Moves.setf ?_ ?_ | with_reducible refine Moves.fltDone ?_ ?_

theorem Moves.injArm {s0 s : State} (hs : Moves K s0 s) (hk : Sub 0xFFFFFFD9E K := by first | assumption | exact Sub.mono (by assumption) rfl) : Moves K s0 (State.injArm s) := by
  unfold State.injArm
  repeat' first | with_reducible assumption | ((with_reducible refine Sub.mono hk ?_); rfl) | with_reducible refine Moves.setf ?_ ?_ | with_reducible refine Moves.fltDone ?_ ?_ | with_reducible refine Moves.injDone ?_ ?_ | with_reducible refine Moves.reportInj ?_ ?_ | with_reducible apply Moves.ite | fail_if_no_progress (with_reducible refine Moves.plain ?_ ?_ ?_ ?_ ?_ ?_ ?_ ?_ ?_ ?_ ?_ ?_ ?_ ?_ ?_ ?_ ?_ <;> first | ((with_reducible refine Or.inr (Sub.bit hk ?_)); decide) | with_reducible exact Or.inl rfl | skip) | fail_if_no_progress (with_reducible refine Moves.plainNv ?_ rfl rfl rfl ?_ ?_ ?_ ?_ ?_ ?_ ?_ ?_ ?_ ?_ ?_ ?_ ?_ ?_ ?_ ?_ ?_ <;> first | ((with_reducible refine Or.inr (Sub.bit hk ?_)); decide) | with_reducible exact Or.inl rfl | skip) | with_reducible intro _ _ _ _ _ | with_reducible intro _ _ _ | with_reducible intro _ _ | extract_lets | split

theorem Moves.injCancel {s0 s : State} (hs : Moves K s0 s) (hk : Sub 0x804 K := by first | assumption | exact Sub.mono (by assumption) rfl) : Moves K s0 (State.injCancel s) := by
  unfold State.injCancel
  repeat' first | with_reducible assumption | ((with_reducible refine Sub.mono hk ?_); rfl) | with_reducible refine Moves.setf ?_ ?_ | with_reducible refine Moves.fltDone ?_ ?_ | with_reducible apply Moves.ite | fail_if_no_progress (with_reducible refine Moves.plain ?_ ?_ ?_ ?_ ?_ ?_ ?_ ?_ ?_ ?_ ?_ ?_ ?_ ?_ ?_ ?_ ?_ <;> first | ((with_reducible refine Or.inr (Sub.bit hk ?_)); decide) | with_reducible exact Or.inl rfl | skip)

theorem Ends.execFltPop {p : Port} {s : State} (hk : Sub 0xD804 K := by first | assumption | exact Sub.mono (by assumption) rfl) : Ends K s (Sys2Proof.Machine.execFltPop p s) := by
  have h : Moves K s s := Moves.refl s
  unfold Sys2Proof.Machine.execFltPop
  repeat' first | with_reducible assumption | ((with_reducible refine Sub.mono hk ?_); rfl) | with_reducible exact Moves.next ‹_› | with_reducible apply Moves.next | with_reducible apply Ends.ite | with_reducible exact Ends.refused | with_reducible refine Moves.doorbell ?_ ?_ ?_ | with_reducible refine Moves.fltPop ?_ ?_ | with_reducible apply Moves.ite | with_reducible intro _ _ _ _ _ | with_reducible intro _ _ _ | with_reducible intro _ _

theorem Ends.execErrRelease {p : Port} {s : State} (hk : Sub 0xD804 K := by first | assumption | exact Sub.mono (by assumption) rfl) : Ends K s (Sys2Proof.Machine.execErrRelease p s) := by
  have h : Moves K s s := Moves.refl s
  unfold Sys2Proof.Machine.execErrRelease
  repeat' first | with_reducible assumption | ((with_reducible refine Sub.mono hk ?_); rfl) | with_reducible exact Moves.next ‹_› | with_reducible apply Moves.next | with_reducible apply Ends.ite | with_reducible exact Ends.refused | with_reducible refine Moves.doorbell ?_ ?_ ?_ | with_reducible refine Moves.errRelease ?_ ?_ | with_reducible apply Moves.ite | with_reducible intro _ _ _ _ _ | with_reducible intro _ _ _ | with_reducible intro _ _

theorem Ends.execTrapClear {p : Port} {s : State} (hk : Sub 0xD004 K := by first | assumption | exact Sub.mono (by assumption) rfl) : Ends K s (Sys2Proof.Machine.execTrapClear p s) := by
  have h : Moves K s s := Moves.refl s
  unfold Sys2Proof.Machine.execTrapClear
  repeat' first | with_reducible assumption | ((with_reducible refine Sub.mono hk ?_); rfl) | with_reducible exact Moves.next ‹_› | with_reducible apply Moves.next | with_reducible apply Ends.ite | with_reducible exact Ends.refused | with_reducible refine Moves.doorbell ?_ ?_ ?_ | with_reducible refine Moves.trapClear ?_ ?_ | with_reducible apply Moves.ite | with_reducible intro _ _ _ _ _ | with_reducible intro _ _ _ | with_reducible intro _ _

theorem Ends.execInjArm {p : Port} {s : State} (hk : Sub 0xFFFFFFD9E K := by first | assumption | exact Sub.mono (by assumption) rfl) : Ends K s (Sys2Proof.Machine.execInjArm p s) := by
  have h : Moves K s s := Moves.refl s
  unfold Sys2Proof.Machine.execInjArm
  repeat' first | with_reducible assumption | ((with_reducible refine Sub.mono hk ?_); rfl) | with_reducible exact Moves.next ‹_› | with_reducible apply Moves.next | with_reducible apply Ends.ite | with_reducible exact Ends.refused | with_reducible refine Moves.doorbell ?_ ?_ ?_ | with_reducible refine Moves.injArm ?_ ?_ | with_reducible apply Moves.ite | with_reducible intro _ _ _ _ _ | with_reducible intro _ _ _ | with_reducible intro _ _

theorem Ends.execInjCancel {p : Port} {s : State} (hk : Sub 0xD804 K := by first | assumption | exact Sub.mono (by assumption) rfl) : Ends K s (Sys2Proof.Machine.execInjCancel p s) := by
  have h : Moves K s s := Moves.refl s
  unfold Sys2Proof.Machine.execInjCancel
  repeat' first | with_reducible assumption | ((with_reducible refine Sub.mono hk ?_); rfl) | with_reducible exact Moves.next ‹_› | with_reducible apply Moves.next | with_reducible apply Ends.ite | with_reducible exact Ends.refused | with_reducible refine Moves.doorbell ?_ ?_ ?_ | with_reducible refine Moves.injCancel ?_ ?_ | with_reducible apply Moves.ite | with_reducible intro _ _ _ _ _ | with_reducible intro _ _ _ | with_reducible intro _ _

theorem Ends.execErrWidthExpiry {s : State} (hk : Sub 0x804 K := by first | assumption | exact Sub.mono (by assumption) rfl) : Ends K s (Sys2Proof.Machine.execErrWidthExpiry s) := by
  have h : Moves K s s := Moves.refl s
  unfold Sys2Proof.Machine.execErrWidthExpiry
  repeat' first | with_reducible assumption | ((with_reducible refine Sub.mono hk ?_); rfl) | with_reducible exact Moves.next ‹_› | with_reducible apply Moves.next | with_reducible apply Ends.ite | with_reducible exact Ends.refused | with_reducible refine Moves.setf ?_ ?_ | with_reducible apply Moves.ite | fail_if_no_progress (with_reducible refine Moves.plain ?_ ?_ ?_ ?_ ?_ ?_ ?_ ?_ ?_ ?_ ?_ ?_ ?_ ?_ ?_ ?_ ?_ <;> first | ((with_reducible refine Or.inr (Sub.bit hk ?_)); decide) | with_reducible exact Or.inl rfl | skip)

theorem Ends.execQuietPeriodExpiry {c : Fin 16} {s : State} (hk : Sub 0x1804 K := by first | assumption | exact Sub.mono (by assumption) rfl) : Ends K s (Sys2Proof.Machine.execQuietPeriodExpiry c s) := by
  have h : Moves K s s := Moves.refl s
  unfold Sys2Proof.Machine.execQuietPeriodExpiry
  repeat' first | with_reducible assumption | ((with_reducible refine Sub.mono hk ?_); rfl) | with_reducible exact Moves.next ‹_› | with_reducible apply Moves.next | with_reducible apply Ends.ite | with_reducible exact Ends.refused | with_reducible refine Moves.setf ?_ ?_ | with_reducible refine Moves.inc ?_ ?_ | with_reducible refine Moves.ev ?_ ?_ | with_reducible refine Moves.setw ?_ ?_ | with_reducible apply Moves.ite | fail_if_no_progress (with_reducible refine Moves.plain ?_ ?_ ?_ ?_ ?_ ?_ ?_ ?_ ?_ ?_ ?_ ?_ ?_ ?_ ?_ ?_ ?_ <;> first | ((with_reducible refine Or.inr (Sub.bit hk ?_)); decide) | with_reducible exact Or.inl rfl | skip)

end Sys2Proof.Machine
end

