-- ==== Sys2Proof/Laws/KeepSec.lean ====
section
/-! SUPPORT. What the operations of Machine/Sec.lean keep: the queue, the canonical form of the tables, and the parts of the state outside those named. -/

set_option Elab.async false

set_option linter.unreachableTactic false
set_option linter.unusedTactic false

namespace Sys2Proof.Machine

variable {K : Nat}

theorem Moves.secDone {opc : Nat} {c : Code} {s0 s : State} (hs : Moves K s0 s) (hk : Sub 0x41004 K := by first | assumption | exact Sub.mono (by assumption) rfl) : Moves K s0 (State.secDone s opc c) := by
  unfold State.secDone
  repeat' first | with_reducible assumption | ((with_reducible refine Sub.mono hk ?_); rfl) | with_reducible refine Moves.setf ?_ ?_ | with_reducible refine Moves.complete ?_ ?_ | with_reducible refine Moves.ev ?_ ?_ | with_reducible apply Moves.ite | fail_if_no_progress (with_reducible refine Moves.plain ?_ ?_ ?_ ?_ ?_ ?_ ?_ ?_ ?_ ?_ ?_ ?_ ?_ ?_ ?_ ?_ ?_ <;> first | ((with_reducible refine Or.inr (Sub.bit hk ?_)); decide) | with_reducible exact Or.inl rfl | skip)

theorem Moves.secStart {opc : Nat} {p : Port} {ws : List Word} {s0 s : State} (hs : Moves K s0 s) (hk : Sub 0x40004 K := by first | assumption | exact Sub.mono (by assumption) rfl) : Moves K s0 (State.secStart s opc p ws) := by
  unfold State.secStart
  repeat' first | with_reducible assumption | ((with_reducible refine Sub.mono hk ?_); rfl) | with_reducible refine Moves.setf ?_ ?_ | with_reducible apply Moves.ite | fail_if_no_progress (with_reducible refine Moves.plain ?_ ?_ ?_ ?_ ?_ ?_ ?_ ?_ ?_ ?_ ?_ ?_ ?_ ?_ ?_ ?_ ?_ <;> first | ((with_reducible refine Or.inr (Sub.bit hk ?_)); decide) | with_reducible exact Or.inl rfl | skip)

theorem Moves.requestReject {s0 s : State} (hs : Moves K s0 s) (hk : Sub 0xFFFFFFD9E K := by first | assumption | exact Sub.mono (by assumption) rfl) : Moves K s0 (State.requestReject s) := by
  unfold State.requestReject
  repeat' first | with_reducible assumption | ((with_reducible refine Sub.mono hk ?_); rfl) | with_reducible refine Moves.inc ?_ ?_ | with_reducible refine Moves.secEvent ?_ ?_

theorem Moves.setSpp {n : Nat} {k : SppKeys} {s0 s : State} (hs : Moves K s0 s) (hk : Sub 0x40004 K := by first | assumption | exact Sub.mono (by assumption) rfl) : Moves K s0 (State.setSpp s n k) := by
  unfold State.setSpp
  repeat' first | with_reducible assumption | ((with_reducible refine Sub.mono hk ?_); rfl) | with_reducible refine Moves.setf ?_ ?_ | with_reducible apply Moves.ite | fail_if_no_progress (with_reducible refine Moves.plain ?_ ?_ ?_ ?_ ?_ ?_ ?_ ?_ ?_ ?_ ?_ ?_ ?_ ?_ ?_ ?_ ?_ <;> first | ((with_reducible refine Or.inr (Sub.bit hk ?_)); decide) | with_reducible exact Or.inl rfl | skip)

theorem Moves.keyReject {c : Code} {s0 s : State} (hs : Moves K s0 s) (hk : Sub 0xFFFFFFD9E K := by first | assumption | exact Sub.mono (by assumption) rfl) : Moves K s0 (State.keyReject s c) := by
  unfold State.keyReject
  repeat' first | with_reducible assumption | ((with_reducible refine Sub.mono hk ?_); rfl) | with_reducible refine Moves.inc ?_ ?_ | with_reducible refine Moves.secEvent ?_ ?_ | with_reducible refine Moves.secDone ?_ ?_

theorem Moves.keyLoad {p : Port} {s0 s : State} (hs : Moves K s0 s) (hk : Sub 0xFFFFFFD9E K := by first | assumption | exact Sub.mono (by assumption) rfl) : Moves K s0 (State.keyLoad s p) := by
  unfold State.keyLoad
  repeat' first | with_reducible assumption | ((with_reducible refine Sub.mono hk ?_); rfl) | with_reducible refine Moves.keyReject ?_ ?_ | with_reducible refine Moves.setSpp ?_ ?_ | with_reducible refine Moves.mboxEmpty ?_ ?_ | with_reducible refine Moves.secDone ?_ ?_ | with_reducible apply Moves.ite | fail_if_no_progress (with_reducible refine Moves.plain ?_ ?_ ?_ ?_ ?_ ?_ ?_ ?_ ?_ ?_ ?_ ?_ ?_ ?_ ?_ ?_ ?_ <;> first | ((with_reducible refine Or.inr (Sub.bit hk ?_)); decide) | with_reducible exact Or.inl rfl | skip) | fail_if_no_progress (with_reducible refine Moves.plainNv ?_ rfl rfl rfl ?_ ?_ ?_ ?_ ?_ ?_ ?_ ?_ ?_ ?_ ?_ ?_ ?_ ?_ ?_ ?_ ?_ <;> first | ((with_reducible refine Or.inr (Sub.bit hk ?_)); decide) | with_reducible exact Or.inl rfl | skip) | with_reducible intro _ _ _ _ _ | with_reducible intro _ _ _ | with_reducible intro _ _ | extract_lets | split

theorem Moves.keyRoll {n : Nat} {s0 s : State} (hs : Moves K s0 s) (hk : Sub 0x41004 K := by first | assumption | exact Sub.mono (by assumption) rfl) : Moves K s0 (State.keyRoll s n) := by
  unfold State.keyRoll
  repeat' first | with_reducible assumption | ((with_reducible refine Sub.mono hk ?_); rfl) | with_reducible refine Moves.secDone ?_ ?_ | with_reducible refine Moves.setSpp ?_ ?_ | with_reducible apply Moves.ite | with_reducible intro _ _ _ _ _ | with_reducible intro _ _ _ | with_reducible intro _ _ | extract_lets | split

theorem Moves.keyList {p : Port} {n : Nat} {s0 s : State} (hs : Moves K s0 s) (hk : Sub 0x41004 K := by first | assumption | exact Sub.mono (by assumption) rfl) : Moves K s0 (State.keyList s p n) := by
  unfold State.keyList
  repeat' first | with_reducible assumption | ((with_reducible refine Sub.mono hk ?_); rfl) | with_reducible refine Moves.secDone ?_ ?_ | with_reducible refine Moves.mboxOut ?_ ?_

theorem Moves.judgeOwn {ws : List Word} {s0 s : State} (hs : Moves K s0 s) (hk : Sub 0xFFFFFFD9E K := by first | assumption | exact Sub.mono (by assumption) rfl) : Moves K s0 (State.judgeOwn s ws) := by
  unfold State.judgeOwn
  repeat' first | with_reducible assumption | ((with_reducible refine Sub.mono hk ?_); rfl) | with_reducible refine Moves.secDone ?_ ?_ | with_reducible refine Moves.requestReject ?_ ?_ | with_reducible refine Moves.setf ?_ ?_ | with_reducible apply Moves.ite | with_reducible intro _ _ _ _ _ | with_reducible intro _ _ _ | with_reducible intro _ _ | extract_lets | split

theorem Moves.judgeRetire {ws : List Word} {s0 s : State} (hs : Moves K s0 s) (hk : Sub 0xFFFFFFD9E K := by first | assumption | exact Sub.mono (by assumption) rfl) : Moves K s0 (State.judgeRetire s ws) := by
  unfold State.judgeRetire
  repeat' first | with_reducible assumption | ((with_reducible refine Sub.mono hk ?_); rfl) | with_reducible refine Moves.secDone ?_ ?_ | with_reducible refine Moves.requestReject ?_ ?_ | with_reducible refine Moves.fuseBegin ?_ ?_ | with_reducible refine Moves.setf ?_ ?_ | with_reducible apply Moves.ite | fail_if_no_progress (with_reducible refine Moves.plain ?_ ?_ ?_ ?_ ?_ ?_ ?_ ?_ ?_ ?_ ?_ ?_ ?_ ?_ ?_ ?_ ?_ <;> first | ((with_reducible refine Or.inr (Sub.bit hk ?_)); decide) | with_reducible exact Or.inl rfl | skip) | with_reducible intro _ _ _ _ _ | with_reducible intro _ _ _ | with_reducible intro _ _ | extract_lets | split

theorem Moves.serveRequest {s0 s : State} (hs : Moves K s0 s) (hk : Sub 0xFFFFFFD9E K := by first | assumption | exact Sub.mono (by assumption) rfl) : Moves K s0 (State.serveRequest s) := by
  unfold State.serveRequest
  repeat' first | with_reducible assumption | ((with_reducible refine Sub.mono hk ?_); rfl) | with_reducible refine Moves.judgeOwn ?_ ?_ | with_reducible refine Moves.verifyServed ?_ ?_ | with_reducible refine Moves.judgeRetire ?_ ?_ | with_reducible apply Moves.ite | with_reducible intro _ _ _ _ _ | with_reducible intro _ _ _ | with_reducible intro _ _ | extract_lets | split

theorem Moves.requestArrives {opc : Nat} {p : Port} {ws : List Word} {s0 s : State} (hs : Moves K s0 s) (hk : Sub 0xFFFFFFD9E K := by first | assumption | exact Sub.mono (by assumption) rfl) : Moves K s0 (State.requestArrives s opc p ws) := by
  unfold State.requestArrives
  repeat' first | with_reducible assumption | ((with_reducible refine Sub.mono hk ?_); rfl) | with_reducible refine Moves.serveRequest ?_ ?_ | with_reducible refine Moves.verifyArrives ?_ ?_ | with_reducible refine Moves.secStart ?_ ?_ | with_reducible apply Moves.ite

theorem Moves.takeOwnership {p : Port} {s0 s : State} (hs : Moves K s0 s) (hk : Sub 0xFFFFFFD9E K := by first | assumption | exact Sub.mono (by assumption) rfl) : Moves K s0 (State.takeOwnership s p) := by
  unfold State.takeOwnership
  repeat' first | with_reducible assumption | ((with_reducible refine Sub.mono hk ?_); rfl) | with_reducible refine Moves.secDone ?_ ?_ | with_reducible refine Moves.requestArrives ?_ ?_ | with_reducible apply Moves.ite | with_reducible intro _ _ _ _ _ | with_reducible intro _ _ _ | with_reducible intro _ _ | extract_lets | split

theorem Moves.secRetire {p : Port} {s0 s : State} (hs : Moves K s0 s) (hk : Sub 0xFFFFFFD9E K := by first | assumption | exact Sub.mono (by assumption) rfl) : Moves K s0 (State.secRetire s p) := by
  unfold State.secRetire
  repeat' first | with_reducible assumption | ((with_reducible refine Sub.mono hk ?_); rfl) | with_reducible refine Moves.secDone ?_ ?_ | with_reducible refine Moves.requestArrives ?_ ?_ | with_reducible apply Moves.ite | with_reducible intro _ _ _ _ _ | with_reducible intro _ _ _ | with_reducible intro _ _ | extract_lets | split

theorem Moves.provisionLabel {p : Port} {s0 s : State} (hs : Moves K s0 s) (hk : Sub 0xFFFFFFD9E K := by first | assumption | exact Sub.mono (by assumption) rfl) : Moves K s0 (State.provisionLabel s p) := by
  unfold State.provisionLabel
  repeat' first | with_reducible assumption | ((with_reducible refine Sub.mono hk ?_); rfl) | with_reducible refine Moves.secDone ?_ ?_ | with_reducible refine Moves.requestArrives ?_ ?_ | with_reducible apply Moves.ite | with_reducible intro _ _ _ _ _ | with_reducible intro _ _ _ | with_reducible intro _ _ | extract_lets | split

theorem Moves.secOp {p : Port} {word : Nat} {s0 s : State} (hs : Moves K s0 s) (hk : Sub 0xFFFFFFD9E K := by first | assumption | exact Sub.mono (by assumption) rfl) : Moves K s0 (State.secOp s p word) := by
  unfold State.secOp
  extract_lets opc
  clear_value opc
  repeat' first | with_reducible assumption | ((with_reducible refine Sub.mono hk ?_); rfl) | with_reducible refine Moves.setw ?_ ?_ | with_reducible refine Moves.secDone ?_ ?_ | with_reducible refine Moves.mboxOut ?_ ?_ | with_reducible refine Moves.secStart ?_ ?_ | with_reducible refine Moves.report ?_ ?_ | with_reducible refine Moves.provisionLabel ?_ ?_ | with_reducible refine Moves.keyLoad ?_ ?_ | with_reducible refine Moves.keyRoll ?_ ?_ | with_reducible refine Moves.setSpp ?_ ?_ | with_reducible refine Moves.keyList ?_ ?_ | with_reducible refine Moves.takeOwnership ?_ ?_ | with_reducible refine Moves.secRetire ?_ ?_ | with_reducible apply Moves.ite | with_reducible intro _ _ _ _ _ | with_reducible intro _ _ _ | with_reducible intro _ _ | extract_lets | split

theorem Moves.secDoorbell {p : Port} {word : Nat} {s0 s : State} (hs : Moves K s0 s) (hk : Sub 0xFFFFFFD9E K := by first | assumption | exact Sub.mono (by assumption) rfl) : Moves K s0 (State.secDoorbell s p word) := by
  unfold State.secDoorbell
  repeat' first | with_reducible assumption | ((with_reducible refine Sub.mono hk ?_); rfl) | with_reducible refine Moves.doorbellB ?_ ?_ ?_ | with_reducible refine Moves.secOp ?_ ?_ | with_reducible apply Moves.ite | with_reducible intro _ _ _ _ _ | with_reducible intro _ _ _ | with_reducible intro _ _

theorem Ends.execCertRead {p : Port} {part : BitVec 3} {s : State} (hk : Sub 0xFFFFFFD9E K := by first | assumption | exact Sub.mono (by assumption) rfl) : Ends K s (Sys2Proof.Machine.execCertRead p part s) := by
  have h : Moves K s s := Moves.refl s
  unfold Sys2Proof.Machine.execCertRead
  repeat' first | with_reducible assumption | with_reducible exact Moves.next ‹_› | with_reducible apply Moves.next | with_reducible apply Ends.ite | with_reducible exact Ends.refused | with_reducible refine Moves.secDoorbell ?_ ?_

theorem Ends.execAttestRead {p : Port} {part : BitVec 3} {s : State} (hk : Sub 0xFFFFFFD9E K := by first | assumption | exact Sub.mono (by assumption) rfl) : Ends K s (Sys2Proof.Machine.execAttestRead p part s) := by
  have h : Moves K s s := Moves.refl s
  unfold Sys2Proof.Machine.execAttestRead
  repeat' first | with_reducible assumption | with_reducible exact Moves.next ‹_› | with_reducible apply Moves.next | with_reducible apply Ends.ite | with_reducible exact Ends.refused | with_reducible refine Moves.secDoorbell ?_ ?_

theorem Ends.execKeyRoll {p : Port} {spp : BitVec 8} {s : State} (hk : Sub 0xFFFFFFD9E K := by first | assumption | exact Sub.mono (by assumption) rfl) : Ends K s (Sys2Proof.Machine.execKeyRoll p spp s) := by
  have h : Moves K s s := Moves.refl s
  unfold Sys2Proof.Machine.execKeyRoll
  repeat' first | with_reducible assumption | with_reducible exact Moves.next ‹_› | with_reducible apply Moves.next | with_reducible apply Ends.ite | with_reducible exact Ends.refused | with_reducible refine Moves.secDoorbell ?_ ?_

theorem Ends.execKeyErase {p : Port} {spp : BitVec 8} {s : State} (hk : Sub 0xFFFFFFD9E K := by first | assumption | exact Sub.mono (by assumption) rfl) : Ends K s (Sys2Proof.Machine.execKeyErase p spp s) := by
  have h : Moves K s s := Moves.refl s
  unfold Sys2Proof.Machine.execKeyErase
  repeat' first | with_reducible assumption | with_reducible exact Moves.next ‹_› | with_reducible apply Moves.next | with_reducible apply Ends.ite | with_reducible exact Ends.refused | with_reducible refine Moves.secDoorbell ?_ ?_

theorem Ends.execKeyList {p : Port} {spp : BitVec 8} {s : State} (hk : Sub 0xFFFFFFD9E K := by first | assumption | exact Sub.mono (by assumption) rfl) : Ends K s (Sys2Proof.Machine.execKeyList p spp s) := by
  have h : Moves K s s := Moves.refl s
  unfold Sys2Proof.Machine.execKeyList
  repeat' first | with_reducible assumption | with_reducible exact Moves.next ‹_› | with_reducible apply Moves.next | with_reducible apply Ends.ite | with_reducible exact Ends.refused | with_reducible refine Moves.secDoorbell ?_ ?_

theorem Ends.execAttest {p : Port} {s : State} (hk : Sub 0xFFFFFFD9E K := by first | assumption | exact Sub.mono (by assumption) rfl) : Ends K s (Sys2Proof.Machine.execAttest p s) := by
  have h : Moves K s s := Moves.refl s
  unfold Sys2Proof.Machine.execAttest
  repeat' first | with_reducible assumption | with_reducible exact Moves.next ‹_› | with_reducible apply Moves.next | with_reducible apply Ends.ite | with_reducible exact Ends.refused | with_reducible refine Moves.secDoorbell ?_ ?_

theorem Ends.execAttestDone {s : State} (hk : Sub 0x41004 K := by first | assumption | exact Sub.mono (by assumption) rfl) : Ends K s (Sys2Proof.Machine.execAttestDone s) := by
  have h : Moves K s s := Moves.refl s
  unfold Sys2Proof.Machine.execAttestDone
  repeat' first | with_reducible assumption | ((with_reducible refine Sub.mono hk ?_); rfl) | with_reducible exact Moves.next ‹_› | with_reducible apply Moves.next | with_reducible apply Ends.ite | with_reducible exact Ends.refused | with_reducible refine Moves.mboxEmpty ?_ ?_ | with_reducible refine Moves.secDone ?_ ?_ | with_reducible apply Moves.ite | fail_if_no_progress (with_reducible refine Moves.plain ?_ ?_ ?_ ?_ ?_ ?_ ?_ ?_ ?_ ?_ ?_ ?_ ?_ ?_ ?_ ?_ ?_ <;> first | ((with_reducible refine Or.inr (Sub.bit hk ?_)); decide) | with_reducible exact Or.inl rfl | skip) | fail_if_no_progress (with_reducible refine Moves.plainNv ?_ rfl rfl rfl ?_ ?_ ?_ ?_ ?_ ?_ ?_ ?_ ?_ ?_ ?_ ?_ ?_ ?_ ?_ ?_ ?_ <;> first | ((with_reducible refine Or.inr (Sub.bit hk ?_)); decide) | with_reducible exact Or.inl rfl | skip) | with_reducible intro _ _ _ _ _ | with_reducible intro _ _ _ | with_reducible intro _ _ | extract_lets | split

theorem Ends.execProvisionLabel {p : Port} {s : State} (hk : Sub 0xFFFFFFD9E K := by first | assumption | exact Sub.mono (by assumption) rfl) : Ends K s (Sys2Proof.Machine.execProvisionLabel p s) := by
  have h : Moves K s s := Moves.refl s
  unfold Sys2Proof.Machine.execProvisionLabel
  repeat' first | with_reducible assumption | with_reducible exact Moves.next ‹_› | with_reducible apply Moves.next | with_reducible apply Ends.ite | with_reducible exact Ends.refused | with_reducible refine Moves.secDoorbell ?_ ?_

theorem Ends.execProvisionLabelDone {s : State} (hk : Sub 0xFFFFFFD9E K := by first | assumption | exact Sub.mono (by assumption) rfl) : Ends K s (Sys2Proof.Machine.execProvisionLabelDone s) := by
  have h : Moves K s s := Moves.refl s
  unfold Sys2Proof.Machine.execProvisionLabelDone
  repeat' first | with_reducible assumption | ((with_reducible refine Sub.mono hk ?_); rfl) | with_reducible exact Moves.next ‹_› | with_reducible apply Moves.next | with_reducible apply Ends.ite | with_reducible exact Ends.refused | with_reducible refine Moves.verifyServed ?_ ?_ | with_reducible refine Moves.mboxOut ?_ ?_ | with_reducible refine Moves.secDone ?_ ?_ | with_reducible refine Moves.mboxEmpty ?_ ?_ | with_reducible refine Moves.requestReject ?_ ?_ | with_reducible apply Moves.ite | with_reducible intro _ _ _ _ _ | with_reducible intro _ _ _ | with_reducible intro _ _ | extract_lets | split

theorem Ends.execKeyLoad {p : Port} {s : State} (hk : Sub 0xFFFFFFD9E K := by first | assumption | exact Sub.mono (by assumption) rfl) : Ends K s (Sys2Proof.Machine.execKeyLoad p s) := by
  have h : Moves K s s := Moves.refl s
  unfold Sys2Proof.Machine.execKeyLoad
  repeat' first | with_reducible assumption | with_reducible exact Moves.next ‹_› | with_reducible apply Moves.next | with_reducible apply Ends.ite | with_reducible exact Ends.refused | with_reducible refine Moves.secDoorbell ?_ ?_

theorem Ends.execTakeOwnership {p : Port} {s : State} (hk : Sub 0xFFFFFFD9E K := by first | assumption | exact Sub.mono (by assumption) rfl) : Ends K s (Sys2Proof.Machine.execTakeOwnership p s) := by
  have h : Moves K s s := Moves.refl s
  unfold Sys2Proof.Machine.execTakeOwnership
  repeat' first | with_reducible assumption | with_reducible exact Moves.next ‹_› | with_reducible apply Moves.next | with_reducible apply Ends.ite | with_reducible exact Ends.refused | with_reducible refine Moves.secDoorbell ?_ ?_

theorem Ends.execSecRetire {p : Port} {s : State} (hk : Sub 0xFFFFFFD9E K := by first | assumption | exact Sub.mono (by assumption) rfl) : Ends K s (Sys2Proof.Machine.execSecRetire p s) := by
  have h : Moves K s s := Moves.refl s
  unfold Sys2Proof.Machine.execSecRetire
  repeat' first | with_reducible assumption | with_reducible exact Moves.next ‹_› | with_reducible apply Moves.next | with_reducible apply Ends.ite | with_reducible exact Ends.refused | with_reducible refine Moves.secDoorbell ?_ ?_

theorem Ends.execSecRetireDone {fuseOk : Bool} {s : State} (hk : Sub 0xFFFFFFD9E K := by first | assumption | exact Sub.mono (by assumption) rfl) : Ends K s (Sys2Proof.Machine.execSecRetireDone fuseOk s) := by
  have h : Moves K s s := Moves.refl s
  unfold Sys2Proof.Machine.execSecRetireDone
  repeat' first | with_reducible assumption | ((with_reducible refine Sub.mono hk ?_); rfl) | with_reducible exact Moves.next ‹_› | with_reducible apply Moves.next | with_reducible apply Ends.ite | with_reducible exact Ends.refused | with_reducible refine Moves.secDone ?_ ?_ | with_reducible refine Moves.mboxEmpty ?_ ?_ | with_reducible refine Moves.fuseDone ?_ ?_ | with_reducible refine Moves.fullReset ?_ ?_ | with_reducible refine Moves.took ?_ ?_ | with_reducible refine Moves.fuseError ?_ ?_ | with_reducible apply Moves.ite | with_reducible intro _ _ _ _ _ | with_reducible intro _ _ _ | with_reducible intro _ _ | extract_lets | split | dsimp +zetaDelta only

theorem Ends.execTicketVerified {n : Fin 8} {s : State} (hk : Sub 0xFFFFFFD9E K := by first | assumption | exact Sub.mono (by assumption) rfl) : Ends K s (Sys2Proof.Machine.execTicketVerified n s) := by
  have h : Moves K s s := Moves.refl s
  unfold Sys2Proof.Machine.execTicketVerified
  repeat' first | with_reducible assumption | ((with_reducible refine Sub.mono hk ?_); rfl) | with_reducible exact Moves.next ‹_› | with_reducible apply Moves.next | with_reducible apply Ends.ite | with_reducible exact Ends.refused | with_reducible refine Moves.setf ?_ ?_ | with_reducible refine Moves.verifyServed ?_ ?_ | with_reducible refine Moves.modTsc ?_ ?_ | with_reducible refine Moves.complete ?_ ?_ | with_reducible refine Moves.ticketAccepted ?_ ?_ | with_reducible refine Moves.ticketRejected ?_ ?_ | with_reducible refine Moves.serveRequest ?_ ?_ | with_reducible apply Moves.ite | with_reducible intro _ _ _ _ _ | with_reducible intro _ _ _ | with_reducible intro _ _ | extract_lets | split

theorem Ends.execTapInstruction {i : TapInstr} {s : State} (hk : Sub 0xFFFFFFFBF K := by first | assumption | exact Sub.mono (by assumption) rfl) : Ends K s (Sys2Proof.Machine.execTapInstruction i s) := by
  have h : Moves K s s := Moves.refl s
  unfold Sys2Proof.Machine.execTapInstruction
  repeat' first | with_reducible assumption | ((with_reducible refine Sub.mono hk ?_); rfl) | with_reducible exact Moves.next ‹_› | with_reducible apply Moves.next | with_reducible apply Ends.ite | with_reducible exact Ends.refused | with_reducible refine Moves.secEvent ?_ ?_ | with_reducible refine Moves.coldReset ?_ ?_ | with_reducible apply Moves.ite | fail_if_no_progress (with_reducible refine Moves.plain ?_ ?_ ?_ ?_ ?_ ?_ ?_ ?_ ?_ ?_ ?_ ?_ ?_ ?_ ?_ ?_ ?_ <;> first | ((with_reducible refine Or.inr (Sub.bit hk ?_)); decide) | with_reducible exact Or.inl rfl | skip) | with_reducible intro _ _ _ _ _ | with_reducible intro _ _ _ | with_reducible intro _ _ | extract_lets | split

end Sys2Proof.Machine
end

