-- ==== Sys2Proof/Laws/KeepFab.lean ====
section
/-! SUPPORT. What the operations of Machine/Fab.lean keep: the queue, the canonical form of the tables, and the parts of the state outside those named. -/

set_option Elab.async false

set_option linter.unreachableTactic false
set_option linter.unusedTactic false

namespace Sys2Proof.Machine

variable {K : Nat}

theorem Moves.checkFault {code off slot : Nat} {s0 s : State} (hs : Moves K s0 s) (hk : Sub 0xFFFFFFD9E K := by first | assumption | exact Sub.mono (by assumption) rfl) : Moves K s0 (State.checkFault s code off slot) := by
  unfold State.checkFault
  repeat' first | with_reducible assumption | with_reducible refine Moves.report ?_ ?_ | with_reducible apply Moves.ite

theorem Moves.verifyFails {code off slot : Nat} {s0 s : State} (hs : Moves K s0 s) (hk : Sub 0xFFFFFFD9E K := by first | assumption | exact Sub.mono (by assumption) rfl) : Moves K s0 (State.verifyFails s code off slot) := by
  unfold State.verifyFails
  repeat' first | with_reducible assumption | ((with_reducible refine Sub.mono hk ?_); rfl) | with_reducible refine Moves.setf ?_ ?_ | with_reducible refine Moves.logDev ?_ ?_ | with_reducible refine Moves.checkFault ?_ ?_

theorem Moves.fabStart {p : Port} {opc slot arg : Nat} {s0 s : State} (hs : Moves K s0 s) (hk : Sub 0x404 K := by first | assumption | exact Sub.mono (by assumption) rfl) : Moves K s0 (State.fabStart s p opc slot arg) := by
  unfold State.fabStart
  repeat' first | with_reducible assumption | ((with_reducible refine Sub.mono hk ?_); rfl) | with_reducible refine Moves.setf ?_ ?_ | with_reducible apply Moves.ite | fail_if_no_progress (with_reducible refine Moves.plain ?_ ?_ ?_ ?_ ?_ ?_ ?_ ?_ ?_ ?_ ?_ ?_ ?_ ?_ ?_ ?_ ?_ <;> first | ((with_reducible refine Or.inr (Sub.bit hk ?_)); decide) | with_reducible exact Or.inl rfl | skip)

theorem Moves.notPrevious {k : Nat} {s0 s : State} (hs : Moves K s0 s) (hk : Sub 0x4 K := by first | assumption | exact Sub.mono (by assumption) rfl) : Moves K s0 (State.notPrevious s k) := by
  unfold State.notPrevious
  repeat' first | with_reducible assumption | with_reducible refine Moves.setf ?_ ?_ | with_reducible apply Moves.ite

theorem Moves.slotFresh {k : Nat} {s0 s : State} (hs : Moves K s0 s) (hk : Sub 0x20000 K := by first | assumption | exact Sub.mono (by assumption) rfl) : Moves K s0 (State.slotFresh s k) := by
  unfold State.slotFresh
  repeat' first | with_reducible assumption | with_reducible apply Moves.ite | fail_if_no_progress (with_reducible refine Moves.plain ?_ ?_ ?_ ?_ ?_ ?_ ?_ ?_ ?_ ?_ ?_ ?_ ?_ ?_ ?_ ?_ ?_ <;> first | ((with_reducible refine Or.inr (Sub.bit hk ?_)); decide) | with_reducible exact Or.inl rfl | skip)

theorem Moves.eraseSlot {k : Nat} {s0 s : State} (hs : Moves K s0 s) (hk : Sub 0x20040 K := by first | assumption | exact Sub.mono (by assumption) rfl) : Moves K s0 (State.eraseSlot s k) := by
  unfold State.eraseSlot
  repeat' first | with_reducible assumption | ((with_reducible refine Sub.mono hk ?_); rfl) | with_reducible refine Moves.slotFresh ?_ ?_ | fail_if_no_progress with_reducible refine Moves.flash ?_ (fun w => Tab.wf_copyFrom _ _ _ _ w rfl) ?_

theorem Moves.emptySlot {k : Nat} {s0 s : State} (hs : Moves K s0 s) (hk : Sub 0x10004 K := by first | assumption | exact Sub.mono (by assumption) rfl) : Moves K s0 (State.emptySlot s k) := by
  unfold State.emptySlot
  repeat' first | with_reducible assumption | ((with_reducible refine Sub.mono hk ?_); rfl) | with_reducible refine Moves.setf ?_ ?_ | with_reducible refine Moves.setSlot ?_ ?_

theorem Moves.fabStage {s0 s : State} (hs : Moves K s0 s) (hk : Sub 0x1404 K := by first | assumption | exact Sub.mono (by assumption) rfl) : Moves K s0 (State.fabStage s) := by
  unfold State.fabStage
  repeat' first | with_reducible assumption | ((with_reducible refine Sub.mono hk ?_); rfl) | with_reducible refine Moves.fabDone ?_ ?_ | with_reducible refine Moves.setf ?_ ?_ | with_reducible apply Moves.ite

theorem Moves.fabVerify {p : Port} {arg : Nat} {s0 s : State} (hs : Moves K s0 s) (hk : Sub 0x41404 K := by first | assumption | exact Sub.mono (by assumption) rfl) : Moves K s0 (State.fabVerify s p arg) := by
  unfold State.fabVerify
  repeat' first | with_reducible assumption | ((with_reducible refine Sub.mono hk ?_); rfl) | with_reducible refine Moves.fabDone ?_ ?_ | with_reducible refine Moves.fabStart ?_ ?_ | with_reducible refine Moves.verifyArrives ?_ ?_ | with_reducible refine Moves.setf ?_ ?_ | with_reducible apply Moves.ite | with_reducible intro _ _ _ _ _ | with_reducible intro _ _ _ | with_reducible intro _ _ | extract_lets | split

theorem Moves.fabWriteSlot {p : Port} {k arg : Nat} {s0 s : State} (hs : Moves K s0 s) (hk : Sub 0x31404 K := by first | assumption | exact Sub.mono (by assumption) rfl) : Moves K s0 (State.fabWriteSlot s p k arg) := by
  unfold State.fabWriteSlot
  repeat' first | with_reducible assumption | ((with_reducible refine Sub.mono hk ?_); rfl) | with_reducible refine Moves.fabDone ?_ ?_ | with_reducible refine Moves.fabStart ?_ ?_ | with_reducible refine Moves.emptySlot ?_ ?_ | with_reducible apply Moves.ite | fail_if_no_progress (with_reducible refine Moves.plain ?_ ?_ ?_ ?_ ?_ ?_ ?_ ?_ ?_ ?_ ?_ ?_ ?_ ?_ ?_ ?_ ?_ <;> first | ((with_reducible refine Or.inr (Sub.bit hk ?_)); decide) | with_reducible exact Or.inl rfl | skip) | with_reducible intro _ _ _ _ _ | with_reducible intro _ _ _ | with_reducible intro _ _ | extract_lets | split

theorem Moves.fabLoadSlot {p : Port} {k arg : Nat} {s0 s : State} (hs : Moves K s0 s) (hk : Sub 0x41404 K := by first | assumption | exact Sub.mono (by assumption) rfl) : Moves K s0 (State.fabLoadSlot s p k arg) := by
  unfold State.fabLoadSlot
  repeat' first | with_reducible assumption | ((with_reducible refine Sub.mono hk ?_); rfl) | with_reducible refine Moves.fabDone ?_ ?_ | with_reducible refine Moves.fabStart ?_ ?_ | with_reducible refine Moves.verifyArrives ?_ ?_ | with_reducible refine Moves.setf ?_ ?_ | with_reducible apply Moves.ite | with_reducible intro _ _ _ _ _ | with_reducible intro _ _ _ | with_reducible intro _ _ | extract_lets | split

theorem Moves.fabActivate {p : Port} {handover : Bool} {s0 s : State} (hs : Moves K s0 s) (hk : Sub 0xFFFFFFD9E K := by first | assumption | exact Sub.mono (by assumption) rfl) : Moves K s0 (State.fabActivate s p handover) := by
  unfold State.fabActivate
  repeat' first | with_reducible assumption | ((with_reducible refine Sub.mono hk ?_); rfl) | with_reducible refine Moves.fabDone ?_ ?_ | with_reducible refine Moves.fabStart ?_ ?_ | with_reducible refine Moves.xlkSwitch ?_ ?_ | with_reducible refine Moves.activateGo ?_ ?_ | with_reducible apply Moves.ite | fail_if_no_progress (with_reducible refine Moves.plain ?_ ?_ ?_ ?_ ?_ ?_ ?_ ?_ ?_ ?_ ?_ ?_ ?_ ?_ ?_ ?_ ?_ <;> first | ((with_reducible refine Or.inr (Sub.bit hk ?_)); decide) | with_reducible exact Or.inl rfl | skip)

theorem Moves.fabRollback {p : Port} {t : Nat} {s0 s : State} (hs : Moves K s0 s) (hk : Sub 0x41404 K := by first | assumption | exact Sub.mono (by assumption) rfl) : Moves K s0 (State.fabRollback s p t) := by
  unfold State.fabRollback
  repeat' first | with_reducible assumption | ((with_reducible refine Sub.mono hk ?_); rfl) | with_reducible refine Moves.fabDone ?_ ?_ | with_reducible refine Moves.fabStart ?_ ?_ | with_reducible refine Moves.fuseBegin ?_ ?_ | with_reducible apply Moves.ite | with_reducible intro _ _ _ _ _ | with_reducible intro _ _ _ | with_reducible intro _ _ | extract_lets | split | dsimp +zetaDelta only

theorem Moves.fabErase {p : Port} {k arg : Nat} {s0 s : State} (hs : Moves K s0 s) (hk : Sub 0x1404 K := by first | assumption | exact Sub.mono (by assumption) rfl) : Moves K s0 (State.fabErase s p k arg) := by
  unfold State.fabErase
  repeat' first | with_reducible assumption | ((with_reducible refine Sub.mono hk ?_); rfl) | with_reducible refine Moves.fabDone ?_ ?_ | with_reducible refine Moves.fabStart ?_ ?_ | with_reducible apply Moves.ite

theorem Moves.fabReadId {p : Port} {k : Nat} {s0 s : State} (hs : Moves K s0 s) (hk : Sub 0x1404 K := by first | assumption | exact Sub.mono (by assumption) rfl) : Moves K s0 (State.fabReadId s p k) := by
  unfold State.fabReadId
  repeat' first | with_reducible assumption | ((with_reducible refine Sub.mono hk ?_); rfl) | with_reducible refine Moves.fabDone ?_ ?_ | with_reducible refine Moves.mboxOut ?_ ?_ | with_reducible apply Moves.ite | with_reducible intro _ _ _ _ _ | with_reducible intro _ _ _ | with_reducible intro _ _ | extract_lets | split

theorem Moves.fabOp {p : Port} {word : Nat} {s0 s : State} (hs : Moves K s0 s) (hk : Sub 0xFFFFFFD9E K := by first | assumption | exact Sub.mono (by assumption) rfl) : Moves K s0 (State.fabOp s p word) := by
  unfold State.fabOp
  extract_lets opc
  clear_value opc
  repeat' first | with_reducible assumption | ((with_reducible refine Sub.mono hk ?_); rfl) | with_reducible refine Moves.setf ?_ ?_ | with_reducible refine Moves.fabStage ?_ ?_ | with_reducible refine Moves.fabVerify ?_ ?_ | with_reducible refine Moves.fabWriteSlot ?_ ?_ | with_reducible refine Moves.fabLoadSlot ?_ ?_ | with_reducible refine Moves.fabActivate ?_ ?_ | with_reducible refine Moves.fabRollback ?_ ?_ | with_reducible refine Moves.fabErase ?_ ?_ | with_reducible refine Moves.fabReadId ?_ ?_ | with_reducible refine Moves.fabDone ?_ ?_ | with_reducible apply Moves.ite | with_reducible intro _ _ _ _ _ | with_reducible intro _ _ _ | with_reducible intro _ _ | extract_lets | split

theorem Moves.fabDoorbell {p : Port} {word : Nat} {s0 s : State} (hs : Moves K s0 s) (hk : Sub 0xFFFFFFD9E K := by first | assumption | exact Sub.mono (by assumption) rfl) : Moves K s0 (State.fabDoorbell s p word) := by
  unfold State.fabDoorbell
  repeat' first | with_reducible assumption | ((with_reducible refine Sub.mono hk ?_); rfl) | with_reducible refine Moves.doorbellB ?_ ?_ ?_ | with_reducible refine Moves.fabOp ?_ ?_ | with_reducible apply Moves.ite | with_reducible intro _ _ _ _ _ | with_reducible intro _ _ _ | with_reducible intro _ _

theorem Ends.execStage {p : Port} {s : State} (hk : Sub 0xFFFFFFD9E K := by first | assumption | exact Sub.mono (by assumption) rfl) : Ends K s (Sys2Proof.Machine.execStage p s) := by
  have h : Moves K s s := Moves.refl s
  unfold Sys2Proof.Machine.execStage
  repeat' first | with_reducible assumption | with_reducible exact Moves.next ‹_› | with_reducible apply Moves.next | with_reducible apply Ends.ite | with_reducible exact Ends.refused | with_reducible refine Moves.fabDoorbell ?_ ?_

theorem Ends.execVerify {p : Port} {s : State} (hk : Sub 0xFFFFFFD9E K := by first | assumption | exact Sub.mono (by assumption) rfl) : Ends K s (Sys2Proof.Machine.execVerify p s) := by
  have h : Moves K s s := Moves.refl s
  unfold Sys2Proof.Machine.execVerify
  repeat' first | with_reducible assumption | with_reducible exact Moves.next ‹_› | with_reducible apply Moves.next | with_reducible apply Ends.ite | with_reducible exact Ends.refused | with_reducible refine Moves.fabDoorbell ?_ ?_

theorem Ends.execWriteSlot {p : Port} {slot : BitVec 2} {s : State} (hk : Sub 0xFFFFFFD9E K := by first | assumption | exact Sub.mono (by assumption) rfl) : Ends K s (Sys2Proof.Machine.execWriteSlot p slot s) := by
  have h : Moves K s s := Moves.refl s
  unfold Sys2Proof.Machine.execWriteSlot
  repeat' first | with_reducible assumption | with_reducible exact Moves.next ‹_› | with_reducible apply Moves.next | with_reducible apply Ends.ite | with_reducible exact Ends.refused | with_reducible refine Moves.fabDoorbell ?_ ?_

theorem Ends.execLoadSlot {p : Port} {slot : BitVec 2} {s : State} (hk : Sub 0xFFFFFFD9E K := by first | assumption | exact Sub.mono (by assumption) rfl) : Ends K s (Sys2Proof.Machine.execLoadSlot p slot s) := by
  have h : Moves K s s := Moves.refl s
  unfold Sys2Proof.Machine.execLoadSlot
  repeat' first | with_reducible assumption | with_reducible exact Moves.next ‹_› | with_reducible apply Moves.next | with_reducible apply Ends.ite | with_reducible exact Ends.refused | with_reducible refine Moves.fabDoorbell ?_ ?_

theorem Ends.execActivate {p : Port} {handover : Bool} {s : State} (hk : Sub 0xFFFFFFD9E K := by first | assumption | exact Sub.mono (by assumption) rfl) : Ends K s (Sys2Proof.Machine.execActivate p handover s) := by
  have h : Moves K s s := Moves.refl s
  unfold Sys2Proof.Machine.execActivate
  repeat' first | with_reducible assumption | with_reducible exact Moves.next ‹_› | with_reducible apply Moves.next | with_reducible apply Ends.ite | with_reducible exact Ends.refused | with_reducible refine Moves.fabDoorbell ?_ ?_

theorem Ends.execCommitRollback {p : Port} {s : State} (hk : Sub 0xFFFFFFD9E K := by first | assumption | exact Sub.mono (by assumption) rfl) : Ends K s (Sys2Proof.Machine.execCommitRollback p s) := by
  have h : Moves K s s := Moves.refl s
  unfold Sys2Proof.Machine.execCommitRollback
  repeat' first | with_reducible assumption | with_reducible exact Moves.next ‹_› | with_reducible apply Moves.next | with_reducible apply Ends.ite | with_reducible exact Ends.refused | with_reducible refine Moves.fabDoorbell ?_ ?_

theorem Ends.execEraseSlot {p : Port} {slot : BitVec 2} {s : State} (hk : Sub 0xFFFFFFD9E K := by first | assumption | exact Sub.mono (by assumption) rfl) : Ends K s (Sys2Proof.Machine.execEraseSlot p slot s) := by
  have h : Moves K s s := Moves.refl s
  unfold Sys2Proof.Machine.execEraseSlot
  repeat' first | with_reducible assumption | with_reducible exact Moves.next ‹_› | with_reducible apply Moves.next | with_reducible apply Ends.ite | with_reducible exact Ends.refused | with_reducible refine Moves.fabDoorbell ?_ ?_

theorem Ends.execReadId {p : Port} {slot : BitVec 2} {s : State} (hk : Sub 0xFFFFFFD9E K := by first | assumption | exact Sub.mono (by assumption) rfl) : Ends K s (Sys2Proof.Machine.execReadId p slot s) := by
  have h : Moves K s s := Moves.refl s
  unfold Sys2Proof.Machine.execReadId
  repeat' first | with_reducible assumption | with_reducible exact Moves.next ‹_› | with_reducible apply Moves.next | with_reducible apply Ends.ite | with_reducible exact Ends.refused | with_reducible refine Moves.fabDoorbell ?_ ?_

theorem Ends.execWriteSlotDone {readBack : Bool} {bad : List (Nat × List Nat)} {s : State} (hk : Sub 0xFFFFFFDDE K := by first | assumption | exact Sub.mono (by assumption) rfl) : Ends K s (Sys2Proof.Machine.execWriteSlotDone readBack bad s) := by
  have h : Moves K s s := Moves.refl s
  unfold Sys2Proof.Machine.execWriteSlotDone
  repeat' first | with_reducible assumption | ((with_reducible refine Sub.mono hk ?_); rfl) | with_reducible exact Moves.next ‹_› | with_reducible apply Moves.next | with_reducible apply Ends.ite | with_reducible exact Ends.refused | with_reducible refine Moves.blocksBad ?_ ?_ | with_reducible refine Moves.fabDone ?_ ?_ | with_reducible refine Moves.slotFresh ?_ ?_ | with_reducible refine Moves.programSlot ?_ ?_ | with_reducible refine Moves.setf ?_ ?_ | with_reducible refine Moves.setSlot ?_ ?_ | with_reducible refine Moves.notPrevious ?_ ?_ | with_reducible apply Moves.ite | fail_if_no_progress (with_reducible refine Moves.plain ?_ ?_ ?_ ?_ ?_ ?_ ?_ ?_ ?_ ?_ ?_ ?_ ?_ ?_ ?_ ?_ ?_ <;> first | ((with_reducible refine Or.inr (Sub.bit hk ?_)); decide) | with_reducible exact Or.inl rfl | skip) | with_reducible intro _ _ _ _ _ | with_reducible intro _ _ _ | with_reducible intro _ _ | extract_lets | split

theorem Ends.execEraseSlotDone {s : State} (hk : Sub 0x31444 K := by first | assumption | exact Sub.mono (by assumption) rfl) : Ends K s (Sys2Proof.Machine.execEraseSlotDone s) := by
  have h : Moves K s s := Moves.refl s
  unfold Sys2Proof.Machine.execEraseSlotDone
  repeat' first | with_reducible assumption | ((with_reducible refine Sub.mono hk ?_); rfl) | with_reducible exact Moves.next ‹_› | with_reducible apply Moves.next | with_reducible apply Ends.ite | with_reducible exact Ends.refused | with_reducible refine Moves.eraseSlot ?_ ?_ | with_reducible refine Moves.setf ?_ ?_ | with_reducible refine Moves.notPrevious ?_ ?_ | with_reducible refine Moves.emptySlot ?_ ?_ | with_reducible refine Moves.fabDone ?_ ?_ | with_reducible apply Moves.ite | with_reducible intro _ _ _ _ _ | with_reducible intro _ _ _ | with_reducible intro _ _ | extract_lets | split

theorem Ends.execActivateHandoverTimeout {s : State} (hk : Sub 0x101404 K := by first | assumption | exact Sub.mono (by assumption) rfl) : Ends K s (Sys2Proof.Machine.execActivateHandoverTimeout s) := by
  have h : Moves K s s := Moves.refl s
  unfold Sys2Proof.Machine.execActivateHandoverTimeout
  repeat' first | with_reducible assumption | with_reducible exact Moves.next ‹_› | with_reducible apply Moves.next | with_reducible apply Ends.ite | with_reducible exact Ends.refused | with_reducible refine Moves.switchFails ?_ ?_ | with_reducible apply Moves.ite | with_reducible intro _ _ _ _ _ | with_reducible intro _ _ _ | with_reducible intro _ _ | extract_lets | split

theorem Ends.execRollbackFusesDone {fuseOk : Bool} {s : State} (hk : Sub 0xFFFFFFD9E K := by first | assumption | exact Sub.mono (by assumption) rfl) : Ends K s (Sys2Proof.Machine.execRollbackFusesDone fuseOk s) := by
  have h : Moves K s s := Moves.refl s
  unfold Sys2Proof.Machine.execRollbackFusesDone
  repeat' first | with_reducible assumption | ((with_reducible refine Sub.mono hk ?_); rfl) | with_reducible exact Moves.next ‹_› | with_reducible apply Moves.next | with_reducible apply Ends.ite | with_reducible exact Ends.refused | with_reducible refine Moves.when ?_ ?_ | with_reducible refine Moves.fuseDone ?_ ?_ | with_reducible refine Moves.fabDone ?_ ?_ | with_reducible refine Moves.setf ?_ ?_ | with_reducible refine Moves.fuseError ?_ ?_ | with_reducible refine Moves.took ?_ ?_ | with_reducible apply Moves.ite | with_reducible intro _ _ _ _ _ | with_reducible intro _ _ _ | with_reducible intro _ _ | extract_lets | split

theorem Ends.execLandingWatchdogExpiry {s : State} (hk : Sub 0xFFFFFFD9E K := by first | assumption | exact Sub.mono (by assumption) rfl) : Ends K s (Sys2Proof.Machine.execLandingWatchdogExpiry s) := by
  have h : Moves K s s := Moves.refl s
  unfold Sys2Proof.Machine.execLandingWatchdogExpiry
  repeat' first | with_reducible assumption | ((with_reducible refine Sub.mono hk ?_); rfl) | with_reducible exact Moves.next ‹_› | with_reducible apply Moves.next | with_reducible apply Ends.ite | with_reducible exact Ends.refused | with_reducible refine Moves.report ?_ ?_ | with_reducible refine Moves.failLoad ?_ ?_ | with_reducible apply Moves.ite | with_reducible intro _ _ _ _ _ | with_reducible intro _ _ _ | with_reducible intro _ _ | extract_lets | split

end Sys2Proof.Machine
end

