-- ==== Sys2Proof/Laws/KeepRegEffects.lean ====
section
/-! SUPPORT. What the operations of Machine/RegEffects.lean keep: the queue, the canonical form of the tables, and the parts of the state outside those named. -/

set_option Elab.async false

set_option linter.unreachableTactic false
set_option linter.unusedTactic false

namespace Sys2Proof.Machine

variable {K : Nat}

theorem Moves.store {d : RegDef} {x : RegWrite} {s0 s : State} (hs : Moves K s0 s) (hk : Sub 0x2004 K := by first | assumption | exact Sub.mono (by assumption) rfl) : Moves K s0 (State.store s d x) := by
  unfold State.store
  repeat' first | with_reducible assumption | ((with_reducible refine Sub.mono hk ?_); rfl) | with_reducible refine Moves.when ?_ ?_ | with_reducible refine Moves.dirty ?_ ?_ | with_reducible refine Moves.setw ?_ ?_ | with_reducible apply Moves.ite | with_reducible intro _ _ _ _ _ | with_reducible intro _ _ _ | with_reducible intro _ _

theorem Moves.refWritten {s0 s : State} (hs : Moves K s0 s) (hk : Sub 0x2004 K := by first | assumption | exact Sub.mono (by assumption) rfl) : Moves K s0 (State.refWritten s) := by
  unfold State.refWritten
  repeat' first | with_reducible assumption | ((with_reducible refine Sub.mono hk ?_); rfl) | with_reducible refine Moves.setf ?_ ?_ | with_reducible apply Moves.ite | fail_if_no_progress (with_reducible refine Moves.plain ?_ ?_ ?_ ?_ ?_ ?_ ?_ ?_ ?_ ?_ ?_ ?_ ?_ ?_ ?_ ?_ ?_ <;> first | ((with_reducible refine Or.inr (Sub.bit hk ?_)); decide) | with_reducible exact Or.inl rfl | skip)

theorem Moves.cfgCommit {s0 s : State} (hs : Moves K s0 s) (hk : Sub 0x2004 K := by first | assumption | exact Sub.mono (by assumption) rfl) : Moves K s0 (State.cfgCommit s) := by
  unfold State.cfgCommit
  repeat' first | with_reducible assumption | ((with_reducible refine Sub.mono hk ?_); rfl) | with_reducible refine Moves.setf ?_ ?_ | with_reducible apply Moves.ite | fail_if_no_progress (with_reducible refine Moves.plain ?_ ?_ ?_ ?_ ?_ ?_ ?_ ?_ ?_ ?_ ?_ ?_ ?_ ?_ ?_ ?_ ?_ <;> first | ((with_reducible refine Or.inr (Sub.bit hk ?_)); decide) | with_reducible exact Or.inl rfl | skip)

theorem Moves.cfgCtrlWritten {old : Nat} {s0 s : State} (hs : Moves K s0 s) (hk : Sub 0x2000 K := by first | assumption | exact Sub.mono (by assumption) rfl) : Moves K s0 (State.cfgCtrlWritten s old) := by
  unfold State.cfgCtrlWritten
  repeat' first | with_reducible assumption | with_reducible apply Moves.ite | fail_if_no_progress (with_reducible refine Moves.plain ?_ ?_ ?_ ?_ ?_ ?_ ?_ ?_ ?_ ?_ ?_ ?_ ?_ ?_ ?_ ?_ ?_ <;> first | ((with_reducible refine Or.inr (Sub.bit hk ?_)); decide) | with_reducible exact Or.inl rfl | skip)

theorem Moves.maskWritten {p : Port} {k old : Nat} {s0 s : State} (hs : Moves K s0 s) (hk : Sub 0x1004 K := by first | assumption | exact Sub.mono (by assumption) rfl) : Moves K s0 (State.maskWritten s p k old) := by
  unfold State.maskWritten
  repeat' first | with_reducible assumption | ((with_reducible refine Sub.mono hk ?_); rfl) | with_reducible refine Moves.setf ?_ ?_ | with_reducible refine Moves.forL ?_ ?_ | with_reducible refine Moves.message ?_ ?_ | with_reducible apply Moves.ite | with_reducible intro _ _ _ _ _ | with_reducible intro _ _ _

theorem Moves.vectorWritten {v : Nat} {s0 s : State} (hs : Moves K s0 s) (hk : Sub 0x1004 K := by first | assumption | exact Sub.mono (by assumption) rfl) : Moves K s0 (State.vectorWritten s v) := by
  unfold State.vectorWritten
  repeat' first | with_reducible assumption | ((with_reducible refine Sub.mono hk ?_); rfl) | with_reducible refine Moves.setf ?_ ?_ | with_reducible refine Moves.message ?_ ?_ | with_reducible apply Moves.ite

theorem Moves.hostEffect {x : RegWrite} {s0 s : State} (hs : Moves K s0 s) (hk : Sub 0x3004 K := by first | assumption | exact Sub.mono (by assumption) rfl) : Moves K s0 (State.hostEffect s x) := by
  unfold State.hostEffect
  repeat' first | with_reducible assumption | ((with_reducible refine Sub.mono hk ?_); rfl) | with_reducible refine Moves.maskWritten ?_ ?_ | with_reducible refine Moves.mboxEmpty ?_ ?_ | with_reducible refine Moves.vectorWritten ?_ ?_ | with_reducible refine Moves.cfgCtrlWritten ?_ ?_ | with_reducible refine Moves.refWritten ?_ ?_ | with_reducible apply Moves.ite

theorem Moves.avsWritten {s0 s : State} (hs : Moves K s0 s) (hk : Sub 0x1204 K := by first | assumption | exact Sub.mono (by assumption) rfl) : Moves K s0 (State.avsWritten s) := by
  unfold State.avsWritten
  repeat' first | with_reducible assumption | ((with_reducible refine Sub.mono hk ?_); rfl) | with_reducible refine Moves.command ?_ ?_ | with_reducible apply Moves.ite | with_reducible intro _ _ _ _ _ | with_reducible intro _ _ _ | with_reducible intro _ _ | extract_lets | split

theorem Moves.nomWritten {n : Nat} {was : EntryKind} {s0 s : State} (hs : Moves K s0 s) (hk : Sub 0x587D91004 K := by first | assumption | exact Sub.mono (by assumption) rfl) : Moves K s0 (State.nomWritten s n was) := by
  unfold State.nomWritten
  repeat' first | with_reducible assumption | ((with_reducible refine Sub.mono hk ?_); rfl) | with_reducible refine Moves.when ?_ ?_ | with_reducible refine Moves.kindChanged ?_ ?_ | with_reducible refine Moves.nomChanged ?_ ?_ | with_reducible refine Moves.selectInput ?_ ?_ | with_reducible apply Moves.ite | with_reducible intro _ _ _ _ _ | with_reducible intro _ _ _ | with_reducible intro _ _ | extract_lets | split

theorem Moves.sliceWritten {n old : Nat} {s0 s : State} (hs : Moves K s0 s) (hk : Sub 0x401004 K := by first | assumption | exact Sub.mono (by assumption) rfl) : Moves K s0 (State.sliceWritten s n old) := by
  unfold State.sliceWritten
  repeat' first | with_reducible assumption | ((with_reducible refine Sub.mono hk ?_); rfl) | with_reducible refine Moves.sliceStep ?_ ?_ | with_reducible refine Moves.threshStep ?_ ?_ | with_reducible apply Moves.ite | with_reducible intro _ _ _ _ _ | with_reducible intro _ _ _ | with_reducible intro _ _ | extract_lets | split

theorem Moves.lndEffect {n : Nat} {was : EntryKind} {x : RegWrite} {s0 s : State} (hs : Moves K s0 s) (hk : Sub 0x587D91006 K := by first | assumption | exact Sub.mono (by assumption) rfl) : Moves K s0 (State.lndEffect s n was x) := by
  unfold State.lndEffect
  repeat' first | with_reducible assumption | ((with_reducible refine Sub.mono hk ?_); rfl) | with_reducible refine Moves.setf ?_ ?_ | with_reducible refine Moves.restartLanding ?_ ?_ | with_reducible refine Moves.refreshActivity ?_ ?_ | with_reducible refine Moves.nomWritten ?_ ?_ | with_reducible refine Moves.modLnd ?_ ?_ | with_reducible refine Moves.refreshSettling ?_ ?_ | with_reducible refine Moves.sliceWritten ?_ ?_ | with_reducible apply Moves.ite

theorem Moves.selEffect {n : Nat} {x : RegWrite} {s0 s : State} (hs : Moves K s0 s) (hk : Sub 0x587991004 K := by first | assumption | exact Sub.mono (by assumption) rfl) : Moves K s0 (State.selEffect s n x) := by
  unfold State.selEffect
  repeat' first | with_reducible assumption | with_reducible refine Moves.selCtrlWritten ?_ ?_ | with_reducible refine Moves.forceWritten ?_ ?_ | with_reducible refine Moves.candWritten ?_ ?_ | with_reducible apply Moves.ite

theorem Moves.settleLoop {l : Nat} {s0 s : State} (hs : Moves K s0 s) (hk : Sub 0x2000000 K := by first | assumption | exact Sub.mono (by assumption) rfl) : Moves K s0 (State.settleLoop s l) := by
  unfold State.settleLoop
  repeat' first | with_reducible assumption | ((with_reducible refine Sub.mono hk ?_); rfl) | with_reducible refine Moves.modLoop ?_ ?_ | with_reducible apply Moves.ite | with_reducible intro _ _ _ _ _ | with_reducible intro _ _ _ | with_reducible intro _ _ | extract_lets | split

theorem Moves.rawWritten {l old : Nat} {s0 s : State} (hs : Moves K s0 s) (hk : Sub 0x2000004 K := by first | assumption | exact Sub.mono (by assumption) rfl) : Moves K s0 (State.rawWritten s l old) := by
  unfold State.rawWritten
  repeat' first | with_reducible assumption | ((with_reducible refine Sub.mono hk ?_); rfl) | with_reducible refine Moves.when ?_ ?_ | with_reducible refine Moves.settleLoop ?_ ?_ | with_reducible refine Moves.setw ?_ ?_ | with_reducible refine Moves.refreshCoefs ?_ ?_ | with_reducible apply Moves.ite | with_reducible intro _ _ _ _ _ | with_reducible intro _ _ _ | with_reducible intro _ _ | extract_lets | split | dsimp +zetaDelta only

theorem Moves.weightWritten {l i : Nat} {x : RegWrite} {s0 s : State} (hs : Moves K s0 s) (hk : Sub 0x2002004 K := by first | assumption | exact Sub.mono (by assumption) rfl) : Moves K s0 (State.weightWritten s l i x) := by
  unfold State.weightWritten
  repeat' first | with_reducible assumption | ((with_reducible refine Sub.mono hk ?_); rfl) | with_reducible refine Moves.modLoop ?_ ?_ | with_reducible refine Moves.setChecked ?_ ?_ | with_reducible refine Moves.forN ?_ ?_ | with_reducible apply Moves.ite | fail_if_no_progress (with_reducible refine Moves.plain ?_ ?_ ?_ ?_ ?_ ?_ ?_ ?_ ?_ ?_ ?_ ?_ ?_ ?_ ?_ ?_ ?_ <;> first | ((with_reducible refine Or.inr (Sub.bit hk ?_)); decide) | with_reducible exact Or.inl rfl | skip) | fail_if_no_progress (with_reducible refine Moves.plainNv ?_ rfl rfl rfl ?_ ?_ ?_ ?_ ?_ ?_ ?_ ?_ ?_ ?_ ?_ ?_ ?_ ?_ ?_ ?_ ?_ <;> first | ((with_reducible refine Or.inr (Sub.bit hk ?_)); decide) | with_reducible exact Or.inl rfl | skip) | with_reducible intro _ _ _ _ _ | with_reducible intro _ _ _

theorem Moves.coefWritten {l : Nat} {x : RegWrite} {s0 s : State} (hs : Moves K s0 s) (hk : Sub 0x2000004 K := by first | assumption | exact Sub.mono (by assumption) rfl) : Moves K s0 (State.coefWritten s l x) := by
  unfold State.coefWritten
  repeat' first | with_reducible assumption | ((with_reducible refine Sub.mono hk ?_); rfl) | with_reducible refine Moves.modLoop ?_ ?_ | with_reducible refine Moves.settleLoop ?_ ?_ | with_reducible refine Moves.setw ?_ ?_ | with_reducible apply Moves.ite | with_reducible intro _ _ _ _ _ | with_reducible intro _ _ _ | with_reducible intro _ _ | extract_lets | split

theorem Moves.loopEffect {n : Nat} {x : RegWrite} {s0 s : State} (hs : Moves K s0 s) (hk : Sub 0x6000004 K := by first | assumption | exact Sub.mono (by assumption) rfl) : Moves K s0 (State.loopEffect s n x) := by
  unfold State.loopEffect
  repeat' first | with_reducible assumption | ((with_reducible refine Sub.mono hk ?_); rfl) | with_reducible refine Moves.rawWritten ?_ ?_ | with_reducible refine Moves.modLoop ?_ ?_ | with_reducible refine Moves.when ?_ ?_ | with_reducible refine Moves.refreshCoefs ?_ ?_ | with_reducible refine Moves.settleLoop ?_ ?_ | with_reducible refine Moves.modHo ?_ ?_ | with_reducible refine Moves.showRecs ?_ ?_ | with_reducible refine Moves.setb ?_ ?_ | with_reducible refine Moves.setf ?_ ?_ | with_reducible apply Moves.ite | with_reducible intro _ _ _ _ _ | with_reducible intro _ _ _ | with_reducible intro _ _ | extract_lets | split

theorem Moves.prtEffect {n : Nat} {x : RegWrite} {s0 s : State} (hs : Moves K s0 s) (hk : Sub 0x587D91006 K := by first | assumption | exact Sub.mono (by assumption) rfl) : Moves K s0 (State.prtEffect s n x) := by
  unfold State.prtEffect
  repeat' first | with_reducible assumption | ((with_reducible refine Sub.mono hk ?_); rfl) | with_reducible refine Moves.prtCtrlWritten ?_ ?_ | with_reducible refine Moves.txclkWritten ?_ ?_ | with_reducible refine Moves.eqCtrlWritten ?_ ?_ | with_reducible refine Moves.esmcWritten ?_ ?_ | with_reducible apply Moves.ite

theorem Moves.pteEffect {n : Nat} {x : RegWrite} {s0 s : State} (hs : Moves K s0 s) (hk : Sub 0x787991004 K := by first | assumption | exact Sub.mono (by assumption) rfl) : Moves K s0 (State.pteEffect s n x) := by
  unfold State.pteEffect
  repeat' first | with_reducible assumption | ((with_reducible refine Sub.mono hk ?_); rfl) | with_reducible refine Moves.bmca ?_ ?_ | with_reducible refine Moves.setf ?_ ?_ | with_reducible refine Moves.when ?_ ?_ | with_reducible refine Moves.forL ?_ ?_ | with_reducible refine Moves.modPte ?_ ?_ | with_reducible refine Moves.modUp ?_ ?_ | with_reducible apply Moves.ite | with_reducible intro _ _ _ _ _ | with_reducible intro _ _ _ | with_reducible intro _ _ | extract_lets | split

theorem Moves.regEffect {was : EntryKind} {x : RegWrite} {s0 s : State} (hs : Moves K s0 s) (hk : Sub 0xFFFFFFF9E K := by first | assumption | exact Sub.mono (by assumption) rfl) : Moves K s0 (State.regEffect s was x) := by
  unfold State.regEffect
  repeat' first | with_reducible assumption | ((with_reducible refine Sub.mono hk ?_); rfl) | with_reducible refine Moves.hostEffect ?_ ?_ | with_reducible refine Moves.avsWritten ?_ ?_ | with_reducible refine Moves.atomic ?_ ?_ | with_reducible refine Moves.refreshEng ?_ ?_ | with_reducible refine Moves.lndEffect ?_ ?_ | with_reducible refine Moves.selEffect ?_ ?_ | with_reducible refine Moves.loopEffect ?_ ?_ | with_reducible refine Moves.outCtrlWritten ?_ ?_ | with_reducible refine Moves.refreshTrace ?_ ?_ | with_reducible refine Moves.prtEffect ?_ ?_ | with_reducible refine Moves.pteEffect ?_ ?_ | with_reducible refine Moves.xlkCtrlWritten ?_ ?_ | with_reducible refine Moves.billCheck ?_ ?_ | with_reducible refine Moves.refreshNext ?_ ?_ | with_reducible refine Moves.when ?_ ?_ | with_reducible refine Moves.secondBegins ?_ ?_ | with_reducible apply Moves.ite | with_reducible intro _ _ _ _ _ | with_reducible intro _ _ _ | with_reducible intro _ _ | extract_lets | split

theorem Moves.eachBit {w n : Nat} {g : State → Nat → State} {s0 s : State} (hs : Moves K s0 s) (hg : ∀ t x, Moves K s0 t → Moves K s0 (g t x)) : Moves K s0 (State.eachBit s w n g) := by
  unfold State.eachBit
  repeat' first | with_reducible assumption | with_reducible apply hg | with_reducible refine Moves.forN ?_ ?_ | with_reducible apply Moves.ite | with_reducible intro _ _ _ _ _ | with_reducible intro _ _ _

theorem Moves.lndCommand {p : Port} {n bit : Nat} {s0 s : State} (hs : Moves K s0 s) (hk : Sub 0x80401006 K := by first | assumption | exact Sub.mono (by assumption) rfl) : Moves K s0 (State.lndCommand s p n bit) := by
  unfold State.lndCommand
  repeat' first | with_reducible assumption | ((with_reducible refine Sub.mono hk ?_); rfl) | with_reducible refine Moves.fetchResult ?_ ?_ | with_reducible refine Moves.fetchCal ?_ ?_ | with_reducible refine Moves.armTdc ?_ ?_ | with_reducible apply Moves.ite

theorem Moves.loopBit {p : Port} {n bit : Nat} {s0 s : State} (hs : Moves K s0 s) (hk : Sub 0x600181C K := by first | assumption | exact Sub.mono (by assumption) rfl) : Moves K s0 (State.loopBit s p n bit) := by
  unfold State.loopBit
  repeat' first | with_reducible assumption | ((with_reducible refine Sub.mono hk ?_); rfl) | with_reducible refine Moves.loopCommand ?_ ?_ ?_ | with_reducible refine Moves.mboxOut ?_ ?_ | with_reducible refine Moves.stepLoad ?_ ?_ | with_reducible refine Moves.stepGo ?_ ?_ | with_reducible refine Moves.stepCancel ?_ ?_ | with_reducible refine Moves.fetchModel ?_ ?_ | with_reducible refine Moves.loadModel ?_ ?_ | with_reducible refine Moves.clearHistory ?_ ?_ | with_reducible apply Moves.ite | with_reducible intro _ _ _ _ _ | with_reducible intro _ _ _ | with_reducible intro _ _

theorem Moves.outCommand {p : Port} {m bit : Nat} {s0 s : State} (hs : Moves K s0 s) (hk : Sub 0x10011004 K := by first | assumption | exact Sub.mono (by assumption) rfl) : Moves K s0 (State.outCommand s p m bit) := by
  unfold State.outCommand
  repeat' first | with_reducible assumption | ((with_reducible refine Sub.mono hk ?_); rfl) | with_reducible refine Moves.realignOut ?_ ?_ | with_reducible refine Moves.divLoad ?_ ?_ | with_reducible refine Moves.fetchDiv ?_ ?_ | with_reducible apply Moves.ite

theorem Moves.fltCommand {p : Port} {bit : Nat} {s0 s : State} (hs : Moves K s0 s) (hk : Sub 0xFFFFFFD9E K := by first | assumption | exact Sub.mono (by assumption) rfl) : Moves K s0 (State.fltCommand s p bit) := by
  unfold State.fltCommand
  repeat' first | with_reducible assumption | ((with_reducible refine Sub.mono hk ?_); rfl) | with_reducible refine Moves.fltPop ?_ ?_ | with_reducible refine Moves.errRelease ?_ ?_ | with_reducible refine Moves.trapClear ?_ ?_ | with_reducible refine Moves.injArm ?_ ?_ | with_reducible refine Moves.injCancel ?_ ?_ | with_reducible apply Moves.ite

theorem Moves.mboxFill {p : Port} {n : Nat} {s0 s : State} (hs : Moves K s0 s) (hk : Sub 0x4 K := by first | assumption | exact Sub.mono (by assumption) rfl) : Moves K s0 (State.mboxFill s p n) := by
  unfold State.mboxFill
  repeat' first | with_reducible assumption | with_reducible refine Moves.setw ?_ ?_

theorem Moves.ring {x : RegWrite} {s0 s : State} (hs : Moves K s0 s) (hk : Sub 0xFFFFFFD9E K := by first | assumption | exact Sub.mono (by assumption) rfl) : Moves K s0 (State.ring s x) := by
  unfold State.ring
  repeat' first | with_reducible assumption | ((with_reducible refine Sub.mono hk ?_); rfl) | with_reducible refine Moves.topCmd ?_ ?_ | with_reducible refine Moves.mboxFill ?_ ?_ | with_reducible refine Moves.setw ?_ ?_ | with_reducible refine Moves.when ?_ ?_ | with_reducible refine Moves.cfgCommit ?_ ?_ | with_reducible refine Moves.eachBit ?_ ?_ | with_reducible refine Moves.fltCommand ?_ ?_ | with_reducible refine Moves.fabOp ?_ ?_ | with_reducible refine Moves.secOp ?_ ?_ | with_reducible refine Moves.nvOp ?_ ?_ | with_reducible refine Moves.flmOp ?_ ?_ | with_reducible refine Moves.swEvents ?_ ?_ | with_reducible refine Moves.engOp ?_ ?_ | with_reducible refine Moves.lndCommand ?_ ?_ | with_reducible refine Moves.setf ?_ ?_ | with_reducible refine Moves.readmit ?_ ?_ | with_reducible refine Moves.loopBit ?_ ?_ | with_reducible refine Moves.groupDo ?_ ?_ | with_reducible refine Moves.aplCommand ?_ ?_ | with_reducible refine Moves.outCommand ?_ ?_ | with_reducible refine Moves.tscCommand ?_ ?_ | with_reducible refine Moves.prtCommand ?_ ?_ | with_reducible refine Moves.pteCommand ?_ ?_ | with_reducible refine Moves.xlkCommand ?_ ?_ | with_reducible apply Moves.ite | with_reducible intro _ _ _ _ _ | with_reducible intro _ _ _ | with_reducible intro _ _ | extract_lets | split

theorem Moves.perform {d : RegDef} {x : RegWrite} {s0 s : State} (hs : Moves K s0 s) (hk : Sub 0xFFFFFFF9E K := by first | assumption | exact Sub.mono (by assumption) rfl) : Moves K s0 (State.perform s d x) := by
  unfold State.perform
  repeat' first | with_reducible assumption | ((with_reducible refine Sub.mono hk ?_); rfl) | with_reducible refine Moves.ring ?_ ?_ | with_reducible refine Moves.eachBit ?_ ?_ | with_reducible refine Moves.loopBit ?_ ?_ | with_reducible refine Moves.weightWritten ?_ ?_ | with_reducible refine Moves.coefWritten ?_ ?_ | with_reducible refine Moves.store ?_ ?_ | with_reducible refine Moves.regEffect ?_ ?_ | with_reducible apply Moves.ite | with_reducible intro _ _ _ _ _ | with_reducible intro _ _ _

end Sys2Proof.Machine
end

