-- ==== Sys2Proof/Laws/KeepHostAccess.lean ====
section
/-! SUPPORT. What the operations of Machine/HostAccess.lean keep: the queue, the canonical form of the tables, and the parts of the state outside those named. -/

set_option Elab.async false

set_option linter.unreachableTactic false
set_option linter.unusedTactic false

namespace Sys2Proof.Machine

variable {K : Nat}

theorem Moves.clearBits {d : RegDef} {p : Port} {b o m : Nat} {s0 s : State} (hs : Moves K s0 s) (hk : Sub 0x4 K := by first | assumption | exact Sub.mono (by assumption) rfl) : Moves K s0 (State.clearBits s d p b o m) := by
  unfold State.clearBits
  repeat' first | with_reducible assumption | with_reducible refine Moves.setw ?_ ?_ | with_reducible refine Moves.setf ?_ ?_ | with_reducible apply Moves.ite

theorem Moves.writeDone {p : Port} {addr n data : Nat} {s0 s : State} (hs : Moves K s0 s) (hk : Sub 0xFFFFFFF9E K := by first | assumption | exact Sub.mono (by assumption) rfl) : Moves K s0 (State.writeDone s p addr n data) := by
  unfold State.writeDone
  repeat' first | with_reducible assumption | ((with_reducible refine Sub.mono hk ?_); rfl) | with_reducible refine Moves.status ?_ ?_ | with_reducible refine Moves.clearBits ?_ ?_ | with_reducible refine Moves.perform ?_ ?_ | with_reducible apply Moves.ite | with_reducible intro _ _ _ _ _ | with_reducible intro _ _ _ | with_reducible intro _ _ | extract_lets | split

theorem Moves.dropHeld {p : Port} {addr n data : Nat} {c : Code} {s0 s : State} (hs : Moves K s0 s) (hk : Sub 0x2000000 K := by first | assumption | exact Sub.mono (by assumption) rfl) : Moves K s0 (State.dropHeld s p addr n data c) := by
  unfold State.dropHeld
  repeat' first | with_reducible assumption | with_reducible refine Moves.modLoop ?_ ?_ | with_reducible apply Moves.ite | fail_if_no_progress (with_reducible refine Moves.plain ?_ ?_ ?_ ?_ ?_ ?_ ?_ ?_ ?_ ?_ ?_ ?_ ?_ ?_ ?_ ?_ ?_ <;> first | ((with_reducible refine Or.inr (Sub.bit hk ?_)); decide) | with_reducible exact Or.inl rfl | skip) | fail_if_no_progress (with_reducible refine Moves.plainNv ?_ rfl rfl rfl ?_ ?_ ?_ ?_ ?_ ?_ ?_ ?_ ?_ ?_ ?_ ?_ ?_ ?_ ?_ ?_ ?_ <;> first | ((with_reducible refine Or.inr (Sub.bit hk ?_)); decide) | with_reducible exact Or.inl rfl | skip) | with_reducible intro _ _ _ _ _ | with_reducible intro _ _ _ | with_reducible intro _ _ | extract_lets | split

theorem Moves.beside {p : Port} {addr data : Nat} {s0 s : State} (hs : Moves K s0 s) (hk : Sub 0x2002004 K := by first | assumption | exact Sub.mono (by assumption) rfl) : Moves K s0 (State.beside s p addr data) := by
  unfold State.beside
  repeat' first | with_reducible assumption | ((with_reducible refine Sub.mono hk ?_); rfl) | with_reducible refine Moves.weightWritten ?_ ?_ | with_reducible refine Moves.setw ?_ ?_ | with_reducible apply Moves.ite | with_reducible intro _ _ _ _ _ | with_reducible intro _ _ _ | with_reducible intro _ _ | extract_lets | split | dsimp +zetaDelta only

theorem Moves.hostWrite {p : Port} {a : Access} {s0 s : State} (hs : Moves K s0 s) (hk : Sub 0xFFFFFFF9E K := by first | assumption | exact Sub.mono (by assumption) rfl) : Moves K s0 (State.hostWrite s p a) := by
  unfold State.hostWrite
  repeat' first | with_reducible assumption | ((with_reducible refine Sub.mono hk ?_); rfl) | with_reducible refine Moves.busErr ?_ ?_ | with_reducible refine Moves.beside ?_ ?_ | with_reducible refine Moves.writeDone ?_ ?_ | with_reducible refine Moves.status ?_ ?_ | with_reducible refine Moves.dropHeld ?_ ?_ | with_reducible apply Moves.ite | with_reducible intro _ _ _ _ _ | with_reducible intro _ _ _ | with_reducible intro _ _ | extract_lets | split | dsimp +zetaDelta only

theorem Moves.hostWriteAt {p : Port} {key : Nat} {r : RegAcc} {s0 s : State} (hs : Moves K s0 s) (hk : Sub 0xFFFFFFF9E K := by first | assumption | exact Sub.mono (by assumption) rfl) : Moves K s0 (State.hostWriteAt s p key r) := by
  unfold State.hostWriteAt
  repeat' first | with_reducible assumption | with_reducible refine Moves.hostWrite ?_ ?_

theorem Moves.outputRead {p : Port} {addr n : Nat} {s0 s : State} (hs : Moves K s0 s) (hk : Sub 0x4 K := by first | assumption | exact Sub.mono (by assumption) rfl) : Moves K s0 (State.outputRead s p addr n) := by
  unfold State.outputRead
  repeat' first | with_reducible assumption | with_reducible refine Moves.mboxEmpty ?_ ?_ | with_reducible refine Moves.setf ?_ ?_ | with_reducible apply Moves.ite

theorem First.readDone {p : Port} {addr n : Nat} {s0 s : State} (hs : Moves K s0 s) (hk : Sub 0x4 K := by first | assumption | exact Sub.mono (by assumption) rfl) : First K s0 (State.readDone s p addr n) := by
  unfold State.readDone
  repeat' first | with_reducible assumption | ((with_reducible refine Sub.mono hk ?_); rfl) | with_reducible refine Moves.status ?_ ?_ | with_reducible refine Moves.clearBits ?_ ?_ | with_reducible refine Moves.outputRead ?_ ?_ | with_reducible apply Moves.ite | with_reducible apply First.ite | with_reducible intro _ _ _ _ _ | with_reducible intro _ _ _ | with_reducible intro _ _ | extract_lets | split | with_reducible apply First.mk

theorem Moves.returned {p : Port} {ws : List Nat} {s0 s : State} (hs : Moves K s0 s) (hk : Sub 0xC000 K := by first | assumption | exact Sub.mono (by assumption) rfl) : Moves K s0 (State.returned s p ws) := by
  unfold State.returned
  repeat' first | with_reducible assumption | with_reducible refine Moves.modHost ?_ ?_

theorem Moves.hostRead {p : Port} {a : Access} {s0 s : State} (hs : Moves K s0 s) (hk : Sub 0xD004 K := by first | assumption | exact Sub.mono (by assumption) rfl) : Moves K s0 (State.hostRead s p a) := by
  unfold State.hostRead
  repeat' first | with_reducible assumption | ((with_reducible refine Sub.mono hk ?_); rfl) | with_reducible refine Moves.busErr ?_ ?_ | with_reducible refine First.readDone ?_ ?_ | with_reducible refine (First.readDone ?_ ?_).out ‹_› | with_reducible refine (First.readDone ?_ ?_).fst | with_reducible refine Moves.status ?_ ?_ | with_reducible refine Moves.returned ?_ ?_ | with_reducible apply Moves.ite | with_reducible apply First.ite | with_reducible intro _ _ _ _ _ | with_reducible intro _ _ _ | with_reducible intro _ _ | extract_lets | split | with_reducible apply First.mk | dsimp +zetaDelta only

theorem Moves.hostReadAt {p : Port} {addr : Nat} {w : Width} {s0 s : State} (hs : Moves K s0 s) (hk : Sub 0xD004 K := by first | assumption | exact Sub.mono (by assumption) rfl) : Moves K s0 (State.hostReadAt s p addr w) := by
  unfold State.hostReadAt
  repeat' first | with_reducible assumption | with_reducible refine Moves.hostRead ?_ ?_

theorem Ends.execRegisterWrite {p : Port} {a : Access} {s : State} (hk : Sub 0xFFFFFFF9E K := by first | assumption | exact Sub.mono (by assumption) rfl) : Ends K s (Sys2Proof.Machine.execRegisterWrite p a s) := by
  have h : Moves K s s := Moves.refl s
  unfold Sys2Proof.Machine.execRegisterWrite
  repeat' first | with_reducible assumption | with_reducible exact Moves.next ‹_› | with_reducible apply Moves.next | with_reducible apply Ends.ite | with_reducible exact Ends.refused | with_reducible refine Moves.hostWrite ?_ ?_

theorem Ends.execClearingRead {p : Port} {a : Access} {s : State} (hk : Sub 0xD004 K := by first | assumption | exact Sub.mono (by assumption) rfl) : Ends K s (Sys2Proof.Machine.execClearingRead p a s) := by
  have h : Moves K s s := Moves.refl s
  unfold Sys2Proof.Machine.execClearingRead
  repeat' first | with_reducible assumption | with_reducible exact Moves.next ‹_› | with_reducible apply Moves.next | with_reducible apply Ends.ite | with_reducible exact Ends.refused | with_reducible refine Moves.hostRead ?_ ?_

theorem Ends.execAvsEventRead {p : Port} {s : State} (hk : Sub 0xD004 K := by first | assumption | exact Sub.mono (by assumption) rfl) : Ends K s (Sys2Proof.Machine.execAvsEventRead p s) := by
  have h : Moves K s s := Moves.refl s
  unfold Sys2Proof.Machine.execAvsEventRead
  repeat' first | with_reducible assumption | with_reducible exact Moves.next ‹_› | with_reducible apply Moves.next | with_reducible apply Ends.ite | with_reducible exact Ends.refused | with_reducible refine Moves.hostReadAt ?_ ?_

theorem Ends.execLndCtrlWrite {p : Port} {n : Fin 32} {a : RegAcc} {s : State} (hk : Sub 0xFFFFFFF9E K := by first | assumption | exact Sub.mono (by assumption) rfl) : Ends K s (Sys2Proof.Machine.execLndCtrlWrite p n a s) := by
  have h : Moves K s s := Moves.refl s
  unfold Sys2Proof.Machine.execLndCtrlWrite
  repeat' first | with_reducible assumption | with_reducible exact Moves.next ‹_› | with_reducible apply Moves.next | with_reducible apply Ends.ite | with_reducible exact Ends.refused | with_reducible refine Moves.hostWriteAt ?_ ?_

theorem Ends.execLndDecimWrite {p : Port} {n : Fin 32} {a : RegAcc} {s : State} (hk : Sub 0xFFFFFFF9E K := by first | assumption | exact Sub.mono (by assumption) rfl) : Ends K s (Sys2Proof.Machine.execLndDecimWrite p n a s) := by
  have h : Moves K s s := Moves.refl s
  unfold Sys2Proof.Machine.execLndDecimWrite
  repeat' first | with_reducible assumption | with_reducible exact Moves.next ‹_› | with_reducible apply Moves.next | with_reducible apply Ends.ite | with_reducible exact Ends.refused | with_reducible refine Moves.hostWriteAt ?_ ?_

theorem Ends.execLndGateWrite {p : Port} {n : Fin 32} {a : RegAcc} {s : State} (hk : Sub 0xFFFFFFF9E K := by first | assumption | exact Sub.mono (by assumption) rfl) : Ends K s (Sys2Proof.Machine.execLndGateWrite p n a s) := by
  have h : Moves K s s := Moves.refl s
  unfold Sys2Proof.Machine.execLndGateWrite
  repeat' first | with_reducible assumption | with_reducible exact Moves.next ‹_› | with_reducible apply Moves.next | with_reducible apply Ends.ite | with_reducible exact Ends.refused | with_reducible refine Moves.hostWriteAt ?_ ?_

theorem Ends.execLndNomFreqWrite {p : Port} {n : Fin 32} {a : RegAcc} {s : State} (hk : Sub 0xFFFFFFF9E K := by first | assumption | exact Sub.mono (by assumption) rfl) : Ends K s (Sys2Proof.Machine.execLndNomFreqWrite p n a s) := by
  have h : Moves K s s := Moves.refl s
  unfold Sys2Proof.Machine.execLndNomFreqWrite
  repeat' first | with_reducible assumption | with_reducible exact Moves.next ‹_› | with_reducible apply Moves.next | with_reducible apply Ends.ite | with_reducible exact Ends.refused | with_reducible refine Moves.hostWriteAt ?_ ?_

theorem Ends.execLndObsWrite {p : Port} {a : RegAcc} {s : State} (hk : Sub 0xFFFFFFF9E K := by first | assumption | exact Sub.mono (by assumption) rfl) : Ends K s (Sys2Proof.Machine.execLndObsWrite p a s) := by
  have h : Moves K s s := Moves.refl s
  unfold Sys2Proof.Machine.execLndObsWrite
  repeat' first | with_reducible assumption | with_reducible exact Moves.next ‹_› | with_reducible apply Moves.next | with_reducible apply Ends.ite | with_reducible exact Ends.refused | with_reducible refine Moves.hostWriteAt ?_ ?_

theorem Ends.execLndSliceWrite {p : Port} {n : Fin 32} {a : RegAcc} {s : State} (hk : Sub 0xFFFFFFF9E K := by first | assumption | exact Sub.mono (by assumption) rfl) : Ends K s (Sys2Proof.Machine.execLndSliceWrite p n a s) := by
  have h : Moves K s s := Moves.refl s
  unfold Sys2Proof.Machine.execLndSliceWrite
  repeat' first | with_reducible assumption | with_reducible exact Moves.next ‹_› | with_reducible apply Moves.next | with_reducible apply Ends.ite | with_reducible exact Ends.refused | with_reducible refine Moves.hostWriteAt ?_ ?_

theorem Ends.execSelForceWrite {p : Port} {n : Fin 16} {a : RegAcc} {s : State} (hk : Sub 0xFFFFFFF9E K := by first | assumption | exact Sub.mono (by assumption) rfl) : Ends K s (Sys2Proof.Machine.execSelForceWrite p n a s) := by
  have h : Moves K s s := Moves.refl s
  unfold Sys2Proof.Machine.execSelForceWrite
  repeat' first | with_reducible assumption | with_reducible exact Moves.next ‹_› | with_reducible apply Moves.next | with_reducible apply Ends.ite | with_reducible exact Ends.refused | with_reducible refine Moves.hostWriteAt ?_ ?_

theorem Ends.execSelCandCfgWrite {p : Port} {n : Fin 16} {k : Fin 30} {a : RegAcc} {s : State} (hk : Sub 0xFFFFFFF9E K := by first | assumption | exact Sub.mono (by assumption) rfl) : Ends K s (Sys2Proof.Machine.execSelCandCfgWrite p n k a s) := by
  have h : Moves K s s := Moves.refl s
  unfold Sys2Proof.Machine.execSelCandCfgWrite
  repeat' first | with_reducible assumption | with_reducible exact Moves.next ‹_› | with_reducible apply Moves.next | with_reducible apply Ends.ite | with_reducible exact Ends.refused | with_reducible refine Moves.hostWriteAt ?_ ?_

theorem Ends.execLoopBwWrite {p : Port} {n : Fin 32} {a : RegAcc} {s : State} (hk : Sub 0xFFFFFFF9E K := by first | assumption | exact Sub.mono (by assumption) rfl) : Ends K s (Sys2Proof.Machine.execLoopBwWrite p n a s) := by
  have h : Moves K s s := Moves.refl s
  unfold Sys2Proof.Machine.execLoopBwWrite
  repeat' first | with_reducible assumption | with_reducible exact Moves.next ‹_› | with_reducible apply Moves.next | with_reducible apply Ends.ite | with_reducible exact Ends.refused | with_reducible refine Moves.hostWriteAt ?_ ?_

theorem Ends.execLoopSlopeWrite {p : Port} {n : Fin 32} {a : RegAcc} {s : State} (hk : Sub 0xFFFFFFF9E K := by first | assumption | exact Sub.mono (by assumption) rfl) : Ends K s (Sys2Proof.Machine.execLoopSlopeWrite p n a s) := by
  have h : Moves K s s := Moves.refl s
  unfold Sys2Proof.Machine.execLoopSlopeWrite
  repeat' first | with_reducible assumption | with_reducible exact Moves.next ‹_› | with_reducible apply Moves.next | with_reducible apply Ends.ite | with_reducible exact Ends.refused | with_reducible refine Moves.hostWriteAt ?_ ?_

theorem Ends.execLoopFreeFreqWrite {p : Port} {n : Fin 32} {a : RegAcc} {s : State} (hk : Sub 0xFFFFFFF9E K := by first | assumption | exact Sub.mono (by assumption) rfl) : Ends K s (Sys2Proof.Machine.execLoopFreeFreqWrite p n a s) := by
  have h : Moves K s s := Moves.refl s
  unfold Sys2Proof.Machine.execLoopFreeFreqWrite
  repeat' first | with_reducible assumption | with_reducible exact Moves.next ‹_› | with_reducible apply Moves.next | with_reducible apply Ends.ite | with_reducible exact Ends.refused | with_reducible refine Moves.hostWriteAt ?_ ?_

theorem Ends.execLoopCoefWrite {p : Port} {n : Fin 32} {integral : Bool} {a : RegAcc} {s : State} (hk : Sub 0xFFFFFFF9E K := by first | assumption | exact Sub.mono (by assumption) rfl) : Ends K s (Sys2Proof.Machine.execLoopCoefWrite p n integral a s) := by
  have h : Moves K s s := Moves.refl s
  unfold Sys2Proof.Machine.execLoopCoefWrite
  repeat' first | with_reducible assumption | with_reducible exact Moves.next ‹_› | with_reducible apply Moves.next | with_reducible apply Ends.ite | with_reducible exact Ends.refused | with_reducible refine Moves.hostWriteAt ?_ ?_

theorem Ends.execLoopDampWrite {p : Port} {n : Fin 32} {a : RegAcc} {s : State} (hk : Sub 0xFFFFFFF9E K := by first | assumption | exact Sub.mono (by assumption) rfl) : Ends K s (Sys2Proof.Machine.execLoopDampWrite p n a s) := by
  have h : Moves K s s := Moves.refl s
  unfold Sys2Proof.Machine.execLoopDampWrite
  repeat' first | with_reducible assumption | with_reducible exact Moves.next ‹_› | with_reducible apply Moves.next | with_reducible apply Ends.ite | with_reducible exact Ends.refused | with_reducible refine Moves.hostWriteAt ?_ ?_

theorem Ends.execLoopWeightCommit {p : Port} {n : Fin 32} {a : RegAcc} {s : State} (hk : Sub 0xFFFFFFF9E K := by first | assumption | exact Sub.mono (by assumption) rfl) : Ends K s (Sys2Proof.Machine.execLoopWeightCommit p n a s) := by
  have h : Moves K s s := Moves.refl s
  unfold Sys2Proof.Machine.execLoopWeightCommit
  repeat' first | with_reducible assumption | with_reducible exact Moves.next ‹_› | with_reducible apply Moves.next | with_reducible apply Ends.ite | with_reducible exact Ends.refused | with_reducible refine Moves.hostWriteAt ?_ ?_

theorem Ends.execHoTempWrite {p : Port} {n : Fin 32} {a : RegAcc} {s : State} (hk : Sub 0xFFFFFFF9E K := by first | assumption | exact Sub.mono (by assumption) rfl) : Ends K s (Sys2Proof.Machine.execHoTempWrite p n a s) := by
  have h : Moves K s s := Moves.refl s
  unfold Sys2Proof.Machine.execHoTempWrite
  repeat' first | with_reducible assumption | with_reducible exact Moves.next ‹_› | with_reducible apply Moves.next | with_reducible apply Ends.ite | with_reducible exact Ends.refused | with_reducible refine Moves.hostWriteAt ?_ ?_

theorem Ends.execHoOvrWrite {p : Port} {n : Fin 32} {a : RegAcc} {s : State} (hk : Sub 0xFFFFFFF9E K := by first | assumption | exact Sub.mono (by assumption) rfl) : Ends K s (Sys2Proof.Machine.execHoOvrWrite p n a s) := by
  have h : Moves K s s := Moves.refl s
  unfold Sys2Proof.Machine.execHoOvrWrite
  repeat' first | with_reducible assumption | with_reducible exact Moves.next ‹_› | with_reducible apply Moves.next | with_reducible apply Ends.ite | with_reducible exact Ends.refused | with_reducible refine Moves.hostWriteAt ?_ ?_

theorem Ends.execOutEnWrite {p : Port} {m : Fin 28} {a : RegAcc} {s : State} (hk : Sub 0xFFFFFFF9E K := by first | assumption | exact Sub.mono (by assumption) rfl) : Ends K s (Sys2Proof.Machine.execOutEnWrite p m a s) := by
  have h : Moves K s s := Moves.refl s
  unfold Sys2Proof.Machine.execOutEnWrite
  repeat' first | with_reducible assumption | with_reducible exact Moves.next ‹_› | with_reducible apply Moves.next | with_reducible apply Ends.ite | with_reducible exact Ends.refused | with_reducible refine Moves.hostWriteAt ?_ ?_

theorem Ends.execRouteWrite {p : Port} {r : Fin 256} {w : Fin 3} {a : RegAcc} {s : State} (hk : Sub 0xFFFFFFF9E K := by first | assumption | exact Sub.mono (by assumption) rfl) : Ends K s (Sys2Proof.Machine.execRouteWrite p r w a s) := by
  have h : Moves K s s := Moves.refl s
  unfold Sys2Proof.Machine.execRouteWrite
  repeat' first | with_reducible assumption | with_reducible exact Moves.next ‹_› | with_reducible apply Moves.next | with_reducible apply Ends.ite | with_reducible exact Ends.refused | with_reducible refine Moves.hostWriteAt ?_ ?_

theorem Ends.execPrtDormantWrite {p : Port} {n : Fin 8} {a : RegAcc} {s : State} (hk : Sub 0xFFFFFFF9E K := by first | assumption | exact Sub.mono (by assumption) rfl) : Ends K s (Sys2Proof.Machine.execPrtDormantWrite p n a s) := by
  have h : Moves K s s := Moves.refl s
  unfold Sys2Proof.Machine.execPrtDormantWrite
  repeat' first | with_reducible assumption | with_reducible exact Moves.next ‹_› | with_reducible apply Moves.next | with_reducible apply Ends.ite | with_reducible exact Ends.refused | with_reducible refine Moves.hostWriteAt ?_ ?_

theorem Ends.execPrtTxclkWrite {p : Port} {n : Fin 8} {a : RegAcc} {s : State} (hk : Sub 0xFFFFFFF9E K := by first | assumption | exact Sub.mono (by assumption) rfl) : Ends K s (Sys2Proof.Machine.execPrtTxclkWrite p n a s) := by
  have h : Moves K s s := Moves.refl s
  unfold Sys2Proof.Machine.execPrtTxclkWrite
  repeat' first | with_reducible assumption | with_reducible exact Moves.next ‹_› | with_reducible apply Moves.next | with_reducible apply Ends.ite | with_reducible exact Ends.refused | with_reducible refine Moves.hostWriteAt ?_ ?_

theorem Ends.execPrtAdminWrite {p : Port} {n : Fin 8} {a : RegAcc} {s : State} (hk : Sub 0xFFFFFFF9E K := by first | assumption | exact Sub.mono (by assumption) rfl) : Ends K s (Sys2Proof.Machine.execPrtAdminWrite p n a s) := by
  have h : Moves K s s := Moves.refl s
  unfold Sys2Proof.Machine.execPrtAdminWrite
  repeat' first | with_reducible assumption | with_reducible exact Moves.next ‹_› | with_reducible apply Moves.next | with_reducible apply Ends.ite | with_reducible exact Ends.refused | with_reducible refine Moves.hostWriteAt ?_ ?_

theorem Ends.execXlkAdminWrite {p : Port} {a : RegAcc} {s : State} (hk : Sub 0xFFFFFFF9E K := by first | assumption | exact Sub.mono (by assumption) rfl) : Ends K s (Sys2Proof.Machine.execXlkAdminWrite p a s) := by
  have h : Moves K s s := Moves.refl s
  unfold Sys2Proof.Machine.execXlkAdminWrite
  repeat' first | with_reducible assumption | with_reducible exact Moves.next ‹_› | with_reducible apply Moves.next | with_reducible apply Ends.ite | with_reducible exact Ends.refused | with_reducible refine Moves.hostWriteAt ?_ ?_

theorem Ends.execMboxWordWrite {p : Port} {k : Fin 64} {v : Word} {s : State} (hk : Sub 0xFFFFFFF9E K := by first | assumption | exact Sub.mono (by assumption) rfl) : Ends K s (Sys2Proof.Machine.execMboxWordWrite p k v s) := by
  have h : Moves K s s := Moves.refl s
  unfold Sys2Proof.Machine.execMboxWordWrite
  repeat' first | with_reducible assumption | with_reducible exact Moves.next ‹_› | with_reducible apply Moves.next | with_reducible apply Ends.ite | with_reducible exact Ends.refused | with_reducible refine Moves.hostWriteAt ?_ ?_

theorem Ends.execMboxCommit {p : Port} {v : Word} {s : State} (hk : Sub 0xFFFFFFF9E K := by first | assumption | exact Sub.mono (by assumption) rfl) : Ends K s (Sys2Proof.Machine.execMboxCommit p v s) := by
  have h : Moves K s s := Moves.refl s
  unfold Sys2Proof.Machine.execMboxCommit
  repeat' first | with_reducible assumption | with_reducible exact Moves.next ‹_› | with_reducible apply Moves.next | with_reducible apply Ends.ite | with_reducible exact Ends.refused | with_reducible refine Moves.hostWriteAt ?_ ?_

theorem Ends.execMboxLastRead {p : Port} {w : Width} {s : State} (hk : Sub 0xD004 K := by first | assumption | exact Sub.mono (by assumption) rfl) : Ends K s (Sys2Proof.Machine.execMboxLastRead p w s) := by
  have h : Moves K s s := Moves.refl s
  unfold Sys2Proof.Machine.execMboxLastRead
  repeat' first | with_reducible assumption | with_reducible exact Moves.next ‹_› | with_reducible apply Moves.next | with_reducible apply Ends.ite | with_reducible exact Ends.refused | with_reducible refine Moves.hostReadAt ?_ ?_

theorem Ends.execRingPiWrite {p : Port} {v : Word} {s : State} (hk : Sub 0xFFFFFFF9E K := by first | assumption | exact Sub.mono (by assumption) rfl) : Ends K s (Sys2Proof.Machine.execRingPiWrite p v s) := by
  have h : Moves K s s := Moves.refl s
  unfold Sys2Proof.Machine.execRingPiWrite
  repeat' first | with_reducible assumption | with_reducible exact Moves.next ‹_› | with_reducible apply Moves.next | with_reducible apply Ends.ite | with_reducible exact Ends.refused | with_reducible refine Moves.hostWriteAt ?_ ?_

theorem Ends.execCfgchkCommit {p : Port} {s : State} (hk : Sub 0xFFFFFFF9E K := by first | assumption | exact Sub.mono (by assumption) rfl) : Ends K s (Sys2Proof.Machine.execCfgchkCommit p s) := by
  have h : Moves K s s := Moves.refl s
  unfold Sys2Proof.Machine.execCfgchkCommit
  repeat' first | with_reducible assumption | with_reducible exact Moves.next ‹_› | with_reducible apply Moves.next | with_reducible apply Ends.ite | with_reducible exact Ends.refused | with_reducible refine Moves.hostWriteAt ?_ ?_

theorem Ends.execCfgchkRefWrite {p : Port} {a : RegAcc} {s : State} (hk : Sub 0xFFFFFFF9E K := by first | assumption | exact Sub.mono (by assumption) rfl) : Ends K s (Sys2Proof.Machine.execCfgchkRefWrite p a s) := by
  have h : Moves K s s := Moves.refl s
  unfold Sys2Proof.Machine.execCfgchkRefWrite
  repeat' first | with_reducible assumption | with_reducible exact Moves.next ‹_› | with_reducible apply Moves.next | with_reducible apply Ends.ite | with_reducible exact Ends.refused | with_reducible refine Moves.hostWriteAt ?_ ?_

theorem Ends.execIntrMaskWrite {p : Port} {k : Fin 20} {a : RegAcc} {s : State} (hk : Sub 0xFFFFFFF9E K := by first | assumption | exact Sub.mono (by assumption) rfl) : Ends K s (Sys2Proof.Machine.execIntrMaskWrite p k a s) := by
  have h : Moves K s s := Moves.refl s
  unfold Sys2Proof.Machine.execIntrMaskWrite
  repeat' first | with_reducible assumption | with_reducible exact Moves.next ‹_› | with_reducible apply Moves.next | with_reducible apply Ends.ite | with_reducible exact Ends.refused | with_reducible refine Moves.hostWriteAt ?_ ?_

theorem Ends.execMsixEnable {on : Bool} {s : State} (hk : Sub 0x1000 K := by first | assumption | exact Sub.mono (by assumption) rfl) : Ends K s (Sys2Proof.Machine.execMsixEnable on s) := by
  have h : Moves K s s := Moves.refl s
  unfold Sys2Proof.Machine.execMsixEnable
  repeat' first | with_reducible assumption | with_reducible exact Moves.next ‹_› | with_reducible apply Moves.next | with_reducible apply Ends.ite | with_reducible exact Ends.refused | with_reducible apply Moves.ite | fail_if_no_progress (with_reducible refine Moves.plain ?_ ?_ ?_ ?_ ?_ ?_ ?_ ?_ ?_ ?_ ?_ ?_ ?_ ?_ ?_ ?_ ?_ <;> first | ((with_reducible refine Or.inr (Sub.bit hk ?_)); decide) | with_reducible exact Or.inl rfl | skip)

theorem Moves.takeReference {v : Nat} {s0 s : State} (hs : Moves K s0 s) (hk : Sub 0x2004 K := by first | assumption | exact Sub.mono (by assumption) rfl) : Moves K s0 (State.takeReference s v) := by
  unfold State.takeReference
  repeat' first | with_reducible assumption | ((with_reducible refine Sub.mono hk ?_); rfl) | with_reducible refine Moves.setf ?_ ?_ | with_reducible apply Moves.ite | fail_if_no_progress (with_reducible refine Moves.plain ?_ ?_ ?_ ?_ ?_ ?_ ?_ ?_ ?_ ?_ ?_ ?_ ?_ ?_ ?_ ?_ ?_ <;> first | ((with_reducible refine Or.inr (Sub.bit hk ?_)); decide) | with_reducible exact Or.inl rfl | skip)

theorem Moves.compareReference {v : Nat} {s0 s : State} (hs : Moves K s0 s) (hk : Sub 0xFFFFFFD9E K := by first | assumption | exact Sub.mono (by assumption) rfl) : Moves K s0 (State.compareReference s v) := by
  unfold State.compareReference
  repeat' first | with_reducible assumption | ((with_reducible refine Sub.mono hk ?_); rfl) | with_reducible refine Moves.when ?_ ?_ | with_reducible refine Moves.setf ?_ ?_ | with_reducible refine Moves.report ?_ ?_ | with_reducible apply Moves.ite | fail_if_no_progress (with_reducible refine Moves.plain ?_ ?_ ?_ ?_ ?_ ?_ ?_ ?_ ?_ ?_ ?_ ?_ ?_ ?_ ?_ ?_ ?_ <;> first | ((with_reducible refine Or.inr (Sub.bit hk ?_)); decide) | with_reducible exact Or.inl rfl | skip) | fail_if_no_progress (with_reducible refine Moves.plainNv ?_ rfl rfl rfl ?_ ?_ ?_ ?_ ?_ ?_ ?_ ?_ ?_ ?_ ?_ ?_ ?_ ?_ ?_ ?_ ?_ <;> first | ((with_reducible refine Or.inr (Sub.bit hk ?_)); decide) | with_reducible exact Or.inl rfl | skip) | with_reducible intro _ _ _ _ _ | with_reducible intro _ _ _ | with_reducible intro _ _

theorem Ends.execCfgchkPass {s : State} (hk : Sub 0xFFFFFFD9E K := by first | assumption | exact Sub.mono (by assumption) rfl) : Ends K s (Sys2Proof.Machine.execCfgchkPass s) := by
  have h : Moves K s s := Moves.refl s
  unfold Sys2Proof.Machine.execCfgchkPass
  repeat' first | with_reducible assumption | ((with_reducible refine Sub.mono hk ?_); rfl) | with_reducible exact Moves.next ‹_› | with_reducible apply Moves.next | with_reducible apply Ends.ite | with_reducible exact Ends.refused | with_reducible refine Moves.setf ?_ ?_ | with_reducible refine Moves.incWrap ?_ ?_ | with_reducible refine Moves.takeReference ?_ ?_ | with_reducible refine Moves.compareReference ?_ ?_ | with_reducible apply Moves.ite | fail_if_no_progress (with_reducible refine Moves.plain ?_ ?_ ?_ ?_ ?_ ?_ ?_ ?_ ?_ ?_ ?_ ?_ ?_ ?_ ?_ ?_ ?_ <;> first | ((with_reducible refine Or.inr (Sub.bit hk ?_)); decide) | with_reducible exact Or.inl rfl | skip)

theorem First.qspiReadWord {w i : Nat} {s0 s : State} (hs : Moves K s0 s) (hk : Sub 0xFFFFFFD9E K := by first | assumption | exact Sub.mono (by assumption) rfl) : First K s0 (State.qspiReadWord s w i) := by
  unfold State.qspiReadWord
  repeat' first | with_reducible assumption | ((with_reducible refine Sub.mono hk ?_); rfl) | with_reducible refine First.hostWindowRead ?_ ?_ | with_reducible refine (First.hostWindowRead ?_ ?_).out ‹_› | with_reducible refine (First.hostWindowRead ?_ ?_).fst | with_reducible refine Moves.busErr ?_ ?_ | with_reducible refine Moves.hostReadAt ?_ ?_ | with_reducible apply Moves.ite | with_reducible apply First.ite | with_reducible intro _ _ _ _ _ | with_reducible intro _ _ _ | with_reducible intro _ _ | extract_lets | split | with_reducible apply First.mk

theorem First.qspiWords {w n i : Nat} {ws : List Nat} {s0 s : State} (h : Moves K s0 s) (hk : Sub 0xFFFFFFD9E K := by first | assumption | exact Sub.mono (by assumption) rfl) : First K s0 (s.qspiWords w n i ws) := by
  induction n generalizing s i ws with
  | zero => exact h
  | succ n ih =>
    unfold State.qspiWords
    split
    · exact ih ((First.qspiReadWord h).out ‹_›)
    · exact (First.qspiReadWord h).out ‹_›

theorem Moves.qspiReadFrame {w n : Nat} {s0 s : State} (hs : Moves K s0 s) (hk : Sub 0xFFFFFFD9E K := by first | assumption | exact Sub.mono (by assumption) rfl) : Moves K s0 (State.qspiReadFrame s w n) := by
  unfold State.qspiReadFrame
  repeat' first | with_reducible assumption | ((with_reducible refine Sub.mono hk ?_); rfl) | with_reducible refine Moves.modHost ?_ ?_ | with_reducible refine Moves.busErr ?_ ?_ | with_reducible refine Moves.returned ?_ ?_ | with_reducible refine First.qspiWords ?_ ?_ | with_reducible refine (First.qspiWords ?_ ?_).out ‹_› | with_reducible refine (First.qspiWords ?_ ?_).fst | with_reducible refine Moves.status ?_ ?_ | with_reducible apply Moves.ite | with_reducible apply First.ite | with_reducible intro _ _ _ _ _ | with_reducible intro _ _ _ | with_reducible intro _ _ | extract_lets | split | with_reducible apply First.mk

theorem Moves.qspiWriteWord {w i : Nat} {v : Word} {s0 s : State} (hs : Moves K s0 s) (hk : Sub 0xFFFFFFF9E K := by first | assumption | exact Sub.mono (by assumption) rfl) : Moves K s0 (State.qspiWriteWord s w i v) := by
  unfold State.qspiWriteWord
  repeat' first | with_reducible assumption | ((with_reducible refine Sub.mono hk ?_); rfl) | with_reducible refine Moves.hostWindow ?_ ?_ | with_reducible refine Moves.busErr ?_ ?_ | with_reducible refine Moves.hostWrite ?_ ?_ | with_reducible apply Moves.ite

theorem Moves.qspiPut {w i : Nat} {vs : List Word} {s0 s : State} (h : Moves K s0 s) (hk : Sub 0xFFFFFFF9E K := by first | assumption | exact Sub.mono (by assumption) rfl) : Moves K s0 (s.qspiPut w i vs) := by
  induction vs generalizing s i with
  | nil => exact h
  | cons v vs ih =>
    unfold State.qspiPut
    extract_lets t
    have ht : Moves K s0 t := Moves.qspiWriteWord h
    split
    · exact ih ht
    · exact ht

theorem Moves.qspiWriteFrame {w : Nat} {ws : List Word} {s0 s : State} (hs : Moves K s0 s) (hk : Sub 0xFFFFFFF9E K := by first | assumption | exact Sub.mono (by assumption) rfl) : Moves K s0 (State.qspiWriteFrame s w ws) := by
  unfold State.qspiWriteFrame
  repeat' first | with_reducible assumption | ((with_reducible refine Sub.mono hk ?_); rfl) | with_reducible refine Moves.modHost ?_ ?_ | with_reducible refine Moves.busErr ?_ ?_ | with_reducible refine Moves.qspiPut ?_ ?_ | with_reducible apply Moves.ite

theorem Ends.execQspiRead {addr : Word} {n : Nat} {s : State} (hk : Sub 0xFFFFFFD9E K := by first | assumption | exact Sub.mono (by assumption) rfl) : Ends K s (Sys2Proof.Machine.execQspiRead addr n s) := by
  have h : Moves K s s := Moves.refl s
  unfold Sys2Proof.Machine.execQspiRead
  repeat' first | with_reducible assumption | with_reducible exact Moves.next ‹_› | with_reducible apply Moves.next | with_reducible apply Ends.ite | with_reducible exact Ends.refused | with_reducible refine Moves.qspiReadFrame ?_ ?_

theorem Ends.execQspiQread {addr : Word} {n : Nat} {s : State} (hk : Sub 0xFFFFFFD9E K := by first | assumption | exact Sub.mono (by assumption) rfl) : Ends K s (Sys2Proof.Machine.execQspiQread addr n s) := by
  have h : Moves K s s := Moves.refl s
  unfold Sys2Proof.Machine.execQspiQread
  repeat' first | with_reducible assumption | with_reducible exact Moves.next ‹_› | with_reducible apply Moves.next | with_reducible apply Ends.ite | with_reducible exact Ends.refused | with_reducible refine Moves.qspiReadFrame ?_ ?_

theorem Ends.execQspiWrite {addr : Word} {words : List Word} {s : State} (hk : Sub 0xFFFFFFF9E K := by first | assumption | exact Sub.mono (by assumption) rfl) : Ends K s (Sys2Proof.Machine.execQspiWrite addr words s) := by
  have h : Moves K s s := Moves.refl s
  unfold Sys2Proof.Machine.execQspiWrite
  repeat' first | with_reducible assumption | with_reducible exact Moves.next ‹_› | with_reducible apply Moves.next | with_reducible apply Ends.ite | with_reducible exact Ends.refused | with_reducible refine Moves.qspiWriteFrame ?_ ?_

theorem Ends.execQspiQwrite {addr : Word} {words : List Word} {s : State} (hk : Sub 0xFFFFFFF9E K := by first | assumption | exact Sub.mono (by assumption) rfl) : Ends K s (Sys2Proof.Machine.execQspiQwrite addr words s) := by
  have h : Moves K s s := Moves.refl s
  unfold Sys2Proof.Machine.execQspiQwrite
  repeat' first | with_reducible assumption | with_reducible exact Moves.next ‹_› | with_reducible apply Moves.next | with_reducible apply Ends.ite | with_reducible exact Ends.refused | with_reducible refine Moves.qspiWriteFrame ?_ ?_

theorem Ends.execQspiPstat {s : State} (hk : Sub 0xC000 K := by first | assumption | exact Sub.mono (by assumption) rfl) : Ends K s (Sys2Proof.Machine.execQspiPstat s) := by
  have h : Moves K s s := Moves.refl s
  unfold Sys2Proof.Machine.execQspiPstat
  repeat' first | with_reducible assumption | with_reducible exact Moves.next ‹_› | with_reducible apply Moves.next | with_reducible apply Ends.ite | with_reducible exact Ends.refused | with_reducible refine Moves.modHost ?_ ?_ | with_reducible refine Moves.returned ?_ ?_

theorem Ends.execQspiCsRise {s : State} (hk : Sub 0xC000 K := by first | assumption | exact Sub.mono (by assumption) rfl) : Ends K s (Sys2Proof.Machine.execQspiCsRise s) := by
  have h : Moves K s s := Moves.refl s
  unfold Sys2Proof.Machine.execQspiCsRise
  repeat' first | with_reducible assumption | with_reducible exact Moves.next ‹_› | with_reducible apply Moves.next | with_reducible apply Ends.ite | with_reducible exact Ends.refused | with_reducible refine Moves.modHost ?_ ?_

theorem Moves.linkA {speed width : Nat} {s0 s : State} (hs : Moves K s0 s) (hk : Sub 0x1004 K := by first | assumption | exact Sub.mono (by assumption) rfl) : Moves K s0 (State.linkA s speed width) := by
  unfold State.linkA
  repeat' first | with_reducible assumption | ((with_reducible refine Sub.mono hk ?_); rfl) | with_reducible refine Moves.setf ?_ ?_ | with_reducible refine Moves.evIf ?_ ?_

theorem Moves.resetPortA {s0 s : State} (hs : Moves K s0 s) (hk : Sub 0x5004 K := by first | assumption | exact Sub.mono (by assumption) rfl) : Moves K s0 s.resetPortA := by
  unfold State.resetPortA
  extract_lets gone _
  exact hs.into rfl (fun w => ⟨Tab.wf_filter _ _ w.regs, w.mem, w.ecc, w.scrub, w.flash, w.lnd, w.sel, w.ent, w.loop, w.ho, w.apl, w.out, w.tsc, w.tod, w.tasks, w.prt, w.pte, w.berth, w.gens, w.shadow, w.array, w.incoming⟩) (.inl rfl) (.inl rfl) (.inr (hk.bit rfl)) (.inl rfl) (.inl rfl) (.inl rfl) (.inl rfl) (.inl rfl) (.inl rfl) (.inl rfl) (.inl rfl) (.inl rfl) (.inr (hk.bit rfl)) (.inl rfl) (.inr (hk.bit rfl)) (.inl rfl) (.inl rfl) (.inl rfl) (.inl rfl) (.inl rfl) (.inl rfl) (.inl rfl) (.inl rfl) (.inl rfl) (.inl rfl) (.inl rfl) (.inl rfl) (.inl rfl) (.inl rfl) (.inl rfl) (.inl rfl) (.inl rfl) (.inl rfl) (.inl rfl) (.inl rfl) (.inl rfl)

theorem Ends.execPcieReset {k : PcieReset} {s : State} (hk : Sub 0xD004 K := by first | assumption | exact Sub.mono (by assumption) rfl) : Ends K s (Sys2Proof.Machine.execPcieReset k s) := by
  have h : Moves K s s := Moves.refl s
  unfold Sys2Proof.Machine.execPcieReset
  repeat' first | with_reducible assumption | ((with_reducible refine Sub.mono hk ?_); rfl) | with_reducible exact Moves.next ‹_› | with_reducible apply Moves.next | with_reducible apply Ends.ite | with_reducible exact Ends.refused | with_reducible refine Moves.linkA ?_ ?_ | with_reducible refine Moves.resetPortA ?_ ?_ | with_reducible refine Moves.modHost ?_ ?_ | with_reducible apply Moves.ite | fail_if_no_progress (with_reducible refine Moves.plain ?_ ?_ ?_ ?_ ?_ ?_ ?_ ?_ ?_ ?_ ?_ ?_ ?_ ?_ ?_ ?_ ?_ <;> first | ((with_reducible refine Or.inr (Sub.bit hk ?_)); decide) | with_reducible exact Or.inl rfl | skip) | fail_if_no_progress (with_reducible refine Moves.plainNv ?_ rfl rfl rfl ?_ ?_ ?_ ?_ ?_ ?_ ?_ ?_ ?_ ?_ ?_ ?_ ?_ ?_ ?_ ?_ ?_ <;> first | ((with_reducible refine Or.inr (Sub.bit hk ?_)); decide) | with_reducible exact Or.inl rfl | skip) | with_reducible intro _ _ _ _ _ | with_reducible intro _ _ _ | with_reducible intro _ _ | extract_lets | split

theorem Ends.execPcieLinkChange {speed width : BitVec 4} {s : State} (hk : Sub 0x1004 K := by first | assumption | exact Sub.mono (by assumption) rfl) : Ends K s (Sys2Proof.Machine.execPcieLinkChange speed width s) := by
  have h : Moves K s s := Moves.refl s
  unfold Sys2Proof.Machine.execPcieLinkChange
  repeat' first | with_reducible assumption | with_reducible exact Moves.next ‹_› | with_reducible apply Moves.next | with_reducible apply Ends.ite | with_reducible exact Ends.refused | with_reducible refine Moves.linkA ?_ ?_ | with_reducible apply Moves.ite

end Sys2Proof.Machine
end

