-- ==== Sys2Proof/Laws/KeepStartup.lean ====
section
/-! SUPPORT. What the operations of Machine/Startup.lean keep: the queue, the canonical form of the tables, and the parts of the state outside those named. -/

set_option Elab.async false

set_option linter.unreachableTactic false
set_option linter.unusedTactic false

namespace Sys2Proof.Machine

variable {K : Nat}

theorem Moves.buildFab {i : Image} {s0 s : State} (hs : Moves K s0 s) (hk : Sub 0x4 K := by first | assumption | exact Sub.mono (by assumption) rfl) : Moves K s0 (State.buildFab s i) := by
  unfold State.buildFab
  repeat' first | with_reducible assumption | with_reducible refine Moves.setf ?_ ?_ | with_reducible refine Moves.setb ?_ ?_ | with_reducible refine Moves.forN ?_ ?_ | with_reducible refine Moves.setw ?_ ?_ | with_reducible refine Moves.forL ?_ ?_ | with_reducible apply Moves.ite | with_reducible intro _ _ _ _ _ | with_reducible intro _ _ _

theorem Moves.buildLanding {i : Image} {n : Nat} {s0 s : State} (hs : Moves K s0 s) (hk : Sub 0x6 K := by first | assumption | exact Sub.mono (by assumption) rfl) : Moves K s0 (State.buildLanding s i n) := by
  unfold State.buildLanding
  repeat' first | with_reducible assumption | ((with_reducible refine Sub.mono hk ?_); rfl) | with_reducible refine Moves.setf ?_ ?_ | with_reducible refine Moves.setw ?_ ?_ | with_reducible refine Moves.took ?_ ?_ | with_reducible apply Moves.ite

theorem Moves.buildSelector {i : Image} {r : SelectorRec} {s0 s : State} (hs : Moves K s0 s) (hk : Sub 0x4 K := by first | assumption | exact Sub.mono (by assumption) rfl) : Moves K s0 (State.buildSelector s i r) := by
  unfold State.buildSelector
  repeat' first | with_reducible assumption | with_reducible refine Moves.setf ?_ ?_ | with_reducible refine Moves.forL ?_ ?_ | with_reducible refine Moves.loadLimits ?_ ?_ | with_reducible apply Moves.ite | with_reducible intro _ _ _ _ _ | with_reducible intro _ _ _

theorem Moves.buildLoop {i : Image} {r : LoopRec} {s0 s : State} (hs : Moves K s0 s) (hk : Sub 0x2000004 K := by first | assumption | exact Sub.mono (by assumption) rfl) : Moves K s0 (State.buildLoop s i r) := by
  unfold State.buildLoop
  repeat' first | with_reducible assumption | ((with_reducible refine Sub.mono hk ?_); rfl) | with_reducible refine Moves.setf ?_ ?_ | with_reducible refine Moves.setw ?_ ?_ | with_reducible refine Moves.forN ?_ ?_ | with_reducible refine Moves.modLoop ?_ ?_ | with_reducible refine Moves.refreshCoefs ?_ ?_ | with_reducible apply Moves.ite | fail_if_no_progress (with_reducible refine Moves.plain ?_ ?_ ?_ ?_ ?_ ?_ ?_ ?_ ?_ ?_ ?_ ?_ ?_ ?_ ?_ ?_ ?_ <;> first | ((with_reducible refine Or.inr (Sub.bit hk ?_)); decide) | with_reducible exact Or.inl rfl | skip) | fail_if_no_progress (with_reducible refine Moves.plainNv ?_ rfl rfl rfl ?_ ?_ ?_ ?_ ?_ ?_ ?_ ?_ ?_ ?_ ?_ ?_ ?_ ?_ ?_ ?_ ?_ <;> first | ((with_reducible refine Or.inr (Sub.bit hk ?_)); decide) | with_reducible exact Or.inl rfl | skip) | with_reducible intro _ _ _ _ _ | with_reducible intro _ _ _

theorem Moves.buildSynth {i : Image} {n : Nat} {s0 s : State} (hs : Moves K s0 s) (hk : Sub 0x4 K := by first | assumption | exact Sub.mono (by assumption) rfl) : Moves K s0 (State.buildSynth s i n) := by
  unfold State.buildSynth
  repeat' first | with_reducible assumption | ((with_reducible refine Sub.mono hk ?_); rfl) | with_reducible refine Moves.setf ?_ ?_ | with_reducible apply Moves.ite | with_reducible intro _ _ _ _ _ | with_reducible intro _ _ _ | with_reducible intro _ _ | extract_lets | split | dsimp +zetaDelta only

theorem Moves.buildOutput {r : OutputRec} {s0 s : State} (hs : Moves K s0 s) (hk : Sub 0x4 K := by first | assumption | exact Sub.mono (by assumption) rfl) : Moves K s0 (State.buildOutput s r) := by
  unfold State.buildOutput
  repeat' first | with_reducible assumption | with_reducible refine Moves.setf ?_ ?_

theorem Moves.buildTsc {i : Image} {r : TimescaleRec} {s0 s : State} (hs : Moves K s0 s) (hk : Sub 0x20000004 K := by first | assumption | exact Sub.mono (by assumption) rfl) : Moves K s0 (State.buildTsc s i r) := by
  unfold State.buildTsc
  repeat' first | with_reducible assumption | ((with_reducible refine Sub.mono hk ?_); rfl) | with_reducible refine Moves.setf ?_ ?_ | with_reducible refine Moves.modTsc ?_ ?_ | with_reducible refine Moves.setw ?_ ?_ | with_reducible apply Moves.ite | fail_if_no_progress (with_reducible refine Moves.plain ?_ ?_ ?_ ?_ ?_ ?_ ?_ ?_ ?_ ?_ ?_ ?_ ?_ ?_ ?_ ?_ ?_ <;> first | ((with_reducible refine Or.inr (Sub.bit hk ?_)); decide) | with_reducible exact Or.inl rfl | skip) | fail_if_no_progress (with_reducible refine Moves.plainNv ?_ rfl rfl rfl ?_ ?_ ?_ ?_ ?_ ?_ ?_ ?_ ?_ ?_ ?_ ?_ ?_ ?_ ?_ ?_ ?_ <;> first | ((with_reducible refine Or.inr (Sub.bit hk ?_)); decide) | with_reducible exact Or.inl rfl | skip) | with_reducible intro _ _ _ _ _ | with_reducible intro _ _ _ | with_reducible intro _ _ | extract_lets | split

theorem Moves.buildPort {i : Image} {r : PortRec} {s0 s : State} (hs : Moves K s0 s) (hk : Sub 0x4 K := by first | assumption | exact Sub.mono (by assumption) rfl) : Moves K s0 (State.buildPort s i r) := by
  unfold State.buildPort
  repeat' first | with_reducible assumption | with_reducible refine Moves.setf ?_ ?_ | with_reducible refine Moves.setw ?_ ?_

theorem Moves.buildXlk {b : List Byte} {s0 s : State} (hs : Moves K s0 s) (hk : Sub 0x4 K := by first | assumption | exact Sub.mono (by assumption) rfl) : Moves K s0 (State.buildXlk s b) := by
  unfold State.buildXlk
  repeat' first | with_reducible assumption | with_reducible refine Moves.setf ?_ ?_ | with_reducible refine Moves.forN ?_ ?_ | with_reducible refine Moves.setw ?_ ?_ | with_reducible apply Moves.ite | with_reducible intro _ _ _ _ _ | with_reducible intro _ _ _

theorem Moves.buildStructure {i : Image} {s0 s : State} (hs : Moves K s0 s) (hk : Sub 0x22000406 K := by first | assumption | exact Sub.mono (by assumption) rfl) : Moves K s0 (State.buildStructure s i) := by
  unfold State.buildStructure
  repeat' first | with_reducible assumption | ((with_reducible refine Sub.mono hk ?_); rfl) | with_reducible refine Moves.buildFab ?_ ?_ | with_reducible refine Moves.forL ?_ ?_ | with_reducible refine Moves.buildLanding ?_ ?_ | with_reducible refine Moves.setf ?_ ?_ | with_reducible refine Moves.buildSelector ?_ ?_ | with_reducible refine Moves.buildLoop ?_ ?_ | with_reducible refine Moves.buildSynth ?_ ?_ | with_reducible refine Moves.buildOutput ?_ ?_ | with_reducible refine Moves.buildTsc ?_ ?_ | with_reducible refine Moves.buildPort ?_ ?_ | with_reducible refine Moves.buildXlk ?_ ?_ | with_reducible apply Moves.ite | fail_if_no_progress (with_reducible refine Moves.plain ?_ ?_ ?_ ?_ ?_ ?_ ?_ ?_ ?_ ?_ ?_ ?_ ?_ ?_ ?_ ?_ ?_ <;> first | ((with_reducible refine Or.inr (Sub.bit hk ?_)); decide) | with_reducible exact Or.inl rfl | skip) | fail_if_no_progress (with_reducible refine Moves.plainNv ?_ rfl rfl rfl ?_ ?_ ?_ ?_ ?_ ?_ ?_ ?_ ?_ ?_ ?_ ?_ ?_ ?_ ?_ ?_ ?_ <;> first | ((with_reducible refine Or.inr (Sub.bit hk ?_)); decide) | with_reducible exact Or.inl rfl | skip) | with_reducible intro _ _ _ _ _ | with_reducible intro _ _ _ | with_reducible intro _ _ | extract_lets | split

theorem Moves.preStep {trial : Bool} {u : Preloaded} {x : PreloadRec × Nat} {s0 : State} (h : Moves K s0 u.st) (hk : Sub 0xFFFFFFF9E K := by first | assumption | exact Sub.mono (by assumption) rfl) : Moves K s0 (Preloaded.step trial u x).st := by
  unfold Preloaded.step
  split
  · exact h
  · extract_lets e s addr fail
    split
    · exact h
    · split
      · exact h
      · extract_lets w t
        split
        · exact h
        split
        · exact h
        split
        · exact h
        · exact Moves.perform h

theorem Moves.preload {i : Image} {trial : Bool} {k : Nat} {s0 s : State} (hs : Moves K s0 s) (hk : Sub 0xFFFFFFF9E K := by first | assumption | exact Sub.mono (by assumption) rfl) : Moves K s0 (s.preload i trial k).st := by
  unfold State.preload
  generalize i.preload.zipIdx.drop k = l
  have h : Moves K s0 (⟨{ s with top := { s.top with resetting := false } }, none, false, none⟩ : Preloaded).st := hs.plain (.inl rfl) (.inl rfl) (.inl rfl) (.inr (hk.bit rfl)) (.inl rfl) (.inl rfl) (.inl rfl) (.inl rfl) (.inl rfl) (.inl rfl) (.inl rfl) (.inl rfl) (.inl rfl) (.inl rfl) (.inl rfl) (.inl rfl)
  generalize (⟨{ s with top := { s.top with resetting := false } }, none, false, none⟩ : Preloaded) = u at h
  induction l generalizing u with
  | nil => exact h
  | cons x l ih => exact ih _ (Moves.preStep h)

theorem Ends.execVerifyDone {s : State} (hk : Sub 0xFFFFFFD9E K := by first | assumption | exact Sub.mono (by assumption) rfl) : Ends K s (Sys2Proof.Machine.execVerifyDone s) := by
  have h : Moves K s s := Moves.refl s
  unfold Sys2Proof.Machine.execVerifyDone
  repeat' first | with_reducible assumption | ((with_reducible refine Sub.mono hk ?_); rfl) | with_reducible exact Moves.next ‹_› | with_reducible apply Moves.next | with_reducible apply Ends.ite | with_reducible exact Ends.refused | with_reducible refine Moves.bankCheck ?_ ?_ | with_reducible refine Moves.verifyFails ?_ ?_ | with_reducible refine Moves.setf ?_ ?_ | with_reducible refine Moves.verifyServed ?_ ?_ | with_reducible refine Moves.fabDone ?_ ?_ | with_reducible apply Moves.ite | with_reducible intro _ _ _ _ _ | with_reducible intro _ _ _ | with_reducible intro _ _ | extract_lets | split

theorem Ends.execLoadSlotDone {bad : List (Nat × List Nat)} {s : State} (hk : Sub 0xFFFFFFD9E K := by first | assumption | exact Sub.mono (by assumption) rfl) : Ends K s (Sys2Proof.Machine.execLoadSlotDone bad s) := by
  have h : Moves K s s := Moves.refl s
  unfold Sys2Proof.Machine.execLoadSlotDone
  repeat' first | with_reducible assumption | ((with_reducible refine Sub.mono hk ?_); rfl) | with_reducible exact Moves.next ‹_› | with_reducible apply Moves.next | with_reducible apply Ends.ite | with_reducible exact Ends.refused | with_reducible refine Moves.blocksBad ?_ ?_ | with_reducible refine Moves.verifyFails ?_ ?_ | with_reducible refine Moves.setf ?_ ?_ | with_reducible refine Moves.copySlot ?_ ?_ | with_reducible refine Moves.verifyServed ?_ ?_ | with_reducible refine Moves.fabDone ?_ ?_ | with_reducible apply Moves.ite | with_reducible intro _ _ _ _ _ | with_reducible intro _ _ _ | with_reducible intro _ _ | extract_lets | split

theorem Moves.ownFuses {h : List Byte} {stage : OwnStage} {s0 s : State} (hs : Moves K s0 s) (hk : Sub 0xFFFFFFD9E K := by first | assumption | exact Sub.mono (by assumption) rfl) : Moves K s0 (State.ownFuses s h stage) := by
  unfold State.ownFuses
  repeat' first | with_reducible assumption | ((with_reducible refine Sub.mono hk ?_); rfl) | with_reducible refine Moves.fuseDone ?_ ?_ | with_reducible refine Moves.secDone ?_ ?_ | with_reducible refine Moves.mboxEmpty ?_ ?_ | with_reducible refine Moves.setf ?_ ?_ | with_reducible refine Moves.fuseError ?_ ?_ | with_reducible refine Moves.took ?_ ?_ | with_reducible apply Moves.ite | with_reducible intro _ _ _ _ _ | with_reducible intro _ _ _ | with_reducible intro _ _ | extract_lets | split | dsimp +zetaDelta only

theorem Moves.ownJudged {o : SecOp} {stage : OwnStage} {s0 s : State} (hs : Moves K s0 s) (hk : Sub 0xFFFFFFD9E K := by first | assumption | exact Sub.mono (by assumption) rfl) : Moves K s0 (State.ownJudged s o stage) := by
  unfold State.ownJudged
  repeat' first | with_reducible assumption | ((with_reducible refine Sub.mono hk ?_); rfl) | with_reducible refine Moves.bankCheck ?_ ?_ | with_reducible refine Moves.secDone ?_ ?_ | with_reducible refine Moves.setf ?_ ?_ | with_reducible refine Moves.verifyFails ?_ ?_ | with_reducible refine Moves.ownFuses ?_ ?_ | with_reducible refine Moves.fuseBegin ?_ ?_ | with_reducible apply Moves.ite | with_reducible intro _ _ _ _ _ | with_reducible intro _ _ _ | with_reducible intro _ _ | extract_lets | split | dsimp +zetaDelta only

theorem Ends.execTakeOwnershipDone {stage : OwnStage} {s : State} (hk : Sub 0xFFFFFFD9E K := by first | assumption | exact Sub.mono (by assumption) rfl) : Ends K s (Sys2Proof.Machine.execTakeOwnershipDone stage s) := by
  have h : Moves K s s := Moves.refl s
  unfold Sys2Proof.Machine.execTakeOwnershipDone
  repeat' first | with_reducible assumption | ((with_reducible refine Sub.mono hk ?_); rfl) | with_reducible exact Moves.next ‹_› | with_reducible apply Moves.next | with_reducible apply Ends.ite | with_reducible exact Ends.refused | with_reducible refine Moves.ownFuses ?_ ?_ | with_reducible refine Moves.ownJudged ?_ ?_ | with_reducible apply Moves.ite | with_reducible intro _ _ _ _ _ | with_reducible intro _ _ _ | with_reducible intro _ _ | extract_lets | split

theorem Moves.landScratchpads {old : Option Image} {i : Image} {s0 s : State} (hs : Moves K s0 s) (hk : Sub 0x18 K := by first | assumption | exact Sub.mono (by assumption) rfl) : Moves K s0 (State.landScratchpads s old i) := by
  unfold State.landScratchpads
  repeat' first | with_reducible assumption | with_reducible refine Moves.forN ?_ ?_ | with_reducible refine Moves.zeroSp ?_ ?_ | with_reducible apply Moves.ite | with_reducible intro _ _ _ _ _ | with_reducible intro _ _ _

theorem Moves.blankEngine {e : Nat} {s0 s : State} (h : Moves K s0 s) (hk : Sub 0x181C K := by first | assumption | exact Sub.mono (by assumption) rfl) : Moves K s0 (s.blankEngine e) :=
  (h.fillRegion (rising_emptyHistory e)).mirrorEngine

theorem Moves.moveFenced {i : Image} {e : Nat} {s0 s : State} (hs : Moves K s0 s) (hk : Sub 0xFFFFFFD9E K := by first | assumption | exact Sub.mono (by assumption) rfl) : Moves K s0 (State.moveFenced s i e) := by
  unfold State.moveFenced
  repeat' first | with_reducible assumption | ((with_reducible refine Sub.mono hk ?_); rfl) | with_reducible refine Moves.endCopy ?_ ?_ | with_reducible refine Moves.moveTo ?_ ?_ | with_reducible refine Moves.strand ?_ ?_ | with_reducible apply Moves.ite | with_reducible intro _ _ _ _ _ | with_reducible intro _ _ _ | with_reducible intro _ _ | extract_lets | split

theorem Moves.testFenced {i : Image} {e : Nat} {s0 s : State} (hs : Moves K s0 s) (hk : Sub 0xFFFFFFD9E K := by first | assumption | exact Sub.mono (by assumption) rfl) : Moves K s0 (State.testFenced s i e) := by
  unfold State.testFenced
  repeat' first | with_reducible assumption | ((with_reducible refine Sub.mono hk ?_); rfl) | with_reducible refine Moves.testEnds ?_ ?_ | with_reducible refine Moves.took ?_ ?_ | with_reducible apply Moves.ite | with_reducible intro _ _ _ _ _ | with_reducible intro _ _ _ | with_reducible intro _ _ | extract_lets | split

theorem Moves.placeLoop {l : Nat} {s0 s : State} (hs : Moves K s0 s) (hk : Sub 0x620181C K := by first | assumption | exact Sub.mono (by assumption) rfl) : Moves K s0 (State.placeLoop s l) := by
  unfold State.placeLoop
  repeat' first | with_reducible assumption | ((with_reducible refine Sub.mono hk ?_); rfl) | with_reducible refine Moves.setEngine ?_ ?_ | with_reducible refine Moves.blankEngine ?_ ?_ | with_reducible refine Moves.strand ?_ ?_ | with_reducible apply Moves.ite | with_reducible intro _ _ _ _ _ | with_reducible intro _ _ _ | with_reducible intro _ _ | extract_lets | split

theorem Moves.landEngines {i : Image} {s0 s : State} (hs : Moves K s0 s) (hk : Sub 0xFFFFFFD9E K := by first | assumption | exact Sub.mono (by assumption) rfl) : Moves K s0 (State.landEngines s i) := by
  unfold State.landEngines
  repeat' first | with_reducible assumption | ((with_reducible refine Sub.mono hk ?_); rfl) | with_reducible refine Moves.forN ?_ ?_ | with_reducible refine Moves.moveFenced ?_ ?_ | with_reducible refine Moves.testFenced ?_ ?_ | with_reducible refine Moves.toPontoon ?_ ?_ | with_reducible refine Moves.placeLoop ?_ ?_ | with_reducible apply Moves.ite | with_reducible intro _ _ _ _ _ | with_reducible intro _ _ _ | with_reducible intro _ _ | extract_lets | split

theorem Moves.tellLostStep {l : Nat} {s0 s : State} (hs : Moves K s0 s) (hk : Sub 0x2011004 K := by first | assumption | exact Sub.mono (by assumption) rfl) : Moves K s0 (State.tellLostStep s l) := by
  unfold State.tellLostStep
  repeat' first | with_reducible assumption | ((with_reducible refine Sub.mono hk ?_); rfl) | with_reducible refine Moves.ev ?_ ?_ | with_reducible refine Moves.logDev ?_ ?_ | with_reducible refine Moves.modLoop ?_ ?_ | with_reducible apply Moves.ite | fail_if_no_progress (with_reducible refine Moves.plain ?_ ?_ ?_ ?_ ?_ ?_ ?_ ?_ ?_ ?_ ?_ ?_ ?_ ?_ ?_ ?_ ?_ <;> first | ((with_reducible refine Or.inr (Sub.bit hk ?_)); decide) | with_reducible exact Or.inl rfl | skip) | fail_if_no_progress (with_reducible refine Moves.plainNv ?_ rfl rfl rfl ?_ ?_ ?_ ?_ ?_ ?_ ?_ ?_ ?_ ?_ ?_ ?_ ?_ ?_ ?_ ?_ ?_ <;> first | ((with_reducible refine Or.inr (Sub.bit hk ?_)); decide) | with_reducible exact Or.inl rfl | skip) | with_reducible intro _ _ _ _ _ | with_reducible intro _ _ _ | with_reducible intro _ _ | extract_lets | split

theorem Moves.resumeLoop {r : LoopRec} {e : Nat} {k : Checkpoint} {s0 s : State} (hs : Moves K s0 s) (hk : Sub 0x6011004 K := by first | assumption | exact Sub.mono (by assumption) rfl) : Moves K s0 (State.resumeLoop s r e k) := by
  unfold State.resumeLoop
  repeat' first | with_reducible assumption | ((with_reducible refine Sub.mono hk ?_); rfl) | with_reducible refine Moves.modLoop ?_ ?_ | with_reducible refine Moves.tellLostStep ?_ ?_ | with_reducible refine Moves.setf ?_ ?_ | with_reducible refine Moves.showModel ?_ ?_ | with_reducible refine Moves.loadModels ?_ ?_ | with_reducible refine Moves.modHo ?_ ?_ | with_reducible refine Moves.setw ?_ ?_ | with_reducible apply Moves.ite | with_reducible intro _ _ _ _ _ | with_reducible intro _ _ _ | with_reducible intro _ _ | extract_lets | split

theorem Moves.freshLoop {cold : Bool} {r : LoopRec} {c : LoopCore} {s0 s : State} (hs : Moves K s0 s) (hk : Sub 0x601181C K := by first | assumption | exact Sub.mono (by assumption) rfl) : Moves K s0 (State.freshLoop s cold r c) := by
  unfold State.freshLoop
  repeat' first | with_reducible assumption | ((with_reducible refine Sub.mono hk ?_); rfl) | with_reducible refine Moves.tellLostStep ?_ ?_ | with_reducible refine Moves.modHo ?_ ?_ | with_reducible refine Moves.modLoop ?_ ?_ | with_reducible refine Moves.setw ?_ ?_ | with_reducible refine Moves.setf ?_ ?_ | with_reducible refine Moves.blankEngine ?_ ?_ | with_reducible apply Moves.ite | with_reducible intro _ _ _ _ _ | with_reducible intro _ _ _ | with_reducible intro _ _ | extract_lets | split | dsimp +zetaDelta only

theorem Moves.landLoops {old : Option Image} {i : Image} {cores : List LoopCore} {s0 s : State} (hs : Moves K s0 s) (hk : Sub 0xFFFFFFD9E K := by first | assumption | exact Sub.mono (by assumption) rfl) : Moves K s0 (State.landLoops s old i cores) := by
  unfold State.landLoops
  repeat' first | with_reducible assumption | ((with_reducible refine Sub.mono hk ?_); rfl) | with_reducible refine Moves.forN ?_ ?_ | with_reducible refine Moves.modHo ?_ ?_ | with_reducible refine Moves.modLoop ?_ ?_ | with_reducible refine Moves.forL ?_ ?_ | with_reducible refine Moves.resumeLoop ?_ ?_ | with_reducible refine Moves.freshLoop ?_ ?_ | with_reducible refine Moves.report ?_ ?_ | with_reducible refine Moves.freezeLoop ?_ ?_ | with_reducible apply Moves.ite | with_reducible intro _ _ _ _ _ | with_reducible intro _ _ _ | with_reducible intro _ _ | extract_lets | split | dsimp +zetaDelta only

theorem Moves.landSynth {i : Image} {n : Nat} {s0 s : State} (hs : Moves K s0 s) (hk : Sub 0x8001006 K := by first | assumption | exact Sub.mono (by assumption) rfl) : Moves K s0 (State.landSynth s i n) := by
  unfold State.landSynth
  repeat' first | with_reducible assumption | ((with_reducible refine Sub.mono hk ?_); rfl) | with_reducible refine Moves.setw ?_ ?_ | with_reducible refine Moves.modApl ?_ ?_ | with_reducible refine Moves.startSynth ?_ ?_ | with_reducible refine Moves.setNom ?_ ?_ | with_reducible refine Moves.setb ?_ ?_ | with_reducible refine Moves.startRamp ?_ ?_ | with_reducible apply Moves.ite | with_reducible intro _ _ _ _ _ | with_reducible intro _ _ _ | with_reducible intro _ _ | extract_lets | split

theorem Moves.imageDivider {i : Image} {r : OutputRec} {s0 s : State} (hs : Moves K s0 s) (hk : Sub 0x10000004 K := by first | assumption | exact Sub.mono (by assumption) rfl) : Moves K s0 (State.imageDivider s i r) := by
  unfold State.imageDivider
  repeat' first | with_reducible assumption | ((with_reducible refine Sub.mono hk ?_); rfl) | with_reducible refine Moves.refreshMode ?_ ?_ | with_reducible refine Moves.setDivider ?_ ?_ | with_reducible apply Moves.ite

theorem Moves.freshOutput {i : Image} {r : OutputRec} {align : Bool} {s0 s : State} (hs : Moves K s0 s) (hk : Sub 0x10011004 K := by first | assumption | exact Sub.mono (by assumption) rfl) : Moves K s0 (State.freshOutput s i r align) := by
  unfold State.freshOutput
  repeat' first | with_reducible assumption | ((with_reducible refine Sub.mono hk ?_); rfl) | with_reducible refine Moves.stopOut ?_ ?_ | with_reducible refine Moves.modOut ?_ ?_ | with_reducible refine Moves.forL ?_ ?_ | with_reducible refine Moves.setw ?_ ?_ | with_reducible refine Moves.imageDivider ?_ ?_ | with_reducible refine Moves.setf ?_ ?_ | with_reducible refine Moves.enableOut ?_ ?_ | with_reducible apply Moves.ite | with_reducible intro _ _ _ _ _ | with_reducible intro _ _ _ | with_reducible intro _ _ | extract_lets | split

theorem Moves.landOutput {old : Option Image} {i : Image} {m : Nat} {s0 s : State} (hs : Moves K s0 s) (hk : Sub 0x10011004 K := by first | assumption | exact Sub.mono (by assumption) rfl) : Moves K s0 (State.landOutput s old i m) := by
  unfold State.landOutput
  repeat' first | with_reducible assumption | ((with_reducible refine Sub.mono hk ?_); rfl) | with_reducible refine Moves.modOut ?_ ?_ | with_reducible refine Moves.setw ?_ ?_ | with_reducible refine Moves.setf ?_ ?_ | with_reducible refine Moves.freshOutput ?_ ?_ | with_reducible refine Moves.logDev ?_ ?_ | with_reducible refine Moves.imageDivider ?_ ?_ | with_reducible refine Moves.refreshOut ?_ ?_ | with_reducible refine Moves.when ?_ ?_ | with_reducible apply Moves.ite | fail_if_no_progress (with_reducible refine Moves.plain ?_ ?_ ?_ ?_ ?_ ?_ ?_ ?_ ?_ ?_ ?_ ?_ ?_ ?_ ?_ ?_ ?_ <;> first | ((with_reducible refine Or.inr (Sub.bit hk ?_)); decide) | with_reducible exact Or.inl rfl | skip) | fail_if_no_progress (with_reducible refine Moves.plainNv ?_ rfl rfl rfl ?_ ?_ ?_ ?_ ?_ ?_ ?_ ?_ ?_ ?_ ?_ ?_ ?_ ?_ ?_ ?_ ?_ <;> first | ((with_reducible refine Or.inr (Sub.bit hk ?_)); decide) | with_reducible exact Or.inl rfl | skip) | with_reducible intro _ _ _ _ _ | with_reducible intro _ _ _ | with_reducible intro _ _ | extract_lets | split

theorem Moves.landClocks {old : Option Image} {i : Image} {s0 s : State} (hs : Moves K s0 s) (hk : Sub 0x18011006 K := by first | assumption | exact Sub.mono (by assumption) rfl) : Moves K s0 (State.landClocks s old i) := by
  unfold State.landClocks
  repeat' first | with_reducible assumption | ((with_reducible refine Sub.mono hk ?_); rfl) | with_reducible refine Moves.forN ?_ ?_ | with_reducible refine Moves.landSynth ?_ ?_ | with_reducible refine Moves.landOutput ?_ ?_ | with_reducible refine Moves.refreshSynth ?_ ?_ | with_reducible apply Moves.ite | with_reducible intro _ _ _ _ _ | with_reducible intro _ _ _

theorem Moves.landPort {old : Option Image} {i : Image} {n : Nat} {s0 s : State} (hs : Moves K s0 s) (hk : Sub 0x100481006 K := by first | assumption | exact Sub.mono (by assumption) rfl) : Moves K s0 (State.landPort s old i n) := by
  unfold State.landPort
  repeat' first | with_reducible assumption | ((with_reducible refine Sub.mono hk ?_); rfl) | with_reducible refine Moves.modPrt ?_ ?_ | with_reducible refine Moves.setEq ?_ ?_ | with_reducible refine Moves.setw ?_ ?_ | with_reducible refine Moves.portUp ?_ ?_ | with_reducible refine Moves.lockUp ?_ ?_ | with_reducible apply Moves.ite | with_reducible intro _ _ _ _ _ | with_reducible intro _ _ _ | with_reducible intro _ _ | extract_lets | split

theorem Moves.landXlk {i : Image} {s0 s : State} (hs : Moves K s0 s) (hk : Sub 0x501004 K := by first | assumption | exact Sub.mono (by assumption) rfl) : Moves K s0 (State.landXlk s i) := by
  unfold State.landXlk
  repeat' first | with_reducible assumption | ((with_reducible refine Sub.mono hk ?_); rfl) | with_reducible refine Moves.modXlk ?_ ?_ | with_reducible refine Moves.laneSettle ?_ ?_ | with_reducible refine Moves.ev ?_ ?_ | with_reducible refine Moves.setf ?_ ?_ | with_reducible apply Moves.ite | with_reducible intro _ _ _ _ _ | with_reducible intro _ _ _ | with_reducible intro _ _ | extract_lets | split

theorem Moves.landSelectors {s0 s : State} (hs : Moves K s0 s) (hk : Sub 0x1001004 K := by first | assumption | exact Sub.mono (by assumption) rfl) : Moves K s0 (State.landSelectors s) := by
  unfold State.landSelectors
  repeat' first | with_reducible assumption | ((with_reducible refine Sub.mono hk ?_); rfl) | with_reducible refine Moves.forL ?_ ?_ | with_reducible refine Moves.forN ?_ ?_ | with_reducible refine Moves.freshEntry ?_ ?_ | with_reducible refine Moves.setf ?_ ?_ | with_reducible refine Moves.setFault ?_ ?_ | with_reducible refine Moves.refreshSel ?_ ?_ | with_reducible refine Moves.refreshTrace ?_ ?_ | with_reducible apply Moves.ite | with_reducible intro _ _ _ _ _ | with_reducible intro _ _ _

theorem Moves.landKeys {i : Image} {s0 s : State} (hs : Moves K s0 s) (hk : Sub 0x40004 K := by first | assumption | exact Sub.mono (by assumption) rfl) : Moves K s0 (State.landKeys s i) := by
  unfold State.landKeys
  repeat' first | with_reducible assumption | ((with_reducible refine Sub.mono hk ?_); rfl) | with_reducible refine Moves.setb ?_ ?_ | with_reducible refine Moves.forN ?_ ?_ | with_reducible refine Moves.setSpp ?_ ?_ | with_reducible apply Moves.ite | fail_if_no_progress (with_reducible refine Moves.plain ?_ ?_ ?_ ?_ ?_ ?_ ?_ ?_ ?_ ?_ ?_ ?_ ?_ ?_ ?_ ?_ ?_ <;> first | ((with_reducible refine Or.inr (Sub.bit hk ?_)); decide) | with_reducible exact Or.inl rfl | skip) | fail_if_no_progress (with_reducible refine Moves.plainNv ?_ rfl rfl rfl ?_ ?_ ?_ ?_ ?_ ?_ ?_ ?_ ?_ ?_ ?_ ?_ ?_ ?_ ?_ ?_ ?_ <;> first | ((with_reducible refine Or.inr (Sub.bit hk ?_)); decide) | with_reducible exact Or.inl rfl | skip) | with_reducible intro _ _ _ _ _ | with_reducible intro _ _ _

theorem Moves.landSlot {k : Nat} {s0 s : State} (hs : Moves K s0 s) (hk : Sub 0x10004 K := by first | assumption | exact Sub.mono (by assumption) rfl) : Moves K s0 (State.landSlot s k) := by
  unfold State.landSlot
  repeat' first | with_reducible assumption | ((with_reducible refine Sub.mono hk ?_); rfl) | with_reducible refine Moves.setf ?_ ?_ | with_reducible refine Moves.commitBoot ?_ ?_ | with_reducible apply Moves.ite

theorem Moves.landed143 {i : Image} {j : LoadJob} {s0 s : State} (hs : Moves K s0 s) (hk : Sub 0x11504 K := by first | assumption | exact Sub.mono (by assumption) rfl) : Moves K s0 (s.landed143 i j) := by
  unfold State.landed143
  repeat' first | with_reducible assumption | with_reducible refine Moves.setf ?_ ?_ | with_reducible refine Moves.setb ?_ ?_ | with_reducible refine Moves.raise ?_ ?_ | with_reducible apply Moves.when | with_reducible intro _ _ | with_reducible refine Moves.landSlot ?_ ?_ | with_reducible apply Moves.forL | with_reducible refine Moves.ev ?_ ?_ | with_reducible refine Moves.logDev ?_ ?_ | with_reducible refine Moves.xlkNotice ?_ ?_ | with_reducible refine Moves.route ?_ ?_ | with_reducible apply Moves.ite | ((with_reducible refine Sub.mono hk ?_); rfl) | ((with_reducible refine Or.inr (Sub.bit hk ?_)); decide) | with_reducible exact Or.inl rfl | fail_if_no_progress with_reducible refine Moves.plain ?_ ?_ ?_ ?_ ?_ ?_ ?_ ?_ ?_ ?_ ?_ ?_ ?_ ?_ ?_ ?_ ?_

theorem Moves.endFerry {s0 s : State} (hs : Moves K s0 s) (hk : Sub 0x201004 K := by first | assumption | exact Sub.mono (by assumption) rfl) : Moves K s0 (State.endFerry s) := by
  unfold State.endFerry
  repeat' first | with_reducible assumption | ((with_reducible refine Sub.mono hk ?_); rfl) | with_reducible refine Moves.setf ?_ ?_ | with_reducible refine Moves.inc ?_ ?_ | with_reducible refine Moves.setb ?_ ?_ | with_reducible refine Moves.ev ?_ ?_ | with_reducible refine Moves.evIf ?_ ?_ | with_reducible apply Moves.ite | fail_if_no_progress (with_reducible refine Moves.plain ?_ ?_ ?_ ?_ ?_ ?_ ?_ ?_ ?_ ?_ ?_ ?_ ?_ ?_ ?_ ?_ ?_ <;> first | ((with_reducible refine Or.inr (Sub.bit hk ?_)); decide) | with_reducible exact Or.inl rfl | skip)

theorem Moves.landImage {i : Image} {j : LoadJob} {s0 s : State} (hs : Moves K s0 s) (hk : Sub 0xFFFFFFF9E K := by first | assumption | exact Sub.mono (by assumption) rfl) : Moves K s0 (State.landImage s i j) := by
  unfold State.landImage
  repeat' first | with_reducible assumption | ((with_reducible refine Sub.mono hk ?_); rfl) | with_reducible refine Moves.dirty ?_ ?_ | with_reducible refine Moves.buildStructure ?_ ?_ | with_reducible refine Moves.landEngines ?_ ?_ | with_reducible refine Moves.landScratchpads ?_ ?_ | with_reducible refine Moves.preload ?_ ?_ | with_reducible refine Moves.landed143 ?_ ?_ | with_reducible refine Moves.nomChanged ?_ ?_ | with_reducible refine Moves.landLoops ?_ ?_ | with_reducible refine Moves.landClocks ?_ ?_ | with_reducible refine Moves.endFerry ?_ ?_ | with_reducible refine Moves.forL ?_ ?_ | with_reducible refine Moves.beginLanding ?_ ?_ | with_reducible refine Moves.landXlk ?_ ?_ | with_reducible refine Moves.forN ?_ ?_ | with_reducible refine Moves.landSelectors ?_ ?_ | with_reducible refine Moves.landPort ?_ ?_ | with_reducible refine Moves.esmcRefresh ?_ ?_ | with_reducible refine Moves.billCheck ?_ ?_ | with_reducible refine Moves.refreshNext ?_ ?_ | with_reducible refine Moves.landKeys ?_ ?_ | with_reducible apply Moves.ite | fail_if_no_progress (with_reducible refine Moves.plain ?_ ?_ ?_ ?_ ?_ ?_ ?_ ?_ ?_ ?_ ?_ ?_ ?_ ?_ ?_ ?_ ?_ <;> first | ((with_reducible refine Or.inr (Sub.bit hk ?_)); decide) | with_reducible exact Or.inl rfl | skip) | with_reducible intro _ _ _ _ _ | with_reducible intro _ _ _ | with_reducible intro _ _ | extract_lets | split

theorem Ends.execImageLanded {s : State} (hk : Sub 0xFFFFFFF9E K := by first | assumption | exact Sub.mono (by assumption) rfl) : Ends K s (Sys2Proof.Machine.execImageLanded s) := by
  have h : Moves K s s := Moves.refl s
  unfold Sys2Proof.Machine.execImageLanded
  repeat' first | with_reducible assumption | ((with_reducible refine Sub.mono hk ?_); rfl) | with_reducible exact Moves.next ‹_› | with_reducible apply Moves.next | with_reducible apply Ends.ite | with_reducible exact Ends.refused | with_reducible refine Moves.bankCheck ?_ ?_ | with_reducible refine Moves.landImage ?_ ?_ | with_reducible apply Moves.ite | with_reducible intro _ _ _ _ _ | with_reducible intro _ _ _ | with_reducible intro _ _ | extract_lets | split

theorem Ends.execLoadFailed {bad : List (Nat × List Nat)} {s : State} (hk : Sub 0xFFFFFFD9E K := by first | assumption | exact Sub.mono (by assumption) rfl) : Ends K s (Sys2Proof.Machine.execLoadFailed bad s) := by
  have h : Moves K s s := Moves.refl s
  unfold Sys2Proof.Machine.execLoadFailed
  repeat' first | with_reducible assumption | ((with_reducible refine Sub.mono hk ?_); rfl) | with_reducible exact Moves.next ‹_› | with_reducible apply Moves.next | with_reducible apply Ends.ite | with_reducible exact Ends.refused | with_reducible refine Moves.bankCheck ?_ ?_ | with_reducible refine Moves.copySlot ?_ ?_ | with_reducible refine Moves.blocksBad ?_ ?_ | with_reducible refine Moves.checkFault ?_ ?_ | with_reducible refine Moves.failLoad ?_ ?_ | with_reducible apply Moves.ite | fail_if_no_progress (with_reducible refine Moves.plain ?_ ?_ ?_ ?_ ?_ ?_ ?_ ?_ ?_ ?_ ?_ ?_ ?_ ?_ ?_ ?_ ?_ <;> first | ((with_reducible refine Or.inr (Sub.bit hk ?_)); decide) | with_reducible exact Or.inl rfl | skip) | fail_if_no_progress (with_reducible refine Moves.plainNv ?_ rfl rfl rfl ?_ ?_ ?_ ?_ ?_ ?_ ?_ ?_ ?_ ?_ ?_ ?_ ?_ ?_ ?_ ?_ ?_ <;> first | ((with_reducible refine Or.inr (Sub.bit hk ?_)); decide) | with_reducible exact Or.inl rfl | skip) | with_reducible intro _ _ _ _ _ | with_reducible intro _ _ _ | with_reducible intro _ _ | extract_lets | split

end Sys2Proof.Machine
end

