-- ==== Sys2Proof/Laws/KeepTick.lean ====
section
/-! SUPPORT. What the operations of Machine/Tick.lean keep: the queue, the canonical form of the tables, and the parts of the state outside those named. -/

set_option Elab.async false

set_option linter.unreachableTactic false
set_option linter.unusedTactic false

namespace Sys2Proof.Machine

variable {K : Nat}

theorem Moves.tickPulse {m : Nat} {s0 s : State} (hs : Moves K s0 s) (hk : Sub 0x10000000 K := by first | assumption | exact Sub.mono (by assumption) rfl) : Moves K s0 (State.tickPulse s m) := by
  unfold State.tickPulse
  repeat' first | with_reducible assumption | ((with_reducible refine Sub.mono hk ?_); rfl) | with_reducible refine Moves.modOut ?_ ?_ | with_reducible apply Moves.ite | with_reducible intro _ _ _ _ _ | with_reducible intro _ _ _ | with_reducible intro _ _ | extract_lets | split

theorem Moves.tickCorridor {n : Nat} {s0 s : State} (hs : Moves K s0 s) (hk : Sub 0x200000000 K := by first | assumption | exact Sub.mono (by assumption) rfl) : Moves K s0 (State.tickCorridor s n) := by
  unfold State.tickCorridor
  repeat' first | with_reducible assumption | with_reducible refine Moves.modPte ?_ ?_

theorem Moves.advance {s0 s : State} (hs : Moves K s0 s) (hk : Sub 0x230000001 K := by first | assumption | exact Sub.mono (by assumption) rfl) : Moves K s0 (State.advance s) := by
  unfold State.advance
  repeat' first | with_reducible assumption | ((with_reducible refine Sub.mono hk ?_); rfl) | with_reducible refine Moves.forN ?_ ?_ | with_reducible refine Moves.tickPulse ?_ ?_ | with_reducible refine Moves.modTsc ?_ ?_ | with_reducible refine Moves.tickCorridor ?_ ?_ | with_reducible apply Moves.ite | fail_if_no_progress (with_reducible refine Moves.plain ?_ ?_ ?_ ?_ ?_ ?_ ?_ ?_ ?_ ?_ ?_ ?_ ?_ ?_ ?_ ?_ ?_ <;> first | ((with_reducible refine Or.inr (Sub.bit hk ?_)); decide) | with_reducible exact Or.inl rfl | skip) | with_reducible intro _ _ _ _ _ | with_reducible intro _ _ _ | with_reducible intro _ _ | extract_lets | split

end Sys2Proof.Machine
end

