-- ==== Sys2Proof/Laws/Parts.lean ====
section
/-! SUPPORT. What a move within a set of parts says of each part. -/

set_option Elab.async false

namespace Sys2Proof.Machine

/-- The bit of a part in a set of parts. -/
def Part.index : Part → Nat
  | .time => 0
  | .freeCount => 1
  | .regs => 2
  | .mem => 3
  | .ecc => 4
  | .scrub => 5
  | .flash => 6
  | .slices => 7
  | .top => 8
  | .pwr => 9
  | .fab => 10
  | .flt => 11
  | .intr => 12
  | .cfg => 13
  | .hostA => 14
  | .hostB => 15
  | .nv => 16
  | .flm => 17
  | .sec => 18
  | .man => 19
  | .xlk => 20
  | .eng => 21
  | .lnd => 22
  | .sel => 23
  | .ent => 24
  | .loop => 25
  | .ho => 26
  | .apl => 27
  | .out => 28
  | .tsc => 29
  | .tod => 30
  | .tasks => 31
  | .prt => 32
  | .pte => 33
  | .berth => 34
  | .gens => 35

/-- A move leaves every part outside its set. -/
theorem Moves.same {K : Nat} {s t : State} (h : Moves K s t) (q : Part) (e : K.testBit q.index = false) : s.same t q := by
  cases q with
  | time => exact h.p0 e
  | freeCount => exact h.p1 e
  | regs => exact h.p2 e
  | mem => exact h.p3 e
  | ecc => exact h.p4 e
  | scrub => exact h.p5 e
  | flash => exact h.p6 e
  | slices => exact h.p7 e
  | top => exact h.p8 e
  | pwr => exact h.p9 e
  | fab => exact h.p10 e
  | flt => exact h.p11 e
  | intr => exact h.p12 e
  | cfg => exact h.p13 e
  | hostA => exact h.p14 e
  | hostB => exact h.p15 e
  | nv => exact h.p16 e
  | flm => exact h.p17 e
  | sec => exact h.p18 e
  | man => exact h.p19 e
  | xlk => exact h.p20 e
  | eng => exact h.p21 e
  | lnd => exact h.p22 e
  | sel => exact h.p23 e
  | ent => exact h.p24 e
  | loop => exact h.p25 e
  | ho => exact h.p26 e
  | apl => exact h.p27 e
  | out => exact h.p28 e
  | tsc => exact h.p29 e
  | tod => exact h.p30 e
  | tasks => exact h.p31 e
  | prt => exact h.p32 e
  | pte => exact h.p33 e
  | berth => exact h.p34 e
  | gens => exact h.p35 e

/-- The set of the parts of a list. -/
def Part.mask (l : List Part) : Nat := l.foldr (fun p m => 2 ^ p.index ||| m) 0

theorem Part.mask_other {l : List Part} {q : Part} (h : q ∉ l) : (Part.mask l).testBit q.index = false := by
  have inj : ∀ a b : Part, a.index = b.index → a = b := by intro a b; cases a <;> cases b <;> first | exact fun _ => rfl | (intro h; cases h)
  induction l with
  | nil => exact Nat.zero_testBit _
  | cons a l ih =>
    have h1 := List.ne_of_not_mem_cons h
    have h2 := ih (List.not_mem_of_not_mem_cons h)
    show (2 ^ a.index ||| Part.mask l).testBit q.index = false
    rw [Nat.testBit_or, h2, Nat.testBit_two_pow, Bool.or_false]
    exact decide_eq_false (fun e => h1 (inj _ _ e.symm))

/-- An outcome that moves within a set leaves every part outside it. -/
theorem Ends.same {K : Nat} {s t : State} {o : Host.Outcome State Fault Refusal} (h : Ends K s o) (e : o = .next t) {l : List Part}
    (hl : Part.mask l = K) (q : Part) (hq : q ∉ l) : s.same t q :=
  (h t e).same q (by rw [← hl]; exact Part.mask_other hq)

end Sys2Proof.Machine
end

