-- ==== Sys2Proof/Laws/Regs.lean ====
section
/-! SUPPORT. What a register or a field reads as after the shared operations that write registers. -/

set_option Elab.async false

namespace Sys2Proof.Machine

variable (s : State)

/-! Words. -/

theorem State.w_lt (k : Nat) : s.w k < 2 ^ 32 := (Tab.get regDefault s.regs k).isLt

/-- A register reads as the word last written to it; a write leaves every other register. -/
theorem State.w_setw (k v j : Nat) : (s.setw k v).w j = if j = k then v % 2 ^ 32 else s.w j := by
  unfold State.w State.setw
  dsimp only
  rw [Tab.get_set]
  split
  · exact BitVec.toNat_ofNat _ _
  · rfl

theorem State.w_setw_self (k v : Nat) : (s.setw k v).w k = v % 2 ^ 32 := by rw [State.w_setw, if_pos rfl]

theorem State.w_setw_other (k v : Nat) {j : Nat} (h : j ≠ k) : (s.setw k v).w j = s.w j := by
  rw [State.w_setw, if_neg h]

/-! Fields. -/

/-- A word with a field replaced is its part below the field, the new content, and its part above. -/
theorem Fld.put_eq (x : Fld) (w v : Nat) :
    x.put w v = w % 2 ^ x.lo + v % 2 ^ x.width * 2 ^ x.lo + w / 2 ^ (x.lo + x.width) * 2 ^ (x.lo + x.width) := by
  unfold Fld.put
  have h1 := Nat.div_add_mod w (2 ^ x.lo)
  have h2 := Nat.div_add_mod (w / 2 ^ x.lo) (2 ^ x.width)
  rw [Nat.div_div_eq_div_mul, ← pow_add] at h2
  have h3 : 2 ^ (x.lo + x.width) = 2 ^ x.lo * 2 ^ x.width := pow_add ..
  have h4 : w = w % 2 ^ x.lo + w / 2 ^ x.lo % 2 ^ x.width * 2 ^ x.lo
      + w / 2 ^ (x.lo + x.width) * 2 ^ (x.lo + x.width) := by
    calc w = 2 ^ x.lo * (w / 2 ^ x.lo) + w % 2 ^ x.lo := h1.symm
      _ = 2 ^ x.lo * (2 ^ x.width * (w / 2 ^ (x.lo + x.width)) + w / 2 ^ x.lo % 2 ^ x.width) + w % 2 ^ x.lo := by rw [h2]
      _ = _ := by rw [h3]; ring
  omega

theorem Fld.put_lt (x : Fld) {w v : Nat} (hx : x.lo + x.width ≤ 32) (hw : w < 2 ^ 32) : x.put w v < 2 ^ 32 := by
  rw [Fld.put_eq]
  have h1 : w % 2 ^ x.lo < 2 ^ x.lo := Nat.mod_lt _ (by positivity)
  have h2 : v % 2 ^ x.width < 2 ^ x.width := Nat.mod_lt _ (by positivity)
  have h3 : w / 2 ^ (x.lo + x.width) < 2 ^ (32 - (x.lo + x.width)) := by
    rw [Nat.div_lt_iff_lt_mul (by positivity), ← pow_add, Nat.sub_add_cancel hx]; exact hw
  have h4 : 2 ^ (x.lo + x.width) = 2 ^ x.lo * 2 ^ x.width := pow_add ..
  have h5 : (2 : Nat) ^ 32 = 2 ^ (32 - (x.lo + x.width)) * 2 ^ (x.lo + x.width) := by
    rw [← pow_add, Nat.sub_add_cancel hx]
  have h6 : w % 2 ^ x.lo + v % 2 ^ x.width * 2 ^ x.lo < 2 ^ (x.lo + x.width) := by
    rw [h4]
    have : (v % 2 ^ x.width + 1) * 2 ^ x.lo ≤ 2 ^ x.width * 2 ^ x.lo := Nat.mul_le_mul_right _ h2
    calc _ < 2 ^ x.lo + v % 2 ^ x.width * 2 ^ x.lo := by omega
      _ = (v % 2 ^ x.width + 1) * 2 ^ x.lo := by ring
      _ ≤ _ := by rw [Nat.mul_comm (2 ^ x.lo)]; exact this
  rw [h5]
  have : (w / 2 ^ (x.lo + x.width) + 1) * 2 ^ (x.lo + x.width) ≤ 2 ^ (32 - (x.lo + x.width)) * 2 ^ (x.lo + x.width) :=
    Nat.mul_le_mul_right _ h3
  have e : (w / 2 ^ (x.lo + x.width) + 1) * 2 ^ (x.lo + x.width) =
      w / 2 ^ (x.lo + x.width) * 2 ^ (x.lo + x.width) + 2 ^ (x.lo + x.width) := by ring
  omega

/-- A field holds what was put into it. -/
theorem Fld.get_put (x : Fld) (w v : Nat) : x.put w v / 2 ^ x.lo % 2 ^ x.width = v % 2 ^ x.width := by
  rw [Fld.put_eq]
  have h1 : w % 2 ^ x.lo < 2 ^ x.lo := Nat.mod_lt _ (by positivity)
  have h4 : 2 ^ (x.lo + x.width) = 2 ^ x.width * 2 ^ x.lo := by rw [pow_add, Nat.mul_comm]
  have : w % 2 ^ x.lo + v % 2 ^ x.width * 2 ^ x.lo + w / 2 ^ (x.lo + x.width) * 2 ^ (x.lo + x.width) =
      w % 2 ^ x.lo + (v % 2 ^ x.width + w / 2 ^ (x.lo + x.width) * 2 ^ x.width) * 2 ^ x.lo := by rw [h4]; ring
  rw [this, Nat.add_mul_div_right _ _ (by positivity), Nat.div_eq_of_lt h1, Nat.zero_add, Nat.add_mul_mod_self_right,
    Nat.mod_mod]

/-- Another field of the word keeps its content. -/
theorem Fld.get_put_other (x y : Fld) (w v : Nat) (h : y.lo + y.width ≤ x.lo ∨ x.lo + x.width ≤ y.lo) :
    x.put w v / 2 ^ y.lo % 2 ^ y.width = w / 2 ^ y.lo % 2 ^ y.width := by
  rw [Fld.put_eq]
  have h1 : w % 2 ^ x.lo < 2 ^ x.lo := Nat.mod_lt _ (by positivity)
  have h2 : v % 2 ^ x.width < 2 ^ x.width := Nat.mod_lt _ (by positivity)
  rcases h with h | h
  · obtain ⟨d, hd⟩ := Nat.exists_eq_add_of_le h
    have e : ∀ u r, u + r * 2 ^ x.lo = u + r * 2 ^ d * 2 ^ y.width * 2 ^ y.lo := by
      intro u r; rw [hd]; ring
    have h3 : 2 ^ (x.lo + x.width) = 2 ^ x.width * 2 ^ x.lo := by rw [pow_add, Nat.mul_comm]
    have e2 : w % 2 ^ x.lo + v % 2 ^ x.width * 2 ^ x.lo + w / 2 ^ (x.lo + x.width) * 2 ^ (x.lo + x.width) =
        w % 2 ^ x.lo + (v % 2 ^ x.width + w / 2 ^ (x.lo + x.width) * 2 ^ x.width) * 2 ^ x.lo := by rw [h3]; ring
    have e3 : w = w % 2 ^ x.lo + w / 2 ^ x.lo * 2 ^ x.lo := by
      have := Nat.div_add_mod w (2 ^ x.lo); rw [Nat.mul_comm] at this; omega
    rw [e2, e]
    conv_rhs => rw [e3, e]
    rw [Nat.add_mul_div_right _ _ (by positivity), Nat.add_mul_div_right _ _ (by positivity),
      Nat.add_mul_mod_self_right, Nat.add_mul_mod_self_right]
  · obtain ⟨d, hd⟩ := Nat.exists_eq_add_of_le h
    have h3 : 2 ^ (x.lo + x.width) = 2 ^ x.lo * 2 ^ x.width := pow_add ..
    have h6 : w % 2 ^ x.lo + v % 2 ^ x.width * 2 ^ x.lo < 2 ^ (x.lo + x.width) := by
      rw [h3]
      have : (v % 2 ^ x.width + 1) * 2 ^ x.lo ≤ 2 ^ x.width * 2 ^ x.lo := Nat.mul_le_mul_right _ h2
      calc _ < 2 ^ x.lo + v % 2 ^ x.width * 2 ^ x.lo := by omega
        _ = (v % 2 ^ x.width + 1) * 2 ^ x.lo := by ring
        _ ≤ _ := by rw [Nat.mul_comm (2 ^ x.lo)]; exact this
    have h7 : 2 ^ (x.lo + x.width + d) = 2 ^ (x.lo + x.width) * 2 ^ d := pow_add ..
    rw [hd, h7, ← Nat.div_div_eq_div_mul, ← Nat.div_div_eq_div_mul,
      Nat.add_mul_div_right _ _ (by positivity), Nat.div_eq_of_lt h6, Nat.zero_add]

/-- A field that lies in its word holds what is written to it. -/
theorem State.f_setf (x : Fld) (v : Nat) (hx : x.lo + x.width ≤ 32) : (s.setf x v).f x = v % 2 ^ x.width := by
  unfold State.f State.setf
  rw [State.w_setw_self, Nat.mod_eq_of_lt (Fld.put_lt x hx (s.w_lt _)), Fld.get_put]

/-- A write to a field leaves the fields of other registers. -/
theorem State.f_setf_key (x y : Fld) (v : Nat) (h : y.key ≠ x.key) : (s.setf x v).f y = s.f y := by
  unfold State.f State.setf
  rw [State.w_setw_other s _ _ h]

/-- A write to a field leaves the other fields of its register. -/
theorem State.f_setf_bits (x y : Fld) (v : Nat) (hx : x.lo + x.width ≤ 32)
    (h : y.lo + y.width ≤ x.lo ∨ x.lo + x.width ≤ y.lo) : (s.setf x v).f y = s.f y := by
  by_cases hk : y.key = x.key
  · unfold State.f State.setf
    rw [hk, State.w_setw_self, Nat.mod_eq_of_lt (Fld.put_lt x hx (s.w_lt _)), Fld.get_put_other x y _ _ h]
  · exact s.f_setf_key x y v hk

theorem State.w_setf_other (x : Fld) (v : Nat) {j : Nat} (h : j ≠ x.key) : (s.setf x v).w j = s.w j :=
  s.w_setw_other _ _ h

theorem State.f_setw_other (k v : Nat) (y : Fld) (h : y.key ≠ k) : (s.setw k v).f y = s.f y := by
  unfold State.f; rw [State.w_setw_other s _ _ h]

theorem State.f_of_w {t : State} (x : Fld) (h : t.w x.key = s.w x.key) : t.f x = s.f x := by
  unfold State.f; rw [h]

theorem State.on_of_f {t : State} (x : Fld) (h : t.f x = s.f x) : t.on x = s.on x := by
  unfold State.on; rw [h]

theorem State.w_congr {t : State} (h : t.regs = s.regs) (k : Nat) : t.w k = s.w k := by unfold State.w; rw [h]

theorem State.f_congr {t : State} (h : t.regs = s.regs) (x : Fld) : t.f x = s.f x := s.f_of_w x (s.w_congr h _)

/-! Sticky bits and interrupt sources. -/

/-- The registers that raising an interrupt source may write: those of the INTR block and the pending-bit array of MSI-X. -/
def intrKey (k : Nat) : Bool := k / 0x10000 % 0x100 == 2 || (decide (0x13800 ≤ k) && decide (k < 0x13810))

theorem State.w_message_other (v : Nat) {j : Nat} (h : j ≠ msixPba v) : (s.message v).w j = s.w j := by
  unfold State.message
  split
  · exact s.w_setf_other _ _ h
  · rfl

theorem State.w_dueMessage_other (n : Nat) {j : Nat} (h : intrKey j = false) : (s.dueMessage n).w j = s.w j := by
  unfold State.dueMessage
  split
  · rename_i hd
    refine s.w_message_other _ ?_
    rintro rfl
    simp only [Bool.and_eq_true, decide_eq_true_eq] at hd
    have : s.destA n / 32 < 2 := by have := hd.2; omega
    have h2 := (Bool.or_eq_false_iff.1 h).2
    rw [Bool.and_eq_false_imp] at h2
    have h3 := h2 (decide_eq_true (by unfold msixPba; omega))
    rw [decide_eq_false_iff_not] at h3
    unfold msixPba at h3
    omega
  · rfl

/-- Raising a source writes no register outside the INTR block and the pending-bit array of MSI-X. -/
theorem State.w_raise_other {n : Nat} (hn : n < 640) {j : Nat} (h : intrKey j = false) : (s.raise n).w j = s.w j := by
  have hk : j / 0x10000 % 0x100 ≠ 2 := by
    simp only [intrKey, Bool.or_eq_false_iff, beq_eq_false_iff_ne] at h; exact h.1
  have h1 : ∀ t : State, (t.setBit (INTR.HIST (n / 32)) (n % 32)).w j = t.w j := fun t =>
    t.w_setf_other _ _ (by intro e; apply hk; subst e; simp only [INTR.HIST]; omega)
  have h2 : ∀ (p : Port) (t : State), (t.setBit (INTR.PEND p (n / 32)) (n % 32)).w j = t.w j := fun p t =>
    t.w_setf_other _ _ (by intro e; apply hk; subst e; cases p <;> simp only [INTR.PEND, portBase] <;> omega)
  rw [State.raise_eq]
  split
  · rfl
  split
  · exact h1 _
  · split
    · rw [State.w_dueMessage_other _ _ h, h2, h2, h1]
    · rw [h2, h2, h1]

theorem some_ite_lt {c : Prop} [Decidable c] {a b : Option Nat} {m : Nat} (ha : c → ∀ n, a = some n → n < m)
    (hb : ∀ n, b = some n → n < m) : ∀ n, (if c then a else b) = some n → n < m := by
  intro n h
  by_cases hc : c
  · exact ha hc n (by rwa [if_pos hc] at h)
  · exact hb n (by rwa [if_neg hc] at h)

/-- The sources that sticky bits raise are numbers of interrupt sources. -/
theorem stickySource_lt {k b n : Nat} (hb : b < 32) (h : stickySource k b = some n) : n < 640 := by
  suffices H : ∀ m, stickySource k b = some m → m < 640 from H n h
  clear h
  unfold stickySource
  dsimp only
  repeat' (first | refine some_ite_lt ?_ ?_ | intro _)
  all_goals first
    | (rename_i e; cases e; done)
    | (rename_i e; injection e with e; subst e; split_ifs <;> omega)
    | (rename_i e; injection e with e; omega)

/-- Setting a sticky bit writes its register, the INTR block and the pending-bit array of MSI-X, and no other register. -/
theorem State.w_ev_other (x : Fld) (hx : x.lo < 32) {j : Nat} (h : intrKey j = false) (hj : j ≠ x.key) :
    (s.ev x).w j = s.w j := by
  unfold State.ev
  split
  · rfl
  · split
    · rename_i n hn
      rw [State.w_raise_other _ (stickySource_lt hx hn) h, s.w_setf_other _ _ hj]
    · exact s.w_setf_other _ _ hj

/-- Raising a source leaves a register outside the INTR block and the pending-bit array as it is: fields. -/
theorem State.f_ev_other (x y : Fld) (hx : x.lo < 32) (h : intrKey y.key = false) (hj : y.key ≠ x.key) :
    (s.ev x).f y = s.f y := s.f_of_w y (s.w_ev_other x hx h hj)

/-- After it is set, a sticky bit reads 1. -/
theorem State.on_ev (x : Fld) (hw : x.hi = x.lo) (hx : x.lo < 32) (h : intrKey x.key = false) : (s.ev x).on x = true := by
  have hl : x.lo + x.width ≤ 32 := by simp only [Fld.width]; omega
  have h1 : ∀ t : State, (t.setf x 1).on x = true := fun t => by
    unfold State.on; rw [t.f_setf x 1 hl]; simp [Fld.width, hw]
  unfold State.ev
  split
  · assumption
  · split
    · rename_i n hn
      rw [State.on_of_f _ x (State.f_of_w _ x (State.w_raise_other _ (stickySource_lt hx hn) h))]
      exact h1 _
    · exact h1 _

/-! The mailboxes. -/

theorem HOST.MBOX_ne (p : Port) {i j : Nat} (h : i ≠ j) : HOST.MBOX p i ≠ HOST.MBOX p j := by
  cases p <;> simp only [HOST.MBOX, portBase] <;> omega

theorem State.w_mboxWords_other (p : Port) (k : Nat) (ws : List Word) {j : Nat}
    (h : ∀ i, k ≤ i → i < k + ws.length → j ≠ HOST.MBOX p i) : (s.mboxWords p k ws).w j = s.w j := by
  induction ws generalizing s k with
  | nil => rfl
  | cons v ws ih =>
    refine (ih _ (k + 1) (fun i h1 h2 => h i (by omega) (by simp only [List.length_cons]; omega))).trans ?_
    exact s.w_setw_other _ _ (h k (by omega) (by simp only [List.length_cons]; omega))

theorem State.w_mboxWords (p : Port) (k : Nat) (ws : List Word) (i : Nat) (h : i < ws.length) :
    (s.mboxWords p k ws).w (HOST.MBOX p (k + i)) = (ws[i]).toNat := by
  induction ws generalizing s k i with
  | nil => simp at h
  | cons v ws ih =>
    cases i with
    | zero =>
      refine (State.w_mboxWords_other _ p (k + 1) ws (fun i h1 _ => HOST.MBOX_ne p (by omega))).trans ?_
      exact (s.w_setw_self _ _).trans (Nat.mod_eq_of_lt v.isLt)
    | succ i =>
      have e : k + (i + 1) = k + 1 + i := by omega
      rw [e]
      exact ih _ (k + 1) i (by simpa using h)

theorem HOST.MBOX_STAT_ne (p : Port) {i : Nat} (h : i < 64) : HOST.MBOX p i ≠ HOST.MBOX_STAT p := by
  cases p <;> simp only [HOST.MBOX, HOST.MBOX_STAT, portBase] <;> omega

theorem intrKey_false {k : Nat} (h1 : k / 0x10000 % 0x100 ≠ 2) (h2 : k < 0x13800 ∨ 0x13810 ≤ k) : intrKey k = false := by
  unfold intrKey
  rw [Bool.or_eq_false_iff, beq_eq_false_iff_ne]
  refine ⟨h1, ?_⟩
  rcases h2 with h2 | h2
  · rw [decide_eq_false (by omega), Bool.false_and]
  · rw [decide_eq_false (by omega : ¬k < 0x13810), Bool.and_false]

theorem intrKey_host (p : Port) {o : Nat} (h1 : o < 0x3800) : intrKey (0x10000 + o + portBase p) = false :=
  intrKey_false (by cases p <;> simp only [portBase] <;> omega) (by cases p <;> simp only [portBase] <;> omega)

/-- The registers that an output leaves as they are. -/
theorem State.w_mboxOut_other (p : Port) (ws : List Word) (hl : ws.length ≤ 64) {j : Nat} (h : intrKey j = false)
    (h1 : ¬(HOST.MBOX p 0 ≤ j ∧ j < HOST.MBOX p 64)) (h2 : j ≠ HOST.MBOX_STAT p) (h3 : j ≠ HOST.EVENT p) :
    (s.mboxOut p ws).w j = s.w j := by
  unfold State.mboxOut
  refine (State.w_ev_other _ _ (Nat.le_of_ble_eq_true rfl) h h3).trans ((State.w_setw_other _ _ _ h2).trans
    ((State.w_mboxWords_other _ p 0 ws (fun i _ h4 e => h1 ?_)).trans ?_))
  · subst e; simp only [HOST.MBOX] at *; omega
  · unfold State.evIf
    split
    · exact State.w_ev_other _ _ (Nat.le_of_ble_eq_true rfl) h h3
    · rfl

/-- What an output places: a device-filled mailbox with its words (R598). -/
theorem State.mboxHolds_mboxOut (p : Port) (ws : List Word) (hl : ws.length ≤ 64) : (s.mboxOut p ws).mboxHolds p ws := by
  have hne : ∀ i, i < 64 → HOST.MBOX p i ≠ HOST.EVENT p := fun i hi => by
    cases p <;> simp only [HOST.MBOX, HOST.EVENT, portBase] <;> omega
  have hst : HOST.MBOX_STAT p ≠ HOST.EVENT p := by cases p <;> decide
  have hik : intrKey (HOST.MBOX_STAT p) = false := by cases p <;> decide
  have hst' : (s.mboxOut p ws).w (HOST.MBOX_STAT p) = 0xC0000000 + ws.length := by
    unfold State.mboxOut
    refine (State.w_ev_other _ _ (Nat.le_of_ble_eq_true rfl) hik hst).trans ((State.w_setw_self _ _ _).trans ?_)
    exact Nat.mod_eq_of_lt (by omega)
  refine ⟨?_, ?_, ?_, fun i hi => ?_⟩
  · have e : (s.mboxOut p ws).f (HOST.MBOX_STAT_VALID p) = (0xC0000000 + ws.length) / 2 ^ 31 % 2 ^ 1 :=
      congrArg (fun v => v / 2 ^ 31 % 2 ^ 1) hst'
    unfold State.on; rw [e, show (0xC0000000 + ws.length) / 2 ^ 31 % 2 ^ 1 = 1 by omega]; rfl
  · have e : (s.mboxOut p ws).f (HOST.MBOX_STAT_DEVICE p) = (0xC0000000 + ws.length) / 2 ^ 30 % 2 ^ 1 :=
      congrArg (fun v => v / 2 ^ 30 % 2 ^ 1) hst'
    unfold State.on; rw [e, show (0xC0000000 + ws.length) / 2 ^ 30 % 2 ^ 1 = 1 by omega]; rfl
  · have e : (s.mboxOut p ws).f (HOST.MBOX_STAT_LEN p) = (0xC0000000 + ws.length) / 2 ^ 0 % 2 ^ 7 :=
      congrArg (fun v => v / 2 ^ 0 % 2 ^ 7) hst'
    rw [e]; omega
  · have hi' : i < 64 := by omega
    unfold State.mboxOut
    have hk : intrKey (HOST.MBOX p i) = false := intrKey_false (by cases p <;> simp only [HOST.MBOX, portBase] <;> omega)
      (by cases p <;> simp only [HOST.MBOX, portBase] <;> omega)
    refine (State.w_ev_other _ _ (Nat.le_of_ble_eq_true rfl) hk (hne i hi')).trans
      ((State.w_setw_other _ _ _ (HOST.MBOX_STAT_ne p hi')).trans ?_)
    have := State.w_mboxWords (s.evIf (s.on (HOST.MBOX_STAT_VALID p)) (HOST.EVENT_MBOX_OVERWRITE p)) p 0 ws i hi
    rwa [Nat.zero_add] at this

/-! Doorbells. -/

/-- A doorbell's write that passes the checks of R591 has its command's effect. -/
theorem State.doorbell_ok {p : Port} {key : Nat} {pilot : Bool} (g : State → State) (hr : s.reaches p = true)
    (hc : s.cmdCheck p (key / 0x10000) pilot = .ok) : s.doorbell p key pilot g = g (s.status p .ok) := by
  unfold State.doorbell; rw [hr, hc]; rfl

/-- One that a check refuses is a bus error and nothing else. -/
theorem State.doorbell_refused {p : Port} {key : Nat} {pilot : Bool} (g : State → State) (hr : s.reaches p = true)
    (hc : s.cmdCheck p (key / 0x10000) pilot ≠ .ok) :
    s.doorbell p key pilot g = s.busErr p true false key (s.cmdCheck p (key / 0x10000) pilot) := by
  unfold State.doorbell; rw [hr]
  cases h : s.cmdCheck p (key / 0x10000) pilot <;> first | rfl | exact absurd h hc

end Sys2Proof.Machine
end

