-- ==== Sys2Proof/Laws/Report.lean ====
section
/-! SUPPORT. What a fault message does when the reaction in force neither resets a block nor the device: which registers it writes, and what
the collector's queue takes. -/

set_option Elab.async false

namespace Sys2Proof.Machine

variable (s : State)

/-- The registers that recording a fault message, and reacting to it with IRQ, TRAP and ERROR_PIN, may write: the collector's own up
to TRAP2 and COUNT, the router's counters, and those of a raised source. -/
def reportKey (k : Nat) : Bool :=
  intrKey k || (decide (0x30000 ≤ k) && decide (k ≤ 0x30024)) || (decide (0xA0000 ≤ k) && decide (k ≤ 0xA000C))

theorem reportKey_false {k : Nat} (h : reportKey k = false) :
    intrKey k = false ∧ (k < 0x30000 ∨ 0x30024 < k) ∧ (k < 0xA0000 ∨ 0xA000C < k) := by
  unfold reportKey at h
  rw [Bool.or_eq_false_iff, Bool.or_eq_false_iff] at h
  refine ⟨h.1.1, ?_, ?_⟩
  · by_contra hc
    have : decide (0x30000 ≤ k) = true ∧ decide (k ≤ 0x30024) = true := ⟨decide_eq_true (by omega), decide_eq_true (by omega)⟩
    rw [this.1, this.2] at h; exact absurd h.1.2 (by decide)
  · by_contra hc
    have : decide (0xA0000 ≤ k) = true ∧ decide (k ≤ 0xA000C) = true := ⟨decide_eq_true (by omega), decide_eq_true (by omega)⟩
    rw [this.1, this.2] at h; exact absurd h.2 (by decide)

theorem State.w_latch_other (key : Nat) (r : TaskRun) {j : Nat} (h : reportKey j = false) : (s.latch key r).w j = s.w j := by
  have hj := reportKey_false h
  unfold State.latch
  split
  · rfl
  · refine (State.w_setw_other _ _ _ (by simp only [EVR.MERGE_LAST]; omega)).trans
      ((State.w_ev_other _ _ (by decide) hj.1 (by simp only [EVR.EVENT]; omega)).trans
        (State.w_setf_other _ _ _ (by simp only [EVR.MERGE_CNT]; omega)))

/-- Delivering an event writes registers of the router only, beside those of a raised source. -/
theorem State.w_deliver_other (e r : Nat) {j : Nat} (h : reportKey j = false) : (s.deliver e r).w j = s.w j := by
  have hj := reportKey_false h
  have hs : ((s.inc EVR.STALE_CNT_COUNT).ev EVR.EVENT_STALE).w j = s.w j :=
    (State.w_ev_other _ _ (by decide) hj.1 (by simp only [EVR.EVENT]; omega)).trans
      (State.w_setf_other _ _ _ (by simp only [EVR.STALE_CNT]; omega))
  unfold State.deliver
  dsimp only
  split
  · split
    · unfold State.when; split
      · exact State.w_latch_other _ _ _ h
      · rfl
    · exact hs
  · exact State.w_latch_other _ _ _ h

/-- Presenting an event to the router writes registers of the router only, beside those of a raised source. -/
theorem State.w_route_other (e : Nat) {j : Nat} (h : reportKey j = false) : (s.route e).w j = s.w j := by
  unfold State.route State.forL
  generalize s.routesOf e = l
  induction l generalizing s with
  | nil => rfl
  | cons r l ih => exact (ih _).trans (s.w_deliver_other e r h)

theorem State.w_loadLatch_other (r0 r1 r2 src kind addr : Nat) (inj : Bool) {j : Nat} (h0 : j ≠ r0) (h1 : j ≠ r1)
    (h2 : j ≠ r2) : (s.loadLatch r0 r1 r2 src kind addr inj).w j = s.w j :=
  (State.w_setw_other _ _ _ h2).trans ((State.w_setw_other _ _ _ h1).trans (State.w_setw_other _ _ _ h0))

/-- The registers that queueing a message leaves as they are. -/
theorem State.w_queueFault_other (src kind addr : Nat) (inj : Bool) {j : Nat} (h : reportKey j = false) :
    (s.queueFault src kind addr inj).w j = s.w j := by
  have hj := reportKey_false h
  unfold State.queueFault
  dsimp only
  split
  · rfl
  · split
    · exact (State.w_ev_other _ _ (by decide) hj.1 (by simp only [FLT.EVENT]; omega)).trans
        (State.w_setf_other _ _ _ (by simp only [FLT.COUNT]; omega))
    · unfold State.evIf
      split
      · exact (State.w_ev_other _ _ (by decide) hj.1 (by simp only [FLT.EVENT]; omega)).trans
          (State.w_setf_other _ _ _ (by simp only [FLT.STATUS]; omega))
      · exact State.w_setf_other _ _ _ (by simp only [FLT.STATUS]; omega)

theorem State.regs_logFault (src kind addr : Nat) (inj : Bool) : (s.logFault src kind addr inj).regs = s.regs := by
  unfold State.logFault
  dsimp only
  split
  · split <;> rfl
  · rfl

/-- The registers that recording a message leaves as they are. -/
theorem State.w_record_other (src kind addr : Nat) (inj : Bool) {j : Nat} (h : reportKey j = false) :
    (s.record src kind addr inj).w j = s.w j := by
  have hj := reportKey_false h
  unfold State.record
  refine (State.w_route_other _ _ h).trans ((State.w_congr _ (State.regs_logFault _ _ _ _ _) j).trans
    ((State.w_queueFault_other _ _ _ _ _ h).trans ?_))
  have h1 : ((s.inc FLT.COUNT_MESSAGES).setBit FLT.STATUS (src / 64)).w j = s.w j :=
    (State.w_setf_other _ _ _ (by simp only [FLT.STATUS]; omega)).trans
      (State.w_setf_other _ _ _ (by simp only [FLT.COUNT]; omega))
  split
  · exact h1
  · exact (State.w_loadLatch_other _ _ _ _ _ _ _ _ (by simp only [FLT.FIRST0]; omega) (by simp only [FLT.FIRST1]; omega)
      (by simp only [FLT.FIRST2]; omega)).trans h1

theorem State.w_trap_other (src kind addr : Nat) (inj : Bool) {j : Nat} (h : reportKey j = false) :
    (s.trap src kind addr inj).w j = s.w j := by
  have hj := reportKey_false h
  have h1 : ∀ t : State, (t.ev FLT.EVENT_TRAP).w j = t.w j := fun t =>
    State.w_ev_other _ _ (by decide) hj.1 (by simp only [FLT.EVENT]; omega)
  have h2 : ∀ t : State, (if t.on FLT.EVENT_TRAP then (if t.pend .a 65 && t.pend .b 65 then t else t.raise 65)
      else t.ev FLT.EVENT_TRAP).w j = t.w j := fun t => by
    split
    · split
      · rfl
      · exact State.w_raise_other _ (by decide) hj.1
    · exact h1 t
  have h3 : (if s.on FLT.TRAP0_VALID then s
      else (s.loadLatch FLT.TRAP0 FLT.TRAP1 FLT.TRAP2 src kind addr inj).setf FLT.STATUS_TRAPPED 1).w j = s.w j := by
    split
    · rfl
    · exact (State.w_setf_other _ _ _ (by simp only [FLT.STATUS]; omega)).trans
        (State.w_loadLatch_other _ _ _ _ _ _ _ _ (by simp only [FLT.TRAP0]; omega) (by simp only [FLT.TRAP1]; omega)
          (by simp only [FLT.TRAP2]; omega))
  unfold State.trap
  extract_lets t
  exact (h2 t).trans h3

theorem State.w_errorPin_other {j : Nat} (h : reportKey j = false) : s.errorPin.w j = s.w j := by
  have hj := reportKey_false h
  have h1 : ∀ (t : State) (c : Bool), (t.evIf c FLT.EVENT_ERR_PIN).w j = t.w j := fun t c => by
    unfold State.evIf
    split
    · exact State.w_ev_other _ _ (by decide) hj.1 (by simp only [FLT.EVENT]; omega)
    · rfl
  unfold State.errorPin
  extract_lets was t _ u
  refine (h1 u _).trans ((State.w_congr t (t := u) (rfl) j).trans ?_)
  exact ((State.w_setf_other _ _ _ (by simp only [FLT.STATUS]; omega)).trans
    (State.w_setf_other _ _ _ (by simp only [FLT.STATUS]; omega)))

theorem bitAt_of_lt_8 {r i : Nat} (h : r < 8) (hi : 3 ≤ i) : bitAt r i = false := by
  unfold bitAt
  rw [Nat.div_eq_of_lt (Nat.lt_of_lt_of_le h ?_)]
  · rfl
  · calc 8 = 2 ^ 3 := rfl
      _ ≤ 2 ^ i := Nat.pow_le_pow_right (by decide) hi

/-- The part of a reaction that IRQ, TRAP and ERROR_PIN perform. -/
def State.reactLight (s : State) (src kind addr : Nat) (inj : Bool) : State :=
  let cls := src / 64
  let r := s.reaction cls kind
  let s := if bitAt r 0 then (s.ev FLT.EVENT_RECORD).ev ⟨FLT.CLASS_EVENT, cls, cls⟩ else s
  let s := if bitAt r 1 then s.trap src kind addr inj else s
  if bitAt r 2 then s.errorPin else s

theorem State.react_light (src kind addr : Nat) (inj : Bool) (h : s.reaction (src / 64) kind < 8) :
    s.react src kind addr inj = s.reactLight src kind addr inj := by
  unfold State.react State.reactLight
  dsimp only
  rw [bitAt_of_lt_8 h (i := 3) (by decide), bitAt_of_lt_8 h (i := 4) (by decide)]
  rfl

/-- Reacting with IRQ, TRAP and ERROR_PIN leaves every register but the collector's and those of a raised source. -/
theorem State.w_react_other (src kind addr : Nat) (inj : Bool) (hc : src / 64 < 16) (h : s.reaction (src / 64) kind < 8)
    {j : Nat} (hr : reportKey j = false) : (s.react src kind addr inj).w j = s.w j := by
  have hj := reportKey_false hr
  rw [State.react_light _ _ _ _ _ h]
  have h0 : ∀ c : Bool, (if c then (s.ev FLT.EVENT_RECORD).ev ⟨FLT.CLASS_EVENT, src / 64, src / 64⟩ else s).w j = s.w j := fun c => by
    split
    · exact (State.w_ev_other _ _ (by dsimp only; omega) hj.1 (by simp only [FLT.CLASS_EVENT]; omega)).trans
        (State.w_ev_other _ _ (by decide) hj.1 (by simp only [FLT.EVENT]; omega))
    · rfl
  have h1 : ∀ (t : State) (c : Bool), (if c then t.trap src kind addr inj else t).w j = t.w j := fun t c => by
    split
    · exact State.w_trap_other _ _ _ _ _ hr
    · rfl
  have h2 : ∀ (t : State) (c : Bool), (if c then t.errorPin else t).w j = t.w j := fun t c => by
    split
    · exact State.w_errorPin_other _ hr
    · rfl
  exact (h2 _ _).trans ((h1 _ _).trans (h0 _))

/-- A state whose image is that of another has the same reactions. -/
theorem State.reaction_congr {t : State} (h : t.fab = s.fab) (cls kind : Nat) : t.reaction cls kind = s.reaction cls kind := by
  unfold State.reaction; rw [h]

theorem State.keep_logFault {P : State → Prop} (src kind addr : Nat) (inj : Bool)
    (hn : ∀ t n, P t → P { t with nv := n }) (h : P s) : P (s.logFault src kind addr inj) := by
  unfold State.logFault
  dsimp only
  split
  · split
    · exact hn _ _ h
    · exact hn _ _ (hn _ _ h)
  · exact hn _ _ (hn _ _ h)

theorem State.keep_queueFault {P : State → Prop} (src kind addr : Nat) (inj : Bool)
    (hr : ∀ t k v, P t → P (t.setw k v)) (hi : ∀ t i, P t → P { t with intr := i })
    (hf : ∀ t f, P t → P { t with flt := f }) (h : P s) : P (s.queueFault src kind addr inj) := by
  unfold State.queueFault
  dsimp only
  split
  · exact hf _ _ h
  · split
    · exact hf _ _ (State.keep_ev _ _ hr hi (hr _ _ _ h))
    · exact State.keep_evIf _ _ _ hr hi (hr _ _ _ (hf _ _ h))

/-- Recording a message keeps whatever writes of registers, of INTR's, FLT's and NV's own state and of the task latches keep. -/
theorem State.keep_record {P : State → Prop} (src kind addr : Nat) (inj : Bool)
    (hr : ∀ t k v, P t → P (t.setw k v)) (hi : ∀ t i, P t → P { t with intr := i })
    (hf : ∀ t f, P t → P { t with flt := f }) (hn : ∀ t n, P t → P { t with nv := n })
    (ht : ∀ t k g, P t → P (t.modTasks k g)) (h : P s) : P (s.record src kind addr inj) := by
  unfold State.record
  refine State.keep_route _ _ ht hr hi (State.keep_logFault _ _ _ _ _ hn (State.keep_queueFault _ _ _ _ _ hr hi hf ?_))
  have h1 := hf _ { (s.inc FLT.COUNT_MESSAGES).flt with lastMsg := Tab.set (fun _ => 0) s.flt.lastMsg (src / 64) s.now }
    (hr ((s.inc FLT.COUNT_MESSAGES)) FLT.STATUS
      ((⟨FLT.STATUS, src / 64, src / 64⟩ : Fld).put ((s.inc FLT.COUNT_MESSAGES).w FLT.STATUS) 1) (hr _ _ _ h))
  split
  · exact h1
  · exact hr _ _ _ (hr _ _ _ (hr _ _ _ h1))

/-- A message is one of the device's own when no collector check is armed. -/
theorem State.reportInj_eq (src kind addr : Nat) (inj : Bool) (h : s.flt.injCheck = false) (h1 : src < 1024) (h2 : kind < 64)
    (h3 : addr < 2 ^ 32) :
    s.reportInj src kind addr inj = (s.record src kind addr inj).react src kind addr inj := by
  unfold State.reportInj
  rw [Nat.mod_eq_of_lt h1, Nat.mod_eq_of_lt h2, Nat.mod_eq_of_lt h3, h]
  rfl

@[simp ↓] theorem State.fab_record (src kind addr : Nat) (inj : Bool) : (s.record src kind addr inj).fab = s.fab :=
  State.keep_record (P := fun t => t.fab = s.fab) s src kind addr inj (fun _ _ _ h => h) (fun _ _ h => h) (fun _ _ h => h)
    (fun _ _ h => h) (fun _ _ _ h => h) rfl

/-- What a message with a light reaction leaves of the registers. -/
theorem State.w_report_other (src kind addr : Nat) (inj : Bool) (hc : s.flt.injCheck = false) (h1 : src < 1024)
    (h2 : kind < 64) (h3 : addr < 2 ^ 32) (h : s.reaction (src / 64) kind < 8) {j : Nat} (hr : reportKey j = false) :
    (s.reportInj src kind addr inj).w j = s.w j := by
  rw [State.reportInj_eq _ _ _ _ _ hc h1 h2 h3]
  refine (State.w_react_other _ _ _ _ _ (by omega) ?_ hr).trans (State.w_record_other _ _ _ _ _ hr)
  rw [State.reaction_congr s (State.fab_record _ _ _ _ _)]
  exact h

end Sys2Proof.Machine
end

