-- ==== Sys2Proof/WellFormed.lean ====
section
/-! DEFINITION. Which commands describe something that a sender or the world can present: accesses whose data fit their width,
frames captured within a tick of the time base, message fields within the widths that IEEE 1588 gives them, lists of blocks and
pages without repeats. The machine gives every command a meaning, ill-formed or not. -/

namespace Sys2Proof

/-- The data and the byte enables of an access fit its width (R587). -/
def Access.wf (a : Access) : Bool :=
  decide (a.data.toNat < 2 ^ (8 * a.width.bytes)) && decide (a.enables.toNat < 2 ^ a.width.bytes)

/-- A write to one register: it lies in the register, and its data fit its width. -/
def RegAcc.wf (a : RegAcc) : Bool :=
  decide (a.data.toNat < 2 ^ (8 * a.width.bytes)) && decide (a.lane.val + a.width.bytes ≤ 4 ∨ (a.width = .b8 ∧ a.lane.val = 0))

/-- The capture edge lies within one tick, and the serial position within a capture word (R411, R412). -/
def StampCap.wf (c : StampCap) : Bool := decide (c.edgePs ≤ 1000) && decide (c.pos < 5280)

/-- A number in an n-bit two's-complement field. -/
def fitsSigned (n : Nat) (i : Int) : Bool := decide (-(2 ^ n : Int) ≤ 2 * i ∧ 2 * i < 2 ^ n)

/-- A dataset as an Announce carries it (R451). -/
def Dataset.wf (d : Dataset) : Bool :=
  decide (d.prio1 < 256 ∧ d.cls < 256 ∧ d.acc < 256 ∧ d.var < 65536 ∧ d.prio2 < 256 ∧ d.steps < 65536 ∧ d.source < 256) &&
    fitsSigned 16 d.utc

/-- A negotiation TLV. -/
def SigTlv.wf (t : SigTlv) : Bool := fitsSigned 8 t.logPer && decide (t.dur < 2 ^ 32)

/-- An AUTHENTICATION TLV with an ICV of 16 bytes (R479). -/
def PtpAuth.wf (a : PtpAuth) : Bool := decide (a.icv.length = 16)

/-- The fields of a message lie within their widths. -/
def PtpMsg.wf (m : PtpMsg) : Bool :=
  decide (m.version < 16 ∧ m.minor < 16 ∧ m.domain < 256 ∧ m.sec < 2 ^ 48 ∧ m.ns < 2 ^ 32 ∧ m.tags.length ≤ 2) &&
    fitsSigned 64 m.corr && fitsSigned 8 m.logInt && m.tlvs.all SigTlv.wf && (m.data.map Dataset.wf).getD true &&
    (m.auth.map PtpAuth.wf).getD true

/-- A PTP message as received. -/
def PtpFrame.wf (f : PtpFrame) : Bool := f.msg.wf && f.cap.wf

/-- Flash blocks that went bad, each once. -/
def badWf (l : List (Nat × List Nat)) : Bool := decide (l.map (·.1)).Nodup

/-- The outcome of a scrub pass: no block twice, and none both refreshed and bad. -/
def ScrubOutcome.wf (o : ScrubOutcome) : Bool := decide (o.refreshed ++ o.bad.map (·.1)).Nodup

/-- A well-formed command. -/
def Instr.wellFormed (i : Instr) : Bool :=
  match i with
  | .registerWrite _ a => a.wf
  | .clearingRead _ a => a.wf
  | .canaryWindowEnd _ => true
  | .avsStepDone _ _ => true
  | .avsEventRead _ => true
  | .powerOn => true
  | .resetNFall => true
  | .resetNRise _ => true
  | .brownOut _ => true
  | .refsynLocked => true
  | .startupInitDone failed _ => decide failed.Nodup
  | .nvRecoveryDone => true
  | .flmLinkReady => true
  | .fullrstNFall => true
  | .fullrstNRise => true
  | .topCmdFullReset _ _ => true
  | .stage _ => true
  | .verify _ => true
  | .verifyDone => true
  | .writeSlot _ _ => true
  | .writeSlotDone _ bad => badWf bad
  | .loadSlot _ _ => true
  | .loadSlotDone bad => badWf bad
  | .eraseSlot _ _ => true
  | .eraseSlotDone => true
  | .readId _ _ => true
  | .activate _ _ => true
  | .activateHandoverTimeout => true
  | .commitRollback _ => true
  | .rollbackFusesDone _ => true
  | .imageLanded => true
  | .loadFailed bad => badWf bad
  | .landingWatchdogExpiry => true
  | .landingEdge _ _ => true
  | .activityLost _ => true
  | .slicerUpdate _ _ _ => true
  | .coarseWrap => true
  | .gateEnd _ => true
  | .gateLongTimeout _ => true
  | .intervalOverflow _ => true
  | .intervalDone _ => true
  | .regressionDone _ => true
  | .lnd30SliceEnd => true
  | .armTdcTask _ => true
  | .lndArm _ _ => true
  | .fetchResult _ _ => true
  | .fetchCal _ _ => true
  | .lndCtrlWrite _ _ a => a.wf
  | .lndDecimWrite _ _ a => a.wf
  | .lndGateWrite _ _ a => a.wf
  | .lndNomFreqWrite _ _ a => a.wf
  | .lndObsWrite _ a => a.wf
  | .lndSliceWrite _ _ a => a.wf
  | .wtrExpiry _ _ => true
  | .holdoffExpiry _ => true
  | .readmit _ _ _ => true
  | .selForceWrite _ _ a => a.wf
  | .selCandCfgWrite _ _ _ a => a.wf
  | .esmcTimeout _ => true
  | .loopUpdate _ _ => true
  | .lockDwellExpiry _ => true
  | .gearDwellExpiry _ => true
  | .stepLoad _ _ => true
  | .stepGo _ _ => true
  | .stepCancel _ _ => true
  | .stepPhaseTask _ => true
  | .loopFetch _ _ => true
  | .loopBwWrite _ _ a => a.wf
  | .loopSlopeWrite _ _ a => a.wf
  | .loopFreeFreqWrite _ _ a => a.wf
  | .loopCoefWrite _ _ _ a => a.wf
  | .loopDampWrite _ _ a => a.wf
  | .loopWeightCommit _ _ a => a.wf
  | .historyIntervalEnd _ => true
  | .refitDone _ => true
  | .entryFitDone _ => true
  | .holdoverSecond _ => true
  | .temperatureSample _ _ => true
  | .hoTempWrite _ _ a => a.wf
  | .tempStaleTimeout _ => true
  | .fetchModel _ _ => true
  | .loadModel _ _ => true
  | .clearHistory _ _ => true
  | .hoOvrWrite _ _ a => a.wf
  | .failoverResume _ _ => true
  | .migrationResume _ _ => true
  | .historyCopyDone _ => true
  | .engRetire _ _ => true
  | .engReturn _ _ => true
  | .engMigrate _ _ _ => true
  | .engineSelfTestDone _ _ => true
  | .ferryLimitExpiry => true
  | .landWaitExpiry _ => true
  | .bandCalDone _ band => decide (band < 64)
  | .analogAcqDone _ => true
  | .lockWindowEnd _ _ => true
  | .rampTo _ _ _ => true
  | .rampLoad _ _ _ => true
  | .rampGo _ _ => true
  | .rampStop _ _ => true
  | .fetchNom _ _ => true
  | .startRampTask _ => true
  | .rampSegmentEnd _ => true
  | .divLoad _ _ => true
  | .divApply _ => true
  | .fetchDiv _ _ => true
  | .outAlign _ _ => true
  | .realignOutputTask _ => true
  | .syncPoint _ => true
  | .groupEnable _ _ _ => true
  | .groupRealign _ _ _ => true
  | .groupDisable _ _ _ => true
  | .outEnWrite _ _ a => a.wf
  | .pulseLeadingEdge _ => true
  | .pdiffCheck _ => true
  | .setInc _ _ => true
  | .adjust _ _ => true
  | .tscStep _ _ => true
  | .stepTicket _ _ => true
  | .ticketVerified _ => true
  | .setTime _ _ => true
  | .schedule _ _ => true
  | .cancelSched _ _ => true
  | .snap _ _ => true
  | .setThresh _ _ => true
  | .secondRollover _ => true
  | .manifestSigned => true
  | .adjustComplete _ => true
  | .scheduledIncrementDue _ => true
  | .applySchedTask _ => true
  | .todoutMessage _ => true
  | .swevt _ _ => true
  | .routeWrite _ _ _ a => a.wf
  | .stampTask _ => true
  | .sendBerthMessageTask _ => true
  | .linkSignalDetect _ => true
  | .linkUp _ => true
  | .linkSettled _ => true
  | .linkDown _ _ => true
  | .linkHoldExpiry _ => true
  | .frameReceived _ f => f.cap.wf
  | .esmcPduReceived _ f => f.cap.wf
  | .pauseReceived _ f => f.cap.wf
  | .pauseQuantaExpiry _ => true
  | .pauseWatchdogExpiry _ => true
  | .pauseRepeat _ => true
  | .esmcInfoTx _ => true
  | .txStampDelivery _ x => x.cap.wf
  | .preemptVerifyDone _ _ => true
  | .frameSend _ _ _ _ _ => true
  | .frameRecv _ _ _ _ _ => true
  | .tsqPop _ _ => true
  | .fetchStats _ _ => true
  | .peekStats _ _ => true
  | .wakeLoad _ _ => true
  | .prtLoopcal _ _ => true
  | .prtLoopcalDone _ _ => true
  | .prtDormantWrite _ _ a => a.wf
  | .prtTxclkWrite _ _ a => a.wf
  | .prtAdminWrite _ _ a => a.wf
  | .syncReceived _ f => f.wf
  | .delayReqReceived _ f => f.wf
  | .followUpReceived _ f => f.wf
  | .delayRespReceived _ f => f.wf
  | .announceReceived _ f => f.wf
  | .signalingReceived _ f => f.wf
  | .syncTxInterval _ _ => true
  | .delayReqTxInterval _ => true
  | .announceTxInterval _ _ => true
  | .followUpTimeout _ => true
  | .announceTimeout _ => true
  | .grantExpiry _ _ => true
  | .grantRenew _ _ => true
  | .grantRetry _ _ => true
  | .sampleStreamTimeout _ => true
  | .tsPresentPeriod _ => true
  | .corridorSecond _ => true
  | .corridorReadmit _ => true
  | .admitPop _ _ => true
  | .fetchDataset _ _ => true
  | .promote _ _ => true
  | .asymLoad _ _ => true
  | .asymClear _ _ => true
  | .asymRampDone _ => true
  | .berthCreate _ _ _ _ _ _ => true
  | .berthDestroy _ _ _ _ _ _ => true
  | .berthEnable _ _ _ _ _ _ => true
  | .berthDisable _ _ _ _ _ _ => true
  | .paramSet _ _ _ _ _ _ => true
  | .paramGet _ _ _ _ _ _ => true
  | .attach _ _ _ _ _ _ => true
  | .detach _ _ _ _ _ _ => true
  | .evqPop _ _ _ _ _ _ => true
  | .evqScan _ _ _ _ _ _ => true
  | .msgLoad _ _ _ _ _ _ => true
  | .berthInfo _ _ _ _ _ _ => true
  | .tenantOpen _ _ _ _ _ _ => true
  | .tenantClose _ _ _ _ _ _ => true
  | .manPeek _ _ _ _ _ _ => true
  | .manExport _ _ _ _ _ _ => true
  | .helloReceived _ f => f.cap.wf
  | .heartbeatReceived _ f => f.cap.wf
  | .phaseReceived _ f => f.cap.wf
  | .loopstateReceived _ f => f.cap.wf
  | .timestateReceived _ f => f.cap.wf
  | .berthstateReceived _ f => f.cap.wf
  | .switchRequestReceived _ f => f.cap.wf
  | .switchAcceptReceived _ f => f.cap.wf
  | .switchRefuseReceived _ f => f.cap.wf
  | .switchCommitReceived _ f => f.cap.wf
  | .noticeReceived _ f => f.cap.wf
  | .helloTx => true
  | .heartbeatTx => true
  | .phaseTx _ x => x.cap.wf
  | .loopstateTx => true
  | .timestateTx => true
  | .berthstateTx _ => true
  | .heartbeatLoss => true
  | .incumbentTimer => true
  | .xlkSwitch _ => true
  | .switchAcceptTimeout => true
  | .fetchLoops _ => true
  | .fetchTimes _ => true
  | .xlkLoopcal _ => true
  | .xlkLoopcalDone _ _ => true
  | .xlkPresentPeriod => true
  | .xlkAdminWrite _ a => a.wf
  | .xlkLaneUp _ => true
  | .xlkLaneDown _ => true
  | .certRead _ _ => true
  | .attest _ => true
  | .attestDone => true
  | .attestRead _ _ => true
  | .provisionLabel _ => true
  | .provisionLabelDone => true
  | .keyLoad _ => true
  | .keyRoll _ _ => true
  | .keyErase _ _ => true
  | .keyList _ _ => true
  | .takeOwnership _ => true
  | .takeOwnershipDone _ => true
  | .secRetire _ => true
  | .secRetireDone _ => true
  | .tapInstruction _ => true
  | .qspiRead _ _ => true
  | .qspiQread _ _ => true
  | .qspiWrite _ _ => true
  | .qspiQwrite _ _ => true
  | .qspiPstat => true
  | .qspiCsRise => true
  | .pcieReset _ => true
  | .pcieLinkChange _ _ => true
  | .mboxWordWrite _ _ _ => true
  | .mboxCommit _ _ => true
  | .mboxLastRead _ _ => true
  | .ringPiWrite _ _ => true
  | .ringEntryStart _ => true
  | .nop _ => true
  | .cfgchkCommit _ => true
  | .cfgchkRefWrite _ a => a.wf
  | .cfgchkPass => true
  | .intrMaskWrite _ _ a => a.wf
  | .hostWindowWrite _ off bytes => decide (0 < bytes.length ∧ off.toNat + bytes.length ≤ 2 ^ 26)
  | .atAdd _ => true
  | .atSwap _ => true
  | .scrubCycle _ => true
  | .nvRead _ _ => true
  | .nvWrite _ _ => true
  | .nvCommit _ => true
  | .nvCommitDone => true
  | .setPw _ => true
  | .unlock _ => true
  | .nvLock _ => true
  | .logRead _ => true
  | .ledgerCheckpointTimer => true
  | .vholdSample _ => true
  | .pfailAssert => true
  | .pfailStoreDone => true
  | .pfailDeassert => true
  | .logbookHeadWrite => true
  | .logArchiveWrite bad => badWf bad
  | .manifestArchiveWrite bad => badWf bad
  | .format _ => true
  | .formatDone _ _ => true
  | .scrubNow _ => true
  | .flashScrubPass o => o.wf
  | .faultMessage _ => true
  | .fltPop _ => true
  | .errRelease _ => true
  | .trapClear _ => true
  | .injArm _ => true
  | .injCancel _ => true
  | .errWidthExpiry => true
  | .quietPeriodExpiry _ => true
  | .supplyRailFault _ => true
  | .xoinLost => true
  | .refsynUnlock _ => true
  | .overTemperature _ => true
  | .overTemperatureClear => true
  | .eqLimitReached _ => true
  | .xlkFrameDrop _ _ => true
  | .msixEnable _ => true
  | .xoinReturn => true
  | .supplyRailReturn _ => true

end Sys2Proof
end

