-- ==== Sys2Proof/Tests/Slice0.lean ====
section
/-! SUPPORT. Tests: ill-formed commands that the check refuses, and for each statement states and operands that meet the
hypotheses of its clauses together, with boundary values where a clause has a range. -/

set_option Elab.async false

namespace Sys2Proof.Tests
open Sys2Proof.Machine

theorem test_reset_queue : State.reset.pending = [] := rfl

/-! States and operands that the witnesses start from: a running chip, one with a landed image, a crossing link that is up, a
port that is up, and frames as a partner sends them. -/

def image : Image := {
  secVer := 3
  landings := (List.range 32).map (fun n => ⟨n, 0, 0, 0, 0xFF, 1⟩)
  selectors := (List.range 16).map (fun n => ⟨n, 1, [⟨0, 1, 0⟩, ⟨1, 2, 1⟩, ⟨2, 3, 3⟩]⟩)
  loops := [⟨0, 0, 0, 0, 0, 0, 1000⟩, ⟨1, 0, 1, 0, 1, 0, 1000⟩, ⟨2, 0, 2, 0, 2, 0, 1000⟩, ⟨3, 2, 0x1F, 0, 0, 1, 1000⟩, ⟨31, 0, 15, 0, 0, 0, 1000⟩]
  synths := (List.range 8).map (fun n => ⟨n, 12000000000⟩)
  outputs := [⟨0, 0, 0, 0, 0xF, 1, 0, 100000000000000⟩, ⟨1, 0, 0, 0, 0xF, 1, 2, 0⟩, ⟨2, 0, 0, 0, 0xF, 1, 1, 100000000000000⟩,
    ⟨24, 0, 7, 0, 0, 1, 0, 1000000⟩]
  timescales := (List.range 8).map (fun n => ⟨n, 1000⟩)
  todouts := [⟨0, 0, 0, 0⟩, ⟨1, 1, 1, 1⟩]
  ports := (List.range 8).map (fun n => ⟨n, 1, n⟩)
  quotas := [100, 100, 100, 100]
  spmap := (List.range 128).map (fun n => ⟨if n < 60 then 1 else if n < 76 then 3 else 7, n, false⟩)
  helm := List.replicate 256 3
  pilot := List.replicate 256 true
  routes := List.replicate 640 (0x40, 1) }

def put (s : State) (l : List (Fld × Nat)) : State := l.foldl (fun t x => t.setf x.1 x.2) s

def setws (s : State) (l : List (Nat × Nat)) : State := l.foldl (fun t x => t.setw x.1 x.2) s

def bare : State := put { State.reset with top := { State.reset.top with phase := .running } } [(FLM.STATE_LINK, 1)]

def live : State :=
  put { bare with top := { bare.top with landedOnce := true, resetting := false, fromCold := false }, fab := { img := some image }, now := 5000000000000 } [(FAB.STATE_LOAD, 2)]

def fill (s : State) (p : Port) (ws : List Word) : State :=
  put (s.mboxWords p 0 ws) [(HOST.MBOX_STAT_VALID p, 1), (HOST.MBOX_STAT_LEN p, ws.length)]

def moor (s : State) (k : Nat) (b : Berth) : State := s.modBerth k (fun _ => b)

def crossing : State :=
  put { live with fab := { img := some { image with xlk := some ⟨[]⟩, xlkVer := 3 } } }
    [(XLK.CTRL_ADMIN, 1), (XLK.STATUS_VER, 3), (XLK.STATUS_LANE0_UP, 1), (XLK.STATUS_LANE1_UP, 1)]

def stampCap : StampCap := ⟨0, 0, true⟩

def linkIn (type : Nat) (body : List Byte) : XlkFrame := ⟨(put crossing [(XLK.CFG_CARD, 1)]).xlkFrame type body, stampCap, false⟩

def etherIn (dst type : Nat) (rest : List Byte) : RxFrame :=
  ⟨(beBytes 6 dst ++ beBytes 6 2 ++ beBytes 2 type ++ rest ++ List.replicate 60 0).take 60, true, stampCap, false, ⟨0, 0, 0, .none⟩⟩

def ptpIn (kind : PtpKind) : PtpMsg :=
  ⟨kind, .mac 2, .mac 0, [], 2, 1, 24, true, 0, 5, 7, 0, 0, 0, 0, none, [], none⟩

def portUp : State :=
  put live [(PRT.STATUS_LINK 1, 1), (PRT.STATUS_BLOCK_LOCK 1, 1), (PRT.CTRL_ADMIN 1, 1), (PRT.CFG_BUFS 1, 1), (PRT.MTU_OCTETS 1, 1518), (TSC.STATUS_SET 0, 1)]

def ptpLive (role : Nat) : State := put (setws portUp [(PTE.CLOCK_ID_LO 1, 5)]) [(PTE.CTRL_ROLE 1, role)]

/-- The checkpoint of a loop that acquires. -/
def ckpt : Checkpoint := ⟨1, false, 0, true, 0, {}, {}⟩

/-- A checkpoint stands in the second engine's scratchpad, with its CRC. -/
def checkpointed : State :=
  { live.setBytes (1 * spSize + 0x601FC) (leBytes 4 3965168067) with eng := { cks := [(2, ckpt)] } }

/-! Well-formedness refuses an ill-formed term of each check. -/

theorem test_data_too_wide : (Instr.registerWrite .b ⟨0, .b4, 15, 0x100000000⟩).wellFormed = false := by decide
theorem test_enables_too_many : (Instr.registerWrite .a ⟨0, .b1, 2, 1⟩).wellFormed = false := by decide
theorem test_lane_outside_register : (Instr.cfgchkRefWrite .a ⟨.normal, 3, .b2, 1⟩).wellFormed = false := by decide
theorem test_edge_after_tick : (Instr.phaseTx 0 ⟨⟨1001, 0, true⟩, false⟩).wellFormed = false := by decide
theorem test_position_after_word : (Instr.phaseTx 0 ⟨⟨0, 5280, true⟩, false⟩).wellFormed = false := by decide
theorem test_block_failed_twice : (Instr.startupInitDone [3, 3] true).wellFormed = false := by decide
theorem test_block_bad_twice : (Instr.loadSlotDone [(5, [1]), (5, [2])]).wellFormed = false := by decide
theorem test_block_refreshed_and_bad : (Instr.flashScrubPass ⟨[7], [(7, [0])]⟩).wellFormed = false := by decide
theorem test_band_too_large : (Instr.bandCalDone 0 64).wellFormed = false := by decide
theorem test_window_overrun : (Instr.hostWindowWrite .a 0x3FFFFFF [1, 2]).wellFormed = false := by decide
theorem test_version_too_wide : ({ ptpIn .sync with version := 16 } : PtpMsg).wf = false := by decide
theorem test_minor_version_too_wide : ({ ptpIn .sync with minor := 16 } : PtpMsg).wf = false := by decide
theorem test_correction_too_wide : ({ ptpIn .sync with corr := 2 ^ 63 } : PtpMsg).wf = false := by decide
theorem test_dataset_too_wide : (Dataset.mk 1 256 6 33 0 1 0 0 37 true true true).wf = false := by decide
theorem test_period_too_wide : (SigTlv.mk .request .sync 128 300).wf = false := by decide
theorem test_short_icv : (PtpAuth.mk 1 2 [0]).wf = false := by decide
theorem test_message_fits : (ptpIn .sync).wf = true := by decide

/-! A reference for the configuration check, without computing the CRC of a pass. -/

theorem regHas_ref (s : State) (v : Nat) (p : Port) (b o : Nat) :
    (s.setw HOST.CFGCHK_REF v).regHas p b o = s.regHas p b o := by
  have f1 (n : Nat) : (s.setw HOST.CFGCHK_REF v).f (LOOP.CFG_INKIND n) = s.f (LOOP.CFG_INKIND n) :=
    State.f_setw_other s _ v _ (by show LOOP.CFG n ≠ HOST.CFGCHK_REF; unfold LOOP.CFG HOST.CFGCHK_REF; omega)
  have f2 (n : Nat) : (s.setw HOST.CFGCHK_REF v).ncand n = s.ncand n :=
    State.f_setw_other s _ v _ (by show SEL.CFG n ≠ HOST.CFGCHK_REF; unfold SEL.CFG HOST.CFGCHK_REF; omega)
  unfold State.regHas
  simp only [f1, f2]
  rfl

theorem checkedAt_ref (s : State) (v b o : Nat) (hb : b ≠ 1) (ho : o < 0x4000) :
    (s.setw HOST.CFGCHK_REF v).checkedAt b o = s.checkedAt b o := by
  have f (p : Port) : (s.setw HOST.CFGCHK_REF v).regFind p b o = s.regFind p b o := by
    unfold State.regFind; simp only [regHas_ref]
  have w (p : Port) (d : RegDef) : (s.setw HOST.CFGCHK_REF v).checkBytes p d b o = s.checkBytes p d b o := by
    unfold State.checkBytes
    rw [State.w_setw_other s]
    unfold regKey HOST.CFGCHK_REF
    cases p <;> simp only [portBase] <;> split <;> omega
  unfold State.checkedAt
  simp only [f, w]

/-- The bytes that a pass covers. -/
def passBytes (s : State) : List Byte :=
  ((List.range 256).filter (fun b => b != 1 && s.built b)).flatMap
    (fun b => (List.range 4096).flatMap (fun i => s.checkedAt b (4 * i)))

theorem checkCrc_eq (s : State) : s.checkCrc = crc32c (passBytes s) := rfl

theorem passBytes_ref (s : State) (v : Nat) : passBytes (s.setw HOST.CFGCHK_REF v) = passBytes s := by
  have h : (fun b => b != 1 && (s.setw HOST.CFGCHK_REF v).built b) = (fun b => b != 1 && s.built b) := rfl
  unfold passBytes
  rw [h, List.flatMap_def, List.flatMap_def]
  refine congrArg _ (List.map_congr_left fun b hb => ?_)
  rw [List.flatMap_def, List.flatMap_def]
  refine congrArg _ (List.map_congr_left fun i hi => checkedAt_ref s v b (4 * i) ?_ ?_)
  · rintro rfl
    exact absurd (List.mem_filter.mp hb).2 (by rw [bne_self_eq_false, Bool.false_and]; exact Bool.false_ne_true)
  · have := List.mem_range.mp hi
    omega

theorem checkCrc_ref (s : State) (v : Nat) : (s.setw HOST.CFGCHK_REF v).checkCrc = s.checkCrc := by
  rw [checkCrc_eq, checkCrc_eq, passBytes_ref]

theorem checkCrc_lt (s : State) : s.checkCrc < 2 ^ 32 := by
  have h (bs : List Byte) : crc32c bs < 2 ^ 32 := Nat.lt_of_le_of_lt (Nat.sub_le _ _) (by decide)
  exact h (passBytes s)

/-- A state in which a pass compares, with its reference still to be chosen. -/
def comparing : State :=
  put live [(HOST.CFGCHK_CTRL_EN, 1), (HOST.CFGCHK_STAT_COMPARING, 1), (HOST.CFGCHK_STAT_DIRTY, 0)]

/-- What a pass reads of a state stays when the reference is chosen. -/
theorem pass_ref (s : State) (v : Nat) :
    (s.setw HOST.CFGCHK_REF v).checking = s.checking ∧ (s.setw HOST.CFGCHK_REF v).cfg = s.cfg ∧
      (s.setw HOST.CFGCHK_REF v).f HOST.CFGCHK_STAT_DIRTY = s.f HOST.CFGCHK_STAT_DIRTY ∧
      (s.setw HOST.CFGCHK_REF v).f HOST.CFGCHK_STAT_COMPARING = s.f HOST.CFGCHK_STAT_COMPARING ∧
      (s.setw HOST.CFGCHK_REF v).reaction 1 20 = s.reaction 1 20 ∧ (s.setw HOST.CFGCHK_REF v).flt = s.flt := by
  have h (x : Fld) (hx : x.key ≠ HOST.CFGCHK_REF) : (s.setw HOST.CFGCHK_REF v).f x = s.f x :=
    State.f_setw_other _ _ v _ hx
  refine ⟨?_, rfl, h _ (by decide), h _ (by decide), rfl, rfl⟩
  unfold State.checking State.landed State.on
  rw [h _ (by decide), h _ (by decide)]

theorem compares (s : State) (h1 : s.checking = true) (h2 : s.cfg.spoiled = false) (h3 : s.cfg.commit < 2)
    (h4 : s.f HOST.CFGCHK_STAT_DIRTY = 0) (h5 : s.f HOST.CFGCHK_STAT_COMPARING = 1) (h6 : s.flt.injCheck = false)
    (h7 : s.reaction 1 20 < 8) :
    (∃ (s : State), s.checking = true ∧ s.cfg.spoiled = false ∧ s.cfg.commit < 2 ∧ s.f HOST.CFGCHK_STAT_DIRTY = 0 ∧ s.f HOST.CFGCHK_STAT_COMPARING = 1 ∧ s.w HOST.CFGCHK_REF ≠ s.checkCrc % 2 ^ 32 ∧ s.flt.injCheck = false ∧ s.reaction 1 20 < 8) ∧
    (∃ (s : State), s.checking = true ∧ s.cfg.spoiled = false ∧ s.cfg.commit < 2 ∧ s.f HOST.CFGCHK_STAT_DIRTY = 0 ∧ s.f HOST.CFGCHK_STAT_COMPARING = 1 ∧ s.w HOST.CFGCHK_REF = s.checkCrc % 2 ^ 32 ∧ s.checkCrc < 2 ^ 32) := by
  have h (n : Nat) : (n + 1) % 2 ^ 32 ≠ n % 2 ^ 32 := by omega
  obtain ⟨a1, a2, a3, a4, a5, a6⟩ := pass_ref s (s.checkCrc + 1)
  obtain ⟨b1, b2, b3, b4, b5, b6⟩ := pass_ref s s.checkCrc
  refine ⟨⟨s.setw HOST.CFGCHK_REF (s.checkCrc + 1), ?_⟩, ⟨s.setw HOST.CFGCHK_REF s.checkCrc, ?_⟩⟩
  · rw [a1, a2, a3, a4, a5, a6, checkCrc_ref, State.w_setw_self]
    exact ⟨h1, h2, h3, h4, h5, h _, h6, h7⟩
  · rw [b1, b2, b3, b4, checkCrc_ref, State.w_setw_self]
    exact ⟨h1, h2, h3, h4, h5, rfl, checkCrc_lt s⟩

theorem compared :
    (∃ (s : State), s.checking = true ∧ s.cfg.spoiled = false ∧ s.cfg.commit < 2 ∧ s.f HOST.CFGCHK_STAT_DIRTY = 0 ∧ s.f HOST.CFGCHK_STAT_COMPARING = 1 ∧ s.w HOST.CFGCHK_REF ≠ s.checkCrc % 2 ^ 32 ∧ s.flt.injCheck = false ∧ s.reaction 1 20 < 8) ∧
    (∃ (s : State), s.checking = true ∧ s.cfg.spoiled = false ∧ s.cfg.commit < 2 ∧ s.f HOST.CFGCHK_STAT_DIRTY = 0 ∧ s.f HOST.CFGCHK_STAT_COMPARING = 1 ∧ s.w HOST.CFGCHK_REF = s.checkCrc % 2 ^ 32 ∧ s.checkCrc < 2 ^ 32) :=
  compares comparing (by decide +kernel) (by decide +kernel) (by decide +kernel) (by decide +kernel)
  (by decide +kernel) (by decide +kernel) (by decide +kernel)

/-! A checkpoint that stands. -/

/-- The register of CRC-32C after some bytes. -/
def crcFold (bs : List Byte) (c : Nat) : Nat := bs.foldl (fun c b => crcShift 0x82F63B78 8 (Nat.xor c b.toNat)) c

theorem crcFold_append (a b : List Byte) (x y z : Nat) (h : crcFold a x = y) (h' : crcFold b y = z) : crcFold (a ++ b) x = z := by
  unfold crcFold at *
  rw [List.foldl_append, h, h']

theorem crc_of_fold (bs : List Byte) (v : Nat) (h : crcFold bs 0xFFFFFFFF = v) : crc32c bs = 0xFFFFFFFF - v := by
  rw [← h]
  rfl

theorem crc_zeros (r : List Byte) (hr : r = List.replicate 127 0) : crc32c (((r ++ r) ++ r) ++ r) = 0xFFFFFFFF - 329799228 := by
  have h1 : crcFold r 0xFFFFFFFF = 2705689140 := by subst hr; decide +kernel
  have h2 : crcFold r 2705689140 = 549633433 := by subst hr; decide +kernel
  have h3 : crcFold r 549633433 = 4050580991 := by subst hr; decide +kernel
  have h4 : crcFold r 4050580991 = 329799228 := by subst hr; decide +kernel
  exact crc_of_fold _ _ (crcFold_append _ _ _ _ _ (crcFold_append _ _ _ _ _ (crcFold_append _ _ _ _ _ h1 h2) h3) h4)

theorem checkpoint_stands (s : State) (hm : s.mem = checkpointed.mem) (he : s.ecc = []) (hk : s.eng.cks = [(2, ckpt)]) :
    s.lastCheckpoint 1 = some ckpt := by
  have hb (a n : Nat) : s.bytes a n = checkpointed.bytes a n := by unfold State.bytes; rw [hm]
  have h1 : (checkpointed.bytes (slotAt 1 0) 0x200).take 0x1FC = List.replicate 508 0 := by decide +kernel
  have h2 : ofLe ((checkpointed.bytes (slotAt 1 0) 0x200).drop 0x1FC) = 3965168067 := by decide +kernel
  have hz := crc_zeros _ rfl
  have hr (r : List Byte) (h : r = List.replicate 127 0) : List.replicate 508 0 = ((r ++ r) ++ r) ++ r := by
    subst h; decide +kernel
  have hc (v : Nat) (h : v = 0xFFFFFFFF - 329799228) : (3965168067 == v) = true := by subst h; decide
  have h : s.slotGood 1 0 = true := by
    unfold State.slotGood State.bankBad
    rw [he, hb]
    dsimp only
    rw [h1, h2, hr _ rfl, hc _ hz]
    rfl
  have hw : ¬ s.word64 (slotAt 1 0) < s.word64 (slotAt 1 1) := by
    unfold State.word64
    rw [hb, hb]
    decide +kernel
  have hs : s.lastSlot 1 = some 0 := by
    unfold State.lastSlot
    rw [h, if_neg hw]
    simp
  unfold State.lastCheckpoint
  rw [hs, hk]
  rfl

/-! Witnesses of the hypotheses, named after the statements. -/

theorem witness_StepRunsFrontCommand :
    ∃ (c : Instr) (rest : List Instr) (s : State), s.pending = c :: rest :=
  ⟨.coarseWrap, [.xoinLost], { State.reset with pending := [.coarseWrap, .xoinLost] }, rfl⟩

theorem witness_CommandsKeepQueue :
    ∃ (c : Instr) (s t : State), exec c s = Host.Outcome.next t :=
  ⟨.coarseWrap, { live with pending := [.xoinLost] }, _, rfl⟩

theorem witness_CommandsTouchOnly :
    ∃ (c : Instr) (s t : State) (q : Part), exec c s = Host.Outcome.next t ∧ q ∉ touches c :=
  ⟨.coarseWrap, live, _, .mem, rfl, by decide +kernel⟩

theorem witness_StepKeepsTablesCanonical :
    ∃ (s t : State), s.tablesWf = true ∧ step s = Host.Outcome.next t :=
  ⟨{ bare with pending := [.coarseWrap] }, _, by decide +kernel, rfl⟩

theorem witness_NumbersStayInRange :
    ∃ (s t : State), s.numbered = true ∧ step s = Host.Outcome.next t :=
  ⟨{ live with pending := [.coarseWrap] }, _, by decide +kernel, rfl⟩

theorem witness_DeviceConditionsFollowTheirCauses :
    (∃ (s : State), s.top.phase ≠ Phase.held ∧ s.f FLT.DEVICE_XOIN = 0 ∧ s.flt.injCheck = false ∧ s.reaction 0 2 < 8) ∧
    (∃ (s : State), s.top.phase ≠ Phase.held ∧ s.f FLT.DEVICE_REFSYN = 0 ∧ s.flt.injCheck = false ∧ s.reaction 0 4 < 8) ∧
    (∃ (deg : ℤ) (s : State), s.top.phase ≠ Phase.held ∧ s.f FLT.DEVICE_TEMP = 0 ∧ s.flt.injCheck = false ∧ s.reaction 0 5 < 8 ∧
      (if s.f TOP.ID_GRADE = 2 then 125 else 110) * 128 < deg) ∧
    (∃ (rail : Fin 14) (s : State), s.top.phase ≠ Phase.held ∧ ↑rail ∉ s.flt.rails ∧ s.flt.injCheck = false ∧
      s.reaction 0 1 < 8) :=
  ⟨⟨bare, by decide +kernel⟩,
   ⟨bare, by decide +kernel⟩,
   ⟨14081, bare, by decide +kernel⟩,
   ⟨13, bare, by decide +kernel⟩⟩

theorem witness_VoltageLoop :
    (∃ (s : State), s.top.phase ≠ Phase.held ∧ s.top.phase ≠ Phase.straps ∧ s.on PWR.AVS_STATUS_BUSERR = false ∧
      s.on PWR.AVS_CTRL_MANUAL = false ∧ s.on PWR.AVS_STATUS_DEFICIT = false ∧ s.flt.injWindows = 0 ∧ s.pwr.code < 44 ∧
      s.top.phase ≠ Phase.flm) ∧
    (∃ (mv c : ℕ) (ok : Bool) (s : State), s.pwr.stepping = some c ∧ s.on PWR.AVS_STATUS_BUSERR = false ∧
      s.flt.injCheck = false ∧ s.flt.injAvs = false ∧ s.reaction 0 6 < 8 ∧ c < 64 ∧ (ok = false ∨ 2 ≤ s.pwr.badReads ∧
      (mv + 10 < 620 + 5 * c ∨ 620 + 5 * c + 10 < mv))) :=
  ⟨⟨bare, by decide +kernel⟩,
   ⟨0, 43, false, { bare with pwr := { stepping := some 43 } }, by decide +kernel⟩⟩

theorem witness_Resets :
    (∃ (s : State), s.top.phase ≠ Phase.held) ∧
    (∃ (s : State), s.top.phase ≠ Phase.held) ∧
    (∃ (s : State), s.answers = true ∧ s.top.fullHeld = false) ∧
    (∃ (s : State), s.top.fullHeld = true) ∧
    (∃ (p : Port) (s : State), s.takes p TOP.CMD false) ∧
    (∃ (p : Port) (key : Word) (s : State), s.takes p TOP.CMD false ∧ key ≠ 42241) :=
  ⟨⟨live, by decide +kernel⟩,
   ⟨live, by decide +kernel⟩,
   ⟨live, by decide +kernel⟩,
   ⟨{ live with top := { live.top with fullHeld := true, inFull := true } }, by decide +kernel⟩,
   ⟨.b, live, by unfold State.takes; decide +kernel⟩,
   ⟨.a, 0xA502, live, by unfold State.takes; decide +kernel⟩⟩

theorem witness_StartUpSteps :
    (∃ (s : State), s.top.phase = Phase.held ∧ s.sec.tapHold = false) ∧
    (∃ (s : State), s.top.phase = Phase.straps ∧ s.on FLT.DEVICE_XOIN = false) ∧
    (∃ (s : State), s.top.phase = Phase.refsyn ∧ s.sec.fuse = []) ∧
    (∃ (s : State), s.top.phase = Phase.init ∧ s.nv.commit = none) ∧
    (∃ (s : State), s.top.phase = Phase.nv ∧ s.pwr.regulated = false) :=
  ⟨⟨{ State.reset with top := { State.reset.top with phase := .held } }, by decide +kernel⟩,
   ⟨{ State.reset with top := { State.reset.top with phase := .straps } }, by decide +kernel⟩,
   ⟨{ State.reset with top := { State.reset.top with phase := .refsyn } }, by decide +kernel⟩,
   ⟨{ State.reset with top := { State.reset.top with phase := .init } }, by decide +kernel⟩,
   ⟨{ State.reset with top := { State.reset.top with phase := .nv } }, by decide +kernel⟩⟩

theorem witness_FabOperations :
    (∃ (p : Port) (s : State), s.takes p FAB.OP false ∧ s.f FAB.OP_STATUS_BUSY = 0 ∧ s.f FAB.STATE_SLIPWAY ≠ 2) ∧
    (∃ (p : Port) (s : State), s.takes p FAB.OP false ∧ s.f FAB.OP_STATUS_BUSY = 0 ∧ s.f FAB.STATE_SLIPWAY = 1 ∧
      256 ≤ s.w FAB.OP_ARG ∧ s.w FAB.OP_ARG ≤ 8388608) ∧
    (∃ (p : Port) (k : BitVec 2) (s : State), s.takes p FAB.OP false ∧ s.f FAB.OP_STATUS_BUSY = 0 ∧ s.f FAB.STATE_SLIPWAY = 3 ∧
      k ≠ 3 ∧ s.f FAB.SLOTS_CURRENT ≠ k.toNat ∧ ¬(k = 2 ∧ s.on FAB.CTRL_GOLDEN_LOCK = true) ∧ s.flm.takenOf k.toNat = 0) ∧
    (∃ (p : Port) (k : BitVec 2) (s : State), s.takes p FAB.OP false ∧ s.f FAB.OP_STATUS_BUSY = 0 ∧ k ≠ 3 ∧
      (s.f (slotField k.toNat) = 1 ∨ s.f (slotField k.toNat) = 2)) ∧
    (∃ (p : Port) (k : BitVec 2) (s : State), s.takes p FAB.OP false ∧ s.f FAB.OP_STATUS_BUSY = 0 ∧ k.toNat < 2 ∧
      s.f FAB.SLOTS_CURRENT ≠ k.toNat) ∧
    (∃ (p : Port) (s : State), s.takes p FAB.OP false ∧ s.f FAB.OP_STATUS_BUSY = 0 ∧ s.f FAB.STATE_SLIPWAY = 2) ∧
    (∃ (p : Port) (s : State), s.takes p FAB.OP false ∧ s.f FAB.OP_STATUS_BUSY = 0 ∧
      (s.f FAB.STATE_SLIPWAY ≠ 1 ∨ s.w FAB.OP_ARG < 256 ∨ 8388608 < s.w FAB.OP_ARG)) ∧
    (∃ (p : Port) (s : State) (k : BitVec 2), s.takes p FAB.OP false ∧ s.f FAB.OP_STATUS_BUSY = 0 ∧
      (k = 3 ∨ s.f FAB.STATE_SLIPWAY ≠ 3)) ∧
    (∃ (p : Port) (s : State) (k : BitVec 2), s.takes p FAB.OP false ∧ s.f FAB.OP_STATUS_BUSY = 0 ∧ k ≠ 3 ∧
      s.f FAB.STATE_SLIPWAY = 3 ∧ (s.f FAB.SLOTS_CURRENT = k.toNat ∨ k = 2 ∧
      s.on FAB.CTRL_GOLDEN_LOCK = true ∨ 0 < s.flm.takenOf k.toNat)) ∧
    (∃ (p : Port) (s : State) (k : BitVec 2), s.takes p FAB.OP false ∧ s.f FAB.OP_STATUS_BUSY = 0 ∧ k.toNat < 2 ∧
      s.f FAB.SLOTS_CURRENT = k.toNat) :=
  ⟨⟨.a, bare, by unfold State.takes; decide +kernel⟩,
   ⟨.b, setws (put (bare) [(FAB.STATE_SLIPWAY, 1)]) [(FAB.OP_ARG, 256)], by unfold State.takes; decide +kernel⟩,
   ⟨.a, 1, put (bare) [(FAB.STATE_SLIPWAY, 3), (FAB.SLOTS_CURRENT, 3), (FAB.SLOTS_B_ST, 2)],
     by unfold State.takes; decide +kernel⟩,
   ⟨.b, 2, put (bare) [(FAB.SLOTS_GOLDEN_ST, 2)], by unfold State.takes; decide +kernel⟩,
   ⟨.a, 1, put (bare) [(FAB.SLOTS_CURRENT, 3)], by unfold State.takes; decide +kernel⟩,
   ⟨.a, put (bare) [(FAB.STATE_SLIPWAY, 2)], by unfold State.takes; decide +kernel⟩,
   ⟨.b, setws (put (bare) [(FAB.STATE_SLIPWAY, 1)]) [(FAB.OP_ARG, 255)], by unfold State.takes; decide +kernel⟩,
   ⟨.a, put (bare) [(FAB.STATE_SLIPWAY, 3)], 3, by unfold State.takes; decide +kernel⟩,
   ⟨.a, put (bare) [(FAB.STATE_SLIPWAY, 3), (FAB.SLOTS_CURRENT, 1)], 1, by unfold State.takes; decide +kernel⟩,
   ⟨.a, put (bare) [(FAB.SLOTS_CURRENT, 1)], 1, by unfold State.takes; decide +kernel⟩⟩

theorem witness_FabOperationsEnd :
    (∃ (s : State) (o : FabOp), s.fabRuns 3 = some o ∧ s.f (slotField o.slot) = 0 ∧ s.flashReady = true) ∧
    (∃ (s : State) (o : FabOp), s.fabRuns 7 = some o) ∧
    (∃ (s : State) (o : FabOp), s.fabRuns 4 = some o ∧ s.fab.load = none ∧ s.slotLost o.slot = false ∧ s.flashReady = true ∧
      s.verifyTurn VerifyReq.image = true ∧ s.flt.injCheck = false ∧ s.reaction 2 8 < 8 ∧ s.reaction 2 9 < 8) ∧
    (∃ (s : State) (o : FabOp), s.fabRuns 2 = some o ∧ s.verifyTurn VerifyReq.image = true ∧ s.ecc = [] ∧
      s.flt.injCheck = false ∧ s.reaction 2 8 < 8 ∧ s.reaction 2 9 < 8) ∧
    (∃ (s : State) (o : FabOp) (n : ℕ), s.sec.firstCount = some n ∧ s.fabRuns 6 = some o ∧ o.arg ≤ n) ∧
    (∃ (s : State) (j : SwitchJob), s.xlk.switching = some j ∧ j.activate = true ∧ s.fab.handover.isSome = true) :=
  ⟨⟨{ bare with fab := { op := some ⟨3, 1, .a, 0⟩ }, mem := [(slipBase, 7), (slipBase + 5, 9)], flash := [(slotBase 1 + 2, 5), (slotBase 1 + slipSize, 6)] },
    ⟨3, 1, .a, 0⟩, by decide +kernel⟩,
   ⟨{ bare with fab := { op := some ⟨7, 0, .a, 0⟩ }, flash := [(slotBase 0 - 1, 5), (slotBase 0 + 2, 5), (slotBase 0 + slipSize, 6)] },
     ⟨7, 0, .a, 0⟩, by decide +kernel⟩,
   ⟨{ bare with fab := { op := some ⟨4, 2, .a, 0⟩ }, flash := [(slotBase 2, 0x49), (slotBase 2 + 11, 5)] }, ⟨4, 2, .a, 0⟩,
     by decide +kernel⟩,
   ⟨{ bare with fab := { op := some ⟨2, 3, .a, 256⟩ }, mem := [(slipBase, 7), (slipBase + 5, 9)] }, ⟨2, 3, .a, 256⟩,
     by decide +kernel⟩,
   ⟨{ bare with fab := { op := some ⟨6, 3, .a, 64⟩ }, sec := { fuse := [.count 64] } }, ⟨6, 3, .a, 64⟩, 64, by decide +kernel⟩,
   ⟨{ live with fab := { live.fab with op := some ⟨5, 0, .a, 0⟩, handover := some .a }, xlk := { switching := some ⟨1, .a, true⟩ } },
     ⟨1, .a, true⟩, by decide +kernel⟩⟩

theorem witness_FabIdentityAndActivation :
    (∃ (p : Port) (k : BitVec 2) (s : State) (b : List Byte), s.takes p FAB.OP false ∧ s.f FAB.OP_STATUS_BUSY = 0 ∧
      s.slotId k.toNat = some b) ∧
    (∃ (p : Port) (s : State) (i : Image), s.takes p FAB.OP false ∧ s.f FAB.OP_STATUS_BUSY = 0 ∧ s.landed = true ∧
      s.fab.img = some i ∧ s.f FAB.SECVER_FUSES < s.w FAB.OP_ARG ∧ s.w FAB.OP_ARG ≤ i.secVer ∧ s.w FAB.OP_ARG ≤ 64 ∧
      s.f FAB.SLOTS_GOLDEN_ST ≠ 0 ∧ s.w FAB.OP_ARG ≤ s.f FAB.SECVER_GOLDEN_SV) ∧
    (∃ (p : Port) (s : State), s.takes p FAB.OP false ∧ s.f FAB.OP_STATUS_BUSY = 0 ∧ s.f FAB.STATE_SLIPWAY = 3 ∧
      s.f FAB.STATE_VSLOT ≠ 3 ∧ s.xlkBuilt = false ∧ s.top.phase = Phase.running ∧ s.top.inFull = false ∧
      s.top.fullHeld = false ∧ s.fab.load = none) :=
  ⟨⟨.a, 3, { live with fab := { img := some { image with imageId := List.replicate 16 1, hash := List.replicate 48 2 } } },
    List.replicate 16 1 ++ List.replicate 48 2, by unfold State.takes; decide +kernel⟩,
   ⟨.b, setws (put (live) [(FAB.SECVER_GOLDEN_SV, 3), (FAB.SLOTS_GOLDEN_ST, 2)]) [(FAB.OP_ARG, 3)], image,
     by unfold State.takes; decide +kernel⟩,
   ⟨.a, put (live) [(FAB.STATE_SLIPWAY, 3), (FAB.STATE_VSLOT, 1)], by unfold State.takes; decide +kernel⟩⟩

theorem witness_LoadsEnd :
    (∃ (s : State) (j : LoadJob) (c off : ℕ), s.fab.load = some j ∧ s.slipwayBad j = false ∧
      s.loadVerdict j = Verdict.bad c off ∧ s.flt.injCheck = false ∧ s.reaction 2 8 < 8 ∧ s.reaction 2 9 < 8 ∧ j.slot < 2) ∧
    (∃ (s : State) (j : LoadJob), s.fab.load = some j ∧ s.slipwayBad j = true) ∧
    (∃ (s : State) (j : LoadJob), s.fab.load = some j ∧ j.since + s.watchdogMs * 2000000 ≤ s.now ∧ s.flt.injCheck = false ∧
      s.reaction 2 10 < 8 ∧ j.slot < 2) :=
  ⟨⟨{ bare with fab := { load := some ⟨0, false, [], 0, true, 0, none, 0⟩ } }, ⟨0, false, [], 0, true, 0, none, 0⟩, 1, 0,
    by decide +kernel⟩,
   ⟨{ bare with fab := { load := some ⟨1, true, [], 1, true, 0, none, 0⟩ }, ecc := [(slipBase / 8, 2)] }, ⟨1, true, [], 1, true,
     0, none, 0⟩, by decide +kernel⟩,
   ⟨{ bare with fab := { load := some ⟨1, false, [], 1, true, 0, none, 0⟩ }, now := 2000000000 }, ⟨1, false, [], 1, true, 0,
     none, 0⟩, by decide +kernel⟩⟩

theorem witness_RegisterCommandsStore :
    (∃ (p : Port) (n : Fin 32) (a : RegAcc) (s : State), s.performs p (LND.DECIM ↑n) a) ∧
    (∃ (p : Port) (n : Fin 32) (a : RegAcc) (s : State), s.performs p (LND.DECIM ↑n) a) ∧
    (∃ (p : Port) (n : Fin 32) (a : RegAcc) (s : State), s.performs p (LND.GATE ↑n) a) ∧
    (∃ (p : Port) (n : Fin 32) (a : RegAcc) (s : State), s.performs p (LOOP.BW ↑n) a) ∧
    (∃ (p : Port) (n : Fin 32) (a : RegAcc) (s : State), s.performs p (LOOP.SLOPE ↑n) a) ∧
    (∃ (p : Port) (n : Fin 32) (a : RegAcc) (s : State), s.performs p (LOOP.FREE_FREQ ↑n) a) ∧
    (∃ (p : Port) (n : Fin 32) (a : RegAcc) (s : State), s.performs p (LOOP.DAMP ↑n) a) ∧
    (∃ (p : Port) (n : Fin 32) (a : RegAcc) (s : State), s.performs p (LOOP.HO_TEMP ↑n) a) ∧
    (∃ (p : Port) (n : Fin 32) (a : RegAcc) (s : State), s.performs p (LOOP.HO_CTRL ↑n) a) ∧
    (∃ (p : Port) (r : Fin 256) (w : Fin 3) (a : RegAcc) (s : State), s.performs p (EVR.ROUTE_SRC ↑r + 4 * ↑w) a) ∧
    (∃ (p : Port) (r : Fin 256) (w : Fin 3) (a : RegAcc) (s : State), s.performs p (EVR.ROUTE_SRC ↑r + 4 * ↑w) a) ∧
    (∃ (p : Port) (a : RegAcc) (s : State), s.performs p HOST.CFGCHK_REF a) ∧
    (∃ (p : Port) (k : Fin 20) (a : RegAcc) (s : State), s.performs p (INTR.MASK Port.a ↑k) a) ∧
    (∃ (p : Port) (k : Fin 20) (a : RegAcc) (s : State), s.performs p (INTR.MASK Port.a ↑k) a) :=
  ⟨⟨.a, 31, ⟨.normal, 0, .b4, 100⟩, live, by unfold State.performs; decide +kernel⟩,
   ⟨.b, 0, ⟨.toggle, 0, .b4, 1⟩, live, by unfold State.performs; decide +kernel⟩,
   ⟨.a, 31, ⟨.normal, 0, .b2, 10000⟩, live, by unfold State.performs; decide +kernel⟩,
   ⟨.a, 31, ⟨.normal, 0, .b4, 1000000⟩, live, by unfold State.performs; decide +kernel⟩,
   ⟨.a, 31, ⟨.normal, 0, .b4, 1000⟩, live, by unfold State.performs; decide +kernel⟩,
   ⟨.a, 31, ⟨.normal, 0, .b4, 1000⟩, live, by unfold State.performs; decide +kernel⟩,
   ⟨.a, 31, ⟨.normal, 0, .b4, 1280⟩, live, by unfold State.performs; decide +kernel⟩,
   ⟨.b, 0, ⟨.normal, 0, .b4, 640⟩, live, by unfold State.performs; decide +kernel⟩,
   ⟨.a, 3, ⟨.normal, 0, .b4, 257⟩, live, by unfold State.performs; decide +kernel⟩,
   ⟨.a, 255, 2, ⟨.normal, 0, .b4, 0x30000000⟩, live, by unfold State.performs; decide +kernel⟩,
   ⟨.a, 0, 0, ⟨.normal, 0, .b4, 1⟩, live, by unfold State.performs; decide +kernel⟩,
   ⟨.a, ⟨.normal, 0, .b4, 0x12345678⟩, live, by unfold State.performs; decide +kernel⟩,
   ⟨.b, 19, ⟨.normal, 0, .b4, 0xFFFFFFFF⟩, live, by unfold State.performs; decide +kernel⟩,
   ⟨.a, 2, ⟨.setPeek, 0, .b4, 0xF⟩, live, by unfold State.performs; decide +kernel⟩⟩

theorem witness_RegisterCommandsStoreAndAct :
    (∃ (p : Port) (n : Fin 32) (a : RegAcc) (s : State), s.performs p (LND.CTRL ↑n) a) ∧
    (∃ (p : Port) (n : Fin 32) (a : RegAcc) (s : State), s.performs p (LND.NOM_FREQ ↑n) a) ∧
    (∃ (p : Port) (a : RegAcc) (s : State), s.performs p (LND.OBS 31) a) ∧
    (∃ (p : Port) (n : Fin 32) (a : RegAcc) (s : State), s.performs p (LND.SLICE ↑n) a) ∧
    (∃ (p : Port) (n : Fin 16) (a : RegAcc) (s : State), s.performs p (SEL.FORCE ↑n) a) ∧
    (∃ (p : Port) (n : Fin 16) (k : Fin 30) (a : RegAcc) (s : State), s.performs p (SEL.CAND_CFG ↑n ↑k) a) ∧
    (∃ (p : Port) (m : Fin 28) (a : RegAcc) (s : State), s.performs p (OUT.CTRL ↑m) a) ∧
    (∃ (p : Port) (m : Fin 28) (a : RegAcc) (s : State), s.performs p (OUT.CTRL ↑m) a) ∧
    (∃ (p : Port) (n : Fin 8) (a : RegAcc) (s : State), s.performs p (PRT.CTRL ↑n) a) ∧
    (∃ (p : Port) (n : Fin 8) (a : RegAcc) (s : State), s.performs p (PRT.CTRL ↑n) a) ∧
    (∃ (p : Port) (n : Fin 8) (a : RegAcc) (s : State), s.performs p (PRT.TXCLK ↑n) a) ∧
    (∃ (p : Port) (a : RegAcc) (s : State), s.performs p XLK.CTRL a) :=
  ⟨⟨.a, 31, ⟨.normal, 0, .b4, 0x10000⟩, live, by unfold State.performs; decide +kernel⟩,
   ⟨.b, 3, ⟨.normal, 0, .b4, 20000000⟩, live, by unfold State.performs; decide +kernel⟩,
   ⟨.a, ⟨.normal, 0, .b4, 1⟩, live, by unfold State.performs; decide +kernel⟩,
   ⟨.a, 0, ⟨.normal, 0, .b1, 17⟩, live, by unfold State.performs; decide +kernel⟩,
   ⟨.a, 15, ⟨.normal, 0, .b4, 0x80000001⟩, put live [(SEL.CFG_NCAND 15, 2)], by unfold State.performs; decide +kernel⟩,
   ⟨.a, 15, 2, ⟨.normal, 0, .b4, 256⟩, put live [(SEL.CFG_NCAND 15, 3)], by unfold State.performs; decide +kernel⟩,
   ⟨.a, 24, ⟨.normal, 0, .b4, 1⟩, live, by unfold State.performs; decide +kernel⟩,
   ⟨.b, 0, ⟨.normal, 0, .b4, 1⟩, live, by unfold State.performs; decide +kernel⟩,
   ⟨.a, 7, ⟨.normal, 0, .b4, 1⟩, live, by unfold State.performs; decide +kernel⟩,
   ⟨.a, 1, ⟨.normal, 0, .b1, 1⟩, put live [(PRT.STATUS_LINK 1, 1), (PRT.CTRL_ADMIN 1, 1)],
     by unfold State.performs; decide +kernel⟩,
   ⟨.a, 7, ⟨.normal, 0, .b4, 1⟩, live, by unfold State.performs; decide +kernel⟩,
   ⟨.a, ⟨.normal, 0, .b4, 0x10001⟩, crossing, by unfold State.performs; decide +kernel⟩⟩

theorem witness_CoefficientsAndWeights :
    (∃ (p : Port) (n : Fin 32) (v : Word) (s : State), s.performs p (LOOP.COEF_P ↑n) (wholeWord (BitVec.toNat v))) ∧
    (∃ (p : Port) (n : Fin 32) (v : Word) (s : State), s.performs p (LOOP.COEF_I ↑n) (wholeWord (BitVec.toNat v))) ∧
    (∃ (p : Port) (n : Fin 32) (a : RegAcc) (s : State), s.performs p (LOOP.WEIGHT (↑n) 3) a) :=
  ⟨⟨.a, 31, 0x800000, live, by unfold State.performs; decide +kernel⟩,
   ⟨.a, 31, 0x800000, live, by unfold State.performs; decide +kernel⟩,
   ⟨.a, 3, ⟨.normal, 0, .b4, 16384⟩, put (live.modLoop 3 (fun c => { c with heldWeights := [some 0x8000, none, some 0] }))
     [(LOOP.CFG_INKIND 3, 2), (LOOP.WEIGHT_W 3 1, 0x4000)], by unfold State.performs; decide +kernel⟩⟩

theorem witness_RegisterWrites :
    (∃ (p : Port) (K : ℕ) (a : RegAcc) (s : State) (d : RegDef), K / 65536 ∈ [3, 7, 8, 96, 97, 98, 99, 100, 101, 102, 103] ∧
      K % 65536 < 16384 ∧ K % 4 = 0 ∧ s.regFind p (K / 65536) (K % 65536) = some d ∧ d.status = false ∧
      doorbellReg (K / 65536) (K % 65536) = false ∧ s.performs p K a) ∧
    (∃ (p : Port) (K : ℕ) (a : RegAcc) (s : State) (d : RegDef), K / 65536 ∈ [3, 7, 8, 96, 97, 98, 99, 100, 101, 102, 103] ∧
      K % 65536 < 16384 ∧ K % 4 = 0 ∧ s.regFind p (K / 65536) (K % 65536) = some d ∧ d.status = false ∧
      doorbellReg (K / 65536) (K % 65536) = false ∧ s.performs p K a) ∧
    (∃ (p : Port) (a : Access) (s : State), s.reaches p = true ∧ accessShape p a = true ∧ a.width ≠ Width.b8 ∧
      s.writeCode p a.addr.toNat a.width.bytes a.data.toNat ≠ Code.ok ∧ s.on (HOST.ERR_STAT_VALID p) = false) ∧
    (∃ (p : Port) (a : Access) (s : State), s.reaches p = true ∧ accessShape p a = true ∧ a.width ≠ Width.b8 ∧
      s.writeCode p a.addr.toNat a.width.bytes a.data.toNat ≠ Code.ok ∧ s.on (HOST.ERR_STAT_VALID p) = true) :=
  ⟨⟨.a, 0x30038, ⟨.normal, 0, .b4, 1⟩, bare, (bare.regFind .a 3 0x38).get (by decide +kernel),
    by unfold State.performs; decide +kernel⟩,
   ⟨.a, 0x600018, ⟨.normal, 0, .b4, 1⟩, live, (live.regFind .a 0x60 0x18).get (by decide +kernel),
     by unfold State.performs; decide +kernel⟩,
   ⟨.b, ⟨0x100000, .b4, 15, 1⟩, bare, by decide +kernel⟩,
   ⟨.b, ⟨0x100000, .b4, 15, 1⟩, put bare [(HOST.ERR_STAT_VALID .b, 1)], by decide +kernel⟩⟩

theorem witness_ReadsThatClear :
    (∃ (p : Port) (K : ℕ) (s : State) (d : RegDef), K < 16777216 ∧ K % 65536 < 16384 ∧ K % 4 = 0 ∧ K ≠ PWR.AVS_EVENT ∧
      K / 65536 ≠ 1 ∧ s.reaches p = true ∧ s.regFind p (K / 65536) (K % 65536) = some d ∧ d.status = true ∧
      s.built (K / 65536) = true ∧ s.landedFor (K / 65536) = true) ∧
    (∃ (p : Port) (s : State), s.reaches p = true) ∧
    (∃ (p : Port) (s : State), s.reaches p = true ∧ s.holds p 5 = true) ∧
    (∃ (p : Port) (s : State), s.reaches p = true ∧ s.holds p 5 = false) :=
  ⟨⟨.b, 0x100024, live, (live.regFind .b 0x10 0x24).get (by decide +kernel), by decide +kernel⟩,
   ⟨.b, put bare [(HOST.EVENT_MBOX_OUT .b, 1)], by decide +kernel⟩,
   ⟨.a, put bare [(PWR.AVS_EVENT_BUSERR_SEEN, 1)], by decide +kernel⟩,
   ⟨.a, { live with fab := { img := some { image with helm := [] } } }, by decide +kernel⟩⟩

theorem witness_MailboxAndRingAccesses :
    (∃ (p : Port) (s : State), s.reaches p = true) ∧
    (∃ (p : Port) (v : Word) (s : State), s.reaches p = true ∧ 1 ≤ BitVec.toNat v % 128 ∧ BitVec.toNat v % 128 ≤ 64) ∧
    (∃ (p : Port) (w : Width) (s : State), s.reaches p = true ∧ (p = Port.b → w = Width.b4) ∧
      s.on (HOST.MBOX_STAT_VALID p) = true ∧ s.on (HOST.MBOX_STAT_DEVICE p) = true ∧ 1 ≤ s.f (HOST.MBOX_STAT_LEN p) ∧
      s.f (HOST.MBOX_STAT_LEN p) ≤ 64) ∧
    (∃ (p : Port) (w : Width) (s : State), s.reaches p = true ∧ (p = Port.b → w = Width.b4) ∧
      s.on (HOST.MBOX_STAT_VALID p) = true ∧ s.on (HOST.MBOX_STAT_DEVICE p) = true ∧ 1 ≤ s.f (HOST.MBOX_STAT_LEN p) ∧
      s.f (HOST.MBOX_STAT_LEN p) ≤ 64 ∧ w = Width.b4) ∧
    (∃ (p : Port) (v : Word) (s : State), s.reaches p = true ∧
      (s.f (HOST.RING_PI_PI p) + 65536 - s.f (HOST.RING_STAT_CI p)) % 65536 ≤ (BitVec.toNat v % 65536 + 65536 - s.f
      (HOST.RING_STAT_CI p)) % 65536 ∧ (BitVec.toNat v % 65536 + 65536 - s.f (HOST.RING_STAT_CI p)) % 65536 ≤ 64) :=
  ⟨⟨.b, bare, by decide +kernel⟩,
   ⟨.b, 1, bare, by decide +kernel⟩,
   ⟨.a, .b8, bare.mboxOut .a [1, 2], by decide +kernel⟩,
   ⟨.b, .b4, bare.mboxOut .b (List.replicate 64 5), by decide +kernel⟩,
   ⟨.a, 64, bare, by decide +kernel⟩⟩

theorem witness_ConfigurationCheck :
    (∃ (p : Port) (s : State), s.performs p HOST.CFGCHK_CMD (wholeWord 1)) ∧
    (∃ (s : State), s.checking = true ∧ s.cfg.spoiled = false ∧ s.cfg.commit = 2) ∧
    (∃ (s : State), s.checking = true ∧ s.cfg.spoiled = false ∧ s.cfg.commit < 2 ∧ s.f HOST.CFGCHK_STAT_DIRTY = 0 ∧
      s.f HOST.CFGCHK_STAT_COMPARING = 1 ∧ s.w HOST.CFGCHK_REF ≠ s.checkCrc % 2 ^ 32 ∧ s.flt.injCheck = false ∧
      s.reaction 1 20 < 8) ∧
    (∃ (s : State), s.checking = true ∧ s.cfg.spoiled = false ∧ s.cfg.commit < 2 ∧ s.f HOST.CFGCHK_STAT_DIRTY = 0 ∧
      s.f HOST.CFGCHK_STAT_COMPARING = 1 ∧ s.w HOST.CFGCHK_REF = s.checkCrc % 2 ^ 32 ∧ s.checkCrc < 2 ^ 32) ∧
    (∃ (s : State), s.checking = true ∧ s.cfg.spoiled = true) :=
  ⟨⟨.a, live, by unfold State.performs; decide +kernel⟩,
   ⟨{ put live [(HOST.CFGCHK_CTRL_EN, 1), (HOST.CFGCHK_STAT_COMPARING, 1), (HOST.CFGCHK_STAT_DIRTY, 0)] with cfg := { commit := 2 } },
     by decide +kernel⟩,
   compared.1,
   compared.2,
   ⟨{ put live [(HOST.CFGCHK_CTRL_EN, 1), (HOST.CFGCHK_STAT_COMPARING, 1), (HOST.CFGCHK_STAT_DIRTY, 0)] with cfg := { spoiled := true } },
     by decide +kernel⟩⟩

theorem witness_PortFramesAndResets :
    (∃ (k n : ℕ) (s : State) (c : Instr), s.reaches Port.b = true ∧ 1 ≤ n ∧ k + n ≤ 64 ∧
      s.on (HOST.MBOX_STAT_DEVICE Port.b) = false ∧ c ∈ [Instr.qspiRead (BitVec.ofNat 32 (HOST.MBOX Port.a k)) n,
      Instr.qspiQread (BitVec.ofNat 32 (HOST.MBOX Port.a k)) n]) ∧
    (∃ (k : ℕ) (ws : List Word) (s : State) (c : Instr), s.reaches Port.b = true ∧ ws ≠ [] ∧ k + ws.length ≤ 64 ∧
      c ∈ [Instr.qspiWrite (BitVec.ofNat 32 (HOST.MBOX Port.a k)) ws,
      Instr.qspiQwrite (BitVec.ofNat 32 (HOST.MBOX Port.a k)) ws]) ∧
    (∃ (s : State), s.reaches Port.b = true) ∧
    (∃ (k : PcieReset), k = PcieReset.perst ∧ k ≠ PcieReset.perstRelease ∧ k ≠ PcieReset.backToD0) ∧
    (∃ (k : PcieReset), k = PcieReset.perstRelease ∧ (k = PcieReset.perstRelease ∨ k = PcieReset.backToD0)) ∧
    (∃ (k : PcieReset), k = PcieReset.d3hot) ∧
    (∃ (k : PcieReset), k = PcieReset.backToD0) ∧
    (∃ (speed : BitVec 4) (s : State), s.hostA.inReset = false ∧ s.on (HOST.PORT_SPEED Port.a) ≠ decide (speed ≠ 0)) ∧
    (∃ (s : State), s.reaches Port.a = true) :=
  ⟨⟨60, 4, setws bare [(HOST.MBOX .b 60, 7)], .qspiRead (BitVec.ofNat 32 (HOST.MBOX .a 60)) 4, by decide +kernel⟩,
   ⟨62, [1, 2], bare, .qspiQwrite (BitVec.ofNat 32 (HOST.MBOX .a 62)) [1, 2], by decide +kernel⟩,
   ⟨bare, by decide +kernel⟩,
   ⟨.perst, by decide +kernel⟩,
   ⟨.perstRelease, by decide +kernel⟩,
   ⟨.d3hot, by decide +kernel⟩,
   ⟨.backToD0, by decide +kernel⟩,
   ⟨4, bare, by decide +kernel⟩,
   ⟨bare, by decide +kernel⟩⟩

theorem witness_RingEntries :
    (∃ (p : Port) (s : State), s.ringReady p) ∧
    (∃ (p : Port) (s : State), s.landed = true ∧ s.ringOpen p = true ∧ s.f (HOST.RING_STAT_ACTIVE p) = 0 ∧
      (s.f (HOST.RING_STAT_WAIT_OUT p) = 0 ∨ s.mboxDevice p = false) ∧ s.ringWord p 0 % 256 = 0) ∧
    (∃ (p : Port) (s : State), s.landed = true ∧ s.ringOpen p = true ∧ s.f (HOST.RING_STAT_ACTIVE p) = 0 ∧
      (s.f (HOST.RING_STAT_WAIT_OUT p) = 0 ∨ s.mboxDevice p = false) ∧ ringTakes (s.ringWord p 0 % 256) = true ∧
      s.mboxHost p = false ∧ s.f (HOST.RING_STAT_WAIT_MBOX p) = 0) ∧
    (∃ (p : Port) (s : State), s.ringOpen p = false) :=
  ⟨⟨.a, live, by unfold State.ringReady; decide +kernel⟩,
   ⟨.b, put live [(HOST.RING_PI_PI .b, 1)], by decide +kernel⟩,
   ⟨.a, setws (put live [(HOST.RING_PI_PI .a, 1)]) [(HOST.RING .a 0 0, 0x24)], by decide +kernel⟩,
   ⟨.a, live, by decide +kernel⟩⟩

theorem witness_BerthStore :
    (∃ (p : Port) (a0 a1 : Word) (k : ℕ) (s : State), s.ringReady p ∧ s.createBad (BitVec.toNat a0) (BitVec.toNat a1) = false ∧
      s.holds p (152 + bitsAt (BitVec.toNat a0) 26 24) = true ∧
      s.kindCount (bitsAt (BitVec.toNat a0) 31 28) < s.quota (bitsAt (BitVec.toNat a0) 31 28) ∧ s.freeSlot = some k) ∧
    (∃ (p : Port) (h : Word) (k : ℕ) (s : State), s.ringReady p ∧ s.berthTaken p (BitVec.toNat h) [1, 2, 3, 4] k) ∧
    (∃ (p : Port) (h : Word) (k : ℕ) (s : State), s.ringReady p ∧ s.berthTaken p (BitVec.toNat h) [1, 2, 3, 4] k ∧
      ((s.berthC k).kind = 3 ∨ (s.berthC k).kind = 4 ∨ (s.berthC k).par.mac ≠ 0 ∨ (s.berthC k).par.ipKind ≠ 0 ∨ s.profile
      (s.berthC k).port ≠ 2)) ∧
    (∃ (p : Port) (h : Word) (k : ℕ) (s : State), s.ringReady p ∧ s.berthTaken p (BitVec.toNat h) [1, 2, 3, 4] k) :=
  ⟨⟨.a, 0x13000007, 0, 0, live.modLedger 7 (fun _ => { isOpen := true }), by unfold State.ringReady; decide +kernel⟩,
   ⟨.a, 0x30001fff, 8191, moor (live) 8191 { kind := 3, port := 1 },
     by unfold State.berthTaken State.ringReady; decide +kernel⟩,
   ⟨.b, 0x10000000, 0, moor (live) 0 { kind := 1, port := 1, par := { mac := 1 } },
     by unfold State.berthTaken State.ringReady; decide +kernel⟩,
   ⟨.a, 0x20000005, 5, moor (live) 5 { kind := 2, port := 1, live := true, tenant := 4 },
     by unfold State.berthTaken State.ringReady; decide +kernel⟩⟩

theorem witness_BerthParameters :
    (∃ (p : Port) (h a0 : Word) (k n : ℕ) (up : Bool) (ws : List Word) (q : BerthParams) (s : State), s.ringReady p ∧
      s.berthTaken p (BitVec.toNat h) [1, 2] k ∧ paramShape (BitVec.toNat a0 % 256) = some (n, up) ∧
      (up = true → (s.berthC k).kind = 2) ∧ ((s.berthC k).live = true → 5 ≤ BitVec.toNat a0 % 256 ∧
      BitVec.toNat a0 % 256 ≠ 13) ∧ s.mboxIn p n = some ws ∧ (s.berthC k).par.put (BitVec.toNat a0 % 256) ws = some q ∧
      (BitVec.toNat a0 % 256 = 10 → (q.asym - (s.berthC k).par.asym).natAbs ≤ (s.tscC (s.prtTsc (s.berthC k).port)).thresh *
      1000)) ∧
    (∃ (p : Port) (h a0 : Word) (k n : ℕ) (up : Bool) (s : State), s.ringReady p ∧ s.berthTaken p (BitVec.toNat h) [1, 2] k ∧
      paramShape (BitVec.toNat a0 % 256) = some (n, up) ∧ (up = true → (s.berthC k).kind = 2)) ∧
    (∃ (p : Port) (h a0 a1 : Word) (k e : ℕ) (s : State), s.ringReady p ∧ s.berthTaken p (BitVec.toNat h) [4] k ∧
      s.berthEntry (bitsAt (BitVec.toNat a0) 11 8) (BitVec.toNat a0 % 32) = some e ∧ (a1 = 0 ∨ hKind (BitVec.toNat a1) = 2 ∧
      hSlot (BitVec.toNat a1) < s.usableSlots ∧ s.current (BitVec.toNat a1) = true ∧
      (s.berthC (hSlot (BitVec.toNat a1))).port = (s.berthC k).port) ∧ s.attachedTo (bitsAt (BitVec.toNat a0) 11 8) e = none) ∧
    (∃ (p : Port) (h : Word) (k : ℕ) (s : State), s.ringReady p ∧ s.berthTaken p (BitVec.toNat h) [4] k) :=
  ⟨⟨.a, 0x20000000, 1, 0, 2, false, [5, 6], { mac := 6 * 2 ^ 32 + 5 }, fill (moor (live) 0 { kind := 2, port := 1 }) .a [5, 6],
    by unfold State.berthTaken State.ringReady; decide +kernel⟩,
   ⟨.a, 0x20000000, 10, 0, 2, true, moor (live) 0 { kind := 2, port := 1, par := { asym := -5 } },
     by unfold State.berthTaken State.ringReady; decide +kernel⟩,
   ⟨.a, 0x40000003, 0xF05, 0x20000004, 3, 2,
     put (moor (moor live 3 { kind := 4, port := 1 }) 4 { kind := 2, port := 1 }) [(SEL.CFG_NCAND 15, 3),
     (SEL.CAND_CFG_WHO 15 2, 0x85)], by unfold State.berthTaken State.ringReady; decide +kernel⟩,
   ⟨.b, 0x40000000, 0, put (moor (live) 0 { kind := 4, port := 1, att := some (15, 2, 4) }) [(SEL.CFG_NCAND 15, 3),
     (SEL.CAND_CFG_WHO 15 2, 0x85)], by unfold State.berthTaken State.ringReady; decide +kernel⟩⟩

theorem witness_EventBerths :
    (∃ (p : Port) (h : Word) (k : ℕ) (r : List Word) (q : List (List Word)) (s : State), s.ringReady p ∧
      s.berthTaken p (BitVec.toNat h) [3] k ∧ (s.berthC k).ev.q = r :: q ∧ r.length ≤ 64) ∧
    (∃ (p : Port) (h : Word) (k : ℕ) (s : State), s.ringReady p ∧ s.berthTaken p (BitVec.toNat h) [3] k ∧
      (s.berthC k).ev.q = []) ∧
    (∃ (p : Port) (s : State), s.ringReady p) ∧
    (∃ (p : Port) (h a0 : Word) (k : ℕ) (ws : List Word) (s : State), s.ringReady p ∧ s.berthTaken p (BitVec.toNat h) [3] k ∧
      60 ≤ BitVec.toNat a0 % 65536 ∧ BitVec.toNat a0 % 65536 ≤ 124 ∧
      s.mboxIn p (ceilDiv (BitVec.toNat a0 % 65536) 4) = some ws) ∧
    (∃ (slot : Fin 8192) (r : TaskRun) (rs : List TaskRun) (s : State), s.tasksC (berthTaskKey (↑slot) 0) = r :: rs ∧
      (s.berthC ↑slot).kind = 3 ∧ (s.berthC ↑slot).live = true ∧ (s.berthC ↑slot).ev.q.length < 24 ∧
      (s.berthC ↑slot).ev.lost = false ∧ (s.berthC ↑slot).ordinal < 512 ∧ s.routesOf (256 + (s.berthC ↑slot).ordinal) = []) ∧
    (∃ (slot : Fin 8192) (r : TaskRun) (rs : List TaskRun) (s : State), s.tasksC (berthTaskKey (↑slot) 1) = r :: rs ∧
      (s.berthC ↑slot).live = true ∧ (s.berthC ↑slot).ev.msg = none) ∧
    (∃ (slot : Fin 8192) (r : TaskRun) (rs : List TaskRun) (express : Bool) (bytes : List Byte) (s : State),
      s.tasksC (berthTaskKey (↑slot) 1) = r :: rs ∧ (s.berthC ↑slot).live = true ∧ (s.berthC ↑slot).ev.msg = some (express,
      bytes) ∧ s.on (PRT.STATUS_DORMANT (s.berthC ↑slot).port) = false ∧
      s.on (PRT.STATUS_LINK (s.berthC ↑slot).port) = express ∧ s.ctxUsed (s.berthC ↑slot).port < 1024 ∧
      (TxFrame.mk (TxBody.raw bytes) TxOwner.none).len ≤ s.txFree (s.berthC ↑slot).port) :=
  ⟨⟨.a, 0x30000000, 0, [1, 2], [[3]], moor (live) 0 { kind := 3, port := 1, ev := { q := [[1, 2], [3]] } },
    by unfold State.berthTaken State.ringReady; decide +kernel⟩,
   ⟨.b, 0x30000000, 0, moor (live) 0 { kind := 3, port := 1 }, by unfold State.berthTaken State.ringReady; decide +kernel⟩,
   ⟨.a, moor (live) 0 { kind := 3, port := 1, ordinal := 511, ev := { q := [[1]] } },
     by unfold State.ringReady; decide +kernel⟩,
   ⟨.a, 0x30000000, 60, 0, List.range 15 |>.map (fun i => BitVec.ofNat 32 i),
     fill (moor (live) 0 { kind := 3, port := 1 }) .a (List.range 15 |>.map (fun i => BitVec.ofNat 32 i)),
     by unfold State.berthTaken State.ringReady; decide +kernel⟩,
   ⟨8191, ⟨5, 12345, .valid, 3, true⟩, [], (moor (live) 8191
     { kind := 3, port := 1, live := true, ordinal := 511, ev := { q := List.replicate 23 [] } }).modTasks (berthTaskKey 8191 0)
     (fun _ => [⟨5, 12345, .valid, 3, true⟩]), by decide +kernel⟩,
   ⟨7, ⟨5, 12345, .valid, 3, true⟩, [], (moor (live) 7 { kind := 3, port := 1, live := true }).modTasks (berthTaskKey 7 1) (fun
     _ => [⟨5, 12345, .valid, 3, true⟩]), by decide +kernel⟩,
   ⟨7, ⟨5, 12345, .valid, 3, true⟩, [], true, List.replicate 60 1,
     (put (moor live 7 { kind := 3, port := 1, live := true, ev := ({ msg := some (true, List.replicate 60 1) } : EventBerth) })
     [(PRT.STATUS_LINK 1, 1), (PRT.CFG_BUFS 1, 1)]).modTasks (berthTaskKey 7 1) (fun _ => [⟨5, 12345, .valid, 3, true⟩]),
     by decide +kernel⟩⟩

theorem witness_TenantsAndManifests :
    (∃ (p : Port) (a0 : Word) (s : State), s.ringReady p ∧ s.holds p 161 = true ∧ BitVec.toNat a0 < 4096 ∧
      (s.ledger (BitVec.toNat a0)).isOpen = false) ∧
    (∃ (p : Port) (a0 : Word) (s : State), s.ringReady p ∧ s.holds p 161 = true ∧ BitVec.toNat a0 < 4096 ∧
      (s.ledger (BitVec.toNat a0)).isOpen = true ∧ s.clientsOf (BitVec.toNat a0) = 0) ∧
    (∃ (p : Port) (a0 : Word) (s : State), s.ringReady p ∧ s.holds p 161 = true ∧ BitVec.toNat a0 < 4096 ∧
      (s.ledger (BitVec.toNat a0)).isOpen = true) ∧
    (∃ (p : Port) (a0 a1 : Word) (r : List Byte) (s : State), s.ringReady p ∧ s.holds p 161 = true ∧
      (s.man.frozen.any fun f => f.tenant == BitVec.toNat a0 && f.seq == BitVec.toNat a1) = false ∧
      s.manRecord (BitVec.toNat a0) (BitVec.toNat a1) = some r) ∧
    (∃ (f : Frozen) (rest : List Frozen) (s : State), s.man.frozen = f :: rest ∧ s.top.inFull = false ∧
      (rest = [] → s.man.resume = false)) ∧
    (∃ (f : Frozen) (rest : List Frozen) (s : State), s.man.frozen = f :: rest ∧ s.top.inFull = false ∧
      (rest = [] → s.man.resume = false) ∧ f.done.isSome = true) :=
  ⟨⟨.a, 4095, live, by unfold State.ringReady; decide +kernel⟩,
   ⟨.b, 0, live.modLedger 0 (fun _ => { isOpen := true, seq := 5 }), by unfold State.ringReady; decide +kernel⟩,
   ⟨.a, 4095, live.modLedger 4095 (fun _ => { isOpen := true, seq := 5, sync := 2 ^ 40, degr := 70000 }),
     by unfold State.ringReady; decide +kernel⟩,
   ⟨.a, 7, 5, List.replicate 256 9, { live with man := { archRecs := [(7, 5, List.replicate 256 9)] } },
     by unfold State.ringReady; decide +kernel⟩,
   ⟨⟨7, 5, [1, 2], none⟩, [⟨8, 0, [3], some (5, 2)⟩],
     { live with man := { frozen := [⟨7, 5, [1, 2], none⟩, ⟨8, 0, [3], some (5, 2)⟩] } }, by decide +kernel⟩,
   ⟨⟨8, 0, [3], some (5, 2)⟩, [], { live with man := { frozen := [⟨8, 0, [3], some (5, 2)⟩] } }, by decide +kernel⟩⟩

theorem witness_HostFrames :
    (∃ (p : Port) (n : Fin 8) (a0 a1 a2 : Word) (s : State), s.sendsFrame p (↑n) a0 a1 a2 ∧ bitAt (BitVec.toNat a0) 31 = false ∧
      s.canSend ↑n = false) ∧
    (∃ (p : Port) (n : Fin 8) (a0 a1 a2 : Word) (s : State), s.sendsFrame p (↑n) a0 a1 a2 ∧ bitAt (BitVec.toNat a0) 31 = false ∧
      s.canSend ↑n = true ∧ (s.prtC ↑n).queued = []) ∧
    (∃ (p : Port) (n : Fin 8) (a0 a1 a2 : Word) (s : State), s.sendsFrame p (↑n) a0 a1 a2 ∧ bitAt (BitVec.toNat a0) 31 = true ∧
      s.on (PRT.STATUS_LINK ↑n) = true ∧ s.ctxUsed ↑n < 1024) ∧
    (∃ (p : Port) (n : Fin 8) (a0 a1 a2 : Word) (f : RxHost) (fs : List RxHost) (s : State), s.takesFrame p (↑n) a0 a1 a2 ∧
      (s.prtC ↑n).rx = f :: fs ∧ 24 + f.bytes.length ≤ BitVec.toNat a2) ∧
    (∃ (p : Port) (n : Fin 8) (a0 a1 a2 : Word) (f : RxHost) (fs : List RxHost) (s : State), s.takesFrame p (↑n) a0 a1 a2 ∧
      (s.prtC ↑n).rx = f :: fs ∧ BitVec.toNat a2 < 24 + f.bytes.length) ∧
    (∃ (p : Port) (n : Fin 8) (a0 a1 a2 : Word) (s : State), s.takesFrame p (↑n) a0 a1 a2 ∧ (s.prtC ↑n).rx = []) :=
  ⟨⟨.a, 1, 0x01300000, 0x3200000, 60, put live [(PRT.CFG_BUFS 1, 1), (PRT.MTU_OCTETS 1, 9216)],
    by unfold State.sendsFrame State.ringReady; decide +kernel⟩,
   ⟨.a, 1, 0x01000000, 0x3200000, 60, put live [(PRT.CFG_BUFS 1, 1), (PRT.MTU_OCTETS 1, 9216), (PRT.STATUS_LINK 1, 1)],
     by unfold State.sendsFrame State.ringReady; decide +kernel⟩,
   ⟨.b, 1, 0x81401234, 0x3200000, 9212, put live [(PRT.CFG_BUFS 1, 1), (PRT.MTU_OCTETS 1, 9216), (PRT.STATUS_LINK 1, 1)],
     by unfold State.sendsFrame State.ringReady; decide +kernel⟩,
   ⟨.a, 1, 0x01000000, 0x3200000, 84, ⟨⟨1, 2, 3, .valid⟩, List.replicate 60 7⟩, [⟨⟨1, 2, 3, .valid⟩, []⟩],
     live.modPrt 1 (fun c => { c with rx := [⟨⟨1, 2, 3, .valid⟩, List.replicate 60 7⟩, ⟨⟨1, 2, 3, .valid⟩, []⟩] }),
     by unfold State.takesFrame State.ringReady; decide +kernel⟩,
   ⟨.a, 1, 0x01000000, 0x3200000, 83, ⟨⟨1, 2, 3, .valid⟩, List.replicate 60 7⟩, [],
     live.modPrt 1 (fun c => { c with rx := [⟨⟨1, 2, 3, .valid⟩, List.replicate 60 7⟩] }),
     by unfold State.takesFrame State.ringReady; decide +kernel⟩,
   ⟨.a, 1, 0x01000000, 0x3200000, 1024, live, by unfold State.takesFrame State.ringReady; decide +kernel⟩⟩

theorem witness_Scratchpads :
    (∃ (p : Port) (off : BitVec 26) (bs : List Byte) (s : State), s.reaches p = true ∧
      windowShape p off.toNat bs.length = true ∧ s.windowWrite (off.toNat / spSize) = Code.ok ∧ s.ecc = []) ∧
    (∃ (p : Port) (ws : List Word) (s : State), s.takes p MEM.AT_CMD false ∧ s.mboxIn p 2 = some ws ∧
      s.f MEM.AT_ADDR_OFFSET % 8 = 0 ∧ s.spClass (s.f MEM.AT_ADDR_OFFSET / spSize) = 7 ∧ s.ecc = []) ∧
    (∃ (sp : Fin 128) (s : State), s.spClass ↑sp ≠ 0 ∧ s.eccBits (↑sp * 65536 + Tab.get (fun _ => 0) s.scrub ↑sp) ≤ 1) :=
  ⟨⟨.a, 0x32003FF, [1, 2, 3], live, by decide +kernel⟩,
   ⟨.a, [0xFFFFFFFF, 0xFFFFFFFF], fill (put { live with mem := [(0x3200008, 1), (0x3200010, 9)] } [(MEM.AT_ADDR_OFFSET,
     0x3200008)]) .a [0xFFFFFFFF, 0xFFFFFFFF], by unfold State.takes; decide +kernel⟩,
   ⟨0, { live with ecc := [(0, 1)] }, by decide +kernel⟩⟩

theorem witness_NvOperations :
    (∃ (p : Port) (s : State) (n : BitVec 9), s.takes p NV.OP false ∧ s.f NV.OP_STATUS_BUSY = 0 ∧ s.nv.storing = none ∧
      s.nv.stored = false ∧ 1 ≤ n.toNat ∧ n.toNat ≤ 256 ∧ s.f NV.OP_ARG_ARG + n.toNat ≤ 524288 ∧ (∀ i < n.toNat, ∀ (r : ℕ),
      s.hostRegion (s.f NV.OP_ARG_ARG + i) = some r → s.denied p r 0 = false)) ∧
    (∃ (p : Port) (s : State) (n : BitVec 9) (ws : List Word) (r : ℕ), s.takes p NV.OP false ∧ s.f NV.OP_STATUS_BUSY = 0 ∧
      s.nv.storing = none ∧ s.nv.stored = false ∧ 1 ≤ n.toNat ∧ n.toNat ≤ 256 ∧ s.f NV.OP_ARG_ARG + n.toNat ≤ 524288 ∧
      s.mboxIn p ((n.toNat + 3) / 4) = some ws ∧ s.hostRegion (s.f NV.OP_ARG_ARG) = some r ∧ s.denied p r 1 = false) ∧
    (∃ (p : Port) (s : State), s.takes p NV.OP false ∧ s.f NV.OP_STATUS_BUSY = 0 ∧ s.nv.storing = none ∧ s.nv.stored = false ∧
      s.nv.commit = none) ∧
    (∃ (p : Port) (s : State) (w0 x0 x1 y0 y1 : Word), s.takes p NV.OP false ∧ s.f NV.OP_STATUS_BUSY = 0 ∧ s.nv.storing = none ∧
      s.nv.stored = false ∧ s.mboxIn p 5 = some [w0, x0, x1, y0, y1] ∧ bitAt (BitVec.toNat w0) 8 ≠ bitAt (BitVec.toNat w0) 9 ∧
      s.nv.locked.contains (2 * (BitVec.toNat w0 % 8) + if bitAt (BitVec.toNat w0) 9 = true then 1 else 0) = false ∧
      ofWords [x0, x1] = s.password (BitVec.toNat w0 % 8) (if bitAt (BitVec.toNat w0) 9 = true then 1 else 0)) ∧
    (∃ (p : Port) (s : State), s.takes p NV.OP false ∧ s.f NV.OP_STATUS_BUSY = 0 ∧ s.nv.storing = none ∧ s.nv.stored = false) ∧
    (∃ (p : Port) (s : State) (r : ℕ × List Byte), s.takes p NV.OP false ∧ s.f NV.OP_STATUS_BUSY = 0 ∧ s.nv.storing = none ∧
      s.nv.stored = false ∧ List.find? (fun x => decide (x.1 = s.f NV.OP_ARG_HI_ARG * 2 ^ 32 + s.f NV.OP_ARG_ARG)) (s.nv.head ++
      s.nv.archive) = some r ∧ r.2.length = 64) ∧
    (∃ (c : NvCommit) (s : State), (s.nv.commit = some c ∧ c.again = none ∧ c.byHost = true) ∧ (∃ (l : LedgerCommit),
      c.led = some l)) :=
  ⟨⟨.a, put bare [(NV.HREG_EN 7, 1), (NV.HREG_FIRST 7, 0), (NV.HREG_PAGES 7, 2), (NV.OP_ARG_ARG, 0x6C0F0)], 256,
    by unfold State.takes; decide +kernel⟩,
   ⟨.b, fill (put bare [(NV.HREG_EN 7, 1), (NV.HREG_FIRST 7, 0), (NV.HREG_PAGES 7, 2), (NV.OP_ARG_ARG,
     0x6C0F0)]) .b (List.replicate 64 0x01020304), 256, List.replicate 64 0x01020304, 7, by unfold State.takes; decide +kernel⟩,
   ⟨.a, { bare with nv := { dirty := [5], shadow := [(0x500, 1)] } }, by unfold State.takes; decide +kernel⟩,
   ⟨.a, fill bare .a [0x107, 0, 0, 5, 6], 0x107, 0, 0, 5, 6, by unfold State.takes; decide +kernel⟩,
   ⟨.a, bare, by unfold State.takes; decide +kernel⟩,
   ⟨.a, put { bare with nv := { head := [(6, List.replicate 64 1), (7, List.replicate 64 2)] } } [(NV.OP_ARG_ARG, 7)], (7,
     List.replicate 64 2), by unfold State.takes; decide +kernel⟩,
   ⟨⟨true, [(1, 2)], {}, none, some ⟨[], [⟨7, 5, [1, 2], none⟩]⟩, none⟩,
     put { bare with nv := { commit := some ⟨true, [(1, 2)], {}, none, some ⟨[], [⟨7, 5, [1, 2], none⟩]⟩, none⟩ } }
     [(NV.OP_STATUS_BUSY, 1), (NV.STATUS_COMMITTING, 1)], by decide +kernel, ⟨⟨[], [⟨7, 5, [1, 2], none⟩]⟩, by decide +kernel⟩⟩⟩

theorem witness_PowerFailStore :
    (∃ (s : State), s.storesReady = true ∧ s.nv.lastLedger + s.f NV.CFG_LEDGER_S * 2000000000 ≤ s.now) ∧
    (∃ (mv : ℕ) (s : State), s.on NV.STATUS_HOLD_OK = true ∧ mv < 2900) ∧
    (∃ (s : State), s.top.phase ∈ [Phase.nv, Phase.flm, Phase.running] ∧ s.nv.pfail = false ∧ s.nv.storing = none) ∧
    (∃ (s : State), s.nv.storing.isSome = true ∧ s.nv.stored = false) ∧
    (∃ (s : State), s.nv.pfail = true ∧ s.nv.stored = true) :=
  ⟨⟨live, by decide +kernel⟩,
   ⟨2899, put bare [(NV.STATUS_HOLD_OK, 1)], by decide +kernel⟩,
   ⟨live, by decide +kernel⟩,
   ⟨{ live with nv := { storing := some 0, pfail := true, dirty := [7] } }, by decide +kernel⟩,
   ⟨put { live with nv := { storing := some 0, pfail := true, stored := true } } [(NV.STATUS_STORED, 1)], by decide +kernel⟩⟩

theorem witness_LogbookAndArchives :
    (∃ (r : ℕ × List Byte) (rs : List (ℕ × List Byte)) (s : State), s.nv.staged = r :: rs) ∧
    (∃ (s : State), s.flashReady = true ∧ 32 ≤ s.nv.unarchived ∧ s.flm.logBlocks ≠ 0 ∧
      s.nv.archive.length + 32 ≤ s.flm.logBlocks * s.logPerBlock) ∧
    (∃ (r : ℕ × ℕ × List Byte) (rest : List (ℕ × ℕ × List Byte)) (s : State), s.flashReady = true ∧
      s.man.toArchive = r :: rest ∧ s.man.archRecs.length + 1 ≤ s.flm.manBlocks * s.manPerBlock) :=
  ⟨⟨(3, [1]), [(3, [1]), (4, [])],
    { bare with nv := { staged := [(3, [1]), (3, [1]), (4, [])], head := List.replicate 512 (2, []), unarchived := 512 } },
    by decide +kernel⟩,
   ⟨{ bare with flm := { logBlocks := 1 }, nv := { unarchived := 32, head := (List.range 40).map (fun i => (i, [])) } },
     by decide +kernel⟩,
   ⟨(3, 4, []), [], { bare with flm := { manBlocks := 1 }, man := { toArchive := [(3, 4, [])] } }, by decide +kernel⟩⟩

theorem witness_FlashManager :
    (∃ (p : Port) (ws : List Word) (s : State), s.takes p FLM.OP false ∧ s.f FLM.OP_STATUS_BUSY = 0 ∧ s.f FLM.STATE_LINK = 0 ∧
      s.mboxIn p 8 = some ws) ∧
    (∃ (p : Port) (good : ℕ) (s : State), s.flm.op = some (1, p) ∧
      36700160 + 8388608 ≤ (good - ceilDiv (2 * good) 100) * s.blockBytes / 1048576 * 1048576) ∧
    (∃ (p : Port) (s : State), s.takes p FLM.OP false ∧ s.f FLM.OP_STATUS_BUSY = 0) ∧
    (∃ (rf : List ℕ) (s : State), s.flashReady = true ∧ rf ≠ []) ∧
    (∃ (s : State), s.flashReady = true ∧ 0 < s.flm.pool ∧ s.flm.pool = 1) :=
  ⟨⟨.a, [1, 2, 3, 4, 5, 6, 7, 8], fill (put bare [(FLM.STATE_LINK, 0)]) .a [1, 2, 3, 4, 5, 6, 7, 8],
    by unfold State.takes; decide +kernel⟩,
   ⟨.b, 1024, { bare with flm := { op := some (1, .b) } }, by decide +kernel⟩,
   ⟨.a, bare, by unfold State.takes; decide +kernel⟩,
   ⟨[5], bare, by decide +kernel⟩,
   ⟨{ bare with flm := { pool := 1 } }, by decide +kernel⟩⟩

theorem witness_LandingEdges :
    (∃ (n : Fin 32) (s : State), s.lndBuilt ↑n = true ∧ (s.landed = false ∨ s.on (LND.CTRL_ENABLE ↑n) = false)) ∧
    (∃ (n : Fin 32) (cap : Capture) (c1 c2 f : ℕ) (s : State), s.lndBuilt ↑n = true ∧ s.landed = true ∧
      s.on (LND.CTRL_ENABLE ↑n) = true ∧ s.stampMode ↑n = true ∧ (s.lndC ↑n).skip = 0 ∧ s.on (LND.CTRL_CAL_HOLD ↑n) = false ∧
      calPair cap.c1w cap.c2w = some (c1, c2) ∧ fineCode cap.word = some f ∧ cap.wharfFull = false ∧ (∀ (t0 : ℕ),
      (s.lndC ↑n).lastStamped = some t0 → (s.lndC ↑n).stamp + 1800 * 2 ^ 20 ≤ s.stampOf (↑n) (s.extended cap.coarse) f)) ∧
    (∃ (n : Fin 32) (s : State), s.landed = true ∧ s.lndBuilt ↑n = true ∧ s.on (LND.CTRL_ENABLE ↑n) = true ∧
      s.on (LND.STATUS_ACTIVE ↑n) = true ∧ (∀ (t0 : ℕ), (s.lndC ↑n).lastEdge = some t0 → t0 + s.actWindow ↑n ≤ s.now) ∧
      (↑n = 30 → s.flt.injCheck = false ∧ s.reaction 0 3 < 8) ∧ ↑n = 30) :=
  ⟨⟨31, put live [(LND.CTRL_ENABLE 31, 0)], by decide +kernel⟩,
   ⟨0, ⟨2000, 2 ^ 100 - 1, 2 ^ 10 - 1, 2 ^ 430 - 1, false, Vector.replicate 32 (0, false)⟩, 10, 430, 100,
     ({ put live [(LND.CTRL_ENABLE 0, 1), (LND.CTRL_MODE 0, 1)] with now := 4000 }).modLnd 0 (fun c =>
     { c with lastStamped := some 0 }), by decide +kernel⟩,
   ⟨30, put live [(LND.STATUS_ACTIVE 30, 1), (LND.CTRL_ENABLE 30, 1)], by decide +kernel⟩⟩

theorem witness_SlicersAndSlices :
    (∃ (n : Fin 32) (s : State), s.landed = true ∧ s.lndBuilt ↑n = true ∧ s.f (LND.CFG_FORMAT ↑n) ≠ 6 ∧
      s.on (LND.CTRL_ENABLE ↑n) = true ∧ s.on (LND.STATUS_ACTIVE ↑n) = true ∧ s.f (LND.CFG_SLICER ↑n) ≠ 0 ∧
      s.on (LND.SLICE_MANUAL ↑n) = false ∧ s.sliceDue ↑n = true) ∧
    (∃ (s : State), (s.landed = true ∧ s.lndBuilt 30 = true ∧ (s.lndC 30).slcEnd ≤ s.now) ∧ (∃ (r : LoopRec), r ∈ s.loopRecs ∧
      r.loop < 32)) :=
  ⟨⟨31, (put live [(LND.STATUS_ACTIVE 31, 1), (LND.CTRL_ENABLE 31, 1), (LND.CFG_SLICER 31,
    1)]).modLnd 31 (fun c => { c with sliceRun := some (1024, 0) }), by decide +kernel⟩,
   ⟨live, by decide +kernel, ⟨⟨31, 0, 15, 0, 0, 0, 1000⟩, by decide +kernel⟩⟩⟩

theorem witness_GatesAndArming :
    (∃ (n : Fin 32) (s : State), s.landed = true ∧ (s.lndC ↑n).gateOn = true ∧ s.gateBound ↑n = false ∧
      (s.lndC ↑n).gateStart + (s.lndC ↑n).gateMs * 2000000 ≤ s.now) ∧
    (∃ (n : Fin 32) (s : State), s.landed = true ∧ (s.lndC ↑n).gateOn = true ∧ s.gateBound ↑n = true ∧
      (s.lndC ↑n).gateStart + 2000000000000 ≤ s.now) ∧
    (∃ (n : Fin 32) (r : TaskRun) (rs : List TaskRun) (s : State), s.tasksC (taskKey (16 + ↑n) 0) = r :: rs ∧ s.landed = true ∧
      s.lndBuilt ↑n = true ∧ s.gateBound ↑n = true ∧ s.on (LND.CTRL_ENABLE ↑n) = true ∧ (s.lndC ↑n).ival = none) ∧
    (∃ (p : Port) (n : Fin 32) (s : State), s.takes p (LND.CMD ↑n) false ∧ s.gateBound ↑n = true ∧
      s.on (LND.CTRL_ENABLE ↑n) = true) :=
  ⟨⟨31, (put live [(LND.CFG_BOUND 31, 0)]).modLnd 31 (fun c => { c with gateOn := true }), by decide +kernel⟩,
   ⟨0, (put live [(LND.CFG_BOUND 0, 1)]).modLnd 0 (fun c => { c with gateOn := true }), by decide +kernel⟩,
   ⟨31, ⟨5, 12345, .valid, 3, true⟩, [], (put live [(LND.CFG_BOUND 31, 1), (LND.CTRL_ENABLE 31, 1), (LND.CTRL_MODE 31,
     0)]).modTasks (taskKey (16 + 31) 0) (fun _ => [⟨5, 12345, .valid, 3, true⟩]), by decide +kernel⟩,
   ⟨.a, 31, put live [(LND.CFG_BOUND 31, 1), (LND.CTRL_ENABLE 31, 1), (LND.CTRL_MODE 31, 0)],
     by unfold State.takes; decide +kernel⟩⟩

theorem witness_LandingResults :
    (∃ (n : Fin 32) (x : Interval) (s : State), s.landed = true ∧ (s.lndC ↑n).ival = some x ∧ x.at_ + 2 ^ 44 ≤ s.now ∧
      s.gateBound ↑n = false) ∧
    (∃ (n : Fin 32) (a b : ℤ) (settle : Bool) (rest : List (ℤ × ℤ × Bool)) (s : State), (s.lndC ↑n).ivalDone = (a, b,
      settle) :: rest) ∧
    (∃ (n : Fin 32) (g : ClosedGate) (rest : List ClosedGate) (s : State), (s.lndC ↑n).closed = g :: rest ∧ g.sums.n < 4) ∧
    (∃ (p : Port) (n : Fin 32) (s : State), s.takes p (LND.CMD ↑n) false ∧ (s.lndC ↑n).result.length ≤ 64) ∧
    (∃ (p : Port) (n : Fin 32) (s : State), s.takes p (LND.CMD ↑n) false ∧ (s.lndC ↑n).calTag = Tag.valid ∧
      (s.lndC ↑n).paired = true) :=
  ⟨⟨31, ⟨1, 2, 3, false⟩, (put { live with now := 2 ^ 44 + 2 } [(LND.CFG_BOUND 31,
    0)]).modLnd 31 (fun c => { c with ival := some ⟨1, 2, 3, false⟩ }), by decide +kernel⟩,
   ⟨0, 5, 7, true, [(1, 2, false)], live.modLnd 0 (fun c => { c with ivalDone := [(5, 7, true), (1, 2, false)] }),
     by decide +kernel⟩,
   ⟨31, ⟨1000, 2001000, false, { n := 3, sx := 3, sxx := 5, sxt := 5, stt := 9, st := 3 }, 0, 0, 10⟩, [],
     live.modLnd 31 (fun c =>
     { c with closed := [⟨1000, 2001000, false, { n := 3, sx := 3, sxx := 5, sxt := 5, stt := 9, st := 3 }, 0, 0, 10⟩] }),
     by decide +kernel⟩,
   ⟨.a, 31, live, by unfold State.takes; decide +kernel⟩,
   ⟨.a, 31, live.modLnd 31 (fun c => { c with calTag := .valid, paired := true, c1 := 10, c2 := 430, calSeq := 2 ^ 26 - 1 }),
     by unfold State.takes; decide +kernel⟩⟩

theorem witness_SelectorTimers :
    (∃ (n : Fin 16) (k : Fin 30) (s : State), s.landed = true ∧ s.selBuilt ↑n = true ∧ ↑k < s.ncand ↑n ∧ s.cstate ↑n ↑k = 4 ∧
      (s.entC (entKey ↑n ↑k)).wtrEnd ≤ s.now ∧ s.sound ↑n ↑k = true ∧ s.plausReady ↑n ↑k = false) ∧
    (∃ (n : Fin 16) (k : Fin 30) (s : State), s.landed = true ∧ s.selBuilt ↑n = true ∧ ↑k < s.ncand ↑n ∧ s.cstate ↑n ↑k = 4 ∧
      (s.entC (entKey ↑n ↑k)).wtrEnd ≤ s.now ∧ s.sound ↑n ↑k = true ∧ s.plausReady ↑n ↑k = true ∧ s.plausible ↑n ↑k = false) ∧
    (∃ (n : Fin 16) (k : Fin 30) (s : State), s.landed = true ∧ s.selBuilt ↑n = true ∧ ↑k < s.ncand ↑n ∧ s.cstate ↑n ↑k = 4 ∧
      (s.entC (entKey ↑n ↑k)).wtrEnd ≤ s.now ∧ s.sound ↑n ↑k = true ∧ s.plausReady ↑n ↑k = true ∧ s.plausible ↑n ↑k = true) ∧
    (∃ (n : Fin 16) (s : State), s.landed = true ∧ s.selBuilt ↑n = true ∧ s.selState ↑n = 2 ∧ (s.selC ↑n).holdEnd ≤ s.now ∧
      s.active ↑n < 30 ∧ (s.sound (↑n) (s.active ↑n) = false ∨ s.cstate (↑n) (s.active ↑n) = 0) ∧ s.best ↑n = none) ∧
    (∃ (n : Fin 16) (s : State), s.landed = true ∧ s.selBuilt ↑n = true ∧ s.selState ↑n = 2 ∧ (s.selC ↑n).holdEnd ≤ s.now ∧
      s.active ↑n < 30 ∧ s.sound (↑n) (s.active ↑n) = true ∧ s.cstate (↑n) (s.active ↑n) ≠ 0) ∧
    (∃ (n : Fin 16) (s : State), (s.landed = true ∧ s.selBuilt ↑n = true ∧ s.selState ↑n = 2 ∧ (s.selC ↑n).holdEnd ≤ s.now ∧
      s.active ↑n < 30) ∧ (∃ (b : ℕ), (s.sound (↑n) (s.active ↑n) = false ∨ s.cstate (↑n) (s.active ↑n) = 0) ∧
      s.best ↑n = some b ∧ (s.entC (entKey (↑n) b)).readmitted = false)) ∧
    (∃ (p : Port) (n : Fin 16) (k : Fin 30) (s : State), s.takes p (SEL.CMD ↑n) false ∧ s.selState ↑n = 3 ∧ ↑k < s.ncand ↑n ∧
      s.cstate ↑n ↑k = 4) ∧
    (∃ (n : Fin 8) (s : State), (s.landed = true ∧ s.prtBuilt ↑n = true ∧ (s.prtC ↑n).esmcAt + 10000000000 ≤ s.now) ∧
      (∃ (i k : ℕ), (i, k) ∈ s.entriesOf (20 + ↑n) ∧ i < 16 ∧
      (s.f (SEL.CAND_CFG_SOURCE i k) = 1 ∨ s.f (SEL.CAND_CFG_SOURCE i k) = 2))) :=
  ⟨⟨15, 2, put live [(SEL.CFG_NCAND 15, 3), (SEL.CAND_STATE_CSTATE 15 2, 4)], by decide +kernel⟩,
   ⟨15, 2, (put live [(SEL.CFG_NCAND 15, 3), (SEL.CAND_STATE_CSTATE 15 2,
     4)]).modEnt (entKey 15 2) (fun c => { c with freqs := List.replicate 4 (2 ^ 50), diffs := List.replicate 4 [] }),
     by decide +kernel⟩,
   ⟨15, 2, (put live [(SEL.CFG_NCAND 15, 3), (SEL.CAND_STATE_CSTATE 15 2,
     4)]).modEnt (entKey 15 2) (fun c => { c with freqs := List.replicate 4 (0), diffs := List.replicate 4 [] }),
     by decide +kernel⟩,
   ⟨0, put live [(SEL.CFG_NCAND 0, 3), (SEL.STATUS_STATE 0, 2), (SEL.STATUS_ACTIVE 0, 0)], by decide +kernel⟩,
   ⟨0, put live [(SEL.CFG_NCAND 0, 3), (SEL.STATUS_STATE 0, 2), (SEL.STATUS_ACTIVE 0, 0), (SEL.CAND_STATE_CSTATE 0 0, 2)],
     by decide +kernel⟩,
   ⟨0, put live [(SEL.CFG_NCAND 0, 3), (SEL.STATUS_STATE 0, 2), (SEL.STATUS_ACTIVE 0, 0), (⟨SEL.CAND_STATE 0 0, 8, 8⟩, 1),
     (SEL.CAND_STATE_CSTATE 0 1, 2), (SEL.CAND_CFG_PRIORITY 0 1, 1)], by decide +kernel, ⟨1, by decide +kernel⟩⟩,
   ⟨.a, 15, 2, put live [(SEL.CFG_NCAND 15, 3), (SEL.CAND_STATE_CSTATE 15 2, 4), (SEL.STATUS_STATE 15, 3)],
     by unfold State.takes; decide +kernel⟩,
   ⟨7, put live [(SEL.CFG_NCAND 15, 3), (SEL.CAND_CFG_WHO 15 2, 27), (SEL.CAND_CFG_SOURCE 15 2, 1)], by decide +kernel, ⟨15, 2,
     by decide +kernel⟩⟩⟩

theorem witness_LoopUpdates :
    (∃ (n : Fin 32) (s : State), s.landed = true ∧ s.loopBuilt ↑n = true ∧ (s.loopC ↑n).mig = none ∧ s.ecc = [] ∧
      s.flt.injEngine ≠ some (s.engineOf ↑n) ∧ (s.on (LOOP.STATUS_FROZEN ↑n) = true → (s.loopC ↑n).stranded = false ∧
      (s.loopC ↑n).depart = true ∧ ((s.keepInterval (↑n) (s.nextBoundaryOf ↑n) (s.intervalSamples (↑n) (s.nextBoundaryOf
      ↑n))).updateInput (↑n) (s.nextBoundaryOf ↑n) (s.intervalSamples (↑n) (s.nextBoundaryOf ↑n))).2.1 = Tag.valid) ∧
      wordFits (toWord ((((s.keepInterval (↑n) (s.nextBoundaryOf ↑n) (s.intervalSamples (↑n) (s.nextBoundaryOf ↑n))).updateInput
      (↑n) (s.nextBoundaryOf ↑n) (s.intervalSamples (↑n) (s.nextBoundaryOf ↑n))).1.equations (↑n) ((s.keepInterval (↑n)
      (s.nextBoundaryOf ↑n) (s.intervalSamples (↑n) (s.nextBoundaryOf ↑n))).updateInput (↑n) (s.nextBoundaryOf ↑n)
      (s.intervalSamples (↑n) (s.nextBoundaryOf ↑n))).2.1 ((s.keepInterval (↑n) (s.nextBoundaryOf ↑n) (s.intervalSamples (↑n)
      (s.nextBoundaryOf ↑n))).updateInput (↑n) (s.nextBoundaryOf ↑n) (s.intervalSamples (↑n) (s.nextBoundaryOf ↑n))).2.2).yI +
      (((s.keepInterval (↑n) (s.nextBoundaryOf ↑n) (s.intervalSamples (↑n) (s.nextBoundaryOf ↑n))).updateInput (↑n)
      (s.nextBoundaryOf ↑n) (s.intervalSamples (↑n) (s.nextBoundaryOf ↑n))).1.equations (↑n) ((s.keepInterval (↑n)
      (s.nextBoundaryOf ↑n) (s.intervalSamples (↑n) (s.nextBoundaryOf ↑n))).updateInput (↑n) (s.nextBoundaryOf ↑n)
      (s.intervalSamples (↑n) (s.nextBoundaryOf ↑n))).2.1 ((s.keepInterval (↑n) (s.nextBoundaryOf ↑n) (s.intervalSamples (↑n)
      (s.nextBoundaryOf ↑n))).updateInput (↑n) (s.nextBoundaryOf ↑n) (s.intervalSamples (↑n) (s.nextBoundaryOf ↑n))).2.2).uc +
      (((s.keepInterval (↑n) (s.nextBoundaryOf ↑n) (s.intervalSamples (↑n) (s.nextBoundaryOf ↑n))).updateInput (↑n)
      (s.nextBoundaryOf ↑n) (s.intervalSamples (↑n) (s.nextBoundaryOf ↑n))).1.equations (↑n) ((s.keepInterval (↑n)
      (s.nextBoundaryOf ↑n) (s.intervalSamples (↑n) (s.nextBoundaryOf ↑n))).updateInput (↑n) (s.nextBoundaryOf ↑n)
      (s.intervalSamples (↑n) (s.nextBoundaryOf ↑n))).2.1 ((s.keepInterval (↑n) (s.nextBoundaryOf ↑n) (s.intervalSamples (↑n)
      (s.nextBoundaryOf ↑n))).updateInput (↑n) (s.nextBoundaryOf ↑n) (s.intervalSamples (↑n) (s.nextBoundaryOf ↑n))).2.2).sl)
      (((s.keepInterval (↑n) (s.nextBoundaryOf ↑n) (s.intervalSamples (↑n) (s.nextBoundaryOf ↑n))).updateInput (↑n)
      (s.nextBoundaryOf ↑n) (s.intervalSamples (↑n) (s.nextBoundaryOf ↑n))).1.loopC ↑n).ybar) = true) ∧
    (∃ (n : Fin 32) (s : State), s.landed = true ∧ s.loopBuilt ↑n = true ∧ (s.loopC ↑n).mig = none ∧
      s.on (LOOP.STATUS_FROZEN ↑n) = true ∧ ((s.loopC ↑n).stranded = true ∨ (s.loopC ↑n).depart = false)) ∧
    (∃ (n : Fin 32) (chk : CheckOutcome) (src dst : ℕ) (planned retire : Bool) (s : State), s.landed = true ∧
      s.loopBuilt ↑n = true ∧ (s.loopC ↑n).mig = some (src, dst, planned, retire) ∧ s.awaitsUpdate ↑n = false ∧
      (planned = true → chk = CheckOutcome.pass)) ∧
    (∃ (n : Fin 32) (t0 : ℕ) (s : State), s.loopState ↑n = 1 ∧ s.inFinal ↑n = true ∧ (s.loopC ↑n).lockSince = some t0 ∧
      t0 + s.f (LOOP.LOCK_DWELL_MS ↑n) * 2000000 ≤ s.now ∧ s.on (LOOP.STATUS_FROZEN ↑n) = false ∧ (s.loopC ↑n).mig = none) ∧
    (∃ (n : Fin 32) (s : State), s.loopState ↑n = 1 ∧ s.on (LOOP.STATUS_FINAL ↑n) = false ∧ (s.loopC ↑n).gearEnd ≤ s.now ∧
      s.on (LOOP.CTRL_GEAR_MAN ↑n) = false) ∧
    (∃ (n : Fin 32) (s : State), s.loopState ↑n = 1 ∧ s.on (LOOP.STATUS_FINAL ↑n) = false ∧ (s.loopC ↑n).gearEnd ≤ s.now ∧
      s.on (LOOP.CTRL_GEAR_MAN ↑n) = true ∧ (s.loopC ↑n).gear + 1 < 8 ∧
      s.f (LOOP.GEAR_BW_UHZ (↑n) ((s.loopC ↑n).gear + 1)) ≠ 0) ∧
    (∃ (n : Fin 32) (s : State), s.loopState ↑n = 1 ∧ s.on (LOOP.STATUS_FINAL ↑n) = false ∧ (s.loopC ↑n).gearEnd ≤ s.now ∧
      s.on (LOOP.CTRL_GEAR_MAN ↑n) = true ∧ (8 ≤ (s.loopC ↑n).gear + 1 ∨ s.f (LOOP.GEAR_BW_UHZ (↑n) ((s.loopC ↑n).gear + 1)) =
      0)) :=
  ⟨⟨31, put live [(LOOP.STATUS_STATE 31, 1)], by decide +kernel⟩,
   ⟨31, put live [(LOOP.STATUS_FROZEN 31, 1)], by decide +kernel⟩,
   ⟨0, .pass, 1, 2, false, false, live.modLoop 0 (fun c => { c with mig := some (1, 2, false, false) }), by decide +kernel⟩,
   ⟨31, 0, (put live [(LOOP.STATUS_STATE 31, 1), (LOOP.STATUS_FINAL 31,
     1)]).modLoop 31 (fun c => { c with lockSince := some 0 }), by decide +kernel⟩,
   ⟨31, put live [(LOOP.STATUS_STATE 31, 1), (LOOP.STATUS_FINAL 31, 0), (LOOP.STATUS_GEAR 31, 6)], by decide +kernel⟩,
   ⟨31, (put live [(LOOP.STATUS_STATE 31, 1), (LOOP.STATUS_FINAL 31, 0), (LOOP.CTRL_GEAR_MAN 31, 1), (LOOP.GEAR_BW_UHZ 31 7,
     9000)]).modLoop 31 (fun c => { c with gear := 6 }), by decide +kernel⟩,
   ⟨31, (put live [(LOOP.STATUS_STATE 31, 1), (LOOP.STATUS_FINAL 31, 0), (LOOP.CTRL_GEAR_MAN 31, 1), (LOOP.GEAR_BW_UHZ 31 7,
     9000)]).modLoop 31 (fun c => { c with gear := 7 }), by decide +kernel⟩⟩

theorem witness_LoopStepsAndRecord :
    (∃ (p : Port) (n : Fin 32) (ws : List Word) (s : State), s.takes p (LOOP.CMD ↑n) false ∧ (s.loopC ↑n).mig = none ∧
      s.mboxIn p 2 = some ws ∧ (toSigned 64 (ofWords ws)).natAbs ≤ 500000000000 ∧
      (s.f (LOOP.CFG_TKIND ↑n) = 2 → (toSigned 64 (ofWords ws)).natAbs ≤ (s.tscC (s.f (LOOP.CFG_TIDX ↑n))).thresh * 1000000)) ∧
    (∃ (p : Port) (n : Fin 32) (ws : List Word) (s : State), s.takes p (LOOP.CMD ↑n) false ∧ (s.loopC ↑n).mig = none ∧
      s.mboxIn p 2 = some ws ∧ 500000000000 < (toSigned 64 (ofWords ws)).natAbs) ∧
    (∃ (p : Port) (n : Fin 32) (a : ℤ) (s : State), s.takes p (LOOP.CMD ↑n) false ∧ (s.loopC ↑n).mig = none ∧
      (s.loopC ↑n).armed = some a ∧ ((s.loopC ↑n).rem + a).natAbs ≤ 1000000000000) ∧
    (∃ (n : Fin 32) (r : TaskRun) (rs : List TaskRun) (s : State), s.tasksC (taskKey (64 + ↑n) 0) = r :: rs ∧
      (s.loopC ↑n).mig.isSome = true) ∧
    (∃ (n : Fin 32) (a : ℤ) (r : TaskRun) (rs : List TaskRun) (s : State), s.tasksC (taskKey (64 + ↑n) 0) = r :: rs ∧
      (s.loopC ↑n).mig = none ∧ (s.loopC ↑n).armed = some a ∧ ((s.loopC ↑n).rem + a).natAbs ≤ 1000000000000) ∧
    (∃ (p : Port) (n : Fin 32) (s : State), s.takes p (LOOP.CMD ↑n) false ∧ (s.loopC ↑n).mig = none) ∧
    (∃ (p : Port) (n : Fin 32) (s : State), s.takes p (LOOP.CMD ↑n) false ∧ (s.loopC ↑n).mig = none ∧
      (s.loopRecord ↑n).length ≤ 64) ∧
    (∃ (p : Port) (n : Fin 32) (s : State), s.takes p (LOOP.CMD ↑n) false ∧ (s.loopC ↑n).mig.isSome = true) :=
  ⟨⟨.a, 31, [0x6A528800, 0x74], fill live .a [0x6A528800, 0x74], by unfold State.takes; decide +kernel⟩,
   ⟨.a, 31, [0x6A528801, 0x74], fill live .a [0x6A528801, 0x74], by unfold State.takes; decide +kernel⟩,
   ⟨.b, 31, (-5), live.modLoop 31 (fun c => { c with armed := some (-5), rem := -999999999995 }),
     by unfold State.takes; decide +kernel⟩,
   ⟨0, ⟨5, 12345, .valid, 3, true⟩, [], (live.modLoop 0 (fun c => { c with mig := some (1, 2, false, false) })).modTasks
     (taskKey (64 + 0) 0) (fun _ => [⟨5, 12345, .valid, 3, true⟩]), by decide +kernel⟩,
   ⟨0, 5, ⟨5, 12345, .valid, 3, true⟩, [], (live.modLoop 0 (fun c => { c with armed := some 5 })).modTasks (taskKey (64 + 0) 0)
     (fun _ => [⟨5, 12345, .valid, 3, true⟩]), by decide +kernel⟩,
   ⟨.a, 31, live.modLoop 31 (fun c => { c with armed := some (-5), rem := -9 }), by unfold State.takes; decide +kernel⟩,
   ⟨.b, 31, live, by unfold State.takes; decide +kernel⟩,
   ⟨.b, 31, live.modLoop 31 (fun c => { c with mig := some (1, 2, false, false) }), by unfold State.takes; decide +kernel⟩⟩

theorem witness_Holdover :
    (∃ (n : Fin 32) (s : State), s.landed = true ∧ s.loopBuilt ↑n = true ∧ (s.selOf ↑n).isSome = true ∧ s.loopState ↑n ≠ 0 ∧
      s.loopState ↑n ≠ 4 ∧ s.f (LOOP.HIST_PTR_NEXT ↑n) < 12288) ∧
    (∃ (n : Fin 32) (s : State), (s.hoC ↑n).refit = true ∧ s.on (LOOP.HO_CTRL_FIT_HOLD ↑n) = false) ∧
    (∃ (n : Fin 32) (s : State), (s.hoC ↑n).entryFit = true) ∧
    (∃ (n : Fin 32) (s : State), s.landed = true ∧ s.loopBuilt ↑n = true ∧ s.loopState ↑n = 3 ∧ (s.hoC ↑n).evaluating = true ∧
      (s.loopC ↑n).mig = none) ∧
    (∃ (n : Fin 32) (s : State), s.landed = true ∧ s.loopBuilt ↑n = true ∧ s.f (LOOP.HO_CTRL_TSRC ↑n) ≠ 1) ∧
    (∃ (n : Fin 32) (s : State), s.landed = true ∧ s.loopBuilt ↑n = true ∧ (s.hoC ↑n).tsrc = 1 ∧
      s.on (LOOP.HO_STAT_TEMP_STALE ↑n) = false ∧ (s.hoC ↑n).tempAt + 120000000000 ≤ s.now) ∧
    (∃ (p : Port) (n : Fin 32) (s : State), s.takes p (LOOP.HO_CMD ↑n) false ∧ (s.loopC ↑n).mig = none) ∧
    (∃ (p : Port) (n : Fin 32) (ws : List Word) (m : Model) (s : State), s.takes p (LOOP.HO_CMD ↑n) true ∧
      (s.loopC ↑n).mig = none ∧ s.mboxIn p 20 = some ws ∧ modelOfRecord ws s.uptimeMs = some m) ∧
    (∃ (p : Port) (n : Fin 32) (s : State), s.takes p (LOOP.HO_CMD ↑n) true ∧ (s.loopC ↑n).mig = none ∧ s.loopState ↑n ≠ 3) ∧
    (∃ (p : Port) (n : Fin 32) (s : State), s.takes p (LOOP.HO_CMD ↑n) true ∧ (s.loopC ↑n).mig = none ∧ s.loopState ↑n = 3) :=
  ⟨⟨31, put live [(LOOP.STATUS_STATE 31, 1), (LOOP.HIST_PTR_NEXT 31, 12287)], by decide +kernel⟩,
   ⟨31, live.modHo 31 (fun c => { c with refit := true }), by decide +kernel⟩,
   ⟨31, live.modHo 31 (fun c => { c with entryFit := true }), by decide +kernel⟩,
   ⟨31, (put live [(LOOP.STATUS_STATE 31, 3)]).modHo 31 (fun c => { c with evaluating := true, yho := 5 }), by decide +kernel⟩,
   ⟨31, put live [(LOOP.HO_CTRL_TSRC 31, 0)], by decide +kernel⟩,
   ⟨31, live.modHo 31 (fun c => { c with tempAt := 0, tsrc := 1 }), by decide +kernel⟩,
   ⟨.a, 31, live, by unfold State.takes; decide +kernel⟩,
   ⟨.a, 31, ((0x02000001 :: List.replicate 18 0) ++ [BitVec.ofNat 32 (crc32c (wordsLe (0x02000001 :: List.replicate 18 0)))]),
     (modelOfRecord ((0x02000001 :: List.replicate 18 0) ++ [BitVec.ofNat 32 (crc32c (wordsLe (0x02000001 :: List.replicate 18
     0)))]) live.uptimeMs).get (by decide +kernel),
     fill live .a ((0x02000001 :: List.replicate 18 0) ++ [BitVec.ofNat 32 (crc32c (wordsLe (0x02000001 :: List.replicate 18
     0)))]), by unfold State.takes; decide +kernel⟩,
   ⟨.a, 31, live, by unfold State.takes; decide +kernel⟩,
   ⟨.a, 31, put live [(LOOP.STATUS_STATE 31, 3)], by unfold State.takes; decide +kernel⟩⟩

theorem witness_Engines :
    (∃ (p : Port) (h : Word) (s : State), s.takes p ENG.CMD false ∧ s.engHandles 1 0 (BitVec.toNat h) = Code.ok ∧
      s.on ENG.CMD_STATUS_BUSY = false ∧ s.eng.testing = none ∧ s.eng.opLoop = none ∧ s.engState (hSlot (BitVec.toNat h)) = 0 ∧
      s.incoming (hSlot (BitVec.toNat h)) = false) ∧
    (∃ (p : Port) (h : Word) (s : State), (s.takes p ENG.CMD false ∧ s.engHandles 1 0 (BitVec.toNat h) = Code.ok ∧
      s.on ENG.CMD_STATUS_BUSY = false ∧ s.eng.testing = none ∧ s.eng.opLoop = none) ∧ (∃ (d : ℕ),
      s.engState (hSlot (BitVec.toNat h)) = 1 ∧ s.f (ENG.ENGINE_LOOP (hSlot (BitVec.toNat h))) < 32 ∧
      (s.loopC (s.f (ENG.ENGINE_LOOP (hSlot (BitVec.toNat h))))).mig = none ∧ s.pontoon = some d)) ∧
    (∃ (p : Port) (h : Word) (s : State), s.takes p ENG.CMD false ∧ s.engHandles 1 0 (BitVec.toNat h) = Code.ok ∧
      s.on ENG.CMD_STATUS_BUSY = false ∧ s.eng.testing = none ∧ s.eng.opLoop = none ∧ s.engState (hSlot (BitVec.toNat h)) = 1 ∧
      s.f (ENG.ENGINE_LOOP (hSlot (BitVec.toNat h))) < 32 ∧
      (s.loopC (s.f (ENG.ENGINE_LOOP (hSlot (BitVec.toNat h))))).mig = none ∧ s.pontoon = none) ∧
    (∃ (p : Port) (h : Word) (s : State), s.takes p ENG.CMD false ∧ s.engHandles 2 0 (BitVec.toNat h) = Code.ok ∧
      s.on ENG.CMD_STATUS_BUSY = false ∧ s.engState (hSlot (BitVec.toNat h)) = 3) ∧
    (∃ (p : Port) (h e : Word) (s : State), s.takes p ENG.CMD true ∧
      s.engHandles 3 (BitVec.toNat h) (BitVec.toNat e) = Code.ok ∧ s.on ENG.CMD_STATUS_BUSY = false ∧
      s.engState (hSlot (BitVec.toNat e)) = 0 ∧ s.incoming (hSlot (BitVec.toNat e)) = false ∧
      s.engState (s.engineOf (hSlot (BitVec.toNat h))) = 1 ∧ (s.loopC (hSlot (BitVec.toNat h))).mig = none) ∧
    (∃ (e : Fin 36) (s : State), s.engState ↑e = 2) ∧
    (∃ (e : Fin 36) (s : State), s.engState ↑e = 2 ∧ s.flt.injCheck = false ∧ s.reaction 8 13 < 8) ∧
    (∃ (n : Fin 32) (src dst : ℕ) (retire : Bool) (k : Checkpoint) (s : State), (s.loopC ↑n).mig = some (src, dst, false,
      retire) ∧ src < 36 ∧ dst < 36 ∧ src ≠ dst ∧ s.lastCheckpoint src = some k ∧ k.core.seq = (s.loopC ↑n).seq ∧
      (s.loopC ↑n).waiting = [] ∧ (s.loopC ↑n).orders = [] ∧ (∀ x ∈ (s.loopC ↑n).kept, x.1 ≤ k.core.lastB ∧
      x.1 ≤ (s.loopC ↑n).lastB)) ∧
    (∃ (n : Fin 32) (src dst : ℕ) (retire : Bool) (k : Checkpoint) (s : State), (s.loopC ↑n).mig = some (src, dst, true,
      retire) ∧ src < 36 ∧ dst < 36 ∧ src ≠ dst ∧ s.lastCheckpoint src = some k ∧ k.core.seq = (s.loopC ↑n).seq ∧
      (s.loopC ↑n).waiting = [] ∧ (s.loopC ↑n).orders = [] ∧ (∀ x ∈ (s.loopC ↑n).kept, x.1 ≤ k.core.lastB ∧
      x.1 ≤ (s.loopC ↑n).lastB)) ∧
    (∃ (e : Fin 36) (src : ℕ) (pontoon : Bool) (s : State), List.find? (fun x => decide (x.1 = ↑e)) s.eng.copies = some (↑e,
      src, pontoon) ∧ src < 36 ∧ src ≠ ↑e ∧ s.ecc = [] ∧ pontoon = true ∧ s.f (ENG.ENGINE_LOOP ↑e) < 32 ∧
      s.loopState (s.f (ENG.ENGINE_LOOP ↑e)) ≠ 3 ∧ s.on (LOOP.HO_CTRL_FIT_HOLD (s.f (ENG.ENGINE_LOOP ↑e))) = false) ∧
    (∃ (n : Fin 32) (s : State), s.landed = true ∧ s.loopBuilt ↑n = true ∧ s.loopState ↑n = 4 ∧
      ((s.loopC ↑n).ckState = 1 ∨ (s.loopC ↑n).ckState = 2) ∧ (s.loopC ↑n).fresh = false ∧ (s.selOf ↑n).isSome = true ∧
      (if s.on (LOOP.HO_CTRL_OVR ↑n) = true then (s.hoC ↑n).loaded else (s.hoC ↑n).fitted).isSome = true ∧
      (s.loopC ↑n).stranded = false ∧ (s.loopC ↑n).mig = none ∧ s.eng.landedAt + s.f ENG.CTRL_LAND_WAIT * 2000000000 ≤ s.now) :=
  ⟨⟨.a, 0x60000023, put live [(ENG.ENGINE_STATE 35, 0)], by unfold State.takes; decide +kernel⟩,
   ⟨.b, 0x60000000, put live [(ENG.ENGINE_STATE 0, 1), (ENG.ENGINE_LOOP 0, 0), (ENG.ENGINE_STATE 35, 0)],
     by unfold State.takes; decide +kernel, ⟨1, by decide +kernel⟩⟩,
   ⟨.b, 0x60000000, put live ((ENG.ENGINE_LOOP 0, 0) :: (List.range 36).map (fun e => (ENG.ENGINE_STATE e, 1))),
     by unfold State.takes; decide +kernel⟩,
   ⟨.a, 0x60000023, put live [(ENG.ENGINE_STATE 35, 3)], by unfold State.takes; decide +kernel⟩,
   ⟨.b, 0x5000001F, 0x60000023, put live [(ENG.ENGINE_STATE 35, 0), (ENG.ENGINE_STATE 7, 1), (LOOP.STATUS_ENGINE 31, 7),
     (ENG.ENGINE_LOOP 7, 31)], by unfold State.takes; decide +kernel⟩,
   ⟨35, { put live [(ENG.ENGINE_STATE 35, 2)] with eng := { testing := some 35 } }, by decide +kernel⟩,
   ⟨0, { put live [(ENG.ENGINE_STATE 0, 2)] with eng := { testing := some 0 } }, by decide +kernel⟩,
   ⟨31, 1, 35, false, ckpt, (put checkpointed [(ENG.ENGINE_STATE 1,
     4)]).modLoop 31 (fun c => { c with mig := some (1, 35, false, false) }), by decide +kernel, by decide +kernel,
     by decide +kernel, by decide +kernel, checkpoint_stands _ rfl rfl rfl, by decide +kernel, by decide +kernel,
     by decide +kernel⟩,
   ⟨31, 1, 35, true, ckpt, (put checkpointed [(ENG.ENGINE_STATE 1, 1), (ENG.ENGINE_LOOP 1,
     31)]).modLoop 31 (fun c => { c with mig := some (1, 35, true, true) }), by decide +kernel, by decide +kernel,
     by decide +kernel, by decide +kernel, checkpoint_stands _ rfl rfl rfl, by decide +kernel, by decide +kernel,
     by decide +kernel⟩,
   ⟨35, 1, true,
     { put live [(ENG.ENGINE_COPYING 35, 1), (ENG.ENGINE_LOOP 35, 31), (ENG.ENGINE_STATE 35, 1), (LOOP.STATUS_ENGINE 31, 35)] with eng := { copies := [(35, 1, true)] } },
     by decide +kernel⟩,
   ⟨31, ((put live [(LOOP.STATUS_STATE 31, 4)]).modLoop 31 (fun c => { c with ckState := 1, fresh := false })).modHo 31 (fun c
     => { c with fitted := some ⟨1, 5, 0, 0, 0, 0, 0, 0, 0, 0, 0, 0, 0, 0⟩ }), by decide +kernel⟩⟩

theorem witness_Synthesisers :
    (∃ (n : Fin 8) (s : State), (s.aplC ↑n).phase = SynthPhase.bandCal) ∧
    (∃ (n : Fin 8) (s : State), (s.aplC ↑n).phase = SynthPhase.acquiring) ∧
    (∃ (n : Fin 8) (dev : ℤ) (s : State), (s.aplC ↑n).phase = SynthPhase.counting ∧ dev.natAbs ≤ s.f (APL.LOCK_TOL ↑n)) ∧
    (∃ (n : Fin 8) (dev : ℤ) (s : State), (s.aplC ↑n).phase = SynthPhase.counting ∧ s.f (APL.LOCK_TOL ↑n) < dev.natAbs ∧
      s.flt.injCheck = false ∧ s.reaction 9 15 < 8 ∧ (s.aplC ↑n).outTol < 15) ∧
    (∃ (p : Port) (n : Fin 8) (ws : List Word) (s : State), s.takes p (APL.CMD ↑n) false ∧ s.mboxIn p 2 = some ws ∧
      s.on (APL.STATUS_LOCKED ↑n) = true ∧ s.segsValid (↑n) (s.nomNow ↑n) [rampSegment (s.nomNow ↑n) (ofWords ws) (s.f
      (APL.RAMP_RATE_KHZ_PER_MS ↑n))] = true) ∧
    (∃ (p : Port) (n : Fin 8) (arm : Bool) (ws : List Word) (s : State), s.takes p (APL.CMD ↑n) false ∧ s.mboxIn p 2 = some ws ∧
      s.on (APL.STATUS_LOCKED ↑n) = true ∧ s.segsValid (↑n) (s.nomNow ↑n) [rampSegment (s.nomNow ↑n) (ofWords ws) (s.f
      (APL.RAMP_RATE_KHZ_PER_MS ↑n))] = true ∧ arm = false) ∧
    (∃ (p : Port) (n : Fin 8) (a b d x : Word) (s : State), s.takes p (APL.CMD ↑n) true ∧ s.mboxIn p 4 = some [a, b, d, x] ∧
      BitVec.toNat x < 4 ∧ d ≠ 0 ∧ (s.aplC ↑n).segs.length ≤ 16) ∧
    (∃ (p : Port) (n : Fin 8) (s : State), (s.takes p (APL.CMD ↑n) false) ∧ (∃ (i : ℕ), (s.aplC ↑n).held = some i ∧
      (s.aplC ↑n).run = none)) ∧
    (∃ (p : Port) (n : Fin 8) (s : State), (s.takes p (APL.CMD ↑n) false) ∧ (∃ (l : List Segment), (s.aplC ↑n).held = none ∧
      profileOf (s.aplC ↑n).segs = some l ∧ s.segsValid (↑n) (s.nomNow ↑n) l = true)) ∧
    (∃ (p : Port) (n : Fin 8) (s : State), s.takes p (APL.CMD ↑n) false ∧ (s.aplC ↑n).held = none ∧
      profileOf (s.aplC ↑n).segs = none) ∧
    (∃ (p : Port) (n : Fin 8) (s : State), s.takes p (APL.CMD ↑n) false ∧ (s.aplC ↑n).run.isSome = true) ∧
    (∃ (n : Fin 8) (l : List Segment) (r : TaskRun) (rs : List TaskRun) (s : State), s.tasksC (taskKey (96 + ↑n) 0) = r :: rs ∧
      (s.aplC ↑n).held = none ∧ profileOf (s.aplC ↑n).segs = some l ∧ s.segsValid (↑n) (s.nomNow ↑n) l = true) ∧
    (∃ (n : Fin 8) (i since : ℕ) (g : Segment) (s : State), (s.aplC ↑n).run = some (i, since) ∧
      (s.aplC ↑n).runSegs[i]? = some g ∧ g.last = true) ∧
    (∃ (n : Fin 8) (i since : ℕ) (g : Segment) (s : State), (s.aplC ↑n).run = some (i, since) ∧
      (s.aplC ↑n).runSegs[i]? = some g ∧ g.last = false ∧ g.hold = true) ∧
    (∃ (n : Fin 8) (i since : ℕ) (g : Segment) (s : State), (s.aplC ↑n).run = some (i, since) ∧
      (s.aplC ↑n).runSegs[i]? = some g ∧ g.last = false ∧ g.hold = false) :=
  ⟨⟨7, live.modApl 7 (fun c => { c with phase := .bandCal }), by decide +kernel⟩,
   ⟨7, live.modApl 7 (fun c => { c with phase := .acquiring }), by decide +kernel⟩,
   ⟨7, (-20), (put live [(APL.LOCK_TOL 7, 20)]).modApl 7 (fun c => { c with phase := .counting, inTol := 62 }),
     by decide +kernel⟩,
   ⟨0, 21, (put live [(APL.LOCK_TOL 0, 20), (APL.STATUS_LOCKED 0,
     1)]).modApl 0 (fun c => { c with phase := .counting, inTol := 62, outTol := 1 }), by decide +kernel⟩,
   ⟨.a, 1, [1874919424, 2328306], fill ((put live [(APL.STATUS_LOCKED 1, 1), (APL.RAMP_RATE_KHZ_PER_MS 1,
     100)]).modApl 1 (fun c => { c with nomUhz := 10000000000000000 })) .a [1874919424, 2328306],
     by unfold State.takes; decide +kernel⟩,
   ⟨.a, 1, false, [1874919424, 2328306], fill ((put live [(APL.STATUS_LOCKED 1, 1), (APL.RAMP_RATE_KHZ_PER_MS 1,
     100)]).modApl 1 (fun c => { c with nomUhz := 10000000000000000 })) .a [1874919424, 2328306],
     by unfold State.takes; decide +kernel⟩,
   ⟨.b, 7, 5, 6, 7, 3, fill live .b [5, 6, 7, 3], by unfold State.takes; decide +kernel⟩,
   ⟨.a, 7, live.modApl 7 (fun c => { c with held := some 2 }), by unfold State.takes; decide +kernel, ⟨2, by decide +kernel⟩⟩,
   ⟨.b, 7, live.modApl 7 (fun c => { c with nomUhz := 10000000000000000, segs := [some ⟨10000000000000000, 1, false, true⟩] }),
     by unfold State.takes; decide +kernel, ⟨[⟨10000000000000000, 1, false, true⟩], by decide +kernel⟩⟩,
   ⟨.b, 7, live, by unfold State.takes; decide +kernel⟩,
   ⟨.a, 0, live.modApl 0 (fun c => { c with run := some (0, 5), runSegs := [⟨10000000000000000, 1, false, true⟩] }),
     by unfold State.takes; decide +kernel⟩,
   ⟨7, [⟨10000000000000000, 1, false, true⟩], ⟨5, 12345, .valid, 3, true⟩, [],
     (live.modApl 7 (fun c =>
     { c with nomUhz := 10000000000000000, segs := [some ⟨10000000000000000, 1, false, true⟩] })).modTasks (taskKey (96 + 7) 0)
     (fun _ => [⟨5, 12345, .valid, 3, true⟩]), by decide +kernel⟩,
   ⟨7, 0, 5, ⟨7, 9, false, true⟩, live.modApl 7 (fun c =>
     { c with run := some (0, 5), runSegs := [⟨7, 9, false, true⟩, ⟨10000000000000000, 1, false, true⟩] }), by decide +kernel⟩,
   ⟨7, 0, 5, ⟨7, 9, true, false⟩, live.modApl 7 (fun c =>
     { c with run := some (0, 5), runSegs := [⟨7, 9, true, false⟩, ⟨10000000000000000, 1, false, true⟩] }), by decide +kernel⟩,
   ⟨7, 0, 5, ⟨7, 9, false, false⟩, live.modApl 7 (fun c =>
     { c with run := some (0, 5), runSegs := [⟨7, 9, false, false⟩, ⟨10000000000000000, 1, false, true⟩] }), by decide +kernel⟩⟩

theorem witness_Outputs :
    (∃ (p : Port) (m : Fin 28) (a b c d : Word) (s : State), s.takes p (OUT.CMD ↑m) false ∧ s.mboxIn p 4 = some [a, b, c, d] ∧
      BitVec.toNat b < 2 ^ 24 ∧ BitVec.toNat d < 2 ^ 8 ∧ s.isPulse ↑m = false ∧
      s.divFits (↑m) (BitVec.toNat c + 2 ^ 32 * BitVec.toNat d) (BitVec.toNat a + 2 ^ 32 * BitVec.toNat b) = true) ∧
    (∃ (p : Port) (m : Fin 28) (s : State), s.takes p (OUT.CMD ↑m) false) ∧
    (∃ (m : Fin 28) (d x : ℕ) (s : State), (s.outC ↑m).newDiv = some (d, x) ∧ (s.outC ↑m).pendStart = false ∧
      (s.outC ↑m).pendAlign = false) ∧
    (∃ (m : Fin 28) (s : State), (s.outC ↑m).running = true ∧ (s.outC ↑m).pendAlign = true) ∧
    (∃ (m : Fin 28) (s : State), ((s.outC ↑m).newDiv = none ∨ (s.outC ↑m).pendStart = true ∨ (s.outC ↑m).pendAlign = true) ∧
      ((s.outC ↑m).running && (s.outC ↑m).pendAlign) = false) ∧
    (∃ (p : Port) (m : Fin 28) (s : State), s.takes p (OUT.CMD ↑m) false ∧ s.isPulse ↑m = true) ∧
    (∃ (p : Port) (m : Fin 28) (s : State), s.takes p (OUT.CMD ↑m) false ∧ s.isPulse ↑m = false ∧
      s.on (OUT.CTRL_EN ↑m) = true) ∧
    (∃ (p : Port) (m : Fin 28) (s : State), s.takes p (OUT.CMD ↑m) false ∧ s.isPulse ↑m = false ∧
      s.on (OUT.CTRL_EN ↑m) = false) ∧
    (∃ (m : Fin 28) (r : TaskRun) (rs : List TaskRun) (s : State), s.tasksC (taskKey (104 + ↑m) 0) = r :: rs ∧
      s.isPulse ↑m = true) ∧
    (∃ (m : Fin 28) (r : TaskRun) (rs : List TaskRun) (s : State), s.tasksC (taskKey (104 + ↑m) 0) = r :: rs ∧
      s.isPulse ↑m = false ∧ s.on (OUT.CTRL_EN ↑m) = true) ∧
    (∃ (n : Fin 8) (s : State), (∃ (m : ℕ), m ∈ s.outsOf ↑n ∧ m < 28 ∧ s.isPulse m = false ∧
      ((s.outC m).pendStart = true ∨ (s.outC m).pendAlign = true) ∧ ((s.outC m).pendStart = true → s.waitsForLock m = false))) ∧
    (∃ (p : Port) (n : Fin 8) (mask : BitVec 28) (s : State), (s.takes p (APL.GROUP ↑n) false ∧
      s.groupCheck p (↑n) (2 ^ 30 + mask.toNat) = Code.ok) ∧ (∃ (m : ℕ), m < 28)) ∧
    (∃ (p : Port) (n : Fin 8) (mask : BitVec 28) (s : State), (s.takes p (APL.GROUP ↑n) false ∧
      s.groupCheck p (↑n) (2 * 2 ^ 30 + mask.toNat) = Code.ok) ∧ (∃ (m : ℕ), m < 28 ∧ bitAt mask.toNat m = true ∧
      s.isPulse m = false ∧ s.on (OUT.CTRL_EN m) = true)) ∧
    (∃ (p : Port) (n : Fin 8) (mask : BitVec 28) (s : State), (s.takes p (APL.GROUP ↑n) false ∧
      s.groupCheck p (↑n) (3 * 2 ^ 30 + mask.toNat) = Code.ok) ∧ (∃ (m : ℕ), m < 28) ∧ (∃ (m : ℕ), m < 28 ∧
      bitAt mask.toNat m = true)) ∧
    (∃ (m : Fin 28) (s : State), s.isPulse ↑m = true ∧ s.on (OUT.STATUS_RUNNING ↑m) = true ∧
      ↑(s.outC ↑m).edgesFrom ≤ (s.outC ↑m).pulse ∧ (s.outC ↑m).onGrid = true) ∧
    (∃ (m : Fin 28) (s : State), s.landed = true ∧ s.isPulse ↑m = true) ∧
    (∃ (i : Image) (s : State), (s.fab.img = some i ∧ s.eng.ferry = true ∧ s.eng.limitHit = false ∧
      s.eng.ferryFrom + i.ferryS * 2000000000 ≤ s.now) ∧ (∃ (r : OutputRec), r ∈ i.outputs ∧ r.number < 28 ∧ r.squelch ≠ 2 ∧
      s.on (OUT.CTRL_EN r.number) = true)) :=
  ⟨⟨.a, 0, 0, 0, 120, 0, fill (live.modApl 0 (fun c => { c with nomUhz := 10000000000000000, imageHz := 10000000000 })) .a [0,
    0, 120, 0], by unfold State.takes; decide +kernel⟩,
   ⟨.b, 24, live.modOut 24 (fun c => { c with dint := 5, dfrac := 7 }), by unfold State.takes; decide +kernel⟩,
   ⟨27, 5, 7, live.modOut 27 (fun c => { c with newDiv := some (5, 7) }), by decide +kernel⟩,
   ⟨27, live.modOut 27 (fun c => { c with newDiv := some (5, 7), pendAlign := true, running := true }), by decide +kernel⟩,
   ⟨1, live, by decide +kernel⟩,
   ⟨.a, 1, live, by unfold State.takes; decide +kernel⟩,
   ⟨.a, 0, put live [(OUT.CTRL_EN 0, 1)], by unfold State.takes; decide +kernel⟩,
   ⟨.a, 0, put live [(OUT.CTRL_EN 0, 0)], by unfold State.takes; decide +kernel⟩,
   ⟨1, ⟨5, 12345, .valid, 3, true⟩, [], live.modTasks (taskKey (104 + 1) 0) (fun _ => [⟨5, 12345, .valid, 3, true⟩]),
     by decide +kernel⟩,
   ⟨0, ⟨5, 12345, .valid, 3, true⟩, [], (put live [(OUT.CTRL_EN 0, 1)]).modTasks (taskKey (104 + 0) 0) (fun _ => [⟨5, 12345,
     .valid, 3, true⟩]), by decide +kernel⟩,
   ⟨0, (put live [(APL.STATUS_LOCKED 0, 1)]).modOut 0 (fun c => { c with pendStart := true }), ⟨0, by decide +kernel⟩⟩,
   ⟨.a, 0, 4, live, by unfold State.takes; decide +kernel, ⟨2, by decide +kernel⟩⟩,
   ⟨.a, 0, 5, put live [(OUT.CTRL_EN 0, 1)], by unfold State.takes; decide +kernel, ⟨0, by decide +kernel⟩⟩,
   ⟨.b, 0, 5, put live [(OUT.CTRL_EN 0, 1)], by unfold State.takes; decide +kernel, ⟨2, by decide +kernel⟩, ⟨2,
     by decide +kernel⟩⟩,
   ⟨1, (put live [(OUT.STATUS_RUNNING 1, 1)]).modOut 1 (fun c => { c with perNs := 1000000000 }), by decide +kernel⟩,
   ⟨1, live.modTsc 0 (fun c => { c with sec := 5 }), by decide +kernel⟩,
   ⟨{ image with ferryS := 5 },
     { put live [(OUT.CTRL_EN 0, 1)] with fab := { img := some { image with ferryS := 5 } }, eng := { ferry := true } },
     by decide +kernel, ⟨⟨0, 0, 0, 0, 0xF, 1, 0, 100000000000000⟩, by decide +kernel⟩⟩⟩

theorem witness_SetIncrementIsPaced :
    (∃ (p : Port) (n : Fin 8) (a b : Word) (y : ℤ) (t0 : ℕ) (s : State), s.takes p (TSC.CMD ↑n) false ∧
      s.on (TSC.STATUS_BUSY ↑n) = false ∧ s.on (TSC.CFG_TIED ↑n) = false ∧ s.mboxIn p 2 = some [a, b] ∧ incOf a b = some y ∧
      (s.tscC ↑n).lastInc = some t0 ∧ s.now < t0 + 2000000) ∧
    (∃ (p : Port) (n : Fin 8) (s : State), s.takes p (TSC.CMD ↑n) false ∧ s.on (TSC.STATUS_BUSY ↑n) = false ∧
      s.on (TSC.CFG_TIED ↑n) = true) ∧
    (∃ (p : Port) (n : Fin 8) (s : State), s.takes p (TSC.CMD ↑n) true ∧ s.on (TSC.STATUS_BUSY ↑n) = false ∧
      s.on (TSC.CFG_TIED ↑n) = true) :=
  ⟨⟨.a, 7, 5, 0, 5, 4999998000001, (fill live .a [5, 0]).modTsc 7 (fun c => { c with lastInc := some 4999998000001 }),
    by unfold State.takes; decide +kernel⟩,
   ⟨.a, 7, put live [(TSC.CFG_TIED 7, 1)], by unfold State.takes; decide +kernel⟩,
   ⟨.b, 7, put live [(TSC.CFG_TIED 7, 1)], by unfold State.takes; decide +kernel⟩⟩

theorem witness_TimeScaleCommands :
    (∃ (p : Port) (n : Fin 8) (a b : Word) (y : ℤ) (s : State), s.takes p (TSC.CMD ↑n) false ∧
      s.on (TSC.STATUS_BUSY ↑n) = false ∧ s.on (TSC.CFG_TIED ↑n) = false ∧ s.mboxIn p 2 = some [a, b] ∧ incOf a b = some y ∧
      (∀ (t0 : ℕ), (s.tscC ↑n).lastInc = some t0 → t0 + 2000000 ≤ s.now) ∧
      (y - (s.tscC ↑n).y).natAbs * 1000000000 ≤ (s.tscC ↑n).thresh * 2 ^ 56) ∧
    (∃ (p : Port) (n : Fin 8) (a b : Word) (y : ℤ) (s : State), s.takes p (TSC.CMD ↑n) false ∧
      s.on (TSC.STATUS_BUSY ↑n) = false ∧ s.on (TSC.CFG_TIED ↑n) = false ∧ s.mboxIn p 2 = some [a, b] ∧ incOf a b = some y ∧
      (∀ (t0 : ℕ), (s.tscC ↑n).lastInc = some t0 → t0 + 2000000 ≤ s.now) ∧
      (s.tscC ↑n).thresh * 2 ^ 56 < (y - (s.tscC ↑n).y).natAbs * 1000000000) ∧
    (∃ (p : Port) (n : Fin 8) (a b c : Word) (s : State), s.takes p (TSC.CMD ↑n) false ∧ s.on (TSC.STATUS_BUSY ↑n) = false ∧
      s.mboxIn p 3 = some [a, b, c] ∧ s.guarded (↑n) ((s.tscC ↑n).val + ((s.tscC ↑n).rem + amountOf a b c * 2 ^ 24)) = false ∧
      ((s.tscC ↑n).rem + amountOf a b c * 2 ^ 24).natAbs ≤ s.limit ↑n * 2 ^ 24) ∧
    (∃ (p : Port) (n : Fin 8) (a b c : Word) (s : State), s.takes p (TSC.CMD ↑n) false ∧ s.on (TSC.STATUS_BUSY ↑n) = false ∧
      s.mboxIn p 3 = some [a, b, c] ∧ s.guarded (↑n) ((s.tscC ↑n).val + amountOf a b c * 2 ^ 24) = false ∧
      (amountOf a b c).natAbs ≤ s.limit ↑n) ∧
    (∃ (p : Port) (n : Fin 8) (a b c : Word) (tk : List Word) (s : State), s.takes p (TSC.CMD ↑n) false ∧
      s.on (TSC.STATUS_BUSY ↑n) = false ∧ s.mboxAll p = some (a :: b :: c :: tk)) ∧
    (∃ (p : Port) (n : Fin 8) (a b c d : Word) (v : ℕ) (s : State), s.takes p (TSC.CMD ↑n) false ∧
      s.on (TSC.STATUS_BUSY ↑n) = false ∧ s.on (TSC.STATUS_SET ↑n) = false ∧ s.mboxIn p 4 = some [a, b, c, d] ∧
      valueOf a b c d = some v ∧ (s.tscC ↑n).floor ≤ v / (1000000000 * 2 ^ 56)) ∧
    (∃ (p : Port) (n : Fin 8) (a b c d e f : Word) (y : ℤ) (v : ℕ) (s : State), s.takes p (TSC.CMD ↑n) true ∧
      s.on (TSC.STATUS_BUSY ↑n) = false ∧ s.on (TSC.CFG_TIED ↑n) = false ∧ s.mboxIn p 6 = some [a, b, c, d, e, f] ∧
      incOf a b = some y ∧ valueOf c d e f = some v ∧ (v = 0 ∨ (s.tscC ↑n).val ≤ ↑v)) ∧
    (∃ (p : Port) (n : Fin 8) (s : State), s.takes p (TSC.CMD ↑n) true ∧ s.on (TSC.STATUS_BUSY ↑n) = false ∧
      s.on (TSC.CFG_TIED ↑n) = false) ∧
    (∃ (p : Port) (n : Fin 8) (s : State), s.takes p (TSC.CMD ↑n) false ∧ s.on (TSC.STATUS_BUSY ↑n) = false) ∧
    (∃ (p : Port) (n : Fin 8) (ws : List Word) (s : State), s.takes p (TSC.CMD ↑n) false ∧ s.on (TSC.STATUS_BUSY ↑n) = false ∧
      s.mboxIn p 2 = some ws ∧ ofWords ws ≠ 0 ∧ ofWords ws ≤ (s.tscC ↑n).imageThresh) ∧
    (∃ (p : Port) (n : Fin 8) (ws : List Word) (s : State), s.takes p (TSC.CMD ↑n) false ∧ s.on (TSC.STATUS_BUSY ↑n) = false ∧
      s.mboxIn p 2 = some ws ∧ (ofWords ws = 0 ∨ (s.tscC ↑n).imageThresh < ofWords ws)) :=
  ⟨⟨.a, 7, 5, 0, 5, (fill live .a [5, 0]).modTsc 7 (fun c => { c with lastInc := some 4999998000000 }),
    by unfold State.takes; decide +kernel⟩,
   ⟨.b, 0, 0, 0x7FFF, 140733193388032, fill live .b [0, 0x7FFF], by unfold State.takes; decide +kernel⟩,
   ⟨.a, 7, 0xFFFFFFFF, 0xFFFFFFFF, 0xFFFFFFFF, (fill live .a [0xFFFFFFFF, 0xFFFFFFFF,
     0xFFFFFFFF]).modTsc 7 (fun c => { c with sec := 100 }), by unfold State.takes; decide +kernel⟩,
   ⟨.b, 0, 0, 1000000, 0, (fill live .b [0, 1000000, 0]).modTsc 0 (fun c => { c with sec := 100 }),
     by unfold State.takes; decide +kernel⟩,
   ⟨.a, 7, 1, 2, 3, List.replicate 44 9, fill live .a ([1, 2, 3] ++ List.replicate 44 9),
     by unfold State.takes; decide +kernel⟩,
   ⟨.a, 7, 1, 999999999, 100, 0, (100 * 1000000000 + 999999999) * 2 ^ 56 + 2 ^ 24, (fill live .a [1, 999999999, 100,
     0]).modTsc 7 (fun c => { c with floor := 100 }), by unfold State.takes; decide +kernel⟩,
   ⟨.a, 7, 5, 0, 0, 0, 0, 0, 5, 0, fill live .a [5, 0, 0, 0, 0, 0], by unfold State.takes; decide +kernel⟩,
   ⟨.a, 7, live.modTsc 7 (fun c => { c with sched := some (5, none) }), by unfold State.takes; decide +kernel⟩,
   ⟨.a, 7, live.modTsc 7 (fun c => { c with sec := 2 ^ 33 + 5, sub := 7 * 2 ^ 56 + 3 * 2 ^ 24 }),
     by unfold State.takes; decide +kernel⟩,
   ⟨.a, 7, [1000000, 0], fill live .a [1000000, 0], by unfold State.takes; decide +kernel⟩,
   ⟨.a, 7, [1000001, 0], fill live .a [1000001, 0], by unfold State.takes; decide +kernel⟩⟩

theorem witness_TimeScaleEvents :
    (∃ (n : Fin 8) (j : TicketJob) (s : State), (s.tscC ↑n).ticket = some j ∧ s.verifyTurn (VerifyReq.ticket ↑n) = true ∧
      VerifyReq.request ∉ s.sec.verify ∧ s.ticketReason (↑n) j ≠ 0 ∧ s.flt.injCheck = false ∧ s.reaction 3 19 < 8) ∧
    (∃ (n : Fin 8) (s : State), s.verifyTurn (VerifyReq.ticket ↑n) = false) ∧
    (∃ (n : Fin 8) (s : State), s.tscBuilt ↑n = true ∧ 1000000000 * 2 ^ 56 ≤ (s.tscC ↑n).sub) ∧
    (∃ (n : Fin 8) (s : State), s.on (TSC.STATUS_ADJUSTING ↑n) = true ∧ (s.tscC ↑n).rem = 0) ∧
    (∃ (n : Fin 8) (y : ℤ) (sec sub : ℕ) (s : State), (s.tscC ↑n).sched = some (y, some (sec, sub)) ∧
      ((sec * 1000000000 * 2 ^ 56 + sub : Nat) : Int) ≤ (s.tscC ↑n).val ∧
      (y - (s.tscC ↑n).y).natAbs * 1000000000 ≤ (s.tscC ↑n).thresh * 2 ^ 56) ∧
    (∃ (n : Fin 8) (y : ℤ) (v : ℕ × ℕ) (r : TaskRun) (rs : List TaskRun) (s : State),
      s.tasksC (taskKey (136 + ↑n) 0) = r :: rs ∧ (s.tscC ↑n).sched = some (y, some v)) ∧
    (∃ (n : Fin 8) (y : ℤ) (r : TaskRun) (rs : List TaskRun) (s : State), s.tasksC (taskKey (136 + ↑n) 0) = r :: rs ∧
      (s.tscC ↑n).sched = some (y, none) ∧ (y - (s.tscC ↑n).y).natAbs * 1000000000 ≤ (s.tscC ↑n).thresh * 2 ^ 56) ∧
    (∃ (k : Fin 2) (r : TodoutRec) (s : State), s.todRec ↑k = some r ∧ s.landed = true ∧ (s.todC ↑k).due = true ∧
      (s.todC ↑k).window s.now = true ∧ s.on (TSC.TODOUT_CTRL_EN r.tsc ↑k) = true ∧
      (r.format ≠ 1 ∨ s.on (TSC.STATUS_SET r.tsc) = true ∧ s.on (TSC.TOD_CFG_UTC_VALID r.tsc) = true) ∧
      s.todFits r (if r.format = 1 then s.zda r.tsc else s.ownTod r.tsc ↑k).length = true) ∧
    (∃ (k : Fin 2) (r : TodoutRec) (s : State), s.todRec ↑k = some r ∧ s.landed = true ∧ (s.todC ↑k).due = true ∧
      (s.todC ↑k).window s.now = true ∧ s.on (TSC.TODOUT_CTRL_EN r.tsc ↑k) = true ∧
      (r.format ≠ 1 ∨ s.on (TSC.STATUS_SET r.tsc) = true ∧ s.on (TSC.TOD_CFG_UTC_VALID r.tsc) = true) ∧
      s.todFits r (if r.format = 1 then s.zda r.tsc else s.ownTod r.tsc ↑k).length = false) ∧
    (∃ (p : Port) (k : Fin 16) (s : State), s.takes p EVR.SWEVT false ∧ s.routesOf (768 + ↑k) = []) ∧
    (∃ (p : Port) (k : Fin 16) (s : State), (s.takes p EVR.SWEVT false) ∧ (∃ (r : ℕ), s.routesOf (768 + ↑k) = [r] ∧
      s.on (EVR.ROUTE_DST_BERTH r) = false ∧ s.tasksC (taskKey (s.f (EVR.ROUTE_DST_BLOCK r)) (s.f (EVR.ROUTE_DST_TASK r))) =
      [])) :=
  ⟨⟨7, ⟨5, .a, [], 0, none⟩, live.modTsc 7 (fun c => { c with ticket := some ⟨5, .a, [], 0, none⟩ }), by decide +kernel⟩,
   ⟨7, { live with sec := { verify := [.ticket 3, .ticket 7] } }, by decide +kernel⟩,
   ⟨7, live.modTsc 7 (fun c => { c with sec := 4, sub := 1000000000 * 2 ^ 56 + 9 }), by decide +kernel⟩,
   ⟨7, (put live [(TSC.STATUS_ADJUSTING 7, 1)]).modTsc 7 (fun c => { c with rem := 0, sec := 1 }), by decide +kernel⟩,
   ⟨7, 5, 1, 2, live.modTsc 7 (fun c => { c with sec := 9, sched := some (5, some (1, 2)) }), by decide +kernel⟩,
   ⟨7, 5, (1, 2), ⟨5, 12345, .valid, 3, true⟩, [],
     (live.modTsc 7 (fun c => { c with sched := some (5, some (1, 2)) })).modTasks (taskKey (136 + 7) 0) (fun _ => [⟨5, 12345,
     .valid, 3, true⟩]), by decide +kernel⟩,
   ⟨7, 5, ⟨5, 12345, .valid, 3, true⟩, [], (live.modTsc 7 (fun c => { c with sched := some (5, none) })).modTasks (taskKey (136
     + 7) 0) (fun _ => [⟨5, 12345, .valid, 3, true⟩]), by decide +kernel⟩,
   ⟨0, ⟨0, 0, 0, 0⟩, (put live [(TSC.TODOUT_CTRL_EN 0 0,
     1)]).modTod 0 (fun c => { c with due := true, since := 4999997000000 }), by decide +kernel⟩,
   ⟨1, ⟨1, 1, 1, 1⟩, ((put live [(TSC.TODOUT_CTRL_EN 1 1, 1), (TSC.STATUS_SET 1, 1), (TSC.TOD_CFG_UTC_VALID 1,
     1)]).modTsc 1 (fun c => { c with sub := 1000000000 * 2 ^ 56 - 1 })).modTod 1 (fun c =>
     { c with due := true, since := 4999997000000 }), by decide +kernel⟩,
   ⟨.a, 15, live, by unfold State.takes; decide +kernel⟩,
   ⟨.a, 0, setws live [(EVR.ROUTE_SRC 255, 0x80000300), (EVR.ROUTE_SRC 255 + 4, 0x100)], by unfold State.takes; decide +kernel,
     ⟨255, by decide +kernel⟩⟩⟩

theorem witness_PortLink :
    (∃ (n : Fin 8) (s : State), s.prtLive ↑n = true ∧ (s.on (PRT.STATUS_DORMANT ↑n) = false ∨ ↑n < 2) ∧
      (s.prtC ↑n).signal = false) ∧
    (∃ (n : Fin 8) (s : State), s.prtLive ↑n = true ∧ (s.on (PRT.STATUS_DORMANT ↑n) = false ∨ ↑n < 2) ∧
      (s.prtC ↑n).signal = true ∧ s.f (PRT.STATUS_EQ ↑n) = 1) ∧
    (∃ (n : Fin 8) (s : State), s.prtLive ↑n = true ∧ (s.on (PRT.STATUS_DORMANT ↑n) = false ∨ ↑n < 2) ∧
      (s.prtC ↑n).signal = true ∧ (s.f (PRT.STATUS_EQ ↑n) = 2 ∨ s.f (PRT.STATUS_EQ ↑n) = 3)) ∧
    (∃ (n : Fin 8) (s : State), s.prtLive ↑n = true ∧ s.on (PRT.CTRL_ADMIN ↑n) = true ∧ s.on (PRT.STATUS_DORMANT ↑n) = false ∧
      s.on (PRT.STATUS_LINK ↑n) = false ∧ (s.prtC ↑n).signal = true) ∧
    (∃ (n : Fin 8) (s : State), s.prtLive ↑n = true ∧ s.on (PRT.STATUS_LINK ↑n) = false ∧ (s.prtC ↑n).signal = true ∧
      (s.on (PRT.STATUS_DORMANT ↑n) = true → ↑n < 2) ∧
      (s.on (PRT.CTRL_ADMIN ↑n) = false ∨ s.on (PRT.STATUS_DORMANT ↑n) = true)) ∧
    (∃ (n : Fin 8) (s : State), s.on (PRT.STATUS_LINK ↑n) = true ∧ (s.prtC ↑n).settleAt + msT ≤ s.now ∧
      16 ≤ (s.prtC ↑n).settleFrames) ∧
    (∃ (n : Fin 8) (s : State), s.numbered = true ∧ s.prtLive ↑n = true ∧ (s.prtC ↑n).signal = true ∧
      s.on (PRT.STATUS_LINK ↑n) = true) ∧
    (∃ (n : Fin 8) (s : State), s.numbered = true ∧ s.prtLive ↑n = true ∧ (s.prtC ↑n).signal = true ∧
      s.on (PRT.STATUS_BLOCK_LOCK ↑n) = true ∧ s.on (PRT.STATUS_LINK ↑n) = true) ∧
    (∃ (n : Fin 8) (s : State), (s.prtC ↑n).holding = true ∧ s.on (PRT.STATUS_LINK ↑n) = false ∧
      (s.prtC ↑n).downAt + s.f (PRT.CTRL_HOLD_MS ↑n) * msT ≤ s.now) ∧
    (∃ (n : Fin 8) (s : State), s.prtLive ↑n = true ∧ s.on (PRT.STATUS_LINK ↑n) = true ∧ s.on (PRT.CTRL_PREEMPT_EN ↑n) = true) ∧
    (∃ (n : Fin 8) (s : State), s.prtLive ↑n = true ∧ s.f (PRT.STATUS_EQ ↑n) = 4) :=
  ⟨⟨7, live, by decide +kernel⟩,
   ⟨1, (put portUp [(PRT.STATUS_LINK 1, 0), (PRT.STATUS_EQ 1, 1)]).modPrt 1 (fun c => { c with signal := true }),
     by decide +kernel⟩,
   ⟨1, (put portUp [(PRT.STATUS_LINK 1, 0), (PRT.STATUS_EQ 1, 2)]).modPrt 1 (fun c => { c with signal := true }),
     by decide +kernel⟩,
   ⟨1, (put portUp [(PRT.STATUS_LINK 1, 0)]).modPrt 1 (fun c => { c with signal := true }), by decide +kernel⟩,
   ⟨1, (put portUp [(PRT.STATUS_LINK 1, 0), (PRT.CTRL_ADMIN 1, 0)]).modPrt 1 (fun c => { c with signal := true }),
     by decide +kernel⟩,
   ⟨1, (portUp.modLnd 21 (fun c => { c with linkSettle := true })).modPrt 1 (fun c => { c with settleFrames := 16 }),
     by decide +kernel⟩,
   ⟨1, portUp.modPrt 1 (fun c => { c with signal := true }), by decide +kernel⟩,
   ⟨1, (put portUp [(PRT.STATUS_BLOCK_LOCK 1, 1), (LND.STATUS_ACTIVE 21, 1)]).modPrt 1 (fun c => { c with signal := true }),
     by decide +kernel⟩,
   ⟨7, live.modPrt 7 (fun c => { c with holding := true, q1 := [⟨.raw [1], .none⟩, ⟨.raw [2], .host 4⟩] }), by decide +kernel⟩,
   ⟨1, put portUp [(PRT.CTRL_PREEMPT_EN 1, 1)], by decide +kernel⟩,
   ⟨1, put portUp [(PRT.STATUS_EQ 1, 4)], by decide +kernel⟩⟩

theorem witness_PortFrames :
    (∃ (n : Fin 8) (f : RxFrame) (s : State), s.hears (↑n) f ∧ (frameType f.bytes).1 ≠ 34824 ∧ s.accepts (↑n) f.bytes = true ∧
      beAt f.bytes 0 6 ≠ 1652522221570 ∧ isPtpFrame f.bytes = false ∧
      (s.prtC ↑n).rxUsed + f.bytes.length ≤ s.f (PRT.CFG_BUFS ↑n) * 262144 ∧ (s.prtC ↑n).rx = []) ∧
    (∃ (n : Fin 8) (f : RxFrame) (ssm e c : ℕ) (essm : Option ℕ) (s : State), (s.hears (↑n) f ∧ esmcOf f.bytes = some (ssm,
      essm, e, c)) ∧ (∃ (i k : ℕ), (i, k) ∈ s.entriesOf (20 + ↑n) ∧ i < 16)) ∧
    (∃ (n : Fin 8) (f : RxFrame) (s : State), s.hears (↑n) f ∧ (frameType f.bytes).1 = 34824 ∧
      beAt f.bytes 0 6 = 1652522221569 ∧ beAt f.bytes 14 2 = 1 ∧ s.on (PRT.PAUSE_RX_EN ↑n) = true ∧
      (s.prtC ↑n).ignoreTo ≤ s.now) ∧
    (∃ (n : Fin 8) (s : State), s.on (PRT.STATUS_PAUSED ↑n) = true ∧ (s.prtC ↑n).pauseEnd ≤ s.now) ∧
    (∃ (n : Fin 8) (s : State), s.on (PRT.STATUS_PAUSING ↑n) = true ∧ s.on (PRT.PAUSE_TX_EN ↑n) = true ∧
      s.f (PRT.WMARK_LOW ↑n) * 1024 < (s.prtC ↑n).rxUsed ∧ s.on (PRT.STATUS_LINK ↑n) = true ∧
      (s.prtC ↑n).pauseSentAt + quantaT (s.f (PRT.CFG_MODE ↑n)) (s.f (PRT.PAUSE_QUANTA ↑n)) / 2 ≤ s.now) ∧
    (∃ (n : Fin 8) (s : State), s.prtLive ↑n = true ∧ s.on (PRT.ESMC_TX_EN ↑n) = true ∧ (s.prtC ↑n).infoDue s.now = true ∧
      s.on (PRT.STATUS_DORMANT ↑n) = false ∧ s.mayLeave (↑n) none) :=
  ⟨⟨1, etherIn 0xFFFFFFFFFFFF 0x0800 [1, 2, 3], portUp, by unfold State.hears; decide +kernel⟩,
   ⟨1, etherIn 0x0180C2000002 0x8809 [0x0A, 0, 0x19, 0xA7, 0, 1, 0x10, 0, 0, 0, 1, 0, 4, 2], 2, 0, 0, none,
     put portUp [(SEL.CFG_NCAND 15, 3), (SEL.CAND_CFG_WHO 15 2, 21), (SEL.CAND_CFG_SOURCE 15 2, 1)],
     by unfold State.hears; decide +kernel, ⟨15, 2, by decide +kernel⟩⟩,
   ⟨1, etherIn 0x0180C2000001 0x8808 [0, 1, 0, 5], put portUp [(PRT.PAUSE_RX_EN 1, 1)], by unfold State.hears; decide +kernel⟩,
   ⟨1, put portUp [(PRT.STATUS_PAUSED 1, 1)], by decide +kernel⟩,
   ⟨1, (put portUp [(PRT.STATUS_PAUSING 1, 1), (PRT.PAUSE_TX_EN 1, 1), (PRT.WMARK_LOW 1,
     0)]).modPrt 1 (fun c => { c with rx := [⟨⟨0, 0, 0, .valid⟩, [1]⟩] }), by decide +kernel⟩,
   ⟨1, put portUp [(PRT.ESMC_TX_EN 1, 1)], by unfold State.mayLeave; decide +kernel⟩⟩

theorem witness_PauseWatchdog :
    (∃ (n : Fin 8) (s : State), s.on (PRT.STATUS_PAUSED ↑n) = true ∧
      (s.prtC ↑n).pausedAt + s.f (PRT.PAUSE_WD_US ↑n) * 2000 ≤ s.now) ∧
    (∃ (n : Fin 8) (f : RxFrame) (s : State), s.hears (↑n) f ∧ (frameType f.bytes).1 = 34824 ∧
      beAt f.bytes 0 6 = 1652522221569 ∧ beAt f.bytes 14 2 = 1 ∧ s.now < (s.prtC ↑n).ignoreTo) :=
  ⟨⟨1, put portUp [(PRT.STATUS_PAUSED 1, 1)], by decide +kernel⟩,
   ⟨1, etherIn 0x0180C2000001 0x8808 [0, 1, 0, 5], (put portUp [(PRT.PAUSE_RX_EN 1,
     1)]).modPrt 1 (fun c => { c with ignoreTo := 5000000000001 }), by unfold State.hears; decide +kernel⟩⟩

theorem witness_PortQueues :
    (∃ (n : Fin 8) (q id : ℕ) (f : TxFrame) (rest : List TxFrame) (s : State), s.canSend ↑n = true ∧
      (s.prtC ↑n).firstQueue = some q ∧ (s.prtC ↑n).queue q = f :: rest ∧ f.owner = TxOwner.host id ∧
      (s.prtC ↑n).tsq.length < 64) ∧
    (∃ (p : Port) (n : Fin 8) (s : State), s.takes p (PRT.CMD ↑n) false ∧ (s.prtC ↑n).tsq = []) ∧
    (∃ (p : Port) (n : Fin 8) (s : State), (s.takes p (PRT.CMD ↑n) false) ∧ (∃ (e : TsqEntry) (es : List TsqEntry),
      (s.prtC ↑n).tsq = e :: es)) ∧
    (∃ (p : Port) (n : Fin 8) (ws : List Word) (s : State), s.takes p (PRT.CMD ↑n) false ∧ s.mboxIn p 5 = some ws ∧ ↑n < 2) ∧
    (∃ (p : Port) (n : Fin 8) (ws : List Word) (s : State), s.takes p (PRT.CMD ↑n) false ∧ s.mboxIn p 5 = some ws ∧ 2 ≤ ↑n) ∧
    (∃ (p : Port) (n : Fin 8) (s : State), s.takes p (PRT.CMD ↑n) false ∧ s.on (PRT.CTRL_ADMIN ↑n) = true) ∧
    (∃ (p : Port) (n : Fin 8) (s : State), s.takes p (PRT.CMD ↑n) false ∧ s.on (PRT.CTRL_ADMIN ↑n) = false) ∧
    (∃ (n : Fin 8) (s : State), (s.prtC ↑n).loopcal = true) :=
  ⟨⟨1, 4, 9, ⟨.raw [1], .host 9⟩, [], portUp.modPrt 1 (fun c =>
    { c with qx := [⟨.raw [1], .host 9⟩], tsq := List.replicate 63 ⟨false, 1, none⟩ }), by decide +kernel⟩,
   ⟨.a, 7, live, by unfold State.takes; decide +kernel⟩,
   ⟨.b, 1, live.modPrt 1 (fun c => { c with tsq := [⟨true, 5, none⟩, ⟨false, 1, none⟩], stats := [2 ^ 32 - 1, 7, 8] }),
     by unfold State.takes; decide +kernel, ⟨⟨true, 5, none⟩, [⟨false, 1, none⟩], by decide +kernel⟩⟩,
   ⟨.a, 1, [1, 2, 3, 4, 5], fill live .a [1, 2, 3, 4, 5], by unfold State.takes; decide +kernel⟩,
   ⟨.a, 2, [1, 2, 3, 4, 5], fill live .a [1, 2, 3, 4, 5], by unfold State.takes; decide +kernel⟩,
   ⟨.a, 1, portUp, by unfold State.takes; decide +kernel⟩,
   ⟨.b, 7, put live [(PRT.CTRL_ADMIN 7, 0)], by unfold State.takes; decide +kernel⟩,
   ⟨7, (put live [(PRT.CTRL_ADMIN 7, 0)]).modPrt 7 (fun c => { c with loopcal := true }), by decide +kernel⟩⟩

theorem witness_PtpSyncReceived :
    (∃ (n : Fin 8) (f : PtpFrame) (k : ℕ) (s : State), s.hearsPtp (↑n) f ∧ f.msg.kind = PtpKind.sync ∧ s.listens ↑n = true ∧
      s.comesFrom (↑n) 2 f k ∧ f.msg.twoStep = true ∧ (s.berthC k).up.pairs.length < 2) ∧
    (∃ (n : Fin 8) (f : PtpFrame) (k : ℕ) (s : State), s.hearsPtp (↑n) f ∧ f.msg.kind = PtpKind.sync ∧ s.listens ↑n = true ∧
      s.comesFrom (↑n) 2 f k ∧ f.msg.twoStep = true ∧ 2 ≤ (s.berthC k).up.pairs.length) ∧
    (∃ (n : Fin 8) (f : PtpFrame) (k : ℕ) (s : State), s.hearsPtp (↑n) f ∧ f.msg.kind = PtpKind.sync ∧ s.listens ↑n = true ∧
      s.comesFrom (↑n) 2 f k ∧ f.msg.twoStep = false ∧ (s.rxStamp (↑n) f.cap).tag ≠ Tag.gap) ∧
    (∃ (n : Fin 8) (f : PtpFrame) (k : ℕ) (s : State), s.hearsPtp (↑n) f ∧ f.msg.kind = PtpKind.sync ∧ s.listens ↑n = true ∧
      s.comesFrom (↑n) 2 f k ∧ f.msg.twoStep = false ∧ (s.rxStamp (↑n) f.cap).tag = Tag.gap) ∧
    (∃ (n : Fin 8) (f : PtpFrame) (k : ℕ) (s : State), s.hearsPtp (↑n) f ∧ f.msg.kind = PtpKind.followUp ∧ s.listens ↑n = true ∧
      s.comesFrom (↑n) 2 f k ∧ s.pairOf k f.msg = none) ∧
    (∃ (n : Fin 8) (f : PtpFrame) (k : ℕ) (q : PairSlot) (s : State), s.hearsPtp (↑n) f ∧ f.msg.kind = PtpKind.followUp ∧
      s.listens ↑n = true ∧ s.comesFrom (↑n) 2 f k ∧ s.pairOf k f.msg = some q ∧ q.t2.tag ≠ Tag.gap) ∧
    (∃ (n : Fin 8) (f : PtpFrame) (k : ℕ) (q : PairSlot) (s : State), s.hearsPtp (↑n) f ∧ f.msg.kind = PtpKind.followUp ∧
      s.listens ↑n = true ∧ s.comesFrom (↑n) 2 f k ∧ s.pairOf k f.msg = some q ∧ q.t2.tag = Tag.gap) :=
  ⟨⟨1, ⟨ptpIn .sync, [], stampCap, false, []⟩, 0,
    moor (ptpLive 2) 0 { kind := 2, port := 1, live := true, par := { peerId := 5 } },
    by unfold State.comesFrom State.hearsPtp; decide +kernel⟩,
   ⟨1, ⟨ptpIn .sync, [], stampCap, false, []⟩, 0,
     moor (ptpLive 2) 0
     { kind := 2, port := 1, live := true, par := { peerId := 5 }, up := { pairs := [⟨7, 5, ⟨9, 0, 0, .valid⟩, 0, 4999999999000, 0, 0⟩, ⟨8, 5, ⟨9, 0, 0, .valid⟩, 0, 4999999999000, 0, 0⟩] } },
     by unfold State.comesFrom State.hearsPtp; decide +kernel⟩,
   ⟨1, ⟨{ ptpIn .sync with twoStep := false }, [], stampCap, false, []⟩, 0,
     moor (ptpLive 2) 0 { kind := 2, port := 1, live := true, par := { peerId := 5 } },
     by unfold State.comesFrom State.hearsPtp; decide +kernel⟩,
   ⟨1, ⟨{ ptpIn .sync with twoStep := false }, [], ⟨0, 0, false⟩, false, []⟩, 0,
     moor (ptpLive 2) 0 { kind := 2, port := 1, live := true, par := { peerId := 5 } },
     by unfold State.comesFrom State.hearsPtp; decide +kernel⟩,
   ⟨1, ⟨ptpIn .followUp, [], stampCap, false, []⟩, 8191,
     moor (ptpLive 4) 8191 { kind := 2, port := 1, live := true, par := { peerId := 5 } },
     by unfold State.comesFrom State.hearsPtp; decide +kernel⟩,
   ⟨1, ⟨ptpIn .followUp, [], stampCap, false, []⟩, 0, ⟨7, 5, ⟨9, 0, 0, .valid⟩, 0, 4999999999000, 0, 0⟩,
     moor (ptpLive 4) 0
     { kind := 2, port := 1, live := true, par := { peerId := 5 }, up := { pairs := [⟨7, 5, ⟨9, 0, 0, .valid⟩, 0, 4999999999000, 0, 0⟩] } },
     by unfold State.comesFrom State.hearsPtp; decide +kernel⟩,
   ⟨1, ⟨ptpIn .followUp, [], stampCap, false, []⟩, 0, ⟨7, 5, ⟨9, 0, 0, .gap⟩, 0, 4999999999000, 0, 0⟩,
     moor (ptpLive 4) 0
     { kind := 2, port := 1, live := true, par := { peerId := 5 }, up := { pairs := [⟨7, 5, ⟨9, 0, 0, .gap⟩, 0, 4999999999000, 0, 0⟩] } },
     by unfold State.comesFrom State.hearsPtp; decide +kernel⟩⟩

theorem witness_PtpDelayReceived :
    (∃ (n : Fin 8) (f : PtpFrame) (k : ℕ) (s : State), s.hearsPtp (↑n) f ∧ f.msg.kind = PtpKind.delayReq ∧
      (s.role ↑n = 1 ∨ s.role ↑n = 4) ∧ s.on (TSC.STATUS_SET (s.prtTsc ↑n)) = true ∧ s.comesFrom (↑n) 1 f k ∧
      s.serves ↑n = true ∧ (s.profile ↑n ≠ 2 ∨ (s.berthC k).gResp.isSome = true) ∧ s.mayQueue (↑n) (s.berthC k).par.auth) ∧
    (∃ (n : Fin 8) (f : PtpFrame) (k : ℕ) (t3 : Stamp) (s : State), (s.hearsPtp (↑n) f ∧ f.msg.kind = PtpKind.delayResp ∧
      s.listens ↑n = true ∧ s.comesFrom (↑n) 2 f k ∧ (s.berthC k).up.dreq = some (f.msg.seq.toNat, some t3) ∧
      f.msg.reqId.toNat = s.portId ↑n) ∧ (∃ (x : ℤ × ℤ × Tag),
      List.find? (fun x => decide (x.1 < roundOpen 39 t3.val 65536)) (s.berthC k).up.mss = some x)) ∧
    (∃ (n : Fin 8) (f : PtpFrame) (k : ℕ) (s : State), s.hearsPtp (↑n) f ∧ f.msg.kind = PtpKind.delayResp ∧
      s.listens ↑n = true ∧ s.comesFrom (↑n) 2 f k ∧ (∀ (t3 : Stamp), (s.berthC k).up.dreq = some (f.msg.seq.toNat,
      some t3) → f.msg.reqId.toNat ≠ s.portId ↑n)) :=
  ⟨⟨1, ⟨ptpIn .delayReq, [], stampCap, false, []⟩, 0,
    moor (ptpLive 1) 0 { kind := 1, port := 1, live := true, tenant := 3, par := { peerId := 5, mac := 2 } },
    by unfold State.mayQueue State.comesFrom State.hearsPtp; decide +kernel⟩,
   ⟨1, ⟨{ ptpIn .delayResp with reqId := 5 * 65536 + 2 }, [], stampCap, false, []⟩, 0, ⟨9, 0, 0, .valid⟩,
     moor (ptpLive 2) 0
     { kind := 2, port := 1, live := true, par := { peerId := 5 }, up := { dreq := some (7, some ⟨9, 0, 0, .valid⟩), mss := [(0, 7, .valid)] } },
     by unfold State.comesFrom State.hearsPtp; decide +kernel, ⟨(0, 7, .valid), by decide +kernel⟩⟩,
   ⟨1, ⟨{ ptpIn .delayResp with reqId := 5 * 65536 + 3 }, [], stampCap, false, []⟩, 0,
     moor (ptpLive 2) 0 { kind := 2, port := 1, live := true, par := { peerId := 5 } },
     by unfold State.hearsPtp; decide +kernel, by decide +kernel, by decide +kernel, by unfold State.comesFrom; decide +kernel,
     fun _ _ => by decide +kernel⟩⟩

theorem witness_PtpAnnounceAndSignaling :
    (∃ (n : Fin 8) (f : PtpFrame) (k : ℕ) (s : State), s.hearsPtp (↑n) f ∧ f.msg.kind = PtpKind.announce ∧
      (s.listens ↑n = true ∨ s.role ↑n = 3) ∧ s.comesFrom (↑n) 2 f k) ∧
    (∃ (n : Fin 8) (f : PtpFrame) (k : ℕ) (q : SigTlv) (s : State), s.hearsPtp (↑n) f ∧ f.msg.kind = PtpKind.signaling ∧
      s.profile ↑n = 2 ∧ (s.role ↑n = 1 ∨ s.role ↑n = 4) ∧ s.on (TSC.STATUS_SET (s.prtTsc ↑n)) = true ∧ s.serves ↑n = true ∧
      s.comesFrom (↑n) 1 f k ∧ f.msg.tlvs = [q] ∧ f.toHost = [] ∧ s.mayLeave (↑n) (s.berthC k).par.auth ∧ q.op = SigOp.request ∧
      (s.berthC k).par.logOf q.kind ≤ q.logPer ∧ ratePermitted q.kind q.logPer = true ∧ 60 ≤ q.dur ∧ q.dur ≤ 1000) ∧
    (∃ (n : Fin 8) (f : PtpFrame) (k : ℕ) (q : SigTlv) (s : State), s.hearsPtp (↑n) f ∧ f.msg.kind = PtpKind.signaling ∧
      s.profile ↑n = 2 ∧ (s.role ↑n = 1 ∨ s.role ↑n = 4) ∧ s.on (TSC.STATUS_SET (s.prtTsc ↑n)) = true ∧ s.serves ↑n = true ∧
      s.comesFrom (↑n) 1 f k ∧ f.msg.tlvs = [q] ∧ f.toHost = [] ∧ s.mayLeave (↑n) (s.berthC k).par.auth ∧ q.op = SigOp.request ∧
      (q.logPer < (s.berthC k).par.logOf q.kind ∨ ratePermitted q.kind q.logPer = false ∨ q.dur < 60 ∨ 1000 < q.dur)) ∧
    (∃ (n : Fin 8) (f : PtpFrame) (k : ℕ) (q : SigTlv) (s : State), s.hearsPtp (↑n) f ∧ f.msg.kind = PtpKind.signaling ∧
      s.profile ↑n = 2 ∧ (s.role ↑n = 1 ∨ s.role ↑n = 4) ∧ s.on (TSC.STATUS_SET (s.prtTsc ↑n)) = true ∧ s.serves ↑n = true ∧
      s.comesFrom (↑n) 1 f k ∧ f.msg.tlvs = [q] ∧ f.toHost = [] ∧ s.mayLeave (↑n) (s.berthC k).par.auth ∧ q.op = SigOp.cancel) ∧
    (∃ (n : Fin 8) (f : PtpFrame) (k : ℕ) (q : SigTlv) (s : State), s.hearsPtp (↑n) f ∧ f.msg.kind = PtpKind.signaling ∧
      s.profile ↑n = 2 ∧ s.listens ↑n = true ∧ s.sender (↑n) 1 f.msg = none ∧ s.comesFrom (↑n) 2 f k ∧ f.msg.tlvs = [q] ∧
      f.toHost = [] ∧ q.op = SigOp.grant ∧ q.dur ≠ 0 ∧ ratePermitted q.kind q.logPer = true) ∧
    (∃ (n : Fin 8) (f : PtpFrame) (k : ℕ) (q : SigTlv) (s : State), s.hearsPtp (↑n) f ∧ f.msg.kind = PtpKind.signaling ∧
      s.profile ↑n = 2 ∧ s.listens ↑n = true ∧ s.sender (↑n) 1 f.msg = none ∧ s.comesFrom (↑n) 2 f k ∧ f.msg.tlvs = [q] ∧
      f.toHost = [] ∧ q.op = SigOp.grant ∧ q.dur = 0 ∧ q.kind ∉ (s.berthC k).up.denied) :=
  ⟨⟨1, ⟨ptpIn .announce, [], stampCap, false, []⟩, 0,
    moor (ptpLive 2) 0 { kind := 2, port := 1, live := true, par := { peerId := 5 } },
    by unfold State.comesFrom State.hearsPtp; decide +kernel⟩,
   ⟨1, ⟨{ ptpIn .signaling with tlvs := [⟨.request, .sync, (-4), 60⟩] }, [], stampCap, false, []⟩, 0, ⟨.request, .sync, (-4),
     60⟩, put (moor (ptpLive 1) 0 { kind := 1, port := 1, live := true, tenant := 3, par := { peerId := 5, mac := 2 } })
     [(PTE.CTRL_PROFILE 1, 2)], by unfold State.mayLeave State.comesFrom State.hearsPtp; decide +kernel⟩,
   ⟨1, ⟨{ ptpIn .signaling with tlvs := [⟨.request, .sync, (-5), 60⟩] }, [], stampCap, false, []⟩, 0, ⟨.request, .sync, (-5),
     60⟩, put (moor (ptpLive 1) 0 { kind := 1, port := 1, live := true, tenant := 3, par := { peerId := 5, mac := 2 } })
     [(PTE.CTRL_PROFILE 1, 2)], by unfold State.mayLeave State.comesFrom State.hearsPtp; decide +kernel⟩,
   ⟨1, ⟨{ ptpIn .signaling with tlvs := [⟨.cancel, .sync, 0, 60⟩] }, [], stampCap, false, []⟩, 0, ⟨.cancel, .sync, 0, 60⟩,
     put (moor (ptpLive 1) 0
     { kind := 1, port := 1, live := true, tenant := 3, par := { peerId := 5, mac := 2 }, gSync := some ⟨0, 300, 0, 0⟩ })
     [(PTE.CTRL_PROFILE 1, 2)], by unfold State.mayLeave State.comesFrom State.hearsPtp; decide +kernel⟩,
   ⟨1, ⟨{ ptpIn .signaling with tlvs := [⟨.grant, .sync, (-4), 60⟩] }, [], stampCap, false, []⟩, 0, ⟨.grant, .sync, (-4), 60⟩,
     put (moor (ptpLive 2) 0
     { kind := 2, port := 1, live := true, par := { peerId := 5 }, up := { askSync := some 5, denied := [.announce, .sync] } })
     [(PTE.CTRL_PROFILE 1, 2)], by unfold State.comesFrom State.hearsPtp; decide +kernel⟩,
   ⟨1, ⟨{ ptpIn .signaling with tlvs := [⟨.grant, .sync, (-4), 0⟩] }, [], stampCap, false, []⟩, 0, ⟨.grant, .sync, (-4), 0⟩,
     put (moor (ptpLive 2) 0 { kind := 2, port := 1, live := true, par := { peerId := 5 }, up := { askSync := some 5 } })
     [(PTE.CTRL_PROFILE 1, 2)], by unfold State.comesFrom State.hearsPtp; decide +kernel⟩⟩

theorem witness_PtpTransmitAndTimers :
    (∃ (n : Fin 8) (s : State), s.txDue (↑n) none GrantKind.sync = true ∧ s.mayQueue (↑n) (s.mcAuth ↑n)) ∧
    (∃ (n : Fin 8) (k : Fin 8192) (s : State), s.txDue (↑n) (some ↑k) GrantKind.sync = true ∧
      s.mayQueue (↑n) (s.berthC ↑k).par.auth) ∧
    (∃ (n : Fin 8) (s : State), s.txDue (↑n) none GrantKind.announce = true ∧ s.mayLeave (↑n) (s.mcAuth ↑n)) ∧
    (∃ (n : Fin 8) (k : Fin 8192) (s : State), s.txDue (↑n) (some ↑k) GrantKind.announce = true ∧
      s.mayLeave (↑n) (s.berthC ↑k).par.auth) ∧
    (∃ (k : Fin 8192) (s : State), s.upLive ↑k = true ∧ (s.profile (s.berthC ↑k).port ≠ 2 ∨ (s.berthC ↑k).gResp.isSome = true) ∧
      s.mayQueue (s.berthC ↑k).port (s.reqTo (s.berthC ↑k)).2.2) ∧
    (∃ (k : Fin 8192) (s : State), (s.berthC ↑k).port < 8 ∧ (∃ p ∈ (s.berthC ↑k).up.pairs, p.arrived + s.pairSpan ↑k ≤ s.now)) ∧
    (∃ (k : Fin 8192) (s : State), s.numbered = true ∧ s.inService (↑k) 2 = true ∧ (s.berthC ↑k).up.annLate = false ∧
      (s.berthC ↑k).up.annAt + 3 * intervalT (s.rxLog (s.berthC ↑k) GrantKind.announce) ≤ s.now ∧ (s.berthC ↑k).port < 8) ∧
    (∃ (k : Fin 8192) (q : GrantKind) (g : Grant) (s : State), (s.berthC ↑k).grant q = some g ∧ g.until_ ≤ s.now ∧
      (s.berthC ↑k).kind = 1 ∧ (s.berthC ↑k).port < 8) ∧
    (∃ (k : Fin 8192) (q : GrantKind) (g : Grant) (s : State), (s.berthC ↑k).grant q = some g ∧ s.upLive ↑k = true ∧
      s.profile (s.berthC ↑k).port = 2 ∧ (s.berthC ↑k).up.asked q = none ∧ 3 * g.dur * secT ≤ 4 * (s.now - g.since) ∧
      s.mayLeave (s.berthC ↑k).port (s.berthC ↑k).par.auth) ∧
    (∃ (k : Fin 8192) (q : GrantKind) (a : ℕ) (s : State), (s.berthC ↑k).up.asked q = some a ∧ s.upLive ↑k = true ∧
      s.profile (s.berthC ↑k).port = 2 ∧ a + 2 * secT ≤ s.now ∧ s.mayLeave (s.berthC ↑k).port (s.berthC ↑k).par.auth) ∧
    (∃ (k : Fin 8192) (q : GrantKind) (a : ℕ) (s : State), (s.berthC ↑k).up.asked q = some a ∧ s.upLive ↑k = true ∧
      s.profile (s.berthC ↑k).port = 2 ∧ a + secT ≤ s.now ∧ s.now < a + 2 * secT ∧ (s.berthC ↑k).port < 8 ∧
      q ∉ (s.berthC ↑k).up.denied) ∧
    (∃ (k : Fin 8192) (q : GrantKind) (s : State), (s.berthC ↑k).up.asked q = none ∧ (s.berthC ↑k).grant q = none ∧
      s.upLive ↑k = true ∧ s.profile (s.berthC ↑k).port = 2 ∧ s.mayLeave (s.berthC ↑k).port (s.berthC ↑k).par.auth) ∧
    (∃ (k : Fin 8192) (i j : ℕ) (s : State), (s.berthC ↑k).kind = 2 ∧ s.streamOld ↑k = true ∧ s.entriesFrom ↑k = [(i, j)] ∧
      i < 16 ∧ j < 30) ∧
    (∃ (n : Fin 8) (s : State), (s.prtLive ↑n = true ∧ s.on (PTE.TS_CTRL_EN ↑n) = true ∧
      (s.pteC ↑n).perAt + s.f (PTE.TS_CTRL_PERIOD ↑n) * secT ≤ s.now ∧ s.bestBerth ↑n = none) ∧ (∃ (k : ℕ),
      (s.berthC k).kind = 2 ∧ (s.berthC k).port = ↑n)) ∧
    (∃ (n : Fin 8) (j : ℕ) (s : State), s.prtLive ↑n = true ∧ s.on (PTE.TS_CTRL_EN ↑n) = true ∧
      (s.pteC ↑n).perAt + s.f (PTE.TS_CTRL_PERIOD ↑n) * secT ≤ s.now ∧ s.bestBerth ↑n = some j ∧
      (s.disagreeing (s.prtTsc ↑n)).contains j = false ∧ (s.f XLK.STATUS_ROLE ≠ 2 ∨ s.replicated (s.prtTsc ↑n) = false) ∧
      (s.berthC j).up.demoted = false ∧ s.on (TSC.STATUS_SET (s.prtTsc ↑n)) = true ∧ 4 ≤ (s.berthC j).up.perN ∧
      s.guarded (s.prtTsc ↑n) ((s.tscC (s.prtTsc ↑n)).val + ((s.tscC (s.prtTsc ↑n)).rem - roundOpen 41 ((s.berthC j).up.perSum *
      65536) (s.berthC j).up.perN * 2 ^ 24)) = false ∧
      ((s.tscC (s.prtTsc ↑n)).rem - roundOpen 41 ((s.berthC j).up.perSum * 65536) (s.berthC j).up.perN * 2 ^ 24).natAbs ≤
      s.limit (s.prtTsc ↑n) * 2 ^ 24) ∧
    (∃ (n : Fin 8) (j : ℕ) (s : State), s.prtLive ↑n = true ∧ s.on (PTE.TS_CTRL_EN ↑n) = true ∧
      (s.pteC ↑n).perAt + s.f (PTE.TS_CTRL_PERIOD ↑n) * secT ≤ s.now ∧ s.bestBerth ↑n = some j ∧
      (s.disagreeing (s.prtTsc ↑n)).contains j = false ∧ (s.f XLK.STATUS_ROLE ≠ 2 ∨ s.replicated (s.prtTsc ↑n) = false) ∧
      (s.berthC j).up.demoted = false ∧ s.on (TSC.STATUS_SET (s.prtTsc ↑n)) = true ∧ (s.berthC j).up.perN < 4) ∧
    (∃ (n : Fin 8) (j : ℕ) (o : ℤ) (s : State), s.prtLive ↑n = true ∧ s.on (PTE.TS_CTRL_EN ↑n) = true ∧
      (s.pteC ↑n).perAt + s.f (PTE.TS_CTRL_PERIOD ↑n) * secT ≤ s.now ∧ s.bestBerth ↑n = some j ∧
      (s.disagreeing (s.prtTsc ↑n)).contains j = false ∧ (s.f XLK.STATUS_ROLE ≠ 2 ∨ s.replicated (s.prtTsc ↑n) = false) ∧
      (s.berthC j).up.demoted = false ∧ s.on (TSC.STATUS_SET (s.prtTsc ↑n)) = false ∧ (s.berthC j).up.learnt = true ∧
      (s.berthC j).up.validOff = some o ∧ ↑(s.tscC (s.prtTsc ↑n)).floor * (1000000000 * 2 ^ 56) ≤ (s.tscC (s.prtTsc ↑n)).val - o
      * 65536 * 2 ^ 24 ∧ s.guarded (s.prtTsc ↑n) ((s.tscC (s.prtTsc ↑n)).val - o * 65536 * 2 ^ 24) = false) ∧
    (∃ (n : Fin 8) (s : State), (s.prtLive ↑n = true) ∧ (∃ (k : ℕ), (s.berthC k).kind = 2 ∧ (s.berthC k).port = ↑n)) ∧
    (∃ (n : Fin 8) (k : ℕ) (s : State), s.prtLive ↑n = true ∧ s.slotsOn (↑n) 2 = [k]) ∧
    (∃ (n : Fin 8) (k : ℕ) (m m0 c0 : ℤ) (s : State), s.numbered = true ∧ s.prtLive ↑n = true ∧ s.slotsOn (↑n) 2 = [k] ∧
      s.corrOn ↑n = true ∧ s.corrIdle ↑n = false ∧ (s.berthC k).up.learnt = true ∧ (s.berthC k).up.demoted = false ∧
      (s.berthC k).up.secN ≠ 0 ∧ (s.berthC k).up.mean = some m ∧ (s.berthC k).up.winMean = some (m0, c0) ∧
      s.w (PTE.CORR_DRIFT ↑n) * 2 ^ 56 < (m - m0 - ((s.pteC ↑n).corrInt - c0)).natAbs) ∧
    (∃ (n : Fin 8) (k : ℕ) (s : State), s.numbered = true ∧ s.prtLive ↑n = true ∧ s.slotsOn (↑n) 2 = [k] ∧ s.corrOn ↑n = true ∧
      s.corrIdle ↑n = true ∧ (s.berthC k).up.demoted = false ∧ s.crossTested k = true ∧ s.crossFails (↑n) k = true ∧
      2 ≤ (s.berthC k).up.crossFails) ∧
    (∃ (k : Fin 8192) (s : State), s.numbered = true ∧ (s.berthC ↑k).kind = 2 ∧ (s.berthC ↑k).up.demoted = true ∧
      (s.berthC ↑k).up.readmitAt ≤ s.now ∧ (s.berthC ↑k).port < 8) ∧
    (∃ (k : Fin 8192) (r : ℤ × ℤ × AsymEntry) (s : State), (s.berthC ↑k).up.ramp = some r ∧ (s.berthC ↑k).port < 8 ∧
      (r.2.1 + ↑(r.2.2.ramp * 1000000000 * 65536)) * 2 ^ 40 ≤ (s.tscC (s.prtTsc (s.berthC ↑k).port)).val) :=
  ⟨⟨1, ptpLive 1, by unfold State.mayQueue; decide +kernel⟩,
   ⟨1, 8191, put (moor (ptpLive 1) 8191
     { kind := 1, port := 1, live := true, tenant := 3, par := { peerId := 5, ip := 5, ipKind := 1 }, gSync := some ⟨0, 300, 0, 9⟩ })
     [(PTE.CTRL_PROFILE 1, 2), (PTE.CTRL_TRANSPORT 1, 1)], by unfold State.mayQueue; decide +kernel⟩,
   ⟨1, ptpLive 4, by unfold State.mayLeave; decide +kernel⟩,
   ⟨1, 0, put (moor (ptpLive 1) 0
     { kind := 1, port := 1, live := true, tenant := 3, par := { peerId := 5, ip := 5, ipKind := 1 }, gAnn := some ⟨0, 300, 0, 9⟩ })
     [(PTE.CTRL_PROFILE 1, 2), (PTE.CTRL_TRANSPORT 1, 1)], by unfold State.mayLeave; decide +kernel⟩,
   ⟨8191, moor (ptpLive 2) 8191 { kind := 2, port := 1, live := true, par := { peerId := 5 } },
     by unfold State.mayQueue; decide +kernel⟩,
   ⟨0, moor (ptpLive 2) 0 { kind := 2, port := 1, live := true, up := { pairs := [⟨7, 5, ⟨9, 0, 0, .valid⟩, 0, 0, 0, 0⟩] } },
     by decide +kernel⟩,
   ⟨8191, moor (ptpLive 2) 8191 { kind := 2, port := 1, live := true, par := { peerId := 5 } }, by decide +kernel⟩,
   ⟨0, .sync, ⟨0, 300, 0, 5⟩, moor (ptpLive 1) 0 { kind := 1, port := 1, live := true, gSync := some ⟨0, 300, 0, 5⟩ },
     by decide +kernel⟩,
   ⟨0, .sync, ⟨0, 300, 0, 5⟩, put (moor (ptpLive 2) 0
     { kind := 2, port := 1, live := true, par := { peerId := 5, ip := 5, ipKind := 1 }, gSync := some ⟨0, 300, 0, 5⟩ })
     [(PTE.CTRL_PROFILE 1, 2), (PTE.CTRL_TRANSPORT 1, 1)], by unfold State.mayLeave; decide +kernel⟩,
   ⟨8191, .announce, 0, put (moor (ptpLive 2) 8191
     { kind := 2, port := 1, live := true, par := { peerId := 5, ip := 5, ipKind := 1 }, up := { askAnn := some 0 } })
     [(PTE.CTRL_PROFILE 1, 2), (PTE.CTRL_TRANSPORT 1, 1)], by unfold State.mayLeave; decide +kernel⟩,
   ⟨8191, .announce, 0, put
     { moor (ptpLive 2) 8191 { kind := 2, port := 1, live := true, par := { peerId := 5, ip := 5, ipKind := 1 }, up := { askAnn := some 0 } } with now := 3000000000 }
     [(PTE.CTRL_PROFILE 1, 2), (PTE.CTRL_TRANSPORT 1, 1)], by decide +kernel⟩,
   ⟨8191, .announce, put (moor (ptpLive 2) 8191
     { kind := 2, port := 1, live := true, par := { peerId := 5, ip := 5, ipKind := 1 } }) [(PTE.CTRL_PROFILE 1, 2),
     (PTE.CTRL_TRANSPORT 1, 1)], by unfold State.mayLeave; decide +kernel⟩,
   ⟨0, 15, 2, put (moor (moor (ptpLive 2) 0 { kind := 2, port := 1, live := true, par := { peerId := 5 } }) 1
     { kind := 4, port := 1, live := true, att := some (15, 2, 0x20000000) }) [(SEL.CFG_NCAND 15, 3), (SEL.CAND_CFG_WHO 15 2,
     0x80)], by decide +kernel⟩,
   ⟨1, put (moor (ptpLive 2) 0 { kind := 2, port := 1, live := true, up := { perSum := 5, perN := 1 } }) [(PTE.TS_CTRL_EN 1,
     1)], by decide +kernel, ⟨0, by decide +kernel⟩⟩,
   ⟨1, 0, put (setws (moor (ptpLive 2) 0 { kind := 2, port := 1, live := true, up := { perSum := 40, perN := 4 } }) [(PTE.BEST
     1, 0x20000000)]) [(PTE.TS_CTRL_EN 1, 1)], by decide +kernel⟩,
   ⟨1, 0, put (setws (moor (ptpLive 2) 0 { kind := 2, port := 1, live := true, up := { perSum := 40, perN := 3 } }) [(PTE.BEST
     1, 0x20000000)]) [(PTE.TS_CTRL_EN 1, 1)], by decide +kernel⟩,
   ⟨1, 0, 5, (put (setws (moor (ptpLive 2) 0
     { kind := 2, port := 1, live := true, up := { learnt := true, validOff := some 5 } }) [(PTE.BEST 1,
     0x20000000)]) [(PTE.TS_CTRL_EN 1, 1), (TSC.STATUS_SET 0, 0)]).modTsc 0 (fun c => { c with sec := 100 }),
     by decide +kernel⟩,
   ⟨1, moor (ptpLive 2) 0 { kind := 2, port := 1, live := true, up := { secSum := 5, secN := 1 } }, by decide +kernel, ⟨0,
     by decide +kernel⟩⟩,
   ⟨1, 0, moor (ptpLive 2) 0 { kind := 2, port := 1, live := true, up := { secSum := 5, secN := 1 } }, by decide +kernel⟩,
   ⟨1, 0, 2 ^ 100, 0, 0, put (moor (ptpLive 2) 0
     { kind := 2, port := 1, live := true, up := { learnt := true, secSum := 2 ^ 100, secN := 1, winMean := some (0, 0) } })
     [(PTE.CORR_CTRL_LOOP 1, 31), (LOOP.STATUS_STATE 31, 1)], by decide +kernel⟩,
   ⟨1, 0, moor (moor (moor (put (ptpLive 2) [(PTE.CORR_CTRL_LOOP 1, 63), (PRT.CFG_TSC 2, 0), (PTE.CTRL_ROLE 2,
     2)]) 0
     { kind := 2, port := 1, live := true, up := { ann := some ⟨9, 1, 6, 0x20, 3, 4, 5, 6, 37, true, true, true⟩, annCurrent := true, secSum := 2 ^ 100, secN := 1, crossFails := 2 } })
     1 { kind := 2, port := 2, live := true, up := { ann := some ⟨9, 1, 6, 0x20, 3, 4, 5, 6, 37, true, true, true⟩, annCurrent := true, secSum := 0, secN := 1, crossFails := 2 } })
     2 { kind := 2, port := 2, live := true, up := { ann := some ⟨9, 1, 6, 0x20, 3, 4, 5, 6, 37, true, true, true⟩, annCurrent := true, secSum := 0, secN := 1, crossFails := 2 } },
     by decide +kernel⟩,
   ⟨8191, moor (ptpLive 2) 8191 { kind := 2, port := 1, live := true, up := { demoted := true, learnt := true } },
     by decide +kernel⟩,
   ⟨8191, (5, 7, ⟨9, 11, 13⟩), (moor (ptpLive 2) 8191
     { kind := 2, port := 1, live := true, up := { ramp := some (5, 7, ⟨9, 11, 13⟩) } }).modTsc 0 (fun c =>
     { c with sec := 100 }), by decide +kernel⟩⟩

theorem witness_PtpCommands :
    (∃ (p : Port) (n : Fin 8) (s : State), (s.takes p (PTE.CMD ↑n) false) ∧ (∃ (r : List Word) (rs : List (List Word)),
      (s.pteC ↑n).admQ = r :: rs ∧ r.length ≤ 64)) ∧
    (∃ (p : Port) (n : Fin 8) (s : State), s.takes p (PTE.CMD ↑n) false ∧ (s.pteC ↑n).admQ = []) ∧
    (∃ (p : Port) (n : Fin 8) (k : ℕ) (d : Dataset) (s : State), s.takes p (PTE.CMD ↑n) false ∧ s.cmdHandle ↑n = (Code.ok, k) ∧
      (s.berthC k).up.ann = some d ∧ List.take (s.berthC k).par.dlyAvg (s.berthC k).up.mpds ≠ []) ∧
    (∃ (p : Port) (n : Fin 8) (k : ℕ) (s : State), s.numbered = true ∧ s.takes p (PTE.CMD ↑n) false ∧ s.cmdHandle ↑n = (Code.ok,
      k) ∧ (s.berthC k).up.demoted = true) ∧
    (∃ (p : Port) (n : Fin 8) (k : ℕ) (ws : List Word) (s : State), s.takes p (PTE.CMD ↑n) false ∧ s.cmdHandle ↑n = (Code.ok,
      k) ∧ s.mboxIn p 4 = some ws ∧ (∀ (l : AsymEntry),
      (s.berthC k).up.sched.getLast? = some l → l.sec < ofWords (List.take 2 ws)) ∧
      (s.tscC (s.prtTsc ↑n)).val ≤ ((ofWords (List.take 2 ws) * 1000000000 * 2 ^ 56 : Nat) : Int) ∧
      BitVec.toNat (ws.getD 3 0) ≤ 86400 ∧ ((s.berthC k).par.asym + toSigned 32 (BitVec.toNat (ws.getD 2 0))).natAbs ≤
      10000000000 ∧ (s.berthC k).up.sched.length < 32 ∧
      (toSigned 32 (BitVec.toNat (ws.getD 2 0)) - (s.berthC k).up.lastTarget).natAbs ≤ (s.tscC (s.prtTsc ↑n)).thresh * 1000) ∧
    (∃ (p : Port) (n : Fin 8) (k : ℕ) (s : State), s.takes p (PTE.CMD ↑n) false ∧ s.cmdHandle ↑n = (Code.ok, k)) :=
  ⟨⟨.a, 7, live.modPte 7 (fun c => { c with admQ := [[1, 2], [3]] }), by unfold State.takes; decide +kernel, ⟨[1, 2], [[3]],
    by decide +kernel⟩⟩,
   ⟨.a, 7, live, by unfold State.takes; decide +kernel⟩,
   ⟨.b, 1, 0, ⟨5, 1, 6, 0x20, 3, 4, 5, 6, 37, true, true, true⟩, moor (setws live [(PTE.CMD_HANDLE 1,
     0x20000000)]) 0
     { kind := 2, port := 1, live := true, up := { ann := some ⟨5, 1, 6, 0x20, 3, 4, 5, 6, 37, true, true, true⟩, mpds := [5] } },
     by unfold State.takes; decide +kernel⟩,
   ⟨.a, 1, 0, moor (setws live [(PTE.CMD_HANDLE 1,
     0x20000000)]) 0 { kind := 2, port := 1, live := true, up := { demoted := true, learnt := true } },
     by unfold State.takes; decide +kernel⟩,
   ⟨.a, 1, 0, [100, 0, 1000000, 86400], fill (moor (setws live [(PTE.CMD_HANDLE 1,
     0x20000000)]) 0 { kind := 2, port := 1, live := true, up := { sched := [⟨99, 5, 0⟩] } }) .a [100, 0, 1000000, 86400],
     by unfold State.takes; decide +kernel⟩,
   ⟨.a, 1, 0, moor (setws live [(PTE.CMD_HANDLE 1,
     0x20000000)]) 0 { kind := 2, port := 1, live := true, up := { sched := [⟨99, 5, 0⟩] } },
     by unfold State.takes; decide +kernel⟩⟩

theorem witness_LinkFramesReceived :
    (∃ (lane : Fin 2) (f : XlkFrame) (s : State), s.hearsLink (↑lane) f 1 ∧ s.numbered = true ∧ s.inSwitch = false ∧
      s.xlk.negVer ≠ some (beAt (linkBody f) 0 1)) ∧
    (∃ (lane : Fin 2) (f : XlkFrame) (s : State), s.hearsLink (↑lane) f 2 ∧ s.numbered = true ∧ s.f XLK.STATUS_VER ≠ 0 ∧
      s.f XLK.STATUS_PAIR ≠ 2 ∧ (bitAt (beAt f.bytes 10 1) 2 = true ∨ bitAt (beAt f.bytes 10 1) 3 = true)) ∧
    (∃ (lane : Fin 2) (f : XlkFrame) (k : ℕ) (s : State), s.hearsLink (↑lane) f 3 ∧ beAt (linkBody f) 0 1 = 1 ∧
      beAt (linkBody f) 4 1 = k ∧ k ∈ (s.headed (↑lane) f).replicas) ∧
    (∃ (lane : Fin 2) (f : XlkFrame) (s : State), s.hearsLink (↑lane) f 4) ∧
    (∃ (lane : Fin 2) (f : XlkFrame) (s : State), (s.hearsLink (↑lane) f 5 ∧ s.numbered = true) ∧ (∃ (e : List Byte),
      bodyEntries (linkBody f) 16 = [e] ∧ s.f XLK.STATUS_ROLE = 2 ∧ s.f XLK.STATUS_VER = 3 ∧ beAt e 0 1 ∈ s.replicas ∧
      (bitAt (beAt e 1 1) 3 = false ∨ bitAt (beAt e 1 1) 4 = false))) ∧
    (∃ (lane : Fin 2) (f : XlkFrame) (e : List Byte) (s : State), s.hearsLink (↑lane) f 6 ∧ s.numbered = true ∧
      s.on XLK.CFG_BERTH_REP = true ∧ 2 ≤ s.f XLK.STATUS_VER ∧ s.f XLK.STATUS_ROLE = 2 ∧ bodyEntries (linkBody f) 32 = [e] ∧
      (s.berthC (beAt e 0 2)).kind = beAt e 2 1 ∧ (s.berthC (beAt e 0 2)).port = beAt e 3 1 ∧ beAt e 2 1 ≠ 0 ∧
      (s.berthC (beAt e 0 2)).par.peerId = beAt e 4 10) ∧
    (∃ (lane : Fin 2) (f : XlkFrame) (s : State), s.hearsLink (↑lane) f 7 ∧ beAt (linkBody f) 0 1 = 1 ∧
      (s.headed (↑lane) f).switchReason = 0) ∧
    (∃ (lane : Fin 2) (f : XlkFrame) (s : State), s.hearsLink (↑lane) f 7 ∧ beAt (linkBody f) 0 1 = 1 ∧
      (s.headed (↑lane) f).switchReason ≠ 0) ∧
    (∃ (lane : Fin 2) (f : XlkFrame) (j : SwitchJob) (s : State), s.hearsLink (↑lane) f 7 ∧ s.numbered = true ∧
      beAt (linkBody f) 0 1 = 2 ∧ s.xlk.switching = some j ∧ j.token = beAt (linkBody f) 2 2 ∧ j.activate = false ∧ (∀ (pv : ℕ),
      s.xlk.helloVer = some pv → max s.xlkVer pv - min s.xlkVer pv ≤ 1)) ∧
    (∃ (lane : Fin 2) (f : XlkFrame) (j : SwitchJob) (s : State), s.hearsLink (↑lane) f 7 ∧ s.numbered = true ∧
      beAt (linkBody f) 0 1 = 3 ∧ s.xlk.switching = some j ∧ j.token = beAt (linkBody f) 2 2 ∧ j.activate = false) ∧
    (∃ (lane : Fin 2) (f : XlkFrame) (s : State), s.hearsLink (↑lane) f 7 ∧ s.numbered = true ∧ beAt (linkBody f) 0 1 = 4 ∧
      s.xlk.accepted = some (beAt (linkBody f) 2 2) ∧ s.f XLK.STATUS_ROLE = 2 ∧ (∀ (pv : ℕ),
      s.xlk.helloVer = some pv → max s.xlkVer pv - min s.xlkVer pv ≤ 1)) ∧
    (∃ (lane : Fin 2) (f : XlkFrame) (s : State), s.hearsLink (↑lane) f 8 ∧ s.numbered = true ∧ s.f XLK.STATUS_PAIR = 2 ∧
      s.f XLK.STATUS_VER = 3 ∧ s.f XLK.STATUS_ROLE = 2) ∧
    (∃ (lane : Fin 2) (s : State), s.xlkLive = true ∧ s.laneUp ↑lane = true) :=
  ⟨⟨1, linkIn 1 (3 :: List.replicate 19 0), crossing, by unfold State.hearsLink; decide +kernel⟩,
   ⟨1, ⟨(let x := { put crossing [(XLK.CFG_CARD, 1)] with xlk := { crossing.xlk with heard0 := true } }; x.xlkFrame 2 []),
     stampCap, false⟩, crossing, by unfold State.hearsLink; decide +kernel⟩,
   ⟨1, linkIn 3 ([1, 0, 0, 0, 7, 0, 0, 0] ++ beBytes 8 9 ++ List.replicate 40 0), 7, put crossing [(XLK.CFG_TSMASK, 128)],
     by unfold State.hearsLink; decide +kernel⟩,
   ⟨0, linkIn 4 ([2, 0, 0, 0] ++ List.replicate 32 5), crossing, by unfold State.hearsLink; decide +kernel⟩,
   ⟨0, linkIn 5 ([1, 0, 0, 0] ++ ([7, 3] ++ List.replicate 14 0)), put crossing [(XLK.CFG_TSMASK, 128), (XLK.STATUS_ROLE, 2)],
     by unfold State.hearsLink; decide +kernel, ⟨([7, 3] ++ List.replicate 14 0), by decide +kernel⟩⟩,
   ⟨1, linkIn 6 ([1, 0, 0, 0] ++ ([0, 9, 1, 1] ++ beBytes 10 5 ++ beBytes 2 77 ++ beBytes 2 78 ++ beBytes 2 79 ++ List.replicate
     6 0 ++ [1] ++ List.replicate 5 0)), ([0, 9, 1,
     1] ++ beBytes 10 5 ++ beBytes 2 77 ++ beBytes 2 78 ++ beBytes 2 79 ++ List.replicate 6 0 ++ [1] ++ List.replicate 5 0),
     put (moor crossing 9 { kind := 1, port := 1, par := { peerId := 5 } }) [(XLK.CFG_BERTH_REP, 1), (XLK.STATUS_ROLE, 2)],
     by unfold State.hearsLink; decide +kernel⟩,
   ⟨0, linkIn 7 (switchBody 1 0 0x1234), put crossing [(XLK.STATUS_ROLE, 2), (XLK.CFG_FOLLOW, 0)],
     by unfold State.hearsLink; decide +kernel⟩,
   ⟨0, linkIn 7 (switchBody 1 0 0x1234), crossing, by unfold State.hearsLink; decide +kernel⟩,
   ⟨0, linkIn 7 (switchBody 2 0 0x1234), ⟨0x1234, .a, false⟩,
     { put crossing [(XLK.STATUS_ROLE, 1)] with xlk := { switching := some ⟨0x1234, .a, false⟩ } },
     by unfold State.hearsLink; decide +kernel⟩,
   ⟨1, linkIn 7 (switchBody 3 1 0x1234), ⟨0x1234, .b, false⟩,
     { put crossing [(XLK.STATUS_ROLE, 1)] with xlk := { switching := some ⟨0x1234, .b, false⟩ } },
     by unfold State.hearsLink; decide +kernel⟩,
   ⟨1, linkIn 7 (switchBody 4 0 0x1234), { put crossing [(XLK.STATUS_ROLE, 2)] with xlk := { accepted := some 0x1234 } },
     by unfold State.hearsLink; decide +kernel⟩,
   ⟨1, linkIn 8 [0, 0, 0, 0], put crossing [(XLK.STATUS_ROLE, 2), (XLK.STATUS_PAIR, 2)],
     by unfold State.hearsLink; decide +kernel⟩,
   ⟨1, crossing, by decide +kernel⟩⟩

theorem witness_LinkSendsTimersCommands :
    (∃ (s : State), s.xlkLive = true) ∧
    (∃ (lane : Fin 2) (s : State), s.xlkLive = true ∧ s.laneUp ↑lane = true ∧ 1 ≤ s.f XLK.STATUS_VER) ∧
    (∃ (s : State), s.carries = true) ∧
    (∃ (slot : Fin 8192) (s : State), s.carries = true ∧ s.on XLK.CFG_BERTH_REP = true ∧ 2 ≤ s.f XLK.STATUS_VER ∧
      ((s.berthC ↑slot).kind = 1 ∨ (s.berthC ↑slot).kind = 2)) ∧
    (∃ (s : State), s.numbered = true ∧ s.xlkLive = true ∧ s.f XLK.STATUS_PAIR = 2 ∧
      s.xlk.hbAt + s.f XLK.CFG2_HB_US * s.f XLK.CFG2_HB_MISS * 2000 ≤ s.now) ∧
    (∃ (s : State), s.numbered = true ∧ s.xlkLive = true ∧ s.f XLK.STATUS_PAIR = 2 ∧
      s.xlk.hbAt + s.f XLK.CFG2_HB_US * s.f XLK.CFG2_HB_MISS * 2000 ≤ s.now ∧ s.f XLK.STATUS_ROLE = 2) ∧
    (∃ (t0 : ℕ) (s : State), s.xlkLive = true ∧ s.f XLK.STATUS_ROLE = 0 ∧ s.xlk.goodSince = some t0 ∧ t0 + 60 * secT ≤ s.now) ∧
    (∃ (j : SwitchJob) (s : State), s.numbered = true ∧ s.xlk.switching = some j ∧ s.xlk.switchAt + 10 * msT ≤ s.now ∧
      j.activate = false) ∧
    (∃ (j : SwitchJob) (s : State), s.numbered = true ∧ s.xlk.switching = some j ∧ s.xlk.switchAt + 10 * msT ≤ s.now ∧
      j.activate = true) ∧
    (∃ (lane : Fin 2) (s : State), s.xlkLive = true ∧ s.laneUp ↑lane = false) ∧
    (∃ (s : State), s.top.landedOnce = true ∧ s.landed = false) ∧
    (∃ (lane : Fin 2) (s : State), s.numbered = true ∧ s.laneUp ↑lane = true) ∧
    (∃ (s : State), s.xlkLive = true ∧ s.xlk.presentAt + s.f XLK.CTRL_TS_PERIOD * msT ≤ s.now ∧
      (s.f XLK.STATUS_ROLE ≠ 2 ∨ s.on XLK.CTRL_TS_EN = false)) ∧
    (∃ (s : State), (s.xlkLive = true ∧ s.xlk.presentAt + s.f XLK.CTRL_TS_PERIOD * msT ≤ s.now) ∧ (∃ (k : ℕ) (sum : ℤ) (n : ℕ),
      s.f XLK.STATUS_ROLE = 2 ∧ s.on XLK.CTRL_TS_EN = true ∧ s.replicas = [k] ∧
      List.find? (fun y => y.1 == k) s.xlk.theta = some (k, sum, n) ∧ 0 < n ∧ s.on (TSC.STATUS_SET k) = true ∧
      s.guarded k ((s.tscC k).val + ((s.tscC k).rem - roundOpen 51 sum (2 * n) * 2 ^ 24)) = false ∧
      ((s.tscC k).rem - roundOpen 51 sum (2 * n) * 2 ^ 24).natAbs ≤ s.limit k * 2 ^ 24)) ∧
    (∃ (s : State), (s.xlkLive = true ∧ s.xlk.presentAt + s.f XLK.CTRL_TS_PERIOD * msT ≤ s.now) ∧ (∃ (k : ℕ) (sum : ℤ) (n : ℕ),
      s.f XLK.STATUS_ROLE = 2 ∧ s.on XLK.CTRL_TS_EN = true ∧ s.replicas = [k] ∧
      List.find? (fun y => y.1 == k + 8) s.xlk.theta = some (k + 8, sum, n) ∧ 0 < n ∧ s.on (TSC.STATUS_SET k) = false ∧
      s.guarded k ((s.tscC k).val - roundOpen 51 sum (2 * n) * 2 ^ 24) = false ∧
      ↑(s.tscC k).floor * (1000000000 * 2 ^ 56) ≤ (s.tscC k).val - roundOpen 51 sum (2 * n) * 2 ^ 24)) ∧
    (∃ (p : Port) (s : State), s.takes p XLK.CMD false ∧ s.xlk.switching = none ∧ s.f XLK.STATUS_ROLE = 1 ∧
      s.f XLK.STATUS_ROLE ≠ 2 ∧ s.f XLK.STATUS_PAIR ≠ 2 ∧ s.on XLK.CTRL_ADMIN = true) ∧
    (∃ (p : Port) (s : State), s.takes p XLK.CMD false ∧ s.xlk.switching = none ∧ s.f XLK.STATUS_ROLE ≠ 1 ∧
      s.f XLK.STATUS_ROLE = 2 ∧ s.xlk.loops.flatten.length ≤ 63 ∧ s.f XLK.STATUS_PAIR = 2 ∧ s.xlk.times.flatten.length ≤ 63) ∧
    (∃ (p : Port) (s : State), s.takes p XLK.CMD false ∧ s.on XLK.CTRL_ADMIN = false) ∧
    (∃ (p : Port) (s : State), s.takes p XLK.CMD false ∧ s.xlk.switching.isSome = true) ∧
    (∃ (s : State), s.xlk.loopcal = true) :=
  ⟨⟨crossing, by decide +kernel⟩,
   ⟨1, put crossing [(XLK.CFG_TSMASK, 128)], by decide +kernel⟩,
   ⟨put crossing [(XLK.STATUS_PAIR, 2), (XLK.STATUS_ROLE, 1), (XLK.CFG_TSMASK, 128), (XLK.CFG_FOLLOW, 1)], by decide +kernel⟩,
   ⟨8191, put (moor crossing 8191 { kind := 1, port := 1, live := true, tenant := 3, par := { peerId := 5, mac := 2 } })
     [(XLK.STATUS_PAIR, 2), (XLK.STATUS_ROLE, 1), (XLK.CFG_BERTH_REP, 1)], by decide +kernel⟩,
   ⟨put crossing [(XLK.STATUS_PAIR, 2), (XLK.STATUS_ROLE, 1)], by decide +kernel⟩,
   ⟨put crossing [(XLK.STATUS_PAIR, 2), (XLK.STATUS_ROLE, 2)], by decide +kernel⟩,
   ⟨0, { crossing with xlk := { crossing.xlk with goodSince := some 0 } }, by decide +kernel⟩,
   ⟨⟨5, .a, false⟩, { put crossing [(XLK.STATUS_SWITCHING, 1)] with xlk := { switching := some ⟨5, .a, false⟩ } },
     by decide +kernel⟩,
   ⟨⟨5, .a, true⟩, { put crossing [(XLK.STATUS_SWITCHING, 1)] with xlk := { switching := some ⟨5, .a, true⟩ } },
     by decide +kernel⟩,
   ⟨1, put crossing [(XLK.STATUS_LANE1_UP, 0)], by decide +kernel⟩,
   ⟨put crossing [(FAB.STATE_LOAD, 0)], by decide +kernel⟩,
   ⟨1, crossing, by decide +kernel⟩,
   ⟨crossing, by decide +kernel⟩,
   ⟨(put { crossing with xlk := { crossing.xlk with theta := [(7, 4, 2)] } } [(XLK.STATUS_ROLE, 2), (XLK.CTRL_TS_EN, 1),
     (XLK.CFG_TSMASK, 128), (TSC.STATUS_SET 7, 1)]).modTsc 7 (fun c => { c with thresh := 1000 }), by decide +kernel, ⟨7, 4, 2,
     by decide +kernel⟩⟩,
   ⟨(put { crossing with xlk := { crossing.xlk with theta := [(15, 4, 2)] } } [(XLK.STATUS_ROLE, 2), (XLK.CTRL_TS_EN, 1),
     (XLK.CFG_TSMASK, 128)]).modTsc 7 (fun c => { c with sec := 5 }), by decide +kernel, ⟨7, 4, 2, by decide +kernel⟩⟩,
   ⟨.a, put crossing [(XLK.STATUS_ROLE, 1)], by unfold State.takes; decide +kernel⟩,
   ⟨.b, { put crossing [(XLK.STATUS_ROLE, 2), (XLK.STATUS_PAIR, 2)] with xlk := { loops := [[1, 2]], times := [[3]] } },
     by unfold State.takes; decide +kernel⟩,
   ⟨.b, put crossing [(XLK.CTRL_ADMIN, 0)], by unfold State.takes; decide +kernel⟩,
   ⟨.a, { crossing with xlk := { switching := some { token := 1, port := .a, activate := false } } },
     by unfold State.takes; decide +kernel⟩,
   ⟨{ crossing with xlk := { loopcal := true } }, by decide +kernel⟩⟩

theorem witness_EnclaveOperations :
    (∃ (p : Port) (part : BitVec 3) (s : State), s.takes p SEC.OP false ∧ s.f SEC.OP_STATUS_BUSY = 0 ∧ part.toNat ≤ 3) ∧
    (∃ (p : Port) (part : BitVec 3) (s : State), s.takes p SEC.OP false ∧ s.f SEC.OP_STATUS_BUSY = 0 ∧ 3 < part.toNat) ∧
    (∃ (p : Port) (s : State), (s.takes p SEC.OP false ∧ s.f SEC.OP_STATUS_BUSY = 0) ∧ (∃ (ws : List Word),
      s.mboxIn p 8 = some ws)) ∧
    (∃ (p : Port) (s : State), s.takes p SEC.OP false ∧ s.f SEC.OP_STATUS_BUSY = 0 ∧ s.mboxIn p 8 = none) ∧
    (∃ (o : SecOp) (s : State), s.sec.op = some o ∧ o.opcode = 2 ∧ s.on MAN.STATUS_SIGNING = false) ∧
    (∃ (p : Port) (part : BitVec 3) (s : State), (s.takes p SEC.OP false ∧ s.f SEC.OP_STATUS_BUSY = 0) ∧ (∃ (r : List Byte),
      s.sec.report = some r ∧ part.toNat ≤ 5)) ∧
    (∃ (p : Port) (part : BitVec 3) (s : State), s.takes p SEC.OP false ∧ s.f SEC.OP_STATUS_BUSY = 0 ∧
      (s.sec.report = none ∨ 5 < part.toNat)) ∧
    (∃ (p : Port) (s : State), (s.takes p SEC.OP false ∧ s.f SEC.OP_STATUS_BUSY = 0) ∧ (∃ (ws : List Word),
      (s.lifecycle = lcManufacture ∨ s.lifecycle = lcOwned) ∧ s.mboxIn p 58 = some ws)) ∧
    (∃ (p : Port) (s : State), s.takes p SEC.OP false ∧ s.f SEC.OP_STATUS_BUSY = 0 ∧
      (s.lifecycle = lcUnowned ∨ s.lifecycle = lcRetired)) ∧
    (∃ (o : SecOp) (s : State), s.sec.op = some o ∧ o.opcode = 4 ∧ s.verifyTurn VerifyReq.request = true) ∧
    (∃ (p : Port) (n : BitVec 8) (s : State), (s.takes p SEC.OP false ∧ s.f SEC.OP_STATUS_BUSY = 0) ∧ (∃ (k : PtpKey),
      (s.spp n.toNat).next = some k)) ∧
    (∃ (p : Port) (n : BitVec 8) (s : State), s.takes p SEC.OP false ∧ s.f SEC.OP_STATUS_BUSY = 0 ∧
      (s.spp n.toNat).next = none) ∧
    (∃ (p : Port) (s : State), s.takes p SEC.OP false ∧ s.f SEC.OP_STATUS_BUSY = 0) ∧
    (∃ (p : Port) (s : State), s.takes p SEC.OP false ∧ s.f SEC.OP_STATUS_BUSY = 0 ∧
      (s.lifecycle ≠ lcUnowned ∨ s.sec.ownHash.isSome = true)) ∧
    (∃ (h : List Byte) (s : State), s.sec.ownHash = some h) ∧
    (∃ (p : Port) (s : State), s.takes p SEC.OP false ∧ s.f SEC.OP_STATUS_BUSY = 0 ∧
      (s.lifecycle ≠ lcOwned ∨ s.on MAN.STATUS_SIGNING = true)) ∧
    (∃ (s : State), (FuseJob.retire ∈ s.sec.fuse) ∧ (∃ (o : SecOp), s.sec.op = some o ∧ o.opcode = 10)) ∧
    (∃ (i : TapInstr), (i = TapInstr.extest ∨ i = TapInstr.clamp ∨ i = TapInstr.highz)) ∧
    (∃ (i : TapInstr) (s : State), (i = TapInstr.bypass ∨ i = TapInstr.samplePreload ∨ i = TapInstr.idcode) ∧
      s.sec.tapHold = false) ∧
    (∃ (i : TapInstr) (s : State), (i = TapInstr.bypass ∨ i = TapInstr.samplePreload ∨ i = TapInstr.idcode) ∧
      s.sec.tapHold = true) ∧
    (∃ (i : TapInstr) (s : State), (i = TapInstr.deviceTest ∨ i = TapInstr.other) ∧ s.lifecycle = lcManufacture ∧
      s.sec.tapHold = false) ∧
    (∃ (i : TapInstr) (s : State), (i = TapInstr.deviceTest ∨ i = TapInstr.other) ∧ s.lifecycle ≠ lcManufacture ∧
      s.sec.tapHold = false ∧ s.flt.injCheck = false ∧ s.reaction 3 19 < 8) :=
  ⟨⟨.a, 3, bare, by unfold State.takes; decide +kernel⟩,
   ⟨.a, 4, bare, by unfold State.takes; decide +kernel⟩,
   ⟨.b, fill bare .b [1, 2, 3, 4, 5, 6, 7, 8], by unfold State.takes; decide +kernel, ⟨[1, 2, 3, 4, 5, 6, 7, 8],
     by decide +kernel⟩⟩,
   ⟨.a, bare, by unfold State.takes; decide +kernel⟩,
   ⟨⟨2, .a, [1, 2, 3, 4, 5, 6, 7, 8], 0⟩, { bare with sec := { op := some ⟨2, .a, [1, 2, 3, 4, 5, 6, 7, 8], 0⟩ } },
     by decide +kernel⟩,
   ⟨.a, 5, { bare with sec := { report := some (List.replicate 384 7) } }, by unfold State.takes; decide +kernel,
     ⟨List.replicate 384 7, by decide +kernel⟩⟩,
   ⟨.a, 6, { bare with sec := { report := some (List.replicate 384 7) } }, by unfold State.takes; decide +kernel⟩,
   ⟨.a, fill (put bare [(SEC.STATE_LIFECYCLE, 2)]) .a (List.replicate 58 5), by unfold State.takes; decide +kernel,
     ⟨List.replicate 58 5, by decide +kernel⟩⟩,
   ⟨.a, fill bare .a (List.replicate 58 5), by unfold State.takes; decide +kernel⟩,
   ⟨⟨4, .a, [], 0⟩, { bare with sec := { op := some ⟨4, .a, [], 0⟩ } }, by decide +kernel⟩,
   ⟨.a, 255, { bare with sec := { keys := [(255, { next := some ⟨5, [1]⟩ })] } }, by unfold State.takes; decide +kernel, ⟨⟨5,
     [1]⟩, by decide +kernel⟩⟩,
   ⟨.b, 0, bare, by unfold State.takes; decide +kernel⟩,
   ⟨.a, bare, by unfold State.takes; decide +kernel⟩,
   ⟨.a, put bare [(SEC.STATE_LIFECYCLE, 2)], by unfold State.takes; decide +kernel⟩,
   ⟨List.replicate 48 7, put { bare with sec := { fuse := [.count 5, .own (List.replicate 48 7)] } } [(SEC.STATE_LIFECYCLE, 1)],
     by decide +kernel⟩,
   ⟨.a, bare, by unfold State.takes; decide +kernel⟩,
   ⟨{ bare with sec := { fuse := [.retire], op := some ⟨10, .a, [], 0⟩ } }, by decide +kernel, ⟨⟨10, .a, [], 0⟩,
     by decide +kernel⟩⟩,
   ⟨.highz, by decide +kernel⟩,
   ⟨.idcode, live, by decide +kernel⟩,
   ⟨.bypass, { bare with sec := { tapHold := true }, top := { phase := .held } }, by decide +kernel⟩,
   ⟨.deviceTest, put bare [(SEC.STATE_LIFECYCLE, 0)], by decide +kernel⟩,
   ⟨.deviceTest, put bare [(SEC.STATE_LIFECYCLE, 2)], by decide +kernel⟩⟩

theorem witness_FaultCollector :
    (∃ (m : FaultMsg) (s : State), s.top.phase ≠ Phase.held ∧ m.source ≠ 1023 ∧ 1 ≤ m.kind.toNat ∧ m.kind.toNat ≤ 22 ∧
      s.flt.injCheck = false ∧ s.reaction (m.source.toNat / 64) m.kind.toNat < 8 ∧ s.on FLT.FIRST0_VALID = false ∧
      (s.flt.queue.all fun e => !(e.source == m.source.toNat && e.kind == m.kind.toNat && e.addr == m.addr)) = true ∧
      s.flt.queue.length < 128 ∧ bitAt (s.reaction (m.source.toNat / 64) m.kind.toNat) 0 = true) ∧
    (∃ (m : FaultMsg) (s : State), s.top.phase ≠ Phase.held ∧ m.source ≠ 1023 ∧ 1 ≤ m.kind.toNat ∧ m.kind.toNat ≤ 22 ∧
      s.flt.injCheck = false ∧ s.reaction (m.source.toNat / 64) m.kind.toNat < 8 ∧
      bitAt (s.reaction (m.source.toNat / 64) m.kind.toNat) 2 = true) ∧
    (∃ (m : FaultMsg) (s : State), s.top.phase ≠ Phase.held ∧ m.source ≠ 1023 ∧ 1 ≤ m.kind.toNat ∧ m.kind.toNat ≤ 22 ∧
      s.flt.injCheck = false ∧ s.reaction (m.source.toNat / 64) m.kind.toNat < 8 ∧
      bitAt (s.reaction (m.source.toNat / 64) m.kind.toNat) 1 = true) ∧
    (∃ (m : FaultMsg) (s : State), s.top.phase ≠ Phase.held ∧ m.source ≠ 1023 ∧ (m.kind = 23 ∨ 1 ≤ m.kind.toNat ∧
      m.kind.toNat ≤ 22 ∧ s.flt.injCheck = true)) ∧
    (∃ (m : FaultMsg) (s : State), s.top.phase ≠ Phase.held ∧ m.source ≠ 1023 ∧ (m.kind = 23 ∨ 1 ≤ m.kind.toNat ∧
      m.kind.toNat ≤ 22 ∧ s.flt.injCheck = true) ∧ s.flt.injCheck = true) ∧
    (∃ (m : FaultMsg) (s : State), (s.top.phase = Phase.held ∨ m.kind = 0 ∨ 23 < m.kind.toNat ∨ m.source = 1023)) ∧
    (∃ (p : Port) (s : State), s.takes p FLT.CMD false ∧ s.flt.queue = [] ∧ s.flt.errDone = true) ∧
    (∃ (p : Port) (s : State), (s.takes p FLT.CMD false) ∧ (∃ (e : FaultEntry) (es : List FaultEntry), s.flt.queue = e :: es)) ∧
    (∃ (p : Port) (s : State), s.takes p FLT.CMD false ∧ s.flt.errDone = false) ∧
    (∃ (p : Port) (s : State), s.takes p FLT.CMD true ∧ s.on FLT.STATUS_INJ_PEND = true) ∧
    (∃ (p : Port) (s : State), s.takes p FLT.CMD true ∧ s.on FLT.STATUS_INJ_PEND = false) ∧
    (∃ (s : State), s.on FLT.STATUS_ERR_PIN = true ∧ s.flt.errDone = false ∧ s.flt.errEnd ≤ s.now ∧ s.flt.errReleased = true) ∧
    (∃ (s : State), s.on FLT.STATUS_ERR_PIN = true ∧ s.flt.errDone = false ∧ s.flt.errEnd ≤ s.now ∧ s.flt.errReleased = false) ∧
    (∃ (c : Fin 16) (s : State), s.on { key := FLT.STATUS, hi := ↑c, lo := ↑c } = true ∧
      Tab.get (fun _ => 0) s.flt.lastMsg ↑c + s.f FLT.QUIET_MS * 2000000 ≤ s.now) ∧
    (∃ (c : Fin 16) (s : State), s.on { key := FLT.STATUS, hi := ↑c, lo := ↑c } = true ∧
      Tab.get (fun _ => 0) s.flt.lastMsg ↑c + s.f FLT.QUIET_MS * 2000000 ≤ s.now ∧ ↑c = 6) ∧
    (∃ (c : Fin 16) (s : State), s.on { key := FLT.STATUS, hi := ↑c, lo := ↑c } = true ∧
      Tab.get (fun _ => 0) s.flt.lastMsg ↑c + s.f FLT.QUIET_MS * 2000000 ≤ s.now ∧ ↑c = 12) :=
  ⟨⟨⟨0x3FE, 22, 5⟩, bare, by decide +kernel⟩,
   ⟨⟨0, 1, 5⟩, bare, by decide +kernel⟩,
   ⟨⟨0, 1, 5⟩, { bare with fab := { img := some { image with reactions := [⟨0, 1, 2⟩] } } }, by decide +kernel⟩,
   ⟨⟨0, 23, 5⟩, live, by decide +kernel⟩,
   ⟨⟨0, 1, 5⟩, { bare with flt := { injCheck := true } }, by decide +kernel⟩,
   ⟨⟨0, 24, 5⟩, bare, by decide +kernel⟩,
   ⟨.a, bare, by unfold State.takes; decide +kernel⟩,
   ⟨.b, { bare with flt := { queue := [⟨false, false, 5, 6, 7, 8, 9⟩] } }, by unfold State.takes; decide +kernel, ⟨⟨false,
     false, 5, 6, 7, 8, 9⟩, [], by decide +kernel⟩⟩,
   ⟨.b, { bare with flt := { queue := [⟨false, false, 5, 6, 7, 8, 9⟩], errDone := false } },
     by unfold State.takes; decide +kernel⟩,
   ⟨.a, put live [(FLT.STATUS_INJ_PEND, 1)], by unfold State.takes; decide +kernel⟩,
   ⟨.a, put live [(FLT.INJ_TARGET, 1), (FLT.INJ_ADDR_OFFSET, 8), (FLT.INJ_BITS, 1)], by unfold State.takes; decide +kernel⟩,
   ⟨{ put bare [(FLT.STATUS_ERR_PIN, 1)] with flt := { errDone := false } }, by decide +kernel⟩,
   ⟨{ put bare [(FLT.STATUS_ERR_PIN, 1)] with flt := { errDone := false, errReleased := false } }, by decide +kernel⟩,
   ⟨15, put live [(⟨FLT.STATUS, 15, 15⟩, 1)], by decide +kernel⟩,
   ⟨6, put live [(⟨FLT.STATUS, 6, 6⟩, 1)], by decide +kernel⟩,
   ⟨12, put live [(⟨FLT.STATUS, 12, 12⟩, 1)], by decide +kernel⟩⟩

end Sys2Proof.Tests
end

section
/-! PROOFS. The berth store (O24): a state in which BERTH_DISABLE moves the consumer count of a ring by more than one entry. -/

namespace Sys2Proof.Machine

theorem exec_berthDisable (p : Port) (h a0 a1 a2 a3 : Word) (s : State) :
    exec (.berthDisable p h a0 a1 a2 a3) s = .next (s.ringPost p 0x23 h a0 a1 a2 a3) := rfl

/-- The LIVE measurement berth in slot 0 is attached to entry 312 of selector 209, which the device does not have: `State.numbered` is
false here, and O24 does not ask for it. By the address rule `SEL.CAND_STATE 209 312` is `HOST.RING_STAT .b` (0x1012804). All else is in
order: the device runs, an image with 512 berth slots and the helm of PTP engine 0 for port B has landed, and the rings are empty. -/
def strayAttached : State :=
  ({ top := { phase := .running }
     fab := { img := some { spmap := [⟨3, 0, false⟩], helm := List.replicate 0x99 2 } }
     berth := [(0, { kind := 4, live := true, att := some (209, 312, 0) })] } : State).setf FAB.STATE_LOAD 2

/-- The handle of the berth of `strayAttached`: kind 4, generation 0, slot 0 (R10). -/
def strayHandle : Word := 0x40000000

theorem strayAttached_ringReady : strayAttached.ringReady .b := by
  unfold State.ringReady
  decide +kernel

theorem strayAttached_berthTaken : strayAttached.berthTaken .b strayHandle.toNat [1, 2, 3, 4] 0 := by
  unfold State.berthTaken
  decide +kernel

/-- No entry of port B's ring has been consumed. -/
theorem strayAttached_ci : strayAttached.f (HOST.RING_STAT_CI .b) = 0 := by decide +kernel

/-- DISABLE raises the activity fault of the berth's entry, bit 8 of its CAND_STATE, so that the consumer count is 256 when the completion
of the ring entry adds 1. -/
theorem strayAttached_ci_disabled :
    (strayAttached.ringPost .b 0x23 strayHandle 0 0 0 0).f (HOST.RING_STAT_CI .b) = 256 + 1 := by decide +kernel

/-- Refutes O24: the clause of DISABLE fails in `strayAttached`, where the entry that the berth is attached to has its fault bit in port
B's RING_STAT, so that the consumer count goes from 0 to 257 and not to 1. The statement does not ask for `State.numbered`, which bounds
the attachments. -/
theorem not_berthStore : ¬ Obligations.BerthStore := by
  unfold Obligations.BerthStore
  rintro ⟨-, -, -, disable, -⟩
  obtain ⟨t, ran, ⟨-, -, -, ci⟩, -⟩ :=
    disable .b strayHandle 0 0 0 0 0 strayAttached strayAttached_ringReady strayAttached_berthTaken
  rw [exec_berthDisable] at ran
  rw [← Host.Outcome.next.inj ran, strayAttached_ci_disabled, strayAttached_ci] at ci
  exact absurd ci (by decide)

end Sys2Proof.Machine
end

section
/-! PROOFS. The queue of waiting commands (O1). That commands wait in a queue, and that a step takes the one at its front, is the model's
own choice (log entries 2 and 10). -/

namespace Sys2Proof.Machine

/-- Settles O1: a queue with a command at its front selects the second branch of `step`. -/
theorem stepRunsFrontCommand : Obligations.StepRunsFrontCommand := by
  unfold Obligations.StepRunsFrontCommand
  intro c rest s front
  unfold step
  rw [front]

end Sys2Proof.Machine
end

section
/-! PROOFS. The voltage loop (O8): what a measurement window, and the end of a step of the voltage, do to the loop and to its registers. -/

namespace Sys2Proof.Machine

section

variable (s : State)

/-! The measurement window. -/

theorem exec_canaryWindowEnd (laps : BitVec 16) : exec (.canaryWindowEnd laps) s = execCanaryWindowEnd laps s := rfl

/-- The state with the laps of a window in CANARY. -/
def State.counted (n : Nat) : State :=
  let t := s.setf PWR.CANARY_LAPS n
  t.setf PWR.CANARY_MIN_LAPS (min n (t.f PWR.CANARY_MIN_LAPS))

theorem State.w_counted_other (n : Nat) {j : Nat} (h : j ≠ PWR.CANARY) : (s.counted n).w j = s.w j :=
  (State.w_setf_other _ _ _ h).trans (State.w_setf_other _ _ _ h)

theorem State.laps_counted (n : Nat) : (s.counted n).f PWR.CANARY_LAPS = n % 2 ^ 16 :=
  (State.f_setf_bits _ _ _ _ (by decide) (by decide)).trans (State.f_setf _ _ _ (by decide))

theorem State.pwr_counted (n : Nat) : (s.counted n).pwr = s.pwr := by simp only [State.counted, State.pwr_setf]

theorem State.flt_counted (n : Nat) : (s.counted n).flt = s.flt := by simp only [State.counted, State.flt_setf]

/-- The state with a lag window in its counter and its sticky bit, and with source 8 raised where it is due. -/
def State.lagCounted : State :=
  let t := (s.inc PWR.AVS_COUNT_LAG_WINDOWS).ev PWR.AVS_EVENT_LAG_SEEN
  if t.pwr.regulated && !t.pwr.lagged then t.raise 8 else t

theorem State.w_lagCounted_other {j : Nat} (h : intrKey j = false) (hc : j ≠ PWR.AVS_COUNT) (he : j ≠ PWR.AVS_EVENT) :
    s.lagCounted.w j = s.w j := by
  have counted : ((s.inc PWR.AVS_COUNT_LAG_WINDOWS).ev PWR.AVS_EVENT_LAG_SEEN).w j = s.w j :=
    (State.w_ev_other _ _ (by decide) h he).trans (State.w_setf_other _ _ _ hc)
  unfold State.lagCounted
  extract_lets t
  split
  · exact (State.w_raise_other _ (by decide) h).trans counted
  · exact counted

theorem State.pwr_lagCounted : s.lagCounted.pwr = s.pwr := by
  unfold State.lagCounted
  extract_lets t
  have counted : t.pwr = s.pwr := by simp only [t, State.pwr_ev, State.pwr_inc]
  split
  · simpa only [State.pwr_raise] using counted
  · exact counted

/-- The state with the lag bits of AVS_STATUS set, and a lag window counted. -/
def State.lagShown (lag reg : Bool) : State :=
  let t := (s.setb PWR.AVS_STATUS_REG reg).setb PWR.AVS_STATUS_LAG lag
  if lag then t.lagCounted else t

theorem State.regs_lagWindow (lag reg : Bool) : (s.lagWindow lag reg).regs = (s.lagShown lag reg).regs := by
  cases lag <;> cases reg <;> rfl

theorem State.flt_lagWindow (lag reg : Bool) : (s.lagWindow lag reg).flt = s.flt :=
  ((Moves.refl s).lagWindow (Sub.refl _)).p11 rfl

theorem State.top_lagWindow (lag reg : Bool) : (s.lagWindow lag reg).top = s.top :=
  ((Moves.refl s).lagWindow (Sub.refl _)).p8 rfl

theorem State.step_lagWindow (lag reg : Bool) :
    (s.lagWindow lag reg).pwr.code = s.pwr.code ∧ (s.lagWindow lag reg).pwr.sinceStep = s.pwr.sinceStep := by
  have shown : ∀ t : State, t.lagCounted.pwr.code = t.pwr.code ∧ t.lagCounted.pwr.sinceStep = t.pwr.sinceStep :=
    fun t => by rw [t.pwr_lagCounted]; exact ⟨rfl, rfl⟩
  cases lag with
  | true => cases reg <;> exact shown _
  | false => cases reg <;> exact ⟨rfl, rfl⟩

/-- Judging a window for lag writes AVS_STATUS, its counter, its sticky bit and the registers of a raised source. -/
theorem State.w_lagWindow_other (lag reg : Bool) {j : Nat} (h : intrKey j = false) (hs : j ≠ PWR.AVS_STATUS)
    (hc : j ≠ PWR.AVS_COUNT) (he : j ≠ PWR.AVS_EVENT) : (s.lagWindow lag reg).w j = s.w j := by
  have shown : ((s.setb PWR.AVS_STATUS_REG reg).setb PWR.AVS_STATUS_LAG lag).w j = s.w j :=
    (State.w_setf_other _ _ _ hs).trans (State.w_setf_other _ _ _ hs)
  rw [State.w_congr _ (s.regs_lagWindow lag reg)]
  unfold State.lagShown
  cases lag with
  | true => exact (State.w_lagCounted_other _ h hc he).trans shown
  | false => exact shown

/-- Of AVS_STATUS, it writes REG and LAG only. -/
theorem State.f_lagWindow_status (lag reg : Bool) (x : Fld) (hk : x.key = PWR.AVS_STATUS)
    (hx : x.lo + x.width ≤ 10 ∨ 12 ≤ x.lo) : (s.lagWindow lag reg).f x = s.f x := by
  have shown : ((s.setb PWR.AVS_STATUS_REG reg).setb PWR.AVS_STATUS_LAG lag).f x = s.f x :=
    (State.f_setf_bits _ _ _ _ (by decide) (by simp only [Fld.width] at *; omega)).trans
      (State.f_setf_bits _ _ _ _ (by decide) (by simp only [Fld.width] at *; omega))
  rw [State.f_congr _ (s.regs_lagWindow lag reg)]
  unfold State.lagShown
  cases lag with
  | true =>
    exact (State.f_of_w _ x (State.w_lagCounted_other _ (by rw [hk]; decide) (by rw [hk]; decide) (by rw [hk]; decide))).trans shown
  | false => exact shown

/-- What a window leaves of the deficit detector's state when it is not slow at the ceiling and no deficit is in force. -/
theorem State.deficit_eq_of_off (reg : Bool) (h : s.on PWR.AVS_STATUS_DEFICIT = false) :
    s.deficit false reg false = { s with pwr := { s.pwr with
      deficitRun := 0, realRun := 0, exitRun := if reg then s.pwr.exitRun + 1 else 0 } } := by
  have off : ∀ p : PwrCore, ({ s with pwr := p } : State).on PWR.AVS_STATUS_DEFICIT = false := fun _ => h
  unfold State.deficit
  simp only [off, Bool.or_false, Bool.false_eq_true, if_false, Bool.not_false, if_true, Bool.and_true,
    (by decide : ¬ 0 ≥ 4)]

/-! The step of the loop. -/

theorem State.w_command_other (c : Nat) {j : Nat} (h : intrKey j = false) (hs : j ≠ PWR.AVS_STATUS) (he : j ≠ PWR.AVS_EVENT) :
    (s.command c).w j = s.w j := by
  unfold State.command State.evIf
  extract_lets
  split
  · refine (State.w_ev_other _ _ (by decide) h he).trans ?_
    exact (State.w_setf_other _ _ _ hs).trans ((State.w_setf_other _ _ _ hs).trans (State.w_setf_other _ _ _ hs))
  · exact (State.w_setf_other _ _ _ hs).trans ((State.w_setf_other _ _ _ hs).trans (State.w_setf_other _ _ _ hs))

theorem State.code_command (c : Nat) : (s.command c).pwr.code = c := by
  unfold State.command State.evIf
  extract_lets
  split
  · rw [State.pwr_ev]; rfl
  · rfl

/-- Where a loop that moves the voltage itself goes from a code below 44, by the laps of a window, the target trim and the windows since the
last step: the thresholds of R62 and the wait of R63. -/
def nextCode (laps trim : Int) (code since : Nat) : Int :=
  if laps ≤ 497 + trim then (code : Int) + 1
  else if since < 3 then (code : Int)
  else if 518 + trim ≤ laps then max 0 ((code : Int) - 1)
  else if laps ≤ 506 + trim then (code : Int) + 1
  else (code : Int)

theorem State.code_voltageStep (laps : Int) (hb : s.on PWR.AVS_STATUS_BUSERR = false) (hm : s.on PWR.AVS_CTRL_MANUAL = false)
    (hd : s.on PWR.AVS_STATUS_DEFICIT = false) (hc : s.pwr.code < 44) :
    ((s.voltageStep laps).pwr.code : Int) = nextCode laps s.trim s.pwr.code s.pwr.sinceStep := by
  have same : ∀ (x : Fld) (p : PwrCore), ({ s with pwr := p } : State).on x = s.on x := fun _ _ => rfl
  have wait : s.pwr.sinceStep + 1 < 4 ↔ s.pwr.sinceStep < 3 := by omega
  unfold State.voltageStep nextCode
  simp only [same, hb, hm, hd, Bool.false_and, Bool.false_eq_true, if_false, hc, if_true, wait, ge_iff_le]
  split
  · exact congrArg Nat.cast (State.code_command _ _)
  split
  · rfl
  split
  · split
    · rw [State.code_command]; omega
    · dsimp only; omega
  split
  · exact congrArg Nat.cast (State.code_command _ _)
  · rfl

theorem State.w_voltageStep_other (laps : Int) {j : Nat} (h : intrKey j = false) (hs : j ≠ PWR.AVS_STATUS) (he : j ≠ PWR.AVS_EVENT) :
    (s.voltageStep laps).w j = s.w j := by
  have waits : ∀ p : PwrCore, ({ s with pwr := p } : State).w j = s.w j := fun _ => rfl
  have steps : ∀ (p : PwrCore) (c : Nat), (({ s with pwr := p } : State).command c).w j = s.w j :=
    fun p c => State.w_command_other _ c h hs he
  unfold State.voltageStep
  simp only [apply_ite (fun t : State => t.w j), waits, steps, ite_self]

/-! The end of a window. -/

variable (n : Nat)

/-- A window counts 497 laps or fewer, the target trim added (R67). -/
def State.slowWindow : Bool := decide ((n : Int) ≤ 497 + s.trim)

/-- The window in CANARY, and judged for lag. -/
def State.windowLagged : State :=
  let t := s.counted n
  t.lagWindow (s.slowWindow n && decide (t.pwr.code < 44)) (!s.slowWindow n)

/-- The state in which the loop takes its step at the end of a window that is not slow at the ceiling: it is judged for lag and for a
deficit. -/
def State.windowJudged : State := (s.windowLagged n).deficit false (!s.slowWindow n) false

theorem State.w_windowLagged_other {j : Nat} (h : intrKey j = false) (hs : j ≠ PWR.AVS_STATUS) (hc : j ≠ PWR.AVS_COUNT)
    (he : j ≠ PWR.AVS_EVENT) (hl : j ≠ PWR.CANARY) : (s.windowLagged n).w j = s.w j :=
  (State.w_lagWindow_other _ _ _ h hs hc he).trans (s.w_counted_other n hl)

theorem State.on_windowLagged_ctrl (x : Fld) (hk : x.key = PWR.AVS_CTRL) : (s.windowLagged n).on x = s.on x :=
  State.on_of_f _ x (State.f_of_w _ x (by
    rw [hk]; exact s.w_windowLagged_other n (by decide) (by decide) (by decide) (by decide) (by decide)))

theorem State.on_windowLagged_status (x : Fld) (hk : x.key = PWR.AVS_STATUS) (hx : x.lo + x.width ≤ 10 ∨ 12 ≤ x.lo) :
    (s.windowLagged n).on x = s.on x :=
  State.on_of_f _ x ((State.f_lagWindow_status _ _ _ x hk hx).trans
    (State.f_of_w _ x (s.w_counted_other n (by rw [hk]; decide))))

theorem State.step_windowLagged :
    (s.windowLagged n).pwr.code = s.pwr.code ∧ (s.windowLagged n).pwr.sinceStep = s.pwr.sinceStep := by
  rw [← s.pwr_counted n]
  exact State.step_lagWindow _ _ _

/-- Outside a deficit, the detector changes its own counts only. -/
theorem State.windowJudged_eq (hd : s.on PWR.AVS_STATUS_DEFICIT = false) :
    ∃ p : PwrCore, p.code = s.pwr.code ∧ p.sinceStep = s.pwr.sinceStep ∧
      s.windowJudged n = { s.windowLagged n with pwr := p } := by
  have off := (s.on_windowLagged_status n PWR.AVS_STATUS_DEFICIT rfl (by decide)).trans hd
  obtain ⟨code, since⟩ := s.step_windowLagged n
  refine ⟨_, ?_, ?_, State.deficit_eq_of_off _ _ off⟩
  · exact code
  · exact since

/-- What the end of a window does where no deficit is injected and the code is the loop's own and below 44. -/
theorem State.execCanaryWindowEnd_eq (laps : BitVec 16) (hh : s.top.phase ≠ .held) (hs : s.top.phase ≠ .straps)
    (hm : s.on PWR.AVS_CTRL_MANUAL = false) (hj : s.flt.injWindows = 0) (hc : s.pwr.code < 44) :
    execCanaryWindowEnd laps s =
      (let t := (s.windowJudged laps.toNat).voltageStep laps.toNat
       .next (if t.top.phase = .flm ∧ t.pwr.regulated then t.firstLoad else t)) := by
  have noInj : decide (0 < (s.windowLagged laps.toNat).flt.injWindows) = false := by
    rw [State.windowLagged, State.flt_lagWindow, State.flt_counted, hj]
    rfl
  have notManual := (s.on_windowLagged_ctrl laps.toNat PWR.AVS_CTRL_MANUAL rfl).trans hm
  have notCeiling : ((s.counted laps.toNat).pwr.code == 44) = false := by
    rw [s.pwr_counted]
    exact beq_eq_false_iff_ne.2 (by omega)
  unfold execCanaryWindowEnd
  rw [if_neg (not_or.2 ⟨hh, hs⟩)]
  extract_lets n trim _ _ slow reg c _ inj _ _ afterInj judged stepped t
  have skipped : afterInj = s.windowLagged n := if_neg (Bool.eq_false_iff.1 noInj)
  have hj : judged = s.windowJudged n := by
    change afterInj.deficit (slow && (c == 44 || afterInj.on PWR.AVS_CTRL_MANUAL)) reg inj = _
    rw [skipped, notManual, show inj = false from noInj, show (c == 44) = false from notCeiling, Bool.or_false, Bool.and_false]
    rfl
  rw [show stepped = t from congrArg (fun u : State => u.voltageStep n) hj]

/-! The step that follows. -/

theorem State.code_windowStepped (hb : s.on PWR.AVS_STATUS_BUSERR = false) (hm : s.on PWR.AVS_CTRL_MANUAL = false)
    (hd : s.on PWR.AVS_STATUS_DEFICIT = false) (hc : s.pwr.code < 44) :
    (((s.windowJudged n).voltageStep n).pwr.code : Int) = nextCode n s.trim s.pwr.code s.pwr.sinceStep := by
  obtain ⟨p, code, since, judged⟩ := s.windowJudged_eq n hd
  have on : ∀ x, (s.windowJudged n).on x = (s.windowLagged n).on x := fun x => by rw [judged]; rfl
  have trim : (s.windowJudged n).trim = s.trim := by
    rw [judged]
    exact congrArg (toSigned 8) (s.f_of_w _ (s.w_windowLagged_other n (by decide) (by decide) (by decide) (by decide) (by decide)))
  have step := (s.windowJudged n).code_voltageStep n
    ((on _).trans ((s.on_windowLagged_status n _ rfl (by decide)).trans hb))
    ((on _).trans ((s.on_windowLagged_ctrl n _ rfl).trans hm))
    ((on _).trans ((s.on_windowLagged_status n _ rfl (by decide)).trans hd))
  rw [trim, show (s.windowJudged n).pwr = p by rw [judged], code, since] at step
  exact step hc

/-- The step leaves CANARY with the laps of the window. -/
theorem State.laps_windowStepped (hd : s.on PWR.AVS_STATUS_DEFICIT = false) :
    ((s.windowJudged n).voltageStep n).f PWR.CANARY_LAPS = n % 2 ^ 16 := by
  obtain ⟨p, -, -, judged⟩ := s.windowJudged_eq n hd
  refine Eq.trans (State.f_of_w _ _ ?_) (s.laps_counted n)
  rw [State.w_voltageStep_other _ _ (by decide) (by decide) (by decide), judged]
  exact State.w_lagWindow_other _ _ _ (by decide) (by decide) (by decide) (by decide)

theorem State.top_windowStepped (hd : s.on PWR.AVS_STATUS_DEFICIT = false) :
    ((s.windowJudged n).voltageStep n).top = s.top := by
  obtain ⟨p, -, -, judged⟩ := s.windowJudged_eq n hd
  rw [((Moves.refl _).voltageStep (Sub.refl _)).p8 rfl, judged]
  exact (State.top_lagWindow _ _ _).trans (by simp only [State.counted, State.top_setf])

/-! The end of a step of the voltage. -/

theorem exec_avsStepDone (mv : Nat) (ok : Bool) : exec (.avsStepDone mv ok) s = execAvsStepDone mv ok s := rfl

/-- An AVSBus error is shown, its sticky bit is set and its source raised (R66). -/
def State.busErrShown : State := ((s.setf PWR.AVS_STATUS_BUSERR 1).ev PWR.AVS_EVENT_BUSERR_SEEN).raise 11

theorem State.pwr_busErrShown : s.busErrShown.pwr = s.pwr := by
  simp only [State.busErrShown, State.pwr_raise, State.pwr_ev, State.pwr_setf]

theorem State.on_busErrShown : s.busErrShown.on PWR.AVS_STATUS_BUSERR = true ∧ s.busErrShown.on PWR.AVS_EVENT_BUSERR_SEEN = true := by
  have raised : ∀ (t : State) (x : Fld), intrKey x.key = false → (t.raise 11).on x = t.on x := fun t x h =>
    State.on_of_f _ x (State.f_of_w _ x (State.w_raise_other _ (by decide) h))
  unfold State.busErrShown
  constructor
  · rw [raised _ _ (by decide), State.on_of_f _ _ (State.f_ev_other _ _ _ (by decide) (by decide) (by decide))]
    unfold State.on
    rw [State.f_setf _ _ _ (by decide)]
    rfl
  · rw [raised _ _ (by decide)]
    exact State.on_ev _ _ rfl (by decide) (by decide)

/-- A report of an AVSBus error whose reaction resets nothing leaves it shown. -/
theorem State.on_report_busErrShown (addr : Nat) (inj : Bool) (ha : addr < 2 ^ 32) (hc : s.flt.injCheck = false)
    (hr : s.reaction 0 0x06 < 8) (x : Fld) (hx : reportKey x.key = false) :
    (s.busErrShown.reportInj 4 0x06 addr inj).on x = s.busErrShown.on x := by
  refine State.on_of_f _ x (State.f_of_w _ x (State.w_report_other _ _ _ _ _ ?_ (by decide) (by decide) ha ?_ hx))
  · simpa only [State.busErrShown, State.flt_raise, State.flt_ev, State.flt_setf] using hc
  · rw [State.reaction_congr s (by simp only [State.busErrShown, State.fab_raise, State.fab_ev, State.fab_setf])]
    exact hr

/-- The reading after a step to code c is more than 10 mV off (R66). -/
def badReading (mv c : Nat) : Bool := decide (mv + 10 < 620 + 5 * c ∨ 620 + 5 * c + 10 < mv)

/-- The bad readings in a row, with one after a step to code c. -/
def State.readings (mv c : Nat) : Nat := if badReading mv c then s.pwr.badReads + 1 else 0

/-- The state once an armed injection into the AVSBus path has been used up. -/
def State.avsInjected : State :=
  if s.flt.injAvs then ({ s with flt := { s.flt with injAvs := false } } : State).injDone else s

/-- The state in which a step is over. -/
def State.stepOver (mv c : Nat) : State :=
  let t := s.avsInjected
  { t with pwr := { t.pwr with stepping := none, badReads := t.readings mv c } }

/-- The end of a step: it is over, and an AVSBus error is shown and reported where the transaction or the readings call for it and none is
present. -/
theorem State.execAvsStepDone_eq (mv c : Nat) (ok : Bool) (h : s.pwr.stepping = some c) :
    execAvsStepDone mv ok s =
      (let run := s.avsInjected.readings mv c
       let fail := !ok || s.flt.injAvs
       let t := s.stepOver mv c
       if (fail || decide (3 ≤ run)) && !t.on PWR.AVS_STATUS_BUSERR then
         .next (({ t with pwr := { t.pwr with badReads := 0 } } : State).busErrShown.reportInj 4 0x06
           (c + 256 * b2n (decide (3 ≤ run)) + 512 * b2n fail) s.flt.injAvs)
       else .next t) := by
  unfold execAvsStepDone
  rw [h]
  rfl

/-- The end of a step always ends it. -/
theorem State.execAvsStepDone_ends (mv c : Nat) (ok : Bool) (h : s.pwr.stepping = some c) :
    ∃ t, execAvsStepDone mv ok s = .next t ∧ t.pwr.stepping = none := by
  rw [s.execAvsStepDone_eq mv c ok h]
  extract_lets run fail t
  split
  · refine ⟨_, rfl, ?_⟩
    rw [((Moves.refl _).reportInj (Sub.refl _)).p9 rfl, State.pwr_busErrShown]
    rfl
  · exact ⟨t, rfl, rfl⟩

/-- With no injection armed, a failed transaction, or a third bad reading in a row, leaves an AVSBus error shown. -/
theorem State.execAvsStepDone_busErr (mv c : Nat) (ok : Bool) (h : s.pwr.stepping = some c) (hb : s.on PWR.AVS_STATUS_BUSERR = false)
    (hc : s.flt.injCheck = false) (hi : s.flt.injAvs = false) (hr : s.reaction 0 0x06 < 8) (hn : c < 64)
    (bad : ok = false ∨ (2 ≤ s.pwr.badReads ∧ (mv + 10 < 620 + 5 * c ∨ 620 + 5 * c + 10 < mv))) {t : State}
    (ht : execAvsStepDone mv ok s = .next t) :
    t.on PWR.AVS_STATUS_BUSERR = true ∧ t.on PWR.AVS_EVENT_BUSERR_SEEN = true := by
  have used : s.avsInjected = s := by rw [State.avsInjected, hi]; rfl
  have calls : (!ok || s.flt.injAvs || decide (3 ≤ s.readings mv c)) = true := by
    rcases bad with failed | ⟨twice, off⟩
    · rw [failed]; rfl
    · have third : s.readings mv c = s.pwr.badReads + 1 := if_pos (decide_eq_true off)
      rw [third, decide_eq_true (by omega : 3 ≤ s.pwr.badReads + 1), Bool.or_true]
  have absent : (s.stepOver mv c).on PWR.AVS_STATUS_BUSERR = false := by rw [State.stepOver, used]; exact hb
  have addr : ∀ a b : Bool, c + 256 * b2n a + 512 * b2n b < 2 ^ 32 := by
    have bit : ∀ a : Bool, b2n a ≤ 1 := by decide
    intro a b
    have := bit a
    have := bit b
    omega
  rw [s.execAvsStepDone_eq mv c ok h] at ht
  dsimp only at ht
  rw [used, calls, absent, if_pos (by rfl)] at ht
  obtain rfl := Host.Outcome.next.inj ht
  have kept := fun x hx => State.on_report_busErrShown { s.stepOver mv c with pwr := { (s.stepOver mv c).pwr with badReads := 0 } }
    _ s.flt.injAvs (addr (decide (3 ≤ s.readings mv c)) (!ok || s.flt.injAvs))
    (by rw [State.stepOver, used]; exact hc) (by rw [State.stepOver, used]; exact hr) x hx
  rw [kept _ (by decide), kept _ (by decide)]
  exact State.on_busErrShown _

end

/-- Settles O8. The window is put through the loop once (`execCanaryWindowEnd_eq`), and start-up's first load that may follow leaves the loop
alone; a step's end is `execAvsStepDone_eq`. -/
theorem voltageLoop : Obligations.VoltageLoop := by
  unfold Obligations.VoltageLoop
  refine ⟨fun laps s hh hs hb hm hd hj hc => ?_, fun mv c ok s h => ?_⟩
  · refine ⟨_, (exec_canaryWindowEnd s laps).trans (s.execCanaryWindowEnd_eq laps hh hs hm hj hc), ?_, fun hf => ?_⟩
    · refine Eq.trans ?_ (s.code_windowStepped _ hb hm hd hc)
      split
      · rw [((Moves.refl _).firstLoad (Sub.refl _)).p9 rfl]
      · rfl
    · rw [if_neg (fun both => hf (by rw [← s.top_windowStepped laps.toNat hd]; exact both.1)), s.laps_windowStepped _ hd]
      exact Nat.mod_eq_of_lt laps.isLt
  · rw [exec_avsStepDone s]
    obtain ⟨t, ran, ended⟩ := s.execAvsStepDone_ends mv c ok h
    exact ⟨t, ran, ended, fun hb hc hi hr hn bad => s.execAvsStepDone_busErr mv c ok h hb hc hi hr hn bad ran⟩

end Sys2Proof.Machine
end

section
/-! PROOFS. Start-up (O10): what each of its steps leaves. -/

namespace Sys2Proof.Machine

section

variable (s : State)

/-! The memory that an engine's scratchpad leaves alone. -/

/-- A part of a table that lists no entry for a key does not say what the key holds. -/
theorem Tab.get_append_of_not_mem {α : Type} (d : Nat → α) (t u : Tab α) {k : Nat} (h : ∀ e ∈ t, e.1 ≠ k) :
    Tab.get d (t ++ u) k = Tab.get d u k := by
  induction t with
  | nil => rfl
  | cons e t ih =>
    obtain ⟨j, v⟩ := e
    rw [List.cons_append, Tab.get, if_neg (h _ List.mem_cons_self)]
    exact ih (fun e he => h e (List.mem_cons_of_mem _ he))

/-- A key that a filter keeps holds what it held. -/
theorem Tab.get_filter_of_kept {α : Type} (d : Nat → α) (p : Nat → Bool) (t : Tab α) {k : Nat} (h : p k = true) :
    Tab.get d (t.filter (fun e => p e.1)) k = Tab.get d t k := by
  induction t with
  | nil => rfl
  | cons e t ih =>
    obtain ⟨j, v⟩ := e
    by_cases hp : p j = true
    · simp only [List.filter_cons, hp, if_true, Tab.get, ih]
    · have hj : j ≠ k := fun e => hp (e ▸ h)
      simp only [List.filter_cons, hp, Bool.false_eq_true, if_false, Tab.get, hj, ih]

/-- A byte above a region that is filled stays. -/
theorem State.byte_fillRegion_above (a n : Nat) (cells : List (Nat × Byte)) {k : Nat} (h : a + n ≤ k) :
    (s.fillRegion a n cells).byte k = s.byte k := by
  unfold State.byte State.fillRegion
  rw [Tab.get_append_of_not_mem]
  · exact Tab.get_filter_of_kept _ (fun j => decide (a + n ≤ j)) _ (decide_eq_true h)
  · intro e he
    rcases List.mem_append.1 he with low | cell
    · have := of_decide_eq_true (List.mem_filter.1 low).2
      omega
    · have := (of_decide_eq_true (List.mem_filter.1 cell).2).2
      omega

/-- A byte above those that an owner writes stays. -/
theorem State.byte_bankWrite_above (a : Nat) (bs : List Byte) {k : Nat} (h : a + bs.length ≤ k) :
    (s.bankWrite a bs).byte k = s.byte k := by
  have written : (s.setBytes a bs).byte k = s.byte k := by
    unfold State.byte State.setBytes
    rw [Tab.get_setList, dif_neg (by omega)]
  have checked : ∀ (l : List Nat) (t : State), (t.forL l State.eccWrite).mem = t.mem := fun l t =>
    (Moves.forL (Moves.refl t) (fun _ _ h => h.eccWrite (Sub.refl _))).p3 rfl
  unfold State.bankWrite State.byte
  rw [checked]
  exact written

/-- What an engine's entry of the map and its copy in the scratchpad leave of the bytes above that scratchpad. -/
theorem State.byte_setEngine_above (e st loop : Nat) {k : Nat} (h : (e + 1) * spSize ≤ k) :
    (s.setEngine e st loop).byte k = s.byte k := by
  have refreshed : ∀ t : State, t.refreshEng.mem = t.mem := fun t => ((Moves.refl t).refreshEng (Sub.refl _)).p3 rfl
  have mirrored : ∀ t : State, (t.mirrorEngine e).byte k = t.byte k := fun t =>
    t.byte_bankWrite_above _ _ (by
      rw [show (leBytes 4 (t.w (ENG.ENGINE e))).length = 4 from rfl]
      simp only [spSize] at *
      omega)
  unfold State.setEngine
  extract_lets t _ u
  have unmoved : u.mem = s.mem := by
    have moved : t.mem = s.mem := by
      unfold t
      split
      · exact s.mem_incWrap _
      · rfl
    unfold u
    split
    · exact (State.mem_setf _ _ _).trans moved
    · exact moved
  have fields : ((u.setf (ENG.ENGINE_STATE e) st).setf (ENG.ENGINE_LOOP e) loop).byte k = s.byte k := by
    unfold State.byte
    rw [State.mem_setf, State.mem_setf, unmoved]
  refine Eq.trans ?_ ((mirrored _).trans fields)
  unfold State.byte
  rw [refreshed]

theorem State.byte_toPontoon_above (e : Nat) {k : Nat} (h : (e + 1) * spSize ≤ k) : (s.toPontoon e).byte k = s.byte k := by
  unfold State.toPontoon
  rw [State.byte_setEngine_above _ _ _ _ h]
  exact s.byte_fillRegion_above _ _ _ (by simp only [spSize] at *; omega)

theorem State.top_toPontoon (e : Nat) : (s.toPontoon e).top = s.top := ((Moves.refl s).toPontoon (Sub.refl _)).p8 rfl

/-! The steps. -/

theorem exec_resetNRise (x : Straps) : exec (.resetNRise x) s = execResetNRise x s := rfl
theorem exec_refsynLocked : exec .refsynLocked s = execRefsynLocked s := rfl
theorem exec_startupInitDone (failed : List (Fin 36)) (ok : Bool) :
    exec (.startupInitDone failed ok) s = execStartupInitDone failed ok s := rfl
theorem exec_nvRecoveryDone : exec .nvRecoveryDone s = execNvRecoveryDone s := rfl
theorem exec_flmLinkReady : exec .flmLinkReady s = execFlmLinkReady s := rfl

/-- A field written with a Bool that fits reads it as 0 or 1. -/
theorem State.f_setb (x : Fld) (b : Bool) (hx : x.lo + x.width ≤ 32) (hw : 1 ≤ x.width) : (s.setb x b).f x = b2n b := by
  unfold State.setb
  rw [s.f_setf x _ hx]
  refine Nat.mod_eq_of_lt (Nat.lt_of_lt_of_le ?_ (Nat.pow_le_pow_right (by decide) hw))
  cases b <;> decide

/-- The registers that show the straps, written with them (R688). -/
def State.strapsShown (x : Straps) : State :=
  (s.setw TOP.STRAP (xoKhz x.xofreq.toNat * 2 ^ 8 + x.xofreq.toNat)).setb FLM.STATE_NAND x.nand

/-- The state once the straps are sampled. -/
def State.strapped (x : Straps) : State :=
  let t := s.strapsShown x
  { t with top := { t.top with phase := .straps }, flm := { t.flm with nand := x.nand } }

theorem State.regs_strapped (x : Straps) : (s.strapped x).regs = (s.strapsShown x).regs := rfl

theorem State.xofreq_strapped (x : Straps) : (s.strapped x).f TOP.STRAP_XOFREQ = x.xofreq.toNat := by
  rw [State.f_congr _ (s.regs_strapped x)]
  refine (State.f_setf_key _ _ _ _ (by decide)).trans ?_
  unfold State.f
  rw [State.w_setw_self]
  have := x.xofreq.isLt
  simp only [Fld.width]
  omega

theorem State.nand_strapped (x : Straps) : (s.strapped x).f FLM.STATE_NAND = b2n x.nand := by
  rw [State.f_congr _ (s.regs_strapped x)]
  exact State.f_setb _ _ _ (by decide) (by decide)

theorem State.execResetNRise_eq (x : Straps) (hp : s.top.phase = .held) (ht : s.sec.tapHold = false) :
    execResetNRise x s = .next (s.strapped x) := by
  unfold execResetNRise
  rw [if_neg (by rw [hp, ht]; decide)]
  rfl

/-- The lock of the reference synthesiser is followed by code 26 (R71). -/
theorem State.refsynLocked_commands (hp : s.top.phase = .straps) (hx : s.on FLT.DEVICE_XOIN = false) :
    ∃ t, execRefsynLocked s = .next t ∧ t.top.phase = .refsyn ∧ t.pwr.code = 26 ∧ t.f PWR.AVS_STATUS_CODE = 26 := by
  unfold execRefsynLocked
  rw [if_neg (by rw [hx]; decide)]
  extract_lets t
  rw [if_pos (by rw [State.top_setf, hp])]
  exact ⟨_, rfl, rfl, rfl, State.f_setf _ _ _ (by decide)⟩

/-- Engines that become pontoons change no scratchpad but their own. -/
theorem State.byte_foldl_toPontoon_above (l : List Nat) {m k : Nat} (hl : ∀ e ∈ l, e < m) (hk : m * spSize ≤ k) :
    (l.foldl State.toPontoon s).byte k = s.byte k := by
  induction l generalizing s with
  | nil => rfl
  | cons e l ih =>
    have he := hl e List.mem_cons_self
    exact (ih _ (fun x hx => hl x (List.mem_cons_of_mem _ hx))).trans
      (s.byte_toPontoon_above e (Nat.le_trans (Nat.mul_le_mul_right _ he) hk))

/-- The state in which initialisation makes its pontoons: every byte of memory is 0. -/
def State.cleared : State := { s with mem := [], ecc := [], top := { s.top with phase := .init } }

theorem State.execStartupInitDone_eq (hp : s.top.phase = .refsyn) (hf : s.sec.fuse = []) :
    execStartupInitDone [] true s = .next (s.cleared.forN 36 State.toPontoon) := by
  unfold execStartupInitDone
  rw [if_neg (by rw [hp]; decide), hf]
  simp only [List.any_nil, Bool.false_eq_true, if_false]
  rfl

theorem State.top_pontoons (t : State) (m : Nat) : (t.forN m State.toPontoon).top = t.top :=
  (Moves.forN (Moves.refl t) (fun _ _ h => h.toPontoon (Sub.refl _))).p8 rfl

/-- Initialisation ends with the scratchpads of no engine filled with zeros (R630). -/
theorem State.byte_pontoons_above (t : State) {m a : Nat} (ha : m * spSize ≤ a) : (t.forN m State.toPontoon).byte a = t.byte a :=
  t.byte_foldl_toPontoon_above (List.range m) (fun _ he => List.mem_range.1 he) ha

/-! The recovery of NV. -/

/-- Start-up is past recovery, with the array as given and the shadow taken from it (R645). -/
structure State.Recovered (array : Tab Byte) (t : State) : Prop where
  phase : t.top.phase = .nv
  shadow : t.nv.shadow = t.nv.array
  sys : t.nv.sys = t.nv.sysArray
  array : t.nv.array = array

theorem State.recovered_takeArray : State.Recovered s.nv.array s.takeArray := ⟨rfl, rfl, rfl, rfl⟩

variable {s} {array : Tab Byte}

theorem State.Recovered.of_eq {t : State} (h : State.Recovered array s) (ht : t.top = s.top) (hn : t.nv = s.nv) :
    State.Recovered array t :=
  ⟨by rw [ht]; exact h.phase, by rw [hn]; exact h.shadow, by rw [hn]; exact h.sys, by rw [hn]; exact h.array⟩

/-- A logbook record is staged beside the shadow and the array. -/
theorem State.Recovered.logDev (h : State.Recovered array s) (kind : Nat) (data : List Byte) :
    State.Recovered array (s.logDev kind data) := ⟨h.phase, h.shadow, h.sys, h.array⟩

theorem State.Recovered.ev (h : State.Recovered array s) (x : Fld) : State.Recovered array (s.ev x) :=
  h.of_eq (s.top_ev x) (s.nv_ev x)

variable (s)

/-- Without an interrupted commit there is nothing to recover. -/
theorem State.recoverCommit_none (h : s.nv.commit = none) : s.recoverCommit = (s, 0) := by
  unfold State.recoverCommit
  rw [h]

/-- What recovery shows of NV, and the floors of the time scales, once the shadow is the array's. -/
def State.nvShown (r : Nat) : State :=
  (((s.setf NV.STATUS_RECOVERY r).restoreBoot.restoreMan.showPasswords).showLog).forN 8 (fun s k =>
    let f := Tab.get (fun _ => 0) s.nv.floor.secs k
    (s.modTsc k (fun c => { c with floor := f })).setw (TSC.FLOOR k) f)

theorem State.moves_nvShown (r : Nat) : Moves 0x20080004 s (s.nvShown r) := by
  have shown : Moves 0x20080004 s (((s.setf NV.STATUS_RECOVERY r).restoreBoot.restoreMan.showPasswords).showLog) :=
    Moves.showLog (Moves.showPasswords (Moves.restoreMan (Moves.restoreBoot (Moves.setf (Moves.refl s) rfl) rfl) rfl) rfl) rfl
  exact Moves.forN shown (fun t k h => Moves.setw (Moves.modTsc h rfl) rfl)

/-- Recovery ends with the shadow taken from the array, and the loss of power forgotten. -/
theorem State.nvRecoveryDone_recovers (hp : s.top.phase = .init) :
    ∃ t, execNvRecoveryDone s = .next t ∧ t.top.powerLost = false ∧ State.Recovered s.recoverCommit.1.nv.array t := by
  unfold execNvRecoveryDone
  rw [if_neg (by rw [hp]; decide)]
  split
  next u r committed =>
  rw [committed]
  extract_lets last _ _ shown logged lost v
  have recovered : State.Recovered u.nv.array shown :=
    u.recovered_takeArray.of_eq ((u.takeArray.moves_nvShown r).p8 rfl) ((u.takeArray.moves_nvShown r).p16 rfl)
  have told : State.Recovered u.nv.array v := by
    unfold v
    split
    · exact ((recovered.logDev _ _).ev _).logDev _ _
    · exact recovered.logDev _ _
  exact ⟨_, rfl, rfl, told.phase, told.shadow, told.sys, told.array⟩

/-! The flash link. -/

/-- With the link up, FAB waits for a regulated window (R71). -/
theorem State.flmLinkReady_waits (hp : s.top.phase = .nv) (hr : s.pwr.regulated = false) :
    ∃ t, execFlmLinkReady s = .next t ∧ t.top.phase = .flm := by
  unfold execFlmLinkReady
  rw [if_neg (by rw [hp]; decide)]
  extract_lets _ u shown p v
  have linked : Moves 0x10004 u shown := Moves.showDirectory (Moves.setf (Moves.refl u) rfl) rfl
  have waits : Moves 0x10004 u v := Moves.ite linked (Moves.logDev (Moves.commitBoot (Moves.setf linked rfl) rfl) rfl)
  rw [waits.p9 rfl, if_neg (by rw [show u.pwr = s.pwr from rfl, hr]; decide)]
  exact ⟨v, rfl, by rw [waits.p8 rfl]⟩

end

/-- Settles O10: each step of start-up by its own lemma. -/
theorem startUpSteps : Obligations.StartUpSteps := by
  unfold Obligations.StartUpSteps
  refine ⟨fun x s hp ht => ?_, fun s hp hx => ?_, fun s hp hf => ?_, fun s hp => ?_, fun s hp hr => ?_⟩
  · rw [exec_resetNRise, s.execResetNRise_eq x hp ht]
    exact ⟨_, rfl, rfl, s.xofreq_strapped x, s.nand_strapped x, rfl⟩
  · rw [exec_refsynLocked]
    exact s.refsynLocked_commands hp hx
  · rw [exec_startupInitDone, s.execStartupInitDone_eq hp hf]
    refine ⟨_, rfl, ?_, fun a ha => ?_⟩
    · rw [State.top_pontoons]
      rfl
    · rw [State.byte_pontoons_above _ ha]
      rfl
  · obtain ⟨t, ran, lost, phase, shadow, sys, array⟩ := s.nvRecoveryDone_recovers hp
    exact ⟨t, (exec_nvRecoveryDone s).trans ran, phase, lost, shadow, sys, fun h => by rw [array, s.recoverCommit_none h]⟩
  · rw [exec_flmLinkReady]
    exact s.flmLinkReady_waits hp hr

end Sys2Proof.Machine
end

section
/-! PROOFS. Reads that clear (O19): what a whole-word read of a status register through the normal view answers, and what it leaves. -/

namespace Sys2Proof.Machine

/-! The bits of a register's fields. -/

/-- The RC bits of a register. -/
abbrev RegDef.rcBits (d : RegDef) : Nat := d.bits (fun f => f.acc == .rc)

/-- A condition that picks no field of a register picks no bit of it. -/
theorem RegDef.bits_eq_zero (d : RegDef) {g : FieldDef → Bool} (h : ∀ f ∈ d.fields, g f = false) : d.bits g = 0 := by
  have keeps : ∀ (l : List FieldDef) (a : Nat), (∀ f ∈ l, g f = false) → l.foldl (fun a f => if g f then a + f.mask else a) a = a := by
    intro l
    induction l with
    | nil => exact fun a _ => rfl
    | cons f l ih =>
      intro a none
      obtain ⟨hf, hl⟩ := List.forall_mem_cons.1 none
      rw [List.foldl_cons, hf]
      exact ih a hl
  exact keeps d.fields 0 h

/-- A status register shows all its bits. -/
theorem RegDef.hidden_of_status {d : RegDef} (h : d.status = true) : d.hidden = 0 := by
  refine d.bits_eq_zero fun f hf => ?_
  have kinds := List.all_eq_true.1 h f hf
  rcases Bool.or_eq_true_iff.1 kinds with ro | rc
  · rw [eq_of_beq ro]
    rfl
  · rw [eq_of_beq rc]
    rfl

/-- A register whose fields are all RO has no RC bit. -/
theorem RegDef.rcBits_readOnly (d : RegDef) : d.readOnly.rcBits = 0 := by
  refine d.readOnly.bits_eq_zero fun f hf => ?_
  obtain ⟨g, -, rfl⟩ := List.mem_map.1 hf
  rfl

/-- No register stands past the last block of the block map. -/
theorem blockRegs_past (b : Nat) (h : 0xA1 < b) : blockRegs b = [] := by
  unfold blockRegs
  repeat rw [if_neg (by omega)]

/-- The RC bits of every register of the tables lie in its word. -/
theorem rcBits_lt_of_mem_blockRegs {b : Nat} {d : RegDef} (h : d ∈ blockRegs b) : d.rcBits < 2 ^ 32 := by
  have tables : ∀ b ≤ 0xA1, ∀ d ∈ blockRegs b, d.rcBits < 2 ^ 32 := by decide +kernel
  rcases Nat.lt_or_ge 0xA1 b with past | mapped
  · rw [blockRegs_past b past] at h
    cases h
  · exact tables b mapped d h

/-- The RC bits of a register that a port finds outside HOST lie in its word. -/
theorem State.rcBits_lt_of_regFind (s : State) {p : Port} {b o : Nat} {d : RegDef} (hb : b ≠ 1)
    (found : s.regFind p b o = some d) : d.rcBits < 2 ^ 32 := by
  have listed : ∀ e, (if s.regHas p b o then (blockRegs b).find? (fun d => d.covers (b - blockFirst b) o) else none) = some e →
      e.rcBits < 2 ^ 32 := by
    intro e he
    split at he
    · exact rcBits_lt_of_mem_blockRegs (List.mem_of_find?_eq_some he)
    · cases he
  unfold State.regFind at found
  simp only [hb, false_and, if_false] at found
  split at found
  · obtain ⟨e, -, rfl⟩ := Option.map_eq_some_iff.1 found
    rw [e.rcBits_readOnly]
    decide
  · exact listed d found

/-- What two words share and what either has add up to both. -/
theorem and_add_or (w m : Nat) : (w &&& m) + (w ||| m) = w + m := by
  induction w using Nat.binaryRec' generalizing m with
  | zero => simp
  | bit a w _ ih =>
    obtain ⟨b, m, rfl⟩ : ∃ b n, m = Nat.bit b n := ⟨_, _, (Nat.bit_bodd_div2 m).symm⟩
    have halves := ih m
    rw [Nat.land_bit, Nat.lor_bit]
    cases a <;> cases b <;> simp [Nat.bit] <;> omega

/-- A word of which some bits take those of another value is a word. -/
theorem replaced_lt {w m : Nat} (r : Nat) (hw : w < 2 ^ 32) (hm : m < 2 ^ 32) : w - (w &&& m) + (r &&& m) < 2 ^ 32 := by
  have meet := and_add_or w m
  have joined : w ||| m < 2 ^ 32 := Nat.or_lt_two_pow hw hm
  have taken : r &&& m ≤ m := Nat.and_le_right
  omega

/-- The bits that a mask of low bits clears are 0. -/
theorem sub_and_mod (w n : Nat) : (w - (w &&& (2 ^ n - 1)) + (0 &&& (2 ^ n - 1))) % 2 ^ n = 0 := by
  rw [Nat.and_two_pow_sub_one_eq_mod, Nat.zero_and, Nat.add_zero]
  exact Nat.sub_mod_eq_zero_of_mod_eq (Nat.mod_mod _ _).symm

section

variable (s : State)

/-! What `status` and the words returned leave. -/

theorem State.regFind_status (p q : Port) (c : Code) (b o : Nat) : (s.status p c).regFind q b o = s.regFind q b o := by
  cases p <;> rfl

theorem State.built_status (p : Port) (c : Code) (b : Nat) : (s.status p c).built b = s.built b := by
  cases p <;> rfl

theorem State.holds_status (p q : Port) (c : Code) (b : Nat) : (s.status p c).holds q b = s.holds q b := by
  cases p <;> rfl

theorem State.shown_status (p q : Port) (c : Code) (b o : Nat) : (s.status p c).shown q b o = s.shown q b o := by
  cases p <;> rfl

theorem State.code_status (p : Port) (c : Code) : ((s.status p c).hostC p).code = c := by
  cases p <;> rfl

theorem State.w_status (p : Port) (c : Code) (k : Nat) : (s.status p c).w k = s.w k := s.w_congr (s.regs_status p c) k

theorem State.regs_returned (p : Port) (ws : List Nat) : (s.returned p ws).regs = s.regs := s.regs_modHost p _

theorem State.data_returned (p : Port) (ws : List Nat) : ((s.returned p ws).hostC p).data = ws.map (BitVec.ofNat 32) := by
  cases p <;> rfl

theorem State.code_returned (p : Port) (ws : List Nat) : ((s.returned p ws).hostC p).code = (s.hostC p).code := by
  cases p <;> rfl

/-! What the clearing of RC bits leaves. -/

/-- The bits `m` of a register return to those of its reset value. -/
def State.rcCleared (k m r : Nat) : State := if m = 0 then s else s.setw k (s.w k - (s.w k &&& m) + (r &&& m))

theorem State.w_rcCleared_self (k r : Nat) {m : Nat} (hm : m < 2 ^ 32) :
    (s.rcCleared k m r).w k = s.w k - (s.w k &&& m) + (r &&& m) := by
  unfold State.rcCleared
  split
  next none => rw [none, Nat.and_zero, Nat.and_zero, Nat.sub_zero, Nat.add_zero]
  next => rw [State.w_setw_self, Nat.mod_eq_of_lt (replaced_lt r (s.w_lt k) hm)]

theorem State.w_rcCleared_other (k m r : Nat) {j : Nat} (h : j ≠ k) : (s.rcCleared k m r).w j = s.w j := by
  unfold State.rcCleared
  split
  · rfl
  · exact s.w_setw_other k _ h

/-- What a whole-word read clears: the RC bits, and BUSERR with the sticky bit that stands for it (R66). -/
theorem State.clearBits_word (p : Port) (b o : Nat) {d : RegDef} (hd : d.rcBits < 2 ^ 32) :
    s.clearBits d p b o (laneMask 0 4) =
      if regKey p b o = PWR.AVS_EVENT ∧ bitAt d.rcBits 2 then
        (s.rcCleared (regKey p b o) d.rcBits d.resetWord).setf PWR.AVS_STATUS_BUSERR 0
      else s.rcCleared (regKey p b o) d.rcBits d.resetWord := by
  have whole : d.rcBits &&& laneMask 0 4 = d.rcBits := Nat.and_two_pow_sub_one_of_lt_two_pow hd
  unfold State.clearBits
  rw [whole]
  rfl

/-- A read by a port that may clear the register returns its RC bits to their reset value; any other read leaves the state. -/
def State.readCleared (p : Port) (b o : Nat) (d : RegDef) : State :=
  if portRelative b o || s.holds p b then s.clearBits d p b o (laneMask 0 4) else s

theorem State.hostC_readCleared (p q : Port) (b o : Nat) (d : RegDef) : (s.readCleared p b o d).hostC q = s.hostC q := by
  have moved : Moves 0x4 s (s.readCleared p b o d) := Moves.ite (Moves.clearBits (Moves.refl s) (Sub.refl _)) (Moves.refl s)
  cases q
  · exact moved.p14 rfl
  · exact moved.p15 rfl

section

variable {p : Port} {b o : Nat} {d : RegDef} (hd : d.rcBits < 2 ^ 32) (hk : regKey p b o ≠ PWR.AVS_EVENT)

include hd hk

theorem State.clearBits_other : s.clearBits d p b o (laneMask 0 4) = s.rcCleared (regKey p b o) d.rcBits d.resetWord := by
  rw [s.clearBits_word p b o hd, if_neg (fun h => hk h.1)]

theorem State.w_readCleared_self :
    (s.readCleared p b o d).w (regKey p b o) =
      if portRelative b o || s.holds p b then
        s.w (regKey p b o) - (s.w (regKey p b o) &&& d.rcBits) + (d.resetWord &&& d.rcBits)
      else s.w (regKey p b o) := by
  unfold State.readCleared
  rw [s.clearBits_other hd hk]
  split
  · exact s.w_rcCleared_self _ _ hd
  · rfl

theorem State.w_readCleared_other {j : Nat} (hj : j ≠ regKey p b o) : (s.readCleared p b o d).w j = s.w j := by
  unfold State.readCleared
  rw [s.clearBits_other hd hk]
  split
  · exact s.w_rcCleared_other _ _ _ hj
  · rfl

end

/-- The other addresses of BAR0 are not those of PWR.AVS_EVENT at either port. -/
theorem regKey_ne_avsEvent (p : Port) {K : Nat} (hK : K < 0x1000000) (h : K ≠ PWR.AVS_EVENT) :
    regKey p (K / 0x10000) (K % 0x10000) ≠ PWR.AVS_EVENT := by
  unfold regKey
  split
  next own =>
    have block : K / 0x10000 = 1 ∨ K / 0x10000 = 2 := by
      unfold portRelative at own
      split at own
      · left; assumption
      · right; exact eq_of_beq (Bool.and_eq_true_iff.1 own).1
    cases p <;> simp only [portBase, PWR.AVS_EVENT] at * <;> omega
  next => rw [PWR.AVS_EVENT] at *; omega

/-! A whole-word read of a status register. -/

/-- A port reaches the device, and the normal view at a BAR0 offset is that of a status register which answers reads (R591) and is no
mailbox word. -/
structure State.ShowsStatus (p : Port) (K : Nat) (d : RegDef) : Prop where
  inBar : K < 0x1000000
  normal : K % 0x10000 < 0x4000
  aligned : K % 4 = 0
  noMailbox : K / 0x10000 = 1 → K % 0x10000 < 0x1000
  reached : s.reaches p = true
  found : s.regFind p (K / 0x10000) (K % 0x10000) = some d
  kind : d.status = true
  built : s.built (K / 0x10000) = true
  landed : s.landedFor (K / 0x10000) = true

variable {s} {p : Port} {K : Nat} {d : RegDef}

/-- The read passes its checks. -/
theorem State.ShowsStatus.readCode (h : s.ShowsStatus p K d) : s.readCode p K = .ok := by
  have offset : K % 0x4000 = K % 0x10000 := by have := h.normal; omega
  simp [State.readCode, offset, h.aligned, h.found, h.landed]

/-- What the read answers and clears. -/
theorem State.ShowsStatus.readDone (h : s.ShowsStatus p K d) :
    (s.status p .ok).readDone p K 4 =
      ((s.status p .ok).readCleared p (K / 0x10000) (K % 0x10000) d, s.shown p (K / 0x10000) (K % 0x10000) % 2 ^ 32) := by
  have offset : K % 0x4000 = K % 0x10000 := by have := h.normal; omega
  have noOutput : ∀ t : State, t.outputRead p K 4 = t := fun t => if_neg (fun x => by have := h.noMailbox x.1; omega)
  simp [State.readDone, State.readCleared, offset, noOutput, h.normal, h.aligned, h.kind, h.built, h.found,
    RegDef.hidden_of_status h.kind, State.regFind_status, State.built_status, State.shown_status]

/-- The read as a whole. -/
theorem State.ShowsStatus.hostRead (h : s.ShowsStatus p K d) :
    s.hostRead p ⟨BitVec.ofNat 24 K, .b4, 0xF, 0⟩ =
      ((s.status p .ok).readCleared p (K / 0x10000) (K % 0x10000) d).returned p
        [s.shown p (K / 0x10000) (K % 0x10000) % 2 ^ 32] := by
  have addr : (BitVec.ofNat 24 K).toNat = K := by rw [BitVec.toNat_ofNat]; exact Nat.mod_eq_of_lt h.inBar
  simp [State.hostRead, accessShape, h.reached, h.aligned, addr, h.readCode, Width.bytes, h.readDone]

theorem State.ShowsStatus.code_hostRead (h : s.ShowsStatus p K d) :
    ((s.hostRead p ⟨BitVec.ofNat 24 K, .b4, 0xF, 0⟩).hostC p).code = .ok := by
  rw [h.hostRead, State.code_returned, State.hostC_readCleared, State.code_status]

theorem State.ShowsStatus.data_hostRead (h : s.ShowsStatus p K d) :
    ((s.hostRead p ⟨BitVec.ofNat 24 K, .b4, 0xF, 0⟩).hostC p).data =
      [BitVec.ofNat 32 (s.shown p (K / 0x10000) (K % 0x10000))] := by
  have word : ∀ n : Nat, BitVec.ofNat 32 (n % 2 ^ 32) = BitVec.ofNat 32 n := fun n =>
    BitVec.eq_of_toNat_eq (by rw [BitVec.toNat_ofNat, BitVec.toNat_ofNat, Nat.mod_mod])
  rw [h.hostRead, State.data_returned, List.map_singleton, word]

theorem State.ShowsStatus.regs_hostRead (h : s.ShowsStatus p K d) :
    (s.hostRead p ⟨BitVec.ofNat 24 K, .b4, 0xF, 0⟩).regs =
      ((s.status p .ok).readCleared p (K / 0x10000) (K % 0x10000) d).regs := by
  rw [h.hostRead, State.regs_returned]

/-- The register read, where it is not PWR.AVS_EVENT. -/
theorem State.ShowsStatus.w_hostRead_self (h : s.ShowsStatus p K d) (hd : d.rcBits < 2 ^ 32) (hK : K ≠ PWR.AVS_EVENT) :
    (s.hostRead p ⟨BitVec.ofNat 24 K, .b4, 0xF, 0⟩).w (regKey p (K / 0x10000) (K % 0x10000)) =
      if portRelative (K / 0x10000) (K % 0x10000) || s.holds p (K / 0x10000) then
        s.w (regKey p (K / 0x10000) (K % 0x10000)) - (s.w (regKey p (K / 0x10000) (K % 0x10000)) &&& d.rcBits) +
          (d.resetWord &&& d.rcBits)
      else s.w (regKey p (K / 0x10000) (K % 0x10000)) := by
  rw [State.w_congr _ h.regs_hostRead, State.w_readCleared_self _ hd (regKey_ne_avsEvent p h.inBar hK), State.holds_status,
    State.w_status]

/-- The other registers, where it is not PWR.AVS_EVENT. -/
theorem State.ShowsStatus.w_hostRead_other (h : s.ShowsStatus p K d) (hd : d.rcBits < 2 ^ 32) (hK : K ≠ PWR.AVS_EVENT) {j : Nat}
    (hj : j ≠ regKey p (K / 0x10000) (K % 0x10000)) :
    (s.hostRead p ⟨BitVec.ofNat 24 K, .b4, 0xF, 0⟩).w j = s.w j := by
  rw [State.w_congr _ h.regs_hostRead, State.w_readCleared_other _ hd (regKey_ne_avsEvent p h.inBar hK) hj, State.w_status]

end

/-! HOST.EVENT and PWR.AVS_EVENT in their tables. -/

section

variable (s : State)

theorem State.showsStatus_hostEvent (p : Port) (reached : s.reaches p = true) :
    ∃ d, s.ShowsStatus p (HOST.EVENT .a) d ∧ d.rcBits = 63 ∧ d.resetWord = 0 := by
  cases p <;>
    exact ⟨_, ⟨by decide, by decide, by decide, by decide, reached, rfl, by decide, rfl, rfl⟩, rfl, rfl⟩

theorem State.showsStatus_avsEvent (p : Port) (reached : s.reaches p = true) :
    ∃ d, s.ShowsStatus p PWR.AVS_EVENT d ∧ d.rcBits = 15 ∧ d.resetWord = 0 :=
  ⟨_, ⟨by decide, by decide, by decide, by decide, reached, rfl, by decide, rfl, rfl⟩, rfl, rfl⟩

/-- The AVS_EVENT read of a port that holds the helm of PWR. -/
theorem State.readCleared_avsEvent {p : Port} {d : RegDef} (helm : s.holds p 5 = true) (hd : d.rcBits = 15) (reset : d.resetWord = 0) :
    s.readCleared p 5 0xC d = (s.rcCleared PWR.AVS_EVENT 15 0).setf PWR.AVS_STATUS_BUSERR 0 := by
  unfold State.readCleared
  rw [helm, Bool.or_true, if_pos rfl, s.clearBits_word p 5 0xC (by rw [hd]; decide), hd, reset]
  exact if_pos ⟨rfl, by decide⟩

/-- That of a port without the helm of PWR. -/
theorem State.readCleared_avsEvent_of_not_helm {p : Port} (d : RegDef) (helm : s.holds p 5 = false) : s.readCleared p 5 0xC d = s := by
  unfold State.readCleared
  rw [helm]
  rfl

end

theorem exec_clearingRead (p : Port) (a : Access) (s : State) : exec (.clearingRead p a) s = .next (s.hostRead p a) := rfl

theorem exec_avsEventRead (p : Port) (s : State) :
    exec (.avsEventRead p) s = .next (s.hostRead p ⟨BitVec.ofNat 24 PWR.AVS_EVENT, .b4, 0xF, 0⟩) := rfl

/-- Settles O19: what a read of a status register leaves; the two registers that are named have their own table lines. -/
theorem readsThatClear : Obligations.ReadsThatClear := by
  unfold Obligations.ReadsThatClear
  refine ⟨fun p K s d inBar normal aligned hK host reached found kind built landed => ?_, fun p s reached => ?_,
    fun p s reached helm => ?_, fun p s reached helm => ?_⟩
  · have h : s.ShowsStatus p K d := ⟨inBar, normal, aligned, fun e => absurd e host, reached, found, kind, built, landed⟩
    have hd := s.rcBits_lt_of_regFind host found
    exact ⟨_, exec_clearingRead p _ s, h.code_hostRead, h.data_hostRead, h.w_hostRead_self hd hK, fun j => h.w_hostRead_other hd hK⟩
  · obtain ⟨d, h, rc, reset⟩ := s.showsStatus_hostEvent p reached
    have hd : d.rcBits < 2 ^ 32 := by rw [rc]; decide
    have key : regKey p (HOST.EVENT .a / 0x10000) (HOST.EVENT .a % 0x10000) = HOST.EVENT p := by cases p <;> rfl
    have word := h.w_hostRead_self hd (by decide)
    rw [key, rc, reset] at word
    refine ⟨_, exec_clearingRead p _ s, ?_, ?_, fun j hj => h.w_hostRead_other hd (by decide) (by rwa [key])⟩
    · rw [h.data_hostRead]
      cases p <;> rfl
    · rw [word]
      exact sub_and_mod _ 6
  · obtain ⟨d, h, rc, reset⟩ := s.showsStatus_avsEvent p reached
    have regs := h.regs_hostRead.trans (congrArg State.regs
      ((s.status p .ok).readCleared_avsEvent ((s.holds_status p p .ok 5).trans helm) rc reset))
    refine ⟨_, exec_avsEventRead p s, h.data_hostRead, ?_, ?_, ?_⟩
    · rw [State.w_congr _ regs, State.w_setf_other _ _ _ (by decide), State.w_rcCleared_self _ _ _ (by decide)]
      exact sub_and_mod _ 4
    · rw [State.f_congr _ regs, State.f_setf _ _ _ (by decide), Nat.zero_mod]
    · rw [State.f_congr _ regs, State.f_setf_bits _ _ _ _ (by decide) (by decide)]
      exact State.f_of_w _ _ ((State.w_rcCleared_other _ _ _ _ (by decide)).trans (s.w_status p .ok _))
  · obtain ⟨d, h, -, -⟩ := s.showsStatus_avsEvent p reached
    have regs := h.regs_hostRead.trans (congrArg State.regs
      ((s.status p .ok).readCleared_avsEvent_of_not_helm d ((s.holds_status p p .ok 5).trans helm)))
    exact ⟨_, exec_avsEventRead p s, h.data_hostRead, regs.trans (s.regs_status p .ok)⟩

end Sys2Proof.Machine
end

section
/-! PROOFS. Numbers in range (O6). The image in force and the attachments of berths bound the numbers; what leaves FAB and the berths
alone keeps them in range by the laws of `Moves`, and here are the rules for what does not. -/

set_option Elab.async false

namespace Sys2Proof.Machine

/-- The loops of an image are numbered 0 to 31, its selectors 0 to 15. -/
structure Image.InRange (i : Image) : Prop where
  loops : ∀ r ∈ i.loops, r.loop < 32
  selectors : ∀ r ∈ i.selectors, r.selector < 16

/-- A berth is attached to nothing, or to an entry below 32 of a selector below 16. -/
def Berth.InRange (b : Berth) : Prop := ∀ a, b.att = some a → a.1 < 16 ∧ a.2.1 < 32

/-- The image in force and the berths have their numbers in range. -/
structure State.InRange (s : State) : Prop where
  image : ∀ i, s.fab.img = some i → i.InRange
  berths : ∀ x ∈ s.berth, x.2.InRange

/-- `State.numbered` says it as a Bool. -/
theorem State.numbered_iff (s : State) : s.numbered = true ↔ s.InRange := by
  have image : (s.loopRecs.all (fun r => decide (r.loop < 32)) &&
      ((s.fab.img.map (·.selectors)).getD []).all (fun r => decide (r.selector < 16))) = true ↔
      ∀ i, s.fab.img = some i → i.InRange := by
    unfold State.loopRecs
    cases s.fab.img with
    | none => simp
    | some i => simpa using ⟨fun ⟨l, k⟩ => ⟨l, k⟩, fun h => ⟨h.loops, h.selectors⟩⟩
  have berths : s.berth.all (fun x => match x.2.att with
      | some a => decide (a.1 < 16) && decide (a.2.1 < 32) | none => true) = true ↔ ∀ x ∈ s.berth, x.2.InRange := by
    rw [List.all_eq_true]
    refine forall₂_congr fun x _ => ?_
    unfold Berth.InRange
    cases x.2.att <;> simp
  unfold State.numbered
  rw [Bool.and_eq_true, image]
  exact (and_congr_right' berths).trans ⟨fun ⟨i, b⟩ => ⟨i, b⟩, fun h => ⟨h.image, h.berths⟩⟩

/-- All parts of the state but FAB and the berths, which are parts 10 and 34 (`Part.index`). -/
def besideNumbers : Nat := 0xBFFFFFBFF

/-- An answer whose state is in range. -/
def AnswerInRange {α : Type} (r : State × α) : Prop := r.1.InRange

/-- Every next state of an outcome is in range. -/
def OutcomeInRange (o : Host.Outcome State Fault Refusal) : Prop := ∀ t, o = .next t → t.InRange

variable {s t : State}

namespace State.InRange

/-- Two states that agree in FAB's image and in the berths. -/
theorem same (h : s.InRange) (image : t.fab.img = s.fab.img) (berths : t.berth = s.berth) : t.InRange where
  image := by rw [image]; exact h.image
  berths := by rw [berths]; exact h.berths

/-- FAB keeps its image. -/
theorem fab (h : s.InRange) {load heldJob op handover} :
    ({ s with fab := ⟨s.fab.img, load, heldJob, op, handover⟩ } : State).InRange := ⟨h.image, h.berths⟩

/-- An image comes in force. -/
theorem fabImage (h : s.InRange) {load heldJob op handover} {i : Option Image} (hi : ∀ x, i = some x → x.InRange) :
    ({ s with fab := ⟨i, load, heldJob, op, handover⟩ } : State).InRange := ⟨hi, h.berths⟩

/-- What the units hold beside FAB and the berths changes. -/
theorem units (h : s.InRange) {top pwr flt cfg flm sec xlk eng} :
    ({ s with top := top, pwr := pwr, flt := flt, cfg := cfg, flm := flm, sec := sec, xlk := xlk, eng := eng } : State).InRange :=
  ⟨h.image, h.berths⟩

/-- What the stores of memory, flash and manifests hold changes. -/
theorem stores (h : s.InRange) {scrub nv man} : ({ s with scrub := scrub, nv := nv, man := man } : State).InRange :=
  ⟨h.image, h.berths⟩

/-- The commands that wait change. -/
theorem queued (h : s.InRange) {l : List Instr} : ({ s with pending := l } : State).InRange := ⟨h.image, h.berths⟩

/-- An operation that reaches neither FAB nor the berths, by the laws of `Moves`, which look for a bound of their parts in the context. -/
theorem frame (h : s.InRange)
    (m : Sub besideNumbers besideNumbers → Moves besideNumbers s s → Moves besideNumbers s t) : t.InRange :=
  have m := m (.refl _) (.refl s)
  h.same (congrArg FabCore.img (m.p10 rfl)) (m.p34 rfl)

/-- A command that reaches neither FAB nor the berths. -/
theorem ends (h : s.InRange) {o : Host.Outcome State Fault Refusal} (m : Ends besideNumbers s o) : OutcomeInRange o :=
  fun t e => h.frame fun _ _ => m t e

/-! Choices and repetitions. -/

/-- What follows from a state in range, where an operation goes on in several ways. -/
theorem bind {p : Prop} (h : s.InRange) (k : s.InRange → p) : p := k h

theorem next (h : s.InRange) : OutcomeInRange (.next s) := fun _ e => Host.Outcome.next.inj e ▸ h

section
variable {c : Prop} [Decidable c]

theorem ite (h : s.InRange) (k : t.InRange) : (if c then s else t).InRange := by
  split
  · exact h
  · exact k

theorem opt (h : t.InRange) (k : t.InRange → s.InRange) : (if c then s else t).InRange := ite (k h) h

theorem optElse (h : s.InRange) (k : s.InRange → t.InRange) : (if c then s else t).InRange := ite h (k h)
end

theorem forL {α : Type} {g : State → α → State} {l : List α} (h : s.InRange) (k : ∀ t x, t.InRange → (g t x).InRange) :
    (s.forL l g).InRange := by
  unfold State.forL
  induction l generalizing s with
  | nil => exact h
  | cons x l ih => exact ih (k s x h)

theorem forN {g : State → Nat → State} {n : Nat} (h : s.InRange) (k : ∀ t x, t.InRange → (g t x).InRange) :
    (s.forN n g).InRange := h.forL k

theorem when {g : State → State} {c : Bool} (h : s.InRange) (k : ∀ t, t.InRange → (g t).InRange) : (s.when c g).InRange := by
  unfold State.when
  split
  · exact k s h
  · exact h

theorem eachBit {g : State → Nat → State} {w n : Nat} (h : s.InRange) (k : ∀ t x, t.InRange → (g t x).InRange) :
    (s.eachBit w n g).InRange := h.forN fun _ _ h => h.opt (k _ _)

/-! Commands that a port may be refused. -/

theorem doorbell {p : Port} {key : Nat} {pilot : Bool} {g : State → State} (h : s.InRange)
    (k : ∀ t, t.InRange → (g t).InRange) : (s.doorbell p key pilot g).InRange := by
  unfold State.doorbell
  split
  · exact h
  split
  · exact k _ (h.frame fun _ m => m.status)
  · exact h.frame fun _ m => m.busErr

theorem doorbellB {p : Port} {key : Nat} {pilot : Bool} {busy : Fld} {g : State → State} (h : s.InRange)
    (k : ∀ t, t.InRange → (g t).InRange) : (s.doorbellB p key pilot busy g).InRange :=
  h.doorbell fun _ h => .ite (h.frame fun _ m => m.busErr) (k _ h)

/-! Berths. -/

theorem berth (h : s.InRange) (n : Nat) : (s.berthC n).InRange := by
  have read : ∀ t : Tab Berth, (∀ x ∈ t, x.2.InRange) → (Tab.get (fun _ => {}) t n).InRange := by
    intro t ht
    induction t with
    | nil => exact fun a e => by cases e
    | cons x t ih =>
      unfold Tab.get
      split
      · exact ht x List.mem_cons_self
      · exact ih fun y hy => ht y (List.mem_cons_of_mem _ hy)
  exact read _ h.berths

theorem setBerth (h : s.InRange) {n : Nat} {g : Berth → Berth} (hg : (g (s.berthC n)).InRange) : (s.modBerth n g).InRange where
  image := h.image
  berths := by
    intro x hx
    change x ∈ Tab.set (fun _ => {}) s.berth n (g (s.berthC n)) at hx
    unfold Tab.set at hx
    split at hx
    · exact h.berths x (Tab.mem_erase hx).1
    · obtain rfl | old := Tab.mem_insert hx
      · exact hg
      · exact h.berths x (Tab.mem_erase old).1

theorem modBerth (h : s.InRange) {n : Nat} {g : Berth → Berth} (hg : ∀ b, (g b).att = b.att := by exact fun _ => rfl) :
    (s.modBerth n g).InRange :=
  h.setBerth fun a e => h.berth n a (by rw [← hg]; exact e)

/-- A slot takes a berth that is attached to nothing. -/
theorem newBerth (h : s.InRange) {n : Nat} {g : Berth → Berth} (hg : ∀ b, (g b).att = none := by exact fun _ => rfl) :
    (s.modBerth n g).InRange :=
  h.setBerth fun a e => by rw [hg] at e; cases e

end State.InRange

theorem AnswerInRange.mk {α : Type} {x : α} (h : s.InRange) : AnswerInRange (s, x) := h

theorem AnswerInRange.fst {α : Type} {r : State × α} (h : AnswerInRange r) : r.1.InRange := h

theorem AnswerInRange.completeBy {x : Fld} {r : State × Code} (h : AnswerInRange r) : (completeBy x r).InRange :=
  h.fst.frame fun _ m => m.complete

theorem AnswerInRange.ringAnswered {p : Port} {op : Nat} {r : RingRes} (h : AnswerInRange r) : (ringAnswered p op r).InRange := by
  obtain ⟨s, c, r0, r1⟩ := r
  exact State.InRange.frame h fun _ m => Moves.ringAnswered (.mk m)

theorem AnswerInRange.ite {α : Type} {c : Prop} [Decidable c] {r q : State × α} (h : AnswerInRange r) (k : AnswerInRange q) :
    AnswerInRange (if c then r else q) := by
  split
  · exact h
  · exact k

theorem OutcomeInRange.next (h : s.InRange) : OutcomeInRange (.next s) := h.next

theorem OutcomeInRange.ite {c : Prop} [Decidable c] {o q : Host.Outcome State Fault Refusal} (h : OutcomeInRange o)
    (k : OutcomeInRange q) : OutcomeInRange (if c then o else q) := by
  split
  · exact h
  · exact k

/-- The entry that an ordinal names is one of the selector's NCAND, which a field of 5 bits holds. -/
theorem State.berthEntry_lt {n ord k : Nat} (found : s.berthEntry n ord = some k) : k < 32 := by
  unfold State.berthEntry at found
  split at found
  · cases found
  · have listed := List.mem_range.1 (List.mem_of_find?_eq_some found)
    have width : s.ncand n < 2 ^ 5 := Nat.mod_lt _ (Nat.two_pow_pos 5)
    omega

end Sys2Proof.Machine
end

section
/-! PROOFS. Selectors, landings, loops and ports keep numbers in range (O6): they reach FAB only by a load or a full reset, and a berth only by
an event for its queue. -/

set_option Elab.async false

namespace Sys2Proof.Machine

variable {s t : State}

namespace State.InRange

/-! Frames to send, and the event queues of berths. -/

theorem evqPush {slot : Nat} {ws : List Word} (h : s.InRange) : (s.evqPush slot ws).InRange :=
  h.optElse fun h => .ite (h.frame fun _ m => m.inc.ev).modBerth
    ((h.modBerth.frame fun _ m => m.route).opt fun h => h.frame fun _ m => m.raise)

theorem dropped {n : Nat} {f : TxFrame} (h : s.InRange) : (s.dropped n f).InRange := by
  unfold State.dropped
  extract_lets s1
  have h1 : s1.InRange := h.frame fun _ m => m.count
  split
  · exact h1.frame fun _ m => m.tsqPush
  · exact h1.evqPush
  · exact h1

theorem enqueue {n q : Nat} {f : TxFrame} (h : s.InRange) : (s.enqueue n q f).InRange :=
  .ite h.dropped (h.optElse fun h => h.optElse fun h => h.frame fun _ m =>
    ((m.when fun _ m => m.setf).modPrt.when fun _ m => m.preempt).drainAll)

theorem esmcSend {n : Nat} {event : Bool} (h : s.InRange) : (s.esmcSend n event).InRange := (h.frame fun _ m => m.modPrt).enqueue

theorem esmcRefresh (h : s.InRange) : s.esmcRefresh.InRange := h.forN fun _ _ h => h.opt fun h => h.esmcSend

/-! Selectors. -/

theorem selFollow {n : Nat} (h : s.InRange) : (s.selFollow n).InRange :=
  (h.frame fun _ m => m.refreshSel.refreshTrace).esmcRefresh.frame fun _ m => m.refreshGood

theorem follow {n k st cause : Nat} (h : s.InRange) : (s.follow n k st cause).InRange :=
  (h.frame fun _ m => m.modEnt.setf.setf.setf.setf.evIf.evIf.modSel.ev.route.logSwitch.departAll).selFollow

theorem selHoldover {n : Nat} (h : s.InRange) : (s.selHoldover n).InRange :=
  (h.frame fun _ m => m.setf.setf.setf.ev.logSwitch.forL fun _ _ m => m.orderLoop).selFollow

theorem evaluate {n cause : Nat} (h : s.InRange) : (s.evaluate n cause).InRange := by
  unfold State.evaluate
  refine .ite (h.frame fun _ m => m.modSel) ?_
  split
  · exact h
  · exact .ite h.follow (h.opt fun h => h.follow)

theorem holdoffEnd {n : Nat} {back : Bool} (h : s.InRange) : (s.holdoffEnd n back).InRange := by
  unfold State.holdoffEnd
  refine .ite ((h.frame fun _ m => m.when fun _ m => m.setCstate).follow.frame fun _ m => m.modSel).evaluate ?_
  split
  · exact h.follow
  · exact h.selHoldover

theorem enterHoldoff {n : Nat} (h : s.InRange) : (s.enterHoldoff n).InRange :=
  (h.frame fun _ m => m.setf.modSel.ev.logSwitch.forL fun _ _ m => m.freezeLoop).selFollow.opt fun h => h.holdoffEnd

theorem selCheck {ms : List EntryMark} {cause n : Nat} (h : s.InRange) : (s.selCheck ms cause n).InRange :=
  (h.when fun _ h => h.enterHoldoff).bind fun h1 => .ite h1.evaluate.selFollow (h1.when fun _ h => h.evaluate)

theorem entriesCheck {ms : List EntryMark} {cause : Nat} (h : s.InRange) : (s.entriesCheck ms cause).InRange :=
  h.forL fun _ _ h => h.selCheck

theorem entryCheck {n k cause : Nat} (h : s.InRange) : (s.entryCheck n k cause).InRange := (h.frame fun _ m => m.entryStep).selCheck

theorem faults {es : List (Nat × Nat)} {bit : Nat} {b : Bool} (h : s.InRange) : (s.faults es bit b).InRange :=
  (h.frame fun _ m => m.forL fun _ _ m => m.setFault.entryStep).entriesCheck

theorem fault {n k bit : Nat} {b : Bool} (h : s.InRange) : (s.fault n k bit b).InRange := h.faults

theorem refreshRanks {es : List (Nat × Nat)} (h : s.InRange) : (s.refreshRanks es).InRange :=
  (h.frame fun _ m => m.forL fun _ _ m => m.rankStep).entriesCheck

theorem refreshRank {n k : Nat} (h : s.InRange) : (s.refreshRank n k).InRange := h.refreshRanks

theorem giveRank {n k r : Nat} (h : s.InRange) : (s.giveRank n k r).InRange := (h.frame fun _ m => m.putRank).refreshRank

theorem giveRanks {who : Nat} {srcs : List Nat} {r : Nat} (h : s.InRange) : (s.giveRanks who srcs r).InRange :=
  (h.frame fun _ m => m.forL fun _ _ m => m.putRank).refreshRanks

theorem entryResults {xs : List ((Nat × Nat) × Tag × Int × Int)} (h : s.InRange) : (s.entryResults xs).InRange :=
  (h.frame fun _ m => m.forL fun _ _ m => m.resultStep).entriesCheck.frame fun _ m => m.forL fun _ _ m => m.forcedReturn

theorem returnCheck {n k : Nat} {x : Sample} (h : s.InRange) : (s.returnCheck n k x).InRange :=
  h.optElse fun h => .ite (h.frame fun _ m => m.modSel)
    (h.frame fun _ m => m.setCstate.modSel.setf.ev.logSwitch.forL fun _ _ m => m.freezeLoop).holdoffEnd.entryCheck

theorem entrySample {n k : Nat} {tag : Tag} {x : Int × Nat} (h : s.InRange) : (s.entrySample n k tag x).InRange := by
  unfold State.entrySample
  extract_lets e z diff jump s1 s2 s3
  have h1 : s1.InRange := h.frame fun _ m => m.modEnt
  clear_value jump s1
  have h3 : s3.InRange := by
    unfold s3
    split
    · exact .ite (h1.frame fun _ m => m.modEnt.setFault) ((h1.frame fun _ m => m.modEnt).opt fun h => h.frame fun _ m => m.setFault)
    · exact h1
  exact .ite (h.frame fun _ m => m.modEnt) h3.entryCheck.returnCheck

theorem landingActivity {m : Nat} {lost : Bool} (h : s.InRange) : (s.landingActivity m lost).InRange := h.faults

/-! Results and activity of landings. -/

theorem deliverResult {n : Nat} {tag : Tag} {y yRaw : Int} (h : s.InRange) : (s.deliverResult n tag y yRaw).InRange :=
  h.opt fun h => h.entryResults

theorem gapRegression {n flags k endMs : Nat} (h : s.InRange) : (s.gapRegression n flags k endMs).InRange := by
  have h1 : (s.freeWords 5).2.InRange := h.frame fun _ m => (Second.freeWords m).snd
  unfold State.gapRegression
  exact (h1.frame fun _ m => m.publish).deliverResult

theorem abandon {n : Nat} (h : s.InRange) : (s.abandon n).InRange :=
  (h.opt fun h => (h.frame fun _ m => m.modLnd).gapRegression).opt fun h => h.frame fun _ m => m.gapInterval

theorem restartLanding {n : Nat} (h : s.InRange) : (s.restartLanding n).InRange := h.abandon.frame fun _ m => m.beginLanding

theorem refreshActivity {n : Nat} (h : s.InRange) : (s.refreshActivity n).InRange := h.landingActivity

theorem loseActivity {n : Nat} (h : s.InRange) : (s.loseActivity n).InRange :=
  h.optElse fun h => ((h.frame fun _ m => m.setf.modLnd.ev.route).opt fun h => h.frame fun _ m => m.gapInterval.modLnd).refreshActivity

theorem activityEdge {n t : Nat} (h : s.InRange) : (s.activityEdge n t).InRange :=
  (h.frame fun _ m => m.modLnd).opt fun h =>
    ((h.opt fun h => h.frame fun _ m => m.setf).frame fun _ m => m.modLnd.setf.ev.route).refreshActivity

/-! The blocks that a reaction resets. -/

theorem resetFrontEnd {n : Nat} (h : s.InRange) : (s.resetFrontEnd n).InRange := h.restartLanding.frame fun _ m => m.modLnd.setf

theorem streamFault {slot : Nat} {lost : Bool} (h : s.InRange) : (s.streamFault slot lost).InRange := h.faults

theorem portDownWith {n : Nat} {rx : Bool} (h : s.InRange) : (s.portDownWith n rx).InRange :=
  (((((h.frame fun _ m => m.modPrt.setf.setf.modLnd).forL fun _ _ h => h.dropped).opt fun h => h.frame fun _ m => m.count.ev).optElse
    fun h => h.loseActivity).frame fun _ m => m.refreshSettling).forL fun _ _ h => h.streamFault

theorem portDown {n : Nat} (h : s.InRange) : (s.portDown n).InRange := h.portDownWith

theorem retrain {n : Nat} (h : s.InRange) : (s.retrain n).InRange := h.portDown.when fun _ h => h.frame fun _ m => m.setEq

theorem resetPort {n : Nat} (h : s.InRange) : (s.resetPort n).InRange := h.retrain.frame fun _ m => m.ev

/-! Loads, and the full reset. -/

theorem beginLoad {j : LoadJob} (h : s.InRange) : (s.beginLoad j).InRange :=
  ((h.optElse fun h => h.frame fun _ m => m.copySlot).frame fun _ m => m.setf.setf.setf.setf).fab.opt fun h =>
    h.frame fun _ m => m.startSynths

theorem loadExhausted (h : s.InRange) : s.loadExhausted.InRange := h.fab.frame fun _ m => m.setf.raise

theorem tryFlash {order tried : List Nat} {first : Option Nat} (h : s.InRange) : (s.tryFlash order tried first).InRange := by
  unfold State.tryFlash
  split
  · exact h.beginLoad
  · exact (h.opt fun h => h.frame fun _ m => m.setf).loadExhausted

theorem startLoad (h : s.InRange) : s.startLoad.InRange :=
  .ite h.beginLoad (.ite (h.frame fun _ m => m.setf).tryFlash (.ite h.beginLoad h.tryFlash))

theorem fullCores (h : s.InRange) : s.fullCores.InRange := by
  unfold State.fullCores
  extract_lets keepHost s1
  have h1 : s1.InRange := h.frame fun _ m => m.ferryGens.setf
  clear_value s1
  exact ⟨h1.image, fun _ hx => absurd hx List.not_mem_nil⟩

theorem fullReset {cause : Nat} (h : s.InRange) : (s.fullReset cause).InRange := by
  have cleared : ∀ {t : State}, t.InRange → t.fullCores.resetFull.refreshEng.InRange := fun h =>
    h.fullCores.frame fun _ m => m.resetFull.refreshEng
  unfold State.fullReset
  refine h.optElse fun h => ?_
  extract_lets again s1 s2 s3 s4 s5 s6 s7 s8 _ _ s9 s10
  have h8 : s8.InRange := h.frame fun _ m => (((m.logDev.xlkNotice.setf.inc.setf.forN fun _ _ m => m.ferryLoop).forN fun _ _ m =>
    m.ferryTsc).ferrySynths.forN fun _ _ m => m.ferryEngine)
  have h10 : s10.InRange := cleared h8.units
  clear_value again s10
  split
  · exact .ite h10.fab h10.fab
  · exact h10.optElse fun h => h.startLoad

theorem releaseLoad (h : s.InRange) : s.releaseLoad.InRange := by
  unfold State.releaseLoad
  split
  · exact h.fab
  · exact h.startLoad

theorem failLoad {code : Nat} (h : s.InRange) : (s.failLoad code).InRange := by
  unfold State.failLoad
  split
  · exact h
  · exact ((((h.frame fun _ m => m.setf.setf.logDev).opt fun h => h.frame fun _ m => m.setSlot).fab.frame fun _ m =>
      m.logDev.setf.inc).units.fullCores.frame fun _ m => m.resetFull.refreshEng).tryFlash

/-! The fault collector. -/

theorem blockReset {cls n : Nat} (h : s.InRange) : (s.blockReset cls n).InRange :=
  h.optElse fun h => h.optElse fun h => (h.units.frame fun _ m => m.inc).bind fun h2 =>
    .opt (.ite h2.resetFrontEnd h2.resetPort) fun h => h.frame fun _ m => m.setf.ev

theorem react {src kind addr : Nat} {inj : Bool} (h : s.InRange) : (s.react src kind addr inj).InRange :=
  ((((h.opt fun h => h.frame fun _ m => m.ev.ev).opt fun h => h.frame fun _ m => m.trap).opt fun h =>
    h.frame fun _ m => m.errorPin).opt fun h => h.blockReset).opt fun h => h.fullReset

theorem reportInj {src kind addr : Nat} {inj : Bool} (h : s.InRange) : (s.reportInj src kind addr inj).InRange :=
  .ite (h.units.frame fun _ m => m.setf.ev.record).react (h.frame fun _ m => m.record).react

theorem report {src kind addr : Nat} (h : s.InRange) : (s.report src kind addr).InRange := h.reportInj

/-! Events of the enclave. -/

theorem secEvent {x : Fld} {reason tsc : Nat} (h : s.InRange) : (s.secEvent x reason tsc).InRange := (h.frame fun _ m => m.ev.logDev).report

/-! Reads of memory under ECC. -/

theorem eccRead {w reader : Nat} (h : s.InRange) : (s.eccRead w reader).InRange :=
  h.optElse fun h => (h.frame fun _ m => m.took.setw.setw).bind fun h2 =>
    .ite (h2.frame fun _ m => m.inc.setEcc) (h2.frame fun _ m => m.inc).reportInj

theorem bankCheck {a n reader : Nat} (h : s.InRange) : (s.bankCheck a n reader).InRange := h.forL fun _ _ h => h.eccRead

/-! The checkers of the engines. -/

theorem noPontoon {e l : Nat} (h : s.InRange) : (s.noPontoon e l).InRange := (h.frame fun _ m => m.strand).report

theorem checkerFires {e cause : Nat} {inj : Bool} (h : s.InRange) : (s.checkerFires e cause inj).InRange := by
  unfold State.checkerFires
  extract_lets l bound old s1 s2 s3 want
  have h3 : s3.InRange := (h.frame fun _ m => m.setEntry.setEngine).reportInj
  clear_value want
  refine .ite (h3.frame fun _ m => m.ev) ?_
  split
  · exact h3.frame fun _ m => m.beginMove
  · exact h3.noPontoon

/-! Updates of loops. -/

theorem updateFails {l cause : Nat} {inj : Bool} (h : s.InRange) : (s.updateFails l cause inj).InRange :=
  (h.when fun _ h => h.units.frame fun _ m => m.injDone).checkerFires

theorem runUpdate {l b : Nat} {xs : List Sample} {chk : CheckOutcome} {catchUp : Bool} (h : s.InRange) :
    (s.runUpdate l b xs chk catchUp).InRange := by
  unfold State.runUpdate
  extract_lets e s1
  have h1 : s1.InRange := h.bankCheck
  split
  · exact h1.updateFails
  · exact .ite (h1.frame fun _ m => (First.updateInput m).fst.completeUpdate) h1.updateFails

theorem intervalEnds {l b : Nat} {xs : List Sample} {chk : CheckOutcome} {catchUp : Bool} (h : s.InRange) :
    (s.intervalEnds l b xs chk catchUp).InRange := by
  unfold State.intervalEnds
  exact .ite h.runUpdate (h.optElse fun h => by
    split
    · exact h.runUpdate
    · exact h.frame fun _ m => m.modLoop
    · exact h)

theorem loopUpdate {l : Nat} {chk : CheckOutcome} (h : s.InRange) : (s.loopUpdate l chk).InRange := by
  unfold State.loopUpdate
  refine h.optElse fun h => ?_
  extract_lets b xs s1
  have h1 : s1.InRange := h.frame fun _ m => m.keepInterval
  split
  · exact h1.intervalEnds
  refine .ite h1.intervalEnds (h1.opt fun h1 => ?_)
  split
  · exact h1.updateFails
  · exact h1

/-! Migration, copies and self-tests. -/

theorem catchUp {l : Nat} {x : Nat × Nat × List Sample} (h : s.InRange) : (s.catchUp l x).InRange :=
  h.optElse fun h => (h.frame fun _ m => m.modLoop).intervalEnds.optElse fun h => h.frame fun _ m => m.modLoop

theorem onTo {l src : Nat} {planned retire : Bool} {d : Option Nat} (h : s.InRange) : (s.onTo l src planned retire d).InRange := by
  unfold State.onTo
  split
  · exact h.frame fun _ m => m.beginMove
  · exact h.noPontoon

theorem receiverFails {l src dst cause : Nat} {planned retire inj : Bool} (h : s.InRange) :
    (s.receiverFails l src dst cause planned retire inj).InRange :=
  ((h.when fun _ h => h.units.frame fun _ m => m.injDone).frame fun _ m => m.modLoop.setEntry.setEngine.ev).reportInj.onTo

theorem resumeEnd {t : State} {l src dst : Nat} {planned retire : Bool} {fails : Option Nat} (h : s.InRange) (k : t.InRange) :
    (s.resumeEnd t l src dst planned retire fails).InRange := by
  unfold State.resumeEnd
  split
  · exact h.receiverFails
  · exact ((k.forL fun _ _ h => h.catchUp).frame fun _ m => m.moved8).forL fun _ _ h => h.catchUp

theorem resume {l src dst : Nat} {planned retire : Bool} (h : s.InRange) : (s.resume l src dst planned retire).InRange := by
  unfold State.resume
  exact h.resumeEnd (h.frame fun _ m => m.resumeOn)

theorem migrationEnd {l : Nat} {plannedKind : Bool} {chk : CheckOutcome} (h : s.InRange) : (s.migrationEnd l plannedKind chk).InRange := by
  unfold State.migrationEnd
  split
  · exact h
  · refine h.optElse fun h => ?_
    split
    · exact h.receiverFails
    · exact h.receiverFails
    · exact h.receiverFails
    · exact .ite h.resume h.noPontoon

theorem endCopy {e : Nat} (h : s.InRange) : (s.endCopy e).InRange := by
  unfold State.endCopy
  split
  · exact h
  · exact ((((h.bankCheck.forN fun _ _ h => h.frame fun _ m => m.copyRecord).frame fun _ m => m.dropCopy.setEntry).opt fun h =>
      h.frame fun _ m => m.toPontoon).frame fun _ m => m.when fun _ m => m.showRecs).opt fun h => h.frame fun _ m => m.modHo

theorem testEnds {e : Nat} {pass : Bool} (h : s.InRange) : (s.testEnds e pass).InRange :=
  .ite (h.frame fun _ m => m.tested.logEngine) (h.frame fun _ m => m.evIf.setEngine.setEntry.ev).report

/-! Edges at a landing. -/

theorem calibrate {n : Nat} {w1 w2 : BitVec 512} (h : s.InRange) : AnswerInRange (s.calibrate n w1 w2) := by
  unfold State.calibrate
  refine .ite (.mk h) ?_
  split
  · exact .mk (h.frame fun _ m => m.modLnd.setf)
  · exact .mk ((h.frame fun _ m => m.modLnd.setf.inc.ev).opt fun h => h.report)

theorem deliverStamp {n t : Nat} {stamp : Int} {tag : Tag} {edge : Nat} (h : s.InRange) : (s.deliverStamp n t stamp tag edge).InRange :=
  ((h.frame fun _ m => m.modLnd.setf.route).forL fun _ _ h => h.entrySample).optElse fun h => h.forL fun _ _ h => h.opt fun h =>
    h.frame fun _ m => m.forL fun _ _ m => m.modLoop

theorem gapSlot {n : Nat} {invalid : Option Nat} {edge : Nat} (h : s.InRange) : (s.gapSlot n invalid edge).InRange := by
  unfold State.gapSlot
  extract_lets s1 s2
  have h1 : s1.InRange := h.frame fun _ m => m.setf
  have h2 : s2.InRange := by
    unfold s2
    split
    · exact h1.frame fun _ m => m.history.modLnd.route
    · exact h1
  exact h2.forL fun _ _ h => h.entrySample

theorem stampEdge {n t edge : Nat} {cap : Capture} (h : s.InRange) : (s.stampEdge n t edge cap).InRange := by
  unfold State.stampEdge
  exact .ite (h.frame fun _ m => m.inc.ev).gapSlot (.ite h.calibrate.fst.gapSlot (by
    split
    · exact (h.calibrate.fst.frame fun _ m => m.invalidCapture).gapSlot
    · exact .ite (h.calibrate.fst.frame fun _ m => m.wharfDrop).gapSlot (h.calibrate.fst.frame fun _ m => m.modLnd.history).deliverStamp))

theorem startInterval {n t : Nat} {cap : Capture} (h : s.InRange) : (s.startInterval n t cap).InRange := by
  unfold State.startInterval
  refine (h.frame fun _ m => m.modLnd).bind fun h1 => .ite (h1.calibrate.fst.frame fun _ m => m.gapInterval) ?_
  split
  · exact h1.calibrate.fst.frame fun _ m => m.invalidCapture.gapInterval
  · exact .ite (h1.calibrate.fst.frame fun _ m => m.wharfDrop.gapInterval) (h1.calibrate.fst.frame fun _ m => m.modLnd.setf)

theorem intervalEdge {n t : Nat} {cap : Capture} (h : s.InRange) : (s.intervalEdge n t cap).InRange := by
  unfold State.intervalEdge
  extract_lets
  split
  · exact h.optElse fun h => .ite (h.frame fun _ m => m.stopInterval) (h.frame fun _ m => m.modLnd)
  · exact h.opt fun h => h.startInterval

theorem rawEdge {n : Nat} {cap : Capture} (h : s.InRange) : (s.rawEdge n cap).InRange := by
  unfold State.rawEdge
  extract_lets edge s1 t s2 s3 skip s4 s5
  have h1 : s1.InRange := h.frame fun _ m => m.modLnd
  have h2 : s2.InRange := h1.frame fun _ m => m.when fun _ m => m.modLnd
  have h3 : s3.InRange := h2.activityEdge.frame fun _ m => m.peerStops
  have h4 : s4.InRange := h3.frame fun _ m => m.modLnd
  have h5 : s5.InRange := .ite (h3.frame fun _ m => m.modLnd) (.ite h4.stampEdge h4.intervalEdge)
  exact h1.optElse fun _ => h5.frame fun _ m => m.modLnd.refreshSettling

theorem regressionResult {n : Nat} {g : ClosedGate} (h : s.InRange) : (s.regressionResult n g).InRange := by
  unfold State.regressionResult
  extract_lets
  split
  · exact h.gapRegression
  · exact (h.frame fun _ m => m.modLnd.seti.publish.refreshSettling).deliverResult

/-! Commands to a selector, and writes of its registers. -/

theorem readmit {n k : Nat} (h : s.InRange) : (s.readmit n k).InRange :=
  h.opt fun h => (h.frame fun _ m => m.modEnt.setCstate.logDev).evaluate

theorem forceOn {n k : Nat} (h : s.InRange) : (s.forceOn n k).InRange :=
  .ite (h.follow.frame fun _ m => m.forcedCheck)
    (h.frame fun _ m => m.setf.setf.setf.setf.evIf.modSel.ev.route.logSwitch.forcedCheck).selFollow

theorem forceOff {n : Nat} (h : s.InRange) : (s.forceOff n).InRange := by
  unfold State.forceOff
  split
  · exact h.follow
  · exact .ite h.selHoldover (h.frame fun _ m => m.setf.setf.setf.logSwitch).selFollow

theorem forceWritten {n old : Nat} (h : s.InRange) : (s.forceWritten n old).InRange :=
  h.optElse fun h => .ite h.forceOn (h.opt fun h => h.forceOff)

theorem candWritten {n k old : Nat} (h : s.InRange) : (s.candWritten n k old).InRange :=
  h.refreshRank.optElse fun h => h.evaluate.selFollow

theorem selCtrlWritten {n old : Nat} (h : s.InRange) : (s.selCtrlWritten n old).InRange :=
  h.optElse fun h => (h.frame fun _ m => (m.forN fun _ _ m => m.setFault).forN fun _ _ m => m.forcedCheck.entryMove).bind fun h =>
    .ite h.enterHoldoff h.evaluate

theorem kindChanged {m : Nat} (h : s.InRange) : (s.kindChanged m).InRange :=
  h.forL fun _ _ h => (h.frame fun _ m => m.loadLimits.freshEntry).fault

/-! Synthesisers. -/

theorem lockLost {n : Nat} (h : s.InRange) : (s.lockLost n).InRange :=
  (h.frame fun _ m => m.setf.ev.inc.abortRamp.refreshSynth.route).report

theorem windowOut {n : Nat} (h : s.InRange) : (s.windowOut n).InRange :=
  ((h.frame fun _ m => m.modApl).opt fun h => h.lockLost).opt fun h => h.frame fun _ m => m.startSynth.ev

/-! Tickets. -/

theorem ticketRejected {k reason : Nat} (h : s.InRange) : (s.ticketRejected k reason).InRange :=
  (h.frame fun _ m => m.setf.setf.inc).secEvent

/-! Ports. -/

theorem rxEsmc {n : Nat} {b : List Byte} (h : s.InRange) : (s.rxEsmc n b).InRange := by
  unfold State.rxEsmc
  split
  · exact h.frame fun _ m => m.count.ev
  · exact (h.frame fun _ m => m.modPrt).giveRanks.giveRanks

theorem prtCtrlWritten {n old : Nat} (h : s.InRange) : (s.prtCtrlWritten n old).InRange :=
  .bind (.ite ((h.frame fun _ m => m.setf).portDownWith.when fun _ h => h.frame fun _ m => m.setf.modPrt)
      (h.opt fun h => h.frame fun _ m => m.leaveDormant)) fun h1 =>
    .opt (.ite h1.portDownWith.loseActivity (h1.opt fun h => h.frame fun _ m => m.portUp)) fun h => h.frame fun _ m => m.setf.ev

theorem txclkWritten {n old : Nat} (h : s.InRange) : (s.txclkWritten n old).InRange := h.optElse fun h => h.retrain

theorem esmcWritten (h : s.InRange) : s.esmcWritten.InRange := h.esmcRefresh

theorem frameSend {a0 a1 a2 : Nat} (h : s.InRange) : AnswerInRange (s.frameSend a0 a1 a2) :=
  .ite (.mk h) (.ite (.mk h) (.ite (.mk h) (.mk h.bankCheck.enqueue)))

end State.InRange

end Sys2Proof.Machine
end

section
/-! PROOFS. Berths, their messages and the crossing link keep numbers in range (O6). Only ATTACH gives a berth an attachment. -/

set_option Elab.async false

namespace Sys2Proof.Machine

variable {s t : State}

namespace State.InRange

/-! The streams of upstream berths. -/

theorem ptpSend {n q : Nat} {owner : TxOwner} {auth : Option Nat} {m : PtpMsg} (h : s.InRange) : (s.ptpSend n q owner auth m).InRange := by
  unfold State.ptpSend
  extract_lets m'
  clear_value m'
  split
  · exact h
  · exact h.optElse fun h => h.enqueue

theorem modUp {slot : Nat} {g : UpState → UpState} (h : s.InRange) : (s.modUp slot g).InRange := h.modBerth

theorem berthRank {slot : Nat} (h : s.InRange) : (s.berthRank slot).InRange := h.forL fun _ _ h => h.giveRank

theorem switchBest {n : Nat} (h : s.InRange) : (s.switchBest n).InRange :=
  ((h.frame fun _ m => m.forL fun _ _ m => m.freshEntry.putRank).forL fun _ _ h => h.fault).refreshRanks.forL fun _ _ h =>
    h.opt fun h => h.follow

theorem bmca {n : Nat} (h : s.InRange) : (s.bmca n).InRange :=
  (h.frame fun _ m => m.setf).optElse fun h => (h.frame fun _ m => m.setw.ev).switchBest

theorem upFollow {slot : Nat} (h : s.InRange) : (s.upFollow slot).InRange := h.berthRank.bmca.frame fun _ m => m.refreshDisagree

theorem demote {slot : Nat} {t : CorrTest} {dev : Int} (h : s.InRange) : (s.demote slot t dev).InRange :=
  h.optElse fun h => (h.modUp.frame fun _ m => m.ev.logDemotion).streamFault.upFollow

theorem startLearning {slot : Nat} (h : s.InRange) : (s.startLearning slot).InRange := h.modUp

theorem promote {slot : Nat} (h : s.InRange) : (s.promote slot).InRange := (h.modUp.startLearning.frame fun _ m => m.ev).upFollow

theorem deliverPhase {slot : Nat} {tag : Tag} {m : Int} {t : Nat} (h : s.InRange) : (s.deliverPhase slot tag m t).InRange :=
  (h.forL fun _ _ h => h.entrySample).optElse fun h => h.forL fun _ _ h => h.opt fun h => h.frame fun _ m => m.forL fun _ _ m => m.modLoop

theorem useSample {slot : Nat} {offset m : Int} {t : Nat} (h : s.InRange) : (s.useSample slot offset m t).InRange :=
  h.modUp.optElse fun h => (h.when fun _ h => h.streamFault).deliverPhase

theorem learnSample {slot : Nat} {m ci : Int} {t : Nat} (h : s.InRange) : (s.learnSample slot m ci t).InRange := h.modUp

theorem judge {slot : Nat} {offset m ci : Int} {t : Nat} (h : s.InRange) : (s.judge slot offset m ci t).InRange :=
  .ite h.useSample (.ite h.useSample.learnSample (.ite h.modUp.useSample (h.modUp.opt fun h => h.demote)))

theorem useSync {slot : Nat} {t1 corr : Int} {t2 : Stamp} {at_ : Nat} {phi ci : Int} (h : s.InRange) :
    (s.useSync slot t1 corr t2 at_ phi ci).InRange :=
  .ite h.modUp.deliverPhase ((h.modUp.frame fun _ m => (First.offsetOf m).fst).modUp.bind fun h2 =>
    .frame (.ite h2.judge ((h2.opt fun h => h.learnSample).optElse fun h => h.deliverPhase)) fun _ m => m.refreshDisagree)

/-! Messages received. -/

theorem authenticated {n slot : Nat} {f : PtpFrame} {g : State → State} (h : s.InRange) (k : ∀ t, t.InRange → (g t).InRange) :
    (s.authenticated n slot f g).InRange := by
  unfold State.authenticated
  extract_lets b
  split
  · exact h.frame fun _ m => m.inc.ev
  · exact k _ (h.opt fun h => h.modBerth)

theorem respond {n slot : Nat} {m : PtpMsg} {t : Stamp} (h : s.InRange) : (s.respond n slot m t).InRange :=
  h.optElse fun h => (h.when fun _ h => h.modBerth).ptpSend

theorem rxDelayReq {n : Nat} {f : PtpFrame} (h : s.InRange) : (s.rxDelayReq n f).InRange := by
  unfold State.rxDelayReq
  refine .ite (h.frame fun _ m => m.discard) ?_
  split
  · exact .ite (h.frame fun _ m => m.discard) (h.optElse fun h => h.authenticated fun _ h => h.respond)
  · exact .ite (h.frame fun _ m => m.discard) (h.frame fun _ m => m.enterAdmission)

theorem sendSignaling {slot : Nat} {dst : PtpAddr} {tlvs : List SigTlv} (h : s.InRange) : (s.sendSignaling slot dst tlvs).InRange :=
  h.optElse fun h => h.modBerth.ptpSend

/-- Grants come and go without the attachment. -/
theorem setGrant {slot : Nat} {k : GrantKind} {g : Option Grant} (h : s.InRange) :
    (s.modBerth slot (fun b => b.withGrant k g)).InRange := h.modBerth fun _ => by cases k <;> rfl

theorem clientTlv {slot : Nat} {t : SigTlv} (h : s.InRange) : AnswerInRange (s.clientTlv slot t) := by
  unfold State.clientTlv
  split
  · exact .ite (.mk h.setGrant) (.mk (h.frame fun _ m => m.ev))
  · exact .mk h.setGrant
  · exact .mk h

theorem grantFails {slot : Nat} {k : GrantKind} (h : s.InRange) : (s.grantFails slot k).InRange := by
  unfold State.grantFails
  exact (h.frame fun _ m => m.evIf).modUp

theorem upTlv {slot : Nat} {t : SigTlv} (h : s.InRange) : AnswerInRange (s.upTlv slot t) := by
  unfold State.upTlv
  split
  · exact .ite (.mk h.grantFails) (.mk (h.when fun _ h => h.grantFails).setGrant.modUp)
  · exact .mk h.setGrant
  · exact .mk h

theorem tlvs {g : State → SigTlv → State × List SigTlv} {ts : List SigTlv} (h : s.InRange)
    (k : ∀ t x, t.InRange → AnswerInRange (g t x)) : AnswerInRange (State.tlvs g s ts) := by
  induction ts generalizing s with
  | nil => exact h
  | cons x ts ih => exact ih (k s x h)

theorem rxUnknown {n : Nat} {m : PtpMsg} (h : s.InRange) : (s.rxUnknown n m).InRange :=
  .ite (h.frame fun _ m => m.discard) (h.frame fun _ m => m.forL fun _ _ m => m.enterAdmission).ptpSend

theorem ptpToHost {n : Nat} {f : PtpFrame} (h : s.InRange) : (s.ptpToHost n f).InRange := by
  unfold State.ptpToHost
  split
  · exact h.authenticated fun _ h => h.frame fun _ m => m.hostPart
  · exact .ite (h.frame fun _ m => m.hostPart) (h.frame fun _ m => m.discard)

theorem rxSignaling {n : Nat} {f : PtpFrame} (h : s.InRange) : (s.rxSignaling n f).InRange := by
  unfold State.rxSignaling
  extract_lets m master
  split
  · exact .ite (h.frame fun _ m => m.discard) (h.optElse fun h => h.authenticated fun _ h =>
      (h.tlvs fun _ _ h => h.clientTlv).fst.sendSignaling.frame fun _ m => m.hostPart)
  split
  · exact .ite (h.frame fun _ m => m.discard) (h.authenticated fun _ h =>
      (h.tlvs fun _ _ h => h.upTlv).fst.sendSignaling.frame fun _ m => m.hostPart)
  · exact .ite (h.rxUnknown.frame fun _ m => m.hostPart) (h.frame fun _ m => m.discard)

theorem upSync {n slot : Nat} {f : PtpFrame} (h : s.InRange) : (s.upSync n slot f).InRange :=
  .ite h.useSync (h.modUp.opt fun h => h.frame fun _ m => m.fuLost)

theorem upFollowUp {n slot : Nat} {f : PtpFrame} (h : s.InRange) : (s.upFollowUp n slot f).InRange := by
  unfold State.upFollowUp
  extract_lets
  split
  · exact h.frame fun _ m => m.inc.ev
  · exact h.modUp.useSync

theorem upDelayResp {n slot : Nat} {f : PtpFrame} (h : s.InRange) : (s.upDelayResp n slot f).InRange := by
  unfold State.upDelayResp
  extract_lets
  split
  · exact .ite (h.frame fun _ m => m.discard) h.modUp
  · exact h.frame fun _ m => m.discard

theorem upAnnounce {slot : Nat} {f : PtpFrame} (h : s.InRange) : (s.upAnnounce slot f).InRange := h.modUp.upFollow

theorem fromUp {n : Nat} {f : PtpFrame} {listens : Bool} {g : State → Nat → State} (h : s.InRange)
    (k : ∀ t x, t.InRange → (g t x).InRange) : (s.fromUp n f listens g).InRange := by
  unfold State.fromUp
  split
  · exact .ite (h.authenticated fun _ h => k _ _ h) (h.frame fun _ m => m.discard)
  · exact h.frame fun _ m => m.discard

theorem ptpMsg {n : Nat} {f : PtpFrame} (h : s.InRange) : (s.ptpMsg n f).InRange := by
  unfold State.ptpMsg
  refine .ite (h.frame fun _ m => m.discard) ?_
  split
  · exact h.fromUp fun _ _ h => h.upSync
  · exact h.fromUp fun _ _ h => h.upFollowUp
  · exact h.fromUp fun _ _ h => h.upDelayResp
  · exact h.fromUp fun _ _ h => h.upAnnounce
  · exact h.rxDelayReq
  · exact .ite h.ptpToHost h.rxSignaling
  · exact h.ptpToHost
  · exact h.frame fun _ m => m.discard

theorem rxPtp {n : Nat} {f : PtpFrame} (h : s.InRange) : (s.rxPtp n f).InRange :=
  h.optElse fun h => .ite (h.frame fun _ m => m.wharfDrop) (.ite (h.frame fun _ m => m.count)
    ((h.frame fun _ m => m.modPrt.settleFrame).bind fun h1 => .ite h1.ptpMsg (h1.frame fun _ m => m.count)))

theorem rxFrame {n : Nat} {f : RxFrame} (h : s.InRange) : (s.rxFrame n f).InRange := by
  have counted : (s.rxLine n f.line).InRange → ((s.rxLine n f.line).rxCount n f.bytes f.fcsOk).1.InRange := fun h =>
    h.frame fun _ m => (First.rxCount m).fst
  unfold State.rxFrame
  refine h.optElse fun h => (h.frame fun _ m => m.rxLine).optElse fun h => .ite (h.frame fun _ m => m.wharfDrop) (.ite ?_ ?_)
  · refine h.opt fun h => ?_
    split
    · exact h.frame fun _ m => m.wake
    · exact h
  · refine h.optElse fun h => (counted h).optElse fun h => .ite (h.frame fun _ m => m.rxControl) (.ite (h.frame fun _ m => m.count) ?_)
    exact .ite h.rxEsmc (.ite h.ptpMsg (h.frame fun _ m => m.rxHost))

/-! Messages sent, and the corridor. -/

theorem takeSeq {n : Nat} {slot : Option Nat} {ann : Bool} (h : s.InRange) : (s.takeSeq n slot ann).2.InRange := by
  have answer : ∀ {x : Nat} {y : State}, y.InRange → (x, y).2.InRange := fun h => h
  unfold State.takeSeq
  split
  · split
    · exact answer h.modBerth
    · exact answer h.modBerth
  · split
    · exact answer (h.frame fun _ m => m.modPte)
    · exact answer (h.frame fun _ m => m.modPte)

theorem sendSync {n : Nat} {slot : Option Nat} (h : s.InRange) : (s.sendSync n slot).InRange := h.takeSeq.ptpSend

theorem sendAnnounce {n : Nat} {slot : Option Nat} (h : s.InRange) : (s.sendAnnounce n slot).InRange := h.takeSeq.ptpSend

theorem sendDelayReq {slot : Nat} (h : s.InRange) : (s.sendDelayReq slot).InRange :=
  (h.opt fun h => (h.frame fun _ m => m.inc.ev).modUp).modBerth.modUp.ptpSend

theorem sendFollowUp {n : Nat} {m : PtpMsg} {t : Stamp} (h : s.InRange) : (s.sendFollowUp n m t).InRange := h.ptpSend

theorem engineStamp {n : Nat} {slot : Option Nat} {m : PtpMsg} {t : Stamp} (h : s.InRange) : (s.engineStamp n slot m t).InRange := by
  unfold State.engineStamp
  split
  · exact (h.frame fun _ m => m.reportServed).bind fun h1 => .ite (h1.when fun _ h => h.sendFollowUp) (h1.frame fun _ m => m.modPrt)
  · split
    · exact h.modUp
    · exact h
  · exact h.frame fun _ m => m.reportServed
  · exact h

theorem stampOwner {n : Nat} {f : TxFrame} {t : Stamp} (h : s.InRange) : (s.stampOwner n f t).InRange := by
  unfold State.stampOwner
  split
  · exact h.frame fun _ m => m.tsqPush
  · exact h.evqPush
  · split
    · exact h.engineStamp
    · exact h
  · exact h

theorem askGrant {slot : Nat} {k : GrantKind} (h : s.InRange) : (s.askGrant slot k).InRange := by
  unfold State.askGrant
  exact h.sendSignaling.modUp

theorem refusedUp {slot : Nat} {c : Code} {amount : Int} (h : s.InRange) : (s.refusedUp slot c amount).InRange :=
  h.optElse fun h => h.demote

theorem presentUp {k slot : Nat} (h : s.InRange) : (s.presentUp k slot).InRange := by
  unfold State.presentUp
  refine .ite ?_ (h.optElse fun h => (h.frame fun _ m => (First.tryAdjust m).fst).refusedUp)
  split
  · exact h.opt fun h => (h.frame fun _ m => (First.presentStep m).fst).refusedUp
  · exact h

theorem estimate {slot : Nat} (h : s.InRange) : (s.estimate slot).InRange := by
  unfold State.estimate
  exact h.modUp

theorem longTest {n slot : Nat} (h : s.InRange) : (s.longTest n slot).InRange := by
  unfold State.longTest
  refine h.optElse fun h => ?_
  extract_lets
  split
  · exact .ite h.demote h.modUp
  · exact h.modUp
  · exact h.modUp

theorem crossTest {n slot : Nat} (h : s.InRange) : (s.crossTest n slot).InRange := .ite (h.modUp.opt fun h => h.demote) h.modUp

theorem asymLoad {p : Port} {n slot : Nat} (h : s.InRange) : AnswerInRange (s.asymLoad p n slot) := by
  unfold State.asymLoad
  split
  · exact .mk h
  · exact .ite (.mk h) (.ite (.mk h) (.ite (.mk h) (.mk (h.frame fun _ m => m.mboxEmpty).modUp)))

theorem pteCommand {p : Port} {n bit : Nat} (h : s.InRange) : (s.pteCommand p n bit).InRange := by
  unfold State.pteCommand
  refine AnswerInRange.completeBy (.ite (.mk (h.frame fun _ m => m.admitPop)) ?_)
  split
  · exact .ite (.mk (h.frame fun _ m => m.fetchDataset)) (.ite (.mk (h.opt fun h => (h.frame fun _ m => m.logDemotion).promote))
      (.ite h.asymLoad (.mk h.modUp)))
  · exact .mk h

/-! Commands to berths. -/

theorem berthCreate {p : Port} {w a0 a1 : Nat} (h : s.InRange) : AnswerInRange (s.berthCreate p w a0 a1) := by
  unfold State.berthCreate
  refine .ite (.mk h) (.ite (.mk h) (.ite (.mk h) ?_))
  split
  · exact .mk h
  · exact .mk ((h.newBerth.frame fun _ m => m.refreshClients).opt fun h => h.frame fun _ m => m.modLedger)

theorem detach {slot : Nat} (h : s.InRange) : (s.detach slot).InRange := by
  unfold State.detach
  split
  · exact h
  · exact (h.fault.frame fun _ m => m.setCstate).giveRank.newBerth

theorem berthDestroy {slot : Nat} (h : s.InRange) : (s.berthDestroy slot).InRange :=
  (((((h.opt fun h => h.detach).opt fun h => h.frame fun _ m => m.dropRuns).opt fun h => h.modUp.streamFault.berthRank).frame fun _ m =>
    m.modPrt).newBerth.frame fun _ m => m.modGen.refreshClients).opt fun h => h.bmca.frame fun _ m => m.refreshDisagree

theorem entryActivity {b : Berth} (h : s.InRange) : (s.entryActivity b).InRange := by
  unfold State.entryActivity
  split
  · exact h.fault
  · exact h

theorem berthEnable {slot : Nat} (h : s.InRange) : AnswerInRange (s.berthEnable slot) :=
  .ite (.mk h) (.ite (.mk h) (.mk (((h.modBerth.opt fun h => h.frame fun _ m => m.modLedger).opt fun h => h.entryActivity).opt fun h =>
    h.startLearning.modUp.upFollow.opt fun h => h.askGrant.askGrant.askGrant)))

theorem berthDisable {slot : Nat} (h : s.InRange) : (s.berthDisable slot).InRange := by
  unfold State.berthDisable
  refine h.optElse fun h => .ite (modBerth ?_) (.ite h.streamFault.modBerth.upFollow h.modBerth)
  split
  · exact h.fault
  · exact h

theorem paramSet {p : Port} {slot id : Nat} (h : s.InRange) : AnswerInRange (s.paramSet p slot id) := by
  unfold State.paramSet
  extract_lets
  split
  · exact .mk h
  · exact .ite (.mk h) (.ite (.mk h) (by
      split
      · exact .mk h
      · exact .ite (.mk h) (.mk ((h.frame fun _ m => m.mboxEmpty).modBerth.opt fun h => h.bmca))))

theorem attachNew {slot n k a1 : Nat} (h : s.InRange) (hn : n < 16) (hk : k < 32) : (s.attachNew slot n k a1).InRange := by
  have attached := h.setBerth (n := slot) (g := fun b => { b with att := some (n, k, a1) }) fun _ e => by cases e; exact ⟨hn, hk⟩
  exact (attached.frame fun _ m => m.freshEntry.setCstate.setFault).giveRank

theorem attach {slot a0 a1 : Nat} (h : s.InRange) : AnswerInRange (s.attach slot a0 a1) := by
  have selector : bitsAt a0 11 8 < 16 := Nat.mod_lt _ (by decide)
  unfold State.attach
  extract_lets n
  split
  · refine .ite (.mk h) ?_
    split
    · exact .mk h
    next k found =>
    have entry := State.berthEntry_lt found
    split
    · exact .ite (.mk h) (.ite (.mk h) (.mk (h.detach.attachNew selector entry)))
    · exact .mk (h.detach.attachNew selector entry)
  · exact .mk h

theorem evqPop {p : Port} {slot : Nat} (h : s.InRange) : (s.evqPop p slot).InRange := by
  unfold State.evqPop
  split
  · exact h.frame fun _ m => m.mboxOut
  · exact h.modBerth.frame fun _ m => m.mboxOut

theorem msgLoad {p : Port} {slot a0 : Nat} (h : s.InRange) : AnswerInRange (s.msgLoad p slot a0) := by
  unfold State.msgLoad
  refine .ite (.mk h) ?_
  split
  · exact .mk h
  · exact .mk (h.frame fun _ m => m.mboxEmpty).modBerth

theorem onBerth {p : Port} {w : Nat} {kinds : List Nat} {g : State → Nat → RingRes} (h : s.InRange)
    (k : ∀ t x, t.InRange → AnswerInRange (g t x)) : AnswerInRange (s.onBerth p w kinds g) := by
  unfold State.onBerth
  split
  · exact .ite (.mk h) (k _ _ h)
  · exact .mk h

theorem onMan {p : Port} {w : Nat} {g : State → RingRes} (h : s.InRange) (k : ∀ t, t.InRange → AnswerInRange (g t)) :
    AnswerInRange (s.onMan p w g) :=
  .ite (.mk h) (.ite (.mk h) (k _ h))

theorem onFrame {p : Port} {w a0 : Nat} {g : State → State × Code × Nat} (h : s.InRange) (k : ∀ t, t.InRange → AnswerInRange (g t)) :
    AnswerInRange (s.onFrame p w a0 g) :=
  .ite (.mk h) (.ite (.mk h) (.mk (k _ h).fst))

theorem ringCommand {p : Port} {op w a0 a1 a2 : Nat} (h : s.InRange) : AnswerInRange (s.ringCommand p op w a0 a1 a2) := by
  unfold State.ringCommand
  refine .ite (.mk h) (.ite (.mk h) ?_)
  refine .ite (h.frame fun _ m => (First.onEngine m).fst) (.ite (h.frame fun _ m => (First.onEngine m).fst) ?_)
  refine .ite (h.frame fun _ m => (First.onEngine m).fst) (.ite h.berthCreate ?_)
  refine .ite (h.onBerth fun _ _ h => .mk h.berthDestroy) (.ite (h.onBerth fun _ _ h => h.berthEnable) ?_)
  refine .ite (h.onBerth fun _ _ h => .mk h.berthDisable) (.ite (h.onBerth fun _ _ h => h.paramSet) ?_)
  refine .ite (h.onBerth fun _ _ h => h.frame fun _ m => (First.paramGet m).fst) (.ite (h.onBerth fun _ _ h => h.attach) ?_)
  refine .ite (h.onBerth fun _ _ h => .mk h.detach) (.ite (h.onBerth fun _ _ h => .mk h.evqPop) ?_)
  refine .ite (.ite (.mk h) (.mk h)) (.ite (h.onBerth fun _ _ h => h.msgLoad) ?_)
  refine .ite (h.onBerth fun _ _ h => h.frame fun _ m => (First.berthInfo m).fst) (.ite (h.onFrame fun _ h => h.frameSend) ?_)
  refine .ite (h.onFrame fun _ h => h.frame fun _ m => (First.frameRecv m).fst) ?_
  refine .ite (h.onMan fun _ h => h.frame fun _ m => (First.tenantOpen m).fst) ?_
  refine .ite (h.onMan fun _ h => h.frame fun _ m => (First.tenantClose m).fst) ?_
  refine .ite (h.onMan fun _ h => h.frame fun _ m => (First.manPeek m).fst) ?_
  exact .ite (h.onMan fun _ h => h.frame fun _ m => (First.manExport m).fst) (.mk h)

/-! The command ring. -/

theorem ringPerform {p : Port} (h : s.InRange) : (s.ringPerform p).InRange :=
  (h.frame fun _ m => m.setf.setf).ringCommand.ringAnswered

theorem ringStart {p : Port} (h : s.InRange) : (s.ringStart p).InRange :=
  h.optElse fun h => h.optElse fun h => .ite (h.frame fun _ m => m.evIf.setf) h.ringPerform

theorem ringPost {p : Port} {op : Nat} {w a0 a1 a2 a3 : Word} (h : s.InRange) : (s.ringPost p op w a0 a1 a2 a3).InRange :=
  h.optElse fun h => .ite (h.frame fun _ m => m.busErr) (h.frame fun _ m => (m.forL fun _ _ m => m.setw).setf.status).ringStart

/-! The crossing link. -/

theorem xlinkRanks {echo : List (Nat × Nat)} (h : s.InRange) : (s.xlinkRanks echo).InRange :=
  ((h.frame fun _ m => m.forL fun _ _ m => m.putRank.rankStep).optElse fun h =>
    h.frame fun _ m => m.forL fun _ _ m => m.echoReturn).entriesCheck

theorem activateGo (h : s.InRange) : s.activateGo.InRange := (h.frame fun _ m => m.setf.commitBoot).fullReset

theorem fabDone {opc : Nat} {c : Code} (h : s.InRange) : (s.fabDone opc c).InRange := h.fab.frame fun _ m => m.setf.setf.setf.raise

theorem switchFails {event : Bool} (h : s.InRange) : (s.switchFails event).InRange := by
  unfold State.switchFails
  split
  · exact h
  · exact (h.frame fun _ m => m.modXlk.setf.evIf).bind fun h2 => .ite h2.fabDone (h2.frame fun _ m => m.complete)

theorem breakPair (h : s.InRange) : s.breakPair.InRange :=
  (h.switchFails.frame fun _ m => m.setf.setf.setf.setf.modXlk.refreshGood).optElse fun h =>
    ((h.frame fun _ m => m.setb.ev.ev).xlinkRanks.frame fun _ m => m.evIf).forN fun _ _ h => h.evaluate

theorem negotiate (h : s.InRange) : s.negotiate.InRange := by
  unfold State.negotiate
  split
  · exact h
  · exact (h.frame fun _ m => m.modXlk).bind fun h1 => .ite ((h1.opt fun h => h.breakPair).frame fun _ m => m.setf.setf.ev)
      ((h1.frame fun _ m => m.setf.setb.evIf.modXlk).optElse fun h => h.frame fun _ m => m.setf)

theorem formPair (h : s.InRange) : s.formPair.InRange :=
  h.optElse fun h => (h.frame fun _ m => m.setf.modXlk.takeRole.ev.ev).xlinkRanks.forN fun _ _ h => h.evaluate

theorem switchTo {active : Bool} (h : s.InRange) : (s.switchTo active).InRange := by
  unfold State.switchTo
  extract_lets s1 s2 s3
  have h1 : s1.InRange := h.frame fun _ m => m.takeRole.modXlk
  have h2 : s2.InRange := h1.forL fun _ _ h => h.evaluate
  have h3 : s3.InRange := by
    refine .ite (h2.forL fun _ _ h => h.opt fun h => ?_) (h1.forN fun _ _ h => h.evaluate)
    split
    · exact h.follow
    · exact (h.frame fun _ m => m.forL fun _ _ m => m.freezeLoop).selHoldover
  exact h3.frame fun _ m => m.ev.ev

theorem berthEntryIn {e : List Byte} (h : s.InRange) : (s.berthEntryIn e).InRange :=
  .ite (.ite (h.frame fun _ m => m.modPte) (h.frame fun _ m => m.inc.ev)) (.ite h.modBerth (h.frame fun _ m => m.inc.ev))

theorem switchAccept {token : Nat} (h : s.InRange) : (s.switchAccept token).InRange := by
  unfold State.switchAccept
  split
  · exact h
  · exact h.optElse fun h => (h.frame fun _ m => m.xlkSendBoth.modXlk.setf).switchTo.negotiate.bind fun h =>
      .ite h.activateGo (h.frame fun _ m => m.complete)

theorem switchFrame {body : List Byte} (h : s.InRange) : (s.switchFrame body).InRange := by
  unfold State.switchFrame
  refine .ite (h.frame fun _ m => m.switchRequest) (.ite h.switchAccept (.ite ?_ (h.opt fun h => h.opt fun h => h.switchTo.negotiate)))
  split
  · exact h.opt fun h => h.switchFails.negotiate
  · exact h

theorem xlkHeader {b : List Byte} (h : s.InRange) : (s.xlkHeader b).InRange := (h.frame fun _ m => m.setf.setb.modXlk).xlinkRanks

theorem xlkBody {lane type : Nat} {body : List Byte} {cap : StampCap} (h : s.InRange) : (s.xlkBody lane type body cap).InRange := by
  unfold State.xlkBody
  split
  · exact ((h.frame fun _ m => m.setf.modXlk).opt fun h => h.negotiate).formPair
  · exact (h.frame fun _ m => m.modXlk).formPair
  · exact h.frame fun _ m => m.forL fun _ _ m => m.phaseEntry
  · exact h.frame fun _ m => m.modXlk
  · exact (h.frame fun _ m => m.modXlk).opt fun h => h.frame fun _ m => m.forL fun _ _ m => m.todFromPartner
  · exact h.opt fun h => h.forL fun _ _ h => h.berthEntryIn
  · exact h.switchFrame
  · exact h.opt fun h => h.breakPair

theorem xlkRx {lane : Nat} {f : XlkFrame} (h : s.InRange) : (s.xlkRx lane f).InRange :=
  h.optElse fun h => .ite (h.frame fun _ m => m.laneDrop) (.ite (h.frame fun _ m => m.xlkCrcErr)
      ((h.frame fun _ m => m.laneFrame).bind fun h1 => .ite ((h1.frame fun _ m => m.modXlk).opt fun h => h.xlkBody)
      ((h1.frame fun _ m => m.modXlk).bind fun h2 => .ite (h2.frame fun _ m => m.inc) h2.xlkHeader.xlkBody)))

theorem laneDown {lane : Nat} (h : s.InRange) : (s.laneDown lane).InRange :=
  (h.frame fun _ m => m.modXlk).optElse fun h => (h.frame fun _ m => m.setf.ev).loseActivity

theorem xlkCtrlWritten {old : Nat} (h : s.InRange) : (s.xlkCtrlWritten old).InRange := h.opt fun h => h.breakPair.laneDown.laneDown

end State.InRange

end Sys2Proof.Machine
end

section
/-! PROOFS. The stores, the enclave, FAB's commands and the accesses of the hosts keep numbers in range (O6). -/

set_option Elab.async false

namespace Sys2Proof.Machine

variable {s t : State}

namespace State.InRange

/-! Memory of a host, and flash blocks. -/

theorem hostWord {p : Port} {a : Nat} {bs : List Byte} (h : s.InRange) : (s.hostWord p a bs).InRange :=
  (h.optElse fun h => h.eccRead.opt fun h => h.reportInj).frame fun _ m => m.setBytes.eccWrite

theorem hostWindow {p : Port} {a : Nat} {bs : List Byte} (h : s.InRange) : (s.hostWindow p a bs).InRange := by
  unfold State.hostWindow
  refine .ite (h.frame fun _ m => m.busErr) ?_
  split
  · exact (h.frame fun _ m => m.status).forL fun _ _ h => h.hostWord
  · exact h.frame fun _ m => m.busErr

theorem hostWindowRead {p : Port} {a n : Nat} (h : s.InRange) : AnswerInRange (s.hostWindowRead p a n) :=
  .ite (.mk (h.frame fun _ m => m.busErr)) (.mk (h.frame fun _ m => m.status).bankCheck)

theorem atomic {p : Port} {op : Nat} (h : s.InRange) : (s.atomic p op).InRange := by
  unfold State.atomic
  refine h.optElse fun h => ?_
  split
  · exact h.frame fun _ m => m.complete
  · exact .ite (h.frame fun _ m => m.complete) (h.eccRead.frame fun _ m => m.setBytes.eccWrite.mboxEmpty.complete.mboxOut)

theorem blockBad {a : Nat} {lost : List Nat} (h : s.InRange) : (s.blockBad a lost).InRange := by
  unfold State.blockBad
  extract_lets s1 s2 _ s3 _ s4
  have h1 : s1.InRange := h.forL fun _ _ h => (h.units.frame fun _ m => m.inc).report
  have h3 : s3.InRange := (h1.frame fun _ m => m.ev).units
  have h5 : s3.takeBlock.1.InRange := h3.frame fun _ m => (First.takeBlock m).fst
  refine .ite (h3.units.frame fun _ m => m.evIf.logDev.showDirectory) ?_
  split
  next s5 took =>
    rw [took] at h5
    exact (h5.frame fun _ m => m.setf.ev).report.frame fun _ m => m.showDirectory
  next s5 n _ took =>
    rw [took] at h5
    exact h5.units.frame fun _ m => m.ev.logDev.showDirectory

theorem blocksBad {l : List (Nat × List Nat)} (h : s.InRange) : (s.blocksBad l).InRange := h.forL fun _ _ h => h.blockBad

/-! Cold reset, and the power supply. -/

theorem coldReset (s : State) (cause : Nat) (ph : Phase) : (s.coldReset cause ph).InRange := by
  unfold State.coldReset
  extract_lets _ _ t1 t2
  have h1 : t1.InRange := ⟨fun _ e => absurd e (Option.some_ne_none _).symm, fun _ hx => absurd hx List.not_mem_nil⟩
  have h2 : t2.InRange := h1.forN fun _ _ h => h.opt fun h => h.frame fun _ m => m.setEntry
  exact h2.frame fun _ m => m.setf.setf

theorem fuseError {j : FuseJob} (h : s.InRange) : (s.fuseError j).InRange := (h.frame fun _ m => m.fuseDrop).secEvent

theorem firstLoad (h : s.InRange) : s.firstLoad.InRange := h.units.optElse fun h => h.startLoad

theorem topCmd {p : Port} {key : Nat} (h : s.InRange) : (s.topCmd p key).InRange := .ite h.fullReset (h.frame fun _ m => m.busErr)

theorem deficit {slow reg inj : Bool} (h : s.InRange) : (s.deficit slow reg inj).InRange :=
  h.units.bind fun h1 => .ite (h1.opt fun h => (h.units.frame fun _ m => m.setf.ev.inc.raise.route.logDev).reportInj)
    (.ite (h1.units.frame fun _ m => m.setf.raise.logDev) (h1.opt fun h => h.units))

theorem onset {x : Fld} {irq src kind addr : Nat} (h : s.InRange) : (s.onset x irq src kind addr).InRange :=
  h.optElse fun h => (h.frame fun _ m => m.setf.raise).report

theorem injArm (h : s.InRange) : s.injArm.InRange := by
  unfold State.injArm
  refine .ite (h.frame fun _ m => m.fltDone) ?_
  split
  · exact .ite (h.units.frame fun _ m => m.setf.fltDone) (h.frame fun _ m => m.fltDone)
  · exact .ite (h.units.frame fun _ m => m.setf.fltDone) (h.frame fun _ m => m.fltDone)
  · exact h.units.frame fun _ m => m.setf.fltDone
  · exact h.units.frame fun _ m => m.setf.fltDone
  · exact .ite (h.frame fun _ m => m.fltDone) (h.frame fun _ m => m.fltDone.injDone).reportInj
  · exact h.units.frame fun _ m => m.setf.fltDone
  · exact h.frame fun _ m => m.fltDone

/-! Commands to the enclave. -/

theorem requestReject (h : s.InRange) : s.requestReject.InRange := (h.frame fun _ m => m.inc).secEvent

theorem keyReject {c : Code} (h : s.InRange) : (s.keyReject c).InRange := (h.frame fun _ m => m.inc).secEvent.frame fun _ m => m.secDone

theorem keyLoad {p : Port} (h : s.InRange) : (s.keyLoad p).InRange := by
  unfold State.keyLoad
  split
  · exact h.keyReject
  refine .ite h.keyReject (.ite h.keyReject ?_)
  split
  · exact h.keyReject
  extract_lets
  split
  · exact h.keyReject
  · exact .ite h.keyReject ((h.frame fun _ m => m.setSpp).units.frame fun _ m => m.mboxEmpty.secDone)

theorem judgeOwn {ws : List Word} (h : s.InRange) : (s.judgeOwn ws).InRange :=
  .ite (h.requestReject.frame fun _ m => m.secDone) (.ite (h.frame fun _ m => m.secDone) (h.frame fun _ m => m.setf))

theorem judgeRetire {ws : List Word} (h : s.InRange) : (s.judgeRetire ws).InRange :=
  .ite (h.requestReject.frame fun _ m => m.secDone) (h.units.frame fun _ m => m.fuseBegin.setf.setf.setf)

theorem serveRequest (h : s.InRange) : s.serveRequest.InRange := by
  unfold State.serveRequest
  refine h.optElse fun h => ?_
  split
  · exact h
  · exact .ite (h.frame fun _ m => m.verifyServed).judgeOwn (h.opt fun h => (h.frame fun _ m => m.verifyServed).judgeRetire)

theorem requestArrives {opc : Nat} {p : Port} {ws : List Word} (h : s.InRange) : (s.requestArrives opc p ws).InRange :=
  (h.frame fun _ m => m.secStart.verifyArrives).serveRequest

theorem takeOwnership {p : Port} (h : s.InRange) : (s.takeOwnership p).InRange := by
  unfold State.takeOwnership
  refine .ite (h.frame fun _ m => m.secDone) ?_
  split
  · exact h.frame fun _ m => m.secDone
  · exact h.requestArrives

theorem secRetire {p : Port} (h : s.InRange) : (s.secRetire p).InRange := by
  unfold State.secRetire
  refine .ite (h.frame fun _ m => m.secDone) ?_
  split
  · exact h.frame fun _ m => m.secDone
  · exact h.requestArrives

theorem provisionLabel {p : Port} (h : s.InRange) : (s.provisionLabel p).InRange := by
  unfold State.provisionLabel
  refine .ite (h.frame fun _ m => m.secDone) ?_
  split
  · exact h.frame fun _ m => m.secDone
  · exact h.requestArrives

theorem secOp {p : Port} {word : Nat} (h : s.InRange) : (s.secOp p word).InRange := by
  unfold State.secOp
  extract_lets opc spp part s1
  have h1 : s1.InRange := h.frame fun _ m => m.setw
  clear_value opc spp part s1
  split
  · exact .ite (h1.frame fun _ m => m.secDone.mboxOut) (h1.frame fun _ m => m.secDone)
  · split
    · exact h1.frame fun _ m => m.secDone
    · exact h1.frame fun _ m => m.secStart
  · split
    · exact h1.frame fun _ m => m.secDone
    · exact .ite (h1.frame fun _ m => m.secDone.mboxOut) (h1.frame fun _ m => m.secDone)
  · exact h1.provisionLabel
  · exact h1.keyLoad
  · exact h1.frame fun _ m => m.keyRoll
  · exact h1.frame fun _ m => m.setSpp.secDone
  · exact h1.frame fun _ m => m.keyList
  · exact h1.takeOwnership
  · exact h1.secRetire
  · exact h1.frame fun _ m => m.secDone

theorem secDoorbell {p : Port} {word : Nat} (h : s.InRange) : (s.secDoorbell p word).InRange := h.doorbellB fun _ h => h.secOp

/-! Commands to FAB. -/

theorem checkFault {code off slot : Nat} (h : s.InRange) : (s.checkFault code off slot).InRange := (h.opt fun h => h.report).report

theorem verifyFails {code off slot : Nat} (h : s.InRange) : (s.verifyFails code off slot).InRange :=
  (h.frame fun _ m => m.setf.logDev).checkFault

theorem fabStart {p : Port} {opc slot arg : Nat} (h : s.InRange) : (s.fabStart p opc slot arg).InRange := h.fab.frame fun _ m => m.setf

theorem fabStage (h : s.InRange) : s.fabStage.InRange := .ite h.fabDone (h.frame fun _ m => m.setf.setf).fabDone

theorem fabVerify {p : Port} {arg : Nat} (h : s.InRange) : (s.fabVerify p arg).InRange :=
  .ite h.fabDone (h.frame fun _ m => m.setf.verifyArrives).fabStart

theorem fabWriteSlot {p : Port} {k arg : Nat} (h : s.InRange) : (s.fabWriteSlot p k arg).InRange :=
  .ite h.fabDone (.ite h.fabDone (h.units.frame fun _ m => m.emptySlot).fabStart)

theorem fabLoadSlot {p : Port} {k arg : Nat} (h : s.InRange) : (s.fabLoadSlot p k arg).InRange :=
  .ite h.fabDone (h.frame fun _ m => m.setf.setf.verifyArrives).fabStart

theorem fabActivate {p : Port} {handover : Bool} (h : s.InRange) : (s.fabActivate p handover).InRange :=
  .ite h.fabDone (.ite (.ite h.fabDone (h.fabStart.frame fun _ m => m.xlkSwitch).fab) h.activateGo)

theorem fabRollback {p : Port} {t : Nat} (h : s.InRange) : (s.fabRollback p t).InRange := by
  unfold State.fabRollback
  extract_lets own
  clear_value own
  split
  · exact h.fabDone
  · exact .ite h.fabDone (.ite h.fabDone (.ite h.fabDone (h.frame fun _ m => m.fuseBegin).fabStart))

theorem fabErase {p : Port} {k arg : Nat} (h : s.InRange) : (s.fabErase p k arg).InRange := .ite h.fabDone (.ite h.fabDone h.fabStart)

theorem fabReadId {p : Port} {k : Nat} (h : s.InRange) : (s.fabReadId p k).InRange := by
  unfold State.fabReadId
  split
  · exact h.fabDone
  · exact h.fabDone.frame fun _ m => m.mboxOut

theorem fabOp {p : Port} {word : Nat} (h : s.InRange) : (s.fabOp p word).InRange := by
  unfold State.fabOp
  extract_lets opc slot arg s1
  have h1 : s1.InRange := h.frame fun _ m => m.setf.setf.setf
  clear_value opc slot arg s1
  split
  · exact h1.fabStage
  · exact h1.fabVerify
  · exact h1.fabWriteSlot
  · exact h1.fabLoadSlot
  · exact h1.fabActivate
  · exact h1.fabRollback
  · exact h1.fabErase
  · exact h1.fabReadId
  · exact h1.fabDone

theorem fabDoorbell {p : Port} {word : Nat} (h : s.InRange) : (s.fabDoorbell p word).InRange := h.doorbellB fun _ h => h.fabOp

/-! What the write of a register starts. -/

theorem nomWritten {n : Nat} {was : EntryKind} (h : s.InRange) : (s.nomWritten n was).InRange :=
  (h.when fun _ h => h.kindChanged).frame fun _ m => m.when fun _ m => m.selectInput.nomChanged

theorem lndEffect {n : Nat} {was : EntryKind} {x : RegWrite} (h : s.InRange) : (s.lndEffect n was x).InRange := by
  unfold State.lndEffect
  refine h.optElse fun h => .ite (h.frame fun _ m => m.setf).restartLanding.refreshActivity (.ite h.nomWritten ?_)
  refine .ite (h.frame fun _ m => m.modLnd.refreshSettling) (.ite (h.frame fun _ m => m.modLnd.refreshSettling) ?_)
  exact .ite (h.frame fun _ m => m.sliceWritten) (h.opt fun h => h.restartLanding)

theorem selEffect {n : Nat} {x : RegWrite} (h : s.InRange) : (s.selEffect n x).InRange :=
  .ite h.selCtrlWritten (.ite h.forceWritten (h.opt fun h => h.candWritten))

theorem prtEffect {n : Nat} {x : RegWrite} (h : s.InRange) : (s.prtEffect n x).InRange :=
  .ite h.prtCtrlWritten (.ite h.txclkWritten (.ite (h.frame fun _ m => m.eqCtrlWritten) (h.opt fun h => h.esmcWritten)))

theorem pteEffect {n : Nat} {x : RegWrite} (h : s.InRange) : (s.pteEffect n x).InRange :=
  .ite (h.opt fun h => h.frame fun _ m => m.setf).bmca
    (.ite (h.when fun _ h => (h.frame fun _ m => m.modPte).forL fun _ _ h => h.modUp)
      (.ite (h.frame fun _ m => m.when fun _ m => m.modPte) (h.opt fun h => h.bmca)))

theorem regEffect {was : EntryKind} {x : RegWrite} (h : s.InRange) : (s.regEffect was x).InRange := by
  unfold State.regEffect
  refine .ite (h.frame fun _ m => m.hostEffect) (.ite (h.opt fun h => h.frame fun _ m => m.avsWritten) ?_)
  refine .ite (h.opt fun h => h.atomic) (.ite (h.opt fun h => h.frame fun _ m => m.refreshEng) ?_)
  refine .ite h.lndEffect (.ite h.selEffect (.ite (h.frame fun _ m => m.loopEffect) ?_))
  refine .ite (h.opt fun h => h.frame fun _ m => m.outCtrlWritten) (.ite (h.opt fun h => h.frame fun _ m => m.refreshTrace) ?_)
  refine .ite h.prtEffect (.ite h.pteEffect (.ite (h.opt fun h => h.xlkCtrlWritten) ?_))
  exact h.opt fun h => h.opt fun h => h.frame fun _ m => (m.when fun _ m => m.secondBegins).refreshNext.billCheck

theorem fltCommand {p : Port} {bit : Nat} (h : s.InRange) : (s.fltCommand p bit).InRange :=
  .ite (h.frame fun _ m => m.fltPop) (.ite (h.frame fun _ m => m.errRelease)
    (.ite (h.frame fun _ m => m.trapClear) (.ite h.injArm (h.frame fun _ m => m.injCancel))))

theorem ring {x : RegWrite} (h : s.InRange) : (s.ring x).InRange := by
  unfold State.ring
  refine .ite h.topCmd (.ite (.ite (h.frame fun _ m => m.mboxFill)
    (.ite (h.frame fun _ m => m.setw) (h.frame fun _ m => m.when fun _ m => m.cfgCommit))) ?_)
  refine .ite (h.eachBit fun _ _ h => h.fltCommand) (.ite h.fabOp (.ite h.secOp ?_))
  refine .ite (h.frame fun _ m => m.nvOp) (.ite (h.frame fun _ m => m.flmOp) (.ite (h.frame fun _ m => m.swEvents) ?_))
  refine .ite (h.frame fun _ m => m.when fun _ m => m.engOp) (.ite (h.eachBit fun _ _ h => h.frame fun _ m => m.lndCommand) ?_)
  refine .ite ((h.frame fun _ m => m.setf).when fun _ h => h.readmit) (.ite (h.eachBit fun _ _ h => h.frame fun _ m => m.loopBit) ?_)
  refine .ite (.ite (h.frame fun _ m => m.groupDo) (h.frame fun _ m => m.aplCommand)) ?_
  refine .ite (h.eachBit fun _ _ h => h.frame fun _ m => m.outCommand) (.ite (h.frame fun _ m => m.tscCommand) ?_)
  refine .ite (h.eachBit fun _ _ h => h.frame fun _ m => m.prtCommand) (.ite (h.eachBit fun _ _ h => h.pteCommand) ?_)
  exact h.opt fun h => h.eachBit fun _ _ h => h.frame fun _ m => m.xlkCommand

theorem perform {d : RegDef} {x : RegWrite} (h : s.InRange) : (s.perform d x).InRange :=
  .ite h.ring (.ite (h.eachBit fun _ _ h => h.frame fun _ m => m.loopBit)
    (.ite (h.frame fun _ m => m.weightWritten) (.ite (h.frame fun _ m => m.coefWritten) (h.frame fun _ m => m.store).regEffect)))

/-! Accesses of the hosts. -/

theorem writeDone {p : Port} {addr n data : Nat} (h : s.InRange) : (s.writeDone p addr n data).InRange := by
  unfold State.writeDone
  extract_lets
  split
  · exact h
  · exact .ite (h.opt fun h => h.frame fun _ m => m.clearBits) h.perform

theorem hostWrite {p : Port} {a : Access} (h : s.InRange) : (s.hostWrite p a).InRange := by
  unfold State.hostWrite
  refine h.optElse fun h => .ite (h.frame fun _ m => m.busErr) (.ite ?_ ?_)
  · split
    · exact (h.frame fun _ m => m.status).writeDone.writeDone
    · exact h.frame fun _ m => m.dropHeld.busErr
    · exact h.frame fun _ m => m.busErr
  · split
    · exact (h.frame fun _ m => m.status).writeDone
    · exact h.frame fun _ m => m.dropHeld.busErr

theorem hostWriteAt {p : Port} {key : Nat} {r : RegAcc} (h : s.InRange) : (s.hostWriteAt p key r).InRange := h.hostWrite

theorem compareReference {v : Nat} (h : s.InRange) : (s.compareReference v).InRange :=
  (h.units.frame fun _ m => m.when fun _ m => m.setf).when fun _ h => h.report

theorem qspiReadWord {w i : Nat} (h : s.InRange) : AnswerInRange (s.qspiReadWord w i) :=
  .ite (.mk h.hostWindowRead.fst) (.ite (.mk (h.frame fun _ m => m.busErr)) (.mk (h.frame fun _ m => m.hostReadAt)))

theorem qspiWords {w n i : Nat} {ws : List Nat} (h : s.InRange) : AnswerInRange (s.qspiWords w n i ws) := by
  induction n generalizing s i ws with
  | zero => exact h
  | succ n ih =>
    have read := (h.qspiReadWord (w := w) (i := i)).fst
    unfold State.qspiWords
    split
    next done => rw [done] at read; exact ih read
    next done => rw [done] at read; exact .mk read

theorem qspiReadFrame {w n : Nat} (h : s.InRange) : (s.qspiReadFrame w n).InRange :=
  h.optElse fun h => (h.frame fun _ m => m.modHost).bind fun h => .ite (h.frame fun _ m => m.busErr)
    (.ite (h.frame fun _ m => m.busErr.returned) (h.qspiWords.fst.frame fun _ m => m.status.returned))

theorem qspiWriteWord {w i : Nat} {v : Word} (h : s.InRange) : (s.qspiWriteWord w i v).InRange :=
  .ite h.hostWindow (.ite (h.frame fun _ m => m.busErr) h.hostWrite)

theorem qspiPut {w i : Nat} {ws : List Word} (h : s.InRange) : (s.qspiPut w i ws).InRange := by
  induction ws generalizing s i with
  | nil => exact h
  | cons v vs ih =>
    unfold State.qspiPut
    exact h.qspiWriteWord.opt fun h => ih h

theorem qspiWriteFrame {w : Nat} {ws : List Word} (h : s.InRange) : (s.qspiWriteFrame w ws).InRange :=
  h.optElse fun h => (h.frame fun _ m => m.modHost).bind fun h1 => .ite (h1.frame fun _ m => m.busErr) h1.qspiPut

end State.InRange

end Sys2Proof.Machine
end

section
/-! PROOFS. The image of a good verdict is in range (O6): its structure check bounds the numbers of its records. -/

set_option Elab.async false

namespace Sys2Proof.Machine

theorem firstBad_none {l : List (Option Nat)} (clean : firstBad l = none) {x : Option Nat} (hx : x ∈ l) : x = none := by
  unfold firstBad at clean
  cases found : l.find? Option.isSome with
  | none => simpa using List.find?_eq_none.1 found x hx
  | some y =>
    rw [found] at clean
    have some_y := List.find?_some found
    rw [show y = none from clean] at some_y
    cases some_y

theorem badRec_none {α : Type} {off n : Nat} {l : List α} {ok : α → Bool} (clean : badRec off n l ok = none) {x : α} (hx : x ∈ l) :
    ok x = true := by
  unfold badRec at clean
  simpa using List.findIdx?_eq_none_iff.1 (Option.map_eq_none_iff.1 clean) x hx

/-- The structure check of R75 bounds the numbers of the LOOPS and SELECTORS records (R125). -/
theorem Image.inRange_of_structureBad {i : Image} {grade : Nat} {l : List (Nat × Nat × List Byte)}
    (clean : i.structureBad grade l = none) : i.InRange where
  loops := by
    have rule := firstBad_none clean (List.mem_of_getElem? (i := 13) rfl)
    intro r hr
    have ok := badRec_none rule hr
    simp only [Image.loopOk, Bool.and_eq_true, decide_eq_true_eq] at ok
    omega
  selectors := by
    have rule := firstBad_none clean (List.mem_of_getElem? (i := 9) rfl)
    intro r hr
    have ok := List.findIdx?_eq_none_iff.1 (Option.map_eq_none_iff.1 rule) r hr
    simp only [Image.selectorOk, Bool.not_eq_false', Bool.and_eq_true, decide_eq_true_eq] at ok
    omega

/-- The image of a good verdict is in range. -/
def VerdictInRange (v : Verdict) : Prop := ∀ i p, v = .good i p → i.InRange

theorem VerdictInRange.bad {code off : Nat} : VerdictInRange (.bad code off) := fun _ _ e => by cases e

theorem VerdictInRange.ite {c : Prop} [Decidable c] {v w : Verdict} (hv : VerdictInRange v) (hw : VerdictInRange w) :
    VerdictInRange (if c then v else w) := by
  split
  · exact hv
  · exact hw

theorem State.verdictInRange_judgeImage (s : State) {b : List Byte} {len : Nat} {signer : Option (List Byte)} {full : Bool} :
    VerdictInRange (s.judgeImage b len signer full) := by
  unfold State.judgeImage
  split
  · exact .bad
  refine .ite .bad ?_
  split
  · exact .bad
  refine .ite .bad (.ite .bad (.ite .bad (.ite .bad (.ite .bad (.ite .bad (.ite .bad ?_))))))
  split
  · exact .bad
  extract_lets i
  split
  · exact .bad
  next clean => exact fun _ _ e => by cases e; exact Image.inRange_of_structureBad clean

theorem State.verdictInRange_judgeSlipway (s : State) {len : Nat} {signer : Option (List Byte)} {full : Bool} :
    VerdictInRange (s.judgeSlipway len signer full) := by
  unfold State.judgeSlipway State.judgeFull
  split
  · exact .bad
  next judged =>
    split
    · exact .bad
    · exact fun _ _ e => by cases e; exact s.verdictInRange_judgeImage _ _ judged

theorem State.verdictInRange_loadVerdict (s : State) (j : LoadJob) : VerdictInRange (s.loadVerdict j) :=
  .ite s.verdictInRange_judgeSlipway (.ite .bad s.verdictInRange_judgeSlipway)

end Sys2Proof.Machine
end

section
/-! PROOFS. Landing an image that is in range keeps numbers in range (O6). -/

set_option Elab.async false

namespace Sys2Proof.Machine

variable {s t : State}

namespace State.InRange

theorem buildStructure {i : Image} (h : s.InRange) (hi : i.InRange) : (s.buildStructure i).InRange := by
  unfold State.buildStructure
  extract_lets _ s1 s2 s3 s4 s5 s6 s7 s8
  have h1 : s1.InRange := h.fabImage fun _ e => Option.some.inj e ▸ hi
  have h3 : s3.InRange := (h1.frame fun _ m => m.buildFab.forL fun _ _ m => m.buildLanding).opt fun h => h.frame fun _ m => m.setf
  have h8 : s8.InRange := h3.frame fun _ m => (((((m.forL fun _ _ m => m.buildSelector).forL fun _ _ m => m.buildLoop).forL fun _ _ m =>
    m.buildSynth).forL fun _ _ m => m.buildOutput).forL fun _ _ m => m.buildTsc).forL fun _ _ m => m.buildPort
  split
  · exact h8.frame fun _ m => m.buildXlk
  · exact h8

theorem preloadStep {u : Preloaded} {trial : Bool} {x : PreloadRec × Nat} (h : u.st.InRange) : (u.step trial x).st.InRange := by
  unfold Preloaded.step
  extract_lets e s addr fail
  split
  · exact h
  split
  · exact h
  split
  · exact h
  extract_lets w t
  split
  · exact h
  split
  · exact h
  split
  · exact h
  · exact h.perform

theorem preload {i : Image} {trial : Bool} {k : Nat} (h : s.InRange) : (s.preload i trial k).st.InRange := by
  unfold State.preload
  have start : (⟨{ s with top := { s.top with resetting := false } }, none, false, none⟩ : Preloaded).st.InRange := h.units
  generalize (⟨_, none, false, none⟩ : Preloaded) = u at start
  induction i.preload.zipIdx.drop k generalizing u with
  | nil => exact start
  | cons x l ih => exact ih _ start.preloadStep

theorem ownFuses {w : List Byte} {stage : OwnStage} (h : s.InRange) : (s.ownFuses w stage).InRange := by
  unfold State.ownFuses
  extract_lets o s1 c
  have h1 : s1.InRange := h.frame fun _ m => m.fuseDone
  clear_value o s1
  split
  · exact h
  · split
    · exact h1.frame fun _ m => m.setf.setf.mboxEmpty.secDone
    · exact h1
  · exact .ite ((h.frame fun _ m => m.took).fuseError.frame fun _ m => m.setf.secDone.setf) h.fuseError

theorem ownJudged {o : SecOp} {stage : OwnStage} (h : s.InRange) : (s.ownJudged o stage).InRange := by
  unfold State.ownJudged
  extract_lets w s1
  have h1 : s1.InRange := h.bankCheck
  split
  · exact h1.verifyFails.frame fun _ m => m.setf.secDone
  · exact (h1.frame fun _ m => m.fuseBegin).ownFuses

theorem moveFenced {i : Image} {e : Nat} (h : s.InRange) : (s.moveFenced i e).InRange := by
  unfold State.moveFenced
  refine h.opt fun h => ?_
  split
  · exact .ite (h.frame fun _ m => m.moveTo).endCopy (h.frame fun _ m => m.strand)
  · exact h.frame fun _ m => m.strand

theorem testFenced {i : Image} {e : Nat} (h : s.InRange) : (s.testFenced i e).InRange := h.opt fun h => (h.frame fun _ m => m.took).testEnds

theorem landEngines {i : Image} (h : s.InRange) : (s.landEngines i).InRange :=
  ((((h.forN fun _ _ h => h.moveFenced).forN fun _ _ h => h.testFenced).forN fun _ _ h => h.opt fun h => h.frame fun _ m =>
    m.toPontoon).forN fun _ _ h => h.opt fun h => h.frame fun _ m => m.placeLoop).forN fun _ _ h => h.opt fun h =>
    h.frame fun _ m => m.placeLoop

theorem landLoops {old : Option Image} {i : Image} {cores : List LoopCore} (h : s.InRange) : (s.landLoops old i cores).InRange := by
  unfold State.landLoops
  refine forL (forL (h.forN fun _ _ h => h.optElse fun h => h.frame fun _ m => m.modLoop.modHo) fun _ _ h => ?_) fun _ _ h =>
    (h.frame fun _ m => m.modLoop.freezeLoop).report
  extract_lets
  split
  · split
    · exact .ite (h.frame fun _ m => m.resumeLoop) (h.frame fun _ m => m.freshLoop)
    · exact h.frame fun _ m => m.freshLoop
  · exact h.frame fun _ m => m.freshLoop

theorem landed143 {i : Image} {j : LoadJob} (h : s.InRange) : (s.landed143 i j).InRange := by
  unfold State.landed143
  extract_lets back cold s1 s2 s3 s4 _ _ s5 s6 s7
  have h4 : s4.InRange := h.frame fun _ m => m.setf.setf.landSlot.setb.setf.setf.setf
  have h5 : s5.InRange := ⟨h4.image, h4.berths⟩
  exact h5.frame fun _ m => (m.logDev.raise.when fun _ m => m.raise).raise

theorem landImage {i : Image} {j : LoadJob} (h : s.InRange) (hi : i.InRange) : (s.landImage i j).InRange := by
  unfold State.landImage
  extract_lets old cores _ s1 p s2 _ s3 s4 _ _ s5 s6 s7
  have h1 : s1.InRange := .ite (h.fabImage fun _ e => Option.some.inj e ▸ hi)
    (((h.frame fun _ m => m.landScratchpads).landEngines.buildStructure hi).frame fun _ m => m.dirty)
  have h2 : s2.InRange := h1.preload
  have h4 : s4.InRange := (h2.landed143.frame fun _ m => m.landClocks).landLoops.frame fun _ m => m.nomChanged
  have h5 : s5.InRange := (h4.frame fun _ m => m.endFerry).units
  refine .ite (h2.fabImage h.image) (.ite (h2.fabImage h.image) (State.InRange.esmcRefresh ?_))
  exact h5.frame fun _ m =>
    ((m.forL fun _ _ m => m.beginLanding).landSelectors.forN fun _ _ m => m.landPort).landXlk.landKeys.refreshNext.billCheck

end State.InRange

end Sys2Proof.Machine
end

section
/-! PROOFS. Every command and every step keep numbers in range (O6). -/

set_option Elab.async false

namespace Sys2Proof.Machine

variable {s : State}

namespace State.InRange

/-! Commands whose meaning has several cases. -/

theorem execCanaryWindowEnd {laps : BitVec 16} (h : s.InRange) : OutcomeInRange (execCanaryWindowEnd laps s) :=
  .ite h.next ((((h.frame fun _ m => m.setf.setf.lagWindow).opt fun h => h.units.opt fun h => h.frame fun _ m => m.injDone).deficit.frame
    fun _ m => m.voltageStep).opt fun h => h.firstLoad).next

theorem execAvsStepDone {mv : Nat} {ok : Bool} (h : s.InRange) : OutcomeInRange (execAvsStepDone mv ok s) := by
  unfold Machine.execAvsStepDone
  split
  · exact h.next
  · exact (h.opt fun h => h.units.frame fun _ m => m.injDone).units.bind fun h =>
      .ite (h.units.frame fun _ m => m.setf.ev.raise).reportInj.next h.next

theorem execStartupInitDone {failed : List (Fin 36)} {fuseOk : Bool} (h : s.InRange) :
    OutcomeInRange (execStartupInitDone failed fuseOk s) := by
  unfold Machine.execStartupInitDone
  refine .ite h.next ?_
  extract_lets s1 _ s2 s3
  have h1 : s1.InRange := h.forL fun _ _ h => .ite (h.frame fun _ m => m.fuseDone) h.fuseError
  have h2 : s2.InRange := ⟨h1.image, h1.berths⟩
  exact (h2.forN fun _ _ h => .ite (h.frame fun _ m => m.patternHistory).testEnds (h.frame fun _ m => m.toPontoon)).next

theorem execFlmLinkReady (h : s.InRange) : OutcomeInRange (execFlmLinkReady s) :=
  .ite h.next (((h.units.frame fun _ m => m.setf.showDirectory).optElse fun h =>
    h.frame fun _ m => m.setf.commitBoot.logDev).opt fun h => h.firstLoad).next

theorem execVerifyDone (h : s.InRange) : OutcomeInRange (execVerifyDone s) := by
  unfold Machine.execVerifyDone
  split
  · exact h.next
  refine .ite h.next ?_
  extract_lets s1 s2
  have h1 : s1.InRange := h.bankCheck
  have h2 : s2.InRange := by
    unfold s2
    split
    · exact (h1.frame fun _ m => m.setf).verifyFails
    · exact h1.frame fun _ m => m.setf.setf
  exact (h2.fabDone.frame fun _ m => m.verifyServed).next

theorem execWriteSlotDone {readBack : Bool} {bad : List (Nat × List Nat)} (h : s.InRange) :
    OutcomeInRange (execWriteSlotDone readBack bad s) := by
  unfold Machine.execWriteSlotDone
  split
  · exact h.next
  · exact h.blocksBad.units.bind fun h => .ite h.fabDone.next
      (.ite (h.frame fun _ m => m.programSlot.slotFresh.setf.setf.notPrevious.setSlot).fabDone.next h.fabDone.next)

theorem execLoadSlotDone {bad : List (Nat × List Nat)} (h : s.InRange) : OutcomeInRange (execLoadSlotDone bad s) := by
  unfold Machine.execLoadSlotDone
  split
  · exact h.next
  refine .ite h.next ?_
  extract_lets k s1 s2 s3
  have h1 : s1.InRange := h.blocksBad
  have h2 : s2.InRange := h1.frame fun _ m => m.copySlot
  have h3 : s3.InRange := by
    refine .ite (h1.frame fun _ m => m.setf).verifyFails ?_
    split
    · exact (h2.frame fun _ m => m.setf).verifyFails
    · exact h2.frame fun _ m => m.setf.setf
  exact (h3.fabDone.frame fun _ m => m.verifyServed).next

theorem execEraseSlotDone (h : s.InRange) : OutcomeInRange (execEraseSlotDone s) := by
  unfold Machine.execEraseSlotDone
  split
  · exact h.next
  · exact (((h.frame fun _ m => m.eraseSlot).opt fun h => h.frame fun _ m => m.setf).frame fun _ m => m.notPrevious.emptySlot).fabDone.next

theorem execActivateHandoverTimeout (h : s.InRange) : OutcomeInRange (execActivateHandoverTimeout s) := by
  unfold Machine.execActivateHandoverTimeout
  split
  · exact .ite h.switchFails.next h.next
  · exact h.next

theorem execRollbackFusesDone {fuseOk : Bool} (h : s.InRange) : OutcomeInRange (execRollbackFusesDone fuseOk s) := by
  unfold Machine.execRollbackFusesDone
  split
  · exact .ite ((h.frame fun _ m => m.fuseDone).when fun _ h => h.fabDone).next
      (.ite ((h.frame fun _ m => m.took).fuseError.fabDone.frame fun _ m => m.setf).next h.fuseError.next)
  · exact h.next

theorem execImageLanded (h : s.InRange) : OutcomeInRange (execImageLanded s) := by
  unfold Machine.execImageLanded
  split
  · exact h.next
  refine .ite h.next ?_
  split
  · exact h.next
  next judged => exact (h.bankCheck.landImage (s.verdictInRange_loadVerdict _ _ _ judged)).next

theorem execLoadFailed {bad : List (Nat × List Nat)} (h : s.InRange) : OutcomeInRange (execLoadFailed bad s) := by
  unfold Machine.execLoadFailed
  split
  · exact h.next
  refine .ite (h.bankCheck.frame fun _ m => m.copySlot).fab.next ?_
  extract_lets s1
  have h1 : s1.InRange := h.blocksBad
  split
  · exact h1.checkFault.failLoad.next
  · exact h1.next

theorem execLandingWatchdogExpiry (h : s.InRange) : OutcomeInRange (execLandingWatchdogExpiry s) := by
  unfold Machine.execLandingWatchdogExpiry
  split
  · exact h.next
  · exact .ite h.next h.report.failLoad.next

theorem execRegressionDone {n : Fin 32} (h : s.InRange) : OutcomeInRange (execRegressionDone n s) := by
  unfold Machine.execRegressionDone
  split
  · exact h.next
  · exact (h.frame fun _ m => m.modLnd).regressionResult.next

theorem execLockWindowEnd {n : Fin 8} {dev : Int} (h : s.InRange) : OutcomeInRange (execLockWindowEnd n dev s) :=
  .ite ((h.frame fun _ m => m.setSat).bind fun h => .next (.ite (h.frame fun _ m => m.windowIn) h.windowOut)) h.next

theorem execTicketVerified {n : Fin 8} (h : s.InRange) : OutcomeInRange (execTicketVerified n s) := by
  unfold Machine.execTicketVerified
  split
  · exact h.next
  refine .ite h.next ?_
  extract_lets s1 s2
  have h1 : s1.InRange := h.frame fun _ m => m.modTsc.verifyServed.setf
  have h2 : s2.InRange := by
    unfold s2
    split
    · exact h1.frame fun _ m => m.ticketAccepted.complete
    · exact (h1.frame fun _ m => m.complete).ticketRejected
  exact h2.serveRequest.next

theorem execStampTask {slot : Fin 8192} (h : s.InRange) : OutcomeInRange (execStampTask slot s) := by
  unfold Machine.execStampTask
  split
  · exact h.next
  next taken =>
    have h1 := h.frame fun _ m => m.takeRun taken
    exact .ite h1.next h1.evqPush.next

theorem execSendBerthMessageTask {slot : Fin 8192} (h : s.InRange) : OutcomeInRange (execSendBerthMessageTask slot s) := by
  unfold Machine.execSendBerthMessageTask
  split
  · exact h.next
  next taken =>
    have h1 := h.frame fun _ m => m.takeRun taken
    extract_lets b miss
    have missed : miss.InRange := h1.frame fun _ m => m.inc.ev
    refine .ite h1.next ?_
    split
    · exact missed.next
    · exact .ite (.ite missed.next h1.enqueue.next) h1.enqueue.next

theorem execLinkDown {n : Fin 8} {x : LinkEnd} (h : s.InRange) : OutcomeInRange (execLinkDown n x s) := by
  unfold Machine.execLinkDown
  refine .ite (h.frame fun _ m => m.modPrt).next (.ite h.next ?_)
  extract_lets s1 up s2
  have h1 : s1.InRange := h.frame fun _ m => m.when fun _ m => m.count
  split
  · exact ((h1.portDown.frame fun _ m => m.modPrt).optElse fun h => h.frame fun _ m => m.setEq).next
  · exact .next (.ite h1.portDown (h1.opt fun h => (h.frame fun _ m => m.setf.setf.setf).loseActivity))
  · exact (h1.optElse fun h => ((h.opt fun h => h.portDownWith).frame fun _ m => m.setf.setf).opt fun h => h.loseActivity).next
  · exact (h1.optElse fun h => ((h.opt fun h => h.portDownWith).frame fun _ m => m.setf.setf.ev).opt fun h => h.loseActivity).next

theorem execTxStampDelivery {n : Fin 8} {x : TxCapture} (h : s.InRange) : OutcomeInRange (execTxStampDelivery n x s) := by
  unfold Machine.execTxStampDelivery
  refine .ite h.next ?_
  split
  · exact h.next
  split
  · exact h.next
  · exact .ite (h.frame fun _ m => m.drainAll).next
      ((h.frame fun _ m => (First.wharfStamp m).fst.sent.setf).stampOwner.frame fun _ m => m.drainAll).next

theorem execGrantExpiry {slot : Fin 8192} {t : GrantKind} (h : s.InRange) : OutcomeInRange (execGrantExpiry slot t s) := by
  unfold Machine.execGrantExpiry
  extract_lets
  split
  · exact .ite h.next (h.setGrant.frame fun _ m => m.evIf).next
  · exact h.next

theorem execGrantRenew {slot : Fin 8192} {t : GrantKind} (h : s.InRange) : OutcomeInRange (execGrantRenew slot t s) := by
  unfold Machine.execGrantRenew
  extract_lets
  split
  · exact .ite h.askGrant.next h.next
  · exact h.next

theorem execGrantRetry {slot : Fin 8192} {t : GrantKind} (h : s.InRange) : OutcomeInRange (execGrantRetry slot t s) := by
  unfold Machine.execGrantRetry
  refine .ite h.next ?_
  split
  · exact .ite h.next (h.grantFails.optElse fun h => h.askGrant).next
  · exact (h.opt fun h => h.askGrant).next

theorem execTsPresentPeriod {n : Fin 8} (h : s.InRange) : OutcomeInRange (execTsPresentPeriod n s) := by
  unfold Machine.execTsPresentPeriod
  extract_lets k s1 best standby s2
  have h1 : s1.InRange := h.frame fun _ m => m.modPte
  clear_value best
  have h2 : s2.InRange := by
    unfold s2
    split
    · exact h1.optElse fun h => h.presentUp
    · exact h1
  exact .ite h.next (h2.forL fun _ _ h => h.modUp).next

theorem execCorridorSecond {n : Fin 8} (h : s.InRange) : OutcomeInRange (execCorridorSecond n s) :=
  .ite h.next (((((h.forL fun _ _ h => h.estimate).entryResults.forL fun _ _ h => h.longTest).forL fun _ _ h => h.crossTest).frame
    fun _ m => m.modPte).forL fun _ _ h => h.modUp).next

theorem execAsymRampDone {slot : Fin 8192} (h : s.InRange) : OutcomeInRange (execAsymRampDone slot s) := by
  unfold Machine.execAsymRampDone
  extract_lets
  split
  · exact .ite h.next (h.modUp.frame fun _ m => m.ev).next
  · exact h.next

theorem execProvisionLabelDone (h : s.InRange) : OutcomeInRange (execProvisionLabelDone s) := by
  unfold Machine.execProvisionLabelDone
  split
  · exact .ite ((h.frame fun _ m => m.verifyServed).bind fun h => .ite (h.frame fun _ m => m.mboxEmpty.secDone.mboxOut).next
      (h.requestReject.frame fun _ m => m.secDone).next) h.next
  · exact h.next

theorem execTakeOwnershipDone {stage : OwnStage} (h : s.InRange) : OutcomeInRange (execTakeOwnershipDone stage s) := by
  unfold Machine.execTakeOwnershipDone
  split
  · exact h.ownFuses.next
  · split
    · exact .ite h.ownJudged.next h.next
    · exact h.next

theorem execSecRetireDone {fuseOk : Bool} (h : s.InRange) : OutcomeInRange (execSecRetireDone fuseOk s) := by
  unfold Machine.execSecRetireDone
  extract_lets o s1
  clear_value o
  have h1 : s1.InRange := by
    unfold s1
    split
    · exact h.frame fun _ m => m.fuseDone.mboxEmpty.secDone
    · exact h.frame fun _ m => m.fuseDone
  exact .ite h.next (.ite (h1.frame fun _ m => m.took).fullReset.next (.ite (h.fuseError.frame fun _ m => m.secDone).next h.fuseError.next))

theorem execTapInstruction {i : TapInstr} (h : s.InRange) : OutcomeInRange (execTapInstruction i s) := by
  unfold Machine.execTapInstruction
  extract_lets leave
  have left : (leave s).InRange := h.opt fun _ => (coldReset _ _ _).secEvent
  cases i with
  | extest | clamp | highz => exact (coldReset _ _ _).next
  | bypass | samplePreload | idcode => exact left.next
  | deviceTest | other => exact .ite left.next left.secEvent.next

theorem execCfgchkPass (h : s.InRange) : OutcomeInRange (execCfgchkPass s) :=
  .ite h.next (.ite h.units.next ((h.frame fun _ m => m.setf.incWrap).bind fun h =>
    .next (.ite (h.frame fun _ m => m.takeReference) h.compareReference)))

theorem execLogArchiveWrite {bad : List (Nat × List Nat)} (h : s.InRange) : OutcomeInRange (execLogArchiveWrite bad s) :=
  .ite h.next (h.blocksBad.bind fun h1 => .ite (h1.stores.frame fun _ m => m.incBy.ev).next (h1.stores.frame fun _ m => m.showLog).next)

theorem execManifestArchiveWrite {bad : List (Nat × List Nat)} (h : s.InRange) : OutcomeInRange (execManifestArchiveWrite bad s) := by
  unfold Machine.execManifestArchiveWrite
  refine .ite h.next ?_
  split
  · exact h.next
  · exact ((h.blocksBad.frame fun _ m => m.frozenArchived).stores.frame fun _ m => m.showDirectory).next

/-! The dispatch, and a step. -/

theorem exec (h : s.InRange) (i : Instr) : OutcomeInRange (exec i s) := by
  have parts : Sub besideNumbers besideNumbers := .refl _
  cases i with
  | registerWrite => exact h.hostWrite.next
  | clearingRead => exact h.ends .execClearingRead
  | canaryWindowEnd => exact h.execCanaryWindowEnd
  | avsStepDone => exact h.execAvsStepDone
  | avsEventRead => exact h.ends .execAvsEventRead
  | powerOn => exact (coldReset _ _ _).next
  | resetNFall => exact .ite h.next (coldReset _ _ _).next
  | resetNRise => exact h.ends .execResetNRise
  | brownOut => exact .ite h.units.next (coldReset _ _ _).next
  | refsynLocked => exact h.ends .execRefsynLocked
  | startupInitDone => exact h.execStartupInitDone
  | nvRecoveryDone => exact h.ends .execNvRecoveryDone
  | flmLinkReady => exact h.execFlmLinkReady
  | fullrstNFall => exact .ite h.next h.units.fullReset.next
  | fullrstNRise => exact .ite h.next (h.units.opt fun h => h.releaseLoad).next
  | topCmdFullReset => exact (h.doorbell fun _ h => h.topCmd).next
  | stage | verify | writeSlot | loadSlot | eraseSlot | readId | activate | commitRollback => exact h.fabDoorbell.next
  | verifyDone => exact h.execVerifyDone
  | writeSlotDone => exact h.execWriteSlotDone
  | loadSlotDone => exact h.execLoadSlotDone
  | eraseSlotDone => exact h.execEraseSlotDone
  | activateHandoverTimeout => exact h.execActivateHandoverTimeout
  | rollbackFusesDone => exact h.execRollbackFusesDone
  | imageLanded => exact h.execImageLanded
  | loadFailed => exact h.execLoadFailed
  | landingWatchdogExpiry => exact h.execLandingWatchdogExpiry
  | landingEdge => exact .ite h.rawEdge.next h.next
  | activityLost => exact .ite (h.loseActivity.opt fun h => (h.frame fun _ m => m.setf.raise).report).next h.next
  | slicerUpdate => exact h.ends .execSlicerUpdate
  | coarseWrap => exact h.ends .execCoarseWrap
  | gateEnd => exact h.ends .execGateEnd
  | gateLongTimeout => exact h.ends .execGateLongTimeout
  | intervalOverflow => exact h.ends .execIntervalOverflow
  | intervalDone => exact h.ends .execIntervalDone
  | regressionDone => exact h.execRegressionDone
  | lnd30SliceEnd => exact h.ends .execLnd30SliceEnd
  | armTdcTask => exact h.ends .execArmTdcTask
  | lndArm => exact h.ends .execLndArm
  | fetchResult => exact h.ends .execFetchResult
  | fetchCal => exact h.ends .execFetchCal
  | lndCtrlWrite | lndDecimWrite | lndGateWrite | lndNomFreqWrite | lndObsWrite | lndSliceWrite | selForceWrite | selCandCfgWrite
  | loopBwWrite | loopSlopeWrite | loopFreeFreqWrite | loopCoefWrite | loopDampWrite | loopWeightCommit | hoTempWrite | hoOvrWrite
  | outEnWrite | routeWrite | prtDormantWrite | prtTxclkWrite | prtAdminWrite | xlkAdminWrite | mboxWordWrite | mboxCommit
  | ringPiWrite | cfgchkCommit | cfgchkRefWrite | intrMaskWrite =>
    exact h.hostWriteAt.next
  | wtrExpiry => exact .ite (h.frame fun _ m => m.modEnt).entryCheck.next h.next
  | holdoffExpiry => exact .ite h.holdoffEnd.next h.next
  | readmit => exact (h.doorbell fun _ h => (h.frame fun _ m => m.setf).readmit).next
  | esmcTimeout => exact .ite h.giveRanks.next h.next
  | loopUpdate => exact h.loopUpdate.next
  | lockDwellExpiry => exact h.ends .execLockDwellExpiry
  | gearDwellExpiry => exact h.ends .execGearDwellExpiry
  | stepLoad => exact h.ends .execStepLoad
  | stepGo => exact h.ends .execStepGo
  | stepCancel => exact h.ends .execStepCancel
  | stepPhaseTask => exact h.ends .execStepPhaseTask
  | loopFetch => exact h.ends .execLoopFetch
  | historyIntervalEnd => exact h.ends .execHistoryIntervalEnd
  | refitDone => exact h.ends .execRefitDone
  | entryFitDone => exact h.ends .execEntryFitDone
  | holdoverSecond => exact h.ends .execHoldoverSecond
  | temperatureSample => exact h.ends .execTemperatureSample
  | tempStaleTimeout => exact h.ends .execTempStaleTimeout
  | fetchModel => exact h.ends .execFetchModel
  | loadModel => exact h.ends .execLoadModel
  | clearHistory => exact h.ends .execClearHistory
  | failoverResume | migrationResume => exact h.migrationEnd.next
  | historyCopyDone => exact h.endCopy.next
  | engRetire => exact h.ends .execEngRetire
  | engReturn => exact h.ends .execEngReturn
  | engMigrate => exact h.ends .execEngMigrate
  | engineSelfTestDone => exact .ite h.next (h.opt fun h => h.units.frame fun _ m => m.setf.ringEngineDone).testEnds.next
  | ferryLimitExpiry => exact h.ends .execFerryLimitExpiry
  | landWaitExpiry => exact h.ends .execLandWaitExpiry
  | bandCalDone => exact h.ends .execBandCalDone
  | analogAcqDone => exact h.ends .execAnalogAcqDone
  | lockWindowEnd => exact h.execLockWindowEnd
  | rampTo => exact h.ends .execRampTo
  | rampLoad => exact h.ends .execRampLoad
  | rampGo => exact h.ends .execRampGo
  | rampStop => exact h.ends .execRampStop
  | fetchNom => exact h.ends .execFetchNom
  | startRampTask => exact h.ends .execStartRampTask
  | rampSegmentEnd => exact h.ends .execRampSegmentEnd
  | divLoad => exact h.ends .execDivLoad
  | divApply => exact h.ends .execDivApply
  | fetchDiv => exact h.ends .execFetchDiv
  | outAlign => exact h.ends .execOutAlign
  | realignOutputTask => exact h.ends .execRealignOutputTask
  | syncPoint => exact h.ends .execSyncPoint
  | groupEnable => exact h.ends .execGroupEnable
  | groupRealign => exact h.ends .execGroupRealign
  | groupDisable => exact h.ends .execGroupDisable
  | pulseLeadingEdge => exact h.ends .execPulseLeadingEdge
  | pdiffCheck => exact h.ends .execPdiffCheck
  | setInc => exact h.ends .execSetInc
  | adjust => exact h.ends .execAdjust
  | tscStep => exact h.ends .execTscStep
  | stepTicket => exact h.ends .execStepTicket
  | ticketVerified => exact h.execTicketVerified
  | setTime => exact h.ends .execSetTime
  | schedule => exact h.ends .execSchedule
  | cancelSched => exact h.ends .execCancelSched
  | snap => exact h.ends .execSnap
  | setThresh => exact h.ends .execSetThresh
  | secondRollover => exact h.ends .execSecondRollover
  | manifestSigned => exact h.ends .execManifestSigned
  | adjustComplete => exact h.ends .execAdjustComplete
  | scheduledIncrementDue => exact h.ends .execScheduledIncrementDue
  | applySchedTask => exact h.ends .execApplySchedTask
  | todoutMessage => exact h.ends .execTodoutMessage
  | swevt => exact h.ends .execSwevt
  | stampTask => exact h.execStampTask
  | sendBerthMessageTask => exact h.execSendBerthMessageTask
  | linkSignalDetect => exact h.ends .execLinkSignalDetect
  | linkUp => exact h.ends .execLinkUp
  | linkSettled => exact h.ends .execLinkSettled
  | linkDown => exact h.execLinkDown
  | linkHoldExpiry => exact h.ends .execLinkHoldExpiry
  | frameReceived | esmcPduReceived | pauseReceived => exact h.rxFrame.next
  | pauseQuantaExpiry => exact h.ends .execPauseQuantaExpiry
  | pauseWatchdogExpiry => exact h.ends .execPauseWatchdogExpiry
  | pauseRepeat => exact h.ends .execPauseRepeat
  | esmcInfoTx => exact .ite (h.esmcSend.frame fun _ m => m.modPrt).next h.next
  | txStampDelivery => exact h.execTxStampDelivery
  | preemptVerifyDone => exact h.ends .execPreemptVerifyDone
  | frameSend | frameRecv | berthCreate | berthDestroy | berthEnable | berthDisable | paramSet | paramGet | attach | detach | evqPop
  | evqScan | msgLoad | berthInfo | tenantOpen | tenantClose | manPeek | manExport | nop =>
    exact h.ringPost.next
  | tsqPop => exact h.ends .execTsqPop
  | fetchStats => exact h.ends .execFetchStats
  | peekStats => exact h.ends .execPeekStats
  | wakeLoad => exact h.ends .execWakeLoad
  | prtLoopcal => exact h.ends .execPrtLoopcal
  | prtLoopcalDone => exact h.ends .execPrtLoopcalDone
  | syncReceived | delayReqReceived | followUpReceived | delayRespReceived | announceReceived | signalingReceived => exact h.rxPtp.next
  | syncTxInterval => exact .ite h.sendSync.next h.next
  | delayReqTxInterval => exact .ite h.sendDelayReq.next h.next
  | announceTxInterval => exact .ite h.sendAnnounce.next h.next
  | followUpTimeout => exact ((h.frame fun _ m => (m.forL fun _ _ m => m.fuLost)).optElse fun h => h.modUp).next
  | announceTimeout => exact .ite (h.modUp.frame fun _ m => m.ev).streamFault.upFollow.next h.next
  | grantExpiry => exact h.execGrantExpiry
  | grantRenew => exact h.execGrantRenew
  | grantRetry => exact h.execGrantRetry
  | sampleStreamTimeout => exact .ite h.streamFault.next h.next
  | tsPresentPeriod => exact h.execTsPresentPeriod
  | corridorSecond => exact h.execCorridorSecond
  | corridorReadmit => exact .ite h.promote.next h.next
  | admitPop | fetchDataset | promote | asymLoad | asymClear => exact (h.doorbell fun _ h => h.pteCommand).next
  | asymRampDone => exact h.execAsymRampDone
  | helloReceived | heartbeatReceived | phaseReceived | loopstateReceived | timestateReceived | berthstateReceived
  | switchRequestReceived | switchAcceptReceived | switchRefuseReceived | switchCommitReceived | noticeReceived =>
    exact h.xlkRx.next
  | helloTx => exact h.ends .execHelloTx
  | heartbeatTx => exact h.ends .execHeartbeatTx
  | phaseTx => exact h.ends .execPhaseTx
  | loopstateTx => exact h.ends .execLoopstateTx
  | timestateTx => exact h.ends .execTimestateTx
  | berthstateTx => exact h.ends .execBerthstateTx
  | heartbeatLoss => exact .ite h.breakPair.next h.next
  | incumbentTimer => exact h.ends .execIncumbentTimer
  | xlkSwitch => exact h.ends .execXlkSwitch
  | switchAcceptTimeout => exact .ite h.switchFails.negotiate.next h.next
  | fetchLoops => exact h.ends .execFetchLoops
  | fetchTimes => exact h.ends .execFetchTimes
  | xlkLoopcal => exact h.ends .execXlkLoopcal
  | xlkLoopcalDone => exact h.ends .execXlkLoopcalDone
  | xlkPresentPeriod => exact h.ends .execXlkPresentPeriod
  | xlkLaneUp => exact h.ends .execXlkLaneUp
  | xlkLaneDown => exact h.laneDown.next
  | certRead | attest | attestRead | provisionLabel | keyLoad | keyRoll | keyErase | keyList | takeOwnership | secRetire =>
    exact h.secDoorbell.next
  | attestDone => exact h.ends .execAttestDone
  | provisionLabelDone => exact h.execProvisionLabelDone
  | takeOwnershipDone => exact h.execTakeOwnershipDone
  | secRetireDone => exact h.execSecRetireDone
  | tapInstruction => exact h.execTapInstruction
  | qspiRead | qspiQread => exact h.qspiReadFrame.next
  | qspiWrite | qspiQwrite => exact h.qspiWriteFrame.next
  | qspiPstat => exact h.ends .execQspiPstat
  | qspiCsRise => exact h.ends .execQspiCsRise
  | pcieReset => exact h.ends .execPcieReset
  | pcieLinkChange => exact h.ends .execPcieLinkChange
  | mboxLastRead => exact h.ends .execMboxLastRead
  | ringEntryStart => exact h.ringStart.next
  | cfgchkPass => exact h.execCfgchkPass
  | hostWindowWrite => exact .ite h.hostWindow.next h.next
  | atAdd | atSwap => exact (h.doorbell fun _ h => h.atomic).next
  | scrubCycle => exact .ite h.next (h.stores.eccRead.opt fun h => h.frame fun _ m => m.incWrap).next
  | nvRead => exact h.ends .execNvRead
  | nvWrite => exact h.ends .execNvWrite
  | nvCommit => exact h.ends .execNvCommit
  | nvCommitDone => exact h.ends .execNvCommitDone
  | setPw => exact h.ends .execSetPw
  | unlock => exact h.ends .execUnlock
  | nvLock => exact h.ends .execNvLock
  | logRead => exact h.ends .execLogRead
  | ledgerCheckpointTimer => exact h.ends .execLedgerCheckpointTimer
  | vholdSample => exact h.ends .execVholdSample
  | pfailAssert => exact h.ends .execPfailAssert
  | pfailStoreDone => exact h.ends .execPfailStoreDone
  | pfailDeassert => exact h.ends .execPfailDeassert
  | logbookHeadWrite => exact h.ends .execLogbookHeadWrite
  | logArchiveWrite => exact h.execLogArchiveWrite
  | manifestArchiveWrite => exact h.execManifestArchiveWrite
  | format => exact h.ends .execFormat
  | formatDone => exact h.ends .execFormatDone
  | scrubNow => exact h.ends .execScrubNow
  | flashScrubPass => exact .ite h.next ((h.frame fun _ m => m.evIf).blocksBad.frame fun _ m => m.ev).next
  | faultMessage => exact .ite h.next (.ite h.report.next h.report.next)
  | fltPop => exact h.ends .execFltPop
  | errRelease => exact h.ends .execErrRelease
  | trapClear => exact h.ends .execTrapClear
  | injArm => exact (h.doorbell fun _ h => h.injArm).next
  | injCancel => exact h.ends .execInjCancel
  | errWidthExpiry => exact h.ends .execErrWidthExpiry
  | quietPeriodExpiry => exact h.ends .execQuietPeriodExpiry
  | supplyRailFault => exact .ite h.next (h.units.frame fun _ m => m.setf.setf.raise).report.next
  | xoinLost | refsynUnlock => exact h.onset.next
  | overTemperature => exact .ite h.onset.next h.next
  | overTemperatureClear => exact h.ends .execOverTemperatureClear
  | eqLimitReached => exact h.ends .execEqLimitReached
  | xlkFrameDrop => exact h.ends .execXlkFrameDrop
  | msixEnable => exact h.ends .execMsixEnable
  | xoinReturn => exact h.ends .execXoinReturn
  | supplyRailReturn => exact h.ends .execSupplyRailReturn

theorem tick (h : s.InRange) : s.tick.InRange := by
  have advanced : s.advance.InRange := h.frame fun _ m => m.advance
  unfold State.tick
  split
  · exact advanced.queued
  · exact h

theorem step (h : s.InRange) : OutcomeInRange (step s) := by
  unfold Machine.step
  split
  · exact h.tick.next
  · exact h.queued.exec _

theorem reset : State.reset.InRange := ⟨fun _ e => absurd e (Option.some_ne_none _).symm, fun _ hx => absurd hx List.not_mem_nil⟩

end State.InRange

/-- Settles O6: `State.InRange`, which `State.numbered` decides, holds of the reset state and of what each command leaves. -/
theorem numbersStayInRange : Obligations.NumbersStayInRange := by
  unfold Obligations.NumbersStayInRange
  simp only [State.numbered_iff]
  exact ⟨State.InRange.reset, fun _ t h ran => h.step t ran⟩

end Sys2Proof.Machine
end

section
/-! PROOFS. The landing of an image (O14): which image is in force, and the full reset that a landing ends. -/

namespace Sys2Proof.Machine

/-- All parts of the state but TOP and FAB, which are parts 8 and 10 (`Part.index`). -/
def besideReset : Nat := 0xFFFFFFAFF

/-- An operation that reaches neither TOP nor FAB, by the laws of `Moves`, which look for a bound of their parts in the context. -/
theorem State.top_fab_of_frame {s t : State} (m : Sub besideReset besideReset → Moves besideReset s s → Moves besideReset s t) :
    t.top = s.top ∧ t.fab = s.fab :=
  have m := m (.refl _) (.refl s)
  ⟨m.p8 rfl, m.p10 rfl⟩

/-! What a load changes of FAB. -/

section

variable (s : State)

/-- The load that begins is the one of the job, from now on. -/
theorem State.fab_beginLoad (j : LoadJob) : (s.beginLoad j).fab = { s.fab with load := some { j with since := s.now } } := by
  have synths : ∀ t : State, t.startSynths.fab = t.fab := fun t => ((Moves.refl t).startSynths (Sub.refl _)).p10 rfl
  have copied : ∀ t : State, (t.copySlot j.slot).fab = t.fab ∧ (t.copySlot j.slot).now = t.now := fun t =>
    have m := (Moves.refl t).copySlot (k := j.slot) (Sub.refl _)
    ⟨m.p10 rfl, m.p0 rfl⟩
  unfold State.beginLoad
  extract_lets s1 s2 s3 _ s4
  have h1 : s1.fab = s.fab ∧ s1.now = s.now := by
    unfold s1
    split
    · exact ⟨rfl, rfl⟩
    · exact copied s
  have h3 : s3.fab = s1.fab ∧ s3.now = s1.now := by
    simp only [s3, s2, State.fab_setf, State.now_setf, and_self]
  clear_value s1 s3
  have h4 : s4.fab = { s.fab with load := some { j with since := s.now } } := by
    rw [← h1.1, ← h1.2, ← h3.1, ← h3.2]
  split
  · rw [synths, h4]
  · exact h4

theorem State.fab_loadExhausted : s.loadExhausted.fab = { s.fab with load := none } := by
  unfold State.loadExhausted
  rw [State.fab_raise, State.fab_setf]

theorem State.img_tryFlash (order tried : List Nat) (first : Option Nat) : (s.tryFlash order tried first).fab.img = s.fab.img := by
  unfold State.tryFlash
  split
  · rw [State.fab_beginLoad]
  · rw [State.fab_loadExhausted]
    split
    · rw [State.fab_setf]
    · rfl

theorem State.img_startLoad : s.startLoad.fab.img = s.fab.img := by
  unfold State.startLoad
  extract_lets src s1
  split
  · rw [State.fab_beginLoad]
  split
  · exact (State.img_tryFlash _ _ _ _).trans (congrArg FabCore.img (s.fab_setf _ _))
  split
  · rw [State.fab_beginLoad]
  · exact State.img_tryFlash _ _ _ _

theorem State.top_startLoad : s.startLoad.top = s.top := ((Moves.refl s).startLoad (Sub.refl _)).p8 rfl

theorem State.fab_fullCores : s.fullCores.fab = { s.fab with load := none, op := none, handover := none } := by
  unfold State.fullCores
  extract_lets keepHost s1
  have begun : s1.fab = s.fab := (State.top_fab_of_frame fun _ m => m.ferryGens.setf).2
  clear_value s1
  change ({ s1.fab with load := none, op := none, handover := none } : FabCore) = _
  rw [begun]

theorem State.top_fullCores : s.fullCores.top = s.top := ((Moves.refl s).fullCores (Sub.refl _)).p8 rfl

end

/-! The image in force. -/

/-- The image is in force, and one has landed since cold reset. -/
structure State.InForce (s : State) (i : Image) : Prop where
  image : s.fab.img = some i
  once : s.top.landedOnce = true

variable {s t : State} {i : Image}

namespace State.InForce

theorem same (h : s.InForce i) (image : t.fab.img = s.fab.img) (once : t.top.landedOnce = s.top.landedOnce) : t.InForce i :=
  ⟨image.trans h.image, once.trans h.once⟩

/-- FAB keeps its image. -/
theorem fab (h : s.InForce i) {load heldJob op handover} :
    ({ s with fab := ⟨s.fab.img, load, heldJob, op, handover⟩ } : State).InForce i := ⟨h.image, h.once⟩

/-- TOP keeps that an image has landed. -/
theorem units (h : s.InForce i) {top flt eng} (once : top.landedOnce = s.top.landedOnce) :
    ({ s with top := top, flt := flt, eng := eng } : State).InForce i := ⟨h.image, once.trans h.once⟩

theorem fullCores (h : s.InForce i) : s.fullCores.InForce i where
  image := by rw [s.fab_fullCores]; exact h.image
  once := by rw [s.top_fullCores]; exact h.once

theorem startLoad (h : s.InForce i) : s.startLoad.InForce i where
  image := s.img_startLoad.trans h.image
  once := by rw [s.top_startLoad]; exact h.once

theorem frame (h : s.InForce i) (m : Sub besideReset besideReset → Moves besideReset s s → Moves besideReset s t) : t.InForce i :=
  have same := State.top_fab_of_frame m
  h.same (congrArg FabCore.img same.2) (congrArg TopCore.landedOnce same.1)

theorem opt {c : Prop} [Decidable c] (h : s.InForce i) (k : s.InForce i → t.InForce i) : (if c then t else s).InForce i := by
  split
  · exact k h
  · exact h

/-- A full reset leaves the image in force; another one that lands takes its place (R104). -/
theorem fullReset {cause : Nat} (h : s.InForce i) : (s.fullReset cause).InForce i := by
  have cleared : ∀ {t : State}, t.InForce i → t.fullCores.resetFull.refreshEng.InForce i := fun h =>
    h.fullCores.frame fun _ m => m.resetFull.refreshEng
  unfold State.fullReset
  split
  · exact h
  extract_lets again s1 s2 s3 s4 s5 s6 s7 s8 _ _ s9 s10
  have h8 : s8.InForce i := h.frame fun _ m => (((m.logDev.xlkNotice.setf.inc.setf.forN fun _ _ m => m.ferryLoop).forN fun _ _ m =>
    m.ferryTsc).ferrySynths.forN fun _ _ m => m.ferryEngine)
  have h10 : s10.InForce i := cleared (h8.units rfl)
  clear_value again s10
  split
  · split
    · exact h10.fab
    · exact h10.fab
  · split
    · exact h10
    · exact h10.startLoad

theorem react {src kind addr : Nat} {inj : Bool} (h : s.InForce i) : (s.react src kind addr inj).InForce i :=
  ((((h.opt fun h => h.frame fun _ m => m.ev.ev).opt fun h => h.frame fun _ m => m.trap).opt fun h =>
    h.frame fun _ m => m.errorPin).opt fun h => h.frame fun _ m => m.blockReset).opt fun h => h.fullReset

theorem report {src kind addr : Nat} (h : s.InForce i) : (s.report src kind addr).InForce i := by
  unfold State.report State.reportInj
  extract_lets _ _ _ _ s1 s2
  split
  · have h1 : s1.InForce i := h.units rfl
    exact (h1.frame fun _ m => m.setf.ev.record).react
  · exact (h.frame fun _ m => m.record).react

end State.InForce

/-! The landing. -/

/-- The image has landed: it is in force, and, where it has no loops, the reset is ferried. -/
structure State.Landed (s : State) (i : Image) : Prop where
  inForce : s.InForce i
  ended : i.loops = [] → s.top.inFull = false ∧ s.fab.load = none

namespace State.Landed

theorem frame (h : s.Landed i) (m : Sub besideReset besideReset → Moves besideReset s s → Moves besideReset s t) : t.Landed i where
  inForce := h.inForce.frame m
  ended noLoops := by
    obtain ⟨top, fab⟩ := State.top_fab_of_frame m
    rw [top, fab]
    exact h.ended noLoops

theorem eng (h : s.Landed i) {eng} : ({ s with eng := eng } : State).Landed i := ⟨h.inForce.units rfl, h.ended⟩

/-- Loops resume or start; the report of one that is stranded may end in a full reset (R47, R663). -/
theorem landLoops {old : Option Image} {cores : List LoopCore} (h : s.Landed i) : (s.landLoops old i cores).Landed i := by
  have gone : (s.forN 32 (fun s l => if i.loop l then s else (s.modLoop l (fun _ => {})).modHo l (fun _ => {}))).Landed i :=
    h.frame fun _ m => m.forN fun _ _ m => .ite m m.modLoop.modHo
  by_cases noLoops : i.loops = []
  · unfold State.landLoops
    rw [noLoops]
    exact gone
  refine ⟨?_, fun e => absurd e noLoops⟩
  have built : ∀ (t : State) (x : LoopRec × LoopCore), t.InForce i → (match t.engineFor x.1.loop with
      | some e => match t.lastCheckpoint e with
        | some k => if sameLoop old x.1 then t.resumeLoop x.1 e k else t.freshLoop old.isNone x.1 x.2
        | none => t.freshLoop old.isNone x.1 x.2
      | none => t.freshLoop old.isNone x.1 x.2).InForce i := by
    intro t x h
    have fresh : (t.freshLoop old.isNone x.1 x.2).InForce i := h.frame fun _ m => m.freshLoop
    split
    · split
      · split
        · exact h.frame fun _ m => m.resumeLoop
        · exact fresh
      · exact fresh
    · exact fresh
  have each : ∀ {α : Type} {g : State → α → State} (l : List α) (t : State), (∀ t x, t.InForce i → (g t x).InForce i) →
      t.InForce i → (t.forL l g).InForce i := by
    intro α g l
    induction l with
    | nil => exact fun t _ h => h
    | cons x l ih => exact fun t k h => ih (g t x) k (k t x h)
  exact each _ _ (fun t r h => (h.frame fun _ m => m.modLoop.freezeLoop).report) (each _ _ built gone.inForce)

end State.Landed

theorem State.fab_buildStructure (s : State) (i : Image) : (s.buildStructure i).fab = { s.fab with img := some i } := by
  unfold State.buildStructure
  extract_lets _ s1 s2 s3 s4 s5 s6 s7 s8
  have h1 : s1.fab = { s.fab with img := some i } := rfl
  have h3 : s3.fab = s1.fab := by
    have h2 : s2.fab = s1.fab := (State.top_fab_of_frame fun _ m => m.buildFab.forL fun _ _ m => m.buildLanding).2
    unfold s3
    split
    · exact (State.fab_setf _ _ _).trans h2
    · exact h2
  have h8 : s8.fab = s3.fab := (State.top_fab_of_frame fun _ m => (((((m.forL fun _ _ m => m.buildSelector).forL fun _ _ m =>
    m.buildLoop).forL fun _ _ m => m.buildSynth).forL fun _ _ m => m.buildOutput).forL fun _ _ m => m.buildTsc).forL fun _ _ m =>
    m.buildPort).2
  have h : s8.fab = { s.fab with img := some i } := h8.trans (h3.trans h1)
  split
  · exact (State.top_fab_of_frame fun _ m => m.buildXlk).2.trans h
  · exact h

/-- The moment of landing, with the image in force. -/
theorem State.landed_landed143 (j : LoadJob) (image : s.fab.img = some i) : (s.landed143 i j).Landed i := by
  unfold State.landed143
  extract_lets back cold s1 s2 s3 s4 _ _ s5 s6 s7
  have h4 : s4.fab = s.fab := (State.top_fab_of_frame fun _ m => m.setf.setf.landSlot.setb.setf.setf.setf).2
  clear_value s4
  have h5 : s5.Landed i := ⟨⟨(congrArg FabCore.img h4).trans image, rfl⟩, fun _ => ⟨rfl, rfl⟩⟩
  exact h5.frame fun _ m => (m.logDev.raise.when fun _ m => m.raise).raise

/-- A load of an image without preload entries ends in its landing. -/
theorem State.landed_landImage (s : State) (j : LoadJob) (empty : i.preload = []) : (s.landImage i j).Landed i := by
  unfold State.landImage
  extract_lets old cores _ s1 p s2 _ s3 s4 _ _ s5 s6 s7
  have built : s1.fab.img = some i := by
    unfold s1
    split
    · rfl
    · rw [(State.top_fab_of_frame fun _ m => m.dirty).2, State.fab_buildStructure]
  have applied : p = ⟨{ s1 with top := { s1.top with resetting := false } }, none, false, none⟩ := by
    unfold p State.preload
    rw [empty, List.zipIdx_nil, List.drop_nil, List.foldl_nil]
  have noReset : ¬ p.reset = true := by rw [applied]; exact Bool.false_ne_true
  have noWait : ¬ p.wait.isSome = true := by rw [applied]; exact Bool.false_ne_true
  have h2 : s2.fab.img = some i := (congrArg (fun u : Preloaded => u.st.fab.img) applied).trans built
  have h4 : s4.Landed i := ((s2.landed_landed143 j h2).frame fun _ m => m.landClocks).landLoops.frame fun _ m => m.nomChanged
  have h5 : s5.Landed i := (h4.frame fun _ m => m.endFerry).eng
  rw [if_neg noReset, if_neg noWait]
  exact h5.frame fun _ m =>
    (((m.forL fun _ _ m => m.beginLanding).landSelectors.forN fun _ _ m => m.landPort).landXlk.landKeys.refreshNext.billCheck).esmcRefresh

end Sys2Proof.Machine
end

section
/-! PROOFS. The registers of TOP and FAB: what the operations of loads and of full resets write of them (O11 to O14). -/

namespace Sys2Proof.Machine

/-- The registers of TOP and of FAB. -/
abbrev bootKey (k : Nat) : Prop := k < 0x10000 ∨ 0x40000 ≤ k ∧ k < 0x50000

theorem reportKey_of_bootKey {k : Nat} (h : bootKey k) : reportKey k = false := by
  unfold bootKey at h
  unfold reportKey intrKey
  simp only [Bool.or_eq_false_iff, Bool.and_eq_false_iff, beq_eq_false_iff_ne, decide_eq_false_iff_not]
  omega

theorem intrKey_of_bootKey {k : Nat} (h : bootKey k) : intrKey k = false := (reportKey_false (reportKey_of_bootKey h)).1

/-! The fields of a slot. -/

theorem slotField_eq (k : Nat) : slotField k = ⟨FAB.SLOTS, 2 * min k 2 + 1, 2 * min k 2⟩ := by
  match k with
  | 0 => rfl
  | 1 => rfl
  | n + 2 => rw [Nat.min_eq_right (Nat.le_add_left 2 n)]; rfl

theorem slotSv_eq (k : Nat) : slotSv k = ⟨FAB.SECVER, 8 * min k 2 + 14, 8 * min k 2 + 8⟩ := by
  match k with
  | 0 => rfl
  | 1 => rfl
  | n + 2 => rw [Nat.min_eq_right (Nat.le_add_left 2 n)]; rfl

@[simp] theorem slotField_key (k : Nat) : (slotField k).key = FAB.SLOTS := by rw [slotField_eq]

@[simp] theorem slotSv_key (k : Nat) : (slotSv k).key = FAB.SECVER := by rw [slotSv_eq]

@[simp] theorem slotField_width (k : Nat) : (slotField k).width = 2 := by
  rw [slotField_eq]
  exact congrArg (· + 1) (Nat.add_sub_cancel_left _ _)

@[simp] theorem slotSv_width (k : Nat) : (slotSv k).width = 7 := by
  rw [slotSv_eq]
  simp only [Fld.width]
  omega

/-- The states of the slots lie in bits 5 to 0 of SLOTS. -/
theorem slotField_lo_le (k : Nat) : (slotField k).lo ≤ 4 := by
  rw [slotField_eq]
  dsimp only
  omega

theorem slotSv_lo_le (k : Nat) : (slotSv k).lo ≤ 24 := by
  rw [slotSv_eq]
  dsimp only
  omega

section

variable (s : State)

/-- A field of another register, or one beside the field written, keeps its content. -/
theorem State.f_setf_apart (x y : Fld) (v : Nat)
    (h : y.key ≠ x.key ∨ x.lo + x.width ≤ 32 ∧ (y.lo + y.width ≤ x.lo ∨ x.lo + x.width ≤ y.lo)) :
    (s.setf x v).f y = s.f y := by
  rcases h with key | ⟨fits, bits⟩
  · exact s.f_setf_key x y v key
  · exact s.f_setf_bits x y v fits bits

theorem State.f_setf_slotField (k v : Nat) : (s.setf (slotField k) v).f (slotField k) = v % 4 := by
  rw [State.f_setf _ _ _ (by have := slotField_lo_le k; rw [slotField_width]; omega), slotField_width]
  rfl

theorem State.f_setf_slotSv (k v : Nat) : (s.setf (slotSv k) v).f (slotSv k) = v % 128 := by
  rw [State.f_setf _ _ _ (by have := slotSv_lo_le k; rw [slotSv_width]; omega), slotSv_width]
  rfl

/-- What the units hold beside their registers is no part of a register. -/
theorem State.w_cores (k : Nat) {top fab flt nv flm sec xlk eng} :
    ({ s with top := top, fab := fab, flt := flt, nv := nv, flm := flm, sec := sec, xlk := xlk, eng := eng } : State).w k = s.w k := rfl

/-! Repetition. -/

theorem State.w_forL_other {α : Type} {g : State → α → State} (l : List α) {j : Nat} (h : ∀ t x, (g t x).w j = t.w j) :
    (s.forL l g).w j = s.w j := by
  unfold State.forL
  induction l generalizing s with
  | nil => rfl
  | cons x l ih => exact (ih _).trans (h s x)

theorem State.w_forN_other {g : State → Nat → State} (n : Nat) {j : Nat} (h : ∀ t x, (g t x).w j = t.w j) :
    (s.forN n g).w j = s.w j := s.w_forL_other (List.range n) h

/-! The boot record. -/

theorem State.w_startCommit_other (byHost : Bool) {j : Nat} (h : j ≠ NV.STATUS) : (s.startCommit byHost).w j = s.w j := by
  unfold State.startCommit
  split
  · rfl
  · exact (State.w_setf_other _ _ _ h).trans (State.w_setf_other _ _ _ h)

theorem State.w_commitBoot_other {j : Nat} (h : j ≠ NV.STATUS) : s.commitBoot.w j = s.w j := State.w_startCommit_other _ _ h

theorem State.f_setSlot (k v : Nat) : (s.setSlot k v).f (slotField k) = v % 4 :=
  (State.f_of_w _ _ (State.w_commitBoot_other _ (by rw [slotField_key]; decide))).trans (s.f_setf_slotField k v)

theorem State.w_setSlot_other (k v : Nat) {j : Nat} (h : j ≠ NV.STATUS) (hs : j ≠ FAB.SLOTS) : (s.setSlot k v).w j = s.w j :=
  (State.w_commitBoot_other _ h).trans (State.w_setf_other _ _ _ (by rwa [slotField_key]))

/-! Copies into the slipway. -/

theorem State.w_injDone_other {j : Nat} (h : intrKey j = false) (hs : j ≠ FLT.STATUS) (he : j ≠ FLT.EVENT) : s.injDone.w j = s.w j :=
  (State.w_ev_other _ _ (by decide) h he).trans (State.w_setf_other _ _ _ hs)

theorem State.w_eccWrite_other (a : Nat) {j : Nat} (h : intrKey j = false) (hs : j ≠ FLT.STATUS) (he : j ≠ FLT.EVENT) :
    (s.eccWrite a).w j = s.w j := by
  unfold State.eccWrite
  split
  · split
    · exact State.w_injDone_other _ h hs he
    · rfl
  · rfl

theorem State.w_copySlot_other (k : Nat) {j : Nat} (h : intrKey j = false) (hs : j ≠ FLT.STATUS) (he : j ≠ FLT.EVENT) :
    (s.copySlot k).w j = s.w j := by
  unfold State.copySlot
  extract_lets t
  split
  · split
    · exact State.w_eccWrite_other _ _ h hs he
    · rfl
  · rfl

theorem State.w_copySlot_boot (k : Nat) {j : Nat} (h : bootKey j) : (s.copySlot k).w j = s.w j :=
  s.w_copySlot_other k (intrKey_of_bootKey h) (by rintro rfl; revert h; decide) (by rintro rfl; revert h; decide)

/-! Loads. -/

theorem State.w_startSynths_boot {j : Nat} (h : bootKey j) : s.startSynths.w j = s.w j := by
  have apart : ∀ n, j ≠ APL.NOM_KHZ n ∧ j ≠ APL.STATUS n := fun n => by
    unfold bootKey at h
    simp only [APL.NOM_KHZ, APL.STATUS]
    omega
  have started : ∀ (t : State) (n : Nat), (t.startSynth n).w j = t.w j := fun t n =>
    (State.w_setf_other _ _ _ (apart n).2).trans (State.w_setf_other _ _ _ (apart n).2)
  have nominal : ∀ (t : State) (n uhz : Nat), (t.setNom n uhz).w j = t.w j := fun t n uhz =>
    State.w_setf_other _ _ _ (apart n).1
  refine s.w_forL_other _ fun t r => ?_
  split
  · rfl
  · rw [started, nominal]
    rfl

/-- STATE while a load runs that has just begun. -/
def State.loadShown : State :=
  let t := ((s.setf FAB.STATE_LOAD 1).setf FAB.STATE_SLIPWAY 2).setf FAB.STATE_VSLOT 3
  t.setf FAB.STATE_ATTEMPTS (min 3 (t.f FAB.STATE_ATTEMPTS + 1))

/-- Of TOP and FAB, a load that begins writes STATE. -/
theorem State.w_beginLoad (j : LoadJob) :
    ∃ t : State, (∀ k, bootKey k → t.w k = s.w k) ∧ ∀ k, bootKey k → (s.beginLoad j).w k = t.loadShown.w k := by
  unfold State.beginLoad
  extract_lets s1 s2 s3 _ s4
  refine ⟨s1, fun k h => ?_, fun k h => ?_⟩
  · unfold s1
    split
    · rfl
    · exact s.w_copySlot_boot _ h
  · have begun : s4.w k = s3.w k := State.w_cores _ _
    split
    · exact (s4.w_startSynths_boot h).trans begun
    · exact begun

theorem State.load_beginLoad (j : LoadJob) : (s.beginLoad j).f FAB.STATE_LOAD = 1 := by
  obtain ⟨t, -, shown⟩ := s.w_beginLoad j
  rw [State.f_of_w _ _ (shown FAB.STATE (by decide))]
  unfold State.loadShown
  extract_lets u
  rw [State.f_setf_apart _ _ _ _ (by decide), State.f_setf_apart _ _ _ _ (by decide), State.f_setf_apart _ _ _ _ (by decide),
    State.f_setf _ _ _ (by decide)]
  rfl

/-- A load that begins leaves the other registers of TOP and FAB, and FAIL_CODE. -/
theorem State.f_beginLoad_other (j : LoadJob) (y : Fld) (hy : bootKey y.key) (h : y.key ≠ FAB.STATE ∨ 20 ≤ y.lo) :
    (s.beginLoad j).f y = s.f y := by
  have apart : ∀ x : Fld, x.key = FAB.STATE → x.lo + x.width ≤ 20 →
      y.key ≠ x.key ∨ x.lo + x.width ≤ 32 ∧ (y.lo + y.width ≤ x.lo ∨ x.lo + x.width ≤ y.lo) := fun x hk hx =>
    h.imp (fun h => by rwa [hk]) fun h => ⟨by omega, .inr (by omega)⟩
  obtain ⟨t, same, shown⟩ := s.w_beginLoad j
  rw [State.f_of_w _ _ (shown _ hy), ← State.f_of_w _ _ (same _ hy)]
  unfold State.loadShown
  extract_lets u
  rw [State.f_setf_apart _ _ _ _ (apart _ rfl (by decide)), State.f_setf_apart _ _ _ _ (apart _ rfl (by decide)),
    State.f_setf_apart _ _ _ _ (apart _ rfl (by decide)), State.f_setf_apart _ _ _ _ (apart _ rfl (by decide))]

/-- Once slots have been tried, the next attempt is with one that has not, or there is none. -/
theorem State.tryFlash_cases (order : List Nat) {tried : List Nat} (first : Option Nat) (h : tried ≠ []) :
    (∃ k, k ∉ tried ∧ s.tryFlash order tried first = s.beginLoad ⟨k, false, tried, first.getD k, false, s.now, none, 0⟩) ∨
      s.tryFlash order tried first = s.loadExhausted := by
  unfold State.tryFlash
  split
  next k found =>
    have usable : (s.slotUsable k && !tried.contains k) = true := List.find?_some (p := fun k => s.slotUsable k && !tried.contains k) found
    simp only [Bool.and_eq_true, Bool.not_eq_true', List.contains_eq_mem, decide_eq_false_iff_not] at usable
    exact .inl ⟨k, usable.2, rfl⟩
  next => exact .inr (congrArg State.loadExhausted (if_neg (by simpa using h)))

/-- The next attempt of a failed load runs, with a slot that has not failed, or no slot is left (R145, R146). -/
def State.nextAttempt (tried : List Nat) : Prop :=
  (∃ k, s.fab.load = some k ∧ k.tried = tried ∧ k.slot ∉ tried ∧ k.slipway = false ∧ s.f FAB.STATE_LOAD = 1) ∨
    (s.fab.load = none ∧ s.f FAB.STATE_LOAD = 3)

theorem State.nextAttempt_tryFlash (order : List Nat) {tried : List Nat} (first : Option Nat) (h : tried ≠ []) :
    (s.tryFlash order tried first).nextAttempt tried := by
  rcases s.tryFlash_cases order first h with ⟨k, fresh, next⟩ | last
  · rw [next]
    exact .inl ⟨_, congrArg FabCore.load (s.fab_beginLoad _), rfl, fresh, rfl, s.load_beginLoad _⟩
  · rw [last]
    refine .inr ⟨congrArg FabCore.load s.fab_loadExhausted, ?_⟩
    unfold State.loadExhausted
    rw [State.f_of_w _ _ (State.w_raise_other _ (by decide) (by decide)), State.f_setf _ _ _ (by decide)]
    rfl

theorem State.f_tryFlash_other (order : List Nat) {tried : List Nat} (first : Option Nat) (h : tried ≠ []) (y : Fld)
    (hy : bootKey y.key) (hs : y.key ≠ FAB.STATE ∨ 20 ≤ y.lo) : (s.tryFlash order tried first).f y = s.f y := by
  rcases s.tryFlash_cases order first h with ⟨k, -, next⟩ | last
  · rw [next]
    exact s.f_beginLoad_other _ y hy hs
  · rw [last]
    unfold State.loadExhausted
    rw [State.f_of_w _ y (State.w_raise_other _ (by decide) (intrKey_of_bootKey hy)), State.f_setf_apart]
    · rfl
    · exact hs.imp_right fun hs => ⟨by decide, .inr (Nat.le_trans (by decide) hs)⟩

/-! Full resets. -/

/-- A register of another reset domain is as before. -/
theorem State.w_resetRegs_other {d : Dom} {r : RegDef} {k : Nat} (found : regAt k = some r) (h : r.dom ≠ d) :
    (s.resetRegs d).w k = s.w k := by
  have kept : (match regAt k with | some r => r.dom != d | none => true) = true := by
    rw [found]
    exact bne_iff_ne.2 h
  exact congrArg BitVec.toNat (Tab.get_filter_of_kept regDefault (fun k => match regAt k with | some r => r.dom != d | none => true)
    s.regs kept)

theorem State.w_showPasswords_boot {j : Nat} (h : bootKey j) : s.showPasswords.w j = s.w j := by
  have apart : ∀ k, j ≠ NV.HREG k := fun k => by
    unfold bootKey at h
    simp only [NV.HREG]
    omega
  exact s.w_forN_other _ fun t k => (State.w_setf_other _ _ _ (apart k)).trans (State.w_setf_other _ _ _ (apart k))

theorem State.w_refreshEng_boot {j : Nat} (h : bootKey j) : s.refreshEng.w j = s.w j := by
  have status : j ≠ ENG.STATUS := by rintro rfl; revert h; decide
  have event : j ≠ ENG.EVENT := by rintro rfl; revert h; decide
  unfold State.refreshEng State.evIf
  extract_lets was n low s1 s2 s3
  have shown : s3.w j = s.w j :=
    (State.w_setf_other _ _ _ status).trans ((State.w_setf_other _ _ _ status).trans ((State.w_setf_other _ _ _ status).trans
      ((State.w_setf_other _ _ _ status).trans (State.w_setf_other _ _ _ status))))
  split
  · exact (State.w_ev_other _ _ (by decide) (intrKey_of_bootKey h) event).trans shown
  · exact shown

theorem State.regs_fullCores : s.fullCores.regs = (s.ferryGens.setf FLT.STATUS_INJ_PEND 0).regs := by
  unfold State.fullCores
  extract_lets keepHost s1
  rw [show s.ferryGens.setf FLT.STATUS_INJ_PEND 0 = s1 from rfl]

theorem State.w_fullCores_other {j : Nat} (h : j ≠ FLT.STATUS) : s.fullCores.w j = s.w j := by
  have gens : s.ferryGens.regs = s.regs := ((Moves.refl s).ferryGens (Sub.refl _)).p2 rfl
  exact (State.w_congr _ s.regs_fullCores j).trans ((State.w_setf_other _ _ _ h).trans (s.w_congr gens j))

/-- A full reset's part that all attempts of a load share leaves the registers of TOP and FAB that are not in its domain. -/
theorem State.w_fullCleared_boot {r : RegDef} {k : Nat} (h : bootKey k) (found : regAt k = some r) (dom : r.dom ≠ .full) :
    s.fullCores.resetFull.refreshEng.w k = s.w k := by
  rw [State.w_refreshEng_boot _ h, State.resetFull, State.w_showPasswords_boot _ h, State.w_resetRegs_other _ found dom,
    State.w_fullCores_other]
  rintro rfl
  revert h
  decide

/-! A load that fails. -/

/-- A slot whose load has failed, with the failure code shown and logged, and BAD unless it is golden (R144, R145). -/
def State.markedBad (j : LoadJob) (code : Nat) : State :=
  let t := ((s.setf FAB.STATE_FAIL_CODE code).setf FAB.STATE_SLIPWAY 4).logDev 0x0103 (beBytes 1 j.slot ++ beBytes 1 code)
  if j.slot < 2 then t.setSlot j.slot 3 else t

/-- The full reset that makes the next attempt begins (R145). -/
def State.attemptReset : State :=
  let t := { s with fab := { s.fab with load := none } }
  let t := t.logDev 0x0101 [4]
  let t := (t.setf TOP.RST_STAT_FULL_CAUSE 4).inc TOP.RST_STAT_FULL_COUNT
  let t := { t with top := { t.top with inFull := true, resetting := true } }
  t.fullCores.resetFull.refreshEng

theorem State.failLoad_eq {j : LoadJob} (h : s.fab.load = some j) (code : Nat) :
    ∃ order, s.failLoad code = (s.markedBad j code).attemptReset.tryFlash order (j.slot :: j.tried) (some j.first) := by
  unfold State.failLoad
  split
  next absent => cases absent.symm.trans h
  next k running =>
    obtain rfl := Option.some.inj (running.symm.trans h)
    extract_lets s1 s2 cur s3 _ s4 s5 s6 _ s7 s8
    have marked : s.markedBad k code = s3 := rfl
    clear_value cur s3
    have begun : s3.attemptReset = s8 := rfl
    rw [marked, begun]
    exact ⟨_, rfl⟩

theorem State.f_markedBad_failCode (j : LoadJob) (code : Nat) : (s.markedBad j code).f FAB.STATE_FAIL_CODE = code % 256 := by
  unfold State.markedBad
  extract_lets t
  have shown : t.f FAB.STATE_FAIL_CODE = code % 256 := (State.f_congr _ (State.regs_logDev _ _ _) _).trans
    ((State.f_setf_apart _ _ _ _ (by decide)).trans (State.f_setf _ _ _ (by decide)))
  split
  · exact (State.f_of_w _ _ (State.w_setSlot_other _ _ _ (by decide) (by decide))).trans shown
  · exact shown

theorem State.f_markedBad_slot (j : LoadJob) (code : Nat) (h : j.slot < 2) : (s.markedBad j code).f (slotField j.slot) = 3 := by
  unfold State.markedBad
  rw [if_pos h, State.f_setSlot]

theorem State.inFull_attemptReset : s.attemptReset.top.inFull = true := by
  have cleared : ∀ t : State, t.fullCores.resetFull.refreshEng.top = t.top := fun t =>
    (State.top_fab_of_frame fun _ m => m.resetFull.refreshEng).1.trans t.top_fullCores
  unfold State.attemptReset
  extract_lets _ t1 t2 t3 _ t4
  exact congrArg TopCore.inFull (cleared t4)

theorem State.w_attemptReset_other {r : RegDef} {k : Nat} (h : bootKey k) (found : regAt k = some r) (dom : r.dom ≠ .full)
    (hk : k ≠ TOP.RST_STAT) : s.attemptReset.w k = s.w k := by
  unfold State.attemptReset
  extract_lets _ t1 t2 t3 _ t4
  calc t4.fullCores.resetFull.refreshEng.w k = t4.w k := t4.w_fullCleared_boot h found dom
    _ = t3.w k := State.w_cores _ _
    _ = t2.w k := (State.w_setf_other _ _ _ hk).trans (State.w_setf_other _ _ _ hk)
    _ = s.w k := (State.w_congr _ (State.regs_logDev _ _ _) k).trans (State.w_cores _ _)

theorem State.fullCause_attemptReset : s.attemptReset.f TOP.RST_STAT_FULL_CAUSE = 4 := by
  unfold State.attemptReset
  extract_lets _ t1 t2 t3 _ t4
  calc t4.fullCores.resetFull.refreshEng.f TOP.RST_STAT_FULL_CAUSE = t3.f TOP.RST_STAT_FULL_CAUSE :=
        State.f_of_w _ _ ((t4.w_fullCleared_boot (by decide) rfl (by decide)).trans (State.w_cores _ _))
    _ = (t2.setf TOP.RST_STAT_FULL_CAUSE 4).f TOP.RST_STAT_FULL_CAUSE := State.f_setf_apart _ _ _ _ (by decide)
    _ = 4 := State.f_setf _ _ _ (by decide)

/-- What a failed load comes to (R144, R145, R146). -/
structure State.LoadFailedWith (t : State) (j : LoadJob) (code : Nat) : Prop where
  inFull : t.top.inFull = true
  cause : t.f TOP.RST_STAT_FULL_CAUSE = 4
  failCode : t.f FAB.STATE_FAIL_CODE = code % 256
  bad : j.slot < 2 → t.f (slotField j.slot) = 3
  next : t.nextAttempt (j.slot :: j.tried)

theorem State.loadFailedWith_failLoad {j : LoadJob} (h : s.fab.load = some j) (code : Nat) :
    (s.failLoad code).LoadFailedWith j code := by
  obtain ⟨order, run⟩ := s.failLoad_eq h code
  have top : ∀ t : State, (t.tryFlash order (j.slot :: j.tried) (some j.first)).top = t.top := fun t =>
    ((Moves.refl t).tryFlash (Sub.refl _)).p8 rfl
  have tried : j.slot :: j.tried ≠ [] := List.cons_ne_nil _ _
  have slots : (slotField j.slot).key = FAB.SLOTS := slotField_key _
  rw [run]
  refine ⟨?_, ?_, ?_, fun low => ?_, State.nextAttempt_tryFlash _ _ _ tried⟩
  · rw [top, State.inFull_attemptReset]
  · rw [State.f_tryFlash_other _ _ _ tried _ (by decide) (by decide), State.fullCause_attemptReset]
  · rw [State.f_tryFlash_other _ _ _ tried _ (by decide) (by decide),
      State.f_of_w _ _ (State.w_attemptReset_other _ (by decide) rfl (by decide) (by decide)), State.f_markedBad_failCode]
  · have reset : (s.markedBad j code).attemptReset.f (slotField j.slot) = (s.markedBad j code).f (slotField j.slot) :=
      State.f_of_w _ _ (by rw [slots]; exact State.w_attemptReset_other _ (by decide) rfl (by decide) (by decide))
    rw [State.f_tryFlash_other _ _ _ tried _ (by rw [slots]; decide) (.inl (by rw [slots]; decide)), reset,
      State.f_markedBad_slot _ _ _ low]

end

end Sys2Proof.Machine
end

section
/-! PROOFS. Copies between flash and the slipway (O12, O14): what is read from the target afterwards. -/

namespace Sys2Proof.Machine

section

variable {α : Type} (d : Nat → α) (t u : Tab α) {k : Nat}

theorem Tab.get_of_not_mem (h : ∀ e ∈ t, e.1 ≠ k) : Tab.get d t k = d k := by
  have e := Tab.get_append_of_not_mem d t [] h
  rwa [List.append_nil] at e

/-- A table that lists no entry for a key has no say on what the tables before it hold there. -/
theorem Tab.get_append_right_of_not_mem (h : ∀ e ∈ u, e.1 ≠ k) : Tab.get d (t ++ u) k = Tab.get d t k := by
  induction t with
  | nil => exact Tab.get_of_not_mem d u h
  | cons e t ih =>
    obtain ⟨j, v⟩ := e
    rw [List.cons_append, Tab.get, Tab.get, ih]

theorem Tab.get_moved (lo dest : Nat) {n i : Nat} (hi : i < n) (hd : d (dest + i) = d (lo + i)) :
    Tab.get d (Tab.moved t lo n dest) (dest + i) = Tab.get d t (lo + i) := by
  induction t with
  | nil => exact hd
  | cons e t ih =>
    obtain ⟨j, v⟩ := e
    unfold Tab.moved at ih ⊢
    by_cases inside : lo ≤ j ∧ j < lo + n
    · rw [List.filter_cons, if_pos (decide_eq_true inside), List.map_cons, Tab.get, Tab.get, ih]
      have same : j - lo + dest = dest + i ↔ j = lo + i := by omega
      simp only [same]
    · rw [List.filter_cons, if_neg (by simpa using inside), Tab.get, if_neg (by omega : ¬ j = lo + i)]
      exact ih

variable (lo n dest : Nat)

/-- The target of a copy reads as the source. -/
theorem Tab.get_copyFrom_inside {i : Nat} (hi : i < n) (hd : d (dest + i) = d (lo + i)) :
    Tab.get d (Tab.copyFrom t u lo n dest) (dest + i) = Tab.get d u (lo + i) := by
  unfold Tab.copyFrom
  rw [Tab.get_append_right_of_not_mem, Tab.get_append_of_not_mem, Tab.get_moved d u lo dest hi hd]
  · intro e he
    have := of_decide_eq_true (List.mem_filter.1 he).2
    omega
  · intro e he
    have := of_decide_eq_true (List.mem_filter.1 he).2
    omega

/-- What lies beside the target of a copy stays. -/
theorem Tab.get_copyFrom_outside (hk : k < dest ∨ dest + n ≤ k) : Tab.get d (Tab.copyFrom t u lo n dest) k = Tab.get d t k := by
  have moved : ∀ e ∈ Tab.moved u lo n dest, e.1 ≠ k := fun e he => by
    have := Tab.mem_moved he
    omega
  unfold Tab.copyFrom
  rcases hk with low | high
  · rw [Tab.get_append_right_of_not_mem, Tab.get_append_right_of_not_mem _ _ _ moved]
    · exact Tab.get_filter_of_kept d (fun j => decide (j < dest)) t (decide_eq_true low)
    · intro e he
      have := of_decide_eq_true (List.mem_filter.1 he).2
      omega
  · rw [List.append_assoc, Tab.get_append_of_not_mem, Tab.get_append_of_not_mem _ _ _ moved]
    · exact Tab.get_filter_of_kept d (fun j => decide (dest + n ≤ j)) t (decide_eq_true high)
    · intro e he
      have := of_decide_eq_true (List.mem_filter.1 he).2
      omega

end

section

variable (s : State) (k : Nat)

/-- A slot that is copied lies in the slipway (R139). -/
theorem State.byte_copySlot {i : Nat} (hi : i < slipSize) :
    (s.copySlot k).byte (slipBase + i) = Tab.get memDefault s.flash (slotBase k + i) := by
  have checked : ∀ (t : State) (w : Nat), (t.eccWrite w).mem = t.mem := fun t w => ((Moves.refl t).eccWrite (Sub.refl _)).p3 rfl
  have copied : (s.copySlot k).mem = Tab.copyFrom s.mem s.flash (slotBase k) slipSize slipBase := by
    unfold State.copySlot
    extract_lets t
    split
    · split
      · exact checked t _
      · rfl
    · rfl
  unfold State.byte
  rw [copied]
  exact Tab.get_copyFrom_inside memDefault _ _ _ _ _ hi rfl

/-- A slot that is written reads as the slipway (R136). -/
theorem State.flash_programSlot {i : Nat} (hi : i < slipSize) :
    Tab.get memDefault (s.programSlot k).flash (slotBase k + i) = s.byte (slipBase + i) :=
  Tab.get_copyFrom_inside memDefault _ _ _ _ _ hi rfl

theorem State.flash_programSlot_outside {a : Nat} (h : a < slotBase k ∨ slotBase k + slipSize ≤ a) :
    Tab.get memDefault (s.programSlot k).flash a = Tab.get memDefault s.flash a :=
  Tab.get_copyFrom_outside memDefault _ _ _ _ _ h

/-- A slot that is erased reads as unwritten flash (R137). -/
theorem State.flash_eraseSlot {i : Nat} (hi : i < slipSize) : Tab.get memDefault (s.eraseSlot k).flash (slotBase k + i) = 0 :=
  Tab.get_copyFrom_inside memDefault _ [] _ _ _ hi rfl

theorem State.flash_eraseSlot_outside {a : Nat} (h : a < slotBase k ∨ slotBase k + slipSize ≤ a) :
    Tab.get memDefault (s.eraseSlot k).flash a = Tab.get memDefault s.flash a :=
  Tab.get_copyFrom_outside memDefault _ [] _ _ _ h

end

end Sys2Proof.Machine
end

section
/-! PROOFS. Fault messages of a load or a verification (O12, O14): what they leave where the reaction in force resets nothing. -/

namespace Sys2Proof.Machine

variable {K : Nat} {s t u : State}

theorem Moves.reactLight {src kind addr : Nat} {inj : Bool} {s0 s : State} (h : Moves K s0 s) (hk : Sub 0x1804 K) :
    Moves K s0 (s.reactLight src kind addr inj) := by
  have irq : Moves K s0 (if bitAt (s.reaction (src / 64) kind) 0 then
      (s.ev FLT.EVENT_RECORD).ev ⟨FLT.CLASS_EVENT, src / 64, src / 64⟩ else s) := .ite h.ev.ev h
  exact .ite (Moves.errorPin (.ite irq.trap irq)) (.ite irq.trap irq)

theorem State.injCheck_queueFault (s : State) (src kind addr : Nat) (inj : Bool) :
    (s.queueFault src kind addr inj).flt.injCheck = s.flt.injCheck := by
  unfold State.queueFault
  extract_lets q same _ s1 _ s2
  have full : s1.flt.injCheck = s.flt.injCheck := congrArg FltCore.injCheck ((State.flt_ev _ _).trans (State.flt_inc _ _))
  clear_value s1
  split
  · rfl
  split
  · exact full
  · rw [State.flt_evIf, State.flt_setf]

/-- No collector check is used up or armed by a message. -/
theorem State.injCheck_record (s : State) (src kind addr : Nat) (inj : Bool) :
    (s.record src kind addr inj).flt.injCheck = s.flt.injCheck := by
  have logged : ∀ t : State, (t.logFault src kind addr inj).flt = t.flt := fun t => ((Moves.refl t).logFault (Sub.refl _)).p11 rfl
  have latched : ∀ t : State, (t.loadLatch FLT.FIRST0 FLT.FIRST1 FLT.FIRST2 src kind addr inj).flt = t.flt := fun t =>
    ((Moves.refl t).loadLatch (Sub.refl _)).p11 rfl
  unfold State.record
  extract_lets cls s1 _ s2 s3
  have counted : s1.flt.injCheck = s.flt.injCheck := congrArg FltCore.injCheck ((State.flt_setBit _ _ _).trans (State.flt_inc _ _))
  clear_value s1
  have dated : s2.flt.injCheck = s1.flt.injCheck := rfl
  have first : s3.flt = s2.flt := by
    unfold s3
    split
    · rfl
    · exact latched s2
  rw [State.flt_route, logged, State.injCheck_queueFault, first, dated, counted]

/-- The hold of the error pin is apart from the collector check. -/
theorem State.injCheck_held (s : State) (n : Nat) (done released : Bool) :
    ({ s with flt := { s.flt with errEnd := n, errDone := done, errReleased := released } } : State).flt.injCheck = s.flt.injCheck := rfl

theorem State.injCheck_errorPin (s : State) : s.errorPin.flt.injCheck = s.flt.injCheck := by
  unfold State.errorPin
  dsimp only
  rw [State.flt_evIf, State.injCheck_held, State.flt_setf, State.flt_setf]

theorem State.injCheck_reactLight (s : State) (src kind addr : Nat) (inj : Bool) :
    (s.reactLight src kind addr inj).flt.injCheck = s.flt.injCheck := by
  have trapped : ∀ t : State, (t.trap src kind addr inj).flt = t.flt := fun t => ((Moves.refl t).trap (Sub.refl _)).p11 rfl
  unfold State.reactLight
  extract_lets cls r s1 s2
  have told : s1.flt = s.flt := by
    unfold s1
    split
    · rw [State.flt_ev, State.flt_ev]
    · rfl
  have latched : s2.flt = s.flt := by
    unfold s2
    split
    · exact (trapped s1).trans told
    · exact told
  split
  · rw [State.injCheck_errorPin, latched]
  · rw [latched]

/-- What fault messages leave whose reactions reset nothing. -/
structure State.Reported (s t : State) : Prop where
  moves : Moves 0x80011804 s t
  regs : ∀ j, reportKey j = false → t.w j = s.w j
  check : t.flt.injCheck = s.flt.injCheck

theorem State.Reported.refl (s : State) : State.Reported s s := ⟨.refl s, fun _ _ => rfl, rfl⟩

theorem State.Reported.trans (h : State.Reported s t) (k : State.Reported t u) : State.Reported s u :=
  ⟨h.moves.trans k.moves, fun j hj => (k.regs j hj).trans (h.regs j hj), k.check.trans h.check⟩

theorem State.Reported.fab (h : State.Reported s t) : t.fab = s.fab := h.moves.p10 rfl

theorem State.Reported.f (h : State.Reported s t) (x : Fld) (hx : reportKey x.key = false) : t.f x = s.f x := State.f_of_w s x (h.regs _ hx)

theorem State.Reported.reaction (h : State.Reported s t) (cls kind : Nat) : t.reaction cls kind = s.reaction cls kind :=
  s.reaction_congr h.fab cls kind

/-- A message of FAB. -/
theorem State.reported_report (s : State) {kind : Nat} (addr : Nat) (hk : kind < 64) (hc : s.flt.injCheck = false)
    (hr : s.reaction 2 kind < 8) : State.Reported s (s.report 0x80 kind addr) := by
  have low : s.report 0x80 kind addr = s.reportInj 0x80 kind (addr % 2 ^ 32) false := by
    unfold State.report State.reportInj
    rw [Nat.mod_mod]
  have bound : addr % 2 ^ 32 < 2 ^ 32 := Nat.mod_lt _ (Nat.two_pow_pos 32)
  have reaction : (s.record 0x80 kind (addr % 2 ^ 32) false).reaction (0x80 / 64) kind < 8 := by
    rw [State.reaction_congr s (State.fab_record _ _ _ _ _)]
    exact hr
  have whole : s.reportInj 0x80 kind (addr % 2 ^ 32) false =
      (s.record 0x80 kind (addr % 2 ^ 32) false).reactLight 0x80 kind (addr % 2 ^ 32) false := by
    rw [State.reportInj_eq _ _ _ _ _ hc (by decide) hk bound, State.react_light _ _ _ _ _ reaction]
  rw [low]
  refine ⟨?_, fun j hj => State.w_report_other _ _ _ _ _ hc (by decide) hk bound hr hj, ?_⟩
  · rw [whole]
    exact Moves.reactLight ((Moves.refl s).record (Sub.refl _)) (by rfl)
  · rw [whole, State.injCheck_reactLight, State.injCheck_record]

/-- The messages of a check that has failed (R75, R131, R144). -/
theorem State.reported_checkFault (s : State) (code off slot : Nat) (hc : s.flt.injCheck = false) (h8 : s.reaction 2 0x08 < 8)
    (h9 : s.reaction 2 0x09 < 8) : State.Reported s (s.checkFault code off slot) := by
  unfold State.checkFault
  extract_lets s1
  have first : State.Reported s s1 := by
    unfold s1
    split
    · exact s.reported_report off (by decide) hc h8
    · exact .refl s
  exact first.trans (s1.reported_report _ (by decide) (first.check.trans hc) (by rw [first.reaction]; exact h9))

end Sys2Proof.Machine
end

section
/-! PROOFS. The end of a load (O14). -/

namespace Sys2Proof.Machine

variable {s : State} {j : LoadJob}

theorem exec_imageLanded (s : State) : exec .imageLanded s = execImageLanded s := rfl

theorem exec_loadFailed (bad : List (Nat × List Nat)) (s : State) : exec (.loadFailed bad) s = execLoadFailed bad s := rfl

theorem exec_landingWatchdogExpiry (s : State) : exec .landingWatchdogExpiry s = execLandingWatchdogExpiry s := rfl

theorem execImageLanded_good {i : Image} {d : List (Nat × Nat × List Byte)} (load : s.fab.load = some j) (sound : s.slipwayBad j = false)
    (good : s.loadVerdict j = .good i d) : execImageLanded s = .next ((s.bankCheck slipBase slipSize 0).landImage i j) := by
  simp only [execImageLanded, load, sound, good, Bool.false_eq_true, if_false]

theorem execLoadFailed_bad {c off : Nat} (load : s.fab.load = some j) (sound : s.slipwayBad j = false)
    (bad : s.loadVerdict j = .bad c off) : execLoadFailed [] s = .next ((s.checkFault c off j.slot).failLoad c) := by
  have sameSlots : s.blocksBad [] = s := rfl
  simp only [execLoadFailed, load, sound, sameSlots, bad, Bool.false_eq_true, if_false]

theorem execLoadFailed_slipwayBad (blocks : List (Nat × List Nat)) (load : s.fab.load = some j) (bad : s.slipwayBad j = true) :
    ∃ t, execLoadFailed blocks s = .next t ∧ t.fab.load = some { j with slipway := false } ∧
      t.mem = ((s.bankCheck slipBase slipSize 0).copySlot j.slot).mem := by
  simp only [execLoadFailed, load, bad, if_true]
  exact ⟨_, rfl, rfl, rfl⟩

theorem execLandingWatchdogExpiry_late (load : s.fab.load = some j) (late : j.since + s.watchdogMs * 2000000 ≤ s.now) :
    execLandingWatchdogExpiry s = .next ((s.report 0x80 0x0A j.slot).failLoad 0x0B) := by
  simp only [execLandingWatchdogExpiry, load, Nat.not_lt.2 late, if_false]

/-- Settles O14: an image that passes lands (`State.landed_landImage`); a check that fails and the watchdog report, which leaves FAB as it is,
and give the load up (`State.loadFailedWith_failLoad`). -/
theorem loadsEnd : Obligations.LoadsEnd := by
  unfold Obligations.LoadsEnd
  refine ⟨fun s j i d load sound good empty => ?_, fun s j c off load sound bad hc h8 h9 => ?_, fun s j blocks load bad => ?_,
    fun s j load late hc hr => ?_⟩
  · obtain ⟨⟨image, once⟩, ended⟩ := (s.bankCheck slipBase slipSize 0).landed_landImage j empty
    exact ⟨_, (exec_imageLanded s).trans (execImageLanded_good load sound good), image, once, ended⟩
  · have told := s.reported_checkFault c off j.slot hc h8 h9
    obtain ⟨inFull, cause, code, slot, next⟩ := State.loadFailedWith_failLoad _ ((congrArg FabCore.load told.fab).trans load) c
    exact ⟨_, (exec_loadFailed _ s).trans (execLoadFailed_bad load sound bad), inFull, cause, code, slot, next⟩
  · obtain ⟨t, ran, running, mem⟩ := execLoadFailed_slipwayBad blocks load bad
    have flash : (s.bankCheck slipBase slipSize 0).flash = s.flash := ((Moves.refl s).bankCheck (Sub.refl _)).p6 rfl
    refine ⟨t, (exec_loadFailed _ s).trans ran, running, fun i hi => ?_⟩
    have copied := (s.bankCheck slipBase slipSize 0).byte_copySlot j.slot hi
    rw [flash] at copied
    unfold State.byte at copied ⊢
    rw [mem, copied]
  · have told := s.reported_report j.slot (by decide : 0x0A < 64) hc hr
    obtain ⟨inFull, cause, code, slot, next⟩ := State.loadFailedWith_failLoad _ ((congrArg FabCore.load told.fab).trans load) 0x0B
    exact ⟨_, (exec_landingWatchdogExpiry s).trans (execLandingWatchdogExpiry_late load late), inFull, cause, code, slot, next⟩

end Sys2Proof.Machine
end

section
/-! PROOFS. Commands of FAB (O11 to O13): what its doorbell, the start and the end of an operation leave. -/

namespace Sys2Proof.Machine

section

variable (s : State)

/-! The end and the start of an operation. -/

theorem State.fab_fabDone (opc : Nat) (c : Code) : (s.fabDone opc c).fab = { s.fab with op := none, handover := none } := by
  unfold State.fabDone
  rw [State.fab_raise, State.fab_setf, State.fab_setf, State.fab_setf]

theorem State.w_fabDone_other (opc : Nat) (c : Code) {j : Nat} (h : intrKey j = false) (hj : j ≠ FAB.OP_STATUS) :
    (s.fabDone opc c).w j = s.w j := by
  unfold State.fabDone
  rw [State.w_raise_other _ (by decide) h, State.w_setf_other _ _ _ hj, State.w_setf_other _ _ _ hj, State.w_setf_other _ _ _ hj]
  exact State.w_cores _ _

theorem State.f_fabDone_other (opc : Nat) (c : Code) (y : Fld) (h : intrKey y.key = false) (hy : y.key ≠ FAB.OP_STATUS) :
    (s.fabDone opc c).f y = s.f y := State.f_of_w _ _ (s.w_fabDone_other opc c h hy)

theorem State.code_fabDone (opc : Nat) (c : Code) : (s.fabDone opc c).f FAB.OP_STATUS_CODE = c.num := by
  unfold State.fabDone
  rw [State.f_of_w _ _ (State.w_raise_other _ (by decide) (by decide)), State.f_setf _ _ _ (by decide)]
  cases c <;> rfl

theorem State.lastOp_fabDone (opc : Nat) (c : Code) : (s.fabDone opc c).f FAB.OP_STATUS_LAST_OP = opc % 256 := by
  unfold State.fabDone
  rw [State.f_of_w _ _ (State.w_raise_other _ (by decide) (by decide)), State.f_setf_apart _ _ _ _ (by decide),
    State.f_setf _ _ _ (by decide)]
  rfl

theorem State.busy_fabDone (opc : Nat) (c : Code) : (s.fabDone opc c).f FAB.OP_STATUS_BUSY = 0 := by
  unfold State.fabDone
  rw [State.f_of_w _ _ (State.w_raise_other _ (by decide) (by decide)), State.f_setf_apart _ _ _ _ (by decide),
    State.f_setf_apart _ _ _ _ (by decide), State.f_setf _ _ _ (by decide)]
  rfl

theorem State.fab_fabStart (p : Port) (opc slot arg : Nat) :
    (s.fabStart p opc slot arg).fab = { s.fab with op := some ⟨opc, slot, p, arg⟩ } := State.fab_setf _ _ _

theorem State.w_fabStart_other (p : Port) (opc slot arg : Nat) {j : Nat} (hj : j ≠ FAB.OP_STATUS) :
    (s.fabStart p opc slot arg).w j = s.w j := (State.w_setf_other _ _ _ hj).trans (State.w_cores _ _)

theorem State.f_fabStart_other (p : Port) (opc slot arg : Nat) (y : Fld) (hy : y.key ≠ FAB.OP_STATUS) :
    (s.fabStart p opc slot arg).f y = s.f y := State.f_of_w _ _ (s.w_fabStart_other p opc slot arg hy)

theorem State.busy_fabStart (p : Port) (opc slot arg : Nat) : (s.fabStart p opc slot arg).f FAB.OP_STATUS_BUSY = 1 :=
  State.f_setf _ _ _ (by decide)

/-! A slot that is emptied. -/

theorem State.f_emptySlot_slot (k : Nat) : (s.emptySlot k).f (slotField k) = 0 := State.f_setSlot _ _ _

theorem State.f_emptySlot_sv (k : Nat) : (s.emptySlot k).f (slotSv k) = 0x7F :=
  (State.f_of_w _ _ (State.w_setSlot_other _ _ _ (by rw [slotSv_key]; decide) (by rw [slotSv_key]; decide))).trans (s.f_setf_slotSv k _)

theorem State.fab_emptySlot (k : Nat) : (s.emptySlot k).fab = s.fab := ((Moves.refl s).emptySlot (Sub.refl _)).p10 rfl

/-! The doorbell. -/

/-- The state in which an operation is judged: the access has its status, and OP holds the word written. -/
def State.rung (p : Port) (opc slot handover : Nat) : State :=
  (((s.status p .ok).setf FAB.OP_OPCODE opc).setf FAB.OP_SLOT slot).setf FAB.OP_HANDOVER handover

variable (p : Port) (opc slot handover : Nat)

theorem State.w_rung_other {j : Nat} (hj : j ≠ FAB.OP) : (s.rung p opc slot handover).w j = s.w j := by
  unfold State.rung
  rw [State.w_setf_other _ _ _ hj, State.w_setf_other _ _ _ hj, State.w_setf_other _ _ _ hj, State.w_status]

theorem State.f_rung_other (y : Fld) (hy : y.key ≠ FAB.OP) : (s.rung p opc slot handover).f y = s.f y :=
  State.f_of_w _ _ (s.w_rung_other p opc slot handover hy)

theorem State.fab_rung : (s.rung p opc slot handover).fab = s.fab := by
  unfold State.rung
  rw [State.fab_setf, State.fab_setf, State.fab_setf, State.fab_status]

theorem State.flm_rung : (s.rung p opc slot handover).flm = s.flm := by
  unfold State.rung
  rw [State.flm_setf, State.flm_setf, State.flm_setf, State.flm_status]

theorem State.sec_rung : (s.rung p opc slot handover).sec = s.sec := by
  unfold State.rung
  rw [State.sec_setf, State.sec_setf, State.sec_setf, State.sec_status]

theorem State.top_rung : (s.rung p opc slot handover).top = s.top := by
  unfold State.rung
  rw [State.top_setf, State.top_setf, State.top_setf, State.top_status]

theorem State.flash_rung : (s.rung p opc slot handover).flash = s.flash := by
  unfold State.rung
  rw [State.flash_setf, State.flash_setf, State.flash_setf, State.flash_status]

variable {s p}

/-- FAB takes a doorbell that the checks pass while it is not BUSY. -/
theorem State.fabDoorbell_taken (takes : s.takes p FAB.OP false) (idle : s.f FAB.OP_STATUS_BUSY = 0) (word : Nat) :
    s.fabDoorbell p word = (s.status p .ok).fabOp p word := by
  have free : (s.status p .ok).on FAB.OP_STATUS_BUSY = false := by
    unfold State.on
    rw [State.f_of_w _ _ (s.w_status p .ok _), idle]
    rfl
  unfold State.fabDoorbell State.doorbellB
  rw [State.doorbell_ok s _ takes.1 takes.2, free]
  rfl

section

variable (takes : s.takes p FAB.OP false) (idle : s.f FAB.OP_STATUS_BUSY = 0)

include takes idle

theorem exec_stage_taken : exec (.stage p) s = .next (s.rung p 1 0 0).fabStage := by
  change Host.Outcome.next (s.fabDoorbell p 1) = _
  rw [State.fabDoorbell_taken takes idle]
  rfl

theorem exec_verify_taken : exec (.verify p) s = .next ((s.rung p 2 0 0).fabVerify p (s.w FAB.OP_ARG)) := by
  change Host.Outcome.next (s.fabDoorbell p 2) = _
  rw [State.fabDoorbell_taken takes idle, ← s.w_status p .ok]
  rfl

theorem exec_commitRollback_taken : exec (.commitRollback p) s = .next ((s.rung p 6 0 0).fabRollback p (s.w FAB.OP_ARG)) := by
  change Host.Outcome.next (s.fabDoorbell p 6) = _
  rw [State.fabDoorbell_taken takes idle, ← s.w_status p .ok]
  rfl

theorem exec_activate_taken (h : Bool) : exec (.activate p h) s = .next ((s.rung p 5 0 (b2n h)).fabActivate p h) := by
  cases h
  · change Host.Outcome.next (s.fabDoorbell p 5) = _
    rw [State.fabDoorbell_taken takes idle]
    rfl
  · change Host.Outcome.next (s.fabDoorbell p 0x1005) = _
    rw [State.fabDoorbell_taken takes idle]
    rfl

end

/-- The operand of an operation that names a slot. -/
theorem slotWord (k : BitVec 2) {opc : Nat} (h : opc < 256) :
    (k.toNat * 2 ^ 8 + opc) % 256 = opc ∧ bitsAt (k.toNat * 2 ^ 8 + opc) 9 8 = k.toNat ∧ bitsAt (k.toNat * 2 ^ 8 + opc) 12 12 = 0 := by
  have := k.isLt
  unfold bitsAt
  omega

section

variable (takes : s.takes p FAB.OP false) (idle : s.f FAB.OP_STATUS_BUSY = 0) (k : BitVec 2)

include takes idle

theorem exec_writeSlot_taken :
    exec (.writeSlot p k) s = .next ((s.rung p 3 k.toNat 0).fabWriteSlot p k.toNat (s.w FAB.OP_ARG)) := by
  obtain ⟨opcode, slot, handover⟩ := slotWord k (by decide : 3 < 256)
  change Host.Outcome.next (s.fabDoorbell p (k.toNat * 2 ^ 8 + 3)) = _
  rw [State.fabDoorbell_taken takes idle, ← s.w_status p .ok]
  unfold State.fabOp
  rw [opcode, slot, handover]
  rfl

theorem exec_loadSlot_taken :
    exec (.loadSlot p k) s = .next ((s.rung p 4 k.toNat 0).fabLoadSlot p k.toNat (s.w FAB.OP_ARG)) := by
  obtain ⟨opcode, slot, handover⟩ := slotWord k (by decide : 4 < 256)
  change Host.Outcome.next (s.fabDoorbell p (k.toNat * 2 ^ 8 + 4)) = _
  rw [State.fabDoorbell_taken takes idle, ← s.w_status p .ok]
  unfold State.fabOp
  rw [opcode, slot, handover]
  rfl

theorem exec_eraseSlot_taken :
    exec (.eraseSlot p k) s = .next ((s.rung p 7 k.toNat 0).fabErase p k.toNat (s.w FAB.OP_ARG)) := by
  obtain ⟨opcode, slot, handover⟩ := slotWord k (by decide : 7 < 256)
  change Host.Outcome.next (s.fabDoorbell p (k.toNat * 2 ^ 8 + 7)) = _
  rw [State.fabDoorbell_taken takes idle, ← s.w_status p .ok]
  unfold State.fabOp
  rw [opcode, slot, handover]
  rfl

theorem exec_readId_taken : exec (.readId p k) s = .next ((s.rung p 8 k.toNat 0).fabReadId p k.toNat) := by
  obtain ⟨opcode, slot, handover⟩ := slotWord k (by decide : 8 < 256)
  change Host.Outcome.next (s.fabDoorbell p (k.toNat * 2 ^ 8 + 8)) = _
  rw [State.fabDoorbell_taken takes idle]
  unfold State.fabOp
  rw [opcode, slot, handover]
  rfl

end

end

end Sys2Proof.Machine
end

section
/-! PROOFS. Operations of FAB start, or are refused (O11). -/

namespace Sys2Proof.Machine

section

variable (s : State) (p : Port)

/-! What starts. -/

theorem State.fab_verifyArrives (r : VerifyReq) : (s.verifyArrives r).fab = s.fab := rfl

theorem State.f_verifyArrives (r : VerifyReq) (x : Fld) : (s.verifyArrives r).f x = s.f x := rfl

theorem State.fabStage_stages (h : s.f FAB.STATE_SLIPWAY ≠ 2) :
    s.fabStage = ((s.setf FAB.STATE_SLIPWAY 1).setf FAB.STATE_VSLOT 3).fabDone 1 .ok := if_neg h

theorem State.fabVerify_starts {arg : Nat} (h : s.f FAB.STATE_SLIPWAY = 1) (low : 256 ≤ arg) (high : arg ≤ 8388608) :
    s.fabVerify p arg = ((s.setf FAB.STATE_SLIPWAY 2).verifyArrives .image).fabStart p 2 3 arg := if_neg (by omega)

theorem State.fabLoadSlot_starts {k : Nat} (arg : Nat) (h : k ≠ 3) (holds : s.f (slotField k) = 1 ∨ s.f (slotField k) = 2) :
    s.fabLoadSlot p k arg = (((s.setf FAB.STATE_SLIPWAY 2).setf FAB.STATE_VSLOT 3).verifyArrives .image).fabStart p 4 k arg :=
  if_neg (by simp [h, holds])

theorem State.fabErase_starts {k : Nat} (arg : Nat) (h : k < 2) (other : s.f FAB.SLOTS_CURRENT ≠ k) :
    s.fabErase p k arg = s.fabStart p 7 k arg := by
  unfold State.fabErase
  rw [if_neg (by omega), if_neg other]

/-- A slot is marked as being written. -/
def State.nowWriting (k : Nat) : State := { s with flm := { s.flm with writing := k :: s.flm.writing.filter (· != k) } }

theorem State.fabWriteSlot_starts {k : Nat} (arg : Nat) (h : k ≠ 3) (verified : s.f FAB.STATE_SLIPWAY = 3)
    (other : s.f FAB.SLOTS_CURRENT ≠ k) (unlocked : ¬(k = 2 ∧ s.on FAB.CTRL_GOLDEN_LOCK = true)) (whole : s.flm.takenOf k = 0) :
    s.fabWriteSlot p k arg = ((s.nowWriting k).emptySlot k).fabStart p 3 k arg := by
  unfold State.fabWriteSlot
  rw [if_neg (by simp [h, verified]), if_neg (not_or.2 ⟨other, not_or.2 ⟨unlocked, by omega⟩⟩)]
  rfl

/-! What is refused. -/

/-- An operation that completes at once and leaves the slipway and the slots. -/
theorem State.fabDone_rung (opc slot handover : Nat) (c : Code) :
    ((s.rung p opc slot handover).fabDone opc c).f FAB.OP_STATUS_CODE = c.num ∧
      ((s.rung p opc slot handover).fabDone opc c).w FAB.STATE = s.w FAB.STATE ∧
      ((s.rung p opc slot handover).fabDone opc c).w FAB.SLOTS = s.w FAB.SLOTS :=
  ⟨State.code_fabDone _ _ _,
    (State.w_fabDone_other _ _ _ (by decide) (by decide)).trans (s.w_rung_other _ _ _ _ (by decide)),
    (State.w_fabDone_other _ _ _ (by decide) (by decide)).trans (s.w_rung_other _ _ _ _ (by decide))⟩

theorem State.fabStage_refused (h : s.f FAB.STATE_SLIPWAY = 2) : s.fabStage = s.fabDone 1 .badArgument := if_pos h

theorem State.fabVerify_refused {arg : Nat} (h : s.f FAB.STATE_SLIPWAY ≠ 1 ∨ arg < 256 ∨ 8388608 < arg) :
    s.fabVerify p arg = s.fabDone 2 .badArgument := if_pos h

theorem State.fabWriteSlot_refused {k : Nat} (arg : Nat) (h : k = 3 ∨ s.f FAB.STATE_SLIPWAY ≠ 3) :
    s.fabWriteSlot p k arg = s.fabDone 3 .badArgument := if_pos h

theorem State.fabWriteSlot_locked {k : Nat} (arg : Nat) (h : k ≠ 3) (verified : s.f FAB.STATE_SLIPWAY = 3)
    (locked : s.f FAB.SLOTS_CURRENT = k ∨ (k = 2 ∧ s.on FAB.CTRL_GOLDEN_LOCK = true) ∨ 0 < s.flm.takenOf k) :
    s.fabWriteSlot p k arg = s.fabDone 3 .locked := by
  unfold State.fabWriteSlot
  rw [if_neg (by simp [h, verified]), if_pos locked]

theorem State.fabErase_locked {k : Nat} (arg : Nat) (h : k < 2) (current : s.f FAB.SLOTS_CURRENT = k) :
    s.fabErase p k arg = s.fabDone 7 .locked := by
  unfold State.fabErase
  rw [if_neg (by omega), if_pos current]

end

/-! The slots that commands name. -/

theorem slot_ne_three {k : BitVec 2} : k.toNat ≠ 3 ↔ k ≠ 3 := by
  rw [Ne, Ne, ← BitVec.toNat_inj]
  rfl

theorem slot_eq_two {k : BitVec 2} : k.toNat = 2 ↔ k = 2 := by
  rw [← BitVec.toNat_inj]
  rfl

section

variable {s : State} {p : Port} (takes : s.takes p FAB.OP false) (idle : s.f FAB.OP_STATUS_BUSY = 0)

include takes idle

theorem execStage_staged (h : s.f FAB.STATE_SLIPWAY ≠ 2) : ∃ t, exec (.stage p) s = .next t ∧ t.f FAB.STATE_SLIPWAY = 1 ∧
    t.f FAB.STATE_VSLOT = 3 ∧ t.f FAB.OP_STATUS_BUSY = 0 ∧ t.f FAB.OP_STATUS_LAST_OP = 1 ∧ t.f FAB.OP_STATUS_CODE = Code.ok.num := by
  refine ⟨_, exec_stage_taken takes idle, ?_⟩
  rw [State.fabStage_stages _ (by rwa [State.f_rung_other _ _ _ _ _ _ (by decide)])]
  refine ⟨?_, ?_, State.busy_fabDone _ _ _, State.lastOp_fabDone _ _ _, State.code_fabDone _ _ _⟩
  · rw [State.f_fabDone_other _ _ _ _ (by decide) (by decide), State.f_setf_apart _ _ _ _ (by decide), State.f_setf _ _ _ (by decide)]
    rfl
  · rw [State.f_fabDone_other _ _ _ _ (by decide) (by decide), State.f_setf _ _ _ (by decide)]
    rfl

theorem execVerify_started (h : s.f FAB.STATE_SLIPWAY = 1) (low : 256 ≤ s.w FAB.OP_ARG) (high : s.w FAB.OP_ARG ≤ 8388608) :
    ∃ t, exec (.verify p) s = .next t ∧ t.f FAB.STATE_SLIPWAY = 2 ∧ t.f FAB.OP_STATUS_BUSY = 1 ∧
      t.fab = { s.fab with op := some ⟨2, 3, p, s.w FAB.OP_ARG⟩ } := by
  refine ⟨_, exec_verify_taken takes idle, ?_⟩
  rw [State.fabVerify_starts _ _ (by rwa [State.f_rung_other _ _ _ _ _ _ (by decide)]) low high]
  refine ⟨?_, State.busy_fabStart _ _ _ _ _, ?_⟩
  · rw [State.f_fabStart_other _ _ _ _ _ _ (by decide), State.f_verifyArrives, State.f_setf _ _ _ (by decide)]
    rfl
  · rw [State.fab_fabStart, State.fab_verifyArrives, State.fab_setf, State.fab_rung]

theorem execLoadSlot_started {k : BitVec 2} (h : k ≠ 3) (holds : s.f (slotField k.toNat) = 1 ∨ s.f (slotField k.toNat) = 2) :
    ∃ t, exec (.loadSlot p k) s = .next t ∧ t.f FAB.STATE_SLIPWAY = 2 ∧ t.f FAB.STATE_VSLOT = 3 ∧ t.f FAB.OP_STATUS_BUSY = 1 ∧
      t.fab = { s.fab with op := some ⟨4, k.toNat, p, s.w FAB.OP_ARG⟩ } := by
  refine ⟨_, exec_loadSlot_taken takes idle k, ?_⟩
  rw [State.fabLoadSlot_starts _ _ _ (slot_ne_three.2 h)
    (by rwa [State.f_rung_other _ _ _ _ _ _ (by rw [slotField_key]; decide)])]
  refine ⟨?_, ?_, State.busy_fabStart _ _ _ _ _, ?_⟩
  · rw [State.f_fabStart_other _ _ _ _ _ _ (by decide), State.f_verifyArrives, State.f_setf_apart _ _ _ _ (by decide),
      State.f_setf _ _ _ (by decide)]
    rfl
  · rw [State.f_fabStart_other _ _ _ _ _ _ (by decide), State.f_verifyArrives, State.f_setf _ _ _ (by decide)]
    rfl
  · rw [State.fab_fabStart, State.fab_verifyArrives, State.fab_setf, State.fab_setf, State.fab_rung]

theorem execEraseSlot_started {k : BitVec 2} (h : k.toNat < 2) (other : s.f FAB.SLOTS_CURRENT ≠ k.toNat) :
    ∃ t, exec (.eraseSlot p k) s = .next t ∧ t.f FAB.OP_STATUS_BUSY = 1 ∧
      t.fab = { s.fab with op := some ⟨7, k.toNat, p, s.w FAB.OP_ARG⟩ } := by
  refine ⟨_, exec_eraseSlot_taken takes idle k, ?_⟩
  rw [State.fabErase_starts _ _ _ h (by rwa [State.f_rung_other _ _ _ _ _ _ (by decide)])]
  exact ⟨State.busy_fabStart _ _ _ _ _, by rw [State.fab_fabStart, State.fab_rung]⟩

theorem execWriteSlot_started {k : BitVec 2} (verified : s.f FAB.STATE_SLIPWAY = 3) (h : k ≠ 3)
    (other : s.f FAB.SLOTS_CURRENT ≠ k.toNat) (unlocked : ¬(k = 2 ∧ s.on FAB.CTRL_GOLDEN_LOCK = true))
    (whole : s.flm.takenOf k.toNat = 0) :
    ∃ t, exec (.writeSlot p k) s = .next t ∧ t.f (slotField k.toNat) = 0 ∧ t.f (slotSv k.toNat) = 0x7F ∧
      t.f FAB.OP_STATUS_BUSY = 1 ∧ t.fab = { s.fab with op := some ⟨3, k.toNat, p, s.w FAB.OP_ARG⟩ } := by
  have golden := State.on_of_f s (t := s.rung p 3 k.toNat 0) FAB.CTRL_GOLDEN_LOCK (s.f_rung_other _ _ _ _ _ (by decide))
  refine ⟨_, exec_writeSlot_taken takes idle k, ?_⟩
  rw [State.fabWriteSlot_starts _ _ _ (slot_ne_three.2 h) (by rwa [State.f_rung_other _ _ _ _ _ _ (by decide)])
    (by rwa [State.f_rung_other _ _ _ _ _ _ (by decide)]) (by rwa [slot_eq_two, golden]) (by rwa [State.flm_rung])]
  refine ⟨?_, ?_, State.busy_fabStart _ _ _ _ _, ?_⟩
  · rw [State.f_fabStart_other _ _ _ _ _ _ (by rw [slotField_key]; decide), State.f_emptySlot_slot]
  · rw [State.f_fabStart_other _ _ _ _ _ _ (by rw [slotSv_key]; decide), State.f_emptySlot_sv]
  · have marked : ((s.rung p 3 k.toNat 0).nowWriting k.toNat).fab = (s.rung p 3 k.toNat 0).fab := rfl
    rw [State.fab_fabStart, State.fab_emptySlot, marked, State.fab_rung]

end

/-- An operation whose conditions, which are the same once OP holds the word, have it complete at once. -/
theorem execRefused {s : State} {p : Port} {i : Instr} {t : State} {opc slot : Nat} {c : Code} (ran : exec i s = .next t)
    (refused : t = (s.rung p opc slot 0).fabDone opc c) :
    ∃ t, exec i s = .next t ∧ t.f FAB.OP_STATUS_CODE = c.num ∧ t.w FAB.STATE = s.w FAB.STATE ∧ t.w FAB.SLOTS = s.w FAB.SLOTS :=
  ⟨_, refused ▸ ran, s.fabDone_rung p opc slot 0 c⟩

/-- Settles O11: each operation by the lemma that says how it starts; the refused ones complete at once (`State.fabDone_rung`). -/
theorem fabOperations : Obligations.FabOperations := by
  unfold Obligations.FabOperations
  refine ⟨fun p s takes idle h => execStage_staged takes idle h, fun p s takes idle h low high => execVerify_started takes idle h low high,
    fun p k s takes idle verified h other unlocked whole => execWriteSlot_started takes idle verified h other unlocked whole,
    fun p k s takes idle h holds => execLoadSlot_started takes idle h holds,
    fun p k s takes idle h other => execEraseSlot_started takes idle h other, fun p s takes idle => ?_⟩
  have same : ∀ {opc slot : Nat} (y : Fld) (_ : y.key ≠ FAB.OP), (s.rung p opc slot 0).f y = s.f y := fun y hy => s.f_rung_other _ _ _ _ y hy
  refine ⟨fun h => ?_, fun h => ?_, fun k h => ?_, fun k h verified locked => ?_, fun k h current => ?_⟩
  · exact execRefused (exec_stage_taken takes idle) (State.fabStage_refused _ (by rwa [same _ (by decide)]))
  · exact execRefused (exec_verify_taken takes idle) (State.fabVerify_refused _ _ (by rwa [same _ (by decide)]))
  · exact execRefused (exec_writeSlot_taken takes idle k) (State.fabWriteSlot_refused _ _ _
      (by rw [same _ (by decide)]; exact h.imp_left (congrArg BitVec.toNat)))
  · have golden := s.on_of_f (t := s.rung p 3 k.toNat 0) FAB.CTRL_GOLDEN_LOCK (same _ (by decide))
    exact execRefused (exec_writeSlot_taken takes idle k) (State.fabWriteSlot_locked _ _ _ (slot_ne_three.2 h)
      (by rwa [same _ (by decide)]) (by rwa [same _ (by decide), slot_eq_two, golden, State.flm_rung]))
  · exact execRefused (exec_eraseSlot_taken takes idle k) (State.fabErase_locked _ _ _ h (by rwa [same _ (by decide)]))

end Sys2Proof.Machine
end

section
/-! PROOFS. Operations of FAB that take time end (O12). -/

namespace Sys2Proof.Machine

section

variable (s : State) (k : Nat)

/-! A slot that is written or erased. -/

/-- A slot is no longer being written. -/
def State.notWriting : State := { s with flm := { s.flm with writing := s.flm.writing.filter (· != k) } }

theorem State.f_notWriting (x : Fld) : (s.notWriting k).f x = s.f x := State.f_of_w _ _ (s.w_cores _)

theorem State.byte_notWriting (a : Nat) : (s.notWriting k).byte a = s.byte a := rfl

theorem State.flashReady_notWriting : (s.notWriting k).flashReady = s.flashReady := by
  unfold State.flashReady
  rw [State.f_notWriting]
  rfl

/-- The slot holds the slipway's image, and the boot record says so (R136). -/
def State.slotWritten : State :=
  let t := (s.programSlot k).slotFresh k
  let t := (t.setf (slotSv k) (t.byte (slipBase + 0x10)).toNat).setf FAB.STATE_VSLOT k
  (t.notPrevious k).setSlot k 1

/-- The slot holds nothing, and the boot record says so (R137). -/
def State.slotErased : State :=
  let t := s.eraseSlot k
  let t := if t.f FAB.STATE_VSLOT = k then t.setf FAB.STATE_VSLOT 3 else t
  (t.notPrevious k).emptySlot k

theorem State.flash_slotWritten : (s.slotWritten k).flash = (s.programSlot k).flash :=
  have all := Sub.refl 0x30004
  (((((Moves.refl (s.programSlot k)).slotFresh.setf).setf).notPrevious).setSlot : Moves 0x30004 _ (s.slotWritten k)).p6 rfl

theorem State.flash_slotErased : (s.slotErased k).flash = (s.eraseSlot k).flash :=
  have all := Sub.refl 0x10004
  ((Moves.ite (Moves.refl (s.eraseSlot k)).setf (.refl _)).notPrevious.emptySlot : Moves 0x10004 _ (s.slotErased k)).p6 rfl

theorem State.flash_fabDone (opc : Nat) (c : Code) : (s.fabDone opc c).flash = s.flash := ((Moves.refl s).fabDone (Sub.refl _)).p6 rfl

/-! The verdict on the slipway. -/

/-- The slipway is VERIFIED, or REJECTED with the failure code (R131). -/
def State.judged (v : Verdict) : State :=
  match v with
  | .bad c off => (s.setf FAB.STATE_SLIPWAY 4).verifyFails c off k
  | .good _ _ => (s.setf FAB.STATE_SLIPWAY 3).setf FAB.STATE_VSLOT k

/-- What a message of a failed check finds. -/
def State.failShown (code slot : Nat) : State := (s.setf FAB.STATE_FAIL_CODE code).logDev 0x0103 (beBytes 1 slot ++ beBytes 1 code)

theorem State.f_failShown_other (code slot : Nat) (y : Fld) (h : y.key ≠ FAB.STATE ∨ y.lo + y.width ≤ 24) :
    (s.failShown code slot).f y = s.f y :=
  (State.f_congr _ (State.regs_logDev _ _ _) _).trans (s.f_setf_apart _ _ _ (h.imp_right fun h => ⟨by decide, .inl h⟩))

theorem State.f_failShown (code slot : Nat) : (s.failShown code slot).f FAB.STATE_FAIL_CODE = code % 256 :=
  (State.f_congr _ (State.regs_logDev _ _ _) _).trans (s.f_setf _ _ (by decide))

/-- FAB as it stands lets the messages of a failed check reset nothing, and no collector check is armed. -/
def State.quietChecks : Prop := s.flt.injCheck = false ∧ s.reaction 2 0x08 < 8 ∧ s.reaction 2 0x09 < 8

variable {s} in
theorem State.quietChecks.of_same {t : State} (h : s.quietChecks) (check : t.flt.injCheck = s.flt.injCheck) (fab : t.fab = s.fab) :
    t.quietChecks := by
  obtain ⟨unarmed, parity, failed⟩ := h
  exact ⟨check.trans unarmed, by rwa [State.reaction_congr s fab], by rwa [State.reaction_congr s fab]⟩

theorem State.reported_verifyFails (h : s.quietChecks) (code off slot : Nat) :
    State.Reported (s.failShown code slot) (s.verifyFails code off slot) := by
  obtain ⟨unarmed, parity, failed⟩ := h.of_same (t := s.failShown code slot)
    (congrArg FltCore.injCheck ((State.flt_logDev _ _ _).trans (State.flt_setf _ _ _)))
    ((State.fab_logDev _ _ _).trans (State.fab_setf _ _ _))
  exact State.reported_checkFault _ code off slot unarmed parity failed

variable {s} (h : s.quietChecks)

include h

theorem State.quietChecks.setf (x : Fld) (v : Nat) : (s.setf x v).quietChecks :=
  h.of_same (congrArg FltCore.injCheck (State.flt_setf _ _ _)) (State.fab_setf _ _ _)

theorem State.slipway_judged (v : Verdict) : (s.judged k v).f FAB.STATE_SLIPWAY = (match v with | .good _ _ => 3 | .bad _ _ => 4) := by
  cases v with
  | good i d =>
    change ((s.setf FAB.STATE_SLIPWAY 3).setf FAB.STATE_VSLOT k).f FAB.STATE_SLIPWAY = 3
    rw [State.f_setf_apart _ _ _ _ (by decide), State.f_setf _ _ _ (by decide)]
    rfl
  | bad c off =>
    change ((s.setf FAB.STATE_SLIPWAY 4).verifyFails c off k).f FAB.STATE_SLIPWAY = 4
    rw [(State.reported_verifyFails _ (h.setf _ _) c off k).f _ (by decide), State.f_failShown_other _ _ _ _ (by decide),
      State.f_setf _ _ _ (by decide)]
    rfl

theorem State.failCode_judged (c off : Nat) : (s.judged k (.bad c off)).f FAB.STATE_FAIL_CODE = c % 256 :=
  ((State.reported_verifyFails _ (h.setf _ _) c off k).f _ (by decide)).trans (State.f_failShown _ _ _)

theorem State.mem_judged (v : Verdict) : (s.judged k v).mem = s.mem := by
  cases v with
  | good i d => exact (State.mem_setf _ _ _).trans (State.mem_setf _ _ _)
  | bad c off =>
    have shown : ((s.setf FAB.STATE_SLIPWAY 4).failShown c k).mem = s.mem :=
      (State.mem_logDev _ _ _).trans ((State.mem_setf _ _ _).trans (State.mem_setf _ _ _))
    exact ((State.reported_verifyFails _ (h.setf _ _) c off k).moves.p3 rfl).trans shown

end

section

variable (s : State) (k : Nat)

theorem State.signerHash_copySlot : (s.copySlot k).signerHash = s.signerHash := by
  have lifecycle : (s.copySlot k).lifecycle = s.lifecycle :=
    State.f_of_w _ _ (s.w_copySlot_other k (by decide) (by decide) (by decide))
  have sec : (s.copySlot k).sec = s.sec := ((Moves.refl s).copySlot (Sub.refl _)).p18 rfl
  unfold State.signerHash
  rw [lifecycle, sec]

/-- A slipway without damaged words is read without an error. -/
theorem State.bankCheck_sound (a n reader : Nat) (h : s.ecc = []) : s.bankCheck a n reader = s := by
  unfold State.bankCheck
  rw [h]
  rfl

theorem State.injCheck_eccWrite (w : Nat) : (s.eccWrite w).flt.injCheck = s.flt.injCheck := by
  unfold State.eccWrite State.injDone
  split
  · split
    · rw [State.flt_ev, State.flt_setf]
    · rfl
  · rfl

theorem State.injCheck_copySlot : (s.copySlot k).flt.injCheck = s.flt.injCheck := by
  unfold State.copySlot
  extract_lets t
  have same : t.flt.injCheck = s.flt.injCheck := rfl
  split
  · split
    · exact (t.injCheck_eccWrite _).trans same
    · exact same
  · exact same

theorem State.quietChecks.copySlot {s : State} (h : s.quietChecks) : (s.copySlot k).quietChecks :=
  h.of_same (s.injCheck_copySlot k) (((Moves.refl s).copySlot (Sub.refl _)).p10 rfl)

end

section

variable {s : State} {o : FabOp}

theorem execWriteSlotDone_reads (runs : s.fabRuns 3 = some o) (empty : s.f (slotField o.slot) = 0) (ready : s.flashReady = true) :
    exec (.writeSlotDone true []) s = .next (((s.notWriting o.slot).slotWritten o.slot).fabDone 3 .ok) := by
  change execWriteSlotDone true [] s = _
  unfold execWriteSlotDone
  rw [runs]
  change (if (s.notWriting o.slot).f _ ≠ 0 then _ else if true = true ∧ (s.notWriting o.slot).flashReady = true then _ else _) = _
  rw [if_neg (by rw [State.f_notWriting, empty]; decide), if_pos ⟨rfl, (s.flashReady_notWriting _).trans ready⟩]
  rfl

theorem exec_eraseSlotDone (runs : s.fabRuns 7 = some o) : exec .eraseSlotDone s = .next ((s.slotErased o.slot).fabDone 7 .ok) := by
  change execEraseSlotDone s = _
  unfold execEraseSlotDone
  rw [runs]
  rfl

theorem execLoadSlotDone_reads (runs : s.fabRuns 4 = some o) (free : s.fab.load = none) (there : s.slotLost o.slot = false)
    (ready : s.flashReady = true) (turn : s.verifyTurn .image = true) :
    exec (.loadSlotDone []) s = .next ((((s.copySlot o.slot).judged o.slot ((s.copySlot o.slot).judgeSlipway (s.copySlot o.slot).slipLen
      s.signerHash true)).fabDone 4 .ok).verifyServed .image) := by
  have same : s.blocksBad [] = s := rfl
  change execLoadSlotDone [] s = _
  simp only [execLoadSlotDone, runs, free, same, there, ready, turn, Option.isSome_none, Bool.not_true, Bool.or_self, Bool.false_eq_true,
    or_self, if_false, State.signerHash_copySlot]
  rfl

theorem execVerifyDone_judges (runs : s.fabRuns 2 = some o) (turn : s.verifyTurn .image = true) (sound : s.ecc = []) :
    exec .verifyDone s = .next (((s.judged 3 (s.judgeSlipway o.arg s.signerHash true)).fabDone 2 .ok).verifyServed .image) := by
  change execVerifyDone s = _
  simp only [execVerifyDone, runs, turn, Bool.not_true, Bool.false_eq_true, if_false, State.bankCheck_sound _ _ _ _ sound]
  rfl

end

/-! Fuses of the rollback count. -/

section

variable (s : State) (n : Nat)

/-- The fuses show the count, and what is older is BAD (R148). -/
theorem State.fuses_fuseDone : (s.fuseDone (.count n)).f FAB.SECVER_FUSES = max (s.f FAB.SECVER_FUSES) n % 128 := by
  have marked : ∀ (t : State) (m : Nat), (t.markOldSlots m).f FAB.SECVER_FUSES = t.f FAB.SECVER_FUSES := fun t m =>
    State.f_of_w _ _ (t.w_forL_other _ fun u k => by
      split
      · exact u.w_setSlot_other _ _ (by decide) (by decide)
      · rfl)
  have dropped : (s.fuseDrop (.count n)).f FAB.SECVER_FUSES = s.f FAB.SECVER_FUSES := State.f_of_w _ _ (s.w_cores _)
  unfold State.fuseDone
  dsimp only
  rw [State.f_congr _ (State.regs_logDev _ _ _), marked, State.f_setf _ _ _ (by decide), dropped]
  rfl

theorem State.sec_fuseDone : (s.fuseDone (.count n)).sec = (s.fuseDrop (.count n)).sec :=
  have all := Sub.refl 0x10004
  ((Moves.refl (s.fuseDrop (.count n))).setf.markOldSlots.logDev : Moves 0x10004 _ (s.fuseDone (.count n))).p18 rfl

variable {s n}

theorem execRollbackFusesDone_shown {o : FabOp} (first : s.sec.firstCount = some n) (runs : s.fabRuns 6 = some o) (reached : o.arg ≤ n) :
    exec (.rollbackFusesDone true) s = .next ((s.fuseDone (.count n)).fabDone 6 .ok) := by
  change execRollbackFusesDone true s = _
  have ends : ((s.fabRuns 6).filter (fun o => decide (o.arg ≤ n))).isSome = true := by
    rw [runs, Option.filter, if_pos (decide_eq_true reached)]
    rfl
  simp only [execRollbackFusesDone, first, ends, if_true]
  rfl

end

/-! The handover of an ACTIVATE. -/

/-- The switchover has ended without a change of roles. -/
def State.notSwitched (s : State) : State :=
  ((s.modXlk (fun x => { x with switching := none })).setf XLK.STATUS_SWITCHING 0).evIf true XLK.EVENT_SWITCH_REFUSED

theorem State.switching_notSwitched (s : State) : s.notSwitched.xlk.switching = none := by
  unfold State.notSwitched
  rw [State.xlk_evIf, State.xlk_setf]
  rfl

theorem State.shown_notSwitched (s : State) : s.notSwitched.f XLK.STATUS_SWITCHING = 0 :=
  (State.f_of_w _ _ (State.w_ev_other _ _ (by decide) (by decide) (by decide))).trans (State.f_setf _ _ _ (by decide))

theorem execActivateHandoverTimeout_fails {s : State} {j : SwitchJob} (runs : s.xlk.switching = some j) (activate : j.activate = true)
    (waits : s.fab.handover.isSome = true) : exec .activateHandoverTimeout s = .next (s.notSwitched.fabDone 5 .locked) := by
  change execActivateHandoverTimeout s = _
  simp only [execActivateHandoverTimeout, runs, activate, waits, and_self, if_true, State.switchFails]
  rfl

theorem State.op_fabDone (s : State) (opc : Nat) (c : Code) : (s.fabDone opc c).fab.op = none :=
  congrArg FabCore.op (s.fab_fabDone opc c)

/-- An operation that has ended with the verify unit's answer. -/
theorem State.served_fabDone (s : State) (opc : Nat) (c : Code) (r : VerifyReq) :
    ((s.fabDone opc c).verifyServed r).fab.op = none ∧ ((s.fabDone opc c).verifyServed r).f FAB.OP_STATUS_BUSY = 0 ∧
      ((s.fabDone opc c).verifyServed r).f FAB.OP_STATUS_CODE = c.num ∧
      ((s.fabDone opc c).verifyServed r).f FAB.STATE_SLIPWAY = s.f FAB.STATE_SLIPWAY ∧
      ((s.fabDone opc c).verifyServed r).f FAB.STATE_FAIL_CODE = s.f FAB.STATE_FAIL_CODE ∧
      ((s.fabDone opc c).verifyServed r).mem = s.mem := by
  have served : ∀ x : Fld, ((s.fabDone opc c).verifyServed r).f x = (s.fabDone opc c).f x := fun x => State.f_of_w _ _ (State.w_cores _ _)
  refine ⟨s.op_fabDone opc c, ?_, ?_, ?_, ?_, ((Moves.refl s).fabDone (Sub.refl _)).p3 rfl⟩
  · rw [served, State.busy_fabDone]
  · rw [served, State.code_fabDone]
  · rw [served, State.f_fabDone_other _ _ _ _ (by decide) (by decide)]
  · rw [served, State.f_fabDone_other _ _ _ _ (by decide) (by decide)]

section

variable {s : State} {o : FabOp}

theorem execWriteSlotDone_ends (runs : s.fabRuns 3 = some o) (empty : s.f (slotField o.slot) = 0) (ready : s.flashReady = true) :
    ∃ t, exec (.writeSlotDone true []) s = .next t ∧ t.f (slotField o.slot) = 1 ∧ t.fab.op = none ∧ t.f FAB.OP_STATUS_BUSY = 0 ∧
      t.f FAB.OP_STATUS_CODE = Code.ok.num ∧
      (∀ i, i < slipSize → Tab.get memDefault t.flash (slotBase o.slot + i) = s.byte (slipBase + i)) ∧
      (∀ a, a < slotBase o.slot ∨ slotBase o.slot + slipSize ≤ a → Tab.get memDefault t.flash a = Tab.get memDefault s.flash a) := by
  have field : (slotField o.slot).key = FAB.SLOTS := slotField_key _
  refine ⟨_, execWriteSlotDone_reads runs empty ready, ?_, State.op_fabDone _ _ _, State.busy_fabDone _ _ _, State.code_fabDone _ _ _,
    fun i hi => ?_, fun a ha => ?_⟩
  · rw [State.f_fabDone_other _ _ _ _ (by rw [field]; decide) (by rw [field]; decide), State.slotWritten, State.f_setSlot]
  · rw [State.flash_fabDone, State.flash_slotWritten, State.flash_programSlot _ _ hi, State.byte_notWriting]
  · rw [State.flash_fabDone, State.flash_slotWritten, State.flash_programSlot_outside _ _ ha]
    rfl

theorem execEraseSlotDone_ends (runs : s.fabRuns 7 = some o) :
    ∃ t, exec .eraseSlotDone s = .next t ∧ t.f (slotField o.slot) = 0 ∧ t.fab.op = none ∧ t.f FAB.OP_STATUS_BUSY = 0 ∧
      t.f FAB.OP_STATUS_CODE = Code.ok.num ∧
      (∀ i, i < slipSize → Tab.get memDefault t.flash (slotBase o.slot + i) = 0) ∧
      (∀ a, a < slotBase o.slot ∨ slotBase o.slot + slipSize ≤ a → Tab.get memDefault t.flash a = Tab.get memDefault s.flash a) := by
  have field : (slotField o.slot).key = FAB.SLOTS := slotField_key _
  refine ⟨_, exec_eraseSlotDone runs, ?_, State.op_fabDone _ _ _, State.busy_fabDone _ _ _, State.code_fabDone _ _ _,
    fun i hi => ?_, fun a ha => ?_⟩
  · rw [State.f_fabDone_other _ _ _ _ (by rw [field]; decide) (by rw [field]; decide), State.slotErased, State.f_emptySlot_slot]
  · rw [State.flash_fabDone, State.flash_slotErased, State.flash_eraseSlot _ _ hi]
  · rw [State.flash_fabDone, State.flash_slotErased, State.flash_eraseSlot_outside _ _ ha]

theorem execLoadSlotDone_ends (runs : s.fabRuns 4 = some o) (free : s.fab.load = none) (there : s.slotLost o.slot = false)
    (ready : s.flashReady = true) (turn : s.verifyTurn .image = true) (quiet : s.quietChecks) :
    ∃ t, exec (.loadSlotDone []) s = .next t ∧ t.fab.op = none ∧ t.f FAB.OP_STATUS_BUSY = 0 ∧
      (∀ i, i < slipSize → t.byte (slipBase + i) = Tab.get memDefault s.flash (slotBase o.slot + i)) ∧
      t.f FAB.STATE_SLIPWAY = (match (s.copySlot o.slot).judgeSlipway (s.copySlot o.slot).slipLen s.signerHash true with
        | .good _ _ => 3
        | .bad _ _ => 4) := by
  have quiet := quiet.copySlot o.slot
  refine ⟨_, execLoadSlotDone_reads runs free there ready turn, ?_⟩
  generalize (s.copySlot o.slot).judgeSlipway (s.copySlot o.slot).slipLen s.signerHash true = v
  obtain ⟨ended, idle, -, slipway, -, mem⟩ := ((s.copySlot o.slot).judged o.slot v).served_fabDone 4 .ok .image
  refine ⟨ended, idle, fun i hi => ?_, slipway.trans (State.slipway_judged _ quiet v)⟩
  rw [← s.byte_copySlot o.slot hi]
  unfold State.byte
  rw [mem, State.mem_judged _ quiet]

theorem execVerifyDone_ends (runs : s.fabRuns 2 = some o) (turn : s.verifyTurn .image = true) (sound : s.ecc = [])
    (quiet : s.quietChecks) :
    ∃ t, exec .verifyDone s = .next t ∧ t.fab.op = none ∧ t.f FAB.OP_STATUS_BUSY = 0 ∧ t.f FAB.OP_STATUS_CODE = Code.ok.num ∧
      match s.judgeSlipway o.arg s.signerHash true with
        | .good _ _ => t.f FAB.STATE_SLIPWAY = 3
        | .bad c _ => t.f FAB.STATE_SLIPWAY = 4 ∧ t.f FAB.STATE_FAIL_CODE = c % 256 := by
  refine ⟨_, execVerifyDone_judges runs turn sound, ?_⟩
  generalize s.judgeSlipway o.arg s.signerHash true = v
  obtain ⟨ended, idle, code, slipway, failCode, -⟩ := (s.judged 3 v).served_fabDone 2 .ok .image
  have shown := slipway.trans (State.slipway_judged 3 quiet v)
  refine ⟨ended, idle, code, ?_⟩
  cases v with
  | good i d => exact shown
  | bad c off => exact ⟨shown, failCode.trans (State.failCode_judged 3 quiet c off)⟩

theorem execRollbackFusesDone_ends {n : Nat} (first : s.sec.firstCount = some n) (runs : s.fabRuns 6 = some o) (reached : o.arg ≤ n) :
    ∃ t, exec (.rollbackFusesDone true) s = .next t ∧ t.sec.fuse = s.sec.fuse.filter (fun x => x != .count n) ∧
      t.f FAB.SECVER_FUSES = max (s.f FAB.SECVER_FUSES) n % 128 ∧ t.fab.op = none ∧
      t.f FAB.OP_STATUS_BUSY = 0 ∧ t.f FAB.OP_STATUS_CODE = Code.ok.num := by
  have sec : ((s.fuseDone (.count n)).fabDone 6 .ok).sec = (s.fuseDrop (.count n)).sec :=
    (((Moves.refl _).fabDone (Sub.refl _)).p18 rfl).trans (s.sec_fuseDone n)
  refine ⟨_, execRollbackFusesDone_shown first runs reached, congrArg SecCore.fuse sec, ?_, State.op_fabDone _ _ _,
    State.busy_fabDone _ _ _, State.code_fabDone _ _ _⟩
  rw [State.f_fabDone_other _ _ _ _ (by decide) (by decide), State.fuses_fuseDone]

theorem execActivateHandoverTimeout_ends {j : SwitchJob} (runs : s.xlk.switching = some j) (activate : j.activate = true)
    (waits : s.fab.handover.isSome = true) :
    ∃ t, exec .activateHandoverTimeout s = .next t ∧ t.xlk.switching = none ∧ t.f XLK.STATUS_SWITCHING = 0 ∧ t.fab.op = none ∧
      t.f FAB.OP_STATUS_LAST_OP = 5 ∧ t.f FAB.OP_STATUS_CODE = Code.locked.num := by
  have xlk : (s.notSwitched.fabDone 5 .locked).xlk = s.notSwitched.xlk := ((Moves.refl _).fabDone (Sub.refl _)).p20 rfl
  refine ⟨_, execActivateHandoverTimeout_fails runs activate waits, ?_, ?_, State.op_fabDone _ _ _, State.lastOp_fabDone _ _ _,
    State.code_fabDone _ _ _⟩
  · rw [xlk, State.switching_notSwitched]
  · rw [State.f_fabDone_other _ _ _ _ (by decide) (by decide), State.shown_notSwitched]

end

/-- Settles O12: each operation by the lemma that says what it ends with. -/
theorem fabOperationsEnd : Obligations.FabOperationsEnd := by
  unfold Obligations.FabOperationsEnd
  exact ⟨fun s o runs empty ready => execWriteSlotDone_ends runs empty ready, fun s o runs => execEraseSlotDone_ends runs,
    fun s o runs free there ready turn unarmed parity failed =>
      execLoadSlotDone_ends runs free there ready turn ⟨unarmed, parity, failed⟩,
    fun s o runs turn sound unarmed parity failed => execVerifyDone_ends runs turn sound ⟨unarmed, parity, failed⟩,
    fun s o n first runs reached => execRollbackFusesDone_ends first runs reached,
    fun s j runs activate waits => execActivateHandoverTimeout_ends runs activate waits⟩

end Sys2Proof.Machine
end

section
/-! PROOFS. READ_ID, COMMIT_ROLLBACK and ACTIVATE (O13). -/

namespace Sys2Proof.Machine

/-! Identities. -/

theorem beWords_length (l : List Byte) : (beWords l).length ≤ l.length := by
  fun_induction beWords l with
  | case1 a b c d t ih =>
    simp only [List.length_cons]
    omega
  | case2 => exact Nat.le_refl 0
  | case3 t _ rest => exact List.length_pos_iff.2 rest

section

variable {s : State}

theorem State.length_slotId {k : Nat} {b : List Byte} (h : s.slotId k = some b) : b.length ≤ 64 := by
  unfold State.slotId at h
  split at h
  · split at h
    · obtain ⟨i, -, rfl⟩ := Option.map_eq_some_iff.1 h
      exact List.length_take_le _ _
    · cases h
  · split at h
    · cases h
    · obtain rfl := Option.some.inj h
      exact List.length_take_le _ _

/-- The identity of a slot is a matter of its state and of flash, that of the image in force of FAB. -/
theorem State.slotId_rung (p : Port) (opc slot handover k : Nat) : (s.rung p opc slot handover).slotId k = s.slotId k := by
  have shown : ∀ y : Fld, y.key ≠ FAB.OP → (s.rung p opc slot handover).f y = s.f y := s.f_rung_other p opc slot handover
  unfold State.slotId State.landed
  rw [State.flash_rung, State.fab_rung, shown _ (by decide), shown _ (by rw [slotField_key]; decide)]

theorem State.fabReadId_holds {p : Port} {k : Nat} {b : List Byte} (h : s.slotId k = some b) :
    s.fabReadId p k = (s.fabDone 8 .ok).mboxOut p (beWords b) := by
  unfold State.fabReadId
  rw [h]

theorem execReadId_answers {p : Port} {k : BitVec 2} {b : List Byte} (takes : s.takes p FAB.OP false)
    (idle : s.f FAB.OP_STATUS_BUSY = 0) (id : s.slotId k.toNat = some b) :
    ∃ t, exec (.readId p k) s = .next t ∧ t.mboxHolds p (beWords b) ∧ t.f FAB.OP_STATUS_BUSY = 0 ∧
      t.f FAB.OP_STATUS_CODE = Code.ok.num := by
  have fits : (beWords b).length ≤ 64 := (beWords_length b).trans (State.length_slotId id)
  have apart : ¬(HOST.MBOX p 0 ≤ FAB.OP_STATUS ∧ FAB.OP_STATUS < HOST.MBOX p 64) ∧ FAB.OP_STATUS ≠ HOST.MBOX_STAT p ∧
      FAB.OP_STATUS ≠ HOST.EVENT p := by
    cases p <;> decide
  obtain ⟨box, stat, event⟩ := apart
  have shown : ∀ (t : State) (y : Fld), y.key = FAB.OP_STATUS → (t.mboxOut p (beWords b)).f y = t.f y := fun t y hy =>
    State.f_of_w _ _ (by rw [hy]; exact State.w_mboxOut_other _ p _ fits (by decide) box stat event)
  refine ⟨_, exec_readId_taken takes idle k, ?_⟩
  rw [State.fabReadId_holds ((State.slotId_rung _ _ _ _ _).trans id)]
  refine ⟨State.mboxHolds_mboxOut _ _ _ fits, ?_, ?_⟩
  · rw [shown _ _ rfl, State.busy_fabDone]
  · rw [shown _ _ rfl, State.code_fabDone]

end

/-! Rollback. -/

section

variable {s : State} {p : Port}

theorem State.fabRollback_starts {i : Image} {n : Nat} (landed : s.landed = true) (img : s.fab.img = some i)
    (more : s.f FAB.SECVER_FUSES < n) (own : n ≤ i.secVer) (fits : n ≤ 64) (golden : s.f FAB.SLOTS_GOLDEN_ST ≠ 0)
    (fresh : n ≤ s.f FAB.SECVER_GOLDEN_SV) : s.fabRollback p n = (s.fuseBegin (.count n)).fabStart p 6 3 n := by
  simp only [State.fabRollback, landed, img, if_true, Option.map_some]
  rw [if_neg (by omega), if_neg (by omega), if_neg (by omega)]

theorem execCommitRollback_starts {i : Image} (takes : s.takes p FAB.OP false) (idle : s.f FAB.OP_STATUS_BUSY = 0)
    (landed : s.landed = true) (img : s.fab.img = some i) (more : s.f FAB.SECVER_FUSES < s.w FAB.OP_ARG)
    (own : s.w FAB.OP_ARG ≤ i.secVer) (fits : s.w FAB.OP_ARG ≤ 64) (golden : s.f FAB.SLOTS_GOLDEN_ST ≠ 0)
    (fresh : s.w FAB.OP_ARG ≤ s.f FAB.SECVER_GOLDEN_SV) :
    ∃ t, exec (.commitRollback p) s = .next t ∧ t.f FAB.OP_STATUS_BUSY = 1 ∧
      t.sec.fuse = s.sec.fuse.filter (fun x => x != .count (s.w FAB.OP_ARG)) ++ [.count (s.w FAB.OP_ARG)] ∧
      t.fab.op = some ⟨6, 3, p, s.w FAB.OP_ARG⟩ := by
  have shown : ∀ y : Fld, y.key ≠ FAB.OP → (s.rung p 6 0 0).f y = s.f y := s.f_rung_other p 6 0 0
  refine ⟨_, exec_commitRollback_taken takes idle, ?_⟩
  rw [State.fabRollback_starts (i := i) (by unfold State.landed; rwa [shown _ (by decide)]) (by rwa [State.fab_rung])
    (by rwa [shown _ (by decide)]) own fits (by rwa [shown _ (by decide)]) (by rwa [shown _ (by decide)])]
  refine ⟨State.busy_fabStart _ _ _ _ _, ?_, congrArg FabCore.op (State.fab_fabStart _ _ _ _ _)⟩
  have begun : ∀ t : State, ((t.fuseBegin (.count (s.w FAB.OP_ARG))).fabStart p 6 3 (s.w FAB.OP_ARG)).sec.fuse =
      t.sec.fuse.filter (fun x => x != .count (s.w FAB.OP_ARG)) ++ [.count (s.w FAB.OP_ARG)] := fun t =>
    congrArg SecCore.fuse (State.sec_setf _ _ _)
  rw [begun, State.sec_rung]

end

/-! A full reset that an ACTIVATE begins. -/

section

variable {s : State}

/-- The reset has begun, and the load of the slipway with it (R142). -/
structure State.Activating (s : State) : Prop where
  inFull : s.top.inFull = true
  activated : s.top.activated = true
  load : ∃ j, s.fab.load = some j ∧ j.slipway = true ∧ j.wasPending = true

theorem State.activating_startLoad (inFull : s.top.inFull = true) (activated : s.top.activated = true) : s.startLoad.Activating where
  inFull := by rwa [State.top_startLoad]
  activated := by rwa [State.top_startLoad]
  load := by
    unfold State.startLoad
    extract_lets src s1
    rw [if_pos activated, State.fab_beginLoad]
    exact ⟨_, rfl, rfl, rfl⟩

theorem State.activating_fullReset (running : s.top.phase = .running) (out : s.top.inFull = false) (free : s.top.fullHeld = false)
    (idle : s.fab.load = none) : (s.fullReset 3).Activating := by
  have cleared : ∀ t : State, t.fullCores.resetFull.refreshEng.top = t.top := fun t =>
    (State.top_fab_of_frame fun _ m => m.resetFull.refreshEng).1.trans t.top_fullCores
  unfold State.fullReset
  rw [if_neg fun h => Bool.noConfusion (out.symm.trans h.1)]
  extract_lets again s1 s2 s3 s4 s5 s6 s7 s8 _ _ s9 s10
  have noLoad : again = none := idle
  have begun : s8.top = s.top := (State.top_fab_of_frame fun _ m => (((m.logDev.xlkNotice.setf.inc.setf.forN fun _ _ m =>
    m.ferryLoop).forN fun _ _ m => m.ferryTsc).ferrySynths.forN fun _ _ m => m.ferryEngine)).1
  clear_value again s8
  have now : s10.top = { s8.top with inFull := true, resetting := true, activated := true } := cleared s9
  clear_value s10
  split
  · cases noLoad
  · rw [if_neg (by rw [now, begun, running, free]; decide)]
    exact State.activating_startLoad (by rw [now]) (by rw [now])

theorem State.activating_activateGo (running : s.top.phase = .running) (out : s.top.inFull = false) (free : s.top.fullHeld = false)
    (idle : s.fab.load = none) : s.activateGo.Activating := by
  obtain ⟨top, fab⟩ := State.top_fab_of_frame (s := s) (t := (s.setf FAB.SLOTS_PENDING (s.f FAB.STATE_VSLOT)).commitBoot)
    fun _ m => m.setf.commitBoot
  exact State.activating_fullReset (by rwa [top]) (by rwa [top]) (by rwa [top]) (by rwa [fab])

theorem State.fabActivate_goes (p : Port) (h : Bool) (verified : s.f FAB.STATE_SLIPWAY = 3) (slot : s.f FAB.STATE_VSLOT ≠ 3)
    (alone : s.xlkBuilt = false) : s.fabActivate p h = s.activateGo := by
  unfold State.fabActivate
  rw [if_neg (by simp [verified, slot]), if_neg (by simp [alone])]

theorem execActivate_goes {p : Port} (h : Bool) (takes : s.takes p FAB.OP false) (ready : s.f FAB.OP_STATUS_BUSY = 0)
    (verified : s.f FAB.STATE_SLIPWAY = 3) (slot : s.f FAB.STATE_VSLOT ≠ 3) (alone : s.xlkBuilt = false)
    (running : s.top.phase = .running) (out : s.top.inFull = false) (free : s.top.fullHeld = false) (idle : s.fab.load = none) :
    ∃ t, exec (.activate p h) s = .next t ∧ t.Activating := by
  have built : (s.rung p 5 0 (b2n h)).xlkBuilt = s.xlkBuilt := by
    unfold State.xlkBuilt
    rw [State.fab_rung]
  refine ⟨_, exec_activate_taken takes ready h, ?_⟩
  rw [State.fabActivate_goes p h (by rwa [State.f_rung_other _ _ _ _ _ _ (by decide)])
    (by rwa [State.f_rung_other _ _ _ _ _ _ (by decide)]) (built.trans alone)]
  exact State.activating_activateGo (by rwa [State.top_rung]) (by rwa [State.top_rung]) (by rwa [State.top_rung])
    (by rwa [State.fab_rung])

end

/-- Settles O13: what READ_ID places, what COMMIT_ROLLBACK records, and the full reset that ACTIVATE begins. -/
theorem fabIdentityAndActivation : Obligations.FabIdentityAndActivation := by
  unfold Obligations.FabIdentityAndActivation
  refine ⟨fun p k s b takes idle id => execReadId_answers takes idle id,
    fun p s i takes idle landed img more own fits golden fresh =>
      execCommitRollback_starts takes idle landed img more own fits golden fresh,
    fun p h s takes ready verified slot alone running out free idle => ?_⟩
  obtain ⟨t, ran, inFull, activated, load⟩ := execActivate_goes h takes ready verified slot alone running out free idle
  exact ⟨t, ran, inFull, activated, load⟩

end Sys2Proof.Machine
end

section
/-! PROOFS. Register commands whose change other units follow (O16): a state in which a write of XLK.CTRL clears a bit of XLK.CTRL that
it does not drive to 0. -/

namespace Sys2Proof.Machine

theorem exec_xlkAdminWrite (p : Port) (a : RegAcc) (s : State) : exec (.xlkAdminWrite p a) s = .next (s.hostWriteAt p XLK.CTRL a) := rfl

/-- A loop is bound to selector 112, which the device does not have, and the landing of lane 0 stands in entry 1 of that selector:
`State.numbered` is false here, and O16 does not ask for it. By the address rule `SEL.QUAL 112` is `XLK.CTRL` (0xA00010), and
`SEL.CFG 112` is `XLK.CFG`, whose FOLLOW gives the selector two entries. All else is in order: an image with the crossing link and its
helm for port A has landed, lane 0 is up and its landing is active, and the entry is QUALIFIED. -/
def strayFollowed : State :=
  ({ top := { phase := .running }
     fab := { img := some { selectors := [⟨112, 1, []⟩], loops := [⟨0, 0, 112, 0, 0, 0, 1000⟩], xlk := some ⟨[]⟩
                            helm := List.replicate 0xA1 1 } } } : State)
    |>.setf FAB.STATE_LOAD 2 |>.setf XLK.CFG_FOLLOW 2 |>.setf XLK.STATUS_LANE0_UP 1 |>.setf (LND.STATUS_ACTIVE 28) 1
    |>.setf (SEL.CAND_CFG_WHO 112 1) 28 |>.setf (SEL.CAND_STATE_CSTATE 112 1) 2

/-- Byte 0 of XLK.CTRL is written with ADMIN 0 and TS_EN 1. -/
def adminOff : RegAcc := ⟨.normal, 0, .b1, 2⟩

theorem strayFollowed_performs : strayFollowed.performs .a XLK.CTRL adminOff := by
  unfold State.performs
  decide +kernel

/-- The write leaves TS_EN at 1. -/
theorem strayFollowed_leaves : leaves adminOff (strayFollowed.w XLK.CTRL) (strayFollowed.mayWrite .a XLK.CTRL) = 2 := by decide +kernel

/-- With ADMIN at 0 the lane goes down and the entry fails, so that bit 1 of its selector's QUAL becomes 0, which is TS_EN. -/
theorem strayFollowed_written : (strayFollowed.hostWriteAt .a XLK.CTRL adminOff).w XLK.CTRL = 0 := by decide +kernel

/-- Refutes O16: the clause of XLK.CTRL fails in `strayFollowed`, where the QUAL of a selector that a loop names has the address of
XLK.CTRL, so that the register holds 0 and not the 2 that the write leaves. The statement does not ask for `State.numbered`, which
bounds the selectors. -/
theorem not_registerCommandsStoreAndAct : ¬ Obligations.RegisterCommandsStoreAndAct := by
  unfold Obligations.RegisterCommandsStoreAndAct
  rintro ⟨-, -, -, -, -, -, -, -, -, -, admin⟩
  obtain ⟨t, ran, -, held⟩ := admin .a adminOff strayFollowed strayFollowed_performs
  rw [exec_xlkAdminWrite] at ran
  rw [← Host.Outcome.next.inj ran, strayFollowed_written, strayFollowed_leaves] at held
  exact absurd held (by decide)

end Sys2Proof.Machine
end

section
/-! PROOFS. The registers of the landings lie at 0x100000 to 0x2FFFFF. What the router, the selectors, the loops and the banks do writes
none of them, whatever the numbers of their selectors and loops are. -/

set_option Elab.async false

namespace Sys2Proof.Machine

/-- Every register of a landing is in the second state what it is in the first. -/
def State.SameLandings (s t : State) : Prop := ∀ j, 0x100000 ≤ j → j < 0x300000 → t.w j = s.w j

theorem intrKey_landing {j : Nat} (a : 0x100000 ≤ j) (b : j < 0x300000) : intrKey j = false :=
  intrKey_false (by omega) (by omega)

namespace State.SameLandings

variable {s0 s t u : State}

theorem refl (s : State) : s.SameLandings s := fun _ _ _ => rfl

theorem trans (h : s.SameLandings t) (k : t.SameLandings u) : s.SameLandings u := fun j a b => (k j a b).trans (h j a b)

theorem f (h : s.SameLandings t) (x : Fld) (a : 0x100000 ≤ x.key) (b : x.key < 0x300000) : t.f x = s.f x :=
  s.f_of_w x (h x.key a b)

theorem on (h : s.SameLandings t) (x : Fld) (a : 0x100000 ≤ x.key) (b : x.key < 0x300000) : t.on x = s.on x :=
  s.on_of_f x (h.f x a b)

/-! Writes of other registers, choices and repetitions. -/

theorem core (h : s0.SameLandings s) (e : t.regs = s.regs) : s0.SameLandings t := fun j a b => (s.w_congr e j).trans (h j a b)

theorem setw (h : s0.SameLandings s) {k v : Nat}
    (hk : k < 0x100000 ∨ 0x300000 ≤ k := by dsimp only [LOOP.HO_ELAPSED, EVR.MERGE_LAST]; omega) : s0.SameLandings (s.setw k v) :=
  fun j a b => (s.w_setw_other k v (by omega)).trans (h j a b)

theorem setf (h : s0.SameLandings s) {x : Fld} {v : Nat}
    (hx : x.key < 0x100000 ∨ 0x300000 ≤ x.key := by
      dsimp only [SEL.STATUS, SEL.QUAL, SEL.CAND_STATE, SEL.CAND_FOFF, SELG.STATE_A, SELG.STATE_B, LOOP.STATUS, LOOP.HO_STAT,
        TSC.STATUS, EVR.MERGE_CNT, EVR.STALE_CNT, FLT.STATUS]; omega) :
    s0.SameLandings (s.setf x v) := h.setw hx

theorem ev (h : s0.SameLandings s) {x : Fld}
    (hx : x.lo < 32 ∧ (x.key < 0x100000 ∨ 0x300000 ≤ x.key) := by
      dsimp only [SEL.EVENT, SEL.CAND_EVENT, LOOP.EVENT, TSC.EVENT, EVR.EVENT, FLT.EVENT]; omega) : s0.SameLandings (s.ev x) :=
  fun j a b => (s.w_ev_other x hx.1 (intrKey_landing a b) (by omega)).trans (h j a b)

/-- Where an operation goes on in several ways. -/
theorem bind {p : Prop} (h : s0.SameLandings s) (k : s0.SameLandings s → p) : p := k h

section
variable {c : Prop} [Decidable c]

theorem ite (h : s0.SameLandings s) (k : s0.SameLandings t) : s0.SameLandings (if c then s else t) := by
  split
  · exact h
  · exact k

theorem opt (h : s0.SameLandings t) (k : s0.SameLandings t → s0.SameLandings s) : s0.SameLandings (if c then s else t) := ite (k h) h

theorem optElse (h : s0.SameLandings s) (k : s0.SameLandings s → s0.SameLandings t) : s0.SameLandings (if c then s else t) :=
  ite h (k h)
end

theorem when {g : State → State} {c : Bool} (h : s0.SameLandings s) (k : s0.SameLandings s → s0.SameLandings (g s)) :
    s0.SameLandings (s.when c g) := h.opt k

theorem forL {α : Type} {g : State → α → State} {l : List α} (h : s0.SameLandings s)
    (k : ∀ t x, s0.SameLandings t → s0.SameLandings (g t x)) : s0.SameLandings (s.forL l g) := by
  unfold State.forL
  induction l generalizing s with
  | nil => exact h
  | cons x l ih => exact ih (k s x h)

theorem forN {g : State → Nat → State} {n : Nat} (h : s0.SameLandings s)
    (k : ∀ t x, s0.SameLandings t → s0.SameLandings (g t x)) : s0.SameLandings (s.forN n g) := h.forL k

theorem evIf (h : s0.SameLandings s) {c : Bool} {x : Fld}
    (hx : x.lo < 32 ∧ (x.key < 0x100000 ∨ 0x300000 ≤ x.key) := by dsimp only [SEL.EVENT, LOOP.EVENT]; omega) :
    s0.SameLandings (s.evIf c x) := h.opt fun h => h.ev hx

/-! The units' own state, and the logbook. -/

section
variable {n : Nat}

theorem modLnd {g : LndCore → LndCore} (h : s0.SameLandings s) : s0.SameLandings (s.modLnd n g) := h.core rfl
theorem modSel {g : SelCore → SelCore} (h : s0.SameLandings s) : s0.SameLandings (s.modSel n g) := h.core rfl
theorem modEnt {g : EntCore → EntCore} (h : s0.SameLandings s) : s0.SameLandings (s.modEnt n g) := h.core rfl
theorem modLoop {g : LoopCore → LoopCore} (h : s0.SameLandings s) : s0.SameLandings (s.modLoop n g) := h.core rfl
theorem modHo {g : HoCore → HoCore} (h : s0.SameLandings s) : s0.SameLandings (s.modHo n g) := h.core rfl
theorem modPrt {g : PrtCore → PrtCore} (h : s0.SameLandings s) : s0.SameLandings (s.modPrt n g) := h.core rfl
end

theorem logDev {kind : Nat} {data : List Byte} (h : s0.SameLandings s) : s0.SameLandings (s.logDev kind data) := h.core rfl

/-! The router. -/

theorem latch {key : Nat} {r : TaskRun} (h : s0.SameLandings s) : s0.SameLandings (s.latch key r) :=
  .ite (h.core rfl) (h.setf.ev.setw)

theorem deliver {e r : Nat} (h : s0.SameLandings s) : s0.SameLandings (s.deliver e r) :=
  .ite (.ite (h.when fun h => h.latch) h.setf.ev) h.latch

theorem route {e : Nat} (h : s0.SameLandings s) : s0.SameLandings (s.route e) := h.forL fun _ _ h => h.deliver

/-! The banks. -/

theorem eccWrite {w : Nat} (h : s0.SameLandings s) : s0.SameLandings (s.eccWrite w) := fun j a b =>
  (s.w_eccWrite_other w (intrKey_landing a b) (by dsimp only [FLT.STATUS]; omega) (by dsimp only [FLT.EVENT]; omega)).trans (h j a b)

theorem bankWrite {a : Nat} {bs : List Byte} (h : s0.SameLandings s) : s0.SameLandings (s.bankWrite a bs) :=
  (h.core rfl : s0.SameLandings (s.setBytes a bs)).forL fun _ _ h => h.eccWrite

/-! What a selector does to its loops. -/

section
variable {l : Nat}

theorem freezeNow (h : s0.SameLandings s) : s0.SameLandings (s.freezeNow l) := h.modHo.modLoop.optElse fun h => h.setf.ev

theorem freezeLoop (h : s0.SameLandings s) : s0.SameLandings (s.freezeLoop l) := h.freezeNow.opt fun h => h.modLoop

theorem setGear {gear bw dwell : Nat} {final : Bool} (h : s0.SameLandings s) : s0.SameLandings (s.setGear l gear bw dwell final) :=
  (h.setf.setf : s0.SameLandings ((s.setf (LOOP.STATUS_GEAR l) (min gear 7)).setb (LOOP.STATUS_FINAL l) final)).modLoop.modLoop.evIf

theorem finalGear {gear : Nat} (h : s0.SameLandings s) : s0.SameLandings (s.finalGear l gear) := h.setGear

theorem autoGear {k : Nat} (h : s0.SameLandings s) : s0.SameLandings (s.autoGear l k) := .ite h.finalGear h.setGear

theorem manGear {k : Nat} (h : s0.SameLandings s) : s0.SameLandings (s.manGear l k) := .ite h.finalGear h.setGear

theorem startGears (h : s0.SameLandings s) : s0.SameLandings (s.startGears l) := .ite h.manGear (.ite h.modLoop.autoGear h.finalGear)

theorem logHoldover {out : Bool} (h : s0.SameLandings s) : s0.SameLandings (s.logHoldover l out) := h.logDev.route

theorem orderDeparture {f : Bool} (h : s0.SameLandings s) : s0.SameLandings (s.orderDeparture l f) := h.modLoop

theorem departNow {f : Bool} (h : s0.SameLandings s) : s0.SameLandings (s.departNow l f) :=
  .ite h.orderDeparture.setf.startGears (.ite h.orderDeparture.setf.finalGear
    (h.orderDeparture.opt fun h => h.setf.finalGear.modHo.setf.setf.ev.logHoldover))

theorem enterHoldover (h : s0.SameLandings s) : s0.SameLandings (s.enterHoldover l) :=
  h.setf.setf.setw.modLoop.modHo.setf.ev.logHoldover

theorem holdoverNow (h : s0.SameLandings s) : s0.SameLandings (s.holdoverNow l) := .ite h.enterHoldover h.setf.modLoop

theorem obey {o : LoopOrder} (h : s0.SameLandings s) : s0.SameLandings (s.obey l o) := by
  cases o with
  | depart k f => exact h.departNow
  | holdover => exact h.holdoverNow
  | freeze => exact h.freezeNow

theorem orderLoop {o : LoopOrder} (h : s0.SameLandings s) : s0.SameLandings (s.orderLoop l o) :=
  h.optElse fun h => .ite h.modLoop.modLoop h.modLoop.obey
end

/-! Selectors and their entries. -/

section
variable {n k : Nat}

/-- `bit` is one of the fault bits, 8 to 12. -/
theorem setFault {bit : Nat} {b : Bool} (h : s0.SameLandings s) (hb : bit < 36 := by decide) :
    s0.SameLandings (s.setFault n k bit b) := .ite (h.setf.ev (by dsimp only [SEL.CAND_EVENT]; omega)) h.setf

theorem followForced {c : Nat} (h : s0.SameLandings s) : s0.SameLandings (s.followForced n k c) := h.opt fun h => h.ev.modSel

theorem setCstate {c : Nat} (h : s0.SameLandings s) : s0.SameLandings (s.setCstate n k c) := by
  unfold State.setCstate
  extract_lets s1 s2 s3 s4
  have h1 : s0.SameLandings s1 := h.setf.followForced
  have h2 : s0.SameLandings s2 := h1.when fun h => h.modEnt
  have h4 : s0.SameLandings s4 := h2.setf.setf
  clear_value s4
  exact .ite h4.ev (.ite h4.ev (h4.opt fun h => h.modEnt.ev))

theorem refreshSel (h : s0.SameLandings s) : s0.SameLandings (s.refreshSel n) := h.setf.setf.setf.setf

theorem refreshTrace (h : s0.SameLandings s) : s0.SameLandings s.refreshTrace := h.forN fun _ _ h => h.opt fun h => h.setf.ev

theorem preempt (h : s0.SameLandings s) : s0.SameLandings (s.preempt n) := h.core (((Moves.refl s).preempt (.refl _)).p2 rfl)

theorem drainAll (h : s0.SameLandings s) : s0.SameLandings (s.drainAll n) := h.core (((Moves.refl s).drainAll (.refl _)).p2 rfl)

/-- A frame whose stamp nobody awaits takes no egress context. -/
theorem enqueue {q : Nat} {f : TxFrame} (general : f.isEvent = false) (h : s0.SameLandings s) : s0.SameLandings (s.enqueue n q f) := by
  unfold State.enqueue
  rw [general, Bool.false_and, if_neg Bool.false_ne_true]
  extract_lets s1 s2
  have h2 : s0.SameLandings s2 := h.modPrt
  clear_value s2
  refine .ite h (.ite h ?_)
  exact (h2.when fun h => h.preempt).drainAll

theorem esmcSend {event : Bool} (h : s0.SameLandings s) : s0.SameLandings (s.esmcSend n event) := h.modPrt.enqueue rfl

theorem esmcRefresh (h : s0.SameLandings s) : s0.SameLandings s.esmcRefresh := h.forN fun _ _ h => h.opt fun h => h.esmcSend

theorem selFollow (h : s0.SameLandings s) : s0.SameLandings (s.selFollow n) := h.refreshSel.refreshTrace.esmcRefresh.core rfl

theorem logSwitch {a : Nat} (h : s0.SameLandings s) : s0.SameLandings (s.logSwitch n a) := h.logDev

theorem departAll {changed : Bool} (h : s0.SameLandings s) : s0.SameLandings (s.departAll n k changed) :=
  h.forL fun _ _ h => (h.when fun h => h.modHo).orderLoop

theorem freezeLoops {ls : List Nat} (h : s0.SameLandings s) : s0.SameLandings (s.forL ls (fun s l => s.freezeLoop l)) :=
  h.forL fun _ _ h => h.freezeLoop

theorem follow {st cause : Nat} (h : s0.SameLandings s) : s0.SameLandings (s.follow n k st cause) :=
  h.modEnt.setf.setf.setf.setf.evIf.evIf.modSel.ev.route.logSwitch.departAll.selFollow

theorem selHoldover (h : s0.SameLandings s) : s0.SameLandings (s.selHoldover n) :=
  (h.setf.setf.setf.ev.logSwitch.forL fun _ _ h => h.orderLoop).selFollow

theorem evaluate {cause : Nat} (h : s0.SameLandings s) : s0.SameLandings (s.evaluate n cause) := by
  unfold State.evaluate
  refine .ite h.modSel ?_
  split
  · exact h
  · exact .ite h.follow (h.opt fun h => h.follow)

theorem holdoffEnd {back : Bool} (h : s0.SameLandings s) : s0.SameLandings (s.holdoffEnd n back) := by
  unfold State.holdoffEnd
  extract_lets a s1 s2 s3
  have h1 : s0.SameLandings s1 := h.when fun h => h.setCstate
  have h3 : s0.SameLandings s3 := h1.follow.modSel
  clear_value s3
  refine .ite h3.evaluate ?_
  split
  · exact h.follow
  · exact h.selHoldover

theorem enterHoldoff (h : s0.SameLandings s) : s0.SameLandings (s.enterHoldoff n) :=
  h.setf.modSel.ev.logSwitch.freezeLoops.selFollow.opt fun h => h.holdoffEnd

theorem forcedCheck (h : s0.SameLandings s) : s0.SameLandings (s.forcedCheck n k) := h.opt fun h => h.modSel.ev.freezeLoops

theorem forcedReturn (h : s0.SameLandings s) : s0.SameLandings (s.forcedReturn n k) := h.opt fun h => h.modSel.departAll

theorem plausResult {pass : Bool} (h : s0.SameLandings s) : s0.SameLandings (s.plausResult n k pass) :=
  (h.setf : s0.SameLandings (s.setb _ _)).optElse fun h => h.ev.logDev

theorem wtrCheck (h : s0.SameLandings s) : s0.SameLandings (s.wtrCheck n k) :=
  h.opt fun h => h.plausResult.modEnt.opt fun h => h.setCstate

theorem entryMove (h : s0.SameLandings s) : s0.SameLandings (s.entryMove n k) :=
  .ite (.ite (h.opt fun h => h.plausResult.opt fun h => h.setCstate) h.setCstate)
    (.ite h.setCstate (.ite h.setCstate (.ite h.setCstate.ev (h.opt fun h => h.wtrCheck))))

theorem entryStep (h : s0.SameLandings s) : s0.SameLandings (s.entryStep n k) := h.forcedCheck.entryMove

theorem selCheck {ms : List EntryMark} {cause : Nat} (h : s0.SameLandings s) : s0.SameLandings (s.selCheck ms cause n) :=
  (h.when fun h => h.enterHoldoff).bind fun h => .ite h.evaluate.selFollow (h.when fun h => h.evaluate)

theorem entriesCheck {ms : List EntryMark} {cause : Nat} (h : s0.SameLandings s) : s0.SameLandings (s.entriesCheck ms cause) :=
  h.forL fun _ _ h => h.selCheck

theorem entryCheck {cause : Nat} (h : s0.SameLandings s) : s0.SameLandings (s.entryCheck n k cause) := h.entryStep.selCheck

theorem faults {es : List (Nat × Nat)} {bit : Nat} {b : Bool} (h : s0.SameLandings s) (hb : bit < 36 := by decide) :
    s0.SameLandings (s.faults es bit b) := (h.forL fun _ _ h => (h.setFault hb).entryStep).entriesCheck

theorem refreshActivity (h : s0.SameLandings s) : s0.SameLandings (s.refreshActivity n) := h.faults

theorem resultStep {tag : Tag} {y yRaw : Int} (h : s0.SameLandings s) : s0.SameLandings (s.resultStep n k tag y yRaw) := by
  have starved : s0.SameLandings (s.resultStep n k .gap y yRaw) := h.modEnt.opt fun h => h.setFault.entryStep
  cases tag with
  | valid =>
    unfold State.resultStep
    extract_lets inside outside s1 s2 s3
    have h2 : s0.SameLandings s2 := h.modEnt.setf
    have h3 : s0.SameLandings s3 := .ite h2.setFault (.ite h2.setFault h2)
    exact h3.setFault.entryStep
  | settle => exact h.modEnt
  | suspect => exact starved
  | gap => exact starved

theorem entryResults {xs : List ((Nat × Nat) × Tag × Int × Int)} (h : s0.SameLandings s) : s0.SameLandings (s.entryResults xs) :=
  (h.forL fun _ _ h => h.resultStep).entriesCheck.forL fun _ _ h => h.forcedReturn

theorem returnCheck {x : Sample} (h : s0.SameLandings s) : s0.SameLandings (s.returnCheck n k x) :=
  h.optElse fun h => .ite h.modSel h.setCstate.modSel.setf.ev.logSwitch.freezeLoops.holdoffEnd.entryCheck

theorem entrySample {tag : Tag} {x : Int × Nat} (h : s0.SameLandings s) : s0.SameLandings (s.entrySample n k tag x) := by
  unfold State.entrySample
  extract_lets e z diff jump s1 s2 s3
  have h1 : s0.SameLandings s1 := h.modEnt
  have h2 : s0.SameLandings s2 := h1.modEnt
  clear_value jump s2
  have h3 : s0.SameLandings s3 := by
    unfold s3
    split
    · exact .ite h1.modEnt.setFault (h2.opt fun h => h.setFault)
    · exact h1
  clear_value s3
  exact .ite h.modEnt h3.entryCheck.returnCheck
end

end State.SameLandings

end Sys2Proof.Machine
end

section
/-! PROOFS. What the operations of a landing leave in its registers and in what it holds: gates, intervals and results. -/

set_option Elab.async false

namespace Sys2Proof.Machine

/-- A field of another register, or one beside the field `x`, which lies in its word. -/
def Fld.Apart (x y : Fld) : Prop := y.key ≠ x.key ∨ x.lo + x.width ≤ 32 ∧ (y.lo + y.width ≤ x.lo ∨ x.lo + x.width ≤ y.lo)

/-- All parts of the state but the time and the landings, which are parts 0 and 22 (`Part.index`). -/
def besideLandings : Nat := 0xFFFBFFFFE

section

variable (s : State)

/-! What an operation beside the landings leaves. -/

theorem State.lndC_congr {t : State} (h : t.lnd = s.lnd) (n : Nat) : t.lndC n = s.lndC n := by
  unfold State.lndC
  rw [h]

theorem State.lndC_setf (x : Fld) (v n : Nat) : (s.setf x v).lndC n = s.lndC n := rfl

/-- An operation that reaches no landing, by the laws of `Moves`, which look for a bound of their parts in the context. -/
theorem State.lnd_beside {s t : State}
    (m : Sub besideLandings besideLandings → Moves besideLandings s s → Moves besideLandings s t) : t.lnd = s.lnd :=
  (m (.refl _) (.refl s)).p22 rfl

/-! Reads beside a write. -/

theorem State.f_ev_apart (x : Fld) {y : Fld} (hx : x.lo < 32) (h : intrKey y.key = false) (apart : x.Apart y) :
    (s.ev x).f y = s.f y := by
  unfold State.ev
  split
  · rfl
  split
  · rename_i k hk
    exact (State.f_of_w _ y (State.w_raise_other _ (stickySource_lt hx hk) h)).trans (s.f_setf_apart x y 1 apart)
  · exact s.f_setf_apart x y 1 apart

theorem State.f_inc (x : Fld) (hx : x.lo + x.width ≤ 32) : (s.inc x).f x = min (s.f x + 1) (2 ^ x.width - 1) :=
  (s.f_setf x _ hx).trans (Nat.mod_eq_of_lt (by have := Nat.two_pow_pos x.width; unfold satBits; omega))

/-! Gates. -/

section

variable (n : Nat)

theorem State.lndC_closeGate (stop : Nat) (long : Bool) : (s.closeGate n stop long).lndC n = { s.lndC n with
    gateOn := false
    closed := (s.lndC n).closed ++ [⟨(s.lndC n).gateStart, stop, long, s.endSums n (s.lndC n).gate, (s.lndC n).y30Sum, (s.lndC n).y30Num,
      (s.lndC n).decim⟩] } := by
  simp only [State.closeGate, State.lndC_setf, State.lndC_modLnd]

theorem State.w_closeGate_other (stop : Nat) (long : Bool) {j : Nat} (h : j ≠ LND.STATUS n) : (s.closeGate n stop long).w j = s.w j :=
  State.w_setf_other _ _ _ h

theorem State.running_closeGate (stop : Nat) (long : Bool) : (s.closeGate n stop long).f (LND.STATUS_RUNNING n) = 0 :=
  State.f_setf _ _ _ (Nat.le_of_ble_eq_true rfl)

theorem State.lndC_openGate (start : Nat) : (s.openGate n start).lndC n = { s.lndC n with
    gateOn := true, gateStart := start, y30Sum := 0, y30Num := 0
    gate := ((s.lndC n).early.filter (fun x => decide (start ≤ x.1))).foldl (fun a x => a.add (s.f (LND.DECIM_DIV n)) x.2.1 x.2.2) {}
    early := [], skip := if (s.lndC n).decim = s.f (LND.DECIM_DIV n) then (s.lndC n).skip else 0
    decim := s.f (LND.DECIM_DIV n), gateMs := s.f (LND.GATE_MS n) } := by
  simp only [State.openGate, State.lndC_setf, State.lndC_modLnd]

theorem State.running_openGate (start : Nat) : (s.openGate n start).f (LND.STATUS_RUNNING n) = 1 :=
  State.f_setf _ _ _ (Nat.le_of_ble_eq_true rfl)

/-! Results. -/

section

variable (tag : Tag) (kind flags : Nat) (ws : List Word)

theorem State.lndC_publish : (s.publish n tag kind flags ws).lndC n = { s.lndC n with
    result := BitVec.ofNat 32 (tag.num * 2 ^ 30 + kind * 2 ^ 28 + flags * 2 ^ 26 + (s.lndC n).seq) :: ws
    seq := ((s.lndC n).seq + 1) % 2 ^ 26 } := by
  unfold State.publish
  exact (State.lndC_congr (s.modLnd n _) (State.lnd_beside fun _ m => m.setf.ev.route) n).trans (s.lndC_modLnd n _)

theorem State.lndC_publish_other {m : Nat} (h : m ≠ n) : (s.publish n tag kind flags ws).lndC m = s.lndC m := by
  unfold State.publish
  exact (State.lndC_congr (s.modLnd n _) (State.lnd_beside fun _ m => m.setf.ev.route) m).trans (s.lndC_modLnd_other n _ h)

/-- A result changes STATUS.RES_TAG and EVENT.RESULT of its landing, and no other field of a landing. -/
theorem State.f_publish_other {y : Fld} (a : 0x100000 ≤ y.key) (b : y.key < 0x300000) (status : (LND.STATUS_RES_TAG n).Apart y)
    (event : (LND.EVENT_RESULT n).Apart y) : (s.publish n tag kind flags ws).f y = s.f y :=
  (((State.SameLandings.refl _).route).f y a b).trans
    ((State.f_ev_apart _ _ (Nat.le_of_ble_eq_true rfl) (intrKey_landing a b) event).trans (State.f_setf_apart _ _ _ _ status))

theorem Tag.num_lt (t : Tag) : t.num < 4 := by cases t <;> decide

variable {n}

theorem State.resTag_publish (hn : n < 32) : (s.publish n tag kind flags ws).f (LND.STATUS_RES_TAG n) = tag.num := by
  have a : 0x100000 ≤ (LND.STATUS_RES_TAG n).key := by dsimp only [LND.STATUS]; omega
  have b : (LND.STATUS_RES_TAG n).key < 0x300000 := by dsimp only [LND.STATUS]; omega
  refine (((State.SameLandings.refl _).route).f _ a b).trans ((State.f_ev_apart _ _ (Nat.le_of_ble_eq_true rfl) (intrKey_landing a b)
    (.inl (by dsimp only [LND.STATUS, LND.EVENT]; omega))).trans ((State.f_setf _ _ _ (Nat.le_of_ble_eq_true rfl)).trans
    (Nat.mod_eq_of_lt tag.num_lt)))

theorem State.result_publish (hn : n < 32) : (s.publish n tag kind flags ws).on (LND.EVENT_RESULT n) = true := by
  have a : 0x100000 ≤ (LND.EVENT_RESULT n).key := by dsimp only [LND.EVENT]; omega
  have b : (LND.EVENT_RESULT n).key < 0x300000 := by dsimp only [LND.EVENT]; omega
  exact (((State.SameLandings.refl _).route).on _ a b).trans (State.on_ev _ _ rfl (Nat.le_of_ble_eq_true rfl) (intrKey_landing a b))

end

/-! Intervals without a value. -/

section

variable (flags : Nat)

/-- The state in which the result of an interval without a value is published. -/
def State.intervalLost : State :=
  ((s.took.modLnd n (fun c => { c with ival := none })).setf (LND.STATUS_LAST_TAG n) 3).setf (LND.STATUS_RUNNING n) 0

theorem State.gapInterval_eq : s.gapInterval n flags = (s.intervalLost n).publish n .gap 2 flags ((s.freeWords 4).1 ++ [0, 0, 0]) := rfl

theorem State.lndC_gapInterval : (s.gapInterval n flags).lndC n = { s.lndC n with
    ival := none
    result := BitVec.ofNat 32 (3 * 2 ^ 30 + 2 * 2 ^ 28 + flags * 2 ^ 26 + (s.lndC n).seq) :: ((s.freeWords 4).1 ++ [0, 0, 0])
    seq := ((s.lndC n).seq + 1) % 2 ^ 26 } := by
  have lost : (s.intervalLost n).lndC n = { s.lndC n with ival := none } := by
    rw [State.intervalLost, State.lndC_setf, State.lndC_setf, State.lndC_modLnd]
    rfl
  rw [State.gapInterval_eq, State.lndC_publish, lost]
  rfl

theorem State.lndC_gapInterval_other {m : Nat} (h : m ≠ n) : (s.gapInterval n flags).lndC m = s.lndC m := by
  rw [State.gapInterval_eq, State.lndC_publish_other _ _ _ _ _ _ h, State.intervalLost, State.lndC_setf, State.lndC_setf,
    State.lndC_modLnd_other _ _ _ h]
  rfl

/-- A lost interval changes LAST_TAG, RES_TAG and RUNNING of STATUS and EVENT.RESULT, and no other field of a landing. -/
theorem State.f_gapInterval_other {y : Fld} (a : 0x100000 ≤ y.key) (b : y.key < 0x300000)
    (status : y.key ≠ LND.STATUS n ∨ 4 ≤ y.lo ∧ y.lo + y.width ≤ 28 ∨ y.lo + y.width ≤ 3) (event : (LND.EVENT_RESULT n).Apart y) :
    (s.gapInterval n flags).f y = s.f y := by
  have tag : (LND.STATUS_RES_TAG n).Apart y := by dsimp only [Fld.Apart, Fld.width] at *; omega
  have last : (LND.STATUS_LAST_TAG n).Apart y := by dsimp only [Fld.Apart, Fld.width] at *; omega
  have run : (LND.STATUS_RUNNING n).Apart y := by dsimp only [Fld.Apart, Fld.width] at *; omega
  rw [State.gapInterval_eq, State.f_publish_other _ _ _ _ _ _ a b tag event]
  exact (State.f_setf_apart _ _ _ _ run).trans (State.f_setf_apart _ _ _ _ last)

variable {n}

theorem State.running_gapInterval (hn : n < 32) : (s.gapInterval n flags).f (LND.STATUS_RUNNING n) = 0 := by
  have a : 0x100000 ≤ (LND.STATUS_RUNNING n).key := by dsimp only [LND.STATUS]; omega
  have b : (LND.STATUS_RUNNING n).key < 0x300000 := by dsimp only [LND.STATUS]; omega
  rw [State.gapInterval_eq, State.f_publish_other _ _ _ _ _ _ a b (.inr ⟨Nat.le_of_ble_eq_true rfl, .inl (Nat.le_of_ble_eq_true rfl)⟩)
    (.inl (by dsimp only [LND.STATUS, LND.EVENT]; omega))]
  exact State.f_setf _ _ _ (Nat.le_of_ble_eq_true rfl)

end

end

end

end Sys2Proof.Machine
end

section
/-! PROOFS. Gates and arming (O36): what the end of a gate and the arming of a landing leave. -/

set_option Elab.async false

namespace Sys2Proof.Machine

theorem exec_gateEnd (n : Fin 32) (s : State) : exec (.gateEnd n) s = execGateEnd n s := rfl
theorem exec_gateLongTimeout (n : Fin 32) (s : State) : exec (.gateLongTimeout n) s = execGateLongTimeout n s := rfl
theorem exec_armTdcTask (n : Fin 32) (s : State) : exec (.armTdcTask n) s = execArmTdcTask n s := rfl
theorem exec_lndArm (p : Port) (n : Fin 32) (s : State) :
    exec (.lndArm p n) s = .next (s.doorbell p (LND.CMD n) false (fun s => s.armTdc n)) := rfl

section

variable (s : State)

/-- The next gate begins at the end of the one before it, and takes the decimation and the length then written. -/
theorem State.lndC_nextGate (n stop : Nat) : ((s.closeGate n stop false).openGate n stop).lndC n =
    { ((s.closeGate n stop false).openGate n stop).lndC n with
      gateOn := true, gateStart := stop
      closed := (s.lndC n).closed ++ [⟨(s.lndC n).gateStart, stop, false, s.endSums n (s.lndC n).gate, (s.lndC n).y30Sum,
        (s.lndC n).y30Num, (s.lndC n).decim⟩]
      decim := s.f (LND.DECIM_DIV n), gateMs := s.f (LND.GATE_MS n) } := by
  have decim : (s.closeGate n stop false).f (LND.DECIM_DIV n) = s.f (LND.DECIM_DIV n) :=
    State.f_of_w _ _ (s.w_closeGate_other n stop false (by dsimp only [LND.DECIM, LND.STATUS]; omega))
  have gate : (s.closeGate n stop false).f (LND.GATE_MS n) = s.f (LND.GATE_MS n) :=
    State.f_of_w _ _ (s.w_closeGate_other n stop false (by dsimp only [LND.GATE, LND.STATUS]; omega))
  rw [State.lndC_openGate, State.lndC_closeGate, decim, gate]

/-- A gate in progress ends where the landing is armed anew. -/
def State.gateEnded (n : Nat) : State := if (s.lndC n).gateOn then s.closeGate n s.now false else s

/-- An interval in progress is missed where the landing is armed anew. -/
def State.intervalMissed (n : Nat) : State :=
  if (s.lndC n).ival.isSome then ((s.inc (LND.ERRCNT2_GATE_MISS n)).ev (LND.EVENT_GATE_MISS n)).gapInterval n 0 else s

theorem State.gateEnded_keeps (n : Nat) : (s.gateEnded n).now = s.now ∧ (s.gateEnded n).tasks = s.tasks := by
  unfold State.gateEnded
  split
  · exact ⟨rfl, rfl⟩
  · exact ⟨rfl, rfl⟩

/-- Arming a landing that waits for its task: a gate starts in stamp mode, and in interval mode the next edge will start an interval. -/
theorem State.armTdc_eq {n : Nat} (landed : s.landed = true) (built : s.lndBuilt n = true) (bound : s.gateBound n = true)
    (enabled : s.on (LND.CTRL_ENABLE n) = true) :
    s.armTdc n = if s.stampMode n then (s.gateEnded n).openGate n (s.gateEnded n).now
      else (s.intervalMissed n).modLnd n (fun c => { c with armed := true }) := by
  have heard : ¬(!s.landed ∨ !s.lndBuilt n ∨ !s.gateBound n ∨ !s.on (LND.CTRL_ENABLE n)) := by
    rw [landed, built, bound, enabled]
    decide
  exact if_neg heard

theorem State.armTdc_arms {n : Nat} (landed : s.landed = true) (built : s.lndBuilt n = true) (bound : s.gateBound n = true)
    (enabled : s.on (LND.CTRL_ENABLE n) = true) :
    (if s.stampMode n then ((s.armTdc n).lndC n).gateOn = true ∧ ((s.armTdc n).lndC n).gateStart = s.now
      else ((s.armTdc n).lndC n).armed = true) ∧
    ((s.lndC n).ival = none → (s.armTdc n).tasks = s.tasks) := by
  obtain ⟨now, tasks⟩ := s.gateEnded_keeps n
  rw [s.armTdc_eq landed built bound enabled]
  cases s.stampMode n with
  | true =>
    rw [if_pos rfl, if_pos rfl, State.lndC_openGate]
    exact ⟨⟨rfl, now⟩, fun _ => tasks⟩
  | false =>
    rw [if_neg Bool.false_ne_true, if_neg Bool.false_ne_true, State.lndC_modLnd]
    refine ⟨rfl, fun none => ?_⟩
    rw [State.tasks_modLnd, State.intervalMissed, none]
    rfl

theorem State.lndBuilt_status (p : Port) (c : Code) (n : Nat) : (s.status p c).lndBuilt n = s.lndBuilt n := by
  cases p
  · rfl
  · rfl

/-- The block of a landing's command register. -/
theorem block_landing (n : Nat) : LND.CMD n / 0x10000 = 0x10 + n := by
  dsimp only [LND.CMD]
  omega

/-- A command that a landing takes finds it landed and built. -/
theorem State.landing_of_takes {p : Port} {n : Fin 32} {pilot : Bool} (h : s.takes p (LND.CMD n) pilot) :
    s.landed = true ∧ s.lndBuilt n = true := by
  obtain ⟨-, check⟩ := h
  rw [block_landing] at check
  have lndBuilt : s.built (0x10 + n) = s.lndBuilt n := by
    unfold State.built
    rw [if_neg (by omega), if_pos (by omega), Nat.add_sub_cancel_left]
  unfold State.cmdCheck at check
  rw [lndBuilt] at check
  have late : decide (0x10 + n.val ≥ 0x0A) = true := decide_eq_true (by omega)
  cases landed : s.landed with
  | false => simp [landed, late] at check
  | true =>
    cases built : s.lndBuilt n with
    | true => exact ⟨rfl, rfl⟩
    | false =>
      have store : (0x10 + n.val == 4 || 0x10 + n.val == 7 || 0x10 + n.val == 8) = false := by
        simp only [Bool.or_eq_false_iff, beq_eq_false_iff_ne]
        omega
      simp [landed, built, store] at check

end

/-- Settles O36: a gate that ends is closed with what it holds, and the next one opens with what is written then; arming opens a gate or arms
an interval. -/
theorem gatesAndArming : Obligations.GatesAndArming := by
  unfold Obligations.GatesAndArming
  refine ⟨fun n s landed on free due => ?_, fun n s landed on bound due => ?_, fun n r rs s pending landed built bound enabled => ?_,
    fun p n s takes bound enabled => ?_⟩
  · refine ⟨_, (exec_gateEnd n s).trans (if_pos ⟨landed, on, by rw [free]; rfl, due⟩), ?_⟩
    have running := (s.closeGate n ((s.lndC n).gateStart + (s.lndC n).gateMs * 2000000) false).running_openGate n
      ((s.lndC n).gateStart + (s.lndC n).gateMs * 2000000)
    rw [State.lndC_nextGate]
    exact ⟨rfl, rfl, rfl, rfl, rfl, running⟩
  · refine ⟨_, (exec_gateLongTimeout n s).trans (if_pos ⟨landed, on, bound, due⟩), ?_⟩
    rw [State.running_closeGate, State.lndC_closeGate]
    exact ⟨rfl, rfl, rfl⟩
  · have run : s.takeRun (taskKey (0x10 + n) 0) = some (r, s.modTasks (taskKey (0x10 + n) 0) (fun _ => rs)) := by
      unfold State.takeRun
      rw [pending]
    refine ⟨(s.modTasks (taskKey (0x10 + n) 0) (fun _ => rs)).armTdc n, ?_, ?_⟩
    · rw [exec_armTdcTask, execArmTdcTask, run]
    · obtain ⟨arms, rest⟩ := State.armTdc_arms (s.modTasks (taskKey (0x10 + n) 0) (fun _ => rs)) (n := n) landed built bound enabled
      refine ⟨arms, fun none => ?_⟩
      unfold State.tasksC
      rw [rest none]
      exact s.tasksC_modTasks _ _
  · obtain ⟨landed, built⟩ := s.landing_of_takes takes
    refine ⟨_, (exec_lndArm p n s).trans (congrArg _ (s.doorbell_ok _ takes.1 takes.2)), ?_⟩
    have on : ∀ x, (s.status p .ok).on x = s.on x := fun x => s.on_of_f x (s.f_congr (s.regs_status p .ok) x)
    have landed' : (s.status p .ok).landed = true := by rwa [State.landed, State.f_congr s (s.regs_status p .ok)]
    have built' : (s.status p .ok).lndBuilt n = true := by rwa [State.lndBuilt_status]
    have arms := ((s.status p .ok).armTdc_arms landed' built' ((on _).trans bound) ((on _).trans enabled)).1
    have mode : (s.status p .ok).stampMode n = s.stampMode n := on _
    rwa [mode, State.now_status] at arms

end Sys2Proof.Machine
end

section
/-! PROOFS. Results of a landing (O37): what an interval or a regression that ends leaves, and what the fetches place. -/

set_option Elab.async false

namespace Sys2Proof.Machine

theorem exec_intervalOverflow (n : Fin 32) (s : State) : exec (.intervalOverflow n) s = execIntervalOverflow n s := rfl
theorem exec_intervalDone (n : Fin 32) (s : State) : exec (.intervalDone n) s = execIntervalDone n s := rfl
theorem exec_regressionDone (n : Fin 32) (s : State) : exec (.regressionDone n) s = execRegressionDone n s := rfl
theorem exec_fetchResult (p : Port) (n : Fin 32) (s : State) :
    exec (.fetchResult p n) s = .next (s.doorbell p (LND.CMD n) false (fun s => s.fetchResult p n)) := rfl
theorem exec_fetchCal (p : Port) (n : Fin 32) (s : State) :
    exec (.fetchCal p n) s = .next (s.doorbell p (LND.CMD n) false (fun s => s.fetchCal p n)) := rfl

section

variable (s : State)

theorem State.f_refreshSettling_other (n : Nat) {y : Fld} (h : (LND.STATUS_SETTLING n).Apart y) :
    (s.refreshSettling n).f y = s.f y := State.f_setf_apart _ _ _ _ h

theorem State.lndC_refreshSettling (n m : Nat) : (s.refreshSettling n).lndC m = s.lndC m := rfl

/-! Intervals. -/

section

variable {n : Nat}

/-- An interval that overflows is counted, and ends as one without a value. -/
theorem State.intervalOverflow_ends (hn : n < 32) (t : State)
    (ht : t = ((s.inc (LND.ERRCNT2_OVF n)).ev (LND.EVENT_OVF n)).gapInterval n 2) :
    (t.lndC n).ival = none ∧ t.f (LND.STATUS_RES_TAG n) = 3 ∧ t.f (LND.STATUS_RUNNING n) = 0 ∧ t.on (LND.EVENT_OVF n) = true ∧
      t.on (LND.EVENT_RESULT n) = true ∧ t.f (LND.ERRCNT2_OVF n) = min (s.f (LND.ERRCNT2_OVF n) + 1) (2 ^ (LND.ERRCNT2_OVF n).width - 1) := by
  subst ht
  have ovf : 0x100000 ≤ (LND.EVENT_OVF n).key ∧ (LND.EVENT_OVF n).key < 0x300000 := by dsimp only [LND.EVENT]; omega
  have cnt : 0x100000 ≤ (LND.ERRCNT2_OVF n).key ∧ (LND.ERRCNT2_OVF n).key < 0x300000 := by dsimp only [LND.ERRCNT2]; omega
  refine ⟨by rw [State.lndC_gapInterval], ?_, State.running_gapInterval _ _ hn, ?_, ?_, ?_⟩
  · rw [State.gapInterval_eq]
    exact State.resTag_publish _ _ _ _ _ hn
  · rw [State.on_of_f _ _ (State.f_gapInterval_other _ _ _ ovf.1 ovf.2 (.inl (by dsimp only [LND.EVENT, LND.STATUS]; omega))
      (.inr ⟨Nat.le_of_ble_eq_true rfl, .inl (Nat.le_of_ble_eq_true rfl)⟩))]
    exact State.on_ev _ _ rfl (Nat.le_of_ble_eq_true rfl) (intrKey_landing ovf.1 ovf.2)
  · rw [State.gapInterval_eq]
    exact State.result_publish _ _ _ _ _ hn
  · rw [State.f_gapInterval_other _ _ _ cnt.1 cnt.2 (.inl (by dsimp only [LND.ERRCNT2, LND.STATUS]; omega))
      (.inl (by dsimp only [LND.ERRCNT2, LND.EVENT]; omega)),
      State.f_ev_other _ _ _ (Nat.le_of_ble_eq_true rfl) (intrKey_landing cnt.1 cnt.2) (by dsimp only [LND.ERRCNT2, LND.EVENT]; omega)]
    exact s.f_inc _ (Nat.le_of_ble_eq_true rfl)

/-- The settling count of a landing leaves its results. -/
theorem State.refreshSettling_keeps :
    (s.refreshSettling n).lndC n = s.lndC n ∧ (s.refreshSettling n).on (LND.EVENT_RESULT n) = s.on (LND.EVENT_RESULT n) ∧
      (s.refreshSettling n).f (LND.STATUS_RES_TAG n) = s.f (LND.STATUS_RES_TAG n) :=
  ⟨s.lndC_refreshSettling n n,
    State.on_of_f _ _ (s.f_refreshSettling_other n (.inl (by dsimp only [LND.EVENT, LND.STATUS]; omega))),
    s.f_refreshSettling_other n (.inr ⟨Nat.le_of_ble_eq_true rfl, .inr (Nat.le_of_ble_eq_true rfl)⟩)⟩

/-- A result is published, and the tag and the settling count of the landing follow. -/
theorem State.published_shows (hn : n < 32) (tag : Tag) (kind flags : Nat) (ws : List Word) (t : State)
    (ht : t = ((s.publish n tag kind flags ws).setf (LND.STATUS_LAST_TAG n) tag.num).refreshSettling n) :
    t.lndC n = (s.publish n tag kind flags ws).lndC n ∧ t.on (LND.EVENT_RESULT n) = true ∧ t.f (LND.STATUS_RES_TAG n) = tag.num := by
  obtain ⟨core, event, status⟩ := ((s.publish n tag kind flags ws).setf (LND.STATUS_LAST_TAG n) tag.num).refreshSettling_keeps (n := n)
  rw [ht, core, event, status, State.lndC_setf,
    State.f_setf_bits _ _ _ _ (Nat.le_of_ble_eq_true rfl) (.inl (Nat.le_of_ble_eq_true rfl)),
    State.on_of_f _ _ (State.f_setf_key _ _ _ _ (by dsimp only [LND.EVENT, LND.STATUS]; omega))]
  exact ⟨rfl, s.result_publish _ _ _ _ hn, s.resTag_publish _ _ _ _ hn⟩

/-! Regressions. -/

/-- A result that reaches the selectors stays in its landing as it was published. -/
theorem State.deliverResult_keeps (tag : Tag) (y yRaw : Int) :
    s.SameLandings (s.deliverResult n tag y yRaw) ∧ (s.deliverResult n tag y yRaw).lndC n = s.lndC n :=
  ⟨(State.SameLandings.refl s).opt fun h => h.entryResults, s.lndC_congr (State.lnd_beside fun _ m => m.deliverResult) n⟩

/-- What every result of a closed gate leaves, where `k` is the number of VALID stamps. -/
def State.RegressionShown (t : State) (n k : Nat) (tag : Tag) : Prop :=
  (t.lndC n).closed = (s.lndC n).closed ∧ t.on (LND.EVENT_RESULT n) = true ∧ (t.lndC n).seq = ((s.lndC n).seq + 1) % 2 ^ 26 ∧
    (t.lndC n).result.getD 1 0 = BitVec.ofNat 32 k ∧ t.f (LND.STATUS_RES_TAG n) = tag.num

/-- A result that is published, where its words begin with the number of VALID stamps. -/
theorem State.RegressionShown.of_publish {s u : State} {k kind flags : Nat} {tag : Tag} {ws : List Word} (hn : n < 32)
    (closed : (u.lndC n).closed = (s.lndC n).closed) (seq : (u.lndC n).seq = (s.lndC n).seq) :
    s.RegressionShown (u.publish n tag kind flags (BitVec.ofNat 32 k :: ws)) n k tag := by
  unfold State.RegressionShown
  rw [State.lndC_publish]
  exact ⟨closed, u.result_publish _ _ _ _ hn, by rw [seq], rfl, u.resTag_publish _ _ _ _ hn⟩

theorem State.RegressionShown.deliverResult {s u : State} {k : Nat} {tag : Tag} {y yRaw : Int} (hn : n < 32)
    (h : s.RegressionShown u n k tag) : s.RegressionShown (u.deliverResult n tag y yRaw) n k tag := by
  obtain ⟨same, core⟩ := u.deliverResult_keeps (n := n) tag y yRaw
  unfold State.RegressionShown at *
  rwa [core, same.on _ (by dsimp only [LND.EVENT]; omega) (by dsimp only [LND.EVENT]; omega),
    same.f _ (by dsimp only [LND.STATUS]; omega) (by dsimp only [LND.STATUS]; omega)]

theorem State.RegressionShown.refreshSettling {s u : State} {k : Nat} {tag : Tag} (h : s.RegressionShown u n k tag) :
    s.RegressionShown (u.refreshSettling n) n k tag := by
  obtain ⟨core, event, status⟩ := u.refreshSettling_keeps (n := n)
  unfold State.RegressionShown at *
  rwa [core, event, status]

/-- The result of a closed gate; with fewer than four VALID stamps there is no regression. -/
theorem State.regressionResult_shows (hn : n < 32) (g : ClosedGate) :
    ∃ tag, s.RegressionShown (s.regressionResult n g) n g.sums.n tag ∧ (g.sums.n < 4 → tag = .gap) := by
  unfold State.regressionResult
  extract_lets long y30 c s1
  split
  · exact ⟨.gap, .deliverResult hn (.of_publish (u := s.took) hn rfl rfl), fun _ => rfl⟩
  · rename_i ym fit
    have enough : ¬g.sums.n < 4 := fun few => by rw [if_pos few] at fit; cases fit
    have core := s.lndC_modLnd n (fun c => { c with selResults := c.selResults - 1, filtResults := c.filtResults - 1 })
    have closed : (s1.lndC n).closed = (s.lndC n).closed := (congrArg LndCore.closed core).trans rfl
    have seq : (s1.lndC n).seq = (s.lndC n).seq := (congrArg LndCore.seq core).trans rfl
    clear_value s1
    exact ⟨_, .deliverResult hn (.refreshSettling (.of_publish hn closed seq)), fun few => absurd few enough⟩

end

/-! Fetches. -/

theorem State.fetchResult_places (p : Port) (n : Nat) (short : (s.lndC n).result.length ≤ 64) :
    (s.fetchResult p n).lnd = s.lnd ∧ (s.fetchResult p n).mboxHolds p
      (if (s.lndC n).result = [] then 0xC0000000 :: List.replicate 7 0 else (s.lndC n).result) := by
  unfold State.fetchResult
  extract_lets r
  refine ⟨State.lnd_beside fun _ m => m.mboxOut, ?_⟩
  by_cases empty : r = []
  · rw [if_pos empty, if_pos (List.isEmpty_iff.2 empty)]
    exact s.mboxHolds_mboxOut p _ (by decide)
  · rw [if_neg empty, if_neg (mt List.isEmpty_iff.1 empty)]
    exact s.mboxHolds_mboxOut p _ short

/-- The gain of a calibration record, in 2⁻²⁴ ps (rounding open, log entry 4). -/
def LndCore.gain (c : LndCore) : Word := BitVec.ofNat 32 (roundOpen 33 (500 * 2 ^ 24 : Int) (c.c2 - c.c1)).toNat

theorem State.calRecord_valid (n : Nat) (valid : (s.lndC n).calTag = .valid) (paired : (s.lndC n).paired = true) :
    s.calRecord n = ([BitVec.ofNat 32 (3 * 2 ^ 28 + (s.lndC n).calSeq), BitVec.ofNat 32 ((s.lndC n).c2 * 2 ^ 16 + (s.lndC n).c1),
      (s.lndC n).gain, 0, 0, 0, 0, 0], s) := by
  unfold State.calRecord
  simp [valid, paired, Tag.num, LndCore.gain]

theorem State.fetchCal_places (p : Port) (n : Nat) (valid : (s.lndC n).calTag = .valid) (paired : (s.lndC n).paired = true) :
    (s.fetchCal p n).lnd = s.lnd ∧ (s.fetchCal p n).mboxHolds p
      [BitVec.ofNat 32 (3 * 2 ^ 28 + (s.lndC n).calSeq), BitVec.ofNat 32 ((s.lndC n).c2 * 2 ^ 16 + (s.lndC n).c1), (s.lndC n).gain,
        0, 0, 0, 0, 0] := by
  unfold State.fetchCal
  rw [s.calRecord_valid n valid paired]
  exact ⟨State.lnd_beside fun _ m => m.mboxOut, s.mboxHolds_mboxOut p _ (Nat.le_of_ble_eq_true rfl)⟩

end

/-- Settles O37: every result of a landing is published with its tag and words, whatever the selectors then make of it; the fetches place
the latest records. -/
theorem landingResults : Obligations.LandingResults := by
  unfold Obligations.LandingResults
  refine ⟨fun n x s landed running late free => ?_, fun n a b settle rest s done => ?_, fun n g rest s closed => ?_,
    fun p n s takes short => ?_, fun p n s takes valid paired => ?_⟩
  · refine ⟨_, (exec_intervalOverflow n s).trans (if_pos ⟨landed, ?_, by rw [free]; rfl⟩), s.intervalOverflow_ends n.isLt _ rfl⟩
    rw [running]
    exact decide_eq_true late
  · have core : ((s.modLnd n (fun c => { c with ivalDone := rest, selResults := c.selResults - 1 })).lndC n).ivalDone = rest :=
      congrArg LndCore.ivalDone (s.lndC_modLnd n _)
    obtain ⟨result, event, tag⟩ := (s.modLnd n (fun c => { c with ivalDone := rest, selResults := c.selResults - 1 })).published_shows
      n.isLt (s.measureTag n ((s.lndC n).selResults != 0 || settle)) 2 0
      (intWords 2 (roundNear ((b - a) * 125) 1024) ++ toWords 2 (stampField a) ++ [0, 0, 0]) _ rfl
    rw [State.lndC_publish] at result
    refine ⟨_, ?_, (congrArg LndCore.ivalDone result).trans core, event, tag, congrArg (fun c => c.result.drop 1) result⟩
    rw [exec_intervalDone, execIntervalDone, done]
  · obtain ⟨tag, ⟨rest', event, seq, word, shown⟩, few⟩ :=
      (s.modLnd n (fun c => { c with closed := rest })).regressionResult_shows n.isLt g
    rw [State.lndC_modLnd] at rest' seq
    refine ⟨_, ?_, rest', event, seq, word, fun h => ?_⟩
    · rw [exec_regressionDone, execRegressionDone, closed]
    · rw [shown, few h]
      rfl
  · have core : (s.status p .ok).lndC n = s.lndC n := s.lndC_congr (s.lnd_status p .ok) n
    obtain ⟨lnd, holds⟩ := (s.status p .ok).fetchResult_places p n (by rwa [core])
    rw [core] at holds
    exact ⟨_, (exec_fetchResult p n s).trans (congrArg _ (s.doorbell_ok _ takes.1 takes.2)), lnd.trans (s.lnd_status p .ok), holds⟩
  · have core : (s.status p .ok).lndC n = s.lndC n := s.lndC_congr (s.lnd_status p .ok) n
    obtain ⟨lnd, holds⟩ := (s.status p .ok).fetchCal_places p n (by rwa [core]) (by rwa [core])
    rw [core] at holds
    exact ⟨_, _, (exec_fetchCal p n s).trans (congrArg _ (s.doorbell_ok _ takes.1 takes.2)), lnd.trans (s.lnd_status p .ok), holds⟩

end Sys2Proof.Machine
end

section
/-! PROOFS. The slicer and the slices of LND[30] (O35): the steps of a threshold, the sums of a slice that ends, and what the gates and the
loops learn of it. -/

set_option Elab.async false

namespace Sys2Proof.Machine

theorem exec_slicerUpdate (n : Fin 32) (mid : Int) (amp : Nat) (s : State) :
    exec (.slicerUpdate n mid amp) s = execSlicerUpdate n mid amp s := rfl
theorem exec_lnd30SliceEnd (s : State) : exec .lnd30SliceEnd s = execLnd30SliceEnd s := rfl

/-- A number of 10 bits, two's complement, reads as it was written. -/
theorem toSigned_ofSigned {v : Int} (lo : -512 ≤ v) (hi : v < 512) : toSigned 10 (ofSigned 10 v % 2 ^ 10) = v := by
  unfold toSigned ofSigned
  dsimp only
  split
  · omega
  · omega

section

variable (s : State)

/-! The threshold. -/

section

variable {n : Nat}

theorem State.fi_of_f {t : State} (x : Fld) (h : t.f x = s.f x) : t.fi x = s.fi x := by
  unfold State.fi
  rw [h]

/-- A step of the threshold changes THRESH, the sticky bit and SETTLING. -/
theorem State.f_threshStep_other (v : Int) {y : Fld} (a : 0x100000 ≤ y.key) (b : y.key < 0x300000)
    (thresh : (LND.SLICE_STAT_THRESH n).Apart y) (event : y.key ≠ LND.EVENT n) (settling : (LND.STATUS_SETTLING n).Apart y) :
    (s.threshStep n v).f y = s.f y :=
  (State.f_refreshSettling_other _ n settling).trans
    ((State.f_ev_other _ _ _ (Nat.le_of_ble_eq_true rfl) (intrKey_landing a b) event).trans (s.f_setf_apart _ _ _ thresh))

theorem State.thresh_threshStep (hn : n < 32) {v : Int} (lo : -512 ≤ v) (hi : v < 512) :
    (s.threshStep n v).fi (LND.SLICE_STAT_THRESH n) = v := by
  have a : 0x100000 ≤ (LND.SLICE_STAT_THRESH n).key := by dsimp only [LND.SLICE_STAT]; omega
  have b : (LND.SLICE_STAT_THRESH n).key < 0x300000 := by dsimp only [LND.SLICE_STAT]; omega
  have held : (s.threshStep n v).f (LND.SLICE_STAT_THRESH n) = ofSigned 10 v % 2 ^ 10 :=
    (State.f_refreshSettling_other _ n (.inl (by dsimp only [LND.SLICE_STAT, LND.STATUS]; omega))).trans
      ((State.f_ev_other _ _ _ (Nat.le_of_ble_eq_true rfl) (intrKey_landing a b) (by dsimp only [LND.SLICE_STAT, LND.EVENT]; omega)).trans
        (s.f_setf _ _ (Nat.le_of_ble_eq_true rfl)))
  unfold State.fi
  rw [held]
  exact toSigned_ofSigned lo hi

/-- The threshold is held within its range; the amplitude and LOW_SWING stay. -/
theorem State.sliceStep_shows (hn : n < 32) (v : Int) :
    (s.sliceStep n v).fi (LND.SLICE_STAT_THRESH n) = max (-511) (min v 511) ∧
      (s.sliceStep n v).f (LND.SLICE_STAT_AMP n) = s.f (LND.SLICE_STAT_AMP n) ∧
      (s.sliceStep n v).f (LND.STATUS_LOW_SWING n) = s.f (LND.STATUS_LOW_SWING n) := by
  unfold State.sliceStep
  extract_lets w
  split
  · rename_i same
    exact ⟨same.symm, rfl, rfl⟩
  · refine ⟨s.thresh_threshStep hn (by omega) (by omega), s.f_threshStep_other w ?_ ?_ ?_ ?_ ?_, s.f_threshStep_other w ?_ ?_ ?_ ?_ ?_⟩
    all_goals dsimp only [Fld.Apart, Fld.width, LND.SLICE_STAT, LND.STATUS, LND.EVENT]; omega

/-- The state in which an update of the slicer looks at the threshold. -/
def State.swingShown (n amp : Nat) : State :=
  let low := decide (amp < 64)
  let was := s.on (LND.STATUS_LOW_SWING n)
  let t := (s.setf (LND.SLICE_STAT_AMP n) (min amp 1023)).setb (LND.STATUS_LOW_SWING n) low
  t.modLnd n (fun c =>
    let c := { c with sliceRun := some (0, t.now) }
    if low ∨ (was ∧ c.gateStart < t.now) then c.mark t.now false true else c)

theorem State.f_swingShown (n amp : Nat) (y : Fld) : (s.swingShown n amp).f y =
    ((s.setf (LND.SLICE_STAT_AMP n) (min amp 1023)).setb (LND.STATUS_LOW_SWING n) (decide (amp < 64))).f y :=
  State.f_congr _ (State.regs_modLnd _ _ _) y

theorem State.f_swingShown_other (n amp : Nat) {y : Fld} (ampl : (LND.SLICE_STAT_AMP n).Apart y) (low : y.key ≠ LND.STATUS n) :
    (s.swingShown n amp).f y = s.f y := by
  rw [State.f_swingShown, State.setb, State.f_setf_key _ _ _ _ low]
  exact s.f_setf_apart _ _ _ ampl

theorem State.amp_swingShown (n amp : Nat) : (s.swingShown n amp).f (LND.SLICE_STAT_AMP n) = min amp 1023 := by
  rw [State.f_swingShown, State.setb, State.f_setf_key _ _ _ _ (by dsimp only [LND.SLICE_STAT, LND.STATUS]; omega),
    State.f_setf _ _ _ (Nat.le_of_ble_eq_true rfl)]
  exact Nat.mod_eq_of_lt (by dsimp only [Fld.width]; omega)

theorem State.low_swingShown (n amp : Nat) : (s.swingShown n amp).f (LND.STATUS_LOW_SWING n) = if amp < 64 then 1 else 0 := by
  rw [State.f_swingShown, State.f_setb _ _ _ (Nat.le_of_ble_eq_true rfl) (Nat.le_of_ble_eq_true rfl)]
  by_cases low : amp < 64
  · rw [decide_eq_true low, if_pos low]; rfl
  · rw [decide_eq_false low, if_neg low]; rfl

/-- A slicer that tracks moves its threshold one step towards a midpoint more than two steps away. -/
theorem State.slicerUpdate_eq (mid : Int) (amp : Nat) (tracks : s.f (LND.CFG_SLICER n) ≠ 0) (auto : s.on (LND.SLICE_MANUAL n) = false) :
    s.slicerUpdate n mid amp =
      if mid - s.fi (LND.SLICE_STAT_THRESH n) > 2 then (s.swingShown n amp).sliceStep n (s.fi (LND.SLICE_STAT_THRESH n) + 1)
      else if s.fi (LND.SLICE_STAT_THRESH n) - mid > 2 then (s.swingShown n amp).sliceStep n (s.fi (LND.SLICE_STAT_THRESH n) - 1)
      else s.swingShown n amp := by
  have cfg : (s.swingShown n amp).f (LND.CFG_SLICER n) = s.f (LND.CFG_SLICER n) := by
    refine s.f_swingShown_other n amp ?_ ?_
    all_goals dsimp only [Fld.Apart, Fld.width, LND.CFG, LND.SLICE_STAT, LND.STATUS]; omega
  have manual : (s.swingShown n amp).on (LND.SLICE_MANUAL n) = s.on (LND.SLICE_MANUAL n) := by
    refine State.on_of_f _ _ (s.f_swingShown_other n amp ?_ ?_)
    all_goals dsimp only [Fld.Apart, Fld.width, LND.SLICE, LND.SLICE_STAT, LND.STATUS]; omega
  have thresh : (s.swingShown n amp).fi (LND.SLICE_STAT_THRESH n) = s.fi (LND.SLICE_STAT_THRESH n) := by
    refine State.fi_of_f _ _ (s.f_swingShown_other n amp ?_ ?_)
    all_goals dsimp only [Fld.Apart, Fld.width, LND.SLICE_STAT, LND.STATUS]; omega
  have moves : ¬((s.swingShown n amp).f (LND.CFG_SLICER n) = 0 ∨ (s.swingShown n amp).on (LND.SLICE_MANUAL n)) := by
    rw [cfg, manual, auto]
    exact fun h => h.elim tracks Bool.false_ne_true
  rw [← thresh]
  exact if_neg moves

end

/-! The slices. -/

/-- What a landing holds of its slices. -/
def LndCore.slicing (c : LndCore) : List (Nat × Option Int) × Nat × List (Int × Nat) × Sums := (c.recent, c.slcEnd, c.slcEarly, c.slc)

theorem LndCore.slicing_takeSlice (c : LndCore) (bound : Bool) (a b : Nat) (v : Int) : (c.takeSlice bound a b v).slicing = c.slicing := by
  unfold LndCore.takeSlice
  split
  · rfl
  · rfl

/-- A slice enters gates; what a landing holds of its slices stays. -/
theorem State.slicing_forL_takeSlice (l : List Nat) (a b : Nat) (v : Int) (m : Nat) :
    ((s.forL l (fun s n => s.modLnd n (fun c => c.takeSlice (s.gateBound n) a b v))).lndC m).slicing = (s.lndC m).slicing := by
  unfold State.forL
  induction l generalizing s with
  | nil => rfl
  | cons n l ih =>
    refine (ih _).trans ?_
    by_cases h : m = n
    · subst h
      rw [State.lndC_modLnd]
      exact LndCore.slicing_takeSlice _ _ _ _ _
    · rw [State.lndC_modLnd_other _ _ _ h]

/-- What a loop learns of a slice. -/
def State.sliceToLoop (ok : Bool) (l : Nat) : State :=
  if ok then s.setf (LOOP.HO_STAT_ON_XO l) 0
  else
    let s := s.evIf (!s.on (LOOP.HO_STAT_ON_XO l)) (LOOP.HO_EVENT_OSC_LOST l)
    (s.setf (LOOP.HO_STAT_ON_XO l) 1).modHo l (fun h => { h with sliceBad := true })

theorem State.f_sliceToLoop_other (ok : Bool) {k l : Nat} (hk : k < 32) (h : k ≠ l) :
    (s.sliceToLoop ok l).f (LOOP.HO_STAT_ON_XO k) = s.f (LOOP.HO_STAT_ON_XO k) := by
  have stat : (LOOP.HO_STAT_ON_XO k).key ≠ (LOOP.HO_STAT_ON_XO l).key := by dsimp only [LOOP.HO_STAT]; omega
  have event : (LOOP.HO_STAT_ON_XO k).key ≠ (LOOP.HO_EVENT_OSC_LOST l).key := by dsimp only [LOOP.HO_STAT, LOOP.HO_EVENT]; omega
  have intr : intrKey (LOOP.HO_STAT_ON_XO k).key = false := intrKey_false (by dsimp only [LOOP.HO_STAT]; omega) (by dsimp only [LOOP.HO_STAT]; omega)
  unfold State.sliceToLoop
  split
  · exact s.f_setf_key _ _ _ stat
  · dsimp only
    rw [State.f_congr _ (State.regs_modHo _ _ _), State.f_setf_key _ _ _ _ stat, State.evIf]
    split
    · exact s.f_ev_other _ _ (Nat.le_of_ble_eq_true rfl) intr event
    · rfl

theorem State.f_sliceToLoop (ok : Bool) (l : Nat) : (s.sliceToLoop ok l).f (LOOP.HO_STAT_ON_XO l) = b2n (!ok) := by
  cases ok with
  | true => exact s.f_setf _ _ (Nat.le_of_ble_eq_true rfl)
  | false =>
    rw [State.sliceToLoop, if_neg Bool.false_ne_true]
    dsimp only
    rw [State.f_congr _ (State.regs_modHo _ _ _)]
    exact State.f_setf _ _ _ (Nat.le_of_ble_eq_true rfl)

/-- Every loop of a list shows whether the slice was VALID, and one that showed it before goes on to. -/
theorem State.f_sliceToLoops (ok : Bool) (ls : List Nat) {k : Nat} (hk : k < 32)
    (h : k ∈ ls ∨ s.f (LOOP.HO_STAT_ON_XO k) = b2n (!ok)) :
    (s.forL ls (fun s l => s.sliceToLoop ok l)).f (LOOP.HO_STAT_ON_XO k) = b2n (!ok) := by
  unfold State.forL
  induction ls generalizing s with
  | nil => exact h.resolve_left List.not_mem_nil
  | cons l ls ih =>
    refine ih _ ?_
    by_cases same : k = l
    · subst same
      exact .inr (s.f_sliceToLoop ok k)
    · rw [s.f_sliceToLoop_other ok hk same]
      exact h.imp_left fun mem => (List.mem_cons.1 mem).resolve_left same

/-- The sums of the slice that ends make room for those of the next; `stop` is its end, and `y` its result. -/
def LndCore.nextSlice (c : LndCore) (stop : Nat) (y : Option Int) : LndCore :=
  { c with
    recent := ((stop - 2000000, y) :: c.recent).take 4, slcEnd := stop + 2000000, slcEarly := []
    slc := c.slcEarly.foldl (fun a x => a.add c.decim x.1 x.2) {} }

/-- The result of the slice that ends at `stop` enters the gates that hold it. -/
def State.sliceGated (stop : Nat) (v : Int) : State :=
  s.forN 32 (fun s n => s.modLnd n (fun c => c.takeSlice (s.gateBound n) (stop - 2000000) stop v))

/-- The state after the result of the slice that ends at `stop` has reached the landings. -/
def State.sliceTaken (stop : Nat) (y : Option Int) : State :=
  let s := s.modLnd 30 (fun c => c.nextSlice stop y)
  match y with
  | some v => { s.sliceGated stop v with slices := (some v :: s.slices).take 1000 }
  | none => s

theorem State.sliceTaken_some (stop : Nat) (v : Int) : s.sliceTaken stop (some v) =
    { (s.modLnd 30 (fun c => c.nextSlice stop (some v))).sliceGated stop v with slices := (some v :: s.slices).take 1000 } := rfl

theorem State.sliceTaken_none (stop : Nat) : s.sliceTaken stop none = s.modLnd 30 (fun c => c.nextSlice stop none) := rfl

theorem State.sliceEnd_eq : s.sliceEnd =
    ((s.sliceTaken (s.now / 2000000 * 2000000) s.sliceResult).forL
      ((s.sliceTaken (s.now / 2000000 * 2000000) s.sliceResult).loopRecs.map (·.loop))
      (fun t l => t.sliceToLoop s.sliceResult.isSome l)).refreshYbar := rfl

/-- The list of slices is no part of a landing, nor of the image. -/
theorem State.beside_slices (u : State) (l : List (Option Int)) (n : Nat) :
    ({ u with slices := l } : State).lndC n = u.lndC n ∧ ({ u with slices := l } : State).fab = u.fab := ⟨rfl, rfl⟩

theorem State.fab_sliceGated (stop : Nat) (v : Int) : (s.sliceGated stop v).fab = s.fab :=
  have k : Sub 0x400000 0x400000 := .refl _
  have moves : Moves 0x400000 s (s.sliceGated stop v) := (Moves.refl s).forN fun _ _ m => m.modLnd
  moves.p10 rfl

theorem State.slicing_sliceTaken (stop : Nat) (y : Option Int) :
    ((s.sliceTaken stop y).lndC 30).slicing = ((s.lndC 30).nextSlice stop y).slicing := by
  cases y with
  | some v =>
    rw [State.sliceTaken_some, (State.beside_slices _ _ _).1, State.sliceGated, State.forN, ← State.forL, State.slicing_forL_takeSlice,
      State.lndC_modLnd]
  | none => rw [State.sliceTaken_none, State.lndC_modLnd]

theorem State.slices_sliceTaken (stop : Nat) (y : Option Int) :
    (s.sliceTaken stop y).slices = (match y with | some v => (some v :: s.slices).take 1000 | none => s.slices) := by
  cases y with
  | some v => rw [State.sliceTaken_some]
  | none => rw [State.sliceTaken_none, State.slices_modLnd]

theorem State.loopRecs_sliceTaken (stop : Nat) (y : Option Int) : (s.sliceTaken stop y).loopRecs = s.loopRecs := by
  unfold State.loopRecs
  cases y with
  | some v => rw [State.sliceTaken_some, (State.beside_slices _ _ 30).2, State.fab_sliceGated, State.fab_modLnd]
  | none => rw [State.sliceTaken_none, State.fab_modLnd]

/-- What the loops learn of a slice is told in their registers and in what they hold, and the mean of the slices follows. -/
theorem State.slicesTold_keeps (ok : Bool) (ls : List Nat) :
    Moves 0x6001004 s (s.forL ls (fun t l => t.sliceToLoop ok l)).refreshYbar := by
  have k : Sub 0x6001004 0x6001004 := .refl _
  refine (Moves.forL (.refl s) fun t l m => ?_).refreshYbar
  unfold State.sliceToLoop
  exact .ite m.setf m.evIf.setf.modHo

end

/-- Settles O35: the threshold's step, and the end of a slice of LND[30]. -/
theorem slicersAndSlices : Obligations.SlicersAndSlices := by
  unfold Obligations.SlicersAndSlices
  refine ⟨fun n mid amp s landed built format enabled active tracks auto due => ?_, fun s landed built due => ?_⟩
  · refine ⟨_, (exec_slicerUpdate n mid amp s).trans (if_pos ⟨landed, built, format, enabled, active, due⟩), ?_⟩
    rw [s.slicerUpdate_eq mid amp tracks auto]
    have thresh : (s.swingShown n amp).fi (LND.SLICE_STAT_THRESH n) = s.fi (LND.SLICE_STAT_THRESH n) := by
      refine State.fi_of_f _ _ (s.f_swingShown_other n amp ?_ ?_)
      all_goals dsimp only [Fld.Apart, Fld.width, LND.SLICE_STAT, LND.STATUS]; omega
    have steps : ∀ v, ((s.swingShown n amp).sliceStep n v).f (LND.SLICE_STAT_AMP n) = min amp 1023 ∧
        ((s.swingShown n amp).sliceStep n v).f (LND.STATUS_LOW_SWING n) = (if amp < 64 then 1 else 0) ∧
        ((s.swingShown n amp).sliceStep n v).fi (LND.SLICE_STAT_THRESH n) = max (-511) (min v 511) := fun v => by
      obtain ⟨step, ampl, low⟩ := (s.swingShown n amp).sliceStep_shows n.isLt v
      exact ⟨ampl.trans (s.amp_swingShown n amp), low.trans (s.low_swingShown n amp), step⟩
    by_cases above : mid - s.fi (LND.SLICE_STAT_THRESH n) > 2
    · rw [if_pos above, if_pos above]
      exact steps _
    by_cases below : s.fi (LND.SLICE_STAT_THRESH n) - mid > 2
    · rw [if_neg above, if_neg above, if_pos below, if_pos below]
      exact steps _
    · rw [if_neg above, if_neg above, if_neg below, if_neg below]
      exact ⟨s.amp_swingShown n amp, s.low_swingShown n amp, thresh⟩
  · refine ⟨_, (exec_lnd30SliceEnd s).trans (if_pos ⟨landed, built, due⟩), ?_⟩
    have told := (s.sliceTaken (s.now / 2000000 * 2000000) s.sliceResult).slicesTold_keeps s.sliceResult.isSome
      ((s.sliceTaken (s.now / 2000000 * 2000000) s.sliceResult).loopRecs.map (·.loop))
    have held : (s.sliceEnd.lndC 30).slicing = ((s.lndC 30).nextSlice (s.now / 2000000 * 2000000) s.sliceResult).slicing := by
      rw [s.sliceEnd_eq, State.lndC_congr _ (told.p22 rfl)]
      exact s.slicing_sliceTaken _ _
    refine ⟨congrArg (·.1) held, congrArg (·.2.1) held, congrArg (·.2.2.1) held, congrArg (·.2.2.2) held, ?_, fun r mem low => ?_⟩
    · rw [s.sliceEnd_eq]
      exact (told.p7 rfl).trans (s.slices_sliceTaken _ _)
    · have shown := (s.sliceTaken (s.now / 2000000 * 2000000) s.sliceResult).f_sliceToLoops s.sliceResult.isSome
        ((s.sliceTaken (s.now / 2000000 * 2000000) s.sliceResult).loopRecs.map (·.loop)) low
        (.inl (List.mem_map_of_mem (by rwa [s.loopRecs_sliceTaken])))
      rw [s.sliceEnd_eq]
      unfold State.on
      rw [State.f_congr _ (((Moves.refl _).refreshYbar (.refl _)).p2 rfl), shown]
      cases s.sliceResult with
      | some v => rfl
      | none => rfl

end Sys2Proof.Machine
end

section
/-! PROOFS. Edges at a landing (O34): what an edge meets before it is stamped, the stamp it gets, and what the loss of activity and the wrap
of the coarse count leave. -/

set_option Elab.async false

namespace Sys2Proof.Machine

theorem exec_landingEdge (n : Fin 32) (cap : Capture) (s : State) : exec (.landingEdge n cap) s = execLandingEdge n cap s := rfl
theorem exec_activityLost (n : Fin 32) (s : State) : exec (.activityLost n) s = execActivityLost n s := rfl
theorem exec_coarseWrap (s : State) : exec .coarseWrap s = execCoarseWrap s := rfl

/-! What decides over a stamp. -/

/-- What a landing holds of its edges and of its latest stamp. -/
structure LndCore.Timing where
  edgeIdx : Nat
  skip : Nat
  decim : Nat
  c1 : Nat
  c2 : Nat
  lastStamped : Option Nat
  stamp : Int

/-- See `LndCore.Timing`. -/
def LndCore.timing (c : LndCore) : LndCore.Timing := ⟨c.edgeIdx, c.skip, c.decim, c.c1, c.c2, c.lastStamped, c.stamp⟩

theorem LndCore.of_timing {c d : LndCore} (h : c.timing = d.timing) : c.edgeIdx = d.edgeIdx ∧ c.skip = d.skip ∧ c.decim = d.decim ∧
    c.c1 = d.c1 ∧ c.c2 = d.c2 ∧ c.lastStamped = d.lastStamped ∧ c.stamp = d.stamp := LndCore.Timing.mk.inj h

theorem LndCore.timing_mark (c : LndCore) (now : Nat) (lost low : Bool) : (c.mark now lost low).timing = c.timing := rfl

/-- The first state has the time, the landings' CFG, CTRL and PATH and what landing `n` holds of its edges as the second. -/
structure State.SameTiming (n : Nat) (s t : State) : Prop where
  now : t.now = s.now
  settings : ∀ j, 0x100000 ≤ j → j < 0x300000 → j % 0x10000 = 0 ∨ j % 0x10000 = 4 ∨ j % 0x10000 = 0x3C → t.w j = s.w j
  core : (t.lndC n).timing = (s.lndC n).timing

namespace State.SameTiming

variable {n : Nat} {s0 s t : State}

theorem refl (s : State) : s.SameTiming n s := ⟨rfl, fun _ _ _ _ => rfl, rfl⟩

theorem f (h : s0.SameTiming n s) (x : Fld) (a : 0x100000 ≤ x.key) (b : x.key < 0x300000)
    (o : x.key % 0x10000 = 0 ∨ x.key % 0x10000 = 4 ∨ x.key % 0x10000 = 0x3C) : s.f x = s0.f x := s0.f_of_w x (h.settings _ a b o)

/-- An operation that reaches no landing. -/
theorem beside (h : s0.SameTiming n s) (r : s.SameLandings t)
    (m : Sub besideLandings besideLandings → Moves besideLandings s s → Moves besideLandings s t) : s0.SameTiming n t where
  now := ((m (.refl _) (.refl s)).p0 rfl).trans h.now
  settings j a b o := (r j a b).trans (h.settings j a b o)
  core := (congrArg LndCore.timing (s.lndC_congr (State.lnd_beside m) n)).trans h.core

theorem modLnd (h : s0.SameTiming n s) {m : Nat} {g : LndCore → LndCore} (k : ∀ c : LndCore, (g c).timing = c.timing) :
    s0.SameTiming n (s.modLnd m g) where
  now := h.now
  settings := h.settings
  core := by
    by_cases same : n = m
    · subst same
      rw [State.lndC_modLnd, k]
      exact h.core
    · rw [State.lndC_modLnd_other _ _ _ same]
      exact h.core

/-- A field of another register. -/
theorem setf (h : s0.SameTiming n s) {x : Fld} {v : Nat}
    (hx : x.key < 0x100000 ∨ 0x300000 ≤ x.key ∨ ¬(x.key % 0x10000 = 0 ∨ x.key % 0x10000 = 4 ∨ x.key % 0x10000 = 0x3C) := by
      dsimp only [LND.STATUS, FLT.DEVICE]; omega) : s0.SameTiming n (s.setf x v) where
  now := h.now
  settings j a b o := (s.w_setf_other x v (by rintro rfl; omega)).trans (h.settings j a b o)
  core := h.core

theorem inc (h : s0.SameTiming n s) {x : Fld}
    (hx : x.key < 0x100000 ∨ 0x300000 ≤ x.key ∨ ¬(x.key % 0x10000 = 0 ∨ x.key % 0x10000 = 4 ∨ x.key % 0x10000 = 0x3C) := by
      dsimp only [LND.ERRCNT, PWR.WHARF_DROP]; omega) : s0.SameTiming n (s.inc x) := h.setf hx

theorem ev (h : s0.SameTiming n s) {x : Fld}
    (hx : x.lo < 32 ∧ ¬(x.key % 0x10000 = 0 ∨ x.key % 0x10000 = 4 ∨ x.key % 0x10000 = 0x3C) := by
      dsimp only [LND.EVENT]; omega) : s0.SameTiming n (s.ev x) where
  now := (State.now_ev s x).trans h.now
  settings j a b o := (s.w_ev_other x hx.1 (intrKey_landing a b) (by rintro rfl; exact hx.2 o)).trans (h.settings j a b o)
  core := (congrArg LndCore.timing (s.lndC_congr (State.lnd_ev s x) n)).trans h.core

theorem ite {c : Prop} [Decidable c] (h : s0.SameTiming n s) (k : s0.SameTiming n t) : s0.SameTiming n (if c then s else t) := by
  split
  · exact h
  · exact k

theorem forL {α : Type} {g : State → α → State} {l : List α} (h : s0.SameTiming n s)
    (k : ∀ t x, s0.SameTiming n t → s0.SameTiming n (g t x)) : s0.SameTiming n (s.forL l g) := by
  unfold State.forL
  induction l generalizing s with
  | nil => exact h
  | cons x l ih => exact ih (k s x h)

theorem route {e : Nat} (h : s0.SameTiming n s) : s0.SameTiming n (s.route e) :=
  h.beside (State.SameLandings.refl s).route fun _ m => m.route

theorem publish {m kind flags : Nat} {tag : Tag} {ws : List Word} (h : s0.SameTiming n s) :
    s0.SameTiming n (s.publish m tag kind flags ws) := by
  unfold State.publish
  extract_lets c w0 s1
  have h1 : s0.SameTiming n s1 := h.modLnd fun _ => rfl
  clear_value s1
  exact h1.setf.ev.route

theorem gapInterval {m flags : Nat} (h : s0.SameTiming n s) : s0.SameTiming n (s.gapInterval m flags) := by
  have took : s0.SameTiming n s.took := ⟨h.now, h.settings, h.core⟩
  have lost : s0.SameTiming n (s.took.modLnd m (fun c => { c with ival := none })) := took.modLnd fun _ => rfl
  rw [State.gapInterval_eq, State.intervalLost]
  exact lost.setf.setf.publish

theorem invalidCapture {m : Nat} (h : s0.SameTiming n s) : s0.SameTiming n (s.invalidCapture m) :=
  h.inc.ev

theorem stopInterval {m t : Nat} {w : BitVec 512} {full settle : Bool} (h : s0.SameTiming n s) :
    s0.SameTiming n (s.stopInterval m t w full settle) := by
  unfold State.stopInterval
  split
  · exact h
  rename_i x _
  split
  · exact h.invalidCapture.gapInterval
  rename_i f _
  have stopped : s0.SameTiming n (s.modLnd m (fun c => { c with
    ival := none, ivalDone := c.ivalDone ++ [(x.start, s.stampOf m t f, x.settle || settle)] })) := h.modLnd fun _ => rfl
  refine .ite ?_ ?_
  · exact (h.inc : s0.SameTiming n (s.inc PWR.WHARF_DROP_DROPS)).gapInterval
  · exact stopped.setf

theorem peerStops {m t : Nat} {cap : Capture} (h : s0.SameTiming n s) : s0.SameTiming n (s.peerStops m t cap) := by
  refine h.forL fun u k hu => ?_
  split
  · exact .ite hu.stopInterval hu
  · exact hu

theorem activityEdge {m t : Nat} (h : s0.SameTiming n s) : s0.SameTiming n (s.activityEdge m t) := by
  unfold State.activityEdge
  extract_lets c near k s1 s2 s3
  have h1 : s0.SameTiming n s1 := h.modLnd fun _ => rfl
  have h2 : s0.SameTiming n s2 := .ite h1.setf h1
  have h3 : s0.SameTiming n s3 := h2.modLnd fun c => by
    split
    · rfl
    · rfl
  clear_value s3
  refine .ite ?_ h1
  have h4 : s0.SameTiming n (((s3.setf (LND.STATUS_ACTIVE m) 1).ev (LND.EVENT_ACT_RETURN m)).route (0x040 + m)) := h3.setf.ev.route
  exact h4.beside (State.SameLandings.refl _).refreshActivity fun _ m => m.refreshActivity

end State.SameTiming

section

variable (s : State) {n : Nat}

/-! The edge before its stamp. -/

/-- The state in which an edge has its index. -/
def State.edgeCounted (n : Nat) : State := s.modLnd n (fun c => { c with edgeIdx := (c.edgeIdx + 1) % 2 ^ 48 })

/-- The state in which an edge has met the activity detector and the peers' intervals, and its landing's decimator has passed it. -/
def State.edgePassed (n : Nat) (cap : Capture) : State :=
  let s := s.edgeCounted n
  let t := s.extended cap.coarse
  let s := s.when (s.on (LND.STATUS_ACTIVE n)) (fun s => s.modLnd n (fun c => { c with
    sliceRun := some (match c.sliceRun with | some (k, t0) => (k + 1, t0) | none => (0, t)) }))
  (s.activityEdge n t).peerStops n t cap

/-- The state of `edgePassed` in which the next edge is `DECIM` away. -/
def State.edgeTaken (n : Nat) (cap : Capture) : State :=
  (s.edgePassed n cap).modLnd n (fun c => { c with skip := max 1 c.decim - 1 })

theorem State.sameTiming_edgePassed (cap : Capture) :
    (s.edgeCounted n).SameTiming n (s.edgePassed n cap) := by
  unfold State.edgePassed
  extract_lets s1 t s2
  have h2 : s1.SameTiming n s2 := by
    unfold s2 State.when
    exact .ite ((State.SameTiming.refl s1).modLnd fun _ => rfl) (.refl s1)
  exact h2.activityEdge.peerStops

/-- What a landing holds of its edges when the decimator has passed one. -/
theorem State.core_edgeTaken (cap : Capture) : ((s.edgeTaken n cap).lndC n).edgeIdx = ((s.lndC n).edgeIdx + 1) % 2 ^ 48 ∧
    ((s.edgeTaken n cap).lndC n).c1 = (s.lndC n).c1 ∧ ((s.edgeTaken n cap).lndC n).c2 = (s.lndC n).c2 ∧
    ((s.edgeTaken n cap).lndC n).lastStamped = (s.lndC n).lastStamped ∧ ((s.edgeTaken n cap).lndC n).stamp = (s.lndC n).stamp := by
  have core := (s.sameTiming_edgePassed (n := n) cap).core
  rw [State.edgeCounted, State.lndC_modLnd] at core
  rw [State.edgeTaken, State.lndC_modLnd]
  generalize (s.edgePassed n cap).lndC n = c at core ⊢
  obtain ⟨edge, -, -, c1, c2, last, stamp⟩ := LndCore.of_timing core
  exact ⟨edge, c1, c2, last, stamp⟩

/-- The fields of CFG, CTRL and PATH, when the decimator has passed an edge. -/
theorem State.f_edgeTaken (cap : Capture) (x : Fld) (a : 0x100000 ≤ x.key) (b : x.key < 0x300000)
    (o : x.key % 0x10000 = 0 ∨ x.key % 0x10000 = 4 ∨ x.key % 0x10000 = 0x3C) : (s.edgeTaken n cap).f x = s.f x := by
  rw [State.edgeTaken, State.f_congr _ (State.regs_modLnd _ _ _), (s.sameTiming_edgePassed (n := n) cap).f x a b o,
    State.edgeCounted, State.f_congr _ (State.regs_modLnd _ _ _)]

theorem State.rawEdge_eq (n : Nat) (cap : Capture) : s.rawEdge n cap =
    if !(s.edgeCounted n).landed ∨ !(s.edgeCounted n).on (LND.CTRL_ENABLE n) then s.edgeCounted n
    else ((if ((s.edgePassed n cap).lndC n).skip ≠ 0 then (s.edgePassed n cap).modLnd n (fun c => { c with skip := c.skip - 1 })
      else if (s.edgeTaken n cap).stampMode n then (s.edgeTaken n cap).stampEdge n (s.extended cap.coarse) (s.lndC n).edgeIdx cap
      else (s.edgeTaken n cap).intervalEdge n (s.extended cap.coarse) cap).modLnd n
      (fun c => { c with stepEdges := c.stepEdges - 1 })).refreshSettling n := rfl

/-- An edge that the decimator passes in stamp mode. -/
theorem State.rawEdge_stamps (cap : Capture) (landed : s.landed = true) (enabled : s.on (LND.CTRL_ENABLE n) = true)
    (stamps : s.stampMode n = true) (first : (s.lndC n).skip = 0) (hn : n < 32) :
    s.rawEdge n cap = (((s.edgeTaken n cap).stampEdge n (s.extended cap.coarse) (s.lndC n).edgeIdx cap).modLnd n
      (fun c => { c with stepEdges := c.stepEdges - 1 })).refreshSettling n := by
  have heard : ¬(!(s.edgeCounted n).landed ∨ !(s.edgeCounted n).on (LND.CTRL_ENABLE n)) := by
    have landed' : (s.edgeCounted n).landed = true := landed
    have enabled' : (s.edgeCounted n).on (LND.CTRL_ENABLE n) = true := enabled
    rw [landed', enabled']
    decide
  have passed : ((s.edgePassed n cap).lndC n).skip = 0 := by
    have core := (s.sameTiming_edgePassed (n := n) cap).core
    rw [State.edgeCounted, State.lndC_modLnd] at core
    generalize (s.edgePassed n cap).lndC n = c at core ⊢
    obtain ⟨-, skip, -⟩ := LndCore.of_timing core
    exact skip.trans first
  have mode : (s.edgeTaken n cap).stampMode n = true := by
    refine (State.on_of_f _ _ (s.f_edgeTaken (n := n) cap _ ?_ ?_ ?_)).trans stamps
    all_goals dsimp only [LND.CTRL]; omega
  rw [State.rawEdge_eq, if_neg heard, if_neg (not_not.2 passed), if_pos mode]

/-! The stamp. -/

/-- A landing with its latest stamp. -/
def LndCore.stampGiven (c : LndCore) (n : Nat) (bound : Bool) (t : Nat) (stamp : Int) (tag : Tag) (edge : Nat) (vals : List Int) : LndCore :=
  let c := { c with lastStamped := some t, badEdge := false, stamp := stamp, stampTag := tag, stampEdge := edge, vals := vals }
  if tag ≠ .valid then c
  else if n = 30 then (c.toGate bound t stamp edge).toSlice t stamp edge
  else c.toGate bound t stamp edge

/-- A stamp reaches the router, the selectors and the loops. -/
def State.stampReaches (n : Nat) (stamp : Int) (tag : Tag) (edge : Nat) : State :=
  let s := s.route n
  let noDelay := (n = 28 ∧ s.xlk.d0 = none) ∨ (n = 29 ∧ s.xlk.d1 = none)
  let tag := if noDelay then tag.max .suspect else tag
  let s := s.forL (s.entriesOf n) (fun s x => s.entrySample x.1 x.2 tag (stamp, edge))
  if tag ≠ .valid then s
  else s.forL (s.entriesOf n) (fun s x =>
    if s.active x.1 = x.2 ∧ (s.selState x.1 = 1 ∨ s.selState x.1 = 4) then
      s.forL (s.loopsOf x.1) (fun s l => s.modLoop l (fun c => { c with acc := c.acc ++ [⟨stamp, edge, s.laneDelay n⟩] }))
    else s)

theorem State.deliverStamp_eq (n t : Nat) (stamp : Int) (tag : Tag) (edge : Nat) : s.deliverStamp n t stamp tag edge =
    ((s.modLnd n (fun c => c.stampGiven n (s.gateBound n) t stamp tag edge ((List.range 8).map (fun k => s.tscAt k stamp)))).setf
      (LND.STATUS_LAST_TAG n) tag.num).stampReaches n stamp tag edge := rfl

/-- What a landing holds of its latest stamp, and the calibration pair it rests on. -/
structure LndCore.Stamped where
  edgeIdx : Nat
  stampEdge : Nat
  lastStamped : Option Nat
  c1 : Nat
  c2 : Nat
  stamp : Int

/-- See `LndCore.Stamped`. -/
def LndCore.stamped (c : LndCore) : LndCore.Stamped := ⟨c.edgeIdx, c.stampEdge, c.lastStamped, c.c1, c.c2, c.stamp⟩

theorem LndCore.stamped_toGate (c : LndCore) (bound : Bool) (t : Nat) (stamp : Int) (edge : Nat) :
    (c.toGate bound t stamp edge).stamped = c.stamped := by
  unfold LndCore.toGate
  split
  · split
    · rfl
    · rfl
  · rfl

theorem LndCore.stamped_toSlice (c : LndCore) (t : Nat) (stamp : Int) (edge : Nat) : (c.toSlice t stamp edge).stamped = c.stamped := by
  unfold LndCore.toSlice
  split
  · rfl
  · rfl

theorem LndCore.stamped_stampGiven (c : LndCore) (n : Nat) (bound : Bool) (t : Nat) (stamp : Int) (tag : Tag) (edge : Nat)
    (vals : List Int) : (c.stampGiven n bound t stamp tag edge vals).stamped = ⟨c.edgeIdx, edge, some t, c.c1, c.c2, stamp⟩ := by
  unfold LndCore.stampGiven
  extract_lets c'
  have given : c'.stamped = ⟨c.edgeIdx, edge, some t, c.c1, c.c2, stamp⟩ := rfl
  split
  · exact given
  split
  · rw [LndCore.stamped_toSlice, LndCore.stamped_toGate, given]
  · rw [LndCore.stamped_toGate, given]

theorem State.lnd_stampReaches (stamp : Int) (tag : Tag) (edge : Nat) : (s.stampReaches n stamp tag edge).lnd = s.lnd := by
  refine State.lnd_beside fun _ m => ?_
  unfold State.stampReaches
  extract_lets s1 noDelay tag' s2
  have h2 : Moves besideLandings s s2 := m.route.forL fun _ _ m => m.entrySample
  clear_value s2
  exact .ite h2 (h2.forL fun _ _ m => .ite (m.forL fun _ _ m => m.modLoop) m)

theorem State.sameLandings_stampReaches (stamp : Int) (tag : Tag) (edge : Nat) :
    s.SameLandings (s.stampReaches n stamp tag edge) := by
  unfold State.stampReaches
  extract_lets s1 noDelay tag' s2
  have h2 : s.SameLandings s2 := (State.SameLandings.refl s).route.forL fun _ _ h => h.entrySample
  clear_value s2
  exact .ite h2 (h2.forL fun _ _ h => .ite (h.forL fun _ _ h => h.modLoop) h)

/-- A stamp that is delivered stands in its landing, whose calibration stays as it was. -/
theorem State.deliverStamp_gives (hn : n < 32) (t : Nat) (stamp : Int) (tag : Tag) (edge : Nat) :
    ((s.deliverStamp n t stamp tag edge).lndC n).stamped =
      ⟨(s.lndC n).edgeIdx, edge, some t, (s.lndC n).c1, (s.lndC n).c2, stamp⟩ ∧
      (s.deliverStamp n t stamp tag edge).f (LND.STATUS_CAL_OK n) = s.f (LND.STATUS_CAL_OK n) := by
  rw [State.deliverStamp_eq]
  constructor
  · rw [State.lndC_congr _ (State.lnd_stampReaches _ _ _ _), State.lndC_setf, State.lndC_modLnd, LndCore.stamped_stampGiven]
  · rw [(State.sameLandings_stampReaches _ _ _ _).f _ (by dsimp only [LND.STATUS]; omega) (by dsimp only [LND.STATUS]; omega),
      State.f_setf_bits _ _ _ _ (Nat.le_of_ble_eq_true rfl) (.inl (Nat.le_of_ble_eq_true rfl)), State.f_congr _ (State.regs_modLnd _ _ _)]

/-- The history holds a stamp; the landing keeps its stamps and its calibration. -/
theorem State.history_keeps (hn : n < 32) (t stamp : Nat) (tag : Tag) (invalid : Bool) (edge : Nat) :
    ((s.history n t stamp tag invalid edge).lndC n).stamped = (s.lndC n).stamped ∧
      (s.history n t stamp tag invalid edge).f (LND.STATUS_CAL_OK n) = s.f (LND.STATUS_CAL_OK n) := by
  unfold State.history
  extract_lets sp i w1 s1 s2
  have status : (LND.STATUS_CAL_OK n).key ≠ LND.HIST_PTR n := by dsimp only [LND.STATUS, LND.HIST_PTR]; omega
  have h2 : (s2.lndC n).stamped = (s.lndC n).stamped ∧ s2.f (LND.STATUS_CAL_OK n) = s.f (LND.STATUS_CAL_OK n) := by
    refine ⟨?_, ?_⟩
    · have h1 : s1.lndC n = s.lndC n := s.lndC_congr (State.lnd_beside fun _ m => m.bankWrite) n
      have kept : s2.lndC n = { s1.lndC n with stepSince := false } := s1.lndC_modLnd n _
      rw [kept, h1]
      rfl
    · have same : s.SameLandings s1 := (State.SameLandings.refl s).bankWrite
      unfold s2
      rw [State.f_congr _ (State.regs_modLnd _ _ _), same.f _ (by dsimp only [LND.STATUS]; omega) (by dsimp only [LND.STATUS]; omega)]
  clear_value s2
  split
  · exact ⟨rfl, rfl⟩
  split
  · rw [State.incWrap, State.lndC_setf, State.lndC_setf, State.f_setf_key _ _ _ _ status, State.f_setf_key _ _ _ _ status]
    exact h2
  · rw [State.lndC_setf, State.f_setf_key _ _ _ _ status]
    exact h2

/-- The state in which the calibration pair of an edge is in force. -/
def State.calibrated (n c1 c2 : Nat) : State :=
  (s.modLnd n (fun c => { c with
    c1 := c1, c2 := c2, paired := true, badPairs := 0, calSeq := (c.calSeq + 1) % 2 ^ 26, calTag := .valid })).setf (LND.STATUS_CAL_OK n) 1

theorem State.calibrate_valid {w1 w2 : BitVec 512} {c1 c2 : Nat} (held : s.on (LND.CTRL_CAL_HOLD n) = false)
    (pair : calPair w1 w2 = some (c1, c2)) : s.calibrate n w1 w2 = (s.calibrated n c1 c2, true) := by
  unfold State.calibrate
  rw [if_neg (by rw [held]; exact fun h => Bool.false_ne_true h.1), pair]
  rfl

/-- The state in which a stamp has used up its settling counts. -/
def State.settled (n : Nat) : State := s.modLnd n (fun c => { c with selStamps := c.selStamps - 1, filtStamps := c.filtStamps - 1 })

/-- The tag of the stamp of an edge. -/
def State.edgeTag (n : Nat) : Tag :=
  s.measureTag n ((s.lndC n).selStamps + (s.lndC n).filtStamps != 0 || (s.lndC n).edgeSettling)

/-- A decimated edge with a valid calibration pair and a valid capture is stamped. -/
theorem State.stampEdge_eq {t edge c1 c2 f : Nat} {cap : Capture} (held : s.on (LND.CTRL_CAL_HOLD n) = false)
    (pair : calPair cap.c1w cap.c2w = some (c1, c2)) (code : fineCode cap.word = some f) (room : cap.wharfFull = false)
    (apart : ∀ t0, (s.lndC n).lastStamped = some t0 → (s.lndC n).stamp + 1800 * 2 ^ 20 ≤ s.stampOf n t f) :
    s.stampEdge n t edge cap =
      (((s.calibrated n c1 c2).settled n).history n t (stampField ((s.calibrated n c1 c2).stampOf n t f)) ((s.calibrated n c1 c2).edgeTag n)
        false edge).deliverStamp n t ((s.calibrated n c1 c2).stampOf n t f) ((s.calibrated n c1 c2).edgeTag n) edge := by
  have late : s.tooSoon n t cap.word = false := by
    unfold State.tooSoon
    rw [code]
    cases last : (s.lndC n).lastStamped with
    | none => rfl
    | some t0 => exact decide_eq_false (not_lt.2 (apart t0 last))
  unfold State.stampEdge
  rw [late, if_neg Bool.false_ne_true, s.calibrate_valid held pair, code]
  dsimp only
  rw [room, Bool.not_true, if_neg Bool.false_ne_true, if_neg Bool.false_ne_true]
  rfl

theorem State.core_calibrated (c1 c2 : Nat) : (((s.calibrated n c1 c2).settled n).lndC n).stamped =
    { (s.lndC n).stamped with c1 := c1, c2 := c2 } := by
  rw [State.settled, State.lndC_modLnd, State.calibrated, State.lndC_setf, State.lndC_modLnd]
  rfl

theorem State.calOk_calibrated (c1 c2 : Nat) : ((s.calibrated n c1 c2).settled n).f (LND.STATUS_CAL_OK n) = 1 := by
  rw [State.settled, State.f_congr _ (State.regs_modLnd _ _ _), State.calibrated]
  exact State.f_setf _ _ _ (Nat.le_of_ble_eq_true rfl)

/-- What the stamp of an edge leaves, in `u`. -/
theorem State.stamped_of_eq (hn : n < 32) {u : State} {t edge c1 c2 : Nat} {stamp : Int} {tag : Tag}
    (h : u = (((s.calibrated n c1 c2).settled n).history n t (stampField stamp) tag false edge).deliverStamp n t stamp tag edge) :
    (u.lndC n).stamped = ⟨(s.lndC n).edgeIdx, edge, some t, c1, c2, stamp⟩ ∧ u.f (LND.STATUS_CAL_OK n) = 1 := by
  obtain ⟨kept, ok⟩ := ((s.calibrated n c1 c2).settled n).history_keeps hn t (stampField stamp) tag false edge
  obtain ⟨given, still⟩ := (((s.calibrated n c1 c2).settled n).history n t (stampField stamp) tag false edge).deliverStamp_gives hn t
    stamp tag edge
  rw [← h] at given still
  rw [State.core_calibrated] at kept
  generalize ((((s.calibrated n c1 c2).settled n).history n t (stampField stamp) tag false edge).lndC n) = c at given kept
  obtain ⟨idx, -, -, k1, k2, -⟩ := LndCore.Stamped.mk.inj kept
  rw [given, still, ok, State.calOk_calibrated, idx, k1, k2]
  exact ⟨rfl, rfl⟩

theorem State.stampOf_eq (n t f : Nat) : s.stampOf n t f = ((t * 2 ^ 20 : Nat) : Int) -
    roundNear (((f : Int) - (s.lndC n).c1) * 2 ^ 20) ((s.lndC n).c2 - (s.lndC n).c1) - roundNear (s.fi (LND.PATH_K n) * 16) 500 := rfl

/-- The path constant when the calibration pair of an edge is in force. -/
theorem State.path_calibrated (hn : n < 32) (cap : Capture) (c1 c2 : Nat) :
    ((s.edgeTaken n cap).calibrated n c1 c2).fi (LND.PATH_K n) = s.fi (LND.PATH_K n) ∧
      (s.edgeTaken n cap).fi (LND.PATH_K n) = s.fi (LND.PATH_K n) := by
  have taken : (s.edgeTaken n cap).fi (LND.PATH_K n) = s.fi (LND.PATH_K n) := by
    refine State.fi_of_f _ _ (s.f_edgeTaken cap _ ?_ ?_ ?_)
    all_goals dsimp only [LND.PATH]; omega
  refine ⟨(State.fi_of_f (s.edgeTaken n cap) _ ?_).trans taken, taken⟩
  rw [State.calibrated, State.f_setf_key _ _ _ _ (by dsimp only [LND.PATH, LND.STATUS]; omega), State.f_congr _ (State.regs_modLnd _ _ _)]

/-- What a raw edge leaves that is stamped. -/
theorem State.rawEdge_gives (hn : n < 32) {c1 c2 f : Nat} {cap : Capture} (landed : s.landed = true)
    (enabled : s.on (LND.CTRL_ENABLE n) = true) (stamps : s.stampMode n = true) (first : (s.lndC n).skip = 0)
    (held : s.on (LND.CTRL_CAL_HOLD n) = false) (pair : calPair cap.c1w cap.c2w = some (c1, c2)) (code : fineCode cap.word = some f)
    (room : cap.wharfFull = false)
    (apart : ∀ t0, (s.lndC n).lastStamped = some t0 → (s.lndC n).stamp + 1800 * 2 ^ 20 ≤ s.stampOf n (s.extended cap.coarse) f) :
    ((s.rawEdge n cap).lndC n).stamped = ⟨((s.lndC n).edgeIdx + 1) % 2 ^ 48, (s.lndC n).edgeIdx, some (s.extended cap.coarse), c1, c2,
      ((s.extended cap.coarse * 2 ^ 20 : Nat) : Int) - roundNear (((f : Int) - c1) * 2 ^ 20) (c2 - c1) -
        roundNear (s.fi (LND.PATH_K n) * 16) 500⟩ ∧
      (s.rawEdge n cap).f (LND.STATUS_CAL_OK n) = 1 := by
  obtain ⟨idx, k1, k2, last, stamp⟩ := s.core_edgeTaken (n := n) cap
  obtain ⟨pathK, path⟩ := s.path_calibrated hn cap c1 c2
  have held' : (s.edgeTaken n cap).on (LND.CTRL_CAL_HOLD n) = false := by
    refine (State.on_of_f _ _ (s.f_edgeTaken (n := n) cap _ ?_ ?_ ?_)).trans held
    all_goals dsimp only [LND.CTRL]; omega
  have apart' : ∀ t0, ((s.edgeTaken n cap).lndC n).lastStamped = some t0 →
      ((s.edgeTaken n cap).lndC n).stamp + 1800 * 2 ^ 20 ≤ (s.edgeTaken n cap).stampOf n (s.extended cap.coarse) f := by
    rw [last, stamp, State.stampOf_eq, k1, k2, path]
    exact apart
  have calibrated : ((s.edgeTaken n cap).calibrated n c1 c2).stampOf n (s.extended cap.coarse) f =
      ((s.extended cap.coarse * 2 ^ 20 : Nat) : Int) - roundNear (((f : Int) - c1) * 2 ^ 20) (c2 - c1) -
        roundNear (s.fi (LND.PATH_K n) * 16) 500 := by
    rw [State.stampOf_eq, pathK, State.calibrated, State.lndC_setf, State.lndC_modLnd]
  obtain ⟨given, ok⟩ := (s.edgeTaken n cap).stamped_of_eq hn
    ((s.edgeTaken n cap).stampEdge_eq (edge := (s.lndC n).edgeIdx) held' pair code room apart')
  rw [idx, calibrated] at given
  rw [s.rawEdge_stamps cap landed enabled stamps first hn]
  generalize (s.edgeTaken n cap).stampEdge n (s.extended cap.coarse) (s.lndC n).edgeIdx cap = u at given ok ⊢
  constructor
  · rw [State.lndC_refreshSettling, State.lndC_modLnd]
    exact given
  · rw [State.f_refreshSettling_other _ n (.inr ⟨Nat.le_of_ble_eq_true rfl, .inr (Nat.le_of_ble_eq_true rfl)⟩),
      State.f_congr _ (State.regs_modLnd _ _ _), ok]

/-! The loss of activity. -/

/-- Activity is lost: STATUS and the sticky bit show it, whatever becomes of an interval and of the selectors. -/
theorem State.loseActivity_shows (hn : n < 32) (active : s.on (LND.STATUS_ACTIVE n) = true) :
    (s.loseActivity n).f (LND.STATUS_ACTIVE n) = 0 ∧ (s.loseActivity n).on (LND.EVENT_ACT_LOST n) = true := by
  have status : 0x100000 ≤ (LND.STATUS_ACTIVE n).key ∧ (LND.STATUS_ACTIVE n).key < 0x300000 := by dsimp only [LND.STATUS]; omega
  have event : 0x100000 ≤ (LND.EVENT_ACT_LOST n).key ∧ (LND.EVENT_ACT_LOST n).key < 0x300000 := by dsimp only [LND.EVENT]; omega
  have differ : (LND.STATUS_ACTIVE n).key ≠ LND.EVENT n := by dsimp only [LND.STATUS, LND.EVENT]; omega
  unfold State.loseActivity
  rw [active, if_neg (by decide)]
  extract_lets s1 s2 s3
  have told : s2.f (LND.STATUS_ACTIVE n) = 0 ∧ s2.on (LND.EVENT_ACT_LOST n) = true := by
    have same : (s1.ev (LND.EVENT_ACT_LOST n)).SameLandings s2 := (State.SameLandings.refl _).route
    have shown : s1.f (LND.STATUS_ACTIVE n) = 0 :=
      (State.f_congr _ (State.regs_modLnd _ _ _) _).trans (s.f_setf _ _ (Nat.le_of_ble_eq_true rfl))
    rw [same.f _ status.1 status.2, same.on _ event.1 event.2,
      State.f_ev_other _ _ _ (Nat.le_of_ble_eq_true rfl) (intrKey_landing status.1 status.2) differ]
    exact ⟨shown, State.on_ev _ _ rfl (Nat.le_of_ble_eq_true rfl) (intrKey_landing event.1 event.2)⟩
  clear_value s2
  have abandoned : s3.f (LND.STATUS_ACTIVE n) = 0 ∧ s3.on (LND.EVENT_ACT_LOST n) = true := by
    unfold s3
    split
    · rw [State.on_of_f _ _ (State.f_congr _ (State.regs_modLnd _ _ _) _), State.f_congr _ (State.regs_modLnd _ _ _),
        State.f_gapInterval_other _ _ _ status.1 status.2 (.inr (.inr (Nat.le_of_ble_eq_true rfl))) (.inl differ),
        State.on_of_f _ _ (State.f_gapInterval_other _ _ _ event.1 event.2 (.inl (by dsimp only [LND.STATUS, LND.EVENT]; omega))
          (.inr ⟨Nat.le_of_ble_eq_true rfl, .inl (Nat.le_of_ble_eq_true rfl)⟩))]
      exact told
    · exact told
  have same : s3.SameLandings (s3.refreshActivity n) := (State.SameLandings.refl s3).refreshActivity
  rw [same.f _ status.1 status.2, same.on _ event.1 event.2]
  exact abandoned

/-- OSCIN is found lost, which is told as a fault (R31, R675). -/
def State.oscinLost : State := ((s.setf FLT.DEVICE_OSCIN 1).raise 18).report 2 0x03 0

theorem State.w_oscinLost_other (check : s.flt.injCheck = false) (light : s.reaction 0 0x03 < 8) {j : Nat} (h : reportKey j = false) :
    s.oscinLost.w j = (s.setf FLT.DEVICE_OSCIN 1).w j := by
  have flt : ((s.setf FLT.DEVICE_OSCIN 1).raise 18).flt.injCheck = false := by rwa [State.flt_raise, State.flt_setf]
  have fab : ((s.setf FLT.DEVICE_OSCIN 1).raise 18).reaction (2 / 64) 0x03 < 8 := by
    rw [State.reaction_congr s (by rw [State.fab_raise, State.fab_setf])]
    exact light
  exact (State.w_report_other _ _ _ _ _ flt (by decide) (by decide) (by decide) fab h).trans
    (State.w_raise_other _ (by decide) (reportKey_false h).1)

/-- The loss of OSCIN shows, and what a landing shows stays. -/
theorem State.oscinLost_shows (check : s.flt.injCheck = false) (light : s.reaction 0 0x03 < 8) :
    s.oscinLost.f FLT.DEVICE_OSCIN = 1 ∧
      ∀ x : Fld, 0x100000 ≤ x.key → x.key < 0x300000 → s.oscinLost.f x = s.f x := by
  refine ⟨?_, fun x a b => ?_⟩
  · rw [State.f_of_w _ _ (s.w_oscinLost_other check light (by decide))]
    exact s.f_setf _ _ (by decide)
  · have quiet : reportKey x.key = false := by
      unfold reportKey
      rw [intrKey_landing a b, decide_eq_false (by omega : ¬x.key ≤ 0x30024), decide_eq_false (by omega : ¬x.key ≤ 0xA000C), Bool.and_false,
        Bool.and_false]
      rfl
    rw [State.f_of_w _ _ (s.w_oscinLost_other check light quiet)]
    exact s.f_setf_key _ _ _ (by dsimp only [FLT.DEVICE]; omega)

theorem State.execActivityLost_eq (n : Fin 32) (landed : s.landed = true) (built : s.lndBuilt n = true)
    (enabled : s.on (LND.CTRL_ENABLE n) = true) (active : s.on (LND.STATUS_ACTIVE n) = true)
    (late : ∀ t0, (s.lndC n).lastEdge = some t0 → t0 + s.actWindow n ≤ s.now) :
    execActivityLost n s = .next (if n.val = 30 then (s.loseActivity n).oscinLost else s.loseActivity n) := by
  have past : (match (s.lndC n).lastEdge with | some t => decide (t + s.actWindow n ≤ s.now) | none => true) = true := by
    cases last : (s.lndC n).lastEdge with
    | some t0 => exact decide_eq_true (late t0 last)
    | none => rfl
  exact if_pos ⟨landed, built, enabled, active, past⟩

/-! The wrap of the coarse count. -/

theorem State.epoch_wraps (k : Nat) : (s.forN k (fun s n => s.incWrap (LND.EPOCH_COUNT n))).f (LND.EPOCH_COUNT n) =
    if n < k then (s.f (LND.EPOCH_COUNT n) + 1) % 2 ^ (LND.EPOCH_COUNT n).width else s.f (LND.EPOCH_COUNT n) := by
  induction k with
  | zero => rw [if_neg (Nat.not_lt_zero n)]; rfl
  | succ k ih =>
    have step : s.forN (k + 1) (fun s n => s.incWrap (LND.EPOCH_COUNT n)) =
        (s.forN k (fun s n => s.incWrap (LND.EPOCH_COUNT n))).incWrap (LND.EPOCH_COUNT k) := by
      unfold State.forN
      rw [List.range_succ, List.foldl_append]
      rfl
    rw [step, State.incWrap]
    rcases Nat.lt_trichotomy n k with below | same | above
    · rw [State.f_setf_key _ _ _ _ (by dsimp only [LND.EPOCH]; omega), ih, if_pos below, if_pos (by omega)]
    · subst same
      rw [State.f_setf _ _ _ (Nat.le_of_ble_eq_true rfl), ih, if_neg (by omega), if_pos (by omega)]
    · rw [State.f_setf_key _ _ _ _ (by dsimp only [LND.EPOCH]; omega), ih, if_neg (by omega), if_neg (by omega)]

end

/-- Settles O34: an edge that is stamped by the rule of R163, the loss of activity, and the wrap of the coarse count. -/
theorem landingEdges : Obligations.LandingEdges := by
  unfold Obligations.LandingEdges
  refine ⟨fun n cap s built deaf => ?_, fun n cap c1 c2 f s built landed enabled stamps first held pair code room apart => ?_,
    fun n s landed built enabled active late light => ?_, fun s => ⟨_, exec_coarseWrap s, fun n hn => ?_⟩⟩
  · have unheard : !(s.edgeCounted n).landed ∨ !(s.edgeCounted n).on (LND.CTRL_ENABLE n) := by
      rcases deaf with h | h
      · exact .inl (congrArg not h)
      · exact .inr (congrArg not h)
    refine ⟨s.edgeCounted n, ?_, congrArg LndCore.edgeIdx (s.lndC_modLnd n _), s.regs_modLnd n _⟩
    rw [exec_landingEdge, execLandingEdge, if_pos built, State.rawEdge_eq, if_pos unheard]
  · refine ⟨s.rawEdge n cap, ?_, ?_⟩
    · rw [exec_landingEdge, execLandingEdge, if_pos built]
    · obtain ⟨given, ok⟩ := s.rawEdge_gives n.isLt landed enabled stamps first held pair code room apart
      generalize s.rawEdge n cap = t at given ok ⊢
      obtain ⟨idx, edge, last, k1, k2, stamp⟩ := LndCore.Stamped.mk.inj given
      exact ⟨idx, edge, last, k1, k2, ok, stamp⟩
  · refine ⟨_, (exec_activityLost n s).trans (s.execActivityLost_eq n landed built enabled active late), ?_⟩
    obtain ⟨lost, told⟩ := s.loseActivity_shows n.isLt active
    by_cases xo : n.val = 30
    · have moves : Moves _ s (s.loseActivity n) := (Moves.refl s).loseActivity (.refl _)
      obtain ⟨check, reaction⟩ := light xo
      obtain ⟨oscin, same⟩ := (s.loseActivity n).oscinLost_shows (by rw [moves.p11 rfl]; exact check)
        (by rw [State.reaction_congr s (moves.p10 rfl)]; exact reaction)
      rw [if_pos xo, same _ (by dsimp only [LND.STATUS]; omega) (by dsimp only [LND.STATUS]; omega), State.on_of_f _ _ (same
        (LND.EVENT_ACT_LOST n) (by dsimp only [LND.EVENT]; omega) (by dsimp only [LND.EVENT]; omega))]
      exact ⟨lost, told, fun _ => oscin⟩
    · rw [if_neg xo]
      exact ⟨lost, told, fun h => absurd h xo⟩
  · rw [State.epoch_wraps, if_pos hn]

end Sys2Proof.Machine
end

section
/-! PROOFS. Register commands that act within their unit (O15): a write of a control register that is no doorbell stores what `leaves`
says, and then has its effect. -/

set_option Elab.async false

namespace Sys2Proof.Machine

/-! Registers that a write stores. -/

/-- A control register that shows all its fields, which lie in its word. -/
def RegDef.plain (d : RegDef) : Bool :=
  !d.status && d.hidden == 0 && decide (d.writable false < 2 ^ 32) && decide (d.writable true < 2 ^ 32)

theorem RegDef.plain_iff (d : RegDef) :
    d.plain = true ↔ d.status = false ∧ d.hidden = 0 ∧ ∀ fr, d.writable fr < 2 ^ 32 := by
  simp [RegDef.plain, Bool.forall_bool, and_assoc]

/-- The address of the normal view of plain registers that `State.perform` stores: no doorbell, none of the registers of a loop that it
treats apart, and none that is read only at some instances (R583). -/
def PlainReg (K : Nat) : Prop :=
  (K < 0x1000000 ∧ K % 0x10000 < 0x4000 ∧ K % 4 = 0) ∧ doorbellReg (K / 0x10000) (K % 0x10000) = false ∧
    ¬(0x40 ≤ K / 0x10000 ∧ K / 0x10000 ≤ 0x5F ∧
      (K % 0x10000 = 0x12C ∨ 0xC0 ≤ K % 0x10000 ∧ K % 0x10000 < 0xD0 ∨ K % 0x10000 = 0x50 ∨ K % 0x10000 = 0x54)) ∧
    ¬(0x24 ≤ K / 0x10000 ∧ K / 0x10000 ≤ 0x2D ∧ K % 0x10000 = 8) ∧
    ∀ d ∈ blockRegs (K / 0x10000) ++ regsMSIX, d.covers (K / 0x10000 - blockFirst (K / 0x10000)) (K % 0x10000) = true → d.plain = true

/-- The BAR0 address at which a write of a register starts. -/
def writeAddr (a : RegAcc) (K : Nat) : Nat := K + quarterBase a.quarter + a.lane

/-- Where the state holds the register whose normal view is at an address. -/
abbrev keyAt (p : Port) (K : Nat) : Nat := regKey p (K / 0x10000) (K % 0x10000)

section

variable {K : Nat} (h : PlainReg K) (a : RegAcc)
include h

/-- The parts of the address of a write. -/
theorem PlainReg.addr : writeAddr a K < 0x1000000 ∧ writeAddr a K / 0x10000 = K / 0x10000 ∧ writeAddr a K % 4 = a.lane ∧
    writeAddr a K % 0x4000 - a.lane = K % 0x10000 ∧ writeAddr a K % 0x10000 / 0x4000 = quarterBase a.quarter / 0x4000 := by
  obtain ⟨⟨inBar, normal, aligned⟩, -⟩ := h
  unfold writeAddr
  have lane := a.lane.isLt
  cases a.quarter <;> dsimp only [quarterBase] <;> omega

/-- The table line that a port finds at the address. -/
theorem PlainReg.plain_of_regFind {s : State} {p : Port} {d : RegDef} (found : s.regFind p (K / 0x10000) (K % 0x10000) = some d) :
    d.plain = true := by
  obtain ⟨-, -, -, window, plain⟩ := h
  unfold State.regFind at found
  dsimp only at found
  rw [if_neg window, Option.ite_none_right_eq_some] at found
  obtain ⟨-, found⟩ := found
  have covered := List.find?_some found
  refine plain d (List.mem_append.2 ?_) covered
  have listed := List.mem_of_find?_eq_some found
  split at listed
  next host =>
    rw [host.1]
    exact List.mem_append.1 listed
  next => exact .inl listed

end

/-! What a write leaves. -/

/-- The bytes that a write drives lie in its lanes. -/
theorem and_laneMask (v m lane n : Nat) :
    (v % 2 ^ (8 * n) * 2 ^ (8 * lane)) &&& (m &&& laneMask lane n) = (v % 2 ^ (8 * n) * 2 ^ (8 * lane)) &&& m := by
  refine Nat.eq_of_testBit_eq fun i => ?_
  simp only [laneMask, Nat.testBit_and, Nat.testBit_mul_two_pow, Nat.testBit_mod_two_pow, Nat.testBit_two_pow_sub_one]
  grind

theorem leaves_lt (a : RegAcc) {old m : Nat} (ho : old < 2 ^ 32) (hm : m < 2 ^ 32) : leaves a old m < 2 ^ 32 := by
  have drive : ∀ r : Nat, r &&& m < 2 ^ 32 := fun r => Nat.lt_of_le_of_lt Nat.and_le_right hm
  unfold leaves
  dsimp only
  split
  · rw [← and_laneMask]
    exact replaced_lt _ ho (Nat.lt_of_le_of_lt Nat.and_le_left hm)
  · exact Nat.or_lt_two_pow ho (drive _)
  · omega
  · exact Nat.xor_lt_two_pow ho (drive _)

section

variable (s : State) {p : Port} {K : Nat} {a : RegAcc}

/-- The write of a register as the rules see it. -/
def State.writeAt (p : Port) (K : Nat) (a : RegAcc) (mask : Nat) : RegWrite :=
  ⟨p, K / 0x10000, K % 0x10000, s.w (keyAt p K), leaves a (s.w (keyAt p K)) (s.mayWrite p K), mask⟩

theorem State.mayWrite_of_regFind {d : RegDef} (found : s.regFind p (K / 0x10000) (K % 0x10000) = some d) :
    s.mayWrite p K = d.writable (s.frozen (K / 0x10000) (K % 0x10000)) := by
  unfold State.mayWrite
  rw [found]

theorem State.regWrite_status (q : Port) (c : Code) (d : RegDef) (addr n data : Nat) :
    (s.status q c).regWrite d p addr n data = s.regWrite d p addr n data := by
  cases q <;> rfl

/-- What `perform` does where the register is a plain one. -/
theorem PlainReg.perform (h : PlainReg K) (d : RegDef) (mask : Nat) (t : State) :
    t.perform d (s.writeAt p K a mask) =
      (t.store d (s.writeAt p K a mask)).regEffect (t.landingKind (K / 0x10000 - 0x10)) (s.writeAt p K a mask) := by
  obtain ⟨-, bell, loop, -⟩ := h
  unfold State.perform
  rw [if_neg (by rw [State.writeAt]; simp [bell]), if_neg (by rw [State.writeAt]; dsimp only; omega),
    if_neg (by rw [State.writeAt]; dsimp only; omega), if_neg (by rw [State.writeAt]; dsimp only; omega)]
  rfl

theorem State.regWrite_plain (h : PlainReg K) {d : RegDef} (found : s.regFind p (K / 0x10000) (K % 0x10000) = some d) :
    ∃ mask, s.regWrite d p (writeAddr a K) a.width.bytes a.data.toNat = s.writeAt p K a mask := by
  obtain ⟨-, block, lane, offset, quarter⟩ := h.addr a
  unfold State.regWrite State.writeAt leaves
  dsimp only
  rw [block, lane, offset, quarter, s.mayWrite_of_regFind found, and_laneMask]
  cases a.quarter <;> exact ⟨_, rfl⟩

/-- The access that a write of a register is. -/
def writeAccess (a : RegAcc) (K : Nat) : Access :=
  ⟨BitVec.ofNat 24 (writeAddr a K), a.width, BitVec.ofNat 8 (2 ^ a.width.bytes - 1), a.data⟩

theorem State.hostWriteAt_eq : s.hostWriteAt p K a = s.hostWrite p (writeAccess a K) := by
  unfold State.hostWriteAt writeAccess writeAddr
  cases a.quarter <;> rfl

theorem PlainReg.toNat_addr (h : PlainReg K) : (writeAccess a K).addr.toNat = writeAddr a K :=
  (BitVec.toNat_ofNat _ _).trans (Nat.mod_eq_of_lt (h.addr a).1)

/-- The access is aligned, its byte enables fill it, and at port B it is of 32 bits (R579, R587). -/
theorem PlainReg.accessShape (h : PlainReg K) (width : a.width ≠ .b8) (wide : p = .b → a.width = .b4)
    (lanes : a.lane.val % a.width.bytes = 0) :
    accessShape p (writeAccess a K) = true := by
  obtain ⟨-, -, lane, -⟩ := h.addr a
  have aligned : writeAddr a K % a.width.bytes = 0 := by
    cases hw : a.width <;> rw [hw] at lanes <;> dsimp only [Width.bytes] at *
    case b8 => exact absurd hw width
    all_goals omega
  have port : (p == .a || a.width == .b4) = true := by
    cases p
    · rfl
    · rw [wide rfl]; rfl
  have filled : (BitVec.ofNat 8 (2 ^ a.width.bytes - 1)).toNat = 2 ^ a.width.bytes - 1 := by
    cases a.width <;> rfl
  unfold Machine.accessShape
  rw [h.toNat_addr]
  simp only [writeAccess, aligned, filled, port, beq_self_eq_true, Bool.and_self]

/-- A write that passes its checks finds a table line. -/
theorem State.regFind_of_writeCode {addr n data : Nat} (ok : s.writeCode p addr n data = .ok) :
    ∃ d, s.regFind p (addr / 0x10000) (addr % 0x4000 - addr % 4) = some d := by
  unfold State.writeCode at ok
  dsimp only at ok
  split at ok
  · cases ok
  next d found => exact ⟨d, found⟩

/-- An access of up to four bytes that passes its checks. -/
theorem State.hostWrite_of_ok {x : Access} (reached : s.reaches p = true) (shape : accessShape p x = true) (width : x.width ≠ .b8)
    (ok : s.writeCode p x.addr.toNat x.width.bytes x.data.toNat = .ok) :
    s.hostWrite p x = (s.status p .ok).writeDone p x.addr.toNat x.width.bytes x.data.toNat := by
  unfold State.hostWrite
  dsimp only
  rw [reached, shape, if_neg (by decide), if_neg (by decide), if_neg width, ok]

/-- A write that is performed stores what it leaves, and then has its effect. -/
theorem State.hostWriteAt_plain (h : PlainReg K) (ok : s.performs p K a) :
    ∃ d mask, d.plain = true ∧ s.mayWrite p K < 2 ^ 32 ∧
      ∃ was, s.hostWriteAt p K a = ((s.status p .ok).store d (s.writeAt p K a mask)).regEffect was (s.writeAt p K a mask) := by
  obtain ⟨reached, width, wide, lanes, code⟩ := ok
  obtain ⟨-, block, lane, offset, -⟩ := h.addr a
  obtain ⟨d, found⟩ := s.regFind_of_writeCode code
  change s.writeCode p (writeAddr a K) _ _ = _ at code
  change s.regFind p (writeAddr a K / _) (writeAddr a K % _ - writeAddr a K % _) = _ at found
  rw [block, lane, offset] at found
  have plain := h.plain_of_regFind found
  obtain ⟨control, -, word⟩ := d.plain_iff.1 plain
  obtain ⟨mask, write⟩ := s.regWrite_plain h (a := a) found
  refine ⟨d, mask, plain, ?_, ?_⟩
  · rw [s.mayWrite_of_regFind found]
    exact word _
  · rw [State.hostWriteAt_eq, s.hostWrite_of_ok reached (h.accessShape width wide lanes) width (h.toNat_addr ▸ code), h.toNat_addr]
    unfold State.writeDone
    dsimp only
    rw [block, lane, offset, State.regFind_status, found]
    dsimp only
    rw [control, if_neg Bool.false_ne_true, State.regWrite_status]
    change ∃ was, (s.status p .ok).perform d (s.regWrite d p (writeAddr a K) a.width.bytes a.data.toNat) = _
    rw [write, h.perform]
    exact ⟨_, rfl⟩

/-! What the store leaves. -/

theorem State.w_store_self {d : RegDef} (plain : d.plain = true) {x : RegWrite} (hx : x.new < 2 ^ 32) :
    (s.store d x).w x.key = x.new := by
  obtain ⟨-, hidden, -⟩ := d.plain_iff.1 plain
  unfold State.store
  rw [hidden, Nat.and_zero, Nat.sub_zero]
  dsimp only
  split
  · assumption
  · exact (State.w_setw_self _ _ _).trans (Nat.mod_eq_of_lt hx)

theorem State.moves_store (d : RegDef) (x : RegWrite) : Moves 0x2004 s (s.store d x) := Moves.store (Moves.refl s) (Sub.refl _)

/-- What reaches no host leaves the status of both ports. -/
theorem Moves.hostC {m : Nat} {s t : State} (h : Moves m s t) (hm : m &&& 0xC000 = 0) (q : Port) : t.hostC q = s.hostC q := by
  have bit : ∀ i, Nat.testBit 0xC000 i = true → m.testBit i = false := by
    intro i host
    have both := Nat.testBit_and m 0xC000 i
    rwa [hm, host, Bool.and_true, Nat.zero_testBit, eq_comm] at both
  cases q
  · exact h.p14 (bit 14 rfl)
  · exact h.p15 (bit 15 rfl)

/-- In `t` the write `x` of the register at `K` has been stored, and its effect is to come. -/
structure State.Written (s : State) (p : Port) (K : Nat) (a : RegAcc) (t : State) (x : RegWrite) : Prop where
  port : x.port = p
  blk : x.blk = K / 0x10000
  off : x.off = K % 0x10000
  code : (t.hostC p).code = .ok
  word : t.w (keyAt p K) = leaves a (s.w (keyAt p K)) (s.mayWrite p K)
  lnd : t.lnd = s.lnd
  now : t.now = s.now

theorem State.written_of_performs (h : PlainReg K) (ok : s.performs p K a) :
    ∃ t x was, s.Written p K a t x ∧ s.hostWriteAt p K a = t.regEffect was x := by
  obtain ⟨d, mask, plain, word, was, eq⟩ := s.hostWriteAt_plain h ok
  refine ⟨_, _, was, ⟨rfl, rfl, rfl, ?_, ?_, ?_, ?_⟩, eq⟩
  · rw [(State.moves_store _ _ _).hostC rfl, State.code_status]
  · exact State.w_store_self _ plain (leaves_lt a (s.w_lt _) word)
  · exact ((State.moves_store _ _ _).p22 rfl).trans (State.lnd_beside fun _ m => m.status)
  · exact ((State.moves_store _ _ _).p0 rfl).trans (State.now_status _ _ _)

/-! Where the state holds a register. -/

/-- From block 3 on the ports share every register. -/
theorem keyAt_of_block {K : Nat} (p : Port) (h : 3 ≤ K / 0x10000) : keyAt p K = K := by
  have shared : portRelative (K / 0x10000) (K % 0x10000) = false := by
    unfold portRelative
    rw [if_neg (by omega), Bool.and_eq_false_iff]
    exact .inl (beq_eq_false_iff_ne.2 (by omega))
  unfold keyAt regKey
  rw [shared, if_neg Bool.false_ne_true]
  omega

variable {s} {t u : State} {x : RegWrite}

/-- An effect that leaves the status and the register leaves the write stored. -/
theorem State.Written.stored (h : s.Written p K a t x) (key : keyAt p K = K) (code : u.hostC p = t.hostC p) (word : u.w K = t.w K) :
    u.stored s p K a :=
  ⟨by rw [code]; exact h.code, by rw [word]; simpa only [key] using h.word⟩

end

/-! Registers of loops. -/

section

variable (s : State)

theorem State.regEffect_loop (was : EntryKind) {x : RegWrite} {n : Nat} (hn : n < 32) (h : x.blk = 0x40 + n) :
    s.regEffect was x = s.loopEffect n x := by
  have block : x.blk - 0x40 = n := by omega
  unfold State.regEffect
  dsimp only
  rw [block, if_neg (by omega), if_neg (by omega), if_neg (by omega), if_neg (by omega), if_neg (by omega), if_neg (by omega),
    if_pos (by omega)]

theorem State.w_refreshCoefs_other (n : Nat) {j : Nat} (p : j ≠ LOOP.COEF_P n) (i : j ≠ LOOP.COEF_I n) :
    (s.refreshCoefs n).w j = s.w j := by
  unfold State.refreshCoefs
  split
  · rfl
  · exact (State.w_setw_other _ _ _ i).trans (s.w_setw_other _ _ p)

theorem State.w_when_other {g : State → State} (c : Bool) {j : Nat} (h : ∀ t, (g t).w j = t.w j) : (s.when c g).w j = s.w j := by
  unfold State.when
  split
  · exact h s
  · rfl

/-- Beside CTRL, a write of a loop's register changes the coefficients and what HO_STAT shows, and no other register. -/
theorem State.w_loopEffect_other (n : Nat) {x : RegWrite} {j : Nat} (ctrl : x.off ≠ 0x04) (p : j ≠ LOOP.COEF_P n)
    (i : j ≠ LOOP.COEF_I n) (stat : j ≠ LOOP.HO_STAT n) : (s.loopEffect n x).w j = s.w j := by
  unfold State.loopEffect
  extract_lets o s1 s2
  have override : s2.w j = s.w j := (State.w_setf_other _ _ _ stat).trans (s.w_when_other _ fun _ => rfl)
  clear_value s2
  rw [if_neg ctrl]
  split
  next bw => rfl
  split
  next damp => exact (State.w_when_other _ (g := fun t => t.settleLoop n) _ fun _ => rfl).trans (s.w_refreshCoefs_other n p i)
  split
  next control =>
    split
    · exact override
    · exact (s2.w_setf_other _ _ stat).trans override
  split
  next model => exact s.w_setf_other _ _ stat
  split
  next temperature => exact State.w_setf_other _ _ _ stat
  next => rfl

/-- A loop's register that is plain, and that the effect of its write leaves. -/
def LoopReg (K n : Nat) : Prop :=
  PlainReg K ∧ K / 0x10000 = 0x40 + n ∧ K % 0x10000 ≠ 0x04 ∧ K ≠ LOOP.COEF_P n ∧ K ≠ LOOP.COEF_I n ∧ K ≠ LOOP.HO_STAT n

variable {s} {p : Port} {K n : Nat} {a : RegAcc}

/-- A performed write of such a register leaves it stored; its effect is that of the loop. -/
theorem State.performs.storedLoop (h : LoopReg K n) (hn : n < 32) (ok : s.performs p K a) :
    (s.hostWriteAt p K a).stored s p K a ∧
      ∃ (t : State) (x : RegWrite), t.now = s.now ∧ x.off = K % 0x10000 ∧ s.hostWriteAt p K a = t.loopEffect n x := by
  obtain ⟨plain, block, ctrl, cp, ci, stat⟩ := h
  obtain ⟨t, x, was, written, eq⟩ := s.written_of_performs plain ok
  have effect := t.regEffect_loop was hn (written.blk.trans block)
  have moved : Moves 0x6000004 t (t.loopEffect n x) := Moves.loopEffect (Moves.refl t) (Sub.refl _)
  rw [eq, effect]
  exact ⟨written.stored (keyAt_of_block p (by omega)) (moved.hostC rfl p) (t.w_loopEffect_other n (written.off ▸ ctrl) cp ci stat),
    t, x, written.now, written.off, rfl⟩

theorem loopReg_bw : ∀ n : Fin 32, LoopReg (LOOP.BW n) n := by
  unfold LoopReg PlainReg
  decide +kernel

theorem loopReg_slope : ∀ n : Fin 32, LoopReg (LOOP.SLOPE n) n := by
  unfold LoopReg PlainReg
  decide +kernel

theorem loopReg_freeFreq : ∀ n : Fin 32, LoopReg (LOOP.FREE_FREQ n) n := by
  unfold LoopReg PlainReg
  decide +kernel

theorem loopReg_damp : ∀ n : Fin 32, LoopReg (LOOP.DAMP n) n := by
  unfold LoopReg PlainReg
  decide +kernel

theorem loopReg_hoTemp : ∀ n : Fin 32, LoopReg (LOOP.HO_TEMP n) n := by
  unfold LoopReg PlainReg
  decide +kernel

theorem loopReg_hoCtrl : ∀ n : Fin 32, LoopReg (LOOP.HO_CTRL n) n := by
  unfold LoopReg PlainReg
  decide +kernel

theorem State.hoC_setf (t : State) (x : Fld) (v n : Nat) : (t.setf x v).hoC n = t.hoC n := rfl

theorem hoTemp_offset (n : Fin 32) : LOOP.HO_TEMP n % 0x10000 = 0x104 := by dsimp only [LOOP.HO_TEMP]; omega

/-- A host temperature is no longer stale (R273). -/
theorem State.loopEffect_hoTemp (t : State) (n : Nat) {x : RegWrite} (h : x.off = 0x104) :
    (t.loopEffect n x).f (LOOP.HO_STAT_TEMP_STALE n) = 0 ∧ ((t.loopEffect n x).hoC n).tempAt = t.now := by
  have effect : t.loopEffect n x = (t.modHo n (fun h => { h with tempAt := t.now })).setf (LOOP.HO_STAT_TEMP_STALE n) 0 := by
    unfold State.loopEffect
    dsimp only
    rw [h]
    rfl
  rw [effect]
  exact ⟨State.f_setf _ _ _ (Nat.le_of_ble_eq_true rfl), congrArg HoCore.tempAt ((State.hoC_setf _ _ _ n).trans (t.hoC_modHo n _))⟩

end

/-! DECIM and GATE of a landing. -/

section

variable (s : State)

theorem State.regEffect_landing (was : EntryKind) {x : RegWrite} {n : Nat} (hn : n < 32) (h : x.blk = 0x10 + n) :
    s.regEffect was x = s.lndEffect n was x := by
  have block : x.blk - 0x10 = n := by omega
  unfold State.regEffect
  dsimp only
  rw [block, if_neg (by omega), if_neg (by omega), if_neg (by omega), if_neg (by omega), if_pos (by omega)]

/-- A landing shows that its next results settle (R18). -/
def State.settlesFilter (n stamps : Nat) : State :=
  (s.modLnd n (fun c => { c with filtStamps := stamps, filtResults := 3 })).refreshSettling n

/-- A new DECIM or GATE makes results settle, and does nothing else (R186). -/
theorem State.lndEffect_filter (n : Nat) (was : EntryKind) {x : RegWrite} (h : x.off = 0x0C ∨ x.off = 0x10) :
    s.lndEffect n was x = s ∨ ∃ stamps, s.lndEffect n was x = s.settlesFilter n stamps := by
  unfold State.lndEffect
  dsimp only
  split
  next same => exact .inl rfl
  next new =>
    rcases h with decim | gate
    · rw [decim]
      exact .inr ⟨3, rfl⟩
    · rw [gate]
      exact .inr ⟨(s.lndC n).filtStamps, rfl⟩

theorem State.w_settlesFilter_other (n stamps : Nat) {j : Nat} (h : j ≠ LND.STATUS n) : (s.settlesFilter n stamps).w j = s.w j :=
  State.w_setf_other _ _ _ h

theorem State.hostC_settlesFilter (n stamps : Nat) (q : Port) : (s.settlesFilter n stamps).hostC q = s.hostC q := by
  have reach := Sub.refl 0x400004
  exact ((Moves.refl s).modLnd.refreshSettling : Moves 0x400004 s (s.settlesFilter n stamps)).hostC rfl q

theorem State.lndC_settlesFilter (n stamps : Nat) :
    (s.settlesFilter n stamps).lndC n = { s.lndC n with filtStamps := stamps, filtResults := 3 } :=
  (State.lndC_refreshSettling _ n n).trans (s.lndC_modLnd n _)

/-- DECIM or GATE of a landing: a plain register at one of their offsets. -/
def FilterReg (K n : Nat) : Prop :=
  PlainReg K ∧ K / 0x10000 = 0x10 + n ∧ (K % 0x10000 = 0x0C ∨ K % 0x10000 = 0x10) ∧ K ≠ LND.STATUS n

theorem filterReg_decim : ∀ n : Fin 32, FilterReg (LND.DECIM n) n := by
  unfold FilterReg PlainReg
  decide +kernel

theorem filterReg_gate : ∀ n : Fin 32, FilterReg (LND.GATE n) n := by
  unfold FilterReg PlainReg
  decide +kernel

variable {s} {p : Port} {K n : Nat} {a : RegAcc}

/-- A performed write of such a register leaves it stored, and what is in force as it was. -/
theorem State.performs.storedFilter (h : FilterReg K n) (hn : n < 32) (ok : s.performs p K a) :
    (s.hostWriteAt p K a).stored s p K a ∧ ((s.hostWriteAt p K a).lndC n).decim = (s.lndC n).decim ∧
      ((s.hostWriteAt p K a).lndC n).gateMs = (s.lndC n).gateMs ∧ ((s.hostWriteAt p K a).lndC n).gateOn = (s.lndC n).gateOn := by
  obtain ⟨plain, block, offset, status⟩ := h
  obtain ⟨t, x, was, written, eq⟩ := s.written_of_performs plain ok
  have key := keyAt_of_block p (K := K) (by omega)
  have core := State.lndC_congr s written.lnd n
  rw [eq, t.regEffect_landing was hn (written.blk.trans block), ← core]
  rcases t.lndEffect_filter n was (written.off ▸ offset) with same | ⟨stamps, settles⟩
  · rw [same]
    exact ⟨written.stored key rfl rfl, rfl, rfl, rfl⟩
  · rw [settles, State.lndC_settlesFilter]
    exact ⟨written.stored key (t.hostC_settlesFilter n stamps p) (t.w_settlesFilter_other n stamps status), rfl, rfl, rfl⟩

end

/-! A word of a route. -/

section

theorem State.regEffect_router (s : State) (was : EntryKind) {x : RegWrite} (h : x.blk = 0x0A) : s.regEffect was x = s := by
  simp [State.regEffect, h]

theorem plainReg_route (r : Fin 256) (w : Fin 3) :
    PlainReg (EVR.ROUTE_SRC r + 4 * w) ∧ (EVR.ROUTE_SRC r + 4 * w) / 0x10000 = 0x0A := by
  have block : (EVR.ROUTE_SRC r + 4 * w) / 0x10000 = 0x0A := by dsimp only [EVR.ROUTE_SRC]; omega
  have offset : (EVR.ROUTE_SRC r + 4 * w) % 0x10000 = 0x1000 + 16 * r + 4 * w := by dsimp only [EVR.ROUTE_SRC]; omega
  have lines : ∀ d ∈ blockRegs 0x0A ++ regsMSIX,
      d.plain = true ∨ d.off + d.count * d.stride ≤ 0x1000 ∨ 0x2000 ≤ d.off := by decide +kernel
  refine ⟨?_, block⟩
  unfold PlainReg
  rw [block, offset]
  refine ⟨by dsimp only [EVR.ROUTE_SRC]; omega, ?_, by omega, by omega, fun d hd covers => (lines d hd).resolve_right fun outside => ?_⟩
  · exact beq_eq_false_iff_ne.2 (by omega)
  · simp only [RegDef.covers, Bool.and_eq_true, decide_eq_true_eq] at covers
    omega

theorem State.performs.storedRoute {s : State} {p : Port} {r : Fin 256} {w : Fin 3} {a : RegAcc}
    (ok : s.performs p (EVR.ROUTE_SRC r + 4 * w) a) :
    (s.hostWriteAt p (EVR.ROUTE_SRC r + 4 * w) a).stored s p (EVR.ROUTE_SRC r + 4 * w) a := by
  obtain ⟨plain, block⟩ := plainReg_route r w
  obtain ⟨t, x, was, written, eq⟩ := s.written_of_performs plain ok
  rw [eq, t.regEffect_router was (written.blk.trans block)]
  exact written.stored (keyAt_of_block p (by omega)) rfl rfl

end

/-! The reference of the configuration check. -/

section

variable (s : State)

theorem State.regEffect_reference (was : EntryKind) {x : RegWrite} (b : x.blk = 1) (o : x.off = 0x104) :
    s.regEffect was x = s.refWritten := by
  simp [State.regEffect, State.hostEffect, b, o]

theorem State.w_refWritten_other {j : Nat} (h : j ≠ HOST.CFGCHK_STAT) : s.refWritten.w j = s.w j := by
  unfold State.refWritten
  exact (State.w_setf_other _ _ _ h).trans ((State.w_setf_other _ _ _ h).trans (State.w_setf_other _ _ _ h))

/-- DIRTY and MISMATCH fall, and COMPARING rises (R606). -/
theorem State.shows_refWritten : s.refWritten.f HOST.CFGCHK_STAT_DIRTY = 0 ∧ s.refWritten.f HOST.CFGCHK_STAT_MISMATCH = 0 ∧
    s.refWritten.f HOST.CFGCHK_STAT_COMPARING = 1 := by
  unfold State.refWritten
  refine ⟨?_, ?_, State.f_setf _ _ _ (by decide)⟩
  · rw [State.f_setf_bits _ _ _ _ (by decide) (by decide), State.f_setf_bits _ _ _ _ (by decide) (by decide),
      State.f_setf _ _ _ (by decide), Nat.zero_mod]
  · rw [State.f_setf_bits _ _ _ _ (by decide) (by decide), State.f_setf _ _ _ (by decide), Nat.zero_mod]

theorem plainReg_reference : PlainReg HOST.CFGCHK_REF := by
  unfold PlainReg
  decide +kernel

variable {s} {p : Port} {a : RegAcc}

theorem State.performs.writesReference (ok : s.performs p HOST.CFGCHK_REF a) :
    ∃ t : State, s.hostWriteAt p HOST.CFGCHK_REF a = t.refWritten ∧ t.refWritten.stored s p HOST.CFGCHK_REF a := by
  obtain ⟨t, x, was, written, eq⟩ := s.written_of_performs plainReg_reference ok
  have moved : Moves 0x2004 t t.refWritten := Moves.refWritten (Moves.refl t) (Sub.refl _)
  rw [t.regEffect_reference was written.blk written.off] at eq
  exact ⟨t, eq, written.stored rfl (moved.hostC rfl p) (t.w_refWritten_other (by decide))⟩

end

/-! Interrupt masks. -/

section

variable (s : State)

theorem State.regEffect_mask (was : EntryKind) {x : RegWrite} {k : Nat} (hk : k < 0x40) (b : x.blk = 2) (o : x.off = 0x100 + 4 * k) :
    s.regEffect was x = s.maskWritten x.port k x.old := by
  have word : (x.off - 0x100) / 4 = k := by omega
  unfold State.regEffect State.hostEffect
  dsimp only
  rw [word, if_pos (.inr b), if_pos b, if_pos (by omega)]

/-- A mask register after its write: source 65 stays unmasked (R681). -/
def State.maskKept (p : Port) (k : Nat) : State := if k = 2 then s.setf ⟨INTR.MASK p 2, 1, 1⟩ 0 else s

theorem State.w_forL_mem {α : Type} {g : State → α → State} {l : List α} {j : Nat} (h : ∀ t, ∀ x ∈ l, (g t x).w j = t.w j) :
    (s.forL l g).w j = s.w j := by
  unfold State.forL
  induction l generalizing s with
  | nil => rfl
  | cons x l ih => exact (ih _ fun t y hy => h t y (.tail _ hy)).trans (h s x (.head _))

/-- The messages of sources that become due leave the mask registers (R682). -/
theorem State.w_maskWritten (p : Port) (k old : Nat) {j : Nat} (h : j / 0x10000 ≠ 1) :
    (s.maskWritten p k old).w j = (s.maskKept p k).w j := by
  have sent : ∀ (t : State) (v : Nat), v < 0x40 → (t.message v).w j = t.w j := fun t v hv =>
    t.w_message_other v (by unfold msixPba; omega)
  unfold State.maskWritten
  extract_lets kept fresh vs
  split
  · rfl
  · refine kept.w_forL_mem fun t v hv => sent t v ?_
    exact of_decide_eq_true (List.mem_filter.1 (List.mem_eraseDups.1 hv)).2

/-- A bit of a register, as a field. -/
theorem State.bitAt_w (k i : Nat) : bitAt (s.w k) i = (s.f ⟨k, i, i⟩ == 1) := by
  simp [bitAt, State.f, Fld.width]

/-- Bit 1 of word 2 falls, and the other bits of a mask stay. -/
theorem State.bitAt_maskKept (p : Port) (k : Nat) {i : Nat} (hi : i < 32) :
    bitAt ((s.maskKept p k).w (INTR.MASK p k)) i = (bitAt (s.w (INTR.MASK p k)) i && !(k == 2 && i == 1)) := by
  unfold State.maskKept
  split
  next two =>
    subst two
    rw [State.bitAt_w, State.bitAt_w]
    by_cases one : i = 1
    · subst one
      rw [State.f_setf _ _ _ (Nat.le_of_ble_eq_true rfl)]
      simp
    · rw [State.f_setf_bits _ _ _ _ (Nat.le_of_ble_eq_true rfl) (by dsimp only [Fld.width]; omega)]
      simp [one]
  next other => simp [other]

theorem plainReg_mask : ∀ k : Fin 20, PlainReg (INTR.MASK .a k) := by
  unfold PlainReg
  decide +kernel

theorem mask_place (p : Port) (k : Fin 20) : INTR.MASK .a k / 0x10000 = 2 ∧ INTR.MASK .a k % 0x10000 = 0x100 + 4 * k ∧
    keyAt p (INTR.MASK .a k) = INTR.MASK p k ∧ INTR.MASK p k / 0x10000 ≠ 1 := by
  cases p <;> revert k <;> decide +kernel

variable {s} {p : Port} {k : Fin 20} {a : RegAcc}

theorem State.performs.writesMask (ok : s.performs p (INTR.MASK .a k) a) :
    ((s.hostWriteAt p (INTR.MASK .a k) a).hostC p).code = .ok ∧ ∀ i, i < 32 →
      bitAt ((s.hostWriteAt p (INTR.MASK .a k) a).w (INTR.MASK p k)) i =
        (bitAt (leaves a (s.w (INTR.MASK p k)) (s.mayWrite p (INTR.MASK .a k))) i && !(k.val == 2 && i == 1)) := by
  obtain ⟨block, offset, key, other⟩ := mask_place p k
  obtain ⟨t, x, was, written, eq⟩ := s.written_of_performs (plainReg_mask k) ok
  have word := written.word
  rw [key] at word
  have moved : Moves 0x1004 t (t.maskWritten p k x.old) := Moves.maskWritten (Moves.refl t) (Sub.refl _)
  rw [eq, t.regEffect_mask was (k := k) (by omega) (written.blk.trans block) (written.off.trans offset), written.port]
  refine ⟨(congrArg HostCore.code (moved.hostC rfl p)).trans written.code, fun i hi => ?_⟩
  rw [t.w_maskWritten p k x.old other, t.bitAt_maskKept p k hi, word]

end

/-! The commands. -/

section

variable (p : Port) (n : Fin 32) (a : RegAcc) (s : State)

theorem exec_lndDecimWrite : exec (.lndDecimWrite p n a) s = .next (s.hostWriteAt p (LND.DECIM n) a) := rfl
theorem exec_lndGateWrite : exec (.lndGateWrite p n a) s = .next (s.hostWriteAt p (LND.GATE n) a) := rfl
theorem exec_loopBwWrite : exec (.loopBwWrite p n a) s = .next (s.hostWriteAt p (LOOP.BW n) a) := rfl
theorem exec_loopSlopeWrite : exec (.loopSlopeWrite p n a) s = .next (s.hostWriteAt p (LOOP.SLOPE n) a) := rfl
theorem exec_loopFreeFreqWrite : exec (.loopFreeFreqWrite p n a) s = .next (s.hostWriteAt p (LOOP.FREE_FREQ n) a) := rfl
theorem exec_loopDampWrite : exec (.loopDampWrite p n a) s = .next (s.hostWriteAt p (LOOP.DAMP n) a) := rfl
theorem exec_hoTempWrite : exec (.hoTempWrite p n a) s = .next (s.hostWriteAt p (LOOP.HO_TEMP n) a) := rfl
theorem exec_hoOvrWrite : exec (.hoOvrWrite p n a) s = .next (s.hostWriteAt p (LOOP.HO_CTRL n) a) := rfl
theorem exec_cfgchkRefWrite : exec (.cfgchkRefWrite p a) s = .next (s.hostWriteAt p HOST.CFGCHK_REF a) := rfl

theorem exec_routeWrite (r : Fin 256) (w : Fin 3) :
    exec (.routeWrite p r w a) s = .next (s.hostWriteAt p (EVR.ROUTE_SRC r + 4 * w) a) := rfl

theorem exec_intrMaskWrite (k : Fin 20) : exec (.intrMaskWrite p k a) s = .next (s.hostWriteAt p (INTR.MASK .a k) a) := rfl

end

/-- Settles O15: each command writes a plain register, which holds what the write leaves once the effect of its block is over. -/
theorem registerCommandsStore : Obligations.RegisterCommandsStore := by
  unfold Obligations.RegisterCommandsStore
  refine ⟨?decim, ?gate, ?bw, ?slope, ?freeFreq, ?damp, ?hoTemp, ?hoCtrl, ?route, ?reference, ?mask⟩
  case decim =>
    intro p n a s ok
    obtain ⟨stored, decim, -, gateOn⟩ := ok.storedFilter (filterReg_decim n) n.isLt
    exact ⟨_, exec_lndDecimWrite p n a s, stored, decim, gateOn⟩
  case gate =>
    intro p n a s ok
    obtain ⟨stored, -, gateMs, gateOn⟩ := ok.storedFilter (filterReg_gate n) n.isLt
    exact ⟨_, exec_lndGateWrite p n a s, stored, gateMs, gateOn⟩
  case bw => exact fun p n a s ok => ⟨_, exec_loopBwWrite p n a s, (ok.storedLoop (loopReg_bw n) n.isLt).1⟩
  case slope => exact fun p n a s ok => ⟨_, exec_loopSlopeWrite p n a s, (ok.storedLoop (loopReg_slope n) n.isLt).1⟩
  case freeFreq => exact fun p n a s ok => ⟨_, exec_loopFreeFreqWrite p n a s, (ok.storedLoop (loopReg_freeFreq n) n.isLt).1⟩
  case damp => exact fun p n a s ok => ⟨_, exec_loopDampWrite p n a s, (ok.storedLoop (loopReg_damp n) n.isLt).1⟩
  case hoCtrl => exact fun p n a s ok => ⟨_, exec_hoOvrWrite p n a s, (ok.storedLoop (loopReg_hoCtrl n) n.isLt).1⟩
  case hoTemp =>
    intro p n a s ok
    obtain ⟨stored, t, x, now, offset, effect⟩ := ok.storedLoop (loopReg_hoTemp n) n.isLt
    obtain ⟨fresh, tempAt⟩ := t.loopEffect_hoTemp n (offset.trans (hoTemp_offset n))
    rw [← effect] at fresh tempAt
    exact ⟨_, exec_hoTempWrite p n a s, stored, fresh, tempAt.trans now⟩
  case route => exact fun p r w a s ok => ⟨_, exec_routeWrite p a s r w, ok.storedRoute⟩
  case reference =>
    intro p a s ok
    obtain ⟨t, effect, stored⟩ := ok.writesReference
    exact ⟨_, (exec_cfgchkRefWrite p a s).trans (congrArg _ effect), stored, t.shows_refWritten⟩
  case mask => exact fun p k a s ok => ⟨_, exec_intrMaskWrite p a s k, ok.writesMask⟩

end Sys2Proof.Machine
end

section
/-! PROOFS. Phase steps and the state record of a loop (O40): what STEP_LOAD, STEP_GO, STEP_CANCEL and FETCH leave, and that a command to a
loop that migrates waits. -/

set_option Elab.async false

namespace Sys2Proof.Machine

theorem exec_stepLoad (p : Port) (n : Fin 32) (s : State) :
    exec (.stepLoad p n) s = .next (s.doorbell p (LOOP.CMD n) false (fun s => s.loopCommand p n 1 (fun s => s.stepLoad p n))) := rfl
theorem exec_stepGo (p : Port) (n : Fin 32) (s : State) :
    exec (.stepGo p n) s = .next (s.doorbell p (LOOP.CMD n) false (fun s => s.loopCommand p n 2 (fun s => s.stepGo n))) := rfl
theorem exec_stepCancel (p : Port) (n : Fin 32) (s : State) :
    exec (.stepCancel p n) s = .next (s.doorbell p (LOOP.CMD n) false (fun s => s.loopCommand p n 3 (fun s => s.stepCancel n))) := rfl
theorem exec_stepPhaseTask (n : Fin 32) (s : State) : exec (.stepPhaseTask n) s = execStepPhaseTask n s := rfl
theorem exec_loopFetch (p : Port) (n : Fin 32) (s : State) : exec (.loopFetch p n) s =
    .next (s.doorbell p (LOOP.CMD n) false (fun s => s.loopCommand p n 0 (fun s => s.mboxOut p (s.loopRecord n)))) := rfl

section

variable (s : State)

theorem State.loopC_congr {t : State} (h : t.loop = s.loop) (n : Nat) : t.loopC n = s.loopC n := by
  unfold State.loopC
  rw [h]

theorem State.loopC_setf (x : Fld) (v n : Nat) : (s.setf x v).loopC n = s.loopC n := rfl

theorem State.loopC_status (p : Port) (c : Code) (n : Nat) : (s.status p c).loopC n = s.loopC n := s.loopC_congr (s.loop_status p c) n

theorem State.f_status (p : Port) (c : Code) (x : Fld) : (s.status p c).f x = s.f x := s.f_congr (s.regs_status p c) x

theorem State.mboxIn_status (p q : Port) (c : Code) (n : Nat) : (s.status p c).mboxIn q n = s.mboxIn q n := by
  cases p
  · rfl
  · rfl

theorem State.f_evIf_apart (c : Bool) (x : Fld) {y : Fld} (hx : x.lo < 32) (h : intrKey y.key = false) (apart : x.Apart y) :
    (s.evIf c x).f y = s.f y := by
  unfold State.evIf
  split
  · exact s.f_ev_apart x hx h apart
  · rfl

/-! Commands of a loop. -/

section

variable {s} {p : Port} {l n bit : Nat} {g : State → State}

theorem State.loopCommand_runs (free : (s.loopC l).mig = none) : s.loopCommand p l bit g = g s := by
  unfold State.loopCommand
  rw [free]
  rfl

theorem State.loopCommand_waits (moves : (s.loopC l).mig.isSome = true) :
    s.loopCommand p l bit g = s.modLoop l (fun c => { c with waiting := c.waiting ++ [(p, bit)] }) := if_pos moves

theorem State.takes.loopCommand_runs (ok : s.takes p (LOOP.CMD n) false) (free : (s.loopC n).mig = none) :
    s.doorbell p (LOOP.CMD n) false (fun s => s.loopCommand p n bit g) = g (s.status p .ok) := by
  obtain ⟨reached, check⟩ := ok
  rw [s.doorbell_ok _ reached check]
  exact State.loopCommand_runs (by rw [State.loopC_status]; exact free)

theorem State.takes.loopCommand_waits (ok : s.takes p (LOOP.CMD n) false) (moves : (s.loopC n).mig.isSome = true) :
    s.doorbell p (LOOP.CMD n) false (fun s => s.loopCommand p n bit g) =
      (s.status p .ok).modLoop n (fun c => { c with waiting := c.waiting ++ [(p, bit)] }) := by
  obtain ⟨reached, check⟩ := ok
  rw [s.doorbell_ok _ reached check]
  exact State.loopCommand_waits (by rw [State.loopC_status]; exact moves)

end

section

variable (l : Nat)

/-! The completion code, and what shows a remainder. -/

theorem Code.num_lt (c : Code) : c.num < 256 := by cases c <;> decide

theorem State.code_stepCode (c : Code) : (s.stepCode l c).f (LOOP.STEPSTAT_CODE l) = c.num :=
  (s.f_setf _ _ (Nat.le_of_ble_eq_true rfl)).trans (Nat.mod_eq_of_lt (Nat.lt_of_lt_of_le c.num_lt (Nat.le_of_ble_eq_true rfl)))

theorem State.w_stepCode_other (c : Code) {j : Nat} (h : j ≠ LOOP.STEPSTAT l) : (s.stepCode l c).w j = s.w j := s.w_setf_other _ _ h

theorem State.loop_stepCode (c : Code) : (s.stepCode l c).loop = s.loop := rfl

theorem State.loop_showStep : (s.showStep l).loop = s.loop := (State.loop_setb _ _ _).trans (State.loop_setSat _ _ _)

theorem State.slewing_showStep : (s.showStep l).f (LOOP.STATUS_SLEWING l) = b2n ((s.loopC l).rem != 0) :=
  State.f_setb _ _ _ (Nat.le_of_ble_eq_true rfl) (Nat.le_of_ble_eq_true rfl)

theorem State.f_showStep_other {y : Fld} (left : y.key ≠ LOOP.STEP_LEFT l) (slewing : (LOOP.STATUS_SLEWING l).Apart y) :
    (s.showStep l).f y = s.f y :=
  (State.f_setf_apart _ _ _ _ slewing).trans (s.f_setf_key _ _ _ left)

/-! The steps. -/

/-- STEP_LOAD of more than 500 µs. -/
theorem State.stepLoad_tooFar {p : Port} {ws : List Word} (filled : s.mboxIn p 2 = some ws)
    (far : 500000000000 < (toSigned 64 (ofWords ws)).natAbs) : s.stepLoad p l = s.stepCode l .badArgument := by
  unfold State.stepLoad
  rw [filled]
  dsimp only
  rw [if_pos far]

/-- The state in which an amount is armed. -/
def State.stepArmed (a : Int) : State :=
  ((s.evIf (s.loopC l).armed.isSome (LOOP.EVENT_STEP_REPLACED l)).modLoop l (fun c => { c with armed := some a })).setf (LOOP.STATUS_ARMED l) 1

theorem State.loopC_stepArmed (a : Int) : (s.stepArmed l a).loopC l = { s.loopC l with armed := some a } := by
  rw [State.stepArmed, State.loopC_setf, State.loopC_modLoop, State.loopC_congr s (State.loop_evIf _ _ _)]

theorem State.armed_stepArmed (a : Int) : (s.stepArmed l a).f (LOOP.STATUS_ARMED l) = 1 := State.f_setf _ _ _ (Nat.le_of_ble_eq_true rfl)

/-- STEP_LOAD of an amount within 500 µs that the time scale at a tied target would take. -/
theorem State.stepLoad_arms {p : Port} {ws : List Word} (filled : s.mboxIn p 2 = some ws)
    (near : (toSigned 64 (ofWords ws)).natAbs ≤ 500000000000)
    (tied : s.f (LOOP.CFG_TKIND l) = 2 →
      (toSigned 64 (ofWords ws)).natAbs ≤ (s.tscC (s.f (LOOP.CFG_TIDX l))).thresh * 1000000) :
    s.stepLoad p l = ((s.stepArmed l (toSigned 64 (ofWords ws))).mboxEmpty p).stepCode l .ok := by
  unfold State.stepLoad
  rw [filled]
  dsimp only
  rw [if_neg (by omega), if_neg]
  · rfl
  · simp only [Bool.and_eq_true, beq_iff_eq, decide_eq_true_eq, not_and]
    intro kind
    have := tied kind
    omega

/-- The state in which the armed amount has gone into the remainder. -/
def State.stepTaken (a : Int) : State :=
  ((s.modLoop l (fun c => { c with
    rem := c.rem + a, remPart := if c.rem + a = 0 then 0 else c.remPart, armed := none })).setf (LOOP.STATUS_ARMED l) 0).evIf
      ((s.loopC l).rem != 0 && (s.loopC l).rem + a == 0) (LOOP.EVENT_STEP_DONE l)

theorem State.loopC_stepTaken (a : Int) : (s.stepTaken l a).loopC l = { s.loopC l with
    rem := (s.loopC l).rem + a, remPart := if (s.loopC l).rem + a = 0 then 0 else (s.loopC l).remPart, armed := none } := by
  rw [State.stepTaken, State.loopC_congr _ (State.loop_evIf _ _ _), State.loopC_setf, State.loopC_modLoop]

/-- STEP_GO of an armed amount that fits. -/
theorem State.stepGo_takes {a : Int} (armed : (s.loopC l).armed = some a) (fits : ((s.loopC l).rem + a).natAbs ≤ 1000000000000) :
    s.stepGo l = ((s.stepTaken l a).showStep l).stepCode l .ok := by
  unfold State.stepGo
  dsimp only
  rw [armed]
  dsimp only
  rw [if_neg (by omega)]
  rfl

/-- The state in which nothing is left to slew or to apply. -/
def State.stepDropped : State :=
  (s.modLoop l (fun c => { c with rem := 0, remPart := 0, armed := none })).setf (LOOP.STATUS_ARMED l) 0

theorem State.stepCancel_eq :
    s.stepCancel l = ((s.stepDropped l).showStep l).evIf ((s.loopC l).rem != 0) (LOOP.EVENT_STEP_DONE l) := rfl

theorem State.loopC_stepDropped : (s.stepDropped l).loopC l = { s.loopC l with rem := 0, remPart := 0, armed := none } := by
  rw [State.stepDropped, State.loopC_setf, State.loopC_modLoop]

end

/-! What the steps leave. -/

section

variable {n : Nat}

theorem intrKey_loop {k : Nat} (a : 0x400000 ≤ k) (b : k < 0x600000) : intrKey k = false := intrKey_false (by omega) (by omega)

theorem State.stepLoad_refused {p : Port} {ws : List Word} (hn : n < 32) (filled : s.mboxIn p 2 = some ws)
    (far : 500000000000 < (toSigned 64 (ofWords ws)).natAbs) :
    (s.stepLoad p n).f (LOOP.STEPSTAT_CODE n) = Code.badArgument.num ∧ (s.stepLoad p n).loop = s.loop ∧
      (s.stepLoad p n).w (HOST.MBOX_STAT p) = s.w (HOST.MBOX_STAT p) := by
  rw [s.stepLoad_tooFar n filled far]
  refine ⟨s.code_stepCode n _, rfl, s.w_stepCode_other n _ ?_⟩
  cases p <;> dsimp only [HOST.MBOX_STAT, portBase, LOOP.STEPSTAT] <;> omega

theorem State.stepLoad_armed {p : Port} {ws : List Word} (hn : n < 32) (filled : s.mboxIn p 2 = some ws)
    (near : (toSigned 64 (ofWords ws)).natAbs ≤ 500000000000)
    (tied : s.f (LOOP.CFG_TKIND n) = 2 →
      (toSigned 64 (ofWords ws)).natAbs ≤ (s.tscC (s.f (LOOP.CFG_TIDX n))).thresh * 1000000) :
    ((s.stepLoad p n).loopC n).armed = some (toSigned 64 (ofWords ws)) ∧ (s.stepLoad p n).f (LOOP.STATUS_ARMED n) = 1 ∧
      (s.stepLoad p n).f (LOOP.STEPSTAT_CODE n) = 0 ∧ (s.stepLoad p n).w (HOST.MBOX_STAT p) = 0 := by
  have mbox : HOST.MBOX_STAT p ≠ LOOP.STEPSTAT n ∧ HOST.MBOX_STAT p ≠ LOOP.STATUS n := by
    cases p <;> dsimp only [HOST.MBOX_STAT, portBase, LOOP.STEPSTAT, LOOP.STATUS] <;> omega
  rw [s.stepLoad_arms n filled near tied]
  refine ⟨?_, ?_, State.code_stepCode _ n _, ?_⟩
  · rw [State.loopC_congr _ (State.loop_stepCode _ n _), State.loopC_congr _ (State.loop_mboxEmpty _ p), State.loopC_stepArmed]
  · rw [State.f_of_w _ _ (State.w_stepCode_other _ n .ok (by dsimp only [LOOP.STATUS, LOOP.STEPSTAT]; omega)),
      State.mboxEmpty, State.f_setw_other _ _ _ _ mbox.2.symm, State.armed_stepArmed]
  · rw [State.w_stepCode_other _ n _ mbox.1]
    exact State.w_setw_self _ _ _

theorem State.stepGo_taken {a : Int} (hn : n < 32) (armed : (s.loopC n).armed = some a)
    (fits : ((s.loopC n).rem + a).natAbs ≤ 1000000000000) :
    ((s.stepGo n).loopC n).rem = (s.loopC n).rem + a ∧ ((s.stepGo n).loopC n).armed = none ∧
      (s.stepGo n).f (LOOP.STATUS_ARMED n) = 0 ∧ (s.stepGo n).f (LOOP.STEPSTAT_CODE n) = 0 ∧ (s.stepGo n).tasks = s.tasks := by
  rw [s.stepGo_takes n armed fits]
  have core : ((((s.stepTaken n a).showStep n).stepCode n .ok).loopC n) = _ :=
    (State.loopC_congr _ ((State.loop_stepCode _ n _).trans (State.loop_showStep _ n)) n).trans (s.loopC_stepTaken n a)
  refine ⟨congrArg LoopCore.rem core, congrArg LoopCore.armed core, ?_, State.code_stepCode _ n _, State.tasks_evIf _ _ _⟩
  rw [State.f_of_w _ _ (State.w_stepCode_other _ n .ok (by dsimp only [LOOP.STATUS, LOOP.STEPSTAT]; omega)),
    State.f_showStep_other _ n (by dsimp only [LOOP.STATUS, LOOP.STEP_LEFT]; omega)
      (.inr ⟨Nat.le_of_ble_eq_true rfl, .inl (Nat.le_of_ble_eq_true rfl)⟩), State.stepTaken,
    State.f_evIf_apart _ _ _ (Nat.le_of_ble_eq_true rfl) (intrKey_loop (by dsimp only [LOOP.STATUS]; omega) (by dsimp only [LOOP.STATUS]; omega))
      (.inl (by dsimp only [LOOP.STATUS, LOOP.EVENT]; omega))]
  exact State.f_setf _ _ _ (Nat.le_of_ble_eq_true rfl)

theorem State.stepCancel_drops (hn : n < 32) :
    ((s.stepCancel n).loopC n).rem = 0 ∧ ((s.stepCancel n).loopC n).armed = none ∧ (s.stepCancel n).f (LOOP.STATUS_ARMED n) = 0 ∧
      (s.stepCancel n).f (LOOP.STATUS_SLEWING n) = 0 := by
  have core := s.loopC_stepDropped n
  have kept : (s.stepCancel n).loopC n = (s.stepDropped n).loopC n :=
    State.loopC_congr _ ((State.loop_evIf _ _ _).trans (State.loop_showStep _ n)) n
  have shown : ∀ x : Fld, x.key = LOOP.STATUS n → (s.stepCancel n).f x = ((s.stepDropped n).showStep n).f x := fun x key =>
    State.f_evIf_apart _ _ _ (Nat.le_of_ble_eq_true rfl)
      (by rw [key]; exact intrKey_loop (by dsimp only [LOOP.STATUS]; omega) (by dsimp only [LOOP.STATUS]; omega))
      (.inl (by rw [key]; dsimp only [LOOP.STATUS, LOOP.EVENT]; omega))
  rw [kept, core, shown _ rfl, shown _ rfl, State.slewing_showStep, core]
  refine ⟨rfl, rfl, ?_, rfl⟩
  rw [State.f_showStep_other _ n (by dsimp only [LOOP.STATUS, LOOP.STEP_LEFT]; omega)
      (.inr ⟨Nat.le_of_ble_eq_true rfl, .inl (Nat.le_of_ble_eq_true rfl)⟩)]
  exact State.f_setf _ _ _ (Nat.le_of_ble_eq_true rfl)

theorem State.execStepPhaseTask_of_pending {n : Fin 32} {r : TaskRun} {rs : List TaskRun} (pending : s.tasksC (taskKey (0x40 + n) 0) = r :: rs) :
    execStepPhaseTask n s = .next ((s.modTasks (taskKey (0x40 + n) 0) (fun _ => rs)).loopCommand .a n 2 (fun s => s.stepGo n)) := by
  unfold execStepPhaseTask State.takeRun
  rw [pending]

end

end

/-- Settles O40: each command runs on the loop as it stands, or joins those that wait while the loop migrates. -/
theorem loopStepsAndRecord : Obligations.LoopStepsAndRecord := by
  unfold Obligations.LoopStepsAndRecord
  refine ⟨?load, ?go, ?taskWaits, ?task, ?cancel, ?fetch, ?fetchWaits⟩
  case load =>
    intro p n ws s ok free filled
    refine ⟨_, (exec_stepLoad p n s).trans (congrArg _ (ok.loopCommand_runs free)), fun far => ?_, fun near tied => ?_⟩
    · rw [← s.loop_status p .ok, ← s.w_status p .ok]
      exact State.stepLoad_refused _ n.isLt (by rwa [State.mboxIn_status]) far
    · refine State.stepLoad_armed _ n.isLt (by rwa [State.mboxIn_status]) near ?_
      rw [State.f_status, State.f_status, State.tscC, State.tsc_status]
      exact tied
  case go =>
    intro p n a s ok free armed fits
    rw [← s.loopC_status p .ok] at armed fits ⊢
    obtain ⟨rem, rest, shown, code, -⟩ := State.stepGo_taken _ n.isLt armed fits
    exact ⟨_, (exec_stepGo p n s).trans (congrArg _ (ok.loopCommand_runs free)), rem, rest, shown, code⟩
  case taskWaits =>
    intro n r rs s pending moves
    refine ⟨_, (exec_stepPhaseTask n s).trans ((s.execStepPhaseTask_of_pending pending).trans
      (congrArg _ (State.loopCommand_waits moves))), s.tasksC_modTasks (taskKey (0x40 + n) 0) (fun _ => rs),
        (s.modTasks (taskKey (0x40 + n) 0) (fun _ => rs)).loopC_modLoop n _⟩
  case task =>
    intro n a r rs s pending free armed fits
    obtain ⟨rem, rest, -, code, tasks⟩ :=
      State.stepGo_taken (s.modTasks (taskKey (0x40 + n) 0) (fun _ => rs)) (n := n) n.isLt armed fits
    refine ⟨_, (exec_stepPhaseTask n s).trans ((s.execStepPhaseTask_of_pending pending).trans
      (congrArg _ (State.loopCommand_runs free))), ?_, rem, rest, code⟩
    unfold State.tasksC
    rw [tasks]
    exact s.tasksC_modTasks _ _
  case cancel =>
    intro p n s ok free
    exact ⟨_, (exec_stepCancel p n s).trans (congrArg _ (ok.loopCommand_runs free)), State.stepCancel_drops _ n.isLt⟩
  case fetch =>
    intro p n s ok free short
    refine ⟨_, (exec_loopFetch p n s).trans (congrArg _ (ok.loopCommand_runs free)), ?_, ?_⟩
    · rw [State.loopRecord, State.loopC_status]
      exact State.mboxHolds_mboxOut _ p _ short
    · rw [State.loop_mboxOut, State.loop_status]
  case fetchWaits =>
    intro p n s ok moves
    refine ⟨_, (exec_loopFetch p n s).trans (congrArg _ (ok.loopCommand_waits moves)), ?_, ?_⟩
    · rw [State.loopC_modLoop, State.loopC_status]
    · rw [State.regs_modLoop, State.regs_status]

end Sys2Proof.Machine
end

section
/-! PROOFS. Raw coefficients and combination weights (O17): a write of COEF_P or COEF_I is held, and one of WEIGHT[3] puts the held set in
force (log entry 67). -/

set_option Elab.async false

namespace Sys2Proof.Machine

theorem exec_loopCoefWrite (p : Port) (n : Fin 32) (integral : Bool) (a : RegAcc) (s : State) :
    exec (.loopCoefWrite p n integral a) s = .next (s.hostWriteAt p (if integral then LOOP.COEF_I n else LOOP.COEF_P n) a) := rfl
theorem exec_loopWeightCommit (p : Port) (n : Fin 32) (a : RegAcc) (s : State) :
    exec (.loopWeightCommit p n a) s = .next (s.hostWriteAt p (LOOP.WEIGHT n 3) a) := rfl

/-! A write of any control register. -/

/-- The address of the normal view of a register. -/
def NormalView (K : Nat) : Prop := K < 0x1000000 ∧ K % 0x10000 < 0x4000 ∧ K % 4 = 0

section

variable {K : Nat} (h : NormalView K) (a : RegAcc)
include h

theorem NormalView.addr : writeAddr a K < 0x1000000 ∧ writeAddr a K / 0x10000 = K / 0x10000 ∧ writeAddr a K % 4 = a.lane ∧
    writeAddr a K % 0x4000 - a.lane = K % 0x10000 ∧ writeAddr a K % 0x10000 / 0x4000 = quarterBase a.quarter / 0x4000 := by
  obtain ⟨inBar, normal, aligned⟩ := h
  unfold writeAddr
  have lane := a.lane.isLt
  cases a.quarter <;> dsimp only [quarterBase] <;> omega

theorem NormalView.toNat_addr : (writeAccess a K).addr.toNat = writeAddr a K :=
  (BitVec.toNat_ofNat _ _).trans (Nat.mod_eq_of_lt (h.addr a).1)

theorem NormalView.accessShape {p : Port} (width : a.width ≠ .b8) (wide : p = .b → a.width = .b4)
    (lanes : a.lane.val % a.width.bytes = 0) : accessShape p (writeAccess a K) = true := by
  obtain ⟨-, -, lane, -⟩ := h.addr a
  unfold Machine.accessShape
  rw [h.toNat_addr, Bool.and_eq_true, Bool.and_eq_true, Bool.or_eq_true]
  refine ⟨⟨beq_iff_eq.2 ?_, ?_⟩, ?_⟩
  · have few : a.width.bytes = 1 ∨ a.width.bytes = 2 ∨ a.width.bytes = 4 := by
      cases hw : a.width
      case b8 => exact absurd hw width
      all_goals decide
    rw [writeAccess]
    rcases few with bytes | bytes | bytes <;> rw [bytes] at lanes ⊢ <;> omega
  · rw [writeAccess]
    cases a.width <;> rfl
  · cases p
    · exact .inl rfl
    · exact .inr (beq_iff_eq.2 (wide rfl))

end

section

variable {s : State} {p : Port} {K : Nat} {a : RegAcc}

theorem State.regWrite_view (h : NormalView K) {d : RegDef} (found : s.regFind p (K / 0x10000) (K % 0x10000) = some d) :
    ∃ mask, s.regWrite d p (writeAddr a K) a.width.bytes a.data.toNat = s.writeAt p K a mask := by
  obtain ⟨-, block, lane, offset, quarter⟩ := h.addr a
  unfold State.regWrite State.writeAt leaves
  dsimp only
  rw [block, lane, offset, quarter, s.mayWrite_of_regFind found, and_laneMask]
  cases a.quarter <;> exact ⟨_, rfl⟩

/-- A write that passes its checks finds a table line, and takes effect if that is one of a control register. -/
theorem State.performs.control (h : NormalView K) (ok : s.performs p K a) :
    ∃ d, s.regFind p (K / 0x10000) (K % 0x10000) = some d ∧
      (d.status = false → ∃ mask, s.hostWriteAt p K a = (s.status p .ok).perform d (s.writeAt p K a mask)) := by
  obtain ⟨reached, width, wide, lanes, code⟩ := ok
  obtain ⟨-, block, lane, offset, -⟩ := h.addr a
  obtain ⟨d, found⟩ := s.regFind_of_writeCode code
  change s.writeCode p (writeAddr a K) _ _ = _ at code
  change s.regFind p (writeAddr a K / _) (writeAddr a K % _ - writeAddr a K % _) = _ at found
  rw [block, lane, offset] at found
  obtain ⟨mask, write⟩ := State.regWrite_view h (a := a) found
  refine ⟨d, found, fun control => ⟨mask, ?_⟩⟩
  rw [State.hostWriteAt_eq, s.hostWrite_of_ok reached (h.accessShape a width wide lanes) width (h.toNat_addr a ▸ code), h.toNat_addr,
    State.writeDone, block, lane, offset, State.regFind_status, found]
  dsimp only
  rw [control, if_neg Bool.false_ne_true, State.regWrite_status, ← write]
  rfl

/-- The table lines of a loop's registers. -/
theorem State.regFind_loop {n o : Nat} (hn : n < 32) {d : RegDef} (found : s.regFind p (0x40 + n) o = some d) :
    d ∈ regsLOOP ∧ d.covers n o = true := by
  have lines : blockRegs (0x40 + n) = regsLOOP ∧ blockFirst (0x40 + n) = 0x40 := by
    have all : ∀ n : Fin 32, blockRegs (0x40 + n) = regsLOOP ∧ blockFirst (0x40 + n) = 0x40 := by decide +kernel
    exact all ⟨n, hn⟩
  have window : ¬(0x24 ≤ 0x40 + n ∧ 0x40 + n ≤ 0x2D ∧ o = 8) := by omega
  have host : ¬(0x40 + n = 1 ∧ p = .a) := by omega
  unfold State.regFind at found
  dsimp only at found
  rw [if_neg window, if_neg host, lines.1, lines.2, Nat.add_sub_cancel_left, Option.ite_none_right_eq_some] at found
  have covers := List.find?_some found.2
  exact ⟨List.mem_of_find?_eq_some found.2, covers⟩

end

/-! Coefficients. -/

section

variable (s : State) (l : Nat) (x : RegWrite)

theorem State.loopC_settleLoop : (s.settleLoop l).loopC l = { s.loopC l with settle := 4 } := s.loopC_modLoop l _

/-- The state in which a raw coefficient is held. -/
def State.coefHeld : State := s.modLoop l (fun c =>
  if x.off = 0x50 then { c with rawP := some (BitVec.ofNat 32 x.new) } else { c with rawI := some (BitVec.ofNat 32 x.new) })

theorem State.coefWritten_eq : s.coefWritten l x =
    if s.on (LOOP.CTRL_RAW l) then ((s.coefHeld l x).setw x.key x.new).settleLoop l else s.coefHeld l x := rfl

theorem State.raws_coefWritten : ((s.coefWritten l x).loopC l).rawP = ((s.coefHeld l x).loopC l).rawP ∧
    ((s.coefWritten l x).loopC l).rawI = ((s.coefHeld l x).loopC l).rawI := by
  rw [State.coefWritten_eq]
  split
  · rw [State.loopC_settleLoop]
    exact ⟨rfl, rfl⟩
  · exact ⟨rfl, rfl⟩

theorem State.w_coefWritten (hx : x.new < 2 ^ 32) :
    (s.coefWritten l x).w x.key = if s.on (LOOP.CTRL_RAW l) then x.new else s.w x.key := by
  rw [State.coefWritten_eq]
  split
  · exact (State.w_setw_self _ _ _).trans (Nat.mod_eq_of_lt hx)
  · rfl

variable {s} {p : Port} {K n : Nat}

theorem wholeWord_leaves (v : Word) {old : Nat} (ho : old < 2 ^ 32) : leaves (wholeWord v.toNat) old (2 ^ 32 - 1) = v.toNat := by
  have data : (wholeWord v.toNat).data.toNat = v.toNat := by
    rw [wholeWord, BitVec.toNat_ofNat, Nat.mod_eq_of_lt (Nat.lt_trans v.isLt (by decide))]
  have lanes : 2 ^ 32 - 1 &&& laneMask 0 4 = 2 ^ 32 - 1 := by decide
  have drive : v.toNat % 2 ^ (8 * 4) * 2 ^ (8 * 0) = v.toNat := by have := v.isLt; omega
  unfold leaves
  rw [data]
  dsimp only [wholeWord, Width.bytes, Fin.val_zero]
  rw [lanes, drive, Nat.and_two_pow_sub_one_of_lt_two_pow ho, Nat.and_two_pow_sub_one_of_lt_two_pow v.isLt]
  omega

/-- COEF_P or COEF_I of a loop. -/
def CoefReg (K n : Nat) : Prop := NormalView K ∧ K / 0x10000 = 0x40 + n ∧ (K % 0x10000 = 0x50 ∨ K % 0x10000 = 0x54)

theorem coefReg_p (n : Fin 32) : CoefReg (LOOP.COEF_P n) n := by
  dsimp only [CoefReg, NormalView, LOOP.COEF_P]
  omega

theorem coefReg_i (n : Fin 32) : CoefReg (LOOP.COEF_I n) n := by
  dsimp only [CoefReg, NormalView, LOOP.COEF_I]
  omega

/-- Their table lines are those of control registers that may be written whole. -/
theorem coef_lines : ∀ n : Fin 32, ∀ d ∈ regsLOOP, d.covers n 0x50 = true ∨ d.covers n 0x54 = true →
    d.status = false ∧ d.writable false = 2 ^ 32 - 1 ∧ d.writable true = 2 ^ 32 - 1 := by decide +kernel

theorem State.perform_coef (hn : n < 32) (d : RegDef) (block : x.blk = 0x40 + n) (offset : x.off = 0x50 ∨ x.off = 0x54) :
    s.perform d x = s.coefWritten n x := by
  have bell : ∀ n : Fin 32, doorbellReg (0x40 + n) 0x50 = false ∧ doorbellReg (0x40 + n) 0x54 = false := by decide
  have quiet : doorbellReg x.blk x.off = false := by
    rw [block]
    rcases offset with o | o <;> rw [o]
    · exact (bell ⟨n, hn⟩).1
    · exact (bell ⟨n, hn⟩).2
  unfold State.perform
  rw [quiet, if_neg Bool.false_ne_true, if_neg (by omega), if_neg (by omega), if_pos (by omega), block, Nat.add_sub_cancel_left]

/-- A whole word written to a coefficient is held as it is. -/
theorem State.performs.writesCoef (h : CoefReg K n) (hn : n < 32) {v : Word} (ok : s.performs p K (wholeWord v.toNat)) :
    ∃ x : RegWrite, x.off = K % 0x10000 ∧ x.key = K ∧ x.new = v.toNat ∧
      s.hostWriteAt p K (wholeWord v.toNat) = (s.status p .ok).coefWritten n x := by
  obtain ⟨view, block, offset⟩ := h
  obtain ⟨d, found, perform⟩ := ok.control view
  have line := found
  rw [block] at line
  obtain ⟨listed, covers⟩ := State.regFind_loop hn line
  obtain ⟨control, loose, frozen⟩ := coef_lines ⟨n, hn⟩ d listed (by rcases offset with o | o <;> rw [o] at covers <;> simp [covers])
  have whole : s.mayWrite p K = 2 ^ 32 - 1 := by
    rw [s.mayWrite_of_regFind found]
    cases s.frozen (K / 0x10000) (K % 0x10000) <;> assumption
  obtain ⟨mask, write⟩ := perform control
  refine ⟨s.writeAt p K (wholeWord v.toNat) mask, rfl, keyAt_of_block p (by omega), ?_, write.trans (State.perform_coef _ hn d block offset)⟩
  rw [State.writeAt, whole]
  exact wholeWord_leaves v (s.w_lt _)

/-- What such a write leaves. -/
theorem State.performs.holdsCoef (h : CoefReg K n) (hn : n < 32) {v : Word} (ok : s.performs p K (wholeWord v.toNat)) :
    ((s.hostWriteAt p K (wholeWord v.toNat)).loopC n).rawP = (if K % 0x10000 = 0x50 then some v else (s.loopC n).rawP) ∧
      ((s.hostWriteAt p K (wholeWord v.toNat)).loopC n).rawI = (if K % 0x10000 = 0x50 then (s.loopC n).rawI else some v) ∧
      (s.hostWriteAt p K (wholeWord v.toNat)).w K = if s.on (LOOP.CTRL_RAW n) then v.toNat else s.w K := by
  obtain ⟨x, offset, key, new, write⟩ := ok.writesCoef h hn
  obtain ⟨rawP, rawI⟩ := (s.status p .ok).raws_coefWritten n x
  have word := (s.status p .ok).w_coefWritten n x (new ▸ v.isLt)
  rw [new, key, State.w_status, State.on_of_f s _ (s.f_status p .ok _)] at word
  rw [State.coefHeld, State.loopC_modLoop, State.loopC_status, new, offset, BitVec.ofNat_toNat, BitVec.setWidth_eq] at rawP rawI
  rw [write, rawP, rawI, word]
  split
  · exact ⟨rfl, rfl, rfl⟩
  · exact ⟨rfl, rfl, rfl⟩

end

/-! Weights. -/

section

variable (s : State) (l : Nat)

theorem State.w_dirty_other {j : Nat} (h : j ≠ HOST.CFGCHK_STAT) : s.dirty.w j = s.w j := by
  unfold State.dirty
  split
  · rfl
  · exact (State.w_setf_other _ _ _ h).trans (State.w_setf_other _ _ _ h)

theorem State.w_setChecked_self {k : Nat} (v : Nat) (h : k ≠ HOST.CFGCHK_STAT) : (s.setChecked k v).w k = v % 2 ^ 32 := by
  unfold State.setChecked
  split
  next same => rw [← same, Nat.mod_eq_of_lt (s.w_lt k)]
  next => rw [State.w_dirty_other _ h, State.w_setw_self]

theorem State.w_setChecked_other (k v : Nat) {j : Nat} (h : j ≠ k) (hc : j ≠ HOST.CFGCHK_STAT) : (s.setChecked k v).w j = s.w j := by
  unfold State.setChecked
  split
  · rfl
  · exact (State.w_dirty_other _ hc).trans (s.w_setw_other k v h)

/-- A weight is put in force. -/
def State.putWeight (j v : Nat) : State := s.setChecked (LOOP.WEIGHT l j) (s.w (LOOP.WEIGHT l j) - s.f (LOOP.WEIGHT_W l j) + v)

theorem weight_ne_check (j : Nat) : LOOP.WEIGHT l j ≠ HOST.CFGCHK_STAT := by
  dsimp only [LOOP.WEIGHT, HOST.CFGCHK_STAT]
  omega

theorem State.weight_putWeight (j v : Nat) : (s.putWeight l j v).f (LOOP.WEIGHT_W l j) = v % 2 ^ 16 := by
  unfold State.f State.putWeight
  rw [State.w_setChecked_self _ _ (weight_ne_check l j)]
  dsimp only [State.f, Fld.width]
  omega

theorem State.weight_putWeight_other (v : Nat) {i j : Nat} (h : i ≠ j) :
    (s.putWeight l j v).f (LOOP.WEIGHT_W l i) = s.f (LOOP.WEIGHT_W l i) :=
  State.f_of_w _ _ (s.w_setChecked_other _ _ (by dsimp only [LOOP.WEIGHT]; omega) (weight_ne_check l i))

theorem State.loop_putWeight (j v : Nat) : (s.putWeight l j v).loop = s.loop := s.loop_setChecked _ _

/-- The first weights of the held set are put in force one after another. -/
def State.putHeld (m : Nat) : State := s.forN m (fun s j => s.putWeight l j (s.heldWeight l j))

theorem State.putHeld_succ (m : Nat) :
    s.putHeld l (m + 1) = (s.putHeld l m).putWeight l m ((s.putHeld l m).heldWeight l m) := by
  unfold State.putHeld State.forN
  rw [List.range_succ, List.foldl_append]
  rfl

theorem State.loop_putHeld (m : Nat) : (s.putHeld l m).loop = s.loop := by
  induction m with
  | zero => rfl
  | succ m ih => rw [State.putHeld_succ, State.loop_putWeight, ih]

theorem State.heldWeight_congr {t : State} (h : t.loop = s.loop) {j : Nat} (w : t.f (LOOP.WEIGHT_W l j) = s.f (LOOP.WEIGHT_W l j)) :
    t.heldWeight l j = s.heldWeight l j := by
  unfold State.heldWeight
  rw [s.loopC_congr h, w]

theorem State.weight_putHeld (m j : Nat) : (s.putHeld l m).f (LOOP.WEIGHT_W l j) =
    if j < m then s.heldWeight l j % 2 ^ 16 else s.f (LOOP.WEIGHT_W l j) := by
  induction m with
  | zero => rfl
  | succ m ih =>
    rw [State.putHeld_succ]
    by_cases same : j = m
    · subst same
      rw [if_neg (Nat.lt_irrefl j)] at ih
      rw [State.weight_putWeight, if_pos (Nat.lt_succ_self j), s.heldWeight_congr l (s.loop_putHeld l j) ih]
    · rw [State.weight_putWeight_other _ _ _ same, ih]
      exact if_congr (by omega) rfl rfl

/-- A write of WEIGHT[3] puts the held set and its own weight in force, and empties the set. -/
theorem State.weightWritten_commits (x : RegWrite) : s.weightWritten l 3 x =
    ((s.putHeld l 3).putWeight l 3 (x.v 15 0)).modLoop l (fun c => { c with heldWeights := [none, none, none] }) := rfl

variable {s} {n : Nat} {p : Port} {a : RegAcc}

theorem State.perform_weight (hn : n < 32) (d : RegDef) {x : RegWrite} (block : x.blk = 0x40 + n) (offset : x.off = 0xCC) :
    s.perform d x = s.weightWritten n 3 x := by
  have bell : ∀ n : Fin 32, doorbellReg (0x40 + n) 0xCC = false := by decide
  unfold State.perform
  rw [block, offset, bell ⟨n, hn⟩, if_neg Bool.false_ne_true, if_neg (by omega), if_pos (by omega), Nat.add_sub_cancel_left]

theorem State.performs.writesWeights (hn : n < 32) (ok : s.performs p (LOOP.WEIGHT n 3) a) :
    ∃ x : RegWrite, x.new = leaves a (s.w (LOOP.WEIGHT n 3)) (s.mayWrite p (LOOP.WEIGHT n 3)) ∧
      s.hostWriteAt p (LOOP.WEIGHT n 3) a = (s.status p .ok).weightWritten n 3 x := by
  have control : ∀ n : Fin 32, ∀ d ∈ regsLOOP, d.covers n 0xCC = true → d.status = false := by decide +kernel
  have block : LOOP.WEIGHT n 3 / 0x10000 = 0x40 + n := by dsimp only [LOOP.WEIGHT]; omega
  have offset : LOOP.WEIGHT n 3 % 0x10000 = 0xCC := by dsimp only [LOOP.WEIGHT]; omega
  obtain ⟨d, found, perform⟩ := ok.control (by dsimp only [NormalView, LOOP.WEIGHT]; omega)
  rw [block, offset] at found
  obtain ⟨listed, covers⟩ := State.regFind_loop hn found
  obtain ⟨mask, write⟩ := perform (control ⟨n, hn⟩ d listed covers)
  refine ⟨_, ?_, write.trans (State.perform_weight hn d block offset)⟩
  rw [State.writeAt, keyAt_of_block p (by omega)]

end

/-- Settles O17: a coefficient is held as it is written, and WEIGHT[3] puts what `putHeld` and its own write leave in force. -/
theorem coefficientsAndWeights : Obligations.CoefficientsAndWeights := by
  unfold Obligations.CoefficientsAndWeights
  refine ⟨?proportional, ?integral, ?weights⟩
  case proportional =>
    intro p n v s ok
    obtain ⟨rawP, rawI, word⟩ := ok.holdsCoef (coefReg_p n) n.isLt
    have offset : LOOP.COEF_P n % 0x10000 = 0x50 := by dsimp only [LOOP.COEF_P]; omega
    rw [if_pos offset] at rawP rawI
    exact ⟨_, exec_loopCoefWrite p n false _ s, rawP, rawI, word⟩
  case integral =>
    intro p n v s ok
    obtain ⟨rawP, rawI, word⟩ := ok.holdsCoef (coefReg_i n) n.isLt
    have offset : LOOP.COEF_I n % 0x10000 ≠ 0x50 := by dsimp only [LOOP.COEF_I]; omega
    rw [if_neg offset] at rawP rawI
    exact ⟨_, exec_loopCoefWrite p n true _ s, rawI, rawP, word⟩
  case weights =>
    intro p n a s ok
    obtain ⟨x, new, write⟩ := ok.writesWeights n.isLt
    refine ⟨_, (exec_loopWeightCommit p n a s).trans (congrArg _ (write.trans (State.weightWritten_commits _ n x))), ?_, fun j hj => ?_, ?_⟩
    · rw [State.loopC_modLoop]
    · rw [← s.heldWeight_congr n (s.loop_status p .ok) (s.f_status p .ok _), State.f_congr _ (State.regs_modLoop _ _ _),
        State.weight_putWeight_other _ _ _ (by omega)]
      exact (State.weight_putHeld _ n 3 j).trans (if_pos hj)
    · rw [State.f_congr _ (State.regs_modLoop _ _ _), State.weight_putWeight, RegWrite.v, new]
      exact (Nat.mod_mod _ _).trans (congrArg (· % 0x10000) (Nat.div_one _))

end Sys2Proof.Machine
end

section
/-! PROOFS. What an update of a loop leaves of the loop's numbers and of what shows it: gears, lock, target and checkpoint beside them (O39). -/

set_option Elab.async false

namespace Sys2Proof.Machine

/-! Gears. -/

/-- A view of a loop that leaves out what gears are made of. -/
def LoopCore.BlindToGears {α : Type} (v : LoopCore → α) : Prop := ∀ (c : LoopCore) (settle bw gear gearAt gearEnd f0 : Nat),
  v { c with settle := settle, bw := bw, gear := gear, gearAt := gearAt, gearEnd := gearEnd, f0 := f0 } = v c

section

variable (s : State) (l : Nat)

theorem State.loopC_setBw (bw : Nat) : (s.setBw l bw).loopC l = { s.loopC l with
    settle := if (s.loopC l).bw = bw ∨ (s.loopC l).bw = 0 ∨ s.on (LOOP.CTRL_RAW l) then (s.loopC l).settle else 4, bw := bw } :=
  s.loopC_modLoop l _

/-- STATUS shows a gear. -/
def State.gearShown (gear : Nat) (final : Bool) : State := (s.setf (LOOP.STATUS_GEAR l) (min gear 7)).setb (LOOP.STATUS_FINAL l) final

/-- A gear comes into force, before EVENT.GEAR_DONE tells of a final one. -/
def State.gearTaken (gear bw dwell : Nat) (final : Bool) : State :=
  ((s.gearShown l gear final).setBw l bw).modLoop l (fun c => { c with gear := gear, gearAt := s.now, gearEnd := s.now + dwell })

theorem State.setGear_eq (gear bw dwell : Nat) (final : Bool) :
    s.setGear l gear bw dwell final = (s.gearTaken l gear bw dwell final).evIf final (LOOP.EVENT_GEAR_DONE l) := rfl

theorem State.loopC_setGear (gear bw dwell : Nat) (final : Bool) : (s.setGear l gear bw dwell final).loopC l =
    { ((s.gearShown l gear final).setBw l bw).loopC l with gear := gear, gearAt := s.now, gearEnd := s.now + dwell } := by
  rw [State.setGear_eq, State.loopC_congr _ (State.loop_evIf _ _ _), State.gearTaken, State.loopC_modLoop]

section

variable {α : Type} {v : LoopCore → α} (blind : LoopCore.BlindToGears v)
include blind

theorem State.view_setBw (bw : Nat) : v ((s.setBw l bw).loopC l) = v (s.loopC l) := by
  rw [State.loopC_setBw]
  exact blind (s.loopC l) _ _ _ _ _ _

theorem State.view_setGear (gear bw dwell : Nat) (final : Bool) : v ((s.setGear l gear bw dwell final).loopC l) = v (s.loopC l) := by
  rw [State.loopC_setGear, State.loopC_setBw]
  exact blind (s.loopC l) _ _ _ _ _ _

theorem State.view_finalGear (gear : Nat) : v ((s.finalGear l gear).loopC l) = v (s.loopC l) := s.view_setGear l blind _ _ _ _

theorem State.view_autoGear (k : Nat) : v ((s.autoGear l k).loopC l) = v (s.loopC l) := by
  unfold State.autoGear
  dsimp only
  split
  · exact s.view_finalGear l blind k
  · exact s.view_setGear l blind _ _ _ _

theorem State.view_manGear (k : Nat) : v ((s.manGear l k).loopC l) = v (s.loopC l) := by
  unfold State.manGear
  dsimp only
  split
  · exact s.view_finalGear l blind _
  · exact s.view_setGear l blind _ _ _ _

theorem State.view_startGears : v ((s.startGears l).loopC l) = v (s.loopC l) := by
  unfold State.startGears
  split
  · exact s.view_manGear l blind 0
  split
  · rw [State.view_autoGear _ l blind, State.loopC_modLoop]
    exact blind (s.loopC l) _ _ _ _ _ _
  · exact s.view_finalGear l blind 0

end

end

/-! The input of an update. -/

/-- What a loop holds of its intervals, and whether it waits for a departure. -/
structure LoopCore.Course where
  lastB : Nat
  acc : List Sample
  seq : Nat
  depart : Bool

/-- See `LoopCore.Course`. -/
def LoopCore.course (c : LoopCore) : LoopCore.Course := ⟨c.lastB, c.acc, c.seq, c.depart⟩

theorem LoopCore.course_blind : LoopCore.BlindToGears LoopCore.course := fun _ _ _ _ _ _ _ => rfl

section

variable (s : State) (l : Nat)

/-- What changes a loop outside its course leaves it. -/
theorem State.course_modLoop {g : LoopCore → LoopCore} (h : ∀ c, (g c).course = c.course) :
    ((s.modLoop l g).loopC l).course = (s.loopC l).course := by
  rw [State.loopC_modLoop, h]

theorem State.course_bwAtBoundary : ((s.bwAtBoundary l).loopC l).course = (s.loopC l).course := by
  have told := s.course_modLoop l (g := fun c => { c with bwNew := false }) fun _ => rfl
  unfold State.bwAtBoundary
  dsimp only
  split
  · rw [State.view_setBw _ l LoopCore.course_blind, told]
  split
  · rw [State.view_finalGear _ l LoopCore.course_blind, told]
  · exact told

theorem State.course_followSources : ((s.followSources l).loopC l).course = (s.loopC l).course := by
  unfold State.followSources
  dsimp only
  split
  · exact State.view_finalGear _ l LoopCore.course_blind 0
  split
  · exact State.view_startGears _ l LoopCore.course_blind
  · rfl

theorem State.course_weightsAtBoundary (xs : List Sample) : ((s.weightsAtBoundary l xs).loopC l).course = (s.loopC l).course := by
  unfold State.weightsAtBoundary
  extract_lets old new before s1 d
  have changed : (s1.loopC l).course = (s.loopC l).course := s.course_modLoop l fun _ => rfl
  split
  · rfl
  split
  · exact changed
  · exact (s1.course_modLoop l (g := fun c => { c with bo := c.bo + d }) fun _ => rfl).trans changed

theorem State.loop_refreshCoefs : (s.refreshCoefs l).loop = s.loop := by
  unfold State.refreshCoefs
  split
  · rfl
  · exact (State.loop_setw _ _ _).trans (s.loop_setw _ _)

theorem State.course_atBoundary (xs : List Sample) : ((s.atBoundary l xs).loopC l).course = (s.loopC l).course := by
  unfold State.atBoundary
  dsimp only
  rw [State.loopC_congr _ (State.loop_refreshCoefs _ l)]
  split
  · exact s.course_bwAtBoundary l
  · rw [State.course_weightsAtBoundary, State.course_followSources, State.course_bwAtBoundary]

theorem Unwrap.course_step (decim : Nat) (pn : Int) (h : Nat) (u : Unwrap) (x : Sample) :
    (u.step decim pn h x).core.course = u.core.course := by
  unfold Unwrap.step
  dsimp only
  split
  · rfl
  split
  · rfl
  split
  · rfl
  · rfl

theorem Unwrap.course_foldl (decim : Nat) (pn : Int) (h : Nat) (u : Unwrap) (xs : List Sample) :
    (xs.foldl (Unwrap.step decim pn h) u).core.course = u.core.course := by
  induction xs generalizing u with
  | nil => rfl
  | cons x xs ih => exact (ih _).trans (u.course_step decim pn h x)

theorem State.course_meanError (n k : Nat) (xs : List Sample) : ((s.meanError n k l xs).1.loopC l).course = (s.loopC l).course := by
  unfold State.meanError
  split
  · rfl
  extract_lets m h c0 c u s1 s2
  split
  · rfl
  have kept : c.course = c0.course := by
    unfold c
    split
    · rfl
    · rfl
  rw [State.loopC_congr s1 ((State.loop_evIf _ _ _).trans (State.loop_incBy _ _ _)), State.loopC_modLoop]
  exact (Unwrap.course_foldl _ _ _ _ _).trans kept

theorem State.course_phaseSample (xs : List Sample) : ((s.phaseSample l xs).1.loopC l).course = (s.loopC l).course := by
  unfold State.phaseSample
  extract_lets tag e ls
  split
  next n _ =>
    split
    · have mean := s.course_meanError l n (s.loopC l).entry xs
      split
      next t _ found => rwa [found] at mean
      next t found => rwa [found] at mean
    · rfl
  · split
    · rfl
    split
    · rfl
    · rfl

theorem State.course_freezeSettle (settled : Bool) (tag : Tag) :
    ((s.freezeSettle l settled tag).1.loopC l).course = (s.loopC l).course := by
  unfold State.freezeSettle
  split
  · exact s.course_modLoop l fun _ => rfl
  · rfl

theorem State.course_retakeWord : ((s.retakeWord l).loopC l).course = (s.loopC l).course := s.course_modLoop l fun _ => rfl

/-- An update's input has its boundary, and leaves the samples, the count and the order to depart. -/
theorem State.course_updateInput (b : Nat) (xs : List Sample) :
    ((s.updateInput l b xs).1.loopC l).course = ⟨b, (s.loopC l).acc, (s.loopC l).seq, (s.loopC l).depart⟩ := by
  unfold State.updateInput
  extract_lets settled s1
  have begun : (s1.loopC l).course = ⟨b, (s.loopC l).acc, (s.loopC l).seq, (s.loopC l).depart⟩ :=
    (State.course_atBoundary _ l xs).trans (congrArg LoopCore.course (s.loopC_modLoop l _))
  have sampled := s1.course_phaseSample l xs
  generalize s1.phaseSample l xs = r at sampled ⊢
  obtain ⟨s2, tag2, err⟩ := r
  have tagged := s2.course_freezeSettle l settled tag2
  dsimp only
  generalize s2.freezeSettle l settled tag2 = q at tagged ⊢
  obtain ⟨s3, tag⟩ := q
  dsimp only at sampled tagged ⊢
  have all := tagged.trans (sampled.trans begun)
  split
  · exact (s3.course_retakeWord l).trans all
  · exact all

end

/-! What the router, the banks and the time scales leave of the loops' registers. -/

section

variable (s : State) {j : Nat}

theorem State.w_route_loop (e : Nat) (a : 0x400000 ≤ j) (b : j < 0x600000) : (s.route e).w j = s.w j := by
  refine s.w_route_other e ?_
  unfold reportKey
  rw [intrKey_loop a b, Bool.false_or, Bool.or_eq_false_iff, Bool.and_eq_false_iff, Bool.and_eq_false_iff]
  simp only [decide_eq_false_iff_not]
  omega

theorem State.w_eccWrite_loop (i : Nat) (a : 0x400000 ≤ j) (b : j < 0x600000) : (s.eccWrite i).w j = s.w j :=
  s.w_eccWrite_other i (intrKey_loop a b) (by dsimp only [FLT.STATUS]; omega) (by dsimp only [FLT.EVENT]; omega)

theorem State.w_refuse_loop (k : Nat) (src : CorrSource) (size : Nat) (a : 0x400000 ≤ j) (b : j < 0x600000) :
    (s.refuse k src size).w j = s.w j := by
  have other : j ≠ TSC.REFUSALS k ∧ j ≠ TSC.EVENT k := by dsimp only [TSC.REFUSALS, TSC.EVENT]; omega
  unfold State.refuse
  dsimp only
  rw [State.w_congr _ (State.regs_logDev _ _ _), State.w_route_loop _ _ a b,
    State.w_ev_other _ _ (Nat.le_of_ble_eq_true rfl) (intrKey_loop a b) other.2]
  exact (State.w_setf_other _ _ _ other.1).trans ((State.w_setf_other _ _ _ other.1).trans (s.w_setf_other _ _ other.1))

theorem State.w_tiedWord_loop (k : Nat) (w : Int) (a : 0x400000 ≤ j) (b : j < 0x600000) : (s.tiedWord k w).w j = s.w j := by
  unfold State.tiedWord State.tryInc
  extract_lets dy
  split
  · exact State.w_setf_other _ _ _ (by dsimp only [TSC.INC32]; omega)
  · exact s.w_refuse_loop k _ _ a b

theorem State.w_bankWrite_loop (i : Nat) (bs : List Byte) (a : 0x400000 ≤ j) (b : j < 0x600000) : (s.bankWrite i bs).w j = s.w j :=
  (State.w_forL_other _ _ fun t x => t.w_eccWrite_loop x a b).trans rfl

/-- All parts of the state but the loops, which are part 25 (`Part.index`). -/
def besideLoops : Nat := 0xFFDFFFFFF

/-- An operation that reaches no loop, by the laws of `Moves`, which look for a bound of their parts in the context. -/
theorem State.loop_beside {s t : State}
    (m : Sub besideLoops besideLoops → Moves besideLoops s s → Moves besideLoops s t) : t.loop = s.loop :=
  (m (.refl _) (.refl s)).p25 rfl

theorem State.loop_tiedWord (k : Nat) (w : Int) : (s.tiedWord k w).loop = s.loop := State.loop_beside fun _ m => m.tiedWord

theorem State.loop_workWrite (e : Nat) : (s.workWrite e).loop = s.loop := State.loop_beside fun _ m => m.workWrite

theorem State.loop_checkpoint (l : Nat) (c : Bool) : (s.checkpoint l c).loop = s.loop := State.loop_beside fun _ m => m.checkpoint

end

end Sys2Proof.Machine
end

section
/-! PROOFS. Updates of a loop, lock and gears (O39): an update takes effect, is held back by a freeze or a migration; the dwells of lock and
gears end. -/

set_option Elab.async false

namespace Sys2Proof.Machine

theorem exec_loopUpdate (n : Fin 32) (chk : CheckOutcome) (s : State) : exec (.loopUpdate n chk) s = .next (s.loopUpdate n chk) := rfl
theorem exec_lockDwellExpiry (n : Fin 32) (s : State) : exec (.lockDwellExpiry n) s = execLockDwellExpiry n s := rfl
theorem exec_gearDwellExpiry (n : Fin 32) (s : State) : exec (.gearDwellExpiry n) s = execGearDwellExpiry n s := rfl

/-- The numbers that an update gives a loop. -/
structure LoopCore.Numbers where
  yI : Int
  uc : Int
  sl : Int
  rem : Int
  remPart : Int
  bo : Int
  lastB : Nat
  acc : List Sample
  seq : Nat

/-- See `LoopCore.Numbers`. -/
def LoopCore.numbers (c : LoopCore) : LoopCore.Numbers := ⟨c.yI, c.uc, c.sl, c.rem, c.remPart, c.bo, c.lastB, c.acc, c.seq⟩

theorem LoopCore.numbers_blind : LoopCore.BlindToGears LoopCore.numbers := fun _ _ _ _ _ _ _ => rfl

/-- The fields that show the tag of an update and the end of a freeze. -/
def Shown (l : Nat) (y : Fld) : Prop := y = LOOP.STATUS_TAG l ∨ y = LOOP.STATUS_FROZEN l ∨ y = LOOP.EVENT_SWITCHED l

/-- A field of the loops that shows neither. -/
def Spares (l : Nat) (x : Fld) : Prop := x.key ≠ LOOP.STATUS l ∧ x.key ≠ LOOP.EVENT l ∨
  x.key = LOOP.STATUS l ∧ x.lo ≤ x.hi ∧ (x.hi < 4 ∨ 4 < x.lo ∧ x.hi < 30) ∨ x.key = LOOP.EVENT l ∧ x.lo ≤ x.hi ∧ x.hi < 32 ∧ (x.hi < 5 ∨ 5 < x.lo)

theorem Spares.apart {l : Nat} {x y : Fld} (h : Spares l x) (shown : Shown l y) : x.Apart y := by
  rcases shown with rfl | rfl | rfl <;> unfold Spares at h <;> dsimp only [Fld.Apart, Fld.width, LOOP.STATUS, LOOP.EVENT] at * <;> omega

theorem Shown.key {l : Nat} {y : Fld} (shown : Shown l y) (hl : l < 32) : 0x400000 ≤ y.key ∧ y.key < 0x600000 := by
  rcases shown with rfl | rfl | rfl <;> dsimp only [LOOP.STATUS, LOOP.EVENT] <;> omega

/-- The second state has the numbers of loop `l`, its tag and its freeze from the first. -/
structure State.SameUpdate (l : Nat) (s t : State) : Prop where
  numbers : (t.loopC l).numbers = (s.loopC l).numbers
  shown : ∀ y, Shown l y → t.f y = s.f y

/-- A loop has lost lock (R251, R254): it acquires in the final gear. -/
def State.losesLock (s : State) (l : Nat) : State :=
  let s := (s.setf (LOOP.STATUS_STATE l) 1).modLoop l (fun c => { c with lockBad := 0, lockSince := none })
  let s := s.modHo l (fun h => { h with acquiring := true, locked := false, returning := false })
  let s := s.when (!s.on (LOOP.STATUS_FINAL l)) (fun s => s.finalGear l (s.loopC l).gear)
  (s.ev (LOOP.EVENT_LOCK_LOST l)).route (0x060 + l)

namespace State.SameUpdate

variable {l : Nat} {tag : Tag} {s0 s t : State}

theorem refl (s : State) : s.SameUpdate l s := ⟨rfl, fun _ _ => rfl⟩

/-- What writes no register and no loop. -/
theorem core (h : s0.SameUpdate l s) (loop : t.loop = s.loop) (regs : t.regs = s.regs) : s0.SameUpdate l t where
  numbers := (congrArg LoopCore.numbers (s.loopC_congr loop l)).trans h.numbers
  shown y hy := (s.f_congr regs y).trans (h.shown y hy)

/-- What writes no loop and no register of a loop. -/
theorem beside (h : s0.SameUpdate l s) (hl : l < 32) (loop : t.loop = s.loop)
    (regs : ∀ j, 0x400000 ≤ j → j < 0x600000 → t.w j = s.w j) : s0.SameUpdate l t where
  numbers := (congrArg LoopCore.numbers (s.loopC_congr loop l)).trans h.numbers
  shown y hy := (s.f_of_w y (regs _ (hy.key hl).1 (hy.key hl).2)).trans (h.shown y hy)

theorem modLoop (h : s0.SameUpdate l s) {g : LoopCore → LoopCore} (k : ∀ c, (g c).numbers = c.numbers) :
    s0.SameUpdate l (s.modLoop l g) where
  numbers := (congrArg LoopCore.numbers (s.loopC_modLoop l g)).trans ((k _).trans h.numbers)
  shown := h.shown

theorem setf (h : s0.SameUpdate l s) {x : Fld} {v : Nat}
    (hx : Spares l x := by
      dsimp only [Spares, LOOP.STATUS, LOOP.EVENT, LOOP.PHERR, LOOP.FREQ32, LOOP.STEP_LEFT, LOOP.BUILDOUT]; omega) :
    s0.SameUpdate l (s.setf x v) where
  numbers := h.numbers
  shown y hy := (s.f_setf_apart x y v (hx.apart hy)).trans (h.shown y hy)

theorem ev (h : s0.SameUpdate l s) (hl : l < 32) {x : Fld} (hi : x.lo < 32 := by exact Nat.le_of_ble_eq_true rfl)
    (hx : Spares l x := by dsimp only [Spares, LOOP.STATUS, LOOP.EVENT]; omega) : s0.SameUpdate l (s.ev x) where
  numbers := (congrArg LoopCore.numbers (s.loopC_congr (s.loop_ev x) l)).trans h.numbers
  shown y hy := (s.f_ev_apart x hi (intrKey_loop (hy.key hl).1 (hy.key hl).2) (hx.apart hy)).trans (h.shown y hy)

theorem ite {c : Prop} [Decidable c] (h : s0.SameUpdate l s) (k : s0.SameUpdate l t) : s0.SameUpdate l (if c then s else t) := by
  split
  · exact h
  · exact k

theorem evIf (h : s0.SameUpdate l s) (hl : l < 32) {c : Bool} {x : Fld} (hi : x.lo < 32 := by exact Nat.le_of_ble_eq_true rfl)
    (hx : Spares l x := by dsimp only [Spares, LOOP.STATUS, LOOP.EVENT]; omega) : s0.SameUpdate l (s.evIf c x) :=
  .ite (h.ev hl hi hx) h

theorem route (h : s0.SameUpdate l s) (hl : l < 32) {e : Nat} : s0.SameUpdate l (s.route e) :=
  h.beside hl (s.loop_route e) fun _ a b => s.w_route_loop e a b

theorem setBw (h : s0.SameUpdate l s) {bw : Nat} : s0.SameUpdate l (s.setBw l bw) := by
  unfold State.setBw
  exact h.modLoop fun _ => rfl

theorem finalGear (h : s0.SameUpdate l s) (hl : l < 32) {gear : Nat} : s0.SameUpdate l (s.finalGear l gear) := by
  have shown : s0.SameUpdate l (s.gearShown l gear true) := h.setf.setf
  have taken : s0.SameUpdate l (s.gearTaken l gear (s.finalBw l) 0 true) := by
    unfold State.gearTaken
    exact shown.setBw.modLoop fun _ => rfl
  rw [State.finalGear, State.setGear_eq]
  exact taken.evIf hl

/-! The parts of an update. -/

theorem setSat (h : s0.SameUpdate l s) {x : Fld} {i : Int}
    (hx : Spares l x := by
      dsimp only [Spares, LOOP.STATUS, LOOP.EVENT, LOOP.PHERR, LOOP.FREQ32, LOOP.STEP_LEFT, LOOP.BUILDOUT]; omega) :
    s0.SameUpdate l (s.setSat x i) := h.setf hx

theorem showUpdate (h : s0.SameUpdate l (s.setf (LOOP.STATUS_TAG l) tag.num)) (hl : l < 32) {e1 : Int} {u : Upd} {had : Bool} :
    s0.SameUpdate l (s.showUpdate l tag e1 u had) := by
  unfold State.showUpdate
  extract_lets s1 s2 s3 s4 s5 s6 s7 s8
  have h3 : s0.SameUpdate l s3 := (h.setf : s0.SameUpdate l s2).evIf hl
  have h4 : s0.SameUpdate l s4 := .ite h3 h3.setSat
  have h5 : s0.SameUpdate l s5 := h4.setSat
  have h6 : s0.SameUpdate l s6 := h5.setSat
  have h7 : s0.SameUpdate l s7 := h6.setSat
  have h8 : s0.SameUpdate l s8 := h7.setf
  exact h8.evIf hl

theorem losesLock (h : s0.SameUpdate l s) (hl : l < 32) : s0.SameUpdate l (s.losesLock l) := by
  unfold State.losesLock
  extract_lets s1 s2 s3
  have h1 : s0.SameUpdate l s1 := h.setf.modLoop fun _ => rfl
  have h2 : s0.SameUpdate l s2 := h1.core rfl rfl
  have h3 : s0.SameUpdate l s3 := .ite (h2.finalGear hl) h2
  exact (h3.ev hl).route hl

theorem lockCheck (h : s0.SameUpdate l s) (hl : l < 32) {b : Nat} {e1 : Int} : s0.SameUpdate l (s.lockCheck l b tag e1) := by
  have held (ok : Bool) : s0.SameUpdate l (s.modLoop l fun c => { c with lockSince := if ok then some (c.lockSince.getD b) else none }) :=
    h.modLoop fun _ => rfl
  have counted (bad : Bool) : s0.SameUpdate l (s.modLoop l fun c => { c with lockBad := if bad then c.lockBad + 1 else 0 }) :=
    h.modLoop fun _ => rfl
  unfold State.lockCheck
  dsimp only
  split
  · exact .ite (held _) (.ite (.ite ((counted _).losesLock hl) (counted _)) h)
  · exact h

theorem histUpdate (h : s0.SameUpdate l s) : s0.SameUpdate l (s.histUpdate l tag) := h.core rfl rfl

theorem toTarget (h : s0.SameUpdate l s) (hl : l < 32) {w : Int} : s0.SameUpdate l (s.toTarget l w) := by
  have word : s0.SameUpdate l (s.modLoop l (fun c => { c with word := w })) := h.modLoop fun _ => rfl
  exact .ite (word.core rfl rfl) (.ite (word.core rfl rfl)
    (word.beside hl (State.loop_tiedWord _ _ _) fun _ a b => State.w_tiedWord_loop _ _ _ a b))

theorem workWrite (h : s0.SameUpdate l s) (hl : l < 32) {e : Nat} : s0.SameUpdate l (s.workWrite e) := by
  refine h.beside hl (s.loop_workWrite e) fun j a b => ?_
  unfold State.workWrite
  split
  · split
    · exact s.w_eccWrite_loop _ a b
    · rfl
  · rfl

theorem checkpoint (h : s0.SameUpdate l s) (hl : l < 32) {c : Bool} : s0.SameUpdate l (s.checkpoint l c) :=
  h.beside hl (s.loop_checkpoint l c) fun _ a b => State.w_bankWrite_loop _ _ _ a b

end State.SameUpdate

end Sys2Proof.Machine
end

section
/-! PROOFS. What an update makes of a loop, and the ends of the dwells of lock and gears (O39). -/

set_option Elab.async false

namespace Sys2Proof.Machine

section

variable (s : State) {l : Nat}

/-! An update that every checker has passed. -/

/-- A loop holds the numbers of its update, before what shows them. -/
def State.numbersTaken (l : Nat) (tag : Tag) (err : Int) (u : Upd) : State :=
  s.modLoop l (fun c => { c with
    yI := u.yI, uc := u.uc, sl := u.sl, rem := u.rem, remPart := u.part, bo := u.bo, yw := c.ybar, e := if tag == .gap then c.e else err
    seq := c.seq + 1, settle := if tag == .gap then c.settle else c.settle - 1 })

/-- The freeze ends with a departure. -/
def State.departedIf (l : Nat) (tag : Tag) (t : State) : State := if (s.loopC l).depart && tag == .valid then t.departed l else t

/-- The registers, lock and record of an update, before history and the word at the target. -/
def State.updateShown (l b : Nat) (tag : Tag) (err : Int) (u : Upd) : State :=
  let t := ((s.departedIf l tag (s.numbersTaken l tag err u)).showUpdate l tag (err - u.bo) u ((s.loopC l).rem != 0)).lockCheck l b tag (err - u.bo)
  t.modLoop l (fun c => { c with record := t.updateRecord l tag (if tag == .gap then (t.loopC l).e - u.bo else err - u.bo) })

theorem State.completeUpdate_eq (b : Nat) (tag : Tag) (err : Int) (u : Upd) (w : Int) (catchUp : Bool) :
    s.completeUpdate l b tag err u w catchUp =
      ((((s.updateShown l b tag err u).histUpdate l tag).toTarget l w).workWrite
        ((s.updateShown l b tag err u).engineOf l)).checkpoint l catchUp := rfl

/-- The numbers of a loop whose interval is at `c` after an update. -/
def Upd.numbers (u : Upd) (c : LoopCore.Course) : LoopCore.Numbers := ⟨u.yI, u.uc, u.sl, u.rem, u.part, u.bo, c.lastB, c.acc, c.seq + 1⟩

theorem LoopCore.of_numbers {c : LoopCore} {m : LoopCore.Numbers} (h : c.numbers = m) : c.yI = m.yI ∧ c.uc = m.uc ∧ c.sl = m.sl ∧
    c.rem = m.rem ∧ c.remPart = m.remPart ∧ c.bo = m.bo ∧ c.lastB = m.lastB ∧ c.acc = m.acc ∧ c.seq = m.seq := by
  subst h
  exact ⟨rfl, rfl, rfl, rfl, rfl, rfl, rfl, rfl, rfl⟩

theorem LoopCore.depart_of_course {c : LoopCore} {m : LoopCore.Course} (h : c.course = m) : c.depart = m.depart := congrArg (·.depart) h

theorem State.numbers_numbersTaken (tag : Tag) (err : Int) (u : Upd) :
    ((s.numbersTaken l tag err u).loopC l).numbers = u.numbers (s.loopC l).course := by
  rw [State.numbersTaken, State.loopC_modLoop]
  rfl

theorem State.numbers_departed : ((s.departed l).loopC l).numbers = (s.loopC l).numbers := by
  unfold State.departed
  rw [State.loopC_congr _ (State.loop_ev _ _), State.loopC_modLoop]
  rfl

theorem State.numbers_departedIf (tag : Tag) (t : State) : ((s.departedIf l tag t).loopC l).numbers = (t.loopC l).numbers := by
  unfold State.departedIf
  split
  · exact t.numbers_departed
  · rfl

theorem State.word_toTarget (w : Int) : ((s.toTarget l w).loopC l).word = w := by
  have word : ((s.modLoop l fun c => { c with word := w }).loopC l).word = w := congrArg LoopCore.word (s.loopC_modLoop l _)
  unfold State.toTarget
  dsimp only
  split
  · exact word
  split
  · exact word
  · rw [State.loopC_congr _ (State.loop_tiedWord _ _ _)]
    exact word

/-- The word at the target is the last thing to change in a loop. -/
theorem State.word_completeUpdate (b : Nat) (tag : Tag) (err : Int) (u : Upd) (w : Int) (catchUp : Bool) :
    ((s.completeUpdate l b tag err u w catchUp).loopC l).word = w := by
  rw [State.completeUpdate_eq, State.loopC_congr _ (State.loop_checkpoint _ _ _), State.loopC_congr _ (State.loop_workWrite _ _)]
  exact State.word_toTarget _ w

theorem status_ne_event (l : Nat) : LOOP.STATUS l ≠ LOOP.EVENT l := by dsimp only [LOOP.STATUS, LOOP.EVENT]; omega

variable (hl : l < 32)
include hl

theorem State.sameUpdate_updateShown (b : Nat) (tag : Tag) (err : Int) (u : Upd) :
    ((s.departedIf l tag (s.numbersTaken l tag err u)).setf (LOOP.STATUS_TAG l) tag.num).SameUpdate l (s.updateShown l b tag err u) := by
  unfold State.updateShown
  extract_lets t
  have checked : ((s.departedIf l tag (s.numbersTaken l tag err u)).setf (LOOP.STATUS_TAG l) tag.num).SameUpdate l t :=
    ((State.SameUpdate.refl _).showUpdate hl).lockCheck hl
  refine State.SameUpdate.modLoop checked ?_
  exact fun _ => rfl

theorem State.sameUpdate_completeUpdate (b : Nat) (tag : Tag) (err : Int) (u : Upd) (w : Int) (catchUp : Bool) :
    ((s.departedIf l tag (s.numbersTaken l tag err u)).setf (LOOP.STATUS_TAG l) tag.num).SameUpdate l
      (s.completeUpdate l b tag err u w catchUp) := by
  rw [State.completeUpdate_eq]
  have shown := s.sameUpdate_updateShown hl b tag err u
  generalize s.updateShown l b tag err u = t at shown ⊢
  exact (((shown.histUpdate).toTarget hl).workWrite hl).checkpoint hl

theorem State.numbers_completeUpdate (b : Nat) (tag : Tag) (err : Int) (u : Upd) (w : Int) (catchUp : Bool) :
    ((s.completeUpdate l b tag err u w catchUp).loopC l).numbers = u.numbers (s.loopC l).course := by
  rw [(s.sameUpdate_completeUpdate hl b tag err u w catchUp).numbers, State.loopC_setf, State.numbers_departedIf, State.numbers_numbersTaken]

theorem State.tag_completeUpdate (b : Nat) (tag : Tag) (err : Int) (u : Upd) (w : Int) (catchUp : Bool) :
    (s.completeUpdate l b tag err u w catchUp).f (LOOP.STATUS_TAG l) = tag.num := by
  rw [(s.sameUpdate_completeUpdate hl b tag err u w catchUp).shown _ (.inl rfl), State.f_setf _ _ _ (Nat.le_of_ble_eq_true rfl)]
  exact Nat.mod_eq_of_lt tag.num_lt

theorem intrKey_status : intrKey (LOOP.STATUS l) = false :=
  intrKey_loop (by dsimp only [LOOP.STATUS]; omega) (by dsimp only [LOOP.STATUS]; omega)

theorem intrKey_event : intrKey (LOOP.EVENT l) = false :=
  intrKey_loop (by dsimp only [LOOP.EVENT]; omega) (by dsimp only [LOOP.EVENT]; omega)

theorem State.frozen_departed : (s.departed l).f (LOOP.STATUS_FROZEN l) = 0 := by
  unfold State.departed
  rw [State.f_ev_apart _ _ (Nat.le_of_ble_eq_true rfl) (intrKey_status hl) (.inl (status_ne_event l)), State.f_congr _ (State.regs_modLoop _ _ _),
    State.f_setf _ _ _ (Nat.le_of_ble_eq_true rfl), Nat.zero_mod]

theorem State.switched_departed : (s.departed l).on (LOOP.EVENT_SWITCHED l) = true :=
  State.on_ev _ _ rfl (Nat.le_of_ble_eq_true rfl) (intrKey_event hl)

/-- The first VALID sample after a switch ends the freeze. -/
theorem State.frozen_completeUpdate (departs : (s.loopC l).depart = true) (b : Nat) (err : Int) (u : Upd) (w : Int) (catchUp : Bool) :
    (s.completeUpdate l b .valid err u w catchUp).f (LOOP.STATUS_FROZEN l) = 0 ∧
      (s.completeUpdate l b .valid err u w catchUp).on (LOOP.EVENT_SWITCHED l) = true := by
  have same := s.sameUpdate_completeUpdate hl b .valid err u w catchUp
  rw [State.departedIf, if_pos (by rw [departs]; rfl)] at same
  constructor
  · rw [same.shown _ (.inr (.inl rfl)), State.f_setf_apart _ _ _ _ (.inr (by dsimp only [Fld.width]; omega)), State.frozen_departed _ hl]
  · rw [State.on_of_f _ _ (same.shown _ (.inr (.inr rfl))), State.on_of_f _ _ (State.f_setf_key _ _ _ _ (status_ne_event l).symm),
      State.switched_departed _ hl]

end

section

variable (s : State)

/-! When an update is due. -/

section

variable {l : Nat}

theorem State.loopUpdate_kept (chk : CheckOutcome) (landed : s.landed = true) (built : s.loopBuilt l = true) (free : (s.loopC l).mig = none) :
    s.loopUpdate l chk = (s.keepInterval l (s.nextBoundaryOf l) (s.intervalSamples l (s.nextBoundaryOf l))).intervalEnds l
      (s.nextBoundaryOf l) (s.intervalSamples l (s.nextBoundaryOf l)) chk false := by
  have kept : ((s.keepInterval l (s.nextBoundaryOf l) (s.intervalSamples l (s.nextBoundaryOf l))).loopC l).mig = none :=
    (congrArg LoopCore.mig (s.loopC_modLoop l _)).trans free
  unfold State.loopUpdate
  rw [if_neg (by rw [landed, built]; decide)]
  dsimp only
  rw [kept]

/-- A migrating loop keeps the samples of its interval for the engine that takes it over. -/
theorem State.loopUpdate_migrating {chk : CheckOutcome} {src dst : Nat} {planned retire : Bool} (landed : s.landed = true)
    (built : s.loopBuilt l = true) (moves : (s.loopC l).mig = some (src, dst, planned, retire)) (begun : s.awaitsUpdate l = false)
    (pass : planned = true → chk = .pass) :
    s.loopUpdate l chk = s.keepInterval l (s.nextBoundaryOf l) (s.intervalSamples l (s.nextBoundaryOf l)) := by
  have kept : ((s.keepInterval l (s.nextBoundaryOf l) (s.intervalSamples l (s.nextBoundaryOf l))).loopC l).mig =
      some (src, dst, planned, retire) := (congrArg LoopCore.mig (s.loopC_modLoop l _)).trans moves
  have awaits : (s.keepInterval l (s.nextBoundaryOf l) (s.intervalSamples l (s.nextBoundaryOf l))).awaitsUpdate l = false := by
    rw [← begun, State.awaitsUpdate, State.awaitsUpdate, kept, moves]
    rfl
  unfold State.loopUpdate
  rw [if_neg (by rw [landed, built]; decide)]
  dsimp only
  rw [kept]
  dsimp only
  rw [awaits, if_neg Bool.false_ne_true, if_neg (fun h => h.2 (pass h.1))]

variable (b : Nat) (xs : List Sample)

/-- A loop that stays frozen makes no update. -/
theorem State.intervalEnds_frozen (chk : CheckOutcome) (frozen : s.on (LOOP.STATUS_FROZEN l) = true)
    (stays : (s.loopC l).stranded = true ∨ (s.loopC l).depart = false) : s.intervalEnds l b xs chk false = s := by
  unfold State.intervalEnds
  rw [if_neg (by rw [frozen]; decide), if_pos]
  rcases stays with h | h
  · rw [h, Bool.true_or]
  · rw [h, Bool.not_false, Bool.or_true]

/-- A loop that is not frozen, or that departs with a VALID sample, makes its update. -/
theorem State.intervalEnds_updates (chk : CheckOutcome) (runs : s.on (LOOP.STATUS_FROZEN l) = true →
    (s.loopC l).stranded = false ∧ (s.loopC l).depart = true ∧ (s.updateInput l b xs).2.1 = .valid) :
    s.intervalEnds l b xs chk false = s.runUpdate l b xs chk false := by
  unfold State.intervalEnds
  cases frozen : s.on (LOOP.STATUS_FROZEN l) with
  | false => rfl
  | true =>
    obtain ⟨engine, departs, valid⟩ := runs frozen
    rw [engine, departs, valid]
    rfl

theorem State.checkCause_sound {e : Nat} (clean : s.ecc = []) (quiet : s.flt.injEngine ≠ some e) : s.checkCause e .pass = none := by
  unfold State.checkCause State.bankBad
  rw [clean]
  exact if_neg quiet

/-- An update with sound memory, no injection and a word in range. -/
theorem State.runUpdate_completes (clean : s.ecc = []) (quiet : s.flt.injEngine ≠ some (s.engineOf l)) {r : State × Tag × Int} {u : Upd}
    {w : Int} (hr : r = s.updateInput l b xs) (hu : u = r.1.equations l r.2.1 r.2.2)
    (hw : w = toWord (u.yI + u.uc + u.sl) (r.1.loopC l).ybar) (fits : wordFits w = true) :
    s.runUpdate l b xs .pass false = r.1.completeUpdate l b r.2.1 r.2.2 u w false := by
  subst hr hu hw
  unfold State.runUpdate
  dsimp only
  rw [s.bankCheck_sound _ _ _ clean, s.checkCause_sound clean quiet]
  exact if_pos fits

end

/-! The ends of dwells. -/

section

variable {n : Fin 32}

/-- A loop whose lock dwell has ended. -/
def State.loopLocked (n : Nat) : State :=
  ((((s.setf (LOOP.STATUS_STATE n) 2).modLoop n (fun c => { c with lockSince := none, lockBad := 0 })).modHo n
    (fun h => { h with locked := true })).ev (LOOP.EVENT_LOCK_GAINED n)).route (0x060 + n)

theorem execLockDwellExpiry_gains {t0 : Nat} (acquires : s.loopState n = 1) (final : s.inFinal n = true)
    (since : (s.loopC n).lockSince = some t0) (long : t0 + s.f (LOOP.LOCK_DWELL_MS n) * 2000000 ≤ s.now)
    (runs : s.on (LOOP.STATUS_FROZEN n) = false) (free : (s.loopC n).mig = none) :
    execLockDwellExpiry n s = .next (s.loopLocked n) := by
  unfold execLockDwellExpiry
  dsimp only
  rw [since, if_pos ⟨acquires, final, decide_eq_true long, by rw [runs]; rfl, by rw [free]; rfl⟩]
  rfl

theorem State.loopC_loopLocked (l : Nat) : (s.loopLocked l).loopC l = { s.loopC l with lockSince := none, lockBad := 0 } := by
  rw [State.loopLocked, State.loopC_congr _ (State.loop_route _ _), State.loopC_congr _ (State.loop_ev _ _),
    State.loopC_congr _ (State.loop_modHo _ _ _), State.loopC_modLoop]
  rfl

theorem State.hoC_loopLocked (l : Nat) : (s.loopLocked l).hoC l = { s.hoC l with locked := true } := by
  have gained : (s.loopLocked l).ho = (((s.setf (LOOP.STATUS_STATE l) 2).modLoop l (fun c => { c with lockSince := none, lockBad := 0 })).modHo l
    (fun h => { h with locked := true })).ho := (State.ho_route _ _).trans (State.ho_ev _ _)
  unfold State.hoC
  rw [gained]
  exact State.hoC_modHo _ _ _

theorem State.shown_loopLocked {l : Nat} (hl : l < 32) :
    (s.loopLocked l).loopState l = 2 ∧ (s.loopLocked l).on (LOOP.EVENT_LOCK_GAINED l) = true := by
  have status : 0x400000 ≤ LOOP.STATUS l ∧ LOOP.STATUS l < 0x600000 := by dsimp only [LOOP.STATUS]; omega
  have event : 0x400000 ≤ LOOP.EVENT l ∧ LOOP.EVENT l < 0x600000 := by dsimp only [LOOP.EVENT]; omega
  unfold State.loopLocked
  constructor
  · rw [State.loopState, State.f_of_w _ _ (State.w_route_loop _ _ status.1 status.2),
      State.f_ev_apart _ _ (Nat.le_of_ble_eq_true rfl) (intrKey_status hl) (.inl (status_ne_event l)), State.f_congr _ (State.regs_modHo _ _ _),
      State.f_congr _ (State.regs_modLoop _ _ _), State.f_setf _ _ _ (Nat.le_of_ble_eq_true rfl)]
    rfl
  · rw [State.on_of_f _ _ (State.f_of_w _ _ (State.w_route_loop _ _ event.1 event.2)),
      State.on_ev _ _ rfl (Nat.le_of_ble_eq_true rfl) (intrKey_event hl)]

theorem execGearDwellExpiry_next (acquires : s.loopState n = 1) (runs : s.on (LOOP.STATUS_FINAL n) = false)
    (ended : (s.loopC n).gearEnd ≤ s.now) : execGearDwellExpiry n s = .next (if s.on (LOOP.CTRL_GEAR_MAN n)
      then s.manGear n ((s.loopC n).gear + 1) else s.autoGear n ((s.loopC n).gear + 1)) := by
  unfold execGearDwellExpiry
  rw [if_pos ⟨acquires, by rw [runs]; rfl, ended⟩]

end

/-! A gear that comes into force. -/

section

variable {l : Nat}

/-- A gear is in force, and shows. -/
structure State.InGear (t : State) (l k bw : Nat) (isFinal : Bool) : Prop where
  bandwidth : (t.loopC l).bw = bw
  gear : (t.loopC l).gear = k
  shown : t.f (LOOP.STATUS_GEAR l) = min k 7
  final : t.f (LOOP.STATUS_FINAL l) = b2n isFinal

theorem State.regs_gearTaken (l gear bw dwell : Nat) (final : Bool) :
    (s.gearTaken l gear bw dwell final).regs = (s.gearShown l gear final).regs := rfl

theorem State.InGear.setGear (hl : l < 32) (gear bw dwell : Nat) (final : Bool) : (s.setGear l gear bw dwell final).InGear l gear bw final where
  bandwidth := by rw [State.loopC_setGear, State.loopC_setBw]
  gear := by rw [State.loopC_setGear]
  shown := by
    rw [State.setGear_eq, State.f_evIf_apart _ _ _ (Nat.le_of_ble_eq_true rfl) (intrKey_status hl) (.inl (status_ne_event l)),
      State.f_congr _ (s.regs_gearTaken l gear bw dwell final), State.gearShown, State.setb,
      State.f_setf_apart _ _ _ _ (.inr (by dsimp only [Fld.width]; omega)), State.f_setf _ _ _ (Nat.le_of_ble_eq_true rfl)]
    exact Nat.mod_eq_of_lt (Nat.lt_succ_of_le (Nat.min_le_right _ _))
  final := by
    rw [State.setGear_eq, State.f_evIf_apart _ _ _ (Nat.le_of_ble_eq_true rfl) (intrKey_status hl) (.inl (status_ne_event l)),
      State.f_congr _ (s.regs_gearTaken l gear bw dwell final), State.gearShown]
    exact State.f_setb _ _ _ (Nat.le_of_ble_eq_true rfl) (Nat.le_of_ble_eq_true rfl)

/-- The manual schedule has no gear `k`: the final one. -/
theorem State.InGear.manGear_none (hl : l < 32) {k : Nat} (absent : 8 ≤ k ∨ s.f (LOOP.GEAR_BW_UHZ l k) = 0) :
    (s.manGear l k).InGear l (min k 7) (s.finalBw l) true := by
  unfold State.manGear
  rw [if_pos absent]
  exact .setGear s hl _ _ _ _

theorem State.InGear.manGear_some (hl : l < 32) {k : Nat} (below : k < 8) (given : s.f (LOOP.GEAR_BW_UHZ l k) ≠ 0) :
    (s.manGear l k).InGear l k (s.f (LOOP.GEAR_BW_UHZ l k)) false := by
  unfold State.manGear
  rw [if_neg (not_or.mpr ⟨Nat.not_le.mpr below, given⟩)]
  exact .setGear s hl _ _ _ _

/-- The automatic schedule halves its bandwidth down to the final one. -/
theorem State.InGear.autoGear (hl : l < 32) (k : Nat) : (s.autoGear l k).InGear l k (max (s.finalBw l) ((s.loopC l).f0 / 2 ^ k))
    (decide ((s.loopC l).f0 / 2 ^ k ≤ s.finalBw l)) := by
  unfold State.autoGear
  dsimp only
  split
  next reached =>
    rw [Nat.max_eq_left reached, decide_eq_true reached]
    exact .setGear s hl _ _ _ _
  next above =>
    rw [Nat.max_eq_right (Nat.le_of_not_le above), decide_eq_false above]
    exact .setGear s hl _ _ _ _

theorem State.shown_manGear (hl : l < 32) (k : Nat) : (s.manGear l k).f (LOOP.STATUS_GEAR l) = min k 7 := by
  by_cases h : 8 ≤ k ∨ s.f (LOOP.GEAR_BW_UHZ l k) = 0
  · rw [(State.InGear.manGear_none s hl h).shown, Nat.min_assoc, Nat.min_self]
  · obtain ⟨below, given⟩ := not_or.mp h
    exact (State.InGear.manGear_some s hl (Nat.not_le.mp below) given).shown

end

end

/-- The loop after an interval that makes no update holds its samples. -/
theorem State.loopC_keepInterval (s : State) (l b : Nat) (xs : List Sample) : (s.keepInterval l b xs).loopC l =
    { s.loopC l with acc := [], kept := ((s.loopC l).kept ++ [(b, (s.loopC l).entry, xs)]).drop ((s.loopC l).kept.length - 63) } :=
  s.loopC_modLoop l _

/-- Settles O39: an update's numbers come from its input (`updateInput`, which leaves the loop's course), and what follows shows them and writes
the word; the dwells end with the lock and with the next gear. -/
theorem loopUpdates : Obligations.LoopUpdates := by
  unfold Obligations.LoopUpdates
  refine ⟨?update, ?frozen, ?migrating, ?lock, ?gear⟩
  case update =>
    intro n s landed built free clean quiet b xs r u w departs fits
    have runs : (s.keepInterval n b xs).intervalEnds n b xs .pass false = (s.keepInterval n b xs).runUpdate n b xs .pass false := by
      refine State.intervalEnds_updates _ b xs .pass fun frozen => ?_
      rw [s.loopC_keepInterval]
      exact departs frozen
    have sound : (s.keepInterval n b xs).ecc = [] := clean
    have idle : (s.keepInterval n b xs).flt.injEngine ≠ some ((s.keepInterval n b xs).engineOf n) := quiet
    have done := State.runUpdate_completes _ b xs sound idle (r := r) (u := u) (w := w) rfl rfl rfl fits
    have due := (exec_loopUpdate n .pass s).trans (congrArg _ ((s.loopUpdate_kept .pass landed built free).trans (runs.trans done)))
    have course : (r.1.loopC n).course = ⟨b, [], (s.loopC n).seq, (s.loopC n).depart⟩ := by
      rw [State.course_updateInput, s.loopC_keepInterval]
    have numbers := r.1.numbers_completeUpdate n.isLt b r.2.1 r.2.2 u w false
    rw [course] at numbers
    obtain ⟨yI, uc, sl, rem, remPart, bo, lastB, acc, seq⟩ := LoopCore.of_numbers numbers
    refine ⟨_, due, yI, uc, sl, rem, remPart, bo, r.1.word_completeUpdate b r.2.1 r.2.2 u w false, lastB, acc, seq,
      r.1.tag_completeUpdate n.isLt b r.2.1 r.2.2 u w false, fun frozen => ?_⟩
    obtain ⟨-, ordered, valid⟩ := departs frozen
    rw [valid]
    exact r.1.frozen_completeUpdate n.isLt ((LoopCore.depart_of_course course).trans ordered) b r.2.2 u w false
  case frozen =>
    intro n chk s landed built free frozen stays
    refine ⟨_, (exec_loopUpdate n chk s).trans (congrArg _ ((s.loopUpdate_kept chk landed built free).trans
      (State.intervalEnds_frozen _ _ _ chk frozen ?_))), rfl, rfl, s.loopC_keepInterval _ _ _⟩
    rw [s.loopC_keepInterval]
    exact stays
  case migrating =>
    intro n chk src dst planned retire s landed built moves begun pass
    exact ⟨_, (exec_loopUpdate n chk s).trans (congrArg _ (s.loopUpdate_migrating landed built moves begun pass)), rfl, rfl,
      s.loopC_keepInterval _ _ _⟩
  case lock =>
    intro n t0 s acquires final since long runs free
    obtain ⟨locked, told⟩ := s.shown_loopLocked n.isLt
    exact ⟨_, (exec_lockDwellExpiry n s).trans (execLockDwellExpiry_gains s acquires final since long runs free), locked,
      congrArg (·.lockSince) (s.loopC_loopLocked n), congrArg (·.locked) (s.hoC_loopLocked n), told⟩
  case gear =>
    intro n s acquires runs ended k
    refine ⟨_, (exec_gearDwellExpiry n s).trans (execGearDwellExpiry_next s acquires runs ended), ?_⟩
    cases manual : s.on (LOOP.CTRL_GEAR_MAN n) with
    | true =>
      rw [if_pos rfl]
      refine ⟨s.shown_manGear n.isLt k, fun _ absent => ?_, fun _ below given => ?_, fun h => absurd h (by decide)⟩
      · have gear := State.InGear.manGear_none s n.isLt absent
        exact ⟨gear.bandwidth, gear.gear, gear.final⟩
      · have gear := State.InGear.manGear_some s n.isLt below given
        exact ⟨gear.bandwidth, gear.gear, gear.final⟩
    | false =>
      have gear := State.InGear.autoGear s n.isLt k
      rw [if_neg (by decide)]
      exact ⟨gear.shown, fun h => absurd h (by decide), fun h => absurd h (by decide), fun _ => ⟨gear.bandwidth, gear.gear⟩⟩

end Sys2Proof.Machine
end

section
/-! PROOFS. What the operations of holdover are made of (O41): the registers of holdover beside its events, the bytes that an owner writes,
and the model that comes into force. -/

namespace Sys2Proof.Machine

section

variable (s : State)

/-! The state of a holdover unit. -/

theorem State.hoC_congr {t : State} (h : t.ho = s.ho) (n : Nat) : t.hoC n = s.hoC n := by
  unfold State.hoC
  rw [h]

theorem State.hoC_evIf (c : Bool) (x : Fld) (n : Nat) : (s.evIf c x).hoC n = s.hoC n := s.hoC_congr (s.ho_evIf c x) n

theorem State.hoC_status (p : Port) (c : Code) (n : Nat) : (s.status p c).hoC n = s.hoC n := s.hoC_congr (s.ho_status p c) n

theorem State.hoC_bankWrite (a : Nat) (bs : List Byte) (n : Nat) : (s.bankWrite a bs).hoC n = s.hoC n :=
  s.hoC_congr (((Moves.refl s).bankWrite (Sub.refl _)).p26 rfl) n

theorem State.hoC_setb (x : Fld) (b : Bool) (n : Nat) : (s.setb x b).hoC n = s.hoC n := rfl

theorem State.f_modHo (n : Nat) (g : HoCore → HoCore) (y : Fld) : (s.modHo n g).f y = s.f y := rfl

/-! Bytes that an owner writes. -/

theorem State.mem_bankWrite (a : Nat) (bs : List Byte) : (s.bankWrite a bs).mem = Tab.setList memDefault s.mem a bs :=
  (Moves.forL (Moves.refl (s.setBytes a bs)) fun _ _ h => h.eccWrite (Sub.refl _)).p3 rfl

theorem State.byte_bankWrite_at (a : Nat) (bs : List Byte) {i : Nat} (h : i < bs.length) :
    (s.bankWrite a bs).byte (a + i) = bs.getD i 0 := by
  unfold State.byte
  rw [s.mem_bankWrite, Tab.get_setList, dif_pos (by omega), List.getD_eq_getElem _ _ h]
  simp only [Nat.add_sub_cancel_left]

/-! Fields beside the event bits of holdover. -/

/-- A register of the loops that is not HO_EVENT of loop `l`. -/
def BesideHoEvent (l k : Nat) : Prop := 0x400000 ≤ k ∧ k < 0x600000 ∧ k ≠ LOOP.HO_EVENT l

section

variable {l : Nat} (hl : l < 32)

include hl

theorem besideHoEvent_ctrl : BesideHoEvent l (LOOP.HO_CTRL l) := by dsimp only [BesideHoEvent, LOOP.HO_CTRL, LOOP.HO_EVENT]; omega
theorem besideHoEvent_frate : BesideHoEvent l (LOOP.HO_FRATE l) := by dsimp only [BesideHoEvent, LOOP.HO_FRATE, LOOP.HO_EVENT]; omega
theorem besideHoEvent_stat : BesideHoEvent l (LOOP.HO_STAT l) := by dsimp only [BesideHoEvent, LOOP.HO_STAT, LOOP.HO_EVENT]; omega
theorem besideHoEvent_elapsed : BesideHoEvent l (LOOP.HO_ELAPSED l) := by dsimp only [BesideHoEvent, LOOP.HO_ELAPSED, LOOP.HO_EVENT]; omega

theorem intrKey_hoEvent : intrKey (LOOP.HO_EVENT l) = false :=
  intrKey_loop (by dsimp only [LOOP.HO_EVENT]; omega) (by dsimp only [LOOP.HO_EVENT]; omega)

end

/-- An event of holdover, which is a bit `i` of HO_EVENT, leaves the other registers of the loops. -/
theorem State.f_hoEvIf {l : Nat} {y : Fld} (h : BesideHoEvent l y.key) (c : Bool) {i : Nat} (hi : i < 32) :
    (s.evIf c ⟨LOOP.HO_EVENT l, i, i⟩).f y = s.f y :=
  s.f_evIf_apart c _ hi (intrKey_loop h.1 h.2.1) (.inl h.2.2)

theorem State.f_hoEv {l : Nat} {y : Fld} (h : BesideHoEvent l y.key) {i : Nat} (hi : i < 32) :
    (s.ev ⟨LOOP.HO_EVENT l, i, i⟩).f y = s.f y := s.f_hoEvIf h true hi

theorem State.on_hoEv {l : Nat} (hl : l < 32) {i : Nat} (hi : i < 32) :
    (s.ev ⟨LOOP.HO_EVENT l, i, i⟩).on ⟨LOOP.HO_EVENT l, i, i⟩ = true := s.on_ev _ rfl hi (intrKey_hoEvent hl)

theorem State.f_bankWrite_ho {l : Nat} {y : Fld} (h : BesideHoEvent l y.key) (a : Nat) (bs : List Byte) :
    (s.bankWrite a bs).f y = s.f y := s.f_of_w y (s.w_bankWrite_loop a bs h.1 h.2.1)

theorem State.on_setb (x : Fld) (b : Bool) (hx : x.lo + x.width ≤ 32) (hw : 1 ≤ x.width) : (s.setb x b).on x = b := by
  unfold State.on
  rw [s.f_setb x b hx hw]
  cases b <;> rfl

/-! A model that comes into force. -/

variable (l : Nat)

/-- What is told of a new model, before it is in force (R280). -/
def State.modelTold (m : Option Model) (n : Nat) : State :=
  (s.evIf ((m.map (·.terms)).getD 0 != ((s.hoC l).fitted.map (·.terms)).getD 0) (LOOP.HO_EVENT_TERMS_CHANGED l)).evIf
    (decide (n < 16 ∧ 16 ≤ (s.hoC l).qualified)) (LOOP.HO_EVENT_MODEL_LOST l)

/-- HO_STAT shows whether there is a model, its terms, and the records it is made of. -/
def State.modelShown (m : Option Model) (n : Nat) : State :=
  ((s.setb (LOOP.HO_STAT_MODEL_OK l) m.isSome).setf (LOOP.HO_STAT_TERMS l) ((m.map (·.terms)).getD 0)).setf (LOOP.HO_STAT_NREC l) n

theorem State.hoC_modelShown (m : Option Model) (n k : Nat) : (s.modelShown l m n).hoC k = s.hoC k := by
  rw [State.modelShown, State.hoC_setf, State.hoC_setf, State.hoC_setb]

/-- The model is in force, and shown. -/
def State.modelTaken (m : Option Model) (n : Nat) : State :=
  ((s.modelTold l m n).modHo l (fun h => { h with fitted := m, qualified := n, refit := false })).modelShown l m n

theorem State.newModel_eq (m : Option Model) (n : Nat) : s.newModel l m n =
    (s.modelTaken l m n).bankWrite ((s.modelTaken l m n).engineOf l * spSize + 0x60400) (wordsLe (modelRecord m)) := rfl

theorem State.hoC_newModel (m : Option Model) (n : Nat) :
    (s.newModel l m n).hoC l = { s.hoC l with fitted := m, qualified := n, refit := false } := by
  rw [State.newModel_eq, State.hoC_bankWrite, State.modelTaken, State.hoC_modelShown, State.hoC_modHo, State.modelTold, State.hoC_evIf,
    State.hoC_evIf]

theorem State.modelOk_modelShown (m : Option Model) (n : Nat) : (s.modelShown l m n).on (LOOP.HO_STAT_MODEL_OK l) = m.isSome := by
  have shown : (s.modelShown l m n).f (LOOP.HO_STAT_MODEL_OK l) = (s.setb (LOOP.HO_STAT_MODEL_OK l) m.isSome).f (LOOP.HO_STAT_MODEL_OK l) :=
    (State.f_setf_bits _ _ _ _ (Nat.le_of_ble_eq_true rfl) (.inr (Nat.le_of_ble_eq_true rfl))).trans
      (State.f_setf_bits _ _ _ _ (Nat.le_of_ble_eq_true rfl) (.inr (Nat.le_of_ble_eq_true rfl)))
  exact (State.on_of_f _ _ shown).trans (s.on_setb _ _ (Nat.le_of_ble_eq_true rfl) (Nat.le_of_ble_eq_true rfl))

theorem State.modelOk_newModel (hl : l < 32) (m : Option Model) (n : Nat) : (s.newModel l m n).on (LOOP.HO_STAT_MODEL_OK l) = m.isSome := by
  rw [State.newModel_eq, State.on_of_f _ _ (State.f_bankWrite_ho _ (besideHoEvent_stat hl) _ _), State.modelTaken,
    State.modelOk_modelShown]

/-- A model record is 20 words long (R294). -/
theorem modelRecord_length (m : Option Model) : (modelRecord m).length = 20 := by
  cases m <;> rfl

end

end Sys2Proof.Machine
end

section
/-! PROOFS. The history, the fit at entry and the seconds of holdover (O41): what the end of an interval, of a fit and of a second leaves. -/

namespace Sys2Proof.Machine

section

variable (s : State) (l : Nat)

/-! The end of a history interval. -/

/-- The tag of the record of the interval that ends: at best SUSPECT while the loop or its history moves (R311). -/
def State.endTag : Tag := if s.historyMoving l then (s.histTag l).max .suspect else s.histTag l

/-- The record of the interval is in its place. -/
def State.recordStored : State :=
  s.bankWrite (s.historyEngine l * spSize + 32 * s.f (LOOP.HIST_PTR_NEXT l)) (s.histRecord l (s.endTag l))

/-- HIST_PTR moves on from record `i`. -/
def State.pointerMoved (i : Nat) : State :=
  if i = 12287 then (s.setf (LOOP.HIST_PTR_NEXT l) 0).incWrap (LOOP.HIST_PTR_LAPS l) else s.setf (LOOP.HIST_PTR_NEXT l) (i + 1)

/-- The next interval, and the refit that the record brings. -/
def State.intervalBegun (fit : Bool) : State :=
  ((s.freshInterval l).modHo l (fun h => { h with seq := h.seq + 1, refit := fit })).showRecs l

theorem State.historyEnd_records (h : s.recording l = true) :
    ∃ fit, s.historyEnd l = ((s.recordStored l).pointerMoved l (s.f (LOOP.HIST_PTR_NEXT l))).intervalBegun l fit := by
  unfold State.historyEnd
  dsimp only
  rw [if_neg (by rw [h]; decide)]
  exact ⟨_, rfl⟩

theorem State.histRecord_length (tag : Tag) : (s.histRecord l tag).length = 32 := rfl

theorem State.next_pointerMoved {i : Nat} (h : i < 12288) :
    (s.pointerMoved l i).f (LOOP.HIST_PTR_NEXT l) = if i = 12287 then 0 else i + 1 := by
  unfold State.pointerMoved
  split
  · rw [State.incWrap, State.f_setf_bits _ _ _ _ (Nat.le_of_ble_eq_true rfl) (.inl (Nat.le_of_ble_eq_true rfl)),
      s.f_setf _ _ (Nat.le_of_ble_eq_true rfl), Nat.zero_mod]
  · rw [s.f_setf _ _ (Nat.le_of_ble_eq_true rfl)]
    exact Nat.mod_eq_of_lt (by dsimp only [Fld.width]; omega)

theorem State.mem_pointerMoved (i : Nat) : (s.pointerMoved l i).mem = s.mem := by
  unfold State.pointerMoved
  split
  · exact (State.mem_incWrap _ _).trans (s.mem_setf _ _)
  · exact s.mem_setf _ _

theorem State.hoC_pointerMoved (i : Nat) : (s.pointerMoved l i).hoC l = s.hoC l := by
  refine s.hoC_congr ?_ l
  unfold State.pointerMoved
  split
  · exact (State.ho_incWrap _ _).trans (s.ho_setf _ _)
  · exact s.ho_setf _ _

theorem State.next_intervalBegun (fit : Bool) : (s.intervalBegun l fit).f (LOOP.HIST_PTR_NEXT l) = s.f (LOOP.HIST_PTR_NEXT l) :=
  State.f_setf_key _ _ _ _ (by dsimp only [LOOP.HIST_PTR, LOOP.HO_STAT]; omega)

theorem State.mem_intervalBegun (fit : Bool) : (s.intervalBegun l fit).mem = s.mem := rfl

/-- The sums of the new interval are empty, and the next record has the next number. -/
theorem State.sums_intervalBegun (fit : Bool) : ((s.intervalBegun l fit).hoC l).seq = (s.hoC l).seq + 1 ∧
    ((s.intervalBegun l fit).hoC l).updN = 0 ∧ ((s.intervalBegun l fit).hoC l).sum = 0 ∧ ((s.intervalBegun l fit).hoC l).validN = 0 := by
  rw [State.intervalBegun, State.showRecs, State.hoC_setf, State.hoC_modHo, State.freshInterval, State.hoC_modHo]
  exact ⟨rfl, rfl, rfl, rfl⟩

/-! The end of the fit at entry to holdover. -/

/-- The model in force at the end of the fit: that of before while FIT_HOLD is 1, else one without the newest GUARD records. -/
def State.entryModel : State :=
  if s.on (LOOP.HO_CTRL_FIT_HOLD l) then s
  else s.newModel l (s.fitModel l (s.f (LOOP.HO_CTRL_GUARD l))) (s.qualifyingAll l 0).length

/-- The model is fixed for the stay in holdover, and the evaluations begin (R282, R286). -/
def State.entryFitted : State :=
  ((s.entryModel l).modHo l (fun h => { h with entryFit := false, evaluating := true, atEntry := ((s.entryModel l).hoC l).fitted })).evIf
    ((s.entryModel l).hoC l).fitted.isNone (LOOP.HO_EVENT_NO_MODEL l)

theorem execEntryFitDone_fixes {n : Fin 32} {s : State} (h : (s.hoC n).entryFit = true) :
    execEntryFitDone n s = .next (s.entryFitted n) := if_pos h

theorem State.fitted_entryModel : ((s.entryModel l).hoC l).fitted =
    if s.on (LOOP.HO_CTRL_FIT_HOLD l) = true then (s.hoC l).fitted else s.fitModel l (s.f (LOOP.HO_CTRL_GUARD l)) := by
  unfold State.entryModel
  split
  · rfl
  · rw [State.hoC_newModel]

theorem State.hoC_entryFitted : (s.entryFitted l).hoC l =
    { (s.entryModel l).hoC l with entryFit := false, evaluating := true, atEntry := ((s.entryModel l).hoC l).fitted } := by
  rw [State.entryFitted, State.hoC_evIf, State.hoC_modHo]

theorem State.fixed_entryFitted (hl : l < 32) : ((s.entryFitted l).hoC l).entryFit = false ∧
    ((s.entryFitted l).hoC l).evaluating = true ∧
    ((s.entryFitted l).hoC l).atEntry =
      (if s.on (LOOP.HO_CTRL_FIT_HOLD l) = true then (s.hoC l).fitted else s.fitModel l (s.f (LOOP.HO_CTRL_GUARD l))) ∧
    (((s.entryFitted l).hoC l).atEntry = none → (s.entryFitted l).on (LOOP.HO_EVENT_NO_MODEL l) = true) := by
  rw [State.hoC_entryFitted]
  refine ⟨rfl, rfl, s.fitted_entryModel l, fun none => ?_⟩
  rw [State.entryFitted, show ((s.entryModel l).hoC l).fitted.isNone = true from Option.isNone_iff_eq_none.2 none]
  exact State.on_hoEv _ hl (Nat.le_of_ble_eq_true rfl)

/-! Each second of holdover. -/

/-- A second is counted in HO_ELAPSED, and the limit told when it is reached (R288). -/
def State.secondCounted : State :=
  let t := s.inc (LOOP.HO_ELAPSED_S l)
  let lim := t.w (LOOP.HO_LIMIT l)
  let hit := lim != 0 && decide (lim ≤ t.w (LOOP.HO_ELAPSED l)) && !(t.hoC l).limitSet
  (t.evIf hit (LOOP.HO_EVENT_LIMIT l)).modHo l (fun h => { h with limitSet := h.limitSet || hit })

/-- y_H of a second: the model in force evaluated, or the frequency `held` where there is none (R284, R286). -/
def State.secondTarget (held : Int) : Int := (s.modelInForce l).elim held (s.evalModel l)

/-- A frequency moved towards `y` by at most the rate of a second (R284). -/
def movedTo (held y : Int) (rate : Nat) : Int := held + max (-(rate : Int)) (min (y - held) rate)

theorem execHoldoverSecond_counts {n : Fin 32} {s : State} (landed : s.landed = true) (built : s.loopBuilt n = true)
    (holds : s.loopState n = 3) : execHoldoverSecond n s = .next ((s.secondCounted n).holdoverStep n) := by
  unfold execHoldoverSecond
  rw [if_pos ⟨landed, built, holds⟩]
  rfl

theorem State.loopC_secondCounted : (s.secondCounted l).loopC l = s.loopC l := by
  unfold State.secondCounted
  extract_lets t lim hit
  exact State.loopC_congr s (((t.evIf hit _).loop_modHo l _).trans (t.loop_evIf hit _)) l

theorem State.now_secondCounted : (s.secondCounted l).now = s.now := by
  unfold State.secondCounted
  extract_lets t lim hit
  exact ((t.evIf hit _).now_modHo l _).trans (t.now_evIf hit _)

/-- The count of seconds changes a holdover unit in what it says of the limit only. -/
theorem State.hoC_secondCounted : ∃ b, (s.secondCounted l).hoC l = { s.hoC l with limitSet := b } := by
  unfold State.secondCounted
  extract_lets t lim hit
  exact ⟨_, ((t.evIf hit _).hoC_modHo l _).trans (by rw [t.hoC_evIf]; rfl)⟩

theorem State.f_secondCounted_other {y : Fld} (h : BesideHoEvent l y.key) (he : y.key ≠ LOOP.HO_ELAPSED l) :
    (s.secondCounted l).f y = s.f y := by
  unfold State.secondCounted
  extract_lets t lim hit
  rw [State.f_modHo, t.f_hoEvIf h hit (Nat.le_of_ble_eq_true rfl)]
  exact s.f_setf_key _ _ _ he

theorem State.elapsed_secondCounted (hl : l < 32) : (s.secondCounted l).f (LOOP.HO_ELAPSED_S l) =
    min (s.f (LOOP.HO_ELAPSED_S l) + 1) (2 ^ (LOOP.HO_ELAPSED_S l).width - 1) := by
  unfold State.secondCounted
  extract_lets t lim hit
  rw [State.f_modHo, t.f_hoEvIf (besideHoEvent_elapsed hl) hit (Nat.le_of_ble_eq_true rfl)]
  exact s.f_inc _ (Nat.le_of_ble_eq_true rfl)

theorem State.evalModel_congr {t : State} (now : t.now = s.now) (temp : (t.hoC l).tEff = (s.hoC l).tEff) (m : Model) :
    t.evalModel l m = s.evalModel l m := by
  unfold State.evalModel State.uptimeMs
  rw [now, temp]

theorem State.secondTarget_congr {t : State} (now : t.now = s.now) (own : t.f (LOOP.HO_CTRL_OVR l) = s.f (LOOP.HO_CTRL_OVR l))
    (loaded : (t.hoC l).loaded = (s.hoC l).loaded) (atEntry : (t.hoC l).atEntry = (s.hoC l).atEntry)
    (temp : (t.hoC l).tEff = (s.hoC l).tEff) (held : Int) : t.secondTarget l held = s.secondTarget l held := by
  unfold State.secondTarget
  rw [State.modelInForce, State.on_of_f s _ own, loaded, atEntry, ← State.modelInForce]
  cases s.modelInForce l with
  | none => rfl
  | some m => exact s.evalModel_congr l now temp m

/-- HO_STAT shows whether the loaded model is evaluated (R296). -/
def State.ownShown : State := s.setb (LOOP.HO_STAT_OVR_ACTIVE l) (s.on (LOOP.HO_CTRL_OVR l))

theorem State.f_ownShown_other {y : Fld} (h : y.key ≠ LOOP.HO_STAT l) : (s.ownShown l).f y = s.f y := s.f_setf_key _ _ _ h

theorem State.hoC_ownShown : (s.ownShown l).hoC l = s.hoC l := s.hoC_setb _ _ l

/-- The frequency is `new`, on its way to `y`, before the end of a ramp is told. -/
def State.secondMoved (new y : Int) : State :=
  ((s.ownShown l).modHo l (fun h => { h with yho := new, ramp := h.ramp && new != y })).setb (LOOP.HO_STAT_RAMPING l) (new != y)

theorem State.yho_secondMoved (new y : Int) : ((s.secondMoved l new y).hoC l).yho = new := by
  rw [State.secondMoved, State.hoC_setb, State.hoC_modHo]

theorem State.ramping_secondMoved (new y : Int) : (s.secondMoved l new y).on (LOOP.HO_STAT_RAMPING l) = (new != y) :=
  State.on_setb _ _ _ (Nat.le_of_ble_eq_true rfl) (Nat.le_of_ble_eq_true rfl)

theorem State.elapsed_secondMoved (new y : Int) : (s.secondMoved l new y).f (LOOP.HO_ELAPSED_S l) = s.f (LOOP.HO_ELAPSED_S l) := by
  have stat : LOOP.HO_ELAPSED l ≠ LOOP.HO_STAT l := by dsimp only [LOOP.HO_ELAPSED, LOOP.HO_STAT]; omega
  rw [State.secondMoved, State.setb, State.f_setf_key _ _ _ _ stat, State.f_modHo, s.f_ownShown_other l stat]

theorem State.holdoverStep_moves (evaluates : (s.hoC l).evaluating = true) (free : (s.loopC l).mig = none) :
    ∃ told, s.holdoverStep l =
      (s.secondMoved l (movedTo (s.hoC l).yho ((s.ownShown l).secondTarget l (s.hoC l).yho) ((s.ownShown l).f (LOOP.HO_FRATE_RATE l)))
        ((s.ownShown l).secondTarget l (s.hoC l).yho)).evIf told (LOOP.HO_EVENT_RAMP_DONE l) := by
  unfold State.holdoverStep State.secondTarget State.ownShown
  dsimp only
  rw [if_neg (by rw [evaluates, free]; decide)]
  cases (s.setb (LOOP.HO_STAT_OVR_ACTIVE l) (s.on (LOOP.HO_CTRL_OVR l))).modelInForce l with
  | none => exact ⟨_, rfl⟩
  | some m => exact ⟨_, rfl⟩

/-- What a second leaves of a loop that evaluates. -/
theorem State.moved_second (hl : l < 32) (evaluates : (s.hoC l).evaluating = true) (free : (s.loopC l).mig = none) :
    ((s.secondCounted l).holdoverStep l).f (LOOP.HO_ELAPSED_S l) =
        min (s.f (LOOP.HO_ELAPSED_S l) + 1) (2 ^ (LOOP.HO_ELAPSED_S l).width - 1) ∧
      (((s.secondCounted l).holdoverStep l).hoC l).yho =
        movedTo (s.hoC l).yho (s.secondTarget l (s.hoC l).yho) (s.f (LOOP.HO_FRATE_RATE l)) ∧
      ((s.secondCounted l).holdoverStep l).on (LOOP.HO_STAT_RAMPING l) =
        ((((s.secondCounted l).holdoverStep l).hoC l).yho != s.secondTarget l (s.hoC l).yho) := by
  obtain ⟨b, core⟩ := s.hoC_secondCounted l
  have counted : ∀ y : Fld, BesideHoEvent l y.key → y.key ≠ LOOP.HO_STAT l → y.key ≠ LOOP.HO_ELAPSED l →
      ((s.secondCounted l).ownShown l).f y = s.f y := fun y event stat elapsed =>
    (State.f_ownShown_other _ l stat).trans (s.f_secondCounted_other l event elapsed)
  have rate := counted (LOOP.HO_FRATE_RATE l) (besideHoEvent_frate hl) (by dsimp only [LOOP.HO_FRATE, LOOP.HO_STAT]; omega)
    (by dsimp only [LOOP.HO_FRATE, LOOP.HO_ELAPSED]; omega)
  have own := counted (LOOP.HO_CTRL_OVR l) (besideHoEvent_ctrl hl) (by dsimp only [LOOP.HO_CTRL, LOOP.HO_STAT]; omega)
    (by dsimp only [LOOP.HO_CTRL, LOOP.HO_ELAPSED]; omega)
  have shown := (State.hoC_ownShown _ l).trans core
  have target := s.secondTarget_congr l (t := (s.secondCounted l).ownShown l) ((State.now_setb _ _ _).trans (s.now_secondCounted l))
    own (congrArg (·.loaded) shown) (congrArg (·.atEntry) shown) (congrArg (·.tEff) shown) (s.hoC l).yho
  obtain ⟨told, moves⟩ := (s.secondCounted l).holdoverStep_moves l (by rw [core]; exact evaluates)
    (by rw [State.loopC_secondCounted]; exact free)
  have held : ((s.secondCounted l).hoC l).yho = (s.hoC l).yho := by rw [core]
  rw [held, target, rate] at moves
  rw [moves, State.hoC_evIf, State.yho_secondMoved]
  refine ⟨?_, rfl, ?_⟩
  · rw [State.f_hoEvIf _ (besideHoEvent_elapsed hl) _ (Nat.le_of_ble_eq_true rfl), State.elapsed_secondMoved,
      s.elapsed_secondCounted l hl]
  · rw [State.on_of_f _ _ (State.f_hoEvIf _ (besideHoEvent_stat hl) _ (Nat.le_of_ble_eq_true rfl)), State.ramping_secondMoved]

end

end Sys2Proof.Machine
end

section
/-! PROOFS. Holdover (O41): what a sample of temperature and the commands for models leave. -/

namespace Sys2Proof.Machine

theorem exec_historyIntervalEnd (n : Fin 32) (s : State) : exec (.historyIntervalEnd n) s = .next (s.historyEnd n) := rfl
theorem exec_refitDone (n : Fin 32) (s : State) : exec (.refitDone n) s = execRefitDone n s := rfl
theorem exec_entryFitDone (n : Fin 32) (s : State) : exec (.entryFitDone n) s = execEntryFitDone n s := rfl
theorem exec_holdoverSecond (n : Fin 32) (s : State) : exec (.holdoverSecond n) s = execHoldoverSecond n s := rfl
theorem exec_temperatureSample (n : Fin 32) (die : Int) (s : State) :
    exec (.temperatureSample n die) s = execTemperatureSample n die s := rfl
theorem exec_tempStaleTimeout (n : Fin 32) (s : State) : exec (.tempStaleTimeout n) s = execTempStaleTimeout n s := rfl
theorem exec_fetchModel (p : Port) (n : Fin 32) (s : State) : exec (.fetchModel p n) s =
    .next (s.doorbell p (LOOP.HO_CMD n) false (fun s => s.loopCommand p n 4 (fun s => s.fetchModel p n))) := rfl
theorem exec_loadModel (p : Port) (n : Fin 32) (s : State) : exec (.loadModel p n) s =
    .next (s.doorbell p (LOOP.HO_CMD n) true (fun s => s.loopCommand p n 5 (fun s => s.loadModel p n))) := rfl
theorem exec_clearHistory (p : Port) (n : Fin 32) (s : State) : exec (.clearHistory p n) s =
    .next (s.doorbell p (LOOP.HO_CMD n) true (fun s => s.loopCommand p n 6 (fun s => s.clearHistory n))) := rfl

section

variable (s : State) (l : Nat)

/-! Temperature. -/

/-- A sample `x`, with the settings that take effect at it (R273, R274). -/
def State.temperatureTaken (x : Int) : State :=
  let src := s.f (LOOP.HO_CTRL_TSRC l)
  let h := s.hoC l
  let old := if src = h.tsrc then h.tEff else none
  let qual := if (src = 2) = (h.tsrc = 2) then h.qualFrom else h.seq
  (s.modHo l (fun h => { h with
    tsrc := src, tlag := s.f (LOOP.HO_TLAG_S l), tref := s.fi (LOOP.HO_TREF_T l), tRaw := x, qualFrom := qual
    tEff := if src = 2 then none else some (lagStep old x (s.f (LOOP.HO_TLAG_S l))) })).when (qual != h.qualFrom) (fun s => s.showRecs l)

/-- Of a sample that is not the host's, HO_STAT does not say that it is stale. -/
def State.temperatureShown (x : Int) : State :=
  if s.f (LOOP.HO_CTRL_TSRC l) = 1 then s.temperatureTaken l x else (s.temperatureTaken l x).setf (LOOP.HO_STAT_TEMP_STALE l) 0

theorem execTemperatureSample_takes {n : Fin 32} {s : State} (die : Int) (landed : s.landed = true) (built : s.loopBuilt n = true) :
    execTemperatureSample n die s =
      .next (s.temperatureShown n (if s.f (LOOP.HO_CTRL_TSRC n) = 0 then die else s.fi (LOOP.HO_TEMP_T n))) := by
  unfold execTemperatureSample
  rw [if_neg (by rw [landed, built]; decide)]
  rfl

theorem State.hoC_temperatureTaken (x : Int) : ∃ q, (s.temperatureTaken l x).hoC l = { s.hoC l with
    tsrc := s.f (LOOP.HO_CTRL_TSRC l), tlag := s.f (LOOP.HO_TLAG_S l), tref := s.fi (LOOP.HO_TREF_T l), tRaw := x, qualFrom := q
    tEff := if s.f (LOOP.HO_CTRL_TSRC l) = 2 then none
      else some (lagStep (if s.f (LOOP.HO_CTRL_TSRC l) = (s.hoC l).tsrc then (s.hoC l).tEff else none) x (s.f (LOOP.HO_TLAG_S l))) } := by
  have shown : ∀ (t : State) (c : Bool), (t.when c (fun s => s.showRecs l)).hoC l = t.hoC l := fun t c => by
    cases c <;> rfl
  unfold State.temperatureTaken
  extract_lets src h old qual
  rw [shown, State.hoC_modHo]
  exact ⟨_, rfl⟩

theorem State.hoC_temperatureShown (x : Int) : (s.temperatureShown l x).hoC l = (s.temperatureTaken l x).hoC l := by
  unfold State.temperatureShown
  split
  · rfl
  · exact State.hoC_setf _ _ _ l

theorem State.stale_temperatureShown (x : Int) (h : s.f (LOOP.HO_CTRL_TSRC l) ≠ 1) :
    (s.temperatureShown l x).f (LOOP.HO_STAT_TEMP_STALE l) = 0 := by
  rw [State.temperatureShown, if_neg h, State.f_setf _ _ _ (Nat.le_of_ble_eq_true rfl), Nat.zero_mod]

/-- The host temperature shows as stale, and its event is told (R273). -/
def State.tempStale : State := (s.setf (LOOP.HO_STAT_TEMP_STALE l) 1).ev (LOOP.HO_EVENT_TEMP_STALE l)

theorem State.shown_tempStale (hl : l < 32) :
    (s.tempStale l).f (LOOP.HO_STAT_TEMP_STALE l) = 1 ∧ (s.tempStale l).on (LOOP.HO_EVENT_TEMP_STALE l) = true := by
  refine ⟨?_, State.on_hoEv _ hl (Nat.le_of_ble_eq_true rfl)⟩
  rw [State.tempStale, State.f_hoEv _ (besideHoEvent_stat hl) (Nat.le_of_ble_eq_true rfl), s.f_setf _ _ (Nat.le_of_ble_eq_true rfl)]
  rfl

theorem execTempStaleTimeout_tells {n : Fin 32} {s : State} (landed : s.landed = true) (built : s.loopBuilt n = true)
    (host : (s.hoC n).tsrc = 1) (fresh : s.on (LOOP.HO_STAT_TEMP_STALE n) = false)
    (old : (s.hoC n).tempAt + 120000000000 ≤ s.now) : execTempStaleTimeout n s = .next (s.tempStale n) := by
  unfold execTempStaleTimeout
  rw [if_pos ⟨landed, built, host, by rw [fresh]; rfl, old⟩]
  rfl

/-! Commands for models. -/

/-- A command of a loop that does not migrate runs at once. -/
theorem State.takes.commandRuns {s : State} {p : Port} {key : Nat} {pilot : Bool} {l bit : Nat} {g : State → State}
    (ok : s.takes p key pilot) (free : (s.loopC l).mig = none) :
    s.doorbell p key pilot (fun s => s.loopCommand p l bit g) = g (s.status p .ok) := by
  obtain ⟨reached, check⟩ := ok
  rw [s.doorbell_ok _ reached check]
  exact State.loopCommand_runs (by rw [State.loopC_status]; exact free)

theorem State.code_complete (c : Code) : (s.complete (LOOP.HO_CODE_CODE l) c).f (LOOP.HO_CODE_CODE l) = c.num :=
  (s.f_setf _ _ (Nat.le_of_ble_eq_true rfl)).trans (Nat.mod_eq_of_lt c.num_lt)

theorem State.w_complete_other (c : Code) {j : Nat} (h : j ≠ LOOP.HO_CODE l) : (s.complete (LOOP.HO_CODE_CODE l) c).w j = s.w j :=
  s.w_setf_other _ _ h

/-- A loaded model is in its place, and its copy in the scratchpad (R295, R305). -/
def State.modelLoaded (m : Model) : State :=
  let t := s.modHo l (fun h => { h with loaded := some m, ramp := h.ramp || s.on (LOOP.HO_CTRL_OVR l) })
  t.bankWrite (t.engineOf l * spSize + 0x60500) (wordsLe (modelRecord (some m)))

theorem State.loadModel_takes {p : Port} {ws : List Word} {m : Model} (filled : s.mboxIn p 20 = some ws)
    (good : modelOfRecord ws s.uptimeMs = some m) : s.loadModel p l =
      (((s.modelLoaded l m).ev (LOOP.HO_EVENT_LOAD_DONE l)).mboxEmpty p).complete (LOOP.HO_CODE_CODE l) .ok := by
  unfold State.loadModel
  rw [filled, Option.bind_some, good]
  rfl

theorem State.loaded_modelLoaded (m : Model) : ((s.modelLoaded l m).hoC l).loaded = some m := by
  unfold State.modelLoaded
  extract_lets t
  rw [State.hoC_bankWrite]
  exact congrArg HoCore.loaded (s.hoC_modHo l _)

theorem State.loadModel_loads {p : Port} {ws : List Word} {m : Model} (hl : l < 32) (filled : s.mboxIn p 20 = some ws)
    (good : modelOfRecord ws s.uptimeMs = some m) :
    ((s.loadModel p l).hoC l).loaded = some m ∧ (s.loadModel p l).f (LOOP.HO_CODE_CODE l) = 0 ∧
      (s.loadModel p l).on (LOOP.HO_EVENT_LOAD_DONE l) = true ∧ (s.loadModel p l).w (HOST.MBOX_STAT p) = 0 := by
  have mbox : HOST.MBOX_STAT p ≠ LOOP.HO_CODE l ∧ HOST.MBOX_STAT p ≠ LOOP.HO_EVENT l := by
    cases p <;> dsimp only [HOST.MBOX_STAT, portBase, LOOP.HO_CODE, LOOP.HO_EVENT] <;> omega
  have event : LOOP.HO_EVENT l ≠ LOOP.HO_CODE l := by dsimp only [LOOP.HO_EVENT, LOOP.HO_CODE]; omega
  rw [s.loadModel_takes l filled good]
  generalize told : (s.modelLoaded l m).ev (LOOP.HO_EVENT_LOAD_DONE l) = t
  have core : ((t.mboxEmpty p).complete (LOOP.HO_CODE_CODE l) .ok).hoC l = (s.modelLoaded l m).hoC l :=
    State.hoC_congr _ (by rw [State.ho_complete, State.ho_mboxEmpty, ← told, State.ho_ev]) l
  refine ⟨by rw [core, State.loaded_modelLoaded], State.code_complete _ l .ok, ?_, ?_⟩
  · rw [State.on_of_f t _ (State.f_of_w _ _ ((State.w_complete_other _ l .ok event).trans (State.w_setw_other _ _ _ mbox.2.symm))), ← told]
    exact State.on_hoEv _ hl (Nat.le_of_ble_eq_true rfl)
  · rw [State.w_complete_other _ l .ok mbox.1]
    exact State.w_setw_self _ _ _

/-- The records of a loop are marked wherever they stand (R297, R311). -/
def State.historyMarked : State := s.forL (s.historyHolders l).eraseDups State.markHistory

theorem State.hoC_historyMarked : (s.historyMarked l).hoC l = s.hoC l :=
  s.hoC_congr ((Moves.forL (Moves.refl s) fun _ _ h => h.markHistory (Sub.refl _)).p26 (K := 0x8) rfl) l

/-- The loop has no model, and no record that qualifies; the copy of its model at `a` says so. -/
def State.modelDropped (a : Nat) : State :=
  ((s.modHo l (fun h => { h with qualFrom := h.seq, fitted := none, qualified := 0, refit := false })).modelShown l none 0).bankWrite
    a (wordsLe (modelRecord none))

theorem State.clearHistory_locked (h : s.loopState l = 3) : s.clearHistory l = s.complete (LOOP.HO_CODE_CODE l) .locked := if_pos h

theorem State.clearHistory_clears (h : s.loopState l ≠ 3) : ∃ a had, s.clearHistory l =
    (((s.historyMarked l).modelDropped l a).evIf had (LOOP.HO_EVENT_MODEL_LOST l)).complete (LOOP.HO_CODE_CODE l) .ok := by
  refine ⟨s.engineOf l * spSize + 0x60400, ((s.historyMarked l).hoC l).fitted.isSome, ?_⟩
  unfold State.clearHistory
  rw [if_neg h]
  rfl

theorem State.hoC_modelDropped (a : Nat) : (s.modelDropped l a).hoC l =
    { s.hoC l with qualFrom := (s.hoC l).seq, fitted := none, qualified := 0, refit := false } := by
  rw [State.modelDropped, State.hoC_bankWrite, State.hoC_modelShown, State.hoC_modHo]

theorem State.modelOk_modelDropped (hl : l < 32) (a : Nat) : (s.modelDropped l a).f (LOOP.HO_STAT_MODEL_OK l) = 0 := by
  have shown := State.modelOk_modelShown (s.modHo l (fun h => { h with qualFrom := h.seq, fitted := none, qualified := 0, refit := false })) l none 0
  rw [State.modelDropped, State.f_bankWrite_ho _ (besideHoEvent_stat hl)]
  exact bne_eq_false_iff_eq.1 shown

/-- What CLEAR_HISTORY leaves outside HOLDOVER. -/
theorem State.clearHistory_drops (hl : l < 32) (h : s.loopState l ≠ 3) :
    (s.clearHistory l).f (LOOP.HO_CODE_CODE l) = 0 ∧ ((s.clearHistory l).hoC l).fitted = none ∧
      ((s.clearHistory l).hoC l).qualified = 0 ∧ ((s.clearHistory l).hoC l).qualFrom = (s.hoC l).seq ∧
      (s.clearHistory l).f (LOOP.HO_STAT_MODEL_OK l) = 0 := by
  obtain ⟨a, had, cleared⟩ := s.clearHistory_clears l h
  generalize dropped : (s.historyMarked l).modelDropped l a = t at cleared
  have core : (s.clearHistory l).hoC l = t.hoC l := by rw [cleared]; exact t.hoC_congr (t.ho_evIf had _) l
  rw [core, cleared]
  refine ⟨State.code_complete _ l .ok, ?_⟩
  rw [State.f_of_w _ _ (State.w_complete_other _ l .ok (by dsimp only [LOOP.HO_STAT, LOOP.HO_CODE]; omega)),
    t.f_hoEvIf (besideHoEvent_stat hl) had (Nat.le_of_ble_eq_true rfl), ← dropped, State.hoC_modelDropped, State.hoC_historyMarked,
    State.modelOk_modelDropped _ l hl]
  exact ⟨rfl, rfl, rfl, rfl⟩

end

/-- Settles O41: each clause by what its command leaves: `historyEnd_records`, `newModel_eq`, `holdoverStep_moves` and their like say so. -/
theorem holdover : Obligations.Holdover := by
  unfold Obligations.Holdover
  refine ⟨?interval, ?refit, ?entryFit, ?second, ?sample, ?stale, ?fetch, ?load, ?clear⟩
  case interval =>
    intro n s landed built selector notIdle notFerry inRange
    have recording : s.recording n = true := by
      unfold State.recording
      rw [landed, built, selector, bne_iff_ne.2 notIdle, bne_iff_ne.2 notFerry]
      rfl
    obtain ⟨fit, ends⟩ := s.historyEnd_records n recording
    have same : ((s.recordStored n).pointerMoved n (s.f (LOOP.HIST_PTR_NEXT n))).hoC n = s.hoC n :=
      (State.hoC_pointerMoved _ n _).trans (s.hoC_bankWrite _ _ n)
    refine ⟨_, (exec_historyIntervalEnd n s).trans (congrArg _ ends), ?_, fun i hi => ?_, ?_⟩
    · rw [State.next_intervalBegun, State.next_pointerMoved _ n inRange]
    · unfold State.byte
      rw [State.mem_intervalBegun, State.mem_pointerMoved]
      exact s.byte_bankWrite_at _ _ (by rwa [State.histRecord_length])
    · rw [← same]
      exact State.sums_intervalBegun _ n fit
  case refit =>
    intro n s refit free
    refine ⟨_, (exec_refitDone n s).trans (if_pos ⟨refit, by rw [free]; rfl⟩), ?_⟩
    rw [State.hoC_newModel, State.modelOk_newModel _ n n.isLt]
    exact ⟨rfl, rfl, rfl, rfl⟩
  case entryFit =>
    intro n s entryFit
    exact ⟨_, (exec_entryFitDone n s).trans (execEntryFitDone_fixes entryFit), s.fixed_entryFitted n n.isLt⟩
  case second =>
    intro n s landed built holds evaluates free y
    have target : y = s.secondTarget n (s.hoC n).yho := by
      unfold y State.secondTarget
      cases s.modelInForce n with
      | none => rfl
      | some m => rfl
    rw [target]
    exact ⟨_, (exec_holdoverSecond n s).trans (execHoldoverSecond_counts landed built holds), s.moved_second n n.isLt evaluates free⟩
  case sample =>
    intro n die s landed built x
    refine ⟨_, (exec_temperatureSample n die s).trans (execTemperatureSample_takes die landed built), ?_⟩
    obtain ⟨q, core⟩ := s.hoC_temperatureTaken n x
    rw [State.hoC_temperatureShown, core]
    exact ⟨rfl, rfl, rfl, rfl, rfl, s.stale_temperatureShown n x⟩
  case stale =>
    intro n s landed built host fresh old
    exact ⟨_, (exec_tempStaleTimeout n s).trans (execTempStaleTimeout_tells landed built host fresh old), s.shown_tempStale n n.isLt⟩
  case fetch =>
    intro p n s ok free
    refine ⟨_, (exec_fetchModel p n s).trans (congrArg _ (ok.commandRuns free)), ?_, ?_⟩
    · unfold State.fetchModel
      rw [State.ho_mboxOut, State.ho_status]
    · rw [← s.hoC_status p .ok, ← State.on_of_f s _ (s.f_status p .ok _)]
      exact State.mboxHolds_mboxOut _ p _ (by rw [modelRecord_length]; decide)
  case load =>
    intro p n ws m s ok free filled good
    exact ⟨_, (exec_loadModel p n s).trans (congrArg _ (ok.commandRuns free)),
      State.loadModel_loads _ n n.isLt (by rwa [State.mboxIn_status]) (by rwa [State.uptimeMs, State.now_status])⟩
  case clear =>
    intro p n s ok free
    have state : (s.status p .ok).loopState n = s.loopState n := s.f_status p .ok _
    refine ⟨_, (exec_clearHistory p n s).trans (congrArg _ (ok.commandRuns free)), fun held => ?_, fun other => ?_⟩
    · rw [State.clearHistory_locked _ n (state.trans held)]
      exact ⟨State.code_complete _ n .locked, (State.ho_complete _ _ _).trans (s.ho_status p .ok)⟩
    · rw [← s.hoC_status p .ok]
      exact State.clearHistory_drops _ n n.isLt (by rwa [state])

end Sys2Proof.Machine
end

section
/-! PROOFS. The end of a migration into an engine that is FENCED (O42): the receiving engine counts as one that has failed, and the loop does
not resume on it. -/

namespace Sys2Proof.Machine

theorem exec_failoverResume (n : Fin 32) (chk : CheckOutcome) (s : State) :
    exec (.failoverResume n chk) s = .next (s.migrationEnd n false chk) := rfl

section

variable (s : State) (l src dst : Nat)

/-! What taking over leaves of the engine map and of the loop. -/

theorem State.w_bankWrite_engine (a : Nat) (bs : List Byte) {e : Nat} (he : e < 36) :
    (s.bankWrite a bs).w (ENG.ENGINE e) = s.w (ENG.ENGINE e) :=
  (State.w_forL_other _ _ fun t x => t.w_eccWrite_other x
    (intrKey_false (by dsimp only [ENG.ENGINE]; omega) (by dsimp only [ENG.ENGINE]; omega)) (by dsimp only [ENG.ENGINE, FLT.STATUS]; omega)
    (by dsimp only [ENG.ENGINE, FLT.EVENT]; omega)).trans rfl

theorem State.w_copyCheckpoint_engine {e : Nat} (he : e < 36) : (s.copyCheckpoint src dst).w (ENG.ENGINE e) = s.w (ENG.ENGINE e) := by
  unfold State.copyCheckpoint
  split
  · exact State.w_bankWrite_engine _ _ _ he
  · rfl

theorem State.w_takeOver_engine {e : Nat} (he : e < 36) : (s.takeOver l src dst).w (ENG.ENGINE e) = s.w (ENG.ENGINE e) :=
  (State.w_setf_other _ _ _ (by dsimp only [ENG.ENGINE, LOOP.STATUS]; omega)).trans
    ((State.w_bankWrite_engine _ _ _ he).trans (s.w_copyCheckpoint_engine src dst he))

theorem State.loop_takeOver : (s.takeOver l src dst).loop = s.loop := State.loop_beside fun _ m => m.takeOver

/-- What a loop takes from the checkpoint `k`, which is that of its last update (R309 step 5). -/
def State.newestLoaded (k : Checkpoint) : State :=
  let t := ((s.loadModels l src).modHo l (fun h => h.reloaded k.ho true)).showModel l
  let u := t.modLoop l (fun c => c.reloaded k.core)
  (u.showStep l).setb (LOOP.STATUS_ARMED l) (u.loopC l).armed.isSome

variable {s l src} {k : Checkpoint}

theorem State.loadState_newest (stands : s.lastCheckpoint src = some k) (newest : k.core.seq = (s.loopC l).seq) :
    s.loadState l src = s.newestLoaded l src k := by
  have same : (k.core.seq == (s.loopC l).seq) = true := beq_iff_eq.2 newest
  unfold State.loadState
  rw [stands]
  dsimp only
  rw [same]
  rfl

theorem State.loopC_newestLoaded : (s.newestLoaded l src k).loopC l = (s.loopC l).reloaded k.core := by
  unfold State.newestLoaded
  extract_lets t u
  have models : t.loop = s.loop := State.loop_beside fun _ m => ((m.loadModels).modHo).showModel
  rw [u.loopC_congr ((State.loop_setb _ _ _).trans (u.loop_showStep l)), show u.loopC l = _ from t.loopC_modLoop l _,
    s.loopC_congr models]

theorem State.w_newestLoaded_engine {e : Nat} (he : e < 36) : (s.newestLoaded l src k).w (ENG.ENGINE e) = s.w (ENG.ENGINE e) := by
  have apart : ∀ o, 0x400000 ≤ o → ENG.ENGINE e ≠ o := fun o h => by dsimp only [ENG.ENGINE]; omega
  have below : 0x400000 ≤ LOOP.STATUS l ∧ 0x400000 ≤ LOOP.STEP_LEFT l ∧ 0x400000 ≤ LOOP.HO_STAT l := by
    dsimp only [LOOP.STATUS, LOOP.STEP_LEFT, LOOP.HO_STAT]; omega
  obtain ⟨status, left, ho⟩ := below
  have shown : ∀ t : State, (t.showModel l).w (ENG.ENGINE e) = t.w (ENG.ENGINE e) := fun t =>
    (State.w_setf_other _ _ _ (apart _ ho)).trans ((State.w_setf_other _ _ _ (apart _ ho)).trans (State.w_setf_other _ _ _ (apart _ ho)))
  have step : ∀ t : State, (t.showStep l).w (ENG.ENGINE e) = t.w (ENG.ENGINE e) := fun t =>
    (State.w_setf_other _ _ _ (apart _ status)).trans (State.w_setf_other _ _ _ (apart _ left))
  unfold State.newestLoaded
  extract_lets t u
  have models : t.w (ENG.ENGINE e) = s.w (ENG.ENGINE e) := (shown _).trans (s.w_congr (rfl) _)
  have core : u.w (ENG.ENGINE e) = t.w (ENG.ENGINE e) := t.w_congr (State.regs_modLoop _ _ _) _
  rw [← models, ← core, ← step u]
  exact State.w_setf_other _ _ _ (apart _ status)

/-- A loop for which nothing waits has resumed: what it then holds. -/
theorem State.resumeOn_idle (stands : s.lastCheckpoint src = some k) (newest : k.core.seq = (s.loopC l).seq)
    (waiting : (s.loopC l).waiting = []) (orders : (s.loopC l).orders = []) :
    s.resumeOn l src dst = ((s.newestLoaded l src k).takeOver l src dst).modLoop l
      (fun c => { c with mig := none, orders := [], waiting := [] }) := by
  have core : ((s.newestLoaded l src k).takeOver l src dst).loopC l = (s.loopC l).reloaded k.core :=
    (State.loopC_congr _ (State.loop_takeOver _ l src dst) l).trans State.loopC_newestLoaded
  unfold State.resumeOn
  rw [State.loadState_newest stands newest]
  dsimp only
  rw [core, show ((s.loopC l).reloaded k.core).waiting = [] from waiting, show ((s.loopC l).reloaded k.core).orders = [] from orders]
  rfl

theorem State.forL_nil {α : Type} (t : State) (g : State → α → State) : t.forL [] g = t := rfl

theorem LoopCore.kept_reloaded (c k : LoopCore) : (c.reloaded k).kept = c.kept := rfl

section

variable (stands : s.lastCheckpoint src = some k) (newest : k.core.seq = (s.loopC l).seq)
  (waiting : (s.loopC l).waiting = []) (orders : (s.loopC l).orders = [])

include stands newest waiting orders

theorem State.w_resumeOn_idle {e : Nat} (he : e < 36) : (s.resumeOn l src dst).w (ENG.ENGINE e) = s.w (ENG.ENGINE e) := by
  rw [State.resumeOn_idle dst stands newest waiting orders, State.w_congr _ (State.regs_modLoop _ _ _),
    State.w_takeOver_engine _ l src dst he, State.w_newestLoaded_engine he]

theorem State.kept_resumeOn_idle : ((s.resumeOn l src dst).loopC l).kept = (s.loopC l).kept := by
  rw [State.resumeOn_idle dst stands newest waiting orders, State.loopC_modLoop, State.loopC_congr _ (State.loop_takeOver _ l src dst),
    State.loopC_newestLoaded]
  exact (s.loopC l).kept_reloaded k.core

theorem State.passed_resumeOn_idle (kept : (s.loopC l).kept = []) : (s.resumeOn l src dst).passed l = [] := by
  unfold State.passed
  rw [State.kept_resumeOn_idle dst stands newest waiting orders, kept, List.filter_nil]

theorem State.firstFails_fenced (kept : (s.loopC l).kept = []) (hd : dst < 36) (fenced : s.engState dst = 4) :
    (s.resumeOn l src dst).firstFails l dst = some (s.f (ENG.ENGINE_CAUSE dst)) := by
  have map := State.w_resumeOn_idle dst stands newest waiting orders hd
  have target : (s.resumeOn l src dst).engState dst = 4 := (s.f_of_w (ENG.ENGINE_STATE dst) map).trans fenced
  unfold State.firstFails
  rw [State.passed_resumeOn_idle dst stands newest waiting orders kept, List.take_nil]
  dsimp only
  rw [State.forL_nil, if_pos target, s.f_of_w (ENG.ENGINE_CAUSE dst) map]

/-- With every interval that is kept accounted for, a FENCED receiving engine is one whose first update has failed (R317). -/
theorem State.resume_fenced (planned retire : Bool) (kept : (s.loopC l).kept = []) (hd : dst < 36)
    (fenced : s.engState dst = 4) : s.resume l src dst planned retire =
      s.receiverFails l src dst (s.f (ENG.ENGINE_CAUSE dst)) planned retire (s.f (ENG.ENGINE_CAUSE dst) == 6) := by
  unfold State.resume
  dsimp only
  rw [State.firstFails_fenced dst stands newest waiting orders kept hd fenced, State.resumeEnd]

end

end

/-! The CRC of a checkpoint, and a state in which a failover has a FENCED engine to go to. -/

/-- The CRC register of CRC-32C after `n` more zero bytes. -/
def crcOverZeros (n c : Nat) : Nat := (List.replicate n (0 : Byte)).foldl (fun c b => crcShift 0x82F63B78 8 (Nat.xor c b.toNat)) c

theorem crcOverZeros_add (m n c : Nat) : crcOverZeros (m + n) c = crcOverZeros n (crcOverZeros m c) := by
  unfold crcOverZeros
  rw [List.replicate_add, List.foldl_append]

theorem crc32c_of_register (bs : List Byte) (v : Nat)
    (h : bs.foldl (fun c b => crcShift 0x82F63B78 8 (Nat.xor c b.toNat)) 0xFFFFFFFF = v) : crc32c bs = 0xFFFFFFFF - v := by
  rw [← h]
  rfl

/-- The CRC of a checkpoint of zeros, in parts that the kernel evaluates one by one. -/
theorem crc_blankCheckpoint : crc32c (List.replicate 508 0) = 0xFFFFFFFF - 0x13A8563C := by
  have first : crcOverZeros 127 0xFFFFFFFF = 2705689140 := by decide +kernel
  have second : crcOverZeros 127 2705689140 = 549633433 := by decide +kernel
  have third : crcOverZeros 127 549633433 = 4050580991 := by decide +kernel
  have last : crcOverZeros 127 4050580991 = 0x13A8563C := by decide +kernel
  refine crc32c_of_register _ _ ?_
  show crcOverZeros (127 + 127 + 127 + 127) 0xFFFFFFFF = 0x13A8563C
  rw [crcOverZeros_add, crcOverZeros_add, crcOverZeros_add, first, second, third, last]

/-- The checkpoint of a loop that acquires, before its first update. -/
def firstCheckpoint : Checkpoint := ⟨1, false, 0, true, 0, {}, {}⟩

/-- Loop 0 fails over from engine 0, in whose slot 0 a checkpoint stands with its CRC, to engine 1; both engines are FENCED. All else is
as after reset, and `State.numbered` is true. -/
def fencedTarget : State :=
  ({ mem := [(0x601FC, 0xC3), (0x601FD, 0xA9), (0x601FE, 0x57), (0x601FF, 0xEC)]
     eng := { cks := [(0, firstCheckpoint)] }
     loop := [(0, { mig := some (0, 1, false, false) })] } : State)
    |>.setf (ENG.ENGINE_STATE 0) 4 |>.setf (ENG.ENGINE_STATE 1) 4

theorem fencedTarget_lastCheckpoint : fencedTarget.lastCheckpoint 0 = some firstCheckpoint := by
  have body : (fencedTarget.bytes (slotAt 0 0) 0x200).take 0x1FC = List.replicate 508 0 := by decide +kernel
  have sum : ofLe ((fencedTarget.bytes (slotAt 0 0) 0x200).drop 0x1FC) = 0xEC57A9C3 := by decide +kernel
  have good : fencedTarget.slotGood 0 0 = true := by
    unfold State.slotGood
    dsimp only
    rw [body, sum, crc_blankCheckpoint]
    decide +kernel
  have older : ¬ fencedTarget.word64 (slotAt 0 0) < fencedTarget.word64 (slotAt 0 1) := by decide +kernel
  have slot : fencedTarget.lastSlot 0 = some 0 := by
    unfold State.lastSlot
    rw [good, if_neg older, if_pos (c := (true = true)) rfl, ite_self]
  unfold State.lastCheckpoint
  rw [slot]
  rfl

/-- The failover counts engine 1 as failed, and goes on to engine 2. -/
theorem fencedTarget_migrationEnd : fencedTarget.migrationEnd 0 false .pass = fencedTarget.receiverFails 0 0 1 0 false false false := by
  have stands : fencedTarget.hasCheckpoint 0 = true := congrArg Option.isSome fencedTarget_lastCheckpoint
  have due : ¬ (false ≠ false ∨ fencedTarget.awaitsUpdate 0 = true) := by decide +kernel
  unfold State.migrationEnd
  rw [show (fencedTarget.loopC 0).mig = some (0, 1, false, false) by decide +kernel]
  dsimp only
  rw [if_neg due, if_pos stands]
  exact State.resume_fenced 1 fencedTarget_lastCheckpoint (by decide +kernel) (by decide +kernel) (by decide +kernel) false false
    (by decide +kernel) (by decide) (by decide +kernel)

theorem fencedTarget_engine : (fencedTarget.receiverFails 0 0 1 0 false false false).engState 1 = 4 := by decide +kernel

/-- Refutes O42: the clause of a failover fails in `fencedTarget`, where the receiving engine is FENCED. The model takes that for a failure of
the first update on it (`firstFails`, R317), so that the engine stays FENCED and does not become BOUND, and the failover goes on to another
pontoon. The statement does not ask that the receiving engine be a pontoon. -/
theorem not_engines : ¬ Obligations.Engines := by
  unfold Obligations.Engines
  rintro ⟨-, -, -, -, -, failover, -⟩
  obtain ⟨t, ran, -, -, bound, -⟩ := failover 0 0 1 false firstCheckpoint fencedTarget (by decide +kernel) (by decide) (by decide)
    (by decide) fencedTarget_lastCheckpoint (by decide +kernel) (by decide +kernel) (by decide +kernel) (by decide +kernel)
  rw [exec_failoverResume] at ran
  rw [← Host.Outcome.next.inj ran, show ((0 : Fin 32) : Nat) = 0 from rfl, fencedTarget_migrationEnd, fencedTarget_engine] at bound
  exact absurd bound (by decide)

end Sys2Proof.Machine
end

section
/-! PROOFS. Outputs (O44): what an operation of one output leaves of the others, and what repeating it over several brings to each. -/

namespace Sys2Proof.Machine

section

variable (s : State)

/-! Reads of an output. -/

theorem State.outC_congr {t : State} (h : t.out = s.out) (m : Nat) : t.outC m = s.outC m := by
  unfold State.outC
  rw [h]

theorem State.outC_setf (x : Fld) (v m : Nat) : (s.setf x v).outC m = s.outC m := s.outC_congr (s.out_setf x v) m

theorem State.outC_setb (x : Fld) (b : Bool) (m : Nat) : (s.setb x b).outC m = s.outC m := s.outC_congr (s.out_setb x b) m

theorem State.outC_ev (x : Fld) (m : Nat) : (s.ev x).outC m = s.outC m := s.outC_congr (s.out_ev x) m

theorem State.outC_evIf (c : Bool) (x : Fld) (m : Nat) : (s.evIf c x).outC m = s.outC m := s.outC_congr (s.out_evIf c x) m

theorem State.f_modOut (m : Nat) (g : OutCore → OutCore) (y : Fld) : (s.modOut m g).f y = s.f y := s.f_congr (s.regs_modOut m g) y

theorem State.isPulse_congr {t : State} (h : t.fab = s.fab) (m : Nat) : t.isPulse m = s.isPulse m := by
  unfold State.isPulse State.outRec State.outRecs
  rw [h]

theorem State.restDrive_congr {t : State} (fab : t.fab = s.fab) (top : t.top = s.top) (m : Nat) : t.restDrive m = s.restDrive m := by
  unfold State.restDrive State.outRec State.outRecs
  rw [fab, top]

theorem intrKey_output {j : Nat} (a : 0x600000 ≤ j) (b : j < 0x840000) : intrKey j = false := intrKey_false (by omega) (by omega)

/-! What an operation of one output changes. -/

/-- The registers that show what an output does. -/
def OutShown (k j : Nat) : Prop := j = OUT.STATUS k ∨ j = OUT.EVENT k ∨ j = OUT.DIV32 k

/-- The second state differs from the first in output `k`, the registers that show it, and what raised sources and the logbook leave. -/
structure State.OnlyOut (k : Nat) (s t : State) : Prop where
  core : ∀ m, m ≠ k → t.outC m = s.outC m
  regs : ∀ j, intrKey j = false → ¬ OutShown k j → t.w j = s.w j
  fab : t.fab = s.fab
  top : t.top = s.top

namespace State.OnlyOut

variable {k : Nat} {s0 s t : State}

theorem refl (s : State) : s.OnlyOut k s := ⟨fun _ _ => rfl, fun _ _ _ => rfl, rfl, rfl⟩

theorem modOut (h : s0.OnlyOut k s) {g : OutCore → OutCore} : s0.OnlyOut k (s.modOut k g) where
  core m hm := (s.outC_modOut_other k g hm).trans (h.core m hm)
  regs j hj shown := (s.w_congr (s.regs_modOut k g) j).trans (h.regs j hj shown)
  fab := (s.fab_modOut k g).trans h.fab
  top := (s.top_modOut k g).trans h.top

theorem setf (h : s0.OnlyOut k s) {x : Fld} {v : Nat}
    (hx : OutShown k x.key := by dsimp only [OutShown, OUT.STATUS, OUT.EVENT, OUT.DIV32]; omega) : s0.OnlyOut k (s.setf x v) where
  core m hm := (s.outC_setf x v m).trans (h.core m hm)
  regs j hj shown := (s.w_setf_other x v fun e : j = x.key => shown (e ▸ hx)).trans (h.regs j hj shown)
  fab := (s.fab_setf x v).trans h.fab
  top := (s.top_setf x v).trans h.top

theorem ev (h : s0.OnlyOut k s) {x : Fld} (hi : x.lo < 32 := by exact Nat.le_of_ble_eq_true rfl)
    (hx : OutShown k x.key := by dsimp only [OutShown, OUT.STATUS, OUT.EVENT, OUT.DIV32]; omega) : s0.OnlyOut k (s.ev x) where
  core m hm := (s.outC_ev x m).trans (h.core m hm)
  regs j hj shown := (s.w_ev_other x hi hj fun e : j = x.key => shown (e ▸ hx)).trans (h.regs j hj shown)
  fab := (s.fab_ev x).trans h.fab
  top := (s.top_ev x).trans h.top

theorem evIf (h : s0.OnlyOut k s) {c : Bool} {x : Fld} (hi : x.lo < 32 := by exact Nat.le_of_ble_eq_true rfl)
    (hx : OutShown k x.key := by dsimp only [OutShown, OUT.STATUS, OUT.EVENT, OUT.DIV32]; omega) : s0.OnlyOut k (s.evIf c x) := by
  cases c
  · exact h
  · exact h.ev hi hx

theorem logDev (h : s0.OnlyOut k s) {kind : Nat} {data : List Byte} : s0.OnlyOut k (s.logDev kind data) where
  core m hm := (s.outC_congr (s.out_logDev kind data) m).trans (h.core m hm)
  regs j hj shown := (s.w_congr (s.regs_logDev kind data) j).trans (h.regs j hj shown)
  fab := (s.fab_logDev kind data).trans h.fab
  top := (s.top_logDev kind data).trans h.top

theorem ite {c : Prop} [Decidable c] (h : s0.OnlyOut k s) (k' : s0.OnlyOut k t) : s0.OnlyOut k (if c then s else t) := by
  split
  · exact h
  · exact k'

theorem refreshOut (h : s0.OnlyOut k s) : s0.OnlyOut k (s.refreshOut k) := ((h.modOut.setf).evIf).evIf

theorem runPulse (h : s0.OnlyOut k s) : s0.OnlyOut k (s.runPulse k) := h.modOut.refreshOut

theorem takeDivider (h : s0.OnlyOut k s) : s0.OnlyOut k (s.takeDivider k) := by
  unfold State.takeDivider
  split
  · exact h
  · exact (((h.modOut.modOut.setf).setf).setf).ev

theorem alignPulse (h : s0.OnlyOut k s) : s0.OnlyOut k (s.alignPulse k) := by
  unfold State.alignPulse
  extract_lets c v shift off per moved t
  have shown : s0.OnlyOut k t := h.modOut.setf
  exact .ite shown (shown.modOut.ev).logDev

theorem realignOut (h : s0.OnlyOut k s) : s0.OnlyOut k (s.realignOut k) := by
  unfold State.realignOut
  exact .ite h.alignPulse (.ite h.modOut.setf h)

theorem startOut (h : s0.OnlyOut k s) : s0.OnlyOut k (s.startOut k) := by
  unfold State.startOut
  extract_lets _ u
  have ready : s0.OnlyOut k u := (OnlyOut.ite h h.alignPulse).modOut
  exact .ite h (.ite (.ite ready ready.runPulse) h.modOut.setf)

theorem stopOut (h : s0.OnlyOut k s) : s0.OnlyOut k (s.stopOut k) := (h.modOut.setf).refreshOut

theorem syncOut (h : s0.OnlyOut k s) : s0.OnlyOut k (s.syncOut k) := by
  unfold State.syncOut
  exact .ite h (.ite h.runPulse (h.takeDivider.modOut.setf).refreshOut)

theorem ferrySquelch (h : s0.OnlyOut k s) : s0.OnlyOut k (s.ferrySquelch k) := ((h.modOut.setf).ev).refreshOut.logDev

/-- A field of a register that shows nothing of the output keeps its content. -/
theorem f (h : s0.OnlyOut k s) (y : Fld) (hy : intrKey y.key = false) (shown : ¬ OutShown k y.key) : s.f y = s0.f y :=
  s0.f_of_w y (h.regs _ hy shown)

end State.OnlyOut

/-- The second state has output `m`, its registers and those of the synthesisers from the first. -/
structure State.SparesOut (m : Nat) (s t : State) : Prop where
  core : t.outC m = s.outC m
  regs : ∀ j, 0x600000 ≤ j → j < 0x840000 → (j < 0x680000 ∨ j / 0x10000 = 0x68 + m) → t.w j = s.w j
  fab : t.fab = s.fab
  top : t.top = s.top

theorem State.SparesOut.refl (m : Nat) : s.SparesOut m s := ⟨rfl, fun _ _ _ _ => rfl, rfl, rfl⟩

theorem OutShown.block {k j : Nat} (h : OutShown k j) : j / 0x10000 = 0x68 + k := by
  dsimp only [OutShown, OUT.STATUS, OUT.EVENT, OUT.DIV32] at h
  omega

variable {s}

/-- An operation of another output spares this one. -/
theorem State.SparesOut.onlyOut {m k : Nat} {t u : State} (h : s.SparesOut m t) (other : t.OnlyOut k u) (hk : m ≠ k) : s.SparesOut m u where
  core := (other.core m hk).trans h.core
  regs j a b block := (other.regs j (intrKey_output a b) fun shown => by have := shown.block; omega).trans (h.regs j a b block)
  fab := other.fab.trans h.fab
  top := other.top.trans h.top

theorem State.SparesOut.f {m : Nat} {t : State} (h : s.SparesOut m t) (y : Fld) (a : 0x600000 ≤ y.key) (b : y.key < 0x840000)
    (block : y.key < 0x680000 ∨ y.key / 0x10000 = 0x68 + m) : t.f y = s.f y := s.f_of_w y (h.regs _ a b block)

/-! Repetition over several outputs. -/

variable {α : Type} {g : State → α → State} {P Q : State → Prop}

theorem State.forL_keeps {l : List α} (start : P s) (stay : ∀ t x, P t → P (g t x)) : P (s.forL l g) := by
  unfold State.forL
  induction l generalizing s with
  | nil => exact start
  | cons x l ih => exact ih (stay s x start)

/-- Each member brings `P` about or keeps `Q`, from which `a` brings `P` about; what has been brought about stays. -/
theorem State.forL_brings {l : List α} {a : α} (mem : a ∈ l) (start : Q s) (step : ∀ t x, Q t → Q (g t x) ∨ P (g t x))
    (hit : ∀ t, Q t → P (g t a)) (stay : ∀ t x, P t → P (g t x)) : P (s.forL l g) := by
  induction l generalizing s with
  | nil => cases mem
  | cons x l ih =>
    rcases List.mem_cons.1 mem with rfl | later
    · exact State.forL_keeps (l := l) (hit s start) stay
    · rcases step s x start with kept | brought
      · exact ih later kept
      · exact State.forL_keeps (l := l) brought stay

end

end Sys2Proof.Machine
end

section
/-! PROOFS. Outputs (O44): what each operation of an output brings to it. -/

namespace Sys2Proof.Machine

section

variable (s : State) (m : Nat)

/-! STATUS beside the events of an output. -/

section

variable {m} (hm : m < 28)

include hm

theorem intrKey_outEvent : intrKey (OUT.EVENT m) = false :=
  intrKey_output (by dsimp only [OUT.EVENT]; omega) (by dsimp only [OUT.EVENT]; omega)

theorem State.status_evIf (c : Bool) {i a b : Nat} (hi : i < 32) :
    (s.evIf c ⟨OUT.EVENT m, i, i⟩).f ⟨OUT.STATUS m, a, b⟩ = s.f ⟨OUT.STATUS m, a, b⟩ :=
  s.f_evIf_apart c _ hi (intrKey_output (by dsimp only [OUT.STATUS]; omega) (by dsimp only [OUT.STATUS]; omega))
    (.inl (by dsimp only [OUT.STATUS, OUT.EVENT]; omega))

theorem State.status_ev {i a b : Nat} (hi : i < 32) :
    (s.ev ⟨OUT.EVENT m, i, i⟩).f ⟨OUT.STATUS m, a, b⟩ = s.f ⟨OUT.STATUS m, a, b⟩ := s.status_evIf hm true hi

end

/-! The driver and STATUS.RUNNING. -/

/-- An output that runs and is not squelched. -/
def State.lit : Bool := (s.outC m).running && !(s.outC m).sqLol && !(s.outC m).sqFerry

/-- What the driver of an output does, by its divider and its squelch (R320, R346). -/
def State.drives : Drive := if s.lit m && !(s.outC m).held then .clock else if s.lit m then .low else s.restDrive m

theorem State.outC_refreshOut : (s.refreshOut m).outC m = { s.outC m with drive := s.drives m } := by
  unfold State.refreshOut
  dsimp only
  rw [State.outC_evIf, State.outC_evIf, State.outC_setb, State.outC_modOut]
  rfl

variable {m} in
theorem State.running_refreshOut (hm : m < 28) : (s.refreshOut m).f (OUT.STATUS_RUNNING m) = b2n (s.lit m && !(s.outC m).held) := by
  unfold State.refreshOut
  dsimp only
  rw [State.status_evIf _ hm _ (Nat.le_of_ble_eq_true rfl), State.status_evIf _ hm _ (Nat.le_of_ble_eq_true rfl)]
  exact State.f_setb _ _ _ (Nat.le_of_ble_eq_true rfl) (Nat.le_of_ble_eq_true rfl)

variable {m} in
/-- The other fields of STATUS stay. -/
theorem State.status_refreshOut (hm : m < 28) {i : Nat} (hi : 0 < i) :
    (s.refreshOut m).f ⟨OUT.STATUS m, i, i⟩ = s.f ⟨OUT.STATUS m, i, i⟩ := by
  unfold State.refreshOut
  dsimp only
  rw [State.status_evIf _ hm _ (Nat.le_of_ble_eq_true rfl), State.status_evIf _ hm _ (Nat.le_of_ble_eq_true rfl)]
  exact (State.f_setf_bits _ (OUT.STATUS_RUNNING m) ⟨OUT.STATUS m, i, i⟩ _ (Nat.le_of_ble_eq_true rfl)
    (.inr (Nat.succ_le_of_lt hi))).trans (s.f_modOut m _ _)

/-! Dividers. -/

theorem State.takeDivider_none (h : (s.outC m).newDiv = none) : s.takeDivider m = s := by
  unfold State.takeDivider
  rw [h]

variable {m} in
/-- A divider that waits is in force, and shown as taken (R345). -/
theorem State.takeDivider_takes (hm : m < 28) {d x : Nat} (h : (s.outC m).newDiv = some (d, x)) :
    (s.takeDivider m).outC m = { s.outC m with newDiv := none, dint := d, dfrac := x } ∧
      (s.takeDivider m).f (OUT.STATUS_DIV_PEND m) = 0 ∧ (s.takeDivider m).on (OUT.EVENT_DIV_DONE m) = true := by
  unfold State.takeDivider
  rw [h]
  dsimp only
  refine ⟨?_, ?_, State.on_ev _ _ rfl (Nat.le_of_ble_eq_true rfl) (intrKey_outEvent hm)⟩
  · unfold State.setDivider State.refreshMode
    rw [State.outC_ev, State.outC_setf, State.outC_setf, State.outC_setf, State.outC_modOut, State.outC_modOut]
  · rw [State.status_ev _ hm (Nat.le_of_ble_eq_true rfl)]
    exact State.f_setf _ _ _ (Nat.le_of_ble_eq_true rfl)

/-- DIV_LOAD of a divider that fits (R345). -/
theorem State.divLoad_takes {p : Port} {a b c d : Word} (filled : s.mboxIn p 4 = some [a, b, c, d])
    (ok : b.toNat < 2 ^ 24 ∧ d.toNat < 2 ^ 8 ∧ (!s.isPulse m) = true ∧
      s.divFits m (c.toNat + 2 ^ 32 * d.toNat) (a.toNat + 2 ^ 32 * b.toNat) = true) :
    s.divLoad p m = (((s.mboxEmpty p).modOut m
      (fun o => { o with newDiv := some (c.toNat + 2 ^ 32 * d.toNat, a.toNat + 2 ^ 32 * b.toNat) })).setf
        (OUT.STATUS_DIV_PEND m) 1).complete (OUT.DIVSTAT_CODE m) .ok := by
  unfold State.divLoad
  rw [filled]
  exact if_pos ok

variable {m} in
theorem State.divLoad_loads (hm : m < 28) {p : Port} {a b c d : Word} (filled : s.mboxIn p 4 = some [a, b, c, d])
    (ok : b.toNat < 2 ^ 24 ∧ d.toNat < 2 ^ 8 ∧ (!s.isPulse m) = true ∧
      s.divFits m (c.toNat + 2 ^ 32 * d.toNat) (a.toNat + 2 ^ 32 * b.toNat) = true) :
    ((s.divLoad p m).outC m).newDiv = some (c.toNat + 2 ^ 32 * d.toNat, a.toNat + 2 ^ 32 * b.toNat) ∧
      (s.divLoad p m).f (OUT.STATUS_DIV_PEND m) = 1 ∧ (s.divLoad p m).f (OUT.DIVSTAT_CODE m) = 0 ∧
      (s.divLoad p m).w (HOST.MBOX_STAT p) = 0 := by
  have mbox : HOST.MBOX_STAT p ≠ OUT.STATUS m ∧ HOST.MBOX_STAT p ≠ OUT.DIVSTAT m := by
    cases p <;> dsimp only [HOST.MBOX_STAT, portBase, OUT.STATUS, OUT.DIVSTAT] <;> omega
  rw [s.divLoad_takes m filled ok]
  unfold State.complete
  refine ⟨?_, ?_, State.f_setf _ _ _ (Nat.le_of_ble_eq_true rfl), ?_⟩
  · rw [State.outC_setf, State.outC_setf, State.outC_modOut]
  · rw [State.f_setf_key _ _ _ _ (by dsimp only [OUT.STATUS, OUT.DIVSTAT]; omega)]
    exact State.f_setf _ _ _ (Nat.le_of_ble_eq_true rfl)
  · rw [State.w_setf_other _ _ _ mbox.2, State.w_setf_other _ _ _ mbox.1, State.w_congr _ (State.regs_modOut _ _ _)]
    exact State.w_setw_self _ _ _

/-- The end of an output's period, before what waits for it (R346, R348). -/
def State.periodEnded : State :=
  s.modOut m (fun c => { c with swing := s.f (OUT.CTRL_SWING m), held := c.held || (c.running && c.pendAlign) })

theorem State.outC_periodEnded : (s.periodEnded m).outC m =
    { s.outC m with
      swing := s.f (OUT.CTRL_SWING m), held := (s.outC m).held || ((s.outC m).running && (s.outC m).pendAlign) } := s.outC_modOut m _

theorem execDivApply_eq (m : Fin 28) : execDivApply m s =
    .next (if (s.outC m).running && (s.outC m).pendAlign then (s.periodEnded m).refreshOut m
      else if (s.outC m).pendStart || (s.outC m).pendAlign then s.periodEnded m else (s.periodEnded m).takeDivider m) := rfl

/-! Alignment. -/

/-- A pulse clock that is given a value, with the OFFSET and PERIOD that come into force and the first edge allowed (R358). -/
def OutCore.alignedAt (c : OutCore) (v off : Int) (per first : Nat) : OutCore :=
  { c.withPulse v with offPs := off, perNs := per, edgesFrom := first }

theorem OutCore.pulse_alignedAt (c : OutCore) {v : Int} (h : 0 ≤ v) (off : Int) (per first : Nat) :
    (c.alignedAt v off per first).pulse = v := by
  obtain ⟨n, rfl⟩ := Int.eq_ofNat_of_zero_le h
  have split := Nat.div_add_mod n (1000000000 * 2 ^ 56)
  unfold OutCore.alignedAt OutCore.withPulse OutCore.pulse
  dsimp only
  rw [Int.toNat_natCast]
  push_cast at split ⊢
  linarith

theorem OutCore.alignedAt_first (c : OutCore) (v off : Int) (per first first' : Nat) :
    { c.alignedAt v off per first with edgesFrom := first' } = c.alignedAt v off per first' := rfl

theorem TscCore.val_nonneg (c : TscCore) : 0 ≤ c.val := by
  unfold TscCore.val
  exact Int.natCast_nonneg _

/-- The state in which a pulse clock has its value and counts as aligned. -/
def State.pulseSet (v off : Int) (per : Nat) : State :=
  (s.modOut m (fun c => { c.withPulse v with offPs := off, perNs := per })).setf (OUT.STATUS_ALIGNED m) 1

theorem State.outC_pulseSet (v off : Int) (per : Nat) :
    (s.pulseSet m v off per).outC m = (s.outC m).alignedAt v off per (s.outC m).edgesFrom :=
  (State.outC_setf _ _ _ m).trans (s.outC_modOut m _)

theorem State.aligned_pulseSet (v off : Int) (per : Nat) : (s.pulseSet m v off per).f (OUT.STATUS_ALIGNED m) = 1 :=
  State.f_setf _ _ _ (Nat.le_of_ble_eq_true rfl)

/-- An output whose pulse clock moves is realigned: its edges wait, and the event and the log tell (R358). -/
def State.pulseMoved (first : Nat) (data : List Byte) : State :=
  ((s.modOut m (fun c => { c with edgesFrom := first })).ev (OUT.EVENT_REALIGNED m)).logDev 0x0304 data

theorem State.outC_pulseMoved (first : Nat) (data : List Byte) :
    (s.pulseMoved m first data).outC m = { s.outC m with edgesFrom := first } :=
  (State.outC_congr _ (State.out_logDev _ _ _) m).trans ((State.outC_ev _ _ m).trans (s.outC_modOut m _))

variable {m} in
theorem State.aligned_pulseMoved (hm : m < 28) (first : Nat) (data : List Byte) :
    (s.pulseMoved m first data).f (OUT.STATUS_ALIGNED m) = s.f (OUT.STATUS_ALIGNED m) :=
  (State.f_congr _ (State.regs_logDev _ _ _) _).trans
    ((State.status_ev _ hm (Nat.le_of_ble_eq_true rfl)).trans (s.f_modOut m _ _))

/-- An alignment sets the pulse clock, and tells when that moved it. -/
theorem State.alignPulse_eq : ∃ first data, s.alignPulse m =
      s.pulseSet m (s.tscC (s.f (OUT.CFG_ANCHOR m))).val (s.fi (OUT.OFFSET_PS m)) (s.f (OUT.PERIOD_NS m)) ∨
    s.alignPulse m = (s.pulseSet m (s.tscC (s.f (OUT.CFG_ANCHOR m))).val (s.fi (OUT.OFFSET_PS m))
      (s.f (OUT.PERIOD_NS m))).pulseMoved m first data := by
  unfold State.alignPulse
  extract_lets c v shift off per moved t u
  refine ⟨(v + 1000 * 2 ^ 56).toNat,
    beBytes 1 m ++ [2] ++ beInt 8 (satSigned 64 (roundOpen 35 (shift * 1000) (2 ^ 56))), ?_⟩
  split
  · exact .inl rfl
  · exact .inr rfl

variable {m} in
theorem State.outC_alignPulse (hm : m < 28) : (∃ first, (s.alignPulse m).outC m = (s.outC m).alignedAt
      (s.tscC (s.f (OUT.CFG_ANCHOR m))).val (s.fi (OUT.OFFSET_PS m)) (s.f (OUT.PERIOD_NS m)) first) ∧
    (s.alignPulse m).f (OUT.STATUS_ALIGNED m) = 1 := by
  obtain ⟨first, data, same | moved⟩ := s.alignPulse_eq m
  · rw [same, State.outC_pulseSet]
    exact ⟨⟨_, rfl⟩, State.aligned_pulseSet _ _ _ _ _⟩
  · rw [moved, State.outC_pulseMoved, State.outC_pulseSet, OutCore.alignedAt_first, State.aligned_pulseMoved _ hm]
    exact ⟨⟨_, rfl⟩, State.aligned_pulseSet _ _ _ _ _⟩

variable {m} in
/-- An alignment (R358). -/
theorem State.alignPulse_aligns (hm : m < 28) : ((s.alignPulse m).outC m).pulse = (s.tscC (s.f (OUT.CFG_ANCHOR m))).val ∧
    ((s.alignPulse m).outC m).offPs = s.fi (OUT.OFFSET_PS m) ∧ ((s.alignPulse m).outC m).perNs = s.f (OUT.PERIOD_NS m) ∧
    (s.alignPulse m).f (OUT.STATUS_ALIGNED m) = 1 := by
  obtain ⟨⟨first, core⟩, shown⟩ := s.outC_alignPulse hm
  rw [core, OutCore.pulse_alignedAt _ (TscCore.val_nonneg _)]
  exact ⟨rfl, rfl, rfl, shown⟩

theorem State.realignOut_pulse (pulse : s.isPulse m = true) : s.realignOut m = s.alignPulse m := if_pos pulse

theorem State.realignOut_off (clock : s.isPulse m = false) (off : s.on (OUT.CTRL_EN m) = false) : s.realignOut m = s := by
  unfold State.realignOut
  rw [clock, off]
  rfl

/-- A clock output that is enabled waits for the next sync point (R346). -/
theorem State.realignOut_waits (clock : s.isPulse m = false) (on : s.on (OUT.CTRL_EN m) = true) :
    ((s.realignOut m).outC m).pendAlign = true ∧ (s.realignOut m).f (OUT.STATUS_ALIGN_PEND m) = 1 := by
  have waits : s.realignOut m = (s.modOut m (fun c => { c with pendAlign := true })).setf (OUT.STATUS_ALIGN_PEND m) 1 := by
    unfold State.realignOut
    rw [clock, on]
    rfl
  rw [waits, State.outC_setf, State.outC_modOut]
  exact ⟨rfl, State.f_setf _ _ _ (Nat.le_of_ble_eq_true rfl)⟩

theorem State.tasks_realignOut : (s.realignOut m).tasks = s.tasks :=
  ((Moves.refl s).realignOut (K := 0x10011004) rfl).p31 rfl

theorem execRealignOutputTask_of_pending {m : Fin 28} {r : TaskRun} {rs : List TaskRun}
    (pending : s.tasksC (taskKey (0x68 + m) 0) = r :: rs) :
    execRealignOutputTask m s = .next ((s.modTasks (taskKey (0x68 + m) 0) (fun _ => rs)).realignOut m) := by
  unfold execRealignOutputTask State.takeRun
  rw [pending]

/-! Starts and stops. -/

theorem State.outC_stopOut : ((s.stopOut m).outC m).running = false ∧ ((s.stopOut m).outC m).pendStart = false := by
  unfold State.stopOut
  dsimp only
  rw [State.outC_refreshOut, State.outC_setf, State.outC_modOut]
  exact ⟨rfl, rfl⟩

/-- A clock output that waited has begun its first period at a sync point (R346, R347). -/
structure State.Synced (s t : State) : Prop where
  running : (t.outC m).running = true
  pendStart : (t.outC m).pendStart = false
  pendAlign : (t.outC m).pendAlign = false
  phase : (t.outC m).phaseInForce = s.f (OUT.PHASE_DELAY m)
  swing : (t.outC m).swing = s.f (OUT.CTRL_SWING m)
  shown : t.f (OUT.STATUS_ALIGN_PEND m) = 0

variable {m} in
theorem State.synced_syncOut (hm : m < 28) (clock : s.isPulse m = false)
    (waits : (s.outC m).pendStart = true ∨ (s.outC m).pendAlign = true)
    (ready : (s.outC m).pendStart = true → s.waitsForLock m = false) : State.Synced m s (s.syncOut m) := by
  have due : ¬ ((!((s.outC m).pendStart || (s.outC m).pendAlign)) = true ∨ (s.outC m).pendStart = true ∧ s.waitsForLock m = true) := by
    rintro (idle | ⟨start, locked⟩)
    · rcases waits with h | h <;> rw [h] at idle <;> simp at idle
    · rw [ready start] at locked
      cases locked
  have settings : ∀ y : Fld, y.key = OUT.PHASE m ∨ y.key = OUT.CTRL m → (s.takeDivider m).f y = s.f y := fun y hy =>
    (State.OnlyOut.refl s).takeDivider.f y
      (intrKey_output (by dsimp only [OUT.PHASE, OUT.CTRL] at hy; omega) (by dsimp only [OUT.PHASE, OUT.CTRL] at hy; omega))
      (by dsimp only [OutShown, OUT.PHASE, OUT.CTRL, OUT.STATUS, OUT.EVENT, OUT.DIV32] at hy ⊢; omega)
  have begun : s.syncOut m = (((s.takeDivider m).modOut m (fun o => { o with
      running := true, pendStart := false, pendAlign := false, held := false, enabledOnce := true
      phaseInForce := s.f (OUT.PHASE_DELAY m), swing := s.f (OUT.CTRL_SWING m) })).setf (OUT.STATUS_ALIGN_PEND m) 0).refreshOut m := by
    unfold State.syncOut
    dsimp only
    rw [if_neg due, if_neg (by rw [clock]; exact Bool.false_ne_true), settings (OUT.PHASE_DELAY m) (.inl rfl),
      settings (OUT.CTRL_SWING m) (.inr rfl)]
  have core : ∃ (c : OutCore) (d : Drive), (s.syncOut m).outC m = { c with
      running := true, pendStart := false, pendAlign := false, held := false, enabledOnce := true
      phaseInForce := s.f (OUT.PHASE_DELAY m), swing := s.f (OUT.CTRL_SWING m), drive := d } := by
    rw [begun, State.outC_refreshOut, State.outC_setf, State.outC_modOut]
    exact ⟨_, _, rfl⟩
  have shown : (s.syncOut m).f (OUT.STATUS_ALIGN_PEND m) = 0 := by
    rw [begun, State.status_refreshOut _ hm (by decide)]
    exact State.f_setf _ _ _ (Nat.le_of_ble_eq_true rfl)
  obtain ⟨c, d, core⟩ := core
  exact ⟨by rw [core], by rw [core], by rw [core], by rw [core], by rw [core], shown⟩

/-- An output that waits for nothing takes no notice of a sync point. -/
theorem State.syncOut_idle (start : (s.outC m).pendStart = false) (align : (s.outC m).pendAlign = false) : s.syncOut m = s := by
  unfold State.syncOut
  dsimp only
  rw [start, align]
  rfl

/-! The ferry-hold limit. -/

/-- An output is squelched by the limit and drives what `d` says (R319, R320). -/
structure State.LimitSquelched (d : Drive) (t : State) : Prop where
  squelched : (t.outC m).sqFerry = true
  shown : t.f (OUT.STATUS_SQ_LIMIT m) = 1
  running : t.f (OUT.STATUS_RUNNING m) = 0
  drive : (t.outC m).drive = d

variable {m} in
theorem State.limitSquelched_ferrySquelch (hm : m < 28) : State.LimitSquelched m (s.restDrive m) (s.ferrySquelch m) := by
  unfold State.ferrySquelch
  extract_lets t
  have core : (t.ev (OUT.EVENT_SQUELCH m)).outC m = { s.outC m with sqFerry := true } :=
    (t.outC_ev _ m).trans ((State.outC_setf _ _ _ m).trans (s.outC_modOut m _))
  have dark : (t.ev (OUT.EVENT_SQUELCH m)).lit m = false := by
    unfold State.lit
    rw [core, Bool.not_true, Bool.and_false]
  have rest : (t.ev (OUT.EVENT_SQUELCH m)).restDrive m = s.restDrive m := s.restDrive_congr (t.fab_ev _) (t.top_ev _) m
  have limit : (t.ev (OUT.EVENT_SQUELCH m)).f (OUT.STATUS_SQ_LIMIT m) = 1 := by
    rw [t.status_ev hm (Nat.le_of_ble_eq_true rfl)]
    exact State.f_setf _ _ _ (Nat.le_of_ble_eq_true rfl)
  generalize t.ev (OUT.EVENT_SQUELCH m) = u at core dark rest limit
  have left : (u.refreshOut m).outC m = { s.outC m with sqFerry := true, drive := s.restDrive m } := by
    rw [State.outC_refreshOut, core, State.drives, dark, rest]
    rfl
  constructor
  · rw [State.outC_congr _ (State.out_logDev _ _ _), left]
  · rw [State.f_congr _ (State.regs_logDev _ _ _), u.status_refreshOut hm (by decide)]
    exact limit
  · rw [State.f_congr _ (State.regs_logDev _ _ _), u.running_refreshOut hm, dark]
    rfl
  · rw [State.outC_congr _ (State.out_logDev _ _ _), left]

end

end Sys2Proof.Machine
end

section
/-! PROOFS. Outputs (O44): groups, the sync point and the ferry-hold limit. -/

namespace Sys2Proof.Machine

section

variable (s : State)

/-! What a command's access leaves of what outputs read. -/

section

variable (p : Port) (m : Nat)

theorem State.outC_status : (s.status p .ok).outC m = s.outC m := s.outC_congr (s.out_status p .ok) m

theorem State.isPulse_status : (s.status p .ok).isPulse m = s.isPulse m := s.isPulse_congr (s.fab_status p .ok) m

theorem State.divFits_status (i x : Nat) : (s.status p .ok).divFits m i x = s.divFits m i x := by
  cases p <;> rfl

theorem State.tscC_status : (s.status p .ok).tscC m = s.tscC m := by
  cases p <;> rfl

theorem State.groupCheck_status (n w : Nat) : (s.status p .ok).groupCheck p n w = s.groupCheck p n w := by
  cases p <;> rfl

theorem State.on_status (x : Fld) : (s.status p .ok).on x = s.on x := s.on_of_f x (s.f_status p .ok x)

theorem State.fi_status (x : Fld) : (s.status p .ok).fi x = s.fi x := s.fi_of_f x (s.f_status p .ok x)

end

/-! CTRL.EN of an output. -/

section

variable (m : Nat) (en : Bool)

/-- An output that is enabled or disabled changes nothing else beside CTRL. -/
theorem State.onlyOut_enableOut : (s.setb (OUT.CTRL_EN m) en).OnlyOut m (s.enableOut m en) := by
  unfold State.enableOut
  cases en
  · exact (State.OnlyOut.refl _).stopOut
  · exact (State.OnlyOut.refl _).startOut

theorem State.w_enableOut_other {j : Nat} (hj : intrKey j = false) (shown : ¬ OutShown m j) (h : j ≠ OUT.CTRL m) :
    (s.enableOut m en).w j = s.w j :=
  ((s.onlyOut_enableOut m en).regs j hj shown).trans (s.w_setf_other (OUT.CTRL_EN m) (b2n en) h)

theorem State.outC_enableOut_other {k : Nat} (h : k ≠ m) : (s.enableOut m en).outC k = s.outC k :=
  ((s.onlyOut_enableOut m en).core k h).trans (s.outC_setb _ _ k)

theorem intrKey_outCtrl {m : Nat} (hm : m < 28) : intrKey (OUT.CTRL m) = false :=
  intrKey_output (by dsimp only [OUT.CTRL]; omega) (by dsimp only [OUT.CTRL]; omega)

theorem not_outShown_outCtrl (k m : Nat) : ¬ OutShown k (OUT.CTRL m) := by
  dsimp only [OutShown, OUT.CTRL, OUT.STATUS, OUT.EVENT, OUT.DIV32]
  omega

variable {m} in
theorem State.on_enableOut (hm : m < 28) : (s.enableOut m en).on (OUT.CTRL_EN m) = en :=
  (State.on_of_f _ _ ((s.onlyOut_enableOut m en).f _ (intrKey_outCtrl hm) (not_outShown_outCtrl m m))).trans
    (s.on_setb _ en (Nat.le_of_ble_eq_true rfl) (Nat.le_of_ble_eq_true rfl))

theorem State.on_enableOut_other {k : Nat} (hk : k < 28) (h : k ≠ m) :
    (s.enableOut m en).on (OUT.CTRL_EN k) = s.on (OUT.CTRL_EN k) :=
  s.on_of_f _ (s.f_of_w _ (s.w_enableOut_other m en (intrKey_outCtrl hk) (not_outShown_outCtrl m k) (by dsimp only [OUT.CTRL]; omega)))

end

/-! Groups. -/

theorem mem_maskOuts {mask m : Nat} (hm : m < 28) : m ∈ maskOuts mask ↔ bitAt mask m = true := by
  unfold maskOuts
  rw [List.mem_filter, List.mem_range]
  exact and_iff_right hm

theorem contains_maskOuts {mask m : Nat} (hm : m < 28) : (maskOuts mask).contains m = bitAt mask m :=
  Bool.eq_iff_iff.2 (List.contains_iff_mem.trans (mem_maskOuts hm))

/-- What operation `op` of a group orders of one of its outputs (R352). -/
def State.groupStep (op : Nat) (s : State) (m : Nat) : State :=
  if op = 1 then s.enableOut m true else if op = 2 then s.realignOut m else s.enableOut m false

/-- A write of GROUP that names operation `op` and the outputs of `mask`, as its register keeps it (R352). -/
def State.groupOrdered (n op mask : Nat) : State :=
  (s.setw (APL.GROUP n) (op * 2 ^ 30 + mask)).forL (maskOuts mask) (State.groupStep op)

theorem State.groupDo_eq (n w : Nat) : s.groupDo n w = s.groupOrdered n (bitsAt w 31 30) (bitsAt w 27 0) := rfl

theorem State.aplGroup_of_ok {p : Port} {n w : Nat} (ok : s.groupCheck p n w = .ok) : s.aplGroup p n w = s.groupDo n w := by
  unfold State.aplGroup
  rw [ok]

theorem State.aplGroup_taken {p : Port} {n op mask : Nat} (hop : op < 4) (hmask : mask < 2 ^ 28)
    (ok : s.groupCheck p n (op * 2 ^ 30 + mask) = .ok) : s.aplGroup p n (op * 2 ^ 30 + mask) = s.groupOrdered n op mask := by
  have opBits : bitsAt (op * 2 ^ 30 + mask) 31 30 = op := by unfold bitsAt; omega
  have maskBits : bitsAt (op * 2 ^ 30 + mask) 27 0 = mask := by unfold bitsAt; omega
  rw [s.aplGroup_of_ok ok, State.groupDo_eq, opBits, maskBits]

variable (n : Fin 8) (op mask : Nat)

/-- No output writes the register of a group. -/
theorem State.group_groupStep (m : Nat) : (s.groupStep op m).w (APL.GROUP n) = s.w (APL.GROUP n) := by
  have hj : intrKey (APL.GROUP n) = false :=
    intrKey_output (by dsimp only [APL.GROUP]; omega) (by dsimp only [APL.GROUP]; omega)
  have shown : ¬ OutShown m (APL.GROUP n) := by
    dsimp only [OutShown, APL.GROUP, OUT.STATUS, OUT.EVENT, OUT.DIV32]
    omega
  have ctrl : APL.GROUP n ≠ OUT.CTRL m := by
    dsimp only [APL.GROUP, OUT.CTRL]
    omega
  unfold State.groupStep
  split
  · exact s.w_enableOut_other m true hj shown ctrl
  · split
    · exact (State.OnlyOut.refl s).realignOut.regs _ hj shown
    · exact s.w_enableOut_other m false hj shown ctrl

variable {op mask} in
theorem State.group_groupOrdered (hop : op < 4) (hmask : mask < 2 ^ 28) :
    (s.groupOrdered n op mask).w (APL.GROUP n) = op * 2 ^ 30 + mask := by
  unfold State.groupOrdered
  rw [State.w_forL_other _ _ fun t m => t.group_groupStep n op m, State.w_setw_self]
  exact Nat.mod_eq_of_lt (by omega)

/-- The outputs of a list that are all enabled, or all disabled. -/
theorem State.on_enableAll (en : Bool) (l : List Nat) {m : Nat} (hm : m < 28) :
    (s.forL l (fun s m => s.enableOut m en)).on (OUT.CTRL_EN m) = bif l.contains m then en else s.on (OUT.CTRL_EN m) := by
  by_cases mem : m ∈ l
  · rw [List.contains_iff_mem.2 mem]
    refine State.forL_brings (Q := fun _ => True) (P := fun t => t.on (OUT.CTRL_EN m) = en) mem trivial
      (fun _ _ _ => .inl trivial) (fun t _ => t.on_enableOut en hm) fun t x brought => ?_
    by_cases h : m = x
    · exact h ▸ t.on_enableOut en hm
    · exact (t.on_enableOut_other x en hm h).trans brought
  · rw [Bool.eq_false_iff.2 fun h => mem (List.contains_iff_mem.1 h)]
    refine s.on_of_f _ (s.f_of_w _ (s.w_forL_mem fun t x hx => ?_))
    have h : m ≠ x := fun e => mem (e ▸ hx)
    exact t.w_enableOut_other x en (intrKey_outCtrl hm) (not_outShown_outCtrl x m) (by dsimp only [OUT.CTRL]; omega)

/-- The write of GROUP leaves CTRL of every output. -/
theorem State.on_groupWrite (v m : Nat) : (s.setw (APL.GROUP n) v).on (OUT.CTRL_EN m) = s.on (OUT.CTRL_EN m) :=
  s.on_of_f _ (s.f_of_w _ (s.w_setw_other _ _ (by dsimp only [APL.GROUP, OUT.CTRL]; omega)))

theorem State.on_groupEnabled {m : Nat} (hm : m < 28) :
    (s.groupOrdered n 1 mask).on (OUT.CTRL_EN m) = (bitAt mask m || s.on (OUT.CTRL_EN m)) := by
  have enabled := (s.setw (APL.GROUP n) (1 * 2 ^ 30 + mask)).on_enableAll true (maskOuts mask) hm
  rw [State.on_groupWrite, contains_maskOuts hm] at enabled
  refine enabled.trans ?_
  cases bitAt mask m <;> rfl

theorem State.on_groupDisabled {m : Nat} (hm : m < 28) :
    (s.groupOrdered n 3 mask).on (OUT.CTRL_EN m) = (!bitAt mask m && s.on (OUT.CTRL_EN m)) := by
  have disabled := (s.setw (APL.GROUP n) (3 * 2 ^ 30 + mask)).on_enableAll false (maskOuts mask) hm
  rw [State.on_groupWrite, contains_maskOuts hm] at disabled
  refine disabled.trans ?_
  cases bitAt mask m <;> rfl

/-- Every output of a group that is disabled has stopped (R349). -/
theorem State.groupDisabled_stops {m : Nat} (hm : m < 28) (member : bitAt mask m = true) :
    ((s.groupOrdered n 3 mask).outC m).running = false ∧ ((s.groupOrdered n 3 mask).outC m).pendStart = false := by
  have stops : ∀ t : State, ((t.enableOut m false).outC m).running = false ∧ ((t.enableOut m false).outC m).pendStart = false :=
    fun t => (t.setb (OUT.CTRL_EN m) false).outC_stopOut m
  refine State.forL_brings (g := State.groupStep 3) (Q := fun _ => True)
    (P := fun t => (t.outC m).running = false ∧ (t.outC m).pendStart = false) ((mem_maskOuts hm).2 member) trivial
    (fun _ _ _ => .inl trivial) (fun t _ => stops t) fun t x stopped => ?_
  by_cases h : m = x
  · exact h ▸ stops t
  · rw [show t.groupStep 3 x = t.enableOut x false from rfl, t.outC_enableOut_other x false h]
    exact stopped

end

section

variable {m : Nat} (hm : m < 28)

/-- A clock output that is enabled. -/
structure State.EnabledClock (m : Nat) (t : State) : Prop where
  clock : t.isPulse m = false
  on : t.on (OUT.CTRL_EN m) = true

theorem State.EnabledClock.groupWrite {s : State} (h : State.EnabledClock m s) (n : Fin 8) (v : Nat) :
    State.EnabledClock m (s.setw (APL.GROUP n) v) :=
  ⟨(s.isPulse_congr (s.fab_setw _ _) m).trans h.clock, (s.on_groupWrite n v m).trans h.on⟩

include hm

theorem State.EnabledClock.realignOut {t : State} (h : State.EnabledClock m t) (k : Nat) : State.EnabledClock m (t.realignOut k) := by
  have only : t.OnlyOut k (t.realignOut k) := (State.OnlyOut.refl t).realignOut
  exact ⟨(t.isPulse_congr only.fab m).trans h.clock,
    (t.on_of_f _ (only.f _ (intrKey_outCtrl hm) (not_outShown_outCtrl k m))).trans h.on⟩

/-- Every clock output of a group that is realigned waits for the next sync point (R346). -/
theorem State.EnabledClock.groupRealigned_waits {s : State} (h : State.EnabledClock m s) (n : Fin 8) {mask : Nat}
    (member : bitAt mask m = true) : ((s.groupOrdered n 2 mask).outC m).pendAlign = true := by
  have waits : ∀ t, State.EnabledClock m t →
      State.EnabledClock m (t.realignOut m) ∧ ((t.realignOut m).outC m).pendAlign = true :=
    fun t h => ⟨h.realignOut hm m, (t.realignOut_waits m h.clock h.on).1⟩
  refine (State.forL_brings (g := State.groupStep 2) (P := fun t => State.EnabledClock m t ∧ (t.outC m).pendAlign = true)
    (Q := State.EnabledClock m) ((mem_maskOuts hm).2 member) (h.groupWrite n _) (fun t x h => .inl (h.realignOut hm x)) waits
    fun t x ⟨h, waiting⟩ => ?_).2
  by_cases e : m = x
  · exact e ▸ waits t h
  · exact ⟨h.realignOut hm x, (congrArg OutCore.pendAlign ((State.OnlyOut.refl (k := x) t).realignOut.core m e)).trans waiting⟩

end

end Sys2Proof.Machine
end

section
/-! PROOFS. Outputs (O44): the sync point, the ferry-hold limit and the obligation. -/

namespace Sys2Proof.Machine

section

variable {m : Nat} (hm : m < 28) {s t u : State}

include hm

/-! The sync point. -/

/-- An operation of another output leaves STATUS. -/
theorem State.OnlyOut.status_other {k a b : Nat} (other : t.OnlyOut k u) (hk : m ≠ k) :
    u.f ⟨OUT.STATUS m, a, b⟩ = t.f ⟨OUT.STATUS m, a, b⟩ :=
  ((State.SparesOut.refl t m).onlyOut other hk).f _ (by dsimp only [OUT.STATUS]; omega) (by dsimp only [OUT.STATUS]; omega)
    (.inr (by dsimp only [OUT.STATUS]; omega))

theorem State.Synced.onlyOut {k : Nat} (h : State.Synced m s t) (other : t.OnlyOut k u) (hk : m ≠ k) : State.Synced m s u := by
  have core := other.core m hk
  exact ⟨core ▸ h.running, core ▸ h.pendStart, core ▸ h.pendAlign, core ▸ h.phase, core ▸ h.swing,
    (other.status_other hm hk).trans h.shown⟩

namespace State.SparesOut

variable (h : s.SparesOut m t)

include h

/-- The registers of the output that it keeps. -/
theorem own (y : Fld) (a : 0x680000 ≤ y.key) (block : y.key / 0x10000 = 0x68 + m) : t.f y = s.f y :=
  h.f y (by omega) (by omega) (.inr block)

/-- What a start waits for is what the output and the synthesisers show. -/
theorem waitsForLock : t.waitsForLock m = s.waitsForLock m := by
  have synth : t.f (OUT.CFG_SYNTH m) = s.f (OUT.CFG_SYNTH m) :=
    h.own hm _ (by dsimp only [OUT.CFG]; omega) (by dsimp only [OUT.CFG]; omega)
  have below : s.f (OUT.CFG_SYNTH m) < 8 := Nat.mod_lt _ (Nat.two_pow_pos _)
  have locked : t.on (APL.STATUS_LOCKED (s.f (OUT.CFG_SYNTH m))) = s.on (APL.STATUS_LOCKED (s.f (OUT.CFG_SYNTH m))) := by
    generalize s.f (OUT.CFG_SYNTH m) = k at below
    exact s.on_of_f _ (h.f _ (by dsimp only [APL.STATUS]; omega) (by dsimp only [APL.STATUS]; omega)
      (.inl (by dsimp only [APL.STATUS]; omega)))
  have squelch : t.on (OUT.CTRL_LOL_SQ m) = s.on (OUT.CTRL_LOL_SQ m) :=
    s.on_of_f _ (h.own hm _ (by dsimp only [OUT.CTRL]; omega) (by dsimp only [OUT.CTRL]; omega))
  unfold State.waitsForLock
  rw [synth, locked, squelch]

/-- An output that waited begins at the sync point also after the outputs before it. -/
theorem synced (clock : s.isPulse m = false) (waits : (s.outC m).pendStart = true ∨ (s.outC m).pendAlign = true)
    (ready : (s.outC m).pendStart = true → s.waitsForLock m = false) : State.Synced m s (t.syncOut m) := by
  have begun := t.synced_syncOut hm ((s.isPulse_congr h.fab m).trans clock) (by rw [h.core]; exact waits)
    (by rw [h.core, h.waitsForLock hm]; exact ready)
  exact ⟨begun.running, begun.pendStart, begun.pendAlign,
    begun.phase.trans (h.own hm _ (by dsimp only [OUT.PHASE]; omega) (by dsimp only [OUT.PHASE]; omega)),
    begun.swing.trans (h.own hm _ (by dsimp only [OUT.CTRL]; omega) (by dsimp only [OUT.CTRL]; omega)), begun.shown⟩

end State.SparesOut

/-- Each output of a list that waits begins at the sync point (R346). -/
theorem State.synced_syncAll {l : List Nat} (mem : m ∈ l) (clock : s.isPulse m = false)
    (waits : (s.outC m).pendStart = true ∨ (s.outC m).pendAlign = true)
    (ready : (s.outC m).pendStart = true → s.waitsForLock m = false) : State.Synced m s (s.forL l State.syncOut) := by
  refine State.forL_brings (Q := fun t => s.SparesOut m t) mem (State.SparesOut.refl s m) (fun t x spared => ?_)
    (fun t spared => spared.synced hm clock waits ready) fun t x synced => ?_
  · by_cases e : m = x
    · exact .inr (e ▸ spared.synced hm clock waits ready)
    · exact .inl (spared.onlyOut (State.OnlyOut.refl t).syncOut e)
  · by_cases e : m = x
    · rw [← e, t.syncOut_idle m synced.pendStart synced.pendAlign]
      exact synced
    · exact synced.onlyOut hm (State.OnlyOut.refl t).syncOut e

/-! The ferry-hold limit. -/

theorem State.LimitSquelched.onlyOut {k : Nat} {d : Drive} (h : State.LimitSquelched m d t) (other : t.OnlyOut k u) (hk : m ≠ k) :
    State.LimitSquelched m d u := by
  have core := other.core m hk
  exact ⟨core ▸ h.squelched, (other.status_other hm hk).trans h.shown, (other.status_other hm hk).trans h.running, core ▸ h.drive⟩

end

section

variable (s : State)

/-- What the limit does to the output of a record (R147, R319). -/
def State.limitStep (s : State) (r : OutputRec) : State :=
  if r.squelch = 2 ∨ !s.on (OUT.CTRL_EN r.number) then s else s.ferrySquelch r.number

/-- Ferry hold that has lasted its limit. -/
def State.limitHit : State := { s with eng := { s.eng with limitHit := true } }

theorem execFerryLimitExpiry_hits {i : Image} (image : s.fab.img = some i) (ferry : s.eng.ferry = true) (first : s.eng.limitHit = false)
    (due : s.eng.ferryFrom + i.ferryS * 2000000000 ≤ s.now) :
    execFerryLimitExpiry s = .next (s.limitHit.forL i.outputs State.limitStep) := by
  have records : s.limitHit.outRecs = i.outputs := by
    unfold State.outRecs State.limitHit
    rw [image]
    rfl
  have due' : ¬ ((!s.eng.ferry) = true ∨ s.eng.limitHit = true ∨
      s.now < s.eng.ferryFrom + ((s.fab.img.map Image.ferryS).getD 0) * 2000000000) := by
    rw [image, ferry, first]
    rintro (h | h | h)
    · cases h
    · cases h
    · exact absurd h (Nat.not_lt.2 due)
  rw [← records]
  exact if_neg due'

variable {s}

theorem State.limitStep_cases (t : State) (r : OutputRec) :
    t.limitStep r = t ∨ t.limitStep r = t.ferrySquelch r.number := by
  unfold State.limitStep
  split
  · exact .inl rfl
  · exact .inr rfl

theorem State.eng_ferrySquelch (t : State) (m : Nat) : (t.ferrySquelch m).eng = t.eng := by
  unfold State.ferrySquelch State.refreshOut
  simp only [State.eng_logDev, State.eng_evIf, State.eng_setb, State.eng_modOut, State.eng_ev, State.eng_setf]

theorem State.limitHit_limitAll (l : List OutputRec) : (s.limitHit.forL l State.limitStep).eng.limitHit = true := by
  refine State.forL_keeps (P := fun t => t.eng.limitHit = true) rfl fun t r hit => ?_
  rcases t.limitStep_cases r with same | squelched
  · rw [same]
    exact hit
  · rw [squelched, State.eng_ferrySquelch]
    exact hit

/-- The limit squelches each enabled output that its record leaves to it (R319, R320). -/
theorem State.limitSquelched_limitAll {l : List OutputRec} {r : OutputRec} (mem : r ∈ l) (hm : r.number < 28) (allowed : r.squelch ≠ 2)
    (on : s.on (OUT.CTRL_EN r.number) = true) :
    State.LimitSquelched r.number (s.restDrive r.number) (s.limitHit.forL l State.limitStep) := by
  have squelch : ∀ t : State, t.fab = s.fab → t.top = s.top →
      State.LimitSquelched r.number (s.restDrive r.number) (t.ferrySquelch r.number) := fun t fab top => by
    rw [← s.restDrive_congr fab top]
    exact t.limitSquelched_ferrySquelch hm
  refine (State.forL_brings (Q := fun t => s.limitHit.SparesOut r.number t) (P := fun t =>
    State.LimitSquelched r.number (s.restDrive r.number) t ∧ t.fab = s.fab ∧ t.top = s.top) mem (State.SparesOut.refl _ _)
    (fun t x spared => ?_) (fun t spared => ?_) fun t x ⟨done, fab, top⟩ => ?_).1
  · rcases t.limitStep_cases x with same | squelched
    · rw [same]
      exact .inl spared
    · have only : t.OnlyOut x.number (t.ferrySquelch x.number) := (State.OnlyOut.refl t).ferrySquelch
      rw [squelched]
      by_cases e : r.number = x.number
      · exact .inr ⟨e ▸ squelch t spared.fab spared.top, only.fab.trans spared.fab, only.top.trans spared.top⟩
      · exact .inl (spared.onlyOut only e)
  · have only : t.OnlyOut r.number (t.ferrySquelch r.number) := (State.OnlyOut.refl t).ferrySquelch
    have enabled : t.on (OUT.CTRL_EN r.number) = true :=
      (s.limitHit.on_of_f _ (spared.own hm _ (by dsimp only [OUT.CTRL]; omega) (by dsimp only [OUT.CTRL]; omega))).trans on
    have step : t.limitStep r = t.ferrySquelch r.number := if_neg (by rw [enabled]; rintro (h | h); exacts [allowed h, nomatch h])
    rw [step]
    exact ⟨squelch t spared.fab spared.top, only.fab.trans spared.fab, only.top.trans spared.top⟩
  · rcases t.limitStep_cases x with same | squelched
    · rw [same]
      exact ⟨done, fab, top⟩
    · have only : t.OnlyOut x.number (t.ferrySquelch x.number) := (State.OnlyOut.refl t).ferrySquelch
      rw [squelched]
      refine ⟨?_, only.fab.trans fab, only.top.trans top⟩
      by_cases e : r.number = x.number
      · exact e ▸ squelch t fab top
      · exact done.onlyOut hm only e

/-! The commands. -/

section

variable (p : Port) (m : Fin 28) (n : Fin 8) (mask : BitVec 28) (s : State)

theorem exec_divLoad : exec (.divLoad p m) s = .next (s.doorbell p (OUT.CMD m) false (fun s => s.divLoad p m)) := rfl
theorem exec_fetchDiv : exec (.fetchDiv p m) s = .next (s.doorbell p (OUT.CMD m) false (fun s => s.fetchDiv p m)) := rfl
theorem exec_divApply : exec (.divApply m) s = execDivApply m s := rfl
theorem exec_outAlign : exec (.outAlign p m) s = .next (s.doorbell p (OUT.CMD m) false (fun s => s.realignOut m)) := rfl
theorem exec_realignOutputTask : exec (.realignOutputTask m) s = execRealignOutputTask m s := rfl
theorem exec_syncPoint : exec (.syncPoint n) s = .next (s.forL (s.outsOf n) State.syncOut) := rfl
theorem exec_groupEnable : exec (.groupEnable p n mask) s =
    .next (s.doorbell p (APL.GROUP n) false (fun s => s.aplGroup p n (1 * 2 ^ 30 + mask.toNat))) := by
  rw [one_mul]
  rfl
theorem exec_groupRealign : exec (.groupRealign p n mask) s =
    .next (s.doorbell p (APL.GROUP n) false (fun s => s.aplGroup p n (2 * 2 ^ 30 + mask.toNat))) := rfl
theorem exec_groupDisable : exec (.groupDisable p n mask) s =
    .next (s.doorbell p (APL.GROUP n) false (fun s => s.aplGroup p n (3 * 2 ^ 30 + mask.toNat))) := rfl
theorem exec_pulseLeadingEdge : exec (.pulseLeadingEdge m) s = execPulseLeadingEdge m s := rfl
theorem exec_pdiffCheck : exec (.pdiffCheck m) s = execPdiffCheck m s := rfl
theorem exec_ferryLimitExpiry : exec .ferryLimitExpiry s = execFerryLimitExpiry s := rfl

variable {p m n s}

/-- A doorbell of an output or of a group that is taken. -/
theorem State.takes.doorbell {key : Nat} (taken : s.takes p key false) (g : State → State) :
    s.doorbell p key false g = g (s.status p .ok) := s.doorbell_ok g taken.1 taken.2

variable {mask} in
/-- A write of GROUP that is taken and passes its checks orders its operation. -/
theorem State.takes.group {op : Nat} (taken : s.takes p (APL.GROUP n) false) (hop : op < 4)
    (ok : s.groupCheck p n (op * 2 ^ 30 + mask.toNat) = .ok) :
    s.doorbell p (APL.GROUP n) false (fun s => s.aplGroup p n (op * 2 ^ 30 + mask.toNat)) =
      (s.status p .ok).groupOrdered n op mask.toNat :=
  (taken.doorbell _).trans (State.aplGroup_taken _ hop mask.isLt ((s.groupCheck_status p n _).trans ok))

/-- A leading edge that the output makes (R356 to R358). -/
theorem outC_pulseLeadingEdge (pulse : s.isPulse m = true) (running : s.on (OUT.STATUS_RUNNING m) = true)
    (reached : ((s.outC m).edgesFrom : Int) ≤ (s.outC m).pulse) (grid : (s.outC m).onGrid = true) :
    ∃ t, exec (.pulseLeadingEdge m) s = .next t ∧ t.outC m = { s.outC m with
      widNs := s.f (OUT.WIDTH_NS m), swing := s.f (OUT.CTRL_SWING m)
      highUntil := s.now + if s.f (OUT.WIDTH_NS m) = 0 then (s.outC m).perNs else 2 * s.f (OUT.WIDTH_NS m) } :=
  ⟨_, (exec_pulseLeadingEdge m s).trans (if_pos ⟨pulse, running, reached, grid⟩),
    (State.outC_congr _ (State.out_route _ _) m).trans (s.outC_modOut m _)⟩

/-- The check of a pulse output shows whether its clock is off by more than ALIGN_TOL (R359). -/
theorem misaligned_pdiffCheck (landed : s.landed = true) (pulse : s.isPulse m = true) :
    ∃ t, exec (.pdiffCheck m) s = .next t ∧ t.out = s.out ∧
      t.on (OUT.STATUS_MISALIGNED m) = decide (s.f (OUT.ALIGN_TOL_PS m) * 2 ^ 56 <
        ((s.tscC (s.f (OUT.CFG_ANCHOR m))).val - (s.outC m).pulse).natAbs * 1000) := by
  have due : ¬ ((!s.landed) = true ∨ (!s.isPulse m) = true) := by
    rw [landed, pulse]
    rintro (h | h) <;> cases h
  refine ⟨_, (exec_pdiffCheck m s).trans (if_neg due), ?_, ?_⟩
  · rw [State.out_evIf, State.out_setb, State.out_setSat]
  · rw [State.on_of_f _ _ (State.status_evIf _ m.isLt _ (Nat.le_of_ble_eq_true rfl))]
    exact State.on_setb _ _ _ (Nat.le_of_ble_eq_true rfl) (Nat.le_of_ble_eq_true rfl)

end

/-- Settles O44: each clause by what its operation brings to the output; for the commands over several outputs by `State.forL_brings`. -/
theorem outputs : Obligations.Outputs := by
  unfold Obligations.Outputs
  refine ⟨?load, ?fetch, ?apply, ?hold, ?waits, ?align, ?task, ?sync, ?enable, ?realign, ?disable, ?edge, ?pdiff, ?limit⟩
  case load =>
    intro p m a b c d s taken filled hb hd clock fits
    refine ⟨_, (exec_divLoad p m s).trans (congrArg _ (taken.doorbell _)), ?_⟩
    exact State.divLoad_loads _ m.isLt ((s.mboxIn_status p p .ok 4).trans filled)
      ⟨hb, hd, by rw [State.isPulse_status, clock]; rfl, (s.divFits_status p m _ _).trans fits⟩
  case fetch =>
    intro p m s taken
    refine ⟨_, (exec_fetchDiv p m s).trans (congrArg _ (taken.doorbell _)), (State.out_mboxOut _ _ _).trans (s.out_status p .ok), ?_⟩
    rw [← s.outC_status p m]
    exact State.mboxHolds_mboxOut _ p _ (Nat.le_of_ble_eq_true rfl)
  case apply =>
    intro m d x s loaded start align
    have core := s.outC_periodEnded m
    have applied : execDivApply m s = .next ((s.periodEnded m).takeDivider m) := by
      rw [execDivApply_eq, start, align, Bool.and_false]
      rfl
    obtain ⟨taken, pend, done⟩ := (s.periodEnded m).takeDivider_takes m.isLt (by rw [core]; exact loaded)
    refine ⟨_, (exec_divApply m s).trans applied, ?_⟩
    rw [taken, core]
    exact ⟨rfl, rfl, rfl, rfl, pend, done⟩
  case hold =>
    intro m s running align
    have core := s.outC_periodEnded m
    have held : execDivApply m s = .next ((s.periodEnded m).refreshOut m) := by
      rw [execDivApply_eq, running, align]
      rfl
    refine ⟨_, (exec_divApply m s).trans held, ?_⟩
    rw [State.running_refreshOut _ m.isLt, State.outC_refreshOut, core, running, align]
    exact ⟨Bool.or_true _, rfl, rfl, by rw [Bool.and_self, Bool.or_true, Bool.not_true, Bool.and_false]; rfl⟩
  case waits =>
    intro m s nothing notHeld
    have same : execDivApply m s = .next (s.periodEnded m) := by
      rw [execDivApply_eq, notHeld]
      rcases nothing with none | start | align
      · rw [State.takeDivider_none _ _ (by rw [State.outC_periodEnded]; exact none)]
        exact congrArg _ (ite_self _)
      · rw [start]
        rfl
      · rw [align, Bool.or_true]
        rfl
    refine ⟨_, (exec_divApply m s).trans same, ?_, s.regs_modOut m _⟩
    rw [State.outC_periodEnded, notHeld, Bool.or_false]
  case align =>
    intro p m s taken
    refine ⟨_, (exec_outAlign p m s).trans (congrArg _ (taken.doorbell _)), fun pulse => ?_, fun clock on => ?_, fun clock off => ?_⟩
    · rw [State.realignOut_pulse _ m ((s.isPulse_status p m).trans pulse)]
      have aligned := (s.status p .ok).alignPulse_aligns m.isLt
      rwa [State.f_status, State.f_status, State.fi_status, State.tscC_status] at aligned
    · exact State.realignOut_waits _ m ((s.isPulse_status p m).trans clock) ((s.on_status p _).trans on)
    · rw [State.realignOut_off _ m ((s.isPulse_status p m).trans clock) ((s.on_status p _).trans off)]
      exact ⟨s.out_status p .ok, s.regs_status p .ok⟩
  case task =>
    intro m r rs s pending
    let u := s.modTasks (taskKey (0x68 + m) 0) (fun _ => rs)
    refine ⟨u.realignOut m, (exec_realignOutputTask m s).trans (execRealignOutputTask_of_pending s pending), ?_, fun pulse => ?_,
      fun clock on => u.realignOut_waits m clock on⟩
    · unfold State.tasksC
      rw [State.tasks_realignOut]
      exact s.tasksC_modTasks _ _
    · rw [State.realignOut_pulse u m pulse]
      obtain ⟨value, -, -, shown⟩ := u.alignPulse_aligns m.isLt
      exact ⟨value, shown⟩
  case sync =>
    intro n s
    refine ⟨_, exec_syncPoint n s, fun m mem hm clock waits ready => ?_⟩
    obtain ⟨running, start, align, phase, swing, shown⟩ := State.synced_syncAll hm mem clock waits ready
    exact ⟨running, start, align, phase, swing, shown⟩
  case enable =>
    intro p n mask s taken ok
    rw [← one_mul (2 ^ 30)] at ok ⊢
    refine ⟨_, (exec_groupEnable p n mask s).trans (congrArg _ (taken.group (by decide) ok)),
      State.group_groupOrdered _ n (by decide) mask.isLt, fun m hm => ?_⟩
    rw [State.on_groupEnabled _ n _ hm, State.on_status]
  case realign =>
    intro p n mask s taken ok
    exact ⟨_, (exec_groupRealign p n mask s).trans (congrArg _ (taken.group (by decide) ok)),
      State.group_groupOrdered _ n (by decide) mask.isLt, fun m hm member clock on =>
        State.EnabledClock.groupRealigned_waits hm ⟨(s.isPulse_status p m).trans clock, (s.on_status p _).trans on⟩ n member⟩
  case disable =>
    intro p n mask s taken ok
    refine ⟨_, (exec_groupDisable p n mask s).trans (congrArg _ (taken.group (by decide) ok)),
      State.group_groupOrdered _ n (by decide) mask.isLt, fun m hm => ?_, fun m hm member => State.groupDisabled_stops _ n _ hm member⟩
    rw [State.on_groupDisabled _ n _ hm, State.on_status]
  case edge =>
    intro m s pulse running reached grid
    obtain ⟨t, made, core⟩ := outC_pulseLeadingEdge pulse running reached grid
    exact ⟨t, made, by rw [core], by rw [core], by rw [core]⟩
  case pdiff =>
    intro m s landed pulse
    exact misaligned_pdiffCheck landed pulse
  case limit =>
    intro i s image ferry first due
    refine ⟨_, (exec_ferryLimitExpiry s).trans (execFerryLimitExpiry_hits s image ferry first due), State.limitHit_limitAll _,
      fun r mem hm allowed on => ?_⟩
    obtain ⟨squelched, shown, running, drive⟩ := State.limitSquelched_limitAll mem hm allowed on
    exact ⟨squelched, shown, running, drive⟩

end

end Sys2Proof.Machine
end
